-- ==== Sys2Proof/Word.lean ====
section
/-! DEFINITION. The word types of the node: a byte, and the 32-bit register word (R620: 32-bit registers, little-endian). -/
set_option Elab.async false
namespace Sys2Proof

/-- A byte. -/
abbrev Byte := BitVec 8

/-- A register word (R620). -/
abbrev Word := BitVec 32

end Sys2Proof
end

