-- ==== Sys2Proof/Machine/Bits.lean ====
section
/-! DEFINITION. Byte strings, bit fields, two's complement, rounding and saturation: the plain arithmetic every chapter uses.
Multi-byte values are little-endian unless a table says otherwise (spec/00_scope.md, Notation). -/
set_option Elab.async false
namespace Sys2Proof.Machine

/-- A byte string: the payload of a cell, a message body, a ring entry. -/
abbrev Bytes := List Byte

/-- The `n` low bytes of `v`, lowest first. -/
def toLE : Nat → Nat → Bytes
  | 0, _ => []
  | n + 1, v => BitVec.ofNat 8 v :: toLE n (v / 256)

/-- The number that a byte string spells, lowest byte first. -/
def ofLE : Bytes → Nat
  | [] => 0
  | b :: bs => b.toNat + 256 * ofLE bs

/-- Bytes `off` to `off + n - 1` of a string as a number. -/
def le (b : Bytes) (off n : Nat) : Nat := ofLE ((b.drop off).take n)

/-- The string with bytes `off` to `off + n - 1` set to `v`. -/
def put (b : Bytes) (off n v : Nat) : Bytes := b.take off ++ toLE n v ++ b.drop (off + n)

/-- `n` bytes of 0. -/
def zeros (n : Nat) : Bytes := List.replicate n 0

/-- A message of `n` bytes with the fields (offset, length, value) of its format table; every other byte is 0. -/
def mkMsg (n : Nat) (fs : List (Nat × Nat × Nat)) : Bytes :=
  fs.foldl (fun b f => put b f.1 f.2.1 f.2.2) (zeros n)

/-- Bits `lo` to `lo + w - 1` of a number. -/
def bits (v lo w : Nat) : Nat := v / 2 ^ lo % 2 ^ w

/-- Bit `k` of a number. -/
def bitOf (v k : Nat) : Bool := v / 2 ^ k % 2 == 1

/-- The number with bits `lo` to `lo + w - 1` replaced by `x`. -/
def setBits (v lo w x : Nat) : Nat :=
  v / 2 ^ (lo + w) * 2 ^ (lo + w) + x % 2 ^ w * 2 ^ lo + v % 2 ^ lo

/-- 1 for true. -/
def b2n (b : Bool) : Nat := if b then 1 else 0

/-- The signed value of a two's complement number of `w` bits. -/
def sgn (w v : Nat) : Int := if v % 2 ^ w < 2 ^ (w - 1) then (v % 2 ^ w : Nat) else (v % 2 ^ w : Nat) - (2 ^ w : Nat)

/-- The two's complement code of `v` in `w` bits. -/
def unsgn (w : Nat) (v : Int) : Nat := (v % (2 ^ w : Nat)).toNat

/-- `v` brought into the range `lo` to `hi`. -/
def clampI (lo hi v : Int) : Int := if v < lo then lo else if hi < v then hi else v

/-- `v` brought into the range `lo` to `hi`. -/
def clampN (lo hi v : Nat) : Nat := if v < lo then lo else if hi < v then hi else v

/-- The quotient rounded to nearest, ties away from zero. -/
def roundDiv (a : Int) (d : Nat) : Int :=
  if 0 ≤ a then (2 * a + d) / (2 * d) else -((2 * (-a) + d) / (2 * d))

/-- The quotient of naturals rounded to nearest, ties upward. -/
def roundDivN (a d : Nat) : Nat := (2 * a + d) / (2 * d)

/-- The quotient rounded up. -/
def ceilDiv (a d : Nat) : Nat := (a + d - 1) / d

/-- The signed difference `a - b` of two sequence numbers of `w` bits (the spec's signed8 and signed32 comparisons). -/
def seqDiff (w a b : Nat) : Int := sgn w (a + 2 ^ w - b % 2 ^ w)

/-- Replace element `k` of a list by `f` of it. -/
def modAt {α : Type} (l : List α) (k : Nat) (f : α → α) : List α :=
  match l, k with
  | [], _ => []
  | x :: xs, 0 => f x :: xs
  | x :: xs, k + 1 => x :: modAt xs k f

/-- Element `k` of a list, with a default. -/
def nth {α : Type} (l : List α) (k : Nat) (d : α) : α := l.getD k d

/-- The numbers `0` to `n - 1` whose bit of `v` is set. -/
def bitList (v n : Nat) : List Nat := (List.range n).filter (bitOf v)

/-- The bitwise complement of a string. -/
def complement (b : Bytes) : Bytes := b.map (fun x => ~~~x)

end Sys2Proof.Machine
end

