-- ==== Sys2Proof/Machine/Operand.lean ====
section
/-! DEFINITION. The operand types of the commands that are more than a number or a byte string. -/
set_option Elab.async false
namespace Sys2Proof.Machine

/-- What a host sees as the source of a datagram: its IPv4 address and UDP port. -/
structure Peer where
  ip : Nat
  port : Nat
  deriving DecidableEq, Repr

/-- A Sync, with its Follow_Up where the master is two-step, as the head's PTP port receives it (R173): the master's
identity, the origin time (in 2^-16 ns), the correction field (in 2^-16 ns). -/
structure PtpSync where
  domain : Nat
  master : Nat
  origin : Nat
  corr : Int
  deriving DecidableEq, Repr

/-- An Announce message (R173, R176): the master's identity, its clockClass and UTC data, and the verdict of the BMCA of
IEEE 1588-2019, which the spec names and does not define. -/
structure PtpAnnounce where
  domain : Nat
  master : Nat
  cls : Nat
  utcOffset : Int
  utcValid : Bool
  leap61 : Bool
  leap59 : Bool
  best : Bool
  deriving DecidableEq, Repr

/-- What HELLO carries (R137); `checks` is the result of R142 after a divergence (true: a check failed), `final` the final
tally of every stream on a handover. The spec lists these and gives them no byte layout. -/
structure Hello where
  /-- TALLY of the cell of stream 44 that carries it (R123). -/
  tally : Nat
  state : Nat
  prio : Nat
  serial : Nat
  configEpoch : Nat
  compact : Bool
  clean : Bool
  live : Nat
  incarnation : Nat
  start : Bool
  checks : Option Bool
  final : List (Nat × Nat)
  /-- The wave that the other head is to start: ring, DIR, hop, WALL_BASE, GEN (assumption 74). -/
  wave : Option (Nat × Nat × Nat × Nat × Nat)
  /-- The late tiles whose REQUEST has come on a ring port of the sender: serial, ring (assumption 74). -/
  requests : List (Nat × Nat)
  deriving DecidableEq, Repr

/-- What a RESYNC copy carries (R150), in the three phases: committed register values with CONFIG_EPOCH and with the base and size
of the clip store (R438), the enumerated wall (GEN; of each tile serial, ring, hop and [0] EXCESS, [1] present, [2] out of service) with
the committed values that decide the tiles' lamps (serial, offset, value); TEPOCH with the timings kept (rate code, slots, PHASE, the one in
force first; R633); the epoch of this head that the bellwether knows, with the next ticket number of each context and whether mirroring
stayed up (R407, R415); journal records of this head; clip-store bytes; and the end of a phase. -/
inductive ResyncPart where
  | config (epoch clipBase clipSize : Nat) (regs : List (Nat × Word))
  | timing (tepoch : Nat) (epochs : List (Nat × Nat × Nat)) (changes : List Nat)
  | wall (gen : Nat) (tiles : List (Nat × Nat × Nat × Nat)) (lamps : List (Nat × Nat × Nat)) (enumDone : Nat)
  | epoch (epoch : Nat) (next : List Nat) (whole : Bool)
  | journal (record payload : Bytes) (whole : Bool)
  | clip (addr : Nat) (data : Bytes)
  | phaseEnd (phase : Nat)
  deriving DecidableEq, Repr

/-- A source of frames: DisplayPort receiver, ST 2110 flow, pattern generator of a head fold (Table 2-1). -/
inductive Src where
  | dp (n : Fin 4)
  | flow (n : Fin 16)
  | fold (n : Fin 4)
  deriving DecidableEq, Repr

/-- A frame as a source delivers it (R42, R44): its RTP timestamp if it is a flow's; size, colour model (0 RGB, 1 YCbCr 4:4:4, 2 4:2:2,
3 4:2:0, others none of these), bits per component, scan; its plane lines (line, plane, bytes), in two planes for 4:2:0 and in one else
(Table 7-3). -/
structure SrcFrame where
  id : Nat
  width : Nat
  height : Nat
  model : Nat
  bpc : Nat
  interlaced : Bool
  lines : List (Nat × Nat × List (BitVec 8))
  deriving DecidableEq, Repr

/-- An Ethernet packet at the ST 2110 receiver (R47 to R49): addresses, port, payload type, VLAN, RTP version, the part of ST 2110 that
its payload follows (20, 30, 40; 0 for other traffic), bytes of UDP payload, extended sequence number, RTP timestamp, marker, whether a
row header names a field of an interlaced frame, whether the receive buffer is full, and the sample rows, one for each row header (line,
plane, byte offset, bytes). -/
structure Packet where
  port : Nat
  dst : Nat
  src : Nat
  udp : Nat
  pt : Nat
  vlan : Option Nat
  version : Nat
  essence : Nat
  size : Nat
  seq : Nat
  stamp : Nat
  marker : Bool
  interlaced : Bool
  full : Bool
  rows : List (Nat × Nat × Nat × List (BitVec 8))
  deriving DecidableEq, Repr

/-- A DisplayPort AUX read (R42): EDID bytes, or DPCD. -/
inductive Aux where
  | edid (offset len : Nat)
  | dpcd (addr len : Nat)
  deriving DecidableEq, Repr

/-- A request that waits at a memory channel: class at entry, time waited in ns, granule (R442). -/
structure MemReq where
  cls : Nat
  wait : Nat
  granule : Nat
  deriving DecidableEq, Repr

/-- A word of a fold's memories whose stored bits have changed (R347, R350): program memory, load image, scratch. -/
inductive Upset where
  | prog (word : Nat)
  | load (word : Nat)
  | scratch (word : Nat)
  deriving DecidableEq, Repr

/-- What a pipeline stage met while it worked (R254, R279, R318, R431): a table entry of bad parity, a reference of bad
parity (group, block), an uncorrectable word of frame memory (address of its granule, index in the granule). -/
inductive PipeErr where
  | table (id index : Nat)
  | ref (group block : Nat)
  | mem (granule word : Nat)
  deriving DecidableEq, Repr

/-- What of a flock fails its check on a node (R218): the record of the flock, or its staged content. -/
inductive FlockPart where
  | record | content
  deriving DecidableEq, Repr

end Sys2Proof.Machine
end

