-- ==== Sys2Proof/Syntax.lean ====
section
/-! DEFINITION. The commands of the block: one constructor for each row of spec/opcode_table.json. A command's operands are
what reaches the node from outside when it happens: the port, the bytes received, the measured value, the context and the
value written. -/
set_option Elab.async false
namespace Sys2Proof
open Sys2Proof.Machine

/-- The commands. -/
inductive Instr where
  /-- `POR_N_ASSERT` (R579). POR_N goes low: every PWR_EN output drops within 1 µs, THERMTRIP_N and FAULT_N are released, and the brownout and trip histories are cleared. -/
  | porNAssert
  /-- `POR_N_RISE` (R574). POR_N rises: the straps are sampled, the AON oscillator and reset controller start, and the power-up order begins. -/
  | porNRise (straps : Nat)
  /-- `POWER_STEP` (R574). The rails of the previous step have been good for 1 ms, so the next PWR_EN output is asserted. -/
  | powerStep (mv : List Nat)
  /-- `POWER_GOOD` (R574). VDD_MEMPHY has been good for 1 ms: the node reaches power-good, the role gating is applied and the core and islands are released. -/
  | powerGood (mv : List Nat)
  /-- `RAIL_ENABLE_TIMEOUT` (R574). A rail is not good within 20 ms of its enable and counts as a power fault. -/
  | railEnableTimeout
  /-- `BROWNOUT` (R576). A switched rail lies outside its good window in 2 consecutive samples, and the node blanks its drivers, holds its logic in reset and sequences its rails off. -/
  | brownout (rail : Fin 7) (mv0 : Nat) (mv1 : Nat)
  /-- `BROWNOUT_RESTART` (R578). 1 s after the last PWR_EN drops, the node restarts at step 2 of the power-up order, unless this is the third brownout within 60 minutes. -/
  | brownoutRestart
  /-- `RESET_N_ASSERT` (R581). A filtered low pulse on RESET_N starts a pin reset of every island and the core. -/
  | resetNAssert (widthNs : Nat)
  /-- `RESET_N_RELEASE` (R581). RESET_N rises, and the boot ROM starts within 100 µs, once any flash or OTP unit in progress has completed. -/
  | resetNRelease
  /-- `BOOT_ROM_START` (R511). The boot ROM checks the life cycle, straps and flash, chooses a slot, verifies and loads it, trains memory and hands off. -/
  | bootRomStart (flashOk : Bool) (clearOk : Bool) (failing : List (Nat × Nat × Nat × Bool))
  /-- `MEMORY_TRAINING_DONE` (R448). Every populated channel has trained, or one has failed and the boot stops. -/
  | memoryTrainingDone (failed : Option (Fin 8)) (mismatch : Bool) (journalOk : Bool)
  /-- `RST_WARM` (R583). A completed RST_CTL pair with WARM requests a warm reset of the node. -/
  | rstWarm (ctx : Fin 8)
  /-- `RST_POWER_OFF` (R577). A completed RST_CTL pair with POWER_OFF requests a power-down of the node. -/
  | rstPowerOff (ctx : Fin 8)
  /-- `RST_ISLAND` (R583). A completed RST_CTL pair with ISLAND bits requests resets of the named islands. -/
  | rstIsland (ctx : Fin 8) (mask : Nat)
  /-- `RST_FOLD` (R584). A completed RST_CTL pair with FOLD bits requests resets of the named folds. -/
  | rstFold (ctx : Fin 8) (mask : Nat)
  /-- `RST_CTL_ACTION` (R583). 100 µs after the RST_CTL pair completes, the requested reset or power-down is taken. -/
  | rstCtlAction
  /-- `ISLAND_RESET_RELEASE` (R467). The island's reset ends and its clock has been stable for 4 cycles, so the release handshake brings the island and its crossings out of reset. -/
  | islandResetRelease (isl : Fin 9)
  /-- `ISLAND_CLOCK_LOST` (R460). A clock monitor finds the island's PLL unlocked or its clock without an edge for 1 µs, and the island is reset jointly. -/
  | islandClockLost (isl : Fin 9)
  /-- `ISLAND_CLOCK_STABLE` (R469). A lost island clock has returned and been stable for 4 cycles, so the reset controller releases the island. -/
  | islandClockStable (isl : Fin 9)
  /-- `REFCLK_LOSS` (R469). Loss of REFCLK resets every island except AON and PCIE, and is a lock reset of the node clock. -/
  | refclkLoss
  /-- `XING_EVENT` (R463). A source raises a class E event: a handshake starts, or the event is latched as pending, or it is lost by overrun. -/
  | xingEvent (isl : Fin 9) (line : Nat)
  /-- `XING_ACK` (R464). The acknowledge of a handshake arrives and any pending event starts the next handshake. -/
  | xingAck (isl : Fin 9) (line : Nat)
  /-- `XING_STUCK` (R465). A handshake is still in flight after XING_ACK_LIMIT, so STUCK is set and the island is reset jointly. -/
  | xingStuck (isl : Fin 9) (line : Nat)
  /-- `PCIE_RESET` (R467). A PCIe fundamental reset or link drop resets the PCIE island through the forced reset handshake. -/
  | pcieReset
  /-- `PCIE_FLR` (R585). A Function Level Reset resets one PCIe function and holds its two contexts' transport down until it completes. -/
  | pcieFlr (fn : Fin 4)
  /-- `PCIE_FLR_DONE` (R585). The FLR completes and the function's contexts have their transport back. -/
  | pcieFlrDone (fn : Fin 4)
  /-- `RWP_WRITE_OPEN` (R9). A write to an RWP offset A opens a pending pair for the writing context. -/
  | rwpWriteOpen (ctx : Fin 8) (addr : Nat) (value : Nat)
  /-- `RWP_COMPLETE` (R9). A write to A + 4 completes the pair, or discards it and flags an RWP fault. -/
  | rwpComplete (ctx : Fin 8) (addr : Nat) (value : Nat)
  /-- `RWP_WINDOW_EXPIRE` (R9). The context makes 16 register accesses without the complement, so the pair is discarded and an RWP fault is flagged. -/
  | rwpWindowExpire (ctx : Fin 8)
  /-- `REGISTER_WRITE` (R237). A write to a register that has no row of its own is applied at once or at its latch, W1C and clamping included. -/
  | registerWrite (ctx : Fin 8) (addr : Nat) (value : Nat)
  /-- `RC_REGISTER_READ` (R8). A read of an RC counter returns its value and clears it. -/
  | rcRegisterRead (ctx : Fin 8) (addr : Nat)
  /-- `LO_HALF_READ` (R624). A read of a _LO half captures the _HI half for the next read by the same context. -/
  | loHalfRead (ctx : Fin 8) (addr : Nat)
  /-- `PRBS_COUNTER_LO_READ` (R102). A read of a PRBS _LO counter half captures its _HI half. -/
  | prbsCounterLoRead (ctx : Fin 8) (addr : Nat)
  /-- `BAR0_WRITE` (R396). A write through a BAR0 view takes effect only on the context's own writable queue registers, and is otherwise discarded and recorded. -/
  | bar0Write (ctx : Fin 8) (addr : Nat) (value : Nat) (whole : Bool)
  /-- `SQ_TAIL_WRITE` (R400). A write of CTXn_SQ_TAIL rings the doorbell and exposes new command entries. -/
  | sqTailWrite (ctx : Fin 8) (value : Nat)
  /-- `CQ_HEAD_WRITE` (R402). A write of CTXn_CQ_HEAD frees completion entries, so held completions can be written and commands taken again. -/
  | cqHeadWrite (ctx : Fin 8) (value : Nat)
  /-- `MGMT_ENTRY_RX` (R397). An ENTRY datagram arrives and is placed at SQ_TAIL, ignored as a retransmission, or discarded. -/
  | mgmtEntryRx (ctx : Fin 8) (src : Peer) (index : Nat) (entry : Bytes) (payload : Bytes)
  /-- `MGMT_CQ_READ_RX` (R397). A CQ_READ datagram sets CQ_HEAD and resends the completion entries from that index. -/
  | mgmtCqReadRx (ctx : Fin 8) (src : Peer) (index : Nat)
  /-- `MGMT_ARP_RX` (R397). The management MAC answers an ARP request. -/
  | mgmtArpRx (target : Nat) (asker : Nat)
  /-- `REG_WRITE` (R403). The REG_WRITE command is checked and becomes a ticket of register writes, or a staged write of a flock. -/
  | regWrite (ctx : Fin 8) (entry : Bytes) (payload : Bytes) (readOk : Bool)
  /-- `TABLE_WRITE` (R403). The TABLE_WRITE command is checked and becomes a ticket that writes table entries, or a staged write of a flock. -/
  | tableWrite (ctx : Fin 8) (entry : Bytes) (payload : Bytes) (readOk : Bool)
  /-- `MEM_WRITE` (R441). The MEM_WRITE command writes clip or still data into the clip store on the bellwether. -/
  | memWrite (ctx : Fin 8) (entry : Bytes) (payload : Bytes) (readOk : Bool)
  /-- `HURDLE_POST` (R261). A hurdle post for a layer is accepted, its EFFECTIVE is computed, and a HURDLE message is sent, unless the post is stale. -/
  | hurdlePost (ctx : Fin 8) (entry : Bytes)
  /-- `POSE_POST` (R283). A camera pose post is accepted, its EFFECTIVE is computed, and a POSE message is sent. -/
  | posePost (ctx : Fin 8) (entry : Bytes)
  /-- `TILE_SERVICE` (R403). The TILE_SERVICE command marks a tile out of service or back in service. -/
  | tileService (ctx : Fin 8) (entry : Bytes)
  /-- `FLOCK_OPEN` (R201). The bellwether allocates a flock ID and sends OPEN on stream 16. -/
  | flockOpen (ctx : Fin 8) (entry : Bytes)
  /-- `FLOCK_CALL` (R206). The bellwether checks the wall-wide limits, then fixes D_v, T and the participants and sends CALL, or aborts with LIMIT. -/
  | flockCall (ctx : Fin 8) (entry : Bytes)
  /-- `FLOCK_CANCEL` (R199). An undecided flock is aborted with reason HOST. -/
  | flockCancel (ctx : Fin 8) (entry : Bytes)
  /-- `FLOCK_QUERY` (R199). The query is answered with the flock's state and counts. -/
  | flockQuery (ctx : Fin 8) (entry : Bytes)
  /-- `TXBEGIN` (R222). The context opens a local transaction with its boundary. -/
  | txbegin (ctx : Fin 8) (entry : Bytes)
  /-- `TXEND` (R223). The transaction's checks are made, and its group is scheduled at its boundary or discarded whole. -/
  | txend (ctx : Fin 8) (entry : Bytes)
  /-- `TXABORT` (R223). The open transaction is discarded with reason HOST. -/
  | txabort (ctx : Fin 8) (entry : Bytes)
  /-- `TUNNEL` (R416). The bellwether accepts a tunnelled command and sends it to the tile as a TUNNEL_CMD on stream 20. -/
  | tunnel (ctx : Fin 8) (entry : Bytes) (payload : Bytes) (readOk : Bool)
  /-- `REG_READ` (R403). Up to 8 register values are read and returned in an ANSWER. -/
  | regRead (ctx : Fin 8) (entry : Bytes) (pads : Nat)
  /-- `MEM_READ` (R441). Data from the clip store, the correction region or fold scratch is returned by DMA or in CQ_DATA. -/
  | memRead (ctx : Fin 8) (entry : Bytes)
  /-- `TICKET_QUERY` (R403). The query is answered with the state, result and data of a ticket, from the node's journal or its peer journal. -/
  | ticketQuery (ctx : Fin 8) (entry : Bytes)
  /-- `TICKET_ACCEPT` (R406). The ticket's journal record is stored, and mirrored when mirroring is up, so the ticket is ACCEPTED at τ and SQ_HEAD advances. -/
  | ticketAccept (ctx : Fin 8)
  /-- `TICKET_EXECUTE` (R408). The previous ticket of the context reaches its hand-off, so this ticket enters EXECUTING and is carried out. -/
  | ticketExecute (ctx : Fin 8)
  /-- `TUNNEL_CMD_RX` (R417). A tile takes an inner entry on its context, or answers again a duplicate from its record. -/
  | tunnelCmdRx (payload : Bytes)
  /-- `TUNNEL_REPLY_RX` (R417). The bellwether relays a new REPLY into the origin context and sends REPLY_ACK. -/
  | tunnelReplyRx (payload : Bytes)
  /-- `REPLY_ACK_RX` (R417). The tile takes the completion as consumed and advances CQ_HEAD of its context. -/
  | replyAckRx (payload : Bytes)
  /-- `REPLY_REPEAT_TIMER` (R417). 1 ms passes without REPLY_ACK, so the tile repeats the REPLY. -/
  | replyRepeatTimer (seq : Nat)
  /-- `MIRROR_RECORD_RX` (R413). A head stores a mirrored journal record in its peer journal and acknowledges it on stream 41. -/
  | mirrorRecordRx (record : Bytes) (payload : Bytes)
  /-- `MIRROR_ACK_RX` (R140). The other head's acknowledgement of a mirrored record arrives. -/
  | mirrorAckRx (ctx : Fin 8) (ticket : Nat)
  /-- `MIRROR_ACK_TIMEOUT` (R140). No acknowledgement arrives within 50 µs, so MIRROR_UP is cleared and tickets are accepted unmirrored. -/
  | mirrorAckTimeout
  /-- `DPRX_HPD_IRQ` (R43). Writing HPD_IRQ sends one HPD IRQ pulse while HPD is asserted. -/
  | dprxHpdIrq (rx : Fin 4)
  /-- `DP_LINK_TRAINED` (R42). A DisplayPort receiver completes link training as a sink and reports its rate and lanes. -/
  | dpLinkTrained (rx : Fin 4) (rate : Nat) (lanes : Nat)
  /-- `DP_LINK_LOSS` (R44). A DisplayPort link is lost: MSA_STABLE clears and the current source frame becomes incomplete. -/
  | dpLinkLoss (rx : Fin 4)
  /-- `SOURCE_FRAME_START` (R38). A new source frame starts and any incomplete previous frame is discarded and counted. -/
  | sourceFrameStart (src : Src) (id : Nat)
  /-- `SOURCE_FRAME_COMPLETE` (R37). The last active line of a source frame is written, so the frame becomes a candidate and MSA stability is judged. -/
  | sourceFrameComplete (src : Src) (f : SrcFrame)
  /-- `CT_LINE_WRITTEN` (R39). A cut-through line is written to frame memory, and its cells are sent as R34 permits. -/
  | ctLineWritten (src : Src) (line : Nat) (planes : List Bytes)
  /-- `ST2110_PACKET_RX` (R47). An Ethernet packet is matched to a flow and placed, or dropped for overflow, or counted as a discard. -/
  | st2110PacketRx (p : Packet)
  /-- `IGMP_REPORT_TIMER` (R50). The second unsolicited report of a flow is sent 1 s after the first. -/
  | igmpReportTimer (flow : Fin 16)
  /-- `IGMP_QUERY_RX` (R50). A general or group-specific query is answered for each enabled flow. -/
  | igmpQueryRx (port : Fin 4) (group : Option Nat)
  /-- `LAYER_LATCH` (R37). At a layer's latch point L_n the head decides the layer frame as NEW, REPEAT or CUT_THROUGH. -/
  | layerLatch (layer : Fin 16)
  /-- `LAYER_CELL_SEND` (R34). The head sends the next cell of a layer frame at its paced time within the active interval. -/
  | layerCellSend (layer : Fin 16)
  /-- `LAYER_ADDR_COMMIT` (R36). A write of LAYERn_ADDR_LO commits a still buffer address for the frame that its timestamp selects. -/
  | layerAddrCommit (layer : Fin 16) (value : Nat)
  /-- `LAYER_CLIP_WRITE` (R55). A write of LAYERn_CLIP starts, restarts or stops clip playback after its acceptance checks. -/
  | layerClipWrite (layer : Fin 16) (value : Nat)
  /-- `FA_RECORD_RX` (R60). The standby follows a frame-assignment record and sends the named frame under its tallies, or counts a failure. -/
  | faRecordRx (record : Bytes)
  /-- `PORT_ENABLE` (R97). Writing ENABLE = 1 moves a DISABLED port to DETECT, or records CFG when its configuration is invalid. -/
  | portEnable (port : Fin 7)
  /-- `PORT_DISABLE` (R97). Writing ENABLE = 0 puts the port in DISABLED, with its transmitter at electrical idle within 1 µs. -/
  | portDisable (port : Fin 7)
  /-- `TRAINING_FRAME_RX` (R83). A training frame is received: its requests are answered and its status is taken, or, while the port is UP, it makes the port FAULT with reason PARTNER. -/
  | trainingFrameRx (lane : Fin 28) (control : Nat) (status : Nat) (comp : Nat) (inverted : Bool)
  /-- `DETECT_COMPLETE` (R85). Signal and 3 valid frames are present on every lane, so the rate is agreed and the port enters TRAIN. -/
  | detectComplete (port : Fin 7)
  /-- `TRAIN_READY` (R86). Both sides show RX_READY, so the 16 final frames with PRECODE_ON are sent. -/
  | trainReady (port : Fin 7) (adapt : List (Nat × Int))
  /-- `TRAIN_END` (R97). The 16 final training frames have been sent, so the port enters ALIGN. -/
  | trainEnd (port : Fin 7)
  /-- `TRAIN_TIMEOUT` (R85). PORT_TRAIN_TIMEOUT expires, so the rate is marked failed and the port returns to DETECT, or enters FAULT with NO_RATE. -/
  | trainTimeout (port : Fin 7)
  /-- `ALIGN_COMPLETE` (R94). Codeword and marker lock and deskew are achieved on every lane, so the port enters CHECK. -/
  | alignComplete (port : Fin 7) (arrivals : List Nat)
  /-- `ALIGN_TIMEOUT` (R97). ALIGN lasts 10 ms, so the port enters FAULT with reason ALIGN. -/
  | alignTimeout (port : Fin 7)
  /-- `CHECK_TX_TIMER` (R86). Every 10 µs in CHECK the port sends IDENT and CAP, and CONFIRM once both of the partner's have arrived. -/
  | checkTxTimer (port : Fin 7)
  /-- `IDENT` (R88). A LINK IDENT message is received and the partner's serial, role, port and kind are recorded. -/
  | ident (port : Fin 7) (block : Bytes)
  /-- `CAP` (R87). A LINK CAP message is received with the partner's rates and encryption capability. -/
  | cap (port : Fin 7) (block : Bytes)
  /-- `CONFIRM` (R88). A LINK CONFIRM message is received and checked for wiring and precoding agreement. -/
  | confirm (port : Fin 7) (block : Bytes)
  /-- `CHECK_COMPLETE` (R76). CONFIRM is sent and received and the pair is permitted, so the port enters UP or LOW_RATE. -/
  | checkComplete (port : Fin 7)
  /-- `CHECK_TIMEOUT` (R97). CHECK lasts 5 ms, so the port enters FAULT with reason CHECK. -/
  | checkTimeout (port : Fin 7)
  /-- `CONFIRM_TX_END` (R86). CONFIRM has been repeated in UP for 1 ms, so it stops. -/
  | confirmTxEnd (port : Fin 7)
  /-- `LANE_LOS` (R98). A lane has no signal for 1 µs, so the port enters FAULT with reason LOS. -/
  | laneLos (lane : Fin 28)
  /-- `MARKER_RX` (R93). An alignment marker arrives or is found absent: it is checked, and pending equaliser values and the degrade judgement apply. -/
  | markerRx (lane : Fin 28) (marker : Bytes) (ppm : Int) (peak : Nat) (h1 : Int)
  /-- `CODEWORD_RX` (R92). A lane decodes an RS codeword, counting corrections and uncorrectable codewords toward the FEC fault. -/
  | codewordRx (lane : Fin 28) (symbols : List Nat)
  /-- `IDLE_BLOCK_RX` (R89). An IDLE block arrives, and a preceding run of fewer than 16 cell blocks is discarded as a fragment. -/
  | idleBlockRx (port : Fin 7) (run : List Bytes) (block : Bytes)
  /-- `FAULT_HOLDOFF_EXPIRE` (R97). The retrain holdoff ends and a port with AUTO_RETRAIN = 1 advances from FAULT to DETECT. -/
  | faultHoldoffExpire (port : Fin 7)
  /-- `PORT_RETRAIN` (R114). Writing RETRAIN puts the port in FAULT with reason HOST. -/
  | portRetrain (port : Fin 7)
  /-- `PORT_CLEAR` (R114). Writing CLEAR zeroes the port's counters and its lanes' FEC counters. -/
  | portClear (port : Fin 7)
  /-- `LANE_TEST_SELECT` (R97). A write of a pattern or loopback on a lane moves the port into TEST, or back to DETECT when every lane is 0 again. -/
  | laneTestSelect (lane : Fin 32) (gen : Nat) (chk : Nat) (loopback : Nat)
  /-- `PRBS_CLEAR` (R102). Writing CLEAR zeroes PRBS_ERR and PRBS_BITS of the lane. -/
  | prbsClear (lane : Fin 32)
  /-- `INJECT_GO` (R103). Writing GO injects one error or one burst of LEN symbols on the lane. -/
  | injectGo (lane : Fin 32)
  /-- `INJECT_RATE_TICK` (R103). In MODE 3, 2^EXP symbols have passed, so one error is injected. -/
  | injectRateTick (lane : Fin 32)
  /-- `CELL_RX` (R119). A whole cell arrives: it is checked, forwarded by a tile, windowed by tally, and delivered or stored. -/
  | cellRx (port : Fin 7) (cell : Bytes)
  /-- `GAP_WAIT_EXPIRE` (R127). A missing tally is still absent after GAP_WAIT, so it is declared lost and delivery continues. -/
  | gapWaitExpire (stream : Nat) (src : Nat)
  /-- `RING_ENUMERATE` (R160). Writing ENUMERATE on the bellwether starts an enumeration wave. -/
  | ringEnumerate
  /-- `ENUM` (R130). A tile receiving ENUM of a new GEN takes its hop index or becomes EXCESS, passes the wave on and sends REPORT. -/
  | enum (port : Fin 7) (body : Bytes)
  /-- `ENUM_WAVE_TIMEOUT` (R131). A ring's wave reaches 2.42 ms without END, so head B's wave or the next ring follows. -/
  | enumWaveTimeout
  /-- `REPORT` (R131). A head receives a REPORT, which can end the wave, move on to the next ring and reclassify the wall. -/
  | report (port : Fin 7) (payload : Bytes)
  /-- `JOIN_REQUEST_TIMER` (R132). A late tile sends JOIN REQUEST every 1 ms until it receives ASSIGN. -/
  | joinRequestTimer
  /-- `REQUEST` (R132). The bellwether chooses a hop index for a late tile and answers with ASSIGN. -/
  | request (port : Fin 7) (payload : Bytes)
  /-- `ASSIGN` (R132). A tile takes the ring and hop index, or EXCESS, given in ASSIGN. -/
  | assign (payload : Bytes)
  /-- `TILE_HEALTH_TIMEOUT` (R133). No HEALTH cell has come from a tile for 1 s, so it leaves the wall. -/
  | tileHealthTimeout (serial : Nat)
  /-- `WALL_TIMER` (R121). The bellwether sends the WALL message every 100 ms and at every change. -/
  | wallTimer
  /-- `WALL` (R135). A tile takes START, PREFER, GEN and the head serials from a WALL message. -/
  | wall (payload : Bytes)
  /-- `AUTHORITY` (R121). A tile records the new bellwether from an AUTHORITY message. -/
  | authority (payload : Bytes)
  /-- `WINDOW_RESET` (R126). A tile unsynchronises its tally windows on a WINDOW_RESET message. -/
  | windowReset (payload : Bytes)
  /-- `HELLO_TIMER` (R137). A head sends HELLO every 10 µs on each path to the other head. -/
  | helloTimer
  /-- `HELLO` (R136). A head handles the other head's HELLO: election, demotion, handover, START, and window reset on a new INCARNATION. -/
  | hello (port : Fin 7) (h : Hello)
  /-- `ELECTION_TIMEOUT` (R136). A head has heard no HELLO for 200 ms after its first port reached UP, so it becomes BELLWETHER alone. -/
  | electionTimeout
  /-- `COPY_ACK_RX` (R138). The standby's acknowledgement of a copied stream-16 cell arrives, and the cell is sent on the rings. -/
  | copyAckRx (tally : Nat)
  /-- `COPY_ACK_TIMEOUT` (R138). No acknowledgement arrives within 20 µs, so the cell is sent anyway and RING_COPY_LATE is counted. -/
  | copyAckTimeout
  /-- `DIGEST_SEND` (R141). After its last cell of a stream and frame, a head sends the digest entry on stream 42. -/
  | digestSend (stream : Fin 22) (frame : Nat)
  /-- `DIGEST_RX` (R141). The other head's digest entry is compared, which can declare or clear divergence. -/
  | digestRx (entry : Bytes)
  /-- `HEAD_LOSS_TIMEOUT` (R145). The standby has had no HELLO for HEAD_LOSS_TIME, so it takes authority. -/
  | headLossTimeout
  /-- `TAKEOVER_DECIDE` (R220). A new bellwether decides a called but undecided flock at the later of its two grace times. -/
  | takeoverDecide (flock : Nat)
  /-- `DEMOTED_RECOVER` (R148). A DEMOTED head has recorded no self-test fault for 1 s, so it enters RESYNC. -/
  | demotedRecover
  /-- `RESYNC_COPY_RX` (R150). The returning head takes RESYNC copies of the configuration, the journal and the clip store on stream 43. -/
  | resyncCopyRx (part : ResyncPart)
  /-- `RESYNC_COMPLETE` (R150). The head's time is in range and 3 followed frames have matching digests, so it enters STANDBY. -/
  | resyncComplete
  /-- `HANDBACK_CLEAN_ELAPSED` (R151). A returning head has been clean for CLEAN_TIME, so HANDBACK_PENDING is set. -/
  | handbackCleanElapsed
  /-- `HANDBACK` (R151). At the first swap instant with no open flock, authority passes to the returning head without a tally jump. -/
  | handback
  /-- `RING_HANDOVER` (R160). Writing HANDOVER on the bellwether starts a handback toward a clean standby. -/
  | ringHandover
  /-- `RING_CLEAR` (R160). Writing CLEAR zeroes the ring counters. -/
  | ringClear
  /-- `KEYX_TIMER` (R153). On an encrypted link KEYX is sent every 10 µs, and KEYCONF after the keys are derived. -/
  | keyxTimer (port : Fin 7)
  /-- `KEYX` (R153). The partner's nonce is received and the link keys are derived by HKDF. -/
  | keyx (port : Fin 7) (body : Bytes)
  /-- `KEYCONF` (R153). The partner's confirmation tag is verified, completing CHECK or failing it with reason CHECK. -/
  | keyconf (port : Fin 7) (body : Bytes)
  /-- `TIME_CAPTURE` (R166). Writing CAPTURE copies the node clock into the capture registers. -/
  | timeCapture
  /-- `TIME_RELOCK` (R167). Writing RELOCK makes a lock reset of the node clock. -/
  | timeRelock
  /-- `TIME_CLEAR` (R190). Writing CLEAR zeroes the TIME counters. -/
  | timeClear
  /-- `TIME_SET_WRITE` (R170). A write of TIME_SET_SEC_HI applies both halves and, while START is clear, steps the bellwether. -/
  | timeSetWrite (value : Nat)
  /-- `TIME_CELL_TIMER` (R179). Every 125 µs a node sends a time cell on each UP ring port and on port 6. -/
  | timeCellTimer (port : Fin 7)
  /-- `TIME_CELL_RX` (R180). A time cell gives an offset sample that steps the clock once after a lock reset, or else steers the servo and the slew. -/
  | timeCellRx (port : Fin 7) (cell : Bytes)
  /-- `PDELAY_TIMER` (R178). Every 1 ms an UP port sends PDREQ to measure its link delay. -/
  | pdelayTimer (port : Fin 7)
  /-- `PDREQ` (R178). The responder records t2 and sends PDRESP with t3 inserted on the fly. -/
  | pdreq (port : Fin 7) (body : Bytes)
  /-- `PDRESP` (R178). The requester computes D, updates the mean, and may set PATH_CHANGE and apply held samples. -/
  | pdresp (port : Fin 7) (body : Bytes)
  /-- `PDRESP_TIMEOUT` (R178). No PDRESP arrives within 100 µs, so TIME_PD_TIMEOUT is counted. -/
  | pdrespTimeout (port : Fin 7)
  /-- `PPS_EDGE` (R175). A selected PPS_IN edge is timestamped, qualifies the reference or is rejected. -/
  | ppsEdge (rising : Bool)
  /-- `PPS_TIMEOUT` (R172). In MODE 1, 2.5 s pass without an accepted PPS_IN edge, so the bellwether enters HOLDOVER. -/
  | ppsTimeout
  /-- `PTP_ANNOUNCE_TIMEOUT` (R172). For ANN_TIMEOUT Announce intervals no master is qualified, so the bellwether enters HOLDOVER. -/
  | ptpAnnounceTimeout
  /-- `PTP_SYNC_RX` (R173). A Sync or Follow_Up from the master supplies a time sample for the head's PTP servo. -/
  | ptpSyncRx (m : PtpSync)
  /-- `PTP_ANNOUNCE_RX` (R173). An Announce message feeds foreign-master qualification and the BMCA. -/
  | ptpAnnounceRx (m : PtpAnnounce)
  /-- `PTP_DELAY_RESP_RX` (R173). A Delay_Resp completes an E2E delay measurement to the master. -/
  | ptpDelayRespRx (seq : Nat) (rx : Nat)
  /-- `PTP_PDELAY_REQ_RX` (R173). A Pdelay_Req is answered with a one-step Pdelay_Resp. -/
  | ptpPdelayReqRx (seq : Nat) (requester : Nat)
  /-- `PTP_DELAY_REQ_TIMER` (R173). At the delay request interval the head sends a one-step Delay_Req or Pdelay_Req. -/
  | ptpDelayReqTimer
  /-- `PTP_MASTER_TX_TIMER` (R174). As a grandmaster the head sends Sync and Announce at its intervals. -/
  | ptpMasterTxTimer (announce : Bool)
  /-- `SWAP_INSTANT` (R185). At each swap instant S_n the new frame begins, and flock commits, outcome repeats and head fold runs take place. -/
  | swapInstant (bad : List (Nat × FlockPart))
  /-- `SLOT_START` (R186). A slot begins at S_n + k × P / m, and the check rectangles of the ended slot are resolved. -/
  | slotStart
  /-- `ALARM_ARM` (R188). Enabling an alarm arms it, and a MODE 0 target already past fires at once with LATE. -/
  | alarmArm (a : Fin 32)
  /-- `ALARM_FIRE` (R188). An alarm fires, sets FIRED, and raises an interrupt or starts a GPIO pulse. -/
  | alarmFire (a : Fin 32)
  /-- `ALARM_PULSE_END` (R188). The alarm's pulse of WIDTH ns ends. -/
  | alarmPulseEnd (a : Fin 32)
  /-- `FLOCK_OPEN_RX` (R201). A node receiving OPEN holds the flock in STAGING. -/
  | flockOpenRx (payload : Bytes)
  /-- `STAGED_WRITE_RX` (R202). A node receives a staged write on stream 19, holds it in shadow state and checks it on arrival. -/
  | stagedWriteRx (payload : Bytes)
  /-- `FLOCK_OPEN_TIMEOUT` (R205). A flock has stayed in STAGING for FLOCK_OPEN_LIMIT without a CALL, so it is aborted with TIMEOUT. -/
  | flockOpenTimeout (flock : Nat)
  /-- `CALL` (R210). A participant receives CALL and waits for streams 19 and 20 up to their marks before voting. -/
  | callMsg (payload : Bytes) (bad : Bool)
  /-- `VOTE_SEND` (R210). Once the marked cells are delivered or lost, the participant chooses READY or REFUSE and sends its VOTE. -/
  | voteSend (flock : Nat) (bad : Option FlockPart)
  /-- `VOTE_DEADLINE` (R210). D_v arrives before the participant could vote, so it votes REFUSE with LOST. -/
  | voteDeadline (flock : Nat) (bad : Option FlockPart)
  /-- `VOTE` (R211). The bellwether counts or ignores a VOTE, and may decide COMMIT or ABORT. -/
  | vote (payload : Bytes)
  /-- `VOTE_GRACE_EXPIRE` (R211). D_v + FLOCK_VOTE_GRACE passes without all votes, so the flock is aborted with TIMEOUT. -/
  | voteGraceExpire (flock : Nat)
  /-- `COMMIT` (R214). A node receives COMMIT and ACKs it, applying at T or later under R215. -/
  | commitMsg (payload : Bytes) (bad : Bool)
  /-- `ABORT` (R216). A node receives ABORT, discards the staged content, ACKs, and leaves OUT_OF_STEP at the next swap instant. -/
  | abortMsg (payload : Bytes) (bad : Bool)
  /-- `FLOCK_GUARD_DEADLINE` (R215). At T − GUARD a READY participant without an outcome keeps its content and becomes OUT_OF_STEP from T. -/
  | flockGuardDeadline (flock : Nat)
  /-- `ACK` (R217). The bellwether counts a flock ACK and retires the flock once all participants have acknowledged. -/
  | ack (payload : Bytes)
  /-- `FLOCK_RECORD_EXPIRE` (R217). 16 wall frames pass without a repetition of the outcome, so the node drops its flock record. -/
  | flockRecordExpire (flock : Nat)
  /-- `TX_BOUNDARY_APPLY` (R223). A local transaction's group applies whole at its boundary. -/
  | txBoundaryApply (ctx : Fin 8)
  /-- `TX_OPEN_TIMEOUT` (R223). FLOCK_OPEN_LIMIT passes without TXEND, so the transaction is discarded with TIMEOUT. -/
  | txOpenTimeout (ctx : Fin 8)
  /-- `FLOCK_CLEAR` (R227). Writing CLEAR zeroes the FLOCK counters. -/
  | flockClear
  /-- `STALE_CLR` (R227). Writing STALE_CLR clears STALE_CONFIG. -/
  | staleClr
  /-- `FRAME_LATCH` (R259). At F_n a tile chooses each layer's shown frame under the hurdles, and applies latched writes, program switches and mode choices. -/
  | frameLatch (bad : List (Nat × FlockPart))
  /-- `SLOT_LATCH` (R264). At a slot latch the fold pipelines are empty, and composition of the slot starts. -/
  | slotLatch
  /-- `HURDLE` (R262). A tile holds a HURDLE message, and a late one that changes a used value causes OUT_OF_STEP. -/
  | hurdle (payload : Bytes) (tally : Nat)
  /-- `HURDLE_REPEAT_TIMER` (R261). Every 100 ms the bellwether repeats each layer's hurdle value in force. -/
  | hurdleRepeatTimer
  /-- `POSE` (R284). A tile holds a POSE message, and a late one that changes a used pose causes OUT_OF_STEP. -/
  | pose (payload : Bytes) (tally : Nat)
  /-- `POSE_REPEAT_TIMER` (R283). Every 100 ms the bellwether repeats each camera's pose in force. -/
  | poseRepeatTimer
  /-- `CORR_CLEAR` (R293). Writing CLEAR zeroes the CORR counters and CORR_FIRST_FAULT. -/
  | corrClear
  /-- `PUSH_DEADLINE` (R313). The push deadline of a slot arrives, and unfinished runs are overrun and the slot is dropped. -/
  | pushDeadline
  /-- `LSYNC_EDGE` (R312). A group's LSYNC rises at the slot start minus LSYNC_ADVANCE and LCNT_g advances. -/
  | lsyncEdge (group : Fin 4)
  /-- `LINE_BUFFER_FILL` (R320). A fetch fills a push line buffer from staging, in the compose-fetch or urgent-push class. -/
  | lineBufferFill (port : Fin 16) (err : Option (Nat × Nat))
  /-- `LAMP_FRAME_START` (R319). A port starts its highest-priority frame once all of its bytes are in the line buffer. -/
  | lampFrameStart (port : Fin 16)
  /-- `LAMP_FRAME_SENT` (R327). A Lamp Bus frame has been sent and is compared at the pads, and sent again on a mismatch. -/
  | lampFrameSent (port : Fin 16) (mismatch : Bool)
  /-- `SWAP` (R321). Every pushing port has sent its region writes, so a SWAP with TARGET is sent on every enabled port. -/
  | swap
  /-- `STATUS_RESP` (R328). A driver's STATUS_RESP arrives and drives refresh, error counts, reprogramming, mismatch and diagnostics. -/
  | statusResp (port : Fin 16) (codes : List Nat)
  /-- `STATUS_READ_TIMEOUT` (R328). A STATUS_READ is unanswered within STATUS_TIMEOUT, which is counted and can set CHAIN_BROKEN. -/
  | statusReadTimeout (port : Fin 16)
  /-- `BLANK` (R324). A group enters the blanked state: each port ends its frame with ABORT and sends BLANK broadcast. -/
  | blank (group : Fin 4)
  /-- `DRIVER_PROGRAM` (R634). At the end of a blanked state the tile sends PWM_PARAM_SET and CURRENT_GAIN_SET and awaits confirmation from every driver. -/
  | driverProgram (group : Fin 4)
  /-- `TIMING_HOLD_RESUME` (R326). At S′_k the group resumes LSYNC with a full refresh and SWAP. -/
  | timingHoldResume (group : Fin 4)
  /-- `TIMING_HOLD_BLACK` (R326). Reprogramming is not complete by S′_4, so the group is blanked. -/
  | timingHoldBlack (group : Fin 4)
  /-- `LAMP_REFRESH_EXPIRE` (R318). Every LAMP_REFRESH frames all references are made invalid. -/
  | lampRefreshExpire
  /-- `FULL_REFRESH` (R334). Writing FULL_REFRESH makes every reference invalid. -/
  | fullRefresh
  /-- `LAMP_CLEAR` (R334). Writing CLEAR zeroes every RC counter of the LAMP block. -/
  | lampClear
  /-- `DIAG_ROUND_START` (R331). At a frame with n mod DIAG_PERIOD = 0 a diagnostic round begins its read phase. -/
  | diagRoundStart
  /-- `DIAG_READ_END` (R332). The read phase ends: channel states and ages are updated and the diagnostic map is written. -/
  | diagReadEnd
  /-- `DIAG_PROBE` (R331). At frame n + DIAG_PERIOD / 2 after the diagnostic slot's SWAP, PROBE is sent for stale channels, or skipped. -/
  | diagProbe
  /-- `FOLD_ENABLE` (R352). A write of ENABLE makes the fold RUNNING from the next frame latch, or STOPPED from the next slot latch. -/
  | foldEnable (fold : Fin 4) (value : Bool)
  /-- `ACTIVATE` (R351). Writing ACTIVATE schedules the switch of the load image at the next frame latch. -/
  | activate (fold : Fin 4)
  /-- `RESTART` (R368). Writing RESTART makes a HALTED or FAULTED fold RUNNING from the next frame latch. -/
  | restart (fold : Fin 4)
  /-- `STOP` (R368). Writing STOP makes the fold HALTED at the next slot latch. -/
  | stop (fold : Fin 4)
  /-- `FOLD_CLEAR` (R368). Writing CLEAR zeroes the fold counters, FOLDn_FAULT and TX_DISCARD. -/
  | foldClear (fold : Fin 4)
  /-- `FOLD_RUN_COMPLETE` (R354). The run has ended its stream and every issued pipeline instruction, pushes included, has completed. -/
  | foldRunComplete (fold : Fin 4)
  /-- `PIPELINE_ITEM_DONE` (R360). A pipeline stage completes an issued instruction, writing its result and freeing a queue entry. -/
  | pipelineItemDone (fold : Fin 4) (err : Option PipeErr)
  /-- `PACING_WINDOW` (R363). A new 1,024 ns pacing window begins, in which the fold is active for DUTY / 16. -/
  | pacingWindow (fold : Fin 4) (upset : Option Upset)
  /-- `WAITT_EXPIRE` (R387). The time awaited by WAITT arrives and the sequencer resumes. -/
  | waittExpire (fold : Fin 4)
  /-- `PAUSE_END` (R387). A PAUSE of IMM ns ends and the fold becomes active again. -/
  | pauseEnd (fold : Fin 4)
  /-- `NOP` (R392). No operation. -/
  | nop (fold : Fin 4)
  /-- `ADD` (R374). RD = RS1 + RS2. -/
  | add (fold : Fin 4)
  /-- `SUB` (R374). RD = RS1 − RS2. -/
  | sub (fold : Fin 4)
  /-- `AND` (R374). RD = RS1 AND RS2. -/
  | andR (fold : Fin 4)
  /-- `OR` (R374). RD = RS1 OR RS2. -/
  | orR (fold : Fin 4)
  /-- `XOR` (R374). RD = RS1 XOR RS2. -/
  | xorR (fold : Fin 4)
  /-- `SHL` (R374). Logical left shift by a register amount. -/
  | shl (fold : Fin 4)
  /-- `SHR` (R374). Logical right shift by a register amount. -/
  | shr (fold : Fin 4)
  /-- `SAR` (R374). Arithmetic right shift by a register amount. -/
  | sar (fold : Fin 4)
  /-- `MUL` (R375). Low or high word of the signed or unsigned product. -/
  | mul (fold : Fin 4)
  /-- `MIN` (R374). The lesser of two registers. -/
  | minR (fold : Fin 4)
  /-- `MAX` (R374). The greater of two registers. -/
  | maxR (fold : Fin 4)
  /-- `CMP` (R375). Sets the flags from RS1 − RS2. -/
  | cmp (fold : Fin 4)
  /-- `ADDI` (R374). RD = RS1 + IMM. -/
  | addi (fold : Fin 4)
  /-- `ANDI` (R374). RD = RS1 AND IMM. -/
  | andi (fold : Fin 4)
  /-- `ORI` (R374). RD = RS1 OR IMM. -/
  | ori (fold : Fin 4)
  /-- `XORI` (R374). RD = RS1 XOR IMM. -/
  | xori (fold : Fin 4)
  /-- `SHLI` (R374). Logical left shift by an immediate. -/
  | shli (fold : Fin 4)
  /-- `SHRI` (R374). Logical right shift by an immediate. -/
  | shri (fold : Fin 4)
  /-- `SARI` (R374). Arithmetic right shift by an immediate. -/
  | sari (fold : Fin 4)
  /-- `CMPI` (R375). Sets the flags from RS1 − IMM. -/
  | cmpi (fold : Fin 4)
  /-- `GET` (R376). Reads a system value selected by IMM into RD. -/
  | get (fold : Fin 4)
  /-- `QSET` (R377). Builds a rectangle register from two k registers. -/
  | qset (fold : Fin 4)
  /-- `QGET` (R377). Reads one half of a rectangle register into a k register. -/
  | qget (fold : Fin 4)
  /-- `QISECT` (R377). Intersects two rectangles and sets Z when the result is empty. -/
  | qisect (fold : Fin 4)
  /-- `BR` (R349). Conditional branch with optional link. -/
  | br (fold : Fin 4)
  /-- `LD` (R378). Loads a scratch word. -/
  | ld (fold : Fin 4)
  /-- `ST` (R378). Stores a scratch word, or a shadow copy inside a fold transaction. -/
  | st (fold : Fin 4)
  /-- `LDC` (R378). Loads a complement-checked word, or faults COMPLEMENT. -/
  | ldc (fold : Fin 4)
  /-- `QLD` (R378). Loads a rectangle register from scratch. -/
  | qld (fold : Fin 4)
  /-- `QST` (R378). Stores a rectangle register to scratch. -/
  | qst (fold : Fin 4)
  /-- `CULL` (R382). Opens a strip and decides the covering layers per block. -/
  | cull (fold : Fin 4)
  /-- `FETCH` (R382). Issues the reads of the layer samples that the strip needs. -/
  | fetch (fold : Fin 4)
  /-- `SCALE` (R382). Issues the sampling of each covering layer for the strip. -/
  | scale (fold : Fin 4)
  /-- `CSC` (R382). Issues the input matrix and input LUT for the strip. -/
  | csc (fold : Fin 4)
  /-- `BLEND` (R382). Issues the blend, wall matrix and wall LUT for the strip. -/
  | blend (fold : Fin 4)
  /-- `ANGLE` (R382). Issues the angular gains of the slot camera for the strip. -/
  | angle (fold : Fin 4)
  /-- `CORRECT` (R382). Issues the computation of the strip's duties with flags and entry checks. -/
  | correct (fold : Fin 4)
  /-- `CRC` (R383). Accumulates the strip's lamps into a check rectangle. -/
  | crc (fold : Fin 4)
  /-- `PUSH` (R384). Closes the strip and issues dirty-block detection and push, or discards it. -/
  | push (fold : Fin 4)
  /-- `PATGEN` (R385). Generates a test pattern into a tile strip or into a head layer frame. -/
  | patgen (fold : Fin 4)
  /-- `WAITT` (R387). Waits until a time relative to the run's start. -/
  | waitt (fold : Fin 4)
  /-- `WAITH` (R361). Waits for another fold's event flags, or ends at once with V = 1. -/
  | waith (fold : Fin 4)
  /-- `SIGNAL` (R361). Requests that event flags be set once earlier pipeline work completes. -/
  | signal (fold : Fin 4)
  /-- `PAUSE` (R387). Makes the fold inactive for IMM ns. -/
  | pause (fold : Fin 4)
  /-- `YIELD` (R387). Waits until at most N issued pipeline instructions are incomplete. -/
  | yield (fold : Fin 4)
  /-- `KORTY_TXBEGIN` (R388). Opens a fold transaction with a boundary. -/
  | kortyTxbegin (fold : Fin 4)
  /-- `KORTY_TXEND` (R389). Ends the fold transaction, applying or scheduling its stores or returning a reason. -/
  | kortyTxend (fold : Fin 4)
  /-- `FLSTAGE` (R390). Stages fold-computed table content into an open flock on its node. -/
  | flstage (fold : Fin 4)
  /-- `FLVOTE` (R391). Records the fold's READY or REFUSE for a flock. -/
  | flvote (fold : Fin 4)
  /-- `TDONE` (R354). Ends the run's instruction stream. -/
  | tdone (fold : Fin 4)
  /-- `TRAP` (R367). Reports a code and continues, or faults when STOP = 1. -/
  | trap (fold : Fin 4)
  /-- `HALT` (R354). Ends the run and leaves the fold HALTED. -/
  | halt (fold : Fin 4)
  /-- `SCRUB_READ` (R432). The patrol scrubber reads the next granule at its uniform rate. -/
  | scrubRead (err : Option (Bool × Nat))
  /-- `CORRECTED_WRITEBACK` (R435). A corrected granule is written back, unless another write to it has been accepted meanwhile. -/
  | correctedWriteback (granule : Nat)
  /-- `MEM_GRANT` (R442). A channel grants the next request by class, floors and age. -/
  | memGrant (ch : Fin 8) (reqs : List MemReq)
  /-- `REFRESH_DUE` (R450). A refresh falls due at the normal or doubled rate and takes the channel. -/
  | refreshDue (ch : Fin 8)
  /-- `MEM_TRACK_TIMER` (R449). Every 100 ms a channel performs DQS oscillator tracking and ZQ calibration. -/
  | memTrackTimer (ch : Fin 8)
  /-- `MEM_CLEAR` (R453). Writing CLEAR zeroes the MEM counters and WAIT_MAX registers. -/
  | memClear
  /-- `LOG_REARM` (R453). Writing LOG_REARM clears and rearms the memory error log. -/
  | logRearm
  /-- `XING_CLEAR` (R473). Writing CLEAR zeroes every XING counter and XING_CONFLICT_INFO. -/
  | xingClear
  /-- `THERMAL_MODEL_UPDATE` (R481). Every 10 µs the model takes the monitor powers and advances the node temperatures, with level thresholds and trip. -/
  | thermalModelUpdate (power : List Nat) (mv : List Nat) (bad : List Nat)
  /-- `SENSOR_SAMPLE` (R479). Every 1 ms the boundary sensor is sampled, T_b is updated and sensor faults are judged. -/
  | sensorSample (kind : Fin 3) (temp : Int)
  /-- `RATE_EVAL` (R482). Every 1 ms the rate of rise of each region is evaluated against the rate thresholds. -/
  | rateEval
  /-- `SENSOR_FAULT_CLEAR` (R480). 1 s passes without a fault condition, so SENSOR_FAULT clears. -/
  | sensorFaultClear
  /-- `THRESHOLD_DWELL_EXPIRE` (R483). An exit condition has held for 100 ms, so the region leaves the threshold state. -/
  | thresholdDwellExpire (region : Fin 6) (state : Fin 5)
  /-- `THROTTLE_TICK` (R485). On its THR_STEP grid the region's controller value moves down, holds or moves up, changing fold duties. -/
  | throttleTick (region : Fin 6)
  /-- `TRIP_RESTART` (R489). Every estimate is below 75 °C and 30 s have passed since the trip, so THERMTRIP_N is released and the node cold-boots. -/
  | tripRestart
  /-- `THROTTLE_DIV_WRITE` (R487). A write of DIV sets DIV_DUTY and divides the PERIPH clocks. -/
  | throttleDivWrite (div : Fin 4)
  /-- `THERM_CLEAR` (R499). Writing CLEAR zeroes the THERM counters and peak registers. -/
  | thermClear
  /-- `WRITE_WINDOW_OPEN` (R490). The write window reopens and deferred flash and OTP units start. -/
  | writeWindowOpen
  /-- `WRITE_DEFER_EXPIRE` (R491). A deferred unit is still blocked after WRITE_DEFER, so it fails with THERMAL. -/
  | writeDeferExpire
  /-- `FLASH_UNIT_DONE` (R491). A flash program or erase, or an OTP burn with its verify, completes. -/
  | flashUnitDone (ok : Bool)
  /-- `CAL_RUN` (R504). Writing RUN starts the named calibration units at once. -/
  | calRun (mask : Nat)
  /-- `CAL_RAMP_STEP` (R494). A calibration unit applies one ramp step of its new values. -/
  | calRampStep (unit : Fin 5) (elem : Nat) (up : Bool)
  /-- `CAL_UNIT_DONE` (R495). A calibration unit finishes and reports PASS or FAIL. -/
  | calUnitDone (unit : Fin 5) (fail : Option Nat)
  /-- `BEGIN` (R526). BEGIN erases the inactive slot's header and opens a download owned by the writer. -/
  | beginDl (ctx : Fin 8)
  /-- `CANCEL` (R527). CANCEL erases the inactive slot's header and returns the download to NONE. -/
  | cancelDl (ctx : Fin 8)
  /-- `CAL_BEGIN` (R527). CAL_BEGIN opens a download of the calibration area. -/
  | calBegin (ctx : Fin 8)
  /-- `CAL_CANCEL` (R527). CAL_CANCEL returns the calibration download to NONE. -/
  | calCancel (ctx : Fin 8)
  /-- `ACTIVATE_PREPARE` (R529). A selected node receiving the staged GO erases the next intent sector and then sets PREPARED. -/
  | activatePrepare (flock : Nat)
  /-- `ACTIVATION_RESET` (R529). At T a node that committed an activation resets itself as on RESET_N. -/
  | activationReset
  /-- `BOOT_CONFIRM` (R531). A completed BOOT_CONFIRM pair confirms the running trial, writing the intent and burning the rollback counter. -/
  | bootConfirm (ctx : Fin 8) (version : Nat)
  /-- `CONFIRM_WINDOW_EXPIRE` (R533). The confirmation window ends with no confirmation, so the node resets at the next swap instant. -/
  | confirmWindowExpire
  /-- `LC_TRANSITION` (R519). A completed LC_TRANSITION pair burns the next life-cycle state when its precondition holds. -/
  | lcTransition (ctx : Fin 8) (target : Nat)
  /-- `SEC_REVOKE` (R522). A completed SEC_REVOKE pair revokes signing-key slots unless none would remain. -/
  | secRevoke (ctx : Fin 8) (slots : Nat)
  /-- `ATTEST_GO` (R525). Writing GO with a KIND starts filling SEC_ATTEST_BUF. -/
  | attestGo (kind : Fin 4)
  /-- `ATTEST_DONE` (R525). The attestation result is in the buffer and DONE is set. -/
  | attestDone
  /-- `LB_GO` (R556). Writing LB_GO runs logic BIST on the named quiescent partitions in ascending order. -/
  | lbGo (clearOk : Bool)
  /-- `MB_GO` (R562). Writing MB_GO runs memory BIST on the named quiescent instances. -/
  | mbGo (clearOk : Bool)
  /-- `BIST_ABORT` (R566). Writing ABORT ends the BIST request in progress, its current test ABORTED. -/
  | bistAbort
  /-- `BIST_CLEAR` (R566). Writing CLEAR zeroes the BIST counters. -/
  | bistClear
  /-- `JTAG_SCAN_ENTRY` (R553). Entry to internal scan over JTAG, preceded by the secret clear. -/
  | jtagScanEntry (clearOk : Bool)
  /-- `BIST_PRECOND_SAMPLE` (R552). Every 10 µs during a test, voltage and clock are sampled, and a failure makes the test ABORTED. -/
  | bistPrecondSample
  /-- `LBIST_PARTITION_DONE` (R549). A partition test ends and its MISR is compared, giving PASS or FAIL. -/
  | lbistPartitionDone (misr : Nat) (clearOk : Bool)
  /-- `MBIST_INSTANCE_DONE` (R560). A March test of an instance ends, recording the first failure and repairing it when it can. -/
  | mbistInstanceDone (failure : Option (Nat × Nat × Bool)) (clearOk : Bool)
  /-- `ONLINE_BIST_WINDOW` (R557). A 588.235 ms window of the standby's rotation begins for the next online partition. -/
  | onlineBistWindow
  /-- `ONLINE_BIST_GAP_START` (R557). A long enough gap after the fold's run opens, so the online partition test starts. -/
  | onlineBistGapStart
  /-- `HEALTH_REPORT_TIMER` (R564). At its send instant every 100 ms a node sends its health report. -/
  | healthReportTimer
  /-- `HEALTH` (R565). A head keeps the latest health report of a tile or of the other head. -/
  | health (addr : Nat) (payload : Bytes)
  /-- `GPIO_CFG_WRITE` (R600). A write of GPIOk_CFG sets the pin function at once, ending a pulse in progress. -/
  | gpioCfgWrite (pin : Fin 16) (value : Nat)
  /-- `PTP_PDELAY_RESP_RX` (R173). In P2P mode a Pdelay_Resp from the link partner completes the head's peer delay measurement to the master. -/
  | ptpPdelayRespRx (seq : Nat) (t2 : Nat) (t3 : Nat)
  /-- `RETURN_LANE_PHASE_ALIGN` (R299). The tile aligns its sampling phase on LBR_p from the IDLE characters it receives, within 2 µs. -/
  | returnLanePhaseAlign (port : Fin 16)
  /-- `PRBS_CHECKER_LOCK` (R102). The PRBS checker locks after 64 error-free bits, or loses lock at 32 errors in 256 bits and seeds again, counting bits and errors while locked. -/
  | prbsCheckerLock (lane : Fin 32) (symbols : List Nat)
  /-- `DPRX_AUX_REQUEST` (R42). A DisplayPort source's AUX transaction, such as an EDID or DPCD access during link training, is answered by the receiver. -/
  | dprxAuxRequest (rx : Fin 4) (req : Aux)
  /-- `PCIE_LINK_UP` (R404). The PCIe link trains after a fundamental reset or link drop, TRANSPORT_UP returns and the entry held at SQ_HEAD is taken again. -/
  | pcieLinkUp
  /-- `STFLOW_RECEIVING_LAPSE` (R50). A flow has accepted no packet for 10 ms, so RECEIVING clears. -/
  | stflowReceivingLapse (flow : Fin 16)
  /-- `LSYNC_PULSE_END` (R312). LSYNC_WIDTH after its rising edge, a group's LSYNC output falls and its pad receiver checks the level. -/
  | lsyncPulseEnd (group : Fin 4) (mismatch : Bool)
  deriving DecidableEq, Repr

end Sys2Proof
end

