-- ==== Sys2Proof/Decode.lean ====
section
/-! DEFINITION. Commands spelled by bits. -/
set_option Elab.async false
namespace Sys2Proof

/-- The command that a word spells by the bits of the opcode table. The table gives no row any bits: its rows are events, messages
and register accesses whose bytes are operands of the commands, so no word spells one (assumption 5). -/
def decodeTableWord (_nbits _w : Nat) : Option Instr := none

end Sys2Proof
end

