-- ==== Sys2Proof/Config.lean ====
section
/-! DEFINITION. What an implementation fixes and the spec leaves open: the free values (constants without a body, of which
nothing can be proved) and the external standards that the spec names and does not define. -/
set_option Elab.async false
namespace Sys2Proof.Config

/-- The free values: the `n`th value of a run that the spec leaves open, in `w` bits. Marked in the assumption log (2). -/
opaque free : Nat → Nat

/-- A stream of free yes-or-no choices (R617). -/
opaque freeBool : Nat → Bool

/-- Whether an angle whose exact value the bounds of the model leave undecided lies at or above step `k` (R286), from the two numbers
it is computed from. -/
opaque angleTie : Nat → Nat → Nat → Bool

/-- Whether fold `n` is in the inactive part of its pacing window at an AON instant (R363, R369). -/
opaque throttled : Nat → Nat → Bool

/-- Whether the corner test of culling takes a block whose corners lie within one unit of the edge of the layer for covered (R255), by the
frame, slot, group, block and layer of the test. -/
opaque cullEdge : Nat → Bool

/-- The node's internal random source (R137, R153, R412): an uninterpreted function of the model's counter. -/
opaque random : Nat → Nat

/-- The latency constant of an Ethernet port in ps, incoming or outgoing (R173): the spec gives it no register. -/
opaque ethLatency : Nat → Bool → Int

/-- SHA-384 of a byte string (R521, R525; FIPS 180-4 is outside the spec). -/
opaque sha384 : List Byte → List Byte

/-- ECDSA P-384 verification of a hash under a public key (R512, R520). -/
opaque ecdsaOk : List Byte → List Byte → List Byte → Bool

/-- ECDSA P-384 signature by the node's identity key over a string (R525). -/
opaque ecdsaSign : List Byte → List Byte

/-- HKDF link keys (R153): from the wall key, the two nonces, the two serials and the direction. -/
opaque linkKey : Nat → Nat → Nat → Nat → Nat → Nat → Nat

/-- Confirmation tag of KEYCONF (R153) under a link key and a direction. -/
opaque confTag : Nat → Nat → Nat

/-- AES-256-GCM of a payload under a key and an IV: the ciphertext. -/
opaque gcmSeal : Nat → Nat → List Byte → List Byte

/-- AES-256-GCM tag, truncated to 64 bits (R154). -/
opaque gcmTag : Nat → Nat → List Byte → Nat

/-- Unwrapping of a wall-key record under the node's exchange key (R523). -/
opaque unwrapKey : List Byte → Option Nat

/-- Public key of the node of the given kind (R525): 1 identity, 2 exchange. -/
opaque publicKey : Nat → List Byte

/-- Default program of a fold in the image with the given BODY_DIGEST (R351, R516): words (index, value), and its entry. -/
opaque imageProgram : List Byte → Nat → List (Nat × Nat)
opaque imageEntry : List Byte → Nat → Nat

/-- Seed and expected signature of an LBIST partition in an image (R550); none where the image has none. -/
opaque imageBist : List Byte → Nat → Option (Nat × Nat)

end Sys2Proof.Config
end

