-- ==== Sys2Proof/Machine/Crc.lean ====
section
/-! DEFINITION. The two cyclic redundancy checks of the spec: CRC-64 of cells and block hashes (R118) and CRC-32 of
check rectangles, pads and Lamp Bus frames (R329), bit by bit. -/
set_option Elab.async false
namespace Sys2Proof.Machine

/-- One bit of a reflected CRC of width `w`. -/
def crcBit {w : Nat} (poly : BitVec w) (c : BitVec w) : BitVec w :=
  if c.getLsbD 0 then (c >>> 1) ^^^ poly else c >>> 1

/-- One byte of a reflected CRC. -/
def crcByte {w : Nat} (poly : BitVec w) (c : BitVec w) (b : Byte) : BitVec w :=
  let c := c ^^^ b.setWidth w
  crcBit poly (crcBit poly (crcBit poly (crcBit poly (crcBit poly (crcBit poly (crcBit poly (crcBit poly c)))))))

/-- CRC-64 with the reflected ECMA-182 polynomial, all ones at the start and inverted at the end (check value
0x995D_C9BB_DF19_39FA over the ASCII digits 1 to 9). -/
def crc64 (b : Bytes) : BitVec 64 :=
  ~~~(b.foldl (crcByte 0xC96C5795D7870F42#64) (~~~0#64))

/-- CRC-32 of IEEE 802.3 before its final inversion, continued from a running value. -/
def crc32Run (c : BitVec 32) (b : Bytes) : BitVec 32 := b.foldl (crcByte 0xEDB88320#32) c

/-- CRC-32 of IEEE 802.3 (check value 0xCBF4_3926 over the ASCII digits 1 to 9). -/
def crc32 (b : Bytes) : BitVec 32 := ~~~(crc32Run (~~~0#32) b)

end Sys2Proof.Machine
end

