-- ==== Sys2Proof/Machine/RegMap.lean ====
section
/-! DEFINITION. The register map as a table: every register of the spec with its place, its fields, their types,
their clamps and their reserved codes (spec 02 to 19 and 21, the rule named at each), and one `Fld` name for each field.
A field is read and written only through these names. -/
set_option Elab.async false
namespace Sys2Proof.Machine

/-- Register field types of Table 0-3 (R8). -/
inductive Acc where
  | rw | ro | wo | w1c | rc | rwp
  deriving DecidableEq, Repr

/-- Where a field lies: the byte offset of its register's first instance, the two index strides, the lowest bit, the width. -/
structure Fld where
  base : Nat
  s1 : Nat
  s2 : Nat
  lo : Nat
  w : Nat
  deriving DecidableEq, Repr

/-- One field as the register map of the spec gives it. `clamp` holds the nearest-limit range where the map says values
are clamped (signed where the low limit is negative); `resv` the reserved codes of R631. -/
structure FieldDef where
  lo : Nat
  w : Nat
  acc : Acc
  clamp : Option (Int × Int)
  resv : List (Nat × Nat)
  deriving DecidableEq, Repr

/-- One register, with its arrays of instances: `n1` of stride `s1`, in each `n2` of stride `s2`. -/
structure RegDef where
  name : String
  base : Nat
  n1 : Nat
  s1 : Nat
  n2 : Nat
  s2 : Nat
  flockOnly : Bool
  fields : List FieldDef
  deriving DecidableEq, Repr


/-- `LAYERn_INGEST`, R67 of spec/02_ingest.md. -/
def F.LAYERn_INGEST_ENABLE : Fld := ⟨0x2000c0, 0x100, 0, 0, 1⟩
def F.LAYERn_INGEST_KIND : Fld := ⟨0x2000c0, 0x100, 0, 1, 3⟩
def F.LAYERn_INGEST_INDEX : Fld := ⟨0x2000c0, 0x100, 0, 4, 4⟩
def F.LAYERn_INGEST_CUT_THROUGH : Fld := ⟨0x2000c0, 0x100, 0, 8, 1⟩
def F.LAYERn_INGEST_CT_FALLBACK : Fld := ⟨0x2000c0, 0x100, 0, 9, 1⟩
def F.LAYERn_INGEST_VBLANK : Fld := ⟨0x2000c0, 0x100, 0, 16, 8⟩
/-- `LAYERn_SEND_LEAD`, R70 of spec/02_ingest.md. -/
def F.LAYERn_SEND_LEAD : Fld := ⟨0x2000c4, 0x100, 0, 0, 20⟩
/-- `LAYERn_ADDR_LO`, R70 of spec/02_ingest.md. -/
def F.LAYERn_ADDR_LO : Fld := ⟨0x2000c8, 0x100, 0, 12, 20⟩
/-- `LAYERn_ADDR_HI`, R70 of spec/02_ingest.md. -/
def F.LAYERn_ADDR_HI : Fld := ⟨0x2000cc, 0x100, 0, 0, 6⟩
/-- `LAYERn_CLIP`, R68 of spec/02_ingest.md. -/
def F.LAYERn_CLIP_CLIP_ID : Fld := ⟨0x2000d0, 0x100, 0, 0, 12⟩
def F.LAYERn_CLIP_MODE : Fld := ⟨0x2000d0, 0x100, 0, 12, 2⟩
/-- `LAYERn_ISTAT`, R69 of spec/02_ingest.md. -/
def F.LAYERn_ISTAT_SOURCE_OK : Fld := ⟨0x2000d8, 0x100, 0, 0, 1⟩
def F.LAYERn_ISTAT_CT_UNLOCKED : Fld := ⟨0x2000d8, 0x100, 0, 1, 1⟩
def F.LAYERn_ISTAT_FMT_MISMATCH : Fld := ⟨0x2000d8, 0x100, 0, 2, 1⟩
def F.LAYERn_ISTAT_ADMITTED : Fld := ⟨0x2000d8, 0x100, 0, 3, 1⟩
/-- `LAYERn_REPEATS`, R70 of spec/02_ingest.md. -/
def F.LAYERn_REPEATS : Fld := ⟨0x2000dc, 0x100, 0, 0, 32⟩
/-- `LAYERn_DROPS`, R70 of spec/02_ingest.md. -/
def F.LAYERn_DROPS : Fld := ⟨0x2000e0, 0x100, 0, 0, 32⟩
/-- `LAYERn_INCOMPLETE`, R70 of spec/02_ingest.md. -/
def F.LAYERn_INCOMPLETE : Fld := ⟨0x2000e4, 0x100, 0, 0, 32⟩
/-- `LAYERn_CT_LATE`, R70 of spec/02_ingest.md. -/
def F.LAYERn_CT_LATE : Fld := ⟨0x2000e8, 0x100, 0, 0, 32⟩
/-- `LAYERn_RATE`, R70 of spec/02_ingest.md. -/
def F.LAYERn_RATE : Fld := ⟨0x2000f0, 0x100, 0, 0, 32⟩
/-- `DPRXn_CTL`, R61 of spec/02_ingest.md. -/
def F.DPRXn_CTL_ENABLE : Fld := ⟨0x300000, 0x200, 0, 0, 1⟩
def F.DPRXn_CTL_EDID_VALID : Fld := ⟨0x300000, 0x200, 0, 1, 1⟩
def F.DPRXn_CTL_HPD_IRQ : Fld := ⟨0x300000, 0x200, 0, 2, 1⟩
def F.DPRXn_CTL_MAX_RATE : Fld := ⟨0x300000, 0x200, 0, 4, 3⟩
def F.DPRXn_CTL_MAX_LANES : Fld := ⟨0x300000, 0x200, 0, 8, 2⟩
/-- `DPRXn_STATUS`, R62 of spec/02_ingest.md. -/
def F.DPRXn_STATUS_LINK_UP : Fld := ⟨0x300004, 0x200, 0, 0, 1⟩
def F.DPRXn_STATUS_RATE : Fld := ⟨0x300004, 0x200, 0, 1, 3⟩
def F.DPRXn_STATUS_LANES : Fld := ⟨0x300004, 0x200, 0, 4, 2⟩
def F.DPRXn_STATUS_CODING : Fld := ⟨0x300004, 0x200, 0, 6, 1⟩
def F.DPRXn_STATUS_MSA_STABLE : Fld := ⟨0x300004, 0x200, 0, 7, 1⟩
def F.DPRXn_STATUS_FMT_MISMATCH : Fld := ⟨0x300004, 0x200, 0, 8, 1⟩
def F.DPRXn_STATUS_RATE_LIMIT : Fld := ⟨0x300004, 0x200, 0, 9, 1⟩
def F.DPRXn_STATUS_FORMAT_UNSUPPORTED : Fld := ⟨0x300004, 0x200, 0, 10, 1⟩
def F.DPRXn_STATUS_FORMAT : Fld := ⟨0x300004, 0x200, 0, 16, 8⟩
/-- `DPRXn_ACTIVE`, R70 of spec/02_ingest.md. -/
def F.DPRXn_ACTIVE_WIDTH : Fld := ⟨0x300008, 0x200, 0, 0, 16⟩
def F.DPRXn_ACTIVE_HEIGHT : Fld := ⟨0x300008, 0x200, 0, 16, 16⟩
/-- `DPRXn_PERIOD`, R70 of spec/02_ingest.md. -/
def F.DPRXn_PERIOD : Fld := ⟨0x30000c, 0x200, 0, 0, 32⟩
/-- `DPRXn_LINKLOSS`, R70 of spec/02_ingest.md. -/
def F.DPRXn_LINKLOSS : Fld := ⟨0x300010, 0x200, 0, 0, 32⟩
/-- `DPRXn_EDIDk`, R70 of spec/02_ingest.md. -/
def F.DPRXn_EDIDk : Fld := ⟨0x300100, 0x200, 4, 0, 32⟩
/-- `ETH_MODE`, R63 of spec/02_ingest.md. -/
def F.ETH_MODE_MODE : Fld := ⟨0x340000, 0x0, 0, 0, 2⟩
/-- `INGEST_MARGIN`, R70 of spec/02_ingest.md. -/
def F.INGEST_MARGIN : Fld := ⟨0x340004, 0x0, 0, 0, 20⟩
/-- `INGEST_ADMIT`, R70 of spec/02_ingest.md. -/
def F.INGEST_ADMIT : Fld := ⟨0x340008, 0x0, 0, 0, 32⟩
/-- `FA_STATUS`, R70 of spec/02_ingest.md. -/
def F.FA_STATUS_FA_LATE : Fld := ⟨0x34000c, 0x0, 0, 0, 16⟩
def F.FA_STATUS_FA_BAD : Fld := ⟨0x34000c, 0x0, 0, 16, 16⟩
/-- `FA_NOMATCH`, R70 of spec/02_ingest.md. -/
def F.FA_NOMATCH : Fld := ⟨0x340010, 0x0, 0, 0, 32⟩
/-- `STFLOWn_CTL`, R64 of spec/02_ingest.md. -/
def F.STFLOWn_CTL_ENABLE : Fld := ⟨0x340100, 0x40, 0, 0, 1⟩
def F.STFLOWn_CTL_IPV6 : Fld := ⟨0x340100, 0x40, 0, 1, 1⟩
def F.STFLOWn_CTL_SSM : Fld := ⟨0x340100, 0x40, 0, 2, 1⟩
def F.STFLOWn_CTL_RX_WIDE : Fld := ⟨0x340100, 0x40, 0, 3, 1⟩
def F.STFLOWn_CTL_PORT : Fld := ⟨0x340100, 0x40, 0, 4, 2⟩
def F.STFLOWn_CTL_VLAN_EN : Fld := ⟨0x340100, 0x40, 0, 6, 1⟩
def F.STFLOWn_CTL_VLAN_ID : Fld := ⟨0x340100, 0x40, 0, 8, 12⟩
def F.STFLOWn_CTL_PT : Fld := ⟨0x340100, 0x40, 0, 20, 7⟩
/-- `STFLOWn_DST_ADDRk`, R70 of spec/02_ingest.md. -/
def F.STFLOWn_DST_ADDRk : Fld := ⟨0x340104, 0x40, 4, 0, 32⟩
/-- `STFLOWn_SRC_ADDRk`, R70 of spec/02_ingest.md. -/
def F.STFLOWn_SRC_ADDRk : Fld := ⟨0x340114, 0x40, 4, 0, 32⟩
/-- `STFLOWn_UDP`, R70 of spec/02_ingest.md. -/
def F.STFLOWn_UDP : Fld := ⟨0x340124, 0x40, 0, 0, 16⟩
/-- `STFLOWn_FMT`, R65 of spec/02_ingest.md. -/
def F.STFLOWn_FMT_SAMPLING : Fld := ⟨0x340128, 0x40, 0, 0, 2⟩
def F.STFLOWn_FMT_DEPTH : Fld := ⟨0x340128, 0x40, 0, 2, 2⟩
/-- `STFLOWn_SIZE`, R70 of spec/02_ingest.md. -/
def F.STFLOWn_SIZE_WIDTH : Fld := ⟨0x34012c, 0x40, 0, 0, 16⟩
def F.STFLOWn_SIZE_HEIGHT : Fld := ⟨0x34012c, 0x40, 0, 16, 16⟩
/-- `STFLOWn_STATUS`, R66 of spec/02_ingest.md. -/
def F.STFLOWn_STATUS_JOINED : Fld := ⟨0x340130, 0x40, 0, 0, 1⟩
def F.STFLOWn_STATUS_RECEIVING : Fld := ⟨0x340130, 0x40, 0, 1, 1⟩
def F.STFLOWn_STATUS_FMT_MISMATCH : Fld := ⟨0x340130, 0x40, 0, 2, 1⟩
/-- `STFLOWn_PKT_LOST`, R70 of spec/02_ingest.md. -/
def F.STFLOWn_PKT_LOST : Fld := ⟨0x340134, 0x40, 0, 0, 32⟩
/-- `STFLOWn_OVERFLOW`, R70 of spec/02_ingest.md. -/
def F.STFLOWn_OVERFLOW : Fld := ⟨0x340138, 0x40, 0, 0, 32⟩
/-- `STFLOWn_INCOMPLETE`, R70 of spec/02_ingest.md. -/
def F.STFLOWn_INCOMPLETE : Fld := ⟨0x34013c, 0x40, 0, 0, 32⟩
/-- `LANEn_CTL`, R104 of spec/03_oaris_link.md. -/
def F.LANEn_CTL_TX_INVERT : Fld := ⟨0x400000, 0xc0, 0, 0, 1⟩
def F.LANEn_CTL_RX_POL_AUTO : Fld := ⟨0x400000, 0xc0, 0, 1, 1⟩
def F.LANEn_CTL_RX_INVERT : Fld := ⟨0x400000, 0xc0, 0, 2, 1⟩
def F.LANEn_CTL_LOOPBACK : Fld := ⟨0x400000, 0xc0, 0, 4, 2⟩
/-- `LANEn_STATUS`, R105 of spec/03_oaris_link.md. -/
def F.LANEn_STATUS_SIGNAL : Fld := ⟨0x400004, 0xc0, 0, 0, 1⟩
def F.LANEn_STATUS_CDR_LOCK : Fld := ⟨0x400004, 0xc0, 0, 1, 1⟩
def F.LANEn_STATUS_AM_LOCK : Fld := ⟨0x400004, 0xc0, 0, 2, 1⟩
def F.LANEn_STATUS_RX_INVERTED : Fld := ⟨0x400004, 0xc0, 0, 3, 1⟩
def F.LANEn_STATUS_LOGICAL : Fld := ⟨0x400004, 0xc0, 0, 4, 2⟩
def F.LANEn_STATUS_PRECODE_TX : Fld := ⟨0x400004, 0xc0, 0, 6, 1⟩
def F.LANEn_STATUS_PRECODE_RX : Fld := ⟨0x400004, 0xc0, 0, 7, 1⟩
def F.LANEn_STATUS_DEGRADED : Fld := ⟨0x400004, 0xc0, 0, 8, 1⟩
def F.LANEn_STATUS_ADAPT_DONE : Fld := ⟨0x400004, 0xc0, 0, 9, 1⟩
/-- `LANEn_TXFFE`, R106 of spec/03_oaris_link.md. -/
def F.LANEn_TXFFE_CM2 : Fld := ⟨0x400008, 0xc0, 0, 0, 5⟩
def F.LANEn_TXFFE_CM1 : Fld := ⟨0x400008, 0xc0, 0, 5, 5⟩
def F.LANEn_TXFFE_C0 : Fld := ⟨0x400008, 0xc0, 0, 10, 6⟩
def F.LANEn_TXFFE_CP1 : Fld := ⟨0x400008, 0xc0, 0, 16, 5⟩
def F.LANEn_TXFFE_MANUAL : Fld := ⟨0x400008, 0xc0, 0, 24, 1⟩
/-- `LANEn_EVENT`, R107 of spec/03_oaris_link.md. -/
def F.LANEn_EVENT_FFE_ERR : Fld := ⟨0x40000c, 0xc0, 0, 0, 1⟩
def F.LANEn_EVENT_LOS : Fld := ⟨0x40000c, 0xc0, 0, 1, 1⟩
def F.LANEn_EVENT_AM_LOST : Fld := ⟨0x40000c, 0xc0, 0, 2, 1⟩
def F.LANEn_EVENT_FEC_FAULT : Fld := ⟨0x40000c, 0xc0, 0, 3, 1⟩
def F.LANEn_EVENT_DEGRADED_SET : Fld := ⟨0x40000c, 0xc0, 0, 4, 1⟩
def F.LANEn_EVENT_PAT_ERR : Fld := ⟨0x40000c, 0xc0, 0, 5, 1⟩
/-- `LANEn_CTLE`, R108 of spec/03_oaris_link.md. -/
def F.LANEn_CTLE_PEAK : Fld := ⟨0x400010, 0xc0, 0, 0, 5⟩
def F.LANEn_CTLE_AUTO : Fld := ⟨0x400010, 0xc0, 0, 8, 1⟩
def F.LANEn_CTLE_PEAK_NOW : Fld := ⟨0x400010, 0xc0, 0, 16, 5⟩
/-- `LANEn_DFE`, R109 of spec/03_oaris_link.md. -/
def F.LANEn_DFE_H1 : Fld := ⟨0x400014, 0xc0, 0, 0, 7⟩
def F.LANEn_DFE_AUTO : Fld := ⟨0x400014, 0xc0, 0, 8, 1⟩
def F.LANEn_DFE_H1_NOW : Fld := ⟨0x400014, 0xc0, 0, 16, 7⟩
/-- `LANEn_CDR`, R110 of spec/03_oaris_link.md. -/
def F.LANEn_CDR_BW : Fld := ⟨0x400018, 0xc0, 0, 0, 4⟩
def F.LANEn_CDR_DAMP : Fld := ⟨0x400018, 0xc0, 0, 4, 3⟩
def F.LANEn_CDR_PPM : Fld := ⟨0x400018, 0xc0, 0, 16, 16⟩
/-- `LANEn_PRBS`, R111 of spec/03_oaris_link.md. -/
def F.LANEn_PRBS_GEN_PAT : Fld := ⟨0x400020, 0xc0, 0, 0, 3⟩
def F.LANEn_PRBS_GEN_INV : Fld := ⟨0x400020, 0xc0, 0, 3, 1⟩
def F.LANEn_PRBS_CHK_PAT : Fld := ⟨0x400020, 0xc0, 0, 4, 3⟩
def F.LANEn_PRBS_CHK_INV : Fld := ⟨0x400020, 0xc0, 0, 7, 1⟩
def F.LANEn_PRBS_CLEAR : Fld := ⟨0x400020, 0xc0, 0, 8, 1⟩
def F.LANEn_PRBS_CHK_LOCK : Fld := ⟨0x400020, 0xc0, 0, 9, 1⟩
/-- `LANEn_INJ`, R112 of spec/03_oaris_link.md. -/
def F.LANEn_INJ_MODE : Fld := ⟨0x400024, 0xc0, 0, 0, 2⟩
def F.LANEn_INJ_GO : Fld := ⟨0x400024, 0xc0, 0, 2, 1⟩
def F.LANEn_INJ_LEN : Fld := ⟨0x400024, 0xc0, 0, 3, 8⟩
def F.LANEn_INJ_EXP : Fld := ⟨0x400024, 0xc0, 0, 11, 6⟩
/-- `LANEn_PRBS_ERR_LO`, R116 of spec/03_oaris_link.md. -/
def F.LANEn_PRBS_ERR_LO : Fld := ⟨0x400028, 0xc0, 0, 0, 32⟩
/-- `LANEn_PRBS_ERR_HI`, R116 of spec/03_oaris_link.md. -/
def F.LANEn_PRBS_ERR_HI : Fld := ⟨0x40002c, 0xc0, 0, 0, 16⟩
/-- `LANEn_PRBS_BITS_LO`, R116 of spec/03_oaris_link.md. -/
def F.LANEn_PRBS_BITS_LO : Fld := ⟨0x400030, 0xc0, 0, 0, 32⟩
/-- `LANEn_PRBS_BITS_HI`, R116 of spec/03_oaris_link.md. -/
def F.LANEn_PRBS_BITS_HI : Fld := ⟨0x400034, 0xc0, 0, 0, 16⟩
/-- `LANEn_FEC_CORR`, R116 of spec/03_oaris_link.md. -/
def F.LANEn_FEC_CORR : Fld := ⟨0x400038, 0xc0, 0, 0, 32⟩
/-- `LANEn_FEC_UNCORR`, R116 of spec/03_oaris_link.md. -/
def F.LANEn_FEC_UNCORR : Fld := ⟨0x40003c, 0xc0, 0, 0, 32⟩
/-- `LANEn_FEC_SYMERR`, R116 of spec/03_oaris_link.md. -/
def F.LANEn_FEC_SYMERR : Fld := ⟨0x400040, 0xc0, 0, 0, 32⟩
/-- `LANEn_FEC_HIGH`, R116 of spec/03_oaris_link.md. -/
def F.LANEn_FEC_HIGH : Fld := ⟨0x400044, 0xc0, 0, 0, 32⟩
/-- `LANEn_SKEW`, R116 of spec/03_oaris_link.md. -/
def F.LANEn_SKEW : Fld := ⟨0x400048, 0xc0, 0, 0, 16⟩
/-- `PORTn_CFG`, R113 of spec/03_oaris_link.md. -/
def F.PORTn_CFG_ENABLE : Fld := ⟨0x440000, 0x100, 0, 0, 1⟩
def F.PORTn_CFG_RATE_MAX : Fld := ⟨0x440000, 0x100, 0, 1, 2⟩
def F.PORTn_CFG_RATE_MIN : Fld := ⟨0x440000, 0x100, 0, 3, 2⟩
def F.PORTn_CFG_PRECODE : Fld := ⟨0x440000, 0x100, 0, 5, 2⟩
def F.PORTn_CFG_USE : Fld := ⟨0x440000, 0x100, 0, 7, 2⟩
def F.PORTn_CFG_AUTO_RETRAIN : Fld := ⟨0x440000, 0x100, 0, 9, 1⟩
/-- `PORTn_CTL`, R114 of spec/03_oaris_link.md. -/
def F.PORTn_CTL_RETRAIN : Fld := ⟨0x440004, 0x100, 0, 0, 1⟩
def F.PORTn_CTL_CLEAR : Fld := ⟨0x440004, 0x100, 0, 1, 1⟩
/-- `PORTn_STATUS`, R115 of spec/03_oaris_link.md. -/
def F.PORTn_STATUS_STATE : Fld := ⟨0x440008, 0x100, 0, 0, 4⟩
def F.PORTn_STATUS_REASON : Fld := ⟨0x440008, 0x100, 0, 4, 4⟩
def F.PORTn_STATUS_RATE : Fld := ⟨0x440008, 0x100, 0, 8, 2⟩
def F.PORTn_STATUS_DEGRADED : Fld := ⟨0x440008, 0x100, 0, 10, 1⟩
def F.PORTn_STATUS_PARTNER_VALID : Fld := ⟨0x440008, 0x100, 0, 11, 1⟩
/-- `PORTn_PARTNER_SERIAL_LO`, R116 of spec/03_oaris_link.md. -/
def F.PORTn_PARTNER_SERIAL_LO : Fld := ⟨0x44000c, 0x100, 0, 0, 32⟩
/-- `PORTn_PARTNER_SERIAL_HI`, R116 of spec/03_oaris_link.md. -/
def F.PORTn_PARTNER_SERIAL_HI : Fld := ⟨0x440010, 0x100, 0, 0, 32⟩
/-- `PORTn_PARTNER_INFO`, R116 of spec/03_oaris_link.md. -/
def F.PORTn_PARTNER_INFO_ROLE : Fld := ⟨0x440014, 0x100, 0, 0, 2⟩
def F.PORTn_PARTNER_INFO_PORT : Fld := ⟨0x440014, 0x100, 0, 4, 4⟩
def F.PORTn_PARTNER_INFO_KIND : Fld := ⟨0x440014, 0x100, 0, 8, 3⟩
def F.PORTn_PARTNER_INFO_RATES : Fld := ⟨0x440014, 0x100, 0, 16, 3⟩
/-- `PORTn_RETRAINS`, R116 of spec/03_oaris_link.md. -/
def F.PORTn_RETRAINS : Fld := ⟨0x440018, 0x100, 0, 0, 32⟩
/-- `PORTn_STOMPED`, R116 of spec/03_oaris_link.md. -/
def F.PORTn_STOMPED : Fld := ⟨0x44001c, 0x100, 0, 0, 32⟩
/-- `PORTn_FRAGMENTS`, R116 of spec/03_oaris_link.md. -/
def F.PORTn_FRAGMENTS : Fld := ⟨0x440020, 0x100, 0, 0, 32⟩
/-- `PORTn_TRAIN_TIME`, R116 of spec/03_oaris_link.md. -/
def F.PORTn_TRAIN_TIME : Fld := ⟨0x440024, 0x100, 0, 0, 32⟩
/-- `PORT_TRAIN_TIMEOUT`, R116 of spec/03_oaris_link.md. -/
def F.PORT_TRAIN_TIMEOUT : Fld := ⟨0x440700, 0x0, 0, 0, 8⟩
/-- `PORT_RETRAIN_HOLDOFF`, R116 of spec/03_oaris_link.md. -/
def F.PORT_RETRAIN_HOLDOFF : Fld := ⟨0x440704, 0x0, 0, 0, 10⟩
/-- `PORT_DEGRADE`, R116 of spec/03_oaris_link.md. -/
def F.PORT_DEGRADE : Fld := ⟨0x440708, 0x0, 0, 0, 24⟩
/-- `RING_CFG`, R156 of spec/04_ring_and_redundancy.md. -/
def F.RING_CFG_SINGLE : Fld := ⟨0x480000, 0x0, 0, 0, 1⟩
def F.RING_CFG_RETURN : Fld := ⟨0x480000, 0x0, 0, 1, 2⟩
def F.RING_CFG_ENC_EN : Fld := ⟨0x480000, 0x0, 0, 3, 1⟩
def F.RING_CFG_ENC_REQUIRED : Fld := ⟨0x480000, 0x0, 0, 4, 1⟩
/-- `RING_STATUS`, R157 of spec/04_ring_and_redundancy.md. -/
def F.RING_STATUS_STATE : Fld := ⟨0x480004, 0x0, 0, 0, 3⟩
def F.RING_STATUS_COMPACT : Fld := ⟨0x480004, 0x0, 0, 3, 1⟩
def F.RING_STATUS_DIVERGED : Fld := ⟨0x480004, 0x0, 0, 4, 1⟩
def F.RING_STATUS_PREFER : Fld := ⟨0x480004, 0x0, 0, 5, 1⟩
def F.RING_STATUS_MIRROR_UP : Fld := ⟨0x480004, 0x0, 0, 6, 1⟩
def F.RING_STATUS_PEER : Fld := ⟨0x480004, 0x0, 0, 7, 1⟩
def F.RING_STATUS_PEER_DIRECT : Fld := ⟨0x480004, 0x0, 0, 8, 1⟩
def F.RING_STATUS_START : Fld := ⟨0x480004, 0x0, 0, 9, 1⟩
def F.RING_STATUS_HANDBACK_PENDING : Fld := ⟨0x480004, 0x0, 0, 10, 1⟩
def F.RING_STATUS_KEY_VALID : Fld := ⟨0x480004, 0x0, 0, 11, 1⟩
/-- `RING_TILE_STATUS`, R158 of spec/04_ring_and_redundancy.md. -/
def F.RING_TILE_STATUS_HOP : Fld := ⟨0x480008, 0x0, 0, 0, 8⟩
def F.RING_TILE_STATUS_RING : Fld := ⟨0x480008, 0x0, 0, 8, 3⟩
def F.RING_TILE_STATUS_ENUMERATED : Fld := ⟨0x480008, 0x0, 0, 11, 1⟩
def F.RING_TILE_STATUS_EXCESS : Fld := ⟨0x480008, 0x0, 0, 12, 1⟩
def F.RING_TILE_STATUS_PREFER : Fld := ⟨0x480008, 0x0, 0, 13, 1⟩
def F.RING_TILE_STATUS_START : Fld := ⟨0x480008, 0x0, 0, 14, 1⟩
def F.RING_TILE_STATUS_BW_EAST : Fld := ⟨0x480008, 0x0, 0, 15, 1⟩
def F.RING_TILE_STATUS_GEN : Fld := ⟨0x480008, 0x0, 0, 16, 8⟩
/-- `RING_PORTMAP`, R159 of spec/04_ring_and_redundancy.md. -/
def F.RING_PORTMAP_MAP : Fld := ⟨0x48000c, 0x0, 0, 0, 21⟩
/-- `RING_CTL`, R160 of spec/04_ring_and_redundancy.md. -/
def F.RING_CTL_ENUMERATE : Fld := ⟨0x480010, 0x0, 0, 0, 1⟩
def F.RING_CTL_CLEAR : Fld := ⟨0x480010, 0x0, 0, 1, 1⟩
def F.RING_CTL_HANDOVER : Fld := ⟨0x480010, 0x0, 0, 2, 1⟩
/-- `RING_TIMING`, R161 of spec/04_ring_and_redundancy.md. -/
def F.RING_TIMING_HEAD_LOSS_TIME : Fld := ⟨0x480014, 0x0, 0, 0, 10⟩
def F.RING_TIMING_GAP_WAIT : Fld := ⟨0x480014, 0x0, 0, 10, 10⟩
def F.RING_TIMING_CLEAN_TIME : Fld := ⟨0x480014, 0x0, 0, 20, 8⟩
/-- `RING_WALL`, R163 of spec/04_ring_and_redundancy.md. -/
def F.RING_WALL : Fld := ⟨0x480018, 0x0, 0, 0, 11⟩
/-- `RING_BW_SERIAL_LO`, R163 of spec/04_ring_and_redundancy.md. -/
def F.RING_BW_SERIAL_LO : Fld := ⟨0x480020, 0x0, 0, 0, 32⟩
/-- `RING_BW_SERIAL_HI`, R163 of spec/04_ring_and_redundancy.md. -/
def F.RING_BW_SERIAL_HI : Fld := ⟨0x480024, 0x0, 0, 0, 32⟩
/-- `RINGr_INFO`, R162 of spec/04_ring_and_redundancy.md. -/
def F.RINGr_INFO_TILES : Fld := ⟨0x480040, 0x4, 0, 0, 8⟩
def F.RINGr_INFO_EXCESS : Fld := ⟨0x480040, 0x4, 0, 8, 8⟩
def F.RINGr_INFO_CLOSED : Fld := ⟨0x480040, 0x4, 0, 16, 1⟩
def F.RINGr_INFO_ENUM_DONE : Fld := ⟨0x480040, 0x4, 0, 17, 1⟩
def F.RINGr_INFO_MISMAP : Fld := ⟨0x480040, 0x4, 0, 18, 1⟩
def F.RINGr_INFO_A_SIDE : Fld := ⟨0x480040, 0x4, 0, 19, 1⟩
/-- `RING_CRC_BAD`, R163 of spec/04_ring_and_redundancy.md. -/
def F.RING_CRC_BAD : Fld := ⟨0x480080, 0x0, 0, 0, 32⟩
/-- `RING_HDR_BAD`, R163 of spec/04_ring_and_redundancy.md. -/
def F.RING_HDR_BAD : Fld := ⟨0x480084, 0x0, 0, 0, 32⟩
/-- `RING_DUP`, R163 of spec/04_ring_and_redundancy.md. -/
def F.RING_DUP : Fld := ⟨0x480088, 0x0, 0, 0, 32⟩
/-- `RING_STALE`, R163 of spec/04_ring_and_redundancy.md. -/
def F.RING_STALE : Fld := ⟨0x48008c, 0x0, 0, 0, 32⟩
/-- `RING_TALLY_JUMP`, R163 of spec/04_ring_and_redundancy.md. -/
def F.RING_TALLY_JUMP : Fld := ⟨0x480090, 0x0, 0, 0, 32⟩
/-- `RING_GAP_LOST`, R163 of spec/04_ring_and_redundancy.md. -/
def F.RING_GAP_LOST : Fld := ⟨0x480094, 0x0, 0, 0, 32⟩
/-- `RING_COPY_MISMATCH`, R163 of spec/04_ring_and_redundancy.md. -/
def F.RING_COPY_MISMATCH : Fld := ⟨0x480098, 0x0, 0, 0, 32⟩
/-- `RING_AUTH_FAIL`, R163 of spec/04_ring_and_redundancy.md. -/
def F.RING_AUTH_FAIL : Fld := ⟨0x48009c, 0x0, 0, 0, 32⟩
/-- `RING_FILL_REPLACED`, R163 of spec/04_ring_and_redundancy.md. -/
def F.RING_FILL_REPLACED : Fld := ⟨0x4800a0, 0x0, 0, 0, 32⟩
/-- `RING_DIGEST_MISMATCH`, R163 of spec/04_ring_and_redundancy.md. -/
def F.RING_DIGEST_MISMATCH : Fld := ⟨0x4800a4, 0x0, 0, 0, 32⟩
/-- `RING_DIVERGENCES`, R163 of spec/04_ring_and_redundancy.md. -/
def F.RING_DIVERGENCES : Fld := ⟨0x4800a8, 0x0, 0, 0, 32⟩
/-- `RING_TAKEOVERS`, R163 of spec/04_ring_and_redundancy.md. -/
def F.RING_TAKEOVERS : Fld := ⟨0x4800ac, 0x0, 0, 0, 32⟩
/-- `RING_MIRROR_DOWN`, R163 of spec/04_ring_and_redundancy.md. -/
def F.RING_MIRROR_DOWN : Fld := ⟨0x4800b0, 0x0, 0, 0, 32⟩
/-- `RING_COPY_LATE`, R163 of spec/04_ring_and_redundancy.md. -/
def F.RING_COPY_LATE : Fld := ⟨0x4800b4, 0x0, 0, 0, 32⟩
/-- `STREAMs_HIGH`, R163 of spec/04_ring_and_redundancy.md. -/
def F.STREAMs_HIGH : Fld := ⟨0x480200, 0x4, 0, 0, 32⟩
/-- `TIME_CFG`, R189 of spec/05_time.md. -/
def F.TIME_CFG_MODE : Fld := ⟨0x500000, 0x0, 0, 0, 2⟩
def F.TIME_CFG_PPS_EDGE : Fld := ⟨0x500000, 0x0, 0, 2, 1⟩
def F.TIME_CFG_AUTO_RESTEP : Fld := ⟨0x500000, 0x0, 0, 3, 1⟩
/-- `TIME_CTL`, R190 of spec/05_time.md. -/
def F.TIME_CTL_CAPTURE : Fld := ⟨0x500004, 0x0, 0, 0, 1⟩
def F.TIME_CTL_RELOCK : Fld := ⟨0x500004, 0x0, 0, 1, 1⟩
def F.TIME_CTL_CLEAR : Fld := ⟨0x500004, 0x0, 0, 2, 1⟩
/-- `TIME_STATUS`, R191 of spec/05_time.md. -/
def F.TIME_STATUS_STATE : Fld := ⟨0x500008, 0x0, 0, 0, 3⟩
def F.TIME_STATUS_SOURCE : Fld := ⟨0x500008, 0x0, 0, 4, 3⟩
def F.TIME_STATUS_ALIGNED : Fld := ⟨0x500008, 0x0, 0, 7, 1⟩
def F.TIME_STATUS_WITHIN_1US : Fld := ⟨0x500008, 0x0, 0, 8, 1⟩
def F.TIME_STATUS_EW_VALID : Fld := ⟨0x500008, 0x0, 0, 9, 1⟩
def F.TIME_STATUS_TGEN : Fld := ⟨0x500008, 0x0, 0, 16, 8⟩
def F.TIME_STATUS_STEPS : Fld := ⟨0x500008, 0x0, 0, 24, 8⟩
/-- `TIME_EVENT`, R192 of spec/05_time.md. -/
def F.TIME_EVENT_STEPPED : Fld := ⟨0x50000c, 0x0, 0, 0, 1⟩
def F.TIME_EVENT_SOURCE_CHANGED : Fld := ⟨0x50000c, 0x0, 0, 1, 1⟩
def F.TIME_EVENT_HOLDOVER_ENTERED : Fld := ⟨0x50000c, 0x0, 0, 2, 1⟩
def F.TIME_EVENT_PATH_CHANGE : Fld := ⟨0x50000c, 0x0, 0, 3, 1⟩
def F.TIME_EVENT_REF_LOST : Fld := ⟨0x50000c, 0x0, 0, 4, 1⟩
def F.TIME_EVENT_TGEN_CHANGED : Fld := ⟨0x50000c, 0x0, 0, 5, 1⟩
/-- `TIME_CAP_SEC_LO`, R198 of spec/05_time.md. -/
def F.TIME_CAP_SEC_LO : Fld := ⟨0x500010, 0x0, 0, 0, 32⟩
/-- `TIME_CAP_SEC_HI`, R198 of spec/05_time.md. -/
def F.TIME_CAP_SEC_HI : Fld := ⟨0x500014, 0x0, 0, 0, 32⟩
/-- `TIME_CAP_NS`, R198 of spec/05_time.md. -/
def F.TIME_CAP_NS : Fld := ⟨0x500018, 0x0, 0, 0, 30⟩
/-- `TIME_CAP_FRAC`, R198 of spec/05_time.md. -/
def F.TIME_CAP_FRAC : Fld := ⟨0x50001c, 0x0, 0, 0, 16⟩
/-- `TIME_RATE`, R198 of spec/05_time.md. -/
def F.TIME_RATE : Fld := ⟨0x500020, 0x0, 0, 0, 32⟩
/-- `TIME_OFFSET`, R198 of spec/05_time.md. -/
def F.TIME_OFFSET : Fld := ⟨0x500024, 0x0, 0, 0, 32⟩
/-- `TIME_ERR`, R198 of spec/05_time.md. -/
def F.TIME_ERR : Fld := ⟨0x500028, 0x0, 0, 0, 32⟩
/-- `TIME_EW_DIFF`, R198 of spec/05_time.md. -/
def F.TIME_EW_DIFF : Fld := ⟨0x50002c, 0x0, 0, 0, 32⟩
/-- `TIME_SLEW`, R198 of spec/05_time.md. -/
def F.TIME_SLEW : Fld := ⟨0x500030, 0x0, 0, 0, 9⟩
/-- `TIME_SERVO`, R193 of spec/05_time.md. -/
def F.TIME_SERVO_BW : Fld := ⟨0x500034, 0x0, 0, 0, 3⟩
def F.TIME_SERVO_DAMP : Fld := ⟨0x500034, 0x0, 0, 4, 2⟩
def F.TIME_SERVO_PTP_BW : Fld := ⟨0x500034, 0x0, 0, 8, 3⟩
def F.TIME_SERVO_HOLD_AVG : Fld := ⟨0x500034, 0x0, 0, 16, 8⟩
/-- `TIME_PD_STEP`, R198 of spec/05_time.md. -/
def F.TIME_PD_STEP : Fld := ⟨0x500038, 0x0, 0, 0, 10⟩
/-- `TIME_LAG`, R198 of spec/05_time.md. -/
def F.TIME_LAG : Fld := ⟨0x50003c, 0x0, 0, 0, 32⟩
/-- `TIME_FRAME`, R194 of spec/05_time.md. -/
def F.TIME_FRAME_RATE : Fld := ⟨0x500040, 0x0, 0, 0, 5⟩
def F.TIME_FRAME_SLOTS : Fld := ⟨0x500040, 0x0, 0, 5, 3⟩
/-- `TIME_FRAME_PHASE`, R198 of spec/05_time.md. -/
def F.TIME_FRAME_PHASE : Fld := ⟨0x500044, 0x0, 0, 0, 26⟩
/-- `TIME_FRAME_COUNT_LO`, R198 of spec/05_time.md. -/
def F.TIME_FRAME_COUNT_LO : Fld := ⟨0x500048, 0x0, 0, 0, 32⟩
/-- `TIME_FRAME_COUNT_HI`, R198 of spec/05_time.md. -/
def F.TIME_FRAME_COUNT_HI : Fld := ⟨0x50004c, 0x0, 0, 0, 32⟩
/-- `TIME_SET_SEC_LO`, R198 of spec/05_time.md. -/
def F.TIME_SET_SEC_LO : Fld := ⟨0x500050, 0x0, 0, 0, 32⟩
/-- `TIME_SET_SEC_HI`, R198 of spec/05_time.md. -/
def F.TIME_SET_SEC_HI : Fld := ⟨0x500054, 0x0, 0, 0, 32⟩
/-- `TIME_UTC`, R198 of spec/05_time.md. -/
def F.TIME_UTC_OFFSET : Fld := ⟨0x500058, 0x0, 0, 0, 16⟩
def F.TIME_UTC_LEAP61 : Fld := ⟨0x500058, 0x0, 0, 16, 1⟩
def F.TIME_UTC_LEAP59 : Fld := ⟨0x500058, 0x0, 0, 17, 1⟩
def F.TIME_UTC_UTC_VALID : Fld := ⟨0x500058, 0x0, 0, 18, 1⟩
/-- `TIME_PTP_CFG`, R195 of spec/05_time.md. -/
def F.TIME_PTP_CFG_DOMAIN : Fld := ⟨0x500060, 0x0, 0, 0, 7⟩
def F.TIME_PTP_CFG_DELAY : Fld := ⟨0x500060, 0x0, 0, 7, 1⟩
def F.TIME_PTP_CFG_PORT : Fld := ⟨0x500060, 0x0, 0, 8, 2⟩
def F.TIME_PTP_CFG_IPV6 : Fld := ⟨0x500060, 0x0, 0, 10, 1⟩
def F.TIME_PTP_CFG_VLAN_EN : Fld := ⟨0x500060, 0x0, 0, 11, 1⟩
def F.TIME_PTP_CFG_VLAN_ID : Fld := ⟨0x500060, 0x0, 0, 12, 12⟩
def F.TIME_PTP_CFG_ENABLE : Fld := ⟨0x500060, 0x0, 0, 24, 1⟩
/-- `TIME_PTP_INTV`, R196 of spec/05_time.md. -/
def F.TIME_PTP_INTV_SYNC_LOG : Fld := ⟨0x500064, 0x0, 0, 0, 4⟩
def F.TIME_PTP_INTV_ANN_LOG : Fld := ⟨0x500064, 0x0, 0, 4, 4⟩
def F.TIME_PTP_INTV_DELAY_LOG : Fld := ⟨0x500064, 0x0, 0, 8, 4⟩
def F.TIME_PTP_INTV_ANN_TIMEOUT : Fld := ⟨0x500064, 0x0, 0, 12, 4⟩
def F.TIME_PTP_INTV_PRIORITY1 : Fld := ⟨0x500064, 0x0, 0, 16, 8⟩
def F.TIME_PTP_INTV_PRIORITY2 : Fld := ⟨0x500064, 0x0, 0, 24, 8⟩
/-- `TIME_PTP_STATUS`, R198 of spec/05_time.md. -/
def F.TIME_PTP_STATUS_PORT_STATE : Fld := ⟨0x500068, 0x0, 0, 0, 4⟩
def F.TIME_PTP_STATUS_GM_CLASS : Fld := ⟨0x500068, 0x0, 0, 8, 8⟩
/-- `TIME_PTP_GM_ID_LO`, R198 of spec/05_time.md. -/
def F.TIME_PTP_GM_ID_LO : Fld := ⟨0x50006c, 0x0, 0, 0, 32⟩
/-- `TIME_PTP_GM_ID_HI`, R198 of spec/05_time.md. -/
def F.TIME_PTP_GM_ID_HI : Fld := ⟨0x500070, 0x0, 0, 0, 32⟩
/-- `TIME_PTP_MEANPATH`, R198 of spec/05_time.md. -/
def F.TIME_PTP_MEANPATH : Fld := ⟨0x500074, 0x0, 0, 0, 32⟩
/-- `TIME_CELL_LOST`, R198 of spec/05_time.md. -/
def F.TIME_CELL_LOST : Fld := ⟨0x500080, 0x0, 0, 0, 32⟩
/-- `TIME_PD_TIMEOUT`, R198 of spec/05_time.md. -/
def F.TIME_PD_TIMEOUT : Fld := ⟨0x500084, 0x0, 0, 0, 32⟩
/-- `TIME_PPS_REJECT`, R198 of spec/05_time.md. -/
def F.TIME_PPS_REJECT : Fld := ⟨0x500088, 0x0, 0, 0, 32⟩
/-- `TIME_HELD`, R198 of spec/05_time.md. -/
def F.TIME_HELD : Fld := ⟨0x50008c, 0x0, 0, 0, 32⟩
/-- `TIME_TEPOCH`, R198 of spec/05_time.md. -/
def F.TIME_TEPOCH : Fld := ⟨0x500090, 0x0, 0, 0, 8⟩
/-- `TIME_PORTp_TXLAT`, R198 of spec/05_time.md. -/
def F.TIME_PORTp_TXLAT : Fld := ⟨0x500100, 0x10, 0, 0, 24⟩
/-- `TIME_PORTp_RXLAT`, R198 of spec/05_time.md. -/
def F.TIME_PORTp_RXLAT : Fld := ⟨0x500104, 0x10, 0, 0, 24⟩
/-- `TIME_PORTp_PDELAY`, R198 of spec/05_time.md. -/
def F.TIME_PORTp_PDELAY : Fld := ⟨0x500108, 0x10, 0, 0, 32⟩
/-- `TIME_PORTp_PDSTAT`, R198 of spec/05_time.md. -/
def F.TIME_PORTp_PDSTAT_VALID : Fld := ⟨0x50010c, 0x10, 0, 0, 1⟩
def F.TIME_PORTp_PDSTAT_CHAIN_VALID : Fld := ⟨0x50010c, 0x10, 0, 1, 1⟩
def F.TIME_PORTp_PDSTAT_PATH_CHANGE : Fld := ⟨0x50010c, 0x10, 0, 2, 1⟩
/-- `TIME_ALARMa_CTL`, R197 of spec/05_time.md. -/
def F.TIME_ALARMa_CTL_ENABLE : Fld := ⟨0x500400, 0x10, 0, 0, 1⟩
def F.TIME_ALARMa_CTL_MODE : Fld := ⟨0x500400, 0x10, 0, 1, 3⟩
def F.TIME_ALARMa_CTL_TARGET : Fld := ⟨0x500400, 0x10, 0, 4, 2⟩
def F.TIME_ALARMa_CTL_SLOT_MASK : Fld := ⟨0x500400, 0x10, 0, 8, 4⟩
def F.TIME_ALARMa_CTL_FIRED : Fld := ⟨0x500400, 0x10, 0, 16, 1⟩
def F.TIME_ALARMa_CTL_LATE : Fld := ⟨0x500400, 0x10, 0, 17, 1⟩
/-- `TIME_ALARMa_SEC`, R198 of spec/05_time.md. -/
def F.TIME_ALARMa_SEC : Fld := ⟨0x500404, 0x10, 0, 0, 32⟩
/-- `TIME_ALARMa_OFFSET`, R198 of spec/05_time.md. -/
def F.TIME_ALARMa_OFFSET : Fld := ⟨0x500408, 0x10, 0, 0, 32⟩
/-- `TIME_ALARMa_WIDTH`, R198 of spec/05_time.md. -/
def F.TIME_ALARMa_WIDTH : Fld := ⟨0x50040c, 0x10, 0, 0, 24⟩
/-- `FLOCK_STATUS`, R225 of spec/06_flocks.md. -/
def F.FLOCK_STATUS_OPEN : Fld := ⟨0x540000, 0x0, 0, 0, 7⟩
def F.FLOCK_STATUS_OUT_OF_STEP : Fld := ⟨0x540000, 0x0, 0, 8, 1⟩
def F.FLOCK_STATUS_STALE_CONFIG : Fld := ⟨0x540000, 0x0, 0, 9, 1⟩
def F.FLOCK_STATUS_EXCLUSIVE_CALLED : Fld := ⟨0x540000, 0x0, 0, 10, 1⟩
/-- `FLOCK_EVENT`, R226 of spec/06_flocks.md. -/
def F.FLOCK_EVENT_OOS_ENTERED : Fld := ⟨0x540004, 0x0, 0, 0, 1⟩
def F.FLOCK_EVENT_RECORD_FAULT : Fld := ⟨0x540004, 0x0, 0, 1, 1⟩
def F.FLOCK_EVENT_STAGE_FAULT : Fld := ⟨0x540004, 0x0, 0, 2, 1⟩
def F.FLOCK_EVENT_LATE_OUTCOME : Fld := ⟨0x540004, 0x0, 0, 3, 1⟩
def F.FLOCK_EVENT_NO_RECORD : Fld := ⟨0x540004, 0x0, 0, 4, 1⟩
def F.FLOCK_EVENT_REFUSED : Fld := ⟨0x540004, 0x0, 0, 5, 1⟩
/-- `FLOCK_CTL`, R227 of spec/06_flocks.md. -/
def F.FLOCK_CTL_CLEAR : Fld := ⟨0x540008, 0x0, 0, 0, 1⟩
def F.FLOCK_CTL_STALE_CLR : Fld := ⟨0x540008, 0x0, 0, 1, 1⟩
/-- `FLOCK_VOTE_WINDOW`, R230 of spec/06_flocks.md. -/
def F.FLOCK_VOTE_WINDOW : Fld := ⟨0x540010, 0x0, 0, 0, 17⟩
/-- `FLOCK_VOTE_GRACE`, R230 of spec/06_flocks.md. -/
def F.FLOCK_VOTE_GRACE : Fld := ⟨0x540014, 0x0, 0, 0, 10⟩
/-- `FLOCK_GUARD`, R230 of spec/06_flocks.md. -/
def F.FLOCK_GUARD : Fld := ⟨0x540018, 0x0, 0, 0, 16⟩
/-- `FLOCK_OPEN_LIMIT`, R230 of spec/06_flocks.md. -/
def F.FLOCK_OPEN_LIMIT : Fld := ⟨0x54001c, 0x0, 0, 0, 12⟩
/-- `FLOCK_COMMITS`, R230 of spec/06_flocks.md. -/
def F.FLOCK_COMMITS : Fld := ⟨0x540020, 0x0, 0, 0, 32⟩
/-- `FLOCK_ABORTS`, R230 of spec/06_flocks.md. -/
def F.FLOCK_ABORTS : Fld := ⟨0x540024, 0x0, 0, 0, 32⟩
/-- `FLOCK_OOS_FRAMES`, R230 of spec/06_flocks.md. -/
def F.FLOCK_OOS_FRAMES : Fld := ⟨0x540028, 0x0, 0, 0, 32⟩
/-- `FLOCK_LATE_VOTES`, R230 of spec/06_flocks.md. -/
def F.FLOCK_LATE_VOTES : Fld := ⟨0x54002c, 0x0, 0, 0, 32⟩
/-- `FLOCK_SEL`, R230 of spec/06_flocks.md. -/
def F.FLOCK_SEL : Fld := ⟨0x540040, 0x0, 0, 0, 6⟩
/-- `FLOCK_SEL_T_LO`, R230 of spec/06_flocks.md. -/
def F.FLOCK_SEL_T_LO : Fld := ⟨0x540044, 0x0, 0, 0, 32⟩
/-- `FLOCK_SEL_T_HI`, R230 of spec/06_flocks.md. -/
def F.FLOCK_SEL_T_HI : Fld := ⟨0x540048, 0x0, 0, 0, 32⟩
/-- `FLOCK_SEL_DEADLINE_SEC`, R230 of spec/06_flocks.md. -/
def F.FLOCK_SEL_DEADLINE_SEC : Fld := ⟨0x54004c, 0x0, 0, 0, 32⟩
/-- `FLOCK_SEL_DEADLINE_NS`, R230 of spec/06_flocks.md. -/
def F.FLOCK_SEL_DEADLINE_NS : Fld := ⟨0x540050, 0x0, 0, 0, 30⟩
/-- `FLOCK_SEL_VOTES`, R230 of spec/06_flocks.md. -/
def F.FLOCK_SEL_VOTES_READY : Fld := ⟨0x540054, 0x0, 0, 0, 16⟩
def F.FLOCK_SEL_VOTES_REFUSE : Fld := ⟨0x540054, 0x0, 0, 16, 16⟩
/-- `FLOCK_SEL_ACKS`, R230 of spec/06_flocks.md. -/
def F.FLOCK_SEL_ACKS_ACKED : Fld := ⟨0x540058, 0x0, 0, 0, 16⟩
def F.FLOCK_SEL_ACKS_PARTICIPANTS : Fld := ⟨0x540058, 0x0, 0, 16, 16⟩
/-- `FLOCK_SEL_NODE_LO`, R230 of spec/06_flocks.md. -/
def F.FLOCK_SEL_NODE_LO : Fld := ⟨0x54005c, 0x0, 0, 0, 32⟩
/-- `FLOCK_SEL_NODE_HI`, R230 of spec/06_flocks.md. -/
def F.FLOCK_SEL_NODE_HI : Fld := ⟨0x540060, 0x0, 0, 0, 32⟩
/-- `FLOCK_SEL_STAGED`, R230 of spec/06_flocks.md. -/
def F.FLOCK_SEL_STAGED : Fld := ⟨0x540064, 0x0, 0, 0, 32⟩
/-- `FLOCK_TXc_STATUS`, R229 of spec/06_flocks.md. -/
def F.FLOCK_TXc_STATUS_STATE : Fld := ⟨0x540080, 0x4, 0, 0, 2⟩
def F.FLOCK_TXc_STATUS_BOUNDARY : Fld := ⟨0x540080, 0x4, 0, 2, 2⟩
def F.FLOCK_TXc_STATUS_REASON : Fld := ⟨0x540080, 0x4, 0, 4, 4⟩
def F.FLOCK_TXc_STATUS_WRITES : Fld := ⟨0x540080, 0x4, 0, 8, 13⟩
/-- `FLOCKs_INFO`, R228 of spec/06_flocks.md. -/
def F.FLOCKs_INFO_ID : Fld := ⟨0x540100, 0x4, 0, 0, 12⟩
def F.FLOCKs_INFO_STATE : Fld := ⟨0x540100, 0x4, 0, 12, 4⟩
def F.FLOCKs_INFO_REASON : Fld := ⟨0x540100, 0x4, 0, 16, 4⟩
def F.FLOCKs_INFO_EXCLUSIVE : Fld := ⟨0x540100, 0x4, 0, 20, 1⟩
def F.FLOCKs_INFO_CONTEXT : Fld := ⟨0x540100, 0x4, 0, 21, 3⟩
/-- `FOLDn_COMP_STATUS`, R270 of spec/07_composition.md. -/
def F.FOLDn_COMP_STATUS_BUSY : Fld := ⟨0x103000, 0x40000, 0, 0, 1⟩
def F.FOLDn_COMP_STATUS_TABLE_FAULT : Fld := ⟨0x103000, 0x40000, 0, 1, 1⟩
def F.FOLDn_COMP_STATUS_SLOT : Fld := ⟨0x103000, 0x40000, 0, 4, 2⟩
/-- `FOLDn_COMP_TIME`, R270 of spec/07_composition.md. -/
def F.FOLDn_COMP_TIME : Fld := ⟨0x103004, 0x40000, 0, 0, 32⟩
/-- `FOLDn_COMP_LAMPS`, R270 of spec/07_composition.md. -/
def F.FOLDn_COMP_LAMPS : Fld := ⟨0x103008, 0x40000, 0, 0, 32⟩
/-- `FOLDn_COMP_CULLED`, R270 of spec/07_composition.md. -/
def F.FOLDn_COMP_CULLED : Fld := ⟨0x10300c, 0x40000, 0, 0, 32⟩
/-- `FOLDn_COMP_FETCH`, R270 of spec/07_composition.md. -/
def F.FOLDn_COMP_FETCH : Fld := ⟨0x103010, 0x40000, 0, 0, 32⟩
/-- `FOLDn_COMP_LATE`, R270 of spec/07_composition.md. -/
def F.FOLDn_COMP_LATE : Fld := ⟨0x103014, 0x40000, 0, 0, 32⟩
/-- `LAYERn_CTL`, R266 of spec/07_composition.md. -/
def F.LAYERn_CTL_ENABLE : Fld := ⟨0x200000, 0x100, 0, 0, 1⟩
def F.LAYERn_CTL_Z : Fld := ⟨0x200000, 0x100, 0, 4, 4⟩
def F.LAYERn_CTL_OPACITY : Fld := ⟨0x200000, 0x100, 0, 8, 2⟩
def F.LAYERn_CTL_HURDLE_EN : Fld := ⟨0x200000, 0x100, 0, 10, 1⟩
def F.LAYERn_CTL_FILTER : Fld := ⟨0x200000, 0x100, 0, 11, 1⟩
def F.LAYERn_CTL_SITING_H : Fld := ⟨0x200000, 0x100, 0, 12, 1⟩
def F.LAYERn_CTL_SITING_V : Fld := ⟨0x200000, 0x100, 0, 13, 1⟩
def F.LAYERn_CTL_SLOT_MASK : Fld := ⟨0x200000, 0x100, 0, 16, 4⟩
def F.LAYERn_CTL_IN_LUT : Fld := ⟨0x200000, 0x100, 0, 20, 2⟩
def F.LAYERn_CTL_IN_LUT_EN : Fld := ⟨0x200000, 0x100, 0, 22, 1⟩
def F.LAYERn_CTL_HBANK : Fld := ⟨0x200000, 0x100, 0, 24, 2⟩
def F.LAYERn_CTL_VBANK : Fld := ⟨0x200000, 0x100, 0, 26, 2⟩
/-- `LAYERn_FORMAT`, R270 of spec/07_composition.md. -/
def F.LAYERn_FORMAT : Fld := ⟨0x200004, 0x100, 0, 0, 8⟩
/-- `LAYERn_SRC_SIZE`, R270 of spec/07_composition.md. -/
def F.LAYERn_SRC_SIZE_WIDTH : Fld := ⟨0x200008, 0x100, 0, 0, 16⟩
def F.LAYERn_SRC_SIZE_HEIGHT : Fld := ⟨0x200008, 0x100, 0, 16, 16⟩
/-- `LAYERn_ALPHA`, R270 of spec/07_composition.md. -/
def F.LAYERn_ALPHA : Fld := ⟨0x20000c, 0x100, 0, 0, 17⟩
/-- `LAYERn_DST_X0`, R270 of spec/07_composition.md. -/
def F.LAYERn_DST_X0 : Fld := ⟨0x200010, 0x100, 0, 0, 20⟩
/-- `LAYERn_DST_Y0`, R270 of spec/07_composition.md. -/
def F.LAYERn_DST_Y0 : Fld := ⟨0x200014, 0x100, 0, 0, 20⟩
/-- `LAYERn_DST_X1`, R270 of spec/07_composition.md. -/
def F.LAYERn_DST_X1 : Fld := ⟨0x200018, 0x100, 0, 0, 20⟩
/-- `LAYERn_DST_Y1`, R270 of spec/07_composition.md. -/
def F.LAYERn_DST_Y1 : Fld := ⟨0x20001c, 0x100, 0, 0, 20⟩
/-- `LAYERn_SRC_ORIGIN`, R270 of spec/07_composition.md. -/
def F.LAYERn_SRC_ORIGIN_X0 : Fld := ⟨0x200020, 0x100, 0, 0, 16⟩
def F.LAYERn_SRC_ORIGIN_Y0 : Fld := ⟨0x200020, 0x100, 0, 16, 16⟩
/-- `LAYERn_SRC_EXTENT`, R270 of spec/07_composition.md. -/
def F.LAYERn_SRC_EXTENT_X1 : Fld := ⟨0x200024, 0x100, 0, 0, 16⟩
def F.LAYERn_SRC_EXTENT_Y1 : Fld := ⟨0x200024, 0x100, 0, 16, 16⟩
/-- `LAYERn_CSCk`, R270 of spec/07_composition.md. -/
def F.LAYERn_CSCk : Fld := ⟨0x200028, 0x100, 4, 0, 20⟩
/-- `LAYERn_HURDLE`, R270 of spec/07_composition.md. -/
def F.LAYERn_HURDLE : Fld := ⟨0x200058, 0x100, 0, 0, 32⟩
/-- `LAYERn_SHOWN`, R270 of spec/07_composition.md. -/
def F.LAYERn_SHOWN : Fld := ⟨0x20005c, 0x100, 0, 0, 32⟩
/-- `LAYERn_HURDLE_HELD`, R270 of spec/07_composition.md. -/
def F.LAYERn_HURDLE_HELD : Fld := ⟨0x200060, 0x100, 0, 0, 32⟩
/-- `LAYERn_MISSED`, R270 of spec/07_composition.md. -/
def F.LAYERn_MISSED : Fld := ⟨0x200064, 0x100, 0, 0, 32⟩
/-- `LAYERn_CSTAT`, R267 of spec/07_composition.md. -/
def F.LAYERn_CSTAT_SHOWN_VALID : Fld := ⟨0x200068, 0x100, 0, 0, 1⟩
def F.LAYERn_CSTAT_HELD : Fld := ⟨0x200068, 0x100, 0, 1, 1⟩
def F.LAYERn_CSTAT_MISSED : Fld := ⟨0x200068, 0x100, 0, 2, 1⟩
def F.LAYERn_CSTAT_WINDOW_BAD : Fld := ⟨0x200068, 0x100, 0, 3, 1⟩
def F.LAYERn_CSTAT_COVERS : Fld := ⟨0x200068, 0x100, 0, 4, 1⟩
def F.LAYERn_CSTAT_HURDLE_VALID : Fld := ⟨0x200068, 0x100, 0, 5, 1⟩
/-- `COMP_CTL`, R268 of spec/07_composition.md. -/
def F.COMP_CTL_CULL_EN : Fld := ⟨0x201000, 0x0, 0, 0, 1⟩
def F.COMP_CTL_WL_SHIFT : Fld := ⟨0x201000, 0x0, 0, 4, 3⟩
/-- `COMP_LEAD`, R270 of spec/07_composition.md. -/
def F.COMP_LEAD : Fld := ⟨0x201004, 0x0, 0, 0, 16⟩
/-- `HURDLE_MARGIN`, R270 of spec/07_composition.md. -/
def F.HURDLE_MARGIN : Fld := ⟨0x201008, 0x0, 0, 0, 10⟩
/-- `COMP_BG_R`, R270 of spec/07_composition.md. -/
def F.COMP_BG_R : Fld := ⟨0x20100c, 0x0, 0, 0, 20⟩
/-- `COMP_BG_G`, R270 of spec/07_composition.md. -/
def F.COMP_BG_G : Fld := ⟨0x201010, 0x0, 0, 0, 20⟩
/-- `COMP_BG_B`, R270 of spec/07_composition.md. -/
def F.COMP_BG_B : Fld := ⟨0x201014, 0x0, 0, 0, 20⟩
/-- `COMP_STATUS`, R270 of spec/07_composition.md. -/
def F.COMP_STATUS_TABLE_FAULT : Fld := ⟨0x201018, 0x0, 0, 0, 1⟩
def F.COMP_STATUS_HURDLE_OOS : Fld := ⟨0x201018, 0x0, 0, 1, 1⟩
def F.COMP_STATUS_LAST_LATE : Fld := ⟨0x201018, 0x0, 0, 2, 1⟩
/-- `COMP_WCSCk`, R270 of spec/07_composition.md. -/
def F.COMP_WCSCk : Fld := ⟨0x201020, 0x0, 4, 0, 20⟩
/-- `COMP_LATE`, R270 of spec/07_composition.md. -/
def F.COMP_LATE : Fld := ⟨0x201050, 0x0, 0, 0, 32⟩
/-- `COMP_HURDLE_LATE`, R270 of spec/07_composition.md. -/
def F.COMP_HURDLE_LATE : Fld := ⟨0x201054, 0x0, 0, 0, 32⟩
/-- `COMP_TABLE_FAULT`, R270 of spec/07_composition.md. -/
def F.COMP_TABLE_FAULT : Fld := ⟨0x201058, 0x0, 0, 0, 32⟩
/-- `HURDLE_STALE`, R270 of spec/07_composition.md. -/
def F.HURDLE_STALE : Fld := ⟨0x20105c, 0x0, 0, 0, 32⟩
/-- `COMP_GRPg_CTL`, R269 of spec/07_composition.md. -/
def F.COMP_GRPg_CTL_ENABLE : Fld := ⟨0x201100, 0x40, 0, 0, 1⟩
def F.COMP_GRPg_CTL_ROT : Fld := ⟨0x201100, 0x40, 0, 1, 2⟩
def F.COMP_GRPg_CTL_MAP_BAD : Fld := ⟨0x201100, 0x40, 0, 8, 1⟩
/-- `COMP_GRPg_SIZE`, R270 of spec/07_composition.md. -/
def F.COMP_GRPg_SIZE_WP : Fld := ⟨0x201104, 0x40, 0, 0, 16⟩
def F.COMP_GRPg_SIZE_HP : Fld := ⟨0x201104, 0x40, 0, 16, 16⟩
/-- `COMP_GRPg_Wk`, R270 of spec/07_composition.md. -/
def F.COMP_GRPg_Wk : Fld := ⟨0x201108, 0x40, 4, 0, 32⟩
/-- `CORR_CTL`, R293 of spec/08_lamp_correction.md. -/
def F.CORR_CTL_TABLE_EN : Fld := ⟨0x640000, 0x0, 0, 0, 1⟩
def F.CORR_CTL_ANGLE_EN : Fld := ⟨0x640000, 0x0, 0, 1, 1⟩
def F.CORR_CTL_DIM_MODE : Fld := ⟨0x640000, 0x0, 0, 2, 2⟩
def F.CORR_CTL_CLEAR : Fld := ⟨0x640000, 0x0, 0, 4, 1⟩
/-- `CORR_STATUS`, R294 of spec/08_lamp_correction.md. -/
def F.CORR_STATUS_PWM : Fld := ⟨0x640004, 0x0, 0, 0, 1⟩
def F.CORR_STATUS_ENTRY_FAULT : Fld := ⟨0x640004, 0x0, 0, 1, 1⟩
def F.CORR_STATUS_PROFILE_FAULT : Fld := ⟨0x640004, 0x0, 0, 2, 1⟩
def F.CORR_STATUS_TILE_GEOM_BAD : Fld := ⟨0x640004, 0x0, 0, 3, 1⟩
def F.CORR_STATUS_GRP_GEOM_BAD : Fld := ⟨0x640004, 0x0, 0, 4, 4⟩
def F.CORR_STATUS_NO_POSE : Fld := ⟨0x640004, 0x0, 0, 8, 4⟩
def F.CORR_STATUS_POSE_OOS : Fld := ⟨0x640004, 0x0, 0, 12, 1⟩
def F.CORR_STATUS_G_NOW : Fld := ⟨0x640004, 0x0, 0, 16, 10⟩
/-- `CORR_BRIGHT`, R297 of spec/08_lamp_correction.md. -/
def F.CORR_BRIGHT : Fld := ⟨0x640008, 0x0, 0, 0, 17⟩
/-- `CORR_KNEE`, R295 of spec/08_lamp_correction.md. -/
def F.CORR_KNEE_KNEE : Fld := ⟨0x64000c, 0x0, 0, 0, 16⟩
def F.CORR_KNEE_HYST : Fld := ⟨0x64000c, 0x0, 0, 16, 13⟩
/-- `CORR_POSE_CFG`, R296 of spec/08_lamp_correction.md. -/
def F.CORR_POSE_CFG_POSE_MARGIN : Fld := ⟨0x640010, 0x0, 0, 0, 10⟩
def F.CORR_POSE_CFG_POSE_MAX_AGE : Fld := ⟨0x640010, 0x0, 0, 16, 10⟩
/-- `CORR_TILE_OX`, R297 of spec/08_lamp_correction.md. -/
def F.CORR_TILE_OX : Fld := ⟨0x640020, 0x0, 0, 0, 32⟩
/-- `CORR_TILE_OY`, R297 of spec/08_lamp_correction.md. -/
def F.CORR_TILE_OY : Fld := ⟨0x640024, 0x0, 0, 0, 32⟩
/-- `CORR_TILE_OZ`, R297 of spec/08_lamp_correction.md. -/
def F.CORR_TILE_OZ : Fld := ⟨0x640028, 0x0, 0, 0, 32⟩
/-- `CORR_TILE_Mk`, R297 of spec/08_lamp_correction.md. -/
def F.CORR_TILE_Mk : Fld := ⟨0x64002c, 0x0, 4, 0, 32⟩
/-- `CORR_CAMc_X`, R297 of spec/08_lamp_correction.md. -/
def F.CORR_CAMc_X : Fld := ⟨0x640060, 0x10, 0, 0, 32⟩
/-- `CORR_CAMc_Y`, R297 of spec/08_lamp_correction.md. -/
def F.CORR_CAMc_Y : Fld := ⟨0x640064, 0x10, 0, 0, 32⟩
/-- `CORR_CAMc_Z`, R297 of spec/08_lamp_correction.md. -/
def F.CORR_CAMc_Z : Fld := ⟨0x640068, 0x10, 0, 0, 32⟩
/-- `CORR_CAMc_EFFECTIVE`, R297 of spec/08_lamp_correction.md. -/
def F.CORR_CAMc_EFFECTIVE : Fld := ⟨0x64006c, 0x10, 0, 0, 32⟩
/-- `CORR_ENTRY_FAULT`, R297 of spec/08_lamp_correction.md. -/
def F.CORR_ENTRY_FAULT : Fld := ⟨0x6400a0, 0x0, 0, 0, 32⟩
/-- `CORR_FIRST_FAULT`, R297 of spec/08_lamp_correction.md. -/
def F.CORR_FIRST_FAULT_INDEX : Fld := ⟨0x6400a4, 0x0, 0, 0, 20⟩
def F.CORR_FIRST_FAULT_GROUP : Fld := ⟨0x6400a4, 0x0, 0, 20, 2⟩
def F.CORR_FIRST_FAULT_VALID : Fld := ⟨0x6400a4, 0x0, 0, 31, 1⟩
/-- `CORR_PROFILE_FAULT`, R297 of spec/08_lamp_correction.md. -/
def F.CORR_PROFILE_FAULT : Fld := ⟨0x6400a8, 0x0, 0, 0, 32⟩
/-- `CORR_POSE_LATE`, R297 of spec/08_lamp_correction.md. -/
def F.CORR_POSE_LATE : Fld := ⟨0x6400ac, 0x0, 0, 0, 32⟩
/-- `CORR_CLIPPED`, R297 of spec/08_lamp_correction.md. -/
def F.CORR_CLIPPED : Fld := ⟨0x6400b0, 0x0, 0, 0, 32⟩
/-- `CORR_GRPg_BASE`, R297 of spec/08_lamp_correction.md. -/
def F.CORR_GRPg_BASE : Fld := ⟨0x640100, 0x40, 0, 0, 20⟩
/-- `CORR_GRPg_PX`, R297 of spec/08_lamp_correction.md. -/
def F.CORR_GRPg_PX : Fld := ⟨0x640104, 0x40, 0, 0, 32⟩
/-- `CORR_GRPg_PY`, R297 of spec/08_lamp_correction.md. -/
def F.CORR_GRPg_PY : Fld := ⟨0x640108, 0x40, 0, 0, 32⟩
/-- `CORR_GRPg_PZ`, R297 of spec/08_lamp_correction.md. -/
def F.CORR_GRPg_PZ : Fld := ⟨0x64010c, 0x40, 0, 0, 32⟩
/-- `CORR_GRPg_UX`, R297 of spec/08_lamp_correction.md. -/
def F.CORR_GRPg_UX : Fld := ⟨0x640110, 0x40, 0, 0, 32⟩
/-- `CORR_GRPg_UY`, R297 of spec/08_lamp_correction.md. -/
def F.CORR_GRPg_UY : Fld := ⟨0x640114, 0x40, 0, 0, 32⟩
/-- `CORR_GRPg_UZ`, R297 of spec/08_lamp_correction.md. -/
def F.CORR_GRPg_UZ : Fld := ⟨0x640118, 0x40, 0, 0, 32⟩
/-- `CORR_GRPg_VX`, R297 of spec/08_lamp_correction.md. -/
def F.CORR_GRPg_VX : Fld := ⟨0x64011c, 0x40, 0, 0, 32⟩
/-- `CORR_GRPg_VY`, R297 of spec/08_lamp_correction.md. -/
def F.CORR_GRPg_VY : Fld := ⟨0x640120, 0x40, 0, 0, 32⟩
/-- `CORR_GRPg_VZ`, R297 of spec/08_lamp_correction.md. -/
def F.CORR_GRPg_VZ : Fld := ⟨0x640124, 0x40, 0, 0, 32⟩
/-- `CORR_GRPg_NX`, R297 of spec/08_lamp_correction.md. -/
def F.CORR_GRPg_NX : Fld := ⟨0x640128, 0x40, 0, 0, 32⟩
/-- `CORR_GRPg_NY`, R297 of spec/08_lamp_correction.md. -/
def F.CORR_GRPg_NY : Fld := ⟨0x64012c, 0x40, 0, 0, 32⟩
/-- `CORR_GRPg_NZ`, R297 of spec/08_lamp_correction.md. -/
def F.CORR_GRPg_NZ : Fld := ⟨0x640130, 0x40, 0, 0, 32⟩
/-- `CORR_GRPg_EX`, R297 of spec/08_lamp_correction.md. -/
def F.CORR_GRPg_EX : Fld := ⟨0x640134, 0x40, 0, 0, 32⟩
/-- `CORR_GRPg_EY`, R297 of spec/08_lamp_correction.md. -/
def F.CORR_GRPg_EY : Fld := ⟨0x640138, 0x40, 0, 0, 32⟩
/-- `CORR_GRPg_EZ`, R297 of spec/08_lamp_correction.md. -/
def F.CORR_GRPg_EZ : Fld := ⟨0x64013c, 0x40, 0, 0, 32⟩
/-- `LAMP_CTL`, R334 of spec/09_lamp_bus.md. -/
def F.LAMP_CTL_FULL_REFRESH : Fld := ⟨0x600000, 0x0, 0, 0, 1⟩
def F.LAMP_CTL_CLEAR : Fld := ⟨0x600000, 0x0, 0, 1, 1⟩
def F.LAMP_CTL_BLANK_HOLD : Fld := ⟨0x600000, 0x0, 0, 2, 1⟩
/-- `LAMP_STATUS`, R335 of spec/09_lamp_bus.md. -/
def F.LAMP_STATUS_BLANKED : Fld := ⟨0x600004, 0x0, 0, 0, 1⟩
def F.LAMP_STATUS_PAD_FAULT : Fld := ⟨0x600004, 0x0, 0, 1, 1⟩
def F.LAMP_STATUS_CHAIN_FAULT : Fld := ⟨0x600004, 0x0, 0, 2, 1⟩
def F.LAMP_STATUS_PROBE_SKIPPED : Fld := ⟨0x600004, 0x0, 0, 3, 1⟩
def F.LAMP_STATUS_READ_OVERRUN : Fld := ⟨0x600004, 0x0, 0, 4, 1⟩
def F.LAMP_STATUS_DRIVER_MIN_ON : Fld := ⟨0x600004, 0x0, 0, 5, 1⟩
def F.LAMP_STATUS_HOLDING : Fld := ⟨0x600004, 0x0, 0, 8, 4⟩
def F.LAMP_STATUS_BLACK : Fld := ⟨0x600004, 0x0, 0, 12, 4⟩
/-- `LAMP_TIMING`, R336 of spec/09_lamp_bus.md. -/
def F.LAMP_TIMING_SWAP_LEAD : Fld := ⟨0x600008, 0x0, 0, 0, 10⟩
def F.LAMP_TIMING_LSYNC_WIDTH : Fld := ⟨0x600008, 0x0, 0, 10, 10⟩
def F.LAMP_TIMING_STATUS_TIMEOUT : Fld := ⟨0x600008, 0x0, 0, 20, 10⟩
/-- `LAMP_DIAG_CFG`, R337 of spec/09_lamp_bus.md. -/
def F.LAMP_DIAG_CFG_PROBE_EN : Fld := ⟨0x60000c, 0x0, 0, 0, 1⟩
def F.LAMP_DIAG_CFG_PERIOD_LOG : Fld := ⟨0x60000c, 0x0, 0, 1, 4⟩
def F.LAMP_DIAG_CFG_DIAG_SLOT : Fld := ⟨0x60000c, 0x0, 0, 5, 2⟩
/-- `LAMP_DIAG_MIN_ON`, R344 of spec/09_lamp_bus.md. -/
def F.LAMP_DIAG_MIN_ON : Fld := ⟨0x600010, 0x0, 0, 0, 10⟩
/-- `LAMP_DIAG_MAX_AGE`, R344 of spec/09_lamp_bus.md. -/
def F.LAMP_DIAG_MAX_AGE : Fld := ⟨0x600014, 0x0, 0, 0, 16⟩
/-- `LAMP_DIAG_FRAME`, R344 of spec/09_lamp_bus.md. -/
def F.LAMP_DIAG_FRAME : Fld := ⟨0x600018, 0x0, 0, 0, 32⟩
/-- `LAMP_DIAG_OPEN`, R344 of spec/09_lamp_bus.md. -/
def F.LAMP_DIAG_OPEN : Fld := ⟨0x60001c, 0x0, 0, 0, 32⟩
/-- `LAMP_DIAG_SHORT`, R344 of spec/09_lamp_bus.md. -/
def F.LAMP_DIAG_SHORT : Fld := ⟨0x600020, 0x0, 0, 0, 32⟩
/-- `LAMP_DIAG_UNKNOWN`, R344 of spec/09_lamp_bus.md. -/
def F.LAMP_DIAG_UNKNOWN : Fld := ⟨0x600024, 0x0, 0, 0, 32⟩
/-- `LAMP_REFRESH`, R344 of spec/09_lamp_bus.md. -/
def F.LAMP_REFRESH : Fld := ⟨0x600028, 0x0, 0, 0, 16⟩
/-- `LAMP_SWAPS`, R344 of spec/09_lamp_bus.md. -/
def F.LAMP_SWAPS : Fld := ⟨0x600040, 0x0, 0, 0, 32⟩
/-- `LAMP_GRPg_CFG`, R338 of spec/09_lamp_bus.md. -/
def F.LAMP_GRPg_CFG_CLONE_EN : Fld := ⟨0x600100, 0x40, 0, 0, 1⟩
def F.LAMP_GRPg_CFG_CLONE_SRC : Fld := ⟨0x600100, 0x40, 0, 1, 2⟩
def F.LAMP_GRPg_CFG_MULT : Fld := ⟨0x600100, 0x40, 0, 4, 4⟩
def F.LAMP_GRPg_CFG_HOLD : Fld := ⟨0x600100, 0x40, 0, 8, 2⟩
/-- `LAMP_GRPg_DARK`, R344 of spec/09_lamp_bus.md. -/
def F.LAMP_GRPg_DARK : Fld := ⟨0x600104, 0x40, 0, 0, 20⟩
/-- `LAMP_GRPg_ADVANCE`, R344 of spec/09_lamp_bus.md. -/
def F.LAMP_GRPg_ADVANCE : Fld := ⟨0x600108, 0x40, 0, 0, 10⟩
/-- `LAMP_GRPg_STATUS`, R339 of spec/09_lamp_bus.md. -/
def F.LAMP_GRPg_STATUS_LCNT : Fld := ⟨0x60010c, 0x40, 0, 0, 16⟩
def F.LAMP_GRPg_STATUS_HOLDING : Fld := ⟨0x60010c, 0x40, 0, 16, 1⟩
def F.LAMP_GRPg_STATUS_BLACK : Fld := ⟨0x60010c, 0x40, 0, 17, 1⟩
def F.LAMP_GRPg_STATUS_LSYNC_FAULT : Fld := ⟨0x60010c, 0x40, 0, 18, 1⟩
/-- `LAMP_GRPg_DIAG_BASE`, R344 of spec/09_lamp_bus.md. -/
def F.LAMP_GRPg_DIAG_BASE : Fld := ⟨0x600110, 0x40, 0, 0, 20⟩
/-- `LAMP_GRPg_HOLDS`, R344 of spec/09_lamp_bus.md. -/
def F.LAMP_GRPg_HOLDS : Fld := ⟨0x600114, 0x40, 0, 0, 32⟩
/-- `LAMP_GRPg_BLACK_FRAMES`, R344 of spec/09_lamp_bus.md. -/
def F.LAMP_GRPg_BLACK_FRAMES : Fld := ⟨0x600118, 0x40, 0, 0, 32⟩
/-- `LAMP_PORTp_CFG`, R340 of spec/09_lamp_bus.md. -/
def F.LAMP_PORTp_CFG_ENABLE : Fld := ⟨0x600400, 0x40, 0, 0, 1⟩
def F.LAMP_PORTp_CFG_GROUP : Fld := ⟨0x600400, 0x40, 0, 1, 2⟩
def F.LAMP_PORTp_CFG_SERPENTINE : Fld := ⟨0x600400, 0x40, 0, 3, 1⟩
def F.LAMP_PORTp_CFG_RATE : Fld := ⟨0x600400, 0x40, 0, 4, 4⟩
/-- `LAMP_PORTp_MAP0`, R344 of spec/09_lamp_bus.md. -/
def F.LAMP_PORTp_MAP0_U0 : Fld := ⟨0x600404, 0x40, 0, 0, 12⟩
def F.LAMP_PORTp_MAP0_V0 : Fld := ⟨0x600404, 0x40, 0, 12, 12⟩
/-- `LAMP_PORTp_MAP1`, R341 of spec/09_lamp_bus.md. -/
def F.LAMP_PORTp_MAP1_DX : Fld := ⟨0x600408, 0x40, 0, 0, 6⟩
def F.LAMP_PORTp_MAP1_DY : Fld := ⟨0x600408, 0x40, 0, 6, 6⟩
def F.LAMP_PORTp_MAP1_DW : Fld := ⟨0x600408, 0x40, 0, 12, 6⟩
def F.LAMP_PORTp_MAP1_DH : Fld := ⟨0x600408, 0x40, 0, 18, 6⟩
/-- `LAMP_PORTp_STATUS`, R342 of spec/09_lamp_bus.md. -/
def F.LAMP_PORTp_STATUS_UP : Fld := ⟨0x60040c, 0x40, 0, 0, 1⟩
def F.LAMP_PORTp_STATUS_ANSWERING : Fld := ⟨0x60040c, 0x40, 0, 1, 7⟩
def F.LAMP_PORTp_STATUS_CHAIN_BROKEN : Fld := ⟨0x60040c, 0x40, 0, 8, 1⟩
def F.LAMP_PORTp_STATUS_MISMATCH : Fld := ⟨0x60040c, 0x40, 0, 9, 1⟩
def F.LAMP_PORTp_STATUS_PAD_FAULT : Fld := ⟨0x60040c, 0x40, 0, 10, 1⟩
def F.LAMP_PORTp_STATUS_URGENT : Fld := ⟨0x60040c, 0x40, 0, 11, 1⟩
def F.LAMP_PORTp_STATUS_FILL : Fld := ⟨0x60040c, 0x40, 0, 16, 11⟩
/-- `LAMP_PORTp_WM`, R344 of spec/09_lamp_bus.md. -/
def F.LAMP_PORTp_WM : Fld := ⟨0x600410, 0x40, 0, 0, 10⟩
/-- `LAMP_PORTp_SKEW`, R344 of spec/09_lamp_bus.md. -/
def F.LAMP_PORTp_SKEW_LANE0 : Fld := ⟨0x600414, 0x40, 0, 0, 8⟩
def F.LAMP_PORTp_SKEW_LANE1 : Fld := ⟨0x600414, 0x40, 0, 8, 8⟩
def F.LAMP_PORTp_SKEW_LANE2 : Fld := ⟨0x600414, 0x40, 0, 16, 8⟩
def F.LAMP_PORTp_SKEW_LANE3 : Fld := ⟨0x600414, 0x40, 0, 24, 8⟩
/-- `LAMP_PORTp_PADERR`, R344 of spec/09_lamp_bus.md. -/
def F.LAMP_PORTp_PADERR : Fld := ⟨0x600418, 0x40, 0, 0, 32⟩
/-- `LAMP_PORTp_DRV_CRC`, R344 of spec/09_lamp_bus.md. -/
def F.LAMP_PORTp_DRV_CRC : Fld := ⟨0x60041c, 0x40, 0, 0, 32⟩
/-- `LAMP_PORTp_STARVED`, R344 of spec/09_lamp_bus.md. -/
def F.LAMP_PORTp_STARVED : Fld := ⟨0x600420, 0x40, 0, 0, 32⟩
/-- `LAMP_PORTp_TIMEOUTS`, R344 of spec/09_lamp_bus.md. -/
def F.LAMP_PORTp_TIMEOUTS : Fld := ⟨0x600424, 0x40, 0, 0, 32⟩
/-- `LAMP_PORTp_SLIPS`, R344 of spec/09_lamp_bus.md. -/
def F.LAMP_PORTp_SLIPS : Fld := ⟨0x600428, 0x40, 0, 0, 32⟩
/-- `LAMP_PORTp_BREAK_HOP`, R344 of spec/09_lamp_bus.md. -/
def F.LAMP_PORTp_BREAK_HOP : Fld := ⟨0x60042c, 0x40, 0, 0, 6⟩
/-- `LAMP_CRCr_CTL`, R343 of spec/09_lamp_bus.md. -/
def F.LAMP_CRCr_CTL_ENABLE : Fld := ⟨0x600800, 0x20, 0, 0, 1⟩
def F.LAMP_CRCr_CTL_GROUP : Fld := ⟨0x600800, 0x20, 0, 1, 2⟩
def F.LAMP_CRCr_CTL_SOURCE : Fld := ⟨0x600800, 0x20, 0, 3, 1⟩
def F.LAMP_CRCr_CTL_SLOT : Fld := ⟨0x600800, 0x20, 0, 4, 2⟩
def F.LAMP_CRCr_CTL_IRQ : Fld := ⟨0x600800, 0x20, 0, 6, 1⟩
def F.LAMP_CRCr_CTL_MISMATCH : Fld := ⟨0x600800, 0x20, 0, 8, 1⟩
def F.LAMP_CRCr_CTL_VALID : Fld := ⟨0x600800, 0x20, 0, 9, 1⟩
/-- `LAMP_CRCr_ORIGIN`, R344 of spec/09_lamp_bus.md. -/
def F.LAMP_CRCr_ORIGIN_U0 : Fld := ⟨0x600804, 0x20, 0, 0, 16⟩
def F.LAMP_CRCr_ORIGIN_V0 : Fld := ⟨0x600804, 0x20, 0, 16, 16⟩
/-- `LAMP_CRCr_EXTENT`, R344 of spec/09_lamp_bus.md. -/
def F.LAMP_CRCr_EXTENT_U1 : Fld := ⟨0x600808, 0x20, 0, 0, 16⟩
def F.LAMP_CRCr_EXTENT_V1 : Fld := ⟨0x600808, 0x20, 0, 16, 16⟩
/-- `LAMP_CRCr_EXPECTED`, R344 of spec/09_lamp_bus.md. -/
def F.LAMP_CRCr_EXPECTED : Fld := ⟨0x60080c, 0x20, 0, 0, 32⟩
/-- `LAMP_CRCr_RESULT`, R344 of spec/09_lamp_bus.md. -/
def F.LAMP_CRCr_RESULT : Fld := ⟨0x600810, 0x20, 0, 0, 32⟩
/-- `LAMP_CRCr_MISMATCHES`, R344 of spec/09_lamp_bus.md. -/
def F.LAMP_CRCr_MISMATCHES : Fld := ⟨0x600814, 0x20, 0, 0, 32⟩
/-- `FOLDn_CTL`, R368 of spec/10_korty_model.md. -/
def F.FOLDn_CTL_ENABLE : Fld := ⟨0x100000, 0x40000, 0, 0, 1⟩
def F.FOLDn_CTL_ACTIVATE : Fld := ⟨0x100000, 0x40000, 0, 1, 1⟩
def F.FOLDn_CTL_RESTART : Fld := ⟨0x100000, 0x40000, 0, 2, 1⟩
def F.FOLDn_CTL_STOP : Fld := ⟨0x100000, 0x40000, 0, 3, 1⟩
def F.FOLDn_CTL_FAULT_STOP : Fld := ⟨0x100000, 0x40000, 0, 4, 1⟩
def F.FOLDn_CTL_CLEAR : Fld := ⟨0x100000, 0x40000, 0, 5, 1⟩
/-- `FOLDn_STATUS`, R369 of spec/10_korty_model.md. -/
def F.FOLDn_STATUS_STATE : Fld := ⟨0x100004, 0x40000, 0, 0, 2⟩
def F.FOLDn_STATUS_IN_RUN : Fld := ⟨0x100004, 0x40000, 0, 2, 1⟩
def F.FOLDn_STATUS_ACTIVATE_PENDING : Fld := ⟨0x100004, 0x40000, 0, 3, 1⟩
def F.FOLDn_STATUS_WAIT : Fld := ⟨0x100004, 0x40000, 0, 4, 3⟩
def F.FOLDn_STATUS_TX_DISCARD : Fld := ⟨0x100004, 0x40000, 0, 7, 1⟩
def F.FOLDn_STATUS_FLAGS : Fld := ⟨0x100004, 0x40000, 0, 8, 8⟩
def F.FOLDn_STATUS_PC : Fld := ⟨0x100004, 0x40000, 0, 16, 13⟩
/-- `FOLDn_ENTRY`, R372 of spec/10_korty_model.md. -/
def F.FOLDn_ENTRY : Fld := ⟨0x100008, 0x40000, 0, 0, 13⟩
/-- `FOLDn_FAULT`, R370 of spec/10_korty_model.md. -/
def F.FOLDn_FAULT_CODE : Fld := ⟨0x10000c, 0x40000, 0, 0, 5⟩
def F.FOLDn_FAULT_PC : Fld := ⟨0x10000c, 0x40000, 0, 8, 13⟩
def F.FOLDn_FAULT_SLOT : Fld := ⟨0x10000c, 0x40000, 0, 21, 2⟩
/-- `FOLDn_PACE`, R371 of spec/10_korty_model.md. -/
def F.FOLDn_PACE_DUTY : Fld := ⟨0x100010, 0x40000, 0, 0, 5⟩
/-- `FOLDn_PROG_TAG`, R372 of spec/10_korty_model.md. -/
def F.FOLDn_PROG_TAG : Fld := ⟨0x100014, 0x40000, 0, 0, 32⟩
/-- `FOLDn_PROG_TAG_NOW`, R372 of spec/10_korty_model.md. -/
def F.FOLDn_PROG_TAG_NOW : Fld := ⟨0x100018, 0x40000, 0, 0, 32⟩
/-- `FOLDn_ARG`, R372 of spec/10_korty_model.md. -/
def F.FOLDn_ARG : Fld := ⟨0x10001c, 0x40000, 0, 0, 32⟩
/-- `FOLDn_QINITj_LO`, R372 of spec/10_korty_model.md. -/
def F.FOLDn_QINITj_LO : Fld := ⟨0x100020, 0x40000, 8, 0, 32⟩
/-- `FOLDn_QINITj_HI`, R372 of spec/10_korty_model.md. -/
def F.FOLDn_QINITj_HI : Fld := ⟨0x100024, 0x40000, 8, 0, 32⟩
/-- `FOLDn_RUNS`, R372 of spec/10_korty_model.md. -/
def F.FOLDn_RUNS : Fld := ⟨0x100040, 0x40000, 0, 0, 32⟩
/-- `FOLDn_OVERRUNS`, R372 of spec/10_korty_model.md. -/
def F.FOLDn_OVERRUNS : Fld := ⟨0x100044, 0x40000, 0, 0, 32⟩
/-- `FOLDn_FAULTS`, R372 of spec/10_korty_model.md. -/
def F.FOLDn_FAULTS : Fld := ⟨0x100048, 0x40000, 0, 0, 32⟩
/-- `FOLDn_TRAPS`, R372 of spec/10_korty_model.md. -/
def F.FOLDn_TRAPS : Fld := ⟨0x10004c, 0x40000, 0, 0, 32⟩
/-- `FOLDn_TRAP_CODE`, R372 of spec/10_korty_model.md. -/
def F.FOLDn_TRAP_CODE : Fld := ⟨0x100050, 0x40000, 0, 0, 16⟩
/-- `FOLDn_STEPS`, R372 of spec/10_korty_model.md. -/
def F.FOLDn_STEPS : Fld := ⟨0x100054, 0x40000, 0, 0, 32⟩
/-- `FOLDn_IDLE`, R372 of spec/10_korty_model.md. -/
def F.FOLDn_IDLE : Fld := ⟨0x100058, 0x40000, 0, 0, 32⟩
/-- `CTXn_BIND`, R421 of spec/12_hosts_and_tickets.md. -/
def F.CTXn_BIND_TRANSPORT : Fld := ⟨0x10000, 0x1000, 0, 0, 2⟩
def F.CTXn_BIND_HEAD_CTX : Fld := ⟨0x10000, 0x1000, 0, 4, 3⟩
/-- `CTXn_RIGHTS_RD`, R422 of spec/12_hosts_and_tickets.md. -/
def F.CTXn_RIGHTS_RD : Fld := ⟨0x10008, 0x1000, 0, 0, 21⟩
/-- `CTXn_RIGHTS_WR`, R422 of spec/12_hosts_and_tickets.md. -/
def F.CTXn_RIGHTS_WR : Fld := ⟨0x10010, 0x1000, 0, 0, 21⟩
/-- `CTXn_RIGHTS_CMD`, R422 of spec/12_hosts_and_tickets.md. -/
def F.CTXn_RIGHTS_CMD : Fld := ⟨0x10018, 0x1000, 0, 0, 6⟩
/-- `CTXn_SQ_TAIL`, R426 of spec/12_hosts_and_tickets.md. -/
def F.CTXn_SQ_TAIL : Fld := ⟨0x10020, 0x1000, 0, 0, 12⟩
/-- `CTXn_SQ_HEAD`, R426 of spec/12_hosts_and_tickets.md. -/
def F.CTXn_SQ_HEAD : Fld := ⟨0x10024, 0x1000, 0, 0, 12⟩
/-- `CTXn_CQ_HEAD`, R426 of spec/12_hosts_and_tickets.md. -/
def F.CTXn_CQ_HEAD : Fld := ⟨0x10028, 0x1000, 0, 0, 13⟩
/-- `CTXn_CQ_TAIL`, R426 of spec/12_hosts_and_tickets.md. -/
def F.CTXn_CQ_TAIL : Fld := ⟨0x1002c, 0x1000, 0, 0, 13⟩
/-- `CTXn_STATUS`, R423 of spec/12_hosts_and_tickets.md. -/
def F.CTXn_STATUS_CQ_FULL : Fld := ⟨0x10030, 0x1000, 0, 0, 1⟩
def F.CTXn_STATUS_TRANSPORT_UP : Fld := ⟨0x10030, 0x1000, 0, 1, 1⟩
def F.CTXn_STATUS_PHASE : Fld := ⟨0x10030, 0x1000, 0, 2, 1⟩
/-- `CTXn_FAULT`, R424 of spec/12_hosts_and_tickets.md. -/
def F.CTXn_FAULT_RWP : Fld := ⟨0x10034, 0x1000, 0, 0, 1⟩
def F.CTXn_FAULT_RIGHTS : Fld := ⟨0x10034, 0x1000, 0, 1, 1⟩
def F.CTXn_FAULT_SQ_INDEX : Fld := ⟨0x10034, 0x1000, 0, 2, 1⟩
def F.CTXn_FAULT_CQ_INDEX : Fld := ⟨0x10034, 0x1000, 0, 3, 1⟩
def F.CTXn_FAULT_WRONG_TRANSPORT : Fld := ⟨0x10034, 0x1000, 0, 4, 1⟩
def F.CTXn_FAULT_JOURNAL : Fld := ⟨0x10034, 0x1000, 0, 5, 1⟩
/-- `CTXn_IRQ_CAUSE`, R425 of spec/12_hosts_and_tickets.md. -/
def F.CTXn_IRQ_CAUSE_COMPLETION : Fld := ⟨0x10038, 0x1000, 0, 0, 1⟩
def F.CTXn_IRQ_CAUSE_EPOCH : Fld := ⟨0x10038, 0x1000, 0, 1, 1⟩
def F.CTXn_IRQ_CAUSE_FAULT : Fld := ⟨0x10038, 0x1000, 0, 2, 1⟩
def F.CTXn_IRQ_CAUSE_FOLD : Fld := ⟨0x10038, 0x1000, 0, 3, 1⟩
def F.CTXn_IRQ_CAUSE_LAMP : Fld := ⟨0x10038, 0x1000, 0, 4, 1⟩
def F.CTXn_IRQ_CAUSE_FLOCK : Fld := ⟨0x10038, 0x1000, 0, 5, 1⟩
def F.CTXn_IRQ_CAUSE_RING : Fld := ⟨0x10038, 0x1000, 0, 6, 1⟩
def F.CTXn_IRQ_CAUSE_TIME : Fld := ⟨0x10038, 0x1000, 0, 7, 1⟩
def F.CTXn_IRQ_CAUSE_THERMAL : Fld := ⟨0x10038, 0x1000, 0, 8, 1⟩
def F.CTXn_IRQ_CAUSE_HEALTH : Fld := ⟨0x10038, 0x1000, 0, 9, 1⟩
def F.CTXn_IRQ_CAUSE_RELAYED : Fld := ⟨0x10038, 0x1000, 0, 10, 1⟩
/-- `CTXn_IRQ_MASK`, R425 of spec/12_hosts_and_tickets.md. -/
def F.CTXn_IRQ_MASK_COMPLETION : Fld := ⟨0x1003c, 0x1000, 0, 0, 1⟩
def F.CTXn_IRQ_MASK_EPOCH : Fld := ⟨0x1003c, 0x1000, 0, 1, 1⟩
def F.CTXn_IRQ_MASK_FAULT : Fld := ⟨0x1003c, 0x1000, 0, 2, 1⟩
def F.CTXn_IRQ_MASK_FOLD : Fld := ⟨0x1003c, 0x1000, 0, 3, 1⟩
def F.CTXn_IRQ_MASK_LAMP : Fld := ⟨0x1003c, 0x1000, 0, 4, 1⟩
def F.CTXn_IRQ_MASK_FLOCK : Fld := ⟨0x1003c, 0x1000, 0, 5, 1⟩
def F.CTXn_IRQ_MASK_RING : Fld := ⟨0x1003c, 0x1000, 0, 6, 1⟩
def F.CTXn_IRQ_MASK_TIME : Fld := ⟨0x1003c, 0x1000, 0, 7, 1⟩
def F.CTXn_IRQ_MASK_THERMAL : Fld := ⟨0x1003c, 0x1000, 0, 8, 1⟩
def F.CTXn_IRQ_MASK_HEALTH : Fld := ⟨0x1003c, 0x1000, 0, 9, 1⟩
def F.CTXn_IRQ_MASK_RELAYED : Fld := ⟨0x1003c, 0x1000, 0, 10, 1⟩
/-- `CTXn_EPOCH`, R426 of spec/12_hosts_and_tickets.md. -/
def F.CTXn_EPOCH : Fld := ⟨0x10040, 0x1000, 0, 0, 32⟩
/-- `CTXn_NEXT_TICKET`, R426 of spec/12_hosts_and_tickets.md. -/
def F.CTXn_NEXT_TICKET : Fld := ⟨0x10044, 0x1000, 0, 0, 32⟩
/-- `CTXn_INFLIGHT`, R426 of spec/12_hosts_and_tickets.md. -/
def F.CTXn_INFLIGHT : Fld := ⟨0x10048, 0x1000, 0, 0, 17⟩
/-- `CTXn_PEER`, R426 of spec/12_hosts_and_tickets.md. -/
def F.CTXn_PEER : Fld := ⟨0x10050, 0x1000, 0, 0, 32⟩
/-- `CTXn_ACCEPTED`, R426 of spec/12_hosts_and_tickets.md. -/
def F.CTXn_ACCEPTED : Fld := ⟨0x10060, 0x1000, 0, 0, 32⟩
/-- `CTXn_REJECTED`, R426 of spec/12_hosts_and_tickets.md. -/
def F.CTXn_REJECTED : Fld := ⟨0x10064, 0x1000, 0, 0, 32⟩
/-- `CTXn_LATE`, R426 of spec/12_hosts_and_tickets.md. -/
def F.CTXn_LATE : Fld := ⟨0x10068, 0x1000, 0, 0, 32⟩
/-- `CTXn_DISCARDED`, R426 of spec/12_hosts_and_tickets.md. -/
def F.CTXn_DISCARDED : Fld := ⟨0x1006c, 0x1000, 0, 0, 32⟩
/-- `HOST_MGMT_CFG`, R426 of spec/12_hosts_and_tickets.md. -/
def F.HOST_MGMT_CFG : Fld := ⟨0x18000, 0x0, 0, 0, 1⟩
/-- `HOST_MGMT_IP`, R426 of spec/12_hosts_and_tickets.md. -/
def F.HOST_MGMT_IP : Fld := ⟨0x18004, 0x0, 0, 0, 32⟩
/-- `HOST_MGMT_PORT`, R426 of spec/12_hosts_and_tickets.md. -/
def F.HOST_MGMT_PORT : Fld := ⟨0x18008, 0x0, 0, 0, 16⟩
/-- `HOST_JOURNAL`, R426 of spec/12_hosts_and_tickets.md. -/
def F.HOST_JOURNAL : Fld := ⟨0x18010, 0x0, 0, 0, 17⟩
/-- `HOST_PEER_JOURNAL`, R426 of spec/12_hosts_and_tickets.md. -/
def F.HOST_PEER_JOURNAL : Fld := ⟨0x18014, 0x0, 0, 0, 17⟩
/-- `MEM_CFG`, R452 of spec/13_frame_memory.md. -/
def F.MEM_CFG_CHANNELS : Fld := ⟨0x700000, 0x0, 0, 0, 4⟩
def F.MEM_CFG_RANKS : Fld := ⟨0x700000, 0x0, 0, 4, 1⟩
def F.MEM_CFG_DENSITY : Fld := ⟨0x700000, 0x0, 0, 5, 2⟩
def F.MEM_CFG_CAPACITY : Fld := ⟨0x700000, 0x0, 0, 8, 9⟩
/-- `MEM_CTL`, R453 of spec/13_frame_memory.md. -/
def F.MEM_CTL_CLEAR : Fld := ⟨0x700004, 0x0, 0, 0, 1⟩
def F.MEM_CTL_SCRUB_EN : Fld := ⟨0x700004, 0x0, 0, 1, 1⟩
def F.MEM_CTL_LOG_REARM : Fld := ⟨0x700004, 0x0, 0, 2, 1⟩
/-- `MEM_STATUS`, R454 of spec/13_frame_memory.md. -/
def F.MEM_STATUS_TRAINED : Fld := ⟨0x700008, 0x0, 0, 0, 1⟩
def F.MEM_STATUS_UE : Fld := ⟨0x700008, 0x0, 0, 1, 1⟩
def F.MEM_STATUS_CE : Fld := ⟨0x700008, 0x0, 0, 2, 1⟩
def F.MEM_STATUS_SCRUB_BEHIND : Fld := ⟨0x700008, 0x0, 0, 3, 1⟩
def F.MEM_STATUS_HOT_REFRESH : Fld := ⟨0x700008, 0x0, 0, 4, 1⟩
def F.MEM_STATUS_PEER_MISMATCH : Fld := ⟨0x700008, 0x0, 0, 5, 1⟩
def F.MEM_STATUS_BUDGET_REFUSED : Fld := ⟨0x700008, 0x0, 0, 6, 1⟩
/-- `MEM_REGION`, R455 of spec/13_frame_memory.md. -/
def F.MEM_REGION_LAYER_GIB : Fld := ⟨0x70000c, 0x0, 0, 0, 8⟩
def F.MEM_REGION_LAYER_GIB_NOW : Fld := ⟨0x70000c, 0x0, 0, 16, 8⟩
/-- `MEM_SCRUB`, R458 of spec/13_frame_memory.md. -/
def F.MEM_SCRUB : Fld := ⟨0x700010, 0x0, 0, 0, 8⟩
/-- `MEM_BUDGET`, R458 of spec/13_frame_memory.md. -/
def F.MEM_BUDGET : Fld := ⟨0x700014, 0x0, 0, 0, 7⟩
/-- `MEM_ERR_INFO`, R456 of spec/13_frame_memory.md. -/
def F.MEM_ERR_INFO_CHANNEL : Fld := ⟨0x700020, 0x0, 0, 0, 3⟩
def F.MEM_ERR_INFO_RANK : Fld := ⟨0x700020, 0x0, 0, 3, 1⟩
def F.MEM_ERR_INFO_WORD : Fld := ⟨0x700020, 0x0, 0, 4, 3⟩
def F.MEM_ERR_INFO_KIND : Fld := ⟨0x700020, 0x0, 0, 7, 1⟩
def F.MEM_ERR_INFO_CLASS : Fld := ⟨0x700020, 0x0, 0, 8, 3⟩
def F.MEM_ERR_INFO_VALID : Fld := ⟨0x700020, 0x0, 0, 31, 1⟩
/-- `MEM_ERR_ADDR_LO`, R458 of spec/13_frame_memory.md. -/
def F.MEM_ERR_ADDR_LO : Fld := ⟨0x700024, 0x0, 0, 6, 26⟩
/-- `MEM_ERR_ADDR_HI`, R458 of spec/13_frame_memory.md. -/
def F.MEM_ERR_ADDR_HI : Fld := ⟨0x700028, 0x0, 0, 0, 6⟩
/-- `MEM_CE`, R458 of spec/13_frame_memory.md. -/
def F.MEM_CE : Fld := ⟨0x700030, 0x0, 0, 0, 32⟩
/-- `MEM_UE`, R458 of spec/13_frame_memory.md. -/
def F.MEM_UE : Fld := ⟨0x700034, 0x0, 0, 0, 32⟩
/-- `MEM_SCRUB_PASSES`, R458 of spec/13_frame_memory.md. -/
def F.MEM_SCRUB_PASSES : Fld := ⟨0x700038, 0x0, 0, 0, 32⟩
/-- `MEM_SCRUB_POS_LO`, R458 of spec/13_frame_memory.md. -/
def F.MEM_SCRUB_POS_LO : Fld := ⟨0x70003c, 0x0, 0, 6, 26⟩
/-- `MEM_SCRUB_POS_HI`, R458 of spec/13_frame_memory.md. -/
def F.MEM_SCRUB_POS_HI : Fld := ⟨0x700040, 0x0, 0, 0, 6⟩
/-- `MEM_DEMAND`, R458 of spec/13_frame_memory.md. -/
def F.MEM_DEMAND : Fld := ⟨0x700044, 0x0, 0, 0, 32⟩
/-- `MEM_CLASSc_GRANTS`, R458 of spec/13_frame_memory.md. -/
def F.MEM_CLASSc_GRANTS : Fld := ⟨0x700108, 0x8, 0, 0, 32⟩
/-- `MEM_CLASSc_WAIT_MAX`, R458 of spec/13_frame_memory.md. -/
def F.MEM_CLASSc_WAIT_MAX : Fld := ⟨0x70010c, 0x8, 0, 0, 32⟩
/-- `MEM_CHn_STATUS`, R457 of spec/13_frame_memory.md. -/
def F.MEM_CHn_STATUS_TRAINED : Fld := ⟨0x700200, 0x10, 0, 0, 1⟩
def F.MEM_CHn_STATUS_FAIL : Fld := ⟨0x700200, 0x10, 0, 1, 1⟩
def F.MEM_CHn_STATUS_SELF_REFRESH : Fld := ⟨0x700200, 0x10, 0, 2, 1⟩
def F.MEM_CHn_STATUS_GATED : Fld := ⟨0x700200, 0x10, 0, 3, 1⟩
/-- `MEM_CHn_CE`, R458 of spec/13_frame_memory.md. -/
def F.MEM_CHn_CE : Fld := ⟨0x700204, 0x10, 0, 0, 32⟩
/-- `MEM_CHn_UE`, R458 of spec/13_frame_memory.md. -/
def F.MEM_CHn_UE : Fld := ⟨0x700208, 0x10, 0, 0, 32⟩
/-- `MEM_CHn_TRACK`, R458 of spec/13_frame_memory.md. -/
def F.MEM_CHn_TRACK : Fld := ⟨0x70020c, 0x10, 0, 0, 32⟩
/-- `XING_CTL`, R473 of spec/14_clock_islands.md. -/
def F.XING_CTL_CLEAR : Fld := ⟨0x400, 0x0, 0, 0, 1⟩
/-- `ISLAND_STATUS`, R474 of spec/14_clock_islands.md. -/
def F.ISLAND_STATUS_IN_RESET : Fld := ⟨0x404, 0x0, 0, 0, 9⟩
def F.ISLAND_STATUS_GATED : Fld := ⟨0x404, 0x0, 0, 16, 9⟩
/-- `XING_LOST`, R477 of spec/14_clock_islands.md. -/
def F.XING_LOST : Fld := ⟨0x408, 0x0, 0, 0, 32⟩
/-- `XING_OVERRUNS`, R477 of spec/14_clock_islands.md. -/
def F.XING_OVERRUNS : Fld := ⟨0x40c, 0x0, 0, 0, 32⟩
/-- `XING_CONFLICTS`, R477 of spec/14_clock_islands.md. -/
def F.XING_CONFLICTS : Fld := ⟨0x410, 0x0, 0, 0, 32⟩
/-- `XING_CONFLICT_INFO`, R476 of spec/14_clock_islands.md. -/
def F.XING_CONFLICT_INFO_KIND : Fld := ⟨0x414, 0x0, 0, 0, 3⟩
def F.XING_CONFLICT_INFO_INDEX : Fld := ⟨0x414, 0x0, 0, 8, 5⟩
def F.XING_CONFLICT_INFO_CONTEXT : Fld := ⟨0x414, 0x0, 0, 16, 3⟩
def F.XING_CONFLICT_INFO_BY_FLOCK : Fld := ⟨0x414, 0x0, 0, 19, 1⟩
def F.XING_CONFLICT_INFO_VALID : Fld := ⟨0x414, 0x0, 0, 31, 1⟩
/-- `XING_ACK_LIMIT`, R477 of spec/14_clock_islands.md. -/
def F.XING_ACK_LIMIT : Fld := ⟨0x418, 0x0, 0, 0, 16⟩
/-- `XINGi_STATUS`, R475 of spec/14_clock_islands.md. -/
def F.XINGi_STATUS_CLK_LOCK : Fld := ⟨0x440, 0x10, 0, 0, 1⟩
def F.XINGi_STATUS_IN_RESET : Fld := ⟨0x440, 0x10, 0, 1, 1⟩
def F.XINGi_STATUS_FORCED : Fld := ⟨0x440, 0x10, 0, 2, 1⟩
def F.XINGi_STATUS_OVERRUN : Fld := ⟨0x440, 0x10, 0, 3, 1⟩
def F.XINGi_STATUS_LOST : Fld := ⟨0x440, 0x10, 0, 4, 1⟩
def F.XINGi_STATUS_STUCK : Fld := ⟨0x440, 0x10, 0, 5, 1⟩
def F.XINGi_STATUS_CLK_LOST : Fld := ⟨0x440, 0x10, 0, 6, 1⟩
/-- `XINGi_OVERRUNS`, R477 of spec/14_clock_islands.md. -/
def F.XINGi_OVERRUNS : Fld := ⟨0x444, 0x10, 0, 0, 32⟩
/-- `XINGi_LOST`, R477 of spec/14_clock_islands.md. -/
def F.XINGi_LOST : Fld := ⟨0x448, 0x10, 0, 0, 32⟩
/-- `XINGi_FORCED`, R477 of spec/14_clock_islands.md. -/
def F.XINGi_FORCED : Fld := ⟨0x44c, 0x10, 0, 0, 32⟩
/-- `THERM_CFG`, R496 of spec/15_thermal_and_calibration.md. -/
def F.THERM_CFG_SENSOR_TYPE : Fld := ⟨0x780000, 0x0, 0, 0, 2⟩
def F.THERM_CFG_WRITE_DEFER : Fld := ⟨0x780000, 0x0, 0, 8, 8⟩
/-- `THERM_STATUS`, R497 of spec/15_thermal_and_calibration.md. -/
def F.THERM_STATUS_WARN : Fld := ⟨0x780004, 0x0, 0, 0, 1⟩
def F.THERM_STATUS_THROTTLE : Fld := ⟨0x780004, 0x0, 0, 1, 1⟩
def F.THERM_STATUS_SENSOR_FAULT : Fld := ⟨0x780004, 0x0, 0, 2, 1⟩
def F.THERM_STATUS_WINDOW_OPEN : Fld := ⟨0x780004, 0x0, 0, 3, 1⟩
def F.THERM_STATUS_RATE_WARN : Fld := ⟨0x780004, 0x0, 0, 4, 1⟩
def F.THERM_STATUS_RATE_THROTTLE : Fld := ⟨0x780004, 0x0, 0, 5, 1⟩
def F.THERM_STATUS_HOTTEST : Fld := ⟨0x780004, 0x0, 0, 8, 3⟩
def F.THERM_STATUS_THROTTLING : Fld := ⟨0x780004, 0x0, 0, 16, 6⟩
def F.THERM_STATUS_SENSOR_REASON : Fld := ⟨0x780004, 0x0, 0, 24, 3⟩
/-- `THERM_EVENT`, R498 of spec/15_thermal_and_calibration.md. -/
def F.THERM_EVENT_WARN_ENTERED : Fld := ⟨0x780008, 0x0, 0, 0, 1⟩
def F.THERM_EVENT_WARN_LEFT : Fld := ⟨0x780008, 0x0, 0, 1, 1⟩
def F.THERM_EVENT_THROTTLE_ENTERED : Fld := ⟨0x780008, 0x0, 0, 2, 1⟩
def F.THERM_EVENT_THROTTLE_LEFT : Fld := ⟨0x780008, 0x0, 0, 3, 1⟩
def F.THERM_EVENT_SENSOR_FAULT_SET : Fld := ⟨0x780008, 0x0, 0, 4, 1⟩
def F.THERM_EVENT_SENSOR_FAULT_CLEARED : Fld := ⟨0x780008, 0x0, 0, 5, 1⟩
def F.THERM_EVENT_TRIP_RESTART : Fld := ⟨0x780008, 0x0, 0, 6, 1⟩
def F.THERM_EVENT_WRITE_REFUSED : Fld := ⟨0x780008, 0x0, 0, 7, 1⟩
def F.THERM_EVENT_CAL_FAIL : Fld := ⟨0x780008, 0x0, 0, 8, 1⟩
/-- `THERM_CTL`, R499 of spec/15_thermal_and_calibration.md. -/
def F.THERM_CTL_CLEAR : Fld := ⟨0x78000c, 0x0, 0, 0, 1⟩
/-- `THERM_THROTTLE_DIV`, R500 of spec/15_thermal_and_calibration.md. -/
def F.THERM_THROTTLE_DIV_DIV : Fld := ⟨0x780010, 0x0, 0, 0, 2⟩
/-- `THERM_LIMITS`, R501 of spec/15_thermal_and_calibration.md. -/
def F.THERM_LIMITS_WARN : Fld := ⟨0x780014, 0x0, 0, 0, 8⟩
def F.THERM_LIMITS_THROTTLE : Fld := ⟨0x780014, 0x0, 0, 8, 8⟩
def F.THERM_LIMITS_TRIP : Fld := ⟨0x780014, 0x0, 0, 16, 8⟩
/-- `THERM_THROTTLE`, R502 of spec/15_thermal_and_calibration.md. -/
def F.THERM_THROTTLE_DUTY_CAP : Fld := ⟨0x780018, 0x0, 0, 0, 5⟩
def F.THERM_THROTTLE_DUTY_MIN : Fld := ⟨0x780018, 0x0, 0, 8, 5⟩
def F.THERM_THROTTLE_THR_STEP : Fld := ⟨0x780018, 0x0, 0, 16, 8⟩
/-- `THERM_SENSOR_TRIM`, R507 of spec/15_thermal_and_calibration.md. -/
def F.THERM_SENSOR_TRIM_BETA : Fld := ⟨0x78001c, 0x0, 0, 0, 16⟩
def F.THERM_SENSOR_TRIM_IDEALITY : Fld := ⟨0x78001c, 0x0, 0, 16, 16⟩
/-- `THERM_BOUNDARY`, R507 of spec/15_thermal_and_calibration.md. -/
def F.THERM_BOUNDARY : Fld := ⟨0x780020, 0x0, 0, 0, 16⟩
/-- `THERM_TRIPS`, R507 of spec/15_thermal_and_calibration.md. -/
def F.THERM_TRIPS_IN_HOUR : Fld := ⟨0x780024, 0x0, 0, 0, 2⟩
def F.THERM_TRIPS_TOTAL : Fld := ⟨0x780024, 0x0, 0, 8, 8⟩
def F.THERM_TRIPS_REGION : Fld := ⟨0x780024, 0x0, 0, 16, 3⟩
/-- `THERM_WRITE_REFUSED`, R507 of spec/15_thermal_and_calibration.md. -/
def F.THERM_WRITE_REFUSED : Fld := ⟨0x780028, 0x0, 0, 0, 32⟩
/-- `THERM_THROTTLED_MS`, R507 of spec/15_thermal_and_calibration.md. -/
def F.THERM_THROTTLED_MS : Fld := ⟨0x78002c, 0x0, 0, 0, 32⟩
/-- `THERM_REGr_EST`, R507 of spec/15_thermal_and_calibration.md. -/
def F.THERM_REGr_EST : Fld := ⟨0x780040, 0x4, 0, 0, 16⟩
/-- `THERM_REGr_RATE`, R507 of spec/15_thermal_and_calibration.md. -/
def F.THERM_REGr_RATE : Fld := ⟨0x780060, 0x4, 0, 0, 16⟩
/-- `THERM_REGr_PEAK`, R507 of spec/15_thermal_and_calibration.md. -/
def F.THERM_REGr_PEAK : Fld := ⟨0x780080, 0x4, 0, 0, 16⟩
/-- `THERM_MONm_POWER`, R507 of spec/15_thermal_and_calibration.md. -/
def F.THERM_MONm_POWER : Fld := ⟨0x7800a0, 0x4, 0, 0, 20⟩
/-- `THERM_MONm_MAX`, R507 of spec/15_thermal_and_calibration.md. -/
def F.THERM_MONm_MAX : Fld := ⟨0x7800c0, 0x4, 0, 0, 20⟩
/-- `THERM_MODEL_REGr_C`, R507 of spec/15_thermal_and_calibration.md. -/
def F.THERM_MODEL_REGr_C : Fld := ⟨0x780100, 0x8, 0, 0, 24⟩
/-- `THERM_MODEL_REGr_THETA`, R507 of spec/15_thermal_and_calibration.md. -/
def F.THERM_MODEL_REGr_THETA : Fld := ⟨0x780104, 0x8, 0, 0, 24⟩
/-- `CAL_CFG`, R503 of spec/15_thermal_and_calibration.md. -/
def F.CAL_CFG_CAL_DELTA : Fld := ⟨0x780200, 0x0, 0, 0, 5⟩
def F.CAL_CFG_AUTO : Fld := ⟨0x780200, 0x0, 0, 8, 1⟩
/-- `CAL_CTL`, R504 of spec/15_thermal_and_calibration.md. -/
def F.CAL_CTL_RUN : Fld := ⟨0x780204, 0x0, 0, 0, 5⟩
/-- `CAL_STATUS`, R505 of spec/15_thermal_and_calibration.md. -/
def F.CAL_STATUS_UNIT0 : Fld := ⟨0x780208, 0x0, 0, 0, 2⟩
def F.CAL_STATUS_UNIT1 : Fld := ⟨0x780208, 0x0, 0, 2, 2⟩
def F.CAL_STATUS_UNIT2 : Fld := ⟨0x780208, 0x0, 0, 4, 2⟩
def F.CAL_STATUS_UNIT3 : Fld := ⟨0x780208, 0x0, 0, 6, 2⟩
def F.CAL_STATUS_UNIT4 : Fld := ⟨0x780208, 0x0, 0, 8, 2⟩
/-- `CAL_RAMP`, R506 of spec/15_thermal_and_calibration.md. -/
def F.CAL_RAMP_SERDES_RAMP : Fld := ⟨0x78020c, 0x0, 0, 0, 4⟩
def F.CAL_RAMP_MEMPHY_RAMP : Fld := ⟨0x78020c, 0x0, 0, 4, 4⟩
def F.CAL_RAMP_LAMP_RAMP : Fld := ⟨0x78020c, 0x0, 0, 8, 8⟩
def F.CAL_RAMP_MONITOR_RAMP : Fld := ⟨0x78020c, 0x0, 0, 16, 8⟩
/-- `CAL_Uu_TEMP`, R507 of spec/15_thermal_and_calibration.md. -/
def F.CAL_Uu_TEMP : Fld := ⟨0x780220, 0x4, 0, 0, 16⟩
/-- `CAL_Uu_RUNS`, R507 of spec/15_thermal_and_calibration.md. -/
def F.CAL_Uu_RUNS : Fld := ⟨0x780240, 0x4, 0, 0, 32⟩
/-- `CAL_Uu_FAILS`, R507 of spec/15_thermal_and_calibration.md. -/
def F.CAL_Uu_FAILS : Fld := ⟨0x780260, 0x4, 0, 0, 32⟩
/-- `CAL_Uu_ELEMENT`, R507 of spec/15_thermal_and_calibration.md. -/
def F.CAL_Uu_ELEMENT : Fld := ⟨0x780280, 0x4, 0, 0, 8⟩
/-- `BOOT_STATUS`, R536 of spec/16_boot_and_update.md. -/
def F.BOOT_STATUS_STAGE : Fld := ⟨0x7e0000, 0x0, 0, 0, 4⟩
def F.BOOT_STATUS_ERROR : Fld := ⟨0x7e0000, 0x0, 0, 4, 4⟩
def F.BOOT_STATUS_SLOT : Fld := ⟨0x7e0000, 0x0, 0, 8, 1⟩
def F.BOOT_STATUS_TRIAL : Fld := ⟨0x7e0000, 0x0, 0, 9, 1⟩
def F.BOOT_STATUS_FALLBACK : Fld := ⟨0x7e0000, 0x0, 0, 10, 1⟩
def F.BOOT_STATUS_REVERTED : Fld := ⟨0x7e0000, 0x0, 0, 11, 1⟩
def F.BOOT_STATUS_REVERT_REASON : Fld := ⟨0x7e0000, 0x0, 0, 12, 1⟩
def F.BOOT_STATUS_TRIAL_DEFERRED : Fld := ⟨0x7e0000, 0x0, 0, 13, 1⟩
def F.BOOT_STATUS_BURN_PENDING : Fld := ⟨0x7e0000, 0x0, 0, 14, 1⟩
def F.BOOT_STATUS_DETAIL : Fld := ⟨0x7e0000, 0x0, 0, 16, 8⟩
/-- `BOOT_STRAPS`, R547 of spec/16_boot_and_update.md. -/
def F.BOOT_STRAPS_ROLE : Fld := ⟨0x7e0004, 0x0, 0, 0, 2⟩
def F.BOOT_STRAPS_BOOT_SRC : Fld := ⟨0x7e0004, 0x0, 0, 2, 2⟩
def F.BOOT_STRAPS_OTHER : Fld := ⟨0x7e0004, 0x0, 0, 4, 12⟩
/-- `LC_STATE`, R543 of spec/16_boot_and_update.md. -/
def F.LC_STATE_STATE : Fld := ⟨0x7e0008, 0x0, 0, 0, 3⟩
def F.LC_STATE_DEBUG : Fld := ⟨0x7e0008, 0x0, 0, 3, 1⟩
def F.LC_STATE_TOKEN_OK : Fld := ⟨0x7e0008, 0x0, 0, 4, 1⟩
def F.LC_STATE_LAST_RESULT : Fld := ⟨0x7e0008, 0x0, 0, 8, 3⟩
/-- `BOOT_INTENT`, R537 of spec/16_boot_and_update.md. -/
def F.BOOT_INTENT_ACTIVE : Fld := ⟨0x7e000c, 0x0, 0, 0, 1⟩
def F.BOOT_INTENT_TRIAL_PENDING : Fld := ⟨0x7e000c, 0x0, 0, 1, 1⟩
def F.BOOT_INTENT_TRIAL_SLOT : Fld := ⟨0x7e000c, 0x0, 0, 2, 1⟩
def F.BOOT_INTENT_TRIALS_LEFT : Fld := ⟨0x7e000c, 0x0, 0, 3, 2⟩
def F.BOOT_INTENT_CONFIRMED : Fld := ⟨0x7e000c, 0x0, 0, 5, 1⟩
def F.BOOT_INTENT_CONFIRM_ROLLBACK : Fld := ⟨0x7e000c, 0x0, 0, 8, 8⟩
def F.BOOT_INTENT_SEQUENCE : Fld := ⟨0x7e000c, 0x0, 0, 16, 16⟩
/-- `BOOT_SLOTa_INFO`, R538 of spec/16_boot_and_update.md. -/
def F.BOOT_SLOTa_INFO_CHECK : Fld := ⟨0x7e0010, 0x10, 0, 0, 4⟩
def F.BOOT_SLOTa_INFO_BODY_CHECKED : Fld := ⟨0x7e0010, 0x10, 0, 4, 1⟩
def F.BOOT_SLOTa_INFO_KEY_INDEX : Fld := ⟨0x7e0010, 0x10, 0, 5, 2⟩
def F.BOOT_SLOTa_INFO_ROLLBACK : Fld := ⟨0x7e0010, 0x10, 0, 8, 8⟩
def F.BOOT_SLOTa_INFO_ROLES : Fld := ⟨0x7e0010, 0x10, 0, 16, 3⟩
/-- `BOOT_SLOTa_VERSION`, R547 of spec/16_boot_and_update.md. -/
def F.BOOT_SLOTa_VERSION : Fld := ⟨0x7e0014, 0x10, 0, 0, 32⟩
/-- `BOOT_SLOTa_LENGTH`, R547 of spec/16_boot_and_update.md. -/
def F.BOOT_SLOTa_LENGTH : Fld := ⟨0x7e0018, 0x10, 0, 0, 32⟩
/-- `BOOT_DL_CTL`, R539 of spec/16_boot_and_update.md. -/
def F.BOOT_DL_CTL_BEGIN : Fld := ⟨0x7e0030, 0x0, 0, 0, 1⟩
def F.BOOT_DL_CTL_CANCEL : Fld := ⟨0x7e0030, 0x0, 0, 1, 1⟩
def F.BOOT_DL_CTL_CAL_BEGIN : Fld := ⟨0x7e0030, 0x0, 0, 2, 1⟩
def F.BOOT_DL_CTL_CAL_CANCEL : Fld := ⟨0x7e0030, 0x0, 0, 3, 1⟩
/-- `BOOT_DL_STATUS`, R540 of spec/16_boot_and_update.md. -/
def F.BOOT_DL_STATUS_STATE : Fld := ⟨0x7e0034, 0x0, 0, 0, 2⟩
def F.BOOT_DL_STATUS_SLOT : Fld := ⟨0x7e0034, 0x0, 0, 2, 1⟩
def F.BOOT_DL_STATUS_CONTEXT : Fld := ⟨0x7e0034, 0x0, 0, 3, 3⟩
def F.BOOT_DL_STATUS_CAL_STATE : Fld := ⟨0x7e0034, 0x0, 0, 6, 2⟩
def F.BOOT_DL_STATUS_CAL_CONTEXT : Fld := ⟨0x7e0034, 0x0, 0, 8, 3⟩
def F.BOOT_DL_STATUS_PREPARED : Fld := ⟨0x7e0034, 0x0, 0, 11, 1⟩
def F.BOOT_DL_STATUS_SECTORS : Fld := ⟨0x7e0034, 0x0, 0, 16, 14⟩
/-- `BOOT_ACTIVATE`, R541 of spec/16_boot_and_update.md. -/
def F.BOOT_ACTIVATE_GO : Fld := ⟨0x7e0038, 0x0, 0, 0, 1⟩
def F.BOOT_ACTIVATE_SCOPE : Fld := ⟨0x7e0038, 0x0, 0, 1, 2⟩
/-- `BOOT_ACT_VERSION`, R541 of spec/16_boot_and_update.md. -/
def F.BOOT_ACT_VERSION : Fld := ⟨0x7e003c, 0x0, 0, 0, 32⟩
/-- `BOOT_CONFIRM`, R547 of spec/16_boot_and_update.md. -/
def F.BOOT_CONFIRM : Fld := ⟨0x7e0040, 0x0, 0, 0, 32⟩
/-- `BOOT_CONFIRM_WINDOW`, R547 of spec/16_boot_and_update.md. -/
def F.BOOT_CONFIRM_WINDOW : Fld := ⟨0x7e0048, 0x0, 0, 0, 12⟩
/-- `BOOT_CONFIRM_STATUS`, R542 of spec/16_boot_and_update.md. -/
def F.BOOT_CONFIRM_STATUS_STATE : Fld := ⟨0x7e004c, 0x0, 0, 0, 2⟩
def F.BOOT_CONFIRM_STATUS_LEFT : Fld := ⟨0x7e004c, 0x0, 0, 4, 12⟩
/-- `BOOT_TIME_LOAD`, R547 of spec/16_boot_and_update.md. -/
def F.BOOT_TIME_LOAD : Fld := ⟨0x7e0050, 0x0, 0, 0, 16⟩
/-- `BOOT_COUNT`, R547 of spec/16_boot_and_update.md. -/
def F.BOOT_COUNT : Fld := ⟨0x7e0054, 0x0, 0, 0, 32⟩
/-- `SEC_SERIAL_LO`, R547 of spec/16_boot_and_update.md. -/
def F.SEC_SERIAL_LO : Fld := ⟨0x7e0100, 0x0, 0, 0, 32⟩
/-- `SEC_SERIAL_HI`, R547 of spec/16_boot_and_update.md. -/
def F.SEC_SERIAL_HI : Fld := ⟨0x7e0104, 0x0, 0, 0, 32⟩
/-- `SEC_ROLLBACK`, R547 of spec/16_boot_and_update.md. -/
def F.SEC_ROLLBACK : Fld := ⟨0x7e0108, 0x0, 0, 0, 8⟩
/-- `SEC_KEYS`, R544 of spec/16_boot_and_update.md. -/
def F.SEC_KEYS_PROGRAMMED : Fld := ⟨0x7e010c, 0x0, 0, 0, 4⟩
def F.SEC_KEYS_REVOKED : Fld := ⟨0x7e010c, 0x0, 0, 4, 4⟩
def F.SEC_KEYS_RMA_KEY : Fld := ⟨0x7e010c, 0x0, 0, 8, 1⟩
def F.SEC_KEYS_REVOKE_REFUSED : Fld := ⟨0x7e010c, 0x0, 0, 9, 1⟩
/-- `SEC_REVOKE`, R547 of spec/16_boot_and_update.md. -/
def F.SEC_REVOKE : Fld := ⟨0x7e0110, 0x0, 0, 0, 4⟩
/-- `SEC_WALLKEY`, R545 of spec/16_boot_and_update.md. -/
def F.SEC_WALLKEY_VALID : Fld := ⟨0x7e0118, 0x0, 0, 0, 1⟩
def F.SEC_WALLKEY_PENDING : Fld := ⟨0x7e0118, 0x0, 0, 1, 1⟩
def F.SEC_WALLKEY_UNWRAP_FAIL : Fld := ⟨0x7e0118, 0x0, 0, 2, 1⟩
/-- `SEC_WALLKEY_ID`, R547 of spec/16_boot_and_update.md. -/
def F.SEC_WALLKEY_ID : Fld := ⟨0x7e011c, 0x0, 0, 0, 32⟩
/-- `SEC_ATTEST_CTL`, R546 of spec/16_boot_and_update.md. -/
def F.SEC_ATTEST_CTL_GO : Fld := ⟨0x7e0120, 0x0, 0, 0, 1⟩
def F.SEC_ATTEST_CTL_KIND : Fld := ⟨0x7e0120, 0x0, 0, 1, 2⟩
def F.SEC_ATTEST_CTL_DONE : Fld := ⟨0x7e0120, 0x0, 0, 8, 1⟩
def F.SEC_ATTEST_CTL_BUSY : Fld := ⟨0x7e0120, 0x0, 0, 9, 1⟩
/-- `SEC_ATTEST_BUFk`, R547 of spec/16_boot_and_update.md. -/
def F.SEC_ATTEST_BUFk : Fld := ⟨0x7e0180, 0x0, 4, 0, 32⟩
/-- `LC_CHALLENGEk`, R547 of spec/16_boot_and_update.md. -/
def F.LC_CHALLENGEk : Fld := ⟨0x7e0320, 0x0, 4, 0, 32⟩
/-- `LC_TRANSITION`, R547 of spec/16_boot_and_update.md. -/
def F.LC_TRANSITION : Fld := ⟨0x7e0340, 0x0, 0, 0, 3⟩
/-- `SEC_PCIE_IDS`, R547 of spec/16_boot_and_update.md. -/
def F.SEC_PCIE_IDS_VENDOR : Fld := ⟨0x7e0350, 0x0, 0, 0, 16⟩
def F.SEC_PCIE_IDS_SUBSYS_VENDOR : Fld := ⟨0x7e0350, 0x0, 0, 16, 16⟩
/-- `SEC_PCIE_SUBSYS`, R547 of spec/16_boot_and_update.md. -/
def F.SEC_PCIE_SUBSYS : Fld := ⟨0x7e0354, 0x0, 0, 0, 16⟩
/-- `SEC_MAC_LO`, R547 of spec/16_boot_and_update.md. -/
def F.SEC_MAC_LO : Fld := ⟨0x7e0358, 0x0, 0, 0, 32⟩
/-- `SEC_MAC_HI`, R547 of spec/16_boot_and_update.md. -/
def F.SEC_MAC_HI : Fld := ⟨0x7e035c, 0x0, 0, 0, 16⟩
/-- `BOOT_CAL_LOAD`, R547 of spec/16_boot_and_update.md. -/
def F.BOOT_CAL_LOAD_STATE : Fld := ⟨0x7e0360, 0x0, 0, 0, 2⟩
def F.BOOT_CAL_LOAD_BAD_ENTRIES : Fld := ⟨0x7e0360, 0x0, 0, 8, 24⟩
/-- `BIST_CTL`, R566 of spec/17_self_test.md. -/
def F.BIST_CTL_LB_GO : Fld := ⟨0x7c0000, 0x0, 0, 0, 1⟩
def F.BIST_CTL_MB_GO : Fld := ⟨0x7c0000, 0x0, 0, 1, 1⟩
def F.BIST_CTL_ABORT : Fld := ⟨0x7c0000, 0x0, 0, 2, 1⟩
def F.BIST_CTL_ONLINE_EN : Fld := ⟨0x7c0000, 0x0, 0, 3, 1⟩
def F.BIST_CTL_CLEAR : Fld := ⟨0x7c0000, 0x0, 0, 4, 1⟩
/-- `BIST_STATUS`, R567 of spec/17_self_test.md. -/
def F.BIST_STATUS_BUSY : Fld := ⟨0x7c0004, 0x0, 0, 0, 1⟩
def F.BIST_STATUS_SELF_TEST_FAULT : Fld := ⟨0x7c0004, 0x0, 0, 1, 1⟩
def F.BIST_STATUS_MB_UNREPAIRED : Fld := ⟨0x7c0004, 0x0, 0, 2, 1⟩
def F.BIST_STATUS_REPAIR_PENDING : Fld := ⟨0x7c0004, 0x0, 0, 3, 1⟩
def F.BIST_STATUS_CLEAR_UNCONFIRMED : Fld := ⟨0x7c0004, 0x0, 0, 4, 1⟩
def F.BIST_STATUS_REFUSED : Fld := ⟨0x7c0004, 0x0, 0, 5, 3⟩
def F.BIST_STATUS_REPAIRS_USED : Fld := ⟨0x7c0004, 0x0, 0, 8, 7⟩
/-- `BIST_CFG`, R568 of spec/17_self_test.md. -/
def F.BIST_CFG_PAT_LOG : Fld := ⟨0x7c0008, 0x0, 0, 0, 4⟩
def F.BIST_CFG_ALG : Fld := ⟨0x7c0008, 0x0, 0, 4, 1⟩
/-- `BIST_LB_MASK`, R571 of spec/17_self_test.md. -/
def F.BIST_LB_MASK : Fld := ⟨0x7c000c, 0x0, 0, 0, 28⟩
/-- `BIST_LB_FAILED`, R571 of spec/17_self_test.md. -/
def F.BIST_LB_FAILED : Fld := ⟨0x7c0010, 0x0, 0, 0, 28⟩
/-- `BIST_SEL`, R571 of spec/17_self_test.md. -/
def F.BIST_SEL : Fld := ⟨0x7c0014, 0x0, 0, 0, 5⟩
/-- `BIST_SEL_SEED_LO`, R571 of spec/17_self_test.md. -/
def F.BIST_SEL_SEED_LO : Fld := ⟨0x7c0018, 0x0, 0, 0, 32⟩
/-- `BIST_SEL_SEED_HI`, R571 of spec/17_self_test.md. -/
def F.BIST_SEL_SEED_HI : Fld := ⟨0x7c001c, 0x0, 0, 0, 32⟩
/-- `BIST_SEL_EXPECT_LO`, R571 of spec/17_self_test.md. -/
def F.BIST_SEL_EXPECT_LO : Fld := ⟨0x7c0020, 0x0, 0, 0, 32⟩
/-- `BIST_SEL_EXPECT_HI`, R571 of spec/17_self_test.md. -/
def F.BIST_SEL_EXPECT_HI : Fld := ⟨0x7c0024, 0x0, 0, 0, 32⟩
/-- `BIST_SEL_INFO`, R569 of spec/17_self_test.md. -/
def F.BIST_SEL_INFO_RESULT : Fld := ⟨0x7c0028, 0x0, 0, 0, 2⟩
def F.BIST_SEL_INFO_EXPECT_VALID : Fld := ⟨0x7c0028, 0x0, 0, 2, 1⟩
def F.BIST_SEL_INFO_AGE : Fld := ⟨0x7c0028, 0x0, 0, 16, 16⟩
/-- `BIST_SEL_MISR_LO`, R571 of spec/17_self_test.md. -/
def F.BIST_SEL_MISR_LO : Fld := ⟨0x7c002c, 0x0, 0, 0, 32⟩
/-- `BIST_SEL_MISR_HI`, R571 of spec/17_self_test.md. -/
def F.BIST_SEL_MISR_HI : Fld := ⟨0x7c0030, 0x0, 0, 0, 32⟩
/-- `BIST_MB_MASK_LO`, R571 of spec/17_self_test.md. -/
def F.BIST_MB_MASK_LO : Fld := ⟨0x7c0034, 0x0, 0, 0, 32⟩
/-- `BIST_MB_MASK_HI`, R571 of spec/17_self_test.md. -/
def F.BIST_MB_MASK_HI : Fld := ⟨0x7c0038, 0x0, 0, 0, 12⟩
/-- `BIST_MB_RESULT`, R570 of spec/17_self_test.md. -/
def F.BIST_MB_RESULT_INSTANCE : Fld := ⟨0x7c0040, 0x0, 0, 0, 6⟩
def F.BIST_MB_RESULT_BIT : Fld := ⟨0x7c0040, 0x0, 0, 6, 6⟩
def F.BIST_MB_RESULT_REPAIRABLE : Fld := ⟨0x7c0040, 0x0, 0, 12, 1⟩
def F.BIST_MB_RESULT_VALID : Fld := ⟨0x7c0040, 0x0, 0, 13, 1⟩
/-- `BIST_MB_ADDR`, R571 of spec/17_self_test.md. -/
def F.BIST_MB_ADDR : Fld := ⟨0x7c0044, 0x0, 0, 0, 24⟩
/-- `BIST_LAST_FAULT_SEC`, R571 of spec/17_self_test.md. -/
def F.BIST_LAST_FAULT_SEC : Fld := ⟨0x7c0048, 0x0, 0, 0, 32⟩
/-- `BIST_LAST_FAULT_NS`, R571 of spec/17_self_test.md. -/
def F.BIST_LAST_FAULT_NS : Fld := ⟨0x7c004c, 0x0, 0, 0, 30⟩
/-- `BIST_LB_RUNS`, R571 of spec/17_self_test.md. -/
def F.BIST_LB_RUNS : Fld := ⟨0x7c0050, 0x0, 0, 0, 32⟩
/-- `BIST_LB_FAILS`, R571 of spec/17_self_test.md. -/
def F.BIST_LB_FAILS : Fld := ⟨0x7c0054, 0x0, 0, 0, 32⟩
/-- `BIST_LB_MISSED`, R571 of spec/17_self_test.md. -/
def F.BIST_LB_MISSED : Fld := ⟨0x7c0058, 0x0, 0, 0, 32⟩
/-- `BIST_MB_FAILS`, R571 of spec/17_self_test.md. -/
def F.BIST_MB_FAILS : Fld := ⟨0x7c005c, 0x0, 0, 0, 32⟩
/-- `BIST_REFUSALS`, R571 of spec/17_self_test.md. -/
def F.BIST_REFUSALS : Fld := ⟨0x7c0060, 0x0, 0, 0, 32⟩
/-- `BIST_HEALTHk`, R571 of spec/17_self_test.md. -/
def F.BIST_HEALTHk : Fld := ⟨0x7c0080, 0x0, 4, 0, 32⟩
/-- `BIST_TILE_SEL`, R571 of spec/17_self_test.md. -/
def F.BIST_TILE_SEL : Fld := ⟨0x7c00c0, 0x0, 0, 0, 16⟩
/-- `BIST_TILE_AGE`, R571 of spec/17_self_test.md. -/
def F.BIST_TILE_AGE : Fld := ⟨0x7c00c4, 0x0, 0, 0, 32⟩
/-- `BIST_TILE_REPORTk`, R571 of spec/17_self_test.md. -/
def F.BIST_TILE_REPORTk : Fld := ⟨0x7c0100, 0x0, 4, 0, 32⟩
/-- `PWR_STATUS`, R587 of spec/18_power_and_reset.md. -/
def F.PWR_STATUS_PWR_EN : Fld := ⟨0x200, 0x0, 0, 0, 4⟩
def F.PWR_STATUS_RAIL_GOOD : Fld := ⟨0x200, 0x0, 0, 4, 7⟩
def F.PWR_STATUS_POWER_GOOD : Fld := ⟨0x200, 0x0, 0, 11, 1⟩
def F.PWR_STATUS_HEAD_GATED : Fld := ⟨0x200, 0x0, 0, 12, 1⟩
def F.PWR_STATUS_BROWNOUTS : Fld := ⟨0x200, 0x0, 0, 16, 2⟩
/-- `RST_CAUSE`, R588 of spec/18_power_and_reset.md. -/
def F.RST_CAUSE_POR : Fld := ⟨0x204, 0x0, 0, 0, 1⟩
def F.RST_CAUSE_RESET_N : Fld := ⟨0x204, 0x0, 0, 1, 1⟩
def F.RST_CAUSE_WARM : Fld := ⟨0x204, 0x0, 0, 2, 1⟩
def F.RST_CAUSE_ACTIVATE : Fld := ⟨0x204, 0x0, 0, 3, 1⟩
def F.RST_CAUSE_TRIP : Fld := ⟨0x204, 0x0, 0, 4, 1⟩
def F.RST_CAUSE_BROWNOUT : Fld := ⟨0x204, 0x0, 0, 5, 1⟩
def F.RST_CAUSE_LAST : Fld := ⟨0x204, 0x0, 0, 8, 3⟩
/-- `RST_CTL`, R589 of spec/18_power_and_reset.md. -/
def F.RST_CTL_ISLAND : Fld := ⟨0x208, 0x0, 0, 0, 9⟩
def F.RST_CTL_FOLD : Fld := ⟨0x208, 0x0, 0, 12, 4⟩
def F.RST_CTL_WARM : Fld := ⟨0x208, 0x0, 0, 16, 1⟩
def F.RST_CTL_POWER_OFF : Fld := ⟨0x208, 0x0, 0, 17, 1⟩
/-- `RST_POWER_UP_TIME`, R590 of spec/18_power_and_reset.md. -/
def F.RST_POWER_UP_TIME : Fld := ⟨0x210, 0x0, 0, 0, 32⟩
/-- `PWR_RAILr_MV`, R590 of spec/18_power_and_reset.md. -/
def F.PWR_RAILr_MV : Fld := ⟨0x220, 0x4, 0, 0, 16⟩
/-- `GPIOk_CFG`, R603 of spec/19_package_and_balls.md. -/
def F.GPIOk_CFG_FUNC : Fld := ⟨0x7f0000, 0x4, 0, 0, 3⟩
def F.GPIOk_CFG_INVERT : Fld := ⟨0x7f0000, 0x4, 0, 3, 1⟩
def F.GPIOk_CFG_ALARM : Fld := ⟨0x7f0000, 0x4, 0, 4, 5⟩
def F.GPIOk_CFG_GROUP : Fld := ⟨0x7f0000, 0x4, 0, 9, 2⟩
def F.GPIOk_CFG_PULL : Fld := ⟨0x7f0000, 0x4, 0, 11, 2⟩
def F.GPIOk_CFG_DRIVE : Fld := ⟨0x7f0000, 0x4, 0, 13, 2⟩
def F.GPIOk_CFG_OPEN_DRAIN : Fld := ⟨0x7f0000, 0x4, 0, 15, 1⟩
/-- `GPIO_IN`, R604 of spec/19_package_and_balls.md. -/
def F.GPIO_IN : Fld := ⟨0x7f0040, 0x0, 0, 0, 16⟩
/-- `GPIO_OUT`, R604 of spec/19_package_and_balls.md. -/
def F.GPIO_OUT : Fld := ⟨0x7f0044, 0x0, 0, 0, 16⟩
/-- `GPIO_INT_CTX`, R604 of spec/19_package_and_balls.md. -/
def F.GPIO_INT_CTX : Fld := ⟨0x7f004c, 0x0, 0, 0, 8⟩
/-- `GLOBAL_ID`, R625 of spec/21_register_map.md. -/
def F.GLOBAL_ID_STEPPING : Fld := ⟨0x0, 0x0, 0, 0, 8⟩
def F.GLOBAL_ID_MAP_VERSION : Fld := ⟨0x0, 0x0, 0, 8, 8⟩
def F.GLOBAL_ID_PART : Fld := ⟨0x0, 0x0, 0, 16, 16⟩
/-- `GLOBAL_ACCESS_ERR`, R625 of spec/21_register_map.md. -/
def F.GLOBAL_ACCESS_ERR_OFFSET : Fld := ⟨0x8, 0x0, 0, 2, 22⟩
def F.GLOBAL_ACCESS_ERR_WRITE : Fld := ⟨0x8, 0x0, 0, 24, 1⟩
def F.GLOBAL_ACCESS_ERR_CONTEXT : Fld := ⟨0x8, 0x0, 0, 25, 3⟩
def F.GLOBAL_ACCESS_ERR_KIND : Fld := ⟨0x8, 0x0, 0, 28, 2⟩
def F.GLOBAL_ACCESS_ERR_VALID : Fld := ⟨0x8, 0x0, 0, 31, 1⟩
/-- `GLOBAL_ACCESS_ERRS`, R626 of spec/21_register_map.md. -/
def F.GLOBAL_ACCESS_ERRS : Fld := ⟨0xc, 0x0, 0, 0, 32⟩
/-- `GLOBAL_BLOCKS`, R626 of spec/21_register_map.md. -/
def F.GLOBAL_BLOCKS : Fld := ⟨0x10, 0x0, 0, 0, 21⟩


/-- Registers of spec/02_ingest.md. -/
def regs02_0 : List RegDef := [
  ⟨"LAYERn_INGEST", 0x2000c0, 16, 0x100, 1, 0, true,
    [⟨0, 1, .rw, none, []⟩,
     ⟨1, 3, .rw, none, [(6, 7)]⟩,
     ⟨4, 4, .rw, none, []⟩,
     ⟨8, 1, .rw, none, []⟩,
     ⟨9, 1, .rw, none, []⟩,
     ⟨16, 8, .rw, none, []⟩]⟩,
  ⟨"LAYERn_SEND_LEAD", 0x2000c4, 16, 0x100, 1, 0, true,
    [⟨0, 20, .rw, none, []⟩]⟩,
  ⟨"LAYERn_ADDR_LO", 0x2000c8, 16, 0x100, 1, 0, false,
    [⟨12, 20, .rw, none, []⟩]⟩,
  ⟨"LAYERn_ADDR_HI", 0x2000cc, 16, 0x100, 1, 0, false,
    [⟨0, 6, .rw, none, []⟩]⟩,
  ⟨"LAYERn_CLIP", 0x2000d0, 16, 0x100, 1, 0, false,
    [⟨0, 12, .rw, none, []⟩,
     ⟨12, 2, .rw, none, [(3, 3)]⟩]⟩,
  ⟨"LAYERn_ISTAT", 0x2000d8, 16, 0x100, 1, 0, false,
    [⟨0, 1, .ro, none, []⟩,
     ⟨1, 1, .ro, none, []⟩,
     ⟨2, 1, .ro, none, []⟩,
     ⟨3, 1, .ro, none, []⟩]⟩,
  ⟨"LAYERn_REPEATS", 0x2000dc, 16, 0x100, 1, 0, false,
    [⟨0, 32, .rc, none, []⟩]⟩,
  ⟨"LAYERn_DROPS", 0x2000e0, 16, 0x100, 1, 0, false,
    [⟨0, 32, .rc, none, []⟩]⟩,
  ⟨"LAYERn_INCOMPLETE", 0x2000e4, 16, 0x100, 1, 0, false,
    [⟨0, 32, .rc, none, []⟩]⟩,
  ⟨"LAYERn_CT_LATE", 0x2000e8, 16, 0x100, 1, 0, false,
    [⟨0, 32, .rc, none, []⟩]⟩,
  ⟨"LAYERn_RATE", 0x2000f0, 16, 0x100, 1, 0, false,
    [⟨0, 32, .ro, none, []⟩]⟩,
  ⟨"DPRXn_CTL", 0x300000, 4, 0x200, 1, 0, false,
    [⟨0, 1, .rw, none, []⟩,
     ⟨1, 1, .rw, none, []⟩,
     ⟨2, 1, .wo, none, []⟩,
     ⟨4, 3, .rw, none, [(7, 7)]⟩,
     ⟨8, 2, .rw, none, [(3, 3)]⟩]⟩,
  ⟨"DPRXn_STATUS", 0x300004, 4, 0x200, 1, 0, false,
    [⟨0, 1, .ro, none, []⟩,
     ⟨1, 3, .ro, none, []⟩,
     ⟨4, 2, .ro, none, []⟩,
     ⟨6, 1, .ro, none, []⟩,
     ⟨7, 1, .ro, none, []⟩,
     ⟨8, 1, .ro, none, []⟩,
     ⟨9, 1, .ro, none, []⟩,
     ⟨10, 1, .ro, none, []⟩,
     ⟨16, 8, .ro, none, []⟩]⟩,
  ⟨"DPRXn_ACTIVE", 0x300008, 4, 0x200, 1, 0, false,
    [⟨0, 16, .ro, none, []⟩,
     ⟨16, 16, .ro, none, []⟩]⟩,
  ⟨"DPRXn_PERIOD", 0x30000c, 4, 0x200, 1, 0, false,
    [⟨0, 32, .ro, none, []⟩]⟩,
  ⟨"DPRXn_LINKLOSS", 0x300010, 4, 0x200, 1, 0, false,
    [⟨0, 32, .rc, none, []⟩]⟩,
  ⟨"DPRXn_EDIDk", 0x300100, 4, 0x200, 64, 4, false,
    [⟨0, 32, .rw, none, []⟩]⟩,
  ⟨"ETH_MODE", 0x340000, 1, 0x0, 1, 0, true,
    [⟨0, 2, .rw, none, []⟩]⟩,
  ⟨"INGEST_MARGIN", 0x340004, 1, 0x0, 1, 0, false,
    [⟨0, 20, .rw, none, []⟩]⟩,
  ⟨"INGEST_ADMIT", 0x340008, 1, 0x0, 1, 0, false,
    [⟨0, 32, .ro, none, []⟩]⟩,
  ⟨"FA_STATUS", 0x34000c, 1, 0x0, 1, 0, false,
    [⟨0, 16, .rc, none, []⟩,
     ⟨16, 16, .rc, none, []⟩]⟩,
  ⟨"FA_NOMATCH", 0x340010, 1, 0x0, 1, 0, false,
    [⟨0, 32, .rc, none, []⟩]⟩,
  ⟨"STFLOWn_CTL", 0x340100, 16, 0x40, 1, 0, true,
    [⟨0, 1, .rw, none, []⟩,
     ⟨1, 1, .rw, none, []⟩,
     ⟨2, 1, .rw, none, []⟩,
     ⟨3, 1, .rw, none, []⟩,
     ⟨4, 2, .rw, none, []⟩,
     ⟨6, 1, .rw, none, []⟩,
     ⟨8, 12, .rw, none, []⟩,
     ⟨20, 7, .rw, none, []⟩]⟩,
  ⟨"STFLOWn_DST_ADDRk", 0x340104, 16, 0x40, 4, 4, true,
    [⟨0, 32, .rw, none, []⟩]⟩,
  ⟨"STFLOWn_SRC_ADDRk", 0x340114, 16, 0x40, 4, 4, true,
    [⟨0, 32, .rw, none, []⟩]⟩]

/-- Registers of spec/02_ingest.md. -/
def regs02_1 : List RegDef := [
  ⟨"STFLOWn_UDP", 0x340124, 16, 0x40, 1, 0, true,
    [⟨0, 16, .rw, none, []⟩]⟩,
  ⟨"STFLOWn_FMT", 0x340128, 16, 0x40, 1, 0, true,
    [⟨0, 2, .rw, none, []⟩,
     ⟨2, 2, .rw, none, []⟩]⟩,
  ⟨"STFLOWn_SIZE", 0x34012c, 16, 0x40, 1, 0, true,
    [⟨0, 16, .rw, none, []⟩,
     ⟨16, 16, .rw, none, []⟩]⟩,
  ⟨"STFLOWn_STATUS", 0x340130, 16, 0x40, 1, 0, false,
    [⟨0, 1, .ro, none, []⟩,
     ⟨1, 1, .ro, none, []⟩,
     ⟨2, 1, .ro, none, []⟩]⟩,
  ⟨"STFLOWn_PKT_LOST", 0x340134, 16, 0x40, 1, 0, false,
    [⟨0, 32, .rc, none, []⟩]⟩,
  ⟨"STFLOWn_OVERFLOW", 0x340138, 16, 0x40, 1, 0, false,
    [⟨0, 32, .rc, none, []⟩]⟩,
  ⟨"STFLOWn_INCOMPLETE", 0x34013c, 16, 0x40, 1, 0, false,
    [⟨0, 32, .rc, none, []⟩]⟩]

/-- Registers of spec/03_oaris_link.md. -/
def regs03_0 : List RegDef := [
  ⟨"LANEn_CTL", 0x400000, 32, 0xc0, 1, 0, false,
    [⟨0, 1, .rw, none, []⟩,
     ⟨1, 1, .rw, none, []⟩,
     ⟨2, 1, .rw, none, []⟩,
     ⟨4, 2, .rw, none, [(3, 3)]⟩]⟩,
  ⟨"LANEn_STATUS", 0x400004, 32, 0xc0, 1, 0, false,
    [⟨0, 1, .ro, none, []⟩,
     ⟨1, 1, .ro, none, []⟩,
     ⟨2, 1, .ro, none, []⟩,
     ⟨3, 1, .ro, none, []⟩,
     ⟨4, 2, .ro, none, []⟩,
     ⟨6, 1, .ro, none, []⟩,
     ⟨7, 1, .ro, none, []⟩,
     ⟨8, 1, .ro, none, []⟩,
     ⟨9, 1, .ro, none, []⟩]⟩,
  ⟨"LANEn_TXFFE", 0x400008, 32, 0xc0, 1, 0, false,
    [⟨0, 5, .rw, none, []⟩,
     ⟨5, 5, .rw, none, []⟩,
     ⟨10, 6, .rw, none, []⟩,
     ⟨16, 5, .rw, none, []⟩,
     ⟨24, 1, .rw, none, []⟩]⟩,
  ⟨"LANEn_EVENT", 0x40000c, 32, 0xc0, 1, 0, false,
    [⟨0, 1, .w1c, none, []⟩,
     ⟨1, 1, .w1c, none, []⟩,
     ⟨2, 1, .w1c, none, []⟩,
     ⟨3, 1, .w1c, none, []⟩,
     ⟨4, 1, .w1c, none, []⟩,
     ⟨5, 1, .w1c, none, []⟩]⟩,
  ⟨"LANEn_CTLE", 0x400010, 32, 0xc0, 1, 0, false,
    [⟨0, 5, .rw, none, []⟩,
     ⟨8, 1, .rw, none, []⟩,
     ⟨16, 5, .ro, none, []⟩]⟩,
  ⟨"LANEn_DFE", 0x400014, 32, 0xc0, 1, 0, false,
    [⟨0, 7, .rw, none, []⟩,
     ⟨8, 1, .rw, none, []⟩,
     ⟨16, 7, .ro, none, []⟩]⟩,
  ⟨"LANEn_CDR", 0x400018, 32, 0xc0, 1, 0, false,
    [⟨0, 4, .rw, none, []⟩,
     ⟨4, 3, .rw, none, []⟩,
     ⟨16, 16, .ro, none, []⟩]⟩,
  ⟨"LANEn_PRBS", 0x400020, 32, 0xc0, 1, 0, false,
    [⟨0, 3, .rw, none, [(7, 7)]⟩,
     ⟨3, 1, .rw, none, []⟩,
     ⟨4, 3, .rw, none, [(7, 7)]⟩,
     ⟨7, 1, .rw, none, []⟩,
     ⟨8, 1, .wo, none, []⟩,
     ⟨9, 1, .ro, none, []⟩]⟩,
  ⟨"LANEn_INJ", 0x400024, 32, 0xc0, 1, 0, false,
    [⟨0, 2, .rw, none, []⟩,
     ⟨2, 1, .wo, none, []⟩,
     ⟨3, 8, .rw, none, []⟩,
     ⟨11, 6, .rw, some (10, 40), []⟩]⟩,
  ⟨"LANEn_PRBS_ERR_LO", 0x400028, 32, 0xc0, 1, 0, false,
    [⟨0, 32, .ro, none, []⟩]⟩,
  ⟨"LANEn_PRBS_ERR_HI", 0x40002c, 32, 0xc0, 1, 0, false,
    [⟨0, 16, .ro, none, []⟩]⟩,
  ⟨"LANEn_PRBS_BITS_LO", 0x400030, 32, 0xc0, 1, 0, false,
    [⟨0, 32, .ro, none, []⟩]⟩,
  ⟨"LANEn_PRBS_BITS_HI", 0x400034, 32, 0xc0, 1, 0, false,
    [⟨0, 16, .ro, none, []⟩]⟩,
  ⟨"LANEn_FEC_CORR", 0x400038, 32, 0xc0, 1, 0, false,
    [⟨0, 32, .rc, none, []⟩]⟩,
  ⟨"LANEn_FEC_UNCORR", 0x40003c, 32, 0xc0, 1, 0, false,
    [⟨0, 32, .rc, none, []⟩]⟩,
  ⟨"LANEn_FEC_SYMERR", 0x400040, 32, 0xc0, 1, 0, false,
    [⟨0, 32, .rc, none, []⟩]⟩,
  ⟨"LANEn_FEC_HIGH", 0x400044, 32, 0xc0, 1, 0, false,
    [⟨0, 32, .rc, none, []⟩]⟩,
  ⟨"LANEn_SKEW", 0x400048, 32, 0xc0, 1, 0, false,
    [⟨0, 16, .ro, none, []⟩]⟩,
  ⟨"PORTn_CFG", 0x440000, 7, 0x100, 1, 0, false,
    [⟨0, 1, .rw, none, []⟩,
     ⟨1, 2, .rw, none, [(3, 3)]⟩,
     ⟨3, 2, .rw, none, [(3, 3)]⟩,
     ⟨5, 2, .rw, none, [(3, 3)]⟩,
     ⟨7, 2, .rw, none, []⟩,
     ⟨9, 1, .rw, none, []⟩]⟩,
  ⟨"PORTn_CTL", 0x440004, 7, 0x100, 1, 0, false,
    [⟨0, 1, .wo, none, []⟩,
     ⟨1, 1, .wo, none, []⟩]⟩,
  ⟨"PORTn_STATUS", 0x440008, 7, 0x100, 1, 0, false,
    [⟨0, 4, .ro, none, []⟩,
     ⟨4, 4, .ro, none, []⟩,
     ⟨8, 2, .ro, none, []⟩,
     ⟨10, 1, .ro, none, []⟩,
     ⟨11, 1, .ro, none, []⟩]⟩,
  ⟨"PORTn_PARTNER_SERIAL_LO", 0x44000c, 7, 0x100, 1, 0, false,
    [⟨0, 32, .ro, none, []⟩]⟩,
  ⟨"PORTn_PARTNER_SERIAL_HI", 0x440010, 7, 0x100, 1, 0, false,
    [⟨0, 32, .ro, none, []⟩]⟩,
  ⟨"PORTn_PARTNER_INFO", 0x440014, 7, 0x100, 1, 0, false,
    [⟨0, 2, .ro, none, []⟩,
     ⟨4, 4, .ro, none, []⟩,
     ⟨8, 3, .ro, none, []⟩,
     ⟨16, 3, .ro, none, []⟩]⟩,
  ⟨"PORTn_RETRAINS", 0x440018, 7, 0x100, 1, 0, false,
    [⟨0, 32, .rc, none, []⟩]⟩]

/-- Registers of spec/03_oaris_link.md. -/
def regs03_1 : List RegDef := [
  ⟨"PORTn_STOMPED", 0x44001c, 7, 0x100, 1, 0, false,
    [⟨0, 32, .rc, none, []⟩]⟩,
  ⟨"PORTn_FRAGMENTS", 0x440020, 7, 0x100, 1, 0, false,
    [⟨0, 32, .rc, none, []⟩]⟩,
  ⟨"PORTn_TRAIN_TIME", 0x440024, 7, 0x100, 1, 0, false,
    [⟨0, 32, .ro, none, []⟩]⟩,
  ⟨"PORT_TRAIN_TIMEOUT", 0x440700, 1, 0x0, 1, 0, false,
    [⟨0, 8, .rw, some (10, 200), []⟩]⟩,
  ⟨"PORT_RETRAIN_HOLDOFF", 0x440704, 1, 0x0, 1, 0, false,
    [⟨0, 10, .rw, some (1, 1000), []⟩]⟩,
  ⟨"PORT_DEGRADE", 0x440708, 1, 0x0, 1, 0, false,
    [⟨0, 24, .rw, none, []⟩]⟩]

/-- Registers of spec/04_ring_and_redundancy.md. -/
def regs04_0 : List RegDef := [
  ⟨"RING_CFG", 0x480000, 1, 0x0, 1, 0, false,
    [⟨0, 1, .rw, none, []⟩,
     ⟨1, 2, .rw, none, [(3, 3)]⟩,
     ⟨3, 1, .rw, none, []⟩,
     ⟨4, 1, .rw, none, []⟩]⟩,
  ⟨"RING_STATUS", 0x480004, 1, 0x0, 1, 0, false,
    [⟨0, 3, .ro, none, []⟩,
     ⟨3, 1, .ro, none, []⟩,
     ⟨4, 1, .ro, none, []⟩,
     ⟨5, 1, .ro, none, []⟩,
     ⟨6, 1, .ro, none, []⟩,
     ⟨7, 1, .ro, none, []⟩,
     ⟨8, 1, .ro, none, []⟩,
     ⟨9, 1, .ro, none, []⟩,
     ⟨10, 1, .ro, none, []⟩,
     ⟨11, 1, .ro, none, []⟩]⟩,
  ⟨"RING_TILE_STATUS", 0x480008, 1, 0x0, 1, 0, false,
    [⟨0, 8, .ro, none, []⟩,
     ⟨8, 3, .ro, none, []⟩,
     ⟨11, 1, .ro, none, []⟩,
     ⟨12, 1, .ro, none, []⟩,
     ⟨13, 1, .ro, none, []⟩,
     ⟨14, 1, .ro, none, []⟩,
     ⟨15, 1, .ro, none, []⟩,
     ⟨16, 8, .ro, none, []⟩]⟩,
  ⟨"RING_PORTMAP", 0x48000c, 1, 0x0, 1, 0, false,
    [⟨0, 21, .rw, none, []⟩]⟩,
  ⟨"RING_CTL", 0x480010, 1, 0x0, 1, 0, false,
    [⟨0, 1, .wo, none, []⟩,
     ⟨1, 1, .wo, none, []⟩,
     ⟨2, 1, .wo, none, []⟩]⟩,
  ⟨"RING_TIMING", 0x480014, 1, 0x0, 1, 0, false,
    [⟨0, 10, .rw, some (20, 1000), []⟩,
     ⟨10, 10, .rw, some (10, 1000), []⟩,
     ⟨20, 8, .rw, some (10, 255), []⟩]⟩,
  ⟨"RING_WALL", 0x480018, 1, 0x0, 1, 0, false,
    [⟨0, 11, .ro, none, []⟩]⟩,
  ⟨"RING_BW_SERIAL_LO", 0x480020, 1, 0x0, 1, 0, false,
    [⟨0, 32, .ro, none, []⟩]⟩,
  ⟨"RING_BW_SERIAL_HI", 0x480024, 1, 0x0, 1, 0, false,
    [⟨0, 32, .ro, none, []⟩]⟩,
  ⟨"RINGr_INFO", 0x480040, 6, 0x4, 1, 0, false,
    [⟨0, 8, .ro, none, []⟩,
     ⟨8, 8, .ro, none, []⟩,
     ⟨16, 1, .ro, none, []⟩,
     ⟨17, 1, .ro, none, []⟩,
     ⟨18, 1, .ro, none, []⟩,
     ⟨19, 1, .ro, none, []⟩]⟩,
  ⟨"RING_CRC_BAD", 0x480080, 1, 0x0, 1, 0, false,
    [⟨0, 32, .rc, none, []⟩]⟩,
  ⟨"RING_HDR_BAD", 0x480084, 1, 0x0, 1, 0, false,
    [⟨0, 32, .rc, none, []⟩]⟩,
  ⟨"RING_DUP", 0x480088, 1, 0x0, 1, 0, false,
    [⟨0, 32, .rc, none, []⟩]⟩,
  ⟨"RING_STALE", 0x48008c, 1, 0x0, 1, 0, false,
    [⟨0, 32, .rc, none, []⟩]⟩,
  ⟨"RING_TALLY_JUMP", 0x480090, 1, 0x0, 1, 0, false,
    [⟨0, 32, .rc, none, []⟩]⟩,
  ⟨"RING_GAP_LOST", 0x480094, 1, 0x0, 1, 0, false,
    [⟨0, 32, .rc, none, []⟩]⟩,
  ⟨"RING_COPY_MISMATCH", 0x480098, 1, 0x0, 1, 0, false,
    [⟨0, 32, .rc, none, []⟩]⟩,
  ⟨"RING_AUTH_FAIL", 0x48009c, 1, 0x0, 1, 0, false,
    [⟨0, 32, .rc, none, []⟩]⟩,
  ⟨"RING_FILL_REPLACED", 0x4800a0, 1, 0x0, 1, 0, false,
    [⟨0, 32, .rc, none, []⟩]⟩,
  ⟨"RING_DIGEST_MISMATCH", 0x4800a4, 1, 0x0, 1, 0, false,
    [⟨0, 32, .rc, none, []⟩]⟩,
  ⟨"RING_DIVERGENCES", 0x4800a8, 1, 0x0, 1, 0, false,
    [⟨0, 32, .rc, none, []⟩]⟩,
  ⟨"RING_TAKEOVERS", 0x4800ac, 1, 0x0, 1, 0, false,
    [⟨0, 32, .rc, none, []⟩]⟩,
  ⟨"RING_MIRROR_DOWN", 0x4800b0, 1, 0x0, 1, 0, false,
    [⟨0, 32, .rc, none, []⟩]⟩,
  ⟨"RING_COPY_LATE", 0x4800b4, 1, 0x0, 1, 0, false,
    [⟨0, 32, .rc, none, []⟩]⟩,
  ⟨"STREAMs_HIGH", 0x480200, 64, 0x4, 1, 0, false,
    [⟨0, 32, .ro, none, []⟩]⟩]

/-- Registers of spec/05_time.md. -/
def regs05_0 : List RegDef := [
  ⟨"TIME_CFG", 0x500000, 1, 0x0, 1, 0, false,
    [⟨0, 2, .rw, none, [(3, 3)]⟩,
     ⟨2, 1, .rw, none, []⟩,
     ⟨3, 1, .rw, none, []⟩]⟩,
  ⟨"TIME_CTL", 0x500004, 1, 0x0, 1, 0, false,
    [⟨0, 1, .wo, none, []⟩,
     ⟨1, 1, .wo, none, []⟩,
     ⟨2, 1, .wo, none, []⟩]⟩,
  ⟨"TIME_STATUS", 0x500008, 1, 0x0, 1, 0, false,
    [⟨0, 3, .ro, none, []⟩,
     ⟨4, 3, .ro, none, []⟩,
     ⟨7, 1, .ro, none, []⟩,
     ⟨8, 1, .ro, none, []⟩,
     ⟨9, 1, .ro, none, []⟩,
     ⟨16, 8, .ro, none, []⟩,
     ⟨24, 8, .ro, none, []⟩]⟩,
  ⟨"TIME_EVENT", 0x50000c, 1, 0x0, 1, 0, false,
    [⟨0, 1, .w1c, none, []⟩,
     ⟨1, 1, .w1c, none, []⟩,
     ⟨2, 1, .w1c, none, []⟩,
     ⟨3, 1, .w1c, none, []⟩,
     ⟨4, 1, .w1c, none, []⟩,
     ⟨5, 1, .w1c, none, []⟩]⟩,
  ⟨"TIME_CAP_SEC_LO", 0x500010, 1, 0x0, 1, 0, false,
    [⟨0, 32, .ro, none, []⟩]⟩,
  ⟨"TIME_CAP_SEC_HI", 0x500014, 1, 0x0, 1, 0, false,
    [⟨0, 32, .ro, none, []⟩]⟩,
  ⟨"TIME_CAP_NS", 0x500018, 1, 0x0, 1, 0, false,
    [⟨0, 30, .ro, none, []⟩]⟩,
  ⟨"TIME_CAP_FRAC", 0x50001c, 1, 0x0, 1, 0, false,
    [⟨0, 16, .ro, none, []⟩]⟩,
  ⟨"TIME_RATE", 0x500020, 1, 0x0, 1, 0, false,
    [⟨0, 32, .ro, none, []⟩]⟩,
  ⟨"TIME_OFFSET", 0x500024, 1, 0x0, 1, 0, false,
    [⟨0, 32, .ro, none, []⟩]⟩,
  ⟨"TIME_ERR", 0x500028, 1, 0x0, 1, 0, false,
    [⟨0, 32, .ro, none, []⟩]⟩,
  ⟨"TIME_EW_DIFF", 0x50002c, 1, 0x0, 1, 0, false,
    [⟨0, 32, .ro, none, []⟩]⟩,
  ⟨"TIME_SLEW", 0x500030, 1, 0x0, 1, 0, false,
    [⟨0, 9, .rw, some (1, 500), []⟩]⟩,
  ⟨"TIME_SERVO", 0x500034, 1, 0x0, 1, 0, false,
    [⟨0, 3, .rw, none, []⟩,
     ⟨4, 2, .rw, none, []⟩,
     ⟨8, 3, .rw, none, []⟩,
     ⟨16, 8, .rw, some (1, 255), []⟩]⟩,
  ⟨"TIME_PD_STEP", 0x500038, 1, 0x0, 1, 0, false,
    [⟨0, 10, .rw, some (1, 1000), []⟩]⟩,
  ⟨"TIME_LAG", 0x50003c, 1, 0x0, 1, 0, false,
    [⟨0, 32, .ro, none, []⟩]⟩,
  ⟨"TIME_FRAME", 0x500040, 1, 0x0, 1, 0, true,
    [⟨0, 5, .rw, none, []⟩,
     ⟨5, 3, .rw, none, []⟩]⟩,
  ⟨"TIME_FRAME_PHASE", 0x500044, 1, 0x0, 1, 0, true,
    [⟨0, 26, .rw, none, []⟩]⟩,
  ⟨"TIME_FRAME_COUNT_LO", 0x500048, 1, 0x0, 1, 0, false,
    [⟨0, 32, .ro, none, []⟩]⟩,
  ⟨"TIME_FRAME_COUNT_HI", 0x50004c, 1, 0x0, 1, 0, false,
    [⟨0, 32, .ro, none, []⟩]⟩,
  ⟨"TIME_SET_SEC_LO", 0x500050, 1, 0x0, 1, 0, false,
    [⟨0, 32, .rw, none, []⟩]⟩,
  ⟨"TIME_SET_SEC_HI", 0x500054, 1, 0x0, 1, 0, false,
    [⟨0, 32, .rw, none, []⟩]⟩,
  ⟨"TIME_UTC", 0x500058, 1, 0x0, 1, 0, false,
    [⟨0, 16, .rw, none, []⟩,
     ⟨16, 1, .rw, none, []⟩,
     ⟨17, 1, .rw, none, []⟩,
     ⟨18, 1, .rw, none, []⟩]⟩,
  ⟨"TIME_PTP_CFG", 0x500060, 1, 0x0, 1, 0, false,
    [⟨0, 7, .rw, none, []⟩,
     ⟨7, 1, .rw, none, []⟩,
     ⟨8, 2, .rw, none, []⟩,
     ⟨10, 1, .rw, none, []⟩,
     ⟨11, 1, .rw, none, []⟩,
     ⟨12, 12, .rw, none, []⟩,
     ⟨24, 1, .rw, none, []⟩]⟩,
  ⟨"TIME_PTP_INTV", 0x500064, 1, 0x0, 1, 0, false,
    [⟨0, 4, .rw, some (-7, -1), []⟩,
     ⟨4, 4, .rw, some (-3, 1), []⟩,
     ⟨8, 4, .rw, some (-7, -1), []⟩,
     ⟨12, 4, .rw, some (2, 10), []⟩,
     ⟨16, 8, .rw, none, []⟩,
     ⟨24, 8, .rw, none, []⟩]⟩]

/-- Registers of spec/05_time.md. -/
def regs05_1 : List RegDef := [
  ⟨"TIME_PTP_STATUS", 0x500068, 1, 0x0, 1, 0, false,
    [⟨0, 4, .ro, none, []⟩,
     ⟨8, 8, .ro, none, []⟩]⟩,
  ⟨"TIME_PTP_GM_ID_LO", 0x50006c, 1, 0x0, 1, 0, false,
    [⟨0, 32, .ro, none, []⟩]⟩,
  ⟨"TIME_PTP_GM_ID_HI", 0x500070, 1, 0x0, 1, 0, false,
    [⟨0, 32, .ro, none, []⟩]⟩,
  ⟨"TIME_PTP_MEANPATH", 0x500074, 1, 0x0, 1, 0, false,
    [⟨0, 32, .ro, none, []⟩]⟩,
  ⟨"TIME_CELL_LOST", 0x500080, 1, 0x0, 1, 0, false,
    [⟨0, 32, .rc, none, []⟩]⟩,
  ⟨"TIME_PD_TIMEOUT", 0x500084, 1, 0x0, 1, 0, false,
    [⟨0, 32, .rc, none, []⟩]⟩,
  ⟨"TIME_PPS_REJECT", 0x500088, 1, 0x0, 1, 0, false,
    [⟨0, 32, .rc, none, []⟩]⟩,
  ⟨"TIME_HELD", 0x50008c, 1, 0x0, 1, 0, false,
    [⟨0, 32, .rc, none, []⟩]⟩,
  ⟨"TIME_TEPOCH", 0x500090, 1, 0x0, 1, 0, false,
    [⟨0, 8, .ro, none, []⟩]⟩,
  ⟨"TIME_PORTp_TXLAT", 0x500100, 7, 0x10, 1, 0, false,
    [⟨0, 24, .rw, none, []⟩]⟩,
  ⟨"TIME_PORTp_RXLAT", 0x500104, 7, 0x10, 1, 0, false,
    [⟨0, 24, .rw, none, []⟩]⟩,
  ⟨"TIME_PORTp_PDELAY", 0x500108, 7, 0x10, 1, 0, false,
    [⟨0, 32, .ro, none, []⟩]⟩,
  ⟨"TIME_PORTp_PDSTAT", 0x50010c, 7, 0x10, 1, 0, false,
    [⟨0, 1, .ro, none, []⟩,
     ⟨1, 1, .ro, none, []⟩,
     ⟨2, 1, .w1c, none, []⟩]⟩,
  ⟨"TIME_ALARMa_CTL", 0x500400, 32, 0x10, 1, 0, false,
    [⟨0, 1, .rw, none, []⟩,
     ⟨1, 3, .rw, none, [(4, 7)]⟩,
     ⟨4, 2, .rw, none, [(3, 3)]⟩,
     ⟨8, 4, .rw, none, []⟩,
     ⟨16, 1, .w1c, none, []⟩,
     ⟨17, 1, .w1c, none, []⟩]⟩,
  ⟨"TIME_ALARMa_SEC", 0x500404, 32, 0x10, 1, 0, false,
    [⟨0, 32, .rw, none, []⟩]⟩,
  ⟨"TIME_ALARMa_OFFSET", 0x500408, 32, 0x10, 1, 0, false,
    [⟨0, 32, .rw, none, []⟩]⟩,
  ⟨"TIME_ALARMa_WIDTH", 0x50040c, 32, 0x10, 1, 0, false,
    [⟨0, 24, .rw, none, []⟩]⟩]

/-- Registers of spec/06_flocks.md. -/
def regs06_0 : List RegDef := [
  ⟨"FLOCK_STATUS", 0x540000, 1, 0x0, 1, 0, false,
    [⟨0, 7, .ro, none, []⟩,
     ⟨8, 1, .ro, none, []⟩,
     ⟨9, 1, .ro, none, []⟩,
     ⟨10, 1, .ro, none, []⟩]⟩,
  ⟨"FLOCK_EVENT", 0x540004, 1, 0x0, 1, 0, false,
    [⟨0, 1, .w1c, none, []⟩,
     ⟨1, 1, .w1c, none, []⟩,
     ⟨2, 1, .w1c, none, []⟩,
     ⟨3, 1, .w1c, none, []⟩,
     ⟨4, 1, .w1c, none, []⟩,
     ⟨5, 1, .w1c, none, []⟩]⟩,
  ⟨"FLOCK_CTL", 0x540008, 1, 0x0, 1, 0, false,
    [⟨0, 1, .wo, none, []⟩,
     ⟨1, 1, .wo, none, []⟩]⟩,
  ⟨"FLOCK_VOTE_WINDOW", 0x540010, 1, 0x0, 1, 0, false,
    [⟨0, 17, .rw, some (100, 100000), []⟩]⟩,
  ⟨"FLOCK_VOTE_GRACE", 0x540014, 1, 0x0, 1, 0, false,
    [⟨0, 10, .rw, some (10, 1000), []⟩]⟩,
  ⟨"FLOCK_GUARD", 0x540018, 1, 0x0, 1, 0, false,
    [⟨0, 16, .rw, some (100, 50000), []⟩]⟩,
  ⟨"FLOCK_OPEN_LIMIT", 0x54001c, 1, 0x0, 1, 0, false,
    [⟨0, 12, .rw, some (1, 3600), []⟩]⟩,
  ⟨"FLOCK_COMMITS", 0x540020, 1, 0x0, 1, 0, false,
    [⟨0, 32, .rc, none, []⟩]⟩,
  ⟨"FLOCK_ABORTS", 0x540024, 1, 0x0, 1, 0, false,
    [⟨0, 32, .rc, none, []⟩]⟩,
  ⟨"FLOCK_OOS_FRAMES", 0x540028, 1, 0x0, 1, 0, false,
    [⟨0, 32, .rc, none, []⟩]⟩,
  ⟨"FLOCK_LATE_VOTES", 0x54002c, 1, 0x0, 1, 0, false,
    [⟨0, 32, .rc, none, []⟩]⟩,
  ⟨"FLOCK_SEL", 0x540040, 1, 0x0, 1, 0, false,
    [⟨0, 6, .rw, none, []⟩]⟩,
  ⟨"FLOCK_SEL_T_LO", 0x540044, 1, 0x0, 1, 0, false,
    [⟨0, 32, .ro, none, []⟩]⟩,
  ⟨"FLOCK_SEL_T_HI", 0x540048, 1, 0x0, 1, 0, false,
    [⟨0, 32, .ro, none, []⟩]⟩,
  ⟨"FLOCK_SEL_DEADLINE_SEC", 0x54004c, 1, 0x0, 1, 0, false,
    [⟨0, 32, .ro, none, []⟩]⟩,
  ⟨"FLOCK_SEL_DEADLINE_NS", 0x540050, 1, 0x0, 1, 0, false,
    [⟨0, 30, .ro, none, []⟩]⟩,
  ⟨"FLOCK_SEL_VOTES", 0x540054, 1, 0x0, 1, 0, false,
    [⟨0, 16, .ro, none, []⟩,
     ⟨16, 16, .ro, none, []⟩]⟩,
  ⟨"FLOCK_SEL_ACKS", 0x540058, 1, 0x0, 1, 0, false,
    [⟨0, 16, .ro, none, []⟩,
     ⟨16, 16, .ro, none, []⟩]⟩,
  ⟨"FLOCK_SEL_NODE_LO", 0x54005c, 1, 0x0, 1, 0, false,
    [⟨0, 32, .ro, none, []⟩]⟩,
  ⟨"FLOCK_SEL_NODE_HI", 0x540060, 1, 0x0, 1, 0, false,
    [⟨0, 32, .ro, none, []⟩]⟩,
  ⟨"FLOCK_SEL_STAGED", 0x540064, 1, 0x0, 1, 0, false,
    [⟨0, 32, .ro, none, []⟩]⟩,
  ⟨"FLOCK_TXc_STATUS", 0x540080, 8, 0x4, 1, 0, false,
    [⟨0, 2, .ro, none, []⟩,
     ⟨2, 2, .ro, none, []⟩,
     ⟨4, 4, .ro, none, []⟩,
     ⟨8, 13, .ro, none, []⟩]⟩,
  ⟨"FLOCKs_INFO", 0x540100, 64, 0x4, 1, 0, false,
    [⟨0, 12, .ro, none, []⟩,
     ⟨12, 4, .ro, none, []⟩,
     ⟨16, 4, .ro, none, []⟩,
     ⟨20, 1, .ro, none, []⟩,
     ⟨21, 3, .ro, none, []⟩]⟩]

/-- Registers of spec/07_composition.md. -/
def regs07_0 : List RegDef := [
  ⟨"FOLDn_COMP_STATUS", 0x103000, 4, 0x40000, 1, 0, false,
    [⟨0, 1, .ro, none, []⟩,
     ⟨1, 1, .ro, none, []⟩,
     ⟨4, 2, .ro, none, []⟩]⟩,
  ⟨"FOLDn_COMP_TIME", 0x103004, 4, 0x40000, 1, 0, false,
    [⟨0, 32, .ro, none, []⟩]⟩,
  ⟨"FOLDn_COMP_LAMPS", 0x103008, 4, 0x40000, 1, 0, false,
    [⟨0, 32, .ro, none, []⟩]⟩,
  ⟨"FOLDn_COMP_CULLED", 0x10300c, 4, 0x40000, 1, 0, false,
    [⟨0, 32, .ro, none, []⟩]⟩,
  ⟨"FOLDn_COMP_FETCH", 0x103010, 4, 0x40000, 1, 0, false,
    [⟨0, 32, .ro, none, []⟩]⟩,
  ⟨"FOLDn_COMP_LATE", 0x103014, 4, 0x40000, 1, 0, false,
    [⟨0, 32, .rc, none, []⟩]⟩,
  ⟨"LAYERn_CTL", 0x200000, 16, 0x100, 1, 0, false,
    [⟨0, 1, .rw, none, []⟩,
     ⟨4, 4, .rw, none, []⟩,
     ⟨8, 2, .rw, none, [(3, 3)]⟩,
     ⟨10, 1, .rw, none, []⟩,
     ⟨11, 1, .rw, none, []⟩,
     ⟨12, 1, .rw, none, []⟩,
     ⟨13, 1, .rw, none, []⟩,
     ⟨16, 4, .rw, none, []⟩,
     ⟨20, 2, .rw, none, []⟩,
     ⟨22, 1, .rw, none, []⟩,
     ⟨24, 2, .rw, none, []⟩,
     ⟨26, 2, .rw, none, []⟩]⟩,
  ⟨"LAYERn_FORMAT", 0x200004, 16, 0x100, 1, 0, true,
    [⟨0, 8, .rw, none, []⟩]⟩,
  ⟨"LAYERn_SRC_SIZE", 0x200008, 16, 0x100, 1, 0, true,
    [⟨0, 16, .rw, none, []⟩,
     ⟨16, 16, .rw, none, []⟩]⟩,
  ⟨"LAYERn_ALPHA", 0x20000c, 16, 0x100, 1, 0, false,
    [⟨0, 17, .rw, some (0, 65536), []⟩]⟩,
  ⟨"LAYERn_DST_X0", 0x200010, 16, 0x100, 1, 0, false,
    [⟨0, 20, .rw, none, []⟩]⟩,
  ⟨"LAYERn_DST_Y0", 0x200014, 16, 0x100, 1, 0, false,
    [⟨0, 20, .rw, none, []⟩]⟩,
  ⟨"LAYERn_DST_X1", 0x200018, 16, 0x100, 1, 0, false,
    [⟨0, 20, .rw, none, []⟩]⟩,
  ⟨"LAYERn_DST_Y1", 0x20001c, 16, 0x100, 1, 0, false,
    [⟨0, 20, .rw, none, []⟩]⟩,
  ⟨"LAYERn_SRC_ORIGIN", 0x200020, 16, 0x100, 1, 0, false,
    [⟨0, 16, .rw, none, []⟩,
     ⟨16, 16, .rw, none, []⟩]⟩,
  ⟨"LAYERn_SRC_EXTENT", 0x200024, 16, 0x100, 1, 0, false,
    [⟨0, 16, .rw, none, []⟩,
     ⟨16, 16, .rw, none, []⟩]⟩,
  ⟨"LAYERn_CSCk", 0x200028, 16, 0x100, 12, 4, false,
    [⟨0, 20, .rw, none, []⟩]⟩,
  ⟨"LAYERn_HURDLE", 0x200058, 16, 0x100, 1, 0, false,
    [⟨0, 32, .ro, none, []⟩]⟩,
  ⟨"LAYERn_SHOWN", 0x20005c, 16, 0x100, 1, 0, false,
    [⟨0, 32, .ro, none, []⟩]⟩,
  ⟨"LAYERn_HURDLE_HELD", 0x200060, 16, 0x100, 1, 0, false,
    [⟨0, 32, .rc, none, []⟩]⟩,
  ⟨"LAYERn_MISSED", 0x200064, 16, 0x100, 1, 0, false,
    [⟨0, 32, .rc, none, []⟩]⟩,
  ⟨"LAYERn_CSTAT", 0x200068, 16, 0x100, 1, 0, false,
    [⟨0, 1, .ro, none, []⟩,
     ⟨1, 1, .ro, none, []⟩,
     ⟨2, 1, .ro, none, []⟩,
     ⟨3, 1, .ro, none, []⟩,
     ⟨4, 1, .ro, none, []⟩,
     ⟨5, 1, .ro, none, []⟩]⟩,
  ⟨"COMP_CTL", 0x201000, 1, 0x0, 1, 0, false,
    [⟨0, 1, .rw, none, []⟩,
     ⟨4, 3, .rw, none, []⟩]⟩,
  ⟨"COMP_LEAD", 0x201004, 1, 0x0, 1, 0, true,
    [⟨0, 16, .rw, none, []⟩]⟩,
  ⟨"HURDLE_MARGIN", 0x201008, 1, 0x0, 1, 0, false,
    [⟨0, 10, .rw, some (10, 1000), []⟩]⟩]

/-- Registers of spec/07_composition.md. -/
def regs07_1 : List RegDef := [
  ⟨"COMP_BG_R", 0x20100c, 1, 0x0, 1, 0, false,
    [⟨0, 20, .rw, none, []⟩]⟩,
  ⟨"COMP_BG_G", 0x201010, 1, 0x0, 1, 0, false,
    [⟨0, 20, .rw, none, []⟩]⟩,
  ⟨"COMP_BG_B", 0x201014, 1, 0x0, 1, 0, false,
    [⟨0, 20, .rw, none, []⟩]⟩,
  ⟨"COMP_STATUS", 0x201018, 1, 0x0, 1, 0, false,
    [⟨0, 1, .ro, none, []⟩,
     ⟨1, 1, .ro, none, []⟩,
     ⟨2, 1, .ro, none, []⟩]⟩,
  ⟨"COMP_WCSCk", 0x201020, 1, 0x0, 12, 4, false,
    [⟨0, 20, .rw, none, []⟩]⟩,
  ⟨"COMP_LATE", 0x201050, 1, 0x0, 1, 0, false,
    [⟨0, 32, .rc, none, []⟩]⟩,
  ⟨"COMP_HURDLE_LATE", 0x201054, 1, 0x0, 1, 0, false,
    [⟨0, 32, .rc, none, []⟩]⟩,
  ⟨"COMP_TABLE_FAULT", 0x201058, 1, 0x0, 1, 0, false,
    [⟨0, 32, .rc, none, []⟩]⟩,
  ⟨"HURDLE_STALE", 0x20105c, 1, 0x0, 1, 0, false,
    [⟨0, 32, .rc, none, []⟩]⟩,
  ⟨"COMP_GRPg_CTL", 0x201100, 4, 0x40, 1, 0, false,
    [⟨0, 1, .rw, none, []⟩,
     ⟨1, 2, .rw, none, []⟩,
     ⟨8, 1, .ro, none, []⟩]⟩,
  ⟨"COMP_GRPg_SIZE", 0x201104, 4, 0x40, 1, 0, false,
    [⟨0, 16, .rw, none, []⟩,
     ⟨16, 16, .rw, none, []⟩]⟩,
  ⟨"COMP_GRPg_Wk", 0x201108, 4, 0x40, 9, 4, false,
    [⟨0, 32, .rw, none, []⟩]⟩]

/-- Registers of spec/08_lamp_correction.md. -/
def regs08_0 : List RegDef := [
  ⟨"CORR_CTL", 0x640000, 1, 0x0, 1, 0, false,
    [⟨0, 1, .rw, none, []⟩,
     ⟨1, 1, .rw, none, []⟩,
     ⟨2, 2, .rw, none, [(3, 3)]⟩,
     ⟨4, 1, .wo, none, []⟩]⟩,
  ⟨"CORR_STATUS", 0x640004, 1, 0x0, 1, 0, false,
    [⟨0, 1, .ro, none, []⟩,
     ⟨1, 1, .ro, none, []⟩,
     ⟨2, 1, .ro, none, []⟩,
     ⟨3, 1, .ro, none, []⟩,
     ⟨4, 4, .ro, none, []⟩,
     ⟨8, 4, .ro, none, []⟩,
     ⟨12, 1, .ro, none, []⟩,
     ⟨16, 10, .ro, none, []⟩]⟩,
  ⟨"CORR_BRIGHT", 0x640008, 1, 0x0, 1, 0, false,
    [⟨0, 17, .rw, some (0, 65536), []⟩]⟩,
  ⟨"CORR_KNEE", 0x64000c, 1, 0x0, 1, 0, false,
    [⟨0, 16, .rw, some (1024, 61440), []⟩,
     ⟨16, 13, .rw, some (0, 4096), []⟩]⟩,
  ⟨"CORR_POSE_CFG", 0x640010, 1, 0x0, 1, 0, false,
    [⟨0, 10, .rw, some (10, 1000), []⟩,
     ⟨16, 10, .rw, none, []⟩]⟩,
  ⟨"CORR_TILE_OX", 0x640020, 1, 0x0, 1, 0, false,
    [⟨0, 32, .rw, none, []⟩]⟩,
  ⟨"CORR_TILE_OY", 0x640024, 1, 0x0, 1, 0, false,
    [⟨0, 32, .rw, none, []⟩]⟩,
  ⟨"CORR_TILE_OZ", 0x640028, 1, 0x0, 1, 0, false,
    [⟨0, 32, .rw, none, []⟩]⟩,
  ⟨"CORR_TILE_Mk", 0x64002c, 1, 0x0, 9, 4, false,
    [⟨0, 32, .rw, none, []⟩]⟩,
  ⟨"CORR_CAMc_X", 0x640060, 4, 0x10, 1, 0, false,
    [⟨0, 32, .ro, none, []⟩]⟩,
  ⟨"CORR_CAMc_Y", 0x640064, 4, 0x10, 1, 0, false,
    [⟨0, 32, .ro, none, []⟩]⟩,
  ⟨"CORR_CAMc_Z", 0x640068, 4, 0x10, 1, 0, false,
    [⟨0, 32, .ro, none, []⟩]⟩,
  ⟨"CORR_CAMc_EFFECTIVE", 0x64006c, 4, 0x10, 1, 0, false,
    [⟨0, 32, .ro, none, []⟩]⟩,
  ⟨"CORR_ENTRY_FAULT", 0x6400a0, 1, 0x0, 1, 0, false,
    [⟨0, 32, .rc, none, []⟩]⟩,
  ⟨"CORR_FIRST_FAULT", 0x6400a4, 1, 0x0, 1, 0, false,
    [⟨0, 20, .ro, none, []⟩,
     ⟨20, 2, .ro, none, []⟩,
     ⟨31, 1, .ro, none, []⟩]⟩,
  ⟨"CORR_PROFILE_FAULT", 0x6400a8, 1, 0x0, 1, 0, false,
    [⟨0, 32, .rc, none, []⟩]⟩,
  ⟨"CORR_POSE_LATE", 0x6400ac, 1, 0x0, 1, 0, false,
    [⟨0, 32, .rc, none, []⟩]⟩,
  ⟨"CORR_CLIPPED", 0x6400b0, 1, 0x0, 1, 0, false,
    [⟨0, 32, .ro, none, []⟩]⟩,
  ⟨"CORR_GRPg_BASE", 0x640100, 4, 0x40, 1, 0, false,
    [⟨0, 20, .rw, none, []⟩]⟩,
  ⟨"CORR_GRPg_PX", 0x640104, 4, 0x40, 1, 0, false,
    [⟨0, 32, .rw, none, []⟩]⟩,
  ⟨"CORR_GRPg_PY", 0x640108, 4, 0x40, 1, 0, false,
    [⟨0, 32, .rw, none, []⟩]⟩,
  ⟨"CORR_GRPg_PZ", 0x64010c, 4, 0x40, 1, 0, false,
    [⟨0, 32, .rw, none, []⟩]⟩,
  ⟨"CORR_GRPg_UX", 0x640110, 4, 0x40, 1, 0, false,
    [⟨0, 32, .rw, none, []⟩]⟩,
  ⟨"CORR_GRPg_UY", 0x640114, 4, 0x40, 1, 0, false,
    [⟨0, 32, .rw, none, []⟩]⟩,
  ⟨"CORR_GRPg_UZ", 0x640118, 4, 0x40, 1, 0, false,
    [⟨0, 32, .rw, none, []⟩]⟩]

/-- Registers of spec/08_lamp_correction.md. -/
def regs08_1 : List RegDef := [
  ⟨"CORR_GRPg_VX", 0x64011c, 4, 0x40, 1, 0, false,
    [⟨0, 32, .rw, none, []⟩]⟩,
  ⟨"CORR_GRPg_VY", 0x640120, 4, 0x40, 1, 0, false,
    [⟨0, 32, .rw, none, []⟩]⟩,
  ⟨"CORR_GRPg_VZ", 0x640124, 4, 0x40, 1, 0, false,
    [⟨0, 32, .rw, none, []⟩]⟩,
  ⟨"CORR_GRPg_NX", 0x640128, 4, 0x40, 1, 0, false,
    [⟨0, 32, .rw, none, []⟩]⟩,
  ⟨"CORR_GRPg_NY", 0x64012c, 4, 0x40, 1, 0, false,
    [⟨0, 32, .rw, none, []⟩]⟩,
  ⟨"CORR_GRPg_NZ", 0x640130, 4, 0x40, 1, 0, false,
    [⟨0, 32, .rw, none, []⟩]⟩,
  ⟨"CORR_GRPg_EX", 0x640134, 4, 0x40, 1, 0, false,
    [⟨0, 32, .rw, none, []⟩]⟩,
  ⟨"CORR_GRPg_EY", 0x640138, 4, 0x40, 1, 0, false,
    [⟨0, 32, .rw, none, []⟩]⟩,
  ⟨"CORR_GRPg_EZ", 0x64013c, 4, 0x40, 1, 0, false,
    [⟨0, 32, .rw, none, []⟩]⟩]

/-- Registers of spec/09_lamp_bus.md. -/
def regs09_0 : List RegDef := [
  ⟨"LAMP_CTL", 0x600000, 1, 0x0, 1, 0, false,
    [⟨0, 1, .wo, none, []⟩,
     ⟨1, 1, .wo, none, []⟩,
     ⟨2, 1, .rw, none, []⟩]⟩,
  ⟨"LAMP_STATUS", 0x600004, 1, 0x0, 1, 0, false,
    [⟨0, 1, .ro, none, []⟩,
     ⟨1, 1, .ro, none, []⟩,
     ⟨2, 1, .ro, none, []⟩,
     ⟨3, 1, .w1c, none, []⟩,
     ⟨4, 1, .w1c, none, []⟩,
     ⟨5, 1, .w1c, none, []⟩,
     ⟨8, 4, .ro, none, []⟩,
     ⟨12, 4, .ro, none, []⟩]⟩,
  ⟨"LAMP_TIMING", 0x600008, 1, 0x0, 1, 0, false,
    [⟨0, 10, .rw, some (5, 1000), []⟩,
     ⟨10, 10, .rw, some (1, 1023), []⟩,
     ⟨20, 10, .rw, some (5, 1000), []⟩]⟩,
  ⟨"LAMP_DIAG_CFG", 0x60000c, 1, 0x0, 1, 0, false,
    [⟨0, 1, .rw, none, []⟩,
     ⟨1, 4, .rw, some (1, 10), []⟩,
     ⟨5, 2, .rw, none, []⟩]⟩,
  ⟨"LAMP_DIAG_MIN_ON", 0x600010, 1, 0x0, 1, 0, false,
    [⟨0, 10, .rw, some (20, 1000), []⟩]⟩,
  ⟨"LAMP_DIAG_MAX_AGE", 0x600014, 1, 0x0, 1, 0, false,
    [⟨0, 16, .rw, none, []⟩]⟩,
  ⟨"LAMP_DIAG_FRAME", 0x600018, 1, 0x0, 1, 0, false,
    [⟨0, 32, .ro, none, []⟩]⟩,
  ⟨"LAMP_DIAG_OPEN", 0x60001c, 1, 0x0, 1, 0, false,
    [⟨0, 32, .ro, none, []⟩]⟩,
  ⟨"LAMP_DIAG_SHORT", 0x600020, 1, 0x0, 1, 0, false,
    [⟨0, 32, .ro, none, []⟩]⟩,
  ⟨"LAMP_DIAG_UNKNOWN", 0x600024, 1, 0x0, 1, 0, false,
    [⟨0, 32, .ro, none, []⟩]⟩,
  ⟨"LAMP_REFRESH", 0x600028, 1, 0x0, 1, 0, false,
    [⟨0, 16, .rw, none, []⟩]⟩,
  ⟨"LAMP_SWAPS", 0x600040, 1, 0x0, 1, 0, false,
    [⟨0, 32, .rc, none, []⟩]⟩,
  ⟨"LAMP_GRPg_CFG", 0x600100, 4, 0x40, 1, 0, true,
    [⟨0, 1, .rw, none, []⟩,
     ⟨1, 2, .rw, none, []⟩,
     ⟨4, 4, .rw, none, []⟩,
     ⟨8, 2, .rw, none, []⟩]⟩,
  ⟨"LAMP_GRPg_DARK", 0x600104, 4, 0x40, 1, 0, true,
    [⟨0, 20, .rw, some (0, 1000000), []⟩]⟩,
  ⟨"LAMP_GRPg_ADVANCE", 0x600108, 4, 0x40, 1, 0, false,
    [⟨0, 10, .rw, some (0, 1000), []⟩]⟩,
  ⟨"LAMP_GRPg_STATUS", 0x60010c, 4, 0x40, 1, 0, false,
    [⟨0, 16, .ro, none, []⟩,
     ⟨16, 1, .ro, none, []⟩,
     ⟨17, 1, .ro, none, []⟩,
     ⟨18, 1, .w1c, none, []⟩]⟩,
  ⟨"LAMP_GRPg_DIAG_BASE", 0x600110, 4, 0x40, 1, 0, false,
    [⟨0, 20, .rw, none, []⟩]⟩,
  ⟨"LAMP_GRPg_HOLDS", 0x600114, 4, 0x40, 1, 0, false,
    [⟨0, 32, .rc, none, []⟩]⟩,
  ⟨"LAMP_GRPg_BLACK_FRAMES", 0x600118, 4, 0x40, 1, 0, false,
    [⟨0, 32, .rc, none, []⟩]⟩,
  ⟨"LAMP_PORTp_CFG", 0x600400, 16, 0x40, 1, 0, true,
    [⟨0, 1, .rw, none, []⟩,
     ⟨1, 2, .rw, none, []⟩,
     ⟨3, 1, .rw, none, []⟩,
     ⟨4, 4, .rw, none, []⟩]⟩,
  ⟨"LAMP_PORTp_MAP0", 0x600404, 16, 0x40, 1, 0, true,
    [⟨0, 12, .rw, none, []⟩,
     ⟨12, 12, .rw, none, []⟩]⟩,
  ⟨"LAMP_PORTp_MAP1", 0x600408, 16, 0x40, 1, 0, true,
    [⟨0, 6, .rw, none, []⟩,
     ⟨6, 6, .rw, none, []⟩,
     ⟨12, 6, .rw, none, []⟩,
     ⟨18, 6, .rw, none, []⟩]⟩,
  ⟨"LAMP_PORTp_STATUS", 0x60040c, 16, 0x40, 1, 0, false,
    [⟨0, 1, .ro, none, []⟩,
     ⟨1, 7, .ro, none, []⟩,
     ⟨8, 1, .ro, none, []⟩,
     ⟨9, 1, .ro, none, []⟩,
     ⟨10, 1, .ro, none, []⟩,
     ⟨11, 1, .ro, none, []⟩,
     ⟨16, 11, .ro, none, []⟩]⟩,
  ⟨"LAMP_PORTp_WM", 0x600410, 16, 0x40, 1, 0, false,
    [⟨0, 10, .rw, some (16, 768), []⟩]⟩,
  ⟨"LAMP_PORTp_SKEW", 0x600414, 16, 0x40, 1, 0, false,
    [⟨0, 8, .rw, none, []⟩,
     ⟨8, 8, .rw, none, []⟩,
     ⟨16, 8, .rw, none, []⟩,
     ⟨24, 8, .rw, none, []⟩]⟩]

/-- Registers of spec/09_lamp_bus.md. -/
def regs09_1 : List RegDef := [
  ⟨"LAMP_PORTp_PADERR", 0x600418, 16, 0x40, 1, 0, false,
    [⟨0, 32, .rc, none, []⟩]⟩,
  ⟨"LAMP_PORTp_DRV_CRC", 0x60041c, 16, 0x40, 1, 0, false,
    [⟨0, 32, .rc, none, []⟩]⟩,
  ⟨"LAMP_PORTp_STARVED", 0x600420, 16, 0x40, 1, 0, false,
    [⟨0, 32, .rc, none, []⟩]⟩,
  ⟨"LAMP_PORTp_TIMEOUTS", 0x600424, 16, 0x40, 1, 0, false,
    [⟨0, 32, .rc, none, []⟩]⟩,
  ⟨"LAMP_PORTp_SLIPS", 0x600428, 16, 0x40, 1, 0, false,
    [⟨0, 32, .rc, none, []⟩]⟩,
  ⟨"LAMP_PORTp_BREAK_HOP", 0x60042c, 16, 0x40, 1, 0, false,
    [⟨0, 6, .ro, none, []⟩]⟩,
  ⟨"LAMP_CRCr_CTL", 0x600800, 16, 0x20, 1, 0, false,
    [⟨0, 1, .rw, none, []⟩,
     ⟨1, 2, .rw, none, []⟩,
     ⟨3, 1, .rw, none, []⟩,
     ⟨4, 2, .rw, none, []⟩,
     ⟨6, 1, .rw, none, []⟩,
     ⟨8, 1, .w1c, none, []⟩,
     ⟨9, 1, .ro, none, []⟩]⟩,
  ⟨"LAMP_CRCr_ORIGIN", 0x600804, 16, 0x20, 1, 0, false,
    [⟨0, 16, .rw, none, []⟩,
     ⟨16, 16, .rw, none, []⟩]⟩,
  ⟨"LAMP_CRCr_EXTENT", 0x600808, 16, 0x20, 1, 0, false,
    [⟨0, 16, .rw, none, []⟩,
     ⟨16, 16, .rw, none, []⟩]⟩,
  ⟨"LAMP_CRCr_EXPECTED", 0x60080c, 16, 0x20, 1, 0, false,
    [⟨0, 32, .rw, none, []⟩]⟩,
  ⟨"LAMP_CRCr_RESULT", 0x600810, 16, 0x20, 1, 0, false,
    [⟨0, 32, .ro, none, []⟩]⟩,
  ⟨"LAMP_CRCr_MISMATCHES", 0x600814, 16, 0x20, 1, 0, false,
    [⟨0, 32, .rc, none, []⟩]⟩]

/-- Registers of spec/10_korty_model.md. -/
def regs10_0 : List RegDef := [
  ⟨"FOLDn_CTL", 0x100000, 4, 0x40000, 1, 0, false,
    [⟨0, 1, .rw, none, []⟩,
     ⟨1, 1, .wo, none, []⟩,
     ⟨2, 1, .wo, none, []⟩,
     ⟨3, 1, .wo, none, []⟩,
     ⟨4, 1, .rw, none, []⟩,
     ⟨5, 1, .wo, none, []⟩]⟩,
  ⟨"FOLDn_STATUS", 0x100004, 4, 0x40000, 1, 0, false,
    [⟨0, 2, .ro, none, []⟩,
     ⟨2, 1, .ro, none, []⟩,
     ⟨3, 1, .ro, none, []⟩,
     ⟨4, 3, .ro, none, []⟩,
     ⟨7, 1, .ro, none, []⟩,
     ⟨8, 8, .ro, none, []⟩,
     ⟨16, 13, .ro, none, []⟩]⟩,
  ⟨"FOLDn_ENTRY", 0x100008, 4, 0x40000, 1, 0, false,
    [⟨0, 13, .rw, none, []⟩]⟩,
  ⟨"FOLDn_FAULT", 0x10000c, 4, 0x40000, 1, 0, false,
    [⟨0, 5, .ro, none, []⟩,
     ⟨8, 13, .ro, none, []⟩,
     ⟨21, 2, .ro, none, []⟩]⟩,
  ⟨"FOLDn_PACE", 0x100010, 4, 0x40000, 1, 0, false,
    [⟨0, 5, .ro, none, []⟩]⟩,
  ⟨"FOLDn_PROG_TAG", 0x100014, 4, 0x40000, 1, 0, false,
    [⟨0, 32, .rw, none, []⟩]⟩,
  ⟨"FOLDn_PROG_TAG_NOW", 0x100018, 4, 0x40000, 1, 0, false,
    [⟨0, 32, .ro, none, []⟩]⟩,
  ⟨"FOLDn_ARG", 0x10001c, 4, 0x40000, 1, 0, false,
    [⟨0, 32, .rw, none, []⟩]⟩,
  ⟨"FOLDn_QINITj_LO", 0x100020, 4, 0x40000, 4, 8, false,
    [⟨0, 32, .rw, none, []⟩]⟩,
  ⟨"FOLDn_QINITj_HI", 0x100024, 4, 0x40000, 4, 8, false,
    [⟨0, 32, .rw, none, []⟩]⟩,
  ⟨"FOLDn_RUNS", 0x100040, 4, 0x40000, 1, 0, false,
    [⟨0, 32, .rc, none, []⟩]⟩,
  ⟨"FOLDn_OVERRUNS", 0x100044, 4, 0x40000, 1, 0, false,
    [⟨0, 32, .rc, none, []⟩]⟩,
  ⟨"FOLDn_FAULTS", 0x100048, 4, 0x40000, 1, 0, false,
    [⟨0, 32, .rc, none, []⟩]⟩,
  ⟨"FOLDn_TRAPS", 0x10004c, 4, 0x40000, 1, 0, false,
    [⟨0, 32, .rc, none, []⟩]⟩,
  ⟨"FOLDn_TRAP_CODE", 0x100050, 4, 0x40000, 1, 0, false,
    [⟨0, 16, .ro, none, []⟩]⟩,
  ⟨"FOLDn_STEPS", 0x100054, 4, 0x40000, 1, 0, false,
    [⟨0, 32, .ro, none, []⟩]⟩,
  ⟨"FOLDn_IDLE", 0x100058, 4, 0x40000, 1, 0, false,
    [⟨0, 32, .ro, none, []⟩]⟩]

/-- Registers of spec/12_hosts_and_tickets.md. -/
def regs12_0 : List RegDef := [
  ⟨"CTXn_BIND", 0x10000, 8, 0x1000, 1, 0, false,
    [⟨0, 2, .rwp, none, []⟩,
     ⟨4, 3, .rwp, none, []⟩]⟩,
  ⟨"CTXn_RIGHTS_RD", 0x10008, 8, 0x1000, 1, 0, false,
    [⟨0, 21, .rwp, none, []⟩]⟩,
  ⟨"CTXn_RIGHTS_WR", 0x10010, 8, 0x1000, 1, 0, false,
    [⟨0, 21, .rwp, none, []⟩]⟩,
  ⟨"CTXn_RIGHTS_CMD", 0x10018, 8, 0x1000, 1, 0, false,
    [⟨0, 6, .rwp, none, []⟩]⟩,
  ⟨"CTXn_SQ_TAIL", 0x10020, 8, 0x1000, 1, 0, false,
    [⟨0, 12, .rw, none, []⟩]⟩,
  ⟨"CTXn_SQ_HEAD", 0x10024, 8, 0x1000, 1, 0, false,
    [⟨0, 12, .ro, none, []⟩]⟩,
  ⟨"CTXn_CQ_HEAD", 0x10028, 8, 0x1000, 1, 0, false,
    [⟨0, 13, .rw, none, []⟩]⟩,
  ⟨"CTXn_CQ_TAIL", 0x1002c, 8, 0x1000, 1, 0, false,
    [⟨0, 13, .ro, none, []⟩]⟩,
  ⟨"CTXn_STATUS", 0x10030, 8, 0x1000, 1, 0, false,
    [⟨0, 1, .ro, none, []⟩,
     ⟨1, 1, .ro, none, []⟩,
     ⟨2, 1, .ro, none, []⟩]⟩,
  ⟨"CTXn_FAULT", 0x10034, 8, 0x1000, 1, 0, false,
    [⟨0, 1, .w1c, none, []⟩,
     ⟨1, 1, .w1c, none, []⟩,
     ⟨2, 1, .w1c, none, []⟩,
     ⟨3, 1, .w1c, none, []⟩,
     ⟨4, 1, .w1c, none, []⟩,
     ⟨5, 1, .w1c, none, []⟩]⟩,
  ⟨"CTXn_IRQ_CAUSE", 0x10038, 8, 0x1000, 1, 0, false,
    [⟨0, 1, .w1c, none, []⟩,
     ⟨1, 1, .w1c, none, []⟩,
     ⟨2, 1, .w1c, none, []⟩,
     ⟨3, 1, .w1c, none, []⟩,
     ⟨4, 1, .w1c, none, []⟩,
     ⟨5, 1, .w1c, none, []⟩,
     ⟨6, 1, .w1c, none, []⟩,
     ⟨7, 1, .w1c, none, []⟩,
     ⟨8, 1, .w1c, none, []⟩,
     ⟨9, 1, .w1c, none, []⟩,
     ⟨10, 1, .w1c, none, []⟩]⟩,
  ⟨"CTXn_IRQ_MASK", 0x1003c, 8, 0x1000, 1, 0, false,
    [⟨0, 1, .rw, none, []⟩,
     ⟨1, 1, .rw, none, []⟩,
     ⟨2, 1, .rw, none, []⟩,
     ⟨3, 1, .rw, none, []⟩,
     ⟨4, 1, .rw, none, []⟩,
     ⟨5, 1, .rw, none, []⟩,
     ⟨6, 1, .rw, none, []⟩,
     ⟨7, 1, .rw, none, []⟩,
     ⟨8, 1, .rw, none, []⟩,
     ⟨9, 1, .rw, none, []⟩,
     ⟨10, 1, .rw, none, []⟩]⟩,
  ⟨"CTXn_EPOCH", 0x10040, 8, 0x1000, 1, 0, false,
    [⟨0, 32, .ro, none, []⟩]⟩,
  ⟨"CTXn_NEXT_TICKET", 0x10044, 8, 0x1000, 1, 0, false,
    [⟨0, 32, .ro, none, []⟩]⟩,
  ⟨"CTXn_INFLIGHT", 0x10048, 8, 0x1000, 1, 0, false,
    [⟨0, 17, .ro, none, []⟩]⟩,
  ⟨"CTXn_PEER", 0x10050, 8, 0x1000, 1, 0, false,
    [⟨0, 32, .rw, none, []⟩]⟩,
  ⟨"CTXn_ACCEPTED", 0x10060, 8, 0x1000, 1, 0, false,
    [⟨0, 32, .rc, none, []⟩]⟩,
  ⟨"CTXn_REJECTED", 0x10064, 8, 0x1000, 1, 0, false,
    [⟨0, 32, .rc, none, []⟩]⟩,
  ⟨"CTXn_LATE", 0x10068, 8, 0x1000, 1, 0, false,
    [⟨0, 32, .rc, none, []⟩]⟩,
  ⟨"CTXn_DISCARDED", 0x1006c, 8, 0x1000, 1, 0, false,
    [⟨0, 32, .rc, none, []⟩]⟩,
  ⟨"HOST_MGMT_CFG", 0x18000, 1, 0x0, 1, 0, false,
    [⟨0, 1, .rw, none, []⟩]⟩,
  ⟨"HOST_MGMT_IP", 0x18004, 1, 0x0, 1, 0, false,
    [⟨0, 32, .rw, none, []⟩]⟩,
  ⟨"HOST_MGMT_PORT", 0x18008, 1, 0x0, 1, 0, false,
    [⟨0, 16, .rw, none, []⟩]⟩,
  ⟨"HOST_JOURNAL", 0x18010, 1, 0x0, 1, 0, false,
    [⟨0, 17, .ro, none, []⟩]⟩,
  ⟨"HOST_PEER_JOURNAL", 0x18014, 1, 0x0, 1, 0, false,
    [⟨0, 17, .ro, none, []⟩]⟩]

/-- Registers of spec/13_frame_memory.md. -/
def regs13_0 : List RegDef := [
  ⟨"MEM_CFG", 0x700000, 1, 0x0, 1, 0, false,
    [⟨0, 4, .ro, none, []⟩,
     ⟨4, 1, .ro, none, []⟩,
     ⟨5, 2, .ro, none, []⟩,
     ⟨8, 9, .ro, none, []⟩]⟩,
  ⟨"MEM_CTL", 0x700004, 1, 0x0, 1, 0, false,
    [⟨0, 1, .wo, none, []⟩,
     ⟨1, 1, .rw, none, []⟩,
     ⟨2, 1, .wo, none, []⟩]⟩,
  ⟨"MEM_STATUS", 0x700008, 1, 0x0, 1, 0, false,
    [⟨0, 1, .ro, none, []⟩,
     ⟨1, 1, .w1c, none, []⟩,
     ⟨2, 1, .w1c, none, []⟩,
     ⟨3, 1, .ro, none, []⟩,
     ⟨4, 1, .ro, none, []⟩,
     ⟨5, 1, .ro, none, []⟩,
     ⟨6, 1, .w1c, none, []⟩]⟩,
  ⟨"MEM_REGION", 0x70000c, 1, 0x0, 1, 0, false,
    [⟨0, 8, .rw, none, []⟩,
     ⟨16, 8, .ro, none, []⟩]⟩,
  ⟨"MEM_SCRUB", 0x700010, 1, 0x0, 1, 0, false,
    [⟨0, 8, .rw, some (1, 168), []⟩]⟩,
  ⟨"MEM_BUDGET", 0x700014, 1, 0x0, 1, 0, false,
    [⟨0, 7, .rw, some (25, 95), []⟩]⟩,
  ⟨"MEM_ERR_INFO", 0x700020, 1, 0x0, 1, 0, false,
    [⟨0, 3, .ro, none, []⟩,
     ⟨3, 1, .ro, none, []⟩,
     ⟨4, 3, .ro, none, []⟩,
     ⟨7, 1, .ro, none, []⟩,
     ⟨8, 3, .ro, none, []⟩,
     ⟨31, 1, .ro, none, []⟩]⟩,
  ⟨"MEM_ERR_ADDR_LO", 0x700024, 1, 0x0, 1, 0, false,
    [⟨6, 26, .ro, none, []⟩]⟩,
  ⟨"MEM_ERR_ADDR_HI", 0x700028, 1, 0x0, 1, 0, false,
    [⟨0, 6, .ro, none, []⟩]⟩,
  ⟨"MEM_CE", 0x700030, 1, 0x0, 1, 0, false,
    [⟨0, 32, .rc, none, []⟩]⟩,
  ⟨"MEM_UE", 0x700034, 1, 0x0, 1, 0, false,
    [⟨0, 32, .rc, none, []⟩]⟩,
  ⟨"MEM_SCRUB_PASSES", 0x700038, 1, 0x0, 1, 0, false,
    [⟨0, 32, .rc, none, []⟩]⟩,
  ⟨"MEM_SCRUB_POS_LO", 0x70003c, 1, 0x0, 1, 0, false,
    [⟨6, 26, .ro, none, []⟩]⟩,
  ⟨"MEM_SCRUB_POS_HI", 0x700040, 1, 0x0, 1, 0, false,
    [⟨0, 6, .ro, none, []⟩]⟩,
  ⟨"MEM_DEMAND", 0x700044, 1, 0x0, 1, 0, false,
    [⟨0, 32, .ro, none, []⟩]⟩,
  ⟨"MEM_CLASSc_GRANTS", 0x700108, 7, 0x8, 1, 0, false,
    [⟨0, 32, .rc, none, []⟩]⟩,
  ⟨"MEM_CLASSc_WAIT_MAX", 0x70010c, 7, 0x8, 1, 0, false,
    [⟨0, 32, .ro, none, []⟩]⟩,
  ⟨"MEM_CHn_STATUS", 0x700200, 8, 0x10, 1, 0, false,
    [⟨0, 1, .ro, none, []⟩,
     ⟨1, 1, .ro, none, []⟩,
     ⟨2, 1, .ro, none, []⟩,
     ⟨3, 1, .ro, none, []⟩]⟩,
  ⟨"MEM_CHn_CE", 0x700204, 8, 0x10, 1, 0, false,
    [⟨0, 32, .rc, none, []⟩]⟩,
  ⟨"MEM_CHn_UE", 0x700208, 8, 0x10, 1, 0, false,
    [⟨0, 32, .rc, none, []⟩]⟩,
  ⟨"MEM_CHn_TRACK", 0x70020c, 8, 0x10, 1, 0, false,
    [⟨0, 32, .rc, none, []⟩]⟩]

/-- Registers of spec/14_clock_islands.md. -/
def regs14_0 : List RegDef := [
  ⟨"XING_CTL", 0x400, 1, 0x0, 1, 0, false,
    [⟨0, 1, .wo, none, []⟩]⟩,
  ⟨"ISLAND_STATUS", 0x404, 1, 0x0, 1, 0, false,
    [⟨0, 9, .ro, none, []⟩,
     ⟨16, 9, .ro, none, []⟩]⟩,
  ⟨"XING_LOST", 0x408, 1, 0x0, 1, 0, false,
    [⟨0, 32, .rc, none, []⟩]⟩,
  ⟨"XING_OVERRUNS", 0x40c, 1, 0x0, 1, 0, false,
    [⟨0, 32, .rc, none, []⟩]⟩,
  ⟨"XING_CONFLICTS", 0x410, 1, 0x0, 1, 0, false,
    [⟨0, 32, .rc, none, []⟩]⟩,
  ⟨"XING_CONFLICT_INFO", 0x414, 1, 0x0, 1, 0, false,
    [⟨0, 3, .ro, none, []⟩,
     ⟨8, 5, .ro, none, []⟩,
     ⟨16, 3, .ro, none, []⟩,
     ⟨19, 1, .ro, none, []⟩,
     ⟨31, 1, .ro, none, []⟩]⟩,
  ⟨"XING_ACK_LIMIT", 0x418, 1, 0x0, 1, 0, false,
    [⟨0, 16, .rw, some (300, 65535), []⟩]⟩,
  ⟨"XINGi_STATUS", 0x440, 9, 0x10, 1, 0, false,
    [⟨0, 1, .ro, none, []⟩,
     ⟨1, 1, .ro, none, []⟩,
     ⟨2, 1, .w1c, none, []⟩,
     ⟨3, 1, .w1c, none, []⟩,
     ⟨4, 1, .w1c, none, []⟩,
     ⟨5, 1, .w1c, none, []⟩,
     ⟨6, 1, .w1c, none, []⟩]⟩,
  ⟨"XINGi_OVERRUNS", 0x444, 9, 0x10, 1, 0, false,
    [⟨0, 32, .rc, none, []⟩]⟩,
  ⟨"XINGi_LOST", 0x448, 9, 0x10, 1, 0, false,
    [⟨0, 32, .rc, none, []⟩]⟩,
  ⟨"XINGi_FORCED", 0x44c, 9, 0x10, 1, 0, false,
    [⟨0, 32, .rc, none, []⟩]⟩]

/-- Registers of spec/15_thermal_and_calibration.md. -/
def regs15_0 : List RegDef := [
  ⟨"THERM_CFG", 0x780000, 1, 0x0, 1, 0, false,
    [⟨0, 2, .rw, none, [(3, 3)]⟩,
     ⟨8, 8, .rw, some (1, 255), []⟩]⟩,
  ⟨"THERM_STATUS", 0x780004, 1, 0x0, 1, 0, false,
    [⟨0, 1, .ro, none, []⟩,
     ⟨1, 1, .ro, none, []⟩,
     ⟨2, 1, .ro, none, []⟩,
     ⟨3, 1, .ro, none, []⟩,
     ⟨4, 1, .ro, none, []⟩,
     ⟨5, 1, .ro, none, []⟩,
     ⟨8, 3, .ro, none, []⟩,
     ⟨16, 6, .ro, none, []⟩,
     ⟨24, 3, .ro, none, []⟩]⟩,
  ⟨"THERM_EVENT", 0x780008, 1, 0x0, 1, 0, false,
    [⟨0, 1, .w1c, none, []⟩,
     ⟨1, 1, .w1c, none, []⟩,
     ⟨2, 1, .w1c, none, []⟩,
     ⟨3, 1, .w1c, none, []⟩,
     ⟨4, 1, .w1c, none, []⟩,
     ⟨5, 1, .w1c, none, []⟩,
     ⟨6, 1, .w1c, none, []⟩,
     ⟨7, 1, .w1c, none, []⟩,
     ⟨8, 1, .w1c, none, []⟩]⟩,
  ⟨"THERM_CTL", 0x78000c, 1, 0x0, 1, 0, false,
    [⟨0, 1, .wo, none, []⟩]⟩,
  ⟨"THERM_THROTTLE_DIV", 0x780010, 1, 0x0, 1, 0, false,
    [⟨0, 2, .rw, none, []⟩]⟩,
  ⟨"THERM_LIMITS", 0x780014, 1, 0x0, 1, 0, false,
    [⟨0, 8, .rw, some (60, 95), []⟩,
     ⟨8, 8, .rw, some (65, 100), []⟩,
     ⟨16, 8, .ro, none, []⟩]⟩,
  ⟨"THERM_THROTTLE", 0x780018, 1, 0x0, 1, 0, false,
    [⟨0, 5, .rw, some (4, 16), []⟩,
     ⟨8, 5, .rw, some (4, 16), []⟩,
     ⟨16, 8, .rw, some (1, 255), []⟩]⟩,
  ⟨"THERM_SENSOR_TRIM", 0x78001c, 1, 0x0, 1, 0, false,
    [⟨0, 16, .rw, none, []⟩,
     ⟨16, 16, .rw, none, []⟩]⟩,
  ⟨"THERM_BOUNDARY", 0x780020, 1, 0x0, 1, 0, false,
    [⟨0, 16, .ro, none, []⟩]⟩,
  ⟨"THERM_TRIPS", 0x780024, 1, 0x0, 1, 0, false,
    [⟨0, 2, .ro, none, []⟩,
     ⟨8, 8, .ro, none, []⟩,
     ⟨16, 3, .ro, none, []⟩]⟩,
  ⟨"THERM_WRITE_REFUSED", 0x780028, 1, 0x0, 1, 0, false,
    [⟨0, 32, .rc, none, []⟩]⟩,
  ⟨"THERM_THROTTLED_MS", 0x78002c, 1, 0x0, 1, 0, false,
    [⟨0, 32, .rc, none, []⟩]⟩,
  ⟨"THERM_REGr_EST", 0x780040, 7, 0x4, 1, 0, false,
    [⟨0, 16, .ro, none, []⟩]⟩,
  ⟨"THERM_REGr_RATE", 0x780060, 6, 0x4, 1, 0, false,
    [⟨0, 16, .ro, none, []⟩]⟩,
  ⟨"THERM_REGr_PEAK", 0x780080, 6, 0x4, 1, 0, false,
    [⟨0, 16, .ro, none, []⟩]⟩,
  ⟨"THERM_MONm_POWER", 0x7800a0, 8, 0x4, 1, 0, false,
    [⟨0, 20, .ro, none, []⟩]⟩,
  ⟨"THERM_MONm_MAX", 0x7800c0, 8, 0x4, 1, 0, false,
    [⟨0, 20, .rw, none, []⟩]⟩,
  ⟨"THERM_MODEL_REGr_C", 0x780100, 7, 0x8, 1, 0, false,
    [⟨0, 24, .rw, none, []⟩]⟩,
  ⟨"THERM_MODEL_REGr_THETA", 0x780104, 7, 0x8, 1, 0, false,
    [⟨0, 24, .rw, none, []⟩]⟩,
  ⟨"CAL_CFG", 0x780200, 1, 0x0, 1, 0, false,
    [⟨0, 5, .rw, some (2, 20), []⟩,
     ⟨8, 1, .rw, none, []⟩]⟩,
  ⟨"CAL_CTL", 0x780204, 1, 0x0, 1, 0, false,
    [⟨0, 5, .wo, none, []⟩]⟩,
  ⟨"CAL_STATUS", 0x780208, 1, 0x0, 1, 0, false,
    [⟨0, 2, .ro, none, []⟩,
     ⟨2, 2, .ro, none, []⟩,
     ⟨4, 2, .ro, none, []⟩,
     ⟨6, 2, .ro, none, []⟩,
     ⟨8, 2, .ro, none, []⟩]⟩,
  ⟨"CAL_RAMP", 0x78020c, 1, 0x0, 1, 0, false,
    [⟨0, 4, .rw, none, []⟩,
     ⟨4, 4, .rw, none, []⟩,
     ⟨8, 8, .rw, none, []⟩,
     ⟨16, 8, .rw, none, []⟩]⟩,
  ⟨"CAL_Uu_TEMP", 0x780220, 5, 0x4, 1, 0, false,
    [⟨0, 16, .ro, none, []⟩]⟩,
  ⟨"CAL_Uu_RUNS", 0x780240, 5, 0x4, 1, 0, false,
    [⟨0, 32, .rc, none, []⟩]⟩]

/-- Registers of spec/15_thermal_and_calibration.md. -/
def regs15_1 : List RegDef := [
  ⟨"CAL_Uu_FAILS", 0x780260, 5, 0x4, 1, 0, false,
    [⟨0, 32, .rc, none, []⟩]⟩,
  ⟨"CAL_Uu_ELEMENT", 0x780280, 5, 0x4, 1, 0, false,
    [⟨0, 8, .ro, none, []⟩]⟩]

/-- Registers of spec/16_boot_and_update.md. -/
def regs16_0 : List RegDef := [
  ⟨"BOOT_STATUS", 0x7e0000, 1, 0x0, 1, 0, false,
    [⟨0, 4, .ro, none, []⟩,
     ⟨4, 4, .ro, none, []⟩,
     ⟨8, 1, .ro, none, []⟩,
     ⟨9, 1, .ro, none, []⟩,
     ⟨10, 1, .ro, none, []⟩,
     ⟨11, 1, .w1c, none, []⟩,
     ⟨12, 1, .ro, none, []⟩,
     ⟨13, 1, .w1c, none, []⟩,
     ⟨14, 1, .ro, none, []⟩,
     ⟨16, 8, .ro, none, []⟩]⟩,
  ⟨"BOOT_STRAPS", 0x7e0004, 1, 0x0, 1, 0, false,
    [⟨0, 2, .ro, none, []⟩,
     ⟨2, 2, .ro, none, []⟩,
     ⟨4, 12, .ro, none, []⟩]⟩,
  ⟨"LC_STATE", 0x7e0008, 1, 0x0, 1, 0, false,
    [⟨0, 3, .ro, none, []⟩,
     ⟨3, 1, .ro, none, []⟩,
     ⟨4, 1, .ro, none, []⟩,
     ⟨8, 3, .ro, none, []⟩]⟩,
  ⟨"BOOT_INTENT", 0x7e000c, 1, 0x0, 1, 0, false,
    [⟨0, 1, .ro, none, []⟩,
     ⟨1, 1, .ro, none, []⟩,
     ⟨2, 1, .ro, none, []⟩,
     ⟨3, 2, .ro, none, []⟩,
     ⟨5, 1, .ro, none, []⟩,
     ⟨8, 8, .ro, none, []⟩,
     ⟨16, 16, .ro, none, []⟩]⟩,
  ⟨"BOOT_SLOTa_INFO", 0x7e0010, 2, 0x10, 1, 0, false,
    [⟨0, 4, .ro, none, []⟩,
     ⟨4, 1, .ro, none, []⟩,
     ⟨5, 2, .ro, none, []⟩,
     ⟨8, 8, .ro, none, []⟩,
     ⟨16, 3, .ro, none, []⟩]⟩,
  ⟨"BOOT_SLOTa_VERSION", 0x7e0014, 2, 0x10, 1, 0, false,
    [⟨0, 32, .ro, none, []⟩]⟩,
  ⟨"BOOT_SLOTa_LENGTH", 0x7e0018, 2, 0x10, 1, 0, false,
    [⟨0, 32, .ro, none, []⟩]⟩,
  ⟨"BOOT_DL_CTL", 0x7e0030, 1, 0x0, 1, 0, false,
    [⟨0, 1, .wo, none, []⟩,
     ⟨1, 1, .wo, none, []⟩,
     ⟨2, 1, .wo, none, []⟩,
     ⟨3, 1, .wo, none, []⟩]⟩,
  ⟨"BOOT_DL_STATUS", 0x7e0034, 1, 0x0, 1, 0, false,
    [⟨0, 2, .ro, none, []⟩,
     ⟨2, 1, .ro, none, []⟩,
     ⟨3, 3, .ro, none, []⟩,
     ⟨6, 2, .ro, none, []⟩,
     ⟨8, 3, .ro, none, []⟩,
     ⟨11, 1, .ro, none, []⟩,
     ⟨16, 14, .ro, none, []⟩]⟩,
  ⟨"BOOT_ACTIVATE", 0x7e0038, 1, 0x0, 1, 0, true,
    [⟨0, 1, .rw, none, []⟩,
     ⟨1, 2, .rw, none, [(3, 3)]⟩]⟩,
  ⟨"BOOT_ACT_VERSION", 0x7e003c, 1, 0x0, 1, 0, true,
    [⟨0, 32, .rw, none, []⟩]⟩,
  ⟨"BOOT_CONFIRM", 0x7e0040, 1, 0x0, 1, 0, false,
    [⟨0, 32, .rwp, none, []⟩]⟩,
  ⟨"BOOT_CONFIRM_WINDOW", 0x7e0048, 1, 0x0, 1, 0, false,
    [⟨0, 12, .rw, some (60, 3600), []⟩]⟩,
  ⟨"BOOT_CONFIRM_STATUS", 0x7e004c, 1, 0x0, 1, 0, false,
    [⟨0, 2, .ro, none, []⟩,
     ⟨4, 12, .ro, none, []⟩]⟩,
  ⟨"BOOT_TIME_LOAD", 0x7e0050, 1, 0x0, 1, 0, false,
    [⟨0, 16, .ro, none, []⟩]⟩,
  ⟨"BOOT_COUNT", 0x7e0054, 1, 0x0, 1, 0, false,
    [⟨0, 32, .ro, none, []⟩]⟩,
  ⟨"SEC_SERIAL_LO", 0x7e0100, 1, 0x0, 1, 0, false,
    [⟨0, 32, .ro, none, []⟩]⟩,
  ⟨"SEC_SERIAL_HI", 0x7e0104, 1, 0x0, 1, 0, false,
    [⟨0, 32, .ro, none, []⟩]⟩,
  ⟨"SEC_ROLLBACK", 0x7e0108, 1, 0x0, 1, 0, false,
    [⟨0, 8, .ro, none, []⟩]⟩,
  ⟨"SEC_KEYS", 0x7e010c, 1, 0x0, 1, 0, false,
    [⟨0, 4, .ro, none, []⟩,
     ⟨4, 4, .ro, none, []⟩,
     ⟨8, 1, .ro, none, []⟩,
     ⟨9, 1, .w1c, none, []⟩]⟩,
  ⟨"SEC_REVOKE", 0x7e0110, 1, 0x0, 1, 0, false,
    [⟨0, 4, .rwp, none, []⟩]⟩,
  ⟨"SEC_WALLKEY", 0x7e0118, 1, 0x0, 1, 0, false,
    [⟨0, 1, .ro, none, []⟩,
     ⟨1, 1, .ro, none, []⟩,
     ⟨2, 1, .w1c, none, []⟩]⟩,
  ⟨"SEC_WALLKEY_ID", 0x7e011c, 1, 0x0, 1, 0, false,
    [⟨0, 32, .ro, none, []⟩]⟩,
  ⟨"SEC_ATTEST_CTL", 0x7e0120, 1, 0x0, 1, 0, false,
    [⟨0, 1, .wo, none, []⟩,
     ⟨1, 2, .wo, none, [(3, 3)]⟩,
     ⟨8, 1, .ro, none, []⟩,
     ⟨9, 1, .ro, none, []⟩]⟩,
  ⟨"SEC_ATTEST_BUFk", 0x7e0180, 1, 0x0, 56, 4, false,
    [⟨0, 32, .rw, none, []⟩]⟩]

/-- Registers of spec/16_boot_and_update.md. -/
def regs16_1 : List RegDef := [
  ⟨"LC_CHALLENGEk", 0x7e0320, 1, 0x0, 8, 4, false,
    [⟨0, 32, .ro, none, []⟩]⟩,
  ⟨"LC_TRANSITION", 0x7e0340, 1, 0x0, 1, 0, false,
    [⟨0, 3, .rwp, none, []⟩]⟩,
  ⟨"SEC_PCIE_IDS", 0x7e0350, 1, 0x0, 1, 0, false,
    [⟨0, 16, .ro, none, []⟩,
     ⟨16, 16, .ro, none, []⟩]⟩,
  ⟨"SEC_PCIE_SUBSYS", 0x7e0354, 1, 0x0, 1, 0, false,
    [⟨0, 16, .ro, none, []⟩]⟩,
  ⟨"SEC_MAC_LO", 0x7e0358, 1, 0x0, 1, 0, false,
    [⟨0, 32, .ro, none, []⟩]⟩,
  ⟨"SEC_MAC_HI", 0x7e035c, 1, 0x0, 1, 0, false,
    [⟨0, 16, .ro, none, []⟩]⟩,
  ⟨"BOOT_CAL_LOAD", 0x7e0360, 1, 0x0, 1, 0, false,
    [⟨0, 2, .ro, none, []⟩,
     ⟨8, 24, .ro, none, []⟩]⟩]

/-- Registers of spec/17_self_test.md. -/
def regs17_0 : List RegDef := [
  ⟨"BIST_CTL", 0x7c0000, 1, 0x0, 1, 0, false,
    [⟨0, 1, .wo, none, []⟩,
     ⟨1, 1, .wo, none, []⟩,
     ⟨2, 1, .wo, none, []⟩,
     ⟨3, 1, .rw, none, []⟩,
     ⟨4, 1, .wo, none, []⟩]⟩,
  ⟨"BIST_STATUS", 0x7c0004, 1, 0x0, 1, 0, false,
    [⟨0, 1, .ro, none, []⟩,
     ⟨1, 1, .ro, none, []⟩,
     ⟨2, 1, .ro, none, []⟩,
     ⟨3, 1, .ro, none, []⟩,
     ⟨4, 1, .ro, none, []⟩,
     ⟨5, 3, .ro, none, []⟩,
     ⟨8, 7, .ro, none, []⟩]⟩,
  ⟨"BIST_CFG", 0x7c0008, 1, 0x0, 1, 0, false,
    [⟨0, 4, .rw, some (8, 14), []⟩,
     ⟨4, 1, .rw, none, []⟩]⟩,
  ⟨"BIST_LB_MASK", 0x7c000c, 1, 0x0, 1, 0, false,
    [⟨0, 28, .rw, none, []⟩]⟩,
  ⟨"BIST_LB_FAILED", 0x7c0010, 1, 0x0, 1, 0, false,
    [⟨0, 28, .ro, none, []⟩]⟩,
  ⟨"BIST_SEL", 0x7c0014, 1, 0x0, 1, 0, false,
    [⟨0, 5, .rw, none, []⟩]⟩,
  ⟨"BIST_SEL_SEED_LO", 0x7c0018, 1, 0x0, 1, 0, false,
    [⟨0, 32, .rw, none, []⟩]⟩,
  ⟨"BIST_SEL_SEED_HI", 0x7c001c, 1, 0x0, 1, 0, false,
    [⟨0, 32, .rw, none, []⟩]⟩,
  ⟨"BIST_SEL_EXPECT_LO", 0x7c0020, 1, 0x0, 1, 0, false,
    [⟨0, 32, .rw, none, []⟩]⟩,
  ⟨"BIST_SEL_EXPECT_HI", 0x7c0024, 1, 0x0, 1, 0, false,
    [⟨0, 32, .rw, none, []⟩]⟩,
  ⟨"BIST_SEL_INFO", 0x7c0028, 1, 0x0, 1, 0, false,
    [⟨0, 2, .ro, none, []⟩,
     ⟨2, 1, .ro, none, []⟩,
     ⟨16, 16, .ro, none, []⟩]⟩,
  ⟨"BIST_SEL_MISR_LO", 0x7c002c, 1, 0x0, 1, 0, false,
    [⟨0, 32, .ro, none, []⟩]⟩,
  ⟨"BIST_SEL_MISR_HI", 0x7c0030, 1, 0x0, 1, 0, false,
    [⟨0, 32, .ro, none, []⟩]⟩,
  ⟨"BIST_MB_MASK_LO", 0x7c0034, 1, 0x0, 1, 0, false,
    [⟨0, 32, .rw, none, []⟩]⟩,
  ⟨"BIST_MB_MASK_HI", 0x7c0038, 1, 0x0, 1, 0, false,
    [⟨0, 12, .rw, none, []⟩]⟩,
  ⟨"BIST_MB_RESULT", 0x7c0040, 1, 0x0, 1, 0, false,
    [⟨0, 6, .ro, none, []⟩,
     ⟨6, 6, .ro, none, []⟩,
     ⟨12, 1, .ro, none, []⟩,
     ⟨13, 1, .ro, none, []⟩]⟩,
  ⟨"BIST_MB_ADDR", 0x7c0044, 1, 0x0, 1, 0, false,
    [⟨0, 24, .ro, none, []⟩]⟩,
  ⟨"BIST_LAST_FAULT_SEC", 0x7c0048, 1, 0x0, 1, 0, false,
    [⟨0, 32, .ro, none, []⟩]⟩,
  ⟨"BIST_LAST_FAULT_NS", 0x7c004c, 1, 0x0, 1, 0, false,
    [⟨0, 30, .ro, none, []⟩]⟩,
  ⟨"BIST_LB_RUNS", 0x7c0050, 1, 0x0, 1, 0, false,
    [⟨0, 32, .rc, none, []⟩]⟩,
  ⟨"BIST_LB_FAILS", 0x7c0054, 1, 0x0, 1, 0, false,
    [⟨0, 32, .rc, none, []⟩]⟩,
  ⟨"BIST_LB_MISSED", 0x7c0058, 1, 0x0, 1, 0, false,
    [⟨0, 32, .rc, none, []⟩]⟩,
  ⟨"BIST_MB_FAILS", 0x7c005c, 1, 0x0, 1, 0, false,
    [⟨0, 32, .rc, none, []⟩]⟩,
  ⟨"BIST_REFUSALS", 0x7c0060, 1, 0x0, 1, 0, false,
    [⟨0, 32, .rc, none, []⟩]⟩,
  ⟨"BIST_HEALTHk", 0x7c0080, 1, 0x0, 16, 4, false,
    [⟨0, 32, .ro, none, []⟩]⟩]

/-- Registers of spec/17_self_test.md. -/
def regs17_1 : List RegDef := [
  ⟨"BIST_TILE_SEL", 0x7c00c0, 1, 0x0, 1, 0, false,
    [⟨0, 16, .rw, none, []⟩]⟩,
  ⟨"BIST_TILE_AGE", 0x7c00c4, 1, 0x0, 1, 0, false,
    [⟨0, 32, .ro, none, []⟩]⟩,
  ⟨"BIST_TILE_REPORTk", 0x7c0100, 1, 0x0, 16, 4, false,
    [⟨0, 32, .ro, none, []⟩]⟩]

/-- Registers of spec/18_power_and_reset.md. -/
def regs18_0 : List RegDef := [
  ⟨"PWR_STATUS", 0x200, 1, 0x0, 1, 0, false,
    [⟨0, 4, .ro, none, []⟩,
     ⟨4, 7, .ro, none, []⟩,
     ⟨11, 1, .ro, none, []⟩,
     ⟨12, 1, .ro, none, []⟩,
     ⟨16, 2, .ro, none, []⟩]⟩,
  ⟨"RST_CAUSE", 0x204, 1, 0x0, 1, 0, false,
    [⟨0, 1, .w1c, none, []⟩,
     ⟨1, 1, .w1c, none, []⟩,
     ⟨2, 1, .w1c, none, []⟩,
     ⟨3, 1, .w1c, none, []⟩,
     ⟨4, 1, .w1c, none, []⟩,
     ⟨5, 1, .w1c, none, []⟩,
     ⟨8, 3, .ro, none, []⟩]⟩,
  ⟨"RST_CTL", 0x208, 1, 0x0, 1, 0, false,
    [⟨0, 9, .rwp, none, []⟩,
     ⟨12, 4, .rwp, none, []⟩,
     ⟨16, 1, .rwp, none, []⟩,
     ⟨17, 1, .rwp, none, []⟩]⟩,
  ⟨"RST_POWER_UP_TIME", 0x210, 1, 0x0, 1, 0, false,
    [⟨0, 32, .ro, none, []⟩]⟩,
  ⟨"PWR_RAILr_MV", 0x220, 7, 0x4, 1, 0, false,
    [⟨0, 16, .ro, none, []⟩]⟩]

/-- Registers of spec/19_package_and_balls.md. -/
def regs19_0 : List RegDef := [
  ⟨"GPIOk_CFG", 0x7f0000, 16, 0x4, 1, 0, false,
    [⟨0, 3, .rw, none, []⟩,
     ⟨3, 1, .rw, none, []⟩,
     ⟨4, 5, .rw, none, []⟩,
     ⟨9, 2, .rw, none, []⟩,
     ⟨11, 2, .rw, none, [(3, 3)]⟩,
     ⟨13, 2, .rw, none, [(3, 3)]⟩,
     ⟨15, 1, .rw, none, []⟩]⟩,
  ⟨"GPIO_IN", 0x7f0040, 1, 0x0, 1, 0, false,
    [⟨0, 16, .ro, none, []⟩]⟩,
  ⟨"GPIO_OUT", 0x7f0044, 1, 0x0, 1, 0, false,
    [⟨0, 16, .rw, none, []⟩]⟩,
  ⟨"GPIO_INT_CTX", 0x7f004c, 1, 0x0, 1, 0, false,
    [⟨0, 8, .rw, none, []⟩]⟩]

/-- Registers of spec/21_register_map.md. -/
def regs21_0 : List RegDef := [
  ⟨"GLOBAL_ID", 0x0, 1, 0x0, 1, 0, false,
    [⟨0, 8, .ro, none, []⟩,
     ⟨8, 8, .ro, none, []⟩,
     ⟨16, 16, .ro, none, []⟩]⟩,
  ⟨"GLOBAL_ACCESS_ERR", 0x8, 1, 0x0, 1, 0, false,
    [⟨2, 22, .ro, none, []⟩,
     ⟨24, 1, .ro, none, []⟩,
     ⟨25, 3, .ro, none, []⟩,
     ⟨28, 2, .ro, none, []⟩,
     ⟨31, 1, .w1c, none, []⟩]⟩,
  ⟨"GLOBAL_ACCESS_ERRS", 0xc, 1, 0x0, 1, 0, false,
    [⟨0, 32, .rc, none, []⟩]⟩,
  ⟨"GLOBAL_BLOCKS", 0x10, 1, 0x0, 1, 0, false,
    [⟨0, 21, .ro, none, []⟩]⟩]

/-- Every register of the node (R620). -/
def regTable : List RegDef :=
  regs02_0 ++
  regs02_1 ++
  regs03_0 ++
  regs03_1 ++
  regs04_0 ++
  regs05_0 ++
  regs05_1 ++
  regs06_0 ++
  regs07_0 ++
  regs07_1 ++
  regs08_0 ++
  regs08_1 ++
  regs09_0 ++
  regs09_1 ++
  regs10_0 ++
  regs12_0 ++
  regs13_0 ++
  regs14_0 ++
  regs15_0 ++
  regs15_1 ++
  regs16_0 ++
  regs16_1 ++
  regs17_0 ++
  regs17_1 ++
  regs18_0 ++
  regs19_0 ++
  regs21_0


end Sys2Proof.Machine
end

