-- ==== Sys2Proof/Machine/RegReset.lean ====
section
/-! DEFINITION. The reset value of every register whose reset value is not zero, in rising order of address, as the register
maps of the spec give them for tile role (the values that head role changes are in `headResets`). An address that is not
listed resets to 0. -/
set_option Elab.async false
namespace Sys2Proof.Machine

def resets0 : List (Nat × BitVec 32) := [
  (0x0, 0x64000100), (0x10, 0x1ffe7f), (0x204, 0x1), (0x418, 0x3e8), (0x10000, 0x3), (0x10008, 0xffffffff), 
  (0x10010, 0xffffffff), (0x10018, 0xffffffff), (0x1003c, 0x7), (0x10044, 0x1), (0x11000, 0x13), 
  (0x11008, 0x1fffff), (0x1103c, 0x7), (0x11044, 0x1), (0x12000, 0x23), (0x12008, 0x1fffff), (0x1203c, 0x7), 
  (0x12044, 0x1), (0x13000, 0x33), (0x13008, 0x1fffff), (0x1303c, 0x7), (0x13044, 0x1), (0x14000, 0x43), 
  (0x14008, 0x1fffff), (0x1403c, 0x7), (0x14044, 0x1), (0x15000, 0x53), (0x15008, 0x1fffff), (0x1503c, 0x7), 
  (0x15044, 0x1), (0x16000, 0x63), (0x16008, 0x1fffff), (0x1603c, 0x7), (0x16044, 0x1), (0x17000, 0x73), 
  (0x17008, 0x1fffff), (0x1703c, 0x7), (0x17044, 0x1), (0x18008, 0x9ec0), (0x100010, 0x10), (0x140010, 0x10), 
  (0x180010, 0x10), (0x1c0010, 0x10), (0x200000, 0xf0000), (0x20000c, 0x10000), (0x200028, 0x10000), 
  (0x20003c, 0x10000), (0x200050, 0x10000), (0x2000c0, 0x40000), (0x200100, 0xf0000), (0x20010c, 0x10000), 
  (0x200128, 0x10000), (0x20013c, 0x10000), (0x200150, 0x10000), (0x2001c0, 0x40000), (0x200200, 0xf0000), 
  (0x20020c, 0x10000), (0x200228, 0x10000), (0x20023c, 0x10000), (0x200250, 0x10000)]

def resets1 : List (Nat × BitVec 32) := [
  (0x2002c0, 0x40000), (0x200300, 0xf0000), (0x20030c, 0x10000), (0x200328, 0x10000), (0x20033c, 0x10000), 
  (0x200350, 0x10000), (0x2003c0, 0x40000), (0x200400, 0xf0000), (0x20040c, 0x10000), (0x200428, 0x10000), 
  (0x20043c, 0x10000), (0x200450, 0x10000), (0x2004c0, 0x40000), (0x200500, 0xf0000), (0x20050c, 0x10000), 
  (0x200528, 0x10000), (0x20053c, 0x10000), (0x200550, 0x10000), (0x2005c0, 0x40000), (0x200600, 0xf0000), 
  (0x20060c, 0x10000), (0x200628, 0x10000), (0x20063c, 0x10000), (0x200650, 0x10000), (0x2006c0, 0x40000), 
  (0x200700, 0xf0000), (0x20070c, 0x10000), (0x200728, 0x10000), (0x20073c, 0x10000), (0x200750, 0x10000), 
  (0x2007c0, 0x40000), (0x200800, 0xf0000), (0x20080c, 0x10000), (0x200828, 0x10000), (0x20083c, 0x10000), 
  (0x200850, 0x10000), (0x2008c0, 0x40000), (0x200900, 0xf0000), (0x20090c, 0x10000), (0x200928, 0x10000), 
  (0x20093c, 0x10000), (0x200950, 0x10000), (0x2009c0, 0x40000), (0x200a00, 0xf0000), (0x200a0c, 0x10000), 
  (0x200a28, 0x10000), (0x200a3c, 0x10000), (0x200a50, 0x10000), (0x200ac0, 0x40000), (0x200b00, 0xf0000), 
  (0x200b0c, 0x10000), (0x200b28, 0x10000), (0x200b3c, 0x10000), (0x200b50, 0x10000), (0x200bc0, 0x40000), 
  (0x200c00, 0xf0000), (0x200c0c, 0x10000), (0x200c28, 0x10000), (0x200c3c, 0x10000), (0x200c50, 0x10000)]

def resets2 : List (Nat × BitVec 32) := [
  (0x200cc0, 0x40000), (0x200d00, 0xf0000), (0x200d0c, 0x10000), (0x200d28, 0x10000), (0x200d3c, 0x10000), 
  (0x200d50, 0x10000), (0x200dc0, 0x40000), (0x200e00, 0xf0000), (0x200e0c, 0x10000), (0x200e28, 0x10000), 
  (0x200e3c, 0x10000), (0x200e50, 0x10000), (0x200ec0, 0x40000), (0x200f00, 0xf0000), (0x200f0c, 0x10000), 
  (0x200f28, 0x10000), (0x200f3c, 0x10000), (0x200f50, 0x10000), (0x200fc0, 0x40000), (0x201000, 0x1), 
  (0x201004, 0x320), (0x201008, 0x64), (0x201020, 0x10000), (0x201034, 0x10000), (0x201048, 0x10000), 
  (0x201108, 0x1000000), (0x201118, 0x1000000), (0x201128, 0x40000000), (0x201148, 0x1000000), 
  (0x201158, 0x1000000), (0x201168, 0x40000000), (0x201188, 0x1000000), (0x201198, 0x1000000), 
  (0x2011a8, 0x40000000), (0x2011c8, 0x1000000), (0x2011d8, 0x1000000), (0x2011e8, 0x40000000), 
  (0x300000, 0x260), (0x300200, 0x260), (0x300400, 0x260), (0x300600, 0x260), (0x340004, 0x3e8), (0x400000, 0x2), 
  (0x400008, 0xfc00), (0x400010, 0x100), (0x400014, 0x100), (0x400018, 0x37), (0x400024, 0xa008), 
  (0x4000c0, 0x2), (0x4000c8, 0xfc00), (0x4000d0, 0x100), (0x4000d4, 0x100), (0x4000d8, 0x37), 
  (0x4000e4, 0xa008), (0x400180, 0x2), (0x400188, 0xfc00), (0x400190, 0x100), (0x400194, 0x100), 
  (0x400198, 0x37), (0x4001a4, 0xa008)]

def resets3 : List (Nat × BitVec 32) := [
  (0x400240, 0x2), (0x400248, 0xfc00), (0x400250, 0x100), (0x400254, 0x100), (0x400258, 0x37), 
  (0x400264, 0xa008), (0x400300, 0x2), (0x400308, 0xfc00), (0x400310, 0x100), (0x400314, 0x100), 
  (0x400318, 0x37), (0x400324, 0xa008), (0x4003c0, 0x2), (0x4003c8, 0xfc00), (0x4003d0, 0x100), 
  (0x4003d4, 0x100), (0x4003d8, 0x37), (0x4003e4, 0xa008), (0x400480, 0x2), (0x400488, 0xfc00), 
  (0x400490, 0x100), (0x400494, 0x100), (0x400498, 0x37), (0x4004a4, 0xa008), (0x400540, 0x2), 
  (0x400548, 0xfc00), (0x400550, 0x100), (0x400554, 0x100), (0x400558, 0x37), (0x400564, 0xa008), 
  (0x400600, 0x2), (0x400608, 0xfc00), (0x400610, 0x100), (0x400614, 0x100), (0x400618, 0x37), 
  (0x400624, 0xa008), (0x4006c0, 0x2), (0x4006c8, 0xfc00), (0x4006d0, 0x100), (0x4006d4, 0x100), 
  (0x4006d8, 0x37), (0x4006e4, 0xa008), (0x400780, 0x2), (0x400788, 0xfc00), (0x400790, 0x100), 
  (0x400794, 0x100), (0x400798, 0x37), (0x4007a4, 0xa008), (0x400840, 0x2), (0x400848, 0xfc00), 
  (0x400850, 0x100), (0x400854, 0x100), (0x400858, 0x37), (0x400864, 0xa008), (0x400900, 0x2), 
  (0x400908, 0xfc00), (0x400910, 0x100), (0x400914, 0x100), (0x400918, 0x37), (0x400924, 0xa008)]

def resets4 : List (Nat × BitVec 32) := [
  (0x4009c0, 0x2), (0x4009c8, 0xfc00), (0x4009d0, 0x100), (0x4009d4, 0x100), (0x4009d8, 0x37), 
  (0x4009e4, 0xa008), (0x400a80, 0x2), (0x400a88, 0xfc00), (0x400a90, 0x100), (0x400a94, 0x100), 
  (0x400a98, 0x37), (0x400aa4, 0xa008), (0x400b40, 0x2), (0x400b48, 0xfc00), (0x400b50, 0x100), 
  (0x400b54, 0x100), (0x400b58, 0x37), (0x400b64, 0xa008), (0x400c00, 0x2), (0x400c08, 0xfc00), 
  (0x400c10, 0x100), (0x400c14, 0x100), (0x400c18, 0x37), (0x400c24, 0xa008), (0x400cc0, 0x2), 
  (0x400cc8, 0xfc00), (0x400cd0, 0x100), (0x400cd4, 0x100), (0x400cd8, 0x37), (0x400ce4, 0xa008), 
  (0x400d80, 0x2), (0x400d88, 0xfc00), (0x400d90, 0x100), (0x400d94, 0x100), (0x400d98, 0x37), 
  (0x400da4, 0xa008), (0x400e40, 0x2), (0x400e48, 0xfc00), (0x400e50, 0x100), (0x400e54, 0x100), 
  (0x400e58, 0x37), (0x400e64, 0xa008), (0x400f00, 0x2), (0x400f08, 0xfc00), (0x400f10, 0x100), 
  (0x400f14, 0x100), (0x400f18, 0x37), (0x400f24, 0xa008), (0x400fc0, 0x2), (0x400fc8, 0xfc00), 
  (0x400fd0, 0x100), (0x400fd4, 0x100), (0x400fd8, 0x37), (0x400fe4, 0xa008), (0x401080, 0x2), 
  (0x401088, 0xfc00), (0x401090, 0x100), (0x401094, 0x100), (0x401098, 0x37), (0x4010a4, 0xa008)]

def resets5 : List (Nat × BitVec 32) := [
  (0x401140, 0x2), (0x401148, 0xfc00), (0x401150, 0x100), (0x401154, 0x100), (0x401158, 0x37), 
  (0x401164, 0xa008), (0x401200, 0x2), (0x401208, 0xfc00), (0x401210, 0x100), (0x401214, 0x100), 
  (0x401218, 0x37), (0x401224, 0xa008), (0x4012c0, 0x2), (0x4012c8, 0xfc00), (0x4012d0, 0x100), 
  (0x4012d4, 0x100), (0x4012d8, 0x37), (0x4012e4, 0xa008), (0x401380, 0x2), (0x401388, 0xfc00), 
  (0x401390, 0x100), (0x401394, 0x100), (0x401398, 0x37), (0x4013a4, 0xa008), (0x401440, 0x2), 
  (0x401448, 0xfc00), (0x401450, 0x100), (0x401454, 0x100), (0x401458, 0x37), (0x401464, 0xa008), 
  (0x401500, 0x2), (0x401508, 0xfc00), (0x401510, 0x100), (0x401514, 0x100), (0x401518, 0x37), 
  (0x401524, 0xa008), (0x4015c0, 0x2), (0x4015c8, 0xfc00), (0x4015d0, 0x100), (0x4015d4, 0x100), 
  (0x4015d8, 0x37), (0x4015e4, 0xa008), (0x401680, 0x2), (0x401688, 0xfc00), (0x401690, 0x100), 
  (0x401694, 0x100), (0x401698, 0x37), (0x4016a4, 0xa008), (0x401740, 0x2), (0x401748, 0xfc00), 
  (0x401750, 0x100), (0x401754, 0x100), (0x401758, 0x37), (0x401764, 0xa008), (0x440000, 0x210), 
  (0x440100, 0x210), (0x440200, 0x210), (0x440300, 0x210), (0x440400, 0x210), (0x440500, 0x210)]

def resets6 : List (Nat × BitVec 32) := [
  (0x440600, 0x210), (0x440700, 0x28), (0x440704, 0xa), (0x440708, 0x3e8), (0x48000c, 0x1fffff), 
  (0x480014, 0x1e19032), (0x500000, 0x8), (0x500008, 0x1), (0x500030, 0x32), (0x500034, 0x3c0613), 
  (0x500038, 0xa), (0x500040, 0x29), (0x500058, 0x25), (0x500060, 0x7f), (0x500064, 0x80803ded), 
  (0x540010, 0x7d0), (0x540014, 0x64), (0x540018, 0x7d0), (0x54001c, 0x3c), (0x600008, 0x3202832), 
  (0x60000c, 0xd), (0x600010, 0x64), (0x600014, 0x100), (0x600104, 0x2710), (0x600144, 0x2710), 
  (0x600184, 0x2710), (0x6001c4, 0x2710), (0x600400, 0xc0), (0x600410, 0x100), (0x600440, 0xc0), 
  (0x600450, 0x100), (0x600480, 0xc0), (0x600490, 0x100), (0x6004c0, 0xc0), (0x6004d0, 0x100), (0x600500, 0xc0), 
  (0x600510, 0x100), (0x600540, 0xc0), (0x600550, 0x100), (0x600580, 0xc0), (0x600590, 0x100), (0x6005c0, 0xc0), 
  (0x6005d0, 0x100), (0x600600, 0xc0), (0x600610, 0x100), (0x600640, 0xc0), (0x600650, 0x100), (0x600680, 0xc0), 
  (0x600690, 0x100), (0x6006c0, 0xc0), (0x6006d0, 0x100), (0x600700, 0xc0), (0x600710, 0x100), (0x600740, 0xc0), 
  (0x600750, 0x100), (0x600780, 0xc0), (0x600790, 0x100), (0x6007c0, 0xc0), (0x6007d0, 0x100), 
  (0x640008, 0x10000)]

def resets7 : List (Nat × BitVec 32) := [
  (0x64000c, 0x4004000), (0x640010, 0x64), (0x64002c, 0x40000000), (0x64003c, 0x40000000), 
  (0x64004c, 0x40000000), (0x640130, 0x40000000), (0x640134, 0x40000000), (0x640170, 0x40000000), 
  (0x640174, 0x40000000), (0x6401b0, 0x40000000), (0x6401b4, 0x40000000), (0x6401f0, 0x40000000), 
  (0x6401f4, 0x40000000), (0x700004, 0x2), (0x70000c, 0x10), (0x700010, 0x18), (0x700014, 0x4b), 
  (0x780000, 0x3c00), (0x780014, 0x73645f), (0x780018, 0x140410), (0x78001c, 0x27600d6b), (0x7800c0, 0x1f40), 
  (0x7800c4, 0x1f40), (0x7800c8, 0x1f40), (0x7800cc, 0x1f40), (0x7800d0, 0x7530), (0x7800d4, 0x3e80), 
  (0x7800d8, 0x2ee0), (0x7800dc, 0x2ee0), (0x780100, 0x1f4), (0x780104, 0x4b0), (0x780108, 0x1f4), 
  (0x78010c, 0x4b0), (0x780110, 0x1f4), (0x780114, 0x4b0), (0x780118, 0x1f4), (0x78011c, 0x4b0), 
  (0x780120, 0x5dc), (0x780124, 0x258), (0x780128, 0x190), (0x78012c, 0x5dc), (0x780130, 0xea60), 
  (0x780134, 0x96), (0x780200, 0x108), (0x78020c, 0xa0111), (0x7c0000, 0x8), (0x7c0008, 0xc), (0x7e0048, 0x258), 
  (0x7f0000, 0x2800), (0x7f0004, 0x2800), (0x7f0008, 0x2800), (0x7f000c, 0x2800), (0x7f0010, 0x2800), 
  (0x7f0014, 0x2800), (0x7f0018, 0x2800), (0x7f001c, 0x2800), (0x7f0020, 0x2800), (0x7f0024, 0x2800), 
  (0x7f0028, 0x2800), (0x7f002c, 0x2800)]

def resets8 : List (Nat × BitVec 32) := [
  (0x7f0030, 0x2800), (0x7f0034, 0x2800), (0x7f0038, 0x2800), (0x7f003c, 0x2800), (0x7f004c, 0xff)]

/-- The registers that reset to a value other than 0, tile role. -/
def resetCells : List (Nat × BitVec 32) :=
  resets0 ++ resets1 ++ resets2 ++ resets3 ++ resets4 ++ resets5 ++ resets6 ++ resets7 ++ resets8

/-- The registers whose reset value differs in head role: GLOBAL_BLOCKS (R626), HOST_MGMT_CFG (R426), MEM_REGION (R455) and
CTXn_BIND (R421). -/
def headResets : List (Nat × BitVec 32) :=
  [(0x10, 0x1fffff), (0x10000, 1), (0x11000, 1), (0x12000, 1), (0x13000, 1), (0x14000, 1), (0x15000, 1), (0x16000, 1),
   (0x17000, 1), (0x18000, 1), (0x70000c, 0x100010)]


end Sys2Proof.Machine
end

