-- ==== Sys2Proof/Machine/LineCode.lean ====
section
/-! DEFINITION. The line code of the Oaris Link (spec/03_oaris_link.md): symbols and precoding, training frames, 257-bit blocks,
the scrambler, the Reed-Solomon code of a lane, markers, and the test patterns. A symbol is the value of Table 3-3 (0 to 3) on a
PAM4 lane and a bit on an NRZ lane. -/
set_option Elab.async false
namespace Sys2Proof.Machine

/-! ### Bits in transmission order -/

/-- The bits of a byte string as they are sent: each byte least significant bit first (R89). -/
def toBits (b : Bytes) : List Bool := b.flatMap fun x => (List.range 8).map fun i => x.getLsbD i

/-- The number that bits spell, the first bit in bit 0 (R92). -/
def ofBits : List Bool → Nat
  | [] => 0
  | b :: bs => b2n b + 2 * ofBits bs

/-- The `n` bits of a number, bit 0 first. -/
def bitsLE (n v : Nat) : List Bool := (List.range n).map (bitOf v)

/-- A list cut into `k` pieces of `n` elements. -/
def pieces {α : Type} : Nat → Nat → List α → List (List α)
  | 0, _, _ => []
  | k + 1, n, l => l.take n :: pieces k n (l.drop n)

/-- Bytes of bits, the first bit in bit 0 of the first byte. -/
def ofBitBytes (l : List Bool) : Bytes := (pieces (l.length / 8) 8 l).map fun x => BitVec.ofNat 8 (ofBits x)

/-! ### Symbols (R78, R79) -/

/-- Table 3-3: the PAM4 symbol of the earlier bit b1 and the later bit b0. -/
def gray (b1 b0 : Bool) : Nat :=
  match b1, b0 with
  | false, false => 0
  | false, true => 1
  | true, true => 2
  | true, false => 3

/-- The bit pair (b1, b0) of a PAM4 symbol. -/
def ungray (g : Nat) : Bool × Bool := (decide (2 ≤ g), g == 1 || g == 2)

/-- Bits taken in pairs in transmission order. -/
def pamOf : List Bool → List Nat
  | b1 :: b0 :: r => gray b1 b0 :: pamOf r
  | _ => []

/-- The bits that PAM4 symbols carry. -/
def bitsOfPam (l : List Nat) : List Bool := l.flatMap fun g => [(ungray g).1, (ungray g).2]

/-- The symbols of bits at a rate: bits themselves at code 2, PAM4 symbols otherwise. -/
def symbolsOf (nrz : Bool) (l : List Bool) : List Nat := if nrz then l.map b2n else pamOf l

/-- The bits of symbols. -/
def symbolBits (nrz : Bool) (l : List Nat) : List Bool := if nrz then l.map (· == 1) else bitsOfPam l

/-- Precoding P(j) = (G(j) - P(j-1)) mod 4 (R79): the last symbol sent before, and the symbols sent. -/
def precode : Nat → List Nat → List Nat
  | _, [] => []
  | p, g :: r => (g + 4 - p % 4) % 4 :: precode ((g + 4 - p % 4) % 4) r

/-- What the receiver recovers: G(j) = (P(j) + P(j-1)) mod 4. -/
def unprecode : Nat → List Nat → List Nat
  | _, [] => []
  | p, g :: r => (g + p) % 4 :: unprecode g r

/-- A symbol of the opposite polarity. -/
def invertSymbol (nrz : Bool) (g : Nat) : Nat := if nrz then 1 - g else 3 - g

/-- An injected error (R103): one level toward the centre, an outer level to its neighbour; an NRZ bit inverted. -/
def injectSymbol (nrz : Bool) (g : Nat) : Nat := if nrz then 1 - g else if g == 0 || g == 2 then 1 else 2

/-- `n` consecutive injected errors at the start of a run of symbols. -/
def injectRun (nrz : Bool) (n : Nat) (l : List Nat) : List Nat := (l.take n).map (injectSymbol nrz) ++ l.drop n

/-- One injected error at each of the places `at_` of a run of symbols. -/
def injectAt (nrz : Bool) (at_ : List Nat) (l : List Nat) : List Nat := at_.foldl (fun l k => modAt l k (injectSymbol nrz)) l

/-! ### Test patterns (R101) -/

/-- Degree and taps of the polynomial of a pattern of Table 3-12. -/
def prbsPoly (code : Nat) : Nat × List Nat :=
  match code with
  | 1 => (7, [7, 6])
  | 2 => (9, [9, 5])
  | 3 => (13, [13, 12, 2, 1])
  | 4 => (15, [15, 14])
  | _ => (31, [31, 28])

/-- The next bit of a pattern, from the bits before it (the latest in bit 0). -/
def prbsBit (code st : Nat) : Bool := (prbsPoly code).2.foldl (fun a k => a != bitOf st (k - 1)) false

/-- The bits remembered after one more bit. -/
def prbsShift (code st : Nat) (b : Bool) : Nat := (2 * st + b2n b) % 2 ^ (prbsPoly code).1

/-- `n` bits of a pattern: the bits remembered after them, and the bits. -/
def prbsRun (code : Nat) : Nat → Nat → Nat × List Bool
  | 0, st => (st, [])
  | n + 1, st =>
    let b := prbsBit code st
    let r := prbsRun code n (prbsShift code st b)
    (r.1, b :: r.2)

/-- A pattern of Table 3-12 that is Gray-mapped. -/
def isQ (pat : Nat) : Bool := pat == 3 || pat == 6

/-- The checker of a lane (R102). -/
structure Checker where
  /-- The bits remembered, and how many of them have come since it began to seed. -/
  st : Nat := 0
  fill : Nat := 0
  lock : Bool := false
  /-- Consecutive error-free bits before lock. -/
  run : Nat := 0
  /-- Ages in bits of the errors of the last 256 bits while locked, newest first. -/
  errs : List Nat := []
  /-- Bits compared and bit errors since the counters were last brought up. -/
  compared : Nat := 0
  errors : Nat := 0
  deriving DecidableEq, Repr

/-- One received bit of a pattern (R102): seeding, lock after 64 error-free bits, loss of lock at 32 errors within 256 bits. -/
def Checker.bit (c : Checker) (code : Nat) (b : Bool) : Checker :=
  let p := prbsBit code c.st
  if c.fill < (prbsPoly code).1 then { c with st := prbsShift code c.st b, fill := c.fill + 1, run := 0 }
  else if !c.lock then
    let run := if p == b then c.run + 1 else 0
    { c with st := prbsShift code c.st b, run := run, lock := decide (64 ≤ run), errs := [] }
  else
    let errs := (c.errs.map (· + 1)).filter (· < 256)
    let errs := if p == b then errs else 0 :: errs
    let c := { c with st := prbsShift code c.st p, errs := errs, compared := c.compared + 1, errors := c.errors + b2n (p != b) }
    if 32 ≤ errs.length then { c with lock := false, fill := 0, run := 0, errs := [] } else c

/-- Received bits of a pattern, inverted when CHK_INV is set. -/
def Checker.bits (c : Checker) (code : Nat) (inv : Bool) (l : List Bool) : Checker :=
  l.foldl (fun c b => c.bit code (b != inv)) c

/-! ### Training frames (R83) -/

/-- A field bit as 4 symbols at level +3 for 1 or -3 for 0. -/
def fieldSymbols (nrz : Bool) (n v : Nat) : List Nat :=
  (bitsLE n v).flatMap fun b => List.replicate 4 (if b then (if nrz then 1 else 3) else 0)

/-- The marker of Table 3-5. -/
def trainMarker (nrz : Bool) : List Nat := List.replicate 32 (if nrz then 1 else 3) ++ List.replicate 32 0

/-- The complement field of Table 3-5. -/
def fieldComplement (control status : Nat) : Nat := 2 ^ 32 - 1 - (control % 2 ^ 16 + 2 ^ 16 * (status % 2 ^ 16))

/-- A training frame of 4,096 symbols; `pat` is the state of the pattern (Table 3-12, code 3), which goes on in the next frame. -/
def trainingFrame (nrz : Bool) (control status pat : Nat) : Nat × List Nat :=
  let r := prbsRun 3 (if nrz then 3776 else 7552) pat
  (r.1, trainMarker nrz ++ fieldSymbols nrz 16 control ++ fieldSymbols nrz 16 status ++
    fieldSymbols nrz 32 (fieldComplement control status) ++ symbolsOf nrz r.2)

/-! ### Blocks (R89 to R91, R93) -/

/-- A 257-bit block: the flag (true: a cell block) and 32 bytes. -/
structure Block where
  cell : Bool
  data : Bytes
  deriving DecidableEq, Repr

/-- An IDLE block (R90). -/
def idleBlock : Block := ⟨false, zeros 32⟩

/-- The 16 cell blocks of a cell, in byte order (R89). -/
def cellBlocks (c : Bytes) : List Block := (pieces 16 32 c).map fun d => ⟨true, d⟩

/-- The type of a control block: any other than marker and LINK is treated as IDLE (R89). -/
inductive BlockKind where
  | cell | idle | marker | link
  deriving DecidableEq, Repr

def Block.kind (b : Block) : BlockKind :=
  if b.cell then .cell
  else match le b.data 0 1 with
    | 0x4D => .marker
    | 0x71 => .link
    | _ => .idle

/-- What the framing of a block stream finds: whole cells, LINK blocks, and runs of cell blocks that are too short. -/
inductive Framed where
  | cell (bytes : Bytes)
  | link (body : Bytes)
  | fragment
  deriving DecidableEq, Repr

/-- Framing (R89): the blocks of the open cell, newest first, and what the stream gave. -/
def deframe : List Bytes → List Block → List Framed
  | _, [] => []
  | part, b :: r =>
    let short := if part.isEmpty then [] else [Framed.fragment]
    match b.kind with
    | .cell =>
      if part.length == 15 then .cell ((b.data :: part).reverse.flatten) :: deframe [] r else deframe (b.data :: part) r
    | .link => short ++ .link b.data :: deframe [] r
    | _ => short ++ deframe [] r

/-- The scrambler x^58 + x^39 + 1 (R91): its 58 bits, the latest in bit 0, and the scrambled bits. -/
def scramble : Nat → List Bool → Nat × List Bool
  | st, [] => (st, [])
  | st, b :: r =>
    let o := (b != bitOf st 38) != bitOf st 57
    let q := scramble ((2 * st + b2n o) % 2 ^ 58) r
    (q.1, o :: q.2)

/-- The descrambler: it follows the received bits. -/
def descramble : Nat → List Bool → Nat × List Bool
  | st, [] => (st, [])
  | st, b :: r =>
    let o := (b != bitOf st 38) != bitOf st 57
    let q := descramble ((2 * st + b2n b) % 2 ^ 58) r
    (q.1, o :: q.2)

/-- The blocks of lines in slot order, descrambled; `marks` are the slots of markers (R91). -/
def descrambleLines (marks : Nat) : Nat → List (List Bool) → Nat × List Block
  | st, [] => (st, [])
  | st, l :: r =>
    let d := if 0 < marks then (st, l.drop 1) else descramble st (l.drop 1)
    let q := descrambleLines (marks - 1) d.1 r
    (q.1, ⟨l.headD false, ofBitBytes d.2⟩ :: q.2)

/-- The 257 bits of a block as they are sent: flags and marker blocks are not scrambled. -/
def Block.line (b : Block) (scr : Nat) : Nat × List Bool :=
  if b.kind == .marker then (scr, b.cell :: toBits b.data)
  else
    let r := scramble scr (toBits b.data)
    (r.1, b.cell :: r.2)

/-- BIP-8: the parity of each bit position over the 32 bytes of a block as it is sent. -/
def bip8 (acc : Nat) (line : List Bool) : Nat := (ofBitBytes (line.drop 1)).foldl (fun a x => a ^^^ x.toNat) acc

/-- A marker (R93). -/
def markerBytes (logical port count bip : Nat) : Bytes :=
  let h := mkMsg 6 [(0, 1, 0x4D), (1, 1, logical), (2, 1, port), (3, 2, count), (5, 1, bip)]
  h ++ complement h ++ List.replicate 20 0x5A

/-- A received marker: the type, a complement that matches, a logical lane, and bytes 12 to 31 as R93 lays them out; a block that
is not so laid out is no marker (DEDUCED, assumption 73: R93 names the complement alone). -/
def markerOk (m : Bytes) : Bool :=
  m.length == 32 && le m 0 1 == 0x4D && (m.drop 6).take 6 == complement (m.take 6) && decide (le m 1 1 < 4) &&
    m.drop 12 == List.replicate 20 0x5A

/-! ### RS(544,514) over GF(2^10) (R92) -/

/-- Multiplication by α, with α^10 = α^3 + 1. -/
def gfX (a : Nat) : Nat := if a < 512 then 2 * a else (2 * a) ^^^ 0x409

/-- The product in GF(2^10). -/
def gfMul (a b : Nat) : Nat :=
  ((List.range 10).foldl (fun (p : Nat × Nat) i => (if bitOf b i then p.1 ^^^ p.2 else p.1, gfX p.2)) (0, a)).1

/-- α^n. -/
def gfAlpha (n : Nat) : Nat := (List.range (n % 1023)).foldl (fun a _ => gfX a) 1

/-- The inverse of a nonzero element: a^1022. -/
def gfInv (a : Nat) : Nat := (List.range 1021).foldl (fun p _ => gfMul p a) a

/-- The generator polynomial, lowest coefficient first. -/
def rsGen : List Nat :=
  (List.range 30).foldl (fun g i => List.zipWith (· ^^^ ·) (0 :: g) (g.map (gfMul (gfAlpha i)) ++ [0])) [1]

/-- The remainder register after one message symbol, highest coefficient first. -/
def rsShift (g reg : List Nat) (m : Nat) : List Nat :=
  let fb := m ^^^ reg.headD 0
  List.zipWith (· ^^^ ·) (reg.drop 1 ++ [0]) (g.map (gfMul fb))

/-- The codeword of 514 message symbols: the message, then 30 parity symbols. -/
def rsEncode (m : List Nat) : List Nat :=
  m ++ m.foldl (rsShift (rsGen.take 30).reverse) (List.replicate 30 0)

/-- The value of a received word at a point, the first symbol at the highest power. -/
def rsEval (x : Nat) (r : List Nat) : Nat := r.foldl (fun a c => gfMul a x ^^^ c) 0

/-- The 30 syndromes. -/
def rsSyndromes (r : List Nat) : List Nat := (List.range 30).map fun j => rsEval (gfAlpha j) r

/-- The value of a polynomial, lowest coefficient first. -/
def polyEval (p : List Nat) (x : Nat) : Nat := p.foldr (fun c a => gfMul a x ^^^ c) 0

/-- Sum of polynomials. -/
def polyAdd : List Nat → List Nat → List Nat
  | [], q => q
  | p, [] => p
  | a :: p, b :: q => (a ^^^ b) :: polyAdd p q

/-- The error locator of the syndromes by the Berlekamp-Massey steps: the locator, the one before the last change of length, the
length, the steps since, and the discrepancy then. -/
def rsLocator (syn : List Nat) : List Nat × Nat :=
  let z := (List.range syn.length).foldl (fun (st : List Nat × List Nat × Nat × Nat × Nat) n =>
    let (c, b, l, m, d0) := st
    let d := (List.range (l + 1)).foldl (fun a i => a ^^^ gfMul (nth c i 0) (nth syn (n - i) 0)) 0
    if d == 0 then (c, b, l, m + 1, d0)
    else
      let k := gfMul d (gfInv d0)
      let c' := polyAdd c (List.replicate m 0 ++ b.map (gfMul k))
      if 2 * l ≤ n then (c', c, n + 1 - l, 1, d) else (c', b, l, m + 1, d0)) ([1], [1], 0, 1, 1)
  (z.1, z.2.2.1)

/-- The error values at the places (counted from the first symbol sent) where the locator has its roots. -/
def rsErrors (syn : List Nat) : List (Nat × Nat) :=
  let (c, l) := rsLocator syn
  let omega := (List.range l).map fun k => (List.range (k + 1)).foldl (fun a i => a ^^^ gfMul (nth c i 0) (nth syn (k - i) 0)) 0
  let deriv := (List.range l).map fun i => if i % 2 == 0 then nth c (i + 1) 0 else 0
  (List.range 544).filterMap fun i =>
    let x := gfAlpha (543 - i)
    let xi := gfAlpha (1023 - (543 - i))
    if l ≤ 15 && polyEval c xi == 0 then some (i, gfMul x (gfMul (polyEval omega xi) (gfInv (polyEval deriv xi)))) else none

/-- The decoder (R92): up to 15 symbols are corrected: their number and the word after correction; none where more symbols are
wrong than the code corrects. -/
def rsDecode (r : List Nat) : Option (Nat × List Nat) :=
  let syn := rsSyndromes r
  if syn.all (· == 0) then some (0, r)
  else
    let es := rsErrors syn
    let fixed := es.foldl (fun w e => modAt w e.1 (· ^^^ e.2)) r
    if es.length ≤ 15 && (rsSyndromes fixed).all (· == 0) then some (es.length, fixed) else none

/-- The blocks of a lane as 514 message symbols: bits fill symbols in transmission order. -/
def messageOf (lines : List (List Bool)) : List Nat := (pieces 514 10 lines.flatten).map ofBits

/-- The 20 blocks of a codeword as they were sent. -/
def linesOf (word : List Nat) : List (List Bool) := pieces 20 257 ((word.take 514).flatMap (bitsLE 10))

/-- The bits of a codeword as they are sent: each symbol bit 0 first. -/
def wordBits (word : List Nat) : List Bool := word.flatMap (bitsLE 10)

end Sys2Proof.Machine
end

