-- ==== Sys2Proof/Machine/Types.lean ====
section
/-! DEFINITION. The parts of the state beside the register file: one structure for each unit of the node, each field with its
value after power-on. Instants on the node clock are in units of 1 / (27 × 2^32) ns, in which the exact period of every
wall frame rate and of every slot is a whole number (R164, R184); instants of the AON island are in ns. -/
set_option Elab.async false
namespace Sys2Proof.Machine

/-- Power and reset controller (spec/18_power_and_reset.md). -/
structure Pwr where
  /-- Level of POR_N and of RESET_N (true: high). -/
  porN : Bool := false
  resetN : Bool := true
  /-- Steps of Table 18-2 done, 0 to 7 (R574). -/
  step : Nat := 0
  /-- Instant of the last PWR_EN and of POR_N rising. -/
  enableAt : Nat := 0
  riseAt : Nat := 0
  /-- The core and the islands are released (step 7) and no node reset holds them. -/
  up : Bool := false
  /-- After POWER_OFF, until POR_N (R578). -/
  off : Bool := false
  /-- The third brownout within 60 minutes: off until POR_N (R578). -/
  hold : Bool := false
  /-- AON instants of the brownouts (R578). -/
  history : List Nat := []
  /-- Instant from which a brownout restart is due (R578). -/
  restartAt : Option Nat := none
  /-- Completed RST_CTL pairs whose actions wait, with the AON instants of those actions, in order (R583). -/
  actions : List (Nat × Nat) := []
  /-- Functions in Function Level Reset (R585). -/
  flr : List Bool := [false, false, false, false]
  /-- The PCIe link can carry commands. -/
  pcieUp : Bool := false
  /-- FAULT_N and THERMTRIP_N asserted. -/
  faultN : Bool := false
  thermtripN : Bool := false
  deriving DecidableEq, Repr

/-- A class E crossing with a handshake in flight (R463, R464). -/
structure Flight where
  isl : Nat
  line : Nat
  start : Nat
  pending : Bool
  deriving DecidableEq, Repr

/-- Clocked islands and crossings (spec/14_clock_islands.md): bit i of each list is island i of Table 14-1. -/
structure Xing where
  inReset : List Bool := List.replicate 9 true
  /-- The island's clock is present and locked (R460). -/
  clkOk : List Bool := List.replicate 9 false
  gated : List Bool := List.replicate 9 false
  /-- AON instant before which a reset by RST_CTL holds the island (R583). -/
  heldTo : List Nat := List.replicate 9 0
  flights : List Flight := []
  deriving DecidableEq, Repr

/-- An open complement-protected pair of a context (R9): offset, value, register accesses left. -/
structure RwpPair where
  addr : Nat
  value : Word
  left : Nat
  deriving DecidableEq, Repr

/-- A record of the journal (Table 12-7) with its payload. -/
structure JRec where
  entry : Bytes
  payload : Bytes
  ticket : Nat
  ctx : Nat
  peer : Bool
  /-- 0 FREE, 1 ACCEPTED, 2 EXECUTING, 3 DONE. -/
  st : Nat
  result : Nat
  handoff : Bool
  accWritten : Bool
  doneWritten : Bool
  consumed : Bool
  epoch : Nat
  tau : Nat
  doneTime : Nat
  originSerial : Nat
  originTicket : Nat
  originCtx : Nat
  data : Bytes
  sqIndex : Nat
  /-- DATA of a record that is not DONE is what the copies show of its effect after a takeover (R414). The timing epoch in force at τ (R633). -/
  tepoch : Nat := 0
  /-- Its slot of the journal and its unit of the payload area (R410); for a TUNNEL, the start of its answer bounds (R405). -/
  slot : Nat := 0
  unit : Nat := 0
  start : Nat := 0
  deriving DecidableEq, Repr

/-- A checked command whose record waits for the other head's acknowledgement (R140, R406). -/
structure Checked where
  entry : Bytes
  payload : Bytes
  originSerial : Nat
  originTicket : Nat
  originCtx : Nat
  deriving DecidableEq, Repr

/-- A completion on its way to the completion ring (R401, R417): the entry, origin ticket and context, answer data, and the IRQ flag of its
command (Table 12-3). -/
structure Compl where
  entry : Bytes
  originTicket : Nat
  originCtx : Nat
  answer : Bytes
  irq : Bool
  deriving DecidableEq, Repr

/-- One host context (spec/12_hosts_and_tickets.md), beside its registers. -/
structure Ctx where
  /-- Open complement-protected pairs, one for each register (R9). -/
  pairs : List RwpPair := []
  /-- _HI halves captured by a read of their _LO half (R624, R102): address of the _HI half, value. -/
  captured : List (Nat × Word) := []
  /-- Completions kept while the completion ring is full (R402). -/
  held : List Compl := []
  /-- The completion ring: the entry written at each index (R401). -/
  cq : List (Nat × Bytes) := []
  /-- Command entries placed in the command ring by datagrams and tunnel messages, by index. -/
  sq : List (Nat × Checked) := []
  checked : Option Checked := none
  /-- Source of the last accepted ENTRY datagram (R397): address and port. -/
  source : Nat := 0
  sourcePort : Nat := 0
  /-- Start of the answer bounds of R405, in the time of the context: ns in which neither CQ_FULL was set nor its transport down. -/
  startAt : Nat := 0
  /-- AON instant since which the bounds do not run, and how long they have not run before (R405). -/
  pausedAt : Option Nat := none
  paused : Nat := 0
  deriving DecidableEq, Repr

/-- A REPLY that a tile repeats until its REPLY_ACK (R417); the index of the completion entry that it carries, if it carries one
for the first time. -/
structure Reply where
  seq : Nat
  ctx : Nat
  body : Bytes
  index : Option Nat
  deriving DecidableEq, Repr

/-- The outcome of a retired flock (R199, Table 12-4). -/
structure Retired where
  id : Nat
  commit : Bool
  reason : Nat
  t : Nat
  node : Nat
  deriving DecidableEq, Repr

/-- Hosts, tickets, journal and tunnel (spec/12_hosts_and_tickets.md). -/
structure HostSt where
  ctxs : List Ctx := List.replicate 8 {}
  journal : List JRec := []
  peerJournal : List JRec := []
  epoch : Nat := 0
  lastEpoch : Nat := 0
  /-- The next ticket number of each context in this epoch (R407). -/
  next : List Nat := List.replicate 8 1
  /-- The other head's epoch and next ticket numbers, as it has told them (R413, R415). -/
  peerEpoch : Nat := 0
  peerNext : List Nat := List.replicate 8 1
  /-- Tile: highest origin ticket taken for (context, origin serial) (R417). -/
  taken : List ((Nat × Nat) × Nat) := []
  replies : List Reply := []
  replySeq : Nat := 0
  /-- Bellwether: reply sequences already relayed, for (tile serial, sequence). -/
  relayed : List (Nat × Nat) := []
  /-- The flock ID allocated last (R200). -/
  lastFlock : Nat := 0
  /-- Outcomes of retired flocks that a ticket still names (R199), newest first. -/
  retired : List Retired := []
  deriving DecidableEq, Repr

/-- A register or table write that waits for its latch (R237): address (registers) or identifier and index (tables). -/
structure LatchWrite where
  table : Option Nat
  addr : Nat
  value : Bytes
  tau : Nat
  ctx : Nat
  ticket : Nat
  deriving DecidableEq, Repr

/-- The timing of a timing epoch (R184, R633). -/
structure Timing where
  code : Nat
  slots : Nat
  phase : Nat
  deriving DecidableEq, Repr

/-- Peer delay of one port (R178) and its time-cell stream (R179 to R181). -/
structure PdPort where
  seq : Nat := 0
  /-- Departure of the outstanding PDREQ. -/
  t1 : Option Nat := none
  /-- The measurements of the mean, newest first, at most 16, in units of 2^-16 ns (signed). -/
  hist : List Int := []
  txTally : Nat := 0
  rxLast : Option Nat := none
  /-- Chain arriving on this port: valid, offset sample (2^-16 ns), STEPS, TGEN, ERR and LAG of the sender (ps). -/
  valid : Bool := false
  holdover : Bool := false
  offset : Int := 0
  /-- `offset` is a sample of this chain: a prediction (R181); AON instant of the last time cell (R168). -/
  seen : Bool := false
  rxAt : Nat := 0
  steps : Nat := 0
  tgen : Nat := 0
  err : Nat := 0
  lag : Int := 0
  /-- Filtered chain time minus own clock (CORR of the continued chain, R180). -/
  corr : Int := 0
  /-- UTC offset and flags ([0] UTC_VALID, [1] LEAP61, [2] LEAP59), clockClass and ORIGIN_HEAD of the chain. -/
  utc : Nat := 0
  utcFlags : Nat := 0
  cls : Nat := 0
  head : Nat := 0
  /-- Samples held until the next peer delay (R181): chain time without D, minus arrival. -/
  heldSamples : List Int := []
  deriving DecidableEq, Repr

/-- One alarm timer (R188). -/
structure Alarm where
  armed : Bool := false
  fired : Bool := false
  /-- The node clock when it was armed or last fired. -/
  since : Nat := 0
  pulseEnd : Option Nat := none
  deriving DecidableEq, Repr

/-- A foreign master of the PTP port (R173): its Announce messages so far, the AON instant of the last one, its clockClass, and whether the
BMCA prefers it to this head and to the other masters. -/
structure Foreign where
  id : Nat
  count : Nat
  last : Nat
  cls : Nat
  best : Bool
  deriving DecidableEq, Repr

/-- PTP port of a head (R173, R174). -/
structure Ptp where
  /-- The chosen master and the foreign masters (R173). -/
  master : Option Nat := none
  foreign : List Foreign := []
  /-- Origin minus arrival of the last Sync, and the outstanding delay request: sequence and departure. -/
  syncDelta : Option Int := none
  reqSeq : Nat := 0
  reqT : Option Nat := none
  syncSeq : Nat := 0
  annSeq : Nat := 0
  deriving DecidableEq, Repr

/-- The TIME block beside its registers (spec/05_time.md). -/
structure Time where
  /-- Node clock, in units of 1 / (27 × 2^32) ns (R164). -/
  clock : Nat := 0
  /-- AON time, ns. -/
  aon : Nat := 0
  /-- A lock reset has been made and the clock has not stepped since (R167, R169). -/
  needStep : Bool := true
  /-- The clock has stepped since the node's last reset: frames are told by it (R169, R185). -/
  stepped : Bool := false
  stepAt : Nat := 0
  /-- TIME_SET in force (R198), and the rate of the followed source against this node's own oscillator, as a frequency word (R171). -/
  setSec : Nat := 0
  srcRate : Int := 0
  tgen : Nat := 0
  /-- The reference is qualified (R170, R175). -/
  refOk : Bool := false
  /-- It has qualified since the bellwether's last step (R170). -/
  refRequal : Bool := false
  /-- (clock, RATE) samples of the last HOLD_AVG seconds, newest first (R172). -/
  rates : List (Nat × Int) := []
  pd : List PdPort := List.replicate 7 {}
  ppsLast : Option Nat := none
  ppsGood : Nat := 0
  ppsSecs : Nat := 0
  ptp : Ptp := {}
  /-- The timing of the epoch in force, then of the epochs before it, at most 4 (R633). -/
  epochs : List Timing := [⟨9, 1, 0⟩]
  /-- Wall frame count and slot in force. -/
  frame : Nat := 0
  slot : Nat := 0
  /-- The frame and slot whose slot start came last (R186). -/
  started : Option (Nat × Nat) := none
  /-- The instants T from which the timings of `epochs` but the oldest are in force, newest first, at most 4 (R187, R633). -/
  changes : List Nat := []
  /-- Between T of a timing change and its first swap instant S': that instant, and the count in force until then (R187). -/
  between : Option (Nat × Nat) := none
  alarms : List Alarm := List.replicate 32 {}
  /-- clockClass of the authority's reference as the followed chain carries it, UTC offset and flags of the followed chain ([0] UTC_VALID, [1] LEAP61, [2] LEAP59) and
  the chain head, as this node passes them on (R176). -/
  cls : Nat := 248
  utc : Nat := 0
  utcFlags : Nat := 0
  chainHead : Nat := 0
  deriving DecidableEq, Repr

/-- One tally window (R124) with the in-order delivery of R127. `src` is the tile address for streams 32 to 35 of a tile,
`0x10000` for the other head, and 0 on a tile. -/
structure Win where
  stream : Nat
  src : Nat
  synced : Bool := false
  high : Nat := 0
  /-- Marked tallies: tally, FILLED, CRC-64 over bytes 0 to 503 of the accepted copy. -/
  marks : List (Nat × Bool × Nat) := []
  stale : Nat := 0
  /-- Next tally to deliver; the cells waiting behind it as (tally, instant of arrival, cell); the instant at which the first of
  them came (R127). A head keeps here the cells of messages that are not whole yet. -/
  next : Nat := 0
  waiting : List (Nat × Nat × Bytes) := []
  gapAt : Option Nat := none
  /-- Payloads of the cells of the open message, first to last. -/
  part : List Bytes := []
  deriving DecidableEq, Repr

/-- An enumerated tile as a head knows it (R130 to R133). -/
structure TileRec where
  serial : Nat
  ring : Nat
  hop : Nat
  excess : Bool := false
  gen : Nat := 0
  present : Bool := true
  outOfService : Bool := false
  lastHealth : Nat := 0
  timeOk : Bool := false
  /-- Both of its ring ports were up at its last REPORT or health report (R24). -/
  linked : Bool := true
  /-- Consecutive health reports with an increase of RING_COPY_MISMATCH, and its last value (R142). -/
  mismRun : Nat := 0
  mismLast : Option Nat := none
  report : Bytes := []
  deriving DecidableEq, Repr

/-- The other head as its last HELLO showed it (R137). -/
structure PeerHead where
  state : Nat
  prio : Nat
  serial : Nat
  configEpoch : Nat
  compact : Bool
  clean : Bool
  live : Nat
  incarnation : Nat
  start : Bool
  checksBad : Nat
  deriving DecidableEq, Repr

/-- Digest entries of a stream and frame (R141). -/
structure Digest where
  stream : Nat
  frame : Nat
  filled : Bool
  count : Nat
  sum : Nat
  at_ : Nat
  deriving DecidableEq, Repr

/-- The cells of a stream and frame that this head has sent, in tally order, each with the bytes that the digest covers (R141). -/
structure SentCells where
  stream : Nat
  frame : Nat
  filled : Bool := false
  cells : List (Nat × Bytes) := []
  deriving DecidableEq, Repr

/-- Encryption state of one port (R152 to R155). -/
structure Enc where
  own : Nat := 0
  partner : Option Nat := none
  keys : Bool := false
  sentConf : Bool := false
  verified : Bool := false
  txCount : Nat := 0
  rxCount : Nat := 0
  fails : Nat := 0
  deriving DecidableEq, Repr

/-- Rings, cells and head redundancy (spec/04_ring_and_redundancy.md). -/
structure Ring where
  wins : List Win := []
  /-- Next tally of each stream this node numbers: stream, tally (R123). -/
  tallies : List (Nat × Nat) := []
  /-- The jumps of a takeover (R146): stream, first tally after it, last tally known before it (R209). -/
  jumped : List (Nat × Nat × Nat) := []
  gen : Nat := 0
  wave : Option (Nat × Nat × Nat) := none
  tiles : List TileRec := []
  /-- Tile: enumerated under GEN, a late tile otherwise (R132). -/
  enumerated : Bool := false
  start : Bool := false
  prefer : Bool := false
  bwSerial : Nat := 0
  sbSerial : Nat := 0
  peer : Option PeerHead := none
  /-- AON instants of the last HELLO on any path and on port 6, and of the first port reaching UP (R136, R157). -/
  lastHello : Nat := 0
  lastDirect : Nat := 0
  firstUp : Option Nat := none
  /-- INCARNATION last held from the other head (R126). -/
  peerInc : Option Nat := none
  /-- The copies of R150 have been sent to the other head since its RESYNC began. -/
  resyncSent : Bool := false
  /-- Ring ports of a head that an ENUM has reached, with the ring it named (R129). -/
  mismap : List (Nat × Nat) := []
  /-- The wave this head last started for the other: GEN, ring, DIR (assumption 74). -/
  waveSent : Option (Nat × Nat × Nat) := none
  /-- Tile: late (R132), and the AON instant of its last REQUEST. -/
  late : Bool := false
  joinAt : Option Nat := none
  incarnation : Nat := 0
  live : Nat := 0
  /-- Stream-16 cells that wait for the acknowledgement of their copy (R138): instant, cell. -/
  copies : List (Nat × Bytes) := []
  mirrorUp : Bool := false
  /-- Journal records sent on stream 41 and not acknowledged: instant, context. -/
  mirrors : List (Nat × Nat) := []
  /-- The cells this head has sent and not yet named in a digest entry (R141). -/
  sent : List SentCells := []
  /-- The serial of head A of the tile's ring, 0 where the head that sent the ENUM knew none, and whether the tile's index came with
  DIR = 1, on its east port (R130). Then the head at that end, where no head A was named; and whether a WALL message has ever named a
  standby, so that the wall is no single-head one (R144, R158). -/
  headA : Nat := 0
  enumEast : Bool := false
  eastHead : Nat := 0
  pairSeen : Bool := false
  /-- Own result of the checks of R142 while divergence stands (true: a check failed). -/
  verdict : Option Bool := none
  /-- The outcome of Table 4-6 has been applied to that divergence. -/
  resolved : Bool := false
  /-- Serial and (ring, hop) held under the current GEN, one for each serial and ring (R132, R133). -/
  held : List (Nat × Nat × Nat) := []
  /-- The late tiles whose REQUEST has come on a ring port of this head, and of the other head by its HELLO: serial, ring (R132). -/
  requests : List (Nat × Nat) := []
  peerRequests : List (Nat × Nat) := []
  /-- REQUESTs that the other head has relayed and whose port its HELLO has not named yet (R132). -/
  asks : List Bytes := []
  ownDigests : List Digest := []
  peerDigests : List Digest := []
  /-- Streams whose latest comparisons failed, with the frames of that run (R142). -/
  misruns : List (Nat × List Nat) := []
  /-- Consecutive equal comparisons of each stream since its divergence (R144). -/
  equalRuns : List (Nat × Nat) := []
  diverged : List Nat := []
  /-- Wall frames (32 bits) for which this head's ingest recorded an error, newest first (R142). -/
  inputErr : List Nat := []
  selfFault : Option Nat := none
  /-- Frame-assignment records last held: layer, frame, first tally and count (R146). -/
  records : List (Nat × Nat × Nat × Nat) := []
  resyncPhase : Nat := 0
  /-- Mirroring has stayed up since the journal phase of the other head's last RESYNC, up to its failure (R415). -/
  peerWhole : Bool := false
  /-- Digests found equal in RESYNC since the last unequal one: wall frame, stream; and the first wall frame that counts (R150). -/
  resyncSeen : List (Nat × Nat) := []
  resyncSince : Option Nat := none
  /-- The STANDBY of the pair is a head that has completed a RESYNC, so that R151 may hand it back its authority. -/
  returned : Bool := false
  cleanSince : Option Nat := none
  handbackDue : Bool := false
  /-- The wall was compact when the returning head completed RESYNC (R26, R150). -/
  returnCompact : Bool := false
  /-- Head: committed writes of the registers that decide a tile's lamps, newest first: serial, offset, value (R19). -/
  lampCfg : List (Nat × Nat × Nat) := []
  /-- Instant at which this head became BELLWETHER (R147). -/
  bwSince : Nat := 0
  serviced : List Nat := []
  enc : List Enc := List.replicate 7 {}
  deriving DecidableEq, Repr

/-- One lane (spec/03_oaris_link.md), beside its registers. -/
structure Lane where
  /-- Written taps, CTLE and DFE words, and CDR word that apply at the next marker (R81, R82, R106). -/
  ffePend : Option Nat := none
  eqPend : Bool := false
  cdrPend : Bool := false
  /-- CDR loop values in force: BW, DAMP (R82). -/
  cdr : Nat × Nat := (7, 3)
  /-- AON instant since which the lane has had a signal (Table 3-7, step 1). -/
  sigAt : Option Nat := none
  /-- Last SEQ answered, its ACK (R84); the partner asks for precoding (R86); the partner precodes. -/
  seq : Bool := false
  ack : Nat := 0
  precodeReq : Bool := false
  partnerPrecode : Bool := false
  /-- This lane will precode its mission data (R86). -/
  txPrecode : Bool := false
  /-- Own request toward the partner's FFE: SEQ, bits [6:0] of the control field, and the SEQ_ECHO last received (R84). -/
  reqSeq : Bool := false
  req : Nat := 0
  echo : Bool := false
  /-- Consecutive valid training frames, and consecutive frames with RX_READY (R86). -/
  valid : Nat := 0
  ready : Nat := 0
  /-- State of the training pattern (R83). -/
  pat : Nat := 0
  /-- Last marker count; consecutive markers missed (R98); consecutive valid markers with consecutive counts; the logical lane
  and the partner's port in the last one (R74, R93). -/
  marker : Option Nat := none
  missed : Nat := 0
  mkRun : Nat := 0
  logical : Nat := 0
  mkPort : Nat := 0
  /-- Codewords seen, and the indices of the uncorrectable ones within the last 1,024 (R98). -/
  codewords : Nat := 0
  bad : List Nat := []
  /-- Corrected symbols in this marker period, a symbol error reported in it, both for the period that its marker has ended, and quiet
  periods in a row (R93, R99). A marker's own codeword belongs to the period that it begins. -/
  corr : Nat := 0
  fecErr : Bool := false
  mkCorr : Nat := 0
  mkErr : Bool := false
  quiet : Nat := 0
  /-- The first marker this lane has locked to: the index of its codeword, and its count (R93, R94). -/
  mkPos : Option (Nat × Nat) := none
  /-- The codeword of the last marker's place could not be corrected: its marker is absent (R96). -/
  mkLost : Bool := false
  /-- BIP-8 over the blocks received since the last marker, and over those between the last two markers (R93). -/
  rxBip : Nat := 0
  mkBip : Nat := 0
  /-- The codewords that wait for those of the other lanes: the place each has in the sender's stream, by the marker counts,
  whether it could not be corrected, and its lines (R92, R94, R96). -/
  words : List (Nat × Bool × List (List Bool)) := []
  /-- BIP-8 over the blocks sent since the last marker; the last precoded symbol sent, and the last symbol received (R79, R93). -/
  txBip : Nat := 0
  pre : Nat := 0
  rxPre : Nat := 0
  /-- State of the test pattern generator, and the checker (R101, R102). -/
  gen : Nat := 0
  check : Checker := {}
  /-- Errors to inject from the next symbol sent on; of MODE 3 the symbols sent since the last tick, and how many symbols from the next one
  sent each pending error lies (R103). -/
  inject : Nat := 0
  symbols : Nat := 0
  injectAt : List Nat := []
  deriving DecidableEq, Repr

/-- One port (spec/03_oaris_link.md), beside its registers. Its instants are AON instants, in ns. -/
structure Port where
  /-- Entry into the state it is in, and into the last DETECT. -/
  stateAt : Nat := 0
  detectAt : Nat := 0
  holdEnd : Nat := 0
  /-- A RETRAIN was written that the port has not yet followed (R97). -/
  armed : Bool := false
  /-- Rates failed in this attempt, the partner's offer (R85), the configuration in force since DETECT (R100). -/
  failed : List Nat := []
  offer : Nat := 2
  cfg : Nat := 0x210
  ownReady : Bool := false
  /-- Final training frames still to send, once they have begun (Table 3-7, step 3). -/
  final : Option Nat := none
  gotIdent : Bool := false
  gotCap : Bool := false
  gotConfirm : Bool := false
  sentConfirm : Bool := false
  /-- Instant of the last CHECK messages, and the end of the CONFIRMs in UP (Table 3-7). -/
  checkTx : Option Nat := none
  confirmEnd : Option Nat := none
  partnerEnc : Bool := false
  encOn : Bool := false
  /-- Instant of the last KEYX (R153). -/
  keyxTx : Option Nat := none
  /-- The departing line: where its present run of codewords or training frames began, and how many have been sent. -/
  lineAt : Nat := 0
  lineN : Nat := 0
  /-- Entries of `State.out` that the line has taken; messages waiting for slots, in blocks; the rest of the message being sent;
  slots since the last IDLE; scrambler; marker count (R89 to R95). -/
  sent : Nat := 0
  items : List (List Block) := []
  cur : List Block := []
  gap : Nat := 0
  scr : Nat := 0
  marks : Nat := 0
  /-- For each received cell block that no cell has taken yet, in slot order: its codeword could not be corrected (R96). -/
  rxCells : List Bool := []
  /-- The descrambler, and the received LINK blocks that no message has taken yet, oldest first, with every other control block of a
  codeword that could not be corrected: whether it could not, and its bytes (R91, R96). -/
  rxScr : Nat := 0
  rxLinks : List (Bool × Bytes) := []
  deriving DecidableEq, Repr

/-- The Oaris Link. -/
structure Link where
  lanes : List Lane := List.replicate 32 {}
  ports : List Port := List.replicate 7 {}
  /-- The committed INGEST_ADMIT of the wall, Mb/s (R76). -/
  admitted : Nat := 0
  /-- The departing line of the Ethernet lanes in a PRBS test: its beginning, and the runs sent (R72, R101). -/
  ethLine : Nat × Nat := (0, 0)
  deriving DecidableEq, Repr

/-- One plane line of a frame; `written`: its samples are in frame memory; `filled`: taken from the previous frame (R40);
`bad`: the cells of it that hold an uncorrectable word, each with the word's address (R431). -/
structure PLine where
  line : Nat
  plane : Nat
  data : Bytes
  written : Bool := true
  filled : Bool := false
  bad : List (Nat × Nat) := []
  deriving DecidableEq, Repr

/-- A pattern of PATGEN (R385): kind, colours A and B, size, seed, rectangle. -/
structure Pat where
  kind : Nat
  a : List Nat
  b : List Nat
  size : Nat
  seed : Nat
  x0 : Nat
  y0 : Nat
  x1 : Nat
  y1 : Nat
  deriving DecidableEq, Repr

/-- A source frame in one of a layer's buffers (R37): its identity between heads (Table 2-1), completion instant, lines, and the patterns of
a frame of kind 5 (R386). -/
structure SFrame where
  id : Nat
  doneAt : Nat
  lines : List PLine
  pats : List Pat
  deriving DecidableEq, Repr

/-- A layer frame being sent (R34, R56). -/
structure Sending where
  frame : Nat
  /-- 0 NEW, 2 CUT_THROUGH (Table 2-5). -/
  action : Nat
  first : Nat
  /-- The plane lines in sending order; in cut-through, some are not yet written. -/
  lines : List PLine
  cells : Nat
  next : Nat
  start : Nat
  span : Nat
  /-- S_n of its frame; its active interval has ended and its missing lines are filled (R40). -/
  swap : Nat
  closed : Bool := false
  /-- The cells before `next` that wait for their lines, in rising order (R34, R39). -/
  gaps : List Nat := []
  deriving DecidableEq, Repr

/-- The frames of a layer's source as they come in: identity of the one being written, whether it can no longer become complete (R38),
the complete ones not yet sent, newest first (R37), and the completion instants of the last ones. -/
structure Intake where
  writing : Option Nat := none
  broken : Bool := false
  done : List SFrame := []
  ends : List Nat := []
  deriving DecidableEq, Repr

/-- The configuration of a committed flock before its T, for one layer (R33): the flock, T, the register values, the timing it commits,
whether it changes the layer's ingest configuration, whether a latch point under it has come, and what its source has delivered. -/
structure NextCfg where
  id : Nat
  at_ : Nat
  regs : List (Nat × Word)
  timing : Option Timing
  ingest : Bool
  taken : Bool := false
  inn : Intake := {}
  deriving DecidableEq, Repr

/-- What the decisions of a layer rest on beside the registers (R36 to R41, R54). -/
structure Deciding where
  inn : Intake := {}
  /-- The frame held as the previous one (R40). -/
  prev : Option SFrame := none
  dropped : Nat := 0
  /-- Pending commits of the buffer address and of the clip word, with their timestamps (R36). -/
  addrCommits : List (Nat × Nat) := []
  clipCommits : List (Nat × Nat) := []
  addr : Nat := 0
  clipId : Nat := 0
  clipMode : Nat := 0
  clipStart : Nat := 0
  clipLast : Option Nat := none
  /-- The patterns of the last frame sent (R386). -/
  patsSent : Option (List Pat) := none
  /-- Bound as a still and not shown since; a commit of its address applies to the frame last latched (R36). -/
  bound : Bool := false
  moved : Bool := false
  ctLate : Nat := 0
  ctGood : Nat := 0
  /-- Fallen back to frame-synchronised mode (R41). -/
  ctOff : Bool := false
  /-- S_n of the last latch point handled; the last frame whose record came; a latch point that passed on the standby
  without a record (R60, R147). -/
  latched : Option Nat := none
  recordFor : Option Nat := none
  undecided : Option Nat := none
  deriving DecidableEq, Repr

/-- The frames of a layer that are still under an older configuration, while frames of a newer one are already decided (R33): S_n of the
first frame under the newer one, whether both take the same source, whether the previous frame of R40 passes from the one to the other, and
what the older decisions rest on. -/
structure Before where
  at_ : Nat
  same : Bool
  keep : Bool
  dec : Deciding
  deriving DecidableEq, Repr

/-- One layer of a head (spec/02_ingest.md), beside its registers. -/
structure ILayer extends Deciding where
  sending : List Sending := []
  /-- Lines written of a cut-through frame whose cells are not yet queued: instant, format, line (R39). -/
  ctLines : List (Nat × Nat × PLine) := []
  /-- The committed flocks whose T has not come, in the order in which they apply (R33). -/
  next : List NextCfg := []
  /-- Older configurations with frames still to decide, in rising order (R33). -/
  before : List Before := []
  deriving DecidableEq, Repr

/-- What the MSA of a DisplayPort stream says (R44): size, colour model and bits per component as in `SrcFrame`, scan. -/
structure Msa where
  width : Nat
  height : Nat
  model : Nat
  bpc : Nat
  interlaced : Bool
  deriving DecidableEq, Repr

/-- One DisplayPort receiver: the last MSA, complete frames in a row under it, and the instant at which the running frame began. -/
structure DpRx where
  msa : Option Msa := none
  same : Nat := 0
  start : Option Nat := none
  deriving DecidableEq, Repr

/-- One ST 2110 flow (R47 to R50): the open frame's RTP timestamp, the distinct sequence numbers received in it, that of its marker; the
last sequence number of the frame before and whether that had its marker; the rows placed (line, plane, first byte, bytes) and the lines
they make; packets of other frames in the buffer; the AON instants of the last packet and of the first report. -/
structure Flow where
  stamp : Option Nat := none
  seqs : List Nat := []
  last : Option Nat := none
  base : Option Nat := none
  ended : Bool := false
  bad : Bool := false
  rows : List (Nat × Nat × Nat × Nat) := []
  lines : List PLine := []
  held : List Packet := []
  lastAt : Option Nat := none
  reports : Nat := 0
  joinedAt : Nat := 0
  deriving DecidableEq, Repr

/-- Source ingest of a head. -/
structure Ingest where
  layers : List ILayer := List.replicate 16 {}
  dp : List DpRx := List.replicate 4 {}
  flows : List Flow := List.replicate 16 {}
  /-- Packets discarded on each Ethernet port (R47). -/
  discards : List Nat := [0, 0, 0, 0]
  /-- Committed flocks that changed ingest configuration (R59). -/
  configEpoch : Nat := 0
  /-- Clip directory entries found bad, for the health report (R51, R55). -/
  clipBad : Nat := 0
  /-- Tickets of address and clip commits that wait for their latch point: layer, timestamp, context, ticket (R36, R408). -/
  holds : List (Nat × Nat × Nat × Nat) := []
  deriving DecidableEq, Repr

/-- A valid entry of the clip directory (Table 2-4). -/
structure ClipEnt where
  fmt : Nat
  num : Nat
  den : Nat
  width : Nat
  height : Nat
  count : Nat
  base : Nat
  stride : Nat
  deriving DecidableEq, Repr

/-- One memory channel (R442): grants in the running window of 1,024, those of classes 1 to 7, and refreshes done. -/
structure MemCh where
  grants : Nat := 0
  given : List Nat := [0, 0, 0, 0, 0, 0, 0]
  refreshes : Nat := 0
  deriving DecidableEq, Repr

/-- Frame memory controller (spec/13_frame_memory.md) beside its registers and contents. -/
structure MemSt where
  /-- Words that hold an uncorrectable error (R430, R431), and corrected granules that wait for their write-back (R435). -/
  bad : List Nat := []
  back : List Nat := []
  chans : List MemCh := List.replicate 8 {}
  /-- AON instant at which the uniform scrub schedule was at address 0 (R433). -/
  scrubAt : Nat := 0
  /-- Clip store base and size of the last training (R437). -/
  lastClip : Option (Nat × Nat) := none
  deriving DecidableEq, Repr

/-- A sparse table of numbers: (key, value) in strictly rising order of key, no value 0; a key not listed holds 0. -/
abbrev KV := List (Nat × Nat)

/-- A stored layer frame of a tile (R256): its WALL_FRAME; its cells as (line, plane, cell, payload). -/
structure TFrame where
  frame : Nat
  cells : List (Nat × Nat × Nat × Bytes)
  /-- Timing epoch that the count is given under (R633); stored by a flock's staged configuration, with its ID (R260). -/
  tepoch : Nat := 0
  staged : Option Nat := none
  /-- The frame was complete at its own latch (R256). -/
  whole : Bool := false
  deriving DecidableEq, Repr

/-- A HURDLE message held (R262): value, EFFECTIVE, TEPOCH, tally of its cell. -/
structure HMsg where
  value : Nat
  effective : Nat
  tepoch : Nat
  tally : Nat
  deriving DecidableEq, Repr

/-- A POSE message held (R284). -/
structure PoseMsg where
  valid : Bool
  effective : Nat
  x : Nat
  y : Nat
  z : Nat
  tepoch : Nat
  tally : Nat
  deriving DecidableEq, Repr

/-- A layer of a tile, beside its registers (R256 to R262). -/
structure TLayer where
  frames : List TFrame := []
  shown : Option TFrame := none
  hurdles : List HMsg := []
  /-- The value in force used at the last frame latch. -/
  used : Option Nat := none
  /-- Head: the posts in force and to come (R261), newest first. -/
  posts : List HMsg := []
  deriving DecidableEq, Repr

/-- Entries of bad parity in the copy of a table that one fold holds (R254, R279): the table, or for a profile its class as 0x10000 +
class; the entries still to be written before the table is whole; the faulty entries. -/
structure BadTable where
  fold : Nat
  key : Nat
  left : List Nat
  bad : List Nat
  deriving DecidableEq, Repr

/-- Composition and correction (spec/07_composition.md, spec/08_lamp_correction.md) beside the registers. -/
structure Comp where
  layers : List TLayer := List.replicate 16 {}
  /-- Table entries that differ from the reset content: key identifier × 2^24 + index, value + 1. -/
  tabs : KV := []
  /-- Tables with entries of bad parity (R254, R279). -/
  tabBad : List BadTable := []
  /-- Addresses of the lamp entries that failed their check and have not been written since: their lamps stay at 0 (R276). -/
  lampBad : List Nat := []
  /-- Frame count of the last frame latch; frame and slot of the slot being composed. -/
  latched : Option Nat := none
  /-- Timing epoch that the count of the frame latched is given under (R633). -/
  latchEpoch : Nat := 0
  slot : Option (Nat × Nat) := none
  slotAt : Nat := 0
  /-- The slot has been dropped or swapped; its push deadline has come; a fold fault has dropped it. -/
  closed : Bool := true
  pastDeadline : Bool := true
  dropped : Bool := false
  /-- Poses held, and the pose used in the last slot of each camera with its frame; the bellwether's last posts. -/
  poses : List (List PoseMsg) := [[], [], [], []]
  poseUsed : List (Option PoseMsg) := [none, none, none, none]
  poseFrame : List Nat := [0, 0, 0, 0]
  /-- Frame of the last slot latched for each camera (R284). -/
  poseSlot : List (Option Nat) := [none, none, none, none]
  /-- Head: for each camera the poses in force and to come (R283), newest first. -/
  posePosts : List (List PoseMsg) := [[], [], [], []]
  /-- Dimming: the mode of the last frame latch with DIM_MODE = 0 (none: the next takes R290's first rule), B, G and s of the frame. -/
  pwm : Option Bool := none
  bright : Nat := 65536
  gain : Nat := 1023
  scale : Nat := 65536
  /-- Lamps clipped in the slot being composed (R288). -/
  clipped : Nat := 0
  /-- OUT_OF_STEP of hurdles and poses until the next frame latch (R262, R284). -/
  hurdleOos : Bool := false
  poseOos : List Bool := [false, false, false, false]
  /-- Table memories of a fold that memory BIST has left at 0 (none) or with open contents (the first free value): instance,
  entries written since (R552, R562). `view`: the fold whose tables are being read. -/
  wiped : List (Nat × Option Nat × List Nat) := []
  view : Option Nat := none
  deriving DecidableEq, Repr

/-- A strip of lamps (R379): group, rectangle, layer mask, NOCULL, ANGLE issued, the pattern of PATGEN. -/
structure PStrip where
  group : Nat
  x0 : Nat
  y0 : Nat
  x1 : Nat
  y1 : Nat
  mask : Nat
  nocull : Bool
  angle : Bool
  pat : Option Pat
  deriving DecidableEq, Repr

/-- An issued pipeline instruction (R360): opcode, what it captured, the scratch address of its record; a SIGNAL has opcode
0x62 and waits in its place. `arg`: check rectangle of CRC, DISCARD of PUSH, flags of SIGNAL, layer of a head's PATGEN.
`started`, `dirty`, `queued`: a PUSH has queued its frames, and what its record will hold. -/
structure PItem where
  op : Nat
  strip : PStrip
  rec_ : Option Nat
  arg : Nat
  started : Bool
  dirty : Nat
  queued : Nat
  /-- The index of the instruction, which a fault of its stage records (R365). -/
  pc : Nat
  deriving DecidableEq, Repr

/-- A fold transaction (R388): boundary, frame with the timing epoch of its count, stores (word index, value); once ended,
the frame at whose swap instant it applies. -/
structure FoldTx where
  boundary : Nat
  frame : Nat
  tepoch : Nat
  stores : List (Nat × Nat)
  count : Nat
  deriving DecidableEq, Repr

/-- A staged or grouped write (R202, R222): a register (no table) with its offset, or a table entry with its index; bytes. -/
structure Wr where
  table : Option Nat
  at_ : Nat
  value : Bytes
  deriving DecidableEq, Repr

/-- A participant's counted vote (R211): serial, READY, reason, STAGED_COUNT. -/
structure Vote where
  serial : Nat
  ready : Bool
  reason : Nat
  staged : Nat
  deriving DecidableEq, Repr

/-- A flock record (R218, R228) with the staged content of this node and, on the bellwether, the course of the call. -/
structure Flock where
  id : Nat
  /-- State and reason codes of R228. -/
  st : Nat := 1
  reason : Nat := 0
  exclusive : Bool := false
  ctx : Nat := 0
  /-- Wall frame count of T and the timing epoch it counts under; D_v; GUARD in µs; the marks of R210. -/
  t : Nat := 0
  tepoch : Nat := 0
  dv : Nat := 0
  guard : Nat := 0
  txMark : Option Nat := none
  mgmtMark : Option Nat := none
  /-- Staged content, in order; staged writes received on stream 19. -/
  content : List Wr := []
  received : Nat := 0
  /-- First failure found (R202); a cell of stream 19 or 20 lost while staging; last vote of each fold (R224). -/
  failure : Option Nat := none
  lost : Bool := false
  foldVotes : List (Nat × Bool) := []
  voted : Bool := false
  openedAt : Nat := 0
  /-- Frame at whose swap instant the commit applies; the outcome came late (R215); swap instants since the outcome was
  last heard (R217). -/
  applyAt : Option Nat := none
  late : Bool := false
  quiet : Nat := 0
  /-- The composition part has been applied at the frame latch before T (R214); staged content failed a check after the vote
  (R218). -/
  latched : Bool := false
  broken : Bool := false
  /-- Bellwether: this node opened or took over the flock; serial of the opener; staged writes sent, by target. -/
  own : Bool := false
  opener : Nat := 0
  /-- Head: an earlier FLOCK_OPEN of the other head than the one now EXECUTING has opened it (R414). -/
  placed : Bool := false
  targets : List (Nat × Nat) := []
  /-- Head: staged writes of the registers that decide a tile's lamps, newest first: serial, offset, value (R19). -/
  lampCfg : List (Nat × Nat × Nat) := []
  /-- Tile: INGEST_ADMIT after the flock, as the bellwether sent it with the content (R76). -/
  admitMb : Option Nat := none
  called : Bool := false
  parts : List Nat := []
  votes : List Vote := []
  acks : List Nat := []
  node : Nat := 0
  decided : Option Bool := none
  /-- The outcome that an ACK of the flock has named to a head that holds none (R220). -/
  ackSaid : Option Bool := none
  repeats : Nat := 0
  /-- Called and undecided when this head took authority (R220). -/
  taken : Bool := false
  /-- Head: the outcome is kept for R213, though this node has not voted (R217). -/
  unvoted : Bool := false
  /-- Tickets that complete with the outcome: context, ticket. -/
  tickets : List (Nat × Nat) := []
  /-- Head: staged writes that the bellwether has sent (R220, R230). The place of its CALL among those of the node's flocks (R204). -/
  sent : Nat := 0
  order : Nat := 0
  deriving DecidableEq, Repr

/-- A group that has ended and awaits its boundary (R223): the frame at whose swap instant it applies, counted under the given
timing epoch, its writes and its tickets. -/
structure TxEnd where
  boundary : Nat
  frame : Nat
  tepoch : Nat
  content : List Wr
  tickets : List Nat
  deriving DecidableEq, Repr

/-- The local transactions of a context (R221 to R223), beside FLOCK_TXc_STATUS: the open one, and those that await their
boundary. -/
structure Tx where
  opened : Bool := false
  ended : List TxEnd := []
  boundary : Nat := 0
  frame : Nat := 0
  tepoch : Nat := 0
  content : List Wr := []
  tickets : List Nat := []
  failure : Option Nat := none
  openedAt : Nat := 0
  deriving DecidableEq, Repr

/-- One fold (Table 10-1) beside its registers. -/
structure Fold where
  prog : KV := []
  load : KV := []
  scratch : KV := []
  /-- Words with bad parity of the program memory, the load image and scratch. -/
  progBad : List Nat := []
  loadBad : List Nat := []
  scratchBad : List Nat := []
  k : List (BitVec 32) := List.replicate 32 0
  q : List (BitVec 64) := List.replicate 16 0
  z : Bool := false
  n : Bool := false
  c : Bool := false
  v : Bool := false
  pc : Nat := 0
  events : Nat := 0
  queue : List PItem := []
  /-- Open strips: last stage opcode, strip. -/
  strips : List (Option (Nat × PStrip)) := [none, none, none, none]
  /-- The run: its frame, slot, start instant and deadline; TDONE or HALT executed; HALT executed. -/
  frame : Nat := 0
  slot : Nat := 0
  start : Nat := 0
  deadline : Nat := 0
  ended : Bool := false
  halt : Bool := false
  /-- A run was started for the slot (the frame, on a head); it completed; it faulted; faulted runs in a row (R366). -/
  began : Bool := false
  complete : Bool := false
  faulted : Bool := false
  faultRuns : Nat := 0
  /-- Timestamps of the pending ACTIVATEs (R351), and of what makes the fold RUNNING from its frame latch on (R352). -/
  acts : List Nat := []
  toRun : Option Nat := none
  /-- HALTED, or STOPPED, from the next slot latch. -/
  toHalt : Bool := false
  toStop : Bool := false
  /-- Instant awaited by WAITT or PAUSE; fold and mask of WAITH; limit of YIELD. -/
  until_ : Option Nat := none
  waitFlags : Option (Nat × Nat) := none
  yieldTo : Option Nat := none
  steps : Nat := 0
  /-- Inactive time of the run, ns (R363); wait time of the pacing window so far; instant at which the present wait began. -/
  idle : Nat := 0
  winIdle : Nat := 0
  /-- Pacing windows of 1,024 ns since POR_N that have ended; AON instant at which the run's part of the present one began (R363). -/
  windows : Nat := 0
  winAt : Nat := 0
  /-- The duty of the present pacing window (R486). -/
  winDuty : Nat := 16
  waitFrom : Option Nat := none
  tx : Option FoldTx := none
  scheduled : Option FoldTx := none
  /-- Lamps composed, pairs culled and units fetched in the run. -/
  lamps : Nat := 0
  culled : Nat := 0
  fetched : Nat := 0
  /-- Head: patterns written in this run, by layer. -/
  pats : List (Nat × Pat) := []
  deriving DecidableEq, Repr

/-- A frame queued on a Lamp Bus port (R303, R319): priority 1 to 6, bytes, whether it is in the line buffer, the fold whose
PUSH queued it, the blocks it writes as (group, block index, hash), times sent with a pad mismatch. -/
structure LFrame where
  prio : Nat
  bytes : Bytes
  inBuf : Bool
  fold : Option Nat
  blocks : List (Nat × Nat × Nat)
  tries : Nat
  /-- Of a PROBE, the channels it probes: group, lamp, channel (R333). -/
  probes : List (Nat × Nat × Nat) := []
  deriving DecidableEq, Repr

/-- A driver as the tile knows it (R328). -/
structure Driver where
  crcErrs : Option Nat := none
  unanswered : Nat := 0
  /-- The last frame in which a read of its summary was not answered (R328). -/
  missAt : Option Nat := none
  answered : Bool := false
  wrong : Bool := false
  confirmed : Bool := false
  minOn : Nat := 0
  deriving DecidableEq, Repr

/-- One Lamp Bus port beside its registers. -/
structure LPort where
  queue : List LFrame := []
  sending : Option LFrame := none
  /-- The outstanding STATUS_READ: hop, page, AON instant at which it was sent. -/
  asked : Option (Nat × Nat × Nat) := none
  drivers : List Driver := List.replicate 64 {}
  /-- Frame numbers, counted on the port, of the latest mismatching frames; frames sent; clean frames in a row. -/
  sent : Nat := 0
  bad : List Nat := []
  clean : Nat := 0
  /-- The running disparity of each lane, true for positive (R302). -/
  disparity : List Bool := [false, false, false, false]
  /-- The return lane's phase is aligned (R299). -/
  phased : Bool := false
  starved : Bool := false
  deriving DecidableEq, Repr

/-- One output group beside its registers. -/
structure LGroup where
  /-- Valid references: block index, hash (R316). -/
  refs : KV := []
  /-- Blanked (R324); programming of its drivers awaited at the end of a blanked state (R634). -/
  blanked : Bool := true
  programming : Bool := false
  /-- The BLANK of the present blanked state has been given to the ports (R324). -/
  blankSent : Bool := false
  /-- The group has been sent a picture since the tile booted (R135). -/
  shown : Bool := false
  /-- The drivers have executed a SWAP since their last BLANK, so that BLANKED in a summary is unexpected (R318). -/
  swapped : Bool := false
  /-- In the hold of a timing-mode change: the first swap count under the new timing (R326). -/
  hold : Option Nat := none
  black : Bool := false
  /-- Every driver had confirmed at the last frame latch (R326). -/
  ready : Bool := false
  lsync : Bool := false
  /-- The instant of the last LSYNC edge, or that before which slots have none (R312). -/
  edge : Nat := 0
  /-- The start of the latest slot that has had its edge (R312). -/
  edged : Nat := 0
  deriving DecidableEq, Repr

/-- Lamp Bus (spec/09_lamp_bus.md) beside its registers. -/
structure Lamp where
  ports : List LPort := List.replicate 16 {}
  groups : List LGroup := List.replicate 4 {}
  /-- Current-gain code last sent (R292). -/
  gainSent : Option Nat := none
  swapSent : Bool := false
  /-- Check rectangles of the slot: lamps accumulated as (rectangle, u, v, bytes) (R383). -/
  checks : List (Nat × Nat × Nat × Bytes) := []
  /-- Rectangles of lamps pushed in the slot: group, x0, y0, x1, y1 (R384). -/
  pushed : List (Nat × Nat × Nat × Nat × Nat) := []
  /-- Diagnostic round: its read phase runs; pages read as (port, hop, page, data); channels probed as (group, index, channel). -/
  reading : Bool := false
  round : Option Nat := none
  probeDone : Bool := false
  /-- The frame of the last full refresh by LAMP_REFRESH (R318). -/
  refreshed : Option Nat := none
  pages : List (Nat × Nat × Nat × Bytes) := []
  overrun : Bool := false
  probed : List (Nat × Nat × Nat) := []
  deriving DecidableEq, Repr

/-- Threshold states and the controller of one region (Table 15-2, R485). -/
structure Region where
  levelWarn : Bool := false
  levelThrottle : Bool := false
  rateWarn : Bool := false
  rateThrottle : Bool := false
  /-- AON instants since which the exit conditions of these four states have held. -/
  leaving : List (Option Nat) := [none, none, none, none]
  /-- AON instant since which the rate has been above 4 °C/s. -/
  rising : Option Nat := none
  /-- Controller value, and the node-clock instant of its next tick. -/
  c : Nat := 16
  tick : Option Nat := none
  deriving DecidableEq, Repr

/-- One calibration unit (Table 15-4): measuring or ramping, steps of the ramp left, a trigger held, its last outcome. -/
structure Cal where
  busy : Bool := false
  ramp : Nat := 0
  held : Bool := false
  deriving DecidableEq, Repr

/-- Thermal model and calibration (spec/15_thermal_and_calibration.md). Temperatures of the model are in 2^-38 °C, those of
the sensor and the estimates in 1/64 °C. -/
structure Therm where
  temp : List Int := List.replicate 7 0
  started : Bool := false
  /-- The last 100 values of each node, newest first; F of each region at the last 51 rate evaluations, newest first. -/
  recent : List (List Int) := List.replicate 7 []
  marks : List (List Int) := List.replicate 6 []
  regions : List Region := List.replicate 6 {}
  /-- The last 16 samples; the AON instant at which a fault condition last held. -/
  samples : List Int := []
  lastBad : Nat := 0
  /-- Reason code of the fault condition at the latest sample, 0 for none. -/
  nowBad : Nat := 0
  /-- The write window has not been judged since power-on or the last reset. -/
  winFresh : Bool := true
  /-- Monitors that fail their self-check, and those that failed calibration unit MONITOR; unit MODEL failed. -/
  monBad : List Nat := []
  monFail : List Nat := []
  modelFail : Bool := false
  /-- In the hold of a trip; its AON instant; the AON instants of the trips since POR_N, newest first. -/
  hold : Bool := false
  tripAt : Nat := 0
  trips : List Nat := []
  /-- Instant since which the reopening conditions of the write window have held (R490); since which the memory PHY has been
  below the exit level of the doubled refresh (R450). -/
  opening : Option Nat := none
  cooling : Option Nat := none
  cals : List Cal := List.replicate 5 {}
  deriving DecidableEq, Repr

/-- A unit of flash or OTP writing (R491). -/
inductive FlashUnit where
  | erase (addr : Nat)
  | program (addr : Nat) (data : Bytes)
  | lifeCycle (st : Nat)
  | revoke (mask : Nat)
  | counter
  | keyHash (slot : Nat) (hash : Bytes)
  | ids (data : Bytes)
  | wipeKeys
  | repair (rec_ : Nat × Nat × Nat)
  deriving DecidableEq, Repr

/-- What asked for a run of units. -/
inductive JobKind where
  /-- The erase of the staged GO of a flock (R529), its intent program, a confirmation (R532), the rest of a burn. -/
  | prepare
  | intent (flock : Nat)
  | confirm
  | burn
  /-- BEGIN and CANCEL of the slot (false) and of the calibration area (true), and sectors of a download (R526). -/
  | dlBegin (cal : Bool)
  | dlCancel (cal : Bool)
  | dlWrite (cal : Bool) (header : Bool) (sectors : Nat)
  | wallKey (record : Bytes)
  | lc (target : Nat)
  | revoke
  | otp
  | repair
  deriving DecidableEq, Repr

/-- A run of units that a function asked for; the ticket that completes with it. -/
structure Job where
  kind : JobKind
  units : List FlashUnit
  ticket : Option (Nat × Nat) := none
  ctx : Nat := 0
  /-- AON instant of a request that met a closed write window: its deferral counts from there (R491). -/
  asked : Option Nat := none
  deriving DecidableEq, Repr

/-- One-time programmable contents (Table 16-5). -/
structure Otp where
  lc : Nat := 0
  serial : Option Nat := none
  ids : Option Bytes := none
  hashes : List (Option Bytes) := [none, none, none, none]
  revoked : Nat := 0
  rmaHash : Option Bytes := none
  counter : Nat := 0
  privateKeys : Bool := false
  /-- Repair records: instance, failing address, failing bit. -/
  repairs : List (Nat × Nat × Nat) := []
  deriving DecidableEq, Repr

/-- Boot, life cycle and update (spec/16_boot_and_update.md), beside the registers. -/
structure Boot where
  otp : Otp := {}
  /-- The wall key in the key store, as the number its 32 bytes spell (R153, R523). -/
  wallKey : Option Nat := none
  /-- The flash: the complement of its bytes, so that an unlisted address reads as erased, 0xFF. -/
  flash : List (Nat × Byte) := []
  /-- The boot ROM is due to start; it has loaded an image and waits for memory training; the image runs. -/
  romDue : Bool := false
  training : Bool := false
  running : Bool := false
  /-- The boot was forced by BOOT_SRC. -/
  forced : Bool := false
  /-- Of the running image: BODY_DIGEST, IMAGE_VERSION, ROLLBACK. -/
  digest : Bytes := []
  version : Nat := 0
  rollback : Nat := 0
  startAt : Nat := 0
  /-- The window of the running trial: its end on AON time (R531). -/
  windowEnd : Option Nat := none
  /-- The window ended without a confirmation: the node resets at the next swap instant (R533). -/
  expired : Bool := false
  /-- Wall frame count of T of a committed activation whose intent has been written (R529). -/
  activateAt : Option Nat := none
  /-- A program or read-back of the intent failed (R529). -/
  intentBad : Bool := false
  /-- Units waiting; the first unit of the first job is in progress; AON instant at which it was deferred. -/
  jobs : List Job := []
  unitOn : Bool := false
  deferredAt : Option Nat := none
  /-- The kind of the attestation in progress. -/
  attest : Option Nat := none
  deriving DecidableEq, Repr

/-- One LBIST partition (R550): seed, expected signature, its validity, last MISR, last result, AON instant of the last PASS or
FAIL. -/
structure BPart where
  seed : Nat := 0
  expect : Nat := 0
  valid : Bool := false
  misr : Nat := 0
  result : Nat := 0
  at_ : Option Nat := none
  deriving DecidableEq, Repr

/-- A BIST run: memory (true) or logic; online; what is still to run, first the one in progress; a sample has failed. -/
structure BRun where
  mem : Bool
  online : Bool
  left : List Nat
  bad : Bool := false
  deriving DecidableEq, Repr

/-- Self-test and health (spec/17_self_test.md), beside the registers. -/
structure Bist where
  parts : List BPart := List.replicate 28 {}
  run : Option BRun := none
  /-- Partitions and instances refused after an unconfirmed clear: (memory, index) (R554). -/
  barred : List (Bool × Nat) := []
  /-- Instances that failed and cannot be repaired; repairs held in the volatile registers: instance, address, bit. -/
  failed : List Nat := []
  repairs : List (Nat × Nat × Nat) := []
  /-- Online rotation: the window in progress, none before the first, and whether its partition has still to be tested. -/
  window : Option Nat := none
  due : Bool := false
  lastFault : Option Nat := none
  /-- Health report: free-running counts taken out of the RC registers (offset, count), sequence, instants of the last
  uncorrectable error and fold fault, the reports a head keeps: address, instant, bytes. -/
  base : KV := []
  seq : Nat := 0
  /-- The interval of 100 ms that the last send instant of the report began: by the node clock (true) or by AON time (R564). -/
  slot : Option (Bool × Nat) := none
  lastUe : Option Nat := none
  lastFold : Option Nat := none
  reports : List (Nat × Nat × Bytes) := []
  deriving DecidableEq, Repr

end Sys2Proof.Machine
end

