-- ==== Sys2Proof/Machine/State.lean ====
section
/-! DEFINITION. The state of the node: the register file, the frame memory, the state of each unit, what it has sent, and the
queue of waiting commands; the reasons a step can stop; and the state right after power-on. -/
set_option Elab.async false
namespace Sys2Proof.Machine

/-- The registers of the node: (offset, value) in strictly rising order of offset, no value 0; an offset that is not listed
holds 0. -/
abbrev RegFile := List (Nat × Word)

/-- Bytes of a memory: (address, byte) in strictly rising order of address, no byte equal to what an unlisted address reads
as, which is 0. -/
abbrev Memory := List Host.Cell

/-- What the node has sent to the outside, in order. -/
inductive Out where
  /-- A cell on a port (R117). -/
  | cell (port : Nat) (bytes : Bytes)
  /-- A LINK block on a port (R90). -/
  | link (port : Nat) (kind : Nat) (body : Bytes)
  /-- Symbols on a lane of the Oaris Link: NRZ or PAM4, in order of sending (R78). -/
  | line (lane : Nat) (nrz : Bool) (symbols : List Nat)
  /-- A frame on a Lamp Bus port (R302). -/
  | lamp (port : Nat) (bytes : Bytes)
  /-- The code groups of the four lanes of a Lamp Bus port, from SOF to the IDLE after EOF or ABORT (R302). -/
  | lampLine (port : Nat) (lanes : List (List Nat))
  /-- An LSYNC edge of a group (R312). -/
  | lsync (group : Nat) (level : Bool)
  /-- A frame on an Ethernet port of the head: protocol, content (R50, R173). -/
  | eth (port : Nat) (proto : Nat) (content : Bytes)
  /-- A PTP message: Ethernet port, UDP port, VLAN tag, IP destination, content (R173). -/
  | ptp (port udp : Nat) (vlan : Option Nat) (dst : Nat) (content : Bytes)
  /-- A management datagram or an ARP answer (R397). -/
  | dgram (ip : Nat) (port : Nat) (content : Bytes)
  /-- An MSI-X message: function and vector (R420). -/
  | msix (fn : Nat) (vec : Nat)
  /-- The value that a register read of a context's own returns (R8, R396). -/
  | value (ctx : Nat) (v : Nat)
  /-- Data written to a host by PCIe (R403, R417). -/
  | dma (ctx : Nat) (addr : Nat) (content : Bytes)
  /-- The level that a GPIO pin takes; none when it is released or an input (R599). -/
  | pin (name : Nat) (level : Option Bool)
  /-- A DisplayPort AUX reply or HPD pulse (R42, R43). -/
  | dp (rx : Nat) (content : Bytes)
  /-- A HELLO on a port (R137). -/
  | hello (port : Nat) (h : Hello)
  /-- A message to the other head on stream 40, 41 or 43 (R59, R140, R150): port, stream, content. -/
  | head (port : Nat) (stream : Nat) (content : Bytes)
  /-- Bytes sent to the flash or an OTP burn (R491). -/
  | flash (addr : Nat) (content : Bytes)
  deriving DecidableEq, Repr

/-- The state. -/
structure State where
  regs : RegFile
  mem : Memory
  /-- The model's own counter: the argument of the next free value. -/
  fresh : Nat
  out : List Out
  pwr : Pwr
  xing : Xing
  time : Time
  host : HostSt
  ring : Ring
  link : Link
  ingest : Ingest
  mst : MemSt
  comp : Comp
  folds : List Fold
  lamp : Lamp
  therm : Therm
  boot : Boot
  bist : Bist
  flocks : List Flock
  txs : List Tx
  latch : List LatchWrite
  /-- Commands waiting, first in, first out. -/
  pending : List Instr
  deriving DecidableEq, Repr

/-- Why a run stops with a fault. No command of this block faults: the spec gives every event an effect, a count or a
discard, so the type has the one constructor that the model keeps for a state outside every rule. -/
inductive Fault where
  /-- Raised by no meaning (safe). -/
  | unreachable
  deriving DecidableEq, Repr

/-- Why a command is refused. -/
inductive Refusal where
  /-- The command has no meaning yet (safe): raised by `exec` alone. -/
  | notModelled (mnemonic : String)
  deriving DecidableEq, Repr

/-- The state right after a power-on reset, with POR_N still low: every register at the reset value of its map (tile role,
straps 0), frame memory with nothing listed. -/
def State.reset : State where
  regs := resetCells
  mem := []
  fresh := 0
  out := []
  pwr := {}
  xing := {}
  time := {}
  host := {}
  ring := {}
  link := {}
  ingest := {}
  mst := {}
  comp := {}
  folds := List.replicate 4 {}
  lamp := {}
  therm := {}
  boot := {}
  bist := {}
  flocks := []
  txs := List.replicate 8 {}
  latch := []
  pending := []

end Sys2Proof.Machine
end

