-- ==== Sys2Proof/Machine/Ops.lean ====
section
/-! DEFINITION. The named operations over registers, memory, free values and what the node sends; interrupts (R420). -/
set_option Elab.async false
namespace Sys2Proof.Machine

/-! ### The register file -/

/-- Insert in rising order of offset. -/
def RegFile.insert (a : Nat) (v : Word) : RegFile → RegFile
  | [] => [(a, v)]
  | (b, x) :: r => if a < b then (a, v) :: (b, x) :: r else (b, x) :: RegFile.insert a v r

/-- The register at offset `a`. -/
def RegFile.get (m : RegFile) (a : Nat) : Word :=
  match m with
  | [] => 0
  | (b, x) :: r => if b = a then x else RegFile.get r a

/-- The register file without offset `a`. -/
def RegFile.erase (m : RegFile) (a : Nat) : RegFile := m.filter (fun p => p.1 != a)

/-- Write a register; a value of 0 leaves no entry. -/
def RegFile.set (m : RegFile) (a : Nat) (v : Word) : RegFile :=
  if v = 0 then m.erase a else RegFile.insert a v (m.erase a)

/-- The canonical form: offsets strictly rising, no value 0. -/
def RegFile.wf : RegFile → Bool
  | [] => true
  | [(_, x)] => x != 0
  | (a, x) :: (b, y) :: r => decide (a < b) && x != 0 && RegFile.wf ((b, y) :: r)

/-! ### Byte memories -/

/-- Insert in rising order of address. -/
def Memory.insert (a : Nat) (v : Byte) : Memory → Memory
  | [] => [(a, v)]
  | (b, x) :: r => if a < b then (a, v) :: (b, x) :: r else (b, x) :: Memory.insert a v r

/-- The byte at an address; an address that is not listed reads 0 (assumption 3). -/
def Memory.get (m : Memory) (a : Nat) : Byte :=
  match m with
  | [] => 0
  | (b, x) :: r => if b = a then x else Memory.get r a

/-- Write a byte; a 0 leaves no entry. -/
def Memory.set (m : Memory) (a : Nat) (v : Byte) : Memory :=
  if v = 0 then m.filter (fun p => p.1 != a) else Memory.insert a v (m.filter (fun p => p.1 != a))

/-- The canonical form: addresses strictly rising, no byte 0. -/
def Memory.wf : Memory → Bool
  | [] => true
  | [(_, x)] => x != 0
  | (a, x) :: (b, y) :: r => decide (a < b) && x != 0 && Memory.wf ((b, y) :: r)

/-- `n` bytes from address `a`. -/
def Memory.read (m : Memory) (a n : Nat) : Bytes := (List.range n).map (fun k => m.get (a + k))

/-- Write bytes from address `a` on. -/
def Memory.write (m : Memory) (a : Nat) (b : Bytes) : Memory :=
  match b with
  | [] => m
  | x :: xs => Memory.write (m.set a x) (a + 1) xs

/-! ### Sparse tables -/

/-- Insert in rising order of key. -/
def KV.insert (a v : Nat) : KV → KV
  | [] => [(a, v)]
  | (b, x) :: r => if a < b then (a, v) :: (b, x) :: r else (b, x) :: KV.insert a v r

/-- The value at a key. -/
def KV.get (m : KV) (a : Nat) : Nat :=
  match m with
  | [] => 0
  | (b, x) :: r => if b = a then x else KV.get r a

/-- Set the value at a key; a value of 0 leaves no entry. -/
def KV.set (m : KV) (a v : Nat) : KV :=
  if v = 0 then m.filter (fun p => p.1 != a) else KV.insert a v (m.filter (fun p => p.1 != a))

/-! ### Registers and fields of the state -/

/-- The offset of instance `i`, `j` of a field's register. -/
def Fld.addr (f : Fld) (i j : Nat) : Nat := f.base + i * f.s1 + j * f.s2

/-- The register word at an offset. -/
def State.reg (s : State) (a : Nat) : Word := s.regs.get a

/-- Set the register word at an offset. -/
def State.setReg (s : State) (a : Nat) (v : Word) : State := { s with regs := s.regs.set a v }

/-- The value of a field of instance `i`, `j`. -/
def State.f (s : State) (f : Fld) (i : Nat := 0) (j : Nat := 0) : Nat :=
  bits (s.reg (f.addr i j)).toNat f.lo f.w

/-- A one-bit field as a truth value. -/
def State.b (s : State) (f : Fld) (i : Nat := 0) (j : Nat := 0) : Bool := s.f f i j == 1

/-- A field as a signed number. -/
def State.sf (s : State) (f : Fld) (i : Nat := 0) (j : Nat := 0) : Int := sgn f.w (s.f f i j)

/-- Set a field of instance `i`, `j`; the value is cut to the field's width. -/
def State.put (s : State) (f : Fld) (v : Nat) (i : Nat := 0) (j : Nat := 0) : State :=
  s.setReg (f.addr i j) (BitVec.ofNat 32 (setBits (s.reg (f.addr i j)).toNat f.lo f.w v))

/-- Set a one-bit field. -/
def State.flag (s : State) (f : Fld) (v : Bool := true) (i : Nat := 0) (j : Nat := 0) : State := s.put f (b2n v) i j

/-- Set a field to a signed number, saturated to the field's width. -/
def State.putS (s : State) (f : Fld) (v : Int) (i : Nat := 0) (j : Nat := 0) : State :=
  s.put f (unsgn f.w (clampI (-(2 ^ (f.w - 1) : Nat)) ((2 ^ (f.w - 1) : Nat) - 1) v)) i j

/-- Add to a counter, saturating at the field's maximum. -/
def State.add (s : State) (f : Fld) (n : Nat) (i : Nat := 0) (j : Nat := 0) : State :=
  s.put f (min (s.f f i j + n) (2 ^ f.w - 1)) i j

/-- Count one. -/
def State.inc (s : State) (f : Fld) (i : Nat := 0) (j : Nat := 0) : State := s.add f 1 i j

/-- A 64-bit value held in a _LO and a _HI register. -/
def State.f64 (s : State) (lo hi : Fld) (i : Nat := 0) : Nat := s.f lo i + 2 ^ 32 * s.f hi i

/-- Set a value held in a _LO and a _HI register. -/
def State.put64 (s : State) (lo hi : Fld) (v : Nat) (i : Nat := 0) : State :=
  (s.put lo v i).put hi (v / 2 ^ 32) i

/-! ### Roles -/

/-- The node is a tile (R3). -/
def State.isTile (s : State) : Bool := s.f F.BOOT_STRAPS_ROLE == 0
/-- The node is a head (R3). -/
def State.isHead (s : State) : Bool := s.f F.BOOT_STRAPS_ROLE == 1 || s.f F.BOOT_STRAPS_ROLE == 2
/-- Head states of RING_STATUS.STATE (R137). -/
def hsElecting : Nat := 0
def hsBellwether : Nat := 1
def hsStandby : Nat := 2
def hsResync : Nat := 3
def hsDemoted : Nat := 4
/-- The node is the bellwether. -/
def State.isBw (s : State) : Bool := s.isHead && s.f F.RING_STATUS_STATE == hsBellwether
/-- The serial number of the node. -/
def State.serial (s : State) : Nat := s.f64 F.SEC_SERIAL_LO F.SEC_SERIAL_HI
/-- The core runs and island `i` is out of reset (R466 to R469, R574). -/
def State.on (s : State) (i : Nat) : Bool := s.pwr.up && !(nth s.xing.inReset i true)
def iLINK : Nat := 0
def iMEM : Nat := 1
def iTIME : Nat := 2
def iLAMP : Nat := 3
def iDPRX : Nat := 4
def iETH : Nat := 5
def iPERIPH : Nat := 6
def iPCIE : Nat := 7
def iAON : Nat := 8

/-! ### Updates of the parts -/

def State.onTime (s : State) (f : Time → Time) : State := { s with time := f s.time }
def State.onRing (s : State) (f : Ring → Ring) : State := { s with ring := f s.ring }
def State.onHost (s : State) (f : HostSt → HostSt) : State := { s with host := f s.host }
def State.onPwr (s : State) (f : Pwr → Pwr) : State := { s with pwr := f s.pwr }
def State.onXing (s : State) (f : Xing → Xing) : State := { s with xing := f s.xing }
def State.onMst (s : State) (f : MemSt → MemSt) : State := { s with mst := f s.mst }
def State.onIngest (s : State) (f : Ingest → Ingest) : State := { s with ingest := f s.ingest }
def State.onComp (s : State) (f : Comp → Comp) : State := { s with comp := f s.comp }
def State.onLamp (s : State) (f : Lamp → Lamp) : State := { s with lamp := f s.lamp }
def State.onTherm (s : State) (f : Therm → Therm) : State := { s with therm := f s.therm }
def State.onBoot (s : State) (f : Boot → Boot) : State := { s with boot := f s.boot }
def State.onBist (s : State) (f : Bist → Bist) : State := { s with bist := f s.bist }
/-- Update the flock records. -/
def State.onFlocks (s : State) (f : List Flock → List Flock) : State := { s with flocks := f s.flocks }
/-- Update the writes that wait for a latch. -/
def State.onLatch (s : State) (f : List LatchWrite → List LatchWrite) : State := { s with latch := f s.latch }
/-- Update one fold. -/
def State.onFold (s : State) (n : Nat) (f : Fold → Fold) : State := { s with folds := modAt s.folds n f }
/-- One fold. -/
def State.fold (s : State) (n : Nat) : Fold := nth s.folds n {}
/-- Zero a register. -/
def State.zero (s : State) (f : Fld) (i : Nat := 0) (j : Nat := 0) : State := s.setReg (f.addr i j) 0
/-- Update one context. -/
def State.onCtx (s : State) (c : Nat) (f : Ctx → Ctx) : State :=
  s.onHost (fun h => { h with ctxs := modAt h.ctxs c f })
/-- One context. -/
def State.ctx (s : State) (c : Nat) : Ctx := nth s.host.ctxs c {}
/-- Send something to the outside. -/
def State.emit (s : State) (o : Out) : State := { s with out := s.out ++ [o] }
/-- Advance the model's counter of free values. -/
def State.tickFresh (s : State) : State := { s with fresh := s.fresh + 1 }
/-- Use up `n` free values. -/
def State.skipFresh (s : State) (n : Nat) : State := { s with fresh := s.fresh + n }
/-- Apply `f` when `c` holds. -/
def State.when (s : State) (c : Bool) (f : State → State) : State := if c then f s else s
/-- Apply `f` to each element in turn. -/
def State.each {α : Type} (s : State) (l : List α) (f : State → α → State) : State := l.foldl f s

/-! ### Frame memory -/

/-- Write bytes to frame memory: an error in a word written whole is gone (R430), and a corrected write-back of a granule that
another write has reached is abandoned (R435). -/
def State.memWrite (s : State) (a : Nat) (b : Bytes) : State :=
  { s with
    mem := s.mem.write a b
    mst := { s.mst with
      bad := s.mst.bad.filter fun g => !(decide (a ≤ g) && decide (g + 8 ≤ a + b.length))
      back := s.mst.back.filter fun g => !(decide (a < g / 64 * 64 + 64) && decide (g / 64 * 64 < a + b.length)) } }
/-- Zero a span of frame memory, a write of each of its words. -/
def State.clearSpan (s : State) (a n : Nat) : State :=
  { s with
    mem := s.mem.filter fun p => !(decide (a ≤ p.1) && decide (p.1 < a + n))
    mst := { s.mst with
      bad := s.mst.bad.filter fun g => !(decide (a ≤ g) && decide (g + 8 ≤ a + n))
      back := s.mst.back.filter fun g => !(decide (a < g / 64 * 64 + 64) && decide (g / 64 * 64 < a + n)) } }
/-- Read bytes of frame memory. -/
def State.memRead (s : State) (a n : Nat) : Bytes := s.mem.read a n

/-! ### Time -/

/-- One nanosecond in units of the node clock. -/
def nsU : Nat := 27 * 2 ^ 32
/-- The node clock as seconds × 10^9 + nanoseconds. -/
def State.nowNs (s : State) : Nat := s.time.clock / nsU
/-- Microseconds and milliseconds in units of the node clock. -/
def usU (n : Nat) : Nat := n * 1000 * nsU
def msU (n : Nat) : Nat := n * 1000000 * nsU
def secU (n : Nat) : Nat := n * 1000000000 * nsU

/-! ### Cells (R117, R118) -/

/-- Bytes 0 to 503 of a cell. -/
def cellBody (stream : Nat) (filled first last : Bool) (tally addr plane cell len frame : Nat) (payload : Bytes) : Bytes :=
  let h := mkMsg 8 [(0, 1, stream % 64 + 64), (1, 1, b2n filled + 2 * b2n first + 4 * b2n last), (2, 4, tally), (6, 2, addr)]
  h ++ complement h ++ mkMsg 8 [(0, 1, plane), (1, 1, cell), (2, 2, len), (4, 4, frame)] ++
    (payload ++ zeros 480).take 480

/-- A whole cell with its CRC-64 (R118). -/
def sealCell (body : Bytes) : Bytes := body ++ toLE 8 (crc64 body).toNat

def cStream (c : Bytes) : Nat := bits (le c 0 1) 0 6
def cVersion (c : Bytes) : Nat := bits (le c 0 1) 6 2
def cFilled (c : Bytes) : Bool := bitOf (le c 1 1) 0
def cFirst (c : Bytes) : Bool := bitOf (le c 1 1) 1
def cLast (c : Bytes) : Bool := bitOf (le c 1 1) 2
def cTally (c : Bytes) : Nat := le c 2 4
def cAddr (c : Bytes) : Nat := le c 6 2
def cPlane (c : Bytes) : Nat := bits (le c 16 1) 0 2
def cCell (c : Bytes) : Nat := le c 17 1
def cLength (c : Bytes) : Nat := le c 18 2
def cFrame (c : Bytes) : Nat := le c 20 4
def cPayload (c : Bytes) : Bytes := (c.drop 24).take 480
def cCheck (c : Bytes) : Nat := le c 504 8
/-- The header complement of R117 holds. -/
def cHeaderOk (c : Bytes) : Bool := (c.drop 8).take 8 == complement (c.take 8)

/-- A LINK block (R90): 0x71, the type, the body, the complement of bytes 1 to 15, 0. -/
def linkBlock (ty : Nat) (fs : List (Nat × Nat × Nat)) : Bytes :=
  let b := mkMsg 16 ((0, 1, 0x71) :: (1, 1, ty) :: fs)
  b ++ complement (b.drop 1) ++ [0]

/-- A received LINK block of type `ty` with a complement that matches (R90). -/
def linkOk (ty : Nat) (b : Bytes) : Bool :=
  b.length == 32 && le b 0 1 == 0x71 && le b 1 1 == ty && (b.drop 16).take 15 == complement ((b.drop 1).take 15)

/-! ### The stream of a port (R96) -/

def State.onLink (s : State) (f : Link → Link) : State := { s with link := f s.link }
def State.port (s : State) (p : Nat) : Port := nth s.link.ports p {}
def State.onPort (s : State) (p : Nat) (f : Port → Port) : State :=
  s.onLink fun l => { l with ports := modAt l.ports p f }

/-- The 16 blocks of the next cell of a port: whether one of them came in a codeword that could not be corrected (R96). -/
def State.takeBlocks (s : State) (p : Nat) : State × Bool :=
  (s.onPort p fun q => { q with rxCells := q.rxCells.drop 16 }, ((s.port p).rxCells.take 16).contains true)

/-- The block of the port's stream that a LINK message came in: its place, and whether it is lost with an uncorrectable codeword; none
where no codeword of it has been seen. -/
def linkPlace (l : List (Bool × Bytes)) (b : Bytes) : Option (Nat × Bool) :=
  match l.findIdx? fun x => !x.1 && x.2 == b with
  | some k => some (k, false)
  | none => (l.findIdx? Prod.fst).map fun k => (k, true)

/-- A LINK message acts as `f` says, unless its block is absent (R96). -/
def State.linkRx (s : State) (p : Nat) (b : Bytes) (f : State → State) : State :=
  match linkPlace (s.port p).rxLinks b with
  | none => f s
  | some (k, lost) =>
    let s := s.onPort p fun q => { q with rxLinks := q.rxLinks.drop (k + 1) }
    if lost then s else f s

/-! ### Interrupts (R420) -/

/-- The completion entry of Table 12-5, PHASE left 0. -/
def completion (ticket kind flags index result opcode cookie epoch time : Nat) (data : Bytes) : Bytes :=
  (mkMsg 32 [(0, 4, ticket), (4, 1, kind), (5, 1, flags), (6, 2, index), (8, 1, result), (9, 1, opcode),
    (12, 4, cookie), (16, 4, epoch), (24, 8, time)]) ++ (data ++ zeros 32).take 32

/-- The next tally of a stream that this node numbers (R123). -/
def State.nextTally (s : State) (stream : Nat) : Nat :=
  match s.ring.tallies.find? (fun p => p.1 == stream) with
  | some p => p.2
  | none => 0

/-- Take the next tally of a stream. -/
def State.bumpTally (s : State) (stream : Nat) : State :=
  s.onRing (fun r => { r with tallies :=
    (stream, (s.nextTally stream + 1) % 2 ^ 32) :: r.tallies.filter (fun p => p.1 != stream) })

/-- Port states of Table 3-10. -/
def psDisabled : Nat := 0
def psDetect : Nat := 1
def psTrain : Nat := 2
def psAlign : Nat := 3
def psCheck : Nat := 4
def psUp : Nat := 5
def psLowRate : Nat := 6
def psTest : Nat := 7
def psFault : Nat := 8

/-- The state of a port. -/
def State.portState (s : State) (p : Nat) : Nat := s.f F.PORTn_STATUS_STATE p

/-- The port carries cells (Table 3-10). -/
def State.portUp (s : State) (p : Nat) : Bool := s.portState p == psUp

/-- The port carries link messages: UP or LOW_RATE (R76). -/
def State.portLink (s : State) (p : Nat) : Bool := s.portState p == psUp || s.portState p == psLowRate

/-- Tile address of this node in cell headers: [7:0] hop, [10:8] ring (R117); 0xFFFF when it has no index. -/
def State.tileAddr (s : State) : Nat :=
  if s.f F.RING_TILE_STATUS_HOP == 0 then 0xFFFF else s.f F.RING_TILE_STATUS_HOP + 256 * s.f F.RING_TILE_STATUS_RING

/-- The wall frame count: that of the old timing until the first swap instant of the new one (R187). -/
def State.wallFrame (s : State) : Nat :=
  match s.time.between with
  | some q => if s.time.clock < q.1 then q.2 else s.time.frame
  | none => s.time.frame

/-- WALL_FRAME of a cell that is not a layer cell: the count of the latest swap instant (R117). -/
def State.wf32 (s : State) : Nat := s.wallFrame % 2 ^ 32

/-! ### Ring ports (R122, R129, R148, R150) -/

/-- The ring that RING_PORTMAP gives port `p`; 7 is unused. -/
def State.portRing (s : State) (p : Nat) : Nat := bits (s.f F.RING_PORTMAP_MAP) (3 * p) 3

/-- The ring ports of the node: both of a tile; of a head those with a ring number, port 6 only in a single-head wall (R129). Code 6,
which R129 does not name, is taken as unused: DESIGN CHOICE (assumption 74). -/
def State.ringPorts (s : State) : List Nat :=
  if s.isTile then [0, 1]
  else (List.range 7).filter fun p => decide (s.portRing p < 6) && (p != 6 || s.b F.RING_CFG_SINGLE)

/-- The ports of ring `r` of a head. -/
def State.portsOf (s : State) (r : Nat) : List Nat := s.ringPorts.filter fun p => s.portRing p == r

/-- The rings in use, ascending. -/
def State.ringsUsed (s : State) : List Nat := (List.range 6).filter fun r => s.ringPorts.any fun p => s.portRing p == r

/-- An ENUM on this port named a ring that the map does not give it (R129): the head sends nothing there until the maps agree. -/
def State.mismapped (s : State) (p : Nat) : Bool := s.ring.mismap.any fun q => q.1 == p && s.portRing p != q.2

/-- A head sends nothing on a port whose ring the maps name differently (R129). -/
def State.barred (s : State) (p : Nat) : Bool := s.isHead && s.mismapped p

/-- The port may send cells: UP, and not barred by R129. -/
def State.portSends (s : State) (p : Nat) : Bool := s.portUp p && !(s.barred p)

/-- A head in RESYNC or DEMOTED sends no cells of streams 0 to 21 (R148, R150). -/
def State.muted (s : State) : Bool :=
  s.isHead && (s.f F.RING_STATUS_STATE == hsResync || s.f F.RING_STATUS_STATE == hsDemoted)
def State.mute (s : State) (c : Bytes) : Bool := decide (cStream c < 22) && s.muted

/-! ### Encrypted links (R152 to R155) -/

def State.partnerSerial (s : State) (p : Nat) : Nat := s.f64 F.PORTn_PARTNER_SERIAL_LO F.PORTn_PARTNER_SERIAL_HI p

def State.onEnc (s : State) (p : Nat) (f : Enc → Enc) : State := s.onRing fun r => { r with enc := modAt r.enc p f }
def State.enc (s : State) (p : Nat) : Enc := nth s.ring.enc p {}

/-- The link key of direction `dir` (0 from the lower serial) under the wall key of the key store (R153). -/
def State.linkKey (s : State) (p dir : Nat) : Nat :=
  let a := s.serial
  let b := s.partnerSerial p
  let na := (s.enc p).own
  let nb := (s.enc p).partner.getD 0
  if a < b then Config.linkKey (s.boot.wallKey.getD 0) na nb a b dir else Config.linkKey (s.boot.wallKey.getD 0) nb na b a dir

/-- Direction byte of this side's transmission. -/
def State.txDir (s : State) (p : Nat) : Nat := if s.serial < s.partnerSerial p then 0 else 1

/-- The port's cells are encrypted. -/
def State.sealed (s : State) (p : Nat) : Bool := (s.enc p).verified

/-- A cell with the bitwise complement in CHECK is stomped (R96). -/
def stompCell (c : Bytes) : Bytes := c.take 504 ++ complement ((c.drop 504).take 8)

/-- A cell as the port sends it: on an encrypted link bytes 24 to 503 are encrypted and CHECK holds the tag, complemented when
the cell is stomped (R154, R155). -/
def State.sealFor (s : State) (p : Nat) (c : Bytes) : Bytes :=
  if !(s.sealed p) then c
  else
    let k := s.linkKey p (s.txDir p)
    let n := (s.enc p).txCount
    let body := c.take 24 ++ Config.gcmSeal k n ((c.drop 24).take 480)
    let x := body ++ toLE 8 (Config.gcmTag k n body)
    if (crc64 (c.take 504)).toNat == cCheck c then x else stompCell x

/-- One cell more has been sent on a link, which counts if it is encrypted (R154). -/
def State.countSent (s : State) (p : Nat) : State :=
  if s.sealed p then s.onEnc p fun e => { e with txCount := e.txCount + 1 } else s

/-- Send a cell on a port. -/
def State.sendCell (s : State) (p : Nat) (c : Bytes) : State := (s.emit (.cell p (s.sealFor p c))).countSent p

/-- What the check of a received cell finds (R119, R154). -/
inductive CellCheck where
  | good | stomped | crcBad | authBad
  deriving DecidableEq, Repr

/-- Check a received cell and take it off an encrypted link: the verdict, and the cell in clear with its CRC-64. AES-256-GCM
encrypts by a key stream, so applying it to the ciphertext gives the plain bytes. -/
def State.openCell (s : State) (p : Nat) (c : Bytes) : CellCheck × Bytes :=
  if s.sealed p then
    let k := s.linkKey p (1 - s.txDir p)
    let n := (s.enc p).rxCount
    let tag := Config.gcmTag k n (c.take 504) % 2 ^ 64
    let clear := sealCell (c.take 24 ++ Config.gcmSeal k n ((c.drop 24).take 480))
    if cCheck c == tag then (.good, clear) else if cCheck c == 2 ^ 64 - 1 - tag then (.stomped, stompCell clear)
    else (.authBad, stompCell clear)
  else
    let crc := (crc64 (c.take 504)).toNat
    if cCheck c == crc then (.good, c) else if cCheck c == 2 ^ 64 - 1 - crc then (.stomped, c)
    else (.crcBad, stompCell (sealCell (c.take 504)))

/-- The receive counter of an encrypted link advances (R154). -/
def State.countOpened (s : State) (p : Nat) : State :=
  if s.sealed p then s.onEnc p fun e => { e with rxCount := e.rxCount + 1 } else s

/-- Count the verdict of a received cell; on an encrypted link the receive counter advances for every cell (R154). -/
def State.countCheck (s : State) (p : Nat) (v : CellCheck) : State :=
  let s := if s.sealed p then s.onEnc p fun e => { e with
      rxCount := e.rxCount + 1, fails := if v == .authBad then e.fails + 1 else 0 } else s
  match v with
  | .good => s
  | .stomped => s.inc F.PORTn_STOMPED p
  | .crcBad => s.inc F.RING_CRC_BAD
  | .authBad => s.inc F.RING_AUTH_FAIL

/-- Cut a message into payloads of at most 480 bytes. -/
def chunks : Nat → Bytes → List Bytes
  | 0, _ => []
  | n + 1, b => if b.length ≤ 480 then [b] else b.take 480 :: chunks n (b.drop 480)

/-- A tile sends a message of its own on streams 32 to 35, in both directions (R122), with its own tallies (R123). -/
def State.tileSend (s : State) (stream addr : Nat) (msg : Bytes) : State :=
  let cs := chunks 200 msg
  s.each (List.range cs.length) fun s k =>
    let join := stream == 35 && addr == 0xFFFF
    let t := if join then 0 else s.nextTally stream
    let c := sealCell (cellBody stream false (k == 0) (k + 1 == cs.length) t addr 0 0
      (nth cs k []).length s.wf32 (nth cs k []))
    let s := if join then s else s.bumpTally stream
    (s.sendCell 0 c).sendCell 1 c

/-- A tile queues a REPLY and sends it; it repeats until its REPLY_ACK (R417). -/
def State.reply (s : State) (ctx : Nat) (index : Option Nat) (originTicket originCtx : Nat) (entry answer : Bytes) : State :=
  let m := mkMsg 32 [(0, 1, 0x38), (1, 1, ctx), (4, 4, s.host.replySeq), (8, 8, s.serial), (16, 4, originTicket),
    (20, 1, originCtx)] ++ (entry ++ zeros 64).take 64 ++ answer
  (s.onHost fun h => { h with replies := h.replies ++ [⟨h.replySeq, ctx, m, index⟩], replySeq := (h.replySeq + 1) % 2 ^ 32 }).tileSend
    34 s.tileAddr m

/-- The management MAC is on (R397). -/
def State.mgmtOn (s : State) : Bool := s.on iPERIPH && s.b F.HOST_MGMT_CFG

/-- Deliver a cause on the transport of context `c` (R420). -/
def State.deliver (s : State) (c bit : Nat) : State :=
  let cause := (s.reg (F.CTXn_IRQ_CAUSE_COMPLETION.addr c 0)).toNat
  match s.f F.CTXn_BIND_TRANSPORT c with
  | 1 => s.when s.pwr.pcieUp fun s => s.emit (.msix (c / 2) (16 * (c % 2) + bit))
  | 2 => s.when s.mgmtOn fun s => s.emit (.dgram (s.ctx c).source (s.ctx c).sourcePort (mkMsg 8 [(0, 1, 4), (1, 1, c), (4, 4, cause)]))
  | 3 => s.reply c none 0 (s.f F.CTXn_BIND_HEAD_CTX c)
      (completion 0 5 0 0 0 0 0 s.host.epoch (s.nowNs % 2 ^ 64) (mkMsg 4 [(0, 4, cause)])) []
  | _ => s

/-- Set a cause of one context, and deliver it when it is new and enabled. -/
def State.irq (s : State) (f : Fld) (c : Nat) : State :=
  if s.b f c then s
  else
    let s := s.flag f true c
    if bitOf (s.reg (F.CTXn_IRQ_MASK_COMPLETION.addr c 0)).toNat f.lo then s.deliver c f.lo else s

/-- Set a cause of every context. -/
def State.irqAll (s : State) (f : Fld) : State := s.each (List.range 8) (fun s c => s.irq f c)

/-- Set a bit of CTXn_FAULT and the FAULT cause (R424, R425). -/
def State.ctxFault (s : State) (f : Fld) (c : Nat) : State := (s.flag f true c).irq F.CTXn_IRQ_CAUSE_FAULT c

/-- Set a bit of TIME_EVENT and the TIME cause (R425). -/
def State.timeEvent (s : State) (f : Fld) : State := (s.flag f).irqAll F.CTXn_IRQ_CAUSE_TIME

/-- Set a bit of FLOCK_EVENT and the FLOCK cause (R425). -/
def State.flockEvent (s : State) (f : Fld) : State := (s.flag f).irqAll F.CTXn_IRQ_CAUSE_FLOCK

/-! ### Transports (R394, R585) -/

/-- The bound transport of context `c` can carry commands: PCIe while its link is up and its function is not in an FLR, the
management MAC while it is enabled, the ring tunnel on a tile while a ring port is UP. -/
def State.transportUp (s : State) (c : Nat) : Bool :=
  s.pwr.up && match s.f F.CTXn_BIND_TRANSPORT c with
  | 1 => s.isHead && s.on iPCIE && s.pwr.pcieUp && !(nth s.pwr.flr (c / 2) false)
  | 2 => s.mgmtOn
  | 3 => s.isTile && s.on iLINK && (s.portUp 0 || s.portUp 1)
  | _ => false

/-- The time of context `c` in which the bounds of R405 run. -/
def State.hostTime (s : State) (c : Nat) : Nat := (s.ctx c).pausedAt.getD s.time.aon - (s.ctx c).paused

/-- The bounds of R405 stop while CQ_FULL is set or the transport is down, and go on afterwards. -/
def State.judgeBounds (s : State) (c : Nat) : State :=
  let stop := s.b F.CTXn_STATUS_CQ_FULL c || !(s.b F.CTXn_STATUS_TRANSPORT_UP c)
  match (s.ctx c).pausedAt with
  | none => if stop then s.onCtx c fun x => { x with pausedAt := some s.time.aon } else s
  | some t => if stop then s else s.onCtx c fun x => { x with pausedAt := none, paused := x.paused + (s.time.aon - t) }

/-- Refresh CTXn_STATUS.TRANSPORT_UP. -/
def State.transports (s : State) : State :=
  s.each (List.range 8) fun s c => (s.flag F.CTXn_STATUS_TRANSPORT_UP (s.transportUp c) c).judgeBounds c

end Sys2Proof.Machine
end

