-- ==== Sys2Proof/Machine/Format.lean ====
section
/-! DEFINITION. Layer formats, planes and samples (R45, R52, R56, R231 to R234). -/
set_option Elab.async false
namespace Sys2Proof.Machine

/-- Depth of a format code (R231). -/
def fmtDepth (f : Nat) : Nat := nth [8, 10, 12, 16] (bits f 0 2) 8
/-- Sampling: 0 RGB, 1 4:4:4, 2 4:2:2, 3 4:2:0. -/
def fmtSampling (f : Nat) : Nat := bits f 2 2
/-- Planes. -/
def fmtPlanes (f : Nat) : Nat := bits f 4 2 + 1

/-- The codes of Table 7-2. -/
def fmtOk (f : Nat) : Bool :=
  [0x00, 0x01, 0x02, 0x03, 0x04, 0x05, 0x06, 0x14, 0x15, 0x16, 0x24, 0x25, 0x26, 0x08, 0x09, 0x0A, 0x18, 0x19, 0x1A,
   0x28, 0x29, 0x2A, 0x1C, 0x1D, 0x1E, 0x2C, 0x2D, 0x2E].contains f

/-- Samples per line of a plane (Table 7-3). -/
def planeSamples (f w p : Nat) : Nat :=
  match fmtPlanes f, fmtSampling f, p with
  | 1, 2, 0 => 2 * w
  | 1, _, 0 => 3 * w
  | 2, _, 0 => w
  | 2, 1, 1 => 2 * w
  | 2, _, 1 => w
  | 3, _, 0 => w
  | 3, 1, _ => w
  | 3, _, _ => w / 2
  | _, _, _ => 0

/-- B_p: bytes of a plane line (R232). -/
def planeBytes (f w p : Nat) : Nat := ceilDiv (planeSamples f w p * fmtDepth f) 8
/-- H_p: lines of a plane. -/
def planeLines (f h p : Nat) : Nat := if fmtSampling f == 3 && p != 0 then h / 2 else h

/-- A size that R232 and R235 allow for a format. -/
def sizeOk (f w h : Nat) : Bool :=
  decide (1 ≤ w) && decide (w ≤ 16384) && decide (1 ≤ h) && decide (h ≤ 16384) &&
    (fmtSampling f < 2 || w % 2 == 0) && (fmtSampling f != 3 || h % 2 == 0)

/-- Read `n` samples of `d` bits from a number. -/
def samplesOf (d : Nat) : Nat → Nat → List Nat
  | 0, _ => []
  | n + 1, v => v % 2 ^ d :: samplesOf d n (v / 2 ^ d)

/-- The samples of a plane line (R233). -/
def unpack (d n : Nat) (b : Bytes) : List Nat := samplesOf d n (ofLE b)

/-- The number that samples of `d` bits spell. -/
def packNum (d : Nat) (l : List Nat) : Nat := l.foldr (fun x a => x % 2 ^ d + 2 ^ d * a) 0

/-- A plane line of samples, as bytes (R56, R233). -/
def pack (d : Nat) (l : List Nat) : Bytes := toLE (ceilDiv (l.length * d) 8) (packNum d l)

/-- A sample of depth `d` at depth `e` (R45). -/
def toDepth (d e c : Nat) : Nat :=
  if d == e then c
  else if e < d then min (roundDivN c (2 ^ (d - e))) (2 ^ e - 1)
  else c * 2 ^ (e - d) + c / 2 ^ (2 * d - e)

/-- A sample of depth `d` as unsigned Q0.16 (R234). -/
def toQ16 (d c : Nat) : Nat := if d == 16 then c else c * 2 ^ (16 - d) + c / 2 ^ (2 * d - 16)

/-- Every `k`th element from position `i`. -/
def stride (l : List Nat) (i k : Nat) : List Nat :=
  (List.range ((l.length - i + k - 1) / k)).map fun j => nth l (i + j * k) 0

/-- Interleave lists of equal length. -/
def weave (ls : List (List Nat)) : List Nat :=
  match ls with
  | [] => []
  | l :: _ => (List.range l.length).flatMap fun j => ls.map fun m => nth m j 0

/-- The plane lines that belong to one luma line, as the three component lists (R or Y, G or Cb, B or Cr). -/
def lineComps (f w : Nat) (planes : List (Nat × Bytes)) : List Nat × List Nat × List Nat :=
  let d := fmtDepth f
  let get := fun p => match planes.find? fun q => q.1 == p with
    | some q => unpack d (planeSamples f w p) q.2
    | none => []
  match fmtPlanes f, fmtSampling f with
  | 1, 0 => (stride (get 0) 0 3, stride (get 0) 1 3, stride (get 0) 2 3)
  | 1, 1 => (stride (get 0) 1 3, stride (get 0) 0 3, stride (get 0) 2 3)
  | 1, _ => (stride (get 0) 1 2, stride (get 0) 0 4, stride (get 0) 2 4)
  | 2, _ => (get 0, stride (get 1) 0 2, stride (get 1) 1 2)
  | _, _ => (get 0, get 1, get 2)

/-- The component lists as plane lines of a format. -/
def compsLine (f : Nat) (c : List Nat × List Nat × List Nat) : List (Nat × List Nat) :=
  match fmtPlanes f, fmtSampling f with
  | 1, 0 => [(0, weave [c.1, c.2.1, c.2.2])]
  | 1, 1 => [(0, weave [c.2.1, c.1, c.2.2])]
  | 1, _ => [(0, weave [c.2.1, stride c.1 0 2, c.2.2, stride c.1 1 2])]
  | 2, _ => (0, c.1) :: (if c.2.1.isEmpty then [] else [(1, weave [c.2.1, c.2.2])])
  | _, _ => (0, c.1) :: (if c.2.1.isEmpty then [] else [(1, c.2.1), (2, c.2.2)])

/-- Convert the plane lines of one luma line between formats of one sampling (R45). -/
def convertLine (f g w line : Nat) (planes : List (Nat × Bytes)) : List PLine :=
  let c := lineComps f w planes
  let k := toDepth (fmtDepth f) (fmtDepth g)
  (compsLine g (c.1.map k, c.2.1.map k, c.2.2.map k)).map fun q =>
    { line := if q.1 != 0 && fmtSampling g == 3 then line / 2 else line, plane := q.1, data := pack (fmtDepth g) q.2 }

/-- The plane lines that complete at luma line `j`, in plane order: chroma line j of 4:2:0 follows luma line 2j + 1 (R56). -/
def linesAt (f j : Nat) : List (Nat × Nat) :=
  ((List.range (fmtPlanes f)).filter fun p => p == 0 || fmtSampling f != 3 || j % 2 == 1).map fun p =>
    (if p != 0 && fmtSampling f == 3 then j / 2 else j, p)

/-- Plane lines of a frame in sending order (R56). -/
def lineOrder (f h : Nat) : List (Nat × Nat) := (List.range h).flatMap (linesAt f)

/-- A whole source frame in a layer's format (R45). -/
def convertFrame (f g w h : Nat) (lines : List (Nat × Nat × Bytes)) : List PLine :=
  (List.range h).flatMap fun j =>
    convertLine f g w j ((linesAt f j).filterMap fun q =>
      (lines.find? fun l => l.1 == q.1 && l.2.1 == q.2).map fun l => (q.2, l.2.2))

/-- Cells of a layer frame (R57). -/
def frameCells (f w h : Nat) : Nat :=
  (List.range (fmtPlanes f)).foldl (fun a p => a + planeLines f h p * ceilDiv (planeBytes f w p) 480) 0

/-- Offset of a plane line in a stored frame (R52): planes in order, each line at a pitch rounded up to 64 bytes. -/
def storedOffset (f w h line plane : Nat) : Nat :=
  ((List.range plane).foldl (fun a p => a + planeLines f h p * (ceilDiv (planeBytes f w p) 64 * 64)) 0) +
    line * (ceilDiv (planeBytes f w plane) 64 * 64)

/-- Bytes of a stored frame (R52). -/
def storedSize (f w h : Nat) : Nat := storedOffset f w h 0 (fmtPlanes f)

end Sys2Proof.Machine
end

