-- ==== Sys2Proof/Machine/TimeOps.lean ====
section
/-! DEFINITION. The TIME block (spec/05_time.md): the node clock, its servo, peer delay, time cells, the head's reference,
frame timing (R184 to R187, R633) and the alarm timers. -/
set_option Elab.async false
namespace Sys2Proof.Machine

/-! ### Frame instants (R184 to R186) -/

/-- The exact rates of Table 5-6: numerator and denominator, Hz. -/
def rateTable : List (Nat × Nat) :=
  [(24000, 1001), (24, 1), (25, 1), (30000, 1001), (30, 1), (48000, 1001), (48, 1), (50, 1), (60000, 1001), (60, 1),
   (72, 1), (90, 1), (100, 1), (120000, 1001), (120, 1), (144, 1), (200, 1), (240, 1)]

/-- The exact period of a rate code in units of the clock (a whole number for every code and slot count). -/
def periodU (code : Nat) : Nat :=
  let r := nth rateTable code (60, 1)
  secU 1 * r.2 / r.1

/-- The timing in force. -/
def State.timing (s : State) : Timing := s.time.epochs.headD ⟨9, 1, 0⟩

/-- S_n of a timing (R185). -/
def Timing.swapAt (t : Timing) (n : Nat) : Nat := n * periodU t.code + t.phase * nsU

/-- The wall frame count at an instant (R185); 0 before the first swap instant. -/
def Timing.countAt (t : Timing) (c : Nat) : Nat := (c - t.phase * nsU) / periodU t.code

/-- The first frame whose swap instant is at or after an instant. -/
def Timing.firstAt (t : Timing) (c : Nat) : Nat := ceilDiv (c - t.phase * nsU) (periodU t.code)

/-- The start of slot `k` of frame `n` (R186). -/
def Timing.slotAt (t : Timing) (n k : Nat) : Nat := t.swapAt n + k * (periodU t.code / t.slots)

/-! ### The node clock (R164 to R167) -/

/-- The signed frequency word. -/
def State.rate (s : State) : Int := s.sf F.TIME_RATE

/-- One tick of the 500 MHz timebase: 2 ns + RATE × 2^-32 ns (R164). -/
def State.clockTick (s : State) : State :=
  s.onTime fun t => { t with clock := ((t.clock : Int) + 2 * nsU + 27 * s.rate).toNat }

/-- 2 ns pass on the AON oscillator, which runs from POR_N (R574), and one tick of the node clock while the island TIME is out of
reset. -/
def State.passTime (s : State) : State :=
  let s := if s.pwr.porN then s.onTime fun t => { t with aon := t.aon + 2 } else s
  if s.on iTIME then s.clockTick else s

/-- TIME_CAPTURE (R166). -/
def State.capture (s : State) : State :=
  let ns := s.nowNs
  ((s.put64 F.TIME_CAP_SEC_LO F.TIME_CAP_SEC_HI (ns / 10 ^ 9)).put F.TIME_CAP_NS (ns % 10 ^ 9)).put F.TIME_CAP_FRAC
    (s.time.clock % nsU / 27 / 2 ^ 16)

/-- A lock reset (R167): the state becomes ACQUIRE, the clock may step once again, and no chain is valid until it is heard again. A node
other than the bellwether leaves the ±1 µs window (R170): its TIME_ERR, which follows no source, is a free value above it (assumption 2). -/
def State.lockReset (s : State) : State :=
  let s := (((s.onTime fun t => { t with
      needStep := true, refOk := false, ppsGood := 0,
      pd := t.pd.map fun p => { p with valid := false, seen := false, heldSamples := [] } }).put F.TIME_STATUS_STATE 1).put
    F.TIME_STATUS_SOURCE 0).put F.TIME_LAG 0
  let s := s.each (List.range 7) fun s p => s.flag F.TIME_PORTp_PDSTAT_CHAIN_VALID false p
  if s.isBw then s
  else (((s.put F.TIME_ERR (1000001 + Config.free s.fresh % (2 ^ 32 - 1000001))).tickFresh).flag F.TIME_STATUS_ALIGNED false).flag
    F.TIME_STATUS_WITHIN_1US false

/-- Lock states of Table 5-2. -/
def tsFree : Nat := 0
def tsAcquire : Nat := 1
def tsLocked : Nat := 2
def tsSlewing : Nat := 3
def tsHoldover : Nat := 4

/-- What is told by the clock starts again at a step to `c`: the latches of the layers, and the LSYNC edges, of which none is due before
(R36, R312). What runs on is measured across the step: handshakes (R465), the grids of R485 and the waits of a fold. A write that waits for
a latch came before the step, so it waits for no instant after it (R237). -/
def State.restarts (s : State) (c : Nat) : State :=
  let d := s.time.clock
  let s := (s.onIngest fun g => { g with layers := g.layers.map fun y => { y with latched := none } }).onLamp fun l => { l with
    groups := l.groups.map fun x => { x with edge := c, edged := 0 } }
  let s := (s.onXing fun x => { x with flights := x.flights.map fun f => { f with start := f.start + c - d } }).onTherm fun t => { t with
    regions := t.regions.map fun r => { r with tick := r.tick.map fun e => e + c - d } }
  let s := s.onLatch fun l => l.map fun w => { w with tau := min w.tau c }
  s.each (List.range 4) fun s n => s.onFold n fun f => { f with
    acts := f.acts.map (min c), toRun := f.toRun.map (min c)
    until_ := f.until_.map fun e => e + c - d, waitFrom := f.waitFrom.map fun e => e + c - d }

/-- A chain as its port knows it, after the node's own clock has gone forward by `d` in 2^-16 ns: what is measured against that clock is
that much less (R180 to R182). -/
def PdPort.shift (p : PdPort) (d : Int) : PdPort :=
  { p with offset := p.offset - d, corr := p.corr - d, heldSamples := p.heldSamples.map (· - d) }

/-- The interval between send instants of the health report in which the node is: by its clock, offset by its serial number, and before
its first clock step by AON time (R564). -/
def State.healthSlot (s : State) : Bool × Nat :=
  if s.time.stepped then (true, (s.time.clock + msU 100 - s.serial % 1024 * usU 64) / msU 100) else (false, s.time.aon / 10 ^ 8)

/-- The next send instant of the health report is counted from now. -/
def State.healthFrom (s : State) : State := s.onBist fun b => { b with slot := some s.healthSlot }

/-- Set the clock (a step, R169, R170): STEPPED is set and the frequency word stays. The wall frame count is that of the new time
(R185), and intervals that run on are measured across the step. -/
def State.stepClock (s : State) (c : Nat) (st : Nat) : State :=
  (((((s.restarts c).onTime fun t => { t with
      clock := c, needStep := false, stepped := true, stepAt := c, rates := [(c, s.rate)]
      frame := (t.epochs.headD ⟨9, 1, 0⟩).countAt c, between := none
      pd := t.pd.map fun p => p.shift (((c / (27 * 2 ^ 16) : Nat) : Int) - (t.clock / (27 * 2 ^ 16) : Nat))
      started := none, ppsLast := t.ppsLast.map fun l => l + c - t.clock
      alarms := t.alarms.map fun a => { a with since := c, pulseEnd := a.pulseEnd.map fun e => e + c - t.clock } })).put
    F.TIME_STATUS_STATE st).put F.TIME_LAG 0).timeEvent F.TIME_EVENT_STEPPED |>.healthFrom

/-- The largest magnitude of RATE (R165). -/
def rateMax : Int := 8589935

/-- TIME_SLEW as a frequency word: 1 ppm is 2^33 / 10^6 units (R165, R171). -/
def State.slewLimit (s : State) : Int := s.f F.TIME_SLEW * 2 ^ 33 / 10 ^ 6

/-- The history of RATE that HOLD_AVG can reach back to: 255 s, and the entry in force at its start (R172, R193). -/
def keepRates (now : Nat) (l : List (Nat × Int)) : List (Nat × Int) :=
  let recent := fun (x : Nat × Int) => decide (now < x.1 + secU 256)
  l.takeWhile recent ++ (l.dropWhile recent).take 1

/-- A servo output: RATE, and whether the limit of TIME_SLEW is active. The rate of the source against this node's oscillator and the
difference that the servo asks for are free values, because the spec gives the servo's bandwidth and damping and no control law
(assumption 14); that difference stays within TIME_SLEW (R171), and RATE beyond its own limit is clamped and counted in REF_LOST (R165). -/
def State.servo (s : State) : State × Bool :=
  let src := clampI (-rateMax) rateMax (sgn 34 (Config.free s.fresh))
  let ask := sgn 34 (Config.free (s.fresh + 1))
  let r := src + clampI (-s.slewLimit) s.slewLimit ask
  let active := decide (s.slewLimit < |ask|)
  let s := s.tickFresh.tickFresh
  let s := if r < -rateMax ∨ rateMax < r then s.timeEvent F.TIME_EVENT_REF_LOST else s
  let r := clampI (-rateMax) rateMax r
  ((s.putS F.TIME_RATE r).onTime fun t => { t with srcRate := src, rates := keepRates t.clock ((t.clock, r) :: t.rates) }, active)

/-- Time-weighted sum of the frequency word over the last `span` before `now`, newest entry first. -/
def rateSum (now start : Nat) : List (Nat × Int) → Int
  | [] => 0
  | (t, r) :: rest =>
    let lo := max t start
    (if lo < now then r * ((now - lo : Nat) : Int) else 0) + rateSum (min now lo) start rest

/-- The mean of RATE over the last HOLD_AVG seconds, or since the step if that is shorter (R172). -/
def State.meanRate (s : State) : Int :=
  let now := s.time.clock
  let start := max s.time.stepAt (now - secU (s.f F.TIME_SERVO_HOLD_AVG))
  if start < now then roundDiv (rateSum now start s.time.rates) (now - start) else s.rate

/-- Enter HOLDOVER (R172): RATE freezes at its mean. -/
def State.holdover (s : State) : State :=
  if s.f F.TIME_STATUS_STATE == tsHoldover || s.time.needStep then s
  else
    let r := s.meanRate
    (((s.putS F.TIME_RATE r).onTime fun t => { t with rates := keepRates t.clock ((t.clock, r) :: t.rates) }).put
      F.TIME_STATUS_STATE tsHoldover).timeEvent F.TIME_EVENT_HOLDOVER_ENTERED

/-! ### Peer delay (R177, R178) -/

/-- The node clock in units of 2^-16 ns, with a signed constant in ps added. -/
def State.ts16 (s : State) (ps : Int) : Nat :=
  (((s.time.clock / (27 * 2 ^ 16) : Nat) : Int) + roundDiv (ps * 65536) 1000).toNat

/-- TS48 of R178. -/
def State.ts48 (s : State) (ps : Int) : Nat := s.ts16 ps % 2 ^ 48

def State.pdp (s : State) (p : Nat) : PdPort := nth s.time.pd p {}
def State.onPd (s : State) (p : Nat) (f : PdPort → PdPort) : State :=
  s.onTime fun t => { t with pd := modAt t.pd p f }

/-- The mean of the last measurements, in 2^-16 ns. -/
def meanI (l : List Int) : Int := if l.isEmpty then 0 else roundDiv l.sum l.length

/-- D of a port in 2^-16 ns. -/
def State.pdelay (s : State) (p : Nat) : Int := meanI (s.pdp p).hist

/-- 2^-16 ns as ps. -/
def toPs (x : Int) : Int := roundDiv (x * 1000) 65536

/-- PDELAY_TIMER (R178): PDREQ is sent and t1 recorded. -/
def execPdelayTimer (port : Fin 7) (s : State) : Host.Outcome State Fault Refusal :=
  .next (if s.on iLINK && s.portLink port && !(s.barred port) then
    let q := ((s.pdp port).seq + 1) % 2 ^ 16
    (s.onPd port fun p => { p with seq := q, t1 := some (s.ts48 (s.sf F.TIME_PORTp_TXLAT port)) }).emit
      (.link port 0x10 (linkBlock 0x10 [(2, 2, q)]))
  else s)

/-- PDREQ (R178): t2 is recorded and PDRESP sent, t3 inserted as it leaves. -/
def execPdreq (port : Fin 7) (body : Bytes) (s : State) : Host.Outcome State Fault Refusal :=
  .next (s.linkRx port body fun s => if s.on iLINK && s.portLink port && !(s.barred port) && linkOk 0x10 body then
    s.emit (.link port 0x11 (linkBlock 0x11 [(2, 2, le body 2 2), (4, 6, s.ts48 (-s.sf F.TIME_PORTp_RXLAT port)),
      (10, 6, s.ts48 (s.sf F.TIME_PORTp_TXLAT port))]))
  else s)

/-- A measurement `d` differs from the mean of the port by more than PD_STEP (R178). -/
def State.pdJump (s : State) (p : Nat) (d : Int) : Bool :=
  let h := (s.pdp p).hist
  !h.isEmpty && decide (((s.f F.TIME_PD_STEP * 65536 : Nat) : Int) < |d - meanI h|)

/-- A new measurement `d` on a port: the mean of the last 16, or PATH_CHANGE and a mean that starts again (R178). -/
def State.pdMeasure (s : State) (p : Nat) (d : Int) : State :=
  let h := (s.pdp p).hist
  let jump := s.pdJump p d
  let s := s.onPd p fun q => { q with hist := if jump then [d] else (d :: h).take 16 }
  let s := if jump then (s.flag F.TIME_PORTp_PDSTAT_PATH_CHANGE true p).timeEvent F.TIME_EVENT_PATH_CHANGE else s
  (s.flag F.TIME_PORTp_PDSTAT_VALID true p).putS F.TIME_PORTp_PDELAY (toPs (s.pdelay p)) p

/-! ### Following a source (R168 to R172, R183) -/

/-- The choices of Table 5-1 for a node that follows cells, first to last: (SOURCE code, port). The bellwether follows none. A tile of a
single-head wall, whose bellwether is head A of its ring, takes the west chain first. A standby follows the ring chain that reaches it: at
head A the one from the east, at head B the one from the west (DEDUCED, assumption 75). -/
def State.cellChoices (s : State) : List (Nat × Nat) :=
  if s.isTile then
    (if s.b F.RING_TILE_STATUS_BW_EAST && s.ring.bwSerial != s.ring.headA then [(2, 1), (1, 0)] else [(1, 0), (2, 1)])
  else if s.b F.RING_CFG_SINGLE || s.isBw then []
  else (3, 6) :: (List.range 6).flatMap fun r => (s.portsOf r).map fun p => (if s.b F.RINGr_INFO_A_SIDE r then 2 else 1, p)

/-- The chain on port `p` can be followed (R168). -/
def State.chainValid (s : State) (p : Nat) : Bool :=
  (s.pdp p).valid && (s.pdp p).tgen == s.time.tgen && s.b F.TIME_PORTp_PDSTAT_VALID p && s.portUp p

/-- The first valid choice. -/
def State.pickSource (s : State) : Option (Nat × Nat) := s.cellChoices.find? fun c => s.chainValid c.2

/-- TIME_ERR and the flags of R183, from the offset (2^-16 ns) and the source's ERR (ps). -/
def State.setErr (s : State) (off : Int) (err : Nat) : State :=
  let e := if s.isBw then 0 else min ((toPs off).natAbs + err) (2 ^ 32 - 1)
  (((s.putS F.TIME_OFFSET (toPs off)).put F.TIME_ERR e).flag F.TIME_STATUS_ALIGNED (decide (e ≤ 50000))).flag
    F.TIME_STATUS_WITHIN_1US (decide (e ≤ 1000000))

/-- An offset sample of the followed source is applied by rate (R171, R183). While the limit of TIME_SLEW is active, or above 1 µs, the node
is SLEWING, down to 100 ns. -/
def State.applySample (s : State) (off : Int) (err : Nat) : State :=
  let small := decide (|off| ≤ 6553600)
  let q := (s.setErr off err).servo
  let big := decide (65536000 < |off|) || (!small && q.2)
  let s := q.1
  let st := s.f F.TIME_STATUS_STATE
  let st' := if st == tsSlewing then (if small then tsLocked else tsSlewing)
    else if st == tsHoldover then (if small then tsLocked else tsSlewing)
    else if big then tsSlewing else tsLocked
  (s.put F.TIME_STATUS_STATE st').putS F.TIME_LAG (if st' == tsSlewing then toPs off else 0)

/-- The chain on port `p` is followed instead of another source, or after holdover: its offset is removed by rate, TIME_LAG reports what remains
(R171), and TIME_ERR is that to the new source (R183). -/
def State.slewTo (s : State) (p : Nat) : State :=
  let q := s.pdp p
  let s := (s.put F.TIME_STATUS_STATE tsSlewing).timeEvent F.TIME_EVENT_SOURCE_CHANGED
  if q.seen then (s.setErr q.offset q.err).putS F.TIME_LAG (toPs q.offset) else s

/-- Take the source in use from the table of choices; a change never steps the clock (R171), no choice is HOLDOVER (R172). -/
def State.reSource (s : State) : State :=
  if s.isBw then s
  else match s.pickSource with
    | none => (s.put F.TIME_STATUS_SOURCE 0).holdover
    | some (code, p) =>
      let old := s.f F.TIME_STATUS_SOURCE
      let changed := old != code && (old != 0 || s.f F.TIME_STATUS_STATE == tsHoldover) && !s.time.needStep
      let s := ((s.put F.TIME_STATUS_SOURCE code).put F.TIME_STATUS_STEPS ((s.pdp p).steps + 1)).onTime fun t =>
        { t with cls := (s.pdp p).cls, chainHead := (s.pdp p).head, utc := (s.pdp p).utc, utcFlags := (s.pdp p).utcFlags }
      s.when changed fun s => s.slewTo p

/-- TIME_EW_DIFF while both chains are valid on a tile, and each has given an offset (R182). -/
def State.ewDiff (s : State) : State :=
  let ok := s.isTile && (List.range 2).all fun p => s.chainValid p && (s.pdp p).seen
  let s := s.flag F.TIME_STATUS_EW_VALID ok
  if ok then s.putS F.TIME_EW_DIFF (toPs ((s.pdp 1).offset - (s.pdp 0).offset)) else s

/-- An offset sample of port `p` is taken into use: a step after a lock reset (R169), the servo otherwise. -/
def State.useSample (s : State) (p : Nat) (chain : Int) (off : Int) : State :=
  let s := s.onPd p fun q => { q with offset := off, seen := true, corr := sgn 48 (Config.free s.fresh) }
  let s := s.tickFresh.reSource.ewDiff
  match s.pickSource with
  | none => s
  | some (_, q) =>
    if q != p then s
    else if s.time.needStep then
      ((s.stepClock ((chain * (27 * 2 ^ 16)).toNat) tsLocked).put F.TIME_STATUS_TGEN s.time.tgen).setErr 0 (s.pdp p).err
    else s.applySample off (s.pdp p).err

/-- More than 100 µs have passed since the PDREQ of `t1` left on the port (R178). -/
def State.pdExpired (s : State) (p t1 : Nat) : Bool :=
  decide (100000 * 2 ^ 16 < (s.ts48 (s.sf F.TIME_PORTp_TXLAT p) + 2 ^ 48 - t1) % 2 ^ 48)

/-- No PDRESP within 100 µs. -/
def State.pdLost (s : State) (p : Nat) : State := (s.onPd p fun q => { q with t1 := none }).inc F.TIME_PD_TIMEOUT

/-- PDRESP (R178, R181): D is computed; samples held on the port are applied, recomputed with the new D where this measurement sets
PATH_CHANGE. One that comes later than 100 µs counts as not received. -/
def execPdresp (port : Fin 7) (body : Bytes) (s : State) : Host.Outcome State Fault Refusal :=
  .next (s.linkRx port body fun s => match (s.pdp port).t1 with
    | some t1 =>
      if s.on iLINK && s.portLink port && linkOk 0x11 body && le body 2 2 == (s.pdp port).seq then
        if s.pdExpired port t1 then s.pdLost port else
        let t4 := s.ts48 (-s.sf F.TIME_PORTp_RXLAT port)
        let d := roundDiv (sgn 48 ((t4 + 2 ^ 48 - t1) % 2 ^ 48 + 2 ^ 48 - (le body 10 6 + 2 ^ 48 - le body 4 6) % 2 ^ 48)) 2
        let dOld := s.pdelay port
        let jump := s.pdJump port d
        let held := (s.pdp port).heldSamples
        let s := (s.onPd port fun p => { p with t1 := none, heldSamples := [] }).pdMeasure port d
        let dUse := if jump then s.pdelay port else dOld
        s.each held.reverse fun s x => s.useSample port (x + dUse + s.ts16 0) (x + dUse)
      else s
    | none => s)

/-- PDRESP_TIMEOUT (R178): 100 µs have passed since PDREQ left. -/
def execPdrespTimeout (port : Fin 7) (s : State) : Host.Outcome State Fault Refusal :=
  .next (match (s.pdp port).t1 with
    | some t1 => if s.pdExpired port t1 then s.pdLost port else s
    | none => s)

/-! ### Time cells (R179, R180) -/

/-- VALID of the time cells on port `p`: the clock has stepped (R169), and the chain that a tile continues out of the port, or the
source that a standby follows, is valid (R180; DEDUCED, assumption 75). -/
def State.timeValid (s : State) (p : Nat) : Bool :=
  !s.time.needStep && (if s.isTile then s.chainValid (1 - p) else s.isBw || s.pickSource.isSome)

/-- clockClass of the PTP port: 255 as a slave-only clock (R173), else as a grandmaster (R174). In MODE 1 a head whose reference is not
qualified gives 7 also where it is not in holdover, be it a standby, not elected yet, or a bellwether in ACQUIRE after RELOCK: DESIGN CHOICE
(assumption 89), since R174 names no other class. -/
def State.gmClass (s : State) : Nat :=
  match s.f F.TIME_CFG_MODE with
  | 1 => if s.time.refOk then 6 else 7
  | 2 => 255
  | _ => 248

/-- The UTC offset and flags ([0] UTC_VALID, [1] LEAP61, [2] LEAP59) that this node passes on: the bellwether's, or those of the chain it
follows (R176). -/
def State.utcData (s : State) : Nat × Nat :=
  if s.isBw then (s.f F.TIME_UTC_OFFSET, s.f F.TIME_UTC_UTC_VALID + 2 * s.f F.TIME_UTC_LEAP61 + 4 * s.f F.TIME_UTC_LEAP59)
  else (s.time.utc, s.time.utcFlags)

/-- clockClass of the chosen PTP master; 7 where there is none and the bellwether holds over: DESIGN CHOICE (assumption 89), since R176 has it
from the master. -/
def Ptp.masterClass (p : Ptp) : Nat := ((p.foreign.find? fun q => p.master == some q.id).map Foreign.cls).getD 7

/-- CLASS of the time cells: that of the bellwether's own reference, or what the followed source carries (R176). -/
def State.timeClass (s : State) : Nat :=
  if !s.isBw then s.time.cls else if s.f F.TIME_CFG_MODE == 2 then s.time.ptp.masterClass else s.gmClass

/-- The payload of Table 5-5 on port `p`. -/
def State.timePayload (s : State) (p : Nat) : Bytes :=
  let st := s.f F.TIME_STATUS_STATE
  let org := ((s.time.clock : Int) + roundDiv (s.sf F.TIME_PORTp_TXLAT p * (27 * 2 ^ 32)) 1000).toNat
  let opp := s.pdp (1 - p)
  let corr := if s.isTile then unsgn 48 opp.corr else 0
  let fl := b2n (s.timeValid p) + 2 * b2n (st == tsHoldover) + 4 * b2n (st == tsSlewing) + 8 * (s.utcData.2 % 8)
  mkMsg 42 [(0, 1, 1), (1, 1, fl), (2, 1, s.time.tgen), (3, 1, if s.isBw then 0 else s.f F.TIME_STATUS_STEPS),
    (4, 2, s.utcData.1), (6, 1, s.timeClass), (8, 8, if s.isTile then opp.head else s.serial),
    (16, 6, org / nsU / 10 ^ 9), (22, 4, org / nsU % 10 ^ 9), (26, 2, org % nsU / (27 * 2 ^ 16)), (28, 6, corr),
    (34, 4, s.f F.TIME_ERR), (38, 4, s.f F.TIME_LAG)]

/-- TIME_CELL_TIMER (R179): on each ring port and on port 6, but not from a head that sends no cells of stream 17 (R148, R150). -/
def execTimeCellTimer (port : Fin 7) (s : State) : Host.Outcome State Fault Refusal :=
  .next (if s.on iTIME && s.on iLINK && s.portSends port && (port.val == 6 || s.ringPorts.contains port.val) && !s.muted then
    let c := sealCell (cellBody 17 false true true (s.pdp port).txTally 0 0 0 42 s.wf32 (s.timePayload port))
    (s.onPd port fun p => { p with txTally := (p.txTally + 1) % 2 ^ 32 }).sendCell port c
  else s)

/-- A time cell brings a new time generation (R167, R170): another TGEN on the first choice of Table 5-1, or on any port while no
choice is valid; the other chain may still carry the generation that has been left (DEDUCED, assumption 75). -/
def State.newTgen (s : State) (p tg : Nat) : Bool :=
  !s.isBw && tg != s.time.tgen && ((s.cellChoices.head?.map (·.2)) == some p || s.pickSource.isNone)

/-- A time cell of payload `b` and tally `t`, which counts a gap when it does not follow the last one's (R179), arrives on port `p` (R179 to R181). -/
def State.timeCell (s : State) (p : Nat) (t : Nat) (b : Bytes) : State :=
  let s := match (s.pdp p).rxLast with
    | some l => if t == (l + 1) % 2 ^ 32 then s else s.inc F.TIME_CELL_LOST
    | none => s
  let fl := le b 1 1
  let tg := le b 2 1
  let s := s.onPd p fun q => { q with
    rxLast := some t, rxAt := s.time.aon, valid := bitOf fl 0, holdover := bitOf fl 1, steps := le b 3 1,
    tgen := tg, err := le b 34 4, lag := sgn 32 (le b 38 4), utc := le b 4 2, utcFlags := bits fl 3 3, cls := le b 6 1,
    head := le b 8 8 }
  let s := s.flag F.TIME_PORTp_PDSTAT_CHAIN_VALID (bitOf fl 0 && tg == s.time.tgen) p
  let s := if bitOf fl 0 && s.newTgen p tg then
      ((((s.lockReset.onTime fun t => { t with tgen := tg }).put F.TIME_STATUS_TGEN tg).timeEvent
        F.TIME_EVENT_TGEN_CHANGED).onPd p fun q => { q with valid := true }).flag F.TIME_PORTp_PDSTAT_CHAIN_VALID true p
    else s
  if !(s.chainValid p) then s.reSource.ewDiff
  else
    let org : Int := ((le b 16 6 * 10 ^ 9 + le b 22 4) * 2 ^ 16 + le b 26 2 : Nat) + sgn 48 (le b 28 6)
    let arr : Int := (s.ts16 (-s.sf F.TIME_PORTp_RXLAT p) : Nat)
    let off := org + s.pdelay p - arr
    if !s.time.needStep && (s.pdp p).seen && decide (((s.f F.TIME_PD_STEP * 65536 : Nat) : Int) < |off - (s.pdp p).offset|) then
      (s.onPd p fun q => { q with heldSamples := (org - arr) :: q.heldSamples }).inc F.TIME_HELD
    else s.useSample p (org + s.pdelay p) off

/-- A chain from which no time cell has come for three of the 125 µs of R179 is no longer valid: R168 asks that cells arrive from it and
gives no limit (DESIGN CHOICE, assumption 89). -/
def State.chainLapse (s : State) : State :=
  let gone := (List.range 7).filter fun p => (s.pdp p).valid && decide ((s.pdp p).rxAt + 375000 < s.time.aon)
  if gone.isEmpty then s
  else
    let s := s.each gone fun s p => (s.onPd p fun q => { q with valid := false, seen := false, heldSamples := [] }).flag
      F.TIME_PORTp_PDSTAT_CHAIN_VALID false p
    s.reSource.ewDiff

/-! ### The bellwether's own reference (R170, R175) -/

/-- The bellwether steps: to the reference when it is qualified, else to TIME_SET; TGEN advances, and the tiles' errors are judged anew
(R170), and so is when its reference next qualifies for the first time. Its TIME_ERR is 0 (R183). -/
def State.bwStep (s : State) (target : Nat) (st src : Nat) : State :=
  let g := (s.time.tgen + 1) % 256
  let s := s.onRing fun r => { r with tiles := r.tiles.map fun t => { t with timeOk := false } }
  let s := ((s.onTime fun t => { t with tgen := g, refRequal := false }).stepClock target st).timeEvent F.TIME_EVENT_TGEN_CHANGED
  (((s.put F.TIME_STATUS_TGEN g).put F.TIME_STATUS_SOURCE src).put F.TIME_STATUS_STEPS 0).setErr 0 0

/-- TIME_SET in units of the clock, as the last write of its _HI half applied it (R198). -/
def State.timeSet (s : State) : Nat := secU s.time.setSec

/-- SOURCE code of the reference of a MODE: own REFCLK, PPS_IN, PTP. -/
def modeSource (m : Nat) : Nat := if m == 1 then 5 else if m == 2 then 4 else 6

/-- The time of a qualified reference at this moment: the last edge of PPS_IN and the time since it, or the last Sync and the path to
its master. -/
def State.refTime (s : State) : Nat :=
  if s.f F.TIME_CFG_MODE == 1 then s.timeSet + secU s.time.ppsSecs + (s.time.clock - s.time.ppsLast.getD s.time.clock)
  else
    ((s.time.clock : Int) + (s.time.ptp.syncDelta.getD 0 + s.sf F.TIME_PTP_MEANPATH * 65536 / 1000) * (27 * 2 ^ 16)).toNat

/-- A step of the bellwether: to a qualified reference, else to TIME_SET, where a head whose MODE has a reference holds over until that
qualifies (R170, R172). -/
def State.electStep (s : State) : State :=
  let m := s.f F.TIME_CFG_MODE
  if m == 0 then s.bwStep s.timeSet tsFree 6
  else if s.time.refOk then s.bwStep s.refTime tsLocked (modeSource m)
  else (s.bwStep s.timeSet tsLocked 0).holdover

/-- A head that has authority goes over to the reference of its own MODE: by rate (R171), or it holds over (R172). One whose clock waits for a
step makes it if the reference is valid (R169). Its TIME_ERR is 0 (R183). -/
def State.takeTime (s : State) : State :=
  let m := s.f F.TIME_CFG_MODE
  let s := (s.put F.TIME_STATUS_STEPS 0).setErr 0 0
  if s.time.needStep then s.when (m == 0 || s.time.refOk) State.electStep
  else
    let s := (s.put F.TIME_STATUS_SOURCE (if m == 0 || s.time.refOk then modeSource m else 0)).put F.TIME_LAG 0
    if m == 0 then (s.put F.TIME_STATUS_STATE tsFree).timeEvent F.TIME_EVENT_SOURCE_CHANGED
    else if s.time.refOk then (s.put F.TIME_STATUS_STATE tsSlewing).timeEvent F.TIME_EVENT_SOURCE_CHANGED
    else s.holdover

/-- TIME_SET_WRITE (R170, R175, R198): both halves apply, and while START is clear the bellwether steps again; while START is set its
write is ignored. On a head that is not the bellwether it applies whatever START is: DESIGN CHOICE (assumption 89), since R170 speaks of the
bellwether's steps. -/
def State.writeTimeSet (s : State) (v : Nat) : State :=
  if s.isBw && s.ring.start then s
  else
    let s := s.put F.TIME_SET_SEC_HI v
    let s := s.onTime fun t => { t with ppsSecs := 0, setSec := s.f64 F.TIME_SET_SEC_LO F.TIME_SET_SEC_HI }
    if s.isBw then s.electStep else s

/-- A write of the _LO half of TIME_SET waits for that of the _HI half (R198); the bellwether ignores it while START is set (R170). -/
def State.writeTimeSetLo (s : State) (v : Nat) : State := if s.isBw && s.ring.start then s else s.put F.TIME_SET_SEC_LO v

def execTimeSetWrite (value : Nat) (s : State) : Host.Outcome State Fault Refusal :=
  .next (if s.on iTIME then s.writeTimeSet value else s)

def execTimeCapture (s : State) : Host.Outcome State Fault Refusal := .next (if s.on iTIME then s.capture else s)

/-- After a lock reset the bellwether steps when its source is valid (R169): in MODE 0 at once, in the other modes when the reference
qualifies. -/
def State.bwRelock (s : State) : State := if s.isBw && s.f F.TIME_CFG_MODE == 0 then s.electStep else s

/-- TIME_RELOCK (R167). -/
def State.relock (s : State) : State := s.lockReset.bwRelock

def execTimeRelock (s : State) : Host.Outcome State Fault Refusal := .next (if s.on iTIME then s.relock else s)

/-- The counters that TIME_CTL.CLEAR zeroes. -/
def State.timeClear (s : State) : State :=
  (((s.put F.TIME_CELL_LOST 0).put F.TIME_PD_TIMEOUT 0).put F.TIME_PPS_REJECT 0).put F.TIME_HELD 0

def execTimeClear (s : State) : Host.Outcome State Fault Refusal := .next (if s.on iTIME then s.timeClear else s)

/-- The reference of a head qualifies. That of the bellwether makes a step after a lock reset, or while START is clear and AUTO_RESTEP = 1 for the first time
after its last step (R169, R170); otherwise the source that returns is followed by rate (R171). -/
def State.qualify (s : State) (target : Nat) : State :=
  let s := s.onTime fun t => { t with refOk := true }
  if !s.isBw then s
  else
    let src := modeSource (s.f F.TIME_CFG_MODE)
    if s.time.needStep || (!s.ring.start && s.b F.TIME_CFG_AUTO_RESTEP && !s.time.refRequal) then
      s.bwStep target tsLocked src
    else
      let off : Int := ((target : Int) - s.time.clock) / (27 * 2 ^ 16)
      let s := (s.onTime fun t => { t with refRequal := true }).timeEvent F.TIME_EVENT_SOURCE_CHANGED
      (s.put F.TIME_STATUS_SOURCE src).applySample off 0

/-- A sample of a qualified reference, which shows the time `target` now: the bellwether follows it (R171). -/
def State.followRef (s : State) (target : Nat) : State :=
  if !s.isBw then s
  else if s.time.needStep then s.qualify target
  else s.applySample (((target : Int) - s.time.clock) / (27 * 2 ^ 16)) 0

/-- PPS_EDGE (R175). The selected edge is timestamped; three intervals of 1 s ± 250 µs qualify the reference, and a later
edge more than 10 µs from its predicted instant, a whole number of seconds after the last accepted one, is rejected. The seconds of edges
that did not come are counted with the next one, but not those of a reference that has been lost, whose edges count anew (DEDUCED,
assumption 75). -/
def execPpsEdge (rising : Bool) (s : State) : Host.Outcome State Fault Refusal :=
  .next (if !(s.on iTIME && s.isHead && s.f F.TIME_CFG_MODE == 1 && rising == !(s.b F.TIME_CFG_PPS_EDGE)) then s
    else
      let now := s.time.clock
      let n := match s.time.ppsLast with
        | some l => max 1 ((now - l + msU 500) / secU 1)
        | none => 1
      let s1 := s.onTime fun t => { t with ppsLast := some now, ppsSecs := t.ppsSecs + n }
      match s.time.ppsLast with
      | none => s1.onTime fun t => { t with ppsGood := 0 }
      | some l =>
        let dt := now - l
        if s.time.refOk then
          if dt + usU 10 < secU n || secU n + usU 10 < dt then s.inc F.TIME_PPS_REJECT
          else
            let target := s.timeSet + secU s1.time.ppsSecs
            s1.followRef target
        else if secU 1 ≤ dt + usU 250 && dt ≤ secU 1 + usU 250 then
          let s2 := s1.onTime fun t => { t with ppsGood := t.ppsGood + 1 }
          if s2.time.ppsGood == 3 then s2.qualify (s.timeSet + secU s1.time.ppsSecs) else s2
        else s1.onTime fun t => { t with ppsGood := 0 })

/-- The bellwether's reference is lost (R172). -/
def State.refLost (s : State) : State :=
  let s := s.onTime fun t => { t with refOk := false, ppsGood := 0, ppsLast := none }
  if s.isBw && !s.time.needStep then (s.put F.TIME_STATUS_SOURCE 0).holdover.timeEvent F.TIME_EVENT_REF_LOST else s

/-- MODE is changed (R189): the new reference has not qualified yet, and the bellwether goes over to it. -/
def State.newMode (s : State) : State :=
  let s := s.onTime fun t => { t with refOk := false, refRequal := false, ppsGood := 0, ppsLast := none }
  s.when s.isBw State.takeTime

/-- PPS_TIMEOUT (R172): 2.5 s have passed since the last accepted edge. -/
def execPpsTimeout (s : State) : Host.Outcome State Fault Refusal :=
  .next (if s.on iTIME && s.isHead && s.f F.TIME_CFG_MODE == 1 && s.time.refOk &&
      (s.time.ppsLast.all fun l => decide (l + msU 2500 < s.time.clock)) then s.refLost else s)

/-! ### PTP (R173, R174) -/

/-- Ethernet ports of the committed mode. -/
def State.ethPorts (s : State) : Nat := nth [0, 1, 2, 4] (s.f F.ETH_MODE_MODE) 0

/-- The Ethernet port and PTP are on: PORT names a port of ETH_MODE (Table 5-3). -/
def State.ptpOn (s : State) : Bool :=
  s.isHead && s.on iETH && s.on iTIME && s.b F.TIME_PTP_CFG_ENABLE && decide (s.f F.TIME_PTP_CFG_PORT < s.ethPorts)

def State.onPtp (s : State) (f : Ptp → Ptp) : State := s.onTime fun t => { t with ptp := f t.ptp }

/-- The timestamp of a PTP event message that leaves (`tx`) or arrives, at the pins: after the latency constant of the Ethernet port, to
which the spec gives no register (R173; assumption 89). -/
def State.ptpStamp (s : State) (tx : Bool) : Nat :=
  let c := Config.ethLatency (s.f F.TIME_PTP_CFG_PORT) tx
  s.ts16 (if tx then c else -c)

/-- A PTP message goes out: on UDP over IPv4 to 224.0.1.129 or over IPv6 to FF0E::181, with the VLAN tag if there is one (R173, R195). -/
def State.sendPtp (s : State) (udp : Nat) (m : Bytes) : State :=
  s.emit (.ptp (s.f F.TIME_PTP_CFG_PORT) udp (if s.b F.TIME_PTP_CFG_VLAN_EN then some (s.f F.TIME_PTP_CFG_VLAN_ID) else none)
    (if s.b F.TIME_PTP_CFG_IPV6 then 0xFF0E * 2 ^ 112 + 0x181 else 0xE0000181) m)

/-- ANN_TIMEOUT Announce intervals, ns (R172, R196): 2^ANN_LOG seconds each. -/
def State.announceLimit (s : State) : Nat :=
  s.f F.TIME_PTP_INTV_ANN_TIMEOUT * 125000000 * 2 ^ (s.sf F.TIME_PTP_INTV_ANN_LOG + 3).toNat

/-- A foreign master is qualified: two Announce messages have come (Table 5-3). -/
def Foreign.ok (q : Foreign) : Bool := decide (2 ≤ q.count)

/-- The foreign master that the PTP port goes by: its chosen master in MODE 2, else one that is better than this head (R174). -/
def State.ptpParent (s : State) : Option Foreign :=
  s.time.ptp.foreign.find? fun q => if s.f F.TIME_CFG_MODE == 2 then s.time.ptp.master == some q.id else q.ok && q.best

/-- TIME_PTP_STATUS and TIME_PTP_GM_ID (R174, R198): SLAVE (9) of the chosen master or LISTENING (4) in MODE 2, PASSIVE (7) or MASTER (6)
in the others; the grandmaster is the parent, or this head. While PTP is off they read 0, as at reset (DESIGN CHOICE, assumption 89). -/
def State.ptpRegs (s : State) : State :=
  let q := s.ptpParent
  let slave := s.f F.TIME_CFG_MODE == 2
  let r := if !s.ptpOn then (0, 0, 0)
    else match q with
      | some q => (if slave then 9 else 7, q.cls, q.id)
      | none => (if slave then 4 else 6, s.gmClass, s.serial)
  ((s.put F.TIME_PTP_STATUS_PORT_STATE r.1).put F.TIME_PTP_STATUS_GM_CLASS r.2.1).put64 F.TIME_PTP_GM_ID_LO F.TIME_PTP_GM_ID_HI r.2.2

/-- Foreign masters are dropped but for those of which `keep` holds; in MODE 2 the reference is lost when none that is qualified is left (R172). -/
def State.dropMasters (s : State) (keep : Foreign → Bool) : State :=
  let s := s.onPtp fun p => { p with foreign := p.foreign.filter keep }
  let gone := s.ptpParent.isNone
  let s := s.when gone fun s => s.onPtp fun p => { p with master := none, syncDelta := none, reqT := none }
  let lost := s.f F.TIME_CFG_MODE == 2 && s.time.refOk && !(s.time.ptp.foreign.any Foreign.ok)
  (s.when lost State.refLost).ptpRegs

/-- PTP_ANNOUNCE_TIMEOUT (R172): from a foreign master no Announce has come for ANN_TIMEOUT intervals. -/
def execPtpAnnounceTimeout (s : State) : Host.Outcome State Fault Refusal :=
  let keep := fun (q : Foreign) => decide (s.time.aon ≤ q.last + s.announceLimit)
  .next (if s.isHead && s.on iTIME && !(s.time.ptp.foreign.all keep) then s.dropMasters keep else s)

/-- TIME_PTP_CFG or MODE is written (R189, R195): what was heard under another MODE, or on another port or domain, counts no more. -/
def State.ptpRestart (s : State) : State := s.dropMasters fun _ => false

/-- PTP_ANNOUNCE_RX: two Announce messages qualify a foreign master; the verdict of the BMCA chooses the parent in MODE 2,
and in the other modes a better master makes the port PASSIVE (R173, R174). -/
def execPtpAnnounceRx (m : PtpAnnounce) (s : State) : Host.Outcome State Fault Refusal :=
  .next (if !(s.ptpOn && m.domain == s.f F.TIME_PTP_CFG_DOMAIN) then s
    else
      let n := ((s.time.ptp.foreign.find? fun q => q.id == m.master).map fun q => q.count + 1).getD 1
      let s := s.onPtp fun p => { p with
        foreign := ⟨m.master, n, s.time.aon, m.cls, m.best⟩ :: p.foreign.filter fun q => q.id != m.master }
      if 2 ≤ n && m.best && s.f F.TIME_CFG_MODE == 2 then
          let other := s.time.ptp.master.any fun x => x != m.master
          let s := s.when other fun s => s.onPtp fun p => { p with syncDelta := none, reqT := none }
          let s := s.when (other && s.isBw && !s.time.needStep) fun s =>
            (s.put F.TIME_STATUS_STATE tsSlewing).timeEvent F.TIME_EVENT_SOURCE_CHANGED
          let s := (s.onPtp fun p => { p with master := some m.master }).ptpRegs
          ((((s.put F.TIME_UTC_OFFSET (unsgn 16 m.utcOffset)).flag F.TIME_UTC_UTC_VALID m.utcValid).flag
            F.TIME_UTC_LEAP61 m.leap61).flag F.TIME_UTC_LEAP59 m.leap59)
      else s.ptpRegs)

/-- PTP_SYNC_RX: a time sample from the chosen master (R173). -/
def execPtpSyncRx (m : PtpSync) (s : State) : Host.Outcome State Fault Refusal :=
  .next (if !(s.ptpOn && s.f F.TIME_CFG_MODE == 2 && m.domain == s.f F.TIME_PTP_CFG_DOMAIN &&
      s.time.ptp.master == some m.master) then s
    else
      let path : Int := (s.sf F.TIME_PTP_MEANPATH) * 65536 / 1000
      let master : Int := m.origin + m.corr + path
      let target := (master * (27 * 2 ^ 16) + (s.time.clock : Int) - ((s.ptpStamp false : Nat) : Int) * (27 * 2 ^ 16)).toNat
      let s := s.onPtp fun p => { p with syncDelta := some ((m.origin : Int) + m.corr - s.ptpStamp false) }
      if s.time.refOk then s.followRef target else s.qualify target)

/-- PTP_DELAY_REQ_TIMER: a one-step Delay_Req, or Pdelay_Req in P2P mode (R173). -/
def execPtpDelayReqTimer (s : State) : Host.Outcome State Fault Refusal :=
  .next (if s.ptpOn && s.f F.TIME_CFG_MODE == 2 then
    let q := (s.time.ptp.reqSeq + 1) % 2 ^ 16
    let kind := if s.b F.TIME_PTP_CFG_DELAY then 2 else 1
    (s.onPtp fun p => { p with reqSeq := q, reqT := some (s.ptpStamp true) }).sendPtp 319
      (mkMsg 16 [(0, 1, kind), (1, 1, s.f F.TIME_PTP_CFG_DOMAIN), (2, 2, q), (4, 10, s.ptpStamp true)])
  else s)

/-- PTP_DELAY_RESP_RX (E2E): the mean path is half the sum of the two directions (R173, IEEE 1588-2019). -/
def execPtpDelayRespRx (seq : Nat) (rx : Nat) (s : State) : Host.Outcome State Fault Refusal :=
  .next (match s.time.ptp.reqT, s.time.ptp.syncDelta with
    | some t3, some d =>
      if s.ptpOn && seq == s.time.ptp.reqSeq && !(s.b F.TIME_PTP_CFG_DELAY) then
        (s.onPtp fun p => { p with reqT := none }).putS F.TIME_PTP_MEANPATH (toPs (roundDiv ((rx : Int) - t3 - d) 2))
      else s
    | _, _ => s)

/-- PTP_PDELAY_RESP_RX (P2P): the peer delay to the link partner (R173, IEEE 1588-2019). -/
def execPtpPdelayRespRx (seq : Nat) (t2 : Nat) (t3 : Nat) (s : State) : Host.Outcome State Fault Refusal :=
  .next (match s.time.ptp.reqT with
    | some t1 =>
      if s.ptpOn && seq == s.time.ptp.reqSeq && s.b F.TIME_PTP_CFG_DELAY then
        (s.onPtp fun p => { p with reqT := none }).putS F.TIME_PTP_MEANPATH
          (toPs (roundDiv (((s.ptpStamp false : Nat) : Int) - t1 - ((t3 : Int) - t2)) 2))
      else s
    | none => s)

/-- PTP_PDELAY_REQ_RX: the one-step answer, with the turnaround time from the arrival of the request to the departure of the answer in its
correction field, units of 2^-16 ns (R173). -/
def execPtpPdelayReqRx (seq : Nat) (requester : Nat) (s : State) : Host.Outcome State Fault Refusal :=
  .next (if s.ptpOn && s.b F.TIME_PTP_CFG_DELAY then
    s.sendPtp 319 (mkMsg 32 [(0, 1, 3), (1, 1, s.f F.TIME_PTP_CFG_DOMAIN), (2, 2, seq), (14, 8, requester),
      (22, 8, unsgn 64 ((s.ptpStamp true : Int) - (s.ptpStamp false : Nat)))])
  else s)

/-- PTP_MASTER_TX_TIMER (R174): Sync or Announce, unless a better master has made the port PASSIVE. -/
def execPtpMasterTxTimer (announce : Bool) (s : State) : Host.Outcome State Fault Refusal :=
  .next (if s.ptpOn && s.f F.TIME_CFG_MODE != 2 && s.ptpParent.isNone then
    let s := s.ptpRegs
    if announce then
      (s.onPtp fun p => { p with annSeq := (p.annSeq + 1) % 2 ^ 16 }).sendPtp 320
        (mkMsg 32 [(0, 1, 11), (1, 1, s.f F.TIME_PTP_CFG_DOMAIN), (2, 2, s.time.ptp.annSeq), (4, 1, s.gmClass),
          (5, 1, s.f F.TIME_PTP_INTV_PRIORITY1), (6, 1, s.f F.TIME_PTP_INTV_PRIORITY2), (8, 2, s.f F.TIME_UTC_OFFSET),
          (10, 1, s.f F.TIME_FRAME_RATE), (16, 8, s.serial)])
    else
      (s.onPtp fun p => { p with syncSeq := (p.syncSeq + 1) % 2 ^ 16 }).sendPtp 319
        (mkMsg 16 [(0, 1, 0), (1, 1, s.f F.TIME_PTP_CFG_DOMAIN), (2, 2, s.time.ptp.syncSeq), (4, 10, s.ptpStamp true)])
  else s)

/-! ### Frame timing (R184 to R187, R633) -/

def State.swapAt (s : State) (n : Nat) : Nat := s.timing.swapAt n
def State.slotAt (s : State) (n k : Nat) : Nat := s.timing.slotAt n k

/-- TIME_FRAME_COUNT: n of R185 now, and until the first swap instant of a new timing the count before it (R187). -/
def State.countNow (s : State) : Nat :=
  match s.time.between with
  | some q => if s.time.clock < q.1 then q.2 else s.timing.countAt s.time.clock
  | none => s.timing.countAt s.time.clock

/-- The frame count that a count given under epoch `e` names under the epoch in force (R633): mapped by instant, the first
frame of the epoch in force for an epoch older than the three before it. `none` for a later epoch. -/
def State.mapCount (s : State) (e n : Nat) : Option Nat :=
  let d := seqDiff 8 (s.f F.TIME_TEPOCH) e
  if d < 0 then none
  else if d = 0 then some n
  else match s.time.epochs[d.toNat]? with
    | some t => some (s.timing.firstAt (t.swapAt n))
    | none => some (s.timing.firstAt (s.time.changes.headD 0))

/-- The timing epoch that was in force at an instant (R633), of those that this node remembers. -/
def State.epochAt (s : State) (t : Nat) : Nat :=
  (s.f F.TIME_TEPOCH + 256 - (s.time.changes.filter fun c => decide (t < c)).length) % 256

/-- A committed flock changes the timing (R187, R633): TEPOCH advances when the rate code or PHASE changes, and the first
swap instant of the new timing is the first at or after `t`. -/
def State.commitTiming (s : State) (t : Nat) (new : Timing) : State :=
  let old := s.timing
  let s := ((s.put F.TIME_FRAME_RATE new.code).put F.TIME_FRAME_SLOTS new.slots).put F.TIME_FRAME_PHASE new.phase
  if old.code == new.code && old.phase == new.phase then
    s.onTime fun x => { x with epochs := new :: x.epochs.tail }
  else
    (s.put F.TIME_TEPOCH ((s.f F.TIME_TEPOCH + 1) % 256)).onTime fun x =>
      { x with epochs := (new :: x.epochs).take 4, changes := (t :: x.changes).take 4 }

/-- Rates and slot counts of Table 1-3: the slot rate stays within 480 Hz (R20). -/
def timingOk (t : Timing) : Bool :=
  let r := nth rateTable t.code (0, 1)
  decide (t.code < 18) && decide (1 ≤ t.slots) && decide (t.slots ≤ 4) && decide (r.1 * t.slots ≤ 480 * r.2) &&
    decide ((t.phase + 1) * nsU ≤ periodU t.code)

/-! ### Alarm timers (R188) -/

def State.onAlarm (s : State) (a : Nat) (f : Alarm → Alarm) : State :=
  s.onTime fun t => { t with alarms := modAt t.alarms a f }
def State.alarm (s : State) (a : Nat) : Alarm := nth s.time.alarms a {}

/-- INT_N is asserted (R601). -/
def State.intN (s : State) : Bool :=
  (List.range 8).any fun n => bitOf (s.f F.GPIO_INT_CTX) n &&
    Nat.land (s.reg (F.CTXn_IRQ_CAUSE_COMPLETION.addr n 0)).toNat (s.reg (F.CTXn_IRQ_MASK_COMPLETION.addr n 0)).toNat != 0

/-- A pin has an output function, and the TIME island runs. -/
def State.pinDrives (s : State) (k : Nat) : Bool :=
  s.on iTIME && s.f F.GPIOk_CFG_FUNC k != 0 && s.f F.GPIOk_CFG_FUNC k != 7

/-- The function of a pin is asserted (Table 19-7). -/
def State.pinAsserted (s : State) (k : Nat) : Bool :=
  let a := s.f F.GPIOk_CFG_ALARM k
  match s.f F.GPIOk_CFG_FUNC k with
  | 1 => bitOf (s.f F.GPIO_OUT) k
  | 2 => (s.alarm a).pulseEnd.isSome && [1, 2].contains (s.f F.TIME_ALARMa_CTL_TARGET a)
  | 3 => s.pwr.faultN
  | 4 => s.b F.THERM_STATUS_WARN || s.b F.THERM_STATUS_THROTTLE
  | 5 => s.isTile && s.on iLAMP && (nth s.lamp.groups (s.f F.GPIOk_CFG_GROUP k) {}).lsync
  | 6 => s.intN
  | _ => false

/-- The level that a pin drives; none for a pin that is an input, or open-drain and not low (R599). -/
def State.pinOut (s : State) (k : Nat) : Option Bool :=
  let l := s.pinAsserted k != s.b F.GPIOk_CFG_INVERT k
  if s.pinDrives k && !(s.b F.GPIOk_CFG_OPEN_DRAIN k && l) then some l else none

/-- The level of a pin is driven anew. -/
def State.drivePin (s : State) (k : Nat) : State := s.emit (.pin k (s.pinOut k))

/-- The level of the pins whose GPIO function is bound to the alarm (R188, R599). -/
def State.alarmPins (s : State) (a : Nat) : State :=
  s.each (List.range 16) fun s k => s.when (s.f F.GPIOk_CFG_FUNC k == 2 && s.f F.GPIOk_CFG_ALARM k == a) fun s => s.drivePin k

/-- A firing: FIRED, and under TARGET the interrupt or the pulse of WIDTH ns; it ends the pulse before it, and WIDTH 0 gives none (R188, R198). -/
def State.fireAlarm (s : State) (a : Nat) : State :=
  let tgt := s.f F.TIME_ALARMa_CTL_TARGET a
  let s := s.flag F.TIME_ALARMa_CTL_FIRED true a
  let s := s.onAlarm a fun x => { x with fired := true, armed := s.f F.TIME_ALARMa_CTL_MODE a != 0, since := s.time.clock }
  let s := if tgt == 0 || tgt == 2 then s.irqAll F.CTXn_IRQ_CAUSE_TIME else s
  let w := s.f F.TIME_ALARMa_WIDTH a
  let pulse := (tgt == 1 || tgt == 2) && w != 0
  if pulse || (s.alarm a).pulseEnd.isSome then
    (s.onAlarm a fun x => { x with pulseEnd := if pulse then some (s.time.clock + w * nsU) else none }).alarmPins a
  else s

/-- The target of a MODE 0 alarm: SEC:NS, the upper 32 bits of the seconds from the clock. -/
def State.alarmTarget (s : State) (a : Nat) : Nat :=
  let sec := s.nowNs / 10 ^ 9
  secU (sec / 2 ^ 32 * 2 ^ 32 + s.f F.TIME_ALARMa_SEC a) + s.f F.TIME_ALARMa_OFFSET a * nsU

/-- The timing that counts at an instant, and the span in which its instants stand: before the first swap instant of a changed timing it is
the old one, whose last is T (R187). -/
def State.timingAt (s : State) (c : Nat) : Timing × Nat × Nat :=
  match s.time.changes, s.time.epochs with
  | t :: _, new :: old :: _ =>
    let first := new.swapAt (new.firstAt t)
    if c < first then (old, 0, min c t) else (new, first, c)
  | _, _ => (s.timing, 0, c)

/-- The latest instant, not after now, at which the MODE of an alarm has it fire (R188); the OFFSET of MODES 1 to 3 is signed. -/
def State.alarmInstant (s : State) (a : Nat) : Option Int :=
  let off : Int := s.sf F.TIME_ALARMa_OFFSET a * nsU
  let now : Int := s.time.clock
  let c := (now - off).toNat
  let q := s.timingAt c
  let n := q.1.countAt q.2.2
  let latest := fun (l : List Nat) => (l.filter fun x => decide ((x : Int) + off ≤ now)).foldl
    (fun (m : Option Int) x => some (max (m.getD 0) (x + off))) none
  match s.f F.TIME_ALARMa_CTL_MODE a with
  | 0 => if s.alarmTarget a ≤ s.time.clock then some (s.alarmTarget a : Int) else none
  | 1 => latest [q.1.swapAt n]
  | 2 => latest (([n - 1, n].flatMap fun n =>
      ((List.range q.1.slots).filter fun k => bitOf (s.f F.TIME_ALARMa_CTL_SLOT_MASK a) k).map fun k => q.1.slotAt n k).filter fun x =>
        decide (q.2.1 ≤ x) && decide (x ≤ q.2.2))
  | _ => latest [c / secU 1 * secU 1]

/-- The alarm is armed and an instant of its MODE has come since it was armed or last fired; in MODE 0 its target has come, be it by a step
of the clock. -/
def State.alarmDue (s : State) (a : Nat) : Bool :=
  (s.alarm a).armed && (s.alarmInstant a).any fun x =>
    s.f F.TIME_ALARMa_CTL_MODE a == 0 || decide (((s.alarm a).since : Int) < x)

/-- ENABLE of an alarm written: it is armed, and a MODE 0 target already past fires at once with LATE; 0 disarms it. -/
def State.armAlarm (s : State) (a : Nat) : State :=
  if !(s.b F.TIME_ALARMa_CTL_ENABLE a) then s.onAlarm a fun x => { x with armed := false }
  else
    let s := s.onAlarm a fun x => { x with armed := true, fired := false, since := s.time.clock }
    if s.f F.TIME_ALARMa_CTL_MODE a == 0 && decide (s.alarmTarget a < s.time.clock) then
      (s.flag F.TIME_ALARMa_CTL_LATE true a).fireAlarm a
    else s

/-- ALARM_ARM: ENABLE = 1 is written. -/
def execAlarmArm (a : Fin 32) (s : State) : Host.Outcome State Fault Refusal :=
  .next (if s.on iTIME then (s.flag F.TIME_ALARMa_CTL_ENABLE true a).armAlarm a else s)

/-- ALARM_FIRE (R164, R188): an instant of an armed alarm has come. -/
def execAlarmFire (a : Fin 32) (s : State) : Host.Outcome State Fault Refusal :=
  .next (if s.on iTIME && s.alarmDue a then s.fireAlarm a else s)

/-- ALARM_PULSE_END. -/
def execAlarmPulseEnd (a : Fin 32) (s : State) : Host.Outcome State Fault Refusal :=
  .next (match (s.alarm a).pulseEnd with
    | some e => if s.time.clock < e then s else (s.onAlarm a fun x => { x with pulseEnd := none }).alarmPins a
    | none => s)

end Sys2Proof.Machine
end

