-- ==== Sys2Proof/Machine/RingOps.lean ====
section
/-! DEFINITION. Rings, cells and head redundancy (spec/04_ring_and_redundancy.md): sending, tally windows, enumeration,
election, digests, takeover, resync and handback. -/
set_option Elab.async false
namespace Sys2Proof.Machine

/-! ### Sending (R122, R123, R138) -/

/-- Send a cell on every ring port that is up. -/
def State.sendRings (s : State) (c : Bytes) : State :=
  if s.mute c then s else s.each s.ringPorts fun s p => if s.portSends p then s.sendCell p c else s

/-- The other head takes copies (R138). -/
def State.copiesOn (s : State) : Bool :=
  s.portUp 6 && !(s.b F.RING_CFG_SINGLE) &&
    match s.ring.peer with
    | some h => h.state == hsStandby || h.state == hsResync
    | none => false

/-- The bytes that a digest covers (R141). -/
def digestBytes (body : Bytes) : Bytes := body.take 1 ++ (body.drop 2).take 7 ++ (body.drop 10).take 494

/-- Insert a cell in tally order. -/
def byTally (t : Nat) (b : Bytes) : List (Nat × Bytes) → List (Nat × Bytes)
  | [] => [(t, b)]
  | x :: r => if seqDiff 32 t x.1 < 0 then (t, b) :: x :: r else x :: byTally t b r

/-- Count a sent cell into the digest of its stream and frame (R141). -/
def State.digestCell (s : State) (body : Bytes) : State :=
  let st := bits (le body 0 1) 0 6
  let fr := le body 20 4
  let old := (s.ring.sent.find? fun d => d.stream == st && d.frame == fr).getD { stream := st, frame := fr }
  s.onRing fun r => { r with
    sent := { old with filled := old.filled || bitOf (le body 1 1) 0, cells := byTally (le body 2 4) (digestBytes body) old.cells } ::
      r.sent.filter fun d => !(d.stream == st && d.frame == fr) }

/-- The digest entry over the cells of a stream and frame (R141). -/
def SentCells.digest (d : SentCells) (now : Nat) : Digest :=
  ⟨d.stream, d.frame, d.filled, d.cells.length, (crc64 (d.cells.flatMap Prod.snd)).toNat, now⟩

/-- ADDRESS of a cell: only streams 18 to 20 and 32 to 35 have one (Table 4-1). -/
def cellAddress (stream addr : Nat) : Nat :=
  if (18 ≤ stream ∧ stream ≤ 20) ∨ (32 ≤ stream ∧ stream ≤ 35) then addr else 0

/-- The bellwether sends a message on one of streams 16 and 18 to 21: cut into cells with consecutive tallies; a stream-16
cell waits for the acknowledgement of its copy (R138). -/
def State.bwSend (s : State) (stream dest : Nat) (msg : Bytes) : State :=
  let addr := cellAddress stream dest
  let cs := chunks 200 msg
  s.each (List.range cs.length) fun s k =>
    let body := cellBody stream false (k == 0) (k + 1 == cs.length) (s.nextTally stream) addr 0 0
      (nth cs k []).length s.wf32 (nth cs k [])
    let c := sealCell body
    let s := (s.bumpTally stream).digestCell body
    if s.copiesOn then
      let s := s.sendCell 6 c
      if stream == 16 then s.onRing fun r => { r with copies := r.copies ++ [(s.time.aon, c)] } else s.sendRings c
    else s.sendRings c

/-- The ring ports that lead to the other head (R122). In a head pair every ring has both heads as its ends, whatever is broken
between them (R24, R128; assumption 74); a single-head wall has no other head. -/
def State.pairPorts (s : State) : List Nat :=
  if s.b F.RING_CFG_SINGLE then [] else s.ringPorts.filter fun p => s.portSends p

/-- A head sends a cell of its own toward the other head: on port 6 while it is up, else on every ring of which both are
ends (R122). -/
def State.peerPorts (s : State) : List Nat :=
  if s.portUp 6 && !(s.b F.RING_CFG_SINGLE) then [6] else s.pairPorts

/-- A head's own cell of a stream from 32 on toward the other head (R122, R123). -/
def State.headSend (s : State) (stream : Nat) (msg : Bytes) : State :=
  let cs := chunks (msg.length / 480 + 1) msg
  s.each (List.range cs.length) fun s k =>
    let c := sealCell (cellBody stream false (k == 0) (k + 1 == cs.length) (s.nextTally stream) 0 0 0
      (nth cs k []).length s.wf32 (nth cs k []))
    let s := s.bumpTally stream
    s.each (if stream == 40 || stream == 43 then s.peerPorts.filter (· == 6) else s.peerPorts) fun s p => s.sendCell p c

/-! ### Tally windows (R124 to R127) -/

/-- What the window does with a cell. -/
inductive Verdict where
  | accept | replace | dup | mismatch | stale
  deriving DecidableEq, Repr

/-- The rule of R124 for a cell of tally `t`: the window afterwards, what happens to the cell, whether the tally jumped. 16 STALE
cells in a row unsynchronise a tile's window (R126). -/
def Win.take (w : Win) (tile : Bool) (t : Nat) (filled : Bool) (crc : Nat) (beforeLatch : Bool) : Win × Verdict × Bool :=
  if !w.synced then ({ w with
                              synced := true, high := t, marks := [(t, filled, crc)], stale := 0, next := t,
                              waiting := [], gapAt := none, part := [] }, .accept, false)
  else
    let d := seqDiff 32 t w.high
    if 0 < d then
      ({ w with
          high := t
          marks := (t, filled, crc) :: w.marks.filter fun m => decide (seqDiff 32 t m.1 ≤ 4095)
          stale := 0 }, .accept, decide (4095 < d))
    else if -4095 ≤ d then
      match w.marks.find? fun m => m.1 == t with
      | none => ({ w with marks := (t, filled, crc) :: w.marks, stale := 0 }, .accept, false)
      | some m =>
        let w := { w with stale := 0 }
        if m.2.1 && !filled && beforeLatch then
          ({ w with marks := (t, false, crc) :: w.marks.filter fun x => x.1 != t }, .replace, false)
        else if !m.2.1 && !filled && m.2.2 != crc then (w, .mismatch, false)
        else (w, .dup, false)
    else
      let w := { w with stale := w.stale + 1 }
      (if tile && w.stale == 16 then { w with synced := false, stale := 0 } else w, .stale, false)

/-- The window of a stream and source. -/
def State.win (s : State) (stream src : Nat) : Win :=
  (s.ring.wins.find? fun w => w.stream == stream && w.src == src).getD { stream := stream, src := src }

def State.setWin (s : State) (w : Win) : State :=
  let s := s.onRing fun r => { r with
    wins := w :: r.wins.filter fun x => !(x.stream == w.stream && x.src == w.src) }
  if s.isTile && w.src == 0 then s.put F.STREAMs_HIGH w.high w.stream else s

/-- A tally passes a window (R124, R125): the counts, and whether the cell is accepted or replaces a filled copy. -/
def State.passTally (s : State) (stream src t : Nat) (filled : Bool) (crc : Nat) (beforeLatch : Bool) : State × Verdict :=
  let q := (s.win stream src).take s.isTile t filled crc beforeLatch
  let s := (s.setWin q.1).when q.2.2 fun s => s.inc F.RING_TALLY_JUMP
  match q.2.1 with
  | .accept => (s, .accept)
  | .replace => (s.inc F.RING_FILL_REPLACED, .replace)
  | .dup => (s.inc F.RING_DUP, .dup)
  | .mismatch => ((s.inc F.RING_COPY_MISMATCH).inc F.RING_DUP, .mismatch)
  | .stale => (s.inc F.RING_STALE, .stale)

/-- Unsynchronise the windows of a source (R126). -/
def State.unsync (s : State) (p : Win → Bool) : State :=
  s.onRing fun r => { r with wins := r.wins.map fun w => if p w then { w with synced := false } else w }

/-- The tile has lost both ring ports: every window is unsynchronised (R126). -/
def State.unsyncIfCut (s : State) : State :=
  if s.isTile && !(s.portUp 0) && !(s.portUp 1) then s.unsync fun _ => true else s

/-! ### The wall (R26, R129 to R133) -/

/-- Enumerated, present tiles, excluding EXCESS. -/
def State.wallTiles (s : State) : List TileRec := s.ring.tiles.filter fun t => t.present && !t.excess && t.hop != 0

/-- Refresh the counts of RINGr_INFO and RING_WALL. -/
def State.wallCounts (s : State) : State :=
  let ts := s.wallTiles
  let s := s.each (List.range 6) fun s r =>
    (s.put F.RINGr_INFO_TILES (ts.filter fun t => t.ring == r).length r).put F.RINGr_INFO_EXCESS
      (s.ring.tiles.filter fun t => t.present && t.excess && t.ring == r).length r
  s.put F.RING_WALL ts.length

/-- The bellwether classifies the wall (R26): at the end of every enumeration, and whenever a tile joins or leaves in place. -/
def State.reclassify (s : State) : State :=
  let s := s.wallCounts
  if s.isBw then
    s.flag F.RING_STATUS_COMPACT (decide (s.ringsUsed.length ≤ 2) && decide (s.wallTiles.length ≤ 128))
  else s

/-- A ring is closed while every link from head A's port to head B's port is up (R24): this head's own ports of it, and both ring
ports of each of its tiles as the last REPORT or health report showed them. -/
def State.ringClosed (s : State) (r : Nat) : Bool :=
  let ts := s.ring.tiles.filter fun t => t.present && t.ring == r
  let ps := s.portsOf r
  decide ((if s.b F.RING_CFG_SINGLE then 2 else 1) ≤ ps.length) && ps.all (fun p => s.portSends p) && !ts.isEmpty &&
    ts.all fun t => t.linked

/-- This head is head A of ring `r` (R128): a port of the ring links to a tile's west port, as its IDENT said; the only head of a
single-head wall is head A of every ring it serves. -/
def State.aSide (s : State) (r : Nat) : Bool :=
  (s.portsOf r).any fun p => s.b F.RING_CFG_SINGLE || s.f F.PORTn_PARTNER_INFO_KIND p == 2

/-- RINGr_INFO of a head: CLOSED (R24), MISMAP (R129) and A_SIDE (R128). -/
def State.judgeRings (s : State) : State :=
  if s.isHead then
    s.each (List.range 6) fun s r =>
      ((s.flag F.RINGr_INFO_CLOSED (s.ringClosed r) r).flag F.RINGr_INFO_MISMAP
        (s.ring.mismap.any fun q => q.2 == r && s.portRing q.1 != r) r).flag F.RINGr_INFO_A_SIDE (s.aSide r) r
  else s

/-- The WALL message (Table 4-4). -/
def State.sendWall (s : State) : State :=
  let fl := s.f F.RING_STATUS_COMPACT + 2 * s.f F.RING_STATUS_PREFER + 4 * b2n s.ring.start
  s.bwSend 21 0xFFFF (mkMsg 24 [(0, 1, 1), (1, 1, fl), (2, 2, s.wallTiles.length), (4, 1, s.ring.gen), (8, 8, s.serial),
    (16, 8, (s.ring.peer.map (fun h => h.serial)).getD 0)])

/-- AUTHORITY (Table 4-4). -/
def State.sendAuthority (s : State) (reason : Nat) : State :=
  s.bwSend 21 0xFFFF (mkMsg 16 [(0, 1, 2), (1, 1, reason), (8, 8, s.serial)])

/-- INGEST_ADMIT for the tiles (R76), in the model's own framing (kind 2, assumption 79): as it will be after flock `id`, or with 0 as it
is in force. -/
def State.sendAdmit (s : State) (id mb : Nat) : State := s.bwSend 19 0xFFFF (mkMsg 8 [(0, 1, 2), (2, 2, id), (4, 4, mb)])

/-- The tiles get the value in force: a wave has ended, a tile has joined, or a flock has applied. -/
def State.admitNow (s : State) : State := s.sendAdmit 0 (s.f F.INGEST_ADMIT)

/-- ENUM of ring `r` on port `p` (Table 4-3). -/
def State.sendEnum (s : State) (p r hop base dir head : Nat) : State :=
  s.emit (.link p 0x20 (linkBlock 0x20 [(2, 1, r), (3, 1, hop), (4, 2, base), (6, 1, s.ring.gen), (7, 1, dir),
    (8, 8, head)]))

/-- WALL_BASE of ring `r` (R130). -/
def State.wallBase (s : State) (r : Nat) : Nat := (s.wallTiles.filter fun t => decide (t.ring < r)).length

/-- The port on which this head sends ENUM of direction `dir` on ring `r` (R128, R130, R131): the only head uses the port linked to a
tile's west port (DIR 0) or east port (DIR 1); in a pair head A sends DIR 0 and head B DIR 1, and nothing goes out on a mismapped
port. -/
def State.enumPort (s : State) (r dir : Nat) : Option Nat :=
  if s.b F.RING_CFG_SINGLE then
    (s.portsOf r).find? fun p => s.portSends p && s.f F.PORTn_PARTNER_INFO_KIND p == (if dir == 0 then 2 else 3)
  else if s.b F.RINGr_INFO_A_SIDE r == (dir == 0) then (s.portsOf r).find? fun p => s.portSends p else none

/-- What ENUM of the present wave carries: the hop it starts from, and WALL_BASE (R130, R131). -/
def State.enumStart (s : State) (r dir : Nat) : Nat × Nat :=
  let top := (s.ring.tiles.filter fun t => t.ring == r && t.gen == s.ring.gen).foldl (fun m t => max m t.hop) 0
  (if dir == 0 then 0 else top, s.wallBase r)

/-- The serial of head A of ring `r`, as this head knows it. Head B that knows no other head puts 0: DESIGN CHOICE (assumption 74), since R130
does not say what stands there. -/
def State.headASerial (s : State) (r : Nat) : Nat :=
  if s.b F.RINGr_INFO_A_SIDE r then s.serial else (s.ring.peer.map (fun h => h.serial)).getD 0

/-- The wave of ring `r` in direction `dir` starts (R130, R131). A wave that starts at the other head is asked for in HELLO as long as
it lasts: the spec gives that request no message (DESIGN CHOICE, assumption 74). -/
def State.startWave (s : State) (r dir : Nat) : State :=
  let s := s.onRing fun x => { x with wave := some (r, dir, s.time.aon) }
  let s := if dir == 0 then s.flag F.RINGr_INFO_ENUM_DONE false r else s
  match s.enumPort r dir with
  | some p => s.sendEnum p r (s.enumStart r dir).1 (s.enumStart r dir).2 dir (s.headASerial r)
  | none => s

/-- Go on to the next ring, or end the wave and reclassify (R131). -/
def State.nextWave (s : State) (r : Nat) : State :=
  match s.ringsUsed.find? fun x => decide (r < x) with
  | some x => s.startWave x 0
  | none => ((s.onRing fun x => { x with wave := none }).reclassify).sendWall.admitNow

/-- A head takes up a new generation: indices are free again, its wave has reached no END yet (R162), and the windows of the tile
addresses are unsynchronised (R126). -/
def State.headGen (s : State) (g : Nat) : State :=
  let s := s.each (List.range 6) fun s r => s.flag F.RINGr_INFO_ENUM_DONE false r
  (s.onRing fun r => { r with gen := g, tiles := r.tiles.map (fun t => { t with hop := 0 }), held := [] }).unsync fun w =>
    decide (32 ≤ w.stream) && decide (w.stream ≤ 35) && decide (w.src < 0x10000)

/-- An enumeration wave (R130): GEN advances and the lowest ring starts. -/
def State.enumerate (s : State) : State :=
  if !s.isBw then s
  else
    let s := s.headGen ((s.ring.gen + 1) % 256)
    match s.ringsUsed with
    | r :: _ => s.startWave r 0
    | [] => s.reclassify

/-! ### Entries of host commands (Table 12-3) -/

/-- Fields of a command entry (Table 12-3). -/
def eOp (e : Bytes) : Nat := le e 0 1
def eIrq (e : Bytes) : Bool := bitOf (le e 1 1) 0
def eFlock (e : Bytes) : Nat := bits (le e 2 2) 0 12
def eTarget (e : Bytes) : Nat := le e 4 2
def eLen (e : Bytes) : Nat := le e 8 4
def eCookie (e : Bytes) : Nat := le e 12 4
def eAddr (e : Bytes) : Nat := le e 16 8

/-- A staged write: REG_WRITE or TABLE_WRITE that names a flock (R403). -/
def isStaged (e : Bytes) : Bool := (eOp e == 1 || eOp e == 2) && eFlock e != 0

/-! ### Flock records (R225, R228, R230) -/

/-- Keys from here on, above the 12-bit IDs, hold the records of flocks whose ID is free again while their commit is still to apply on this
node (R200). -/
def shelf : Nat := 4096

/-- The flock's ID is in use (R200). -/
def Flock.inUse (f : Flock) : Bool := f.id != 0 && decide (f.id < shelf)

/-- Participants still to be heard of: those that have not left the wall by R133 (R213). -/
def State.awaited (s : State) (f : Flock) : List Nat :=
  f.parts.filter fun p => !(s.ring.tiles.any fun t => t.serial == p && !t.present)

/-- Refresh FLOCK_STATUS.OPEN, EXCLUSIVE_CALLED, FLOCKs_INFO and the FLOCK_SEL_ registers from the records: the record in
slot `k` is element `k` of the list, an ID of 0 marking a free slot (R225, R228, R230). -/
def State.flockRegs (s : State) : State :=
  let fs := s.flocks
  let bw := s.isBw
  let s := s.put F.FLOCK_STATUS_OPEN (fs.filter fun f => if bw then f.inUse else f.id != 0).length
  let s := s.flag F.FLOCK_STATUS_EXCLUSIVE_CALLED (fs.any fun f => f.inUse && f.exclusive && f.called && f.own)
  let s := s.each (List.range 64) fun s k =>
    let f : Flock := nth fs k { id := 0, st := 0 }
    if f.id == 0 then s.zero F.FLOCKs_INFO_ID k
    else
      ((((s.put F.FLOCKs_INFO_ID (f.id % shelf) k).put F.FLOCKs_INFO_STATE f.st k).put F.FLOCKs_INFO_REASON f.reason k).flag
        F.FLOCKs_INFO_EXCLUSIVE f.exclusive k).put F.FLOCKs_INFO_CONTEXT (if f.own then f.ctx else 0) k
  let f : Flock := nth fs (s.f F.FLOCK_SEL) { id := 0, st := 0 }
  let s := (s.put64 F.FLOCK_SEL_T_LO F.FLOCK_SEL_T_HI f.t).put F.FLOCK_SEL_DEADLINE_SEC (f.dv / secU 1)
  let s := s.put F.FLOCK_SEL_DEADLINE_NS (f.dv / nsU % 10 ^ 9)
  let n := fun (p : Vote → Bool) => if bw then (f.votes.filter p).length else 0
  let s := (s.put F.FLOCK_SEL_VOTES_READY (n (·.ready))).put F.FLOCK_SEL_VOTES_REFUSE (n fun v => !v.ready)
  let parts := if bw then s.awaited f else []
  let s := (s.put F.FLOCK_SEL_ACKS_ACKED (parts.filter f.acks.contains).length).put F.FLOCK_SEL_ACKS_PARTICIPANTS parts.length
  let s := s.put64 F.FLOCK_SEL_NODE_LO F.FLOCK_SEL_NODE_HI f.node
  s.put F.FLOCK_SEL_STAGED (if f.own && bw then f.sent else f.received)

/-! ### The journal (R410) -/

/-- The lowest number that a list does not hold: the slot or unit that a new record takes, which the spec leaves to the node. -/
def lowestFree (used : List Nat) : Nat := ((List.range (used.length + 1)).find? fun k => !(used.contains k)).getD 0

/-- Bytes 0 to 255 of a journal record (Table 12-7); PAYLOAD_ADDR is the payload's place in the payload area. -/
def JRec.bytes (r : JRec) : Bytes :=
  let marks := b2n r.handoff + 2 * b2n r.accWritten + 4 * b2n r.doneWritten + 8 * b2n r.consumed
  Sys2Proof.Machine.put ((r.entry ++ zeros 64).take 64) 16 8 (if r.payload.isEmpty then 2 ^ 64 - 1 else r.unit * 65536) ++ (mkMsg 48 [(0, 4, r.ticket), (4, 1, r.ctx + 8 * b2n r.peer), (5, 1, r.st), (6, 1, r.result),
    (7, 1, marks), (8, 4, r.epoch), (16, 8, r.tau / nsU), (24, 8, r.doneTime / nsU), (32, 8, r.originSerial),
    (40, 4, r.originTicket), (44, 1, r.originCtx)]) ++ (r.data ++ zeros 32).take 32 ++ zeros 112

/-- The record that 256 bytes and a payload spell. -/
def JRec.ofBytes (b payload : Bytes) (peer : Bool) : JRec where
  entry := b.take 64
  payload := payload
  ticket := le b 64 4
  ctx := bits (le b 68 1) 0 3
  peer := peer
  st := le b 69 1
  result := le b 70 1
  handoff := bitOf (le b 71 1) 0
  accWritten := bitOf (le b 71 1) 1
  doneWritten := bitOf (le b 71 1) 2
  consumed := bitOf (le b 71 1) 3
  epoch := le b 72 4
  tau := le b 80 8 * nsU
  doneTime := le b 88 8 * nsU
  originSerial := le b 96 8
  originTicket := le b 104 4
  originCtx := le b 108 1
  data := (b.drop 112).take 32
  sqIndex := 0

/-- A record sent to the other head on stream 41: the model's own framing (kind 1, then the record and its payload). -/
def mirrorMsg (r : JRec) : Bytes := mkMsg 8 [(0, 1, 1), (1, 1, r.ctx), (4, 4, r.ticket)] ++ r.bytes ++ r.payload
/-- The acknowledgement of a record (kind 2). -/
def mirrorAckMsg (c ticket : Nat) : Bytes := mkMsg 8 [(0, 1, 2), (1, 1, c), (4, 4, ticket)]

/-- The record of a ticket: of this node's own journal, or for `c` from 8 on of context `c - 8` of the other head, whose tickets a
survivor finishes (R414). -/
def State.jrec (s : State) (c ticket : Nat) : Option JRec :=
  if c < 8 then s.host.journal.find? fun r => r.ctx == c && r.ticket == ticket && r.epoch == s.host.epoch
  else s.host.peerJournal.find? fun r => r.ctx + 8 == c && r.ticket == ticket

/-- The 512 bytes of a journal slot (R410). -/
def JRec.slotBytes (r : JRec) : Bytes := r.bytes ++ complement r.bytes

/-- The 512-byte header of the journal: the epoch and its complement (R410). -/
def State.journalHeader (s : State) : Bytes := toLE 4 s.host.epoch ++ complement (toLE 4 s.host.epoch) ++ zeros 504

/-- HOST_JOURNAL and HOST_PEER_JOURNAL. -/
def State.journalRegs (s : State) : State :=
  (s.put F.HOST_JOURNAL (min s.host.journal.length 131071)).put F.HOST_PEER_JOURNAL (min s.host.peerJournal.length 131071)

/-- Change a record; the change goes to the other head while mirroring is up (R413). -/
def State.onRec (s : State) (c ticket : Nat) (f : JRec → JRec) : State :=
  let s := s.onHost fun h => { h with
    journal := h.journal.map fun r => if r.ctx == c && r.ticket == ticket && r.epoch == h.epoch then f r else r
    peerJournal := h.peerJournal.map fun r => if r.ctx + 8 == c && r.ticket == ticket then f r else r }
  if 8 ≤ c then s else
  match s.jrec c ticket with
  | some r => if s.ring.mirrorUp then s.headSend 41 (mirrorMsg { r with payload := [] }) else s
  | none => s

/-- The epoch and the next ticket numbers of a head, told on stream 41 (kind 5): the model's own framing. -/
def State.sendEpoch (s : State) : State := s.headSend 41 (mkMsg 8 [(0, 1, 5), (4, 4, s.host.epoch)] ++ s.host.next.flatMap (toLE 4))

/-- The number after a ticket (R407). -/
def nextNumber (t : Nat) : Nat := if t == 2 ^ 32 - 1 then 1 else t + 1
/-- The next ticket number of context `c` (R407). -/
def State.setNext (s : State) (c v : Nat) : State :=
  (s.put F.CTXn_NEXT_TICKET v c).onHost fun h => { h with next := modAt h.next c fun _ => v }

/-! ### Authority (R136, R145, R146, R151) -/

/-- ROLE priority: 0 or 1 (R3). -/
def State.prio (s : State) : Nat := s.f F.BOOT_STRAPS_ROLE - 1

/-- A flock record of a head that enters a state: a bellwether has it for its own, and decides one that is called and undecided after the
grace alone (R220). -/
def Flock.take (f : Flock) (bw : Bool) : Flock := { f with own := bw, taken := bw && f.called && f.decided.isNone }

/-- Enter a head state: a bellwether takes the flock records it holds for its own (R220), which the flock registers show, and a head
that leaves STANDBY abandons an online test (R558). -/
def State.setHead (s : State) (st : Nat) : State :=
  let s := ((s.put F.RING_STATUS_STATE st).onFlocks fun l => l.map fun f => f.take (st == hsBellwether)).flockRegs
  let s := s.onRing fun r => { r with returned := false }
  let s := if st == hsResync then s.onRing fun r => { r with resyncPhase := 1, resyncSeen := [], resyncSince := none } else s
  let s := (s.flag F.RING_STATUS_HANDBACK_PENDING false).onRing fun r => { r with handbackDue := false }
  if st != hsStandby && (s.bist.due || (s.bist.run.any (·.online))) then
    let s := if s.bist.run.any (·.online) then s.flag F.BIST_STATUS_BUSY false else s
    s.onBist fun b => { b with due := false, run := b.run.filter fun r => !r.online }
  else s

/-- Tickets found EXECUTING after an event of R27 are executed again from their start, the hand-off mark kept (R409): those that have not
reached it, and the writes, which apply the same values again. -/
def JRec.again (r : JRec) : JRec :=
  let write := bits (le r.entry 2 2) 0 12 == 0 && (le r.entry 0 1 == 1 || le r.entry 0 1 == 2)
  if r.st == 2 && (!r.handoff || write) then { r with st := 1 } else r

/-- The post of a ticket has been sent: the newest one of its layer or camera holds the same content (DEDUCED, assumption 93). Its EFFECTIVE, as
the ticket's DATA. -/
def State.postSent (s : State) (e : Bytes) : Option Bytes :=
  let epoch := s.f F.TIME_TEPOCH
  if eOp e == 0x08 then ((nth s.comp.layers (le e 24 1) {}).posts.head?.filter fun h => h.tepoch == epoch && h.value == le e 28 4).map fun h =>
    toLE 4 h.effective
  else if eOp e == 0x09 then
    ((nth s.comp.posePosts (bits (le e 24 1) 0 2) []).head?.filter fun p => p.tepoch == epoch && p.valid == bitOf (le e 24 1) 2 &&
      p.x == le e 28 4 && p.y == le e 32 4 && p.z == le e 36 4).map fun p => toLE 4 p.effective
  else none

/-- What the copies of R138 show of a ticket found EXECUTING before its hand-off, as DATA that it completes with (R414): the flock that a
FLOCK_OPEN has opened, the abort of a FLOCK_CANCEL, the EFFECTIVE of a post. -/
def State.sentData (s : State) (r : JRec) : Option Bytes :=
  let id := eFlock r.entry
  match eOp r.entry with
  | 0x10 => (s.flocks.find? fun f => f.inUse && f.opener == r.originSerial && f.ctx == r.ctx && !f.placed).map fun f => toLE 2 f.id
  | 0x12 => if (s.flocks.any fun f => f.id == id && f.inUse && f.decided == some false && f.reason == 7) ||
      (s.host.retired.any fun q => q.id == id && !q.commit && q.reason == 7) then some [0] else none
  | _ => s.postSent r.entry

/-- A ticket of the lost head that was EXECUTING, by the copies of R138 and R220 (R414). A staged write or a CALL has been sent when its copy
is here, whether or not its hand-off is marked; what has not been sent is carried out from its start. -/
def State.carry (s : State) (r : JRec) : JRec :=
  let mine := fun (x : JRec) => x.st == 2 && x.handoff && isStaged x.entry && eFlock x.entry == eFlock r.entry
  let before := ((s.host.peerJournal.takeWhile fun x => !(x.ctx == r.ctx && x.ticket == r.ticket)).filter mine).length
  if r.st != 2 then r
  else if isStaged r.entry || eOp r.entry == 0x11 then
    match s.flocks.find? fun f => f.id == eFlock r.entry && f.id != 0 && f.decided.isNone with
    | some f =>
      if f.called || (isStaged r.entry && decide (before < f.sent)) then { r with handoff := true }
      else { r with handoff := false }
    | none => r
  else if r.handoff then r
  else { r with data := (s.sentData r).getD r.data }

/-- Become BELLWETHER, with an AUTHORITY of the given reason; after an election the clock steps next (R170). Posts of its own that the other
head has not answered are its own to process (R419). -/
def State.becomeBw (s : State) (reason : Nat) : State :=
  let s := (s.setHead hsBellwether).put64 F.RING_BW_SERIAL_LO F.RING_BW_SERIAL_HI s.serial
  let s := s.onRing fun r => { r with bwSerial := s.serial, bwSince := s.time.clock }
  let open_ := s.host.journal.filter fun r => r.epoch == s.host.epoch && r.st == 2 && !r.handoff
  let s := s.each open_ fun s r => s.onRec r.ctx r.ticket fun x => { x with st := 1, data := (s.postSent x.entry).getD x.data }
  (s.when (reason != 0) State.takeTime).sendAuthority reason

/-- The end of the election: authority, time step and enumeration. -/
def State.elected (s : State) : State := ((s.becomeBw 0).electStep).enumerate

/-- Takeover (R145, R146): reason 1 after loss, 3 after a demotion. -/
def State.takeover (s : State) (reason : Nat) : State :=
  let jump := fun (p : Nat × Nat) =>
    if p.1 == 16 || (18 ≤ p.1 && p.1 ≤ 21) then (p.1, (p.2 + 4095) % 2 ^ 32) else p
  let recs := s.ring.records
  let s := s.onRing fun r => { r with
    jumped := (r.tallies.map fun p => (p.1, (p.2 + 4095) % 2 ^ 32, (p.2 + 2 ^ 32 - 1) % 2 ^ 32))
    tallies := recs.map (fun q => (q.1, (q.2.2.1 + 2 * q.2.2.2 + 4096) % 2 ^ 32)) ++
      ((r.tallies.filter fun p => !(recs.any fun q => q.1 == p.1)).map jump) }
  let s := s.onHost fun h => { h with peerJournal := h.peerJournal.map fun r => (s.carry r).again }
  ((s.inc F.RING_TAKEOVERS).irqAll F.CTXn_IRQ_CAUSE_RING).becomeBw reason

/-- Record a self-test fault, an uncorrectable memory error or a fold fault for R142. -/
def State.noteFault (s : State) : State := s.onRing fun r => { r with selfFault := some s.time.clock }

/-- A lapse of R151: the clean count starts again, and a handback that waits for it no longer stands. -/
def State.lapse (s : State) : State :=
  (s.flag F.RING_STATUS_HANDBACK_PENDING false).onRing fun r => { r with cleanSince := some s.time.clock, handbackDue := false }

/-- Mirroring comes up (R140, R150): from here the head can be clean (R151). -/
def State.mirrorStart (s : State) : State :=
  ((s.flag F.RING_STATUS_MIRROR_UP).onRing fun r => { r with mirrorUp := true, peerWhole := true }).lapse.sendEpoch

/-- Record an ingest error for wall frame `n` (R142). -/
def State.noteInputError (s : State) (n : Nat) : State :=
  s.onRing fun r => { r with inputErr := (n % 2 ^ 32 :: r.inputErr).take 256 }

/-- Outcome of a divergence once both heads' checks are known (Table 4-6), for the bellwether and the standby alone: a head in RESYNC or
DEMOTED has no row. The own result stays in HELLO, so that the other head learns it too (R142). -/
def State.divergeOutcome (s : State) (ownBad peerBad : Bool) : State :=
  let s := s.onRing fun r => { r with resolved := true }
  let standby := s.ring.peer.any fun h => h.state == hsStandby
  if !(s.f F.RING_STATUS_STATE == hsStandby || (s.isBw && standby)) then s else
  let bwBad := if s.isBw then ownBad else peerBad
  let sbBad := if s.isBw then peerBad else ownBad
  if bwBad == sbBad then (if s.isBw then (s.flag F.RING_STATUS_PREFER).sendWall else s)
  else if sbBad then (if s.isBw then s else s.setHead hsDemoted)
  else if s.isBw then s.setHead hsDemoted else s.takeover 3

/-- Declare divergence on a set of streams, at the frames of the failed comparisons (R142). What the input digest of a head
is, and so whether the two heads' differ, the spec does not say: a free choice (assumption 24). A further run of 3 while DIVERGED stands
declares it again, with its count and its checks: DESIGN CHOICE (assumption 74), since R142 speaks of one declaration. -/
def State.diverge (s : State) (streams frames : List Nat) : State :=
  let recent := fun (o : Option Nat) => match o with
    | some t => decide (s.time.clock ≤ t + secU 1)
    | none => false
  let bad := recent s.ring.selfFault || frames.any (fun n => s.ring.inputErr.contains n) || Config.freeBool s.fresh
  let s := ((s.flag F.RING_STATUS_DIVERGED).inc F.RING_DIVERGENCES).irqAll F.CTXn_IRQ_CAUSE_RING
  (s.onRing fun r => { r with
    verdict := some bad
    resolved := false
    diverged := streams ++ r.diverged.filter (fun x => !(streams.contains x))
    equalRuns := []
    misruns := r.misruns.filter (fun p => !(streams.contains p.1)) }).lapse.tickFresh

/-! ### Commands of enumeration -/

def execRingEnumerate (s : State) : Host.Outcome State Fault Refusal := .next (if s.pwr.up then s.enumerate else s)

/-- A tile meets an enumeration generation: a new one unsynchronises every window and starts the tallies of its own streams afresh
(R123, R126). -/
def State.tileGen (s : State) (g : Nat) : State :=
  let s := s.when (s.ring.gen != g) fun s => (s.unsync fun _ => true).onRing fun x => { x with
    tallies := x.tallies.filter (fun p => !(decide (32 ≤ p.1) && decide (p.1 ≤ 35))), gen := g, enumerated := false }
  s.put F.RING_TILE_STATUS_GEN g

/-- This tile takes ring `r` and hop `h` (or EXCESS) under generation `g`. -/
def State.takeIndex (s : State) (r h g : Nat) (excess : Bool) : State :=
  let s := (s.tileGen g).onRing fun x => { x with enumerated := true, late := false, joinAt := none }
  let s := (s.put F.RING_TILE_STATUS_RING r).put F.RING_TILE_STATUS_HOP (if excess then 0 else h)
  (s.flag F.RING_TILE_STATUS_ENUMERATED (!excess)).flag F.RING_TILE_STATUS_EXCESS excess

/-- The serial of the neighbour of ring port `p` as a REPORT gives it: 0 while the port is not UP (assumption 74). -/
def State.neighbour (s : State) (p : Nat) : Nat := if s.portUp p then s.partnerSerial p else 0

/-- REPORT or REQUEST (Table 4-4). -/
def State.joinMsg (s : State) (kind : Nat) (end_ : Bool) : Bytes :=
  mkMsg 32 [(0, 1, kind), (1, 1, b2n end_ + 2 * s.f F.RING_TILE_STATUS_EXCESS), (2, 1, s.f F.RING_TILE_STATUS_RING),
    (3, 1, s.f F.RING_TILE_STATUS_HOP), (4, 1, s.ring.gen), (8, 8, s.serial),
    (16, 8, s.neighbour 0), (24, 8, s.neighbour 1)]

/-- The bellwether lies through the east port of this tile (R144, R158): head A is at the west end of the ring (R128), so a bellwether that
is not head A lies east. So does the only head of a single-head wall whose wave came from the east alone, on a chain or beyond a break
(R25, R131). Where the wave came from a head B that knew no head A, that head lies east. A tile that no ENUM has reached does not know its
head A, and takes the bellwether to lie west: DESIGN CHOICE (assumption 74). -/
def State.bwEast (s : State) (ser : Nat) : Bool :=
  ser != 0 && if s.ring.headA == 0 then s.ring.enumEast && ser == s.ring.eastHead
    else ser != s.ring.headA || (s.ring.enumEast && !s.ring.pairSeen)

/-- ENUM (R129 to R131). A tile that has learned the GEN from a WALL message and holds no index under it takes an ENUM of that GEN as new:
DESIGN CHOICE (assumption 74), since R130 speaks of a GEN new to the tile. -/
def execEnum (port : Fin 7) (body : Bytes) (s : State) : Host.Outcome State Fault Refusal :=
  let r := le body 2 1
  let hop := le body 3 1
  let base := le body 4 2
  let g := le body 6 1
  let dir := bits (le body 7 1) 0 1
  .next (s.linkRx port body fun s => if !(s.on iLINK && s.portUp port && linkOk 0x20 body) then s
    else if s.isTile then
      if port.val != dir || (s.ring.enumerated && g == s.ring.gen) then s
      else
        let h := hop + 1
        let ok := decide (h ≤ 192) && decide (base + h ≤ 1024)
        let s := (s.takeIndex r h g (!ok)).onRing fun x => { x with
          headA := le body 8 8, enumEast := dir == 1, eastHead := if dir == 1 then x.bwSerial else 0 }
        let s := s.flag F.RING_TILE_STATUS_BW_EAST (s.bwEast s.ring.bwSerial)
        let other := 1 - port.val
        let endp := !(s.portUp other) || s.f F.PORTn_PARTNER_INFO_ROLE other != 0
        let s := if s.portUp other then s.sendEnum other r (if ok then h else hop) base dir (le body 8 8) else s
        s.tileSend 35 s.tileAddr (s.joinMsg 1 endp)
    else if port.val == 6 && !(s.b F.RING_CFG_SINGLE) then s
    else
      let s := (s.onRing fun x => { x with mismap := (port.val, r) :: x.mismap.filter fun q => q.1 != port.val }).judgeRings
      if s.isBw || g == s.ring.gen || s.mismapped port then s else s.headGen g)

/-- ENUM_WAVE_TIMEOUT (R131): 2.42 ms have passed since the wave of the ring started in its direction. -/
def execEnumWaveTimeout (s : State) : Host.Outcome State Fault Refusal :=
  .next (match s.ring.wave with
    | some (r, dir, t) =>
      if !(s.isBw && decide (t + 2420000 < s.time.aon)) then s else if dir == 0 then s.startWave r 1 else s.nextWave r
    | none => s)

/-- REPORT (R131): the tile is recorded; END ends the wave of its direction. A ring port that is not the last of the wave is up; END
means that the other is not, unless it links to a head. -/
def State.rxReport (s : State) (payload : Bytes) : State :=
  let ser := le payload 8 8
  let r := le payload 2 1
  let g := le payload 4 1
  let ex := bitOf (le payload 1 1) 1
  let end_ := bitOf (le payload 1 1) 0
  let heads := s.serial :: ((s.ring.peer.map (fun h => h.serial)).toList)
  let s := if s.isBw || g == s.ring.gen then s else s.headGen g
  let old := (s.ring.tiles.find? fun t => t.serial == ser).getD { serial := ser, ring := r, hop := 0, outOfService := s.ring.serviced.contains ser }
  let t := { old with
    ring := r, hop := le payload 3 1, excess := ex, gen := g, present := true, lastHealth := s.time.aon
    linked := !end_ || (le payload 16 8 != 0 && le payload 24 8 != 0) }
  let s := s.onRing fun x => { x with
    tiles := t :: x.tiles.filter (fun y => y.serial != ser)
    held := (ser, r, le payload 3 1) :: x.held.filter (fun y => !(y.1 == ser && y.2.1 == r)) }
  let s := (s.unsync fun w => decide (32 ≤ w.stream) && w.src == t.hop + 256 * t.ring).wallCounts.judgeRings
  match s.ring.wave with
  | some (wr, dir, _) =>
    if s.isBw && wr == r && end_ && g == s.ring.gen then
      let s := s.flag F.RINGr_INFO_ENUM_DONE true (min r 5)
      if dir == 0 && !(heads.contains (le payload 24 8)) then s.startWave r 1 else s.nextWave r
    else s
  | none => if s.isBw then s.reclassify.sendWall.admitNow else if end_ then s.flag F.RINGr_INFO_ENUM_DONE true (min r 5) else s
def execReport (port : Fin 7) (payload : Bytes) (s : State) : Host.Outcome State Fault Refusal :=
  .next (if s.isHead && s.on iLINK && s.portUp port then s.rxReport payload else s)

/-- JOIN_REQUEST_TIMER (R132): a late tile sends REQUEST every 1 ms until it receives ASSIGN. -/
def execJoinRequestTimer (s : State) : Host.Outcome State Fault Refusal :=
  let due := match s.ring.joinAt with
    | some t => decide (t + 1000000 ≤ s.time.aon)
    | none => true
  .next (if s.isTile && s.on iLINK && s.ring.late && due then
    (s.onRing fun r => { r with joinAt := some s.time.aon }).tileSend 35 0xFFFF (s.joinMsg 2 false)
  else s)

/-- A head records the tile of an ASSIGN (R132): the windows of the address are unsynchronised (R126), its request is answered, and the
rings it belongs to are judged anew (R162). -/
def State.noteAssign (s : State) (ser r h g : Nat) : State :=
  let old := (s.ring.tiles.find? fun t => t.serial == ser).getD { serial := ser, ring := r, hop := h, outOfService := s.ring.serviced.contains ser }
  let s := s.onRing fun x => { x with
    tiles := { old with ring := r, hop := h, excess := h == 0, gen := g, present := true, lastHealth := s.time.aon } ::
      x.tiles.filter (fun y => y.serial != ser)
    held := (ser, r, h) :: x.held.filter (fun y => !(y.1 == ser && y.2.1 == r))
    requests := x.requests.filter (fun q => q.1 != ser), peerRequests := x.peerRequests.filter (fun q => q.1 != ser)
    asks := x.asks.filter fun m => le m 8 8 != ser }
  (s.unsync fun w => decide (32 ≤ w.stream) && decide (w.stream ≤ 35) && w.src == h + 256 * r).wallCounts.judgeRings

/-- An index of a ring is taken: another serial holds it, or it stays reserved for one until the next wave (R133). -/
def State.indexUsed (s : State) (ser r h : Nat) : Bool :=
  (s.ring.tiles.any fun t => t.ring == r && t.hop == h && t.serial != ser) || s.ring.held.any fun x => x.1 != ser && x.2 == (r, h)

/-- The wall has room for one tile more (R17). A tile that has left counts while its index is reserved, so that its return never makes one too
many: DESIGN CHOICE (assumption 92). -/
def State.wallRoom (s : State) (ser : Nat) : Bool :=
  decide ((s.ring.tiles.filter fun t => t.hop != 0 && !t.excess && t.serial != ser).length < 1024)

/-- REQUEST (R132) received on ring `r`: the bellwether chooses a hop index and answers with ASSIGN. -/
def State.rxRequest (s : State) (r : Nat) (payload : Bytes) : State :=
  let ser := le payload 8 8
  let before := (s.ring.held.find? fun x => x.1 == ser && x.2.1 == r).map fun x => x.2.2
  let order := before.toList.filter (· != 0) ++ (List.range 192).map (· + 1)
  let h := if s.wallRoom ser then (order.find? fun h => !(s.indexUsed ser r h)).getD 0 else 0
  let s := (s.noteAssign ser r h s.ring.gen).reclassify.onHost fun x => { x with relayed := x.relayed.filter fun q => q.1 != ser }
  (s.bwSend 21 0xFFFF (mkMsg 16 [(0, 1, 4), (1, 1, r), (2, 1, h), (3, 1, s.ring.gen), (8, 8, ser)])).sendWall.admitNow

/-- A REQUEST that the other head relays is answered for the ring of the port on which that head received it, as its HELLO says; until then it
waits (R132, assumption 74). -/
def State.peerRequest (s : State) (m : Bytes) : State :=
  match s.ring.peerRequests.find? fun q => q.1 == le m 8 8 with
  | some q => s.rxRequest q.2 m
  | none => s.onRing fun x => { x with asks := (m :: x.asks.filter fun y => le y 8 8 != le m 8 8).take 1024 }

/-- A REQUEST reaches a head on a port (R132): the ring is that of the port on which a head received it. The standby keeps it for its
HELLO; on port 6 of a head pair the entry of RING_PORTMAP is ignored (R159). -/
def State.joinRequest (s : State) (port : Nat) (m : Bytes) : State :=
  if port == 6 && !(s.b F.RING_CFG_SINGLE) then s.when s.isBw fun s => s.peerRequest m
  else if !(s.ringPorts.contains port) then s
  else if s.isBw then s.rxRequest (s.portRing port) m
  else s.onRing fun x => { x with
    requests := ((le m 8 8, s.portRing port) :: x.requests.filter fun q => q.1 != le m 8 8).take 1024 }
def execRequest (port : Fin 7) (payload : Bytes) (s : State) : Host.Outcome State Fault Refusal :=
  .next (if s.isHead && s.on iLINK && s.portUp port then s.joinRequest port payload else s)

/-- ASSIGN (R132): a repetition of the index that the tile holds changes nothing. The standby, which gets it as a copy, records the
tile. -/
def State.rxAssign (s : State) (p : Bytes) : State :=
  let ex := le p 2 1 == 0
  let same := s.ring.enumerated && le p 3 1 == s.ring.gen && le p 1 1 == s.f F.RING_TILE_STATUS_RING &&
    le p 2 1 == s.f F.RING_TILE_STATUS_HOP
  if s.isTile then (if le p 8 8 == s.serial && !same then s.takeIndex (le p 1 1) (le p 2 1) (le p 3 1) ex else s)
  else if s.isHead && !s.isBw then
    (if le p 3 1 == s.ring.gen then s else s.headGen (le p 3 1)).noteAssign (le p 8 8) (le p 1 1) (le p 2 1) (le p 3 1)
  else s
def execAssign (payload : Bytes) (s : State) : Host.Outcome State Fault Refusal :=
  .next (if s.on iLINK then s.rxAssign payload else s)

/-- START is set once every enumerated tile's latest health report shows a time error within ±1 µs (R135). -/
def State.judgeStart (s : State) : State :=
  if s.isBw && !s.ring.start && !s.wallTiles.isEmpty && s.wallTiles.all (fun t => t.timeOk) then
    (((s.onRing fun r => { r with start := true }).flag F.RING_STATUS_START)).sendWall
  else s

def execWallTimer (s : State) : Host.Outcome State Fault Refusal :=
  .next (if s.isBw && s.on iLINK then s.sendWall else s)

/-- The bellwether's serial is known; on a tile, so is the side on which it lies. -/
def State.setBwSide (s : State) (ser : Nat) : State :=
  let s := (s.put64 F.RING_BW_SERIAL_LO F.RING_BW_SERIAL_HI ser).onRing fun r => { r with
    bwSerial := ser, eastHead := if r.enumEast && r.headA == 0 && r.eastHead == 0 then ser else r.eastHead }
  if s.isTile then s.flag F.RING_TILE_STATUS_BW_EAST (s.bwEast ser) else s

/-- WALL (R132, R135, R144). A tile that holds no index under its GEN is late. A head learns from the copies of it. -/
def State.rxWall (s : State) (p : Bytes) : State :=
  let fl := le p 1 1
  if s.isTile then
    let s := s.onRing fun r => { r with
      sbSerial := le p 16 8, pairSeen := r.pairSeen || le p 16 8 != 0, start := bitOf fl 2, prefer := bitOf fl 1 }
    let s := ((s.setBwSide (le p 8 8)).tileGen (le p 4 1)).put F.RING_WALL (le p 2 2)
    let s := s.onRing fun r => { r with late := !r.enumerated }
    ((s.flag F.RING_TILE_STATUS_START (bitOf fl 2)).flag F.RING_TILE_STATUS_PREFER (bitOf fl 1)).flag
      F.RING_TILE_STATUS_ENUMERATED (s.ring.enumerated && s.f F.RING_TILE_STATUS_HOP != 0)
  else if s.isHead && !s.isBw then
    let s := ((s.setBwSide (le p 8 8)).flag F.RING_STATUS_COMPACT (bitOf fl 0)).flag F.RING_STATUS_PREFER (bitOf fl 1)
    let s := (if le p 4 1 == s.ring.gen then s else s.headGen (le p 4 1)).put F.RING_WALL (le p 2 2)
    if bitOf fl 2 then (s.onRing fun r => { r with start := true }).flag F.RING_STATUS_START else s
  else s
def execWall (payload : Bytes) (s : State) : Host.Outcome State Fault Refusal :=
  .next (if s.on iLINK then s.rxWall payload else s)

/-- AUTHORITY (R121, R163). -/
def State.rxAuthority (s : State) (p : Bytes) : State := if s.isTile || !s.isBw then s.setBwSide (le p 8 8) else s
def execAuthority (payload : Bytes) (s : State) : Host.Outcome State Fault Refusal :=
  .next (if s.on iLINK then s.rxAuthority payload else s)

/-- WINDOW_RESET (R126). -/
def State.rxWindowReset (s : State) : State := if s.isTile then s.unsync fun _ => true else s
def execWindowReset (payload : Bytes) (s : State) : Host.Outcome State Fault Refusal :=
  .next (if s.on iLINK && le payload 0 1 == 5 then s.rxWindowReset else s)

/-! ### Between the heads -/

/-- Clean (R151): nothing amiss since `cleanSince`, mirroring up. -/
def State.isClean (s : State) : Bool :=
  s.b F.RING_STATUS_MIRROR_UP && !(s.b F.RING_STATUS_DIVERGED) &&
    match s.ring.cleanSince with
    | some t => decide (t + secU (s.f F.RING_TIMING_CLEAN_TIME) ≤ s.time.clock)
    | none => false

/-- HELLO of this head. -/
def State.hello (s : State) (final : List (Nat × Nat)) : Hello :=
  let wave := match s.ring.wave with
    | some (r, dir, _) => if s.isBw && (s.enumPort r dir).isNone then
        some (r, dir, (s.enumStart r dir).1, (s.enumStart r dir).2, s.ring.gen) else none
    | none => none
  ⟨s.nextTally 44, s.f F.RING_STATUS_STATE, s.prio, s.serial, s.ingest.configEpoch, s.b F.RING_STATUS_COMPACT,
    s.isClean, s.ring.live, s.ring.incarnation, s.ring.start, s.ring.verdict, final, wave, s.ring.requests⟩

/-- HELLO goes on port 6 while it is up, and always on every ring of which both heads are ends (R122). -/
def State.helloPorts (s : State) : List Nat :=
  (if s.portUp 6 && !(s.b F.RING_CFG_SINGLE) then [6] else []) ++ s.pairPorts

/-- Send a HELLO on each path, under one tally of stream 44 (R123); it is a cell of an encrypted link like any other (R154). -/
def State.sendHello (s : State) (final : List (Nat × Nat)) : State :=
  let h := s.hello final
  (s.each s.helloPorts fun s p => (s.emit (.hello p h)).countSent p).bumpTally 44

/-- HELLO_TIMER (R137): every 10 µs. -/
def execHelloTimer (s : State) : Host.Outcome State Fault Refusal :=
  .next (if s.isHead && s.on iLINK then s.sendHello [] else s)

/-- The first head wins the order of R136. -/
def headWins (prio serial prio' serial' : Nat) : Bool := decide (prio < prio') || (prio == prio' && decide (serial < serial'))

/-- ELECTION_TIMEOUT (R136): no HELLO within 200 ms of the first port reaching UP. -/
def execElectionTimeout (s : State) : Host.Outcome State Fault Refusal :=
  let waited := match s.ring.firstUp with
    | some t => decide (t + 200000000 < s.time.aon)
    | none => false
  .next (if s.isHead && s.pwr.up && s.f F.RING_STATUS_STATE == hsElecting && s.ring.peer.isNone && waited then s.elected else s)

/-- COPY_ACK_RX (R138): the cell goes out on the rings; each cell waits for the acknowledgement of its own copy. -/
def execCopyAckRx (tally : Nat) (s : State) : Host.Outcome State Fault Refusal :=
  .next (if !s.isBw then s
    else
      let due := s.ring.copies.filter fun c => cTally c.2 == tally % 2 ^ 32
      (s.onRing fun r => { r with copies := r.copies.filter fun c => cTally c.2 != tally % 2 ^ 32 }).each due
        fun s c => s.sendRings c.2)

/-- COPY_ACK_TIMEOUT (R138): 20 µs without the acknowledgement. -/
def execCopyAckTimeout (s : State) : Host.Outcome State Fault Refusal :=
  .next (match s.ring.copies with
    | [] => s
    | c :: rest => if s.time.aon ≤ c.1 + 20000 then s
      else ((s.onRing fun r => { r with copies := rest }).sendRings c.2).inc F.RING_COPY_LATE)

/-- Wall frame `n` has been followed in RESYNC (R150): it counts and is over, every digest of this head for it has been sent, and every one of
either head over some cell has been found equal. A stream without cells in that frame has nothing to compare (R141). -/
def State.resyncFrame (s : State) (n : Nat) : Bool :=
  let r := s.ring
  decide (0 < seqDiff 32 s.wf32 n) && (r.resyncSince.any fun k => decide (0 ≤ seqDiff 32 n k)) && !(r.sent.any fun d => d.frame == n) &&
    (r.ownDigests ++ r.peerDigests).all fun d => d.frame != n || d.count == 0 || r.resyncSeen.contains (n, d.stream)

/-- Three consecutive wall frames have been followed in RESYNC, every stream equal (R150), as the digests kept of the latest frames show. -/
def State.resyncFollowed (s : State) : Bool :=
  (List.range 8).any fun k => (List.range 3).all fun j => s.resyncFrame ((s.wf32 + 2 ^ 32 - 1 - k - j) % 2 ^ 32)

/-- One comparison in RESYNC (R150): an unequal one starts the count of frames again, behind its own. -/
def Ring.resyncCompare (r : Ring) (frame stream : Nat) (equal : Bool) : Ring :=
  if !equal then { r with resyncSeen := [], resyncSince := r.resyncSince.map fun _ => (frame + 1) % 2 ^ 32 }
  else { r with resyncSeen := ((frame, stream) :: r.resyncSeen.filter fun q => q != (frame, stream)).take 256 }

/-- Every diverged stream has 3 consecutive equal comparisons (R144); after a divergence that health reports declared, any one
stream. -/
def Ring.reconciled (r : Ring) : Bool :=
  let run := fun s => decide (3 ≤ ((r.equalRuns.find? fun q => q.1 == s).map (·.2)).getD 0)
  if r.diverged.isEmpty then r.equalRuns.any (fun q => decide (3 ≤ q.2)) else r.diverged.all run

/-- DIVERGED clears; the bellwether clears PREFER at the same moment (R144). -/
def State.endDivergence (s : State) : State :=
  let s := ((s.flag F.RING_STATUS_DIVERGED false).onRing fun r => { r with diverged := [], equalRuns := [], verdict := none }).lapse
  if s.isBw then (s.flag F.RING_STATUS_PREFER false).sendWall else s

/-- One comparison of two digest entries (R141, R142, R144). -/
def State.compareDigest (s : State) (a b : Digest) : State :=
  let within := decide (a.at_ ≤ b.at_ + msU 1) && decide (b.at_ ≤ a.at_ + msU 1)
  if !within || a.count == 0 || b.count == 0 || a.filled || b.filled then s
  else
    let peerResync := match s.ring.peer with
      | some h => h.state == hsResync
      | none => false
    let equal := a.sum == b.sum && a.count == b.count
    if s.f F.RING_STATUS_STATE == hsResync then
      s.onRing fun r => r.resyncCompare a.frame a.stream equal
    else if peerResync then s
    else if equal then
      let s := s.onRing fun r => { r with
        misruns := r.misruns.filter (fun p => p.1 != a.stream)
        equalRuns := (a.stream, ((r.equalRuns.find? fun q => q.1 == a.stream).map (·.2)).getD 0 + 1) ::
          r.equalRuns.filter (fun q => q.1 != a.stream) }
      if s.b F.RING_STATUS_DIVERGED && s.ring.reconciled then s.endDivergence else s
    else
      let ns := a.frame :: ((s.ring.misruns.find? fun p => p.1 == a.stream).map (·.2)).getD []
      let s := (s.inc F.RING_DIGEST_MISMATCH).lapse.onRing fun r => { r with
        misruns := (a.stream, ns) :: r.misruns.filter (fun p => p.1 != a.stream)
        equalRuns := r.equalRuns.filter (fun q => q.1 != a.stream) }
      if ns.length == 3 then s.diverge [a.stream] ns else s

/-- A digest entry of this head is sent, kept, and compared with the other head's if that has come (R141). -/
def State.sendDigest (s : State) (d : Digest) : State :=
  let s := s.onRing fun r => { r with
    sent := r.sent.filter (fun x => !(x.stream == d.stream && x.frame == d.frame)), ownDigests := (d :: r.ownDigests).take 256 }
  let s := s.headSend 42 (mkMsg 24 [(0, 1, d.stream), (1, 1, b2n d.filled), (4, 4, d.frame), (8, 4, d.count), (16, 8, d.sum)])
  match s.ring.peerDigests.find? fun b => b.stream == d.stream && b.frame == d.frame with
  | some b => s.compareDigest d b
  | none => s

/-- DIGEST_SEND (R141): for a stream and frame without cells an entry that counts none; stream 17 has no digest. -/
def execDigestSend (stream : Fin 22) (frame : Nat) (s : State) : Host.Outcome State Fault Refusal :=
  .next (if !s.isHead || stream.val == 17 then s
    else match s.ring.sent.find? fun d => d.stream == stream.val && d.frame == frame with
      | some d => s.sendDigest (d.digest s.time.clock)
      | none => if s.ring.ownDigests.any fun d => d.stream == stream.val && d.frame == frame then s
        else s.sendDigest (({ stream := stream.val, frame := frame } : SentCells).digest s.time.clock))

/-- DIGEST_RX (R141). -/
def State.rxDigest (s : State) (entry : Bytes) : State :=
  let b : Digest := ⟨le entry 0 1, le entry 4 4, bitOf (le entry 1 1) 0, le entry 8 4, le entry 16 8, s.time.clock⟩
  let s := s.onRing fun r => { r with peerDigests := (b :: r.peerDigests).take 256 }
  match s.ring.ownDigests.find? fun d => d.stream == b.stream && d.frame == b.frame with
  | some a => s.compareDigest a b
  | none => s
def execDigestRx (entry : Bytes) (s : State) : Host.Outcome State Fault Refusal :=
  .next (if s.isHead && s.pwr.up then s.rxDigest entry else s)

/-- DEMOTED_RECOVER (R148): no self-test fault within the last 1 s (R563). -/
def execDemotedRecover (s : State) : Host.Outcome State Fault Refusal :=
  let quiet := match s.bist.lastFault with
    | some t => decide (t + secU 1 < s.time.clock)
    | none => true
  .next (if s.isHead && s.f F.RING_STATUS_STATE == hsDemoted && quiet then s.setHead hsResync else s)

/-- RESYNC_COMPLETE (R150): the classification in force now decides the return (R26). A head whose clip store differs from the
bellwether's stays in RESYNC (R438). -/
def execResyncComplete (s : State) : Host.Outcome State Fault Refusal :=
  .next (if s.isHead && s.f F.RING_STATUS_STATE == hsResync && s.portUp 6 && decide (3 ≤ s.ring.resyncPhase) &&
      s.resyncFollowed && !s.time.needStep && decide (s.f F.TIME_ERR ≤ 100000) && !(s.b F.MEM_STATUS_PEER_MISMATCH) then
    (s.setHead hsStandby).onRing fun r => { r with
      resyncPhase := 0, resyncSeen := [], resyncSince := none, returned := true
      cleanSince := some s.time.clock, returnCompact := s.b F.RING_STATUS_COMPACT }
  else s)

/-- The return rule calls for handback (R150): by the classification when RESYNC completed, or by RETURN. -/
def State.returnByHandback (s : State) : Bool :=
  match s.f F.RING_CFG_RETURN with
  | 1 => false
  | 2 => true
  | _ => !s.ring.returnCompact

/-- HANDBACK_CLEAN_ELAPSED (R151), seen on either head: only a head that has completed RESYNC returns, not one that became STANDBY by a
handback of its own. -/
def execHandbackCleanElapsed (s : State) : Host.Outcome State Fault Refusal :=
  .next (match s.ring.peer with
    | some h =>
      let returning := if s.isBw then headWins h.prio h.serial s.prio s.serial else headWins s.prio s.serial h.prio h.serial
      let clean := if s.isBw then h.clean && h.state == hsStandby else s.isClean && s.f F.RING_STATUS_STATE == hsStandby
      if s.isHead && s.ring.returned && returning && clean && s.returnByHandback then
        (s.flag F.RING_STATUS_HANDBACK_PENDING).onRing fun r => { r with handbackDue := true }
      else s
    | none => s)

/-- RING_HANDOVER (R151, R160). -/
def State.handover (s : State) : State :=
  match s.ring.peer with
  | some h => if s.isBw && h.state == hsStandby && h.clean then
      (s.flag F.RING_STATUS_HANDBACK_PENDING).onRing fun r => { r with handbackDue := true }
    else s
  | none => s
def execRingHandover (s : State) : Host.Outcome State Fault Refusal := .next (if s.pwr.up then s.handover else s)

/-- The bellwether's half of a handback: HANDOVER with the final tallies, then STANDBY (R151). -/
def State.handbackNow (s : State) : State :=
  let final := ((List.range 17) ++ [18, 19, 20, 21]).map fun k => (k, (s.nextTally k + 2 ^ 32 - 1) % 2 ^ 32)
  (s.setHead hsStandby).sendHello final

/-- RING_CLEAR (R160). -/
def State.ringClear (s : State) : State :=
  s.each [F.RING_CRC_BAD, F.RING_HDR_BAD, F.RING_DUP, F.RING_STALE, F.RING_TALLY_JUMP, F.RING_GAP_LOST,
    F.RING_COPY_MISMATCH, F.RING_AUTH_FAIL, F.RING_FILL_REPLACED, F.RING_DIGEST_MISMATCH, F.RING_DIVERGENCES,
    F.RING_TAKEOVERS, F.RING_MIRROR_DOWN, F.RING_COPY_LATE] fun s f => s.put f 0
def execRingClear (s : State) : Host.Outcome State Fault Refusal := .next (if s.pwr.up then s.ringClear else s)

end Sys2Proof.Machine
end

