-- ==== Sys2Proof/Machine/Mem.lean ====
section
/-! DEFINITION. Frame memory (spec/13_frame_memory.md): regions, errors, scrubbing, grants, and the clip directory (R51 to
R53) and stored frames (R52) that live in it. -/
set_option Elab.async false
namespace Sys2Proof.Machine

def gib (n : Nat) : Nat := n * 2 ^ 30
/-- Node capacity in bytes (R429). -/
def State.capacity (s : State) : Nat := gib (s.f F.MEM_CFG_CAPACITY)
/-- Size of the layer region. -/
def State.layerSize (s : State) : Nat :=
  if s.isTile then s.capacity - 0x50000000 else gib (s.f F.MEM_REGION_LAYER_GIB_NOW)
/-- Base and size of the clip store. -/
def State.clipBase (s : State) : Nat := 0x40000000 + gib (s.f F.MEM_REGION_LAYER_GIB_NOW)
def State.clipSize (s : State) : Nat := s.capacity - s.clipBase

/-! ### Errors (R431) -/

/-- A word of the range holds an uncorrectable error (R430, R431). -/
def State.memBad (s : State) (a n : Nat) : Bool :=
  s.mst.bad.any fun g => decide (a < g + 8) && decide (g < a + n)

/-- Channel of an address (R429). -/
def State.memChannel (s : State) (a : Nat) : Nat := a / 256 % max 1 (s.f F.MEM_CFG_CHANNELS)
/-- Rank of an address (R429). -/
def State.memRank (s : State) (a : Nat) : Nat :=
  let c := max 1 (s.f F.MEM_CFG_CHANNELS)
  let off := a / (256 * c) * 256 + a % 256
  if s.f F.MEM_CFG_RANKS == 1 && decide (s.capacity / (2 * c) ≤ off) then 1 else 0

/-- Write the error log (R456). -/
def State.memLog (s : State) (a : Nat) (unc : Bool) (word cls : Nat) : State :=
  let s := (s.put F.MEM_ERR_INFO_CHANNEL (s.memChannel a)).put F.MEM_ERR_INFO_RANK (s.memRank a)
  let s := (s.put F.MEM_ERR_INFO_WORD word).flag F.MEM_ERR_INFO_KIND unc
  let s := (s.put F.MEM_ERR_INFO_CLASS cls).flag F.MEM_ERR_INFO_VALID
  (s.put F.MEM_ERR_ADDR_LO (a / 64)).put F.MEM_ERR_ADDR_HI (a / 2 ^ 32)

/-- A read meets an error (R431): counts, status, HEALTH cause, the log, and the write-back of a corrected granule. -/
def State.memError (s : State) (a : Nat) (unc : Bool) (word cls : Nat) : State :=
  let log := !(s.b F.MEM_ERR_INFO_VALID) || (unc && !(s.b F.MEM_ERR_INFO_KIND))
  let s := if log then s.memLog a unc word cls else s
  let g := a / 64 * 64
  if unc then
    let s := ((s.inc F.MEM_UE).inc F.MEM_CHn_UE (s.memChannel a)).flag F.MEM_STATUS_UE
    ((s.irqAll F.CTXn_IRQ_CAUSE_HEALTH).noteFault.onBist fun b => { b with lastUe := some s.time.clock }).onMst fun m => { m with bad := (g + 8 * (word % 8)) :: m.bad.filter (· != g + 8 * (word % 8)) }
  else
    let s := ((s.inc F.MEM_CE).inc F.MEM_CHn_CE (s.memChannel a)).flag F.MEM_STATUS_CE
    s.onMst fun m => { m with back := (g + 8 * (word % 8)) :: m.back.filter (· / 64 != a / 64) }

/-- The granules of a range in which a read finds an error: an uncorrectable word, or a correctable error that has not been written back yet;
each with its word. -/
def State.memFaults (s : State) (a n : Nat) : List (Nat × Bool × Nat) :=
  let meets := fun (g : Nat) => decide (a < g / 64 * 64 + 64) && decide (g / 64 * 64 < a + n)
  let unc := (s.mst.bad.filter meets).foldl (fun x g => if x.any fun y => y.1 == g / 64 then x else x ++ [(g / 64, true, g % 64 / 8)]) []
  unc ++ (s.mst.back.filter fun g => meets g && !(unc.any fun y => y.1 == g / 64)).map fun g => (g / 64, false, g % 64 / 8)

/-- A read of a range by a class, granule by granule: the errors in it are counted and logged (R430, R431). -/
def State.memTouch (s : State) (a n cls : Nat) : State :=
  s.each (s.memFaults a n) fun s g => s.memError (64 * g.1) g.2.1 g.2.2 cls

/-- The granule of an address that is no word's is read (R430). -/
def State.mergeRead (s : State) (a cls : Nat) : State := s.when (a % 8 != 0) fun s => s.memTouch a 1 cls

/-- Write bytes by a class: a granule of which a word is written in part is read first, and merged (R430). An uncorrectable word that is
not written whole stays one (DEDUCED, assumption 15). -/
def State.memMerge (s : State) (a : Nat) (b : Bytes) (cls : Nat) : State :=
  if b.isEmpty then s
  else
    let s := s.mergeRead a cls
    (s.when (a % 8 == 0 || a / 64 != (a + b.length) / 64) fun s => s.mergeRead (a + b.length) cls).memWrite a b

/-! ### Scrubbing (R432 to R435) -/

/-- Scrub period in ns. -/
def State.scrubPeriod (s : State) : Nat := s.f F.MEM_SCRUB * 3600 * 1000000000
def State.scrubPos (s : State) : Nat := s.f F.MEM_SCRUB_POS_LO * 64 + s.f F.MEM_SCRUB_POS_HI * 2 ^ 32
def State.setScrubPos (s : State) (a : Nat) : State :=
  (s.put F.MEM_SCRUB_POS_LO (a / 64)).put F.MEM_SCRUB_POS_HI (a / 2 ^ 32)

/-- Judge SCRUB_BEHIND against the uniform schedule (R433). -/
def State.judgeScrub (s : State) : State :=
  let due := s.mst.scrubAt + s.scrubPos * s.scrubPeriod / max 64 s.capacity
  let lag := s.time.aon - due
  if decide (s.scrubPeriod < 64 * lag) then s.flag F.MEM_STATUS_SCRUB_BEHIND
  else if decide (256 * lag ≤ s.scrubPeriod) then s.flag F.MEM_STATUS_SCRUB_BEHIND false
  else s

/-- The uniform schedule starts at the present position (DESIGN CHOICE, assumption 94). -/
def State.rebaseScrub (s : State) : State :=
  s.onMst fun m => { m with scrubAt := s.time.aon - s.scrubPos * s.scrubPeriod / max 64 s.capacity }

/-- SCRUB_EN or the period has been written, memory has been trained, or the MEM island has restarted: the scrubber is on its
schedule again. -/
def State.scrubAnew (s : State) : State := s.rebaseScrub.judgeScrub

/-- Move the scrubber on by one granule. -/
def State.scrubNext (s : State) : State :=
  if decide (s.capacity ≤ s.scrubPos + 64) then
    ((s.setScrubPos 0).inc F.MEM_SCRUB_PASSES).onMst fun m => { m with scrubAt := m.scrubAt + s.scrubPeriod }
  else s.setScrubPos (s.scrubPos + 64)

/-- SCRUB_READ (R432): `err` is what the code finds in the granule: uncorrectable or not, and the word. -/
def execScrubRead (err : Option (Bool × Nat)) (s : State) : Host.Outcome State Fault Refusal :=
  .next (if s.on iMEM && s.b F.MEM_CTL_SCRUB_EN && s.b F.MEM_STATUS_TRAINED then
    let a := s.scrubPos
    let s := match err with
      | some e => if e.1 || !(s.memBad a 64) then s.memError a e.1 e.2 7 else s.memTouch a 64 7
      | none => s.memTouch a 64 7
    s.scrubNext.judgeScrub
  else s)

/-- CORRECTED_WRITEBACK (R435): the data of the granule is as before; a granule that another write has reached waits no
more, and the write-back is abandoned. -/
def execCorrectedWriteback (granule : Nat) (s : State) : Host.Outcome State Fault Refusal :=
  .next (if s.on iMEM then s.onMst fun m => { m with back := m.back.filter (· / 64 != granule / 64) } else s)

/-! ### Grants (R442 to R445) -/

/-- The floor of a class per window (Table 13-4). -/
def memFloor (c : Nat) : Nat := nth [0, 0, 0, 0, 0, 16, 8, 1] c 0

/-- The class of a request once a younger request to the same granule has raised it (R445). -/
def MemReq.effective (r : MemReq) (younger : List MemReq) : Nat :=
  younger.foldl (fun c y => if y.granule == r.granule then min c y.cls else c) r.cls

/-- Requests, oldest first, with their current classes. -/
def memClasses : List MemReq → List (Nat × MemReq)
  | [] => []
  | r :: rs => (r.effective rs, r) :: memClasses rs

/-- The class granted next: strict priority, but for floors that the rest of the window is needed for (R442). -/
def memPick (ch : MemCh) (rs : List (Nat × MemReq)) : Option Nat :=
  let pend := (List.range 8).filter fun c => rs.any fun r => r.1 == c
  let owes := fun c => memFloor c - nth ch.given (c - 1) 0
  let owed := pend.foldl (fun a c => a + owes c) 0
  if decide (1024 - ch.grants ≤ owed) then pend.find? fun c => decide (0 < owes c) else pend.head?

/-- MEM_GRANT (R442): the channel grants the oldest request of the chosen class. Requests of the scrub class use the journal class while
the scrubber is behind (R433, Table 13-4). -/
def execMemGrant (ch : Fin 8) (reqs : List MemReq) (s : State) : Host.Outcome State Fault Refusal :=
  let reqs := if s.b F.MEM_STATUS_SCRUB_BEHIND then reqs.map fun r => if r.cls == 7 then { r with cls := 5 } else r else reqs
  let rs := (memClasses reqs).filter fun r => decide (1 ≤ r.1 ∧ r.1 ≤ 7)
  let m := nth s.mst.chans ch.val {}
  .next (if !(s.on iMEM) then s
    else match memPick m rs with
    | none => s
    | some c => match rs.find? fun r => r.1 == c with
      | none => s
      | some r =>
        let s := s.inc F.MEM_CLASSc_GRANTS (c - 1)
        let s := s.put F.MEM_CLASSc_WAIT_MAX (max (s.f F.MEM_CLASSc_WAIT_MAX (c - 1)) (min r.2.wait (2 ^ 32 - 1))) (c - 1)
        s.onMst fun x => { x with chans := modAt x.chans ch.val fun y =>
          if y.grants + 1 == 1024 then { y with grants := 0, given := [0, 0, 0, 0, 0, 0, 0] }
          else { y with grants := y.grants + 1, given := modAt y.given (c - 1) (· + 1) } })

/-- REFRESH_DUE (R450). -/
def execRefreshDue (ch : Fin 8) (s : State) : Host.Outcome State Fault Refusal :=
  .next (if s.on iMEM then
    s.onMst fun x => { x with chans := modAt x.chans ch.val fun y => { y with refreshes := y.refreshes + 1 } }
  else s)

/-- MEM_TRACK_TIMER (R449): one tracking step and one calibration step. -/
def execMemTrackTimer (ch : Fin 8) (s : State) : Host.Outcome State Fault Refusal :=
  .next (if s.on iMEM && s.b F.MEM_CHn_STATUS_TRAINED ch.val then s.add F.MEM_CHn_TRACK 2 ch.val else s)

/-- CLEAR of MEM_CTL (R453). -/
def State.memClear (s : State) : State :=
  let s := ((s.zero F.MEM_CE).zero F.MEM_UE).zero F.MEM_SCRUB_PASSES
  let s := s.each (List.range 7) fun s c => (s.zero F.MEM_CLASSc_GRANTS c).zero F.MEM_CLASSc_WAIT_MAX c
  s.each (List.range 8) fun s c => ((s.zero F.MEM_CHn_CE c).zero F.MEM_CHn_UE c).zero F.MEM_CHn_TRACK c
def execMemClear (s : State) : Host.Outcome State Fault Refusal := .next (if s.on iMEM then s.memClear else s)

/-- LOG_REARM of MEM_CTL (R453). -/
def State.logRearm (s : State) : State :=
  ((s.zero F.MEM_ERR_INFO_VALID).zero F.MEM_ERR_ADDR_LO).zero F.MEM_ERR_ADDR_HI
def execLogRearm (s : State) : Host.Outcome State Fault Refusal := .next (if s.on iMEM then s.logRearm else s)

/-! ### The clip store (R51 to R53, R440) -/

/-- The fields of a directory entry. -/
def clipEnt (b : Bytes) : ClipEnt :=
  ⟨le b 1 1, le b 2 4, le b 6 2, le b 8 2, le b 10 2, le b 12 4, le b 16 8, le b 24 8⟩

/-- The entry's complement and VALID byte hold. -/
def clipSound (b : Bytes) : Bool := b.drop 32 == complement (b.take 32) && le b 0 1 == 1

/-- The complement of a clip's directory entry does not match, or a word of it cannot be read (R51, Table 13-2). -/
def State.clipBroken (s : State) (id : Nat) : Bool :=
  let a := s.clipBase + 64 * id
  let b := s.memRead a 64
  decide (id < 4096) && (b.drop 32 != complement (b.take 32) || s.memBad a 64)

/-- The health report counts a directory entry that a use has found invalid by its complement (R51); an error of memory in it is met by the
read (R431). -/
def State.clipReport (s : State) (id : Nat) : State :=
  (s.memTouch (s.clipBase + 64 * id) 64 3).onIngest fun g => { g with clipBad := g.clipBad + 1 }

/-- The valid directory entry of a clip. -/
def State.clip (s : State) (id : Nat) : Option ClipEnt :=
  let a := s.clipBase + 64 * id
  let b := s.memRead a 64
  if decide (id < 4096) && clipSound b && !(s.memBad a 64) then some (clipEnt b) else none

/-- Rate, alignment, and frames within the clip store and past the directory (R51, R52). -/
def ClipEnt.ok (e : ClipEnt) (size : Nat) : Bool :=
  let fs := storedSize e.fmt e.width e.height
  fmtOk e.fmt && sizeOk e.fmt e.width e.height && decide (e.num ≤ 240000) && (e.den == 1000 || e.den == 1001) &&
    (rateTable.any fun r => e.num * r.2 == e.den * r.1) && decide (1 ≤ e.count) && e.base % 4096 == 0 &&
    e.stride % 4096 == 0 && decide (fs ≤ e.stride ∨ e.count = 1) && decide (4096 * 64 ≤ e.base) &&
    decide (e.base + (e.count - 1) * e.stride + fs ≤ size)

/-- A range meets a frame of the clip. -/
def ClipEnt.meets (e : ClipEnt) (a n : Nat) : Bool :=
  let fs := storedSize e.fmt e.width e.height
  let k := (a - e.base) / max 1 e.stride
  [k, k + 1].any fun j => decide (j < e.count) && decide (a < e.base + j * e.stride + fs) && decide (e.base + j * e.stride < a + n)

/-- Frames of two clips overlap. -/
def ClipEnt.overlaps (e d : ClipEnt) : Bool :=
  let fs := storedSize e.fmt e.width e.height
  (List.range e.count).any fun i => d.meets (e.base + i * e.stride) fs

/-- A directory write of entry `id` keeps R52: an entry not marked valid always may be written. -/
def State.dirWriteOk (s : State) (id : Nat) (b : Bytes) : Bool :=
  !(clipSound b) || ((clipEnt b).ok s.clipSize &&
    (List.range 4096).all fun j => j == id || (match s.clip j with
      | some d => !((clipEnt b).overlaps d) && !(d.overlaps (clipEnt b))
      | none => true))

/-- The plane lines of a stored frame (R52). -/
def State.storedFrame (s : State) (base f w h : Nat) : List PLine :=
  (lineOrder f h).map fun q =>
    let a := base + storedOffset f w h q.1 q.2
    let n := planeBytes f w q.2
    let bad := (List.range (ceilDiv n 480)).flatMap fun k =>
      (s.mst.bad.filter fun g => decide (a + 480 * k < g + 8) && decide (g < a + min n (480 * (k + 1)))).map fun g => (k, g)
    { line := q.1, plane := q.2, data := s.memRead a n, bad := bad }

/-- A still buffer in a format lies within the clip store (R440). -/
def State.stillOk (s : State) (addr f w h : Nat) : Bool :=
  decide (s.clipBase ≤ addr) && decide (addr + storedSize f w h ≤ s.clipBase + s.clipSize)

end Sys2Proof.Machine
end

