-- ==== Sys2Proof/Machine/HostOps.lean ====
section
/-! DEFINITION. Transports, completions, the journal and tickets (spec/12_hosts_and_tickets.md): the operations that host
commands and the functions they start share. -/
set_option Elab.async false
namespace Sys2Proof.Machine

/-! ### The check of records (R411) -/

/-- The words of a range have been written again. -/
def State.memHeal (s : State) (a n : Nat) : State :=
  s.onMst fun m => { m with bad := m.bad.filter fun g => !(decide (a < g + 8) && decide (g < a + n)) }

/-- The places of a record and of its payload in frame memory (R410, Table 13-3), as (base, length). -/
def JRec.spans (r : JRec) : List (Nat × Nat) :=
  (if r.peer then 0x14000000 else 0) + 512 * (r.slot + 1) |> fun a =>
    (a, 512) :: if r.payload.isEmpty || r.st == 3 then [] else
      [((if r.peer then 0x18000000 else 0x4000000) + 65536 * r.unit, r.payload.length)]

/-- The record, or its payload with it, fails its check (R411, Table 13-2). -/
def State.recBad (s : State) (r : JRec) : Bool := r.spans.any fun a => s.memBad a.1 a.2

/-- The error of a record is met by its reader, and its place is written again. -/
def State.recErr (s : State) (r : JRec) : State := s.each r.spans fun s a => (s.memTouch a.1 a.2 5).memHeal a.1 a.2

/-- A request to the other head for a record of its own (kind 4; R431, Table 13-2). -/
def recAskMsg (c ticket : Nat) : Bytes := mkMsg 8 [(0, 1, 4), (1, 1, c), (4, 4, ticket)]

/-- A new journal epoch (R412): every context sees EPOCH, ticket numbers start again at 1 (R407). -/
def State.newEpoch (s : State) : State :=
  let e := Config.random s.fresh % (2 ^ 32 - 1) + 1
  let e := if e == s.host.lastEpoch then e % (2 ^ 32 - 1) + 1 else e
  let s := s.tickFresh.onHost fun h => { h with epoch := e, lastEpoch := e, journal := [] }
  (s.each (List.range 8) fun s c =>
    (((s.put F.CTXn_EPOCH e c).setNext c 1).put F.CTXn_INFLIGHT 0 c).irq F.CTXn_IRQ_CAUSE_EPOCH c).journalRegs.when s.ring.mirrorUp
      State.sendEpoch

/-- A record is used (R411): one that fails its check is restored from the other head's copy while mirroring holds one, with the JOURNAL
fault of its context; with no copy a new epoch starts. -/
def State.useRec (s : State) (r : JRec) : State :=
  if !(s.recBad r) then s
  else if s.ring.mirrorUp then (s.recErr r).ctxFault F.CTXn_FAULT_JOURNAL r.ctx
  else (s.recErr r).newEpoch

/-- A record of the other head is used: one that fails its check is discarded and asked for again on stream 41 (Table 13-2). -/
def State.usePeerRec (s : State) (r : JRec) : State :=
  if !(s.recBad r) then s
  else
    (((s.recErr r).onHost fun h => { h with
      peerJournal := h.peerJournal.filter fun x => !(x.ctx == r.ctx && x.ticket == r.ticket && x.epoch == r.epoch) }).journalRegs).headSend 41
        (recAskMsg r.ctx r.ticket)

/-- The record of a ticket is used. -/
def State.useJrec (s : State) (c ticket : Nat) : State :=
  match s.jrec c ticket with
  | some r => if c < 8 then s.useRec r else s.usePeerRec r
  | none => s

/-- Free a record once its DONE entry has been consumed (R410); the mark goes to the other head first (R413). -/
def State.freeRec (s : State) (c ticket : Nat) : State :=
  let s := (s.useJrec c ticket).onRec c ticket fun r => { r with consumed := true }
  (s.onHost fun h => { h with
    journal := h.journal.filter fun r => !(r.ctx == c && r.ticket == ticket && r.epoch == h.epoch) }).journalRegs

/-! ### Completions (R401, R402) -/

/-- The completion ring has a free entry: at most 8,191 are left unconsumed. -/
def State.cqFree (s : State) (c : Nat) : Bool := (s.f F.CTXn_CQ_TAIL c + 1) % 8192 != s.f F.CTXn_CQ_HEAD c

/-- The causes that a written entry raises (R425): RELAYED, or COMPLETION for a REJECTED entry and for a DONE or ANSWER entry with IRQ. -/
def State.complIrq (s : State) (c : Nat) (k : Compl) : State :=
  let kind := le k.entry 4 1
  if bitOf (le k.entry 5 1) 1 then s.irq F.CTXn_IRQ_CAUSE_RELAYED c
  else s.when (kind == 2 || ((kind == 3 || kind == 4) && k.irq)) fun s => s.irq F.CTXn_IRQ_CAUSE_COMPLETION c

/-- Write a completion entry at CQ_TAIL and carry it over the context's transport: a CQ_DATA datagram, or a REPLY. -/
def State.writeCq (s : State) (c : Nat) (k : Compl) : State :=
  let t := s.f F.CTXn_CQ_TAIL c
  let ph := s.f F.CTXn_STATUS_PHASE c
  let e := Sys2Proof.Machine.put k.entry 5 1 (le k.entry 5 1 / 2 * 2 + ph)
  let s := s.onCtx c fun x => { x with cq := (t, e) :: x.cq.filter fun p => p.1 != t }
  let s := s.put F.CTXn_CQ_TAIL ((t + 1) % 8192) c
  let s := if t == 8191 then s.put F.CTXn_STATUS_PHASE (1 - ph) c else s
  let kind := le e 4 1
  let relayed := bitOf (le e 5 1) 1
  let s := if relayed then s
    else if kind == 1 then s.onRec c (le e 0 4) fun r => { r with accWritten := true }
    else if kind == 3 then s.onRec c (le e 0 4) fun r => { r with doneWritten := true }
    else s
  let s := match s.f F.CTXn_BIND_TRANSPORT c with
    | 2 => s.when s.mgmtOn fun s =>
        s.emit (.dgram (s.ctx c).source (s.ctx c).sourcePort (mkMsg 4 [(0, 1, 3), (1, 1, c), (2, 2, t)] ++ e ++ k.answer))
    | 3 => s.reply c (some t) k.originTicket k.originCtx e k.answer
    | _ => s
  s.complIrq c k

/-- Complete: at CQ_TAIL, or held in order while the ring is full (R402). -/
def State.complete (s : State) (c : Nat) (k : Compl) : State :=
  if s.cqFree c && (s.ctx c).held.isEmpty then s.writeCq c k
  else ((s.flag F.CTXn_STATUS_CQ_FULL true c).judgeBounds c).onCtx c fun x => { x with held := x.held ++ [k] }

/-- Write held completions into entries that have become free (R402); at most `n`, one of them to find that none is left. -/
def State.flushItems : Nat → State → Nat → State
  | 0, s, _ => s
  | n + 1, s, c =>
    match (s.ctx c).held with
    | [] => (s.flag F.CTXn_STATUS_CQ_FULL false c).judgeBounds c
    | h :: rest =>
      if s.cqFree c then State.flushItems n ((s.onCtx c fun x => { x with held := rest }).writeCq c h) c
      else s

/-- Write the held completions for which there are free entries. -/
def State.flushCq (s : State) (c : Nat) : State := s.flushItems ((s.ctx c).held.length + 1) c

/-- The node clock as a completion's TIME. -/
def State.cqTime (s : State) : Nat := s.nowNs % 2 ^ 64

/-- An answer of context `c` ends the span of R405, begun at `startAt` and bounded in µs: a late one is counted, and the next span
starts. -/
def State.answered (s : State) (c bound : Nat) : State :=
  let s := if (s.ctx c).startAt + 1000 * bound < s.hostTime c then s.inc F.CTXn_LATE c else s
  s.onCtx c fun x => { x with startAt := s.hostTime c }

/-- Take the entry at SQ_HEAD off the command ring. -/
def State.takeSq (s : State) (c : Nat) : State :=
  let h := s.f F.CTXn_SQ_HEAD c
  (s.onCtx c fun x => { x with sq := x.sq.filter fun p => p.1 != h }).put F.CTXn_SQ_HEAD ((h + 1) % 4096) c

/-- The queries among the commands of Table 12-4. -/
def isQuery (op : Nat) : Bool := decide (0x40 ≤ op)

/-- The bound of R405 on the answer to an entry, µs. -/
def answerBound (e : Bytes) : Nat := if isQuery (eOp e) then 500 else 200

/-- Reject an entry with a code of Table 12-6 or 6-3: counted, no other effect. -/
def State.reject (s : State) (c : Nat) (e : Bytes) (code ot oc : Nat) : State :=
  let idx := s.f F.CTXn_SQ_HEAD c
  let s := ((s.takeSq c).answered c (answerBound e)).inc F.CTXn_REJECTED c
  s.complete c ⟨completion 0 2 0 idx code (eOp e) (eCookie e) s.host.epoch s.cqTime [], ot, oc, [], eIrq e⟩

/-- Answer a query (R403). -/
def State.answer (s : State) (c : Nat) (e : Bytes) (result ot oc : Nat) (data ans : Bytes) : State :=
  let idx := s.f F.CTXn_SQ_HEAD c
  let s := (s.takeSq c).answered c (answerBound e)
  s.complete c ⟨completion 0 4 0 idx result (eOp e) (eCookie e) s.host.epoch s.cqTime data, ot, oc, ans, eIrq e⟩

/-- A ticket reaches its hand-off (R408). -/
def State.handOff (s : State) (c ticket : Nat) : State := s.onRec c ticket fun r => { r with handoff := true }

/-- A ticket is DONE with a result and data (R408). -/
def State.finish (s : State) (c ticket result : Nat) (data : Bytes) : State :=
  let s := s.useJrec c ticket
  match s.jrec c ticket with
  | none => s
  | some r =>
    if r.st == 3 then s
    else
      let s := s.onRec c ticket fun r => { r with st := 3, result := result, data := data, doneTime := s.time.clock, handoff := true }
      if 8 ≤ c then s else
      let s := s.put F.CTXn_INFLIGHT (s.f F.CTXn_INFLIGHT c - 1) c
      s.complete c ⟨completion ticket 3 0 r.sqIndex result (eOp r.entry) (eCookie r.entry) s.host.epoch s.cqTime data,
        r.originTicket, r.originCtx, [], eIrq r.entry⟩

/-- Something started by the ticket is still to come: a latch, a layer commit, a run of units, a transaction, a flock. -/
def State.ticketBusy (s : State) (c t : Nat) : Bool :=
  (s.latch.any fun w => w.ctx == c && w.ticket == t) || (s.ingest.holds.any fun h => h.2.2 == (c, t)) ||
    (s.boot.jobs.any fun j => j.ticket == some (c, t)) || ((nth s.txs c {}).tickets.contains t) || ((nth s.txs c {}).ended.any fun e => e.tickets.contains t) ||
    (s.flocks.any fun f => f.tickets.contains (c, t))

/-- A part of a ticket's effect is in force: the ticket is DONE once nothing of it is still to come (R408). -/
def State.finishPart (s : State) (t : Nat × Nat) : State := if s.ticketBusy t.1 t.2 then s else s.finish t.1 t.2 0 []

/-- A completion entry of the record waits for a free entry (R402, R410). -/
def State.entryHeld (s : State) (r : JRec) (kind : Nat) : Bool :=
  (s.ctx r.ctx).held.any fun k => le k.entry 0 4 == r.ticket && le k.entry 4 1 == kind && !(bitOf (le k.entry 5 1) 1)

/-- The entries of a record that have not been written yet are written (R410). -/
def State.writePending (s : State) (r : JRec) : State :=
  let entry := fun (kind result time : Nat) (data : Bytes) => (⟨completion r.ticket kind 0 r.sqIndex result (eOp r.entry) (eCookie r.entry) r.epoch
    (time / nsU % 2 ^ 64) data, r.originTicket, r.originCtx, [], eIrq r.entry⟩ : Compl)
  let s := s.when (!(r.accWritten || s.entryHeld r 1)) fun s => s.complete r.ctx (entry 1 0 r.tau [])
  s.when (r.st == 3 && !(r.doneWritten || s.entryHeld r 3)) fun s => s.complete r.ctx (entry 3 r.result r.doneTime r.data)

/-- CTXn_INFLIGHT: the tickets ACCEPTED or EXECUTING (R426). -/
def State.countInflight (s : State) (c : Nat) : State :=
  s.put F.CTXn_INFLIGHT
    (s.host.journal.filter fun r => r.ctx == c && r.epoch == s.host.epoch && (r.st == 1 || r.st == 2)).length c

/-- Complete every ticket of a list alike. -/
def State.finishAll (s : State) (ts : List (Nat × Nat)) (result : Nat) (data : Bytes) : State :=
  s.each ts fun s t => s.finish t.1 t.2 result data

/-- Complete a ticket that a function was started by, if there is one. -/
def State.finishOpt (s : State) (t : Option (Nat × Nat)) (result : Nat) : State :=
  match t with
  | some q => if result == 0 then s.finishPart q else s.finish q.1 q.2 result []
  | none => s

/-- A command that reaches a context over a transport that it is not bound to (R394). -/
def State.wrongTransport (s : State) (c : Nat) : State := (s.inc F.CTXn_DISCARDED c).ctxFault F.CTXn_FAULT_WRONG_TRANSPORT c

end Sys2Proof.Machine
end

