-- ==== Sys2Proof/Machine/Ingest.lean ====
section
/-! DEFINITION. Source ingest and frame assignment of a head (spec/02_ingest.md). -/
set_option Elab.async false
namespace Sys2Proof.Machine

/-! ### Layer timing (R31 to R36) -/

def State.ilayer (s : State) (l : Nat) : ILayer := nth s.ingest.layers l {}
def State.onLayer (s : State) (l : Nat) (f : ILayer → ILayer) : State :=
  s.onIngest fun g => { g with layers := modAt g.layers l f }

/-- The layer is enabled and has a source kind (R31). -/
def State.layerOn (s : State) (l : Nat) : Bool := s.b F.LAYERn_INGEST_ENABLE l && s.f F.LAYERn_INGEST_KIND l != 0

/-- Blanking length V. -/
def State.vblank (s : State) (l : Nat) : Nat := periodU s.timing.code * s.f F.LAYERn_INGEST_VBLANK l / 256
/-- Send start A_n. -/
def State.sendAt (s : State) (l n : Nat) : Nat := s.swapAt n - usU (s.f F.LAYERn_SEND_LEAD l)
/-- Latch point L_n. -/
def State.latchAt (s : State) (l n : Nat) : Nat := s.sendAt l n - s.vblank l

def State.layerFmt (s : State) (l : Nat) : Nat := s.f F.LAYERn_FORMAT l
def State.layerW (s : State) (l : Nat) : Nat := s.f F.LAYERn_SRC_SIZE_WIDTH l
def State.layerH (s : State) (l : Nat) : Nat := s.f F.LAYERn_SRC_SIZE_HEIGHT l
/-- Cells of a frame of the layer, C_l (R57). -/
def State.layerCells (s : State) (l : Nat) : Nat := frameCells (s.layerFmt l) (s.layerW l) (s.layerH l)

/-- Layer timing within the bounds of R35. -/
def State.layerTimingOk (s : State) (l : Nat) : Bool :=
  let p := periodU s.timing.code
  let lead := usU (s.f F.LAYERn_SEND_LEAD l)
  !(s.layerOn l) || (decide (1 ≤ s.f F.LAYERn_INGEST_VBLANK l) &&
    decide (p - s.vblank l + usU (s.f F.INGEST_MARGIN) ≤ lead) && decide (lead ≤ 4 * p))

/-- rate_l in Mb/s (R57), rounded to nearest (assumption 66). -/
def State.layerRate (s : State) (l : Nat) : Nat :=
  if s.layerOn l then
    let r := nth rateTable s.timing.code (60, 1)
    roundDivN (s.layerCells l * 4096 * r.1 * 256) (r.2 * (256 - s.f F.LAYERn_INGEST_VBLANK l) * 1000000)
  else 0

/-- rate_l in units of 10^-6 b/s, rounded up to one unit (R57); 0 for a layer that is not on. -/
def State.rateUnits (s : State) (l : Nat) : Nat :=
  let r := nth rateTable s.timing.code (60, 1)
  if s.layerOn l then ceilDiv (s.layerCells l * 4096 * r.1 * 256 * 1000000) (r.2 * (256 - s.f F.LAYERn_INGEST_VBLANK l)) else 0

/-- Σ rate_l in units of 10^-6 b/s (R57). -/
def State.admission (s : State) : Nat := (List.range 16).foldl (fun a l => a + s.rateUnits l) 0

/-- Σ rate_l exceeds 380 Gb/s (R57). -/
def State.overAdmission (s : State) : Bool := decide (380000 * 10 ^ 12 < s.admission)

/-- INGEST_ADMIT in Mb/s: the admitted total, rounded up (R57, R70; assumption 66). -/
def State.admitTotal (s : State) : Nat := ceilDiv s.admission (10 ^ 12)

/-- Refresh LAYERn_RATE, ADMITTED and INGEST_ADMIT at a commit (R57). -/
def State.setAdmission (s : State) : State :=
  let s := s.each (List.range 16) fun s l => (s.put F.LAYERn_RATE (s.layerRate l) l).flag F.LAYERn_ISTAT_ADMITTED (s.layerOn l) l
  s.put F.INGEST_ADMIT s.admitTotal

/-! ### Committed configuration before its T (R33) -/

/-- The state with the register values of a committed flock whose T has not come. -/
def State.withRegs (s : State) (ws : List (Nat × Word)) : State := ws.foldl (fun s w => s.setReg w.1 w.2) s

/-- The state under a committed configuration. -/
def State.under (s : State) (x : NextCfg) : State :=
  let v := s.withRegs x.regs
  match x.timing with
  | some t => v.onTime fun y => { y with epochs := t :: y.epochs }
  | none => v

/-- The configurations of a layer one after the other, each with the instant from which frames are under it. -/
def stagesFrom (lo : Nat) (v : State) : List NextCfg → List (Nat × State)
  | [] => [(lo, v)]
  | x :: rest => (lo, v) :: stagesFrom x.at_ (v.under x) rest

def State.stages (s : State) (l : Nat) : List (Nat × State) := stagesFrom 0 s (s.ilayer l).next

/-- The configuration under which the last latched frame of a layer was decided. -/
def State.viewNow (s : State) (l : Nat) : State := ((s.ilayer l).next.filter NextCfg.taken).foldl State.under s

/-- The frame whose latch point under the stage's timing is the latest before now, with its swap instant in [lo, hi): what carries the latch
point's own timestamp is still in time (R10, R36). -/
def State.dueIn (v : State) (l lo : Nat) (hi : Option Nat) : Option Nat :=
  let reach := v.time.clock + usU (v.f F.LAYERn_SEND_LEAD l) + v.vblank l - 1
  let top := match hi with
    | some h => min reach (h - 1)
    | none => reach
  let n := v.timing.countAt top
  if decide (lo ≤ v.swapAt n) && decide (v.swapAt n ≤ top) then some n else none

/-- A frame of a layer: its count, and the state whose registers govern it. -/
abbrev FrameOf := Nat × State

/-- For each stage that has one, its latest frame whose latch point has come. -/
def duesIn (l : Nat) : List (Nat × State) → List FrameOf
  | [] => []
  | (lo, v) :: rest =>
    let here := match v.dueIn l lo (rest.head?.map Prod.fst) with
      | some n => [(n, v)]
      | none => []
    here ++ duesIn l rest

/-- The older configuration that a frame with swap instant `t` is still under, none for a frame under the one in use (R33). -/
def ILayer.olderAt (y : ILayer) (t : Nat) : Option Before := y.before.find? fun b => decide (t < b.at_)

/-- What the frame with swap instant `t` rests on. -/
def ILayer.decAt (y : ILayer) (t : Nat) : Deciding := ((y.olderAt t).map Before.dec).getD y.toDeciding

/-- The latch point of the frame with swap instant `t` has not been handled. -/
def ILayer.unlatched (y : ILayer) (t : Nat) : Bool := (y.decAt t).latched.all fun x => decide (x < t)

/-- The latch point at hand: the earliest of those that have come last under each configuration and have not been handled (R33). -/
def State.latchView (s : State) (l : Nat) : Option FrameOf :=
  ((duesIn l (s.stages l)).filter fun q => (s.ilayer l).unlatched (q.2.swapAt q.1)).foldl (fun (b : Option FrameOf) q => match b with
    | some p => if q.2.latchAt l q.1 < p.2.latchAt l p.1 then some q else b
    | none => some q) none

/-- The count nearest to now under a state's timing that has the given low 32 bits. -/
def nearIn (v : State) (n32 : Nat) : Nat :=
  let n := v.timing.countAt v.time.clock
  ((n : Int) + seqDiff 32 n32 n).toNat

/-- The frame that the low 32 bits of a count name for a layer, with the state whose registers govern it. -/
def State.frameView (s : State) (l n32 : Nat) : FrameOf :=
  match ((s.stages l).filter fun q => decide (q.1 ≤ q.2.swapAt (nearIn q.2 n32))).getLast? with
  | some q => (nearIn q.2 n32, q.2)
  | none => (nearIn s n32, s)

/-- Two register states bind a layer to the same source (the INDEX counts only where the KIND has one, R31), format and size. -/
def State.sameSource (s v : State) (l : Nat) : Bool :=
  let k := v.f F.LAYERn_INGEST_KIND l
  [F.LAYERn_INGEST_ENABLE, F.LAYERn_INGEST_KIND].all (fun f => v.f f l == s.f f l) &&
    (!([1, 2, 5].contains k) || v.f F.LAYERn_INGEST_INDEX l == s.f F.LAYERn_INGEST_INDEX l) &&
    v.layerFmt l == s.layerFmt l && v.layerW l == s.layerW l && v.layerH l == s.layerH l

/-- The layer runs in cut-through mode; `off`: it has fallen back to frame-synchronised mode (R41). -/
def State.cutThrough (s : State) (l : Nat) (off : Bool) : Bool :=
  s.b F.LAYERn_INGEST_CUT_THROUGH l && !off && (s.f F.LAYERn_INGEST_KIND l == 1 || s.f F.LAYERn_INGEST_KIND l == 2)

/-- The layer keeps its previous frame from one register state to the next: it is not enabled anew, and its format and size stay (R40). -/
def State.keepsPrev (s v : State) (l : Nat) : Bool :=
  (s.b F.LAYERn_INGEST_ENABLE l || !(v.b F.LAYERn_INGEST_ENABLE l)) &&
    v.layerFmt l == s.layerFmt l && v.layerW l == s.layerW l && v.layerH l == s.layerH l

/-- The word that a committed flock gives a register of the layer. -/
def NextCfg.word (x : NextCfg) (f : Fld) (l : Nat) : Option Nat := (x.regs.find? fun w => w.1 == f.addr l 0).map fun w => w.2.toNat

/-- The layer passes from the registers of `s` to those of `v`, which a flock brings (R33, R36, R40, R41): its commits of the address and
of the clip word apply to the first frame; a still bound anew (or under another format or size, as the model reads it, assumption 80) shows
its first frame; the previous frame is gone when the layer is enabled or its format or size changes; a flock that writes LAYERn_INGEST ends
a fallback, and the counts of R41 go on while the layer stays in cut-through. -/
def Deciding.bind (y : Deciding) (s v : State) (l : Nat) (x : NextCfg) : Deciding :=
  let t := v.latchAt l (v.timing.firstAt x.at_)
  let y := { y with
    addrCommits := y.addrCommits ++ ((x.word F.LAYERn_ADDR_LO l).map fun w =>
      (t, w / 4096 * 4096 + v.f F.LAYERn_ADDR_HI l * 2 ^ 32)).toList
    clipCommits := y.clipCommits ++ ((x.word F.LAYERn_CLIP_CLIP_ID l).map fun w => (t, w)).toList }
  if !x.ingest then y
  else
    let same := s.sameSource v l
    let off := y.ctOff && (x.word F.LAYERn_INGEST_ENABLE l).isNone
    let still := s.cutThrough l y.ctOff && v.cutThrough l off
    { y with
      bound := if same then y.bound else v.b F.LAYERn_INGEST_ENABLE l && v.f F.LAYERn_INGEST_KIND l == 4
      inn := if same then y.inn else x.inn
      prev := if s.keepsPrev v l then y.prev else none
      ctOff := off
      ctLate := if still then y.ctLate else 0
      ctGood := if still then y.ctGood else 0
      clipLast := if same then y.clipLast else none
      patsSent := if same then y.patsSent else none }

/-- Bind a layer to the configurations whose T is at or before `t`, the swap instant of the frame being decided. -/
def bindAll (l t : Nat) : State → Deciding → List NextCfg → Deciding × List NextCfg
  | _, y, [] => (y, [])
  | s, y, x :: rest =>
    let v := s.under x
    if x.taken || decide (t < x.at_) then
      let r := bindAll l t v y rest
      (r.1, x :: r.2)
    else
      let r := bindAll l t v (y.bind s v l x) rest
      (r.1, { x with taken := true, inn := {} } :: r.2)

/-- Bind a layer to the configurations whose frames the frame with swap instant `t` is under; what the frames before them rest on is kept,
as their latch points may be yet to come (R33). -/
def State.takeNext (s : State) (l t : Nat) : State :=
  let y := s.ilayer l
  match y.next.find? fun x => !x.taken && decide (x.at_ ≤ t) with
  | none => s
  | some first =>
    let r := bindAll l t s y.toDeciding y.next
    let old := s.viewNow l
    let s := s.onLayer l fun y => { y with toDeciding := r.1, next := r.2 }
    let new := s.viewNow l
    let b : Before := ⟨first.at_, old.sameSource new l, old.keepsPrev new l, y.toDeciding⟩
    s.onLayer l fun y => { y with before := y.before ++ [b] }

/-- T has come: its configuration is in the registers. -/
def State.dropNext (s : State) (t : Nat) : State :=
  s.each (List.range 16) fun s l => s.onLayer l fun y => { y with
    next := y.next.filter fun x => decide (t < x.at_), before := y.before.filter fun b => decide (t < b.at_) }

/-- Apply `f` with what the frame with swap instant `t` rests on in the layer's place (R33): under an older configuration that is what was
kept of it, with the intake of the source if both take the same. -/
def State.inFrame (s : State) (l t : Nat) (f : State → State) : State :=
  let now := s.ilayer l
  match now.olderAt t with
  | none => f s
  | some b =>
    let s := f (s.onLayer l fun y => { y with toDeciding := { b.dec with inn := if b.same then y.inn else b.dec.inn } })
    s.onLayer l fun y => { y with
      toDeciding := { now.toDeciding with inn := if b.same then y.inn else now.inn }
      before := y.before.map fun x => if x.at_ == b.at_ then { x with dec := y.toDeciding } else x }

/-! ### Sources (R37, R38, R42 to R50) -/

/-- The KIND and INDEX of a source (Table 2-1). -/
def Src.code : Src → Nat × Nat
  | .dp n => (1, n.val)
  | .flow n => (2, n.val)
  | .fold n => (5, n.val)

/-- The source feeds the layer. -/
def State.feeds (s : State) (src : Src) (l : Nat) : Bool :=
  s.b F.LAYERn_INGEST_ENABLE l && s.f F.LAYERn_INGEST_KIND l == src.code.1 && s.f F.LAYERn_INGEST_INDEX l == src.code.2

/-- The layers that a source feeds now. -/
def State.fed (s : State) (src : Src) : List Nat := (List.range 16).filter fun l => (s.viewNow l).feeds src l

/-- Change the intakes that a committed flock binds anew to a source, each under its own configuration. -/
def intakeNext (src : Src) (l : Nat) (f : State → Intake → Intake) : State → List NextCfg → List NextCfg
  | _, [] => []
  | s, x :: rest =>
    let v := s.under x
    let y := if !x.taken && !(s.sameSource v l) && v.feeds src l then { x with inn := f v x.inn } else x
    y :: intakeNext src l f v rest

/-- The registers that govern the frames of a layer before the swap instant `t`. -/
def State.viewBefore (s : State) (l t : Nat) : State := ((s.ilayer l).next.filter fun x => decide (x.at_ < t)).foldl State.under s

/-- Change the intakes of the older configurations that have frames still to decide, where they take a source of their own. -/
def State.intakeBefore (s : State) (src : Src) (l : Nat) (f : State → Intake → Intake) (bs : List Before) : List Before :=
  bs.map fun b =>
    let v := s.viewBefore l b.at_
    if !b.same && v.feeds src l then { b with dec := { b.dec with inn := f v b.dec.inn } } else b

/-- Change every intake of a source: of the layers it feeds now, of those a committed flock binds to it, and of those it still feeds under
an older configuration (R33). -/
def State.onIntake (s : State) (src : Src) (f : Nat → State → Intake → Intake) : State :=
  s.each (List.range 16) fun s l =>
    let v := s.viewNow l
    s.onLayer l fun y => { y with
      inn := if v.feeds src l then f l v y.inn else y.inn
      next := intakeNext src l (f l) s y.next
      before := s.intakeBefore src l (f l) y.before }

/-- HPD is asserted (R43). -/
def State.hpd (s : State) (r : Nat) : Bool := s.isHead && s.b F.DPRXn_CTL_ENABLE r && s.b F.DPRXn_CTL_EDID_VALID r

def State.onDp (s : State) (r : Nat) (f : DpRx → DpRx) : State := s.onIngest fun g => { g with dp := modAt g.dp r f }
def State.dp (s : State) (r : Nat) : DpRx := nth s.ingest.dp r {}
def State.onFlow (s : State) (k : Nat) (f : Flow → Flow) : State := s.onIngest fun g => { g with flows := modAt g.flows k f }
def State.flow (s : State) (k : Nat) : Flow := nth s.ingest.flows k {}

/-- DPRX_HPD_IRQ (R43). -/
def State.hpdIrq (s : State) (r : Nat) : State := if s.hpd r then s.emit (.dp r [1]) else s
def execDprxHpdIrq (rx : Fin 4) (s : State) : Host.Outcome State Fault Refusal :=
  .next (if s.on iDPRX then s.hpdIrq rx.val else s)

/-- DP_LINK_TRAINED (R42): within MAX_RATE and MAX_LANES. -/
def execDpLinkTrained (rx : Fin 4) (rate : Nat) (lanes : Nat) (s : State) : Host.Outcome State Fault Refusal :=
  let r := rx.val
  .next (if s.on iDPRX && s.hpd r && decide (rate ≤ s.f F.DPRXn_CTL_MAX_RATE r) && decide (lanes ≤ s.f F.DPRXn_CTL_MAX_LANES r) then
    let s := (s.flag F.DPRXn_STATUS_LINK_UP true r).put F.DPRXn_STATUS_RATE rate r
    (s.put F.DPRXn_STATUS_LANES lanes r).flag F.DPRXn_STATUS_CODING (decide (4 ≤ rate)) r
  else s)

/-- The running frame of a source can no longer become complete (R38). -/
def State.breakFrame (s : State) (src : Src) : State := s.onIntake src fun _ _ i => { i with broken := true }

/-- Loss of a DisplayPort link (R44). -/
def State.dpLost (s : State) (r : Fin 4) : State :=
  let s := ((s.flag F.DPRXn_STATUS_LINK_UP false r.val).flag F.DPRXn_STATUS_MSA_STABLE false r.val).inc F.DPRXn_LINKLOSS r.val
  (s.onDp r.val fun _ => {}).breakFrame (.dp r)

/-- DP_LINK_LOSS (R44). -/
def execDpLinkLoss (rx : Fin 4) (s : State) : Host.Outcome State Fault Refusal :=
  .next (if s.on iDPRX && s.b F.DPRXn_STATUS_LINK_UP rx.val then s.dpLost rx else s)

/-- `n` free bytes. -/
def freeBytes (k n : Nat) : Bytes := toLE n (Config.free k)

/-- DPCD bytes that carry the capabilities which the receiver advertises as absent (R42): MST_CAP, the DSC and the HDCP registers, at the
addresses DisplayPort gives them (PRESUMED, assumption 81). -/
def dpcdAbsent (a : Nat) : Bool :=
  a == 0x21 || (decide (0x60 ≤ a) && decide (a < 0x70)) || (decide (0x68000 ≤ a) && decide (a < 0x6A000))

/-- DPRX_AUX_REQUEST (R42): EDID bytes from DPRXn_EDID; the DPCD bytes that advertise DSC, HDCP and MST read as 0, the other DPCD contents
follow DisplayPort and are free values here. -/
def execDprxAuxRequest (rx : Fin 4) (req : Aux) (s : State) : Host.Outcome State Fault Refusal :=
  .next (if !(s.on iDPRX && s.b F.DPRXn_CTL_ENABLE rx.val) then s
    else match req with
    | .edid off len =>
      if s.b F.DPRXn_CTL_EDID_VALID rx.val then
        s.emit (.dp rx.val ((List.range len).map fun k =>
          BitVec.ofNat 8 (bits (s.f F.DPRXn_EDIDk rx.val ((off + k) % 256 / 4)) (8 * ((off + k) % 4)) 8)))
      else s
    | .dpcd addr len =>
      (s.emit (.dp rx.val (((freeBytes s.fresh len).zip (List.range len)).map fun p =>
        if dpcdAbsent (addr + p.2) then 0 else p.1))).tickFresh)

/-- The wall frame whose latch point comes next on layer `l`. -/
def State.nextLatch (s : State) (l : Nat) : Nat :=
  match (s.ilayer l).latched with
  | some t => s.timing.countAt t + 1
  | none => s.time.frame + 1

/-- Count the source frames that the layers discard when the next frame of their source starts (R38). A frame of a cut-through layer that is
not complete counts here too, beside the filling of R40 (DESIGN CHOICE, assumption 78). -/
def State.discardFrames (s : State) (src : Src) : State :=
  let stale := fun (s : State) l =>
    let y := s.ilayer l
    (y.inn.writing.isSome && (s.viewNow l).feeds src l) ||
      (intakeNext src l (fun _ i => { i with writing := none }) s y.next != y.next) ||
      (s.intakeBefore src l (fun _ i => { i with writing := none }) y.before != y.before)
  s.each ((List.range 16).filter (stale s)) fun s l => (s.inc F.LAYERn_INCOMPLETE l).noteInputError (s.nextLatch l)

/-- The least and the greatest of sequence numbers that lie close together (R48). -/
def seqLow (l : List Nat) (a : Nat) : Nat := l.foldl (fun m x => if seqDiff 32 x m < 0 then x else m) a
def seqHigh (l : List Nat) (a : Nat) : Nat := l.foldl (fun m x => if seqDiff 32 m x < 0 then x else m) a

/-- Judge the packets of the open frame of a flow (R48, R49): sequence numbers not received are counted as lost, up to the packet with the
marker or, without it, up to the last one received; a gap before the first packet is this frame's when the frame before had its marker.
A packet dropped because the buffer was full did arrive and is no gap (assumption 78). -/
def State.judgeFlow (s : State) (k : Nat) : State :=
  let w := s.flow k
  match w.seqs with
  | [] => s.onFlow k fun w => { w with bad := true }
  | a :: rest =>
    let lo := seqLow rest a
    let before := (lo + 2 ^ 32 - 1) % 2 ^ 32
    let old := w.base.getD before
    let start := if w.ended then old else before
    let top := w.last.getD (seqHigh rest a)
    let got := (w.seqs.filter fun x => decide (0 < seqDiff 32 x start) && decide (seqDiff 32 x top ≤ 0)).length
    let lost := (seqDiff 32 top start).toNat - got
    let gap := if w.ended then 0 else (seqDiff 32 before old).toNat
    (s.add F.STFLOWn_PKT_LOST (lost + gap) k).onFlow k fun w => { w with
      bad := w.bad || decide (0 < lost) || w.last.isNone, base := some top, ended := w.last.isSome, seqs := [], last := none }

/-- The bytes of a plane line that the placed rows cover, from byte `at_` on, the rows in rising order. -/
def coverEnd : Nat → List (Nat × Nat) → Nat
  | at_, [] => at_
  | at_, (lo, n) :: rest => if lo ≤ at_ then coverEnd (max at_ (lo + n)) rest else at_

/-- Every byte of a plane line of a flow has come. -/
def Flow.covered (w : Flow) (line plane bytes : Nat) : Bool :=
  let rows := (w.rows.filter fun r => r.1 == line && r.2.1 == plane).map fun r => (r.2.2.1, r.2.2.2)
  decide (bytes ≤ coverEnd 0 (rows.mergeSort fun a b => decide (a.1 ≤ b.1)))

/-- Place one sample row in the lines of a frame. -/
def placeRow (f w : Nat) (lines : List PLine) (r : Nat × Nat × Nat × Bytes) : List PLine :=
  let old := ((lines.find? fun x => x.line == r.1 && x.plane == r.2.1).map PLine.data).getD (zeros (planeBytes f w r.2.1))
  let new := (old.take r.2.2.1 ++ r.2.2.2 ++ old.drop (r.2.2.1 + r.2.2.2.length)).take old.length
  { line := r.1, plane := r.2.1, data := new } :: lines.filter fun x => !(x.line == r.1 && x.plane == r.2.1)

/-- Place the rows of a packet of the open frame; `f`, `width`: format and width of the flow. -/
def Flow.place (w : Flow) (f width : Nat) (p : Packet) : Flow :=
  { w with
    seqs := if w.seqs.contains p.seq then w.seqs else p.seq :: w.seqs
    last := if p.marker then some p.seq else w.last
    rows := p.rows.map (fun r => (r.1, r.2.1, r.2.2.1, r.2.2.2.length)) ++ w.rows
    lines := p.rows.foldl (placeRow f width) w.lines }

/-- The layer format code of samples of a depth code and a sampling: one plane, and two for 4:2:0, which has no one-plane code (Table 7-2;
DEDUCED, assumption 80). -/
def sourceFmt (depth sampling : Nat) : Nat := depth + 4 * sampling + if sampling == 3 then 16 else 0

/-- The format of a flow's samples (R65). -/
def State.flowFmt (s : State) (k : Nat) : Nat := sourceFmt (s.f F.STFLOWn_FMT_DEPTH k) (s.f F.STFLOWn_FMT_SAMPLING k)

/-- A new frame of flow `k` opens with RTP timestamp `id`: the packets of it that already lie in the buffer are placed. -/
def State.flowStart (s : State) (k id : Nat) : State :=
  let s := if (s.flow k).stamp.isSome then (s.judgeFlow k).inc F.STFLOWn_INCOMPLETE k else s
  let f := s.flowFmt k
  let width := s.f F.STFLOWn_SIZE_WIDTH k
  s.onFlow k fun w =>
    (w.held.filter fun p => p.stamp == id).foldl (fun w p => w.place f width p)
      { w with stamp := some id, lines := [], rows := [], bad := false, held := [] }

/-- The identity of a source frame that starts now (Table 2-1): a DisplayPort frame's is the instant in ns. -/
def State.startId (s : State) (src : Src) (id : Nat) : Nat :=
  match src with
  | .dp _ => s.time.clock / nsU
  | _ => id

/-- A new source frame begins (R38); DPRXn_PERIOD is the time between two starts (R70). -/
def State.frameStart (s : State) (src : Src) (id : Nat) : State :=
  let id := s.startId src id
  let s := match src with
    | .dp n =>
      let s := match (s.dp n.val).start with
        | some t => s.put F.DPRXn_PERIOD (min ((s.time.clock - t) / nsU) (2 ^ 32 - 1)) n.val
        | none => s
      s.onDp n.val fun d => { d with start := some s.time.clock }
    | .flow n => s.flowStart n.val id
    | .fold _ => s
  (s.discardFrames src).onIntake src fun _ _ i => { i with writing := some id, broken := false }

/-- SOURCE_FRAME_START (R38). -/
def execSourceFrameStart (src : Src) (id : Nat) (s : State) : Host.Outcome State Fault Refusal :=
  .next (if s.isHead && s.pwr.up then s.frameStart src id else s)

/-- A source frame of the format and size can feed the layer, converted by R45. -/
def State.convertible (s : State) (l : Nat) (fmt w h : Nat) : Bool :=
  fmtSampling fmt == fmtSampling (s.layerFmt l) && w == s.layerW l && h == s.layerH l

/-- The MSA of a frame. -/
def SrcFrame.msa (f : SrcFrame) : Msa := ⟨f.width, f.height, f.model, f.bpc, f.interlaced⟩

/-- The layer format code of the samples (R231). -/
def Msa.fmt (m : Msa) : Nat := sourceFmt (nth [0, 1, 2, 3] ([8, 10, 12, 16].idxOf m.bpc) 0) (m.model % 4)
def SrcFrame.fmt (f : SrcFrame) : Nat := f.msa.fmt

/-- Colour model, depth and active size of Table 2-3; a frame that is not progressive has none of them. -/
def SrcFrame.colourOk (f : SrcFrame) : Bool :=
  !f.interlaced && decide (f.model < 4) && [8, 10, 12, 16].contains f.bpc && (f.bpc != 16 || f.model == 0)
def SrcFrame.sizeOk (f : SrcFrame) : Bool :=
  decide (64 ≤ f.width) && decide (f.width ≤ 8192) && decide (64 ≤ f.height) && decide (f.height ≤ 8192)

/-- The source of a layer differs from its committed format or size beyond R45 (R44, R66), as far as the source is known. -/
def State.mismatch (s : State) (l : Nat) : Bool :=
  let k := s.f F.LAYERn_INGEST_INDEX l
  match s.f F.LAYERn_INGEST_KIND l with
  | 1 => match (s.dp k).msa with
    | some m => !(s.convertible l m.fmt m.width m.height)
    | none => false
  | 2 => s.b F.STFLOWn_CTL_ENABLE k &&
    !(s.convertible l (s.flowFmt k) (s.f F.STFLOWn_SIZE_WIDTH k) (s.f F.STFLOWn_SIZE_HEIGHT k))
  | _ => false

/-- Judge every FMT_MISMATCH again: after a frame, and after a commit (R44, R66, R69). -/
def State.judgeMatch (s : State) : State :=
  let bad := (List.range 16).filter fun l => s.b F.LAYERn_INGEST_ENABLE l && s.mismatch l
  let of_ := fun kind k => bad.any fun l => s.f F.LAYERn_INGEST_KIND l == kind && s.f F.LAYERn_INGEST_INDEX l == k
  let t := s.each (List.range 16) fun t l => t.flag F.LAYERn_ISTAT_FMT_MISMATCH (bad.contains l) l
  let t := t.each (List.range 4) fun t r => t.flag F.DPRXn_STATUS_FMT_MISMATCH (of_ 1 r) r
  t.each (List.range 16) fun t k => t.flag F.STFLOWn_STATUS_FMT_MISMATCH (of_ 2 k) k

/-- Judge the MSA of a DisplayPort frame that has ended (R44): MSA_STABLE after two complete frames in a row with the same MSA, until the
link is lost or the MSA changes; the active pixel rate follows from the size and the measured period. The second result: an MSA change or
a source that Table 2-3 excludes has broken the frame. -/
def State.judgeMsa (s : State) (r : Nat) (f : SrcFrame) : State × Bool :=
  let m := f.msa
  let d := s.dp r
  let same := d.msa == some m
  let changed := d.msa.isSome && !same
  let whole := f.lines.length == (lineOrder f.fmt f.height).length
  let n := if !whole then 0 else if same then min 2 (d.same + 1) else 1
  let period := s.f F.DPRXn_PERIOD r
  let s := s.onDp r fun d => { d with msa := some m, same := n }
  let s := (s.put F.DPRXn_ACTIVE_WIDTH f.width r).put F.DPRXn_ACTIVE_HEIGHT f.height r
  let s := (s.put F.DPRXn_STATUS_FORMAT f.fmt r).flag F.DPRXn_STATUS_FORMAT_UNSUPPORTED (!f.colourOk) r
  let s := s.flag F.DPRXn_STATUS_RATE_LIMIT (decide (0 < period) && decide (2100 * period < f.width * f.height * 1000)) r
  let s := s.flag F.DPRXn_STATUS_MSA_STABLE (n == 2 || (same && s.b F.DPRXn_STATUS_MSA_STABLE r)) r
  (s, changed || !f.colourOk || !f.sizeOk)

/-- A source frame that ends: complete, it becomes a candidate of the layer (R37), converted to its format; otherwise it waits for the next
frame's start to be discarded (R38). -/
def Intake.end_ (i : Intake) (v : State) (l now : Nat) (f : SrcFrame) (fmt id : Nat) (lines : List (Nat × Nat × Bytes)) (broken : Bool) :
    Intake :=
  let fits := v.convertible l fmt f.width f.height
  if i.writing != some id || broken || i.broken || f.height != v.layerH l || lines.length != (lineOrder fmt f.height).length then
    { i with broken := true }
  else { i with
    writing := none
    done := if fits then ⟨id, now, convertFrame fmt (v.layerFmt l) f.width f.height lines, []⟩ :: i.done else i.done
    ends := now :: i.ends.take 3 }

/-- A source frame has ended for the layers that its source feeds now and will feed. -/
def State.sourceDone (s : State) (src : Src) (f : SrcFrame) (fmt id : Nat) (lines : List (Nat × Nat × Bytes)) (broken : Bool) : State :=
  (s.onIntake src fun l v i => i.end_ v l s.time.clock f fmt id lines broken).judgeMatch

/-- The lines of a flow that its packets have placed whole. -/
def Flow.placed (w : Flow) (f width : Nat) : List (Nat × Nat × Bytes) :=
  (w.lines.filter fun p => w.covered p.line p.plane (planeBytes f width p.plane)).map fun p => (p.line, p.plane, p.data)

/-- SOURCE_FRAME_COMPLETE (R37): the frame as received; a flow's lines are those its packets placed, in its own format and size. -/
def execSourceFrameComplete (src : Src) (f : SrcFrame) (s : State) : Host.Outcome State Fault Refusal :=
  .next (if !(s.isHead && s.pwr.up) then s
    else match src with
    | .dp n =>
      let r := s.judgeMsa n.val f
      r.1.sourceDone src f f.fmt (((s.dp n.val).start.getD 0) / nsU) f.lines r.2
    | .flow n =>
      let s := s.judgeFlow n.val
      let w := s.flow n.val
      let fmt := s.flowFmt n.val
      let f := { f with width := s.f F.STFLOWn_SIZE_WIDTH n.val, height := s.f F.STFLOWn_SIZE_HEIGHT n.val }
      let lines := w.placed fmt f.width
      let bad := w.bad || lines.length != (lineOrder fmt f.height).length || w.stamp.isNone
      let s := (if bad then s.inc F.STFLOWn_INCOMPLETE n.val else s).onFlow n.val fun w => { w with stamp := none }
      s.sourceDone src f fmt (w.stamp.getD 0) lines bad
    | .fold _ => s.sourceDone src f f.fmt f.id f.lines false)

/-! ### ST 2110 (R46 to R50) -/

/-- A 128-bit address from its four words. -/
def State.addr128 (s : State) (f : Fld) (k : Nat) : Nat :=
  s.f f k 0 + 2 ^ 32 * s.f f k 1 + 2 ^ 64 * s.f f k 2 + 2 ^ 96 * s.f f k 3

/-- The address a flow matches: one word for IPv4. -/
def State.flowAddr (s : State) (f : Fld) (k : Nat) : Nat :=
  if s.b F.STFLOWn_CTL_IPV6 k then s.addr128 f k else s.f f k 0

/-- A packet that a flow may accept at all (R47, R48): RTP version 2, ST 2110-20, 1 to 3 rows, at most 8,960 bytes, progressive. -/
def Packet.isVideo (p : Packet) : Bool :=
  p.version == 2 && p.essence == 20 && decide (1 ≤ p.rows.length) && decide (p.rows.length ≤ 3) && decide (p.size ≤ 8960) && !p.interlaced

/-- The flow's sampling and depth are among those it accepts: 16 bits for RGB only (R48). -/
def State.flowMode (s : State) (k : Nat) : Bool := s.f F.STFLOWn_FMT_DEPTH k != 3 || s.f F.STFLOWn_FMT_SAMPLING k == 0

/-- The packet matches the flow (R47). -/
def State.flowMatch (s : State) (k : Nat) (p : Packet) : Bool :=
  s.b F.STFLOWn_CTL_ENABLE k && s.flowMode k && s.f F.STFLOWn_CTL_PORT k == p.port && p.isVideo && p.dst == s.flowAddr F.STFLOWn_DST_ADDRk k &&
    p.udp == s.f F.STFLOWn_UDP k && p.pt == s.f F.STFLOWn_CTL_PT k &&
    (!(s.b F.STFLOWn_CTL_VLAN_EN k) || p.vlan == some (s.f F.STFLOWn_CTL_VLAN_ID k)) &&
    (!(s.b F.STFLOWn_CTL_SSM k) || p.src == s.flowAddr F.STFLOWn_SRC_ADDRk k)

/-- VRX_FULL of the flow's receiver type for its format (R49), by the formulas of ST 2110-21 with datagrams of 1,460 bytes, 1,440 of them
samples, at the wall's frame rate (PRESUMED, assumption 78). -/
def State.vrxFull (s : State) (k : Nat) : Nat :=
  let f := s.flowFmt k
  let bytes := (lineOrder f (s.f F.STFLOWn_SIZE_HEIGHT k)).foldl (fun a q => a + planeBytes f (s.f F.STFLOWn_SIZE_WIDTH k) q.2) 0
  let r := nth rateTable s.timing.code (60, 1)
  let part := fun burst rate => max (1500 * burst / 1460) (ceilDiv bytes 1440 * r.1 / (rate * r.2))
  if s.b F.STFLOWn_CTL_RX_WIDE k then part 300 300 else part 8 27000

/-- Packets of the flow that may still lie in its buffer: those of the open frame, and those kept for others. -/
def Flow.buffered (w : Flow) : Nat := w.seqs.length + w.held.length

/-- An accepted packet of flow `k` (R47 to R50): placed in the open frame, kept in the buffer for the frame it belongs to, or dropped when
the buffer is full, which it is not before it has taken VRX_FULL packets; from there on it is the environment's (assumption 78). -/
def State.flowPacket (s : State) (k : Nat) (p : Packet) : State :=
  let s := (s.flag F.STFLOWn_STATUS_RECEIVING true k).onFlow k fun w => { w with lastAt := some s.time.aon }
  let open_ := (s.flow k).stamp == some p.stamp
  if p.full && decide (s.vrxFull k ≤ (s.flow k).buffered) then (s.inc F.STFLOWn_OVERFLOW k).onFlow k fun w =>
    if open_ then { w.place 0 0 { p with rows := [] } with bad := true } else w
  else s.onFlow k fun w =>
    if open_ then w.place (s.flowFmt k) (s.f F.STFLOWn_SIZE_WIDTH k) p else { w with held := w.held ++ [p] }

/-- ST2110_PACKET_RX (R47). -/
def execSt2110PacketRx (p : Packet) (s : State) : Host.Outcome State Fault Refusal :=
  .next (if !(s.isHead && s.on iETH && decide (p.port < s.ethPorts)) then s
    else match (List.range 16).filter fun k => s.flowMatch k p with
    | [] => s.onIngest fun g => { g with discards := modAt g.discards p.port fun c => min (c + 1) (2 ^ 32 - 1) }
    | ks => s.each ks fun s k => s.flowPacket k p)

/-- A membership report or leave of a flow on its port (R50): kind 1 report, 2 leave. -/
def State.igmp (s : State) (k kind : Nat) : State :=
  s.emit (.eth (s.f F.STFLOWn_CTL_PORT k) 2 (mkMsg 36 [(0, 1, kind), (1, 1, b2n (s.b F.STFLOWn_CTL_IPV6 k)),
    (2, 1, b2n (s.b F.STFLOWn_CTL_SSM k)), (4, 16, s.flowAddr F.STFLOWn_DST_ADDRk k),
    (20, 16, if s.b F.STFLOWn_CTL_SSM k then s.flowAddr F.STFLOWn_SRC_ADDRk k else 0)]))

/-- A flow is enabled: the first unsolicited report (R50). -/
def State.flowJoin (s : State) (k : Nat) : State :=
  ((s.igmp k 1).flag F.STFLOWn_STATUS_JOINED true k).onFlow k fun w => { w with reports := 1, joinedAt := s.time.aon }

/-- A flow is disabled: a leave, and nothing kept (R50). -/
def State.flowLeave (s : State) (k : Nat) : State :=
  (((s.igmp k 2).flag F.STFLOWn_STATUS_JOINED false k).flag F.STFLOWn_STATUS_RECEIVING false k).onFlow k fun _ => {}

/-- IGMP_REPORT_TIMER (R50): the second report, 1 s after the first. -/
def execIgmpReportTimer (flow : Fin 16) (s : State) : Host.Outcome State Fault Refusal :=
  let k := flow.val
  .next (if s.isHead && s.on iETH && s.b F.STFLOWn_CTL_ENABLE k && (s.flow k).reports == 1 &&
      decide ((s.flow k).joinedAt + 1000000000 ≤ s.time.aon) then
    (s.igmp k 1).onFlow k fun w => { w with reports := 2 }
  else s)

/-- IGMP_QUERY_RX (R50): a general query, or one for a group. -/
def execIgmpQueryRx (port : Fin 4) (group : Option Nat) (s : State) : Host.Outcome State Fault Refusal :=
  .next (if s.isHead && s.on iETH then
    s.each ((List.range 16).filter fun k => s.b F.STFLOWn_CTL_ENABLE k && s.f F.STFLOWn_CTL_PORT k == port.val &&
      (match group with
        | some g => g == s.flowAddr F.STFLOWn_DST_ADDRk k
        | none => true)) fun s k => (s.igmp k 1).flag F.STFLOWn_STATUS_JOINED true k
  else s)

/-- STFLOW_RECEIVING_LAPSE (R50): the last packet came more than 10 ms ago. -/
def execStflowReceivingLapse (flow : Fin 16) (s : State) : Host.Outcome State Fault Refusal :=
  let k := flow.val
  .next (match (s.flow k).lastAt with
    | some t => if t + 10000000 < s.time.aon then s.flag F.STFLOWn_STATUS_RECEIVING false k else s
    | none => s)

/-! ### Cut-through (R39 to R41) -/

/-- The end of a frame's active interval, L_{n+1}, has passed: a line written at that instant is in time (R10). -/
def Sending.over (d : Sending) (now : Nat) : Bool := decide (d.start + d.span < now)

/-- Cells of the frame are still to be sent, or its active interval has not ended. -/
def Sending.left (d : Sending) : Bool := decide (d.next < d.cells) || !d.gaps.isEmpty || !d.closed

/-- A line of a frame being sent is written. -/
def Sending.write (d : Sending) (q : PLine) : Sending :=
  { d with lines := d.lines.map fun p => if p.line == q.line && p.plane == q.plane && !(p.written || p.filled) then q else p }

/-- Lines of format `fmt` are written at `now`: into the cut-through frame whose window it is, which on a standby a record may have named
before its own latch point, or kept for the frame that a latch point yet to be handled, or a record yet to come, will name (R33, R39,
R60). -/
def ILayer.writeCt (y : ILayer) (now fmt : Nat) (kept : Bool) (qs : List PLine) : ILayer :=
  match y.sending.find? fun d => d.action == 2 && !d.closed && (y.latched.all fun t => decide (t ≤ d.swap)) && !kept &&
      decide (now ≤ d.start + d.span) with
  | some d => { y with sending := y.sending.map fun x => if x.swap == d.swap then qs.foldl Sending.write x else x }
  | none => { y with
    ctLines := y.ctLines.filter (fun p => !(p.2.1 == fmt && qs.any fun q => q.line == p.2.2.line && q.plane == p.2.2.plane)) ++
      qs.map fun q => (now, fmt, q) }

/-- Keep the lines for the configurations of committed flocks that bind the layer to the source in cut-through. -/
def keepCt (src : Src) (l now : Nat) (conv : State → List PLine) : State → List NextCfg → ILayer → ILayer
  | _, [], y => y
  | s, x :: rest, y =>
    let v := s.under x
    keepCt src l now conv v rest (if !x.taken && v.feeds src l && v.cutThrough l false then
      y.writeCt now (v.layerFmt l) true (conv v) else y)

/-- CT_LINE_WRITTEN (R39): the plane lines that complete at a source line, in the source's format; those of a source that R45 does not
convert are not sent. A flow's line that lost a packet is not written (R40). -/
def execCtLineWritten (src : Src) (line : Nat) (planes : List Bytes) (s : State) : Host.Outcome State Fault Refusal :=
  .next (if !(s.isHead && s.pwr.up) then s
    else
      let q : Nat × (Nat × Nat) × List (Nat × Bytes) := match src with
        | .dp n =>
          let f := s.f F.DPRXn_STATUS_FORMAT n.val
          (f, (s.f F.DPRXn_ACTIVE_WIDTH n.val, s.f F.DPRXn_ACTIVE_HEIGHT n.val), ((linesAt f line).map Prod.snd).zip planes)
        | .flow n =>
          let f := s.flowFmt n.val
          let w := s.f F.STFLOWn_SIZE_WIDTH n.val
          let got := (s.flow n.val).placed f w
          (f, (w, s.f F.STFLOWn_SIZE_HEIGHT n.val),
            (linesAt f line).filterMap fun a => (got.find? fun g => g.1 == a.1 && g.2.1 == a.2).map fun g => (a.2, g.2.2))
        | .fold _ => (0, (0, 0), [])
      let whole := q.2.2.length == (linesAt q.1 line).length
      s.each (List.range 16) fun s l =>
        let conv := fun (v : State) => if whole && v.convertible l q.1 q.2.1.1 q.2.1.2 then
          convertLine q.1 (v.layerFmt l) (v.layerW l) line q.2.2 else []
        let v := s.viewNow l
        s.onLayer l fun y =>
          let now := s.time.clock
          let y := if v.feeds src l && v.cutThrough l y.ctOff then y.writeCt now (v.layerFmt l) false (conv v) else y
          keepCt src l now conv s y.next y)

/-- A cut-through frame that has ended is the previous one: for the frames under its own configuration, and for later ones unless a flock
has taken it from the layer (R33, R40). -/
def ILayer.leavePrev (y : ILayer) (d : Sending) (now : Nat) (ls : List PLine) : ILayer :=
  let p : Option SFrame := some ⟨d.frame, now, ls, []⟩
  { y with
    prev := if y.before.any fun b => decide (d.swap < b.at_) && !b.keep then y.prev else p
    before := y.before.map fun b => if decide (d.swap < b.at_) then { b with dec := { b.dec with prev := p } } else b }

/-- A cut-through frame `d` with lines not written: they are taken from the previous frame, and the frame is late. At the third in a row
the layer falls back from the very latch point at which that frame's interval ends, the first that comes after it is found late (R40, R41;
assumption 80). -/
def State.fillCt (s : State) (l : Nat) (d : Sending) : State :=
  let prev := (((s.ilayer l).decAt d.swap).prev.map SFrame.lines).getD []
  let ls := d.lines.map fun p =>
    if p.written then p
    else { p with
      filled := true
      data := ((prev.find? fun x => x.line == p.line && x.plane == p.plane).map PLine.data).getD p.data }
  let now := s.time.clock
  let s := ((s.inc F.LAYERn_CT_LATE l).noteInputError d.frame).onLayer l fun y => { y.leavePrev d now ls with
    sending := y.sending.map fun x => if x.swap == d.swap then { x with lines := ls, closed := true } else x
    ctLate := y.ctLate + 1
    ctGood := 0 }
  if 3 ≤ (s.ilayer l).ctLate then
    let s := s.flag F.LAYERn_ISTAT_CT_UNLOCKED true l
    if (s.viewNow l).b F.LAYERn_INGEST_CT_FALLBACK l then s.onLayer l fun y => { y with ctOff := true } else s
  else s

/-- A cut-through frame all of whose lines are written. -/
def State.fullCt (s : State) (l : Nat) (d : Sending) : State :=
  let now := s.time.clock
  let s := s.onLayer l fun y => { y.leavePrev d now d.lines with
    sending := (y.sending.map fun x => if x.swap == d.swap then { x with closed := true } else x).filter Sending.left
    ctLate := 0
    ctGood := y.ctGood + 1 }
  if 3 ≤ (s.ilayer l).ctGood then s.flag F.LAYERn_ISTAT_CT_UNLOCKED false l else s

/-- At the end of its active interval a cut-through frame's missing lines are filled, and its lateness is judged; what its source completed
in the interval has been sent (R37, R40, R41). -/
def State.closeCt (s : State) (l : Nat) : State :=
  s.each ((s.ilayer l).sending.filter fun d => d.action == 2 && !d.closed && d.over s.time.clock) fun s d =>
    let s := s.onLayer l fun y => if (y.olderAt d.swap).all Before.same then { y with
      inn := { y.inn with done := y.inn.done.filter fun x => decide (d.start + d.span < x.doneAt) } } else y
    if d.lines.any fun p => !p.written then s.fillCt l d else s.fullCt l d

/-! ### The latch decision (R36, R37, R54) -/

/-- A decision: the state, the action (0 NEW, 1 REPEAT, 2 CUT_THROUGH), the identity, the lines. -/
abbrev Decision := State × Nat × Nat × List PLine

/-- The latest of the commits with a timestamp at or before an instant; the others. -/
def dueCommit (cs : List (Nat × Nat)) (t : Nat) : Option Nat × List (Nat × Nat) :=
  (((cs.filter fun c => decide (c.1 ≤ t)).foldl (fun (b : Option (Nat × Nat)) c => match b with
      | some x => if c.1 < x.1 then b else some c
      | none => some c) none).map Prod.snd, cs.filter fun c => decide (t < c.1))

/-- The commits that a latch point at instant `t` takes for frame `n` (R36, R54): the address, and the clip word, whose mode 1 or 2
restarts playback. -/
def Deciding.takeCommits (y : Deciding) (n t : Nat) : Deciding :=
  let a := dueCommit y.addrCommits t
  let c := dueCommit y.clipCommits t
  let y := { y with addrCommits := a.2, addr := a.1.getD y.addr, moved := a.1.isSome, clipCommits := c.2 }
  match c.1 with
  | some w => if bits w 12 2 == 0 then { y with clipMode := 0 }
    else { y with clipMode := bits w 12 2, clipId := bits w 0 12, clipStart := n }
  | none => y

/-- The tickets whose commits a latch point has taken or superseded are DONE (R36, R408). -/
def State.settleCommits (s : State) (l t : Nat) : State :=
  let due := s.ingest.holds.filter fun h => h.1 == l && decide (h.2.1 ≤ t)
  (s.onIngest fun g => { g with holds := g.holds.filter fun h => !(h.1 == l && decide (h.2.1 ≤ t)) }).each (due.map fun h => h.2.2)
    State.finishPart

/-- The source was running faster than one new frame per two wall frames at instant `t` (R37). -/
def State.sourceFast (v : State) (i : Intake) (t : Nat) : Bool :=
  match i.ends.filter fun e => decide (e ≤ t) with
  | a :: b :: _ => decide (a - b < 2 * periodU v.timing.code)
  | _ => false

/-- The source holds the layer at REPEAT, in cut-through mode too (R44): judged against the format and size that govern the frame. A
flow that differs from them beyond R45 does so as a receiver does (DEDUCED, assumption 80). -/
def State.sourceBlocks (v : State) (l : Nat) : Bool :=
  let r := v.f F.LAYERn_INGEST_INDEX l
  v.mismatch l || (v.f F.LAYERn_INGEST_KIND l == 1 && (!(v.b F.DPRXn_STATUS_MSA_STABLE r) || v.b F.DPRXn_STATUS_RATE_LIMIT r ||
    v.b F.DPRXn_STATUS_FORMAT_UNSUPPORTED r))

/-- Frame-synchronised decision of a layer of kind 1, 2 or 5 at instant `t` (R37); the frame of a head's run is NEW when its patterns differ
from those of the last frame sent (R386). -/
def State.decideSource (s v : State) (l t : Nat) : Decision :=
  let y := s.ilayer l
  let kind := v.f F.LAYERn_INGEST_KIND l
  let cand := if v.sourceBlocks l then [] else y.inn.done.filter fun d => decide (d.doneAt ≤ t)
  match cand with
  | [] =>
    (if (kind == 1 || kind == 2) && v.sourceFast y.inn t then s.inc F.LAYERn_REPEATS l else s, 1, 0, [])
  | d :: older =>
    let s := (s.add F.LAYERn_DROPS older.length l).onLayer l fun y => { y with
      inn := { y.inn with done := y.inn.done.filter fun x => decide (t < x.doneAt) }
      dropped := min 65535 (y.dropped + older.length)
      patsSent := some d.pats }
    if kind == 5 && y.patsSent == some d.pats then (s, 1, 0, []) else (s, 0, if kind == 5 then 0 else d.id, d.lines)

/-- Decision of a still layer (R36). -/
def State.decideStill (s v : State) (l : Nat) : Decision :=
  let y := s.ilayer l
  if y.moved || y.bound then (s, 0, y.addr, s.storedFrame y.addr (v.layerFmt l) (v.layerW l) (v.layerH l))
  else (s, 1, 0, [])

/-- The clip frame of wall frame `n` (R54). -/
def clipFrame (e : ClipEnt) (code n0 n mode : Nat) : Nat :=
  let r := nth rateTable code (60, 1)
  let k := (n - n0) * e.num * r.2 / (e.den * r.1)
  if mode == 1 then min k (e.count - 1) else k % max 1 e.count

/-- A directory entry in use fails at a latch point (R55). -/
def State.clipFailed (s : State) (l n : Nat) : State :=
  (((s.put F.LAYERn_CLIP_MODE 0 l).inc F.LAYERn_INCOMPLETE l).noteInputError n).clipReport (s.ilayer l).clipId |>.onLayer l fun y => { y with clipMode := 0 }

/-- Decision of a clip layer for frame `n` (R54, R55): NEW when the clip frame differs from the one last sent. -/
def State.decideClip (s v : State) (l n : Nat) : Decision :=
  let y := s.ilayer l
  if y.clipMode == 0 then (s, 1, 0, [])
  else match s.clip y.clipId with
    | none => (s.clipFailed l n, 1, 0, [])
    | some e =>
      let k := clipFrame e v.timing.code y.clipStart n y.clipMode + y.clipId * 2 ^ 32
      if y.clipLast == some k then (s, 1, 0, [])
      else
        (s.onLayer l fun y => { y with clipLast := some k }, 0, k,
          s.storedFrame (s.clipBase + e.base + k % 2 ^ 32 * e.stride) e.fmt e.width e.height)

/-- The lines of a cut-through frame before any is written. -/
def State.ctLines (s : State) (l : Nat) : List PLine :=
  (lineOrder (s.layerFmt l) (s.layerH l)).map fun q =>
    { line := q.1, plane := q.2, data := zeros (planeBytes (s.layerFmt l) (s.layerW l) q.2), written := false }

/-- The decision of layer `l` for frame `n` with the latch point at instant `t`; `v` holds the registers that govern. -/
def State.decideLayer (s v : State) (l n t : Nat) : Decision :=
  match v.f F.LAYERn_INGEST_KIND l with
  | 0 => (s, 1, 0, [])
  | 3 => s.decideClip v l n
  | 4 => s.decideStill v l
  | _ => if v.cutThrough l (s.ilayer l).ctOff && !(v.sourceBlocks l) then (s, 2, 0, v.ctLines l) else s.decideSource v l t

/-- Queue the cells of a frame with their pacing (R34) and take its tallies (R56); a cut-through frame begins with the lines written since
its latch point (R39); a whole frame is the previous one from then on (R40). -/
def State.queueFrame (s v : State) (l n action first : Nat) (lines : List PLine) : State :=
  let c := lines.foldl (fun a p => a + ceilDiv p.data.length 480) 0
  let t := v.latchAt l n
  let d : Sending := ⟨n, action, first, lines, c, 0, v.sendAt l n, periodU v.timing.code - v.vblank l, v.swapAt n, action != 2, []⟩
  let s := s.onLayer l fun y =>
    if action == 2 then { y with
      sending := y.sending ++ [((y.ctLines.filter fun q => decide (t ≤ q.1) && q.2.1 == v.layerFmt l).map fun q => q.2.2).foldl
        Sending.write d]
      ctLines := [] }
    else { y with sending := y.sending ++ [d], prev := some ⟨n, s.time.clock, lines, []⟩ }
  s.onRing fun r => { r with tallies := (l, (first + c) % 2 ^ 32) :: r.tallies.filter fun p => p.1 != l }

/-- The frame-assignment record (Table 2-5). -/
def faRecord (n l action kind dropped id first cells epoch : Nat) : Bytes :=
  let h := mkMsg 28 [(0, 4, n), (4, 1, l + 16 * action), (5, 1, kind), (6, 2, dropped), (8, 8, id), (16, 4, first),
    (20, 4, cells), (24, 4, epoch)]
  h ++ zeros 4 ++ complement h ++ zeros 4

/-- The bellwether decides frame `n` of layer `l`: sends it, and its record (R37, R58). Table 2-5 does not say what SOURCE_ID is in a
record of a cut-through frame or a repeat, nor FIRST_TALLY in one of a repeat: the model sends 0, and the tally that the next cell will
have (DESIGN CHOICE, assumption 78). -/
def State.assignFrame (s v : State) (l n t : Nat) : State :=
  let d := s.decideLayer v l n t
  let s := d.1
  let first := s.nextTally l
  let cells := d.2.2.2.foldl (fun a p => a + ceilDiv p.data.length 480) 0
  let dropped := (s.ilayer l).dropped
  let s := if d.2.1 == 1 then s else s.queueFrame v l n d.2.1 first d.2.2.2
  let s := s.onLayer l fun y => { y with
    bound := y.bound && d.2.1 == 1
    dropped := if d.2.1 == 1 then y.dropped else 0 }
  let s := s.flag F.LAYERn_ISTAT_SOURCE_OK (d.2.1 != 1) l
  if s.portUp 6 && !(s.b F.RING_CFG_SINGLE) then
    s.headSend 40 (faRecord n l d.2.1 (v.f F.LAYERn_INGEST_KIND l) dropped d.2.2.1 first (if d.2.1 == 1 then 0 else cells)
      s.ingest.configEpoch)
  else s

/-- Assign frame `n` by the view `v` of its configuration, unless its send instant fell before this head became bellwether. -/
def State.assignSince (s v : State) (l n : Nat) : State :=
  if s.ring.bwSince ≤ v.sendAt l n then s.assignFrame v l n (v.latchAt l n) else s

/-- A frame whose latch point passed on a new bellwether without a record: decided if it took over by A_n (R147). -/
def State.assignLate (s : State) (l : Nat) : State :=
  match (s.ilayer l).undecided with
  | some n =>
    if !s.isBw then s
    else
      let s := s.onLayer l fun y => { y with undecided := none }
      s.assignSince (s.frameView l n).2 l n
  | none => s

/-- A new bellwether decides the frames that it passed without a record, those under an older configuration first (R33, R147). -/
def State.lateAssign (s : State) (l : Nat) : State :=
  (s.each ((s.ilayer l).before.map fun b => b.at_ - 1) fun s t => s.inFrame l t fun s => s.assignLate l).assignLate l

/-- The standby passes a latch point: the frame before it should have had its record (R60). -/
def State.standbyLatch (s : State) (l n : Nat) : State :=
  let y := s.ilayer l
  let s := if y.undecided.isSome then (s.inc F.FA_STATUS_FA_LATE).flag F.LAYERn_ISTAT_SOURCE_OK false l else s
  s.onLayer l fun y => { y with undecided := if y.recordFor == some n then none else some n }

/-- Decide frame `n` of layer `l`, whose registers are those of `v`, at its latch point. -/
def State.decideFrame (s v : State) (l n : Nat) : State :=
  let t := v.latchAt l n
  let s := s.onLayer l fun y => { y with toDeciding := { y.toDeciding.takeCommits n t with latched := some (v.swapAt n) } }
  let s := if !(v.b F.LAYERn_INGEST_ENABLE l) then s.flag F.LAYERn_ISTAT_SOURCE_OK false l
    else if s.isBw then s.assignFrame v l n t
    else if s.f F.RING_STATUS_STATE == hsStandby || s.f F.RING_STATUS_STATE == hsResync then s.standbyLatch l n
    else s
  s.settleCommits l t

/-- Handle the latch point of frame `n` of layer `l` under the registers of `v`: frames of a newer configuration bind the layer to it, and
a frame before them is decided as if they had not come (R33). -/
def State.latchLayer (s v : State) (l n : Nat) : State :=
  (((s.lateAssign l).closeCt l).takeNext l (v.swapAt n)).inFrame l (v.swapAt n) fun s => s.decideFrame v l n

/-- LAYER_LATCH (R37): the latch point that has come last, judged at its own instant; nothing once it has been handled. -/
def execLayerLatch (layer : Fin 16) (s : State) : Host.Outcome State Fault Refusal :=
  .next (if !(s.isHead && s.pwr.up && s.time.stepped) then s
    else match s.latchView layer with
      | some q => s.latchLayer q.2 layer q.1
      | none => s)

/-- Cell `k` of the lines: its line and its index in the line (R56). -/
def lineCell : List PLine → Nat → Option (PLine × Nat)
  | [], _ => none
  | p :: r, k =>
    if k < ceilDiv p.data.length 480 then some (p, k) else lineCell r (k - ceilDiv p.data.length 480)

/-- Cell `k` of a frame being sent, and the uncorrectable words of frame memory in it. -/
def Sending.cell (d : Sending) (l k : Nat) : Option (Bytes × List Nat) :=
  (lineCell d.lines k).map fun q =>
    let pay := (q.1.data.drop (480 * q.2)).take 480
    (cellBody l q.1.filled (k == 0) (k + 1 == d.cells) ((d.first + k) % 2 ^ 32) q.1.line q.1.plane q.2 pay.length
      (d.frame % 2 ^ 32) pay, (q.1.bad.filter fun x => x.1 == q.2).map (·.2))

/-- The samples of the line are there to be sent: written, or filled. -/
def PLine.ready (p : PLine) : Bool := p.written || p.filled

/-- The first cell from `next` on whose line is there; `base` cells come before the lines. -/
def readyFrom (next : Nat) : Nat → List PLine → Option Nat
  | _, [] => none
  | base, p :: rest =>
    let stop := base + ceilDiv p.data.length 480
    if p.ready && decide (max base next < stop) then some (max base next) else readyFrom next stop rest

/-- The pacing of R34 lets cell `k` go. -/
def Sending.paced (d : Sending) (now k : Nat) : Bool :=
  decide (k < d.cells) && decide (d.start * d.cells + k * d.span ≤ now * d.cells)

/-- The cell that goes next: one that was passed over while its cut-through line was not written, or the first one that is due (R34, R39). -/
def Sending.pick (d : Sending) (now : Nat) : Option Nat :=
  match d.gaps.find? fun k => (lineCell d.lines k).any fun q => q.1.ready with
  | some k => some k
  | none => (readyFrom d.next 0 d.lines).filter (d.paced now)

/-- Cell `k` has been sent; those before it that wait for their lines are passed over. -/
def Sending.advance (d : Sending) (k : Nat) : Sending :=
  if k < d.next then { d with gaps := d.gaps.filter (· != k) }
  else { d with next := k + 1, gaps := d.gaps ++ (List.range (k - d.next)).map (d.next + ·) }

/-- A cell of a frame has been sent; a frame all of whose cells are sent goes, a cut-through one only when its interval has ended. -/
def ILayer.sent (y : ILayer) (swap k : Nat) : ILayer :=
  { y with sending := (y.sending.map fun x => if x.swap == swap then x.advance k else x).filter Sending.left }

/-- The uncorrectable words that reading cell data out of frame memory meets: those of a clip or still at their addresses; whether a frame
buffer holds a bad word of the layer region is open, since placement in it is internal (R439; a free choice, assumption 15). -/
def State.readOut (s : State) (l : Nat) (bad : List Nat) : State × List Nat :=
  match s.mst.bad.find? fun g => decide (0x40000000 ≤ g) && decide (g < s.clipBase) with
  | some g => if 3 ≤ s.f F.LAYERn_INGEST_KIND l ∧ s.f F.LAYERn_INGEST_KIND l ≤ 4 then (s, bad)
      else (s.tickFresh, if Config.freeBool s.fresh then [g] else [])
  | none => (s, bad)

/-- A cell of frame `n` has been read with uncorrectable words in it: an error of memory for each granule, and an ingest error of the frame
(R431, Table 13-2). -/
def State.readOutBad (s : State) (n : Nat) (bad : List Nat) : State :=
  s.when (!bad.isEmpty) fun s =>
    (s.each (bad.foldl (fun x g => if x.any fun y => y / 64 == g / 64 then x else x ++ [g]) []) fun s g => s.memError g true (g % 64 / 8) 3).noteInputError n

/-- LAYER_CELL_SEND (R34): the next due cell of the layer, the earlier frame first; a cell with an uncorrectable word goes
out stomped (R431). -/
def execLayerCellSend (layer : Fin 16) (s : State) : Host.Outcome State Fault Refusal :=
  let l := layer.val
  .next (if !(s.isHead && s.on iMEM && s.f F.RING_STATUS_STATE != hsDemoted) then s
    else
      let s := (s.lateAssign l).closeCt l
      match (s.ilayer l).sending.findSome? fun d => (d.pick s.time.clock).bind fun k => (d.cell l k).map fun c => (d.swap, d.frame, k, c) with
      | none => s
      | some (swap, n, k, body, words) =>
        let q := s.readOut l words
        let s := q.1.readOutBad n q.2
        let c := if !q.2.isEmpty then body ++ complement (toLE 8 (crc64 body).toNat) else sealCell body
        ((s.digestCell body).sendRings c).onLayer l fun y => y.sent swap k)

/-- A commit waits for its latch point, under the configuration in use and under those with frames still to decide (R33, R36). -/
def State.addCommit (s : State) (l : Nat) (f : Deciding → Deciding) : State :=
  s.onLayer l fun y => { y with
    toDeciding := f y.toDeciding, before := y.before.map fun b => { b with dec := f b.dec } }

/-- LAYERn_ADDR_LO holds a written address (R70). -/
def State.storeAddr (s : State) (l v : Nat) : State := s.put F.LAYERn_ADDR_LO (v / 4096) l

/-- A write of LAYERn_ADDR_LO with the commit timestamp `t` (R36, R223, R440). -/
def State.commitAddr (s : State) (l v t : Nat) : State :=
  let s := s.storeAddr l v
  let a := s.f F.LAYERn_ADDR_LO l * 4096 + s.f F.LAYERn_ADDR_HI l * 2 ^ 32
  s.addCommit l fun y => { y with addrCommits := y.addrCommits ++ [(t, a)] }

/-- LAYER_ADDR_COMMIT (R36): a write that breaks R440 is rejected. -/
def execLayerAddrCommit (layer : Fin 16) (value : Nat) (s : State) : Host.Outcome State Fault Refusal :=
  let l := layer.val
  let a := value % 2 ^ 32 / 4096 * 4096 + s.f F.LAYERn_ADDR_HI l * 2 ^ 32
  .next (if s.isHead && s.on iMEM && s.stillOk a (s.layerFmt l) (s.layerW l) (s.layerH l) then s.commitAddr l value s.time.clock else s)

/-- Why a write of LAYERn_CLIP is not acceptable (R55): 0 it is, 1 RANGE for its kind, size or format, 2 the entry is not
valid. -/
def State.clipCheck (s : State) (l v : Nat) : Nat :=
  let m := bits v 12 2
  if m == 0 then 0
  else if m == 3 || s.f F.LAYERn_INGEST_KIND l != 3 then 1
  else match s.clip (bits v 0 12) with
    | none => 2
    | some e => if e.fmt == s.layerFmt l && e.width == s.layerW l && e.height == s.layerH l then 0 else 1

/-- A check of a clip word has read its directory entry: one whose complement does not match is reported (R51). -/
def State.clipMet (s : State) (l v : Nat) : State :=
  if s.f F.LAYERn_INGEST_KIND l == 3 && decide (1 ≤ bits v 12 2) && s.clipBroken (bits v 0 12) then s.clipReport (bits v 0 12) else s

/-- LAYERn_CLIP holds a written word (R68). -/
def State.storeClip (s : State) (l v : Nat) : State := (s.put F.LAYERn_CLIP_CLIP_ID v l).put F.LAYERn_CLIP_MODE (v / 4096) l

/-- A write of LAYERn_CLIP with the commit timestamp `t` (R36, R54, R223). -/
def State.commitClip (s : State) (l v t : Nat) : State :=
  (s.storeClip l v).addCommit l fun y => { y with clipCommits := y.clipCommits ++ [(t, v % 2 ^ 32)] }

/-- LAYER_CLIP_WRITE (R55): a rejected one has read the entry (R51). -/
def execLayerClipWrite (layer : Fin 16) (value : Nat) (s : State) : Host.Outcome State Fault Refusal :=
  .next (if !(s.isHead && s.on iMEM) then s
    else if s.clipCheck layer.val value == 0 then s.commitClip layer.val value s.time.clock
    else s.clipMet layer.val value)

/-! ### Following the record (R58 to R60) -/

/-- The source frame that a record names, under the registers of `v` (R60): its identity here, and its lines. -/
def State.recordLines (s v : State) (l kind id : Nat) : Option (Nat × List PLine) :=
  let done := (s.ilayer l).inn.done
  match kind with
  | 1 =>
    let q := s.f F.DPRXn_PERIOD (v.f F.LAYERn_INGEST_INDEX l) / 4
    (done.find? fun d => decide (d.id ≤ id + q) && decide (id ≤ d.id + q)).map fun d => (d.id, d.lines)
  | 2 => (done.find? fun d => d.id == id % 2 ^ 32).map fun d => (d.id, d.lines)
  | 3 => (s.clip (bits id 32 12)).map fun e =>
      (id, s.storedFrame (s.clipBase + e.base + id % 2 ^ 32 * e.stride) e.fmt e.width e.height)
  | 4 => if s.stillOk id (v.layerFmt l) (v.layerW l) (v.layerH l) then
      some (id, s.storedFrame id (v.layerFmt l) (v.layerW l) (v.layerH l)) else none
  | 5 => done.head?.map fun d => (d.id, d.lines)
  | _ => none

/-- The standby has sent what a record of kind `kind` named: the source frames up to it are used, and a takeover goes on from it. -/
def Deciding.follow (y : Deciding) (kind id : Nat) : Deciding :=
  let y := { y with bound := false }
  match kind with
  | 3 => { y with clipLast := some id }
  | 4 => { y with addr := id }
  | _ => match y.inn.done.find? fun d => d.id == id with
    | some d => { y with inn := { y.inn with done := y.inn.done.filter fun x => decide (d.doneAt < x.doneAt) }, patsSent := some d.pats }
    | none => y

/-- A record that cannot be followed (R60). -/
def State.noMatch (s : State) (n : Nat) : State := (s.inc F.FA_NOMATCH).noteInputError n

/-- Follow a sound record of layer `l`, whose frame is `q` (R60): a late one is counted once, when it comes or when the next latch point
passes without it. -/
def State.followFrame (s : State) (b : Bytes) (l : Nat) (q : FrameOf) : State :=
  let action := bits (le b 4 1) 4 3
  let kind := le b 5 1
  let first := le b 16 4
  let n := q.1
  let waited := (s.ilayer l).undecided == some n
  let s := s.onLayer l fun y => { y with
    recordFor := some n
    undecided := if waited then none else y.undecided }
  let s := if action == 1 then s
    else s.onRing fun r => { r with records := (l, le b 0 4, first, le b 20 4) :: r.records.filter fun x => x.1 != l }
  let ok := fun (s : State) => s.flag F.LAYERn_ISTAT_SOURCE_OK true l
  let no := fun (s : State) => s.flag F.LAYERn_ISTAT_SOURCE_OK false l
  if decide (q.2.sendAt l n < s.time.clock) then no (if waited then s.inc F.FA_STATUS_FA_LATE else s)
  else if le b 24 4 != s.ingest.configEpoch % 2 ^ 32 then no (s.noMatch n)
  else match action with
    | 0 => match s.recordLines q.2 l kind (le b 8 8) with
      | some r => ok ((s.queueFrame q.2 l n 0 first r.2).onLayer l fun y => { y with toDeciding := y.toDeciding.follow kind r.1 })
      | none => no ((s.noMatch n).when (kind == 3 && s.clipBroken (bits (le b 8 8) 32 12)) fun s => s.clipReport (bits (le b 8 8) 32 12))
    | 2 => ok (s.queueFrame q.2 l n 2 first (q.2.ctLines l))
    | _ => no s

/-- Follow one sound record (R60). The record of the first frame under a committed flock binds the layer, as the bellwether's latch point
has, though the standby's own may be yet to come (R33). -/
def State.followRecord (s : State) (b : Bytes) : State :=
  let l := bits (le b 4 1) 0 4
  let q := s.frameView l (le b 0 4)
  let t := q.2.swapAt q.1
  ((s.closeCt l).takeNext l t).inFrame l t fun s => s.followFrame b l q

/-- A frame-assignment record at this head (R59, R60). -/
def State.rxFaRecord (s : State) (b : Bytes) : State :=
  if !(s.isHead && s.pwr.up) then s
  else if (b.drop 32).take 28 != complement (b.take 28) then s.inc F.FA_STATUS_FA_BAD
  else if s.f F.RING_STATUS_STATE == hsStandby || s.f F.RING_STATUS_STATE == hsResync then s.followRecord b
  else s

/-- FA_RECORD_RX (R60). -/
def execFaRecordRx (record : Bytes) (s : State) : Host.Outcome State Fault Refusal := .next (s.rxFaRecord record)

end Sys2Proof.Machine
end

