-- ==== Sys2Proof/Machine/Korty.lean ====
section
/-! DEFINITION. Korty instruction words (R348, Table 10-2, R373): fields, and the words that a load accepts. -/
set_option Elab.async false
namespace Sys2Proof.Machine

def kOp (w : Nat) : Nat := bits w 56 8
def kRd (w : Nat) : Nat := bits w 51 5
def kRs1 (w : Nat) : Nat := bits w 46 5
def kRs2 (w : Nat) : Nat := bits w 41 5
/-- MOD of formats R and I. -/
def kMod (w : Nat) : Nat := bits w 32 9
def kImm (w : Nat) : Nat := bits w 0 32
def kCond (w : Nat) : Nat := bits w 41 4
def kTarget (w : Nat) : Nat := bits w 0 13
def kQa (w : Nat) : Nat := bits w 37 4
def kQb (w : Nat) : Nat := bits w 33 4
/-- Stage fields of format P. -/
def kStage (w : Nat) : Nat := bits w 0 33
def kS (w : Nat) : Bool := bitOf w 32
def kTv (w : Nat) : Bool := bitOf w 33
def kU (w : Nat) : Bool := bitOf w 34
def kHigh (w : Nat) : Bool := bitOf w 35

/-- What a field of a word must hold: anything, or 0, or no bit outside a mask. -/
def fits (mask v : Nat) : Bool := Nat.land v mask == v

/-- The bits that each opcode may use below [63:56], as a mask of [55:0] (R348, and the field rules of the instructions). -/
def kMask (op : Nat) : Option Nat :=
  let rd := 31 * 2 ^ 51
  let rs1 := 31 * 2 ^ 46
  let rs2 := 31 * 2 ^ 41
  let qa := 15 * 2 ^ 37
  let qb := 15 * 2 ^ 33
  let m := fun (n : Nat) => n * 2 ^ 32
  let imm := 2 ^ 32 - 1
  let r := rd + rs1 + rs2
  match op with
  | 0x00 => some 0
  | 0x01 | 0x02 => some (r + m 3)
  | 0x03 | 0x04 | 0x05 | 0x06 | 0x07 | 0x08 => some (r + m 1)
  | 0x09 => some (r + m 13)
  | 0x0A | 0x0B => some (r + m 5)
  | 0x0C => some (rs1 + rs2)
  | 0x11 => some (rd + rs1 + m 3 + imm)
  | 0x13 | 0x14 | 0x15 => some (rd + rs1 + m 1 + imm)
  | 0x16 | 0x17 | 0x18 => some (rd + rs1 + m 1 + 31)
  | 0x1C => some (rs1 + imm)
  | 0x1D => some (rd + 255)
  | 0x20 => some (qa + rs1 + rs2)
  | 0x21 => some (rd + qb + 1)
  | 0x22 => some (qa + qb)
  | 0x30 => some (rd + rs1 + 15 * 2 ^ 41 + 8191)
  | 0x40 | 0x41 | 0x42 => some (rd + rs1 + imm)
  | 0x43 | 0x44 => some (15 * 2 ^ 51 + rs1 + imm)
  | 0x50 => some (rs1 + rs2 + qa + 31)
  | 0x51 => some (rs1 + 3)
  | 0x52 | 0x53 | 0x54 | 0x55 | 0x56 => some 3
  | 0x57 => some (rs1 + 0xF3)
  | 0x58 => some (rs1 + 0x13)
  | 0x59 => some (rs2 + qa + 0xFFF)
  | 0x60 => some (rs1 + imm)
  | 0x61 => some (0xFF03)
  | 0x62 => some 0xFF
  | 0x63 => some 0xFFFFF
  | 0x64 => some 0x7F
  | 0x70 => some (rs1 + 3)
  | 0x71 => some rd
  | 0x72 => some (rs1 + rs2)
  | 0x73 => some (rs1 + 1)
  | 0x7C | 0x7E => some 0
  | 0x7D => some (m 1 + 0xFFFF)
  | _ => none

/-- A word that a load accepts (R350, R373). PATGEN may carry the stage fields of either role (R393 lets roles share a
program), not those of both: [3:0] are unused on a head and [11:8] on a tile. -/
def kortyOk (w : Nat) : Bool :=
  match kMask (kOp w) with
  | none => false
  | some m => fits m (bits w 0 56) && (kOp w != 0x64 || decide (kImm w ≤ 64)) &&
      (kOp w != 0x70 || kRs1 w == 0 || decide (2 ≤ kImm w)) && (kOp w != 0x59 || bits w 0 4 == 0 || bits w 8 4 == 0)

end Sys2Proof.Machine
end

