-- ==== Sys2Proof/Machine/Compose.lean ====
section
/-! DEFINITION. Composition in the tile (spec/07_composition.md): from lamp to pasture, sampling, colour, blending; exact
arithmetic with the roundings that the rules name. -/
set_option Elab.async false
namespace Sys2Proof.Machine

/-! ### Tables (R253, R279) -/

/-- The reset content of a table entry (Table 7-5, R279). -/
def tabReset (id idx : Nat) : Nat :=
  if 0x710 ≤ id ∧ id < 0x714 then
    (if idx % 8 = 3 then 256 * (64 - idx / 8) else if idx % 8 = 4 then 256 * (idx / 8) else 0)
  else if 0x720 ≤ id ∧ id < 0x724 then 16 * idx
  else if 0x730 ≤ id ∧ id < 0x733 then 16 * idx
  else if id = 0x800 then 16384
  else 0

/-- The memory instance of Table 17-2 that holds a table of fold `f`. -/
def tabInstance (id f : Nat) : Nat := if id = 0x800 then 16 + f else 12 + f

/-- What memory BIST has left at an entry that no write has reached since. -/
def State.wipedAt (s : State) (id idx : Nat) : Option Nat :=
  match s.comp.view with
  | none => none
  | some f =>
    match s.comp.wiped.find? (fun w => w.1 == tabInstance id f) with
    | none => none
    | some (_, seed, since) =>
      let key := id * 2 ^ 24 + idx
      if since.contains key then none
      else match seed with
        | none => some 0
        | some k => some (Config.free (k + key) % 2 ^ 32)

/-- A table entry of the folds. -/
def State.tab (s : State) (id idx : Nat) : Nat :=
  match s.wipedAt id idx with
  | some v => v
  | none => match s.comp.tabs.get (id * 2 ^ 24 + idx) with
    | 0 => tabReset id idx
    | v + 1 => v

/-- The state with the tables of fold `n` in view. -/
def State.asFold (s : State) (n : Nat) : State := s.onComp fun c => { c with view := some n }

/-- Write a table entry of the folds. -/
def State.setTab (s : State) (id idx v : Nat) : State :=
  let key := id * 2 ^ 24 + idx
  let mine := fun (i : Nat) => if id = 0x800 then decide (16 ≤ i) else decide (i < 16)
  s.onComp fun c => { c with
    tabs := c.tabs.set key (if v = tabReset id idx then 0 else v + 1)
    wiped := c.wiped.map fun w => if mine w.1 then (w.1, w.2.1, key :: w.2.2.filter (· != key)) else w
    tabBad := (c.tabBad.map fun b => if b.key == id || (b.key == 0x10000 + idx / 768 && id == 0x800) then
      { b with left := b.left.filter (· != idx) } else b).filter fun b => !b.left.isEmpty }

/-- A scaler bank is valid when every phase's coefficients sum to 16,384 (R253). -/
def State.bankOk (s : State) (b : Nat) : Bool :=
  (List.range 64).all fun p => (List.range 8).foldl (fun a j => a + sgn 16 (s.tab (0x710 + b) (8 * p + j))) (0 : Int) == 16384

/-! ### From lamp to pasture (R238 to R242) -/

def State.wp (s : State) (g : Nat) : Nat := s.f F.COMP_GRPg_SIZE_WP g
def State.hp (s : State) (g : Nat) : Nat := s.f F.COMP_GRPg_SIZE_HP g
/-- The group clones another (R323). -/
def State.isClone (s : State) (g : Nat) : Bool := s.b F.LAMP_GRPg_CFG_CLONE_EN g
/-- The group is composed: enabled and not a clone (R238). -/
def State.composed (s : State) (g : Nat) : Bool := s.b F.COMP_GRPg_CTL_ENABLE g && !(s.isClone g)

/-- Viewer coordinates of a lamp (Table 7-4). -/
def viewer (rot wp hp u v : Nat) : Nat × Nat :=
  match rot with
  | 0 => (u, v)
  | 1 => (hp - 1 - v, u)
  | 2 => (wp - 1 - u, hp - 1 - v)
  | _ => (v, wp - 1 - u)

/-- X, Y and Z of R240 at viewer position (a, b), in units of 2^-41. -/
def State.mapXYZ (s : State) (g a b : Nat) : Int × Int × Int :=
  let w := fun k => s.sf F.COMP_GRPg_Wk g k
  let p : Int := 2 * a + 1
  let q : Int := 2 * b + 1
  ((w 0 * p + w 1 * q) * 65536 + w 2 * 134217728, (w 3 * p + w 4 * q) * 65536 + w 5 * 134217728, w 6 * p + w 7 * q + w 8 * 2048)

/-- The mapping is valid: Z > 0 at the corner lamps of the viewer grid (R241). -/
def State.mapOk (s : State) (g : Nat) : Bool :=
  let odd := s.f F.COMP_GRPg_CTL_ROT g % 2 == 1
  let na := if odd then s.hp g else s.wp g
  let nb := if odd then s.wp g else s.hp g
  s.wp g == 0 || s.hp g == 0 ||
    ([(0, 0), (na - 1, 0), (0, nb - 1), (na - 1, nb - 1)].all fun c => decide (0 < (s.mapXYZ g c.1 c.2).2.2))

/-- The sample point of a lamp in units of 2^-10 pixel; none for the background (R242). -/
def State.samplePoint (s : State) (g u v : Nat) : Option (Nat × Nat) :=
  if !(s.mapOk g) then none
  else
    let ab := viewer (s.f F.COMP_GRPg_CTL_ROT g) (s.wp g) (s.hp g) u v
    let m := s.mapXYZ g ab.1 ab.2
    let x := roundDiv (m.1 * 1024) m.2.2.toNat
    let y := roundDiv (m.2.1 * 1024) m.2.2.toNat
    if 0 ≤ x ∧ x < 67108864 ∧ 0 ≤ y ∧ y < 67108864 then some (x.toNat, y.toNat) else none

/-! ### Sampling a layer (R243 to R248) -/

/-- The source window (R244). -/
def State.window (s : State) (l : Nat) : Nat × Nat × Nat × Nat :=
  let ex := s.f F.LAYERn_SRC_EXTENT_X1 l
  let ey := s.f F.LAYERn_SRC_EXTENT_Y1 l
  (s.f F.LAYERn_SRC_ORIGIN_X0 l, s.f F.LAYERn_SRC_ORIGIN_Y0 l, if ex == 0 then s.layerW l else ex, if ey == 0 then s.layerH l else ey)

/-- The window is not empty and lies within the committed size. -/
def State.windowOk (s : State) (l : Nat) : Bool :=
  let w := s.window l
  decide (w.1 < w.2.2.1) && decide (w.2.1 < w.2.2.2) && decide (w.2.2.1 ≤ s.layerW l) && decide (w.2.2.2 ≤ s.layerH l)

/-- A sample point lies in the layer's rectangle, half-open (R16). -/
def State.inRect (s : State) (l : Nat) (p : Nat × Nat) : Bool :=
  decide (64 * s.f F.LAYERn_DST_X0 l ≤ p.1) && decide (p.1 < 64 * s.f F.LAYERn_DST_X1 l) &&
    decide (64 * s.f F.LAYERn_DST_Y0 l ≤ p.2) && decide (p.2 < 64 * s.f F.LAYERn_DST_Y1 l)

def State.tlayer (s : State) (l : Nat) : TLayer := nth s.comp.layers l {}
def State.onTLayer (s : State) (l : Nat) (f : TLayer → TLayer) : State :=
  s.onComp fun c => { c with layers := modAt c.layers l f }

/-- The layer covers the point in slot `k` (R243). -/
def State.covers (s : State) (l k : Nat) (p : Nat × Nat) : Bool :=
  s.b F.LAYERn_CTL_ENABLE l && bitOf (s.f F.LAYERn_CTL_SLOT_MASK l) k && (s.tlayer l).shown.isSome && s.windowOk l && s.inRect l p

/-- A position: base index and phase of the rational `num / den` (R245). -/
def phaseOf (num : Int) (den : Nat) : Int × Nat :=
  let i := num / (den : Int)
  let f := roundDivN ((num - i * den).toNat * 64) den
  if f = 64 then (i + 1, 0) else (i, f)

/-- One axis of a layer at a point: lower end of the window, of the rectangle; lengths of both; `x` in units of 2^-10. -/
structure Axis where
  s0 : Nat
  s1 : Nat
  x0 : Nat
  x1 : Nat
  x : Nat
  deriving DecidableEq, Repr

/-- The source position s as a numerator over `den` (R245). -/
def Axis.den (a : Axis) : Nat := a.x1 - a.x0
def Axis.num (a : Axis) : Int := a.s0 * a.den + ((a.x : Int) - a.x0) * ((a.s1 : Int) - a.s0)

/-- How a component is sampled along an axis: whether it is subsampled there, and its siting. -/
structure Siting where
  sub : Bool
  mid : Bool
  deriving DecidableEq, Repr

/-- Base index and phase along an axis (R245, R247). -/
def Axis.pos (a : Axis) (t : Siting) : Int × Nat :=
  if t.sub then phaseOf (2 * a.num - (if t.mid then 2 else 1) * a.den) (4 * a.den)
  else phaseOf (2 * a.num - a.den) (2 * a.den)

/-- The nearest index along an axis (R248). -/
def Axis.nearest (a : Axis) (t : Siting) : Int :=
  if t.sub then (2 * a.num - (if t.mid then 2 else 1) * a.den + 2 * a.den) / (4 * a.den : Nat)
  else a.num / (a.den : Nat)

/-- Index range along an axis (R246, R247). -/
def Axis.range (a : Axis) (t : Siting) : Nat × Nat := if t.sub then (a.s0 / 2, (a.s1 - 1) / 2) else (a.s0, a.s1 - 1)

/-- Clamp an index into a range. -/
def clampIdx (r : Nat × Nat) (i : Int) : Nat := (clampI r.1 r.2 i).toNat

/-- The plane and the sample index in a plane line of sample `i` of component `c` (Table 7-3, R249). -/
def compPlace (f c i : Nat) : Nat × Nat :=
  match fmtSampling f, fmtPlanes f with
  | 0, _ => (0, 3 * i + c)
  | 1, 1 => (0, if c = 0 then 3 * i + 1 else if c = 1 then 3 * i else 3 * i + 2)
  | 2, 1 => (0, if c = 0 then i / 2 * 4 + 1 + i % 2 * 2 else if c = 1 then 4 * i else 4 * i + 2)
  | _, 2 => if c = 0 then (0, i) else (1, 2 * i + (c - 1))
  | _, _ => (c, i)

/-- The siting of component `c` of a layer along x and y. -/
def State.siting (s : State) (l c : Nat) : Siting × Siting :=
  let m := fmtSampling (s.layerFmt l)
  (⟨c != 0 && (m == 2 || m == 3), s.b F.LAYERn_CTL_SITING_H l⟩, ⟨c != 0 && m == 3, s.b F.LAYERn_CTL_SITING_V l⟩)

/-- The axes of a layer at a point. -/
def State.axes (s : State) (l : Nat) (p : Nat × Nat) : Axis × Axis :=
  let w := s.window l
  (⟨w.1, w.2.2.1, 64 * s.f F.LAYERn_DST_X0 l, 64 * s.f F.LAYERn_DST_X1 l, p.1⟩,
   ⟨w.2.1, w.2.2.2, 64 * s.f F.LAYERn_DST_Y0 l, 64 * s.f F.LAYERn_DST_Y1 l, p.2⟩)

/-- A sample of a stored frame, extended to Q0.16 (R233, R234). -/
def TFrame.texel (fr : TFrame) (f c x y : Nat) : Nat :=
  let pl := compPlace f c x
  let d := fmtDepth f
  let pos := pl.2 * d
  match fr.cells.find? fun e => e.1 == y && e.2.1 == pl.1 && e.2.2.1 == pos / 3840 with
  | some e => toQ16 d (bits (le e.2.2.2 (pos % 3840 / 8) 3) (pos % 8) d)
  | none => 0

/-- Coefficient of a scaler bank (R246). -/
def State.coef (s : State) (bank phase j : Nat) : Int := sgn 16 (s.tab (0x710 + bank) (8 * phase + j))

/-- The polyphase filter (R246). -/
def State.filter (s : State) (hb vb : Nat) (px py : Int × Nat) (rx ry : Nat × Nat) (get : Nat → Nat → Nat) : Nat :=
  let row := fun (y : Nat) => (List.range 8).foldl
    (fun a j => a + s.coef hb px.2 j * (get (clampIdx rx (px.1 - 3 + j)) y : Nat)) (0 : Int)
  let sum := (List.range 8).foldl (fun a j => a + s.coef vb py.2 j * row (clampIdx ry (py.1 - 3 + j))) (0 : Int)
  (clampI 0 65535 (roundDiv sum 268435456)).toNat

/-- One component of a layer at a point (R245 to R248). -/
def State.component (s : State) (l : Nat) (fr : TFrame) (p : Nat × Nat) (c : Nat) : Nat :=
  let a := s.axes l p
  let t := s.siting l c
  let get := fr.texel (s.layerFmt l) c
  if s.b F.LAYERn_CTL_FILTER l then
    get (clampIdx (a.1.range t.1) (a.1.nearest t.1)) (clampIdx (a.2.range t.2) (a.2.nearest t.2))
  else s.filter (s.f F.LAYERn_CTL_HBANK l) (s.f F.LAYERn_CTL_VBANK l) (a.1.pos t.1) (a.2.pos t.2) (a.1.range t.1) (a.2.range t.2) get

/-- The sample indices of component `c` that a point reads, along x and y. -/
def State.reads (s : State) (l : Nat) (p : Nat × Nat) (c : Nat) : List Nat × List Nat :=
  let a := s.axes l p
  let t := s.siting l c
  let one := fun (x : Axis) (t : Siting) =>
    if s.b F.LAYERn_CTL_FILTER l then [clampIdx (x.range t) (x.nearest t)]
    else ((List.range 8).map fun j => clampIdx (x.range t) ((x.pos t).1 - 3 + j)).eraseDups
  (one a.1 t.1, one a.2 t.2)

/-- The cells (line, plane, cell) of a layer that one lamp can read (R256). -/
def State.lampCells (s : State) (l g u v : Nat) : List (Nat × Nat × Nat) :=
  match s.samplePoint g u v with
  | none => []
  | some p =>
    if !(s.inRect l p) then []
    else ((List.range 3).flatMap fun c =>
      let r := s.reads l p c
      r.2.flatMap fun y => r.1.map fun x =>
        let q := compPlace (s.layerFmt l) c x
        (y, q.1, q.2 * fmtDepth (s.layerFmt l) / 3840)).eraseDups

/-- The lamps of a group in row-major order. -/
def State.lamps (s : State) (g : Nat) : List (Nat × Nat) :=
  (List.range (s.hp g)).flatMap fun v => (List.range (s.wp g)).map fun u => (u, v)

/-- The cells of a layer that some lamp of the enabled groups can read (R256). -/
def State.neededCells (s : State) (l : Nat) : List (Nat × Nat × Nat) :=
  if !(s.b F.LAYERn_CTL_ENABLE l) || !(s.windowOk l) then []
  else (((List.range 4).filter s.composed).flatMap fun g => (s.lamps g).flatMap fun q => s.lampCells l g q.1 q.2).eraseDups

/-- A stored frame holds every cell it needs (R256). -/
def State.frameComplete (s : State) (l : Nat) (fr : TFrame) : Bool :=
  (s.neededCells l).all fun c => fr.cells.any fun e => e.1 == c.1 && e.2.1 == c.2.1 && e.2.2.1 == c.2.2

/-! ### Colour and blending (R249 to R252) -/

/-- A 3 × 4 matrix of signed Q3.16 applied to a vector, rounded and clamped (R249, R252). -/
def State.matrix (s : State) (f : Fld) (n : Nat) (top : Int) (x : List Nat) : List Nat :=
  (List.range 3).map fun i =>
    let sum := (List.range 3).foldl (fun a j => a + s.sf f n (4 * i + j) * (nth x j 0 : Nat)) (0 : Int)
    (clampI 0 top (roundDiv (sum + s.sf f n (4 * i + 3) * 65536) 65536)).toNat

/-- The wall matrix: its coefficients have one index. -/
def State.wallMatrix (s : State) (x : List Nat) : List Nat :=
  (List.range 3).map fun i =>
    let m := fun j => s.sf F.COMP_WCSCk 0 (4 * i + j)
    let sum := (List.range 3).foldl (fun a j => a + m j * (nth x j 0 : Nat)) (0 : Int)
    (clampI 0 1048575 (roundDiv (sum + m 3 * 65536) 65536)).toNat

/-- A transfer LUT at `v` (R250). -/
def State.lut (s : State) (id : Nat) (top : Int) (v : Nat) : Nat :=
  let i := v / 16
  let e : Int := (s.tab id i : Nat)
  let next : Int := if i < 4095 then (s.tab id (i + 1) : Nat) else 2 * e - (s.tab id 4094 : Nat)
  (clampI 0 top (roundDiv (16 * e + (next - e) * (v % 16 : Nat)) 16)).toNat

/-- The entries of a transfer LUT that the input `v` reads (R250). -/
def lutReads (v : Nat) : List Nat := [v / 16, if v / 16 < 4095 then v / 16 + 1 else 4094]

/-- The output of the input matrix of a layer at a point (R249). -/
def State.layerLinear (s : State) (l : Nat) (fr : TFrame) (p : Nat × Nat) : List Nat :=
  s.matrix F.LAYERn_CSCk l 65535 ((List.range 3).map (s.component l fr p))

/-- The linear colour of a layer at a point (R249). -/
def State.layerColour (s : State) (l : Nat) (fr : TFrame) (p : Nat × Nat) : List Nat :=
  let y := s.layerLinear l fr p
  if s.b F.LAYERn_CTL_IN_LUT_EN l then y.map (s.lut (0x720 + s.f F.LAYERn_CTL_IN_LUT l) 1048575) else y

/-- One blend step (R251). -/
def blend (mode alpha c acc : Nat) : Nat :=
  match mode with
  | 0 => min c 1048575
  | 1 => min (roundDivN (alpha * c + (65536 - alpha) * acc) 65536) 1048575
  | 2 => min (roundDivN (acc * 65536 + alpha * c) 65536) 1048575
  | _ => acc

/-- Layers from bottom to top (R236). -/
def State.stack (s : State) : List Nat :=
  (List.range 16).flatMap fun z => (List.range 16).filter fun l => s.f F.LAYERn_CTL_Z l == z

/-- Blend a layer onto a colour. -/
def State.blendLayer (s : State) (l : Nat) (p : Nat × Nat) (acc : List Nat) : List Nat :=
  match (s.tlayer l).shown with
  | none => acc
  | some fr =>
    let c := s.layerColour l fr p
    (List.range 3).map fun i => blend (s.f F.LAYERn_CTL_OPACITY l) (s.f F.LAYERn_ALPHA l) (nth c i 0) (nth acc i 0)

/-- The layers of a mask that cover a lamp in slot `k`, from bottom to top, with its sample point. -/
def State.covering (s : State) (k mask g u v : Nat) : List (Nat × Nat × Nat) :=
  match s.samplePoint g u v with
  | none => []
  | some p => (s.stack.filter fun l => bitOf mask l && s.covers l k p).map fun l => (l, p)

/-- The inputs of the wall LUTs for a lamp in slot `k`: background, blend, wall matrix, shift (R251, R252). -/
def State.wallIn (s : State) (k mask g u v : Nat) : List Nat :=
  let bg := [s.f F.COMP_BG_R, s.f F.COMP_BG_G, s.f F.COMP_BG_B]
  let y := s.wallMatrix ((s.covering k mask g u v).foldl (fun a l => s.blendLayer l.1 l.2 a) bg)
  (List.range 3).map fun i => min (nth y i 0 / 2 ^ min 4 (s.f F.COMP_CTL_WL_SHIFT)) 65535

/-- The composed value of a lamp in slot `k`, of the layers of a mask (R251, R252, R382). -/
def State.compose (s : State) (k mask g u v : Nat) : List Nat :=
  let x := s.wallIn k mask g u v
  (List.range 3).map fun i => s.lut (0x730 + i) 65535 (nth x i 0)

/-- The entries of composition table `id` that the stage of opcode `op` reads for a lamp (R246, R249, R250, R252). -/
def State.tabReads (s : State) (op id k mask g u v : Nat) : List Nat :=
  match op with
  | 0x52 => (s.covering k mask g u v).flatMap fun q =>
      if s.b F.LAYERn_CTL_FILTER q.1 then []
      else
        let a := s.axes q.1 q.2
        (List.range 3).flatMap fun c =>
          let t := s.siting q.1 c
          let row := fun (bank : Nat) (x : Axis) (t : Siting) =>
            if 0x710 + bank = id then (List.range 8).map fun j => 8 * (x.pos t).2 + j else []
          row (s.f F.LAYERn_CTL_HBANK q.1) a.1 t.1 ++ row (s.f F.LAYERn_CTL_VBANK q.1) a.2 t.2
  | 0x53 => (s.covering k mask g u v).flatMap fun q =>
      match (s.tlayer q.1).shown with
      | some fr => if s.b F.LAYERn_CTL_IN_LUT_EN q.1 && 0x720 + s.f F.LAYERn_CTL_IN_LUT q.1 == id then
          (s.layerLinear q.1 fr q.2).flatMap lutReads else []
      | none => []
  | 0x54 => if 0x730 ≤ id ∧ id < 0x733 then lutReads (nth (s.wallIn k mask g u v) (id - 0x730) 0) else []
  | _ => []

/-! ### Lamp blocks and culling (R255) -/

/-- Lamps of the group in a rectangle, row-major. -/
def State.rectLamps (s : State) (g x0 y0 x1 y1 : Nat) : List (Nat × Nat) :=
  (s.lamps g).filter fun q => decide (x0 ≤ q.1) && decide (q.1 < x1) && decide (y0 ≤ q.2) && decide (q.2 < y1)

/-- The layer covers every lamp, or some lamp, of a set in slot `k`. -/
def State.coversAll (s : State) (l k g : Nat) (qs : List (Nat × Nat)) : Bool :=
  qs.all fun q => match s.samplePoint g q.1 q.2 with
    | some p => s.covers l k p
    | none => false
def State.coversAny (s : State) (l k g : Nat) (qs : List (Nat × Nat)) : Bool :=
  qs.any fun q => match s.samplePoint g q.1 q.2 with
    | some p => s.covers l k p
    | none => false

/-- The sample points of the four corner lamps of a block lie in the layer's rectangle with `d` units of 2^-10 pixel to spare (R255). -/
def State.cornersIn (s : State) (l g d : Nat) (r : Nat × Nat × Nat × Nat) : Bool :=
  [(r.1, r.2.1), (r.2.2.1 - 1, r.2.1), (r.1, r.2.2.2 - 1), (r.2.2.1 - 1, r.2.2.2 - 1)].all fun q => match s.samplePoint g q.1 q.2 with
    | none => false
    | some p => decide (64 * s.f F.LAYERn_DST_X0 l + d ≤ p.1) && decide (p.1 + d < 64 * s.f F.LAYERn_DST_X1 l) &&
      decide (64 * s.f F.LAYERn_DST_Y0 l + d ≤ p.2) && decide (p.2 + d < 64 * s.f F.LAYERn_DST_Y1 l)

/-- The corner test of R255 finds that a layer covers the block of rectangle `r`. It never does so for a block with a lamp that the layer
does not cover. Of the others it does where the corners lie a whole unit of the rounding of R242 inside; between that margin and the edge
the spec leaves the margin open, and the answer is free (`key` tells the tests apart). -/
def State.blockTest (s : State) (l k g key : Nat) (r : Nat × Nat × Nat × Nat) (qs : List (Nat × Nat)) : Bool :=
  s.coversAll l k g qs && s.cornersIn l g 0 r && (s.cornersIn l g 1 r || Config.cullEdge (16 * key + l))

/-- Layers of a mask that a block skips: below an opaque layer of the mask that is found to cover the whole block (R255). -/
def State.culledOf (s : State) (k mask g key : Nat) (r : Nat × Nat × Nat × Nat) : List Nat :=
  let qs := s.rectLamps g r.1 r.2.1 r.2.2.1 r.2.2.2
  let st := (s.stack.filter fun l => bitOf mask l && s.coversAny l k g qs)
  match st.reverse.find? fun l => s.f F.LAYERn_CTL_OPACITY l == 0 && s.blockTest l k g key r qs with
  | some top => st.takeWhile (· != top)
  | none => []

end Sys2Proof.Machine
end

