-- ==== Sys2Proof/Machine/Correct.lean ====
section
/-! DEFINITION. Per-lamp and camera-aware correction (spec/08_lamp_correction.md): lamp entries, angles, gains, duties,
dimming, geometry. -/
set_option Elab.async false
namespace Sys2Proof.Machine

/-! ### Lamp entries (R272 to R277) -/

/-- Base of the correction region of a tile (Table 13-3). -/
def corrBase : Nat := 0x40000000
def corrSize : Nat := 0x8000000

/-- Address of the table entry of index `i` of group `g` (R274). -/
def State.entryAddr (s : State) (g i : Nat) : Nat := corrBase + s.f F.CORR_GRPg_BASE g * 4096 + i * 40

/-- The entry passes its check (R272, R273). -/
def entrySound (b : Bytes) : Bool := b.drop 20 == complement (b.take 20) && b.length == 40 && bits (le b 19 1) 5 3 == 0

/-- The entry of a lamp, or none where it fails its check or has failed one since it was written (R276). -/
def State.lampEntry (s : State) (g i : Nat) : Option Bytes :=
  let a := s.entryAddr g i
  let b := s.memRead a 40
  if entrySound b && !(s.memBad a 40) && !(s.comp.lampBad.contains a) then some b else none

/-- The entry of a lamp fails its check when it is read (R276). -/
def State.lampFails (s : State) (g i : Nat) : Bool :=
  !(entrySound (s.memRead (s.entryAddr g i) 40)) || s.memBad (s.entryAddr g i) 40

/-- The lamp entries held at 0 (R276, R294). -/
def State.setLampBad (s : State) (l : List Nat) : State :=
  (s.onComp fun c => { c with lampBad := l }).flag F.CORR_STATUS_ENTRY_FAULT (!l.isEmpty)

/-- Lamp entries are written from address `a` on: their lamps are no longer held at 0. -/
def State.lampWritten (s : State) (a n : Nat) : State :=
  s.setLampBad (s.comp.lampBad.filter fun x => !(decide (a ≤ x) && decide (x < a + n)))

/-- The group's table lies within the correction region (R274). -/
def State.lampTableOk (s : State) (g : Nat) : Bool :=
  decide (s.f F.CORR_GRPg_BASE g * 4096 + s.wp g * s.hp g * 40 ≤ corrSize)

/-- Coefficient m_ij of an entry. -/
def entryM (b : Bytes) (i j : Nat) : Nat := le b (2 * (3 * i + j)) 2

/-! ### Geometry (R280 to R282) -/

/-- Three numbers. -/
abbrev V3 := Int × Int × Int
def dot (a b : V3) : Int := a.1 * b.1 + a.2.1 * b.2.1 + a.2.2 * b.2.2
def cross (a b : V3) : V3 := (a.2.1 * b.2.2 - a.2.2 * b.2.1, a.2.2 * b.1 - a.1 * b.2.2, a.1 * b.2.1 - a.2.1 * b.1)
def sub3 (a b : V3) : V3 := (a.1 - b.1, a.2.1 - b.2.1, a.2.2 - b.2.2)
def add3 (a b : V3) : V3 := (a.1 + b.1, a.2.1 + b.2.1, a.2.2 + b.2.2)
def mul3 (k : Int) (a : V3) : V3 := (k * a.1, k * a.2.1, k * a.2.2)

def State.grpN (s : State) (g : Nat) : V3 := (s.sf F.CORR_GRPg_NX g, s.sf F.CORR_GRPg_NY g, s.sf F.CORR_GRPg_NZ g)
def State.grpE (s : State) (g : Nat) : V3 := (s.sf F.CORR_GRPg_EX g, s.sf F.CORR_GRPg_EY g, s.sf F.CORR_GRPg_EZ g)
def State.grpU (s : State) (g : Nat) : V3 := (s.sf F.CORR_GRPg_UX g, s.sf F.CORR_GRPg_UY g, s.sf F.CORR_GRPg_UZ g)
def State.grpV (s : State) (g : Nat) : V3 := (s.sf F.CORR_GRPg_VX g, s.sf F.CORR_GRPg_VY g, s.sf F.CORR_GRPg_VZ g)
def State.grpP (s : State) (g : Nat) : V3 := (s.sf F.CORR_GRPg_PX g, s.sf F.CORR_GRPg_PY g, s.sf F.CORR_GRPg_PZ g)
def State.tileO (s : State) : V3 := (s.sf F.CORR_TILE_OX, s.sf F.CORR_TILE_OY, s.sf F.CORR_TILE_OZ)
/-- Column `j` of the tile rotation M, in Q1.30. -/
def State.tileCol (s : State) (j : Nat) : V3 :=
  (s.sf F.CORR_TILE_Mk 0 j, s.sf F.CORR_TILE_Mk 0 (3 + j), s.sf F.CORR_TILE_Mk 0 (6 + j))

/-- A product of two Q1.30 vectors is within 2^-20 of `want` (0 or 1). -/
def nearUnit (a b : V3) (want : Int) : Bool := decide ((dot a b - want * 2 ^ 60).natAbs ≤ 2 ^ 40)

/-- M^T × M is the identity within 2^-20 (R282). -/
def State.tileGeomOk (s : State) : Bool :=
  (List.range 3).all fun i => (List.range 3).all fun j => nearUnit (s.tileCol i) (s.tileCol j) (if i = j then 1 else 0)

/-- n_g and e_g are unit vectors and orthogonal within 2^-20 (R282). -/
def State.grpGeomOk (s : State) (g : Nat) : Bool :=
  nearUnit (s.grpN g) (s.grpN g) 1 && nearUnit (s.grpE g) (s.grpE g) 1 && nearUnit (s.grpN g) (s.grpE g) 0

/-! ### Angles (R286) -/

/-- floor(π × 2^256). -/
def piFix : Nat := 0x3243f6a8885a308d313198a2e03707344a4093822299f31d0082efa98ec4e6c89

/-- One step of the series of cosine or sine at scale 2^256: the running term, the sum, the next factor. -/
def trigTerms : Nat → Nat → Nat → Int → Bool → Nat → Int
  | 0, _, _, sum, _, _ => sum
  | n + 1, k, term, sum, neg, x2 =>
    let t := term * x2 / 2 ^ 256 / (k * (k + 1))
    trigTerms n (k + 2) t (if neg then sum - t else sum + t) (!neg) x2

/-- Cosine and sine of num / den × π, 0 ≤ num / den ≤ 1/2, at scale 2^256, each within 2^12. -/
def cosFix (num den : Nat) : Int :=
  let x := piFix * num / den
  trigTerms 60 1 (2 ^ 256) (2 ^ 256) true (x * x / 2 ^ 256)
def sinFix (num den : Nat) : Int :=
  let x := piFix * num / den
  trigTerms 60 2 x x true (x * x / 2 ^ 256)

/-- The largest `k` below `2 ^ n` bits' reach for which every step test holds: binary search of a threshold. -/
def searchUp (test : Nat → Bool) : Nat → Nat → Nat
  | 0, base => base
  | n + 1, base => if test (base + 2 ^ n - 1) then searchUp test n (base + 2 ^ n) else searchUp test n base

/-- acos(min(dn / r, 1)) ≥ (2k + 1) π / 15360, for 0 < dn (in 2^-60) and r² (in 2^-60), decided by rational bounds on the
cosine; what they leave undecided is a free choice (assumption 6). -/
def thetaAtLeast (dn rr : Nat) (k : Nat) : Bool :=
  let c := cosFix (2 * k + 1) 15360
  let lo := (max 0 (c - 4096)).toNat
  let hi := (max 0 (c + 4096)).toNat
  if dn * dn * 2 ^ 512 ≤ rr * 2 ^ 60 * lo * lo then true
  else if rr * 2 ^ 60 * hi * hi < dn * dn * 2 ^ 512 then false
  else Config.angleTie dn rr k

/-- θ / 6 in units of 1/256. -/
def thetaIdx (dn : Int) (rr : Nat) : Nat :=
  if rr = 0 then 0
  else if dn ≤ 0 then 3840
  else min 3840 (searchUp (fun k => decide (k < 3840) && thetaAtLeast dn.toNat rr k) 12 0)

/-- atan2(y, x) ≥ (2k + 1) π / 4096 in the first quadrant. -/
def phiAtLeast (x y k : Nat) : Bool :=
  let c := cosFix (2 * k + 1) 4096
  let n := sinFix (2 * k + 1) 4096
  if x * (max 0 (n + 4096)).toNat ≤ y * (max 0 (c - 4096)).toNat then true
  else if y * (max 0 (c + 4096)).toNat < x * (max 0 (n - 4096)).toNat then false
  else Config.angleTie x y (4096 + k)

/-- φ / 22.5 in units of 1/256; 16 becomes 0. -/
def phiIdx (de df : Int) : Nat :=
  if de = 0 ∧ df = 0 then 0
  else
    let q : Nat × Nat × Nat :=
      if 0 < de ∧ 0 ≤ df then (0, de.natAbs, df.natAbs)
      else if de ≤ 0 ∧ 0 < df then (1, df.natAbs, de.natAbs)
      else if de < 0 ∧ df ≤ 0 then (2, de.natAbs, df.natAbs)
      else (3, df.natAbs, de.natAbs)
    (1024 * q.1 + searchUp (fun k => decide (k < 1024) && phiAtLeast q.2.1 q.2.2 k) 11 0) % 4096

/-- The camera in the tile frame, in units of 2^-30 of 0.01 mm (R280). -/
def State.camera (s : State) (p : PoseMsg) : V3 :=
  let d := sub3 (sgn 32 p.x, sgn 32 p.y, sgn 32 p.z) s.tileO
  (dot (s.tileCol 0) d, dot (s.tileCol 1) d, dot (s.tileCol 2) d)

/-- ti and tj of a lamp, in units of 1/256 (R286). -/
def State.angles (s : State) (ct : V3) (g u v : Nat) : Nat × Nat :=
  let p := add3 (mul3 (2 ^ 30) (s.grpP g)) (mul3 (2 ^ 14) (add3 (mul3 u (s.grpU g)) (mul3 v (s.grpV g))))
  let d := sub3 ct p
  let n := s.grpN g
  let de := dot d (s.grpE g) * 2 ^ 30
  let df := dot d (cross n (s.grpE g))
  (thetaIdx (dot d n) (dot d d).toNat, phiIdx de df)

/-- The three angular gains of a class (R287). -/
def State.gains (s : State) (cls ti tj : Nat) : List Nat :=
  let i0 := min (ti / 256) 14
  let fi := ti - 256 * i0
  let j0 := tj / 256
  let j1 := (j0 + 1) % 16
  let fj := tj - 256 * j0
  let gn := fun i j ch => s.tab 0x800 (((cls * 16 + i) * 16 + j) * 3 + ch)
  (List.range 3).map fun ch =>
    roundDivN ((256 - fi) * (256 - fj) * gn i0 j0 ch + (256 - fi) * fj * gn i0 j1 ch +
      fi * (256 - fj) * gn (i0 + 1) j0 ch + fi * fj * gn (i0 + 1) j1 ch) 65536

/-- The pose that governs slot `k` (R285): none where every lamp takes unity gain. -/
def State.slotPose (s : State) (n k : Nat) : Option PoseMsg :=
  match nth s.comp.poseUsed k none with
  | some p =>
    let age := s.f F.CORR_POSE_CFG_POSE_MAX_AGE
    if p.valid && (age == 0 || decide (seqDiff 32 n (nth s.comp.poseFrame k 0) ≤ age)) then some p else none
  | none => none

/-- The angular gains of a lamp in a slot (R282, R285 to R287); `angle`: the strip had its ANGLE. -/
def State.lampGains (s : State) (n k g u v cls : Nat) (angle : Bool) : List Nat :=
  let unity := [16384, 16384, 16384]
  if !angle || !(s.b F.CORR_CTL_ANGLE_EN) || s.b F.CORR_STATUS_TILE_GEOM_BAD || bitOf (s.f F.CORR_STATUS_GRP_GEOM_BAD) g then unity
  else match s.slotPose n k with
    | some p =>
      let t := s.angles (s.camera p) g u v
      s.gains cls t.1 t.2
    | none => unity

/-! ### Duties (R288) -/

/-- The unclamped duty of channel `i`. -/
def rawDuty (m : Nat → Nat → Nat) (c gain : List Nat) (scale i : Nat) : Nat :=
  roundDivN ((m i 0 * nth c 0 0 + m i 1 * nth c 1 0 + m i 2 * nth c 2 0) * nth gain i 0 * scale) (2 ^ 44)

/-- The duties of a lamp from its composed value: the three duties, whether a channel was clipped, whether its entry failed
(R273, R276, R277, R288). -/
def State.duties (s : State) (n k g u v : Nat) (angle : Bool) (c : List Nat) : List Nat × Bool × Bool :=
  let go := fun (m : Nat → Nat → Nat) (cls flags : Nat) =>
    let raw := (List.range 3).map (rawDuty m c (s.lampGains n k g u v cls angle) s.comp.scale)
    ((List.range 3).map fun i => if bitOf flags i || bitOf flags 3 then 0 else min (nth raw i 0) 65535,
      raw.any fun d => decide (65535 < d))
  if !(s.b F.CORR_CTL_TABLE_EN) then
    let r := go (fun i j => if i = j then 16384 else 0) 0 0
    (r.1, r.2, false)
  else match s.lampEntry g (v * s.wp g + u) with
    | some e =>
      let r := go (entryM e) (le e 18 1) (le e 19 1)
      (r.1, r.2, false)
    | none => ([0, 0, 0], false, true)

/-! ### Dimming (R289 to R292) -/

/-- The dimming mode of a frame latch: true for PWM (R290). -/
def dimPwm (mode b k h : Nat) (prev : Option Bool) : Bool :=
  match mode with
  | 1 => false
  | 2 => true
  | _ => match prev with
    | none => decide (b < k)
    | some p => if k + h ≤ b then false else if b < k - h then true else p

/-- The code G (R291). -/
def gainCode (pwm : Bool) (b k h : Nat) : Nat :=
  if pwm then ceilDiv (max b (k + h)) 64 - 1 else max (ceilDiv b 64) 1 - 1

/-- The scale s (R291). -/
def dimScale (b g : Nat) : Nat := min 65536 (roundDivN (b * 1024) (g + 1))

/-- DIM_MODE_SELECT at a frame latch. -/
def State.dimSelect (s : State) : State :=
  let b := s.f F.CORR_BRIGHT
  let k := s.f F.CORR_KNEE_KNEE
  let h := s.f F.CORR_KNEE_HYST
  let mode := s.f F.CORR_CTL_DIM_MODE
  let pwm := dimPwm mode b k h s.comp.pwm
  let g := min 1023 (gainCode pwm b k h)
  (s.flag F.CORR_STATUS_PWM pwm).onComp fun c => { c with
    pwm := if mode == 0 then some pwm else none, bright := b, gain := g, scale := dimScale b g }

/-- GEOMETRY_CHECK at a frame latch (R241, R282). -/
def State.geometryCheck (s : State) : State :=
  let s := s.each (List.range 4) fun s g =>
    let on := s.b F.COMP_GRPg_CTL_ENABLE g
    let s := s.flag F.COMP_GRPg_CTL_MAP_BAD (on && !(s.mapOk g)) g
    s.put F.CORR_STATUS_GRP_GEOM_BAD
      (setBits (s.f F.CORR_STATUS_GRP_GEOM_BAD) g 1 (b2n (on && !(s.grpGeomOk g))))
  s.flag F.CORR_STATUS_TILE_GEOM_BAD (!s.tileGeomOk)

/-- CLEAR of CORR_CTL zeroes every counter of Table 8-6 and CORR_FIRST_FAULT whole (R293). -/
def State.corrClear (s : State) : State :=
  ((((s.zero F.CORR_ENTRY_FAULT).zero F.CORR_PROFILE_FAULT).zero F.CORR_POSE_LATE).zero F.CORR_CLIPPED).zero F.CORR_FIRST_FAULT_INDEX

/-- CORR_CLEAR (R293). -/
def execCorrClear (s : State) : Host.Outcome State Fault Refusal := .next (if s.pwr.up then s.corrClear else s)

end Sys2Proof.Machine
end

