-- ==== Sys2Proof/Machine/LampCode.lean ====
section
/-! DEFINITION. The line code of the Lamp Bus (R302, R303): the 8b/10b code of IEEE 802.3 clause 36 with a running disparity per lane,
the control characters of Table 9-1, and the bytes of a frame on the lanes. The code tables are the standard's (PRESUMED, assumption
83). A code group is a number of 10 bits whose most significant bit, the standard's bit a, is sent first; a disparity is true when
positive. -/
set_option Elab.async false
namespace Sys2Proof.Machine

/-- Bits set in the low `n` bits. -/
def onesIn (n v : Nat) : Nat := ((List.range n).filter fun k => bitOf v k).length

/-- Sub-blocks abcdei of the 5-bit values at negative disparity. -/
def sixBits : List Nat :=
  [0b100111, 0b011101, 0b101101, 0b110001, 0b110101, 0b101001, 0b011001, 0b111000,
   0b111001, 0b100101, 0b010101, 0b110100, 0b001101, 0b101100, 0b011100, 0b010111,
   0b011011, 0b100011, 0b010011, 0b110010, 0b001011, 0b101010, 0b011010, 0b111010,
   0b110011, 0b100110, 0b010110, 0b110110, 0b001110, 0b101110, 0b011110, 0b101011]

/-- Sub-blocks fghj of the 3-bit values at negative disparity. -/
def fourBits : List Nat := [0b1011, 0b1001, 0b0101, 0b1100, 0b1101, 0b1010, 0b0110, 0b1110]

/-- The 5b/6b sub-block of `x`. -/
def enc6 (x : Nat) (rd : Bool) : Nat :=
  let v := nth sixBits x 0
  if rd && (onesIn 6 v != 3 || x == 7) then 63 - v else v

/-- The disparity after the 5b/6b sub-block of `x`. -/
def rd6 (x : Nat) (rd : Bool) : Bool := if onesIn 6 (nth sixBits x 0) == 3 then rd else !rd

/-- The 3b/4b sub-block of `y` after the sub-block of `x`, at the disparity `rd` between them; y = 7 has an alternate form. -/
def enc4 (x y : Nat) (rd : Bool) : Nat :=
  let alt := y == 7 && (if rd then x == 11 || x == 13 || x == 14 else x == 17 || x == 18 || x == 20)
  let v := if alt then 0b0111 else nth fourBits y 0
  if rd && (onesIn 4 v != 2 || y == 3) then 15 - v else v

/-- The disparity after a 3b/4b sub-block. -/
def rd4 (y : Nat) (rd : Bool) : Bool := if onesIn 4 (nth fourBits y 0) == 2 then rd else !rd

/-- A character of a lane: a byte, or a control character of Table 9-1. -/
inductive LChar where
  | data (b : Nat)
  | idle
  | sof
  | eof
  | abort
  deriving DecidableEq, Repr

/-- The code group of a character, and the disparity after it. -/
def LChar.encode (c : LChar) (rd : Bool) : Nat × Bool :=
  let k := fun (v : Nat) => (if rd then 1023 - v else v, if onesIn 10 v == 5 then rd else !rd)
  match c with
  | .data b =>
    let x := b % 32
    let y := b / 32 % 8
    (enc6 x rd * 16 + enc4 x y (rd6 x rd), rd4 y (rd6 x rd))
  | .idle => k 0b0011111010
  | .sof => k 0b1101101000
  | .eof => k 0b1011101000
  | .abort => k 0b0111101000

/-- Characters sent in order on a lane: their code groups and the disparity after them. -/
def encodeChars : List LChar → Bool → List Nat × Bool
  | [], rd => ([], rd)
  | c :: cs, rd =>
    let r := encodeChars cs (c.encode rd).2
    ((c.encode rd).1 :: r.1, r.2)

/-- The data characters of lane `k` of a frame: byte b travels on lane b mod 4 in slot b / 4 (R303). -/
def laneBytes (frame : Bytes) (k : Nat) : List LChar :=
  (List.range (ceilDiv (frame.length - k) 4)).map fun j => .data (le frame (4 * j + k) 1)

/-- The byte that a data code group stands for at a disparity, and the disparity after it; none for a code violation. -/
def decodeData (code : Nat) (rd : Bool) : Option (Nat × Bool) :=
  match (List.range 32).find? fun x => enc6 x rd == code / 16 with
  | none => none
  | some x => ((List.range 8).find? fun y => enc4 x y (rd6 x rd) == code % 16).map fun y => (x + 32 * y, rd4 y (rd6 x rd))

/-- Data code groups up to EOF: the bytes; none for a code violation, or an end without EOF. -/
def decodeUpToEof : List Nat → Bool → Option Bytes
  | [], _ => none
  | c :: cs, rd =>
    if cs.isEmpty then (if c == (LChar.eof.encode rd).1 then some [] else none)
    else match decodeData c rd with
      | none => none
      | some (b, rd') => (decodeUpToEof cs rd').map fun bs => BitVec.ofNat 8 b :: bs

/-- The frame that the code groups of one lane hold, from SOF to EOF; SOF tells the disparity. -/
def decodeLane : List Nat → Option Bytes
  | [] => none
  | c :: cs =>
    if c == (LChar.sof.encode false).1 then decodeUpToEof cs (LChar.sof.encode false).2
    else if c == (LChar.sof.encode true).1 then decodeUpToEof cs (LChar.sof.encode true).2
    else none

end Sys2Proof.Machine
end

