-- ==== Sys2Proof/Machine/LampOps.lean ====
section
/-! DEFINITION. Lamp Bus (spec/09_lamp_bus.md): the chain map, frames, references, queues of the ports, blanking. The push
staging area is held as the frames cut from it. -/
set_option Elab.async false
namespace Sys2Proof.Machine

def State.lport (s : State) (p : Nat) : LPort := nth s.lamp.ports p {}
def State.onLPort (s : State) (p : Nat) (f : LPort → LPort) : State :=
  s.onLamp fun l => { l with ports := modAt l.ports p f }
def State.lgroup (s : State) (g : Nat) : LGroup := nth s.lamp.groups g {}
def State.onLGroup (s : State) (g : Nat) (f : LGroup → LGroup) : State :=
  s.onLamp fun l => { l with groups := modAt l.groups g f }

/-! ### Chains (R300, R301) -/

/-- Enabled ports; a port whose line buffer failed its memory test stays disabled (R561). -/
def State.lampPorts (s : State) : List Nat :=
  (List.range 16).filter fun p => s.b F.LAMP_PORTp_CFG_ENABLE p && !(s.bist.failed.contains (24 + p))
/-- Ports that are enabled and serve a group (R301). -/
def State.groupPorts (s : State) (g : Nat) : List Nat :=
  s.lampPorts.filter fun p => s.f F.LAMP_PORTp_CFG_GROUP p == g
/-- Group of a port. -/
def State.portGroup (s : State) (p : Nat) : Nat := s.f F.LAMP_PORTp_CFG_GROUP p

def State.portDX (s : State) (p : Nat) : Nat := s.f F.LAMP_PORTp_MAP1_DX p + 1
def State.portDY (s : State) (p : Nat) : Nat := s.f F.LAMP_PORTp_MAP1_DY p + 1
def State.portDW (s : State) (p : Nat) : Nat := s.f F.LAMP_PORTp_MAP1_DW p + 1
def State.portDH (s : State) (p : Nat) : Nat := s.f F.LAMP_PORTp_MAP1_DH p + 1
/-- Drivers of a port. -/
def State.portDrivers (s : State) (p : Nat) : Nat := min 64 (s.portDX p * s.portDY p)
/-- Group lamp of the top-left lamp of the driver at hop `h` (R301). -/
def State.driverAt (s : State) (p h : Nat) : Nat × Nat :=
  let cy := h / s.portDX p
  let c := h % s.portDX p
  let cx := if s.b F.LAMP_PORTp_CFG_SERPENTINE p && cy % 2 == 1 then s.portDX p - 1 - c else c
  (s.f F.LAMP_PORTp_MAP0_U0 p + cx * s.portDW p, s.f F.LAMP_PORTp_MAP0_V0 p + cy * s.portDH p)
/-- The driver of a port that holds a group lamp. -/
def State.driverOf (s : State) (p u v : Nat) : Option Nat :=
  (List.range (s.portDrivers p)).find? fun h =>
    let d := s.driverAt p h
    decide (d.1 ≤ u) && decide (u < d.1 + s.portDW p) && decide (d.2 ≤ v) && decide (v < d.2 + s.portDH p)

def State.driver (s : State) (p h : Nat) : Driver := nth (s.lport p).drivers h {}
def State.onDriver (s : State) (p h : Nat) (f : Driver → Driver) : State :=
  s.onLPort p fun q => { q with drivers := modAt q.drivers h f }

/-! ### Frames (R302 to R310) -/

/-- A Lamp Bus frame (R303): CHECK covers every byte before it except byte 1. -/
def lampFrame (op hop param : Nat) (payload : Bytes) : Bytes :=
  let b := mkMsg 8 [(0, 1, op), (1, 1, hop), (2, 2, payload.length), (4, 4, param)] ++ payload ++
    zeros ((4 - payload.length % 4) % 4)
  b ++ toLE 4 (crc32 (b.take 1 ++ b.drop 2)).toNat

/-- REGION_WRITE to driver-local (x, y), `w` lamps wide, with the duties of its lamps in row-major order (R306). -/
def regionWrite (hop x y w h : Nat) (duties : List Nat) : Bytes :=
  lampFrame 0x01 hop (x + 2 ^ 8 * y + 2 ^ 16 * (w - 1) + 2 ^ 24 * (h - 1)) (duties.flatMap (toLE 2))
/-- CURRENT_GAIN_SET. -/
def gainSet (hop g apply : Nat) : Bytes := lampFrame 0x02 hop (g + 2 ^ 16 * apply) []
/-- CYCLE_NS of R307: the slot period in whole µs, less 1 µs. -/
def State.cycleNs (s : State) : Nat := periodU s.timing.code / s.timing.slots / usU 1 * 1000 - 1000
/-- DIAG_MIN_ON of a driver: its own MIN_ON where that is longer (R330). -/
def State.minOn (s : State) (p h : Nat) : Nat := max (s.f F.LAMP_DIAG_MIN_ON) ((s.driver p h).minOn * 10)
/-- PWM_PARAM_SET of a group (R307). -/
def State.pwmSet (s : State) (hop g minOn apply : Nat) : Bytes :=
  lampFrame 0x03 hop (s.f F.LAMP_GRPg_CFG_MULT g + 2 ^ 16 * apply)
    (mkMsg 12 [(0, 4, s.cycleNs), (4, 4, s.f F.LAMP_GRPg_DARK g), (8, 2, minOn)])
/-- STATUS_READ of a page. -/
def statusRead (hop page : Nat) : Bytes := lampFrame 0x05 hop page []
/-- BLANK broadcast. -/
def blankFrame : Bytes := lampFrame 0x06 0xFF 0 []
/-- SWAP broadcast with its TARGET. -/
def swapFrame (target : Nat) : Bytes := lampFrame 0x07 0xFF (target % 2 ^ 16) []

/-- A frame of the tile's own, which needs no staging: priority, bytes. -/
def ownFrame (prio : Nat) (b : Bytes) : LFrame := ⟨prio, b, true, none, [], 0, []⟩

/-- The code groups that leave a port (R302, R303): SOF, the first `slots` character slots of the frame, `last` (EOF or ABORT) and
an IDLE, on each lane from its running disparity. How many more IDLEs have passed since the last frame the model does not count, so
whether they have turned the disparity of all lanes is a free choice (assumption 83). -/
def State.sendLine (s : State) (p : Nat) (b : Bytes) (slots : Nat) (last : LChar) : State :=
  let turned := Config.freeBool s.fresh
  let lane := fun (k : Nat) => encodeChars (.sof :: (laneBytes b k).take slots ++ [last, .idle])
    (nth (s.lport p).disparity k false != turned)
  let rs := (List.range 4).map lane
  (s.tickFresh.onLPort p fun q => { q with disparity := rs.map (·.2) }).emit (.lampLine p (rs.map (·.1)))

/-- Queue a frame on a port; a driver in MISMATCH is sent nothing but STATUS_READ (R328). -/
def State.queueLamp (s : State) (p : Nat) (f : LFrame) : State :=
  let hop := le f.bytes 1 1
  if f.prio != 6 && hop < 64 && (s.driver p hop).wrong then s
  else s.onLPort p fun q => { q with queue := q.queue ++ [f] }

/-! ### References (R316 to R318) -/

/-- Blocks across a group. -/
def State.blocksX (s : State) (g : Nat) : Nat := ceilDiv (s.wp g) 16
/-- The rectangle of a block: x0, y0, x1, y1. -/
def State.blockRect (s : State) (g i : Nat) : Nat × Nat × Nat × Nat :=
  let bx := i % max 1 (s.blocksX g)
  let by_ := i / max 1 (s.blocksX g)
  (16 * bx, 16 * by_, min (s.wp g) (16 * bx + 16), min (s.hp g) (16 * by_ + 16))
/-- Blocks of a rectangle that starts on block boundaries, row-major. -/
def State.rectBlocks (s : State) (g x0 y0 x1 y1 : Nat) : List Nat :=
  (List.range (ceilDiv y1 16 - y0 / 16)).flatMap fun j =>
    (List.range (ceilDiv x1 16 - x0 / 16)).map fun i => (y0 / 16 + j) * s.blocksX g + (x0 / 16 + i)
/-- Make every reference of a group invalid. -/
def State.invalidateGroup (s : State) (g : Nat) : State := s.onLGroup g fun x => { x with refs := [] }
/-- Make every reference of the tile invalid: a full refresh (R318). -/
def State.invalidateAll (s : State) : State := s.each (List.range 4) fun s g => s.invalidateGroup g
/-- Make the references of some blocks of a group invalid. -/
def State.invalidateBlocks (s : State) (g : Nat) (bs : List Nat) : State :=
  s.onLGroup g fun x => { x with refs := x.refs.filter fun r => !(bs.contains r.1) }
/-- Blocks of its group that a driver meets. -/
def State.driverBlocks (s : State) (p h : Nat) : List Nat :=
  let d := s.driverAt p h
  let g := s.portGroup p
  s.rectBlocks g (d.1 / 16 * 16) (d.2 / 16 * 16) (min (s.wp g) (d.1 + s.portDW p)) (min (s.hp g) (d.2 + s.portDH p))
/-- Make the references of a driver invalid. -/
def State.invalidateDriver (s : State) (p h : Nat) : State := s.invalidateBlocks (s.portGroup p) (s.driverBlocks p h)

/-- Take a block's write as failed: its reference is invalid and no frame still queued can make it valid (R317). -/
def State.failBlock (s : State) (b : Nat × Nat × Nat) : State :=
  let strip := fun (f : LFrame) => { f with blocks := f.blocks.filter fun x => !(x.1 == b.1 && x.2.1 == b.2.1) }
  (s.invalidateBlocks b.1 [b.2.1]).onLamp fun l =>
    { l with ports := l.ports.map fun p => { p with queue := p.queue.map strip, sending := p.sending.map strip } }

/-- Some frame that is queued or being sent still writes the block. -/
def State.blockPending (s : State) (g i : Nat) : Bool :=
  s.lamp.ports.any fun p => (p.queue ++ p.sending.toList).any fun f => f.blocks.any fun b => b.1 == g && b.2.1 == i

/-- A region write has been sent cleanly: blocks with no write left take their new hash (R317). -/
def State.settleBlocks (s : State) (bs : List (Nat × Nat × Nat)) : State :=
  s.each bs fun s b =>
    if s.blockPending b.1 b.2.1 then s
    else s.onLGroup b.1 fun x => { x with refs := x.refs.set b.2.1 (b.2.2 + 1) }

/-- The CURRENT_GAIN_SET of a slot: APPLY = 0 (R321). -/
def isSlotGain (f : LFrame) : Bool := le f.bytes 0 1 == 2 && le f.bytes 6 1 == 0

/-! ### Line buffers (R319, R320) -/

/-- Bytes of region writes in a port's line buffer. -/
def LPort.fill (p : LPort) : Nat :=
  ((p.queue ++ p.sending.toList).filter fun f => f.prio == 4 && f.inBuf).foldl (fun a f => a + f.bytes.length) 0
/-- Region writes of a port still in staging. -/
def LPort.staged (p : LPort) : List LFrame := p.queue.filter fun f => f.prio == 4 && !f.inBuf

/-- FILL and URGENT after a change (R320). -/
def State.refill (s : State) (p : Nat) : State :=
  let q := s.lport p
  let fill := q.fill
  let wm := 64 * s.f F.LAMP_PORTp_WM p
  let u := if q.staged.isEmpty || decide (2 * wm ≤ fill) then false
    else if fill < wm then true else s.b F.LAMP_PORTp_STATUS_URGENT p
  (s.put F.LAMP_PORTp_STATUS_FILL (ceilDiv fill 64) p).flag F.LAMP_PORTp_STATUS_URGENT u p

/-- Discard the frames queued for the slot; the blocks not all sent have their references made invalid (R317, R321), and a gain not
sent goes with a later slot. -/
def State.dropSlotFrames (s : State) : State :=
  let gone := s.lamp.ports.flatMap fun p => (p.queue.filter fun f => f.prio == 4).flatMap fun f => f.blocks
  let waiting := s.lamp.ports.any fun p => p.queue.any isSlotGain
  let s := s.onLamp fun l => { l with
    gainSent := if waiting then none else l.gainSent
    ports := l.ports.map fun p => { p with
      queue := p.queue.filter fun f => f.prio != 4 && f.prio != 2 && !(isSlotGain f)
      sending := p.sending.map fun f => { f with fold := none } } }
  (s.each gone fun s b => s.failBlock b).each (List.range 16) State.refill

/-! ### Blanking, holds and the groups that push (R324 to R326) -/

/-- A group has an LSYNC output: enabled, or a clone (R312). -/
def State.lit (s : State) (g : Nat) : Bool := s.b F.COMP_GRPg_CTL_ENABLE g || s.isClone g
/-- A group whose drivers are pushed: neither blanked nor in a hold, nor awaiting its programming (R384, R634). -/
def State.pushes (s : State) (g : Nat) : Bool :=
  s.lit g && !(s.lgroup g).blanked && (s.lgroup g).hold.isNone && !(s.lgroup g).programming
/-- A condition of R324 holds for a group: no START, EXCESS, BLANK_HOLD, black, or the thermal trip; or its first picture still waits for
the tile's own time error to be within 1 µs (R135). -/
def State.blankCond (s : State) (g : Nat) : Bool :=
  !s.ring.start || !((s.lgroup g).shown || s.b F.TIME_STATUS_WITHIN_1US) || s.b F.RING_TILE_STATUS_EXCESS || s.b F.LAMP_CTL_BLANK_HOLD || (s.lgroup g).black || s.pwr.thermtripN

/-- Status bits of LAMP_STATUS and LAMP_GRPg_STATUS that summarise the groups and ports (R335, R339). -/
def State.lampStatus (s : State) : State :=
  let s := s.each (List.range 4) fun s g =>
    (s.flag F.LAMP_GRPg_STATUS_HOLDING (s.lgroup g).hold.isSome g).flag F.LAMP_GRPg_STATUS_BLACK (s.lgroup g).black g
  let bitsOf := fun (c : Nat → Bool) => ((List.range 4).map fun g => b2n (c g) * 2 ^ g).foldl (· + ·) 0
  let ports := List.range 16
  let s := s.flag F.LAMP_STATUS_BLANKED ((List.range 4).any fun g => s.lit g && (s.lgroup g).blanked)
  let s := s.flag F.LAMP_STATUS_PAD_FAULT (ports.any fun p => s.b F.LAMP_PORTp_STATUS_PAD_FAULT p)
  let s := s.flag F.LAMP_STATUS_CHAIN_FAULT
    (ports.any fun p => s.b F.LAMP_PORTp_STATUS_CHAIN_BROKEN p || s.b F.LAMP_PORTp_STATUS_MISMATCH p)
  (s.put F.LAMP_STATUS_HOLDING (bitsOf fun g => (s.lgroup g).hold.isSome)).put F.LAMP_STATUS_BLACK
    (bitsOf fun g => (s.lgroup g).black)

/-- The frame in progress ends with ABORT (R302, R324); how much of it has left is free. -/
def State.abortFrame (s : State) (p : Nat) (f : LFrame) : State :=
  s.tickFresh.sendLine p f.bytes (Config.free s.fresh % (f.bytes.length / 4 + 1)) .abort

/-- Frames of a port that will not be sent: the references of their blocks are invalid (R317), and PROBEs are skipped (R331). -/
def State.lostFrames (s : State) (fs : List LFrame) : State :=
  (s.each (fs.flatMap LFrame.blocks) fun s b => s.failBlock b).when (fs.any fun f => f.prio == 5) fun s =>
    s.flag F.LAMP_STATUS_PROBE_SKIPPED

/-- Take the frames that `p` selects out of the queue of a port, unsent. -/
def State.dropQueued (s : State) (port : Nat) (p : LFrame → Bool) : State :=
  let gone := (s.lport port).queue.filter p
  ((s.onLPort port fun q => { q with queue := q.queue.filter fun f => !(p f) }).lostFrames gone).refill port

/-- A port ends its frame with ABORT and sends BLANK (R324). -/
def State.blankPort (s : State) (p : Nat) : State :=
  let s := match (s.lport p).sending with
    | some f => ((s.abortFrame p f).onLPort p fun q => { q with sending := none }).lostFrames [f]
    | none => s
  (s.dropQueued p fun f => f.prio != 6).onLPort p fun q => { q with queue := ownFrame 1 blankFrame :: q.queue }

/-- Enter the blanked state: each port of the group ends its frame with ABORT and sends BLANK (R324). -/
def State.enterBlank (s : State) (g : Nat) : State :=
  let s := s.onLGroup g fun x => { x with blanked := true, programming := false, blankSent := true, swapped := false }
  (s.each (s.groupPorts g) State.blankPort).lampStatus

/-- A port has CHAIN_BROKEN or MISMATCH, which ends the repeats of R634. -/
def State.portGone (s : State) (p : Nat) : Bool := s.b F.LAMP_PORTp_STATUS_CHAIN_BROKEN p || s.b F.LAMP_PORTp_STATUS_MISMATCH p

/-- Every driver of the group has confirmed; `excuse`: on a port with CHAIN_BROKEN or MISMATCH those that answer and may be programmed alone
are awaited (R634). -/
def State.groupConfirmed (s : State) (g : Nat) (excuse : Bool) : Bool :=
  (s.groupPorts g).all fun p => (List.range (s.portDrivers p)).all fun h =>
    let d := s.driver p h
    d.confirmed || (excuse && s.portGone p && (!d.answered || d.wrong))

/-! ### Cutting a push into frames (R319) -/

/-- Split into runs of consecutive block columns. -/
def runsOf : List Nat → List (List Nat)
  | [] => []
  | x :: xs => match runsOf xs with
    | (y :: r) :: rest => if y == x + 1 then (x :: y :: r) :: rest else [x] :: (y :: r) :: rest
    | _ => [[x]]

/-- The region writes of a run of dirty blocks (columns `xs` of block row `row`) to the driver at hop `h`. `duty u v` gives a
lamp's duties, `hash` a block's hash. -/
def State.runFrames (s : State) (p h g row : Nat) (xs : List Nat) (fold : Nat) (duty : Nat → Nat → List Nat)
    (hash : Nat → Nat) : List LFrame :=
  let d := s.driverAt p h
  let x0 := max d.1 (16 * xs.headD 0)
  let x1 := min (min (s.wp g) (d.1 + s.portDW p)) (16 * (xs.getLastD 0 + 1))
  let y0 := max d.2 (16 * row)
  let y1 := min (min (s.hp g) (d.2 + s.portDH p)) (16 * row + 16)
  let w := x1 - x0
  let rows := 512 / max 1 w
  let blocks := xs.map fun x => (g, row * s.blocksX g + x, hash (row * s.blocksX g + x))
  (List.range (ceilDiv (y1 - y0) (max 1 rows))).map fun k =>
    let ya := y0 + k * rows
    let yb := min y1 (ya + rows)
    let ds := (List.range (yb - ya)).flatMap fun j => (List.range w).flatMap fun i => duty (x0 + i) (ya + j)
    ⟨4, regionWrite h (x0 - d.1) (ya - d.2) w (yb - ya) ds, false, some fold, blocks, 0, []⟩

/-- The region writes of the dirty blocks of a group on one port. -/
def State.portFrames (s : State) (p g : Nat) (dirty : List Nat) (fold : Nat) (duty : Nat → Nat → List Nat)
    (hash : Nat → Nat) : List LFrame :=
  (List.range (s.portDrivers p)).flatMap fun h =>
    let mine := s.driverBlocks p h
    let bs := dirty.filter fun b => mine.contains b
    let nx := max 1 (s.blocksX g)
    ((bs.map (· / nx)).eraseDups).flatMap fun row =>
      (runsOf ((bs.filter fun b => b / nx == row).map (· % nx))).flatMap fun xs =>
        s.runFrames p h g row xs fold duty hash

/-- Dirty-block detection and push of blocks for one group (R316, R319): the state and the dirty blocks and frames counted.
A block that no driver takes writes for has nothing to send, and its reference takes the hash at once. -/
def State.pushGroup (s : State) (g : Nat) (blocks : List Nat) (fold : Nat) (duty : Nat → Nat → List Nat) : State × Nat × Nat :=
  let bytesOf := fun i =>
    let r := s.blockRect g i
    (List.range (r.2.2.2 - r.2.1)).flatMap fun j => (List.range (r.2.2.1 - r.1)).flatMap fun k =>
      (duty (r.1 + k) (r.2.1 + j)).flatMap (toLE 2)
  let hashes := blocks.map fun i => (i, (crc64 (bytesOf i)).toNat)
  let hash := fun i => ((hashes.find? fun e => e.1 == i).map (·.2)).getD 0
  let dirty := blocks.filter fun i => (s.lgroup g).refs.get i != hash i + 1
  let before := s.lamp.ports.foldl (fun a p => a + p.queue.length) 0
  let s := s.invalidateBlocks g dirty
  let s := s.each (s.groupPorts g) fun s p =>
    (s.each (s.portFrames p g dirty fold duty hash) fun s f => s.queueLamp p f).refill p
  let after := s.lamp.ports.foldl (fun a p => a + p.queue.length) 0
  (s.settleBlocks (dirty.map fun i => (g, i, hash i)), dirty.length, after - before)

end Sys2Proof.Machine
end

