-- ==== Sys2Proof/Machine/FlockOps.lean ====
section
/-! DEFINITION. Tables that host commands write, staged and grouped writes (spec/06_flocks.md), and what they conflict with. -/
set_option Elab.async false
namespace Sys2Proof.Machine

/-! ### Tables (Tables 7-5, 16-6; R275, R279, R347, R350) -/

/-- Entry size and entry count of a table that host table-write commands accept on this node. -/
def State.tableShape (s : State) (id : Nat) : Option (Nat × Nat) :=
  if 0x710 ≤ id ∧ id < 0x714 then some (2, 512)
  else if 0x720 ≤ id ∧ id < 0x724 then some (4, 4096)
  else if 0x730 ≤ id ∧ id < 0x733 then some (2, 4096)
  else if id = 0x800 then some (2, 196608)
  else if 0x808 ≤ id ∧ id < 0x80C then (if s.isTile then some (40, s.wp (id - 0x808) * s.hp (id - 0x808)) else none)
  else if 0xA00 ≤ id ∧ id < 0xA05 then some (8, 8192)
  else if 0xA10 ≤ id ∧ id < 0xA14 then some (4, 65536)
  else if id = 0xE00 then some (4096, 8192)
  else if id = 0xE10 then some (160, 1)
  else if id = 0xE20 then some (192, 1)
  else if id = 0xE30 then some (4096, 16128)
  else if id = 0xE40 then some (48, 4)
  else if id = 0xE41 then some (16, 1)
  else none

/-- What an entry's own content decides: the reason code of a refusal, 0 when it is sound (R250, R275, R350). -/
def entryCheck (id : Nat) (b : Bytes) : Nat :=
  if 0x720 ≤ id ∧ id < 0x724 then (if le b 0 4 < 2 ^ 20 then 0 else 3)
  else if 0x808 ≤ id ∧ id < 0x80C then (if entrySound b then 0 else 4)
  else if 0xA00 ≤ id ∧ id < 0xA05 then (if kortyOk (le b 0 8) then 0 else 3)
  else 0

/-- Cut the bytes of a table write into entries. -/
def cutEntries (size : Nat) : Nat → Bytes → List Bytes
  | 0, _ => []
  | n + 1, b => b.take size :: cutEntries size n (b.drop size)

/-- A table write as single-entry writes; identifier 0x0A04 names all four folds (R350). -/
def tableWrs (id first size : Nat) (b : Bytes) : List Wr :=
  let es := cutEntries size (b.length / max 1 size) b
  let go := fun (i : Nat) => (List.range es.length).map fun k => (⟨some i, first + k, nth es k []⟩ : Wr)
  if id = 0xA04 then (List.range 4).flatMap fun n => go (0xA00 + n) else go id

/-- The first failing check of a set of writes that its items alone decide. -/
def wrsCheck (ws : List Wr) : Nat :=
  ws.foldl (fun a w => if a != 0 then a else match w.table with
    | some id => entryCheck id w.value
    | none => 0) 0

/-! ### Conflicts (R204, R222) -/

/-- Two writes name the same register or table entry. -/
def Wr.same (a b : Wr) : Bool := a.table == b.table && a.at_ == b.at_
/-- Two sets of writes meet. -/
def wrsMeet (a b : List Wr) : Bool := a.any fun x => b.any fun y => x.same y

/-- The contents of a list of flocks, one after the other. -/
def flockWrs (fs : List Flock) : List Wr := fs.flatMap Flock.content

/-- A flock holds content that may still take effect: neither applied nor discarded (R204). -/
def Flock.holds (f : Flock) : Bool := f.st == 1 || f.st == 2 || f.st == 3 || f.st == 5 || f.st == 7

/-- Bytes of staged table data, and count of staged registers, over all flocks (R205). -/
def State.stagedBytes (s : State) : Nat :=
  s.flocks.foldl (fun a f => if f.holds then f.content.foldl (fun a w => if w.table.isSome then a + w.value.length else a) a else a) 0
def State.stagedRegs (s : State) : Nat :=
  s.flocks.foldl (fun a f => if f.holds then f.content.foldl (fun a w => if w.table.isNone then a + 1 else a) a else a) 0

/-- The flock record of an ID. -/
def State.flock (s : State) (id : Nat) : Option Flock := s.flocks.find? fun f => f.id == id && f.id != 0
/-- Update a flock record. -/
def State.onFlock (s : State) (id : Nat) (f : Flock → Flock) : State :=
  s.onFlocks fun l => l.map fun x => if x.id == id && id != 0 then f x else x

/-- The flock is committed and still to apply (R214, R215). -/
def Flock.due (f : Flock) : Bool := f.id != 0 && (f.st == 5 || f.st == 7) && f.applyAt.isSome && !f.broken

/-- A register of the content as it would stand: its last staged value, else the live one. -/
def State.stagedReg (s : State) (ws : List Wr) (a : Nat) : Nat :=
  match (ws.filter fun w => w.table.isNone && w.at_ == a).getLast? with
  | some w => le w.value 0 4
  | none => (s.reg a).toNat

/-- The timing that a content stages, if it stages TIME_FRAME or TIME_FRAME_PHASE. -/
def State.stagedTiming (s : State) (ws : List Wr) : Option Timing :=
  if ws.any fun w => w.table.isNone && (w.at_ == F.TIME_FRAME_RATE.base || w.at_ == F.TIME_FRAME_PHASE.base) then
    let r := s.stagedReg ws F.TIME_FRAME_RATE.base
    some ⟨bits r 0 5, bits r 5 3, bits (s.stagedReg ws F.TIME_FRAME_PHASE.base) 0 26⟩
  else none

/-- The timing that a flock stages whose composition part is in force and whose T has not come. -/
def State.stagedFront (s : State) : Option Timing := (s.flocks.filter fun f => f.due && f.latched).findSome? fun f => s.stagedTiming f.content

/-- The timing of the frame being composed, and the epoch under which it counts (R633). -/
def State.frontTiming (s : State) : Timing := s.stagedFront.getD s.timing
/-- What a staged timing adds to TEPOCH (R633): a change of SLOTS alone adds nothing. -/
def State.epochStep (s : State) (t : Option Timing) : Nat :=
  b2n (t.any fun t => t.code != s.timing.code || t.phase != s.timing.phase)
def State.frontEpoch (s : State) : Nat := (s.f F.TIME_TEPOCH + s.epochStep s.stagedFront) % 256

/-- The timing of epoch `e`, of those the node keeps (R633): the one of the frame being composed for a later epoch, the one in force for an
older one. -/
def State.epochTiming (s : State) (e : Nat) : Timing :=
  let d := seqDiff 8 (s.f F.TIME_TEPOCH) e
  if d < 0 then s.frontTiming else (s.time.epochs[d.toNat]?).getD s.timing

/-- A count given under epoch `e`, mapped to the epoch of the frame being composed (R633); none for a later epoch. -/
def State.frontCount (s : State) (e n : Nat) : Option Nat :=
  if e == s.frontEpoch then some n
  else match s.mapCount e n, s.stagedFront with
    | some k, some t => some (t.firstAt (s.timing.swapAt k))
    | m, _ => m

/-- The instant at which a committed flock applies. -/
def State.applyInstant (s : State) (f : Flock) : Nat := (s.epochTiming f.tepoch).swapAt (f.applyAt.getD 0)

/-- Put a new record into the lowest free slot. -/
def addRecord (f : Flock) : List Flock → List Flock
  | [] => [f]
  | x :: xs => if x.id == 0 then f :: xs else x :: addRecord f xs

/-- Hold a flock in STAGING from now on unless it is held already (R201). -/
def State.holdFlock (s : State) (f : Flock) : State :=
  if (s.flock f.id).isSome then s
  else (s.onFlocks fun l => addRecord { f with openedAt := s.time.clock } l).flockRegs

/-- The flock keeps its record, but its ID is free (R200). -/
def State.shelve (s : State) (id : Nat) : State := (s.onFlock id fun f => { f with id := f.id + shelf }).flockRegs

/-- A table write names entries that the table, whatever the other state, does not have: the entries of a lamp table follow from the size
of its group (R202, R274). -/
def tablePast (id entries first n : Nat) : Bool := !(decide (0x808 ≤ id) && decide (id < 0x80C)) && decide (entries < first + n)

/-- Add content to a flock held in STAGING: the limits of R205 and the items' own checks are recorded for the vote (R202). -/
def State.stage (s : State) (id : Nat) (ws : List Wr) (check : Nat) : State :=
  let s' := s.onFlock id fun f => { f with content := f.content ++ ws }
  let tooMuch := decide (8192 < s'.stagedRegs) || decide (64 * 2 ^ 20 < s'.stagedBytes)
  let bad := if check != 0 then check else if tooMuch then 1 else 0
  if bad == 0 then s' else s.onFlock id fun f => { f with failure := some (f.failure.getD bad) }

/-! ### Local transactions (R221 to R223, R229) -/

def State.tx (s : State) (c : Nat) : Tx := nth s.txs c {}
def State.onTx (s : State) (c : Nat) (f : Tx → Tx) : State := { s with txs := modAt s.txs c f }

/-- FLOCK_TXc_STATUS (R229): the open transaction, else the one that awaits its boundary. -/
def State.txRegs (s : State) (c : Nat) : State :=
  let x := s.tx c
  let q := if x.opened then (1, x.boundary, x.content.length)
    else match x.ended with
      | e :: _ => (2, e.boundary, e.content.length)
      | [] => (0, 0, 0)
  ((s.put F.FLOCK_TXc_STATUS_STATE q.1 c).put F.FLOCK_TXc_STATUS_BOUNDARY q.2.1 c).put F.FLOCK_TXc_STATUS_WRITES (min 4096 q.2.2) c

/-- The registers of what a reset keeps (R27, R219): the flock records and the transactions (R225, R228, R229). -/
def State.keptRegs (s : State) : State := s.flockRegs.each (List.range 8) State.txRegs

end Sys2Proof.Machine
end

