-- ==== Sys2Proof/Machine/Fold.lean ====
section
/-! DEFINITION. Fold state, runs, faults, event flags and pacing (spec/10_korty_model.md). -/
set_option Elab.async false
namespace Sys2Proof.Machine

/-! ### Registers and scratch (R345 to R347) -/

/-- k[i]; k0 reads as 0. -/
def State.kreg (s : State) (n i : Nat) : Nat := if i = 0 then 0 else (nth (s.fold n).k i 0).toNat
/-- Write k[i]; a write of k0 is discarded. -/
def State.setK (s : State) (n i v : Nat) : State :=
  if i = 0 then s else s.onFold n fun f => { f with k := modAt f.k i fun _ => BitVec.ofNat 32 v }
def State.qreg (s : State) (n i : Nat) : Nat := (nth (s.fold n).q i 0).toNat
def State.setQ (s : State) (n i v : Nat) : State :=
  s.onFold n fun f => { f with q := modAt f.q i fun _ => BitVec.ofNat 64 v }
/-- x0, y0, x1, y1 of a rectangle register (R346). -/
def rectOf (q : Nat) : Nat × Nat × Nat × Nat := (bits q 0 16, bits q 16 16, bits q 32 16, bits q 48 16)
/-- The signed value of a 32-bit number. -/
def s32 (v : Nat) : Int := sgn 32 v

/-- An access of `n` bytes at EA lies in scratch and is naturally aligned (R347). -/
def scratchOk (ea n : Nat) : Bool := decide (ea + n ≤ 2 ^ 18) && ea % n == 0

/-- A scratch word as the fold's own loads see it: the shadow copy of an open transaction, or live scratch (R388). -/
def State.loadWord (s : State) (n w : Nat) : Nat :=
  match (s.fold n).tx with
  | some t => match t.stores.find? fun e => e.1 == w with
    | some e => e.2
    | none => (s.fold n).scratch.get w
  | none => (s.fold n).scratch.get w
/-- A load of the word meets bad parity. -/
def State.loadBad (s : State) (n w : Nat) : Bool :=
  (s.fold n).scratchBad.contains w && !(match (s.fold n).tx with
    | some t => t.stores.any fun e => e.1 == w
    | none => false)
/-- Write a word of live scratch with new parity. -/
def State.scratchSet (s : State) (n w v : Nat) : State :=
  s.onFold n fun f => { f with scratch := f.scratch.set w v, scratchBad := f.scratchBad.filter (· != w) }
/-- A store of words by the sequencer: into the open transaction's shadow copies, or live. One instruction is one write. -/
def State.storeWords (s : State) (n : Nat) (ws : List (Nat × Nat)) : State :=
  match (s.fold n).tx with
  | some _ => s.onFold n fun f => { f with tx := f.tx.map fun t => { t with
      stores := ws ++ t.stores.filter fun e => !(ws.any fun x => x.1 == e.1)
      count := t.count + 1 } }
  | none => s.each ws fun s w => s.scratchSet n w.1 w.2
/-- An issued and not yet completed pipeline instruction will write one of the words (R360). -/
def State.wordPending (s : State) (n : Nat) (ws : List Nat) : Bool :=
  (s.fold n).queue.any fun i => match i.rec_ with
    | some a => ws.any fun w => w == a / 4 || w == a / 4 + 1
    | none => false

/-! ### The sequencer -/

def State.inRun (s : State) (n : Nat) : Bool := s.b F.FOLDn_STATUS_IN_RUN n
/-- Nanoseconds since an instant. -/
def State.since (s : State) (t : Nat) : Nat := (s.time.clock - t) / nsU

/-- A wait during which the fold is inactive: a PAUSE, or one of R360 or R361 (R363). -/
def idleWait (code : Nat) : Bool := [1, 2, 4, 5].contains code

/-- Begin a wait with its code of FOLDn_STATUS.WAIT. -/
def State.wait (s : State) (n code : Nat) : State :=
  (s.put F.FOLDn_STATUS_WAIT code n).onFold n fun f => { f with
    waitFrom := if idleWait code then some (f.waitFrom.getD s.time.clock) else none }
/-- End the wait: its time counts toward the inactive part of the window (R363). -/
def State.unwait (s : State) (n : Nat) : State :=
  (s.put F.FOLDn_STATUS_WAIT 0 n).onFold n fun f => { f with
    winIdle := f.winIdle + (match f.waitFrom with
      | some t => s.since t
      | none => 0)
    waitFrom := none, until_ := none, waitFlags := none, yieldTo := none }

/-- Folds that wait for flags of fold `m` go on when the flags are set, or when the fold's run has ended without setting them
(R361). -/
def State.wakeFlags (s : State) (m : Nat) : State :=
  s.each (List.range 4) fun s n =>
    match (s.fold n).waitFlags with
    | some w =>
      if w.1 != m then s
      else if Nat.land (s.fold m).events w.2 == w.2 then (s.unwait n).onFold n fun f => { f with v := false }
      else if s.inRun m then s
      else (s.unwait n).onFold n fun f => { f with v := true }
    | none => s

/-- Set event flags of a fold. -/
def State.setFlags (s : State) (n mask : Nat) : State :=
  let s := s.onFold n fun f => { f with events := Nat.lor f.events mask }
  (s.put F.FOLDn_STATUS_FLAGS (s.fold n).events n).wakeFlags n

/-- The throttle's share of the run's part of the present pacing window, ns (R363); where in a window the inactive part lies the spec leaves
open, so that of a part of one is a free value (assumption 84). -/
def State.throttleShare (s : State) (n : Nat) : Nat :=
  let thr := 64 * (16 - (s.fold n).winDuty)
  let part := s.time.aon - (s.fold n).winAt
  if 1024 ≤ part then thr else Config.free s.fresh % (min thr part + 1)

/-- The run's part of a pacing window ends: it was inactive for the longer of the throttle and its waits (R363). -/
def State.endWindow (s : State) (n : Nat) : State :=
  let share := s.throttleShare n
  s.tickFresh.onFold n fun f => { f with
    idle := f.idle + max share (min 1024 (f.winIdle + (match f.waitFrom with
      | some t => s.since t
      | none => 0)))
    winIdle := 0, winAt := s.time.aon / 1024 * 1024, waitFrom := f.waitFrom.map fun _ => s.time.clock }

/-- The run ends: STEPS, IDLE and the composition figures of the run are reported, an open transaction is discarded (R359),
and folds that wait for its flags are released. -/
def State.endRun (s : State) (n : Nat) : State :=
  let s := (s.unwait n).endWindow n
  let s := if s.isHead then s.onRing fun r => { r with live := (r.live + 1) % 2 ^ 32 } else s
  let s := s.onFold n fun f => { f with queue := [], strips := [none, none, none, none] }
  let f := s.fold n
  let s := (s.put F.FOLDn_STEPS (min f.steps (2 ^ 32 - 1)) n).put F.FOLDn_IDLE (min f.idle (2 ^ 32 - 1)) n
  let s := if f.tx.isSome then (s.flag F.FOLDn_STATUS_TX_DISCARD true n).onFold n fun f => { f with tx := none } else s
  let s := (s.put F.FOLDn_COMP_LAMPS (min f.lamps (2 ^ 32 - 1)) n).put F.FOLDn_COMP_CULLED (min f.culled (2 ^ 32 - 1)) n
  let s := (s.put F.FOLDn_COMP_FETCH (min f.fetched (2 ^ 32 - 1)) n).put F.FOLDn_COMP_STATUS_SLOT f.slot n
  ((s.flag F.FOLDn_COMP_STATUS_BUSY false n).flag F.FOLDn_STATUS_IN_RUN false n).wakeFlags n

/-- A fault at instruction `pc` (R365, R366). -/
def State.foldFault (s : State) (n code pc : Nat) : State :=
  let f := s.fold n
  let s := ((s.put F.FOLDn_FAULT_CODE code n).put F.FOLDn_FAULT_PC pc n).put F.FOLDn_FAULT_SLOT f.slot n
  let s := ((s.inc F.FOLDn_FAULTS n).irqAll F.CTXn_IRQ_CAUSE_FOLD).noteFault.onBist fun b => { b with lastFold := some s.time.clock }
  let s := (s.endRun n).onFold n fun f => { f with faulted := true, faultRuns := f.faultRuns + 1 }
  let s := if s.isTile && !f.complete then s.onComp fun c => { c with dropped := true } else s
  if s.b F.FOLDn_CTL_FAULT_STOP n || decide (3 ≤ f.faultRuns + 1) then s.put F.FOLDn_STATUS_STATE 3 n else s

/-- The sequential fetch: beyond instruction 8,191 it is a PC_RANGE fault, whose recorded PC the 13-bit field cannot show and
the spec does not give: a free value (R365). -/
def State.fetch (s : State) (n : Nat) : State :=
  let s := s.put F.FOLDn_STATUS_PC (s.fold n).pc n
  if s.inRun n && !(s.fold n).ended && decide (8192 ≤ (s.fold n).pc) then (s.tickFresh).foldFault n 2 (Config.free s.fresh) else s

/-- Resume after a wait. -/
def State.resume (s : State) (n : Nat) : State := (s.unwait n).fetch n

/-- The sequencer of fold `n` stands at an instruction with opcode `op` and can execute it now. -/
def State.seqReady (s : State) (n op : Nat) : Bool :=
  s.pwr.up && s.inRun n && !(s.fold n).ended && s.f F.FOLDn_STATUS_WAIT n == 0 && kOp ((s.fold n).prog.get (s.fold n).pc) == op

/-- Count the instruction and go on to the next one. -/
def State.advance (s : State) (n : Nat) : State :=
  (s.onFold n fun f => { f with pc := f.pc + 1, steps := f.steps + 1 }).fetch n

/-- Count the instruction and go on to the next one, which is fetched once the wait that `w` begins, if any, has ended. -/
def State.advanceWait (s : State) (n : Nat) (waits : Bool) (w : State → State) : State :=
  let s := s.onFold n fun f => { f with pc := f.pc + 1, steps := f.steps + 1 }
  if waits then w (s.put F.FOLDn_STATUS_PC (s.fold n).pc n) else s.fetch n

/-- Execute the instruction at the PC when its opcode is `op`: a parity error on it is a fault (R365), else `act` gives its
effect from the state, the instruction word and the PC. -/
def State.korty (s : State) (n op : Nat) (act : State → Nat → Nat → State) : State :=
  if s.seqReady n op then
    let pc := (s.fold n).pc
    if 8192 ≤ pc then s.fetch n
    else if (s.fold n).progBad.contains pc then s.foldFault n 1 pc else act s ((s.fold n).prog.get pc) pc
  else s

/-! ### Runs (R352 to R359) -/

/-- Start a run of fold `n` (R345, R353). -/
def State.startRun (s : State) (n frame slot deadline : Nat) : State :=
  let preset := fun i => if i = 1 then frame else if i = 2 then slot
    else if i = 3 then (if s.isHead then 1 else s.frontTiming.slots) else if i = 4 then n else if i = 5 then s.f F.FOLDn_ARG n else 0
  let s := s.onFold n fun f => { f with
    k := (List.range 32).map fun i => BitVec.ofNat 32 (preset i)
    q := (List.range 16).map fun j =>
      if j < 4 then BitVec.ofNat 64 (s.f F.FOLDn_QINITj_LO n j + 2 ^ 32 * s.f F.FOLDn_QINITj_HI n j) else 0
    z := false, n := false, c := false, v := false
    pc := s.f F.FOLDn_ENTRY n, events := 0, queue := [], strips := [none, none, none, none]
    frame := frame, slot := slot, start := s.time.clock, deadline := deadline
    ended := false, halt := false, began := true, complete := false, faulted := false
    until_ := none, waitFlags := none, yieldTo := none, waitFrom := none, winIdle := 0, winAt := s.time.aon
    steps := 0, idle := 0, tx := none, lamps := 0, culled := 0, fetched := 0, pats := [] }
  let s := ((s.inc F.FOLDn_RUNS n).flag F.FOLDn_STATUS_IN_RUN true n).put F.FOLDn_STATUS_WAIT 0 n
  let s := (s.put F.FOLDn_STATUS_FLAGS 0 n).flag F.FOLDn_COMP_STATUS_BUSY s.isTile n
  s.put F.FOLDn_STATUS_PC (s.fold n).pc n

/-- A run that is not complete at its deadline is overrun (R356). -/
def State.overrun (s : State) (n : Nat) : State := (s.endRun n).inc F.FOLDn_OVERRUNS n

/-- Fold states of Table 10-4. -/
def State.foldState (s : State) (n : Nat) : Nat := s.f F.FOLDn_STATUS_STATE n

/-- Pending STOP or ENABLE = 0 takes effect (at the slot latch; on a head, at S_n). -/
def State.applyStop (s : State) (n : Nat) : State :=
  let f := s.fold n
  let s := s.when (f.toHalt && s.foldState n == 1) fun s => s.put F.FOLDn_STATUS_STATE 2 n
  (s.when f.toStop fun s => s.put F.FOLDn_STATUS_STATE 0 n).onFold n fun f => { f with toHalt := false, toStop := false }

/-- The program switch of the ACTIVATEs with a timestamp up to the latch at `by_` (R351): nothing is switched on a parity error in the load
image. -/
def State.programSwitch (s : State) (by_ n : Nat) : State :=
  let s := s.onFold n fun f => { f with acts := f.acts.filter fun a => decide (by_ < a) }
  let s := s.flag F.FOLDn_STATUS_ACTIVATE_PENDING (!(s.fold n).acts.isEmpty) n
  if (s.fold n).loadBad.isEmpty then
    (s.onFold n fun f => { f with prog := f.load, progBad := [] }).put F.FOLDn_PROG_TAG_NOW (s.f F.FOLDn_PROG_TAG n) n
  else s

/-- A latch at `by_` meets an ACTIVATE of the fold (R351). -/
def State.switchDue (s : State) (by_ n : Nat) : Bool := (s.fold n).acts.any fun a => decide (a ≤ by_)

/-- What applies to a fold at the frame latch at `by_` (on a head, at S_n before the run), once the waiting writes accepted up to it have: the
program switch, and RUNNING unless a test of one of its partitions is still going on (R556). What was written since waits for the next
latch (R237, R351, R352). -/
def State.foldLatch (s : State) (by_ n : Nat) : State :=
  let s := s.when (s.switchDue by_ n) fun s => s.programSwitch by_ n
  let testing := s.bist.run.any fun r => !r.mem && !r.online && (r.left.head?).any fun p => p / 5 == n
  if ((s.fold n).toRun.any fun a => decide (a ≤ by_)) && !testing then
    (s.put F.FOLDn_STATUS_STATE 1 n).onFold n fun f => { f with toRun := none }
  else s

/-- A memory instance of the fold has failed and cannot be repaired: the fold is held STOPPED (R561). -/
def State.foldBroken (s : State) (n : Nat) : Bool := s.bist.failed.any fun i => decide (i < 24) && i % 4 == n

/-- The fold is RUNNING from the first frame latch at or after the timestamp `at_` on. -/
def State.runFrom (s : State) (n at_ : Nat) : State := s.onFold n fun f => { f with toRun := some (f.toRun.getD at_) }

/-- FOLDn_CTL.ENABLE written with the timestamp `at_` (R352); ignored while a memory instance of the fold is out of use (R561). -/
def State.foldEnable (s : State) (n : Nat) (v : Bool) (at_ : Nat) : State :=
  if s.foldBroken n then s else
  let s := s.flag F.FOLDn_CTL_ENABLE v n
  if v then (if s.foldState n == 0 then s.runFrom n at_ else s.onFold n fun f => { f with toStop := false })
  else
    let s := s.onFold n fun f => { f with toRun := none }
    if s.foldState n == 1 then s.onFold n fun f => { f with toStop := true } else s.put F.FOLDn_STATUS_STATE 0 n
/-- FOLDn_CTL.ACTIVATE written with the timestamp `at_` (R351). -/
def State.foldActivate (s : State) (n at_ : Nat) : State :=
  (s.flag F.FOLDn_STATUS_ACTIVATE_PENDING true n).onFold n fun f => { f with acts := at_ :: f.acts }
/-- FOLDn_CTL.RESTART written with the timestamp `at_`. -/
def State.foldRestart (s : State) (n at_ : Nat) : State :=
  if s.foldState n == 2 || s.foldState n == 3 then s.runFrom n at_ else s
/-- FOLDn_CTL.STOP written: it takes effect at the next slot latch, whatever becomes of ENABLE before it (R352, R368). -/
def State.foldStop (s : State) (n : Nat) : State := s.onFold n fun f => { f with toHalt := true }
/-- FOLDn_CTL.CLEAR written (R368). -/
def State.foldClear (s : State) (n : Nat) : State :=
  let s := ((((s.zero F.FOLDn_RUNS n).zero F.FOLDn_OVERRUNS n).zero F.FOLDn_FAULTS n).zero F.FOLDn_TRAPS n).zero
    F.FOLDn_FAULT_CODE n
  s.flag F.FOLDn_STATUS_TX_DISCARD false n

/-- A fold reset (R345, R352, R389): the run is abandoned, the fold is not RUNNING until the next frame latch. -/
def State.foldReset (s : State) (n : Nat) : State :=
  let f := s.fold n
  let s := if s.inRun n then
      (s.endRun n).onComp fun c => { c with dropped := c.dropped || (s.isTile && !f.complete) }
    else s
  let s := if f.scheduled.isSome then s.flag F.FOLDn_STATUS_TX_DISCARD true n else s
  let s := s.onFold n fun f => { f with
    k := List.replicate 32 0, q := List.replicate 16 0, z := false, n := false, c := false, v := false
    pc := 0, events := 0, queue := [], scheduled := none, pats := []
    toHalt := false, toStop := false, toRun := if s.b F.FOLDn_CTL_ENABLE n then some s.time.clock else none }
  ((s.put F.FOLDn_STATUS_STATE 0 n).put F.FOLDn_STATUS_FLAGS 0 n).put F.FOLDn_STATUS_PC 0 n

/-- FOLD_ENABLE (R352). -/
def execFoldEnable (fold : Fin 4) (value : Bool) (s : State) : Host.Outcome State Fault Refusal :=
  .next (if s.pwr.up then s.foldEnable fold value s.time.clock else s)
/-- ACTIVATE (R351). -/
def execActivate (fold : Fin 4) (s : State) : Host.Outcome State Fault Refusal :=
  .next (if s.pwr.up then s.foldActivate fold s.time.clock else s)
/-- RESTART (R368). -/
def execRestart (fold : Fin 4) (s : State) : Host.Outcome State Fault Refusal :=
  .next (if s.pwr.up then s.foldRestart fold s.time.clock else s)
/-- STOP (R368). -/
def execStop (fold : Fin 4) (s : State) : Host.Outcome State Fault Refusal :=
  .next (if s.pwr.up then s.foldStop fold else s)
/-- FOLD_CLEAR (R368). -/
def execFoldClear (fold : Fin 4) (s : State) : Host.Outcome State Fault Refusal :=
  .next (if s.pwr.up then s.foldClear fold else s)

/-- PACING_WINDOW (R363): a window of 1,024 ns ends, its inactive part is the longer of the pause or wait and the throttle, and
a new duty applies from the next (R486). `upset`: a word of the fold's memories that has lost its parity since the last window. -/
def execPacingWindow (fold : Fin 4) (upset : Option Upset) (s : State) : Host.Outcome State Fault Refusal :=
  .next (if s.pwr.up && decide ((s.fold fold).windows < s.time.aon / 1024) then
    let s := s.onFold fold fun f => { f with windows := s.time.aon / 1024 }
    let s := match upset with
      | some (.prog w) => s.onFold fold fun f => { f with progBad := (w % 8192) :: f.progBad }
      | some (.load w) => s.onFold fold fun f => { f with loadBad := (w % 8192) :: f.loadBad }
      | some (.scratch w) => s.onFold fold fun f => { f with scratchBad := (w % 65536) :: f.scratchBad }
      | none => s
    (s.when (s.inRun fold) fun s => s.endWindow fold).onFold fold fun f => { f with winDuty := s.f F.FOLDn_PACE_DUTY fold }
  else s)

/-- The instant that fold `n` awaits has come (R164). -/
def State.waitOver (s : State) (n : Nat) : Bool :=
  match (s.fold n).until_ with
  | some t => decide (t ≤ s.time.clock)
  | none => false

/-- WAITT_EXPIRE (R387). -/
def execWaittExpire (fold : Fin 4) (s : State) : Host.Outcome State Fault Refusal :=
  .next (if s.pwr.up && s.inRun fold && s.f F.FOLDn_STATUS_WAIT fold == 3 && s.waitOver fold then s.resume fold else s)
/-- PAUSE_END (R387). -/
def execPauseEnd (fold : Fin 4) (s : State) : Host.Outcome State Fault Refusal :=
  .next (if s.pwr.up && s.inRun fold && s.f F.FOLDn_STATUS_WAIT fold == 5 && s.waitOver fold then s.resume fold else s)

/-! ### Arithmetic and logic (R374, R375) -/

/-- The result of an ALU operation with its C and V. -/
structure Alu where
  r : Nat
  c : Bool
  v : Bool
  deriving DecidableEq, Repr

def m32 : Nat := 2 ^ 32
/-- A signed sum or difference does not fit 32 bits. -/
def overflow32 (x : Int) : Bool := decide (x < -(2 ^ 31 : Int)) || decide ((2 ^ 31 : Int) ≤ x)

def aluAdd (a b : Nat) : Alu := ⟨(a + b) % m32, decide (m32 ≤ a + b), overflow32 (s32 a + s32 b)⟩
def aluSub (a b : Nat) : Alu := ⟨(a + m32 - b) % m32, decide (a < b), overflow32 (s32 a - s32 b)⟩
def aluAnd (a b : Nat) : Alu := ⟨Nat.land a b, false, false⟩
def aluOr (a b : Nat) : Alu := ⟨Nat.lor a b, false, false⟩
def aluXor (a b : Nat) : Alu := ⟨Nat.xor a b, false, false⟩
/-- Shifts: C is the last bit shifted out, or 0 for a shift of 0. -/
def aluShl (a k : Nat) : Alu := let k := k % 32; ⟨a * 2 ^ k % m32, k != 0 && bitOf a (32 - k), false⟩
def aluShr (a k : Nat) : Alu := let k := k % 32; ⟨a / 2 ^ k, k != 0 && bitOf a (k - 1), false⟩
def aluSar (a k : Nat) : Alu := let k := k % 32; ⟨unsgn 32 (s32 a / 2 ^ k), k != 0 && bitOf a (k - 1), false⟩
/-- MUL: V of the low word is 1 when the full product differs from the word extended the same way. -/
def aluMul (u high : Bool) (a b : Nat) : Alu :=
  let p : Int := if u then (a * b : Nat) else s32 a * s32 b
  let full := unsgn 64 p
  let lo := full % m32
  if high then ⟨full / m32, false, false⟩ else ⟨lo, false, p != (if u then (lo : Int) else s32 lo)⟩
def aluLess (u : Bool) (a b : Nat) : Bool := if u then decide (a < b) else decide (s32 a < s32 b)
def aluMin (u : Bool) (a b : Nat) : Alu := ⟨if aluLess u b a then b else a, false, false⟩
def aluMax (u : Bool) (a b : Nat) : Alu := ⟨if aluLess u a b then b else a, false, false⟩

/-- Set the flags of R375. -/
def State.setNZCV (s : State) (n : Nat) (x : Alu) : State :=
  s.onFold n fun f => { f with z := x.r == 0, n := bitOf x.r 31, c := x.c, v := x.v }

/-- An ALU instruction: `x` from the operands, the TV fault, flags under S, the result to RD. -/
def State.alu (s : State) (n w pc : Nat) (tv : Bool) (x : Alu) : State :=
  if tv && kTv w && x.v then s.foldFault n 10 pc
  else (((if kS w then s.setNZCV n x else s)).setK n (kRd w) x.r).advance n

/-- The second operand of a format R instruction, and of a format I instruction. -/
def State.opR (s : State) (n w : Nat) : Nat × Nat := (s.kreg n (kRs1 w), s.kreg n (kRs2 w))
def State.opI (s : State) (n w : Nat) : Nat × Nat := (s.kreg n (kRs1 w), kImm w)

/-- NOP. -/
def execNop (fold : Fin 4) (s : State) : Host.Outcome State Fault Refusal :=
  .next (s.korty fold 0x00 fun s _ _ => s.advance fold)
/-- ADD. -/
def execAdd (fold : Fin 4) (s : State) : Host.Outcome State Fault Refusal :=
  .next (s.korty fold 0x01 fun s w pc => s.alu fold w pc true (aluAdd (s.opR fold w).1 (s.opR fold w).2))
/-- SUB. -/
def execSub (fold : Fin 4) (s : State) : Host.Outcome State Fault Refusal :=
  .next (s.korty fold 0x02 fun s w pc => s.alu fold w pc true (aluSub (s.opR fold w).1 (s.opR fold w).2))
/-- AND. -/
def execAndR (fold : Fin 4) (s : State) : Host.Outcome State Fault Refusal :=
  .next (s.korty fold 0x03 fun s w pc => s.alu fold w pc false (aluAnd (s.opR fold w).1 (s.opR fold w).2))
/-- OR. -/
def execOrR (fold : Fin 4) (s : State) : Host.Outcome State Fault Refusal :=
  .next (s.korty fold 0x04 fun s w pc => s.alu fold w pc false (aluOr (s.opR fold w).1 (s.opR fold w).2))
/-- XOR. -/
def execXorR (fold : Fin 4) (s : State) : Host.Outcome State Fault Refusal :=
  .next (s.korty fold 0x05 fun s w pc => s.alu fold w pc false (aluXor (s.opR fold w).1 (s.opR fold w).2))
/-- SHL. -/
def execShl (fold : Fin 4) (s : State) : Host.Outcome State Fault Refusal :=
  .next (s.korty fold 0x06 fun s w pc => s.alu fold w pc false (aluShl (s.opR fold w).1 (s.opR fold w).2))
/-- SHR. -/
def execShr (fold : Fin 4) (s : State) : Host.Outcome State Fault Refusal :=
  .next (s.korty fold 0x07 fun s w pc => s.alu fold w pc false (aluShr (s.opR fold w).1 (s.opR fold w).2))
/-- SAR. -/
def execSar (fold : Fin 4) (s : State) : Host.Outcome State Fault Refusal :=
  .next (s.korty fold 0x08 fun s w pc => s.alu fold w pc false (aluSar (s.opR fold w).1 (s.opR fold w).2))
/-- MUL. -/
def execMul (fold : Fin 4) (s : State) : Host.Outcome State Fault Refusal :=
  .next (s.korty fold 0x09 fun s w pc => s.alu fold w pc false (aluMul (kU w) (kHigh w) (s.opR fold w).1 (s.opR fold w).2))
/-- MIN. -/
def execMinR (fold : Fin 4) (s : State) : Host.Outcome State Fault Refusal :=
  .next (s.korty fold 0x0A fun s w pc => s.alu fold w pc false (aluMin (kU w) (s.opR fold w).1 (s.opR fold w).2))
/-- MAX. -/
def execMaxR (fold : Fin 4) (s : State) : Host.Outcome State Fault Refusal :=
  .next (s.korty fold 0x0B fun s w pc => s.alu fold w pc false (aluMax (kU w) (s.opR fold w).1 (s.opR fold w).2))
/-- CMP: flags alone. -/
def execCmp (fold : Fin 4) (s : State) : Host.Outcome State Fault Refusal :=
  .next (s.korty fold 0x0C fun s w _ => (s.setNZCV fold (aluSub (s.opR fold w).1 (s.opR fold w).2)).advance fold)
/-- ADDI. -/
def execAddi (fold : Fin 4) (s : State) : Host.Outcome State Fault Refusal :=
  .next (s.korty fold 0x11 fun s w pc => s.alu fold w pc true (aluAdd (s.opI fold w).1 (s.opI fold w).2))
/-- ANDI. -/
def execAndi (fold : Fin 4) (s : State) : Host.Outcome State Fault Refusal :=
  .next (s.korty fold 0x13 fun s w pc => s.alu fold w pc false (aluAnd (s.opI fold w).1 (s.opI fold w).2))
/-- ORI. -/
def execOri (fold : Fin 4) (s : State) : Host.Outcome State Fault Refusal :=
  .next (s.korty fold 0x14 fun s w pc => s.alu fold w pc false (aluOr (s.opI fold w).1 (s.opI fold w).2))
/-- XORI. -/
def execXori (fold : Fin 4) (s : State) : Host.Outcome State Fault Refusal :=
  .next (s.korty fold 0x15 fun s w pc => s.alu fold w pc false (aluXor (s.opI fold w).1 (s.opI fold w).2))
/-- SHLI. -/
def execShli (fold : Fin 4) (s : State) : Host.Outcome State Fault Refusal :=
  .next (s.korty fold 0x16 fun s w pc => s.alu fold w pc false (aluShl (s.opI fold w).1 (s.opI fold w).2))
/-- SHRI. -/
def execShri (fold : Fin 4) (s : State) : Host.Outcome State Fault Refusal :=
  .next (s.korty fold 0x17 fun s w pc => s.alu fold w pc false (aluShr (s.opI fold w).1 (s.opI fold w).2))
/-- SARI. -/
def execSari (fold : Fin 4) (s : State) : Host.Outcome State Fault Refusal :=
  .next (s.korty fold 0x18 fun s w pc => s.alu fold w pc false (aluSar (s.opI fold w).1 (s.opI fold w).2))
/-- CMPI. -/
def execCmpi (fold : Fin 4) (s : State) : Host.Outcome State Fault Refusal :=
  .next (s.korty fold 0x1C fun s w _ => (s.setNZCV fold (aluSub (s.opI fold w).1 (s.opI fold w).2)).advance fold)

/-! ### GET, rectangles, branch (R376, R377, R349) -/

/-- The value of a GET selector (Table 11-4). -/
def State.getValue (s : State) (n sel : Nat) : Nat :=
  let f := s.fold n
  let groups := fun (p : Nat → Bool) => ((List.range 4).map fun g => b2n (p g) * 2 ^ g).foldl (· + ·) 0
  match sel with
  | 0 => s.f F.FOLDn_PACE_DUTY n
  | 1 => b2n s.isHead
  | 2 => min (s.since f.start) (2 ^ 32 - 1)
  | 3 => unsgn 32 (((f.deadline : Int) - s.time.clock) / (nsU : Nat))
  | 4 => groups s.composed + 16 * groups s.isClone
  | 5 => s.f F.FOLDn_PROG_TAG_NOW n
  | 6 => periodU s.frontTiming.code / s.frontTiming.slots / nsU
  | _ => if s.isHead then 0 else ((List.range 16).map fun l => s.f F.LAYERn_CSTAT_SHOWN_VALID l * 2 ^ l).foldl (· + ·) 0

/-- GET. -/
def execGet (fold : Fin 4) (s : State) : Host.Outcome State Fault Refusal :=
  .next (s.korty fold 0x1D fun s w pc =>
    if 8 ≤ kImm w then s.foldFault fold 7 pc
    else (s.setK fold (kRd w) (s.getValue fold (kImm w))).advance fold)
/-- QSET. -/
def execQset (fold : Fin 4) (s : State) : Host.Outcome State Fault Refusal :=
  .next (s.korty fold 0x20 fun s w _ =>
    (s.setQ fold (kQa w) (s.kreg fold (kRs1 w) + s.kreg fold (kRs2 w) * 2 ^ 32)).advance fold)
/-- QGET. -/
def execQget (fold : Fin 4) (s : State) : Host.Outcome State Fault Refusal :=
  .next (s.korty fold 0x21 fun s w _ =>
    (s.setK fold (kRd w) (bits (s.qreg fold (kQb w)) (32 * (kStage w % 2)) 32)).advance fold)
/-- The intersection of two rectangles, and whether it is empty. -/
def isect (a b : Nat × Nat × Nat × Nat) : Nat × Bool :=
  let x0 := max a.1 b.1
  let y0 := max a.2.1 b.2.1
  let x1 := min a.2.2.1 b.2.2.1
  let y1 := min a.2.2.2 b.2.2.2
  (x0 + 2 ^ 16 * y0 + 2 ^ 32 * x1 + 2 ^ 48 * y1, decide (x1 ≤ x0) || decide (y1 ≤ y0))
/-- QISECT. -/
def execQisect (fold : Fin 4) (s : State) : Host.Outcome State Fault Refusal :=
  .next (s.korty fold 0x22 fun s w _ =>
    let r := isect (rectOf (s.qreg fold (kQa w))) (rectOf (s.qreg fold (kQb w)))
    ((s.setQ fold (kQa w) r.1).onFold fold fun f => { f with z := r.2 }).advance fold)

/-- The conditions of Table 10-3. -/
def Fold.cond (f : Fold) (c : Nat) : Bool :=
  match c with
  | 0 => true
  | 1 => false
  | 2 => f.z
  | 3 => !f.z
  | 4 => f.n
  | 5 => !f.n
  | 6 => f.c
  | 7 => !f.c
  | 8 => f.v
  | 9 => !f.v
  | 10 => !f.c && !f.z
  | 11 => f.c || f.z
  | 12 => f.n == f.v
  | 13 => f.n != f.v
  | 14 => !f.z && f.n == f.v
  | _ => f.z || f.n != f.v

/-- BR (R349): the target is read before the link is written. -/
def execBr (fold : Fin 4) (s : State) : Host.Outcome State Fault Refusal :=
  .next (s.korty fold 0x30 fun s w pc =>
    let target := (s.kreg fold (kRs1 w) + kTarget w) % m32
    let taken := (s.fold fold).cond (kCond w)
    if taken && decide (8191 < target) then s.foldFault fold 2 pc
    else
      let s := s.setK fold (kRd w) (pc + 1)
      if taken then (s.onFold fold fun f => { f with pc := target, steps := f.steps + 1 }).fetch fold else s.advance fold)

/-! ### Scratch access (R378) -/

/-- EA of a scratch instruction. -/
def State.ea (s : State) (n w : Nat) : Nat := (s.kreg n (kRs1 w) + kImm w) % m32

/-- A load of `words` words at EA: range, interlock and parity, then `act` on the address. -/
def State.loading (s : State) (n pc ea words : Nat) (act : State → State) : State :=
  let ws := (List.range words).map fun k => ea / 4 + k
  if !(scratchOk ea (4 * words)) then s.foldFault n 3 pc
  else if s.wordPending n ws then s.wait n 2
  else if ws.any (s.loadBad n) then s.foldFault n 4 pc
  else act s
/-- A store of words at EA. -/
def State.storing (s : State) (n pc ea : Nat) (vs : List Nat) : State :=
  let ws := (List.range vs.length).map fun k => ea / 4 + k
  if !(scratchOk ea (4 * vs.length)) then s.foldFault n 3 pc
  else if s.wordPending n ws then s.wait n 2
  else (s.storeWords n (ws.zip vs)).advance n

/-- LD. -/
def execLd (fold : Fin 4) (s : State) : Host.Outcome State Fault Refusal :=
  .next (s.korty fold 0x40 fun s w pc => s.loading fold pc (s.ea fold w) 1 fun t =>
    (t.setK fold (kRd w) (t.loadWord fold (s.ea fold w / 4))).advance fold)
/-- ST. -/
def execSt (fold : Fin 4) (s : State) : Host.Outcome State Fault Refusal :=
  .next (s.korty fold 0x41 fun s w pc => s.storing fold pc (s.ea fold w) [s.kreg fold (kRd w)])
/-- LDC. -/
def execLdc (fold : Fin 4) (s : State) : Host.Outcome State Fault Refusal :=
  .next (s.korty fold 0x42 fun s w pc => s.loading fold pc (s.ea fold w) 2 fun t =>
    let x := t.loadWord fold (s.ea fold w / 4)
    if t.loadWord fold (s.ea fold w / 4 + 1) = m32 - 1 - x then (t.setK fold (kRd w) x).advance fold
    else t.foldFault fold 5 pc)
/-- QLD. -/
def execQld (fold : Fin 4) (s : State) : Host.Outcome State Fault Refusal :=
  .next (s.korty fold 0x43 fun s w pc => s.loading fold pc (s.ea fold w) 2 fun t =>
    (t.setQ fold (kRd w % 16) (t.loadWord fold (s.ea fold w / 4) + m32 * t.loadWord fold (s.ea fold w / 4 + 1))).advance fold)
/-- QST. -/
def execQst (fold : Fin 4) (s : State) : Host.Outcome State Fault Refusal :=
  .next (s.korty fold 0x44 fun s w pc =>
    let q := s.qreg fold (kRd w % 16)
    s.storing fold pc (s.ea fold w) [q % m32, q / m32])

/-! ### Synchronisation (R361, R387) and run control (R354, R367, R392) -/

/-- Issued pipeline instructions that are incomplete; a SIGNAL in its place is none. -/
def Fold.incomplete (f : Fold) : Nat := (f.queue.filter fun i => i.op != 0x62).length

/-- WAITT. -/
def execWaitt (fold : Fin 4) (s : State) : Host.Outcome State Fault Refusal :=
  .next (s.korty fold 0x60 fun s w _ =>
    let off := s32 ((s.kreg fold (kRs1 w) + kImm w) % m32)
    let t : Int := (s.fold fold).start + off * (nsU : Nat)
    let past := decide (t < s.time.clock)
    (s.onFold fold fun f => { f with z := past }).advanceWait fold (decide ((s.time.clock : Int) < t)) fun s =>
      (s.onFold fold fun f => { f with until_ := some t.toNat }).wait fold 3)
/-- WAITH. -/
def execWaith (fold : Fin 4) (s : State) : Host.Outcome State Fault Refusal :=
  .next (s.korty fold 0x61 fun s w _ =>
    let m := kImm w % 4
    let mask := bits (kImm w) 8 8
    let there := s.inRun m && (s.fold m).frame == (s.fold fold).frame && (s.fold m).slot == (s.fold fold).slot
    let set := Nat.land (s.fold m).events mask == mask
    (s.onFold fold fun f => { f with v := !set && !there }).advanceWait fold (!set && there) fun s =>
      (s.onFold fold fun f => { f with waitFlags := some (m, mask) }).wait fold 4)
/-- SIGNAL: at once when nothing issued before it is incomplete, else in its place in the queue. -/
def execSignal (fold : Fin 4) (s : State) : Host.Outcome State Fault Refusal :=
  .next (s.korty fold 0x62 fun s w _ =>
    let mask := bits (kImm w) 0 8
    let s := if (s.fold fold).queue.isEmpty then s.setFlags fold mask
      else s.onFold fold fun f => { f with queue := f.queue ++ [⟨0x62, ⟨0, 0, 0, 0, 0, 0, false, false, none⟩, none, mask, true, 0, 0, f.pc⟩] }
    s.advance fold)
/-- PAUSE. -/
def execPause (fold : Fin 4) (s : State) : Host.Outcome State Fault Refusal :=
  .next (s.korty fold 0x63 fun s w _ =>
    let ns := bits (kImm w) 0 20
    s.advanceWait fold (ns != 0) fun s =>
      (s.onFold fold fun f => { f with until_ := some (s.time.clock + ns * nsU) }).wait fold 5)
/-- YIELD. -/
def execYield (fold : Fin 4) (s : State) : Host.Outcome State Fault Refusal :=
  .next (s.korty fold 0x64 fun s w _ =>
    let k := bits (kImm w) 0 7
    s.advanceWait fold (decide (k < (s.fold fold).incomplete)) fun s =>
      (s.onFold fold fun f => { f with yieldTo := some k }).wait fold 6)

/-- The instruction stream ends (R354); an open strip is an OPERAND fault (R379). -/
def State.endStream (s : State) (n pc : Nat) (halt : Bool) : State :=
  if (s.fold n).strips.any (·.isSome) then s.foldFault n 7 pc
  else s.onFold n fun f => { f with ended := true, halt := halt, steps := f.steps + 1 }
/-- TDONE. -/
def execTdone (fold : Fin 4) (s : State) : Host.Outcome State Fault Refusal :=
  .next (s.korty fold 0x7C fun s _ pc => s.endStream fold pc false)
/-- HALT. -/
def execHalt (fold : Fin 4) (s : State) : Host.Outcome State Fault Refusal :=
  .next (s.korty fold 0x7E fun s _ pc => s.endStream fold pc true)
/-- TRAP (R367). -/
def execTrap (fold : Fin 4) (s : State) : Host.Outcome State Fault Refusal :=
  .next (s.korty fold 0x7D fun s w pc =>
    if bitOf w 32 then s.foldFault fold 8 pc
    else (((s.put F.FOLDn_TRAP_CODE (kImm w) fold).inc F.FOLDn_TRAPS fold).irqAll F.CTXn_IRQ_CAUSE_FOLD).advance fold)

/-! ### Transactions and flocks (R388 to R391) -/

/-- KORTY_TXBEGIN (R388). -/
def execKortyTxbegin (fold : Fin 4) (s : State) : Host.Outcome State Fault Refusal :=
  .next (s.korty fold 0x70 fun s w pc =>
    let f := s.fold fold
    let fr := ((f.frame : Int) + seqDiff 32 (s.kreg fold (kRs1 w)) (f.frame % m32)).toNat
    if kImm w = 3 then s.foldFault fold 7 pc
    else if f.tx.isSome || f.scheduled.isSome then s.foldFault fold 9 pc
    else (s.onFold fold fun f => { f with tx := some ⟨kImm w, fr, s.f F.TIME_TEPOCH, [], 0⟩ }).advance fold)

/-- Host writes to the scratch of a fold that open local transactions and flocks hold (R389). -/
def State.heldScratch (s : State) (n : Nat) : List Nat :=
  let pick := fun (ws : List Wr) => ws.filterMap fun w => if w.table == some (0xA10 + n) then some w.at_ else none
  s.txs.flatMap (fun t => pick t.content) ++ (s.flocks.filter Flock.holds).flatMap fun f => pick f.content

/-- The result of TXEND: 0, or the first matching reason of R223. -/
def State.txResult (s : State) (n : Nat) (t : FoldTx) : Nat :=
  let late := match s.mapCount t.tepoch t.frame with
    | some f => decide (s.swapAt f < s.time.clock + usU (s.f F.FLOCK_GUARD))
    | none => false
  if t.stores.any fun e => (s.heldScratch n).contains e.1 then 2
  else if 4096 < t.count then 1
  else if t.boundary = 2 && late then 11
  else 0

/-- KORTY_TXEND (R389). -/
def execKortyTxend (fold : Fin 4) (s : State) : Host.Outcome State Fault Refusal :=
  .next (s.korty fold 0x71 fun s w pc =>
    match (s.fold fold).tx with
    | none => s.foldFault fold 9 pc
    | some t =>
      let r := s.txResult fold t
      let next := s.timing.firstAt (s.time.clock + usU (s.f F.FLOCK_GUARD))
      if r == 0 && t.boundary == 0 && s.wordPending fold (t.stores.map (·.1)) then s.wait fold 2 else
      let s := s.onFold fold fun f => { f with tx := none, z := r == 0 }
      let s := if r != 0 then s
        else match t.boundary with
          | 0 => s.each t.stores fun s e => s.scratchSet fold e.1 e.2
          | 1 => s.onFold fold fun f => { f with scheduled := some { t with frame := next, tepoch := s.f F.TIME_TEPOCH } }
          | _ => s.onFold fold fun f => { f with scheduled := some t }
      (s.setK fold (kRd w) r).advance fold)

/-- A scheduled fold transaction applies at S_n (R389). -/
def State.foldTxDue (s : State) (k n : Nat) : State :=
  match (s.fold k).scheduled with
  | some t =>
    match s.mapCount t.tepoch t.frame with
    | some f => if f ≤ n then
        (s.each t.stores fun s e => s.scratchSet k e.1 e.2).onFold k fun f => { f with scheduled := none }
      else s
    | none => s
  | none => s

/-- Bytes of scratch as the fold's own loads see them. -/
def State.loadBytes (s : State) (n a len : Nat) : Bytes :=
  ((List.range (ceilDiv (a % 4 + len) 4)).flatMap fun k => toLE 4 (s.loadWord n (a / 4 + k))).drop (a % 4) |>.take len

/-- FLSTAGE (R390). -/
def execFlstage (fold : Fin 4) (s : State) : Host.Outcome State Fault Refusal :=
  .next (s.korty fold 0x72 fun s w pc =>
    let id := s.kreg fold (kRs1 w) % 4096
    let d := s.kreg fold (kRs2 w)
    if d % 8 != 0 then s.foldFault fold 7 pc
    else if 2 ^ 18 < d + 16 then s.foldFault fold 3 pc
    else if s.wordPending fold ((List.range 4).map fun k => d / 4 + k) then s.wait fold 2
    else if (List.range 4).any fun k => s.loadBad fold (d / 4 + k) then s.foldFault fold 4 pc
    else
      let b := s.loadBytes fold d 16
      let tab := le b 0 2
      let first := le b 4 4
      let cnt := le b 8 2
      let a := le b 12 4
      match s.tableShape tab with
      | none => s.foldFault fold 7 pc
      | some (size, entries) =>
        let words := (List.range (ceilDiv (a % 4 + cnt * size) 4)).map fun k => a / 4 + k
        if le b 2 2 != 0 || le b 10 2 != 0 || a % size != 0 || decide (4096 < cnt * size) then s.foldFault fold 7 pc
        else if 2 ^ 18 < a + cnt * size then s.foldFault fold 3 pc
        else if s.wordPending fold words then s.wait fold 2
        else if words.any (s.loadBad fold) then s.foldFault fold 4 pc
        else match s.flock id with
          | none => s.foldFault fold 9 pc
          | some fl =>
            if fl.voted || !(fl.st == 1 || fl.st == 2) then s.foldFault fold 9 pc
            else
              let ws := tableWrs tab first size (s.loadBytes fold a (cnt * size))
              let bad := if tablePast tab entries first cnt then 3 else wrsCheck ws
              (s.stage id ws bad).advance fold)

/-- FLVOTE (R391). -/
def execFlvote (fold : Fin 4) (s : State) : Host.Outcome State Fault Refusal :=
  .next (s.korty fold 0x73 fun s w _ =>
    let id := s.kreg fold (kRs1 w) % 4096
    let ok := match s.flock id with
      | some fl => !fl.voted
      | none => false
    let s := if ok then s.onFlock id fun f => { f with
        foldVotes := (fold.val, kImm w % 2 == 0) :: f.foldVotes.filter fun v => v.1 != fold.val } else s
    (s.onFold fold fun f => { f with v := !ok }).advance fold)

end Sys2Proof.Machine
end

