-- ==== Sys2Proof/Machine/Pipe.lean ====
section
/-! DEFINITION. Pipeline instructions, strips, patterns and the completion of runs (spec/11_korty_instructions.md). -/
set_option Elab.async false
namespace Sys2Proof.Machine

/-! ### Patterns (R385) -/

/-- A ramp from `a` to `b` over `d` steps at step `i`, rounded to nearest. -/
def ramp (a b i len : Nat) : Nat :=
  if len ≤ 1 then a else (roundDiv ((a : Int) * (len - 1 : Nat) + ((b : Int) - a) * i) (len - 1)).toNat

/-- The value of channel `c` of a pattern at (x, y) (Table 11-8). -/
def Pat.value (p : Pat) (c x y : Nat) : Nat :=
  let a := nth p.a c 0
  let b := nth p.b c 0
  let dx := x - p.x0
  let dy := y - p.y0
  match p.kind with
  | 0 => a
  | 1 => ramp a b dx (p.x1 - p.x0)
  | 2 => ramp a b dy (p.y1 - p.y0)
  | 3 => if (dx / p.size + dy / p.size) % 2 = 0 then a else b
  | 4 => if dx % p.size = 0 ∨ dy % p.size = 0 then b else a
  | 5 =>
    let i := 8 * dx / max 1 (p.x1 - p.x0)
    let on := match c with
      | 0 => i == 0 || i == 1 || i == 4 || i == 5
      | 1 => decide (i ≤ 3)
      | _ => i % 2 == 0
    if on then b else a
  | _ => (crc32 (toLE 2 x ++ toLE 2 y ++ toLE 2 c ++ toLE 2 p.seed)).toNat % 65536

/-- A descriptor as PATGEN captures it: 0 stands for a SIZE of 16. -/
def patOf (kind : Nat) (d : Bytes) (r : Nat × Nat × Nat × Nat) : Pat :=
  let col := fun (o : Nat) => (List.range 3).map fun c => le d (o + 2 * c) 2
  { kind := kind, a := col 0, b := col 6, size := if le d 12 2 = 0 then 16 else le d 12 2, seed := le d 14 2
    x0 := r.1, y0 := r.2.1, x1 := r.2.2.1, y1 := r.2.2.2 }

/-! ### Strips (R379 to R382) -/

/-- The lamps of a strip, row-major. -/
def State.stripLamps (s : State) (p : PStrip) : List (Nat × Nat) := s.rectLamps p.group p.x0 p.y0 p.x1 p.y1
/-- The blocks of a strip. -/
def State.stripBlocks (s : State) (p : PStrip) : List Nat :=
  if p.x1 ≤ p.x0 ∨ p.y1 ≤ p.y0 then [] else s.rectBlocks p.group p.x0 p.y0 p.x1 p.y1
/-- The composed value of a lamp of a strip: its pattern, or the blend of the strip's layers. -/
def State.stripValue (s : State) (n : Nat) (p : PStrip) (u v : Nat) : List Nat :=
  match p.pat with
  | some t => (List.range 3).map fun c => t.value c u v
  | none => (s.asFold n).compose (s.fold n).slot p.mask p.group u v
/-- The duties of a lamp of a strip. -/
def State.stripDuty (s : State) (n : Nat) (p : PStrip) (u v : Nat) : List Nat × Bool × Bool :=
  (s.asFold n).duties (s.fold n).frame (s.fold n).slot p.group u v p.angle (s.stripValue n p u v)

/-- The rectangle of an opener meets R380. -/
def State.stripOk (s : State) (g : Nat) (r : Nat × Nat × Nat × Nat) : Bool :=
  decide (r.2.2.1 ≤ s.wp g) && decide (r.2.2.2 ≤ s.hp g) && r.1 % 16 == 0 && r.2.1 % 16 == 0 &&
    (r.2.2.1 % 16 == 0 || r.2.2.1 == s.wp g) && (r.2.2.2 % 16 == 0 || r.2.2.2 == s.hp g) &&
    (decide (r.2.2.1 ≤ r.1) || decide (r.2.2.2 ≤ r.2.1) ||
      decide ((ceilDiv r.2.2.1 16 - r.1 / 16) * (ceilDiv r.2.2.2 16 - r.2.1 / 16) ≤ 256))

/-- Dirty-block detection and push of a PUSH (R384): the strip's group and every clone of it, each with its own references; a
group that is blanked or in a hold is left alone. -/
def State.startPush (s : State) (n : Nat) (i : PItem) : State :=
  let duty := fun u v => (s.stripDuty n i.strip u v).1
  let blocks := s.stripBlocks i.strip
  let gs := (List.range 4).filter fun g =>
    (g == i.strip.group || (s.isClone g && s.f F.LAMP_GRPg_CFG_CLONE_SRC g == i.strip.group)) && s.pushes g
  let r := if i.arg == 1 then (s, 0, 0)
    else gs.foldl (fun a g =>
      let x := a.1.pushGroup g blocks n duty
      (x.1, a.2.1 + x.2.1, a.2.2 + x.2.2)) (s, 0, 0)
  r.1.onFold n fun f => { f with queue := match f.queue with
    | h :: t => { h with started := true, dirty := r.2.1, queued := r.2.2 } :: t
    | [] => [] }

/-- Work through the first `k` items of the queue: SIGNALs whose turn has come set their flags (R361), and a PUSH begins. -/
def State.headItems : Nat → State → Nat → State
  | 0, s, _ => s
  | k + 1, s, n =>
    match (s.fold n).queue with
    | i :: t =>
      if i.op == 0x62 then State.headItems k ((s.onFold n fun f => { f with queue := t }).setFlags n i.arg) n
      else if i.op == 0x58 && !i.started then s.startPush n i
      else s
    | [] => s

/-- Work through the head of the queue. -/
def State.headOfQueue (s : State) (n : Nat) : State := s.headItems (s.fold n).queue.length n

/-- A wait for the queue ends when its condition holds: an entry free, the interlocked word written, at most N incomplete. -/
def State.wakeQueue (s : State) (n : Nat) : State :=
  let w := s.f F.FOLDn_STATUS_WAIT n
  if w == 1 || w == 2 then s.unwait n
  else if w == 6 then
    match (s.fold n).yieldTo with
    | some k => if (s.fold n).incomplete ≤ k then s.resume n else s
    | none => s
  else s

/-- Issue the pipeline instruction at the PC and go on. -/
def State.issue (s : State) (n : Nat) (i : PItem) : State :=
  ((s.onFold n fun f => { f with queue := f.queue ++ [{ i with pc := f.pc }] }).headOfQueue n).advance n

/-- The scratch address of a record, if RS1 names one, and whether it is allowed (R382). -/
def State.recordAt (s : State) (n w : Nat) : Option Nat × Bool :=
  if kRs1 w = 0 then (none, true) else (some (s.kreg n (kRs1 w)), scratchOk (s.kreg n (kRs1 w)) 8)

/-- Issue when an entry is free, else wait (R360). -/
def State.whenFree (s : State) (n : Nat) (f : State → State) : State :=
  if 64 ≤ (s.fold n).incomplete then s.wait n 1 else f s

/-- Open a strip. -/
def State.openStrip (s : State) (n k op : Nat) (p : PStrip) : State :=
  s.onFold n fun f => { f with strips := modAt f.strips k fun _ => some (op, p) }

/-- CULL. -/
def execCull (fold : Fin 4) (s : State) : Host.Outcome State Fault Refusal :=
  .next (s.korty fold 0x50 fun s w pc => s.whenFree fold fun s =>
    let st := kStage w
    let k := bits st 0 2
    let g := bits st 2 2
    let r := rectOf (s.qreg fold (kQa w))
    let p : PStrip := ⟨g, r.1, r.2.1, r.2.2.1, r.2.2.2, bits (s.kreg fold (kRs2 w)) 0 16, bitOf st 4, false, none⟩
    if s.isHead || (nth (s.fold fold).strips k none).isSome || !(s.composed g) then s.foldFault fold 7 pc
    else if !(s.stripOk g r) then s.foldFault fold 6 pc
    else if !(s.recordAt fold w).2 then s.foldFault fold 3 pc
    else (s.openStrip fold k 0x50 p).issue fold ⟨0x50, p, (s.recordAt fold w).1, 0, false, 0, 0, 0⟩)

/-- A stage on an open strip whose last stage is one of `after`: `ch` changes the strip, `arg` is what the item carries. -/
def State.stageOp (s : State) (n w pc op : Nat) (after : List Nat) (ch : PStrip → PStrip) (arg : Nat) (close : Bool) : State :=
  s.whenFree n fun s =>
    let k := bits (kStage w) 0 2
    match nth (s.fold n).strips k none with
    | none => s.foldFault n 7 pc
    | some (last, p) =>
      if s.isHead || !(after.contains last) then s.foldFault n 7 pc
      else if !(s.recordAt n w).2 then s.foldFault n 3 pc
      else
        (s.onFold n fun f => { f with strips := modAt f.strips k fun _ => if close then none else some (op, ch p) }).issue n
          ⟨op, ch p, (s.recordAt n w).1, arg, false, 0, 0, 0⟩

/-- FETCH. -/
def execFetch (fold : Fin 4) (s : State) : Host.Outcome State Fault Refusal :=
  .next (s.korty fold 0x51 fun s w pc => s.stageOp fold w pc 0x51 [0x50] id 0 false)
/-- SCALE. -/
def execScale (fold : Fin 4) (s : State) : Host.Outcome State Fault Refusal :=
  .next (s.korty fold 0x52 fun s w pc => s.stageOp fold w pc 0x52 [0x51] id 0 false)
/-- CSC. -/
def execCsc (fold : Fin 4) (s : State) : Host.Outcome State Fault Refusal :=
  .next (s.korty fold 0x53 fun s w pc => s.stageOp fold w pc 0x53 [0x52] id 0 false)
/-- BLEND. -/
def execBlend (fold : Fin 4) (s : State) : Host.Outcome State Fault Refusal :=
  .next (s.korty fold 0x54 fun s w pc => s.stageOp fold w pc 0x54 [0x53] id 0 false)
/-- ANGLE. -/
def execAngle (fold : Fin 4) (s : State) : Host.Outcome State Fault Refusal :=
  .next (s.korty fold 0x55 fun s w pc => s.stageOp fold w pc 0x55 [0x54, 0x59] (fun p => { p with angle := true }) 0 false)
/-- CORRECT. -/
def execCorrect (fold : Fin 4) (s : State) : Host.Outcome State Fault Refusal :=
  .next (s.korty fold 0x56 fun s w pc => s.stageOp fold w pc 0x56 [0x54, 0x59, 0x55] id 0 false)
/-- CRC. -/
def execCrc (fold : Fin 4) (s : State) : Host.Outcome State Fault Refusal :=
  .next (s.korty fold 0x57 fun s w pc => s.stageOp fold w pc 0x57 [0x56, 0x57] id (bits (kStage w) 4 4) false)
/-- PUSH. -/
def execPush (fold : Fin 4) (s : State) : Host.Outcome State Fault Refusal :=
  .next (s.korty fold 0x58 fun s w pc => s.stageOp fold w pc 0x58 [0x56, 0x57] id (bits (kStage w) 4 1) true)

/-- PATGEN on a tile opens a strip whose composed values are the pattern; on a head it writes the pattern into a layer
(R385, R386). -/
def execPatgen (fold : Fin 4) (s : State) : Host.Outcome State Fault Refusal :=
  .next (s.korty fold 0x59 fun s w pc => s.whenFree fold fun s =>
    let st := kStage w
    let k := bits st 0 2
    let g := bits st 2 2
    let kind := bits st 4 4
    let l := bits st 8 4
    let d := s.kreg fold (kRs2 w)
    let r := rectOf (s.qreg fold (kQa w))
    let ws := (List.range 4).map fun j => d / 4 + j
    if !(decide (d + 16 ≤ 2 ^ 18) && d % 8 == 0) then s.foldFault fold 3 pc
    else if s.wordPending fold ws then s.wait fold 2
    else if ws.any fun x => (s.fold fold).scratchBad.contains x then s.foldFault fold 4 pc
    else
      let b := ws.flatMap fun x => toLE 4 ((s.fold fold).scratch.get x)
      let pat := patOf kind b r
      if decide (6 < kind) || decide (4096 < le b 12 2) then s.foldFault fold 7 pc
      else if s.isHead then
        if !(s.b F.LAYERn_INGEST_ENABLE l && s.f F.LAYERn_INGEST_KIND l == 5 && s.f F.LAYERn_INGEST_INDEX l == fold.val) then
          s.foldFault fold 7 pc
        else if decide (s.layerW l < r.2.2.1) || decide (s.layerH l < r.2.2.2) then s.foldFault fold 6 pc
        else s.issue fold ⟨0x59, ⟨0, r.1, r.2.1, r.2.2.1, r.2.2.2, 0, false, false, some pat⟩, none, l, false, 0, 0, 0⟩
      else
        let p : PStrip := ⟨g, r.1, r.2.1, r.2.2.1, r.2.2.2, 0, false, false, some pat⟩
        if (nth (s.fold fold).strips k none).isSome || !(s.composed g) then s.foldFault fold 7 pc
        else if !(s.stripOk g r) then s.foldFault fold 6 pc
        else (s.openStrip fold k 0x59 p).issue fold ⟨0x59, p, none, 0, false, 0, 0, 0⟩)

/-! ### Completion of stages (R360, R382) -/

/-- The layers that block `b` of a strip skips (R255). -/
def State.skipped (s : State) (n : Nat) (p : PStrip) (b : Nat) : List Nat :=
  if p.nocull || !(s.b F.COMP_CTL_CULL_EN) then []
  else
    let f := s.fold n
    s.culledOf f.slot p.mask p.group ((((f.frame * 4 + f.slot) * 4) + p.group) * 65536 + b) (s.blockRect p.group b)

/-- The layers of a strip that block `b` does not skip, as a mask. -/
def State.blockMask (s : State) (n : Nat) (p : PStrip) (b : Nat) : Nat :=
  let gone := s.skipped n p b
  ((List.range 16).map fun l => b2n (bitOf p.mask l && !(gone.contains l)) * 2 ^ l).sum

/-- The lamps of block `b` of a strip. -/
def State.blockLamps (s : State) (p : PStrip) (b : Nat) : List (Nat × Nat) :=
  let r := s.blockRect p.group b
  s.rectLamps p.group r.1 r.2.1 r.2.2.1 r.2.2.2

/-- FETCH reads something for a strip: some layer that is not skipped covers a lamp. -/
def State.fetches (s : State) (n : Nat) (p : PStrip) : Bool :=
  (s.stripBlocks p).any fun b => (bitList (s.blockMask n p b) 16).any fun l => s.coversAny l (s.fold n).slot p.group (s.blockLamps p b)

/-- CULL: the skipped pairs of block and layer are counted (R255); its record gives them and the layers that cover the strip. -/
def State.doCull (s : State) (n : Nat) (p : PStrip) : State × Nat × Nat :=
  let k := ((s.stripBlocks p).map fun b => (s.skipped n p b).length).sum
  let cov := ((List.range 16).map fun l =>
    b2n (bitOf p.mask l && s.coversAny l (s.fold n).slot p.group (s.stripLamps p)) * 2 ^ l).foldl (· + ·) 0
  let s := s.each (bitList cov 16) fun s l => s.flag F.LAYERn_CSTAT_COVERS true l
  (s.onFold n fun f => { f with culled := f.culled + k }, (s.stripBlocks p).length + 2 ^ 16 * k, cov)

/-- CORRECT: the lamps count as composed; clipped lamps and failing entries are counted (R276, R288). -/
def State.doCorrect (s : State) (n : Nat) (p : PStrip) : State :=
  let ls := s.stripLamps p
  let rs := ls.map fun q => (q, s.stripDuty n p q.1 q.2)
  let bad := ((rs.filter fun r => r.2.2.2).map fun r => r.1.2 * s.wp p.group + r.1.1).filter (s.lampFails p.group)
  let clip := (rs.filter fun r => r.2.2.1).length
  let s := (s.onFold n fun f => { f with lamps := f.lamps + ls.length }).onComp fun c => { c with clipped := c.clipped + clip }
  s.each bad fun s i =>
    let a := s.entryAddr p.group i
    let s := (s.inc F.CORR_ENTRY_FAULT).setLampBad (if s.comp.lampBad.contains a then s.comp.lampBad else a :: s.comp.lampBad)
    let s := if s.b F.CORR_CTL_TABLE_EN then s.memTouch a 40 4 else s
    if s.b F.CORR_FIRST_FAULT_VALID then s
    else ((s.put F.CORR_FIRST_FAULT_INDEX i).put F.CORR_FIRST_FAULT_GROUP p.group).flag F.CORR_FIRST_FAULT_VALID

/-- The bytes that check rectangle `r` takes of the lamps of a strip (R329, R383). -/
def State.checkLamps (s : State) (n r : Nat) (p : PStrip) : List (Nat × Nat × Bytes) :=
  let g := s.f F.LAMP_CRCr_CTL_GROUP r
  let src := s.b F.LAMP_CRCr_CTL_SOURCE r
  let mine := g == p.group || (src && s.isClone g && s.f F.LAMP_GRPg_CFG_CLONE_SRC g == p.group)
  if !(s.b F.LAMP_CRCr_CTL_ENABLE r) || s.f F.LAMP_CRCr_CTL_SLOT r != (s.fold n).slot || !mine then []
  else ((s.stripLamps p).filter fun q =>
      decide (s.f F.LAMP_CRCr_ORIGIN_U0 r ≤ q.1) && decide (q.1 < s.f F.LAMP_CRCr_EXTENT_U1 r) &&
      decide (s.f F.LAMP_CRCr_ORIGIN_V0 r ≤ q.2) && decide (q.2 < s.f F.LAMP_CRCr_EXTENT_V1 r)).map fun q =>
    (q.1, q.2, ((if src then (s.stripDuty n p q.1 q.2).1 else s.stripValue n p q.1 q.2).flatMap (toLE 2)))

/-- CRC: the lamps join the rectangle's contributions; the record gives their CRC-32 and number. -/
def State.doCrc (s : State) (n r : Nat) (p : PStrip) : State × Nat × Nat :=
  let ls := s.checkLamps n r p
  (s.onLamp fun l => { l with checks := l.checks ++ ls.map fun x => (r, x.1, x.2.1, x.2.2) },
    (crc32 (ls.flatMap fun x => x.2.2)).toNat, ls.length)

/-- The angular class of a lamp whose gains are read (R277, R282, R285). -/
def State.classRead (s : State) (n g u v : Nat) : Option Nat :=
  if s.b F.CORR_STATUS_TILE_GEOM_BAD || bitOf (s.f F.CORR_STATUS_GRP_GEOM_BAD) g then none
  else if !(s.b F.CORR_CTL_ANGLE_EN && (s.slotPose (s.fold n).frame (s.fold n).slot).isSome) then none
  else if s.b F.CORR_CTL_TABLE_EN then (s.lampEntry g (v * s.wp g + u)).map fun e => le e 18 1
  else some 0

/-- A table of the fold's own with entries of bad parity of which a stage reads one on a strip, for a layer that is not skipped (R254,
R255); of a profile, the faulty class (R279). -/
def State.badTable (s : State) (n : Nat) (i : PItem) : Option Nat :=
  let p := i.strip
  (s.comp.tabBad.find? fun t => t.fold == n && (s.stripBlocks p).any fun b => (s.blockLamps p b).any fun q =>
    if 0x10000 ≤ t.key then i.op == 0x55 && (s.classRead n p.group q.1 q.2).map (0x10000 + ·) == some t.key
    else ((s.asFold n).tabReads i.op t.key (s.fold n).slot (s.blockMask n p b) p.group q.1 q.2).any fun e => t.bad.contains e).map (·.key)

/-- An entry of bad parity in fold `n`'s copy of a table: the table (for a profile, its class) is to be written again in full. -/
def State.markTable (s : State) (n id idx : Nat) : State :=
  let key := if id = 0x800 then 0x10000 + idx / 768 else id
  let all := if id = 0x800 then (List.range 768).map fun k => idx / 768 * 768 + k
    else List.range (((s.tableShape id).getD (0, 0)).2)
  let mine := fun (b : BadTable) => b.fold == n && b.key == key
  let old := (s.comp.tabBad.filter mine).flatMap BadTable.bad
  s.onComp fun c => { c with tabBad := ⟨n, key, all, idx :: old.filter (· != idx)⟩ :: c.tabBad.filter fun b => !(mine b) }

/-- The TABLE fault of the fold that read the entry (R254, R279, R382). -/
def State.tableFault (s : State) (n key pc : Nat) : State :=
  let s := if 0x800 ≤ key then (s.inc F.CORR_PROFILE_FAULT).flag F.CORR_STATUS_PROFILE_FAULT
    else (s.inc F.COMP_TABLE_FAULT).flag F.COMP_STATUS_TABLE_FAULT
  (s.flag F.FOLDn_COMP_STATUS_TABLE_FAULT true n).foldFault n 11 pc

/-- Frames that the PUSH at the head of fold `n` waits for. -/
def State.pushWaits (s : State) (n : Nat) : Bool :=
  s.lamp.ports.any fun p => (p.queue ++ p.sending.toList).any fun f => f.fold == some n

/-- A stage has met an uncorrectable word of frame memory (R318, R431): the slot is dropped, and the strip's blocks are invalid. CORRECT reads
lamp entries alone: those that the word lies in fail their check, and the slot goes on (R276). -/
def State.stageMem (s : State) (i : PItem) (gr word : Nat) : State :=
  if i.op == 0x56 then
    let x := gr / 64 * 64 + 8 * (word % 8)
    let reads := s.b F.CORR_CTL_TABLE_EN && (s.stripLamps i.strip).any fun q =>
      let a := s.entryAddr i.strip.group (q.2 * s.wp i.strip.group + q.1)
      decide (a < x + 8) && decide (x < a + 40)
    s.when reads fun s => s.onMst fun m => { m with bad := x :: m.bad.filter (· != x) }
  else
    ((s.memError gr true word 4).onComp fun c => { c with dropped := true }).invalidateBlocks i.strip.group (s.stripBlocks i.strip)

/-- The result of an item: the state and the two words of its record. -/
def State.itemResult (s : State) (n : Nat) (i : PItem) : State × Nat × Nat :=
  match i.op with
  | 0x50 => s.doCull n i.strip
  | 0x51 =>
    let u := if s.fetches n i.strip then Config.free s.fresh % m32 else 0
    (s.tickFresh.onFold n fun f => { f with fetched := f.fetched + u }, u, 0)
  | 0x56 => (s.doCorrect n i.strip, 0, 0)
  | 0x57 => s.doCrc n i.arg i.strip
  | 0x58 =>
    let p := i.strip
    (s.when (i.arg != 1) fun s => s.onLamp fun l => { l with pushed := (p.group, p.x0, p.y0, p.x1, p.y1) :: l.pushed }, i.dirty, i.queued)
  | 0x59 => if s.isHead then
      (s.onFold n fun f => { f with pats := f.pats ++ (i.strip.pat.toList.map fun p => (i.arg, p)) }, 0, 0)
    else (s, 0, 0)
  | _ => (s, 0, 0)

/-- The stage reads or writes frame memory, and so waits while MEM is in reset (R583). -/
def PItem.usesMem (i : PItem) (head : Bool) : Bool := [0x51, 0x56, 0x58].contains i.op || (head && i.op == 0x59)

/-- PIPELINE_ITEM_DONE: the oldest issued instruction completes; a PUSH does when its frames have been sent (R384). -/
def execPipelineItemDone (fold : Fin 4) (err : Option PipeErr) (s : State) : Host.Outcome State Fault Refusal :=
  .next (match (s.fold fold).queue with
    | i :: t =>
      if !(s.pwr.up && s.inRun fold) || (i.usesMem s.isHead && !(s.on iMEM)) || s.f F.FOLDn_STATUS_WAIT fold == 5 || (i.op == 0x58 && s.pushWaits fold) then s
      else
        let pc := i.pc
        match err with
        | some (.table id idx) => (s.markTable fold id idx).tableFault fold id pc
        | _ =>
          match s.badTable fold i with
          | some key => s.tableFault fold key pc
          | none =>
            let s := match err with
              | some (.ref g b) => s.invalidateBlocks g [b]
              | some (.mem gr word) => s.stageMem i gr word
              | _ => s
            let r := s.itemResult fold i
            let s := match i.rec_ with
              | some a => (r.1.scratchSet fold (a / 4) r.2.1).scratchSet fold (a / 4 + 1) r.2.2
              | none => r.1
            ((s.onFold fold fun f => { f with queue := t }).headOfQueue fold).wakeQueue fold
    | [] => s)

/-! ### Completion of runs (R354, R386) -/

/-- A pattern frame of a head in the layer's format: the last PATGEN that holds a pixel gives its value, 0 elsewhere; chroma
is taken at the first of the pixels that share it. -/
def patFrame (f w h : Nat) (ps : List Pat) : List PLine :=
  let d := fmtDepth f
  let at_ := fun (c x y : Nat) => match ps.reverse.find? fun p =>
      decide (p.x0 ≤ x) && decide (x < p.x1) && decide (p.y0 ≤ y) && decide (y < p.y1) with
    | some p => p.value c x y / 2 ^ (16 - d)
    | none => 0
  let half := fmtSampling f == 2 || fmtSampling f == 3
  (List.range h).flatMap fun y =>
    let chroma := fun (c : Nat) =>
      if fmtSampling f == 3 && y % 2 == 0 then []
      else if half then (List.range (w / 2)).map fun j => at_ c (2 * j) (if fmtSampling f == 3 then y - 1 else y)
      else (List.range w).map fun x => at_ c x y
    (compsLine f ((List.range w).map fun x => at_ 0 x y, chroma 1, chroma 2)).map fun q =>
      { line := if q.1 != 0 && fmtSampling f == 3 then y / 2 else y, plane := q.1, data := pack d q.2 }

/-- The frames of a completed head run: a complete source frame of each layer bound to the fold (R386); one with the same patterns takes the
place of one not yet sent. -/
def State.patternsDone (s : State) (n : Nat) : State :=
  let ps := fun l => ((s.fold n).pats.filter fun p => p.1 == l).map (·.2)
  let now := s.time.clock
  s.onIntake (.fold (Fin.ofNat 4 n)) fun l v i =>
    { i with done := ⟨0, now, patFrame (v.layerFmt l) (v.layerW l) (v.layerH l) (ps l), ps l⟩ :: i.done.filter (fun d => d.pats != ps l)
             ends := now :: i.ends.take 3 }

/-- FOLD_RUN_COMPLETE (R354). -/
def execFoldRunComplete (fold : Fin 4) (s : State) : Host.Outcome State Fault Refusal :=
  .next (if s.pwr.up && s.inRun fold && (s.fold fold).ended && (s.fold fold).queue.isEmpty then
    let halt := (s.fold fold).halt
    let t := s.since (s.fold fold).start
    let s := if s.isHead then s.patternsDone fold else s.put F.FOLDn_COMP_TIME (min t (2 ^ 32 - 1)) fold
    let s := (s.onFold fold fun f => { f with complete := true, faultRuns := 0 }).endRun fold
    if halt && s.foldState fold == 1 then s.put F.FOLDn_STATUS_STATE 2 fold else s
  else s)

end Sys2Proof.Machine
end

