-- ==== Sys2Proof/Machine/Lamp.lean ====
section
/-! DEFINITION. The commands of the Lamp Bus (spec/09_lamp_bus.md): LSYNC, frames on the ports, SWAP, driver summaries, blanking,
holds, diagnostics. -/
set_option Elab.async false
namespace Sys2Proof.Machine

/-- The Lamp Bus works: a tile with its core and the LAMP island up (R298). -/
def State.lampOn (s : State) : Bool := s.isTile && s.on iLAMP

/-! ### LSYNC (R312) -/

/-- The pins that copy the LSYNC of a group (R599). -/
def State.lsyncPins (s : State) (g : Nat) : State :=
  s.each (List.range 16) fun s k => s.when (s.f F.GPIOk_CFG_FUNC k == 5 && s.f F.GPIOk_CFG_GROUP k == g) fun s => s.drivePin k

/-- Drive the LSYNC output of a group. -/
def State.setLsync (s : State) (g : Nat) (level : Bool) : State :=
  ((s.onLGroup g fun x => { x with lsync := level }).emit (.lsync g level)).lsyncPins g

/-- Read page 0 of every driver on a port (R328). -/
def State.pollPort (s : State) (p : Nat) : State :=
  s.each (List.range (s.portDrivers p)) fun s h => s.queueLamp p (ownFrame 6 (statusRead h 0))

/-- The latest slot of which the LSYNC edge of a group has come: its index in its frame and its start (R186, R312). -/
def State.edgeSlot (s : State) (g : Nat) : Nat × Nat :=
  let x := s.time.clock + s.f F.LAMP_GRPg_ADVANCE g * nsU
  let n := s.timing.countAt x
  let k := min (s.timing.slots - 1) ((x - s.timing.swapAt n) / (periodU s.timing.code / s.timing.slots))
  (k, s.timing.slotAt n k)

/-- An LSYNC edge of the group is due: the tick is the first at or after a slot's start less LSYNC_ADVANCE (R164, R312). -/
def State.edgeDue (s : State) (g : Nat) : Bool :=
  s.time.stepped && s.lit g && (s.lgroup g).hold.isNone && decide ((s.edgeSlot g).2 ≤ s.time.clock + s.f F.LAMP_GRPg_ADVANCE g * nsU) &&
    decide ((s.lgroup g).edge + s.f F.LAMP_GRPg_ADVANCE g * nsU < (s.edgeSlot g).2) && decide ((s.lgroup g).edged < (s.edgeSlot g).2)

/-- LSYNC_EDGE: LCNT advances and a pending SWAP takes effect, G_NOW with it; after slot 0's edge every driver is polled. -/
def execLsyncEdge (group : Fin 4) (s : State) : Host.Outcome State Fault Refusal :=
  .next (if s.lampOn && s.edgeDue group then
    let first := (s.edgeSlot group).1 == 0
    let s := (s.put F.LAMP_GRPg_STATUS_LCNT ((s.f F.LAMP_GRPg_STATUS_LCNT group + 1) % 2 ^ 16) group).setLsync group true
    let s := s.onLGroup group fun x => { x with
      edge := s.time.clock, edged := (s.edgeSlot group).2, swapped := x.swapped || (s.lamp.swapSent && s.pushes group) }
    let s := match s.lamp.swapSent, s.lamp.gainSent with
      | true, some g => s.put F.CORR_STATUS_G_NOW g
      | _, _ => s
    if first then s.each (s.groupPorts group) fun s p => s.pollPort p else s
  else s)

/-- LSYNC_PULSE_END: LSYNC_WIDTH after the rising edge; `mismatch`: the pad receiver differs from the level driven (R327). -/
def execLsyncPulseEnd (group : Fin 4) (mismatch : Bool) (s : State) : Host.Outcome State Fault Refusal :=
  .next (if s.lampOn && (s.lgroup group).lsync &&
      decide ((s.lgroup group).edge + s.f F.LAMP_TIMING_LSYNC_WIDTH * 10 * nsU ≤ s.time.clock) then
    let s := s.setLsync group false
    if mismatch then s.flag F.LAMP_GRPg_STATUS_LSYNC_FAULT true group else s
  else s)

/-! ### Frames on the ports (R319, R320, R327) -/

/-- LINE_BUFFER_FILL: the next staged frame is fetched when the buffer has room; `err`: the granule and word of an uncorrectable
error met in staging, which drops the slot (Table 13-2). -/
def execLineBufferFill (port : Fin 16) (err : Option (Nat × Nat)) (s : State) : Host.Outcome State Fault Refusal :=
  .next (if !(s.lampOn && s.on iMEM) then s
    else match (s.lport port).staged with
      | f :: _ =>
        match err with
        | some (g, w) =>
          let cls := if s.b F.LAMP_PORTp_STATUS_URGENT port then 1 else 4
          let s := (s.memError g true w cls).onComp fun c => { c with dropped := true }
          let s := s.onLPort port fun q => { q with queue := q.queue.erase f }
          (s.each f.blocks fun s b => s.failBlock b).refill port
        | none =>
          if (s.lport port).fill + f.bytes.length ≤ 65536 then
            (s.onLPort port fun q => { q with
              queue := q.queue.map fun x => if x == f then { x with inBuf := true } else x }).refill port
          else s
      | [] => s)

/-- The frame a port starts next: the highest priority with all its bytes in the buffer, in order; a STATUS_READ only while
none is outstanding (R309); nothing of lower priority passes a region write that waits in staging. -/
def LPort.next (q : LPort) : Option LFrame :=
  let ok := q.queue.filter fun f => f.inBuf && (f.prio != 6 || q.asked.isNone) && (q.staged.isEmpty || decide (f.prio ≤ 4))
  (List.range 7).findSome? fun p => ok.find? fun f => f.prio == p

/-- LAMP_FRAME_START. -/
def execLampFrameStart (port : Fin 16) (s : State) : Host.Outcome State Fault Refusal :=
  .next (if s.lampOn && s.b F.LAMP_PORTp_CFG_ENABLE port && (s.lport port).sending.isNone then
    match (s.lport port).next with
    | some f =>
      s.onLPort port fun q => { q with
        queue := q.queue.erase f, sending := some f, starved := false
        asked := if f.prio == 6 then some (le f.bytes 1 1, le f.bytes 4 1, s.time.aon) else q.asked }
    | none =>
      if (s.lport port).staged.isEmpty || (s.lport port).starved then s
      else (s.onLPort port fun q => { q with starved := true }).inc F.LAMP_PORTp_STARVED port
  else s)

/-- LAMP_FRAME_SENT: the frame has left and the pads are compared (R327). -/
def execLampFrameSent (port : Fin 16) (mismatch : Bool) (s : State) : Host.Outcome State Fault Refusal :=
  .next (match (s.lport port).sending with
    | some f =>
      if !s.lampOn then s
      else
        let k := (s.lport port).sent + 1
        let s := (s.sendLine port f.bytes (f.bytes.length / 4) .eof).emit (.lamp port f.bytes)
        let s := s.onLPort port fun q => if f.prio == 6 then { q with asked := q.asked.map fun a => (a.1, a.2.1, s.time.aon) } else q
        if mismatch then
          let bad := k :: (s.lport port).bad.filter fun b => decide (k < b + 1024)
          let s := (s.inc F.LAMP_PORTp_PADERR port).onLPort port fun q => { q with sent := k, bad := bad, clean := 0 }
          let fault := decide (1 ≤ f.tries) || decide (4 ≤ bad.length)
          let s := if fault then (s.flag F.LAMP_PORTp_STATUS_PAD_FAULT true port).lampStatus else s
          if f.tries == 0 then s.onLPort port fun q => { q with sending := some { f with tries := 1 } }
          else
            let s := s.onLPort port fun q => { q with sending := none }
            (s.each f.blocks fun s b => s.failBlock b).refill port
        else
          let clean := (s.lport port).clean + 1
          let s := s.onLPort port fun q => { q with sent := k, clean := clean, sending := none }
          let s := s.onLamp fun l => { l with probed := l.probed ++ f.probes }
          let s := if 1024 ≤ clean then (s.flag F.LAMP_PORTp_STATUS_PAD_FAULT false port).lampStatus else s
          (s.settleBlocks f.blocks).refill port
    | none => s)

/-! ### SWAP and the push deadline (R265, R313, R321, R356) -/

/-- Groups that push and have a port. -/
def State.pushGroups (s : State) : List Nat := (List.range 4).filter fun g => s.pushes g && !(s.groupPorts g).isEmpty

/-- The moment of the SWAP has come: every run of the slot is complete and every region write has been sent. -/
def State.swapReady (s : State) : Bool :=
  !s.comp.closed && !s.comp.dropped &&
  (List.range 4).all (fun n => !(s.fold n).began || (s.fold n).complete) &&
  s.lamp.ports.all fun p => (p.queue ++ p.sending.toList).all fun f => f.prio != 4

/-- The push deadline of the slot, SWAP_LEAD before its start (R313), is past: what falls on the deadline itself is in time (R10). -/
def State.deadlineDue (s : State) : Bool := decide (s.comp.slotAt < s.time.clock + usU (s.f F.LAMP_TIMING_SWAP_LEAD))

/-- Send the SWAP of the slot on every enabled port of the groups that push; TARGET is LCNT of the slot's edge. -/
def State.sendSwap (s : State) : State :=
  let gs := s.pushGroups
  let s := s.each gs fun s g => (s.each (s.groupPorts g) fun s p =>
    s.queueLamp p (ownFrame 2 (swapFrame (s.f F.LAMP_GRPg_STATUS_LCNT g + 1)))).onLGroup g fun x => { x with shown := true }
  let s := s.onComp fun c => { c with closed := true }
  let s := s.put F.CORR_CLIPPED (min s.comp.clipped (2 ^ 32 - 1))
  if gs.isEmpty then s
  else ((s.inc F.LAMP_SWAPS).flag F.COMP_STATUS_LAST_LATE false).onLamp fun l => { l with swapSent := true }

/-- SWAP (R321): no later than the push deadline. -/
def execSwap (s : State) : Host.Outcome State Fault Refusal :=
  .next (if s.lampOn && s.swapReady && decide (s.time.clock + usU (s.f F.LAMP_TIMING_SWAP_LEAD) ≤ s.comp.slotAt) then s.sendSwap else s)

/-- The slot is dropped whole (R265): unfinished runs are overrun, no SWAP is sent, queued frames are discarded. -/
def State.dropSlot (s : State) : State :=
  let s := s.each (List.range 4) fun s n =>
    let s := if (s.fold n).began && !(s.fold n).complete then s.inc F.FOLDn_COMP_LATE n else s
    if s.inRun n then s.overrun n else s
  let s := ((s.inc F.COMP_LATE).flag F.COMP_STATUS_LAST_LATE).dropSlotFrames
  let s := s.onComp fun c => { c with closed := true, dropped := true }
  s.put F.CORR_CLIPPED (min s.comp.clipped (2 ^ 32 - 1))

/-- PUSH_DEADLINE: a slot whose SWAP has not been sent is dropped, unless its moment has come and the LAMP island runs; probes that could not
be sent are skipped (R265, R331, R356). -/
def execPushDeadline (s : State) : Host.Outcome State Fault Refusal :=
  .next (if !(s.isTile && s.pwr.up) || s.comp.pastDeadline || !s.deadlineDue then s
    else
      let s := s.onComp fun c => { c with pastDeadline := true }
      let s := if s.comp.closed then s else if s.lampOn && s.swapReady then s.sendSwap else s.dropSlot
      s.each (List.range 16) fun s p => s.dropQueued p fun f => f.prio == 5)

/-! ### Programming the drivers (R326, R634) -/

/-- Send the parameters in force to the drivers of a group at once, broadcast, and read every summary; a driver known to need a longer
pulse is sent its own value (R330). -/
def State.programGroup (s : State) (g : Nat) (gain : Bool) : State :=
  s.each (s.groupPorts g) fun s p =>
    let s := s.queueLamp p (ownFrame 3 (s.pwmSet 0xFF g (s.f F.LAMP_DIAG_MIN_ON) 1))
    let s := s.each ((List.range (s.portDrivers p)).filter fun h => decide (s.f F.LAMP_DIAG_MIN_ON < s.minOn p h)) fun s h =>
      s.queueLamp p (ownFrame 3 (s.pwmSet h g (s.minOn p h) 1))
    let s := if gain then s.queueLamp p (ownFrame 3 (gainSet 0xFF s.comp.gain 1)) else s
    (s.onLPort p fun q => { q with drivers := q.drivers.map fun d => { d with confirmed := false } }).pollPort p

/-- The same to one driver, addressed (R328, R634). -/
def State.programDriver (s : State) (p h : Nat) : State :=
  (s.queueLamp p (ownFrame 3 (s.pwmSet h (s.portGroup p) (s.minOn p h) 1))).queueLamp p (ownFrame 3 (gainSet h s.comp.gain 1))

/-- The blanked state ends once the programming is confirmed: a full refresh follows (R318, R634). -/
def State.finishProgram (s : State) (g : Nat) : State :=
  if (s.lgroup g).programming && s.groupConfirmed g true && !(s.blankCond g) then
    ((s.onLGroup g fun x => { x with blanked := false, programming := false, blankSent := false }).invalidateGroup g).lampStatus
  else s

/-- DRIVER_PROGRAM (R634). -/
def execDriverProgram (group : Fin 4) (s : State) : Host.Outcome State Fault Refusal :=
  .next (if s.lampOn && s.lit group && (s.lgroup group).blanked && !(s.lgroup group).programming && !(s.blankCond group) then
    ((s.onLGroup group fun x => { x with programming := true }).programGroup group true).finishProgram group
  else s)

/-- BLANK (R324). -/
def execBlank (group : Fin 4) (s : State) : Host.Outcome State Fault Refusal :=
  let x := s.lgroup group
  .next (if s.lampOn && s.blankCond group && (!x.blanked || x.programming || (s.lit group && !x.blankSent)) then s.enterBlank group else s)

/-- A group enters the hold of a timing-mode change (R326); `first` is the frame count of S'_0. -/
def State.enterHold (s : State) (g first : Nat) : State :=
  let s := (s.onLGroup g fun x => { x with hold := some first, ready := false }).inc F.LAMP_GRPg_HOLDS g
  let s := if (s.lgroup g).lsync then s.setLsync g false else s
  let s := s.each (s.groupPorts g) fun s p => s.dropQueued p fun f => f.prio == 2 || f.prio == 4 || f.prio == 5
  (s.programGroup g false).lampStatus

/-- TIMING_HOLD_RESUME: at the frame latch of S'_k, k ≥ HOLD + 1, the reprogramming was complete; LSYNC restarts with the edge at S'_k. A
black group resumes as well, and its drivers are then programmed under R634. -/
def execTimingHoldResume (group : Fin 4) (s : State) : Host.Outcome State Fault Refusal :=
  .next (match (s.lgroup group).hold with
    | some first =>
      if s.lampOn && decide (first + s.f F.LAMP_GRPg_CFG_HOLD group + 1 ≤ s.comp.latched.getD 0) && (s.lgroup group).ready then
        ((s.onLGroup group fun x => { x with hold := none, black := false, edge := s.time.clock }).invalidateGroup group).lampStatus
      else s
    | none => s)

/-- TIMING_HOLD_BLACK: S'_4 has come, and the reprogramming was not complete at the last frame latch; its frame is the first black one. -/
def execTimingHoldBlack (group : Fin 4) (s : State) : Host.Outcome State Fault Refusal :=
  .next (match (s.lgroup group).hold with
    | some first =>
      if s.lampOn && !(s.lgroup group).black && !(s.lgroup group).ready && decide (first + 4 ≤ s.time.frame) then
        ((s.onLGroup group fun x => { x with black := true }).inc F.LAMP_GRPg_BLACK_FRAMES group).enterBlank group
      else s
    | none => s)

/-! ### Driver summaries (R318, R328, R330, R634) -/

/-- UP, ANSWERING and MISMATCH of a port from its drivers (R342). -/
def State.portStatus (s : State) (p : Nat) : State :=
  let ds := (s.lport p).drivers.take (s.portDrivers p)
  let s := (s.put F.LAMP_PORTp_STATUS_ANSWERING (ds.filter (·.answered)).length p).flag F.LAMP_PORTp_STATUS_UP
    (ds.all (·.answered)) p
  (s.flag F.LAMP_PORTp_STATUS_MISMATCH (ds.any (·.wrong)) p).lampStatus

/-- Act on page 0 of the driver at hop `h`. -/
def State.summary (s : State) (p h : Nat) (b : Bytes) : State :=
  let g := s.portGroup p
  let old := s.driver p h
  let fl := le b 2 1
  let crc := le b 3 1
  let rise := match old.crcErrs with
    | some c => (crc + 256 - c) % 256
    | none => 0
  let wrong := le b 20 1 + 1 != s.portDW p || le b 21 1 + 1 != s.portDH p
  let long := decide (s.f F.LAMP_DIAG_MIN_ON < le b 22 1 * 10)
  let s := s.onDriver p h fun d => { d with
    crcErrs := some crc, unanswered := 0, missAt := none, answered := true, wrong := wrong, minOn := le b 22 1 }
  let s := s.add F.LAMP_PORTp_DRV_CRC rise p
  let s := if bitOf fl 1 then s.inc F.LAMP_PORTp_SLIPS p else s
  let s := if s.b F.LAMP_PORTp_STATUS_CHAIN_BROKEN p && s.f F.LAMP_PORTp_BREAK_HOP p == h then
      s.flag F.LAMP_PORTp_STATUS_CHAIN_BROKEN false p else s
  let s := if long then s.flag F.LAMP_STATUS_DRIVER_MIN_ON else s
  let unexpected := bitOf fl 0 && (s.lgroup g).swapped
  let s := if decide (0 < rise) || bitOf fl 6 || unexpected || (old.wrong && !wrong) then s.invalidateDriver p h else s
  let s := if bitOf fl 6 || (long && old.minOn != le b 22 1) then s.programDriver p h else s
  let params := le b 8 4 == s.cycleNs && le b 6 1 == s.f F.LAMP_GRPg_CFG_MULT g + 1 && le b 12 4 == s.f F.LAMP_GRPg_DARK g
  let held := (s.lgroup g).hold.isSome
  let ok := params && (held || le b 4 2 % 1024 == s.comp.gain)
  let s := if (held || (s.lgroup g).programming) && !old.confirmed then
      if ok then s.onDriver p h fun d => { d with confirmed := true }
      else if !held && s.portGone p then s
      else (s.programDriver p h).queueLamp p (ownFrame 6 (statusRead h 0))
    else s
  (s.portStatus p).finishProgram g

/-- STATUS_RESP: the code groups of a response frame, from SOF to EOF, that answers the outstanding request; the return lane must be
aligned (R299), and one with a code violation or that fails its check is no answer. -/
def execStatusResp (port : Fin 16) (codes : List Nat) (s : State) : Host.Outcome State Fault Refusal :=
  .next (match (s.lport port).asked, decodeLane codes with
    | some (h, page, _), some frame =>
      let n := le frame 2 2
      let body := (frame.drop 8).take n
      let ok := le frame 0 1 == 0x85 && le frame 4 1 % 8 == page && n == (if page == 0 then 32 else 2048) &&
        frame == lampFrame 0x85 (le frame 1 1) (le frame 4 4) body
      if !s.lampOn || !(s.lport port).phased || !ok then s
      else
        let s := s.onLPort port fun q => { q with asked := none }
        if page == 0 then s.summary port h body
        else s.onLamp fun l => { l with
          pages := (port.val, h, page, body) :: l.pages.filter fun x => !(x.1 == port.val && x.2.1 == h && x.2.2.1 == page) }
    | _, _ => s)

/-- STATUS_READ_TIMEOUT (R328). -/
def execStatusReadTimeout (port : Fin 16) (s : State) : Host.Outcome State Fault Refusal :=
  .next (match (s.lport port).asked with
    | some (h, page, at_) =>
      if !(s.lampOn && decide (at_ + s.f F.LAMP_TIMING_STATUS_TIMEOUT * 1000 < s.time.aon)) then s
      else
        let s := (s.inc F.LAMP_PORTp_TIMEOUTS port).onLPort port fun q => { q with asked := none }
        if page != 0 then s
        else
          let s := s.onDriver port h fun d => { d with
            answered := false, missAt := some s.time.frame
            unanswered := if d.missAt == some s.time.frame then d.unanswered else d.unanswered + 1 }
          let lower := (List.range h).all fun k => (s.driver port k).answered
          let s := if decide (3 ≤ (s.driver port h).unanswered) && lower then
              (s.flag F.LAMP_PORTp_STATUS_CHAIN_BROKEN true port).put F.LAMP_PORTp_BREAK_HOP h port
            else s
          (s.portStatus port).finishProgram (s.portGroup port)
    | none => s)

/-- RETURN_LANE_PHASE_ALIGN (R299). -/
def execReturnLanePhaseAlign (port : Fin 16) (s : State) : Host.Outcome State Fault Refusal :=
  .next (if s.lampOn && s.b F.LAMP_PORTp_CFG_ENABLE port then s.onLPort port fun q => { q with phased := true } else s)

/-! ### Refresh and counters (R318, R334) -/

/-- LAMP_REFRESH_EXPIRE: every LAMP_REFRESH frames, counted on the wall frame count. -/
def execLampRefreshExpire (s : State) : Host.Outcome State Fault Refusal :=
  .next (if s.lampOn && s.f F.LAMP_REFRESH != 0 && s.time.frame % s.f F.LAMP_REFRESH == 0 && s.lamp.refreshed != some s.time.frame then
    s.invalidateAll.onLamp fun l => { l with refreshed := some s.time.frame }
  else s)
/-- FULL_REFRESH. -/
def execFullRefresh (s : State) : Host.Outcome State Fault Refusal :=
  .next (if s.lampOn then s.invalidateAll else s)
/-- LAMP_CTL.CLEAR (R334). -/
def State.lampClear (s : State) : State :=
  let s := s.zero F.LAMP_SWAPS
  let s := s.each (List.range 4) fun s g => (s.zero F.LAMP_GRPg_HOLDS g).zero F.LAMP_GRPg_BLACK_FRAMES g
  s.each (List.range 16) fun s p =>
    (((((s.zero F.LAMP_PORTp_PADERR p).zero F.LAMP_PORTp_DRV_CRC p).zero F.LAMP_PORTp_STARVED p).zero
      F.LAMP_PORTp_TIMEOUTS p).zero F.LAMP_PORTp_SLIPS p).zero F.LAMP_CRCr_MISMATCHES p
/-- LAMP_CLEAR. -/
def execLampClear (s : State) : Host.Outcome State Fault Refusal := .next (if s.lampOn then s.lampClear else s)

/-! ### Diagnostics (R330 to R333) -/

/-- DIAG_PERIOD. -/
def State.diagPeriod (s : State) : Nat := 2 ^ s.f F.LAMP_DIAG_CFG_PERIOD_LOG
/-- Pages that the grid of a port's drivers needs. -/
def State.diagPages (s : State) (p : Nat) : Nat := ceilDiv (s.portDW p * s.portDH p) 1024

/-- DIAG_ROUND_START: at a frame n with n mod DIAG_PERIOD = 0, pages 1 to 4, as far as needed, of every answering driver are asked
for. -/
def execDiagRoundStart (s : State) : Host.Outcome State Fault Refusal :=
  .next (if s.lampOn && s.time.frame % s.diagPeriod == 0 && s.lamp.round != some s.time.frame then
    let s := s.onLamp fun l => { l with reading := true, round := some s.time.frame, probeDone := false, pages := [], overrun := false }
    s.each s.lampPorts fun s p =>
      s.each ((List.range (s.portDrivers p)).filter fun h => (s.driver p h).answered) fun s h =>
        s.each (List.range (s.diagPages p)) fun s k => s.queueLamp p (ownFrame 6 (statusRead h (k + 1)))
  else s)

/-- The two measured bytes of a group lamp in this round's pages. -/
def State.measured (s : State) (g u v : Nat) : Option Nat :=
  (s.groupPorts g).findSome? fun p =>
    (s.driverOf p u v).bind fun h =>
      let d := s.driverAt p h
      let k := (v - d.2) * s.portDW p + (u - d.1)
      (s.lamp.pages.find? fun x => x.1 == p && x.2.1 == h && x.2.2.1 == k / 1024 + 1).map fun x =>
        le x.2.2.2 (k % 1024 * 2) 2

/-- A port covers the lamp. -/
def State.coveredLamp (s : State) (g u v : Nat) : Bool := (s.groupPorts g).any fun p => (s.driverOf p u v).isSome

/-- Address of the diagnostic map entry of a lamp (R333). -/
def State.diagAddr (s : State) (g u v : Nat) : Nat := corrBase + s.f F.LAMP_GRPg_DIAG_BASE g * 4096 + (v * s.wp g + u) * 8

/-- State code and age of a channel after a read phase (R332): 0 OK, 1 OPEN, 2 SHORT, 3 UNKNOWN. -/
def diagChannel (m : Option Nat) (ch st age period maxAge : Nat) : Nat × Nat :=
  match m with
  | some x =>
    if bitOf x ch then (if bitOf x (6 + ch) then 2 else if bitOf x (3 + ch) then 1 else 0, 0)
    else let a := min 65535 (age + period); (if maxAge < a then 3 else st, a)
  | none => let a := min 65535 (age + period); (if maxAge < a then 3 else st, a)

/-- The map entry of a lamp after a read phase. -/
def State.diagEntry (s : State) (g u v : Nat) : Bytes :=
  let b := s.memRead (s.diagAddr g u v) 8
  let m := s.measured g u v
  let c := (List.range 3).map fun ch =>
    diagChannel m ch (bits (le b 0 1) (2 * ch) 2) (le b (2 + 2 * ch) 2) s.diagPeriod (s.f F.LAMP_DIAG_MAX_AGE)
  let pr := s.lamp.probed.any fun x => x.1 == g && x.2.1 == v * s.wp g + u
  let code := fun (k : Nat) => (nth c k (0, 0)).1
  let age := fun (k : Nat) => (nth c k (0, 0)).2
  mkMsg 8 [(0, 1, code 0 + 4 * code 1 + 16 * code 2 + 64 * b2n pr), (2, 2, age 0), (4, 2, age 1), (6, 2, age 2)]

/-- A map entry of a lamp never measured (R333). -/
def diagBlank : Bytes := mkMsg 8 [(0, 1, 0x3F), (2, 2, 65535), (4, 2, 65535), (6, 2, 65535)]
/-- Every entry of a group's map UNKNOWN with age 65,535. -/
def State.diagReset (s : State) (g : Nat) : State :=
  s.each (s.lamps g) fun s q => s.memWrite (s.diagAddr g q.1 q.2) diagBlank

/-- A STATUS_READ of a diagnostic page. -/
def isDiag (f : LFrame) : Bool := f.prio == 6 && le f.bytes 4 1 != 0

/-- Pages of the round are still to be read. -/
def State.diagLeft (s : State) : Bool :=
  s.lamp.ports.any fun p => (p.queue ++ p.sending.toList).any isDiag || (match p.asked with
    | some a => a.2.1 != 0
    | none => false)

/-- DIAG_READ_END: every page has been read, or DIAG_PERIOD / 2 frames have gone (R331). -/
def execDiagReadEnd (s : State) : Host.Outcome State Fault Refusal :=
  .next (if s.lampOn && s.lamp.reading && (!s.diagLeft || decide (s.lamp.round.getD 0 + s.diagPeriod / 2 ≤ s.time.frame)) then
    let late := s.diagLeft
    let s := if late then s.flag F.LAMP_STATUS_READ_OVERRUN else s
    let s := s.onLamp fun l => { l with
      reading := false, overrun := late
      ports := l.ports.map fun p => { p with queue := p.queue.filter fun f => !(isDiag f) } }
    let gs := (List.range 4).filter s.lit
    let es := gs.flatMap fun g => ((s.lamps g).filter fun q => s.coveredLamp g q.1 q.2).map fun q =>
      (s.diagAddr g q.1 q.2, s.diagEntry g q.1 q.2)
    let count := fun (k : Nat) => es.foldl (fun a e =>
      a + ((List.range 3).filter fun ch => bits (le e.2 0 1) (2 * ch) 2 == k).length) 0
    let s := s.each es fun s e => s.memWrite e.1 e.2
    let s := ((s.put F.LAMP_DIAG_OPEN (count 1)).put F.LAMP_DIAG_SHORT (count 2)).put F.LAMP_DIAG_UNKNOWN (count 3)
    (s.put F.LAMP_DIAG_FRAME s.wf32).onLamp fun l => { l with probed := [] }
  else s)

/-- Flags of a lamp (R273): those of the source's lamp for a clone; none with TABLE_EN = 0. An entry that fails its check
shields its lamp from probes. -/
def State.lampFlags (s : State) (g u v : Nat) : Nat :=
  let src := if s.isClone g then s.f F.LAMP_GRPg_CFG_CLONE_SRC g else g
  if !(s.b F.CORR_CTL_TABLE_EN) then 0
  else match s.lampEntry src (v * s.wp src + u) with
    | some e => le e 19 1
    | none => 16

/-- The channels to probe on the driver at hop `h`, as bits 3k + channel of its lamps (R331). -/
def State.probeBits (s : State) (p h : Nat) : List Nat :=
  let g := s.portGroup p
  let d := s.driverAt p h
  (List.range (s.portDW p * s.portDH p)).flatMap fun k =>
    let u := d.1 + k % s.portDW p
    let v := d.2 + k / s.portDW p
    if s.wp g ≤ u ∨ s.hp g ≤ v then []
    else
      let fl := s.lampFlags g u v
      (List.range 3).filterMap fun ch =>
        let fresh := match s.measured g u v with
          | some m => bitOf m ch
          | none => false
        if fresh || bitOf fl 4 || bitOf fl 3 || bitOf fl ch then none else some (3 * k + ch)

/-- The diagnostic slot; a value at or above SLOTS acts as 0 (R337). -/
def State.diagSlot (s : State) : Nat :=
  if s.frontTiming.slots ≤ s.f F.LAMP_DIAG_CFG_DIAG_SLOT then 0 else s.f F.LAMP_DIAG_CFG_DIAG_SLOT

/-- The diagnostic slot of the round is being composed, and its probes are still to be sent (R331). -/
def State.probeDue (s : State) : Bool :=
  !s.lamp.probeDone && (match s.lamp.round with
    | some n => s.comp.slot == some (n + s.diagPeriod / 2, s.diagSlot)
    | none => false)

/-- DIAG_PROBE: PROBE follows the diagnostic slot's SWAP, unless the round overran; it is skipped where DARK is too short, where the push
deadline has come, and where the port's group has no SWAP in the slot. -/
def execDiagProbe (s : State) : Host.Outcome State Fault Refusal :=
  .next (if s.lampOn && s.b F.LAMP_DIAG_CFG_PROBE_EN && !s.lamp.overrun && !s.lamp.reading && s.probeDue &&
      (s.lamp.swapSent || s.comp.pastDeadline) then
    let s := s.onLamp fun l => { l with probeDone := true }
    s.each s.lampPorts fun s p =>
      let g := s.portGroup p
      s.each ((List.range (s.portDrivers p)).filter fun h => (s.driver p h).answered && !(s.driver p h).wrong) fun s h =>
        let on := s.minOn p h
        let bs := s.probeBits p h
        if bs.isEmpty then s
        else if s.f F.LAMP_GRPg_DARK g < on + 1000 || s.comp.pastDeadline || !(s.pushes g) then s.flag F.LAMP_STATUS_PROBE_SKIPPED
        else
          let map := toLE (ceilDiv (3 * s.portDW p * s.portDH p) 8) (bs.foldl (fun a k => a + 2 ^ k) 0)
          let d := s.driverAt p h
          let done := bs.map fun k => (g, (d.2 + k / 3 / s.portDW p) * s.wp g + d.1 + k / 3 % s.portDW p, k % 3)
          s.queueLamp p { ownFrame 5 (lampFrame 0x04 h ((s.f F.LAMP_GRPg_STATUS_LCNT g + 1) % 2 ^ 16)
            (mkMsg 4 [(0, 2, on)] ++ map)) with probes := done }
  else s)

end Sys2Proof.Machine
end

