-- ==== Sys2Proof/Machine/Link.lean ====
section
/-! DEFINITION. Oaris Link physical layer (spec/03_oaris_link.md): port states, training, equalisation, CHECK, markers and
codewords as received, PRBS and error injection, and the key exchange of encrypted links (R152, R153). A `lane` operand of the
port commands counts lanes 4 to 31 from 0. What a port sends on its line is in Machine/Line.lean. The timers of this chapter count
the AON clock, in ns (assumption 71). -/
set_option Elab.async false
namespace Sys2Proof.Machine

def State.lane (s : State) (n : Nat) : Lane := nth s.link.lanes n {}
def State.onLane (s : State) (n : Nat) (f : Lane → Lane) : State :=
  s.onLink fun l => { l with lanes := modAt l.lanes n f }

/-- The lanes of a port (R71). -/
def lanesOf (p : Nat) : List Nat := [4 + 4 * p, 5 + 4 * p, 6 + 4 * p, 7 + 4 * p]

/-- Powered in this role: a tile has ports 0 and 1 only (R72). -/
def State.portPowered (s : State) (p : Nat) : Bool := s.isHead || decide (p < 2)

/-- A lane of Ethernet under ETH_MODE, powered down while MODE = 0 (R72), or a lane of a powered port. -/
def State.lanePowered (s : State) (n : Nat) : Bool :=
  if n < 4 then s.isHead && s.f F.ETH_MODE_MODE != 0 else s.portPowered ((n - 4) / 4)

/-- `n` microseconds and milliseconds in ns. -/
def nsUs (n : Nat) : Nat := n * 1000
def nsMs (n : Nat) : Nat := n * 1000000

/-- `d` ns have passed since instant `t` of the AON clock. -/
def State.passed (s : State) (t d : Nat) : Bool := decide (t + d ≤ s.time.aon)

/-- A bound of `d` ns from instant `t` is over: an event at the bound itself is still in time (R10). -/
def State.boundOver (s : State) (t d : Nat) : Bool := decide (t + d < s.time.aon)

/-! ### Port state (R97 to R100) -/

def State.setPort (s : State) (p st : Nat) : State := s.put F.PORTn_STATUS_STATE st p

/-- States in which a port sends mission blocks (Table 3-7, steps 4 to 6). -/
def missionState (st : Nat) : Bool := decide (psAlign ≤ st) && decide (st ≤ psLowRate)

/-- What happens whenever a port stops carrying cells (Table 3-10): windows are judged again (R126), a RESYNC over port 6 starts
again (R150), the time source is chosen again (R168), and the ring counts as broken (R24, R76). -/
def State.ringBreak (s : State) (p : Nat) : State :=
  let s := s.unsyncIfCut
  let s := if p == 6 && !(s.b F.RING_CFG_SINGLE) then
      s.onRing fun r => { r with resyncSent := false, resyncPhase := min r.resyncPhase 1, resyncSeen := [], resyncSince := none } else s
  let s := if s.on iTIME then s.reSource.ewDiff else s
  s.judgeRings

/-! ### Equalisation (R80 to R84) -/

/-- The limits of R80 on the four taps. -/
def tapsOk (m2 m1 c0 p1 : Int) : Bool :=
  decide (-16 ≤ m2 ∧ m2 ≤ 15 ∧ -16 ≤ m1 ∧ m1 ≤ 15 ∧ 24 ≤ c0 ∧ c0 ≤ 63 ∧ -16 ≤ p1 ∧ p1 ≤ 15 ∧ |m2| + |m1| + c0 + |p1| ≤ 63)

/-- Put taps in force on a lane. -/
def State.setTaps (s : State) (n : Nat) (m2 m1 c0 p1 : Int) : State :=
  (((s.putS F.LANEn_TXFFE_CM2 m2 n).putS F.LANEn_TXFFE_CM1 m1 n).put F.LANEn_TXFFE_C0 c0.toNat n).putS F.LANEn_TXFFE_CP1 p1 n

/-- The presets of Table 3-4. -/
def preset (k : Nat) : Option (Int × Int × Int × Int) :=
  match k with
  | 1 => some (0, 0, 63, 0)
  | 2 => some (0, -4, 55, -4)
  | 3 => some (0, -8, 47, -8)
  | 4 => some (-2, -8, 45, -8)
  | 5 => some (0, 0, 55, -8)
  | _ => none

/-- Answer a training request (R84): the state and the ACK. A PRESET of 6 or 7 and the reserved REQ 3 are answered NOT_SUPPORTED:
DESIGN CHOICE (assumption 72), since R84 gives them no answer. -/
def State.ffeRequest (s : State) (n control : Nat) : State × Nat :=
  let m2 := s.sf F.LANEn_TXFFE_CM2 n
  let m1 := s.sf F.LANEn_TXFFE_CM1 n
  let c0 : Int := s.f F.LANEn_TXFFE_C0 n
  let p1 := s.sf F.LANEn_TXFFE_CP1 n
  let pre := bits control 0 3
  let req := bits control 5 2
  if s.b F.LANEn_TXFFE_MANUAL n then (s, 3)
  else if pre == 0 && req == 0 then (s, 0)
  else if pre != 0 then
    match preset pre with
    | some (a, b, c, d) => (s.setTaps n a b c d, 1)
    | none => (s, 3)
  else if req == 3 then (s, 3)
  else
    let d : Int := if req == 1 then 1 else -1
    let t := match bits control 3 2 with
      | 0 => (m2 + d, m1, c0, p1)
      | 1 => (m2, m1 + d, c0, p1)
      | 2 => (m2, m1, c0 + d, p1)
      | _ => (m2, m1, c0, p1 + d)
    if tapsOk t.1 t.2.1 t.2.2.1 t.2.2.2 then (s.setTaps n t.1 t.2.1 t.2.2.1 t.2.2.2, 1) else (s, 2)

/-- Taps of a word of LANEn_TXFFE come into force. -/
def State.setTapsWord (s : State) (n v : Nat) : State :=
  s.setTaps n (sgn 5 (bits v 0 5)) (sgn 5 (bits v 5 5)) (bits v 10 6) (sgn 5 (bits v 16 5))

/-- A write of LANEn_TXFFE (R80, R106): with MANUAL = 0 the taps are ignored, and one that breaks the limits changes nothing. -/
def State.writeTxffe (s : State) (n v : Nat) : State :=
  if !(bitOf v 24) then s.flag F.LANEn_TXFFE_MANUAL false n
  else if !(tapsOk (sgn 5 (bits v 0 5)) (sgn 5 (bits v 5 5)) (bits v 10 6) (sgn 5 (bits v 16 5))) then
    s.flag F.LANEn_EVENT_FFE_ERR true n
  else
    let s := s.flag F.LANEn_TXFFE_MANUAL true n
    if 4 ≤ n ∧ s.portLink ((n - 4) / 4) then s.onLane n fun l => { l with ffePend := some v } else s.setTapsWord n v

/-- The written CTLE and DFE values come into force (R81). -/
def State.applyEq (s : State) (n : Nat) : State :=
  let s := if s.b F.LANEn_CTLE_AUTO n then s else s.put F.LANEn_CTLE_PEAK_NOW (s.f F.LANEn_CTLE_PEAK n) n
  let s := if s.b F.LANEn_DFE_AUTO n then s else s.put F.LANEn_DFE_H1_NOW (s.f F.LANEn_DFE_H1 n) n
  s.onLane n fun l => { l with eqPend := false }

/-- The written CDR loop values come into force (R82). -/
def State.applyCdr (s : State) (n : Nat) : State :=
  s.onLane n fun l => { l with cdrPend := false, cdr := (s.f F.LANEn_CDR_BW n, s.f F.LANEn_CDR_DAMP n) }

/-- A write of LANEn_CTLE or LANEn_DFE has been stored (R81): it waits for a marker in UP and LOW_RATE. -/
def State.eqWritten (s : State) (n : Nat) : State :=
  if 4 ≤ n ∧ s.portLink ((n - 4) / 4) then s.onLane n fun l => { l with eqPend := true } else s.applyEq n

/-- A write of LANEn_CDR has been stored (R82): it waits for a marker in UP alone. -/
def State.cdrWritten (s : State) (n : Nat) : State :=
  if 4 ≤ n ∧ s.portUp ((n - 4) / 4) then s.onLane n fun l => { l with cdrPend := true } else s.applyCdr n

/-- Whatever waits for a marker of the lane comes into force (R81, R82, R106). -/
def State.applyPending (s : State) (n : Nat) : State :=
  let s := match (s.lane n).ffePend with
    | some v => (s.setTapsWord n v).onLane n fun l => { l with ffePend := none }
    | none => s
  (s.when (s.lane n).eqPend fun s => s.applyEq n).when (s.lane n).cdrPend fun s => s.applyCdr n

/-! ### Moving between states (R97 to R100) -/

/-- What happens whenever a port stops carrying link messages: its peer delay is no longer valid, chains are judged again (R168,
R178), and values that waited for a marker come into force, because outside UP and LOW_RATE a written value applies at once
(DEDUCED, assumption 73). -/
def State.leaveUp (s : State) (p : Nat) : State :=
  let s := (s.flag F.TIME_PORTp_PDSTAT_VALID false p).flag F.TIME_PORTp_PDSTAT_CHAIN_VALID false p
  let s := s.onPd p fun q => { q with valid := false, seen := false, t1 := none, hist := [], heldSamples := [] }
  s.each (lanesOf p) State.applyPending

/-- A port that sends no mission blocks: precoding and marker lock are over (R79, R105), and so is what a link has of its own
(R153). -/
def State.endMission (s : State) (p : Nat) : State :=
  let s := s.each (lanesOf p) fun s n =>
    ((s.flag F.LANEn_STATUS_PRECODE_TX false n).flag F.LANEn_STATUS_PRECODE_RX false n).flag F.LANEn_STATUS_AM_LOCK false n
  s.onRing fun r => { r with enc := modAt r.enc p fun _ => {} }

/-- Mission blocks begin (Table 3-7, step 4): the departing stream starts with a marker on every lane, without precoding history
(R79). The first marker count and the scrambler's first state are free, because the spec gives neither (assumption 2). -/
def State.startMission (s : State) (p : Nat) : State :=
  let s := s.onPort p fun q => { q with
    items := [], cur := [], gap := 0, sent := s.out.length, rxCells := [], rxScr := 0, rxLinks := []
    scr := Config.free s.fresh % 2 ^ 58, marks := Config.free (s.fresh + 1) % 2 ^ 16 }
  let s := s.tickFresh.tickFresh
  s.each (lanesOf p) fun s n => s.onLane n fun l => { l with
    pre := 0, txBip := 0, marker := none, missed := 0, mkRun := 0, mkPos := none, mkLost := false, rxBip := 0, mkBip := 0
    words := [], codewords := 0
    bad := [], corr := 0, fecErr := false, mkCorr := 0, mkErr := false, quiet := 0 }

/-- Move a port to a state, with the consequences of leaving the one it was in. Errors that wait to be injected are dropped: injection
acts in TEST and in UP alone (R103). In TRAIN no mission symbol of the partner has come (R79). -/
def State.movePort (s : State) (p st : Nat) : State :=
  let was := s.portState p
  let s := (s.setPort p st).onPort p fun q => { q with
    stateAt := s.time.aon
    lineAt := if missionState was && missionState st then q.lineAt else s.time.aon
    lineN := if missionState was && missionState st then q.lineN else 0
    checkTx := if st == psCheck then none else q.checkTx, keyxTx := if st == psCheck then none else q.keyxTx }
  let s := s.when (was == psUp && st != psUp) fun s => s.ringBreak p
  let s := s.when (was != psUp && st == psUp) fun s => s.judgeRings
  let s := s.when ((was == psUp) != (st == psUp)) State.transports
  let s := s.when ((was == psUp || was == psLowRate) && !(s.portLink p)) fun s => s.leaveUp p
  let s := s.when (!(missionState st) && st != psTrain) fun s => s.endMission p
  let s := s.when (st == psDisabled || st == psFault || st == psTest) fun s =>
    s.each (lanesOf p) fun s n => s.flag F.LANEn_STATUS_CDR_LOCK false n
  let s := s.when (st != was) fun s => s.each (lanesOf p) fun s n => s.onLane n fun l => { l with inject := 0, symbols := 0, injectAt := [] }
  let s := s.when (st == psTrain) fun s => s.each (lanesOf p) fun s n => s.onLane n fun l => { l with rxPre := 0 }
  let s := s.when (st == psCheck) fun s => s.flag F.PORTn_STATUS_PARTNER_VALID false p
  s.when (st == psAlign) fun s => s.startMission p

/-- Any lane of the port is in test (R97). -/
def State.inTest (s : State) (p : Nat) : Bool :=
  (lanesOf p).any fun n => s.f F.LANEn_PRBS_GEN_PAT n != 0 || s.f F.LANEn_PRBS_CHK_PAT n != 0 || s.f F.LANEn_CTL_LOOPBACK n != 0

/-- Enter DETECT: a new attempt with the written configuration in force (R85, R100). A port with a lane in test goes on to TEST. -/
def State.toDetect (s : State) (p : Nat) (keep : List Nat) : State :=
  let s := s.movePort p psDetect
  let cfg := (s.reg (F.PORTn_CFG_ENABLE.addr p 0)).toNat
  let s := s.onPort p fun q => { q with
    detectAt := s.time.aon, failed := keep, cfg := cfg, armed := false, ownReady := false, final := none, gotIdent := false
    gotCap := false, gotConfirm := false, sentConfirm := false, confirmEnd := none, partnerEnc := false, encOn := false }
  let s := s.each (lanesOf p) fun s n =>
    ((s.onLane n fun l => { l with
      seq := false, ack := 0, reqSeq := false, req := 0, echo := false, precodeReq := false, partnerPrecode := false
      txPrecode := false, valid := 0, ready := 0, pat := 1 + Config.free s.fresh % (2 ^ 13 - 1) }).tickFresh).flag F.LANEn_STATUS_ADAPT_DONE false n
  if s.inTest p then s.movePort p psTest else s

/-- Enter FAULT with a reason (R97, R98). -/
def State.toFault (s : State) (p reason : Nat) : State :=
  let s := (s.movePort p psFault).put F.PORTn_STATUS_REASON reason p
  let hold := if reason == 10 then nsMs 1000 else nsMs (s.f F.PORT_RETRAIN_HOLDOFF)
  let s := s.onPort p fun q => { q with holdEnd := s.time.aon + hold, armed := false }
  (s.inc F.PORTn_RETRAINS p).irqAll F.CTXn_IRQ_CAUSE_RING

/-- RATE_MAX, RATE_MIN, PRECODE, USE and AUTO_RETRAIN of the configuration in force since DETECT (R100). -/
def Port.rateMax (q : Port) : Nat := bits q.cfg 1 2
def Port.rateMin (q : Port) : Nat := bits q.cfg 3 2
def Port.precode (q : Port) : Nat := bits q.cfg 5 2
def Port.use (q : Port) : Nat := bits q.cfg 7 2
def Port.autoRetrain (q : Port) : Bool := bitOf q.cfg 9

/-- The rate this side offers: the fastest one not failed (R85). -/
def Port.own (q : Port) : Option Nat :=
  ([0, 1, 2].filter fun c => decide (q.rateMax ≤ c) && decide (c ≤ q.rateMin)).find? fun c => !(q.failed.contains c)

/-- ENABLE is written as 1 on a port (R97). -/
def State.enablePort (s : State) (p : Nat) : State :=
  let s := s.flag F.PORTn_CFG_ENABLE true p
  if s.portState p != psDisabled then s
  else if s.f F.PORTn_CFG_RATE_MIN p < s.f F.PORTn_CFG_RATE_MAX p then s.put F.PORTn_STATUS_REASON 11 p
  else s.toDetect p []

/-- ENABLE is written as 0 (R97). -/
def State.disablePort (s : State) (p : Nat) : State := (s.flag F.PORTn_CFG_ENABLE false p).movePort p psDisabled

def execPortEnable (port : Fin 7) (s : State) : Host.Outcome State Fault Refusal :=
  .next (if s.on iLINK && s.portPowered port then s.enablePort port else s)

def execPortDisable (port : Fin 7) (s : State) : Host.Outcome State Fault Refusal :=
  .next (if s.on iLINK && s.portPowered port then s.disablePort port else s)

/-! ### Training (R83 to R87) -/

/-- Status field of the training frames this side sends (Table 3-6). -/
def State.trainStatus (s : State) (p n : Nat) : Nat :=
  let q := s.port p
  let offer := if s.portState p == psTrain then s.f F.PORTn_STATUS_RATE p else q.own.getD q.rateMin
  (s.lane n).ack + 4 * b2n (s.lane n).seq + 8 * b2n q.ownReady + 16 * offer + 64 * b2n (s.lane n).txPrecode

/-- Control field of the training frames this side sends (Table 3-6): precoding is asked for under R86, and a request toward the
partner's FFE stands in TRAIN alone. -/
def State.trainControl (s : State) (p n : Nat) : Nat :=
  let h1 := s.sf F.LANEn_DFE_H1_NOW n
  let want := match (s.port p).precode with
    | 0 => s.b F.LANEn_STATUS_ADAPT_DONE n && decide (24 ≤ |h1|)
    | 2 => true
    | _ => false
  (if s.portState p == psTrain then (s.lane n).req % 128 else 0) + 128 * b2n want + 256 * b2n (s.lane n).reqSeq

/-- The receive polarity of a lane: that of the marker, or RX_INVERT when RX_POL_AUTO = 0 (R74, R83, R104). -/
def State.rxPolarity (s : State) (n : Nat) (inverted : Bool) : State :=
  s.flag F.LANEn_STATUS_RX_INVERTED (if s.b F.LANEn_CTL_RX_POL_AUTO n then inverted else s.b F.LANEn_CTL_RX_INVERT n) n

/-- A lane has a signal; since when (Table 3-7, step 1). -/
def State.signalOn (s : State) (n : Nat) : State :=
  (s.flag F.LANEn_STATUS_SIGNAL true n).onLane n fun l => { l with sigAt := l.sigAt.or (some s.time.aon) }

/-- A lane has a signal on which its CDR is locked (R105). -/
def State.hears (s : State) (n : Nat) : State := (s.signalOn n).flag F.LANEn_STATUS_CDR_LOCK true n

/-- TRAINING_FRAME_RX (R83 to R86, R98): the fields as the receiver reads them; `inverted` when the marker came with the opposite
polarity. A lane whose polarity stays wrong, because RX_POL_AUTO = 0, finds no marker. -/
def execTrainingFrameRx (lane : Fin 28) (control : Nat) (status : Nat) (comp : Nat) (inverted : Bool) (s : State) :
    Host.Outcome State Fault Refusal :=
  let p := lane.val / 4
  let n := lane.val + 4
  let st := s.portState p
  .next (if !(s.on iLINK && s.portPowered p) then s
    else
      let s := (s.signalOn n).rxPolarity n inverted
      if s.b F.LANEn_STATUS_RX_INVERTED n != inverted then s
      else if st == psUp || st == psLowRate then s.toFault p 4
      else if !(st == psDetect || st == psTrain || st == psFault) then s
      else if control % 2 ^ 16 + 2 ^ 16 * (status % 2 ^ 16) + comp % 2 ^ 32 != 2 ^ 32 - 1 then
        s.onLane n fun l => { l with valid := 0, ready := 0 }
      else
        let seq := bitOf control 8
        let r := if seq != (s.lane n).seq then s.ffeRequest n control else (s, (s.lane n).ack)
        ((r.1.onLane n fun l => { l with
          seq := seq, ack := r.2, valid := l.valid + 1, ready := if bitOf status 3 then l.ready + 1 else 0
          precodeReq := bitOf control 7, partnerPrecode := bitOf status 6, echo := bitOf status 2 }).onPort p fun q => { q with
            offer := bits status 4 2 }).flag F.LANEn_STATUS_CDR_LOCK true n)

/-- Step 1 of Table 3-7 is complete: a signal on all 4 lanes for 1 ms, and 3 consecutive valid frames on every lane. -/
def State.detectReady (s : State) (p : Nat) : Bool :=
  (lanesOf p).all fun n => decide (3 ≤ (s.lane n).valid) && (match (s.lane n).sigAt with
    | some t => s.passed t (nsMs 1)
    | none => false)

/-- DETECT_COMPLETE (R85): the agreed rate is the slower of the two offers. A partner's reserved OFFER 3 counts as slower than
every RATE_MIN: DESIGN CHOICE (assumption 72). -/
def execDetectComplete (port : Fin 7) (s : State) : Host.Outcome State Fault Refusal :=
  .next (if s.on iLINK && s.portState port == psDetect && s.detectReady port then
    match (s.port port).own with
    | none => s.toFault port 6
    | some o =>
      let r := max o (s.port port).offer
      if (s.port port).rateMin < r then s.toFault port 6
      else
        let s := (s.movePort port psTrain).put F.PORTn_STATUS_RATE r port
        s.each (lanesOf port) fun s n => s.onLane n fun l => { l with ready := 0 }
  else s)

/-- TRAIN_READY (R81, R86): this receiver has adapted (PEAK and H1 of each lane are the channel's) and the partner's RX_READY has
been seen in 3 frames on every lane; precoding is chosen and the 16 final frames begin. -/
def execTrainReady (port : Fin 7) (adapt : List (Nat × Int)) (s : State) : Host.Outcome State Fault Refusal :=
  .next (if !(s.on iLINK && s.portState port == psTrain && (s.port port).final.isNone) then s
    else
      let s := s.each (List.range 4) fun s k =>
        let n := 4 + 4 * port.val + k
        let a := nth adapt k (0, 0)
        let s := if s.b F.LANEn_CTLE_AUTO n then s.put F.LANEn_CTLE_PEAK_NOW a.1 n else s
        let s := if s.b F.LANEn_DFE_AUTO n then s.putS F.LANEn_DFE_H1_NOW a.2 n else s
        s.flag F.LANEn_STATUS_ADAPT_DONE true n
      let s := s.onPort port fun q => { q with ownReady := true }
      if !((lanesOf port).all fun n => decide (3 ≤ (s.lane n).ready)) then s
      else
        let pam := s.f F.PORTn_STATUS_RATE port != 2
        let pc := (s.port port).precode
        let s := s.each (lanesOf port) fun s n =>
          s.onLane n fun l => { l with txPrecode := pam && (pc == 2 || (pc == 0 && l.precodeReq)) }
        s.onPort port fun q => { q with final := some 16 })

/-- TRAIN_END (R97): the 16 final frames have been sent; from here the lanes are precoded as was agreed (R79). -/
def execTrainEnd (port : Fin 7) (s : State) : Host.Outcome State Fault Refusal :=
  .next (if s.on iLINK && s.portState port == psTrain && (s.port port).final == some 0 then
    let s := (s.movePort port psAlign).onPort port fun q => { q with final := none }
    s.each (lanesOf port) fun s n =>
      (s.flag F.LANEn_STATUS_PRECODE_TX (s.lane n).txPrecode n).flag F.LANEn_STATUS_PRECODE_RX (s.lane n).partnerPrecode n
  else s)

/-- TRAIN_TIMEOUT (R85, R87): PORT_TRAIN_TIMEOUT has passed in step 2; the final frames of step 3 are not bounded by it. -/
def execTrainTimeout (port : Fin 7) (s : State) : Host.Outcome State Fault Refusal :=
  .next (if s.on iLINK && s.portState port == psTrain && (s.port port).final.isNone &&
      s.boundOver (s.port port).stateAt (nsMs (s.f F.PORT_TRAIN_TIMEOUT)) then
    let keep := s.f F.PORTn_STATUS_RATE port :: (s.port port).failed
    match ({ s.port port with failed := keep } : Port).own with
    | none => s.toFault port 6
    | some _ => s.toDetect port keep
  else s)

/-! ### ALIGN (R74, R93, R94) -/

/-- The skew buffer of 4 codewords in units of 10 ps, by rate (R94, Table 3-2). -/
def skewLimit (rate : Nat) : Nat :=
  match rate with
  | 0 => 20480
  | 1 => 40960
  | _ => 84402

/-- Each lane has 2 consecutive valid markers with consecutive counts, and the counts are equal (Table 3-7, step 4). -/
def State.markersReady (s : State) (p : Nat) : Bool :=
  (lanesOf p).all fun n => decide (2 ≤ (s.lane n).mkRun) && (s.lane n).marker == (s.lane (4 + 4 * p)).marker

/-- The lanes reach one partner port, each another of its lanes (R74): markers of one port number and of one count. -/
def State.onePartner (s : State) (p : Nat) : Bool :=
  ([0, 1, 2, 3].all fun k => (lanesOf p).any fun n => (s.lane n).logical == k) &&
    (lanesOf p).all fun n => (s.lane n).mkPort == (s.lane (4 + 4 * p)).mkPort && (s.lane n).marker == (s.lane (4 + 4 * p)).marker

/-- ALIGN_COMPLETE (R94): `arrivals` are the instants at which the markers of equal count came, in 10 ps. SKEW is each lane's delay
behind the earliest; one above the register's 16 bits reads 65,535 (DESIGN CHOICE, assumption 72). -/
def execAlignComplete (port : Fin 7) (arrivals : List Nat) (s : State) : Host.Outcome State Fault Refusal :=
  .next (if !(s.on iLINK && s.portState port == psAlign && s.markersReady port) then s
    else
      let at_ := (List.range 4).map fun k => nth arrivals k 0
      let first := at_.foldl min (nth at_ 0 0)
      let s := s.each (List.range 4) fun s k =>
        let n := 4 + 4 * port.val + k
        (s.put F.LANEn_SKEW (min 65535 (nth at_ k 0 - first)) n).put F.LANEn_STATUS_LOGICAL (s.lane n).logical n
      if at_.any fun x => decide (skewLimit (s.f F.PORTn_STATUS_RATE port) < x - first) then s.toFault port 8
      else if !(s.onePartner port) then s.toFault port 8
      else s.movePort port psCheck)

/-- ALIGN_TIMEOUT (R74, R87, R97): 10 ms have passed in ALIGN; SKEW when every lane has markers and they reach more than one partner
port. -/
def execAlignTimeout (port : Fin 7) (s : State) : Host.Outcome State Fault Refusal :=
  .next (if s.on iLINK && s.portState port == psAlign && s.boundOver (s.port port).stateAt (nsMs 10) then
    s.toFault port (if ((lanesOf port).all fun n => decide (2 ≤ (s.lane n).mkRun)) && !(s.onePartner port) then 8 else 7)
  else s)

/-! ### CHECK (R86 to R88, R152, R153) -/

/-- Port kind of Table 3-8. USE codes 2 and 3, which R113 neither names nor reserves, stand for a ring or chain port: DESIGN CHOICE
(assumption 72). -/
def State.portKind (s : State) (p : Nat) : Nat :=
  if s.isTile then (if p == 0 then 2 else 3) else if p == 6 && (s.port p).use == 1 then 1 else 0

/-- Table 3-9. -/
def kindsOk (a b : Nat) : Bool :=
  match a, b with
  | 0, 2 | 0, 3 | 2, 0 | 3, 0 | 1, 1 | 2, 3 | 3, 2 => true
  | _, _ => false

/-- The lanes this side precodes, by the logical lane they send as: lane k of the port sends as k. -/
def State.txPrecodeMap (s : State) (p : Nat) : Nat :=
  (List.range 4).foldl (fun a k => a + 2 ^ k * s.f F.LANEn_STATUS_PRECODE_TX (4 + 4 * p + k)) 0

/-- The lanes this side expects precoded, by the logical number of the partner's lane. That a bit of CONFIRM's maps names a logical
lane, so that they can agree however the lanes are wired (R74), is DEDUCED (assumption 73). -/
def State.rxPrecodeMap (s : State) (p : Nat) : Nat :=
  (lanesOf p).foldl (fun a n => a + 2 ^ s.f F.LANEn_STATUS_LOGICAL n * s.f F.LANEn_STATUS_PRECODE_RX n) 0

/-- The rate bitmap of CAP. -/
def Port.rates (q : Port) : Nat :=
  ([0, 1, 2].filter fun c => decide (q.rateMax ≤ c) && decide (c ≤ q.rateMin)).foldl (fun a c => a + 2 ^ c) 0

/-- This side can encrypt: a valid wall key (R152). -/
def State.keyValid (s : State) : Bool := s.b F.SEC_WALLKEY_VALID

/-- CONFIRM of this side. -/
def State.confirmMsg (s : State) (p : Nat) : Bytes :=
  linkBlock 0x03 [(2, 1, s.f F.PORTn_STATUS_RATE p), (3, 1, s.txPrecodeMap p + 16 * s.rxPrecodeMap p),
    (4, 8, s.partnerSerial p)]

/-- A message repeated every 10 µs is due. -/
def State.due10 (s : State) (last : Option Nat) : Bool :=
  match last with
  | some t => s.passed t (nsUs 10)
  | none => true

/-- CHECK_TX_TIMER (R86): every 10 µs IDENT and CAP, and CONFIRM once both of the partner's have arrived; in UP, CONFIRM for
1 ms. -/
def execCheckTxTimer (port : Fin 7) (s : State) : Host.Outcome State Fault Refusal :=
  .next (if !(s.on iLINK && s.due10 (s.port port).checkTx) then s
    else if s.portState port == psCheck then
      let q := s.port port
      let s := (s.emit (.link port 1 (linkBlock 0x01 [(2, 8, s.serial), (10, 1, s.f F.BOOT_STRAPS_ROLE), (11, 1, port),
        (12, 1, s.portKind port)]))).emit (.link port 2 (linkBlock 0x02 [(2, 1, q.rates),
        (3, 1, b2n (s.b F.RING_CFG_ENC_EN && s.keyValid)), (4, 1, s.f F.GLOBAL_ID_STEPPING)]))
      let s := s.onPort port fun q => { q with checkTx := some s.time.aon }
      if q.gotIdent && q.gotCap then
        (s.emit (.link port 3 (s.confirmMsg port))).onPort port fun q => { q with sentConfirm := true }
      else s
    else if s.portLink port && !(s.barred port) && (match (s.port port).confirmEnd with
        | some e => decide (s.time.aon < e)
        | none => false) then
      (s.emit (.link port 3 (s.confirmMsg port))).onPort port fun q => { q with checkTx := some s.time.aon }
    else s)

/-- IDENT (R88). -/
def execIdent (port : Fin 7) (block : Bytes) (s : State) : Host.Outcome State Fault Refusal :=
  .next (s.linkRx port block fun s => if !(s.on iLINK && s.portState port == psCheck && linkOk 1 block) then s
    else
      let s := s.put64 F.PORTn_PARTNER_SERIAL_LO F.PORTn_PARTNER_SERIAL_HI (le block 2 8) port
      let s := ((s.put F.PORTn_PARTNER_INFO_ROLE (le block 10 1) port).put F.PORTn_PARTNER_INFO_PORT (le block 11 1) port).put
        F.PORTn_PARTNER_INFO_KIND (le block 12 1) port
      if !(kindsOk (s.portKind port) (le block 12 1)) || le block 2 8 == s.serial then s.toFault port 10
      else s.judgeRings.onPort port fun q => { q with gotIdent := true })

/-- CAP (R87, R152): ENC_REQUIRED on a link that would not be encrypted fails with WIRING. -/
def execCap (port : Fin 7) (block : Bytes) (s : State) : Host.Outcome State Fault Refusal :=
  .next (s.linkRx port block fun s => if !(s.on iLINK && s.portState port == psCheck && linkOk 2 block) then s
    else
      let enc := bitOf (le block 3 1) 0 && s.b F.RING_CFG_ENC_EN && s.keyValid
      let s := s.put F.PORTn_PARTNER_INFO_RATES (le block 2 1) port
      if s.b F.RING_CFG_ENC_REQUIRED && !enc then s.toFault port 10
      else s.onPort port fun q => { q with gotCap := true, partnerEnc := bitOf (le block 3 1) 0, encOn := enc })

/-- CONFIRM (R88). -/
def execConfirm (port : Fin 7) (block : Bytes) (s : State) : Host.Outcome State Fault Refusal :=
  .next (s.linkRx port block fun s => if !(s.on iLINK && s.portState port == psCheck && linkOk 3 block) then s
    else
      let m := le block 3 1
      let agree := bits m 0 4 == s.rxPrecodeMap port && bits m 4 4 == s.txPrecodeMap port
      if le block 4 8 != s.serial || !agree then s.toFault port 10
      else s.onPort port fun q => { q with gotConfirm := true })

/-- The layer allowance of Table 3-2, Mb/s. -/
def allowance (rate : Nat) : Nat :=
  match rate with
  | 0 => 380000
  | 1 => 190000
  | _ => 92000

/-- INGEST_ADMIT of the wall is within the allowance of the port's rate (R76). -/
def State.admitFits (s : State) (p : Nat) : Bool := decide (s.link.admitted ≤ allowance (s.f F.PORTn_STATUS_RATE p))

/-- CHECK_COMPLETE (R76, R86, R153). PARTNER_VALID is 1 from here until the next CHECK begins to write the partner registers
(DEDUCED, assumption 73); REASON stays that of the last FAULT (R115). TRAIN_TIME counts from the last entry to DETECT and ends at its
greatest value (DESIGN CHOICE, assumption 72). -/
def execCheckComplete (port : Fin 7) (s : State) : Host.Outcome State Fault Refusal :=
  .next (let q := s.port port
    let keyed := !q.encOn || ((s.enc port).verified && (s.enc port).sentConf)
    if s.on iLINK && s.portState port == psCheck && q.gotConfirm && q.sentConfirm && keyed then
      let s := (s.movePort port (if s.admitFits port then psUp else psLowRate)).flag F.PORTn_STATUS_PARTNER_VALID true port
      let s := s.put F.PORTn_TRAIN_TIME (min ((s.time.aon - q.detectAt) / 1000) (2 ^ 32 - 1)) port
      let s := s.onPort port fun q => { q with confirmEnd := some (s.time.aon + nsMs 1) }
      s.onRing fun r => { r with
        firstUp := r.firstUp.or (some s.time.aon), enc := modAt r.enc port fun e => { e with txCount := 1, rxCount := 1, fails := 0 } }
    else s)

/-- CHECK_TIMEOUT (R87, R97): 5 ms have passed in CHECK. -/
def execCheckTimeout (port : Fin 7) (s : State) : Host.Outcome State Fault Refusal :=
  .next (if s.on iLINK && s.portState port == psCheck && s.boundOver (s.port port).stateAt (nsMs 5) then s.toFault port 9 else s)

/-- CONFIRM_TX_END (R86): 1 ms has passed in UP or LOW_RATE. -/
def execConfirmTxEnd (port : Fin 7) (s : State) : Host.Outcome State Fault Refusal :=
  .next (s.onPort port fun q => { q with confirmEnd := q.confirmEnd.filter fun e => decide (s.time.aon < e) })

/-- Judge UP and LOW_RATE again after a change of INGEST_ADMIT (R76): a port that enters LOW_RATE is a ring break. -/
def State.judgeRates (s : State) : State :=
  s.each (List.range 7) fun s p =>
    if s.portState p == psUp && !(s.admitFits p) then s.movePort p psLowRate
    else if s.portState p == psLowRate && s.admitFits p then s.movePort p psUp
    else s

/-! ### Keys of an encrypted link (R152, R153) -/

/-- KEYX_TIMER (R153). -/
def execKeyxTimer (port : Fin 7) (s : State) : Host.Outcome State Fault Refusal :=
  .next (let q := s.port port
    if !(s.on iLINK && s.portState port == psCheck && q.encOn && q.gotConfirm && q.sentConfirm && s.due10 q.keyxTx) then s
    else
      let s := if (s.enc port).own == 0 then (s.onEnc port fun e => { e with own := Config.random s.fresh % 2 ^ 64 }).tickFresh else s
      let s := (s.emit (.link port 0x28 (linkBlock 0x28 [(2, 8, (s.enc port).own)]))).onPort port fun q => { q with
        keyxTx := some s.time.aon }
      if (s.enc port).keys then
        (s.emit (.link port 0x29 (linkBlock 0x29 [(2, 8, Config.confTag (s.linkKey port (s.txDir port)) (s.partnerSerial port))]))).onEnc
          port fun e => { e with sentConf := true }
      else s)

/-- KEYX (R153): the partner's nonce; the keys are derived. -/
def execKeyx (port : Fin 7) (body : Bytes) (s : State) : Host.Outcome State Fault Refusal :=
  .next (s.linkRx port body fun s => if s.on iLINK && s.portState port == psCheck && (s.port port).encOn && linkOk 0x28 body then
    s.onEnc port fun e => { e with partner := some (le body 2 8), keys := true }
  else s)

/-- KEYCONF (R153): the tag must be the one the partner's key gives over our serial. -/
def execKeyconf (port : Fin 7) (body : Bytes) (s : State) : Host.Outcome State Fault Refusal :=
  .next (s.linkRx port body fun s =>
    if s.on iLINK && s.portState port == psCheck && (s.port port).encOn && (s.enc port).keys && linkOk 0x29 body then
    if le body 2 8 == Config.confTag (s.linkKey port (1 - s.txDir port)) s.serial % 2 ^ 64 then
      s.onEnc port fun e => { e with verified := true }
    else s.toFault port 9
  else s)

/-! ### Markers, codewords, blocks (R89 to R99) -/

/-- LANE_LOS (R98): no signal on the lane for 1 µs. -/
def execLaneLos (lane : Fin 28) (s : State) : Host.Outcome State Fault Refusal :=
  let p := lane.val / 4
  let n := lane.val + 4
  .next (if !(s.on iLINK && s.portPowered p) then s
    else
      let s := ((s.flag F.LANEn_STATUS_SIGNAL false n).flag F.LANEn_STATUS_CDR_LOCK false n).onLane n fun l => { l with
        valid := 0, ready := 0, sigAt := none }
      if s.portLink p then (s.flag F.LANEn_EVENT_LOS true n).toFault p 1 else s)

/-- DEGRADED of a lane, judged once in a marker period (R99). -/
def State.judgeDegraded (s : State) (p n : Nat) : State :=
  let c := (s.lane n).mkCorr
  let was := s.b F.LANEn_STATUS_DEGRADED n
  let q := if s.f F.PORT_DEGRADE < c then 0 else (s.lane n).quiet + 1
  let now := if s.f F.PORT_DEGRADE < c then true else was && decide (q < 16)
  let s := s.onLane n fun l => { l with mkCorr := 0, quiet := q }
  let s := if now && !was then s.flag F.LANEn_EVENT_DEGRADED_SET true n else s
  let s := s.flag F.LANEn_STATUS_DEGRADED now n
  s.flag F.PORTn_STATUS_DEGRADED ((lanesOf p).any fun k => s.b F.LANEn_STATUS_DEGRADED k) p

/-- The adaptation of a receiver moves on by one step (R81): with AUTO = 1, PEAK by at most one code and H1 by at most one unit. -/
def State.adaptStep (s : State) (n peak : Nat) (h1 : Int) : State :=
  let s := s.when (s.b F.LANEn_CTLE_AUTO n) fun s =>
    s.put F.LANEn_CTLE_PEAK_NOW (clampN (s.f F.LANEn_CTLE_PEAK_NOW n - 1) (min 31 (s.f F.LANEn_CTLE_PEAK_NOW n + 1)) peak) n
  s.when (s.b F.LANEn_DFE_AUTO n) fun s =>
    s.putS F.LANEn_DFE_H1_NOW (clampI (s.sf F.LANEn_DFE_H1_NOW n - 1) (s.sf F.LANEn_DFE_H1_NOW n + 1) h1) n

/-- The equaliser at the end of a marker period (R81, R82, R106): at a marker, written values that wait come into force, and in UP
and LOW_RATE the receiver goes on adapting. That the marker at which TX taps come into force is the one the lane receives is a
DESIGN CHOICE (assumption 72): R106 says only 'the next alignment marker of the lane'. -/
def State.markerEq (s : State) (p n : Nat) (good : Bool) (peak : Nat) (h1 : Int) : State :=
  (s.when good fun s => s.applyPending n).when (s.portLink p) fun s => s.adaptStep n peak h1

/-- A marker absent or with a wrong count (R98): two in a row are AM_LOST in UP and LOW_RATE. In ALIGN the run of valid markers
starts again. -/
def State.markerMiss (s : State) (p n : Nat) : State :=
  let s := s.onLane n fun l => { l with
    missed := l.missed + 1, mkRun := 0, marker := l.marker.map fun c => (c + 1) % 2 ^ 16
    mkPos := if l.missed == 0 then l.mkPos else none }
  let s := s.when (decide (2 ≤ (s.lane n).missed)) fun s => s.flag F.LANEn_STATUS_AM_LOCK false n
  s.when (decide (2 ≤ (s.lane n).missed) && s.portLink p) fun s => (s.flag F.LANEn_EVENT_AM_LOST true n).toFault p 2

/-- A marker has the layout and, once ALIGN is over, the count it must have (R93, R98); one in a codeword that could not be corrected
is absent (R96). -/
def State.markerGood (s : State) (p n : Nat) (marker : Bytes) : Bool :=
  markerOk marker && !(s.lane n).mkLost && (s.portState p == psAlign || (match (s.lane n).marker with
    | some c => le marker 3 2 == (c + 1) % 2 ^ 16
    | none => true))

/-- A good marker: the run of consecutive counts, the count, and what it says of the partner's lane (R74, R93). -/
def State.markerTaken (s : State) (n : Nat) (marker : Bytes) : State :=
  let c := le marker 3 2
  let s := s.onLane n fun l => { l with
    mkRun := if l.marker == some ((c + 2 ^ 16 - 1) % 2 ^ 16) then l.mkRun + 1 else 1
    marker := some c, missed := 0, logical := le marker 1 1, mkPort := le marker 2 1 }
  s.when (decide (2 ≤ (s.lane n).mkRun)) fun s => s.flag F.LANEn_STATUS_AM_LOCK true n

/-- MARKER_RX (R81, R82, R93, R98, R99, R106): `marker` is empty for an absent one; PPM, PEAK and H1 are what the receiver
measures and adapts to. Its BIP-8 is compared with that of the blocks received since the marker before. -/
def execMarkerRx (lane : Fin 28) (marker : Bytes) (ppm : Int) (peak : Nat) (h1 : Int) (s : State) :
    Host.Outcome State Fault Refusal :=
  let p := lane.val / 4
  let n := lane.val + 4
  let good := s.markerGood p n marker
  .next (if !(s.on iLINK && missionState (s.portState p)) then s
    else
      let s := (s.when good fun s => s.hears n).onLane n fun l => { l with mkLost := false }
      let s := (s.putS F.LANEn_CDR_PPM ppm n).markerEq p n good peak h1
      let s := s.when (good && (s.lane n).mkErr && (s.lane n).marker.isSome && le marker 5 1 != (s.lane n).mkBip) fun s =>
        s.inc F.LANEn_FEC_HIGH n
      let s := (s.judgeDegraded p n).onLane n fun l => { l with mkErr := false }
      if good then s.markerTaken n marker else s.markerMiss p n)

/-- The 80 slots of four codewords of the same place go into the port's stream (R89 to R92, R96): its cell blocks, and what is LINK or
may have been. -/
def State.takeSlots (s : State) (p : Nat) (row : List (Nat × Bool × List (List Bool))) : State :=
  let slots := (List.range 80).map fun i => nth (nth row (i % 4) (0, false, [])).2.2 (i / 4) []
  let bad := fun (i : Nat) => (nth row (i % 4) (0, false, [])).2.1
  let marks := if (nth row 0 (0, false, [])).1 % 16384 == 0 then 4 else 0
  let d := descrambleLines marks (s.port p).rxScr slots
  let bs := (List.zipIdx d.2).drop marks
  let cells := (bs.filter fun x => x.1.cell).map fun x => bad x.2
  let links := (bs.filter fun x => !x.1.cell && (x.1.kind == .link || bad x.2)).map fun x => (bad x.2, x.1.data)
  s.onPort p fun q => { q with rxScr := d.1, rxCells := q.rxCells ++ cells, rxLinks := q.rxLinks ++ links }

/-- The port deskews its lanes by their markers (R92, R94): codewords of the same place in the sender's stream are taken in slot order,
slot i from logical lane i mod 4; one whose companions will not come any more is dropped. -/
def State.mergeWords (s : State) (p : Nat) : State :=
  let lane := fun (k : Nat) => ((lanesOf p).find? fun n => (s.lane n).logical == k).getD (4 + 4 * p + k)
  if (lanesOf p).any fun n => (s.lane n).words.isEmpty then s
  else
    let place := fun (s : State) (n : Nat) => ((s.lane n).words.headD (0, false, [])).1
    let top := (lanesOf p).foldl (fun a n => if seqDiff 30 a (place s n) < 0 then place s n else a) (place s (4 + 4 * p))
    let s := s.each (lanesOf p) fun s n => s.onLane n fun l => { l with words := l.words.dropWhile fun w => w.1 != top }
    if (lanesOf p).any fun n => (s.lane n).words.isEmpty then s
    else
      let s := s.takeSlots p ((List.range 4).map fun k => (s.lane (lane k)).words.headD (0, false, []))
      s.each (lanesOf p) fun s n => s.onLane n fun l => { l with words := l.words.drop 1 }

/-- The received symbols of a lane with its receive polarity (R74, R83). -/
def State.rxSymbols (s : State) (n : Nat) (nrz : Bool) (l : List Nat) : List Nat :=
  if s.b F.LANEn_STATUS_RX_INVERTED n then l.map (invertSymbol nrz) else l

/-- The received symbols of a codeword in the order sent: polarity, precoding and the Gray map are undone (R74, R78, R79). -/
def State.rxWord (s : State) (p n : Nat) (symbols : List Nat) : List Nat :=
  let nrz := s.f F.PORTn_STATUS_RATE p == 2
  let l := s.rxSymbols n nrz symbols
  let l := if s.b F.LANEn_STATUS_PRECODE_RX n then unprecode (s.lane n).rxPre l else l
  (pieces 544 10 (symbolBits nrz l)).map ofBits

/-- The first block of a received codeword is a marker: every 16,384th codeword from the one in which a marker was found (R93). Until
then a block laid out as a marker is one. -/
def Lane.markerAt (l : Lane) (lost : Bool) (lines : List (List Bool)) : Bool :=
  match l.mkPos with
  | some m => (l.codewords - m.1) % 16384 == 0
  | none => !lost && markerOk (ofBitBytes ((lines.headD []).drop 1)) && !((lines.headD []).headD true)

/-- A lane takes the lines of a codeword: the place of its markers, BIP-8 of the blocks and at a marker that of the blocks before it
with the errors of their period (R93), and the codeword waits for those of the other lanes (R94). -/
def Lane.takeLines (l : Lane) (lost : Bool) (lines : List (List Bool)) : Lane :=
  let at_ := l.markerAt lost lines
  let m := ofBitBytes ((lines.headD []).drop 1)
  let l := if at_ then { l with
      mkPos := l.mkPos.or (some (l.codewords, le m 3 2)), logical := if lost then l.logical else le m 1 1
      mkLost := lost, mkBip := l.rxBip, rxBip := 0, mkErr := l.fecErr, fecErr := false, mkCorr := l.corr, corr := 0 } else l
  let words := match l.mkPos with
    | some q => l.words ++ [((q.2 * 16384 + (l.codewords - q.1)) % 2 ^ 30, lost, lines)]
    | none => l.words
  { l with rxBip := (if at_ then lines.drop 1 else lines).foldl bip8 l.rxBip, words := words }

/-- CODEWORD_RX (R92, R96, R98): the symbols of one codeword as a lane receives them. Of a codeword that comes while this side still sends its
final training frames only the last symbol counts, for the precoding of the next (R79). -/
def execCodewordRx (lane : Fin 28) (symbols : List Nat) (s : State) : Host.Outcome State Fault Refusal :=
  let p := lane.val / 4
  let n := lane.val + 4
  let raw := s.rxWord p n symbols
  let d := rsDecode raw
  let lines := linesOf (match d with
    | some w => w.2
    | none => raw)
  let last := (s.rxSymbols n (s.f F.PORTn_STATUS_RATE p == 2) symbols).getLastD (s.lane n).rxPre
  .next (if !(s.on iLINK && (s.portState p == psTrain || missionState (s.portState p))) then s
    else if s.portState p == psTrain then s.onLane n fun l => { l with rxPre := last }
    else
      let k := (s.lane n).codewords
      let s := (s.hears n).onLane n fun l => { l.takeLines d.isNone lines with
        codewords := k + 1, bad := l.bad.filter fun x => decide (k < x + 1024), rxPre := last }
      let s := s.mergeWords p
      match d with
      | some (0, _) => s
      | some (e, _) =>
        let s := ((s.inc F.LANEn_FEC_CORR n).add F.LANEn_FEC_SYMERR e n).onLane n fun l => { l with
          corr := l.corr + e, fecErr := true }
        if 8 ≤ e then s.inc F.LANEn_FEC_HIGH n else s
      | none =>
        let s := ((s.inc F.LANEn_FEC_UNCORR n).inc F.LANEn_FEC_HIGH n).onLane n fun l => { l with bad := k :: l.bad, fecErr := true }
        if s.portLink p && decide (4 ≤ (s.lane n).bad.length) then (s.flag F.LANEn_EVENT_FEC_FAULT true n).toFault p 3 else s)

/-- IDLE_BLOCK_RX (R89): a control block after a run of cell blocks. What the framing finds to be too short for a cell is discarded
and counted; the cells themselves come as CELL_RX. -/
def execIdleBlockRx (port : Fin 7) (run : List Bytes) (block : Bytes) (s : State) : Host.Outcome State Fault Refusal :=
  .next (if s.on iLINK && missionState (s.portState port) &&
      (deframe [] ((run.map fun b => ⟨true, b⟩) ++ [⟨false, block⟩])).contains .fragment then
    ((s.inc F.PORTn_FRAGMENTS port).onEnc port fun e => { e with rxCount := e.rxCount + 1 }).onPort port fun q => { q with
      rxCells := q.rxCells.drop (run.length % 16) }
  else s)

/-- FAULT_HOLDOFF_EXPIRE (R97): the holdoff has ended; with AUTO_RETRAIN = 0 a RETRAIN must have been written in FAULT. -/
def execFaultHoldoffExpire (port : Fin 7) (s : State) : Host.Outcome State Fault Refusal :=
  .next (if s.on iLINK && s.portState port == psFault && s.passed (s.port port).holdEnd 0 &&
      ((s.port port).autoRetrain || (s.port port).armed) then s.toDetect port [] else s)

/-- RETRAIN (R97, R114): FAULT with reason HOST. With AUTO_RETRAIN = 0 a write in FAULT lets the port train again when this holdoff
ends; one that brings the port to FAULT does not, since the port then stays in FAULT until a RETRAIN write (DEDUCED, assumption 73). -/
def State.retrain (s : State) (p : Nat) : State :=
  if s.portState p == psDisabled then s
  else
    let held := s.portState p == psFault
    (s.toFault p 5).onPort p fun q => { q with armed := held }
def execPortRetrain (port : Fin 7) (s : State) : Host.Outcome State Fault Refusal :=
  .next (if s.on iLINK && s.portPowered port then s.retrain port else s)

/-- PORT_CLEAR (R114). -/
def State.portClear (s : State) (p : Nat) : State :=
  let s := ((s.put F.PORTn_RETRAINS 0 p).put F.PORTn_STOMPED 0 p).put F.PORTn_FRAGMENTS 0 p
  s.each (lanesOf p) fun s n =>
    (((s.put F.LANEn_FEC_CORR 0 n).put F.LANEn_FEC_UNCORR 0 n).put F.LANEn_FEC_SYMERR 0 n).put F.LANEn_FEC_HIGH 0 n
def execPortClear (port : Fin 7) (s : State) : Host.Outcome State Fault Refusal :=
  .next (if s.pwr.up && s.portPowered port then s.portClear port else s)

/-! ### Test patterns (R97, R101 to R103) -/

/-- The port follows the test selection of its lanes. -/
def State.judgeTest (s : State) (n : Nat) : State :=
  if n < 4 then s
  else
    let p := (n - 4) / 4
    if s.portState p == psDisabled then s
    else if s.inTest p then (if s.portState p == psTest then s else s.movePort p psTest)
    else if s.portState p == psTest then s.toDetect p []
    else s

/-- RATE_MAX of a port: that in force since its DETECT (R100), or for a port in DISABLED the one its next DETECT takes. -/
def State.rateMax (s : State) (p : Nat) : Nat :=
  if s.portState p == psDisabled then s.f F.PORTn_CFG_RATE_MAX p else (s.port p).rateMax

/-- The lane is set to NRZ by the RATE_MAX of its port. -/
def State.nrzLane (s : State) (n : Nat) : Bool := decide (4 ≤ n) && s.rateMax ((n - 4) / 4) == 2

/-- A Q pattern is selected while RATE_MAX = 2 (R101). -/
def State.patBad (s : State) (n gen chk : Nat) : Bool := s.nrzLane n && (isQ gen || isQ chk)

/-- The patterns of a lane change: a generator starts from a free state of its pattern, because R101 gives no first state (assumption 2);
all zeros is no state of a pattern. A checker seeds itself anew (R102). -/
def State.startPattern (s : State) (n gen chk : Nat) : State :=
  let s := s.when (gen != s.f F.LANEn_PRBS_GEN_PAT n) fun s =>
    (s.onLane n fun l => { l with gen := 1 + Config.free s.fresh % (2 ^ (prbsPoly gen).1 - 1) }).tickFresh
  let s := s.when (chk != s.f F.LANEn_PRBS_CHK_PAT n) fun s =>
    (s.onLane n fun l => { l with check := {} }).flag F.LANEn_PRBS_CHK_LOCK false n
  (s.put F.LANEn_PRBS_GEN_PAT gen n).put F.LANEn_PRBS_CHK_PAT chk n

/-- A selection of patterns and loopback; one of a Q pattern at RATE_MAX = 2 is ignored and sets PAT_ERR (R101). -/
def State.testSelect (s : State) (n gen chk loop : Nat) : State :=
  if s.patBad n gen chk then s.flag F.LANEn_EVENT_PAT_ERR true n
  else ((s.startPattern n gen chk).put F.LANEn_CTL_LOOPBACK loop n).judgeTest n

/-- LANE_TEST_SELECT. -/
def execLaneTestSelect (lane : Fin 32) (gen : Nat) (chk : Nat) (loopback : Nat) (s : State) : Host.Outcome State Fault Refusal :=
  .next (if s.on iLINK && s.lanePowered lane && decide (gen < 7) && decide (chk < 7) && decide (loopback < 3) then
    s.testSelect lane gen chk loopback else s)

/-- PRBS_CLEAR (R102). -/
def State.prbsClear (s : State) (n : Nat) : State :=
  (((s.put F.LANEn_PRBS_ERR_LO 0 n).put F.LANEn_PRBS_ERR_HI 0 n).put F.LANEn_PRBS_BITS_LO 0 n).put F.LANEn_PRBS_BITS_HI 0 n
def execPrbsClear (lane : Fin 32) (s : State) : Host.Outcome State Fault Refusal :=
  .next (if s.on iLINK && s.lanePowered lane then s.prbsClear lane else s)

/-- A write of LANEn_PRBS (R101, R111): ignored as a whole, with PAT_ERR, when it selects a Q pattern at RATE_MAX = 2. -/
def State.writePrbs (s : State) (n v : Nat) : State :=
  if s.patBad n (bits v 0 3) (bits v 4 3) then s.flag F.LANEn_EVENT_PAT_ERR true n
  else
    let s := (s.flag F.LANEn_PRBS_GEN_INV (bitOf v 3) n).flag F.LANEn_PRBS_CHK_INV (bitOf v 7) n
    let s := s.testSelect n (bits v 0 3) (bits v 4 3) (s.f F.LANEn_CTL_LOOPBACK n)
    s.when (bitOf v 8) fun s => s.prbsClear n

/-- Add to a 48-bit counter, saturating at 2^48 - 1 (R102). -/
def State.add48 (s : State) (lo hi : Fld) (n k : Nat) : State :=
  s.put64 lo hi (min (s.f64 lo hi n + k) (2 ^ 48 - 1)) n

/-- The lane runs its generator or checker: an Ethernet lane that is powered, or a lane of a port in TEST (R72, R101). -/
def State.testing (s : State) (n : Nat) : Bool :=
  s.lanePowered n && (decide (n < 4) || s.portState ((n - 4) / 4) == psTest)

/-- The symbols of test bits on a lane: a Q pattern is Gray-mapped, any other takes the outer levels of PAM4 (DESIGN CHOICE,
assumption 72, since R101 gives no mapping). -/
def testSymbols (nrz q : Bool) (l : List Bool) : List Nat :=
  if nrz then l.map b2n else if q then pamOf l else l.map fun b => if b then 3 else 0

/-- The bits that symbols of a test pattern are read as. -/
def testBits (nrz q : Bool) (l : List Nat) : List Bool :=
  if nrz then l.map (· == 1) else if q then bitsOfPam l else l.map fun g => decide (2 ≤ g)

/-- A pattern that the lane's modulation cannot carry: a Q pattern at NRZ (R101). Where RATE_MAX became 2 after the selection, such a
lane sends and compares nothing: DESIGN CHOICE (assumption 72). -/
def State.patOff (s : State) (n code : Nat) : Bool := code == 0 || (isQ code && s.nrzLane n)

/-! ### Symbols on a line (R103, R104) -/

/-- Symbols as they leave a lane: errors are injected after precoding, and TX_INVERT turns the polarity. R72 does not list the fields that
lanes 0 to 3 ignore: TX_INVERT, LOOPBACK and LANEn_INJ act on their test patterns too (DESIGN CHOICE, assumption 72). -/
def State.lineSymbols (s : State) (n : Nat) (nrz : Bool) (l : List Nat) : List Nat :=
  let x := injectAt nrz (s.lane n).injectAt (injectRun nrz (s.lane n).inject l)
  if s.b F.LANEn_CTL_TX_INVERT n then x.map (invertSymbol nrz) else x

/-- Symbols leave a lane. In MODE 3 they are counted toward the next injected error. -/
def State.sendSymbols (s : State) (n : Nat) (nrz : Bool) (l : List Nat) : State :=
  let rate := s.f F.LANEn_INJ_MODE n == 3
  (s.onLane n fun q => { q with
    inject := q.inject - l.length, symbols := if rate then q.symbols + l.length else 0
    injectAt := (q.injectAt.filter fun k => decide (l.length ≤ k)).map (· - l.length) }).emit
    (.line n nrz (s.lineSymbols n nrz l))

/-- The checker of a lane takes bits of the pattern (R102). -/
def State.checkBits (s : State) (n : Nat) (received : List Bool) : State :=
  let code := s.f F.LANEn_PRBS_CHK_PAT n
  if s.patOff n code then s
  else
    let c := (s.lane n).check.bits code (s.b F.LANEn_PRBS_CHK_INV n) received
    let s := (s.onLane n fun l => { l with check := { c with compared := 0, errors := 0 } }).flag F.LANEn_PRBS_CHK_LOCK c.lock n
    (s.add48 F.LANEn_PRBS_BITS_LO F.LANEn_PRBS_BITS_HI n c.compared).add48 F.LANEn_PRBS_ERR_LO F.LANEn_PRBS_ERR_HI n c.errors

/-- PRBS_CHECKER_LOCK (R101, R102, R104): symbols that a lane in test receives. With LOOPBACK = 1 the lane hears its own transmitter
instead; with LOOPBACK = 2 it also sends them on. -/
def execPrbsCheckerLock (lane : Fin 32) (symbols : List Nat) (s : State) : Host.Outcome State Fault Refusal :=
  .next (if s.on iLINK && s.testing lane && s.f F.LANEn_CTL_LOOPBACK lane != 1 then
    let nrz := s.nrzLane lane
    let heard := s.rxSymbols lane nrz symbols
    let s := (s.hears lane).when (s.f F.LANEn_CTL_LOOPBACK lane == 2) fun s => s.sendSymbols lane nrz heard
    s.checkBits lane (testBits nrz (isQ (s.f F.LANEn_PRBS_CHK_PAT lane)) heard)
  else s)

/-- Injection acts on the lane: in TEST and in UP (R103). -/
def State.injects (s : State) (n : Nat) : Bool := s.testing n || (decide (4 ≤ n) && s.portUp ((n - 4) / 4))

/-- `len` consecutive errors are injected from the next symbol sent on (R103). -/
def State.inject (s : State) (n len : Nat) : State :=
  if s.injects n then s.onLane n fun l => { l with inject := l.inject + len } else s

/-- INJECT_GO (R103). -/
def State.injectGo (s : State) (n : Nat) : State :=
  match s.f F.LANEn_INJ_MODE n with
  | 1 => s.inject n 1
  | 2 => s.inject n (s.f F.LANEn_INJ_LEN n)
  | _ => s
def execInjectGo (lane : Fin 32) (s : State) : Host.Outcome State Fault Refusal :=
  .next (if s.on iLINK && s.lanePowered lane then s.injectGo lane else s)

/-- Symbols from the one that completes a count of MODE 3 to the one that takes its error: the most that a lane sends at a time, so that the
errors lie 2^EXP symbols apart however the ticks fall (DESIGN CHOICE, assumption 72). -/
def injectDelay : Nat := 5440

/-- INJECT_RATE_TICK (R103): in MODE 3, 2^EXP symbols have been sent. -/
def execInjectRateTick (lane : Fin 32) (s : State) : Host.Outcome State Fault Refusal :=
  let span := 2 ^ clampN 10 40 (s.f F.LANEn_INJ_EXP lane)
  .next (if s.on iLINK && s.lanePowered lane && s.f F.LANEn_INJ_MODE lane == 3 && decide (span ≤ (s.lane lane).symbols) then
    s.onLane lane fun l => { l with
      symbols := l.symbols - span
      injectAt := if s.injects lane then l.injectAt ++ [injectDelay - (l.symbols - span)] else l.injectAt }
  else s)

end Sys2Proof.Machine
end

