-- ==== Sys2Proof/Machine/Regs.lean ====
section
/-! DEFINITION. Finding a register in the register map, its reset value, its rights bit, and the reset of an island's status
and counter fields (R399, R468, R586, R620). -/
set_option Elab.async false
namespace Sys2Proof.Machine

/-- The instance (first and second index) of a register array that an offset names. -/
def RegDef.instanceAt (d : RegDef) (a : Nat) : Option (Nat × Nat) :=
  if a < d.base then none
  else
    let x := a - d.base
    let i := if d.s1 == 0 then 0 else x / d.s1
    let y := x - i * d.s1
    let j := if d.s2 == 0 then 0 else y / d.s2
    if i < max 1 d.n1 && j < max 1 d.n2 && y == j * d.s2 then some (i, j) else none

/-- The first register of a list at an offset. -/
def regIn (a : Nat) : List RegDef → Option (RegDef × Nat × Nat)
  | [] => none
  | d :: rest => match d.instanceAt a with
    | some ij => some (d, ij.1, ij.2)
    | none => regIn a rest

/-- The register at an offset; none where no chapter defines a word (R621). -/
def regAt (a : Nat) : Option (RegDef × Nat × Nat) := regIn a regTable

/-- The offsets of the instances of a register. -/
def RegDef.offsets (d : RegDef) : List Nat :=
  (List.range (max 1 d.n1)).flatMap fun i => (List.range (max 1 d.n2)).map fun j => d.base + i * d.s1 + j * d.s2

/-- The offsets of all registers that hold written configuration. -/
def configOffsets : List Nat := (regTable.filter fun d => d.fields.any fun f => f.acc == .rw).flatMap RegDef.offsets

/-- The fields of the register at an offset. -/
def fieldsAt (a : Nat) : List FieldDef :=
  match regAt a with
  | some (d, _) => d.fields
  | none => []

/-- The write puts a reserved code into a field (R631). -/
def resvBad (fs : List FieldDef) (v : Nat) : Bool :=
  fs.any fun f => (f.acc == .rw || f.acc == .rwp || f.acc == .wo) &&
    f.resv.any fun r => decide (r.1 ≤ bits v f.lo f.w) && decide (bits v f.lo f.w ≤ r.2)

/-- The reset value of the register at an offset, by role. -/
def resetWord (head : Bool) (a : Nat) : Word :=
  match (if head then headResets.find? fun p => p.1 == a else none) with
  | some p => p.2
  | none => RegFile.get resetCells a

/-- The register file at reset in a role. -/
def resetRegs (head : Bool) : RegFile :=
  if head then headResets.foldl (fun m p => m.set p.1 p.2) resetCells else resetCells

/-- Every register takes its reset value. -/
def State.loadResets (s : State) (head : Bool) : State := { s with regs := resetRegs head }

/-- Bits of a word that a list of fields covers. -/
def fieldMask (fs : List FieldDef) : Nat := fs.foldl (fun m f => setBits m f.lo f.w (2 ^ f.w - 1)) 0

/-- The rights bit of the block that holds an offset (Table 21-1); none outside every block. -/
def blockOf (a : Nat) : Option Nat :=
  if a < 0x10000 then some 0
  else if a < 0x20000 then some 1
  else if 0x100000 ≤ a ∧ a < 0x200000 then some (2 + (a - 0x100000) / 0x40000)
  else if 0x200000 ≤ a ∧ a < 0x300000 then some 6
  else if 0x300000 ≤ a ∧ a < 0x340000 then some 7
  else if 0x340000 ≤ a ∧ a < 0x380000 then some 8
  else if 0x400000 ≤ a ∧ a < 0x440000 then some 9
  else if 0x440000 ≤ a ∧ a < 0x480000 then some 10
  else if 0x480000 ≤ a ∧ a < 0x4C0000 then some 11
  else if 0x500000 ≤ a ∧ a < 0x540000 then some 12
  else if 0x540000 ≤ a ∧ a < 0x580000 then some 13
  else if 0x600000 ≤ a ∧ a < 0x640000 then some 14
  else if 0x640000 ≤ a ∧ a < 0x680000 then some 15
  else if 0x700000 ≤ a ∧ a < 0x780000 then some 16
  else if 0x780000 ≤ a ∧ a < 0x7C0000 then some 17
  else if 0x7C0000 ≤ a ∧ a < 0x7E0000 then some 18
  else if 0x7E0000 ≤ a ∧ a < 0x7F0000 then some 19
  else if 0x7F0000 ≤ a ∧ a < 0x800000 then some 20
  else none

/-- The island that holds a register's status and counters (Table 14-1); none for the core, which also keeps the admission and the
frame assignment that lie in the ETH block (R57, R60, R70). -/
def islandOf (a : Nat) : Option Nat :=
  match blockOf a with
  | some 7 => some iDPRX
  | some 8 => if decide (F.INGEST_MARGIN.base ≤ a) && decide (a ≤ F.FA_NOMATCH.base) then none else some iETH
  | some 9 => some iLINK
  | some 10 => some iLINK
  | some 12 => some iTIME
  | some 14 => some iLAMP
  | some 16 => some iMEM
  | _ => none

/-- Status fields that a reset of the MEM island alone does not take, as its devices stay in self-refresh and trained (R451, R583): geometry,
regions, training, the refresh rate and the peer's mismatch. -/
def memHeld (a : Nat) : Nat :=
  if a == F.MEM_CFG_CHANNELS.base || a == F.MEM_REGION_LAYER_GIB_NOW.base then 2 ^ 32 - 1
  else if a == F.MEM_STATUS_TRAINED.base then 0x31
  else if decide (0x700200 ≤ a) && decide (a < 0x700280) && a % 16 == 0 then 0xB
  else 0

/-- The status and counter fields of an island return to their reset values; its configuration fields are held (R468), and so is what R451 keeps. -/
def State.resetStatus (s : State) (isl : Nat) : State :=
  let offs := (s.regs.map fun p => p.1) ++ (resetRegs s.isHead).map fun p => p.1
  s.each (offs.filter fun a => islandOf a == some isl) fun s a =>
    match regAt a with
    | some (d, _) =>
      let keep := Nat.lor (fieldMask (d.fields.filter fun f => f.acc == .rw || f.acc == .rwp)) (memHeld a)
      let rst := (resetWord s.isHead a).toNat
      s.setReg a (BitVec.ofNat 32 (Nat.lor (Nat.land (s.reg a).toNat keep) (Nat.land rst (2 ^ 32 - 1 - keep))))
    | none => s

/-! ### Rights (R399) -/

/-- Context `c` may read or write the registers of block `b`: context 0 always may. -/
def State.mayRead (s : State) (c b : Nat) : Bool := c == 0 || bitOf (s.f F.CTXn_RIGHTS_RD c) b
def State.mayWrite (s : State) (c b : Nat) : Bool := c == 0 || bitOf (s.f F.CTXn_RIGHTS_WR c) b

/-! ### Power gating (R575, R621) -/

/-- The register at an offset belongs to a power-gated block: in tile role the head's islands, lanes 0 to 3 and 12 to 31, ports
2 to 6 and memory channels 2 to 7. -/
def State.gatedReg (s : State) (a : Nat) : Bool :=
  s.isTile && match blockOf a with
  | some 7 => true
  | some 8 => true
  | some 9 => let n := (a - 0x400000) / 0xC0; decide (n < 4) || decide (12 ≤ n)
  | some 10 => decide (0x440200 ≤ a) && decide (a < 0x440700)
  | some 16 => decide (0x700220 ≤ a) && decide (a < 0x700280)
  | _ => false

end Sys2Proof.Machine
end

