-- ==== Sys2Proof/Machine/Units.lean ====
section
/-! DEFINITION. The flash and its units of writing (R491, R508, R509): contents, erase, program, and the queue of units that
functions ask for. -/
set_option Elab.async false
namespace Sys2Proof.Machine

/-- Bytes of the flash. -/
def State.flashRead (s : State) (a n : Nat) : Bytes := complement (Memory.read s.boot.flash a n)

/-- Set bytes of the flash. -/
def State.flashSet (s : State) (a : Nat) (b : Bytes) : State :=
  s.onBoot fun x => { x with flash := Memory.write x.flash a (complement b) }

/-- Erase a 4 KiB sector: every byte reads 0xFF. -/
def State.flashErase (s : State) (a : Nat) : State :=
  s.onBoot fun x => { x with flash := x.flash.filter fun p => !(decide (a ≤ p.1) && decide (p.1 < a + 4096)) }

/-- Program bytes: a bit of flash goes from 1 to 0 only. -/
def State.flashProgram (s : State) (a : Nat) (b : Bytes) : State :=
  s.flashSet a (List.zipWith (fun x y => x &&& y) (s.flashRead a b.length) b)

/-- The pages of a sector's content. -/
def pages : Nat → Nat → Bytes → List FlashUnit
  | 0, _, _ => []
  | n + 1, a, b => if b.isEmpty then [] else .program a (b.take 256) :: pages n (a + 256) (b.drop 256)

/-- Erase a sector and program content at its start. -/
def sectorUnits (a : Nat) (b : Bytes) : List FlashUnit := .erase a :: pages 16 a b

/-- Offsets of Table 16-1. -/
def fIntent (copy : Nat) : Nat := copy * 0x1000
def fWallKey : Nat := 0x2000
def fSlot (a : Nat) : Nat := 0x00100000 + a * 0x02000000
def fCal : Nat := 0x04100000

/-- The first unit of the first job starts, or is deferred while the write window is closed (R491). -/
def State.startUnit (s : State) : State :=
  match s.boot.jobs with
  | [] => s
  | j :: _ =>
    if s.boot.unitOn then s
    else if s.b F.THERM_STATUS_WINDOW_OPEN then s.onBoot fun b => { b with unitOn := true, deferredAt := none }
    else if s.boot.deferredAt.isSome then s
    else s.onBoot fun b => { b with deferredAt := some (j.asked.getD s.time.aon) }

/-- When a unit that is requested now has been deferred: now, while the write window is closed. -/
def State.askedAt (s : State) : Option Nat := if s.b F.THERM_STATUS_WINDOW_OPEN then none else some s.time.aon

/-- Ask for a run of units. -/
def State.addJob (s : State) (j : Job) : State :=
  (s.onBoot fun b => { b with jobs := b.jobs ++ [{ j with asked := s.askedAt }] }).startUnit

/-- SEC_KEYS, SEC_ROLLBACK, SEC_SERIAL and the identity registers show the OTP (Table 16-5). -/
def State.otpRegs (s : State) : State :=
  let o := s.boot.otp
  let s := s.put F.SEC_KEYS_PROGRAMMED ((List.range 4).foldl (fun a k => if (nth o.hashes k none).isSome then a + 2 ^ k else a) 0)
  let s := ((s.put F.SEC_KEYS_REVOKED o.revoked).flag F.SEC_KEYS_RMA_KEY o.rmaHash.isSome).put F.SEC_ROLLBACK o.counter
  let s := (s.put64 F.SEC_SERIAL_LO F.SEC_SERIAL_HI (o.serial.getD 0)).put F.BIST_STATUS_REPAIRS_USED (min 64 o.repairs.length)
  match o.ids with
  | some b => ((((s.put F.SEC_PCIE_IDS_VENDOR (le b 0 2)).put F.SEC_PCIE_IDS_SUBSYS_VENDOR (le b 2 2)).put
      F.SEC_PCIE_SUBSYS (le b 4 2)).put F.SEC_MAC_LO (le b 6 4)).put F.SEC_MAC_HI (le b 10 2)
  | none => s

/-- The effect of a unit that has ended well on the flash or the OTP. -/
def State.unitEffect (s : State) (u : FlashUnit) : State :=
  match u with
  | .erase a => s.flashErase a
  | .program a b => s.flashProgram a b
  | .lifeCycle st => (s.onBoot fun b => { b with otp := { b.otp with lc := max b.otp.lc st } }).put F.LC_STATE_STATE
      (max s.boot.otp.lc st)
  | .revoke m => (s.onBoot fun b => { b with otp := { b.otp with revoked := Nat.lor b.otp.revoked m } }).otpRegs
  | .counter => (s.onBoot fun b => { b with otp := { b.otp with counter := min 128 (b.otp.counter + 1) } }).otpRegs
  | .keyHash k h => (s.onBoot fun b => { b with otp := { b.otp with hashes := modAt b.otp.hashes k fun _ => some h } }).otpRegs
  | .ids d => (s.onBoot fun b => { b with otp := { b.otp with ids := some d } }).otpRegs
  | .wipeKeys => s.onBoot fun b => { b with otp := { b.otp with privateKeys := false } }
  | .repair r =>
    ((s.onBoot fun b => { b with otp := { b.otp with repairs := b.otp.repairs ++ [r] } }).onBist fun b => { b with
      repairs := b.repairs.erase r }).otpRegs

/-- `n` free bytes (assumption 2). -/
def State.anyBytes (s : State) (n : Nat) : State × Bytes :=
  ((List.range n).foldl (fun t _ => t.tickFresh) s, (List.range n).map fun k => BitVec.ofNat 8 (Config.free (s.fresh + k)))

/-- A unit cut by POR_N or by loss of power (R582): the bytes it was writing are open; a fuse is burned or not. -/
def State.unitCut (s : State) : State :=
  match s.boot.unitOn, s.boot.jobs with
  | true, j :: _ => match j.units with
    | .erase a :: _ => let x := s.anyBytes 4096; x.1.flashSet a x.2
    | .program a b :: _ => let x := s.anyBytes b.length; x.1.flashSet a x.2
    | u :: _ => if Config.freeBool s.fresh then s.tickFresh.unitEffect u else s.tickFresh
    | [] => s
  | _, _ => s

end Sys2Proof.Machine
end

