-- ==== Sys2Proof/Machine/Power.lean ====
section
/-! DEFINITION. Power rails, sequencing and resets (spec/18_power_and_reset.md) and the clocked islands with their crossings
(spec/14_clock_islands.md). -/
set_option Elab.async false
namespace Sys2Proof.Machine

/-! ### Crossings (R463 to R468) -/

/-- ISLAND_STATUS and the IN_RESET and CLK_LOCK bits show the islands (R474, R475). -/
def State.islandRegs (s : State) : State :=
  s.each (List.range 9) fun s i =>
    let r := nth s.xing.inReset i true
    let st := s.f F.ISLAND_STATUS_IN_RESET
    let ga := s.f F.ISLAND_STATUS_GATED
    let s := (s.put F.ISLAND_STATUS_IN_RESET (setBits st i 1 (b2n r))).put F.ISLAND_STATUS_GATED
      (setBits ga i 1 (b2n (nth s.xing.gated i false)))
    (s.flag F.XINGi_STATUS_IN_RESET r i).flag F.XINGi_STATUS_CLK_LOCK (nth s.xing.clkOk i false) i

/-- An event toward or from island `i` is lost (R468). -/
def State.xingLost (s : State) (i n : Nat) : State :=
  if n == 0 then s else ((s.add F.XINGi_LOST n i).add F.XING_LOST n).flag F.XINGi_STATUS_LOST true i

/-- An event finds the pending latch full (R464). -/
def State.xingOverrun (s : State) (i : Nat) : State :=
  ((s.inc F.XINGi_OVERRUNS i).inc F.XING_OVERRUNS).flag F.XINGi_STATUS_OVERRUN true i

/-- XING_EVENT (R463, R464, R468): a handshake starts, or the event is latched, overruns, or meets a reset. -/
def execXingEvent (isl : Fin 9) (line : Nat) (s : State) : Host.Outcome State Fault Refusal :=
  .next (if !s.pwr.up then s
    else if nth s.xing.inReset isl true then s.xingLost isl 1
    else match s.xing.flights.find? fun f => f.isl == isl.val && f.line == line with
      | none => s.onXing fun x => { x with flights := x.flights ++ [⟨isl, line, s.time.clock, false⟩] }
      | some f => if f.pending then s.xingOverrun isl
        else s.onXing fun x => { x with flights := x.flights.map fun g =>
          if g.isl == isl.val && g.line == line then { g with pending := true } else g })

/-- XING_ACK (R464): the handshake completes, and a pending event starts the next one at once. -/
def execXingAck (isl : Fin 9) (line : Nat) (s : State) : Host.Outcome State Fault Refusal :=
  let ack := fun (g : Flight) =>
    if g.isl == isl.val && g.line == line then
      (if g.pending then some { g with start := s.time.clock, pending := false } else none)
    else some g
  .next (s.onXing fun x => { x with flights := x.flights.filterMap ack })

/-- The shortest and the longest one-way latency of an island's crossings in either direction, in 1/100 ns (Table 14-3). -/
def oneWay (i : Nat) : Nat × Nat :=
  nth [(191, 612), (140, 460), (240, 760), (373, 1160), (200, 640), (191, 612), (840, 2560), (140, 460), (3962, 12406)] i (0, 0)

/-- The request of a handshake had not reached its destination at the island's reset (R462, R468): not before the shortest latency
has passed, surely once the longest has; between them, and where the island's clock or the node clock has stopped, it is free. -/
def State.unreached (s : State) (i : Nat) (f : Flight) : Bool :=
  let d := (s.time.clock - f.start) * 100
  if !(s.on iTIME && nth s.xing.clkOk i false) then Config.freeBool s.fresh
  else if d < (oneWay i).1 * nsU then true
  else if (oneWay i).2 * nsU ≤ d then false
  else Config.freeBool s.fresh

/-- The events of an island's crossings at its reset (R468): a pending one is dropped, and one whose request has not arrived. -/
def State.dropFlights (s : State) (i : Nat) : State :=
  let fs := s.xing.flights.filter fun f => f.isl == i
  let s := s.onXing fun x => { x with flights := x.flights.filter fun f => f.isl != i }
  s.each fs fun s f => s.tickFresh.xingLost i (b2n (s.unreached i f) + b2n f.pending)

/-! ### Reset of an island (R466 to R469, R583) -/

/-- What a reset of an island takes from the units it holds. The alarms stay armed with their ENABLE, which the reset holds (R468). -/
def State.islandContent (s : State) (i : Nat) : State :=
  if i == iLINK then
    let s := s.each (List.range 7) fun s p => (s.movePort p psDisabled).put F.PORTn_STATUS_REASON 0 p
    s.onLink fun l => { l with lanes := List.replicate 32 {}, ports := List.replicate 7 {} }
  else if i == iTIME then
    s.lockReset.onTime fun t => { t with
      alarms := t.alarms.map fun a => { armed := a.armed, since := t.clock }, ppsLast := none }
  else if i == iLAMP then
    let s := s.each (List.range 16) fun s p => s.onLPort p fun _ => {}
    let s := s.each (List.range 4) fun s g => s.onLGroup g fun x => { x with blanked := true, blankSent := false, swapped := false, programming := false, lsync := false, ready := false }
    (s.invalidateAll.onLamp fun l => { l with reading := false, pages := [], swapSent := false, gainSent := none })
  else if i == iDPRX then s.each [0, 1, 2, 3] fun s r => s.dpLost r
  else if i == iETH then s.onIngest fun g => { g with flows := List.replicate 16 {} }
  else if i == iPCIE then s.onPwr fun p => { p with pcieUp := false }
  else s

/-- The devices of the trained channels enter self-refresh with a reset of the MEM island and leave it when the island restarts (R451). -/
def State.selfRefresh (s : State) (i : Nat) (v : Bool) : State :=
  s.when (i == iMEM) fun s => s.each (List.range 8) fun s c =>
    s.flag F.MEM_CHn_STATUS_SELF_REFRESH (v && s.b F.MEM_CHn_STATUS_TRAINED c) c

/-- Put island `i` into reset; `counted` when the reset counts in XINGi_FORCED (R467, R469). An island already in reset stays so. -/
def State.resetIsland (s : State) (i : Nat) (counted : Bool) : State :=
  if i == iAON || nth s.xing.gated i false then s
  else
    let s := if nth s.xing.inReset i true then s else (((s.dropFlights i).islandContent i).resetStatus i).selfRefresh i true
    let s := s.onXing fun x => { x with inReset := modAt x.inReset i fun _ => true }
    (if counted then s.inc F.XINGi_FORCED i else s).islandRegs.transports

/-- An island starts from its reset state: a LINK port with ENABLE starts again (R583), the clock of a bellwether that has no reference to
wait for steps (R169), and the scrubber goes on by a schedule that starts here. -/
def State.islandStart (s : State) (i : Nat) : State :=
  if i == iLINK then
    s.each (List.range 7) fun s p =>
      if s.b F.PORTn_CFG_ENABLE p && s.portPowered p &&
          decide (s.f F.PORTn_CFG_RATE_MAX p ≤ s.f F.PORTn_CFG_RATE_MIN p) then s.toDetect p [] else s
  else if i == iTIME then s.bwRelock
  else if i == iLAMP && s.isTile then s.lampStatus
  else if i == iMEM then s.scrubAnew
  else s

/-- Bring island `i` out of reset once its clock is good (R467, R469) and a hold of R583 has passed. -/
def State.releaseIsland (s : State) (i : Nat) : State :=
  if !s.pwr.up || !(nth s.xing.inReset i true) || !(nth s.xing.clkOk i false) || nth s.xing.gated i false ||
      decide (s.time.aon < nth s.xing.heldTo i 0) then s
  else
    (((s.onXing fun x => { x with inReset := modAt x.inReset i fun _ => false }).islandRegs.transports).selfRefresh i false).islandStart i

/-- ISLAND_RESET_RELEASE (R467, R583). -/
def execIslandResetRelease (isl : Fin 9) (s : State) : Host.Outcome State Fault Refusal := .next (s.releaseIsland isl)

/-- The clock of island `i` is lost: a joint reset under R469. The monitor of AON only reports (R460). -/
def State.clockLost (s : State) (i : Nat) : State :=
  let s := (s.onXing fun x => { x with clkOk := modAt x.clkOk i fun _ => false }).flag F.XINGi_STATUS_CLK_LOST true i
  if i == iAON then s.islandRegs else s.resetIsland i true

/-- ISLAND_CLOCK_LOST (R460, R469): a clock that runs is lost. -/
def execIslandClockLost (isl : Fin 9) (s : State) : Host.Outcome State Fault Refusal :=
  .next (if nth s.xing.gated isl false || !(nth s.xing.clkOk isl false) then s else s.clockLost isl)

/-- ISLAND_CLOCK_STABLE (R469, R574): the clock is back; the reset controller releases the island. -/
def execIslandClockStable (isl : Fin 9) (s : State) : Host.Outcome State Fault Refusal :=
  .next (if nth s.xing.gated isl false then s
    else (((s.onXing fun x => { x with clkOk := modAt x.clkOk isl.val fun _ => true }).islandRegs).releaseIsland isl))

/-- REFCLK_LOSS (R469): every island except AON and PCIE, and a lock reset. -/
def execRefclkLoss (s : State) : Host.Outcome State Fault Refusal :=
  .next (if !s.pwr.up then s
    else ((s.each ((List.range 7).filter fun i => !(nth s.xing.gated i false) && nth s.xing.clkOk i false) fun s i => s.clockLost i)).lockReset)

/-- XING_STUCK (R465): a handshake is in flight after XING_ACK_LIMIT: STUCK, and a joint reset. -/
def execXingStuck (isl : Fin 9) (line : Nat) (s : State) : Host.Outcome State Fault Refusal :=
  .next (if s.xing.flights.any fun f => f.isl == isl.val && f.line == line &&
      decide (f.start + s.f F.XING_ACK_LIMIT * nsU < s.time.clock) then
    (s.flag F.XINGi_STATUS_STUCK true isl).resetIsland isl true
  else s)

/-- Count and log a conflict (R472). -/
def State.logConflict (s : State) (o : Nat × Nat) (c : Nat) (byFlock : Bool) : State :=
  let s := ((s.inc F.XING_CONFLICTS).put F.XING_CONFLICT_INFO_KIND o.1).put F.XING_CONFLICT_INFO_INDEX o.2
  ((s.put F.XING_CONFLICT_INFO_CONTEXT c).flag F.XING_CONFLICT_INFO_BY_FLOCK byFlock).flag F.XING_CONFLICT_INFO_VALID

/-- CLEAR of XING_CTL (R473). -/
def State.xingClear (s : State) : State :=
  let s := (((s.zero F.XING_LOST).zero F.XING_OVERRUNS).zero F.XING_CONFLICTS).zero F.XING_CONFLICT_INFO_KIND
  s.each (List.range 9) fun s i => ((s.zero F.XINGi_OVERRUNS i).zero F.XINGi_LOST i).zero F.XINGi_FORCED i
def execXingClear (s : State) : Host.Outcome State Fault Refusal := .next (if s.pwr.up then s.xingClear else s)

/-! ### PCIe (R467, R585, R404) -/

/-- PCIE_RESET: fundamental reset or link drop, through the forced reset handshake. -/
def execPcieReset (s : State) : Host.Outcome State Fault Refusal :=
  .next (if s.pwr.up && !(nth s.xing.gated iPCIE false) then (s.resetIsland iPCIE true).flag F.XINGi_STATUS_FORCED true iPCIE else s)

/-- PCIE_LINK_UP (R404): the link trains; entries held at SQ_HEAD can be taken again. -/
def execPcieLinkUp (s : State) : Host.Outcome State Fault Refusal :=
  .next (if s.on iPCIE then (s.onPwr fun p => { p with pcieUp := true }).transports else s)

/-- PCIE_FLR (R585): the two contexts of the function have their transport down. -/
def execPcieFlr (fn : Fin 4) (s : State) : Host.Outcome State Fault Refusal :=
  .next (if s.on iPCIE then (s.onPwr fun p => { p with flr := modAt p.flr fn.val fun _ => true }).transports else s)

def execPcieFlrDone (fn : Fin 4) (s : State) : Host.Outcome State Fault Refusal :=
  .next ((s.onPwr fun p => { p with flr := modAt p.flr fn.val fun _ => false }).transports)

/-! ### Resets of the node (R580 to R586) -/

/-- A node reset (R586). INCARNATION stays until the next boot draws one that differs from it (R137). Every register at its reset value but the sampled straps, RST_CAUSE, PWR_STATUS, the estimates and
THERM_TRIPS, BOOT_COUNT; frame memory, the journal and rings in it, flock records and staged content kept; a flash or OTP unit
in progress completes (R582). -/
def State.afterReset (s : State) (keepMem : Bool) : State :=
  let keep := [F.BOOT_STRAPS_ROLE.base, F.RST_CAUSE_POR.base, F.PWR_STATUS_PWR_EN.base, F.THERM_TRIPS_TOTAL.base, F.BOOT_COUNT.base]
    ++ (List.range 7).map (fun r => F.PWR_RAILr_MV.addr r 0) ++ (List.range 7).map (fun r => F.THERM_REGr_EST.addr r 0)
  let regs := keep.foldl (fun m a => RegFile.set m a (s.reg a)) (resetRegs s.isHead)
  let r := State.reset
  let ctxs := s.host.ctxs.map fun c => { sq := c.sq, cq := c.cq, held := c.held, source := c.source, sourcePort := c.sourcePort : Ctx }
  { r with
    regs := regs
    mem := if keepMem then s.mem else []
    mst := { r.mst with bad := if keepMem then s.mst.bad else [], back := if keepMem then s.mst.back else [], lastClip := s.mst.lastClip }
    fresh := s.fresh
    out := s.out
    pwr := { s.pwr with up := false, pcieUp := false, actions := [], flr := [false, false, false, false] }
    xing := { s.xing with inReset := List.replicate 8 true ++ [false], flights := [], heldTo := List.replicate 9 0 }
    time := { r.time with aon := s.time.aon }
    ring := { r.ring with incarnation := s.ring.incarnation }
    host := if keepMem then
        { s.host with
            ctxs := ctxs, journal := s.host.journal.map JRec.again
            peerJournal := s.host.peerJournal, replies := s.host.replies.map (fun r => { r with index := none }), relayed := [] }
      else { r.host with lastEpoch := s.host.epoch }
    therm := { r.therm with
      temp := s.therm.temp, started := s.therm.started, recent := s.therm.recent, marks := s.therm.marks
      samples := s.therm.samples, lastBad := s.therm.lastBad, nowBad := s.therm.nowBad, monBad := s.therm.monBad, hold := s.therm.hold, tripAt := s.therm.tripAt, trips := s.therm.trips }
    boot := { r.boot with
      otp := s.boot.otp, flash := s.boot.flash, unitOn := s.boot.unitOn
      jobs := if s.boot.unitOn then
          (s.boot.jobs.take 1).map fun j => { kind := .otp, units := j.units.take 1 : Job }
        else [] }
    bist := { r.bist with barred := s.bist.barred, failed := s.bist.failed }
    flocks := if keepMem then s.flocks else []
    txs := if keepMem then s.txs else r.txs
    pending := s.pending }

/-- A node reset, with the sign that a secret clear is unconfirmed kept (R567), and with the boundary of the thermal model and the fault of
its sensor, which AON does not lose (R577, R580, R586). -/
def State.nodeReset (s : State) (keepMem : Bool) : State :=
  let t := s.afterReset keepMem
  let t := (t.flag F.THERM_STATUS_SENSOR_FAULT (s.b F.THERM_STATUS_SENSOR_FAULT)).put F.THERM_STATUS_SENSOR_REASON
    (s.f F.THERM_STATUS_SENSOR_REASON)
  let t := t.put F.THERM_BOUNDARY (s.f F.THERM_BOUNDARY)
  let t := if s.b F.BIST_STATUS_CLEAR_UNCONFIRMED then t.flag F.BIST_STATUS_CLEAR_UNCONFIRMED else t
  t.islandRegs

/-- RST_CAUSE: the bit of a reset and LAST (R588). -/
def State.cause (s : State) (f : Fld) (last : Nat) : State := (s.flag f).put F.RST_CAUSE_LAST last

/-- Drivers of every enabled Lamp Bus port of a tile are blanked in hardware: ABORT ends the frame, then BLANK broadcast
(R324, R488, R577). -/
def State.hardBlank (s : State) : State :=
  if s.isTile && s.on iLAMP then
    s.each s.lampPorts fun s p =>
      let s := match (s.lport p).sending with
        | some f => s.abortFrame p f
        | none => s
      ((s.onLPort p fun q => { q with sending := none }).sendLine p blankFrame (blankFrame.length / 4) .eof).emit (.lamp p blankFrame)
  else s

/-- A pin-like reset: the node is reset and the boot ROM is due (R581, R583, R529). -/
def State.coldStart (s : State) (f : Fld) (last : Nat) : State :=
  let s := (s.nodeReset true).cause f last
  s.onBoot fun b => { b with romDue := true }

/-- Brownouts of the last 60 minutes (R578, R587). -/
def State.brownouts (s : State) : Nat :=
  (s.pwr.history.filter fun t => decide (s.time.aon ≤ t + 3600 * 10 ^ 9)).length

/-- Power-down (R577): PWR_EN3 to PWR_EN0 drop, 1 ms apart; frame memory is lost. -/
def State.powerDown (s : State) : State :=
  let s := s.unitCut
  let s := s.onBoot fun b => { b with unitOn := false }
  let s := s.nodeReset false
  let s := s.onPwr fun p => { p with step := 0, up := false }
  let s := s.onXing fun x => { x with clkOk := List.replicate 8 false ++ [nth x.clkOk 8 false], inReset := List.replicate 8 true ++ [false] }
  (((s.put F.PWR_STATUS_PWR_EN 0).flag F.PWR_STATUS_POWER_GOOD false).islandRegs)

/-- A brownout (R577, R578): drivers blanked unless VDD_IO is failing, FAULT_N asserted, restart 1 s after the last PWR_EN. -/
def State.brownout (s : State) (rail : Nat) : State :=
  let s := if rail == 5 then s else s.hardBlank
  let s := s.powerDown
  let s := s.onPwr fun p => { p with
    faultN := true, history := s.time.aon :: p.history, restartAt := some (s.time.aon + 3000000 + 10 ^ 9) }
  let n := s.brownouts
  let s := s.put F.PWR_STATUS_BROWNOUTS (min 2 n)
  if 3 ≤ n then s.onPwr fun p => { p with hold := true, restartAt := none } else s

/-- Good window of a rail in mV (Table 18-1). -/
def railWindow (r : Nat) : Nat × Nat :=
  match r with
  | 0 => (760, 840)
  | 1 => (1710, 1890)
  | 2 => (700, 800)
  | 3 => (1710, 1890)
  | 4 => (855, 945)
  | 5 => (1710, 1890)
  | _ => (1067, 1133)

def railGood (r mv : Nat) : Bool := decide ((railWindow r).1 ≤ mv) && decide (mv ≤ (railWindow r).2)

/-- The rails' voltages are shown (R587, R590). -/
def State.rails (s : State) (mv : List Nat) : State :=
  let s := s.each (List.range 7) fun s r => s.put F.PWR_RAILr_MV (nth mv r 0) r
  s.put F.PWR_STATUS_RAIL_GOOD ((List.range 7).foldl (fun a r => if railGood r (nth mv r 0) then a + 2 ^ r else a) 0)

/-- The rails of a step of Table 18-2 are good. -/
def stepGood (step : Nat) (mv : List Nat) : Bool :=
  match step with
  | 1 => true
  | 2 => railGood 2 (nth mv 2 0)
  | 3 => railGood 3 (nth mv 3 0) && railGood 4 (nth mv 4 0)
  | 4 => railGood 5 (nth mv 5 0)
  | _ => railGood 6 (nth mv 6 0)

/-- Power off with POR_N low: only what the flash and the fuses hold stays. -/
def State.unpowered (s : State) : State :=
  let r := State.reset
  { r with
    fresh := s.fresh, out := s.out, pending := s.pending
    boot := { r.boot with otp := s.boot.otp, flash := s.boot.flash }
    host := { r.host with lastEpoch := s.host.epoch }
    mst := { r.mst with lastClip := s.mst.lastClip }
    ring := { r.ring with incarnation := s.ring.incarnation }
    pwr := { r.pwr with resetN := s.pwr.resetN } }

/-- POR_N_ASSERT (R579, R580): the whole node, AON included. -/
def execPorNAssert (s : State) : Host.Outcome State Fault Refusal := .next s.unitCut.unpowered

/-- POR_N_RISE (R574, R2): the straps are sampled; every register takes the reset value of the sampled role. A factory-test node
(ROLE 3) takes the tile's reset values where the map gives head and tile values only (R3; DESIGN CHOICE, assumption 9). -/
def execPorNRise (straps : Nat) (s : State) : Host.Outcome State Fault Refusal :=
  .next (if s.pwr.porN then s
    else
      let head := bits straps 0 2 == 1 || bits straps 0 2 == 2
      let s := s.loadResets head
      let s := s.setReg F.BOOT_STRAPS_ROLE.base (BitVec.ofNat 32 (straps % 2 ^ 16))
      let s := s.onPwr fun p => { p with porN := true, step := 1, riseAt := s.time.aon, enableAt := s.time.aon }
      (s.onXing fun x => { x with clkOk := List.replicate 8 false ++ [true], inReset := List.replicate 8 true ++ [false] }).islandRegs)

/-- 1 ms has passed since the last PWR_EN, so the rails that it enabled can have been good for 1 ms (R574). -/
def State.settled (s : State) : Bool := decide (s.pwr.enableAt + 10 ^ 6 ≤ s.time.aon)

/-- POWER_STEP (R574): the next PWR_EN is asserted; at step 2 the OTP is read. -/
def execPowerStep (mv : List Nat) (s : State) : Host.Outcome State Fault Refusal :=
  .next (if s.pwr.porN && decide (1 ≤ s.pwr.step) && decide (s.pwr.step ≤ 4) && (s.pwr.step == 1 || s.settled) &&
      stepGood s.pwr.step mv then
    let k := s.pwr.step
    let s := (s.rails mv).onPwr fun p => { p with step := k + 1, enableAt := s.time.aon }
    let s := s.put F.PWR_STATUS_PWR_EN (2 ^ k - 1)
    if k == 1 then (s.otpRegs).put F.LC_STATE_STATE s.boot.otp.lc else s
  else s)

/-- Islands that stay power-gated in tile role (R575). -/
def gatedIslands : List Bool := [false, false, false, false, true, true, false, true, false]

/-- POWER_GOOD (R574, R575): steps 6 and 7. RESET_N low or a thermal trip's hold keeps the node in reset (R488, R581). -/
def execPowerGood (mv : List Nat) (s : State) : Host.Outcome State Fault Refusal :=
  .next (if s.pwr.porN && s.pwr.step == 5 && s.settled && stepGood 5 mv then
    let s := (s.rails mv).flag F.PWR_STATUS_POWER_GOOD
    let s := s.put F.RST_POWER_UP_TIME (min (2 ^ 32 - 1) ((s.time.aon - s.pwr.riseAt) / 1000))
    let s := s.flag F.PWR_STATUS_HEAD_GATED s.isTile
    let s := s.onXing fun x => { x with gated := if s.isTile then gatedIslands else List.replicate 9 false }
    let runs := s.pwr.resetN && !s.therm.hold
    let s := s.onPwr fun p => { p with step := 7, up := runs }
    let s := s.onBoot fun b => { b with romDue := runs }
    (s.each (List.range 8) fun s i => s.releaseIsland i).islandRegs
  else s)

/-- RAIL_ENABLE_TIMEOUT (R574, R576): a power fault counts as a brownout. -/
def execRailEnableTimeout (s : State) : Host.Outcome State Fault Refusal :=
  .next (if s.pwr.porN && decide (2 ≤ s.pwr.step) && decide (s.pwr.step ≤ 5) &&
      decide (s.pwr.enableAt + 20 * 10 ^ 6 < s.time.aon) then
    s.brownout (match s.pwr.step with | 2 => 2 | 3 => 4 | 4 => 5 | _ => 6)
  else s)

/-- BROWNOUT (R576): a switched rail outside its window in two consecutive samples after power-good. -/
def execBrownout (rail : Fin 7) (mv0 : Nat) (mv1 : Nat) (s : State) : Host.Outcome State Fault Refusal :=
  .next (if s.pwr.step == 7 && decide (2 ≤ rail.val) && !(railGood rail mv0) && !(railGood rail mv1) then
    ((s.brownout rail).put F.PWR_RAILr_MV mv1 rail).put F.PWR_STATUS_RAIL_GOOD
      (setBits (s.f F.PWR_STATUS_RAIL_GOOD) rail 1 0)
  else s)

/-- The wait of a brownout restart is over. -/
def State.restartDue (s : State) : Bool := s.pwr.restartAt.any fun t => decide (t ≤ s.time.aon)

/-- BROWNOUT_RESTART (R578): step 2 again, the straps kept; not in the hold of a third brownout or of a thermal trip. -/
def execBrownoutRestart (s : State) : Host.Outcome State Fault Refusal :=
  .next (if s.restartDue && !s.pwr.hold && !s.therm.hold then
    let s := (s.cause F.RST_CAUSE_BROWNOUT 5).onPwr fun p => { p with
      restartAt := none, step := 2, faultN := false, enableAt := s.time.aon, riseAt := s.time.aon }
    (((s.put F.PWR_STATUS_PWR_EN 1).otpRegs).put F.LC_STATE_STATE s.boot.otp.lc)
  else s)

/-- The boot ROM has stopped with a strap error and waits for POR_N (R4, R512). -/
def State.strapStop (s : State) : Bool := s.f F.BOOT_STATUS_STAGE == 4 && s.f F.BOOT_STATUS_ERROR == 1

/-- RESET_N acts now: POR_N is high, the node is neither powered down nor waiting after a brownout nor held by a trip (R581), and its
boot ROM has not stopped with a strap error: R512 has that stop wait for POR_N, and R2 keeps the straps (DEDUCED, assumption 76). -/
def State.resetNHeard (s : State) : Bool :=
  s.pwr.porN && !s.pwr.off && !s.pwr.hold && s.pwr.restartAt.isNone && !s.therm.hold && !s.strapStop

/-- RESET_N_ASSERT (R581): shorter than 100 ns is ignored, 1 µs or more always acts, between them it is free. During power-up it only
keeps the node in reset. -/
def execResetNAssert (widthNs : Nat) (s : State) : Host.Outcome State Fault Refusal :=
  .next (
    let free := decide (100 ≤ widthNs) && decide (widthNs < 1000)
    let acts := decide (1000 ≤ widthNs) || (free && Config.freeBool s.fresh)
    let s := if free then s.tickFresh else s
    if acts && s.resetNHeard then
      let s := if s.pwr.step == 7 then s.nodeReset true else s
      (s.cause F.RST_CAUSE_RESET_N 1).onPwr fun p => { p with resetN := false, faultN := false }
    else s)

/-- RESET_N_RELEASE (R581): a powered node that no trip holds leaves reset, and the boot ROM becomes due. -/
def execResetNRelease (s : State) : Host.Outcome State Fault Refusal :=
  .next (if !s.pwr.resetN then
    let s := s.onPwr fun p => { p with resetN := true }
    if s.pwr.step == 7 && !s.therm.hold then
      let s := (s.onPwr fun p => { p with up := true }).onBoot fun b => { b with romDue := true }
      s.each (List.range 8) fun s i => s.releaseIsland i
    else s
  else s)

/-- The reset controller releases the core and the islands after a reset of its own (R583), unless RESET_N is low (R581). -/
def State.releaseNode (s : State) : State :=
  if s.pwr.resetN then
    let s := s.onPwr fun p => { p with up := true }
    s.each (List.range 8) fun s i => s.releaseIsland i
  else s

/-! ### RST_CTL (R583, R589) -/

/-- A completed RST_CTL pair of context 0: the action falls 100 µs later. -/
def State.rstRequest (s : State) (v : Nat) : State :=
  let v := Nat.land v 0x3F1FF
  let s := s.setReg F.RST_CTL_ISLAND.base (BitVec.ofNat 32 v)
  s.onPwr fun p => { p with actions := p.actions ++ [(v, s.time.aon + 100000)] }

/-- RST_WARM. Another context's pair is discarded with an RWP fault. -/
def execRstWarm (ctx : Fin 8) (s : State) : Host.Outcome State Fault Refusal :=
  .next (if !s.pwr.up then s else if ctx.val == 0 then s.rstRequest (2 ^ 16) else s.ctxFault F.CTXn_FAULT_RWP ctx)
def execRstPowerOff (ctx : Fin 8) (s : State) : Host.Outcome State Fault Refusal :=
  .next (if !s.pwr.up then s else if ctx.val == 0 then s.rstRequest (2 ^ 17) else s.ctxFault F.CTXn_FAULT_RWP ctx)
def execRstIsland (ctx : Fin 8) (mask : Nat) (s : State) : Host.Outcome State Fault Refusal :=
  .next (if !s.pwr.up then s else if ctx.val == 0 then s.rstRequest (mask % 2 ^ 9) else s.ctxFault F.CTXn_FAULT_RWP ctx)
def execRstFold (ctx : Fin 8) (mask : Nat) (s : State) : Host.Outcome State Fault Refusal :=
  .next (if !s.pwr.up then s else if ctx.val == 0 then s.rstRequest (mask % 16 * 2 ^ 12) else s.ctxFault F.CTXn_FAULT_RWP ctx)

/-- An island that RST_CTL names is reset and held for 10 µs, or to the later end of a reset already in progress. -/
def State.rstIsland (s : State) (i : Nat) : State :=
  (s.resetIsland i false).onXing fun x => { x with heldTo := modAt x.heldTo i fun t => max t (s.time.aon + 10000) }

/-- RST_CTL_ACTION (R583): 100 µs after the pair. POWER_OFF overrides WARM, which overrides ISLAND and FOLD. -/
def execRstCtlAction (s : State) : Host.Outcome State Fault Refusal :=
  .next (match s.pwr.actions with
    | [] => s
    | (v, t) :: rest =>
      if s.time.aon < t then s
      else
        let s := s.onPwr fun p => { p with actions := rest }
        let s := s.when rest.isEmpty fun s => s.setReg F.RST_CTL_ISLAND.base 0
        if bitOf v 17 then (s.hardBlank.powerDown).onPwr fun p => { p with off := true }
        else if bitOf v 16 then (s.coldStart F.RST_CAUSE_WARM 2).releaseNode
        else
          let s := s.each (bitList v 8) fun s i => s.rstIsland i
          s.each (bitList (v / 2 ^ 12) 4) fun s n => s.foldReset n)

end Sys2Proof.Machine
end

