-- ==== Sys2Proof/Machine/Therm.lean ====
section
/-! DEFINITION. Thermal model, throttling, trip, write window and calibration (spec/15_thermal_and_calibration.md). -/
set_option Elab.async false
namespace Sys2Proof.Machine

/-- One degree in the model's unit, 2^-38 °C, and one 1/64 °C. -/
def degU : Int := 2 ^ 38
def tickU : Int := 2 ^ 32

/-- Set a bit of THERM_EVENT and the THERMAL cause (R498). -/
def State.thermEvent (s : State) (f : Fld) : State := (s.flag f).irqAll F.CTXn_IRQ_CAUSE_THERMAL

/-- F of a node: the mean of its last values, at most 100 (R482). -/
def State.est (s : State) (r : Nat) : Int := meanI (nth s.therm.recent r [])

/-- The rate of rise of a region over 50 ms, in the model's unit per second (R482); 0 before 50 ms have passed. -/
def State.rise (s : State) (r : Nat) : Int :=
  let m := nth s.therm.marks r []
  if decide (51 ≤ m.length) then 20 * (m.headD 0 - m.getD 50 0) else 0

/-- The boundary temperature in use, in 1/64 °C: the mean of the last 16 samples, 95 °C while the sensor is broken (R479, R480). -/
def State.boundary (s : State) : Int :=
  if s.b F.THERM_STATUS_SENSOR_FAULT then 95 * 64 else meanI s.therm.samples

def State.region (s : State) (r : Nat) : Region := nth s.therm.regions r {}
def State.onRegion (s : State) (r : Nat) (f : Region → Region) : State :=
  s.onTherm fun t => { t with regions := modAt t.regions r f }

def Region.warned (x : Region) : Bool := x.levelWarn || x.rateWarn
def Region.throttling (x : Region) : Bool := x.levelThrottle || x.rateThrottle

/-- THERM_STATUS shows the regions' states (R484, R497). -/
def State.thermRegs (s : State) : State :=
  let rs := s.therm.regions
  let hot := (List.range 6).foldl (fun b r => if s.est b < s.est r then r else b) 0
  let s := (s.flag F.THERM_STATUS_WARN (rs.any Region.warned)).flag F.THERM_STATUS_THROTTLE (rs.any Region.throttling)
  let s := (s.flag F.THERM_STATUS_RATE_WARN (rs.any fun x => x.rateWarn)).flag F.THERM_STATUS_RATE_THROTTLE
    (rs.any fun x => x.rateThrottle)
  (s.put F.THERM_STATUS_HOTTEST hot).put F.THERM_STATUS_THROTTLING
    ((List.range 6).foldl (fun a r => if (nth rs r {}).throttling then a + 2 ^ r else a) 0)

/-! ### Duty (R485 to R487) -/

/-- DIV_DUTY of THERM_THROTTLE_DIV. -/
def State.divDuty (s : State) : Nat :=
  match s.f F.THERM_THROTTLE_DIV_DIV with
  | 0 => 16
  | 1 => 8
  | _ => 4

/-- DUTY of fold `f`. -/
def State.duty (s : State) (f : Nat) : Nat :=
  min (min (s.f F.THERM_THROTTLE_DUTY_CAP) s.divDuty)
    (min (s.region f).c (min (s.region 4).c (s.region 5).c))

/-- FOLDn_PACE reports the duties, which the next pacing windows take (R486). -/
def State.paces (s : State) : State := s.each [0, 1, 2, 3] fun s f => s.put F.FOLDn_PACE_DUTY (s.duty f) f

/-- A register that limits the duty has been written: the controllers keep to DUTY_MIN (R485), and the duties follow. -/
def State.dutyLimits (s : State) : State :=
  (s.onTherm fun t => { t with regions := t.regions.map fun x => { x with c := max x.c (s.f F.THERM_THROTTLE_DUTY_MIN) } }).paces

/-- One tick of a region's controller (R485); the grid ends when the value is back at 16. -/
def State.controllerTick (s : State) (r : Nat) : State :=
  let x := s.region r
  let hard := decide ((s.f F.THERM_LIMITS_THROTTLE : Int) * degU ≤ s.est r) || decide (8 * degU < s.rise r)
  let c := if x.throttling then (if hard then max (x.c - 1) (s.f F.THERM_THROTTLE_DUTY_MIN) else x.c) else min (x.c + 1) 16
  let next := (x.tick.getD s.time.clock) + msU (max 1 (s.f F.THERM_THROTTLE_THR_STEP))
  (s.onRegion r fun y => { y with c := c, tick := if c == 16 && !y.throttling then none else some next }).paces

/-- THROTTLE_TICK (R485). -/
def execThrottleTick (region : Fin 6) (s : State) : Host.Outcome State Fault Refusal :=
  .next (if (s.region region).tick.any fun t => decide (t ≤ s.time.clock) then s.controllerTick region else s)

/-- THROTTLE_DIV_WRITE (R487). -/
def State.writeDiv (s : State) (d : Nat) : State := (s.put F.THERM_THROTTLE_DIV_DIV d).dutyLimits
def execThrottleDivWrite (div : Fin 4) (s : State) : Host.Outcome State Fault Refusal :=
  .next (if s.pwr.up then s.writeDiv div else s)

/-! ### Threshold states (R483, R484) -/

/-- What a change of a region's states from `old` brings: events, and the grid's first tick on entry to throttling. -/
def State.regionChanged (s : State) (r : Nat) (old : Region) : State :=
  let x := s.region r
  let s := if x.warned && !old.warned then s.thermEvent F.THERM_EVENT_WARN_ENTERED else s
  let s := if !x.warned && old.warned then s.thermEvent F.THERM_EVENT_WARN_LEFT else s
  let s := if !x.throttling && old.throttling then s.thermEvent F.THERM_EVENT_THROTTLE_LEFT else s
  let s := if x.throttling && !old.throttling then
      let s := s.thermEvent F.THERM_EVENT_THROTTLE_ENTERED
      if x.c == 16 then (s.onRegion r fun y => { y with tick := none }).controllerTick r else s
    else s
  s.thermRegs

/-- State `k` of Table 15-2: 0 LEVEL_WARN, 1 LEVEL_THROTTLE, 2 RATE_WARN, 3 RATE_THROTTLE. -/
def Region.inState (x : Region) (k : Nat) : Bool :=
  match k with
  | 0 => x.levelWarn
  | 1 => x.levelThrottle
  | 2 => x.rateWarn
  | _ => x.rateThrottle

def Region.setState (x : Region) (k : Nat) (v : Bool) : Region :=
  match k with
  | 0 => { x with levelWarn := v }
  | 1 => { x with levelThrottle := v }
  | 2 => { x with rateWarn := v }
  | _ => { x with rateThrottle := v }

/-- Evaluate one state: it enters when `enter` holds; while it is in and `leave` holds, the dwell runs. -/
def State.evalState (s : State) (r k : Nat) (enter leave : Bool) : State :=
  let old := s.region r
  let s := s.onRegion r fun x =>
    let x := if enter then x.setState k true else x
    let since := if x.inState k && leave then some ((nth x.leaving k none).getD s.time.aon) else none
    { x with leaving := modAt x.leaving k fun _ => since }
  s.regionChanged r old

/-- The level conditions of region `r` at an update. -/
def State.evalLevels (s : State) (r : Nat) : State :=
  let f := s.est r
  let w := (s.f F.THERM_LIMITS_WARN : Int) * degU
  let t := (s.f F.THERM_LIMITS_THROTTLE : Int) * degU
  let s := s.evalState r 0 (decide (w ≤ f)) (decide (f < w - 3 * degU))
  s.evalState r 1 (decide (t ≤ f)) (decide (f < t - 3 * degU))

/-- An exit condition that has held since `t` has held for 100 ms (R483, R490). -/
def State.dwelt (s : State) (t : Option Nat) : Bool := t.any fun x => decide (x + 100 * 10 ^ 6 ≤ s.time.aon)

/-- THRESHOLD_DWELL_EXPIRE (R483): the region leaves the state; state 4 is the doubled refresh of the memory PHY (R450). -/
def execThresholdDwellExpire (region : Fin 6) (state : Fin 5) (s : State) : Host.Outcome State Fault Refusal :=
  .next (if state.val == 4 then
      (if s.dwelt s.therm.cooling && region.val == 5 then
        (s.flag F.MEM_STATUS_HOT_REFRESH false).onTherm fun t => { t with cooling := none }
      else s)
    else if s.dwelt (nth (s.region region).leaving state none) && (s.region region).inState state then
      let old := s.region region
      (s.onRegion region fun x => { x.setState state false with leaving := modAt x.leaving state.val fun _ => none }).regionChanged
        region old
    else s)

/-! ### Calibration (R492 to R495) -/

/-- Trigger region of a unit (Table 15-4). -/
def calRegion (u : Nat) : Nat :=
  match u with
  | 0 => 4
  | 1 => 5
  | 2 => 4
  | _ => 6

/-- The field of CAL_STATUS of a unit. -/
def calField (u : Nat) : Fld :=
  match u with
  | 0 => F.CAL_STATUS_UNIT0
  | 1 => F.CAL_STATUS_UNIT1
  | 2 => F.CAL_STATUS_UNIT2
  | 3 => F.CAL_STATUS_UNIT3
  | _ => F.CAL_STATUS_UNIT4

def State.cal (s : State) (u : Nat) : Cal := nth s.therm.cals u {}
def State.onCal (s : State) (u : Nat) (f : Cal → Cal) : State := s.onTherm fun t => { t with cals := modAt t.cals u f }

/-- A trigger of unit `u`: it starts, or is held until its ramp is complete (R494). -/
def State.calStart (s : State) (u : Nat) : State :=
  if (s.cal u).busy then s.onCal u fun c => { c with held := true }
  else
    let s := s.onCal u fun _ => { busy := true }
    ((s.put (calField u) 1).putS F.CAL_Uu_TEMP (roundDiv (s.est (calRegion u)) (2 ^ 32)) u).inc F.CAL_Uu_RUNS u

/-- CAL_RUN (R493, R504). -/
def State.calRun (s : State) (mask : Nat) : State := s.each (bitList mask 5) fun s u => s.calStart u
def execCalRun (mask : Nat) (s : State) : Host.Outcome State Fault Refusal := .next (if s.pwr.up then s.calRun mask else s)

/-- Trigger by temperature (R493): F of the trigger region has moved by CAL_DELTA since the start of the last run. -/
def State.calTrigger (s : State) : State :=
  if !(s.pwr.up && s.boot.running && s.b F.CAL_CFG_AUTO) then s
  else s.each (List.range 5) fun s u =>
    let d := s.est (calRegion u) - s.sf F.CAL_Uu_TEMP u * tickU
    if (s.f F.CAL_CFG_CAL_DELTA : Int) * degU ≤ |d| then s.calStart u else s

/-- CAL_RAMP_STEP (R494): one step of a unit's ramp; LAMP_SKEW moves one lane (4p + lane) by 10 ps, while its port sends IDLE. -/
def execCalRampStep (unit : Fin 5) (elem : Nat) (up : Bool) (s : State) : Host.Outcome State Fault Refusal :=
  .next (if !(s.pwr.up && (s.cal unit).busy) then s
    else
      let s := s.onCal unit fun c => { c with ramp := c.ramp + 1 }
      if unit.val == 2 && decide (elem < 64) && (s.lport (elem / 4)).sending.isNone then
        let f : Fld := match elem % 4 with
          | 0 => F.LAMP_PORTp_SKEW_LANE0
          | 1 => F.LAMP_PORTp_SKEW_LANE1
          | 2 => F.LAMP_PORTp_SKEW_LANE2
          | _ => F.LAMP_PORTp_SKEW_LANE3
        let v := s.f f (elem / 4)
        s.put f (if up then min 255 (v + 1) else v - 1) (elem / 4)
      else s)

/-- CAL_UNIT_DONE (R495): PASS, or FAIL with the first failing element. -/
def execCalUnitDone (unit : Fin 5) (fail : Option Nat) (s : State) : Host.Outcome State Fault Refusal :=
  .next (if !(s.cal unit).busy then s
    else
      let again := (s.cal unit).held
      let s := s.onCal unit fun _ => {}
      let s := match fail with
        | none =>
          let s := s.put (calField unit) 2
          if unit.val == 3 then s.onTherm fun t => { t with monFail := [] }
          else if unit.val == 4 then s.onTherm fun t => { t with modelFail := false }
          else s
        | some e =>
          let s := (((s.put (calField unit) 3).inc F.CAL_Uu_FAILS unit).put F.CAL_Uu_ELEMENT e unit).thermEvent
            F.THERM_EVENT_CAL_FAIL
          if unit.val == 3 then s.onTherm fun t => { t with monFail := [e] }
          else if unit.val == 4 then s.onTherm fun t => { t with modelFail := true }
          else s
      if again then s.calStart unit else s)

/-! ### The sensor (R479, R480) -/

/-- Monitors that contribute their maximum. -/
def State.badMons (s : State) : List Nat := s.therm.monBad ++ s.therm.monFail

/-- SENSOR_SAMPLE: `kind` 0 a temperature in 1/64 °C, 1 an open, 2 a short. The fault conditions are judged. -/
def execSensorSample (kind : Fin 3) (temp : Int) (s : State) : Host.Outcome State Fault Refusal :=
  .next (if !s.pwr.porN then s
    else
      let out := decide (temp < -20 * 64) || decide (150 * 64 < temp)
      let bad :=
        if s.f F.THERM_CFG_SENSOR_TYPE == 2 then 5 else if kind.val == 1 then 1 else if kind.val == 2 then 2
        else if out then 3 else if s.therm.modelFail then 6 else if !s.badMons.isEmpty then 4 else 0
      let s := s.onTherm fun t => { t with
        nowBad := bad
        lastBad := if bad == 0 then t.lastBad else s.time.aon
        samples := if kind.val == 0 && !out then (temp :: t.samples).take 16 else t.samples }
      let s := if bad != 0 then
          let s := s.put F.THERM_STATUS_SENSOR_REASON bad
          if s.b F.THERM_STATUS_SENSOR_FAULT then s
          else (s.flag F.THERM_STATUS_SENSOR_FAULT).thermEvent F.THERM_EVENT_SENSOR_FAULT_SET
        else s
      s.putS F.THERM_BOUNDARY s.boundary)

/-- SENSOR_FAULT_CLEAR (R480): 1 s has passed without a fault condition. -/
def execSensorFaultClear (s : State) : Host.Outcome State Fault Refusal :=
  .next (if s.b F.THERM_STATUS_SENSOR_FAULT && s.therm.nowBad == 0 && decide (s.therm.lastBad + 10 ^ 9 ≤ s.time.aon) then
    let s := ((s.flag F.THERM_STATUS_SENSOR_FAULT false).put F.THERM_STATUS_SENSOR_REASON 0).thermEvent
      F.THERM_EVENT_SENSOR_FAULT_CLEARED
    s.putS F.THERM_BOUNDARY s.boundary
  else s)

/-! ### Trip (R488, R489) -/

/-- Trips within the 60 minutes before an instant (R489). -/
def State.tripsBefore (s : State) (now : Nat) : Nat :=
  (s.therm.trips.filter fun t => decide (t ≤ now) && decide (now ≤ t + 3600 * 10 ^ 9)).length

/-- A region reaches 115 °C: drivers blanked, THERMTRIP_N, every island except AON and the core in reset. -/
def State.trip (s : State) (r : Nat) : State :=
  let s := s.hardBlank
  let s := if s.pwr.step == 7 then s.nodeReset true else s
  let s := s.onTherm fun t => { t with hold := true, tripAt := s.time.aon, trips := s.time.aon :: t.trips }
  let s := ((s.put F.THERM_TRIPS_IN_HOUR (min 3 (s.tripsBefore s.time.aon))).put F.THERM_TRIPS_TOTAL (min 255 (s.f F.THERM_TRIPS_TOTAL + 1))).put
    F.THERM_TRIPS_REGION r
  s.onPwr fun p => { p with thermtripN := true }

/-- TRIP_RESTART (R489): not after the third trip within 60 minutes. After a brownout in the hold the node restarts at step 2 of
Table 18-2, once the wait of R578 is over too. -/
def execTripRestart (s : State) : Host.Outcome State Fault Refusal :=
  .next (if s.therm.hold && decide (s.tripsBefore s.therm.tripAt < 3) && decide (s.therm.tripAt + 30 * 10 ^ 9 ≤ s.time.aon) &&
      (List.range 6).all (fun r => decide (s.est r < 75 * degU)) && (s.pwr.restartAt.isNone || s.restartDue) then
    let s := s.onTherm fun t => { t with hold := false }
    let s := s.onPwr fun p => { p with thermtripN := false }
    if s.pwr.step == 7 then (s.coldStart F.RST_CAUSE_TRIP 4).releaseNode
    else if s.pwr.hold || s.pwr.off || s.pwr.restartAt.isNone then s
    else
      let s := ((s.flag F.RST_CAUSE_BROWNOUT).cause F.RST_CAUSE_TRIP 4).onPwr fun p => { p with restartAt := none, step := 2, faultN := false, enableAt := s.time.aon }
      ((s.put F.PWR_STATUS_PWR_EN 1).otpRegs).put F.LC_STATE_STATE s.boot.otp.lc
  else s)

/-! ### The model (R481) -/

/-- The power of a node from its monitors, mW (Table 15-1). -/
def nodePower (p : List Nat) (r : Nat) : Nat :=
  match r with
  | 4 => nth p 5 0 + nth p 6 0
  | 5 => nth p 7 0
  | 6 => nth p 4 0
  | k => nth p k 0

/-- Heat from region `r` into the spreader, or from the spreader to the boundary (`r` = 6): in mW of the model's unit. -/
def State.heat (s : State) (r : Nat) : Int :=
  let t := s.therm.temp
  let d := if r == 6 then nth t 6 0 - s.boundary * tickU else nth t r 0 - nth t 6 0
  roundDiv (d * 1000000) (s.f F.THERM_MODEL_REGr_THETA r)

/-- The next temperature of a node; with C or θ written as 0 the spec states no result, and the value is free. -/
def State.nextTemp (s : State) (p : List Nat) (r : Nat) : Int :=
  let c := s.f F.THERM_MODEL_REGr_C r
  let inflow := if r == 6 then ((List.range 6).map fun k => s.heat k).sum else 0
  let unstated := c == 0 || s.f F.THERM_MODEL_REGr_THETA r == 0 || (r == 6 && (List.range 6).any fun k => s.f F.THERM_MODEL_REGr_THETA k == 0)
  if unstated then sgn 48 (Config.free (s.fresh + r))
  else nth s.therm.temp r 0 + roundDiv ((nodePower p r : Int) * degU + inflow - s.heat r) (c * 100000)

/-- The write window (R490): closes as soon as a condition fails, and its reopening conditions are timed. -/
def State.judgeWindow (s : State) : State :=
  let fs := (List.range 6).map fun r => s.est r
  let core := railGood 2 (s.f F.PWR_RAILr_MV 2)
  let within := fun (hi lo : Int) => core && fs.all fun f => decide (f ≤ hi * degU) && decide (lo * degU ≤ f)
  let isOpen := s.b F.THERM_STATUS_WINDOW_OPEN
  if s.therm.winFresh then
    ((s.flag F.THERM_STATUS_WINDOW_OPEN (within 85 5)).onTherm fun t => { t with winFresh := false, opening := none }).startUnit
  else if isOpen then s.flag F.THERM_STATUS_WINDOW_OPEN (within 85 5)
  else s.onTherm fun t => { t with opening := if within 82 8 then some (t.opening.getD s.time.aon) else none }

/-- WRITE_WINDOW_OPEN (R490, R491): the conditions have held for 100 ms, so the window reopens and a deferred unit starts. -/
def execWriteWindowOpen (s : State) : Host.Outcome State Fault Refusal :=
  .next (if s.dwelt s.therm.opening && !(s.b F.THERM_STATUS_WINDOW_OPEN) then
    ((s.flag F.THERM_STATUS_WINDOW_OPEN).onTherm fun t => { t with opening := none }).startUnit
  else s)

/-- HOT_REFRESH (R450): the memory PHY from 85 °C, leaving 3 °C below after the dwell. -/
def State.judgeRefresh (s : State) : State :=
  let f := s.est 5
  let s := if decide (85 * degU ≤ f) then s.flag F.MEM_STATUS_HOT_REFRESH else s
  let low := s.b F.MEM_STATUS_HOT_REFRESH && decide (f < 82 * degU)
  s.onTherm fun t => { t with cooling := if low then some (t.cooling.getD s.time.aon) else none }

/-- EST and PEAK (R482). -/
def State.estRegs (s : State) : State :=
  let s := s.each (List.range 7) fun s r => s.putS F.THERM_REGr_EST (roundDiv (s.est r) (2 ^ 32)) r
  s.each (List.range 6) fun s r =>
    s.putS F.THERM_REGr_PEAK (max (s.sf F.THERM_REGr_PEAK r) (roundDiv (s.est r) (2 ^ 32))) r

/-- The counts of the last 60 minutes in THERM_TRIPS and PWR_STATUS (R507, R587). -/
def State.hourCounts (s : State) : State :=
  (s.put F.THERM_TRIPS_IN_HOUR (min 3 (s.tripsBefore s.time.aon))).put F.PWR_STATUS_BROWNOUTS (min 2 s.brownouts)

/-- The model has its boundary temperature: a sample of the sensor, or 95 °C while it is broken (R479, R480). -/
def State.bounded (s : State) : Bool := !s.therm.samples.isEmpty || s.b F.THERM_STATUS_SENSOR_FAULT

/-- THERMAL_MODEL_UPDATE (R478, R481): powers in mW, rail voltages in mV, monitors that fail their self-check. The first
update after power-on that finds a boundary temperature sets every node to it. -/
def execThermalModelUpdate (power : List Nat) (mv : List Nat) (bad : List Nat) (s : State) : Host.Outcome State Fault Refusal :=
  .next (if !s.pwr.porN then s
    else
      let s := ((s.rails mv).onTherm fun t => { t with monBad := bad }).hourCounts
      let s := s.each (List.range 8) fun s m => s.put F.THERM_MONm_POWER (min (2 ^ 20 - 1) (nth power m 0)) m
      if !(s.therm.started || s.bounded) then s else
      let p := (List.range 8).map fun m => if s.badMons.contains m then s.f F.THERM_MONm_MAX m else nth power m 0
      let s := if s.therm.started then
          (s.onTherm fun t => { t with temp := (List.range 7).map fun r => s.nextTemp p r }).each (List.range 7) fun s _ => s.tickFresh
        else s.onTherm fun t => { t with started := true, temp := List.replicate 7 (s.boundary * tickU) }
      let s := s.onTherm fun t => { t with
        recent := List.zipWith (fun x h => (x :: h).take 100) t.temp t.recent }
      let s := (s.estRegs.thermRegs.judgeWindow).judgeRefresh
      let s := if s.therm.hold then s else s.each (List.range 6) fun s r => s.evalLevels r
      let s := s.calTrigger
      match (List.range 6).find? (fun r => decide (115 * degU ≤ s.est r)) with
      | some r => if s.therm.hold then s else s.trip r
      | none => s)

/-- RATE_EVAL (R482, R483, R507): the rate conditions, which nothing follows in the hold of a trip, and the time spent with a fold below full duty. -/
def execRateEval (s : State) : Host.Outcome State Fault Refusal :=
  .next (if !s.pwr.porN then s
    else
      let s := s.onTherm fun t => { t with
        marks := (List.range 6).map fun r => (s.est r :: nth t.marks r []).take 51 }
      let s := s.each (List.range 6) fun s r =>
        let q := s.rise r
        let s := s.putS F.THERM_REGr_RATE (roundDiv q (2 ^ 32)) r
        if s.therm.hold then s else
        let s := s.onRegion r fun x => { x with rising := if decide (4 * degU < q) then some (x.rising.getD s.time.aon) else none }
        let long := match (s.region r).rising with
          | some t => decide (t + 250 * 10 ^ 6 ≤ s.time.aon)
          | none => false
        let s := s.evalState r 2 long (decide (q < degU))
        s.evalState r 3 (decide (8 * degU < q)) (decide (q < 5 * degU))
      if (List.range 4).any fun f => decide (s.duty f < 16) then s.inc F.THERM_THROTTLED_MS else s)

/-- CLEAR of THERM_CTL (R499). -/
def State.thermClear (s : State) : State :=
  let s := (s.zero F.THERM_WRITE_REFUSED).zero F.THERM_THROTTLED_MS
  s.each (List.range 6) fun s r => s.zero F.THERM_REGr_PEAK r
def execThermClear (s : State) : Host.Outcome State Fault Refusal := .next (if s.pwr.up then s.thermClear else s)

end Sys2Proof.Machine
end

