-- ==== Sys2Proof/Machine/Boot.lean ====
section
/-! DEFINITION. Boot ROM, images, intent, confirmation, download, life cycle, keys, attestation and the calibration load
(spec/16_boot_and_update.md), and the ends of flash and OTP units (R491). -/
set_option Elab.async false
namespace Sys2Proof.Machine

/-! ### The boot intent (R513, R514) -/

/-- Fields of a boot-intent record (Table 16-2). -/
structure Intent where
  seq : Nat
  active : Nat
  /-- 0xFF: none. -/
  trial : Nat
  left : Nat
  confirmed : Bool
  rollback : Nat
  window : Nat
  version : Nat
  deriving DecidableEq, Repr

def Intent.ofBytes (b : Bytes) : Intent where
  seq := le b 4 4
  active := le b 8 1 % 2
  trial := le b 9 1
  left := le b 10 1 % 4
  confirmed := bitOf (le b 11 1) 0
  rollback := le b 12 1
  window := le b 16 2
  version := le b 20 4

/-- The 64 bytes of a record. -/
def Intent.bytes (i : Intent) : Bytes :=
  let h := mkMsg 32 [(0, 4, 0x4942574F), (4, 4, i.seq), (8, 1, i.active), (9, 1, i.trial), (10, 1, i.left),
    (11, 1, b2n i.confirmed), (12, 1, i.rollback), (16, 2, i.window), (20, 4, i.version)]
  h ++ complement h

/-- The record of a copy, when it is valid (R513). -/
def State.intentCopy (s : State) (k : Nat) : Option Intent :=
  let b := s.flashRead (fIntent k) 64
  if le b 0 4 == 0x4942574F && b.drop 32 == complement (b.take 32) then some (Intent.ofBytes b) else none

/-- The newest valid copy and its number. -/
def State.intentNow (s : State) : Option (Nat × Intent) :=
  match s.intentCopy 0, s.intentCopy 1 with
  | some a, some b => if 0 < seqDiff 32 b.seq a.seq then some (1, b) else some (0, a)
  | some a, none => some (0, a)
  | none, some b => some (1, b)
  | none, none => none

/-- The record in force; none valid: slot A, no trial (R511). -/
def State.intent (s : State) : Intent := (s.intentNow.map (·.2)).getD ⟨0, 0, 0xFF, 0, false, 0, 600, 0⟩
/-- The copy that the next write goes to. -/
def State.intentNext (s : State) : Nat := match s.intentNow with | some (k, _) => 1 - k | none => 0

/-- BOOT_INTENT shows the newest record (R537). -/
def State.intentRegs (s : State) : State :=
  let i := s.intent
  let s := (((s.put F.BOOT_INTENT_ACTIVE i.active).flag F.BOOT_INTENT_TRIAL_PENDING (i.trial != 0xFF)).put
    F.BOOT_INTENT_TRIAL_SLOT (if i.trial == 0xFF then 0 else i.trial)).put F.BOOT_INTENT_TRIALS_LEFT i.left
  (((s.flag F.BOOT_INTENT_CONFIRMED i.confirmed).put F.BOOT_INTENT_CONFIRM_ROLLBACK i.rollback).put F.BOOT_INTENT_SEQUENCE
    i.seq).flag F.BOOT_STATUS_BURN_PENDING (i.confirmed && decide (s.boot.otp.counter < i.rollback))

/-- Units of a write of the intent: erase, then program with the next SEQUENCE (R514). -/
def State.intentUnits (s : State) (i : Intent) : List FlashUnit :=
  [.erase (fIntent s.intentNext), .program (fIntent s.intentNext) { i with seq := (s.intent.seq + 1) % 2 ^ 32 }.bytes]

/-- The ROM writes the record whole. -/
def State.romWrite (s : State) (i : Intent) : State :=
  ((s.intentUnits i).foldl (fun s u => s.unitEffect u) s).intentRegs

/-! ### Images (R516, R517) -/

def slotHeader (s : State) (a : Nat) : Bytes := s.flashRead (fSlot a) 272

/-- First failure of the header checks of a slot, coded as BOOT_SLOTa_INFO.CHECK (R517, R538). -/
def State.headerCheck (s : State) (a : Nat) : Nat :=
  let h := slotHeader s a
  let len := le h 12 4
  let k := le h 5 1
  let bit := if s.isTile then 0 else if s.isHead then 1 else 2
  if le h 0 4 == 0xFFFFFFFF then 2
  else if !(le h 0 4 == 0x4D49574F && le h 4 1 == 1 && len % 4096 == 0 && decide (len ≤ 32 * 2 ^ 20 - 4096)) then 3
  else if !(decide (k < 4) && nth s.boot.otp.hashes k none == some (Config.sha384 ((h.drop 80).take 96)) &&
      !(bitOf s.boot.otp.revoked k)) then 4
  else if !(Config.ecdsaOk ((h.drop 80).take 96) (Config.sha384 (h.take 176)) ((h.drop 176).take 96)) then 5
  else if le h 6 1 < s.boot.otp.counter then 6
  else if !(bitOf (le h 7 1) bit) then 7
  else 1

/-- The body matches BODY_DIGEST. -/
def State.bodyOk (s : State) (a : Nat) : Bool :=
  let h := slotHeader s a
  Config.sha384 (s.flashRead (fSlot a + 4096) (le h 12 4)) == (h.drop 32).take 48

/-- Fill BOOT_SLOTa_ registers. -/
def State.slotInfo (s : State) (a code : Nat) (body : Bool) : State :=
  let h := slotHeader s a
  let s := (((s.put F.BOOT_SLOTa_INFO_CHECK code a).flag F.BOOT_SLOTa_INFO_BODY_CHECKED body a).put
    F.BOOT_SLOTa_INFO_KEY_INDEX (le h 5 1) a).put F.BOOT_SLOTa_INFO_ROLLBACK (le h 6 1) a
  ((s.put F.BOOT_SLOTa_INFO_ROLES (le h 7 1) a).put F.BOOT_SLOTa_VERSION (le h 8 4) a).put F.BOOT_SLOTa_LENGTH (le h 12 4) a

/-- Check a slot for booting: header, then body. -/
def State.trySlot (s : State) (a : Nat) : State × Bool :=
  let c := s.headerCheck a
  if c != 1 then (s.slotInfo a c false, false)
  else if s.bodyOk a then (s.slotInfo a 1 true, true) else (s.slotInfo a 8 true, false)

/-- Try slots in order: the first that passes. -/
def State.trySlots (s : State) : List Nat → State × Option Nat
  | [] => (s, none)
  | a :: rest =>
    let r := s.trySlot a
    if r.2 then (r.1, some a) else r.1.trySlots rest

/-! ### Keys (R523, R553) -/

/-- The key store is zeroised (R519, R553). -/
def State.zeroiseKeys (s : State) : State :=
  (((s.flag F.SEC_WALLKEY_VALID false).put F.SEC_WALLKEY_ID 0).flag F.RING_STATUS_KEY_VALID false).onBoot fun b => { b with
    wallKey := none }

/-- Unwrap a wall key record into the key store; false when it fails. -/
def State.unwrap (s : State) (rec_ : Bytes) : State × Bool :=
  match Config.unwrapKey rec_ with
  | some k => ((((s.flag F.SEC_WALLKEY_VALID).put F.SEC_WALLKEY_ID (le rec_ 144 4)).flag F.RING_STATUS_KEY_VALID).onBoot fun b =>
      { b with wallKey := some k }, true)
  | none => (s.flag F.SEC_WALLKEY_UNWRAP_FAIL, false)

/-- The stored wall key record, when its complement holds (R523, Table 16-8). -/
def State.storedKey (s : State) : Option Bytes :=
  let b := s.flashRead fWallKey 320
  if b.drop 160 == complement (b.take 160) then some (b.take 160) else none

/-- Unwrap the stored record, at boot and after a clear (R523, R555). -/
def State.loadKey (s : State) : State :=
  match s.storedKey with
  | some r => (s.unwrap r).1
  | none => s

/-- A new challenge (R519, R520). -/
def State.newChallenge (s : State) : State :=
  s.each (List.range 8) fun s k => (s.put F.LC_CHALLENGEk (Config.random s.fresh) 0 k).tickFresh

/-! ### The boot ROM (R511, R512, R515, R561) -/

/-- A ROM stop. -/
def State.romStop (s : State) (code : Nat) : State :=
  let s := ((s.put F.BOOT_STATUS_STAGE 4).put F.BOOT_STATUS_ERROR code).onBoot fun b => { b with romDue := false, training := false }
  s.onPwr fun p => { p with faultN := true }

/-- A self-test fault (R563). -/
def State.selfTestFault (s : State) : State :=
  let s := s.onBist fun b => { b with lastFault := some s.time.clock }
  let s := ((s.put F.BIST_LAST_FAULT_SEC (s.nowNs / 10 ^ 9)).put F.BIST_LAST_FAULT_NS (s.nowNs % 10 ^ 9)).flag
    F.BIST_STATUS_SELF_TEST_FAULT
  (s.irqAll F.CTXn_IRQ_CAUSE_HEALTH).noteFault.lapse

/-- A failing memory instance (R560, R561): recorded, repaired in the volatile registers when a spare and a record are free,
and out of use otherwise. -/
def State.memFailed (s : State) (inst addr bit : Nat) (spare : Bool) : State :=
  let can := spare && decide (s.boot.otp.repairs.length + s.bist.repairs.length < 64)
  let s := if s.b F.BIST_MB_RESULT_VALID then s
    else ((((s.put F.BIST_MB_RESULT_INSTANCE inst).put F.BIST_MB_RESULT_BIT bit).flag F.BIST_MB_RESULT_REPAIRABLE can).flag
      F.BIST_MB_RESULT_VALID).put F.BIST_MB_ADDR addr
  let s := s.inc F.BIST_MB_FAILS
  if can then (s.onBist fun b => { b with repairs := b.repairs ++ [(inst, addr, bit)] }).flag F.BIST_STATUS_REPAIR_PENDING
  else
    let s := (s.onBist fun b => { b with failed := inst :: b.failed }).flag F.BIST_STATUS_MB_UNREPAIRED
    let s := if inst < 24 then s.foldReset (inst % 4) else s
    s.selfTestFault

/-- A secret clear that does not read back as zero (R554). -/
def State.clearUnconfirmed (s : State) : State := (s.flag F.BIST_STATUS_CLEAR_UNCONFIRMED).selfTestFault

/-- The trial step (R515): the slot to try first, if any. -/
def State.trialStep (s : State) : State × Option Nat :=
  let i := s.intent
  if i.trial == 0xFF then (s, none)
  else if !(s.b F.THERM_STATUS_WINDOW_OPEN) then (s.flag F.BOOT_STATUS_TRIAL_DEFERRED, none)
  else if i.left == 0 then
    (((s.romWrite { i with trial := 0xFF }).flag F.BOOT_STATUS_REVERTED).put F.BOOT_STATUS_REVERT_REASON 0, none)
  else (s.romWrite { i with left := i.left - 1 }, some i.trial)

/-- The rollback counter is burned up to the value of a confirmed record before any slot is judged, while the write window is open
(R511, R532). -/
def State.romBurn (s : State) : State :=
  let i := s.intent
  s.when (s.f F.BOOT_STRAPS_BOOT_SRC == 0 && i.confirmed && decide (s.boot.otp.counter < i.rollback) && s.b F.THERM_STATUS_WINDOW_OPEN) fun s =>
    (s.onBoot fun b => { b with otp := { b.otp with counter := i.rollback } }).otpRegs

/-- The ROM's choice of a slot (R511): its order and whether a trial comes first. -/
def State.chooseSlot (s : State) : State × List Nat × Option Nat :=
  let src := s.f F.BOOT_STRAPS_BOOT_SRC
  if src != 0 then (s.onBoot fun b => { b with forced := true }, [src - 1], none)
  else
    let i := s.intent
    let t := s.intentRegs.trialStep
    (t.1, t.2.toList ++ [i.active, 1 - i.active], t.2)

/-- The trial slot has failed its check (R515). -/
def State.trialFailed (s : State) : State :=
  ((s.romWrite { s.intent with trial := 0xFF }).flag F.BOOT_STATUS_REVERTED).put F.BOOT_STATUS_REVERT_REASON 1

/-- Memory training is the run of calibration unit MEMPHY at boot (R493): it starts. -/
def State.trainStart (s : State) : State :=
  ((s.put (calField 1) 1).putS F.CAL_Uu_TEMP (roundDiv (s.est (calRegion 1)) (2 ^ 32)) 1).inc F.CAL_Uu_RUNS 1

/-- It fails on a channel, which the unit records (R495), and the boot stops (R448). -/
def State.trainFailed (s : State) (c : Nat) : State :=
  let s := (((s.put (calField 1) 3).inc F.CAL_Uu_FAILS 1).put F.CAL_Uu_ELEMENT c 1).thermEvent F.THERM_EVENT_CAL_FAIL
  ((s.flag F.MEM_CHn_STATUS_FAIL true c).put F.BOOT_STATUS_DETAIL c).romStop 6

/-- The ROM has verified slot `a`: whether it was the trial slot `tr` or a fall-back from the first choice, then the load and the
training of memory (R514 to R516). -/
def State.loadSlot (s : State) (a : Nat) (order : List Nat) (tr : Option Nat) : State :=
  let s := match tr with
    | some k => if a == k then s.flag F.BOOT_STATUS_TRIAL else s.trialFailed.flag F.BOOT_STATUS_FALLBACK
    | none => s.flag F.BOOT_STATUS_FALLBACK (order.head? != some a)
  let h := slotHeader s a
  let s := ((s.put F.BOOT_STATUS_SLOT a).put F.BOOT_STATUS_STAGE 2).trainStart
  let s := s.put F.BOOT_DL_STATUS_SLOT (1 - a)
  s.onBoot fun b => { b with
    training := true, digest := (h.drop 32).take 48, version := le h 8 4, rollback := le h 6 1 }

/-- Both slots are judged by their headers. -/
def State.judgeSlots (s : State) : State :=
  (s.put F.BOOT_STATUS_STAGE 1).each [0, 1] fun s a => s.slotInfo a (s.headerCheck a) false

/-- The outcome of the slots' verification: the one that verified is loaded, or the ROM stops. -/
def bootWith (order : List Nat) (tr : Option Nat) (t : State × Option Nat) : State :=
  match t.2 with
  | none => (if tr.isSome then t.1.trialFailed else t.1).romStop 4
  | some a => t.1.loadSlot a order tr

/-- The ROM with a flash that answers: one slot is loaded, or it stops. -/
def State.bootSlots (s : State) : State :=
  let c := s.romBurn.judgeSlots.chooseSlot
  bootWith c.2.1 c.2.2 (c.1.trySlots c.2.1)

/-- BOOT_ROM_START (R511): the flash probe's result, the confirmation of the clear of instance 43, and the instances that the
memory test finds failing (instance, word, bit, a free spare). -/
def execBootRomStart (flashOk : Bool) (clearOk : Bool) (failing : List (Nat × Nat × Nat × Bool)) (s : State) :
    Host.Outcome State Fault Refusal :=
  .next (if !(s.boot.romDue && s.pwr.up && s.on iPERIPH && !s.boot.unitOn && !s.therm.hold) then s
    else
      let s := s.onBoot fun b => { b with romDue := false, startAt := s.time.aon }
      let s := ((s.inc F.BOOT_COUNT).put F.LC_STATE_STATE s.boot.otp.lc).flag F.LC_STATE_DEBUG (s.boot.otp.lc == 1 || s.boot.otp.lc == 4)
      let s := s.otpRegs
      let lc := s.boot.otp.lc
      if lc == 0 || lc == 5 then s.romStop 2
      else if s.f F.BOOT_STRAPS_ROLE == 3 && !(lc == 1 || lc == 4) then s.romStop 1
      else if s.f F.BOOT_STRAPS_BOOT_SRC == 3 then s.romStop 1
      else
        let s := s.zeroiseKeys
        let s := if clearOk then s else s.clearUnconfirmed
        let s := s.each failing fun s f => s.memFailed f.1 f.2.1 f.2.2.1 f.2.2.2
        if flashOk then s.bootSlots else s.romStop 3)

/-! ### The calibration area (R535) -/

/-- End of the last table of the area, and the tables present: group, Wp, Hp, BASE. -/
def calTables (h : Bytes) : List (Nat × Nat × Nat × Nat) :=
  (bitList (le h 5 1) 4).map fun g => (g, le h (8 + 4 * g) 2, le h (10 + 4 * g) 2, le h (24 + 4 * g) 4)

def calEnd (h : Bytes) : Nat :=
  (calTables h).foldl (fun e t => max e (0x61000 + t.2.2.2 * 4096 + t.2.1 * t.2.2.1 * 40)) 0x61000

/-- A valid header, whose complement holds. -/
def calHeaderOk (h : Bytes) : Bool :=
  le h 0 4 == 0x4143574F && le h 4 1 == 1 && (h.drop 128).take 128 == complement (h.take 128)

/-- The load at boot. -/
def State.calLoad (s : State) : State :=
  let h := s.flashRead fCal 256
  if !(calHeaderOk h) then s.put F.BOOT_CAL_LOAD_STATE 3
  else if Config.sha384 (s.flashRead (fCal + 0x1000) (calEnd h - 0x1000)) != (h.drop 40).take 48 then s.put F.BOOT_CAL_LOAD_STATE 2
  else
    let s := s.each (List.range 196608) fun s k => s.setTab 0x800 k (le (s.flashRead (fCal + 0x1000 + 2 * k) 2) 0 2)
    let s := s.each (calTables h) fun s t =>
      let n := t.2.1 * t.2.2.1
      let b := s.flashRead (fCal + 0x61000 + t.2.2.2 * 4096) (n * 40)
      let s := (s.memWrite (corrBase + t.2.2.2 * 4096) b).lampWritten (corrBase + t.2.2.2 * 4096) (n * 40)
      let bad := ((List.range n).filter fun k => !(entrySound ((b.drop (40 * k)).take 40))).length
      (((s.put F.CORR_GRPg_BASE t.2.2.2 t.1).put F.COMP_GRPg_SIZE_WP t.2.1 t.1).put F.COMP_GRPg_SIZE_HP t.2.2.1 t.1).put
        F.BOOT_CAL_LOAD_BAD_ENTRIES (s.f F.BOOT_CAL_LOAD_BAD_ENTRIES + bad)
    (s.flag F.CORR_CTL_TABLE_EN).put F.BOOT_CAL_LOAD_STATE 1

/-- What a tile loads at boot: its calibration, then every diagnostic map starts UNKNOWN (R275, R333). -/
def State.tileLoad (s : State) : State := s.calLoad.each (List.range 4) State.diagReset

/-! ### Hand-off (R412, R428, R437, R448, R493, R523, R531, R550) -/

/-- The geometry of the image's memory descriptor (R428, R516): ranks and density code. -/
def State.memDescriptor (s : State) : Nat × Nat :=
  let h := slotHeader s (s.f F.BOOT_STATUS_SLOT)
  if s.isTile then (le h 18 1, le h 19 1) else (le h 16 1, le h 17 1)

/-- MEM_CFG and the regions in force. A new base or size of the clip store invalidates its directory (R437). -/
def State.memTrained (s : State) : State :=
  let d := s.memDescriptor
  let perRank := (if s.isTile then 8 else 32) * (d.2 + 1)
  let s := (((s.put F.MEM_CFG_CHANNELS (if s.isTile then 2 else 8)).put F.MEM_CFG_RANKS (d.1 - 1)).put F.MEM_CFG_DENSITY d.2).put
    F.MEM_CFG_CAPACITY (perRank * d.1)
  let s := (s.flag F.MEM_STATUS_TRAINED).scrubAnew
  let s := s.each (List.range 8) fun s c =>
    (s.flag F.MEM_CHn_STATUS_TRAINED (!s.isTile || decide (c < 2)) c).flag F.MEM_CHn_STATUS_GATED (s.isTile && decide (2 ≤ c)) c
  if s.isTile then s
  else
    let top := perRank * d.1 - 2
    let s := s.put F.MEM_REGION_LAYER_GIB_NOW (clampN 2 (min 128 top) (s.f F.MEM_REGION_LAYER_GIB))
    let now := (s.clipBase, s.clipSize)
    let s := if s.mst.lastClip == some now then s
      else s.clearSpan s.clipBase (64 * 4096)
    s.onMst fun m => { m with lastClip := some now }

/-- The journal's header and records are read at boot: the errors of memory in them are met, and the own journal passes its checks when it
holds none (R411, R412, Table 13-2); a bad record of the other head is discarded. -/
def State.readJournal (s : State) : State × Bool :=
  let bad := s.memBad 0 512 || s.host.journal.any s.recBad
  let s := s.when (s.memBad 0 512) fun s => (s.memTouch 0 512 5).memHeal 0 512
  let s := s.each (s.host.journal.filter s.recBad) State.recErr
  (s.each s.host.peerJournal State.usePeerRec, !bad)

/-- The journal at boot (R407, R410, R412): kept when it passes its checks, or a new epoch; entries not yet written are written, those that
were held back first (R402). -/
def State.journalBoot (s : State) (ok : Bool) : State :=
  if !(ok && s.host.epoch != 0) then (s.each (List.range 8) fun s c => s.onCtx c fun x => { x with held := [] }).newEpoch
  else
    let s := s.each (List.range 8) fun s c =>
      (((s.put F.CTXn_EPOCH s.host.epoch c).setNext c (nth s.host.next c 1)).countInflight c).flushCq c
    (s.each s.host.journal State.writePending).journalRegs

/-- The default fold programs are loaded and activated, and ENABLE set (R351). -/
def State.defaultPrograms (s : State) : State :=
  s.each [0, 1, 2, 3] fun s n =>
    let p : KV := (Config.imageProgram s.boot.digest n).foldl (fun m w => m.set (w.1 % 8192) (w.2 % 2 ^ 64)) []
    let s := s.onFold n fun f => { f with prog := p, load := p, progBad := [], loadBad := [] }
    ((s.put F.FOLDn_ENTRY (Config.imageEntry s.boot.digest n) n).foldEnable n true s.time.clock)

/-- BIST seeds and signatures of the image (R550). -/
def State.bistSeeds (s : State) : State :=
  let part := fun (p : Nat) =>
    match Config.imageBist s.boot.digest p with
    | some (x, y) => ({ seed := x, expect := y, valid := true } : BPart)
    | none => {}
  s.onBist fun b => { b with parts := (List.range 28).map part }

/-- The image runs. A forced boot burns no OTP (R510): it makes no private keys, and its repairs stay in the volatile registers. -/
def State.handOffBoot (s : State) (journalOk : Bool) : State :=
  let s := ((s.memTrained.put F.BOOT_STATUS_STAGE 3).onBoot fun b => { b with training := false, running := true }).healthFrom
  let s := s.put F.BOOT_TIME_LOAD (min 65535 ((s.time.aon - s.boot.startAt) / 10 ^ 6))
  let s := if s.b F.BOOT_STATUS_TRIAL then
      (s.put F.BOOT_CONFIRM_STATUS_STATE 1).onBoot fun b => { b with
        windowEnd := some (s.time.aon + s.intent.window * 10 ^ 9) }
    else s
  let s := s.put F.BOOT_CONFIRM_STATUS_LEFT (if s.b F.BOOT_STATUS_TRIAL then s.intent.window else 0)
  let s := s.newChallenge
  let s := if s.boot.otp.lc == 1 && !s.boot.forced then s.onBoot fun b => { b with otp := { b.otp with privateKeys := true } } else s
  let s := ((s.loadKey.defaultPrograms).bistSeeds).keptRegs
  let s := s.each (List.range 8) fun s c => s.put F.CTXn_STATUS_PHASE 1 c
  let j := (s.lockReset.transports).readJournal
  let s := j.1.journalBoot (journalOk && j.2)
  let s := if s.f F.RST_CAUSE_LAST == 4 then s.thermEvent F.THERM_EVENT_TRIP_RESTART else s
  let s := s.each [0, 2, 3, 4] fun s u => s.calStart u
  let s := s.put (calField 1) 2
  let s := if s.bist.repairs.isEmpty || s.boot.forced then s
    else s.addJob { kind := .repair, units := s.bist.repairs.map FlashUnit.repair }
  let s := if s.b F.BOOT_STATUS_BURN_PENDING then
      s.addJob { kind := .burn, units := List.replicate (s.intent.rollback - s.boot.otp.counter) .counter } else s
  if s.isTile then (s.tileLoad.enablePort 0).enablePort 1
  else if s.isHead then
    (s.onRing fun r => { r with incarnation :=
      let x := Config.random s.fresh % 2 ^ 32
      if x == r.incarnation then (x + 1) % 2 ^ 32 else x }).tickFresh
  else s

/-- MEMORY_TRAINING_DONE (R428, R448): a channel that fails, or a geometry that the devices do not confirm, stops the boot. -/
def execMemoryTrainingDone (failed : Option (Fin 8)) (mismatch : Bool) (journalOk : Bool) (s : State) :
    Host.Outcome State Fault Refusal :=
  .next (if !(s.boot.training && s.on iMEM) then s
    else
      let d := s.memDescriptor
      if mismatch || !(d.1 == 1 || d.1 == 2) || decide (3 < d.2) then s.romStop 5
      else match failed with
        | some c => s.trainFailed c
        | none => s.handOffBoot journalOk)

/-! ### Download (R526, R527) -/

/-- Base of the slot that is not running, or of the calibration area. -/
def State.dlBase (s : State) (cal : Bool) : Nat := if cal then fCal else fSlot (1 - s.f F.BOOT_STATUS_SLOT)

/-- A GO of BOOT_ACTIVATE is staged in some flock (R527, R528). -/
def State.goStaged (s : State) : Bool :=
  s.flocks.any fun f => f.id != 0 && f.holds && f.content.any fun w =>
    w.table.isNone && w.at_ == F.BOOT_ACTIVATE_GO.base && bitOf (le w.value 0 4) 0

/-- A trial is pending (R527). -/
def State.trialPending (s : State) : Bool := s.b F.BOOT_INTENT_TRIAL_PENDING

/-- A download may begin: the boot not forced (R510) and, for an image, no trial pending and no activation staged (R527 names BEGIN; that
it leaves CAL_BEGIN free is DEDUCED, assumption 95). -/
def State.dlAllowed (s : State) (cal : Bool) : Bool :=
  s.boot.running && !s.boot.forced && (cal || (!s.trialPending && !s.goStaged))

/-- BEGIN and CAL_BEGIN: sector 0 is erased, then the download is OPEN. -/
def State.dlBegin (s : State) (cal : Bool) (c : Nat) (t : Option (Nat × Nat)) : State :=
  if s.dlAllowed cal then
    (s.put (if cal then F.BOOT_DL_STATUS_CAL_STATE else F.BOOT_DL_STATUS_STATE) 0).addJob
      { kind := .dlBegin cal, units := [.erase (s.dlBase cal)], ctx := c, ticket := t }
  else s.finishOpt t 8

/-- CANCEL and CAL_CANCEL: sector 0 is erased again. -/
def State.dlCancel (s : State) (cal : Bool) (c : Nat) (t : Option (Nat × Nat)) : State :=
  if s.boot.running && !s.boot.forced then
    s.addJob { kind := .dlCancel cal, units := [.erase (s.dlBase cal)], ctx := c, ticket := t }
  else s.finishOpt t 8

def execBeginDl (ctx : Fin 8) (s : State) : Host.Outcome State Fault Refusal := .next (s.dlBegin false ctx none)
def execCancelDl (ctx : Fin 8) (s : State) : Host.Outcome State Fault Refusal := .next (s.dlCancel false ctx none)
def execCalBegin (ctx : Fin 8) (s : State) : Host.Outcome State Fault Refusal := .next (s.dlBegin true ctx none)
def execCalCancel (ctx : Fin 8) (s : State) : Host.Outcome State Fault Refusal := .next (s.dlCancel true ctx none)

/-- Why a write of download sectors is refused: 8 STATE, 3 RANGE, 0 when it is taken (R526, R527). -/
def State.dlRefusal (s : State) (cal : Bool) (c first : Nat) (b : Bytes) : Nat :=
  let st := s.f (if cal then F.BOOT_DL_STATUS_CAL_STATE else F.BOOT_DL_STATUS_STATE)
  let owner := s.f (if cal then F.BOOT_DL_STATUS_CAL_CONTEXT else F.BOOT_DL_STATUS_CONTEXT)
  if st != 1 || owner != c || s.goStaged || s.boot.forced then 8
  else if first == 0 && !cal &&
      !(le b 0 4 == 0x4D49574F && le b 4 1 == 1 && le b 12 4 % 4096 == 0 && decide (le b 12 4 ≤ 32 * 2 ^ 20 - 4096)) then 3
  else if first == 0 && cal && !(le b 0 4 == 0x4143574F && le b 4 1 == 1) then 3
  else 0

/-- Write sectors of a download; index 0 is the header and the last write. -/
def State.dlWrite (s : State) (cal : Bool) (c first : Nat) (b : Bytes) (t : Option (Nat × Nat)) : State :=
  let n := b.length / 4096
  let units := (List.range n).flatMap fun k =>
    sectorUnits (s.dlBase cal + (first + k) * 4096) ((b.drop (4096 * k)).take 4096)
  s.addJob { kind := .dlWrite cal (first == 0) n, units := units, ctx := c, ticket := t }

/-! ### Keys and identity written as tables (R520, R521, R523) -/

/-- A wall key record is unwrapped and stored with its complement, or UNWRAP_FAIL is set. -/
def State.writeWallKey (s : State) (rec_ : Bytes) (t : Option (Nat × Nat)) : State :=
  let u := s.unwrap rec_
  if u.2 then
    (u.1.flag F.SEC_WALLKEY_PENDING).addJob
      { kind := .wallKey rec_, units := sectorUnits fWallKey (rec_ ++ complement rec_), ticket := t }
  else u.1.finishOpt t 0

/-- An RMA token is verified against LC_CHALLENGE and the serial (R520). -/
def State.writeToken (s : State) (b : Bytes) : State :=
  let ch := (List.range 8).flatMap fun k => toLE 4 (s.f F.LC_CHALLENGEk 0 k)
  let key := b.take 96
  let ok := s.boot.otp.rmaHash == some (Config.sha384 key) &&
    Config.ecdsaOk key (Config.sha384 (ch ++ toLE 8 s.serial ++ [4])) ((b.drop 96).take 96)
  s.flag F.LC_STATE_TOKEN_OK (ok || s.b F.LC_STATE_TOKEN_OK)

/-- Signing-key hash and ID record: each written once, in MANUFACTURE or PROVISIONED (R521); false: rejected with STATE. -/
def State.otpWriteOk (s : State) (id idx : Nat) : Bool :=
  let lc := s.boot.otp.lc
  (lc == 1 || lc == 2) && if id == 0xE40 then (nth s.boot.otp.hashes idx none).isNone else s.boot.otp.ids.isNone

/-! ### Life cycle and revocation (R519, R522) -/

/-- A completed LC_TRANSITION pair: the outcome is in LC_STATE.LAST_RESULT, and every attempt makes a new challenge. -/
def State.lcTransition (s : State) (target : Nat) : State :=
  let lc := s.boot.otp.lc
  let allowed := decide (1 ≤ lc) && decide (lc < 5) && (target == lc + 1 || target == 5)
  let live := s.f F.SEC_KEYS_PROGRAMMED
  let usable := (List.range 4).any fun k => bitOf live k && !(bitOf s.boot.otp.revoked k)
  let result :=
    if !allowed then 2
    else if target == 2 && !(s.boot.otp.serial.isSome && s.boot.otp.privateKeys) then 5
    else if target == 3 && !usable then 5
    else if target == 4 && !(s.b F.LC_STATE_TOKEN_OK) then 3
    else 0
  let s := s.newChallenge
  let s := if target == 4 && result == 0 then s.flag F.LC_STATE_TOKEN_OK false else s
  if result != 0 then s.put F.LC_STATE_LAST_RESULT result
  else s.addJob { kind := .lc target, units := [.lifeCycle target] }

/-- LC_TRANSITION. Only context 0 may complete the pair (R547). -/
def execLcTransition (ctx : Fin 8) (target : Nat) (s : State) : Host.Outcome State Fault Refusal :=
  .next (if !s.pwr.up then s
    else if ctx.val != 0 then s.ctxFault F.CTXn_FAULT_RWP ctx
    else (s.put F.LC_TRANSITION target).lcTransition (target % 8))

/-- A completed SEC_REVOKE pair (R522). The slots may be revoked in PROVISIONED or FIELD (Table 16-5). -/
def State.secRevoke (s : State) (m : Nat) : State :=
  let o := s.boot.otp
  let left := (List.range 4).any fun k => (nth o.hashes k none).isSome && !(bitOf (Nat.lor o.revoked m) k)
  if left && (o.lc == 2 || o.lc == 3) then s.addJob { kind := .revoke, units := [.revoke (m % 16)] }
  else s.flag F.SEC_KEYS_REVOKE_REFUSED

def execSecRevoke (ctx : Fin 8) (slots : Nat) (s : State) : Host.Outcome State Fault Refusal :=
  .next (if !s.pwr.up then s
    else if ctx.val != 0 then s.ctxFault F.CTXn_FAULT_RWP ctx
    else (s.put F.SEC_REVOKE slots).secRevoke slots)

/-! ### Activation and confirmation (R528 to R533) -/

/-- The node is selected by the SCOPE of a staged activation (R528). -/
def State.scopeSelects (s : State) (v : Nat) : Bool :=
  if s.isTile then true
  else match bits v 1 2 with
    | 0 => true
    | 1 => s.f F.RING_STATUS_STATE == hsBellwether
    | 2 => s.f F.RING_STATUS_STATE == hsStandby
    | _ => false

/-- The staged BOOT_ACTIVATE with GO of a flock, if any. -/
def Flock.go (f : Flock) : Option Nat :=
  (f.content.find? fun w => w.table.isNone && w.at_ == F.BOOT_ACTIVATE_GO.base && bitOf (le w.value 0 4) 0).map fun w => le w.value 0 4

/-- ACTIVATE_PREPARE (R529): the sector of the intent copy that the next write goes to is erased. -/
def execActivatePrepare (flock : Nat) (s : State) : Host.Outcome State Fault Refusal :=
  .next (match (s.flock flock).bind Flock.go with
    | some v => if s.boot.running && s.scopeSelects v && !s.boot.forced then
        ((s.flag F.BOOT_DL_STATUS_PREPARED false).onBoot fun b => { b with intentBad := false }).addJob
          { kind := .prepare, units := [.erase (fIntent s.intentNext)] } else s
    | none => s)

/-- The intent of an activation, which a node that holds COMMIT programs into the prepared copy (R529). -/
def State.activationUnits (s : State) : List FlashUnit :=
  let a := 1 - s.f F.BOOT_STATUS_SLOT
  let i := { s.intent with
    seq := (s.intent.seq + 1) % 2 ^ 32, trial := a, left := 3, window := s.f F.BOOT_CONFIRM_WINDOW, version := s.f F.BOOT_SLOTa_VERSION a }
  [.program (fIntent s.intentNext) i.bytes]

/-- ACTIVATION_RESET (R529, R580): at T the node resets as on RESET_N. -/
def execActivationReset (s : State) : Host.Outcome State Fault Refusal :=
  .next (if s.boot.activateAt.any fun n => decide (s.swapAt n ≤ s.time.clock) then (s.coldStart F.RST_CAUSE_ACTIVATE 3).releaseNode else s)

/-- The AON instant of a confirmation's τ: now, but for a ticket accepted `ago` units of the node clock before (R531). -/
def State.aonAgo (s : State) (ago : Nat) : Nat := s.time.aon - ago / nsU

/-- A completed BOOT_CONFIRM pair (R531, R532) whose τ lies `ago` before now: STATE without a running trial or on a forced boot or
with τ after the end of the window, RANGE for the wrong version, else the intent is written and the ticket completes with that
write; a confirmation that counts takes back a reset that the end of the window has asked for. -/
def State.bootConfirm (s : State) (version : Nat) (t : Option (Nat × Nat)) (ago : Nat) : State :=
  if !(s.boot.running && s.b F.BOOT_STATUS_TRIAL && s.boot.windowEnd.any fun e => decide (s.aonAgo ago ≤ e)) || s.boot.forced then
    s.finishOpt t 8
  else if version != s.boot.version then s.finishOpt t 3
  else
    let i := { s.intent with
      active := s.f F.BOOT_STATUS_SLOT, trial := 0xFF, left := 0, confirmed := true, rollback := s.boot.rollback }
    (((s.put F.BOOT_CONFIRM_STATUS_STATE 2).flag F.BOOT_DL_STATUS_PREPARED false).onBoot fun b => { b with expired := false }).addJob { kind := .confirm, units := s.intentUnits i, ticket := t }

/-- BOOT_CONFIRM: any context with the BOOT/LC/SEC write right completes the pair (Table 21-4). -/
def execBootConfirm (ctx : Fin 8) (version : Nat) (s : State) : Host.Outcome State Fault Refusal :=
  .next (if s.pwr.up && s.mayWrite ctx 19 then (s.put F.BOOT_CONFIRM version).bootConfirm version none 0 else s)

/-- A confirmation waits for or is in its write. -/
def State.confirming (s : State) : Bool := s.boot.jobs.any fun j => j.kind == .confirm

/-- CONFIRM_WINDOW_EXPIRE (R533): the node resets at the next swap instant; not while a confirmation waits (R532). -/
def execConfirmWindowExpire (s : State) : Host.Outcome State Fault Refusal :=
  .next (if (s.boot.windowEnd.any fun e => decide (e < s.time.aon)) && !s.confirming then
    (s.put F.BOOT_CONFIRM_STATUS_LEFT 0).onBoot fun b => { b with expired := true }
  else s)

/-! ### Attestation (R525) -/

/-- ATTEST_GO. KIND 3 is reserved and starts nothing. -/
def State.attestGo (s : State) (kind : Nat) : State :=
  if kind == 3 || !s.boot.running then s
  else ((s.flag F.SEC_ATTEST_CTL_BUSY).flag F.SEC_ATTEST_CTL_DONE false).onBoot fun b => { b with attest := some kind }
def execAttestGo (kind : Fin 4) (s : State) : Host.Outcome State Fault Refusal := .next (s.attestGo kind)

/-- The statement of KIND 0. -/
def State.statement (s : State) : Bytes :=
  let nonce := (List.range 8).flatMap fun k => toLE 4 (s.f F.SEC_ATTEST_BUFk 0 k)
  nonce ++ mkMsg 16 [(0, 8, s.serial), (8, 1, s.f F.LC_STATE_STATE), (9, 1, s.boot.otp.counter), (10, 1, s.f F.BOOT_STATUS_SLOT),
    (11, 1, s.f F.BOOT_STATUS_TRIAL), (12, 4, s.boot.version)] ++ (s.boot.digest ++ zeros 48).take 48 ++
    mkMsg 32 [(0, 4, s.f F.SEC_WALLKEY_ID)]

/-- ATTEST_DONE: the buffer is filled and DONE set. -/
def execAttestDone (s : State) : Host.Outcome State Fault Refusal :=
  .next (match s.boot.attest with
    | none => s
    | some k =>
      let b := if k == 0 then s.statement ++ Config.ecdsaSign (Config.sha384 s.statement) else Config.publicKey k
      let n := if k == 0 then 56 else 24
      let s := s.each (List.range n) fun s j => s.put F.SEC_ATTEST_BUFk (le b (4 * j) 4) 0 j
      ((s.flag F.SEC_ATTEST_CTL_BUSY false).flag F.SEC_ATTEST_CTL_DONE).onBoot fun b => { b with attest := none })

/-! ### Ends of units (R491) -/

/-- Every unit of a job has ended well. -/
def State.jobDone (s : State) (j : Job) : State :=
  match j.kind with
  | .prepare => s.flag F.BOOT_DL_STATUS_PREPARED
  | .intent id =>
    let s := s.intentRegs.flag F.BOOT_DL_STATUS_PREPARED false
    s.onBoot fun b => { b with activateAt := (s.flock id).map fun f => f.applyAt.getD f.t }
  | .confirm =>
    let s := ((s.intentRegs.put F.BOOT_CONFIRM_STATUS_STATE 3).flag F.BOOT_STATUS_TRIAL false).put F.BOOT_CONFIRM_STATUS_LEFT 0
    let s := (s.onBoot fun b => { b with windowEnd := none }).finishOpt j.ticket 0
    if s.boot.otp.counter < s.boot.rollback then
      s.onBoot fun b => { b with jobs := b.jobs ++ [{ kind := .burn, units := List.replicate (s.boot.rollback - s.boot.otp.counter) .counter }] }
    else s
  | .burn => s.intentRegs
  | .dlBegin cal =>
    let s := if cal then (s.put F.BOOT_DL_STATUS_CAL_STATE 1).put F.BOOT_DL_STATUS_CAL_CONTEXT j.ctx
      else ((s.put F.BOOT_DL_STATUS_STATE 1).put F.BOOT_DL_STATUS_CONTEXT j.ctx).put F.BOOT_DL_STATUS_SECTORS 0
    s.finishOpt j.ticket 0
  | .dlCancel cal => (s.put (if cal then F.BOOT_DL_STATUS_CAL_STATE else F.BOOT_DL_STATUS_STATE) 0).finishOpt j.ticket 0
  | .dlWrite cal header n =>
    let s := if cal then s else s.put F.BOOT_DL_STATUS_SECTORS (min 16383 (s.f F.BOOT_DL_STATUS_SECTORS + n))
    let s := if header then s.put (if cal then F.BOOT_DL_STATUS_CAL_STATE else F.BOOT_DL_STATUS_STATE) 2 else s
    let s := if header && !cal then s.slotInfo (1 - s.f F.BOOT_STATUS_SLOT) 0 false else s
    s.finishOpt j.ticket 0
  | .wallKey _ => (s.flag F.SEC_WALLKEY_PENDING false).finishOpt j.ticket 0
  | .lc target =>
    let s := s.put F.LC_STATE_LAST_RESULT 1
    if decide (4 ≤ target) then
      (s.zeroiseKeys).onBoot fun b => { b with
        jobs := b.jobs ++ [{ kind := .otp, units := .erase fWallKey :: (if target == 5 then [.wipeKeys] else []) }] }
    else s
  | .revoke => s.finishOpt j.ticket 0
  | .otp => s.finishOpt j.ticket 0
  | .repair => s.flag F.BIST_STATUS_REPAIR_PENDING (!s.bist.repairs.isEmpty)

/-- A job fails: 4 FAULT (read-back or verify), 9 THERMAL (R491). -/
def State.jobFailed (s : State) (j : Job) (reason : Nat) : State :=
  match j.kind with
  | .intent id =>
    let s := (s.onBoot fun b => { b with intentBad := true }).flockEvent F.FLOCK_EVENT_STAGE_FAULT
    (s.onFlock id fun f => { f with st := 7, applyAt := none, broken := true }).flockRegs
  | .confirm => (s.put F.BOOT_CONFIRM_STATUS_STATE 1).finishOpt j.ticket reason
  | .lc _ => s.put F.LC_STATE_LAST_RESULT (if reason == 9 then 4 else 5)
  | .wallKey _ => (s.flag F.SEC_WALLKEY_PENDING false).finishOpt j.ticket reason
  | _ => s.finishOpt j.ticket reason

/-- FLASH_UNIT_DONE (R491, R514, R526): the unit ends; `ok` is its read-back or verify, and what a unit that fails it leaves in
flash is open. -/
def execFlashUnitDone (ok : Bool) (s : State) : Host.Outcome State Fault Refusal :=
  .next (match s.boot.unitOn, s.boot.jobs with
    | true, j :: rest =>
      match j.units with
      | [] => (s.onBoot fun b => { b with jobs := rest, unitOn := false }).startUnit
      | u :: us =>
        if ok then
          let s := s.unitEffect u
          if us.isEmpty then
            let s := s.onBoot fun b => { b with jobs := rest, unitOn := false }
            (s.jobDone j).startUnit
          else (s.onBoot fun b => { b with jobs := { j with units := us, asked := none } :: rest, unitOn := false }).startUnit
        else
          let s := s.unitCut
          let s := s.onBoot fun b => { b with jobs := rest, unitOn := false }
          (s.jobFailed j 4).startUnit
    | _, _ => s)

/-- WRITE_DEFER_EXPIRE (R491): the window is still closed after WRITE_DEFER: the request that waits fails with THERMAL. -/
def execWriteDeferExpire (s : State) : Host.Outcome State Fault Refusal :=
  .next (match s.boot.deferredAt, s.boot.jobs with
    | some t, j :: rest =>
      if s.boot.unitOn || s.b F.THERM_STATUS_WINDOW_OPEN || decide (s.time.aon ≤ t + s.f F.THERM_CFG_WRITE_DEFER * 10 ^ 10) then s
      else
        let s := s.onBoot fun b => { b with jobs := rest, deferredAt := none }
        let s := (s.inc F.THERM_WRITE_REFUSED).thermEvent F.THERM_EVENT_WRITE_REFUSED
        (s.jobFailed j 9).startUnit
    | _, _ => s)

end Sys2Proof.Machine
end

