-- ==== Sys2Proof/Machine/Bist.lean ====
section
/-! DEFINITION. Self-test and health (spec/17_self_test.md): logic BIST, memory BIST, the secret clear, the online rotation, the
health report; and the functions of the GPIO pins (spec/19_package_and_balls.md). -/
set_option Elab.async false
namespace Sys2Proof.Machine

/-! ### Preconditions (R552) -/

/-- VDD_CORE lies between 0.72 and 0.80 V. -/
def State.voltageOk (s : State) : Bool := decide (720 ≤ s.f F.PWR_RAILr_MV 2) && decide (s.f F.PWR_RAILr_MV 2 ≤ 800)

/-- REFCLK lies within ±100 ppm: by TIME_RATE after the node's first clock step, by the clock monitors of the running islands before. -/
def State.refclkOk (s : State) : Bool :=
  if !s.time.stepped then (List.range 8).all fun i => nth s.xing.gated i false || nth s.xing.inReset i true || nth s.xing.clkOk i false
  else decide (s.rate.natAbs ≤ 858993)

/-- Reason of a refusal of the whole test, 0 when it may start. -/
def State.precond (s : State) : Nat := if !s.voltageOk then 1 else if !s.refclkOk then 2 else 0

/-- Outside MANUFACTURE and RMA. -/
def State.lockedState (s : State) : Bool := !(s.boot.otp.lc == 1 || s.boot.otp.lc == 4)

/-- MANUFACTURE, RMA or ROLE 0b11 (R556, R562). -/
def State.testBench (s : State) : Bool := !s.lockedState || s.f F.BOOT_STRAPS_ROLE == 3

/-! ### The registers of the selected partition (R569, R571) -/

def State.bpart (s : State) (p : Nat) : BPart := nth s.bist.parts p {}
def State.onPart (s : State) (p : Nat) (f : BPart → BPart) : State :=
  s.onBist fun b => { b with parts := modAt b.parts p f }

/-- Whole seconds of AON time since an instant, saturating. -/
def State.ageSec (s : State) (t : Option Nat) : Nat :=
  match t with
  | some x => min 65535 ((s.time.aon - x) / 10 ^ 9)
  | none => 0

/-- The BIST_SEL_ registers show partition BIST_SEL. -/
def State.bistSel (s : State) : State :=
  let x := s.bpart (s.f F.BIST_SEL)
  let s := (s.put64 F.BIST_SEL_SEED_LO F.BIST_SEL_SEED_HI x.seed).put64 F.BIST_SEL_EXPECT_LO F.BIST_SEL_EXPECT_HI x.expect
  let s := (s.put64 F.BIST_SEL_MISR_LO F.BIST_SEL_MISR_HI x.misr).put F.BIST_SEL_INFO_RESULT x.result
  (s.flag F.BIST_SEL_INFO_EXPECT_VALID x.valid).put F.BIST_SEL_INFO_AGE (s.ageSec x.at_)

/-- BUSY and BIST_LB_FAILED. -/
def State.bistRegs (s : State) : State :=
  let failed := (List.range 28).foldl (fun a p => if (s.bpart p).result == 2 then a + 2 ^ p else a) 0
  ((s.flag F.BIST_STATUS_BUSY s.bist.run.isSome).put F.BIST_LB_FAILED failed).bistSel

/-! ### The secret clear (R553 to R555) -/

/-- The partition (LINK) or instance (the key store) that holds key material. -/
def holdsKeys (mem : Bool) (i : Nat) : Bool := if mem then i == 43 else i == 20

/-- The stored wall key is unwrapped again after a clear of the key store, outside RMA and SCRAPPED (R555). -/
def State.keyBack (s : State) : State := if s.boot.otp.lc == 4 || s.boot.otp.lc == 5 then s else s.loadKey

/-- Zeroise the key material of a partition or instance. Links whose keys were cleared enter FAULT with reason HOST. -/
def State.secretClear (s : State) (mem : Bool) : State :=
  if mem then s.zeroiseKeys
  else
    s.each (List.range 7) fun s p =>
      let e := nth s.ring.enc p {}
      let s := s.onRing fun r => { r with enc := modAt r.enc p fun _ => {} }
      if e.keys then s.toFault p 5 else s

/-- The clear before a run: false when the run may not start (R554). -/
def State.clearFor (s : State) (mem : Bool) (i : Nat) (ok : Bool) : State × Bool :=
  if !(holdsKeys mem i) then (s, true)
  else if ok then (s.secretClear mem, true)
  else
    let t := (s.secretClear mem).clearUnconfirmed
    if s.lockedState then (((t.onBist fun b => { b with barred := (mem, i) :: b.barred }).put F.BIST_STATUS_REFUSED 4).when mem State.keyBack, false)
    else (t, true)

/-! ### Quiescence (R556, R562) -/

/-- A logic partition is quiescent. -/
def State.partQuiet (s : State) (p : Nat) : Bool :=
  if p < 20 then s.foldState (p / 5) != 1
  else if p == 23 then s.isHead || (List.range 16).all (fun q => !(s.b F.LAMP_PORTp_CFG_ENABLE q)) || s.testBench
  else s.testBench

/-- A memory instance is quiescent. -/
def State.memQuiet (s : State) (i : Nat) : Bool :=
  if i < 24 then s.foldState (i % 4) != 1
  else if i < 40 then !(s.b F.LAMP_PORTp_CFG_ENABLE (i - 24))
  else s.testBench

/-! ### What a test leaves (R551, R562) -/

/-- Island of partition 20 to 27. -/
def partIsland (p : Nat) : Nat := p - 20

/-- A tested partition ends in its reset state; an online test keeps the fold's place in the wall's work (R558). -/
def State.partReset (s : State) (p : Nat) (online : Bool) : State :=
  if p < 20 then
    let n := p / 5
    if p % 5 == 0 then
      if online then
        s.onFold n fun f => { f with
          k := List.replicate 32 0, q := List.replicate 16 0, z := false, n := false, c := false, v := false, events := 0 }
      else
        let keep := (s.fold n).toRun
        (s.foldReset n).onFold n fun f => { f with toRun := keep }
    else s
  else if online then s
  else
    let i := partIsland p
    let s := (s.islandContent i).resetStatus i
    if nth s.xing.inReset i true then s else s.islandStart i

/-- `n` words of open content from the first free value `k` on. -/
def freeWords (k n w : Nat) : KV := ((List.range n).map fun i => (i, Config.free (k + i) % 2 ^ w)).filter fun p => p.2 != 0

/-- The contents of an instance after a test: zeros (none), or open values (R552, R562). -/
def State.instLeft (s : State) (i : Nat) (open_ : Bool) : State :=
  let k := s.fresh
  let s := if open_ then s.skipFresh (2 ^ 40) else s
  let fill := fun (n w : Nat) => if open_ then freeWords k n w else []
  if i < 4 then s.onFold i fun f => { f with prog := fill 8192 64, progBad := [] }
  else if i < 8 then s.onFold (i - 4) fun f => { f with load := fill 8192 64, loadBad := [] }
  else if i < 12 then s.onFold (i - 8) fun f => { f with scratch := fill 65536 32, scratchBad := [] }
  else if i < 20 then
    s.onComp fun c => { c with wiped := (i, if open_ then some k else none, []) :: c.wiped.filter fun w => w.1 != i }
  else if i < 24 then s.onFold (i - 20) fun f => { f with queue := [], strips := [none, none, none, none] }
  else if i < 40 then s.onLPort (i - 24) fun p => { p with queue := p.queue.filter fun f => !f.inBuf }
  else if i == 40 then s.each [0, 1, 2, 3] fun s g => s.onLGroup g fun x => { x with refs := [] }
  else if i == 41 then s.onRing fun r => { r with wins := r.wins.map fun w => { w with waiting := [], part := [] } }
  else if i == 42 then s.onIngest fun g => { g with flows := g.flows.map fun f => { f with lines := [], rows := [], held := [] } }
  else s.zeroiseKeys

/-! ### Runs (R556, R562) -/

/-- Start the next partition or instance of a run that may be tested; those that may not are refused one by one. -/
def State.bistNext (s : State) (ok : Bool) : List Nat → Bool → State
  | [], _ => (s.onBist fun b => { b with run := none }).bistRegs
  | i :: rest, mem =>
    let refuse := fun (s : State) (code : Nat) => State.bistNext (s.put F.BIST_STATUS_REFUSED code) ok rest mem
    if !mem && !(s.bpart i).valid then refuse s 5
    else if !(if mem then s.memQuiet i else s.partQuiet i) then refuse s 3
    else if s.bist.barred.contains (mem, i) then refuse s 4
    else
      let c := s.clearFor mem i ok
      if c.2 then (c.1.onBist fun b => { b with run := some { mem := mem, online := false, left := i :: rest } }).bistRegs
      else State.bistNext c.1 ok rest mem

/-- A request: refused as a whole when the preconditions do not hold (R552); one made while a test runs does nothing. -/
def State.bistRequest (s : State) (mem ok : Bool) : State :=
  if !s.pwr.up || s.bist.run.isSome then s
  else if s.precond != 0 then (s.put F.BIST_STATUS_REFUSED s.precond).inc F.BIST_REFUSALS
  else if mem then
    let s := (s.flag F.BIST_MB_RESULT_VALID false)
    s.bistNext ok (bitList (s.f64 F.BIST_MB_MASK_LO F.BIST_MB_MASK_HI) 44) true
  else s.bistNext ok (bitList (s.f F.BIST_LB_MASK) 28) false

/-- LB_GO (R556); `clearOk`: the read-back of a secret clear is zero. -/
def execLbGo (clearOk : Bool) (s : State) : Host.Outcome State Fault Refusal := .next (s.bistRequest false clearOk)

/-- MB_GO (R562). -/
def execMbGo (clearOk : Bool) (s : State) : Host.Outcome State Fault Refusal := .next (s.bistRequest true clearOk)

/-- End the test in progress as ABORTED (R552, R566). -/
def State.testAborted (s : State) (r : BRun) : State :=
  match r.left with
  | i :: _ => if r.mem then (s.instLeft i true).when (i == 43) State.keyBack else (s.partReset i r.online).onPart i fun x => { x with result := 3 }
  | [] => s

/-- BIST_ABORT (R566): the request ends; an online test is no request. -/
def State.bistAbort (s : State) : State :=
  match s.bist.run with
  | some r => if r.online then s else ((s.testAborted r).onBist fun b => { b with run := none }).bistRegs
  | none => s
def execBistAbort (s : State) : Host.Outcome State Fault Refusal := .next (if s.pwr.up then s.bistAbort else s)

/-- The BIST counters (R566). -/
def State.bistClear (s : State) : State :=
  s.each [F.BIST_LB_RUNS, F.BIST_LB_FAILS, F.BIST_LB_MISSED, F.BIST_MB_FAILS, F.BIST_REFUSALS] fun s f => s.put f 0
def execBistClear (s : State) : Host.Outcome State Fault Refusal := .next (if s.pwr.up then s.bistClear else s)

/-- Internal scan over JTAG is open: the boot permits debug access (R518, R519), and the JTAG_SEL strap selects the debug TAP
(Table 19-5). -/
def State.scanOpen (s : State) : Bool := s.pwr.up && s.b F.LC_STATE_DEBUG && bitOf (s.f F.BOOT_STRAPS_OTHER) 0

/-- JTAG_SCAN_ENTRY (R553, R554): every key is cleared first, and the scanned logic ends in its reset state; an unconfirmed clear
bars the scan outside MANUFACTURE and RMA. -/
def execJtagScanEntry (clearOk : Bool) (s : State) : Host.Outcome State Fault Refusal :=
  .next (if !s.scanOpen then s
    else
      let s := (s.secretClear true).secretClear false
      let s := if clearOk then s else s.clearUnconfirmed
      (if !clearOk && s.lockedState then s else s.each (List.range 28) fun s p => s.partReset p false).keyBack)

/-- BIST_PRECOND_SAMPLE (R552). -/
def execBistPrecondSample (s : State) : Host.Outcome State Fault Refusal :=
  .next (if s.precond != 0 then s.onBist fun b => { b with run := b.run.map fun r => { r with bad := true } } else s)

/-- A test has ended: go on with the request's rest, whose samples start anew. -/
def State.bistContinue (s : State) (r : BRun) (ok : Bool) : State :=
  if r.online then (s.onBist fun b => { b with run := none }).bistRegs
  else s.bistNext ok r.left.tail r.mem

/-- LBIST_PARTITION_DONE (R549, R551, R552, R563). -/
def execLbistPartitionDone (misr : Nat) (clearOk : Bool) (s : State) : Host.Outcome State Fault Refusal :=
  .next (match s.bist.run with
    | some r => match r.mem, r.left with
      | false, p :: _ =>
        if r.bad || s.precond != 0 then (s.testAborted r).bistContinue r clearOk
        else
          let pass := misr % 2 ^ 64 == (s.bpart p).expect
          let s := (s.partReset p r.online).onPart p fun x => { x with
            misr := misr % 2 ^ 64, result := if pass then 1 else 2, at_ := some s.time.aon }
          let s := s.inc F.BIST_LB_RUNS
          let s := if pass then s else (s.inc F.BIST_LB_FAILS).selfTestFault
          s.bistContinue r clearOk
      | _, _ => s
    | none => s)

/-- MBIST_INSTANCE_DONE (R560, R562): the first failing read of the instance, if any: word, bit, a free spare. -/
def execMbistInstanceDone (failure : Option (Nat × Nat × Bool)) (clearOk : Bool) (s : State) : Host.Outcome State Fault Refusal :=
  .next (match s.bist.run with
    | some r => match r.mem, r.left with
      | true, i :: _ =>
        if r.bad || s.precond != 0 then (s.testAborted r).bistContinue r clearOk
        else
          let s := s.instLeft i false
          let s := match failure with
            | some (w, b, spare) =>
              let was := s.bist.repairs.length
              let s := s.memFailed i w b spare
              if decide (was < s.bist.repairs.length) && !s.boot.forced then s.addJob { kind := .repair, units := [.repair (i, w, b)] } else s
            | none => s
          let s := s.when (i == 43) State.keyBack
          s.bistContinue r clearOk
      | _, _ => s
    | none => s)

/-! ### Online rotation (R557, R558) -/

/-- The online partitions, ascending. -/
def onlineParts : List Nat := [0, 1, 2, 3, 5, 6, 7, 8, 10, 11, 12, 13, 15, 16, 17, 18, 23]

/-- Start an online test of a partition; one that is refused is no missed window (R552, R557). -/
def State.onlineStart (s : State) (p : Nat) : State :=
  if s.precond != 0 then ((s.put F.BIST_STATUS_REFUSED s.precond).inc F.BIST_REFUSALS).onBist fun b => { b with due := false }
  else (s.onBist fun b => { b with run := some { mem := false, online := true, left := [p] }, due := false }).bistRegs

/-- The standby takes part in the rotation. -/
def State.rotating (s : State) : Bool :=
  s.isHead && s.pwr.up && s.f F.RING_STATUS_STATE == hsStandby && s.b F.BIST_CTL_ONLINE_EN

/-- The window of 10 s / 17 that the node clock names (R557). -/
def State.bistWindow (s : State) : Nat := s.time.clock * 17 / secU 10

/-- ONLINE_BIST_WINDOW: a window has begun; the one before was missed if its partition found no gap. -/
def execOnlineBistWindow (s : State) : Host.Outcome State Fault Refusal :=
  .next (if !s.rotating || s.bist.window == some s.bistWindow then s
    else
      let s := if s.bist.due then s.inc F.BIST_LB_MISSED else s
      let w := s.bistWindow
      let p := nth onlineParts (w % 17) 0
      let s := s.onBist fun b => { b with window := some w, due := (s.bpart p).valid }
      if p == 23 && (s.bpart p).valid && s.bist.run.isNone then s.onlineStart p else s)

/-- The longest time of a partition test, in units of the clock (R549): 2^PAT_LOG × 68 / 200 MHz + 20 µs. -/
def State.testTime (s : State) : Nat := 2 ^ s.f F.BIST_CFG_PAT_LOG * 340 * nsU + usU 20

/-- ONLINE_BIST_GAP_START: after the run of the window's fold, with the test time and 20 µs left before its next start (R357); the
gap does not count while a TXEND group waits for a boundary that falls inside it. -/
def execOnlineBistGapStart (s : State) : Host.Outcome State Fault Refusal :=
  .next (let p := nth onlineParts (s.bist.window.getD 0 % 17) 0
    let n := p / 5
    let fits := decide (s.time.clock + s.testTime + usU 20 ≤ s.swapAt (s.time.frame + 1))
    let inside := match (s.fold n).scheduled with
      | some t =>
        let b := s.swapAt t.frame
        decide (s.time.clock ≤ b) && decide (b ≤ s.time.clock + s.testTime + usU 20)
      | none => false
    if s.rotating && s.bist.due && s.bist.run.isNone && decide (p < 20) && s.bist.window == some s.bistWindow && fits && !(s.inRun n) && !inside then s.onlineStart p else s)

/-! ### The health report (R564, R565) -/

/-- The free-running count that mirrors a counter register: what reads and clears have taken out of it, plus what it holds. -/
def State.healthCount (s : State) (f : Fld) (i : Nat := 0) : Nat := (s.bist.base.get (f.addr i 0) + s.f f i) % 2 ^ 32

/-- A counter register is about to be cleared: its value stays in the health report's count. -/
def State.keepCount (s : State) (a : Nat) : State :=
  let counts := [F.RING_COPY_MISMATCH.addr 0 0, F.COMP_LATE.addr 0 0, F.MEM_CE.addr 0 0, F.MEM_UE.addr 0 0] ++
    (List.range 4).map fun n => F.FOLDn_OVERRUNS.addr n 0
  if counts.contains a then s.onBist fun b => { b with base := b.base.set a ((b.base.get a + (s.reg a).toNat) % 2 ^ 32) } else s

/-- An instant lies within the last second, inclusive (R10). -/
def State.withinSec (s : State) (t : Option Nat) : Bool :=
  match t with
  | some x => decide (s.time.clock ≤ x + secU 1)
  | none => false

/-- The highest estimate and its region. -/
def State.hottest (s : State) : Int × Nat :=
  (List.range 6).foldl (fun m r => if m.1 < s.sf F.THERM_REGr_EST r then (s.sf F.THERM_REGr_EST r, r) else m) (-32768, 0)

/-- OUT_OF_STEP of the node for any reason (R215, R262, R284). -/
def State.outOfStep (s : State) : Bool :=
  s.b F.FLOCK_STATUS_OUT_OF_STEP || s.comp.hurdleOos || s.comp.poseOos.any id

/-- Bytes 0 to 63 of the health report (Table 17-3). -/
def State.healthReport (s : State) : Bytes :=
  let role := if s.isTile then 0 else s.f F.BOOT_STRAPS_ROLE + 4 * s.f F.RING_STATUS_STATE
  let wall := (if s.isTile then b2n (s.ring.enumerated && s.f F.RING_TILE_STATUS_HOP != 0) else 0) +
    2 * (if s.isTile then s.f F.RING_TILE_STATUS_EXCESS else 0) + 4 * b2n s.ring.start + 8 * b2n s.outOfStep +
    16 * s.f F.FLOCK_STATUS_STALE_CONFIG + 32 * s.f F.LAMP_STATUS_BLANKED + 64 * s.f F.BOOT_STATUS_TRIAL
  let time := s.f F.TIME_STATUS_STATE + 8 * s.f F.TIME_STATUS_ALIGNED + 16 * s.f F.TIME_STATUS_WITHIN_1US +
    32 * s.f F.TIME_STATUS_EW_VALID
  let therm := s.f F.THERM_STATUS_WARN + 2 * s.f F.THERM_STATUS_THROTTLE + 4 * s.f F.THERM_STATUS_SENSOR_FAULT +
    8 * s.f F.THERM_EVENT_TRIP_RESTART + 16 * s.f F.MEM_STATUS_HOT_REFRESH
  let duty := (List.range 4).foldl (fun m f => min m (s.f F.FOLDn_PACE_DUTY f)) 16
  let folds := (List.range 4).foldl (fun a f => a + 4 ^ f * s.f F.FOLDn_STATUS_STATE f) 0
  let self := b2n (s.withinSec s.bist.lastFault) + 2 * b2n (s.bist.parts.any fun p => p.result == 2) +
    4 * s.f F.BIST_STATUS_MB_UNREPAIRED + 8 * s.f F.BIST_STATUS_REPAIR_PENDING + 16 * s.f F.BIST_STATUS_CLEAR_UNCONFIRMED +
    32 * b2n (s.withinSec s.bist.lastUe) + 64 * b2n (s.withinSec s.bist.lastFold)
  let ports := (List.range 7).foldl (fun a p => a + (if s.portUp p then 2 ^ p else 0)) 0
  let overruns := ((List.range 4).foldl (fun a n => a + s.healthCount F.FOLDn_OVERRUNS n) 0) % 2 ^ 32
  mkMsg 64 [(0, 1, 1), (1, 1, 1), (2, 1, role), (3, 1, wall), (4, 1, time), (5, 1, therm), (6, 1, duty), (7, 1, folds),
    (8, 8, s.serial), (16, 2, if s.isTile then s.tileAddr else 0), (18, 1, s.ring.gen), (19, 1, self), (20, 4, s.f F.TIME_ERR),
    (24, 2, unsgn 16 s.hottest.1), (26, 1, s.hottest.2), (27, 1, ports), (28, 4, s.healthCount F.RING_COPY_MISMATCH),
    (32, 4, s.healthCount F.COMP_LATE), (36, 4, overruns), (40, 4, s.healthCount F.MEM_CE),
    (44, 2, min 65535 (s.healthCount F.MEM_UE)), (46, 2, min 65535 (s.f F.LAMP_DIAG_OPEN + s.f F.LAMP_DIAG_SHORT)),
    (48, 4, s.host.epoch), (52, 4, s.boot.version), (56, 4, s.bist.seq), (60, 4, s.ingest.clipBad % 2 ^ 32)]

/-- HEALTH_REPORT_TIMER (R564): at a send instant, the report, its complement in bytes 64 to 127. -/
def execHealthReportTimer (s : State) : Host.Outcome State Fault Refusal :=
  .next (if !(s.boot.running && s.pwr.up) || s.bist.slot == some s.healthSlot then s
    else
      let b := s.healthReport
      let s := s.healthFrom
      let s := s.flag F.BIST_STATUS_SELF_TEST_FAULT (s.withinSec s.bist.lastFault)
      let s := s.each (List.range 16) fun s k => s.put F.BIST_HEALTHk (le b (4 * k) 4) 0 k
      let s := s.onBist fun x => { x with seq := (x.seq + 1) % 2 ^ 32 }
      let m := b ++ complement b
      if !(s.on iLINK) then s
      else if s.isTile then s.tileSend 33 s.tileAddr m
      else if s.isHead then s.headSend 33 m
      else s)

/-- BIST_TILE_REPORTk and BIST_TILE_AGE show the report of BIST_TILE_SEL. -/
def State.tileSel (s : State) : State :=
  match s.bist.reports.find? fun r => r.1 == s.f F.BIST_TILE_SEL with
  | some r =>
    (s.put F.BIST_TILE_AGE (min (2 ^ 32 - 2) ((s.time.aon - r.2.1) / 10 ^ 6))).each (List.range 16) fun s k =>
      s.put F.BIST_TILE_REPORTk (le r.2.2 (4 * k) 4) 0 k
  | none => (s.put F.BIST_TILE_AGE (2 ^ 32 - 1)).each (List.range 16) fun s k => s.put F.BIST_TILE_REPORTk 0 0 k

/-- A health report reaches a head, directly or relayed (R133, R135, R142, R564, R565). -/
def State.rxHealth (s : State) (addr : Nat) (p : Bytes) : State :=
  let b := p.take 64
  if !s.isHead || (p.drop 64).take 64 != complement b || le b 0 1 != 1 then s
  else
    let s := (s.onBist fun x => { x with reports := (addr, s.time.aon, b) :: x.reports.filter fun r => r.1 != addr }).tileSel
    if addr == 0 then s
    else
      let ser := le b 8 8
      match s.ring.tiles.find? fun t => t.serial == ser with
      | none => s
      | some t =>
        let n := le b 28 4
        let more := match t.mismLast with
          | some l => decide (0 < seqDiff 32 n l)
          | none => false
        let run := if more then t.mismRun + 1 else 0
        let back := !t.present && t.hop != 0 && t.gen == s.ring.gen
        let s := s.onRing fun r => { r with tiles := r.tiles.map fun x => if x.serial == ser then
          { x with lastHealth := s.time.aon, linked := bits (le b 27 1) 0 2 == 3, timeOk := bitOf (le b 4 1) 4, mismLast := some n, mismRun := run % 3, report := b
                   present := x.present || back } else x }
        let s := (if run == 3 then s.diverge [] [] else s).judgeRings
        let s := if back && s.isBw then s.reclassify.sendWall else s
        s.judgeStart

/-- HEALTH (R565). -/
def execHealth (addr : Nat) (payload : Bytes) (s : State) : Host.Outcome State Fault Refusal :=
  .next (if s.on iLINK then s.rxHealth addr payload else s)

/-! ### GPIO and interrupt pins (R599 to R601) -/

/-- GPIO_IN for pad levels `pads` that the outside drives. -/
def State.gpioIn (s : State) (pads : Nat) : Nat :=
  (List.range 16).foldl (fun a k => if (s.pinOut k).getD (bitOf pads k) then a + 2 ^ k else a) 0

/-- A write of GPIOk_CFG (R600): the pulse in progress on the pin ends, and the pin takes its function. A second owner of an
alarm fails (R472): the caller checks it. -/
def State.gpioCfg (s : State) (k v : Nat) : State :=
  let old := s.f F.GPIOk_CFG_FUNC k
  let a := s.f F.GPIOk_CFG_ALARM k
  let s := if old == 2 then s.onAlarm a fun x => { x with pulseEnd := none } else s
  let s := s.setReg (F.GPIOk_CFG_FUNC.addr k 0) (BitVec.ofNat 32 (v % 2 ^ 16))
  s.drivePin k

/-- Another pin owns the alarm that a value of GPIOk_CFG names. -/
def State.alarmTaken (s : State) (k v : Nat) : Bool :=
  bits v 0 3 == 2 && (List.range 16).any fun j => j != k && s.f F.GPIOk_CFG_FUNC j == 2 && s.f F.GPIOk_CFG_ALARM j == bits v 4 5

/-- GPIO_CFG_WRITE (R600). A reserved code is refused (R631); a second owner of an alarm is a conflict, recorded for context 0 as the row
names none (R472). -/
def execGpioCfgWrite (pin : Fin 16) (value : Nat) (s : State) : Host.Outcome State Fault Refusal :=
  .next (if !s.pwr.up || resvBad (fieldsAt (F.GPIOk_CFG_FUNC.addr pin 0)) value then s
    else if s.alarmTaken pin value then s.logConflict (1, bits value 4 5) 0 false
    else s.gpioCfg pin value)

end Sys2Proof.Machine
end

