-- ==== Sys2Proof/Machine/RegWrite.lean ====
section
/-! DEFINITION. Register accesses (spec/21_register_map.md and R7 to R9): field types, clamping, complement-protected pairs,
what a write of each register does, writes that wait for a latch (R237), reads with their side effects, and the BAR0 view. -/
set_option Elab.async false
namespace Sys2Proof.Machine

/-! ### Field types (R7, R8) -/

/-- The value a write gives a field: brought to the nearest limit where the map clamps it. -/
def FieldDef.value (f : FieldDef) (v : Nat) : Nat :=
  let x := bits v f.lo f.w
  match f.clamp with
  | none => x
  | some (lo, hi) => if lo < 0 then unsgn f.w (clampI lo hi (sgn f.w x)) else (clampI lo hi x).toNat

/-- The word of a register after a write of `v` reaches the given fields: RW and RWP fields are set, each 1 clears a W1C bit,
every other bit stays. -/
def writtenWord (fs : List FieldDef) (old v : Nat) : Nat :=
  fs.foldl (fun w f => match f.acc with
    | .rw => setBits w f.lo f.w (f.value v)
    | .rwp => setBits w f.lo f.w (f.value v)
    | .w1c => setBits w f.lo f.w (Nat.land (bits w f.lo f.w) (2 ^ f.w - 1 - bits v f.lo f.w))
    | _ => w) old

/-- The register is complement-protected (R627). -/
def isRwp (a : Nat) : Bool :=
  match regAt a with
  | some (d, _) => d.fields.any fun f => f.acc == .rwp
  | none => false

/-- The complement word of an RWP register. -/
def isRwpHi (a : Nat) : Bool := decide (4 ≤ a) && isRwp (a - 4)

/-- The offset is a decoded word: a register, or the complement of an RWP register (R621). -/
def decoded (a : Nat) : Bool := a % 4 == 0 && ((regAt a).isSome || isRwpHi a)

/-- The write gives a port other than 6 USE = 1 (R73). -/
def useBad (a v : Nat) : Bool :=
  match regAt a with
  | some (d, i, _) => d.base == F.PORTn_CFG_USE.base && i != 6 && bits v F.PORTn_CFG_USE.lo 2 == 1
  | none => false

/-- A value that no write puts in force: a reserved code, a USE that R73 forbids, or a CTX0_BIND that would lock the owner out (R398). -/
def valueBad (a v : Nat) : Bool := resvBad (fieldsAt a) v || useBad a v || (a == F.CTXn_BIND_TRANSPORT.base && v % 4 == 0)

/-- Only a flock may write the register (R629). -/
def flockOnlyAt (a : Nat) : Bool :=
  match regAt a with
  | some (d, _) => d.flockOnly
  | none => false

/-! ### Rights (R399) -/

/-- Context `c` may write the register at `a`: an offset outside every block needs no rights; CTXn_BIND and the rights
registers are context 0's alone (R398, R399, R621). -/
def State.writeRight (s : State) (c a : Nat) : Bool :=
  match blockOf a with
  | none => true
  | some b =>
    let owner := b == 1 && decide (a < 0x18000) && decide (a % 0x1000 < 0x20)
    s.mayWrite c b && (!owner || c == 0)
def State.readRight (s : State) (c a : Nat) : Bool :=
  match blockOf a with
  | none => true
  | some b => s.mayRead c b

/-! ### Complement-protected pairs (R9, R628) -/

/-- A register access of context `c`: every open pair but one opened by it has one access fewer left; at none it is discarded
with an RWP fault. -/
def State.ageRwp (s : State) (c : Nat) (opened : Option Nat) : State :=
  let ps := (s.ctx c).pairs.map fun p => if some p.addr == opened then p else { p with left := p.left - 1 }
  let s := s.onCtx c fun x => { x with pairs := ps.filter fun p => p.left != 0 }
  s.when (ps.any fun p => p.left == 0) fun s => s.ctxFault F.CTXn_FAULT_RWP c

/-- A write to A (R9): a pair that is open is discarded with the fault, and a new one opens. -/
def State.rwpOpen (s : State) (c a v : Nat) : State :=
  let again := (s.ctx c).pairs.any fun p => p.addr == a
  let s := s.onCtx c fun x => { x with pairs := ⟨a, BitVec.ofNat 32 v, 16⟩ :: x.pairs.filter fun p => p.addr != a }
  s.when again fun s => s.ctxFault F.CTXn_FAULT_RWP c

/-- How long ago τ of a ticket was, in units of the node clock; 0 for a write without a ticket (R531). -/
def State.sinceTau (s : State) (t : Option (Nat × Nat)) : Nat :=
  match t with
  | some q => match s.host.journal.find? fun r => r.ctx == q.1 && r.ticket == q.2 with
    | some r => s.time.clock - r.tau
    | none => 0
  | none => 0

/-- A complete pair takes effect (R9, R398, R519, R522, R531, R583). -/
def State.rwpEffect (s : State) (t : Option (Nat × Nat)) (a v : Nat) : State :=
  let w := writtenWord (fieldsAt a) (s.reg a).toNat v
  if a == F.RST_CTL_ISLAND.base then s.rstRequest w
  else if a == F.LC_TRANSITION.base then (s.put F.LC_TRANSITION w).lcTransition (w % 8)
  else if a == F.SEC_REVOKE.base then (s.put F.SEC_REVOKE w).secRevoke (w % 16)
  else if a == F.BOOT_CONFIRM.base then (s.put F.BOOT_CONFIRM w).bootConfirm (w % 2 ^ 32) t (s.sinceTau t)
  else if a == F.CTXn_RIGHTS_RD.base || a == F.CTXn_RIGHTS_WR.base || a == F.CTXn_RIGHTS_CMD.base then s
  else (s.setReg a (BitVec.ofNat 32 w)).transports

/-- A write to A + 4 (R9): it completes the pair when it holds the complement, and the context may complete it (Table 21-4);
otherwise the pair is discarded with the fault. -/
def State.rwpClose (s : State) (c : Nat) (t : Option (Nat × Nat)) (a v : Nat) : State :=
  let p := (s.ctx c).pairs.find? fun p => p.addr == a
  let s := s.onCtx c fun x => { x with pairs := x.pairs.filter fun p => p.addr != a }
  match p with
  | none => s.ctxFault F.CTXn_FAULT_RWP c
  | some p =>
    if BitVec.ofNat 32 v == ~~~p.value && (c == 0 || a == F.BOOT_CONFIRM.base) then s.rwpEffect t a p.value.toNat
    else s.ctxFault F.CTXn_FAULT_RWP c

/-! ### What writing a register does beside storing it -/

/-- One write of a register: context, ticket, instance, the value written, the word before it. -/
structure WrCtx where
  c : Nat
  t : Option (Nat × Nat)
  i : Nat
  j : Nat
  v : Nat
  old : Nat
  deriving DecidableEq, Repr

/-- The write changes bits of the word. -/
def WrCtx.changes (w : WrCtx) (lo n : Nat) : Bool := bits w.v lo n != bits w.old lo n

/-- FLOCK_CTL.CLEAR (R227). -/
def State.flockClear (s : State) : State :=
  (((s.zero F.FLOCK_COMMITS).zero F.FLOCK_ABORTS).zero F.FLOCK_OOS_FRAMES).zero F.FLOCK_LATE_VOTES
/-- FLOCK_CTL.STALE_CLR (R227). -/
def State.staleClr (s : State) : State := s.flag F.FLOCK_STATUS_STALE_CONFIG false

/-- FLOCK_CLEAR and STALE_CLR. -/
def execFlockClear (s : State) : Host.Outcome State Fault Refusal := .next (if s.pwr.up then s.flockClear else s)
def execStaleClr (s : State) : Host.Outcome State Fault Refusal := .next (if s.pwr.up then s.staleClr else s)

/-- Bit `k` of the written value starts an action. -/
def State.bitAct (s : State) (w : WrCtx) (k : Nat) (f : State → State) : State := s.when (bitOf w.v k) f

/-- GPIO_OUT drives its OUTPUT pins (R599). -/
def State.gpioOut (s : State) (w : WrCtx) : State :=
  s.each (List.range 16) fun s k =>
    s.when (w.changes k 1 && s.f F.GPIOk_CFG_FUNC k == 1) fun s => s.drivePin k

/-- A cause that is set and newly enabled is delivered (R420). -/
def State.maskWritten (s : State) (w : WrCtx) : State :=
  let cause := (s.reg (F.CTXn_IRQ_CAUSE_COMPLETION.addr w.i 0)).toNat
  s.each (List.range 11) fun s k => if bitOf cause k && bitOf w.v k && !(bitOf w.old k) then s.deliver w.i k else s

/-- The host consumes completions (R402, R410): an index outside the unconsumed span is ignored and flagged; the records whose
DONE entries are consumed are freed, and held completions are written. -/
def State.cqHead (s : State) (c v : Nat) : State :=
  let h := s.f F.CTXn_CQ_HEAD c
  let n := (v + 8192 - h) % 8192
  let span := (s.f F.CTXn_CQ_TAIL c + 8192 - h) % 8192
  if 8192 ≤ v || span < n then s.ctxFault F.CTXn_FAULT_CQ_INDEX c
  else
    let used := (List.range n).map fun k => (h + k) % 8192
    let done := (s.ctx c).cq.filter fun p => used.contains p.1 && le p.2 4 1 == 3 && !(bitOf (le p.2 5 1) 1)
    let s := (s.put F.CTXn_CQ_HEAD v c).each done fun s p => s.freeRec c (le p.2 0 4)
    s.flushCq c

/-- The doorbell (R400): an index above 4,095 is ignored and flagged; the bounds of R405 run from the write when the ring was
empty. -/
def State.sqTail (s : State) (c v : Nat) : State :=
  if 4095 < v then s.ctxFault F.CTXn_FAULT_SQ_INDEX c
  else
    let s := if s.f F.CTXn_SQ_TAIL c == s.f F.CTXn_SQ_HEAD c then s.onCtx c fun x => { x with startAt := s.hostTime c } else s
    s.put F.CTXn_SQ_TAIL v c

/-- CTXn_SQ_TAIL is written, the doorbell of the PCIe transport (Table 12-1): on a context bound elsewhere it is a command on a transport that
the context is not bound to (R394). -/
def State.doorbell (s : State) (c v : Nat) : State := if s.f F.CTXn_BIND_TRANSPORT c == 1 then s.sqTail c v else s.wrongTransport c

/-- FOLDn_CTL written with the timestamp `at_` (R351, R352, R368): ENABLE and the WO bits; FAULT_STOP waits for the latch. -/
def State.foldCtl (s : State) (w : WrCtx) (at_ : Nat) : State :=
  let s := if w.changes 0 1 then s.foldEnable w.i (bitOf w.v 0) at_ else s
  let s := ((s.bitAct w 1 fun s => s.foldActivate w.i at_).bitAct w 2 fun s => s.foldRestart w.i at_).bitAct w 3 fun s => s.foldStop w.i
  s.bitAct w 5 fun s => s.foldClear w.i

/-- BOOT_DL_CTL (R526, R536). -/
def State.dlCtl (s : State) (w : WrCtx) : State :=
  let s := (s.bitAct w 0 fun s => s.dlBegin false w.c w.t).bitAct w 1 fun s => s.dlCancel false w.c w.t
  (s.bitAct w 2 fun s => s.dlBegin true w.c w.t).bitAct w 3 fun s => s.dlCancel true w.c w.t

/-- BIST_CTL (R549 to R553): whether the clear of a barred partition is confirmed is open here. -/
def State.bistCtl (s : State) (w : WrCtx) : State :=
  let ok := Config.freeBool s.fresh
  let s := if bitOf w.v 0 || bitOf w.v 1 then s.tickFresh else s
  let s := (s.bitAct w 2 State.bistAbort).bitAct w 4 State.bistClear
  (s.bitAct w 0 fun s => s.bistRequest false ok).bitAct w 1 fun s => s.bistRequest true ok

/-- Registers of LANE and PORT whose stored value takes part in the action. RETRAIN and CLEAR in one write act in the order of their bits, so
that CLEAR also zeroes the count of that entry to FAULT (DESIGN CHOICE, assumption 72). -/
def State.laneAct (s : State) (d : RegDef) (w : WrCtx) : State :=
  if d.base == F.LANEn_INJ_GO.base then
    (s.when (w.changes 0 2 || w.changes 11 6) fun s => s.onLane w.i fun l => { l with symbols := 0, injectAt := [] }).bitAct w 2 fun s => s.injectGo w.i
  else if d.base == F.LANEn_CTL_LOOPBACK.base then
    let s := s.when (!(s.b F.LANEn_CTL_RX_POL_AUTO w.i)) fun s => s.rxPolarity w.i false
    if w.changes 4 2 then s.judgeTest w.i else s
  else if d.base == F.LANEn_CTLE_PEAK.base || d.base == F.LANEn_DFE_H1.base then s.eqWritten w.i
  else if d.base == F.LANEn_CDR_BW.base then s.cdrWritten w.i
  else if d.base == F.PORTn_CTL_RETRAIN.base then (s.bitAct w 0 fun s => s.retrain w.i).bitAct w 1 fun s => s.portClear w.i
  else if d.base == F.PORTn_CFG_ENABLE.base then
    if bitOf w.v 0 then s.enablePort w.i else if w.changes 0 1 then s.disablePort w.i else s
  else s

/-- TIME, RING and FLOCK. -/
def State.timeAct (s : State) (d : RegDef) (w : WrCtx) : State :=
  if d.base == F.TIME_CTL_CAPTURE.base then
    ((s.bitAct w 0 State.capture).bitAct w 1 State.relock).bitAct w 2 State.timeClear
  else if d.base == F.TIME_CFG_MODE.base then
    if w.changes 0 2 then s.newMode.ptpRestart else s
  else if d.base == F.TIME_PTP_CFG_DOMAIN.base then (if w.changes 0 25 then s.ptpRestart else s)
  else if d.base == F.TIME_ALARMa_CTL_ENABLE.base then s.armAlarm w.i
  else if d.base == F.RING_CTL_CLEAR.base then
    ((s.bitAct w 0 State.enumerate).bitAct w 1 State.ringClear).bitAct w 2 State.handover
  else if d.base == F.RING_CFG_SINGLE.base then
    if bitOf w.v 0 && s.isHead && s.f F.RING_STATUS_STATE == hsElecting && s.boot.running then s.elected else s
  else if d.base == F.FLOCK_CTL_CLEAR.base then (s.bitAct w 0 State.flockClear).bitAct w 1 State.staleClr
  else if d.base == F.FLOCK_SEL.base then s.flockRegs
  else s

/-- LAMP, CORR, COMP, MEM and DPRX. -/
def State.dataAct (s : State) (d : RegDef) (w : WrCtx) : State :=
  if d.base == F.LAMP_CTL_CLEAR.base then
    ((s.bitAct w 0 State.invalidateAll).bitAct w 1 State.lampClear).lampStatus
  else if d.base == F.LAMP_DIAG_MAX_AGE.base || d.base == F.LAMP_DIAG_CFG_PROBE_EN.base then
    s.put F.LAMP_DIAG_MAX_AGE (max (s.f F.LAMP_DIAG_MAX_AGE) s.diagPeriod)
  else if d.base == F.LAMP_PORTp_WM.base then s.refill w.i
  else if d.base == F.LAMP_GRPg_DIAG_BASE.base then if w.changes 0 20 then s.diagReset w.i else s
  else if d.base == F.LAMP_PORTp_CFG_GROUP.base then s.onLPort w.i fun p => { p with phased := false }
  else if d.base == F.CORR_CTL_CLEAR.base then s.bitAct w 4 State.corrClear
  else if d.base == F.MEM_CTL_CLEAR.base then
    let s := (s.bitAct w 0 State.memClear).bitAct w 2 State.logRearm
    s.when (w.changes 1 1) State.scrubAnew
  else if d.base == F.MEM_SCRUB.base then s.when (w.changes 0 8) State.scrubAnew
  else if d.base == F.DPRXn_CTL_HPD_IRQ.base then s.bitAct w 2 fun s => s.hpdIrq w.i
  else s

/-- Hosts, power, thermal, boot, self-test and GPIO. -/
def State.sysAct (s : State) (d : RegDef) (w : WrCtx) : State :=
  if d.base == F.HOST_MGMT_CFG.base then s.transports
  else if d.base == F.CTXn_IRQ_MASK_COMPLETION.base then s.maskWritten w
  else if d.base == F.XING_CTL_CLEAR.base then s.bitAct w 0 State.xingClear
  else if d.base == F.THERM_CTL_CLEAR.base then s.bitAct w 0 State.thermClear
  else if d.base == F.CAL_CTL_RUN.base then s.calRun (bits w.v 0 5)
  else if d.base == F.THERM_THROTTLE_DIV_DIV.base || d.base == F.THERM_THROTTLE_DUTY_CAP.base then s.dutyLimits
  else if d.base == F.BOOT_DL_CTL_BEGIN.base then s.dlCtl w
  else if d.base == F.SEC_ATTEST_CTL_GO.base then s.bitAct w 0 fun s => s.attestGo (bits w.v 1 2)
  else if d.base == F.BIST_CTL_LB_GO.base then s.bistCtl w
  else if d.base == F.BIST_SEL.base then s.bistSel
  else if d.base == F.BIST_TILE_SEL.base then s.tileSel
  else if d.base == F.BIST_SEL_SEED_LO.base then
    (s.onPart (s.f F.BIST_SEL) fun x => { x with seed := x.seed / 2 ^ 32 * 2 ^ 32 + w.v }).bistSel
  else if d.base == F.BIST_SEL_SEED_HI.base then
    (s.onPart (s.f F.BIST_SEL) fun x => { x with seed := x.seed % 2 ^ 32 + 2 ^ 32 * w.v }).bistSel
  else if d.base == F.BIST_SEL_EXPECT_LO.base then
    (s.onPart (s.f F.BIST_SEL) fun x => { x with expect := x.expect / 2 ^ 32 * 2 ^ 32 + w.v }).bistSel
  else if d.base == F.BIST_SEL_EXPECT_HI.base then
    (s.onPart (s.f F.BIST_SEL) fun x => { x with expect := x.expect % 2 ^ 32 + 2 ^ 32 * w.v, valid := true }).bistSel
  else if d.base == F.GPIO_OUT.base then s.gpioOut w
  else s

/-- The action of a write, once its fields are stored. -/
def State.regAct (s : State) (d : RegDef) (w : WrCtx) : State :=
  match blockOf d.base with
  | some 9 => s.laneAct d w
  | some 10 => s.laneAct d w
  | some 11 => s.timeAct d w
  | some 12 => s.timeAct d w
  | some 13 => s.timeAct d w
  | some 6 => if d.base == F.COMP_GRPg_SIZE_WP.base && w.changes 0 32 then s.diagReset w.i else s
  | some b => if b == 7 || b == 14 || b == 15 || b == 16 then s.dataAct d w else s.sysAct d w
  | none => s

/-! ### Writes that wait for a latch (R237) -/

/-- The register is of the composition, correction or fold blocks, whose stored values wait for a latch. -/
def latchedReg (a : Nat) : Bool :=
  match blockOf a with
  | some 6 => !(decide (a < 0x201000) && decide (0xC0 ≤ a % 256)) && a != F.HURDLE_MARGIN.base
  | some 15 => true
  | some b => 2 ≤ b && b ≤ 5
  | none => false

/-- FOLDn_CTL, whose ENABLE acts when the write executes (R352). -/
def isFoldCtl (a : Nat) : Bool := (List.range 4).any fun n => a == F.FOLDn_CTL_ENABLE.addr n 0

/-- The field takes a write at its latch, and not when the write executes. -/
def FieldDef.waits (a : Nat) (f : FieldDef) : Bool :=
  f.acc == .rw && latchedReg a && !(a == F.CORR_POSE_CFG_POSE_MARGIN.base && f.lo == 0) && !(isFoldCtl a && f.lo == 0)

/-- The stored fields of a register take a written value, and the register's action follows. -/
def State.storeReg (s : State) (c : Nat) (t : Option (Nat × Nat)) (a v : Nat) (p : FieldDef → Bool) (act : Bool) : State :=
  match regAt a with
  | none => s
  | some (d, i, j) =>
    let old := (s.reg a).toNat
    let s := s.setReg a (BitVec.ofNat 32 (writtenWord (d.fields.filter p) old v))
    if act then s.regAct d ⟨c, t, i, j, v, old⟩ else s

/-- The timestamp with which a write meets its latch: the later of τ of its ticket and now (R36, R237). -/
def State.stamp (s : State) (t : Option (Nat × Nat)) : Nat :=
  match t.bind fun q => s.host.journal.find? fun r => r.ctx == q.1 && r.ticket == q.2 with
  | some r => max r.tau s.time.clock
  | none => s.time.clock

/-- The write waits for its latch, with the timestamp `at_`. -/
def State.waitLatch (s : State) (c : Nat) (t : Option (Nat × Nat)) (at_ a v : Nat) : State :=
  s.onLatch fun l => l ++ [⟨none, a, toLE 4 v, at_, c, (t.map (·.2)).getD 0⟩]

/-- Registers whose write is an operation of its own: commits of a layer (R36), transmit taps and test patterns (R80, R101), TIME_SET (R198) and TIME_UTC, read-only in MODE 2 (R176), the GPIO
functions (R600) and the queue pointers of a context (R400, R402); none for the others. `at_`: the timestamp of the write. -/
def State.ownWrite (s : State) (c : Nat) (t : Option (Nat × Nat)) (at_ a v : Nat) : Option State :=
  match regAt a with
  | none => none
  | some (d, i, j) =>
    let hold := fun (s : State) => match t with
      | some q => s.onIngest fun g => { g with holds := g.holds ++ [(i, at_, q.1, q.2)] }
      | none => s
    if d.base == F.LAYERn_ADDR_LO.base then some (if s.isHead then hold (s.commitAddr i v at_) else s)
    else if d.base == F.LAYERn_CLIP_CLIP_ID.base then some (if s.isHead then hold (s.commitClip i v at_) else s)
    else if d.base == F.DPRXn_EDIDk.base && s.b F.DPRXn_CTL_EDID_VALID i then some s
    else if d.base == F.LANEn_TXFFE_C0.base then some (s.writeTxffe i v)
    else if d.base == F.LANEn_PRBS_CLEAR.base then some (s.writePrbs i v)
    else if d.base == F.TIME_UTC_OFFSET.base && s.isHead && s.f F.TIME_CFG_MODE == 2 then some s
    else if d.base == F.TIME_SET_SEC_HI.base then some (s.writeTimeSet v)
    else if d.base == F.TIME_SET_SEC_LO.base then some (s.writeTimeSetLo v)
    else if d.base == F.GPIOk_CFG_FUNC.base then some (s.gpioCfg i v)
    else if d.base == F.CTXn_SQ_TAIL.base then some (s.doorbell i v)
    else if d.base == F.CTXn_CQ_HEAD.base then some (s.cqHead i v)
    else if d.base == F.SEC_ATTEST_BUFk.base && 8 ≤ j then some s
    else if d.base == F.FOLDn_CTL_ENABLE.base then some ((s.waitLatch c t at_ a v).foldCtl ⟨c, t, i, j, v, (s.reg a).toNat⟩ at_)
    else if d.base == F.PORTn_CFG_ENABLE.base then
      some (((s.storeReg c t a v (fun f => f.lo != 0) false)).regAct d ⟨c, t, i, j, v, (s.reg a).toNat⟩)
    else none

/-- Record a discarded write (R625). -/
def State.logAccess (s : State) (c a kind : Nat) : State :=
  let s := s.inc F.GLOBAL_ACCESS_ERRS
  if s.b F.GLOBAL_ACCESS_ERR_VALID then s
  else
    let s := ((s.put F.GLOBAL_ACCESS_ERR_OFFSET (a / 4)).flag F.GLOBAL_ACCESS_ERR_WRITE).put F.GLOBAL_ACCESS_ERR_CONTEXT c
    (s.put F.GLOBAL_ACCESS_ERR_KIND kind).flag F.GLOBAL_ACCESS_ERR_VALID

/-- A write of a register that is not complement-protected executes, with the timestamp `at_`. -/
def State.plainWrite (s : State) (c : Nat) (t : Option (Nat × Nat)) (at_ a v : Nat) : State :=
  match s.ownWrite c t at_ a v with
  | some s => s
  | none =>
    let waits := (fieldsAt a).any fun f => f.waits a
    (s.when waits fun s => s.waitLatch c t at_ a v).storeReg c t a v (fun f => !(f.waits a)) (blockOf a != some 6)

/-- One register write of context `c` executes (R8, R9, R237, R621): by a ticket, or by its own row. -/
def State.regWrite (s : State) (c : Nat) (t : Option (Nat × Nat)) (a v : Nat) : State :=
  let v := v % 2 ^ 32
  if s.gatedReg a then (s.logAccess c a 2).ageRwp c none
  else if isRwp a then (s.rwpOpen c a v).ageRwp c (some a)
  else if isRwpHi a then (s.rwpClose c t (a - 4) v).ageRwp c none
  else if (regAt a).isSome then (s.plainWrite c t (s.stamp t) a v).ageRwp c none
  else s

/-- The addresses that a REG_WRITE names are accesses of its context (R396), also where the writes are staged or held in a transaction. -/
def State.countAccesses (s : State) (c : Nat) (ws : List Wr) : State :=
  if 8 ≤ c then s else s.each (ws.filter fun w => w.table.isNone) fun s _ => s.ageRwp c none

/-- Acceptance of a register write (R404, R629, R631): 0, or the code of its rejection. -/
def State.regCheck (s : State) (c a v : Nat) : Nat :=
  if !(s.writeRight c a) then 17
  else if !(decoded a) then 3
  else if flockOnlyAt a then 19
  else if valueBad a v then 3
  else 0

/-- RWP_WRITE_OPEN (R9). -/
def execRwpWriteOpen (ctx : Fin 8) (addr : Nat) (value : Nat) (s : State) : Host.Outcome State Fault Refusal :=
  .next (if s.pwr.up && isRwp addr && s.regCheck ctx addr value == 0 then s.regWrite ctx none addr value else s)
/-- RWP_COMPLETE (R9): `addr` is A + 4. -/
def execRwpComplete (ctx : Fin 8) (addr : Nat) (value : Nat) (s : State) : Host.Outcome State Fault Refusal :=
  .next (if s.pwr.up && isRwpHi addr && s.writeRight ctx addr then s.regWrite ctx none addr value else s)
/-- RWP_WINDOW_EXPIRE (R9): the access of the context that ends a window, one with no effect of its own: a pair with no access
left after it is discarded with the fault, and the others have one fewer. Before any window's last access it is no such event. -/
def execRwpWindowExpire (ctx : Fin 8) (s : State) : Host.Outcome State Fault Refusal :=
  .next (if s.pwr.up && (s.ctx ctx).pairs.any fun p => decide (p.left ≤ 1) then s.ageRwp ctx none else s)
/-! ### Tables -/

/-- One table entry takes effect (Tables 7-5 and 16-6, R275, R279, R347, R350). -/
def State.tableSet (s : State) (id idx : Nat) (b : Bytes) : State :=
  if 0x808 ≤ id ∧ id < 0x80C then (s.memWrite (s.entryAddr (id - 0x808) idx) b).lampWritten (s.entryAddr (id - 0x808) idx) 40
  else if 0xA00 ≤ id ∧ id < 0xA04 then
    s.onFold (id - 0xA00) fun f => { f with load := f.load.set idx (le b 0 8), loadBad := f.loadBad.filter (· != idx) }
  else if 0xA10 ≤ id ∧ id < 0xA14 then s.scratchSet (id - 0xA10) idx (le b 0 4)
  else s.setTab id idx (ofLE b)

/-- Entries of the table wait for the latch (R237); those of the program tables go to the load image at once (R350). -/
def tableWaits (id : Nat) : Bool := decide (id < 0xA00) || decide (0xA10 ≤ id ∧ id < 0xA14)

/-- A table write of context `c` executes, with the timestamp `at_`. -/
def State.tableWrite (s : State) (c : Nat) (t : Option (Nat × Nat)) (at_ id first : Nat) (b : Bytes) : State :=
  if id == 0xE00 || id == 0xE30 then s.dlWrite (id == 0xE30) c first b t
  else if id == 0xE10 then s.writeWallKey b t
  else if id == 0xE20 then s.writeToken b
  else if id == 0xE40 then s.addJob { kind := .otp, units := [.keyHash first b], ticket := t, ctx := c }
  else if id == 0xE41 then s.addJob { kind := .otp, units := [.ids b], ticket := t, ctx := c }
  else
    let size := match s.tableShape id with
      | some x => x.1
      | none => 1
    s.each (tableWrs id first size b) fun s w =>
      let i := w.table.getD id
      if tableWaits i then
        s.onLatch fun l => l ++ [⟨some i, w.at_, w.value, at_, c, (t.map (·.2)).getD 0⟩]
      else s.tableSet i w.at_ w.value

/-! ### The latch (R237) -/

/-- Apply one waiting write. -/
def State.latchOne (s : State) (w : LatchWrite) : State :=
  match w.table with
  | some id => s.tableSet id w.addr w.value
  | none => s.storeReg w.ctx none w.addr (le w.value 0 4) (fun f => f.waits w.addr)
      (blockOf w.addr == some 6)

/-- A fold that switches at the latch at `by_` has a load image with a parity error (R351). -/
def State.badSwitch (s : State) (by_ n : Nat) : Bool := s.switchDue by_ n && !(s.fold n).loadBad.isEmpty

/-- Put a waiting write after those with the same timestamp or an earlier one. -/
def LatchWrite.insert (w : LatchWrite) : List LatchWrite → List LatchWrite
  | [] => [w]
  | x :: r => if w.tau < x.tau then w :: x :: r else x :: LatchWrite.insert w r

/-- The writes in the order of their timestamps, those of one ticket together. -/
def latchGroups (ws : List LatchWrite) : List (List LatchWrite) :=
  (ws.foldl (fun a w => w.insert a) []).splitBy fun a b => a.ticket != 0 && (a.ctx, a.ticket) == (b.ctx, b.ticket)

/-- Apply the waiting writes with a timestamp up to the latch at `by_`, the latest last, those of one ticket together; later ones wait on
(R237). A ticket that would leave a scaler bank with a bad row is not applied and ends RANGE (R253); one that waits for the switch
of a bad load image ends FAULT (R351). -/
def State.applyLatch (s : State) (by_ : Nat) : State :=
  let ws := s.latch.filter fun w => decide (w.tau ≤ by_)
  let bads := (List.range 4).filter (s.badSwitch by_)
  (s.onLatch fun l => l.filter fun w => !(decide (w.tau ≤ by_))).each (latchGroups ws) fun s mine =>
    let k := (mine.head?.map fun w => (w.ctx, w.ticket)).getD (0, 0)
    let s' := s.each mine State.latchOne
    let banks := (List.range 4).filter fun b => mine.any fun w => w.table == some (0x710 + b)
    let sw := mine.any fun w => w.table.isNone && bitOf (le w.value 0 4) 1 && bads.any fun n => w.addr == F.FOLDn_CTL_ENABLE.addr n 0
    let r := if banks.any fun b => !(s'.bankOk b) then 3 else if sw then 4 else 0
    let s := if r == 3 then s else s'
    if k.2 == 0 then s else if r == 0 then s.finishPart k else s.finish k.1 k.2 r []

/-! ### Reads (R8, R102, R621 to R624) -/

/-- The offset reads 0 in this role (Table 21-1). -/
def State.roleZero (s : State) (a : Nat) : Bool :=
  if s.isTile then
    (decide (0x200000 ≤ a) && decide (a < 0x201000) && decide (0xC0 ≤ a % 256)) ||
      (decide (0x500060 ≤ a) && decide (a < 0x500078)) || a == F.RING_STATUS_STATE.base || a == F.RING_PORTMAP_MAP.base ||
      (decide (0x480040 ≤ a) && decide (a < 0x480058))
  else blockOf a == some 14 || a == F.RING_TILE_STATUS_HOP.base || (decide (0x480200 ≤ a) && decide (a < 0x480300))

/-- The _LO halves, whose reads capture the _HI half 4 bytes on (R624, R102). -/
def loHalves : List Fld :=
  [F.LAYERn_ADDR_LO, F.LANEn_PRBS_ERR_LO, F.LANEn_PRBS_BITS_LO, F.PORTn_PARTNER_SERIAL_LO, F.RING_BW_SERIAL_LO,
    F.TIME_CAP_SEC_LO, F.TIME_FRAME_COUNT_LO, F.TIME_SET_SEC_LO, F.TIME_PTP_GM_ID_LO, F.FLOCK_SEL_T_LO] ++
  [F.FLOCK_SEL_NODE_LO, F.FOLDn_QINITj_LO, F.MEM_ERR_ADDR_LO, F.MEM_SCRUB_POS_LO, F.SEC_SERIAL_LO, F.SEC_MAC_LO,
    F.BIST_SEL_SEED_LO, F.BIST_SEL_EXPECT_LO, F.BIST_SEL_MISR_LO, F.BIST_MB_MASK_LO]

/-- The offset is a _LO half. -/
def isLo (a : Nat) : Bool :=
  match regAt a with
  | some (d, _) => loHalves.any fun f => f.base == d.base
  | none => false

/-- Registers whose value is that of the moment: the selected partition and tile report, the self-test fault of the last second, the window of a trial, the pins and the
frame count. -/
def State.refreshReg (s : State) (a : Nat) (pads : Nat) : State :=
  if decide (F.BIST_SEL_SEED_LO.base ≤ a) && decide (a ≤ F.BIST_SEL_MISR_HI.base) then s.bistSel
  else if blockOf a == some 18 then (s.flag F.BIST_STATUS_SELF_TEST_FAULT (s.withinSec s.bist.lastFault)).tileSel
  else if a == F.BOOT_CONFIRM_STATUS_STATE.base then
    match s.boot.windowEnd with
    | some e => s.put F.BOOT_CONFIRM_STATUS_LEFT ((e - s.time.aon) / 10 ^ 9)
    | none => s
  else if a == F.GPIO_IN.base then s.put F.GPIO_IN (s.gpioIn pads)
  else if a == F.TIME_FRAME_COUNT_LO.base || a == F.TIME_FRAME_COUNT_HI.base then
    s.put64 F.TIME_FRAME_COUNT_LO F.TIME_FRAME_COUNT_HI (s.countNow)
  else s

/-- FOLDn_STATUS as it reads: WAIT shows the throttle while a fold that awaits nothing else is in the inactive part of its pacing window
(R363, R369); where in the window the inactive part lies the spec leaves open. -/
def State.paced (s : State) (a v : Nat) : Nat :=
  match (List.range 4).find? fun n => a == F.FOLDn_STATUS_STATE.addr n 0 with
  | some n => if s.inRun n && s.f F.FOLDn_STATUS_WAIT n == 0 && decide ((s.fold n).winDuty < 16) && Config.throttled n s.time.aon then
      setBits v 4 3 7 else v
  | none => v

/-- Bits of a register that are configuration: its RW and RWP fields (R468). -/
def configMask (a : Nat) : Nat := fieldMask ((fieldsAt a).filter fun f => f.acc == .rw || f.acc == .rwp)

/-- The island that holds the register is in reset: its status and counter fields read as their reset values (R468). -/
def State.statusHeld (s : State) (a : Nat) : Bool :=
  match islandOf a with
  | some i => nth s.xing.inReset i false
  | none => false

/-- The value a read of an offset by context `c` returns. -/
def State.readValue (s : State) (c a : Nat) : Nat :=
  if s.gatedReg a || s.roleZero a || !(decoded a) then 0
  else match (s.ctx c).captured.find? fun p => p.1 == a with
  | some p => p.2.toNat
  | none =>
    if s.statusHeld a then Nat.land (s.reg a).toNat (configMask a) + Nat.land (resetWord s.isHead a).toNat (2 ^ 32 - 1 - configMask a)
    else if isRwpHi a && !(regAt a).isSome then (~~~(s.reg (a - 4))).toNat
    else if a == F.CTXn_RIGHTS_RD.base || a == F.CTXn_RIGHTS_WR.base || a == F.CTXn_RIGHTS_CMD.base then 2 ^ 32 - 1
    else s.paced a (s.reg a).toNat

/-- What a read does: an RC field is cleared, a _LO half captures its _HI half, a captured half is given up. -/
def State.readEffect (s : State) (c a : Nat) : State :=
  let s := s.onCtx c fun x => { x with captured := x.captured.filter fun p => p.1 != a }
  if s.gatedReg a || s.roleZero a then s
  else
    let rc := (fieldsAt a).filter fun f => f.acc == .rc
    let s := if rc.isEmpty then s
      else (s.keepCount a).setReg a (BitVec.ofNat 32 (rc.foldl (fun w f => setBits w f.lo f.w 0) (s.reg a).toNat))
    if isLo a then s.onCtx c fun x => { x with captured := (a + 4, s.reg (a + 4)) :: x.captured.filter fun p => p.1 != a + 4 }
    else s

/-- One register read of context `c`: the state after it, and the value. -/
def State.regRead (s : State) (c a pads : Nat) : State × Nat :=
  let s := s.refreshReg a pads
  ((s.readEffect c a).ageRwp c none, s.readValue c a)

/-- A read of a context through its BAR0 view (R396): the state after it and the value, which without the right for it is 0, with RIGHTS. -/
def State.bar0Read (s : State) (c a pads : Nat) : State × Nat :=
  if s.readRight c a then s.regRead c a pads else ((s.ctxFault F.CTXn_FAULT_RIGHTS c).ageRwp c none, 0)

/-- A register read by a row of its own: a read by a context that lacks the right for it comes through a BAR0 view alone. -/
def State.readRow (s : State) (c a : Nat) : State :=
  if s.readRight c a || (s.isHead && s.on iPCIE && s.pwr.pcieUp) then
    let r := s.bar0Read c a 0
    r.1.emit (.value c r.2)
  else s

/-- RC_REGISTER_READ (R8). -/
def execRcRegisterRead (ctx : Fin 8) (addr : Nat) (s : State) : Host.Outcome State Fault Refusal :=
  .next (if s.pwr.up && (fieldsAt addr).any (fun f => f.acc == .rc) then s.readRow ctx addr else s)
/-- LO_HALF_READ (R624). -/
def execLoHalfRead (ctx : Fin 8) (addr : Nat) (s : State) : Host.Outcome State Fault Refusal :=
  .next (if s.pwr.up && isLo addr then s.readRow ctx addr else s)
/-- PRBS_COUNTER_LO_READ (R102). -/
def execPrbsCounterLoRead (ctx : Fin 8) (addr : Nat) (s : State) : Host.Outcome State Fault Refusal :=
  let ours := match regAt addr with
    | some (d, _) => d.base == F.LANEn_PRBS_ERR_LO.base || d.base == F.LANEn_PRBS_BITS_LO.base
    | none => false
  .next (if s.pwr.up && ours then s.readRow ctx addr else s)

/-! ### The BAR0 view (R396, R621, R622, R625) -/

/-- The registers of its own block that context `c` may write through its view. -/
def bar0Own (c a : Nat) : Bool :=
  [F.CTXn_SQ_TAIL, F.CTXn_CQ_HEAD, F.CTXn_IRQ_CAUSE_COMPLETION, F.CTXn_IRQ_MASK_COMPLETION, F.CTXn_FAULT_RWP, F.CTXn_PEER].any
    fun f => a == f.addr c 0

/-- Class code and device ID of the PCIe endpoint (R395). -/
def pcieClass : Nat := 0x048000
def pcieDevice : Nat := 0x6400

/-- What a read of the 64 bytes at `off` in BAR2 of function `f` returns (R395): the command ring of context 2f + j at j MiB, its completion
ring 0x4_0000 above, and 0 where both contexts are bound elsewhere. No command of the table accesses BAR2 or BAR4. -/
def State.bar2Read (s : State) (f off : Nat) : Bytes :=
  let c := 2 * f + off / 2 ^ 20
  let k := off % 2 ^ 20 / 64
  if s.f F.CTXn_BIND_TRANSPORT (2 * f) != 1 && s.f F.CTXn_BIND_TRANSPORT (2 * f + 1) != 1 then zeros 64
  else if k < 4096 then (((s.ctx c).sq.find? fun q => q.1 == k).map fun q => q.2.entry).getD (zeros 64)
  else (((s.ctx c).cq.find? fun q => q.1 == k - 4096).map (·.2)).getD (zeros 64)

/-- BAR0_WRITE (R394, R396). -/
def execBar0Write (ctx : Fin 8) (addr : Nat) (value : Nat) (whole : Bool) (s : State) : Host.Outcome State Fault Refusal :=
  .next (if !(s.isHead && s.on iPCIE && s.pwr.pcieUp) then s
    else if !whole then (s.logAccess ctx addr 1).ageRwp ctx none
    else if bar0Own ctx addr then (s.plainWrite ctx none s.time.clock addr (value % 2 ^ 32)).ageRwp ctx none
    else if s.gatedReg addr then ((s.logAccess ctx addr 2).ctxFault F.CTXn_FAULT_RIGHTS ctx).ageRwp ctx none
    else
      let s := if decoded addr then s else s.logAccess ctx addr 0
      let s := if (blockOf addr).isSome then s.ctxFault F.CTXn_FAULT_RIGHTS ctx else s
      s.ageRwp ctx none)

/-- SQ_TAIL_WRITE (R394, R400). -/
def execSqTailWrite (ctx : Fin 8) (value : Nat) (s : State) : Host.Outcome State Fault Refusal :=
  .next (if s.pwr.up then (s.doorbell ctx value).ageRwp ctx none else s)
/-- CQ_HEAD_WRITE (R402). -/
def execCqHeadWrite (ctx : Fin 8) (value : Nat) (s : State) : Host.Outcome State Fault Refusal :=
  .next (if s.pwr.up then (s.cqHead ctx value).ageRwp ctx none else s)

end Sys2Proof.Machine
end

