-- ==== Sys2Proof/Machine/Commit.lean ====
section
/-! DEFINITION. What a commit must satisfy (R202, R204, R222, R472, R632): the state a set of writes would leave, and the checks
on it that a flock's vote, a TXEND and an ordinary ticket share, with the reason codes of Table 6-3. -/
set_option Elab.async false
namespace Sys2Proof.Machine

/-- The state that a set of writes would leave: stored fields and tables, without any action. -/
def State.shadow (s : State) (ws : List Wr) : State :=
  s.each ws fun s w => match w.table with
    | none =>
      let fs := (fieldsAt w.at_).filter fun f => f.acc == .rw || f.acc == .rwp
      s.setReg w.at_ (BitVec.ofNat 32 (writtenWord fs (s.reg w.at_).toNat (le w.value 0 4)))
    | some id => if id < 0xE00 then s.tableSet id w.at_ w.value else s

/-- The state that a set of writes would leave, under the timing that its registers name (R184). -/
def State.wouldBe (s : State) (ws : List Wr) : State :=
  let v := s.shadow ws
  v.onTime fun x => { x with epochs := ⟨v.f F.TIME_FRAME_RATE, v.f F.TIME_FRAME_SLOTS, v.f F.TIME_FRAME_PHASE⟩ :: x.epochs.tail }

/-- The first failing check of the state that a content leaves, over what is committed before it, and of the state that it leaves together
with the contents that may still come. What those fail by themselves is not the content's failure (DEDUCED, assumption 90). -/
def State.leftCode (s : State) (base ws others : List Wr) (check : State → Nat) : Nat :=
  let k := check (s.wouldBe (base ++ ws))
  let both := check (s.wouldBe (others ++ ws))
  if k != 0 then k else if both == check (s.wouldBe others) then 0 else both

/-- The writes include a register of an array. -/
def writesReg (ws : List Wr) (f : Fld) : Bool :=
  ws.any fun w => w.table.isNone && (match regAt w.at_ with
    | some (d, _) => d.base == f.base
    | none => false)

/-! ### Complement-protected pairs within a content (R632) -/

/-- Pairs of a content: the open ones as (offset, value, position). Every pair must be complete, by its complement within the
next 16 writes, in a context that may complete it. -/
def pairsIn (c : Nat) : Nat → List (Nat × Nat × Nat) → List Wr → Bool
  | _, opened, [] => opened.isEmpty
  | k, opened, w :: rest =>
    let v := le w.value 0 4
    if w.table.isSome then pairsIn c (k + 1) opened rest
    else if isRwp w.at_ then
      !(opened.any fun p => p.1 == w.at_) && pairsIn c (k + 1) ((w.at_, v, k) :: opened) rest
    else if isRwpHi w.at_ then
      match opened.find? fun p => p.1 == w.at_ - 4 with
      | none => false
      | some p => v == 2 ^ 32 - 1 - p.2.1 && decide (k ≤ p.2.2 + 16) && (c == 0 || p.1 == F.BOOT_CONFIRM.base) &&
          pairsIn c (k + 1) (opened.filter fun q => q.1 != p.1) rest
    else pairsIn c (k + 1) opened rest

/-! ### Second owners (R31, R46, R129, R301, R472) -/

/-- The lamps of a port's rectangle: left, top, right, bottom. -/
def State.portRect (s : State) (p : Nat) : Nat × Nat × Nat × Nat :=
  let u := s.f F.LAMP_PORTp_MAP0_U0 p
  let v := s.f F.LAMP_PORTp_MAP0_V0 p
  (u, v, u + s.portDX p * s.portDW p, v + s.portDY p * s.portDH p)

def rectsMeet (a b : Nat × Nat × Nat × Nat) : Bool :=
  decide (a.1 < b.2.2.1) && decide (b.1 < a.2.2.1) && decide (a.2.1 < b.2.2.2) && decide (b.2.1 < a.2.2.2)

/-- Enabled ports whose rectangles meet those of earlier enabled ports of their group (R301), with those ports. -/
def State.portOverlaps (s : State) : List (Nat × Nat × Nat) :=
  (List.range 16).flatMap fun p => if !(s.b F.LAMP_PORTp_CFG_ENABLE p) then [] else
    ((List.range p).filter fun q => s.b F.LAMP_PORTp_CFG_ENABLE q && s.portGroup q == s.portGroup p &&
      rectsMeet (s.portRect q) (s.portRect p)).map fun q => (4, p, q)

/-- The writes change which port serves which ring (R129, R136). -/
def writesMap (ws : List Wr) : Bool := writesReg ws F.RING_PORTMAP_MAP || writesReg ws F.RING_CFG_SINGLE

/-- The claims on the resources of one kind as (index, user), cut to those of the indexes that more than `most` users claim. -/
def overused (kind most : Nat) (claims : List (Nat × Nat)) : List (Nat × Nat × Nat) :=
  (claims.filter fun c => decide (most < (claims.filter fun d => d.1 == c.1).length)).map fun c => (kind, c.1, c.2)

/-- Ports of a single head that share a ring number and are known to link to the same side of a tile: they cannot be the two ends of one
closed ring (R128, R129). -/
def State.sameEnds (s : State) : List (Nat × Nat × Nat) :=
  let kind := fun p => s.f F.PORTn_PARTNER_INFO_KIND p
  let chain := fun p => decide (2 ≤ kind p) && s.ringPorts.any fun q => p != q && s.portRing p == s.portRing q && kind p == kind q
  if s.b F.RING_CFG_SINGLE then (s.ringPorts.filter chain).map fun p => (5, s.portRing p, p) else []

/-- The claims on resources that have more owners than they may: kind and index of XING_CONFLICT_INFO, and the user (R471, R475): 1
alarm, 2 ingest buffer (receivers 0 to 3, the only ones there are, flows 4 to 19), 3 Ethernet port that the mode does not give, 4 Lamp Bus port, 5 ring. A flow that
is disabled claims no port (DESIGN CHOICE, assumption 78), and a ring number that names two ports of a single head is a closed ring unless
`State.sameEnds` shows that it is not (DESIGN CHOICE, assumption 74). -/
def State.doubleOwners (s : State) : List (Nat × Nat × Nat) :=
  overused 1 1 (((List.range 16).filter fun k => s.f F.GPIOk_CFG_FUNC k == 2).map fun k => (s.f F.GPIOk_CFG_ALARM k, k)) ++
  if s.isHead then
    overused 2 1 (((List.range 16).filter fun l => s.b F.LAYERn_INGEST_ENABLE l).filterMap fun l =>
      match s.f F.LAYERn_INGEST_KIND l with
      | 1 => if s.f F.LAYERn_INGEST_INDEX l ≤ 3 then some (s.f F.LAYERn_INGEST_INDEX l, l) else none
      | 2 => some (4 + s.f F.LAYERn_INGEST_INDEX l, l)
      | _ => none) ++
    (((List.range 16).filter fun k => s.b F.STFLOWn_CTL_ENABLE k && decide (s.ethPorts ≤ s.f F.STFLOWn_CTL_PORT k)).map fun k =>
      (3, s.f F.STFLOWn_CTL_PORT k, k)) ++
    overused 5 (if s.b F.RING_CFG_SINGLE then 2 else 1) (s.ringPorts.map fun p => (s.portRing p, p)) ++ s.sameEnds
  else s.portOverlaps

/-- The first second owner that a content brings (R472): a claim that the state without it does not hold, be that the live state alone
or the live state with the content of the other flocks and transactions. -/
def State.newOwner (s : State) (ws others : List Wr) : Option (Nat × Nat) :=
  let without := (s.shadow others).doubleOwners
  let live := s.doubleOwners
  let own := (s.shadow ws).doubleOwners
  ((s.shadow (others ++ ws)).doubleOwners.find? fun c => !(without.contains c) || (own.contains c && !(live.contains c))).map fun c =>
    (c.1, c.2.1)

/-! ### Memory demand (R439, R446, R447) -/

/-- Lamps of the composed groups (R238). -/
def State.lampCount (s : State) : Nat := ((List.range 4).filter s.composed).foldl (fun a g => a + s.wp g * s.hp g) 0

/-- Bytes per frame that a tile stores for a layer (R256). -/
def State.storedPerFrame (s : State) (l : Nat) : Nat := (s.neededCells l).length * 480

/-- Demand by Table 13-5 in units of 10^-6 b/s, each term rounded up to one unit. -/
def State.demandUnits (s : State) : Nat :=
  let r := nth rateTable s.timing.code (60, 1)
  let scrub := if s.f F.MEM_SCRUB = 0 then 0 else ceilDiv (s.capacity * 8000000) (s.f F.MEM_SCRUB * 3600)
  if s.isTile then
    let st := (List.range 16).foldl (fun a l => a + s.storedPerFrame l) 0
    ceilDiv ((st * (1 + s.timing.slots) + s.lampCount * 52 * s.timing.slots) * r.1 * 8000000) r.2 + 4 * 10 ^ 15 + scrub
  else
    let written := (List.range 16).filter fun l => [1, 2, 5].contains (s.f F.LAYERn_INGEST_KIND l)
    s.admission + written.foldl (fun a l => a + s.rateUnits l) 0 + 8 * 10 ^ 16 + scrub

/-- MEM_DEMAND in MB/s, the part below 1 MB/s cut off (assumption 66). -/
def State.demand (s : State) : Nat := s.demandUnits / (8 * 10 ^ 12)

/-- The demand is above BUDGET percent of the peak bandwidth, 32 GB/s for each channel (R429, R447). -/
def State.overBudget (s : State) : Bool :=
  decide (s.f F.MEM_BUDGET * s.f F.MEM_CFG_CHANNELS * 32000 * (8 * 10 ^ 12) < s.demandUnits * 100)

/-- Buffer need of the layers (R439). -/
def State.bufferNeed (s : State) : Nat :=
  (List.range 16).foldl (fun a l =>
    if s.isTile then
      let cells := s.neededCells l
      a + 5 * (List.range (fmtPlanes (s.layerFmt l))).foldl (fun b p =>
        let ls := (cells.filter fun c => c.2.1 == p).map fun c => c.1
        match ls with
        | [] => b
        | x :: _ =>
          let lo := ls.foldl min x
          let hi := ls.foldl max x
          b + (hi - lo + 1) * (ceilDiv (planeBytes (s.layerFmt l) (s.layerW l) p) 64 * 64)) 0
    else if s.layerOn l && [1, 2, 5].contains (s.f F.LAYERn_INGEST_KIND l) then
      a + 3 * storedSize (s.layerFmt l) (s.layerW l) (s.layerH l)
    else a) 0

/-! ### Checks of the would-be state -/

/-- Format and size of layer `l` (R235). -/
def State.descriptorOk (s : State) (l : Nat) : Bool :=
  let w := s.layerW l
  let h := s.layerH l
  fmtOk (s.layerFmt l) && (if w == 0 && h == 0 then !(s.isHead && s.layerOn l) else sizeOk (s.layerFmt l) w h)

/-- INDEX in the range of its KIND (R31). -/
def State.indexOk (s : State) (l : Nat) : Bool :=
  !([1, 5].contains (s.f F.LAYERn_INGEST_KIND l)) || decide (s.f F.LAYERn_INGEST_INDEX l ≤ 3)

/-- A region of the correction region as (start, end). -/
def State.tableSpan (s : State) (g : Nat) : Nat × Nat :=
  let b := s.f F.CORR_GRPg_BASE g * 4096
  (b, b + s.wp g * s.hp g * 40)
def State.mapSpan (s : State) (g : Nat) : Nat × Nat :=
  let b := s.f F.LAMP_GRPg_DIAG_BASE g * 4096
  (b, b + s.wp g * s.hp g * 8)

def spansMeet (a b : Nat × Nat) : Bool := decide (a.1 < b.2) && decide (b.1 < a.2)

/-- Lamp tables of enabled groups lie within the region and apart (R274). -/
def State.tablesOk (s : State) : Bool :=
  let gs := (List.range 4).filter fun g => s.b F.COMP_GRPg_CTL_ENABLE g
  gs.all fun g => s.lampTableOk g && gs.all fun h => h == g || !(spansMeet (s.tableSpan g) (s.tableSpan h))

/-- Diagnostic maps of enabled groups lie within the region, apart from each other and from the lamp tables (R333). -/
def State.mapsOk (s : State) : Bool :=
  let gs := (List.range 4).filter s.lit
  gs.all fun g => decide ((s.mapSpan g).2 ≤ corrSize) && gs.all fun h =>
    (h == g || !(spansMeet (s.mapSpan g) (s.mapSpan h))) && !(s.b F.COMP_GRPg_CTL_ENABLE h && spansMeet (s.mapSpan g) (s.tableSpan h))

/-- Check rectangle `r` is neither empty nor outside its group (R329). -/
def State.checkRectOk (s : State) (r : Nat) : Bool :=
  let g := s.f F.LAMP_CRCr_CTL_GROUP r
  !(s.b F.LAMP_CRCr_CTL_ENABLE r) || (decide (s.f F.LAMP_CRCr_ORIGIN_U0 r < s.f F.LAMP_CRCr_EXTENT_U1 r) &&
    decide (s.f F.LAMP_CRCr_ORIGIN_V0 r < s.f F.LAMP_CRCr_EXTENT_V1 r) && decide (s.f F.LAMP_CRCr_EXTENT_U1 r ≤ s.wp g) &&
    decide (s.f F.LAMP_CRCr_EXTENT_V1 r ≤ s.hp g) && (!(s.isClone g) || s.b F.LAMP_CRCr_CTL_SOURCE r))

/-- The grid of group `g` has at most 4,096 lamps in each direction (R238; assumption 82). -/
def State.gridOk (s : State) (g : Nat) : Bool := decide (s.wp g ≤ 4096) && decide (s.hp g ≤ 4096)

/-- Clone group `g` is as R323 asks. -/
def State.cloneOk (s : State) (g : Nat) : Bool :=
  let q := s.f F.LAMP_GRPg_CFG_CLONE_SRC g
  !(s.isClone g) || (q != g && s.composed q && s.wp g == s.wp q && s.hp g == s.hp q)

/-- Port `p` is as R301 and R340 ask. -/
def State.portCfgOk (s : State) (p : Nat) : Bool :=
  let r := s.portRect p
  decide (s.portDX p * s.portDY p ≤ 64) &&
    (!(s.b F.LAMP_PORTp_CFG_ENABLE p) || (decide (r.2.2.1 ≤ s.wp (s.portGroup p)) && decide (r.2.2.2 ≤ s.hp (s.portGroup p))))

/-- The first failing check of a would-be tile (Table 6-3 code, 0 for none). -/
def State.tileCheck (s : State) (ws : List Wr) : Nat :=
  let gs := (List.range 4).filter fun g => s.b F.COMP_GRPg_CTL_ENABLE g
  if decide (1048576 < s.lampCount) then 1
  else if ws.any fun w => (List.range 4).any fun g => w.table == some (0x808 + g) && decide (s.wp g * s.hp g ≤ w.at_) then 3
  else if !((List.range 4).all s.gridOk) then 3
  else if !(gs.all s.mapOk) || !s.tileGeomOk || !(gs.all s.grpGeomOk) then 3
  else if !s.tablesOk || !s.mapsOk then 3
  else if !((List.range 4).all s.cloneOk) || !((List.range 16).all s.portCfgOk) || !((List.range 16).all s.checkRectOk) then 3
  else if ws.any fun w => w.table.isNone && (match regAt w.at_ with
      | some (d, _) => d.base == F.LAMP_PORTp_CFG_ENABLE.base && (bits (le w.value 0 4) 4 4 == 0 || decide (12 < bits (le w.value 0 4) 4 4))
      | none => false) then 3
  else 0

/-- A staged or grouped write of a layer's address or clip word on a head (R53, R55, R440). -/
def State.commitWordCheck (s : State) (w : Wr) : Nat :=
  if w.table.isSome then 0
  else match regAt w.at_ with
    | none => 0
    | some (d, l, _) =>
      let v := le w.value 0 4
      if d.base == F.LAYERn_ADDR_LO.base then
        let a := v / 4096 * 4096 + s.f F.LAYERn_ADDR_HI l * 2 ^ 32
        if s.stillOk a (s.layerFmt l) (s.layerW l) (s.layerH l) then 0 else 3
      else if d.base == F.LAYERn_CLIP_CLIP_ID.base then nth [0, 3, 1] (s.clipCheck l v) 0
      else 0

/-- The layer is bound to a clip that is not valid here (R53). -/
def State.clipUnbound (s : State) (l : Nat) : Bool :=
  s.b F.LAYERn_INGEST_ENABLE l && s.f F.LAYERn_INGEST_KIND l == 3 && (s.clip (s.f F.LAYERn_CLIP_CLIP_ID l)).isNone

/-- The directory entries that the checks of a content read on a head (R53, R55): of the clip words that start a clip, and of the layers that
it binds to one; `v`: the state that the content would leave. -/
def State.clipsRead (v : State) (ws : List Wr) : List Nat :=
  ws.filterMap fun w => if w.table.isSome then none
    else match regAt w.at_ with
      | some (d, l, _) =>
        if d.base == F.LAYERn_CLIP_CLIP_ID.base && v.f F.LAYERn_INGEST_KIND l == 3 && decide (1 ≤ bits (le w.value 0 4) 12 2) then
          some (bits (le w.value 0 4) 0 12)
        else if d.base == F.LAYERn_INGEST_ENABLE.base && v.b F.LAYERn_INGEST_ENABLE l && v.f F.LAYERn_INGEST_KIND l == 3 then
          some (v.f F.LAYERn_CLIP_CLIP_ID l)
        else none
      | none => none

/-- The checks of a content have read its directory entries: those whose complement does not match are reported (R51). -/
def State.clipsMet (s : State) (ws : List Wr) : State :=
  if s.isHead then s.each (((s.shadow ws).clipsRead ws).filter s.clipBroken) State.clipReport else s

/-- The first failing check of a would-be head. -/
def State.headCheck (s : State) (ws : List Wr) : Nat :=
  if !((List.range 16).all s.indexOk) then 3
  else if !((List.range 16).all s.layerTimingOk) then 1
  else if s.overAdmission then 1
  else if (List.range 16).any fun l => s.clipUnbound l && ws.any fun w => w.table.isNone && w.at_ == F.LAYERn_INGEST_ENABLE.addr l 0 then 1
  else (ws.map s.commitWordCheck).find? (· != 0) |>.getD 0

/-- The checks that the state left by the whole content `ws` decides. -/
def State.stateCheck (ws : List Wr) (v : State) : Nat :=
  let t := v.timing
  if !(timingOk t) then 1
  else if decide (v.f F.COMP_LEAD < 100) || decide (periodU t.code < usU (v.f F.COMP_LEAD) * t.slots) then 1
  else if v.isTile && decide (v.f F.COMP_LEAD ≤ v.f F.LAMP_TIMING_SWAP_LEAD) then 1
  else if !((List.range 16).all v.descriptorOk) then 3
  else if !((List.range 4).all v.bankOk) then 3
  else
    let k := if v.isTile then v.tileCheck ws else v.headCheck ws
    if k != 0 then k
    else if v.layerSize < v.bufferNeed || v.overBudget then 1
    else if (List.range 4).any fun n => !(v.fold n).loadBad.isEmpty && ws.any fun w =>
        w.table.isNone && w.at_ == F.FOLDn_CTL_ENABLE.addr n 0 && bitOf (le w.value 0 4) 1 then 4
    else 0

/-- BOOT_DL_CTL actions that the state of a download forbids (R527). -/
def State.dlForbids (s : State) (a v : Nat) : Bool :=
  a == F.BOOT_DL_CTL_BEGIN.base && ((bitOf v 0 && !(s.dlAllowed false)) || (bitOf v 2 && !(s.dlAllowed true)) ||
    ((bitOf v 1 || bitOf v 3) && (!s.boot.running || s.boot.forced)))

/-- Content of every flock that may still take effect, but for flock `id`, and of the transactions of every context but `c`. -/
def State.otherContent (s : State) (id : Nat) (c : Option Nat) : List Wr :=
  flockWrs (s.flocks.filter fun f => f.id != id && f.holds && !f.broken) ++
    (((List.range 8).filter fun k => some k != c).flatMap fun k => (nth s.txs k {}).content) ++
      s.txs.flatMap fun t => t.ended.flatMap fun e => e.content

/-- SWAP_LEAD is at or above COMP_LEAD (R314): the code of a state that is so, for writes that reach one of them. -/
def State.leadCode (ws : List Wr) (v : State) : Nat :=
  if v.isTile && (writesReg ws F.COMP_LEAD || writesReg ws F.LAMP_TIMING_SWAP_LEAD) &&
    decide (v.f F.COMP_LEAD ≤ v.f F.LAMP_TIMING_SWAP_LEAD) then 1 else 0

/-- The whole check of a content: the reason code and, for a second owner, the resource. `rival`: content that it must not meet
(R204); `others`: all other content (R314, R472); `base` and `firm`: content that takes effect before it, and that may (R202, R222). -/
def State.commitCheck (s : State) (c : Nat) (ws rival others base firm : List Wr) : Nat × Option (Nat × Nat) :=
  if !(pairsIn c 0 [] ws) then (3, none)
  else if wrsMeet ws rival then (2, none)
  else match s.newOwner ws others with
    | some o => (2, some o)
    | none =>
      let k := s.leftCode base ws firm (State.stateCheck ws)
      (if k != 0 then k else s.leftCode [] ws others (State.leadCode ws), none)

/-- The word that a list of tile writes (serial, offset, value) gives a register of a tile, the last first. -/
def tileWord (cfg : List (Nat × Nat × Nat)) (serial a : Nat) : Option Nat :=
  (cfg.find? fun w => w.1 == serial && w.2.1 == a).map fun w => w.2.2

/-- The registers of a tile that decide its configured lamps (R238, R323). -/
def lampReg (a : Nat) : Bool :=
  match regAt a with
  | some (d, _) => d.base == F.COMP_GRPg_SIZE_WP.base || d.base == F.COMP_GRPg_CTL_ENABLE.base || d.base == F.LAMP_GRPg_CFG_CLONE_EN.base
  | none => false

/-- The configured lamps of group `g` of a tile: a register that no write seen by the head has reached counts at its reset value
(DESIGN CHOICE, assumption 30). -/
def groupLamps (cfg : List (Nat × Nat × Nat)) (serial g : Nat) : Nat :=
  let field := fun (f : Fld) => bits ((tileWord cfg serial (f.addr g 0)).getD (resetWord false (f.addr g 0)).toNat) f.lo f.w
  if field F.COMP_GRPg_CTL_ENABLE == 0 || field F.LAMP_GRPg_CFG_CLONE_EN == 1 then 0
  else field F.COMP_GRPg_SIZE_WP * field F.COMP_GRPg_SIZE_HP

/-- The configured lamps of a tile. -/
def tileLamps (cfg : List (Nat × Nat × Nat)) (serial : Nat) : Nat := ((List.range 4).map (groupLamps cfg serial)).sum

/-- The sum of the configured lamps over all tiles after a set of flocks, the latest first (R19). -/
def State.wallLamps (s : State) (fs : List Flock) : Nat :=
  (s.wallTiles.map fun t => tileLamps (fs.flatMap Flock.lampCfg ++ s.ring.lampCfg) t.serial).sum

/-- A set of flocks would leave the wall beyond a limit of R19, R20 or R57. -/
def State.overLimits (s : State) (fs : List Flock) : Bool :=
  let v := s.wouldBe (flockWrs fs.reverse)
  !(timingOk v.timing) || v.overAdmission || decide (2 ^ 28 < s.wallLamps fs)

/-- The wall-wide limits that the bellwether evaluates at FLOCK_CALL (R206): over what is committed, and together with the flocks that are
called and undecided, which may commit first (DESIGN CHOICE, assumption 30). -/
def State.wallLimit (s : State) (f : Flock) : Bool :=
  let others := s.flocks.filter fun g => g.id != 0 && g.id != f.id
  s.overLimits (f :: others.filter Flock.due) ||
    s.overLimits (f :: others.filter fun g => g.due || (g.called && g.decided.isNone))

/-- The writes reach a register that decides the lamps of a tile. -/
def lampWrites (ws : List Wr) : Bool := ws.any fun w => w.table.isNone && lampReg w.at_

/-- A second owner that an ordinary ticket or transaction write would bring (R472). -/
def State.ticketOwner (s : State) (c : Nat) (ws : List Wr) : Option (Nat × Nat) :=
  if [F.GPIOk_CFG_FUNC, F.RING_PORTMAP_MAP, F.RING_CFG_SINGLE].any fun f => writesReg ws f then
    s.newOwner ws (s.otherContent 0 (some c))
  else none

/-- An ordinary ticket would break a limit, alone or with what is staged (R472): the lead of R314, or the lamps of a tile (R17). -/
def State.ticketLimit (s : State) (c : Nat) (ws : List Wr) : Bool :=
  s.isTile && (writesReg ws F.LAMP_TIMING_SWAP_LEAD || lampWrites ws) &&
    s.leftCode [] ws (s.otherContent 0 (some c)) (fun v =>
      if State.leadCode ws v != 0 then 1
      else if lampWrites ws && decide (1048576 < v.lampCount) then 1 else 0) != 0

/-- An ordinary ticket that would give a resource a second owner, or break a limit, takes no effect: the code it ends with. -/
def State.ticketCheck (s : State) (c : Nat) (ws : List Wr) : Nat × Option (Nat × Nat) :=
  match s.ticketOwner c ws with
  | some o => (2, some o)
  | none => (if s.ticketLimit c ws then 1 else 0, none)

/-- Demand, admission and budget registers of a commit that has taken effect (R57, R446, R447). -/
def State.commitRegs (s : State) : State :=
  let s := s.put F.MEM_DEMAND s.demand
  if s.isHead then s.setAdmission else s

end Sys2Proof.Machine
end

