-- ==== Sys2Proof/Machine/TileLatch.lean ====
section
/-! DEFINITION. Frame and slot latches of a tile (spec/07_composition.md, spec/08_lamp_correction.md): stored layer cells,
hurdles, poses, what applies at F_n, and the start of a slot. -/
set_option Elab.async false
namespace Sys2Proof.Machine

/-! ### Counts of cells and messages (R185, R633) -/

/-- The full count, near an instant under a timing, that a 32-bit count names. -/
def Timing.near (t : Timing) (c v : Nat) : Nat :=
  let n := t.countAt c
  ((n : Int) + seqDiff 32 v n).toNat

/-- A 32-bit count given under epoch `e`, mapped to the epoch of the frame being composed (R633); none for a later epoch. -/
def State.map32 (s : State) (e v : Nat) : Option Nat := s.frontCount e ((s.epochTiming e).near s.time.clock v)

/-- A committed flock that is still to apply and stages a timing. -/
def State.nextTiming (s : State) : Option Timing :=
  (s.flocks.filter Flock.due).findSome? fun f => s.stagedTiming f.content

/-- The count and epoch that the WALL_FRAME of a cell names: the nearer of the timing in force and that of a committed change
that is still to come. -/
def State.cellCount (s : State) (v : Nat) : Nat × Nat :=
  let e := s.f F.TIME_TEPOCH
  let dist := fun (t : Timing) => (seqDiff 32 v (t.countAt s.time.clock)).natAbs
  match s.nextTiming with
  | some t => if dist t < dist s.timing then (t.near s.time.clock v, (e + s.epochStep (some t)) % 256) else (s.timing.near s.time.clock v, e)
  | none => (s.timing.near s.time.clock v, e)

/-- The count of a stored frame under the epoch of the frame being composed; a frame of an epoch to come counts as it stands. -/
def State.frameCount (s : State) (fr : TFrame) : Nat := (s.frontCount fr.tepoch fr.frame).getD fr.frame

/-- The latch of a frame, by its count and epoch, has passed (R256). -/
def State.latchPassed (s : State) (m : Nat × Nat) : Bool :=
  match s.comp.latched with
  | some n => decide (0 < seqDiff 8 s.comp.latchEpoch m.2) || (m.2 == s.comp.latchEpoch && decide (m.1 ≤ n))
  | none => false

/-- Frame `a` comes before frame `b`: an older epoch, or the same and a lower count. -/
def TFrame.older (a b : TFrame) : Bool :=
  decide (seqDiff 8 a.tepoch b.tepoch < 0) || (a.tepoch == b.tepoch && decide (a.frame < b.frame))

/-! ### Stored layer frames (R256, R260) -/

/-- The called flock that stages a FORMAT or SRC_SIZE of layer `l`. -/
def State.reformat (s : State) (l : Nat) : Option Flock :=
  s.flocks.find? fun f => f.id != 0 && (f.st == 2 || f.st == 3 || f.st == 5) && f.content.any fun w =>
    w.table.isNone && (w.at_ == F.LAYERn_FORMAT.addr l 0 || w.at_ == F.LAYERn_SRC_SIZE_WIDTH.addr l 0)

/-- Keep at most 5 frames of a layer: the oldest that is not shown goes (R256). -/
def fiveFrames (shown : Option TFrame) (fs : List TFrame) : List TFrame :=
  if decide (fs.length ≤ (if shown.isSome then 4 else 5)) then fs
  else
    fs.filter fun f => fs.any fun g => g.older f

/-- A cell of layer `l` that the window has accepted is stored, unless the frame's latch has passed. -/
def State.storeCell (s : State) (l : Nat) (c : Bytes) : State :=
  let m := s.cellCount (cFrame c)
  if s.latchPassed m then s
  else
    let key := (cAddr c, cPlane c, cCell c, (cPayload c).take (cLength c))
    let y := s.tlayer l
    let old := (y.frames.find? fun f => f.frame == m.1 && f.tepoch == m.2).getD
      { frame := m.1, cells := [], tepoch := m.2
        staged := match s.reformat l with
          | some f => if f.st == 5 || decide (f.t ≤ m.1) then some f.id else none
          | none => none }
    let new := { old with cells := key :: old.cells.filter fun x => !(x.1 == key.1 && x.2.1 == key.2.1 && x.2.2.1 == key.2.2.1) }
    let rest := y.frames.filter fun f => !(f.frame == m.1 && f.tepoch == m.2)
    s.onTLayer l fun y => { y with frames := fiveFrames y.shown (rest ++ [new]) }

/-- A flock has been aborted: cells stored by its staged configuration are discarded (R260). -/
def State.dropStaged (s : State) (id : Nat) : State :=
  s.each (List.range 16) fun s l => s.onTLayer l fun y => { y with frames := y.frames.filter fun f => f.staged != some id }

/-! ### Hurdles (R261, R262) -/

/-- A hurdle message with its EFFECTIVE and VALUE under the epoch in force. -/
def State.hurdleNow (s : State) (h : HMsg) : Option (Nat × Nat × HMsg) :=
  match s.map32 h.tepoch h.effective, s.map32 h.tepoch h.value with
  | some e, some v => some (e, v, h)
  | _, _ => none

/-- The later of two messages: greater EFFECTIVE, then later in the tally order of stream 16. -/
def laterMsg (e t e' t' : Nat) : Bool := decide (e < e') || (e == e' && decide (0 < seqDiff 32 t' t))

/-- The hurdle in force at frame `n`, of some messages: EFFECTIVE, VALUE and the message. -/
def State.hurdleOf (s : State) (hs : List HMsg) (n : Nat) : Option (Nat × Nat × HMsg) :=
  (hs.filterMap s.hurdleNow).foldl (fun b h =>
    if n < h.1 then b
    else match b with
      | some x => if laterMsg x.1 x.2.2.tally h.1 h.2.2.tally then some h else b
      | none => some h) none

/-- The hurdle in force for frame `n` of layer `l`. -/
def State.hurdleAt (s : State) (l n : Nat) : Option (Nat × Nat × HMsg) := s.hurdleOf (s.tlayer l).hurdles n

/-- Of some messages, those in force at frame `n` or to come after it. -/
def State.hurdleKeep (s : State) (hs : List HMsg) (n : Nat) : List HMsg :=
  let h := s.hurdleOf hs n
  hs.filter fun x => match h, s.hurdleNow x with
    | some a, some b => !(laterMsg b.1 x.tally a.1 a.2.2.tally) || decide (n < b.1)
    | _, _ => true

/-- A head holds a hurdle message beside those in force and to come (R261). -/
def State.holdPost (s : State) (l : Nat) (h : HMsg) : State :=
  s.onTLayer l fun y => { y with posts := s.hurdleKeep (h :: y.posts) s.wallFrame }

/-- A HURDLE message (Table 7-6). -/
def hurdleMsg (l : Nat) (h : HMsg) : Bytes :=
  let b := mkMsg 32 [(0, 1, 0x20), (1, 1, l), (4, 4, h.value), (8, 4, h.effective), (12, 1, h.tepoch)]
  b ++ complement b

/-- Layout of R209: bytes 32 to 63 hold the complement of bytes 0 to 31. -/
def msgOk (kind : Nat) (p : Bytes) : Bool := le p 0 1 == kind && (p.drop 32).take 32 == complement (p.take 32)

/-- HURDLE arrives: a tile holds it, and one that comes after the latch of a frame it concerns with another value than the one used is
late (R262); a head keeps it for the day it takes authority. -/
def State.rxHurdle (s : State) (p : Bytes) (tally : Nat) : State :=
  let l := bits (le p 1 1) 0 4
  let h : HMsg := ⟨le p 4 4, le p 8 4, le p 12 1, tally⟩
  if !(msgOk 0x20 p) then s
  else if !s.isTile then s.holdPost l h
  else
    let s := s.onTLayer l fun y => { y with hurdles := h :: y.hurdles.filter fun x => x.tally != tally }
    match s.comp.latched with
    | none => s
    | some n =>
      let late := match s.hurdleNow h with
        | some x => decide (x.1 ≤ n) && (s.tlayer l).used != some x.2.1
        | none => false
      if late then
        (((s.inc F.COMP_HURDLE_LATE).flag F.COMP_STATUS_HURDLE_OOS).onComp fun c => { c with hurdleOos := true })
      else s

/-- HURDLE (R262). -/
def execHurdle (payload : Bytes) (tally : Nat) (s : State) : Host.Outcome State Fault Refusal :=
  .next (if s.pwr.up && s.on iLINK then s.rxHurdle payload tally else s)

/-- The bellwether processes a hurdle post accepted at `tau` (R261): the state, the result and DATA of its ticket. VALUE is given under epoch
`e` and goes out under the epoch in force (R633). The value that it must not precede is that of the last post (DEDUCED, assumption 82). -/
def State.postHurdle (s : State) (l value e tau : Nat) : State × Nat × Bytes :=
  let value := ((s.map32 e value).getD value) % 2 ^ 32
  let stale := match (s.tlayer l).posts.head?.bind s.hurdleNow with
    | some h => if seqDiff 32 value h.2.1 < 0 then some (h.1, h.2.1) else none
    | none => none
  match stale with
  | some x => (s.inc F.HURDLE_STALE, 3, mkMsg 8 [(0, 4, x.1), (4, 4, x.2)])
  | none =>
    let eff := s.timing.firstAt (tau + usU (s.f F.HURDLE_MARGIN) + usU (s.f F.COMP_LEAD))
    let h : HMsg := ⟨value, eff % 2 ^ 32, s.f F.TIME_TEPOCH, s.nextTally 16⟩
    ((s.holdPost l h).bwSend 16 0xFFFF (hurdleMsg l h), 0, mkMsg 4 [(0, 4, eff)])

/-- HURDLE_REPEAT_TIMER (R261): the value in force of each layer. -/
def execHurdleRepeatTimer (s : State) : Host.Outcome State Fault Refusal :=
  .next (if s.isBw && s.on iLINK then
    s.each (List.range 16) fun s l => match s.hurdleOf (s.tlayer l).posts s.wallFrame with
      | some h => s.bwSend 16 0xFFFF (hurdleMsg l h.2.2)
      | none => s
  else s)

/-! ### Camera poses (R283 to R285) -/

/-- The pose in force at frame `n`, of some messages: mapped EFFECTIVE and the message. -/
def State.poseOf (s : State) (ps : List PoseMsg) (n : Nat) : Option (Nat × PoseMsg) :=
  (ps.filterMap fun p => (s.map32 p.tepoch p.effective).map fun e => (e, p)).foldl (fun b h =>
    if n < h.1 then b
    else match b with
      | some x => if laterMsg x.1 x.2.tally h.1 h.2.tally then some h else b
      | none => some h) none

/-- The pose in force for camera `k` in frame `n`. -/
def State.poseAt (s : State) (k n : Nat) : Option (Nat × PoseMsg) := s.poseOf (nth s.comp.poses k []) n

/-- Of some messages, those in force at frame `n` or to come after it. -/
def State.poseKeep (s : State) (ps : List PoseMsg) (n : Nat) : List PoseMsg :=
  let h := s.poseOf ps n
  ps.filter fun x => match h, s.map32 x.tepoch x.effective with
    | some a, some e => !(laterMsg e x.tally a.1 a.2.tally) || decide (n < e)
    | _, _ => true

/-- A head holds a pose beside those in force and to come (R283). -/
def State.holdPose (s : State) (k : Nat) (p : PoseMsg) : State :=
  s.onComp fun c => { c with posePosts := modAt c.posePosts k fun l => s.poseKeep (p :: l) s.wallFrame }

/-- Two poses give the same position and validity. -/
def samePose (a b : PoseMsg) : Bool := a.valid == b.valid && a.x == b.x && a.y == b.y && a.z == b.z

/-- A POSE message (Table 8-4). -/
def poseMsg (k : Nat) (p : PoseMsg) : Bytes :=
  let b := mkMsg 32 [(0, 1, 0x21), (1, 1, k + 4 * b2n p.valid), (4, 4, p.effective), (8, 4, p.x), (12, 4, p.y), (16, 4, p.z),
    (20, 1, p.tepoch)]
  b ++ complement b

/-- POSE arrives: as for a hurdle, against the last slot latched for its camera (R284). -/
def State.rxPose (s : State) (b : Bytes) (tally : Nat) : State :=
  let k := bits (le b 1 1) 0 2
  let p : PoseMsg := ⟨bitOf (le b 1 1) 2, le b 4 4, le b 8 4, le b 12 4, le b 16 4, le b 20 1, tally⟩
  if !(msgOk 0x21 b) then s
  else if !s.isTile then s.holdPose k p
  else
    let s := s.onComp fun c => { c with poses := modAt c.poses k fun l => p :: l.filter fun x => x.tally != tally }
    match nth s.comp.poseSlot k none, s.map32 p.tepoch p.effective with
    | some n, some e =>
      let same := (nth s.comp.poseUsed k none).any fun u => samePose u p
      if decide (e ≤ n) && !same then
        ((s.inc F.CORR_POSE_LATE).flag F.CORR_STATUS_POSE_OOS).onComp fun c => { c with poseOos := modAt c.poseOos k fun _ => true }
      else s
    | _, _ => s

/-- POSE (R284). -/
def execPose (payload : Bytes) (tally : Nat) (s : State) : Host.Outcome State Fault Refusal :=
  .next (if s.pwr.up && s.on iLINK then s.rxPose payload tally else s)

/-- The bellwether processes a pose post accepted at `tau` (R283): the state and DATA of its ticket. -/
def State.postPose (s : State) (k : Nat) (valid : Bool) (x y z tau : Nat) : State × Bytes :=
  let t := s.timing
  let slot := k * (periodU t.code / t.slots)
  let eff := t.firstAt (tau + usU (s.f F.CORR_POSE_CFG_POSE_MARGIN) + usU (s.f F.COMP_LEAD) - slot)
  let p : PoseMsg := ⟨valid, eff % 2 ^ 32, x, y, z, s.f F.TIME_TEPOCH, s.nextTally 16⟩
  ((s.holdPose k p).bwSend 16 0xFFFF (poseMsg k p), mkMsg 4 [(0, 4, eff)])

/-- POSE_REPEAT_TIMER (R283): the pose in force of each camera. -/
def execPoseRepeatTimer (s : State) : Host.Outcome State Fault Refusal :=
  .next (if s.isBw && s.on iLINK then
    s.each (List.range 4) fun s k => match s.poseOf (nth s.comp.posePosts k []) s.wallFrame with
      | some p => s.bwSend 16 0xFFFF (poseMsg k p.2)
      | none => s
  else s)

/-! ### Applying a flock's content -/

/-- A write that belongs to composition, correction or the folds: on a tile it applies at the frame latch before T (R214). -/
def compPart (w : Wr) : Bool :=
  match w.table with
  | some id => decide (id < 0xE00)
  | none => match blockOf w.at_ with
    | some 6 => !(decide (w.at_ < 0x201000) && decide (0xC0 ≤ w.at_ % 256))
    | some b => b == 15 || (decide (2 ≤ b) && decide (b ≤ 5))
    | none => false

/-- A layer's address or clip word of a flock: on a head its commit has been taken at the latch point of the frame of T, so only the
register follows (R33, R36). None for another register. -/
def State.layerWrite (s : State) (a v : Nat) : Option State :=
  match regAt a with
  | some (d, l, _) =>
    if d.base == F.LAYERn_ADDR_LO.base then some (s.when s.isHead fun s => s.storeAddr l v)
    else if d.base == F.LAYERn_CLIP_CLIP_ID.base then some (s.when s.isHead fun s => s.storeClip l v)
    else none
  | none => none

/-- One write of a flock's content takes effect now: no latch holds it back; timing registers are left to the change of timing,
and the words of a pair to its completion (R632). -/
def State.applyWr (s : State) (c : Nat) (w : Wr) : State :=
  let v := le w.value 0 4
  match w.table with
  | some id => if id < 0xE00 then s.tableSet id w.at_ w.value else s.tableWrite c none s.time.clock id w.at_ w.value
  | none =>
    if s.gatedReg w.at_ || w.at_ == F.TIME_FRAME_RATE.base || w.at_ == F.TIME_FRAME_PHASE.base || isRwp w.at_ then s
    else if isRwpHi w.at_ then s.rwpEffect none (w.at_ - 4) (2 ^ 32 - 1 - v)
    else if isFoldCtl w.at_ then
      match regAt w.at_ with
      | some (_, i, j) => (s.foldCtl ⟨c, none, i, j, v, (s.reg w.at_).toNat⟩ 0).storeReg c none w.at_ v (fun f => f.lo == 4) false
      | none => s
    else match s.layerWrite w.at_ v with
      | some s => s
      | none => match s.ownWrite c none s.time.clock w.at_ v with
        | some s => s
        | none => s.storeReg c none w.at_ v (fun _ => true) true

/-- Apply the writes of a content that `p` selects, in order. -/
def State.applyWrs (s : State) (c : Nat) (ws : List Wr) (p : Wr → Bool) : State :=
  s.each (ws.filter p) fun s w => s.applyWr c w

/-! ### The frame latch (R237, R258 to R263) -/

/-- The committed flocks that apply first, and their content. -/
def State.firstDue (s : State) : List Flock :=
  let fs := s.flocks.filter fun f => f.due && !f.latched
  match (fs.map s.applyInstant).min? with
  | some t => fs.filter fun f => s.applyInstant f == t
  | none => []

/-- The flocks whose composition part applies at this latch, the frame it latches and the instant of its swap: the first frame shown
from T is latched by the timing and COMP_LEAD that those flocks commit, and until then no frame from T on is (R258). What carries the time of
the latch itself still comes before it (R10). -/
def State.latchFrameNow (s : State) : List Flock × Nat × Nat :=
  let fs := s.firstDue
  let ws := fs.flatMap fun f => f.content
  let t := (s.stagedTiming ws).getD s.timing
  let n := t.countAt (s.time.clock + usU (bits (s.stagedReg ws F.COMP_LEAD.base) 0 16) - 1)
  if !fs.isEmpty && (fs.any fun f => decide (s.applyInstant f ≤ t.swapAt n)) then (fs, n, t.swapAt n)
  else
    let n := s.frontTiming.countAt (s.time.clock + usU (s.f F.COMP_LEAD) - 1)
    let n := match fs with
      | f :: _ => min n (s.frontTiming.firstAt (s.applyInstant f) - 1)
      | [] => n
    ([], n, s.frontTiming.swapAt n)

/-- What of a flock fails its check at this use; `bad`: IDs, and what of them fails (R218). -/
def Flock.fails (f : Flock) (bad : List (Nat × FlockPart)) : Option FlockPart := (bad.find? fun b => b.1 == f.id % shelf).map (·.2)

/-- A flock that this node voted READY for fails a check at a use (R218): with bad staged content it applies nothing; with a bad record it
acts as if no outcome had been received, and the next repetition rebuilds the record. Either way T finds it OUT_OF_STEP. -/
def State.flockFault (s : State) (id : Nat) (part : FlockPart) : State :=
  let s := s.each (List.range 16) fun s l => s.onLayer l fun y => { y with next := y.next.filter fun x => x.id != id }
  match part with
  | .content => ((s.onFlock id fun f => { f with st := 7, broken := true }).flockEvent F.FLOCK_EVENT_STAGE_FAULT).flockRegs
  | .record => ((s.onFlock id fun f => { f with st := 7, applyAt := none }).flockEvent F.FLOCK_EVENT_RECORD_FAULT).flockRegs

/-- A flock meets its frame latch: it fails its check there, or its composition part is in force from now on. -/
def State.latchMark (s : State) (bad : List (Nat × FlockPart)) (f : Flock) : State :=
  match f.fails bad with
  | some part => s.flockFault f.id part
  | none => s.onFlock f.id fun x => { x with latched := true }

/-- The composition part of a flock applies at the latch of frame `n` (R214, R260): of a layer that it reformats, the frames before `n`
go. -/
def State.latchFlock (s : State) (n : Nat) (f : Flock) : State :=
  let s := s.applyWrs f.ctx f.content compPart
  let m := s.frameCount
  s.each (List.range 16) fun s l =>
    if f.content.any fun w => w.table.isNone && (w.at_ == F.LAYERn_FORMAT.addr l 0 || w.at_ == F.LAYERn_SRC_SIZE_WIDTH.addr l 0) then
      (s.onTLayer l fun y => { y with
        shown := none
        frames := (y.frames.filter fun x => decide (n ≤ m x)).map fun x => { x with staged := none } }).flag
          F.LAYERn_CSTAT_SHOWN_VALID false l
    else s

/-- At F_n every stored frame up to `n` whose own latch this is, or was, is complete or never will be (R256): a complete one stays a
candidate; of the others only frame `n` itself is left, to be counted as MISSED. -/
def State.judgeFrames (s : State) (l n : Nat) : State :=
  let m := s.frameCount
  let whole := fun (f : TFrame) => f.whole || s.frameComplete l f
  s.onTLayer l fun y => { y with
    frames := (y.frames.filter fun f => decide (n ≤ m f) || whole f).map fun f => if decide (m f ≤ n) then { f with whole := whole f } else f }

/-- The candidates of layer `l` at F_n: complete stored frames not after `n`, later than the one shown (R259). -/
def State.candidates (s : State) (l n : Nat) : List TFrame :=
  let m := s.frameCount
  (s.tlayer l).frames.filter fun f => f.whole && decide (0 ≤ seqDiff 32 n (m f)) && (match (s.tlayer l).shown with
    | some sh => decide (0 < seqDiff 32 (m f) (m sh))
    | none => true)

/-- The latest of some frames. -/
def State.latestFrame (s : State) (l : List TFrame) : Option TFrame :=
  l.foldl (fun (b : Option TFrame) f => match b with
    | some x => if 0 < seqDiff 32 (s.frameCount f) (s.frameCount x) then some f else b
    | none => some f) none

/-- Show a candidate, and free it and those before it; with none to show, candidates that the hurdle holds are counted (R259, R262). -/
def State.showFrame (s : State) (l : Nat) (cands : List TFrame) (best : Option TFrame) : State :=
  match best with
  | some b =>
    let gone := fun (f : TFrame) => cands.any (fun c => c.frame == f.frame && c.tepoch == f.tepoch) &&
      decide (seqDiff 32 (s.frameCount f) (s.frameCount b) ≤ 0)
    ((s.onTLayer l fun y => { y with shown := some b, frames := y.frames.filter fun f => !(gone f) }).put F.LAYERn_SHOWN
      b.frame l).flag F.LAYERn_CSTAT_SHOWN_VALID true l
  | none => if cands.isEmpty then s else (s.inc F.LAYERn_HURDLE_HELD l).flag F.LAYERn_CSTAT_HELD true l

/-- Frame `n` itself is discarded and counted when it is not complete (R256). -/
def State.missFrame (s : State) (l n : Nat) : State :=
  let part := fun (f : TFrame) => s.frameCount f == n && !f.whole
  if (s.tlayer l).frames.any part then
    ((s.onTLayer l fun y => { y with frames := y.frames.filter fun f => !(part f) }).inc F.LAYERn_MISSED l).flag
      F.LAYERn_CSTAT_MISSED true l
  else s

/-- Choose the shown frame of layer `l` at F_n (R259). -/
def State.chooseFrame (s : State) (l n : Nat) : State :=
  let s := s.judgeFrames l n
  let h := s.hurdleAt l n
  let keep := s.hurdleKeep (s.tlayer l).hurdles n
  let s := s.onTLayer l fun y => { y with used := h.map fun x => x.2.1, hurdles := keep }
  let s := (s.flag F.LAYERn_CSTAT_HURDLE_VALID h.isSome l).put F.LAYERn_HURDLE ((h.map fun x => x.2.1).getD 0) l
  let s := s.flag F.LAYERn_CSTAT_WINDOW_BAD (!(s.windowOk l)) l
  let s := (s.flag F.LAYERn_CSTAT_HELD false l).flag F.LAYERn_CSTAT_MISSED false l
  if !(s.b F.LAYERn_CTL_ENABLE l) then s
  else
    let cands := s.candidates l n
    let ok := cands.filter fun f => !(s.b F.LAYERn_CTL_HURDLE_EN l) || (match h with
      | some x => decide (0 ≤ seqDiff 32 x.2.1 (s.frameCount f))
      | none => false)
    (s.showFrame l cands (s.latestFrame ok)).missFrame l n

/-- A new current-gain code goes to every driver, for the SWAP of the first slot it applies to (R292, R321). -/
def State.sendGain (s : State) : State :=
  if some s.comp.gain == s.lamp.gainSent then s
  else
    (s.each s.lampPorts fun s p => s.queueLamp p (ownFrame 3 (gainSet 0xFF s.comp.gain 0))).onLamp fun x =>
      { x with gainSent := some s.comp.gain }

/-- The Lamp Bus at a frame latch: a group in a hold is judged (R326), and a group that has an LSYNC output from now on, beside those
of `lit`, has its first edge with a slot to come (R312), and gets BLANK if it is blanked (R324). -/
def State.lampLatch (s : State) (lit : List Nat) : State :=
  (s.each (List.range 4) fun s g => s.onLGroup g fun x => { x with
    ready := s.groupConfirmed g false, edge := if lit.contains g then x.edge else s.time.clock
    blankSent := x.blankSent && lit.contains g }).lampStatus

/-- FRAME_LATCH: committed flocks and waiting writes apply, folds switch programs, every layer's frame, the dimming and the
geometry of frame `n` are fixed. -/
def State.frameLatch (s : State) (bad : List (Nat × FlockPart)) : State :=
  let q := s.latchFrameNow
  let n := q.2.1
  let e := (s.f F.TIME_TEPOCH + s.epochStep ((s.stagedTiming (flockWrs q.1)).or s.stagedFront)) % 256
  if s.comp.latched == some n && s.comp.latchEpoch == e then s
  else
    let lit := (List.range 4).filter s.lit
    let s := s.each q.1 fun s f => s.latchMark bad f
    let s := s.each (q.1.filter fun f => (f.fails bad).isNone) fun s f => s.latchFlock n f
    let by_ := q.2.2 - usU (s.f F.COMP_LEAD)
    let s := (s.applyLatch by_).each (List.range 4) fun s k => s.foldLatch by_ k
    let s := s.each (List.range 16) fun s l => s.chooseFrame l n
    let s := (s.dimSelect.geometryCheck).onComp fun c => { c with latched := some n, latchEpoch := s.frontEpoch, hurdleOos := false }
    ((s.lampLatch lit).flag F.COMP_STATUS_HURDLE_OOS false)

/-- `bad`: the flocks that fail a check of R218. -/
def execFrameLatch (bad : List (Nat × FlockPart)) (s : State) : Host.Outcome State Fault Refusal :=
  .next (if s.isTile && s.pwr.up && s.time.stepped then s.frameLatch bad else s)

/-! ### The slot latch (R263, R264, R283 to R285, R353) -/

/-- The pose of camera `k` for the slot it governs (R284, R285). -/
def State.latchPose (s : State) (n k : Nat) : State :=
  let h := s.poseAt k n
  let keep := s.poseKeep (nth s.comp.poses k []) n
  let s := s.onComp fun c => { c with
    poses := modAt c.poses k fun _ => keep
    poseUsed := modAt c.poseUsed k fun _ => h.map (·.2)
    poseFrame := modAt c.poseFrame k fun _ => (h.map (·.1)).getD 0
    poseSlot := modAt c.poseSlot k fun _ => some n
    poseOos := modAt c.poseOos k fun _ => false }
  let s := s.put F.CORR_STATUS_NO_POSE (setBits (s.f F.CORR_STATUS_NO_POSE) k 1 (b2n (s.slotPose n k).isNone))
  let s := s.flag F.CORR_STATUS_POSE_OOS (s.comp.poseOos.any id)
  match h with
  | some x => (((s.put F.CORR_CAMc_X x.2.x k).put F.CORR_CAMc_Y x.2.y k).put F.CORR_CAMc_Z x.2.z k).put F.CORR_CAMc_EFFECTIVE
      x.2.effective k
  | none => s

/-- Start of slot `k` of frame `n`: every pipeline empty, the pose of its camera, and a run on each fold that is RUNNING; an EXCESS tile
composes nothing (R18). -/
def State.slotLatch (s : State) (n k : Nat) : State :=
  let start := s.frontTiming.slotAt n k
  let s := s.onComp fun c => { c with slot := some (n, k), slotAt := start, closed := false, pastDeadline := false, dropped := false, clipped := 0 }
  let s := s.onLamp fun l => { l with swapSent := false, checks := [], pushed := [] }
  let s := s.each (List.range 16) fun s l => s.flag F.LAYERn_CSTAT_COVERS false l
  let s := (s.latchPose n k).sendGain
  s.each (List.range 4) fun s f =>
    let s := (s.applyStop f).onFold f fun x => { x with began := false }
    if s.foldState f == 1 && !(s.b F.RING_TILE_STATUS_EXCESS) then s.startRun f n k (start - usU (s.f F.LAMP_TIMING_SWAP_LEAD)) else s

/-- SLOT_LATCH: the slot follows from the clock and the frame latched. -/
def execSlotLatch (s : State) : Host.Outcome State Fault Refusal :=
  .next (match s.comp.latched with
    | none => s
    | some n =>
      let t := s.frontTiming
      let at_ := s.time.clock + usU (s.f F.COMP_LEAD)
      let k := (at_ - t.swapAt n) / (periodU t.code / t.slots)
      if s.isTile && s.pwr.up && decide (t.swapAt n ≤ at_) && decide (k < t.slots) && s.comp.slot != some (n, k) then s.slotLatch n k
      else s)

end Sys2Proof.Machine
end

