-- ==== Sys2Proof/Machine/Flocks.lean ====
section
/-! DEFINITION. Flocks (spec/06_flocks.md): opening, staging, calling, voting, outcomes and acknowledgements on the bellwether and
on every node. -/
set_option Elab.async false
namespace Sys2Proof.Machine

/-! ### Messages (Table 6-2) -/

/-- A flock message: 32 bytes and their complement. -/
def flockMsg (kind : Nat) (fs : List (Nat × Nat × Nat)) : Bytes :=
  let b := mkMsg 32 ((0, 1, kind) :: fs)
  b ++ complement b

/-- The whole seconds of an instant modulo 2^32, and its nanoseconds. -/
def secs32 (t : Nat) : Nat := t / secU 1 % 2 ^ 32
def nanos (t : Nat) : Nat := t / nsU % 10 ^ 9

/-- The instant near the node clock that 32-bit seconds and nanoseconds name. -/
def State.instant32 (s : State) (sec ns : Nat) : Nat :=
  let now := s.time.clock / secU 1
  secU (((now : Int) + seqDiff 32 sec now).toNat) + ns * nsU

def Flock.openMsg (f : Flock) (serial : Nat) : Bytes :=
  flockMsg 0x13 [(1, 1, b2n f.exclusive), (2, 2, f.id), (4, 1, f.ctx), (8, 8, serial)]

def Flock.callMsg (f : Flock) : Bytes :=
  flockMsg 0x10 [(1, 1, b2n f.exclusive + 2 * b2n f.txMark.isNone + 4 * b2n f.mgmtMark.isNone), (2, 2, f.id), (4, 8, f.t),
    (12, 4, secs32 f.dv), (16, 4, nanos f.dv), (20, 4, f.txMark.getD 0), (24, 4, f.mgmtMark.getD 0), (28, 2, f.guard),
    (30, 2, f.parts.length)]

/-- COMMIT or ABORT, as the bellwether repeats it (R213). -/
def Flock.outcomeMsg (f : Flock) : Bytes :=
  if f.decided == some true then
    flockMsg 0x11 [(2, 2, f.id), (4, 8, f.t), (12, 2, f.guard), (14, 2, min 65535 f.repeats)]
  else flockMsg 0x12 [(2, 2, f.id), (4, 1, f.reason), (8, 8, f.node)]

/-- The last tally sent on a stream, none before the first (R209, R210): after a takeover, and until this head sends, the last one that it
knows of the other head. -/
def State.lastTally (s : State) (stream : Nat) : Option Nat :=
  (s.ring.tallies.find? fun p => p.1 == stream).map fun p =>
    match s.ring.jumped.find? fun j => j.1 == stream && j.2.1 == p.2 with
    | some j => j.2.2
    | none => (p.2 + 2 ^ 32 - 1) % 2 ^ 32

/-- A participant sends a stream-32 message: a tile both ways, a head to the other head (R209). -/
def State.sendVote (s : State) (m : Bytes) : State :=
  if s.isTile then s.tileSend 32 s.tileAddr m else s.headSend 32 m

/-! ### Records -/

/-- FLOCK_STATUS.OUT_OF_STEP, with OOS_ENTERED when it becomes 1 (R215, R226). -/
def State.setOos (s : State) (b : Bool) : State :=
  let was := s.b F.FLOCK_STATUS_OUT_OF_STEP
  let s := s.flag F.FLOCK_STATUS_OUT_OF_STEP b
  if b && !was then s.flockEvent F.FLOCK_EVENT_OOS_ENTERED else s

/-- Free the slot of a record. -/
def State.dropFlock (s : State) (id : Nat) : State :=
  (s.onFlocks fun l => l.map fun (f : Flock) => if f.id == id then { id := 0, st := 0 } else f).flockRegs

/-- Participants at this moment (R207): the heads in BELLWETHER or STANDBY and the enumerated tiles in service. -/
def State.participants (s : State) : List Nat :=
  let sb := match s.ring.peer with
    | some h => if h.state == hsStandby || h.state == hsBellwether then [h.serial] else []
    | none => []
  s.serial :: sb ++ (s.wallTiles.filter fun t => !t.outOfService).map TileRec.serial

/-- The outcome of a retired flock stays for the tickets that still name it (R199). -/
def State.keepOutcome (s : State) (f : Flock) : State :=
  s.onHost fun h => { h with
    retired := (⟨f.id, f.decided == some true, f.reason, f.t, f.node⟩ :: h.retired).filter fun g =>
      (h.journal ++ h.peerJournal).any fun r => (r.st == 1 || r.st == 2) && eFlock r.entry == g.id }

/-- Retire a decided flock once every awaited participant has acknowledged it (R200, R213): its ID is free, and its record goes when this
node has done with it. -/
def State.retire (s : State) (id : Nat) : State :=
  match s.flock id with
  | some f =>
    if s.isBw && f.decided.isSome && (s.awaited f).all f.acks.contains then
      (if f.st == 8 || f.st == 6 then (s.keepOutcome f).dropFlock id else (s.keepOutcome f).shelve id)
    else s
  | none => s

/-- A participant has left the wall (R133, R213): the flocks that awaited it alone are retired. -/
def State.retireAll (s : State) : State := (s.each (s.flocks.map Flock.id) State.retire).flockRegs

/-- A retired flock, as far as its outcome goes. -/
def Retired.flock (r : Retired) : Flock :=
  { id := r.id, st := 6, decided := some r.commit, reason := r.reason, t := r.t, node := r.node }

/-- The flock of an ID, else a retired one of it. -/
def State.flockOrRetired (s : State) (id : Nat) : Option Flock :=
  (s.flock id).or ((s.host.retired.find? fun r => r.id == id).map Retired.flock)

/-! ### The bellwether's decision (R211 to R213) -/

/-- DATA of a ticket of a decided flock (Table 12-4): outcome, reason, ID; for FLOCK_CALL also T and the refusing node. -/
def Flock.outcomeData (f : Flock) (call : Bool) : Bytes :=
  mkMsg (if call then 24 else 4) ([(0, 1, b2n (f.decided != some true)), (1, 1, f.reason), (2, 2, f.id)] ++
    if call then [(8, 8, f.t), (16, 8, f.node)] else [])

/-- A ticket of a decided flock completes with the outcome. -/
def State.finishOutcome (s : State) (f : Flock) (c t : Nat) : State :=
  s.finish c t f.reason (f.outcomeData (match s.jrec c t with
    | some r => eOp r.entry == 0x11
    | none => false))

/-- The tickets of the other head that wait for the outcome of a flock (R220, R414). -/
def State.peerTickets (s : State) (id : Nat) : List (Nat × Nat) :=
  (s.host.peerJournal.filter fun r => r.st == 2 && r.handoff && eFlock r.entry == id && (isStaged r.entry || eOp r.entry == 0x11)).map
    fun r => (8 + r.ctx, r.ticket)

/-- Complete the tickets of a decided flock; on the bellwether also those of the other head. -/
def State.finishFlock (s : State) (f : Flock) : State :=
  (s.each (f.tickets ++ if s.isBw then s.peerTickets f.id else []) fun s t => s.finishOutcome f t.1 t.2).onFlock f.id fun f =>
    { f with tickets := [] }

/-- A head that has handed the bellwether over completes its own tickets of a flock with the outcome that it hears (R213). -/
def State.hearOutcome (s : State) (id : Nat) (commit : Bool) (reason node : Nat) : State :=
  match s.flock id with
  | some f => if s.isBw || f.tickets.isEmpty then s
    else s.finishFlock { f with decided := some commit, reason := reason, node := node }
  | none => s

/-- The swap instant from which the content of a flock is in force, if it commits. -/
def State.forceFrom (s : State) (f : Flock) : Nat := (s.epochTiming f.tepoch).swapAt (f.applyAt.getD f.t)

/-- With a COMMIT the tiles get INGEST_ADMIT as it will be from T on, for this flock and for those committed for a later instant (R76). -/
def State.sendAdmits (s : State) (f : Flock) : State :=
  let fs := f :: s.flocks.filter fun g => g.id != f.id && g.due
  s.each (fs.filter fun g => decide (s.forceFrom f ≤ s.forceFrom g)) fun s g =>
    s.sendAdmit (g.id % shelf) ((s.wouldBe (flockWrs (fs.filter fun h => decide (s.forceFrom h ≤ s.forceFrom g)))).admitTotal)

/-- Decide a flock: send the outcome, complete its tickets. -/
def State.decideFlock (s : State) (id : Nat) (commit : Bool) (reason node : Nat) : State :=
  match s.flock id with
  | none => s
  | some f =>
    if f.decided.isSome then s
    else
      let parts := if f.parts.isEmpty then s.participants else f.parts
      let s := s.onFlock id fun f => { f with decided := some commit, reason := reason, node := node, parts := parts, repeats := 0 }
      let s := if commit then s.sendAdmits f else s
      (match s.flock id with
        | some f => (s.bwSend 16 0xFFFF f.outcomeMsg).finishFlock f
        | none => s).flockRegs

/-! ### A participant and its outcome (R214 to R217) -/

/-- The acknowledgement of an outcome; a head counts its own at once, for the day it takes authority (R220). -/
def State.sendAck (s : State) (id : Nat) (commit noRec late : Bool) (n : Nat) : State :=
  let m := flockMsg 2 [(1, 1, b2n (!commit) + 2 * b2n noRec + 4 * b2n late), (2, 2, id), (4, 8, n), (20, 8, s.serial)]
  let s := if s.isHead then s.onFlock id fun f => { f with acks := if f.acks.contains s.serial then f.acks else s.serial :: f.acks } else s
  if s.isBw then s else s.sendVote m

/-- The layers of a head whose ingest configuration a content changes (R33). -/
def State.ingestLayers (s : State) (ws : List Wr) : List Nat :=
  let v := s.shadow ws
  let own := fun l => ws.any fun w => w.table.isNone && ([F.LAYERn_INGEST_ENABLE, F.LAYERn_SEND_LEAD, F.LAYERn_FORMAT,
    F.LAYERn_SRC_SIZE_WIDTH].any fun f => w.at_ == f.addr l 0)
  let flow := fun l (x : State) => x.b F.LAYERn_INGEST_ENABLE l && x.f F.LAYERn_INGEST_KIND l == 2 && ws.any fun w =>
    w.table.isNone && (w.at_ == F.ETH_MODE_MODE.base || (decide (0x340100 + x.f F.LAYERn_INGEST_INDEX l * 0x40 ≤ w.at_) &&
      decide (w.at_ < 0x340100 + x.f F.LAYERn_INGEST_INDEX l * 0x40 + 0x30)))
  (List.range 16).filter fun l => own l || flow l s || flow l v

/-- The register writes of a content, as the words they leave. -/
def State.contentRegs (s : State) (ws : List Wr) : List (Nat × Word) :=
  let v := s.shadow ws
  (ws.filter fun w => w.table.isNone && (fieldsAt w.at_).any fun f => f.acc == .rw).map fun w => (w.at_, v.reg w.at_)

/-- The content holds ingest configuration (R32), or a layer's format or size (R33). -/
def ingestContent (ws : List Wr) : Bool :=
  [F.LAYERn_INGEST_ENABLE, F.LAYERn_SEND_LEAD, F.LAYERn_FORMAT, F.LAYERn_SRC_SIZE_WIDTH, F.ETH_MODE_MODE].any (writesReg ws) ||
    ws.any fun w => w.table.isNone && decide (F.STFLOWn_CTL_ENABLE.addr 0 0 ≤ w.at_) && decide (w.at_ < F.STFLOWn_CTL_ENABLE.addr 16 0) &&
      decide (w.at_ % 0x40 < 0x30)

/-- A configuration is added after those that apply before it or with it. -/
def addNext (x : NextCfg) : List NextCfg → List NextCfg
  | [] => [x]
  | y :: rest => if x.at_ < y.at_ then x :: y :: rest else y :: addNext x rest

/-- A content holds a commit of the layer's address or clip word. -/
def layerCommits (ws : List Wr) (l : Nat) : Bool :=
  ws.any fun w => w.table.isNone && (w.at_ == F.LAYERn_ADDR_LO.addr l 0 || w.at_ == F.LAYERn_CLIP_CLIP_ID.addr l 0)

/-- A head that holds COMMIT prepares its layers: the ingest configuration that the flock changes, from the frame of T on, and the
commits that it stages, which apply to that frame (R33, R36). A change of the timing concerns every layer. -/
def State.prepareLayers (s : State) (f : Flock) (t : Nat) : State :=
  let ls := s.ingestLayers f.content
  let x : NextCfg := { id := f.id, at_ := t, regs := s.contentRegs f.content, timing := s.stagedTiming f.content, ingest := true }
  s.each (List.range 16) fun s l =>
    if ls.contains l || layerCommits f.content l || x.timing.isSome then
      s.onLayer l fun y => { y with next := addNext { x with ingest := ls.contains l } y.next }
    else s

/-- What a node does on first holding COMMIT of a flock it voted READY for (R214, R215, R529). -/
def State.holdCommit (s : State) (f : Flock) (t guard : Nat) : State :=
  let now := s.time.clock
  let instant := (s.epochTiming f.tepoch).swapAt t
  let late := decide (instant < now + usU guard)
  let n := if late then s.timing.firstAt (now + usU guard) else t
  let e := if late then s.f F.TIME_TEPOCH else f.tepoch
  let s := s.onFlock f.id fun x => { x with
    st := if late then 7 else 5, t := t, guard := guard, applyAt := some n, tepoch := e, late := late }
  let s := if late then s.flockEvent F.FLOCK_EVENT_LATE_OUTCOME else s
  let s := if s.isHead then s.prepareLayers f ((s.epochTiming e).swapAt n) else s
  match f.go with
  | some v => if s.scopeSelects v then s.addJob { kind := .intent f.id, units := s.activationUnits } else s
  | none => s

/-- Newer lamp writes over older ones: those of the same register of the same tile go. -/
def overLamps (new old : List (Nat × Nat × Nat)) : List (Nat × Nat × Nat) :=
  new ++ old.filter fun w => !(new.any fun v => v.1 == w.1 && v.2.1 == w.2.1)

/-- A head keeps the tiles' lamp counts that a committed flock leaves (R19). -/
def State.keepLamps (s : State) (id : Nat) : State :=
  match s.flock id with
  | some f => (s.onRing fun r => { r with lampCfg := overLamps f.lampCfg r.lampCfg }).onFlock id fun f => { f with lampCfg := [] }
  | none => s

/-- A node with no record of its vote answers an outcome (R217): NO_RECORD, and STALE_CONFIG for a COMMIT. -/
def State.ackNoRecord (s : State) (id : Nat) (commit : Bool) (t : Nat) : State :=
  ((s.when commit fun s => s.flag F.FLOCK_STATUS_STALE_CONFIG).flockEvent F.FLOCK_EVENT_NO_RECORD).sendAck id commit true false
    (if commit then t else 0)

/-- The content of a flock that the node has not voted on is discarded at its outcome (R217). A tile keeps no record; a head keeps the
outcome, which it repeats if it takes authority (R213, R220): as ABORTED in its slot, whatever the outcome (assumption 90). -/
def State.discardUnvoted (s : State) (f : Flock) (commit : Bool) (t reason node : Nat) : State :=
  let s := s.dropStaged f.id
  let s := if f.st != 6 then s.inc F.FLOCK_ABORTS else s
  if s.isHead then
    let parts := if f.parts.isEmpty then s.participants else f.parts
    s.onFlock f.id fun x => { x with
      st := 6, t := t, reason := reason, node := node, content := [], quiet := 0, decided := some commit, parts := parts, unvoted := true }
  else s.dropFlock f.id

/-- A node receives COMMIT (R214, R215, R217). -/
def State.takeCommit (s : State) (id t guard : Nat) : State :=
  let s := (s.hearOutcome id true 0 0).keepLamps id
  let s := match s.flock id with
    | none => s.ackNoRecord id true t
    | some f =>
      if f.voted then
        let s := if f.applyAt.isSome || f.st == 8 || f.st == 4 || f.broken then s else s.holdCommit f t guard
        let s := s.onFlock id fun x => { x with quiet := 0, decided := some true }
        let g := (s.flock id).getD f
        s.sendAck id true false g.late (g.applyAt.getD t)
      else (s.discardUnvoted f true t 0 0).ackNoRecord id true t
  s.flockRegs

/-- A node receives ABORT (R216, R217). -/
def State.takeAbort (s : State) (id reason node : Nat) : State :=
  let s := s.hearOutcome id false reason node
  let s := match s.flock id with
    | none => s.ackNoRecord id false 0
    | some f =>
      if !s.isBw && (f.unvoted || f.st == 1 || f.st == 2) then (s.discardUnvoted f false f.t reason node).ackNoRecord id false 0
      else
        let s := s.dropStaged id
        let s := if f.st != 6 then s.inc F.FLOCK_ABORTS else s
        (s.onFlock id fun x => { x with
          st := 6, reason := reason, node := node, content := [], applyAt := none, quiet := 0
          decided := some false }).sendAck id false false false 0
  (s.flockRegs).retire id

/-- The bellwether decides and is the first to hold its own outcome. -/
def State.decideOwn (s : State) (id : Nat) (commit : Bool) (reason node : Nat) : State :=
  match s.flock id with
  | some f =>
    if f.decided.isSome then s
    else
      let s := s.decideFlock id commit reason node
      if commit then (s.takeCommit id f.t f.guard).retire id else s.takeAbort id reason node
  | none => s

/-- What the votes held decide (R211): COMMIT or not, the reason and the node; `last`: the grace has ended. -/
def Flock.verdict (f : Flock) (last : Bool) : Option (Bool × Nat × Nat) :=
  let sent := fun p => ((f.targets.find? fun t => t.1 == p).map (·.2)).getD 0
  let missing := f.parts.filter fun p => !(f.votes.any fun v => v.serial == p)
  match f.votes.find? fun v => !v.ready with
  | some v => some (false, v.reason, v.serial)
  | none => match f.votes.find? fun v => v.staged != sent v.serial with
    | some v => some (false, 5, v.serial)
    | none =>
      if missing.isEmpty then some (true, 0, 0)
      else if last then some (false, 6, missing.foldl min (missing.headD 0))
      else none

/-- At the end of the grace an outcome that an ACK has named binds, whatever the votes (R220). An ACK of an ABORT names no reason: it is that
of the votes where they give one, else TIMEOUT (assumption 90). -/
def Flock.settled (f : Flock) : Option (Bool × Nat × Nat) :=
  match f.ackSaid with
  | some true => some (true, 0, 0)
  | some false => match f.verdict true with
    | some (false, v) => some (false, v)
    | _ => some (false, 6, 0)
  | none => f.verdict true

/-- Judge a called flock (R211); `last`: the grace has ended. One that was called when this head took authority waits for it (R220). -/
def State.judge (s : State) (id : Nat) (last : Bool) : State :=
  match s.flock id with
  | none => s
  | some f =>
    if !s.isBw || !f.called || f.decided.isSome || (f.taken && !last) then s
    else match if last then f.settled else f.verdict false with
      | some v => s.decideOwn id v.1 v.2.1 v.2.2
      | none => s

/-- A participant's vote is counted or ignored (R211): a standby keeps the votes it sees for a takeover (R220). -/
def State.countVote (s : State) (id : Nat) (v : Vote) (at_ : Nat) : State :=
  match s.flock id with
  | none => s
  | some f =>
    if f.called && f.parts.contains v.serial && !(f.votes.any fun x => x.serial == v.serial) then
      if decide (at_ ≤ f.dv) && decide (s.time.clock ≤ f.dv + usU (s.f F.FLOCK_VOTE_GRACE)) then
        ((s.onFlock id fun f => { f with votes := f.votes ++ [v] }).flockRegs).judge id false
      else if s.isBw then s.inc F.FLOCK_LATE_VOTES
      else s
    else s

/-! ### Opening and staging (R199 to R205) -/

/-- The next flock ID: ascending from the last one, skipping those in use (R200). -/
def State.newFlockId (s : State) : Nat :=
  let after := fun k => (s.host.lastFlock + k) % 4095 + 1
  (((List.range 4095).map after).find? fun i => (s.flock i).isNone).getD 0

/-- FLOCK_OPEN executes on the bellwether (R200, R201): the state and the ID. -/
def State.openFlock (s : State) (c : Nat) (exclusive : Bool) : State × Nat :=
  let id := s.newFlockId
  let f : Flock := { id := id, exclusive := exclusive, ctx := c, own := true, opener := s.serial }
  let s := (s.onHost fun h => { h with lastFlock := id }).holdFlock f
  (s.bwSend 16 0xFFFF (f.openMsg s.serial), id)

/-- OPEN arrives (R201): a flock that a staged write has opened here takes its context and EXCLUSIVE from it. A record of an earlier flock
of the same ID, whose ID is free (R200), gives way; one that is still to apply is kept aside. -/
def State.rxOpen (s : State) (p : Bytes) : State :=
  if !(msgOk 0x13 p) then s
  else
    let id := le p 2 2
    let s := match s.flock id with
      | some f => if f.st == 1 then s else if f.due then s.shelve id else (s.dropStaged id).dropFlock id
      | none => s
    let s := (s.onHost fun h => { h with lastFlock := id }).holdFlock { id := id }
    (s.onFlock id fun f => { f with exclusive := bitOf (le p 1 1) 0, ctx := le p 4 1, opener := le p 8 8 }).flockRegs
def execFlockOpenRx (payload : Bytes) (s : State) : Host.Outcome State Fault Refusal :=
  .next (if s.pwr.up && s.on iLINK then s.rxOpen payload else s)

/-- Register and table writes that a command entry and its payload spell (Table 12-4): REG_WRITE (opcode 1) or TABLE_WRITE (2). -/
def State.entryWrs (s : State) (e pay : Bytes) : List Wr :=
  if eOp e == 1 then
    let k := le e 24 1
    let src := if k == 0 then pay else e.drop 28
    (List.range (if k == 0 then eLen e / 8 else k)).map fun k => ⟨none, le src (8 * k) 4, (src.drop (8 * k + 4)).take 4⟩
  else
    match s.tableShape (le e 24 2) with
    | some sh => tableWrs (le e 24 2) (le e 28 4) sh.1 pay
    | none => []

/-- What the items of a staged write decide on arrival (R202, R631). -/
def State.itemsCheck (ws : List Wr) : Nat :=
  let k := wrsCheck ws
  if k != 0 then k
  else if ws.any fun w => w.table.isNone && (valueBad w.at_ (le w.value 0 4) || !(decoded w.at_)) then 3 else 0

/-- What a staged write alone decides on this node (R202, R212): a table that a node of this role lacks is STATE, an entry past the end of
its table RANGE. -/
def State.stagedCheck (s : State) (e pay : Bytes) : Nat :=
  if eOp e == 1 then State.itemsCheck (s.entryWrs e pay)
  else match s.tableShape (le e 24 2) with
    | none => 8
    | some z => if tablePast (le e 24 2) z.2 (le e 28 4) (pay.length / z.1) then 3 else State.itemsCheck (s.entryWrs e pay)

/-- The targets of a staged write: the serials that receive it. -/
def State.stageTargets (s : State) (target : Nat) : List Nat :=
  if target == 0xFFFF then s.wallTiles.map TileRec.serial
  else if target == 0xFFFE then s.serial :: ((s.ring.peer.map fun h => h.serial).toList)
  else (s.wallTiles.filter fun t => t.hop + 256 * t.ring == target).map TileRec.serial

/-- What writes give the tile of a serial for its lamp count, newest first (R19). -/
def lampEntries (p : Nat) (ws : List Wr) : List (Nat × Nat × Nat) :=
  (ws.filter fun w => w.table.isNone && lampReg w.at_).reverse.map fun w => (p, w.at_, le w.value 0 4)

/-- Count a staged write, for the flock and for each of its targets, and keep what it writes of their lamp counts (R19). -/
def State.noteTargets (s : State) (id target : Nat) (ws : List Wr) : State :=
  (s.onFlock id fun f => { f with sent := f.sent + 1 }).each (s.stageTargets target) fun s p => s.onFlock id fun f => { f with
    lampCfg := lampEntries p ws ++ f.lampCfg
    targets := (p, ((f.targets.find? fun t => t.1 == p).map (·.2)).getD 0 + 1) :: f.targets.filter fun t => t.1 != p }

/-- A staged write reaches this node as a target: held, counted and checked. -/
def State.stageHere (s : State) (id c : Nat) (e pay : Bytes) : State :=
  let ws := s.entryWrs e pay
  let s := (s.holdFlock { id := id, ctx := c }).onFlock id fun f => { f with received := f.received + 1 }
  let s := match s.flock id with
    | some f => if f.st == 1 then s.stage id ws (s.stagedCheck e pay) else s
    | none => s
  s.flockRegs

/-- A stream-19 staged write: the model's own framing of kind, context, flock, entry and payload (R202). -/
def stagedMsg (id c : Nat) (e pay : Bytes) : Bytes := mkMsg 8 [(0, 1, 1), (1, 1, c), (2, 2, id)] ++ (e ++ zeros 64).take 64 ++ pay

/-- INGEST_ADMIT reaches a tile (R76): for a flock that it holds and that is still to apply, else the value in force. -/
def State.rxAdmit (s : State) (id mb : Nat) : State :=
  let waits := match s.flock id with
    | some f => f.st != 8
    | none => false
  if !s.isTile then s
  else if waits then s.onFlock id fun f => { f with admitMb := some mb }
  else if id == 0 then (s.onLink fun l => { l with admitted := mb }).judgeRates
  else s

/-- The bellwether sends a staged write to its targets, and stages its own part (R202). -/
def State.stageSend (s : State) (c : Nat) (e pay : Bytes) : State :=
  let id := eFlock e
  let s := s.bwSend 19 (eTarget e) (stagedMsg id c e pay)
  let s := if eTarget e == 0xFFFE then s.stageHere id c e pay else s
  s.noteTargets id (eTarget e) (s.entryWrs e pay)

/-- A stream-19 message arrives: its targets hold it; the standby also counts it for every target (R220). -/
def State.rxStaged (s : State) (addr : Nat) (p : Bytes) : State :=
  let id := le p 2 2
  if le p 0 1 == 2 then s.rxAdmit id (le p 4 4)
  else
  let e := (p.drop 8).take 64
  let mine := if s.isTile then addr == 0xFFFF || addr == s.tileAddr else addr == 0xFFFE
  let s := if mine then s.stageHere id (le p 1 1) e (p.drop 72) else s
  if s.isHead then ((s.holdFlock { id := id, ctx := le p 1 1 }).noteTargets id addr (s.entryWrs e (p.drop 72))).flockRegs else s

/-- STAGED_WRITE_RX (R202): the message reaches a node that it addresses. -/
def execStagedWriteRx (payload : Bytes) (s : State) : Host.Outcome State Fault Refusal :=
  .next (if s.pwr.up && s.on iLINK then s.rxStaged (eTarget ((payload.drop 8).take 64)) payload else s)

/-! ### FLOCK_CALL (R206, R207) -/

/-- T: the earliest swap instant under the bounds of R206, as a wall frame count of the timing in force. -/
def State.callFrame (s : State) (f : Flock) (dv guard notBefore : Nat) : Nat :=
  let grace := usU (s.f F.FLOCK_VOTE_GRACE)
  let n0 := s.timing.firstAt (dv + 2 * grace + usU 20 + usU guard)
  let ls := s.ingestLayers f.content
  let v := s.withRegs (s.contentRegs f.content)
  let tm := (s.stagedTiming f.content).getD s.timing
  let need := fun (x : State) l => dv + grace + usU 20 + usU (x.f F.LAYERn_SEND_LEAD l)
  let n1 := ls.foldl (fun a l => max a (s.timing.firstAt (need s l + s.vblank l))) n0
  let n2 := ls.foldl (fun a l => max a (s.timing.firstAt (need v l + periodU tm.code * v.f F.LAYERn_INGEST_VBLANK l / 256))) n1
  max n2 notBefore

/-- The place of the next CALL among those of the flocks that the node holds (R204). -/
def State.nextOrder (s : State) : Nat := s.flocks.foldl (fun m f => max m f.order) 0 + 1

/-- FLOCK_CALL executes on the bellwether: it aborts with LIMIT (R206) or CONFLICT (R203), or sends CALL. -/
def State.callFlock (s : State) (id notBefore : Nat) (ticket : Nat × Nat) : State :=
  match s.flock id with
  | none => s.finish ticket.1 ticket.2 8 []
  | some f =>
    let s := s.onFlock id fun f => { f with tickets := f.tickets ++ [ticket] }
    let busy := s.flocks.any fun g => g.inUse && g.id != id && g.called && (g.exclusive || f.exclusive)
    if s.wallLimit f then s.decideOwn id false 1 0
    else if busy then s.decideOwn id false 2 0
    else
      let dv := s.time.clock + usU (s.f F.FLOCK_VOTE_WINDOW)
      let guard := s.f F.FLOCK_GUARD
      let t := s.callFrame f dv guard notBefore
      let s := s.onFlock id fun f => { f with
        st := 2, called := true, t := t, tepoch := s.f F.TIME_TEPOCH, dv := dv, guard := guard, order := s.nextOrder
        txMark := s.lastTally 19, mgmtMark := s.lastTally 20, parts := s.participants }
      let s := match s.flock id with
        | some f => s.bwSend 16 0xFFFF f.callMsg
        | none => s
      s.flockRegs

/-- FLOCK_CANCEL executes: an undecided flock is aborted with HOST (R199). -/
def State.cancelFlock (s : State) (id : Nat) : State :=
  match s.flock id with
  | some f => if f.decided.isNone then s.decideOwn id false 7 0 else s
  | none => s

/-- FLOCK_OPEN_TIMEOUT (R205). -/
def execFlockOpenTimeout (flock : Nat) (s : State) : Host.Outcome State Fault Refusal :=
  .next (match s.flock flock with
    | some f =>
      if s.isBw && f.st == 1 && !f.called && decide (f.openedAt + secU (s.f F.FLOCK_OPEN_LIMIT) < s.time.clock) then
        s.decideOwn flock false 6 0
      else s
    | none => s)

/-! ### Voting (R203, R204, R210, R528) -/

/-- The record of a flock has failed its check at a use (R218): before the vote the node will refuse with FAULT; after a READY vote it acts as
if no outcome had been received, and the next repetition rebuilds the record. -/
def State.recordBad (s : State) (id : Nat) : State :=
  match s.flock id with
  | none => s
  | some f =>
    if f.st == 1 || f.st == 2 then
      (s.onFlock id fun x => { x with failure := some (x.failure.getD 4) }).flockEvent F.FLOCK_EVENT_RECORD_FAULT
    else if f.voted && (f.st == 3 || f.st == 5 || f.st == 7) then s.flockFault id .record
    else s.flockEvent F.FLOCK_EVENT_RECORD_FAULT

/-- CALL arrives (R210): after D_v, or on a node that is no participant, it is not acted on. -/
def State.rxCall (s : State) (p : Bytes) : State :=
  let fl := le p 1 1
  let id := le p 2 2
  let dv := s.instant32 (le p 12 4) (le p 16 4)
  let st := s.f F.RING_STATUS_STATE
  let out := if s.isTile then s.b F.RING_TILE_STATUS_EXCESS || s.f F.RING_TILE_STATUS_HOP == 0 else st != hsBellwether && st != hsStandby
  if !(msgOk 0x10 p) || decide (dv < s.time.clock) || out then s
  else
    let s := s.holdFlock { id := id, exclusive := bitOf fl 0 }
    let parts := if s.isHead then s.participants else []
    (s.onFlock id fun f => if f.st != 1 then f else { f with
      st := 2, called := true, exclusive := bitOf fl 0, t := le p 4 8, tepoch := s.f F.TIME_TEPOCH, dv := dv, guard := le p 28 2
      order := s.nextOrder
      txMark := if bitOf fl 1 then none else some (le p 20 4), mgmtMark := if bitOf fl 2 then none else some (le p 24 4)
      parts := parts }).flockRegs

/-- CALL (R210); `bad`: the record that it finds fails its check (R218). -/
def execCallMsg (payload : Bytes) (bad : Bool) (s : State) : Host.Outcome State Fault Refusal :=
  .next (if s.pwr.up && s.on iLINK then
    (s.when (bad && msgOk 0x10 payload) fun s => s.recordBad (le payload 2 2)).rxCall payload
  else s)

/-- Every cell of a stream up to a mark has been delivered or declared lost (R210). -/
def State.markPassed (s : State) (stream : Nat) (mark : Option Nat) : Bool :=
  match mark with
  | none => true
  | some m =>
    if s.isBw then true
    else if s.isHead then decide (0 ≤ seqDiff 32 (s.nextTally stream) (m + 1))
    else (s.win stream 0).synced && decide (0 ≤ seqDiff 32 (s.win stream 0).next (m + 1))

/-- Whether the node's part of an activation may go ahead (R528): 0, or the reason. -/
def State.activationCheck (s : State) (f : Flock) : Nat :=
  match f.go with
  | none => 0
  | some v =>
    if !(s.scopeSelects v) then 0
    else
      let a := 1 - s.f F.BOOT_STATUS_SLOT
      let h := slotHeader s a
      let bit := if s.isTile then 0 else 1
      if s.f F.BOOT_DL_STATUS_STATE != 2 || le h 8 4 != s.stagedReg f.content F.BOOT_ACT_VERSION.base || s.trialPending ||
          s.boot.forced || !(s.b F.BOOT_DL_STATUS_PREPARED) || !(bitOf (le h 7 1) bit) || decide (le h 6 1 < s.boot.otp.counter) then 8
      else if f.guard < 10000 then 1
      else if !(s.b F.THERM_STATUS_WINDOW_OPEN) then 9
      else 0

/-- Content that a flock's own must not meet (R204): that of the flocks whose CALL reached the node before, neither applied nor discarded. -/
def State.rivals (s : State) (f : Flock) : List Wr :=
  flockWrs (s.flocks.filter fun g => g.id != 0 && g.called && decide (g.order < f.order) && g.holds && !g.broken)

/-- Content in force at the T of a flock: that of the flocks committed for that instant or an earlier one (R202). -/
def State.baseContent (s : State) (f : Flock) : List Wr :=
  flockWrs (s.flocks.filter fun g => g.id != f.id && g.due && decide (s.applyInstant g ≤ s.forceFrom f))

/-- Content of the other flocks that this node has voted READY for (R202). -/
def State.firmContent (s : State) (f : Flock) : List Wr :=
  flockWrs (s.flocks.filter fun g => g.id != f.id && g.id != 0 && g.voted && g.holds && !g.broken)

/-- The reason with which the state of the download, of the calibration area or of the OTP forbids a content (R521, R527), 0 for none. -/
def State.forbidden (s : State) (c : Nat) (ws : List Wr) : Nat :=
  ws.foldl (fun a w => if a != 0 then a else match w.table with
    | some id =>
      if id == 0xE00 || id == 0xE30 then s.dlRefusal (id == 0xE30) c w.at_ w.value
      else if (id == 0xE40 || id == 0xE41) && !(s.otpWriteOk id w.at_) then 8 else 0
    | none => if s.dlForbids w.at_ (le w.value 0 4) then 8 else 0) 0

/-- The commit of a content needs a flash or OTP write (R210): of a table that flash or OTP holds, by BOOT_DL_CTL, or by the completed
pair of LC_TRANSITION, SEC_REVOKE or BOOT_CONFIRM. -/
def needsWrite (ws : List Wr) : Bool :=
  ws.any fun w => match w.table with
    | some id => [0xE00, 0xE10, 0xE30, 0xE40, 0xE41].contains id
    | none => [F.LC_TRANSITION.base, F.SEC_REVOKE.base, F.BOOT_CONFIRM.base].contains w.at_ ||
      (w.at_ == F.BOOT_DL_CTL_BEGIN.base && le w.value 0 4 % 16 != 0)

/-- A staged timing or activation needs an EXCLUSIVE flock (R203). -/
def Flock.needsExclusive (f : Flock) : Bool :=
  f.go.isSome || f.content.any fun w => w.table.isNone && (w.at_ == F.TIME_FRAME_RATE.base || w.at_ == F.TIME_FRAME_PHASE.base)

/-- The reason for a refusal, 0 for READY (R202 to R205, R210, R528); with the resource of a second owner. -/
def State.voteReason (s : State) (f : Flock) (bad : Bool) : Nat × Option (Nat × Nat) :=
  match f.failure with
  | some r => (r, none)
  | none =>
    if f.needsExclusive && !f.exclusive then (8, none)
    else
      let k := s.commitCheck f.ctx f.content (s.rivals f) (s.otherContent f.id none) (s.baseContent f) (s.firmContent f)
      let go := s.activationCheck f
      if k.1 != 0 then k
      else if s.forbidden f.ctx f.content != 0 then (s.forbidden f.ctx f.content, none)
      else if f.lost then (5, none)
      else if f.foldVotes.any fun v => !v.2 then (10, none)
      else if bad then (4, none)
      else if go != 0 then (go, none)
      else (if needsWrite f.content && !(s.b F.THERM_STATUS_WINDOW_OPEN) then 9 else 0, none)

/-- Send the vote of this node (R210), with its VOTE_TIME; a head also holds its own (R211, R220). -/
def State.castVote (s : State) (f : Flock) (reason now : Nat) : State :=
  let ready := reason == 0
  let s := s.onFlock f.id fun x => { x with
    voted := ready, st := if ready then 3 else 4, reason := reason, content := if ready then x.content else [] }
  let s := if ready then s else (s.dropStaged f.id).flockEvent F.FLOCK_EVENT_REFUSED
  let s := s.flockRegs
  let s := s.sendVote (flockMsg 1 [(1, 1, b2n (!ready)), (2, 2, f.id), (4, 1, reason), (8, 4, f.received), (12, 4, secs32 now),
    (16, 4, nanos now), (20, 8, s.serial)])
  if s.isHead then s.countVote f.id ⟨s.serial, ready, reason, f.received⟩ now else s

/-- The marked cells of a called flock have been delivered or declared lost (R210). -/
def State.marksPassed (s : State) (f : Flock) : Bool := s.markPassed 19 f.txMark && s.markPassed 20 f.mgmtMark

/-- The node chooses its vote and sends it with the given VOTE_TIME (R210); `bad`: what of the flock fails its check (R218). -/
def State.vote (s : State) (f : Flock) (bad : Option FlockPart) (now : Nat) : State :=
  let k := s.voteReason f bad.isSome
  let s := s.clipsMet f.content
  let s := match k.2 with
    | some o => s.logConflict o f.ctx true
    | none => s
  let s := if k.1 == 1 && (s.wouldBe f.content).overBudget then s.flag F.MEM_STATUS_BUDGET_REFUSED else s
  let s := if bad == some .record then s.flockEvent F.FLOCK_EVENT_RECORD_FAULT else s
  s.castVote f k.1 now

/-- VOTE_SEND (R210). -/
def execVoteSend (flock : Nat) (bad : Option FlockPart) (s : State) : Host.Outcome State Fault Refusal :=
  .next (match s.flock flock with
    | some f => if s.pwr.up && f.st == 2 && decide (s.time.clock ≤ f.dv) && s.marksPassed f then s.vote f bad s.time.clock else s
    | none => s)

/-- D_v has come and the node has not voted: at D_v itself a node whose marked cells are in may still vote (R10). -/
def State.voteOver (s : State) (f : Flock) : Bool :=
  f.st == 2 && (decide (f.dv < s.time.clock) || (f.dv == s.time.clock && !(s.marksPassed f)))

/-- VOTE_DEADLINE (R210): the vote carries D_v as its time, at the first tick that reaches it (R164). It is LOST while marked cells are out;
a node that has them all votes as it finds. `bad`: what of the flock fails its check (R218). -/
def execVoteDeadline (flock : Nat) (bad : Option FlockPart) (s : State) : Host.Outcome State Fault Refusal :=
  .next (match s.flock flock with
    | some f =>
      if !(s.pwr.up && s.voteOver f) then s
      else if s.marksPassed f then s.vote f bad f.dv
      else (s.when (bad == some .record) fun s => s.flockEvent F.FLOCK_EVENT_RECORD_FAULT).castVote f 5 f.dv
    | none => s)

/-- VOTE arrives at a head (R211). -/
def State.rxVote (s : State) (p : Bytes) : State :=
  if s.isHead && msgOk 1 p then
    s.countVote (le p 2 2) ⟨le p 20 8, !(bitOf (le p 1 1) 0), le p 4 1, le p 8 4⟩ (s.instant32 (le p 12 4) (le p 16 4))
  else s
def execVote (payload : Bytes) (s : State) : Host.Outcome State Fault Refusal :=
  .next (if s.pwr.up && s.on iLINK then s.rxVote payload else s)

/-- The later of D_v and the takeover, plus FLOCK_VOTE_GRACE, has passed (R10, R211, R220). -/
def State.graceOver (s : State) (f : Flock) : Bool :=
  decide (max f.dv s.ring.bwSince + usU (s.f F.FLOCK_VOTE_GRACE) < s.time.clock)

/-- VOTE_GRACE_EXPIRE (R211). -/
def execVoteGraceExpire (flock : Nat) (s : State) : Host.Outcome State Fault Refusal :=
  .next (match s.flock flock with
    | some f =>
      if s.graceOver f then s.judge flock true else s
    | none => s)

/-- TAKEOVER_DECIDE (R220): the flocks that were called and undecided when this head took authority. -/
def execTakeoverDecide (flock : Nat) (s : State) : Host.Outcome State Fault Refusal :=
  .next (match s.flock flock with
    | some f =>
      if f.taken && s.graceOver f then s.judge flock true else s
    | none => s)

/-! ### Outcomes (R213 to R217) -/

/-- An outcome finds a record that fails its check (R218): one that the node has voted READY by stays without an outcome until the next
repetition. -/
def State.outcomeLost (s : State) (id : Nat) (bad : Bool) : Bool :=
  bad && (s.flock id).any fun f => f.voted && (f.st == 3 || f.st == 5 || f.st == 7)

/-- COMMIT (R214, R215, R217); `bad`: the record that it finds fails its check (R218). -/
def execCommitMsg (payload : Bytes) (bad : Bool) (s : State) : Host.Outcome State Fault Refusal :=
  .next (let id := le payload 2 2
    if s.pwr.up && s.on iLINK && msgOk 0x11 payload && !s.isBw then
      let t := s.when bad fun s => s.recordBad id
      if s.outcomeLost id bad then t else t.takeCommit id (le payload 4 8) (le payload 12 2)
    else s)

/-- ABORT (R216, R217); `bad`: the record that it finds fails its check (R218). -/
def execAbortMsg (payload : Bytes) (bad : Bool) (s : State) : Host.Outcome State Fault Refusal :=
  .next (let id := le payload 2 2
    if s.pwr.up && s.on iLINK && msgOk 0x12 payload && !s.isBw then
      let t := s.when bad fun s => s.recordBad id
      if s.outcomeLost id bad then t else t.takeAbort id (le payload 4 1) (le payload 8 8)
    else s)

/-- FLOCK_GUARD_DEADLINE (R215): from T the node shows its old content and is OUT_OF_STEP. -/
def execFlockGuardDeadline (flock : Nat) (s : State) : Host.Outcome State Fault Refusal :=
  .next (match s.flock flock with
    | some f =>
      if f.st == 3 && f.voted && decide ((s.epochTiming f.tepoch).swapAt f.t < s.time.clock + usU f.guard) then
        (s.onFlock flock fun x => { x with st := 7 }).flockRegs
      else s
    | none => s)

/-- ACK arrives at a head (R213, R217, R220): a head that holds no decision keeps the outcome it names. -/
def State.rxAck (s : State) (p : Bytes) : State :=
  if !(s.isHead && msgOk 2 p) then s
  else
    let id := le p 2 2
    let ser := le p 20 8
    let commit := !(bitOf (le p 1 1) 0)
    ((s.onFlock id fun f => { f with
      acks := if f.acks.contains ser then f.acks else f.acks ++ [ser]
      ackSaid := if f.decided.isSome then f.ackSaid else some commit }).flockRegs).retire id
def execAck (payload : Bytes) (s : State) : Host.Outcome State Fault Refusal :=
  .next (if s.pwr.up && s.on iLINK then s.rxAck payload else s)

/-- FLOCK_RECORD_EXPIRE (R217). -/
def execFlockRecordExpire (flock : Nat) (s : State) : Host.Outcome State Fault Refusal :=
  .next (match s.flock flock with
    | some f =>
      if !s.isBw && (f.st == 8 || f.st == 6) && decide (16 ≤ f.quiet) then s.dropFlock flock else s
    | none => s)

/-- A message of stream 16, 20 or 32 by its KIND. -/
def State.rxControl (s : State) (p : Bytes) (tally : Nat) : State :=
  match le p 0 1 with
  | 0x10 => s.rxCall p
  | 0x11 => if msgOk 0x11 p then s.takeCommit (le p 2 2) (le p 4 8) (le p 12 2) else s
  | 0x12 => if msgOk 0x12 p then s.takeAbort (le p 2 2) (le p 4 1) (le p 8 8) else s
  | 0x13 => s.rxOpen p
  | 0x20 => s.rxHurdle p tally
  | 0x21 => s.rxPose p tally
  | _ => s

/-- A cell of stream 19 or 20 has been declared lost: flocks that are staging remember it (R210). -/
def State.noteLost (s : State) : State :=
  s.onFlocks fun l => l.map fun f => if f.id != 0 && (f.st == 1 || f.st == 2) then { f with lost := true } else f

end Sys2Proof.Machine
end

