-- ==== Sys2Proof/Machine/Swap.lean ====
section
/-! DEFINITION. Swap instants (R185 to R187, R214 to R216, R325), slot starts (R329), local transactions (R221 to R223), handback
and resynchronisation (R150, R151). -/
set_option Elab.async false
namespace Sys2Proof.Machine

/-! ### Local transactions -/

/-- TXBEGIN executes (R221, R222). -/
def State.txBegin (s : State) (c t boundary frame tepoch : Nat) : State :=
  ((s.onTx c fun x => { ended := x.ended, opened := true, boundary := boundary, frame := frame, tepoch := tepoch, tickets := [t]
                        openedAt := s.time.clock }).handOff c t).txRegs c

/-- A write joins the open transaction, in shadow (R222): what it alone decides is found on arrival. -/
def State.txWrite (s : State) (c t : Nat) (ws : List Wr) : State :=
  let k := State.itemsCheck ws
  ((s.onTx c fun x => { x with
    content := x.content ++ ws, tickets := x.tickets ++ [t]
    failure := match x.failure with
      | some r => some r
      | none => if k == 0 then none else some k }).handOff c t).txRegs c

/-- Close the open transaction: its tickets end with `reason` (R223). -/
def State.txDrop (s : State) (c reason : Nat) : State :=
  let ts := (s.tx c).tickets
  let s := (s.onTx c fun x => { ended := x.ended }).put F.FLOCK_TXc_STATUS_REASON reason c
  (s.finishAll (ts.map fun t => (c, t)) reason []).txRegs c

/-- One write of a group takes effect at the boundary `at_`, which is the timestamp of a write with a latch of its own (R223); a pair
by its second half. -/
def State.txOne (s : State) (c at_ : Nat) (w : Wr) : State :=
  let v := le w.value 0 4
  match w.table with
  | some id => s.tableWrite c none at_ id w.at_ w.value
  | none =>
    if s.gatedReg w.at_ then s.logAccess c w.at_ 2
    else if isRwp w.at_ then s
    else if isRwpHi w.at_ then s.rwpEffect none (w.at_ - 4) (2 ^ 32 - 1 - v)
    else s.plainWrite c none at_ w.at_ v

/-- The group takes effect whole at the boundary `at_`. -/
def State.txApply (s : State) (c at_ : Nat) (ws : List Wr) : State :=
  ((s.each ws fun s w => s.txOne c at_ w).when (writesMap ws) State.judgeRings).commitRegs

/-- The checks of TXEND, in the order of R223; `tau`: its acceptance timestamp. -/
def State.txCheck (s : State) (c tau : Nat) : Nat × Option (Nat × Nat) :=
  let x := s.tx c
  let all := s.otherContent 0 (some c)
  match x.failure with
  | some r => (r, none)
  | none =>
    let k := s.commitCheck c x.content all all [] all
    if k.1 == 1 && s.isHead && (x.content.any fun w => (s.shadow x.content).commitWordCheck w == 1) then (3, none)
    else if k.1 != 0 then k
    else if 4096 < x.content.length then (1, none)
    else if x.boundary == 2 && (match s.mapCount x.tepoch x.frame with
        | some n => decide (s.swapAt n < tau + usU (s.f F.FLOCK_GUARD))
        | none => false) then (11, none)
    else (0, none)

/-- TXEND executes: the group applies at once, is scheduled at its boundary, or is discarded whole. One whose transaction has been
closed ends with that reason. -/
def State.txEnd (s : State) (c t tau : Nat) : State :=
  let x := s.tx c
  if !x.opened then
    let r := s.f F.FLOCK_TXc_STATUS_REASON c
    s.finish c t r [r]
  else
    let k := s.txCheck c tau
    let s := s.clipsMet x.content
    let s := match k.2 with
      | some o => s.logConflict o c false
      | none => s
    let s := if k.1 == 1 && (s.wouldBe x.content).overBudget then s.flag F.MEM_STATUS_BUDGET_REFUSED else s
    if k.1 != 0 then (s.txDrop c k.1).finish c t k.1 [k.1]
    else if x.boundary == 0 then
      let s := (s.onTx c fun x => { ended := x.ended }).txApply c s.time.clock x.content
      ((s.finishAll (x.tickets.map fun u => (c, u)) 0 []).finish c t 0 [0]).txRegs c
    else
      let q := if x.boundary == 1 then (s.timing.firstAt (tau + usU (s.f F.FLOCK_GUARD)), s.f F.TIME_TEPOCH) else (x.frame, x.tepoch)
      ((s.onTx c fun x => { ended := x.ended ++ [⟨x.boundary, q.1, q.2, x.content, x.tickets ++ [t]⟩] }).handOff c t).txRegs c

/-- TXABORT executes: the group is discarded with HOST. -/
def State.txAbort (s : State) (c t : Nat) : State := (if (s.tx c).opened then s.txDrop c 7 else s).finish c t 0 []

/-- The boundary of a group that awaits it. -/
def State.txInstant (s : State) (e : TxEnd) : Option Nat := (s.mapCount e.tepoch e.frame).map s.swapAt

/-- A group whose boundary has come. -/
def State.txDue (s : State) (e : TxEnd) : Bool := (s.txInstant e).any fun t => decide (t ≤ s.time.clock)

/-- TX_BOUNDARY_APPLY (R221, R223). -/
def execTxBoundaryApply (ctx : Fin 8) (s : State) : Host.Outcome State Fault Refusal :=
  .next (s.each ((s.tx ctx).ended.filter s.txDue) fun s e =>
    let s := (s.onTx ctx fun x => { x with ended := x.ended.filter (· != e) }).txApply ctx ((s.txInstant e).getD s.time.clock) e.content
    let last := e.tickets.getLastD 0
    ((s.finishAll ((e.tickets.filter (· != last)).map fun t => (ctx.val, t)) 0 []).finish ctx last 0 [0]).txRegs ctx)

/-- TX_OPEN_TIMEOUT (R223): TIMEOUT. -/
def execTxOpenTimeout (ctx : Fin 8) (s : State) : Host.Outcome State Fault Refusal :=
  .next (let x := s.tx ctx
    if x.opened && decide (x.openedAt + secU (s.f F.FLOCK_OPEN_LIMIT) < s.time.clock) then s.txDrop ctx 6 else s)

/-! ### Swap instants -/

/-- The count of the frame that begins: the one that the clock names (R185). -/
def State.nextFrame (s : State) : Nat := s.timing.countAt s.time.clock

/-- The content changes the timing, not only names it (R325). -/
def State.newTiming (s : State) (ws : List Wr) : Option Timing := (s.stagedTiming ws).filter fun t => t != s.timing

/-- Groups whose timing mode a content changes (R325); `v`: the state it leaves. -/
def State.modeChange (s v : State) (ws : List Wr) (g : Nat) : Bool :=
  let changed := fun (f : Fld) (i : Nat) => s.reg (f.addr i 0) != v.reg (f.addr i 0)
  (s.newTiming ws).isSome || changed F.LAMP_GRPg_CFG_CLONE_EN g || changed F.LAMP_GRPg_DARK g ||
    (List.range 16).any fun p => (s.portGroup p == g || v.portGroup p == g) &&
      (changed F.LAMP_PORTp_CFG_ENABLE p || changed F.LAMP_PORTp_MAP0_U0 p || changed F.LAMP_PORTp_MAP1_DX p)

/-- Flows that a content reconfigures. -/
def flowsChanged (ws : List Wr) : List Nat :=
  (List.range 16).filter fun k => ws.any fun w => w.table.isNone && decide (F.STFLOWn_CTL_ENABLE.addr k 0 ≤ w.at_) &&
    decide (w.at_ < F.STFLOWn_CTL_ENABLE.addr k 0 + 0x30)

/-- The contents of the flocks take effect; the flows they reconfigure are left before (R32, R50). A flow that stays enabled while a flock
writes one of its registers is left and joined anew at T: DESIGN CHOICE (assumption 78). -/
def State.applyContents (s : State) (t : Nat) (fs : List Flock) (flows : List Nat) : State :=
  let s := if s.isHead then s.each (List.range 16) fun s l => s.takeNext l t else s
  let s := s.each (flows.filter fun k => s.b F.STFLOWn_CTL_ENABLE k) State.flowLeave
  s.each fs fun s f => s.applyWrs f.ctx f.content fun w => !(f.latched && compPart w)

/-- The count goes on with the first frame at or after the instant `t` (R184, R185); until its swap instant the count of the old timing stays
in force (R187). -/
def State.countFrom (s : State) (t old : Nat) : State :=
  let first := s.timing.firstAt t
  let begun := decide (s.timing.swapAt first ≤ s.time.clock)
  s.onTime fun x => { x with
    frame := if begun then first else first - 1
    between := if begun then none else some (s.timing.swapAt first, old)
    started := if begun then none else some (first - 1, s.timing.slots) }

/-- The wall's new timing, when the contents hold one. -/
def State.applyTiming (s : State) (t : Nat) (timing : Option Timing) : State :=
  match timing with
  | none => s
  | some new => (s.commitTiming t new).countFrom t s.wallFrame

/-- What starts anew under the contents: ports that come to a blanked group are blanked (R324), groups enter their hold (R325), ports with a
new rate wait for an edge (R312), and reconfigured flows are joined (R50). -/
def State.restartParts (s : State) (first : Nat) (groups moved ports flows : List Nat) : State :=
  let blank := moved.filter fun p => s.lampOn && s.lampPorts.contains p && (s.lgroup (s.portGroup p)).blanked
  let s := s.each blank State.blankPort
  let s := s.each groups fun s g => s.enterHold g first
  let s := s.each ports fun s p => s.onLPort p fun q => { q with phased := false }
  s.each (flows.filter fun k => s.b F.STFLOWn_CTL_ENABLE k) State.flowJoin

/-- The sums that follow the contents: the admitted rates of the ports and of the tiles (R76), and on a head the configuration of its layers (R36, R59).
CONFIG_EPOCH counts a flock at its T, so the record of the first frame under it, sent before T, carries the count before (DESIGN CHOICE,
assumption 78). -/
def State.commitTotals (s : State) (t : Nat) (fs : List Flock) : State :=
  let sum := (fs.filterMap Flock.admitMb).getLast?
  let s := (s.onLink fun l => { l with admitted := if s.isHead then s.f F.INGEST_ADMIT else sum.getD l.admitted }).judgeRates
  if s.isHead then
    let epochs := (fs.filter fun f => ingestContent f.content).length
    let s := ((s.dropNext t).judgeMatch).onIngest fun g => { g with configEpoch := (g.configEpoch + epochs) % 2 ^ 32 }
    if s.isBw then s.admitNow else s
  else s

/-- The records of the committed flocks, and of those that failed and whose whole content is now in force (R214, R218); one whose ID is
free already goes. -/
def State.commitRecords (s : State) (fs : List Flock) (ws : List Wr) : State :=
  let covered := fun (g : Flock) => g.broken && g.content.all fun w => ws.any fun x => w.same x
  let ended := fun (g : Flock) => if g.id < shelf then { g with quiet := 0, content := [] } else { id := 0, st := 0 }
  let after := fun (g : Flock) =>
    if fs.any (fun f => f.id == g.id) then ended { g with st := 8 }
    else if covered g then ended { g with st := 6, broken := false } else g
  ((s.onFlocks fun l => l.map after).each fs fun s _ => s.inc F.FLOCK_COMMITS).flockRegs

/-- The commits that are due at the instant `t`: every flock of one instant applies together, the earliest first (R214). -/
def State.commitAt (s : State) (t : Nat) (fs : List Flock) : State :=
  let ws := fs.flatMap fun f => f.content
  let v := s.shadow ws
  let ports := (List.range 16).filter fun p => s.f F.LAMP_PORTp_CFG_RATE p != v.f F.LAMP_PORTp_CFG_RATE p ||
    s.b F.LAMP_PORTp_CFG_ENABLE p != v.b F.LAMP_PORTp_CFG_ENABLE p
  let moved := (List.range 16).filter fun p => !(s.b F.LAMP_PORTp_CFG_ENABLE p) || s.portGroup p != v.portGroup p
  let groups := if s.isTile then (List.range 4).filter fun g => s.modeChange v ws g else []
  let flows := if s.isHead then flowsChanged ws else []
  let timing := s.newTiming ws
  let s := (s.applyContents t fs flows).applyTiming t timing
  let s := s.restartParts (s.timing.firstAt t) groups moved ports flows
  let s := if writesMap ws then s.judgeRings else s
  (s.commitRegs.commitTotals t fs).commitRecords fs ws

/-- Apply every commit that is due and fails no check, instant by instant. -/
def State.commitsDue (s : State) (now : Nat) (bad : List (Nat × FlockPart)) : State :=
  let due := s.flocks.filter fun f => f.due && decide (s.applyInstant f ≤ now)
  let part := fun (f : Flock) => (f.fails bad).or (if f.go.isSome && s.boot.intentBad then some .content else none)
  let s := s.each due fun s f => match part f with
    | some p => s.flockFault f.id p
    | none => s
  let good := due.filter fun f => (part f).isNone
  let times := ((good.map s.applyInstant).eraseDups).mergeSort
  s.each times fun s t => s.commitAt t (good.filter fun f => s.applyInstant f == t)

/-- A tile of the wall that no chain of time reaches any more: it lies between two breaks of its ring (R24; DEDUCED, assumption 77). -/
def State.isolated (s : State) : Bool :=
  s.isTile && s.ring.enumerated && s.ring.start && !s.time.needStep && s.pickSource.isNone

/-- OUT_OF_STEP at a swap instant (R24, R215, R216, R218): a flock that has not applied though its T has come, or an isolated tile. -/
def State.judgeOos (s : State) (now : Nat) : State :=
  let oos := s.isolated || s.flocks.any fun f => f.id != 0 && f.st == 7 && decide ((s.epochTiming f.tepoch).swapAt f.t ≤ now)
  (s.setOos oos).when oos fun s => s.inc F.FLOCK_OOS_FRAMES

/-- The bellwether repeats each outcome at every swap instant until the flock is retired (R213); a record of its own that failed its
check is rebuilt by it (R218), and tickets of the head it took over from complete (R414). -/
def State.repeatOutcomes (s : State) : State :=
  s.each ((s.flocks.filter fun f => f.inUse && f.decided.isSome).map Flock.id) fun s id =>
    let s := s.onFlock id fun f => { f with repeats := f.repeats + 1, quiet := 0 }
    match s.flock id with
    | some f =>
      let s := (s.bwSend 16 0xFFFF f.outcomeMsg).finishFlock f
      let lost := f.st == 7 && f.voted && f.applyAt.isNone && !f.broken && f.decided == some true
      (if lost then s.holdCommit f f.t f.guard else s).retire id
    | none => s

/-- A run of a head that is still going on at its fold's next start is an overrun; it is stopped before anything applies there (R357, R358). -/
def State.stopRuns (s : State) : State := s.each (List.range 4) fun s k => if s.inRun k then s.overrun k else s

/-- The fold runs of a head at S_n (R358): waiting writes apply, then the fold transactions that are due, which replace what they find (R389),
then switches and stops; and the runs start. -/
def State.headRuns (s : State) (n : Nat) : State :=
  let s := s.applyLatch (s.swapAt n)
  s.each (List.range 4) fun s k =>
    let s := (((s.foldTxDue k n).foldLatch (s.swapAt n) k).applyStop k).onFold k fun x => { x with began := false }
    if s.foldState k == 1 then s.startRun k n 0 (s.swapAt (n + 1)) else s

/-- Swap instant of frame `n`. -/
def State.swapInstant (s : State) (bad : List (Nat × FlockPart)) : State :=
  let n := s.nextFrame
  let now := max s.time.clock (s.swapAt n)
  let s := (s.onTime fun t => { t with frame := n, slot := 0 }).onFlocks fun l => l.map fun f => { f with quiet := f.quiet + 1 }
  let s := (s.when s.isHead State.stopRuns).commitsDue now bad
  let s := s.judgeOos now
  let s := if s.isBw then s.repeatOutcomes else s
  let n := s.time.frame
  let s := if s.isHead then s.headRuns n
    else (s.each (List.range 4) fun s k => s.foldTxDue k n).each ((List.range 4).filter fun g => (s.lgroup g).black) fun s g =>
      s.inc F.LAMP_GRPg_BLACK_FRAMES g
  if s.boot.expired then (s.coldStart F.RST_CAUSE_ACTIVATE 3).releaseNode else s

/-- The next swap instant has come (R164, R185). Before the clock's first step since the node's reset there is none, though the clock and its
count go on: DESIGN CHOICE (assumption 89). -/
def State.swapDue (s : State) : Bool := s.time.stepped && decide (s.swapAt (s.time.frame + 1) ≤ s.time.clock)

/-- SWAP_INSTANT. `bad`: the flocks that fail a check of R218. -/
def execSwapInstant (bad : List (Nat × FlockPart)) (s : State) : Host.Outcome State Fault Refusal :=
  .next (if s.pwr.up && s.swapDue then s.swapInstant bad else s)

/-! ### Slots (R186, R329, R383) -/

/-- A strip of the slot has pushed lamp (u, v) of a group: PUSH with DISCARD = 0, of the group or of the one it clones (R384; DEDUCED,
assumption 46: also where the group pushes nothing in its hold). -/
def State.lampPushed (s : State) (g : Nat) (p : Nat × Nat) : Bool :=
  let g := if s.isClone g then s.f F.LAMP_GRPg_CFG_CLONE_SRC g else g
  s.lamp.pushed.any fun q => q.1 == g && decide (q.2.1 ≤ p.1) && decide (p.1 < q.2.2.2.1) && decide (q.2.2.1 ≤ p.2) && decide (p.2 < q.2.2.2.2)

/-- Every lamp of check rectangle `r` with its bytes, row by row; none unless each was pushed and accumulated exactly once (R383, R384). -/
def State.checkBytes (s : State) (r : Nat) : Option Bytes :=
  let u0 := s.f F.LAMP_CRCr_ORIGIN_U0 r
  let v0 := s.f F.LAMP_CRCr_ORIGIN_V0 r
  let cells := (List.range (s.f F.LAMP_CRCr_EXTENT_V1 r - v0)).flatMap fun y =>
    (List.range (s.f F.LAMP_CRCr_EXTENT_U1 r - u0)).map fun x => (u0 + x, v0 + y)
  let mine := s.lamp.checks.filter fun k => k.1 == r
  let got := cells.map fun p => (mine.filter fun k => k.2.1 == p.1 && k.2.2.1 == p.2).map fun k => k.2.2.2
  if !cells.isEmpty && cells.all (s.lampPushed (s.f F.LAMP_CRCr_CTL_GROUP r)) && got.all (fun g => g.length == 1) then some (got.flatMap fun g => g.headD []) else none

/-- The result of check rectangle `r` for the slot that ends its composition. -/
def State.resolveCheck (s : State) (r : Nat) : State :=
  match s.checkBytes r with
  | none => s.flag F.LAMP_CRCr_CTL_VALID false r
  | some b =>
    let v := (crc32 b).toNat
    let s := (s.put F.LAMP_CRCr_RESULT v r).flag F.LAMP_CRCr_CTL_VALID true r
    if v == s.f F.LAMP_CRCr_EXPECTED r then s
    else
      let s := (s.inc F.LAMP_CRCr_MISMATCHES r).flag F.LAMP_CRCr_CTL_MISMATCH true r
      s.when (s.b F.LAMP_CRCr_CTL_IRQ r) fun s => s.irqAll F.CTXn_IRQ_CAUSE_LAMP

/-- The slot of the frame in force that starts next. -/
def State.nextSlot (s : State) : Nat :=
  match s.time.started with
  | some (n, k) => if n == s.time.frame then k + 1 else 0
  | none => 0

/-- The start of the next slot has come (R164, R186); none before the first step (assumption 89). -/
def State.slotDue (s : State) : Bool :=
  s.time.stepped && decide (s.nextSlot < s.timing.slots) && decide (s.slotAt s.time.frame s.nextSlot ≤ s.time.clock)

/-- At the start of slot 0 the drivers of the enabled ports whose group has no LSYNC edge are polled: it is disabled, or in a hold (R328;
assumption 83). -/
def State.pollDark (s : State) : State :=
  s.each (s.lampPorts.filter fun p => !(s.lit (s.portGroup p)) || (s.lgroup (s.portGroup p)).hold.isSome) State.pollPort

/-- SLOT_START: the next slot of the frame in force begins; what was composed for it is complete. -/
def execSlotStart (s : State) : Host.Outcome State Fault Refusal :=
  .next (if !(s.pwr.up && s.slotDue) then s
    else
      let k := s.nextSlot
      let s := s.onTime fun x => { x with slot := k, started := some (x.frame, k) }
      let s := s.when (k == 0 && s.lampOn) State.pollDark
      let rs := (List.range 16).filter fun r => s.b F.LAMP_CRCr_CTL_ENABLE r && s.f F.LAMP_CRCr_CTL_SLOT r == k
      if s.isTile && s.comp.slot == some (s.time.frame, k) then s.each rs State.resolveCheck else s)

/-! ### Handback and resynchronisation -/

/-- The clock is at the first tick at or after a swap instant (R185). -/
def State.atSwap (s : State) : Bool :=
  s.time.stepped && decide ((s.time.clock : Int) - s.swapAt (s.timing.countAt s.time.clock) < 2 * nsU + 27 * s.rate)

/-- HANDBACK (R151): at a swap instant with no open flock, the bellwether gives authority back. -/
def execHandback (s : State) : Host.Outcome State Fault Refusal :=
  .next (if s.isBw && s.atSwap && s.ring.handbackDue && s.flocks.all (fun f => f.id == 0 || f.decided.isSome) then s.handbackNow else s)

/-- The next ticket number is at least `v` (R407). -/
def State.raiseNext (s : State) (c v : Nat) : State := if 0 < seqDiff 32 v (s.f F.CTXn_NEXT_TICKET c) then s.setNext c v else s

/-- The epoch and the next ticket numbers that the bellwether knows of the returning head (R407, R415): the head keeps that epoch if its
journal holds it, or if `whole`, mirroring having stayed up until it failed. -/
def State.resyncEpoch (s : State) (epoch : Nat) (next : List Nat) (whole : Bool) : State :=
  if epoch == 0 || (epoch != s.host.epoch && !whole) then s
  else
    let same := epoch == s.host.epoch
    (s.onHost fun h => { h with epoch := epoch, lastEpoch := epoch }).each (List.range 8) fun s c =>
      let s := s.put F.CTXn_EPOCH epoch c
      if same then s.raiseNext c (nth next c 1) else s.setNext c (nth next c 1)

/-- A returned or mirrored journal record is stored (R150, R413, R414): its own records come back marked PEER, with entries that are still to
be written. A record of another epoch than the head's is its own again only if `whole`, mirroring having stayed up until the head failed
(R415). A record does not hold the index of its command, which is a free value in these entries. -/
def State.resyncRecord (s : State) (record payload : Bytes) (whole : Bool) : State :=
  let own := bitOf (le record 68 1) 3
  let r := if own then (JRec.ofBytes record payload false).again else JRec.ofBytes record payload true
  let r := { r with tepoch := s.epochAt r.tau }
  let same := fun (x : JRec) => x.ctx == r.ctx && x.ticket == r.ticket && x.epoch == r.epoch
  if own then
    if r.epoch != s.host.epoch && !whole then s
    else
      let r := { r with slot := lowestFree (s.host.journal.map JRec.slot), unit := lowestFree (s.host.journal.map JRec.unit)
                        sqIndex := Config.free s.fresh % 4096 }
      let s := ((s.tickFresh).onHost fun h => { h with
        journal := h.journal.filter (fun x => !(same x)) ++ [r], epoch := r.epoch, lastEpoch := r.epoch }).journalRegs
      let s := s.each (List.range 8) fun s c => s.put F.CTXn_EPOCH r.epoch c
      ((s.raiseNext r.ctx (nextNumber r.ticket)).countInflight r.ctx).writePending r
  else (s.onHost fun h => { h with peerJournal := h.peerJournal.filter (fun x => !(same x)) ++ [r] }).journalRegs

/-- The layers of a head whose configuration has been copied go on from it (R36, R54). -/
def State.resyncLayers (s : State) : State :=
  s.each (List.range 16) fun s l => s.onLayer l fun y => { y with
    addr := s.f F.LAYERn_ADDR_LO l * 4096 + s.f F.LAYERn_ADDR_HI l * 2 ^ 32
    clipId := s.f F.LAYERn_CLIP_CLIP_ID l, clipMode := s.f F.LAYERn_CLIP_MODE l, bound := false }

/-- The frame timing of a head is copied (R150, R184, R633): the count is that of the timing in force at this instant. -/
def State.recount (s : State) (epochs : List Timing) : State :=
  s.onTime fun t => { t with
    epochs := epochs, between := none, started := none, frame := (epochs.headD ⟨9, 1, 0⟩).countAt t.clock }

/-- TEPOCH, the timings that it counts, and the instants of their changes (R633). -/
def State.resyncTiming (s : State) (tepoch : Nat) (epochs : List (Nat × Nat × Nat)) (changes : List Nat) : State :=
  ((s.put F.TIME_TEPOCH tepoch).onTime fun t => { t with changes := changes }).recount (epochs.map fun e => ⟨e.1, e.2.1, e.2.2⟩)

/-- A copied register: what is written configuration in it (R150), in a register of the node and not of one of its contexts' rings (R400). -/
def State.resyncReg (s : State) (a : Nat) (v : Word) : State :=
  let m := fieldMask ((fieldsAt a).filter fun f => f.acc == .rw)
  let ring := (List.range 8).any fun c => a == F.CTXn_SQ_TAIL.addr c 0 || a == F.CTXn_CQ_HEAD.addr c 0
  if ring || decide (0x1000000 ≤ a) then s
  else s.setReg a (BitVec.ofNat 32 (Nat.lor (Nat.land (s.reg a).toNat (2 ^ 32 - 1 - m)) (Nat.land v.toNat m)))

/-- The committed configuration is copied (R150), and what follows from it: the admission (R76) and the rings (R162); a clip store of another base or size than the bellwether's keeps this head in RESYNC
(R438). -/
def State.resyncConfig (s : State) (epoch base size : Nat) (regs : List (Nat × Word)) : State :=
  let s := (s.each regs fun s p => s.resyncReg p.1 p.2).onIngest fun g => { g with configEpoch := epoch }
  let s := s.resyncLayers.onTime fun t => { t with setSec := s.f64 F.TIME_SET_SEC_LO F.TIME_SET_SEC_HI }
  let now : Timing := ⟨s.f F.TIME_FRAME_RATE, s.f F.TIME_FRAME_SLOTS, s.f F.TIME_FRAME_PHASE⟩
  let s := (s.when (now != s.timing) fun s => s.recount (now :: s.time.epochs.tail)).commitRegs.judgeRings
  let s := (s.onLink fun l => { l with admitted := s.f F.INGEST_ADMIT }).judgeRates
  s.when (base != s.clipBase || size != s.clipSize) fun s => s.flag F.MEM_STATUS_PEER_MISMATCH

/-- The head's records go to the other head as they now stand: their marks have changed while mirroring was down (R413). -/
def State.sendRecords (s : State) : State := s.each s.host.journal fun s r => s.headSend 41 (mirrorMsg { r with payload := [] })

/-- A phase of the RESYNC has ended; mirroring is up from the end of the journal phase (R140, R150). -/
def State.resyncPhaseEnd (s : State) (phase : Nat) : State :=
  let s := s.onRing fun r => { r with
    resyncPhase := phase, resyncSince := if phase == 3 then some ((s.wf32 + 1) % 2 ^ 32) else r.resyncSince }
  if phase == 2 then s.mirrorStart.sendRecords else s

/-- The enumerated wall is copied (R150): the tiles, the committed values that decide their lamps, and the rings whose last wave reached END
(R162). -/
def State.resyncWall (s : State) (gen : Nat) (tiles : List (Nat × Nat × Nat × Nat)) (lamps : List (Nat × Nat × Nat)) (enumDone : Nat) :
    State :=
  let s := s.onRing fun r => { r with
    gen := gen, lampCfg := lamps, held := tiles.map fun t => (t.1, t.2.1, t.2.2.1)
    tiles := tiles.map fun t => { serial := t.1, ring := t.2.1, hop := t.2.2.1, excess := bitOf t.2.2.2 0, gen := gen,
                                  present := bitOf t.2.2.2 1, outOfService := bitOf t.2.2.2 2, lastHealth := s.time.aon : TileRec } }
  (s.each (List.range 6) fun s r => s.flag F.RINGr_INFO_ENUM_DONE (bitOf enumDone r) r).wallCounts.judgeRings

/-- A message of stream 43, in the model's own framing (assumption 74). -/
def State.rxResync (s : State) (m : Bytes) : State :=
  if s.f F.RING_STATUS_STATE != hsResync then s
  else match le m 0 1 with
    | 1 => s.resyncConfig (le m 4 4) (le m 8 8) (le m 16 8)
        ((List.range ((m.length - 24) / 8)).map fun k => (le m (24 + 8 * k) 4, BitVec.ofNat 32 (le m (28 + 8 * k) 4)))
    | 2 => s.resyncRecord ((m.drop 8).take 256) (m.drop 264) (bitOf (le m 1 1) 0)
    | 3 => s.each (List.range ((m.length - 8) / 9)) fun s k => s.memMerge (le m (8 + 9 * k) 8) ((m.drop (16 + 9 * k)).take 1) 6
    | 4 => s.resyncPhaseEnd (le m 1 1)
    | 5 =>
      let n := le m 2 2
      s.resyncWall (le m 1 1)
        ((List.range n).map fun k => (le m (8 + 16 * k) 8, le m (16 + 16 * k) 1, le m (17 + 16 * k) 1, le m (18 + 16 * k) 1))
        ((List.range ((m.length - 8 - 16 * n) / 16)).map fun k =>
          (le m (8 + 16 * (n + k)) 8, le m (16 + 16 * (n + k)) 4, le m (20 + 16 * (n + k)) 4)) (le m 4 1)
    | 6 => s.clearSpan s.clipBase s.clipSize
    | 8 => s.resyncEpoch (le m 4 4) ((List.range 8).map fun c => le m (8 + 4 * c) 4) (bitOf (le m 1 1) 0)
    | 7 =>
      let n := le m 2 1
      s.resyncTiming (le m 1 1) ((List.range n).map fun k => (le m (8 + 8 * k) 1, le m (9 + 8 * k) 1, le m (12 + 8 * k) 4))
        ((List.range ((m.length - 8 - 8 * n) / 16)).map fun k => le m (8 + 8 * n + 16 * k) 16)
    | _ => s

/-- RESYNC_COPY_RX (R150). -/
def execResyncCopyRx (part : ResyncPart) (s : State) : Host.Outcome State Fault Refusal :=
  .next (if !(s.isHead && s.on iLINK && s.f F.RING_STATUS_STATE == hsResync) then s
    else match part with
      | .config epoch base size regs => s.resyncConfig epoch base size regs
      | .timing tepoch epochs changes => s.resyncTiming tepoch epochs changes
      | .wall gen tiles lamps enumDone => s.resyncWall gen tiles lamps enumDone
      | .epoch epoch next whole => s.resyncEpoch epoch next whole
      | .journal record payload whole => s.resyncRecord record payload whole
      | .clip addr data => s.memMerge addr data 6
      | .phaseEnd phase => s.resyncPhaseEnd phase)

end Sys2Proof.Machine
end

