-- ==== Sys2Proof/Machine/Tickets.lean ====
section
/-! DEFINITION. Host commands (spec/12_hosts_and_tickets.md): the checks of Table 12-6, acceptance (R406), the execution of each
command (R408, R409) and the queries. -/
set_option Elab.async false
namespace Sys2Proof.Machine

/-! ### Format (Table 12-6, step 1) -/

/-- Ranges of BODY that a command uses, as (first byte, length); `n`: its COUNT (Table 12-4). -/
def bodyUsed (op n : Nat) : List (Nat × Nat) :=
  match op with
  | 0x01 => [(24, 1), (28, 8 * min n 4)]
  | 0x02 => [(24, 2), (28, 8)]
  | 0x03 => [(24, 1), (32, 8)]
  | 0x08 => [(24, 1), (28, 4)]
  | 0x09 => [(24, 1), (28, 12)]
  | 0x0A => [(24, 1), (32, 8)]
  | 0x10 => [(24, 1)]
  | 0x11 => [(32, 8)]
  | 0x18 => [(24, 1), (32, 8)]
  | 0x20 => [(24, 1), (32, 8)]
  | 0x40 => [(24, 1), (28, 4 * min n 8)]
  | 0x41 => [(24, 1), (32, 12)]
  | 0x42 => [(24, 2), (28, 4)]
  | _ => []

/-- The commands of Table 12-4. -/
def opDefined (op : Nat) : Bool :=
  [0x01, 0x02, 0x03, 0x08, 0x09, 0x0A, 0x10, 0x11, 0x12, 0x18, 0x19, 0x1A, 0x20, 0x40, 0x41, 0x42, 0x43].contains op

/-- Reserved bits of byte 24. -/
def byte24Spare (op : Nat) : Nat :=
  match op with
  | 0x09 => 3
  | 0x0A => 1
  | 0x10 => 1
  | 0x42 => 1
  | _ => 8

/-- Reserved bytes and bits are 0. -/
def reservedClear (e : Bytes) : Bool :=
  let used := bodyUsed (eOp e) (le e 24 1)
  bits (le e 1 1) 1 7 == 0 && bits (le e 2 2) 12 4 == 0 && le e 6 2 == 0 && le e 24 1 < 2 ^ byte24Spare (eOp e) &&
    (List.range 40).all fun k => (used.any fun u => decide (u.1 ≤ 24 + k) && decide (24 + k < u.1 + u.2)) || le e (24 + k) 1 == 0

/-- Largest payload of a command on the transport of a context (Table 12-1). -/
def State.payloadLimit (s : State) (c : Nat) : Nat :=
  match s.f F.CTXn_BIND_TRANSPORT c with
  | 1 => 65536
  | 2 => 8192
  | _ => 65472

/-- Largest answer of MEM_READ (Table 12-4). -/
def State.answerLimit (s : State) (c : Nat) : Nat := if s.f F.CTXn_BIND_TRANSPORT c == 1 then 65536 else 8192

/-- A tile address as in Table 4-1. -/
def tileForm (a : Nat) : Bool := decide (1 ≤ a % 256) && decide (a % 256 ≤ 192) && decide (a / 256 ≤ 5)

/-- Entry size of a table, whatever the role of the node that holds it. -/
def State.entrySize (s : State) (id : Nat) : Option Nat :=
  if 0x808 ≤ id ∧ id < 0x80C then some 40 else (s.tableShape id).map (·.1)

/-- TARGET as R403 and Table 12-3 require. -/
def State.targetOk (s : State) (e : Bytes) : Bool :=
  let t := eTarget e
  if eOp e == 0x20 then s.wallTiles.any fun x => x.hop + 256 * x.ring == t
  else if isStaged e then t == 0xFFFF || t == 0xFFFE || tileForm t
  else t == 0

/-- COUNT, LEN and PAYLOAD_LEN within range. -/
def State.lengthsOk (s : State) (c : Nat) (e : Bytes) : Bool :=
  let n := le e 24 1
  let len := eLen e
  decide (len ≤ s.payloadLimit c) && match eOp e with
    | 0x01 => decide (n ≤ 4) && (if n == 0 then len % 8 == 0 else len == 0)
    | 0x02 => (match s.entrySize (le e 24 2) with
      | some z => len == le e 32 4 * z
      | none => true)
    | 0x03 => true
    | 0x20 => decide (n < 8) && decide (64 ≤ len)
    | 0x40 => decide (1 ≤ n) && decide (n ≤ 8) && len == 0
    | 0x41 => decide (le e 40 4 ≤ s.answerLimit c) && len == 0
    | _ => len == 0

/-- The place of the entry at SQ_HEAD in frame memory (Table 13-3). -/
def State.ringPlace (s : State) (c : Nat) : Nat := 0x28000000 + c * 2 ^ 20 + s.f F.CTXn_SQ_HEAD c * 64
/-- It holds an uncorrectable error, which counts as a format failure (Table 13-2). -/
def State.ringBad (s : State) (c : Nat) : Bool := s.memBad (s.ringPlace c) 64

/-- The entry's place is read, with the errors that it holds, and is free to be written again. -/
def State.ringRead (s : State) (c : Nat) : State := (s.memTouch (s.ringPlace c) 64 5).memHeal (s.ringPlace c) 64

def State.formatOk (s : State) (c : Nat) (e : Bytes) : Bool :=
  !(s.ringBad c) && opDefined (eOp e) && reservedClear e && s.lengthsOk c e && s.targetOk e

/-! ### Rights (R399, R524) -/

/-- Blocks of a table. -/
def tableBlocks (id : Nat) : List Nat :=
  if id / 256 = 7 then [6]
  else if id / 256 = 8 then [15]
  else if 0xA00 ≤ id ∧ id < 0xA04 then [2 + (id - 0xA00)]
  else if id = 0xA04 then [2, 3, 4, 5]
  else if 0xA10 ≤ id ∧ id < 0xA14 then [2 + (id - 0xA10)]
  else if id / 256 = 14 then [19]
  else []

/-- The command right of Table 12-4, as a bit of CTXn_RIGHTS_CMD. -/
def cmdRight (op : Nat) : Option Nat :=
  match op with
  | 0x03 => some 2
  | 0x08 => some 3
  | 0x09 => some 3
  | 0x0A => some 4
  | 0x10 => some 0
  | 0x11 => some 0
  | 0x12 => some 0
  | 0x18 => some 5
  | 0x19 => some 5
  | 0x1A => some 5
  | 0x20 => some 1
  | _ => none

/-- Block of a region of MEM_READ. -/
def regionBlock (r : Nat) : Nat := if r = 0 then 6 else if r = 1 then 15 else r

def State.rightsOk (s : State) (c : Nat) (e pay : Bytes) : Bool :=
  match eOp e with
  | 0x01 => (s.entryWrs e pay).all fun w => s.writeRight c w.at_
  | 0x02 =>
    let id := le e 24 2
    (tableBlocks id).all (s.mayWrite c) && (c == 0 || !([0xE20, 0xE40, 0xE41].contains id))
  | 0x40 => (List.range (le e 24 1)).all fun k => s.readRight c (le e (28 + 4 * k) 4)
  | 0x41 => decide (5 < le e 24 1) || s.mayRead c (regionBlock (le e 24 1))
  | op => match cmdRight op with
    | some b => c == 0 || bitOf (s.f F.CTXn_RIGHTS_CMD c) b
    | none => true

/-! ### Role, authority and state (step 3) -/

/-- The context holds an open transaction once the commands it has had accepted have run (R222). -/
def State.txOpen (s : State) (c : Nat) : Bool :=
  let ts := s.host.journal.filter fun r => r.ctx == c && r.st == 1 && r.epoch == s.host.epoch && [0x18, 0x19, 0x1A].contains (eOp r.entry)
  match ts.getLast? with
  | some r => eOp r.entry == 0x18
  | none => (s.tx c).opened

/-- A FLOCK_CALL of the flock has been accepted and not yet executed: the flock is no longer STAGING for its context (R206). -/
def State.callWaits (s : State) (id : Nat) : Bool :=
  s.host.journal.any fun r => r.st == 1 && r.epoch == s.host.epoch && eOp r.entry == 0x11 && eFlock r.entry == id

/-- Conditions of Table 6-1 on the flock a command names. -/
def State.flockOk (s : State) (c : Nat) (e : Bytes) : Bool :=
  match s.flock (eFlock e) with
  | some f => f.own && f.ctx == c && f.decided.isNone &&
    (eOp e == 0x12 || (f.st == 1 && !f.called && !(s.callWaits f.id)))
  | none => false

/-- The write names LAYERn_ADDR_LO, LAYERn_ADDR_HI or LAYERn_CLIP, which tickets write on the bellwether (R32). -/
def layerWord (a : Nat) : Bool :=
  match regAt a with
  | some (d, _) => d.base == F.LAYERn_ADDR_LO.base || d.base == F.LAYERn_ADDR_HI.base || d.base == F.LAYERn_CLIP_CLIP_ID.base
  | none => false

/-- FLOCK_OPENs that have been taken and have not executed yet, each of which will hold a flock (R199). -/
def State.opensWaiting (s : State) : Nat :=
  let open_ := fun (r : JRec) => r.st != 3 && eOp r.entry == 0x10
  ((s.host.journal.filter fun r => open_ r && r.epoch == s.host.epoch) ++ s.host.peerJournal.filter open_).length +
    ((List.range 8).filter fun c => (s.ctx c).checked.any fun k => eOp k.entry == 0x10).length

def State.stateOk (s : State) (c : Nat) (e pay : Bytes) : Bool :=
  let st := s.f F.RING_STATUS_STATE
  if !(isQuery (eOp e)) && s.isHead && (st == hsResync || st == hsDemoted) then false
  else match eOp e with
  | 0x01 =>
    if isStaged e then s.isBw && s.flockOk c e
    else (s.entryWrs e pay).all fun w => (!s.isHead || s.isBw || !(layerWord w.at_)) && !(s.dlForbids w.at_ (le w.value 0 4))
  | 0x02 =>
    let id := le e 24 2
    if isStaged e then s.isBw && s.flockOk c e
    else if id == 0xE00 || id == 0xE30 then s.dlRefusal (id == 0xE30) c (le e 28 4) pay != 8
    else if id == 0xE40 || id == 0xE41 then s.otpWriteOk id (le e 28 4)
    else true
  | 0x08 => s.isBw || (s.isHead && st == hsStandby && s.ring.mirrorUp)
  | 0x09 => s.isBw || (s.isHead && st == hsStandby && s.ring.mirrorUp)
  | 0x10 => s.isBw && decide ((s.flocks.filter Flock.inUse).length + s.opensWaiting < 64)
  | 0x11 => s.isBw && s.flockOk c e
  | 0x12 => s.isBw && s.flockOk c e
  | 0x18 => !(s.txOpen c)
  | 0x19 => s.txOpen c
  | 0x1A => s.txOpen c
  | op => if [0x03, 0x0A, 0x20, 0x43].contains op then s.isBw else true

/-! ### Ranges (step 5) -/

/-- What the state a ticket would leave decides at acceptance (R55, R274, R329, R333, R440). -/
def State.writeStateOk (s : State) (ws : List Wr) : Bool :=
  let v := s.shadow ws
  let crc := [F.LAMP_CRCr_CTL_ENABLE, F.LAMP_CRCr_ORIGIN_U0, F.LAMP_CRCr_EXTENT_U1].any fun f => writesReg ws f
  let tab := [F.CORR_GRPg_BASE, F.COMP_GRPg_SIZE_WP, F.COMP_GRPg_CTL_ENABLE].any fun f => writesReg ws f
  (!s.isHead || ws.all fun w => v.commitWordCheck w == 0) &&
    (!s.isTile || ((!tab || (v.tablesOk && (List.range 4).all v.gridOk)) && (!(writesReg ws F.LAMP_GRPg_DIAG_BASE) || v.mapsOk) &&
      (!crc || (List.range 16).all v.checkRectOk)))

/-- What each register write alone decides (R73, R398, R621, R631). -/
def regRangeOk (w : Wr) (staged : Bool) : Bool :=
  let v := le w.value 0 4
  decoded w.at_ && (staged || !(valueBad w.at_ v))

/-- Clips that a layer plays (R53). -/
def State.clipsInUse (s : State) : List Nat :=
  ((List.range 16).filter fun l => s.f F.LAYERn_CLIP_MODE l != 0).map fun l => s.f F.LAYERn_CLIP_CLIP_ID l

/-- A write of the clip store keeps R52 and R53. -/
def State.clipWriteOk (s : State) (off : Nat) (b : Bytes) : Bool :=
  let used := s.clipsInUse
  let dir := 4096 * 64
  let ids := if off < dir then (List.range 4096).filter fun i => decide (off < 64 * i + 64) && decide (64 * i < off + b.length) else []
  let after := (s.memWrite (s.clipBase + off) b)
  decide (off + b.length ≤ s.clipSize) && ids.all (fun i => !(used.contains i) && after.dirWriteOk i (after.memRead (s.clipBase + 64 * i) 64)) &&
    used.all fun i => match s.clip i with
      | some e => !(e.meets off b.length)
      | none => true

/-- Base and size of a region of MEM_READ and MEM_WRITE in frame memory; none for scratch and for a region that this role has not. -/
def State.memRegion (s : State) (r : Nat) : Option (Nat × Nat) :=
  if r = 0 then (if s.isHead then some (s.clipBase, s.clipSize) else none)
  else if r = 1 then (if s.isTile then some (corrBase, corrSize) else none)
  else none

def State.rangeOk (s : State) (c : Nat) (e pay : Bytes) : Bool :=
  match eOp e with
  | 0x01 =>
    let ws := s.entryWrs e pay
    (ws.all fun w => regRangeOk w (isStaged e)) && (isStaged e || s.txOpen c || s.writeStateOk ws) &&
      (isStaged e || !s.isHead || ws.all fun w => !(writesReg [w] F.LAYERn_CLIP_CLIP_ID) || s.commitWordCheck w == 0)
  | 0x02 =>
    let id := le e 24 2
    if isStaged e then (s.entrySize id).isSome && !((s.tableShape id).any fun z => tablePast id z.2 (le e 28 4) (le e 32 4))
    else match s.tableShape id with
      | some z => (if s.txOpen c then !(tablePast id z.2 (le e 28 4) (le e 32 4)) else decide (le e 28 4 + le e 32 4 ≤ z.2)) &&
        !((id == 0xE00 || id == 0xE30) && s.dlRefusal (id == 0xE30) c (le e 28 4) pay == 3)
      | none => false
  | 0x03 => le e 24 1 == 0 && s.clipWriteOk (le e 32 8) pay
  | 0x08 => decide (le e 24 1 < 16)
  | 0x09 => decide (bits (le e 24 1) 0 2 < s.timing.slots)
  | 0x0A => s.ring.tiles.any fun t => t.serial == le e 32 8
  | 0x18 => decide (le e 24 1 < 3)
  | 0x40 => (List.range (le e 24 1)).all fun k => decoded (le e (28 + 4 * k) 4)
  | 0x41 =>
    let r := le e 24 1
    if 2 ≤ r ∧ r ≤ 5 then decide (le e 32 8 + le e 40 4 ≤ 0x40000)
    else match s.memRegion r with
      | some q => decide (le e 32 8 + le e 40 4 ≤ q.2)
      | none => false
  | 0x42 => decide (le e 25 1 < 8)
  | _ => true

/-! ### The checks in order (R404) -/

/-- No room for another ticket: 65,536 in flight, no free journal slot, or no payload unit of 64 KiB (R410). -/
def State.busy (s : State) (len : Nat) : Bool :=
  let live := s.host.journal.filter fun r => r.st == 1 || r.st == 2
  let units := live.foldl (fun a r => a + ceilDiv r.payload.length 65536) 0
  decide (65536 ≤ live.length) || decide (131071 ≤ s.host.journal.length) || decide (4096 < units + ceilDiv len 65536)

/-- The range check has read the directory entries of the clips that a ticket starts: a broken one is reported (R51, R55). -/
def State.entryMet (s : State) (e pay : Bytes) (code : Nat) : State :=
  s.when (eOp e == 1 && !(isStaged e) && [0, 3, 18, 20].contains code) fun s => s.clipsMet (s.entryWrs e pay)

/-- The code with which an entry is rejected, 0 when it passes (Table 12-6). `readOk`: its payload was read without an error. -/
def State.entryCode (s : State) (c : Nat) (e pay : Bytes) (readOk : Bool) : Nat :=
  if !(s.formatOk c e) then 16
  else if !(s.rightsOk c e pay) then 17
  else if !(s.stateOk c e pay) then 8
  else if eOp e == 1 && !(isStaged e) && (s.entryWrs e pay).any fun w => flockOnlyAt w.at_ then 19
  else if !(s.rangeOk c e pay) then 3
  else if !(isQuery (eOp e)) && s.busy (eLen e) then 18
  else if !readOk && eLen e != 0 then 20
  else 0

/-! ### Execution of writes (R408, R409, R472) -/

/-- Bits of a register whose access is a single action (R409): WO, W1C and RC fields. -/
def actionMask (a : Nat) : Nat := fieldMask ((fieldsAt a).filter fun f => f.acc == .wo || f.acc == .w1c || f.acc == .rc)

/-- A complement-protected pair that starts an action, beside those that hold a value (R519, R522, R531, R583). -/
def rwpAction (a : Nat) : Bool :=
  a == F.RST_CTL_ISLAND.base || a == F.LC_TRANSITION.base || a == F.SEC_REVOKE.base || a == F.BOOT_CONFIRM.base

/-- A register write of a ticket that has reached its hand-off before applies the same value again; single actions are not repeated
(R409). -/
def State.rewrite (s : State) (c : Nat) (t : Option (Nat × Nat)) (a v : Nat) : State :=
  if s.gatedReg a || rwpAction a || (isRwpHi a && rwpAction (a - 4)) then s
  else if isRwp a then s.rwpOpen c a v
  else if isRwpHi a then s.rwpClose c t (a - 4) v
  else s.plainWrite c t (s.stamp t) a (Nat.land v (2 ^ 32 - 1 - actionMask a))

/-- The writes have been made: the ticket is DONE, or handed off while something of it is still to come. -/
def State.settle (s : State) (c t : Nat) : State := if s.ticketBusy c t then s.handOff c t else s.finish c t 0 []

/-- What follows the register writes of one ticket as a whole: the rings in use, and the budget. -/
def State.afterRegs (s : State) (ws : List Wr) : State :=
  let s := if writesMap ws then s.judgeRings else s
  if writesReg ws F.MEM_SCRUB then s.commitRegs else s

/-- Acceptance of a register write made by its own row: the checks of a ticket that makes this one write. -/
def State.writeCode (s : State) (c : Nat) (w : Wr) : Nat :=
  let v := le w.value 0 4
  if s.regCheck c w.at_ v != 0 then s.regCheck c w.at_ v
  else if (s.isHead && !s.isBw && layerWord w.at_) || s.dlForbids w.at_ v then 8
  else if !(s.writeStateOk [w]) then 3
  else (s.ticketCheck c [w]).1

/-- REGISTER_WRITE (R237): a write that acceptance refuses has no effect; one that gives a resource a second owner is logged
(R472). -/
def execRegisterWrite (ctx : Fin 8) (addr : Nat) (value : Nat) (s : State) : Host.Outcome State Fault Refusal :=
  let w : Wr := ⟨none, addr, toLE 4 value⟩
  .next (if !s.pwr.up then s
    else match s.writeCode ctx w with
      | 0 => ((s.clipsMet [w]).regWrite ctx none addr value).afterRegs [w]
      | 2 => match (s.ticketCheck ctx [w]).2 with
        | some o => s.logConflict o ctx false
        | none => s
      | 3 => s.clipsMet [w]
      | _ => s)

/-- REG_WRITE outside a flock and a transaction. -/
def State.runRegs (s : State) (c t : Nat) (ws : List Wr) (again : Bool) : State :=
  let k := s.ticketCheck c ws
  if k.1 != 0 then
    let s := match k.2 with
      | some o => s.logConflict o c false
      | none => s
    s.finish c t k.1 []
  else
    let s := s.each ws fun s w =>
      if again then s.rewrite c (some (c, t)) w.at_ (le w.value 0 4) else s.regWrite c (some (c, t)) w.at_ (le w.value 0 4)
    (s.afterRegs ws).settle c t

/-- TABLE_WRITE outside a flock and a transaction: an entry that fails its own check stores nothing (R275, R350). -/
def State.runTable (s : State) (c t : Nat) (e pay : Bytes) : State :=
  let k := wrsCheck (s.entryWrs e pay)
  if k != 0 then s.finish c t k []
  else (s.tableWrite c (some (c, t)) (s.stamp (some (c, t))) (le e 24 2) (le e 28 4) pay).settle c t

/-- A staged write is sent; its ticket waits for the outcome (R202). -/
def State.runStaged (s : State) (c t : Nat) (e pay : Bytes) : State :=
  match s.flockOrRetired (eFlock e) with
  | some f =>
    if f.decided.isSome then s.finishOutcome f c t
    else if f.called then s.finish c t 8 []
    else ((((s.countAccesses c (s.entryWrs e pay)).onFlock f.id fun f => { f with tickets := f.tickets ++ [(c, t)] }).stageSend (c % 8) e pay).handOff c t).flockRegs
  | none => s.finish c t 8 []

/-! ### Execution of the other commands -/

/-- FLOCK_OPEN, FLOCK_CALL and FLOCK_CANCEL; the DATA of a record says what the copies have shown of it (R414). -/
def State.runFlock (s : State) (c : Nat) (r : JRec) : State :=
  let e := r.entry
  let t := r.ticket
  match eOp e with
  | 0x10 =>
    if !r.data.isEmpty then s.finish c t 0 r.data
    else
      let q := s.openFlock (c % 8) (bitOf (le e 24 1) 0)
      q.1.finish c t 0 (toLE 2 q.2)
  | 0x11 =>
    match s.flockOrRetired (eFlock e) with
    | some f =>
      if f.decided.isSome then s.finishOutcome f c t
      else if f.called then s.finish c t 8 []
      else
        let nb := le e 32 8
        (s.callFlock f.id (if nb == 0 then 0 else (s.mapCount r.tepoch nb).getD nb) (c, t)).handOff c t
    | none => s.finish c t 8 []
  | _ =>
    if !r.data.isEmpty then s.finish c t 0 []
    else match s.flock (eFlock e) with
    | some f => if f.decided.isNone then (s.cancelFlock f.id).finish c t 0 [] else s.finish c t 8 []
    | none => s.finish c t 8 []

/-- HURDLE_POST and POSE_POST (R419): the bellwether processes them under the later of τ and now (R406), unless the copies have shown that the
post was sent (R414); on a standby they wait for the bellwether's answer. -/
def State.runPost (s : State) (c : Nat) (r : JRec) : State :=
  let e := r.entry
  let tau := max r.tau s.time.clock
  if !s.isBw then s
  else if !r.data.isEmpty then s.finish c r.ticket 0 r.data
  else if eOp e == 0x08 then
    let q := s.postHurdle (le e 24 1) (le e 28 4) r.tepoch tau
    q.1.finish c r.ticket q.2.1 q.2.2
  else
    let k := le e 24 1
    let q := s.postPose (bits k 0 2) (bitOf k 2) (le e 28 4) (le e 32 4) (le e 36 4) tau
    q.1.finish c r.ticket 0 q.2

/-- TILE_SERVICE (R30): a tile is out of service, or back in it. -/
def State.tileService (s : State) (serial : Nat) (out : Bool) : State :=
  (s.onRing fun x => { x with
    tiles := x.tiles.map fun t => if t.serial == serial then { t with outOfService := out } else t
    serviced := if out then serial :: x.serviced.filter (· != serial) else x.serviced.filter (· != serial) })

/-- TUNNEL_CMD (Table 12-8). -/
def tunnelMsg (r : JRec) : Bytes :=
  mkMsg 32 [(0, 1, 0x30), (1, 1, le r.entry 24 1), (4, 4, r.ticket), (8, 8, r.originSerial), (16, 4, r.epoch), (20, 1, r.ctx)] ++ r.payload

/-- A tunnelled REG_WRITE counts for the lamps of its tile as sent (R19; DESIGN CHOICE, assumption 30). -/
def State.tunnelLamps (s : State) (target : Nat) (p : Bytes) : State :=
  let e := p.take 64
  if eOp e != 0x01 || isStaged e then s
  else
    let new := (s.stageTargets target).flatMap fun t => lampEntries t (s.entryWrs e (p.drop 64))
    s.onRing fun x => { x with lampCfg := overLamps new x.lampCfg }

/-- A ticket is carried out; `c` from 8 on names a ticket of the other head (R414). A TUNNEL whose tile has left the wall completes with LOST
(R417). -/
def State.runTicket (s : State) (c : Nat) (r : JRec) : State :=
  let e := r.entry
  let t := r.ticket
  match eOp e with
  | 0x01 =>
    if isStaged e then (if r.handoff then s else s.runStaged c t e r.payload)
    else if (s.tx c).opened && !r.handoff then (s.countAccesses c (s.entryWrs e r.payload)).txWrite c t (s.entryWrs e r.payload)
    else s.runRegs c t (s.entryWrs e r.payload) r.handoff
  | 0x02 =>
    if isStaged e then (if r.handoff then s else s.runStaged c t e r.payload)
    else if (s.tx c).opened && !r.handoff then s.txWrite c t (s.entryWrs e r.payload)
    else s.runTable c t e r.payload
  | 0x03 => (s.memMerge (s.clipBase + le e 32 8) r.payload 6).finish c t 0 []
  | 0x08 => s.runPost c r
  | 0x09 => s.runPost c r
  | 0x0A => (s.tileService (le e 32 8) (bitOf (le e 24 1) 0)).finish c t 0 []
  | 0x18 => s.txBegin c t (le e 24 1) (le e 32 8) r.tepoch
  | 0x19 => s.txEnd c t (max r.tau s.time.clock)
  | 0x1A => s.txAbort c t
  | 0x20 =>
    if r.handoff then s
    else if !(s.wallTiles.any fun x => x.hop + 256 * x.ring == eTarget e) then s.finish c t 5 []
    else
      ((s.tunnelLamps (eTarget e) r.payload).bwSend 20 (eTarget e) (tunnelMsg r)).handOff c t
  | _ => if r.handoff then s else s.runFlock c r

/-! ### Queries (R403) -/

/-- REG_READ: the values, in order; `pads`: the levels on the GPIO pads. -/
def State.readRegs (s : State) (c pads : Nat) (addrs : List Nat) : State × Bytes :=
  addrs.foldl (fun q a => let r := q.1.regRead c a pads; (r.1, q.2 ++ toLE 4 r.2)) (s, [])

/-- The clip store with the MEM_WRITEs that have been accepted and not yet executed, in the order of their acceptance (R441). -/
def State.clipWritten (s : State) : State :=
  s.each (s.host.journal.filter fun r => r.st == 1 && r.epoch == s.host.epoch && eOp r.entry == 0x03) fun s r =>
    s.memWrite (s.clipBase + le r.entry 32 8) r.payload

/-- MEM_READ: result and data. -/
def State.readMem (s : State) (r off len : Nat) : State × Nat × Bytes :=
  if 2 ≤ r ∧ r ≤ 5 then
    let n := r - 2
    let ws := (List.range (ceilDiv (off % 4 + len) 4)).map fun k => off / 4 + k
    if ws.any (s.fold n).scratchBad.contains then (s, 4, [])
    else (s, 0, ((ws.flatMap fun w => toLE 4 ((s.fold n).scratch.get w)).drop (off % 4)).take len)
  else match s.memRegion r with
    | some q =>
      let a := q.1 + off
      let v := if r = 0 then s.clipWritten else s
      let s := s.memTouch a len 6
      if v.memBad a len then (s, 4, []) else (s, 0, v.memRead a len)
    | none => (s, 3, [])

/-- TICKET_QUERY: DATA of the record, or state 0 when there is none. -/
def ticketData (r : Option JRec) : Bytes :=
  match r with
  | some r => mkMsg 16 [(0, 1, r.st), (1, 1, r.result), (2, 1, eOp r.entry), (4, 4, r.epoch), (8, 8, r.tau / nsU)] ++ (r.data ++ zeros 16).take 16
  | none => zeros 32

/-- FLOCK_QUERY. -/
def State.flockData (s : State) (f : Option Flock) : Bytes :=
  match f with
  | some f => mkMsg 24 [(0, 1, f.st), (1, 1, f.reason), (4, 4, (f.votes.filter Vote.ready).length),
      (8, 4, (f.votes.filter fun v => !v.ready).length), (12, 4, ((s.awaited f).filter f.acks.contains).length), (16, 8, f.t)]
  | none => zeros 24

/-- Answer a query that has passed the checks. -/
def State.query (s : State) (c : Nat) (k : Checked) (pads : Nat) : State :=
  let e := k.entry
  match eOp e with
  | 0x40 =>
    let q := s.readRegs c pads ((List.range (le e 24 1)).map fun j => le e (28 + 4 * j) 4)
    q.1.answer c e 0 k.originTicket k.originCtx q.2 []
  | 0x41 =>
    let q := s.readMem (le e 24 1) (le e 32 8) (le e 40 4)
    let dma := s.f F.CTXn_BIND_TRANSPORT c == 1
    let s := if dma && q.2.1 == 0 then q.1.emit (.dma c (eAddr e) q.2.2) else q.1
    s.answer c e q.2.1 k.originTicket k.originCtx [] (if dma then [] else q.2.2)
  | 0x42 =>
    let x := le e 25 1
    let peer := bitOf (le e 24 1) 0
    let find := fun (s : State) => if peer then s.jrec (8 + x) (le e 28 4) else s.jrec x (le e 28 4)
    let s := match find s with
      | some r => if peer then s.usePeerRec r else s.useRec r
      | none => s
    let r := find s
    s.answer c e 0 k.originTicket k.originCtx (ticketData r) []
  | _ => s.answer c e 0 k.originTicket k.originCtx (s.flockData (s.flock (eFlock e))) []

/-! ### Taking commands (R400, R404, R406) -/

/-- The context may take the entry at SQ_HEAD: its transport is up, completions are not held back, and no checked entry waits. -/
def State.mayTake (s : State) (c : Nat) : Bool :=
  s.boot.running && s.on iMEM && s.transportUp c && !(s.b F.CTXn_STATUS_CQ_FULL c) && (s.ctx c).checked.isNone &&
    s.f F.CTXn_SQ_HEAD c != s.f F.CTXn_SQ_TAIL c

/-- The record of a checked entry, as it will stand at its acceptance. -/
def State.newRec (s : State) (c : Nat) (k : Checked) : JRec where
  entry := k.entry
  payload := k.payload
  ticket := s.f F.CTXn_NEXT_TICKET c
  ctx := c
  peer := false
  st := 1
  result := 0
  handoff := false
  accWritten := false
  doneWritten := false
  consumed := false
  epoch := s.host.epoch
  tau := s.time.clock
  doneTime := 0
  originSerial := k.originSerial
  originTicket := k.originTicket
  originCtx := k.originCtx
  data := []
  sqIndex := s.f F.CTXn_SQ_HEAD c
  tepoch := s.f F.TIME_TEPOCH
  slot := lowestFree (s.host.journal.map JRec.slot)
  unit := lowestFree ((s.host.journal.filter fun r => r.st != 3 && !r.payload.isEmpty).map JRec.unit)
  start := (s.ctx c).startAt

/-- The entry at SQ_HEAD is checked: rejected, answered, or held until its record is stored, for which the other head's
acknowledgement is awaited while mirroring is up (R140). -/
def State.takeEntry (s : State) (c : Nat) (k : Checked) (readOk : Bool) (pads : Nat) : State :=
  let code := s.entryCode c k.entry k.payload readOk
  let s := (s.ringRead c).entryMet k.entry k.payload code
  if code != 0 then s.reject c k.entry code k.originTicket k.originCtx
  else if isQuery (eOp k.entry) then s.query c k pads
  else
    let s' := s.onCtx c fun x => { x with checked := some k }
    if s.isHead && s.ring.mirrorUp then
      (s'.headSend 41 (mirrorMsg (s.newRec c k))).onRing fun r => { r with mirrors := r.mirrors ++ [(s.time.aon, c)] }
    else s'

/-- A command of opcode `op` is taken from context `c`: the entry that a datagram or message has placed at SQ_HEAD, else on PCIe
the one that the host has written there. An entry with an opcode outside Table 12-4 is rejected by whichever command names it. -/
def State.command (s : State) (op c : Nat) (entry pay : Bytes) (readOk : Bool) (pads : Nat) : State :=
  if !(s.mayTake c) then s
  else
    let k : Option Checked := match (s.ctx c).sq.find? fun q => q.1 == s.f F.CTXn_SQ_HEAD c with
      | some q => some q.2
      | none => if s.f F.CTXn_BIND_TRANSPORT c == 1 then some ⟨(entry ++ zeros 64).take 64, pay.take (eLen entry), s.serial, 0, 0⟩ else none
    match k with
    | none => s
    | some k => if eOp k.entry == op || !(opDefined (eOp k.entry)) then s.takeEntry c k readOk pads else s

/-- REG_WRITE (R403). -/
def execRegWrite (ctx : Fin 8) (entry payload : Bytes) (readOk : Bool) (s : State) : Host.Outcome State Fault Refusal :=
  .next (s.command 0x01 ctx entry payload readOk 0)
/-- TABLE_WRITE (R403). -/
def execTableWrite (ctx : Fin 8) (entry payload : Bytes) (readOk : Bool) (s : State) : Host.Outcome State Fault Refusal :=
  .next (s.command 0x02 ctx entry payload readOk 0)
/-- MEM_WRITE (R441). -/
def execMemWrite (ctx : Fin 8) (entry payload : Bytes) (readOk : Bool) (s : State) : Host.Outcome State Fault Refusal :=
  .next (s.command 0x03 ctx entry payload readOk 0)
/-- HURDLE_POST (R261, R418, R419). -/
def execHurdlePost (ctx : Fin 8) (entry : Bytes) (s : State) : Host.Outcome State Fault Refusal :=
  .next (s.command 0x08 ctx entry [] true 0)
/-- POSE_POST (R283, R418, R419). -/
def execPosePost (ctx : Fin 8) (entry : Bytes) (s : State) : Host.Outcome State Fault Refusal :=
  .next (s.command 0x09 ctx entry [] true 0)
/-- TILE_SERVICE (R403). -/
def execTileService (ctx : Fin 8) (entry : Bytes) (s : State) : Host.Outcome State Fault Refusal :=
  .next (s.command 0x0A ctx entry [] true 0)
/-- FLOCK_OPEN (R201). -/
def execFlockOpen (ctx : Fin 8) (entry : Bytes) (s : State) : Host.Outcome State Fault Refusal :=
  .next (s.command 0x10 ctx entry [] true 0)
/-- FLOCK_CALL (R206). -/
def execFlockCall (ctx : Fin 8) (entry : Bytes) (s : State) : Host.Outcome State Fault Refusal :=
  .next (s.command 0x11 ctx entry [] true 0)
/-- FLOCK_CANCEL (R199). -/
def execFlockCancel (ctx : Fin 8) (entry : Bytes) (s : State) : Host.Outcome State Fault Refusal :=
  .next (s.command 0x12 ctx entry [] true 0)
/-- TXBEGIN (R222). -/
def execTxbegin (ctx : Fin 8) (entry : Bytes) (s : State) : Host.Outcome State Fault Refusal :=
  .next (s.command 0x18 ctx entry [] true 0)
/-- TXEND (R223). -/
def execTxend (ctx : Fin 8) (entry : Bytes) (s : State) : Host.Outcome State Fault Refusal :=
  .next (s.command 0x19 ctx entry [] true 0)
/-- TXABORT (R223). -/
def execTxabort (ctx : Fin 8) (entry : Bytes) (s : State) : Host.Outcome State Fault Refusal :=
  .next (s.command 0x1A ctx entry [] true 0)
/-- TUNNEL (R416). -/
def execTunnel (ctx : Fin 8) (entry payload : Bytes) (readOk : Bool) (s : State) : Host.Outcome State Fault Refusal :=
  .next (s.command 0x20 ctx entry payload readOk 0)
/-- REG_READ (R403). -/
def execRegRead (ctx : Fin 8) (entry : Bytes) (pads : Nat) (s : State) : Host.Outcome State Fault Refusal :=
  .next (s.command 0x40 ctx entry [] true pads)
/-- MEM_READ (R441). -/
def execMemRead (ctx : Fin 8) (entry : Bytes) (s : State) : Host.Outcome State Fault Refusal :=
  .next (s.command 0x41 ctx entry [] true 0)
/-- TICKET_QUERY (R403). -/
def execTicketQuery (ctx : Fin 8) (entry : Bytes) (s : State) : Host.Outcome State Fault Refusal :=
  .next (s.command 0x42 ctx entry [] true 0)
/-- FLOCK_QUERY (R199). -/
def execFlockQuery (ctx : Fin 8) (entry : Bytes) (s : State) : Host.Outcome State Fault Refusal :=
  .next (s.command 0x43 ctx entry [] true 0)

/-! ### Tickets (R406 to R409) -/

/-- The checked command of a context becomes a ticket at τ. -/
def State.accept (s : State) (c : Nat) (k : Checked) : State :=
  let r := s.newRec c k
  let s := s.onHost fun h => { h with journal := h.journal ++ [r] }
  let s := s.setNext c (nextNumber r.ticket)
  let s := ((s.put F.CTXn_INFLIGHT (s.f F.CTXn_INFLIGHT c + 1) c).inc F.CTXn_ACCEPTED c).journalRegs
  let s := ((s.takeSq c).answered c 200).onCtx c fun x => { x with checked := none }
  s.complete c ⟨completion r.ticket 1 0 r.sqIndex 0 (eOp k.entry) (eCookie k.entry) s.host.epoch s.cqTime [], k.originTicket, k.originCtx, [],
    eIrq k.entry⟩

/-- TICKET_ACCEPT: not before the other head has acknowledged the record, while mirroring is up. -/
def execTicketAccept (ctx : Fin 8) (s : State) : Host.Outcome State Fault Refusal :=
  .next (match (s.ctx ctx).checked with
    | some k => if s.on iMEM && !(s.ring.mirrors.any fun m => m.2 == ctx.val) then s.accept ctx k else s
    | none => s)

/-- The first ticket of a context that has not reached its hand-off or is to be executed again; it may run only when it is next. -/
def nextTicket (rs : List JRec) : Option JRec :=
  match rs.find? fun r => r.st == 1 || (r.st == 2 && !r.handoff) with
  | some r => if r.st == 1 then some r else none
  | none => none

/-- The other head is lost, and its wall-wide tickets are this head's to finish (R414). -/
def State.survivor (s : State) : Bool :=
  s.isBw && match s.ring.peer with
    | some h => h.state == hsDemoted
    | none => true

/-- Wall-wide tickets (R414). -/
def wallWide (r : JRec) : Bool := isStaged r.entry || [0x03, 0x08, 0x09, 0x0A, 0x10, 0x11, 0x12, 0x20].contains (eOp r.entry)

/-- The next of the other head's wall-wide tickets of context `c`, which a survivor finishes, and the next of this node's own. -/
def State.nextPeer (s : State) (c : Nat) : Option JRec :=
  if s.survivor then nextTicket (s.host.peerJournal.filter fun r => r.ctx == c && wallWide r) else none
def State.nextOwn (s : State) (c : Nat) : Option JRec :=
  nextTicket (s.host.journal.filter fun r => r.ctx == c && r.epoch == s.host.epoch)

/-- TICKET_EXECUTE: the next ticket of the context, once its record passes its check (R411), enters EXECUTING and is carried out; on a
survivor the other head's wall-wide tickets come first. -/
def execTicketExecute (ctx : Fin 8) (s : State) : Host.Outcome State Fault Refusal :=
  .next (if !(s.on iMEM && s.boot.running) then s
    else
      let s := match s.nextPeer ctx with
        | some r => s.usePeerRec r
        | none => match s.nextOwn ctx with
          | some r => s.useRec r
          | none => s
      match s.nextPeer ctx with
      | some r => (s.onRec (8 + r.ctx) r.ticket fun r => { r with st := 2 }).runTicket (8 + r.ctx) r
      | none => match s.nextOwn ctx with
        | some r => (s.onRec ctx r.ticket fun r => { r with st := 2 }).runTicket ctx r
        | none => s)

end Sys2Proof.Machine
end

