-- ==== Sys2Proof/Machine/Peer.lean ====
section
/-! DEFINITION. What reaches the node from hosts and from the other nodes for its contexts (spec/12_hosts_and_tickets.md): management
datagrams (R397), the ring tunnel (R416, R417), mirrored records (R413, R414), and what a head does when the other head or a tile
comes or goes (R133, R137, R145, R150). -/
set_option Elab.async false
namespace Sys2Proof.Machine

/-! ### Management datagrams (R397) -/

/-- Place an entry in the command ring and advance SQ_TAIL. -/
def State.placeEntry (s : State) (c : Nat) (k : Checked) : State :=
  let t := s.f F.CTXn_SQ_TAIL c
  (s.onCtx c fun x => { x with sq := (t, k) :: x.sq.filter fun q => q.1 != t }).sqTail c ((t + 1) % 4096)

/-- MGMT_ENTRY_RX: placed at SQ_TAIL, ignored as a retransmission, or discarded and counted. -/
def execMgmtEntryRx (ctx : Fin 8) (src : Peer) (index : Nat) (entry payload : Bytes) (s : State) : Host.Outcome State Fault Refusal :=
  .next (let c := ctx.val
    if !(s.pwr.up && s.on iPERIPH && s.b F.HOST_MGMT_CFG) then s
    else if s.f F.CTXn_BIND_TRANSPORT c != 2 then s.wrongTransport c
    else
      let t := s.f F.CTXn_SQ_TAIL c
      let peer := s.f F.CTXn_PEER c
      let full := (t + 1) % 4096 == s.f F.CTXn_SQ_HEAD c
      if (peer != 0 && src.ip != peer) || decide (4096 ≤ index) then s.inc F.CTXn_DISCARDED c
      else if index == t && !full then
        (s.placeEntry c ⟨(entry ++ zeros 64).take 64, payload, s.serial, 0, 0⟩).onCtx c fun x => { x with
          source := src.ip, sourcePort := src.port }
      else if index != t && decide ((t + 4096 - index) % 4096 ≤ 64) then s
      else s.inc F.CTXn_DISCARDED c)

/-- CQ_DATA datagrams of the entries from index `i` on, at most 16 in each. -/
def State.sendCq (s : State) (c : Nat) : Nat → Nat → Nat → State
  | 0, _, _ => s
  | fuel + 1, i, n =>
    if n = 0 then s
    else
      let k := min 16 n
      let es := (List.range k).flatMap fun j => (((s.ctx c).cq.find? fun p => p.1 == (i + j) % 8192).map (·.2)).getD (zeros 64)
      State.sendCq (s.emit (.dgram (s.ctx c).source (s.ctx c).sourcePort (mkMsg 4 [(0, 1, 3), (1, 1, c), (2, 2, i)] ++ es))) c fuel
        ((i + k) % 8192) (n - k)

/-- MGMT_CQ_READ_RX. -/
def execMgmtCqReadRx (ctx : Fin 8) (src : Peer) (index : Nat) (s : State) : Host.Outcome State Fault Refusal :=
  .next (let c := ctx.val
    if !(s.pwr.up && s.on iPERIPH && s.b F.HOST_MGMT_CFG) then s
    else if s.f F.CTXn_BIND_TRANSPORT c != 2 then s.wrongTransport c
    else
      let s := if (s.ctx c).source == 0 then s.onCtx c fun x => { x with source := src.ip, sourcePort := src.port } else s
      let s := s.cqHead c index
      let s := (s.memTouch (0x28040000 + c * 2 ^ 20) 0x80000 5).memHeal (0x28040000 + c * 2 ^ 20) 0x80000
      if s.f F.CTXn_CQ_HEAD c != index then s
      else s.sendCq c 512 index ((s.f F.CTXn_CQ_TAIL c + 8192 - index) % 8192))

/-- MGMT_ARP_RX: the node answers for its own address with its MAC address. -/
def execMgmtArpRx (target asker : Nat) (s : State) : Host.Outcome State Fault Refusal :=
  .next (if s.pwr.up && s.on iPERIPH && s.b F.HOST_MGMT_CFG && target == s.f F.HOST_MGMT_IP then
    s.emit (.dgram asker 0 (toLE 6 (s.f64 F.SEC_MAC_LO F.SEC_MAC_HI)))
  else s)

/-! ### The ring tunnel (R416, R417) -/

/-- A tunnelled command that has been taken before is answered from its record, or with LOST when the record is gone; one that still waits in
the command ring is answered in its turn. -/
def State.answerAgain (s : State) (c serial ticket oc : Nat) (e : Bytes) : State :=
  let find := fun (s : State) => s.host.journal.find? fun r => r.ctx == c && r.originSerial == serial && r.originTicket == ticket
  let s := match find s with
    | some r => s.useRec r
    | none => s
  let mine := fun (k : Checked) => k.originSerial == serial && k.originTicket == ticket
  if ((s.ctx c).sq.any fun q => mine q.2) || (s.ctx c).checked.any mine then s
  else match find s with
  | some r =>
    let kind := if r.st == 3 then 3 else 1
    s.reply c none ticket oc (completion r.ticket kind 0 r.sqIndex r.result (eOp r.entry) (eCookie r.entry) r.epoch
      (if r.st == 3 then r.doneTime / nsU else r.tau / nsU) (if r.st == 3 then r.data else [])) []
  | none => s.reply c none ticket oc (completion 0 2 0 0 5 (eOp e) (eCookie e) s.host.epoch s.cqTime []) []

/-- TUNNEL_CMD arrives at a tile. -/
def State.rxTunnelCmd (s : State) (p : Bytes) : State :=
  let c := bits (le p 1 1) 0 3
  let ticket := le p 4 4
  let serial := le p 8 8
  let oc := le p 20 1
  let e := ((p.drop 32) ++ zeros 64).take 64
  if !s.isTile || le p 0 1 != 0x30 then s
  else if s.f F.CTXn_BIND_TRANSPORT c != 3 then s.wrongTransport c
  else
    let last := (s.host.taken.find? fun t => t.1 == (c, serial)).map (·.2)
    let dup := match last with
      | some l => decide (seqDiff 32 ticket l ≤ 0)
      | none => false
    if oc != s.f F.CTXn_BIND_HEAD_CTX c then
      (s.inc F.CTXn_REJECTED c).complete c
        ⟨completion 0 2 0 (s.f F.CTXn_SQ_TAIL c) 17 (eOp e) (eCookie e) s.host.epoch s.cqTime [], ticket, oc, [], eIrq e⟩
    else if dup then s.answerAgain c serial ticket oc e
    else
      (s.onHost fun h => { h with taken := ((c, serial), ticket) :: h.taken.filter fun t => t.1 != (c, serial) }).placeEntry c
        ⟨e, p.drop 96, serial, ticket, oc⟩

/-- TUNNEL_CMD_RX (R417). -/
def execTunnelCmdRx (payload : Bytes) (s : State) : Host.Outcome State Fault Refusal :=
  .next (if s.pwr.up && s.on iLINK then s.rxTunnelCmd payload else s)

/-- REPLY_ACK arrives at a tile: the completion counts as consumed, and CQ_HEAD moves past the entries acknowledged so far; a REPLY
with no entry in the ring frees the record of the DONE entry that it repeats. -/
def State.rxReplyAck (s : State) (p : Bytes) : State :=
  if !s.isTile || le p 0 1 != 0x31 || le p 8 8 != s.serial then s
  else
    match s.host.replies.find? fun r => r.seq == le p 4 4 with
    | none => s
    | some q =>
      let s := s.onHost fun h => { h with replies := h.replies.filter fun r => r.seq != q.seq }
      match q.index with
      | none => if le q.body 36 1 == 3 then s.freeRec q.ctx (le q.body 32 4) else s
      | some _ =>
        match (s.host.replies.filter fun r => r.ctx == q.ctx).findSome? Reply.index with
        | some i => s.cqHead q.ctx i
        | none => s.cqHead q.ctx (s.f F.CTXn_CQ_TAIL q.ctx)

/-- REPLY_ACK_RX (R417). -/
def execReplyAckRx (payload : Bytes) (s : State) : Host.Outcome State Fault Refusal :=
  .next (if s.pwr.up && s.on iLINK then s.rxReplyAck payload else s)

/-- REPLY_REPEAT_TIMER (R417). -/
def execReplyRepeatTimer (seq : Nat) (s : State) : Host.Outcome State Fault Refusal :=
  .next (match s.host.replies.find? fun r => r.seq == seq with
    | some r => if s.isTile && s.on iLINK then s.tileSend 34 s.tileAddr r.body else s
    | none => s)

/-- The ticket that a REPLY answers: the node's own, else one of the other head (R414). -/
def State.tunnelTicket (s : State) (oc ticket : Nat) : Option (Nat × JRec) :=
  let open_ := fun (r : JRec) => eOp r.entry == 0x20 && r.st != 3
  match s.jrec oc ticket with
  | some r => if open_ r then some (oc, r) else none
  | none => match s.jrec (8 + oc) ticket with
    | some r => if open_ r then some (8 + oc, r) else none
    | none => none

/-- The origin context of a REPLY is the other head's: its ticket is one of those that this head finishes (R414). -/
def State.peerOrigin (s : State) (oc ticket : Nat) : Bool :=
  let tunnel := fun (r : JRec) => eOp r.entry == 0x20
  !((s.jrec oc ticket).any tunnel) && (s.jrec (8 + oc) ticket).any tunnel

/-- A new REPLY is relayed into its origin context as a RELAYED entry, with its answer data by DMA to RESULT_ADDR or in CQ_DATA; the
tile's first answer completes the TUNNEL ticket, and counts as late after 1 ms on a closed ring (R405). A context of the other head has no ring
here: of a REPLY to it only the DATA of its ticket is kept (DEDUCED, assumption 93). -/
def State.relay (s : State) (p : Bytes) (addr : Nat) : State :=
  let oc := bits (le p 20 1) 0 3
  let ticket := le p 16 4
  let e := (p.drop 32 ++ zeros 64).take 64
  let ans := p.drop 96
  let e' := Sys2Proof.Machine.put (Sys2Proof.Machine.put e 5 1 (2 + 4 * bits (le p 1 1) 0 3)) 6 2 addr
  let s := s.useJrec oc ticket
  let q := s.tunnelTicket oc ticket
  let dma := s.f F.CTXn_BIND_TRANSPORT oc == 1
  let s := match s.jrec oc ticket with
    | some r => if dma && !ans.isEmpty then s.emit (.dma oc (le r.entry 32 8) ans) else s
    | none => s
  let late := match q with
    | some k => k.1 == oc && le e 4 1 != 5 && s.b F.RINGr_INFO_CLOSED (addr / 256) && decide (k.2.start + 1000000 < s.hostTime oc)
    | none => false
  let s := if late then s.inc F.CTXn_LATE oc else s
  let s := if s.peerOrigin oc ticket then s else s.complete oc ⟨e', 0, 0, if dma then [] else ans, false⟩
  match q with
  | some k => if le e 4 1 == 5 then s
    else s.finish k.1 k.2.ticket 0 (mkMsg 12 [(0, 4, le e 0 4), (4, 1, le e 4 1), (5, 1, le e 8 1), (8, 4, le e 16 4)])
  | none => s

/-- REPLY arrives at the bellwether: relayed once, acknowledged each time. -/
def State.rxReply (s : State) (p : Bytes) : State :=
  let serial := le p 8 8
  let seq := le p 4 4
  match s.ring.tiles.find? fun t => t.serial == serial with
  | none => s
  | some t =>
    let addr := t.hop + 256 * t.ring
    if !s.isBw || le p 0 1 != 0x38 then s
    else
      let s := if s.host.relayed.contains (serial, seq) then s
        else (s.onHost fun h => { h with relayed := ((serial, seq) :: h.relayed).take 65536 }).relay p addr
      s.bwSend 20 addr (mkMsg 16 [(0, 1, 0x31), (4, 4, seq), (8, 8, serial)])

/-- TUNNEL_REPLY_RX (R417). -/
def execTunnelReplyRx (payload : Bytes) (s : State) : Host.Outcome State Fault Refusal :=
  .next (if s.pwr.up && s.on iLINK then s.rxReply payload else s)

/-! ### Mirrored records (R140, R413, R419) -/

/-- The answer to a post that the bellwether has processed for the standby: the model's own framing (kind 3). -/
def postDoneMsg (c ticket result : Nat) (data : Bytes) : Bytes :=
  mkMsg 8 [(0, 1, 3), (1, 1, c), (2, 1, result), (4, 4, ticket)] ++ (data ++ zeros 32).take 32

/-- The bellwether processes a post that the standby has accepted, with the standby's τ, and is done with it (R414, R419). -/
def State.postForPeer (s : State) (r : JRec) : State :=
  let e := r.entry
  let tau := max r.tau s.time.clock
  let q := if eOp e == 0x08 then s.postHurdle (le e 24 1) (le e 28 4) r.tepoch tau
    else
      let k := le e 24 1
      let x := s.postPose (bits k 0 2) (bitOf k 2) (le e 28 4) (le e 32 4) (le e 36 4) tau
      (x.1, 0, x.2)
  (q.1.finish (8 + r.ctx) r.ticket q.2.1 q.2.2).headSend 41 (postDoneMsg r.ctx r.ticket q.2.1 q.2.2)

/-- A post that the standby has accepted and that waits to be processed (R419). -/
def postWaits (r : JRec) : Bool := (eOp r.entry == 0x08 || eOp r.entry == 0x09) && r.st != 3 && !r.handoff

/-- A record, or a change of one, arrives on stream 41: a new one is acknowledged; a clip write reaches this head's clip store (R53);
a consumed one is freed. What is done here stays done (R414); a FLOCK_OPEN that starts to execute is none that opened a flock held here. -/
def State.rxRecord (s : State) (record payload : Bytes) : State :=
  let held := s.host.peerJournal
  let r := { JRec.ofBytes record payload true with
    tepoch := s.epochAt (le record 80 8 * nsU), slot := lowestFree (held.map JRec.slot), unit := lowestFree (held.map JRec.unit) }
  let same := fun (x : JRec) => x.ctx == r.ctx && x.ticket == r.ticket && x.epoch == r.epoch
  match s.host.peerJournal.find? same with
  | none =>
    if r.consumed then s
    else
      let s := (s.onHost fun h => { h with
        peerJournal := h.peerJournal ++ [r], peerEpoch := r.epoch, peerNext := modAt h.peerNext r.ctx fun _ => nextNumber r.ticket }).journalRegs
      let s := if eOp r.entry == 0x03 then s.memMerge (s.clipBase + le r.entry 32 8) payload 6 else s
      s.headSend 41 (mirrorAckMsg r.ctx r.ticket)
  | some old =>
    if r.consumed then (s.onHost fun h => { h with peerJournal := h.peerJournal.filter fun x => !(same x) }).journalRegs
    else
      let new := { r with payload := old.payload, tepoch := old.tepoch, slot := old.slot, unit := old.unit, handoff := r.handoff || old.handoff }
      let new := if old.st == 3 then { new with st := 3, result := old.result, data := old.data, doneTime := old.doneTime } else new
      let s := s.onHost fun h => { h with peerJournal := h.peerJournal.map fun x => if same x then new else x }
      let s := if eOp r.entry == 0x0A && r.st == 3 && old.st != 3 then s.tileService (le r.entry 32 8) (bitOf (le r.entry 24 1) 0) else s
      let s := s.when (eOp r.entry == 0x10 && old.st == 1 && r.st == 2) fun s => s.onFlocks fun l => l.map fun f =>
        if f.opener == r.originSerial && f.ctx == r.ctx then { f with placed := true } else f
      if s.isBw && postWaits new && r.st == 2 then s.postForPeer new else s

/-- MIRROR_RECORD_RX. -/
def execMirrorRecordRx (record payload : Bytes) (s : State) : Host.Outcome State Fault Refusal :=
  .next (if s.isHead && s.pwr.up then s.rxRecord record payload else s)

/-- The acknowledgement of a record: its acceptance need wait no longer. -/
def State.rxMirrorAck (s : State) (c ticket : Nat) : State :=
  if s.f F.CTXn_NEXT_TICKET c == ticket then s.onRing fun r => { r with mirrors := r.mirrors.filter fun m => m.2 != c } else s
def execMirrorAckRx (ctx : Fin 8) (ticket : Nat) (s : State) : Host.Outcome State Fault Refusal :=
  .next (if s.isHead && s.pwr.up then s.rxMirrorAck ctx ticket else s)

/-- Mirroring is down (R140); for R151 that is a lapse. The bellwether processes the posts that it holds of the standby, of whose execution it
will not hear (R419; DEDUCED, assumption 93). -/
def State.mirrorEnd (s : State) : State :=
  if s.ring.mirrorUp then
    let s := ((s.onRing fun r => { r with mirrorUp := false, mirrors := [] }).flag F.RING_STATUS_MIRROR_UP false).lapse
    s.when s.isBw fun s => s.each (s.host.peerJournal.filter postWaits) State.postForPeer
  else s

/-- MIRROR_ACK_TIMEOUT (R140): 50 µs without the acknowledgement; tickets are accepted unmirrored. -/
def execMirrorAckTimeout (s : State) : Host.Outcome State Fault Refusal :=
  .next (if s.isHead && s.ring.mirrorUp && s.ring.mirrors.any fun m => decide (m.1 + 50000 < s.time.aon) then
    s.mirrorEnd.inc F.RING_MIRROR_DOWN
  else s)

/-- A stream-41 message by its kind. -/
def State.rxMirror (s : State) (p : Bytes) : State :=
  match le p 0 1 with
  | 1 => s.rxRecord ((p.drop 8).take 256) (p.drop 264)
  | 2 => s.rxMirrorAck (bits (le p 1 1) 0 3) (le p 4 4)
  | 3 => s.finish (bits (le p 1 1) 0 3) (le p 4 4) (le p 2 1) ((p.drop 8).take 32)
  | 4 => match s.jrec (bits (le p 1 1) 0 3) (le p 4 4) with
    | some r => s.headSend 41 (mirrorMsg r)
    | none => s
  | 5 => s.onHost fun h => { h with peerEpoch := le p 4 4, peerNext := (List.range 8).map fun c => le p (8 + 4 * c) 4 }
  | _ => s

/-! ### The other head and the tiles come and go -/

/-- What a RESYNC copy says of a tile besides its serial, ring and hop. -/
def TileRec.flags (t : TileRec) : Nat := b2n t.excess + 2 * b2n t.present + 4 * b2n t.outOfService

/-- The bellwether's copies to a returning head on stream 43 (R150): the configuration, every register of it, with the base and size of
the clip store (R438) and with the enumerated wall and its lamps; journals; and the clip store with its directory last, where a byte
that is not named is 0. Mirroring is up from the end of the journal phase. The framing is the model's own (assumption 74). -/
def State.resyncCopies (s : State) : State :=
  let s := s.headSend 43 (mkMsg 24 [(0, 1, 1), (4, 4, s.ingest.configEpoch), (8, 8, s.clipBase), (16, 8, s.clipSize)] ++
    configOffsets.flatMap fun a => toLE 4 a ++ toLE 4 (s.reg a).toNat)
  let s := s.headSend 43 (mkMsg 8 [(0, 1, 7), (1, 1, s.f F.TIME_TEPOCH), (2, 1, s.time.epochs.length)] ++
    (s.time.epochs.flatMap fun e => mkMsg 8 [(0, 1, e.code), (1, 1, e.slots), (4, 4, e.phase)]) ++ s.time.changes.flatMap (toLE 16))
  let done := (List.range 6).foldl (fun m r => m + 2 ^ r * s.f F.RINGr_INFO_ENUM_DONE r) 0
  let s := s.headSend 43 (mkMsg 8 [(0, 1, 5), (1, 1, s.ring.gen), (2, 2, s.ring.tiles.length), (4, 1, done)] ++
    (s.ring.tiles.flatMap fun t => mkMsg 16 [(0, 8, t.serial), (8, 1, t.ring), (9, 1, t.hop), (10, 1, t.flags)]) ++
    s.ring.lampCfg.flatMap fun e => mkMsg 16 [(0, 8, e.1), (8, 4, e.2.1), (12, 4, e.2.2)])
  let s := (s.each s.host.journal State.useRec).each s.host.peerJournal State.usePeerRec
  let s := s.headSend 43 (mkMsg 8 [(0, 1, 8), (1, 1, b2n s.ring.peerWhole), (4, 4, s.host.peerEpoch)] ++ s.host.peerNext.flatMap (toLE 4))
  let s := s.each (s.host.journal ++ s.host.peerJournal) fun s r => s.headSend 43 (mkMsg 8 [(0, 1, 2), (1, 1, b2n s.ring.peerWhole)] ++ r.bytes ++ r.payload)
  let s := (s.headSend 43 (mkMsg 8 [(0, 1, 4), (1, 1, 2)])).mirrorStart.onRing fun r => { r with resyncSent := true }
  let dir := fun (m : Host.Cell) => decide (m.1 < s.clipBase + 4096 * 64)
  let clip := s.mem.filter fun m => decide (s.clipBase ≤ m.1)
  let part := fun (l : Memory) => mkMsg 8 [(0, 1, 3)] ++ l.flatMap fun m => toLE 8 m.1 ++ [m.2]
  let s := ((s.headSend 43 (mkMsg 8 [(0, 1, 6)])).headSend 43 (part (clip.filter fun m => !(dir m)))).headSend 43 (part (clip.filter dir))
  s.headSend 43 (mkMsg 8 [(0, 1, 4), (1, 1, 3)])

/-- TUNNEL tickets whose tile has left before answering complete with LOST (R417). -/
def State.loseTunnels (s : State) (addr : Nat) : State :=
  let waits := fun (r : JRec) => eOp r.entry == 0x20 && r.st != 3 && r.handoff && eTarget r.entry == addr
  let s := s.finishAll ((s.host.journal.filter waits).map fun r => (r.ctx, r.ticket)) 5 []
  s.finishAll ((s.host.peerJournal.filter waits).map fun r => (8 + r.ctx, r.ticket)) 5 []

/-- TILE_HEALTH_TIMEOUT (R133): no health report for 1 s; the tile leaves the wall, and its index stays reserved. The other head, which
gets the same reports (R139), brings its own record up to date. -/
def execTileHealthTimeout (serial : Nat) (s : State) : Host.Outcome State Fault Refusal :=
  .next (match s.ring.tiles.find? fun t => t.serial == serial && t.present with
    | some x => if s.isHead && decide (x.lastHealth + 1000000000 < s.time.aon) then
        let gone := fun (t : TileRec) => if t.serial == serial then { t with present := false } else t
        let s := (s.onRing fun r => { r with tiles := r.tiles.map gone }).reclassify.judgeRings
        if s.isBw then (s.retireAll.sendWall).loseTunnels (x.hop + 256 * x.ring) else s
      else s
    | none => s)

/-- The other head is heard on a port (R157). -/
def State.heard (s : State) (p : Nat) : State :=
  let direct := p == 6
  let s := s.onRing fun r => { r with
    lastHello := s.time.aon, lastDirect := if direct then s.time.aon else r.lastDirect }
  let s := s.flag F.RING_STATUS_PEER
  if direct then s.flag F.RING_STATUS_PEER_DIRECT else s

/-- The state machine of a head on a HELLO (R136, R145, R149, R151). -/
def State.helloState (s : State) (h : Hello) : State :=
  let wins := headWins s.prio s.serial h.prio h.serial
  let st := s.f F.RING_STATUS_STATE
  if st == hsElecting then
    if h.state == hsBellwether || !wins then s.setHead hsResync else s.elected
  else if st == hsBellwether && h.state == hsBellwether then
    if wins then (s.bwSend 21 0 (mkMsg 2 [(0, 1, 5), (1, 1, s.ring.gen)])).enumerate else s.setHead hsDemoted
  else if st == hsStandby && h.state == hsDemoted then s.takeover 3
  else if st == hsStandby && !h.final.isEmpty then
    (s.onRing fun r => { r with
      tallies := h.final.map (fun p => (p.1, (p.2 + 1) % 2 ^ 32)) ++
        r.tallies.filter fun p => !(h.final.any fun q => q.1 == p.1) }).becomeBw 2
  else s

/-- What a head other than the bellwether learns from the bellwether's HELLO: its serial, the classification, and a wave to start
(R130, R131, R137, R163). -/
def State.helloLearn (s : State) (h : Hello) : State :=
  if s.isBw || h.state != hsBellwether then s
  else
    let s := (s.setBwSide h.serial).flag F.RING_STATUS_COMPACT h.compact
    match h.wave with
    | none => s
    | some (r, dir, hop, base, g) =>
      if s.ring.waveSent == some (g, r, dir) then s
      else
        let s := if g == s.ring.gen then s else s.headGen g
        match s.enumPort r dir with
        | some p => (s.onRing fun x => { x with waveSent := some (g, r, dir) }).sendEnum p r hop base dir (s.headASerial r)
        | none => s

/-- A HELLO passes its window (R126, R135 to R137, R140, R143, R145, R149 to R151). -/
def State.takeHello (s : State) (h : Hello) : State :=
  let before := (s.ring.peer.map (fun q => q.state)).getD h.state
  let s := s.onRing fun r => { r with
    peer := some ⟨h.state, h.prio, h.serial, h.configEpoch, h.compact, h.clean, h.live, h.incarnation, h.start,
      match h.checks with
      | some true => 2
      | some false => 1
      | none => 0⟩
    start := r.start || h.start, peerRequests := h.requests
    resyncSent := r.resyncSent && h.state == hsResync
    returned := if s.isBw then h.state == hsStandby && (r.returned || before == hsResync) else r.returned
    returnCompact := if before == hsResync && h.state == hsStandby then s.b F.RING_STATUS_COMPACT else r.returnCompact }
  let s := s.flag F.RING_STATUS_START s.ring.start
  let s := if h.state == hsDemoted || h.state == hsElecting || (h.state == hsResync && !s.ring.resyncSent) then s.mirrorEnd else s
  let alive := h.state == hsStandby || h.state == hsBellwether || h.state == hsDemoted
  let s := s.when (alive && !s.ring.mirrorUp) fun s => s.onRing fun r => { r with peerWhole := false }
  let s := if s.isBw && s.ring.handbackDue && !(h.clean && h.state == hsStandby) then
      (s.flag F.RING_STATUS_HANDBACK_PENDING false).onRing fun r => { r with handbackDue := false } else s
  let s := (s.helloState h).helloLearn h
  let s := if s.isBw && h.state == hsResync && s.portUp 6 && !s.ring.resyncSent then s.resyncCopies else s
  let s := s.when s.isBw fun s => s.each (s.ring.asks.filter fun m => h.requests.any fun q => q.1 == le m 8 8) State.peerRequest
  match s.ring.verdict, h.checks with
  | some own, some bad => if s.ring.resolved then s else s.divergeOutcome own bad
  | _, _ => s

/-- HELLO (R124, R126, R137): INCARNATION is judged before the window of stream 44. It is a cell of the port: one with a block of an
uncorrectable codeword is lost (R96), and on an encrypted link it counts (R154). -/
def execHello (port : Fin 7) (h : Hello) (s : State) : Host.Outcome State Fault Refusal :=
  .next (if !(s.isHead && s.on iLINK && s.portUp port) then s
    else
      let b := s.takeBlocks port
      if b.2 then (b.1.countOpened port).inc F.PORTn_STOMPED port else
      let s := b.1.countCheck port .good
      let s := if s.ring.peerInc == some h.incarnation then s
        else (s.unsync fun w => w.src == 0x10000).onRing fun r => { r with peerInc := some h.incarnation, resyncSent := false }
      let q := (s.heard port).passTally 44 0x10000 h.tally false 0 false
      match q.2 with
      | .accept => q.1.takeHello h
      | _ => q.1)

/-- HEAD_LOSS_TIMEOUT (R145, R157): no HELLO on port 6, and none on any path, for HEAD_LOSS_TIME. -/
def execHeadLossTimeout (s : State) : Host.Outcome State Fault Refusal :=
  let limit := 1000 * s.f F.RING_TIMING_HEAD_LOSS_TIME
  .next (if !(s.isHead && s.pwr.up) then s
    else
      let s := if s.ring.lastDirect + limit < s.time.aon then s.flag F.RING_STATUS_PEER_DIRECT false else s
      if s.time.aon ≤ s.ring.lastHello + limit then s
      else
        let s := (((s.flag F.RING_STATUS_PEER false).flag F.RING_STATUS_HANDBACK_PENDING false).mirrorEnd).onRing fun r => { r with
          mirrors := [], peer := none, handbackDue := false, resyncSent := false, returned := false }
        if s.f F.RING_STATUS_STATE == hsStandby then s.takeover 1 else s)

end Sys2Proof.Machine
end

