-- ==== Sys2Proof/Machine/CellRx.lean ====
section
/-! DEFINITION. Receiving a cell (spec/04_ring_and_redundancy.md): its checks and forwarding (R119, R122, R155), the tally windows
(R124 to R126), delivery in tally order (R127), and the dispatch of whole messages to their consumers. -/
set_option Elab.async false
namespace Sys2Proof.Machine

/-! ### Whole messages -/

/-- A message of the bellwether's streams reaches a tile (Table 4-2). -/
def State.tileMessage (s : State) (stream addr tally : Nat) (m : Bytes) : State :=
  let mine := addr == 0xFFFF || addr == s.tileAddr
  match stream with
  | 16 => s.rxControl m tally
  | 19 => s.rxStaged addr m
  | 20 => if !mine then s else if le m 0 1 == 0x31 then s.rxReplyAck m else s.rxTunnelCmd m
  | 21 => match le m 0 1 with
    | 1 => s.rxWall m
    | 2 => s.rxAuthority m
    | 4 => s.rxAssign m
    | _ => s
  | _ => s

/-- The same message as a copy on the other head (R138): it holds the flock records, hurdles and poses it may have to take over. -/
def State.copyMessage (s : State) (stream addr tally : Nat) (m : Bytes) : State :=
  match stream with
  | 16 => s.rxControl m tally
  | 19 => s.rxStaged addr m
  | 21 => match le m 0 1 with
    | 1 => s.rxWall m
    | 2 => s.rxAuthority m
    | 4 => s.rxAssign m
    | _ => s
  | _ => s

/-- A message of a tile, or of the other head at ADDRESS 0, reaches a head. -/
def State.headMessage (s : State) (port stream addr : Nat) (m : Bytes) : State :=
  match stream with
  | 32 => if le m 0 1 == 1 then s.rxVote m else s.rxAck m
  | 33 => s.rxHealth addr m
  | 34 => s.rxReply m
  | 35 =>
    if le m 0 1 == 1 then s.rxReport m else s.joinRequest port m
  | 40 => s.each (List.range (m.length / 64)) fun s k => s.rxFaRecord ((m.drop (64 * k)).take 64)
  | 41 => s.rxMirror m
  | 42 => s.each (List.range (m.length / 24)) fun s k => s.rxDigest ((m.drop (24 * k)).take 24)
  | 43 => s.rxResync m
  | _ => s

/-! ### Delivery in order on a tile (R127) -/

/-- The meaningful payload of a cell. -/
def cBody (c : Bytes) : Bytes := (cPayload c).take (cLength c)

/-- One cell is delivered: it opens, continues or ends a message; a message that has lost its start is discarded. -/
def State.deliverCell (s : State) (stream : Nat) (c : Bytes) : State :=
  let w := s.win stream 0
  let part := if cFirst c then [cBody c] else if w.part.isEmpty then [] else w.part ++ [cBody c]
  let w := { w with next := (cTally c + 1) % 2 ^ 32, part := if cLast c then [] else part }
  let s := s.setWin w
  if cLast c && !part.isEmpty then s.tileMessage stream (cAddr c) (cTally c) part.flatten else s

/-- Deliver the waiting cells that follow on, at most `n`; then a gap is awaited from the arrival of the first cell behind it. -/
def State.drain : Nat → State → Nat → State
  | 0, s, _ => s
  | n + 1, s, stream =>
    let w := s.win stream 0
    match w.waiting.find? fun x => x.1 == w.next with
    | some x =>
      let s := s.setWin { w with waiting := w.waiting.filter fun y => y.1 != x.1 }
      State.drain n (s.deliverCell stream x.2.2) stream
    | none => s.setWin { w with gapAt := (w.waiting.map fun x => x.2.1).min? }

/-- An accepted cell of an ordered stream. One that was declared lost before it came is not delivered. -/
def State.orderCell (s : State) (stream : Nat) (c : Bytes) : State :=
  let w := s.win stream 0
  let t := cTally c
  if seqDiff 32 t w.next < 0 then s
  else State.drain 4096 (s.setWin { w with waiting := (t, s.time.clock, c) :: w.waiting }) stream

/-- The earliest waiting cell, in tally order from `next`. -/
def Win.firstWaiting (w : Win) : Option Nat :=
  (w.waiting.map fun x => (x.1 + 2 ^ 32 - w.next) % 2 ^ 32).min?

/-- GAP_WAIT_EXPIRE: the missing tallies are lost and counted, the consumer is told, and delivery continues. -/
def State.gapExpire (s : State) (stream : Nat) : State :=
  let w := s.win stream 0
  match w.gapAt, w.firstWaiting with
  | some t, some d =>
    if decide (t + usU (s.f F.RING_TIMING_GAP_WAIT) < s.time.clock) then
      let s := (s.setWin { w with next := (w.next + d) % 2 ^ 32, part := [] }).add F.RING_GAP_LOST d
      State.drain 4096 (if stream == 19 || stream == 20 then s.noteLost else s) stream
    else s
  | _, _ => s
def execGapWaitExpire (stream src : Nat) (s : State) : Host.Outcome State Fault Refusal :=
  .next (if s.isTile && s.on iLINK && src == 0 then s.gapExpire stream else s)

/-! ### Assembly on a head -/

/-- Payloads from the cell of tally `t` backwards to the FIRST of its message; none while one is missing. -/
def backTo (ws : List (Nat × Nat × Bytes)) : Nat → Nat → Option (List Bytes)
  | 0, _ => none
  | n + 1, t => match ws.find? fun x => x.1 == t with
    | none => none
    | some x => if cFirst x.2.2 then some [cBody x.2.2] else (backTo ws n ((t + 2 ^ 32 - 1) % 2 ^ 32)).map (· ++ [cBody x.2.2])

/-- The tally of the LAST cell of the message of tally `t`. -/
def lastOf (ws : List (Nat × Nat × Bytes)) : Nat → Nat → Option Nat
  | 0, _ => none
  | n + 1, t => match ws.find? fun x => x.1 == t with
    | none => none
    | some x => if cLast x.2.2 then some t else lastOf ws n ((t + 1) % 2 ^ 32)

/-- An accepted cell joins those of its stream and source; the payload of a message that has become whole. -/
def State.gather (s : State) (stream src : Nat) (c : Bytes) : State × Option (Nat × Bytes) :=
  let w := s.win stream src
  let ws := ((cTally c, s.time.clock, c) :: w.waiting).take 1024
  match lastOf ws 1024 (cTally c) with
  | none => (s.setWin { w with waiting := ws }, none)
  | some t => match backTo ws 1024 t with
    | none => (s.setWin { w with waiting := ws }, none)
    | some ps =>
      let gone := fun (x : Nat × Nat × Bytes) => decide ((t + 2 ^ 32 - x.1) % 2 ^ 32 < ps.length)
      (s.setWin { w with waiting := ws.filter fun x => !(gone x) }, some (t, ps.flatten))

/-! ### The window (R124, R125) -/

/-- The cell passes its window. -/
def State.passWindow (s : State) (stream src : Nat) (c : Bytes) (beforeLatch : Bool) : State × Verdict :=
  s.passTally stream src (cTally c) (cFilled c) (cCheck c) beforeLatch

/-- The cell comes at or before the tile's frame latch of its WALL_FRAME. -/
def State.beforeLatch (s : State) (c : Bytes) : Bool :=
  !(s.latchPassed (s.cellCount (cFrame c)))

/-! ### Consumers -/

/-- The port that leads to the bellwether (R144). -/
def State.bwPort (s : State) : Nat := if s.b F.RING_TILE_STATUS_BW_EAST then 1 else 0

/-- WINDOW_RESET acts whatever the tally of its cell (R126): once, and not again for the second copy of the cell. -/
def State.windowReset (s : State) (c : Bytes) : State :=
  let w := s.win 21 0
  if cStream c == 21 && le (cPayload c) 0 1 == 5 && !(w.synced && w.marks.any fun m => m.1 == cTally c && m.2.2 == cCheck c) then
    s.rxWindowReset else s

/-- A sound cell on a tile. -/
def State.tileCell (s : State) (p : Nat) (c : Bytes) : State :=
  let st := cStream c
  if st == 17 then (if s.on iTIME then s.timeCell p (cTally c) (cPayload c) else s)
  else if decide (21 < st) then s
  else if s.ring.prefer && s.portUp s.bwPort && p != s.bwPort then s
  else
    let q := (s.windowReset c).passWindow st 0 c (decide (st < 16) && s.beforeLatch c)
    match q.2 with
    | .accept => if st < 16 then q.1.storeCell st c else q.1.orderCell st c
    | .replace => q.1.storeCell st c
    | _ => q.1

/-- A copy of a cell of the bellwether on port 6 (R138): sent on unchanged on every ring, acknowledged on stream 16, counted into this
head's digests; its tally is the last one this head holds of the stream. Copies come in order, so one that skips a tally shows those before
it lost (R210; DEDUCED, assumption 90). -/
def State.copyCell (s : State) (c : Bytes) : State :=
  let st := cStream c
  let gap := s.ring.tallies.any fun x => x.1 == st && decide (0 < seqDiff 32 (cTally c) x.2)
  let s := if gap && (st == 19 || st == 20) then s.noteLost else s
  let s := (s.sendRings c).digestCell (c.take 504)
  let s := if st == 16 then s.emit (.head 6 16 (toLE 4 (cTally c))) else s
  let s := s.onRing fun r => { r with
    tallies := (st, (cTally c + 1) % 2 ^ 32) :: r.tallies.filter fun x => x.1 != st }
  let g := s.gather st 0x10001 c
  match g.2 with
  | some m => g.1.copyMessage st (cAddr c) m.1 m.2
  | none => g.1

/-- The window in which a head keeps a cell: a tile's streams 32 to 35 by address, the other head's own (R124). -/
def headSource (st addr : Nat) : Nat := if decide (40 ≤ st) || addr == 0 then 0x10000 else addr

/-- A sound cell on a head. -/
def State.headCell (s : State) (p : Nat) (c : Bytes) : State :=
  let st := cStream c
  let addr := cAddr c
  let inter := p == 6 && !(s.b F.RING_CFG_SINGLE)
  let hs := s.f F.RING_STATUS_STATE
  if st == 17 then (if s.on iTIME then s.timeCell p (cTally c) (cPayload c) else s)
  else if st == 16 || (decide (18 ≤ st) && decide (st ≤ 21)) then
    (if inter && (hs == hsStandby || hs == hsResync) then s.copyCell c else s)
  else if !((decide (32 ≤ st) && decide (st ≤ 35)) || (decide (40 ≤ st) && decide (st ≤ 43))) then s
  else
    let relayOn := fun (s : State) => if !inter && decide (st ≤ 35) && addr != 0 && s.portUp 6 && !(s.b F.RING_CFG_SINGLE) then
        s.sendCell 6 c else s
    if st == 35 && addr == 0xFFFF then (relayOn s).headMessage p st addr (cBody c)
    else
      let src := headSource st addr
      let q := s.passWindow st src c false
      match q.2 with
      | .accept =>
        let g := (relayOn q.1).gather st src c
        match g.2 with
        | some m => g.1.headMessage p st addr m.2
        | none => g.1
      | _ => q.1

/-- A tile forwards a cell out of its other ring port, but for one of stream 17 (R122); a cell with a bad CHECK goes on stomped. -/
def State.forward (s : State) (p : Nat) (c : Bytes) : State :=
  if s.isTile && decide (p < 2) && cStream c != 17 && s.portUp (1 - p) then s.sendCell (1 - p) c else s

/-- A cell that holds a block of an uncorrectable codeword (R96): a tile forwards it stomped; it is discarded, and counted where it
is not forwarded. -/
def State.spoiledCell (s : State) (p : Nat) (o : CellCheck × Bytes) : State :=
  let s := s.countOpened p
  let bad := stompCell (sealCell (o.2.take 504))
  if s.isTile && s.portUp (1 - p) && cStream o.2 != 17 then s.forward p bad else s.inc F.PORTn_STOMPED p

/-- After 16 consecutive failures of the tag the port is retrained (R154). -/
def State.judgeAuth (s : State) (p : Nat) (v : CellCheck) : State := s.when (v == .authBad && (s.enc p).fails % 16 == 0) fun s => s.retrain p

/-- A cell on a port that is UP (R119). -/
def State.rxCell (s : State) (p : Nat) (cell : Bytes) : State :=
  let b := s.takeBlocks p
  let o := b.1.openCell p cell
  if b.2 then b.1.spoiledCell p o
  else
  let s := (b.1.countCheck p o.1).forward p o.2
  if o.1 != .good then s.judgeAuth p o.1
  else if !(cHeaderOk o.2 && cVersion o.2 == 1) then s.inc F.RING_HDR_BAD
  else if s.isTile then s.tileCell p o.2
  else if s.isHead then s.headCell p o.2
  else s
/-- TIME_CELL_RX (R180). A cell that fails CHECK or its header is discarded and counted (R119, R154). -/
def execTimeCellRx (port : Fin 7) (cell : Bytes) (s : State) : Host.Outcome State Fault Refusal :=
  .next (if !(s.on iTIME && s.on iLINK && s.portUp port) then s
    else
      let b := s.takeBlocks port
      let o := b.1.openCell port cell
      if b.2 then (b.1.countOpened port).inc F.PORTn_STOMPED port else
      let s := b.1.countCheck port o.1
      if o.1 != .good then s.judgeAuth port o.1
      else if !(cHeaderOk o.2 && cVersion o.2 == 1) then s.inc F.RING_HDR_BAD
      else if cStream o.2 != 17 then s
      else s.timeCell port (cTally o.2) (cPayload o.2))

/-- CELL_RX (R119): a port that sends mission blocks and is not UP accepts no cell, but its blocks have come (R76, R96). -/
def execCellRx (port : Fin 7) (cell : Bytes) (s : State) : Host.Outcome State Fault Refusal :=
  .next (if !(s.on iLINK && cell.length == 512) then s
    else if s.portUp port then s.rxCell port cell
    else if missionState (s.portState port) then (s.takeBlocks port).1 else s)

end Sys2Proof.Machine
end

