-- ==== Sys2Proof/Machine/Dispatch.lean ====
section
/-! DEFINITION. One arm for each command: its meaning, called by name. -/
namespace Sys2Proof.Machine

def exec (i : Instr) (s : State) : Host.Outcome State Fault Refusal :=
  match i with
  | .porNAssert => Sys2Proof.Machine.execPorNAssert s
  | .porNRise straps => Sys2Proof.Machine.execPorNRise straps s
  | .powerStep mv => Sys2Proof.Machine.execPowerStep mv s
  | .powerGood mv => Sys2Proof.Machine.execPowerGood mv s
  | .railEnableTimeout => Sys2Proof.Machine.execRailEnableTimeout s
  | .brownout rail mv0 mv1 => Sys2Proof.Machine.execBrownout rail mv0 mv1 s
  | .brownoutRestart => Sys2Proof.Machine.execBrownoutRestart s
  | .resetNAssert widthNs => Sys2Proof.Machine.execResetNAssert widthNs s
  | .resetNRelease => Sys2Proof.Machine.execResetNRelease s
  | .bootRomStart flashOk clearOk failing => Sys2Proof.Machine.execBootRomStart flashOk clearOk failing s
  | .memoryTrainingDone failed mismatch journalOk => Sys2Proof.Machine.execMemoryTrainingDone failed mismatch journalOk s
  | .rstWarm ctx => Sys2Proof.Machine.execRstWarm ctx s
  | .rstPowerOff ctx => Sys2Proof.Machine.execRstPowerOff ctx s
  | .rstIsland ctx mask => Sys2Proof.Machine.execRstIsland ctx mask s
  | .rstFold ctx mask => Sys2Proof.Machine.execRstFold ctx mask s
  | .rstCtlAction => Sys2Proof.Machine.execRstCtlAction s
  | .islandResetRelease isl => Sys2Proof.Machine.execIslandResetRelease isl s
  | .islandClockLost isl => Sys2Proof.Machine.execIslandClockLost isl s
  | .islandClockStable isl => Sys2Proof.Machine.execIslandClockStable isl s
  | .refclkLoss => Sys2Proof.Machine.execRefclkLoss s
  | .xingEvent isl line => Sys2Proof.Machine.execXingEvent isl line s
  | .xingAck isl line => Sys2Proof.Machine.execXingAck isl line s
  | .xingStuck isl line => Sys2Proof.Machine.execXingStuck isl line s
  | .pcieReset => Sys2Proof.Machine.execPcieReset s
  | .pcieFlr fn => Sys2Proof.Machine.execPcieFlr fn s
  | .pcieFlrDone fn => Sys2Proof.Machine.execPcieFlrDone fn s
  | .rwpWriteOpen ctx addr value => Sys2Proof.Machine.execRwpWriteOpen ctx addr value s
  | .rwpComplete ctx addr value => Sys2Proof.Machine.execRwpComplete ctx addr value s
  | .rwpWindowExpire ctx => Sys2Proof.Machine.execRwpWindowExpire ctx s
  | .registerWrite ctx addr value => Sys2Proof.Machine.execRegisterWrite ctx addr value s
  | .rcRegisterRead ctx addr => Sys2Proof.Machine.execRcRegisterRead ctx addr s
  | .loHalfRead ctx addr => Sys2Proof.Machine.execLoHalfRead ctx addr s
  | .prbsCounterLoRead ctx addr => Sys2Proof.Machine.execPrbsCounterLoRead ctx addr s
  | .bar0Write ctx addr value whole => Sys2Proof.Machine.execBar0Write ctx addr value whole s
  | .sqTailWrite ctx value => Sys2Proof.Machine.execSqTailWrite ctx value s
  | .cqHeadWrite ctx value => Sys2Proof.Machine.execCqHeadWrite ctx value s
  | .mgmtEntryRx ctx src index entry payload => Sys2Proof.Machine.execMgmtEntryRx ctx src index entry payload s
  | .mgmtCqReadRx ctx src index => Sys2Proof.Machine.execMgmtCqReadRx ctx src index s
  | .mgmtArpRx target asker => Sys2Proof.Machine.execMgmtArpRx target asker s
  | .regWrite ctx entry payload readOk => Sys2Proof.Machine.execRegWrite ctx entry payload readOk s
  | .tableWrite ctx entry payload readOk => Sys2Proof.Machine.execTableWrite ctx entry payload readOk s
  | .memWrite ctx entry payload readOk => Sys2Proof.Machine.execMemWrite ctx entry payload readOk s
  | .hurdlePost ctx entry => Sys2Proof.Machine.execHurdlePost ctx entry s
  | .posePost ctx entry => Sys2Proof.Machine.execPosePost ctx entry s
  | .tileService ctx entry => Sys2Proof.Machine.execTileService ctx entry s
  | .flockOpen ctx entry => Sys2Proof.Machine.execFlockOpen ctx entry s
  | .flockCall ctx entry => Sys2Proof.Machine.execFlockCall ctx entry s
  | .flockCancel ctx entry => Sys2Proof.Machine.execFlockCancel ctx entry s
  | .flockQuery ctx entry => Sys2Proof.Machine.execFlockQuery ctx entry s
  | .txbegin ctx entry => Sys2Proof.Machine.execTxbegin ctx entry s
  | .txend ctx entry => Sys2Proof.Machine.execTxend ctx entry s
  | .txabort ctx entry => Sys2Proof.Machine.execTxabort ctx entry s
  | .tunnel ctx entry payload readOk => Sys2Proof.Machine.execTunnel ctx entry payload readOk s
  | .regRead ctx entry pads => Sys2Proof.Machine.execRegRead ctx entry pads s
  | .memRead ctx entry => Sys2Proof.Machine.execMemRead ctx entry s
  | .ticketQuery ctx entry => Sys2Proof.Machine.execTicketQuery ctx entry s
  | .ticketAccept ctx => Sys2Proof.Machine.execTicketAccept ctx s
  | .ticketExecute ctx => Sys2Proof.Machine.execTicketExecute ctx s
  | .tunnelCmdRx payload => Sys2Proof.Machine.execTunnelCmdRx payload s
  | .tunnelReplyRx payload => Sys2Proof.Machine.execTunnelReplyRx payload s
  | .replyAckRx payload => Sys2Proof.Machine.execReplyAckRx payload s
  | .replyRepeatTimer seq => Sys2Proof.Machine.execReplyRepeatTimer seq s
  | .mirrorRecordRx record payload => Sys2Proof.Machine.execMirrorRecordRx record payload s
  | .mirrorAckRx ctx ticket => Sys2Proof.Machine.execMirrorAckRx ctx ticket s
  | .mirrorAckTimeout => Sys2Proof.Machine.execMirrorAckTimeout s
  | .dprxHpdIrq rx => Sys2Proof.Machine.execDprxHpdIrq rx s
  | .dpLinkTrained rx rate lanes => Sys2Proof.Machine.execDpLinkTrained rx rate lanes s
  | .dpLinkLoss rx => Sys2Proof.Machine.execDpLinkLoss rx s
  | .sourceFrameStart src id => Sys2Proof.Machine.execSourceFrameStart src id s
  | .sourceFrameComplete src f => Sys2Proof.Machine.execSourceFrameComplete src f s
  | .ctLineWritten src line planes => Sys2Proof.Machine.execCtLineWritten src line planes s
  | .st2110PacketRx p => Sys2Proof.Machine.execSt2110PacketRx p s
  | .igmpReportTimer flow => Sys2Proof.Machine.execIgmpReportTimer flow s
  | .igmpQueryRx port group => Sys2Proof.Machine.execIgmpQueryRx port group s
  | .layerLatch layer => Sys2Proof.Machine.execLayerLatch layer s
  | .layerCellSend layer => Sys2Proof.Machine.execLayerCellSend layer s
  | .layerAddrCommit layer value => Sys2Proof.Machine.execLayerAddrCommit layer value s
  | .layerClipWrite layer value => Sys2Proof.Machine.execLayerClipWrite layer value s
  | .faRecordRx record => Sys2Proof.Machine.execFaRecordRx record s
  | .portEnable port => Sys2Proof.Machine.execPortEnable port s
  | .portDisable port => Sys2Proof.Machine.execPortDisable port s
  | .trainingFrameRx lane control status comp inverted => Sys2Proof.Machine.execTrainingFrameRx lane control status comp inverted s
  | .detectComplete port => Sys2Proof.Machine.execDetectComplete port s
  | .trainReady port adapt => Sys2Proof.Machine.execTrainReady port adapt s
  | .trainEnd port => Sys2Proof.Machine.execTrainEnd port s
  | .trainTimeout port => Sys2Proof.Machine.execTrainTimeout port s
  | .alignComplete port arrivals => Sys2Proof.Machine.execAlignComplete port arrivals s
  | .alignTimeout port => Sys2Proof.Machine.execAlignTimeout port s
  | .checkTxTimer port => Sys2Proof.Machine.execCheckTxTimer port s
  | .ident port block => Sys2Proof.Machine.execIdent port block s
  | .cap port block => Sys2Proof.Machine.execCap port block s
  | .confirm port block => Sys2Proof.Machine.execConfirm port block s
  | .checkComplete port => Sys2Proof.Machine.execCheckComplete port s
  | .checkTimeout port => Sys2Proof.Machine.execCheckTimeout port s
  | .confirmTxEnd port => Sys2Proof.Machine.execConfirmTxEnd port s
  | .laneLos lane => Sys2Proof.Machine.execLaneLos lane s
  | .markerRx lane marker ppm peak h1 => Sys2Proof.Machine.execMarkerRx lane marker ppm peak h1 s
  | .codewordRx lane symbols => Sys2Proof.Machine.execCodewordRx lane symbols s
  | .idleBlockRx port run block => Sys2Proof.Machine.execIdleBlockRx port run block s
  | .faultHoldoffExpire port => Sys2Proof.Machine.execFaultHoldoffExpire port s
  | .portRetrain port => Sys2Proof.Machine.execPortRetrain port s
  | .portClear port => Sys2Proof.Machine.execPortClear port s
  | .laneTestSelect lane gen chk loopback => Sys2Proof.Machine.execLaneTestSelect lane gen chk loopback s
  | .prbsClear lane => Sys2Proof.Machine.execPrbsClear lane s
  | .injectGo lane => Sys2Proof.Machine.execInjectGo lane s
  | .injectRateTick lane => Sys2Proof.Machine.execInjectRateTick lane s
  | .cellRx port cell => Sys2Proof.Machine.execCellRx port cell s
  | .gapWaitExpire stream src => Sys2Proof.Machine.execGapWaitExpire stream src s
  | .ringEnumerate => Sys2Proof.Machine.execRingEnumerate s
  | .enum port body => Sys2Proof.Machine.execEnum port body s
  | .enumWaveTimeout => Sys2Proof.Machine.execEnumWaveTimeout s
  | .report port payload => Sys2Proof.Machine.execReport port payload s
  | .joinRequestTimer => Sys2Proof.Machine.execJoinRequestTimer s
  | .request port payload => Sys2Proof.Machine.execRequest port payload s
  | .assign payload => Sys2Proof.Machine.execAssign payload s
  | .tileHealthTimeout serial => Sys2Proof.Machine.execTileHealthTimeout serial s
  | .wallTimer => Sys2Proof.Machine.execWallTimer s
  | .wall payload => Sys2Proof.Machine.execWall payload s
  | .authority payload => Sys2Proof.Machine.execAuthority payload s
  | .windowReset payload => Sys2Proof.Machine.execWindowReset payload s
  | .helloTimer => Sys2Proof.Machine.execHelloTimer s
  | .hello port h => Sys2Proof.Machine.execHello port h s
  | .electionTimeout => Sys2Proof.Machine.execElectionTimeout s
  | .copyAckRx tally => Sys2Proof.Machine.execCopyAckRx tally s
  | .copyAckTimeout => Sys2Proof.Machine.execCopyAckTimeout s
  | .digestSend stream frame => Sys2Proof.Machine.execDigestSend stream frame s
  | .digestRx entry => Sys2Proof.Machine.execDigestRx entry s
  | .headLossTimeout => Sys2Proof.Machine.execHeadLossTimeout s
  | .takeoverDecide flock => Sys2Proof.Machine.execTakeoverDecide flock s
  | .demotedRecover => Sys2Proof.Machine.execDemotedRecover s
  | .resyncCopyRx part => Sys2Proof.Machine.execResyncCopyRx part s
  | .resyncComplete => Sys2Proof.Machine.execResyncComplete s
  | .handbackCleanElapsed => Sys2Proof.Machine.execHandbackCleanElapsed s
  | .handback => Sys2Proof.Machine.execHandback s
  | .ringHandover => Sys2Proof.Machine.execRingHandover s
  | .ringClear => Sys2Proof.Machine.execRingClear s
  | .keyxTimer port => Sys2Proof.Machine.execKeyxTimer port s
  | .keyx port body => Sys2Proof.Machine.execKeyx port body s
  | .keyconf port body => Sys2Proof.Machine.execKeyconf port body s
  | .timeCapture => Sys2Proof.Machine.execTimeCapture s
  | .timeRelock => Sys2Proof.Machine.execTimeRelock s
  | .timeClear => Sys2Proof.Machine.execTimeClear s
  | .timeSetWrite value => Sys2Proof.Machine.execTimeSetWrite value s
  | .timeCellTimer port => Sys2Proof.Machine.execTimeCellTimer port s
  | .timeCellRx port cell => Sys2Proof.Machine.execTimeCellRx port cell s
  | .pdelayTimer port => Sys2Proof.Machine.execPdelayTimer port s
  | .pdreq port body => Sys2Proof.Machine.execPdreq port body s
  | .pdresp port body => Sys2Proof.Machine.execPdresp port body s
  | .pdrespTimeout port => Sys2Proof.Machine.execPdrespTimeout port s
  | .ppsEdge rising => Sys2Proof.Machine.execPpsEdge rising s
  | .ppsTimeout => Sys2Proof.Machine.execPpsTimeout s
  | .ptpAnnounceTimeout => Sys2Proof.Machine.execPtpAnnounceTimeout s
  | .ptpSyncRx m => Sys2Proof.Machine.execPtpSyncRx m s
  | .ptpAnnounceRx m => Sys2Proof.Machine.execPtpAnnounceRx m s
  | .ptpDelayRespRx seq rx => Sys2Proof.Machine.execPtpDelayRespRx seq rx s
  | .ptpPdelayReqRx seq requester => Sys2Proof.Machine.execPtpPdelayReqRx seq requester s
  | .ptpDelayReqTimer => Sys2Proof.Machine.execPtpDelayReqTimer s
  | .ptpMasterTxTimer announce => Sys2Proof.Machine.execPtpMasterTxTimer announce s
  | .swapInstant bad => Sys2Proof.Machine.execSwapInstant bad s
  | .slotStart => Sys2Proof.Machine.execSlotStart s
  | .alarmArm a => Sys2Proof.Machine.execAlarmArm a s
  | .alarmFire a => Sys2Proof.Machine.execAlarmFire a s
  | .alarmPulseEnd a => Sys2Proof.Machine.execAlarmPulseEnd a s
  | .flockOpenRx payload => Sys2Proof.Machine.execFlockOpenRx payload s
  | .stagedWriteRx payload => Sys2Proof.Machine.execStagedWriteRx payload s
  | .flockOpenTimeout flock => Sys2Proof.Machine.execFlockOpenTimeout flock s
  | .callMsg payload bad => Sys2Proof.Machine.execCallMsg payload bad s
  | .voteSend flock bad => Sys2Proof.Machine.execVoteSend flock bad s
  | .voteDeadline flock bad => Sys2Proof.Machine.execVoteDeadline flock bad s
  | .vote payload => Sys2Proof.Machine.execVote payload s
  | .voteGraceExpire flock => Sys2Proof.Machine.execVoteGraceExpire flock s
  | .commitMsg payload bad => Sys2Proof.Machine.execCommitMsg payload bad s
  | .abortMsg payload bad => Sys2Proof.Machine.execAbortMsg payload bad s
  | .flockGuardDeadline flock => Sys2Proof.Machine.execFlockGuardDeadline flock s
  | .ack payload => Sys2Proof.Machine.execAck payload s
  | .flockRecordExpire flock => Sys2Proof.Machine.execFlockRecordExpire flock s
  | .txBoundaryApply ctx => Sys2Proof.Machine.execTxBoundaryApply ctx s
  | .txOpenTimeout ctx => Sys2Proof.Machine.execTxOpenTimeout ctx s
  | .flockClear => Sys2Proof.Machine.execFlockClear s
  | .staleClr => Sys2Proof.Machine.execStaleClr s
  | .frameLatch bad => Sys2Proof.Machine.execFrameLatch bad s
  | .slotLatch => Sys2Proof.Machine.execSlotLatch s
  | .hurdle payload tally => Sys2Proof.Machine.execHurdle payload tally s
  | .hurdleRepeatTimer => Sys2Proof.Machine.execHurdleRepeatTimer s
  | .pose payload tally => Sys2Proof.Machine.execPose payload tally s
  | .poseRepeatTimer => Sys2Proof.Machine.execPoseRepeatTimer s
  | .corrClear => Sys2Proof.Machine.execCorrClear s
  | .pushDeadline => Sys2Proof.Machine.execPushDeadline s
  | .lsyncEdge group => Sys2Proof.Machine.execLsyncEdge group s
  | .lineBufferFill port err => Sys2Proof.Machine.execLineBufferFill port err s
  | .lampFrameStart port => Sys2Proof.Machine.execLampFrameStart port s
  | .lampFrameSent port mismatch => Sys2Proof.Machine.execLampFrameSent port mismatch s
  | .swap => Sys2Proof.Machine.execSwap s
  | .statusResp port codes => Sys2Proof.Machine.execStatusResp port codes s
  | .statusReadTimeout port => Sys2Proof.Machine.execStatusReadTimeout port s
  | .blank group => Sys2Proof.Machine.execBlank group s
  | .driverProgram group => Sys2Proof.Machine.execDriverProgram group s
  | .timingHoldResume group => Sys2Proof.Machine.execTimingHoldResume group s
  | .timingHoldBlack group => Sys2Proof.Machine.execTimingHoldBlack group s
  | .lampRefreshExpire => Sys2Proof.Machine.execLampRefreshExpire s
  | .fullRefresh => Sys2Proof.Machine.execFullRefresh s
  | .lampClear => Sys2Proof.Machine.execLampClear s
  | .diagRoundStart => Sys2Proof.Machine.execDiagRoundStart s
  | .diagReadEnd => Sys2Proof.Machine.execDiagReadEnd s
  | .diagProbe => Sys2Proof.Machine.execDiagProbe s
  | .foldEnable fold value => Sys2Proof.Machine.execFoldEnable fold value s
  | .activate fold => Sys2Proof.Machine.execActivate fold s
  | .restart fold => Sys2Proof.Machine.execRestart fold s
  | .stop fold => Sys2Proof.Machine.execStop fold s
  | .foldClear fold => Sys2Proof.Machine.execFoldClear fold s
  | .foldRunComplete fold => Sys2Proof.Machine.execFoldRunComplete fold s
  | .pipelineItemDone fold err => Sys2Proof.Machine.execPipelineItemDone fold err s
  | .pacingWindow fold upset => Sys2Proof.Machine.execPacingWindow fold upset s
  | .waittExpire fold => Sys2Proof.Machine.execWaittExpire fold s
  | .pauseEnd fold => Sys2Proof.Machine.execPauseEnd fold s
  | .nop fold => Sys2Proof.Machine.execNop fold s
  | .add fold => Sys2Proof.Machine.execAdd fold s
  | .sub fold => Sys2Proof.Machine.execSub fold s
  | .andR fold => Sys2Proof.Machine.execAndR fold s
  | .orR fold => Sys2Proof.Machine.execOrR fold s
  | .xorR fold => Sys2Proof.Machine.execXorR fold s
  | .shl fold => Sys2Proof.Machine.execShl fold s
  | .shr fold => Sys2Proof.Machine.execShr fold s
  | .sar fold => Sys2Proof.Machine.execSar fold s
  | .mul fold => Sys2Proof.Machine.execMul fold s
  | .minR fold => Sys2Proof.Machine.execMinR fold s
  | .maxR fold => Sys2Proof.Machine.execMaxR fold s
  | .cmp fold => Sys2Proof.Machine.execCmp fold s
  | .addi fold => Sys2Proof.Machine.execAddi fold s
  | .andi fold => Sys2Proof.Machine.execAndi fold s
  | .ori fold => Sys2Proof.Machine.execOri fold s
  | .xori fold => Sys2Proof.Machine.execXori fold s
  | .shli fold => Sys2Proof.Machine.execShli fold s
  | .shri fold => Sys2Proof.Machine.execShri fold s
  | .sari fold => Sys2Proof.Machine.execSari fold s
  | .cmpi fold => Sys2Proof.Machine.execCmpi fold s
  | .get fold => Sys2Proof.Machine.execGet fold s
  | .qset fold => Sys2Proof.Machine.execQset fold s
  | .qget fold => Sys2Proof.Machine.execQget fold s
  | .qisect fold => Sys2Proof.Machine.execQisect fold s
  | .br fold => Sys2Proof.Machine.execBr fold s
  | .ld fold => Sys2Proof.Machine.execLd fold s
  | .st fold => Sys2Proof.Machine.execSt fold s
  | .ldc fold => Sys2Proof.Machine.execLdc fold s
  | .qld fold => Sys2Proof.Machine.execQld fold s
  | .qst fold => Sys2Proof.Machine.execQst fold s
  | .cull fold => Sys2Proof.Machine.execCull fold s
  | .fetch fold => Sys2Proof.Machine.execFetch fold s
  | .scale fold => Sys2Proof.Machine.execScale fold s
  | .csc fold => Sys2Proof.Machine.execCsc fold s
  | .blend fold => Sys2Proof.Machine.execBlend fold s
  | .angle fold => Sys2Proof.Machine.execAngle fold s
  | .correct fold => Sys2Proof.Machine.execCorrect fold s
  | .crc fold => Sys2Proof.Machine.execCrc fold s
  | .push fold => Sys2Proof.Machine.execPush fold s
  | .patgen fold => Sys2Proof.Machine.execPatgen fold s
  | .waitt fold => Sys2Proof.Machine.execWaitt fold s
  | .waith fold => Sys2Proof.Machine.execWaith fold s
  | .signal fold => Sys2Proof.Machine.execSignal fold s
  | .pause fold => Sys2Proof.Machine.execPause fold s
  | .yield fold => Sys2Proof.Machine.execYield fold s
  | .kortyTxbegin fold => Sys2Proof.Machine.execKortyTxbegin fold s
  | .kortyTxend fold => Sys2Proof.Machine.execKortyTxend fold s
  | .flstage fold => Sys2Proof.Machine.execFlstage fold s
  | .flvote fold => Sys2Proof.Machine.execFlvote fold s
  | .tdone fold => Sys2Proof.Machine.execTdone fold s
  | .trap fold => Sys2Proof.Machine.execTrap fold s
  | .halt fold => Sys2Proof.Machine.execHalt fold s
  | .scrubRead err => Sys2Proof.Machine.execScrubRead err s
  | .correctedWriteback granule => Sys2Proof.Machine.execCorrectedWriteback granule s
  | .memGrant ch reqs => Sys2Proof.Machine.execMemGrant ch reqs s
  | .refreshDue ch => Sys2Proof.Machine.execRefreshDue ch s
  | .memTrackTimer ch => Sys2Proof.Machine.execMemTrackTimer ch s
  | .memClear => Sys2Proof.Machine.execMemClear s
  | .logRearm => Sys2Proof.Machine.execLogRearm s
  | .xingClear => Sys2Proof.Machine.execXingClear s
  | .thermalModelUpdate power mv bad => Sys2Proof.Machine.execThermalModelUpdate power mv bad s
  | .sensorSample kind temp => Sys2Proof.Machine.execSensorSample kind temp s
  | .rateEval => Sys2Proof.Machine.execRateEval s
  | .sensorFaultClear => Sys2Proof.Machine.execSensorFaultClear s
  | .thresholdDwellExpire region state => Sys2Proof.Machine.execThresholdDwellExpire region state s
  | .throttleTick region => Sys2Proof.Machine.execThrottleTick region s
  | .tripRestart => Sys2Proof.Machine.execTripRestart s
  | .throttleDivWrite div => Sys2Proof.Machine.execThrottleDivWrite div s
  | .thermClear => Sys2Proof.Machine.execThermClear s
  | .writeWindowOpen => Sys2Proof.Machine.execWriteWindowOpen s
  | .writeDeferExpire => Sys2Proof.Machine.execWriteDeferExpire s
  | .flashUnitDone ok => Sys2Proof.Machine.execFlashUnitDone ok s
  | .calRun mask => Sys2Proof.Machine.execCalRun mask s
  | .calRampStep unit elem up => Sys2Proof.Machine.execCalRampStep unit elem up s
  | .calUnitDone unit fail => Sys2Proof.Machine.execCalUnitDone unit fail s
  | .beginDl ctx => Sys2Proof.Machine.execBeginDl ctx s
  | .cancelDl ctx => Sys2Proof.Machine.execCancelDl ctx s
  | .calBegin ctx => Sys2Proof.Machine.execCalBegin ctx s
  | .calCancel ctx => Sys2Proof.Machine.execCalCancel ctx s
  | .activatePrepare flock => Sys2Proof.Machine.execActivatePrepare flock s
  | .activationReset => Sys2Proof.Machine.execActivationReset s
  | .bootConfirm ctx version => Sys2Proof.Machine.execBootConfirm ctx version s
  | .confirmWindowExpire => Sys2Proof.Machine.execConfirmWindowExpire s
  | .lcTransition ctx target => Sys2Proof.Machine.execLcTransition ctx target s
  | .secRevoke ctx slots => Sys2Proof.Machine.execSecRevoke ctx slots s
  | .attestGo kind => Sys2Proof.Machine.execAttestGo kind s
  | .attestDone => Sys2Proof.Machine.execAttestDone s
  | .lbGo clearOk => Sys2Proof.Machine.execLbGo clearOk s
  | .mbGo clearOk => Sys2Proof.Machine.execMbGo clearOk s
  | .bistAbort => Sys2Proof.Machine.execBistAbort s
  | .bistClear => Sys2Proof.Machine.execBistClear s
  | .jtagScanEntry clearOk => Sys2Proof.Machine.execJtagScanEntry clearOk s
  | .bistPrecondSample => Sys2Proof.Machine.execBistPrecondSample s
  | .lbistPartitionDone misr clearOk => Sys2Proof.Machine.execLbistPartitionDone misr clearOk s
  | .mbistInstanceDone failure clearOk => Sys2Proof.Machine.execMbistInstanceDone failure clearOk s
  | .onlineBistWindow => Sys2Proof.Machine.execOnlineBistWindow s
  | .onlineBistGapStart => Sys2Proof.Machine.execOnlineBistGapStart s
  | .healthReportTimer => Sys2Proof.Machine.execHealthReportTimer s
  | .health addr payload => Sys2Proof.Machine.execHealth addr payload s
  | .gpioCfgWrite pin value => Sys2Proof.Machine.execGpioCfgWrite pin value s
  | .ptpPdelayRespRx seq t2 t3 => Sys2Proof.Machine.execPtpPdelayRespRx seq t2 t3 s
  | .returnLanePhaseAlign port => Sys2Proof.Machine.execReturnLanePhaseAlign port s
  | .prbsCheckerLock lane symbols => Sys2Proof.Machine.execPrbsCheckerLock lane symbols s
  | .dprxAuxRequest rx req => Sys2Proof.Machine.execDprxAuxRequest rx req s
  | .pcieLinkUp => Sys2Proof.Machine.execPcieLinkUp s
  | .stflowReceivingLapse flow => Sys2Proof.Machine.execStflowReceivingLapse flow s
  | .lsyncPulseEnd group mismatch => Sys2Proof.Machine.execLsyncPulseEnd group mismatch s

end Sys2Proof.Machine
end

