-- ==== Sys2Proof/Machine/Line.lean ====
section
/-! DEFINITION. What the ports of the Oaris Link send on their lines (spec/03_oaris_link.md): training frames in DETECT, TRAIN and
FAULT, coded blocks from ALIGN on, and test patterns. It runs as time passes: a port takes cells and LINK blocks from
`State.out` in their order, frames them into blocks, and sends codewords at the symbol rate of Table 3-2. -/
set_option Elab.async false
namespace Sys2Proof.Machine

/-! ### Times (R83, Table 3-2) -/

/-- The time of one codeword in ns, as a fraction: 5,440 bits. -/
def codewordTime (rate : Nat) : Nat × Nat :=
  match rate with
  | 0 => (256, 5)
  | 1 => (512, 5)
  | _ => (34816, 165)

/-- The time of one training frame in ns, as a fraction: 4,096 symbols. -/
def frameTime (rate : Nat) : Nat × Nat :=
  match rate with
  | 0 => (32768, 425)
  | 1 => (65536, 425)
  | _ => (131072, 825)

/-- The next unit of the port's line begins by now. -/
def State.lineDue (s : State) (p : Nat) (t : Nat × Nat) : Bool :=
  let q := s.port p
  decide (q.lineAt * t.2 + q.lineN * t.1 ≤ s.time.aon * t.2)

/-- One unit of the port's line has been sent. -/
def State.lineStep (s : State) (p : Nat) : State := s.onPort p fun q => { q with lineN := q.lineN + 1 }

/-! ### Sending codewords (R78, R79) -/

/-- Bits of a codeword leave a lane as symbols, precoded when the lane transmits precoded (R79). -/
def State.sendBits (s : State) (n : Nat) (nrz : Bool) (l : List Bool) : State :=
  let x := symbolsOf nrz l
  if s.b F.LANEn_STATUS_PRECODE_TX n then
    let y := precode (s.lane n).pre x
    (s.onLane n fun q => { q with pre := y.getLastD q.pre }).sendSymbols n nrz y
  else s.sendSymbols n nrz x

/-! ### Training frames (R83 to R86) -/

/-- A new request toward the partner's FFE: which one, and whether there is one, the spec leaves to the receiver, so it is free
(assumption 2). It waits for the SEQ_ECHO of the one before (R84). -/
def State.newRequest (s : State) (p n : Nat) : State :=
  if s.portState p == psTrain && !(s.port p).ownReady && (s.lane n).echo == (s.lane n).reqSeq then
    let v := Config.free s.fresh
    (s.onLane n fun l =>
      if v % 2 == 0 then l
      else { l with reqSeq := !l.reqSeq, req := v / 2 % 6 + 8 * (v / 12 % 4) + 32 * (v / 48 % 3) }).tickFresh
  else s

/-- One training frame on every lane of a port; in step 3 of Table 3-7 one fewer is left. -/
def State.sendTraining (s : State) (p rate : Nat) : State :=
  let nrz := rate == 2
  let s := s.each (lanesOf p) fun s n =>
    let s := s.newRequest p n
    let r := trainingFrame nrz (s.trainControl p n) (s.trainStatus p n) (s.lane n).pat
    (s.onLane n fun l => { l with pat := r.1 }).sendSymbols n nrz r.2
  (s.onPort p fun q => { q with final := q.final.map (· - 1) }).lineStep p

/-! ### Blocks (R89 to R95) -/

/-- The blocks of what the node sends on a port: a cell, or a LINK block (R89, R90). -/
def Out.blocks (p : Nat) (o : Out) : List Block :=
  match o with
  | .cell q c => if q == p then cellBlocks c else []
  | .link q _ b => if q == p then [⟨false, b⟩] else []
  | _ => []

/-- The port's queue takes what the node has sent on it since the last time; a port that carries no cells drops them. -/
def State.takeItems (s : State) (p : Nat) : State :=
  let fresh := ((s.out.drop (s.port p).sent).map (Out.blocks p)).filter fun l => !l.isEmpty
  let cells := s.portUp p
  s.onPort p fun q => { q with
    sent := s.out.length, items := (q.items ++ fresh).filter fun l => cells || l.length == 1 }

/-- The slots of a codeword being filled: blocks waiting, the rest of the message being sent, slots since the last IDLE, and the
blocks so far, newest first. -/
structure Fill where
  items : List (List Block)
  cur : List Block
  gap : Nat
  done : List Block
  deriving DecidableEq, Repr

/-- Fill `k` slots. No message starts that would leave fewer than one IDLE in `limit` slots, or that a marker after these slots
would cut (`mark`), because a run of cell blocks ends at any control block (R89, R93, R95). -/
def Fill.run (limit : Nat) (mark : Bool) : Nat → Fill → Fill
  | 0, f => f
  | k + 1, f =>
    match f.cur, f.items with
    | b :: r, _ => Fill.run limit mark k { f with cur := r, gap := f.gap + 1, done := b :: f.done }
    | [], (b :: r) :: is =>
      if f.gap + r.length + 6 ≤ limit && !(mark && decide (k < r.length)) then
        Fill.run limit mark k { items := is, cur := r, gap := f.gap + 1, done := b :: f.done }
      else Fill.run limit mark k { f with gap := 0, done := idleBlock :: f.done }
    | [], _ => Fill.run limit mark k { f with gap := 0, done := idleBlock :: f.done }

/-- The scrambled bits of blocks in slot order (R91): the scrambler runs over the port's departing stream, of which R92 speaks
(DEDUCED, assumption 73). -/
def scrambleBlocks : Nat → List Block → Nat × List (List Bool)
  | scr, [] => (scr, [])
  | scr, b :: r =>
    let x := b.line scr
    let y := scrambleBlocks x.1 r
    (y.1, x.2 :: y.2)

/-- The codewords of a port fill 80 slots; every 16,384th begins with a marker on each lane (R92, R93). -/
def State.nextBlocks (s : State) (p : Nat) : State × List Block :=
  let q := s.port p
  let marker := q.lineN % 16384 == 0
  let marks := if marker then (List.range 4).map fun k =>
      (⟨false, markerBytes k p q.marks (s.lane (4 + 4 * p + k)).txBip⟩ : Block) else []
  let limit := if s.isHead then 1024 else 2048
  let f := Fill.run limit (q.lineN % 16384 == 16383) (80 - marks.length) ⟨q.items, q.cur, q.gap + marks.length, []⟩
  (s.onPort p fun q => { q with
    items := f.items, cur := f.cur, gap := f.gap, marks := if marker then (q.marks + 1) % 2 ^ 16 else q.marks },
    marks ++ f.done.reverse)

/-- BIP-8 over the blocks of a lane since its last marker (R93), over their 32 bytes as they are sent (DEDUCED, assumption 73). -/
def laneBip (acc : Nat) (marker : Bool) (lines : List (List Bool)) : Nat :=
  (if marker then lines.drop 1 else lines).foldl bip8 (if marker then 0 else acc)

/-- One codeword on every lane of a port: slot i is sent on logical lane i mod 4, which is the port's lane of that number (R92). -/
def State.sendCodewords (s : State) (p rate : Nat) : State :=
  let marker := (s.port p).lineN % 16384 == 0
  let r := (s.takeItems p).nextBlocks p
  let x := scrambleBlocks (r.1.port p).scr r.2
  let s := r.1.onPort p fun q => { q with scr := x.1 }
  let s := s.each (List.range 4) fun s k =>
    let n := 4 + 4 * p + k
    let lines := (List.range 20).map fun j => nth x.2 (4 * j + k) []
    (s.onLane n fun l => { l with txBip := laneBip l.txBip marker lines }).sendBits n (rate == 2) (wordBits (rsEncode (messageOf lines)))
  s.lineStep p

/-! ### Test patterns (R101 to R104) -/

/-- A lane in test sends as many symbols of its pattern as one codeword has; a lane with LOOPBACK = 1 hears them itself, as they leave
its transmitter (R104). -/
def State.sendPattern (s : State) (n : Nat) (nrz : Bool) : State :=
  let code := s.f F.LANEn_PRBS_GEN_PAT n
  if s.patOff n code || s.f F.LANEn_CTL_LOOPBACK n == 2 then s
  else
    let q := isQ code
    let r := prbsRun code (if q then 5440 else if nrz then 5440 else 2720) (s.lane n).gen
    let l := r.2.map (· != s.b F.LANEn_PRBS_GEN_INV n)
    let x := testSymbols nrz q l
    let heard := s.rxSymbols n nrz (s.lineSymbols n nrz x)
    let s := (s.onLane n fun x => { x with gen := r.1 }).sendSymbols n nrz x
    s.when (s.f F.LANEn_CTL_LOOPBACK n == 1) fun s =>
      (s.hears n).checkBits n (testBits nrz (isQ (s.f F.LANEn_PRBS_CHK_PAT n)) heard)

/-- What the receiver of a powered Ethernet lane reports (R72, R81): whether it has a signal, a locked CDR and a finished adaptation,
the frequency offset within 300 ppm (R82), and with AUTO = 1 a step of its PEAK and H1. The adaptation follows IEEE 802.3ck, which is
outside the spec (R6), so these values are free (assumption 12); with AUTO = 0 the written values are in force. -/
def State.ethReceive (s : State) (n : Nat) : State :=
  let v := Config.free s.fresh
  let s := ((s.flag F.LANEn_STATUS_SIGNAL (bitOf v 0) n).flag F.LANEn_STATUS_CDR_LOCK (bitOf v 1) n).flag F.LANEn_STATUS_ADAPT_DONE
    (bitOf v 2) n
  let s := s.putS F.LANEn_CDR_PPM (v / 8 % 60001 - 30000 : Int) n
  (s.adaptStep n (Config.free (s.fresh + 1) % 32) (Config.free (s.fresh + 2) % 128 - 64 : Int)).tickFresh.tickFresh.tickFresh

/-- The Ethernet lanes (R72): their receivers, and in a test their patterns, at 53.125 GBd. -/
def State.ethTick (s : State) : State :=
  let s := s.when (s.lanePowered 0) fun s => s.each (List.range 4) State.ethReceive
  let e := s.link.ethLine
  let run := s.lanePowered 0 && ((List.range 4).any fun n => s.f F.LANEn_PRBS_GEN_PAT n != 0)
  if !run then s.onLink fun l => { l with ethLine := (s.time.aon, 0) }
  else if e.1 * 5 + e.2 * 256 ≤ s.time.aon * 5 then
    (s.each (List.range 4) fun s n => s.sendPattern n false).onLink fun l => { l with ethLine := (e.1, e.2 + 1) }
  else s

/-! ### As time passes -/

/-- The line of a port: what Table 3-7, R97 and R101 have it send in its state, when its next unit is due. -/
def State.portTick (s : State) (p : Nat) : State :=
  let st := s.portState p
  let rate := s.f F.PORTn_STATUS_RATE p
  if st == psDetect || st == psFault then (if s.lineDue p (frameTime 2) then s.sendTraining p 2 else s)
  else if st == psTrain then
    (if (s.port p).final != some 0 && s.lineDue p (frameTime rate) then s.sendTraining p rate else s)
  else if missionState st then (if s.lineDue p (codewordTime rate) then s.sendCodewords p rate else s)
  else if st == psTest then
    let r := (s.port p).rateMax
    if s.lineDue p (codewordTime r) then
      (s.each (lanesOf p) fun s n => s.sendPattern n (r == 2)).lineStep p
    else s
  else s

/-- What passes while no command waits: time, and what the lines send in it. DESIGN CHOICE (assumption 4): the opcode table has no
row for a tick. -/
def State.idle (s : State) : State :=
  let s := s.passTime
  let s := if s.on iMEM && s.b F.MEM_CTL_SCRUB_EN && s.b F.MEM_STATUS_TRAINED then s.judgeScrub else s
  let s := if s.on iTIME then s.chainLapse else s
  if s.on iLINK then (s.each (List.range 7) State.portTick).ethTick else s

end Sys2Proof.Machine
end

