-- ==== Sys2Proof/Safety.lean ====
section
/-! DEFINITION. What a claim about a step says of the state: the parts it may change, the canonical form it keeps, and the
readings of memory and registers that a frame speaks about. -/
set_option Elab.async false
namespace Sys2Proof.Machine

/-- The parts of the state. -/
inductive Part where
  | regs | mem | fresh | out | pwr | xing | time | host | ring | link | ingest | mst | comp | folds | lamp | therm | boot | bist | flocks | txs | latch | pending
  deriving DecidableEq, Repr

/-- A part is the same in two states. -/
def Part.same (p : Part) (s t : State) : Prop :=
  match p with
  | .regs => t.regs = s.regs
  | .mem => t.mem = s.mem
  | .fresh => t.fresh = s.fresh
  | .out => t.out = s.out
  | .pwr => t.pwr = s.pwr
  | .xing => t.xing = s.xing
  | .time => t.time = s.time
  | .host => t.host = s.host
  | .ring => t.ring = s.ring
  | .link => t.link = s.link
  | .ingest => t.ingest = s.ingest
  | .mst => t.mst = s.mst
  | .comp => t.comp = s.comp
  | .folds => t.folds = s.folds
  | .lamp => t.lamp = s.lamp
  | .therm => t.therm = s.therm
  | .boot => t.boot = s.boot
  | .bist => t.bist = s.bist
  | .flocks => t.flocks = s.flocks
  | .txs => t.txs = s.txs
  | .latch => t.latch = s.latch
  | .pending => t.pending = s.pending

/-- Every part outside the list is the same in `t` as in `s`. -/
def sameBut (ps : List Part) (s t : State) : Prop := ∀ p : Part, p ∉ ps → p.same s t

/-! What there is a fixed number of (the chapters' own counts) stays at its number. -/

abbrev Fold.shaped (x : Fold) : Prop := x.k.length = 32 ∧ x.q.length = 16 ∧ x.strips.length = 4
abbrev LPort.shaped (x : LPort) : Prop := x.drivers.length = 64
abbrev Pwr.shaped (x : Pwr) : Prop := x.flr.length = 4
abbrev Xing.shaped (x : Xing) : Prop := x.inReset.length = 9 ∧ x.clkOk.length = 9 ∧ x.gated.length = 9
abbrev HostSt.shaped (x : HostSt) : Prop := x.ctxs.length = 8 ∧ x.next.length = 8 ∧ x.peerNext.length = 8
abbrev Time.shaped (x : Time) : Prop := x.pd.length = 7 ∧ x.alarms.length = 32
abbrev Ring.shaped (x : Ring) : Prop := x.enc.length = 7
abbrev Link.shaped (x : Link) : Prop := x.lanes.length = 32 ∧ x.ports.length = 7
abbrev Ingest.shaped (x : Ingest) : Prop :=
  x.layers.length = 16 ∧ x.dp.length = 4 ∧ x.flows.length = 16 ∧ x.discards.length = 4
abbrev MemSt.shaped (x : MemSt) : Prop := x.chans.length = 8
abbrev Comp.shaped (x : Comp) : Prop :=
  x.layers.length = 16 ∧ x.poses.length = 4 ∧ x.poseUsed.length = 4 ∧ x.poseFrame.length = 4 ∧ x.posePosts.length = 4 ∧
    x.poseOos.length = 4
abbrev Lamp.shaped (x : Lamp) : Prop := x.ports.length = 16 ∧ x.groups.length = 4 ∧ ∀ p ∈ x.ports, p.shaped
abbrev Therm.shaped (x : Therm) : Prop :=
  x.temp.length = 7 ∧ x.recent.length = 7 ∧ x.marks.length = 6 ∧ x.regions.length = 6 ∧ x.cals.length = 5
abbrev Boot.shaped (x : Boot) : Prop := x.otp.hashes.length = 4
abbrev Bist.shaped (x : Bist) : Prop := x.parts.length = 28

/-- Every list that stands for a fixed number of like things has that number of entries. -/
abbrev State.shaped (s : State) : Prop :=
  s.pwr.shaped ∧ s.xing.shaped ∧ s.host.shaped ∧ s.time.shaped ∧ s.ring.shaped ∧ s.link.shaped ∧ s.ingest.shaped ∧
    s.mst.shaped ∧ s.comp.shaped ∧ (s.folds.length = 4 ∧ ∀ f ∈ s.folds, f.shaped) ∧ s.lamp.shaped ∧ s.therm.shaped ∧
    s.boot.shaped ∧ s.bist.shaped ∧ s.txs.length = 8

/-- The canonical form: register file and memory strictly rising, nothing listed that reads as an unlisted address does. -/
def State.wf (s : State) : Prop := s.regs.wf = true ∧ s.mem.wf = true

/-- The state after an outcome; a fault or a refusal leaves the one before. -/
def outcomeState (o : Host.Outcome State Fault Refusal) (s : State) : State :=
  match o with
  | .next t => t
  | _ => s

/-- The command answers a next state of which `q` holds. -/
def yields (c : Instr) (s : State) (q : State → Prop) : Prop := ∃ t : State, exec c s = .next t ∧ q t

/-- The command answers a next state that differs from `s` in the listed parts alone. -/
def changesOnly (c : Instr) (ps : List Part) : Prop := ∀ s : State, ∃ t : State, exec c s = .next t ∧ sameBut ps s t

end Sys2Proof.Machine
end

