-- ==== Sys2Proof/WellFormed.lean ====
section
/-! DEFINITION. Which commands are well formed: those whose operands the wire, the bus or the pin could carry. The meanings are
total and do not ask for it; it says which terms stand for something that can happen. -/
set_option Elab.async false
namespace Sys2Proof

/-- A register offset: word-aligned, 0x0000_0000 to 0x00FF_FFFF (R620). -/
abbrev regOffset (a : Nat) : Prop := a % 4 = 0 ∧ a < 2 ^ 24

/-- A 32-bit value. -/
abbrev isWord (v : Nat) : Prop := v < 2 ^ 32

/-- A flock ID: 12 bits (R200). -/
abbrev isFlockId (f : Nat) : Prop := f < 2 ^ 12

/-- The command is well formed: ring entries have 64 bytes (R400), cells 512 (R117), LINK blocks and codeword markers 32 (R90). -/
def WellFormed : Instr → Prop
  | .porNAssert => True
  | .porNRise straps => straps < 2 ^ 16
  | .powerStep mv => mv.length = 7
  | .powerGood mv => mv.length = 7
  | .railEnableTimeout => True
  | .brownout _ mv0 mv1 => mv0 < 2 ^ 16 ∧ mv1 < 2 ^ 16
  | .brownoutRestart => True
  | .resetNAssert _ => True
  | .resetNRelease => True
  | .bootRomStart _ _ _ => True
  | .memoryTrainingDone _ _ _ => True
  | .rstWarm _ => True
  | .rstPowerOff _ => True
  | .rstIsland _ mask => mask < 2 ^ 9
  | .rstFold _ mask => mask < 2 ^ 4
  | .rstCtlAction => True
  | .islandResetRelease _ => True
  | .islandClockLost _ => True
  | .islandClockStable _ => True
  | .refclkLoss => True
  | .xingEvent _ _ => True
  | .xingAck _ _ => True
  | .xingStuck _ _ => True
  | .pcieReset => True
  | .pcieFlr _ => True
  | .pcieFlrDone _ => True
  | .rwpWriteOpen _ addr value => regOffset addr ∧ isWord value
  | .rwpComplete _ addr value => regOffset addr ∧ isWord value
  | .rwpWindowExpire _ => True
  | .registerWrite _ addr value => regOffset addr ∧ isWord value
  | .rcRegisterRead _ addr => regOffset addr
  | .loHalfRead _ addr => regOffset addr
  | .prbsCounterLoRead _ addr => regOffset addr
  | .bar0Write _ addr value _ => regOffset addr ∧ isWord value
  | .sqTailWrite _ value => isWord value
  | .cqHeadWrite _ value => isWord value
  | .mgmtEntryRx _ _ index entry _ => index < 2 ^ 16 ∧ entry.length = 64
  | .mgmtCqReadRx _ _ index => index < 2 ^ 16
  | .mgmtArpRx _ _ => True
  | .regWrite _ entry _ _ => entry.length = 64
  | .tableWrite _ entry _ _ => entry.length = 64
  | .memWrite _ entry _ _ => entry.length = 64
  | .hurdlePost _ entry => entry.length = 64
  | .posePost _ entry => entry.length = 64
  | .tileService _ entry => entry.length = 64
  | .flockOpen _ entry => entry.length = 64
  | .flockCall _ entry => entry.length = 64
  | .flockCancel _ entry => entry.length = 64
  | .flockQuery _ entry => entry.length = 64
  | .txbegin _ entry => entry.length = 64
  | .txend _ entry => entry.length = 64
  | .txabort _ entry => entry.length = 64
  | .tunnel _ entry _ _ => entry.length = 64
  | .regRead _ entry _ => entry.length = 64
  | .memRead _ entry => entry.length = 64
  | .ticketQuery _ entry => entry.length = 64
  | .ticketAccept _ => True
  | .ticketExecute _ => True
  | .tunnelCmdRx _ => True
  | .tunnelReplyRx _ => True
  | .replyAckRx _ => True
  | .replyRepeatTimer seq => seq < 2 ^ 16
  | .mirrorRecordRx _ _ => True
  | .mirrorAckRx _ ticket => ticket < 2 ^ 16
  | .mirrorAckTimeout => True
  | .dprxHpdIrq _ => True
  | .dpLinkTrained _ _ _ => True
  | .dpLinkLoss _ => True
  | .sourceFrameStart _ _ => True
  | .sourceFrameComplete _ _ => True
  | .ctLineWritten _ _ _ => True
  | .st2110PacketRx _ => True
  | .igmpReportTimer _ => True
  | .igmpQueryRx _ _ => True
  | .layerLatch _ => True
  | .layerCellSend _ => True
  | .layerAddrCommit _ value => isWord value
  | .layerClipWrite _ value => isWord value
  | .faRecordRx _ => True
  | .portEnable _ => True
  | .portDisable _ => True
  | .trainingFrameRx _ control status comp _ => control < 2 ^ 16 ∧ status < 2 ^ 16 ∧ comp < 2 ^ 32
  | .detectComplete _ => True
  | .trainReady _ _ => True
  | .trainEnd _ => True
  | .trainTimeout _ => True
  | .alignComplete _ arrivals => arrivals.length = 4
  | .alignTimeout _ => True
  | .checkTxTimer _ => True
  | .ident _ block => block.length = 32
  | .cap _ block => block.length = 32
  | .confirm _ block => block.length = 32
  | .checkComplete _ => True
  | .checkTimeout _ => True
  | .confirmTxEnd _ => True
  | .laneLos _ => True
  | .markerRx _ marker _ _ _ => marker = [] ∨ marker.length = 32
  | .codewordRx _ symbols => (symbols.length = 2720 ∨ symbols.length = 5440) ∧ ∀ x ∈ symbols, x < 4
  | .idleBlockRx _ run block => (∀ b ∈ run, b.length = 32) ∧ block.length = 32
  | .faultHoldoffExpire _ => True
  | .portRetrain _ => True
  | .portClear _ => True
  | .laneTestSelect _ _ _ _ => True
  | .prbsClear _ => True
  | .injectGo _ => True
  | .injectRateTick _ => True
  | .cellRx _ cell => cell.length = 512
  | .gapWaitExpire stream _ => stream < 64
  | .ringEnumerate => True
  | .enum _ body => body.length = 32
  | .enumWaveTimeout => True
  | .report _ _ => True
  | .joinRequestTimer => True
  | .request _ _ => True
  | .assign _ => True
  | .tileHealthTimeout _ => True
  | .wallTimer => True
  | .wall _ => True
  | .authority _ => True
  | .windowReset _ => True
  | .helloTimer => True
  | .hello _ _ => True
  | .electionTimeout => True
  | .copyAckRx tally => isWord tally
  | .copyAckTimeout => True
  | .digestSend _ _ => True
  | .digestRx _ => True
  | .headLossTimeout => True
  | .takeoverDecide flock => isFlockId flock
  | .demotedRecover => True
  | .resyncCopyRx _ => True
  | .resyncComplete => True
  | .handbackCleanElapsed => True
  | .handback => True
  | .ringHandover => True
  | .ringClear => True
  | .keyxTimer _ => True
  | .keyx _ body => body.length = 32
  | .keyconf _ body => body.length = 32
  | .timeCapture => True
  | .timeRelock => True
  | .timeClear => True
  | .timeSetWrite value => isWord value
  | .timeCellTimer _ => True
  | .timeCellRx _ cell => cell.length = 512
  | .pdelayTimer _ => True
  | .pdreq _ body => body.length = 32
  | .pdresp _ body => body.length = 32
  | .pdrespTimeout _ => True
  | .ppsEdge _ => True
  | .ppsTimeout => True
  | .ptpAnnounceTimeout => True
  | .ptpSyncRx _ => True
  | .ptpAnnounceRx _ => True
  | .ptpDelayRespRx seq _ => seq < 2 ^ 16
  | .ptpPdelayReqRx seq _ => seq < 2 ^ 16
  | .ptpDelayReqTimer => True
  | .ptpMasterTxTimer _ => True
  | .swapInstant _ => True
  | .slotStart => True
  | .alarmArm _ => True
  | .alarmFire _ => True
  | .alarmPulseEnd _ => True
  | .flockOpenRx _ => True
  | .stagedWriteRx _ => True
  | .flockOpenTimeout flock => isFlockId flock
  | .callMsg _ _ => True
  | .voteSend flock _ => isFlockId flock
  | .voteDeadline flock _ => isFlockId flock
  | .vote _ => True
  | .voteGraceExpire flock => isFlockId flock
  | .commitMsg _ _ => True
  | .abortMsg _ _ => True
  | .flockGuardDeadline flock => isFlockId flock
  | .ack _ => True
  | .flockRecordExpire flock => isFlockId flock
  | .txBoundaryApply _ => True
  | .txOpenTimeout _ => True
  | .flockClear => True
  | .staleClr => True
  | .frameLatch _ => True
  | .slotLatch => True
  | .hurdle _ tally => isWord tally
  | .hurdleRepeatTimer => True
  | .pose _ tally => isWord tally
  | .poseRepeatTimer => True
  | .corrClear => True
  | .pushDeadline => True
  | .lsyncEdge _ => True
  | .lineBufferFill _ _ => True
  | .lampFrameStart _ => True
  | .lampFrameSent _ _ => True
  | .swap => True
  | .statusResp _ _ => True
  | .statusReadTimeout _ => True
  | .blank _ => True
  | .driverProgram _ => True
  | .timingHoldResume _ => True
  | .timingHoldBlack _ => True
  | .lampRefreshExpire => True
  | .fullRefresh => True
  | .lampClear => True
  | .diagRoundStart => True
  | .diagReadEnd => True
  | .diagProbe => True
  | .foldEnable _ _ => True
  | .activate _ => True
  | .restart _ => True
  | .stop _ => True
  | .foldClear _ => True
  | .foldRunComplete _ => True
  | .pipelineItemDone _ _ => True
  | .pacingWindow _ _ => True
  | .waittExpire _ => True
  | .pauseEnd _ => True
  | .nop _ => True
  | .add _ => True
  | .sub _ => True
  | .andR _ => True
  | .orR _ => True
  | .xorR _ => True
  | .shl _ => True
  | .shr _ => True
  | .sar _ => True
  | .mul _ => True
  | .minR _ => True
  | .maxR _ => True
  | .cmp _ => True
  | .addi _ => True
  | .andi _ => True
  | .ori _ => True
  | .xori _ => True
  | .shli _ => True
  | .shri _ => True
  | .sari _ => True
  | .cmpi _ => True
  | .get _ => True
  | .qset _ => True
  | .qget _ => True
  | .qisect _ => True
  | .br _ => True
  | .ld _ => True
  | .st _ => True
  | .ldc _ => True
  | .qld _ => True
  | .qst _ => True
  | .cull _ => True
  | .fetch _ => True
  | .scale _ => True
  | .csc _ => True
  | .blend _ => True
  | .angle _ => True
  | .correct _ => True
  | .crc _ => True
  | .push _ => True
  | .patgen _ => True
  | .waitt _ => True
  | .waith _ => True
  | .signal _ => True
  | .pause _ => True
  | .yield _ => True
  | .kortyTxbegin _ => True
  | .kortyTxend _ => True
  | .flstage _ => True
  | .flvote _ => True
  | .tdone _ => True
  | .trap _ => True
  | .halt _ => True
  | .scrubRead _ => True
  | .correctedWriteback _ => True
  | .memGrant _ _ => True
  | .refreshDue _ => True
  | .memTrackTimer _ => True
  | .memClear => True
  | .logRearm => True
  | .xingClear => True
  | .thermalModelUpdate power mv _ => power.length = 8 ∧ mv.length = 7
  | .sensorSample _ _ => True
  | .rateEval => True
  | .sensorFaultClear => True
  | .thresholdDwellExpire _ _ => True
  | .throttleTick _ => True
  | .tripRestart => True
  | .throttleDivWrite _ => True
  | .thermClear => True
  | .writeWindowOpen => True
  | .writeDeferExpire => True
  | .flashUnitDone _ => True
  | .calRun mask => mask < 2 ^ 5
  | .calRampStep _ _ _ => True
  | .calUnitDone _ _ => True
  | .beginDl _ => True
  | .cancelDl _ => True
  | .calBegin _ => True
  | .calCancel _ => True
  | .activatePrepare flock => isFlockId flock
  | .activationReset => True
  | .bootConfirm _ _ => True
  | .confirmWindowExpire => True
  | .lcTransition _ _ => True
  | .secRevoke _ _ => True
  | .attestGo _ => True
  | .attestDone => True
  | .lbGo _ => True
  | .mbGo _ => True
  | .bistAbort => True
  | .bistClear => True
  | .jtagScanEntry _ => True
  | .bistPrecondSample => True
  | .lbistPartitionDone _ _ => True
  | .mbistInstanceDone _ _ => True
  | .onlineBistWindow => True
  | .onlineBistGapStart => True
  | .healthReportTimer => True
  | .health addr _ => addr < 2 ^ 16
  | .gpioCfgWrite _ value => isWord value
  | .ptpPdelayRespRx seq _ _ => seq < 2 ^ 16
  | .returnLanePhaseAlign _ => True
  | .prbsCheckerLock _ symbols => ∀ x ∈ symbols, x < 4
  | .dprxAuxRequest _ _ => True
  | .pcieLinkUp => True
  | .stflowReceivingLapse _ => True
  | .lsyncPulseEnd _ _ => True

end Sys2Proof
end

