-- ==== Sys2Proof/Certificates/Slice0/Obligations.lean ====
section
/-! DEFINITION. The statements about the model, grouped as the chapters of the spec are. `yields c s q`: command `c` on state `s`
answers a next state of which `q` holds. -/
open Sys2Proof Sys2Proof.Machine


namespace Sys2Proof.Machine

/-- Fold `n` stands at instruction word `w` and can execute it now (R353, R355): it is in a run that has not ended, it waits for
nothing and the parity of the word is good. -/
abbrev standsAt (s : State) (n w : Nat) : Prop :=
  n < 4 ∧ s.folds.length = 4 ∧ (s.fold n).k.length = 32 ∧ (s.fold n).q.length = 16 ∧ (s.fold n).strips.length = 4 ∧
    s.pwr.up = true ∧ s.inRun n = true ∧ (s.fold n).ended = false ∧ s.f F.FOLDn_STATUS_WAIT n = 0 ∧
    (s.fold n).prog.get (s.fold n).pc = w ∧ (s.fold n).pc < 8192 ∧ (s.fold n).pc ∉ (s.fold n).progBad

/-- The fold stands at an instruction that another one follows in its program memory. -/
abbrev runsAt (s : State) (n op w : Nat) : Prop := standsAt s n w ∧ kOp w = op ∧ (s.fold n).pc < 8191

/-- The instruction is counted and the fold stands at the next one, in the same run. -/
abbrev wentOn (s t : State) (n : Nat) : Prop :=
  (t.fold n).pc = (s.fold n).pc + 1 ∧ (t.fold n).steps = (s.fold n).steps + 1 ∧ t.inRun n = true

/-- Register k[i], with k0 reading as 0 (R345). -/
abbrev reg (s : State) (n i : Nat) : BitVec 32 := if i = 0 then 0 else nth (s.fold n).k i 0

/-- Register k[i] of `t` holds `v`, unless it is k0, which discards writes and reads as 0. -/
abbrev setsReg (t : State) (n i : Nat) (v : BitVec 32) : Prop := reg t n i = if i = 0 then 0 else v

/-- The flags Z, N, C and V of the fold. -/
abbrev nzcv (s : State) (n : Nat) : Bool × Bool × Bool × Bool :=
  ((s.fold n).z, (s.fold n).n, (s.fold n).c, (s.fold n).v)

/-- An arithmetic or logic instruction that yields `r`, C and V (R374, R375): the destination, the flags under S, the next
instruction. -/
abbrev aluDone (s t : State) (n w : Nat) (r : BitVec 32) (c v : Bool) : Prop :=
  setsReg t n (kRd w) r ∧ nzcv t n = (if kS w then (r == 0, r.msb, c, v) else nzcv s n) ∧ wentOn s t n

/-- The signed sum or difference does not fit 32 bits. -/
abbrev noFit (x : Int) : Bool := decide (x < -2147483648) || decide (2147483647 < x)

/-- A fold fault with its code at the instruction `pc` (R365, R366): the run ends. -/
abbrev faultedAt (s t : State) (n code pc : Nat) : Prop :=
  t.f F.FOLDn_FAULT_CODE n = code ∧ t.f F.FOLDn_FAULT_PC n = pc ∧ t.inRun n = false ∧ (t.fold n).faulted = true ∧
    t.f F.FOLDn_FAULTS n = min (s.f F.FOLDn_FAULTS n + 1) (2 ^ F.FOLDn_FAULTS.w - 1) ∧
    t.f F.FOLDn_FAULT_SLOT n = (s.fold n).slot % 2 ^ F.FOLDn_FAULT_SLOT.w

/-- Nothing of the fold beside its sequencer registers and flags differs, and no other fold does. -/
abbrev keepsFold (s t : State) (n : Nat) : Prop :=
  (t.fold n).prog = (s.fold n).prog ∧ (t.fold n).load = (s.fold n).load ∧ (t.fold n).queue = (s.fold n).queue ∧
    (t.fold n).events = (s.fold n).events ∧ (t.fold n).strips = (s.fold n).strips ∧ (t.fold n).scheduled = (s.fold n).scheduled ∧
    ∀ m : Nat, m ≠ n → t.fold m = s.fold m

/-- The command answers a next state in which every register bit outside the listed fields is as before; a field is listed with
its instance. -/
def keepsRegs (c : Instr) (fs : List (Fld × Nat × Nat)) : Prop :=
  ∀ s : State, yields c s fun t => ∀ a k : Nat,
    (∀ f ∈ fs, a = f.1.addr f.2.1 f.2.2 → k < f.1.lo ∨ f.1.lo + f.1.w ≤ k) → (t.reg a).getLsbD k = (s.reg a).getLsbD k

/-- Context `ctx` offers over PCIe an entry of opcode `op` with its payload at SQ_HEAD, and it passes the checks of Table 12-6. -/
abbrev offers (s : State) (ctx : Fin 8) (op : Nat) (e pay : Bytes) : Prop :=
  s.mayTake ctx = true ∧ s.f F.CTXn_BIND_TRANSPORT ctx = 1 ∧ (s.ctx ctx).sq = [] ∧ s.host.ctxs.length = 8 ∧
    s.ring.mirrorUp = false ∧ e.length = 64 ∧ eOp e = op ∧ pay.length = eLen e ∧ s.entryCode ctx e pay true = 0

/-- The entry and its payload have passed and wait for their ticket; registers and frame memory are as before. -/
abbrev takes (s t : State) (ctx : Fin 8) (e pay : Bytes) : Prop :=
  (t.ctx ctx).checked = some ⟨e, pay, s.serial, 0, 0⟩ ∧ t.regs = s.regs ∧ t.mem = s.mem

/-- An IDENT of the head on the port: its serial number and the port's kind (R87). -/
def isIdent (s : State) (port : Fin 7) (o : Out) : Bool :=
  match o with
  | .link p 1 b => p == port.val && linkOk 1 b && le b 2 8 == s.serial && le b 12 1 == s.portKind port
  | _ => false

/-- A CAP of the head on the port: the rates it offers (R87). -/
def isCap (s : State) (port : Fin 7) (o : Out) : Bool :=
  match o with
  | .link p 2 b => p == port.val && linkOk 2 b && le b 2 1 == (s.port port).rates
  | _ => false

/-- The intent that a confirmation writes (R532): the running slot is the active one, and no trial goes on. -/
def confirmedIntent (s : State) : Intent :=
  { s.intent with active := s.f F.BOOT_STATUS_SLOT, trial := 255, left := 0, confirmed := true, rollback := s.boot.rollback }

/-- Fields of instance `i`. -/
abbrev ofInst (i : Nat) (fs : List Fld) : List (Fld × Nat × Nat) := fs.map fun f => (f, i, 0)

/-- The whole register that a field stands in. -/
abbrev Fld.whole (f : Fld) : Fld := ⟨f.base, f.s1, f.s2, 0, 32⟩

/-- A field of every context. -/
abbrev ofCtxs (f : Fld) : List (Fld × Nat × Nat) := (List.range 8).map fun c => (f, c, 0)

end Sys2Proof.Machine

/-! ### Power and resets (spec/18_power_and_reset.md) -/

/-- Power-on and reset events take effect: POR_N low clears the node (R579, R580), the power-up order advances step by
step (R574), a power fault or brownout asserts FAULT_N and loses frame memory (R577), the node restarts at step 2
(R578), RESET_N acts from 1 µs on and not below 100 ns, and its rising edge starts the boot ROM (R581). -/
def Obligations.PowerSequenceActs : Prop :=
  (∀ (s : State), yields (.porNAssert) s fun t => t.pwr.porN = false ∧ t.pwr.up = false ∧ t.regs = resetCells ∧ t.mem
    = []) ∧
  (∀ (s : State) (straps : Nat), s.pwr.porN = false → yields (.porNRise straps) s fun t => t.pwr.porN = true ∧
    t.pwr.step = 1) ∧
  (∀ (s : State) (mv : List Nat), s.pwr.porN = true → 1 ≤ s.pwr.step → s.pwr.step ≤ 4 → stepGood s.pwr.step mv = true
    → (s.pwr.step = 1 ∨ s.pwr.enableAt + 10 ^ 6 ≤ s.time.aon) → yields (.powerStep mv) s fun t => t.pwr.step =
    s.pwr.step + 1 ∧ t.pwr.enableAt = s.time.aon) ∧
  (∀ (s : State) (mv : List Nat), s.pwr.porN = true → s.pwr.step = 5 → stepGood 5 mv = true → s.pwr.enableAt + 10 ^ 6
    ≤ s.time.aon → s.pwr.resetN = true → s.therm.hold = false → yields (.powerGood mv) s fun t => t.pwr.step = 7 ∧
    t.pwr.up = true ∧ t.boot.romDue = true) ∧
  (∀ (s : State), s.pwr.porN = true → 2 ≤ s.pwr.step → s.pwr.step ≤ 5 → s.pwr.enableAt + 20 * 10 ^ 6 < s.time.aon →
    yields (.railEnableTimeout) s fun t => t.pwr.faultN = true ∧ t.pwr.up = false ∧ t.pwr.step = 0 ∧ t.mem = []) ∧
  (∀ (s : State) (rail : Fin 7) (mv0 mv1 : Nat), s.pwr.step = 7 → 2 ≤ rail.val → railGood rail mv0 = false → railGood
    rail mv1 = false → yields (.brownout rail mv0 mv1) s fun t => t.pwr.faultN = true ∧ t.pwr.up = false ∧ t.pwr.step
    = 0 ∧ t.mem = []) ∧
  (∀ (s : State) (a : Nat), s.pwr.hold = false → s.therm.hold = false → s.pwr.restartAt = some a → a ≤ s.time.aon →
    yields (.brownoutRestart) s fun t => t.pwr.step = 2 ∧ t.pwr.faultN = false ∧ t.pwr.restartAt = none) ∧
  (∀ (s : State) (w : Nat), 1000 ≤ w → s.resetNHeard = true → s.pwr.step = 7 → yields (.resetNAssert w) s fun t =>
    t.pwr.resetN = false ∧ t.pwr.up = false ∧ t.mem = s.mem) ∧
  (∀ (s : State) (w : Nat), w < 100 → yields (.resetNAssert w) s fun t => t = s) ∧
  (∀ (s : State), s.pwr.resetN = false → s.pwr.step = 7 → s.therm.hold = false → yields (.resetNRelease) s fun t =>
    t.pwr.resetN = true ∧ t.pwr.up = true ∧ t.boot.romDue = true)

/-- A completed RST_CTL pair of context 0 is noted for 100 µs later, a pair of another context sets RWP in its
CTXn_FAULT and requests nothing, and the action then taken is the power-down, which ends what still waits, the warm
reset, or the resets of islands and folds (R583). -/
def Obligations.ResetRequestsAct : Prop :=
  (∀ (s : State), s.pwr.up = true → yields (.rstWarm 0) s fun t => t.pwr.actions = s.pwr.actions ++ [(2 ^ 16,
    s.time.aon + 100000)] ∧ t.pwr.step = s.pwr.step ∧ t.pwr.up = true) ∧
  (∀ (s : State), s.pwr.up = true → yields (.rstPowerOff 0) s fun t => t.pwr.actions = s.pwr.actions ++ [(2 ^ 17,
    s.time.aon + 100000)] ∧ t.pwr.step = s.pwr.step ∧ t.pwr.up = true) ∧
  (∀ (s : State) (mask : Nat), s.pwr.up = true → yields (.rstIsland 0 mask) s fun t => t.pwr.actions = s.pwr.actions
    ++ [(mask % 2 ^ 9, s.time.aon + 100000)] ∧ t.pwr.step = s.pwr.step ∧ t.pwr.up = true) ∧
  (∀ (s : State) (mask : Nat), s.pwr.up = true → yields (.rstFold 0 mask) s fun t => t.pwr.actions = s.pwr.actions ++
    [(mask % 16 * 2 ^ 12, s.time.aon + 100000)] ∧ t.pwr.step = s.pwr.step ∧ t.pwr.up = true) ∧
  (∀ (s : State) (ctx : Fin 8), s.pwr.up = true → ctx ≠ 0 → yields (.rstWarm ctx) s fun t => t.b F.CTXn_FAULT_RWP ctx
    = true ∧ t.pwr = s.pwr) ∧
  (∀ (s : State) (ctx : Fin 8), s.pwr.up = true → ctx ≠ 0 → yields (.rstPowerOff ctx) s fun t => t.b F.CTXn_FAULT_RWP
    ctx = true ∧ t.pwr = s.pwr) ∧
  (∀ (s : State) (ctx : Fin 8) (mask : Nat), s.pwr.up = true → ctx ≠ 0 → yields (.rstIsland ctx mask) s fun t => t.b
    F.CTXn_FAULT_RWP ctx = true ∧ t.pwr = s.pwr) ∧
  (∀ (s : State) (ctx : Fin 8) (mask : Nat), s.pwr.up = true → ctx ≠ 0 → yields (.rstFold ctx mask) s fun t => t.b
    F.CTXn_FAULT_RWP ctx = true ∧ t.pwr = s.pwr) ∧
  (∀ (s : State) (v a : Nat) (rest : List (Nat × Nat)), bitOf v 17 = true → s.pwr.actions = (v, a) :: rest → a ≤
    s.time.aon → yields (.rstCtlAction) s fun t => t.pwr.actions = [] ∧ t.pwr.off = true ∧ t.pwr.step = 0 ∧ t.mem =
    []) ∧
  (∀ (s : State) (v a : Nat) (rest : List (Nat × Nat)), bitOf v 17 = false → bitOf v 16 = true → s.pwr.actions = (v,
    a) :: rest → a ≤ s.time.aon → s.pwr.resetN = true → yields (.rstCtlAction) s fun t => t.pwr.actions = [] ∧
    t.pwr.up = true ∧ t.boot.romDue = true ∧ t.mem = s.mem) ∧
  (∀ (s : State) (v a : Nat) (rest : List (Nat × Nat)) (isl : Fin 9), s.pwr.actions = (v, a) :: rest → a ≤ s.time.aon
    → bitOf v 17 = false → bitOf v 16 = false → bitOf v isl.val = true → isl.val < 8 → nth s.xing.gated isl.val false
    = false → s.xing.inReset.length = 9 → yields (.rstCtlAction) s fun t => t.pwr.actions = rest ∧ nth t.xing.inReset
    isl.val false = true ∧ t.mem = s.mem) ∧
  (∀ (s : State) (v a : Nat) (rest : List (Nat × Nat)), s.pwr.actions = (v, a) :: rest → s.time.aon < a → yields
    (.rstCtlAction) s fun t => t = s)

/-! ### Clocked islands and crossings (spec/14_clock_islands.md) -/

/-- A reset of an island is released once its clock is good and its hold has passed; a lost clock, a handshake in
flight after XING_ACK_LIMIT or a PCIe reset puts the island into reset; the loss of REFCLK is a lock reset; an event
in flight is recorded until its acknowledgement, a third one is an overrun, and an event toward an island in reset is
counted in XINGi_LOST; CLEAR zeroes the counters; a function level reset holds its function. -/
def Obligations.IslandCommandsAct : Prop :=
  (∀ (s : State) (isl : Fin 9), s.pwr.up = true → nth s.xing.inReset isl.val true = true → nth s.xing.clkOk isl.val
    false = true → nth s.xing.gated isl.val false = false → s.xing.inReset.length = 9 → nth s.xing.heldTo isl.val 0 ≤
    s.time.aon → yields (.islandResetRelease isl) s fun t => nth t.xing.inReset isl.val true = false) ∧
  (∀ (s : State) (isl : Fin 9), nth s.xing.gated isl.val false = false → s.xing.clkOk.length = 9 →
    s.xing.inReset.length = 9 → isl ≠ 8 → nth s.xing.clkOk isl.val false = true → yields (.islandClockLost isl) s fun
    t => nth t.xing.clkOk isl.val true = false ∧ nth t.xing.inReset isl.val false = true) ∧
  (∀ (s : State) (isl : Fin 9), nth s.xing.gated isl.val false = false → isl = 8 → nth s.xing.clkOk isl.val false =
    true → yields (.islandClockLost isl) s fun t => t.b F.XINGi_STATUS_CLK_LOST isl = true ∧ t.xing.inReset =
    s.xing.inReset) ∧
  (∀ (s : State) (isl : Fin 9), nth s.xing.gated isl.val false = false → s.xing.clkOk.length = 9 → yields
    (.islandClockStable isl) s fun t => nth t.xing.clkOk isl.val false = true) ∧
  (∀ (s : State), s.pwr.up = true → yields (.refclkLoss) s fun t => t.time.needStep = true ∧ t.f F.TIME_LAG = 0) ∧
  (∀ (s : State) (isl : Fin 9) (line : Nat), s.pwr.up = true → nth s.xing.inReset isl.val true = false →
    (s.xing.flights.find? fun f => f.isl == isl.val && f.line == line) = none → yields (.xingEvent isl line) s fun t
    => t.xing.flights = s.xing.flights ++ [(⟨isl.val, line, s.time.clock, false⟩ : Flight)]) ∧
  (∀ (s : State) (isl : Fin 9) (line : Nat), s.pwr.up = true → nth s.xing.inReset isl.val true = true → yields
    (.xingEvent isl line) s fun t => t.b F.XINGi_STATUS_LOST isl = true ∧ t.xing = s.xing) ∧
  (∀ (s : State) (isl : Fin 9) (line : Nat) (f : Flight), s.pwr.up = true → nth s.xing.inReset isl.val true = false →
    (s.xing.flights.find? fun f => f.isl == isl.val && f.line == line) = some f → f.pending = true → yields
    (.xingEvent isl line) s fun t => t.b F.XINGi_STATUS_OVERRUN isl = true ∧ t.xing = s.xing) ∧
  (∀ (s : State) (isl : Fin 9) (line : Nat), (s.xing.flights.all fun g => !g.pending) = true → yields (.xingAck isl
    line) s fun t => (t.xing.flights.any fun g => g.isl == isl.val && g.line == line) = false) ∧
  (∀ (s : State) (isl : Fin 9) (line : Nat) (f : Flight), f ∈ s.xing.flights → f.isl = isl.val → f.line = line →
    f.start + s.f F.XING_ACK_LIMIT * nsU < s.time.clock → isl ≠ 8 → nth s.xing.gated isl.val false = false →
    s.xing.inReset.length = 9 → yields (.xingStuck isl line) s fun t => nth t.xing.inReset isl.val false = true) ∧
  (∀ (s : State) (i : Fin 9), s.pwr.up = true → yields (.xingClear) s fun t => t.f F.XINGi_OVERRUNS i = 0 ∧ t.f
    F.XINGi_LOST i = 0 ∧ t.f F.XINGi_FORCED i = 0) ∧
  (∀ (s : State), s.pwr.up = true → nth s.xing.gated 7 false = false → s.xing.inReset.length = 9 → yields (.pcieReset)
    s fun t => nth t.xing.inReset 7 false = true) ∧
  (∀ (s : State), s.on iPCIE = true → yields (.pcieLinkUp) s fun t => t.pwr.pcieUp = true) ∧
  (∀ (s : State) (fn : Fin 4), s.on iPCIE = true → s.pwr.flr.length = 4 → yields (.pcieFlr fn) s fun t => nth
    t.pwr.flr fn.val false = true) ∧
  (∀ (s : State) (fn : Fin 4), s.pwr.flr.length = 4 → yields (.pcieFlrDone fn) s fun t => nth t.pwr.flr fn.val true =
    false)

/-! ### Register accesses (spec/21_register_map.md, R7 to R9, R400, R402) -/

/-- A write to A opens a complement-protected pair of 16 accesses, a write of the complement to A + 4 by context 0
gives it effect, and the access that ends a pair's window discards it with an RWP fault, and no earlier one does (R9);
an accepted write takes the register's own operation; a read of an RC register, of a _LO half or of a PRBS counter has
its read effect and answers its value, or 0 with a RIGHTS fault where the context may not read it (R8, R102, R396,
R624); a partial write of BAR0 is counted, a whole one of the context's own registers executes (R625), and a doorbell
of a context bound elsewhere is discarded as on a wrong transport (R394); an index of the queues inside its range is
stored and one outside sets its fault bit (R400, R402); a completion kept for want of room is written when room comes
and raises its interrupt then (R402). -/
def Obligations.RegisterCommandsAct : Prop :=
  (∀ (s : State) (ctx : Fin 8) (addr value : Nat), s.pwr.up = true → isRwp addr = true → s.regCheck ctx addr value = 0
    → s.gatedReg addr = false → (s.ctx ctx).pairs = [] → s.host.ctxs.length = 8 → yields (.rwpWriteOpen ctx addr
    value) s fun t => (t.ctx ctx).pairs = [(⟨addr, BitVec.ofNat 32 (value % 2 ^ 32), 16⟩ : RwpPair)] ∧ t.regs =
    s.regs) ∧
  (∀ (s : State) (addr value : Nat) (w : Word), s.pwr.up = true → isRwp addr = true → isRwpHi (addr + 4) = true →
    isRwp (addr + 4) = false → s.gatedReg (addr + 4) = false → (s.ctx 0).pairs = [(⟨addr, w, 16⟩ : RwpPair)] →
    BitVec.ofNat 32 (value % 2 ^ 32) = ~~~w → s.writeRight 0 (addr + 4) = true → yields (.rwpComplete 0 (addr + 4)
    value) s fun t => t = ((s.onCtx 0 fun x => { x with pairs := x.pairs.filter fun p => p.addr != addr }).rwpEffect
    none addr w.toNat).ageRwp 0 none) ∧
  (∀ (s : State) (ctx : Fin 8) (p : RwpPair), s.pwr.up = true → (s.ctx ctx).pairs = [p] → p.left ≤ 1 →
    s.host.ctxs.length = 8 → yields (.rwpWindowExpire ctx) s fun t => (t.ctx ctx).pairs = [] ∧ t.b F.CTXn_FAULT_RWP
    ctx = true) ∧
  (∀ (s : State) (ctx : Fin 8) (p : RwpPair), s.pwr.up = true → (s.ctx ctx).pairs = [p] → 1 < p.left → yields
    (.rwpWindowExpire ctx) s fun t => t = s) ∧
  (∀ (s : State) (ctx : Fin 8) (addr value : Nat), s.pwr.up = true → s.regCheck ctx addr value = 0 → s.gatedReg addr =
    false → isRwp addr = false → isRwpHi addr = false → (regAt addr).isSome = true → yields (.registerWrite ctx addr
    value) s fun t => t = (s.plainWrite ctx none s.time.clock addr (value % 2 ^ 32)).ageRwp ctx none) ∧
  (∀ (s : State) (ctx : Fin 8) (addr : Nat), s.pwr.up = true → (fieldsAt addr).any (fun f => f.acc == .rc) = true →
    s.readRight ctx addr = true → yields (.rcRegisterRead ctx addr) s fun t => t = (s.regRead ctx addr 0).1.emit
    (.value ctx (s.regRead ctx addr 0).2)) ∧
  (∀ (s : State) (ctx : Fin 8) (addr : Nat), s.pwr.up = true → isLo addr = true → s.readRight ctx addr = true → yields
    (.loHalfRead ctx addr) s fun t => t = (s.regRead ctx addr 0).1.emit (.value ctx (s.regRead ctx addr 0).2)) ∧
  (∀ (s : State) (ctx : Fin 8) (addr : Nat), s.pwr.up = true → addr = F.SEC_SERIAL_LO.base → s.readRight ctx addr =
    true → (s.ctx ctx).pairs = [] → s.host.ctxs.length = 8 → yields (.loHalfRead ctx addr) s fun t => (addr + 4, s.reg
    (addr + 4)) ∈ (t.ctx ctx).captured) ∧
  (∀ (s : State) (ctx : Fin 8) (lane : Fin 32), s.pwr.up = true → s.readRight ctx (F.LANEn_PRBS_ERR_LO.addr lane 0) =
    true → yields (.prbsCounterLoRead ctx (F.LANEn_PRBS_ERR_LO.addr lane 0)) s fun t => t = (s.regRead ctx
    (F.LANEn_PRBS_ERR_LO.addr lane 0) 0).1.emit (.value ctx (s.regRead ctx (F.LANEn_PRBS_ERR_LO.addr lane 0) 0).2)) ∧
  (∀ (s : State) (ctx : Fin 8) (addr : Nat), s.isHead = true → s.pwr.up = true → s.on iPCIE = true → s.pwr.pcieUp =
    true → isLo addr = true → s.readRight ctx addr = false → (s.ctx ctx).pairs = [] → yields (.loHalfRead ctx addr) s
    fun t => Out.value ctx 0 ∈ t.out ∧ t.b F.CTXn_FAULT_RIGHTS ctx = true) ∧
  (∀ (s : State) (ctx : Fin 8) (addr value : Nat), s.isHead = true → s.on iPCIE = true → s.pwr.pcieUp = true → (s.ctx
    ctx).pairs = [] → yields (.bar0Write ctx addr value false) s fun t => t.f F.GLOBAL_ACCESS_ERRS = min (s.f
    F.GLOBAL_ACCESS_ERRS + 1) 0xFFFFFFFF) ∧
  (∀ (s : State) (ctx : Fin 8) (addr value : Nat), s.isHead = true → s.on iPCIE = true → s.pwr.pcieUp = true → bar0Own
    ctx addr = true → (s.f F.CTXn_BIND_TRANSPORT ctx = 1 ∨ addr ≠ F.CTXn_SQ_TAIL.addr ctx 0) → yields (.bar0Write ctx
    addr value true) s fun t => t = (s.plainWrite ctx none s.time.clock addr (value % 2 ^ 32)).ageRwp ctx none) ∧
  (∀ (s : State) (ctx : Fin 8) (value : Nat), s.isHead = true → s.on iPCIE = true → s.pwr.pcieUp = true → s.f
    F.CTXn_BIND_TRANSPORT ctx ≠ 1 → (s.ctx ctx).pairs = [] → yields (.bar0Write ctx (F.CTXn_SQ_TAIL.addr ctx 0) value
    true) s fun t => t.f F.CTXn_DISCARDED ctx = min (s.f F.CTXn_DISCARDED ctx + 1) (2 ^ 32 - 1) ∧ t.b
    F.CTXn_FAULT_WRONG_TRANSPORT ctx = true ∧ t.f F.CTXn_SQ_TAIL ctx = s.f F.CTXn_SQ_TAIL ctx) ∧
  (∀ (s : State) (ctx : Fin 8) (value : Nat), s.pwr.up = true → value ≤ 4095 → (s.ctx ctx).pairs = [] → s.f
    F.CTXn_BIND_TRANSPORT ctx = 1 → yields (.sqTailWrite ctx value) s fun t => t.f F.CTXn_SQ_TAIL ctx = value ∧ t.f
    F.CTXn_SQ_HEAD ctx = s.f F.CTXn_SQ_HEAD ctx) ∧
  (∀ (s : State) (ctx : Fin 8) (value : Nat), s.pwr.up = true → 4095 < value → (s.ctx ctx).pairs = [] → s.f
    F.CTXn_BIND_TRANSPORT ctx = 1 → yields (.sqTailWrite ctx value) s fun t => t.f F.CTXn_SQ_TAIL ctx = s.f
    F.CTXn_SQ_TAIL ctx ∧ t.b F.CTXn_FAULT_SQ_INDEX ctx = true) ∧
  (∀ (s : State) (ctx : Fin 8) (value : Nat), s.pwr.up = true → s.f F.CTXn_BIND_TRANSPORT ctx ≠ 1 → (s.ctx ctx).pairs
    = [] → yields (.sqTailWrite ctx value) s fun t => t.f F.CTXn_SQ_TAIL ctx = s.f F.CTXn_SQ_TAIL ctx ∧ t.b
    F.CTXn_FAULT_WRONG_TRANSPORT ctx = true ∧ t.f F.CTXn_DISCARDED ctx = min (s.f F.CTXn_DISCARDED ctx + 1) (2 ^ 32 -
    1)) ∧
  (∀ (s : State) (ctx : Fin 8) (value : Nat), s.pwr.up = true → (8192 ≤ value ∨ (s.f F.CTXn_CQ_TAIL ctx + 8192 - s.f
    F.CTXn_CQ_HEAD ctx) % 8192 < (value + 8192 - s.f F.CTXn_CQ_HEAD ctx) % 8192) → (s.ctx ctx).pairs = [] → yields
    (.cqHeadWrite ctx value) s fun t => t.f F.CTXn_CQ_HEAD ctx = s.f F.CTXn_CQ_HEAD ctx ∧ t.b F.CTXn_FAULT_CQ_INDEX
    ctx = true) ∧
  (∀ (s : State) (ctx : Fin 8) (value : Nat), s.pwr.up = true → value < 8192 → (value + 8192 - s.f F.CTXn_CQ_HEAD ctx)
    % 8192 ≤ (s.f F.CTXn_CQ_TAIL ctx + 8192 - s.f F.CTXn_CQ_HEAD ctx) % 8192 → (s.ctx ctx).pairs = [] → (s.ctx
    ctx).held = [] → yields (.cqHeadWrite ctx value) s fun t => t.f F.CTXn_CQ_HEAD ctx = value) ∧
  (∀ (s : State) (ctx : Fin 8) (value : Nat) (k : Compl), s.pwr.up = true → value < 8192 → value ≠ s.f F.CTXn_CQ_HEAD
    ctx → (value + 8192 - s.f F.CTXn_CQ_HEAD ctx) % 8192 ≤ (s.f F.CTXn_CQ_TAIL ctx + 8192 - s.f F.CTXn_CQ_HEAD ctx) %
    8192 → s.host.ctxs.length = 8 → (s.ctx ctx).pairs = [] → (s.ctx ctx).held = [k] → s.f F.CTXn_BIND_TRANSPORT ctx =
    1 → k.entry.length = 64 → le k.entry 4 1 = 3 → bitOf (le k.entry 5 1) 1 = false → k.irq = true → yields
    (.cqHeadWrite ctx value) s fun t => (t.ctx ctx).held = [] ∧ t.f F.CTXn_CQ_HEAD ctx = value ∧ t.f F.CTXn_CQ_TAIL
    ctx = (s.f F.CTXn_CQ_TAIL ctx + 1) % 8192 ∧ t.b F.CTXn_STATUS_CQ_FULL ctx = false ∧ t.b
    F.CTXn_IRQ_CAUSE_COMPLETION ctx = true)

/-- The word that a write leaves (R7, R8): for fields that lie inside the word and do not overlap, an RW field takes
the value written (brought into its limits), a W1C field loses the bits written as 1, and a field of another type
keeps its bits. -/
def Obligations.WriteGivesEachFieldItsType : Prop :=
  ∀ (fs : List FieldDef) (old v : Nat), (∀ f ∈ fs, f.lo + f.w ≤ 32) →
    fs.Pairwise (fun f g => f.lo + f.w ≤ g.lo ∨ g.lo + g.w ≤ f.lo) → old < 2 ^ 32 →
    ∀ f ∈ fs,
      (f.acc = .rw → bits (writtenWord fs old v) f.lo f.w = f.value v % 2 ^ f.w) ∧
      (f.acc = .w1c → bits (writtenWord fs old v) f.lo f.w =
        Nat.land (bits old f.lo f.w) (2 ^ f.w - 1 - bits v f.lo f.w)) ∧
      (f.acc ≠ .rw → f.acc ≠ .rwp → f.acc ≠ .w1c → bits (writtenWord fs old v) f.lo f.w = bits old f.lo f.w)

/-! ### Hosts and tickets (spec/12_hosts_and_tickets.md) -/

/-- Over PCIe a command of Table 12-4 at SQ_HEAD that passes the checks of Table 12-6 is held for its ticket, with no
other effect yet (R404, R406); one that fails a check is rejected with the check's code, counted, and has no other
effect; a query is answered at once (R403). -/
def Obligations.HostCommandsAreTaken : Prop :=
  (∀ (s : State) (ctx : Fin 8) (e pay : Bytes), offers s ctx 0x01 e pay → yields (.regWrite ctx e pay true) s fun t =>
    takes s t ctx e pay) ∧
  (∀ (s : State) (ctx : Fin 8) (e pay : Bytes), offers s ctx 0x02 e pay → yields (.tableWrite ctx e pay true) s fun t
    => takes s t ctx e pay) ∧
  (∀ (s : State) (ctx : Fin 8) (e pay : Bytes), offers s ctx 0x03 e pay → yields (.memWrite ctx e pay true) s fun t =>
    takes s t ctx e pay) ∧
  (∀ (s : State) (ctx : Fin 8) (e : Bytes), offers s ctx 0x08 e [] → yields (.hurdlePost ctx e) s fun t => takes s t
    ctx e []) ∧
  (∀ (s : State) (ctx : Fin 8) (e : Bytes), offers s ctx 0x09 e [] → yields (.posePost ctx e) s fun t => takes s t ctx
    e []) ∧
  (∀ (s : State) (ctx : Fin 8) (e : Bytes), offers s ctx 0x0A e [] → yields (.tileService ctx e) s fun t => takes s t
    ctx e []) ∧
  (∀ (s : State) (ctx : Fin 8) (e : Bytes), offers s ctx 0x10 e [] → yields (.flockOpen ctx e) s fun t => takes s t
    ctx e []) ∧
  (∀ (s : State) (ctx : Fin 8) (e : Bytes), offers s ctx 0x11 e [] → yields (.flockCall ctx e) s fun t => takes s t
    ctx e []) ∧
  (∀ (s : State) (ctx : Fin 8) (e : Bytes), offers s ctx 0x12 e [] → yields (.flockCancel ctx e) s fun t => takes s t
    ctx e []) ∧
  (∀ (s : State) (ctx : Fin 8) (e : Bytes), offers s ctx 0x18 e [] → yields (.txbegin ctx e) s fun t => takes s t ctx
    e []) ∧
  (∀ (s : State) (ctx : Fin 8) (e : Bytes), offers s ctx 0x19 e [] → yields (.txend ctx e) s fun t => takes s t ctx e
    []) ∧
  (∀ (s : State) (ctx : Fin 8) (e : Bytes), offers s ctx 0x1A e [] → yields (.txabort ctx e) s fun t => takes s t ctx
    e []) ∧
  (∀ (s : State) (ctx : Fin 8) (e pay : Bytes), offers s ctx 0x20 e pay → yields (.tunnel ctx e pay true) s fun t =>
    takes s t ctx e pay) ∧
  (∀ (s : State) (ctx : Fin 8) (e pay : Bytes) (p : Nat × Instr), p ∈ [(0x01, .regWrite ctx e pay true), (0x02,
    .tableWrite ctx e pay true), (0x03, .memWrite ctx e pay true), (0x08, .hurdlePost ctx e), (0x09, .posePost ctx e),
    (0x0A, .tileService ctx e), (0x10, .flockOpen ctx e), (0x11, .flockCall ctx e), (0x12, .flockCancel ctx e), (0x18,
    .txbegin ctx e), (0x19, .txend ctx e), (0x1A, .txabort ctx e), (0x20, .tunnel ctx e pay true), (0x40, .regRead ctx
    e 0), (0x41, .memRead ctx e), (0x42, .ticketQuery ctx e), (0x43, .flockQuery ctx e)] → s.mayTake ctx = true → s.f
    F.CTXn_BIND_TRANSPORT ctx = 1 → (s.ctx ctx).sq = [] → e.length = 64 → eOp e = p.1 → (p.1 ∈ [0x01, 0x02, 0x03,
    0x20] ∨ pay = []) → pay.length = eLen e → s.entryCode ctx e pay true ≠ 0 → yields (p.2) s fun t => t.f
    F.CTXn_REJECTED ctx = min (s.f F.CTXn_REJECTED ctx + 1) (2 ^ 32 - 1) ∧ t.f F.CTXn_SQ_HEAD ctx = (s.f
    F.CTXn_SQ_HEAD ctx + 1) % 4096 ∧ t.host.journal = s.host.journal ∧ t.mem = s.mem) ∧
  (∀ (s : State) (ctx : Fin 8) (e : Bytes), s.mayTake ctx = true → s.f F.CTXn_BIND_TRANSPORT ctx = 1 → (s.ctx ctx).sq
    = [] → e.length = 64 → eOp e = 0x42 → eLen e = 0 → s.entryCode ctx e [] true = 0 → yields (.ticketQuery ctx e) s
    fun t => t = s.answer ctx e 0 0 0 (ticketData (s.jrec (if bitOf (le e 24 1) 0 then 8 + le e 25 1 else le e 25 1)
    (le e 28 4))) []) ∧
  (∀ (s : State) (ctx : Fin 8) (e : Bytes), s.mayTake ctx = true → s.f F.CTXn_BIND_TRANSPORT ctx = 1 → (s.ctx ctx).sq
    = [] → e.length = 64 → eOp e = 0x43 → eLen e = 0 → s.entryCode ctx e [] true = 0 → yields (.flockQuery ctx e) s
    fun t => t = s.answer ctx e 0 0 0 (s.flockData (s.flock (eFlock e))) []) ∧
  (∀ (s : State) (ctx : Fin 8) (e : Bytes) (pads : Nat), s.mayTake ctx = true → s.f F.CTXn_BIND_TRANSPORT ctx = 1 →
    (s.ctx ctx).sq = [] → e.length = 64 → eOp e = 0x40 → le e 24 1 = 1 → eLen e = 0 → s.entryCode ctx e [] true = 0 →
    yields (.regRead ctx e pads) s fun t => t = (s.regRead ctx (le e 28 4) pads).1.answer ctx e 0 0 0 (toLE 4
    (s.regRead ctx (le e 28 4) pads).2) []) ∧
  (∀ (s : State) (ctx : Fin 8) (e : Bytes), s.mayTake ctx = true → s.f F.CTXn_BIND_TRANSPORT ctx = 1 → (s.ctx ctx).sq
    = [] → e.length = 64 → eOp e = 0x41 → eLen e = 0 → s.entryCode ctx e [] true = 0 → s.isHead = true → le e 24 1 = 0
    → s.clipWritten.memBad (s.clipBase + le e 32 8) (le e 40 4) = false → yields (.memRead ctx e) s fun t => Out.dma
    ctx (eAddr e) (s.clipWritten.memRead (s.clipBase + le e 32 8) (le e 40 4)) ∈ t.out ∧ t.mem = s.mem)

/-- Acceptance gives the checked command the next ticket number and stores its record (R406, R407, R410); a ticket
that is next is carried out, and a MEM_WRITE stores its payload in the clip store while a TILE_SERVICE takes its tile
out of service or back (R408). -/
def Obligations.TicketsRun : Prop :=
  (∀ (s : State) (ctx : Fin 8) (k : Checked), s.pwr.up = true → (s.ctx ctx).checked = some k → (s.ring.mirrors.any fun
    m => m.2 == ctx.val) = false → s.f F.CTXn_NEXT_TICKET ctx < 2 ^ 32 - 1 → s.host.ctxs.length = 8 → yields
    (.ticketAccept ctx) s fun t => t.f F.CTXn_NEXT_TICKET ctx = s.f F.CTXn_NEXT_TICKET ctx + 1 ∧ t.host.journal.length
    = s.host.journal.length + 1 ∧ (t.ctx ctx).checked = none ∧ t.f F.CTXn_ACCEPTED ctx = min (s.f F.CTXn_ACCEPTED ctx
    + 1) (2 ^ 32 - 1)) ∧
  (∀ (s : State) (ctx : Fin 8) (r : JRec), s.boot.running = true → s.survivor = false → nextTicket
    (s.host.journal.filter fun r => r.ctx == ctx.val && r.epoch == s.host.epoch) = some r → s.on iMEM = true →
    s.recBad r = false → yields (.ticketExecute ctx) s fun t => t = (s.onRec ctx r.ticket fun r =>
    { r with st := 2 }).runTicket ctx r) ∧
  (∀ (s : State) (ctx : Fin 8) (r : JRec), s.boot.running = true → s.host.peerJournal = [] → s.ring.mirrorUp = false →
    nextTicket (s.host.journal.filter fun r => r.ctx == ctx.val && r.epoch == s.host.epoch) = some r → eOp r.entry =
    0x03 → s.on iMEM = true → s.recBad r = false → yields (.ticketExecute ctx) s fun t => t.mem = (s.memWrite
    (s.clipBase + le r.entry 32 8) r.payload).mem) ∧
  (∀ (s : State) (ctx : Fin 8) (r : JRec), s.boot.running = true → s.host.peerJournal = [] → s.ring.mirrorUp = false →
    nextTicket (s.host.journal.filter fun r => r.ctx == ctx.val && r.epoch == s.host.epoch) = some r → eOp r.entry =
    0x0A → s.on iMEM = true → s.recBad r = false → yields (.ticketExecute ctx) s fun t => t.ring.tiles =
    s.ring.tiles.map (fun x : TileRec => if x.serial == le r.entry 32 8 then
    { x with outOfService := bitOf (le r.entry 24 1) 0 } else x)) ∧
  (∀ (s : State) (ctx : Fin 8) (r : JRec), s.boot.running = true → s.host.peerJournal = [] → s.ring.mirrorUp = false →
    nextTicket (s.host.journal.filter fun r => r.ctx == ctx.val && r.epoch == s.host.epoch) = some r → eOp r.entry =
    0x10 → r.handoff = false → s.on iMEM = true → s.recBad r = false → yields (.ticketExecute ctx) s fun t =>
    t.flocks.length = s.flocks.length + 1)

/-- A management datagram that names the next index is placed at SQ_TAIL, and one of another transport's context is
counted as discarded with its fault bit (R394, R397); ARP is answered with the node's MAC address; a tunnelled command
reaches its context's ring once, a REPLY is relayed once and acknowledged, an acknowledged REPLY is dropped and an
unacknowledged one repeated (R416, R417); mirrored records are stored and acknowledged (R413), and mirroring ends
after the bound of R140. -/
def Obligations.PeerMessagesAct : Prop :=
  (∀ (s : State) (ctx : Fin 8) (src : Peer) (index : Nat) (entry payload : Bytes), s.pwr.up = true → s.on iPERIPH =
    true → s.b F.HOST_MGMT_CFG = true → s.f F.CTXn_BIND_TRANSPORT ctx = 2 → (s.f F.CTXn_PEER ctx = 0 ∨ src.ip = s.f
    F.CTXn_PEER ctx) → index = s.f F.CTXn_SQ_TAIL ctx → index < 4096 → (index + 1) % 4096 ≠ s.f F.CTXn_SQ_HEAD ctx →
    entry.length = 64 → s.host.ctxs.length = 8 → yields (.mgmtEntryRx ctx src index entry payload) s fun t => (index,
    (⟨entry, payload, s.serial, 0, 0⟩ : Checked)) ∈ (t.ctx ctx).sq ∧ t.f F.CTXn_SQ_TAIL ctx = (index + 1) % 4096 ∧
    (t.ctx ctx).source = src.ip) ∧
  (∀ (s : State) (ctx : Fin 8) (src : Peer) (index : Nat) (entry payload : Bytes), s.pwr.up = true → s.on iPERIPH =
    true → s.b F.HOST_MGMT_CFG = true → s.f F.CTXn_BIND_TRANSPORT ctx ≠ 2 → yields (.mgmtEntryRx ctx src index entry
    payload) s fun t => t.f F.CTXn_DISCARDED ctx = min (s.f F.CTXn_DISCARDED ctx + 1) (2 ^ 32 - 1) ∧ t.b
    F.CTXn_FAULT_WRONG_TRANSPORT ctx = true ∧ t.f F.CTXn_SQ_TAIL ctx = s.f F.CTXn_SQ_TAIL ctx) ∧
  (∀ (s : State) (ctx : Fin 8) (src : Peer) (index : Nat), s.pwr.up = true → s.on iPERIPH = true → s.b F.HOST_MGMT_CFG
    = true → s.f F.CTXn_BIND_TRANSPORT ctx = 2 → (s.ctx ctx).source ≠ 0 → (s.ctx ctx).held = [] → index < 8192 →
    (index + 8192 - s.f F.CTXn_CQ_HEAD ctx) % 8192 ≤ (s.f F.CTXn_CQ_TAIL ctx + 8192 - s.f F.CTXn_CQ_HEAD ctx) % 8192 →
    yields (.mgmtCqReadRx ctx src index) s fun t => t.f F.CTXn_CQ_HEAD ctx = index) ∧
  (∀ (s : State) (target asker : Nat), s.pwr.up = true → s.on iPERIPH = true → s.b F.HOST_MGMT_CFG = true → target =
    s.f F.HOST_MGMT_IP → yields (.mgmtArpRx target asker) s fun t => t = s.emit (.dgram asker 0 (toLE 6 (s.f64
    F.SEC_MAC_LO F.SEC_MAC_HI)))) ∧
  (∀ (s : State) (payload : Bytes) (c : Fin 8), s.pwr.up = true → s.on iLINK = true → s.isTile = true → 96 ≤
    payload.length → le payload 0 1 = 0x30 → bits (le payload 1 1) 0 3 = c.val → s.f F.CTXn_BIND_TRANSPORT c = 3 →
    s.host.taken = [] → le payload 20 1 = s.f F.CTXn_BIND_HEAD_CTX c → s.host.ctxs.length = 8 → (s.ctx c).pairs = [] →
    s.f F.CTXn_SQ_TAIL c ≤ 4095 → yields (.tunnelCmdRx payload) s fun t => (s.f F.CTXn_SQ_TAIL c, (⟨(payload.drop
    32).take 64, payload.drop 96, le payload 8 8, le payload 4 4, le payload 20 1⟩ : Checked)) ∈ (t.ctx c).sq ∧
    ((c.val, le payload 8 8), le payload 4 4) ∈ t.host.taken) ∧
  (∀ (s : State) (payload : Bytes) (q : Reply), s.pwr.up = true → s.on iLINK = true → s.isTile = true → le payload 0 1
    = 0x31 → le payload 8 8 = s.serial → s.host.replies = [q] → q.seq = le payload 4 4 → q.index = none → yields
    (.replyAckRx payload) s fun t => t.host.replies = [] ∧ t.regs = s.regs) ∧
  (∀ (s : State) (seq : Nat) (q : Reply), s.host.replies.find? (fun r => r.seq == seq) = some q → s.isTile = true →
    s.on iLINK = true → yields (.replyRepeatTimer seq) s fun t => t = s.tileSend 34 s.tileAddr q.body) ∧
  (∀ (s : State) (payload : Bytes) (x : TileRec), s.pwr.up = true → s.on iLINK = true → s.isBw = true → le payload 0 1
    = 0x38 → s.ring.tiles.find? (fun t => t.serial == le payload 8 8) = some x → s.host.relayed.contains (le payload 8
    8, le payload 4 4) = true → yields (.tunnelReplyRx payload) s fun t => t = s.bwSend 20 (x.hop + 256 * x.ring)
    (mkMsg 16 [(0, 1, 0x31), (4, 4, le payload 4 4), (8, 8, le payload 8 8)])) ∧
  (∀ (s : State) (payload : Bytes) (x : TileRec), s.pwr.up = true → s.on iLINK = true → s.isBw = true → le payload 0 1
    = 0x38 → s.ring.tiles.find? (fun t => t.serial == le payload 8 8) = some x → s.host.relayed = [] → yields
    (.tunnelReplyRx payload) s fun t => (le payload 8 8, le payload 4 4) ∈ t.host.relayed ∧ t.mem = s.mem) ∧
  (∀ (s : State) (record payload : Bytes), s.isHead = true → s.pwr.up = true → s.host.peerJournal = [] → bitOf (le
    record 71 1) 3 = false → yields (.mirrorRecordRx record payload) s fun t => t.host.peerJournal =
    [{ JRec.ofBytes record payload true with tepoch := s.f F.TIME_TEPOCH }]) ∧
  (∀ (s : State) (ctx : Fin 8) (ticket : Nat), s.isHead = true → s.pwr.up = true → s.f F.CTXn_NEXT_TICKET ctx = ticket
    → yields (.mirrorAckRx ctx ticket) s fun t => t.ring.mirrors = s.ring.mirrors.filter (fun m : Nat × Nat => m.2 !=
    ctx.val) ∧ t.regs = s.regs) ∧
  (∀ (s : State) (m : Nat × Nat), s.isHead = true → s.ring.mirrorUp = true → m ∈ s.ring.mirrors → m.1 + 50000 <
    s.time.aon → yields (.mirrorAckTimeout) s fun t => t.ring.mirrorUp = false ∧ t.ring.mirrors = [] ∧ t.b
    F.RING_STATUS_MIRROR_UP = false)

/-! ### Flocks and local transactions (spec/06_flocks.md) -/

/-- On a node: OPEN makes a record in STAGING (R201), a staged write is held and counted (R202), CALL fixes T and D_v
(R210), the vote is READY when nothing stands against it and REFUSE with FAULT on a failed check (R218), D_v passed is
a refusal with MISSING (R210), COMMIT in time schedules the flock at T and a late one makes it late (R214, R215),
ABORT discards it (R213), and a guard deadline, an expired record and the CLEAR actions act as their rules say. -/
def Obligations.FlockMembersAct : Prop :=
  (∀ (s : State) (payload : Bytes), s.pwr.up = true → s.on iLINK = true → msgOk 0x13 payload = true → le payload 2 2 ≠
    0 → s.flock (le payload 2 2) = none → yields (.flockOpenRx payload) s fun t => (t.flock (le payload 2 2)).map (fun
    f => (f.st, f.exclusive, f.ctx, f.opener)) = some (1, bitOf (le payload 1 1) 0, le payload 4 1, le payload 8 8)) ∧
  (∀ (s : State) (payload : Bytes) (id : Nat) (f : Flock), s.pwr.up = true → s.on iLINK = true → s.isTile = true →
    eTarget ((payload.drop 8).take 64) = 0xFFFF → le payload 2 2 = id → s.flock id = some f → f.st = 1 → yields
    (.stagedWriteRx payload) s fun t => (t.flock id).any (fun g => g.received == f.received + 1 && (g.content ==
    f.content ++ s.entryWrs ((payload.drop 8).take 64) (payload.drop 72) || g.failure.isSome)) = true) ∧
  (∀ (s : State) (payload : Bytes) (id : Nat) (f : Flock), s.pwr.up = true → s.on iLINK = true → msgOk 0x10 payload =
    true → le payload 2 2 = id → s.time.clock ≤ s.instant32 (le payload 12 4) (le payload 16 4) → s.flock id = some f
    → f.st = 1 → (s.isBw = true ∨ (s.isHead = true ∧ s.f F.RING_STATUS_STATE = hsStandby)) → yields (.callMsg payload
    false) s fun t => (t.flock id).map (fun g => ((g.st, g.called, g.t), (g.dv, g.guard), g.parts)) = some ((2, true,
    le payload 4 8), (s.instant32 (le payload 12 4) (le payload 16 4), le payload 28 2), s.participants)) ∧
  (∀ (s : State) (flock : Nat) (f : Flock), s.pwr.up = true → s.isBw = false → s.flock flock = some f → f.st = 2 →
    s.time.clock ≤ f.dv → s.markPassed 19 f.txMark = true → s.markPassed 20 f.mgmtMark = true → s.voteReason f false =
    (0, none) → yields (.voteSend flock none) s fun t => (t.flock flock).map (fun g => (g.st, g.voted, g.content)) =
    some (3, true, f.content)) ∧
  (∀ (s : State) (flock : Nat) (f : Flock), s.pwr.up = true → s.isBw = false → s.flock flock = some f → f.st = 2 →
    s.time.clock ≤ f.dv → s.markPassed 19 f.txMark = true → s.markPassed 20 f.mgmtMark = true → s.voteReason f true =
    (4, none) → yields (.voteSend flock (some .record)) s fun t => (t.flock flock).map (fun g => (g.st, g.voted,
    g.reason, g.content)) = some (4, false, 4, []) ∧ t.b F.FLOCK_EVENT_RECORD_FAULT = true) ∧
  (∀ (s : State) (flock : Nat) (f : Flock), s.pwr.up = true → s.isBw = false → s.flock flock = some f → f.st = 2 →
    s.time.clock ≤ f.dv → s.markPassed 19 f.txMark = true → s.markPassed 20 f.mgmtMark = true → s.voteReason f true =
    (4, none) → yields (.voteSend flock (some .content)) s fun t => (t.flock flock).map (fun g => (g.st, g.voted,
    g.reason, g.content)) = some (4, false, 4, []) ∧ t.b F.FLOCK_EVENT_RECORD_FAULT = s.b F.FLOCK_EVENT_RECORD_FAULT)
    ∧
  (∀ (s : State) (flock : Nat) (f : Flock), s.pwr.up = true → s.isBw = false → s.flock flock = some f → f.st = 2 →
    f.dv ≤ s.time.clock → s.marksPassed f = false → yields (.voteDeadline flock none) s fun t => (t.flock flock).map
    (fun g => (g.st, g.voted, g.reason, g.content)) = some (4, false, 5, [])) ∧
  (∀ (s : State) (flock : Nat) (f : Flock), s.pwr.up = true → s.isBw = false → s.flock flock = some f → f.st = 2 →
    f.dv < s.time.clock → s.marksPassed f = true → s.voteReason f false = (0, none) → yields (.voteDeadline flock
    none) s fun t => (t.flock flock).map (fun g => (g.st, g.voted, g.content)) = some (3, true, f.content)) ∧
  (∀ (s : State) (flock : Nat) (f : Flock), s.flock flock = some f → s.time.clock < f.dv → yields (.voteDeadline flock
    none) s fun t => t = s) ∧
  (∀ (s : State) (payload : Bytes) (f : Flock), s.pwr.up = true → s.on iLINK = true → s.isBw = false → msgOk 0x11
    payload = true → s.flock (le payload 2 2) = some f → f.voted = true → f.st = 3 → f.applyAt = none → f.broken =
    false → s.time.clock + usU (le payload 12 2) ≤ (s.epochTiming f.tepoch).swapAt (le payload 4 8) → yields
    (.commitMsg payload false) s fun t => (t.flock (le payload 2 2)).map (fun g => (g.st, g.applyAt, g.late)) = some
    (5, some (le payload 4 8), false)) ∧
  (∀ (s : State) (payload : Bytes) (f : Flock), s.pwr.up = true → s.on iLINK = true → s.isBw = false → msgOk 0x11
    payload = true → s.flock (le payload 2 2) = some f → f.voted = true → f.st = 3 → f.applyAt = none → f.broken =
    false → (s.epochTiming f.tepoch).swapAt (le payload 4 8) < s.time.clock + usU (le payload 12 2) → yields
    (.commitMsg payload false) s fun t => (t.flock (le payload 2 2)).map (fun g => (g.st, g.late)) = some (7, true) ∧
    t.b F.FLOCK_EVENT_LATE_OUTCOME = true) ∧
  (∀ (s : State) (payload : Bytes), s.pwr.up = true → s.on iLINK = true → s.isBw = false → msgOk 0x11 payload = true →
    s.flock (le payload 2 2) = none → yields (.commitMsg payload false) s fun t => t.b F.FLOCK_STATUS_STALE_CONFIG =
    true ∧ t.b F.FLOCK_EVENT_NO_RECORD = true) ∧
  (∀ (s : State) (payload : Bytes) (f : Flock), s.pwr.up = true → s.on iLINK = true → s.isBw = false → msgOk 0x12
    payload = true → s.flock (le payload 2 2) = some f → f.voted = true → f.st = 3 → yields (.abortMsg payload false)
    s fun t => (t.flock (le payload 2 2)).map (fun g => (g.st, g.reason, g.content)) = some (6, le payload 4 1, []) ∧
    t.f F.FLOCK_ABORTS = min (s.f F.FLOCK_ABORTS + 1) (2 ^ 32 - 1)) ∧
  (∀ (s : State) (flock : Nat) (f : Flock), s.flock flock = some f → f.st = 3 → f.voted = true → (s.epochTiming
    f.tepoch).swapAt f.t < s.time.clock + usU f.guard → yields (.flockGuardDeadline flock) s fun t => (t.flock
    flock).map Flock.st = some 7) ∧
  (∀ (s : State) (flock : Nat) (f : Flock), s.flock flock = some f → s.isBw = false → (f.st = 8 ∨ f.st = 6) → 16 ≤
    f.quiet → yields (.flockRecordExpire flock) s fun t => t.flock flock = none) ∧
  (∀ (s : State), s.pwr.up = true → yields (.flockClear) s fun t => t.f F.FLOCK_COMMITS = 0 ∧ t.f F.FLOCK_ABORTS = 0 ∧
    t.f F.FLOCK_OOS_FRAMES = 0 ∧ t.f F.FLOCK_LATE_VOTES = 0) ∧
  (∀ (s : State), s.pwr.up = true → yields (.staleClr) s fun t => t.b F.FLOCK_STATUS_STALE_CONFIG = false)

/-- A vote by D_v is held, one past D_v is counted as late on the bellwether, and a REFUSE vote aborts the flock with
its reason (R211); a flock left open past FLOCK_OPEN_LIMIT aborts with TIMEOUT (R205); at the end of the grace, and in
a takeover, a vote that is missing aborts it (R211, R220); an acknowledgement names its participant and its outcome
(R213, R220); a record that fails its check at the vote of D_v is refused with FAULT, and an outcome that meets such a
record after a READY vote counts as not received (R218). -/
def Obligations.FlockDecisions : Prop :=
  (∀ (s : State) (payload : Bytes) (f : Flock), s.pwr.up = true → s.on iLINK = true → s.isHead = true → s.isBw = false
    → msgOk 1 payload = true → s.flock (le payload 2 2) = some f → f.called = true → (f.votes.any fun x => x.serial ==
    le payload 20 8) = false → s.instant32 (le payload 12 4) (le payload 16 4) ≤ f.dv → s.time.clock ≤ f.dv + usU (s.f
    F.FLOCK_VOTE_GRACE) → f.parts.contains (le payload 20 8) = true → yields (.vote payload) s fun t => (t.flock (le
    payload 2 2)).map Flock.votes = some (f.votes ++ [(⟨le payload 20 8, !(bitOf (le payload 1 1) 0), le payload 4 1,
    le payload 8 4⟩ : Vote)])) ∧
  (∀ (s : State) (payload : Bytes) (f : Flock), s.pwr.up = true → s.on iLINK = true → s.isBw = true → msgOk 1 payload
    = true → s.flock (le payload 2 2) = some f → f.called = true → (f.votes.any fun x => x.serial == le payload 20 8)
    = false → f.dv < s.instant32 (le payload 12 4) (le payload 16 4) → f.parts.contains (le payload 20 8) = true →
    yields (.vote payload) s fun t => t.f F.FLOCK_LATE_VOTES = min (s.f F.FLOCK_LATE_VOTES + 1) (2 ^ 32 - 1) ∧
    t.flocks = s.flocks) ∧
  (∀ (s : State) (payload : Bytes) (f : Flock), s.pwr.up = true → s.on iLINK = true → s.isBw = true → msgOk 1 payload
    = true → s.flock (le payload 2 2) = some f → f.called = true → f.votes = [] → f.decided = none → bitOf (le payload
    1 1) 0 = true → s.instant32 (le payload 12 4) (le payload 16 4) ≤ f.dv → s.time.clock ≤ f.dv + usU (s.f
    F.FLOCK_VOTE_GRACE) → f.parts.contains (le payload 20 8) = true → yields (.vote payload) s fun t => (t.flock (le
    payload 2 2)).all (fun g => g.st == 6 && g.reason == le payload 4 1 && g.decided == some false) = true ∧ t.mem =
    s.mem) ∧
  (∀ (s : State) (flock : Nat) (f : Flock), s.flock flock = some f → s.isBw = true → f.st = 1 → f.called = false →
    f.decided = none → f.openedAt + secU (s.f F.FLOCK_OPEN_LIMIT) < s.time.clock → yields (.flockOpenTimeout flock) s
    fun t => (t.flock flock).all (fun g => g.st == 6 && g.reason == 6 && g.decided == some false) = true ∧ t.f
    F.FLOCK_ABORTS = min (s.f F.FLOCK_ABORTS + 1) (2 ^ 32 - 1)) ∧
  (∀ (s : State) (flock : Nat) (f : Flock), s.flock flock = some f → s.isBw = true → f.called = true → f.decided =
    none → f.st = 2 → f.votes = [] → (s.awaited f).isEmpty = false → max f.dv s.ring.bwSince + usU (s.f
    F.FLOCK_VOTE_GRACE) < s.time.clock → yields (.voteGraceExpire flock) s fun t => (t.flock flock).all (fun g => g.st
    == 6 && g.reason == 6 && g.decided == some false) = true ∧ t.f F.FLOCK_ABORTS = min (s.f F.FLOCK_ABORTS + 1) (2 ^
    32 - 1)) ∧
  (∀ (s : State) (flock : Nat) (f : Flock), s.flock flock = some f → s.isBw = true → f.called = true → f.decided =
    none → f.st = 2 → f.votes = [] → f.acks = [] → (s.awaited f).isEmpty = false → max f.dv s.ring.bwSince + usU (s.f
    F.FLOCK_VOTE_GRACE) < s.time.clock → f.taken = true → yields (.takeoverDecide flock) s fun t => (t.flock
    flock).all (fun g => g.st == 6 && g.reason == 6 && g.decided == some false) = true ∧ t.f F.FLOCK_ABORTS = min (s.f
    F.FLOCK_ABORTS + 1) (2 ^ 32 - 1)) ∧
  (∀ (s : State) (payload : Bytes) (f : Flock), s.pwr.up = true → s.on iLINK = true → s.isHead = true → s.isBw = false
    → msgOk 2 payload = true → s.flock (le payload 2 2) = some f → f.acks.contains (le payload 20 8) = false →
    f.decided = none → yields (.ack payload) s fun t => (t.flock (le payload 2 2)).map (fun g => (g.acks, g.ackSaid,
    g.decided)) = some (f.acks ++ [le payload 20 8], some (!(bitOf (le payload 1 1) 0)), none)) ∧
  (∀ (s : State) (payload : Bytes) (f : Flock) (b : Bool), s.pwr.up = true → s.on iLINK = true → s.isBw = true →
    s.isHead = true → msgOk 2 payload = true → s.flock (le payload 2 2) = some f → f.decided = some b →
    f.acks.contains (le payload 20 8) = false → f.st ≠ 8 → f.st ≠ 6 → (s.awaited f).all (fun p => (f.acks ++ [le
    payload 20 8]).contains p) = false → yields (.ack payload) s fun t => (t.flock (le payload 2 2)).map (fun g =>
    (g.acks, g.ackSaid, g.decided)) = some (f.acks ++ [le payload 20 8], f.ackSaid, some b)) ∧
  (∀ (s : State) (payload : Bytes) (f : Flock), s.pwr.up = true → s.on iLINK = true → s.isBw = false → msgOk 0x11
    payload = true → s.flock (le payload 2 2) = some f → f.voted = true → f.st = 3 → yields (.commitMsg payload true)
    s fun t => (t.flock (le payload 2 2)).map (fun g => (g.st, g.applyAt, g.voted)) = some (7, none, true) ∧ t.b
    F.FLOCK_EVENT_RECORD_FAULT = true ∧ t.out = s.out) ∧
  (∀ (s : State) (flock : Nat) (f : Flock), s.pwr.up = true → s.isBw = false → s.flock flock = some f → f.st = 2 →
    f.dv < s.time.clock → s.marksPassed f = true → s.voteReason f true = (4, none) → yields (.voteDeadline flock (some
    .record)) s fun t => (t.flock flock).map (fun g => (g.st, g.voted, g.reason, g.content)) = some (4, false, 4, [])
    ∧ t.b F.FLOCK_EVENT_RECORD_FAULT = true)

/-- A TXBEGIN ticket opens the transaction of its context (R222); a group with its boundary reached leaves the waiting
list and takes effect (R223); a TXABORT ticket or the time limit discards the open group with HOST or TIMEOUT (R223).
-/
def Obligations.TransactionsAct : Prop :=
  (∀ (s : State) (ctx : Fin 8) (r : JRec), s.pwr.up = true → s.boot.running = true → s.host.peerJournal = [] →
    s.ring.mirrorUp = false → s.txs.length = 8 → nextTicket (s.host.journal.filter fun r => r.ctx == ctx.val &&
    r.epoch == s.host.epoch) = some r → eOp r.entry = 0x18 → yields (.ticketExecute ctx) s fun t => (t.tx ctx).opened
    = true ∧ (t.tx ctx).boundary = le r.entry 24 1 ∧ (t.tx ctx).content = [] ∧ t.f F.FLOCK_TXc_STATUS_STATE ctx = 1) ∧
  (∀ (s : State) (ctx : Fin 8) (r : JRec), s.pwr.up = true → s.boot.running = true → s.host.peerJournal = [] →
    s.ring.mirrorUp = false → s.txs.length = 8 → (s.tx ctx).opened = true → nextTicket (s.host.journal.filter fun r =>
    r.ctx == ctx.val && r.epoch == s.host.epoch) = some r → eOp r.entry = 0x1A → yields (.ticketExecute ctx) s fun t
    => (t.tx ctx).opened = false ∧ t.f F.FLOCK_TXc_STATUS_REASON ctx = 7) ∧
  (∀ (s : State) (ctx : Fin 8) (e : TxEnd) (v : Nat), s.txs.length = 8 → (s.tx ctx).ended = [e] → s.txDue e = true →
    e.content = [(⟨none, F.FLOCK_GUARD.base, toLE 4 v⟩ : Wr)] → 100 ≤ v → v ≤ 50000 → s.gatedReg F.FLOCK_GUARD.base =
    false → yields (.txBoundaryApply ctx) s fun t => (t.tx ctx).ended = [] ∧ t.f F.FLOCK_GUARD = v) ∧
  (∀ (s : State) (ctx : Fin 8), s.txs.length = 8 → (s.tx ctx).opened = true → (s.tx ctx).openedAt + secU (s.f
    F.FLOCK_OPEN_LIMIT) < s.time.clock → yields (.txOpenTimeout ctx) s fun t => (t.tx ctx).opened = false ∧ t.f
    F.FLOCK_TXc_STATUS_REASON ctx = 6)

/-! ### Swap instants, latches and messages of composition (spec/05_time.md, spec/07_composition.md, spec/08_lamp_correction.md) -/

/-- At the first tick at or after a swap instant, and not before (R164, R185), the frame count goes on and the content
of a due flock takes effect, unless it fails its memory check (R214, R218); a slot starts likewise (R186), and the
latches of R186 and R237 take the frame and slot that the clock names; a hurdle or a pose that arrives is held for its
latch, and a bellwether repeats the post in force (R261, R262, R283). -/
def Obligations.FrameInstantsAct : Prop :=
  (∀ (s : State) (bad : List (Nat × FlockPart)), s.pwr.up = true → s.isTile = true → s.flocks = [] → s.boot.expired =
    false → s.swapDue = true → yields (.swapInstant bad) s fun t => t.time.frame = s.nextFrame ∧ t.time.slot = 0) ∧
  (∀ (s : State) (bad : List (Nat × FlockPart)) (f : Flock) (v : Nat), s.pwr.up = true → s.isTile = true → s.flocks =
    [f] → f.due = true → f.go = none → s.applyInstant f ≤ max s.time.clock (s.swapAt s.nextFrame) → f.content =
    [(⟨none, F.FLOCK_GUARD.base, toLE 4 v⟩ : Wr)] → 100 ≤ v → v ≤ 50000 → s.gatedReg F.FLOCK_GUARD.base = false →
    f.latched = false → bad = [] → s.boot.expired = false → s.swapDue = true → yields (.swapInstant bad) s fun t =>
    (t.flock f.id).map (fun g => (g.st, g.content)) = some (8, []) ∧ t.f F.FLOCK_GUARD = v ∧ t.f F.FLOCK_COMMITS = min
    (s.f F.FLOCK_COMMITS + 1) (2 ^ 32 - 1)) ∧
  (∀ (s : State) (bad : List (Nat × FlockPart)) (f : Flock), s.pwr.up = true → s.isTile = true → s.flocks = [f] →
    f.due = true → s.applyInstant f ≤ max s.time.clock (s.swapAt s.nextFrame) → s.boot.expired = false → s.swapDue =
    true → bad = [(f.id % shelf, .content)] → yields (.swapInstant bad) s fun t => (t.flock f.id).map (fun g => (g.st,
    g.broken, g.content)) = some (7, true, f.content) ∧ t.b F.FLOCK_EVENT_STAGE_FAULT = true ∧ t.mem = s.mem) ∧
  (∀ (s : State) (bad : List (Nat × FlockPart)) (f : Flock), s.pwr.up = true → s.isTile = true → s.flocks = [f] →
    f.due = true → s.applyInstant f ≤ max s.time.clock (s.swapAt s.nextFrame) → bad = [(f.id % shelf, .record)] →
    s.boot.expired = false → s.swapDue = true → yields (.swapInstant bad) s fun t => (t.flock f.id).map (fun g =>
    (g.st, g.applyAt, g.content)) = some (7, none, f.content) ∧ t.b F.FLOCK_EVENT_RECORD_FAULT = true ∧ t.mem = s.mem)
    ∧
  (∀ (s : State), s.pwr.up = true → s.slotDue = true → yields (.slotStart) s fun t => t.time.slot = s.nextSlot ∧
    t.time.started = some (s.time.frame, s.nextSlot) ∧ t.mem = s.mem) ∧
  (∀ (s : State) (bad : List (Nat × FlockPart)), s.time.clock < s.swapAt (s.time.frame + 1) → yields (.swapInstant
    bad) s fun t => t = s) ∧
  (∀ (s : State), s.time.clock < s.slotAt s.time.frame s.nextSlot → yields (.slotStart) s fun t => t = s) ∧
  (∀ (s : State) (bad : List (Nat × FlockPart)), s.isTile = true → s.pwr.up = true → s.flocks = [] → s.comp.latched ≠
    some (s.timing.countAt (s.time.clock + usU (s.f F.COMP_LEAD))) → s.time.stepped = true → yields (.frameLatch bad)
    s fun t => t.comp.latched = some (s.timing.countAt (s.time.clock + usU (s.f F.COMP_LEAD))) ∧ t.comp.hurdleOos =
    false) ∧
  (∀ (s : State) (n : Nat), s.isTile = true → s.pwr.up = true → s.flocks = [] → s.comp.latched = some n →
    s.timing.swapAt n ≤ s.time.clock + usU (s.f F.COMP_LEAD) → (s.time.clock + usU (s.f F.COMP_LEAD) - s.timing.swapAt
    n) / (periodU s.timing.code / s.timing.slots) < s.timing.slots → s.comp.slot ≠ some (n, (s.time.clock + usU (s.f
    F.COMP_LEAD) - s.timing.swapAt n) / (periodU s.timing.code / s.timing.slots)) → yields (.slotLatch) s fun t =>
    t.comp.slot = some (n, (s.time.clock + usU (s.f F.COMP_LEAD) - s.timing.swapAt n) / (periodU s.timing.code /
    s.timing.slots)) ∧ t.comp.closed = false ∧ t.lamp.swapSent = false) ∧
  (∀ (s : State) (payload : Bytes) (tally : Nat), s.pwr.up = true → s.on iLINK = true → s.isTile = true → msgOk 0x20
    payload = true → s.comp.layers.length = 16 → yields (.hurdle payload tally) s fun t => (⟨le payload 4 4, le
    payload 8 4, le payload 12 1, tally⟩ : HMsg) ∈ (t.tlayer (bits (le payload 1 1) 0 4)).hurdles) ∧
  (∀ (s : State) (h : HMsg) (at_ v : Nat), s.isBw = true → s.on iLINK = true → s.hurdleOf (s.tlayer 0).posts
    s.wallFrame = some (at_, v, h) → s.comp.layers.length = 16 → (s.comp.layers.drop 1).map TLayer.posts =
    List.replicate 15 [] → yields (.hurdleRepeatTimer) s fun t => t = s.bwSend 16 0xFFFF (hurdleMsg 0 h)) ∧
  (∀ (s : State) (payload : Bytes) (tally : Nat), s.pwr.up = true → s.on iLINK = true → s.isTile = true → msgOk 0x21
    payload = true → s.comp.poses.length = 4 → yields (.pose payload tally) s fun t => (⟨bitOf (le payload 1 1) 2, le
    payload 4 4, le payload 8 4, le payload 12 4, le payload 16 4, le payload 20 1, tally⟩ : PoseMsg) ∈ nth
    t.comp.poses (bits (le payload 1 1) 0 2) []) ∧
  (∀ (s : State) (p : PoseMsg) (at_ : Nat), s.isBw = true → s.on iLINK = true → s.comp.posePosts.map (fun l =>
    l.isEmpty) = [true, false, true, true] → s.poseOf (nth s.comp.posePosts 1 []) s.wallFrame = some (at_, p) → yields
    (.poseRepeatTimer) s fun t => t = s.bwSend 16 0xFFFF (poseMsg 1 p))

/-- With no flock open the bellwether hands authority back and becomes STANDBY (R151); a head in RESYNC takes its
configuration, clip store, journal, each record with the timing epoch in force at its acceptance, and phases (R150,
R633). -/
def Obligations.HandbackAndResync : Prop :=
  (∀ (s : State), s.isBw = true → s.ring.handbackDue = true → s.flocks = [] → s.atSwap = true → yields (.handback) s
    fun t => t.f F.RING_STATUS_STATE = hsStandby ∧ t.b F.RING_STATUS_HANDBACK_PENDING = false ∧ t.ring.handbackDue =
    false) ∧
  (∀ (s : State) (epoch base size : Nat) (v : Word), s.isHead = true → s.on iLINK = true → s.f F.RING_STATUS_STATE =
    hsResync → yields (.resyncCopyRx (.config epoch base size [(F.FLOCK_GUARD.base, v)])) s fun t => t.reg
    F.FLOCK_GUARD.base = v ∧ t.ingest.configEpoch = epoch) ∧
  (∀ (s : State) (epoch base size : Nat), s.isHead = true → s.on iLINK = true → s.f F.RING_STATUS_STATE = hsResync →
    (base ≠ s.clipBase ∨ size ≠ s.clipSize) → yields (.resyncCopyRx (.config epoch base size [])) s fun t => t.b
    F.MEM_STATUS_PEER_MISMATCH = true ∧ t.f F.RING_STATUS_STATE = hsResync) ∧
  (∀ (s : State) (addr : Nat) (data : Bytes), s.isHead = true → s.on iLINK = true → s.f F.RING_STATUS_STATE = hsResync
    → yields (.resyncCopyRx (.clip addr data)) s fun t => t = s.memWrite addr data) ∧
  (∀ (s : State) (record payload : Bytes) (whole : Bool), s.isHead = true → s.on iLINK = true → s.f
    F.RING_STATUS_STATE = hsResync → bitOf (le record 68 1) 3 = false → yields (.resyncCopyRx (.journal record payload
    whole)) s fun t =>
    { JRec.ofBytes record payload true with tepoch := s.epochAt (JRec.ofBytes record payload true).tau } ∈
    t.host.peerJournal) ∧
  (∀ (s : State) (phase : Nat), s.isHead = true → s.on iLINK = true → s.f F.RING_STATUS_STATE = hsResync → yields
    (.resyncCopyRx (.phaseEnd phase)) s fun t => t.ring.resyncPhase = phase ∧ (phase = 2 → t.ring.mirrorUp = true ∧
    t.b F.RING_STATUS_MIRROR_UP = true))

/-! ### Oaris Link (spec/03_oaris_link.md) and link keys (spec/04_ring_and_redundancy.md, R152, R153) -/

/-- A port enabled with RATE_MAX not slower than RATE_MIN starts DETECT, or TEST with a lane in test, and one enabled
otherwise shows reason 11 (R97, R100); training frames of the lane's polarity are counted while their complement holds
and are reason 4 in UP and LOW_RATE (R83, R98); the agreed rate is the slower offer, and one slower than RATE_MIN is
NO_RATE (R85); training ends in ALIGN after the 16 final frames, and alignment of lanes that reach one partner port
within the skew limit ends in CHECK (R74, R86, R94); a time limit, and not before it, or too much skew is FAULT with
its reason (R85, R94, R97). -/
def Obligations.PortTrainingActs : Prop :=
  (∀ (s : State) (port : Fin 7), s.portPowered port = true → s.portState port = psDisabled → s.f F.PORTn_CFG_RATE_MAX
    port ≤ s.f F.PORTn_CFG_RATE_MIN port → s.on iLINK = true → s.inTest port = false → yields (.portEnable port) s fun
    t => t.portState port = psDetect ∧ t.b F.PORTn_CFG_ENABLE port = true) ∧
  (∀ (s : State) (port : Fin 7), s.on iLINK = true → s.portPowered port = true → s.portState port = psDisabled → s.f
    F.PORTn_CFG_RATE_MAX port ≤ s.f F.PORTn_CFG_RATE_MIN port → s.inTest port = true → yields (.portEnable port) s fun
    t => t.portState port = psTest ∧ t.b F.PORTn_CFG_ENABLE port = true) ∧
  (∀ (s : State) (port : Fin 7), s.portPowered port = true → s.portState port = psDisabled → s.f F.PORTn_CFG_RATE_MIN
    port < s.f F.PORTn_CFG_RATE_MAX port → s.on iLINK = true → yields (.portEnable port) s fun t => t.portState port =
    psDisabled ∧ t.f F.PORTn_STATUS_REASON port = 11) ∧
  (∀ (s : State) (port : Fin 7), s.portPowered port = true → s.on iLINK = true → yields (.portDisable port) s fun t =>
    t.portState port = psDisabled ∧ t.b F.PORTn_CFG_ENABLE port = false) ∧
  (∀ (s : State) (lane : Fin 28) (control status comp : Nat) (inverted : Bool), s.on iLINK = true → s.portPowered
    (lane.val / 4) = true → s.portState (lane.val / 4) = psTrain → s.link.lanes.length = 32 → control % 2 ^ 16 + 2 ^
    16 * (status % 2 ^ 16) + comp % 2 ^ 32 = 2 ^ 32 - 1 → (s.b F.LANEn_CTL_RX_POL_AUTO (lane.val + 4) = true ∨ s.b
    F.LANEn_CTL_RX_INVERT (lane.val + 4) = inverted) → yields (.trainingFrameRx lane control status comp inverted) s
    fun t => (t.lane (lane.val + 4)).valid = (s.lane (lane.val + 4)).valid + 1 ∧ (t.lane (lane.val + 4)).ready = (if
    bitOf status 3 then (s.lane (lane.val + 4)).ready + 1 else 0) ∧ t.b F.LANEn_STATUS_SIGNAL (lane.val + 4) = true ∧
    t.b F.LANEn_STATUS_RX_INVERTED (lane.val + 4) = inverted) ∧
  (∀ (s : State) (lane : Fin 28) (control status comp : Nat) (inverted : Bool), s.on iLINK = true → s.portPowered
    (lane.val / 4) = true → s.portState (lane.val / 4) = psTrain → s.link.lanes.length = 32 → control % 2 ^ 16 + 2 ^
    16 * (status % 2 ^ 16) + comp % 2 ^ 32 ≠ 2 ^ 32 - 1 → (s.b F.LANEn_CTL_RX_POL_AUTO (lane.val + 4) = true ∨ s.b
    F.LANEn_CTL_RX_INVERT (lane.val + 4) = inverted) → yields (.trainingFrameRx lane control status comp inverted) s
    fun t => (t.lane (lane.val + 4)).valid = 0 ∧ (t.lane (lane.val + 4)).ready = 0) ∧
  (∀ (s : State) (lane : Fin 28) (control status comp : Nat) (inverted : Bool), s.on iLINK = true → s.portPowered
    (lane.val / 4) = true → (s.portState (lane.val / 4) = psUp ∨ s.portState (lane.val / 4) = psLowRate) → (s.b
    F.LANEn_CTL_RX_POL_AUTO (lane.val + 4) = true ∨ s.b F.LANEn_CTL_RX_INVERT (lane.val + 4) = inverted) → yields
    (.trainingFrameRx lane control status comp inverted) s fun t => t.portState (lane.val / 4) = psFault ∧ t.f
    F.PORTn_STATUS_REASON (lane.val / 4) = 4) ∧
  (∀ (s : State) (lane : Fin 28) (control status comp : Nat) (inverted : Bool), s.on iLINK = true → s.portPowered
    (lane.val / 4) = true → s.b F.LANEn_CTL_RX_POL_AUTO (lane.val + 4) = false → s.b F.LANEn_CTL_RX_INVERT (lane.val +
    4) = !inverted → yields (.trainingFrameRx lane control status comp inverted) s fun t => t.portState (lane.val / 4)
    = s.portState (lane.val / 4) ∧ (t.lane (lane.val + 4)).valid = (s.lane (lane.val + 4)).valid) ∧
  (∀ (s : State) (port : Fin 7) (o : Nat), s.on iLINK = true → s.portState port = psDetect → (s.port port).own = some
    o → max o (s.port port).offer ≤ (s.port port).rateMin → s.detectReady port = true → yields (.detectComplete port)
    s fun t => t.portState port = psTrain ∧ t.f F.PORTn_STATUS_RATE port = max o (s.port port).offer) ∧
  (∀ (s : State) (port : Fin 7), s.on iLINK = true → s.portState port = psDetect → (s.port port).own = none →
    s.detectReady port = true → yields (.detectComplete port) s fun t => t.portState port = psFault ∧ t.f
    F.PORTn_STATUS_REASON port = 6) ∧
  (∀ (s : State) (port : Fin 7) (o : Nat), s.on iLINK = true → s.portState port = psDetect → s.detectReady port = true
    → (s.port port).own = some o → (s.port port).rateMin < max o (s.port port).offer → yields (.detectComplete port) s
    fun t => t.portState port = psFault ∧ t.f F.PORTn_STATUS_REASON port = 6) ∧
  (∀ (s : State) (port : Fin 7) (adapt : List (Nat × Int)), s.on iLINK = true → s.portState port = psTrain →
    s.link.ports.length = 7 → (lanesOf port).all (fun n => decide (3 ≤ (s.lane n).ready)) = true → (s.port port).final
    = none → yields (.trainReady port adapt) s fun t => (t.port port).ownReady = true ∧ (t.port port).final = some 16
    ∧ t.portState port = psTrain) ∧
  (∀ (s : State) (port : Fin 7), s.on iLINK = true → s.portState port = psTrain → (s.port port).final = some 0 →
    yields (.trainEnd port) s fun t => t.portState port = psAlign) ∧
  (∀ (s : State) (port : Fin 7), s.on iLINK = true → s.portState port = psTrain → s.link.ports.length = 7 →
    ({ s.port port with failed := s.f F.PORTn_STATUS_RATE port :: (s.port port).failed } : Port).own.isSome = true →
    (s.port port).stateAt + nsMs (s.f F.PORT_TRAIN_TIMEOUT) < s.time.aon → s.inTest port = false → yields
    (.trainTimeout port) s fun t => t.portState port = psDetect ∧ (t.port port).failed = s.f F.PORTn_STATUS_RATE port
    :: (s.port port).failed) ∧
  (∀ (s : State) (port : Fin 7), s.on iLINK = true → s.portState port = psTrain →
    ({ s.port port with failed := s.f F.PORTn_STATUS_RATE port :: (s.port port).failed } : Port).own = none → (s.port
    port).stateAt + nsMs (s.f F.PORT_TRAIN_TIMEOUT) < s.time.aon → yields (.trainTimeout port) s fun t => t.portState
    port = psFault ∧ t.f F.PORTn_STATUS_REASON port = 6) ∧
  (∀ (s : State) (port : Fin 7) (arrivals : List Nat) (k : Fin 4), s.on iLINK = true → s.portState port = psAlign →
    s.markersReady port = true → s.onePartner port = true → s.f F.PORTn_STATUS_RATE port = 0 → arrivals.length = 4 →
    (∀ x ∈ arrivals, ∀ y ∈ arrivals, x ≤ y + 20480) → yields (.alignComplete port arrivals) s fun t => t.portState
    port = psCheck ∧ t.f F.LANEn_SKEW (4 + 4 * port.val + k.val) = nth arrivals k 0 - arrivals.foldl min (nth arrivals
    0 0) ∧ t.f F.LANEn_STATUS_LOGICAL (4 + 4 * port.val + k.val) = (s.lane (4 + 4 * port.val + k.val)).logical) ∧
  (∀ (s : State) (port : Fin 7) (arrivals : List Nat) (x y : Nat), s.on iLINK = true → s.portState port = psAlign →
    s.markersReady port = true → s.f F.PORTn_STATUS_RATE port = 0 → arrivals.length = 4 → x ∈ arrivals → y ∈ arrivals
    → y + 20480 < x → yields (.alignComplete port arrivals) s fun t => t.portState port = psFault ∧ t.f
    F.PORTn_STATUS_REASON port = 8) ∧
  (∀ (s : State) (port : Fin 7) (arrivals : List Nat), s.on iLINK = true → s.portState port = psAlign → s.markersReady
    port = true → s.onePartner port = false → yields (.alignComplete port arrivals) s fun t => t.portState port =
    psFault ∧ t.f F.PORTn_STATUS_REASON port = 8) ∧
  (∀ (s : State) (port : Fin 7), s.on iLINK = true → s.portState port = psAlign → (s.port port).stateAt + nsMs 10 <
    s.time.aon → yields (.alignTimeout port) s fun t => t.portState port = psFault ∧ t.f F.PORTn_STATUS_REASON port =
    (if ((lanesOf port).all fun n => decide (2 ≤ (s.lane n).mkRun)) && !(s.onePartner port) then 8 else 7)) ∧
  (∀ (s : State) (port : Fin 7), s.time.aon ≤ (s.port port).stateAt + nsMs (s.f F.PORT_TRAIN_TIMEOUT) → yields
    (.trainTimeout port) s fun t => t = s) ∧
  (∀ (s : State) (port : Fin 7), s.time.aon ≤ (s.port port).stateAt + nsMs 10 → yields (.alignTimeout port) s fun t =>
    t = s)

/-- In CHECK the port sends IDENT and CAP every 10 µs and, once both of the partner's are held, CONFIRM, which it goes
on sending for 1 ms (R86); an IDENT of a kind that fits is taken and another is FAULT with WIRING, and so is a CONFIRM
of another serial or of other precoding (R88); CAP settles encryption and ENC_REQUIRED without it is a fault (R87,
R152); keys come from the two nonces (R153); CHECK completes in UP when the admission fits the rate and in LOW_RATE
otherwise, and keeps the reason of the last FAULT (R76, R115); a failed tag or the time limit of 5 ms, not before it,
is FAULT (R97, R153). -/
def Obligations.PortCheckActs : Prop :=
  (∀ (s : State) (port : Fin 7), s.on iLINK = true → s.portState port = psCheck → s.due10 (s.port port).checkTx = true
    → yields (.checkTxTimer port) s fun t => t.out.any (isIdent s port) = true ∧ t.out.any (isCap s port) = true ∧
    t.regs = s.regs) ∧
  (∀ (s : State) (port : Fin 7), s.on iLINK = true → s.portState port = psCheck → s.link.ports.length = 7 → (s.port
    port).gotIdent = true → (s.port port).gotCap = true → s.due10 (s.port port).checkTx = true → yields (.checkTxTimer
    port) s fun t => (t.port port).sentConfirm = true ∧ Out.link port 3 (s.confirmMsg port) ∈ t.out ∧ t.regs = s.regs)
    ∧
  (∀ (s : State) (port : Fin 7) (block : Bytes), s.on iLINK = true → s.portState port = psCheck → linkOk 1 block =
    true → s.link.ports.length = 7 → kindsOk (s.portKind port) (le block 12 1) = true → le block 2 8 ≠ s.serial →
    yields (.ident port block) s fun t => (t.port port).gotIdent = true ∧ t.f64 F.PORTn_PARTNER_SERIAL_LO
    F.PORTn_PARTNER_SERIAL_HI port = le block 2 8 ∧ t.portState port = psCheck) ∧
  (∀ (s : State) (port : Fin 7) (block : Bytes), s.on iLINK = true → s.portState port = psCheck → linkOk 1 block =
    true → (kindsOk (s.portKind port) (le block 12 1) = false ∨ le block 2 8 = s.serial) → yields (.ident port block)
    s fun t => t.portState port = psFault ∧ t.f F.PORTn_STATUS_REASON port = 10) ∧
  (∀ (s : State) (port : Fin 7) (block : Bytes), s.on iLINK = true → s.portState port = psCheck → linkOk 2 block =
    true → s.link.ports.length = 7 → s.b F.RING_CFG_ENC_REQUIRED = false → yields (.cap port block) s fun t => (t.port
    port).gotCap = true ∧ (t.port port).encOn = (bitOf (le block 3 1) 0 && s.b F.RING_CFG_ENC_EN && s.keyValid)) ∧
  (∀ (s : State) (port : Fin 7) (block : Bytes), s.on iLINK = true → s.portState port = psCheck → linkOk 2 block =
    true → s.b F.RING_CFG_ENC_REQUIRED = true → bitOf (le block 3 1) 0 = false → yields (.cap port block) s fun t =>
    t.portState port = psFault ∧ t.f F.PORTn_STATUS_REASON port = 10) ∧
  (∀ (s : State) (port : Fin 7) (block : Bytes), s.on iLINK = true → s.portState port = psCheck → linkOk 3 block =
    true → s.link.ports.length = 7 → le block 4 8 = s.serial → bits (le block 3 1) 0 4 = s.rxPrecodeMap port → bits
    (le block 3 1) 4 4 = s.txPrecodeMap port → yields (.confirm port block) s fun t => (t.port port).gotConfirm = true
    ∧ t.regs = s.regs) ∧
  (∀ (s : State) (port : Fin 7) (block : Bytes), s.on iLINK = true → s.portState port = psCheck → linkOk 3 block =
    true → (le block 4 8 ≠ s.serial ∨ bits (le block 3 1) 0 4 ≠ s.rxPrecodeMap port ∨ bits (le block 3 1) 4 4 ≠
    s.txPrecodeMap port) → yields (.confirm port block) s fun t => t.portState port = psFault ∧ t.f
    F.PORTn_STATUS_REASON port = 10) ∧
  (∀ (s : State) (port : Fin 7), s.on iLINK = true → s.portState port = psCheck → (s.port port).gotConfirm = true →
    (s.port port).sentConfirm = true → ((s.port port).encOn = false ∨ (nth s.ring.enc port {}).verified = true) →
    yields (.checkComplete port) s fun t => t.portState port = (if s.admitFits port then psUp else psLowRate) ∧ t.b
    F.PORTn_STATUS_PARTNER_VALID port = true ∧ t.f F.PORTn_STATUS_REASON port = s.f F.PORTn_STATUS_REASON port) ∧
  (∀ (s : State) (port : Fin 7), s.on iLINK = true → s.portState port = psCheck → (s.port port).stateAt + nsMs 5 <
    s.time.aon → yields (.checkTimeout port) s fun t => t.portState port = psFault ∧ t.f F.PORTn_STATUS_REASON port =
    9) ∧
  (∀ (s : State) (port : Fin 7), s.time.aon ≤ (s.port port).stateAt + nsMs 5 → yields (.checkTimeout port) s fun t =>
    t = s) ∧
  (∀ (s : State) (port : Fin 7) (e : Nat), s.link.ports.length = 7 → (s.port port).confirmEnd = some e → e ≤
    s.time.aon → yields (.confirmTxEnd port) s fun t => (t.port port).confirmEnd = none ∧ t.regs = s.regs) ∧
  (∀ (s : State) (port : Fin 7), s.on iLINK = true → s.portState port = psCheck → (s.port port).encOn = true → (s.port
    port).gotConfirm = true → (s.port port).sentConfirm = true → (s.enc port).own ≠ 0 → (s.enc port).keys = false →
    s.due10 (s.port port).keyxTx = true → yields (.keyxTimer port) s fun t => t = (s.emit (.link port 0x28 (linkBlock
    0x28 [(2, 8, (s.enc port).own)]))).onPort port (fun q => { q with keyxTx := some s.time.aon })) ∧
  (∀ (s : State) (port : Fin 7) (body : Bytes), s.on iLINK = true → s.portState port = psCheck → (s.port port).encOn =
    true → linkOk 0x28 body = true → s.ring.enc.length = 7 → yields (.keyx port body) s fun t => (t.enc port).partner
    = some (le body 2 8) ∧ (t.enc port).keys = true) ∧
  (∀ (s : State) (port : Fin 7) (body : Bytes), s.on iLINK = true → s.portState port = psCheck → (s.port port).encOn =
    true → (s.enc port).keys = true → linkOk 0x29 body = true → s.ring.enc.length = 7 → yields (.keyconf port body) s
    fun t => (le body 2 8 = Config.confTag (s.linkKey port (1 - s.txDir port)) s.serial % 2 ^ 64 → (t.enc
    port).verified = true) ∧ (le body 2 8 ≠ Config.confTag (s.linkKey port (1 - s.txDir port)) s.serial % 2 ^ 64 →
    t.portState port = psFault ∧ t.f F.PORTn_STATUS_REASON port = 9))

/-- A lane that loses its signal, its markers or too many codewords faults its port with reasons 1, 2 and 3 (R93,
R98); a good marker gives the lane's count and logical number (R74, R93); errors that the code corrects or does not
correct are counted, and runs of cell blocks too short for a cell (R89, R92, R116); the hold-off, RETRAIN, CLEAR, test
selection, PRBS and injection commands act as their rules say (R97, R101 to R103, R114). -/
def Obligations.LaneEventsAct : Prop :=
  (∀ (s : State) (lane : Fin 28), s.on iLINK = true → s.portLink (lane.val / 4) = true → s.portPowered (lane.val / 4)
    = true → yields (.laneLos lane) s fun t => t.portState (lane.val / 4) = psFault ∧ t.f F.PORTn_STATUS_REASON
    (lane.val / 4) = 1 ∧ t.b F.LANEn_EVENT_LOS (lane.val + 4) = true) ∧
  (∀ (s : State) (lane : Fin 28) (marker : Bytes) (ppm : Int) (peak : Nat) (h1 : Int), s.on iLINK = true →
    missionState (s.portState (lane.val / 4)) = true → s.link.lanes.length = 32 → s.markerGood (lane.val / 4)
    (lane.val + 4) marker = true → yields (.markerRx lane marker ppm peak h1) s fun t => (t.lane (lane.val +
    4)).marker = some (le marker 3 2) ∧ (t.lane (lane.val + 4)).missed = 0 ∧ (t.lane (lane.val + 4)).corr = 0 ∧
    (t.lane (lane.val + 4)).logical = le marker 1 1 ∧ t.portState (lane.val / 4) = s.portState (lane.val / 4)) ∧
  (∀ (s : State) (lane : Fin 28) (marker : Bytes) (ppm : Int) (peak : Nat) (h1 : Int), s.on iLINK = true → s.portLink
    (lane.val / 4) = true → s.link.lanes.length = 32 → s.markerGood (lane.val / 4) (lane.val + 4) marker = false →
    (s.lane (lane.val + 4)).missed = 1 → yields (.markerRx lane marker ppm peak h1) s fun t => t.portState (lane.val /
    4) = psFault ∧ t.f F.PORTn_STATUS_REASON (lane.val / 4) = 2 ∧ t.b F.LANEn_EVENT_AM_LOST (lane.val + 4) = true) ∧
  (∀ (s : State) (lane : Fin 28) (symbols : List Nat), s.on iLINK = true → missionState (s.portState (lane.val / 4)) =
    true → s.link.lanes.length = 32 → yields (.codewordRx lane symbols) s fun t => t.f F.LANEn_FEC_SYMERR (lane.val +
    4) = min (s.f F.LANEn_FEC_SYMERR (lane.val + 4) + ((rsDecode (s.rxWord (lane.val / 4) (lane.val + 4)
    symbols)).elim 0 fun d => d.1)) (2 ^ 32 - 1) ∧ t.f F.LANEn_FEC_CORR (lane.val + 4) = min (s.f F.LANEn_FEC_CORR
    (lane.val + 4) + ((rsDecode (s.rxWord (lane.val / 4) (lane.val + 4) symbols)).elim 0 fun d => min d.1 1)) (2 ^ 32
    - 1) ∧ t.f F.LANEn_FEC_UNCORR (lane.val + 4) = min (s.f F.LANEn_FEC_UNCORR (lane.val + 4) + ((rsDecode (s.rxWord
    (lane.val / 4) (lane.val + 4) symbols)).elim 1 fun _ => 0)) (2 ^ 32 - 1)) ∧
  (∀ (s : State) (lane : Fin 28) (symbols : List Nat), s.on iLINK = true → s.portLink (lane.val / 4) = true →
    s.link.lanes.length = 32 → 3 ≤ ((s.lane (lane.val + 4)).bad.filter fun x => decide ((s.lane (lane.val +
    4)).codewords < x + 1024)).length → yields (.codewordRx lane symbols) s fun t => (rsDecode (s.rxWord (lane.val /
    4) (lane.val + 4) symbols) = none → t.portState (lane.val / 4) = psFault ∧ t.f F.PORTn_STATUS_REASON (lane.val /
    4) = 3 ∧ t.b F.LANEn_EVENT_FEC_FAULT (lane.val + 4) = true) ∧ (rsDecode (s.rxWord (lane.val / 4) (lane.val + 4)
    symbols) ≠ none → t.portState (lane.val / 4) = s.portState (lane.val / 4))) ∧
  (∀ (s : State) (port : Fin 7) (run : List Bytes) (block : Bytes), s.on iLINK = true → missionState (s.portState
    port) = true → (deframe [] ((run.map fun b => ⟨true, b⟩) ++ [⟨false, block⟩])).contains .fragment = true → yields
    (.idleBlockRx port run block) s fun t => t.f F.PORTn_FRAGMENTS port = min (s.f F.PORTn_FRAGMENTS port + 1) (2 ^
    F.PORTn_FRAGMENTS.w - 1) ∧ t.portState port = s.portState port) ∧
  (∀ (s : State) (port : Fin 7), s.on iLINK = true → s.portState port = psFault → (s.port port).holdEnd ≤ s.time.aon →
    ((s.port port).autoRetrain = true ∨ (s.port port).armed = true) → s.inTest port = false → yields
    (.faultHoldoffExpire port) s fun t => t.portState port = psDetect) ∧
  (∀ (s : State) (port : Fin 7), s.on iLINK = true → s.portPowered port = true → s.portState port ≠ psDisabled →
    s.link.ports.length = 7 → yields (.portRetrain port) s fun t => t.portState port = psFault ∧ t.f
    F.PORTn_STATUS_REASON port = 5 ∧ (t.port port).armed = (s.portState port == psFault)) ∧
  (∀ (s : State) (port : Fin 7), s.pwr.up = true → s.portPowered port = true → yields (.portClear port) s fun t => t.f
    F.PORTn_RETRAINS port = 0 ∧ t.f F.PORTn_STOMPED port = 0 ∧ t.f F.PORTn_FRAGMENTS port = 0 ∧ t.f F.LANEn_FEC_CORR
    (4 + 4 * port.val) = 0 ∧ t.f F.LANEn_FEC_HIGH (7 + 4 * port.val) = 0) ∧
  (∀ (s : State) (lane : Fin 32) (gen chk loopback : Nat), s.lanePowered lane = true → 4 ≤ lane.val → s.portState
    ((lane.val - 4) / 4) ≠ psDisabled → s.f F.PORTn_CFG_RATE_MAX ((lane.val - 4) / 4) ≠ 2 → 0 < gen → gen < 7 → chk <
    7 → loopback < 3 → s.on iLINK = true → yields (.laneTestSelect lane gen chk loopback) s fun t => t.f
    F.LANEn_PRBS_GEN_PAT lane = gen ∧ t.f F.LANEn_PRBS_CHK_PAT lane = chk ∧ t.f F.LANEn_CTL_LOOPBACK lane = loopback ∧
    t.portState ((lane.val - 4) / 4) = psTest) ∧
  (∀ (s : State) (lane : Fin 32) (gen chk loopback : Nat), s.lanePowered lane = true → 4 ≤ lane.val → (gen = 3 ∨ gen =
    6) → chk < 7 → loopback < 3 → s.on iLINK = true → s.rateMax ((lane.val - 4) / 4) = 2 → yields (.laneTestSelect
    lane gen chk loopback) s fun t => t.b F.LANEn_EVENT_PAT_ERR lane = true ∧ t.f F.LANEn_PRBS_GEN_PAT lane = s.f
    F.LANEn_PRBS_GEN_PAT lane) ∧
  (∀ (s : State) (lane : Fin 32), s.lanePowered lane = true → s.on iLINK = true → yields (.prbsClear lane) s fun t =>
    t.f64 F.LANEn_PRBS_ERR_LO F.LANEn_PRBS_ERR_HI lane = 0 ∧ t.f64 F.LANEn_PRBS_BITS_LO F.LANEn_PRBS_BITS_HI lane = 0)
    ∧
  (∀ (s : State) (lane : Fin 32) (symbols : List Nat) (bits : List Bool), s.on iLINK = true → s.testing lane = true →
    s.f F.LANEn_CTL_LOOPBACK lane = 0 → s.f F.LANEn_PRBS_CHK_PAT lane ≠ 0 → s.link.lanes.length = 32 → bits = testBits
    (s.nrzLane lane) (isQ (s.f F.LANEn_PRBS_CHK_PAT lane)) (s.rxSymbols lane (s.nrzLane lane) symbols) → s.patOff lane
    (s.f F.LANEn_PRBS_CHK_PAT lane) = false → yields (.prbsCheckerLock lane symbols) s fun t => t.b
    F.LANEn_PRBS_CHK_LOCK lane = ((s.lane lane).check.bits (s.f F.LANEn_PRBS_CHK_PAT lane) (s.b F.LANEn_PRBS_CHK_INV
    lane) bits).lock ∧ t.f64 F.LANEn_PRBS_BITS_LO F.LANEn_PRBS_BITS_HI lane = min (s.f64 F.LANEn_PRBS_BITS_LO
    F.LANEn_PRBS_BITS_HI lane + ((s.lane lane).check.bits (s.f F.LANEn_PRBS_CHK_PAT lane) (s.b F.LANEn_PRBS_CHK_INV
    lane) bits).compared) (2 ^ 48 - 1) ∧ t.f64 F.LANEn_PRBS_ERR_LO F.LANEn_PRBS_ERR_HI lane = min (s.f64
    F.LANEn_PRBS_ERR_LO F.LANEn_PRBS_ERR_HI lane + ((s.lane lane).check.bits (s.f F.LANEn_PRBS_CHK_PAT lane) (s.b
    F.LANEn_PRBS_CHK_INV lane) bits).errors) (2 ^ 48 - 1)) ∧
  (∀ (s : State) (lane : Fin 32), s.on iLINK = true → s.lanePowered lane = true → s.f F.LANEn_INJ_MODE lane = 1 →
    s.link.lanes.length = 32 → (s.testing lane = true ∨ (4 ≤ lane.val ∧ s.portUp ((lane.val - 4) / 4) = true)) →
    yields (.injectGo lane) s fun t => (t.lane lane).inject = (s.lane lane).inject + 1 ∧ t.regs = s.regs) ∧
  (∀ (s : State) (lane : Fin 32), s.on iLINK = true → s.lanePowered lane = true → s.f F.LANEn_INJ_MODE lane = 2 →
    s.link.lanes.length = 32 → (s.testing lane = true ∨ (4 ≤ lane.val ∧ s.portUp ((lane.val - 4) / 4) = true)) →
    yields (.injectGo lane) s fun t => (t.lane lane).inject = (s.lane lane).inject + s.f F.LANEn_INJ_LEN lane ∧ t.regs
    = s.regs) ∧
  (∀ (s : State) (lane : Fin 32), s.on iLINK = true → s.lanePowered lane = true → s.f F.LANEn_INJ_MODE lane = 3 →
    s.link.lanes.length = 32 → (s.testing lane = true ∨ (4 ≤ lane.val ∧ s.portUp ((lane.val - 4) / 4) = true)) → 2 ^
    clampN 10 40 (s.f F.LANEn_INJ_EXP lane) ≤ (s.lane lane).symbols → yields (.injectRateTick lane) s fun t => (t.lane
    lane).injectAt = (s.lane lane).injectAt ++ [injectDelay - ((s.lane lane).symbols - 2 ^ clampN 10 40 (s.f
    F.LANEn_INJ_EXP lane))] ∧ (t.lane lane).inject = (s.lane lane).inject ∧ (t.lane lane).symbols = (s.lane
    lane).symbols - 2 ^ clampN 10 40 (s.f F.LANEn_INJ_EXP lane) ∧ t.regs = s.regs)

/-! ### Rings and redundancy (spec/04_ring_and_redundancy.md) -/

/-- On an open link a cell with the complement of its CRC is stomped and one with another CRC is bad, each counted and
taken no further (R118, R119); a bad header complement is counted (R117); a tile stores a good layer cell and its
window takes the tally (R124), a second copy is a duplicate (R125), and after GAP_WAIT the missing tallies are counted
as lost and delivery goes on (R127). -/
def Obligations.CellsAct : Prop :=
  (∀ (s : State) (port : Fin 7) (cell : Bytes), s.on iLINK = true → s.portUp port = true → cell.length = 512 →
    s.sealed port = false → cCheck cell = 2 ^ 64 - 1 - (crc64 (cell.take 504)).toNat → yields (.cellRx port cell) s
    fun t => t.f F.PORTn_STOMPED port = min (s.f F.PORTn_STOMPED port + 1) (2 ^ F.PORTn_STOMPED.w - 1) ∧ t.ring.wins =
    s.ring.wins ∧ t.comp = s.comp) ∧
  (∀ (s : State) (port : Fin 7) (cell : Bytes), s.on iLINK = true → s.portUp port = true → cell.length = 512 →
    s.sealed port = false → cCheck cell ≠ (crc64 (cell.take 504)).toNat → cCheck cell ≠ 2 ^ 64 - 1 - (crc64 (cell.take
    504)).toNat → yields (.cellRx port cell) s fun t => t.f F.RING_CRC_BAD = min (s.f F.RING_CRC_BAD + 1) (2 ^
    F.RING_CRC_BAD.w - 1) ∧ t.ring.wins = s.ring.wins ∧ t.comp = s.comp) ∧
  (∀ (s : State) (port : Fin 7) (cell : Bytes), s.on iLINK = true → s.portUp port = true → cell.length = 512 →
    s.sealed port = false → cCheck cell = (crc64 (cell.take 504)).toNat → cHeaderOk cell = false → yields (.cellRx
    port cell) s fun t => t.f F.RING_HDR_BAD = min (s.f F.RING_HDR_BAD + 1) (2 ^ F.RING_HDR_BAD.w - 1) ∧ t.ring.wins =
    s.ring.wins ∧ t.comp = s.comp) ∧
  (∀ (s : State) (port : Fin 7) (cell : Bytes), s.on iLINK = true → s.portUp port = true → s.isTile = true →
    cell.length = 512 → s.sealed port = false → cCheck cell = (crc64 (cell.take 504)).toNat → cHeaderOk cell = true →
    cVersion cell = 1 → cStream cell < 16 → s.ring.prefer = false → (s.win (cStream cell) 0).synced = false →
    s.comp.latched = none → s.comp.layers.length = 16 → (s.tlayer (cStream cell)).frames = [] → yields (.cellRx port
    cell) s fun t => (t.win (cStream cell) 0).high = cTally cell ∧ (t.win (cStream cell) 0).synced = true ∧ t.f
    F.STREAMs_HIGH (cStream cell) = cTally cell ∧ ((t.tlayer (cStream cell)).frames.map TFrame.cells) = [[(cAddr cell,
    cPlane cell, cCell cell, (cPayload cell).take (cLength cell))]]) ∧
  (∀ (s : State) (port : Fin 7) (cell : Bytes), s.on iLINK = true → s.portUp port = true → s.isTile = true →
    cell.length = 512 → s.sealed port = false → cCheck cell = (crc64 (cell.take 504)).toNat → cHeaderOk cell = true →
    cVersion cell = 1 → cStream cell < 16 → s.ring.prefer = false → (s.win (cStream cell) 0).synced = true → (s.win
    (cStream cell) 0).high = cTally cell → (s.win (cStream cell) 0).marks = [(cTally cell, cFilled cell, cCheck cell)]
    → cFilled cell = false → yields (.cellRx port cell) s fun t => t.f F.RING_DUP = min (s.f F.RING_DUP + 1) (2 ^
    F.RING_DUP.w - 1) ∧ t.comp = s.comp) ∧
  (∀ (s : State) (stream : Nat) (t0 t1 n : Nat) (c : Bytes), s.isTile = true → s.on iLINK = true → stream = 16 →
    (s.win stream 0).gapAt = some t0 → (s.win stream 0).waiting = [(n, t1, c)] → n = cTally c → cLast c = false →
    (s.win stream 0).next < 2 ^ 32 → n < 2 ^ 32 → t0 + usU (s.f F.RING_TIMING_GAP_WAIT) < s.time.clock → yields
    (.gapWaitExpire stream 0) s fun t => t.f F.RING_GAP_LOST = min (s.f F.RING_GAP_LOST + (n + 2 ^ 32 - (s.win stream
    0).next) % 2 ^ 32) (2 ^ F.RING_GAP_LOST.w - 1) ∧ (t.win stream 0).next = (n + 1) % 2 ^ 32)

/-- An enumeration begins a new generation from the first ring, a tile takes the index its ENUM gives (R130) and a
head records its REPORT; a wave that ends nowhere turns after 2.42 ms (R131); a late tile asks once a millisecond and
is assigned the lowest free hop of its ring (R132); a tile silent for more than 1 s leaves the wall (R133); WALL,
AUTHORITY and WINDOW_RESET act on a tile (R121, R126, R135). -/
def Obligations.WallActs : Prop :=
  (∀ (s : State) (r : Nat) (rest : List Nat), s.pwr.up = true → s.isBw = true → s.ringsUsed = r :: rest → yields
    (.ringEnumerate) s fun t => t.ring.gen = (s.ring.gen + 1) % 256 ∧ t.ring.wave = some (r, 0, s.time.aon) ∧
    t.ring.tiles.all (fun x => x.hop == 0) = true) ∧
  (∀ (s : State) (port : Fin 7) (body : Bytes), s.on iLINK = true → s.portUp port = true → linkOk 0x20 body = true →
    s.isTile = true → port.val = bits (le body 7 1) 0 1 → s.ring.enumerated = false → le body 3 1 < 192 → le body 4 2
    + le body 3 1 < 1024 → le body 2 1 < 6 → yields (.enum port body) s fun t => t.f F.RING_TILE_STATUS_HOP = le body
    3 1 + 1 ∧ t.f F.RING_TILE_STATUS_RING = le body 2 1 ∧ t.ring.gen = le body 6 1 ∧ t.ring.enumerated = true ∧ t.b
    F.RING_TILE_STATUS_ENUMERATED = true) ∧
  (∀ (s : State) (r x : Nat), s.isBw = true → s.ring.wave = some (r, 0, x) → x + 2420000 < s.time.aon → yields
    (.enumWaveTimeout) s fun t => t.ring.wave = some (r, 1, s.time.aon)) ∧
  (∀ (s : State) (port : Fin 7) (payload : Bytes), s.isHead = true → s.on iLINK = true → s.portUp port = true →
    s.ring.wave = none → yields (.report port payload) s fun t => (t.ring.tiles.find? fun x => x.serial == le payload
    8 8).map (fun x => (x.ring, x.hop, x.present)) = some (le payload 2 1, le payload 3 1, true)) ∧
  (∀ (s : State), s.isTile = true → s.on iLINK = true → s.ring.late = true → s.ring.joinAt = none → yields
    (.joinRequestTimer) s fun t => t = (s.onRing fun r => { r with joinAt := some s.time.aon }).tileSend 35 0xFFFF
    (s.joinMsg 2 false)) ∧
  (∀ (s : State) (x : Nat), s.isTile = true → s.on iLINK = true → s.ring.late = true → s.ring.joinAt = some x → x +
    1000000 ≤ s.time.aon → yields (.joinRequestTimer) s fun t => t = (s.onRing fun r =>
    { r with joinAt := some s.time.aon }).tileSend 35 0xFFFF (s.joinMsg 2 false)) ∧
  (∀ (s : State) (port : Fin 7) (payload : Bytes), s.isBw = true → s.on iLINK = true → s.portUp port = true →
    s.ring.tiles = [] → s.ring.held = [] → s.ringPorts.contains port.val = true → port.val ≠ 6 → yields (.request port
    payload) s fun t => t.ring.tiles.map (fun x => (x.serial, x.ring, x.hop, x.excess)) = [(le payload 8 8, s.portRing
    port, 1, false)]) ∧
  (∀ (s : State) (payload : Bytes), s.on iLINK = true → s.isTile = true → le payload 8 8 = s.serial → le payload 1 1 <
    6 → 0 < le payload 2 1 → yields (.assign payload) s fun t => t.f F.RING_TILE_STATUS_HOP = le payload 2 1 ∧ t.f
    F.RING_TILE_STATUS_RING = le payload 1 1 ∧ t.ring.gen = le payload 3 1 ∧ t.b F.RING_TILE_STATUS_ENUMERATED = true)
    ∧
  (∀ (s : State) (serial : Nat) (x : TileRec), s.isBw = true → s.ring.tiles.find? (fun t => t.serial == serial &&
    t.present) = some x → x.lastHealth + 1000000000 < s.time.aon → yields (.tileHealthTimeout serial) s fun t =>
    (t.ring.tiles.any fun y => y.serial == serial && y.present) = false) ∧
  (∀ (s : State), s.isBw = true → s.on iLINK = true → yields (.wallTimer) s fun t => t = s.sendWall) ∧
  (∀ (s : State) (payload : Bytes), s.on iLINK = true → s.isTile = true → yields (.wall payload) s fun t =>
    t.ring.start = bitOf (le payload 1 1) 2 ∧ t.ring.prefer = bitOf (le payload 1 1) 1 ∧ t.ring.bwSerial = le payload
    8 8 ∧ t.b F.RING_TILE_STATUS_START = bitOf (le payload 1 1) 2) ∧
  (∀ (s : State) (payload : Bytes), s.on iLINK = true → s.isTile = true → yields (.authority payload) s fun t =>
    t.ring.bwSerial = le payload 8 8 ∧ t.f64 F.RING_BW_SERIAL_LO F.RING_BW_SERIAL_HI = le payload 8 8) ∧
  (∀ (s : State) (payload : Bytes), s.on iLINK = true → s.isTile = true → le payload 0 1 = 5 → yields (.windowReset
    payload) s fun t => t.ring.wins.all (fun w => !w.synced) = true ∧ t.regs = s.regs)

/-- HELLO is sent (R137); a head alone for 200 ms is elected and, of two, the one of lower priority value then lower
serial wins (R136, R137); a second bellwether that loses is demoted (R149); copies are released by their
acknowledgement or after 20 µs, and not before (R138); digests are sent, kept and compared (R141); a standby takes
over when HEAD_LOSS_TIME has passed without a HELLO, and not before (R145), a demoted head without a fault recovers
into RESYNC (R148) and becomes STANDBY once it is in step (R150); handback is set by hand or after a clean time
(R151); CLEAR zeroes the counters (R160). -/
def Obligations.HeadsAct : Prop :=
  (∀ (s : State), s.isHead = true → s.on iLINK = true → yields (.helloTimer) s fun t => t = s.sendHello [] ∧ t.regs =
    s.regs ∧ t.ring.live = s.ring.live) ∧
  (∀ (s : State) (port : Fin 7) (h : Hello), s.isHead = true → s.on iLINK = true → s.portUp port = true → s.f
    F.RING_STATUS_STATE = hsElecting → h.state ≠ hsBellwether → headWins s.prio s.serial h.prio h.serial = true →
    s.ring.verdict = none → s.ring.peerInc ≠ some h.incarnation → yields (.hello port h) s fun t => t.f
    F.RING_STATUS_STATE = hsBellwether ∧ t.ring.bwSerial = s.serial) ∧
  (∀ (s : State) (port : Fin 7) (h : Hello), s.isHead = true → s.on iLINK = true → s.portUp port = true → s.f
    F.RING_STATUS_STATE = hsElecting → (h.state = hsBellwether ∨ headWins s.prio s.serial h.prio h.serial = false) →
    s.ring.verdict = none → s.ring.peerInc ≠ some h.incarnation → yields (.hello port h) s fun t => t.f
    F.RING_STATUS_STATE = hsResync ∧ t.b F.RING_STATUS_PEER = true) ∧
  (∀ (s : State) (port : Fin 7) (h : Hello), s.isHead = true → s.on iLINK = true → s.portUp port = true → s.f
    F.RING_STATUS_STATE = hsBellwether → h.state = hsBellwether → headWins s.prio s.serial h.prio h.serial = false →
    s.ring.verdict = none → s.ring.peerInc ≠ some h.incarnation → yields (.hello port h) s fun t => t.f
    F.RING_STATUS_STATE = hsDemoted) ∧
  (∀ (s : State) (x : Nat), s.isHead = true → s.pwr.up = true → s.f F.RING_STATUS_STATE = hsElecting → s.ring.peer =
    none → s.ring.firstUp = some x → x + 200000000 < s.time.aon → yields (.electionTimeout) s fun t => t.f
    F.RING_STATUS_STATE = hsBellwether ∧ t.ring.bwSerial = s.serial) ∧
  (∀ (s : State) (tally : Nat), s.isBw = true → yields (.copyAckRx tally) s fun t => t.ring.copies =
    s.ring.copies.filter (fun c => cTally c.2 != tally % 2 ^ 32) ∧ t.regs = s.regs) ∧
  (∀ (s : State) (c : Nat × Bytes) (rest : List (Nat × Bytes)), s.ring.copies = c :: rest → c.1 + 20000 < s.time.aon →
    yields (.copyAckTimeout) s fun t => t.ring.copies = rest ∧ t.f F.RING_COPY_LATE = min (s.f F.RING_COPY_LATE + 1)
    (2 ^ F.RING_COPY_LATE.w - 1)) ∧
  (∀ (s : State) (c : Nat × Bytes) (rest : List (Nat × Bytes)), s.ring.copies = c :: rest → s.time.aon ≤ c.1 + 20000 →
    yields (.copyAckTimeout) s fun t => t = s) ∧
  (∀ (s : State) (stream : Fin 22) (frame : Nat) (d : SentCells), s.isHead = true → stream.val ≠ 17 →
    s.ring.sent.find? (fun d => d.stream == stream.val && d.frame == frame) = some d → (s.ring.peerDigests.find? fun b
    => b.stream == d.stream && b.frame == d.frame) = none → yields (.digestSend stream frame) s fun t =>
    t.ring.ownDigests.head? = some ⟨d.stream, d.frame, d.filled, d.cells.length, (crc64 (d.cells.flatMap
    Prod.snd)).toNat, s.time.clock⟩ ∧ (t.ring.sent.any fun x => x.stream == stream.val && x.frame == frame) = false) ∧
  (∀ (s : State) (stream : Fin 22) (frame : Nat), s.isHead = true → stream.val ≠ 17 → s.ring.sent.find? (fun d =>
    d.stream == stream.val && d.frame == frame) = none → (s.ring.ownDigests.any fun d => d.stream == stream.val &&
    d.frame == frame) = false → (s.ring.peerDigests.find? fun b => b.stream == stream.val && b.frame == frame) = none
    → yields (.digestSend stream frame) s fun t => t.ring.ownDigests.head? = some ⟨stream, frame, false, 0, (crc64
    []).toNat, s.time.clock⟩) ∧
  (∀ (s : State) (entry : Bytes), s.isHead = true → s.pwr.up = true → (s.ring.ownDigests.find? fun d => d.stream == le
    entry 0 1 && d.frame == le entry 4 4) = none → yields (.digestRx entry) s fun t => t.ring.peerDigests.head? = some
    (⟨le entry 0 1, le entry 4 4, bitOf (le entry 1 1) 0, le entry 8 4, le entry 16 8, s.time.clock⟩ : Digest) ∧
    t.regs = s.regs) ∧
  (∀ (s : State) (entry : Bytes) (a : Digest), s.isBw = true → s.pwr.up = true → (s.ring.ownDigests.find? fun d =>
    d.stream == le entry 0 1 && d.frame == le entry 4 4) = some a → s.ring.peer = none → s.ring.misruns = [] → a.at_ =
    s.time.clock → a.count ≠ 0 → le entry 8 4 ≠ 0 → a.filled = false → bitOf (le entry 1 1) 0 = false → a.sum ≠ le
    entry 16 8 → yields (.digestRx entry) s fun t => t.f F.RING_DIGEST_MISMATCH = min (s.f F.RING_DIGEST_MISMATCH + 1)
    (2 ^ F.RING_DIGEST_MISMATCH.w - 1) ∧ t.ring.misruns = [(a.stream, [a.frame])]) ∧
  (∀ (s : State), s.isHead = true → s.pwr.up = true → s.f F.RING_STATUS_STATE = hsStandby → s.ring.lastHello + 1000 *
    s.f F.RING_TIMING_HEAD_LOSS_TIME < s.time.aon → yields (.headLossTimeout) s fun t => t.f F.RING_STATUS_STATE =
    hsBellwether ∧ t.f F.RING_TAKEOVERS = min (s.f F.RING_TAKEOVERS + 1) (2 ^ F.RING_TAKEOVERS.w - 1) ∧
    t.ring.mirrorUp = false ∧ t.ring.peer = none) ∧
  (∀ (s : State), s.isHead = true → s.pwr.up = true → s.time.aon ≤ s.ring.lastDirect + 1000 * s.f
    F.RING_TIMING_HEAD_LOSS_TIME → s.time.aon ≤ s.ring.lastHello + 1000 * s.f F.RING_TIMING_HEAD_LOSS_TIME → yields
    (.headLossTimeout) s fun t => t = s) ∧
  (∀ (s : State), s.isHead = true → s.f F.RING_STATUS_STATE = hsDemoted → s.bist.lastFault = none → yields
    (.demotedRecover) s fun t => t.f F.RING_STATUS_STATE = hsResync ∧ t.ring.resyncPhase = 1) ∧
  (∀ (s : State), s.isHead = true → s.f F.RING_STATUS_STATE = hsResync → s.portUp 6 = true → 3 ≤ s.ring.resyncPhase →
    s.time.needStep = false → s.f F.TIME_ERR ≤ 100000 → s.b F.MEM_STATUS_PEER_MISMATCH = false → s.resyncFollowed =
    true → yields (.resyncComplete) s fun t => t.f F.RING_STATUS_STATE = hsStandby ∧ t.ring.resyncPhase = 0) ∧
  (∀ (s : State) (h : PeerHead), s.isBw = true → s.ring.peer = some h → headWins h.prio h.serial s.prio s.serial =
    true → h.clean = true → h.state = hsStandby → s.f F.RING_CFG_RETURN = 2 → s.ring.returned = true → yields
    (.handbackCleanElapsed) s fun t => t.b F.RING_STATUS_HANDBACK_PENDING = true ∧ t.ring.handbackDue = true) ∧
  (∀ (s : State) (h : PeerHead), s.pwr.up = true → s.isBw = true → s.ring.peer = some h → h.clean = true → h.state =
    hsStandby → yields (.ringHandover) s fun t => t.b F.RING_STATUS_HANDBACK_PENDING = true ∧ t.ring.handbackDue =
    true) ∧
  (∀ (s : State), s.pwr.up = true → yields (.ringClear) s fun t => t.f F.RING_CRC_BAD = 0 ∧ t.f F.RING_DUP = 0 ∧ t.f
    F.RING_GAP_LOST = 0 ∧ t.f F.RING_TAKEOVERS = 0 ∧ t.f F.RING_COPY_LATE = 0)

/-! ### Time (spec/05_time.md) -/

/-- CAPTURE latches seconds, nanoseconds and fraction (R166); RELOCK is a lock reset, after which a bellwether steps
again (R167, R170); TIME_SET steps the bellwether's clock while START is clear (R170, R175); PPS edges out of place
are rejected, the third good interval qualifies the reference, and 2.5 s without an edge lose it (R172, R175); alarms
arm, fire when due and not before, fire late and end their pulse when its width has passed, and not before (R164,
R188). -/
def Obligations.ClockCommandsAct : Prop :=
  (∀ (s : State), s.on iTIME = true → yields (.timeCapture) s fun t => t.f F.TIME_CAP_NS = s.nowNs % 10 ^ 9 ∧ t.f
    F.TIME_CAP_SEC_LO = s.nowNs / 10 ^ 9 % 2 ^ 32 ∧ t.time = s.time) ∧
  (∀ (s : State), s.on iTIME = true → s.isBw = false → yields (.timeRelock) s fun t => t.time.needStep = true ∧
    t.time.refOk = false ∧ t.f F.TIME_STATUS_STATE = tsAcquire ∧ t.time.pd.all (fun p => !p.valid) = true) ∧
  (∀ (s : State), s.on iTIME = true → s.isBw = true → s.f F.TIME_CFG_MODE = 0 → yields (.timeRelock) s fun t =>
    t.time.needStep = false ∧ t.time.tgen = (s.time.tgen + 1) % 256 ∧ t.b F.TIME_EVENT_STEPPED = true) ∧
  (∀ (s : State), s.on iTIME = true → yields (.timeClear) s fun t => t.f F.TIME_CELL_LOST = 0 ∧ t.f F.TIME_PD_TIMEOUT
    = 0 ∧ t.f F.TIME_PPS_REJECT = 0 ∧ t.f F.TIME_HELD = 0) ∧
  (∀ (s : State) (value : Nat), s.on iTIME = true → s.isBw = true → s.ring.start = false → (s.f F.TIME_CFG_MODE = 0 ∨
    s.time.refOk = false) → yields (.timeSetWrite value) s fun t => t.time.clock = secU (s.f F.TIME_SET_SEC_LO + 2 ^
    32 * (value % 2 ^ F.TIME_SET_SEC_HI.w)) ∧ t.time.needStep = false ∧ t.b F.TIME_EVENT_STEPPED = true) ∧
  (∀ (s : State) (rising : Bool) (l n : Nat), s.on iTIME = true → s.isHead = true → s.f F.TIME_CFG_MODE = 1 → rising =
    !(s.b F.TIME_CFG_PPS_EDGE) → s.time.ppsLast = some l → s.time.refOk = true → n = max 1 ((s.time.clock - l + msU
    500) / secU 1) → (s.time.clock - l + usU 10 < secU n ∨ secU n + usU 10 < s.time.clock - l) → yields (.ppsEdge
    rising) s fun t => t.f F.TIME_PPS_REJECT = min (s.f F.TIME_PPS_REJECT + 1) (2 ^ F.TIME_PPS_REJECT.w - 1) ∧ t.time
    = s.time) ∧
  (∀ (s : State) (rising : Bool) (l : Nat), s.on iTIME = true → s.isHead = true → s.f F.TIME_CFG_MODE = 1 → rising =
    !(s.b F.TIME_CFG_PPS_EDGE) → s.time.ppsLast = some l → s.time.refOk = false → s.time.ppsGood = 2 → s.isBw = false
    → secU 1 ≤ s.time.clock - l + usU 250 → s.time.clock - l ≤ secU 1 + usU 250 → yields (.ppsEdge rising) s fun t =>
    t.time.refOk = true ∧ t.time.ppsGood = 3 ∧ t.time.ppsLast = some s.time.clock) ∧
  (∀ (s : State) (l : Nat), s.on iTIME = true → s.isHead = true → s.f F.TIME_CFG_MODE = 1 → s.time.refOk = true →
    s.time.ppsLast = some l → l + msU 2500 < s.time.clock → yields (.ppsTimeout) s fun t => t.time.refOk = false ∧
    t.time.ppsLast = none ∧ t.time.ppsGood = 0 ∧ (s.isBw = true → s.time.needStep = false → t.f F.TIME_STATUS_SOURCE =
    0 ∧ t.b F.TIME_EVENT_REF_LOST = true)) ∧
  (∀ (s : State) (a : Fin 32), s.on iTIME = true → s.f F.TIME_ALARMa_CTL_MODE a = 0 → s.time.alarms.length = 32 →
    s.time.clock ≤ s.alarmTarget a → yields (.alarmArm a) s fun t => (t.alarm a).armed = true ∧ t.b
    F.TIME_ALARMa_CTL_ENABLE a = true ∧ t.b F.TIME_ALARMa_CTL_FIRED a = s.b F.TIME_ALARMa_CTL_FIRED a) ∧
  (∀ (s : State) (a : Fin 32), s.on iTIME = true → s.f F.TIME_ALARMa_CTL_MODE a = 0 → s.time.alarms.length = 32 →
    s.alarmTarget a < s.time.clock → yields (.alarmArm a) s fun t => t.b F.TIME_ALARMa_CTL_LATE a = true ∧ t.b
    F.TIME_ALARMa_CTL_FIRED a = true) ∧
  (∀ (s : State) (a : Fin 32) (x : Int), s.on iTIME = true → (s.alarm a).armed = true → s.alarmInstant a = some x →
    ((s.alarm a).since : Int) < x → yields (.alarmFire a) s fun t => t.b F.TIME_ALARMa_CTL_FIRED a = true ∧
    t.time.clock = s.time.clock) ∧
  (∀ (s : State) (a : Fin 32) (e : Nat), s.time.alarms.length = 32 → (s.alarm a).pulseEnd = some e → e ≤ s.time.clock
    → yields (.alarmPulseEnd a) s fun t => (t.alarm a).pulseEnd = none ∧ t.regs = s.regs) ∧
  (∀ (s : State) (a : Fin 32), (s.alarm a).armed = true → s.alarmDue a = false → yields (.alarmFire a) s fun t => t =
    s) ∧
  (∀ (s : State) (a : Fin 32) (e : Nat), (s.alarm a).pulseEnd = some e → s.time.clock < e → yields (.alarmPulseEnd a)
    s fun t => t = s)

/-- PDREQ, PDRESP and their time limit measure the peer delay (R178); time cells are sent with rising tallies and a
chain that says it is not valid is not followed (R168, R179, R180), and the first valid one after a lock reset steps a
tile's clock to the chain (R169); PTP measures its path, chooses its master and acts as grandmaster (R173, R174). -/
def Obligations.TimeDistributionActs : Prop :=
  (∀ (s : State) (port : Fin 7), s.on iLINK = true → s.portLink port = true → s.time.pd.length = 7 → yields
    (.pdelayTimer port) s fun t => (t.pdp port).seq = ((s.pdp port).seq + 1) % 2 ^ 16 ∧ (t.pdp port).t1 = some (s.ts48
    (s.sf F.TIME_PORTp_TXLAT port)) ∧ Out.link port 0x10 (linkBlock 0x10 [(2, 2, ((s.pdp port).seq + 1) % 2 ^ 16)]) ∈
    t.out) ∧
  (∀ (s : State) (port : Fin 7) (body : Bytes), s.on iLINK = true → s.portLink port = true → linkOk 0x10 body = true →
    yields (.pdreq port body) s fun t => t = s.emit (.link port 0x11 (linkBlock 0x11 [(2, 2, le body 2 2), (4, 6,
    s.ts48 (-s.sf F.TIME_PORTp_RXLAT port)), (10, 6, s.ts48 (s.sf F.TIME_PORTp_TXLAT port))]))) ∧
  (∀ (s : State) (port : Fin 7) (body : Bytes) (t1 : Nat), s.on iLINK = true → s.portLink port = true → linkOk 0x11
    body = true → s.time.pd.length = 7 → (s.pdp port).t1 = some t1 → le body 2 2 = (s.pdp port).seq → (s.pdp
    port).heldSamples = [] → (s.pdp port).hist = [] → s.pdExpired port t1 = false → yields (.pdresp port body) s fun t
    => (t.pdp port).t1 = none ∧ (t.pdp port).hist.length = 1 ∧ t.b F.TIME_PORTp_PDSTAT_VALID port = true) ∧
  (∀ (s : State) (port : Fin 7) (t1 : Nat), s.time.pd.length = 7 → (s.pdp port).t1 = some t1 → s.pdExpired port t1 =
    true → yields (.pdrespTimeout port) s fun t => (t.pdp port).t1 = none ∧ t.f F.TIME_PD_TIMEOUT = min (s.f
    F.TIME_PD_TIMEOUT + 1) (2 ^ F.TIME_PD_TIMEOUT.w - 1)) ∧
  (∀ (s : State) (port : Fin 7), s.on iTIME = true → s.on iLINK = true → s.portSends port = true → (port = 6 ∨
    s.ringPorts.contains port.val = true) → s.muted = false → s.time.pd.length = 7 → yields (.timeCellTimer port) s
    fun t => (t.pdp port).txTally = ((s.pdp port).txTally + 1) % 2 ^ 32 ∧ t.regs = s.regs ∧ t.out.length =
    s.out.length + 1) ∧
  (∀ (s : State) (port : Fin 7) (cell : Bytes), s.on iTIME = true → s.on iLINK = true → s.portUp port = true →
    s.sealed port = false → s.time.pd.length = 7 → cCheck cell = (crc64 (cell.take 504)).toNat → cHeaderOk cell = true
    → cVersion cell = 1 → cStream cell = 17 → bitOf (le (cPayload cell) 1 1) 0 = false → yields (.timeCellRx port
    cell) s fun t => (t.pdp port).rxLast = some (cTally cell) ∧ (t.pdp port).valid = false ∧ t.b
    F.TIME_PORTp_PDSTAT_CHAIN_VALID port = false) ∧
  (∀ (s : State) (cell : Bytes), s.on iTIME = true → s.on iLINK = true → s.portUp 0 = true → s.sealed 0 = false →
    s.isTile = true → s.b F.RING_TILE_STATUS_BW_EAST = false → s.time.pd.length = 7 → s.time.needStep = true → s.b
    F.TIME_PORTp_PDSTAT_VALID 0 = true → cCheck cell = (crc64 (cell.take 504)).toNat → cHeaderOk cell = true →
    cVersion cell = 1 → cStream cell = 17 → bitOf (le (cPayload cell) 1 1) 0 = true → le (cPayload cell) 2 1 =
    s.time.tgen → yields (.timeCellRx 0 cell) s fun t => t.time.needStep = false ∧ t.f F.TIME_STATUS_STATE = tsLocked
    ∧ t.time.clock = ((((le (cPayload cell) 16 6 * 10 ^ 9 + le (cPayload cell) 22 4) * 2 ^ 16 + le (cPayload cell) 26
    2 : Nat) + sgn 48 (le (cPayload cell) 28 6) + s.pdelay 0) * (27 * 2 ^ 16)).toNat) ∧
  (∀ (s : State) (m : PtpAnnounce) (q : Foreign), s.ptpOn = true → s.f F.TIME_CFG_MODE = 2 → s.time.ptp.foreign = [q]
    → q.id = m.master → q.count = 1 → m.best = true → m.cls < 256 → m.domain = s.f F.TIME_PTP_CFG_DOMAIN → yields
    (.ptpAnnounceRx m) s fun t => t.time.ptp.master = some m.master ∧ t.f F.TIME_PTP_STATUS_PORT_STATE = 9 ∧ t.f
    F.TIME_PTP_STATUS_GM_CLASS = m.cls) ∧
  (∀ (s : State) (q : Foreign), s.isHead = true → s.on iTIME = true → s.ptpOn = true → s.f F.TIME_CFG_MODE = 2 →
    s.time.ptp.foreign = [q] → q.last + s.announceLimit < s.time.aon → yields (.ptpAnnounceTimeout) s fun t =>
    t.time.ptp.master = none ∧ t.time.ptp.foreign = [] ∧ t.time.refOk = false ∧ t.f F.TIME_PTP_STATUS_PORT_STATE = 4)
    ∧
  (∀ (s : State) (m : PtpSync), s.ptpOn = true → s.f F.TIME_CFG_MODE = 2 → s.time.ptp.master = some m.master →
    s.time.refOk = false → m.domain = s.f F.TIME_PTP_CFG_DOMAIN → yields (.ptpSyncRx m) s fun t => t.time.refOk = true
    ∧ t.time.ptp.syncDelta = some ((m.origin : Int) + m.corr - s.ptpStamp false)) ∧
  (∀ (s : State), s.ptpOn = true → s.f F.TIME_CFG_MODE = 2 → yields (.ptpDelayReqTimer) s fun t => t.time.ptp.reqSeq =
    (s.time.ptp.reqSeq + 1) % 2 ^ 16 ∧ t.time.ptp.reqT = some (s.ts16 0) ∧ t.regs = s.regs) ∧
  (∀ (s : State) (seq rx t3 : Nat) (d : Int), s.ptpOn = true → seq = s.time.ptp.reqSeq → s.b F.TIME_PTP_CFG_DELAY =
    false → s.time.ptp.reqT = some t3 → s.time.ptp.syncDelta = some d → yields (.ptpDelayRespRx seq rx) s fun t =>
    t.time.ptp.reqT = none ∧ t.regs = (s.putS F.TIME_PTP_MEANPATH (toPs (roundDiv ((rx : Int) - t3 - d) 2))).regs) ∧
  (∀ (s : State) (seq t1 t2 t3 : Nat), s.ptpOn = true → seq = s.time.ptp.reqSeq → s.b F.TIME_PTP_CFG_DELAY = true →
    s.time.ptp.reqT = some t1 → yields (.ptpPdelayRespRx seq t2 t3) s fun t => t.time.ptp.reqT = none ∧ t.regs =
    (s.putS F.TIME_PTP_MEANPATH (toPs (roundDiv (((s.ts16 0 : Nat) : Int) - t1 - ((t3 : Int) - t2)) 2))).regs) ∧
  (∀ (s : State) (seq requester : Nat), s.ptpOn = true → s.b F.TIME_PTP_CFG_DELAY = true → yields (.ptpPdelayReqRx seq
    requester) s fun t => t = s.sendPtp 319 (mkMsg 32 [(0, 1, 3), (1, 1, s.f F.TIME_PTP_CFG_DOMAIN), (2, 2, seq), (14,
    8, requester), (22, 8, unsgn 64 ((s.ptpStamp true : Int) - (s.ptpStamp false : Nat)))])) ∧
  (∀ (s : State) (announce : Bool), s.ptpOn = true → s.f F.TIME_CFG_MODE = 1 → s.ptpParent = none → yields
    (.ptpMasterTxTimer announce) s fun t => t.f F.TIME_PTP_STATUS_PORT_STATE = 6 ∧ t.f F.TIME_PTP_STATUS_GM_CLASS =
    s.gmClass ∧ (if announce then t.time.ptp.annSeq = (s.time.ptp.annSeq + 1) % 2 ^ 16 else t.time.ptp.syncSeq =
    (s.time.ptp.syncSeq + 1) % 2 ^ 16))

/-! ### Source ingest (spec/02_ingest.md) -/

/-- DisplayPort trains, loses and asks by HPD and AUX, with the capabilities of R42 absent (R42 to R44); a source
frame that starts is the one being written by every layer fed, and one that had not completed is counted (R38); a
complete one of the layer's format and size is its newest candidate, an incomplete one stays as it is until the next
starts (R37, R38); a line written in cut-through goes into the frame being sent (R39); packets match flows and are
placed or are discarded on their port (R47, R48), memberships are reported again after 1 s, and RECEIVING lapses after
10 ms and not before (R50). -/
def Obligations.SourcesAct : Prop :=
  (∀ (s : State) (rx : Fin 4), s.on iDPRX = true → s.hpd rx = true → yields (.dprxHpdIrq rx) s fun t => t = s.emit
    (.dp rx [1])) ∧
  (∀ (s : State) (rx : Fin 4) (rate lanes : Nat), s.on iDPRX = true → s.hpd rx = true → rate ≤ s.f
    F.DPRXn_CTL_MAX_RATE rx → lanes ≤ s.f F.DPRXn_CTL_MAX_LANES rx → yields (.dpLinkTrained rx rate lanes) s fun t =>
    t.b F.DPRXn_STATUS_LINK_UP rx = true ∧ t.f F.DPRXn_STATUS_RATE rx = rate % 2 ^ F.DPRXn_STATUS_RATE.w ∧ t.f
    F.DPRXn_STATUS_LANES rx = lanes % 2 ^ F.DPRXn_STATUS_LANES.w) ∧
  (∀ (s : State) (rx : Fin 4), s.on iDPRX = true → s.b F.DPRXn_STATUS_LINK_UP rx = true → yields (.dpLinkLoss rx) s
    fun t => t.b F.DPRXn_STATUS_LINK_UP rx = false ∧ t.b F.DPRXn_STATUS_MSA_STABLE rx = false ∧ t.f F.DPRXn_LINKLOSS
    rx = min (s.f F.DPRXn_LINKLOSS rx + 1) (2 ^ F.DPRXn_LINKLOSS.w - 1)) ∧
  (∀ (s : State) (rx : Fin 4) (off len : Nat), s.on iDPRX = true → s.b F.DPRXn_CTL_ENABLE rx = true → s.b
    F.DPRXn_CTL_EDID_VALID rx = true → len = 1 → yields (.dprxAuxRequest rx (.edid off len)) s fun t => t = s.emit
    (.dp rx [BitVec.ofNat 8 (bits (s.f F.DPRXn_EDIDk rx (off % 256 / 4)) (8 * (off % 4)) 8)])) ∧
  (∀ (s : State) (rx : Fin 4) (addr len : Nat), s.on iDPRX = true → s.b F.DPRXn_CTL_ENABLE rx = true → yields
    (.dprxAuxRequest rx (.dpcd addr len)) s fun t => t = (s.emit (.dp rx (((freeBytes s.fresh len).zip (List.range
    len)).map fun p => if dpcdAbsent (addr + p.2) then 0 else p.1))).tickFresh) ∧
  (∀ (s : State) (src : Src) (id l : Nat), s.isHead = true → s.pwr.up = true → s.ingest.layers.length = 16 → l < 16 →
    (s.viewNow l).feeds src l = true → yields (.sourceFrameStart src id) s fun t => (t.ilayer l).inn.writing = some
    (s.startId src id) ∧ (t.ilayer l).inn.broken = false) ∧
  (∀ (s : State) (n : Fin 4) (f : SrcFrame) (l : Nat), s.isHead = true → s.pwr.up = true → s.ingest.layers.length = 16
    → l < 16 → (s.viewNow l).feeds (.fold n) l = true → (s.ilayer l).inn.writing = some f.id → (s.ilayer l).inn.broken
    = false → (s.viewNow l).convertible l f.fmt f.width f.height = true → f.lines.length = (lineOrder f.fmt
    f.height).length → yields (.sourceFrameComplete (.fold n) f) s fun t => (t.ilayer l).inn.done = ⟨f.id,
    s.time.clock, convertFrame f.fmt ((s.viewNow l).layerFmt l) f.width f.height f.lines, []⟩ :: (s.ilayer l).inn.done
    ∧ (t.ilayer l).inn.writing = none) ∧
  (∀ (s : State) (n : Fin 4) (f : SrcFrame) (l : Nat), s.isHead = true → s.pwr.up = true → s.ingest.layers.length = 16
    → l < 16 → (s.viewNow l).feeds (.fold n) l = true → (s.ilayer l).inn.broken = true → yields (.sourceFrameComplete
    (.fold n) f) s fun t => (t.ilayer l).inn = (s.ilayer l).inn) ∧
  (∀ (s : State) (src : Src) (id l : Nat), s.isHead = true → s.pwr.up = true → l < 16 → (s.viewNow l).feeds src l =
    true → (s.ilayer l).inn.writing.isSome = true → yields (.sourceFrameStart src id) s fun t => t.f
    F.LAYERn_INCOMPLETE l = min (s.f F.LAYERn_INCOMPLETE l + 1) (2 ^ F.LAYERn_INCOMPLETE.w - 1)) ∧
  (∀ (s : State) (n : Fin 4) (line : Nat) (planes : List Bytes) (l : Nat) (d : Sending), s.isHead = true → s.pwr.up =
    true → s.ingest.layers.length = 16 → l < 16 → (s.viewNow l).feeds (.dp n) l = true → (s.viewNow l).cutThrough l
    (s.ilayer l).ctOff = true → (s.ilayer l).sending = [d] → d.action = 2 → d.closed = false → (s.ilayer l).latched =
    some d.swap → s.time.clock ≤ d.start + d.span → planes.length = (linesAt (s.f F.DPRXn_STATUS_FORMAT n)
    line).length → (s.viewNow l).convertible l (s.f F.DPRXn_STATUS_FORMAT n) (s.f F.DPRXn_ACTIVE_WIDTH n) (s.f
    F.DPRXn_ACTIVE_HEIGHT n) = true → (s.ilayer l).next = [] → yields (.ctLineWritten (.dp n) line planes) s fun t =>
    (t.ilayer l).sending = [(convertLine (s.f F.DPRXn_STATUS_FORMAT n) ((s.viewNow l).layerFmt l) ((s.viewNow
    l).layerW l) line (((linesAt (s.f F.DPRXn_STATUS_FORMAT n) line).map Prod.snd).zip planes)).foldl Sending.write d]
    ∧ t.regs = s.regs) ∧
  (∀ (s : State) (p : Packet), s.isHead = true → s.on iETH = true → s.ingest.discards.length = 4 → p.port < s.ethPorts
    → (List.range 16).any (fun k => s.flowMatch k p) = false → yields (.st2110PacketRx p) s fun t => nth
    t.ingest.discards p.port 0 = min (nth s.ingest.discards p.port 0 + 1) (2 ^ 32 - 1) ∧ t.regs = s.regs) ∧
  (∀ (s : State) (p : Packet) (k : Nat), s.isHead = true → s.on iETH = true → s.ingest.flows.length = 16 → p.port <
    s.ethPorts → k < 16 → s.flowMatch k p = true → p.full = false → (s.flow k).stamp = some p.stamp → yields
    (.st2110PacketRx p) s fun t => t.flow k = ({ s.flow k with lastAt := some s.time.aon } : Flow).place (s.flowFmt k)
    (s.f F.STFLOWn_SIZE_WIDTH k) p ∧ t.b F.STFLOWn_STATUS_RECEIVING k = true) ∧
  (∀ (s : State) (flow : Fin 16), s.isHead = true → s.on iETH = true → s.ingest.flows.length = 16 → s.b
    F.STFLOWn_CTL_ENABLE flow = true → (s.flow flow).reports = 1 → (s.flow flow).joinedAt + 1000000000 ≤ s.time.aon →
    yields (.igmpReportTimer flow) s fun t => (t.flow flow).reports = 2 ∧ t.out = (s.igmp flow 1).out) ∧
  (∀ (s : State) (port : Fin 4) (k : Fin 16), s.isHead = true → s.on iETH = true → s.b F.STFLOWn_CTL_ENABLE k = true →
    s.f F.STFLOWn_CTL_PORT k = port.val → yields (.igmpQueryRx port none) s fun t => t.b F.STFLOWn_STATUS_JOINED k =
    true ∧ t.mem = s.mem) ∧
  (∀ (s : State) (flow : Fin 16) (a : Nat), (s.flow flow).lastAt = some a → a + 10000000 < s.time.aon → yields
    (.stflowReceivingLapse flow) s fun t => t.b F.STFLOWn_STATUS_RECEIVING flow = false) ∧
  (∀ (s : State) (flow : Fin 16) (a : Nat), (s.flow flow).lastAt = some a → s.time.aon ≤ a + 10000000 → yields
    (.stflowReceivingLapse flow) s fun t => t = s)

/-- At a latch point the frame of the layer is decided (R37), a still layer being sent from its committed address
(R36); its cells go out one by one when due, a cell that waited for its line first (R34, R39, R56); address and clip
writes are commits with a timestamp (R36, R55); a standby counts bad records, late ones and those of another
configuration and keeps the frame a record was for (R59, R60). -/
def Obligations.LayersAct : Prop :=
  (∀ (s v : State) (layer : Fin 16) (n : Nat), s.isHead = true → s.pwr.up = true → s.time.stepped = true →
    s.ingest.layers.length = 16 → s.latchView layer = some (n, v) → yields (.layerLatch layer) s fun t => ((t.ilayer
    layer).decAt (v.swapAt n)).latched = some (v.swapAt n)) ∧
  (∀ (s : State) (layer : Fin 16) (n : Nat), s.isBw = true → s.pwr.up = true → s.time.stepped = true →
    s.ingest.layers.length = 16 → s.b F.LAYERn_INGEST_ENABLE layer = true → s.f F.LAYERn_INGEST_KIND layer = 4 →
    (s.ilayer layer).next = [] → (s.ilayer layer).undecided = none → (s.ilayer layer).sending = [] → (s.ilayer
    layer).bound = true → (s.ilayer layer).before = [] → (s.latchView layer).map (·.1) = some n → yields (.layerLatch
    layer) s fun t => (t.ilayer layer).sending.map (fun d => (d.frame, d.action, d.next)) = [(n, 0, 0)] ∧ t.b
    F.LAYERn_ISTAT_SOURCE_OK layer = true) ∧
  (∀ (s : State) (layer : Fin 16) (d : Sending) (k : Nat) (body : Bytes), s.isHead = true → s.on iMEM = true → s.f
    F.RING_STATUS_STATE ≠ hsDemoted → s.ingest.layers.length = 16 → (s.ilayer layer).undecided = none → (s.ilayer
    layer).sending = [d] → d.closed = true → d.pick s.time.clock = some k → d.cell layer k = some (body, []) →
    (d.advance k).left = true → yields (.layerCellSend layer) s fun t => (t.ilayer layer).sending = [d.advance k] ∧
    t.regs = s.regs) ∧
  (∀ (s : State) (layer : Fin 16) (value : Nat), s.isHead = true → s.on iMEM = true → s.ingest.layers.length = 16 →
    value < 2 ^ 32 → s.stillOk (value / 4096 * 4096 + s.f F.LAYERn_ADDR_HI layer * 2 ^ 32) (s.layerFmt layer)
    (s.layerW layer) (s.layerH layer) = true → yields (.layerAddrCommit layer value) s fun t => (t.ilayer
    layer).addrCommits = (s.ilayer layer).addrCommits ++ [(s.time.clock, value / 4096 * 4096 + s.f F.LAYERn_ADDR_HI
    layer * 2 ^ 32)] ∧ t.f F.LAYERn_ADDR_LO layer = value / 4096) ∧
  (∀ (s : State) (layer : Fin 16) (value : Nat), s.isHead = true → s.on iMEM = true → s.ingest.layers.length = 16 →
    value < 2 ^ 14 → s.clipCheck layer value = 0 → yields (.layerClipWrite layer value) s fun t => (t.ilayer
    layer).clipCommits = (s.ilayer layer).clipCommits ++ [(s.time.clock, value)] ∧ t.f F.LAYERn_CLIP_CLIP_ID layer =
    value % 2 ^ 12 ∧ t.f F.LAYERn_CLIP_MODE layer = value / 2 ^ 12) ∧
  (∀ (s : State) (record : Bytes), s.isHead = true → s.pwr.up = true → (record.drop 32).take 28 ≠ complement
    (record.take 28) → yields (.faRecordRx record) s fun t => t.f F.FA_STATUS_FA_BAD = min (s.f F.FA_STATUS_FA_BAD +
    1) (2 ^ F.FA_STATUS_FA_BAD.w - 1) ∧ t.ingest = s.ingest) ∧
  (∀ (s : State) (record : Bytes), s.isHead = true → s.pwr.up = true → s.f F.RING_STATUS_STATE = hsStandby →
    s.ingest.layers.length = 16 → (record.drop 32).take 28 = complement (record.take 28) → yields (.faRecordRx record)
    s fun t => (t.ilayer (bits (le record 4 1) 0 4)).recordFor = some (s.frameView (bits (le record 4 1) 0 4) (le
    record 0 4)).1) ∧
  (∀ (s v : State) (record : Bytes) (n : Nat), s.isHead = true → s.pwr.up = true → s.f F.RING_STATUS_STATE = hsStandby
    → s.ingest.layers.length = 16 → (record.drop 32).take 28 = complement (record.take 28) → s.frameView (bits (le
    record 4 1) 0 4) (le record 0 4) = (n, v) → (s.ilayer (bits (le record 4 1) 0 4)).undecided = some n → v.sendAt
    (bits (le record 4 1) 0 4) n < s.time.clock → yields (.faRecordRx record) s fun t => t.f F.FA_STATUS_FA_LATE = min
    (s.f F.FA_STATUS_FA_LATE + 1) (2 ^ F.FA_STATUS_FA_LATE.w - 1) ∧ (t.ilayer (bits (le record 4 1) 0 4)).undecided =
    none) ∧
  (∀ (s v : State) (record : Bytes) (n : Nat), s.isHead = true → s.pwr.up = true → s.f F.RING_STATUS_STATE = hsStandby
    → s.ingest.layers.length = 16 → (record.drop 32).take 28 = complement (record.take 28) → s.frameView (bits (le
    record 4 1) 0 4) (le record 0 4) = (n, v) → s.time.clock ≤ v.sendAt (bits (le record 4 1) 0 4) n → le record 24 4
    ≠ s.ingest.configEpoch % 2 ^ 32 → yields (.faRecordRx record) s fun t => t.f F.FA_NOMATCH = min (s.f F.FA_NOMATCH
    + 1) (2 ^ F.FA_NOMATCH.w - 1) ∧ t.b F.LAYERn_ISTAT_SOURCE_OK (bits (le record 4 1) 0 4) = false)

/-! ### Lamp correction and Lamp Bus (spec/08_lamp_correction.md, spec/09_lamp_bus.md) -/

/-- At its instant, and not before, LSYNC advances LCNT, and its pad is compared at its end (R164, R312, R327); region
writes are fetched into the line buffer and sent in order, a pad mismatch is counted and the frame sent again (R319,
R320, R327); SWAP closes a slot that is ready (R321), and the push deadline, not before it has come, swaps a slot that
is ready and drops one that is not (R265); CLEAR zeroes the correction counters (R293). -/
def Obligations.LampSlotsAct : Prop :=
  (∀ (s : State), s.pwr.up = true → yields (.corrClear) s fun t => t.f F.CORR_ENTRY_FAULT = 0 ∧ t.f
    F.CORR_PROFILE_FAULT = 0 ∧ t.f F.CORR_POSE_LATE = 0 ∧ t.f F.CORR_FIRST_FAULT_INDEX = 0) ∧
  (∀ (s : State) (group : Fin 4), s.lampOn = true → s.lamp.groups.length = 4 → s.edgeDue group = true → yields
    (.lsyncEdge group) s fun t => t.f F.LAMP_GRPg_STATUS_LCNT group = (s.f F.LAMP_GRPg_STATUS_LCNT group + 1) % 2 ^ 16
    ∧ (t.lgroup group).lsync = true ∧ (t.lgroup group).edge = s.time.clock) ∧
  (∀ (s : State) (group : Fin 4) (mismatch : Bool), s.lampOn = true → s.lamp.groups.length = 4 → (s.lgroup
    group).lsync = true → mismatch = true → (s.lgroup group).edge + s.f F.LAMP_TIMING_LSYNC_WIDTH * 10 * nsU ≤
    s.time.clock → yields (.lsyncPulseEnd group mismatch) s fun t => (t.lgroup group).lsync = false ∧ t.b
    F.LAMP_GRPg_STATUS_LSYNC_FAULT group = true) ∧
  (∀ (s : State) (port : Fin 16) (f : LFrame), s.lampOn = true → s.lamp.ports.length = 16 → (s.lport port).queue = [f]
    → (s.lport port).sending = none → f.prio = 4 → f.inBuf = false → f.bytes.length ≤ 65536 → s.on iMEM = true →
    yields (.lineBufferFill port none) s fun t => (t.lport port).queue = [{ f with inBuf := true }] ∧ t.mem = s.mem) ∧
  (∀ (s : State) (port : Fin 16) (f : LFrame) (g w : Nat), s.lampOn = true → s.lamp.ports.length = 16 → (s.lport
    port).queue = [f] → f.prio = 4 → f.inBuf = false → s.on iMEM = true → yields (.lineBufferFill port (some (g, w)))
    s fun t => (t.lport port).queue = [] ∧ t.comp.dropped = true) ∧
  (∀ (s : State) (port : Fin 16) (f : LFrame), s.lampOn = true → s.lamp.ports.length = 16 → s.b
    F.LAMP_PORTp_CFG_ENABLE port = true → (s.lport port).sending = none → (s.lport port).next = some f → yields
    (.lampFrameStart port) s fun t => (t.lport port).sending = some f ∧ (t.lport port).queue = (s.lport
    port).queue.erase f ∧ t.regs = s.regs) ∧
  (∀ (s : State) (port : Fin 16) (f : LFrame), s.lampOn = true → s.lamp.ports.length = 16 → (s.lport port).sending =
    some f → yields (.lampFrameSent port false) s fun t => (t.lport port).sending = none ∧ (t.lport port).sent =
    (s.lport port).sent + 1 ∧ t.out = ((s.sendLine port f.bytes (f.bytes.length / 4) .eof).emit (.lamp port
    f.bytes)).out) ∧
  (∀ (s : State) (port : Fin 16) (f : LFrame), s.lampOn = true → s.lamp.ports.length = 16 → (s.lport port).sending =
    some f → f.tries = 0 → yields (.lampFrameSent port true) s fun t => (t.lport port).sending = some
    { f with tries := 1 } ∧ t.f F.LAMP_PORTp_PADERR port = min (s.f F.LAMP_PORTp_PADERR port + 1) (2 ^
    F.LAMP_PORTp_PADERR.w - 1)) ∧
  (∀ (s : State), s.lampOn = true → s.swapReady = true → s.pushGroups ≠ [] → s.time.clock + usU (s.f
    F.LAMP_TIMING_SWAP_LEAD) ≤ s.comp.slotAt → yields (.swap) s fun t => t.comp.closed = true ∧ t.lamp.swapSent = true
    ∧ t.f F.LAMP_SWAPS = min (s.f F.LAMP_SWAPS + 1) (2 ^ F.LAMP_SWAPS.w - 1)) ∧
  (∀ (s : State), s.lampOn = true → s.comp.closed = false → s.swapReady = false → s.comp.pastDeadline = false →
    s.deadlineDue = true → yields (.pushDeadline) s fun t => t.comp.closed = true ∧ t.comp.dropped = true ∧ t.f
    F.COMP_LATE = min (s.f F.COMP_LATE + 1) (2 ^ F.COMP_LATE.w - 1) ∧ t.b F.COMP_STATUS_LAST_LATE = true) ∧
  (∀ (s : State) (group : Fin 4), s.edgeDue group = false → yields (.lsyncEdge group) s fun t => t = s) ∧
  (∀ (s : State), s.lampOn = true → s.comp.closed = false → s.comp.pastDeadline = false → s.deadlineDue = true →
    s.swapReady = true → s.pushGroups ≠ [] → yields (.pushDeadline) s fun t => t.comp.closed = true ∧ t.lamp.swapSent
    = true ∧ t.f F.COMP_LATE = s.f F.COMP_LATE) ∧
  (∀ (s : State), s.deadlineDue = false → yields (.pushDeadline) s fun t => t = s)

/-- A group under a blanking condition is blanked (R324), and programmed before it shows again (R634); a timing hold
ends or turns black (R326); driver answers are kept, and a read without an answer in STATUS_TIMEOUT, not before it, is
counted (R328); the return lane is aligned (R299); refreshes make references invalid (R318), CLEAR zeroes the counters
(R334), and a diagnostic round reads, ends and probes (R330 to R332). -/
def Obligations.LampGroupsAct : Prop :=
  (∀ (s : State) (group : Fin 4), s.lampOn = true → s.lamp.groups.length = 4 → s.blankCond group = true → (s.lgroup
    group).blanked = false → yields (.blank group) s fun t => (t.lgroup group).blanked = true ∧ (t.lgroup
    group).programming = false) ∧
  (∀ (s : State) (group : Fin 4), s.lampOn = true → s.lamp.groups.length = 4 → s.lit group = true → (s.lgroup
    group).blanked = true → (s.lgroup group).programming = false → s.blankCond group = false → s.groupPorts group = []
    → yields (.driverProgram group) s fun t => (t.lgroup group).blanked = false ∧ (t.lgroup group).programming = false
    ∧ (t.lgroup group).refs = []) ∧
  (∀ (s : State) (group : Fin 4) (p : Nat), s.lampOn = true → s.lamp.groups.length = 4 → s.lamp.ports.length = 16 →
    (s.lport p).drivers.length = 64 → s.lit group = true → (s.lgroup group).blanked = true → (s.lgroup
    group).programming = false → s.blankCond group = false → s.groupPorts group = [p] → p < 16 → s.b
    F.LAMP_PORTp_STATUS_CHAIN_BROKEN p = false → s.b F.LAMP_PORTp_STATUS_MISMATCH p = false → yields (.driverProgram
    group) s fun t => (t.lgroup group).blanked = true ∧ (t.lgroup group).programming = true) ∧
  (∀ (s : State) (group : Fin 4) (first : Nat), s.lampOn = true → s.lamp.groups.length = 4 → (s.lgroup group).hold =
    some first → first + s.f F.LAMP_GRPg_CFG_HOLD group + 1 ≤ s.comp.latched.getD 0 → (s.lgroup group).ready = true →
    yields (.timingHoldResume group) s fun t => (t.lgroup group).hold = none ∧ (t.lgroup group).black = false ∧
    (t.lgroup group).refs = []) ∧
  (∀ (s : State) (group : Fin 4) (first : Nat), s.lampOn = true → s.lamp.groups.length = 4 → (s.lgroup group).hold =
    some first → (s.lgroup group).black = false → first + 4 ≤ s.time.frame → yields (.timingHoldBlack group) s fun t
    => (t.lgroup group).black = true ∧ (t.lgroup group).blanked = true ∧ t.b F.LAMP_GRPg_STATUS_BLACK group = true) ∧
  (∀ (s : State) (port : Fin 16) (codes : List Nat) (h a : Nat) (body : Bytes), s.lampOn = true → s.lamp.ports.length
    = 16 → (s.lport port).drivers.length = 64 → (s.lport port).asked = some (h, 0, a) → (s.lport port).phased = true →
    h < 64 → body.length = 32 → decodeLane codes = some (lampFrame 0x85 h 0 body) → yields (.statusResp port codes) s
    fun t => (t.lport port).asked = none ∧ (t.driver port h).answered = true ∧ (t.driver port h).unanswered = 0) ∧
  (∀ (s : State) (port : Fin 16) (h a : Nat), s.lampOn = true → s.lamp.ports.length = 16 → (s.lport
    port).drivers.length = 64 → (s.lport port).asked = some (h, 0, a) → h < 64 → a + s.f F.LAMP_TIMING_STATUS_TIMEOUT
    * 1000 < s.time.aon → yields (.statusReadTimeout port) s fun t => (t.lport port).asked = none ∧ (t.driver port
    h).unanswered = (s.driver port h).unanswered + 1 ∧ t.f F.LAMP_PORTp_TIMEOUTS port = min (s.f F.LAMP_PORTp_TIMEOUTS
    port + 1) (2 ^ F.LAMP_PORTp_TIMEOUTS.w - 1)) ∧
  (∀ (s : State) (port : Fin 16), s.lampOn = true → s.lamp.ports.length = 16 → s.b F.LAMP_PORTp_CFG_ENABLE port = true
    → yields (.returnLanePhaseAlign port) s fun t => (t.lport port).phased = true ∧ t.regs = s.regs) ∧
  (∀ (s : State), s.lampOn = true → s.f F.LAMP_REFRESH ≠ 0 → s.lamp.groups.length = 4 → s.time.frame % s.f
    F.LAMP_REFRESH = 0 → s.lamp.refreshed ≠ some s.time.frame → yields (.lampRefreshExpire) s fun t =>
    t.lamp.groups.all (fun g => g.refs == []) = true ∧ t.regs = s.regs) ∧
  (∀ (s : State), s.lampOn = true → s.lamp.groups.length = 4 → yields (.fullRefresh) s fun t => t.lamp.groups.all (fun
    g => g.refs == []) = true ∧ t.regs = s.regs) ∧
  (∀ (s : State), s.lampOn = true → yields (.lampClear) s fun t => t.f F.LAMP_SWAPS = 0 ∧ t.f F.LAMP_GRPg_HOLDS 3 = 0
    ∧ t.f F.LAMP_PORTp_PADERR 15 = 0 ∧ t.f F.LAMP_PORTp_TIMEOUTS 15 = 0 ∧ t.f F.LAMP_CRCr_MISMATCHES 15 = 0) ∧
  (∀ (s : State), s.lampOn = true → s.time.frame % s.diagPeriod = 0 → s.lamp.round ≠ some s.time.frame → yields
    (.diagRoundStart) s fun t => t.lamp.reading = true ∧ t.lamp.round = some s.time.frame ∧ t.lamp.pages = [] ∧
    t.lamp.overrun = false) ∧
  (∀ (s : State), s.lampOn = true → s.lamp.reading = true → (s.diagLeft = false ∨ s.lamp.round.getD 0 + s.diagPeriod /
    2 ≤ s.time.frame) → yields (.diagReadEnd) s fun t => t.lamp.reading = false ∧ t.lamp.probed = [] ∧ t.f
    F.LAMP_DIAG_FRAME = s.wf32) ∧
  (∀ (s : State) (p : Nat), s.lampOn = true → s.b F.LAMP_DIAG_CFG_PROBE_EN = true → s.lamp.overrun = false →
    s.lamp.reading = false → s.lamp.ports.length = 16 → s.lampPorts = [p] → s.portDrivers p = 1 → (s.driver p
    0).answered = true → (s.driver p 0).wrong = false → s.probeBits p 0 ≠ [] → s.minOn p 0 + 1000 ≤ s.f
    F.LAMP_GRPg_DARK (s.portGroup p) → s.probeDue = true → s.lamp.swapSent = true → s.comp.pastDeadline = false →
    s.pushes (s.portGroup p) = true → yields (.diagProbe) s fun t => (t.lport p).queue.map LFrame.prio = (s.lport
    p).queue.map LFrame.prio ++ [5] ∧ t.regs = s.regs) ∧
  (∀ (s : State) (port : Fin 16) (h page a : Nat), (s.lport port).asked = some (h, page, a) → s.time.aon ≤ a + s.f
    F.LAMP_TIMING_STATUS_TIMEOUT * 1000 → yields (.statusReadTimeout port) s fun t => t = s)

/-! ### Folds (spec/10_korty_model.md, spec/11_korty_instructions.md) -/

/-- Each arithmetic and logic instruction writes RD with its result, sets Z, N, C and V when its S bit is 1 and leaves
them otherwise, and the fold stands at the next instruction (R374, R375); CMP and CMPI set the flags alone; k0
discards a write (R345). With TV a signed overflow is the ARITH fault 10 and leaves RD and the flags (R375). The MOD
bits exist for the instructions of Table 11-2 alone: a load accepts no other word (R374). After CMP and CMPI the
branch conditions compare the operands (R375). -/
def Obligations.ArithmeticComputes : Prop :=
  (∀ (s : State) (fold : Fin 4) (w : Nat), runsAt s fold 0x01 w → (kTv w = false ∨ noFit ((reg s fold (kRs1 w)).toInt
    + (reg s fold (kRs2 w)).toInt) = false) → yields (.add fold) s fun t => aluDone s t fold w ((reg s fold (kRs1 w))
    + (reg s fold (kRs2 w))) (decide (4294967296 ≤ (reg s fold (kRs1 w)).toNat + (reg s fold (kRs2 w)).toNat)) (noFit
    ((reg s fold (kRs1 w)).toInt + (reg s fold (kRs2 w)).toInt))) ∧
  (∀ (s : State) (fold : Fin 4) (w : Nat), runsAt s fold 0x11 w → (kTv w = false ∨ noFit ((reg s fold (kRs1 w)).toInt
    + (BitVec.ofNat 32 (kImm w)).toInt) = false) → yields (.addi fold) s fun t => aluDone s t fold w ((reg s fold
    (kRs1 w)) + (BitVec.ofNat 32 (kImm w))) (decide (4294967296 ≤ (reg s fold (kRs1 w)).toNat + (BitVec.ofNat 32 (kImm
    w)).toNat)) (noFit ((reg s fold (kRs1 w)).toInt + (BitVec.ofNat 32 (kImm w)).toInt))) ∧
  (∀ (s : State) (fold : Fin 4) (w : Nat), runsAt s fold 0x02 w → (kTv w = false ∨ noFit ((reg s fold (kRs1 w)).toInt
    - (reg s fold (kRs2 w)).toInt) = false) → yields (.sub fold) s fun t => aluDone s t fold w ((reg s fold (kRs1 w))
    - (reg s fold (kRs2 w))) ((reg s fold (kRs1 w)).ult (reg s fold (kRs2 w))) (noFit ((reg s fold (kRs1 w)).toInt -
    (reg s fold (kRs2 w)).toInt))) ∧
  (∀ (s : State) (fold : Fin 4) (w : Nat), runsAt s fold 0x03 w → yields (.andR fold) s fun t => aluDone s t fold w
    ((reg s fold (kRs1 w)) &&& (reg s fold (kRs2 w))) (false) (false)) ∧
  (∀ (s : State) (fold : Fin 4) (w : Nat), runsAt s fold 0x13 w → yields (.andi fold) s fun t => aluDone s t fold w
    ((reg s fold (kRs1 w)) &&& (BitVec.ofNat 32 (kImm w))) (false) (false)) ∧
  (∀ (s : State) (fold : Fin 4) (w : Nat), runsAt s fold 0x04 w → yields (.orR fold) s fun t => aluDone s t fold w
    ((reg s fold (kRs1 w)) ||| (reg s fold (kRs2 w))) (false) (false)) ∧
  (∀ (s : State) (fold : Fin 4) (w : Nat), runsAt s fold 0x14 w → yields (.ori fold) s fun t => aluDone s t fold w
    ((reg s fold (kRs1 w)) ||| (BitVec.ofNat 32 (kImm w))) (false) (false)) ∧
  (∀ (s : State) (fold : Fin 4) (w : Nat), runsAt s fold 0x05 w → yields (.xorR fold) s fun t => aluDone s t fold w
    ((reg s fold (kRs1 w)) ^^^ (reg s fold (kRs2 w))) (false) (false)) ∧
  (∀ (s : State) (fold : Fin 4) (w : Nat), runsAt s fold 0x15 w → yields (.xori fold) s fun t => aluDone s t fold w
    ((reg s fold (kRs1 w)) ^^^ (BitVec.ofNat 32 (kImm w))) (false) (false)) ∧
  (∀ (s : State) (fold : Fin 4) (w : Nat), runsAt s fold 0x06 w → yields (.shl fold) s fun t => aluDone s t fold w
    ((reg s fold (kRs1 w)) <<< ((reg s fold (kRs2 w)).toNat % 32)) ((reg s fold (kRs2 w)).toNat % 32 != 0 && (reg s
    fold (kRs1 w)).getLsbD (32 - (reg s fold (kRs2 w)).toNat % 32)) (false)) ∧
  (∀ (s : State) (fold : Fin 4) (w : Nat), runsAt s fold 0x16 w → yields (.shli fold) s fun t => aluDone s t fold w
    ((reg s fold (kRs1 w)) <<< ((BitVec.ofNat 32 (kImm w)).toNat % 32)) ((BitVec.ofNat 32 (kImm w)).toNat % 32 != 0 &&
    (reg s fold (kRs1 w)).getLsbD (32 - (BitVec.ofNat 32 (kImm w)).toNat % 32)) (false)) ∧
  (∀ (s : State) (fold : Fin 4) (w : Nat), runsAt s fold 0x07 w → yields (.shr fold) s fun t => aluDone s t fold w
    ((reg s fold (kRs1 w)) >>> ((reg s fold (kRs2 w)).toNat % 32)) ((reg s fold (kRs2 w)).toNat % 32 != 0 && (reg s
    fold (kRs1 w)).getLsbD ((reg s fold (kRs2 w)).toNat % 32 - 1)) (false)) ∧
  (∀ (s : State) (fold : Fin 4) (w : Nat), runsAt s fold 0x17 w → yields (.shri fold) s fun t => aluDone s t fold w
    ((reg s fold (kRs1 w)) >>> ((BitVec.ofNat 32 (kImm w)).toNat % 32)) ((BitVec.ofNat 32 (kImm w)).toNat % 32 != 0 &&
    (reg s fold (kRs1 w)).getLsbD ((BitVec.ofNat 32 (kImm w)).toNat % 32 - 1)) (false)) ∧
  (∀ (s : State) (fold : Fin 4) (w : Nat), runsAt s fold 0x08 w → yields (.sar fold) s fun t => aluDone s t fold w
    ((reg s fold (kRs1 w)).sshiftRight ((reg s fold (kRs2 w)).toNat % 32)) ((reg s fold (kRs2 w)).toNat % 32 != 0 &&
    (reg s fold (kRs1 w)).getLsbD ((reg s fold (kRs2 w)).toNat % 32 - 1)) (false)) ∧
  (∀ (s : State) (fold : Fin 4) (w : Nat), runsAt s fold 0x18 w → yields (.sari fold) s fun t => aluDone s t fold w
    ((reg s fold (kRs1 w)).sshiftRight ((BitVec.ofNat 32 (kImm w)).toNat % 32)) ((BitVec.ofNat 32 (kImm w)).toNat % 32
    != 0 && (reg s fold (kRs1 w)).getLsbD ((BitVec.ofNat 32 (kImm w)).toNat % 32 - 1)) (false)) ∧
  (∀ (s : State) (fold : Fin 4) (w : Nat), runsAt s fold 0x09 w → yields (.mul fold) s fun t => aluDone s t fold w (if
    kHigh w then (if kU w then ((reg s fold (kRs1 w)).zeroExtend 64 * (reg s fold (kRs2 w)).zeroExtend 64).extractLsb
    63 32 else ((reg s fold (kRs1 w)).signExtend 64 * (reg s fold (kRs2 w)).signExtend 64).extractLsb 63 32) else (reg
    s fold (kRs1 w)) * (reg s fold (kRs2 w))) (false) (!kHigh w && (if kU w then decide (4294967296 ≤ (reg s fold
    (kRs1 w)).toNat * (reg s fold (kRs2 w)).toNat) else noFit ((reg s fold (kRs1 w)).toInt * (reg s fold (kRs2
    w)).toInt)))) ∧
  (∀ (s : State) (fold : Fin 4) (w : Nat), runsAt s fold 0x0A w → yields (.minR fold) s fun t => aluDone s t fold w
    (if (if kU w then (reg s fold (kRs2 w)).ult (reg s fold (kRs1 w)) else (reg s fold (kRs2 w)).slt (reg s fold (kRs1
    w))) then (reg s fold (kRs2 w)) else (reg s fold (kRs1 w))) (false) (false)) ∧
  (∀ (s : State) (fold : Fin 4) (w : Nat), runsAt s fold 0x0B w → yields (.maxR fold) s fun t => aluDone s t fold w
    (if (if kU w then (reg s fold (kRs1 w)).ult (reg s fold (kRs2 w)) else (reg s fold (kRs1 w)).slt (reg s fold (kRs2
    w))) then (reg s fold (kRs2 w)) else (reg s fold (kRs1 w))) (false) (false)) ∧
  (∀ (s : State) (fold : Fin 4) (w : Nat), runsAt s fold 0x0C w → yields (.cmp fold) s fun t => nzcv t fold = (reg s
    fold (kRs1 w) == reg s fold (kRs2 w), (reg s fold (kRs1 w) - reg s fold (kRs2 w)).msb, (reg s fold (kRs1 w)).ult
    (reg s fold (kRs2 w)), noFit ((reg s fold (kRs1 w)).toInt - (reg s fold (kRs2 w)).toInt)) ∧ (t.fold fold).k =
    (s.fold fold).k ∧ wentOn s t fold ∧ [10, 11, 6, 7, 14, 15, 13, 12].map (t.fold fold).cond = [(reg s fold (kRs2
    w)).ult (reg s fold (kRs1 w)), (reg s fold (kRs1 w)).ule (reg s fold (kRs2 w)), (reg s fold (kRs1 w)).ult (reg s
    fold (kRs2 w)), (reg s fold (kRs2 w)).ule (reg s fold (kRs1 w)), (reg s fold (kRs2 w)).slt (reg s fold (kRs1 w)),
    (reg s fold (kRs1 w)).sle (reg s fold (kRs2 w)), (reg s fold (kRs1 w)).slt (reg s fold (kRs2 w)), (reg s fold
    (kRs2 w)).sle (reg s fold (kRs1 w))]) ∧
  (∀ (s : State) (fold : Fin 4) (w : Nat), runsAt s fold 0x1C w → yields (.cmpi fold) s fun t => nzcv t fold = (reg s
    fold (kRs1 w) == BitVec.ofNat 32 (kImm w), (reg s fold (kRs1 w) - BitVec.ofNat 32 (kImm w)).msb, (reg s fold (kRs1
    w)).ult (BitVec.ofNat 32 (kImm w)), noFit ((reg s fold (kRs1 w)).toInt - (BitVec.ofNat 32 (kImm w)).toInt)) ∧
    (t.fold fold).k = (s.fold fold).k ∧ wentOn s t fold ∧ [10, 11, 6, 7, 14, 15, 13, 12].map (t.fold fold).cond =
    [(BitVec.ofNat 32 (kImm w)).ult (reg s fold (kRs1 w)), (reg s fold (kRs1 w)).ule (BitVec.ofNat 32 (kImm w)), (reg
    s fold (kRs1 w)).ult (BitVec.ofNat 32 (kImm w)), (BitVec.ofNat 32 (kImm w)).ule (reg s fold (kRs1 w)),
    (BitVec.ofNat 32 (kImm w)).slt (reg s fold (kRs1 w)), (reg s fold (kRs1 w)).sle (BitVec.ofNat 32 (kImm w)), (reg s
    fold (kRs1 w)).slt (BitVec.ofNat 32 (kImm w)), (BitVec.ofNat 32 (kImm w)).sle (reg s fold (kRs1 w))]) ∧
  (∀ (s : State) (fold : Fin 4), runsAt s fold 0x00 0 → yields (.nop fold) s fun t => t = (s.onFold fold fun f =>
    { f with pc := f.pc + 1, steps := f.steps + 1 }).put F.FOLDn_STATUS_PC ((s.fold fold).pc + 1) fold) ∧
  (∀ (s : State) (fold : Fin 4) (w : Nat), standsAt s fold w → kOp w = 0x01 → kTv w = true → noFit ((reg s fold (kRs1
    w)).toInt + (reg s fold (kRs2 w)).toInt) = true → yields (.add fold) s fun t => faultedAt s t fold 10 (s.fold
    fold).pc ∧ (t.fold fold).k = (s.fold fold).k ∧ nzcv t fold = nzcv s fold) ∧
  (∀ (s : State) (fold : Fin 4) (w : Nat), standsAt s fold w → kOp w = 0x02 → kTv w = true → noFit ((reg s fold (kRs1
    w)).toInt - (reg s fold (kRs2 w)).toInt) = true → yields (.sub fold) s fun t => faultedAt s t fold 10 (s.fold
    fold).pc ∧ (t.fold fold).k = (s.fold fold).k ∧ nzcv t fold = nzcv s fold) ∧
  (∀ (s : State) (fold : Fin 4) (w : Nat), standsAt s fold w → kOp w = 0x11 → kTv w = true → noFit ((reg s fold (kRs1
    w)).toInt + (BitVec.ofNat 32 (kImm w)).toInt) = true → yields (.addi fold) s fun t => faultedAt s t fold 10
    (s.fold fold).pc ∧ (t.fold fold).k = (s.fold fold).k ∧ nzcv t fold = nzcv s fold) ∧
  (∀ (w : Nat), kortyOk w = true → kOp w ∈ [1, 2, 0x11] → kMod w < 4) ∧
  (∀ (w : Nat), kortyOk w = true → kOp w ∈ [3, 4, 5, 6, 7, 8, 0x13, 0x14, 0x15, 0x16, 0x17, 0x18] → kMod w < 2) ∧
  (∀ (w : Nat), kortyOk w = true → kOp w ∈ [9] → kMod w < 16 ∧ (kMod w).testBit 1 = false) ∧
  (∀ (w : Nat), kortyOk w = true → kOp w ∈ [0xA, 0xB] → kMod w < 8 ∧ (kMod w).testBit 1 = false) ∧
  (∀ (w : Nat), kortyOk w = true → kOp w ∈ [0xC, 0x1C] → kRd w = 0 ∧ kMod w = 0) ∧
  (∀ (w : Nat), kortyOk w = true → kOp w ∈ [0x16, 0x17, 0x18] → kImm w < 32)

/-- ENABLE, ACTIVATE, RESTART and STOP act on a fold at its next latch (R351, R352, R368), CLEAR zeroes its counters
(R368), a run that has ended with its pipeline empty is complete (R354), a pacing window counts the longer of the
throttle that held in it and the wait, once per 1,024 ns (R363), and WAITT and PAUSE end when their time has come,
WAITT not before (R387). -/
def Obligations.FoldControlActs : Prop :=
  (∀ (s : State) (fold : Fin 4), s.pwr.up = true → s.folds.length = 4 → s.foldBroken fold = false → s.foldState fold =
    0 → yields (.foldEnable fold true) s fun t => t.b F.FOLDn_CTL_ENABLE fold = true ∧ (t.fold fold).toRun = some
    ((s.fold fold).toRun.getD s.time.clock) ∧ t.foldState fold = 0) ∧
  (∀ (s : State) (fold : Fin 4), s.pwr.up = true → s.folds.length = 4 → s.foldBroken fold = false → yields
    (.foldEnable fold false) s fun t => t.b F.FOLDn_CTL_ENABLE fold = false ∧ (t.fold fold).toRun = none ∧ (if
    s.foldState fold = 1 then (t.fold fold).toStop = true ∧ t.foldState fold = 1 else t.foldState fold = 0)) ∧
  (∀ (s : State) (fold : Fin 4) (v : Bool), s.foldBroken fold = true → yields (.foldEnable fold v) s fun t => t = s) ∧
  (∀ (s : State) (fold : Fin 4), s.pwr.up = true → yields (.activate fold) s fun t => t.b
    F.FOLDn_STATUS_ACTIVATE_PENDING fold = true ∧ (t.fold fold).prog = (s.fold fold).prog) ∧
  (∀ (s : State) (fold : Fin 4), s.pwr.up = true → s.folds.length = 4 → (s.foldState fold = 2 ∨ s.foldState fold = 3)
    → yields (.restart fold) s fun t => t = s.onFold fold fun f =>
    { f with toRun := some (f.toRun.getD s.time.clock) }) ∧
  (∀ (s : State) (fold : Fin 4), s.pwr.up = true → s.folds.length = 4 → yields (.stop fold) s fun t => t = s.onFold
    fold fun f => { f with toHalt := true }) ∧
  (∀ (s : State) (fold : Fin 4), s.pwr.up = true → yields (.foldClear fold) s fun t => t.f F.FOLDn_RUNS fold = 0 ∧ t.f
    F.FOLDn_OVERRUNS fold = 0 ∧ t.f F.FOLDn_FAULTS fold = 0 ∧ t.f F.FOLDn_TRAPS fold = 0 ∧ t.f F.FOLDn_FAULT_CODE fold
    = 0 ∧ t.b F.FOLDn_STATUS_TX_DISCARD fold = false) ∧
  (∀ (s : State) (fold : Fin 4), s.pwr.up = true → s.folds.length = 4 → s.inRun fold = true → (s.fold fold).ended =
    true → (s.fold fold).queue = [] → yields (.foldRunComplete fold) s fun t => t.inRun fold = false ∧ (t.fold
    fold).complete = true ∧ (t.fold fold).faultRuns = 0 ∧ t.f F.FOLDn_STEPS fold = min (s.fold fold).steps 4294967295
    ∧ t.foldState fold = (if (s.fold fold).halt ∧ s.foldState fold = 1 then 2 else s.foldState fold)) ∧
  (∀ (s : State) (fold : Fin 4), s.pwr.up = true → s.folds.length = 4 → s.inRun fold = true → (s.fold fold).windows <
    s.time.aon / 1024 → (s.fold fold).winAt + 1024 ≤ s.time.aon → yields (.pacingWindow fold none) s fun t => (t.fold
    fold).idle = (s.fold fold).idle + max (64 * (16 - (s.fold fold).winDuty)) (min 1024 ((s.fold fold).winIdle +
    ((s.fold fold).waitFrom.map s.since).getD 0)) ∧ (t.fold fold).winIdle = 0 ∧ (t.fold fold).windows = s.time.aon /
    1024 ∧ (t.fold fold).winDuty = s.f F.FOLDn_PACE_DUTY fold) ∧
  (∀ (s : State) (fold : Fin 4), s.pwr.up = true → s.folds.length = 4 → s.inRun fold = true → s.f F.FOLDn_STATUS_WAIT
    fold = 3 → s.waitOver fold = true → yields (.waittExpire fold) s fun t => t.f F.FOLDn_STATUS_WAIT fold = 0 ∧
    (t.fold fold).until_ = none) ∧
  (∀ (s : State) (fold : Fin 4), s.pwr.up = true → s.folds.length = 4 → s.inRun fold = true → s.f F.FOLDn_STATUS_WAIT
    fold = 5 → s.waitOver fold = true → yields (.pauseEnd fold) s fun t => t.f F.FOLDn_STATUS_WAIT fold = 0 ∧ (t.fold
    fold).until_ = none) ∧
  (∀ (s : State) (fold : Fin 4), s.waitOver fold = false → yields (.waittExpire fold) s fun t => t = s) ∧
  (∀ (s : State) (fold : Fin 4), s.time.aon / 1024 ≤ (s.fold fold).windows → yields (.pacingWindow fold none) s fun t
    => t = s)

/-- GET reads a selector (R376), loads and stores move words between scratch and registers, through the shadow copies
while a transaction is open (R378, R388), TDONE and HALT end the stream (R354, R392) and TRAP reports its code (R367).
-/
def Obligations.ControlAndScratchInstructionsAct : Prop :=
  (∀ (s : State) (fold : Fin 4) (w : Nat), runsAt s fold 0x1D w → kImm w < 8 → yields (.get fold) s fun t => setsReg t
    fold (kRd w) (BitVec.ofNat 32 (s.getValue fold (kImm w))) ∧ wentOn s t fold) ∧
  (∀ (s : State) (fold : Fin 4) (w : Nat), runsAt s fold 0x1D w → kImm w = 1 → yields (.get fold) s fun t => setsReg t
    fold (kRd w) (if s.isHead then 1 else 0)) ∧
  (∀ (s : State) (fold : Fin 4) (w ea : Nat), runsAt s fold 0x40 w → ea = (reg s fold (kRs1 w) + BitVec.ofNat 32 (kImm
    w)).toNat → ea ≤ 0x3FFFC ∧ ea % 4 = 0 → s.wordPending fold [ea / 4] = false → (s.fold fold).tx = none → ea / 4 ∉
    (s.fold fold).scratchBad → yields (.ld fold) s fun t => setsReg t fold (kRd w) (BitVec.ofNat 32 ((s.fold
    fold).scratch.get (ea / 4))) ∧ wentOn s t fold) ∧
  (∀ (s : State) (fold : Fin 4) (w ea v : Nat) (x : FoldTx), runsAt s fold 0x40 w → ea = (reg s fold (kRs1 w) +
    BitVec.ofNat 32 (kImm w)).toNat → ea ≤ 0x3FFFC ∧ ea % 4 = 0 → s.wordPending fold [ea / 4] = false → (s.fold
    fold).tx = some x → x.stores.find? (fun e => e.1 == ea / 4) = some (ea / 4, v) → yields (.ld fold) s fun t =>
    setsReg t fold (kRd w) (BitVec.ofNat 32 v) ∧ wentOn s t fold) ∧
  (∀ (s : State) (fold : Fin 4) (w ea : Nat), runsAt s fold 0x41 w → ea = (reg s fold (kRs1 w) + BitVec.ofNat 32 (kImm
    w)).toNat → ea ≤ 0x3FFFC ∧ ea % 4 = 0 → s.wordPending fold [ea / 4] = false → (s.fold fold).tx = none → yields
    (.st fold) s fun t => (t.fold fold).scratch.get (ea / 4) = (reg s fold (kRd w)).toNat ∧ (∀ a : Nat, a ≠ ea / 4 →
    (t.fold fold).scratch.get a = (s.fold fold).scratch.get a) ∧ ea / 4 ∉ (t.fold fold).scratchBad ∧ wentOn s t fold)
    ∧
  (∀ (s : State) (fold : Fin 4) (w ea : Nat), runsAt s fold 0x41 w → ea = (reg s fold (kRs1 w) + BitVec.ofNat 32 (kImm
    w)).toNat → ea ≤ 0x3FFFC ∧ ea % 4 = 0 → s.wordPending fold [ea / 4] = false → (s.fold fold).tx.isSome = true →
    yields (.st fold) s fun t => (t.fold fold).scratch = (s.fold fold).scratch ∧ t.loadWord fold (ea / 4) = (reg s
    fold (kRd w)).toNat ∧ (t.fold fold).tx.map (·.count) = (s.fold fold).tx.map (·.count + 1) ∧ wentOn s t fold) ∧
  (∀ (s : State) (fold : Fin 4) (w ea x : Nat), runsAt s fold 0x42 w → ea = (reg s fold (kRs1 w) + BitVec.ofNat 32
    (kImm w)).toNat → ea ≤ 0x3FFF8 ∧ ea % 8 = 0 → s.wordPending fold [ea / 4, ea / 4 + 1] = false → s.loadBad fold (ea
    / 4) = false ∧ s.loadBad fold (ea / 4 + 1) = false → s.loadWord fold (ea / 4) = x ∧ x < 4294967296 → s.loadWord
    fold (ea / 4 + 1) = 4294967295 - x → yields (.ldc fold) s fun t => setsReg t fold (kRd w) (BitVec.ofNat 32 x) ∧
    wentOn s t fold) ∧
  (∀ (s : State) (fold : Fin 4) (w ea : Nat), runsAt s fold 0x43 w → ea = (reg s fold (kRs1 w) + BitVec.ofNat 32 (kImm
    w)).toNat → ea ≤ 0x3FFF8 ∧ ea % 8 = 0 → s.wordPending fold [ea / 4, ea / 4 + 1] = false → s.loadBad fold (ea / 4)
    = false ∧ s.loadBad fold (ea / 4 + 1) = false → yields (.qld fold) s fun t => t.qreg fold (kRd w % 16) =
    (s.loadWord fold (ea / 4) + 4294967296 * s.loadWord fold (ea / 4 + 1)) % 2 ^ 64 ∧ wentOn s t fold) ∧
  (∀ (s : State) (fold : Fin 4) (w ea : Nat), runsAt s fold 0x44 w → ea = (reg s fold (kRs1 w) + BitVec.ofNat 32 (kImm
    w)).toNat → ea ≤ 0x3FFF8 ∧ ea % 8 = 0 → s.wordPending fold [ea / 4, ea / 4 + 1] = false → (s.fold fold).tx = none
    → yields (.qst fold) s fun t => (t.fold fold).scratch.get (ea / 4) = s.qreg fold (kRd w % 16) % 4294967296 ∧
    (t.fold fold).scratch.get (ea / 4 + 1) = s.qreg fold (kRd w % 16) / 4294967296 ∧ (∀ a : Nat, a ≠ ea / 4 → a ≠ ea /
    4 + 1 → (t.fold fold).scratch.get a = (s.fold fold).scratch.get a) ∧ wentOn s t fold) ∧
  (∀ (s : State) (fold : Fin 4) (w : Nat), standsAt s fold w → kOp w = 0x7C → (s.fold fold).strips.all Option.isNone =
    true → yields (.tdone fold) s fun t => (t.fold fold).ended = true ∧ (t.fold fold).halt = false ∧ (t.fold
    fold).steps = (s.fold fold).steps + 1 ∧ t.inRun fold = true) ∧
  (∀ (s : State) (fold : Fin 4) (w : Nat), standsAt s fold w → kOp w = 0x7E → (s.fold fold).strips.all Option.isNone =
    true → yields (.halt fold) s fun t => (t.fold fold).ended = true ∧ (t.fold fold).halt = true ∧ (t.fold fold).steps
    = (s.fold fold).steps + 1 ∧ t.inRun fold = true) ∧
  (∀ (s : State) (fold : Fin 4) (w : Nat), runsAt s fold 0x7D w → w.testBit 32 = false → yields (.trap fold) s fun t
    => t.f F.FOLDn_TRAP_CODE fold = kImm w % 2 ^ F.FOLDn_TRAP_CODE.w ∧ t.f F.FOLDn_TRAPS fold = min (s.f F.FOLDn_TRAPS
    fold + 1) (2 ^ F.FOLDn_TRAPS.w - 1) ∧ wentOn s t fold)

/-- A parity error on the instruction (1), a sequential PC above 8,191 (2), a scratch address out of range or
misaligned (3), a parity error on a word read (4), LDC without the complement (5), a bad operand (7), TRAP with its
bit 32 (8) and a transaction fault (9) end the run with the code and the PC recorded (R365); an instruction waits for
a pipeline result it would read or overwrite (R360). -/
def Obligations.FoldFaults : Prop :=
  (∀ (s : State) (fold : Fin 4), s.folds.length = 4 ∧ s.pwr.up = true ∧ s.inRun fold = true ∧ (s.fold fold).ended =
    false ∧ s.f F.FOLDn_STATUS_WAIT fold = 0 → kOp ((s.fold fold).prog.get (s.fold fold).pc) = 0 → (s.fold fold).pc <
    8192 → (s.fold fold).pc ∈ (s.fold fold).progBad → yields (.nop fold) s fun t => faultedAt s t fold 1 (s.fold
    fold).pc) ∧
  (∀ (s : State) (fold : Fin 4) (w : Nat), standsAt s fold w → kOp w = 0 → (s.fold fold).pc = 8191 → yields (.nop
    fold) s fun t => t.f F.FOLDn_FAULT_CODE fold = 2 ∧ t.inRun fold = false) ∧
  (∀ (s : State) (fold : Fin 4) (w ea : Nat), standsAt s fold w → kOp w = 0x40 → ea = (reg s fold (kRs1 w) +
    BitVec.ofNat 32 (kImm w)).toNat → (0x3FFFC < ea ∨ ea % 4 ≠ 0) → yields (.ld fold) s fun t => faultedAt s t fold 3
    (s.fold fold).pc) ∧
  (∀ (s : State) (fold : Fin 4) (w ea : Nat), standsAt s fold w → kOp w = 0x41 → ea = (reg s fold (kRs1 w) +
    BitVec.ofNat 32 (kImm w)).toNat → (0x3FFFC < ea ∨ ea % 4 ≠ 0) → yields (.st fold) s fun t => faultedAt s t fold 3
    (s.fold fold).pc ∧ (t.fold fold).scratch = (s.fold fold).scratch) ∧
  (∀ (s : State) (fold : Fin 4) (w ea : Nat), standsAt s fold w → kOp w = 0x44 → ea = (reg s fold (kRs1 w) +
    BitVec.ofNat 32 (kImm w)).toNat → (0x3FFF8 < ea ∨ ea % 8 ≠ 0) → yields (.qst fold) s fun t => faultedAt s t fold 3
    (s.fold fold).pc ∧ (t.fold fold).scratch = (s.fold fold).scratch) ∧
  (∀ (s : State) (fold : Fin 4) (w ea : Nat), standsAt s fold w → kOp w = 0x40 → ea = (reg s fold (kRs1 w) +
    BitVec.ofNat 32 (kImm w)).toNat → ea ≤ 0x3FFFC ∧ ea % 4 = 0 → s.wordPending fold [ea / 4] = false → s.loadBad fold
    (ea / 4) = true → yields (.ld fold) s fun t => faultedAt s t fold 4 (s.fold fold).pc ∧ (t.fold fold).k = (s.fold
    fold).k) ∧
  (∀ (s : State) (fold : Fin 4) (w ea : Nat), standsAt s fold w → kOp w = 0x40 → ea = (reg s fold (kRs1 w) +
    BitVec.ofNat 32 (kImm w)).toNat → ea ≤ 0x3FFFC ∧ ea % 4 = 0 → s.wordPending fold [ea / 4] = true → yields (.ld
    fold) s fun t => t.f F.FOLDn_STATUS_WAIT fold = 2 ∧ (t.fold fold).pc = (s.fold fold).pc ∧ (t.fold fold).k =
    (s.fold fold).k) ∧
  (∀ (s : State) (fold : Fin 4) (w ea : Nat), standsAt s fold w → kOp w = 0x42 → ea = (reg s fold (kRs1 w) +
    BitVec.ofNat 32 (kImm w)).toNat → ea ≤ 0x3FFF8 ∧ ea % 8 = 0 → s.wordPending fold [ea / 4, ea / 4 + 1] = false →
    s.loadBad fold (ea / 4) = false ∧ s.loadBad fold (ea / 4 + 1) = false → s.loadWord fold (ea / 4) + s.loadWord fold
    (ea / 4 + 1) ≠ 4294967295 ∧ s.loadWord fold (ea / 4) < 4294967296 → yields (.ldc fold) s fun t => faultedAt s t
    fold 5 (s.fold fold).pc ∧ (t.fold fold).k = (s.fold fold).k) ∧
  (∀ (s : State) (fold : Fin 4) (w : Nat), standsAt s fold w → kOp w = 0x1D → 8 ≤ kImm w → yields (.get fold) s fun t
    => faultedAt s t fold 7 (s.fold fold).pc) ∧
  (∀ (s : State) (fold : Fin 4) (w : Nat), standsAt s fold w → kOp w = 0x7C → (s.fold fold).strips.any Option.isSome =
    true → yields (.tdone fold) s fun t => faultedAt s t fold 7 (s.fold fold).pc) ∧
  (∀ (s : State) (fold : Fin 4) (w : Nat), standsAt s fold w → kOp w = 0x70 → kImm w = 3 → yields (.kortyTxbegin fold)
    s fun t => faultedAt s t fold 7 (s.fold fold).pc) ∧
  (∀ (s : State) (fold : Fin 4) (w : Nat), standsAt s fold w → kOp w = 0x7D → w.testBit 32 = true → yields (.trap
    fold) s fun t => faultedAt s t fold 8 (s.fold fold).pc) ∧
  (∀ (s : State) (fold : Fin 4) (w : Nat), standsAt s fold w → kOp w = 0x70 → kImm w < 3 → ((s.fold fold).tx.isSome =
    true ∨ (s.fold fold).scheduled.isSome = true) → yields (.kortyTxbegin fold) s fun t => faultedAt s t fold 9
    (s.fold fold).pc) ∧
  (∀ (s : State) (fold : Fin 4) (w : Nat), standsAt s fold w → kOp w = 0x71 → (s.fold fold).tx = none → yields
    (.kortyTxend fold) s fun t => faultedAt s t fold 9 (s.fold fold).pc)

/-- A format B instruction branches when its condition of Table 10-3 holds on the flags; RD receives the index of the
next instruction in either case, the target is (RS1 + TARGET) mod 2^32, and a taken branch above 8,191 is a PC_RANGE
fault at the branch (R349). -/
def Obligations.BranchRule : Prop :=
  (∀ (s : State) (fold : Fin 4) (w : Nat), runsAt s fold 0x30 w → [true, false, (s.fold fold).z, !(s.fold fold).z,
    (s.fold fold).n, !(s.fold fold).n, (s.fold fold).c, !(s.fold fold).c, (s.fold fold).v, !(s.fold fold).v, !(s.fold
    fold).c && !(s.fold fold).z, (s.fold fold).c || (s.fold fold).z, (s.fold fold).n == (s.fold fold).v, (s.fold
    fold).n != (s.fold fold).v, !(s.fold fold).z && (s.fold fold).n == (s.fold fold).v, (s.fold fold).z || (s.fold
    fold).n != (s.fold fold).v].getD (kCond w) false = true → (reg s fold (kRs1 w) + BitVec.ofNat 32 (kTarget
    w)).toNat ≤ 8191 → yields (.br fold) s fun t => (t.fold fold).pc = (reg s fold (kRs1 w) + BitVec.ofNat 32 (kTarget
    w)).toNat ∧ setsReg t fold (kRd w) (BitVec.ofNat 32 ((s.fold fold).pc + 1)) ∧ nzcv t fold = nzcv s fold ∧ t.inRun
    fold = true) ∧
  (∀ (s : State) (fold : Fin 4) (w : Nat), runsAt s fold 0x30 w → [true, false, (s.fold fold).z, !(s.fold fold).z,
    (s.fold fold).n, !(s.fold fold).n, (s.fold fold).c, !(s.fold fold).c, (s.fold fold).v, !(s.fold fold).v, !(s.fold
    fold).c && !(s.fold fold).z, (s.fold fold).c || (s.fold fold).z, (s.fold fold).n == (s.fold fold).v, (s.fold
    fold).n != (s.fold fold).v, !(s.fold fold).z && (s.fold fold).n == (s.fold fold).v, (s.fold fold).z || (s.fold
    fold).n != (s.fold fold).v].getD (kCond w) false = false → yields (.br fold) s fun t => setsReg t fold (kRd w)
    (BitVec.ofNat 32 ((s.fold fold).pc + 1)) ∧ nzcv t fold = nzcv s fold ∧ wentOn s t fold) ∧
  (∀ (s : State) (fold : Fin 4) (w : Nat), standsAt s fold w → kOp w = 0x30 → [true, false, (s.fold fold).z, !(s.fold
    fold).z, (s.fold fold).n, !(s.fold fold).n, (s.fold fold).c, !(s.fold fold).c, (s.fold fold).v, !(s.fold fold).v,
    !(s.fold fold).c && !(s.fold fold).z, (s.fold fold).c || (s.fold fold).z, (s.fold fold).n == (s.fold fold).v,
    (s.fold fold).n != (s.fold fold).v, !(s.fold fold).z && (s.fold fold).n == (s.fold fold).v, (s.fold fold).z ||
    (s.fold fold).n != (s.fold fold).v].getD (kCond w) false = true → 8191 < (reg s fold (kRs1 w) + BitVec.ofNat 32
    (kTarget w)).toNat → yields (.br fold) s fun t => faultedAt s t fold 2 (s.fold fold).pc) ∧
  (∀ (s : State) (fold : Fin 4) (w : Nat), runsAt s fold 0x0C w → yields (.cmp fold) s fun t => (t.fold fold).c = (reg
    s fold (kRs1 w)).ult (reg s fold (kRs2 w)) ∧ (t.fold fold).cond 6 = (reg s fold (kRs1 w)).ult (reg s fold (kRs2
    w)) ∧ (t.fold fold).cond 7 = (reg s fold (kRs2 w)).ule (reg s fold (kRs1 w)))

/-- QSET joins two words, QGET takes one half, QISECT intersects and tells in Z whether the result is empty (R346,
R377); a load accepts no word of theirs with another field used (R377). -/
def Obligations.RectangleInstructions : Prop :=
  (∀ (s : State) (fold : Fin 4) (w : Nat), runsAt s fold 0x20 w → yields (.qset fold) s fun t => t.qreg fold (kQa w) =
    (reg s fold (kRs1 w)).toNat + (reg s fold (kRs2 w)).toNat * 4294967296 ∧ wentOn s t fold) ∧
  (∀ (s : State) (fold : Fin 4) (w : Nat), runsAt s fold 0x21 w → yields (.qget fold) s fun t => setsReg t fold (kRd
    w) (BitVec.ofNat 32 (if kStage w % 2 = 1 then s.qreg fold (kQb w) / 4294967296 else s.qreg fold (kQb w))) ∧ wentOn
    s t fold) ∧
  (∀ (s : State) (fold : Fin 4) (w ax0 ay0 ax1 ay1 bx0 by0 bx1 by1 : Nat), runsAt s fold 0x22 w → rectOf (s.qreg fold
    (kQa w)) = (ax0, ay0, ax1, ay1) → rectOf (s.qreg fold (kQb w)) = (bx0, by0, bx1, by1) → yields (.qisect fold) s
    fun t => rectOf (t.qreg fold (kQa w)) = (max ax0 bx0, max ay0 by0, min ax1 bx1, min ay1 by1) ∧ (t.fold fold).z =
    (decide (min ax1 bx1 ≤ max ax0 bx0) || decide (min ay1 by1 ≤ max ay0 by0)) ∧ wentOn s t fold) ∧
  (∀ (w : Nat), kortyOk w = true → kOp w = 0x20 → Nat.land w (31 * 2 ^ 51 + 15 * 2 ^ 33 + 8589934591) = 0) ∧
  (∀ (w : Nat), kortyOk w = true → kOp w = 0x21 → Nat.land w (1023 * 2 ^ 41 + 15 * 2 ^ 37 + 8589934590) = 0) ∧
  (∀ (w : Nat), kortyOk w = true → kOp w = 0x22 → Nat.land w (32767 * 2 ^ 41 + 8589934591) = 0)

/-- WAITT waits for an instant of the run and tells in Z whether it had passed, WAITH waits for another fold's flags
or tells in V that they can no longer come, SIGNAL sets flags at once when no pipeline work was issued before it and
in its place otherwise, PAUSE and YIELD wait (R361, R387). -/
def Obligations.FoldsSynchronise : Prop :=
  (∀ (s : State) (fold : Fin 4) (w : Nat), runsAt s fold 0x60 w → ((s.fold fold).start : Int) + (reg s fold (kRs1 w) +
    BitVec.ofNat 32 (kImm w)).toInt * (nsU : Nat) ≤ s.time.clock → yields (.waitt fold) s fun t => (t.fold fold).z =
    decide (((s.fold fold).start : Int) + (reg s fold (kRs1 w) + BitVec.ofNat 32 (kImm w)).toInt * (nsU : Nat) <
    s.time.clock) ∧ t.f F.FOLDn_STATUS_WAIT fold = 0 ∧ wentOn s t fold) ∧
  (∀ (s : State) (fold : Fin 4) (w : Nat), runsAt s fold 0x60 w → (s.time.clock : Int) < ((s.fold fold).start : Int) +
    (reg s fold (kRs1 w) + BitVec.ofNat 32 (kImm w)).toInt * (nsU : Nat) → yields (.waitt fold) s fun t => (t.fold
    fold).z = false ∧ t.f F.FOLDn_STATUS_WAIT fold = 3 ∧ ((t.fold fold).until_.map fun x => (x : Int)) = some
    (((s.fold fold).start : Int) + (reg s fold (kRs1 w) + BitVec.ofNat 32 (kImm w)).toInt * (nsU : Nat)) ∧ wentOn s t
    fold) ∧
  (∀ (s : State) (fold : Fin 4) (w m mask : Nat), runsAt s fold 0x61 w → m = kImm w % 4 ∧ mask = bits (kImm w) 8 8 →
    Nat.land (s.fold m).events mask = mask → yields (.waith fold) s fun t => (t.fold fold).v = false ∧ t.f
    F.FOLDn_STATUS_WAIT fold = 0 ∧ wentOn s t fold) ∧
  (∀ (s : State) (fold : Fin 4) (w m mask : Nat), runsAt s fold 0x61 w → m = kImm w % 4 ∧ mask = bits (kImm w) 8 8 →
    Nat.land (s.fold m).events mask ≠ mask → (s.inRun m = false ∨ (s.fold m).frame ≠ (s.fold fold).frame ∨ (s.fold
    m).slot ≠ (s.fold fold).slot) → yields (.waith fold) s fun t => (t.fold fold).v = true ∧ t.f F.FOLDn_STATUS_WAIT
    fold = 0 ∧ wentOn s t fold) ∧
  (∀ (s : State) (fold : Fin 4) (w m mask : Nat), runsAt s fold 0x61 w → m = kImm w % 4 ∧ mask = bits (kImm w) 8 8 →
    Nat.land (s.fold m).events mask ≠ mask → s.inRun m = true ∧ (s.fold m).frame = (s.fold fold).frame ∧ (s.fold
    m).slot = (s.fold fold).slot → yields (.waith fold) s fun t => t.f F.FOLDn_STATUS_WAIT fold = 4 ∧ (t.fold
    fold).waitFlags = some (m, mask) ∧ wentOn s t fold) ∧
  (∀ (s : State) (fold : Fin 4) (w : Nat), runsAt s fold 0x62 w → (s.fold fold).queue = [] → yields (.signal fold) s
    fun t => (t.fold fold).events = Nat.lor (s.fold fold).events (bits (kImm w) 0 8) ∧ wentOn s t fold) ∧
  (∀ (s : State) (fold : Fin 4) (w : Nat), runsAt s fold 0x62 w → (s.fold fold).queue ≠ [] → yields (.signal fold) s
    fun t => (t.fold fold).events = (s.fold fold).events ∧ (t.fold fold).queue.length = (s.fold fold).queue.length + 1
    ∧ (t.fold fold).incomplete = (s.fold fold).incomplete ∧ wentOn s t fold) ∧
  (∀ (s : State) (fold : Fin 4) (w ns : Nat), runsAt s fold 0x63 w → ns = bits (kImm w) 0 20 → yields (.pause fold) s
    fun t => (if ns = 0 then t.f F.FOLDn_STATUS_WAIT fold = 0 else t.f F.FOLDn_STATUS_WAIT fold = 5 ∧ (t.fold
    fold).until_ = some (s.time.clock + ns * nsU)) ∧ wentOn s t fold) ∧
  (∀ (s : State) (fold : Fin 4) (w k : Nat), runsAt s fold 0x64 w → k = bits (kImm w) 0 7 → yields (.yield fold) s fun
    t => (if (s.fold fold).incomplete ≤ k then t.f F.FOLDn_STATUS_WAIT fold = 0 else t.f F.FOLDn_STATUS_WAIT fold = 6
    ∧ (t.fold fold).yieldTo = some k) ∧ wentOn s t fold)

/-- TXBEGIN opens a transaction of the fold (R388); TXEND applies its stores at once for BOUNDARY 0 or schedules them,
with 0 in RD and Z = 1, or ends with a reason of Table 6-3, Z = 0 and nothing applied (R389); FLSTAGE adds the table
content its descriptor names to a flock in STAGING (R390); FLVOTE records the fold's vote or sets V (R391). -/
def Obligations.FoldTransactionsAct : Prop :=
  (∀ (s : State) (fold : Fin 4) (w : Nat), runsAt s fold 0x70 w → kImm w < 3 → (s.fold fold).tx = none ∧ (s.fold
    fold).scheduled = none → yields (.kortyTxbegin fold) s fun t => (t.fold fold).tx.map (fun x => (x.boundary,
    x.tepoch, x.stores, x.count)) = some (kImm w, s.f F.TIME_TEPOCH, [], 0) ∧ wentOn s t fold) ∧
  (∀ (s : State) (fold : Fin 4) (w d : Nat), runsAt s fold 0x70 w → kImm w = 2 → (s.fold fold).tx = none ∧ (s.fold
    fold).scheduled = none → d < 2147483648 → reg s fold (kRs1 w) = BitVec.ofNat 32 ((s.fold fold).frame + d) → yields
    (.kortyTxbegin fold) s fun t => (t.fold fold).tx.map (·.frame) = some ((s.fold fold).frame + d)) ∧
  (∀ (s : State) (fold : Fin 4) (w : Nat) (x : FoldTx), runsAt s fold 0x71 w → (s.fold fold).tx = some x → x.boundary
    = 0 → x.count ≤ 4096 → x.stores.all (fun e => !(s.heldScratch fold).contains e.1) = true → (x.stores.map
    (·.1)).Nodup → yields (.kortyTxend fold) s fun t => (t.fold fold).tx = none ∧ setsReg t fold (kRd w) 0 ∧ (t.fold
    fold).z = true ∧ (∀ e ∈ x.stores, (t.fold fold).scratch.get e.1 = e.2) ∧ wentOn s t fold) ∧
  (∀ (s : State) (fold : Fin 4) (w : Nat) (x : FoldTx), runsAt s fold 0x71 w → (s.fold fold).tx = some x → x.boundary
    = 1 → x.count ≤ 4096 → x.stores.all (fun e => !(s.heldScratch fold).contains e.1) = true → yields (.kortyTxend
    fold) s fun t => (t.fold fold).tx = none ∧ setsReg t fold (kRd w) 0 ∧ (t.fold fold).z = true ∧ (t.fold
    fold).scratch = (s.fold fold).scratch ∧ (t.fold fold).scheduled.map (·.stores) = some x.stores ∧ wentOn s t fold)
    ∧
  (∀ (s : State) (fold : Fin 4) (w : Nat) (x : FoldTx), runsAt s fold 0x71 w → (s.fold fold).tx = some x →
    x.stores.any (fun e => (s.heldScratch fold).contains e.1) = true → yields (.kortyTxend fold) s fun t => (t.fold
    fold).tx = none ∧ setsReg t fold (kRd w) 2 ∧ (t.fold fold).z = false ∧ (t.fold fold).scratch = (s.fold
    fold).scratch ∧ (t.fold fold).scheduled = (s.fold fold).scheduled ∧ wentOn s t fold) ∧
  (∀ (s : State) (fold : Fin 4) (w : Nat) (x : FoldTx), runsAt s fold 0x71 w → (s.fold fold).tx = some x →
    x.stores.all (fun e => !(s.heldScratch fold).contains e.1) = true → 4096 < x.count → yields (.kortyTxend fold) s
    fun t => (t.fold fold).tx = none ∧ setsReg t fold (kRd w) 1 ∧ (t.fold fold).z = false ∧ (t.fold fold).scratch =
    (s.fold fold).scratch ∧ wentOn s t fold) ∧
  (∀ (s : State) (fold : Fin 4) (w d id tab first cnt a size entries : Nat) (fl : Flock), runsAt s fold 0x72 w → d =
    (reg s fold (kRs2 w)).toNat ∧ d % 8 = 0 ∧ d + 16 ≤ 262144 → (s.fold fold).queue = [] ∧ (s.fold fold).scratchBad =
    [] → id = (reg s fold (kRs1 w)).toNat % 4096 → s.loadBytes fold d 16 = toLE 2 tab ++ [0, 0] ++ toLE 4 first ++
    toLE 2 cnt ++ [0, 0] ++ toLE 4 a → tab < 65536 ∧ first < 4294967296 ∧ cnt < 65536 ∧ a < 4294967296 → s.tableShape
    tab = some (size, entries) → a % size = 0 ∧ cnt * size ≤ 4096 ∧ a + cnt * size ≤ 262144 → s.flock id = some fl →
    fl.voted = false ∧ (fl.st = 1 ∨ fl.st = 2) → yields (.flstage fold) s fun t => t.flocks = (s.stage id (tableWrs
    tab first size (s.loadBytes fold a (cnt * size))) (if entries < first + cnt then 3 else wrsCheck (tableWrs tab
    first size (s.loadBytes fold a (cnt * size))))).flocks ∧ wentOn s t fold) ∧
  (∀ (s : State) (fold : Fin 4) (w id : Nat) (fl : Flock), runsAt s fold 0x73 w → id = (reg s fold (kRs1 w)).toNat %
    4096 → s.flock id = some fl → fl.voted = false ∧ (fl.st = 1 ∨ fl.st = 2) → yields (.flvote fold) s fun t =>
    (t.flock id).map (·.foldVotes) = some ((fold.val, kImm w % 2 == 0) :: fl.foldVotes.filter fun v => v.1 !=
    fold.val) ∧ (t.fold fold).v = false ∧ wentOn s t fold) ∧
  (∀ (s : State) (fold : Fin 4) (w : Nat), runsAt s fold 0x73 w → s.flock ((reg s fold (kRs1 w)).toNat % 4096) = none
    → yields (.flvote fold) s fun t => t.flocks = s.flocks ∧ (t.fold fold).v = true ∧ wentOn s t fold)

/-- On a tile CULL and PATGEN open a strip of a composed group whose rectangle meets R380, FETCH, SCALE, CSC, BLEND,
ANGLE, CORRECT and CRC follow in the order of R381, and PUSH closes it (R379); each is issued into the queue of 64
entries and the sequencer goes on (R360). On a head PATGEN writes a pattern for a layer bound to the fold (R386). The
oldest issued instruction completes: its record is written and a table of bad parity is a TABLE fault (R382). -/
def Obligations.PipelineInstructionsAct : Prop :=
  (∀ (s : State) (fold : Fin 4) (w k g : Nat) (p : PStrip), runsAt s fold 0x50 w → (s.fold fold).queue = [] → s.isHead
    = false → k = bits (kStage w) 0 2 ∧ g = bits (kStage w) 2 2 → p = (⟨g, bits (s.qreg fold (kQa w)) 0 16, bits
    (s.qreg fold (kQa w)) 16 16, bits (s.qreg fold (kQa w)) 32 16, bits (s.qreg fold (kQa w)) 48 16, (reg s fold (kRs2
    w)).toNat % 65536, (kStage w).testBit 4, false, none⟩ : PStrip) → nth (s.fold fold).strips k none = none →
    s.composed g = true → s.stripOk g (p.x0, p.y0, p.x1, p.y1) = true → (kRs1 w = 0 ∨ (reg s fold (kRs1 w)).toNat % 8
    = 0 ∧ (reg s fold (kRs1 w)).toNat + 8 ≤ 262144) → yields (.cull fold) s fun t => nth (t.fold fold).strips k none =
    some (0x50, p) ∧ (t.fold fold).queue = [(⟨0x50, p, if kRs1 w = 0 then none else some (reg s fold (kRs1 w)).toNat,
    0, false, 0, 0, (s.fold fold).pc⟩ : PItem)] ∧ wentOn s t fold) ∧
  (∀ (s : State) (fold : Fin 4) (w : Nat) (p : (Nat × List Nat × Bool) × Instr) (x : Nat × PStrip), p ∈ [((0x51,
    [0x50], false), .fetch fold), ((0x52, [0x51], false), .scale fold), ((0x53, [0x52], false), .csc fold), ((0x54,
    [0x53], false), .blend fold), ((0x55, [0x54, 0x59], true), .angle fold), ((0x56, [0x54, 0x59, 0x55], false),
    .correct fold), ((0x57, [0x56, 0x57], false), .crc fold)] → runsAt s fold p.1.1 w → (s.fold fold).queue.head?.all
    (fun i => i.op != 0x62 && (i.op != 0x58 || i.started)) = true → (s.fold fold).incomplete < 64 → s.isHead = false →
    nth (s.fold fold).strips (kStage w % 4) none = some x → x.1 ∈ p.1.2.1 → (kRs1 w = 0 ∨ (reg s fold (kRs1 w)).toNat
    % 8 = 0 ∧ (reg s fold (kRs1 w)).toNat + 8 ≤ 262144) → yields (p.2) s fun t => nth (t.fold fold).strips (kStage w %
    4) none = some (p.1.1, { x.2 with angle := p.1.2.2 || x.2.angle }) ∧ (t.fold fold).queue = (s.fold fold).queue ++
    [(⟨p.1.1, { x.2 with angle := p.1.2.2 || x.2.angle }, if kRs1 w = 0 then none else some (reg s fold (kRs1
    w)).toNat, if p.1.1 = 0x57 then bits (kStage w) 4 4 else 0, false, 0, 0, (s.fold fold).pc⟩ : PItem)] ∧ wentOn s t
    fold) ∧
  (∀ (s : State) (fold : Fin 4) (w : Nat) (x : Nat × PStrip), runsAt s fold 0x58 w → (s.fold fold).queue = [] →
    s.isHead = false → nth (s.fold fold).strips (kStage w % 4) none = some x → (x.1 = 0x56 ∨ x.1 = 0x57) → (kRs1 w = 0
    ∨ (reg s fold (kRs1 w)).toNat % 8 = 0 ∧ (reg s fold (kRs1 w)).toNat + 8 ≤ 262144) → yields (.push fold) s fun t =>
    nth (t.fold fold).strips (kStage w % 4) none = none ∧ (t.fold fold).queue.map (fun i => (i.op, i.strip, i.rec_,
    i.started)) = [(0x58, x.2, if kRs1 w = 0 then none else some (reg s fold (kRs1 w)).toNat, true)] ∧ wentOn s t
    fold) ∧
  (∀ (s : State) (fold : Fin 4) (w : Nat), standsAt s fold w → kOp w = 0x51 → (s.fold fold).incomplete < 64 → nth
    (s.fold fold).strips (kStage w % 4) none = none → yields (.fetch fold) s fun t => faultedAt s t fold 7 (s.fold
    fold).pc) ∧
  (∀ (s : State) (fold : Fin 4) (w : Nat), standsAt s fold w → kOp w = 0x52 → 64 ≤ (s.fold fold).incomplete → yields
    (.scale fold) s fun t => t.f F.FOLDn_STATUS_WAIT fold = 1 ∧ (t.fold fold).pc = (s.fold fold).pc ∧ (t.fold
    fold).queue = (s.fold fold).queue) ∧
  (∀ (s : State) (fold : Fin 4) (w d k g : Nat) (b : Bytes), runsAt s fold 0x59 w → (s.fold fold).queue = [] ∧ (s.fold
    fold).scratchBad = [] → s.isHead = false → k = bits (kStage w) 0 2 ∧ g = bits (kStage w) 2 2 ∧ bits (kStage w) 4 4
    ≤ 6 → d = (reg s fold (kRs2 w)).toNat ∧ d % 8 = 0 ∧ d + 16 ≤ 262144 → (b = (List.range 4).flatMap fun j => toLE 4
    ((s.fold fold).scratch.get (d / 4 + j))) → le b 12 2 ≤ 4096 → nth (s.fold fold).strips k none = none → s.composed
    g = true → s.stripOk g (rectOf (s.qreg fold (kQa w))) = true → yields (.patgen fold) s fun t => (nth (t.fold
    fold).strips k none).map (fun x => (x.1, x.2.pat)) = some (0x59, some (patOf (bits (kStage w) 4 4) b (rectOf
    (s.qreg fold (kQa w))))) ∧ (t.fold fold).queue.length = 1 ∧ wentOn s t fold) ∧
  (∀ (s : State) (fold : Fin 4) (w d l : Nat), runsAt s fold 0x59 w → (s.fold fold).queue = [] ∧ (s.fold
    fold).scratchBad = [] → s.isHead = true → l = bits (kStage w) 8 4 ∧ bits (kStage w) 4 4 ≤ 6 → d = (reg s fold
    (kRs2 w)).toNat ∧ d % 8 = 0 ∧ d + 16 ≤ 262144 → (s.fold fold).scratch.get (d / 4 + 3) % 65536 ≤ 4096 → s.b
    F.LAYERn_INGEST_ENABLE l = true ∧ s.f F.LAYERn_INGEST_KIND l = 5 ∧ s.f F.LAYERn_INGEST_INDEX l = fold.val → bits
    (s.qreg fold (kQa w)) 32 16 ≤ s.layerW l ∧ bits (s.qreg fold (kQa w)) 48 16 ≤ s.layerH l → yields (.patgen fold) s
    fun t => (t.fold fold).queue.map (fun i => (i.op, i.arg)) = [(0x59, l)] ∧ (t.fold fold).strips = (s.fold
    fold).strips ∧ wentOn s t fold) ∧
  (∀ (s : State) (fold : Fin 4) (i : PItem) (a : Nat), s.pwr.up = true → s.folds.length = 4 → s.inRun fold = true →
    s.f F.FOLDn_STATUS_WAIT fold = 0 → (s.fold fold).queue = [i] → i.op = 0x58 ∧ s.pushWaits fold = false → i.rec_ =
    some a → yields (.pipelineItemDone fold none) s fun t => (t.fold fold).queue = [] ∧ (t.fold fold).scratch.get (a /
    4 + 1) = i.queued ∧ (t.fold fold).scratch.get (a / 4) = i.dirty) ∧
  (∀ (s : State) (fold : Fin 4) (i : PItem), s.pwr.up = true → s.folds.length = 4 → s.inRun fold = true → s.f
    F.FOLDn_STATUS_WAIT fold = 0 → (s.fold fold).queue = [i] → i.op ∈ [0x52, 0x53, 0x54, 0x55] ∧ i.rec_ = none →
    s.badTable fold i = none → yields (.pipelineItemDone fold none) s fun t => t = s.onFold fold fun f =>
    { f with queue := [] }) ∧
  (∀ (s : State) (fold : Fin 4) (i : PItem), s.pwr.up = true → s.folds.length = 4 → s.inRun fold = true → s.f
    F.FOLDn_STATUS_WAIT fold ≠ 5 → (s.fold fold).queue = [i] → i.op ∈ [0x52, 0x53, 0x54, 0x55] → (s.badTable fold
    i).isSome = true → yields (.pipelineItemDone fold none) s fun t => t.f F.FOLDn_FAULT_CODE fold = 11 ∧ t.inRun fold
    = false ∧ t.b F.FOLDn_COMP_STATUS_TABLE_FAULT fold = true)

/-! ### Frame memory (spec/13_frame_memory.md) -/

/-- The scrubber reads granule after granule and counts its passes (R432); a corrected error is counted and waits for
its write-back, an uncorrectable one is counted and marks the granule (R431, R435); a channel grants the oldest
request of the highest class, raised by a younger request to the same granule (R442, R445), the scrubber's as class 5
while it is behind (R444); refreshes and tracking steps are counted (R449, R450); CLEAR zeroes the counters and
LOG_REARM the error log (R453). -/
def Obligations.MemoryActs : Prop :=
  (∀ (s : State), s.on iMEM = true → s.b F.MEM_CTL_SCRUB_EN = true ∧ s.b F.MEM_STATUS_TRAINED = true → s.memBad
    s.scrubPos 64 = false → s.scrubPos + 64 < s.capacity → yields (.scrubRead none) s fun t => t.scrubPos = s.scrubPos
    + 64 ∧ t.f F.MEM_SCRUB_PASSES = s.f F.MEM_SCRUB_PASSES ∧ t.f F.MEM_CE = s.f F.MEM_CE ∧ t.f F.MEM_UE = s.f
    F.MEM_UE) ∧
  (∀ (s : State), s.on iMEM = true → s.b F.MEM_CTL_SCRUB_EN = true ∧ s.b F.MEM_STATUS_TRAINED = true → s.memBad
    s.scrubPos 64 = false → s.capacity ≤ s.scrubPos + 64 → yields (.scrubRead none) s fun t => t.scrubPos = 0 ∧ t.f
    F.MEM_SCRUB_PASSES = min (s.f F.MEM_SCRUB_PASSES + 1) (2 ^ F.MEM_SCRUB_PASSES.w - 1)) ∧
  (∀ (s : State) (word : Nat), s.on iMEM = true → s.b F.MEM_CTL_SCRUB_EN = true ∧ s.b F.MEM_STATUS_TRAINED = true →
    s.memBad s.scrubPos 64 = false → yields (.scrubRead (some (false, word))) s fun t => t.f F.MEM_CE = min (s.f
    F.MEM_CE + 1) (2 ^ F.MEM_CE.w - 1) ∧ t.b F.MEM_STATUS_CE = true ∧ (∃ a ∈ t.mst.back, a / 64 = s.scrubPos / 64) ∧
    t.f F.MEM_UE = s.f F.MEM_UE) ∧
  (∀ (s : State) (word : Nat), s.on iMEM = true → s.b F.MEM_CTL_SCRUB_EN = true ∧ s.b F.MEM_STATUS_TRAINED = true →
    yields (.scrubRead (some (true, word))) s fun t => t.f F.MEM_UE = min (s.f F.MEM_UE + 1) (2 ^ F.MEM_UE.w - 1) ∧
    t.b F.MEM_STATUS_UE = true ∧ s.scrubPos / 64 * 64 + 8 * (word % 8) ∈ t.mst.bad ∧ (s.b F.MEM_ERR_INFO_VALID = false
    → t.f F.MEM_ERR_INFO_CLASS = 7 ∧ t.b F.MEM_ERR_INFO_KIND = true ∧ t.f F.MEM_ERR_INFO_WORD = word % 2 ^
    F.MEM_ERR_INFO_WORD.w)) ∧
  (∀ (s : State) (granule : Nat), s.on iMEM = true → yields (.correctedWriteback granule) s fun t => t = s.onMst fun m
    => { m with back := m.back.filter fun a => a / 64 != granule / 64 }) ∧
  (∀ (s : State) (ch : Fin 8) (r : MemReq), s.on iMEM = true → 1 ≤ r.cls ∧ r.cls ≤ 7 → (s.b F.MEM_STATUS_SCRUB_BEHIND
    = false ∨ r.cls < 7) → yields (.memGrant ch [r]) s fun t => t.f F.MEM_CLASSc_GRANTS (r.cls - 1) = min (s.f
    F.MEM_CLASSc_GRANTS (r.cls - 1) + 1) (2 ^ F.MEM_CLASSc_GRANTS.w - 1) ∧ t.f F.MEM_CLASSc_WAIT_MAX (r.cls - 1) = max
    (s.f F.MEM_CLASSc_WAIT_MAX (r.cls - 1)) (min r.wait 4294967295)) ∧
  (∀ (s : State) (ch : Fin 8) (a b : MemReq), s.on iMEM = true → s.mst.chans.length = 8 → (nth s.mst.chans ch
    {}).grants = 0 → 1 ≤ b.cls ∧ b.cls < a.cls ∧ a.cls ≤ 7 → a.granule ≠ b.granule → s.b F.MEM_STATUS_SCRUB_BEHIND =
    false → yields (.memGrant ch [a, b]) s fun t => t.f F.MEM_CLASSc_GRANTS (b.cls - 1) = min (s.f F.MEM_CLASSc_GRANTS
    (b.cls - 1) + 1) (2 ^ F.MEM_CLASSc_GRANTS.w - 1) ∧ t.f F.MEM_CLASSc_GRANTS (a.cls - 1) = s.f F.MEM_CLASSc_GRANTS
    (a.cls - 1)) ∧
  (∀ (s : State) (ch : Fin 8) (a b : MemReq), s.on iMEM = true → s.mst.chans.length = 8 → (nth s.mst.chans ch
    {}).grants = 0 → 1 ≤ b.cls ∧ b.cls < a.cls ∧ a.cls ≤ 7 → a.granule = b.granule → s.b F.MEM_STATUS_SCRUB_BEHIND =
    false → yields (.memGrant ch [a, b]) s fun t => t.f F.MEM_CLASSc_WAIT_MAX (b.cls - 1) = max (s.f
    F.MEM_CLASSc_WAIT_MAX (b.cls - 1)) (min a.wait 4294967295)) ∧
  (∀ (s : State) (ch : Fin 8) (r : MemReq), s.on iMEM = true → s.b F.MEM_STATUS_SCRUB_BEHIND = true → r.cls = 7 →
    yields (.memGrant ch [r]) s fun t => t.f F.MEM_CLASSc_GRANTS 4 = min (s.f F.MEM_CLASSc_GRANTS 4 + 1) (2 ^
    F.MEM_CLASSc_GRANTS.w - 1) ∧ t.f F.MEM_CLASSc_GRANTS 6 = s.f F.MEM_CLASSc_GRANTS 6) ∧
  (∀ (s : State) (ch : Fin 8), s.on iMEM = true → yields (.refreshDue ch) s fun t => t = s.onMst fun m =>
    { m with chans := modAt m.chans ch.val fun y => { y with refreshes := y.refreshes + 1 } }) ∧
  (∀ (s : State) (ch : Fin 8), s.on iMEM = true → s.b F.MEM_CHn_STATUS_TRAINED ch = true → yields (.memTrackTimer ch)
    s fun t => t.f F.MEM_CHn_TRACK ch = min (s.f F.MEM_CHn_TRACK ch + 2) (2 ^ F.MEM_CHn_TRACK.w - 1)) ∧
  (∀ (s : State), s.on iMEM = true → yields (.memClear) s fun t => t.f F.MEM_CE = 0 ∧ t.f F.MEM_UE = 0 ∧ t.f
    F.MEM_SCRUB_PASSES = 0 ∧ (∀ c ∈ List.range 7, t.f F.MEM_CLASSc_GRANTS c = 0 ∧ t.f F.MEM_CLASSc_WAIT_MAX c = 0) ∧
    (∀ c ∈ List.range 8, t.f F.MEM_CHn_CE c = 0 ∧ t.f F.MEM_CHn_UE c = 0 ∧ t.f F.MEM_CHn_TRACK c = 0)) ∧
  (∀ (s : State), s.on iMEM = true → yields (.logRearm) s fun t => t.b F.MEM_ERR_INFO_VALID = false ∧ t.f
    F.MEM_ERR_ADDR_LO = 0 ∧ t.f F.MEM_ERR_ADDR_HI = 0 ∧ t.f F.MEM_UE = s.f F.MEM_UE)

/-! ### Thermal model and calibration (spec/15_thermal_and_calibration.md) -/

/-- Samples make the boundary and a broken sensor forces it to 95 °C (R479, R480); an update advances the node
temperatures (R481); rates and dwells enter and leave the threshold states, 100 ms after their exit condition and not
before (R482 to R484); the controllers tick and set the duties (R485 to R487); a trip ends by the restart 30 s later,
and the third within an hour does not (R489) and CLEAR zeroes the counters (R499). -/
def Obligations.ThermalModelActs : Prop :=
  (∀ (s : State) (temp : Int), s.pwr.porN = true → s.f F.THERM_CFG_SENSOR_TYPE ≠ 2 → -1280 ≤ temp ∧ temp ≤ 9600 →
    s.therm.modelFail = false ∧ s.badMons = [] → yields (.sensorSample 0 temp) s fun t => t.therm.samples = (temp ::
    s.therm.samples).take 16 ∧ t.therm.nowBad = 0 ∧ t.b F.THERM_STATUS_SENSOR_FAULT = s.b F.THERM_STATUS_SENSOR_FAULT)
    ∧
  (∀ (s : State) (temp : Int), s.pwr.porN = true → s.f F.THERM_CFG_SENSOR_TYPE ≠ 2 → (temp < -1280 ∨ 9600 < temp) →
    yields (.sensorSample 0 temp) s fun t => t.therm.samples = s.therm.samples ∧ t.f F.THERM_STATUS_SENSOR_REASON = 3
    ∧ t.b F.THERM_STATUS_SENSOR_FAULT = true ∧ t.sf F.THERM_BOUNDARY = 95 * 64) ∧
  (∀ (s : State) (kind : Fin 3) (temp : Int), s.pwr.porN = true → s.f F.THERM_CFG_SENSOR_TYPE ≠ 2 → kind ≠ 0 → yields
    (.sensorSample kind temp) s fun t => t.therm.samples = s.therm.samples ∧ t.f F.THERM_STATUS_SENSOR_REASON =
    kind.val ∧ t.b F.THERM_STATUS_SENSOR_FAULT = true ∧ t.sf F.THERM_BOUNDARY = 95 * 64) ∧
  (∀ (s : State), s.b F.THERM_STATUS_SENSOR_FAULT = true → s.therm.nowBad = 0 → s.therm.lastBad + 1000000000 ≤
    s.time.aon → yields (.sensorFaultClear) s fun t => t.b F.THERM_STATUS_SENSOR_FAULT = false ∧ t.f
    F.THERM_STATUS_SENSOR_REASON = 0 ∧ t.b F.THERM_EVENT_SENSOR_FAULT_CLEARED = true) ∧
  (∀ (s : State) (power mv bad : List Nat), s.pwr.porN = true → s.therm.started = false → s.bounded = true → yields
    (.thermalModelUpdate power mv bad) s fun t => t.therm.started = true ∧ t.therm.temp = List.replicate 7 (s.boundary
    * 4294967296)) ∧
  (∀ (s : State) (power mv : List Nat) (r : Nat), s.pwr.porN = true → s.therm.started = true ∧ s.therm.monFail = [] →
    r < 6 → s.f F.THERM_MODEL_REGr_C r ≠ 0 ∧ s.f F.THERM_MODEL_REGr_THETA r ≠ 0 → yields (.thermalModelUpdate power mv
    []) s fun t => nth t.therm.temp r 0 = nth s.therm.temp r 0 + roundDiv (((if r < 4 then nth power r 0 else if r = 4
    then nth power 5 0 + nth power 6 0 else nth power 7 0 : Nat) : Int) * 274877906944 - roundDiv ((nth s.therm.temp r
    0 - nth s.therm.temp 6 0) * 1000000) (s.f F.THERM_MODEL_REGr_THETA r)) (s.f F.THERM_MODEL_REGr_C r * 100000)) ∧
  (∀ (s : State) (r : Nat), s.pwr.porN = true → r < 6 → yields (.rateEval) s fun t => nth t.therm.marks r [] = (s.est
    r :: nth s.therm.marks r []).take 51) ∧
  (∀ (s : State) (r : Nat) (x : Int), s.pwr.porN = true → r < 6 → s.therm.regions.length = 6 → 50 ≤ (nth s.therm.marks
    r []).length ∧ nth (nth s.therm.marks r []) 49 0 = x → 8 * 274877906944 < 20 * (s.est r - x) → yields (.rateEval)
    s fun t => (t.region r).rateThrottle = true ∧ t.b F.THERM_STATUS_THROTTLE = true ∧ t.b
    F.THERM_STATUS_RATE_THROTTLE = true) ∧
  (∀ (s : State) (region : Fin 6) (state : Fin 5), state ≠ 4 → s.therm.regions.length = 6 → (s.region region).inState
    state = true → s.dwelt (nth (s.region region).leaving state none) = true → yields (.thresholdDwellExpire region
    state) s fun t => (t.region region).inState state = false) ∧
  (∀ (s : State), s.dwelt s.therm.cooling = true → yields (.thresholdDwellExpire 5 4) s fun t => t.b
    F.MEM_STATUS_HOT_REFRESH = false ∧ t.therm.cooling = none) ∧
  (∀ (s : State) (region : Fin 6) (x : Nat), s.therm.regions.length = 6 → (s.region region).tick = some x → x ≤
    s.time.clock → yields (.throttleTick region) s fun t => (t.region region).c = (if (s.region region).throttling
    then (if (s.f F.THERM_LIMITS_THROTTLE : Int) * 274877906944 ≤ s.est region ∨ 8 * 274877906944 < s.rise region then
    max ((s.region region).c - 1) (s.f F.THERM_THROTTLE_DUTY_MIN) else (s.region region).c) else min ((s.region
    region).c + 1) 16) ∧ (t.region region).tick = (if (t.region region).c = 16 ∧ (s.region region).throttling = false
    then none else some (x + msU (max 1 (s.f F.THERM_THROTTLE_THR_STEP))))) ∧
  (∀ (s : State) (div : Fin 4) (n : Nat), s.pwr.up = true → n < 4 → yields (.throttleDivWrite div) s fun t => t.f
    F.THERM_THROTTLE_DIV_DIV = div.val ∧ t.f F.FOLDn_PACE_DUTY n = min (min (s.f F.THERM_THROTTLE_DUTY_CAP) (if div =
    0 then 16 else if div = 1 then 8 else 4)) (min (s.region n).c (min (s.region 4).c (s.region 5).c))) ∧
  (∀ (s : State), s.therm.hold = true → s.therm.tripAt + 30000000000 ≤ s.time.aon → (∀ r ∈ List.range 6, s.est r < 75
    * 274877906944) → s.tripsBefore s.therm.tripAt < 3 → (s.pwr.restartAt = none ∨ s.restartDue = true) → yields
    (.tripRestart) s fun t => t.therm.hold = false ∧ t.pwr.thermtripN = false) ∧
  (∀ (s : State), 3 ≤ s.tripsBefore s.therm.tripAt → yields (.tripRestart) s fun t => t = s) ∧
  (∀ (s : State), s.pwr.up = true → yields (.thermClear) s fun t => t.f F.THERM_WRITE_REFUSED = 0 ∧ t.f
    F.THERM_THROTTLED_MS = 0 ∧ ∀ r ∈ List.range 6, t.f F.THERM_REGr_PEAK r = 0) ∧
  (∀ (s : State) (region : Fin 6) (state : Fin 5), s.dwelt s.therm.cooling = false → s.dwelt (nth (s.region
    region).leaving state none) = false → yields (.thresholdDwellExpire region state) s fun t => t = s)

/-- The write window opens 100 ms after its conditions and not before, and a unit then runs; a request whose deferral
ends is refused and counted, not before; and a unit that ends programs or erases the flash or burns the OTP (R490,
R491); a calibration unit starts, is held while it runs, ramps, and reports PASS or FAIL (R493 to R495). -/
def Obligations.WritesAndCalibrationAct : Prop :=
  (∀ (s : State), s.b F.THERM_STATUS_WINDOW_OPEN = false → s.boot.unitOn = false → s.dwelt s.therm.opening = true →
    yields (.writeWindowOpen) s fun t => t.b F.THERM_STATUS_WINDOW_OPEN = true ∧ t.therm.opening = none ∧
    t.boot.unitOn = !s.boot.jobs.isEmpty) ∧
  (∀ (s : State) (j : Job) (a : Nat), s.boot.unitOn = false → s.boot.jobs = [j] → s.boot.deferredAt = some a → s.b
    F.THERM_STATUS_WINDOW_OPEN = false → a + s.f F.THERM_CFG_WRITE_DEFER * 10000000000 < s.time.aon → yields
    (.writeDeferExpire) s fun t => t.f F.THERM_WRITE_REFUSED = min (s.f F.THERM_WRITE_REFUSED + 1) (2 ^
    F.THERM_WRITE_REFUSED.w - 1) ∧ t.b F.THERM_EVENT_WRITE_REFUSED = true ∧ t.boot.jobs = [] ∧ t.boot.flash =
    s.boot.flash) ∧
  (∀ (s : State) (j : Job) (a : Nat) (b : Bytes) (us : List FlashUnit) (rest : List Job), s.boot.unitOn = true →
    s.boot.jobs = j :: rest → j.units = .program a b :: us → us ≠ [] → yields (.flashUnitDone true) s fun t =>
    t.flashRead a b.length = List.zipWith (fun x y => x &&& y) (s.flashRead a b.length) b ∧ t.boot.jobs =
    { j with units := us } :: rest) ∧
  (∀ (s : State) (j : Job) (a k : Nat) (us : List FlashUnit) (rest : List Job), s.boot.unitOn = true → s.boot.jobs = j
    :: rest → j.units = .erase a :: us → us ≠ [] → k < 4096 → yields (.flashUnitDone true) s fun t => t.flashRead (a +
    k) 1 = [255] ∧ t.boot.jobs = { j with units := us } :: rest) ∧
  (∀ (s : State) (j : Job) (st : Nat), s.boot.unitOn = true → s.boot.jobs = [j] → j.kind = .lc st ∧ st < 4 → j.units =
    [.lifeCycle st] → yields (.flashUnitDone true) s fun t => t.boot.otp.lc = max s.boot.otp.lc st ∧ t.f
    F.LC_STATE_LAST_RESULT = 1 ∧ t.boot.jobs = []) ∧
  (∀ (s : State) (j : Job) (st : Nat), s.boot.unitOn = true → s.boot.jobs = [j] → j.kind = .lc st → j.units =
    [.counter] → yields (.flashUnitDone false) s fun t => t.f F.LC_STATE_LAST_RESULT = 5 ∧ t.boot.jobs = [] ∧
    t.boot.unitOn = false) ∧
  (∀ (s : State) (mask u : Nat), s.pwr.up = true → s.therm.cals.length = 5 → u < 5 ∧ mask = 2 ^ u → (s.cal u).busy =
    false → yields (.calRun mask) s fun t => t.cal u = { busy := true } ∧ t.f (calField u) = 1 ∧ t.f F.CAL_Uu_RUNS u =
    min (s.f F.CAL_Uu_RUNS u + 1) (2 ^ F.CAL_Uu_RUNS.w - 1)) ∧
  (∀ (s : State) (mask u : Nat), s.pwr.up = true → s.therm.cals.length = 5 → u < 5 ∧ mask = 2 ^ u → (s.cal u).busy =
    true → yields (.calRun mask) s fun t => t = s.onCal u fun c => { c with held := true }) ∧
  (∀ (s : State) (unit : Fin 5) (elem : Nat) (up : Bool), s.pwr.up = true → s.therm.cals.length = 5 → (s.cal
    unit).busy = true → yields (.calRampStep unit elem up) s fun t => (t.cal unit).ramp = (s.cal unit).ramp + 1 ∧
    (unit = 2 ∧ elem < 64 ∧ elem % 4 = 1 ∧ (s.lport (elem / 4)).sending = none → t.f F.LAMP_PORTp_SKEW_LANE1 (elem /
    4) = (if up then min 255 (s.f F.LAMP_PORTp_SKEW_LANE1 (elem / 4) + 1) else s.f F.LAMP_PORTp_SKEW_LANE1 (elem / 4)
    - 1))) ∧
  (∀ (s : State) (unit : Fin 5), s.therm.cals.length = 5 → (s.cal unit).busy = true → (s.cal unit).held = false →
    yields (.calUnitDone unit none) s fun t => t.f (calField unit) = 2 ∧ (t.cal unit).busy = false) ∧
  (∀ (s : State) (unit : Fin 5) (e : Nat), s.therm.cals.length = 5 → (s.cal unit).busy = true → (s.cal unit).held =
    false → yields (.calUnitDone unit (some e)) s fun t => t.f (calField unit) = 3 ∧ t.f F.CAL_Uu_FAILS unit = min
    (s.f F.CAL_Uu_FAILS unit + 1) (2 ^ F.CAL_Uu_FAILS.w - 1) ∧ t.f F.CAL_Uu_ELEMENT unit = e % 2 ^ F.CAL_Uu_ELEMENT.w
    ∧ t.b F.THERM_EVENT_CAL_FAIL = true ∧ (t.cal unit).busy = false) ∧
  (∀ (s : State), s.dwelt s.therm.opening = false → yields (.writeWindowOpen) s fun t => t = s) ∧
  (∀ (s : State) (a : Nat), s.boot.deferredAt = some a → s.time.aon ≤ a + s.f F.THERM_CFG_WRITE_DEFER * 10000000000 →
    yields (.writeDeferExpire) s fun t => t = s)

/-! ### Boot, update and security (spec/16_boot_and_update.md) -/

/-- The boot ROM stops with its error code or loads the slot that verifies (R511, R516); a trained memory hands off to
the image, a failed channel stops the boot (R448, R516); downloads begin and are cancelled by an erase of sector 0
(R526, R527); an activation prepares the intent and resets the node at its swap instant (R528, R529); a confirmation
is written, and a window that ends unconfirmed, not before its end, marks the node for its reset (R531 to R533). -/
def Obligations.BootActs : Prop :=
  (∀ (s : State) (flashOk clearOk : Bool) (failing : List (Nat × Nat × Nat × Bool)), s.boot.romDue = true ∧ s.pwr.up =
    true ∧ s.on iPERIPH = true ∧ s.boot.unitOn = false ∧ s.therm.hold = false → (s.boot.otp.lc = 0 ∨ s.boot.otp.lc =
    5) → yields (.bootRomStart flashOk clearOk failing) s fun t => t.f F.BOOT_STATUS_STAGE = 4 ∧ t.f
    F.BOOT_STATUS_ERROR = 2 ∧ t.boot.romDue = false ∧ t.pwr.faultN = true ∧ t.f F.BOOT_COUNT = min (s.f F.BOOT_COUNT +
    1) (2 ^ F.BOOT_COUNT.w - 1)) ∧
  (∀ (s : State), s.boot.romDue = true ∧ s.pwr.up = true ∧ s.on iPERIPH = true ∧ s.boot.unitOn = false ∧ s.therm.hold
    = false → s.boot.otp.lc = 1 ∧ s.f F.BOOT_STRAPS_BOOT_SRC ≠ 3 → yields (.bootRomStart false true []) s fun t => t.f
    F.BOOT_STATUS_STAGE = 4 ∧ t.f F.BOOT_STATUS_ERROR = 3 ∧ t.b F.SEC_WALLKEY_VALID = false ∧ t.b
    F.RING_STATUS_KEY_VALID = false) ∧
  (∀ (s : State) (a : Nat), s.boot.romDue = true ∧ s.pwr.up = true ∧ s.on iPERIPH = true ∧ s.boot.unitOn = false ∧
    s.therm.hold = false → s.boot.otp.lc = 1 ∧ a < 2 ∧ s.f F.BOOT_STRAPS_BOOT_SRC = a + 1 → yields (.bootRomStart true
    true []) s fun t => t.boot.forced = true ∧ (if s.headerCheck a = 1 ∧ s.bodyOk a = true then t.f
    F.BOOT_STATUS_STAGE = 2 ∧ t.f F.BOOT_STATUS_SLOT = a ∧ t.boot.training = true ∧ t.boot.version = le (slotHeader s
    a) 8 4 else t.f F.BOOT_STATUS_STAGE = 4 ∧ t.f F.BOOT_STATUS_ERROR = 4 ∧ t.f F.BOOT_SLOTa_INFO_CHECK a = if
    s.headerCheck a = 1 then 8 else s.headerCheck a)) ∧
  (∀ (s : State) (ok : Bool), s.boot.training = true ∧ s.on iMEM = true → (s.memDescriptor.1 = 1 ∨ s.memDescriptor.1 =
    2) → s.memDescriptor.2 ≤ 3 → yields (.memoryTrainingDone none false ok) s fun t => t.boot.running = true ∧
    t.boot.training = false ∧ t.f F.BOOT_STATUS_STAGE = 3 ∧ t.b F.MEM_STATUS_TRAINED = true ∧ t.f F.MEM_CFG_RANKS =
    s.memDescriptor.1 - 1 ∧ t.f F.MEM_CFG_CAPACITY = (if s.isTile then 8 else 32) * (s.memDescriptor.2 + 1) *
    s.memDescriptor.1) ∧
  (∀ (s : State) (c : Fin 8) (ok : Bool), s.boot.training = true ∧ s.on iMEM = true → (s.memDescriptor.1 = 1 ∨
    s.memDescriptor.1 = 2) → s.memDescriptor.2 ≤ 3 → yields (.memoryTrainingDone (some c) false ok) s fun t => t.f
    F.BOOT_STATUS_STAGE = 4 ∧ t.f F.BOOT_STATUS_ERROR = 6 ∧ t.f F.BOOT_STATUS_DETAIL = c.val ∧ t.b
    F.MEM_CHn_STATUS_FAIL c = true ∧ t.boot.training = false) ∧
  (∀ (s : State) (failed : Option (Fin 8)) (ok : Bool), s.boot.training = true ∧ s.on iMEM = true → yields
    (.memoryTrainingDone failed true ok) s fun t => t.f F.BOOT_STATUS_STAGE = 4 ∧ t.f F.BOOT_STATUS_ERROR = 5 ∧
    t.boot.training = false) ∧
  (∀ (s : State) (ctx : Fin 8), s.dlAllowed false = true → yields (.beginDl ctx) s fun t => t.f F.BOOT_DL_STATUS_STATE
    = 0 ∧ t.boot.jobs = s.boot.jobs ++ [(⟨.dlBegin false, [.erase (fSlot (1 - s.f F.BOOT_STATUS_SLOT))], none, ctx,
    s.askedAt⟩ : Job)]) ∧
  (∀ (s : State) (ctx : Fin 8), s.boot.running = true ∧ s.boot.forced = false → yields (.calBegin ctx) s fun t => t.f
    F.BOOT_DL_STATUS_CAL_STATE = 0 ∧ t.boot.jobs = s.boot.jobs ++ [(⟨.dlBegin true, [.erase fCal], none, ctx,
    s.askedAt⟩ : Job)]) ∧
  (∀ (s : State) (ctx : Fin 8), s.dlAllowed false = false → yields (.beginDl ctx) s fun t => t = s) ∧
  (∀ (s : State) (ctx : Fin 8), s.boot.running = true ∧ s.boot.forced = false ∧ s.goStaged = false → yields (.cancelDl
    ctx) s fun t => t.boot.jobs = s.boot.jobs ++ [(⟨.dlCancel false, [.erase (fSlot (1 - s.f F.BOOT_STATUS_SLOT))],
    none, ctx, s.askedAt⟩ : Job)]) ∧
  (∀ (s : State) (ctx : Fin 8), s.boot.running = true ∧ s.boot.forced = false ∧ s.goStaged = false → yields
    (.calCancel ctx) s fun t => t.boot.jobs = s.boot.jobs ++ [(⟨.dlCancel true, [.erase fCal], none, ctx, s.askedAt⟩ :
    Job)]) ∧
  (∀ (s : State) (id v : Nat), (s.flock id).bind Flock.go = some v → s.isTile = true ∧ s.boot.running = true ∧
    s.boot.forced = false → yields (.activatePrepare id) s fun t => t.boot.jobs = s.boot.jobs ++ [(⟨.prepare, [.erase
    (fIntent s.intentNext)], none, 0, s.askedAt⟩ : Job)]) ∧
  (∀ (s : State) (n : Nat), s.boot.activateAt = some n → s.swapAt n ≤ s.time.clock → yields (.activationReset) s fun t
    => t.f F.RST_CAUSE_LAST = 3 ∧ t.boot.running = false ∧ t.boot.activateAt = none) ∧
  (∀ (s : State) (ctx : Fin 8) (version e : Nat), s.pwr.up = true → s.mayWrite ctx 19 = true → s.boot.running = true ∧
    s.b F.BOOT_STATUS_TRIAL = true ∧ s.boot.forced = false → s.boot.windowEnd = some e → s.time.aon ≤ e → version =
    s.boot.version → yields (.bootConfirm ctx version) s fun t => t.f F.BOOT_CONFIRM_STATUS_STATE = 2 ∧
    t.boot.jobs.map (fun x => (x.kind, x.units)) = s.boot.jobs.map (fun x => (x.kind, x.units)) ++ [(JobKind.confirm,
    s.intentUnits (confirmedIntent s))]) ∧
  (∀ (s : State) (ctx : Fin 8) (version : Nat), s.pwr.up = true → s.mayWrite ctx 19 = true → (s.b F.BOOT_STATUS_TRIAL
    = false ∨ version ≠ s.boot.version) → yields (.bootConfirm ctx version) s fun t => t = s.put F.BOOT_CONFIRM
    version) ∧
  (∀ (s : State) (e : Nat), s.boot.windowEnd = some e → e < s.time.aon → s.confirming = false → yields
    (.confirmWindowExpire) s fun t => t.boot.expired = true ∧ t.boot.windowEnd = some e ∧ t.f
    F.BOOT_CONFIRM_STATUS_LEFT = 0) ∧
  (∀ (s : State) (e : Nat), s.boot.windowEnd = some e → s.time.aon ≤ e → yields (.confirmWindowExpire) s fun t => t =
    s)

/-- A permitted life-cycle transition asks for its burn, another records why not, and each attempt makes a new
challenge (R519, R520); a revocation that leaves a key is burned, one that would leave none is refused (R522); only
context 0 may complete these pairs (R547); attestation fills the buffer with the statement or a public key (R525). -/
def Obligations.SecurityActs : Prop :=
  (∀ (s : State) (target : Nat), s.pwr.up = true → s.boot.otp.lc = 1 ∧ target = 2 → s.boot.otp.serial.isSome = true ∧
    s.boot.otp.privateKeys = true → yields (.lcTransition 0 target) s fun t => t.boot.jobs = s.boot.jobs ++ [(⟨.lc 2,
    [.lifeCycle 2], none, 0, s.askedAt⟩ : Job)]) ∧
  (∀ (s : State) (target : Nat), s.pwr.up = true → 1 ≤ s.boot.otp.lc ∧ s.boot.otp.lc < 5 ∧ target = 5 → yields
    (.lcTransition 0 target) s fun t => t.boot.jobs = s.boot.jobs ++ [(⟨.lc 5, [.lifeCycle 5], none, 0, s.askedAt⟩ :
    Job)]) ∧
  (∀ (s : State) (target : Nat), s.pwr.up = true → target < 8 → (s.boot.otp.lc = 0 ∨ s.boot.otp.lc = 5 ∨ (target ≠
    s.boot.otp.lc + 1 ∧ target ≠ 5)) → yields (.lcTransition 0 target) s fun t => t.f F.LC_STATE_LAST_RESULT = 2 ∧
    t.boot.jobs = s.boot.jobs ∧ t.boot.otp = s.boot.otp) ∧
  (∀ (s : State) (ctx : Fin 8) (target : Nat), s.pwr.up = true → ctx ≠ 0 → yields (.lcTransition ctx target) s fun t
    => t.b F.CTXn_FAULT_RWP ctx = true ∧ t.boot = s.boot) ∧
  (∀ (s : State) (slots : Nat), s.pwr.up = true → (s.boot.otp.lc = 2 ∨ s.boot.otp.lc = 3) → (∃ k ∈ List.range 4, (nth
    s.boot.otp.hashes k none).isSome = true ∧ slots.testBit k = false ∧ s.boot.otp.revoked.testBit k = false) → yields
    (.secRevoke 0 slots) s fun t => t.boot.jobs = s.boot.jobs ++ [(⟨.revoke, [.revoke (slots % 16)], none, 0,
    s.askedAt⟩ : Job)]) ∧
  (∀ (s : State) (slots : Nat), s.pwr.up = true → (∀ k ∈ List.range 4, (nth s.boot.otp.hashes k none).isSome = true →
    slots.testBit k = true ∨ s.boot.otp.revoked.testBit k = true) → yields (.secRevoke 0 slots) s fun t => t.b
    F.SEC_KEYS_REVOKE_REFUSED = true ∧ t.boot = s.boot) ∧
  (∀ (s : State) (kind : Fin 4), kind ≠ 3 → s.boot.running = true → yields (.attestGo kind) s fun t => t.b
    F.SEC_ATTEST_CTL_BUSY = true ∧ t.b F.SEC_ATTEST_CTL_DONE = false ∧ t.boot.attest = some kind.val) ∧
  (∀ (s : State), s.boot.attest = some 0 → yields (.attestDone) s fun t => t.b F.SEC_ATTEST_CTL_BUSY = false ∧ t.b
    F.SEC_ATTEST_CTL_DONE = true ∧ t.boot.attest = none ∧ (∀ j ∈ List.range 56, t.f F.SEC_ATTEST_BUFk 0 j = le
    (s.statement ++ Config.ecdsaSign (Config.sha384 s.statement)) (4 * j) 4)) ∧
  (∀ (s : State) (k : Nat), s.boot.attest = some k → k ≠ 0 → yields (.attestDone) s fun t => t.b F.SEC_ATTEST_CTL_DONE
    = true ∧ t.boot.attest = none ∧ (∀ j ∈ List.range 24, t.f F.SEC_ATTEST_BUFk 0 j = le (Config.publicKey k) (4 * j)
    4))

/-! ### Self-test, health and pins (spec/17_self_test.md, spec/19_package_and_balls.md) -/

/-- A request starts when its preconditions hold and is refused with its reason otherwise (R552, R556, R562); a
partition passes when its MISR equals the expected signature (R549, R551), an instance is left zeroed (R562) and a
failing one recorded (R560); ABORT ends the request (R566); scan entry where scan is open clears every key (R553,
R554); the standby tests itself in the gaps (R557, R558). -/
def Obligations.SelfTestActs : Prop :=
  (∀ (s : State) (ok : Bool) (p : Nat), s.pwr.up = true ∧ s.bist.run = none → s.precond = 0 → p < 28 ∧ p ≠ 20 ∧ s.f
    F.BIST_LB_MASK = 2 ^ p → (s.bpart p).valid = true ∧ s.partQuiet p = true ∧ s.bist.barred = [] → yields (.lbGo ok)
    s fun t => t.bist.run = some { mem := false, online := false, left := [p] } ∧ t.b F.BIST_STATUS_BUSY = true ∧ t.f
    F.BIST_REFUSALS = s.f F.BIST_REFUSALS) ∧
  (∀ (s : State) (ok : Bool), s.pwr.up = true ∧ s.bist.run = none → s.precond ≠ 0 → yields (.lbGo ok) s fun t => t.f
    F.BIST_STATUS_REFUSED = s.precond ∧ t.f F.BIST_REFUSALS = min (s.f F.BIST_REFUSALS + 1) (2 ^ F.BIST_REFUSALS.w -
    1) ∧ t.bist = s.bist) ∧
  (∀ (s : State) (ok : Bool) (p : Nat), s.pwr.up = true ∧ s.bist.run = none → s.precond = 0 → p < 28 ∧ s.f
    F.BIST_LB_MASK = 2 ^ p → ((s.bpart p).valid = false ∨ s.partQuiet p = false) → yields (.lbGo ok) s fun t =>
    t.bist.run = none ∧ t.f F.BIST_STATUS_REFUSED = if (s.bpart p).valid then 3 else 5) ∧
  (∀ (s : State) (ok : Bool) (i : Nat), s.pwr.up = true ∧ s.bist.run = none → s.precond = 0 → i < 43 ∧ s.f64
    F.BIST_MB_MASK_LO F.BIST_MB_MASK_HI = 2 ^ i → s.memQuiet i = true ∧ s.bist.barred = [] → yields (.mbGo ok) s fun t
    => t.bist.run = some { mem := true, online := false, left := [i] } ∧ t.b F.BIST_STATUS_BUSY = true ∧ t.b
    F.BIST_MB_RESULT_VALID = false) ∧
  (∀ (s : State) (r : BRun), s.pwr.up = true → s.bist.run = some r → r.online = false → yields (.bistAbort) s fun t =>
    t.bist.run = none ∧ t.b F.BIST_STATUS_BUSY = false) ∧
  (∀ (s : State) (r : BRun) (p : Nat) (rest : List Nat), s.pwr.up = true → s.bist.run = some r → r.online = false →
    r.mem = false → r.left = p :: rest → p < 28 → s.bist.parts.length = 28 → yields (.bistAbort) s fun t => (t.bpart
    p).result = 3) ∧
  (∀ (s : State), s.pwr.up = true → yields (.bistClear) s fun t => t.f F.BIST_LB_RUNS = 0 ∧ t.f F.BIST_LB_FAILS = 0 ∧
    t.f F.BIST_LB_MISSED = 0 ∧ t.f F.BIST_MB_FAILS = 0 ∧ t.f F.BIST_REFUSALS = 0) ∧
  (∀ (s : State), s.scanOpen = true → s.folds.length = 4 → yields (.jtagScanEntry true) s fun t => t.b
    F.SEC_WALLKEY_VALID = false ∧ t.b F.RING_STATUS_KEY_VALID = false ∧ (∀ p ∈ List.range 7, (nth t.ring.enc p
    {}).keys = false) ∧ (∀ n ∈ List.range 4, (t.fold n).k = List.replicate 32 0 ∧ t.inRun n = false)) ∧
  (∀ (s : State) (ok : Bool), s.scanOpen = false → yields (.jtagScanEntry ok) s fun t => t = s) ∧
  (∀ (s : State) (r : BRun), s.precond ≠ 0 → s.bist.run = some r → yields (.bistPrecondSample) s fun t => t = s.onBist
    fun b => { b with run := some { r with bad := true } }) ∧
  (∀ (s : State) (misr : Nat) (ok : Bool) (p : Nat), s.bist.run = some { mem := false, online := false, left := [p] }
    → s.precond = 0 → p < 20 ∧ p % 5 ≠ 0 ∧ s.bist.parts.length = 28 → yields (.lbistPartitionDone misr ok) s fun t =>
    t.bist.run = none ∧ t.f F.BIST_LB_RUNS = min (s.f F.BIST_LB_RUNS + 1) (2 ^ F.BIST_LB_RUNS.w - 1) ∧ (t.bpart
    p).misr = misr % 2 ^ 64 ∧ (t.bpart p).result = (if misr % 2 ^ 64 = (s.bpart p).expect then 1 else 2) ∧ t.f
    F.BIST_LB_FAILS = (if misr % 2 ^ 64 = (s.bpart p).expect then s.f F.BIST_LB_FAILS else min (s.f F.BIST_LB_FAILS +
    1) (2 ^ F.BIST_LB_FAILS.w - 1))) ∧
  (∀ (s : State) (ok : Bool) (i : Nat), s.bist.run = some { mem := true, online := false, left := [i] } → s.precond =
    0 → i < 4 ∧ s.folds.length = 4 → yields (.mbistInstanceDone none ok) s fun t => t.bist.run = none ∧ (t.fold
    i).prog = [] ∧ (t.fold i).progBad = [] ∧ t.f F.BIST_MB_FAILS = s.f F.BIST_MB_FAILS) ∧
  (∀ (s : State) (word bit : Nat) (spare ok : Bool) (i : Nat), s.bist.run = some
    { mem := true, online := false, left := [i] } → s.precond = 0 → i < 43 → s.b F.BIST_MB_RESULT_VALID = false →
    yields (.mbistInstanceDone (some (word, bit, spare)) ok) s fun t => t.f F.BIST_MB_FAILS = min (s.f F.BIST_MB_FAILS
    + 1) (2 ^ F.BIST_MB_FAILS.w - 1) ∧ t.b F.BIST_MB_RESULT_VALID = true ∧ t.f F.BIST_MB_RESULT_INSTANCE = i ∧ t.f
    F.BIST_MB_ADDR = word % 2 ^ F.BIST_MB_ADDR.w ∧ (spare = false → i ∈ t.bist.failed ∧ t.b
    F.BIST_STATUS_MB_UNREPAIRED = true)) ∧
  (∀ (s : State) (p : Nat), s.rotating = true → p = nth onlineParts (s.time.clock * 17 / secU 10 % 17) 0 → p ≠ 23 →
    s.bist.window ≠ some s.bistWindow → yields (.onlineBistWindow) s fun t => t.bist.window = some (s.time.clock * 17
    / secU 10) ∧ t.bist.due = (s.bpart p).valid ∧ t.f F.BIST_LB_MISSED = if s.bist.due then min (s.f F.BIST_LB_MISSED
    + 1) (2 ^ F.BIST_LB_MISSED.w - 1) else s.f F.BIST_LB_MISSED) ∧
  (∀ (s : State) (p : Nat), s.rotating = true → s.bist.due = true ∧ s.bist.run = none → p = nth onlineParts
    (s.bist.window.getD 0 % 17) 0 ∧ p ≠ 23 → s.inRun (p / 5) = false ∧ (s.fold (p / 5)).scheduled = none →
    s.time.clock + s.testTime + usU 20 ≤ s.swapAt (s.time.frame + 1) → s.precond = 0 → s.bist.window = some
    s.bistWindow → p < 20 → yields (.onlineBistGapStart) s fun t => t.bist.run = some
    { mem := false, online := true, left := [p] } ∧ t.bist.due = false ∧ t.b F.BIST_STATUS_BUSY = true)

/-- HEALTH_REPORT_TIMER, HEALTH and GPIO_CFG_WRITE complete: a running node composes its health report, shows it and
counts it, once at each of its instants (R564); a head keeps the latest report of each node that it hears (R565); a
write of a pin's configuration ends its pulse and gives the pin its function (R600), but a reserved code changes
nothing (R631) and a second owner of an alarm is a conflict that is counted and recorded (R472). -/
def Obligations.HealthAndPinsAct : Prop :=
  (∀ (s : State), s.boot.running = true ∧ s.pwr.up = true → s.bist.slot ≠ some s.healthSlot → yields
    (.healthReportTimer) s fun t => (∀ k ∈ List.range 16, t.f F.BIST_HEALTHk 0 k = le s.healthReport (4 * k) 4) ∧
    t.bist.seq = (s.bist.seq + 1) % 2 ^ 32 ∧ t.b F.BIST_STATUS_SELF_TEST_FAULT = s.withinSec s.bist.lastFault ∧
    t.bist.slot = some s.healthSlot) ∧
  (∀ (s : State), s.boot.running = true → s.bist.slot = some s.healthSlot → yields (.healthReportTimer) s fun t => t =
    s) ∧
  (∀ (s : State) (addr : Nat) (payload : Bytes), s.isHead = true ∧ s.on iLINK = true → payload.length = 128 →
    payload.drop 64 = complement (payload.take 64) → le payload 0 1 = 1 → yields (.health addr payload) s fun t =>
    t.bist.reports = (addr, s.time.aon, payload.take 64) :: s.bist.reports.filter fun r => r.1 != addr) ∧
  (∀ (s : State) (addr : Nat) (payload : Bytes), payload.length = 128 → payload.drop 64 ≠ complement (payload.take 64)
    → yields (.health addr payload) s fun t => t = s) ∧
  (∀ (s : State) (pin : Fin 16) (value : Nat), s.pwr.up = true → s.alarmTaken pin value = false → resvBad (fieldsAt
    (F.GPIOk_CFG_FUNC.addr pin 0)) value = false → yields (.gpioCfgWrite pin value) s fun t => t.reg
    (F.GPIOk_CFG_FUNC.addr pin 0) = BitVec.ofNat 32 (value % 2 ^ 16) ∧ (s.f F.GPIOk_CFG_FUNC pin = 2 →
    s.time.alarms.length = 32 → (t.alarm (s.f F.GPIOk_CFG_ALARM pin)).pulseEnd = none)) ∧
  (∀ (s : State) (pin : Fin 16) (value : Nat), s.alarmTaken pin value = true → s.pwr.up = true → resvBad (fieldsAt
    (F.GPIOk_CFG_FUNC.addr pin 0)) value = false → yields (.gpioCfgWrite pin value) s fun t => t.reg
    (F.GPIOk_CFG_FUNC.addr pin 0) = s.reg (F.GPIOk_CFG_FUNC.addr pin 0) ∧ t.time = s.time ∧ t.f F.XING_CONFLICTS = min
    (s.f F.XING_CONFLICTS + 1) (2 ^ 32 - 1) ∧ t.f F.XING_CONFLICT_INFO_KIND = 1 ∧ t.f F.XING_CONFLICT_INFO_INDEX =
    bits value 4 5 ∧ t.b F.XING_CONFLICT_INFO_VALID = true) ∧
  (∀ (s : State) (pin : Fin 16) (value : Nat), resvBad (fieldsAt (F.GPIOk_CFG_FUNC.addr pin 0)) value = true → yields
    (.gpioCfgWrite pin value) s fun t => t = s)

/-- HEALTH_REPORT_TIMER of a running node (R564), HEALTH with a sound report of a node on a head (R565) and
GPIO_CFG_WRITE of a value without a reserved code that brings no second owner (R600, R631) each answer a next state:
the report is counted, the report heard is held, and FUNC and ALARM of the pin are those written; none of them changes
memory, time or a flock. -/
def Obligations.HealthAndPinsComplete : Prop :=
  (∀ (s : State), s.boot.running = true → s.pwr.up = true → s.bist.slot ≠ some s.healthSlot → yields
    (.healthReportTimer) s fun t => t.bist.seq = (s.bist.seq + 1) % 2 ^ 32 ∧ t.mem = s.mem ∧ t.time = s.time ∧
    t.flocks = s.flocks) ∧
  (∀ (s : State) (addr : Nat) (payload : Bytes), s.isHead = true → s.on iLINK = true → payload.length = 128 →
    payload.drop 64 = complement (payload.take 64) → le payload 0 1 = 1 → yields (.health addr payload) s fun t =>
    (addr, s.time.aon, payload.take 64) ∈ t.bist.reports ∧ t.mem = s.mem ∧ t.time = s.time ∧ t.flocks = s.flocks) ∧
  (∀ (s : State) (pin : Fin 16) (value : Nat), s.pwr.up = true → s.alarmTaken pin value = false → resvBad (fieldsAt
    (F.GPIOk_CFG_FUNC.addr pin 0)) value = false → yields (.gpioCfgWrite pin value) s fun t => t.f F.GPIOk_CFG_FUNC
    pin = value % 2 ^ F.GPIOk_CFG_FUNC.w ∧ t.f F.GPIOk_CFG_ALARM pin = bits value F.GPIOk_CFG_ALARM.lo
    F.GPIOk_CFG_ALARM.w ∧ t.mem = s.mem ∧ t.ring = s.ring ∧ t.flocks = s.flocks)

/-! ### Frames: what a command leaves unchanged -/

/-- Each power, reset, island and register command changes the named parts of the state alone. -/
def Obligations.PowerFrames : Prop :=
  (∀ (widthNs : Nat), ∀ c ∈ ([.porNAssert, .resetNAssert widthNs] : List Instr), changesOnly c [.regs, .mem, .fresh,
    .pwr, .xing, .time, .host, .ring, .link, .ingest, .mst, .comp, .folds, .lamp, .therm, .boot, .bist, .flocks, .txs,
    .latch]) ∧
  (∀ (straps : Nat), changesOnly (.porNRise straps) [.regs, .pwr, .xing]) ∧
  (∀ (mv : List Nat), ∀ c ∈ ([.powerStep mv, .brownoutRestart] : List Instr), changesOnly c [.regs, .pwr]) ∧
  (∀ (mv : List Nat), ∀ c ∈ ([.powerGood mv, .resetNRelease] : List Instr), changesOnly c [.regs, .fresh, .out, .pwr,
    .xing, .time, .host, .ring, .link, .ingest, .mst, .folds, .lamp, .therm, .boot, .bist, .latch]) ∧
  (∀ (rail : Fin 7) (mv0 mv1 : Nat), ∀ c ∈ ([.railEnableTimeout, .brownout rail mv0 mv1, .rstCtlAction] : List Instr),
    changesOnly c [.regs, .mem, .fresh, .out, .pwr, .xing, .time, .host, .ring, .link, .ingest, .mst, .comp, .folds,
    .lamp, .therm, .boot, .bist, .flocks, .txs, .latch]) ∧
  (∀ (ctx : Fin 8) (mask : Nat), ∀ c ∈ ([.rstWarm ctx, .rstPowerOff ctx, .rstIsland ctx mask, .rstFold ctx mask] :
    List Instr), changesOnly c [.regs, .out, .pwr, .host, .ring]) ∧
  (∀ (isl : Fin 9), ∀ c ∈ ([.islandResetRelease isl, .islandClockStable isl] : List Instr), changesOnly c [.regs,
    .fresh, .out, .xing, .time, .host, .ring, .link, .ingest, .mst, .folds, .lamp, .therm, .bist, .latch]) ∧
  (∀ (isl : Fin 9) (line : Nat), ∀ c ∈ ([.islandClockLost isl, .refclkLoss, .xingStuck isl line, .pcieReset] : List
    Instr), changesOnly c [.regs, .fresh, .out, .pwr, .xing, .time, .host, .ring, .link, .ingest, .lamp]) ∧
  (∀ (isl : Fin 9) (line : Nat), changesOnly (.xingEvent isl line) [.regs, .xing]) ∧
  (∀ (isl : Fin 9) (line : Nat), changesOnly (.xingAck isl line) [.xing]) ∧
  (∀ (fn : Fin 4), ∀ c ∈ ([.pcieFlr fn, .pcieFlrDone fn, .pcieLinkUp] : List Instr), changesOnly c [.regs, .pwr,
    .host]) ∧
  (∀ (ctx : Fin 8) (addr value : Nat) (whole : Bool), ∀ c ∈ ([.rwpWriteOpen ctx addr value, .rwpComplete ctx addr
    value, .registerWrite ctx addr value, .bar0Write ctx addr value whole] : List Instr), changesOnly c [.regs, .mem,
    .fresh, .out, .pwr, .xing, .time, .host, .ring, .link, .ingest, .mst, .comp, .folds, .lamp, .therm, .boot, .bist,
    .flocks, .latch]) ∧
  (∀ (ctx : Fin 8) (value : Nat), ∀ c ∈ ([.rwpWindowExpire ctx, .sqTailWrite ctx value] : List Instr), changesOnly c
    [.regs, .out, .host, .ring]) ∧
  (∀ (ctx : Fin 8) (value : Nat), changesOnly (.cqHeadWrite ctx value) [.regs, .fresh, .out, .host, .ring, .mst,
    .bist]) ∧
  (∀ (ctx : Fin 8) (addr : Nat), ∀ c ∈ ([.rcRegisterRead ctx addr, .loHalfRead ctx addr, .prbsCounterLoRead ctx addr]
    : List Instr), changesOnly c [.regs, .out, .host, .ring, .bist]) ∧
  (∀ c ∈ ([.flockClear, .staleClr, .xingClear] : List Instr), changesOnly c [.regs])

/-- Each host and ticket command changes the named parts of the state alone. -/
def Obligations.HostFrames : Prop :=
  (∀ (ctx : Fin 8) (entry payload : Bytes) (readOk : Bool) (pads : Nat), ∀ c ∈ ([.regWrite ctx entry payload readOk,
    .tableWrite ctx entry payload readOk, .memWrite ctx entry payload readOk, .hurdlePost ctx entry, .posePost ctx
    entry, .tileService ctx entry, .flockOpen ctx entry, .flockCall ctx entry, .flockCancel ctx entry, .flockQuery ctx
    entry, .txbegin ctx entry, .txend ctx entry, .txabort ctx entry, .tunnel ctx entry payload readOk, .regRead ctx
    entry pads, .memRead ctx entry, .ticketQuery ctx entry] : List Instr), changesOnly c [.regs, .fresh, .out, .host,
    .ring, .ingest, .mst, .bist]) ∧
  (∀ (ctx : Fin 8), changesOnly (.ticketAccept ctx) [.regs, .out, .host, .ring]) ∧
  (∀ (ctx : Fin 8), changesOnly (.ticketExecute ctx) [.regs, .mem, .fresh, .out, .pwr, .xing, .time, .host, .ring,
    .link, .ingest, .mst, .comp, .folds, .lamp, .therm, .boot, .bist, .flocks, .txs, .latch])

/-- Each flock, frame-latch and swap command changes the named parts of the state alone. -/
def Obligations.FlockFrames : Prop :=
  (∀ (flock : Nat) (bad : Option FlockPart) (payload : Bytes) (commitMsgBad : Bool), ∀ c ∈ ([.takeoverDecide flock,
    .flockOpenTimeout flock, .voteDeadline flock bad, .vote payload, .voteGraceExpire flock, .voteSend flock bad,
    .commitMsg payload commitMsgBad] : List Instr), changesOnly c [.regs, .fresh, .out, .host, .ring, .ingest, .mst,
    .comp, .boot, .bist, .flocks]) ∧
  (∀ (payload : Bytes), changesOnly (.ack payload) [.regs, .host, .flocks]) ∧
  (∀ (part : ResyncPart), changesOnly (.resyncCopyRx part) [.regs, .mem, .fresh, .out, .time, .host, .ring, .link,
    .ingest, .mst, .bist]) ∧
  (changesOnly (.handback) [.regs, .out, .ring, .bist, .flocks]) ∧
  (∀ (bad : List (Nat × FlockPart)) (ctx : Fin 8), ∀ c ∈ ([.swapInstant bad, .txBoundaryApply ctx] : List Instr),
    changesOnly c [.regs, .mem, .fresh, .out, .pwr, .xing, .time, .host, .ring, .link, .ingest, .mst, .comp, .folds,
    .lamp, .therm, .boot, .bist, .flocks, .txs, .latch]) ∧
  (changesOnly (.slotStart) [.regs, .out, .time, .host, .ring, .lamp]) ∧
  (∀ (payload : Bytes), changesOnly (.flockOpenRx payload) [.regs, .host, .comp, .flocks]) ∧
  (∀ (payload : Bytes), changesOnly (.stagedWriteRx payload) [.regs, .fresh, .out, .time, .host, .ring, .link,
    .flocks]) ∧
  (∀ (payload : Bytes) (bad : Bool), changesOnly (.callMsg payload bad) [.regs, .out, .host, .ring, .ingest, .flocks])
    ∧
  (∀ (flock : Nat), ∀ c ∈ ([.flockGuardDeadline flock, .flockRecordExpire flock] : List Instr), changesOnly c [.regs,
    .flocks]) ∧
  (∀ (payload : Bytes) (bad : Bool), changesOnly (.abortMsg payload bad) [.regs, .fresh, .out, .host, .ring, .ingest,
    .mst, .comp, .bist, .flocks]) ∧
  (∀ (ctx : Fin 8), changesOnly (.txOpenTimeout ctx) [.regs, .fresh, .out, .host, .ring, .mst, .bist, .txs]) ∧
  (∀ (bad : List (Nat × FlockPart)), changesOnly (.frameLatch bad) [.regs, .mem, .fresh, .out, .pwr, .xing, .time,
    .host, .ring, .link, .ingest, .mst, .comp, .folds, .lamp, .therm, .boot, .bist, .flocks, .latch]) ∧
  (changesOnly (.slotLatch) [.regs, .comp, .folds, .lamp]) ∧
  (∀ (payload : Bytes) (tally : Nat), ∀ c ∈ ([.hurdle payload tally, .pose payload tally] : List Instr), changesOnly c
    [.regs, .comp]) ∧
  (∀ c ∈ ([.hurdleRepeatTimer, .poseRepeatTimer] : List Instr), changesOnly c [.out, .ring])

/-- Each link and lane command changes the named parts of the state alone: frame memory, folds, lamps and flocks stay.
-/
def Obligations.LinkFrames : Prop :=
  (∀ (port : Fin 7) (lane : Fin 32) (gen chk loopback control status comp peak : Nat) (trainingFrameRxLane laneLosLane
    markerRxLane codewordRxLane : Fin 28) (inverted : Bool) (arrivals symbols : List Nat) (block marker body : Bytes)
    (ppm h1 : Int), ∀ c ∈ ([.portEnable port, .faultHoldoffExpire port, .laneTestSelect lane gen chk loopback,
    .portDisable port, .trainingFrameRx trainingFrameRxLane control status comp inverted, .detectComplete port,
    .trainTimeout port, .alignComplete port arrivals, .alignTimeout port, .ident port block, .cap port block, .confirm
    port block, .checkTimeout port, .laneLos laneLosLane, .markerRx markerRxLane marker ppm peak h1, .codewordRx
    codewordRxLane symbols, .portRetrain port, .keyconf port body, .trainEnd port, .checkComplete port] : List Instr),
    changesOnly c [.regs, .fresh, .out, .time, .host, .ring, .link]) ∧
  (∀ (port : Fin 7) (adapt : List (Nat × Int)), changesOnly (.trainReady port adapt) [.regs, .link]) ∧
  (∀ (port : Fin 7), changesOnly (.checkTxTimer port) [.out, .link]) ∧
  (∀ (port : Fin 7) (lane : Fin 32), ∀ c ∈ ([.confirmTxEnd port, .injectGo lane, .injectRateTick lane] : List Instr),
    changesOnly c [.link]) ∧
  (∀ (port : Fin 7) (run : List Bytes) (block : Bytes), changesOnly (.idleBlockRx port run block) [.regs, .ring,
    .link]) ∧
  (∀ (port : Fin 7) (lane : Fin 32), ∀ c ∈ ([.portClear port, .prbsClear lane] : List Instr), changesOnly c [.regs]) ∧
  (∀ (lane : Fin 32) (symbols : List Nat), changesOnly (.prbsCheckerLock lane symbols) [.regs, .out, .link]) ∧
  (∀ (port : Fin 7), changesOnly (.keyxTimer port) [.fresh, .out, .ring, .link]) ∧
  (∀ (port : Fin 7) (body : Bytes), changesOnly (.keyx port body) [.ring, .link])

/-- Each ring, cell and peer command changes the named parts of the state alone. -/
def Obligations.RingFrames : Prop :=
  (∀ (ctx : Fin 8) (src : Peer) (index : Nat) (entry payload : Bytes) (port : Fin 7), ∀ c ∈ ([.mgmtEntryRx ctx src
    index entry payload, .request port payload] : List Instr), changesOnly c [.regs, .out, .host, .ring]) ∧
  (∀ (payload : Bytes) (ctx : Fin 8) (src : Peer) (index : Nat), ∀ c ∈ ([.tunnelCmdRx payload, .tunnelReplyRx payload,
    .replyAckRx payload, .mgmtCqReadRx ctx src index] : List Instr), changesOnly c [.regs, .fresh, .out, .host, .ring,
    .mst, .bist]) ∧
  (∀ (serial : Nat), changesOnly (.tileHealthTimeout serial) [.regs, .fresh, .out, .host, .ring, .mst, .bist,
    .flocks]) ∧
  (∀ (target asker : Nat), changesOnly (.mgmtArpRx target asker) [.out]) ∧
  (∀ (seq tally : Nat), ∀ c ∈ ([.replyRepeatTimer seq, .joinRequestTimer, .wallTimer, .helloTimer, .copyAckRx tally] :
    List Instr), changesOnly c [.out, .ring]) ∧
  (∀ (record payload : Bytes), changesOnly (.mirrorRecordRx record payload) [.regs, .mem, .fresh, .out, .host, .ring,
    .mst, .comp, .bist, .flocks]) ∧
  (∀ (ctx : Fin 8) (ticket : Nat) (payload : Bytes), ∀ c ∈ ([.mirrorAckRx ctx ticket, .windowReset payload] : List
    Instr), changesOnly c [.ring]) ∧
  (changesOnly (.mirrorAckTimeout) [.regs, .fresh, .out, .host, .ring, .mst, .comp, .bist]) ∧
  (∀ (payload : Bytes), ∀ c ∈ ([.assign payload, .wall payload, .authority payload, .handbackCleanElapsed,
    .ringHandover] : List Instr), changesOnly c [.regs, .ring]) ∧
  (∀ (port : Fin 7) (cell : Bytes), changesOnly (.cellRx port cell) [.regs, .mem, .fresh, .out, .xing, .time, .host,
    .ring, .link, .ingest, .mst, .comp, .folds, .lamp, .therm, .boot, .bist, .flocks, .latch]) ∧
  (∀ (stream src : Nat), changesOnly (.gapWaitExpire stream src) [.regs, .mem, .fresh, .out, .time, .host, .ring,
    .link, .ingest, .mst, .comp, .folds, .boot, .bist, .flocks]) ∧
  (∀ (port : Fin 7) (payload : Bytes), ∀ c ∈ ([.ringEnumerate, .enumWaveTimeout, .report port payload,
    .copyAckTimeout] : List Instr), changesOnly c [.regs, .out, .ring]) ∧
  (∀ (port : Fin 7) (body : Bytes), changesOnly (.enum port body) [.regs, .out, .ring, .link]) ∧
  (∀ (port : Fin 7) (h : Hello), changesOnly (.hello port h) [.regs, .fresh, .out, .xing, .time, .host, .ring, .link,
    .ingest, .mst, .comp, .folds, .lamp, .therm, .bist, .flocks, .latch]) ∧
  (changesOnly (.electionTimeout) [.regs, .out, .xing, .time, .host, .ring, .ingest, .folds, .lamp, .therm, .bist,
    .flocks, .latch]) ∧
  (∀ (stream : Fin 22) (frame : Nat) (entry : Bytes), ∀ c ∈ ([.digestSend stream frame, .digestRx entry] : List
    Instr), changesOnly c [.regs, .fresh, .out, .host, .ring]) ∧
  (changesOnly (.headLossTimeout) [.regs, .fresh, .out, .xing, .time, .host, .ring, .ingest, .mst, .comp, .folds,
    .lamp, .therm, .bist, .flocks, .latch]) ∧
  (∀ c ∈ ([.demotedRecover, .resyncComplete] : List Instr), changesOnly c [.regs, .ring, .bist, .flocks]) ∧
  (changesOnly (.ringClear) [.regs])

/-- Each time command changes the named parts of the state alone: frame memory, folds, lamps and flocks stay. -/
def Obligations.TimeFrames : Prop :=
  (∀ c ∈ ([.timeCapture, .timeClear] : List Instr), changesOnly c [.regs]) ∧
  (∀ (rising : Bool) (m : PtpSync), ∀ c ∈ ([.timeRelock, .ppsEdge rising, .ptpSyncRx m] : List Instr), changesOnly c
    [.regs, .fresh, .out, .xing, .time, .host, .ring, .ingest, .folds, .lamp, .therm, .bist, .latch]) ∧
  (∀ (value : Nat), changesOnly (.timeSetWrite value) [.regs, .out, .xing, .time, .host, .ring, .ingest, .folds,
    .lamp, .therm, .bist, .latch]) ∧
  (∀ (a : Fin 32) (m : PtpAnnounce), ∀ c ∈ ([.ppsTimeout, .ptpAnnounceTimeout, .alarmArm a, .alarmFire a,
    .ptpAnnounceRx m] : List Instr), changesOnly c [.regs, .out, .time, .host, .ring]) ∧
  (∀ (port : Fin 7), changesOnly (.timeCellTimer port) [.out, .time, .ring]) ∧
  (∀ (port : Fin 7) (cell body : Bytes), ∀ c ∈ ([.timeCellRx port cell, .pdresp port body] : List Instr), changesOnly
    c [.regs, .fresh, .out, .xing, .time, .host, .ring, .link, .ingest, .folds, .lamp, .therm, .bist, .latch]) ∧
  (∀ (port : Fin 7) (a : Fin 32), ∀ c ∈ ([.pdelayTimer port, .ptpDelayReqTimer, .alarmPulseEnd a] : List Instr),
    changesOnly c [.out, .time]) ∧
  (∀ (port : Fin 7) (body : Bytes), changesOnly (.pdreq port body) [.out, .link]) ∧
  (∀ (seq requester : Nat), changesOnly (.ptpPdelayReqRx seq requester) [.out]) ∧
  (∀ (port : Fin 7) (seq rx t2 t3 : Nat), ∀ c ∈ ([.pdrespTimeout port, .ptpDelayRespRx seq rx, .ptpPdelayRespRx seq t2
    t3] : List Instr), changesOnly c [.regs, .time]) ∧
  (∀ (announce : Bool), changesOnly (.ptpMasterTxTimer announce) [.regs, .out, .time])

/-- Each ingest command changes the named parts of the state alone: memory outside the ingest buffers, folds and lamps
stay. -/
def Obligations.IngestFrames : Prop :=
  (∀ (rx : Fin 4), changesOnly (.dprxHpdIrq rx) [.out]) ∧
  (∀ (rx : Fin 4) (rate lanes : Nat) (flow : Fin 16), ∀ c ∈ ([.dpLinkTrained rx rate lanes, .stflowReceivingLapse
    flow] : List Instr), changesOnly c [.regs]) ∧
  (∀ (rx : Fin 4) (src : Src) (f : SrcFrame) (p : Packet) (layer : Fin 16) (value : Nat), ∀ c ∈ ([.dpLinkLoss rx,
    .sourceFrameComplete src f, .st2110PacketRx p, .layerAddrCommit layer value] : List Instr), changesOnly c [.regs,
    .ingest]) ∧
  (∀ (layer : Fin 16) (value : Nat), changesOnly (.layerClipWrite layer value) [.regs, .out, .host, .ring, .ingest,
    .mst, .bist]) ∧
  (∀ (src : Src) (id : Nat), changesOnly (.sourceFrameStart src id) [.regs, .ring, .ingest]) ∧
  (∀ (record : Bytes), changesOnly (.faRecordRx record) [.regs, .out, .time, .host, .ring, .ingest, .mst, .bist]) ∧
  (∀ (src : Src) (line : Nat) (planes : List Bytes), changesOnly (.ctLineWritten src line planes) [.ingest]) ∧
  (∀ (flow : Fin 16), changesOnly (.igmpReportTimer flow) [.out, .ingest]) ∧
  (∀ (port : Fin 4) (group : Option Nat), changesOnly (.igmpQueryRx port group) [.regs, .out]) ∧
  (∀ (layer : Fin 16), changesOnly (.layerLatch layer) [.regs, .fresh, .out, .time, .host, .ring, .ingest, .mst,
    .bist]) ∧
  (∀ (layer : Fin 16), changesOnly (.layerCellSend layer) [.regs, .fresh, .out, .host, .ring, .ingest, .mst, .bist]) ∧
  (∀ (rx : Fin 4) (req : Aux), changesOnly (.dprxAuxRequest rx req) [.fresh, .out])

/-- Each lamp command changes the named parts of the state alone: link, ring windows, folds and flocks stay. -/
def Obligations.LampFrames : Prop :=
  (∀ c ∈ ([.corrClear, .lampClear] : List Instr), changesOnly c [.regs]) ∧
  (changesOnly (.pushDeadline) [.regs, .fresh, .ring, .comp, .folds, .lamp]) ∧
  (∀ (group : Fin 4) (mismatch : Bool), ∀ c ∈ ([.lsyncEdge group, .lsyncPulseEnd group mismatch] : List Instr),
    changesOnly c [.regs, .out, .lamp]) ∧
  (∀ (port : Fin 16) (mismatch : Bool) (group : Fin 4), ∀ c ∈ ([.lampFrameSent port mismatch, .blank group,
    .timingHoldBlack group] : List Instr), changesOnly c [.regs, .fresh, .out, .lamp]) ∧
  (∀ (port : Fin 16) (err : Option (Nat × Nat)), changesOnly (.lineBufferFill port err) [.regs, .out, .host, .ring,
    .mst, .comp, .lamp, .bist]) ∧
  (∀ (port : Fin 16) (codes : List Nat) (group : Fin 4), ∀ c ∈ ([.lampFrameStart port, .statusResp port codes,
    .statusReadTimeout port, .driverProgram group, .timingHoldResume group, .diagProbe] : List Instr), changesOnly c
    [.regs, .lamp]) ∧
  (changesOnly (.swap) [.regs, .comp, .lamp]) ∧
  (∀ (port : Fin 16), ∀ c ∈ ([.lampRefreshExpire, .fullRefresh, .diagRoundStart, .returnLanePhaseAlign port] : List
    Instr), changesOnly c [.lamp]) ∧
  (changesOnly (.diagReadEnd) [.regs, .mem, .mst, .lamp])

/-- Each fold command changes the named parts of the state alone: frame memory, the link, time, the ingest and the
power state stay. -/
def Obligations.FoldFrames : Prop :=
  (∀ (fold : Fin 4) (value : Bool), ∀ c ∈ ([.foldEnable fold value, .activate fold] : List Instr), changesOnly c
    [.regs, .folds]) ∧
  (∀ (fold : Fin 4), changesOnly (.foldClear fold) [.regs]) ∧
  (∀ (fold : Fin 4), ∀ c ∈ ([.restart fold, .stop fold] : List Instr), changesOnly c [.folds]) ∧
  (∀ (fold : Fin 4) (upset : Option Upset), changesOnly (.pacingWindow fold upset) [.fresh, .folds]) ∧
  (∀ (fold : Fin 4), changesOnly (.foldRunComplete fold) [.regs, .fresh, .ring, .ingest, .folds]) ∧
  (∀ (fold : Fin 4) (err : Option PipeErr), changesOnly (.pipelineItemDone fold err) [.regs, .fresh, .out, .host,
    .ring, .mst, .comp, .folds, .lamp, .bist]) ∧
  (∀ (fold : Fin 4), ∀ c ∈ ([.waittExpire fold, .pauseEnd fold, .nop fold, .add fold, .sub fold, .andR fold, .orR
    fold, .xorR fold, .shl fold, .shr fold, .sar fold, .mul fold, .minR fold, .maxR fold, .cmp fold, .addi fold, .andi
    fold, .ori fold, .xori fold, .shli fold, .shri fold, .sari fold, .cmpi fold, .get fold, .qset fold, .qget fold,
    .qisect fold, .br fold, .ld fold, .st fold, .ldc fold, .qld fold, .qst fold, .waitt fold, .waith fold, .signal
    fold, .pause fold, .yield fold, .kortyTxbegin fold, .kortyTxend fold, .tdone fold, .trap fold, .halt fold] : List
    Instr), changesOnly c [.regs, .fresh, .out, .host, .ring, .comp, .folds, .bist]) ∧
  (∀ (fold : Fin 4), ∀ c ∈ ([.cull fold, .fetch fold, .scale fold, .csc fold, .blend fold, .angle fold, .correct fold,
    .crc fold, .push fold, .patgen fold] : List Instr), changesOnly c [.regs, .fresh, .out, .host, .ring, .comp,
    .folds, .lamp, .bist]) ∧
  (∀ (fold : Fin 4), ∀ c ∈ ([.flstage fold, .flvote fold] : List Instr), changesOnly c [.regs, .fresh, .out, .host,
    .ring, .comp, .folds, .bist, .flocks])

/-- Each memory, thermal and calibration command changes the named parts of the state alone. -/
def Obligations.MemoryThermalFrames : Prop :=
  (∀ (err : Option (Bool × Nat)), changesOnly (.scrubRead err) [.regs, .out, .host, .ring, .mst, .bist]) ∧
  (∀ (granule : Nat) (ch : Fin 8), ∀ c ∈ ([.correctedWriteback granule, .refreshDue ch] : List Instr), changesOnly c
    [.mst]) ∧
  (∀ (ch : Fin 8) (reqs : List MemReq), changesOnly (.memGrant ch reqs) [.regs, .mst]) ∧
  (∀ (ch : Fin 8), ∀ c ∈ ([.memTrackTimer ch, .memClear, .logRearm, .thermClear] : List Instr), changesOnly c [.regs])
    ∧
  (∀ (div : Fin 4) (region : Fin 6) (mask elem : Nat) (unit : Fin 5) (up : Bool), ∀ c ∈ ([.throttleDivWrite div,
    .throttleTick region, .calRun mask, .calRampStep unit elem up] : List Instr), changesOnly c [.regs, .therm]) ∧
  (∀ (power mv bad : List Nat), ∀ c ∈ ([.thermalModelUpdate power mv bad, .tripRestart] : List Instr), changesOnly c
    [.regs, .mem, .fresh, .out, .pwr, .xing, .time, .host, .ring, .link, .ingest, .mst, .comp, .folds, .lamp, .therm,
    .boot, .bist, .flocks, .txs, .latch]) ∧
  (∀ (kind : Fin 3) (temp : Int) (region : Fin 6) (state unit : Fin 5) (fail : Option Nat), ∀ c ∈ ([.sensorSample kind
    temp, .rateEval, .thresholdDwellExpire region state, .calUnitDone unit fail] : List Instr), changesOnly c [.regs,
    .out, .host, .ring, .therm]) ∧
  (changesOnly (.sensorFaultClear) [.regs, .out, .host, .ring]) ∧
  (changesOnly (.writeWindowOpen) [.regs, .therm, .boot])

/-- Each boot, security, self-test and pin command changes the named parts of the state alone. -/
def Obligations.BootTestFrames : Prop :=
  (∀ (flashOk clearOk : Bool) (failing : List (Nat × Nat × Nat × Bool)), changesOnly (.bootRomStart flashOk clearOk
    failing) [.regs, .fresh, .out, .pwr, .host, .ring, .comp, .folds, .boot, .bist]) ∧
  (∀ (failed : Option (Fin 8)) (mismatch journalOk : Bool), changesOnly (.memoryTrainingDone failed mismatch
    journalOk) [.regs, .mem, .fresh, .out, .pwr, .time, .host, .ring, .link, .mst, .comp, .folds, .therm, .boot,
    .bist]) ∧
  (∀ (ok : Bool), ∀ c ∈ ([.writeDeferExpire, .flashUnitDone ok] : List Instr), changesOnly c [.regs, .fresh, .out,
    .host, .ring, .mst, .boot, .bist, .flocks]) ∧
  (∀ (ctx : Fin 8) (version : Nat), ∀ c ∈ ([.beginDl ctx, .cancelDl ctx, .calBegin ctx, .calCancel ctx, .bootConfirm
    ctx version] : List Instr), changesOnly c [.regs, .fresh, .out, .host, .ring, .mst, .boot, .bist]) ∧
  (∀ (ctx : Fin 8) (slots : Nat), changesOnly (.secRevoke ctx slots) [.regs, .out, .host, .ring, .boot]) ∧
  (∀ (flock : Nat) (kind : Fin 4), ∀ c ∈ ([.activatePrepare flock, .confirmWindowExpire, .attestGo kind, .attestDone]
    : List Instr), changesOnly c [.regs, .boot]) ∧
  (changesOnly (.activationReset) [.regs, .mem, .fresh, .out, .pwr, .xing, .time, .host, .ring, .link, .ingest, .mst,
    .comp, .folds, .lamp, .therm, .boot, .bist, .flocks, .txs, .latch]) ∧
  (∀ (ctx : Fin 8) (target : Nat), changesOnly (.lcTransition ctx target) [.regs, .fresh, .out, .host, .ring, .boot])
    ∧
  (∀ (clearOk : Bool), ∀ c ∈ ([.lbGo clearOk, .mbGo clearOk] : List Instr), changesOnly c [.regs, .mem, .fresh, .out,
    .time, .host, .ring, .link, .ingest, .mst, .comp, .folds, .lamp, .boot, .bist]) ∧
  (∀ (clearOk : Bool), ∀ c ∈ ([.bistAbort, .jtagScanEntry clearOk] : List Instr), changesOnly c [.regs, .fresh, .out,
    .pwr, .xing, .time, .host, .ring, .link, .ingest, .mst, .comp, .folds, .lamp, .therm, .boot, .bist, .latch]) ∧
  (changesOnly (.bistClear) [.regs]) ∧
  (changesOnly (.bistPrecondSample) [.bist]) ∧
  (∀ (misr : Nat) (clearOk : Bool) (failure : Option (Nat × Nat × Bool)), ∀ c ∈ ([.lbistPartitionDone misr clearOk,
    .mbistInstanceDone failure clearOk] : List Instr), changesOnly c [.regs, .mem, .fresh, .out, .pwr, .xing, .time,
    .host, .ring, .link, .ingest, .mst, .comp, .folds, .lamp, .therm, .boot, .bist, .latch]) ∧
  (∀ c ∈ ([.onlineBistWindow, .onlineBistGapStart] : List Instr), changesOnly c [.regs, .bist]) ∧
  (changesOnly (.healthReportTimer) [.regs, .out, .ring, .bist]) ∧
  (∀ (addr : Nat) (payload : Bytes), changesOnly (.health addr payload) [.regs, .fresh, .out, .host, .ring, .bist]) ∧
  (∀ (pin : Fin 16) (value : Nat), changesOnly (.gpioCfgWrite pin value) [.regs, .out, .time])

/-- The named commands change no bit of any register outside the fields listed with them: timers, message senders and
waits change none, a CLEAR its counters alone, and an event its own status fields and the interrupt cause it raises.
-/
def Obligations.RegistersKept : Prop :=
  (∀ (a lane : Fin 32) (port : Fin 7) (tally granule line target asker ticket seq requester : Nat) (src : Src)
    (planes : List Bytes) (rx fold : Fin 4) (req : Aux) (body payload : Bytes) (ctx ch : Fin 8) (upset : Option
    Upset) (portReturnLanePhaseAlign : Fin 16) (isl : Fin 9), ∀ c ∈ ([.alarmPulseEnd a, .bistPrecondSample,
    .confirmTxEnd port, .copyAckRx tally, .correctedWriteback granule, .ctLineWritten src line planes,
    .diagRoundStart, .dprxAuxRequest rx req, .dprxHpdIrq rx, .fullRefresh, .helloTimer, .hurdleRepeatTimer,
    .injectGo lane, .injectRateTick lane, .joinRequestTimer, .keyx port body, .keyxTimer port, .lampRefreshExpire,
    .mgmtArpRx target asker, .mirrorAckRx ctx ticket, .pacingWindow fold upset, .pdelayTimer port, .pdreq port body,
    .poseRepeatTimer, .ptpDelayReqTimer, .ptpPdelayReqRx seq requester, .refreshDue ch, .replyRepeatTimer seq,
    .restart fold, .returnLanePhaseAlign portReturnLanePhaseAlign, .stop fold, .timeCellTimer port, .wallTimer,
    .windowReset payload, .xingAck isl line] : List Instr), keepsRegs c []) ∧
  (∀ (fold : Fin 4), keepsRegs (.activate fold) ((ofInst fold [F.FOLDn_STATUS_ACTIVATE_PENDING]))) ∧
  (∀ (fold : Fin 4) (value : Bool), keepsRegs (.foldEnable fold value) ((ofInst fold [F.FOLDn_STATUS_STATE,
    F.FOLDn_CTL_ENABLE]))) ∧
  (keepsRegs (.confirmWindowExpire) ((ofInst 0 [F.BOOT_CONFIRM_STATUS_LEFT]))) ∧
  (keepsRegs (.copyAckTimeout) ((ofInst 0 [F.RING_COPY_LATE]))) ∧
  (keepsRegs (.handbackCleanElapsed) ((ofInst 0 [F.RING_STATUS_HANDBACK_PENDING]))) ∧
  (∀ (port : Fin 7) (run : List Bytes) (block : Bytes), keepsRegs (.idleBlockRx port run block) ((ofInst port [F.PORTn_FRAGMENTS]))) ∧
  (∀ (port : Fin 16), keepsRegs (.lampFrameStart port) ((ofInst port [F.LAMP_PORTp_STARVED]))) ∧
  (∀ (group : Fin 4) (mismatch : Bool), keepsRegs (.lsyncPulseEnd group mismatch) ((ofInst group
    [F.LAMP_GRPg_STATUS_LSYNC_FAULT]))) ∧
  (∀ (ch : Fin 8), keepsRegs (.memTrackTimer ch) ((ofInst ch [F.MEM_CHn_TRACK]))) ∧
  (∀ (flow : Fin 16), keepsRegs (.stflowReceivingLapse flow) ((ofInst flow [F.STFLOWn_STATUS_RECEIVING]))) ∧
  (keepsRegs (.staleClr) ((ofInst 0 [F.FLOCK_STATUS_STALE_CONFIG]))) ∧
  (∀ (region : Fin 6), keepsRegs (.throttleTick region) (((List.range 4).map fun n => (F.FOLDn_PACE_DUTY, n, 0)))) ∧
  (∀ (div : Fin 4), keepsRegs (.throttleDivWrite div) (((F.THERM_THROTTLE_DIV_DIV, 0, 0) :: (List.range 4).map fun n
    => (F.FOLDn_PACE_DUTY, n, 0)))) ∧
  (∀ (kind : Fin 4), keepsRegs (.attestGo kind) ((ofInst 0 [F.SEC_ATTEST_CTL_BUSY, F.SEC_ATTEST_CTL_DONE]))) ∧
  (keepsRegs (.attestDone) (((F.SEC_ATTEST_CTL_BUSY, 0, 0) :: (F.SEC_ATTEST_CTL_DONE, 0, 0) :: (List.range 56).map
    fun k => (F.SEC_ATTEST_BUFk, 0, k)))) ∧
  (∀ (payload : Bytes) (tally : Nat), keepsRegs (.hurdle payload tally) ((ofInst 0 [F.COMP_STATUS_HURDLE_OOS,
    F.COMP_HURDLE_LATE]))) ∧
  (∀ (payload : Bytes) (tally : Nat), keepsRegs (.pose payload tally) ((ofInst 0 [F.CORR_STATUS_POSE_OOS,
    F.CORR_POSE_LATE]))) ∧
  (∀ (ch : Fin 8) (reqs : List MemReq), keepsRegs (.memGrant ch reqs) (((List.range 7).flatMap fun c =>
    [(F.MEM_CLASSc_GRANTS, c, 0), (F.MEM_CLASSc_WAIT_MAX, c, 0)]))) ∧
  (keepsRegs (.mirrorAckTimeout) ((ofInst 0 [F.RING_STATUS_MIRROR_UP, F.RING_MIRROR_DOWN]))) ∧
  (keepsRegs (.thermClear) (((F.THERM_WRITE_REFUSED, 0, 0) :: (F.THERM_THROTTLED_MS, 0, 0) :: (List.range 6).map fun
    r => (F.THERM_REGr_PEAK.whole, r, 0)))) ∧
  (keepsRegs (.timeCapture) ((ofInst 0 [F.TIME_CAP_SEC_LO, F.TIME_CAP_SEC_HI, F.TIME_CAP_NS, F.TIME_CAP_FRAC]))) ∧
  (∀ (rx : Fin 4) (rate lanes : Nat), keepsRegs (.dpLinkTrained rx rate lanes) ((ofInst rx [F.DPRXn_STATUS_LINK_UP,
    F.DPRXn_STATUS_RATE, F.DPRXn_STATUS_LANES, F.DPRXn_STATUS_CODING]))) ∧
  (∀ (payload : Bytes), keepsRegs (.assign payload) ((ofInst 0 [F.RING_TILE_STATUS_RING,
    F.RING_TILE_STATUS_ENUMERATED, F.RING_TILE_STATUS_EXCESS, F.RING_TILE_STATUS_GEN, F.RING_TILE_STATUS_HOP, F.RING_WALL] ++
    ((List.range 6).flatMap fun r => ofInst r [F.RINGr_INFO_TILES, F.RINGr_INFO_EXCESS, F.RINGr_INFO_CLOSED,
      F.RINGr_INFO_ENUM_DONE, F.RINGr_INFO_MISMAP, F.RINGr_INFO_A_SIDE])))) ∧
  (∀ (payload : Bytes), keepsRegs (.authority payload) ((ofInst 0 [F.RING_TILE_STATUS_BW_EAST, F.RING_BW_SERIAL_LO,
    F.RING_BW_SERIAL_HI]))) ∧
  (∀ (fold : Fin 4), keepsRegs (.foldClear fold) ((ofInst fold [F.FOLDn_RUNS, F.FOLDn_OVERRUNS, F.FOLDn_FAULTS,
    F.FOLDn_TRAPS, F.FOLDn_FAULT_CODE.whole, F.FOLDn_STATUS_TX_DISCARD]))) ∧
  (keepsRegs (.bistClear) ((ofInst 0 [F.BIST_LB_RUNS, F.BIST_LB_FAILS, F.BIST_LB_MISSED, F.BIST_MB_FAILS,
    F.BIST_REFUSALS]))) ∧
  (keepsRegs (.flockClear) ((ofInst 0 [F.FLOCK_COMMITS, F.FLOCK_ABORTS, F.FLOCK_LATE_VOTES, F.FLOCK_OOS_FRAMES]))) ∧
  (keepsRegs (.timeClear) ((ofInst 0 [F.TIME_HELD, F.TIME_PPS_REJECT, F.TIME_PD_TIMEOUT, F.TIME_CELL_LOST]))) ∧
  (∀ (a : Fin 32), keepsRegs (.alarmFire a) ((ofInst a [F.TIME_ALARMa_CTL_FIRED]) ++ (ofCtxs
    F.CTXn_IRQ_CAUSE_TIME))) ∧
  (keepsRegs (.sensorFaultClear) ((ofInst 0 [F.THERM_STATUS_SENSOR_FAULT, F.THERM_STATUS_SENSOR_REASON,
    F.THERM_EVENT_SENSOR_FAULT_CLEARED, F.THERM_BOUNDARY]) ++ (ofCtxs F.CTXn_IRQ_CAUSE_THERMAL))) ∧
  (∀ (kind : Fin 3) (temp : Int), keepsRegs (.sensorSample kind temp) ((ofInst 0 [F.THERM_STATUS_SENSOR_FAULT,
    F.THERM_STATUS_SENSOR_REASON, F.THERM_EVENT_SENSOR_FAULT_SET, F.THERM_BOUNDARY]) ++ (ofCtxs
    F.CTXn_IRQ_CAUSE_THERMAL))) ∧
  (keepsRegs (.memClear) ((ofInst 0 [F.MEM_CE, F.MEM_UE, F.MEM_SCRUB_PASSES] ++ ((List.range 7).flatMap fun c =>
    ofInst c [F.MEM_CLASSc_GRANTS, F.MEM_CLASSc_WAIT_MAX]) ++ (List.range 8).flatMap fun c => ofInst c
    [F.MEM_CHn_CE, F.MEM_CHn_UE, F.MEM_CHn_TRACK]))) ∧
  (∀ (payload : Bytes), keepsRegs (.wall payload) ((ofInst 0 [F.RING_TILE_STATUS_ENUMERATED, F.RING_TILE_STATUS_BW_EAST, F.RING_TILE_STATUS_PREFER, F.RING_TILE_STATUS_START, F.RING_TILE_STATUS_GEN, F.RING_WALL, F.RING_BW_SERIAL_LO, F.RING_BW_SERIAL_HI, F.RING_STATUS_START, F.RING_STATUS_COMPACT, F.RING_STATUS_PREFER] ++
    ((List.range 6).flatMap fun r => ofInst r [F.RINGr_INFO_ENUM_DONE])))) ∧
  (∀ (pin : Fin 16) (value : Nat), keepsRegs (.gpioCfgWrite pin value) ([(F.GPIOk_CFG_FUNC.whole, pin, 0)]))

/-! ### The machine -/

/-- While the run goes on, an instruction that writes a k register leaves every other k register, the q registers,
scratch and an open transaction; one that writes a q register leaves the k registers and scratch; a store leaves both
kinds of register; and all of them leave the program, the load image, the pipeline queue, the event flags, the strips
and every other fold. -/
def Obligations.FoldInstructionsKeep : Prop :=
  (∀ (s : State) (fold : Fin 4) (c : Instr) (w : Nat), c ∈ ([.add fold, .sub fold, .andR fold, .orR fold, .xorR fold,
    .shl fold, .shr fold, .sar fold, .mul fold, .minR fold, .maxR fold, .cmp fold, .addi fold, .andi fold, .ori fold,
    .xori fold, .shli fold, .shri fold, .sari fold, .cmpi fold, .get fold, .qget fold, .br fold, .ld fold, .ldc fold,
    .nop fold] : List Instr) → standsAt s fold w → yields (c) s fun t => t.inRun fold = true → keepsFold s t fold ∧
    (t.fold fold).q = (s.fold fold).q ∧ (t.fold fold).scratch = (s.fold fold).scratch ∧ (t.fold fold).tx = (s.fold
    fold).tx ∧ ∀ i : Nat, i < 32 → i ≠ kRd w → reg t fold i = reg s fold i) ∧
  (∀ (s : State) (fold : Fin 4) (c : Instr) (w : Nat), c ∈ ([.qset fold, .qisect fold, .qld fold] : List Instr) →
    standsAt s fold w → yields (c) s fun t => t.inRun fold = true → keepsFold s t fold ∧ (t.fold fold).k = (s.fold
    fold).k ∧ (t.fold fold).scratch = (s.fold fold).scratch ∧ (t.fold fold).tx = (s.fold fold).tx ∧ ∀ i : Nat, i < 16
    → i ≠ kQa w → i ≠ kRd w % 16 → t.qreg fold i = s.qreg fold i) ∧
  (∀ (s : State) (fold : Fin 4) (c : Instr) (w : Nat), c ∈ ([.st fold, .qst fold] : List Instr) → standsAt s fold w →
    yields (c) s fun t => t.inRun fold = true → keepsFold s t fold ∧ (t.fold fold).k = (s.fold fold).k ∧ (t.fold
    fold).q = (s.fold fold).q ∧ nzcv t fold = nzcv s fold ∧ t.mem = s.mem)

/-- With a command at the front of the queue a step is that command on the state with the rest of the queue; with
none, the step is the tick of assumption 4, the model's choice: the node clock and the lines that go on by time
advance, and no other part changes. -/
def Obligations.StepRunsTheFrontCommand : Prop :=
  (∀ (c : Instr) (s : State) (rest : List Instr), s.pending = c :: rest →
    step s = exec c { s with pending := rest }) ∧
  (∀ s : State, s.pending = [] → ∃ t : State, step s = .next t ∧ t.pending = [] ∧
    (∀ p : Part, p ∉ [Part.regs, .fresh, .out, .time, .link] → p.same s t) ∧
    (s.on iLINK = false → ∀ a : Nat, a ≠ F.MEM_STATUS_SCRUB_BEHIND.base → t.reg a = s.reg a) ∧ (s.on iTIME = true →
      t.time.clock = ((s.time.clock : Int) + 2 * (nsU : Nat) + 27 * s.sf F.TIME_RATE).toNat))

/-- No command stops the block: each answers a next state from every state, and so does a step; the spec names no
behaviour without an effect among the rows of the table. -/
def Obligations.EveryCommandAnswers : Prop :=
  (∀ (c : Instr) (s : State), ∃ t : State, exec c s = .next t) ∧ (∀ s : State, ∃ t : State, step s = .next t)

/-- After reset the register file and the frame memory are in canonical form, nothing waits, no island runs, and every
list that stands for a fixed number of like things has that number. -/
def Obligations.ResetWellFormed : Prop :=
  State.reset.wf ∧ State.reset.shaped ∧ State.reset.pending = [] ∧ State.reset.pwr.up = false

/-- From every state in canonical form, a step with any command at the front answers a state in canonical form:
registers and frame memory strictly rising and without an entry that reads as an unlisted one. -/
def Obligations.StepKeepsTheForm : Prop :=
  ∀ s t : State, s.wf → step s = .next t → t.wf

/-- The head has a fixed number of folds with their registers, of host contexts, islands, lanes, lamp ports with their
drivers, memory channels, thermal regions and self-test partitions: from every state with those numbers, a step with
any command at the front answers a state with those numbers. This is the premise on lengths that other statements
take. -/
def Obligations.StepKeepsTheShape : Prop :=
  ∀ s t : State, s.shaped → step s = .next t → t.shaped
end

