-- ==== Sys2Proof/Laws/Memory.lean ====
section
/-! SUPPORT. The register file and the frame memory: what a read gives after a write, and the canonical form that every write
keeps. -/
set_option Elab.async false
namespace Sys2Proof.Machine

/-! ### The register file -/

theorem RegFile.wf_iff (m : RegFile) : m.wf = true ↔ m.Pairwise (fun p q => p.1 < q.1) ∧ ∀ p ∈ m, p.2 ≠ 0 := by
  induction m with
  | nil => simp [RegFile.wf]
  | cons p r ih =>
    obtain ⟨a, x⟩ := p
    cases r with
    | nil => simp [RegFile.wf]
    | cons q r =>
      obtain ⟨b, y⟩ := q
      simp only [RegFile.wf, Bool.and_eq_true, decide_eq_true_eq, bne_iff_ne, ih, List.pairwise_cons, List.mem_cons,
        forall_eq_or_imp]
      constructor
      · rintro ⟨⟨h, hx⟩, ⟨h2, h3⟩, hy, h4⟩
        exact ⟨⟨⟨h, fun p hp => h.trans (h2 p hp)⟩, h2, h3⟩, hx, hy, h4⟩
      · rintro ⟨⟨⟨h, -⟩, h2, h3⟩, hx, hy, h4⟩
        exact ⟨⟨h, hx⟩, ⟨h2, h3⟩, hy, h4⟩

theorem RegFile.erase_wf {m : RegFile} (a : Nat) (h : m.wf = true) : (m.erase a).wf = true := by
  rw [RegFile.wf_iff] at h ⊢
  exact ⟨h.1.filter _, fun p hp => h.2 p (List.mem_filter.mp hp).1⟩

theorem RegFile.not_mem_erase (m : RegFile) (a : Nat) : ∀ p ∈ m.erase a, p.1 ≠ a := by
  intro p hp
  simpa using (List.mem_filter.mp hp).2

theorem RegFile.mem_insert {m : RegFile} {a : Nat} {v : Word} {p : Nat × Word} :
    p ∈ RegFile.insert a v m ↔ p = (a, v) ∨ p ∈ m := by
  induction m with
  | nil => simp [RegFile.insert]
  | cons q r ih =>
    obtain ⟨b, x⟩ := q
    simp only [RegFile.insert]
    split
    · simp
    · simp [ih, or_left_comm]

theorem RegFile.insert_wf {m : RegFile} {a : Nat} {v : Word} (hv : v ≠ 0) (ha : ∀ p ∈ m, p.1 ≠ a) (h : m.wf = true) :
    (RegFile.insert a v m).wf = true := by
  rw [RegFile.wf_iff] at h ⊢
  refine ⟨?_, fun p hp => ?_⟩
  · induction m with
    | nil => simp [RegFile.insert]
    | cons q r ih =>
      obtain ⟨b, x⟩ := q
      obtain ⟨hp, hn⟩ := h
      rw [List.pairwise_cons] at hp
      simp only [RegFile.insert]
      split
      case isTrue hlt =>
        rw [List.pairwise_cons, List.pairwise_cons]
        refine ⟨fun p hm => ?_, hp⟩
        rcases List.mem_cons.mp hm with rfl | hm
        · exact hlt
        · exact hlt.trans (hp.1 p hm)
      case isFalse hlt =>
        have hne : b ≠ a := ha (b, x) (by simp)
        rw [List.pairwise_cons]
        refine ⟨fun p hm => ?_, ih (fun p hm => ha p (by simp [hm])) ⟨hp.2, fun p hm => hn p (by simp [hm])⟩⟩
        rcases RegFile.mem_insert.mp hm with rfl | hm
        · simp only; omega
        · exact hp.1 p hm
  · rcases RegFile.mem_insert.mp hp with rfl | hp
    · exact hv
    · exact h.2 p hp

/-- A register write keeps the canonical form. -/
theorem RegFile.set_wf {m : RegFile} (a : Nat) (v : Word) (h : m.wf = true) : (m.set a v).wf = true := by
  unfold RegFile.set
  split
  · exact RegFile.erase_wf a h
  · exact RegFile.insert_wf ‹_› (RegFile.not_mem_erase m a) (RegFile.erase_wf a h)

theorem RegFile.get_insert (m : RegFile) (a : Nat) (v : Word) (b : Nat) (h : ∀ p ∈ m, p.1 ≠ a) :
    RegFile.get (RegFile.insert a v m) b = if b = a then v else RegFile.get m b := by
  induction m with
  | nil => simp [RegFile.insert, RegFile.get, eq_comm]
  | cons q r ih =>
    obtain ⟨c, x⟩ := q
    have hc : c ≠ a := h (c, x) (by simp)
    have ih := ih fun p hp => h p (by simp [hp])
    simp only [RegFile.insert]
    split
    · simp only [RegFile.get, eq_comm]
    · simp only [RegFile.get, ih]
      by_cases h1 : c = b
      · subst h1; simp [hc]
      · simp [h1]

theorem RegFile.get_erase (m : RegFile) (a b : Nat) : RegFile.get (m.erase a) b = if b = a then 0 else RegFile.get m b := by
  induction m with
  | nil => simp [RegFile.erase, RegFile.get]
  | cons q r ih =>
    obtain ⟨c, x⟩ := q
    unfold RegFile.erase at ih ⊢
    rw [List.filter_cons]
    by_cases h : c = a
    · subst h
      simp only [bne_self_eq_false, Bool.false_eq_true, if_false, ih, RegFile.get]
      by_cases h1 : b = c
      · simp [h1]
      · simp [h1, Ne.symm h1]
    · have hb : (c != a) = true := by simpa using h
      simp only [hb, if_true, RegFile.get, ih]
      by_cases h1 : c = b
      · subst h1; simp [h]
      · simp [h1]

/-- A read of a register after a write: the value written there, the old value elsewhere. -/
@[simp] theorem RegFile.get_set (m : RegFile) (a : Nat) (v : Word) (b : Nat) :
    RegFile.get (m.set a v) b = if b = a then v else RegFile.get m b := by
  unfold RegFile.set
  split
  · rename_i h; rw [RegFile.get_erase, h]
  · rw [RegFile.get_insert _ _ _ _ (RegFile.not_mem_erase m a), RegFile.get_erase]
    by_cases h : b = a <;> simp [h]

/-! ### Frame memory -/

theorem Memory.wf_iff (m : Memory) : m.wf = true ↔ m.Pairwise (fun p q => p.1 < q.1) ∧ ∀ p ∈ m, p.2 ≠ 0 := by
  induction m with
  | nil => simp [Memory.wf]
  | cons p r ih =>
    obtain ⟨a, x⟩ := p
    cases r with
    | nil => simp [Memory.wf]
    | cons q r =>
      obtain ⟨b, y⟩ := q
      simp only [Memory.wf, Bool.and_eq_true, decide_eq_true_eq, bne_iff_ne, ih, List.pairwise_cons, List.mem_cons,
        forall_eq_or_imp]
      constructor
      · rintro ⟨⟨h, hx⟩, ⟨h2, h3⟩, hy, h4⟩
        exact ⟨⟨⟨h, fun p hp => h.trans (h2 p hp)⟩, h2, h3⟩, hx, hy, h4⟩
      · rintro ⟨⟨⟨h, -⟩, h2, h3⟩, hx, hy, h4⟩
        exact ⟨⟨h, hx⟩, ⟨h2, h3⟩, hy, h4⟩

theorem Memory.filter_wf {m : Memory} (f : Host.Cell → Bool) (h : m.wf = true) : Memory.wf (m.filter f) = true := by
  rw [Memory.wf_iff] at h ⊢
  exact ⟨h.1.filter _, fun p hp => h.2 p (List.mem_filter.mp hp).1⟩

theorem Memory.mem_insert {m : Memory} {a : Nat} {v : Byte} {p : Host.Cell} :
    p ∈ Memory.insert a v m ↔ p = (a, v) ∨ p ∈ m := by
  induction m with
  | nil => simp [Memory.insert]
  | cons q r ih =>
    obtain ⟨b, x⟩ := q
    simp only [Memory.insert]
    split
    · simp
    · simp [ih, or_left_comm]

theorem Memory.insert_wf {m : Memory} {a : Nat} {v : Byte} (hv : v ≠ 0) (ha : ∀ p ∈ m, p.1 ≠ a) (h : m.wf = true) :
    (Memory.insert a v m).wf = true := by
  rw [Memory.wf_iff] at h ⊢
  refine ⟨?_, fun p hp => ?_⟩
  · induction m with
    | nil => simp [Memory.insert]
    | cons q r ih =>
      obtain ⟨b, x⟩ := q
      obtain ⟨hp, hn⟩ := h
      rw [List.pairwise_cons] at hp
      simp only [Memory.insert]
      split
      case isTrue hlt =>
        rw [List.pairwise_cons, List.pairwise_cons]
        refine ⟨fun p hm => ?_, hp⟩
        rcases List.mem_cons.mp hm with rfl | hm
        · exact hlt
        · exact hlt.trans (hp.1 p hm)
      case isFalse hlt =>
        have hne : b ≠ a := ha (b, x) (by simp)
        rw [List.pairwise_cons]
        refine ⟨fun p hm => ?_, ih (fun p hm => ha p (by simp [hm])) ⟨hp.2, fun p hm => hn p (by simp [hm])⟩⟩
        rcases Memory.mem_insert.mp hm with rfl | hm
        · simp only; omega
        · exact hp.1 p hm
  · rcases Memory.mem_insert.mp hp with rfl | hp
    · exact hv
    · exact h.2 p hp

theorem Memory.not_mem_filter (m : Memory) (a : Nat) : ∀ p ∈ m.filter (fun p => p.1 != a), p.1 ≠ a := by
  intro p hp
  simpa using (List.mem_filter.mp hp).2

/-- Writing a byte keeps the canonical form. -/
theorem Memory.set_wf {m : Memory} (a : Nat) (v : Byte) (h : m.wf = true) : (m.set a v).wf = true := by
  unfold Memory.set
  split
  · exact Memory.filter_wf _ h
  · exact Memory.insert_wf ‹_› (Memory.not_mem_filter m a) (Memory.filter_wf _ h)

/-- Writing bytes keeps the canonical form. -/
theorem Memory.write_wf {m : Memory} (a : Nat) (b : Bytes) (h : m.wf = true) : (m.write a b).wf = true := by
  induction b generalizing m a with
  | nil => exact h
  | cons x xs ih => exact ih _ (Memory.set_wf a x h)

theorem Memory.get_filter (m : Memory) (a b : Nat) :
    Memory.get (m.filter (fun p => p.1 != a)) b = if b = a then 0 else Memory.get m b := by
  induction m with
  | nil => simp [Memory.get]
  | cons q r ih =>
    obtain ⟨c, x⟩ := q
    rw [List.filter_cons]
    by_cases h : c = a
    · subst h
      simp only [bne_self_eq_false, Bool.false_eq_true, if_false, ih, Memory.get]
      by_cases h1 : b = c
      · simp [h1]
      · simp [h1, Ne.symm h1]
    · have hb : (c != a) = true := by simpa using h
      simp only [hb, if_true, Memory.get, ih]
      by_cases h1 : c = b
      · subst h1; simp [h]
      · simp [h1]

theorem Memory.get_insert (m : Memory) (a : Nat) (v : Byte) (b : Nat) (h : ∀ p ∈ m, p.1 ≠ a) :
    Memory.get (Memory.insert a v m) b = if b = a then v else Memory.get m b := by
  induction m with
  | nil => simp [Memory.insert, Memory.get, eq_comm]
  | cons q r ih =>
    obtain ⟨c, x⟩ := q
    have hc : c ≠ a := h (c, x) (by simp)
    have ih := ih fun p hp => h p (by simp [hp])
    simp only [Memory.insert]
    split
    · simp only [Memory.get, eq_comm]
    · simp only [Memory.get, ih]
      by_cases h1 : c = b
      · subst h1; simp [hc]
      · simp [h1]

/-- A read of a byte after a write of one byte. -/
@[simp] theorem Memory.get_set (m : Memory) (a : Nat) (v : Byte) (b : Nat) :
    Memory.get (m.set a v) b = if b = a then v else Memory.get m b := by
  unfold Memory.set
  split
  · rename_i h; rw [Memory.get_filter, h]
  · rw [Memory.get_insert _ _ _ _ (Memory.not_mem_filter m a), Memory.get_filter]
    by_cases h : b = a <;> simp [h]

/-- A write of bytes leaves every byte outside its span as it was. -/
theorem Memory.get_write_outside (m : Memory) (a : Nat) (b : Bytes) (x : Nat) (h : x < a ∨ a + b.length ≤ x) :
    Memory.get (m.write a b) x = Memory.get m x := by
  induction b generalizing m a with
  | nil => rfl
  | cons y ys ih =>
    simp only [List.length_cons] at h
    simp only [Memory.write]
    rw [ih _ _ (by omega), Memory.get_set, if_neg (by omega)]

/-- A read inside the span of a write gives the byte written. -/
theorem Memory.get_write_inside (m : Memory) (a : Nat) (b : Bytes) (k : Nat) (h : k < b.length) :
    Memory.get (m.write a b) (a + k) = b[k] := by
  induction b generalizing m a k with
  | nil => simp at h
  | cons y ys ih =>
    simp only [Memory.write]
    cases k with
    | zero => rw [Memory.get_write_outside _ _ _ _ (by omega)]; simp
    | succ k =>
      have := ih (m.set a y) (a + 1) k (by simpa using h)
      rw [show a + (k + 1) = a + 1 + k by omega, this]; rfl

end Sys2Proof.Machine
end

