-- ==== Sys2Proof/Laws/Lists.lean ====
section
/-! SUPPORT. A list after an update at one place: its length and its elements. -/
set_option Elab.async false
namespace Sys2Proof.Machine

/-- An update at one place keeps the length. -/
@[simp] theorem modAt_length {α : Type} (l : List α) (k : Nat) (f : α → α) : (modAt l k f).length = l.length := by
  induction l generalizing k with
  | nil => rfl
  | cons x xs ih => cases k <;> simp [modAt, ih]

/-- Element `k` after an update of element `k`. -/
theorem nth_modAt_same {α : Type} (l : List α) (k : Nat) (f : α → α) (d : α) (h : k < l.length) :
    nth (modAt l k f) k d = f (nth l k d) := by
  induction l generalizing k with
  | nil => simp at h
  | cons x xs ih =>
    cases k with
    | zero => rfl
    | succ k => exact ih k (by simpa using h)

/-- Every other element keeps its value. -/
theorem nth_modAt_ne {α : Type} (l : List α) (k j : Nat) (f : α → α) (d : α) (h : j ≠ k) :
    nth (modAt l k f) j d = nth l j d := by
  induction l generalizing k j with
  | nil => rfl
  | cons x xs ih =>
    cases k with
    | zero => cases j with
      | zero => exact absurd rfl h
      | succ j => rfl
    | succ k => cases j with
      | zero => rfl
      | succ j => exact ih k j (by simpa using h)

/-- An element of the list after an update at one place is an element before, or what the update makes of one. -/
theorem mem_modAt {α : Type} {l : List α} {k : Nat} {f : α → α} {y : α} (h : y ∈ modAt l k f) :
    y ∈ l ∨ ∃ x ∈ l, y = f x := by
  induction l generalizing k with
  | nil => simp [modAt] at h
  | cons x xs ih =>
    cases k with
    | zero =>
      simp only [modAt, List.mem_cons] at h
      rcases h with rfl | h
      · exact .inr ⟨x, by simp, rfl⟩
      · exact .inl (by simp [h])
    | succ k =>
      simp only [modAt, List.mem_cons] at h
      rcases h with rfl | h
      · exact .inl (by simp)
      · rcases ih h with h | ⟨z, hz, rfl⟩
        · exact .inl (by simp [h])
        · exact .inr ⟨z, by simp [hz], rfl⟩

end Sys2Proof.Machine
end

