-- ==== Sys2Proof/Laws/Within.lean ====
section
/-! SUPPORT. What an operation can do to the state, said once: `Within ps s t` holds when `t` differs from `s` in the parts `ps`
alone, has the canonical form if `s` has it, and keeps the number of each kind of thing. It composes, so each operation needs
one lemma. -/
set_option Elab.async false
namespace Sys2Proof.Machine

/-- The first list has no part outside the second. -/
def Part.subset (a b : List Part) : Bool := a.all fun p => b.contains p

/-- `t` differs from `s` in the parts `ps` alone, and keeps the canonical form and the shape. -/
def Within (ps : List Part) (s t : State) : Prop := sameBut ps s t ∧ (s.wf → t.wf) ∧ (s.shaped → t.shaped)

variable {ps qs : List Part} {s t u : State}

theorem Within.refl (ps : List Part) (s : State) : Within ps s s :=
  ⟨fun p _ => by cases p <;> rfl, id, id⟩

theorem Part.same_trans (p : Part) (h : p.same s t) (k : p.same t u) : p.same s u := by
  cases p <;> exact k.trans h

theorem Within.trans (h : Within ps s t) (k : Within ps t u) : Within ps s u :=
  ⟨fun p hp => p.same_trans (h.1 p hp) (k.1 p hp), fun w => k.2.1 (h.2.1 w), fun w => k.2.2 (h.2.2 w)⟩

theorem Part.mem_of_subset {p : Part} (h : Part.subset ps qs = true) (hp : p ∈ ps) : p ∈ qs := by
  have := List.all_eq_true.mp h p hp
  simpa using this

theorem Within.mono (h : Within ps s t) (k : Part.subset ps qs = true) : Within qs s t :=
  ⟨fun p hp => h.1 p fun q => hp (Part.mem_of_subset k q), h.2⟩

/-- `mono` in two steps: first to the parts that a higher-order operation names, then to those that its argument adds. -/
theorem Within.mono₂ {rs : List Part} (h : Within ps s t) (k : Part.subset ps qs = true) (l : Part.subset qs rs = true) :
    Within rs s t := (h.mono k).mono l

theorem Within.ite {c : Prop} [Decidable c] (h : Within ps s t) (k : Within ps s u) : Within ps s (if c then t else u) := by
  split <;> assumption

theorem Within.ite_fst {α : Type} {c : Prop} [Decidable c] {x y : State × α} (h : Within ps s x.1) (k : Within ps s y.1) :
    Within ps s (if c then x else y).1 := by
  split <;> assumption

/-- A step of a proof: what holds of a state on the way is used for the state at the end. -/
theorem Within.via (x : State) (h : Within ps s x) (k : Within ps s x → Within ps s t) : Within ps s t := k h

theorem Within.foldl {α : Type} (l : List α) (f : State → α → State) (hf : ∀ x a, Within ps x (f x a)) (h : Within ps s t) :
    Within ps s (l.foldl f t) := by
  induction l generalizing t with
  | nil => exact h
  | cons a l ih => exact ih (h.trans (hf _ _))

theorem Within.foldl_fst {α β : Type} (l : List α) (f : State × β → α → State × β) (z : State × β)
    (hf : ∀ x a, Within ps x.1 (f x a).1) (h : Within ps s z.1) : Within ps s (l.foldl f z).1 := by
  induction l generalizing z with
  | nil => exact h
  | cons a l ih => exact ih _ (h.trans (hf _ _))

theorem Within.each {α : Type} (l : List α) (f : State → α → State) (hf : ∀ x a, Within ps x (f x a)) (h : Within ps s t) :
    Within ps s (t.each l f) := Within.foldl l f hf h

theorem Within.when (c : Bool) (f : State → State) (hf : ∀ x, Within ps x (f x)) (h : Within ps s t) :
    Within ps s (t.when c f) := Within.ite (h.trans (hf _)) h

/-- An update of parts other than registers and memory. -/
theorem Within.upd (h : ∀ p, p ∈ ps ∨ p.same s t) (r : t.regs = s.regs) (m : t.mem = s.mem)
    (q : s.shaped → t.shaped := by first | exact fun h => h | (intro h; simp_all [State.shaped])) : Within ps s t :=
  ⟨fun p hp => (h p).resolve_left hp, fun w => by unfold State.wf; rw [r, m]; exact w, q⟩

/-- From what holds of the state after a command to what holds of the next state it answers. -/
theorem Within.of_next {o : Host.Outcome State Fault Refusal} (h : Within ps s (outcomeState o s)) (k : o = .next t) :
    Within ps s t := by
  subst k
  exact h

/-! What `Within` says of each part outside the list. -/

theorem Within.same_regs (h : Within ps s t) (k : Part.regs ∉ ps := by decide) : t.regs = s.regs := h.1 .regs k
theorem Within.same_mem (h : Within ps s t) (k : Part.mem ∉ ps := by decide) : t.mem = s.mem := h.1 .mem k
theorem Within.same_fresh (h : Within ps s t) (k : Part.fresh ∉ ps := by decide) : t.fresh = s.fresh := h.1 .fresh k
theorem Within.same_out (h : Within ps s t) (k : Part.out ∉ ps := by decide) : t.out = s.out := h.1 .out k
theorem Within.same_pwr (h : Within ps s t) (k : Part.pwr ∉ ps := by decide) : t.pwr = s.pwr := h.1 .pwr k
theorem Within.same_xing (h : Within ps s t) (k : Part.xing ∉ ps := by decide) : t.xing = s.xing := h.1 .xing k
theorem Within.same_time (h : Within ps s t) (k : Part.time ∉ ps := by decide) : t.time = s.time := h.1 .time k
theorem Within.same_host (h : Within ps s t) (k : Part.host ∉ ps := by decide) : t.host = s.host := h.1 .host k
theorem Within.same_ring (h : Within ps s t) (k : Part.ring ∉ ps := by decide) : t.ring = s.ring := h.1 .ring k
theorem Within.same_link (h : Within ps s t) (k : Part.link ∉ ps := by decide) : t.link = s.link := h.1 .link k
theorem Within.same_ingest (h : Within ps s t) (k : Part.ingest ∉ ps := by decide) : t.ingest = s.ingest := h.1 .ingest k
theorem Within.same_mst (h : Within ps s t) (k : Part.mst ∉ ps := by decide) : t.mst = s.mst := h.1 .mst k
theorem Within.same_comp (h : Within ps s t) (k : Part.comp ∉ ps := by decide) : t.comp = s.comp := h.1 .comp k
theorem Within.same_folds (h : Within ps s t) (k : Part.folds ∉ ps := by decide) : t.folds = s.folds := h.1 .folds k
theorem Within.same_lamp (h : Within ps s t) (k : Part.lamp ∉ ps := by decide) : t.lamp = s.lamp := h.1 .lamp k
theorem Within.same_therm (h : Within ps s t) (k : Part.therm ∉ ps := by decide) : t.therm = s.therm := h.1 .therm k
theorem Within.same_boot (h : Within ps s t) (k : Part.boot ∉ ps := by decide) : t.boot = s.boot := h.1 .boot k
theorem Within.same_bist (h : Within ps s t) (k : Part.bist ∉ ps := by decide) : t.bist = s.bist := h.1 .bist k
theorem Within.same_flocks (h : Within ps s t) (k : Part.flocks ∉ ps := by decide) : t.flocks = s.flocks := h.1 .flocks k
theorem Within.same_txs (h : Within ps s t) (k : Part.txs ∉ ps := by decide) : t.txs = s.txs := h.1 .txs k
theorem Within.same_latch (h : Within ps s t) (k : Part.latch ∉ ps := by decide) : t.latch = s.latch := h.1 .latch k
theorem Within.same_pending (h : Within ps s t) (k : Part.pending ∉ ps := by decide) : t.pending = s.pending := h.1 .pending k

end Sys2Proof.Machine
end

