-- ==== Sys2Proof/Laws/Base.lean ====
section
/-! SUPPORT. What the elementary operations that touch registers or memory as a whole can do to the state. -/
set_option Elab.async false
namespace Sys2Proof.Machine

theorem State.setReg_within (s : State) (a : Nat) (v : Word) : Within [.regs] s (s.setReg a v) :=
  ⟨fun p _ => by cases p <;> first | rfl | contradiction, fun w => ⟨RegFile.set_wf a v w.1, w.2⟩, id⟩

theorem State.memWrite_within (s : State) (a : Nat) (b : Bytes) : Within [.mem, .mst] s (s.memWrite a b) :=
  ⟨fun p _ => by cases p <;> first | rfl | contradiction, fun w => ⟨w.1, Memory.write_wf a b w.2⟩, id⟩

theorem State.clearSpan_within (s : State) (a n : Nat) : Within [.mem, .mst] s (s.clearSpan a n) :=
  ⟨fun p _ => by cases p <;> first | rfl | contradiction, fun w => ⟨w.1, Memory.filter_wf _ w.2⟩, id⟩

theorem resetCells_wf : RegFile.wf resetCells = true := by decide +kernel

theorem foldl_set_wf {α : Type} (f : α → Nat) (g : α → Word) (l : List α) (m : RegFile) (h : m.wf = true) :
    RegFile.wf (l.foldl (fun m a => RegFile.set m (f a) (g a)) m) = true := by
  induction l generalizing m with
  | nil => exact h
  | cons a l ih => exact ih _ (RegFile.set_wf _ _ h)

/-- The reset values of either role are in canonical form. -/
theorem resetRegs_wf (head : Bool) : (resetRegs head).wf = true := by
  unfold resetRegs
  split
  · have h := resetCells_wf
    revert h
    generalize resetCells = m
    generalize headResets = l
    intro h
    exact foldl_set_wf (fun p => p.1) (fun p => p.2) l m h
  · exact resetCells_wf

theorem State.loadResets_within (s : State) (head : Bool) : Within [.regs] s (s.loadResets head) :=
  ⟨fun p _ => by cases p <;> first | rfl | contradiction, fun w => ⟨resetRegs_wf head, w.2⟩, id⟩

/-- Right after power-on every number is the chapters' own. -/
theorem State.reset_shaped : State.reset.shaped := by decide +kernel

/-! An update of one part keeps the shape if the function on the part does. -/

theorem State.onPwr_within (s : State) (f : Pwr → Pwr)
    (hf : ∀ x : Pwr, x.shaped → (f x).shaped := by
      first
      | exact fun _ h => h
      | (intro _ h; first | (simp_all [Pwr.shaped]; done) | (repeat' split) <;> first | exact h | (simp_all [Pwr.shaped]; done))) :
    Within [.pwr] s (State.onPwr s f) := by
  unfold State.onPwr
  exact Within.upd (fun p => by cases p <;> first | exact .inr rfl | exact .inl (by decide)) rfl rfl
    (fun w => ⟨hf _ w.1, w.2.1, w.2.2.1, w.2.2.2.1, w.2.2.2.2.1, w.2.2.2.2.2.1, w.2.2.2.2.2.2.1, w.2.2.2.2.2.2.2.1,
      w.2.2.2.2.2.2.2.2.1, w.2.2.2.2.2.2.2.2.2.1, w.2.2.2.2.2.2.2.2.2.2.1, w.2.2.2.2.2.2.2.2.2.2.2.1,
      w.2.2.2.2.2.2.2.2.2.2.2.2.1, w.2.2.2.2.2.2.2.2.2.2.2.2.2.1, w.2.2.2.2.2.2.2.2.2.2.2.2.2.2⟩)

theorem State.onXing_within (s : State) (f : Xing → Xing)
    (hf : ∀ x : Xing, x.shaped → (f x).shaped := by
      first
      | exact fun _ h => h
      | exact fun _ h => ⟨h.1, h.2.1, by split <;> rfl⟩
      | (intro _ h; first | (simp_all [Xing.shaped]; done) | (repeat' split) <;> first | exact h | (simp_all [Xing.shaped]; done))) :
    Within [.xing] s (State.onXing s f) := by
  unfold State.onXing
  exact Within.upd (fun p => by cases p <;> first | exact .inr rfl | exact .inl (by decide)) rfl rfl
    (fun w => ⟨w.1, hf _ w.2.1, w.2.2.1, w.2.2.2.1, w.2.2.2.2.1, w.2.2.2.2.2.1, w.2.2.2.2.2.2.1, w.2.2.2.2.2.2.2.1,
      w.2.2.2.2.2.2.2.2.1, w.2.2.2.2.2.2.2.2.2.1, w.2.2.2.2.2.2.2.2.2.2.1, w.2.2.2.2.2.2.2.2.2.2.2.1,
      w.2.2.2.2.2.2.2.2.2.2.2.2.1, w.2.2.2.2.2.2.2.2.2.2.2.2.2.1, w.2.2.2.2.2.2.2.2.2.2.2.2.2.2⟩)

theorem State.onHost_within (s : State) (f : HostSt → HostSt)
    (hf : ∀ x : HostSt, x.shaped → (f x).shaped := by
      first
      | exact fun _ h => h
      | (intro _ h; first | (simp_all [HostSt.shaped]; done) | (repeat' split) <;> first | exact h | (simp_all [HostSt.shaped]; done))) :
    Within [.host] s (State.onHost s f) := by
  unfold State.onHost
  exact Within.upd (fun p => by cases p <;> first | exact .inr rfl | exact .inl (by decide)) rfl rfl
    (fun w => ⟨w.1, w.2.1, hf _ w.2.2.1, w.2.2.2.1, w.2.2.2.2.1, w.2.2.2.2.2.1, w.2.2.2.2.2.2.1, w.2.2.2.2.2.2.2.1,
      w.2.2.2.2.2.2.2.2.1, w.2.2.2.2.2.2.2.2.2.1, w.2.2.2.2.2.2.2.2.2.2.1, w.2.2.2.2.2.2.2.2.2.2.2.1,
      w.2.2.2.2.2.2.2.2.2.2.2.2.1, w.2.2.2.2.2.2.2.2.2.2.2.2.2.1, w.2.2.2.2.2.2.2.2.2.2.2.2.2.2⟩)

theorem State.onTime_within (s : State) (f : Time → Time)
    (hf : ∀ x : Time, x.shaped → (f x).shaped := by
      first
      | exact fun _ h => h
      | (intro _ h; first | (simp_all [Time.shaped]; done) | (repeat' split) <;> first | exact h | (simp_all [Time.shaped]; done))) :
    Within [.time] s (State.onTime s f) := by
  unfold State.onTime
  exact Within.upd (fun p => by cases p <;> first | exact .inr rfl | exact .inl (by decide)) rfl rfl
    (fun w => ⟨w.1, w.2.1, w.2.2.1, hf _ w.2.2.2.1, w.2.2.2.2.1, w.2.2.2.2.2.1, w.2.2.2.2.2.2.1, w.2.2.2.2.2.2.2.1,
      w.2.2.2.2.2.2.2.2.1, w.2.2.2.2.2.2.2.2.2.1, w.2.2.2.2.2.2.2.2.2.2.1, w.2.2.2.2.2.2.2.2.2.2.2.1,
      w.2.2.2.2.2.2.2.2.2.2.2.2.1, w.2.2.2.2.2.2.2.2.2.2.2.2.2.1, w.2.2.2.2.2.2.2.2.2.2.2.2.2.2⟩)

theorem State.onLink_within (s : State) (f : Link → Link)
    (hf : ∀ x : Link, x.shaped → (f x).shaped := by
      first
      | exact fun _ h => h
      | (intro _ h; first | (simp_all [Link.shaped]; done) | (repeat' split) <;> first | exact h | (simp_all [Link.shaped]; done))) :
    Within [.link] s (State.onLink s f) := by
  unfold State.onLink
  exact Within.upd (fun p => by cases p <;> first | exact .inr rfl | exact .inl (by decide)) rfl rfl
    (fun w => ⟨w.1, w.2.1, w.2.2.1, w.2.2.2.1, w.2.2.2.2.1, hf _ w.2.2.2.2.2.1, w.2.2.2.2.2.2.1, w.2.2.2.2.2.2.2.1,
      w.2.2.2.2.2.2.2.2.1, w.2.2.2.2.2.2.2.2.2.1, w.2.2.2.2.2.2.2.2.2.2.1, w.2.2.2.2.2.2.2.2.2.2.2.1,
      w.2.2.2.2.2.2.2.2.2.2.2.2.1, w.2.2.2.2.2.2.2.2.2.2.2.2.2.1, w.2.2.2.2.2.2.2.2.2.2.2.2.2.2⟩)

theorem State.onRing_within (s : State) (f : Ring → Ring)
    (hf : ∀ x : Ring, x.shaped → (f x).shaped := by
      first
      | exact fun _ h => h
      | (intro _ h; first | (simp_all [Ring.shaped]; done) | (repeat' split) <;> first | exact h | (simp_all [Ring.shaped]; done))) :
    Within [.ring] s (State.onRing s f) := by
  unfold State.onRing
  exact Within.upd (fun p => by cases p <;> first | exact .inr rfl | exact .inl (by decide)) rfl rfl
    (fun w => ⟨w.1, w.2.1, w.2.2.1, w.2.2.2.1, hf _ w.2.2.2.2.1, w.2.2.2.2.2.1, w.2.2.2.2.2.2.1, w.2.2.2.2.2.2.2.1,
      w.2.2.2.2.2.2.2.2.1, w.2.2.2.2.2.2.2.2.2.1, w.2.2.2.2.2.2.2.2.2.2.1, w.2.2.2.2.2.2.2.2.2.2.2.1,
      w.2.2.2.2.2.2.2.2.2.2.2.2.1, w.2.2.2.2.2.2.2.2.2.2.2.2.2.1, w.2.2.2.2.2.2.2.2.2.2.2.2.2.2⟩)

theorem State.onIngest_within (s : State) (f : Ingest → Ingest)
    (hf : ∀ x : Ingest, x.shaped → (f x).shaped := by
      first
      | exact fun _ h => h
      | (intro _ h; first | (simp_all [Ingest.shaped]; done) | (repeat' split) <;> first | exact h | (simp_all [Ingest.shaped]; done))) :
    Within [.ingest] s (State.onIngest s f) := by
  unfold State.onIngest
  exact Within.upd (fun p => by cases p <;> first | exact .inr rfl | exact .inl (by decide)) rfl rfl
    (fun w => ⟨w.1, w.2.1, w.2.2.1, w.2.2.2.1, w.2.2.2.2.1, w.2.2.2.2.2.1, hf _ w.2.2.2.2.2.2.1, w.2.2.2.2.2.2.2.1,
      w.2.2.2.2.2.2.2.2.1, w.2.2.2.2.2.2.2.2.2.1, w.2.2.2.2.2.2.2.2.2.2.1, w.2.2.2.2.2.2.2.2.2.2.2.1,
      w.2.2.2.2.2.2.2.2.2.2.2.2.1, w.2.2.2.2.2.2.2.2.2.2.2.2.2.1, w.2.2.2.2.2.2.2.2.2.2.2.2.2.2⟩)

theorem State.onMst_within (s : State) (f : MemSt → MemSt)
    (hf : ∀ x : MemSt, x.shaped → (f x).shaped := by
      first
      | exact fun _ h => h
      | (intro _ h; first | (simp_all [MemSt.shaped]; done) | (repeat' split) <;> first | exact h | (simp_all [MemSt.shaped]; done))) :
    Within [.mst] s (State.onMst s f) := by
  unfold State.onMst
  exact Within.upd (fun p => by cases p <;> first | exact .inr rfl | exact .inl (by decide)) rfl rfl
    (fun w => ⟨w.1, w.2.1, w.2.2.1, w.2.2.2.1, w.2.2.2.2.1, w.2.2.2.2.2.1, w.2.2.2.2.2.2.1, hf _ w.2.2.2.2.2.2.2.1,
      w.2.2.2.2.2.2.2.2.1, w.2.2.2.2.2.2.2.2.2.1, w.2.2.2.2.2.2.2.2.2.2.1, w.2.2.2.2.2.2.2.2.2.2.2.1,
      w.2.2.2.2.2.2.2.2.2.2.2.2.1, w.2.2.2.2.2.2.2.2.2.2.2.2.2.1, w.2.2.2.2.2.2.2.2.2.2.2.2.2.2⟩)

theorem State.onComp_within (s : State) (f : Comp → Comp)
    (hf : ∀ x : Comp, x.shaped → (f x).shaped := by
      first
      | exact fun _ h => h
      | (intro _ h; first | (simp_all [Comp.shaped]; done) | (repeat' split) <;> first | exact h | (simp_all [Comp.shaped]; done))) :
    Within [.comp] s (State.onComp s f) := by
  unfold State.onComp
  exact Within.upd (fun p => by cases p <;> first | exact .inr rfl | exact .inl (by decide)) rfl rfl
    (fun w => ⟨w.1, w.2.1, w.2.2.1, w.2.2.2.1, w.2.2.2.2.1, w.2.2.2.2.2.1, w.2.2.2.2.2.2.1, w.2.2.2.2.2.2.2.1, hf _
      w.2.2.2.2.2.2.2.2.1, w.2.2.2.2.2.2.2.2.2.1, w.2.2.2.2.2.2.2.2.2.2.1, w.2.2.2.2.2.2.2.2.2.2.2.1,
      w.2.2.2.2.2.2.2.2.2.2.2.2.1, w.2.2.2.2.2.2.2.2.2.2.2.2.2.1, w.2.2.2.2.2.2.2.2.2.2.2.2.2.2⟩)

theorem State.onLamp_within (s : State) (f : Lamp → Lamp)
    (hf : ∀ x : Lamp, x.shaped → (f x).shaped := by
      first
      | exact fun _ h => h
      | exact fun _ h => ⟨h.1, (modAt_length ..).trans h.2.1, h.2.2⟩
      | exact fun _ h => ⟨h.1, (List.length_map ..).trans h.2.1, h.2.2⟩
      | exact fun _ h => ⟨(List.length_map ..).trans h.1, h.2.1, fun p hp => by
          obtain ⟨q, hq, rfl⟩ := List.mem_map.mp hp
          exact h.2.2 q hq⟩
      | (intro _ h; first | (simp_all [Lamp.shaped]; done) | (repeat' split) <;> first | exact h | (simp_all [Lamp.shaped]; done))) :
    Within [.lamp] s (State.onLamp s f) := by
  unfold State.onLamp
  exact Within.upd (fun p => by cases p <;> first | exact .inr rfl | exact .inl (by decide)) rfl rfl
    (fun w => ⟨w.1, w.2.1, w.2.2.1, w.2.2.2.1, w.2.2.2.2.1, w.2.2.2.2.2.1, w.2.2.2.2.2.2.1, w.2.2.2.2.2.2.2.1,
      w.2.2.2.2.2.2.2.2.1, w.2.2.2.2.2.2.2.2.2.1, hf _ w.2.2.2.2.2.2.2.2.2.2.1, w.2.2.2.2.2.2.2.2.2.2.2.1,
      w.2.2.2.2.2.2.2.2.2.2.2.2.1, w.2.2.2.2.2.2.2.2.2.2.2.2.2.1, w.2.2.2.2.2.2.2.2.2.2.2.2.2.2⟩)

theorem State.onTherm_within (s : State) (f : Therm → Therm)
    (hf : ∀ x : Therm, x.shaped → (f x).shaped := by
      first
      | exact fun _ h => h
      | (intro _ h; first | (simp_all [Therm.shaped]; done) | (repeat' split) <;> first | exact h | (simp_all [Therm.shaped]; done))) :
    Within [.therm] s (State.onTherm s f) := by
  unfold State.onTherm
  exact Within.upd (fun p => by cases p <;> first | exact .inr rfl | exact .inl (by decide)) rfl rfl
    (fun w => ⟨w.1, w.2.1, w.2.2.1, w.2.2.2.1, w.2.2.2.2.1, w.2.2.2.2.2.1, w.2.2.2.2.2.2.1, w.2.2.2.2.2.2.2.1,
      w.2.2.2.2.2.2.2.2.1, w.2.2.2.2.2.2.2.2.2.1, w.2.2.2.2.2.2.2.2.2.2.1, hf _ w.2.2.2.2.2.2.2.2.2.2.2.1,
      w.2.2.2.2.2.2.2.2.2.2.2.2.1, w.2.2.2.2.2.2.2.2.2.2.2.2.2.1, w.2.2.2.2.2.2.2.2.2.2.2.2.2.2⟩)

theorem State.onBoot_within (s : State) (f : Boot → Boot)
    (hf : ∀ x : Boot, x.shaped → (f x).shaped := by
      first
      | exact fun _ h => h
      | (intro _ h; first | (simp_all [Boot.shaped]; done) | (repeat' split) <;> first | exact h | (simp_all [Boot.shaped]; done))) :
    Within [.boot] s (State.onBoot s f) := by
  unfold State.onBoot
  exact Within.upd (fun p => by cases p <;> first | exact .inr rfl | exact .inl (by decide)) rfl rfl
    (fun w => ⟨w.1, w.2.1, w.2.2.1, w.2.2.2.1, w.2.2.2.2.1, w.2.2.2.2.2.1, w.2.2.2.2.2.2.1, w.2.2.2.2.2.2.2.1,
      w.2.2.2.2.2.2.2.2.1, w.2.2.2.2.2.2.2.2.2.1, w.2.2.2.2.2.2.2.2.2.2.1, w.2.2.2.2.2.2.2.2.2.2.2.1, hf _
      w.2.2.2.2.2.2.2.2.2.2.2.2.1, w.2.2.2.2.2.2.2.2.2.2.2.2.2.1, w.2.2.2.2.2.2.2.2.2.2.2.2.2.2⟩)

theorem State.onBist_within (s : State) (f : Bist → Bist)
    (hf : ∀ x : Bist, x.shaped → (f x).shaped := by
      first
      | exact fun _ h => h
      | (intro _ h; first | (simp_all [Bist.shaped]; done) | (repeat' split) <;> first | exact h | (simp_all [Bist.shaped]; done))) :
    Within [.bist] s (State.onBist s f) := by
  unfold State.onBist
  exact Within.upd (fun p => by cases p <;> first | exact .inr rfl | exact .inl (by decide)) rfl rfl
    (fun w => ⟨w.1, w.2.1, w.2.2.1, w.2.2.2.1, w.2.2.2.2.1, w.2.2.2.2.2.1, w.2.2.2.2.2.2.1, w.2.2.2.2.2.2.2.1,
      w.2.2.2.2.2.2.2.2.1, w.2.2.2.2.2.2.2.2.2.1, w.2.2.2.2.2.2.2.2.2.2.1, w.2.2.2.2.2.2.2.2.2.2.2.1,
      w.2.2.2.2.2.2.2.2.2.2.2.2.1, hf _ w.2.2.2.2.2.2.2.2.2.2.2.2.2.1, w.2.2.2.2.2.2.2.2.2.2.2.2.2.2⟩)

theorem State.onFold_within (s : State) (n : Nat) (f : Fold → Fold)
    (hf : ∀ x : Fold, x.shaped → (f x).shaped := by
      first
      | exact fun _ h => h
      | (intro _ h; first | (simp_all [Fold.shaped]; done) | (repeat' split) <;> first | exact h | (simp_all [Fold.shaped]; done))) :
    Within [.folds] s (State.onFold s n f) := by
  unfold State.onFold
  refine Within.upd (fun p => by cases p <;> first | exact .inr rfl | exact .inl (by decide)) rfl rfl fun w => ?_
  obtain ⟨w0, w1, w2, w3, w4, w5, w6, w7, w8, ⟨w9, wf⟩, wr⟩ := w
  refine ⟨w0, w1, w2, w3, w4, w5, w6, w7, w8, ⟨(modAt_length ..).trans w9, fun y hy => ?_⟩, wr⟩
  rcases mem_modAt hy with h | ⟨x, hx, rfl⟩
  · exact wf _ h
  · exact hf _ (wf _ hx)

end Sys2Proof.Machine
end

