-- ==== Sys2Proof/Laws/Cells.lean ====
section
/-! SUPPORT. Byte strings of numbers, and the checksum of a sealed cell (R118). -/
set_option Elab.async false
namespace Sys2Proof.Machine

@[simp] theorem toLE_length (n v : Nat) : (toLE n v).length = n := by
  induction n generalizing v with
  | zero => rfl
  | succ n ih => simp [toLE, ih]

/-- Reading back what `toLE` wrote. -/
theorem ofLE_toLE (n v : Nat) : ofLE (toLE n v) = v % 256 ^ n := by
  induction n generalizing v with
  | zero => simp [toLE, ofLE, Nat.mod_one]
  | succ n ih => simp [toLE, ofLE, ih, Nat.pow_succ', Nat.mod_mul]

/-- The check of a cell is the last 8 of its bytes. -/
theorem cCheck_append (b : Bytes) (v : Nat) (h : b.length = 504) : cCheck (b ++ toLE 8 v) = v % 2 ^ 64 := by
  have e : ((b ++ toLE 8 v).drop 504).take 8 = toLE 8 v := by
    rw [List.drop_append_of_le_length (by omega), List.drop_of_length_le (by omega)]
    simp
  simp only [cCheck, le, e, ofLE_toLE]
  norm_num

theorem take_append_check (b : Bytes) (v : Nat) (h : b.length = 504) : (b ++ toLE 8 v).take 504 = b := by
  rw [List.take_append_of_le_length (by omega), List.take_of_length_le (by omega)]

/-- A sealed cell passes the check of R118. -/
theorem cCheck_sealCell (b : Bytes) (h : b.length = 504) :
    cCheck (sealCell b) = (crc64 ((sealCell b).take 504)).toNat := by
  simp only [sealCell]
  rw [cCheck_append b _ h, take_append_check b _ h]
  exact Nat.mod_eq_of_lt (crc64 b).isLt

/-- A sealed cell with its check inverted is one cut short in transit (R119). -/
theorem cCheck_inverted (b : Bytes) (h : b.length = 504) :
    cCheck (b ++ toLE 8 (2 ^ 64 - 1 - (crc64 b).toNat)) =
      2 ^ 64 - 1 - (crc64 ((b ++ toLE 8 (2 ^ 64 - 1 - (crc64 b).toNat)).take 504)).toNat := by
  rw [cCheck_append b _ h, take_append_check b _ h]
  exact Nat.mod_eq_of_lt (by omega)

/-- A check with one bit turned is neither the sum nor its complement. -/
theorem cCheck_turned (b : Bytes) (h : b.length = 504) :
    cCheck (b ++ toLE 8 (crc64 b ^^^ 1).toNat) ≠ (crc64 ((b ++ toLE 8 (crc64 b ^^^ 1).toNat).take 504)).toNat ∧
      cCheck (b ++ toLE 8 (crc64 b ^^^ 1).toNat) ≠
        2 ^ 64 - 1 - (crc64 ((b ++ toLE 8 (crc64 b ^^^ 1).toNat).take 504)).toNat := by
  rw [cCheck_append b _ h, take_append_check b _ h, Nat.mod_eq_of_lt (crc64 b ^^^ 1).isLt]
  have h0 : ((crc64 b) ^^^ 1).getLsbD 0 ≠ (crc64 b).getLsbD 0 := by simp
  have h1 : ((crc64 b) ^^^ 1).getLsbD 1 = (crc64 b).getLsbD 1 := by simp
  refine ⟨fun e => h0 ?_, fun e => ?_⟩
  · rw [BitVec.eq_of_toNat_eq e]
  · have e' : (crc64 b) ^^^ 1 = ~~~(crc64 b) := BitVec.eq_of_toNat_eq (by rw [e, BitVec.toNat_not])
    rw [e', BitVec.getLsbD_not] at h1
    simp at h1

end Sys2Proof.Machine
end

