-- ==== Sys2Proof/Laws/LineCode.lean ====
section
/-! SUPPORT. The line codes are read as they are written: symbols, precoding, scrambling, and the code groups of the Lamp Bus. -/
set_option Elab.async false
namespace Sys2Proof.Machine

/-- Table 3-3 gives each bit pair a symbol of its own. -/
@[simp] theorem ungray_gray (b1 b0 : Bool) : ungray (gray b1 b0) = (b1, b0) := by cases b1 <;> cases b0 <;> rfl

/-- A PAM4 symbol is one of four. -/
theorem gray_lt (b1 b0 : Bool) : gray b1 b0 < 4 := by cases b1 <;> cases b0 <;> decide

/-- Polarity inversion is its own inverse on PAM4 symbols. -/
theorem invertSymbol_twice (g : Nat) (h : g < 4) : invertSymbol false (invertSymbol false g) = g := by
  simp [invertSymbol]; omega

/-- The receiver recovers what was precoded, from the same last symbol (R79). -/
theorem unprecode_precode (p : Nat) (l : List Nat) (h : ∀ g ∈ l, g < 4) : unprecode p (precode p l) = l := by
  induction l generalizing p with
  | nil => rfl
  | cons g r ih =>
    have hg := h g (by simp)
    simp only [precode, unprecode, ih _ fun x hx => h x (by simp [hx])]
    congr 1
    omega

/-- The descrambler, in the state of the scrambler, recovers the bits and keeps in step (R91). -/
theorem descramble_scramble (st : Nat) (l : List Bool) : descramble st (scramble st l).2 = ((scramble st l).1, l) := by
  induction l generalizing st with
  | nil => rfl
  | cons b r ih =>
    simp only [scramble, descramble, ih]
    cases b <;> cases bitOf st 38 <;> cases bitOf st 57 <;> rfl

/-- Each data byte is read back from its code group, with the disparity after it, at either disparity (R302). -/
theorem decodeData_encode : ∀ rd : Bool, ∀ b < 256, decodeData ((LChar.data b).encode rd).1 rd = some (b, ((LChar.data b).encode rd).2) := by
  decide +kernel

end Sys2Proof.Machine
end

