-- ==== Sys2Proof/Laws/State.lean ====
section
/-! SUPPORT. What each update of the state does to each part of it, and what a register field reads after a write. -/
set_option Elab.async false
namespace Sys2Proof.Machine

/-! ### One lemma for each part and each update -/

@[simp] theorem State.setReg_regs (s : State) (a : Nat) (v : Word) : (s.setReg a v).regs = s.regs.set a v := rfl
@[simp] theorem State.setReg_mem (s : State) (a : Nat) (v : Word) : (s.setReg a v).mem = s.mem := rfl
@[simp] theorem State.setReg_fresh (s : State) (a : Nat) (v : Word) : (s.setReg a v).fresh = s.fresh := rfl
@[simp] theorem State.setReg_out (s : State) (a : Nat) (v : Word) : (s.setReg a v).out = s.out := rfl
@[simp] theorem State.setReg_pwr (s : State) (a : Nat) (v : Word) : (s.setReg a v).pwr = s.pwr := rfl
@[simp] theorem State.setReg_xing (s : State) (a : Nat) (v : Word) : (s.setReg a v).xing = s.xing := rfl
@[simp] theorem State.setReg_time (s : State) (a : Nat) (v : Word) : (s.setReg a v).time = s.time := rfl
@[simp] theorem State.setReg_host (s : State) (a : Nat) (v : Word) : (s.setReg a v).host = s.host := rfl
@[simp] theorem State.setReg_ring (s : State) (a : Nat) (v : Word) : (s.setReg a v).ring = s.ring := rfl
@[simp] theorem State.setReg_link (s : State) (a : Nat) (v : Word) : (s.setReg a v).link = s.link := rfl
@[simp] theorem State.setReg_ingest (s : State) (a : Nat) (v : Word) : (s.setReg a v).ingest = s.ingest := rfl
@[simp] theorem State.setReg_mst (s : State) (a : Nat) (v : Word) : (s.setReg a v).mst = s.mst := rfl
@[simp] theorem State.setReg_comp (s : State) (a : Nat) (v : Word) : (s.setReg a v).comp = s.comp := rfl
@[simp] theorem State.setReg_folds (s : State) (a : Nat) (v : Word) : (s.setReg a v).folds = s.folds := rfl
@[simp] theorem State.setReg_lamp (s : State) (a : Nat) (v : Word) : (s.setReg a v).lamp = s.lamp := rfl
@[simp] theorem State.setReg_therm (s : State) (a : Nat) (v : Word) : (s.setReg a v).therm = s.therm := rfl
@[simp] theorem State.setReg_boot (s : State) (a : Nat) (v : Word) : (s.setReg a v).boot = s.boot := rfl
@[simp] theorem State.setReg_bist (s : State) (a : Nat) (v : Word) : (s.setReg a v).bist = s.bist := rfl
@[simp] theorem State.setReg_flocks (s : State) (a : Nat) (v : Word) : (s.setReg a v).flocks = s.flocks := rfl
@[simp] theorem State.setReg_txs (s : State) (a : Nat) (v : Word) : (s.setReg a v).txs = s.txs := rfl
@[simp] theorem State.setReg_latch (s : State) (a : Nat) (v : Word) : (s.setReg a v).latch = s.latch := rfl
@[simp] theorem State.setReg_pending (s : State) (a : Nat) (v : Word) : (s.setReg a v).pending = s.pending := rfl

@[simp] theorem State.put_mem (s : State) (f : Fld) (v i j : Nat) : (s.put f v i j).mem = s.mem := rfl
@[simp] theorem State.put_fresh (s : State) (f : Fld) (v i j : Nat) : (s.put f v i j).fresh = s.fresh := rfl
@[simp] theorem State.put_out (s : State) (f : Fld) (v i j : Nat) : (s.put f v i j).out = s.out := rfl
@[simp] theorem State.put_pwr (s : State) (f : Fld) (v i j : Nat) : (s.put f v i j).pwr = s.pwr := rfl
@[simp] theorem State.put_xing (s : State) (f : Fld) (v i j : Nat) : (s.put f v i j).xing = s.xing := rfl
@[simp] theorem State.put_time (s : State) (f : Fld) (v i j : Nat) : (s.put f v i j).time = s.time := rfl
@[simp] theorem State.put_host (s : State) (f : Fld) (v i j : Nat) : (s.put f v i j).host = s.host := rfl
@[simp] theorem State.put_ring (s : State) (f : Fld) (v i j : Nat) : (s.put f v i j).ring = s.ring := rfl
@[simp] theorem State.put_link (s : State) (f : Fld) (v i j : Nat) : (s.put f v i j).link = s.link := rfl
@[simp] theorem State.put_ingest (s : State) (f : Fld) (v i j : Nat) : (s.put f v i j).ingest = s.ingest := rfl
@[simp] theorem State.put_mst (s : State) (f : Fld) (v i j : Nat) : (s.put f v i j).mst = s.mst := rfl
@[simp] theorem State.put_comp (s : State) (f : Fld) (v i j : Nat) : (s.put f v i j).comp = s.comp := rfl
@[simp] theorem State.put_folds (s : State) (f : Fld) (v i j : Nat) : (s.put f v i j).folds = s.folds := rfl
@[simp] theorem State.put_lamp (s : State) (f : Fld) (v i j : Nat) : (s.put f v i j).lamp = s.lamp := rfl
@[simp] theorem State.put_therm (s : State) (f : Fld) (v i j : Nat) : (s.put f v i j).therm = s.therm := rfl
@[simp] theorem State.put_boot (s : State) (f : Fld) (v i j : Nat) : (s.put f v i j).boot = s.boot := rfl
@[simp] theorem State.put_bist (s : State) (f : Fld) (v i j : Nat) : (s.put f v i j).bist = s.bist := rfl
@[simp] theorem State.put_flocks (s : State) (f : Fld) (v i j : Nat) : (s.put f v i j).flocks = s.flocks := rfl
@[simp] theorem State.put_txs (s : State) (f : Fld) (v i j : Nat) : (s.put f v i j).txs = s.txs := rfl
@[simp] theorem State.put_latch (s : State) (f : Fld) (v i j : Nat) : (s.put f v i j).latch = s.latch := rfl
@[simp] theorem State.put_pending (s : State) (f : Fld) (v i j : Nat) : (s.put f v i j).pending = s.pending := rfl

@[simp] theorem State.flag_mem (s : State) (f : Fld) (v : Bool) (i j : Nat) : (s.flag f v i j).mem = s.mem := rfl
@[simp] theorem State.flag_fresh (s : State) (f : Fld) (v : Bool) (i j : Nat) : (s.flag f v i j).fresh = s.fresh := rfl
@[simp] theorem State.flag_out (s : State) (f : Fld) (v : Bool) (i j : Nat) : (s.flag f v i j).out = s.out := rfl
@[simp] theorem State.flag_pwr (s : State) (f : Fld) (v : Bool) (i j : Nat) : (s.flag f v i j).pwr = s.pwr := rfl
@[simp] theorem State.flag_xing (s : State) (f : Fld) (v : Bool) (i j : Nat) : (s.flag f v i j).xing = s.xing := rfl
@[simp] theorem State.flag_time (s : State) (f : Fld) (v : Bool) (i j : Nat) : (s.flag f v i j).time = s.time := rfl
@[simp] theorem State.flag_host (s : State) (f : Fld) (v : Bool) (i j : Nat) : (s.flag f v i j).host = s.host := rfl
@[simp] theorem State.flag_ring (s : State) (f : Fld) (v : Bool) (i j : Nat) : (s.flag f v i j).ring = s.ring := rfl
@[simp] theorem State.flag_link (s : State) (f : Fld) (v : Bool) (i j : Nat) : (s.flag f v i j).link = s.link := rfl
@[simp] theorem State.flag_ingest (s : State) (f : Fld) (v : Bool) (i j : Nat) : (s.flag f v i j).ingest = s.ingest := rfl
@[simp] theorem State.flag_mst (s : State) (f : Fld) (v : Bool) (i j : Nat) : (s.flag f v i j).mst = s.mst := rfl
@[simp] theorem State.flag_comp (s : State) (f : Fld) (v : Bool) (i j : Nat) : (s.flag f v i j).comp = s.comp := rfl
@[simp] theorem State.flag_folds (s : State) (f : Fld) (v : Bool) (i j : Nat) : (s.flag f v i j).folds = s.folds := rfl
@[simp] theorem State.flag_lamp (s : State) (f : Fld) (v : Bool) (i j : Nat) : (s.flag f v i j).lamp = s.lamp := rfl
@[simp] theorem State.flag_therm (s : State) (f : Fld) (v : Bool) (i j : Nat) : (s.flag f v i j).therm = s.therm := rfl
@[simp] theorem State.flag_boot (s : State) (f : Fld) (v : Bool) (i j : Nat) : (s.flag f v i j).boot = s.boot := rfl
@[simp] theorem State.flag_bist (s : State) (f : Fld) (v : Bool) (i j : Nat) : (s.flag f v i j).bist = s.bist := rfl
@[simp] theorem State.flag_flocks (s : State) (f : Fld) (v : Bool) (i j : Nat) : (s.flag f v i j).flocks = s.flocks := rfl
@[simp] theorem State.flag_txs (s : State) (f : Fld) (v : Bool) (i j : Nat) : (s.flag f v i j).txs = s.txs := rfl
@[simp] theorem State.flag_latch (s : State) (f : Fld) (v : Bool) (i j : Nat) : (s.flag f v i j).latch = s.latch := rfl
@[simp] theorem State.flag_pending (s : State) (f : Fld) (v : Bool) (i j : Nat) : (s.flag f v i j).pending = s.pending := rfl

@[simp] theorem State.putS_mem (s : State) (f : Fld) (v : Int) (i j : Nat) : (s.putS f v i j).mem = s.mem := rfl
@[simp] theorem State.putS_fresh (s : State) (f : Fld) (v : Int) (i j : Nat) : (s.putS f v i j).fresh = s.fresh := rfl
@[simp] theorem State.putS_out (s : State) (f : Fld) (v : Int) (i j : Nat) : (s.putS f v i j).out = s.out := rfl
@[simp] theorem State.putS_pwr (s : State) (f : Fld) (v : Int) (i j : Nat) : (s.putS f v i j).pwr = s.pwr := rfl
@[simp] theorem State.putS_xing (s : State) (f : Fld) (v : Int) (i j : Nat) : (s.putS f v i j).xing = s.xing := rfl
@[simp] theorem State.putS_time (s : State) (f : Fld) (v : Int) (i j : Nat) : (s.putS f v i j).time = s.time := rfl
@[simp] theorem State.putS_host (s : State) (f : Fld) (v : Int) (i j : Nat) : (s.putS f v i j).host = s.host := rfl
@[simp] theorem State.putS_ring (s : State) (f : Fld) (v : Int) (i j : Nat) : (s.putS f v i j).ring = s.ring := rfl
@[simp] theorem State.putS_link (s : State) (f : Fld) (v : Int) (i j : Nat) : (s.putS f v i j).link = s.link := rfl
@[simp] theorem State.putS_ingest (s : State) (f : Fld) (v : Int) (i j : Nat) : (s.putS f v i j).ingest = s.ingest := rfl
@[simp] theorem State.putS_mst (s : State) (f : Fld) (v : Int) (i j : Nat) : (s.putS f v i j).mst = s.mst := rfl
@[simp] theorem State.putS_comp (s : State) (f : Fld) (v : Int) (i j : Nat) : (s.putS f v i j).comp = s.comp := rfl
@[simp] theorem State.putS_folds (s : State) (f : Fld) (v : Int) (i j : Nat) : (s.putS f v i j).folds = s.folds := rfl
@[simp] theorem State.putS_lamp (s : State) (f : Fld) (v : Int) (i j : Nat) : (s.putS f v i j).lamp = s.lamp := rfl
@[simp] theorem State.putS_therm (s : State) (f : Fld) (v : Int) (i j : Nat) : (s.putS f v i j).therm = s.therm := rfl
@[simp] theorem State.putS_boot (s : State) (f : Fld) (v : Int) (i j : Nat) : (s.putS f v i j).boot = s.boot := rfl
@[simp] theorem State.putS_bist (s : State) (f : Fld) (v : Int) (i j : Nat) : (s.putS f v i j).bist = s.bist := rfl
@[simp] theorem State.putS_flocks (s : State) (f : Fld) (v : Int) (i j : Nat) : (s.putS f v i j).flocks = s.flocks := rfl
@[simp] theorem State.putS_txs (s : State) (f : Fld) (v : Int) (i j : Nat) : (s.putS f v i j).txs = s.txs := rfl
@[simp] theorem State.putS_latch (s : State) (f : Fld) (v : Int) (i j : Nat) : (s.putS f v i j).latch = s.latch := rfl
@[simp] theorem State.putS_pending (s : State) (f : Fld) (v : Int) (i j : Nat) : (s.putS f v i j).pending = s.pending := rfl

@[simp] theorem State.add_mem (s : State) (f : Fld) (n i j : Nat) : (s.add f n i j).mem = s.mem := rfl
@[simp] theorem State.add_fresh (s : State) (f : Fld) (n i j : Nat) : (s.add f n i j).fresh = s.fresh := rfl
@[simp] theorem State.add_out (s : State) (f : Fld) (n i j : Nat) : (s.add f n i j).out = s.out := rfl
@[simp] theorem State.add_pwr (s : State) (f : Fld) (n i j : Nat) : (s.add f n i j).pwr = s.pwr := rfl
@[simp] theorem State.add_xing (s : State) (f : Fld) (n i j : Nat) : (s.add f n i j).xing = s.xing := rfl
@[simp] theorem State.add_time (s : State) (f : Fld) (n i j : Nat) : (s.add f n i j).time = s.time := rfl
@[simp] theorem State.add_host (s : State) (f : Fld) (n i j : Nat) : (s.add f n i j).host = s.host := rfl
@[simp] theorem State.add_ring (s : State) (f : Fld) (n i j : Nat) : (s.add f n i j).ring = s.ring := rfl
@[simp] theorem State.add_link (s : State) (f : Fld) (n i j : Nat) : (s.add f n i j).link = s.link := rfl
@[simp] theorem State.add_ingest (s : State) (f : Fld) (n i j : Nat) : (s.add f n i j).ingest = s.ingest := rfl
@[simp] theorem State.add_mst (s : State) (f : Fld) (n i j : Nat) : (s.add f n i j).mst = s.mst := rfl
@[simp] theorem State.add_comp (s : State) (f : Fld) (n i j : Nat) : (s.add f n i j).comp = s.comp := rfl
@[simp] theorem State.add_folds (s : State) (f : Fld) (n i j : Nat) : (s.add f n i j).folds = s.folds := rfl
@[simp] theorem State.add_lamp (s : State) (f : Fld) (n i j : Nat) : (s.add f n i j).lamp = s.lamp := rfl
@[simp] theorem State.add_therm (s : State) (f : Fld) (n i j : Nat) : (s.add f n i j).therm = s.therm := rfl
@[simp] theorem State.add_boot (s : State) (f : Fld) (n i j : Nat) : (s.add f n i j).boot = s.boot := rfl
@[simp] theorem State.add_bist (s : State) (f : Fld) (n i j : Nat) : (s.add f n i j).bist = s.bist := rfl
@[simp] theorem State.add_flocks (s : State) (f : Fld) (n i j : Nat) : (s.add f n i j).flocks = s.flocks := rfl
@[simp] theorem State.add_txs (s : State) (f : Fld) (n i j : Nat) : (s.add f n i j).txs = s.txs := rfl
@[simp] theorem State.add_latch (s : State) (f : Fld) (n i j : Nat) : (s.add f n i j).latch = s.latch := rfl
@[simp] theorem State.add_pending (s : State) (f : Fld) (n i j : Nat) : (s.add f n i j).pending = s.pending := rfl

@[simp] theorem State.inc_mem (s : State) (f : Fld) (i j : Nat) : (s.inc f i j).mem = s.mem := rfl
@[simp] theorem State.inc_fresh (s : State) (f : Fld) (i j : Nat) : (s.inc f i j).fresh = s.fresh := rfl
@[simp] theorem State.inc_out (s : State) (f : Fld) (i j : Nat) : (s.inc f i j).out = s.out := rfl
@[simp] theorem State.inc_pwr (s : State) (f : Fld) (i j : Nat) : (s.inc f i j).pwr = s.pwr := rfl
@[simp] theorem State.inc_xing (s : State) (f : Fld) (i j : Nat) : (s.inc f i j).xing = s.xing := rfl
@[simp] theorem State.inc_time (s : State) (f : Fld) (i j : Nat) : (s.inc f i j).time = s.time := rfl
@[simp] theorem State.inc_host (s : State) (f : Fld) (i j : Nat) : (s.inc f i j).host = s.host := rfl
@[simp] theorem State.inc_ring (s : State) (f : Fld) (i j : Nat) : (s.inc f i j).ring = s.ring := rfl
@[simp] theorem State.inc_link (s : State) (f : Fld) (i j : Nat) : (s.inc f i j).link = s.link := rfl
@[simp] theorem State.inc_ingest (s : State) (f : Fld) (i j : Nat) : (s.inc f i j).ingest = s.ingest := rfl
@[simp] theorem State.inc_mst (s : State) (f : Fld) (i j : Nat) : (s.inc f i j).mst = s.mst := rfl
@[simp] theorem State.inc_comp (s : State) (f : Fld) (i j : Nat) : (s.inc f i j).comp = s.comp := rfl
@[simp] theorem State.inc_folds (s : State) (f : Fld) (i j : Nat) : (s.inc f i j).folds = s.folds := rfl
@[simp] theorem State.inc_lamp (s : State) (f : Fld) (i j : Nat) : (s.inc f i j).lamp = s.lamp := rfl
@[simp] theorem State.inc_therm (s : State) (f : Fld) (i j : Nat) : (s.inc f i j).therm = s.therm := rfl
@[simp] theorem State.inc_boot (s : State) (f : Fld) (i j : Nat) : (s.inc f i j).boot = s.boot := rfl
@[simp] theorem State.inc_bist (s : State) (f : Fld) (i j : Nat) : (s.inc f i j).bist = s.bist := rfl
@[simp] theorem State.inc_flocks (s : State) (f : Fld) (i j : Nat) : (s.inc f i j).flocks = s.flocks := rfl
@[simp] theorem State.inc_txs (s : State) (f : Fld) (i j : Nat) : (s.inc f i j).txs = s.txs := rfl
@[simp] theorem State.inc_latch (s : State) (f : Fld) (i j : Nat) : (s.inc f i j).latch = s.latch := rfl
@[simp] theorem State.inc_pending (s : State) (f : Fld) (i j : Nat) : (s.inc f i j).pending = s.pending := rfl

@[simp] theorem State.put64_mem (s : State) (lo hi : Fld) (v i : Nat) : (s.put64 lo hi v i).mem = s.mem := rfl
@[simp] theorem State.put64_fresh (s : State) (lo hi : Fld) (v i : Nat) : (s.put64 lo hi v i).fresh = s.fresh := rfl
@[simp] theorem State.put64_out (s : State) (lo hi : Fld) (v i : Nat) : (s.put64 lo hi v i).out = s.out := rfl
@[simp] theorem State.put64_pwr (s : State) (lo hi : Fld) (v i : Nat) : (s.put64 lo hi v i).pwr = s.pwr := rfl
@[simp] theorem State.put64_xing (s : State) (lo hi : Fld) (v i : Nat) : (s.put64 lo hi v i).xing = s.xing := rfl
@[simp] theorem State.put64_time (s : State) (lo hi : Fld) (v i : Nat) : (s.put64 lo hi v i).time = s.time := rfl
@[simp] theorem State.put64_host (s : State) (lo hi : Fld) (v i : Nat) : (s.put64 lo hi v i).host = s.host := rfl
@[simp] theorem State.put64_ring (s : State) (lo hi : Fld) (v i : Nat) : (s.put64 lo hi v i).ring = s.ring := rfl
@[simp] theorem State.put64_link (s : State) (lo hi : Fld) (v i : Nat) : (s.put64 lo hi v i).link = s.link := rfl
@[simp] theorem State.put64_ingest (s : State) (lo hi : Fld) (v i : Nat) : (s.put64 lo hi v i).ingest = s.ingest := rfl
@[simp] theorem State.put64_mst (s : State) (lo hi : Fld) (v i : Nat) : (s.put64 lo hi v i).mst = s.mst := rfl
@[simp] theorem State.put64_comp (s : State) (lo hi : Fld) (v i : Nat) : (s.put64 lo hi v i).comp = s.comp := rfl
@[simp] theorem State.put64_folds (s : State) (lo hi : Fld) (v i : Nat) : (s.put64 lo hi v i).folds = s.folds := rfl
@[simp] theorem State.put64_lamp (s : State) (lo hi : Fld) (v i : Nat) : (s.put64 lo hi v i).lamp = s.lamp := rfl
@[simp] theorem State.put64_therm (s : State) (lo hi : Fld) (v i : Nat) : (s.put64 lo hi v i).therm = s.therm := rfl
@[simp] theorem State.put64_boot (s : State) (lo hi : Fld) (v i : Nat) : (s.put64 lo hi v i).boot = s.boot := rfl
@[simp] theorem State.put64_bist (s : State) (lo hi : Fld) (v i : Nat) : (s.put64 lo hi v i).bist = s.bist := rfl
@[simp] theorem State.put64_flocks (s : State) (lo hi : Fld) (v i : Nat) : (s.put64 lo hi v i).flocks = s.flocks := rfl
@[simp] theorem State.put64_txs (s : State) (lo hi : Fld) (v i : Nat) : (s.put64 lo hi v i).txs = s.txs := rfl
@[simp] theorem State.put64_latch (s : State) (lo hi : Fld) (v i : Nat) : (s.put64 lo hi v i).latch = s.latch := rfl
@[simp] theorem State.put64_pending (s : State) (lo hi : Fld) (v i : Nat) : (s.put64 lo hi v i).pending = s.pending := rfl

@[simp] theorem State.zero_mem (s : State) (f : Fld) (i j : Nat) : (s.zero f i j).mem = s.mem := rfl
@[simp] theorem State.zero_fresh (s : State) (f : Fld) (i j : Nat) : (s.zero f i j).fresh = s.fresh := rfl
@[simp] theorem State.zero_out (s : State) (f : Fld) (i j : Nat) : (s.zero f i j).out = s.out := rfl
@[simp] theorem State.zero_pwr (s : State) (f : Fld) (i j : Nat) : (s.zero f i j).pwr = s.pwr := rfl
@[simp] theorem State.zero_xing (s : State) (f : Fld) (i j : Nat) : (s.zero f i j).xing = s.xing := rfl
@[simp] theorem State.zero_time (s : State) (f : Fld) (i j : Nat) : (s.zero f i j).time = s.time := rfl
@[simp] theorem State.zero_host (s : State) (f : Fld) (i j : Nat) : (s.zero f i j).host = s.host := rfl
@[simp] theorem State.zero_ring (s : State) (f : Fld) (i j : Nat) : (s.zero f i j).ring = s.ring := rfl
@[simp] theorem State.zero_link (s : State) (f : Fld) (i j : Nat) : (s.zero f i j).link = s.link := rfl
@[simp] theorem State.zero_ingest (s : State) (f : Fld) (i j : Nat) : (s.zero f i j).ingest = s.ingest := rfl
@[simp] theorem State.zero_mst (s : State) (f : Fld) (i j : Nat) : (s.zero f i j).mst = s.mst := rfl
@[simp] theorem State.zero_comp (s : State) (f : Fld) (i j : Nat) : (s.zero f i j).comp = s.comp := rfl
@[simp] theorem State.zero_folds (s : State) (f : Fld) (i j : Nat) : (s.zero f i j).folds = s.folds := rfl
@[simp] theorem State.zero_lamp (s : State) (f : Fld) (i j : Nat) : (s.zero f i j).lamp = s.lamp := rfl
@[simp] theorem State.zero_therm (s : State) (f : Fld) (i j : Nat) : (s.zero f i j).therm = s.therm := rfl
@[simp] theorem State.zero_boot (s : State) (f : Fld) (i j : Nat) : (s.zero f i j).boot = s.boot := rfl
@[simp] theorem State.zero_bist (s : State) (f : Fld) (i j : Nat) : (s.zero f i j).bist = s.bist := rfl
@[simp] theorem State.zero_flocks (s : State) (f : Fld) (i j : Nat) : (s.zero f i j).flocks = s.flocks := rfl
@[simp] theorem State.zero_txs (s : State) (f : Fld) (i j : Nat) : (s.zero f i j).txs = s.txs := rfl
@[simp] theorem State.zero_latch (s : State) (f : Fld) (i j : Nat) : (s.zero f i j).latch = s.latch := rfl
@[simp] theorem State.zero_pending (s : State) (f : Fld) (i j : Nat) : (s.zero f i j).pending = s.pending := rfl

@[simp] theorem State.emit_regs (s : State) (x : Out) : (s.emit x).regs = s.regs := rfl
@[simp] theorem State.emit_mem (s : State) (x : Out) : (s.emit x).mem = s.mem := rfl
@[simp] theorem State.emit_fresh (s : State) (x : Out) : (s.emit x).fresh = s.fresh := rfl
@[simp] theorem State.emit_out (s : State) (x : Out) : (s.emit x).out = s.out ++ [x] := rfl
@[simp] theorem State.emit_pwr (s : State) (x : Out) : (s.emit x).pwr = s.pwr := rfl
@[simp] theorem State.emit_xing (s : State) (x : Out) : (s.emit x).xing = s.xing := rfl
@[simp] theorem State.emit_time (s : State) (x : Out) : (s.emit x).time = s.time := rfl
@[simp] theorem State.emit_host (s : State) (x : Out) : (s.emit x).host = s.host := rfl
@[simp] theorem State.emit_ring (s : State) (x : Out) : (s.emit x).ring = s.ring := rfl
@[simp] theorem State.emit_link (s : State) (x : Out) : (s.emit x).link = s.link := rfl
@[simp] theorem State.emit_ingest (s : State) (x : Out) : (s.emit x).ingest = s.ingest := rfl
@[simp] theorem State.emit_mst (s : State) (x : Out) : (s.emit x).mst = s.mst := rfl
@[simp] theorem State.emit_comp (s : State) (x : Out) : (s.emit x).comp = s.comp := rfl
@[simp] theorem State.emit_folds (s : State) (x : Out) : (s.emit x).folds = s.folds := rfl
@[simp] theorem State.emit_lamp (s : State) (x : Out) : (s.emit x).lamp = s.lamp := rfl
@[simp] theorem State.emit_therm (s : State) (x : Out) : (s.emit x).therm = s.therm := rfl
@[simp] theorem State.emit_boot (s : State) (x : Out) : (s.emit x).boot = s.boot := rfl
@[simp] theorem State.emit_bist (s : State) (x : Out) : (s.emit x).bist = s.bist := rfl
@[simp] theorem State.emit_flocks (s : State) (x : Out) : (s.emit x).flocks = s.flocks := rfl
@[simp] theorem State.emit_txs (s : State) (x : Out) : (s.emit x).txs = s.txs := rfl
@[simp] theorem State.emit_latch (s : State) (x : Out) : (s.emit x).latch = s.latch := rfl
@[simp] theorem State.emit_pending (s : State) (x : Out) : (s.emit x).pending = s.pending := rfl

@[simp] theorem State.tickFresh_regs (s : State) : (s.tickFresh).regs = s.regs := rfl
@[simp] theorem State.tickFresh_mem (s : State) : (s.tickFresh).mem = s.mem := rfl
@[simp] theorem State.tickFresh_fresh (s : State) : (s.tickFresh).fresh = s.fresh + 1 := rfl
@[simp] theorem State.tickFresh_out (s : State) : (s.tickFresh).out = s.out := rfl
@[simp] theorem State.tickFresh_pwr (s : State) : (s.tickFresh).pwr = s.pwr := rfl
@[simp] theorem State.tickFresh_xing (s : State) : (s.tickFresh).xing = s.xing := rfl
@[simp] theorem State.tickFresh_time (s : State) : (s.tickFresh).time = s.time := rfl
@[simp] theorem State.tickFresh_host (s : State) : (s.tickFresh).host = s.host := rfl
@[simp] theorem State.tickFresh_ring (s : State) : (s.tickFresh).ring = s.ring := rfl
@[simp] theorem State.tickFresh_link (s : State) : (s.tickFresh).link = s.link := rfl
@[simp] theorem State.tickFresh_ingest (s : State) : (s.tickFresh).ingest = s.ingest := rfl
@[simp] theorem State.tickFresh_mst (s : State) : (s.tickFresh).mst = s.mst := rfl
@[simp] theorem State.tickFresh_comp (s : State) : (s.tickFresh).comp = s.comp := rfl
@[simp] theorem State.tickFresh_folds (s : State) : (s.tickFresh).folds = s.folds := rfl
@[simp] theorem State.tickFresh_lamp (s : State) : (s.tickFresh).lamp = s.lamp := rfl
@[simp] theorem State.tickFresh_therm (s : State) : (s.tickFresh).therm = s.therm := rfl
@[simp] theorem State.tickFresh_boot (s : State) : (s.tickFresh).boot = s.boot := rfl
@[simp] theorem State.tickFresh_bist (s : State) : (s.tickFresh).bist = s.bist := rfl
@[simp] theorem State.tickFresh_flocks (s : State) : (s.tickFresh).flocks = s.flocks := rfl
@[simp] theorem State.tickFresh_txs (s : State) : (s.tickFresh).txs = s.txs := rfl
@[simp] theorem State.tickFresh_latch (s : State) : (s.tickFresh).latch = s.latch := rfl
@[simp] theorem State.tickFresh_pending (s : State) : (s.tickFresh).pending = s.pending := rfl

@[simp] theorem State.memWrite_regs (s : State) (a : Nat) (b : Bytes) : (s.memWrite a b).regs = s.regs := rfl
@[simp] theorem State.memWrite_mem (s : State) (a : Nat) (b : Bytes) : (s.memWrite a b).mem = s.mem.write a b := rfl
@[simp] theorem State.memWrite_fresh (s : State) (a : Nat) (b : Bytes) : (s.memWrite a b).fresh = s.fresh := rfl
@[simp] theorem State.memWrite_out (s : State) (a : Nat) (b : Bytes) : (s.memWrite a b).out = s.out := rfl
@[simp] theorem State.memWrite_pwr (s : State) (a : Nat) (b : Bytes) : (s.memWrite a b).pwr = s.pwr := rfl
@[simp] theorem State.memWrite_xing (s : State) (a : Nat) (b : Bytes) : (s.memWrite a b).xing = s.xing := rfl
@[simp] theorem State.memWrite_time (s : State) (a : Nat) (b : Bytes) : (s.memWrite a b).time = s.time := rfl
@[simp] theorem State.memWrite_host (s : State) (a : Nat) (b : Bytes) : (s.memWrite a b).host = s.host := rfl
@[simp] theorem State.memWrite_ring (s : State) (a : Nat) (b : Bytes) : (s.memWrite a b).ring = s.ring := rfl
@[simp] theorem State.memWrite_link (s : State) (a : Nat) (b : Bytes) : (s.memWrite a b).link = s.link := rfl
@[simp] theorem State.memWrite_ingest (s : State) (a : Nat) (b : Bytes) : (s.memWrite a b).ingest = s.ingest := rfl
@[simp] theorem State.memWrite_comp (s : State) (a : Nat) (b : Bytes) : (s.memWrite a b).comp = s.comp := rfl
@[simp] theorem State.memWrite_folds (s : State) (a : Nat) (b : Bytes) : (s.memWrite a b).folds = s.folds := rfl
@[simp] theorem State.memWrite_lamp (s : State) (a : Nat) (b : Bytes) : (s.memWrite a b).lamp = s.lamp := rfl
@[simp] theorem State.memWrite_therm (s : State) (a : Nat) (b : Bytes) : (s.memWrite a b).therm = s.therm := rfl
@[simp] theorem State.memWrite_boot (s : State) (a : Nat) (b : Bytes) : (s.memWrite a b).boot = s.boot := rfl
@[simp] theorem State.memWrite_bist (s : State) (a : Nat) (b : Bytes) : (s.memWrite a b).bist = s.bist := rfl
@[simp] theorem State.memWrite_flocks (s : State) (a : Nat) (b : Bytes) : (s.memWrite a b).flocks = s.flocks := rfl
@[simp] theorem State.memWrite_txs (s : State) (a : Nat) (b : Bytes) : (s.memWrite a b).txs = s.txs := rfl
@[simp] theorem State.memWrite_latch (s : State) (a : Nat) (b : Bytes) : (s.memWrite a b).latch = s.latch := rfl
@[simp] theorem State.memWrite_pending (s : State) (a : Nat) (b : Bytes) : (s.memWrite a b).pending = s.pending := rfl

@[simp] theorem State.onTime_regs (s : State) (g : Time → Time) : (s.onTime g).regs = s.regs := rfl
@[simp] theorem State.onTime_mem (s : State) (g : Time → Time) : (s.onTime g).mem = s.mem := rfl
@[simp] theorem State.onTime_fresh (s : State) (g : Time → Time) : (s.onTime g).fresh = s.fresh := rfl
@[simp] theorem State.onTime_out (s : State) (g : Time → Time) : (s.onTime g).out = s.out := rfl
@[simp] theorem State.onTime_pwr (s : State) (g : Time → Time) : (s.onTime g).pwr = s.pwr := rfl
@[simp] theorem State.onTime_xing (s : State) (g : Time → Time) : (s.onTime g).xing = s.xing := rfl
@[simp] theorem State.onTime_time (s : State) (g : Time → Time) : (s.onTime g).time = g s.time := rfl
@[simp] theorem State.onTime_host (s : State) (g : Time → Time) : (s.onTime g).host = s.host := rfl
@[simp] theorem State.onTime_ring (s : State) (g : Time → Time) : (s.onTime g).ring = s.ring := rfl
@[simp] theorem State.onTime_link (s : State) (g : Time → Time) : (s.onTime g).link = s.link := rfl
@[simp] theorem State.onTime_ingest (s : State) (g : Time → Time) : (s.onTime g).ingest = s.ingest := rfl
@[simp] theorem State.onTime_mst (s : State) (g : Time → Time) : (s.onTime g).mst = s.mst := rfl
@[simp] theorem State.onTime_comp (s : State) (g : Time → Time) : (s.onTime g).comp = s.comp := rfl
@[simp] theorem State.onTime_folds (s : State) (g : Time → Time) : (s.onTime g).folds = s.folds := rfl
@[simp] theorem State.onTime_lamp (s : State) (g : Time → Time) : (s.onTime g).lamp = s.lamp := rfl
@[simp] theorem State.onTime_therm (s : State) (g : Time → Time) : (s.onTime g).therm = s.therm := rfl
@[simp] theorem State.onTime_boot (s : State) (g : Time → Time) : (s.onTime g).boot = s.boot := rfl
@[simp] theorem State.onTime_bist (s : State) (g : Time → Time) : (s.onTime g).bist = s.bist := rfl
@[simp] theorem State.onTime_flocks (s : State) (g : Time → Time) : (s.onTime g).flocks = s.flocks := rfl
@[simp] theorem State.onTime_txs (s : State) (g : Time → Time) : (s.onTime g).txs = s.txs := rfl
@[simp] theorem State.onTime_latch (s : State) (g : Time → Time) : (s.onTime g).latch = s.latch := rfl
@[simp] theorem State.onTime_pending (s : State) (g : Time → Time) : (s.onTime g).pending = s.pending := rfl

@[simp] theorem State.onRing_regs (s : State) (g : Ring → Ring) : (s.onRing g).regs = s.regs := rfl
@[simp] theorem State.onRing_mem (s : State) (g : Ring → Ring) : (s.onRing g).mem = s.mem := rfl
@[simp] theorem State.onRing_fresh (s : State) (g : Ring → Ring) : (s.onRing g).fresh = s.fresh := rfl
@[simp] theorem State.onRing_out (s : State) (g : Ring → Ring) : (s.onRing g).out = s.out := rfl
@[simp] theorem State.onRing_pwr (s : State) (g : Ring → Ring) : (s.onRing g).pwr = s.pwr := rfl
@[simp] theorem State.onRing_xing (s : State) (g : Ring → Ring) : (s.onRing g).xing = s.xing := rfl
@[simp] theorem State.onRing_time (s : State) (g : Ring → Ring) : (s.onRing g).time = s.time := rfl
@[simp] theorem State.onRing_host (s : State) (g : Ring → Ring) : (s.onRing g).host = s.host := rfl
@[simp] theorem State.onRing_ring (s : State) (g : Ring → Ring) : (s.onRing g).ring = g s.ring := rfl
@[simp] theorem State.onRing_link (s : State) (g : Ring → Ring) : (s.onRing g).link = s.link := rfl
@[simp] theorem State.onRing_ingest (s : State) (g : Ring → Ring) : (s.onRing g).ingest = s.ingest := rfl
@[simp] theorem State.onRing_mst (s : State) (g : Ring → Ring) : (s.onRing g).mst = s.mst := rfl
@[simp] theorem State.onRing_comp (s : State) (g : Ring → Ring) : (s.onRing g).comp = s.comp := rfl
@[simp] theorem State.onRing_folds (s : State) (g : Ring → Ring) : (s.onRing g).folds = s.folds := rfl
@[simp] theorem State.onRing_lamp (s : State) (g : Ring → Ring) : (s.onRing g).lamp = s.lamp := rfl
@[simp] theorem State.onRing_therm (s : State) (g : Ring → Ring) : (s.onRing g).therm = s.therm := rfl
@[simp] theorem State.onRing_boot (s : State) (g : Ring → Ring) : (s.onRing g).boot = s.boot := rfl
@[simp] theorem State.onRing_bist (s : State) (g : Ring → Ring) : (s.onRing g).bist = s.bist := rfl
@[simp] theorem State.onRing_flocks (s : State) (g : Ring → Ring) : (s.onRing g).flocks = s.flocks := rfl
@[simp] theorem State.onRing_txs (s : State) (g : Ring → Ring) : (s.onRing g).txs = s.txs := rfl
@[simp] theorem State.onRing_latch (s : State) (g : Ring → Ring) : (s.onRing g).latch = s.latch := rfl
@[simp] theorem State.onRing_pending (s : State) (g : Ring → Ring) : (s.onRing g).pending = s.pending := rfl

@[simp] theorem State.onHost_regs (s : State) (g : HostSt → HostSt) : (s.onHost g).regs = s.regs := rfl
@[simp] theorem State.onHost_mem (s : State) (g : HostSt → HostSt) : (s.onHost g).mem = s.mem := rfl
@[simp] theorem State.onHost_fresh (s : State) (g : HostSt → HostSt) : (s.onHost g).fresh = s.fresh := rfl
@[simp] theorem State.onHost_out (s : State) (g : HostSt → HostSt) : (s.onHost g).out = s.out := rfl
@[simp] theorem State.onHost_pwr (s : State) (g : HostSt → HostSt) : (s.onHost g).pwr = s.pwr := rfl
@[simp] theorem State.onHost_xing (s : State) (g : HostSt → HostSt) : (s.onHost g).xing = s.xing := rfl
@[simp] theorem State.onHost_time (s : State) (g : HostSt → HostSt) : (s.onHost g).time = s.time := rfl
@[simp] theorem State.onHost_host (s : State) (g : HostSt → HostSt) : (s.onHost g).host = g s.host := rfl
@[simp] theorem State.onHost_ring (s : State) (g : HostSt → HostSt) : (s.onHost g).ring = s.ring := rfl
@[simp] theorem State.onHost_link (s : State) (g : HostSt → HostSt) : (s.onHost g).link = s.link := rfl
@[simp] theorem State.onHost_ingest (s : State) (g : HostSt → HostSt) : (s.onHost g).ingest = s.ingest := rfl
@[simp] theorem State.onHost_mst (s : State) (g : HostSt → HostSt) : (s.onHost g).mst = s.mst := rfl
@[simp] theorem State.onHost_comp (s : State) (g : HostSt → HostSt) : (s.onHost g).comp = s.comp := rfl
@[simp] theorem State.onHost_folds (s : State) (g : HostSt → HostSt) : (s.onHost g).folds = s.folds := rfl
@[simp] theorem State.onHost_lamp (s : State) (g : HostSt → HostSt) : (s.onHost g).lamp = s.lamp := rfl
@[simp] theorem State.onHost_therm (s : State) (g : HostSt → HostSt) : (s.onHost g).therm = s.therm := rfl
@[simp] theorem State.onHost_boot (s : State) (g : HostSt → HostSt) : (s.onHost g).boot = s.boot := rfl
@[simp] theorem State.onHost_bist (s : State) (g : HostSt → HostSt) : (s.onHost g).bist = s.bist := rfl
@[simp] theorem State.onHost_flocks (s : State) (g : HostSt → HostSt) : (s.onHost g).flocks = s.flocks := rfl
@[simp] theorem State.onHost_txs (s : State) (g : HostSt → HostSt) : (s.onHost g).txs = s.txs := rfl
@[simp] theorem State.onHost_latch (s : State) (g : HostSt → HostSt) : (s.onHost g).latch = s.latch := rfl
@[simp] theorem State.onHost_pending (s : State) (g : HostSt → HostSt) : (s.onHost g).pending = s.pending := rfl

@[simp] theorem State.onPwr_regs (s : State) (g : Pwr → Pwr) : (s.onPwr g).regs = s.regs := rfl
@[simp] theorem State.onPwr_mem (s : State) (g : Pwr → Pwr) : (s.onPwr g).mem = s.mem := rfl
@[simp] theorem State.onPwr_fresh (s : State) (g : Pwr → Pwr) : (s.onPwr g).fresh = s.fresh := rfl
@[simp] theorem State.onPwr_out (s : State) (g : Pwr → Pwr) : (s.onPwr g).out = s.out := rfl
@[simp] theorem State.onPwr_pwr (s : State) (g : Pwr → Pwr) : (s.onPwr g).pwr = g s.pwr := rfl
@[simp] theorem State.onPwr_xing (s : State) (g : Pwr → Pwr) : (s.onPwr g).xing = s.xing := rfl
@[simp] theorem State.onPwr_time (s : State) (g : Pwr → Pwr) : (s.onPwr g).time = s.time := rfl
@[simp] theorem State.onPwr_host (s : State) (g : Pwr → Pwr) : (s.onPwr g).host = s.host := rfl
@[simp] theorem State.onPwr_ring (s : State) (g : Pwr → Pwr) : (s.onPwr g).ring = s.ring := rfl
@[simp] theorem State.onPwr_link (s : State) (g : Pwr → Pwr) : (s.onPwr g).link = s.link := rfl
@[simp] theorem State.onPwr_ingest (s : State) (g : Pwr → Pwr) : (s.onPwr g).ingest = s.ingest := rfl
@[simp] theorem State.onPwr_mst (s : State) (g : Pwr → Pwr) : (s.onPwr g).mst = s.mst := rfl
@[simp] theorem State.onPwr_comp (s : State) (g : Pwr → Pwr) : (s.onPwr g).comp = s.comp := rfl
@[simp] theorem State.onPwr_folds (s : State) (g : Pwr → Pwr) : (s.onPwr g).folds = s.folds := rfl
@[simp] theorem State.onPwr_lamp (s : State) (g : Pwr → Pwr) : (s.onPwr g).lamp = s.lamp := rfl
@[simp] theorem State.onPwr_therm (s : State) (g : Pwr → Pwr) : (s.onPwr g).therm = s.therm := rfl
@[simp] theorem State.onPwr_boot (s : State) (g : Pwr → Pwr) : (s.onPwr g).boot = s.boot := rfl
@[simp] theorem State.onPwr_bist (s : State) (g : Pwr → Pwr) : (s.onPwr g).bist = s.bist := rfl
@[simp] theorem State.onPwr_flocks (s : State) (g : Pwr → Pwr) : (s.onPwr g).flocks = s.flocks := rfl
@[simp] theorem State.onPwr_txs (s : State) (g : Pwr → Pwr) : (s.onPwr g).txs = s.txs := rfl
@[simp] theorem State.onPwr_latch (s : State) (g : Pwr → Pwr) : (s.onPwr g).latch = s.latch := rfl
@[simp] theorem State.onPwr_pending (s : State) (g : Pwr → Pwr) : (s.onPwr g).pending = s.pending := rfl

@[simp] theorem State.onXing_regs (s : State) (g : Xing → Xing) : (s.onXing g).regs = s.regs := rfl
@[simp] theorem State.onXing_mem (s : State) (g : Xing → Xing) : (s.onXing g).mem = s.mem := rfl
@[simp] theorem State.onXing_fresh (s : State) (g : Xing → Xing) : (s.onXing g).fresh = s.fresh := rfl
@[simp] theorem State.onXing_out (s : State) (g : Xing → Xing) : (s.onXing g).out = s.out := rfl
@[simp] theorem State.onXing_pwr (s : State) (g : Xing → Xing) : (s.onXing g).pwr = s.pwr := rfl
@[simp] theorem State.onXing_xing (s : State) (g : Xing → Xing) : (s.onXing g).xing = g s.xing := rfl
@[simp] theorem State.onXing_time (s : State) (g : Xing → Xing) : (s.onXing g).time = s.time := rfl
@[simp] theorem State.onXing_host (s : State) (g : Xing → Xing) : (s.onXing g).host = s.host := rfl
@[simp] theorem State.onXing_ring (s : State) (g : Xing → Xing) : (s.onXing g).ring = s.ring := rfl
@[simp] theorem State.onXing_link (s : State) (g : Xing → Xing) : (s.onXing g).link = s.link := rfl
@[simp] theorem State.onXing_ingest (s : State) (g : Xing → Xing) : (s.onXing g).ingest = s.ingest := rfl
@[simp] theorem State.onXing_mst (s : State) (g : Xing → Xing) : (s.onXing g).mst = s.mst := rfl
@[simp] theorem State.onXing_comp (s : State) (g : Xing → Xing) : (s.onXing g).comp = s.comp := rfl
@[simp] theorem State.onXing_folds (s : State) (g : Xing → Xing) : (s.onXing g).folds = s.folds := rfl
@[simp] theorem State.onXing_lamp (s : State) (g : Xing → Xing) : (s.onXing g).lamp = s.lamp := rfl
@[simp] theorem State.onXing_therm (s : State) (g : Xing → Xing) : (s.onXing g).therm = s.therm := rfl
@[simp] theorem State.onXing_boot (s : State) (g : Xing → Xing) : (s.onXing g).boot = s.boot := rfl
@[simp] theorem State.onXing_bist (s : State) (g : Xing → Xing) : (s.onXing g).bist = s.bist := rfl
@[simp] theorem State.onXing_flocks (s : State) (g : Xing → Xing) : (s.onXing g).flocks = s.flocks := rfl
@[simp] theorem State.onXing_txs (s : State) (g : Xing → Xing) : (s.onXing g).txs = s.txs := rfl
@[simp] theorem State.onXing_latch (s : State) (g : Xing → Xing) : (s.onXing g).latch = s.latch := rfl
@[simp] theorem State.onXing_pending (s : State) (g : Xing → Xing) : (s.onXing g).pending = s.pending := rfl

@[simp] theorem State.onMst_regs (s : State) (g : MemSt → MemSt) : (s.onMst g).regs = s.regs := rfl
@[simp] theorem State.onMst_mem (s : State) (g : MemSt → MemSt) : (s.onMst g).mem = s.mem := rfl
@[simp] theorem State.onMst_fresh (s : State) (g : MemSt → MemSt) : (s.onMst g).fresh = s.fresh := rfl
@[simp] theorem State.onMst_out (s : State) (g : MemSt → MemSt) : (s.onMst g).out = s.out := rfl
@[simp] theorem State.onMst_pwr (s : State) (g : MemSt → MemSt) : (s.onMst g).pwr = s.pwr := rfl
@[simp] theorem State.onMst_xing (s : State) (g : MemSt → MemSt) : (s.onMst g).xing = s.xing := rfl
@[simp] theorem State.onMst_time (s : State) (g : MemSt → MemSt) : (s.onMst g).time = s.time := rfl
@[simp] theorem State.onMst_host (s : State) (g : MemSt → MemSt) : (s.onMst g).host = s.host := rfl
@[simp] theorem State.onMst_ring (s : State) (g : MemSt → MemSt) : (s.onMst g).ring = s.ring := rfl
@[simp] theorem State.onMst_link (s : State) (g : MemSt → MemSt) : (s.onMst g).link = s.link := rfl
@[simp] theorem State.onMst_ingest (s : State) (g : MemSt → MemSt) : (s.onMst g).ingest = s.ingest := rfl
@[simp] theorem State.onMst_mst (s : State) (g : MemSt → MemSt) : (s.onMst g).mst = g s.mst := rfl
@[simp] theorem State.onMst_comp (s : State) (g : MemSt → MemSt) : (s.onMst g).comp = s.comp := rfl
@[simp] theorem State.onMst_folds (s : State) (g : MemSt → MemSt) : (s.onMst g).folds = s.folds := rfl
@[simp] theorem State.onMst_lamp (s : State) (g : MemSt → MemSt) : (s.onMst g).lamp = s.lamp := rfl
@[simp] theorem State.onMst_therm (s : State) (g : MemSt → MemSt) : (s.onMst g).therm = s.therm := rfl
@[simp] theorem State.onMst_boot (s : State) (g : MemSt → MemSt) : (s.onMst g).boot = s.boot := rfl
@[simp] theorem State.onMst_bist (s : State) (g : MemSt → MemSt) : (s.onMst g).bist = s.bist := rfl
@[simp] theorem State.onMst_flocks (s : State) (g : MemSt → MemSt) : (s.onMst g).flocks = s.flocks := rfl
@[simp] theorem State.onMst_txs (s : State) (g : MemSt → MemSt) : (s.onMst g).txs = s.txs := rfl
@[simp] theorem State.onMst_latch (s : State) (g : MemSt → MemSt) : (s.onMst g).latch = s.latch := rfl
@[simp] theorem State.onMst_pending (s : State) (g : MemSt → MemSt) : (s.onMst g).pending = s.pending := rfl

@[simp] theorem State.onIngest_regs (s : State) (g : Ingest → Ingest) : (s.onIngest g).regs = s.regs := rfl
@[simp] theorem State.onIngest_mem (s : State) (g : Ingest → Ingest) : (s.onIngest g).mem = s.mem := rfl
@[simp] theorem State.onIngest_fresh (s : State) (g : Ingest → Ingest) : (s.onIngest g).fresh = s.fresh := rfl
@[simp] theorem State.onIngest_out (s : State) (g : Ingest → Ingest) : (s.onIngest g).out = s.out := rfl
@[simp] theorem State.onIngest_pwr (s : State) (g : Ingest → Ingest) : (s.onIngest g).pwr = s.pwr := rfl
@[simp] theorem State.onIngest_xing (s : State) (g : Ingest → Ingest) : (s.onIngest g).xing = s.xing := rfl
@[simp] theorem State.onIngest_time (s : State) (g : Ingest → Ingest) : (s.onIngest g).time = s.time := rfl
@[simp] theorem State.onIngest_host (s : State) (g : Ingest → Ingest) : (s.onIngest g).host = s.host := rfl
@[simp] theorem State.onIngest_ring (s : State) (g : Ingest → Ingest) : (s.onIngest g).ring = s.ring := rfl
@[simp] theorem State.onIngest_link (s : State) (g : Ingest → Ingest) : (s.onIngest g).link = s.link := rfl
@[simp] theorem State.onIngest_ingest (s : State) (g : Ingest → Ingest) : (s.onIngest g).ingest = g s.ingest := rfl
@[simp] theorem State.onIngest_mst (s : State) (g : Ingest → Ingest) : (s.onIngest g).mst = s.mst := rfl
@[simp] theorem State.onIngest_comp (s : State) (g : Ingest → Ingest) : (s.onIngest g).comp = s.comp := rfl
@[simp] theorem State.onIngest_folds (s : State) (g : Ingest → Ingest) : (s.onIngest g).folds = s.folds := rfl
@[simp] theorem State.onIngest_lamp (s : State) (g : Ingest → Ingest) : (s.onIngest g).lamp = s.lamp := rfl
@[simp] theorem State.onIngest_therm (s : State) (g : Ingest → Ingest) : (s.onIngest g).therm = s.therm := rfl
@[simp] theorem State.onIngest_boot (s : State) (g : Ingest → Ingest) : (s.onIngest g).boot = s.boot := rfl
@[simp] theorem State.onIngest_bist (s : State) (g : Ingest → Ingest) : (s.onIngest g).bist = s.bist := rfl
@[simp] theorem State.onIngest_flocks (s : State) (g : Ingest → Ingest) : (s.onIngest g).flocks = s.flocks := rfl
@[simp] theorem State.onIngest_txs (s : State) (g : Ingest → Ingest) : (s.onIngest g).txs = s.txs := rfl
@[simp] theorem State.onIngest_latch (s : State) (g : Ingest → Ingest) : (s.onIngest g).latch = s.latch := rfl
@[simp] theorem State.onIngest_pending (s : State) (g : Ingest → Ingest) : (s.onIngest g).pending = s.pending := rfl

@[simp] theorem State.onComp_regs (s : State) (g : Comp → Comp) : (s.onComp g).regs = s.regs := rfl
@[simp] theorem State.onComp_mem (s : State) (g : Comp → Comp) : (s.onComp g).mem = s.mem := rfl
@[simp] theorem State.onComp_fresh (s : State) (g : Comp → Comp) : (s.onComp g).fresh = s.fresh := rfl
@[simp] theorem State.onComp_out (s : State) (g : Comp → Comp) : (s.onComp g).out = s.out := rfl
@[simp] theorem State.onComp_pwr (s : State) (g : Comp → Comp) : (s.onComp g).pwr = s.pwr := rfl
@[simp] theorem State.onComp_xing (s : State) (g : Comp → Comp) : (s.onComp g).xing = s.xing := rfl
@[simp] theorem State.onComp_time (s : State) (g : Comp → Comp) : (s.onComp g).time = s.time := rfl
@[simp] theorem State.onComp_host (s : State) (g : Comp → Comp) : (s.onComp g).host = s.host := rfl
@[simp] theorem State.onComp_ring (s : State) (g : Comp → Comp) : (s.onComp g).ring = s.ring := rfl
@[simp] theorem State.onComp_link (s : State) (g : Comp → Comp) : (s.onComp g).link = s.link := rfl
@[simp] theorem State.onComp_ingest (s : State) (g : Comp → Comp) : (s.onComp g).ingest = s.ingest := rfl
@[simp] theorem State.onComp_mst (s : State) (g : Comp → Comp) : (s.onComp g).mst = s.mst := rfl
@[simp] theorem State.onComp_comp (s : State) (g : Comp → Comp) : (s.onComp g).comp = g s.comp := rfl
@[simp] theorem State.onComp_folds (s : State) (g : Comp → Comp) : (s.onComp g).folds = s.folds := rfl
@[simp] theorem State.onComp_lamp (s : State) (g : Comp → Comp) : (s.onComp g).lamp = s.lamp := rfl
@[simp] theorem State.onComp_therm (s : State) (g : Comp → Comp) : (s.onComp g).therm = s.therm := rfl
@[simp] theorem State.onComp_boot (s : State) (g : Comp → Comp) : (s.onComp g).boot = s.boot := rfl
@[simp] theorem State.onComp_bist (s : State) (g : Comp → Comp) : (s.onComp g).bist = s.bist := rfl
@[simp] theorem State.onComp_flocks (s : State) (g : Comp → Comp) : (s.onComp g).flocks = s.flocks := rfl
@[simp] theorem State.onComp_txs (s : State) (g : Comp → Comp) : (s.onComp g).txs = s.txs := rfl
@[simp] theorem State.onComp_latch (s : State) (g : Comp → Comp) : (s.onComp g).latch = s.latch := rfl
@[simp] theorem State.onComp_pending (s : State) (g : Comp → Comp) : (s.onComp g).pending = s.pending := rfl

@[simp] theorem State.onLamp_regs (s : State) (g : Lamp → Lamp) : (s.onLamp g).regs = s.regs := rfl
@[simp] theorem State.onLamp_mem (s : State) (g : Lamp → Lamp) : (s.onLamp g).mem = s.mem := rfl
@[simp] theorem State.onLamp_fresh (s : State) (g : Lamp → Lamp) : (s.onLamp g).fresh = s.fresh := rfl
@[simp] theorem State.onLamp_out (s : State) (g : Lamp → Lamp) : (s.onLamp g).out = s.out := rfl
@[simp] theorem State.onLamp_pwr (s : State) (g : Lamp → Lamp) : (s.onLamp g).pwr = s.pwr := rfl
@[simp] theorem State.onLamp_xing (s : State) (g : Lamp → Lamp) : (s.onLamp g).xing = s.xing := rfl
@[simp] theorem State.onLamp_time (s : State) (g : Lamp → Lamp) : (s.onLamp g).time = s.time := rfl
@[simp] theorem State.onLamp_host (s : State) (g : Lamp → Lamp) : (s.onLamp g).host = s.host := rfl
@[simp] theorem State.onLamp_ring (s : State) (g : Lamp → Lamp) : (s.onLamp g).ring = s.ring := rfl
@[simp] theorem State.onLamp_link (s : State) (g : Lamp → Lamp) : (s.onLamp g).link = s.link := rfl
@[simp] theorem State.onLamp_ingest (s : State) (g : Lamp → Lamp) : (s.onLamp g).ingest = s.ingest := rfl
@[simp] theorem State.onLamp_mst (s : State) (g : Lamp → Lamp) : (s.onLamp g).mst = s.mst := rfl
@[simp] theorem State.onLamp_comp (s : State) (g : Lamp → Lamp) : (s.onLamp g).comp = s.comp := rfl
@[simp] theorem State.onLamp_folds (s : State) (g : Lamp → Lamp) : (s.onLamp g).folds = s.folds := rfl
@[simp] theorem State.onLamp_lamp (s : State) (g : Lamp → Lamp) : (s.onLamp g).lamp = g s.lamp := rfl
@[simp] theorem State.onLamp_therm (s : State) (g : Lamp → Lamp) : (s.onLamp g).therm = s.therm := rfl
@[simp] theorem State.onLamp_boot (s : State) (g : Lamp → Lamp) : (s.onLamp g).boot = s.boot := rfl
@[simp] theorem State.onLamp_bist (s : State) (g : Lamp → Lamp) : (s.onLamp g).bist = s.bist := rfl
@[simp] theorem State.onLamp_flocks (s : State) (g : Lamp → Lamp) : (s.onLamp g).flocks = s.flocks := rfl
@[simp] theorem State.onLamp_txs (s : State) (g : Lamp → Lamp) : (s.onLamp g).txs = s.txs := rfl
@[simp] theorem State.onLamp_latch (s : State) (g : Lamp → Lamp) : (s.onLamp g).latch = s.latch := rfl
@[simp] theorem State.onLamp_pending (s : State) (g : Lamp → Lamp) : (s.onLamp g).pending = s.pending := rfl

@[simp] theorem State.onTherm_regs (s : State) (g : Therm → Therm) : (s.onTherm g).regs = s.regs := rfl
@[simp] theorem State.onTherm_mem (s : State) (g : Therm → Therm) : (s.onTherm g).mem = s.mem := rfl
@[simp] theorem State.onTherm_fresh (s : State) (g : Therm → Therm) : (s.onTherm g).fresh = s.fresh := rfl
@[simp] theorem State.onTherm_out (s : State) (g : Therm → Therm) : (s.onTherm g).out = s.out := rfl
@[simp] theorem State.onTherm_pwr (s : State) (g : Therm → Therm) : (s.onTherm g).pwr = s.pwr := rfl
@[simp] theorem State.onTherm_xing (s : State) (g : Therm → Therm) : (s.onTherm g).xing = s.xing := rfl
@[simp] theorem State.onTherm_time (s : State) (g : Therm → Therm) : (s.onTherm g).time = s.time := rfl
@[simp] theorem State.onTherm_host (s : State) (g : Therm → Therm) : (s.onTherm g).host = s.host := rfl
@[simp] theorem State.onTherm_ring (s : State) (g : Therm → Therm) : (s.onTherm g).ring = s.ring := rfl
@[simp] theorem State.onTherm_link (s : State) (g : Therm → Therm) : (s.onTherm g).link = s.link := rfl
@[simp] theorem State.onTherm_ingest (s : State) (g : Therm → Therm) : (s.onTherm g).ingest = s.ingest := rfl
@[simp] theorem State.onTherm_mst (s : State) (g : Therm → Therm) : (s.onTherm g).mst = s.mst := rfl
@[simp] theorem State.onTherm_comp (s : State) (g : Therm → Therm) : (s.onTherm g).comp = s.comp := rfl
@[simp] theorem State.onTherm_folds (s : State) (g : Therm → Therm) : (s.onTherm g).folds = s.folds := rfl
@[simp] theorem State.onTherm_lamp (s : State) (g : Therm → Therm) : (s.onTherm g).lamp = s.lamp := rfl
@[simp] theorem State.onTherm_therm (s : State) (g : Therm → Therm) : (s.onTherm g).therm = g s.therm := rfl
@[simp] theorem State.onTherm_boot (s : State) (g : Therm → Therm) : (s.onTherm g).boot = s.boot := rfl
@[simp] theorem State.onTherm_bist (s : State) (g : Therm → Therm) : (s.onTherm g).bist = s.bist := rfl
@[simp] theorem State.onTherm_flocks (s : State) (g : Therm → Therm) : (s.onTherm g).flocks = s.flocks := rfl
@[simp] theorem State.onTherm_txs (s : State) (g : Therm → Therm) : (s.onTherm g).txs = s.txs := rfl
@[simp] theorem State.onTherm_latch (s : State) (g : Therm → Therm) : (s.onTherm g).latch = s.latch := rfl
@[simp] theorem State.onTherm_pending (s : State) (g : Therm → Therm) : (s.onTherm g).pending = s.pending := rfl

@[simp] theorem State.onBoot_regs (s : State) (g : Boot → Boot) : (s.onBoot g).regs = s.regs := rfl
@[simp] theorem State.onBoot_mem (s : State) (g : Boot → Boot) : (s.onBoot g).mem = s.mem := rfl
@[simp] theorem State.onBoot_fresh (s : State) (g : Boot → Boot) : (s.onBoot g).fresh = s.fresh := rfl
@[simp] theorem State.onBoot_out (s : State) (g : Boot → Boot) : (s.onBoot g).out = s.out := rfl
@[simp] theorem State.onBoot_pwr (s : State) (g : Boot → Boot) : (s.onBoot g).pwr = s.pwr := rfl
@[simp] theorem State.onBoot_xing (s : State) (g : Boot → Boot) : (s.onBoot g).xing = s.xing := rfl
@[simp] theorem State.onBoot_time (s : State) (g : Boot → Boot) : (s.onBoot g).time = s.time := rfl
@[simp] theorem State.onBoot_host (s : State) (g : Boot → Boot) : (s.onBoot g).host = s.host := rfl
@[simp] theorem State.onBoot_ring (s : State) (g : Boot → Boot) : (s.onBoot g).ring = s.ring := rfl
@[simp] theorem State.onBoot_link (s : State) (g : Boot → Boot) : (s.onBoot g).link = s.link := rfl
@[simp] theorem State.onBoot_ingest (s : State) (g : Boot → Boot) : (s.onBoot g).ingest = s.ingest := rfl
@[simp] theorem State.onBoot_mst (s : State) (g : Boot → Boot) : (s.onBoot g).mst = s.mst := rfl
@[simp] theorem State.onBoot_comp (s : State) (g : Boot → Boot) : (s.onBoot g).comp = s.comp := rfl
@[simp] theorem State.onBoot_folds (s : State) (g : Boot → Boot) : (s.onBoot g).folds = s.folds := rfl
@[simp] theorem State.onBoot_lamp (s : State) (g : Boot → Boot) : (s.onBoot g).lamp = s.lamp := rfl
@[simp] theorem State.onBoot_therm (s : State) (g : Boot → Boot) : (s.onBoot g).therm = s.therm := rfl
@[simp] theorem State.onBoot_boot (s : State) (g : Boot → Boot) : (s.onBoot g).boot = g s.boot := rfl
@[simp] theorem State.onBoot_bist (s : State) (g : Boot → Boot) : (s.onBoot g).bist = s.bist := rfl
@[simp] theorem State.onBoot_flocks (s : State) (g : Boot → Boot) : (s.onBoot g).flocks = s.flocks := rfl
@[simp] theorem State.onBoot_txs (s : State) (g : Boot → Boot) : (s.onBoot g).txs = s.txs := rfl
@[simp] theorem State.onBoot_latch (s : State) (g : Boot → Boot) : (s.onBoot g).latch = s.latch := rfl
@[simp] theorem State.onBoot_pending (s : State) (g : Boot → Boot) : (s.onBoot g).pending = s.pending := rfl

@[simp] theorem State.onBist_regs (s : State) (g : Bist → Bist) : (s.onBist g).regs = s.regs := rfl
@[simp] theorem State.onBist_mem (s : State) (g : Bist → Bist) : (s.onBist g).mem = s.mem := rfl
@[simp] theorem State.onBist_fresh (s : State) (g : Bist → Bist) : (s.onBist g).fresh = s.fresh := rfl
@[simp] theorem State.onBist_out (s : State) (g : Bist → Bist) : (s.onBist g).out = s.out := rfl
@[simp] theorem State.onBist_pwr (s : State) (g : Bist → Bist) : (s.onBist g).pwr = s.pwr := rfl
@[simp] theorem State.onBist_xing (s : State) (g : Bist → Bist) : (s.onBist g).xing = s.xing := rfl
@[simp] theorem State.onBist_time (s : State) (g : Bist → Bist) : (s.onBist g).time = s.time := rfl
@[simp] theorem State.onBist_host (s : State) (g : Bist → Bist) : (s.onBist g).host = s.host := rfl
@[simp] theorem State.onBist_ring (s : State) (g : Bist → Bist) : (s.onBist g).ring = s.ring := rfl
@[simp] theorem State.onBist_link (s : State) (g : Bist → Bist) : (s.onBist g).link = s.link := rfl
@[simp] theorem State.onBist_ingest (s : State) (g : Bist → Bist) : (s.onBist g).ingest = s.ingest := rfl
@[simp] theorem State.onBist_mst (s : State) (g : Bist → Bist) : (s.onBist g).mst = s.mst := rfl
@[simp] theorem State.onBist_comp (s : State) (g : Bist → Bist) : (s.onBist g).comp = s.comp := rfl
@[simp] theorem State.onBist_folds (s : State) (g : Bist → Bist) : (s.onBist g).folds = s.folds := rfl
@[simp] theorem State.onBist_lamp (s : State) (g : Bist → Bist) : (s.onBist g).lamp = s.lamp := rfl
@[simp] theorem State.onBist_therm (s : State) (g : Bist → Bist) : (s.onBist g).therm = s.therm := rfl
@[simp] theorem State.onBist_boot (s : State) (g : Bist → Bist) : (s.onBist g).boot = s.boot := rfl
@[simp] theorem State.onBist_bist (s : State) (g : Bist → Bist) : (s.onBist g).bist = g s.bist := rfl
@[simp] theorem State.onBist_flocks (s : State) (g : Bist → Bist) : (s.onBist g).flocks = s.flocks := rfl
@[simp] theorem State.onBist_txs (s : State) (g : Bist → Bist) : (s.onBist g).txs = s.txs := rfl
@[simp] theorem State.onBist_latch (s : State) (g : Bist → Bist) : (s.onBist g).latch = s.latch := rfl
@[simp] theorem State.onBist_pending (s : State) (g : Bist → Bist) : (s.onBist g).pending = s.pending := rfl

@[simp] theorem State.onFold_regs (s : State) (n : Nat) (g : Fold → Fold) : (s.onFold n g).regs = s.regs := rfl
@[simp] theorem State.onFold_mem (s : State) (n : Nat) (g : Fold → Fold) : (s.onFold n g).mem = s.mem := rfl
@[simp] theorem State.onFold_fresh (s : State) (n : Nat) (g : Fold → Fold) : (s.onFold n g).fresh = s.fresh := rfl
@[simp] theorem State.onFold_out (s : State) (n : Nat) (g : Fold → Fold) : (s.onFold n g).out = s.out := rfl
@[simp] theorem State.onFold_pwr (s : State) (n : Nat) (g : Fold → Fold) : (s.onFold n g).pwr = s.pwr := rfl
@[simp] theorem State.onFold_xing (s : State) (n : Nat) (g : Fold → Fold) : (s.onFold n g).xing = s.xing := rfl
@[simp] theorem State.onFold_time (s : State) (n : Nat) (g : Fold → Fold) : (s.onFold n g).time = s.time := rfl
@[simp] theorem State.onFold_host (s : State) (n : Nat) (g : Fold → Fold) : (s.onFold n g).host = s.host := rfl
@[simp] theorem State.onFold_ring (s : State) (n : Nat) (g : Fold → Fold) : (s.onFold n g).ring = s.ring := rfl
@[simp] theorem State.onFold_link (s : State) (n : Nat) (g : Fold → Fold) : (s.onFold n g).link = s.link := rfl
@[simp] theorem State.onFold_ingest (s : State) (n : Nat) (g : Fold → Fold) : (s.onFold n g).ingest = s.ingest := rfl
@[simp] theorem State.onFold_mst (s : State) (n : Nat) (g : Fold → Fold) : (s.onFold n g).mst = s.mst := rfl
@[simp] theorem State.onFold_comp (s : State) (n : Nat) (g : Fold → Fold) : (s.onFold n g).comp = s.comp := rfl
@[simp] theorem State.onFold_folds (s : State) (n : Nat) (g : Fold → Fold) : (s.onFold n g).folds = modAt s.folds n g := rfl
@[simp] theorem State.onFold_lamp (s : State) (n : Nat) (g : Fold → Fold) : (s.onFold n g).lamp = s.lamp := rfl
@[simp] theorem State.onFold_therm (s : State) (n : Nat) (g : Fold → Fold) : (s.onFold n g).therm = s.therm := rfl
@[simp] theorem State.onFold_boot (s : State) (n : Nat) (g : Fold → Fold) : (s.onFold n g).boot = s.boot := rfl
@[simp] theorem State.onFold_bist (s : State) (n : Nat) (g : Fold → Fold) : (s.onFold n g).bist = s.bist := rfl
@[simp] theorem State.onFold_flocks (s : State) (n : Nat) (g : Fold → Fold) : (s.onFold n g).flocks = s.flocks := rfl
@[simp] theorem State.onFold_txs (s : State) (n : Nat) (g : Fold → Fold) : (s.onFold n g).txs = s.txs := rfl
@[simp] theorem State.onFold_latch (s : State) (n : Nat) (g : Fold → Fold) : (s.onFold n g).latch = s.latch := rfl
@[simp] theorem State.onFold_pending (s : State) (n : Nat) (g : Fold → Fold) : (s.onFold n g).pending = s.pending := rfl

@[simp] theorem State.onCtx_regs (s : State) (c : Nat) (g : Ctx → Ctx) : (s.onCtx c g).regs = s.regs := rfl
@[simp] theorem State.onCtx_mem (s : State) (c : Nat) (g : Ctx → Ctx) : (s.onCtx c g).mem = s.mem := rfl
@[simp] theorem State.onCtx_fresh (s : State) (c : Nat) (g : Ctx → Ctx) : (s.onCtx c g).fresh = s.fresh := rfl
@[simp] theorem State.onCtx_out (s : State) (c : Nat) (g : Ctx → Ctx) : (s.onCtx c g).out = s.out := rfl
@[simp] theorem State.onCtx_pwr (s : State) (c : Nat) (g : Ctx → Ctx) : (s.onCtx c g).pwr = s.pwr := rfl
@[simp] theorem State.onCtx_xing (s : State) (c : Nat) (g : Ctx → Ctx) : (s.onCtx c g).xing = s.xing := rfl
@[simp] theorem State.onCtx_time (s : State) (c : Nat) (g : Ctx → Ctx) : (s.onCtx c g).time = s.time := rfl
@[simp] theorem State.onCtx_ring (s : State) (c : Nat) (g : Ctx → Ctx) : (s.onCtx c g).ring = s.ring := rfl
@[simp] theorem State.onCtx_link (s : State) (c : Nat) (g : Ctx → Ctx) : (s.onCtx c g).link = s.link := rfl
@[simp] theorem State.onCtx_ingest (s : State) (c : Nat) (g : Ctx → Ctx) : (s.onCtx c g).ingest = s.ingest := rfl
@[simp] theorem State.onCtx_mst (s : State) (c : Nat) (g : Ctx → Ctx) : (s.onCtx c g).mst = s.mst := rfl
@[simp] theorem State.onCtx_comp (s : State) (c : Nat) (g : Ctx → Ctx) : (s.onCtx c g).comp = s.comp := rfl
@[simp] theorem State.onCtx_folds (s : State) (c : Nat) (g : Ctx → Ctx) : (s.onCtx c g).folds = s.folds := rfl
@[simp] theorem State.onCtx_lamp (s : State) (c : Nat) (g : Ctx → Ctx) : (s.onCtx c g).lamp = s.lamp := rfl
@[simp] theorem State.onCtx_therm (s : State) (c : Nat) (g : Ctx → Ctx) : (s.onCtx c g).therm = s.therm := rfl
@[simp] theorem State.onCtx_boot (s : State) (c : Nat) (g : Ctx → Ctx) : (s.onCtx c g).boot = s.boot := rfl
@[simp] theorem State.onCtx_bist (s : State) (c : Nat) (g : Ctx → Ctx) : (s.onCtx c g).bist = s.bist := rfl
@[simp] theorem State.onCtx_flocks (s : State) (c : Nat) (g : Ctx → Ctx) : (s.onCtx c g).flocks = s.flocks := rfl
@[simp] theorem State.onCtx_txs (s : State) (c : Nat) (g : Ctx → Ctx) : (s.onCtx c g).txs = s.txs := rfl
@[simp] theorem State.onCtx_latch (s : State) (c : Nat) (g : Ctx → Ctx) : (s.onCtx c g).latch = s.latch := rfl
@[simp] theorem State.onCtx_pending (s : State) (c : Nat) (g : Ctx → Ctx) : (s.onCtx c g).pending = s.pending := rfl

/-! ### Registers and fields -/

theorem bits_lt (v lo w : Nat) : bits v lo w < 2 ^ w := Nat.mod_lt _ (Nat.two_pow_pos w)

theorem setBits_lt {v lo w x n : Nat} (hv : v < 2 ^ n) (h : lo + w ≤ n) : setBits v lo w x < 2 ^ n := by
  unfold setBits
  obtain ⟨k, rfl⟩ := Nat.exists_eq_add_of_le h
  have e : (2 : Nat) ^ (lo + w + k) = 2 ^ (lo + w) * 2 ^ k := Nat.pow_add ..
  have e2 : (2 : Nat) ^ (lo + w) = 2 ^ lo * 2 ^ w := Nat.pow_add ..
  have h1 : v / 2 ^ (lo + w) < 2 ^ k := Nat.div_lt_of_lt_mul (by rwa [← e])
  have h2 : x % 2 ^ w < 2 ^ w := Nat.mod_lt _ (Nat.two_pow_pos w)
  have h3 : v % 2 ^ lo < 2 ^ lo := Nat.mod_lt _ (Nat.two_pow_pos lo)
  have h4 : x % 2 ^ w * 2 ^ lo + v % 2 ^ lo < 2 ^ (lo + w) := by rw [e2]; nlinarith [Nat.two_pow_pos lo]
  rw [e]
  nlinarith [Nat.two_pow_pos (lo + w)]

/-- A field reads what was written to it, cut to its width. -/
theorem bits_setBits_same (v lo w x : Nat) : bits (setBits v lo w x) lo w = x % 2 ^ w := by
  unfold bits setBits
  have h3 : v % 2 ^ lo < 2 ^ lo := Nat.mod_lt _ (Nat.two_pow_pos lo)
  have e2 : (2 : Nat) ^ (lo + w) = 2 ^ lo * 2 ^ w := Nat.pow_add ..
  have : v / 2 ^ (lo + w) * 2 ^ (lo + w) + x % 2 ^ w * 2 ^ lo + v % 2 ^ lo
      = 2 ^ lo * (v / 2 ^ (lo + w) * 2 ^ w + x % 2 ^ w) + v % 2 ^ lo := by rw [e2]; ring
  rw [this, Nat.mul_add_div (Nat.two_pow_pos lo), Nat.div_eq_of_lt h3, Nat.add_zero, Nat.mul_comm, Nat.mul_add_mod,
    Nat.mod_mod]

theorem State.reg_setReg (s : State) (a : Nat) (v : Word) (b : Nat) :
    (s.setReg a v).reg b = if b = a then v else s.reg b := by
  simp [State.reg, State.setReg]

/-- Writing a field leaves every other register as it was. -/
theorem State.reg_put_ne (s : State) (f : Fld) (v i j b : Nat) (h : b ≠ f.addr i j) : (s.put f v i j).reg b = s.reg b := by
  rw [State.put, State.reg_setReg, if_neg h]

/-- A field reads what was written to it. -/
theorem State.f_put (s : State) (f : Fld) (v i j : Nat) (h : f.lo + f.w ≤ 32) : (s.put f v i j).f f i j = v % 2 ^ f.w := by
  rw [State.f, State.put, State.reg_setReg, if_pos rfl, BitVec.toNat_ofNat,
    Nat.mod_eq_of_lt (setBits_lt (BitVec.isLt _) h), bits_setBits_same]

/-- A field of another register keeps its value. -/
theorem State.f_put_ne (s : State) (f g : Fld) (v i j k l : Nat) (h : g.addr k l ≠ f.addr i j) :
    (s.put f v i j).f g k l = s.f g k l := by
  rw [State.f, State.reg_put_ne _ _ _ _ _ _ h, State.f]

/-- A flag reads what was written to it. -/
theorem State.b_flag (s : State) (f : Fld) (v : Bool) (i j : Nat) (h : f.lo + f.w ≤ 32) (hw : f.w = 1) :
    (s.flag f v i j).b f i j = v := by
  rw [State.b, State.flag, State.f_put _ _ _ _ _ h, hw]
  cases v <;> rfl

theorem State.f_flag (s : State) (f : Fld) (v : Bool) (i j : Nat) (h : f.lo + f.w ≤ 32) (hw : f.w = 1) :
    (s.flag f v i j).f f i j = b2n v := by
  rw [State.flag, State.f_put _ _ _ _ _ h, hw]
  cases v <;> rfl

/-- A counter saturates at its field's maximum. -/
theorem State.f_add (s : State) (f : Fld) (n i j : Nat) (h : f.lo + f.w ≤ 32) :
    (s.add f n i j).f f i j = min (s.f f i j + n) (2 ^ f.w - 1) := by
  rw [State.add, State.f_put _ _ _ _ _ h]
  have := Nat.two_pow_pos f.w
  exact Nat.mod_eq_of_lt (by omega)

theorem State.reg_zero (s : State) (f : Fld) (i j b : Nat) :
    (s.zero f i j).reg b = if b = f.addr i j then 0 else s.reg b := State.reg_setReg ..

/-- What no step of a loop changes, the loop does not change. -/
theorem State.each_keeps {α β : Type} (q : State → β) (l : List α) (f : State → α → State) (s : State)
    (h : ∀ x a, q (f x a) = q x) : q (s.each l f) = q s := by
  unfold State.each
  induction l generalizing s with
  | nil => rfl
  | cons a l ih => rw [List.foldl_cons, ih, h]

/-! `skipFresh`, `onFlocks`, `onLatch`, `onLink` and `onTx`. -/

@[simp] theorem State.skipFresh_regs (s : State) (n : Nat) : (s.skipFresh n).regs = s.regs := rfl
@[simp] theorem State.skipFresh_mem (s : State) (n : Nat) : (s.skipFresh n).mem = s.mem := rfl
@[simp] theorem State.skipFresh_fresh (s : State) (n : Nat) : (s.skipFresh n).fresh = s.fresh + n := rfl
@[simp] theorem State.skipFresh_out (s : State) (n : Nat) : (s.skipFresh n).out = s.out := rfl
@[simp] theorem State.skipFresh_pwr (s : State) (n : Nat) : (s.skipFresh n).pwr = s.pwr := rfl
@[simp] theorem State.skipFresh_xing (s : State) (n : Nat) : (s.skipFresh n).xing = s.xing := rfl
@[simp] theorem State.skipFresh_time (s : State) (n : Nat) : (s.skipFresh n).time = s.time := rfl
@[simp] theorem State.skipFresh_host (s : State) (n : Nat) : (s.skipFresh n).host = s.host := rfl
@[simp] theorem State.skipFresh_ring (s : State) (n : Nat) : (s.skipFresh n).ring = s.ring := rfl
@[simp] theorem State.skipFresh_link (s : State) (n : Nat) : (s.skipFresh n).link = s.link := rfl
@[simp] theorem State.skipFresh_ingest (s : State) (n : Nat) : (s.skipFresh n).ingest = s.ingest := rfl
@[simp] theorem State.skipFresh_mst (s : State) (n : Nat) : (s.skipFresh n).mst = s.mst := rfl
@[simp] theorem State.skipFresh_comp (s : State) (n : Nat) : (s.skipFresh n).comp = s.comp := rfl
@[simp] theorem State.skipFresh_folds (s : State) (n : Nat) : (s.skipFresh n).folds = s.folds := rfl
@[simp] theorem State.skipFresh_lamp (s : State) (n : Nat) : (s.skipFresh n).lamp = s.lamp := rfl
@[simp] theorem State.skipFresh_therm (s : State) (n : Nat) : (s.skipFresh n).therm = s.therm := rfl
@[simp] theorem State.skipFresh_boot (s : State) (n : Nat) : (s.skipFresh n).boot = s.boot := rfl
@[simp] theorem State.skipFresh_bist (s : State) (n : Nat) : (s.skipFresh n).bist = s.bist := rfl
@[simp] theorem State.skipFresh_flocks (s : State) (n : Nat) : (s.skipFresh n).flocks = s.flocks := rfl
@[simp] theorem State.skipFresh_txs (s : State) (n : Nat) : (s.skipFresh n).txs = s.txs := rfl
@[simp] theorem State.skipFresh_latch (s : State) (n : Nat) : (s.skipFresh n).latch = s.latch := rfl
@[simp] theorem State.skipFresh_pending (s : State) (n : Nat) : (s.skipFresh n).pending = s.pending := rfl

@[simp] theorem State.onFlocks_regs (s : State) (g : List Flock → List Flock) : (s.onFlocks g).regs = s.regs := rfl
@[simp] theorem State.onFlocks_mem (s : State) (g : List Flock → List Flock) : (s.onFlocks g).mem = s.mem := rfl
@[simp] theorem State.onFlocks_fresh (s : State) (g : List Flock → List Flock) : (s.onFlocks g).fresh = s.fresh := rfl
@[simp] theorem State.onFlocks_out (s : State) (g : List Flock → List Flock) : (s.onFlocks g).out = s.out := rfl
@[simp] theorem State.onFlocks_pwr (s : State) (g : List Flock → List Flock) : (s.onFlocks g).pwr = s.pwr := rfl
@[simp] theorem State.onFlocks_xing (s : State) (g : List Flock → List Flock) : (s.onFlocks g).xing = s.xing := rfl
@[simp] theorem State.onFlocks_time (s : State) (g : List Flock → List Flock) : (s.onFlocks g).time = s.time := rfl
@[simp] theorem State.onFlocks_host (s : State) (g : List Flock → List Flock) : (s.onFlocks g).host = s.host := rfl
@[simp] theorem State.onFlocks_ring (s : State) (g : List Flock → List Flock) : (s.onFlocks g).ring = s.ring := rfl
@[simp] theorem State.onFlocks_link (s : State) (g : List Flock → List Flock) : (s.onFlocks g).link = s.link := rfl
@[simp] theorem State.onFlocks_ingest (s : State) (g : List Flock → List Flock) : (s.onFlocks g).ingest = s.ingest := rfl
@[simp] theorem State.onFlocks_mst (s : State) (g : List Flock → List Flock) : (s.onFlocks g).mst = s.mst := rfl
@[simp] theorem State.onFlocks_comp (s : State) (g : List Flock → List Flock) : (s.onFlocks g).comp = s.comp := rfl
@[simp] theorem State.onFlocks_folds (s : State) (g : List Flock → List Flock) : (s.onFlocks g).folds = s.folds := rfl
@[simp] theorem State.onFlocks_lamp (s : State) (g : List Flock → List Flock) : (s.onFlocks g).lamp = s.lamp := rfl
@[simp] theorem State.onFlocks_therm (s : State) (g : List Flock → List Flock) : (s.onFlocks g).therm = s.therm := rfl
@[simp] theorem State.onFlocks_boot (s : State) (g : List Flock → List Flock) : (s.onFlocks g).boot = s.boot := rfl
@[simp] theorem State.onFlocks_bist (s : State) (g : List Flock → List Flock) : (s.onFlocks g).bist = s.bist := rfl
@[simp] theorem State.onFlocks_flocks (s : State) (g : List Flock → List Flock) : (s.onFlocks g).flocks = g s.flocks := rfl
@[simp] theorem State.onFlocks_txs (s : State) (g : List Flock → List Flock) : (s.onFlocks g).txs = s.txs := rfl
@[simp] theorem State.onFlocks_latch (s : State) (g : List Flock → List Flock) : (s.onFlocks g).latch = s.latch := rfl
@[simp] theorem State.onFlocks_pending (s : State) (g : List Flock → List Flock) : (s.onFlocks g).pending = s.pending := rfl

@[simp] theorem State.onLatch_regs (s : State) (g : List LatchWrite → List LatchWrite) : (s.onLatch g).regs = s.regs := rfl
@[simp] theorem State.onLatch_mem (s : State) (g : List LatchWrite → List LatchWrite) : (s.onLatch g).mem = s.mem := rfl
@[simp] theorem State.onLatch_fresh (s : State) (g : List LatchWrite → List LatchWrite) : (s.onLatch g).fresh = s.fresh := rfl
@[simp] theorem State.onLatch_out (s : State) (g : List LatchWrite → List LatchWrite) : (s.onLatch g).out = s.out := rfl
@[simp] theorem State.onLatch_pwr (s : State) (g : List LatchWrite → List LatchWrite) : (s.onLatch g).pwr = s.pwr := rfl
@[simp] theorem State.onLatch_xing (s : State) (g : List LatchWrite → List LatchWrite) : (s.onLatch g).xing = s.xing := rfl
@[simp] theorem State.onLatch_time (s : State) (g : List LatchWrite → List LatchWrite) : (s.onLatch g).time = s.time := rfl
@[simp] theorem State.onLatch_host (s : State) (g : List LatchWrite → List LatchWrite) : (s.onLatch g).host = s.host := rfl
@[simp] theorem State.onLatch_ring (s : State) (g : List LatchWrite → List LatchWrite) : (s.onLatch g).ring = s.ring := rfl
@[simp] theorem State.onLatch_link (s : State) (g : List LatchWrite → List LatchWrite) : (s.onLatch g).link = s.link := rfl
@[simp] theorem State.onLatch_ingest (s : State) (g : List LatchWrite → List LatchWrite) : (s.onLatch g).ingest = s.ingest := rfl
@[simp] theorem State.onLatch_mst (s : State) (g : List LatchWrite → List LatchWrite) : (s.onLatch g).mst = s.mst := rfl
@[simp] theorem State.onLatch_comp (s : State) (g : List LatchWrite → List LatchWrite) : (s.onLatch g).comp = s.comp := rfl
@[simp] theorem State.onLatch_folds (s : State) (g : List LatchWrite → List LatchWrite) : (s.onLatch g).folds = s.folds := rfl
@[simp] theorem State.onLatch_lamp (s : State) (g : List LatchWrite → List LatchWrite) : (s.onLatch g).lamp = s.lamp := rfl
@[simp] theorem State.onLatch_therm (s : State) (g : List LatchWrite → List LatchWrite) : (s.onLatch g).therm = s.therm := rfl
@[simp] theorem State.onLatch_boot (s : State) (g : List LatchWrite → List LatchWrite) : (s.onLatch g).boot = s.boot := rfl
@[simp] theorem State.onLatch_bist (s : State) (g : List LatchWrite → List LatchWrite) : (s.onLatch g).bist = s.bist := rfl
@[simp] theorem State.onLatch_flocks (s : State) (g : List LatchWrite → List LatchWrite) : (s.onLatch g).flocks = s.flocks := rfl
@[simp] theorem State.onLatch_txs (s : State) (g : List LatchWrite → List LatchWrite) : (s.onLatch g).txs = s.txs := rfl
@[simp] theorem State.onLatch_latch (s : State) (g : List LatchWrite → List LatchWrite) : (s.onLatch g).latch = g s.latch := rfl
@[simp] theorem State.onLatch_pending (s : State) (g : List LatchWrite → List LatchWrite) : (s.onLatch g).pending = s.pending := rfl

@[simp] theorem State.onLink_regs (s : State) (g : Link → Link) : (s.onLink g).regs = s.regs := rfl
@[simp] theorem State.onLink_mem (s : State) (g : Link → Link) : (s.onLink g).mem = s.mem := rfl
@[simp] theorem State.onLink_fresh (s : State) (g : Link → Link) : (s.onLink g).fresh = s.fresh := rfl
@[simp] theorem State.onLink_out (s : State) (g : Link → Link) : (s.onLink g).out = s.out := rfl
@[simp] theorem State.onLink_pwr (s : State) (g : Link → Link) : (s.onLink g).pwr = s.pwr := rfl
@[simp] theorem State.onLink_xing (s : State) (g : Link → Link) : (s.onLink g).xing = s.xing := rfl
@[simp] theorem State.onLink_time (s : State) (g : Link → Link) : (s.onLink g).time = s.time := rfl
@[simp] theorem State.onLink_host (s : State) (g : Link → Link) : (s.onLink g).host = s.host := rfl
@[simp] theorem State.onLink_ring (s : State) (g : Link → Link) : (s.onLink g).ring = s.ring := rfl
@[simp] theorem State.onLink_link (s : State) (g : Link → Link) : (s.onLink g).link = g s.link := rfl
@[simp] theorem State.onLink_ingest (s : State) (g : Link → Link) : (s.onLink g).ingest = s.ingest := rfl
@[simp] theorem State.onLink_mst (s : State) (g : Link → Link) : (s.onLink g).mst = s.mst := rfl
@[simp] theorem State.onLink_comp (s : State) (g : Link → Link) : (s.onLink g).comp = s.comp := rfl
@[simp] theorem State.onLink_folds (s : State) (g : Link → Link) : (s.onLink g).folds = s.folds := rfl
@[simp] theorem State.onLink_lamp (s : State) (g : Link → Link) : (s.onLink g).lamp = s.lamp := rfl
@[simp] theorem State.onLink_therm (s : State) (g : Link → Link) : (s.onLink g).therm = s.therm := rfl
@[simp] theorem State.onLink_boot (s : State) (g : Link → Link) : (s.onLink g).boot = s.boot := rfl
@[simp] theorem State.onLink_bist (s : State) (g : Link → Link) : (s.onLink g).bist = s.bist := rfl
@[simp] theorem State.onLink_flocks (s : State) (g : Link → Link) : (s.onLink g).flocks = s.flocks := rfl
@[simp] theorem State.onLink_txs (s : State) (g : Link → Link) : (s.onLink g).txs = s.txs := rfl
@[simp] theorem State.onLink_latch (s : State) (g : Link → Link) : (s.onLink g).latch = s.latch := rfl
@[simp] theorem State.onLink_pending (s : State) (g : Link → Link) : (s.onLink g).pending = s.pending := rfl

@[simp] theorem State.onTx_regs (s : State) (c : Nat) (g : Tx → Tx) : (s.onTx c g).regs = s.regs := rfl
@[simp] theorem State.onTx_mem (s : State) (c : Nat) (g : Tx → Tx) : (s.onTx c g).mem = s.mem := rfl
@[simp] theorem State.onTx_fresh (s : State) (c : Nat) (g : Tx → Tx) : (s.onTx c g).fresh = s.fresh := rfl
@[simp] theorem State.onTx_out (s : State) (c : Nat) (g : Tx → Tx) : (s.onTx c g).out = s.out := rfl
@[simp] theorem State.onTx_pwr (s : State) (c : Nat) (g : Tx → Tx) : (s.onTx c g).pwr = s.pwr := rfl
@[simp] theorem State.onTx_xing (s : State) (c : Nat) (g : Tx → Tx) : (s.onTx c g).xing = s.xing := rfl
@[simp] theorem State.onTx_time (s : State) (c : Nat) (g : Tx → Tx) : (s.onTx c g).time = s.time := rfl
@[simp] theorem State.onTx_host (s : State) (c : Nat) (g : Tx → Tx) : (s.onTx c g).host = s.host := rfl
@[simp] theorem State.onTx_ring (s : State) (c : Nat) (g : Tx → Tx) : (s.onTx c g).ring = s.ring := rfl
@[simp] theorem State.onTx_link (s : State) (c : Nat) (g : Tx → Tx) : (s.onTx c g).link = s.link := rfl
@[simp] theorem State.onTx_ingest (s : State) (c : Nat) (g : Tx → Tx) : (s.onTx c g).ingest = s.ingest := rfl
@[simp] theorem State.onTx_mst (s : State) (c : Nat) (g : Tx → Tx) : (s.onTx c g).mst = s.mst := rfl
@[simp] theorem State.onTx_comp (s : State) (c : Nat) (g : Tx → Tx) : (s.onTx c g).comp = s.comp := rfl
@[simp] theorem State.onTx_folds (s : State) (c : Nat) (g : Tx → Tx) : (s.onTx c g).folds = s.folds := rfl
@[simp] theorem State.onTx_lamp (s : State) (c : Nat) (g : Tx → Tx) : (s.onTx c g).lamp = s.lamp := rfl
@[simp] theorem State.onTx_therm (s : State) (c : Nat) (g : Tx → Tx) : (s.onTx c g).therm = s.therm := rfl
@[simp] theorem State.onTx_boot (s : State) (c : Nat) (g : Tx → Tx) : (s.onTx c g).boot = s.boot := rfl
@[simp] theorem State.onTx_bist (s : State) (c : Nat) (g : Tx → Tx) : (s.onTx c g).bist = s.bist := rfl
@[simp] theorem State.onTx_flocks (s : State) (c : Nat) (g : Tx → Tx) : (s.onTx c g).flocks = s.flocks := rfl
@[simp] theorem State.onTx_txs (s : State) (c : Nat) (g : Tx → Tx) : (s.onTx c g).txs = modAt s.txs c g := rfl
@[simp] theorem State.onTx_latch (s : State) (c : Nat) (g : Tx → Tx) : (s.onTx c g).latch = s.latch := rfl
@[simp] theorem State.onTx_pending (s : State) (c : Nat) (g : Tx → Tx) : (s.onTx c g).pending = s.pending := rfl

end Sys2Proof.Machine
end

