-- ==== Sys2Proof/Laws/WithinOps.lean ====
section
/-! SUPPORT. What each operation and each meaning of Machine/Ops.lean can do to the state: the parts it may change, and that it
keeps the canonical form and the shape. -/
set_option Elab.async false
namespace Sys2Proof.Machine

theorem State.put_within (s : State) (f : Fld) (v : Nat) (i : Nat) (j : Nat) :
    Within [.regs] s (State.put s f v i j) := by
  unfold State.put
  exact (State.setReg_within ..).mono (by decide)

theorem State.flag_within (s : State) (f : Fld) (v : Bool) (i : Nat) (j : Nat) :
    Within [.regs] s (State.flag s f v i j) := by
  unfold State.flag
  exact (State.put_within ..).mono (by decide)

theorem State.putS_within (s : State) (f : Fld) (v : Int) (i : Nat) (j : Nat) :
    Within [.regs] s (State.putS s f v i j) := by
  unfold State.putS
  exact (State.put_within ..).mono (by decide)

theorem State.add_within (s : State) (f : Fld) (n : Nat) (i : Nat) (j : Nat) :
    Within [.regs] s (State.add s f n i j) := by
  unfold State.add
  exact (State.put_within ..).mono (by decide)

theorem State.inc_within (s : State) (f : Fld) (i : Nat) (j : Nat) :
    Within [.regs] s (State.inc s f i j) := by
  unfold State.inc
  exact (State.add_within ..).mono (by decide)

theorem State.put64_within (s : State) (lo : Fld) (hi : Fld) (v : Nat) (i : Nat) :
    Within [.regs] s (State.put64 s lo hi v i) := by
  unfold State.put64
  refine Within.trans ?_ ((State.put_within ..).mono (by decide))
  exact (State.put_within ..).mono (by decide)

theorem State.onLatch_within (s : State) (f : List LatchWrite → List LatchWrite) :
    Within [.latch] s (State.onLatch s f) := by
  unfold State.onLatch
  exact (Within.upd (fun p => by cases p <;> first | exact .inr rfl | exact .inl (by decide)) rfl rfl)

theorem State.onFlocks_within (s : State) (f : List Flock → List Flock) :
    Within [.flocks] s (State.onFlocks s f) := by
  unfold State.onFlocks
  exact (Within.upd (fun p => by cases p <;> first | exact .inr rfl | exact .inl (by decide)) rfl rfl)

theorem State.zero_within (s : State) (f : Fld) (i : Nat) (j : Nat) :
    Within [.regs] s (State.zero s f i j) := by
  unfold State.zero
  exact (State.setReg_within ..).mono (by decide)

theorem State.onCtx_within (s : State) (c : Nat) (f : Ctx → Ctx) :
    Within [.host] s (State.onCtx s c f) := by
  unfold State.onCtx
  exact (State.onHost_within ..).mono (by decide)

theorem State.emit_within (s : State) (o : Out) :
    Within [.out] s (State.emit s o) := by
  unfold State.emit
  exact (Within.upd (fun p => by cases p <;> first | exact .inr rfl | exact .inl (by decide)) rfl rfl)

theorem State.tickFresh_within (s : State) :
    Within [.fresh] s (State.tickFresh s) := by
  unfold State.tickFresh
  exact (Within.upd (fun p => by cases p <;> first | exact .inr rfl | exact .inl (by decide)) rfl rfl)

theorem State.skipFresh_within (s : State) (n : Nat) :
    Within [.fresh] s (State.skipFresh s n) := by
  unfold State.skipFresh
  exact (Within.upd (fun p => by cases p <;> first | exact .inr rfl | exact .inl (by decide)) rfl rfl)

theorem State.onPort_within (s : State) (p : Nat) (f : Port → Port) :
    Within [.link] s (State.onPort s p f) := by
  unfold State.onPort
  exact (State.onLink_within ..).mono (by decide)

theorem State.takeBlocks_within (s : State) (p : ℕ) :
    Within [.link] s (State.takeBlocks s p).1 := by
  unfold State.takeBlocks
  dsimp -zeta only
  exact (State.onPort_within ..).mono (by decide)

theorem State.linkRx_within {ps : List Part} {s t : State} {p : Nat} {b : Bytes} {f : State → State}
    (hs : Part.subset [.link] ps = true) (hf : ∀ x, Within ps x (f x)) (h : Within ps s t) : Within ps s (t.linkRx p b f) := by
  unfold State.linkRx
  split
  · exact h.trans (hf _)
  · extract_lets y
    have hy : Within ps s y := h.trans ((State.onPort_within ..).mono hs)
    exact Within.ite hy (hy.trans (hf _))

theorem State.bumpTally_within (s : State) (stream : Nat) :
    Within [.ring] s (State.bumpTally s stream) := by
  unfold State.bumpTally
  exact (State.onRing_within ..).mono (by decide)

theorem State.onEnc_within (s : State) (p : Nat) (f : Enc → Enc) :
    Within [.ring] s (State.onEnc s p f) := by
  unfold State.onEnc
  exact (State.onRing_within ..).mono (by decide)

theorem State.countSent_within (s : State) (p : ℕ) :
    Within [.ring] s (State.countSent s p) := by
  unfold State.countSent
  refine Within.ite ?_ ?_
  · exact (State.onEnc_within ..).mono (by decide)
  · exact Within.refl _ _

theorem State.sendCell_within (s : State) (p : ℕ) (c : Bytes) :
    Within [.out, .ring] s (State.sendCell s p c) := by
  unfold State.sendCell
  refine Within.trans ?_ ((State.countSent_within ..).mono (by decide))
  exact (State.emit_within ..).mono (by decide)

theorem State.countOpened_within (s : State) (p : ℕ) :
    Within [.ring] s (State.countOpened s p) := by
  unfold State.countOpened
  refine Within.ite ?_ ?_
  · exact (State.onEnc_within ..).mono (by decide)
  · exact Within.refl _ _

theorem State.countCheck_within (s : State) (p : Nat) (v : CellCheck) :
    Within [.regs, .ring] s (State.countCheck s p v) := by
  unfold State.countCheck
  extract_lets y1
  refine Within.via y1 ?_ fun _ => ?_
  · refine Within.ite ?_ ?_
    · exact (State.onEnc_within ..).mono (by decide)
    · exact Within.refl _ _
  clear_value y1
  split
  · assumption
  · refine Within.trans ?_ ((State.inc_within ..).mono (by decide))
    assumption
  · refine Within.trans ?_ ((State.inc_within ..).mono (by decide))
    assumption
  · refine Within.trans ?_ ((State.inc_within ..).mono (by decide))
    assumption

theorem State.tileSend_within (s : State) (stream : Nat) (addr : Nat) (msg : Bytes) :
    Within [.out, .ring] s (State.tileSend s stream addr msg) := by
  unfold State.tileSend
  extract_lets y1
  clear_value y1
  refine Within.each _ _ (fun x a => ?_) ?_
  · extract_lets y2 y3 y4
    clear_value y2 y3
    refine Within.via y4 ?_ fun _ => ?_
    · refine Within.ite ?_ ?_
      · exact Within.refl _ _
      · exact (State.bumpTally_within ..).mono (by decide)
    clear_value y4
    refine Within.trans ?_ ((State.sendCell_within ..).mono (by decide))
    refine Within.trans ?_ ((State.sendCell_within ..).mono (by decide))
    assumption
  · exact Within.refl _ _

theorem State.reply_within (s : State) (ctx : Nat) (index : Option Nat) (originTicket : Nat) (originCtx : Nat) (entry : Bytes) (answer : Bytes) :
    Within [.out, .host, .ring] s (State.reply s ctx index originTicket originCtx entry answer) := by
  unfold State.reply
  extract_lets y1
  clear_value y1
  refine Within.trans ?_ ((State.tileSend_within ..).mono (by decide))
  exact (State.onHost_within ..).mono (by decide)

theorem State.deliver_within (s : State) (c : ℕ) (bit : ℕ) :
    Within [.out, .host, .ring] s (State.deliver s c bit) := by
  unfold State.deliver
  extract_lets y1
  clear_value y1
  split
  · refine Within.when _ _ (fun x => ?_) ?_
    · exact (State.emit_within ..).mono (by decide)
    · exact Within.refl _ _
  · refine Within.when _ _ (fun x => ?_) ?_
    · exact (State.emit_within ..).mono (by decide)
    · exact Within.refl _ _
  · exact (State.reply_within ..).mono (by decide)
  · exact Within.refl _ _

theorem State.irq_within (s : State) (f : Fld) (c : Nat) :
    Within [.regs, .out, .host, .ring] s (State.irq s f c) := by
  unfold State.irq
  extract_lets y1
  refine Within.via y1 ?_ fun _ => ?_
  · exact (State.flag_within ..).mono (by decide)
  clear_value y1
  refine Within.ite ?_ ?_
  · exact Within.refl _ _
  · refine Within.ite ?_ ?_
    · refine Within.trans ?_ ((State.deliver_within ..).mono (by decide))
      assumption
    · assumption

theorem State.irqAll_within (s : State) (f : Fld) :
    Within [.regs, .out, .host, .ring] s (State.irqAll s f) := by
  unfold State.irqAll
  refine Within.each _ _ (fun x a => ?_) ?_
  · exact (State.irq_within ..).mono (by decide)
  · exact Within.refl _ _

theorem State.ctxFault_within (s : State) (f : Fld) (c : Nat) :
    Within [.regs, .out, .host, .ring] s (State.ctxFault s f c) := by
  unfold State.ctxFault
  refine Within.trans ?_ ((State.irq_within ..).mono (by decide))
  exact (State.flag_within ..).mono (by decide)

theorem State.timeEvent_within (s : State) (f : Fld) :
    Within [.regs, .out, .host, .ring] s (State.timeEvent s f) := by
  unfold State.timeEvent
  refine Within.trans ?_ ((State.irqAll_within ..).mono (by decide))
  exact (State.flag_within ..).mono (by decide)

theorem State.flockEvent_within (s : State) (f : Fld) :
    Within [.regs, .out, .host, .ring] s (State.flockEvent s f) := by
  unfold State.flockEvent
  refine Within.trans ?_ ((State.irqAll_within ..).mono (by decide))
  exact (State.flag_within ..).mono (by decide)

theorem State.judgeBounds_within (s : State) (c : ℕ) :
    Within [.host] s (State.judgeBounds s c) := by
  unfold State.judgeBounds
  extract_lets y1
  clear_value y1
  split
  · refine Within.ite ?_ ?_
    · exact (State.onCtx_within ..).mono (by decide)
    · exact Within.refl _ _
  · refine Within.ite ?_ ?_
    · exact Within.refl _ _
    · exact (State.onCtx_within ..).mono (by decide)

theorem State.transports_within (s : State) :
    Within [.regs, .host] s (State.transports s) := by
  unfold State.transports
  refine Within.each _ _ (fun x a => ?_) ?_
  · refine Within.trans ?_ ((State.judgeBounds_within ..).mono (by decide))
    exact (State.flag_within ..).mono (by decide)
  · exact Within.refl _ _

end Sys2Proof.Machine
end

