-- ==== Sys2Proof/Laws/WithinTimeOps.lean ====
section
/-! SUPPORT. What each operation and each meaning of Machine/TimeOps.lean can do to the state: the parts it may change, and that it
keeps the canonical form and the shape. -/
set_option Elab.async false
namespace Sys2Proof.Machine

theorem State.clockTick_within (s : State) :
    Within [.time] s (State.clockTick s) := by
  unfold State.clockTick
  exact (State.onTime_within ..).mono (by decide)

theorem State.passTime_within (s : State) :
    Within [.time] s (State.passTime s) := by
  unfold State.passTime
  extract_lets y1
  refine Within.via y1 ?_ fun _ => ?_
  · refine Within.ite ?_ ?_
    · exact (State.onTime_within ..).mono (by decide)
    · exact Within.refl _ _
  clear_value y1
  refine Within.ite ?_ ?_
  · refine Within.trans ?_ ((State.clockTick_within ..).mono (by decide))
    assumption
  · assumption

theorem State.capture_within (s : State) :
    Within [.regs] s (State.capture s) := by
  unfold State.capture
  extract_lets y1
  clear_value y1
  refine Within.trans ?_ ((State.put_within ..).mono (by decide))
  refine Within.trans ?_ ((State.put_within ..).mono (by decide))
  exact (State.put64_within ..).mono (by decide)

theorem State.lockReset_within (s : State) :
    Within [.regs, .fresh, .time] s (State.lockReset s) := by
  unfold State.lockReset
  extract_lets y1 y2
  refine Within.via y1 ?_ fun _ => ?_
  · refine Within.trans ?_ ((State.put_within ..).mono (by decide))
    refine Within.trans ?_ ((State.put_within ..).mono (by decide))
    refine Within.trans ?_ ((State.put_within ..).mono (by decide))
    exact (State.onTime_within ..).mono (by decide)
  clear_value y1
  refine Within.via y2 ?_ fun _ => ?_
  · refine Within.each _ _ (fun x a => ?_) ?_
    · exact (State.flag_within ..).mono (by decide)
    · assumption
  clear_value y2
  refine Within.ite ?_ ?_
  · assumption
  · refine Within.trans ?_ ((State.flag_within ..).mono (by decide))
    refine Within.trans ?_ ((State.flag_within ..).mono (by decide))
    refine Within.trans ?_ ((State.tickFresh_within ..).mono (by decide))
    refine Within.trans ?_ ((State.put_within ..).mono (by decide))
    assumption

theorem State.restarts_within (s : State) (c : ℕ) :
    Within [.xing, .ingest, .folds, .lamp, .therm, .latch] s (State.restarts s c) := by
  unfold State.restarts
  extract_lets y1 y2 y3 y4
  refine Within.via y2 ?_ fun _ => ?_
  · refine Within.trans ?_ ((State.onLamp_within ..).mono (by decide))
    exact (State.onIngest_within ..).mono (by decide)
  clear_value y1 y2
  refine Within.via y3 ?_ fun _ => ?_
  · refine Within.trans ?_ ((State.onTherm_within ..).mono (by decide))
    refine Within.trans ?_ ((State.onXing_within ..).mono (by decide))
    assumption
  clear_value y3
  refine Within.via y4 ?_ fun _ => ?_
  · refine Within.trans ?_ ((State.onLatch_within ..).mono (by decide))
    assumption
  clear_value y4
  refine Within.each _ _ (fun x a => ?_) ?_
  · exact (State.onFold_within ..).mono (by decide)
  · assumption

theorem State.healthFrom_within (s : State) :
    Within [.bist] s (State.healthFrom s) := by
  unfold State.healthFrom
  exact (State.onBist_within ..).mono (by decide)

theorem State.stepClock_within (s : State) (c : ℕ) (st : ℕ) :
    Within [.regs, .out, .xing, .time, .host, .ring, .ingest, .folds, .lamp, .therm, .bist, .latch] s (State.stepClock s c st) := by
  unfold State.stepClock
  refine Within.trans ?_ ((State.healthFrom_within ..).mono (by decide))
  refine Within.trans ?_ ((State.timeEvent_within ..).mono (by decide))
  refine Within.trans ?_ ((State.put_within ..).mono (by decide))
  refine Within.trans ?_ ((State.put_within ..).mono (by decide))
  refine Within.trans ?_ ((State.onTime_within ..).mono (by decide))
  exact (State.restarts_within ..).mono (by decide)

theorem State.servo_within (s : State) :
    Within [.regs, .fresh, .out, .time, .host, .ring] s (State.servo s).1 := by
  unfold State.servo
  extract_lets y1 y2 y3 y4 y5 y6 y7
  refine Within.via y5 ?_ fun _ => ?_
  · refine Within.trans ?_ ((State.tickFresh_within ..).mono (by decide))
    exact (State.tickFresh_within ..).mono (by decide)
  clear_value y1 y2 y3 y4 y5
  refine Within.via y6 ?_ fun _ => ?_
  · refine Within.ite ?_ ?_
    · refine Within.trans ?_ ((State.timeEvent_within ..).mono (by decide))
      assumption
    · assumption
  clear_value y6
  clear_value y7
  dsimp -zeta only
  refine Within.trans ?_ ((State.onTime_within ..).mono (by decide))
  refine Within.trans ?_ ((State.putS_within ..).mono (by decide))
  assumption

theorem State.holdover_within (s : State) :
    Within [.regs, .out, .time, .host, .ring] s (State.holdover s) := by
  unfold State.holdover
  refine Within.ite ?_ ?_
  · exact Within.refl _ _
  · extract_lets y1
    clear_value y1
    refine Within.trans ?_ ((State.timeEvent_within ..).mono (by decide))
    refine Within.trans ?_ ((State.put_within ..).mono (by decide))
    refine Within.trans ?_ ((State.onTime_within ..).mono (by decide))
    exact (State.putS_within ..).mono (by decide)

theorem State.onPd_within (s : State) (p : Nat) (f : PdPort → PdPort) :
    Within [.time] s (State.onPd s p f) := by
  unfold State.onPd
  exact (State.onTime_within ..).mono (by decide)

theorem execPdelayTimer_within (port : Fin 7) (s : State) :
    Within [.out, .time] s (outcomeState (execPdelayTimer port s) s) := by
  unfold execPdelayTimer
  extract_lets y1
  clear_value y1
  dsimp -zeta only [outcomeState]
  refine Within.ite ?_ ?_
  · refine Within.trans ?_ ((State.emit_within ..).mono (by decide))
    exact (State.onPd_within ..).mono (by decide)
  · exact Within.refl _ _

theorem execPdreq_within (port : Fin 7) (body : Bytes) (s : State) :
    Within [.out, .link] s (outcomeState (execPdreq port body s) s) := by
  unfold execPdreq
  dsimp -zeta only [outcomeState]
  refine State.linkRx_within (by decide) ?_ ?_
  · intro _
    refine Within.ite ?_ ?_
    · exact (State.emit_within ..).mono (by decide)
    · exact Within.refl _ _
  · exact Within.refl _ _

theorem State.pdMeasure_within (s : State) (p : ℕ) (d : ℤ) :
    Within [.regs, .out, .time, .host, .ring] s (State.pdMeasure s p d) := by
  unfold State.pdMeasure
  extract_lets y1 y2 y3 y4
  refine Within.via y3 ?_ fun _ => ?_
  · exact (State.onPd_within ..).mono (by decide)
  clear_value y1 y2 y3
  refine Within.via y4 ?_ fun _ => ?_
  · refine Within.ite ?_ ?_
    · refine Within.trans ?_ ((State.timeEvent_within ..).mono (by decide))
      refine Within.trans ?_ ((State.flag_within ..).mono (by decide))
      assumption
    · assumption
  clear_value y4
  refine Within.trans ?_ ((State.putS_within ..).mono (by decide))
  refine Within.trans ?_ ((State.flag_within ..).mono (by decide))
  assumption

theorem State.setErr_within (s : State) (off : Int) (err : Nat) :
    Within [.regs] s (State.setErr s off err) := by
  unfold State.setErr
  extract_lets y1
  clear_value y1
  refine Within.trans ?_ ((State.flag_within ..).mono (by decide))
  refine Within.trans ?_ ((State.flag_within ..).mono (by decide))
  refine Within.trans ?_ ((State.put_within ..).mono (by decide))
  exact (State.putS_within ..).mono (by decide)

theorem State.applySample_within (s : State) (off : ℤ) (err : ℕ) :
    Within [.regs, .fresh, .out, .time, .host, .ring] s (State.applySample s off err) := by
  unfold State.applySample
  extract_lets y1 y2 y3 y4 y5 y6
  refine Within.via y2.1 ?_ fun _ => ?_
  · refine Within.trans ?_ ((State.servo_within ..).mono (by decide))
    exact (State.setErr_within ..).mono (by decide)
  clear_value y1 y2
  refine Within.via y4 ?_ fun _ => ?_
  · assumption
  clear_value y3 y4
  clear_value y5 y6
  refine Within.trans ?_ ((State.putS_within ..).mono (by decide))
  refine Within.trans ?_ ((State.put_within ..).mono (by decide))
  assumption

theorem State.slewTo_within (s : State) (p : ℕ) :
    Within [.regs, .out, .host, .ring] s (State.slewTo s p) := by
  unfold State.slewTo
  extract_lets y1 y2
  refine Within.via y2 ?_ fun _ => ?_
  · refine Within.trans ?_ ((State.timeEvent_within ..).mono (by decide))
    exact (State.put_within ..).mono (by decide)
  clear_value y1 y2
  refine Within.ite ?_ ?_
  · refine Within.trans ?_ ((State.putS_within ..).mono (by decide))
    refine Within.trans ?_ ((State.setErr_within ..).mono (by decide))
    assumption
  · assumption

theorem State.reSource_within (s : State) :
    Within [.regs, .out, .time, .host, .ring] s (State.reSource s) := by
  unfold State.reSource
  refine Within.ite ?_ ?_
  · exact Within.refl _ _
  · split
    · refine Within.trans ?_ ((State.holdover_within ..).mono (by decide))
      exact (State.put_within ..).mono (by decide)
    · extract_lets y1 y2 y3
      refine Within.via y3 ?_ fun _ => ?_
      · refine Within.trans ?_ ((State.onTime_within ..).mono (by decide))
        refine Within.trans ?_ ((State.put_within ..).mono (by decide))
        exact (State.put_within ..).mono (by decide)
      clear_value y1 y2 y3
      refine Within.when _ _ (fun x => ?_) ?_
      · exact (State.slewTo_within ..).mono (by decide)
      · assumption

theorem State.ewDiff_within (s : State) :
    Within [.regs] s (State.ewDiff s) := by
  unfold State.ewDiff
  extract_lets y1 y2
  clear_value y1
  refine Within.via y2 ?_ fun _ => ?_
  · exact (State.flag_within ..).mono (by decide)
  clear_value y2
  refine Within.ite ?_ ?_
  · refine Within.trans ?_ ((State.putS_within ..).mono (by decide))
    assumption
  · assumption

theorem State.useSample_within (s : State) (p : ℕ) (chain : ℤ) (off : ℤ) :
    Within [.regs, .fresh, .out, .xing, .time, .host, .ring, .ingest, .folds, .lamp, .therm, .bist, .latch] s (State.useSample s p chain off) := by
  unfold State.useSample
  extract_lets y1 y2
  refine Within.via y1 ?_ fun _ => ?_
  · exact (State.onPd_within ..).mono (by decide)
  clear_value y1
  refine Within.via y2 ?_ fun _ => ?_
  · refine Within.trans ?_ ((State.ewDiff_within ..).mono (by decide))
    refine Within.trans ?_ ((State.reSource_within ..).mono (by decide))
    refine Within.trans ?_ ((State.tickFresh_within ..).mono (by decide))
    assumption
  clear_value y2
  split
  · assumption
  · refine Within.ite ?_ ?_
    · assumption
    · refine Within.ite ?_ ?_
      · refine Within.trans ?_ ((State.setErr_within ..).mono (by decide))
        refine Within.trans ?_ ((State.put_within ..).mono (by decide))
        refine Within.trans ?_ ((State.stepClock_within ..).mono (by decide))
        assumption
      · refine Within.trans ?_ ((State.applySample_within ..).mono (by decide))
        assumption

theorem State.pdLost_within (s : State) (p : ℕ) :
    Within [.regs, .time] s (State.pdLost s p) := by
  unfold State.pdLost
  refine Within.trans ?_ ((State.inc_within ..).mono (by decide))
  exact (State.onPd_within ..).mono (by decide)

theorem execPdresp_within (port : Fin 7) (body : Bytes) (s : State) :
    Within [.regs, .fresh, .out, .xing, .time, .host, .ring, .link, .ingest, .folds, .lamp, .therm, .bist, .latch] s (outcomeState (execPdresp port body s) s) := by
  unfold execPdresp
  dsimp -zeta only [outcomeState]
  refine State.linkRx_within (by decide) ?_ ?_
  · intro _
    split
    · refine Within.ite ?_ ?_
      · refine Within.ite ?_ ?_
        · exact (State.pdLost_within ..).mono (by decide)
        · extract_lets y1 y2 y3 y4 y5 y6 y7
          refine Within.via y6 ?_ fun _ => ?_
          · refine Within.trans ?_ ((State.pdMeasure_within ..).mono (by decide))
            exact (State.onPd_within ..).mono (by decide)
          clear_value y1 y2 y3 y4 y5 y6
          clear_value y7
          refine Within.each _ _ (fun x a => ?_) ?_
          · exact (State.useSample_within ..).mono (by decide)
          · assumption
      · exact Within.refl _ _
    · exact Within.refl _ _
  · exact Within.refl _ _

theorem execPdrespTimeout_within (port : Fin 7) (s : State) :
    Within [.regs, .time] s (outcomeState (execPdrespTimeout port s) s) := by
  unfold execPdrespTimeout
  dsimp -zeta only [outcomeState]
  split
  · refine Within.ite ?_ ?_
    · exact (State.pdLost_within ..).mono (by decide)
    · exact Within.refl _ _
  · exact Within.refl _ _

theorem execTimeCellTimer_within (port : Fin 7) (s : State) :
    Within [.out, .time, .ring] s (outcomeState (execTimeCellTimer port s) s) := by
  unfold execTimeCellTimer
  extract_lets y1
  clear_value y1
  dsimp -zeta only [outcomeState]
  refine Within.ite ?_ ?_
  · refine Within.trans ?_ ((State.sendCell_within ..).mono (by decide))
    exact (State.onPd_within ..).mono (by decide)
  · exact Within.refl _ _

theorem State.timeCell_within (s : State) (p : ℕ) (t : ℕ) (b : Bytes) :
    Within [.regs, .fresh, .out, .xing, .time, .host, .ring, .ingest, .folds, .lamp, .therm, .bist, .latch] s (State.timeCell s p t b) := by
  unfold State.timeCell
  extract_lets y1 y2 y3 y4 y5 y6 y7 y8 y9
  refine Within.via y1 ?_ fun _ => ?_
  · dsimp -zeta only [y1]
    split
    · refine Within.ite ?_ ?_
      · exact Within.refl _ _
      · exact (State.inc_within ..).mono (by decide)
    · exact Within.refl _ _
  clear_value y1
  refine Within.via y4 ?_ fun _ => ?_
  · refine Within.trans ?_ ((State.onPd_within ..).mono (by decide))
    assumption
  clear_value y2 y3 y4
  refine Within.via y5 ?_ fun _ => ?_
  · refine Within.trans ?_ ((State.flag_within ..).mono (by decide))
    assumption
  clear_value y5
  refine Within.via y6 ?_ fun _ => ?_
  · refine Within.ite ?_ ?_
    · refine Within.trans ?_ ((State.flag_within ..).mono (by decide))
      refine Within.trans ?_ ((State.onPd_within ..).mono (by decide))
      refine Within.trans ?_ ((State.timeEvent_within ..).mono (by decide))
      refine Within.trans ?_ ((State.put_within ..).mono (by decide))
      refine Within.trans ?_ ((State.onTime_within ..).mono (by decide))
      refine Within.trans ?_ ((State.lockReset_within ..).mono (by decide))
      assumption
    · assumption
  clear_value y6
  clear_value y7 y8 y9
  refine Within.ite ?_ ?_
  · refine Within.trans ?_ ((State.ewDiff_within ..).mono (by decide))
    refine Within.trans ?_ ((State.reSource_within ..).mono (by decide))
    assumption
  · refine Within.ite ?_ ?_
    · refine Within.trans ?_ ((State.inc_within ..).mono (by decide))
      refine Within.trans ?_ ((State.onPd_within ..).mono (by decide))
      assumption
    · refine Within.trans ?_ ((State.useSample_within ..).mono (by decide))
      assumption

theorem State.chainLapse_within (s : State) :
    Within [.regs, .out, .time, .host, .ring] s (State.chainLapse s) := by
  unfold State.chainLapse
  extract_lets y1 y2
  refine Within.via y2 ?_ fun _ => ?_
  · refine Within.each _ _ (fun x a => ?_) ?_
    · refine Within.trans ?_ ((State.flag_within ..).mono (by decide))
      exact (State.onPd_within ..).mono (by decide)
    · exact Within.refl _ _
  clear_value y1 y2
  refine Within.ite ?_ ?_
  · exact Within.refl _ _
  · refine Within.trans ?_ ((State.ewDiff_within ..).mono (by decide))
    refine Within.trans ?_ ((State.reSource_within ..).mono (by decide))
    assumption

theorem State.bwStep_within (s : State) (target : ℕ) (st : ℕ) (src : ℕ) :
    Within [.regs, .out, .xing, .time, .host, .ring, .ingest, .folds, .lamp, .therm, .bist, .latch] s (State.bwStep s target st src) := by
  unfold State.bwStep
  extract_lets y1 y2 y3
  refine Within.via y2 ?_ fun _ => ?_
  · exact (State.onRing_within ..).mono (by decide)
  clear_value y1 y2
  refine Within.via y3 ?_ fun _ => ?_
  · refine Within.trans ?_ ((State.timeEvent_within ..).mono (by decide))
    refine Within.trans ?_ ((State.stepClock_within ..).mono (by decide))
    refine Within.trans ?_ ((State.onTime_within ..).mono (by decide))
    assumption
  clear_value y3
  refine Within.trans ?_ ((State.setErr_within ..).mono (by decide))
  refine Within.trans ?_ ((State.put_within ..).mono (by decide))
  refine Within.trans ?_ ((State.put_within ..).mono (by decide))
  refine Within.trans ?_ ((State.put_within ..).mono (by decide))
  assumption

theorem State.electStep_within (s : State) :
    Within [.regs, .out, .xing, .time, .host, .ring, .ingest, .folds, .lamp, .therm, .bist, .latch] s (State.electStep s) := by
  unfold State.electStep
  extract_lets y1
  clear_value y1
  refine Within.ite ?_ ?_
  · exact (State.bwStep_within ..).mono (by decide)
  · refine Within.ite ?_ ?_
    · exact (State.bwStep_within ..).mono (by decide)
    · refine Within.trans ?_ ((State.holdover_within ..).mono (by decide))
      exact (State.bwStep_within ..).mono (by decide)

theorem State.takeTime_within (s : State) :
    Within [.regs, .out, .xing, .time, .host, .ring, .ingest, .folds, .lamp, .therm, .bist, .latch] s (State.takeTime s) := by
  unfold State.takeTime
  extract_lets y1 y2 y3
  refine Within.via y2 ?_ fun _ => ?_
  · refine Within.trans ?_ ((State.setErr_within ..).mono (by decide))
    exact (State.put_within ..).mono (by decide)
  clear_value y1 y2
  refine Within.via y3 ?_ fun _ => ?_
  · refine Within.trans ?_ ((State.put_within ..).mono (by decide))
    refine Within.trans ?_ ((State.put_within ..).mono (by decide))
    assumption
  clear_value y3
  refine Within.ite ?_ ?_
  · refine Within.when _ _ (fun x => ?_) ?_
    · exact (State.electStep_within ..).mono (by decide)
    · assumption
  · refine Within.ite ?_ ?_
    · refine Within.trans ?_ ((State.timeEvent_within ..).mono (by decide))
      refine Within.trans ?_ ((State.put_within ..).mono (by decide))
      assumption
    · refine Within.ite ?_ ?_
      · refine Within.trans ?_ ((State.timeEvent_within ..).mono (by decide))
        refine Within.trans ?_ ((State.put_within ..).mono (by decide))
        assumption
      · refine Within.trans ?_ ((State.holdover_within ..).mono (by decide))
        assumption

theorem State.writeTimeSet_within (s : State) (v : ℕ) :
    Within [.regs, .out, .xing, .time, .host, .ring, .ingest, .folds, .lamp, .therm, .bist, .latch] s (State.writeTimeSet s v) := by
  unfold State.writeTimeSet
  refine Within.ite ?_ ?_
  · exact Within.refl _ _
  · extract_lets y1 y2
    refine Within.via y1 ?_ fun _ => ?_
    · exact (State.put_within ..).mono (by decide)
    clear_value y1
    refine Within.via y2 ?_ fun _ => ?_
    · refine Within.trans ?_ ((State.onTime_within ..).mono (by decide))
      assumption
    clear_value y2
    refine Within.ite ?_ ?_
    · refine Within.trans ?_ ((State.electStep_within ..).mono (by decide))
      assumption
    · assumption

theorem State.writeTimeSetLo_within (s : State) (v : ℕ) :
    Within [.regs] s (State.writeTimeSetLo s v) := by
  unfold State.writeTimeSetLo
  refine Within.ite ?_ ?_
  · exact Within.refl _ _
  · exact (State.put_within ..).mono (by decide)

theorem execTimeSetWrite_within (value : ℕ) (s : State) :
    Within [.regs, .out, .xing, .time, .host, .ring, .ingest, .folds, .lamp, .therm, .bist, .latch] s (outcomeState (execTimeSetWrite value s) s) := by
  unfold execTimeSetWrite
  dsimp -zeta only [outcomeState]
  refine Within.ite ?_ ?_
  · exact (State.writeTimeSet_within ..).mono (by decide)
  · exact Within.refl _ _

theorem execTimeCapture_within (s : State) :
    Within [.regs] s (outcomeState (execTimeCapture s) s) := by
  unfold execTimeCapture
  dsimp -zeta only [outcomeState]
  refine Within.ite ?_ ?_
  · exact (State.capture_within ..).mono (by decide)
  · exact Within.refl _ _

theorem State.bwRelock_within (s : State) :
    Within [.regs, .out, .xing, .time, .host, .ring, .ingest, .folds, .lamp, .therm, .bist, .latch] s (State.bwRelock s) := by
  unfold State.bwRelock
  refine Within.ite ?_ ?_
  · exact (State.electStep_within ..).mono (by decide)
  · exact Within.refl _ _

theorem State.relock_within (s : State) :
    Within [.regs, .fresh, .out, .xing, .time, .host, .ring, .ingest, .folds, .lamp, .therm, .bist, .latch] s (State.relock s) := by
  unfold State.relock
  refine Within.trans ?_ ((State.bwRelock_within ..).mono (by decide))
  exact (State.lockReset_within ..).mono (by decide)

theorem execTimeRelock_within (s : State) :
    Within [.regs, .fresh, .out, .xing, .time, .host, .ring, .ingest, .folds, .lamp, .therm, .bist, .latch] s (outcomeState (execTimeRelock s) s) := by
  unfold execTimeRelock
  dsimp -zeta only [outcomeState]
  refine Within.ite ?_ ?_
  · exact (State.relock_within ..).mono (by decide)
  · exact Within.refl _ _

theorem State.timeClear_within (s : State) :
    Within [.regs] s (State.timeClear s) := by
  unfold State.timeClear
  refine Within.trans ?_ ((State.put_within ..).mono (by decide))
  refine Within.trans ?_ ((State.put_within ..).mono (by decide))
  refine Within.trans ?_ ((State.put_within ..).mono (by decide))
  exact (State.put_within ..).mono (by decide)

theorem execTimeClear_within (s : State) :
    Within [.regs] s (outcomeState (execTimeClear s) s) := by
  unfold execTimeClear
  dsimp -zeta only [outcomeState]
  refine Within.ite ?_ ?_
  · exact (State.timeClear_within ..).mono (by decide)
  · exact Within.refl _ _

theorem State.qualify_within (s : State) (target : ℕ) :
    Within [.regs, .fresh, .out, .xing, .time, .host, .ring, .ingest, .folds, .lamp, .therm, .bist, .latch] s (State.qualify s target) := by
  unfold State.qualify
  extract_lets y1 y2 y3 y4
  refine Within.via y1 ?_ fun _ => ?_
  · exact (State.onTime_within ..).mono (by decide)
  clear_value y1
  refine Within.via y4 ?_ fun _ => ?_
  · refine Within.trans ?_ ((State.timeEvent_within ..).mono (by decide))
    refine Within.trans ?_ ((State.onTime_within ..).mono (by decide))
    assumption
  clear_value y2 y3 y4
  refine Within.ite ?_ ?_
  · assumption
  · refine Within.ite ?_ ?_
    · refine Within.trans ?_ ((State.bwStep_within ..).mono (by decide))
      assumption
    · refine Within.trans ?_ ((State.applySample_within ..).mono (by decide))
      refine Within.trans ?_ ((State.put_within ..).mono (by decide))
      assumption

theorem State.followRef_within (s : State) (target : ℕ) :
    Within [.regs, .fresh, .out, .xing, .time, .host, .ring, .ingest, .folds, .lamp, .therm, .bist, .latch] s (State.followRef s target) := by
  unfold State.followRef
  refine Within.ite ?_ ?_
  · exact Within.refl _ _
  · refine Within.ite ?_ ?_
    · exact (State.qualify_within ..).mono (by decide)
    · exact (State.applySample_within ..).mono (by decide)

theorem execPpsEdge_within (rising : Bool) (s : State) :
    Within [.regs, .fresh, .out, .xing, .time, .host, .ring, .ingest, .folds, .lamp, .therm, .bist, .latch] s (outcomeState (execPpsEdge rising s) s) := by
  unfold execPpsEdge
  dsimp -zeta only [outcomeState]
  refine Within.ite ?_ ?_
  · exact Within.refl _ _
  · extract_lets y1 y2 y3 y4 y5
    refine Within.via y3 ?_ fun _ => ?_
    · exact (State.onTime_within ..).mono (by decide)
    clear_value y1 y2 y3
    refine Within.via y5 ?_ fun _ => ?_
    · refine Within.trans ?_ ((State.onTime_within ..).mono (by decide))
      assumption
    clear_value y4 y5
    split
    · refine Within.trans ?_ ((State.onTime_within ..).mono (by decide))
      assumption
    · extract_lets y6
      clear_value y6
      refine Within.ite ?_ ?_
      · refine Within.ite ?_ ?_
        · exact (State.inc_within ..).mono (by decide)
        · refine Within.trans ?_ ((State.followRef_within ..).mono (by decide))
          assumption
      · refine Within.ite ?_ ?_
        · refine Within.ite ?_ ?_
          · refine Within.trans ?_ ((State.qualify_within ..).mono (by decide))
            assumption
          · assumption
        · refine Within.trans ?_ ((State.onTime_within ..).mono (by decide))
          assumption

theorem State.refLost_within (s : State) :
    Within [.regs, .out, .time, .host, .ring] s (State.refLost s) := by
  unfold State.refLost
  extract_lets y1
  refine Within.via y1 ?_ fun _ => ?_
  · exact (State.onTime_within ..).mono (by decide)
  clear_value y1
  refine Within.ite ?_ ?_
  · refine Within.trans ?_ ((State.timeEvent_within ..).mono (by decide))
    refine Within.trans ?_ ((State.holdover_within ..).mono (by decide))
    refine Within.trans ?_ ((State.put_within ..).mono (by decide))
    assumption
  · assumption

theorem State.newMode_within (s : State) :
    Within [.regs, .out, .xing, .time, .host, .ring, .ingest, .folds, .lamp, .therm, .bist, .latch] s (State.newMode s) := by
  unfold State.newMode
  extract_lets y1
  refine Within.via y1 ?_ fun _ => ?_
  · exact (State.onTime_within ..).mono (by decide)
  clear_value y1
  refine Within.when _ _ (fun x => ?_) ?_
  · exact (State.takeTime_within ..).mono (by decide)
  · assumption

theorem execPpsTimeout_within (s : State) :
    Within [.regs, .out, .time, .host, .ring] s (outcomeState (execPpsTimeout s) s) := by
  unfold execPpsTimeout
  dsimp -zeta only [outcomeState]
  refine Within.ite ?_ ?_
  · exact (State.refLost_within ..).mono (by decide)
  · exact Within.refl _ _

theorem State.onPtp_within (s : State) (f : Ptp → Ptp) :
    Within [.time] s (State.onPtp s f) := by
  unfold State.onPtp
  exact (State.onTime_within ..).mono (by decide)

theorem State.sendPtp_within (s : State) (udp : ℕ) (m : Bytes) :
    Within [.out] s (State.sendPtp s udp m) := by
  unfold State.sendPtp
  exact (State.emit_within ..).mono (by decide)

theorem State.ptpRegs_within (s : State) :
    Within [.regs] s (State.ptpRegs s) := by
  unfold State.ptpRegs
  extract_lets y1 y2 y3
  clear_value y1 y2 y3
  refine Within.trans ?_ ((State.put64_within ..).mono (by decide))
  refine Within.trans ?_ ((State.put_within ..).mono (by decide))
  exact (State.put_within ..).mono (by decide)

theorem State.dropMasters_within (s : State) (keep : Foreign → Bool) :
    Within [.regs, .out, .time, .host, .ring] s (State.dropMasters s keep) := by
  unfold State.dropMasters
  extract_lets y1 y2 y3 y4
  refine Within.via y1 ?_ fun _ => ?_
  · exact (State.onPtp_within ..).mono (by decide)
  clear_value y1
  refine Within.via y3 ?_ fun _ => ?_
  · refine Within.when _ _ (fun x => ?_) ?_
    · exact (State.onPtp_within ..).mono (by decide)
    · assumption
  clear_value y2 y3
  clear_value y4
  refine Within.trans ?_ ((State.ptpRegs_within ..).mono (by decide))
  refine Within.when _ _ (fun x => ?_) ?_
  · exact (State.refLost_within ..).mono (by decide)
  · assumption

theorem execPtpAnnounceTimeout_within (s : State) :
    Within [.regs, .out, .time, .host, .ring] s (outcomeState (execPtpAnnounceTimeout s) s) := by
  unfold execPtpAnnounceTimeout
  extract_lets y1
  clear_value y1
  dsimp -zeta only [outcomeState]
  refine Within.ite ?_ ?_
  · exact (State.dropMasters_within ..).mono (by decide)
  · exact Within.refl _ _

theorem State.ptpRestart_within (s : State) :
    Within [.regs, .out, .time, .host, .ring] s (State.ptpRestart s) := by
  unfold State.ptpRestart
  exact (State.dropMasters_within ..).mono (by decide)

theorem execPtpAnnounceRx_within (m : PtpAnnounce) (s : State) :
    Within [.regs, .out, .time, .host, .ring] s (outcomeState (execPtpAnnounceRx m s) s) := by
  unfold execPtpAnnounceRx
  dsimp -zeta only [outcomeState]
  refine Within.ite ?_ ?_
  · exact Within.refl _ _
  · extract_lets y1 y2 y3 y4 y5 y6
    refine Within.via y2 ?_ fun _ => ?_
    · exact (State.onPtp_within ..).mono (by decide)
    clear_value y1 y2
    refine Within.via y4 ?_ fun _ => ?_
    · refine Within.when _ _ (fun x => ?_) ?_
      · exact (State.onPtp_within ..).mono (by decide)
      · assumption
    clear_value y3 y4
    refine Within.via y5 ?_ fun _ => ?_
    · refine Within.when _ _ (fun x => ?_) ?_
      · refine Within.trans ?_ ((State.timeEvent_within ..).mono (by decide))
        exact (State.put_within ..).mono (by decide)
      · assumption
    clear_value y5
    refine Within.via y6 ?_ fun _ => ?_
    · refine Within.trans ?_ ((State.ptpRegs_within ..).mono (by decide))
      refine Within.trans ?_ ((State.onPtp_within ..).mono (by decide))
      assumption
    clear_value y6
    refine Within.ite ?_ ?_
    · refine Within.trans ?_ ((State.flag_within ..).mono (by decide))
      refine Within.trans ?_ ((State.flag_within ..).mono (by decide))
      refine Within.trans ?_ ((State.flag_within ..).mono (by decide))
      refine Within.trans ?_ ((State.put_within ..).mono (by decide))
      assumption
    · refine Within.trans ?_ ((State.ptpRegs_within ..).mono (by decide))
      assumption

theorem execPtpSyncRx_within (m : PtpSync) (s : State) :
    Within [.regs, .fresh, .out, .xing, .time, .host, .ring, .ingest, .folds, .lamp, .therm, .bist, .latch] s (outcomeState (execPtpSyncRx m s) s) := by
  unfold execPtpSyncRx
  dsimp -zeta only [outcomeState]
  refine Within.ite ?_ ?_
  · exact Within.refl _ _
  · extract_lets y1 y2 y3 y4
    refine Within.via y4 ?_ fun _ => ?_
    · exact (State.onPtp_within ..).mono (by decide)
    clear_value y1 y2 y3 y4
    refine Within.ite ?_ ?_
    · refine Within.trans ?_ ((State.followRef_within ..).mono (by decide))
      assumption
    · refine Within.trans ?_ ((State.qualify_within ..).mono (by decide))
      assumption

theorem execPtpDelayReqTimer_within (s : State) :
    Within [.out, .time] s (outcomeState (execPtpDelayReqTimer s) s) := by
  unfold execPtpDelayReqTimer
  extract_lets y1 y2
  clear_value y1 y2
  dsimp -zeta only [outcomeState]
  refine Within.ite ?_ ?_
  · refine Within.trans ?_ ((State.emit_within ..).mono (by decide))
    exact (State.onPtp_within ..).mono (by decide)
  · exact Within.refl _ _

theorem execPtpDelayRespRx_within (seq : Nat) (rx : Nat) (s : State) :
    Within [.regs, .time] s (outcomeState (execPtpDelayRespRx seq rx s) s) := by
  unfold execPtpDelayRespRx
  dsimp -zeta only [outcomeState]
  split
  · refine Within.ite ?_ ?_
    · refine Within.trans ?_ ((State.putS_within ..).mono (by decide))
      exact (State.onPtp_within ..).mono (by decide)
    · exact Within.refl _ _
  · exact Within.refl _ _

theorem execPtpPdelayRespRx_within (seq : Nat) (t2 : Nat) (t3 : Nat) (s : State) :
    Within [.regs, .time] s (outcomeState (execPtpPdelayRespRx seq t2 t3 s) s) := by
  unfold execPtpPdelayRespRx
  dsimp -zeta only [outcomeState]
  split
  · refine Within.ite ?_ ?_
    · refine Within.trans ?_ ((State.putS_within ..).mono (by decide))
      exact (State.onPtp_within ..).mono (by decide)
    · exact Within.refl _ _
  · exact Within.refl _ _

theorem execPtpPdelayReqRx_within (seq : Nat) (requester : Nat) (s : State) :
    Within [.out] s (outcomeState (execPtpPdelayReqRx seq requester s) s) := by
  unfold execPtpPdelayReqRx
  dsimp -zeta only [outcomeState]
  refine Within.ite ?_ ?_
  · exact (State.emit_within ..).mono (by decide)
  · exact Within.refl _ _

theorem execPtpMasterTxTimer_within (announce : Bool) (s : State) :
    Within [.regs, .out, .time] s (outcomeState (execPtpMasterTxTimer announce s) s) := by
  unfold execPtpMasterTxTimer
  dsimp -zeta only [outcomeState]
  refine Within.ite ?_ ?_
  · extract_lets y1
    refine Within.via y1 ?_ fun _ => ?_
    · exact (State.ptpRegs_within ..).mono (by decide)
    clear_value y1
    refine Within.ite ?_ ?_
    · refine Within.trans ?_ ((State.sendPtp_within ..).mono (by decide))
      refine Within.trans ?_ ((State.onPtp_within ..).mono (by decide))
      assumption
    · refine Within.trans ?_ ((State.sendPtp_within ..).mono (by decide))
      refine Within.trans ?_ ((State.onPtp_within ..).mono (by decide))
      assumption
  · exact Within.refl _ _

theorem State.commitTiming_within (s : State) (t : Nat) (new : Timing) :
    Within [.regs, .time] s (State.commitTiming s t new) := by
  unfold State.commitTiming
  extract_lets y1 y2
  clear_value y1
  refine Within.via y2 ?_ fun _ => ?_
  · refine Within.trans ?_ ((State.put_within ..).mono (by decide))
    refine Within.trans ?_ ((State.put_within ..).mono (by decide))
    exact (State.put_within ..).mono (by decide)
  clear_value y2
  refine Within.ite ?_ ?_
  · refine Within.trans ?_ ((State.onTime_within ..).mono (by decide))
    assumption
  · refine Within.trans ?_ ((State.onTime_within ..).mono (by decide))
    refine Within.trans ?_ ((State.put_within ..).mono (by decide))
    assumption

theorem State.onAlarm_within (s : State) (a : Nat) (f : Alarm → Alarm) :
    Within [.time] s (State.onAlarm s a f) := by
  unfold State.onAlarm
  exact (State.onTime_within ..).mono (by decide)

theorem State.drivePin_within (s : State) (k : ℕ) :
    Within [.out] s (State.drivePin s k) := by
  unfold State.drivePin
  exact (State.emit_within ..).mono (by decide)

theorem State.alarmPins_within (s : State) (a : ℕ) :
    Within [.out] s (State.alarmPins s a) := by
  unfold State.alarmPins
  refine Within.each _ _ (fun x a => ?_) ?_
  · refine Within.when _ _ (fun x => ?_) ?_
    · exact (State.drivePin_within ..).mono (by decide)
    · exact Within.refl _ _
  · exact Within.refl _ _

theorem State.fireAlarm_within (s : State) (a : Nat) :
    Within [.regs, .out, .time, .host, .ring] s (State.fireAlarm s a) := by
  unfold State.fireAlarm
  extract_lets y1 y2 y3 y4
  clear_value y1
  refine Within.via y2 ?_ fun _ => ?_
  · exact (State.flag_within ..).mono (by decide)
  clear_value y2
  refine Within.via y3 ?_ fun _ => ?_
  · refine Within.trans ?_ ((State.onAlarm_within ..).mono (by decide))
    assumption
  clear_value y3
  refine Within.via y4 ?_ fun _ => ?_
  · refine Within.ite ?_ ?_
    · refine Within.trans ?_ ((State.irqAll_within ..).mono (by decide))
      assumption
    · assumption
  clear_value y4
  refine Within.ite ?_ ?_
  · refine Within.trans ?_ ((State.alarmPins_within ..).mono (by decide))
    refine Within.trans ?_ ((State.onAlarm_within ..).mono (by decide))
    assumption
  · assumption

theorem State.armAlarm_within (s : State) (a : Nat) :
    Within [.regs, .out, .time, .host, .ring] s (State.armAlarm s a) := by
  unfold State.armAlarm
  extract_lets y1
  refine Within.via y1 ?_ fun _ => ?_
  · exact (State.onAlarm_within ..).mono (by decide)
  clear_value y1
  refine Within.ite ?_ ?_
  · exact (State.onAlarm_within ..).mono (by decide)
  · refine Within.ite ?_ ?_
    · refine Within.trans ?_ ((State.fireAlarm_within ..).mono (by decide))
      refine Within.trans ?_ ((State.flag_within ..).mono (by decide))
      assumption
    · assumption

theorem execAlarmArm_within (a : Fin 32) (s : State) :
    Within [.regs, .out, .time, .host, .ring] s (outcomeState (execAlarmArm a s) s) := by
  unfold execAlarmArm
  dsimp -zeta only [outcomeState]
  refine Within.ite ?_ ?_
  · refine Within.trans ?_ ((State.armAlarm_within ..).mono (by decide))
    exact (State.flag_within ..).mono (by decide)
  · exact Within.refl _ _

theorem execAlarmFire_within (a : Fin 32) (s : State) :
    Within [.regs, .out, .time, .host, .ring] s (outcomeState (execAlarmFire a s) s) := by
  unfold execAlarmFire
  dsimp -zeta only [outcomeState]
  refine Within.ite ?_ ?_
  · exact (State.fireAlarm_within ..).mono (by decide)
  · exact Within.refl _ _

theorem execAlarmPulseEnd_within (a : Fin 32) (s : State) :
    Within [.out, .time] s (outcomeState (execAlarmPulseEnd a s) s) := by
  unfold execAlarmPulseEnd
  dsimp -zeta only [outcomeState]
  split
  · refine Within.ite ?_ ?_
    · exact Within.refl _ _
    · refine Within.trans ?_ ((State.alarmPins_within ..).mono (by decide))
      exact (State.onAlarm_within ..).mono (by decide)
  · exact Within.refl _ _

end Sys2Proof.Machine
end

