-- ==== Sys2Proof/Laws/WithinRingOps.lean ====
section
/-! SUPPORT. What each operation and each meaning of Machine/RingOps.lean can do to the state: the parts it may change, and that it
keeps the canonical form and the shape. -/
set_option Elab.async false
namespace Sys2Proof.Machine

theorem State.sendRings_within (s : State) (c : Bytes) :
    Within [.out, .ring] s (State.sendRings s c) := by
  unfold State.sendRings
  refine Within.ite ?_ ?_
  · exact Within.refl _ _
  · refine Within.each _ _ (fun x a => ?_) ?_
    · refine Within.ite ?_ ?_
      · exact (State.sendCell_within ..).mono (by decide)
      · exact Within.refl _ _
    · exact Within.refl _ _

theorem State.digestCell_within (s : State) (body : Bytes) :
    Within [.ring] s (State.digestCell s body) := by
  unfold State.digestCell
  extract_lets y1 y2 y3
  clear_value y1 y2 y3
  exact (State.onRing_within ..).mono (by decide)

theorem State.bwSend_within (s : State) (stream : Nat) (addr : Nat) (msg : Bytes) :
    Within [.out, .ring] s (State.bwSend s stream addr msg) := by
  unfold State.bwSend
  extract_lets y1
  clear_value y1
  refine Within.each _ _ (fun x a => ?_) ?_
  · extract_lets y2 y3 y4 y5
    clear_value y2 y3
    refine Within.via y4 ?_ fun _ => ?_
    · refine Within.trans ?_ ((State.digestCell_within ..).mono (by decide))
      exact (State.bumpTally_within ..).mono (by decide)
    clear_value y4
    refine Within.via y5 ?_ fun _ => ?_
    · refine Within.trans ?_ ((State.sendCell_within ..).mono (by decide))
      assumption
    clear_value y5
    refine Within.ite ?_ ?_
    · refine Within.ite ?_ ?_
      · refine Within.trans ?_ ((State.onRing_within ..).mono (by decide))
        assumption
      · refine Within.trans ?_ ((State.sendRings_within ..).mono (by decide))
        assumption
    · refine Within.trans ?_ ((State.sendRings_within ..).mono (by decide))
      assumption
  · exact Within.refl _ _

theorem State.headSend_within (s : State) (stream : Nat) (msg : Bytes) :
    Within [.out, .ring] s (State.headSend s stream msg) := by
  unfold State.headSend
  extract_lets y1
  clear_value y1
  refine Within.each _ _ (fun x a => ?_) ?_
  · extract_lets y2 y3
    clear_value y2
    refine Within.via y3 ?_ fun _ => ?_
    · exact (State.bumpTally_within ..).mono (by decide)
    clear_value y3
    refine Within.each _ _ (fun x a => ?_) ?_
    · exact (State.sendCell_within ..).mono (by decide)
    · assumption
  · exact Within.refl _ _

theorem State.setWin_within (s : State) (w : Win) :
    Within [.regs, .ring] s (State.setWin s w) := by
  unfold State.setWin
  extract_lets y1
  refine Within.via y1 ?_ fun _ => ?_
  · exact (State.onRing_within ..).mono (by decide)
  clear_value y1
  refine Within.ite ?_ ?_
  · refine Within.trans ?_ ((State.put_within ..).mono (by decide))
    assumption
  · assumption

theorem State.passTally_within (s : State) (stream : ℕ) (src : ℕ) (t : ℕ) (filled : Bool) (crc : ℕ) (beforeLatch : Bool) :
    Within [.regs, .ring] s (State.passTally s stream src t filled crc beforeLatch).1 := by
  unfold State.passTally
  extract_lets y1 y2
  refine Within.via y2 ?_ fun _ => ?_
  · refine Within.when _ _ (fun x => ?_) ?_
    · exact (State.inc_within ..).mono (by decide)
    · exact (State.setWin_within ..).mono (by decide)
  clear_value y1 y2
  split
  · dsimp -zeta only
    assumption
  · dsimp -zeta only
    refine Within.trans ?_ ((State.inc_within ..).mono (by decide))
    assumption
  · dsimp -zeta only
    refine Within.trans ?_ ((State.inc_within ..).mono (by decide))
    assumption
  · dsimp -zeta only
    refine Within.trans ?_ ((State.inc_within ..).mono (by decide))
    refine Within.trans ?_ ((State.inc_within ..).mono (by decide))
    assumption
  · dsimp -zeta only
    refine Within.trans ?_ ((State.inc_within ..).mono (by decide))
    assumption

theorem State.unsync_within (s : State) (p : Win → Bool) :
    Within [.ring] s (State.unsync s p) := by
  unfold State.unsync
  exact (State.onRing_within ..).mono (by decide)

theorem State.unsyncIfCut_within (s : State) :
    Within [.ring] s (State.unsyncIfCut s) := by
  unfold State.unsyncIfCut
  refine Within.ite ?_ ?_
  · exact (State.unsync_within ..).mono (by decide)
  · exact Within.refl _ _

theorem State.wallCounts_within (s : State) :
    Within [.regs] s (State.wallCounts s) := by
  unfold State.wallCounts
  extract_lets y1 y2
  refine Within.via y2 ?_ fun _ => ?_
  · refine Within.each _ _ (fun x a => ?_) ?_
    · refine Within.trans ?_ ((State.put_within ..).mono (by decide))
      exact (State.put_within ..).mono (by decide)
    · exact Within.refl _ _
  clear_value y1 y2
  refine Within.trans ?_ ((State.put_within ..).mono (by decide))
  assumption

theorem State.reclassify_within (s : State) :
    Within [.regs] s (State.reclassify s) := by
  unfold State.reclassify
  extract_lets y1
  refine Within.via y1 ?_ fun _ => ?_
  · exact (State.wallCounts_within ..).mono (by decide)
  clear_value y1
  refine Within.ite ?_ ?_
  · refine Within.trans ?_ ((State.flag_within ..).mono (by decide))
    assumption
  · assumption

theorem State.judgeRings_within (s : State) :
    Within [.regs] s (State.judgeRings s) := by
  unfold State.judgeRings
  refine Within.ite ?_ ?_
  · refine Within.each _ _ (fun x a => ?_) ?_
    · refine Within.trans ?_ ((State.flag_within ..).mono (by decide))
      refine Within.trans ?_ ((State.flag_within ..).mono (by decide))
      exact (State.flag_within ..).mono (by decide)
    · exact Within.refl _ _
  · exact Within.refl _ _

theorem State.sendWall_within (s : State) :
    Within [.out, .ring] s (State.sendWall s) := by
  unfold State.sendWall
  extract_lets y1
  clear_value y1
  exact (State.bwSend_within ..).mono (by decide)

theorem State.sendAuthority_within (s : State) (reason : Nat) :
    Within [.out, .ring] s (State.sendAuthority s reason) := by
  unfold State.sendAuthority
  exact (State.bwSend_within ..).mono (by decide)

theorem State.sendAdmit_within (s : State) (id : ℕ) (mb : ℕ) :
    Within [.out, .ring] s (State.sendAdmit s id mb) := by
  unfold State.sendAdmit
  exact (State.bwSend_within ..).mono (by decide)

theorem State.admitNow_within (s : State) :
    Within [.out, .ring] s (State.admitNow s) := by
  unfold State.admitNow
  exact (State.sendAdmit_within ..).mono (by decide)

theorem State.sendEnum_within (s : State) (p : Nat) (r : Nat) (hop : Nat) (base : Nat) (dir : Nat) (head : Nat) :
    Within [.out] s (State.sendEnum s p r hop base dir head) := by
  unfold State.sendEnum
  exact (State.emit_within ..).mono (by decide)

theorem State.startWave_within (s : State) (r : ℕ) (dir : ℕ) :
    Within [.regs, .out, .ring] s (State.startWave s r dir) := by
  unfold State.startWave
  extract_lets y1 y2
  refine Within.via y1 ?_ fun _ => ?_
  · exact (State.onRing_within ..).mono (by decide)
  clear_value y1
  refine Within.via y2 ?_ fun _ => ?_
  · refine Within.ite ?_ ?_
    · refine Within.trans ?_ ((State.flag_within ..).mono (by decide))
      assumption
    · assumption
  clear_value y2
  split
  · refine Within.trans ?_ ((State.sendEnum_within ..).mono (by decide))
    assumption
  · assumption

theorem State.nextWave_within (s : State) (r : ℕ) :
    Within [.regs, .out, .ring] s (State.nextWave s r) := by
  unfold State.nextWave
  split
  · exact (State.startWave_within ..).mono (by decide)
  · refine Within.trans ?_ ((State.admitNow_within ..).mono (by decide))
    refine Within.trans ?_ ((State.sendWall_within ..).mono (by decide))
    refine Within.trans ?_ ((State.reclassify_within ..).mono (by decide))
    exact (State.onRing_within ..).mono (by decide)

theorem State.headGen_within (s : State) (g : ℕ) :
    Within [.regs, .ring] s (State.headGen s g) := by
  unfold State.headGen
  extract_lets y1
  refine Within.via y1 ?_ fun _ => ?_
  · refine Within.each _ _ (fun x a => ?_) ?_
    · exact (State.flag_within ..).mono (by decide)
    · exact Within.refl _ _
  clear_value y1
  refine Within.trans ?_ ((State.unsync_within ..).mono (by decide))
  refine Within.trans ?_ ((State.onRing_within ..).mono (by decide))
  assumption

theorem State.enumerate_within (s : State) :
    Within [.regs, .out, .ring] s (State.enumerate s) := by
  unfold State.enumerate
  refine Within.ite ?_ ?_
  · exact Within.refl _ _
  · extract_lets y1
    refine Within.via y1 ?_ fun _ => ?_
    · exact (State.headGen_within ..).mono (by decide)
    clear_value y1
    split
    · refine Within.trans ?_ ((State.startWave_within ..).mono (by decide))
      assumption
    · refine Within.trans ?_ ((State.reclassify_within ..).mono (by decide))
      assumption

theorem State.flockRegs_within (s : State) :
    Within [.regs] s (State.flockRegs s) := by
  unfold State.flockRegs
  extract_lets y1 y2 y3 y4 y5 y6 y7 y8 y9 y10 y11 y12 y13
  refine Within.via y3 ?_ fun _ => ?_
  · exact (State.put_within ..).mono (by decide)
  clear_value y1 y2 y3
  refine Within.via y4 ?_ fun _ => ?_
  · refine Within.trans ?_ ((State.flag_within ..).mono (by decide))
    assumption
  clear_value y4
  refine Within.via y5 ?_ fun _ => ?_
  · refine Within.each _ _ (fun x a => ?_) ?_
    · extract_lets y14
      clear_value y14
      refine Within.ite ?_ ?_
      · exact (State.zero_within ..).mono (by decide)
      · refine Within.trans ?_ ((State.put_within ..).mono (by decide))
        refine Within.trans ?_ ((State.flag_within ..).mono (by decide))
        refine Within.trans ?_ ((State.put_within ..).mono (by decide))
        refine Within.trans ?_ ((State.put_within ..).mono (by decide))
        exact (State.put_within ..).mono (by decide)
    · assumption
  clear_value y5
  refine Within.via y7 ?_ fun _ => ?_
  · refine Within.trans ?_ ((State.put_within ..).mono (by decide))
    refine Within.trans ?_ ((State.put64_within ..).mono (by decide))
    assumption
  clear_value y6 y7
  refine Within.via y8 ?_ fun _ => ?_
  · refine Within.trans ?_ ((State.put_within ..).mono (by decide))
    assumption
  clear_value y8
  refine Within.via y10 ?_ fun _ => ?_
  · refine Within.trans ?_ ((State.put_within ..).mono (by decide))
    refine Within.trans ?_ ((State.put_within ..).mono (by decide))
    assumption
  clear_value y9 y10
  refine Within.via y12 ?_ fun _ => ?_
  · refine Within.trans ?_ ((State.put_within ..).mono (by decide))
    refine Within.trans ?_ ((State.put_within ..).mono (by decide))
    assumption
  clear_value y11 y12
  refine Within.via y13 ?_ fun _ => ?_
  · refine Within.trans ?_ ((State.put64_within ..).mono (by decide))
    assumption
  clear_value y13
  refine Within.trans ?_ ((State.put_within ..).mono (by decide))
  assumption

theorem State.journalRegs_within (s : State) :
    Within [.regs] s (State.journalRegs s) := by
  unfold State.journalRegs
  refine Within.trans ?_ ((State.put_within ..).mono (by decide))
  exact (State.put_within ..).mono (by decide)

theorem State.onRec_within (s : State) (c : ℕ) (ticket : ℕ) (f : JRec → JRec) :
    Within [.out, .host, .ring] s (State.onRec s c ticket f) := by
  unfold State.onRec
  extract_lets y1
  refine Within.via y1 ?_ fun _ => ?_
  · exact (State.onHost_within ..).mono (by decide)
  clear_value y1
  refine Within.ite ?_ ?_
  · assumption
  · split
    · refine Within.ite ?_ ?_
      · refine Within.trans ?_ ((State.headSend_within ..).mono (by decide))
        assumption
      · assumption
    · assumption

theorem State.sendEpoch_within (s : State) :
    Within [.out, .ring] s (State.sendEpoch s) := by
  unfold State.sendEpoch
  exact (State.headSend_within ..).mono (by decide)

theorem State.setNext_within (s : State) (c : ℕ) (v : ℕ) :
    Within [.regs, .host] s (State.setNext s c v) := by
  unfold State.setNext
  refine Within.trans ?_ ((State.onHost_within ..).mono (by decide))
  exact (State.put_within ..).mono (by decide)

theorem State.setHead_within (s : State) (st : ℕ) :
    Within [.regs, .ring, .bist, .flocks] s (State.setHead s st) := by
  unfold State.setHead
  extract_lets y1 y2 y3 y4 y5
  refine Within.via y1 ?_ fun _ => ?_
  · refine Within.trans ?_ ((State.flockRegs_within ..).mono (by decide))
    refine Within.trans ?_ ((State.onFlocks_within ..).mono (by decide))
    exact (State.put_within ..).mono (by decide)
  clear_value y1
  refine Within.via y2 ?_ fun _ => ?_
  · refine Within.trans ?_ ((State.onRing_within ..).mono (by decide))
    assumption
  clear_value y2
  refine Within.via y3 ?_ fun _ => ?_
  · refine Within.ite ?_ ?_
    · refine Within.trans ?_ ((State.onRing_within ..).mono (by decide))
      assumption
    · assumption
  clear_value y3
  refine Within.via y4 ?_ fun _ => ?_
  · refine Within.trans ?_ ((State.onRing_within ..).mono (by decide))
    refine Within.trans ?_ ((State.flag_within ..).mono (by decide))
    assumption
  clear_value y4
  refine Within.via y5 ?_ fun _ => ?_
  · refine Within.ite ?_ ?_
    · refine Within.trans ?_ ((State.flag_within ..).mono (by decide))
      assumption
    · assumption
  clear_value y5
  refine Within.ite ?_ ?_
  · refine Within.trans ?_ ((State.onBist_within ..).mono (by decide))
    assumption
  · assumption

theorem State.becomeBw_within (s : State) (reason : ℕ) :
    Within [.regs, .out, .xing, .time, .host, .ring, .ingest, .folds, .lamp, .therm, .bist, .flocks, .latch] s (State.becomeBw s reason) := by
  unfold State.becomeBw
  extract_lets y1 y2 y3 y4
  refine Within.via y1 ?_ fun _ => ?_
  · refine Within.trans ?_ ((State.put64_within ..).mono (by decide))
    exact (State.setHead_within ..).mono (by decide)
  clear_value y1
  refine Within.via y2 ?_ fun _ => ?_
  · refine Within.trans ?_ ((State.onRing_within ..).mono (by decide))
    assumption
  clear_value y2
  refine Within.via y4 ?_ fun _ => ?_
  · refine Within.each _ _ (fun x a => ?_) ?_
    · exact (State.onRec_within ..).mono (by decide)
    · assumption
  clear_value y3 y4
  refine Within.trans ?_ ((State.sendAuthority_within ..).mono (by decide))
  refine Within.when _ _ (fun x => ?_) ?_
  · exact (State.takeTime_within ..).mono (by decide)
  · assumption

theorem State.elected_within (s : State) :
    Within [.regs, .out, .xing, .time, .host, .ring, .ingest, .folds, .lamp, .therm, .bist, .flocks, .latch] s (State.elected s) := by
  unfold State.elected
  refine Within.trans ?_ ((State.enumerate_within ..).mono (by decide))
  refine Within.trans ?_ ((State.electStep_within ..).mono (by decide))
  exact (State.becomeBw_within ..).mono (by decide)

theorem State.takeover_within (s : State) (reason : ℕ) :
    Within [.regs, .out, .xing, .time, .host, .ring, .ingest, .folds, .lamp, .therm, .bist, .flocks, .latch] s (State.takeover s reason) := by
  unfold State.takeover
  extract_lets y1 y2 y3 y4
  refine Within.via y3 ?_ fun _ => ?_
  · exact (State.onRing_within ..).mono (by decide)
  clear_value y1 y2 y3
  refine Within.via y4 ?_ fun _ => ?_
  · refine Within.trans ?_ ((State.onHost_within ..).mono (by decide))
    assumption
  clear_value y4
  refine Within.trans ?_ ((State.becomeBw_within ..).mono (by decide))
  refine Within.trans ?_ ((State.irqAll_within ..).mono (by decide))
  refine Within.trans ?_ ((State.inc_within ..).mono (by decide))
  assumption

theorem State.noteFault_within (s : State) :
    Within [.ring] s (State.noteFault s) := by
  unfold State.noteFault
  exact (State.onRing_within ..).mono (by decide)

theorem State.lapse_within (s : State) :
    Within [.regs, .ring] s (State.lapse s) := by
  unfold State.lapse
  refine Within.trans ?_ ((State.onRing_within ..).mono (by decide))
  exact (State.flag_within ..).mono (by decide)

theorem State.mirrorStart_within (s : State) :
    Within [.regs, .out, .ring] s (State.mirrorStart s) := by
  unfold State.mirrorStart
  refine Within.trans ?_ ((State.sendEpoch_within ..).mono (by decide))
  refine Within.trans ?_ ((State.lapse_within ..).mono (by decide))
  refine Within.trans ?_ ((State.onRing_within ..).mono (by decide))
  exact (State.flag_within ..).mono (by decide)

theorem State.noteInputError_within (s : State) (n : Nat) :
    Within [.ring] s (State.noteInputError s n) := by
  unfold State.noteInputError
  exact (State.onRing_within ..).mono (by decide)

theorem State.divergeOutcome_within (s : State) (ownBad : Bool) (peerBad : Bool) :
    Within [.regs, .out, .xing, .time, .host, .ring, .ingest, .folds, .lamp, .therm, .bist, .flocks, .latch] s (State.divergeOutcome s ownBad peerBad) := by
  unfold State.divergeOutcome
  extract_lets y1 y2 y3 y4
  refine Within.via y1 ?_ fun _ => ?_
  · exact (State.onRing_within ..).mono (by decide)
  clear_value y1
  clear_value y2 y3 y4
  refine Within.ite ?_ ?_
  · assumption
  · refine Within.ite ?_ ?_
    · refine Within.ite ?_ ?_
      · refine Within.trans ?_ ((State.sendWall_within ..).mono (by decide))
        refine Within.trans ?_ ((State.flag_within ..).mono (by decide))
        assumption
      · assumption
    · refine Within.ite ?_ ?_
      · refine Within.ite ?_ ?_
        · assumption
        · refine Within.trans ?_ ((State.setHead_within ..).mono (by decide))
          assumption
      · refine Within.ite ?_ ?_
        · refine Within.trans ?_ ((State.setHead_within ..).mono (by decide))
          assumption
        · refine Within.trans ?_ ((State.takeover_within ..).mono (by decide))
          assumption

theorem State.diverge_within (s : State) (streams : List ℕ) (frames : List ℕ) :
    Within [.regs, .fresh, .out, .host, .ring] s (State.diverge s streams frames) := by
  unfold State.diverge
  extract_lets y1 y2 y3
  refine Within.via y3 ?_ fun _ => ?_
  · refine Within.trans ?_ ((State.irqAll_within ..).mono (by decide))
    refine Within.trans ?_ ((State.inc_within ..).mono (by decide))
    exact (State.flag_within ..).mono (by decide)
  clear_value y1 y2 y3
  refine Within.trans ?_ ((State.tickFresh_within ..).mono (by decide))
  refine Within.trans ?_ ((State.lapse_within ..).mono (by decide))
  refine Within.trans ?_ ((State.onRing_within ..).mono (by decide))
  assumption

theorem execRingEnumerate_within (s : State) :
    Within [.regs, .out, .ring] s (outcomeState (execRingEnumerate s) s) := by
  unfold execRingEnumerate
  dsimp -zeta only [outcomeState]
  refine Within.ite ?_ ?_
  · exact (State.enumerate_within ..).mono (by decide)
  · exact Within.refl _ _

theorem State.tileGen_within (s : State) (g : ℕ) :
    Within [.regs, .ring] s (State.tileGen s g) := by
  unfold State.tileGen
  extract_lets y1
  refine Within.via y1 ?_ fun _ => ?_
  · refine Within.when _ _ (fun x => ?_) ?_
    · refine Within.trans ?_ ((State.onRing_within ..).mono (by decide))
      exact (State.unsync_within ..).mono (by decide)
    · exact Within.refl _ _
  clear_value y1
  refine Within.trans ?_ ((State.put_within ..).mono (by decide))
  assumption

theorem State.takeIndex_within (s : State) (r : ℕ) (h : ℕ) (g : ℕ) (excess : Bool) :
    Within [.regs, .ring] s (State.takeIndex s r h g excess) := by
  unfold State.takeIndex
  extract_lets y1 y2
  refine Within.via y1 ?_ fun _ => ?_
  · refine Within.trans ?_ ((State.onRing_within ..).mono (by decide))
    exact (State.tileGen_within ..).mono (by decide)
  clear_value y1
  refine Within.via y2 ?_ fun _ => ?_
  · refine Within.trans ?_ ((State.put_within ..).mono (by decide))
    refine Within.trans ?_ ((State.put_within ..).mono (by decide))
    assumption
  clear_value y2
  refine Within.trans ?_ ((State.flag_within ..).mono (by decide))
  refine Within.trans ?_ ((State.flag_within ..).mono (by decide))
  assumption

theorem execEnum_within (port : Fin 7) (body : Bytes) (s : State) :
    Within [.regs, .out, .ring, .link] s (outcomeState (execEnum port body s) s) := by
  unfold execEnum
  extract_lets y1 y2 y3 y4 y5 y6 y7 y8
  clear_value y1 y2 y3 y4 y5 y6 y7 y8
  dsimp -zeta only [outcomeState]
  refine State.linkRx_within (by decide) ?_ ?_
  · intro _
    refine Within.ite ?_ ?_
    · exact Within.refl _ _
    · refine Within.ite ?_ ?_
      · refine Within.ite ?_ ?_
        · exact Within.refl _ _
        · extract_lets y9 y10 y11 y12
          refine Within.via y9 ?_ fun _ => ?_
          · refine Within.trans ?_ ((State.onRing_within ..).mono (by decide))
            exact (State.takeIndex_within ..).mono (by decide)
          clear_value y9
          refine Within.via y10 ?_ fun _ => ?_
          · refine Within.trans ?_ ((State.flag_within ..).mono (by decide))
            assumption
          clear_value y10
          refine Within.via y12 ?_ fun _ => ?_
          · refine Within.ite ?_ ?_
            · refine Within.trans ?_ ((State.sendEnum_within ..).mono (by decide))
              assumption
            · assumption
          clear_value y11 y12
          refine Within.trans ?_ ((State.tileSend_within ..).mono (by decide))
          assumption
      · refine Within.ite ?_ ?_
        · exact Within.refl _ _
        · extract_lets y13
          refine Within.via y13 ?_ fun _ => ?_
          · refine Within.trans ?_ ((State.judgeRings_within ..).mono (by decide))
            exact (State.onRing_within ..).mono (by decide)
          clear_value y13
          refine Within.ite ?_ ?_
          · assumption
          · refine Within.trans ?_ ((State.headGen_within ..).mono (by decide))
            assumption
  · exact Within.refl _ _

theorem execEnumWaveTimeout_within (s : State) :
    Within [.regs, .out, .ring] s (outcomeState (execEnumWaveTimeout s) s) := by
  unfold execEnumWaveTimeout
  dsimp -zeta only [outcomeState]
  split
  · refine Within.ite ?_ ?_
    · exact Within.refl _ _
    · refine Within.ite ?_ ?_
      · exact (State.startWave_within ..).mono (by decide)
      · exact (State.nextWave_within ..).mono (by decide)
  · exact Within.refl _ _

theorem State.rxReport_within (s : State) (payload : Bytes) :
    Within [.regs, .out, .ring] s (State.rxReport s payload) := by
  unfold State.rxReport
  extract_lets y1 y2 y3 y4 y5 y6 y7 y8 y9 y10 y11 y12
  refine Within.via y7 ?_ fun _ => ?_
  · refine Within.ite ?_ ?_
    · exact Within.refl _ _
    · exact (State.headGen_within ..).mono (by decide)
  clear_value y1 y2 y3 y4 y5 y6 y7
  refine Within.via y10 ?_ fun _ => ?_
  · refine Within.trans ?_ ((State.onRing_within ..).mono (by decide))
    assumption
  clear_value y8 y9 y10
  refine Within.via y11 ?_ fun _ => ?_
  · refine Within.trans ?_ ((State.judgeRings_within ..).mono (by decide))
    refine Within.trans ?_ ((State.wallCounts_within ..).mono (by decide))
    refine Within.trans ?_ ((State.unsync_within ..).mono (by decide))
    assumption
  clear_value y11
  refine Within.via y12 ?_ fun _ => ?_
  · refine Within.trans ?_ ((State.flag_within ..).mono (by decide))
    assumption
  clear_value y12
  split
  · refine Within.ite ?_ ?_
    · refine Within.ite ?_ ?_
      · refine Within.trans ?_ ((State.startWave_within ..).mono (by decide))
        assumption
      · refine Within.trans ?_ ((State.nextWave_within ..).mono (by decide))
        assumption
    · assumption
  · refine Within.ite ?_ ?_
    · refine Within.trans ?_ ((State.admitNow_within ..).mono (by decide))
      refine Within.trans ?_ ((State.sendWall_within ..).mono (by decide))
      refine Within.trans ?_ ((State.reclassify_within ..).mono (by decide))
      assumption
    · refine Within.ite ?_ ?_
      · refine Within.trans ?_ ((State.flag_within ..).mono (by decide))
        assumption
      · assumption

theorem execReport_within (port : Fin 7) (payload : Bytes) (s : State) :
    Within [.regs, .out, .ring] s (outcomeState (execReport port payload s) s) := by
  unfold execReport
  dsimp -zeta only [outcomeState]
  refine Within.ite ?_ ?_
  · exact (State.rxReport_within ..).mono (by decide)
  · exact Within.refl _ _

theorem execJoinRequestTimer_within (s : State) :
    Within [.out, .ring] s (outcomeState (execJoinRequestTimer s) s) := by
  unfold execJoinRequestTimer
  extract_lets y1
  clear_value y1
  dsimp -zeta only [outcomeState]
  refine Within.ite ?_ ?_
  · refine Within.trans ?_ ((State.tileSend_within ..).mono (by decide))
    exact (State.onRing_within ..).mono (by decide)
  · exact Within.refl _ _

theorem State.noteAssign_within (s : State) (ser : ℕ) (r : ℕ) (h : ℕ) (g : ℕ) :
    Within [.regs, .ring] s (State.noteAssign s ser r h g) := by
  unfold State.noteAssign
  extract_lets y1 y2
  refine Within.via y2 ?_ fun _ => ?_
  · exact (State.onRing_within ..).mono (by decide)
  clear_value y1 y2
  refine Within.trans ?_ ((State.judgeRings_within ..).mono (by decide))
  refine Within.trans ?_ ((State.wallCounts_within ..).mono (by decide))
  refine Within.trans ?_ ((State.unsync_within ..).mono (by decide))
  assumption

theorem State.rxRequest_within (s : State) (r : ℕ) (payload : Bytes) :
    Within [.regs, .out, .host, .ring] s (State.rxRequest s r payload) := by
  unfold State.rxRequest
  extract_lets y1 y2 y3 y4 y5
  refine Within.via y5 ?_ fun _ => ?_
  · refine Within.trans ?_ ((State.onHost_within ..).mono (by decide))
    refine Within.trans ?_ ((State.reclassify_within ..).mono (by decide))
    exact (State.noteAssign_within ..).mono (by decide)
  clear_value y1 y2 y3 y4 y5
  refine Within.trans ?_ ((State.admitNow_within ..).mono (by decide))
  refine Within.trans ?_ ((State.sendWall_within ..).mono (by decide))
  refine Within.trans ?_ ((State.bwSend_within ..).mono (by decide))
  assumption

theorem State.peerRequest_within (s : State) (m : Bytes) :
    Within [.regs, .out, .host, .ring] s (State.peerRequest s m) := by
  unfold State.peerRequest
  split
  · exact (State.rxRequest_within ..).mono (by decide)
  · exact (State.onRing_within ..).mono (by decide)

theorem State.joinRequest_within (s : State) (port : ℕ) (m : Bytes) :
    Within [.regs, .out, .host, .ring] s (State.joinRequest s port m) := by
  unfold State.joinRequest
  refine Within.ite ?_ ?_
  · refine Within.when _ _ (fun x => ?_) ?_
    · exact (State.peerRequest_within ..).mono (by decide)
    · exact Within.refl _ _
  · refine Within.ite ?_ ?_
    · exact Within.refl _ _
    · refine Within.ite ?_ ?_
      · exact (State.rxRequest_within ..).mono (by decide)
      · exact (State.onRing_within ..).mono (by decide)

theorem execRequest_within (port : Fin 7) (payload : Bytes) (s : State) :
    Within [.regs, .out, .host, .ring] s (outcomeState (execRequest port payload s) s) := by
  unfold execRequest
  dsimp -zeta only [outcomeState]
  refine Within.ite ?_ ?_
  · exact (State.joinRequest_within ..).mono (by decide)
  · exact Within.refl _ _

theorem State.rxAssign_within (s : State) (p : Bytes) :
    Within [.regs, .ring] s (State.rxAssign s p) := by
  unfold State.rxAssign
  extract_lets y1 y2
  clear_value y1 y2
  refine Within.ite ?_ ?_
  · refine Within.ite ?_ ?_
    · exact (State.takeIndex_within ..).mono (by decide)
    · exact Within.refl _ _
  · refine Within.ite ?_ ?_
    · refine Within.trans ?_ ((State.noteAssign_within ..).mono (by decide))
      refine Within.ite ?_ ?_
      · exact Within.refl _ _
      · exact (State.headGen_within ..).mono (by decide)
    · exact Within.refl _ _

theorem execAssign_within (payload : Bytes) (s : State) :
    Within [.regs, .ring] s (outcomeState (execAssign payload s) s) := by
  unfold execAssign
  dsimp -zeta only [outcomeState]
  refine Within.ite ?_ ?_
  · exact (State.rxAssign_within ..).mono (by decide)
  · exact Within.refl _ _

theorem State.judgeStart_within (s : State) :
    Within [.regs, .out, .ring] s (State.judgeStart s) := by
  unfold State.judgeStart
  refine Within.ite ?_ ?_
  · refine Within.trans ?_ ((State.sendWall_within ..).mono (by decide))
    refine Within.trans ?_ ((State.flag_within ..).mono (by decide))
    exact (State.onRing_within ..).mono (by decide)
  · exact Within.refl _ _

theorem execWallTimer_within (s : State) :
    Within [.out, .ring] s (outcomeState (execWallTimer s) s) := by
  unfold execWallTimer
  dsimp -zeta only [outcomeState]
  refine Within.ite ?_ ?_
  · exact (State.sendWall_within ..).mono (by decide)
  · exact Within.refl _ _

theorem State.setBwSide_within (s : State) (ser : Nat) :
    Within [.regs, .ring] s (State.setBwSide s ser) := by
  unfold State.setBwSide
  extract_lets y1
  refine Within.via y1 ?_ fun _ => ?_
  · refine Within.trans ?_ ((State.onRing_within ..).mono (by decide))
    exact (State.put64_within ..).mono (by decide)
  clear_value y1
  refine Within.ite ?_ ?_
  · refine Within.trans ?_ ((State.flag_within ..).mono (by decide))
    assumption
  · assumption

theorem State.rxWall_within (s : State) (p : Bytes) :
    Within [.regs, .ring] s (State.rxWall s p) := by
  unfold State.rxWall
  extract_lets y1 y2 y3 y4 y5 y6
  refine Within.via y2 ?_ fun _ => ?_
  · exact (State.onRing_within ..).mono (by decide)
  clear_value y1 y2
  refine Within.via y3 ?_ fun _ => ?_
  · refine Within.trans ?_ ((State.put_within ..).mono (by decide))
    refine Within.trans ?_ ((State.tileGen_within ..).mono (by decide))
    refine Within.trans ?_ ((State.setBwSide_within ..).mono (by decide))
    assumption
  clear_value y3
  refine Within.via y4 ?_ fun _ => ?_
  · refine Within.trans ?_ ((State.onRing_within ..).mono (by decide))
    assumption
  clear_value y4
  refine Within.via y5 ?_ fun _ => ?_
  · refine Within.trans ?_ ((State.flag_within ..).mono (by decide))
    refine Within.trans ?_ ((State.flag_within ..).mono (by decide))
    exact (State.setBwSide_within ..).mono (by decide)
  clear_value y5
  refine Within.via y6 ?_ fun _ => ?_
  · refine Within.trans ?_ ((State.put_within ..).mono (by decide))
    refine Within.ite ?_ ?_
    · assumption
    · refine Within.trans ?_ ((State.headGen_within ..).mono (by decide))
      assumption
  clear_value y6
  refine Within.ite ?_ ?_
  · refine Within.trans ?_ ((State.flag_within ..).mono (by decide))
    refine Within.trans ?_ ((State.flag_within ..).mono (by decide))
    refine Within.trans ?_ ((State.flag_within ..).mono (by decide))
    assumption
  · refine Within.ite ?_ ?_
    · refine Within.ite ?_ ?_
      · refine Within.trans ?_ ((State.flag_within ..).mono (by decide))
        refine Within.trans ?_ ((State.onRing_within ..).mono (by decide))
        assumption
      · assumption
    · exact Within.refl _ _

theorem execWall_within (payload : Bytes) (s : State) :
    Within [.regs, .ring] s (outcomeState (execWall payload s) s) := by
  unfold execWall
  dsimp -zeta only [outcomeState]
  refine Within.ite ?_ ?_
  · exact (State.rxWall_within ..).mono (by decide)
  · exact Within.refl _ _

theorem State.rxAuthority_within (s : State) (p : Bytes) :
    Within [.regs, .ring] s (State.rxAuthority s p) := by
  unfold State.rxAuthority
  refine Within.ite ?_ ?_
  · exact (State.setBwSide_within ..).mono (by decide)
  · exact Within.refl _ _

theorem execAuthority_within (payload : Bytes) (s : State) :
    Within [.regs, .ring] s (outcomeState (execAuthority payload s) s) := by
  unfold execAuthority
  dsimp -zeta only [outcomeState]
  refine Within.ite ?_ ?_
  · exact (State.rxAuthority_within ..).mono (by decide)
  · exact Within.refl _ _

theorem State.rxWindowReset_within (s : State) :
    Within [.ring] s (State.rxWindowReset s) := by
  unfold State.rxWindowReset
  refine Within.ite ?_ ?_
  · exact (State.unsync_within ..).mono (by decide)
  · exact Within.refl _ _

theorem execWindowReset_within (payload : Bytes) (s : State) :
    Within [.ring] s (outcomeState (execWindowReset payload s) s) := by
  unfold execWindowReset
  dsimp -zeta only [outcomeState]
  refine Within.ite ?_ ?_
  · exact (State.rxWindowReset_within ..).mono (by decide)
  · exact Within.refl _ _

theorem State.sendHello_within (s : State) (final : List (ℕ × ℕ)) :
    Within [.out, .ring] s (State.sendHello s final) := by
  unfold State.sendHello
  extract_lets y1
  clear_value y1
  refine Within.trans ?_ ((State.bumpTally_within ..).mono (by decide))
  refine Within.each _ _ (fun x a => ?_) ?_
  · refine Within.trans ?_ ((State.countSent_within ..).mono (by decide))
    exact (State.emit_within ..).mono (by decide)
  · exact Within.refl _ _

theorem execHelloTimer_within (s : State) :
    Within [.out, .ring] s (outcomeState (execHelloTimer s) s) := by
  unfold execHelloTimer
  dsimp -zeta only [outcomeState]
  refine Within.ite ?_ ?_
  · exact (State.sendHello_within ..).mono (by decide)
  · exact Within.refl _ _

theorem execElectionTimeout_within (s : State) :
    Within [.regs, .out, .xing, .time, .host, .ring, .ingest, .folds, .lamp, .therm, .bist, .flocks, .latch] s (outcomeState (execElectionTimeout s) s) := by
  unfold execElectionTimeout
  extract_lets y1
  clear_value y1
  dsimp -zeta only [outcomeState]
  refine Within.ite ?_ ?_
  · exact (State.elected_within ..).mono (by decide)
  · exact Within.refl _ _

theorem execCopyAckRx_within (tally : Nat) (s : State) :
    Within [.out, .ring] s (outcomeState (execCopyAckRx tally s) s) := by
  unfold execCopyAckRx
  extract_lets y1
  clear_value y1
  dsimp -zeta only [outcomeState]
  refine Within.ite ?_ ?_
  · exact Within.refl _ _
  · refine Within.each _ _ (fun x a => ?_) ?_
    · exact (State.sendRings_within ..).mono (by decide)
    · exact (State.onRing_within ..).mono (by decide)

theorem execCopyAckTimeout_within (s : State) :
    Within [.regs, .out, .ring] s (outcomeState (execCopyAckTimeout s) s) := by
  unfold execCopyAckTimeout
  dsimp -zeta only [outcomeState]
  split
  · exact Within.refl _ _
  · refine Within.ite ?_ ?_
    · exact Within.refl _ _
    · refine Within.trans ?_ ((State.inc_within ..).mono (by decide))
      refine Within.trans ?_ ((State.sendRings_within ..).mono (by decide))
      exact (State.onRing_within ..).mono (by decide)

theorem State.endDivergence_within (s : State) :
    Within [.regs, .out, .ring] s (State.endDivergence s) := by
  unfold State.endDivergence
  extract_lets y1
  refine Within.via y1 ?_ fun _ => ?_
  · refine Within.trans ?_ ((State.lapse_within ..).mono (by decide))
    refine Within.trans ?_ ((State.onRing_within ..).mono (by decide))
    exact (State.flag_within ..).mono (by decide)
  clear_value y1
  refine Within.ite ?_ ?_
  · refine Within.trans ?_ ((State.sendWall_within ..).mono (by decide))
    refine Within.trans ?_ ((State.flag_within ..).mono (by decide))
    assumption
  · assumption

@[simp] theorem Ring.resyncCompare_enc (r : Ring) (frame stream : Nat) (equal : Bool) :
    (r.resyncCompare frame stream equal).enc = r.enc := by
  unfold Ring.resyncCompare
  split <;> rfl

theorem State.compareDigest_within (s : State) (a : Digest) (b : Digest) :
    Within [.regs, .fresh, .out, .host, .ring] s (State.compareDigest s a b) := by
  unfold State.compareDigest
  extract_lets y1 y2 y3 y4 y5 y6
  refine Within.via y4 ?_ fun _ => ?_
  · exact (State.onRing_within ..).mono (by decide)
  clear_value y1 y2 y3 y4
  refine Within.via y6 ?_ fun _ => ?_
  · refine Within.trans ?_ ((State.onRing_within ..).mono (by decide))
    refine Within.trans ?_ ((State.lapse_within ..).mono (by decide))
    exact (State.inc_within ..).mono (by decide)
  clear_value y5 y6
  refine Within.ite ?_ ?_
  · exact Within.refl _ _
  · refine Within.ite ?_ ?_
    · exact (State.onRing_within ..).mono (by decide)
    · refine Within.ite ?_ ?_
      · exact Within.refl _ _
      · refine Within.ite ?_ ?_
        · refine Within.ite ?_ ?_
          · refine Within.trans ?_ ((State.endDivergence_within ..).mono (by decide))
            assumption
          · assumption
        · refine Within.ite ?_ ?_
          · refine Within.trans ?_ ((State.diverge_within ..).mono (by decide))
            assumption
          · assumption

theorem State.sendDigest_within (s : State) (d : Digest) :
    Within [.regs, .fresh, .out, .host, .ring] s (State.sendDigest s d) := by
  unfold State.sendDigest
  extract_lets y1 y2
  refine Within.via y1 ?_ fun _ => ?_
  · exact (State.onRing_within ..).mono (by decide)
  clear_value y1
  refine Within.via y2 ?_ fun _ => ?_
  · refine Within.trans ?_ ((State.headSend_within ..).mono (by decide))
    assumption
  clear_value y2
  split
  · refine Within.trans ?_ ((State.compareDigest_within ..).mono (by decide))
    assumption
  · assumption

theorem execDigestSend_within (stream : Fin 22) (frame : ℕ) (s : State) :
    Within [.regs, .fresh, .out, .host, .ring] s (outcomeState (execDigestSend stream frame s) s) := by
  unfold execDigestSend
  dsimp -zeta only [outcomeState]
  refine Within.ite ?_ ?_
  · exact Within.refl _ _
  · split
    · exact (State.sendDigest_within ..).mono (by decide)
    · refine Within.ite ?_ ?_
      · exact Within.refl _ _
      · exact (State.sendDigest_within ..).mono (by decide)

theorem State.rxDigest_within (s : State) (entry : Bytes) :
    Within [.regs, .fresh, .out, .host, .ring] s (State.rxDigest s entry) := by
  unfold State.rxDigest
  extract_lets y1 y2
  refine Within.via y2 ?_ fun _ => ?_
  · exact (State.onRing_within ..).mono (by decide)
  clear_value y1 y2
  split
  · refine Within.trans ?_ ((State.compareDigest_within ..).mono (by decide))
    assumption
  · assumption

theorem execDigestRx_within (entry : Bytes) (s : State) :
    Within [.regs, .fresh, .out, .host, .ring] s (outcomeState (execDigestRx entry s) s) := by
  unfold execDigestRx
  dsimp -zeta only [outcomeState]
  refine Within.ite ?_ ?_
  · exact (State.rxDigest_within ..).mono (by decide)
  · exact Within.refl _ _

theorem execDemotedRecover_within (s : State) :
    Within [.regs, .ring, .bist, .flocks] s (outcomeState (execDemotedRecover s) s) := by
  unfold execDemotedRecover
  extract_lets y1
  clear_value y1
  dsimp -zeta only [outcomeState]
  refine Within.ite ?_ ?_
  · exact (State.setHead_within ..).mono (by decide)
  · exact Within.refl _ _

theorem execResyncComplete_within (s : State) :
    Within [.regs, .ring, .bist, .flocks] s (outcomeState (execResyncComplete s) s) := by
  unfold execResyncComplete
  dsimp -zeta only [outcomeState]
  refine Within.ite ?_ ?_
  · refine Within.trans ?_ ((State.onRing_within ..).mono (by decide))
    exact (State.setHead_within ..).mono (by decide)
  · exact Within.refl _ _

theorem execHandbackCleanElapsed_within (s : State) :
    Within [.regs, .ring] s (outcomeState (execHandbackCleanElapsed s) s) := by
  unfold execHandbackCleanElapsed
  dsimp -zeta only [outcomeState]
  split
  · extract_lets y1 y2
    clear_value y1 y2
    refine Within.ite ?_ ?_
    · refine Within.trans ?_ ((State.onRing_within ..).mono (by decide))
      exact (State.flag_within ..).mono (by decide)
    · exact Within.refl _ _
  · exact Within.refl _ _

theorem State.handover_within (s : State) :
    Within [.regs, .ring] s (State.handover s) := by
  unfold State.handover
  split
  · refine Within.ite ?_ ?_
    · refine Within.trans ?_ ((State.onRing_within ..).mono (by decide))
      exact (State.flag_within ..).mono (by decide)
    · exact Within.refl _ _
  · exact Within.refl _ _

theorem execRingHandover_within (s : State) :
    Within [.regs, .ring] s (outcomeState (execRingHandover s) s) := by
  unfold execRingHandover
  dsimp -zeta only [outcomeState]
  refine Within.ite ?_ ?_
  · exact (State.handover_within ..).mono (by decide)
  · exact Within.refl _ _

theorem State.handbackNow_within (s : State) :
    Within [.regs, .out, .ring, .bist, .flocks] s (State.handbackNow s) := by
  unfold State.handbackNow
  extract_lets y1
  clear_value y1
  refine Within.trans ?_ ((State.sendHello_within ..).mono (by decide))
  exact (State.setHead_within ..).mono (by decide)

theorem State.ringClear_within (s : State) :
    Within [.regs] s (State.ringClear s) := by
  unfold State.ringClear
  refine Within.each _ _ (fun x a => ?_) ?_
  · exact (State.put_within ..).mono (by decide)
  · exact Within.refl _ _

theorem execRingClear_within (s : State) :
    Within [.regs] s (outcomeState (execRingClear s) s) := by
  unfold execRingClear
  dsimp -zeta only [outcomeState]
  refine Within.ite ?_ ?_
  · exact (State.ringClear_within ..).mono (by decide)
  · exact Within.refl _ _

end Sys2Proof.Machine
end

