-- ==== Sys2Proof/Laws/WithinLink.lean ====
section
/-! SUPPORT. What each operation and each meaning of Machine/Link.lean can do to the state: the parts it may change, and that it
keeps the canonical form and the shape. -/
set_option Elab.async false
namespace Sys2Proof.Machine

theorem State.onLane_within (s : State) (n : Nat) (f : Lane → Lane) :
    Within [.link] s (State.onLane s n f) := by
  unfold State.onLane
  exact (State.onLink_within ..).mono (by decide)

theorem State.setPort_within (s : State) (p : Nat) (st : Nat) :
    Within [.regs] s (State.setPort s p st) := by
  unfold State.setPort
  exact (State.put_within ..).mono (by decide)

theorem State.ringBreak_within (s : State) (p : ℕ) :
    Within [.regs, .out, .time, .host, .ring] s (State.ringBreak s p) := by
  unfold State.ringBreak
  extract_lets y1 y2 y3
  refine Within.via y1 ?_ fun _ => ?_
  · exact (State.unsyncIfCut_within ..).mono (by decide)
  clear_value y1
  refine Within.via y2 ?_ fun _ => ?_
  · refine Within.ite ?_ ?_
    · refine Within.trans ?_ ((State.onRing_within ..).mono (by decide))
      assumption
    · assumption
  clear_value y2
  refine Within.via y3 ?_ fun _ => ?_
  · refine Within.ite ?_ ?_
    · refine Within.trans ?_ ((State.ewDiff_within ..).mono (by decide))
      refine Within.trans ?_ ((State.reSource_within ..).mono (by decide))
      assumption
    · assumption
  clear_value y3
  refine Within.trans ?_ ((State.judgeRings_within ..).mono (by decide))
  assumption

theorem State.setTaps_within (s : State) (n : Nat) (m2 : Int) (m1 : Int) (c0 : Int) (p1 : Int) :
    Within [.regs] s (State.setTaps s n m2 m1 c0 p1) := by
  unfold State.setTaps
  refine Within.trans ?_ ((State.putS_within ..).mono (by decide))
  refine Within.trans ?_ ((State.put_within ..).mono (by decide))
  refine Within.trans ?_ ((State.putS_within ..).mono (by decide))
  exact (State.putS_within ..).mono (by decide)

theorem State.ffeRequest_within (s : State) (n : Nat) (control : Nat) :
    Within [.regs] s (State.ffeRequest s n control).1 := by
  unfold State.ffeRequest
  extract_lets y1 y2 y3 y4 y5 y6 y7 y8
  clear_value y1 y2 y3 y4 y5 y6 y7 y8
  refine Within.ite_fst ?_ ?_
  · dsimp -zeta only
    exact Within.refl _ _
  · refine Within.ite_fst ?_ ?_
    · dsimp -zeta only
      exact Within.refl _ _
    · refine Within.ite_fst ?_ ?_
      · split
        · dsimp -zeta only
          exact (State.setTaps_within ..).mono (by decide)
        · dsimp -zeta only
          exact Within.refl _ _
      · refine Within.ite_fst ?_ ?_
        · dsimp -zeta only
          exact Within.refl _ _
        · refine Within.ite_fst ?_ ?_
          · dsimp -zeta only
            exact (State.setTaps_within ..).mono (by decide)
          · dsimp -zeta only
            exact Within.refl _ _

theorem State.setTapsWord_within (s : State) (n : ℕ) (v : ℕ) :
    Within [.regs] s (State.setTapsWord s n v) := by
  unfold State.setTapsWord
  exact (State.setTaps_within ..).mono (by decide)

theorem State.writeTxffe_within (s : State) (n : ℕ) (v : ℕ) :
    Within [.regs, .link] s (State.writeTxffe s n v) := by
  unfold State.writeTxffe
  refine Within.ite ?_ ?_
  · exact (State.flag_within ..).mono (by decide)
  · refine Within.ite ?_ ?_
    · exact (State.flag_within ..).mono (by decide)
    · extract_lets y1
      refine Within.via y1 ?_ fun _ => ?_
      · exact (State.flag_within ..).mono (by decide)
      clear_value y1
      refine Within.ite ?_ ?_
      · refine Within.trans ?_ ((State.onLane_within ..).mono (by decide))
        assumption
      · refine Within.trans ?_ ((State.setTapsWord_within ..).mono (by decide))
        assumption

theorem State.applyEq_within (s : State) (n : Nat) :
    Within [.regs, .link] s (State.applyEq s n) := by
  unfold State.applyEq
  extract_lets y1 y2
  refine Within.via y1 ?_ fun _ => ?_
  · refine Within.ite ?_ ?_
    · exact Within.refl _ _
    · exact (State.put_within ..).mono (by decide)
  clear_value y1
  refine Within.via y2 ?_ fun _ => ?_
  · refine Within.ite ?_ ?_
    · assumption
    · refine Within.trans ?_ ((State.put_within ..).mono (by decide))
      assumption
  clear_value y2
  refine Within.trans ?_ ((State.onLane_within ..).mono (by decide))
  assumption

theorem State.applyCdr_within (s : State) (n : ℕ) :
    Within [.link] s (State.applyCdr s n) := by
  unfold State.applyCdr
  exact (State.onLane_within ..).mono (by decide)

theorem State.eqWritten_within (s : State) (n : Nat) :
    Within [.regs, .link] s (State.eqWritten s n) := by
  unfold State.eqWritten
  refine Within.ite ?_ ?_
  · exact (State.onLane_within ..).mono (by decide)
  · exact (State.applyEq_within ..).mono (by decide)

theorem State.cdrWritten_within (s : State) (n : ℕ) :
    Within [.link] s (State.cdrWritten s n) := by
  unfold State.cdrWritten
  refine Within.ite ?_ ?_
  · exact (State.onLane_within ..).mono (by decide)
  · exact (State.applyCdr_within ..).mono (by decide)

theorem State.applyPending_within (s : State) (n : ℕ) :
    Within [.regs, .link] s (State.applyPending s n) := by
  unfold State.applyPending
  extract_lets y1
  refine Within.via y1 ?_ fun _ => ?_
  · dsimp -zeta only [y1]
    split
    · refine Within.trans ?_ ((State.onLane_within ..).mono (by decide))
      exact (State.setTapsWord_within ..).mono (by decide)
    · exact Within.refl _ _
  clear_value y1
  refine Within.when _ _ (fun x => ?_) ?_
  · exact (State.applyCdr_within ..).mono (by decide)
  · refine Within.when _ _ (fun x => ?_) ?_
    · exact (State.applyEq_within ..).mono (by decide)
    · assumption

theorem State.leaveUp_within (s : State) (p : ℕ) :
    Within [.regs, .time, .link] s (State.leaveUp s p) := by
  unfold State.leaveUp
  extract_lets y1 y2
  refine Within.via y1 ?_ fun _ => ?_
  · refine Within.trans ?_ ((State.flag_within ..).mono (by decide))
    exact (State.flag_within ..).mono (by decide)
  clear_value y1
  refine Within.via y2 ?_ fun _ => ?_
  · refine Within.trans ?_ ((State.onPd_within ..).mono (by decide))
    assumption
  clear_value y2
  refine Within.each _ _ (fun x a => ?_) ?_
  · exact (State.applyPending_within ..).mono (by decide)
  · assumption

theorem State.endMission_within (s : State) (p : ℕ) :
    Within [.regs, .ring] s (State.endMission s p) := by
  unfold State.endMission
  extract_lets y1
  refine Within.via y1 ?_ fun _ => ?_
  · refine Within.each _ _ (fun x a => ?_) ?_
    · refine Within.trans ?_ ((State.flag_within ..).mono (by decide))
      refine Within.trans ?_ ((State.flag_within ..).mono (by decide))
      exact (State.flag_within ..).mono (by decide)
    · exact Within.refl _ _
  clear_value y1
  refine Within.trans ?_ ((State.onRing_within ..).mono (by decide))
  assumption

theorem State.startMission_within (s : State) (p : ℕ) :
    Within [.fresh, .link] s (State.startMission s p) := by
  unfold State.startMission
  extract_lets y1 y2
  refine Within.via y1 ?_ fun _ => ?_
  · exact (State.onPort_within ..).mono (by decide)
  clear_value y1
  refine Within.via y2 ?_ fun _ => ?_
  · refine Within.trans ?_ ((State.tickFresh_within ..).mono (by decide))
    refine Within.trans ?_ ((State.tickFresh_within ..).mono (by decide))
    assumption
  clear_value y2
  refine Within.each _ _ (fun x a => ?_) ?_
  · exact (State.onLane_within ..).mono (by decide)
  · assumption

theorem State.movePort_within (s : State) (p : ℕ) (st : ℕ) :
    Within [.regs, .fresh, .out, .time, .host, .ring, .link] s (State.movePort s p st) := by
  unfold State.movePort
  extract_lets y1 y2 y3 y4 y5 y6 y7 y8 y9 y10 y11
  refine Within.via y2 ?_ fun _ => ?_
  · refine Within.trans ?_ ((State.onPort_within ..).mono (by decide))
    exact (State.setPort_within ..).mono (by decide)
  clear_value y1 y2
  refine Within.via y3 ?_ fun _ => ?_
  · refine Within.when _ _ (fun x => ?_) ?_
    · exact (State.ringBreak_within ..).mono (by decide)
    · assumption
  clear_value y3
  refine Within.via y4 ?_ fun _ => ?_
  · refine Within.when _ _ (fun x => ?_) ?_
    · exact (State.judgeRings_within ..).mono (by decide)
    · assumption
  clear_value y4
  refine Within.via y5 ?_ fun _ => ?_
  · refine Within.when _ _ (fun x => ?_) ?_
    · exact (State.transports_within ..).mono (by decide)
    · assumption
  clear_value y5
  refine Within.via y6 ?_ fun _ => ?_
  · refine Within.when _ _ (fun x => ?_) ?_
    · exact (State.leaveUp_within ..).mono (by decide)
    · assumption
  clear_value y6
  refine Within.via y7 ?_ fun _ => ?_
  · refine Within.when _ _ (fun x => ?_) ?_
    · exact (State.endMission_within ..).mono (by decide)
    · assumption
  clear_value y7
  refine Within.via y8 ?_ fun _ => ?_
  · refine Within.when _ _ (fun x => ?_) ?_
    · refine Within.each _ _ (fun x a => ?_) ?_
      · exact (State.flag_within ..).mono (by decide)
      · exact Within.refl _ _
    · assumption
  clear_value y8
  refine Within.via y9 ?_ fun _ => ?_
  · refine Within.when _ _ (fun x => ?_) ?_
    · refine Within.each _ _ (fun x a => ?_) ?_
      · exact (State.onLane_within ..).mono (by decide)
      · exact Within.refl _ _
    · assumption
  clear_value y9
  refine Within.via y10 ?_ fun _ => ?_
  · refine Within.when _ _ (fun x => ?_) ?_
    · refine Within.each _ _ (fun x a => ?_) ?_
      · exact (State.onLane_within ..).mono (by decide)
      · exact Within.refl _ _
    · assumption
  clear_value y10
  refine Within.via y11 ?_ fun _ => ?_
  · refine Within.when _ _ (fun x => ?_) ?_
    · exact (State.flag_within ..).mono (by decide)
    · assumption
  clear_value y11
  refine Within.when _ _ (fun x => ?_) ?_
  · exact (State.startMission_within ..).mono (by decide)
  · assumption

theorem State.toDetect_within (s : State) (p : ℕ) (keep : List ℕ) :
    Within [.regs, .fresh, .out, .time, .host, .ring, .link] s (State.toDetect s p keep) := by
  unfold State.toDetect
  extract_lets y1 y2 y3 y4
  refine Within.via y1 ?_ fun _ => ?_
  · exact (State.movePort_within ..).mono (by decide)
  clear_value y1
  refine Within.via y3 ?_ fun _ => ?_
  · refine Within.trans ?_ ((State.onPort_within ..).mono (by decide))
    assumption
  clear_value y2 y3
  refine Within.via y4 ?_ fun _ => ?_
  · refine Within.each _ _ (fun x a => ?_) ?_
    · refine Within.trans ?_ ((State.flag_within ..).mono (by decide))
      refine Within.trans ?_ ((State.tickFresh_within ..).mono (by decide))
      exact (State.onLane_within ..).mono (by decide)
    · assumption
  clear_value y4
  refine Within.ite ?_ ?_
  · refine Within.trans ?_ ((State.movePort_within ..).mono (by decide))
    assumption
  · assumption

theorem State.toFault_within (s : State) (p : ℕ) (reason : ℕ) :
    Within [.regs, .fresh, .out, .time, .host, .ring, .link] s (State.toFault s p reason) := by
  unfold State.toFault
  extract_lets y1 y2 y3
  refine Within.via y1 ?_ fun _ => ?_
  · refine Within.trans ?_ ((State.put_within ..).mono (by decide))
    exact (State.movePort_within ..).mono (by decide)
  clear_value y1
  refine Within.via y3 ?_ fun _ => ?_
  · refine Within.trans ?_ ((State.onPort_within ..).mono (by decide))
    assumption
  clear_value y2 y3
  refine Within.trans ?_ ((State.irqAll_within ..).mono (by decide))
  refine Within.trans ?_ ((State.inc_within ..).mono (by decide))
  assumption

theorem State.enablePort_within (s : State) (p : ℕ) :
    Within [.regs, .fresh, .out, .time, .host, .ring, .link] s (State.enablePort s p) := by
  unfold State.enablePort
  extract_lets y1
  refine Within.via y1 ?_ fun _ => ?_
  · exact (State.flag_within ..).mono (by decide)
  clear_value y1
  refine Within.ite ?_ ?_
  · assumption
  · refine Within.ite ?_ ?_
    · refine Within.trans ?_ ((State.put_within ..).mono (by decide))
      assumption
    · refine Within.trans ?_ ((State.toDetect_within ..).mono (by decide))
      assumption

theorem State.disablePort_within (s : State) (p : ℕ) :
    Within [.regs, .fresh, .out, .time, .host, .ring, .link] s (State.disablePort s p) := by
  unfold State.disablePort
  refine Within.trans ?_ ((State.movePort_within ..).mono (by decide))
  exact (State.flag_within ..).mono (by decide)

theorem execPortEnable_within (port : Fin 7) (s : State) :
    Within [.regs, .fresh, .out, .time, .host, .ring, .link] s (outcomeState (execPortEnable port s) s) := by
  unfold execPortEnable
  dsimp -zeta only [outcomeState]
  refine Within.ite ?_ ?_
  · exact (State.enablePort_within ..).mono (by decide)
  · exact Within.refl _ _

theorem execPortDisable_within (port : Fin 7) (s : State) :
    Within [.regs, .fresh, .out, .time, .host, .ring, .link] s (outcomeState (execPortDisable port s) s) := by
  unfold execPortDisable
  dsimp -zeta only [outcomeState]
  refine Within.ite ?_ ?_
  · exact (State.disablePort_within ..).mono (by decide)
  · exact Within.refl _ _

theorem State.rxPolarity_within (s : State) (n : ℕ) (inverted : Bool) :
    Within [.regs] s (State.rxPolarity s n inverted) := by
  unfold State.rxPolarity
  exact (State.flag_within ..).mono (by decide)

theorem State.signalOn_within (s : State) (n : ℕ) :
    Within [.regs, .link] s (State.signalOn s n) := by
  unfold State.signalOn
  refine Within.trans ?_ ((State.onLane_within ..).mono (by decide))
  exact (State.flag_within ..).mono (by decide)

theorem State.hears_within (s : State) (n : ℕ) :
    Within [.regs, .link] s (State.hears s n) := by
  unfold State.hears
  refine Within.trans ?_ ((State.flag_within ..).mono (by decide))
  exact (State.signalOn_within ..).mono (by decide)

theorem execTrainingFrameRx_within (lane : Fin 28) (control : ℕ) (status : ℕ) (comp : ℕ) (inverted : Bool) (s : State) :
    Within [.regs, .fresh, .out, .time, .host, .ring, .link] s (outcomeState (execTrainingFrameRx lane control status comp inverted s) s) := by
  unfold execTrainingFrameRx
  extract_lets y1 y2 y3 y4 y5 y6
  refine Within.via y4 ?_ fun _ => ?_
  · refine Within.trans ?_ ((State.rxPolarity_within ..).mono (by decide))
    exact (State.signalOn_within ..).mono (by decide)
  clear_value y1 y2 y3 y4
  refine Within.via y6.1 ?_ fun _ => ?_
  · refine Within.ite_fst ?_ ?_
    · refine Within.trans ?_ ((State.ffeRequest_within ..).mono (by decide))
      assumption
    · dsimp -zeta only
      assumption
  clear_value y5 y6
  dsimp -zeta only [outcomeState]
  refine Within.ite ?_ ?_
  · exact Within.refl _ _
  · refine Within.ite ?_ ?_
    · assumption
    · refine Within.ite ?_ ?_
      · refine Within.trans ?_ ((State.toFault_within ..).mono (by decide))
        assumption
      · refine Within.ite ?_ ?_
        · assumption
        · refine Within.ite ?_ ?_
          · refine Within.trans ?_ ((State.onLane_within ..).mono (by decide))
            assumption
          · refine Within.trans ?_ ((State.flag_within ..).mono (by decide))
            refine Within.trans ?_ ((State.onPort_within ..).mono (by decide))
            refine Within.trans ?_ ((State.onLane_within ..).mono (by decide))
            assumption

theorem execDetectComplete_within (port : Fin 7) (s : State) :
    Within [.regs, .fresh, .out, .time, .host, .ring, .link] s (outcomeState (execDetectComplete port s) s) := by
  unfold execDetectComplete
  dsimp -zeta only [outcomeState]
  refine Within.ite ?_ ?_
  · split
    · exact (State.toFault_within ..).mono (by decide)
    · extract_lets y1 y2
      refine Within.via y2 ?_ fun _ => ?_
      · refine Within.trans ?_ ((State.put_within ..).mono (by decide))
        exact (State.movePort_within ..).mono (by decide)
      clear_value y1 y2
      refine Within.ite ?_ ?_
      · exact (State.toFault_within ..).mono (by decide)
      · refine Within.each _ _ (fun x a => ?_) ?_
        · exact (State.onLane_within ..).mono (by decide)
        · assumption
  · exact Within.refl _ _

theorem execTrainReady_within (port : Fin 7) (adapt : List (ℕ × ℤ)) (s : State) :
    Within [.regs, .link] s (outcomeState (execTrainReady port adapt s) s) := by
  unfold execTrainReady
  dsimp -zeta only [outcomeState]
  refine Within.ite ?_ ?_
  · exact Within.refl _ _
  · extract_lets y1 y2 y3 y4 y5
    refine Within.via y1 ?_ fun _ => ?_
    · refine Within.each _ _ (fun x a => ?_) ?_
      · extract_lets y6 y7 y8 y9
        refine Within.via y8 ?_ fun _ => ?_
        · refine Within.ite ?_ ?_
          · exact (State.put_within ..).mono (by decide)
          · exact Within.refl _ _
        clear_value y6 y7 y8
        refine Within.via y9 ?_ fun _ => ?_
        · refine Within.ite ?_ ?_
          · refine Within.trans ?_ ((State.putS_within ..).mono (by decide))
            assumption
          · assumption
        clear_value y9
        refine Within.trans ?_ ((State.flag_within ..).mono (by decide))
        assumption
      · exact Within.refl _ _
    clear_value y1
    refine Within.via y2 ?_ fun _ => ?_
    · refine Within.trans ?_ ((State.onPort_within ..).mono (by decide))
      assumption
    clear_value y2
    refine Within.via y5 ?_ fun _ => ?_
    · refine Within.each _ _ (fun x a => ?_) ?_
      · exact (State.onLane_within ..).mono (by decide)
      · assumption
    clear_value y3 y4 y5
    refine Within.ite ?_ ?_
    · assumption
    · refine Within.trans ?_ ((State.onPort_within ..).mono (by decide))
      assumption

theorem execTrainEnd_within (port : Fin 7) (s : State) :
    Within [.regs, .fresh, .out, .time, .host, .ring, .link] s (outcomeState (execTrainEnd port s) s) := by
  unfold execTrainEnd
  dsimp -zeta only [outcomeState]
  refine Within.ite ?_ ?_
  · extract_lets y1
    refine Within.via y1 ?_ fun _ => ?_
    · refine Within.trans ?_ ((State.onPort_within ..).mono (by decide))
      exact (State.movePort_within ..).mono (by decide)
    clear_value y1
    refine Within.each _ _ (fun x a => ?_) ?_
    · refine Within.trans ?_ ((State.flag_within ..).mono (by decide))
      exact (State.flag_within ..).mono (by decide)
    · assumption
  · exact Within.refl _ _

theorem execTrainTimeout_within (port : Fin 7) (s : State) :
    Within [.regs, .fresh, .out, .time, .host, .ring, .link] s (outcomeState (execTrainTimeout port s) s) := by
  unfold execTrainTimeout
  dsimp -zeta only [outcomeState]
  refine Within.ite ?_ ?_
  · extract_lets y1 y2
    clear_value y1 y2
    split
    · exact (State.toFault_within ..).mono (by decide)
    · exact (State.toDetect_within ..).mono (by decide)
  · exact Within.refl _ _

theorem execAlignComplete_within (port : Fin 7) (arrivals : List ℕ) (s : State) :
    Within [.regs, .fresh, .out, .time, .host, .ring, .link] s (outcomeState (execAlignComplete port arrivals s) s) := by
  unfold execAlignComplete
  dsimp -zeta only [outcomeState]
  refine Within.ite ?_ ?_
  · exact Within.refl _ _
  · extract_lets y1 y2 y3
    refine Within.via y3 ?_ fun _ => ?_
    · refine Within.each _ _ (fun x a => ?_) ?_
      · extract_lets y4
        clear_value y4
        refine Within.trans ?_ ((State.put_within ..).mono (by decide))
        exact (State.put_within ..).mono (by decide)
      · exact Within.refl _ _
    clear_value y1 y2 y3
    refine Within.ite ?_ ?_
    · refine Within.trans ?_ ((State.toFault_within ..).mono (by decide))
      assumption
    · refine Within.ite ?_ ?_
      · refine Within.trans ?_ ((State.toFault_within ..).mono (by decide))
        assumption
      · refine Within.trans ?_ ((State.movePort_within ..).mono (by decide))
        assumption

theorem execAlignTimeout_within (port : Fin 7) (s : State) :
    Within [.regs, .fresh, .out, .time, .host, .ring, .link] s (outcomeState (execAlignTimeout port s) s) := by
  unfold execAlignTimeout
  dsimp -zeta only [outcomeState]
  refine Within.ite ?_ ?_
  · exact (State.toFault_within ..).mono (by decide)
  · exact Within.refl _ _

theorem execCheckTxTimer_within (port : Fin 7) (s : State) :
    Within [.out, .link] s (outcomeState (execCheckTxTimer port s) s) := by
  unfold execCheckTxTimer
  dsimp -zeta only [outcomeState]
  refine Within.ite ?_ ?_
  · exact Within.refl _ _
  · refine Within.ite ?_ ?_
    · extract_lets y1 y2 y3
      refine Within.via y2 ?_ fun _ => ?_
      · refine Within.trans ?_ ((State.emit_within ..).mono (by decide))
        exact (State.emit_within ..).mono (by decide)
      clear_value y1 y2
      refine Within.via y3 ?_ fun _ => ?_
      · refine Within.trans ?_ ((State.onPort_within ..).mono (by decide))
        assumption
      clear_value y3
      refine Within.ite ?_ ?_
      · refine Within.trans ?_ ((State.onPort_within ..).mono (by decide))
        refine Within.trans ?_ ((State.emit_within ..).mono (by decide))
        assumption
      · assumption
    · refine Within.ite ?_ ?_
      · refine Within.trans ?_ ((State.onPort_within ..).mono (by decide))
        exact (State.emit_within ..).mono (by decide)
      · exact Within.refl _ _

theorem execIdent_within (port : Fin 7) (block : Bytes) (s : State) :
    Within [.regs, .fresh, .out, .time, .host, .ring, .link] s (outcomeState (execIdent port block s) s) := by
  unfold execIdent
  dsimp -zeta only [outcomeState]
  refine State.linkRx_within (by decide) ?_ ?_
  · intro _
    refine Within.ite ?_ ?_
    · exact Within.refl _ _
    · extract_lets y1 y2
      refine Within.via y1 ?_ fun _ => ?_
      · exact (State.put64_within ..).mono (by decide)
      clear_value y1
      refine Within.via y2 ?_ fun _ => ?_
      · refine Within.trans ?_ ((State.put_within ..).mono (by decide))
        refine Within.trans ?_ ((State.put_within ..).mono (by decide))
        refine Within.trans ?_ ((State.put_within ..).mono (by decide))
        assumption
      clear_value y2
      refine Within.ite ?_ ?_
      · refine Within.trans ?_ ((State.toFault_within ..).mono (by decide))
        assumption
      · refine Within.trans ?_ ((State.onPort_within ..).mono (by decide))
        refine Within.trans ?_ ((State.judgeRings_within ..).mono (by decide))
        assumption
  · exact Within.refl _ _

theorem execCap_within (port : Fin 7) (block : Bytes) (s : State) :
    Within [.regs, .fresh, .out, .time, .host, .ring, .link] s (outcomeState (execCap port block s) s) := by
  unfold execCap
  dsimp -zeta only [outcomeState]
  refine State.linkRx_within (by decide) ?_ ?_
  · intro _
    refine Within.ite ?_ ?_
    · exact Within.refl _ _
    · extract_lets y1 y2
      refine Within.via y2 ?_ fun _ => ?_
      · exact (State.put_within ..).mono (by decide)
      clear_value y1 y2
      refine Within.ite ?_ ?_
      · refine Within.trans ?_ ((State.toFault_within ..).mono (by decide))
        assumption
      · refine Within.trans ?_ ((State.onPort_within ..).mono (by decide))
        assumption
  · exact Within.refl _ _

theorem execConfirm_within (port : Fin 7) (block : Bytes) (s : State) :
    Within [.regs, .fresh, .out, .time, .host, .ring, .link] s (outcomeState (execConfirm port block s) s) := by
  unfold execConfirm
  dsimp -zeta only [outcomeState]
  refine State.linkRx_within (by decide) ?_ ?_
  · intro _
    refine Within.ite ?_ ?_
    · exact Within.refl _ _
    · extract_lets y1 y2
      clear_value y1 y2
      refine Within.ite ?_ ?_
      · exact (State.toFault_within ..).mono (by decide)
      · exact (State.onPort_within ..).mono (by decide)
  · exact Within.refl _ _

theorem execCheckComplete_within (port : Fin 7) (s : State) :
    Within [.regs, .fresh, .out, .time, .host, .ring, .link] s (outcomeState (execCheckComplete port s) s) := by
  unfold execCheckComplete
  dsimp -zeta only [outcomeState]
  extract_lets y1 y2 y3 y4 y5
  refine Within.via y3 ?_ fun _ => ?_
  · refine Within.trans ?_ ((State.flag_within ..).mono (by decide))
    exact (State.movePort_within ..).mono (by decide)
  clear_value y1 y2 y3
  refine Within.via y4 ?_ fun _ => ?_
  · refine Within.trans ?_ ((State.put_within ..).mono (by decide))
    assumption
  clear_value y4
  refine Within.via y5 ?_ fun _ => ?_
  · refine Within.trans ?_ ((State.onPort_within ..).mono (by decide))
    assumption
  clear_value y5
  refine Within.ite ?_ ?_
  · refine Within.trans ?_ ((State.onRing_within ..).mono (by decide))
    assumption
  · exact Within.refl _ _

theorem execCheckTimeout_within (port : Fin 7) (s : State) :
    Within [.regs, .fresh, .out, .time, .host, .ring, .link] s (outcomeState (execCheckTimeout port s) s) := by
  unfold execCheckTimeout
  dsimp -zeta only [outcomeState]
  refine Within.ite ?_ ?_
  · exact (State.toFault_within ..).mono (by decide)
  · exact Within.refl _ _

theorem execConfirmTxEnd_within (port : Fin 7) (s : State) :
    Within [.link] s (outcomeState (execConfirmTxEnd port s) s) := by
  unfold execConfirmTxEnd
  dsimp -zeta only [outcomeState]
  exact (State.onPort_within ..).mono (by decide)

theorem State.judgeRates_within (s : State) :
    Within [.regs, .fresh, .out, .time, .host, .ring, .link] s (State.judgeRates s) := by
  unfold State.judgeRates
  refine Within.each _ _ (fun x a => ?_) ?_
  · refine Within.ite ?_ ?_
    · exact (State.movePort_within ..).mono (by decide)
    · refine Within.ite ?_ ?_
      · exact (State.movePort_within ..).mono (by decide)
      · exact Within.refl _ _
  · exact Within.refl _ _

theorem execKeyxTimer_within (port : Fin 7) (s : State) :
    Within [.fresh, .out, .ring, .link] s (outcomeState (execKeyxTimer port s) s) := by
  unfold execKeyxTimer
  dsimp -zeta only [outcomeState]
  extract_lets y1 y2 y3
  refine Within.via y2 ?_ fun _ => ?_
  · refine Within.ite ?_ ?_
    · refine Within.trans ?_ ((State.tickFresh_within ..).mono (by decide))
      exact (State.onEnc_within ..).mono (by decide)
    · exact Within.refl _ _
  clear_value y1 y2
  refine Within.via y3 ?_ fun _ => ?_
  · refine Within.trans ?_ ((State.onPort_within ..).mono (by decide))
    refine Within.trans ?_ ((State.emit_within ..).mono (by decide))
    assumption
  clear_value y3
  refine Within.ite ?_ ?_
  · exact Within.refl _ _
  · refine Within.ite ?_ ?_
    · refine Within.trans ?_ ((State.onEnc_within ..).mono (by decide))
      refine Within.trans ?_ ((State.emit_within ..).mono (by decide))
      assumption
    · assumption

theorem execKeyx_within (port : Fin 7) (body : Bytes) (s : State) :
    Within [.ring, .link] s (outcomeState (execKeyx port body s) s) := by
  unfold execKeyx
  dsimp -zeta only [outcomeState]
  refine State.linkRx_within (by decide) ?_ ?_
  · intro _
    refine Within.ite ?_ ?_
    · exact (State.onEnc_within ..).mono (by decide)
    · exact Within.refl _ _
  · exact Within.refl _ _

theorem execKeyconf_within (port : Fin 7) (body : Bytes) (s : State) :
    Within [.regs, .fresh, .out, .time, .host, .ring, .link] s (outcomeState (execKeyconf port body s) s) := by
  unfold execKeyconf
  dsimp -zeta only [outcomeState]
  refine State.linkRx_within (by decide) ?_ ?_
  · intro _
    refine Within.ite ?_ ?_
    · refine Within.ite ?_ ?_
      · exact (State.onEnc_within ..).mono (by decide)
      · exact (State.toFault_within ..).mono (by decide)
    · exact Within.refl _ _
  · exact Within.refl _ _

theorem execLaneLos_within (lane : Fin 28) (s : State) :
    Within [.regs, .fresh, .out, .time, .host, .ring, .link] s (outcomeState (execLaneLos lane s) s) := by
  unfold execLaneLos
  extract_lets y1 y2 y3
  refine Within.via y3 ?_ fun _ => ?_
  · refine Within.trans ?_ ((State.onLane_within ..).mono (by decide))
    refine Within.trans ?_ ((State.flag_within ..).mono (by decide))
    exact (State.flag_within ..).mono (by decide)
  clear_value y1 y2 y3
  dsimp -zeta only [outcomeState]
  refine Within.ite ?_ ?_
  · exact Within.refl _ _
  · refine Within.ite ?_ ?_
    · refine Within.trans ?_ ((State.toFault_within ..).mono (by decide))
      refine Within.trans ?_ ((State.flag_within ..).mono (by decide))
      assumption
    · assumption

theorem State.judgeDegraded_within (s : State) (p : Nat) (n : Nat) :
    Within [.regs, .link] s (State.judgeDegraded s p n) := by
  unfold State.judgeDegraded
  extract_lets y1 y2 y3 y4 y5 y6 y7
  clear_value y1 y2 y3 y4
  refine Within.via y5 ?_ fun _ => ?_
  · exact (State.onLane_within ..).mono (by decide)
  clear_value y5
  refine Within.via y6 ?_ fun _ => ?_
  · refine Within.ite ?_ ?_
    · refine Within.trans ?_ ((State.flag_within ..).mono (by decide))
      assumption
    · assumption
  clear_value y6
  refine Within.via y7 ?_ fun _ => ?_
  · refine Within.trans ?_ ((State.flag_within ..).mono (by decide))
    assumption
  clear_value y7
  refine Within.trans ?_ ((State.flag_within ..).mono (by decide))
  assumption

theorem State.adaptStep_within (s : State) (n : ℕ) (peak : ℕ) (h1 : ℤ) :
    Within [.regs] s (State.adaptStep s n peak h1) := by
  unfold State.adaptStep
  extract_lets y1
  refine Within.via y1 ?_ fun _ => ?_
  · refine Within.when _ _ (fun x => ?_) ?_
    · exact (State.put_within ..).mono (by decide)
    · exact Within.refl _ _
  clear_value y1
  refine Within.when _ _ (fun x => ?_) ?_
  · exact (State.putS_within ..).mono (by decide)
  · assumption

theorem State.markerEq_within (s : State) (p : ℕ) (n : ℕ) (good : Bool) (peak : ℕ) (h1 : ℤ) :
    Within [.regs, .link] s (State.markerEq s p n good peak h1) := by
  unfold State.markerEq
  refine Within.when _ _ (fun x => ?_) ?_
  · exact (State.adaptStep_within ..).mono (by decide)
  · refine Within.when _ _ (fun x => ?_) ?_
    · exact (State.applyPending_within ..).mono (by decide)
    · exact Within.refl _ _

theorem State.markerMiss_within (s : State) (p : ℕ) (n : ℕ) :
    Within [.regs, .fresh, .out, .time, .host, .ring, .link] s (State.markerMiss s p n) := by
  unfold State.markerMiss
  extract_lets y1 y2
  refine Within.via y1 ?_ fun _ => ?_
  · exact (State.onLane_within ..).mono (by decide)
  clear_value y1
  refine Within.via y2 ?_ fun _ => ?_
  · refine Within.when _ _ (fun x => ?_) ?_
    · exact (State.flag_within ..).mono (by decide)
    · assumption
  clear_value y2
  refine Within.when _ _ (fun x => ?_) ?_
  · refine Within.trans ?_ ((State.toFault_within ..).mono (by decide))
    exact (State.flag_within ..).mono (by decide)
  · assumption

theorem State.markerTaken_within (s : State) (n : ℕ) (marker : Bytes) :
    Within [.regs, .link] s (State.markerTaken s n marker) := by
  unfold State.markerTaken
  extract_lets y1 y2
  refine Within.via y2 ?_ fun _ => ?_
  · exact (State.onLane_within ..).mono (by decide)
  clear_value y1 y2
  refine Within.when _ _ (fun x => ?_) ?_
  · exact (State.flag_within ..).mono (by decide)
  · assumption

theorem execMarkerRx_within (lane : Fin 28) (marker : Bytes) (ppm : ℤ) (peak : ℕ) (h1 : ℤ) (s : State) :
    Within [.regs, .fresh, .out, .time, .host, .ring, .link] s (outcomeState (execMarkerRx lane marker ppm peak h1 s) s) := by
  unfold execMarkerRx
  extract_lets y1 y2 y3 y4 y5 y6 y7
  refine Within.via y4 ?_ fun _ => ?_
  · refine Within.trans ?_ ((State.onLane_within ..).mono (by decide))
    refine Within.when _ _ (fun x => ?_) ?_
    · exact (State.hears_within ..).mono (by decide)
    · exact Within.refl _ _
  clear_value y1 y2 y3 y4
  refine Within.via y5 ?_ fun _ => ?_
  · refine Within.trans ?_ ((State.markerEq_within ..).mono (by decide))
    refine Within.trans ?_ ((State.putS_within ..).mono (by decide))
    assumption
  clear_value y5
  refine Within.via y6 ?_ fun _ => ?_
  · refine Within.when _ _ (fun x => ?_) ?_
    · exact (State.inc_within ..).mono (by decide)
    · assumption
  clear_value y6
  refine Within.via y7 ?_ fun _ => ?_
  · refine Within.trans ?_ ((State.onLane_within ..).mono (by decide))
    refine Within.trans ?_ ((State.judgeDegraded_within ..).mono (by decide))
    assumption
  clear_value y7
  dsimp -zeta only [outcomeState]
  refine Within.ite ?_ ?_
  · exact Within.refl _ _
  · refine Within.ite ?_ ?_
    · refine Within.trans ?_ ((State.markerTaken_within ..).mono (by decide))
      assumption
    · refine Within.trans ?_ ((State.markerMiss_within ..).mono (by decide))
      assumption

theorem State.takeSlots_within (s : State) (p : ℕ) (row : List (ℕ × Bool × List (List Bool))) :
    Within [.link] s (State.takeSlots s p row) := by
  unfold State.takeSlots
  extract_lets y1 y2 y3 y4 y5 y6 y7
  clear_value y1 y2 y3 y4 y5 y6 y7
  exact (State.onPort_within ..).mono (by decide)

theorem State.mergeWords_within (s : State) (p : ℕ) :
    Within [.link] s (State.mergeWords s p) := by
  unfold State.mergeWords
  extract_lets y1 y2 y3 y4 y5
  refine Within.via y4 ?_ fun _ => ?_
  · refine Within.each _ _ (fun x a => ?_) ?_
    · exact (State.onLane_within ..).mono (by decide)
    · exact Within.refl _ _
  clear_value y1 y3 y4
  refine Within.via y5 ?_ fun _ => ?_
  · refine Within.trans ?_ ((State.takeSlots_within ..).mono (by decide))
    assumption
  clear_value y5
  refine Within.ite ?_ ?_
  · exact Within.refl _ _
  · refine Within.ite ?_ ?_
    · assumption
    · refine Within.each _ _ (fun x a => ?_) ?_
      · exact (State.onLane_within ..).mono (by decide)
      · assumption

theorem execCodewordRx_within (lane : Fin 28) (symbols : List ℕ) (s : State) :
    Within [.regs, .fresh, .out, .time, .host, .ring, .link] s (outcomeState (execCodewordRx lane symbols s) s) := by
  unfold execCodewordRx
  extract_lets y1 y2 y3 y4 y5 y6 y7 y8 y9 y10
  refine Within.via y8 ?_ fun _ => ?_
  · refine Within.trans ?_ ((State.onLane_within ..).mono (by decide))
    exact (State.hears_within ..).mono (by decide)
  clear_value y1 y2 y3 y4 y5 y6 y7 y8
  refine Within.via y9 ?_ fun _ => ?_
  · refine Within.trans ?_ ((State.mergeWords_within ..).mono (by decide))
    assumption
  clear_value y9
  refine Within.via y10 ?_ fun _ => ?_
  · refine Within.trans ?_ ((State.onLane_within ..).mono (by decide))
    refine Within.trans ?_ ((State.inc_within ..).mono (by decide))
    refine Within.trans ?_ ((State.inc_within ..).mono (by decide))
    assumption
  clear_value y10
  dsimp -zeta only [outcomeState]
  refine Within.ite ?_ ?_
  · exact Within.refl _ _
  · refine Within.ite ?_ ?_
    · exact (State.onLane_within ..).mono (by decide)
    · split
      · assumption
      · extract_lets y11
        refine Within.via y11 ?_ fun _ => ?_
        · refine Within.trans ?_ ((State.onLane_within ..).mono (by decide))
          refine Within.trans ?_ ((State.add_within ..).mono (by decide))
          refine Within.trans ?_ ((State.inc_within ..).mono (by decide))
          assumption
        clear_value y11
        refine Within.ite ?_ ?_
        · refine Within.trans ?_ ((State.inc_within ..).mono (by decide))
          assumption
        · assumption
      · refine Within.ite ?_ ?_
        · refine Within.trans ?_ ((State.toFault_within ..).mono (by decide))
          refine Within.trans ?_ ((State.flag_within ..).mono (by decide))
          assumption
        · assumption

theorem execIdleBlockRx_within (port : Fin 7) (run : List Bytes) (block : Bytes) (s : State) :
    Within [.regs, .ring, .link] s (outcomeState (execIdleBlockRx port run block s) s) := by
  unfold execIdleBlockRx
  dsimp -zeta only [outcomeState]
  refine Within.ite ?_ ?_
  · refine Within.trans ?_ ((State.onPort_within ..).mono (by decide))
    refine Within.trans ?_ ((State.onEnc_within ..).mono (by decide))
    exact (State.inc_within ..).mono (by decide)
  · exact Within.refl _ _

theorem execFaultHoldoffExpire_within (port : Fin 7) (s : State) :
    Within [.regs, .fresh, .out, .time, .host, .ring, .link] s (outcomeState (execFaultHoldoffExpire port s) s) := by
  unfold execFaultHoldoffExpire
  dsimp -zeta only [outcomeState]
  refine Within.ite ?_ ?_
  · exact (State.toDetect_within ..).mono (by decide)
  · exact Within.refl _ _

theorem State.retrain_within (s : State) (p : ℕ) :
    Within [.regs, .fresh, .out, .time, .host, .ring, .link] s (State.retrain s p) := by
  unfold State.retrain
  refine Within.ite ?_ ?_
  · exact Within.refl _ _
  · extract_lets y1
    clear_value y1
    refine Within.trans ?_ ((State.onPort_within ..).mono (by decide))
    exact (State.toFault_within ..).mono (by decide)

theorem execPortRetrain_within (port : Fin 7) (s : State) :
    Within [.regs, .fresh, .out, .time, .host, .ring, .link] s (outcomeState (execPortRetrain port s) s) := by
  unfold execPortRetrain
  dsimp -zeta only [outcomeState]
  refine Within.ite ?_ ?_
  · exact (State.retrain_within ..).mono (by decide)
  · exact Within.refl _ _

theorem State.portClear_within (s : State) (p : Nat) :
    Within [.regs] s (State.portClear s p) := by
  unfold State.portClear
  extract_lets y1
  refine Within.via y1 ?_ fun _ => ?_
  · refine Within.trans ?_ ((State.put_within ..).mono (by decide))
    refine Within.trans ?_ ((State.put_within ..).mono (by decide))
    exact (State.put_within ..).mono (by decide)
  clear_value y1
  refine Within.each _ _ (fun x a => ?_) ?_
  · refine Within.trans ?_ ((State.put_within ..).mono (by decide))
    refine Within.trans ?_ ((State.put_within ..).mono (by decide))
    refine Within.trans ?_ ((State.put_within ..).mono (by decide))
    exact (State.put_within ..).mono (by decide)
  · assumption

theorem execPortClear_within (port : Fin 7) (s : State) :
    Within [.regs] s (outcomeState (execPortClear port s) s) := by
  unfold execPortClear
  dsimp -zeta only [outcomeState]
  refine Within.ite ?_ ?_
  · exact (State.portClear_within ..).mono (by decide)
  · exact Within.refl _ _

theorem State.judgeTest_within (s : State) (n : ℕ) :
    Within [.regs, .fresh, .out, .time, .host, .ring, .link] s (State.judgeTest s n) := by
  unfold State.judgeTest
  refine Within.ite ?_ ?_
  · exact Within.refl _ _
  · extract_lets y1
    clear_value y1
    refine Within.ite ?_ ?_
    · exact Within.refl _ _
    · refine Within.ite ?_ ?_
      · refine Within.ite ?_ ?_
        · exact Within.refl _ _
        · exact (State.movePort_within ..).mono (by decide)
      · refine Within.ite ?_ ?_
        · exact (State.toDetect_within ..).mono (by decide)
        · exact Within.refl _ _

theorem State.startPattern_within (s : State) (n : ℕ) (gen : ℕ) (chk : ℕ) :
    Within [.regs, .fresh, .link] s (State.startPattern s n gen chk) := by
  unfold State.startPattern
  extract_lets y1 y2
  refine Within.via y1 ?_ fun _ => ?_
  · refine Within.when _ _ (fun x => ?_) ?_
    · refine Within.trans ?_ ((State.tickFresh_within ..).mono (by decide))
      exact (State.onLane_within ..).mono (by decide)
    · exact Within.refl _ _
  clear_value y1
  refine Within.via y2 ?_ fun _ => ?_
  · refine Within.when _ _ (fun x => ?_) ?_
    · refine Within.trans ?_ ((State.flag_within ..).mono (by decide))
      exact (State.onLane_within ..).mono (by decide)
    · assumption
  clear_value y2
  refine Within.trans ?_ ((State.put_within ..).mono (by decide))
  refine Within.trans ?_ ((State.put_within ..).mono (by decide))
  assumption

theorem State.testSelect_within (s : State) (n : ℕ) (gen : ℕ) (chk : ℕ) (loop : ℕ) :
    Within [.regs, .fresh, .out, .time, .host, .ring, .link] s (State.testSelect s n gen chk loop) := by
  unfold State.testSelect
  refine Within.ite ?_ ?_
  · exact (State.flag_within ..).mono (by decide)
  · refine Within.trans ?_ ((State.judgeTest_within ..).mono (by decide))
    refine Within.trans ?_ ((State.put_within ..).mono (by decide))
    exact (State.startPattern_within ..).mono (by decide)

theorem execLaneTestSelect_within (lane : Fin 32) (gen : ℕ) (chk : ℕ) (loopback : ℕ) (s : State) :
    Within [.regs, .fresh, .out, .time, .host, .ring, .link] s (outcomeState (execLaneTestSelect lane gen chk loopback s) s) := by
  unfold execLaneTestSelect
  dsimp -zeta only [outcomeState]
  refine Within.ite ?_ ?_
  · exact (State.testSelect_within ..).mono (by decide)
  · exact Within.refl _ _

theorem State.prbsClear_within (s : State) (n : Nat) :
    Within [.regs] s (State.prbsClear s n) := by
  unfold State.prbsClear
  refine Within.trans ?_ ((State.put_within ..).mono (by decide))
  refine Within.trans ?_ ((State.put_within ..).mono (by decide))
  refine Within.trans ?_ ((State.put_within ..).mono (by decide))
  exact (State.put_within ..).mono (by decide)

theorem execPrbsClear_within (lane : Fin 32) (s : State) :
    Within [.regs] s (outcomeState (execPrbsClear lane s) s) := by
  unfold execPrbsClear
  dsimp -zeta only [outcomeState]
  refine Within.ite ?_ ?_
  · exact (State.prbsClear_within ..).mono (by decide)
  · exact Within.refl _ _

theorem State.writePrbs_within (s : State) (n : ℕ) (v : ℕ) :
    Within [.regs, .fresh, .out, .time, .host, .ring, .link] s (State.writePrbs s n v) := by
  unfold State.writePrbs
  refine Within.ite ?_ ?_
  · exact (State.flag_within ..).mono (by decide)
  · extract_lets y1 y2
    refine Within.via y1 ?_ fun _ => ?_
    · refine Within.trans ?_ ((State.flag_within ..).mono (by decide))
      exact (State.flag_within ..).mono (by decide)
    clear_value y1
    refine Within.via y2 ?_ fun _ => ?_
    · refine Within.trans ?_ ((State.testSelect_within ..).mono (by decide))
      assumption
    clear_value y2
    refine Within.when _ _ (fun x => ?_) ?_
    · exact (State.prbsClear_within ..).mono (by decide)
    · assumption

theorem State.add48_within (s : State) (lo : Fld) (hi : Fld) (n : Nat) (k : Nat) :
    Within [.regs] s (State.add48 s lo hi n k) := by
  unfold State.add48
  exact (State.put64_within ..).mono (by decide)

theorem State.sendSymbols_within (s : State) (n : ℕ) (nrz : Bool) (l : List ℕ) :
    Within [.out, .link] s (State.sendSymbols s n nrz l) := by
  unfold State.sendSymbols
  refine Within.trans ?_ ((State.emit_within ..).mono (by decide))
  exact (State.onLane_within ..).mono (by decide)

theorem State.checkBits_within (s : State) (n : ℕ) (received : List Bool) :
    Within [.regs, .link] s (State.checkBits s n received) := by
  unfold State.checkBits
  extract_lets y1 y2 y3
  refine Within.via y3 ?_ fun _ => ?_
  · refine Within.trans ?_ ((State.flag_within ..).mono (by decide))
    exact (State.onLane_within ..).mono (by decide)
  clear_value y1 y2 y3
  refine Within.ite ?_ ?_
  · exact Within.refl _ _
  · refine Within.trans ?_ ((State.add48_within ..).mono (by decide))
    refine Within.trans ?_ ((State.add48_within ..).mono (by decide))
    assumption

theorem execPrbsCheckerLock_within (lane : Fin 32) (symbols : List ℕ) (s : State) :
    Within [.regs, .out, .link] s (outcomeState (execPrbsCheckerLock lane symbols s) s) := by
  unfold execPrbsCheckerLock
  dsimp -zeta only [outcomeState]
  refine Within.ite ?_ ?_
  · extract_lets y1 y2 y3
    refine Within.via y3 ?_ fun _ => ?_
    · refine Within.when _ _ (fun x => ?_) ?_
      · exact (State.sendSymbols_within ..).mono (by decide)
      · exact (State.hears_within ..).mono (by decide)
    clear_value y1 y2 y3
    refine Within.trans ?_ ((State.checkBits_within ..).mono (by decide))
    assumption
  · exact Within.refl _ _

theorem State.inject_within (s : State) (n : ℕ) (len : ℕ) :
    Within [.link] s (State.inject s n len) := by
  unfold State.inject
  refine Within.ite ?_ ?_
  · exact (State.onLane_within ..).mono (by decide)
  · exact Within.refl _ _

theorem State.injectGo_within (s : State) (n : ℕ) :
    Within [.link] s (State.injectGo s n) := by
  unfold State.injectGo
  split
  · exact (State.inject_within ..).mono (by decide)
  · exact (State.inject_within ..).mono (by decide)
  · exact Within.refl _ _

theorem execInjectGo_within (lane : Fin 32) (s : State) :
    Within [.link] s (outcomeState (execInjectGo lane s) s) := by
  unfold execInjectGo
  dsimp -zeta only [outcomeState]
  refine Within.ite ?_ ?_
  · exact (State.injectGo_within ..).mono (by decide)
  · exact Within.refl _ _

theorem execInjectRateTick_within (lane : Fin 32) (s : State) :
    Within [.link] s (outcomeState (execInjectRateTick lane s) s) := by
  unfold execInjectRateTick
  extract_lets y1
  clear_value y1
  dsimp -zeta only [outcomeState]
  refine Within.ite ?_ ?_
  · exact (State.onLane_within ..).mono (by decide)
  · exact Within.refl _ _

end Sys2Proof.Machine
end

