-- ==== Sys2Proof/Laws/WithinMem.lean ====
section
/-! SUPPORT. What each operation and each meaning of Machine/Mem.lean can do to the state: the parts it may change, and that it
keeps the canonical form and the shape. -/
set_option Elab.async false
namespace Sys2Proof.Machine

theorem State.memLog_within (s : State) (a : Nat) (unc : Bool) (word : Nat) (cls : Nat) :
    Within [.regs] s (State.memLog s a unc word cls) := by
  unfold State.memLog
  extract_lets y1 y2 y3
  refine Within.via y1 ?_ fun _ => ?_
  · refine Within.trans ?_ ((State.put_within ..).mono (by decide))
    exact (State.put_within ..).mono (by decide)
  clear_value y1
  refine Within.via y2 ?_ fun _ => ?_
  · refine Within.trans ?_ ((State.flag_within ..).mono (by decide))
    refine Within.trans ?_ ((State.put_within ..).mono (by decide))
    assumption
  clear_value y2
  refine Within.via y3 ?_ fun _ => ?_
  · refine Within.trans ?_ ((State.flag_within ..).mono (by decide))
    refine Within.trans ?_ ((State.put_within ..).mono (by decide))
    assumption
  clear_value y3
  refine Within.trans ?_ ((State.put_within ..).mono (by decide))
  refine Within.trans ?_ ((State.put_within ..).mono (by decide))
  assumption

theorem State.memError_within (s : State) (a : ℕ) (unc : Bool) (word : ℕ) (cls : ℕ) :
    Within [.regs, .out, .host, .ring, .mst, .bist] s (State.memError s a unc word cls) := by
  unfold State.memError
  extract_lets y1 y2 y3 y4 y5
  refine Within.via y2 ?_ fun _ => ?_
  · refine Within.ite ?_ ?_
    · exact (State.memLog_within ..).mono (by decide)
    · exact Within.refl _ _
  clear_value y1 y2
  refine Within.via y4 ?_ fun _ => ?_
  · refine Within.trans ?_ ((State.flag_within ..).mono (by decide))
    refine Within.trans ?_ ((State.inc_within ..).mono (by decide))
    refine Within.trans ?_ ((State.inc_within ..).mono (by decide))
    assumption
  clear_value y3 y4
  refine Within.via y5 ?_ fun _ => ?_
  · refine Within.trans ?_ ((State.flag_within ..).mono (by decide))
    refine Within.trans ?_ ((State.inc_within ..).mono (by decide))
    refine Within.trans ?_ ((State.inc_within ..).mono (by decide))
    assumption
  clear_value y5
  refine Within.ite ?_ ?_
  · refine Within.trans ?_ ((State.onMst_within ..).mono (by decide))
    refine Within.trans ?_ ((State.onBist_within ..).mono (by decide))
    refine Within.trans ?_ ((State.noteFault_within ..).mono (by decide))
    refine Within.trans ?_ ((State.irqAll_within ..).mono (by decide))
    assumption
  · refine Within.trans ?_ ((State.onMst_within ..).mono (by decide))
    assumption

theorem State.memTouch_within (s : State) (a : ℕ) (n : ℕ) (cls : ℕ) :
    Within [.regs, .out, .host, .ring, .mst, .bist] s (State.memTouch s a n cls) := by
  unfold State.memTouch
  refine Within.each _ _ (fun x a => ?_) ?_
  · exact (State.memError_within ..).mono (by decide)
  · exact Within.refl _ _

theorem State.mergeRead_within (s : State) (a : ℕ) (cls : ℕ) :
    Within [.regs, .out, .host, .ring, .mst, .bist] s (State.mergeRead s a cls) := by
  unfold State.mergeRead
  refine Within.when _ _ (fun x => ?_) ?_
  · exact (State.memTouch_within ..).mono (by decide)
  · exact Within.refl _ _

theorem State.memMerge_within (s : State) (a : ℕ) (b : Bytes) (cls : ℕ) :
    Within [.regs, .mem, .out, .host, .ring, .mst, .bist] s (State.memMerge s a b cls) := by
  unfold State.memMerge
  refine Within.ite ?_ ?_
  · exact Within.refl _ _
  · extract_lets y1
    refine Within.via y1 ?_ fun _ => ?_
    · exact (State.mergeRead_within ..).mono (by decide)
    clear_value y1
    refine Within.trans ?_ ((State.memWrite_within ..).mono (by decide))
    refine Within.when _ _ (fun x => ?_) ?_
    · exact (State.mergeRead_within ..).mono (by decide)
    · assumption

theorem State.setScrubPos_within (s : State) (a : Nat) :
    Within [.regs] s (State.setScrubPos s a) := by
  unfold State.setScrubPos
  refine Within.trans ?_ ((State.put_within ..).mono (by decide))
  exact (State.put_within ..).mono (by decide)

theorem State.judgeScrub_within (s : State) :
    Within [.regs] s (State.judgeScrub s) := by
  unfold State.judgeScrub
  extract_lets y1 y2
  clear_value y1 y2
  refine Within.ite ?_ ?_
  · exact (State.flag_within ..).mono (by decide)
  · refine Within.ite ?_ ?_
    · exact (State.flag_within ..).mono (by decide)
    · exact Within.refl _ _

theorem State.rebaseScrub_within (s : State) :
    Within [.mst] s (State.rebaseScrub s) := by
  unfold State.rebaseScrub
  exact (State.onMst_within ..).mono (by decide)

theorem State.scrubAnew_within (s : State) : Within [.regs, .mst] s (State.scrubAnew s) := by
  unfold State.scrubAnew
  refine Within.trans ?_ ((State.judgeScrub_within ..).mono (by decide))
  exact (State.rebaseScrub_within ..).mono (by decide)

theorem State.scrubNext_within (s : State) :
    Within [.regs, .mst] s (State.scrubNext s) := by
  unfold State.scrubNext
  refine Within.ite ?_ ?_
  · refine Within.trans ?_ ((State.onMst_within ..).mono (by decide))
    refine Within.trans ?_ ((State.inc_within ..).mono (by decide))
    exact (State.setScrubPos_within ..).mono (by decide)
  · exact (State.setScrubPos_within ..).mono (by decide)

theorem execScrubRead_within (err : Option (Bool × ℕ)) (s : State) :
    Within [.regs, .out, .host, .ring, .mst, .bist] s (outcomeState (execScrubRead err s) s) := by
  unfold execScrubRead
  dsimp -zeta only [outcomeState]
  refine Within.ite ?_ ?_
  · extract_lets y1 y2
    refine Within.via y2 ?_ fun _ => ?_
    · dsimp -zeta only [y2]
      split
      · refine Within.ite ?_ ?_
        · exact (State.memError_within ..).mono (by decide)
        · exact (State.memTouch_within ..).mono (by decide)
      · exact (State.memTouch_within ..).mono (by decide)
    clear_value y1 y2
    refine Within.trans ?_ ((State.judgeScrub_within ..).mono (by decide))
    refine Within.trans ?_ ((State.scrubNext_within ..).mono (by decide))
    assumption
  · exact Within.refl _ _

theorem execCorrectedWriteback_within (granule : Nat) (s : State) :
    Within [.mst] s (outcomeState (execCorrectedWriteback granule s) s) := by
  unfold execCorrectedWriteback
  dsimp -zeta only [outcomeState]
  refine Within.ite ?_ ?_
  · exact (State.onMst_within ..).mono (by decide)
  · exact Within.refl _ _

theorem execMemGrant_within (ch : Fin 8) (reqs : List MemReq) (s : State) :
    Within [.regs, .mst] s (outcomeState (execMemGrant ch reqs s) s) := by
  unfold execMemGrant
  extract_lets y1 y2
  clear_value y1 y2
  dsimp -zeta only [outcomeState]
  refine Within.ite ?_ ?_
  · exact Within.refl _ _
  · split
    · exact Within.refl _ _
    · split
      · exact Within.refl _ _
      · extract_lets y3 y4
        refine Within.via y3 ?_ fun _ => ?_
        · exact (State.inc_within ..).mono (by decide)
        clear_value y3
        refine Within.via y4 ?_ fun _ => ?_
        · refine Within.trans ?_ ((State.put_within ..).mono (by decide))
          assumption
        clear_value y4
        refine Within.trans ?_ ((State.onMst_within ..).mono (by decide))
        assumption

theorem execRefreshDue_within (ch : Fin 8) (s : State) :
    Within [.mst] s (outcomeState (execRefreshDue ch s) s) := by
  unfold execRefreshDue
  dsimp -zeta only [outcomeState]
  refine Within.ite ?_ ?_
  · exact (State.onMst_within ..).mono (by decide)
  · exact Within.refl _ _

theorem execMemTrackTimer_within (ch : Fin 8) (s : State) :
    Within [.regs] s (outcomeState (execMemTrackTimer ch s) s) := by
  unfold execMemTrackTimer
  dsimp -zeta only [outcomeState]
  refine Within.ite ?_ ?_
  · exact (State.add_within ..).mono (by decide)
  · exact Within.refl _ _

theorem State.memClear_within (s : State) :
    Within [.regs] s (State.memClear s) := by
  unfold State.memClear
  extract_lets y1 y2
  refine Within.via y1 ?_ fun _ => ?_
  · refine Within.trans ?_ ((State.zero_within ..).mono (by decide))
    refine Within.trans ?_ ((State.zero_within ..).mono (by decide))
    exact (State.zero_within ..).mono (by decide)
  clear_value y1
  refine Within.via y2 ?_ fun _ => ?_
  · refine Within.each _ _ (fun x a => ?_) ?_
    · refine Within.trans ?_ ((State.zero_within ..).mono (by decide))
      exact (State.zero_within ..).mono (by decide)
    · assumption
  clear_value y2
  refine Within.each _ _ (fun x a => ?_) ?_
  · refine Within.trans ?_ ((State.zero_within ..).mono (by decide))
    refine Within.trans ?_ ((State.zero_within ..).mono (by decide))
    exact (State.zero_within ..).mono (by decide)
  · assumption

theorem execMemClear_within (s : State) :
    Within [.regs] s (outcomeState (execMemClear s) s) := by
  unfold execMemClear
  dsimp -zeta only [outcomeState]
  refine Within.ite ?_ ?_
  · exact (State.memClear_within ..).mono (by decide)
  · exact Within.refl _ _

theorem State.logRearm_within (s : State) :
    Within [.regs] s (State.logRearm s) := by
  unfold State.logRearm
  refine Within.trans ?_ ((State.zero_within ..).mono (by decide))
  refine Within.trans ?_ ((State.zero_within ..).mono (by decide))
  exact (State.zero_within ..).mono (by decide)

theorem execLogRearm_within (s : State) :
    Within [.regs] s (outcomeState (execLogRearm s) s) := by
  unfold execLogRearm
  dsimp -zeta only [outcomeState]
  refine Within.ite ?_ ?_
  · exact (State.logRearm_within ..).mono (by decide)
  · exact Within.refl _ _

theorem State.clipReport_within (s : State) (id : ℕ) :
    Within [.regs, .out, .host, .ring, .ingest, .mst, .bist] s (State.clipReport s id) := by
  unfold State.clipReport
  refine Within.trans ?_ ((State.onIngest_within ..).mono (by decide))
  exact (State.memTouch_within ..).mono (by decide)

end Sys2Proof.Machine
end

