-- ==== Sys2Proof/Laws/WithinHostOps.lean ====
section
/-! SUPPORT. What each operation and each meaning of Machine/HostOps.lean can do to the state: the parts it may change, and that it
keeps the canonical form and the shape. -/
set_option Elab.async false
namespace Sys2Proof.Machine

theorem State.memHeal_within (s : State) (a : ℕ) (n : ℕ) :
    Within [.mst] s (State.memHeal s a n) := by
  unfold State.memHeal
  exact (State.onMst_within ..).mono (by decide)

theorem State.recErr_within (s : State) (r : JRec) :
    Within [.regs, .out, .host, .ring, .mst, .bist] s (State.recErr s r) := by
  unfold State.recErr
  refine Within.each _ _ (fun x a => ?_) ?_
  · refine Within.trans ?_ ((State.memHeal_within ..).mono (by decide))
    exact (State.memTouch_within ..).mono (by decide)
  · exact Within.refl _ _

theorem State.newEpoch_within (s : State) :
    Within [.regs, .fresh, .out, .host, .ring] s (State.newEpoch s) := by
  unfold State.newEpoch
  extract_lets y1 y2 y3
  refine Within.via y3 ?_ fun _ => ?_
  · refine Within.trans ?_ ((State.onHost_within ..).mono (by decide))
    exact (State.tickFresh_within ..).mono (by decide)
  clear_value y1 y2 y3
  refine Within.when _ _ (fun x => ?_) ?_
  · exact (State.sendEpoch_within ..).mono (by decide)
  · refine Within.trans ?_ ((State.journalRegs_within ..).mono (by decide))
    refine Within.each _ _ (fun x a => ?_) ?_
    · refine Within.trans ?_ ((State.irq_within ..).mono (by decide))
      refine Within.trans ?_ ((State.put_within ..).mono (by decide))
      refine Within.trans ?_ ((State.setNext_within ..).mono (by decide))
      exact (State.put_within ..).mono (by decide)
    · assumption

theorem State.useRec_within (s : State) (r : JRec) :
    Within [.regs, .fresh, .out, .host, .ring, .mst, .bist] s (State.useRec s r) := by
  unfold State.useRec
  refine Within.ite ?_ ?_
  · exact Within.refl _ _
  · refine Within.ite ?_ ?_
    · refine Within.trans ?_ ((State.ctxFault_within ..).mono (by decide))
      exact (State.recErr_within ..).mono (by decide)
    · refine Within.trans ?_ ((State.newEpoch_within ..).mono (by decide))
      exact (State.recErr_within ..).mono (by decide)

theorem State.usePeerRec_within (s : State) (r : JRec) :
    Within [.regs, .out, .host, .ring, .mst, .bist] s (State.usePeerRec s r) := by
  unfold State.usePeerRec
  refine Within.ite ?_ ?_
  · exact Within.refl _ _
  · refine Within.trans ?_ ((State.headSend_within ..).mono (by decide))
    refine Within.trans ?_ ((State.journalRegs_within ..).mono (by decide))
    refine Within.trans ?_ ((State.onHost_within ..).mono (by decide))
    exact (State.recErr_within ..).mono (by decide)

theorem State.useJrec_within (s : State) (c : ℕ) (ticket : ℕ) :
    Within [.regs, .fresh, .out, .host, .ring, .mst, .bist] s (State.useJrec s c ticket) := by
  unfold State.useJrec
  split
  · refine Within.ite ?_ ?_
    · exact (State.useRec_within ..).mono (by decide)
    · exact (State.usePeerRec_within ..).mono (by decide)
  · exact Within.refl _ _

theorem State.freeRec_within (s : State) (c : ℕ) (ticket : ℕ) :
    Within [.regs, .fresh, .out, .host, .ring, .mst, .bist] s (State.freeRec s c ticket) := by
  unfold State.freeRec
  extract_lets y1
  refine Within.via y1 ?_ fun _ => ?_
  · refine Within.trans ?_ ((State.onRec_within ..).mono (by decide))
    exact (State.useJrec_within ..).mono (by decide)
  clear_value y1
  refine Within.trans ?_ ((State.journalRegs_within ..).mono (by decide))
  refine Within.trans ?_ ((State.onHost_within ..).mono (by decide))
  assumption

theorem State.complIrq_within (s : State) (c : ℕ) (k : Compl) :
    Within [.regs, .out, .host, .ring] s (State.complIrq s c k) := by
  unfold State.complIrq
  extract_lets y1
  clear_value y1
  refine Within.ite ?_ ?_
  · exact (State.irq_within ..).mono (by decide)
  · refine Within.when _ _ (fun x => ?_) ?_
    · exact (State.irq_within ..).mono (by decide)
    · exact Within.refl _ _

theorem State.writeCq_within (s : State) (c : ℕ) (k : Compl) :
    Within [.regs, .out, .host, .ring] s (State.writeCq s c k) := by
  unfold State.writeCq
  extract_lets y1 y2 y3 y4 y5 y6 y7 y8 y9 y10
  refine Within.via y4 ?_ fun _ => ?_
  · exact (State.onCtx_within ..).mono (by decide)
  clear_value y1 y2 y3 y4
  refine Within.via y5 ?_ fun _ => ?_
  · refine Within.trans ?_ ((State.put_within ..).mono (by decide))
    assumption
  clear_value y5
  refine Within.via y6 ?_ fun _ => ?_
  · refine Within.ite ?_ ?_
    · refine Within.trans ?_ ((State.put_within ..).mono (by decide))
      assumption
    · assumption
  clear_value y6
  refine Within.via y9 ?_ fun _ => ?_
  · refine Within.ite ?_ ?_
    · assumption
    · refine Within.ite ?_ ?_
      · refine Within.trans ?_ ((State.onRec_within ..).mono (by decide))
        assumption
      · refine Within.ite ?_ ?_
        · refine Within.trans ?_ ((State.onRec_within ..).mono (by decide))
          assumption
        · assumption
  clear_value y7 y8 y9
  refine Within.via y10 ?_ fun _ => ?_
  · dsimp -zeta only [y10]
    split
    · refine Within.when _ _ (fun x => ?_) ?_
      · exact (State.emit_within ..).mono (by decide)
      · assumption
    · refine Within.trans ?_ ((State.reply_within ..).mono (by decide))
      assumption
    · assumption
  clear_value y10
  refine Within.trans ?_ ((State.complIrq_within ..).mono (by decide))
  assumption

theorem State.flushItems_within (n : Nat) (s : State) (c : Nat) :
    Within [.regs, .out, .host, .ring] s (State.flushItems n s c) := by
  induction n generalizing s with
  | zero => exact Within.refl _ _
  | succ n ih =>
    unfold State.flushItems
    split
    · exact Within.trans ((State.flag_within ..).mono (by decide)) ((State.judgeBounds_within ..).mono (by decide))
    · refine Within.ite (Within.trans ?_ (ih _)) (Within.refl _ _)
      exact Within.trans ((State.onCtx_within ..).mono (by decide)) ((State.writeCq_within ..).mono (by decide))

theorem State.complete_within (s : State) (c : ℕ) (k : Compl) :
    Within [.regs, .out, .host, .ring] s (State.complete s c k) := by
  unfold State.complete
  refine Within.ite ?_ ?_
  · exact (State.writeCq_within ..).mono (by decide)
  · refine Within.trans ?_ ((State.onCtx_within ..).mono (by decide))
    refine Within.trans ?_ ((State.judgeBounds_within ..).mono (by decide))
    exact (State.flag_within ..).mono (by decide)

theorem State.flushCq_within (s : State) (c : ℕ) :
    Within [.regs, .out, .host, .ring] s (State.flushCq s c) := by
  unfold State.flushCq
  exact (State.flushItems_within ..).mono (by decide)

theorem State.answered_within (s : State) (c : Nat) (bound : Nat) :
    Within [.regs, .host] s (State.answered s c bound) := by
  unfold State.answered
  extract_lets y1
  refine Within.via y1 ?_ fun _ => ?_
  · refine Within.ite ?_ ?_
    · exact (State.inc_within ..).mono (by decide)
    · exact Within.refl _ _
  clear_value y1
  refine Within.trans ?_ ((State.onCtx_within ..).mono (by decide))
  assumption

theorem State.takeSq_within (s : State) (c : Nat) :
    Within [.regs, .host] s (State.takeSq s c) := by
  unfold State.takeSq
  extract_lets y1
  clear_value y1
  refine Within.trans ?_ ((State.put_within ..).mono (by decide))
  exact (State.onCtx_within ..).mono (by decide)

theorem State.reject_within (s : State) (c : ℕ) (e : Bytes) (code : ℕ) (ot : ℕ) (oc : ℕ) :
    Within [.regs, .out, .host, .ring] s (State.reject s c e code ot oc) := by
  unfold State.reject
  extract_lets y1 y2
  refine Within.via y2 ?_ fun _ => ?_
  · refine Within.trans ?_ ((State.inc_within ..).mono (by decide))
    refine Within.trans ?_ ((State.answered_within ..).mono (by decide))
    exact (State.takeSq_within ..).mono (by decide)
  clear_value y1 y2
  refine Within.trans ?_ ((State.complete_within ..).mono (by decide))
  assumption

theorem State.answer_within (s : State) (c : ℕ) (e : Bytes) (result : ℕ) (ot : ℕ) (oc : ℕ) (data : Bytes) (ans : Bytes) :
    Within [.regs, .out, .host, .ring] s (State.answer s c e result ot oc data ans) := by
  unfold State.answer
  extract_lets y1 y2
  refine Within.via y2 ?_ fun _ => ?_
  · refine Within.trans ?_ ((State.answered_within ..).mono (by decide))
    exact (State.takeSq_within ..).mono (by decide)
  clear_value y1 y2
  refine Within.trans ?_ ((State.complete_within ..).mono (by decide))
  assumption

theorem State.handOff_within (s : State) (c : Nat) (ticket : Nat) :
    Within [.out, .host, .ring] s (State.handOff s c ticket) := by
  unfold State.handOff
  exact (State.onRec_within ..).mono (by decide)

theorem State.finish_within (s : State) (c : ℕ) (ticket : ℕ) (result : ℕ) (data : Bytes) :
    Within [.regs, .fresh, .out, .host, .ring, .mst, .bist] s (State.finish s c ticket result data) := by
  unfold State.finish
  extract_lets y1 y2 y3
  refine Within.via y1 ?_ fun _ => ?_
  · exact (State.useJrec_within ..).mono (by decide)
  clear_value y1
  refine Within.via y2 ?_ fun _ => ?_
  · refine Within.trans ?_ ((State.onRec_within ..).mono (by decide))
    assumption
  clear_value y2
  refine Within.via y3 ?_ fun _ => ?_
  · refine Within.trans ?_ ((State.put_within ..).mono (by decide))
    assumption
  clear_value y3
  split
  · assumption
  · refine Within.ite ?_ ?_
    · assumption
    · refine Within.ite ?_ ?_
      · assumption
      · refine Within.trans ?_ ((State.complete_within ..).mono (by decide))
        assumption

theorem State.finishPart_within (s : State) (t : ℕ × ℕ) :
    Within [.regs, .fresh, .out, .host, .ring, .mst, .bist] s (State.finishPart s t) := by
  unfold State.finishPart
  refine Within.ite ?_ ?_
  · exact Within.refl _ _
  · exact (State.finish_within ..).mono (by decide)

theorem State.writePending_within (s : State) (r : JRec) :
    Within [.regs, .out, .host, .ring] s (State.writePending s r) := by
  unfold State.writePending
  extract_lets y1 y2
  refine Within.via y2 ?_ fun _ => ?_
  · refine Within.when _ _ (fun x => ?_) ?_
    · exact (State.complete_within ..).mono (by decide)
    · exact Within.refl _ _
  clear_value y1 y2
  refine Within.when _ _ (fun x => ?_) ?_
  · exact (State.complete_within ..).mono (by decide)
  · assumption

theorem State.countInflight_within (s : State) (c : ℕ) :
    Within [.regs] s (State.countInflight s c) := by
  unfold State.countInflight
  exact (State.put_within ..).mono (by decide)

theorem State.finishAll_within (s : State) (ts : List (ℕ × ℕ)) (result : ℕ) (data : Bytes) :
    Within [.regs, .fresh, .out, .host, .ring, .mst, .bist] s (State.finishAll s ts result data) := by
  unfold State.finishAll
  refine Within.each _ _ (fun x a => ?_) ?_
  · exact (State.finish_within ..).mono (by decide)
  · exact Within.refl _ _

theorem State.finishOpt_within (s : State) (t : Option (ℕ × ℕ)) (result : ℕ) :
    Within [.regs, .fresh, .out, .host, .ring, .mst, .bist] s (State.finishOpt s t result) := by
  unfold State.finishOpt
  split
  · refine Within.ite ?_ ?_
    · exact (State.finishPart_within ..).mono (by decide)
    · exact (State.finish_within ..).mono (by decide)
  · exact Within.refl _ _

theorem State.wrongTransport_within (s : State) (c : ℕ) :
    Within [.regs, .out, .host, .ring] s (State.wrongTransport s c) := by
  unfold State.wrongTransport
  refine Within.trans ?_ ((State.ctxFault_within ..).mono (by decide))
  exact (State.inc_within ..).mono (by decide)

end Sys2Proof.Machine
end

