-- ==== Sys2Proof/Laws/WithinIngest.lean ====
section
/-! SUPPORT. What each operation and each meaning of Machine/Ingest.lean can do to the state: the parts it may change, and that it
keeps the canonical form and the shape. -/
set_option Elab.async false
namespace Sys2Proof.Machine

theorem State.onLayer_within (s : State) (l : Nat) (f : ILayer → ILayer) :
    Within [.ingest] s (State.onLayer s l f) := by
  unfold State.onLayer
  exact (State.onIngest_within ..).mono (by decide)

theorem State.setAdmission_within (s : State) :
    Within [.regs] s (State.setAdmission s) := by
  unfold State.setAdmission
  extract_lets y1
  refine Within.via y1 ?_ fun _ => ?_
  · refine Within.each _ _ (fun x a => ?_) ?_
    · refine Within.trans ?_ ((State.flag_within ..).mono (by decide))
      exact (State.put_within ..).mono (by decide)
    · exact Within.refl _ _
  clear_value y1
  refine Within.trans ?_ ((State.put_within ..).mono (by decide))
  assumption

theorem State.withRegs_within (s : State) (ws : List (Nat × Word)) :
    Within [.regs] s (State.withRegs s ws) := by
  unfold State.withRegs
  refine Within.foldl _ _ (fun x a => ?_) ?_
  · exact (State.setReg_within ..).mono (by decide)
  · exact Within.refl _ _

theorem State.under_within (s : State) (x : NextCfg) :
    Within [.regs, .time] s (State.under s x) := by
  unfold State.under
  extract_lets y1
  refine Within.via y1 ?_ fun _ => ?_
  · exact (State.withRegs_within ..).mono (by decide)
  clear_value y1
  split
  · refine Within.trans ?_ ((State.onTime_within ..).mono (by decide))
    assumption
  · assumption

theorem State.viewNow_within (s : State) (l : ℕ) :
    Within [.regs, .time] s (State.viewNow s l) := by
  unfold State.viewNow
  refine Within.foldl _ _ (fun x a => ?_) ?_
  · exact (State.under_within ..).mono (by decide)
  · exact Within.refl _ _

theorem State.takeNext_within (s : State) (l : ℕ) (t : ℕ) :
    Within [.regs, .time, .ingest] s (State.takeNext s l t) := by
  unfold State.takeNext
  extract_lets y1 y2 y3 y4 y5 y6
  clear_value y1 y2 y3
  refine Within.via y5 ?_ fun _ => ?_
  · exact (State.onLayer_within ..).mono (by decide)
  clear_value y4 y5
  refine Within.via y6 ?_ fun _ => ?_
  · refine Within.trans ?_ ((State.viewNow_within ..).mono (by decide))
    assumption
  clear_value y6
  split
  · exact Within.refl _ _
  · extract_lets y7
    clear_value y7
    refine Within.trans ?_ ((State.onLayer_within ..).mono (by decide))
    assumption

theorem State.dropNext_within (s : State) (t : ℕ) :
    Within [.ingest] s (State.dropNext s t) := by
  unfold State.dropNext
  refine Within.each _ _ (fun x a => ?_) ?_
  · exact (State.onLayer_within ..).mono (by decide)
  · exact Within.refl _ _

theorem State.inFrame_within {ps : List Part} {s t : State} {l x : Nat} {f : State → State}
    (hs : Part.subset [.ingest] ps = true) (hf : ∀ x, Within ps x (f x)) (h : Within ps s t) : Within ps s (t.inFrame l x f) := by
  unfold State.inFrame
  extract_lets y
  split
  · exact h.trans (hf _)
  · exact ((h.trans ((State.onLayer_within ..).mono hs)).trans (hf _)).trans ((State.onLayer_within ..).mono hs)

theorem State.viewBefore_within (s : State) (l : ℕ) (t : ℕ) :
    Within [.regs, .time] s (State.viewBefore s l t) := by
  unfold State.viewBefore
  refine Within.foldl _ _ (fun x a => ?_) ?_
  · exact (State.under_within ..).mono (by decide)
  · exact Within.refl _ _

theorem State.onIntake_within (s : State) (src : Src) (f : ℕ → State → Intake → Intake) :
    Within [.ingest] s (State.onIntake s src f) := by
  unfold State.onIntake
  refine Within.each _ _ (fun x a => ?_) ?_
  · extract_lets y1
    clear_value y1
    exact (State.onLayer_within ..).mono (by decide)
  · exact Within.refl _ _

theorem State.onDp_within (s : State) (r : Nat) (f : DpRx → DpRx) :
    Within [.ingest] s (State.onDp s r f) := by
  unfold State.onDp
  exact (State.onIngest_within ..).mono (by decide)

theorem State.onFlow_within (s : State) (k : Nat) (f : Flow → Flow) :
    Within [.ingest] s (State.onFlow s k f) := by
  unfold State.onFlow
  exact (State.onIngest_within ..).mono (by decide)

theorem State.hpdIrq_within (s : State) (r : Nat) :
    Within [.out] s (State.hpdIrq s r) := by
  unfold State.hpdIrq
  refine Within.ite ?_ ?_
  · exact (State.emit_within ..).mono (by decide)
  · exact Within.refl _ _

theorem execDprxHpdIrq_within (rx : Fin 4) (s : State) :
    Within [.out] s (outcomeState (execDprxHpdIrq rx s) s) := by
  unfold execDprxHpdIrq
  dsimp -zeta only [outcomeState]
  refine Within.ite ?_ ?_
  · exact (State.hpdIrq_within ..).mono (by decide)
  · exact Within.refl _ _

theorem execDpLinkTrained_within (rx : Fin 4) (rate : Nat) (lanes : Nat) (s : State) :
    Within [.regs] s (outcomeState (execDpLinkTrained rx rate lanes s) s) := by
  unfold execDpLinkTrained
  extract_lets y1 y2
  clear_value y1
  refine Within.via y2 ?_ fun _ => ?_
  · refine Within.trans ?_ ((State.put_within ..).mono (by decide))
    exact (State.flag_within ..).mono (by decide)
  clear_value y2
  dsimp -zeta only [outcomeState]
  refine Within.ite ?_ ?_
  · refine Within.trans ?_ ((State.flag_within ..).mono (by decide))
    refine Within.trans ?_ ((State.put_within ..).mono (by decide))
    assumption
  · exact Within.refl _ _

theorem State.breakFrame_within (s : State) (src : Src) :
    Within [.ingest] s (State.breakFrame s src) := by
  unfold State.breakFrame
  exact (State.onIntake_within ..).mono (by decide)

theorem State.dpLost_within (s : State) (r : Fin 4) :
    Within [.regs, .ingest] s (State.dpLost s r) := by
  unfold State.dpLost
  extract_lets y1
  refine Within.via y1 ?_ fun _ => ?_
  · refine Within.trans ?_ ((State.inc_within ..).mono (by decide))
    refine Within.trans ?_ ((State.flag_within ..).mono (by decide))
    exact (State.flag_within ..).mono (by decide)
  clear_value y1
  refine Within.trans ?_ ((State.breakFrame_within ..).mono (by decide))
  refine Within.trans ?_ ((State.onDp_within ..).mono (by decide))
  assumption

theorem execDpLinkLoss_within (rx : Fin 4) (s : State) :
    Within [.regs, .ingest] s (outcomeState (execDpLinkLoss rx s) s) := by
  unfold execDpLinkLoss
  dsimp -zeta only [outcomeState]
  refine Within.ite ?_ ?_
  · exact (State.dpLost_within ..).mono (by decide)
  · exact Within.refl _ _

theorem execDprxAuxRequest_within (rx : Fin 4) (req : Aux) (s : State) :
    Within [.fresh, .out] s (outcomeState (execDprxAuxRequest rx req s) s) := by
  unfold execDprxAuxRequest
  dsimp -zeta only [outcomeState]
  refine Within.ite ?_ ?_
  · exact Within.refl _ _
  · split
    · refine Within.ite ?_ ?_
      · exact (State.emit_within ..).mono (by decide)
      · exact Within.refl _ _
    · refine Within.trans ?_ ((State.tickFresh_within ..).mono (by decide))
      exact (State.emit_within ..).mono (by decide)

theorem State.discardFrames_within (s : State) (src : Src) :
    Within [.regs, .ring] s (State.discardFrames s src) := by
  unfold State.discardFrames
  extract_lets y1
  refine Within.each _ _ (fun x a => ?_) ?_
  · refine Within.trans ?_ ((State.noteInputError_within ..).mono (by decide))
    exact (State.inc_within ..).mono (by decide)
  · exact Within.refl _ _

theorem State.judgeFlow_within (s : State) (k : ℕ) :
    Within [.regs, .ingest] s (State.judgeFlow s k) := by
  unfold State.judgeFlow
  extract_lets y1
  clear_value y1
  split
  · exact (State.onFlow_within ..).mono (by decide)
  · extract_lets y2 y3 y4 y5 y6 y7 y8 y9
    clear_value y2 y3 y4 y5 y6 y7 y8 y9
    refine Within.trans ?_ ((State.onFlow_within ..).mono (by decide))
    exact (State.add_within ..).mono (by decide)

theorem State.flowStart_within (s : State) (k : ℕ) (id : ℕ) :
    Within [.regs, .ingest] s (State.flowStart s k id) := by
  unfold State.flowStart
  extract_lets y1 y2 y3
  refine Within.via y1 ?_ fun _ => ?_
  · refine Within.ite ?_ ?_
    · refine Within.trans ?_ ((State.inc_within ..).mono (by decide))
      exact (State.judgeFlow_within ..).mono (by decide)
    · exact Within.refl _ _
  clear_value y1
  clear_value y2 y3
  refine Within.trans ?_ ((State.onFlow_within ..).mono (by decide))
  assumption

theorem State.frameStart_within (s : State) (src : Src) (id : ℕ) :
    Within [.regs, .ring, .ingest] s (State.frameStart s src id) := by
  unfold State.frameStart
  extract_lets y1 y2
  refine Within.via y2 ?_ fun _ => ?_
  · dsimp -zeta only [y2]
    split
    · extract_lets y3
      refine Within.via y3 ?_ fun _ => ?_
      · dsimp -zeta only [y3]
        split
        · exact (State.put_within ..).mono (by decide)
        · exact Within.refl _ _
      clear_value y3
      refine Within.trans ?_ ((State.onDp_within ..).mono (by decide))
      assumption
    · exact (State.flowStart_within ..).mono (by decide)
    · exact Within.refl _ _
  clear_value y1 y2
  refine Within.trans ?_ ((State.onIntake_within ..).mono (by decide))
  refine Within.trans ?_ ((State.discardFrames_within ..).mono (by decide))
  assumption

theorem execSourceFrameStart_within (src : Src) (id : ℕ) (s : State) :
    Within [.regs, .ring, .ingest] s (outcomeState (execSourceFrameStart src id s) s) := by
  unfold execSourceFrameStart
  dsimp -zeta only [outcomeState]
  refine Within.ite ?_ ?_
  · exact (State.frameStart_within ..).mono (by decide)
  · exact Within.refl _ _

theorem State.judgeMatch_within (s : State) :
    Within [.regs] s (State.judgeMatch s) := by
  unfold State.judgeMatch
  extract_lets y1 y2 y3 y4
  refine Within.via y3 ?_ fun _ => ?_
  · refine Within.each _ _ (fun x a => ?_) ?_
    · exact (State.flag_within ..).mono (by decide)
    · exact Within.refl _ _
  clear_value y1 y2 y3
  refine Within.via y4 ?_ fun _ => ?_
  · refine Within.each _ _ (fun x a => ?_) ?_
    · exact (State.flag_within ..).mono (by decide)
    · assumption
  clear_value y4
  refine Within.each _ _ (fun x a => ?_) ?_
  · exact (State.flag_within ..).mono (by decide)
  · assumption

theorem State.judgeMsa_within (s : State) (r : ℕ) (f : SrcFrame) :
    Within [.regs, .ingest] s (State.judgeMsa s r f).1 := by
  unfold State.judgeMsa
  extract_lets y1 y2 y3 y4 y5 y6 y7 y8 y9 y10 y11 y12
  refine Within.via y8 ?_ fun _ => ?_
  · exact (State.onDp_within ..).mono (by decide)
  clear_value y1 y2 y3 y4 y5 y6 y7 y8
  refine Within.via y9 ?_ fun _ => ?_
  · refine Within.trans ?_ ((State.put_within ..).mono (by decide))
    refine Within.trans ?_ ((State.put_within ..).mono (by decide))
    assumption
  clear_value y9
  refine Within.via y10 ?_ fun _ => ?_
  · refine Within.trans ?_ ((State.flag_within ..).mono (by decide))
    refine Within.trans ?_ ((State.put_within ..).mono (by decide))
    assumption
  clear_value y10
  refine Within.via y11 ?_ fun _ => ?_
  · refine Within.trans ?_ ((State.flag_within ..).mono (by decide))
    assumption
  clear_value y11
  refine Within.via y12 ?_ fun _ => ?_
  · refine Within.trans ?_ ((State.flag_within ..).mono (by decide))
    assumption
  clear_value y12
  dsimp -zeta only
  assumption

theorem State.sourceDone_within (s : State) (src : Src) (f : SrcFrame) (fmt : ℕ) (id : ℕ) (lines : List (ℕ × ℕ × Bytes)) (broken : Bool) :
    Within [.regs, .ingest] s (State.sourceDone s src f fmt id lines broken) := by
  unfold State.sourceDone
  refine Within.trans ?_ ((State.judgeMatch_within ..).mono (by decide))
  exact (State.onIntake_within ..).mono (by decide)

theorem execSourceFrameComplete_within (src : Src) (f : SrcFrame) (s : State) :
    Within [.regs, .ingest] s (outcomeState (execSourceFrameComplete src f s) s) := by
  unfold execSourceFrameComplete
  dsimp -zeta only [outcomeState]
  refine Within.ite ?_ ?_
  · exact Within.refl _ _
  · split
    · extract_lets y1
      refine Within.via y1.1 ?_ fun _ => ?_
      · exact (State.judgeMsa_within ..).mono (by decide)
      clear_value y1
      refine Within.trans ?_ ((State.sourceDone_within ..).mono (by decide))
      assumption
    · extract_lets y2 y3 y4 y5 y6 y7 y8
      refine Within.via y2 ?_ fun _ => ?_
      · exact (State.judgeFlow_within ..).mono (by decide)
      clear_value y2
      refine Within.via y8 ?_ fun _ => ?_
      · refine Within.trans ?_ ((State.onFlow_within ..).mono (by decide))
        refine Within.ite ?_ ?_
        · refine Within.trans ?_ ((State.inc_within ..).mono (by decide))
          assumption
        · assumption
      clear_value y3 y4 y5 y6 y7 y8
      refine Within.trans ?_ ((State.sourceDone_within ..).mono (by decide))
      assumption
    · exact (State.sourceDone_within ..).mono (by decide)

theorem State.flowPacket_within (s : State) (k : ℕ) (p : Packet) :
    Within [.regs, .ingest] s (State.flowPacket s k p) := by
  unfold State.flowPacket
  extract_lets y1 y2
  refine Within.via y1 ?_ fun _ => ?_
  · refine Within.trans ?_ ((State.onFlow_within ..).mono (by decide))
    exact (State.flag_within ..).mono (by decide)
  clear_value y1
  clear_value y2
  refine Within.ite ?_ ?_
  · refine Within.trans ?_ ((State.onFlow_within ..).mono (by decide))
    refine Within.trans ?_ ((State.inc_within ..).mono (by decide))
    assumption
  · refine Within.trans ?_ ((State.onFlow_within ..).mono (by decide))
    assumption

theorem execSt2110PacketRx_within (p : Packet) (s : State) :
    Within [.regs, .ingest] s (outcomeState (execSt2110PacketRx p s) s) := by
  unfold execSt2110PacketRx
  dsimp -zeta only [outcomeState]
  refine Within.ite ?_ ?_
  · exact Within.refl _ _
  · split
    · exact (State.onIngest_within ..).mono (by decide)
    · refine Within.each _ _ (fun x a => ?_) ?_
      · exact (State.flowPacket_within ..).mono (by decide)
      · exact Within.refl _ _

theorem State.igmp_within (s : State) (k : Nat) (kind : Nat) :
    Within [.out] s (State.igmp s k kind) := by
  unfold State.igmp
  exact (State.emit_within ..).mono (by decide)

theorem State.flowJoin_within (s : State) (k : Nat) :
    Within [.regs, .out, .ingest] s (State.flowJoin s k) := by
  unfold State.flowJoin
  refine Within.trans ?_ ((State.onFlow_within ..).mono (by decide))
  refine Within.trans ?_ ((State.flag_within ..).mono (by decide))
  exact (State.igmp_within ..).mono (by decide)

theorem State.flowLeave_within (s : State) (k : Nat) :
    Within [.regs, .out, .ingest] s (State.flowLeave s k) := by
  unfold State.flowLeave
  refine Within.trans ?_ ((State.onFlow_within ..).mono (by decide))
  refine Within.trans ?_ ((State.flag_within ..).mono (by decide))
  refine Within.trans ?_ ((State.flag_within ..).mono (by decide))
  exact (State.igmp_within ..).mono (by decide)

theorem execIgmpReportTimer_within (flow : Fin 16) (s : State) :
    Within [.out, .ingest] s (outcomeState (execIgmpReportTimer flow s) s) := by
  unfold execIgmpReportTimer
  extract_lets y1
  clear_value y1
  dsimp -zeta only [outcomeState]
  refine Within.ite ?_ ?_
  · refine Within.trans ?_ ((State.onFlow_within ..).mono (by decide))
    exact (State.igmp_within ..).mono (by decide)
  · exact Within.refl _ _

theorem execIgmpQueryRx_within (port : Fin 4) (group : Option Nat) (s : State) :
    Within [.regs, .out] s (outcomeState (execIgmpQueryRx port group s) s) := by
  unfold execIgmpQueryRx
  dsimp -zeta only [outcomeState]
  refine Within.ite ?_ ?_
  · refine Within.each _ _ (fun x a => ?_) ?_
    · refine Within.trans ?_ ((State.flag_within ..).mono (by decide))
      exact (State.igmp_within ..).mono (by decide)
    · exact Within.refl _ _
  · exact Within.refl _ _

theorem execStflowReceivingLapse_within (flow : Fin 16) (s : State) :
    Within [.regs] s (outcomeState (execStflowReceivingLapse flow s) s) := by
  unfold execStflowReceivingLapse
  extract_lets y1
  clear_value y1
  dsimp -zeta only [outcomeState]
  split
  · refine Within.ite ?_ ?_
    · exact (State.flag_within ..).mono (by decide)
    · exact Within.refl _ _
  · exact Within.refl _ _

theorem execCtLineWritten_within (src : Src) (line : Nat) (planes : List Bytes) (s : State) :
    Within [.ingest] s (outcomeState (execCtLineWritten src line planes s) s) := by
  unfold execCtLineWritten
  dsimp -zeta only [outcomeState]
  refine Within.ite ?_ ?_
  · exact Within.refl _ _
  · refine Within.each _ _ (fun x a => ?_) ?_
    · extract_lets y1 y2 y3
      clear_value y1 y2 y3
      exact (State.onLayer_within ..).mono (by decide)
    · exact Within.refl _ _

theorem State.fillCt_within (s : State) (l : ℕ) (d : Sending) :
    Within [.regs, .ring, .ingest] s (State.fillCt s l d) := by
  unfold State.fillCt
  extract_lets y1 y2 y3 y4 y5
  refine Within.via y4 ?_ fun _ => ?_
  · refine Within.trans ?_ ((State.onLayer_within ..).mono (by decide))
    refine Within.trans ?_ ((State.noteInputError_within ..).mono (by decide))
    exact (State.inc_within ..).mono (by decide)
  clear_value y1 y2 y3 y4
  refine Within.via y5 ?_ fun _ => ?_
  · refine Within.trans ?_ ((State.flag_within ..).mono (by decide))
    assumption
  clear_value y5
  refine Within.ite ?_ ?_
  · refine Within.ite ?_ ?_
    · refine Within.trans ?_ ((State.onLayer_within ..).mono (by decide))
      assumption
    · assumption
  · assumption

theorem State.fullCt_within (s : State) (l : ℕ) (d : Sending) :
    Within [.regs, .ingest] s (State.fullCt s l d) := by
  unfold State.fullCt
  extract_lets y1 y2
  refine Within.via y2 ?_ fun _ => ?_
  · exact (State.onLayer_within ..).mono (by decide)
  clear_value y1 y2
  refine Within.ite ?_ ?_
  · refine Within.trans ?_ ((State.flag_within ..).mono (by decide))
    assumption
  · assumption

theorem State.closeCt_within (s : State) (l : ℕ) :
    Within [.regs, .ring, .ingest] s (State.closeCt s l) := by
  unfold State.closeCt
  refine Within.each _ _ (fun x a => ?_) ?_
  · extract_lets y1
    refine Within.via y1 ?_ fun _ => ?_
    · exact (State.onLayer_within ..).mono (by decide)
    clear_value y1
    refine Within.ite ?_ ?_
    · refine Within.trans ?_ ((State.fillCt_within ..).mono (by decide))
      assumption
    · refine Within.trans ?_ ((State.fullCt_within ..).mono (by decide))
      assumption
  · exact Within.refl _ _

theorem State.settleCommits_within (s : State) (l : ℕ) (t : ℕ) :
    Within [.regs, .fresh, .out, .host, .ring, .ingest, .mst, .bist] s (State.settleCommits s l t) := by
  unfold State.settleCommits
  extract_lets y1
  clear_value y1
  refine Within.each _ _ (fun x a => ?_) ?_
  · exact (State.finishPart_within ..).mono (by decide)
  · exact (State.onIngest_within ..).mono (by decide)

theorem State.decideSource_within (s : State) (v : State) (l : ℕ) (t : ℕ) :
    Within [.regs, .ingest] s (State.decideSource s v l t).1 := by
  unfold State.decideSource
  extract_lets y1 y2 y3
  clear_value y1 y2 y3
  split
  · dsimp -zeta only
    refine Within.ite ?_ ?_
    · exact (State.inc_within ..).mono (by decide)
    · exact Within.refl _ _
  · extract_lets y4
    refine Within.via y4 ?_ fun _ => ?_
    · refine Within.trans ?_ ((State.onLayer_within ..).mono (by decide))
      exact (State.add_within ..).mono (by decide)
    clear_value y4
    refine Within.ite_fst ?_ ?_
    · dsimp -zeta only
      assumption
    · dsimp -zeta only
      assumption

theorem State.decideStill_within (s : State) (v : State) (l : ℕ) :
    Within [] s (State.decideStill s v l).1 := by
  unfold State.decideStill
  extract_lets y1
  clear_value y1
  refine Within.ite_fst ?_ ?_
  · dsimp -zeta only
    exact Within.refl _ _
  · dsimp -zeta only
    exact Within.refl _ _

theorem State.clipFailed_within (s : State) (l : ℕ) (n : ℕ) :
    Within [.regs, .out, .host, .ring, .ingest, .mst, .bist] s (State.clipFailed s l n) := by
  unfold State.clipFailed
  refine Within.trans ?_ ((State.onLayer_within ..).mono (by decide))
  refine Within.trans ?_ ((State.clipReport_within ..).mono (by decide))
  refine Within.trans ?_ ((State.noteInputError_within ..).mono (by decide))
  refine Within.trans ?_ ((State.inc_within ..).mono (by decide))
  exact (State.put_within ..).mono (by decide)

theorem State.decideClip_within (s : State) (v : State) (l : ℕ) (n : ℕ) :
    Within [.regs, .out, .host, .ring, .ingest, .mst, .bist] s (State.decideClip s v l n).1 := by
  unfold State.decideClip
  extract_lets y1
  clear_value y1
  refine Within.ite_fst ?_ ?_
  · dsimp -zeta only
    exact Within.refl _ _
  · split
    · dsimp -zeta only
      exact (State.clipFailed_within ..).mono (by decide)
    · extract_lets y2
      clear_value y2
      refine Within.ite_fst ?_ ?_
      · dsimp -zeta only
        exact Within.refl _ _
      · dsimp -zeta only
        exact (State.onLayer_within ..).mono (by decide)

theorem State.decideLayer_within (s : State) (v : State) (l : ℕ) (n : ℕ) (t : ℕ) :
    Within [.regs, .out, .host, .ring, .ingest, .mst, .bist] s (State.decideLayer s v l n t).1 := by
  unfold State.decideLayer
  split
  · dsimp -zeta only
    exact Within.refl _ _
  · exact (State.decideClip_within ..).mono (by decide)
  · exact (State.decideStill_within ..).mono (by decide)
  · refine Within.ite_fst ?_ ?_
    · dsimp -zeta only
      exact Within.refl _ _
    · exact (State.decideSource_within ..).mono (by decide)

theorem State.queueFrame_within (s : State) (v : State) (l : ℕ) (n : ℕ) (action : ℕ) (first : ℕ) (lines : List PLine) :
    Within [.ring, .ingest] s (State.queueFrame s v l n action first lines) := by
  unfold State.queueFrame
  extract_lets y1 y2 y3 y4
  refine Within.via y4 ?_ fun _ => ?_
  · exact (State.onLayer_within ..).mono (by decide)
  clear_value y1 y2 y3 y4
  refine Within.trans ?_ ((State.onRing_within ..).mono (by decide))
  assumption

theorem State.assignFrame_within (s : State) (v : State) (l : ℕ) (n : ℕ) (t : ℕ) :
    Within [.regs, .out, .host, .ring, .ingest, .mst, .bist] s (State.assignFrame s v l n t) := by
  unfold State.assignFrame
  extract_lets y1 y2 y3 y4 y5 y6 y7 y8
  refine Within.via y1.1 ?_ fun _ => ?_
  · exact (State.decideLayer_within ..).mono (by decide)
  clear_value y1
  refine Within.via y2 ?_ fun _ => ?_
  · assumption
  clear_value y2
  refine Within.via y6 ?_ fun _ => ?_
  · refine Within.ite ?_ ?_
    · assumption
    · refine Within.trans ?_ ((State.queueFrame_within ..).mono (by decide))
      assumption
  clear_value y3 y4 y5 y6
  refine Within.via y7 ?_ fun _ => ?_
  · refine Within.trans ?_ ((State.onLayer_within ..).mono (by decide))
    assumption
  clear_value y7
  refine Within.via y8 ?_ fun _ => ?_
  · refine Within.trans ?_ ((State.flag_within ..).mono (by decide))
    assumption
  clear_value y8
  refine Within.ite ?_ ?_
  · refine Within.trans ?_ ((State.headSend_within ..).mono (by decide))
    assumption
  · assumption

theorem State.assignSince_within (s : State) (v : State) (l : ℕ) (n : ℕ) :
    Within [.regs, .out, .host, .ring, .ingest, .mst, .bist] s (State.assignSince s v l n) := by
  unfold State.assignSince
  refine Within.ite ?_ ?_
  · exact (State.assignFrame_within ..).mono (by decide)
  · exact Within.refl _ _

theorem State.assignLate_within (s : State) (l : ℕ) :
    Within [.regs, .out, .host, .ring, .ingest, .mst, .bist] s (State.assignLate s l) := by
  unfold State.assignLate
  split
  · refine Within.ite ?_ ?_
    · exact Within.refl _ _
    · extract_lets y1
      refine Within.via y1 ?_ fun _ => ?_
      · exact (State.onLayer_within ..).mono (by decide)
      clear_value y1
      refine Within.trans ?_ ((State.assignSince_within ..).mono (by decide))
      assumption
  · exact Within.refl _ _

theorem State.lateAssign_within (s : State) (l : ℕ) :
    Within [.regs, .out, .host, .ring, .ingest, .mst, .bist] s (State.lateAssign s l) := by
  unfold State.lateAssign
  refine Within.trans ?_ ((State.assignLate_within ..).mono (by decide))
  refine Within.each _ _ (fun x a => ?_) ?_
  · refine State.inFrame_within (by decide) ?_ ?_
    · intro _
      exact (State.assignLate_within ..).mono (by decide)
    · exact Within.refl _ _
  · exact Within.refl _ _

theorem State.standbyLatch_within (s : State) (l : ℕ) (n : ℕ) :
    Within [.regs, .ingest] s (State.standbyLatch s l n) := by
  unfold State.standbyLatch
  extract_lets y1 y2
  refine Within.via y2 ?_ fun _ => ?_
  · refine Within.ite ?_ ?_
    · refine Within.trans ?_ ((State.flag_within ..).mono (by decide))
      exact (State.inc_within ..).mono (by decide)
    · exact Within.refl _ _
  clear_value y1 y2
  refine Within.trans ?_ ((State.onLayer_within ..).mono (by decide))
  assumption

theorem State.decideFrame_within (s : State) (v : State) (l : ℕ) (n : ℕ) :
    Within [.regs, .fresh, .out, .host, .ring, .ingest, .mst, .bist] s (State.decideFrame s v l n) := by
  unfold State.decideFrame
  extract_lets y1 y2 y3
  refine Within.via y2 ?_ fun _ => ?_
  · exact (State.onLayer_within ..).mono (by decide)
  clear_value y1 y2
  refine Within.via y3 ?_ fun _ => ?_
  · refine Within.ite ?_ ?_
    · refine Within.trans ?_ ((State.flag_within ..).mono (by decide))
      assumption
    · refine Within.ite ?_ ?_
      · refine Within.trans ?_ ((State.assignFrame_within ..).mono (by decide))
        assumption
      · refine Within.ite ?_ ?_
        · refine Within.trans ?_ ((State.standbyLatch_within ..).mono (by decide))
          assumption
        · assumption
  clear_value y3
  refine Within.trans ?_ ((State.settleCommits_within ..).mono (by decide))
  assumption

theorem State.latchLayer_within (s : State) (v : State) (l : ℕ) (n : ℕ) :
    Within [.regs, .fresh, .out, .time, .host, .ring, .ingest, .mst, .bist] s (State.latchLayer s v l n) := by
  unfold State.latchLayer
  refine State.inFrame_within (by decide) ?_ ?_
  · intro _
    exact (State.decideFrame_within ..).mono (by decide)
  · refine Within.trans ?_ ((State.takeNext_within ..).mono (by decide))
    refine Within.trans ?_ ((State.closeCt_within ..).mono (by decide))
    exact (State.lateAssign_within ..).mono (by decide)

theorem execLayerLatch_within (layer : Fin 16) (s : State) :
    Within [.regs, .fresh, .out, .time, .host, .ring, .ingest, .mst, .bist] s (outcomeState (execLayerLatch layer s) s) := by
  unfold execLayerLatch
  dsimp -zeta only [outcomeState]
  refine Within.ite ?_ ?_
  · exact Within.refl _ _
  · split
    · exact (State.latchLayer_within ..).mono (by decide)
    · exact Within.refl _ _

theorem State.readOut_within (s : State) (l : ℕ) (bad : List ℕ) :
    Within [.fresh] s (State.readOut s l bad).1 := by
  unfold State.readOut
  split
  · refine Within.ite_fst ?_ ?_
    · dsimp -zeta only
      exact Within.refl _ _
    · dsimp -zeta only
      exact (State.tickFresh_within ..).mono (by decide)
  · dsimp -zeta only
    exact Within.refl _ _

theorem State.readOutBad_within (s : State) (n : ℕ) (bad : List ℕ) :
    Within [.regs, .out, .host, .ring, .mst, .bist] s (State.readOutBad s n bad) := by
  unfold State.readOutBad
  refine Within.when _ _ (fun x => ?_) ?_
  · refine Within.trans ?_ ((State.noteInputError_within ..).mono (by decide))
    refine Within.each _ _ (fun x a => ?_) ?_
    · exact (State.memError_within ..).mono (by decide)
    · exact Within.refl _ _
  · exact Within.refl _ _

theorem execLayerCellSend_within (layer : Fin 16) (s : State) :
    Within [.regs, .fresh, .out, .host, .ring, .ingest, .mst, .bist] s (outcomeState (execLayerCellSend layer s) s) := by
  unfold execLayerCellSend
  extract_lets y1 y2
  refine Within.via y2 ?_ fun _ => ?_
  · refine Within.trans ?_ ((State.closeCt_within ..).mono (by decide))
    exact (State.lateAssign_within ..).mono (by decide)
  clear_value y1 y2
  dsimp -zeta only [outcomeState]
  refine Within.ite ?_ ?_
  · exact Within.refl _ _
  · split
    · assumption
    · extract_lets y3 y4 y5
      refine Within.via y3.1 ?_ fun _ => ?_
      · refine Within.trans ?_ ((State.readOut_within ..).mono (by decide))
        assumption
      clear_value y3
      refine Within.via y4 ?_ fun _ => ?_
      · refine Within.trans ?_ ((State.readOutBad_within ..).mono (by decide))
        assumption
      clear_value y4
      clear_value y5
      refine Within.trans ?_ ((State.onLayer_within ..).mono (by decide))
      refine Within.trans ?_ ((State.sendRings_within ..).mono (by decide))
      refine Within.trans ?_ ((State.digestCell_within ..).mono (by decide))
      assumption

theorem State.addCommit_within (s : State) (l : ℕ) (f : Deciding → Deciding) :
    Within [.ingest] s (State.addCommit s l f) := by
  unfold State.addCommit
  exact (State.onLayer_within ..).mono (by decide)

theorem State.storeAddr_within (s : State) (l : ℕ) (v : ℕ) :
    Within [.regs] s (State.storeAddr s l v) := by
  unfold State.storeAddr
  exact (State.put_within ..).mono (by decide)

theorem State.commitAddr_within (s : State) (l : ℕ) (v : ℕ) (t : ℕ) :
    Within [.regs, .ingest] s (State.commitAddr s l v t) := by
  unfold State.commitAddr
  extract_lets y1 y2
  refine Within.via y1 ?_ fun _ => ?_
  · exact (State.storeAddr_within ..).mono (by decide)
  clear_value y1
  clear_value y2
  refine Within.trans ?_ ((State.addCommit_within ..).mono (by decide))
  assumption

theorem execLayerAddrCommit_within (layer : Fin 16) (value : Nat) (s : State) :
    Within [.regs, .ingest] s (outcomeState (execLayerAddrCommit layer value s) s) := by
  unfold execLayerAddrCommit
  extract_lets y1 y2
  clear_value y1 y2
  dsimp -zeta only [outcomeState]
  refine Within.ite ?_ ?_
  · exact (State.commitAddr_within ..).mono (by decide)
  · exact Within.refl _ _

theorem State.clipMet_within (s : State) (l : ℕ) (v : ℕ) :
    Within [.regs, .out, .host, .ring, .ingest, .mst, .bist] s (State.clipMet s l v) := by
  unfold State.clipMet
  refine Within.ite ?_ ?_
  · exact (State.clipReport_within ..).mono (by decide)
  · exact Within.refl _ _

theorem State.storeClip_within (s : State) (l : ℕ) (v : ℕ) :
    Within [.regs] s (State.storeClip s l v) := by
  unfold State.storeClip
  refine Within.trans ?_ ((State.put_within ..).mono (by decide))
  exact (State.put_within ..).mono (by decide)

theorem State.commitClip_within (s : State) (l : ℕ) (v : ℕ) (t : ℕ) :
    Within [.regs, .ingest] s (State.commitClip s l v t) := by
  unfold State.commitClip
  refine Within.trans ?_ ((State.addCommit_within ..).mono (by decide))
  exact (State.storeClip_within ..).mono (by decide)

theorem execLayerClipWrite_within (layer : Fin 16) (value : ℕ) (s : State) :
    Within [.regs, .out, .host, .ring, .ingest, .mst, .bist] s (outcomeState (execLayerClipWrite layer value s) s) := by
  unfold execLayerClipWrite
  dsimp -zeta only [outcomeState]
  refine Within.ite ?_ ?_
  · exact Within.refl _ _
  · refine Within.ite ?_ ?_
    · exact (State.commitClip_within ..).mono (by decide)
    · exact (State.clipMet_within ..).mono (by decide)

theorem State.noMatch_within (s : State) (n : ℕ) :
    Within [.regs, .ring] s (State.noMatch s n) := by
  unfold State.noMatch
  refine Within.trans ?_ ((State.noteInputError_within ..).mono (by decide))
  exact (State.inc_within ..).mono (by decide)

theorem State.followFrame_within (s : State) (b : Bytes) (l : ℕ) (q : FrameOf) :
    Within [.regs, .out, .host, .ring, .ingest, .mst, .bist] s (State.followFrame s b l q) := by
  unfold State.followFrame
  extract_lets y1 y2 y3 y4 y5 y6 y7 y8 y9
  refine Within.via y6 ?_ fun _ => ?_
  · exact (State.onLayer_within ..).mono (by decide)
  clear_value y1 y2 y3 y4 y5 y6
  refine Within.via y7 ?_ fun _ => ?_
  · refine Within.ite ?_ ?_
    · assumption
    · refine Within.trans ?_ ((State.onRing_within ..).mono (by decide))
      assumption
  clear_value y7
  refine Within.ite ?_ ?_
  · dsimp -zeta only [y9]
    refine Within.trans ?_ ((State.flag_within ..).mono (by decide))
    refine Within.ite ?_ ?_
    · refine Within.trans ?_ ((State.inc_within ..).mono (by decide))
      assumption
    · assumption
  · refine Within.ite ?_ ?_
    · dsimp -zeta only [y9]
      refine Within.trans ?_ ((State.flag_within ..).mono (by decide))
      refine Within.trans ?_ ((State.noMatch_within ..).mono (by decide))
      assumption
    · split
      · split
        · dsimp -zeta only [y8]
          refine Within.trans ?_ ((State.flag_within ..).mono (by decide))
          refine Within.trans ?_ ((State.onLayer_within ..).mono (by decide))
          refine Within.trans ?_ ((State.queueFrame_within ..).mono (by decide))
          assumption
        · dsimp -zeta only [y9]
          refine Within.trans ?_ ((State.flag_within ..).mono (by decide))
          refine Within.when _ _ (fun x => ?_) ?_
          · exact (State.clipReport_within ..).mono (by decide)
          · refine Within.trans ?_ ((State.noMatch_within ..).mono (by decide))
            assumption
      · dsimp -zeta only [y8]
        refine Within.trans ?_ ((State.flag_within ..).mono (by decide))
        refine Within.trans ?_ ((State.queueFrame_within ..).mono (by decide))
        assumption
      · dsimp -zeta only [y9]
        refine Within.trans ?_ ((State.flag_within ..).mono (by decide))
        assumption

theorem State.followRecord_within (s : State) (b : Bytes) :
    Within [.regs, .out, .time, .host, .ring, .ingest, .mst, .bist] s (State.followRecord s b) := by
  unfold State.followRecord
  extract_lets y1 y2 y3
  clear_value y1 y3
  refine State.inFrame_within (by decide) ?_ ?_
  · intro _
    exact (State.followFrame_within ..).mono (by decide)
  · refine Within.trans ?_ ((State.takeNext_within ..).mono (by decide))
    exact (State.closeCt_within ..).mono (by decide)

theorem State.rxFaRecord_within (s : State) (b : Bytes) :
    Within [.regs, .out, .time, .host, .ring, .ingest, .mst, .bist] s (State.rxFaRecord s b) := by
  unfold State.rxFaRecord
  refine Within.ite ?_ ?_
  · exact Within.refl _ _
  · refine Within.ite ?_ ?_
    · exact (State.inc_within ..).mono (by decide)
    · refine Within.ite ?_ ?_
      · exact (State.followRecord_within ..).mono (by decide)
      · exact Within.refl _ _

theorem execFaRecordRx_within (record : Bytes) (s : State) :
    Within [.regs, .out, .time, .host, .ring, .ingest, .mst, .bist] s (outcomeState (execFaRecordRx record s) s) := by
  unfold execFaRecordRx
  dsimp -zeta only [outcomeState]
  exact (State.rxFaRecord_within ..).mono (by decide)

end Sys2Proof.Machine
end

