-- ==== Sys2Proof/Laws/WithinCompose.lean ====
section
/-! SUPPORT. What each operation and each meaning of Machine/Compose.lean can do to the state: the parts it may change, and that it
keeps the canonical form and the shape. -/
set_option Elab.async false
namespace Sys2Proof.Machine

theorem State.asFold_within (s : State) (n : Nat) :
    Within [.comp] s (State.asFold s n) := by
  unfold State.asFold
  exact (State.onComp_within ..).mono (by decide)

theorem State.setTab_within (s : State) (id : Nat) (idx : Nat) (v : Nat) :
    Within [.comp] s (State.setTab s id idx v) := by
  unfold State.setTab
  extract_lets y1 _
  clear_value y1
  exact (State.onComp_within ..).mono (by decide)

theorem State.onTLayer_within (s : State) (l : Nat) (f : TLayer → TLayer) :
    Within [.comp] s (State.onTLayer s l f) := by
  unfold State.onTLayer
  exact (State.onComp_within ..).mono (by decide)

end Sys2Proof.Machine
end

