-- ==== Sys2Proof/Laws/WithinCorrect.lean ====
section
/-! SUPPORT. What each operation and each meaning of Machine/Correct.lean can do to the state: the parts it may change, and that it
keeps the canonical form and the shape. -/
set_option Elab.async false
namespace Sys2Proof.Machine

theorem State.setLampBad_within (s : State) (l : List ℕ) :
    Within [.regs, .comp] s (State.setLampBad s l) := by
  unfold State.setLampBad
  refine Within.trans ?_ ((State.flag_within ..).mono (by decide))
  exact (State.onComp_within ..).mono (by decide)

theorem State.lampWritten_within (s : State) (a : ℕ) (n : ℕ) :
    Within [.regs, .comp] s (State.lampWritten s a n) := by
  unfold State.lampWritten
  exact (State.setLampBad_within ..).mono (by decide)

theorem State.dimSelect_within (s : State) :
    Within [.regs, .comp] s (State.dimSelect s) := by
  unfold State.dimSelect
  extract_lets y1 y2 y3 y4 y5 y6
  clear_value y1 y2 y3 y4 y5 y6
  refine Within.trans ?_ ((State.onComp_within ..).mono (by decide))
  exact (State.flag_within ..).mono (by decide)

theorem State.geometryCheck_within (s : State) :
    Within [.regs] s (State.geometryCheck s) := by
  unfold State.geometryCheck
  extract_lets y1
  refine Within.via y1 ?_ fun _ => ?_
  · refine Within.each _ _ (fun x a => ?_) ?_
    · extract_lets y2 y3
      clear_value y2
      refine Within.via y3 ?_ fun _ => ?_
      · exact (State.flag_within ..).mono (by decide)
      clear_value y3
      refine Within.trans ?_ ((State.put_within ..).mono (by decide))
      assumption
    · exact Within.refl _ _
  clear_value y1
  refine Within.trans ?_ ((State.flag_within ..).mono (by decide))
  assumption

theorem State.corrClear_within (s : State) :
    Within [.regs] s (State.corrClear s) := by
  unfold State.corrClear
  refine Within.trans ?_ ((State.zero_within ..).mono (by decide))
  refine Within.trans ?_ ((State.zero_within ..).mono (by decide))
  refine Within.trans ?_ ((State.zero_within ..).mono (by decide))
  refine Within.trans ?_ ((State.zero_within ..).mono (by decide))
  exact (State.zero_within ..).mono (by decide)

theorem execCorrClear_within (s : State) :
    Within [.regs] s (outcomeState (execCorrClear s) s) := by
  unfold execCorrClear
  dsimp -zeta only [outcomeState]
  refine Within.ite ?_ ?_
  · exact (State.corrClear_within ..).mono (by decide)
  · exact Within.refl _ _

end Sys2Proof.Machine
end

