-- ==== Sys2Proof/Laws/WithinLampOps.lean ====
section
/-! SUPPORT. What each operation and each meaning of Machine/LampOps.lean can do to the state: the parts it may change, and that it
keeps the canonical form and the shape. -/
set_option Elab.async false
namespace Sys2Proof.Machine

theorem State.onLPort_within (s : State) (p : Nat) (f : LPort → LPort)
    (hf : ∀ x : LPort, x.shaped → (f x).shaped := by
      first
      | exact fun _ h => h
      | (intro _ h; first | (simp_all [LPort.shaped]; done) | (repeat' split) <;> first | exact h | (simp_all [LPort.shaped]; done))) :
    Within [.lamp] s (State.onLPort s p f) := by
  unfold State.onLPort
  refine State.onLamp_within _ _ fun x h => ⟨(modAt_length ..).trans h.1, h.2.1, fun y hy => ?_⟩
  rcases mem_modAt hy with k | ⟨z, hz, rfl⟩
  · exact h.2.2 _ k
  · exact hf _ (h.2.2 _ hz)

theorem State.onLGroup_within (s : State) (g : Nat) (f : LGroup → LGroup) :
    Within [.lamp] s (State.onLGroup s g f) := by
  unfold State.onLGroup
  exact State.onLamp_within _ _ fun _ h => ⟨h.1, (modAt_length ..).trans h.2.1, h.2.2⟩

theorem State.onDriver_within (s : State) (p : Nat) (h : Nat) (f : Driver → Driver) :
    Within [.lamp] s (State.onDriver s p h f) := by
  unfold State.onDriver
  exact (State.onLPort_within ..).mono (by decide)

theorem State.sendLine_within (s : State) (p : ℕ) (b : Bytes) (slots : ℕ) (last : LChar) :
    Within [.fresh, .out, .lamp] s (State.sendLine s p b slots last) := by
  unfold State.sendLine
  extract_lets y1 y2 y3
  clear_value y1 y2 y3
  refine Within.trans ?_ ((State.emit_within ..).mono (by decide))
  refine Within.trans ?_ ((State.onLPort_within ..).mono (by decide))
  exact (State.tickFresh_within ..).mono (by decide)

theorem State.queueLamp_within (s : State) (p : Nat) (f : LFrame) :
    Within [.lamp] s (State.queueLamp s p f) := by
  unfold State.queueLamp
  extract_lets y1
  clear_value y1
  refine Within.ite ?_ ?_
  · exact Within.refl _ _
  · exact (State.onLPort_within ..).mono (by decide)

theorem State.invalidateGroup_within (s : State) (g : Nat) :
    Within [.lamp] s (State.invalidateGroup s g) := by
  unfold State.invalidateGroup
  exact (State.onLGroup_within ..).mono (by decide)

theorem State.invalidateAll_within (s : State) :
    Within [.lamp] s (State.invalidateAll s) := by
  unfold State.invalidateAll
  refine Within.each _ _ (fun x a => ?_) ?_
  · exact (State.invalidateGroup_within ..).mono (by decide)
  · exact Within.refl _ _

theorem State.invalidateBlocks_within (s : State) (g : Nat) (bs : List Nat) :
    Within [.lamp] s (State.invalidateBlocks s g bs) := by
  unfold State.invalidateBlocks
  exact (State.onLGroup_within ..).mono (by decide)

theorem State.invalidateDriver_within (s : State) (p : Nat) (h : Nat) :
    Within [.lamp] s (State.invalidateDriver s p h) := by
  unfold State.invalidateDriver
  exact (State.invalidateBlocks_within ..).mono (by decide)

theorem State.failBlock_within (s : State) (b : Nat × Nat × Nat) :
    Within [.lamp] s (State.failBlock s b) := by
  unfold State.failBlock
  extract_lets _
  refine Within.trans ?_ ((State.onLamp_within ..).mono (by decide))
  exact (State.invalidateBlocks_within ..).mono (by decide)

theorem State.settleBlocks_within (s : State) (bs : List (Nat × Nat × Nat)) :
    Within [.lamp] s (State.settleBlocks s bs) := by
  unfold State.settleBlocks
  refine Within.each _ _ (fun x a => ?_) ?_
  · refine Within.ite ?_ ?_
    · exact Within.refl _ _
    · exact (State.onLGroup_within ..).mono (by decide)
  · exact Within.refl _ _

theorem State.refill_within (s : State) (p : Nat) :
    Within [.regs] s (State.refill s p) := by
  unfold State.refill
  extract_lets y1 y2 y3 y4
  clear_value y1 y2 y3 y4
  refine Within.trans ?_ ((State.flag_within ..).mono (by decide))
  exact (State.put_within ..).mono (by decide)

theorem State.dropSlotFrames_within (s : State) :
    Within [.regs, .lamp] s (State.dropSlotFrames s) := by
  unfold State.dropSlotFrames
  extract_lets y1 y2 y3
  refine Within.via y3 ?_ fun _ => ?_
  · exact (State.onLamp_within ..).mono (by decide)
  clear_value y1 y2 y3
  refine Within.each _ _ (fun x a => ?_) ?_
  · exact (State.refill_within ..).mono (by decide)
  · refine Within.each _ _ (fun x a => ?_) ?_
    · exact (State.failBlock_within ..).mono (by decide)
    · assumption

theorem State.lampStatus_within (s : State) :
    Within [.regs] s (State.lampStatus s) := by
  unfold State.lampStatus
  extract_lets y1 _ y3 y4 y5 y6
  refine Within.via y1 ?_ fun _ => ?_
  · refine Within.each _ _ (fun x a => ?_) ?_
    · refine Within.trans ?_ ((State.flag_within ..).mono (by decide))
      exact (State.flag_within ..).mono (by decide)
    · exact Within.refl _ _
  clear_value y1 y3
  refine Within.via y4 ?_ fun _ => ?_
  · refine Within.trans ?_ ((State.flag_within ..).mono (by decide))
    assumption
  clear_value y4
  refine Within.via y5 ?_ fun _ => ?_
  · refine Within.trans ?_ ((State.flag_within ..).mono (by decide))
    assumption
  clear_value y5
  refine Within.via y6 ?_ fun _ => ?_
  · refine Within.trans ?_ ((State.flag_within ..).mono (by decide))
    assumption
  clear_value y6
  refine Within.trans ?_ ((State.put_within ..).mono (by decide))
  refine Within.trans ?_ ((State.put_within ..).mono (by decide))
  assumption

theorem State.abortFrame_within (s : State) (p : ℕ) (f : LFrame) :
    Within [.fresh, .out, .lamp] s (State.abortFrame s p f) := by
  unfold State.abortFrame
  refine Within.trans ?_ ((State.sendLine_within ..).mono (by decide))
  exact (State.tickFresh_within ..).mono (by decide)

theorem State.lostFrames_within (s : State) (fs : List LFrame) :
    Within [.regs, .lamp] s (State.lostFrames s fs) := by
  unfold State.lostFrames
  refine Within.when _ _ (fun x => ?_) ?_
  · exact (State.flag_within ..).mono (by decide)
  · refine Within.each _ _ (fun x a => ?_) ?_
    · exact (State.failBlock_within ..).mono (by decide)
    · exact Within.refl _ _

theorem State.dropQueued_within (s : State) (port : ℕ) (p : LFrame → Bool) :
    Within [.regs, .lamp] s (State.dropQueued s port p) := by
  unfold State.dropQueued
  extract_lets y1
  clear_value y1
  refine Within.trans ?_ ((State.refill_within ..).mono (by decide))
  refine Within.trans ?_ ((State.lostFrames_within ..).mono (by decide))
  exact (State.onLPort_within ..).mono (by decide)

theorem State.blankPort_within (s : State) (p : ℕ) :
    Within [.regs, .fresh, .out, .lamp] s (State.blankPort s p) := by
  unfold State.blankPort
  extract_lets y1
  refine Within.via y1 ?_ fun _ => ?_
  · dsimp -zeta only [y1]
    split
    · refine Within.trans ?_ ((State.lostFrames_within ..).mono (by decide))
      refine Within.trans ?_ ((State.onLPort_within ..).mono (by decide))
      exact (State.abortFrame_within ..).mono (by decide)
    · exact Within.refl _ _
  clear_value y1
  refine Within.trans ?_ ((State.onLPort_within ..).mono (by decide))
  refine Within.trans ?_ ((State.dropQueued_within ..).mono (by decide))
  assumption

theorem State.enterBlank_within (s : State) (g : ℕ) :
    Within [.regs, .fresh, .out, .lamp] s (State.enterBlank s g) := by
  unfold State.enterBlank
  extract_lets y1
  refine Within.via y1 ?_ fun _ => ?_
  · exact (State.onLGroup_within ..).mono (by decide)
  clear_value y1
  refine Within.trans ?_ ((State.lampStatus_within ..).mono (by decide))
  refine Within.each _ _ (fun x a => ?_) ?_
  · exact (State.blankPort_within ..).mono (by decide)
  · assumption

theorem State.pushGroup_within (s : State) (g : Nat) (blocks : List Nat) (fold : Nat) (duty : Nat → Nat → List Nat) :
    Within [.regs, .lamp] s (State.pushGroup s g blocks fold duty).1 := by
  unfold State.pushGroup
  extract_lets _ y2 _ y4 y5 y6 y7 y8
  clear_value y2 y4 y5
  refine Within.via y6 ?_ fun _ => ?_
  · exact (State.invalidateBlocks_within ..).mono (by decide)
  clear_value y6
  refine Within.via y7 ?_ fun _ => ?_
  · refine Within.each _ _ (fun x a => ?_) ?_
    · refine Within.trans ?_ ((State.refill_within ..).mono (by decide))
      refine Within.each _ _ (fun x a => ?_) ?_
      · exact (State.queueLamp_within ..).mono (by decide)
      · exact Within.refl _ _
    · assumption
  clear_value y7 y8
  dsimp -zeta only
  refine Within.trans ?_ ((State.settleBlocks_within ..).mono (by decide))
  assumption

end Sys2Proof.Machine
end

