-- ==== Sys2Proof/Laws/WithinFlockOps.lean ====
section
/-! SUPPORT. What each operation and each meaning of Machine/FlockOps.lean can do to the state: the parts it may change, and that it
keeps the canonical form and the shape. -/
set_option Elab.async false
namespace Sys2Proof.Machine

theorem State.onFlock_within (s : State) (id : Nat) (f : Flock → Flock) :
    Within [.flocks] s (State.onFlock s id f) := by
  unfold State.onFlock
  exact (Within.upd (fun p => by cases p <;> first | exact .inr rfl | exact .inl (by decide)) rfl rfl)

theorem State.holdFlock_within (s : State) (f : Flock) :
    Within [.regs, .flocks] s (State.holdFlock s f) := by
  unfold State.holdFlock
  refine Within.ite ?_ ?_
  · exact Within.refl _ _
  · refine Within.trans ?_ ((State.flockRegs_within ..).mono (by decide))
    exact (Within.upd (fun p => by cases p <;> first | exact .inr rfl | exact .inl (by decide)) rfl rfl)

theorem State.shelve_within (s : State) (id : ℕ) :
    Within [.regs, .flocks] s (State.shelve s id) := by
  unfold State.shelve
  refine Within.trans ?_ ((State.flockRegs_within ..).mono (by decide))
  exact (State.onFlock_within ..).mono (by decide)

theorem State.stage_within (s : State) (id : Nat) (ws : List Wr) (check : Nat) :
    Within [.flocks] s (State.stage s id ws check) := by
  unfold State.stage
  extract_lets y1 y2 y3
  refine Within.via y1 ?_ fun _ => ?_
  · exact (State.onFlock_within ..).mono (by decide)
  clear_value y1 y2 y3
  refine Within.ite ?_ ?_
  · assumption
  · exact (State.onFlock_within ..).mono (by decide)

theorem State.onTx_within (s : State) (c : Nat) (f : Tx → Tx) :
    Within [.txs] s (State.onTx s c f) := by
  unfold State.onTx
  refine Within.upd (fun p => by cases p <;> first | exact .inr rfl | exact .inl (by decide)) rfl rfl fun w => ?_
  obtain ⟨w0, w1, w2, w3, w4, w5, w6, w7, w8, w9, w10, w11, w12, w13, w14⟩ := w
  exact ⟨w0, w1, w2, w3, w4, w5, w6, w7, w8, w9, w10, w11, w12, w13, (modAt_length ..).trans w14⟩

theorem State.txRegs_within (s : State) (c : ℕ) :
    Within [.regs] s (State.txRegs s c) := by
  unfold State.txRegs
  extract_lets y1 y2
  clear_value y1 y2
  refine Within.trans ?_ ((State.put_within ..).mono (by decide))
  refine Within.trans ?_ ((State.put_within ..).mono (by decide))
  exact (State.put_within ..).mono (by decide)

theorem State.keptRegs_within (s : State) :
    Within [.regs] s (State.keptRegs s) := by
  unfold State.keptRegs
  refine Within.each _ _ (fun x a => ?_) ?_
  · exact (State.txRegs_within ..).mono (by decide)
  · exact (State.flockRegs_within ..).mono (by decide)

end Sys2Proof.Machine
end

