-- ==== Sys2Proof/Laws/WithinFold.lean ====
section
/-! SUPPORT. What each operation and each meaning of Machine/Fold.lean can do to the state: the parts it may change, and that it
keeps the canonical form and the shape. -/
set_option Elab.async false
namespace Sys2Proof.Machine

theorem State.setK_within (s : State) (n : Nat) (i : Nat) (v : Nat) :
    Within [.folds] s (State.setK s n i v) := by
  unfold State.setK
  refine Within.ite ?_ ?_
  · exact Within.refl _ _
  · exact (State.onFold_within ..).mono (by decide)

theorem State.setQ_within (s : State) (n : Nat) (i : Nat) (v : Nat) :
    Within [.folds] s (State.setQ s n i v) := by
  unfold State.setQ
  exact (State.onFold_within ..).mono (by decide)

theorem State.scratchSet_within (s : State) (n : Nat) (w : Nat) (v : Nat) :
    Within [.folds] s (State.scratchSet s n w v) := by
  unfold State.scratchSet
  exact (State.onFold_within ..).mono (by decide)

theorem State.storeWords_within (s : State) (n : Nat) (ws : List (Nat × Nat)) :
    Within [.folds] s (State.storeWords s n ws) := by
  unfold State.storeWords
  split
  · exact (State.onFold_within ..).mono (by decide)
  · refine Within.each _ _ (fun x a => ?_) ?_
    · exact (State.scratchSet_within ..).mono (by decide)
    · exact Within.refl _ _

theorem State.wait_within (s : State) (n : Nat) (code : Nat) :
    Within [.regs, .folds] s (State.wait s n code) := by
  unfold State.wait
  refine Within.trans ?_ ((State.onFold_within ..).mono (by decide))
  exact (State.put_within ..).mono (by decide)

theorem State.unwait_within (s : State) (n : Nat) :
    Within [.regs, .folds] s (State.unwait s n) := by
  unfold State.unwait
  refine Within.trans ?_ ((State.onFold_within ..).mono (by decide))
  exact (State.put_within ..).mono (by decide)

theorem State.wakeFlags_within (s : State) (m : Nat) :
    Within [.regs, .folds] s (State.wakeFlags s m) := by
  unfold State.wakeFlags
  refine Within.each _ _ (fun x a => ?_) ?_
  · split
    · refine Within.ite ?_ ?_
      · exact Within.refl _ _
      · refine Within.ite ?_ ?_
        · refine Within.trans ?_ ((State.onFold_within ..).mono (by decide))
          exact (State.unwait_within ..).mono (by decide)
        · refine Within.ite ?_ ?_
          · exact Within.refl _ _
          · refine Within.trans ?_ ((State.onFold_within ..).mono (by decide))
            exact (State.unwait_within ..).mono (by decide)
    · exact Within.refl _ _
  · exact Within.refl _ _

theorem State.setFlags_within (s : State) (n : Nat) (mask : Nat) :
    Within [.regs, .folds] s (State.setFlags s n mask) := by
  unfold State.setFlags
  extract_lets y1
  refine Within.via y1 ?_ fun _ => ?_
  · exact (State.onFold_within ..).mono (by decide)
  clear_value y1
  refine Within.trans ?_ ((State.wakeFlags_within ..).mono (by decide))
  refine Within.trans ?_ ((State.put_within ..).mono (by decide))
  assumption

theorem State.endWindow_within (s : State) (n : ℕ) :
    Within [.fresh, .folds] s (State.endWindow s n) := by
  unfold State.endWindow
  extract_lets y1
  clear_value y1
  refine Within.trans ?_ ((State.onFold_within ..).mono (by decide))
  exact (State.tickFresh_within ..).mono (by decide)

theorem State.endRun_within (s : State) (n : ℕ) :
    Within [.regs, .fresh, .ring, .folds] s (State.endRun s n) := by
  unfold State.endRun
  extract_lets y1 y2 y3 y4 y5 y6 y7 y8
  refine Within.via y1 ?_ fun _ => ?_
  · refine Within.trans ?_ ((State.endWindow_within ..).mono (by decide))
    exact (State.unwait_within ..).mono (by decide)
  clear_value y1
  refine Within.via y2 ?_ fun _ => ?_
  · refine Within.ite ?_ ?_
    · refine Within.trans ?_ ((State.onRing_within ..).mono (by decide))
      assumption
    · assumption
  clear_value y2
  refine Within.via y3 ?_ fun _ => ?_
  · refine Within.trans ?_ ((State.onFold_within ..).mono (by decide))
    assumption
  clear_value y3
  refine Within.via y5 ?_ fun _ => ?_
  · refine Within.trans ?_ ((State.put_within ..).mono (by decide))
    refine Within.trans ?_ ((State.put_within ..).mono (by decide))
    assumption
  clear_value y4 y5
  refine Within.via y6 ?_ fun _ => ?_
  · refine Within.ite ?_ ?_
    · refine Within.trans ?_ ((State.onFold_within ..).mono (by decide))
      refine Within.trans ?_ ((State.flag_within ..).mono (by decide))
      assumption
    · assumption
  clear_value y6
  refine Within.via y7 ?_ fun _ => ?_
  · refine Within.trans ?_ ((State.put_within ..).mono (by decide))
    refine Within.trans ?_ ((State.put_within ..).mono (by decide))
    assumption
  clear_value y7
  refine Within.via y8 ?_ fun _ => ?_
  · refine Within.trans ?_ ((State.put_within ..).mono (by decide))
    refine Within.trans ?_ ((State.put_within ..).mono (by decide))
    assumption
  clear_value y8
  refine Within.trans ?_ ((State.wakeFlags_within ..).mono (by decide))
  refine Within.trans ?_ ((State.flag_within ..).mono (by decide))
  refine Within.trans ?_ ((State.flag_within ..).mono (by decide))
  assumption

theorem State.foldFault_within (s : State) (n : ℕ) (code : ℕ) (pc : ℕ) :
    Within [.regs, .fresh, .out, .host, .ring, .comp, .folds, .bist] s (State.foldFault s n code pc) := by
  unfold State.foldFault
  extract_lets y1 y2 y3 y4 y5
  refine Within.via y2 ?_ fun _ => ?_
  · refine Within.trans ?_ ((State.put_within ..).mono (by decide))
    refine Within.trans ?_ ((State.put_within ..).mono (by decide))
    exact (State.put_within ..).mono (by decide)
  clear_value y1 y2
  refine Within.via y3 ?_ fun _ => ?_
  · refine Within.trans ?_ ((State.onBist_within ..).mono (by decide))
    refine Within.trans ?_ ((State.noteFault_within ..).mono (by decide))
    refine Within.trans ?_ ((State.irqAll_within ..).mono (by decide))
    refine Within.trans ?_ ((State.inc_within ..).mono (by decide))
    assumption
  clear_value y3
  refine Within.via y4 ?_ fun _ => ?_
  · refine Within.trans ?_ ((State.onFold_within ..).mono (by decide))
    refine Within.trans ?_ ((State.endRun_within ..).mono (by decide))
    assumption
  clear_value y4
  refine Within.via y5 ?_ fun _ => ?_
  · refine Within.ite ?_ ?_
    · refine Within.trans ?_ ((State.onComp_within ..).mono (by decide))
      assumption
    · assumption
  clear_value y5
  refine Within.ite ?_ ?_
  · refine Within.trans ?_ ((State.put_within ..).mono (by decide))
    assumption
  · assumption

theorem State.fetch_within (s : State) (n : Nat) :
    Within [.regs, .fresh, .out, .host, .ring, .comp, .folds, .bist] s (State.fetch s n) := by
  unfold State.fetch
  extract_lets y1
  refine Within.via y1 ?_ fun _ => ?_
  · exact (State.put_within ..).mono (by decide)
  clear_value y1
  refine Within.ite ?_ ?_
  · refine Within.trans ?_ ((State.foldFault_within ..).mono (by decide))
    refine Within.trans ?_ ((State.tickFresh_within ..).mono (by decide))
    assumption
  · assumption

theorem State.resume_within (s : State) (n : Nat) :
    Within [.regs, .fresh, .out, .host, .ring, .comp, .folds, .bist] s (State.resume s n) := by
  unfold State.resume
  refine Within.trans ?_ ((State.fetch_within ..).mono (by decide))
  exact (State.unwait_within ..).mono (by decide)

theorem State.advance_within (s : State) (n : Nat) :
    Within [.regs, .fresh, .out, .host, .ring, .comp, .folds, .bist] s (State.advance s n) := by
  unfold State.advance
  refine Within.trans ?_ ((State.fetch_within ..).mono (by decide))
  exact (State.onFold_within ..).mono (by decide)

theorem State.advanceWait_within {ps : List Part} {s t : State} {n : Nat} {waits : Bool} {w : State → State}
    (hs : Part.subset [.regs, .fresh, .out, .host, .ring, .comp, .folds, .bist] ps = true) (hw : ∀ x, Within ps x (w x))
    (h : Within ps s t) : Within ps s (t.advanceWait n waits w) := by
  unfold State.advanceWait
  extract_lets y
  have hy : Within ps s y := h.trans ((State.onFold_within ..).mono₂ (by decide) hs)
  refine Within.ite ?_ (hy.trans ((State.fetch_within ..).mono₂ (by decide) hs))
  exact (hy.trans ((State.put_within ..).mono₂ (by decide) hs)).trans (hw _)

theorem State.korty_within {ps : List Part} {s t : State} {n op : Nat} {act : State → Nat → Nat → State}
    (hs : Part.subset [.regs, .fresh, .out, .host, .ring, .comp, .folds, .bist] ps = true) (ha : ∀ x i pc, Within ps x (act x i pc))
    (h : Within ps s t) : Within ps s (t.korty n op act) := by
  unfold State.korty
  refine Within.ite ?_ h
  extract_lets _
  refine Within.ite (h.trans ((State.fetch_within ..).mono₂ (by decide) hs)) (Within.ite ?_ (h.trans (ha _ _ _)))
  exact h.trans ((State.foldFault_within ..).mono₂ (by decide) hs)

theorem State.startRun_within (s : State) (n : Nat) (frame : Nat) (slot : Nat) (deadline : Nat) :
    Within [.regs, .folds] s (State.startRun s n frame slot deadline) := by
  unfold State.startRun
  extract_lets _ y2 y3 y4
  refine Within.via y2 ?_ fun _ => ?_
  · exact (State.onFold_within ..).mono (by decide)
  clear_value y2
  refine Within.via y3 ?_ fun _ => ?_
  · refine Within.trans ?_ ((State.put_within ..).mono (by decide))
    refine Within.trans ?_ ((State.flag_within ..).mono (by decide))
    refine Within.trans ?_ ((State.inc_within ..).mono (by decide))
    assumption
  clear_value y3
  refine Within.via y4 ?_ fun _ => ?_
  · refine Within.trans ?_ ((State.flag_within ..).mono (by decide))
    refine Within.trans ?_ ((State.put_within ..).mono (by decide))
    assumption
  clear_value y4
  refine Within.trans ?_ ((State.put_within ..).mono (by decide))
  assumption

theorem State.overrun_within (s : State) (n : ℕ) :
    Within [.regs, .fresh, .ring, .folds] s (State.overrun s n) := by
  unfold State.overrun
  refine Within.trans ?_ ((State.inc_within ..).mono (by decide))
  exact (State.endRun_within ..).mono (by decide)

theorem State.applyStop_within (s : State) (n : ℕ) :
    Within [.regs, .folds] s (State.applyStop s n) := by
  unfold State.applyStop
  extract_lets y1 y2
  refine Within.via y2 ?_ fun _ => ?_
  · refine Within.when _ _ (fun x => ?_) ?_
    · exact (State.put_within ..).mono (by decide)
    · exact Within.refl _ _
  clear_value y1 y2
  refine Within.trans ?_ ((State.onFold_within ..).mono (by decide))
  refine Within.when _ _ (fun x => ?_) ?_
  · exact (State.put_within ..).mono (by decide)
  · assumption

theorem State.programSwitch_within (s : State) (by_ : ℕ) (n : ℕ) :
    Within [.regs, .folds] s (State.programSwitch s by_ n) := by
  unfold State.programSwitch
  extract_lets y1 y2
  refine Within.via y1 ?_ fun _ => ?_
  · exact (State.onFold_within ..).mono (by decide)
  clear_value y1
  refine Within.via y2 ?_ fun _ => ?_
  · refine Within.trans ?_ ((State.flag_within ..).mono (by decide))
    assumption
  clear_value y2
  refine Within.ite ?_ ?_
  · refine Within.trans ?_ ((State.put_within ..).mono (by decide))
    refine Within.trans ?_ ((State.onFold_within ..).mono (by decide))
    assumption
  · assumption

theorem State.foldLatch_within (s : State) (by_ : ℕ) (n : ℕ) :
    Within [.regs, .folds] s (State.foldLatch s by_ n) := by
  unfold State.foldLatch
  extract_lets y1 y2
  refine Within.via y1 ?_ fun _ => ?_
  · refine Within.when _ _ (fun x => ?_) ?_
    · exact (State.programSwitch_within ..).mono (by decide)
    · exact Within.refl _ _
  clear_value y1
  clear_value y2
  refine Within.ite ?_ ?_
  · refine Within.trans ?_ ((State.onFold_within ..).mono (by decide))
    refine Within.trans ?_ ((State.put_within ..).mono (by decide))
    assumption
  · assumption

theorem State.runFrom_within (s : State) (n : ℕ) (at_ : ℕ) :
    Within [.folds] s (State.runFrom s n at_) := by
  unfold State.runFrom
  exact (State.onFold_within ..).mono (by decide)

theorem State.foldEnable_within (s : State) (n : ℕ) (v : Bool) (at_ : ℕ) :
    Within [.regs, .folds] s (State.foldEnable s n v at_) := by
  unfold State.foldEnable
  refine Within.ite ?_ ?_
  · exact Within.refl _ _
  · extract_lets y1 y2
    refine Within.via y1 ?_ fun _ => ?_
    · exact (State.flag_within ..).mono (by decide)
    clear_value y1
    refine Within.via y2 ?_ fun _ => ?_
    · refine Within.trans ?_ ((State.onFold_within ..).mono (by decide))
      assumption
    clear_value y2
    refine Within.ite ?_ ?_
    · refine Within.ite ?_ ?_
      · refine Within.trans ?_ ((State.runFrom_within ..).mono (by decide))
        assumption
      · refine Within.trans ?_ ((State.onFold_within ..).mono (by decide))
        assumption
    · refine Within.ite ?_ ?_
      · refine Within.trans ?_ ((State.onFold_within ..).mono (by decide))
        assumption
      · refine Within.trans ?_ ((State.put_within ..).mono (by decide))
        assumption

theorem State.foldActivate_within (s : State) (n : ℕ) (at_ : ℕ) :
    Within [.regs, .folds] s (State.foldActivate s n at_) := by
  unfold State.foldActivate
  refine Within.trans ?_ ((State.onFold_within ..).mono (by decide))
  exact (State.flag_within ..).mono (by decide)

theorem State.foldRestart_within (s : State) (n : ℕ) (at_ : ℕ) :
    Within [.folds] s (State.foldRestart s n at_) := by
  unfold State.foldRestart
  refine Within.ite ?_ ?_
  · exact (State.runFrom_within ..).mono (by decide)
  · exact Within.refl _ _

theorem State.foldStop_within (s : State) (n : ℕ) :
    Within [.folds] s (State.foldStop s n) := by
  unfold State.foldStop
  exact (State.onFold_within ..).mono (by decide)

theorem State.foldClear_within (s : State) (n : Nat) :
    Within [.regs] s (State.foldClear s n) := by
  unfold State.foldClear
  extract_lets y1
  refine Within.via y1 ?_ fun _ => ?_
  · refine Within.trans ?_ ((State.zero_within ..).mono (by decide))
    refine Within.trans ?_ ((State.zero_within ..).mono (by decide))
    refine Within.trans ?_ ((State.zero_within ..).mono (by decide))
    refine Within.trans ?_ ((State.zero_within ..).mono (by decide))
    exact (State.zero_within ..).mono (by decide)
  clear_value y1
  refine Within.trans ?_ ((State.flag_within ..).mono (by decide))
  assumption

theorem State.foldReset_within (s : State) (n : ℕ) :
    Within [.regs, .fresh, .ring, .comp, .folds] s (State.foldReset s n) := by
  unfold State.foldReset
  extract_lets y1 y2 y3 y4
  refine Within.via y2 ?_ fun _ => ?_
  · refine Within.ite ?_ ?_
    · refine Within.trans ?_ ((State.onComp_within ..).mono (by decide))
      exact (State.endRun_within ..).mono (by decide)
    · exact Within.refl _ _
  clear_value y1 y2
  refine Within.via y3 ?_ fun _ => ?_
  · refine Within.ite ?_ ?_
    · refine Within.trans ?_ ((State.flag_within ..).mono (by decide))
      assumption
    · assumption
  clear_value y3
  refine Within.via y4 ?_ fun _ => ?_
  · refine Within.trans ?_ ((State.onFold_within ..).mono (by decide))
    assumption
  clear_value y4
  refine Within.trans ?_ ((State.put_within ..).mono (by decide))
  refine Within.trans ?_ ((State.put_within ..).mono (by decide))
  refine Within.trans ?_ ((State.put_within ..).mono (by decide))
  assumption

theorem execFoldEnable_within (fold : Fin 4) (value : Bool) (s : State) :
    Within [.regs, .folds] s (outcomeState (execFoldEnable fold value s) s) := by
  unfold execFoldEnable
  dsimp -zeta only [outcomeState]
  refine Within.ite ?_ ?_
  · exact (State.foldEnable_within ..).mono (by decide)
  · exact Within.refl _ _

theorem execActivate_within (fold : Fin 4) (s : State) :
    Within [.regs, .folds] s (outcomeState (execActivate fold s) s) := by
  unfold execActivate
  dsimp -zeta only [outcomeState]
  refine Within.ite ?_ ?_
  · exact (State.foldActivate_within ..).mono (by decide)
  · exact Within.refl _ _

theorem execRestart_within (fold : Fin 4) (s : State) :
    Within [.folds] s (outcomeState (execRestart fold s) s) := by
  unfold execRestart
  dsimp -zeta only [outcomeState]
  refine Within.ite ?_ ?_
  · exact (State.foldRestart_within ..).mono (by decide)
  · exact Within.refl _ _

theorem execStop_within (fold : Fin 4) (s : State) :
    Within [.folds] s (outcomeState (execStop fold s) s) := by
  unfold execStop
  dsimp -zeta only [outcomeState]
  refine Within.ite ?_ ?_
  · exact (State.foldStop_within ..).mono (by decide)
  · exact Within.refl _ _

theorem execFoldClear_within (fold : Fin 4) (s : State) :
    Within [.regs] s (outcomeState (execFoldClear fold s) s) := by
  unfold execFoldClear
  dsimp -zeta only [outcomeState]
  refine Within.ite ?_ ?_
  · exact (State.foldClear_within ..).mono (by decide)
  · exact Within.refl _ _

theorem execPacingWindow_within (fold : Fin 4) (upset : Option Upset) (s : State) :
    Within [.fresh, .folds] s (outcomeState (execPacingWindow fold upset s) s) := by
  unfold execPacingWindow
  dsimp -zeta only [outcomeState]
  refine Within.ite ?_ ?_
  · extract_lets y1 y2
    refine Within.via y1 ?_ fun _ => ?_
    · exact (State.onFold_within ..).mono (by decide)
    clear_value y1
    refine Within.via y2 ?_ fun _ => ?_
    · dsimp -zeta only [y2]
      split
      · refine Within.trans ?_ ((State.onFold_within ..).mono (by decide))
        assumption
      · refine Within.trans ?_ ((State.onFold_within ..).mono (by decide))
        assumption
      · refine Within.trans ?_ ((State.onFold_within ..).mono (by decide))
        assumption
      · assumption
    clear_value y2
    refine Within.trans ?_ ((State.onFold_within ..).mono (by decide))
    refine Within.when _ _ (fun x => ?_) ?_
    · exact (State.endWindow_within ..).mono (by decide)
    · assumption
  · exact Within.refl _ _

theorem execWaittExpire_within (fold : Fin 4) (s : State) :
    Within [.regs, .fresh, .out, .host, .ring, .comp, .folds, .bist] s (outcomeState (execWaittExpire fold s) s) := by
  unfold execWaittExpire
  dsimp -zeta only [outcomeState]
  refine Within.ite ?_ ?_
  · exact (State.resume_within ..).mono (by decide)
  · exact Within.refl _ _

theorem execPauseEnd_within (fold : Fin 4) (s : State) :
    Within [.regs, .fresh, .out, .host, .ring, .comp, .folds, .bist] s (outcomeState (execPauseEnd fold s) s) := by
  unfold execPauseEnd
  dsimp -zeta only [outcomeState]
  refine Within.ite ?_ ?_
  · exact (State.resume_within ..).mono (by decide)
  · exact Within.refl _ _

theorem State.setNZCV_within (s : State) (n : Nat) (x : Alu) :
    Within [.folds] s (State.setNZCV s n x) := by
  unfold State.setNZCV
  exact (State.onFold_within ..).mono (by decide)

theorem State.alu_within (s : State) (n : Nat) (w : Nat) (pc : Nat) (tv : Bool) (x : Alu) :
    Within [.regs, .fresh, .out, .host, .ring, .comp, .folds, .bist] s (State.alu s n w pc tv x) := by
  unfold State.alu
  refine Within.ite ?_ ?_
  · exact (State.foldFault_within ..).mono (by decide)
  · refine Within.trans ?_ ((State.advance_within ..).mono (by decide))
    refine Within.trans ?_ ((State.setK_within ..).mono (by decide))
    refine Within.ite ?_ ?_
    · exact (State.setNZCV_within ..).mono (by decide)
    · exact Within.refl _ _

theorem execNop_within (fold : Fin 4) (s : State) :
    Within [.regs, .fresh, .out, .host, .ring, .comp, .folds, .bist] s (outcomeState (execNop fold s) s) := by
  unfold execNop
  dsimp -zeta only [outcomeState]
  refine State.korty_within (by decide) ?_ ?_
  · intro _ _ _
    exact (State.advance_within ..).mono (by decide)
  · exact Within.refl _ _

theorem execAdd_within (fold : Fin 4) (s : State) :
    Within [.regs, .fresh, .out, .host, .ring, .comp, .folds, .bist] s (outcomeState (execAdd fold s) s) := by
  unfold execAdd
  dsimp -zeta only [outcomeState]
  refine State.korty_within (by decide) ?_ ?_
  · intro _ _ _
    exact (State.alu_within ..).mono (by decide)
  · exact Within.refl _ _

theorem execSub_within (fold : Fin 4) (s : State) :
    Within [.regs, .fresh, .out, .host, .ring, .comp, .folds, .bist] s (outcomeState (execSub fold s) s) := by
  unfold execSub
  dsimp -zeta only [outcomeState]
  refine State.korty_within (by decide) ?_ ?_
  · intro _ _ _
    exact (State.alu_within ..).mono (by decide)
  · exact Within.refl _ _

theorem execAndR_within (fold : Fin 4) (s : State) :
    Within [.regs, .fresh, .out, .host, .ring, .comp, .folds, .bist] s (outcomeState (execAndR fold s) s) := by
  unfold execAndR
  dsimp -zeta only [outcomeState]
  refine State.korty_within (by decide) ?_ ?_
  · intro _ _ _
    exact (State.alu_within ..).mono (by decide)
  · exact Within.refl _ _

theorem execOrR_within (fold : Fin 4) (s : State) :
    Within [.regs, .fresh, .out, .host, .ring, .comp, .folds, .bist] s (outcomeState (execOrR fold s) s) := by
  unfold execOrR
  dsimp -zeta only [outcomeState]
  refine State.korty_within (by decide) ?_ ?_
  · intro _ _ _
    exact (State.alu_within ..).mono (by decide)
  · exact Within.refl _ _

theorem execXorR_within (fold : Fin 4) (s : State) :
    Within [.regs, .fresh, .out, .host, .ring, .comp, .folds, .bist] s (outcomeState (execXorR fold s) s) := by
  unfold execXorR
  dsimp -zeta only [outcomeState]
  refine State.korty_within (by decide) ?_ ?_
  · intro _ _ _
    exact (State.alu_within ..).mono (by decide)
  · exact Within.refl _ _

theorem execShl_within (fold : Fin 4) (s : State) :
    Within [.regs, .fresh, .out, .host, .ring, .comp, .folds, .bist] s (outcomeState (execShl fold s) s) := by
  unfold execShl
  dsimp -zeta only [outcomeState]
  refine State.korty_within (by decide) ?_ ?_
  · intro _ _ _
    exact (State.alu_within ..).mono (by decide)
  · exact Within.refl _ _

theorem execShr_within (fold : Fin 4) (s : State) :
    Within [.regs, .fresh, .out, .host, .ring, .comp, .folds, .bist] s (outcomeState (execShr fold s) s) := by
  unfold execShr
  dsimp -zeta only [outcomeState]
  refine State.korty_within (by decide) ?_ ?_
  · intro _ _ _
    exact (State.alu_within ..).mono (by decide)
  · exact Within.refl _ _

theorem execSar_within (fold : Fin 4) (s : State) :
    Within [.regs, .fresh, .out, .host, .ring, .comp, .folds, .bist] s (outcomeState (execSar fold s) s) := by
  unfold execSar
  dsimp -zeta only [outcomeState]
  refine State.korty_within (by decide) ?_ ?_
  · intro _ _ _
    exact (State.alu_within ..).mono (by decide)
  · exact Within.refl _ _

theorem execMul_within (fold : Fin 4) (s : State) :
    Within [.regs, .fresh, .out, .host, .ring, .comp, .folds, .bist] s (outcomeState (execMul fold s) s) := by
  unfold execMul
  dsimp -zeta only [outcomeState]
  refine State.korty_within (by decide) ?_ ?_
  · intro _ _ _
    exact (State.alu_within ..).mono (by decide)
  · exact Within.refl _ _

theorem execMinR_within (fold : Fin 4) (s : State) :
    Within [.regs, .fresh, .out, .host, .ring, .comp, .folds, .bist] s (outcomeState (execMinR fold s) s) := by
  unfold execMinR
  dsimp -zeta only [outcomeState]
  refine State.korty_within (by decide) ?_ ?_
  · intro _ _ _
    exact (State.alu_within ..).mono (by decide)
  · exact Within.refl _ _

theorem execMaxR_within (fold : Fin 4) (s : State) :
    Within [.regs, .fresh, .out, .host, .ring, .comp, .folds, .bist] s (outcomeState (execMaxR fold s) s) := by
  unfold execMaxR
  dsimp -zeta only [outcomeState]
  refine State.korty_within (by decide) ?_ ?_
  · intro _ _ _
    exact (State.alu_within ..).mono (by decide)
  · exact Within.refl _ _

theorem execCmp_within (fold : Fin 4) (s : State) :
    Within [.regs, .fresh, .out, .host, .ring, .comp, .folds, .bist] s (outcomeState (execCmp fold s) s) := by
  unfold execCmp
  dsimp -zeta only [outcomeState]
  refine State.korty_within (by decide) ?_ ?_
  · intro _ _ _
    refine Within.trans ?_ ((State.advance_within ..).mono (by decide))
    exact (State.setNZCV_within ..).mono (by decide)
  · exact Within.refl _ _

theorem execAddi_within (fold : Fin 4) (s : State) :
    Within [.regs, .fresh, .out, .host, .ring, .comp, .folds, .bist] s (outcomeState (execAddi fold s) s) := by
  unfold execAddi
  dsimp -zeta only [outcomeState]
  refine State.korty_within (by decide) ?_ ?_
  · intro _ _ _
    exact (State.alu_within ..).mono (by decide)
  · exact Within.refl _ _

theorem execAndi_within (fold : Fin 4) (s : State) :
    Within [.regs, .fresh, .out, .host, .ring, .comp, .folds, .bist] s (outcomeState (execAndi fold s) s) := by
  unfold execAndi
  dsimp -zeta only [outcomeState]
  refine State.korty_within (by decide) ?_ ?_
  · intro _ _ _
    exact (State.alu_within ..).mono (by decide)
  · exact Within.refl _ _

theorem execOri_within (fold : Fin 4) (s : State) :
    Within [.regs, .fresh, .out, .host, .ring, .comp, .folds, .bist] s (outcomeState (execOri fold s) s) := by
  unfold execOri
  dsimp -zeta only [outcomeState]
  refine State.korty_within (by decide) ?_ ?_
  · intro _ _ _
    exact (State.alu_within ..).mono (by decide)
  · exact Within.refl _ _

theorem execXori_within (fold : Fin 4) (s : State) :
    Within [.regs, .fresh, .out, .host, .ring, .comp, .folds, .bist] s (outcomeState (execXori fold s) s) := by
  unfold execXori
  dsimp -zeta only [outcomeState]
  refine State.korty_within (by decide) ?_ ?_
  · intro _ _ _
    exact (State.alu_within ..).mono (by decide)
  · exact Within.refl _ _

theorem execShli_within (fold : Fin 4) (s : State) :
    Within [.regs, .fresh, .out, .host, .ring, .comp, .folds, .bist] s (outcomeState (execShli fold s) s) := by
  unfold execShli
  dsimp -zeta only [outcomeState]
  refine State.korty_within (by decide) ?_ ?_
  · intro _ _ _
    exact (State.alu_within ..).mono (by decide)
  · exact Within.refl _ _

theorem execShri_within (fold : Fin 4) (s : State) :
    Within [.regs, .fresh, .out, .host, .ring, .comp, .folds, .bist] s (outcomeState (execShri fold s) s) := by
  unfold execShri
  dsimp -zeta only [outcomeState]
  refine State.korty_within (by decide) ?_ ?_
  · intro _ _ _
    exact (State.alu_within ..).mono (by decide)
  · exact Within.refl _ _

theorem execSari_within (fold : Fin 4) (s : State) :
    Within [.regs, .fresh, .out, .host, .ring, .comp, .folds, .bist] s (outcomeState (execSari fold s) s) := by
  unfold execSari
  dsimp -zeta only [outcomeState]
  refine State.korty_within (by decide) ?_ ?_
  · intro _ _ _
    exact (State.alu_within ..).mono (by decide)
  · exact Within.refl _ _

theorem execCmpi_within (fold : Fin 4) (s : State) :
    Within [.regs, .fresh, .out, .host, .ring, .comp, .folds, .bist] s (outcomeState (execCmpi fold s) s) := by
  unfold execCmpi
  dsimp -zeta only [outcomeState]
  refine State.korty_within (by decide) ?_ ?_
  · intro _ _ _
    refine Within.trans ?_ ((State.advance_within ..).mono (by decide))
    exact (State.setNZCV_within ..).mono (by decide)
  · exact Within.refl _ _

theorem execGet_within (fold : Fin 4) (s : State) :
    Within [.regs, .fresh, .out, .host, .ring, .comp, .folds, .bist] s (outcomeState (execGet fold s) s) := by
  unfold execGet
  dsimp -zeta only [outcomeState]
  refine State.korty_within (by decide) ?_ ?_
  · intro _ _ _
    refine Within.ite ?_ ?_
    · exact (State.foldFault_within ..).mono (by decide)
    · refine Within.trans ?_ ((State.advance_within ..).mono (by decide))
      exact (State.setK_within ..).mono (by decide)
  · exact Within.refl _ _

theorem execQset_within (fold : Fin 4) (s : State) :
    Within [.regs, .fresh, .out, .host, .ring, .comp, .folds, .bist] s (outcomeState (execQset fold s) s) := by
  unfold execQset
  dsimp -zeta only [outcomeState]
  refine State.korty_within (by decide) ?_ ?_
  · intro _ _ _
    refine Within.trans ?_ ((State.advance_within ..).mono (by decide))
    exact (State.setQ_within ..).mono (by decide)
  · exact Within.refl _ _

theorem execQget_within (fold : Fin 4) (s : State) :
    Within [.regs, .fresh, .out, .host, .ring, .comp, .folds, .bist] s (outcomeState (execQget fold s) s) := by
  unfold execQget
  dsimp -zeta only [outcomeState]
  refine State.korty_within (by decide) ?_ ?_
  · intro _ _ _
    refine Within.trans ?_ ((State.advance_within ..).mono (by decide))
    exact (State.setK_within ..).mono (by decide)
  · exact Within.refl _ _

theorem execQisect_within (fold : Fin 4) (s : State) :
    Within [.regs, .fresh, .out, .host, .ring, .comp, .folds, .bist] s (outcomeState (execQisect fold s) s) := by
  unfold execQisect
  dsimp -zeta only [outcomeState]
  refine State.korty_within (by decide) ?_ ?_
  · intro _ _ _
    extract_lets y1
    clear_value y1
    refine Within.trans ?_ ((State.advance_within ..).mono (by decide))
    refine Within.trans ?_ ((State.onFold_within ..).mono (by decide))
    exact (State.setQ_within ..).mono (by decide)
  · exact Within.refl _ _

theorem execBr_within (fold : Fin 4) (s : State) :
    Within [.regs, .fresh, .out, .host, .ring, .comp, .folds, .bist] s (outcomeState (execBr fold s) s) := by
  unfold execBr
  dsimp -zeta only [outcomeState]
  refine State.korty_within (by decide) ?_ ?_
  · intro _ _ _
    extract_lets y1 y2 y3
    clear_value y1 y2
    refine Within.via y3 ?_ fun _ => ?_
    · exact (State.setK_within ..).mono (by decide)
    clear_value y3
    refine Within.ite ?_ ?_
    · exact (State.foldFault_within ..).mono (by decide)
    · refine Within.ite ?_ ?_
      · refine Within.trans ?_ ((State.fetch_within ..).mono (by decide))
        refine Within.trans ?_ ((State.onFold_within ..).mono (by decide))
        assumption
      · refine Within.trans ?_ ((State.advance_within ..).mono (by decide))
        assumption
  · exact Within.refl _ _

theorem State.loading_within {ps : List Part} {s t : State} {n pc ea words : Nat} {act : State → State}
    (hs : Part.subset [.regs, .fresh, .out, .host, .ring, .comp, .folds, .bist] ps = true) (ha : ∀ x, Within ps x (act x))
    (h : Within ps s t) : Within ps s (t.loading n pc ea words act) := by
  unfold State.loading
  extract_lets _
  refine Within.ite (h.trans ((State.foldFault_within ..).mono₂ (by decide) hs)) (Within.ite ?_ (Within.ite ?_ (h.trans (ha _))))
  · exact h.trans ((State.wait_within ..).mono₂ (by decide) hs)
  · exact h.trans ((State.foldFault_within ..).mono₂ (by decide) hs)

theorem State.storing_within (s : State) (n : Nat) (pc : Nat) (ea : Nat) (vs : List Nat) :
    Within [.regs, .fresh, .out, .host, .ring, .comp, .folds, .bist] s (State.storing s n pc ea vs) := by
  unfold State.storing
  extract_lets y1
  clear_value y1
  refine Within.ite ?_ ?_
  · exact (State.foldFault_within ..).mono (by decide)
  · refine Within.ite ?_ ?_
    · exact (State.wait_within ..).mono (by decide)
    · refine Within.trans ?_ ((State.advance_within ..).mono (by decide))
      exact (State.storeWords_within ..).mono (by decide)

theorem execLd_within (fold : Fin 4) (s : State) :
    Within [.regs, .fresh, .out, .host, .ring, .comp, .folds, .bist] s (outcomeState (execLd fold s) s) := by
  unfold execLd
  dsimp -zeta only [outcomeState]
  refine State.korty_within (by decide) ?_ ?_
  · intro _ _ _
    refine State.loading_within (by decide) ?_ ?_
    · intro _
      refine Within.trans ?_ ((State.advance_within ..).mono (by decide))
      exact (State.setK_within ..).mono (by decide)
    · exact Within.refl _ _
  · exact Within.refl _ _

theorem execSt_within (fold : Fin 4) (s : State) :
    Within [.regs, .fresh, .out, .host, .ring, .comp, .folds, .bist] s (outcomeState (execSt fold s) s) := by
  unfold execSt
  dsimp -zeta only [outcomeState]
  refine State.korty_within (by decide) ?_ ?_
  · intro _ _ _
    exact (State.storing_within ..).mono (by decide)
  · exact Within.refl _ _

theorem execLdc_within (fold : Fin 4) (s : State) :
    Within [.regs, .fresh, .out, .host, .ring, .comp, .folds, .bist] s (outcomeState (execLdc fold s) s) := by
  unfold execLdc
  dsimp -zeta only [outcomeState]
  refine State.korty_within (by decide) ?_ ?_
  · intro _ _ _
    refine State.loading_within (by decide) ?_ ?_
    · intro _
      extract_lets y1
      clear_value y1
      refine Within.ite ?_ ?_
      · refine Within.trans ?_ ((State.advance_within ..).mono (by decide))
        exact (State.setK_within ..).mono (by decide)
      · exact (State.foldFault_within ..).mono (by decide)
    · exact Within.refl _ _
  · exact Within.refl _ _

theorem execQld_within (fold : Fin 4) (s : State) :
    Within [.regs, .fresh, .out, .host, .ring, .comp, .folds, .bist] s (outcomeState (execQld fold s) s) := by
  unfold execQld
  dsimp -zeta only [outcomeState]
  refine State.korty_within (by decide) ?_ ?_
  · intro _ _ _
    refine State.loading_within (by decide) ?_ ?_
    · intro _
      refine Within.trans ?_ ((State.advance_within ..).mono (by decide))
      exact (State.setQ_within ..).mono (by decide)
    · exact Within.refl _ _
  · exact Within.refl _ _

theorem execQst_within (fold : Fin 4) (s : State) :
    Within [.regs, .fresh, .out, .host, .ring, .comp, .folds, .bist] s (outcomeState (execQst fold s) s) := by
  unfold execQst
  dsimp -zeta only [outcomeState]
  refine State.korty_within (by decide) ?_ ?_
  · intro _ _ _
    extract_lets y1
    clear_value y1
    exact (State.storing_within ..).mono (by decide)
  · exact Within.refl _ _

theorem execWaitt_within (fold : Fin 4) (s : State) :
    Within [.regs, .fresh, .out, .host, .ring, .comp, .folds, .bist] s (outcomeState (execWaitt fold s) s) := by
  unfold execWaitt
  dsimp -zeta only [outcomeState]
  refine State.korty_within (by decide) ?_ ?_
  · intro _ _ _
    extract_lets y1 y2 y3
    clear_value y1 y2 y3
    refine State.advanceWait_within (by decide) ?_ ?_
    · intro _
      refine Within.trans ?_ ((State.wait_within ..).mono (by decide))
      exact (State.onFold_within ..).mono (by decide)
    · exact (State.onFold_within ..).mono (by decide)
  · exact Within.refl _ _

theorem execWaith_within (fold : Fin 4) (s : State) :
    Within [.regs, .fresh, .out, .host, .ring, .comp, .folds, .bist] s (outcomeState (execWaith fold s) s) := by
  unfold execWaith
  dsimp -zeta only [outcomeState]
  refine State.korty_within (by decide) ?_ ?_
  · intro _ _ _
    extract_lets y1 y2 y3 y4
    clear_value y1 y2 y3 y4
    refine State.advanceWait_within (by decide) ?_ ?_
    · intro _
      refine Within.trans ?_ ((State.wait_within ..).mono (by decide))
      exact (State.onFold_within ..).mono (by decide)
    · exact (State.onFold_within ..).mono (by decide)
  · exact Within.refl _ _

theorem execSignal_within (fold : Fin 4) (s : State) :
    Within [.regs, .fresh, .out, .host, .ring, .comp, .folds, .bist] s (outcomeState (execSignal fold s) s) := by
  unfold execSignal
  dsimp -zeta only [outcomeState]
  refine State.korty_within (by decide) ?_ ?_
  · intro _ _ _
    extract_lets y1 y2
    clear_value y1
    refine Within.via y2 ?_ fun _ => ?_
    · refine Within.ite ?_ ?_
      · exact (State.setFlags_within ..).mono (by decide)
      · exact (State.onFold_within ..).mono (by decide)
    clear_value y2
    refine Within.trans ?_ ((State.advance_within ..).mono (by decide))
    assumption
  · exact Within.refl _ _

theorem execPause_within (fold : Fin 4) (s : State) :
    Within [.regs, .fresh, .out, .host, .ring, .comp, .folds, .bist] s (outcomeState (execPause fold s) s) := by
  unfold execPause
  dsimp -zeta only [outcomeState]
  refine State.korty_within (by decide) ?_ ?_
  · intro _ _ _
    extract_lets y1
    clear_value y1
    refine State.advanceWait_within (by decide) ?_ ?_
    · intro _
      refine Within.trans ?_ ((State.wait_within ..).mono (by decide))
      exact (State.onFold_within ..).mono (by decide)
    · exact Within.refl _ _
  · exact Within.refl _ _

theorem execYield_within (fold : Fin 4) (s : State) :
    Within [.regs, .fresh, .out, .host, .ring, .comp, .folds, .bist] s (outcomeState (execYield fold s) s) := by
  unfold execYield
  dsimp -zeta only [outcomeState]
  refine State.korty_within (by decide) ?_ ?_
  · intro _ _ _
    extract_lets y1
    clear_value y1
    refine State.advanceWait_within (by decide) ?_ ?_
    · intro _
      refine Within.trans ?_ ((State.wait_within ..).mono (by decide))
      exact (State.onFold_within ..).mono (by decide)
    · exact Within.refl _ _
  · exact Within.refl _ _

theorem State.endStream_within (s : State) (n : ℕ) (pc : ℕ) (halt : Bool) :
    Within [.regs, .fresh, .out, .host, .ring, .comp, .folds, .bist] s (State.endStream s n pc halt) := by
  unfold State.endStream
  refine Within.ite ?_ ?_
  · exact (State.foldFault_within ..).mono (by decide)
  · exact (State.onFold_within ..).mono (by decide)

theorem execTdone_within (fold : Fin 4) (s : State) :
    Within [.regs, .fresh, .out, .host, .ring, .comp, .folds, .bist] s (outcomeState (execTdone fold s) s) := by
  unfold execTdone
  dsimp -zeta only [outcomeState]
  refine State.korty_within (by decide) ?_ ?_
  · intro _ _ _
    exact (State.endStream_within ..).mono (by decide)
  · exact Within.refl _ _

theorem execHalt_within (fold : Fin 4) (s : State) :
    Within [.regs, .fresh, .out, .host, .ring, .comp, .folds, .bist] s (outcomeState (execHalt fold s) s) := by
  unfold execHalt
  dsimp -zeta only [outcomeState]
  refine State.korty_within (by decide) ?_ ?_
  · intro _ _ _
    exact (State.endStream_within ..).mono (by decide)
  · exact Within.refl _ _

theorem execTrap_within (fold : Fin 4) (s : State) :
    Within [.regs, .fresh, .out, .host, .ring, .comp, .folds, .bist] s (outcomeState (execTrap fold s) s) := by
  unfold execTrap
  dsimp -zeta only [outcomeState]
  refine State.korty_within (by decide) ?_ ?_
  · intro _ _ _
    refine Within.ite ?_ ?_
    · exact (State.foldFault_within ..).mono (by decide)
    · refine Within.trans ?_ ((State.advance_within ..).mono (by decide))
      refine Within.trans ?_ ((State.irqAll_within ..).mono (by decide))
      refine Within.trans ?_ ((State.inc_within ..).mono (by decide))
      exact (State.put_within ..).mono (by decide)
  · exact Within.refl _ _

theorem execKortyTxbegin_within (fold : Fin 4) (s : State) :
    Within [.regs, .fresh, .out, .host, .ring, .comp, .folds, .bist] s (outcomeState (execKortyTxbegin fold s) s) := by
  unfold execKortyTxbegin
  dsimp -zeta only [outcomeState]
  refine State.korty_within (by decide) ?_ ?_
  · intro _ _ _
    extract_lets y1 y2
    clear_value y1 y2
    refine Within.ite ?_ ?_
    · exact (State.foldFault_within ..).mono (by decide)
    · refine Within.ite ?_ ?_
      · exact (State.foldFault_within ..).mono (by decide)
      · refine Within.trans ?_ ((State.advance_within ..).mono (by decide))
        exact (State.onFold_within ..).mono (by decide)
  · exact Within.refl _ _

theorem execKortyTxend_within (fold : Fin 4) (s : State) :
    Within [.regs, .fresh, .out, .host, .ring, .comp, .folds, .bist] s (outcomeState (execKortyTxend fold s) s) := by
  unfold execKortyTxend
  dsimp -zeta only [outcomeState]
  refine State.korty_within (by decide) ?_ ?_
  · intro _ _ _
    split
    · exact (State.foldFault_within ..).mono (by decide)
    · extract_lets y1 y2 y3 y4
      refine Within.via y3 ?_ fun _ => ?_
      · exact (State.onFold_within ..).mono (by decide)
      clear_value y1 y2 y3
      refine Within.via y4 ?_ fun _ => ?_
      · refine Within.ite ?_ ?_
        · assumption
        · split
          · refine Within.each _ _ (fun x a => ?_) ?_
            · exact (State.scratchSet_within ..).mono (by decide)
            · assumption
          · refine Within.trans ?_ ((State.onFold_within ..).mono (by decide))
            assumption
          · refine Within.trans ?_ ((State.onFold_within ..).mono (by decide))
            assumption
      clear_value y4
      refine Within.ite ?_ ?_
      · exact (State.wait_within ..).mono (by decide)
      · refine Within.trans ?_ ((State.advance_within ..).mono (by decide))
        refine Within.trans ?_ ((State.setK_within ..).mono (by decide))
        assumption
  · exact Within.refl _ _

theorem State.foldTxDue_within (s : State) (k : Nat) (n : Nat) :
    Within [.folds] s (State.foldTxDue s k n) := by
  unfold State.foldTxDue
  split
  · split
    · refine Within.ite ?_ ?_
      · refine Within.trans ?_ ((State.onFold_within ..).mono (by decide))
        refine Within.each _ _ (fun x a => ?_) ?_
        · exact (State.scratchSet_within ..).mono (by decide)
        · exact Within.refl _ _
      · exact Within.refl _ _
    · exact Within.refl _ _
  · exact Within.refl _ _

theorem execFlstage_within (fold : Fin 4) (s : State) :
    Within [.regs, .fresh, .out, .host, .ring, .comp, .folds, .bist, .flocks] s (outcomeState (execFlstage fold s) s) := by
  unfold execFlstage
  dsimp -zeta only [outcomeState]
  refine State.korty_within (by decide) ?_ ?_
  · intro _ _ _
    extract_lets y1 y2 y3 y4 y5 y6 y7
    clear_value y1 y2 y3 y4 y5 y6 y7
    refine Within.ite ?_ ?_
    · exact (State.foldFault_within ..).mono (by decide)
    · refine Within.ite ?_ ?_
      · exact (State.foldFault_within ..).mono (by decide)
      · refine Within.ite ?_ ?_
        · exact (State.wait_within ..).mono (by decide)
        · refine Within.ite ?_ ?_
          · exact (State.foldFault_within ..).mono (by decide)
          · split
            · exact (State.foldFault_within ..).mono (by decide)
            · extract_lets y8 y9 y10
              clear_value y8 y9 y10
              refine Within.ite ?_ ?_
              · exact (State.foldFault_within ..).mono (by decide)
              · refine Within.ite ?_ ?_
                · exact (State.foldFault_within ..).mono (by decide)
                · refine Within.ite ?_ ?_
                  · exact (State.wait_within ..).mono (by decide)
                  · refine Within.ite ?_ ?_
                    · exact (State.foldFault_within ..).mono (by decide)
                    · split
                      · exact (State.foldFault_within ..).mono (by decide)
                      · refine Within.ite ?_ ?_
                        · exact (State.foldFault_within ..).mono (by decide)
                        · refine Within.trans ?_ ((State.advance_within ..).mono (by decide))
                          exact (State.stage_within ..).mono (by decide)
  · exact Within.refl _ _

theorem execFlvote_within (fold : Fin 4) (s : State) :
    Within [.regs, .fresh, .out, .host, .ring, .comp, .folds, .bist, .flocks] s (outcomeState (execFlvote fold s) s) := by
  unfold execFlvote
  dsimp -zeta only [outcomeState]
  refine State.korty_within (by decide) ?_ ?_
  · intro _ _ _
    extract_lets y1 y2 y3
    clear_value y1 y2
    refine Within.via y3 ?_ fun _ => ?_
    · refine Within.ite ?_ ?_
      · exact (State.onFlock_within ..).mono (by decide)
      · exact Within.refl _ _
    clear_value y3
    refine Within.trans ?_ ((State.advance_within ..).mono (by decide))
    refine Within.trans ?_ ((State.onFold_within ..).mono (by decide))
    assumption
  · exact Within.refl _ _

end Sys2Proof.Machine
end

