-- ==== Sys2Proof/Laws/WithinPipe.lean ====
section
/-! SUPPORT. What each operation and each meaning of Machine/Pipe.lean can do to the state: the parts it may change, and that it
keeps the canonical form and the shape. -/
set_option Elab.async false
namespace Sys2Proof.Machine

theorem State.startPush_within (s : State) (n : Nat) (i : PItem) :
    Within [.regs, .folds, .lamp] s (State.startPush s n i) := by
  unfold State.startPush
  extract_lets _ y2 y3 y4
  clear_value y2 y3
  refine Within.via y4.1 ?_ fun _ => ?_
  · refine Within.ite_fst ?_ ?_
    · dsimp -zeta only
      exact Within.refl _ _
    · refine Within.foldl_fst _ _ _ (fun x a => ?_) ?_
      · extract_lets y5
        refine Within.via y5.1 ?_ fun _ => ?_
        · exact (State.pushGroup_within ..).mono (by decide)
        clear_value y5
        assumption
      · dsimp -zeta only
        exact Within.refl _ _
  clear_value y4
  refine Within.trans ?_ ((State.onFold_within ..).mono (by decide))
  assumption

theorem State.headItems_within (k : Nat) (s : State) (n : Nat) :
    Within [.regs, .folds, .lamp] s (State.headItems k s n) := by
  induction k generalizing s with
  | zero => exact Within.refl _ _
  | succ k ih =>
    unfold State.headItems
    split
    · refine Within.ite (Within.trans ?_ (ih _)) (Within.ite ((State.startPush_within ..).mono (by decide)) (Within.refl _ _))
      exact Within.trans ((State.onFold_within ..).mono (by decide)) ((State.setFlags_within ..).mono (by decide))
    · exact Within.refl _ _

theorem State.headOfQueue_within (s : State) (n : Nat) :
    Within [.regs, .folds, .lamp] s (State.headOfQueue s n) := State.headItems_within ..

theorem State.wakeQueue_within (s : State) (n : Nat) :
    Within [.regs, .fresh, .out, .host, .ring, .comp, .folds, .bist] s (State.wakeQueue s n) := by
  unfold State.wakeQueue
  extract_lets y1
  clear_value y1
  refine Within.ite ?_ ?_
  · exact (State.unwait_within ..).mono (by decide)
  · refine Within.ite ?_ ?_
    · split
      · refine Within.ite ?_ ?_
        · exact (State.resume_within ..).mono (by decide)
        · exact Within.refl _ _
      · exact Within.refl _ _
    · exact Within.refl _ _

theorem State.issue_within (s : State) (n : Nat) (i : PItem) :
    Within [.regs, .fresh, .out, .host, .ring, .comp, .folds, .lamp, .bist] s (State.issue s n i) := by
  unfold State.issue
  refine Within.trans ?_ ((State.advance_within ..).mono (by decide))
  refine Within.trans ?_ ((State.headOfQueue_within ..).mono (by decide))
  exact (State.onFold_within ..).mono (by decide)

theorem State.whenFree_within {ps : List Part} {s t : State} {n : Nat} {f : State → State}
    (hs : Part.subset [.regs, .folds] ps = true) (hf : ∀ x, Within ps x (f x))
    (h : Within ps s t) : Within ps s (t.whenFree n f) := by
  unfold State.whenFree
  exact Within.ite (h.trans ((State.wait_within ..).mono₂ (by decide) hs)) (h.trans (hf _))

theorem State.openStrip_within (s : State) (n : Nat) (k : Nat) (op : Nat) (p : PStrip) :
    Within [.folds] s (State.openStrip s n k op p) := by
  unfold State.openStrip
  exact (State.onFold_within ..).mono (by decide)

theorem execCull_within (fold : Fin 4) (s : State) :
    Within [.regs, .fresh, .out, .host, .ring, .comp, .folds, .lamp, .bist] s (outcomeState (execCull fold s) s) := by
  unfold execCull
  dsimp -zeta only [outcomeState]
  refine State.korty_within (by decide) ?_ ?_
  · intro _ _ _
    refine State.whenFree_within (by decide) ?_ ?_
    · intro _
      extract_lets y1 y2 y3 y4 y5
      clear_value y1 y2 y3 y4 y5
      refine Within.ite ?_ ?_
      · exact (State.foldFault_within ..).mono (by decide)
      · refine Within.ite ?_ ?_
        · exact (State.foldFault_within ..).mono (by decide)
        · refine Within.ite ?_ ?_
          · exact (State.foldFault_within ..).mono (by decide)
          · refine Within.trans ?_ ((State.issue_within ..).mono (by decide))
            exact (State.openStrip_within ..).mono (by decide)
    · exact Within.refl _ _
  · exact Within.refl _ _

theorem State.stageOp_within (s : State) (n : Nat) (w : Nat) (pc : Nat) (op : Nat) (after : List Nat) (ch : PStrip → PStrip) (arg : Nat) (close : Bool) :
    Within [.regs, .fresh, .out, .host, .ring, .comp, .folds, .lamp, .bist] s (State.stageOp s n w pc op after ch arg close) := by
  unfold State.stageOp
  refine State.whenFree_within (by decide) ?_ ?_
  · intro _
    extract_lets y1
    clear_value y1
    split
    · exact (State.foldFault_within ..).mono (by decide)
    · refine Within.ite ?_ ?_
      · exact (State.foldFault_within ..).mono (by decide)
      · refine Within.ite ?_ ?_
        · exact (State.foldFault_within ..).mono (by decide)
        · refine Within.trans ?_ ((State.issue_within ..).mono (by decide))
          exact (State.onFold_within ..).mono (by decide)
  · exact Within.refl _ _

theorem execFetch_within (fold : Fin 4) (s : State) :
    Within [.regs, .fresh, .out, .host, .ring, .comp, .folds, .lamp, .bist] s (outcomeState (execFetch fold s) s) := by
  unfold execFetch
  dsimp -zeta only [outcomeState]
  refine State.korty_within (by decide) ?_ ?_
  · intro _ _ _
    exact (State.stageOp_within ..).mono (by decide)
  · exact Within.refl _ _

theorem execScale_within (fold : Fin 4) (s : State) :
    Within [.regs, .fresh, .out, .host, .ring, .comp, .folds, .lamp, .bist] s (outcomeState (execScale fold s) s) := by
  unfold execScale
  dsimp -zeta only [outcomeState]
  refine State.korty_within (by decide) ?_ ?_
  · intro _ _ _
    exact (State.stageOp_within ..).mono (by decide)
  · exact Within.refl _ _

theorem execCsc_within (fold : Fin 4) (s : State) :
    Within [.regs, .fresh, .out, .host, .ring, .comp, .folds, .lamp, .bist] s (outcomeState (execCsc fold s) s) := by
  unfold execCsc
  dsimp -zeta only [outcomeState]
  refine State.korty_within (by decide) ?_ ?_
  · intro _ _ _
    exact (State.stageOp_within ..).mono (by decide)
  · exact Within.refl _ _

theorem execBlend_within (fold : Fin 4) (s : State) :
    Within [.regs, .fresh, .out, .host, .ring, .comp, .folds, .lamp, .bist] s (outcomeState (execBlend fold s) s) := by
  unfold execBlend
  dsimp -zeta only [outcomeState]
  refine State.korty_within (by decide) ?_ ?_
  · intro _ _ _
    exact (State.stageOp_within ..).mono (by decide)
  · exact Within.refl _ _

theorem execAngle_within (fold : Fin 4) (s : State) :
    Within [.regs, .fresh, .out, .host, .ring, .comp, .folds, .lamp, .bist] s (outcomeState (execAngle fold s) s) := by
  unfold execAngle
  dsimp -zeta only [outcomeState]
  refine State.korty_within (by decide) ?_ ?_
  · intro _ _ _
    exact (State.stageOp_within ..).mono (by decide)
  · exact Within.refl _ _

theorem execCorrect_within (fold : Fin 4) (s : State) :
    Within [.regs, .fresh, .out, .host, .ring, .comp, .folds, .lamp, .bist] s (outcomeState (execCorrect fold s) s) := by
  unfold execCorrect
  dsimp -zeta only [outcomeState]
  refine State.korty_within (by decide) ?_ ?_
  · intro _ _ _
    exact (State.stageOp_within ..).mono (by decide)
  · exact Within.refl _ _

theorem execCrc_within (fold : Fin 4) (s : State) :
    Within [.regs, .fresh, .out, .host, .ring, .comp, .folds, .lamp, .bist] s (outcomeState (execCrc fold s) s) := by
  unfold execCrc
  dsimp -zeta only [outcomeState]
  refine State.korty_within (by decide) ?_ ?_
  · intro _ _ _
    exact (State.stageOp_within ..).mono (by decide)
  · exact Within.refl _ _

theorem execPush_within (fold : Fin 4) (s : State) :
    Within [.regs, .fresh, .out, .host, .ring, .comp, .folds, .lamp, .bist] s (outcomeState (execPush fold s) s) := by
  unfold execPush
  dsimp -zeta only [outcomeState]
  refine State.korty_within (by decide) ?_ ?_
  · intro _ _ _
    exact (State.stageOp_within ..).mono (by decide)
  · exact Within.refl _ _

theorem execPatgen_within (fold : Fin 4) (s : State) :
    Within [.regs, .fresh, .out, .host, .ring, .comp, .folds, .lamp, .bist] s (outcomeState (execPatgen fold s) s) := by
  unfold execPatgen
  dsimp -zeta only [outcomeState]
  refine State.korty_within (by decide) ?_ ?_
  · intro _ _ _
    refine State.whenFree_within (by decide) ?_ ?_
    · intro _
      extract_lets y1 y2 y3 y4 y5 y6 y7 y8 y9 y10 y11
      clear_value y1 y2 y3 y4 y5 y6 y7 y8 y9 y10 y11
      refine Within.ite ?_ ?_
      · exact (State.foldFault_within ..).mono (by decide)
      · refine Within.ite ?_ ?_
        · exact (State.wait_within ..).mono (by decide)
        · refine Within.ite ?_ ?_
          · exact (State.foldFault_within ..).mono (by decide)
          · refine Within.ite ?_ ?_
            · exact (State.foldFault_within ..).mono (by decide)
            · refine Within.ite ?_ ?_
              · refine Within.ite ?_ ?_
                · exact (State.foldFault_within ..).mono (by decide)
                · refine Within.ite ?_ ?_
                  · exact (State.foldFault_within ..).mono (by decide)
                  · exact (State.issue_within ..).mono (by decide)
              · refine Within.ite ?_ ?_
                · exact (State.foldFault_within ..).mono (by decide)
                · refine Within.ite ?_ ?_
                  · exact (State.foldFault_within ..).mono (by decide)
                  · refine Within.trans ?_ ((State.issue_within ..).mono (by decide))
                    exact (State.openStrip_within ..).mono (by decide)
    · exact Within.refl _ _
  · exact Within.refl _ _

theorem State.doCull_within (s : State) (n : ℕ) (p : PStrip) :
    Within [.regs, .folds] s (State.doCull s n p).1 := by
  unfold State.doCull
  extract_lets y1 y2 y3
  refine Within.via y3 ?_ fun _ => ?_
  · refine Within.each _ _ (fun x a => ?_) ?_
    · exact (State.flag_within ..).mono (by decide)
    · exact Within.refl _ _
  clear_value y1 y2 y3
  dsimp -zeta only
  refine Within.trans ?_ ((State.onFold_within ..).mono (by decide))
  assumption

theorem State.doCorrect_within (s : State) (n : ℕ) (p : PStrip) :
    Within [.regs, .out, .host, .ring, .mst, .comp, .folds, .bist] s (State.doCorrect s n p) := by
  unfold State.doCorrect
  extract_lets y1 y2 y3 y4 y5
  refine Within.via y5 ?_ fun _ => ?_
  · refine Within.trans ?_ ((State.onComp_within ..).mono (by decide))
    exact (State.onFold_within ..).mono (by decide)
  clear_value y1 y2 y3 y4 y5
  refine Within.each _ _ (fun x a => ?_) ?_
  · extract_lets y6 y7 y8
    refine Within.via y7 ?_ fun _ => ?_
    · refine Within.trans ?_ ((State.setLampBad_within ..).mono (by decide))
      exact (State.inc_within ..).mono (by decide)
    clear_value y6 y7
    refine Within.via y8 ?_ fun _ => ?_
    · refine Within.ite ?_ ?_
      · refine Within.trans ?_ ((State.memTouch_within ..).mono (by decide))
        assumption
      · assumption
    clear_value y8
    refine Within.ite ?_ ?_
    · assumption
    · refine Within.trans ?_ ((State.flag_within ..).mono (by decide))
      refine Within.trans ?_ ((State.put_within ..).mono (by decide))
      refine Within.trans ?_ ((State.put_within ..).mono (by decide))
      assumption
  · assumption

theorem State.doCrc_within (s : State) (n : Nat) (r : Nat) (p : PStrip) :
    Within [.lamp] s (State.doCrc s n r p).1 := by
  unfold State.doCrc
  extract_lets y1
  clear_value y1
  dsimp -zeta only
  exact (State.onLamp_within ..).mono (by decide)

theorem State.markTable_within (s : State) (n : ℕ) (id : ℕ) (idx : ℕ) :
    Within [.comp] s (State.markTable s n id idx) := by
  unfold State.markTable
  extract_lets y1 y2 y3 y4
  clear_value y1 y2 y3 y4
  exact (State.onComp_within ..).mono (by decide)

theorem State.tableFault_within (s : State) (n : ℕ) (key : ℕ) (pc : ℕ) :
    Within [.regs, .fresh, .out, .host, .ring, .comp, .folds, .bist] s (State.tableFault s n key pc) := by
  unfold State.tableFault
  extract_lets y1
  refine Within.via y1 ?_ fun _ => ?_
  · refine Within.ite ?_ ?_
    · refine Within.trans ?_ ((State.flag_within ..).mono (by decide))
      exact (State.inc_within ..).mono (by decide)
    · refine Within.trans ?_ ((State.flag_within ..).mono (by decide))
      exact (State.inc_within ..).mono (by decide)
  clear_value y1
  refine Within.trans ?_ ((State.foldFault_within ..).mono (by decide))
  refine Within.trans ?_ ((State.flag_within ..).mono (by decide))
  assumption

theorem State.stageMem_within (s : State) (i : PItem) (gr : ℕ) (word : ℕ) :
    Within [.regs, .out, .host, .ring, .mst, .comp, .lamp, .bist] s (State.stageMem s i gr word) := by
  unfold State.stageMem
  refine Within.ite ?_ ?_
  · extract_lets y1 y2
    clear_value y1 y2
    refine Within.when _ _ (fun x => ?_) ?_
    · exact (State.onMst_within ..).mono (by decide)
    · exact Within.refl _ _
  · refine Within.trans ?_ ((State.invalidateBlocks_within ..).mono (by decide))
    refine Within.trans ?_ ((State.onComp_within ..).mono (by decide))
    exact (State.memError_within ..).mono (by decide)

theorem State.itemResult_within (s : State) (n : ℕ) (i : PItem) :
    Within [.regs, .fresh, .out, .host, .ring, .mst, .comp, .folds, .lamp, .bist] s (State.itemResult s n i).1 := by
  unfold State.itemResult
  split
  · exact (State.doCull_within ..).mono (by decide)
  · extract_lets y1
    clear_value y1
    dsimp -zeta only
    refine Within.trans ?_ ((State.onFold_within ..).mono (by decide))
    exact (State.tickFresh_within ..).mono (by decide)
  · dsimp -zeta only
    exact (State.doCorrect_within ..).mono (by decide)
  · exact (State.doCrc_within ..).mono (by decide)
  · extract_lets y2
    clear_value y2
    dsimp -zeta only
    refine Within.when _ _ (fun x => ?_) ?_
    · exact (State.onLamp_within ..).mono (by decide)
    · exact Within.refl _ _
  · refine Within.ite_fst ?_ ?_
    · dsimp -zeta only
      exact (State.onFold_within ..).mono (by decide)
    · dsimp -zeta only
      exact Within.refl _ _
  · dsimp -zeta only
    exact Within.refl _ _

theorem execPipelineItemDone_within (fold : Fin 4) (err : Option PipeErr) (s : State) :
    Within [.regs, .fresh, .out, .host, .ring, .mst, .comp, .folds, .lamp, .bist] s (outcomeState (execPipelineItemDone fold err s) s) := by
  unfold execPipelineItemDone
  dsimp -zeta only [outcomeState]
  split
  · refine Within.ite ?_ ?_
    · exact Within.refl _ _
    · extract_lets y1 y2 y3 y4
      refine Within.via y2 ?_ fun _ => ?_
      · dsimp -zeta only [y2]
        split
        · exact (State.invalidateBlocks_within ..).mono (by decide)
        · exact (State.stageMem_within ..).mono (by decide)
        · exact Within.refl _ _
      clear_value y1 y2
      refine Within.via y3.1 ?_ fun _ => ?_
      · refine Within.trans ?_ ((State.itemResult_within ..).mono (by decide))
        assumption
      clear_value y3
      refine Within.via y4 ?_ fun _ => ?_
      · dsimp -zeta only [y4]
        split
        · refine Within.trans ?_ ((State.scratchSet_within ..).mono (by decide))
          refine Within.trans ?_ ((State.scratchSet_within ..).mono (by decide))
          assumption
        · assumption
      clear_value y4
      split
      · refine Within.trans ?_ ((State.tableFault_within ..).mono (by decide))
        exact (State.markTable_within ..).mono (by decide)
      · split
        · exact (State.tableFault_within ..).mono (by decide)
        · refine Within.trans ?_ ((State.wakeQueue_within ..).mono (by decide))
          refine Within.trans ?_ ((State.headOfQueue_within ..).mono (by decide))
          refine Within.trans ?_ ((State.onFold_within ..).mono (by decide))
          assumption
  · exact Within.refl _ _

theorem State.patternsDone_within (s : State) (n : ℕ) :
    Within [.ingest] s (State.patternsDone s n) := by
  unfold State.patternsDone
  extract_lets y1 y2
  clear_value y1 y2
  exact (State.onIntake_within ..).mono (by decide)

theorem execFoldRunComplete_within (fold : Fin 4) (s : State) :
    Within [.regs, .fresh, .ring, .ingest, .folds] s (outcomeState (execFoldRunComplete fold s) s) := by
  unfold execFoldRunComplete
  dsimp -zeta only [outcomeState]
  refine Within.ite ?_ ?_
  · extract_lets y1 y2 y3 y4
    refine Within.via y3 ?_ fun _ => ?_
    · refine Within.ite ?_ ?_
      · exact (State.patternsDone_within ..).mono (by decide)
      · exact (State.put_within ..).mono (by decide)
    clear_value y1 y2 y3
    refine Within.via y4 ?_ fun _ => ?_
    · refine Within.trans ?_ ((State.endRun_within ..).mono (by decide))
      refine Within.trans ?_ ((State.onFold_within ..).mono (by decide))
      assumption
    clear_value y4
    refine Within.ite ?_ ?_
    · refine Within.trans ?_ ((State.put_within ..).mono (by decide))
      assumption
    · assumption
  · exact Within.refl _ _

end Sys2Proof.Machine
end

