-- ==== Sys2Proof/Laws/WithinLamp.lean ====
section
/-! SUPPORT. What each operation and each meaning of Machine/Lamp.lean can do to the state: the parts it may change, and that it
keeps the canonical form and the shape. -/
set_option Elab.async false
namespace Sys2Proof.Machine

theorem State.lsyncPins_within (s : State) (g : ℕ) :
    Within [.out] s (State.lsyncPins s g) := by
  unfold State.lsyncPins
  refine Within.each _ _ (fun x a => ?_) ?_
  · refine Within.when _ _ (fun x => ?_) ?_
    · exact (State.drivePin_within ..).mono (by decide)
    · exact Within.refl _ _
  · exact Within.refl _ _

theorem State.setLsync_within (s : State) (g : Nat) (level : Bool) :
    Within [.out, .lamp] s (State.setLsync s g level) := by
  unfold State.setLsync
  refine Within.trans ?_ ((State.lsyncPins_within ..).mono (by decide))
  refine Within.trans ?_ ((State.emit_within ..).mono (by decide))
  exact (State.onLGroup_within ..).mono (by decide)

theorem State.pollPort_within (s : State) (p : Nat) :
    Within [.lamp] s (State.pollPort s p) := by
  unfold State.pollPort
  refine Within.each _ _ (fun x a => ?_) ?_
  · exact (State.queueLamp_within ..).mono (by decide)
  · exact Within.refl _ _

theorem execLsyncEdge_within (group : Fin 4) (s : State) :
    Within [.regs, .out, .lamp] s (outcomeState (execLsyncEdge group s) s) := by
  unfold execLsyncEdge
  dsimp -zeta only [outcomeState]
  refine Within.ite ?_ ?_
  · extract_lets y1 y2 y3 y4
    refine Within.via y2 ?_ fun _ => ?_
    · refine Within.trans ?_ ((State.setLsync_within ..).mono (by decide))
      exact (State.put_within ..).mono (by decide)
    clear_value y1 y2
    refine Within.via y3 ?_ fun _ => ?_
    · refine Within.trans ?_ ((State.onLGroup_within ..).mono (by decide))
      assumption
    clear_value y3
    refine Within.via y4 ?_ fun _ => ?_
    · dsimp -zeta only [y4]
      split
      · refine Within.trans ?_ ((State.put_within ..).mono (by decide))
        assumption
      · assumption
    clear_value y4
    refine Within.ite ?_ ?_
    · refine Within.each _ _ (fun x a => ?_) ?_
      · exact (State.pollPort_within ..).mono (by decide)
      · assumption
    · assumption
  · exact Within.refl _ _

theorem execLsyncPulseEnd_within (group : Fin 4) (mismatch : Bool) (s : State) :
    Within [.regs, .out, .lamp] s (outcomeState (execLsyncPulseEnd group mismatch s) s) := by
  unfold execLsyncPulseEnd
  extract_lets y1
  refine Within.via y1 ?_ fun _ => ?_
  · exact (State.setLsync_within ..).mono (by decide)
  clear_value y1
  dsimp -zeta only [outcomeState]
  refine Within.ite ?_ ?_
  · refine Within.ite ?_ ?_
    · refine Within.trans ?_ ((State.flag_within ..).mono (by decide))
      assumption
    · assumption
  · exact Within.refl _ _

theorem execLineBufferFill_within (port : Fin 16) (err : Option (Nat × Nat)) (s : State) :
    Within [.regs, .out, .host, .ring, .mst, .comp, .lamp, .bist] s (outcomeState (execLineBufferFill port err s) s) := by
  unfold execLineBufferFill
  dsimp -zeta only [outcomeState]
  refine Within.ite ?_ ?_
  · exact Within.refl _ _
  · split
    · split
      · extract_lets y1 y2 y3
        clear_value y1
        refine Within.via y2 ?_ fun _ => ?_
        · refine Within.trans ?_ ((State.onComp_within ..).mono (by decide))
          exact (State.memError_within ..).mono (by decide)
        clear_value y2
        refine Within.via y3 ?_ fun _ => ?_
        · refine Within.trans ?_ ((State.onLPort_within ..).mono (by decide))
          assumption
        clear_value y3
        refine Within.trans ?_ ((State.refill_within ..).mono (by decide))
        refine Within.each _ _ (fun x a => ?_) ?_
        · exact (State.failBlock_within ..).mono (by decide)
        · assumption
      · refine Within.ite ?_ ?_
        · refine Within.trans ?_ ((State.refill_within ..).mono (by decide))
          exact (State.onLPort_within ..).mono (by decide)
        · exact Within.refl _ _
    · exact Within.refl _ _

theorem execLampFrameStart_within (port : Fin 16) (s : State) :
    Within [.regs, .lamp] s (outcomeState (execLampFrameStart port s) s) := by
  unfold execLampFrameStart
  dsimp -zeta only [outcomeState]
  refine Within.ite ?_ ?_
  · split
    · exact (State.onLPort_within ..).mono (by decide)
    · refine Within.ite ?_ ?_
      · exact Within.refl _ _
      · refine Within.trans ?_ ((State.inc_within ..).mono (by decide))
        exact (State.onLPort_within ..).mono (by decide)
  · exact Within.refl _ _

theorem execLampFrameSent_within (port : Fin 16) (mismatch : Bool) (s : State) :
    Within [.regs, .fresh, .out, .lamp] s (outcomeState (execLampFrameSent port mismatch s) s) := by
  unfold execLampFrameSent
  dsimp -zeta only [outcomeState]
  split
  · refine Within.ite ?_ ?_
    · exact Within.refl _ _
    · extract_lets y1 y2 y3 y4 y5 y6 y7 y8 y9 y10 y11 y12
      refine Within.via y2 ?_ fun _ => ?_
      · refine Within.trans ?_ ((State.emit_within ..).mono (by decide))
        exact (State.sendLine_within ..).mono (by decide)
      clear_value y1 y2
      refine Within.via y3 ?_ fun _ => ?_
      · refine Within.trans ?_ ((State.onLPort_within ..).mono (by decide))
        assumption
      clear_value y3
      refine Within.via y5 ?_ fun _ => ?_
      · refine Within.trans ?_ ((State.onLPort_within ..).mono (by decide))
        refine Within.trans ?_ ((State.inc_within ..).mono (by decide))
        assumption
      clear_value y4 y5
      refine Within.via y7 ?_ fun _ => ?_
      · refine Within.ite ?_ ?_
        · refine Within.trans ?_ ((State.lampStatus_within ..).mono (by decide))
          refine Within.trans ?_ ((State.flag_within ..).mono (by decide))
          assumption
        · assumption
      clear_value y6 y7
      refine Within.via y8 ?_ fun _ => ?_
      · refine Within.trans ?_ ((State.onLPort_within ..).mono (by decide))
        assumption
      clear_value y8
      refine Within.via y10 ?_ fun _ => ?_
      · refine Within.trans ?_ ((State.onLPort_within ..).mono (by decide))
        assumption
      clear_value y9 y10
      refine Within.via y11 ?_ fun _ => ?_
      · refine Within.trans ?_ ((State.onLamp_within ..).mono (by decide))
        assumption
      clear_value y11
      refine Within.via y12 ?_ fun _ => ?_
      · refine Within.ite ?_ ?_
        · refine Within.trans ?_ ((State.lampStatus_within ..).mono (by decide))
          refine Within.trans ?_ ((State.flag_within ..).mono (by decide))
          assumption
        · assumption
      clear_value y12
      refine Within.ite ?_ ?_
      · refine Within.ite ?_ ?_
        · refine Within.trans ?_ ((State.onLPort_within ..).mono (by decide))
          assumption
        · refine Within.trans ?_ ((State.refill_within ..).mono (by decide))
          refine Within.each _ _ (fun x a => ?_) ?_
          · exact (State.failBlock_within ..).mono (by decide)
          · assumption
      · refine Within.trans ?_ ((State.refill_within ..).mono (by decide))
        refine Within.trans ?_ ((State.settleBlocks_within ..).mono (by decide))
        assumption
  · exact Within.refl _ _

theorem State.sendSwap_within (s : State) :
    Within [.regs, .comp, .lamp] s (State.sendSwap s) := by
  unfold State.sendSwap
  extract_lets y1 y2 y3 y4
  refine Within.via y2 ?_ fun _ => ?_
  · refine Within.each _ _ (fun x a => ?_) ?_
    · refine Within.trans ?_ ((State.onLGroup_within ..).mono (by decide))
      refine Within.each _ _ (fun x a => ?_) ?_
      · exact (State.queueLamp_within ..).mono (by decide)
      · exact Within.refl _ _
    · exact Within.refl _ _
  clear_value y1 y2
  refine Within.via y3 ?_ fun _ => ?_
  · refine Within.trans ?_ ((State.onComp_within ..).mono (by decide))
    assumption
  clear_value y3
  refine Within.via y4 ?_ fun _ => ?_
  · refine Within.trans ?_ ((State.put_within ..).mono (by decide))
    assumption
  clear_value y4
  refine Within.ite ?_ ?_
  · assumption
  · refine Within.trans ?_ ((State.onLamp_within ..).mono (by decide))
    refine Within.trans ?_ ((State.flag_within ..).mono (by decide))
    refine Within.trans ?_ ((State.inc_within ..).mono (by decide))
    assumption

theorem execSwap_within (s : State) :
    Within [.regs, .comp, .lamp] s (outcomeState (execSwap s) s) := by
  unfold execSwap
  dsimp -zeta only [outcomeState]
  refine Within.ite ?_ ?_
  · exact (State.sendSwap_within ..).mono (by decide)
  · exact Within.refl _ _

theorem State.dropSlot_within (s : State) :
    Within [.regs, .fresh, .ring, .comp, .folds, .lamp] s (State.dropSlot s) := by
  unfold State.dropSlot
  extract_lets y1 y2 y3
  refine Within.via y1 ?_ fun _ => ?_
  · refine Within.each _ _ (fun x a => ?_) ?_
    · extract_lets y4
      refine Within.via y4 ?_ fun _ => ?_
      · refine Within.ite ?_ ?_
        · exact (State.inc_within ..).mono (by decide)
        · exact Within.refl _ _
      clear_value y4
      refine Within.ite ?_ ?_
      · refine Within.trans ?_ ((State.overrun_within ..).mono (by decide))
        assumption
      · assumption
    · exact Within.refl _ _
  clear_value y1
  refine Within.via y2 ?_ fun _ => ?_
  · refine Within.trans ?_ ((State.dropSlotFrames_within ..).mono (by decide))
    refine Within.trans ?_ ((State.flag_within ..).mono (by decide))
    refine Within.trans ?_ ((State.inc_within ..).mono (by decide))
    assumption
  clear_value y2
  refine Within.via y3 ?_ fun _ => ?_
  · refine Within.trans ?_ ((State.onComp_within ..).mono (by decide))
    assumption
  clear_value y3
  refine Within.trans ?_ ((State.put_within ..).mono (by decide))
  assumption

theorem execPushDeadline_within (s : State) :
    Within [.regs, .fresh, .ring, .comp, .folds, .lamp] s (outcomeState (execPushDeadline s) s) := by
  unfold execPushDeadline
  dsimp -zeta only [outcomeState]
  refine Within.ite ?_ ?_
  · exact Within.refl _ _
  · extract_lets y1 y2
    refine Within.via y1 ?_ fun _ => ?_
    · exact (State.onComp_within ..).mono (by decide)
    clear_value y1
    refine Within.via y2 ?_ fun _ => ?_
    · refine Within.ite ?_ ?_
      · assumption
      · refine Within.ite ?_ ?_
        · refine Within.trans ?_ ((State.sendSwap_within ..).mono (by decide))
          assumption
        · refine Within.trans ?_ ((State.dropSlot_within ..).mono (by decide))
          assumption
    clear_value y2
    refine Within.each _ _ (fun x a => ?_) ?_
    · exact (State.dropQueued_within ..).mono (by decide)
    · assumption

theorem State.programGroup_within (s : State) (g : ℕ) (gain : Bool) :
    Within [.lamp] s (State.programGroup s g gain) := by
  unfold State.programGroup
  refine Within.each _ _ (fun x a => ?_) ?_
  · extract_lets y1 y2 y3
    refine Within.via y1 ?_ fun _ => ?_
    · exact (State.queueLamp_within ..).mono (by decide)
    clear_value y1
    refine Within.via y2 ?_ fun _ => ?_
    · refine Within.each _ _ (fun x a => ?_) ?_
      · exact (State.queueLamp_within ..).mono (by decide)
      · assumption
    clear_value y2
    refine Within.via y3 ?_ fun _ => ?_
    · refine Within.ite ?_ ?_
      · refine Within.trans ?_ ((State.queueLamp_within ..).mono (by decide))
        assumption
      · assumption
    clear_value y3
    refine Within.trans ?_ ((State.pollPort_within ..).mono (by decide))
    refine Within.trans ?_ ((State.onLPort_within ..).mono (by decide))
    assumption
  · exact Within.refl _ _

theorem State.programDriver_within (s : State) (p : Nat) (h : Nat) :
    Within [.lamp] s (State.programDriver s p h) := by
  unfold State.programDriver
  refine Within.trans ?_ ((State.queueLamp_within ..).mono (by decide))
  exact (State.queueLamp_within ..).mono (by decide)

theorem State.finishProgram_within (s : State) (g : Nat) :
    Within [.regs, .lamp] s (State.finishProgram s g) := by
  unfold State.finishProgram
  refine Within.ite ?_ ?_
  · refine Within.trans ?_ ((State.lampStatus_within ..).mono (by decide))
    refine Within.trans ?_ ((State.invalidateGroup_within ..).mono (by decide))
    exact (State.onLGroup_within ..).mono (by decide)
  · exact Within.refl _ _

theorem execDriverProgram_within (group : Fin 4) (s : State) :
    Within [.regs, .lamp] s (outcomeState (execDriverProgram group s) s) := by
  unfold execDriverProgram
  dsimp -zeta only [outcomeState]
  refine Within.ite ?_ ?_
  · refine Within.trans ?_ ((State.finishProgram_within ..).mono (by decide))
    refine Within.trans ?_ ((State.programGroup_within ..).mono (by decide))
    exact (State.onLGroup_within ..).mono (by decide)
  · exact Within.refl _ _

theorem execBlank_within (group : Fin 4) (s : State) :
    Within [.regs, .fresh, .out, .lamp] s (outcomeState (execBlank group s) s) := by
  unfold execBlank
  dsimp -zeta only [outcomeState]
  refine Within.ite ?_ ?_
  · exact (State.enterBlank_within ..).mono (by decide)
  · exact Within.refl _ _

theorem State.enterHold_within (s : State) (g : ℕ) (first : ℕ) :
    Within [.regs, .out, .lamp] s (State.enterHold s g first) := by
  unfold State.enterHold
  extract_lets y1 y2 y3
  refine Within.via y1 ?_ fun _ => ?_
  · refine Within.trans ?_ ((State.inc_within ..).mono (by decide))
    exact (State.onLGroup_within ..).mono (by decide)
  clear_value y1
  refine Within.via y2 ?_ fun _ => ?_
  · refine Within.ite ?_ ?_
    · refine Within.trans ?_ ((State.setLsync_within ..).mono (by decide))
      assumption
    · assumption
  clear_value y2
  refine Within.via y3 ?_ fun _ => ?_
  · refine Within.each _ _ (fun x a => ?_) ?_
    · exact (State.dropQueued_within ..).mono (by decide)
    · assumption
  clear_value y3
  refine Within.trans ?_ ((State.lampStatus_within ..).mono (by decide))
  refine Within.trans ?_ ((State.programGroup_within ..).mono (by decide))
  assumption

theorem execTimingHoldResume_within (group : Fin 4) (s : State) :
    Within [.regs, .lamp] s (outcomeState (execTimingHoldResume group s) s) := by
  unfold execTimingHoldResume
  dsimp -zeta only [outcomeState]
  split
  · refine Within.ite ?_ ?_
    · refine Within.trans ?_ ((State.lampStatus_within ..).mono (by decide))
      refine Within.trans ?_ ((State.invalidateGroup_within ..).mono (by decide))
      exact (State.onLGroup_within ..).mono (by decide)
    · exact Within.refl _ _
  · exact Within.refl _ _

theorem execTimingHoldBlack_within (group : Fin 4) (s : State) :
    Within [.regs, .fresh, .out, .lamp] s (outcomeState (execTimingHoldBlack group s) s) := by
  unfold execTimingHoldBlack
  dsimp -zeta only [outcomeState]
  split
  · refine Within.ite ?_ ?_
    · refine Within.trans ?_ ((State.enterBlank_within ..).mono (by decide))
      refine Within.trans ?_ ((State.inc_within ..).mono (by decide))
      exact (State.onLGroup_within ..).mono (by decide)
    · exact Within.refl _ _
  · exact Within.refl _ _

theorem State.portStatus_within (s : State) (p : Nat) :
    Within [.regs] s (State.portStatus s p) := by
  unfold State.portStatus
  extract_lets y1 y2
  clear_value y1
  refine Within.via y2 ?_ fun _ => ?_
  · refine Within.trans ?_ ((State.flag_within ..).mono (by decide))
    exact (State.put_within ..).mono (by decide)
  clear_value y2
  refine Within.trans ?_ ((State.lampStatus_within ..).mono (by decide))
  refine Within.trans ?_ ((State.flag_within ..).mono (by decide))
  assumption

theorem State.summary_within (s : State) (p : ℕ) (h : ℕ) (b : Bytes) :
    Within [.regs, .lamp] s (State.summary s p h b) := by
  unfold State.summary
  extract_lets y1 y2 y3 y4 y5 y6 y7 y8 y9 y10 y11 y12 y13 y14 y15 y16 y17 y18 y19
  refine Within.via y8 ?_ fun _ => ?_
  · exact (State.onDriver_within ..).mono (by decide)
  clear_value y1 y2 y3 y4 y5 y6 y7 y8
  refine Within.via y9 ?_ fun _ => ?_
  · refine Within.trans ?_ ((State.add_within ..).mono (by decide))
    assumption
  clear_value y9
  refine Within.via y10 ?_ fun _ => ?_
  · refine Within.ite ?_ ?_
    · refine Within.trans ?_ ((State.inc_within ..).mono (by decide))
      assumption
    · assumption
  clear_value y10
  refine Within.via y11 ?_ fun _ => ?_
  · refine Within.ite ?_ ?_
    · refine Within.trans ?_ ((State.flag_within ..).mono (by decide))
      assumption
    · assumption
  clear_value y11
  refine Within.via y12 ?_ fun _ => ?_
  · refine Within.ite ?_ ?_
    · refine Within.trans ?_ ((State.flag_within ..).mono (by decide))
      assumption
    · assumption
  clear_value y12
  refine Within.via y14 ?_ fun _ => ?_
  · refine Within.ite ?_ ?_
    · refine Within.trans ?_ ((State.invalidateDriver_within ..).mono (by decide))
      assumption
    · assumption
  clear_value y13 y14
  refine Within.via y15 ?_ fun _ => ?_
  · refine Within.ite ?_ ?_
    · refine Within.trans ?_ ((State.programDriver_within ..).mono (by decide))
      assumption
    · assumption
  clear_value y15
  refine Within.via y19 ?_ fun _ => ?_
  · refine Within.ite ?_ ?_
    · refine Within.ite ?_ ?_
      · refine Within.trans ?_ ((State.onDriver_within ..).mono (by decide))
        assumption
      · refine Within.ite ?_ ?_
        · assumption
        · refine Within.trans ?_ ((State.queueLamp_within ..).mono (by decide))
          refine Within.trans ?_ ((State.programDriver_within ..).mono (by decide))
          assumption
    · assumption
  clear_value y16 y17 y18 y19
  refine Within.trans ?_ ((State.finishProgram_within ..).mono (by decide))
  refine Within.trans ?_ ((State.portStatus_within ..).mono (by decide))
  assumption

theorem execStatusResp_within (port : Fin 16) (codes : List ℕ) (s : State) :
    Within [.regs, .lamp] s (outcomeState (execStatusResp port codes s) s) := by
  unfold execStatusResp
  dsimp -zeta only [outcomeState]
  split
  · extract_lets y1 y2 y3 y4
    refine Within.via y4 ?_ fun _ => ?_
    · exact (State.onLPort_within ..).mono (by decide)
    clear_value y1 y2 y3 y4
    refine Within.ite ?_ ?_
    · exact Within.refl _ _
    · refine Within.ite ?_ ?_
      · refine Within.trans ?_ ((State.summary_within ..).mono (by decide))
        assumption
      · refine Within.trans ?_ ((State.onLamp_within ..).mono (by decide))
        assumption
  · exact Within.refl _ _

theorem execStatusReadTimeout_within (port : Fin 16) (s : State) :
    Within [.regs, .lamp] s (outcomeState (execStatusReadTimeout port s) s) := by
  unfold execStatusReadTimeout
  dsimp -zeta only [outcomeState]
  split
  · extract_lets y1 y2 y3 y4
    refine Within.via y1 ?_ fun _ => ?_
    · refine Within.trans ?_ ((State.onLPort_within ..).mono (by decide))
      exact (State.inc_within ..).mono (by decide)
    clear_value y1
    refine Within.via y2 ?_ fun _ => ?_
    · refine Within.trans ?_ ((State.onDriver_within ..).mono (by decide))
      assumption
    clear_value y2 y3
    refine Within.via y4 ?_ fun _ => ?_
    · refine Within.ite ?_ ?_
      · refine Within.trans ?_ ((State.put_within ..).mono (by decide))
        refine Within.trans ?_ ((State.flag_within ..).mono (by decide))
        assumption
      · assumption
    clear_value y4
    refine Within.ite ?_ ?_
    · exact Within.refl _ _
    · refine Within.ite ?_ ?_
      · assumption
      · refine Within.trans ?_ ((State.finishProgram_within ..).mono (by decide))
        refine Within.trans ?_ ((State.portStatus_within ..).mono (by decide))
        assumption
  · exact Within.refl _ _

theorem execReturnLanePhaseAlign_within (port : Fin 16) (s : State) :
    Within [.lamp] s (outcomeState (execReturnLanePhaseAlign port s) s) := by
  unfold execReturnLanePhaseAlign
  dsimp -zeta only [outcomeState]
  refine Within.ite ?_ ?_
  · exact (State.onLPort_within ..).mono (by decide)
  · exact Within.refl _ _

theorem execLampRefreshExpire_within (s : State) :
    Within [.lamp] s (outcomeState (execLampRefreshExpire s) s) := by
  unfold execLampRefreshExpire
  dsimp -zeta only [outcomeState]
  refine Within.ite ?_ ?_
  · refine Within.trans ?_ ((State.onLamp_within ..).mono (by decide))
    exact (State.invalidateAll_within ..).mono (by decide)
  · exact Within.refl _ _

theorem execFullRefresh_within (s : State) :
    Within [.lamp] s (outcomeState (execFullRefresh s) s) := by
  unfold execFullRefresh
  dsimp -zeta only [outcomeState]
  refine Within.ite ?_ ?_
  · exact (State.invalidateAll_within ..).mono (by decide)
  · exact Within.refl _ _

theorem State.lampClear_within (s : State) :
    Within [.regs] s (State.lampClear s) := by
  unfold State.lampClear
  extract_lets y1 y2
  refine Within.via y1 ?_ fun _ => ?_
  · exact (State.zero_within ..).mono (by decide)
  clear_value y1
  refine Within.via y2 ?_ fun _ => ?_
  · refine Within.each _ _ (fun x a => ?_) ?_
    · refine Within.trans ?_ ((State.zero_within ..).mono (by decide))
      exact (State.zero_within ..).mono (by decide)
    · assumption
  clear_value y2
  refine Within.each _ _ (fun x a => ?_) ?_
  · refine Within.trans ?_ ((State.zero_within ..).mono (by decide))
    refine Within.trans ?_ ((State.zero_within ..).mono (by decide))
    refine Within.trans ?_ ((State.zero_within ..).mono (by decide))
    refine Within.trans ?_ ((State.zero_within ..).mono (by decide))
    refine Within.trans ?_ ((State.zero_within ..).mono (by decide))
    exact (State.zero_within ..).mono (by decide)
  · assumption

theorem execLampClear_within (s : State) :
    Within [.regs] s (outcomeState (execLampClear s) s) := by
  unfold execLampClear
  dsimp -zeta only [outcomeState]
  refine Within.ite ?_ ?_
  · exact (State.lampClear_within ..).mono (by decide)
  · exact Within.refl _ _

theorem execDiagRoundStart_within (s : State) :
    Within [.lamp] s (outcomeState (execDiagRoundStart s) s) := by
  unfold execDiagRoundStart
  extract_lets y1
  refine Within.via y1 ?_ fun _ => ?_
  · exact (State.onLamp_within ..).mono (by decide)
  clear_value y1
  dsimp -zeta only [outcomeState]
  refine Within.ite ?_ ?_
  · refine Within.each _ _ (fun x a => ?_) ?_
    · refine Within.each _ _ (fun x a => ?_) ?_
      · refine Within.each _ _ (fun x a => ?_) ?_
        · exact (State.queueLamp_within ..).mono (by decide)
        · exact Within.refl _ _
      · exact Within.refl _ _
    · assumption
  · exact Within.refl _ _

theorem State.diagReset_within (s : State) (g : Nat) :
    Within [.mem, .mst] s (State.diagReset s g) := by
  unfold State.diagReset
  refine Within.each _ _ (fun x a => ?_) ?_
  · exact (State.memWrite_within ..).mono (by decide)
  · exact Within.refl _ _

theorem execDiagReadEnd_within (s : State) :
    Within [.regs, .mem, .mst, .lamp] s (outcomeState (execDiagReadEnd s) s) := by
  unfold execDiagReadEnd
  dsimp -zeta only [outcomeState]
  refine Within.ite ?_ ?_
  · extract_lets y1 y2 y3 y4 y5 y6 y7 y8
    refine Within.via y2 ?_ fun _ => ?_
    · refine Within.ite ?_ ?_
      · exact (State.flag_within ..).mono (by decide)
      · exact Within.refl _ _
    clear_value y1 y2
    refine Within.via y3 ?_ fun _ => ?_
    · refine Within.trans ?_ ((State.onLamp_within ..).mono (by decide))
      assumption
    clear_value y3
    refine Within.via y7 ?_ fun _ => ?_
    · refine Within.each _ _ (fun x a => ?_) ?_
      · exact (State.memWrite_within ..).mono (by decide)
      · assumption
    clear_value y4 y5 y6 y7
    refine Within.via y8 ?_ fun _ => ?_
    · refine Within.trans ?_ ((State.put_within ..).mono (by decide))
      refine Within.trans ?_ ((State.put_within ..).mono (by decide))
      refine Within.trans ?_ ((State.put_within ..).mono (by decide))
      assumption
    clear_value y8
    refine Within.trans ?_ ((State.onLamp_within ..).mono (by decide))
    refine Within.trans ?_ ((State.put_within ..).mono (by decide))
    assumption
  · exact Within.refl _ _

theorem execDiagProbe_within (s : State) :
    Within [.regs, .lamp] s (outcomeState (execDiagProbe s) s) := by
  unfold execDiagProbe
  dsimp -zeta only [outcomeState]
  refine Within.ite ?_ ?_
  · extract_lets y1
    refine Within.via y1 ?_ fun _ => ?_
    · exact (State.onLamp_within ..).mono (by decide)
    clear_value y1
    refine Within.each _ _ (fun x a => ?_) ?_
    · extract_lets y2
      clear_value y2
      refine Within.each _ _ (fun x a => ?_) ?_
      · extract_lets y3 y4 y5 y6 y7 y8
        clear_value y3 y4 y5 y6 y7 y8
        refine Within.ite ?_ ?_
        · exact Within.refl _ _
        · refine Within.ite ?_ ?_
          · exact (State.flag_within ..).mono (by decide)
          · exact (State.queueLamp_within ..).mono (by decide)
      · exact Within.refl _ _
    · assumption
  · exact Within.refl _ _

end Sys2Proof.Machine
end

