-- ==== Sys2Proof/Laws/WithinRegs.lean ====
section
/-! SUPPORT. What each operation and each meaning of Machine/Regs.lean can do to the state: the parts it may change, and that it
keeps the canonical form and the shape. -/
set_option Elab.async false
namespace Sys2Proof.Machine

theorem State.resetStatus_within (s : State) (isl : Nat) :
    Within [.regs] s (State.resetStatus s isl) := by
  unfold State.resetStatus
  extract_lets y1
  clear_value y1
  refine Within.each _ _ (fun x a => ?_) ?_
  · split
    · extract_lets y2 y3
      clear_value y2 y3
      exact (State.setReg_within ..).mono (by decide)
    · exact Within.refl _ _
  · exact Within.refl _ _

end Sys2Proof.Machine
end

