-- ==== Sys2Proof/Laws/WithinUnits.lean ====
section
/-! SUPPORT. What each operation and each meaning of Machine/Units.lean can do to the state: the parts it may change, and that it
keeps the canonical form and the shape. -/
set_option Elab.async false
namespace Sys2Proof.Machine

theorem State.flashSet_within (s : State) (a : Nat) (b : Bytes) :
    Within [.boot] s (State.flashSet s a b) := by
  unfold State.flashSet
  exact (State.onBoot_within ..).mono (by decide)

theorem State.flashErase_within (s : State) (a : Nat) :
    Within [.boot] s (State.flashErase s a) := by
  unfold State.flashErase
  exact (State.onBoot_within ..).mono (by decide)

theorem State.flashProgram_within (s : State) (a : Nat) (b : Bytes) :
    Within [.boot] s (State.flashProgram s a b) := by
  unfold State.flashProgram
  exact (State.flashSet_within ..).mono (by decide)

theorem State.startUnit_within (s : State) :
    Within [.boot] s (State.startUnit s) := by
  unfold State.startUnit
  split
  · exact Within.refl _ _
  · refine Within.ite ?_ ?_
    · exact Within.refl _ _
    · refine Within.ite ?_ ?_
      · exact (State.onBoot_within ..).mono (by decide)
      · refine Within.ite ?_ ?_
        · exact Within.refl _ _
        · exact (State.onBoot_within ..).mono (by decide)

theorem State.addJob_within (s : State) (j : Job) :
    Within [.boot] s (State.addJob s j) := by
  unfold State.addJob
  refine Within.trans ?_ ((State.startUnit_within ..).mono (by decide))
  exact (State.onBoot_within ..).mono (by decide)

theorem State.otpRegs_within (s : State) :
    Within [.regs] s (State.otpRegs s) := by
  unfold State.otpRegs
  extract_lets y1 y2 y3 y4
  clear_value y1
  refine Within.via y2 ?_ fun _ => ?_
  · exact (State.put_within ..).mono (by decide)
  clear_value y2
  refine Within.via y3 ?_ fun _ => ?_
  · refine Within.trans ?_ ((State.put_within ..).mono (by decide))
    refine Within.trans ?_ ((State.flag_within ..).mono (by decide))
    refine Within.trans ?_ ((State.put_within ..).mono (by decide))
    assumption
  clear_value y3
  refine Within.via y4 ?_ fun _ => ?_
  · refine Within.trans ?_ ((State.put_within ..).mono (by decide))
    refine Within.trans ?_ ((State.put64_within ..).mono (by decide))
    assumption
  clear_value y4
  split
  · refine Within.trans ?_ ((State.put_within ..).mono (by decide))
    refine Within.trans ?_ ((State.put_within ..).mono (by decide))
    refine Within.trans ?_ ((State.put_within ..).mono (by decide))
    refine Within.trans ?_ ((State.put_within ..).mono (by decide))
    refine Within.trans ?_ ((State.put_within ..).mono (by decide))
    assumption
  · assumption

theorem State.unitEffect_within (s : State) (u : FlashUnit) :
    Within [.regs, .boot, .bist] s (State.unitEffect s u) := by
  unfold State.unitEffect
  split
  · exact (State.flashErase_within ..).mono (by decide)
  · exact (State.flashProgram_within ..).mono (by decide)
  · refine Within.trans ?_ ((State.put_within ..).mono (by decide))
    exact (State.onBoot_within ..).mono (by decide)
  · refine Within.trans ?_ ((State.otpRegs_within ..).mono (by decide))
    exact (State.onBoot_within ..).mono (by decide)
  · refine Within.trans ?_ ((State.otpRegs_within ..).mono (by decide))
    exact (State.onBoot_within ..).mono (by decide)
  · refine Within.trans ?_ ((State.otpRegs_within ..).mono (by decide))
    exact (State.onBoot_within ..).mono (by decide)
  · refine Within.trans ?_ ((State.otpRegs_within ..).mono (by decide))
    exact (State.onBoot_within ..).mono (by decide)
  · exact (State.onBoot_within ..).mono (by decide)
  · refine Within.trans ?_ ((State.otpRegs_within ..).mono (by decide))
    refine Within.trans ?_ ((State.onBist_within ..).mono (by decide))
    exact (State.onBoot_within ..).mono (by decide)

theorem State.anyBytes_within (s : State) (n : Nat) :
    Within [.fresh] s (State.anyBytes s n).1 := by
  unfold State.anyBytes
  dsimp -zeta only
  refine Within.foldl _ _ (fun x a => ?_) ?_
  · exact (State.tickFresh_within ..).mono (by decide)
  · exact Within.refl _ _

theorem State.unitCut_within (s : State) :
    Within [.regs, .fresh, .boot, .bist] s (State.unitCut s) := by
  unfold State.unitCut
  split
  · split
    · extract_lets y1
      refine Within.via y1.1 ?_ fun _ => ?_
      · exact (State.anyBytes_within ..).mono (by decide)
      clear_value y1
      refine Within.trans ?_ ((State.flashSet_within ..).mono (by decide))
      assumption
    · extract_lets y2
      refine Within.via y2.1 ?_ fun _ => ?_
      · exact (State.anyBytes_within ..).mono (by decide)
      clear_value y2
      refine Within.trans ?_ ((State.flashSet_within ..).mono (by decide))
      assumption
    · refine Within.ite ?_ ?_
      · refine Within.trans ?_ ((State.unitEffect_within ..).mono (by decide))
        exact (State.tickFresh_within ..).mono (by decide)
      · exact (State.tickFresh_within ..).mono (by decide)
    · exact Within.refl _ _
  · exact Within.refl _ _

end Sys2Proof.Machine
end

