-- ==== Sys2Proof/Laws/WithinPower.lean ====
section
/-! SUPPORT. What each operation and each meaning of Machine/Power.lean can do to the state: the parts it may change, and that it
keeps the canonical form and the shape. -/
set_option Elab.async false
namespace Sys2Proof.Machine

theorem State.islandRegs_within (s : State) :
    Within [.regs] s (State.islandRegs s) := by
  unfold State.islandRegs
  refine Within.each _ _ (fun x a => ?_) ?_
  · extract_lets y1 y2 y3 y4
    clear_value y1 y2 y3
    refine Within.via y4 ?_ fun _ => ?_
    · refine Within.trans ?_ ((State.put_within ..).mono (by decide))
      exact (State.put_within ..).mono (by decide)
    clear_value y4
    refine Within.trans ?_ ((State.flag_within ..).mono (by decide))
    refine Within.trans ?_ ((State.flag_within ..).mono (by decide))
    assumption
  · exact Within.refl _ _

theorem State.xingLost_within (s : State) (i : Nat) (n : Nat) :
    Within [.regs] s (State.xingLost s i n) := by
  unfold State.xingLost
  refine Within.ite ?_ ?_
  · exact Within.refl _ _
  · refine Within.trans ?_ ((State.flag_within ..).mono (by decide))
    refine Within.trans ?_ ((State.add_within ..).mono (by decide))
    exact (State.add_within ..).mono (by decide)

theorem State.xingOverrun_within (s : State) (i : Nat) :
    Within [.regs] s (State.xingOverrun s i) := by
  unfold State.xingOverrun
  refine Within.trans ?_ ((State.flag_within ..).mono (by decide))
  refine Within.trans ?_ ((State.inc_within ..).mono (by decide))
  exact (State.inc_within ..).mono (by decide)

theorem execXingEvent_within (isl : Fin 9) (line : Nat) (s : State) :
    Within [.regs, .xing] s (outcomeState (execXingEvent isl line s) s) := by
  unfold execXingEvent
  dsimp -zeta only [outcomeState]
  refine Within.ite ?_ ?_
  · exact Within.refl _ _
  · refine Within.ite ?_ ?_
    · exact (State.xingLost_within ..).mono (by decide)
    · split
      · exact (State.onXing_within ..).mono (by decide)
      · refine Within.ite ?_ ?_
        · exact (State.xingOverrun_within ..).mono (by decide)
        · exact (State.onXing_within ..).mono (by decide)

theorem execXingAck_within (isl : Fin 9) (line : Nat) (s : State) :
    Within [.xing] s (outcomeState (execXingAck isl line s) s) := by
  unfold execXingAck
  extract_lets _
  dsimp -zeta only [outcomeState]
  exact (State.onXing_within ..).mono (by decide)

theorem State.dropFlights_within (s : State) (i : ℕ) :
    Within [.regs, .fresh, .xing] s (State.dropFlights s i) := by
  unfold State.dropFlights
  extract_lets y1 y2
  refine Within.via y2 ?_ fun _ => ?_
  · exact (State.onXing_within ..).mono (by decide)
  clear_value y1 y2
  refine Within.each _ _ (fun x a => ?_) ?_
  · refine Within.trans ?_ ((State.xingLost_within ..).mono (by decide))
    exact (State.tickFresh_within ..).mono (by decide)
  · assumption

theorem State.islandContent_within (s : State) (i : ℕ) :
    Within [.regs, .fresh, .out, .pwr, .time, .host, .ring, .link, .ingest, .lamp] s (State.islandContent s i) := by
  unfold State.islandContent
  refine Within.ite ?_ ?_
  · extract_lets y1
    refine Within.via y1 ?_ fun _ => ?_
    · refine Within.each _ _ (fun x a => ?_) ?_
      · refine Within.trans ?_ ((State.put_within ..).mono (by decide))
        exact (State.movePort_within ..).mono (by decide)
      · exact Within.refl _ _
    clear_value y1
    refine Within.trans ?_ ((State.onLink_within ..).mono (by decide))
    assumption
  · refine Within.ite ?_ ?_
    · refine Within.trans ?_ ((State.onTime_within ..).mono (by decide))
      exact (State.lockReset_within ..).mono (by decide)
    · refine Within.ite ?_ ?_
      · extract_lets y2 y3
        refine Within.via y2 ?_ fun _ => ?_
        · refine Within.each _ _ (fun x a => ?_) ?_
          · exact (State.onLPort_within ..).mono (by decide)
          · exact Within.refl _ _
        clear_value y2
        refine Within.via y3 ?_ fun _ => ?_
        · refine Within.each _ _ (fun x a => ?_) ?_
          · exact (State.onLGroup_within ..).mono (by decide)
          · assumption
        clear_value y3
        refine Within.trans ?_ ((State.onLamp_within ..).mono (by decide))
        refine Within.trans ?_ ((State.invalidateAll_within ..).mono (by decide))
        assumption
      · refine Within.ite ?_ ?_
        · refine Within.each _ _ (fun x a => ?_) ?_
          · exact (State.dpLost_within ..).mono (by decide)
          · exact Within.refl _ _
        · refine Within.ite ?_ ?_
          · exact (State.onIngest_within ..).mono (by decide)
          · refine Within.ite ?_ ?_
            · exact (State.onPwr_within ..).mono (by decide)
            · exact Within.refl _ _

theorem State.selfRefresh_within (s : State) (i : ℕ) (v : Bool) :
    Within [.regs] s (State.selfRefresh s i v) := by
  unfold State.selfRefresh
  refine Within.when _ _ (fun x => ?_) ?_
  · refine Within.each _ _ (fun x a => ?_) ?_
    · exact (State.flag_within ..).mono (by decide)
    · exact Within.refl _ _
  · exact Within.refl _ _

theorem State.resetIsland_within (s : State) (i : ℕ) (counted : Bool) :
    Within [.regs, .fresh, .out, .pwr, .xing, .time, .host, .ring, .link, .ingest, .lamp] s (State.resetIsland s i counted) := by
  unfold State.resetIsland
  refine Within.ite ?_ ?_
  · exact Within.refl _ _
  · extract_lets y1 y2
    refine Within.via y1 ?_ fun _ => ?_
    · refine Within.ite ?_ ?_
      · exact Within.refl _ _
      · refine Within.trans ?_ ((State.selfRefresh_within ..).mono (by decide))
        refine Within.trans ?_ ((State.resetStatus_within ..).mono (by decide))
        refine Within.trans ?_ ((State.islandContent_within ..).mono (by decide))
        exact (State.dropFlights_within ..).mono (by decide)
    clear_value y1
    refine Within.via y2 ?_ fun _ => ?_
    · refine Within.trans ?_ ((State.onXing_within ..).mono (by decide))
      assumption
    clear_value y2
    refine Within.trans ?_ ((State.transports_within ..).mono (by decide))
    refine Within.trans ?_ ((State.islandRegs_within ..).mono (by decide))
    refine Within.ite ?_ ?_
    · refine Within.trans ?_ ((State.inc_within ..).mono (by decide))
      assumption
    · assumption

theorem State.islandStart_within (s : State) (i : ℕ) :
    Within [.regs, .fresh, .out, .xing, .time, .host, .ring, .link, .mst, .ingest, .folds, .lamp, .therm, .bist, .latch] s (State.islandStart s i) := by
  unfold State.islandStart
  refine Within.ite ?_ ?_
  · refine Within.each _ _ (fun x a => ?_) ?_
    · refine Within.ite ?_ ?_
      · exact (State.toDetect_within ..).mono (by decide)
      · exact Within.refl _ _
    · exact Within.refl _ _
  · refine Within.ite ?_ ?_
    · exact (State.bwRelock_within ..).mono (by decide)
    · refine Within.ite ?_ ?_
      · exact (State.lampStatus_within ..).mono (by decide)
      · refine Within.ite ?_ ?_
        · exact (State.scrubAnew_within ..).mono (by decide)
        · exact Within.refl _ _

theorem State.releaseIsland_within (s : State) (i : ℕ) :
    Within [.regs, .fresh, .out, .xing, .time, .host, .ring, .link, .mst, .ingest, .folds, .lamp, .therm, .bist, .latch] s (State.releaseIsland s i) := by
  unfold State.releaseIsland
  refine Within.ite ?_ ?_
  · exact Within.refl _ _
  · refine Within.trans ?_ ((State.islandStart_within ..).mono (by decide))
    refine Within.trans ?_ ((State.selfRefresh_within ..).mono (by decide))
    refine Within.trans ?_ ((State.transports_within ..).mono (by decide))
    refine Within.trans ?_ ((State.islandRegs_within ..).mono (by decide))
    exact (State.onXing_within ..).mono (by decide)

theorem execIslandResetRelease_within (isl : Fin 9) (s : State) :
    Within [.regs, .fresh, .out, .xing, .time, .host, .ring, .link, .mst, .ingest, .folds, .lamp, .therm, .bist, .latch] s (outcomeState (execIslandResetRelease isl s) s) := by
  unfold execIslandResetRelease
  dsimp -zeta only [outcomeState]
  exact (State.releaseIsland_within ..).mono (by decide)

theorem State.clockLost_within (s : State) (i : ℕ) :
    Within [.regs, .fresh, .out, .pwr, .xing, .time, .host, .ring, .link, .ingest, .lamp] s (State.clockLost s i) := by
  unfold State.clockLost
  extract_lets y1
  refine Within.via y1 ?_ fun _ => ?_
  · refine Within.trans ?_ ((State.flag_within ..).mono (by decide))
    exact (State.onXing_within ..).mono (by decide)
  clear_value y1
  refine Within.ite ?_ ?_
  · refine Within.trans ?_ ((State.islandRegs_within ..).mono (by decide))
    assumption
  · refine Within.trans ?_ ((State.resetIsland_within ..).mono (by decide))
    assumption

theorem execIslandClockLost_within (isl : Fin 9) (s : State) :
    Within [.regs, .fresh, .out, .pwr, .xing, .time, .host, .ring, .link, .ingest, .lamp] s (outcomeState (execIslandClockLost isl s) s) := by
  unfold execIslandClockLost
  dsimp -zeta only [outcomeState]
  refine Within.ite ?_ ?_
  · exact Within.refl _ _
  · exact (State.clockLost_within ..).mono (by decide)

theorem execIslandClockStable_within (isl : Fin 9) (s : State) :
    Within [.regs, .fresh, .out, .xing, .time, .host, .ring, .link, .mst, .ingest, .folds, .lamp, .therm, .bist, .latch] s (outcomeState (execIslandClockStable isl s) s) := by
  unfold execIslandClockStable
  dsimp -zeta only [outcomeState]
  refine Within.ite ?_ ?_
  · exact Within.refl _ _
  · refine Within.trans ?_ ((State.releaseIsland_within ..).mono (by decide))
    refine Within.trans ?_ ((State.islandRegs_within ..).mono (by decide))
    exact (State.onXing_within ..).mono (by decide)

theorem execRefclkLoss_within (s : State) :
    Within [.regs, .fresh, .out, .pwr, .xing, .time, .host, .ring, .link, .ingest, .lamp] s (outcomeState (execRefclkLoss s) s) := by
  unfold execRefclkLoss
  dsimp -zeta only [outcomeState]
  refine Within.ite ?_ ?_
  · exact Within.refl _ _
  · refine Within.trans ?_ ((State.lockReset_within ..).mono (by decide))
    refine Within.each _ _ (fun x a => ?_) ?_
    · exact (State.clockLost_within ..).mono (by decide)
    · exact Within.refl _ _

theorem execXingStuck_within (isl : Fin 9) (line : ℕ) (s : State) :
    Within [.regs, .fresh, .out, .pwr, .xing, .time, .host, .ring, .link, .ingest, .lamp] s (outcomeState (execXingStuck isl line s) s) := by
  unfold execXingStuck
  dsimp -zeta only [outcomeState]
  refine Within.ite ?_ ?_
  · refine Within.trans ?_ ((State.resetIsland_within ..).mono (by decide))
    exact (State.flag_within ..).mono (by decide)
  · exact Within.refl _ _

theorem State.logConflict_within (s : State) (o : ℕ × ℕ) (c : ℕ) (byFlock : Bool) :
    Within [.regs] s (State.logConflict s o c byFlock) := by
  unfold State.logConflict
  extract_lets y1
  refine Within.via y1 ?_ fun _ => ?_
  · refine Within.trans ?_ ((State.put_within ..).mono (by decide))
    refine Within.trans ?_ ((State.put_within ..).mono (by decide))
    exact (State.inc_within ..).mono (by decide)
  clear_value y1
  refine Within.trans ?_ ((State.flag_within ..).mono (by decide))
  refine Within.trans ?_ ((State.flag_within ..).mono (by decide))
  refine Within.trans ?_ ((State.put_within ..).mono (by decide))
  assumption

theorem State.xingClear_within (s : State) :
    Within [.regs] s (State.xingClear s) := by
  unfold State.xingClear
  extract_lets y1
  refine Within.via y1 ?_ fun _ => ?_
  · refine Within.trans ?_ ((State.zero_within ..).mono (by decide))
    refine Within.trans ?_ ((State.zero_within ..).mono (by decide))
    refine Within.trans ?_ ((State.zero_within ..).mono (by decide))
    exact (State.zero_within ..).mono (by decide)
  clear_value y1
  refine Within.each _ _ (fun x a => ?_) ?_
  · refine Within.trans ?_ ((State.zero_within ..).mono (by decide))
    refine Within.trans ?_ ((State.zero_within ..).mono (by decide))
    exact (State.zero_within ..).mono (by decide)
  · assumption

theorem execXingClear_within (s : State) :
    Within [.regs] s (outcomeState (execXingClear s) s) := by
  unfold execXingClear
  dsimp -zeta only [outcomeState]
  refine Within.ite ?_ ?_
  · exact (State.xingClear_within ..).mono (by decide)
  · exact Within.refl _ _

theorem execPcieReset_within (s : State) :
    Within [.regs, .fresh, .out, .pwr, .xing, .time, .host, .ring, .link, .ingest, .lamp] s (outcomeState (execPcieReset s) s) := by
  unfold execPcieReset
  dsimp -zeta only [outcomeState]
  refine Within.ite ?_ ?_
  · refine Within.trans ?_ ((State.flag_within ..).mono (by decide))
    exact (State.resetIsland_within ..).mono (by decide)
  · exact Within.refl _ _

theorem execPcieLinkUp_within (s : State) :
    Within [.regs, .pwr, .host] s (outcomeState (execPcieLinkUp s) s) := by
  unfold execPcieLinkUp
  dsimp -zeta only [outcomeState]
  refine Within.ite ?_ ?_
  · refine Within.trans ?_ ((State.transports_within ..).mono (by decide))
    exact (State.onPwr_within ..).mono (by decide)
  · exact Within.refl _ _

theorem execPcieFlr_within (fn : Fin 4) (s : State) :
    Within [.regs, .pwr, .host] s (outcomeState (execPcieFlr fn s) s) := by
  unfold execPcieFlr
  dsimp -zeta only [outcomeState]
  refine Within.ite ?_ ?_
  · refine Within.trans ?_ ((State.transports_within ..).mono (by decide))
    exact (State.onPwr_within ..).mono (by decide)
  · exact Within.refl _ _

theorem execPcieFlrDone_within (fn : Fin 4) (s : State) :
    Within [.regs, .pwr, .host] s (outcomeState (execPcieFlrDone fn s) s) := by
  unfold execPcieFlrDone
  dsimp -zeta only [outcomeState]
  refine Within.trans ?_ ((State.transports_within ..).mono (by decide))
  exact (State.onPwr_within ..).mono (by decide)

theorem State.afterReset_within (s : State) (keepMem : Bool) :
    Within [.regs, .mem, .xing, .time, .pwr, .host, .ring, .link, .ingest, .mst, .comp, .folds, .lamp, .therm, .boot, .bist,
      .flocks, .txs, .latch] s (s.afterReset keepMem) := by
  refine ⟨fun p hp => by cases p <;> first | rfl | (simp at hp), fun w => ⟨?_, ?_⟩, fun q => ?_⟩
  · exact foldl_set_wf (fun a => a) (fun a => s.reg a) _ _ (resetRegs_wf _)
  · show Memory.wf (if keepMem then s.mem else []) = true
    split
    · exact w.2
    · rfl
  · obtain ⟨_, q1, q2, _, _, _, _, _, _, _, _, q11, q12, _, q14⟩ := q
    obtain ⟨r0, _, r2, r3, r4, r5, r6, r7, r8, r9, r10, r11, _, r13, r14⟩ := State.reset_shaped
    refine ⟨rfl, ⟨rfl, q1.2.1, q1.2.2⟩, ?_, r3, r4, r5, r6, r7, r8, r9, r10, ⟨q11.1, q11.2.1, q11.2.2.1, r11.2.2.2⟩, q12, r13, ?_⟩
    · show HostSt.shaped (if keepMem then _ else _)
      split
      · exact ⟨(List.length_map ..).trans q2.1, q2.2⟩
      · exact r2
    · show (if keepMem then s.txs else State.reset.txs).length = 8
      split
      · exact q14
      · exact r14

theorem State.nodeReset_within (s : State) (keepMem : Bool) :
    Within [.regs, .mem, .pwr, .xing, .time, .host, .ring, .link, .ingest, .mst, .comp, .folds, .lamp, .therm, .boot, .bist, .flocks, .txs, .latch] s (State.nodeReset s keepMem) := by
  unfold State.nodeReset
  extract_lets y1 y2 y3 y4
  refine Within.via y1 ?_ fun _ => ?_
  · exact (State.afterReset_within ..).mono (by decide)
  clear_value y1
  refine Within.via y2 ?_ fun _ => ?_
  · refine Within.trans ?_ ((State.put_within ..).mono (by decide))
    refine Within.trans ?_ ((State.flag_within ..).mono (by decide))
    assumption
  clear_value y2
  refine Within.via y3 ?_ fun _ => ?_
  · refine Within.trans ?_ ((State.put_within ..).mono (by decide))
    assumption
  clear_value y3
  refine Within.via y4 ?_ fun _ => ?_
  · refine Within.ite ?_ ?_
    · refine Within.trans ?_ ((State.flag_within ..).mono (by decide))
      assumption
    · assumption
  clear_value y4
  refine Within.trans ?_ ((State.islandRegs_within ..).mono (by decide))
  assumption

theorem State.cause_within (s : State) (f : Fld) (last : Nat) :
    Within [.regs] s (State.cause s f last) := by
  unfold State.cause
  refine Within.trans ?_ ((State.put_within ..).mono (by decide))
  exact (State.flag_within ..).mono (by decide)

theorem State.hardBlank_within (s : State) :
    Within [.fresh, .out, .lamp] s (State.hardBlank s) := by
  unfold State.hardBlank
  refine Within.ite ?_ ?_
  · refine Within.each _ _ (fun x a => ?_) ?_
    · extract_lets y1
      refine Within.via y1 ?_ fun _ => ?_
      · dsimp -zeta only [y1]
        split
        · exact (State.abortFrame_within ..).mono (by decide)
        · exact Within.refl _ _
      clear_value y1
      refine Within.trans ?_ ((State.emit_within ..).mono (by decide))
      refine Within.trans ?_ ((State.sendLine_within ..).mono (by decide))
      refine Within.trans ?_ ((State.onLPort_within ..).mono (by decide))
      assumption
    · exact Within.refl _ _
  · exact Within.refl _ _

theorem State.coldStart_within (s : State) (f : Fld) (last : Nat) :
    Within [.regs, .mem, .pwr, .xing, .time, .host, .ring, .link, .ingest, .mst, .comp, .folds, .lamp, .therm, .boot, .bist, .flocks, .txs, .latch] s (State.coldStart s f last) := by
  unfold State.coldStart
  extract_lets y1
  refine Within.via y1 ?_ fun _ => ?_
  · refine Within.trans ?_ ((State.cause_within ..).mono (by decide))
    exact (State.nodeReset_within ..).mono (by decide)
  clear_value y1
  refine Within.trans ?_ ((State.onBoot_within ..).mono (by decide))
  assumption

theorem State.powerDown_within (s : State) :
    Within [.regs, .mem, .fresh, .pwr, .xing, .time, .host, .ring, .link, .ingest, .mst, .comp, .folds, .lamp, .therm, .boot, .bist, .flocks, .txs, .latch] s (State.powerDown s) := by
  unfold State.powerDown
  extract_lets y1 y2 y3 y4 y5
  refine Within.via y1 ?_ fun _ => ?_
  · exact (State.unitCut_within ..).mono (by decide)
  clear_value y1
  refine Within.via y2 ?_ fun _ => ?_
  · refine Within.trans ?_ ((State.onBoot_within ..).mono (by decide))
    assumption
  clear_value y2
  refine Within.via y3 ?_ fun _ => ?_
  · refine Within.trans ?_ ((State.nodeReset_within ..).mono (by decide))
    assumption
  clear_value y3
  refine Within.via y4 ?_ fun _ => ?_
  · refine Within.trans ?_ ((State.onPwr_within ..).mono (by decide))
    assumption
  clear_value y4
  refine Within.via y5 ?_ fun _ => ?_
  · refine Within.trans ?_ ((State.onXing_within ..).mono (by decide))
    assumption
  clear_value y5
  refine Within.trans ?_ ((State.islandRegs_within ..).mono (by decide))
  refine Within.trans ?_ ((State.flag_within ..).mono (by decide))
  refine Within.trans ?_ ((State.put_within ..).mono (by decide))
  assumption

theorem State.brownout_within (s : State) (rail : Nat) :
    Within [.regs, .mem, .fresh, .out, .pwr, .xing, .time, .host, .ring, .link, .ingest, .mst, .comp, .folds, .lamp, .therm, .boot, .bist, .flocks, .txs, .latch] s (State.brownout s rail) := by
  unfold State.brownout
  extract_lets y1 y2 y3 y4 y5
  refine Within.via y1 ?_ fun _ => ?_
  · refine Within.ite ?_ ?_
    · exact Within.refl _ _
    · exact (State.hardBlank_within ..).mono (by decide)
  clear_value y1
  refine Within.via y2 ?_ fun _ => ?_
  · refine Within.trans ?_ ((State.powerDown_within ..).mono (by decide))
    assumption
  clear_value y2
  refine Within.via y3 ?_ fun _ => ?_
  · refine Within.trans ?_ ((State.onPwr_within ..).mono (by decide))
    assumption
  clear_value y3 y4
  refine Within.via y5 ?_ fun _ => ?_
  · refine Within.trans ?_ ((State.put_within ..).mono (by decide))
    assumption
  clear_value y5
  refine Within.ite ?_ ?_
  · refine Within.trans ?_ ((State.onPwr_within ..).mono (by decide))
    assumption
  · assumption

theorem State.rails_within (s : State) (mv : List Nat) :
    Within [.regs] s (State.rails s mv) := by
  unfold State.rails
  extract_lets y1
  refine Within.via y1 ?_ fun _ => ?_
  · refine Within.each _ _ (fun x a => ?_) ?_
    · exact (State.put_within ..).mono (by decide)
    · exact Within.refl _ _
  clear_value y1
  refine Within.trans ?_ ((State.put_within ..).mono (by decide))
  assumption

theorem State.unpowered_within (s : State) :
    Within [.regs, .mem, .pwr, .xing, .time, .host, .ring, .link, .ingest, .mst, .comp, .folds, .lamp, .therm, .boot, .bist,
      .flocks, .txs, .latch] s s.unpowered := by
  refine ⟨fun p hp => by cases p <;> first | rfl | (simp at hp), fun _ => ⟨resetCells_wf, rfl⟩, fun q => ?_⟩
  obtain ⟨_, _, _, _, _, _, _, _, _, _, _, _, q12, _⟩ := q
  obtain ⟨r0, r1, r2, r3, r4, r5, r6, r7, r8, r9, r10, r11, _, r13, r14⟩ := State.reset_shaped
  exact ⟨r0, r1, r2, r3, r4, r5, r6, r7, r8, r9, r10, r11, q12, r13, r14⟩

theorem execPorNAssert_within (s : State) :
    Within [.regs, .mem, .fresh, .pwr, .xing, .time, .host, .ring, .link, .ingest, .mst, .comp, .folds, .lamp, .therm, .boot, .bist, .flocks, .txs, .latch] s (outcomeState (execPorNAssert s) s) := by
  unfold execPorNAssert
  dsimp -zeta only [outcomeState]
  refine Within.trans ?_ ((State.unpowered_within ..).mono (by decide))
  exact (State.unitCut_within ..).mono (by decide)

theorem execPorNRise_within (straps : Nat) (s : State) :
    Within [.regs, .pwr, .xing] s (outcomeState (execPorNRise straps s) s) := by
  unfold execPorNRise
  extract_lets y1 y2 y3 y4
  clear_value y1
  refine Within.via y2 ?_ fun _ => ?_
  · exact (State.loadResets_within ..).mono (by decide)
  clear_value y2
  refine Within.via y3 ?_ fun _ => ?_
  · refine Within.trans ?_ ((State.setReg_within ..).mono (by decide))
    assumption
  clear_value y3
  refine Within.via y4 ?_ fun _ => ?_
  · refine Within.trans ?_ ((State.onPwr_within ..).mono (by decide))
    assumption
  clear_value y4
  dsimp -zeta only [outcomeState]
  refine Within.ite ?_ ?_
  · exact Within.refl _ _
  · refine Within.trans ?_ ((State.islandRegs_within ..).mono (by decide))
    refine Within.trans ?_ ((State.onXing_within ..).mono (by decide))
    assumption

theorem execPowerStep_within (mv : List Nat) (s : State) :
    Within [.regs, .pwr] s (outcomeState (execPowerStep mv s) s) := by
  unfold execPowerStep
  extract_lets y1 y2 y3
  clear_value y1
  refine Within.via y2 ?_ fun _ => ?_
  · refine Within.trans ?_ ((State.onPwr_within ..).mono (by decide))
    exact (State.rails_within ..).mono (by decide)
  clear_value y2
  refine Within.via y3 ?_ fun _ => ?_
  · refine Within.trans ?_ ((State.put_within ..).mono (by decide))
    assumption
  clear_value y3
  dsimp -zeta only [outcomeState]
  refine Within.ite ?_ ?_
  · refine Within.ite ?_ ?_
    · refine Within.trans ?_ ((State.put_within ..).mono (by decide))
      refine Within.trans ?_ ((State.otpRegs_within ..).mono (by decide))
      assumption
    · assumption
  · exact Within.refl _ _

theorem execPowerGood_within (mv : List ℕ) (s : State) :
    Within [.regs, .fresh, .out, .pwr, .xing, .time, .host, .ring, .link, .mst, .ingest, .folds, .lamp, .therm, .boot, .bist, .latch] s (outcomeState (execPowerGood mv s) s) := by
  unfold execPowerGood
  dsimp -zeta only [outcomeState]
  refine Within.ite ?_ ?_
  · extract_lets y1 y2 y3 y4 y5 y6 y7
    refine Within.via y1 ?_ fun _ => ?_
    · refine Within.trans ?_ ((State.flag_within ..).mono (by decide))
      exact (State.rails_within ..).mono (by decide)
    clear_value y1
    refine Within.via y2 ?_ fun _ => ?_
    · refine Within.trans ?_ ((State.put_within ..).mono (by decide))
      assumption
    clear_value y2
    refine Within.via y3 ?_ fun _ => ?_
    · refine Within.trans ?_ ((State.flag_within ..).mono (by decide))
      assumption
    clear_value y3
    refine Within.via y4 ?_ fun _ => ?_
    · refine Within.trans ?_ ((State.onXing_within ..).mono (by decide))
      assumption
    clear_value y4
    refine Within.via y6 ?_ fun _ => ?_
    · refine Within.trans ?_ ((State.onPwr_within ..).mono (by decide))
      assumption
    clear_value y5 y6
    refine Within.via y7 ?_ fun _ => ?_
    · refine Within.trans ?_ ((State.onBoot_within ..).mono (by decide))
      assumption
    clear_value y7
    refine Within.trans ?_ ((State.islandRegs_within ..).mono (by decide))
    refine Within.each _ _ (fun x a => ?_) ?_
    · exact (State.releaseIsland_within ..).mono (by decide)
    · assumption
  · exact Within.refl _ _

theorem execRailEnableTimeout_within (s : State) :
    Within [.regs, .mem, .fresh, .out, .pwr, .xing, .time, .host, .ring, .link, .ingest, .mst, .comp, .folds, .lamp, .therm, .boot, .bist, .flocks, .txs, .latch] s (outcomeState (execRailEnableTimeout s) s) := by
  unfold execRailEnableTimeout
  dsimp -zeta only [outcomeState]
  refine Within.ite ?_ ?_
  · exact (State.brownout_within ..).mono (by decide)
  · exact Within.refl _ _

theorem execBrownout_within (rail : Fin 7) (mv0 : Nat) (mv1 : Nat) (s : State) :
    Within [.regs, .mem, .fresh, .out, .pwr, .xing, .time, .host, .ring, .link, .ingest, .mst, .comp, .folds, .lamp, .therm, .boot, .bist, .flocks, .txs, .latch] s (outcomeState (execBrownout rail mv0 mv1 s) s) := by
  unfold execBrownout
  dsimp -zeta only [outcomeState]
  refine Within.ite ?_ ?_
  · refine Within.trans ?_ ((State.put_within ..).mono (by decide))
    refine Within.trans ?_ ((State.put_within ..).mono (by decide))
    exact (State.brownout_within ..).mono (by decide)
  · exact Within.refl _ _

theorem execBrownoutRestart_within (s : State) :
    Within [.regs, .pwr] s (outcomeState (execBrownoutRestart s) s) := by
  unfold execBrownoutRestart
  extract_lets y1
  refine Within.via y1 ?_ fun _ => ?_
  · refine Within.trans ?_ ((State.onPwr_within ..).mono (by decide))
    exact (State.cause_within ..).mono (by decide)
  clear_value y1
  dsimp -zeta only [outcomeState]
  refine Within.ite ?_ ?_
  · refine Within.trans ?_ ((State.put_within ..).mono (by decide))
    refine Within.trans ?_ ((State.otpRegs_within ..).mono (by decide))
    refine Within.trans ?_ ((State.put_within ..).mono (by decide))
    assumption
  · exact Within.refl _ _

theorem execResetNAssert_within (widthNs : ℕ) (s : State) :
    Within [.regs, .mem, .fresh, .pwr, .xing, .time, .host, .ring, .link, .ingest, .mst, .comp, .folds, .lamp, .therm, .boot, .bist, .flocks, .txs, .latch] s (outcomeState (execResetNAssert widthNs s) s) := by
  unfold execResetNAssert
  dsimp -zeta only [outcomeState]
  extract_lets y1 y2 y3 y4
  refine Within.via y3 ?_ fun _ => ?_
  · refine Within.ite ?_ ?_
    · exact (State.tickFresh_within ..).mono (by decide)
    · exact Within.refl _ _
  clear_value y1 y2 y3
  refine Within.via y4 ?_ fun _ => ?_
  · refine Within.ite ?_ ?_
    · refine Within.trans ?_ ((State.nodeReset_within ..).mono (by decide))
      assumption
    · assumption
  clear_value y4
  refine Within.ite ?_ ?_
  · refine Within.trans ?_ ((State.onPwr_within ..).mono (by decide))
    refine Within.trans ?_ ((State.cause_within ..).mono (by decide))
    assumption
  · assumption

theorem execResetNRelease_within (s : State) :
    Within [.regs, .fresh, .out, .pwr, .xing, .time, .host, .ring, .link, .mst, .ingest, .folds, .lamp, .therm, .boot, .bist, .latch] s (outcomeState (execResetNRelease s) s) := by
  unfold execResetNRelease
  dsimp -zeta only [outcomeState]
  refine Within.ite ?_ ?_
  · extract_lets y1 y2
    refine Within.via y1 ?_ fun _ => ?_
    · exact (State.onPwr_within ..).mono (by decide)
    clear_value y1
    refine Within.via y2 ?_ fun _ => ?_
    · refine Within.trans ?_ ((State.onBoot_within ..).mono (by decide))
      refine Within.trans ?_ ((State.onPwr_within ..).mono (by decide))
      assumption
    clear_value y2
    refine Within.ite ?_ ?_
    · refine Within.each _ _ (fun x a => ?_) ?_
      · exact (State.releaseIsland_within ..).mono (by decide)
      · assumption
    · assumption
  · exact Within.refl _ _

theorem State.releaseNode_within (s : State) :
    Within [.regs, .fresh, .out, .pwr, .xing, .time, .host, .ring, .link, .mst, .ingest, .folds, .lamp, .therm, .bist, .latch] s (State.releaseNode s) := by
  unfold State.releaseNode
  refine Within.ite ?_ ?_
  · extract_lets y1
    refine Within.via y1 ?_ fun _ => ?_
    · exact (State.onPwr_within ..).mono (by decide)
    clear_value y1
    refine Within.each _ _ (fun x a => ?_) ?_
    · exact (State.releaseIsland_within ..).mono (by decide)
    · assumption
  · exact Within.refl _ _

theorem State.rstRequest_within (s : State) (v : Nat) :
    Within [.regs, .pwr] s (State.rstRequest s v) := by
  unfold State.rstRequest
  extract_lets y1 y2
  clear_value y1
  refine Within.via y2 ?_ fun _ => ?_
  · exact (State.setReg_within ..).mono (by decide)
  clear_value y2
  refine Within.trans ?_ ((State.onPwr_within ..).mono (by decide))
  assumption

theorem execRstWarm_within (ctx : Fin 8) (s : State) :
    Within [.regs, .out, .pwr, .host, .ring] s (outcomeState (execRstWarm ctx s) s) := by
  unfold execRstWarm
  dsimp -zeta only [outcomeState]
  refine Within.ite ?_ ?_
  · exact Within.refl _ _
  · refine Within.ite ?_ ?_
    · exact (State.rstRequest_within ..).mono (by decide)
    · exact (State.ctxFault_within ..).mono (by decide)

theorem execRstPowerOff_within (ctx : Fin 8) (s : State) :
    Within [.regs, .out, .pwr, .host, .ring] s (outcomeState (execRstPowerOff ctx s) s) := by
  unfold execRstPowerOff
  dsimp -zeta only [outcomeState]
  refine Within.ite ?_ ?_
  · exact Within.refl _ _
  · refine Within.ite ?_ ?_
    · exact (State.rstRequest_within ..).mono (by decide)
    · exact (State.ctxFault_within ..).mono (by decide)

theorem execRstIsland_within (ctx : Fin 8) (mask : Nat) (s : State) :
    Within [.regs, .out, .pwr, .host, .ring] s (outcomeState (execRstIsland ctx mask s) s) := by
  unfold execRstIsland
  dsimp -zeta only [outcomeState]
  refine Within.ite ?_ ?_
  · exact Within.refl _ _
  · refine Within.ite ?_ ?_
    · exact (State.rstRequest_within ..).mono (by decide)
    · exact (State.ctxFault_within ..).mono (by decide)

theorem execRstFold_within (ctx : Fin 8) (mask : Nat) (s : State) :
    Within [.regs, .out, .pwr, .host, .ring] s (outcomeState (execRstFold ctx mask s) s) := by
  unfold execRstFold
  dsimp -zeta only [outcomeState]
  refine Within.ite ?_ ?_
  · exact Within.refl _ _
  · refine Within.ite ?_ ?_
    · exact (State.rstRequest_within ..).mono (by decide)
    · exact (State.ctxFault_within ..).mono (by decide)

theorem State.rstIsland_within (s : State) (i : ℕ) :
    Within [.regs, .fresh, .out, .pwr, .xing, .time, .host, .ring, .link, .ingest, .lamp] s (State.rstIsland s i) := by
  unfold State.rstIsland
  refine Within.trans ?_ ((State.onXing_within ..).mono (by decide))
  exact (State.resetIsland_within ..).mono (by decide)

theorem execRstCtlAction_within (s : State) :
    Within [.regs, .mem, .fresh, .out, .pwr, .xing, .time, .host, .ring, .link, .ingest, .mst, .comp, .folds, .lamp, .therm, .boot, .bist, .flocks, .txs, .latch] s (outcomeState (execRstCtlAction s) s) := by
  unfold execRstCtlAction
  dsimp -zeta only [outcomeState]
  split
  · exact Within.refl _ _
  · refine Within.ite ?_ ?_
    · exact Within.refl _ _
    · extract_lets y1 y2 y3
      refine Within.via y1 ?_ fun _ => ?_
      · exact (State.onPwr_within ..).mono (by decide)
      clear_value y1
      refine Within.via y2 ?_ fun _ => ?_
      · refine Within.when _ _ (fun x => ?_) ?_
        · exact (State.setReg_within ..).mono (by decide)
        · assumption
      clear_value y2
      refine Within.via y3 ?_ fun _ => ?_
      · refine Within.each _ _ (fun x a => ?_) ?_
        · exact (State.rstIsland_within ..).mono (by decide)
        · assumption
      clear_value y3
      refine Within.ite ?_ ?_
      · refine Within.trans ?_ ((State.onPwr_within ..).mono (by decide))
        refine Within.trans ?_ ((State.powerDown_within ..).mono (by decide))
        refine Within.trans ?_ ((State.hardBlank_within ..).mono (by decide))
        assumption
      · refine Within.ite ?_ ?_
        · refine Within.trans ?_ ((State.releaseNode_within ..).mono (by decide))
          refine Within.trans ?_ ((State.coldStart_within ..).mono (by decide))
          assumption
        · refine Within.each _ _ (fun x a => ?_) ?_
          · exact (State.foldReset_within ..).mono (by decide)
          · assumption

end Sys2Proof.Machine
end

