-- ==== Sys2Proof/Laws/WithinTherm.lean ====
section
/-! SUPPORT. What each operation and each meaning of Machine/Therm.lean can do to the state: the parts it may change, and that it
keeps the canonical form and the shape. -/
set_option Elab.async false
namespace Sys2Proof.Machine

theorem State.thermEvent_within (s : State) (f : Fld) :
    Within [.regs, .out, .host, .ring] s (State.thermEvent s f) := by
  unfold State.thermEvent
  refine Within.trans ?_ ((State.irqAll_within ..).mono (by decide))
  exact (State.flag_within ..).mono (by decide)

theorem State.onRegion_within (s : State) (r : Nat) (f : Region → Region) :
    Within [.therm] s (State.onRegion s r f) := by
  unfold State.onRegion
  exact (State.onTherm_within ..).mono (by decide)

theorem State.thermRegs_within (s : State) :
    Within [.regs] s (State.thermRegs s) := by
  unfold State.thermRegs
  extract_lets y1 y2 y3 y4
  clear_value y1 y2
  refine Within.via y3 ?_ fun _ => ?_
  · refine Within.trans ?_ ((State.flag_within ..).mono (by decide))
    exact (State.flag_within ..).mono (by decide)
  clear_value y3
  refine Within.via y4 ?_ fun _ => ?_
  · refine Within.trans ?_ ((State.flag_within ..).mono (by decide))
    refine Within.trans ?_ ((State.flag_within ..).mono (by decide))
    assumption
  clear_value y4
  refine Within.trans ?_ ((State.put_within ..).mono (by decide))
  refine Within.trans ?_ ((State.put_within ..).mono (by decide))
  assumption

theorem State.paces_within (s : State) :
    Within [.regs] s (State.paces s) := by
  unfold State.paces
  refine Within.each _ _ (fun x a => ?_) ?_
  · exact (State.put_within ..).mono (by decide)
  · exact Within.refl _ _

theorem State.dutyLimits_within (s : State) :
    Within [.regs, .therm] s (State.dutyLimits s) := by
  unfold State.dutyLimits
  refine Within.trans ?_ ((State.paces_within ..).mono (by decide))
  exact (State.onTherm_within ..).mono (by decide)

theorem State.controllerTick_within (s : State) (r : Nat) :
    Within [.regs, .therm] s (State.controllerTick s r) := by
  unfold State.controllerTick
  extract_lets y1 y2 y3 y4
  clear_value y1 y2 y3 y4
  refine Within.trans ?_ ((State.paces_within ..).mono (by decide))
  exact (State.onRegion_within ..).mono (by decide)

theorem execThrottleTick_within (region : Fin 6) (s : State) :
    Within [.regs, .therm] s (outcomeState (execThrottleTick region s) s) := by
  unfold execThrottleTick
  dsimp -zeta only [outcomeState]
  refine Within.ite ?_ ?_
  · exact (State.controllerTick_within ..).mono (by decide)
  · exact Within.refl _ _

theorem State.writeDiv_within (s : State) (d : ℕ) :
    Within [.regs, .therm] s (State.writeDiv s d) := by
  unfold State.writeDiv
  refine Within.trans ?_ ((State.dutyLimits_within ..).mono (by decide))
  exact (State.put_within ..).mono (by decide)

theorem execThrottleDivWrite_within (div : Fin 4) (s : State) :
    Within [.regs, .therm] s (outcomeState (execThrottleDivWrite div s) s) := by
  unfold execThrottleDivWrite
  dsimp -zeta only [outcomeState]
  refine Within.ite ?_ ?_
  · exact (State.writeDiv_within ..).mono (by decide)
  · exact Within.refl _ _

theorem State.regionChanged_within (s : State) (r : ℕ) (old : Region) :
    Within [.regs, .out, .host, .ring, .therm] s (State.regionChanged s r old) := by
  unfold State.regionChanged
  extract_lets y1 y2 y3 y4 y5 y6
  refine Within.via y2 ?_ fun _ => ?_
  · refine Within.ite ?_ ?_
    · exact (State.thermEvent_within ..).mono (by decide)
    · exact Within.refl _ _
  clear_value y1 y2
  refine Within.via y3 ?_ fun _ => ?_
  · refine Within.ite ?_ ?_
    · refine Within.trans ?_ ((State.thermEvent_within ..).mono (by decide))
      assumption
    · assumption
  clear_value y3
  refine Within.via y4 ?_ fun _ => ?_
  · refine Within.ite ?_ ?_
    · refine Within.trans ?_ ((State.thermEvent_within ..).mono (by decide))
      assumption
    · assumption
  clear_value y4
  refine Within.via y5 ?_ fun _ => ?_
  · refine Within.trans ?_ ((State.thermEvent_within ..).mono (by decide))
    assumption
  clear_value y5
  refine Within.via y6 ?_ fun _ => ?_
  · refine Within.ite ?_ ?_
    · refine Within.ite ?_ ?_
      · refine Within.trans ?_ ((State.controllerTick_within ..).mono (by decide))
        refine Within.trans ?_ ((State.onRegion_within ..).mono (by decide))
        assumption
      · assumption
    · assumption
  clear_value y6
  refine Within.trans ?_ ((State.thermRegs_within ..).mono (by decide))
  assumption

theorem State.evalState_within (s : State) (r : Nat) (k : Nat) (enter : Bool) (leave : Bool) :
    Within [.regs, .out, .host, .ring, .therm] s (State.evalState s r k enter leave) := by
  unfold State.evalState
  extract_lets y1 y2
  clear_value y1
  refine Within.via y2 ?_ fun _ => ?_
  · exact (State.onRegion_within ..).mono (by decide)
  clear_value y2
  refine Within.trans ?_ ((State.regionChanged_within ..).mono (by decide))
  assumption

theorem State.evalLevels_within (s : State) (r : Nat) :
    Within [.regs, .out, .host, .ring, .therm] s (State.evalLevels s r) := by
  unfold State.evalLevels
  extract_lets y1 y2 y3 y4
  clear_value y1 y2 y3
  refine Within.via y4 ?_ fun _ => ?_
  · exact (State.evalState_within ..).mono (by decide)
  clear_value y4
  refine Within.trans ?_ ((State.evalState_within ..).mono (by decide))
  assumption

theorem execThresholdDwellExpire_within (region : Fin 6) (state : Fin 5) (s : State) :
    Within [.regs, .out, .host, .ring, .therm] s (outcomeState (execThresholdDwellExpire region state s) s) := by
  unfold execThresholdDwellExpire
  extract_lets y1
  clear_value y1
  dsimp -zeta only [outcomeState]
  refine Within.ite ?_ ?_
  · refine Within.ite ?_ ?_
    · refine Within.trans ?_ ((State.onTherm_within ..).mono (by decide))
      exact (State.flag_within ..).mono (by decide)
    · exact Within.refl _ _
  · refine Within.ite ?_ ?_
    · refine Within.trans ?_ ((State.regionChanged_within ..).mono (by decide))
      exact (State.onRegion_within ..).mono (by decide)
    · exact Within.refl _ _

theorem State.onCal_within (s : State) (u : Nat) (f : Cal → Cal) :
    Within [.therm] s (State.onCal s u f) := by
  unfold State.onCal
  exact (State.onTherm_within ..).mono (by decide)

theorem State.calStart_within (s : State) (u : Nat) :
    Within [.regs, .therm] s (State.calStart s u) := by
  unfold State.calStart
  extract_lets y1
  refine Within.via y1 ?_ fun _ => ?_
  · exact (State.onCal_within ..).mono (by decide)
  clear_value y1
  refine Within.ite ?_ ?_
  · exact (State.onCal_within ..).mono (by decide)
  · refine Within.trans ?_ ((State.inc_within ..).mono (by decide))
    refine Within.trans ?_ ((State.putS_within ..).mono (by decide))
    refine Within.trans ?_ ((State.put_within ..).mono (by decide))
    assumption

theorem State.calRun_within (s : State) (mask : Nat) :
    Within [.regs, .therm] s (State.calRun s mask) := by
  unfold State.calRun
  refine Within.each _ _ (fun x a => ?_) ?_
  · exact (State.calStart_within ..).mono (by decide)
  · exact Within.refl _ _

theorem execCalRun_within (mask : Nat) (s : State) :
    Within [.regs, .therm] s (outcomeState (execCalRun mask s) s) := by
  unfold execCalRun
  dsimp -zeta only [outcomeState]
  refine Within.ite ?_ ?_
  · exact (State.calRun_within ..).mono (by decide)
  · exact Within.refl _ _

theorem State.calTrigger_within (s : State) :
    Within [.regs, .therm] s (State.calTrigger s) := by
  unfold State.calTrigger
  refine Within.ite ?_ ?_
  · exact Within.refl _ _
  · refine Within.each _ _ (fun x a => ?_) ?_
    · extract_lets y1
      clear_value y1
      refine Within.ite ?_ ?_
      · exact (State.calStart_within ..).mono (by decide)
      · exact Within.refl _ _
    · exact Within.refl _ _

theorem execCalRampStep_within (unit : Fin 5) (elem : Nat) (up : Bool) (s : State) :
    Within [.regs, .therm] s (outcomeState (execCalRampStep unit elem up s) s) := by
  unfold execCalRampStep
  extract_lets y1 y2 y3
  refine Within.via y1 ?_ fun _ => ?_
  · exact (State.onCal_within ..).mono (by decide)
  clear_value y1 y2 y3
  dsimp -zeta only [outcomeState]
  refine Within.ite ?_ ?_
  · exact Within.refl _ _
  · refine Within.ite ?_ ?_
    · refine Within.trans ?_ ((State.put_within ..).mono (by decide))
      assumption
    · assumption

theorem execCalUnitDone_within (unit : Fin 5) (fail : Option Nat) (s : State) :
    Within [.regs, .out, .host, .ring, .therm] s (outcomeState (execCalUnitDone unit fail s) s) := by
  unfold execCalUnitDone
  extract_lets y1 y2 y3 y4
  clear_value y1
  refine Within.via y2 ?_ fun _ => ?_
  · exact (State.onCal_within ..).mono (by decide)
  clear_value y2
  refine Within.via y3 ?_ fun _ => ?_
  · refine Within.trans ?_ ((State.put_within ..).mono (by decide))
    assumption
  clear_value y3
  refine Within.via y4 ?_ fun _ => ?_
  · dsimp -zeta only [y4]
    split
    · refine Within.ite ?_ ?_
      · refine Within.trans ?_ ((State.onTherm_within ..).mono (by decide))
        assumption
      · refine Within.ite ?_ ?_
        · refine Within.trans ?_ ((State.onTherm_within ..).mono (by decide))
          assumption
        · assumption
    · extract_lets y5
      refine Within.via y5 ?_ fun _ => ?_
      · refine Within.trans ?_ ((State.thermEvent_within ..).mono (by decide))
        refine Within.trans ?_ ((State.put_within ..).mono (by decide))
        refine Within.trans ?_ ((State.inc_within ..).mono (by decide))
        refine Within.trans ?_ ((State.put_within ..).mono (by decide))
        assumption
      clear_value y5
      refine Within.ite ?_ ?_
      · refine Within.trans ?_ ((State.onTherm_within ..).mono (by decide))
        assumption
      · refine Within.ite ?_ ?_
        · refine Within.trans ?_ ((State.onTherm_within ..).mono (by decide))
          assumption
        · assumption
  clear_value y4
  dsimp -zeta only [outcomeState]
  refine Within.ite ?_ ?_
  · exact Within.refl _ _
  · refine Within.ite ?_ ?_
    · refine Within.trans ?_ ((State.calStart_within ..).mono (by decide))
      assumption
    · assumption

theorem execSensorSample_within (kind : Fin 3) (temp : Int) (s : State) :
    Within [.regs, .out, .host, .ring, .therm] s (outcomeState (execSensorSample kind temp s) s) := by
  unfold execSensorSample
  extract_lets y1 y2 y3 y4 y5
  clear_value y1 y2
  refine Within.via y3 ?_ fun _ => ?_
  · exact (State.onTherm_within ..).mono (by decide)
  clear_value y3
  refine Within.via y4 ?_ fun _ => ?_
  · refine Within.trans ?_ ((State.put_within ..).mono (by decide))
    assumption
  clear_value y4
  refine Within.via y5 ?_ fun _ => ?_
  · refine Within.ite ?_ ?_
    · refine Within.ite ?_ ?_
      · assumption
      · refine Within.trans ?_ ((State.thermEvent_within ..).mono (by decide))
        refine Within.trans ?_ ((State.flag_within ..).mono (by decide))
        assumption
    · assumption
  clear_value y5
  dsimp -zeta only [outcomeState]
  refine Within.ite ?_ ?_
  · exact Within.refl _ _
  · refine Within.trans ?_ ((State.putS_within ..).mono (by decide))
    assumption

theorem execSensorFaultClear_within (s : State) :
    Within [.regs, .out, .host, .ring] s (outcomeState (execSensorFaultClear s) s) := by
  unfold execSensorFaultClear
  extract_lets y1
  refine Within.via y1 ?_ fun _ => ?_
  · refine Within.trans ?_ ((State.thermEvent_within ..).mono (by decide))
    refine Within.trans ?_ ((State.put_within ..).mono (by decide))
    exact (State.flag_within ..).mono (by decide)
  clear_value y1
  dsimp -zeta only [outcomeState]
  refine Within.ite ?_ ?_
  · refine Within.trans ?_ ((State.putS_within ..).mono (by decide))
    assumption
  · exact Within.refl _ _

theorem State.trip_within (s : State) (r : ℕ) :
    Within [.regs, .mem, .fresh, .out, .pwr, .xing, .time, .host, .ring, .link, .ingest, .mst, .comp, .folds, .lamp, .therm, .boot, .bist, .flocks, .txs, .latch] s (State.trip s r) := by
  unfold State.trip
  extract_lets y1 y2 y3 y4
  refine Within.via y1 ?_ fun _ => ?_
  · exact (State.hardBlank_within ..).mono (by decide)
  clear_value y1
  refine Within.via y2 ?_ fun _ => ?_
  · refine Within.ite ?_ ?_
    · refine Within.trans ?_ ((State.nodeReset_within ..).mono (by decide))
      assumption
    · assumption
  clear_value y2
  refine Within.via y3 ?_ fun _ => ?_
  · refine Within.trans ?_ ((State.onTherm_within ..).mono (by decide))
    assumption
  clear_value y3
  refine Within.via y4 ?_ fun _ => ?_
  · refine Within.trans ?_ ((State.put_within ..).mono (by decide))
    refine Within.trans ?_ ((State.put_within ..).mono (by decide))
    refine Within.trans ?_ ((State.put_within ..).mono (by decide))
    assumption
  clear_value y4
  refine Within.trans ?_ ((State.onPwr_within ..).mono (by decide))
  assumption

theorem execTripRestart_within (s : State) :
    Within [.regs, .mem, .fresh, .out, .pwr, .xing, .time, .host, .ring, .link, .ingest, .mst, .comp, .folds, .lamp, .therm, .boot, .bist, .flocks, .txs, .latch] s (outcomeState (execTripRestart s) s) := by
  unfold execTripRestart
  dsimp -zeta only [outcomeState]
  refine Within.ite ?_ ?_
  · extract_lets y1 y2 y3
    refine Within.via y1 ?_ fun _ => ?_
    · exact (State.onTherm_within ..).mono (by decide)
    clear_value y1
    refine Within.via y2 ?_ fun _ => ?_
    · refine Within.trans ?_ ((State.onPwr_within ..).mono (by decide))
      assumption
    clear_value y2
    refine Within.via y3 ?_ fun _ => ?_
    · refine Within.trans ?_ ((State.onPwr_within ..).mono (by decide))
      refine Within.trans ?_ ((State.cause_within ..).mono (by decide))
      refine Within.trans ?_ ((State.flag_within ..).mono (by decide))
      assumption
    clear_value y3
    refine Within.ite ?_ ?_
    · refine Within.trans ?_ ((State.releaseNode_within ..).mono (by decide))
      refine Within.trans ?_ ((State.coldStart_within ..).mono (by decide))
      assumption
    · refine Within.ite ?_ ?_
      · assumption
      · refine Within.trans ?_ ((State.put_within ..).mono (by decide))
        refine Within.trans ?_ ((State.otpRegs_within ..).mono (by decide))
        refine Within.trans ?_ ((State.put_within ..).mono (by decide))
        assumption
  · exact Within.refl _ _

theorem State.judgeWindow_within (s : State) :
    Within [.regs, .therm, .boot] s (State.judgeWindow s) := by
  unfold State.judgeWindow
  extract_lets y1 y2 _ y4
  clear_value y1 y2 y4
  refine Within.ite ?_ ?_
  · refine Within.trans ?_ ((State.startUnit_within ..).mono (by decide))
    refine Within.trans ?_ ((State.onTherm_within ..).mono (by decide))
    exact (State.flag_within ..).mono (by decide)
  · refine Within.ite ?_ ?_
    · exact (State.flag_within ..).mono (by decide)
    · exact (State.onTherm_within ..).mono (by decide)

theorem execWriteWindowOpen_within (s : State) :
    Within [.regs, .therm, .boot] s (outcomeState (execWriteWindowOpen s) s) := by
  unfold execWriteWindowOpen
  dsimp -zeta only [outcomeState]
  refine Within.ite ?_ ?_
  · refine Within.trans ?_ ((State.startUnit_within ..).mono (by decide))
    refine Within.trans ?_ ((State.onTherm_within ..).mono (by decide))
    exact (State.flag_within ..).mono (by decide)
  · exact Within.refl _ _

theorem State.judgeRefresh_within (s : State) :
    Within [.regs, .therm] s (State.judgeRefresh s) := by
  unfold State.judgeRefresh
  extract_lets y1 y2 y3
  clear_value y1
  refine Within.via y2 ?_ fun _ => ?_
  · refine Within.ite ?_ ?_
    · exact (State.flag_within ..).mono (by decide)
    · exact Within.refl _ _
  clear_value y2 y3
  refine Within.trans ?_ ((State.onTherm_within ..).mono (by decide))
  assumption

theorem State.estRegs_within (s : State) :
    Within [.regs] s (State.estRegs s) := by
  unfold State.estRegs
  extract_lets y1
  refine Within.via y1 ?_ fun _ => ?_
  · refine Within.each _ _ (fun x a => ?_) ?_
    · exact (State.putS_within ..).mono (by decide)
    · exact Within.refl _ _
  clear_value y1
  refine Within.each _ _ (fun x a => ?_) ?_
  · exact (State.putS_within ..).mono (by decide)
  · assumption

theorem State.hourCounts_within (s : State) :
    Within [.regs] s (State.hourCounts s) := by
  unfold State.hourCounts
  refine Within.trans ?_ ((State.put_within ..).mono (by decide))
  exact (State.put_within ..).mono (by decide)

theorem execThermalModelUpdate_within (power : List ℕ) (mv : List ℕ) (bad : List ℕ) (s : State) :
    Within [.regs, .mem, .fresh, .out, .pwr, .xing, .time, .host, .ring, .link, .ingest, .mst, .comp, .folds, .lamp, .therm, .boot, .bist, .flocks, .txs, .latch] s (outcomeState (execThermalModelUpdate power mv bad s) s) := by
  unfold execThermalModelUpdate
  dsimp -zeta only [outcomeState]
  refine Within.ite ?_ ?_
  · exact Within.refl _ _
  · extract_lets y1 y2 y3 y4 y5 y6 y7 y8
    refine Within.via y1 ?_ fun _ => ?_
    · refine Within.trans ?_ ((State.hourCounts_within ..).mono (by decide))
      refine Within.trans ?_ ((State.onTherm_within ..).mono (by decide))
      exact (State.rails_within ..).mono (by decide)
    clear_value y1
    refine Within.via y2 ?_ fun _ => ?_
    · refine Within.each _ _ (fun x a => ?_) ?_
      · exact (State.put_within ..).mono (by decide)
      · assumption
    clear_value y2
    refine Within.via y4 ?_ fun _ => ?_
    · refine Within.ite ?_ ?_
      · refine Within.each _ _ (fun x a => ?_) ?_
        · exact (State.tickFresh_within ..).mono (by decide)
        · refine Within.trans ?_ ((State.onTherm_within ..).mono (by decide))
          assumption
      · refine Within.trans ?_ ((State.onTherm_within ..).mono (by decide))
        assumption
    clear_value y3 y4
    refine Within.via y5 ?_ fun _ => ?_
    · refine Within.trans ?_ ((State.onTherm_within ..).mono (by decide))
      assumption
    clear_value y5
    refine Within.via y6 ?_ fun _ => ?_
    · refine Within.trans ?_ ((State.judgeRefresh_within ..).mono (by decide))
      refine Within.trans ?_ ((State.judgeWindow_within ..).mono (by decide))
      refine Within.trans ?_ ((State.thermRegs_within ..).mono (by decide))
      refine Within.trans ?_ ((State.estRegs_within ..).mono (by decide))
      assumption
    clear_value y6
    refine Within.via y7 ?_ fun _ => ?_
    · refine Within.ite ?_ ?_
      · assumption
      · refine Within.each _ _ (fun x a => ?_) ?_
        · exact (State.evalLevels_within ..).mono (by decide)
        · assumption
    clear_value y7
    refine Within.via y8 ?_ fun _ => ?_
    · refine Within.trans ?_ ((State.calTrigger_within ..).mono (by decide))
      assumption
    clear_value y8
    refine Within.ite ?_ ?_
    · assumption
    · split
      · refine Within.ite ?_ ?_
        · assumption
        · refine Within.trans ?_ ((State.trip_within ..).mono (by decide))
          assumption
      · assumption

theorem execRateEval_within (s : State) :
    Within [.regs, .out, .host, .ring, .therm] s (outcomeState (execRateEval s) s) := by
  unfold execRateEval
  dsimp -zeta only [outcomeState]
  refine Within.ite ?_ ?_
  · exact Within.refl _ _
  · extract_lets y1 y2
    refine Within.via y1 ?_ fun _ => ?_
    · exact (State.onTherm_within ..).mono (by decide)
    clear_value y1
    refine Within.via y2 ?_ fun _ => ?_
    · refine Within.each _ _ (fun x a => ?_) ?_
      · extract_lets y3 y4 y5 y6 y7
        refine Within.via y4 ?_ fun _ => ?_
        · exact (State.putS_within ..).mono (by decide)
        clear_value y3 y4
        refine Within.via y5 ?_ fun _ => ?_
        · refine Within.trans ?_ ((State.onRegion_within ..).mono (by decide))
          assumption
        clear_value y5
        refine Within.via y7 ?_ fun _ => ?_
        · refine Within.trans ?_ ((State.evalState_within ..).mono (by decide))
          assumption
        clear_value y6 y7
        refine Within.ite ?_ ?_
        · assumption
        · refine Within.trans ?_ ((State.evalState_within ..).mono (by decide))
          assumption
      · assumption
    clear_value y2
    refine Within.ite ?_ ?_
    · refine Within.trans ?_ ((State.inc_within ..).mono (by decide))
      assumption
    · assumption

theorem State.thermClear_within (s : State) :
    Within [.regs] s (State.thermClear s) := by
  unfold State.thermClear
  extract_lets y1
  refine Within.via y1 ?_ fun _ => ?_
  · refine Within.trans ?_ ((State.zero_within ..).mono (by decide))
    exact (State.zero_within ..).mono (by decide)
  clear_value y1
  refine Within.each _ _ (fun x a => ?_) ?_
  · exact (State.zero_within ..).mono (by decide)
  · assumption

theorem execThermClear_within (s : State) :
    Within [.regs] s (outcomeState (execThermClear s) s) := by
  unfold execThermClear
  dsimp -zeta only [outcomeState]
  refine Within.ite ?_ ?_
  · exact (State.thermClear_within ..).mono (by decide)
  · exact Within.refl _ _

end Sys2Proof.Machine
end

