-- ==== Sys2Proof/Laws/WithinBoot.lean ====
section
/-! SUPPORT. What each operation and each meaning of Machine/Boot.lean can do to the state: the parts it may change, and that it
keeps the canonical form and the shape. -/
set_option Elab.async false
namespace Sys2Proof.Machine

theorem State.intentRegs_within (s : State) :
    Within [.regs] s (State.intentRegs s) := by
  unfold State.intentRegs
  extract_lets y1 y2
  clear_value y1
  refine Within.via y2 ?_ fun _ => ?_
  · refine Within.trans ?_ ((State.put_within ..).mono (by decide))
    refine Within.trans ?_ ((State.put_within ..).mono (by decide))
    refine Within.trans ?_ ((State.flag_within ..).mono (by decide))
    exact (State.put_within ..).mono (by decide)
  clear_value y2
  refine Within.trans ?_ ((State.flag_within ..).mono (by decide))
  refine Within.trans ?_ ((State.put_within ..).mono (by decide))
  refine Within.trans ?_ ((State.put_within ..).mono (by decide))
  refine Within.trans ?_ ((State.flag_within ..).mono (by decide))
  assumption

theorem State.romWrite_within (s : State) (i : Intent) :
    Within [.regs, .boot, .bist] s (State.romWrite s i) := by
  unfold State.romWrite
  refine Within.trans ?_ ((State.intentRegs_within ..).mono (by decide))
  refine Within.foldl _ _ (fun x a => ?_) ?_
  · exact (State.unitEffect_within ..).mono (by decide)
  · exact Within.refl _ _

theorem State.slotInfo_within (s : State) (a : Nat) (code : Nat) (body : Bool) :
    Within [.regs] s (State.slotInfo s a code body) := by
  unfold State.slotInfo
  extract_lets y1 y2
  clear_value y1
  refine Within.via y2 ?_ fun _ => ?_
  · refine Within.trans ?_ ((State.put_within ..).mono (by decide))
    refine Within.trans ?_ ((State.put_within ..).mono (by decide))
    refine Within.trans ?_ ((State.flag_within ..).mono (by decide))
    exact (State.put_within ..).mono (by decide)
  clear_value y2
  refine Within.trans ?_ ((State.put_within ..).mono (by decide))
  refine Within.trans ?_ ((State.put_within ..).mono (by decide))
  refine Within.trans ?_ ((State.put_within ..).mono (by decide))
  assumption

theorem State.trySlot_within (s : State) (a : Nat) :
    Within [.regs] s (State.trySlot s a).1 := by
  unfold State.trySlot
  extract_lets y1
  clear_value y1
  refine Within.ite_fst ?_ ?_
  · dsimp -zeta only
    exact (State.slotInfo_within ..).mono (by decide)
  · refine Within.ite_fst ?_ ?_
    · dsimp -zeta only
      exact (State.slotInfo_within ..).mono (by decide)
    · dsimp -zeta only
      exact (State.slotInfo_within ..).mono (by decide)

theorem State.trySlots_within (s : State) (l : List Nat) : Within [.regs] s (s.trySlots l).1 := by
  induction l generalizing s with
  | nil => exact Within.refl _ _
  | cons a l ih =>
    unfold State.trySlots
    extract_lets r
    refine Within.via r.1 ((State.trySlot_within ..).mono (by decide)) fun h => Within.ite_fst h (h.trans (ih _))

theorem State.zeroiseKeys_within (s : State) :
    Within [.regs, .boot] s (State.zeroiseKeys s) := by
  unfold State.zeroiseKeys
  refine Within.trans ?_ ((State.onBoot_within ..).mono (by decide))
  refine Within.trans ?_ ((State.flag_within ..).mono (by decide))
  refine Within.trans ?_ ((State.put_within ..).mono (by decide))
  exact (State.flag_within ..).mono (by decide)

theorem State.unwrap_within (s : State) (rec_ : Bytes) :
    Within [.regs, .boot] s (State.unwrap s rec_).1 := by
  unfold State.unwrap
  split
  · dsimp -zeta only
    refine Within.trans ?_ ((State.onBoot_within ..).mono (by decide))
    refine Within.trans ?_ ((State.flag_within ..).mono (by decide))
    refine Within.trans ?_ ((State.put_within ..).mono (by decide))
    exact (State.flag_within ..).mono (by decide)
  · dsimp -zeta only
    exact (State.flag_within ..).mono (by decide)

theorem State.loadKey_within (s : State) :
    Within [.regs, .boot] s (State.loadKey s) := by
  unfold State.loadKey
  split
  · exact (State.unwrap_within ..).mono (by decide)
  · exact Within.refl _ _

theorem State.newChallenge_within (s : State) :
    Within [.regs, .fresh] s (State.newChallenge s) := by
  unfold State.newChallenge
  refine Within.each _ _ (fun x a => ?_) ?_
  · refine Within.trans ?_ ((State.tickFresh_within ..).mono (by decide))
    exact (State.put_within ..).mono (by decide)
  · exact Within.refl _ _

theorem State.romStop_within (s : State) (code : Nat) :
    Within [.regs, .pwr, .boot] s (State.romStop s code) := by
  unfold State.romStop
  extract_lets y1
  refine Within.via y1 ?_ fun _ => ?_
  · refine Within.trans ?_ ((State.onBoot_within ..).mono (by decide))
    refine Within.trans ?_ ((State.put_within ..).mono (by decide))
    exact (State.put_within ..).mono (by decide)
  clear_value y1
  refine Within.trans ?_ ((State.onPwr_within ..).mono (by decide))
  assumption

theorem State.selfTestFault_within (s : State) :
    Within [.regs, .out, .host, .ring, .bist] s (State.selfTestFault s) := by
  unfold State.selfTestFault
  extract_lets y1 y2
  refine Within.via y1 ?_ fun _ => ?_
  · exact (State.onBist_within ..).mono (by decide)
  clear_value y1
  refine Within.via y2 ?_ fun _ => ?_
  · refine Within.trans ?_ ((State.flag_within ..).mono (by decide))
    refine Within.trans ?_ ((State.put_within ..).mono (by decide))
    refine Within.trans ?_ ((State.put_within ..).mono (by decide))
    assumption
  clear_value y2
  refine Within.trans ?_ ((State.lapse_within ..).mono (by decide))
  refine Within.trans ?_ ((State.noteFault_within ..).mono (by decide))
  refine Within.trans ?_ ((State.irqAll_within ..).mono (by decide))
  assumption

theorem State.memFailed_within (s : State) (inst : ℕ) (addr : ℕ) (bit : ℕ) (spare : Bool) :
    Within [.regs, .fresh, .out, .host, .ring, .comp, .folds, .bist] s (State.memFailed s inst addr bit spare) := by
  unfold State.memFailed
  extract_lets y1 y2 y3 y4 y5
  refine Within.via y2 ?_ fun _ => ?_
  · refine Within.ite ?_ ?_
    · exact Within.refl _ _
    · refine Within.trans ?_ ((State.put_within ..).mono (by decide))
      refine Within.trans ?_ ((State.flag_within ..).mono (by decide))
      refine Within.trans ?_ ((State.flag_within ..).mono (by decide))
      refine Within.trans ?_ ((State.put_within ..).mono (by decide))
      exact (State.put_within ..).mono (by decide)
  clear_value y1 y2
  refine Within.via y3 ?_ fun _ => ?_
  · refine Within.trans ?_ ((State.inc_within ..).mono (by decide))
    assumption
  clear_value y3
  refine Within.via y4 ?_ fun _ => ?_
  · refine Within.trans ?_ ((State.flag_within ..).mono (by decide))
    refine Within.trans ?_ ((State.onBist_within ..).mono (by decide))
    assumption
  clear_value y4
  refine Within.via y5 ?_ fun _ => ?_
  · refine Within.ite ?_ ?_
    · refine Within.trans ?_ ((State.foldReset_within ..).mono (by decide))
      assumption
    · assumption
  clear_value y5
  refine Within.ite ?_ ?_
  · refine Within.trans ?_ ((State.flag_within ..).mono (by decide))
    refine Within.trans ?_ ((State.onBist_within ..).mono (by decide))
    assumption
  · refine Within.trans ?_ ((State.selfTestFault_within ..).mono (by decide))
    assumption

theorem State.clearUnconfirmed_within (s : State) :
    Within [.regs, .out, .host, .ring, .bist] s (State.clearUnconfirmed s) := by
  unfold State.clearUnconfirmed
  refine Within.trans ?_ ((State.selfTestFault_within ..).mono (by decide))
  exact (State.flag_within ..).mono (by decide)

theorem State.trialStep_within (s : State) :
    Within [.regs, .boot, .bist] s (State.trialStep s).1 := by
  unfold State.trialStep
  extract_lets y1
  clear_value y1
  refine Within.ite_fst ?_ ?_
  · dsimp -zeta only
    exact Within.refl _ _
  · refine Within.ite_fst ?_ ?_
    · dsimp -zeta only
      exact (State.flag_within ..).mono (by decide)
    · refine Within.ite_fst ?_ ?_
      · dsimp -zeta only
        refine Within.trans ?_ ((State.put_within ..).mono (by decide))
        refine Within.trans ?_ ((State.flag_within ..).mono (by decide))
        exact (State.romWrite_within ..).mono (by decide)
      · dsimp -zeta only
        exact (State.romWrite_within ..).mono (by decide)

theorem State.romBurn_within (s : State) : Within [.regs, .boot] s (State.romBurn s) := by
  unfold State.romBurn
  extract_lets y1
  clear_value y1
  refine Within.when _ _ (fun x => ?_) ?_
  · refine Within.trans ?_ ((State.otpRegs_within ..).mono (by decide))
    exact (State.onBoot_within ..).mono (by decide)
  · exact Within.refl _ _

theorem State.chooseSlot_within (s : State) :
    Within [.regs, .boot, .bist] s (State.chooseSlot s).1 := by
  unfold State.chooseSlot
  extract_lets y1 y2 y3
  clear_value y1 y2
  refine Within.via y3.1 ?_ fun _ => ?_
  · refine Within.trans ?_ ((State.trialStep_within ..).mono (by decide))
    exact (State.intentRegs_within ..).mono (by decide)
  clear_value y3
  refine Within.ite_fst ?_ ?_
  · dsimp -zeta only
    exact (State.onBoot_within ..).mono (by decide)
  · assumption

theorem State.trialFailed_within (s : State) :
    Within [.regs, .boot, .bist] s (State.trialFailed s) := by
  unfold State.trialFailed
  refine Within.trans ?_ ((State.put_within ..).mono (by decide))
  refine Within.trans ?_ ((State.flag_within ..).mono (by decide))
  exact (State.romWrite_within ..).mono (by decide)

theorem State.trainStart_within (s : State) :
    Within [.regs] s (State.trainStart s) := by
  unfold State.trainStart
  refine Within.trans ?_ ((State.inc_within ..).mono (by decide))
  refine Within.trans ?_ ((State.putS_within ..).mono (by decide))
  exact (State.put_within ..).mono (by decide)

theorem State.trainFailed_within (s : State) (c : ℕ) :
    Within [.regs, .out, .pwr, .host, .ring, .boot] s (State.trainFailed s c) := by
  unfold State.trainFailed
  extract_lets y1
  refine Within.via y1 ?_ fun _ => ?_
  · refine Within.trans ?_ ((State.thermEvent_within ..).mono (by decide))
    refine Within.trans ?_ ((State.put_within ..).mono (by decide))
    refine Within.trans ?_ ((State.inc_within ..).mono (by decide))
    exact (State.put_within ..).mono (by decide)
  clear_value y1
  refine Within.trans ?_ ((State.romStop_within ..).mono (by decide))
  refine Within.trans ?_ ((State.put_within ..).mono (by decide))
  refine Within.trans ?_ ((State.flag_within ..).mono (by decide))
  assumption

theorem State.loadSlot_within (s : State) (a : ℕ) (order : List ℕ) (tr : Option ℕ) :
    Within [.regs, .boot, .bist] s (State.loadSlot s a order tr) := by
  unfold State.loadSlot
  extract_lets y1 y2 y3 y4
  refine Within.via y1 ?_ fun _ => ?_
  · dsimp -zeta only [y1]
    split
    · refine Within.ite ?_ ?_
      · exact (State.flag_within ..).mono (by decide)
      · refine Within.trans ?_ ((State.flag_within ..).mono (by decide))
        exact (State.trialFailed_within ..).mono (by decide)
    · exact (State.flag_within ..).mono (by decide)
  clear_value y1
  refine Within.via y3 ?_ fun _ => ?_
  · refine Within.trans ?_ ((State.trainStart_within ..).mono (by decide))
    refine Within.trans ?_ ((State.put_within ..).mono (by decide))
    refine Within.trans ?_ ((State.put_within ..).mono (by decide))
    assumption
  clear_value y2 y3
  refine Within.via y4 ?_ fun _ => ?_
  · refine Within.trans ?_ ((State.put_within ..).mono (by decide))
    assumption
  clear_value y4
  refine Within.trans ?_ ((State.onBoot_within ..).mono (by decide))
  assumption

theorem State.judgeSlots_within (s : State) :
    Within [.regs] s (State.judgeSlots s) := by
  unfold State.judgeSlots
  refine Within.each _ _ (fun x a => ?_) ?_
  · exact (State.slotInfo_within ..).mono (by decide)
  · exact (State.put_within ..).mono (by decide)

theorem bootWith_within {s : State} (order : List Nat) (tr : Option Nat) (t : State × Option Nat)
    (h : Within [.regs, .pwr, .boot, .bist] s t.1) : Within [.regs, .pwr, .boot, .bist] s (bootWith order tr t) := by
  unfold bootWith
  split
  · refine Within.trans (Within.ite ?_ h) ((State.romStop_within ..).mono (by decide))
    exact h.trans ((State.trialFailed_within ..).mono (by decide))
  · exact h.trans ((State.loadSlot_within ..).mono (by decide))

theorem State.bootSlots_within (s : State) : Within [.regs, .pwr, .boot, .bist] s s.bootSlots :=
  bootWith_within _ _ _ (Within.trans (Within.trans ((State.romBurn_within s).mono (by decide)) ((State.judgeSlots_within ..).mono (by decide)))
    (Within.trans ((State.chooseSlot_within ..).mono (by decide)) ((State.trySlots_within ..).mono (by decide))))

theorem execBootRomStart_within (flashOk : Bool) (clearOk : Bool) (failing : List (ℕ × ℕ × ℕ × Bool)) (s : State) :
    Within [.regs, .fresh, .out, .pwr, .host, .ring, .comp, .folds, .boot, .bist] s (outcomeState (execBootRomStart flashOk clearOk failing s) s) := by
  unfold execBootRomStart
  dsimp -zeta only [outcomeState]
  refine Within.ite ?_ ?_
  · exact Within.refl _ _
  · extract_lets y1 y2 y3 y4 y5 y6 y7
    refine Within.via y1 ?_ fun _ => ?_
    · exact (State.onBoot_within ..).mono (by decide)
    clear_value y1
    refine Within.via y2 ?_ fun _ => ?_
    · refine Within.trans ?_ ((State.flag_within ..).mono (by decide))
      refine Within.trans ?_ ((State.put_within ..).mono (by decide))
      refine Within.trans ?_ ((State.inc_within ..).mono (by decide))
      assumption
    clear_value y2
    refine Within.via y3 ?_ fun _ => ?_
    · refine Within.trans ?_ ((State.otpRegs_within ..).mono (by decide))
      assumption
    clear_value y3
    refine Within.via y5 ?_ fun _ => ?_
    · refine Within.trans ?_ ((State.zeroiseKeys_within ..).mono (by decide))
      assumption
    clear_value y4 y5
    refine Within.via y6 ?_ fun _ => ?_
    · refine Within.ite ?_ ?_
      · assumption
      · refine Within.trans ?_ ((State.clearUnconfirmed_within ..).mono (by decide))
        assumption
    clear_value y6
    refine Within.via y7 ?_ fun _ => ?_
    · refine Within.each _ _ (fun x a => ?_) ?_
      · exact (State.memFailed_within ..).mono (by decide)
      · assumption
    clear_value y7
    refine Within.ite ?_ ?_
    · refine Within.trans ?_ ((State.romStop_within ..).mono (by decide))
      assumption
    · refine Within.ite ?_ ?_
      · refine Within.trans ?_ ((State.romStop_within ..).mono (by decide))
        assumption
      · refine Within.ite ?_ ?_
        · refine Within.trans ?_ ((State.romStop_within ..).mono (by decide))
          assumption
        · refine Within.ite ?_ ?_
          · refine Within.trans ?_ ((State.bootSlots_within ..).mono (by decide))
            assumption
          · refine Within.trans ?_ ((State.romStop_within ..).mono (by decide))
            assumption

theorem State.calLoad_within (s : State) :
    Within [.regs, .mem, .mst, .comp] s (State.calLoad s) := by
  unfold State.calLoad
  extract_lets y1 y2 y3
  refine Within.via y2 ?_ fun _ => ?_
  · refine Within.each _ _ (fun x a => ?_) ?_
    · exact (State.setTab_within ..).mono (by decide)
    · exact Within.refl _ _
  clear_value y1 y2
  refine Within.via y3 ?_ fun _ => ?_
  · refine Within.each _ _ (fun x a => ?_) ?_
    · extract_lets y4 y5 y6 y7
      refine Within.via y6 ?_ fun _ => ?_
      · refine Within.trans ?_ ((State.lampWritten_within ..).mono (by decide))
        exact (State.memWrite_within ..).mono (by decide)
      clear_value y4 y5 y6
      clear_value y7
      refine Within.trans ?_ ((State.put_within ..).mono (by decide))
      refine Within.trans ?_ ((State.put_within ..).mono (by decide))
      refine Within.trans ?_ ((State.put_within ..).mono (by decide))
      refine Within.trans ?_ ((State.put_within ..).mono (by decide))
      assumption
    · assumption
  clear_value y3
  refine Within.ite ?_ ?_
  · exact (State.put_within ..).mono (by decide)
  · refine Within.ite ?_ ?_
    · exact (State.put_within ..).mono (by decide)
    · refine Within.trans ?_ ((State.put_within ..).mono (by decide))
      refine Within.trans ?_ ((State.flag_within ..).mono (by decide))
      assumption

theorem State.tileLoad_within (s : State) :
    Within [.regs, .mem, .mst, .comp] s (State.tileLoad s) := by
  unfold State.tileLoad
  refine Within.each _ _ (fun x a => ?_) ?_
  · exact (State.diagReset_within ..).mono (by decide)
  · exact (State.calLoad_within ..).mono (by decide)

theorem State.memTrained_within (s : State) :
    Within [.regs, .mem, .mst] s (State.memTrained s) := by
  unfold State.memTrained
  extract_lets y1 y2 y3 y4 y5 y6 y7 y8 y9
  clear_value y1 y2
  refine Within.via y3 ?_ fun _ => ?_
  · refine Within.trans ?_ ((State.put_within ..).mono (by decide))
    refine Within.trans ?_ ((State.put_within ..).mono (by decide))
    refine Within.trans ?_ ((State.put_within ..).mono (by decide))
    exact (State.put_within ..).mono (by decide)
  clear_value y3
  refine Within.via y4 ?_ fun _ => ?_
  · refine Within.trans ?_ ((State.scrubAnew_within ..).mono (by decide))
    refine Within.trans ?_ ((State.flag_within ..).mono (by decide))
    assumption
  clear_value y4
  refine Within.via y5 ?_ fun _ => ?_
  · refine Within.each _ _ (fun x a => ?_) ?_
    · refine Within.trans ?_ ((State.flag_within ..).mono (by decide))
      exact (State.flag_within ..).mono (by decide)
    · assumption
  clear_value y5 y6
  refine Within.via y7 ?_ fun _ => ?_
  · refine Within.trans ?_ ((State.put_within ..).mono (by decide))
    assumption
  clear_value y7 y8
  refine Within.via y9 ?_ fun _ => ?_
  · refine Within.ite ?_ ?_
    · assumption
    · refine Within.trans ?_ ((State.clearSpan_within ..).mono (by decide))
      assumption
  clear_value y9
  refine Within.ite ?_ ?_
  · assumption
  · refine Within.trans ?_ ((State.onMst_within ..).mono (by decide))
    assumption

theorem State.readJournal_within (s : State) :
    Within [.regs, .out, .host, .ring, .mst, .bist] s (State.readJournal s).1 := by
  unfold State.readJournal
  extract_lets y1 y2 y3
  refine Within.via y2 ?_ fun _ => ?_
  · refine Within.when _ _ (fun x => ?_) ?_
    · refine Within.trans ?_ ((State.memHeal_within ..).mono (by decide))
      exact (State.memTouch_within ..).mono (by decide)
    · exact Within.refl _ _
  clear_value y1 y2
  refine Within.via y3 ?_ fun _ => ?_
  · refine Within.each _ _ (fun x a => ?_) ?_
    · exact (State.recErr_within ..).mono (by decide)
    · assumption
  clear_value y3
  dsimp -zeta only
  refine Within.each _ _ (fun x a => ?_) ?_
  · exact (State.usePeerRec_within ..).mono (by decide)
  · assumption

theorem State.journalBoot_within (s : State) (ok : Bool) :
    Within [.regs, .fresh, .out, .host, .ring] s (State.journalBoot s ok) := by
  unfold State.journalBoot
  refine Within.ite ?_ ?_
  · refine Within.trans ?_ ((State.newEpoch_within ..).mono (by decide))
    refine Within.each _ _ (fun x a => ?_) ?_
    · exact (State.onCtx_within ..).mono (by decide)
    · exact Within.refl _ _
  · extract_lets y1
    refine Within.via y1 ?_ fun _ => ?_
    · refine Within.each _ _ (fun x a => ?_) ?_
      · refine Within.trans ?_ ((State.flushCq_within ..).mono (by decide))
        refine Within.trans ?_ ((State.countInflight_within ..).mono (by decide))
        refine Within.trans ?_ ((State.setNext_within ..).mono (by decide))
        exact (State.put_within ..).mono (by decide)
      · exact Within.refl _ _
    clear_value y1
    refine Within.trans ?_ ((State.journalRegs_within ..).mono (by decide))
    refine Within.each _ _ (fun x a => ?_) ?_
    · exact (State.writePending_within ..).mono (by decide)
    · assumption

theorem State.defaultPrograms_within (s : State) :
    Within [.regs, .folds] s (State.defaultPrograms s) := by
  unfold State.defaultPrograms
  refine Within.each _ _ (fun x a => ?_) ?_
  · extract_lets y1 y2
    clear_value y1
    refine Within.via y2 ?_ fun _ => ?_
    · exact (State.onFold_within ..).mono (by decide)
    clear_value y2
    refine Within.trans ?_ ((State.foldEnable_within ..).mono (by decide))
    refine Within.trans ?_ ((State.put_within ..).mono (by decide))
    assumption
  · exact Within.refl _ _

theorem State.bistSeeds_within (s : State) :
    Within [.bist] s (State.bistSeeds s) := by
  unfold State.bistSeeds
  extract_lets _
  exact (State.onBist_within ..).mono (by decide)

theorem State.handOffBoot_within (s : State) (journalOk : Bool) :
    Within [.regs, .mem, .fresh, .out, .time, .host, .ring, .link, .mst, .comp, .folds, .therm, .boot, .bist] s (State.handOffBoot s journalOk) := by
  unfold State.handOffBoot
  extract_lets y1 y2 y3 y4 y5 y6 y7 y8 y9 y10 y11 y12 y13 y14 y15 y16
  refine Within.via y1 ?_ fun _ => ?_
  · refine Within.trans ?_ ((State.healthFrom_within ..).mono (by decide))
    refine Within.trans ?_ ((State.onBoot_within ..).mono (by decide))
    refine Within.trans ?_ ((State.put_within ..).mono (by decide))
    exact (State.memTrained_within ..).mono (by decide)
  clear_value y1
  refine Within.via y2 ?_ fun _ => ?_
  · refine Within.trans ?_ ((State.put_within ..).mono (by decide))
    assumption
  clear_value y2
  refine Within.via y3 ?_ fun _ => ?_
  · refine Within.ite ?_ ?_
    · refine Within.trans ?_ ((State.onBoot_within ..).mono (by decide))
      refine Within.trans ?_ ((State.put_within ..).mono (by decide))
      assumption
    · assumption
  clear_value y3
  refine Within.via y4 ?_ fun _ => ?_
  · refine Within.trans ?_ ((State.put_within ..).mono (by decide))
    assumption
  clear_value y4
  refine Within.via y5 ?_ fun _ => ?_
  · refine Within.trans ?_ ((State.newChallenge_within ..).mono (by decide))
    assumption
  clear_value y5
  refine Within.via y6 ?_ fun _ => ?_
  · refine Within.ite ?_ ?_
    · refine Within.trans ?_ ((State.onBoot_within ..).mono (by decide))
      assumption
    · assumption
  clear_value y6
  refine Within.via y7 ?_ fun _ => ?_
  · refine Within.trans ?_ ((State.keptRegs_within ..).mono (by decide))
    refine Within.trans ?_ ((State.bistSeeds_within ..).mono (by decide))
    refine Within.trans ?_ ((State.defaultPrograms_within ..).mono (by decide))
    refine Within.trans ?_ ((State.loadKey_within ..).mono (by decide))
    assumption
  clear_value y7
  refine Within.via y8 ?_ fun _ => ?_
  · refine Within.each _ _ (fun x a => ?_) ?_
    · exact (State.put_within ..).mono (by decide)
    · assumption
  clear_value y8
  refine Within.via y9.1 ?_ fun _ => ?_
  · refine Within.trans ?_ ((State.readJournal_within ..).mono (by decide))
    refine Within.trans ?_ ((State.transports_within ..).mono (by decide))
    refine Within.trans ?_ ((State.lockReset_within ..).mono (by decide))
    assumption
  clear_value y9
  refine Within.via y10 ?_ fun _ => ?_
  · refine Within.trans ?_ ((State.journalBoot_within ..).mono (by decide))
    assumption
  clear_value y10
  refine Within.via y11 ?_ fun _ => ?_
  · refine Within.ite ?_ ?_
    · refine Within.trans ?_ ((State.thermEvent_within ..).mono (by decide))
      assumption
    · assumption
  clear_value y11
  refine Within.via y12 ?_ fun _ => ?_
  · refine Within.each _ _ (fun x a => ?_) ?_
    · exact (State.calStart_within ..).mono (by decide)
    · assumption
  clear_value y12
  refine Within.via y13 ?_ fun _ => ?_
  · refine Within.trans ?_ ((State.put_within ..).mono (by decide))
    assumption
  clear_value y13
  refine Within.via y14 ?_ fun _ => ?_
  · refine Within.ite ?_ ?_
    · assumption
    · refine Within.trans ?_ ((State.addJob_within ..).mono (by decide))
      assumption
  clear_value y14
  refine Within.via y15 ?_ fun _ => ?_
  · refine Within.ite ?_ ?_
    · refine Within.trans ?_ ((State.addJob_within ..).mono (by decide))
      assumption
    · assumption
  clear_value y15
  clear_value y16
  refine Within.ite ?_ ?_
  · refine Within.trans ?_ ((State.enablePort_within ..).mono (by decide))
    refine Within.trans ?_ ((State.enablePort_within ..).mono (by decide))
    refine Within.trans ?_ ((State.tileLoad_within ..).mono (by decide))
    assumption
  · refine Within.ite ?_ ?_
    · refine Within.trans ?_ ((State.tickFresh_within ..).mono (by decide))
      refine Within.trans ?_ ((State.onRing_within ..).mono (by decide))
      assumption
    · assumption

theorem execMemoryTrainingDone_within (failed : Option (Fin 8)) (mismatch : Bool) (journalOk : Bool) (s : State) :
    Within [.regs, .mem, .fresh, .out, .pwr, .time, .host, .ring, .link, .mst, .comp, .folds, .therm, .boot, .bist] s (outcomeState (execMemoryTrainingDone failed mismatch journalOk s) s) := by
  unfold execMemoryTrainingDone
  dsimp -zeta only [outcomeState]
  refine Within.ite ?_ ?_
  · exact Within.refl _ _
  · extract_lets y1
    clear_value y1
    refine Within.ite ?_ ?_
    · exact (State.romStop_within ..).mono (by decide)
    · split
      · exact (State.trainFailed_within ..).mono (by decide)
      · exact (State.handOffBoot_within ..).mono (by decide)

theorem State.dlBegin_within (s : State) (cal : Bool) (c : ℕ) (t : Option (ℕ × ℕ)) :
    Within [.regs, .fresh, .out, .host, .ring, .mst, .boot, .bist] s (State.dlBegin s cal c t) := by
  unfold State.dlBegin
  refine Within.ite ?_ ?_
  · refine Within.trans ?_ ((State.addJob_within ..).mono (by decide))
    exact (State.put_within ..).mono (by decide)
  · exact (State.finishOpt_within ..).mono (by decide)

theorem State.dlCancel_within (s : State) (cal : Bool) (c : ℕ) (t : Option (ℕ × ℕ)) :
    Within [.regs, .fresh, .out, .host, .ring, .mst, .boot, .bist] s (State.dlCancel s cal c t) := by
  unfold State.dlCancel
  refine Within.ite ?_ ?_
  · exact (State.addJob_within ..).mono (by decide)
  · exact (State.finishOpt_within ..).mono (by decide)

theorem execBeginDl_within (ctx : Fin 8) (s : State) :
    Within [.regs, .fresh, .out, .host, .ring, .mst, .boot, .bist] s (outcomeState (execBeginDl ctx s) s) := by
  unfold execBeginDl
  dsimp -zeta only [outcomeState]
  exact (State.dlBegin_within ..).mono (by decide)

theorem execCancelDl_within (ctx : Fin 8) (s : State) :
    Within [.regs, .fresh, .out, .host, .ring, .mst, .boot, .bist] s (outcomeState (execCancelDl ctx s) s) := by
  unfold execCancelDl
  dsimp -zeta only [outcomeState]
  exact (State.dlCancel_within ..).mono (by decide)

theorem execCalBegin_within (ctx : Fin 8) (s : State) :
    Within [.regs, .fresh, .out, .host, .ring, .mst, .boot, .bist] s (outcomeState (execCalBegin ctx s) s) := by
  unfold execCalBegin
  dsimp -zeta only [outcomeState]
  exact (State.dlBegin_within ..).mono (by decide)

theorem execCalCancel_within (ctx : Fin 8) (s : State) :
    Within [.regs, .fresh, .out, .host, .ring, .mst, .boot, .bist] s (outcomeState (execCalCancel ctx s) s) := by
  unfold execCalCancel
  dsimp -zeta only [outcomeState]
  exact (State.dlCancel_within ..).mono (by decide)

theorem State.dlWrite_within (s : State) (cal : Bool) (c : Nat) (first : Nat) (b : Bytes) (t : Option (Nat × Nat)) :
    Within [.boot] s (State.dlWrite s cal c first b t) := by
  unfold State.dlWrite
  extract_lets y1 y2
  clear_value y1 y2
  exact (State.addJob_within ..).mono (by decide)

theorem State.writeWallKey_within (s : State) (rec_ : Bytes) (t : Option (ℕ × ℕ)) :
    Within [.regs, .fresh, .out, .host, .ring, .mst, .boot, .bist] s (State.writeWallKey s rec_ t) := by
  unfold State.writeWallKey
  extract_lets y1
  refine Within.via y1.1 ?_ fun _ => ?_
  · exact (State.unwrap_within ..).mono (by decide)
  clear_value y1
  refine Within.ite ?_ ?_
  · refine Within.trans ?_ ((State.addJob_within ..).mono (by decide))
    refine Within.trans ?_ ((State.flag_within ..).mono (by decide))
    assumption
  · refine Within.trans ?_ ((State.finishOpt_within ..).mono (by decide))
    assumption

theorem State.writeToken_within (s : State) (b : Bytes) :
    Within [.regs] s (State.writeToken s b) := by
  unfold State.writeToken
  extract_lets y1 y2 y3
  clear_value y1 y2 y3
  exact (State.flag_within ..).mono (by decide)

theorem State.lcTransition_within (s : State) (target : Nat) :
    Within [.regs, .fresh, .boot] s (State.lcTransition s target) := by
  unfold State.lcTransition
  extract_lets y1 y2 y3 y4 y5 y6 y7
  clear_value y1 y2 y3 y4 y5
  refine Within.via y6 ?_ fun _ => ?_
  · exact (State.newChallenge_within ..).mono (by decide)
  clear_value y6
  refine Within.via y7 ?_ fun _ => ?_
  · refine Within.ite ?_ ?_
    · refine Within.trans ?_ ((State.flag_within ..).mono (by decide))
      assumption
    · assumption
  clear_value y7
  refine Within.ite ?_ ?_
  · refine Within.trans ?_ ((State.put_within ..).mono (by decide))
    assumption
  · refine Within.trans ?_ ((State.addJob_within ..).mono (by decide))
    assumption

theorem execLcTransition_within (ctx : Fin 8) (target : Nat) (s : State) :
    Within [.regs, .fresh, .out, .host, .ring, .boot] s (outcomeState (execLcTransition ctx target s) s) := by
  unfold execLcTransition
  dsimp -zeta only [outcomeState]
  refine Within.ite ?_ ?_
  · exact Within.refl _ _
  · refine Within.ite ?_ ?_
    · exact (State.ctxFault_within ..).mono (by decide)
    · refine Within.trans ?_ ((State.lcTransition_within ..).mono (by decide))
      exact (State.put_within ..).mono (by decide)

theorem State.secRevoke_within (s : State) (m : Nat) :
    Within [.regs, .boot] s (State.secRevoke s m) := by
  unfold State.secRevoke
  extract_lets y1 y2
  clear_value y1 y2
  refine Within.ite ?_ ?_
  · exact (State.addJob_within ..).mono (by decide)
  · exact (State.flag_within ..).mono (by decide)

theorem execSecRevoke_within (ctx : Fin 8) (slots : Nat) (s : State) :
    Within [.regs, .out, .host, .ring, .boot] s (outcomeState (execSecRevoke ctx slots s) s) := by
  unfold execSecRevoke
  dsimp -zeta only [outcomeState]
  refine Within.ite ?_ ?_
  · exact Within.refl _ _
  · refine Within.ite ?_ ?_
    · exact (State.ctxFault_within ..).mono (by decide)
    · refine Within.trans ?_ ((State.secRevoke_within ..).mono (by decide))
      exact (State.put_within ..).mono (by decide)

theorem execActivatePrepare_within (flock : ℕ) (s : State) :
    Within [.regs, .boot] s (outcomeState (execActivatePrepare flock s) s) := by
  unfold execActivatePrepare
  dsimp -zeta only [outcomeState]
  split
  · refine Within.ite ?_ ?_
    · refine Within.trans ?_ ((State.addJob_within ..).mono (by decide))
      refine Within.trans ?_ ((State.onBoot_within ..).mono (by decide))
      exact (State.flag_within ..).mono (by decide)
    · exact Within.refl _ _
  · exact Within.refl _ _

theorem execActivationReset_within (s : State) :
    Within [.regs, .mem, .fresh, .out, .pwr, .xing, .time, .host, .ring, .link, .ingest, .mst, .comp, .folds, .lamp, .therm, .boot, .bist, .flocks, .txs, .latch] s (outcomeState (execActivationReset s) s) := by
  unfold execActivationReset
  dsimp -zeta only [outcomeState]
  refine Within.ite ?_ ?_
  · refine Within.trans ?_ ((State.releaseNode_within ..).mono (by decide))
    exact (State.coldStart_within ..).mono (by decide)
  · exact Within.refl _ _

theorem State.bootConfirm_within (s : State) (version : ℕ) (t : Option (ℕ × ℕ)) (ago : ℕ) :
    Within [.regs, .fresh, .out, .host, .ring, .mst, .boot, .bist] s (State.bootConfirm s version t ago) := by
  unfold State.bootConfirm
  refine Within.ite ?_ ?_
  · exact (State.finishOpt_within ..).mono (by decide)
  · refine Within.ite ?_ ?_
    · exact (State.finishOpt_within ..).mono (by decide)
    · extract_lets y1 y2
      clear_value y1 y2
      refine Within.trans ?_ ((State.addJob_within ..).mono (by decide))
      refine Within.trans ?_ ((State.onBoot_within ..).mono (by decide))
      refine Within.trans ?_ ((State.flag_within ..).mono (by decide))
      exact (State.put_within ..).mono (by decide)

theorem execBootConfirm_within (ctx : Fin 8) (version : ℕ) (s : State) :
    Within [.regs, .fresh, .out, .host, .ring, .mst, .boot, .bist] s (outcomeState (execBootConfirm ctx version s) s) := by
  unfold execBootConfirm
  dsimp -zeta only [outcomeState]
  refine Within.ite ?_ ?_
  · refine Within.trans ?_ ((State.bootConfirm_within ..).mono (by decide))
    exact (State.put_within ..).mono (by decide)
  · exact Within.refl _ _

theorem execConfirmWindowExpire_within (s : State) :
    Within [.regs, .boot] s (outcomeState (execConfirmWindowExpire s) s) := by
  unfold execConfirmWindowExpire
  dsimp -zeta only [outcomeState]
  refine Within.ite ?_ ?_
  · refine Within.trans ?_ ((State.onBoot_within ..).mono (by decide))
    exact (State.put_within ..).mono (by decide)
  · exact Within.refl _ _

theorem State.attestGo_within (s : State) (kind : Nat) :
    Within [.regs, .boot] s (State.attestGo s kind) := by
  unfold State.attestGo
  refine Within.ite ?_ ?_
  · exact Within.refl _ _
  · refine Within.trans ?_ ((State.onBoot_within ..).mono (by decide))
    refine Within.trans ?_ ((State.flag_within ..).mono (by decide))
    exact (State.flag_within ..).mono (by decide)

theorem execAttestGo_within (kind : Fin 4) (s : State) :
    Within [.regs, .boot] s (outcomeState (execAttestGo kind s) s) := by
  unfold execAttestGo
  dsimp -zeta only [outcomeState]
  exact (State.attestGo_within ..).mono (by decide)

theorem execAttestDone_within (s : State) :
    Within [.regs, .boot] s (outcomeState (execAttestDone s) s) := by
  unfold execAttestDone
  dsimp -zeta only [outcomeState]
  split
  · exact Within.refl _ _
  · extract_lets y1 y2 y3
    clear_value y1 y2
    refine Within.via y3 ?_ fun _ => ?_
    · refine Within.each _ _ (fun x a => ?_) ?_
      · exact (State.put_within ..).mono (by decide)
      · exact Within.refl _ _
    clear_value y3
    refine Within.trans ?_ ((State.onBoot_within ..).mono (by decide))
    refine Within.trans ?_ ((State.flag_within ..).mono (by decide))
    refine Within.trans ?_ ((State.flag_within ..).mono (by decide))
    assumption

theorem State.jobDone_within (s : State) (j : Job) :
    Within [.regs, .fresh, .out, .host, .ring, .mst, .boot, .bist] s (State.jobDone s j) := by
  unfold State.jobDone
  split
  · exact (State.flag_within ..).mono (by decide)
  · extract_lets y1
    refine Within.via y1 ?_ fun _ => ?_
    · refine Within.trans ?_ ((State.flag_within ..).mono (by decide))
      exact (State.intentRegs_within ..).mono (by decide)
    clear_value y1
    refine Within.trans ?_ ((State.onBoot_within ..).mono (by decide))
    assumption
  · extract_lets y2 y3
    refine Within.via y2 ?_ fun _ => ?_
    · refine Within.trans ?_ ((State.put_within ..).mono (by decide))
      refine Within.trans ?_ ((State.flag_within ..).mono (by decide))
      refine Within.trans ?_ ((State.put_within ..).mono (by decide))
      exact (State.intentRegs_within ..).mono (by decide)
    clear_value y2
    refine Within.via y3 ?_ fun _ => ?_
    · refine Within.trans ?_ ((State.finishOpt_within ..).mono (by decide))
      refine Within.trans ?_ ((State.onBoot_within ..).mono (by decide))
      assumption
    clear_value y3
    refine Within.ite ?_ ?_
    · refine Within.trans ?_ ((State.onBoot_within ..).mono (by decide))
      assumption
    · assumption
  · exact (State.intentRegs_within ..).mono (by decide)
  · extract_lets y4
    refine Within.via y4 ?_ fun _ => ?_
    · refine Within.ite ?_ ?_
      · refine Within.trans ?_ ((State.put_within ..).mono (by decide))
        exact (State.put_within ..).mono (by decide)
      · refine Within.trans ?_ ((State.put_within ..).mono (by decide))
        refine Within.trans ?_ ((State.put_within ..).mono (by decide))
        exact (State.put_within ..).mono (by decide)
    clear_value y4
    refine Within.trans ?_ ((State.finishOpt_within ..).mono (by decide))
    assumption
  · refine Within.trans ?_ ((State.finishOpt_within ..).mono (by decide))
    exact (State.put_within ..).mono (by decide)
  · extract_lets y5 y6 y7
    refine Within.via y5 ?_ fun _ => ?_
    · refine Within.ite ?_ ?_
      · exact Within.refl _ _
      · exact (State.put_within ..).mono (by decide)
    clear_value y5
    refine Within.via y6 ?_ fun _ => ?_
    · refine Within.ite ?_ ?_
      · refine Within.trans ?_ ((State.put_within ..).mono (by decide))
        assumption
      · assumption
    clear_value y6
    refine Within.via y7 ?_ fun _ => ?_
    · refine Within.ite ?_ ?_
      · refine Within.trans ?_ ((State.slotInfo_within ..).mono (by decide))
        assumption
      · assumption
    clear_value y7
    refine Within.trans ?_ ((State.finishOpt_within ..).mono (by decide))
    assumption
  · refine Within.trans ?_ ((State.finishOpt_within ..).mono (by decide))
    exact (State.flag_within ..).mono (by decide)
  · extract_lets y8
    refine Within.via y8 ?_ fun _ => ?_
    · exact (State.put_within ..).mono (by decide)
    clear_value y8
    refine Within.ite ?_ ?_
    · refine Within.trans ?_ ((State.onBoot_within ..).mono (by decide))
      refine Within.trans ?_ ((State.zeroiseKeys_within ..).mono (by decide))
      assumption
    · assumption
  · exact (State.finishOpt_within ..).mono (by decide)
  · exact (State.finishOpt_within ..).mono (by decide)
  · exact (State.flag_within ..).mono (by decide)

theorem State.jobFailed_within (s : State) (j : Job) (reason : ℕ) :
    Within [.regs, .fresh, .out, .host, .ring, .mst, .boot, .bist, .flocks] s (State.jobFailed s j reason) := by
  unfold State.jobFailed
  split
  · extract_lets y1
    refine Within.via y1 ?_ fun _ => ?_
    · refine Within.trans ?_ ((State.flockEvent_within ..).mono (by decide))
      exact (State.onBoot_within ..).mono (by decide)
    clear_value y1
    refine Within.trans ?_ ((State.flockRegs_within ..).mono (by decide))
    refine Within.trans ?_ ((State.onFlock_within ..).mono (by decide))
    assumption
  · refine Within.trans ?_ ((State.finishOpt_within ..).mono (by decide))
    exact (State.put_within ..).mono (by decide)
  · exact (State.put_within ..).mono (by decide)
  · refine Within.trans ?_ ((State.finishOpt_within ..).mono (by decide))
    exact (State.flag_within ..).mono (by decide)
  · exact (State.finishOpt_within ..).mono (by decide)

theorem execFlashUnitDone_within (ok : Bool) (s : State) :
    Within [.regs, .fresh, .out, .host, .ring, .mst, .boot, .bist, .flocks] s (outcomeState (execFlashUnitDone ok s) s) := by
  unfold execFlashUnitDone
  dsimp -zeta only [outcomeState]
  split
  · split
    · refine Within.trans ?_ ((State.startUnit_within ..).mono (by decide))
      exact (State.onBoot_within ..).mono (by decide)
    · refine Within.ite ?_ ?_
      · extract_lets y1 y2
        refine Within.via y1 ?_ fun _ => ?_
        · exact (State.unitEffect_within ..).mono (by decide)
        clear_value y1
        refine Within.via y2 ?_ fun _ => ?_
        · refine Within.trans ?_ ((State.onBoot_within ..).mono (by decide))
          assumption
        clear_value y2
        refine Within.ite ?_ ?_
        · refine Within.trans ?_ ((State.startUnit_within ..).mono (by decide))
          refine Within.trans ?_ ((State.jobDone_within ..).mono (by decide))
          assumption
        · refine Within.trans ?_ ((State.startUnit_within ..).mono (by decide))
          refine Within.trans ?_ ((State.onBoot_within ..).mono (by decide))
          assumption
      · extract_lets y3 y4
        refine Within.via y3 ?_ fun _ => ?_
        · exact (State.unitCut_within ..).mono (by decide)
        clear_value y3
        refine Within.via y4 ?_ fun _ => ?_
        · refine Within.trans ?_ ((State.onBoot_within ..).mono (by decide))
          assumption
        clear_value y4
        refine Within.trans ?_ ((State.startUnit_within ..).mono (by decide))
        refine Within.trans ?_ ((State.jobFailed_within ..).mono (by decide))
        assumption
  · exact Within.refl _ _

theorem execWriteDeferExpire_within (s : State) :
    Within [.regs, .fresh, .out, .host, .ring, .mst, .boot, .bist, .flocks] s (outcomeState (execWriteDeferExpire s) s) := by
  unfold execWriteDeferExpire
  dsimp -zeta only [outcomeState]
  split
  · refine Within.ite ?_ ?_
    · exact Within.refl _ _
    · extract_lets y1 y2
      refine Within.via y1 ?_ fun _ => ?_
      · exact (State.onBoot_within ..).mono (by decide)
      clear_value y1
      refine Within.via y2 ?_ fun _ => ?_
      · refine Within.trans ?_ ((State.thermEvent_within ..).mono (by decide))
        refine Within.trans ?_ ((State.inc_within ..).mono (by decide))
        assumption
      clear_value y2
      refine Within.trans ?_ ((State.startUnit_within ..).mono (by decide))
      refine Within.trans ?_ ((State.jobFailed_within ..).mono (by decide))
      assumption
  · exact Within.refl _ _

end Sys2Proof.Machine
end

