-- ==== Sys2Proof/Laws/WithinBist.lean ====
section
/-! SUPPORT. What each operation and each meaning of Machine/Bist.lean can do to the state: the parts it may change, and that it
keeps the canonical form and the shape. -/
set_option Elab.async false
namespace Sys2Proof.Machine

theorem State.onPart_within (s : State) (p : Nat) (f : BPart → BPart) :
    Within [.bist] s (State.onPart s p f) := by
  unfold State.onPart
  exact (State.onBist_within ..).mono (by decide)

theorem State.bistSel_within (s : State) :
    Within [.regs] s (State.bistSel s) := by
  unfold State.bistSel
  extract_lets y1 y2 y3
  clear_value y1
  refine Within.via y2 ?_ fun _ => ?_
  · refine Within.trans ?_ ((State.put64_within ..).mono (by decide))
    exact (State.put64_within ..).mono (by decide)
  clear_value y2
  refine Within.via y3 ?_ fun _ => ?_
  · refine Within.trans ?_ ((State.put_within ..).mono (by decide))
    refine Within.trans ?_ ((State.put64_within ..).mono (by decide))
    assumption
  clear_value y3
  refine Within.trans ?_ ((State.put_within ..).mono (by decide))
  refine Within.trans ?_ ((State.flag_within ..).mono (by decide))
  assumption

theorem State.bistRegs_within (s : State) :
    Within [.regs] s (State.bistRegs s) := by
  unfold State.bistRegs
  extract_lets y1
  clear_value y1
  refine Within.trans ?_ ((State.bistSel_within ..).mono (by decide))
  refine Within.trans ?_ ((State.put_within ..).mono (by decide))
  exact (State.flag_within ..).mono (by decide)

theorem State.keyBack_within (s : State) :
    Within [.regs, .boot] s (State.keyBack s) := by
  unfold State.keyBack
  refine Within.ite ?_ ?_
  · exact Within.refl _ _
  · exact (State.loadKey_within ..).mono (by decide)

theorem State.secretClear_within (s : State) (mem : Bool) :
    Within [.regs, .fresh, .out, .time, .host, .ring, .link, .boot] s (State.secretClear s mem) := by
  unfold State.secretClear
  refine Within.ite ?_ ?_
  · exact (State.zeroiseKeys_within ..).mono (by decide)
  · refine Within.each _ _ (fun x a => ?_) ?_
    · extract_lets y1 y2
      refine Within.via y2 ?_ fun _ => ?_
      · exact (State.onRing_within ..).mono (by decide)
      clear_value y1 y2
      refine Within.ite ?_ ?_
      · refine Within.trans ?_ ((State.toFault_within ..).mono (by decide))
        assumption
      · assumption
    · exact Within.refl _ _

theorem State.clearFor_within (s : State) (mem : Bool) (i : ℕ) (ok : Bool) :
    Within [.regs, .fresh, .out, .time, .host, .ring, .link, .boot, .bist] s (State.clearFor s mem i ok).1 := by
  unfold State.clearFor
  refine Within.ite_fst ?_ ?_
  · dsimp -zeta only
    exact Within.refl _ _
  · refine Within.ite_fst ?_ ?_
    · dsimp -zeta only
      exact (State.secretClear_within ..).mono (by decide)
    · extract_lets y1
      refine Within.via y1 ?_ fun _ => ?_
      · refine Within.trans ?_ ((State.clearUnconfirmed_within ..).mono (by decide))
        exact (State.secretClear_within ..).mono (by decide)
      clear_value y1
      refine Within.ite_fst ?_ ?_
      · dsimp -zeta only
        refine Within.when _ _ (fun x => ?_) ?_
        · exact (State.keyBack_within ..).mono (by decide)
        · refine Within.trans ?_ ((State.put_within ..).mono (by decide))
          refine Within.trans ?_ ((State.onBist_within ..).mono (by decide))
          assumption
      · dsimp -zeta only
        assumption

theorem State.partReset_within (s : State) (p : ℕ) (online : Bool) :
    Within [.regs, .fresh, .out, .pwr, .xing, .time, .host, .ring, .link, .mst, .ingest, .comp, .folds, .lamp, .therm, .bist, .latch] s (State.partReset s p online) := by
  unfold State.partReset
  refine Within.ite ?_ ?_
  · extract_lets y1 y2
    clear_value y1 y2
    refine Within.ite ?_ ?_
    · refine Within.ite ?_ ?_
      · exact (State.onFold_within ..).mono (by decide)
      · refine Within.trans ?_ ((State.onFold_within ..).mono (by decide))
        exact (State.foldReset_within ..).mono (by decide)
    · exact Within.refl _ _
  · refine Within.ite ?_ ?_
    · exact Within.refl _ _
    · extract_lets y3 y4
      refine Within.via y4 ?_ fun _ => ?_
      · refine Within.trans ?_ ((State.resetStatus_within ..).mono (by decide))
        exact (State.islandContent_within ..).mono (by decide)
      clear_value y3 y4
      refine Within.ite ?_ ?_
      · assumption
      · refine Within.trans ?_ ((State.islandStart_within ..).mono (by decide))
        assumption

theorem State.instLeft_within (s : State) (i : ℕ) (open_ : Bool) :
    Within [.regs, .fresh, .ring, .ingest, .comp, .folds, .lamp, .boot] s (State.instLeft s i open_) := by
  unfold State.instLeft
  extract_lets y1 y2 y3
  refine Within.via y2 ?_ fun _ => ?_
  · refine Within.ite ?_ ?_
    · exact (State.skipFresh_within ..).mono (by decide)
    · exact Within.refl _ _
  clear_value y1 y2
  clear_value y3
  refine Within.ite ?_ ?_
  · refine Within.trans ?_ ((State.onFold_within ..).mono (by decide))
    assumption
  · refine Within.ite ?_ ?_
    · refine Within.trans ?_ ((State.onFold_within ..).mono (by decide))
      assumption
    · refine Within.ite ?_ ?_
      · refine Within.trans ?_ ((State.onFold_within ..).mono (by decide))
        assumption
      · refine Within.ite ?_ ?_
        · refine Within.trans ?_ ((State.onComp_within ..).mono (by decide))
          assumption
        · refine Within.ite ?_ ?_
          · refine Within.trans ?_ ((State.onFold_within ..).mono (by decide))
            assumption
          · refine Within.ite ?_ ?_
            · refine Within.trans ?_ ((State.onLPort_within ..).mono (by decide))
              assumption
            · refine Within.ite ?_ ?_
              · refine Within.each _ _ (fun x a => ?_) ?_
                · exact (State.onLGroup_within ..).mono (by decide)
                · assumption
              · refine Within.ite ?_ ?_
                · refine Within.trans ?_ ((State.onRing_within ..).mono (by decide))
                  assumption
                · refine Within.ite ?_ ?_
                  · refine Within.trans ?_ ((State.onIngest_within ..).mono (by decide))
                    assumption
                  · refine Within.trans ?_ ((State.zeroiseKeys_within ..).mono (by decide))
                    assumption

theorem State.bistNext_within (s : State) (ok : Bool) (l : List Nat) (mem : Bool) :
    Within [.regs, .mem, .fresh, .out, .time, .host, .ring, .link, .ingest, .mst, .comp, .folds, .lamp, .boot, .bist] s
      (s.bistNext ok l mem) := by
  induction l generalizing s with
  | nil => exact Within.trans ((State.onBist_within ..).mono (by decide)) ((State.bistRegs_within ..).mono (by decide))
  | cons i rest ih =>
    unfold State.bistNext
    extract_lets refuse c
    have hr : ∀ code, Within [.regs, .mem, .fresh, .out, .time, .host, .ring, .link, .ingest, .mst, .comp, .folds, .lamp,
        .boot, .bist] s (refuse s code) := fun code => Within.trans ((State.put_within ..).mono (by decide)) (ih _)
    have hc : Within [.regs, .mem, .fresh, .out, .time, .host, .ring, .link, .ingest, .mst, .comp, .folds, .lamp,
        .boot, .bist] s c.1 := (State.clearFor_within ..).mono (by decide)
    refine Within.ite (hr _) (Within.ite (hr _) (Within.ite (hr _) (Within.ite ?_ (hc.trans (ih _)))))
    exact hc.trans (Within.trans ((State.onBist_within ..).mono (by decide)) ((State.bistRegs_within ..).mono (by decide)))

theorem State.bistRequest_within (s : State) (mem : Bool) (ok : Bool) :
    Within [.regs, .mem, .fresh, .out, .time, .host, .ring, .link, .ingest, .mst, .comp, .folds, .lamp, .boot, .bist] s (State.bistRequest s mem ok) := by
  unfold State.bistRequest
  extract_lets y1
  refine Within.via y1 ?_ fun _ => ?_
  · exact (State.flag_within ..).mono (by decide)
  clear_value y1
  refine Within.ite ?_ ?_
  · exact Within.refl _ _
  · refine Within.ite ?_ ?_
    · refine Within.trans ?_ ((State.inc_within ..).mono (by decide))
      exact (State.put_within ..).mono (by decide)
    · refine Within.ite ?_ ?_
      · refine Within.trans ?_ ((State.bistNext_within ..).mono (by decide))
        assumption
      · exact (State.bistNext_within ..).mono (by decide)

theorem execLbGo_within (clearOk : Bool) (s : State) :
    Within [.regs, .mem, .fresh, .out, .time, .host, .ring, .link, .ingest, .mst, .comp, .folds, .lamp, .boot, .bist] s (outcomeState (execLbGo clearOk s) s) := by
  unfold execLbGo
  dsimp -zeta only [outcomeState]
  exact (State.bistRequest_within ..).mono (by decide)

theorem execMbGo_within (clearOk : Bool) (s : State) :
    Within [.regs, .mem, .fresh, .out, .time, .host, .ring, .link, .ingest, .mst, .comp, .folds, .lamp, .boot, .bist] s (outcomeState (execMbGo clearOk s) s) := by
  unfold execMbGo
  dsimp -zeta only [outcomeState]
  exact (State.bistRequest_within ..).mono (by decide)

theorem State.testAborted_within (s : State) (r : BRun) :
    Within [.regs, .fresh, .out, .pwr, .xing, .time, .host, .ring, .link, .mst, .ingest, .comp, .folds, .lamp, .therm, .boot, .bist, .latch] s (State.testAborted s r) := by
  unfold State.testAborted
  split
  · refine Within.ite ?_ ?_
    · refine Within.when _ _ (fun x => ?_) ?_
      · exact (State.keyBack_within ..).mono (by decide)
      · exact (State.instLeft_within ..).mono (by decide)
    · refine Within.trans ?_ ((State.onPart_within ..).mono (by decide))
      exact (State.partReset_within ..).mono (by decide)
  · exact Within.refl _ _

theorem State.bistAbort_within (s : State) :
    Within [.regs, .fresh, .out, .pwr, .xing, .time, .host, .ring, .link, .mst, .ingest, .comp, .folds, .lamp, .therm, .boot, .bist, .latch] s (State.bistAbort s) := by
  unfold State.bistAbort
  split
  · refine Within.ite ?_ ?_
    · exact Within.refl _ _
    · refine Within.trans ?_ ((State.bistRegs_within ..).mono (by decide))
      refine Within.trans ?_ ((State.onBist_within ..).mono (by decide))
      exact (State.testAborted_within ..).mono (by decide)
  · exact Within.refl _ _

theorem execBistAbort_within (s : State) :
    Within [.regs, .fresh, .out, .pwr, .xing, .time, .host, .ring, .link, .mst, .ingest, .comp, .folds, .lamp, .therm, .boot, .bist, .latch] s (outcomeState (execBistAbort s) s) := by
  unfold execBistAbort
  dsimp -zeta only [outcomeState]
  refine Within.ite ?_ ?_
  · exact (State.bistAbort_within ..).mono (by decide)
  · exact Within.refl _ _

theorem State.bistClear_within (s : State) :
    Within [.regs] s (State.bistClear s) := by
  unfold State.bistClear
  refine Within.each _ _ (fun x a => ?_) ?_
  · exact (State.put_within ..).mono (by decide)
  · exact Within.refl _ _

theorem execBistClear_within (s : State) :
    Within [.regs] s (outcomeState (execBistClear s) s) := by
  unfold execBistClear
  dsimp -zeta only [outcomeState]
  refine Within.ite ?_ ?_
  · exact (State.bistClear_within ..).mono (by decide)
  · exact Within.refl _ _

theorem execJtagScanEntry_within (clearOk : Bool) (s : State) :
    Within [.regs, .fresh, .out, .pwr, .xing, .time, .host, .ring, .link, .mst, .ingest, .comp, .folds, .lamp, .therm, .boot, .bist, .latch] s (outcomeState (execJtagScanEntry clearOk s) s) := by
  unfold execJtagScanEntry
  dsimp -zeta only [outcomeState]
  refine Within.ite ?_ ?_
  · exact Within.refl _ _
  · extract_lets y1 y2
    refine Within.via y1 ?_ fun _ => ?_
    · refine Within.trans ?_ ((State.secretClear_within ..).mono (by decide))
      exact (State.secretClear_within ..).mono (by decide)
    clear_value y1
    refine Within.via y2 ?_ fun _ => ?_
    · refine Within.ite ?_ ?_
      · assumption
      · refine Within.trans ?_ ((State.clearUnconfirmed_within ..).mono (by decide))
        assumption
    clear_value y2
    refine Within.trans ?_ ((State.keyBack_within ..).mono (by decide))
    refine Within.ite ?_ ?_
    · assumption
    · refine Within.each _ _ (fun x a => ?_) ?_
      · exact (State.partReset_within ..).mono (by decide)
      · assumption

theorem execBistPrecondSample_within (s : State) :
    Within [.bist] s (outcomeState (execBistPrecondSample s) s) := by
  unfold execBistPrecondSample
  dsimp -zeta only [outcomeState]
  refine Within.ite ?_ ?_
  · exact (State.onBist_within ..).mono (by decide)
  · exact Within.refl _ _

theorem State.bistContinue_within (s : State) (r : BRun) (ok : Bool) :
    Within [.regs, .mem, .fresh, .out, .time, .host, .ring, .link, .ingest, .mst, .comp, .folds, .lamp, .boot, .bist] s (State.bistContinue s r ok) := by
  unfold State.bistContinue
  refine Within.ite ?_ ?_
  · refine Within.trans ?_ ((State.bistRegs_within ..).mono (by decide))
    exact (State.onBist_within ..).mono (by decide)
  · exact (State.bistNext_within ..).mono (by decide)

theorem execLbistPartitionDone_within (misr : ℕ) (clearOk : Bool) (s : State) :
    Within [.regs, .mem, .fresh, .out, .pwr, .xing, .time, .host, .ring, .link, .ingest, .mst, .comp, .folds, .lamp, .therm, .boot, .bist, .latch] s (outcomeState (execLbistPartitionDone misr clearOk s) s) := by
  unfold execLbistPartitionDone
  dsimp -zeta only [outcomeState]
  split
  · split
    · refine Within.ite ?_ ?_
      · refine Within.trans ?_ ((State.bistContinue_within ..).mono (by decide))
        exact (State.testAborted_within ..).mono (by decide)
      · extract_lets y1 y2 y3 y4
        refine Within.via y2 ?_ fun _ => ?_
        · refine Within.trans ?_ ((State.onPart_within ..).mono (by decide))
          exact (State.partReset_within ..).mono (by decide)
        clear_value y1 y2
        refine Within.via y3 ?_ fun _ => ?_
        · refine Within.trans ?_ ((State.inc_within ..).mono (by decide))
          assumption
        clear_value y3
        refine Within.via y4 ?_ fun _ => ?_
        · refine Within.ite ?_ ?_
          · assumption
          · refine Within.trans ?_ ((State.selfTestFault_within ..).mono (by decide))
            refine Within.trans ?_ ((State.inc_within ..).mono (by decide))
            assumption
        clear_value y4
        refine Within.trans ?_ ((State.bistContinue_within ..).mono (by decide))
        assumption
    · exact Within.refl _ _
  · exact Within.refl _ _

theorem execMbistInstanceDone_within (failure : Option (ℕ × ℕ × Bool)) (clearOk : Bool) (s : State) :
    Within [.regs, .mem, .fresh, .out, .pwr, .xing, .time, .host, .ring, .link, .ingest, .mst, .comp, .folds, .lamp, .therm, .boot, .bist, .latch] s (outcomeState (execMbistInstanceDone failure clearOk s) s) := by
  unfold execMbistInstanceDone
  dsimp -zeta only [outcomeState]
  split
  · split
    · refine Within.ite ?_ ?_
      · refine Within.trans ?_ ((State.bistContinue_within ..).mono (by decide))
        exact (State.testAborted_within ..).mono (by decide)
      · extract_lets y1 y2 y3 y4
        refine Within.via y1 ?_ fun _ => ?_
        · exact (State.instLeft_within ..).mono (by decide)
        clear_value y1
        refine Within.via y3 ?_ fun _ => ?_
        · dsimp -zeta only [y3]
          split
          · extract_lets y5
            refine Within.via y5 ?_ fun _ => ?_
            · refine Within.trans ?_ ((State.memFailed_within ..).mono (by decide))
              assumption
            clear_value y5
            refine Within.ite ?_ ?_
            · refine Within.trans ?_ ((State.addJob_within ..).mono (by decide))
              assumption
            · assumption
          · assumption
        clear_value y2 y3
        refine Within.via y4 ?_ fun _ => ?_
        · refine Within.when _ _ (fun x => ?_) ?_
          · exact (State.keyBack_within ..).mono (by decide)
          · assumption
        clear_value y4
        refine Within.trans ?_ ((State.bistContinue_within ..).mono (by decide))
        assumption
    · exact Within.refl _ _
  · exact Within.refl _ _

theorem State.onlineStart_within (s : State) (p : Nat) :
    Within [.regs, .bist] s (State.onlineStart s p) := by
  unfold State.onlineStart
  refine Within.ite ?_ ?_
  · refine Within.trans ?_ ((State.onBist_within ..).mono (by decide))
    refine Within.trans ?_ ((State.inc_within ..).mono (by decide))
    exact (State.put_within ..).mono (by decide)
  · refine Within.trans ?_ ((State.bistRegs_within ..).mono (by decide))
    exact (State.onBist_within ..).mono (by decide)

theorem execOnlineBistWindow_within (s : State) :
    Within [.regs, .bist] s (outcomeState (execOnlineBistWindow s) s) := by
  unfold execOnlineBistWindow
  extract_lets y1 y2 y3 y4
  refine Within.via y1 ?_ fun _ => ?_
  · refine Within.ite ?_ ?_
    · exact (State.inc_within ..).mono (by decide)
    · exact Within.refl _ _
  clear_value y1 y2 y3
  refine Within.via y4 ?_ fun _ => ?_
  · refine Within.trans ?_ ((State.onBist_within ..).mono (by decide))
    assumption
  clear_value y4
  dsimp -zeta only [outcomeState]
  refine Within.ite ?_ ?_
  · exact Within.refl _ _
  · refine Within.ite ?_ ?_
    · refine Within.trans ?_ ((State.onlineStart_within ..).mono (by decide))
      assumption
    · assumption

theorem execOnlineBistGapStart_within (s : State) :
    Within [.regs, .bist] s (outcomeState (execOnlineBistGapStart s) s) := by
  unfold execOnlineBistGapStart
  extract_lets y1 y2 y3
  clear_value y1 y2 y3
  dsimp -zeta only [outcomeState]
  refine Within.ite ?_ ?_
  · exact (State.onlineStart_within ..).mono (by decide)
  · exact Within.refl _ _

theorem State.keepCount_within (s : State) (a : Nat) :
    Within [.bist] s (State.keepCount s a) := by
  unfold State.keepCount
  extract_lets y1
  clear_value y1
  refine Within.ite ?_ ?_
  · exact (State.onBist_within ..).mono (by decide)
  · exact Within.refl _ _

theorem execHealthReportTimer_within (s : State) :
    Within [.regs, .out, .ring, .bist] s (outcomeState (execHealthReportTimer s) s) := by
  unfold execHealthReportTimer
  dsimp -zeta only [outcomeState]
  refine Within.ite ?_ ?_
  · exact Within.refl _ _
  · extract_lets y1 y2 y3 y4 y5 y6
    refine Within.via y2 ?_ fun _ => ?_
    · exact (State.healthFrom_within ..).mono (by decide)
    clear_value y1 y2
    refine Within.via y3 ?_ fun _ => ?_
    · refine Within.trans ?_ ((State.flag_within ..).mono (by decide))
      assumption
    clear_value y3
    refine Within.via y4 ?_ fun _ => ?_
    · refine Within.each _ _ (fun x a => ?_) ?_
      · exact (State.put_within ..).mono (by decide)
      · assumption
    clear_value y4
    refine Within.via y5 ?_ fun _ => ?_
    · refine Within.trans ?_ ((State.onBist_within ..).mono (by decide))
      assumption
    clear_value y5
    clear_value y6
    refine Within.ite ?_ ?_
    · assumption
    · refine Within.ite ?_ ?_
      · refine Within.trans ?_ ((State.tileSend_within ..).mono (by decide))
        assumption
      · refine Within.ite ?_ ?_
        · refine Within.trans ?_ ((State.headSend_within ..).mono (by decide))
          assumption
        · assumption

theorem State.tileSel_within (s : State) :
    Within [.regs] s (State.tileSel s) := by
  unfold State.tileSel
  split
  · refine Within.each _ _ (fun x a => ?_) ?_
    · exact (State.put_within ..).mono (by decide)
    · exact (State.put_within ..).mono (by decide)
  · refine Within.each _ _ (fun x a => ?_) ?_
    · exact (State.put_within ..).mono (by decide)
    · exact (State.put_within ..).mono (by decide)

theorem State.rxHealth_within (s : State) (addr : ℕ) (p : Bytes) :
    Within [.regs, .fresh, .out, .host, .ring, .bist] s (State.rxHealth s addr p) := by
  unfold State.rxHealth
  extract_lets y1 y2 y3 y4
  refine Within.via y2 ?_ fun _ => ?_
  · refine Within.trans ?_ ((State.tileSel_within ..).mono (by decide))
    exact (State.onBist_within ..).mono (by decide)
  clear_value y1 y2
  clear_value y3 y4
  refine Within.ite ?_ ?_
  · exact Within.refl _ _
  · refine Within.ite ?_ ?_
    · assumption
    · split
      · assumption
      · extract_lets y5 y6 y7 y8 y9 y10
        refine Within.via y8 ?_ fun _ => ?_
        · refine Within.trans ?_ ((State.onRing_within ..).mono (by decide))
          assumption
        clear_value y5 y6 y7 y8
        refine Within.via y9 ?_ fun _ => ?_
        · refine Within.trans ?_ ((State.judgeRings_within ..).mono (by decide))
          refine Within.ite ?_ ?_
          · refine Within.trans ?_ ((State.diverge_within ..).mono (by decide))
            assumption
          · assumption
        clear_value y9
        refine Within.via y10 ?_ fun _ => ?_
        · refine Within.ite ?_ ?_
          · refine Within.trans ?_ ((State.sendWall_within ..).mono (by decide))
            refine Within.trans ?_ ((State.reclassify_within ..).mono (by decide))
            assumption
          · assumption
        clear_value y10
        refine Within.trans ?_ ((State.judgeStart_within ..).mono (by decide))
        assumption

theorem execHealth_within (addr : Nat) (payload : Bytes) (s : State) :
    Within [.regs, .fresh, .out, .host, .ring, .bist] s (outcomeState (execHealth addr payload s) s) := by
  unfold execHealth
  dsimp -zeta only [outcomeState]
  refine Within.ite ?_ ?_
  · exact (State.rxHealth_within ..).mono (by decide)
  · exact Within.refl _ _

theorem State.gpioCfg_within (s : State) (k : ℕ) (v : ℕ) :
    Within [.regs, .out, .time] s (State.gpioCfg s k v) := by
  unfold State.gpioCfg
  extract_lets y1 y2 y3 y4
  refine Within.via y3 ?_ fun _ => ?_
  · refine Within.ite ?_ ?_
    · exact (State.onAlarm_within ..).mono (by decide)
    · exact Within.refl _ _
  clear_value y1 y2 y3
  refine Within.via y4 ?_ fun _ => ?_
  · refine Within.trans ?_ ((State.setReg_within ..).mono (by decide))
    assumption
  clear_value y4
  refine Within.trans ?_ ((State.drivePin_within ..).mono (by decide))
  assumption

theorem execGpioCfgWrite_within (pin : Fin 16) (value : ℕ) (s : State) :
    Within [.regs, .out, .time] s (outcomeState (execGpioCfgWrite pin value s) s) := by
  unfold execGpioCfgWrite
  dsimp -zeta only [outcomeState]
  refine Within.ite ?_ ?_
  · exact Within.refl _ _
  · refine Within.ite ?_ ?_
    · exact (State.logConflict_within ..).mono (by decide)
    · exact (State.gpioCfg_within ..).mono (by decide)

end Sys2Proof.Machine
end

