-- ==== Sys2Proof/Laws/WithinRegWrite.lean ====
section
/-! SUPPORT. What each operation and each meaning of Machine/RegWrite.lean can do to the state: the parts it may change, and that it
keeps the canonical form and the shape. -/
set_option Elab.async false
namespace Sys2Proof.Machine

theorem State.ageRwp_within (s : State) (c : Nat) (opened : Option Nat) :
    Within [.regs, .out, .host, .ring] s (State.ageRwp s c opened) := by
  unfold State.ageRwp
  extract_lets y1 y2
  clear_value y1
  refine Within.via y2 ?_ fun _ => ?_
  · exact (State.onCtx_within ..).mono (by decide)
  clear_value y2
  refine Within.when _ _ (fun x => ?_) ?_
  · exact (State.ctxFault_within ..).mono (by decide)
  · assumption

theorem State.rwpOpen_within (s : State) (c : Nat) (a : Nat) (v : Nat) :
    Within [.regs, .out, .host, .ring] s (State.rwpOpen s c a v) := by
  unfold State.rwpOpen
  extract_lets y1 y2
  clear_value y1
  refine Within.via y2 ?_ fun _ => ?_
  · exact (State.onCtx_within ..).mono (by decide)
  clear_value y2
  refine Within.when _ _ (fun x => ?_) ?_
  · exact (State.ctxFault_within ..).mono (by decide)
  · assumption

theorem State.rwpEffect_within (s : State) (t : Option (ℕ × ℕ)) (a : ℕ) (v : ℕ) :
    Within [.regs, .fresh, .out, .pwr, .host, .ring, .mst, .boot, .bist] s (State.rwpEffect s t a v) := by
  unfold State.rwpEffect
  extract_lets y1
  clear_value y1
  refine Within.ite ?_ ?_
  · exact (State.rstRequest_within ..).mono (by decide)
  · refine Within.ite ?_ ?_
    · refine Within.trans ?_ ((State.lcTransition_within ..).mono (by decide))
      exact (State.put_within ..).mono (by decide)
    · refine Within.ite ?_ ?_
      · refine Within.trans ?_ ((State.secRevoke_within ..).mono (by decide))
        exact (State.put_within ..).mono (by decide)
      · refine Within.ite ?_ ?_
        · refine Within.trans ?_ ((State.bootConfirm_within ..).mono (by decide))
          exact (State.put_within ..).mono (by decide)
        · refine Within.ite ?_ ?_
          · exact Within.refl _ _
          · refine Within.trans ?_ ((State.transports_within ..).mono (by decide))
            exact (State.setReg_within ..).mono (by decide)

theorem State.rwpClose_within (s : State) (c : ℕ) (t : Option (ℕ × ℕ)) (a : ℕ) (v : ℕ) :
    Within [.regs, .fresh, .out, .pwr, .host, .ring, .mst, .boot, .bist] s (State.rwpClose s c t a v) := by
  unfold State.rwpClose
  extract_lets y1 y2
  refine Within.via y2 ?_ fun _ => ?_
  · exact (State.onCtx_within ..).mono (by decide)
  clear_value y1 y2
  split
  · refine Within.trans ?_ ((State.ctxFault_within ..).mono (by decide))
    assumption
  · refine Within.ite ?_ ?_
    · refine Within.trans ?_ ((State.rwpEffect_within ..).mono (by decide))
      assumption
    · refine Within.trans ?_ ((State.ctxFault_within ..).mono (by decide))
      assumption

theorem State.flockClear_within (s : State) :
    Within [.regs] s (State.flockClear s) := by
  unfold State.flockClear
  refine Within.trans ?_ ((State.zero_within ..).mono (by decide))
  refine Within.trans ?_ ((State.zero_within ..).mono (by decide))
  refine Within.trans ?_ ((State.zero_within ..).mono (by decide))
  exact (State.zero_within ..).mono (by decide)

theorem State.staleClr_within (s : State) :
    Within [.regs] s (State.staleClr s) := by
  unfold State.staleClr
  exact (State.flag_within ..).mono (by decide)

theorem execFlockClear_within (s : State) :
    Within [.regs] s (outcomeState (execFlockClear s) s) := by
  unfold execFlockClear
  dsimp -zeta only [outcomeState]
  refine Within.ite ?_ ?_
  · exact (State.flockClear_within ..).mono (by decide)
  · exact Within.refl _ _

theorem execStaleClr_within (s : State) :
    Within [.regs] s (outcomeState (execStaleClr s) s) := by
  unfold execStaleClr
  dsimp -zeta only [outcomeState]
  refine Within.ite ?_ ?_
  · exact (State.staleClr_within ..).mono (by decide)
  · exact Within.refl _ _

theorem State.bitAct_within {ps : List Part} {s t : State} {w : WrCtx} {k : Nat} {f : State → State}
    (_ : Part.subset [] ps = true) (hf : ∀ x, Within ps x (f x)) (h : Within ps s t) : Within ps s (t.bitAct w k f) :=
  Within.when _ _ hf h

theorem State.gpioOut_within (s : State) (w : WrCtx) :
    Within [.out] s (State.gpioOut s w) := by
  unfold State.gpioOut
  refine Within.each _ _ (fun x a => ?_) ?_
  · refine Within.ite ?_ ?_
    · exact (State.emit_within ..).mono (by decide)
    · exact Within.refl _ _
  · exact Within.refl _ _

theorem State.maskWritten_within (s : State) (w : WrCtx) :
    Within [.out, .host, .ring] s (State.maskWritten s w) := by
  unfold State.maskWritten
  extract_lets y1
  clear_value y1
  refine Within.each _ _ (fun x a => ?_) ?_
  · refine Within.ite ?_ ?_
    · exact (State.deliver_within ..).mono (by decide)
    · exact Within.refl _ _
  · exact Within.refl _ _

theorem State.cqHead_within (s : State) (c : ℕ) (v : ℕ) :
    Within [.regs, .fresh, .out, .host, .ring, .mst, .bist] s (State.cqHead s c v) := by
  unfold State.cqHead
  extract_lets y1 y2 y3 y4 y5 y6
  refine Within.via y6 ?_ fun _ => ?_
  · refine Within.each _ _ (fun x a => ?_) ?_
    · exact (State.freeRec_within ..).mono (by decide)
    · exact (State.put_within ..).mono (by decide)
  clear_value y1 y2 y3 y4 y5 y6
  refine Within.ite ?_ ?_
  · exact (State.ctxFault_within ..).mono (by decide)
  · refine Within.trans ?_ ((State.flushCq_within ..).mono (by decide))
    assumption

theorem State.sqTail_within (s : State) (c : Nat) (v : Nat) :
    Within [.regs, .out, .host, .ring] s (State.sqTail s c v) := by
  unfold State.sqTail
  extract_lets y1
  refine Within.via y1 ?_ fun _ => ?_
  · refine Within.ite ?_ ?_
    · exact (State.onCtx_within ..).mono (by decide)
    · exact Within.refl _ _
  clear_value y1
  refine Within.ite ?_ ?_
  · exact (State.ctxFault_within ..).mono (by decide)
  · refine Within.trans ?_ ((State.put_within ..).mono (by decide))
    assumption

theorem State.doorbell_within (s : State) (c : ℕ) (v : ℕ) :
    Within [.regs, .out, .host, .ring] s (State.doorbell s c v) := by
  unfold State.doorbell
  refine Within.ite ?_ ?_
  · exact (State.sqTail_within ..).mono (by decide)
  · exact (State.wrongTransport_within ..).mono (by decide)

theorem State.foldCtl_within (s : State) (w : WrCtx) (at_ : ℕ) :
    Within [.regs, .folds] s (State.foldCtl s w at_) := by
  unfold State.foldCtl
  extract_lets y1 y2
  refine Within.via y1 ?_ fun _ => ?_
  · refine Within.ite ?_ ?_
    · exact (State.foldEnable_within ..).mono (by decide)
    · exact Within.refl _ _
  clear_value y1
  refine Within.via y2 ?_ fun _ => ?_
  · refine State.bitAct_within (by decide) ?_ ?_
    · intro _
      exact (State.foldStop_within ..).mono (by decide)
    · refine State.bitAct_within (by decide) ?_ ?_
      · intro _
        exact (State.foldRestart_within ..).mono (by decide)
      · refine State.bitAct_within (by decide) ?_ ?_
        · intro _
          exact (State.foldActivate_within ..).mono (by decide)
        · assumption
  clear_value y2
  refine State.bitAct_within (by decide) ?_ ?_
  · intro _
    exact (State.foldClear_within ..).mono (by decide)
  · assumption

theorem State.dlCtl_within (s : State) (w : WrCtx) :
    Within [.regs, .fresh, .out, .host, .ring, .mst, .boot, .bist] s (State.dlCtl s w) := by
  unfold State.dlCtl
  extract_lets y1
  refine Within.via y1 ?_ fun _ => ?_
  · refine State.bitAct_within (by decide) ?_ ?_
    · intro _
      exact (State.dlCancel_within ..).mono (by decide)
    · refine State.bitAct_within (by decide) ?_ ?_
      · intro _
        exact (State.dlBegin_within ..).mono (by decide)
      · exact Within.refl _ _
  clear_value y1
  refine State.bitAct_within (by decide) ?_ ?_
  · intro _
    exact (State.dlCancel_within ..).mono (by decide)
  · refine State.bitAct_within (by decide) ?_ ?_
    · intro _
      exact (State.dlBegin_within ..).mono (by decide)
    · assumption

theorem State.bistCtl_within (s : State) (w : WrCtx) :
    Within [.regs, .mem, .fresh, .out, .pwr, .xing, .time, .host, .ring, .link, .ingest, .mst, .comp, .folds, .lamp, .therm, .boot, .bist, .latch] s (State.bistCtl s w) := by
  unfold State.bistCtl
  extract_lets y1 y2 y3
  refine Within.via y2 ?_ fun _ => ?_
  · refine Within.ite ?_ ?_
    · exact (State.tickFresh_within ..).mono (by decide)
    · exact Within.refl _ _
  clear_value y1 y2
  refine Within.via y3 ?_ fun _ => ?_
  · refine State.bitAct_within (by decide) ?_ ?_
    · intro _
      exact (State.bistClear_within ..).mono (by decide)
    · refine State.bitAct_within (by decide) ?_ ?_
      · intro _
        exact (State.bistAbort_within ..).mono (by decide)
      · assumption
  clear_value y3
  refine State.bitAct_within (by decide) ?_ ?_
  · intro _
    exact (State.bistRequest_within ..).mono (by decide)
  · refine State.bitAct_within (by decide) ?_ ?_
    · intro _
      exact (State.bistRequest_within ..).mono (by decide)
    · assumption

theorem State.laneAct_within (s : State) (d : RegDef) (w : WrCtx) :
    Within [.regs, .fresh, .out, .time, .host, .ring, .link] s (State.laneAct s d w) := by
  unfold State.laneAct
  refine Within.ite ?_ ?_
  · refine State.bitAct_within (by decide) ?_ ?_
    · intro _
      exact (State.injectGo_within ..).mono (by decide)
    · refine Within.when _ _ (fun x => ?_) ?_
      · exact (State.onLane_within ..).mono (by decide)
      · exact Within.refl _ _
  · refine Within.ite ?_ ?_
    · extract_lets y1
      refine Within.via y1 ?_ fun _ => ?_
      · refine Within.when _ _ (fun x => ?_) ?_
        · exact (State.rxPolarity_within ..).mono (by decide)
        · exact Within.refl _ _
      clear_value y1
      refine Within.ite ?_ ?_
      · refine Within.trans ?_ ((State.judgeTest_within ..).mono (by decide))
        assumption
      · assumption
    · refine Within.ite ?_ ?_
      · exact (State.eqWritten_within ..).mono (by decide)
      · refine Within.ite ?_ ?_
        · exact (State.cdrWritten_within ..).mono (by decide)
        · refine Within.ite ?_ ?_
          · refine State.bitAct_within (by decide) ?_ ?_
            · intro _
              exact (State.portClear_within ..).mono (by decide)
            · refine State.bitAct_within (by decide) ?_ ?_
              · intro _
                exact (State.retrain_within ..).mono (by decide)
              · exact Within.refl _ _
          · refine Within.ite ?_ ?_
            · refine Within.ite ?_ ?_
              · exact (State.enablePort_within ..).mono (by decide)
              · refine Within.ite ?_ ?_
                · exact (State.disablePort_within ..).mono (by decide)
                · exact Within.refl _ _
            · exact Within.refl _ _

theorem State.timeAct_within (s : State) (d : RegDef) (w : WrCtx) :
    Within [.regs, .fresh, .out, .xing, .time, .host, .ring, .ingest, .folds, .lamp, .therm, .bist, .flocks, .latch] s (State.timeAct s d w) := by
  unfold State.timeAct
  refine Within.ite ?_ ?_
  · refine State.bitAct_within (by decide) ?_ ?_
    · intro _
      exact (State.timeClear_within ..).mono (by decide)
    · refine State.bitAct_within (by decide) ?_ ?_
      · intro _
        exact (State.relock_within ..).mono (by decide)
      · refine State.bitAct_within (by decide) ?_ ?_
        · intro _
          exact (State.capture_within ..).mono (by decide)
        · exact Within.refl _ _
  · refine Within.ite ?_ ?_
    · refine Within.ite ?_ ?_
      · refine Within.trans ?_ ((State.ptpRestart_within ..).mono (by decide))
        exact (State.newMode_within ..).mono (by decide)
      · exact Within.refl _ _
    · refine Within.ite ?_ ?_
      · refine Within.ite ?_ ?_
        · exact (State.ptpRestart_within ..).mono (by decide)
        · exact Within.refl _ _
      · refine Within.ite ?_ ?_
        · exact (State.armAlarm_within ..).mono (by decide)
        · refine Within.ite ?_ ?_
          · refine State.bitAct_within (by decide) ?_ ?_
            · intro _
              exact (State.handover_within ..).mono (by decide)
            · refine State.bitAct_within (by decide) ?_ ?_
              · intro _
                exact (State.ringClear_within ..).mono (by decide)
              · refine State.bitAct_within (by decide) ?_ ?_
                · intro _
                  exact (State.enumerate_within ..).mono (by decide)
                · exact Within.refl _ _
          · refine Within.ite ?_ ?_
            · refine Within.ite ?_ ?_
              · exact (State.elected_within ..).mono (by decide)
              · exact Within.refl _ _
            · refine Within.ite ?_ ?_
              · refine State.bitAct_within (by decide) ?_ ?_
                · intro _
                  exact (State.staleClr_within ..).mono (by decide)
                · refine State.bitAct_within (by decide) ?_ ?_
                  · intro _
                    exact (State.flockClear_within ..).mono (by decide)
                  · exact Within.refl _ _
              · refine Within.ite ?_ ?_
                · exact (State.flockRegs_within ..).mono (by decide)
                · exact Within.refl _ _

theorem State.dataAct_within (s : State) (d : RegDef) (w : WrCtx) :
    Within [.regs, .mem, .out, .mst, .lamp] s (State.dataAct s d w) := by
  unfold State.dataAct
  refine Within.ite ?_ ?_
  · refine Within.trans ?_ ((State.lampStatus_within ..).mono (by decide))
    refine State.bitAct_within (by decide) ?_ ?_
    · intro _
      exact (State.lampClear_within ..).mono (by decide)
    · refine State.bitAct_within (by decide) ?_ ?_
      · intro _
        exact (State.invalidateAll_within ..).mono (by decide)
      · exact Within.refl _ _
  · refine Within.ite ?_ ?_
    · exact (State.put_within ..).mono (by decide)
    · refine Within.ite ?_ ?_
      · exact (State.refill_within ..).mono (by decide)
      · refine Within.ite ?_ ?_
        · refine Within.ite ?_ ?_
          · exact (State.diagReset_within ..).mono (by decide)
          · exact Within.refl _ _
        · refine Within.ite ?_ ?_
          · exact (State.onLPort_within ..).mono (by decide)
          · refine Within.ite ?_ ?_
            · refine State.bitAct_within (by decide) ?_ ?_
              · intro _
                exact (State.corrClear_within ..).mono (by decide)
              · exact Within.refl _ _
            · refine Within.ite ?_ ?_
              · extract_lets y1
                refine Within.via y1 ?_ fun _ => ?_
                · refine State.bitAct_within (by decide) ?_ ?_
                  · intro _
                    exact (State.logRearm_within ..).mono (by decide)
                  · refine State.bitAct_within (by decide) ?_ ?_
                    · intro _
                      exact (State.memClear_within ..).mono (by decide)
                    · exact Within.refl _ _
                clear_value y1
                refine Within.when _ _ (fun x => ?_) ?_
                · exact (State.scrubAnew_within ..).mono (by decide)
                · assumption
              · refine Within.ite ?_ ?_
                · refine Within.when _ _ (fun x => ?_) ?_
                  · exact (State.scrubAnew_within ..).mono (by decide)
                  · exact Within.refl _ _
                · refine Within.ite ?_ ?_
                  · refine State.bitAct_within (by decide) ?_ ?_
                    · intro _
                      exact (State.hpdIrq_within ..).mono (by decide)
                    · exact Within.refl _ _
                  · exact Within.refl _ _

theorem State.sysAct_within (s : State) (d : RegDef) (w : WrCtx) :
    Within [.regs, .mem, .fresh, .out, .pwr, .xing, .time, .host, .ring, .link, .ingest, .mst, .comp, .folds, .lamp, .therm, .boot, .bist, .latch] s (State.sysAct s d w) := by
  unfold State.sysAct
  refine Within.ite ?_ ?_
  · exact (State.transports_within ..).mono (by decide)
  · refine Within.ite ?_ ?_
    · exact (State.maskWritten_within ..).mono (by decide)
    · refine Within.ite ?_ ?_
      · refine State.bitAct_within (by decide) ?_ ?_
        · intro _
          exact (State.xingClear_within ..).mono (by decide)
        · exact Within.refl _ _
      · refine Within.ite ?_ ?_
        · refine State.bitAct_within (by decide) ?_ ?_
          · intro _
            exact (State.thermClear_within ..).mono (by decide)
          · exact Within.refl _ _
        · refine Within.ite ?_ ?_
          · exact (State.calRun_within ..).mono (by decide)
          · refine Within.ite ?_ ?_
            · exact (State.dutyLimits_within ..).mono (by decide)
            · refine Within.ite ?_ ?_
              · exact (State.dlCtl_within ..).mono (by decide)
              · refine Within.ite ?_ ?_
                · refine State.bitAct_within (by decide) ?_ ?_
                  · intro _
                    exact (State.attestGo_within ..).mono (by decide)
                  · exact Within.refl _ _
                · refine Within.ite ?_ ?_
                  · exact (State.bistCtl_within ..).mono (by decide)
                  · refine Within.ite ?_ ?_
                    · exact (State.bistSel_within ..).mono (by decide)
                    · refine Within.ite ?_ ?_
                      · exact (State.tileSel_within ..).mono (by decide)
                      · refine Within.ite ?_ ?_
                        · refine Within.trans ?_ ((State.bistSel_within ..).mono (by decide))
                          exact (State.onPart_within ..).mono (by decide)
                        · refine Within.ite ?_ ?_
                          · refine Within.trans ?_ ((State.bistSel_within ..).mono (by decide))
                            exact (State.onPart_within ..).mono (by decide)
                          · refine Within.ite ?_ ?_
                            · refine Within.trans ?_ ((State.bistSel_within ..).mono (by decide))
                              exact (State.onPart_within ..).mono (by decide)
                            · refine Within.ite ?_ ?_
                              · refine Within.trans ?_ ((State.bistSel_within ..).mono (by decide))
                                exact (State.onPart_within ..).mono (by decide)
                              · refine Within.ite ?_ ?_
                                · exact (State.gpioOut_within ..).mono (by decide)
                                · exact Within.refl _ _

theorem State.regAct_within (s : State) (d : RegDef) (w : WrCtx) :
    Within [.regs, .mem, .fresh, .out, .pwr, .xing, .time, .host, .ring, .link, .ingest, .mst, .comp, .folds, .lamp, .therm, .boot, .bist, .flocks, .latch] s (State.regAct s d w) := by
  unfold State.regAct
  split
  · exact (State.laneAct_within ..).mono (by decide)
  · exact (State.laneAct_within ..).mono (by decide)
  · exact (State.timeAct_within ..).mono (by decide)
  · exact (State.timeAct_within ..).mono (by decide)
  · exact (State.timeAct_within ..).mono (by decide)
  · refine Within.ite ?_ ?_
    · exact (State.diagReset_within ..).mono (by decide)
    · exact Within.refl _ _
  · refine Within.ite ?_ ?_
    · exact (State.dataAct_within ..).mono (by decide)
    · exact (State.sysAct_within ..).mono (by decide)
  · exact Within.refl _ _

theorem State.storeReg_within (s : State) (c : ℕ) (t : Option (ℕ × ℕ)) (a : ℕ) (v : ℕ) (p : FieldDef → Bool) (act : Bool) :
    Within [.regs, .mem, .fresh, .out, .pwr, .xing, .time, .host, .ring, .link, .ingest, .mst, .comp, .folds, .lamp, .therm, .boot, .bist, .flocks, .latch] s (State.storeReg s c t a v p act) := by
  unfold State.storeReg
  split
  · exact Within.refl _ _
  · extract_lets y1 y2
    refine Within.via y2 ?_ fun _ => ?_
    · exact (State.setReg_within ..).mono (by decide)
    clear_value y1 y2
    refine Within.ite ?_ ?_
    · refine Within.trans ?_ ((State.regAct_within ..).mono (by decide))
      assumption
    · assumption

theorem State.waitLatch_within (s : State) (c : ℕ) (t : Option (ℕ × ℕ)) (at_ : ℕ) (a : ℕ) (v : ℕ) :
    Within [.latch] s (State.waitLatch s c t at_ a v) := by
  unfold State.waitLatch
  exact (State.onLatch_within ..).mono (by decide)

theorem State.logAccess_within (s : State) (c : Nat) (a : Nat) (kind : Nat) :
    Within [.regs] s (State.logAccess s c a kind) := by
  unfold State.logAccess
  extract_lets y1 y2
  refine Within.via y1 ?_ fun _ => ?_
  · exact (State.inc_within ..).mono (by decide)
  clear_value y1
  refine Within.via y2 ?_ fun _ => ?_
  · refine Within.trans ?_ ((State.put_within ..).mono (by decide))
    refine Within.trans ?_ ((State.flag_within ..).mono (by decide))
    refine Within.trans ?_ ((State.put_within ..).mono (by decide))
    assumption
  clear_value y2
  refine Within.ite ?_ ?_
  · assumption
  · refine Within.trans ?_ ((State.flag_within ..).mono (by decide))
    refine Within.trans ?_ ((State.put_within ..).mono (by decide))
    assumption

theorem Within.some_ite {ps : List Part} {s u : State} {c : Prop} [Decidable c] {x : State} {y : Option State}
    (h : Within ps s x) (k : y = some u → Within ps s u) : (if c then some x else y) = some u → Within ps s u := by
  split
  · intro e
    cases e
    exact h
  · exact k

theorem State.ownWrite_within (s : State) (c : Nat) (t : Option (Nat × Nat)) (at_ a v : Nat) (u : State)
    (h : s.ownWrite c t at_ a v = some u) :
    Within [.regs, .mem, .fresh, .out, .pwr, .xing, .time, .host, .ring, .link, .ingest, .mst, .comp, .folds, .lamp, .therm, .boot, .bist,
      .flocks, .latch] s u := by
  unfold State.ownWrite at h
  revert h
  split
  · intro h
    contradiction
  · extract_lets hold
    have hh : ∀ x : State, Within [.regs, .mem, .fresh, .out, .pwr, .xing, .time, .host, .ring, .link, .ingest, .mst, .comp, .folds, .lamp, .therm, .boot, .bist,
      .flocks, .latch] x (hold x) := by
      intro x
      unfold hold
      cases t with
      | none => exact Within.refl _ _
      | some q => exact (State.onIngest_within ..).mono (by decide)
    refine Within.some_ite (Within.ite (Within.trans ((State.commitAddr_within ..).mono (by decide)) (hh _)) (Within.refl _ _)) ?_
    refine Within.some_ite (Within.ite (Within.trans ((State.commitClip_within ..).mono (by decide)) (hh _)) (Within.refl _ _)) ?_
    refine Within.some_ite (Within.refl _ _) ?_
    refine Within.some_ite ((State.writeTxffe_within ..).mono (by decide)) ?_
    refine Within.some_ite ((State.writePrbs_within ..).mono (by decide)) ?_
    refine Within.some_ite (Within.refl _ _) ?_
    refine Within.some_ite ((State.writeTimeSet_within ..).mono (by decide)) ?_
    refine Within.some_ite ((State.writeTimeSetLo_within ..).mono (by decide)) ?_
    refine Within.some_ite ((State.gpioCfg_within ..).mono (by decide)) ?_
    refine Within.some_ite ((State.doorbell_within ..).mono (by decide)) ?_
    refine Within.some_ite ((State.cqHead_within ..).mono (by decide)) ?_
    refine Within.some_ite (Within.refl _ _) ?_
    refine Within.some_ite (Within.trans ((State.waitLatch_within ..).mono (by decide)) ((State.foldCtl_within ..).mono (by decide))) ?_
    refine Within.some_ite (Within.trans ((State.storeReg_within ..).mono (by decide)) ((State.regAct_within ..).mono (by decide))) ?_
    intro h
    contradiction

theorem State.plainWrite_within (s : State) (c : Nat) (t : Option (Nat × Nat)) (at_ a v : Nat) :
    Within [.regs, .mem, .fresh, .out, .pwr, .xing, .time, .host, .ring, .link, .ingest, .mst, .comp, .folds, .lamp, .therm, .boot, .bist,
      .flocks, .latch] s (s.plainWrite c t at_ a v) := by
  unfold State.plainWrite
  split
  · exact State.ownWrite_within _ _ _ _ _ _ _ ‹_›
  · extract_lets waits
    refine Within.trans (Within.when _ _ (fun x => ?_) (Within.refl _ _)) ((State.storeReg_within ..).mono (by decide))
    exact (State.waitLatch_within ..).mono (by decide)

theorem State.regWrite_within (s : State) (c : Nat) (t : Option (Nat × Nat)) (a : Nat) (v : Nat) :
    Within [.regs, .mem, .fresh, .out, .pwr, .xing, .time, .host, .ring, .link, .ingest, .mst, .comp, .folds, .lamp, .therm, .boot, .bist, .flocks, .latch] s (State.regWrite s c t a v) := by
  unfold State.regWrite
  extract_lets y1
  clear_value y1
  refine Within.ite ?_ ?_
  · refine Within.trans ?_ ((State.ageRwp_within ..).mono (by decide))
    exact (State.logAccess_within ..).mono (by decide)
  · refine Within.ite ?_ ?_
    · refine Within.trans ?_ ((State.ageRwp_within ..).mono (by decide))
      exact (State.rwpOpen_within ..).mono (by decide)
    · refine Within.ite ?_ ?_
      · refine Within.trans ?_ ((State.ageRwp_within ..).mono (by decide))
        exact (State.rwpClose_within ..).mono (by decide)
      · refine Within.ite ?_ ?_
        · refine Within.trans ?_ ((State.ageRwp_within ..).mono (by decide))
          exact (State.plainWrite_within ..).mono (by decide)
        · exact Within.refl _ _

theorem State.countAccesses_within (s : State) (c : ℕ) (ws : List Wr) :
    Within [.regs, .out, .host, .ring] s (State.countAccesses s c ws) := by
  unfold State.countAccesses
  refine Within.ite ?_ ?_
  · exact Within.refl _ _
  · refine Within.each _ _ (fun x a => ?_) ?_
    · exact (State.ageRwp_within ..).mono (by decide)
    · exact Within.refl _ _

theorem execRwpWriteOpen_within (ctx : Fin 8) (addr : Nat) (value : Nat) (s : State) :
    Within [.regs, .mem, .fresh, .out, .pwr, .xing, .time, .host, .ring, .link, .ingest, .mst, .comp, .folds, .lamp, .therm, .boot, .bist, .flocks, .latch] s (outcomeState (execRwpWriteOpen ctx addr value s) s) := by
  unfold execRwpWriteOpen
  dsimp -zeta only [outcomeState]
  refine Within.ite ?_ ?_
  · exact (State.regWrite_within ..).mono (by decide)
  · exact Within.refl _ _

theorem execRwpComplete_within (ctx : Fin 8) (addr : Nat) (value : Nat) (s : State) :
    Within [.regs, .mem, .fresh, .out, .pwr, .xing, .time, .host, .ring, .link, .ingest, .mst, .comp, .folds, .lamp, .therm, .boot, .bist, .flocks, .latch] s (outcomeState (execRwpComplete ctx addr value s) s) := by
  unfold execRwpComplete
  dsimp -zeta only [outcomeState]
  refine Within.ite ?_ ?_
  · exact (State.regWrite_within ..).mono (by decide)
  · exact Within.refl _ _

theorem execRwpWindowExpire_within (ctx : Fin 8) (s : State) :
    Within [.regs, .out, .host, .ring] s (outcomeState (execRwpWindowExpire ctx s) s) := by
  unfold execRwpWindowExpire
  dsimp -zeta only [outcomeState]
  refine Within.ite ?_ ?_
  · exact (State.ageRwp_within ..).mono (by decide)
  · exact Within.refl _ _

theorem State.tableSet_within (s : State) (id : ℕ) (idx : ℕ) (b : Bytes) :
    Within [.regs, .mem, .mst, .comp, .folds] s (State.tableSet s id idx b) := by
  unfold State.tableSet
  refine Within.ite ?_ ?_
  · refine Within.trans ?_ ((State.lampWritten_within ..).mono (by decide))
    exact (State.memWrite_within ..).mono (by decide)
  · refine Within.ite ?_ ?_
    · exact (State.onFold_within ..).mono (by decide)
    · refine Within.ite ?_ ?_
      · exact (State.scratchSet_within ..).mono (by decide)
      · exact (State.setTab_within ..).mono (by decide)

theorem State.tableWrite_within (s : State) (c : ℕ) (t : Option (ℕ × ℕ)) (at_ : ℕ) (id : ℕ) (first : ℕ) (b : Bytes) :
    Within [.regs, .mem, .fresh, .out, .host, .ring, .mst, .comp, .folds, .boot, .bist, .latch] s (State.tableWrite s c t at_ id first b) := by
  unfold State.tableWrite
  refine Within.ite ?_ ?_
  · exact (State.dlWrite_within ..).mono (by decide)
  · refine Within.ite ?_ ?_
    · exact (State.writeWallKey_within ..).mono (by decide)
    · refine Within.ite ?_ ?_
      · exact (State.writeToken_within ..).mono (by decide)
      · refine Within.ite ?_ ?_
        · exact (State.addJob_within ..).mono (by decide)
        · refine Within.ite ?_ ?_
          · exact (State.addJob_within ..).mono (by decide)
          · extract_lets y1
            clear_value y1
            refine Within.each _ _ (fun x a => ?_) ?_
            · extract_lets y2
              clear_value y2
              refine Within.ite ?_ ?_
              · exact (State.onLatch_within ..).mono (by decide)
              · exact (State.tableSet_within ..).mono (by decide)
            · exact Within.refl _ _

theorem State.latchOne_within (s : State) (w : LatchWrite) :
    Within [.regs, .mem, .fresh, .out, .pwr, .xing, .time, .host, .ring, .link, .ingest, .mst, .comp, .folds, .lamp, .therm, .boot, .bist, .flocks, .latch] s (State.latchOne s w) := by
  unfold State.latchOne
  split
  · exact (State.tableSet_within ..).mono (by decide)
  · exact (State.storeReg_within ..).mono (by decide)

theorem State.applyLatch_within (s : State) (by_ : ℕ) :
    Within [.regs, .mem, .fresh, .out, .pwr, .xing, .time, .host, .ring, .link, .ingest, .mst, .comp, .folds, .lamp, .therm, .boot, .bist, .flocks, .latch] s (State.applyLatch s by_) := by
  unfold State.applyLatch
  extract_lets y1 y2
  clear_value y1 y2
  refine Within.each _ _ (fun x a => ?_) ?_
  · extract_lets y3 y4 y5 y6 y7 y8
    refine Within.via y4 ?_ fun _ => ?_
    · refine Within.each _ _ (fun x a => ?_) ?_
      · exact (State.latchOne_within ..).mono (by decide)
      · exact Within.refl _ _
    clear_value y3 y4
    refine Within.via y8 ?_ fun _ => ?_
    · refine Within.ite ?_ ?_
      · exact Within.refl _ _
      · assumption
    clear_value y5 y6 y7 y8
    refine Within.ite ?_ ?_
    · assumption
    · refine Within.ite ?_ ?_
      · refine Within.trans ?_ ((State.finishPart_within ..).mono (by decide))
        assumption
      · refine Within.trans ?_ ((State.finish_within ..).mono (by decide))
        assumption
  · exact (State.onLatch_within ..).mono (by decide)

theorem State.refreshReg_within (s : State) (a : ℕ) (pads : ℕ) :
    Within [.regs] s (State.refreshReg s a pads) := by
  unfold State.refreshReg
  refine Within.ite ?_ ?_
  · exact (State.bistSel_within ..).mono (by decide)
  · refine Within.ite ?_ ?_
    · refine Within.trans ?_ ((State.tileSel_within ..).mono (by decide))
      exact (State.flag_within ..).mono (by decide)
    · refine Within.ite ?_ ?_
      · split
        · exact (State.put_within ..).mono (by decide)
        · exact Within.refl _ _
      · refine Within.ite ?_ ?_
        · exact (State.put_within ..).mono (by decide)
        · refine Within.ite ?_ ?_
          · exact (State.put64_within ..).mono (by decide)
          · exact Within.refl _ _

theorem State.readEffect_within (s : State) (c : Nat) (a : Nat) :
    Within [.regs, .host, .bist] s (State.readEffect s c a) := by
  unfold State.readEffect
  extract_lets y1 y2 y3
  refine Within.via y1 ?_ fun _ => ?_
  · exact (State.onCtx_within ..).mono (by decide)
  clear_value y1 y2
  refine Within.via y3 ?_ fun _ => ?_
  · refine Within.ite ?_ ?_
    · assumption
    · refine Within.trans ?_ ((State.setReg_within ..).mono (by decide))
      refine Within.trans ?_ ((State.keepCount_within ..).mono (by decide))
      assumption
  clear_value y3
  refine Within.ite ?_ ?_
  · assumption
  · refine Within.ite ?_ ?_
    · refine Within.trans ?_ ((State.onCtx_within ..).mono (by decide))
      assumption
    · assumption

theorem State.regRead_within (s : State) (c : Nat) (a : Nat) (pads : Nat) :
    Within [.regs, .out, .host, .ring, .bist] s (State.regRead s c a pads).1 := by
  unfold State.regRead
  extract_lets y1
  refine Within.via y1 ?_ fun _ => ?_
  · exact (State.refreshReg_within ..).mono (by decide)
  clear_value y1
  dsimp -zeta only
  refine Within.trans ?_ ((State.ageRwp_within ..).mono (by decide))
  refine Within.trans ?_ ((State.readEffect_within ..).mono (by decide))
  assumption

theorem State.bar0Read_within (s : State) (c : ℕ) (a : ℕ) (pads : ℕ) :
    Within [.regs, .out, .host, .ring, .bist] s (State.bar0Read s c a pads).1 := by
  unfold State.bar0Read
  refine Within.ite_fst ?_ ?_
  · exact (State.regRead_within ..).mono (by decide)
  · dsimp -zeta only
    refine Within.trans ?_ ((State.ageRwp_within ..).mono (by decide))
    exact (State.ctxFault_within ..).mono (by decide)

theorem State.readRow_within (s : State) (c : ℕ) (a : ℕ) :
    Within [.regs, .out, .host, .ring, .bist] s (State.readRow s c a) := by
  unfold State.readRow
  refine Within.ite ?_ ?_
  · extract_lets y1
    refine Within.via y1.1 ?_ fun _ => ?_
    · exact (State.bar0Read_within ..).mono (by decide)
    clear_value y1
    refine Within.trans ?_ ((State.emit_within ..).mono (by decide))
    assumption
  · exact Within.refl _ _

theorem execRcRegisterRead_within (ctx : Fin 8) (addr : ℕ) (s : State) :
    Within [.regs, .out, .host, .ring, .bist] s (outcomeState (execRcRegisterRead ctx addr s) s) := by
  unfold execRcRegisterRead
  dsimp -zeta only [outcomeState]
  refine Within.ite ?_ ?_
  · exact (State.readRow_within ..).mono (by decide)
  · exact Within.refl _ _

theorem execLoHalfRead_within (ctx : Fin 8) (addr : ℕ) (s : State) :
    Within [.regs, .out, .host, .ring, .bist] s (outcomeState (execLoHalfRead ctx addr s) s) := by
  unfold execLoHalfRead
  dsimp -zeta only [outcomeState]
  refine Within.ite ?_ ?_
  · exact (State.readRow_within ..).mono (by decide)
  · exact Within.refl _ _

theorem execPrbsCounterLoRead_within (ctx : Fin 8) (addr : ℕ) (s : State) :
    Within [.regs, .out, .host, .ring, .bist] s (outcomeState (execPrbsCounterLoRead ctx addr s) s) := by
  unfold execPrbsCounterLoRead
  extract_lets y1
  clear_value y1
  dsimp -zeta only [outcomeState]
  refine Within.ite ?_ ?_
  · exact (State.readRow_within ..).mono (by decide)
  · exact Within.refl _ _

theorem execBar0Write_within (ctx : Fin 8) (addr : ℕ) (value : ℕ) (whole : Bool) (s : State) :
    Within [.regs, .mem, .fresh, .out, .pwr, .xing, .time, .host, .ring, .link, .ingest, .mst, .comp, .folds, .lamp, .therm, .boot, .bist, .flocks, .latch] s (outcomeState (execBar0Write ctx addr value whole s) s) := by
  unfold execBar0Write
  dsimp -zeta only [outcomeState]
  refine Within.ite ?_ ?_
  · exact Within.refl _ _
  · refine Within.ite ?_ ?_
    · refine Within.trans ?_ ((State.ageRwp_within ..).mono (by decide))
      exact (State.logAccess_within ..).mono (by decide)
    · refine Within.ite ?_ ?_
      · refine Within.trans ?_ ((State.ageRwp_within ..).mono (by decide))
        exact (State.plainWrite_within ..).mono (by decide)
      · refine Within.ite ?_ ?_
        · refine Within.trans ?_ ((State.ageRwp_within ..).mono (by decide))
          refine Within.trans ?_ ((State.ctxFault_within ..).mono (by decide))
          exact (State.logAccess_within ..).mono (by decide)
        · extract_lets y1 y2
          refine Within.via y1 ?_ fun _ => ?_
          · refine Within.ite ?_ ?_
            · exact Within.refl _ _
            · exact (State.logAccess_within ..).mono (by decide)
          clear_value y1
          refine Within.via y2 ?_ fun _ => ?_
          · refine Within.ite ?_ ?_
            · refine Within.trans ?_ ((State.ctxFault_within ..).mono (by decide))
              assumption
            · assumption
          clear_value y2
          refine Within.trans ?_ ((State.ageRwp_within ..).mono (by decide))
          assumption

theorem execSqTailWrite_within (ctx : Fin 8) (value : ℕ) (s : State) :
    Within [.regs, .out, .host, .ring] s (outcomeState (execSqTailWrite ctx value s) s) := by
  unfold execSqTailWrite
  dsimp -zeta only [outcomeState]
  refine Within.ite ?_ ?_
  · refine Within.trans ?_ ((State.ageRwp_within ..).mono (by decide))
    exact (State.doorbell_within ..).mono (by decide)
  · exact Within.refl _ _

theorem execCqHeadWrite_within (ctx : Fin 8) (value : ℕ) (s : State) :
    Within [.regs, .fresh, .out, .host, .ring, .mst, .bist] s (outcomeState (execCqHeadWrite ctx value s) s) := by
  unfold execCqHeadWrite
  dsimp -zeta only [outcomeState]
  refine Within.ite ?_ ?_
  · refine Within.trans ?_ ((State.ageRwp_within ..).mono (by decide))
    exact (State.cqHead_within ..).mono (by decide)
  · exact Within.refl _ _

end Sys2Proof.Machine
end

