-- ==== Sys2Proof/Laws/WithinCommit.lean ====
section
/-! SUPPORT. What each operation and each meaning of Machine/Commit.lean can do to the state: the parts it may change, and that it
keeps the canonical form and the shape. -/
set_option Elab.async false
namespace Sys2Proof.Machine

theorem State.shadow_within (s : State) (ws : List Wr) :
    Within [.regs, .mem, .mst, .comp, .folds] s (State.shadow s ws) := by
  unfold State.shadow
  refine Within.each _ _ (fun x a => ?_) ?_
  · split
    · extract_lets y1
      clear_value y1
      exact (State.setReg_within ..).mono (by decide)
    · refine Within.ite ?_ ?_
      · exact (State.tableSet_within ..).mono (by decide)
      · exact Within.refl _ _
  · exact Within.refl _ _

theorem State.wouldBe_within (s : State) (ws : List Wr) :
    Within [.regs, .mem, .time, .mst, .comp, .folds] s (State.wouldBe s ws) := by
  unfold State.wouldBe
  extract_lets y1
  refine Within.via y1 ?_ fun _ => ?_
  · exact (State.shadow_within ..).mono (by decide)
  clear_value y1
  refine Within.trans ?_ ((State.onTime_within ..).mono (by decide))
  assumption

theorem State.clipsMet_within (s : State) (ws : List Wr) :
    Within [.regs, .out, .host, .ring, .ingest, .mst, .bist] s (State.clipsMet s ws) := by
  unfold State.clipsMet
  refine Within.ite ?_ ?_
  · refine Within.each _ _ (fun x a => ?_) ?_
    · exact (State.clipReport_within ..).mono (by decide)
    · exact Within.refl _ _
  · exact Within.refl _ _

theorem State.commitRegs_within (s : State) :
    Within [.regs] s (State.commitRegs s) := by
  unfold State.commitRegs
  extract_lets y1
  refine Within.via y1 ?_ fun _ => ?_
  · exact (State.put_within ..).mono (by decide)
  clear_value y1
  refine Within.ite ?_ ?_
  · refine Within.trans ?_ ((State.setAdmission_within ..).mono (by decide))
    assumption
  · assumption

end Sys2Proof.Machine
end

