-- ==== Sys2Proof/Laws/WithinTileLatch.lean ====
section
/-! SUPPORT. What each operation and each meaning of Machine/TileLatch.lean can do to the state: the parts it may change, and that it
keeps the canonical form and the shape. -/
set_option Elab.async false
namespace Sys2Proof.Machine

theorem State.storeCell_within (s : State) (l : ℕ) (c : Bytes) :
    Within [.comp] s (State.storeCell s l c) := by
  unfold State.storeCell
  extract_lets y1 y2 y3 y4 y5 y6
  clear_value y1 y2 y3 y4 y5 y6
  refine Within.ite ?_ ?_
  · exact Within.refl _ _
  · exact (State.onTLayer_within ..).mono (by decide)

theorem State.dropStaged_within (s : State) (id : Nat) :
    Within [.comp] s (State.dropStaged s id) := by
  unfold State.dropStaged
  refine Within.each _ _ (fun x a => ?_) ?_
  · exact (State.onTLayer_within ..).mono (by decide)
  · exact Within.refl _ _

theorem State.holdPost_within (s : State) (l : ℕ) (h : HMsg) :
    Within [.comp] s (State.holdPost s l h) := by
  unfold State.holdPost
  exact (State.onTLayer_within ..).mono (by decide)

theorem State.rxHurdle_within (s : State) (p : Bytes) (tally : ℕ) :
    Within [.regs, .comp] s (State.rxHurdle s p tally) := by
  unfold State.rxHurdle
  extract_lets y1 y2 y3
  refine Within.via y3 ?_ fun _ => ?_
  · exact (State.onTLayer_within ..).mono (by decide)
  clear_value y1 y2 y3
  refine Within.ite ?_ ?_
  · exact Within.refl _ _
  · refine Within.ite ?_ ?_
    · exact (State.onTLayer_within ..).mono (by decide)
    · split
      · assumption
      · extract_lets y4
        clear_value y4
        refine Within.ite ?_ ?_
        · refine Within.trans ?_ ((State.onComp_within ..).mono (by decide))
          refine Within.trans ?_ ((State.flag_within ..).mono (by decide))
          refine Within.trans ?_ ((State.inc_within ..).mono (by decide))
          assumption
        · assumption

theorem execHurdle_within (payload : Bytes) (tally : Nat) (s : State) :
    Within [.regs, .comp] s (outcomeState (execHurdle payload tally s) s) := by
  unfold execHurdle
  dsimp -zeta only [outcomeState]
  refine Within.ite ?_ ?_
  · exact (State.rxHurdle_within ..).mono (by decide)
  · exact Within.refl _ _

theorem State.postHurdle_within (s : State) (l : ℕ) (value : ℕ) (e : ℕ) (tau : ℕ) :
    Within [.regs, .out, .ring, .comp] s (State.postHurdle s l value e tau).1 := by
  unfold State.postHurdle
  extract_lets y1 y2 y3 y4
  clear_value y1 y2 y3 y4
  split
  · dsimp -zeta only
    exact (State.inc_within ..).mono (by decide)
  · dsimp -zeta only
    refine Within.trans ?_ ((State.bwSend_within ..).mono (by decide))
    exact (State.holdPost_within ..).mono (by decide)

theorem execHurdleRepeatTimer_within (s : State) :
    Within [.out, .ring] s (outcomeState (execHurdleRepeatTimer s) s) := by
  unfold execHurdleRepeatTimer
  dsimp -zeta only [outcomeState]
  refine Within.ite ?_ ?_
  · refine Within.each _ _ (fun x a => ?_) ?_
    · split
      · exact (State.bwSend_within ..).mono (by decide)
      · exact Within.refl _ _
    · exact Within.refl _ _
  · exact Within.refl _ _

theorem State.holdPose_within (s : State) (k : ℕ) (p : PoseMsg) :
    Within [.comp] s (State.holdPose s k p) := by
  unfold State.holdPose
  exact (State.onComp_within ..).mono (by decide)

theorem State.rxPose_within (s : State) (b : Bytes) (tally : ℕ) :
    Within [.regs, .comp] s (State.rxPose s b tally) := by
  unfold State.rxPose
  extract_lets y1 y2 y3 y4
  refine Within.via y3 ?_ fun _ => ?_
  · exact (State.onComp_within ..).mono (by decide)
  clear_value y1 y2 y3
  clear_value y4
  refine Within.ite ?_ ?_
  · exact Within.refl _ _
  · refine Within.ite ?_ ?_
    · exact (State.onComp_within ..).mono (by decide)
    · split
      · refine Within.ite ?_ ?_
        · refine Within.trans ?_ ((State.onComp_within ..).mono (by decide))
          refine Within.trans ?_ ((State.flag_within ..).mono (by decide))
          refine Within.trans ?_ ((State.inc_within ..).mono (by decide))
          assumption
        · assumption
      · assumption

theorem execPose_within (payload : Bytes) (tally : Nat) (s : State) :
    Within [.regs, .comp] s (outcomeState (execPose payload tally s) s) := by
  unfold execPose
  dsimp -zeta only [outcomeState]
  refine Within.ite ?_ ?_
  · exact (State.rxPose_within ..).mono (by decide)
  · exact Within.refl _ _

theorem State.postPose_within (s : State) (k : Nat) (valid : Bool) (x : Nat) (y : Nat) (z : Nat) (tau : Nat) :
    Within [.out, .ring, .comp] s (State.postPose s k valid x y z tau).1 := by
  unfold State.postPose
  extract_lets y1 y2 y3 y4
  clear_value y1 y2 y3 y4
  dsimp -zeta only
  refine Within.trans ?_ ((State.bwSend_within ..).mono (by decide))
  exact (State.onComp_within ..).mono (by decide)

theorem execPoseRepeatTimer_within (s : State) :
    Within [.out, .ring] s (outcomeState (execPoseRepeatTimer s) s) := by
  unfold execPoseRepeatTimer
  dsimp -zeta only [outcomeState]
  refine Within.ite ?_ ?_
  · refine Within.each _ _ (fun x a => ?_) ?_
    · split
      · exact (State.bwSend_within ..).mono (by decide)
      · exact Within.refl _ _
    · exact Within.refl _ _
  · exact Within.refl _ _

theorem State.layerWrite_within (s : State) (a v : Nat) (u : State) (h : s.layerWrite a v = some u) :
    Within [.regs] s u := by
  unfold State.layerWrite at h
  revert h
  split
  · refine Within.some_ite (Within.when _ _ (fun x => (State.storeAddr_within ..).mono (by decide)) (Within.refl _ _)) ?_
    refine Within.some_ite (Within.when _ _ (fun x => (State.storeClip_within ..).mono (by decide)) (Within.refl _ _)) ?_
    intro h
    contradiction
  · intro h
    contradiction

theorem State.applyWr_within (s : State) (c : Nat) (w : Wr) :
    Within [.regs, .mem, .fresh, .out, .pwr, .xing, .time, .host, .ring, .link, .ingest, .mst, .comp, .folds, .lamp, .therm, .boot, .bist,
      .flocks, .latch] s (s.applyWr c w) := by
  unfold State.applyWr
  extract_lets v
  split
  · exact Within.ite ((State.tableSet_within ..).mono (by decide)) ((State.tableWrite_within ..).mono (by decide))
  refine Within.ite (Within.refl _ _) (Within.ite ((State.rwpEffect_within ..).mono (by decide)) (Within.ite ?_ ?_))
  · split
    · exact Within.trans ((State.foldCtl_within ..).mono (by decide)) ((State.storeReg_within ..).mono (by decide))
    · exact Within.refl _ _
  · split
    · exact (State.layerWrite_within _ _ _ _ ‹_›).mono (by decide)
    · split
      · exact (State.ownWrite_within _ _ _ _ _ _ _ ‹_›).mono (by decide)
      · exact (State.storeReg_within ..).mono (by decide)

theorem State.applyWrs_within (s : State) (c : Nat) (ws : List Wr) (p : Wr → Bool) :
    Within [.regs, .mem, .fresh, .out, .pwr, .xing, .time, .host, .ring, .link, .ingest, .mst, .comp, .folds, .lamp, .therm, .boot, .bist, .flocks, .latch] s (State.applyWrs s c ws p) := by
  unfold State.applyWrs
  refine Within.each _ _ (fun x a => ?_) ?_
  · exact (State.applyWr_within ..).mono (by decide)
  · exact Within.refl _ _

theorem State.flockFault_within (s : State) (id : ℕ) (part : FlockPart) :
    Within [.regs, .out, .host, .ring, .ingest, .flocks] s (State.flockFault s id part) := by
  unfold State.flockFault
  extract_lets y1
  refine Within.via y1 ?_ fun _ => ?_
  · refine Within.each _ _ (fun x a => ?_) ?_
    · exact (State.onLayer_within ..).mono (by decide)
    · exact Within.refl _ _
  clear_value y1
  split
  · refine Within.trans ?_ ((State.flockRegs_within ..).mono (by decide))
    refine Within.trans ?_ ((State.flockEvent_within ..).mono (by decide))
    refine Within.trans ?_ ((State.onFlock_within ..).mono (by decide))
    assumption
  · refine Within.trans ?_ ((State.flockRegs_within ..).mono (by decide))
    refine Within.trans ?_ ((State.flockEvent_within ..).mono (by decide))
    refine Within.trans ?_ ((State.onFlock_within ..).mono (by decide))
    assumption

theorem State.latchMark_within (s : State) (bad : List (ℕ × FlockPart)) (f : Flock) :
    Within [.regs, .out, .host, .ring, .ingest, .flocks] s (State.latchMark s bad f) := by
  unfold State.latchMark
  split
  · exact (State.flockFault_within ..).mono (by decide)
  · exact (State.onFlock_within ..).mono (by decide)

theorem State.latchFlock_within (s : State) (n : ℕ) (f : Flock) :
    Within [.regs, .mem, .fresh, .out, .pwr, .xing, .time, .host, .ring, .link, .ingest, .mst, .comp, .folds, .lamp, .therm, .boot, .bist, .flocks, .latch] s (State.latchFlock s n f) := by
  unfold State.latchFlock
  extract_lets y1 y2
  refine Within.via y1 ?_ fun _ => ?_
  · exact (State.applyWrs_within ..).mono (by decide)
  clear_value y1
  clear_value y2
  refine Within.each _ _ (fun x a => ?_) ?_
  · refine Within.ite ?_ ?_
    · refine Within.trans ?_ ((State.flag_within ..).mono (by decide))
      exact (State.onTLayer_within ..).mono (by decide)
    · exact Within.refl _ _
  · assumption

theorem State.judgeFrames_within (s : State) (l : ℕ) (n : ℕ) :
    Within [.comp] s (State.judgeFrames s l n) := by
  unfold State.judgeFrames
  extract_lets y1 y2
  clear_value y1 y2
  exact (State.onTLayer_within ..).mono (by decide)

theorem State.showFrame_within (s : State) (l : ℕ) (cands : List TFrame) (best : Option TFrame) :
    Within [.regs, .comp] s (State.showFrame s l cands best) := by
  unfold State.showFrame
  split
  · extract_lets y1
    clear_value y1
    refine Within.trans ?_ ((State.flag_within ..).mono (by decide))
    refine Within.trans ?_ ((State.put_within ..).mono (by decide))
    exact (State.onTLayer_within ..).mono (by decide)
  · refine Within.ite ?_ ?_
    · exact Within.refl _ _
    · refine Within.trans ?_ ((State.flag_within ..).mono (by decide))
      exact (State.inc_within ..).mono (by decide)

theorem State.missFrame_within (s : State) (l : ℕ) (n : ℕ) :
    Within [.regs, .comp] s (State.missFrame s l n) := by
  unfold State.missFrame
  extract_lets y1
  clear_value y1
  refine Within.ite ?_ ?_
  · refine Within.trans ?_ ((State.flag_within ..).mono (by decide))
    refine Within.trans ?_ ((State.inc_within ..).mono (by decide))
    exact (State.onTLayer_within ..).mono (by decide)
  · exact Within.refl _ _

theorem State.chooseFrame_within (s : State) (l : ℕ) (n : ℕ) :
    Within [.regs, .comp] s (State.chooseFrame s l n) := by
  unfold State.chooseFrame
  extract_lets y1 y2 y3 y4 y5 y6 y7 y8 y9
  refine Within.via y1 ?_ fun _ => ?_
  · exact (State.judgeFrames_within ..).mono (by decide)
  clear_value y1
  refine Within.via y4 ?_ fun _ => ?_
  · refine Within.trans ?_ ((State.onTLayer_within ..).mono (by decide))
    assumption
  clear_value y2 y3 y4
  refine Within.via y5 ?_ fun _ => ?_
  · refine Within.trans ?_ ((State.put_within ..).mono (by decide))
    refine Within.trans ?_ ((State.flag_within ..).mono (by decide))
    assumption
  clear_value y5
  refine Within.via y6 ?_ fun _ => ?_
  · refine Within.trans ?_ ((State.flag_within ..).mono (by decide))
    assumption
  clear_value y6
  refine Within.via y7 ?_ fun _ => ?_
  · refine Within.trans ?_ ((State.flag_within ..).mono (by decide))
    refine Within.trans ?_ ((State.flag_within ..).mono (by decide))
    assumption
  clear_value y7
  clear_value y8 y9
  refine Within.ite ?_ ?_
  · assumption
  · refine Within.trans ?_ ((State.missFrame_within ..).mono (by decide))
    refine Within.trans ?_ ((State.showFrame_within ..).mono (by decide))
    assumption

theorem State.sendGain_within (s : State) :
    Within [.lamp] s (State.sendGain s) := by
  unfold State.sendGain
  refine Within.ite ?_ ?_
  · exact Within.refl _ _
  · refine Within.trans ?_ ((State.onLamp_within ..).mono (by decide))
    refine Within.each _ _ (fun x a => ?_) ?_
    · exact (State.queueLamp_within ..).mono (by decide)
    · exact Within.refl _ _

theorem State.lampLatch_within (s : State) (lit : List ℕ) :
    Within [.regs, .lamp] s (State.lampLatch s lit) := by
  unfold State.lampLatch
  refine Within.trans ?_ ((State.lampStatus_within ..).mono (by decide))
  refine Within.each _ _ (fun x a => ?_) ?_
  · exact (State.onLGroup_within ..).mono (by decide)
  · exact Within.refl _ _

theorem State.frameLatch_within (s : State) (bad : List (ℕ × FlockPart)) :
    Within [.regs, .mem, .fresh, .out, .pwr, .xing, .time, .host, .ring, .link, .ingest, .mst, .comp, .folds, .lamp, .therm, .boot, .bist, .flocks, .latch] s (State.frameLatch s bad) := by
  unfold State.frameLatch
  extract_lets y1 y2 y3 y4 y5 y6 y7 y8 y9 y10
  refine Within.via y5 ?_ fun _ => ?_
  · refine Within.each _ _ (fun x a => ?_) ?_
    · exact (State.latchMark_within ..).mono (by decide)
    · exact Within.refl _ _
  clear_value y1 y2 y3 y4 y5
  refine Within.via y6 ?_ fun _ => ?_
  · refine Within.each _ _ (fun x a => ?_) ?_
    · exact (State.latchFlock_within ..).mono (by decide)
    · assumption
  clear_value y6
  refine Within.via y8 ?_ fun _ => ?_
  · refine Within.each _ _ (fun x a => ?_) ?_
    · exact (State.foldLatch_within ..).mono (by decide)
    · refine Within.trans ?_ ((State.applyLatch_within ..).mono (by decide))
      assumption
  clear_value y7 y8
  refine Within.via y9 ?_ fun _ => ?_
  · refine Within.each _ _ (fun x a => ?_) ?_
    · exact (State.chooseFrame_within ..).mono (by decide)
    · assumption
  clear_value y9
  refine Within.via y10 ?_ fun _ => ?_
  · refine Within.trans ?_ ((State.onComp_within ..).mono (by decide))
    refine Within.trans ?_ ((State.geometryCheck_within ..).mono (by decide))
    refine Within.trans ?_ ((State.dimSelect_within ..).mono (by decide))
    assumption
  clear_value y10
  refine Within.ite ?_ ?_
  · exact Within.refl _ _
  · refine Within.trans ?_ ((State.flag_within ..).mono (by decide))
    refine Within.trans ?_ ((State.lampLatch_within ..).mono (by decide))
    assumption

theorem execFrameLatch_within (bad : List (ℕ × FlockPart)) (s : State) :
    Within [.regs, .mem, .fresh, .out, .pwr, .xing, .time, .host, .ring, .link, .ingest, .mst, .comp, .folds, .lamp, .therm, .boot, .bist, .flocks, .latch] s (outcomeState (execFrameLatch bad s) s) := by
  unfold execFrameLatch
  dsimp -zeta only [outcomeState]
  refine Within.ite ?_ ?_
  · exact (State.frameLatch_within ..).mono (by decide)
  · exact Within.refl _ _

theorem State.latchPose_within (s : State) (n : Nat) (k : Nat) :
    Within [.regs, .comp] s (State.latchPose s n k) := by
  unfold State.latchPose
  extract_lets y1 y2 y3 y4 y5
  clear_value y1 y2
  refine Within.via y3 ?_ fun _ => ?_
  · exact (State.onComp_within ..).mono (by decide)
  clear_value y3
  refine Within.via y4 ?_ fun _ => ?_
  · refine Within.trans ?_ ((State.put_within ..).mono (by decide))
    assumption
  clear_value y4
  refine Within.via y5 ?_ fun _ => ?_
  · refine Within.trans ?_ ((State.flag_within ..).mono (by decide))
    assumption
  clear_value y5
  split
  · refine Within.trans ?_ ((State.put_within ..).mono (by decide))
    refine Within.trans ?_ ((State.put_within ..).mono (by decide))
    refine Within.trans ?_ ((State.put_within ..).mono (by decide))
    refine Within.trans ?_ ((State.put_within ..).mono (by decide))
    assumption
  · assumption

theorem State.slotLatch_within (s : State) (n : ℕ) (k : ℕ) :
    Within [.regs, .comp, .folds, .lamp] s (State.slotLatch s n k) := by
  unfold State.slotLatch
  extract_lets y1 y2 y3 y4 y5
  refine Within.via y2 ?_ fun _ => ?_
  · exact (State.onComp_within ..).mono (by decide)
  clear_value y1 y2
  refine Within.via y3 ?_ fun _ => ?_
  · refine Within.trans ?_ ((State.onLamp_within ..).mono (by decide))
    assumption
  clear_value y3
  refine Within.via y4 ?_ fun _ => ?_
  · refine Within.each _ _ (fun x a => ?_) ?_
    · exact (State.flag_within ..).mono (by decide)
    · assumption
  clear_value y4
  refine Within.via y5 ?_ fun _ => ?_
  · refine Within.trans ?_ ((State.sendGain_within ..).mono (by decide))
    refine Within.trans ?_ ((State.latchPose_within ..).mono (by decide))
    assumption
  clear_value y5
  refine Within.each _ _ (fun x a => ?_) ?_
  · extract_lets y6
    refine Within.via y6 ?_ fun _ => ?_
    · refine Within.trans ?_ ((State.onFold_within ..).mono (by decide))
      exact (State.applyStop_within ..).mono (by decide)
    clear_value y6
    refine Within.ite ?_ ?_
    · refine Within.trans ?_ ((State.startRun_within ..).mono (by decide))
      assumption
    · assumption
  · assumption

theorem execSlotLatch_within (s : State) :
    Within [.regs, .comp, .folds, .lamp] s (outcomeState (execSlotLatch s) s) := by
  unfold execSlotLatch
  dsimp -zeta only [outcomeState]
  split
  · exact Within.refl _ _
  · extract_lets y1 y2 y3
    clear_value y1 y2 y3
    refine Within.ite ?_ ?_
    · exact (State.slotLatch_within ..).mono (by decide)
    · exact Within.refl _ _

end Sys2Proof.Machine
end

