-- ==== Sys2Proof/Laws/WithinFlocks.lean ====
section
/-! SUPPORT. What each operation and each meaning of Machine/Flocks.lean can do to the state: the parts it may change, and that it
keeps the canonical form and the shape. -/
set_option Elab.async false
namespace Sys2Proof.Machine

theorem State.sendVote_within (s : State) (m : Bytes) :
    Within [.out, .ring] s (State.sendVote s m) := by
  unfold State.sendVote
  refine Within.ite ?_ ?_
  · exact (State.tileSend_within ..).mono (by decide)
  · exact (State.headSend_within ..).mono (by decide)

theorem State.setOos_within (s : State) (b : Bool) :
    Within [.regs, .out, .host, .ring] s (State.setOos s b) := by
  unfold State.setOos
  extract_lets y1 y2
  clear_value y1
  refine Within.via y2 ?_ fun _ => ?_
  · exact (State.flag_within ..).mono (by decide)
  clear_value y2
  refine Within.ite ?_ ?_
  · refine Within.trans ?_ ((State.flockEvent_within ..).mono (by decide))
    assumption
  · assumption

theorem State.dropFlock_within (s : State) (id : Nat) :
    Within [.regs, .flocks] s (State.dropFlock s id) := by
  unfold State.dropFlock
  refine Within.trans ?_ ((State.flockRegs_within ..).mono (by decide))
  exact (Within.upd (fun p => by cases p <;> first | exact .inr rfl | exact .inl (by decide)) rfl rfl)

theorem State.keepOutcome_within (s : State) (f : Flock) :
    Within [.host] s (State.keepOutcome s f) := by
  unfold State.keepOutcome
  exact (State.onHost_within ..).mono (by decide)

theorem State.retire_within (s : State) (id : ℕ) :
    Within [.regs, .host, .flocks] s (State.retire s id) := by
  unfold State.retire
  split
  · refine Within.ite ?_ ?_
    · refine Within.ite ?_ ?_
      · refine Within.trans ?_ ((State.dropFlock_within ..).mono (by decide))
        exact (State.keepOutcome_within ..).mono (by decide)
      · refine Within.trans ?_ ((State.shelve_within ..).mono (by decide))
        exact (State.keepOutcome_within ..).mono (by decide)
    · exact Within.refl _ _
  · exact Within.refl _ _

theorem State.retireAll_within (s : State) :
    Within [.regs, .host, .flocks] s (State.retireAll s) := by
  unfold State.retireAll
  refine Within.trans ?_ ((State.flockRegs_within ..).mono (by decide))
  refine Within.each _ _ (fun x a => ?_) ?_
  · exact (State.retire_within ..).mono (by decide)
  · exact Within.refl _ _

theorem State.finishOutcome_within (s : State) (f : Flock) (c : ℕ) (t : ℕ) :
    Within [.regs, .fresh, .out, .host, .ring, .mst, .bist] s (State.finishOutcome s f c t) := by
  unfold State.finishOutcome
  exact (State.finish_within ..).mono (by decide)

theorem State.finishFlock_within (s : State) (f : Flock) :
    Within [.regs, .fresh, .out, .host, .ring, .mst, .bist, .flocks] s (State.finishFlock s f) := by
  unfold State.finishFlock
  refine Within.trans ?_ ((State.onFlock_within ..).mono (by decide))
  refine Within.each _ _ (fun x a => ?_) ?_
  · exact (State.finishOutcome_within ..).mono (by decide)
  · exact Within.refl _ _

theorem State.hearOutcome_within (s : State) (id : ℕ) (commit : Bool) (reason : ℕ) (node : ℕ) :
    Within [.regs, .fresh, .out, .host, .ring, .mst, .bist, .flocks] s (State.hearOutcome s id commit reason node) := by
  unfold State.hearOutcome
  split
  · refine Within.ite ?_ ?_
    · exact Within.refl _ _
    · exact (State.finishFlock_within ..).mono (by decide)
  · exact Within.refl _ _

theorem State.sendAdmits_within (s : State) (f : Flock) :
    Within [.out, .ring] s (State.sendAdmits s f) := by
  unfold State.sendAdmits
  extract_lets y1
  clear_value y1
  refine Within.each _ _ (fun x a => ?_) ?_
  · exact (State.sendAdmit_within ..).mono (by decide)
  · exact Within.refl _ _

theorem State.decideFlock_within (s : State) (id : ℕ) (commit : Bool) (reason : ℕ) (node : ℕ) :
    Within [.regs, .fresh, .out, .host, .ring, .mst, .bist, .flocks] s (State.decideFlock s id commit reason node) := by
  unfold State.decideFlock
  split
  · exact Within.refl _ _
  · refine Within.ite ?_ ?_
    · exact Within.refl _ _
    · extract_lets y1 y2 y3
      refine Within.via y2 ?_ fun _ => ?_
      · exact (State.onFlock_within ..).mono (by decide)
      clear_value y1 y2
      refine Within.via y3 ?_ fun _ => ?_
      · refine Within.ite ?_ ?_
        · refine Within.trans ?_ ((State.sendAdmits_within ..).mono (by decide))
          assumption
        · assumption
      clear_value y3
      refine Within.trans ?_ ((State.flockRegs_within ..).mono (by decide))
      split
      · refine Within.trans ?_ ((State.finishFlock_within ..).mono (by decide))
        refine Within.trans ?_ ((State.bwSend_within ..).mono (by decide))
        assumption
      · assumption

theorem State.sendAck_within (s : State) (id : ℕ) (commit : Bool) (noRec : Bool) (late : Bool) (n : ℕ) :
    Within [.out, .ring, .flocks] s (State.sendAck s id commit noRec late n) := by
  unfold State.sendAck
  extract_lets y1 y2
  refine Within.via y2 ?_ fun _ => ?_
  · refine Within.ite ?_ ?_
    · exact (State.onFlock_within ..).mono (by decide)
    · exact Within.refl _ _
  clear_value y1 y2
  refine Within.ite ?_ ?_
  · assumption
  · refine Within.trans ?_ ((State.sendVote_within ..).mono (by decide))
    assumption

theorem State.prepareLayers_within (s : State) (f : Flock) (t : ℕ) :
    Within [.ingest] s (State.prepareLayers s f t) := by
  unfold State.prepareLayers
  extract_lets y1 y2
  clear_value y1 y2
  refine Within.each _ _ (fun x a => ?_) ?_
  · refine Within.ite ?_ ?_
    · exact (State.onLayer_within ..).mono (by decide)
    · exact Within.refl _ _
  · exact Within.refl _ _

theorem State.holdCommit_within (s : State) (f : Flock) (t : ℕ) (guard : ℕ) :
    Within [.regs, .out, .host, .ring, .ingest, .boot, .flocks] s (State.holdCommit s f t guard) := by
  unfold State.holdCommit
  extract_lets y1 y2 y3 y4 y5 y6 y7 y8
  refine Within.via y6 ?_ fun _ => ?_
  · exact (State.onFlock_within ..).mono (by decide)
  clear_value y1 y2 y3 y4 y5 y6
  refine Within.via y7 ?_ fun _ => ?_
  · refine Within.ite ?_ ?_
    · refine Within.trans ?_ ((State.flockEvent_within ..).mono (by decide))
      assumption
    · assumption
  clear_value y7
  refine Within.via y8 ?_ fun _ => ?_
  · refine Within.ite ?_ ?_
    · refine Within.trans ?_ ((State.prepareLayers_within ..).mono (by decide))
      assumption
    · assumption
  clear_value y8
  split
  · refine Within.ite ?_ ?_
    · refine Within.trans ?_ ((State.addJob_within ..).mono (by decide))
      assumption
    · assumption
  · assumption

theorem State.keepLamps_within (s : State) (id : ℕ) :
    Within [.ring, .flocks] s (State.keepLamps s id) := by
  unfold State.keepLamps
  split
  · refine Within.trans ?_ ((State.onFlock_within ..).mono (by decide))
    exact (State.onRing_within ..).mono (by decide)
  · exact Within.refl _ _

theorem State.ackNoRecord_within (s : State) (id : ℕ) (commit : Bool) (t : ℕ) :
    Within [.regs, .out, .host, .ring, .flocks] s (State.ackNoRecord s id commit t) := by
  unfold State.ackNoRecord
  refine Within.trans ?_ ((State.sendAck_within ..).mono (by decide))
  refine Within.trans ?_ ((State.flockEvent_within ..).mono (by decide))
  refine Within.when _ _ (fun x => ?_) ?_
  · exact (State.flag_within ..).mono (by decide)
  · exact Within.refl _ _

theorem State.discardUnvoted_within (s : State) (f : Flock) (commit : Bool) (t : ℕ) (reason : ℕ) (node : ℕ) :
    Within [.regs, .comp, .flocks] s (State.discardUnvoted s f commit t reason node) := by
  unfold State.discardUnvoted
  extract_lets y1 y2 y3
  refine Within.via y1 ?_ fun _ => ?_
  · exact (State.dropStaged_within ..).mono (by decide)
  clear_value y1
  refine Within.via y2 ?_ fun _ => ?_
  · refine Within.ite ?_ ?_
    · refine Within.trans ?_ ((State.inc_within ..).mono (by decide))
      assumption
    · assumption
  clear_value y2
  clear_value y3
  refine Within.ite ?_ ?_
  · refine Within.trans ?_ ((State.onFlock_within ..).mono (by decide))
    assumption
  · refine Within.trans ?_ ((State.dropFlock_within ..).mono (by decide))
    assumption

theorem State.takeCommit_within (s : State) (id : ℕ) (t : ℕ) (guard : ℕ) :
    Within [.regs, .fresh, .out, .host, .ring, .ingest, .mst, .comp, .boot, .bist, .flocks] s (State.takeCommit s id t guard) := by
  unfold State.takeCommit
  extract_lets y1 y2
  refine Within.via y1 ?_ fun _ => ?_
  · refine Within.trans ?_ ((State.keepLamps_within ..).mono (by decide))
    exact (State.hearOutcome_within ..).mono (by decide)
  clear_value y1
  refine Within.via y2 ?_ fun _ => ?_
  · dsimp -zeta only [y2]
    split
    · refine Within.trans ?_ ((State.ackNoRecord_within ..).mono (by decide))
      assumption
    · refine Within.ite ?_ ?_
      · extract_lets y3 y4 y5
        refine Within.via y3 ?_ fun _ => ?_
        · refine Within.ite ?_ ?_
          · assumption
          · refine Within.trans ?_ ((State.holdCommit_within ..).mono (by decide))
            assumption
        clear_value y3
        refine Within.via y4 ?_ fun _ => ?_
        · refine Within.trans ?_ ((State.onFlock_within ..).mono (by decide))
          assumption
        clear_value y4
        clear_value y5
        refine Within.trans ?_ ((State.sendAck_within ..).mono (by decide))
        assumption
      · refine Within.trans ?_ ((State.ackNoRecord_within ..).mono (by decide))
        refine Within.trans ?_ ((State.discardUnvoted_within ..).mono (by decide))
        assumption
  clear_value y2
  refine Within.trans ?_ ((State.flockRegs_within ..).mono (by decide))
  assumption

theorem State.takeAbort_within (s : State) (id : ℕ) (reason : ℕ) (node : ℕ) :
    Within [.regs, .fresh, .out, .host, .ring, .mst, .comp, .bist, .flocks] s (State.takeAbort s id reason node) := by
  unfold State.takeAbort
  extract_lets y1 y2 y3
  refine Within.via y1 ?_ fun _ => ?_
  · exact (State.hearOutcome_within ..).mono (by decide)
  clear_value y1
  refine Within.via y2 ?_ fun _ => ?_
  · refine Within.trans ?_ ((State.dropStaged_within ..).mono (by decide))
    assumption
  clear_value y2
  refine Within.via y3 ?_ fun _ => ?_
  · dsimp -zeta only [y3]
    split
    · refine Within.trans ?_ ((State.ackNoRecord_within ..).mono (by decide))
      assumption
    · refine Within.ite ?_ ?_
      · refine Within.trans ?_ ((State.ackNoRecord_within ..).mono (by decide))
        refine Within.trans ?_ ((State.discardUnvoted_within ..).mono (by decide))
        assumption
      · extract_lets y4
        refine Within.via y4 ?_ fun _ => ?_
        · refine Within.ite ?_ ?_
          · refine Within.trans ?_ ((State.inc_within ..).mono (by decide))
            assumption
          · assumption
        clear_value y4
        refine Within.trans ?_ ((State.sendAck_within ..).mono (by decide))
        refine Within.trans ?_ ((State.onFlock_within ..).mono (by decide))
        assumption
  clear_value y3
  refine Within.trans ?_ ((State.retire_within ..).mono (by decide))
  refine Within.trans ?_ ((State.flockRegs_within ..).mono (by decide))
  assumption

theorem State.decideOwn_within (s : State) (id : ℕ) (commit : Bool) (reason : ℕ) (node : ℕ) :
    Within [.regs, .fresh, .out, .host, .ring, .ingest, .mst, .comp, .boot, .bist, .flocks] s (State.decideOwn s id commit reason node) := by
  unfold State.decideOwn
  split
  · refine Within.ite ?_ ?_
    · exact Within.refl _ _
    · extract_lets y1
      refine Within.via y1 ?_ fun _ => ?_
      · exact (State.decideFlock_within ..).mono (by decide)
      clear_value y1
      refine Within.ite ?_ ?_
      · refine Within.trans ?_ ((State.retire_within ..).mono (by decide))
        refine Within.trans ?_ ((State.takeCommit_within ..).mono (by decide))
        assumption
      · refine Within.trans ?_ ((State.takeAbort_within ..).mono (by decide))
        assumption
  · exact Within.refl _ _

theorem State.judge_within (s : State) (id : ℕ) (last : Bool) :
    Within [.regs, .fresh, .out, .host, .ring, .ingest, .mst, .comp, .boot, .bist, .flocks] s (State.judge s id last) := by
  unfold State.judge
  split
  · exact Within.refl _ _
  · refine Within.ite ?_ ?_
    · exact Within.refl _ _
    · split
      · exact (State.decideOwn_within ..).mono (by decide)
      · exact Within.refl _ _

theorem State.countVote_within (s : State) (id : ℕ) (v : Vote) (at_ : ℕ) :
    Within [.regs, .fresh, .out, .host, .ring, .ingest, .mst, .comp, .boot, .bist, .flocks] s (State.countVote s id v at_) := by
  unfold State.countVote
  split
  · exact Within.refl _ _
  · refine Within.ite ?_ ?_
    · refine Within.ite ?_ ?_
      · refine Within.trans ?_ ((State.judge_within ..).mono (by decide))
        refine Within.trans ?_ ((State.flockRegs_within ..).mono (by decide))
        exact (State.onFlock_within ..).mono (by decide)
      · refine Within.ite ?_ ?_
        · exact (State.inc_within ..).mono (by decide)
        · exact Within.refl _ _
    · exact Within.refl _ _

theorem State.openFlock_within (s : State) (c : Nat) (exclusive : Bool) :
    Within [.regs, .out, .host, .ring, .flocks] s (State.openFlock s c exclusive).1 := by
  unfold State.openFlock
  extract_lets y1 y2 y3
  clear_value y1 y2
  refine Within.via y3 ?_ fun _ => ?_
  · refine Within.trans ?_ ((State.holdFlock_within ..).mono (by decide))
    exact (State.onHost_within ..).mono (by decide)
  clear_value y3
  dsimp -zeta only
  refine Within.trans ?_ ((State.bwSend_within ..).mono (by decide))
  assumption

theorem State.rxOpen_within (s : State) (p : Bytes) :
    Within [.regs, .host, .comp, .flocks] s (State.rxOpen s p) := by
  unfold State.rxOpen
  refine Within.ite ?_ ?_
  · exact Within.refl _ _
  · extract_lets y1 y2 y3
    refine Within.via y2 ?_ fun _ => ?_
    · dsimp -zeta only [y2]
      split
      · refine Within.ite ?_ ?_
        · exact Within.refl _ _
        · refine Within.ite ?_ ?_
          · exact (State.shelve_within ..).mono (by decide)
          · refine Within.trans ?_ ((State.dropFlock_within ..).mono (by decide))
            exact (State.dropStaged_within ..).mono (by decide)
      · exact Within.refl _ _
    clear_value y1 y2
    refine Within.via y3 ?_ fun _ => ?_
    · refine Within.trans ?_ ((State.holdFlock_within ..).mono (by decide))
      refine Within.trans ?_ ((State.onHost_within ..).mono (by decide))
      assumption
    clear_value y3
    refine Within.trans ?_ ((State.flockRegs_within ..).mono (by decide))
    refine Within.trans ?_ ((State.onFlock_within ..).mono (by decide))
    assumption

theorem execFlockOpenRx_within (payload : Bytes) (s : State) :
    Within [.regs, .host, .comp, .flocks] s (outcomeState (execFlockOpenRx payload s) s) := by
  unfold execFlockOpenRx
  dsimp -zeta only [outcomeState]
  refine Within.ite ?_ ?_
  · exact (State.rxOpen_within ..).mono (by decide)
  · exact Within.refl _ _

theorem State.noteTargets_within (s : State) (id : ℕ) (target : ℕ) (ws : List Wr) :
    Within [.flocks] s (State.noteTargets s id target ws) := by
  unfold State.noteTargets
  refine Within.each _ _ (fun x a => ?_) ?_
  · exact (State.onFlock_within ..).mono (by decide)
  · exact (State.onFlock_within ..).mono (by decide)

theorem State.stageHere_within (s : State) (id : Nat) (c : Nat) (e : Bytes) (pay : Bytes) :
    Within [.regs, .flocks] s (State.stageHere s id c e pay) := by
  unfold State.stageHere
  extract_lets y1 y2 y3
  clear_value y1
  refine Within.via y2 ?_ fun _ => ?_
  · refine Within.trans ?_ ((State.onFlock_within ..).mono (by decide))
    exact (State.holdFlock_within ..).mono (by decide)
  clear_value y2
  refine Within.via y3 ?_ fun _ => ?_
  · dsimp -zeta only [y3]
    split
    · refine Within.ite ?_ ?_
      · refine Within.trans ?_ ((State.stage_within ..).mono (by decide))
        assumption
      · assumption
    · assumption
  clear_value y3
  refine Within.trans ?_ ((State.flockRegs_within ..).mono (by decide))
  assumption

theorem State.rxAdmit_within (s : State) (id : ℕ) (mb : ℕ) :
    Within [.regs, .fresh, .out, .time, .host, .ring, .link, .flocks] s (State.rxAdmit s id mb) := by
  unfold State.rxAdmit
  extract_lets y1
  clear_value y1
  refine Within.ite ?_ ?_
  · exact Within.refl _ _
  · refine Within.ite ?_ ?_
    · exact (State.onFlock_within ..).mono (by decide)
    · refine Within.ite ?_ ?_
      · refine Within.trans ?_ ((State.judgeRates_within ..).mono (by decide))
        exact (State.onLink_within ..).mono (by decide)
      · exact Within.refl _ _

theorem State.stageSend_within (s : State) (c : Nat) (e : Bytes) (pay : Bytes) :
    Within [.regs, .out, .ring, .flocks] s (State.stageSend s c e pay) := by
  unfold State.stageSend
  extract_lets y1 y2 y3
  clear_value y1
  refine Within.via y2 ?_ fun _ => ?_
  · exact (State.bwSend_within ..).mono (by decide)
  clear_value y2
  refine Within.via y3 ?_ fun _ => ?_
  · refine Within.ite ?_ ?_
    · refine Within.trans ?_ ((State.stageHere_within ..).mono (by decide))
      assumption
    · assumption
  clear_value y3
  refine Within.trans ?_ ((State.noteTargets_within ..).mono (by decide))
  assumption

theorem State.rxStaged_within (s : State) (addr : ℕ) (p : Bytes) :
    Within [.regs, .fresh, .out, .time, .host, .ring, .link, .flocks] s (State.rxStaged s addr p) := by
  unfold State.rxStaged
  extract_lets y1 y2 y3 y4
  refine Within.via y4 ?_ fun _ => ?_
  · refine Within.ite ?_ ?_
    · exact (State.stageHere_within ..).mono (by decide)
    · exact Within.refl _ _
  clear_value y1 y2 y3 y4
  refine Within.ite ?_ ?_
  · exact (State.rxAdmit_within ..).mono (by decide)
  · refine Within.ite ?_ ?_
    · refine Within.trans ?_ ((State.flockRegs_within ..).mono (by decide))
      refine Within.trans ?_ ((State.noteTargets_within ..).mono (by decide))
      refine Within.trans ?_ ((State.holdFlock_within ..).mono (by decide))
      assumption
    · assumption

theorem execStagedWriteRx_within (payload : Bytes) (s : State) :
    Within [.regs, .fresh, .out, .time, .host, .ring, .link, .flocks] s (outcomeState (execStagedWriteRx payload s) s) := by
  unfold execStagedWriteRx
  dsimp -zeta only [outcomeState]
  refine Within.ite ?_ ?_
  · exact (State.rxStaged_within ..).mono (by decide)
  · exact Within.refl _ _

theorem State.callFlock_within (s : State) (id : ℕ) (notBefore : ℕ) (ticket : ℕ × ℕ) :
    Within [.regs, .fresh, .out, .host, .ring, .ingest, .mst, .comp, .boot, .bist, .flocks] s (State.callFlock s id notBefore ticket) := by
  unfold State.callFlock
  split
  · exact (State.finish_within ..).mono (by decide)
  · extract_lets y1 y2 y3 y4 y5 y6 y7
    refine Within.via y1 ?_ fun _ => ?_
    · exact (State.onFlock_within ..).mono (by decide)
    clear_value y1
    refine Within.via y6 ?_ fun _ => ?_
    · refine Within.trans ?_ ((State.onFlock_within ..).mono (by decide))
      assumption
    clear_value y2 y3 y4 y5 y6
    refine Within.via y7 ?_ fun _ => ?_
    · dsimp -zeta only [y7]
      split
      · refine Within.trans ?_ ((State.bwSend_within ..).mono (by decide))
        assumption
      · assumption
    clear_value y7
    refine Within.ite ?_ ?_
    · refine Within.trans ?_ ((State.decideOwn_within ..).mono (by decide))
      assumption
    · refine Within.ite ?_ ?_
      · refine Within.trans ?_ ((State.decideOwn_within ..).mono (by decide))
        assumption
      · refine Within.trans ?_ ((State.flockRegs_within ..).mono (by decide))
        assumption

theorem State.cancelFlock_within (s : State) (id : ℕ) :
    Within [.regs, .fresh, .out, .host, .ring, .ingest, .mst, .comp, .boot, .bist, .flocks] s (State.cancelFlock s id) := by
  unfold State.cancelFlock
  split
  · refine Within.ite ?_ ?_
    · exact (State.decideOwn_within ..).mono (by decide)
    · exact Within.refl _ _
  · exact Within.refl _ _

theorem execFlockOpenTimeout_within (flock : ℕ) (s : State) :
    Within [.regs, .fresh, .out, .host, .ring, .ingest, .mst, .comp, .boot, .bist, .flocks] s (outcomeState (execFlockOpenTimeout flock s) s) := by
  unfold execFlockOpenTimeout
  dsimp -zeta only [outcomeState]
  split
  · refine Within.ite ?_ ?_
    · exact (State.decideOwn_within ..).mono (by decide)
    · exact Within.refl _ _
  · exact Within.refl _ _

theorem State.recordBad_within (s : State) (id : ℕ) :
    Within [.regs, .out, .host, .ring, .ingest, .flocks] s (State.recordBad s id) := by
  unfold State.recordBad
  split
  · exact Within.refl _ _
  · refine Within.ite ?_ ?_
    · refine Within.trans ?_ ((State.flockEvent_within ..).mono (by decide))
      exact (State.onFlock_within ..).mono (by decide)
    · refine Within.ite ?_ ?_
      · exact (State.flockFault_within ..).mono (by decide)
      · exact (State.flockEvent_within ..).mono (by decide)

theorem State.rxCall_within (s : State) (p : Bytes) :
    Within [.regs, .flocks] s (State.rxCall s p) := by
  unfold State.rxCall
  extract_lets y1 y2 y3 y4 y5 y6 y7
  refine Within.via y6 ?_ fun _ => ?_
  · exact (State.holdFlock_within ..).mono (by decide)
  clear_value y1 y2 y3 y4 y5 y6
  clear_value y7
  refine Within.ite ?_ ?_
  · exact Within.refl _ _
  · refine Within.trans ?_ ((State.flockRegs_within ..).mono (by decide))
    refine Within.trans ?_ ((State.onFlock_within ..).mono (by decide))
    assumption

theorem execCallMsg_within (payload : Bytes) (bad : Bool) (s : State) :
    Within [.regs, .out, .host, .ring, .ingest, .flocks] s (outcomeState (execCallMsg payload bad s) s) := by
  unfold execCallMsg
  dsimp -zeta only [outcomeState]
  refine Within.ite ?_ ?_
  · refine Within.trans ?_ ((State.rxCall_within ..).mono (by decide))
    refine Within.when _ _ (fun x => ?_) ?_
    · exact (State.recordBad_within ..).mono (by decide)
    · exact Within.refl _ _
  · exact Within.refl _ _

theorem State.castVote_within (s : State) (f : Flock) (reason : ℕ) (now : ℕ) :
    Within [.regs, .fresh, .out, .host, .ring, .ingest, .mst, .comp, .boot, .bist, .flocks] s (State.castVote s f reason now) := by
  unfold State.castVote
  extract_lets y1 y2 y3 y4 y5
  refine Within.via y2 ?_ fun _ => ?_
  · exact (State.onFlock_within ..).mono (by decide)
  clear_value y1 y2
  refine Within.via y3 ?_ fun _ => ?_
  · refine Within.ite ?_ ?_
    · assumption
    · refine Within.trans ?_ ((State.flockEvent_within ..).mono (by decide))
      refine Within.trans ?_ ((State.dropStaged_within ..).mono (by decide))
      assumption
  clear_value y3
  refine Within.via y4 ?_ fun _ => ?_
  · refine Within.trans ?_ ((State.flockRegs_within ..).mono (by decide))
    assumption
  clear_value y4
  refine Within.via y5 ?_ fun _ => ?_
  · refine Within.trans ?_ ((State.sendVote_within ..).mono (by decide))
    assumption
  clear_value y5
  refine Within.ite ?_ ?_
  · refine Within.trans ?_ ((State.countVote_within ..).mono (by decide))
    assumption
  · assumption

theorem State.vote_within (s : State) (f : Flock) (bad : Option FlockPart) (now : ℕ) :
    Within [.regs, .fresh, .out, .host, .ring, .ingest, .mst, .comp, .boot, .bist, .flocks] s (State.vote s f bad now) := by
  unfold State.vote
  extract_lets y1 y2 y3 y4 y5
  refine Within.via y2 ?_ fun _ => ?_
  · exact (State.clipsMet_within ..).mono (by decide)
  clear_value y1 y2
  refine Within.via y3 ?_ fun _ => ?_
  · dsimp -zeta only [y3]
    split
    · refine Within.trans ?_ ((State.logConflict_within ..).mono (by decide))
      assumption
    · assumption
  clear_value y3
  refine Within.via y4 ?_ fun _ => ?_
  · refine Within.ite ?_ ?_
    · refine Within.trans ?_ ((State.flag_within ..).mono (by decide))
      assumption
    · assumption
  clear_value y4
  refine Within.via y5 ?_ fun _ => ?_
  · refine Within.ite ?_ ?_
    · refine Within.trans ?_ ((State.flockEvent_within ..).mono (by decide))
      assumption
    · assumption
  clear_value y5
  refine Within.trans ?_ ((State.castVote_within ..).mono (by decide))
  assumption

theorem execVoteSend_within (flock : ℕ) (bad : Option FlockPart) (s : State) :
    Within [.regs, .fresh, .out, .host, .ring, .ingest, .mst, .comp, .boot, .bist, .flocks] s (outcomeState (execVoteSend flock bad s) s) := by
  unfold execVoteSend
  dsimp -zeta only [outcomeState]
  split
  · refine Within.ite ?_ ?_
    · exact (State.vote_within ..).mono (by decide)
    · exact Within.refl _ _
  · exact Within.refl _ _

theorem execVoteDeadline_within (flock : ℕ) (bad : Option FlockPart) (s : State) :
    Within [.regs, .fresh, .out, .host, .ring, .ingest, .mst, .comp, .boot, .bist, .flocks] s (outcomeState (execVoteDeadline flock bad s) s) := by
  unfold execVoteDeadline
  dsimp -zeta only [outcomeState]
  split
  · refine Within.ite ?_ ?_
    · exact Within.refl _ _
    · refine Within.ite ?_ ?_
      · exact (State.vote_within ..).mono (by decide)
      · refine Within.trans ?_ ((State.castVote_within ..).mono (by decide))
        refine Within.when _ _ (fun x => ?_) ?_
        · exact (State.flockEvent_within ..).mono (by decide)
        · exact Within.refl _ _
  · exact Within.refl _ _

theorem State.rxVote_within (s : State) (p : Bytes) :
    Within [.regs, .fresh, .out, .host, .ring, .ingest, .mst, .comp, .boot, .bist, .flocks] s (State.rxVote s p) := by
  unfold State.rxVote
  refine Within.ite ?_ ?_
  · exact (State.countVote_within ..).mono (by decide)
  · exact Within.refl _ _

theorem execVote_within (payload : Bytes) (s : State) :
    Within [.regs, .fresh, .out, .host, .ring, .ingest, .mst, .comp, .boot, .bist, .flocks] s (outcomeState (execVote payload s) s) := by
  unfold execVote
  dsimp -zeta only [outcomeState]
  refine Within.ite ?_ ?_
  · exact (State.rxVote_within ..).mono (by decide)
  · exact Within.refl _ _

theorem execVoteGraceExpire_within (flock : ℕ) (s : State) :
    Within [.regs, .fresh, .out, .host, .ring, .ingest, .mst, .comp, .boot, .bist, .flocks] s (outcomeState (execVoteGraceExpire flock s) s) := by
  unfold execVoteGraceExpire
  dsimp -zeta only [outcomeState]
  split
  · refine Within.ite ?_ ?_
    · exact (State.judge_within ..).mono (by decide)
    · exact Within.refl _ _
  · exact Within.refl _ _

theorem execTakeoverDecide_within (flock : ℕ) (s : State) :
    Within [.regs, .fresh, .out, .host, .ring, .ingest, .mst, .comp, .boot, .bist, .flocks] s (outcomeState (execTakeoverDecide flock s) s) := by
  unfold execTakeoverDecide
  dsimp -zeta only [outcomeState]
  split
  · refine Within.ite ?_ ?_
    · exact (State.judge_within ..).mono (by decide)
    · exact Within.refl _ _
  · exact Within.refl _ _

theorem execCommitMsg_within (payload : Bytes) (bad : Bool) (s : State) :
    Within [.regs, .fresh, .out, .host, .ring, .ingest, .mst, .comp, .boot, .bist, .flocks] s (outcomeState (execCommitMsg payload bad s) s) := by
  unfold execCommitMsg
  dsimp -zeta only [outcomeState]
  extract_lets y1 y2
  refine Within.via y2 ?_ fun _ => ?_
  · refine Within.when _ _ (fun x => ?_) ?_
    · exact (State.recordBad_within ..).mono (by decide)
    · exact Within.refl _ _
  clear_value y1 y2
  refine Within.ite ?_ ?_
  · refine Within.ite ?_ ?_
    · assumption
    · refine Within.trans ?_ ((State.takeCommit_within ..).mono (by decide))
      assumption
  · exact Within.refl _ _

theorem execAbortMsg_within (payload : Bytes) (bad : Bool) (s : State) :
    Within [.regs, .fresh, .out, .host, .ring, .ingest, .mst, .comp, .bist, .flocks] s (outcomeState (execAbortMsg payload bad s) s) := by
  unfold execAbortMsg
  dsimp -zeta only [outcomeState]
  extract_lets y1 y2
  refine Within.via y2 ?_ fun _ => ?_
  · refine Within.when _ _ (fun x => ?_) ?_
    · exact (State.recordBad_within ..).mono (by decide)
    · exact Within.refl _ _
  clear_value y1 y2
  refine Within.ite ?_ ?_
  · refine Within.ite ?_ ?_
    · assumption
    · refine Within.trans ?_ ((State.takeAbort_within ..).mono (by decide))
      assumption
  · exact Within.refl _ _

theorem execFlockGuardDeadline_within (flock : Nat) (s : State) :
    Within [.regs, .flocks] s (outcomeState (execFlockGuardDeadline flock s) s) := by
  unfold execFlockGuardDeadline
  dsimp -zeta only [outcomeState]
  split
  · refine Within.ite ?_ ?_
    · refine Within.trans ?_ ((State.flockRegs_within ..).mono (by decide))
      exact (State.onFlock_within ..).mono (by decide)
    · exact Within.refl _ _
  · exact Within.refl _ _

theorem State.rxAck_within (s : State) (p : Bytes) :
    Within [.regs, .host, .flocks] s (State.rxAck s p) := by
  unfold State.rxAck
  refine Within.ite ?_ ?_
  · exact Within.refl _ _
  · extract_lets y1 y2 y3
    clear_value y1 y2 y3
    refine Within.trans ?_ ((State.retire_within ..).mono (by decide))
    refine Within.trans ?_ ((State.flockRegs_within ..).mono (by decide))
    exact (State.onFlock_within ..).mono (by decide)

theorem execAck_within (payload : Bytes) (s : State) :
    Within [.regs, .host, .flocks] s (outcomeState (execAck payload s) s) := by
  unfold execAck
  dsimp -zeta only [outcomeState]
  refine Within.ite ?_ ?_
  · exact (State.rxAck_within ..).mono (by decide)
  · exact Within.refl _ _

theorem execFlockRecordExpire_within (flock : Nat) (s : State) :
    Within [.regs, .flocks] s (outcomeState (execFlockRecordExpire flock s) s) := by
  unfold execFlockRecordExpire
  dsimp -zeta only [outcomeState]
  split
  · refine Within.ite ?_ ?_
    · exact (State.dropFlock_within ..).mono (by decide)
    · exact Within.refl _ _
  · exact Within.refl _ _

theorem State.rxControl_within (s : State) (p : Bytes) (tally : ℕ) :
    Within [.regs, .fresh, .out, .host, .ring, .ingest, .mst, .comp, .boot, .bist, .flocks] s (State.rxControl s p tally) := by
  unfold State.rxControl
  split
  · exact (State.rxCall_within ..).mono (by decide)
  · refine Within.ite ?_ ?_
    · exact (State.takeCommit_within ..).mono (by decide)
    · exact Within.refl _ _
  · refine Within.ite ?_ ?_
    · exact (State.takeAbort_within ..).mono (by decide)
    · exact Within.refl _ _
  · exact (State.rxOpen_within ..).mono (by decide)
  · exact (State.rxHurdle_within ..).mono (by decide)
  · exact (State.rxPose_within ..).mono (by decide)
  · exact Within.refl _ _

theorem State.noteLost_within (s : State) :
    Within [.flocks] s (State.noteLost s) := by
  unfold State.noteLost
  exact (Within.upd (fun p => by cases p <;> first | exact .inr rfl | exact .inl (by decide)) rfl rfl)

end Sys2Proof.Machine
end

