-- ==== Sys2Proof/Laws/WithinSwap.lean ====
section
/-! SUPPORT. What each operation and each meaning of Machine/Swap.lean can do to the state: the parts it may change, and that it
keeps the canonical form and the shape. -/
set_option Elab.async false
namespace Sys2Proof.Machine

theorem State.txBegin_within (s : State) (c : Nat) (t : Nat) (boundary : Nat) (frame : Nat) (tepoch : Nat) :
    Within [.regs, .out, .host, .ring, .txs] s (State.txBegin s c t boundary frame tepoch) := by
  unfold State.txBegin
  refine Within.trans ?_ ((State.txRegs_within ..).mono (by decide))
  refine Within.trans ?_ ((State.handOff_within ..).mono (by decide))
  exact (State.onTx_within ..).mono (by decide)

theorem State.txWrite_within (s : State) (c : Nat) (t : Nat) (ws : List Wr) :
    Within [.regs, .out, .host, .ring, .txs] s (State.txWrite s c t ws) := by
  unfold State.txWrite
  extract_lets y1
  clear_value y1
  refine Within.trans ?_ ((State.txRegs_within ..).mono (by decide))
  refine Within.trans ?_ ((State.handOff_within ..).mono (by decide))
  exact (State.onTx_within ..).mono (by decide)

theorem State.txDrop_within (s : State) (c : ℕ) (reason : ℕ) :
    Within [.regs, .fresh, .out, .host, .ring, .mst, .bist, .txs] s (State.txDrop s c reason) := by
  unfold State.txDrop
  extract_lets y1 y2
  refine Within.via y2 ?_ fun _ => ?_
  · refine Within.trans ?_ ((State.put_within ..).mono (by decide))
    exact (State.onTx_within ..).mono (by decide)
  clear_value y1 y2
  refine Within.trans ?_ ((State.txRegs_within ..).mono (by decide))
  refine Within.trans ?_ ((State.finishAll_within ..).mono (by decide))
  assumption

theorem State.txOne_within (s : State) (c : ℕ) (at_ : ℕ) (w : Wr) :
    Within [.regs, .mem, .fresh, .out, .pwr, .xing, .time, .host, .ring, .link, .ingest, .mst, .comp, .folds, .lamp, .therm, .boot, .bist, .flocks, .latch] s (State.txOne s c at_ w) := by
  unfold State.txOne
  extract_lets y1
  clear_value y1
  split
  · exact (State.tableWrite_within ..).mono (by decide)
  · refine Within.ite ?_ ?_
    · exact (State.logAccess_within ..).mono (by decide)
    · refine Within.ite ?_ ?_
      · exact Within.refl _ _
      · refine Within.ite ?_ ?_
        · exact (State.rwpEffect_within ..).mono (by decide)
        · exact (State.plainWrite_within ..).mono (by decide)

theorem State.txApply_within (s : State) (c : ℕ) (at_ : ℕ) (ws : List Wr) :
    Within [.regs, .mem, .fresh, .out, .pwr, .xing, .time, .host, .ring, .link, .ingest, .mst, .comp, .folds, .lamp, .therm, .boot, .bist, .flocks, .latch] s (State.txApply s c at_ ws) := by
  unfold State.txApply
  refine Within.trans ?_ ((State.commitRegs_within ..).mono (by decide))
  refine Within.when _ _ (fun x => ?_) ?_
  · exact (State.judgeRings_within ..).mono (by decide)
  · refine Within.each _ _ (fun x a => ?_) ?_
    · exact (State.txOne_within ..).mono (by decide)
    · exact Within.refl _ _

theorem State.txEnd_within (s : State) (c : ℕ) (t : ℕ) (tau : ℕ) :
    Within [.regs, .mem, .fresh, .out, .pwr, .xing, .time, .host, .ring, .link, .ingest, .mst, .comp, .folds, .lamp, .therm, .boot, .bist, .flocks, .txs, .latch] s (State.txEnd s c t tau) := by
  unfold State.txEnd
  extract_lets y1 y2 y3 y4 y5 y6 y7 y8
  refine Within.via y4 ?_ fun _ => ?_
  · exact (State.clipsMet_within ..).mono (by decide)
  clear_value y1 y2 y3 y4
  refine Within.via y5 ?_ fun _ => ?_
  · dsimp -zeta only [y5]
    split
    · refine Within.trans ?_ ((State.logConflict_within ..).mono (by decide))
      assumption
    · assumption
  clear_value y5
  refine Within.via y6 ?_ fun _ => ?_
  · refine Within.ite ?_ ?_
    · refine Within.trans ?_ ((State.flag_within ..).mono (by decide))
      assumption
    · assumption
  clear_value y6
  refine Within.via y7 ?_ fun _ => ?_
  · refine Within.trans ?_ ((State.txApply_within ..).mono (by decide))
    refine Within.trans ?_ ((State.onTx_within ..).mono (by decide))
    assumption
  clear_value y7
  clear_value y8
  refine Within.ite ?_ ?_
  · exact (State.finish_within ..).mono (by decide)
  · refine Within.ite ?_ ?_
    · refine Within.trans ?_ ((State.finish_within ..).mono (by decide))
      refine Within.trans ?_ ((State.txDrop_within ..).mono (by decide))
      assumption
    · refine Within.ite ?_ ?_
      · refine Within.trans ?_ ((State.txRegs_within ..).mono (by decide))
        refine Within.trans ?_ ((State.finish_within ..).mono (by decide))
        refine Within.trans ?_ ((State.finishAll_within ..).mono (by decide))
        assumption
      · refine Within.trans ?_ ((State.txRegs_within ..).mono (by decide))
        refine Within.trans ?_ ((State.handOff_within ..).mono (by decide))
        refine Within.trans ?_ ((State.onTx_within ..).mono (by decide))
        assumption

theorem State.txAbort_within (s : State) (c : ℕ) (t : ℕ) :
    Within [.regs, .fresh, .out, .host, .ring, .mst, .bist, .txs] s (State.txAbort s c t) := by
  unfold State.txAbort
  refine Within.trans ?_ ((State.finish_within ..).mono (by decide))
  refine Within.ite ?_ ?_
  · exact (State.txDrop_within ..).mono (by decide)
  · exact Within.refl _ _

theorem execTxBoundaryApply_within (ctx : Fin 8) (s : State) :
    Within [.regs, .mem, .fresh, .out, .pwr, .xing, .time, .host, .ring, .link, .ingest, .mst, .comp, .folds, .lamp, .therm, .boot, .bist, .flocks, .txs, .latch] s (outcomeState (execTxBoundaryApply ctx s) s) := by
  unfold execTxBoundaryApply
  dsimp -zeta only [outcomeState]
  refine Within.each _ _ (fun x a => ?_) ?_
  · extract_lets y1 y2
    refine Within.via y1 ?_ fun _ => ?_
    · refine Within.trans ?_ ((State.txApply_within ..).mono (by decide))
      exact (State.onTx_within ..).mono (by decide)
    clear_value y1
    clear_value y2
    refine Within.trans ?_ ((State.txRegs_within ..).mono (by decide))
    refine Within.trans ?_ ((State.finish_within ..).mono (by decide))
    refine Within.trans ?_ ((State.finishAll_within ..).mono (by decide))
    assumption
  · exact Within.refl _ _

theorem execTxOpenTimeout_within (ctx : Fin 8) (s : State) :
    Within [.regs, .fresh, .out, .host, .ring, .mst, .bist, .txs] s (outcomeState (execTxOpenTimeout ctx s) s) := by
  unfold execTxOpenTimeout
  dsimp -zeta only [outcomeState]
  extract_lets y1
  clear_value y1
  refine Within.ite ?_ ?_
  · exact (State.txDrop_within ..).mono (by decide)
  · exact Within.refl _ _

theorem State.applyContents_within (s : State) (t : ℕ) (fs : List Flock) (flows : List ℕ) :
    Within [.regs, .mem, .fresh, .out, .pwr, .xing, .time, .host, .ring, .link, .ingest, .mst, .comp, .folds, .lamp, .therm, .boot, .bist, .flocks, .latch] s (State.applyContents s t fs flows) := by
  unfold State.applyContents
  extract_lets y1 y2
  refine Within.via y1 ?_ fun _ => ?_
  · refine Within.ite ?_ ?_
    · refine Within.each _ _ (fun x a => ?_) ?_
      · exact (State.takeNext_within ..).mono (by decide)
      · exact Within.refl _ _
    · exact Within.refl _ _
  clear_value y1
  refine Within.via y2 ?_ fun _ => ?_
  · refine Within.each _ _ (fun x a => ?_) ?_
    · exact (State.flowLeave_within ..).mono (by decide)
    · assumption
  clear_value y2
  refine Within.each _ _ (fun x a => ?_) ?_
  · exact (State.applyWrs_within ..).mono (by decide)
  · assumption

theorem State.countFrom_within (s : State) (t : ℕ) (old : ℕ) :
    Within [.time] s (State.countFrom s t old) := by
  unfold State.countFrom
  extract_lets y1 y2
  clear_value y1 y2
  exact (State.onTime_within ..).mono (by decide)

theorem State.applyTiming_within (s : State) (t : ℕ) (timing : Option Timing) :
    Within [.regs, .time] s (State.applyTiming s t timing) := by
  unfold State.applyTiming
  split
  · exact Within.refl _ _
  · refine Within.trans ?_ ((State.countFrom_within ..).mono (by decide))
    exact (State.commitTiming_within ..).mono (by decide)

theorem State.restartParts_within (s : State) (first : ℕ) (groups : List ℕ) (moved : List ℕ) (ports : List ℕ) (flows : List ℕ) :
    Within [.regs, .fresh, .out, .ingest, .lamp] s (State.restartParts s first groups moved ports flows) := by
  unfold State.restartParts
  extract_lets y1 y2 y3 y4
  refine Within.via y2 ?_ fun _ => ?_
  · refine Within.each _ _ (fun x a => ?_) ?_
    · exact (State.blankPort_within ..).mono (by decide)
    · exact Within.refl _ _
  clear_value y1 y2
  refine Within.via y3 ?_ fun _ => ?_
  · refine Within.each _ _ (fun x a => ?_) ?_
    · exact (State.enterHold_within ..).mono (by decide)
    · assumption
  clear_value y3
  refine Within.via y4 ?_ fun _ => ?_
  · refine Within.each _ _ (fun x a => ?_) ?_
    · exact (State.onLPort_within ..).mono (by decide)
    · assumption
  clear_value y4
  refine Within.each _ _ (fun x a => ?_) ?_
  · exact (State.flowJoin_within ..).mono (by decide)
  · assumption

theorem State.commitTotals_within (s : State) (t : ℕ) (fs : List Flock) :
    Within [.regs, .fresh, .out, .time, .host, .ring, .link, .ingest] s (State.commitTotals s t fs) := by
  unfold State.commitTotals
  extract_lets y1 y2 y3 y4
  refine Within.via y2 ?_ fun _ => ?_
  · refine Within.trans ?_ ((State.judgeRates_within ..).mono (by decide))
    exact (State.onLink_within ..).mono (by decide)
  clear_value y1 y2
  refine Within.via y4 ?_ fun _ => ?_
  · refine Within.trans ?_ ((State.onIngest_within ..).mono (by decide))
    refine Within.trans ?_ ((State.judgeMatch_within ..).mono (by decide))
    refine Within.trans ?_ ((State.dropNext_within ..).mono (by decide))
    assumption
  clear_value y3 y4
  refine Within.ite ?_ ?_
  · refine Within.ite ?_ ?_
    · refine Within.trans ?_ ((State.admitNow_within ..).mono (by decide))
      assumption
    · assumption
  · assumption

theorem State.commitRecords_within (s : State) (fs : List Flock) (ws : List Wr) :
    Within [.regs, .flocks] s (State.commitRecords s fs ws) := by
  unfold State.commitRecords
  extract_lets y1 y2
  clear_value y1 y2
  refine Within.trans ?_ ((State.flockRegs_within ..).mono (by decide))
  refine Within.each _ _ (fun x a => ?_) ?_
  · exact (State.inc_within ..).mono (by decide)
  · exact (State.onFlocks_within ..).mono (by decide)

theorem State.commitAt_within (s : State) (t : ℕ) (fs : List Flock) :
    Within [.regs, .mem, .fresh, .out, .pwr, .xing, .time, .host, .ring, .link, .ingest, .mst, .comp, .folds, .lamp, .therm, .boot, .bist, .flocks, .latch] s (State.commitAt s t fs) := by
  unfold State.commitAt
  extract_lets y1 y2 y3 y4 y5 y6 y7 y8 y9 y10
  refine Within.via y2 ?_ fun _ => ?_
  · exact (State.shadow_within ..).mono (by decide)
  clear_value y1 y2
  refine Within.via y8 ?_ fun _ => ?_
  · refine Within.trans ?_ ((State.applyTiming_within ..).mono (by decide))
    exact (State.applyContents_within ..).mono (by decide)
  clear_value y3 y4 y5 y6 y7 y8
  refine Within.via y9 ?_ fun _ => ?_
  · refine Within.trans ?_ ((State.restartParts_within ..).mono (by decide))
    assumption
  clear_value y9
  refine Within.via y10 ?_ fun _ => ?_
  · refine Within.ite ?_ ?_
    · refine Within.trans ?_ ((State.judgeRings_within ..).mono (by decide))
      assumption
    · assumption
  clear_value y10
  refine Within.trans ?_ ((State.commitRecords_within ..).mono (by decide))
  refine Within.trans ?_ ((State.commitTotals_within ..).mono (by decide))
  refine Within.trans ?_ ((State.commitRegs_within ..).mono (by decide))
  assumption

theorem State.commitsDue_within (s : State) (now : ℕ) (bad : List (ℕ × FlockPart)) :
    Within [.regs, .mem, .fresh, .out, .pwr, .xing, .time, .host, .ring, .link, .ingest, .mst, .comp, .folds, .lamp, .therm, .boot, .bist, .flocks, .latch] s (State.commitsDue s now bad) := by
  unfold State.commitsDue
  extract_lets y1 y2 y3 y4 y5
  refine Within.via y3 ?_ fun _ => ?_
  · refine Within.each _ _ (fun x a => ?_) ?_
    · split
      · exact (State.flockFault_within ..).mono (by decide)
      · exact Within.refl _ _
    · exact Within.refl _ _
  clear_value y1 y2 y3
  clear_value y4 y5
  refine Within.each _ _ (fun x a => ?_) ?_
  · exact (State.commitAt_within ..).mono (by decide)
  · assumption

theorem State.judgeOos_within (s : State) (now : Nat) :
    Within [.regs, .out, .host, .ring] s (State.judgeOos s now) := by
  unfold State.judgeOos
  extract_lets y1
  clear_value y1
  refine Within.when _ _ (fun x => ?_) ?_
  · exact (State.inc_within ..).mono (by decide)
  · exact (State.setOos_within ..).mono (by decide)

theorem State.repeatOutcomes_within (s : State) :
    Within [.regs, .fresh, .out, .host, .ring, .ingest, .mst, .boot, .bist, .flocks] s (State.repeatOutcomes s) := by
  unfold State.repeatOutcomes
  refine Within.each _ _ (fun x a => ?_) ?_
  · extract_lets y1
    refine Within.via y1 ?_ fun _ => ?_
    · exact (State.onFlock_within ..).mono (by decide)
    clear_value y1
    split
    · extract_lets y2 y3
      refine Within.via y2 ?_ fun _ => ?_
      · refine Within.trans ?_ ((State.finishFlock_within ..).mono (by decide))
        refine Within.trans ?_ ((State.bwSend_within ..).mono (by decide))
        assumption
      clear_value y2
      clear_value y3
      refine Within.trans ?_ ((State.retire_within ..).mono (by decide))
      refine Within.ite ?_ ?_
      · refine Within.trans ?_ ((State.holdCommit_within ..).mono (by decide))
        assumption
      · assumption
    · assumption
  · exact Within.refl _ _

theorem State.stopRuns_within (s : State) :
    Within [.regs, .fresh, .ring, .folds] s (State.stopRuns s) := by
  unfold State.stopRuns
  refine Within.each _ _ (fun x a => ?_) ?_
  · refine Within.ite ?_ ?_
    · exact (State.overrun_within ..).mono (by decide)
    · exact Within.refl _ _
  · exact Within.refl _ _

theorem State.headRuns_within (s : State) (n : ℕ) :
    Within [.regs, .mem, .fresh, .out, .pwr, .xing, .time, .host, .ring, .link, .ingest, .mst, .comp, .folds, .lamp, .therm, .boot, .bist, .flocks, .latch] s (State.headRuns s n) := by
  unfold State.headRuns
  extract_lets y1
  refine Within.via y1 ?_ fun _ => ?_
  · exact (State.applyLatch_within ..).mono (by decide)
  clear_value y1
  refine Within.each _ _ (fun x a => ?_) ?_
  · extract_lets y2
    refine Within.via y2 ?_ fun _ => ?_
    · refine Within.trans ?_ ((State.onFold_within ..).mono (by decide))
      refine Within.trans ?_ ((State.applyStop_within ..).mono (by decide))
      refine Within.trans ?_ ((State.foldLatch_within ..).mono (by decide))
      exact (State.foldTxDue_within ..).mono (by decide)
    clear_value y2
    refine Within.ite ?_ ?_
    · refine Within.trans ?_ ((State.startRun_within ..).mono (by decide))
      assumption
    · assumption
  · assumption

theorem State.swapInstant_within (s : State) (bad : List (ℕ × FlockPart)) :
    Within [.regs, .mem, .fresh, .out, .pwr, .xing, .time, .host, .ring, .link, .ingest, .mst, .comp, .folds, .lamp, .therm, .boot, .bist, .flocks, .txs, .latch] s (State.swapInstant s bad) := by
  unfold State.swapInstant
  extract_lets y1 y2 y3 y4 y5 y6 y7 y8
  refine Within.via y3 ?_ fun _ => ?_
  · refine Within.trans ?_ ((State.onFlocks_within ..).mono (by decide))
    exact (State.onTime_within ..).mono (by decide)
  clear_value y1 y2 y3
  refine Within.via y4 ?_ fun _ => ?_
  · refine Within.trans ?_ ((State.commitsDue_within ..).mono (by decide))
    refine Within.when _ _ (fun x => ?_) ?_
    · exact (State.stopRuns_within ..).mono (by decide)
    · assumption
  clear_value y4
  refine Within.via y5 ?_ fun _ => ?_
  · refine Within.trans ?_ ((State.judgeOos_within ..).mono (by decide))
    assumption
  clear_value y5
  refine Within.via y6 ?_ fun _ => ?_
  · refine Within.ite ?_ ?_
    · refine Within.trans ?_ ((State.repeatOutcomes_within ..).mono (by decide))
      assumption
    · assumption
  clear_value y6
  refine Within.via y8 ?_ fun _ => ?_
  · refine Within.ite ?_ ?_
    · refine Within.trans ?_ ((State.headRuns_within ..).mono (by decide))
      assumption
    · refine Within.each _ _ (fun x a => ?_) ?_
      · exact (State.inc_within ..).mono (by decide)
      · refine Within.each _ _ (fun x a => ?_) ?_
        · exact (State.foldTxDue_within ..).mono (by decide)
        · assumption
  clear_value y7 y8
  refine Within.ite ?_ ?_
  · refine Within.trans ?_ ((State.releaseNode_within ..).mono (by decide))
    refine Within.trans ?_ ((State.coldStart_within ..).mono (by decide))
    assumption
  · assumption

theorem execSwapInstant_within (bad : List (ℕ × FlockPart)) (s : State) :
    Within [.regs, .mem, .fresh, .out, .pwr, .xing, .time, .host, .ring, .link, .ingest, .mst, .comp, .folds, .lamp, .therm, .boot, .bist, .flocks, .txs, .latch] s (outcomeState (execSwapInstant bad s) s) := by
  unfold execSwapInstant
  dsimp -zeta only [outcomeState]
  refine Within.ite ?_ ?_
  · exact (State.swapInstant_within ..).mono (by decide)
  · exact Within.refl _ _

theorem State.resolveCheck_within (s : State) (r : Nat) :
    Within [.regs, .out, .host, .ring] s (State.resolveCheck s r) := by
  unfold State.resolveCheck
  split
  · exact (State.flag_within ..).mono (by decide)
  · extract_lets y1 y2 y3
    clear_value y1
    refine Within.via y2 ?_ fun _ => ?_
    · refine Within.trans ?_ ((State.flag_within ..).mono (by decide))
      exact (State.put_within ..).mono (by decide)
    clear_value y2
    refine Within.via y3 ?_ fun _ => ?_
    · refine Within.trans ?_ ((State.flag_within ..).mono (by decide))
      refine Within.trans ?_ ((State.inc_within ..).mono (by decide))
      assumption
    clear_value y3
    refine Within.ite ?_ ?_
    · assumption
    · refine Within.when _ _ (fun x => ?_) ?_
      · exact (State.irqAll_within ..).mono (by decide)
      · assumption

theorem State.pollDark_within (s : State) :
    Within [.lamp] s (State.pollDark s) := by
  unfold State.pollDark
  refine Within.each _ _ (fun x a => ?_) ?_
  · exact (State.pollPort_within ..).mono (by decide)
  · exact Within.refl _ _

theorem execSlotStart_within (s : State) :
    Within [.regs, .out, .time, .host, .ring, .lamp] s (outcomeState (execSlotStart s) s) := by
  unfold execSlotStart
  dsimp -zeta only [outcomeState]
  refine Within.ite ?_ ?_
  · exact Within.refl _ _
  · extract_lets y1 y2 y3 y4
    refine Within.via y2 ?_ fun _ => ?_
    · exact (State.onTime_within ..).mono (by decide)
    clear_value y1 y2
    refine Within.via y3 ?_ fun _ => ?_
    · refine Within.when _ _ (fun x => ?_) ?_
      · exact (State.pollDark_within ..).mono (by decide)
      · assumption
    clear_value y3
    clear_value y4
    refine Within.ite ?_ ?_
    · refine Within.each _ _ (fun x a => ?_) ?_
      · exact (State.resolveCheck_within ..).mono (by decide)
      · assumption
    · assumption

theorem execHandback_within (s : State) :
    Within [.regs, .out, .ring, .bist, .flocks] s (outcomeState (execHandback s) s) := by
  unfold execHandback
  dsimp -zeta only [outcomeState]
  refine Within.ite ?_ ?_
  · exact (State.handbackNow_within ..).mono (by decide)
  · exact Within.refl _ _

theorem State.raiseNext_within (s : State) (c : ℕ) (v : ℕ) :
    Within [.regs, .host] s (State.raiseNext s c v) := by
  unfold State.raiseNext
  refine Within.ite ?_ ?_
  · exact (State.setNext_within ..).mono (by decide)
  · exact Within.refl _ _

theorem State.resyncEpoch_within (s : State) (epoch : ℕ) (next : List ℕ) (whole : Bool) :
    Within [.regs, .host] s (State.resyncEpoch s epoch next whole) := by
  unfold State.resyncEpoch
  refine Within.ite ?_ ?_
  · exact Within.refl _ _
  · extract_lets y1
    clear_value y1
    refine Within.each _ _ (fun x a => ?_) ?_
    · extract_lets y2
      refine Within.via y2 ?_ fun _ => ?_
      · exact (State.put_within ..).mono (by decide)
      clear_value y2
      refine Within.ite ?_ ?_
      · refine Within.trans ?_ ((State.raiseNext_within ..).mono (by decide))
        assumption
      · refine Within.trans ?_ ((State.setNext_within ..).mono (by decide))
        assumption
    · exact (State.onHost_within ..).mono (by decide)

theorem State.resyncRecord_within (s : State) (record : Bytes) (payload : Bytes) (whole : Bool) :
    Within [.regs, .fresh, .out, .host, .ring] s (State.resyncRecord s record payload whole) := by
  unfold State.resyncRecord
  extract_lets y1 y2 y3 y4 y5 y6 y7
  refine Within.via y6 ?_ fun _ => ?_
  · refine Within.trans ?_ ((State.journalRegs_within ..).mono (by decide))
    refine Within.trans ?_ ((State.onHost_within ..).mono (by decide))
    exact (State.tickFresh_within ..).mono (by decide)
  clear_value y1 y2 y3 y4 y5 y6
  refine Within.via y7 ?_ fun _ => ?_
  · refine Within.each _ _ (fun x a => ?_) ?_
    · exact (State.put_within ..).mono (by decide)
    · assumption
  clear_value y7
  refine Within.ite ?_ ?_
  · refine Within.ite ?_ ?_
    · exact Within.refl _ _
    · refine Within.trans ?_ ((State.writePending_within ..).mono (by decide))
      refine Within.trans ?_ ((State.countInflight_within ..).mono (by decide))
      refine Within.trans ?_ ((State.raiseNext_within ..).mono (by decide))
      assumption
  · refine Within.trans ?_ ((State.journalRegs_within ..).mono (by decide))
    exact (State.onHost_within ..).mono (by decide)

theorem State.resyncLayers_within (s : State) :
    Within [.ingest] s (State.resyncLayers s) := by
  unfold State.resyncLayers
  refine Within.each _ _ (fun x a => ?_) ?_
  · exact (State.onLayer_within ..).mono (by decide)
  · exact Within.refl _ _

theorem State.recount_within (s : State) (epochs : List Timing) :
    Within [.time] s (State.recount s epochs) := by
  unfold State.recount
  exact (State.onTime_within ..).mono (by decide)

theorem State.resyncTiming_within (s : State) (tepoch : ℕ) (epochs : List (ℕ × ℕ × ℕ)) (changes : List ℕ) :
    Within [.regs, .time] s (State.resyncTiming s tepoch epochs changes) := by
  unfold State.resyncTiming
  refine Within.trans ?_ ((State.recount_within ..).mono (by decide))
  refine Within.trans ?_ ((State.onTime_within ..).mono (by decide))
  exact (State.put_within ..).mono (by decide)

theorem State.resyncReg_within (s : State) (a : ℕ) (v : Word) :
    Within [.regs] s (State.resyncReg s a v) := by
  unfold State.resyncReg
  extract_lets y1 y2
  clear_value y1 y2
  refine Within.ite ?_ ?_
  · exact Within.refl _ _
  · exact (State.setReg_within ..).mono (by decide)

theorem State.resyncConfig_within (s : State) (epoch : ℕ) (base : ℕ) (size : ℕ) (regs : List (ℕ × Word)) :
    Within [.regs, .fresh, .out, .time, .host, .ring, .link, .ingest] s (State.resyncConfig s epoch base size regs) := by
  unfold State.resyncConfig
  extract_lets y1 y2 y3 y4 y5
  refine Within.via y1 ?_ fun _ => ?_
  · refine Within.trans ?_ ((State.onIngest_within ..).mono (by decide))
    refine Within.each _ _ (fun x a => ?_) ?_
    · exact (State.resyncReg_within ..).mono (by decide)
    · exact Within.refl _ _
  clear_value y1
  refine Within.via y2 ?_ fun _ => ?_
  · refine Within.trans ?_ ((State.onTime_within ..).mono (by decide))
    refine Within.trans ?_ ((State.resyncLayers_within ..).mono (by decide))
    assumption
  clear_value y2
  refine Within.via y4 ?_ fun _ => ?_
  · refine Within.trans ?_ ((State.judgeRings_within ..).mono (by decide))
    refine Within.trans ?_ ((State.commitRegs_within ..).mono (by decide))
    refine Within.when _ _ (fun x => ?_) ?_
    · exact (State.recount_within ..).mono (by decide)
    · assumption
  clear_value y3 y4
  refine Within.via y5 ?_ fun _ => ?_
  · refine Within.trans ?_ ((State.judgeRates_within ..).mono (by decide))
    refine Within.trans ?_ ((State.onLink_within ..).mono (by decide))
    assumption
  clear_value y5
  refine Within.when _ _ (fun x => ?_) ?_
  · exact (State.flag_within ..).mono (by decide)
  · assumption

theorem State.sendRecords_within (s : State) :
    Within [.out, .ring] s (State.sendRecords s) := by
  unfold State.sendRecords
  refine Within.each _ _ (fun x a => ?_) ?_
  · exact (State.headSend_within ..).mono (by decide)
  · exact Within.refl _ _

theorem State.resyncPhaseEnd_within (s : State) (phase : ℕ) :
    Within [.regs, .out, .ring] s (State.resyncPhaseEnd s phase) := by
  unfold State.resyncPhaseEnd
  extract_lets y1
  refine Within.via y1 ?_ fun _ => ?_
  · exact (State.onRing_within ..).mono (by decide)
  clear_value y1
  refine Within.ite ?_ ?_
  · refine Within.trans ?_ ((State.sendRecords_within ..).mono (by decide))
    refine Within.trans ?_ ((State.mirrorStart_within ..).mono (by decide))
    assumption
  · assumption

theorem State.resyncWall_within (s : State) (gen : ℕ) (tiles : List (ℕ × ℕ × ℕ × ℕ)) (lamps : List (ℕ × ℕ × ℕ)) (enumDone : ℕ) :
    Within [.regs, .ring] s (State.resyncWall s gen tiles lamps enumDone) := by
  unfold State.resyncWall
  extract_lets y1
  refine Within.via y1 ?_ fun _ => ?_
  · exact (State.onRing_within ..).mono (by decide)
  clear_value y1
  refine Within.trans ?_ ((State.judgeRings_within ..).mono (by decide))
  refine Within.trans ?_ ((State.wallCounts_within ..).mono (by decide))
  refine Within.each _ _ (fun x a => ?_) ?_
  · exact (State.flag_within ..).mono (by decide)
  · assumption

theorem State.rxResync_within (s : State) (m : Bytes) :
    Within [.regs, .mem, .fresh, .out, .time, .host, .ring, .link, .ingest, .mst, .bist] s (State.rxResync s m) := by
  unfold State.rxResync
  refine Within.ite ?_ ?_
  · exact Within.refl _ _
  · split
    · exact (State.resyncConfig_within ..).mono (by decide)
    · exact (State.resyncRecord_within ..).mono (by decide)
    · refine Within.each _ _ (fun x a => ?_) ?_
      · exact (State.memMerge_within ..).mono (by decide)
      · exact Within.refl _ _
    · exact (State.resyncPhaseEnd_within ..).mono (by decide)
    · extract_lets y1
      clear_value y1
      exact (State.resyncWall_within ..).mono (by decide)
    · exact (State.clearSpan_within ..).mono (by decide)
    · exact (State.resyncEpoch_within ..).mono (by decide)
    · extract_lets y2
      clear_value y2
      exact (State.resyncTiming_within ..).mono (by decide)
    · exact Within.refl _ _

theorem execResyncCopyRx_within (part : ResyncPart) (s : State) :
    Within [.regs, .mem, .fresh, .out, .time, .host, .ring, .link, .ingest, .mst, .bist] s (outcomeState (execResyncCopyRx part s) s) := by
  unfold execResyncCopyRx
  dsimp -zeta only [outcomeState]
  refine Within.ite ?_ ?_
  · exact Within.refl _ _
  · split
    · exact (State.resyncConfig_within ..).mono (by decide)
    · exact (State.resyncTiming_within ..).mono (by decide)
    · exact (State.resyncWall_within ..).mono (by decide)
    · exact (State.resyncEpoch_within ..).mono (by decide)
    · exact (State.resyncRecord_within ..).mono (by decide)
    · exact (State.memMerge_within ..).mono (by decide)
    · exact (State.resyncPhaseEnd_within ..).mono (by decide)

end Sys2Proof.Machine
end

