-- ==== Sys2Proof/Laws/WithinTickets.lean ====
section
/-! SUPPORT. What each operation and each meaning of Machine/Tickets.lean can do to the state: the parts it may change, and that it
keeps the canonical form and the shape. -/
set_option Elab.async false
namespace Sys2Proof.Machine

theorem State.ringRead_within (s : State) (c : ℕ) :
    Within [.regs, .out, .host, .ring, .mst, .bist] s (State.ringRead s c) := by
  unfold State.ringRead
  refine Within.trans ?_ ((State.memHeal_within ..).mono (by decide))
  exact (State.memTouch_within ..).mono (by decide)

theorem State.entryMet_within (s : State) (e : Bytes) (pay : Bytes) (code : ℕ) :
    Within [.regs, .out, .host, .ring, .ingest, .mst, .bist] s (State.entryMet s e pay code) := by
  unfold State.entryMet
  refine Within.when _ _ (fun x => ?_) ?_
  · exact (State.clipsMet_within ..).mono (by decide)
  · exact Within.refl _ _

theorem State.rewrite_within (s : State) (c : ℕ) (t : Option (ℕ × ℕ)) (a : ℕ) (v : ℕ) :
    Within [.regs, .mem, .fresh, .out, .pwr, .xing, .time, .host, .ring, .link, .ingest, .mst, .comp, .folds, .lamp, .therm, .boot, .bist, .flocks, .latch] s (State.rewrite s c t a v) := by
  unfold State.rewrite
  refine Within.ite ?_ ?_
  · exact Within.refl _ _
  · refine Within.ite ?_ ?_
    · exact (State.rwpOpen_within ..).mono (by decide)
    · refine Within.ite ?_ ?_
      · exact (State.rwpClose_within ..).mono (by decide)
      · exact (State.plainWrite_within ..).mono (by decide)

theorem State.settle_within (s : State) (c : ℕ) (t : ℕ) :
    Within [.regs, .fresh, .out, .host, .ring, .mst, .bist] s (State.settle s c t) := by
  unfold State.settle
  refine Within.ite ?_ ?_
  · exact (State.handOff_within ..).mono (by decide)
  · exact (State.finish_within ..).mono (by decide)

theorem State.afterRegs_within (s : State) (ws : List Wr) :
    Within [.regs] s (State.afterRegs s ws) := by
  unfold State.afterRegs
  extract_lets y1
  refine Within.via y1 ?_ fun _ => ?_
  · refine Within.ite ?_ ?_
    · exact (State.judgeRings_within ..).mono (by decide)
    · exact Within.refl _ _
  clear_value y1
  refine Within.ite ?_ ?_
  · refine Within.trans ?_ ((State.commitRegs_within ..).mono (by decide))
    assumption
  · assumption

theorem execRegisterWrite_within (ctx : Fin 8) (addr : ℕ) (value : ℕ) (s : State) :
    Within [.regs, .mem, .fresh, .out, .pwr, .xing, .time, .host, .ring, .link, .ingest, .mst, .comp, .folds, .lamp, .therm, .boot, .bist, .flocks, .latch] s (outcomeState (execRegisterWrite ctx addr value s) s) := by
  unfold execRegisterWrite
  extract_lets y1
  clear_value y1
  dsimp -zeta only [outcomeState]
  refine Within.ite ?_ ?_
  · exact Within.refl _ _
  · split
    · refine Within.trans ?_ ((State.afterRegs_within ..).mono (by decide))
      refine Within.trans ?_ ((State.regWrite_within ..).mono (by decide))
      exact (State.clipsMet_within ..).mono (by decide)
    · split
      · exact (State.logConflict_within ..).mono (by decide)
      · exact Within.refl _ _
    · exact (State.clipsMet_within ..).mono (by decide)
    · exact Within.refl _ _

theorem State.runRegs_within (s : State) (c : ℕ) (t : ℕ) (ws : List Wr) (again : Bool) :
    Within [.regs, .mem, .fresh, .out, .pwr, .xing, .time, .host, .ring, .link, .ingest, .mst, .comp, .folds, .lamp, .therm, .boot, .bist, .flocks, .latch] s (State.runRegs s c t ws again) := by
  unfold State.runRegs
  extract_lets y1 y2 y3
  refine Within.via y2 ?_ fun _ => ?_
  · dsimp -zeta only [y2]
    split
    · exact (State.logConflict_within ..).mono (by decide)
    · exact Within.refl _ _
  clear_value y1 y2
  refine Within.via y3 ?_ fun _ => ?_
  · refine Within.each _ _ (fun x a => ?_) ?_
    · refine Within.ite ?_ ?_
      · exact (State.rewrite_within ..).mono (by decide)
      · exact (State.regWrite_within ..).mono (by decide)
    · exact Within.refl _ _
  clear_value y3
  refine Within.ite ?_ ?_
  · refine Within.trans ?_ ((State.finish_within ..).mono (by decide))
    assumption
  · refine Within.trans ?_ ((State.settle_within ..).mono (by decide))
    refine Within.trans ?_ ((State.afterRegs_within ..).mono (by decide))
    assumption

theorem State.runTable_within (s : State) (c : ℕ) (t : ℕ) (e : Bytes) (pay : Bytes) :
    Within [.regs, .mem, .fresh, .out, .host, .ring, .mst, .comp, .folds, .boot, .bist, .latch] s (State.runTable s c t e pay) := by
  unfold State.runTable
  extract_lets y1
  clear_value y1
  refine Within.ite ?_ ?_
  · exact (State.finish_within ..).mono (by decide)
  · refine Within.trans ?_ ((State.settle_within ..).mono (by decide))
    exact (State.tableWrite_within ..).mono (by decide)

theorem State.runStaged_within (s : State) (c : ℕ) (t : ℕ) (e : Bytes) (pay : Bytes) :
    Within [.regs, .fresh, .out, .host, .ring, .mst, .bist, .flocks] s (State.runStaged s c t e pay) := by
  unfold State.runStaged
  split
  · refine Within.ite ?_ ?_
    · exact (State.finishOutcome_within ..).mono (by decide)
    · refine Within.ite ?_ ?_
      · exact (State.finish_within ..).mono (by decide)
      · refine Within.trans ?_ ((State.flockRegs_within ..).mono (by decide))
        refine Within.trans ?_ ((State.handOff_within ..).mono (by decide))
        refine Within.trans ?_ ((State.stageSend_within ..).mono (by decide))
        refine Within.trans ?_ ((State.onFlock_within ..).mono (by decide))
        exact (State.countAccesses_within ..).mono (by decide)
  · exact (State.finish_within ..).mono (by decide)

theorem State.runFlock_within (s : State) (c : ℕ) (r : JRec) :
    Within [.regs, .fresh, .out, .host, .ring, .ingest, .mst, .comp, .boot, .bist, .flocks] s (State.runFlock s c r) := by
  unfold State.runFlock
  extract_lets y1 y2 y3 y4
  refine Within.via y3.1 ?_ fun _ => ?_
  · exact (State.openFlock_within ..).mono (by decide)
  clear_value y1 y2 y3
  clear_value y4
  split
  · refine Within.ite ?_ ?_
    · exact (State.finish_within ..).mono (by decide)
    · refine Within.trans ?_ ((State.finish_within ..).mono (by decide))
      assumption
  · split
    · refine Within.ite ?_ ?_
      · exact (State.finishOutcome_within ..).mono (by decide)
      · refine Within.ite ?_ ?_
        · exact (State.finish_within ..).mono (by decide)
        · refine Within.trans ?_ ((State.handOff_within ..).mono (by decide))
          exact (State.callFlock_within ..).mono (by decide)
    · exact (State.finish_within ..).mono (by decide)
  · refine Within.ite ?_ ?_
    · exact (State.finish_within ..).mono (by decide)
    · split
      · refine Within.ite ?_ ?_
        · refine Within.trans ?_ ((State.finish_within ..).mono (by decide))
          exact (State.cancelFlock_within ..).mono (by decide)
        · exact (State.finish_within ..).mono (by decide)
      · exact (State.finish_within ..).mono (by decide)

theorem State.runPost_within (s : State) (c : ℕ) (r : JRec) :
    Within [.regs, .fresh, .out, .host, .ring, .mst, .comp, .bist] s (State.runPost s c r) := by
  unfold State.runPost
  extract_lets y1 y2 y3 y4 y5
  refine Within.via y3.1 ?_ fun _ => ?_
  · exact (State.postHurdle_within ..).mono (by decide)
  clear_value y1 y2 y3
  refine Within.via y5.1 ?_ fun _ => ?_
  · exact (State.postPose_within ..).mono (by decide)
  clear_value y4 y5
  refine Within.ite ?_ ?_
  · exact Within.refl _ _
  · refine Within.ite ?_ ?_
    · exact (State.finish_within ..).mono (by decide)
    · refine Within.ite ?_ ?_
      · refine Within.trans ?_ ((State.finish_within ..).mono (by decide))
        assumption
      · refine Within.trans ?_ ((State.finish_within ..).mono (by decide))
        assumption

theorem State.tileService_within (s : State) (serial : Nat) (out : Bool) :
    Within [.ring] s (State.tileService s serial out) := by
  unfold State.tileService
  exact (State.onRing_within ..).mono (by decide)

theorem State.tunnelLamps_within (s : State) (target : ℕ) (p : Bytes) :
    Within [.ring] s (State.tunnelLamps s target p) := by
  unfold State.tunnelLamps
  extract_lets y1 y2
  clear_value y1 y2
  refine Within.ite ?_ ?_
  · exact Within.refl _ _
  · exact (State.onRing_within ..).mono (by decide)

theorem State.runTicket_within (s : State) (c : ℕ) (r : JRec) :
    Within [.regs, .mem, .fresh, .out, .pwr, .xing, .time, .host, .ring, .link, .ingest, .mst, .comp, .folds, .lamp, .therm, .boot, .bist, .flocks, .txs, .latch] s (State.runTicket s c r) := by
  unfold State.runTicket
  extract_lets y1 y2
  clear_value y1 y2
  split
  · refine Within.ite ?_ ?_
    · refine Within.ite ?_ ?_
      · exact Within.refl _ _
      · exact (State.runStaged_within ..).mono (by decide)
    · refine Within.ite ?_ ?_
      · refine Within.trans ?_ ((State.txWrite_within ..).mono (by decide))
        exact (State.countAccesses_within ..).mono (by decide)
      · exact (State.runRegs_within ..).mono (by decide)
  · refine Within.ite ?_ ?_
    · refine Within.ite ?_ ?_
      · exact Within.refl _ _
      · exact (State.runStaged_within ..).mono (by decide)
    · refine Within.ite ?_ ?_
      · exact (State.txWrite_within ..).mono (by decide)
      · exact (State.runTable_within ..).mono (by decide)
  · refine Within.trans ?_ ((State.finish_within ..).mono (by decide))
    exact (State.memMerge_within ..).mono (by decide)
  · exact (State.runPost_within ..).mono (by decide)
  · exact (State.runPost_within ..).mono (by decide)
  · refine Within.trans ?_ ((State.finish_within ..).mono (by decide))
    exact (State.tileService_within ..).mono (by decide)
  · exact (State.txBegin_within ..).mono (by decide)
  · exact (State.txEnd_within ..).mono (by decide)
  · exact (State.txAbort_within ..).mono (by decide)
  · refine Within.ite ?_ ?_
    · exact Within.refl _ _
    · refine Within.ite ?_ ?_
      · exact (State.finish_within ..).mono (by decide)
      · refine Within.trans ?_ ((State.handOff_within ..).mono (by decide))
        refine Within.trans ?_ ((State.bwSend_within ..).mono (by decide))
        exact (State.tunnelLamps_within ..).mono (by decide)
  · refine Within.ite ?_ ?_
    · exact Within.refl _ _
    · exact (State.runFlock_within ..).mono (by decide)

theorem State.readRegs_within (s : State) (c : Nat) (pads : Nat) (addrs : List Nat) :
    Within [.regs, .out, .host, .ring, .bist] s (State.readRegs s c pads addrs).1 := by
  unfold State.readRegs
  refine Within.foldl_fst _ _ _ (fun x a => ?_) ?_
  · extract_lets y1
    refine Within.via y1.1 ?_ fun _ => ?_
    · exact (State.regRead_within ..).mono (by decide)
    clear_value y1
    assumption
  · dsimp -zeta only
    exact Within.refl _ _

theorem State.clipWritten_within (s : State) :
    Within [.mem, .mst] s (State.clipWritten s) := by
  unfold State.clipWritten
  refine Within.each _ _ (fun x a => ?_) ?_
  · exact (State.memWrite_within ..).mono (by decide)
  · exact Within.refl _ _

theorem State.readMem_within (s : State) (r : ℕ) (off : ℕ) (len : ℕ) :
    Within [.regs, .out, .host, .ring, .mst, .bist] s (State.readMem s r off len).1 := by
  unfold State.readMem
  refine Within.ite_fst ?_ ?_
  · extract_lets y1 y2
    clear_value y1 y2
    refine Within.ite_fst ?_ ?_
    · dsimp -zeta only
      exact Within.refl _ _
    · dsimp -zeta only
      exact Within.refl _ _
  · split
    · extract_lets y3 y4 y5
      clear_value y3 y4
      refine Within.via y5 ?_ fun _ => ?_
      · exact (State.memTouch_within ..).mono (by decide)
      clear_value y5
      refine Within.ite_fst ?_ ?_
      · dsimp -zeta only
        assumption
      · dsimp -zeta only
        assumption
    · dsimp -zeta only
      exact Within.refl _ _

theorem State.query_within (s : State) (c : ℕ) (k : Checked) (pads : ℕ) :
    Within [.regs, .fresh, .out, .host, .ring, .mst, .bist] s (State.query s c k pads) := by
  unfold State.query
  extract_lets y1 y2 y3 y4 y5 y6 y7 y8 y9 y10
  refine Within.via y2.1 ?_ fun _ => ?_
  · exact (State.readRegs_within ..).mono (by decide)
  clear_value y1 y2
  refine Within.via y3.1 ?_ fun _ => ?_
  · exact (State.readMem_within ..).mono (by decide)
  clear_value y3
  refine Within.via y5 ?_ fun _ => ?_
  · refine Within.ite ?_ ?_
    · refine Within.trans ?_ ((State.emit_within ..).mono (by decide))
      assumption
    · assumption
  clear_value y4 y5
  refine Within.via y9 ?_ fun _ => ?_
  · dsimp -zeta only [y9]
    split
    · refine Within.ite ?_ ?_
      · exact (State.usePeerRec_within ..).mono (by decide)
      · exact (State.useRec_within ..).mono (by decide)
    · exact Within.refl _ _
  clear_value y6 y7 y9
  clear_value y10
  split
  · refine Within.trans ?_ ((State.answer_within ..).mono (by decide))
    assumption
  · refine Within.trans ?_ ((State.answer_within ..).mono (by decide))
    assumption
  · refine Within.trans ?_ ((State.answer_within ..).mono (by decide))
    assumption
  · exact (State.answer_within ..).mono (by decide)

theorem State.takeEntry_within (s : State) (c : ℕ) (k : Checked) (readOk : Bool) (pads : ℕ) :
    Within [.regs, .fresh, .out, .host, .ring, .ingest, .mst, .bist] s (State.takeEntry s c k readOk pads) := by
  unfold State.takeEntry
  extract_lets y1 y2 y3
  refine Within.via y2 ?_ fun _ => ?_
  · refine Within.trans ?_ ((State.entryMet_within ..).mono (by decide))
    exact (State.ringRead_within ..).mono (by decide)
  clear_value y1 y2
  refine Within.via y3 ?_ fun _ => ?_
  · refine Within.trans ?_ ((State.onCtx_within ..).mono (by decide))
    assumption
  clear_value y3
  refine Within.ite ?_ ?_
  · refine Within.trans ?_ ((State.reject_within ..).mono (by decide))
    assumption
  · refine Within.ite ?_ ?_
    · refine Within.trans ?_ ((State.query_within ..).mono (by decide))
      assumption
    · refine Within.ite ?_ ?_
      · refine Within.trans ?_ ((State.onRing_within ..).mono (by decide))
        refine Within.trans ?_ ((State.headSend_within ..).mono (by decide))
        assumption
      · assumption

theorem State.command_within (s : State) (op : ℕ) (c : ℕ) (entry : Bytes) (pay : Bytes) (readOk : Bool) (pads : ℕ) :
    Within [.regs, .fresh, .out, .host, .ring, .ingest, .mst, .bist] s (State.command s op c entry pay readOk pads) := by
  unfold State.command
  refine Within.ite ?_ ?_
  · exact Within.refl _ _
  · extract_lets y1
    clear_value y1
    split
    · exact Within.refl _ _
    · refine Within.ite ?_ ?_
      · exact (State.takeEntry_within ..).mono (by decide)
      · exact Within.refl _ _

theorem execRegWrite_within (ctx : Fin 8) (entry : Bytes) (payload : Bytes) (readOk : Bool) (s : State) :
    Within [.regs, .fresh, .out, .host, .ring, .ingest, .mst, .bist] s (outcomeState (execRegWrite ctx entry payload readOk s) s) := by
  unfold execRegWrite
  dsimp -zeta only [outcomeState]
  exact (State.command_within ..).mono (by decide)

theorem execTableWrite_within (ctx : Fin 8) (entry : Bytes) (payload : Bytes) (readOk : Bool) (s : State) :
    Within [.regs, .fresh, .out, .host, .ring, .ingest, .mst, .bist] s (outcomeState (execTableWrite ctx entry payload readOk s) s) := by
  unfold execTableWrite
  dsimp -zeta only [outcomeState]
  exact (State.command_within ..).mono (by decide)

theorem execMemWrite_within (ctx : Fin 8) (entry : Bytes) (payload : Bytes) (readOk : Bool) (s : State) :
    Within [.regs, .fresh, .out, .host, .ring, .ingest, .mst, .bist] s (outcomeState (execMemWrite ctx entry payload readOk s) s) := by
  unfold execMemWrite
  dsimp -zeta only [outcomeState]
  exact (State.command_within ..).mono (by decide)

theorem execHurdlePost_within (ctx : Fin 8) (entry : Bytes) (s : State) :
    Within [.regs, .fresh, .out, .host, .ring, .ingest, .mst, .bist] s (outcomeState (execHurdlePost ctx entry s) s) := by
  unfold execHurdlePost
  dsimp -zeta only [outcomeState]
  exact (State.command_within ..).mono (by decide)

theorem execPosePost_within (ctx : Fin 8) (entry : Bytes) (s : State) :
    Within [.regs, .fresh, .out, .host, .ring, .ingest, .mst, .bist] s (outcomeState (execPosePost ctx entry s) s) := by
  unfold execPosePost
  dsimp -zeta only [outcomeState]
  exact (State.command_within ..).mono (by decide)

theorem execTileService_within (ctx : Fin 8) (entry : Bytes) (s : State) :
    Within [.regs, .fresh, .out, .host, .ring, .ingest, .mst, .bist] s (outcomeState (execTileService ctx entry s) s) := by
  unfold execTileService
  dsimp -zeta only [outcomeState]
  exact (State.command_within ..).mono (by decide)

theorem execFlockOpen_within (ctx : Fin 8) (entry : Bytes) (s : State) :
    Within [.regs, .fresh, .out, .host, .ring, .ingest, .mst, .bist] s (outcomeState (execFlockOpen ctx entry s) s) := by
  unfold execFlockOpen
  dsimp -zeta only [outcomeState]
  exact (State.command_within ..).mono (by decide)

theorem execFlockCall_within (ctx : Fin 8) (entry : Bytes) (s : State) :
    Within [.regs, .fresh, .out, .host, .ring, .ingest, .mst, .bist] s (outcomeState (execFlockCall ctx entry s) s) := by
  unfold execFlockCall
  dsimp -zeta only [outcomeState]
  exact (State.command_within ..).mono (by decide)

theorem execFlockCancel_within (ctx : Fin 8) (entry : Bytes) (s : State) :
    Within [.regs, .fresh, .out, .host, .ring, .ingest, .mst, .bist] s (outcomeState (execFlockCancel ctx entry s) s) := by
  unfold execFlockCancel
  dsimp -zeta only [outcomeState]
  exact (State.command_within ..).mono (by decide)

theorem execTxbegin_within (ctx : Fin 8) (entry : Bytes) (s : State) :
    Within [.regs, .fresh, .out, .host, .ring, .ingest, .mst, .bist] s (outcomeState (execTxbegin ctx entry s) s) := by
  unfold execTxbegin
  dsimp -zeta only [outcomeState]
  exact (State.command_within ..).mono (by decide)

theorem execTxend_within (ctx : Fin 8) (entry : Bytes) (s : State) :
    Within [.regs, .fresh, .out, .host, .ring, .ingest, .mst, .bist] s (outcomeState (execTxend ctx entry s) s) := by
  unfold execTxend
  dsimp -zeta only [outcomeState]
  exact (State.command_within ..).mono (by decide)

theorem execTxabort_within (ctx : Fin 8) (entry : Bytes) (s : State) :
    Within [.regs, .fresh, .out, .host, .ring, .ingest, .mst, .bist] s (outcomeState (execTxabort ctx entry s) s) := by
  unfold execTxabort
  dsimp -zeta only [outcomeState]
  exact (State.command_within ..).mono (by decide)

theorem execTunnel_within (ctx : Fin 8) (entry : Bytes) (payload : Bytes) (readOk : Bool) (s : State) :
    Within [.regs, .fresh, .out, .host, .ring, .ingest, .mst, .bist] s (outcomeState (execTunnel ctx entry payload readOk s) s) := by
  unfold execTunnel
  dsimp -zeta only [outcomeState]
  exact (State.command_within ..).mono (by decide)

theorem execRegRead_within (ctx : Fin 8) (entry : Bytes) (pads : ℕ) (s : State) :
    Within [.regs, .fresh, .out, .host, .ring, .ingest, .mst, .bist] s (outcomeState (execRegRead ctx entry pads s) s) := by
  unfold execRegRead
  dsimp -zeta only [outcomeState]
  exact (State.command_within ..).mono (by decide)

theorem execMemRead_within (ctx : Fin 8) (entry : Bytes) (s : State) :
    Within [.regs, .fresh, .out, .host, .ring, .ingest, .mst, .bist] s (outcomeState (execMemRead ctx entry s) s) := by
  unfold execMemRead
  dsimp -zeta only [outcomeState]
  exact (State.command_within ..).mono (by decide)

theorem execTicketQuery_within (ctx : Fin 8) (entry : Bytes) (s : State) :
    Within [.regs, .fresh, .out, .host, .ring, .ingest, .mst, .bist] s (outcomeState (execTicketQuery ctx entry s) s) := by
  unfold execTicketQuery
  dsimp -zeta only [outcomeState]
  exact (State.command_within ..).mono (by decide)

theorem execFlockQuery_within (ctx : Fin 8) (entry : Bytes) (s : State) :
    Within [.regs, .fresh, .out, .host, .ring, .ingest, .mst, .bist] s (outcomeState (execFlockQuery ctx entry s) s) := by
  unfold execFlockQuery
  dsimp -zeta only [outcomeState]
  exact (State.command_within ..).mono (by decide)

theorem State.accept_within (s : State) (c : ℕ) (k : Checked) :
    Within [.regs, .out, .host, .ring] s (State.accept s c k) := by
  unfold State.accept
  extract_lets y1 y2 y3 y4 y5
  refine Within.via y2 ?_ fun _ => ?_
  · exact (State.onHost_within ..).mono (by decide)
  clear_value y1 y2
  refine Within.via y3 ?_ fun _ => ?_
  · refine Within.trans ?_ ((State.setNext_within ..).mono (by decide))
    assumption
  clear_value y3
  refine Within.via y4 ?_ fun _ => ?_
  · refine Within.trans ?_ ((State.journalRegs_within ..).mono (by decide))
    refine Within.trans ?_ ((State.inc_within ..).mono (by decide))
    refine Within.trans ?_ ((State.put_within ..).mono (by decide))
    assumption
  clear_value y4
  refine Within.via y5 ?_ fun _ => ?_
  · refine Within.trans ?_ ((State.onCtx_within ..).mono (by decide))
    refine Within.trans ?_ ((State.answered_within ..).mono (by decide))
    refine Within.trans ?_ ((State.takeSq_within ..).mono (by decide))
    assumption
  clear_value y5
  refine Within.trans ?_ ((State.complete_within ..).mono (by decide))
  assumption

theorem execTicketAccept_within (ctx : Fin 8) (s : State) :
    Within [.regs, .out, .host, .ring] s (outcomeState (execTicketAccept ctx s) s) := by
  unfold execTicketAccept
  dsimp -zeta only [outcomeState]
  split
  · refine Within.ite ?_ ?_
    · exact (State.accept_within ..).mono (by decide)
    · exact Within.refl _ _
  · exact Within.refl _ _

theorem execTicketExecute_within (ctx : Fin 8) (s : State) :
    Within [.regs, .mem, .fresh, .out, .pwr, .xing, .time, .host, .ring, .link, .ingest, .mst, .comp, .folds, .lamp, .therm, .boot, .bist, .flocks, .txs, .latch] s (outcomeState (execTicketExecute ctx s) s) := by
  unfold execTicketExecute
  dsimp -zeta only [outcomeState]
  refine Within.ite ?_ ?_
  · exact Within.refl _ _
  · extract_lets y1
    refine Within.via y1 ?_ fun _ => ?_
    · dsimp -zeta only [y1]
      split
      · exact (State.usePeerRec_within ..).mono (by decide)
      · split
        · exact (State.useRec_within ..).mono (by decide)
        · exact Within.refl _ _
    clear_value y1
    split
    · refine Within.trans ?_ ((State.runTicket_within ..).mono (by decide))
      refine Within.trans ?_ ((State.onRec_within ..).mono (by decide))
      assumption
    · split
      · refine Within.trans ?_ ((State.runTicket_within ..).mono (by decide))
        refine Within.trans ?_ ((State.onRec_within ..).mono (by decide))
        assumption
      · assumption

end Sys2Proof.Machine
end

