-- ==== Sys2Proof/Laws/WithinPeer.lean ====
section
/-! SUPPORT. What each operation and each meaning of Machine/Peer.lean can do to the state: the parts it may change, and that it
keeps the canonical form and the shape. -/
set_option Elab.async false
namespace Sys2Proof.Machine

theorem State.placeEntry_within (s : State) (c : Nat) (k : Checked) :
    Within [.regs, .out, .host, .ring] s (State.placeEntry s c k) := by
  unfold State.placeEntry
  extract_lets y1
  clear_value y1
  refine Within.trans ?_ ((State.sqTail_within ..).mono (by decide))
  exact (State.onCtx_within ..).mono (by decide)

theorem execMgmtEntryRx_within (ctx : Fin 8) (src : Peer) (index : Nat) (entry : Bytes) (payload : Bytes) (s : State) :
    Within [.regs, .out, .host, .ring] s (outcomeState (execMgmtEntryRx ctx src index entry payload s) s) := by
  unfold execMgmtEntryRx
  extract_lets y1 y2 y3 y4
  clear_value y1 y2 y3 y4
  dsimp -zeta only [outcomeState]
  refine Within.ite ?_ ?_
  · exact Within.refl _ _
  · refine Within.ite ?_ ?_
    · exact (State.wrongTransport_within ..).mono (by decide)
    · refine Within.ite ?_ ?_
      · exact (State.inc_within ..).mono (by decide)
      · refine Within.ite ?_ ?_
        · refine Within.trans ?_ ((State.onCtx_within ..).mono (by decide))
          exact (State.placeEntry_within ..).mono (by decide)
        · refine Within.ite ?_ ?_
          · exact Within.refl _ _
          · exact (State.inc_within ..).mono (by decide)

theorem State.sendCq_within (s : State) (c fuel i n : Nat) : Within [.out] s (s.sendCq c fuel i n) := by
  induction fuel generalizing s i n with
  | zero => exact Within.refl _ _
  | succ fuel ih =>
    unfold State.sendCq
    refine Within.ite (Within.refl _ _) ?_
    exact Within.trans ((State.emit_within ..).mono (by decide)) (ih _ _ _)

theorem execMgmtCqReadRx_within (ctx : Fin 8) (src : Peer) (index : ℕ) (s : State) :
    Within [.regs, .fresh, .out, .host, .ring, .mst, .bist] s (outcomeState (execMgmtCqReadRx ctx src index s) s) := by
  unfold execMgmtCqReadRx
  dsimp -zeta only [outcomeState]
  extract_lets y1 y2 y3 y4
  refine Within.via y2 ?_ fun _ => ?_
  · refine Within.ite ?_ ?_
    · exact (State.onCtx_within ..).mono (by decide)
    · exact Within.refl _ _
  clear_value y1 y2
  refine Within.via y3 ?_ fun _ => ?_
  · refine Within.trans ?_ ((State.cqHead_within ..).mono (by decide))
    assumption
  clear_value y3
  refine Within.via y4 ?_ fun _ => ?_
  · refine Within.trans ?_ ((State.memHeal_within ..).mono (by decide))
    refine Within.trans ?_ ((State.memTouch_within ..).mono (by decide))
    assumption
  clear_value y4
  refine Within.ite ?_ ?_
  · exact Within.refl _ _
  · refine Within.ite ?_ ?_
    · exact (State.wrongTransport_within ..).mono (by decide)
    · refine Within.ite ?_ ?_
      · assumption
      · refine Within.trans ?_ ((State.sendCq_within ..).mono (by decide))
        assumption

theorem execMgmtArpRx_within (target : Nat) (asker : Nat) (s : State) :
    Within [.out] s (outcomeState (execMgmtArpRx target asker s) s) := by
  unfold execMgmtArpRx
  dsimp -zeta only [outcomeState]
  refine Within.ite ?_ ?_
  · exact (State.emit_within ..).mono (by decide)
  · exact Within.refl _ _

theorem State.answerAgain_within (s : State) (c : ℕ) (serial : ℕ) (ticket : ℕ) (oc : ℕ) (e : Bytes) :
    Within [.regs, .fresh, .out, .host, .ring, .mst, .bist] s (State.answerAgain s c serial ticket oc e) := by
  unfold State.answerAgain
  extract_lets y1 y2 y3
  refine Within.via y2 ?_ fun _ => ?_
  · dsimp -zeta only [y2]
    split
    · exact (State.useRec_within ..).mono (by decide)
    · exact Within.refl _ _
  clear_value y2
  clear_value y3
  refine Within.ite ?_ ?_
  · assumption
  · split
    · extract_lets y4
      clear_value y4
      refine Within.trans ?_ ((State.reply_within ..).mono (by decide))
      assumption
    · refine Within.trans ?_ ((State.reply_within ..).mono (by decide))
      assumption

theorem State.rxTunnelCmd_within (s : State) (p : Bytes) :
    Within [.regs, .fresh, .out, .host, .ring, .mst, .bist] s (State.rxTunnelCmd s p) := by
  unfold State.rxTunnelCmd
  extract_lets y1 y2 y3 y4 y5 y6 y7
  clear_value y1 y2 y3 y4 y5 y6 y7
  refine Within.ite ?_ ?_
  · exact Within.refl _ _
  · refine Within.ite ?_ ?_
    · exact (State.wrongTransport_within ..).mono (by decide)
    · refine Within.ite ?_ ?_
      · refine Within.trans ?_ ((State.complete_within ..).mono (by decide))
        exact (State.inc_within ..).mono (by decide)
      · refine Within.ite ?_ ?_
        · exact (State.answerAgain_within ..).mono (by decide)
        · refine Within.trans ?_ ((State.placeEntry_within ..).mono (by decide))
          exact (State.onHost_within ..).mono (by decide)

theorem execTunnelCmdRx_within (payload : Bytes) (s : State) :
    Within [.regs, .fresh, .out, .host, .ring, .mst, .bist] s (outcomeState (execTunnelCmdRx payload s) s) := by
  unfold execTunnelCmdRx
  dsimp -zeta only [outcomeState]
  refine Within.ite ?_ ?_
  · exact (State.rxTunnelCmd_within ..).mono (by decide)
  · exact Within.refl _ _

theorem State.rxReplyAck_within (s : State) (p : Bytes) :
    Within [.regs, .fresh, .out, .host, .ring, .mst, .bist] s (State.rxReplyAck s p) := by
  unfold State.rxReplyAck
  refine Within.ite ?_ ?_
  · exact Within.refl _ _
  · split
    · exact Within.refl _ _
    · extract_lets y1
      refine Within.via y1 ?_ fun _ => ?_
      · exact (State.onHost_within ..).mono (by decide)
      clear_value y1
      split
      · refine Within.ite ?_ ?_
        · refine Within.trans ?_ ((State.freeRec_within ..).mono (by decide))
          assumption
        · assumption
      · split
        · refine Within.trans ?_ ((State.cqHead_within ..).mono (by decide))
          assumption
        · refine Within.trans ?_ ((State.cqHead_within ..).mono (by decide))
          assumption

theorem execReplyAckRx_within (payload : Bytes) (s : State) :
    Within [.regs, .fresh, .out, .host, .ring, .mst, .bist] s (outcomeState (execReplyAckRx payload s) s) := by
  unfold execReplyAckRx
  dsimp -zeta only [outcomeState]
  refine Within.ite ?_ ?_
  · exact (State.rxReplyAck_within ..).mono (by decide)
  · exact Within.refl _ _

theorem execReplyRepeatTimer_within (seq : Nat) (s : State) :
    Within [.out, .ring] s (outcomeState (execReplyRepeatTimer seq s) s) := by
  unfold execReplyRepeatTimer
  dsimp -zeta only [outcomeState]
  split
  · refine Within.ite ?_ ?_
    · exact (State.tileSend_within ..).mono (by decide)
    · exact Within.refl _ _
  · exact Within.refl _ _

theorem State.relay_within (s : State) (p : Bytes) (addr : ℕ) :
    Within [.regs, .fresh, .out, .host, .ring, .mst, .bist] s (State.relay s p addr) := by
  unfold State.relay
  extract_lets y1 y2 y3 y4 y5 y6 y7 y8 y9 y10 y11 y12
  refine Within.via y6 ?_ fun _ => ?_
  · exact (State.useJrec_within ..).mono (by decide)
  clear_value y1 y2 y3 y4 y5 y6
  refine Within.via y9 ?_ fun _ => ?_
  · dsimp -zeta only [y9]
    split
    · refine Within.ite ?_ ?_
      · refine Within.trans ?_ ((State.emit_within ..).mono (by decide))
        assumption
      · assumption
    · assumption
  clear_value y7 y8 y9
  refine Within.via y11 ?_ fun _ => ?_
  · refine Within.ite ?_ ?_
    · refine Within.trans ?_ ((State.inc_within ..).mono (by decide))
      assumption
    · assumption
  clear_value y10 y11
  refine Within.via y12 ?_ fun _ => ?_
  · refine Within.ite ?_ ?_
    · assumption
    · refine Within.trans ?_ ((State.complete_within ..).mono (by decide))
      assumption
  clear_value y12
  split
  · refine Within.ite ?_ ?_
    · assumption
    · refine Within.trans ?_ ((State.finish_within ..).mono (by decide))
      assumption
  · assumption

theorem State.rxReply_within (s : State) (p : Bytes) :
    Within [.regs, .fresh, .out, .host, .ring, .mst, .bist] s (State.rxReply s p) := by
  unfold State.rxReply
  extract_lets y1 y2
  clear_value y1 y2
  split
  · exact Within.refl _ _
  · extract_lets y3 y4
    refine Within.via y4 ?_ fun _ => ?_
    · refine Within.ite ?_ ?_
      · exact Within.refl _ _
      · refine Within.trans ?_ ((State.relay_within ..).mono (by decide))
        exact (State.onHost_within ..).mono (by decide)
    clear_value y3 y4
    refine Within.ite ?_ ?_
    · exact Within.refl _ _
    · refine Within.trans ?_ ((State.bwSend_within ..).mono (by decide))
      assumption

theorem execTunnelReplyRx_within (payload : Bytes) (s : State) :
    Within [.regs, .fresh, .out, .host, .ring, .mst, .bist] s (outcomeState (execTunnelReplyRx payload s) s) := by
  unfold execTunnelReplyRx
  dsimp -zeta only [outcomeState]
  refine Within.ite ?_ ?_
  · exact (State.rxReply_within ..).mono (by decide)
  · exact Within.refl _ _

theorem State.postForPeer_within (s : State) (r : JRec) :
    Within [.regs, .fresh, .out, .host, .ring, .mst, .comp, .bist] s (State.postForPeer s r) := by
  unfold State.postForPeer
  extract_lets y1 y2 y3 y4 y5
  refine Within.via y4.1 ?_ fun _ => ?_
  · exact (State.postPose_within ..).mono (by decide)
  clear_value y1 y2 y3 y4
  refine Within.via y5.1 ?_ fun _ => ?_
  · refine Within.ite_fst ?_ ?_
    · exact (State.postHurdle_within ..).mono (by decide)
    · dsimp -zeta only
      assumption
  clear_value y5
  refine Within.trans ?_ ((State.headSend_within ..).mono (by decide))
  refine Within.trans ?_ ((State.finish_within ..).mono (by decide))
  assumption

theorem State.rxRecord_within (s : State) (record : Bytes) (payload : Bytes) :
    Within [.regs, .mem, .fresh, .out, .host, .ring, .mst, .comp, .bist, .flocks] s (State.rxRecord s record payload) := by
  unfold State.rxRecord
  extract_lets y1 y2 y3 y4 y5 y6
  refine Within.via y5 ?_ fun _ => ?_
  · refine Within.trans ?_ ((State.journalRegs_within ..).mono (by decide))
    exact (State.onHost_within ..).mono (by decide)
  clear_value y1 y2 y3 y4 y5
  refine Within.via y6 ?_ fun _ => ?_
  · refine Within.ite ?_ ?_
    · refine Within.trans ?_ ((State.memMerge_within ..).mono (by decide))
      assumption
    · assumption
  clear_value y6
  split
  · refine Within.ite ?_ ?_
    · exact Within.refl _ _
    · refine Within.trans ?_ ((State.headSend_within ..).mono (by decide))
      assumption
  · refine Within.ite ?_ ?_
    · refine Within.trans ?_ ((State.journalRegs_within ..).mono (by decide))
      exact (State.onHost_within ..).mono (by decide)
    · extract_lets y7 y8 y9 y10 y11
      refine Within.via y9 ?_ fun _ => ?_
      · exact (State.onHost_within ..).mono (by decide)
      clear_value y7 y8 y9
      refine Within.via y10 ?_ fun _ => ?_
      · refine Within.ite ?_ ?_
        · refine Within.trans ?_ ((State.tileService_within ..).mono (by decide))
          assumption
        · assumption
      clear_value y10
      refine Within.via y11 ?_ fun _ => ?_
      · refine Within.when _ _ (fun x => ?_) ?_
        · exact (State.onFlocks_within ..).mono (by decide)
        · assumption
      clear_value y11
      refine Within.ite ?_ ?_
      · refine Within.trans ?_ ((State.postForPeer_within ..).mono (by decide))
        assumption
      · assumption

theorem execMirrorRecordRx_within (record : Bytes) (payload : Bytes) (s : State) :
    Within [.regs, .mem, .fresh, .out, .host, .ring, .mst, .comp, .bist, .flocks] s (outcomeState (execMirrorRecordRx record payload s) s) := by
  unfold execMirrorRecordRx
  dsimp -zeta only [outcomeState]
  refine Within.ite ?_ ?_
  · exact (State.rxRecord_within ..).mono (by decide)
  · exact Within.refl _ _

theorem State.rxMirrorAck_within (s : State) (c : Nat) (ticket : Nat) :
    Within [.ring] s (State.rxMirrorAck s c ticket) := by
  unfold State.rxMirrorAck
  refine Within.ite ?_ ?_
  · exact (State.onRing_within ..).mono (by decide)
  · exact Within.refl _ _

theorem execMirrorAckRx_within (ctx : Fin 8) (ticket : Nat) (s : State) :
    Within [.ring] s (outcomeState (execMirrorAckRx ctx ticket s) s) := by
  unfold execMirrorAckRx
  dsimp -zeta only [outcomeState]
  refine Within.ite ?_ ?_
  · exact (State.rxMirrorAck_within ..).mono (by decide)
  · exact Within.refl _ _

theorem State.mirrorEnd_within (s : State) :
    Within [.regs, .fresh, .out, .host, .ring, .mst, .comp, .bist] s (State.mirrorEnd s) := by
  unfold State.mirrorEnd
  refine Within.ite ?_ ?_
  · extract_lets y1
    refine Within.via y1 ?_ fun _ => ?_
    · refine Within.trans ?_ ((State.lapse_within ..).mono (by decide))
      refine Within.trans ?_ ((State.flag_within ..).mono (by decide))
      exact (State.onRing_within ..).mono (by decide)
    clear_value y1
    refine Within.when _ _ (fun x => ?_) ?_
    · refine Within.each _ _ (fun x a => ?_) ?_
      · exact (State.postForPeer_within ..).mono (by decide)
      · exact Within.refl _ _
    · assumption
  · exact Within.refl _ _

theorem execMirrorAckTimeout_within (s : State) :
    Within [.regs, .fresh, .out, .host, .ring, .mst, .comp, .bist] s (outcomeState (execMirrorAckTimeout s) s) := by
  unfold execMirrorAckTimeout
  dsimp -zeta only [outcomeState]
  refine Within.ite ?_ ?_
  · refine Within.trans ?_ ((State.inc_within ..).mono (by decide))
    exact (State.mirrorEnd_within ..).mono (by decide)
  · exact Within.refl _ _

theorem State.rxMirror_within (s : State) (p : Bytes) :
    Within [.regs, .mem, .fresh, .out, .host, .ring, .mst, .comp, .bist, .flocks] s (State.rxMirror s p) := by
  unfold State.rxMirror
  split
  · exact (State.rxRecord_within ..).mono (by decide)
  · exact (State.rxMirrorAck_within ..).mono (by decide)
  · exact (State.finish_within ..).mono (by decide)
  · split
    · exact (State.headSend_within ..).mono (by decide)
    · exact Within.refl _ _
  · exact (State.onHost_within ..).mono (by decide)
  · exact Within.refl _ _

theorem State.resyncCopies_within (s : State) :
    Within [.regs, .fresh, .out, .host, .ring, .mst, .bist] s (State.resyncCopies s) := by
  unfold State.resyncCopies
  extract_lets y1 y2 y3 y4 y5 y6 y7 y8 y9 y10 y11 y12
  refine Within.via y1 ?_ fun _ => ?_
  · exact (State.headSend_within ..).mono (by decide)
  clear_value y1
  refine Within.via y2 ?_ fun _ => ?_
  · refine Within.trans ?_ ((State.headSend_within ..).mono (by decide))
    assumption
  clear_value y2
  refine Within.via y4 ?_ fun _ => ?_
  · refine Within.trans ?_ ((State.headSend_within ..).mono (by decide))
    assumption
  clear_value y3 y4
  refine Within.via y5 ?_ fun _ => ?_
  · refine Within.each _ _ (fun x a => ?_) ?_
    · exact (State.usePeerRec_within ..).mono (by decide)
    · refine Within.each _ _ (fun x a => ?_) ?_
      · exact (State.useRec_within ..).mono (by decide)
      · assumption
  clear_value y5
  refine Within.via y6 ?_ fun _ => ?_
  · refine Within.trans ?_ ((State.headSend_within ..).mono (by decide))
    assumption
  clear_value y6
  refine Within.via y7 ?_ fun _ => ?_
  · refine Within.each _ _ (fun x a => ?_) ?_
    · exact (State.headSend_within ..).mono (by decide)
    · assumption
  clear_value y7
  refine Within.via y8 ?_ fun _ => ?_
  · refine Within.trans ?_ ((State.onRing_within ..).mono (by decide))
    refine Within.trans ?_ ((State.mirrorStart_within ..).mono (by decide))
    refine Within.trans ?_ ((State.headSend_within ..).mono (by decide))
    assumption
  clear_value y8
  refine Within.via y12 ?_ fun _ => ?_
  · refine Within.trans ?_ ((State.headSend_within ..).mono (by decide))
    refine Within.trans ?_ ((State.headSend_within ..).mono (by decide))
    refine Within.trans ?_ ((State.headSend_within ..).mono (by decide))
    assumption
  clear_value y9 y10 y11 y12
  refine Within.trans ?_ ((State.headSend_within ..).mono (by decide))
  assumption

theorem State.loseTunnels_within (s : State) (addr : ℕ) :
    Within [.regs, .fresh, .out, .host, .ring, .mst, .bist] s (State.loseTunnels s addr) := by
  unfold State.loseTunnels
  extract_lets y1 y2
  refine Within.via y2 ?_ fun _ => ?_
  · exact (State.finishAll_within ..).mono (by decide)
  clear_value y1 y2
  refine Within.trans ?_ ((State.finishAll_within ..).mono (by decide))
  assumption

theorem execTileHealthTimeout_within (serial : ℕ) (s : State) :
    Within [.regs, .fresh, .out, .host, .ring, .mst, .bist, .flocks] s (outcomeState (execTileHealthTimeout serial s) s) := by
  unfold execTileHealthTimeout
  dsimp -zeta only [outcomeState]
  split
  · refine Within.ite ?_ ?_
    · extract_lets y1 y2
      refine Within.via y2 ?_ fun _ => ?_
      · refine Within.trans ?_ ((State.judgeRings_within ..).mono (by decide))
        refine Within.trans ?_ ((State.reclassify_within ..).mono (by decide))
        exact (State.onRing_within ..).mono (by decide)
      clear_value y1 y2
      refine Within.ite ?_ ?_
      · refine Within.trans ?_ ((State.loseTunnels_within ..).mono (by decide))
        refine Within.trans ?_ ((State.sendWall_within ..).mono (by decide))
        refine Within.trans ?_ ((State.retireAll_within ..).mono (by decide))
        assumption
      · assumption
    · exact Within.refl _ _
  · exact Within.refl _ _

theorem State.heard_within (s : State) (p : ℕ) :
    Within [.regs, .ring] s (State.heard s p) := by
  unfold State.heard
  extract_lets y1 y2 y3
  refine Within.via y2 ?_ fun _ => ?_
  · exact (State.onRing_within ..).mono (by decide)
  clear_value y1 y2
  refine Within.via y3 ?_ fun _ => ?_
  · refine Within.trans ?_ ((State.flag_within ..).mono (by decide))
    assumption
  clear_value y3
  refine Within.ite ?_ ?_
  · refine Within.trans ?_ ((State.flag_within ..).mono (by decide))
    assumption
  · assumption

theorem State.helloState_within (s : State) (h : Hello) :
    Within [.regs, .out, .xing, .time, .host, .ring, .ingest, .folds, .lamp, .therm, .bist, .flocks, .latch] s (State.helloState s h) := by
  unfold State.helloState
  extract_lets y1 y2
  clear_value y1 y2
  refine Within.ite ?_ ?_
  · refine Within.ite ?_ ?_
    · exact (State.setHead_within ..).mono (by decide)
    · exact (State.elected_within ..).mono (by decide)
  · refine Within.ite ?_ ?_
    · refine Within.ite ?_ ?_
      · refine Within.trans ?_ ((State.enumerate_within ..).mono (by decide))
        exact (State.bwSend_within ..).mono (by decide)
      · exact (State.setHead_within ..).mono (by decide)
    · refine Within.ite ?_ ?_
      · exact (State.takeover_within ..).mono (by decide)
      · refine Within.ite ?_ ?_
        · refine Within.trans ?_ ((State.becomeBw_within ..).mono (by decide))
          exact (State.onRing_within ..).mono (by decide)
        · exact Within.refl _ _

theorem State.helloLearn_within (s : State) (h : Hello) :
    Within [.regs, .out, .ring] s (State.helloLearn s h) := by
  unfold State.helloLearn
  refine Within.ite ?_ ?_
  · exact Within.refl _ _
  · extract_lets y1
    refine Within.via y1 ?_ fun _ => ?_
    · refine Within.trans ?_ ((State.flag_within ..).mono (by decide))
      exact (State.setBwSide_within ..).mono (by decide)
    clear_value y1
    split
    · assumption
    · refine Within.ite ?_ ?_
      · assumption
      · extract_lets y2
        refine Within.via y2 ?_ fun _ => ?_
        · refine Within.ite ?_ ?_
          · assumption
          · refine Within.trans ?_ ((State.headGen_within ..).mono (by decide))
            assumption
        clear_value y2
        split
        · refine Within.trans ?_ ((State.sendEnum_within ..).mono (by decide))
          refine Within.trans ?_ ((State.onRing_within ..).mono (by decide))
          assumption
        · assumption

theorem State.takeHello_within (s : State) (h : Hello) :
    Within [.regs, .fresh, .out, .xing, .time, .host, .ring, .ingest, .mst, .comp, .folds, .lamp, .therm, .bist, .flocks, .latch] s (State.takeHello s h) := by
  unfold State.takeHello
  extract_lets y1 y2 y3 y4 y5 y6 y7 y8 y9 y10
  refine Within.via y2 ?_ fun _ => ?_
  · exact (State.onRing_within ..).mono (by decide)
  clear_value y1 y2
  refine Within.via y3 ?_ fun _ => ?_
  · refine Within.trans ?_ ((State.flag_within ..).mono (by decide))
    assumption
  clear_value y3
  refine Within.via y4 ?_ fun _ => ?_
  · refine Within.ite ?_ ?_
    · refine Within.trans ?_ ((State.mirrorEnd_within ..).mono (by decide))
      assumption
    · assumption
  clear_value y4
  refine Within.via y6 ?_ fun _ => ?_
  · refine Within.when _ _ (fun x => ?_) ?_
    · exact (State.onRing_within ..).mono (by decide)
    · assumption
  clear_value y5 y6
  refine Within.via y7 ?_ fun _ => ?_
  · refine Within.ite ?_ ?_
    · refine Within.trans ?_ ((State.onRing_within ..).mono (by decide))
      refine Within.trans ?_ ((State.flag_within ..).mono (by decide))
      assumption
    · assumption
  clear_value y7
  refine Within.via y8 ?_ fun _ => ?_
  · refine Within.trans ?_ ((State.helloLearn_within ..).mono (by decide))
    refine Within.trans ?_ ((State.helloState_within ..).mono (by decide))
    assumption
  clear_value y8
  refine Within.via y9 ?_ fun _ => ?_
  · refine Within.ite ?_ ?_
    · refine Within.trans ?_ ((State.resyncCopies_within ..).mono (by decide))
      assumption
    · assumption
  clear_value y9
  refine Within.via y10 ?_ fun _ => ?_
  · refine Within.when _ _ (fun x => ?_) ?_
    · refine Within.each _ _ (fun x a => ?_) ?_
      · exact (State.peerRequest_within ..).mono (by decide)
      · exact Within.refl _ _
    · assumption
  clear_value y10
  split
  · refine Within.ite ?_ ?_
    · assumption
    · refine Within.trans ?_ ((State.divergeOutcome_within ..).mono (by decide))
      assumption
  · assumption

theorem execHello_within (port : Fin 7) (h : Hello) (s : State) :
    Within [.regs, .fresh, .out, .xing, .time, .host, .ring, .link, .ingest, .mst, .comp, .folds, .lamp, .therm, .bist, .flocks, .latch] s (outcomeState (execHello port h s) s) := by
  unfold execHello
  dsimp -zeta only [outcomeState]
  refine Within.ite ?_ ?_
  · exact Within.refl _ _
  · extract_lets y1 y2 y3 y4
    refine Within.via y1.1 ?_ fun _ => ?_
    · exact (State.takeBlocks_within ..).mono (by decide)
    clear_value y1
    refine Within.via y2 ?_ fun _ => ?_
    · refine Within.trans ?_ ((State.countCheck_within ..).mono (by decide))
      assumption
    clear_value y2
    refine Within.via y3 ?_ fun _ => ?_
    · refine Within.ite ?_ ?_
      · assumption
      · refine Within.trans ?_ ((State.onRing_within ..).mono (by decide))
        refine Within.trans ?_ ((State.unsync_within ..).mono (by decide))
        assumption
    clear_value y3
    refine Within.via y4.1 ?_ fun _ => ?_
    · refine Within.trans ?_ ((State.passTally_within ..).mono (by decide))
      refine Within.trans ?_ ((State.heard_within ..).mono (by decide))
      assumption
    clear_value y4
    refine Within.ite ?_ ?_
    · refine Within.trans ?_ ((State.inc_within ..).mono (by decide))
      refine Within.trans ?_ ((State.countOpened_within ..).mono (by decide))
      assumption
    · split
      · refine Within.trans ?_ ((State.takeHello_within ..).mono (by decide))
        assumption
      · assumption

theorem execHeadLossTimeout_within (s : State) :
    Within [.regs, .fresh, .out, .xing, .time, .host, .ring, .ingest, .mst, .comp, .folds, .lamp, .therm, .bist, .flocks, .latch] s (outcomeState (execHeadLossTimeout s) s) := by
  unfold execHeadLossTimeout
  extract_lets y1 y2 y3
  refine Within.via y2 ?_ fun _ => ?_
  · refine Within.ite ?_ ?_
    · exact (State.flag_within ..).mono (by decide)
    · exact Within.refl _ _
  clear_value y1 y2
  refine Within.via y3 ?_ fun _ => ?_
  · refine Within.trans ?_ ((State.onRing_within ..).mono (by decide))
    refine Within.trans ?_ ((State.mirrorEnd_within ..).mono (by decide))
    refine Within.trans ?_ ((State.flag_within ..).mono (by decide))
    refine Within.trans ?_ ((State.flag_within ..).mono (by decide))
    assumption
  clear_value y3
  dsimp -zeta only [outcomeState]
  refine Within.ite ?_ ?_
  · exact Within.refl _ _
  · refine Within.ite ?_ ?_
    · assumption
    · refine Within.ite ?_ ?_
      · refine Within.trans ?_ ((State.takeover_within ..).mono (by decide))
        assumption
      · assumption

end Sys2Proof.Machine
end

