-- ==== Sys2Proof/Laws/WithinCellRx.lean ====
section
/-! SUPPORT. What each operation and each meaning of Machine/CellRx.lean can do to the state: the parts it may change, and that it
keeps the canonical form and the shape. -/
set_option Elab.async false
namespace Sys2Proof.Machine

theorem State.tileMessage_within (s : State) (stream : ℕ) (addr : ℕ) (tally : ℕ) (m : Bytes) :
    Within [.regs, .fresh, .out, .time, .host, .ring, .link, .ingest, .mst, .comp, .boot, .bist, .flocks] s (State.tileMessage s stream addr tally m) := by
  unfold State.tileMessage
  extract_lets y1
  clear_value y1
  split
  · exact (State.rxControl_within ..).mono (by decide)
  · exact (State.rxStaged_within ..).mono (by decide)
  · refine Within.ite ?_ ?_
    · exact Within.refl _ _
    · refine Within.ite ?_ ?_
      · exact (State.rxReplyAck_within ..).mono (by decide)
      · exact (State.rxTunnelCmd_within ..).mono (by decide)
  · split
    · exact (State.rxWall_within ..).mono (by decide)
    · exact (State.rxAuthority_within ..).mono (by decide)
    · exact (State.rxAssign_within ..).mono (by decide)
    · exact Within.refl _ _
  · exact Within.refl _ _

theorem State.copyMessage_within (s : State) (stream : ℕ) (addr : ℕ) (tally : ℕ) (m : Bytes) :
    Within [.regs, .fresh, .out, .time, .host, .ring, .link, .ingest, .mst, .comp, .boot, .bist, .flocks] s (State.copyMessage s stream addr tally m) := by
  unfold State.copyMessage
  split
  · exact (State.rxControl_within ..).mono (by decide)
  · exact (State.rxStaged_within ..).mono (by decide)
  · split
    · exact (State.rxWall_within ..).mono (by decide)
    · exact (State.rxAuthority_within ..).mono (by decide)
    · exact (State.rxAssign_within ..).mono (by decide)
    · exact Within.refl _ _
  · exact Within.refl _ _

theorem State.headMessage_within (s : State) (port : ℕ) (stream : ℕ) (addr : ℕ) (m : Bytes) :
    Within [.regs, .mem, .fresh, .out, .time, .host, .ring, .link, .ingest, .mst, .comp, .boot, .bist, .flocks] s (State.headMessage s port stream addr m) := by
  unfold State.headMessage
  split
  · refine Within.ite ?_ ?_
    · exact (State.rxVote_within ..).mono (by decide)
    · exact (State.rxAck_within ..).mono (by decide)
  · exact (State.rxHealth_within ..).mono (by decide)
  · exact (State.rxReply_within ..).mono (by decide)
  · refine Within.ite ?_ ?_
    · exact (State.rxReport_within ..).mono (by decide)
    · exact (State.joinRequest_within ..).mono (by decide)
  · refine Within.each _ _ (fun x a => ?_) ?_
    · exact (State.rxFaRecord_within ..).mono (by decide)
    · exact Within.refl _ _
  · exact (State.rxMirror_within ..).mono (by decide)
  · refine Within.each _ _ (fun x a => ?_) ?_
    · exact (State.rxDigest_within ..).mono (by decide)
    · exact Within.refl _ _
  · exact (State.rxResync_within ..).mono (by decide)
  · exact Within.refl _ _

theorem State.deliverCell_within (s : State) (stream : ℕ) (c : Bytes) :
    Within [.regs, .fresh, .out, .time, .host, .ring, .link, .ingest, .mst, .comp, .boot, .bist, .flocks] s (State.deliverCell s stream c) := by
  unfold State.deliverCell
  extract_lets y1 y2 y3 y4
  refine Within.via y4 ?_ fun _ => ?_
  · exact (State.setWin_within ..).mono (by decide)
  clear_value y1 y2 y3 y4
  refine Within.ite ?_ ?_
  · refine Within.trans ?_ ((State.tileMessage_within ..).mono (by decide))
    assumption
  · assumption

theorem State.drain_within (n : Nat) (s : State) (stream : Nat) :
    Within [.regs, .mem, .fresh, .out, .time, .host, .ring, .link, .ingest, .mst, .comp, .folds, .boot, .bist, .flocks] s
      (State.drain n s stream) := by
  induction n generalizing s with
  | zero => exact Within.refl _ _
  | succ n ih =>
    unfold State.drain
    extract_lets w
    split
    · extract_lets _
      exact Within.trans ((State.setWin_within ..).mono (by decide))
        (Within.trans ((State.deliverCell_within ..).mono (by decide)) (ih _))
    · exact (State.setWin_within ..).mono (by decide)

theorem State.orderCell_within (s : State) (stream : Nat) (c : Bytes) :
    Within [.regs, .mem, .fresh, .out, .time, .host, .ring, .link, .ingest, .mst, .comp, .folds, .boot, .bist, .flocks] s (State.orderCell s stream c) := by
  unfold State.orderCell
  extract_lets y1 y2
  clear_value y1 y2
  refine Within.ite ?_ ?_
  · exact Within.refl _ _
  · refine Within.trans ?_ ((State.drain_within ..).mono (by decide))
    exact (State.setWin_within ..).mono (by decide)

theorem State.gapExpire_within (s : State) (stream : Nat) :
    Within [.regs, .mem, .fresh, .out, .time, .host, .ring, .link, .ingest, .mst, .comp, .folds, .boot, .bist, .flocks] s (State.gapExpire s stream) := by
  unfold State.gapExpire
  extract_lets y1
  clear_value y1
  split
  · extract_lets y2
    refine Within.via y2 ?_ fun _ => ?_
    · refine Within.trans ?_ ((State.add_within ..).mono (by decide))
      exact (State.setWin_within ..).mono (by decide)
    clear_value y2
    refine Within.ite ?_ ?_
    · refine Within.trans ?_ ((State.drain_within ..).mono (by decide))
      refine Within.ite ?_ ?_
      · refine Within.trans ?_ ((State.noteLost_within ..).mono (by decide))
        assumption
      · assumption
    · exact Within.refl _ _
  · exact Within.refl _ _

theorem execGapWaitExpire_within (stream : Nat) (src : Nat) (s : State) :
    Within [.regs, .mem, .fresh, .out, .time, .host, .ring, .link, .ingest, .mst, .comp, .folds, .boot, .bist, .flocks] s (outcomeState (execGapWaitExpire stream src s) s) := by
  unfold execGapWaitExpire
  dsimp -zeta only [outcomeState]
  refine Within.ite ?_ ?_
  · exact (State.gapExpire_within ..).mono (by decide)
  · exact Within.refl _ _

theorem State.gather_within (s : State) (stream : Nat) (src : Nat) (c : Bytes) :
    Within [.regs, .ring] s (State.gather s stream src c).1 := by
  unfold State.gather
  extract_lets y1 y2
  clear_value y1 y2
  split
  · dsimp -zeta only
    exact (State.setWin_within ..).mono (by decide)
  · split
    · dsimp -zeta only
      exact (State.setWin_within ..).mono (by decide)
    · extract_lets _
      dsimp -zeta only
      exact (State.setWin_within ..).mono (by decide)

theorem State.passWindow_within (s : State) (stream : ℕ) (src : ℕ) (c : Bytes) (beforeLatch : Bool) :
    Within [.regs, .ring] s (State.passWindow s stream src c beforeLatch).1 := by
  unfold State.passWindow
  exact (State.passTally_within ..).mono (by decide)

theorem State.windowReset_within (s : State) (c : Bytes) :
    Within [.ring] s (State.windowReset s c) := by
  unfold State.windowReset
  extract_lets y1
  clear_value y1
  refine Within.ite ?_ ?_
  · exact (State.rxWindowReset_within ..).mono (by decide)
  · exact Within.refl _ _

theorem State.tileCell_within (s : State) (p : ℕ) (c : Bytes) :
    Within [.regs, .mem, .fresh, .out, .xing, .time, .host, .ring, .link, .ingest, .mst, .comp, .folds, .lamp, .therm, .boot, .bist, .flocks, .latch] s (State.tileCell s p c) := by
  unfold State.tileCell
  extract_lets y1 y2
  refine Within.via y2.1 ?_ fun _ => ?_
  · refine Within.trans ?_ ((State.passWindow_within ..).mono (by decide))
    exact (State.windowReset_within ..).mono (by decide)
  clear_value y1 y2
  refine Within.ite ?_ ?_
  · refine Within.ite ?_ ?_
    · exact (State.timeCell_within ..).mono (by decide)
    · exact Within.refl _ _
  · refine Within.ite ?_ ?_
    · exact Within.refl _ _
    · refine Within.ite ?_ ?_
      · exact Within.refl _ _
      · split
        · refine Within.ite ?_ ?_
          · refine Within.trans ?_ ((State.storeCell_within ..).mono (by decide))
            assumption
          · refine Within.trans ?_ ((State.orderCell_within ..).mono (by decide))
            assumption
        · refine Within.trans ?_ ((State.storeCell_within ..).mono (by decide))
          assumption
        · assumption

theorem State.copyCell_within (s : State) (c : Bytes) :
    Within [.regs, .fresh, .out, .time, .host, .ring, .link, .ingest, .mst, .comp, .boot, .bist, .flocks] s (State.copyCell s c) := by
  unfold State.copyCell
  extract_lets y1 y2 y3 y4 y5 y6 y7
  refine Within.via y3 ?_ fun _ => ?_
  · refine Within.ite ?_ ?_
    · exact (State.noteLost_within ..).mono (by decide)
    · exact Within.refl _ _
  clear_value y1 y2 y3
  refine Within.via y4 ?_ fun _ => ?_
  · refine Within.trans ?_ ((State.digestCell_within ..).mono (by decide))
    refine Within.trans ?_ ((State.sendRings_within ..).mono (by decide))
    assumption
  clear_value y4
  refine Within.via y5 ?_ fun _ => ?_
  · refine Within.ite ?_ ?_
    · refine Within.trans ?_ ((State.emit_within ..).mono (by decide))
      assumption
    · assumption
  clear_value y5
  refine Within.via y6 ?_ fun _ => ?_
  · refine Within.trans ?_ ((State.onRing_within ..).mono (by decide))
    assumption
  clear_value y6
  refine Within.via y7.1 ?_ fun _ => ?_
  · refine Within.trans ?_ ((State.gather_within ..).mono (by decide))
    assumption
  clear_value y7
  split
  · refine Within.trans ?_ ((State.copyMessage_within ..).mono (by decide))
    assumption
  · assumption

theorem State.headCell_within (s : State) (p : ℕ) (c : Bytes) :
    Within [.regs, .mem, .fresh, .out, .xing, .time, .host, .ring, .link, .ingest, .mst, .comp, .folds, .lamp, .therm, .boot, .bist, .flocks, .latch] s (State.headCell s p c) := by
  unfold State.headCell
  extract_lets y1 y2 y3 y4 y5 y6 y7 y8
  refine Within.via y7.1 ?_ fun _ => ?_
  · exact (State.passWindow_within ..).mono (by decide)
  clear_value y1 y2 y3 y4 y6 y7
  refine Within.via y8.1 ?_ fun _ => ?_
  · refine Within.trans ?_ ((State.gather_within ..).mono (by decide))
    dsimp -zeta only [y5]
    refine Within.ite ?_ ?_
    · refine Within.trans ?_ ((State.sendCell_within ..).mono (by decide))
      assumption
    · assumption
  clear_value y8
  refine Within.ite ?_ ?_
  · refine Within.ite ?_ ?_
    · exact (State.timeCell_within ..).mono (by decide)
    · exact Within.refl _ _
  · refine Within.ite ?_ ?_
    · refine Within.ite ?_ ?_
      · exact (State.copyCell_within ..).mono (by decide)
      · exact Within.refl _ _
    · refine Within.ite ?_ ?_
      · exact Within.refl _ _
      · refine Within.ite ?_ ?_
        · refine Within.trans ?_ ((State.headMessage_within ..).mono (by decide))
          dsimp -zeta only [y5]
          refine Within.ite ?_ ?_
          · exact (State.sendCell_within ..).mono (by decide)
          · exact Within.refl _ _
        · split
          · split
            · refine Within.trans ?_ ((State.headMessage_within ..).mono (by decide))
              assumption
            · assumption
          · assumption

theorem State.forward_within (s : State) (p : Nat) (c : Bytes) :
    Within [.out, .ring] s (State.forward s p c) := by
  unfold State.forward
  refine Within.ite ?_ ?_
  · exact (State.sendCell_within ..).mono (by decide)
  · exact Within.refl _ _

theorem State.spoiledCell_within (s : State) (p : ℕ) (o : CellCheck × Bytes) :
    Within [.regs, .out, .ring] s (State.spoiledCell s p o) := by
  unfold State.spoiledCell
  extract_lets y1 y2
  refine Within.via y1 ?_ fun _ => ?_
  · refine Within.ite ?_ ?_
    · exact (State.onEnc_within ..).mono (by decide)
    · exact Within.refl _ _
  clear_value y1
  clear_value y2
  refine Within.ite ?_ ?_
  · refine Within.trans ?_ ((State.forward_within ..).mono (by decide))
    assumption
  · refine Within.trans ?_ ((State.inc_within ..).mono (by decide))
    assumption

theorem State.judgeAuth_within (s : State) (p : ℕ) (v : CellCheck) :
    Within [.regs, .fresh, .out, .time, .host, .ring, .link] s (State.judgeAuth s p v) := by
  unfold State.judgeAuth
  refine Within.when _ _ (fun x => ?_) ?_
  · exact (State.retrain_within ..).mono (by decide)
  · exact Within.refl _ _

theorem State.rxCell_within (s : State) (p : ℕ) (cell : Bytes) :
    Within [.regs, .mem, .fresh, .out, .xing, .time, .host, .ring, .link, .ingest, .mst, .comp, .folds, .lamp, .therm, .boot, .bist, .flocks, .latch] s (State.rxCell s p cell) := by
  unfold State.rxCell
  extract_lets y1 y2 y3
  refine Within.via y1.1 ?_ fun _ => ?_
  · exact (State.takeBlocks_within ..).mono (by decide)
  clear_value y1
  refine Within.via y3 ?_ fun _ => ?_
  · refine Within.trans ?_ ((State.forward_within ..).mono (by decide))
    refine Within.trans ?_ ((State.countCheck_within ..).mono (by decide))
    assumption
  clear_value y2 y3
  refine Within.ite ?_ ?_
  · refine Within.trans ?_ ((State.spoiledCell_within ..).mono (by decide))
    assumption
  · refine Within.ite ?_ ?_
    · refine Within.trans ?_ ((State.judgeAuth_within ..).mono (by decide))
      assumption
    · refine Within.ite ?_ ?_
      · refine Within.trans ?_ ((State.inc_within ..).mono (by decide))
        assumption
      · refine Within.ite ?_ ?_
        · refine Within.trans ?_ ((State.tileCell_within ..).mono (by decide))
          assumption
        · refine Within.ite ?_ ?_
          · refine Within.trans ?_ ((State.headCell_within ..).mono (by decide))
            assumption
          · assumption

theorem execTimeCellRx_within (port : Fin 7) (cell : Bytes) (s : State) :
    Within [.regs, .fresh, .out, .xing, .time, .host, .ring, .link, .ingest, .folds, .lamp, .therm, .bist, .latch] s (outcomeState (execTimeCellRx port cell s) s) := by
  unfold execTimeCellRx
  dsimp -zeta only [outcomeState]
  refine Within.ite ?_ ?_
  · exact Within.refl _ _
  · extract_lets y1 y2 y3
    refine Within.via y1.1 ?_ fun _ => ?_
    · exact (State.takeBlocks_within ..).mono (by decide)
    clear_value y1
    refine Within.via y3 ?_ fun _ => ?_
    · refine Within.trans ?_ ((State.countCheck_within ..).mono (by decide))
      assumption
    clear_value y2 y3
    refine Within.ite ?_ ?_
    · refine Within.trans ?_ ((State.inc_within ..).mono (by decide))
      refine Within.trans ?_ ((State.countOpened_within ..).mono (by decide))
      assumption
    · refine Within.ite ?_ ?_
      · refine Within.trans ?_ ((State.judgeAuth_within ..).mono (by decide))
        assumption
      · refine Within.ite ?_ ?_
        · refine Within.trans ?_ ((State.inc_within ..).mono (by decide))
          assumption
        · refine Within.ite ?_ ?_
          · assumption
          · refine Within.trans ?_ ((State.timeCell_within ..).mono (by decide))
            assumption

theorem execCellRx_within (port : Fin 7) (cell : Bytes) (s : State) :
    Within [.regs, .mem, .fresh, .out, .xing, .time, .host, .ring, .link, .ingest, .mst, .comp, .folds, .lamp, .therm, .boot, .bist, .flocks, .latch] s (outcomeState (execCellRx port cell s) s) := by
  unfold execCellRx
  dsimp -zeta only [outcomeState]
  refine Within.ite ?_ ?_
  · exact Within.refl _ _
  · refine Within.ite ?_ ?_
    · exact (State.rxCell_within ..).mono (by decide)
    · refine Within.ite ?_ ?_
      · exact (State.takeBlocks_within ..).mono (by decide)
      · exact Within.refl _ _

end Sys2Proof.Machine
end

