-- ==== Sys2Proof/Laws/WithinLine.lean ====
section
/-! SUPPORT. What each operation of Machine/Line.lean can do to the state: the parts it may change, and that it keeps the
canonical form and the shape. -/
set_option Elab.async false
namespace Sys2Proof.Machine

theorem State.lineStep_within (s : State) (p : ℕ) :
    Within [.link] s (State.lineStep s p) := by
  unfold State.lineStep
  exact (State.onPort_within ..).mono (by decide)

theorem State.sendBits_within (s : State) (n : ℕ) (nrz : Bool) (l : List Bool) :
    Within [.out, .link] s (State.sendBits s n nrz l) := by
  unfold State.sendBits
  extract_lets y1 y2
  clear_value y1 y2
  refine Within.ite ?_ ?_
  · refine Within.trans ?_ ((State.sendSymbols_within ..).mono (by decide))
    exact (State.onLane_within ..).mono (by decide)
  · exact (State.sendSymbols_within ..).mono (by decide)

theorem State.newRequest_within (s : State) (p : ℕ) (n : ℕ) :
    Within [.fresh, .link] s (State.newRequest s p n) := by
  unfold State.newRequest
  refine Within.ite ?_ ?_
  · extract_lets y1
    clear_value y1
    refine Within.trans ?_ ((State.tickFresh_within ..).mono (by decide))
    exact (State.onLane_within ..).mono (by decide)
  · exact Within.refl _ _

theorem State.sendTraining_within (s : State) (p : ℕ) (rate : ℕ) :
    Within [.fresh, .out, .link] s (State.sendTraining s p rate) := by
  unfold State.sendTraining
  extract_lets y1 y2
  refine Within.via y2 ?_ fun _ => ?_
  · refine Within.each _ _ (fun x a => ?_) ?_
    · extract_lets y3 y4
      refine Within.via y3 ?_ fun _ => ?_
      · exact (State.newRequest_within ..).mono (by decide)
      clear_value y3
      clear_value y4
      refine Within.trans ?_ ((State.sendSymbols_within ..).mono (by decide))
      refine Within.trans ?_ ((State.onLane_within ..).mono (by decide))
      assumption
    · exact Within.refl _ _
  clear_value y1 y2
  refine Within.trans ?_ ((State.lineStep_within ..).mono (by decide))
  refine Within.trans ?_ ((State.onPort_within ..).mono (by decide))
  assumption

theorem State.takeItems_within (s : State) (p : ℕ) :
    Within [.link] s (State.takeItems s p) := by
  unfold State.takeItems
  extract_lets y1 y2
  clear_value y1 y2
  exact (State.onPort_within ..).mono (by decide)

theorem State.nextBlocks_within (s : State) (p : ℕ) :
    Within [.link] s (State.nextBlocks s p).1 := by
  unfold State.nextBlocks
  extract_lets y1 y2 y3 y4 y5
  clear_value y1 y2 y3 y4 y5
  dsimp -zeta only
  exact (State.onPort_within ..).mono (by decide)

theorem State.sendCodewords_within (s : State) (p : ℕ) (rate : ℕ) :
    Within [.out, .link] s (State.sendCodewords s p rate) := by
  unfold State.sendCodewords
  extract_lets y1 y2 y3 y4 y5
  refine Within.via y2.1 ?_ fun _ => ?_
  · refine Within.trans ?_ ((State.nextBlocks_within ..).mono (by decide))
    exact (State.takeItems_within ..).mono (by decide)
  clear_value y1 y2
  refine Within.via y4 ?_ fun _ => ?_
  · refine Within.trans ?_ ((State.onPort_within ..).mono (by decide))
    assumption
  clear_value y3 y4
  refine Within.via y5 ?_ fun _ => ?_
  · refine Within.each _ _ (fun x a => ?_) ?_
    · extract_lets y6 y7
      clear_value y6 y7
      refine Within.trans ?_ ((State.sendBits_within ..).mono (by decide))
      exact (State.onLane_within ..).mono (by decide)
    · assumption
  clear_value y5
  refine Within.trans ?_ ((State.lineStep_within ..).mono (by decide))
  assumption

theorem State.sendPattern_within (s : State) (n : ℕ) (nrz : Bool) :
    Within [.regs, .out, .link] s (State.sendPattern s n nrz) := by
  unfold State.sendPattern
  extract_lets y1 y2 y3 y4 y5 y6 y7
  refine Within.via y7 ?_ fun _ => ?_
  · refine Within.trans ?_ ((State.sendSymbols_within ..).mono (by decide))
    exact (State.onLane_within ..).mono (by decide)
  clear_value y1 y2 y3 y4 y5 y6 y7
  refine Within.ite ?_ ?_
  · exact Within.refl _ _
  · refine Within.when _ _ (fun x => ?_) ?_
    · refine Within.trans ?_ ((State.checkBits_within ..).mono (by decide))
      exact (State.hears_within ..).mono (by decide)
    · assumption

theorem State.ethReceive_within (s : State) (n : ℕ) :
    Within [.regs, .fresh] s (State.ethReceive s n) := by
  unfold State.ethReceive
  extract_lets y1 y2 y3
  refine Within.via y2 ?_ fun _ => ?_
  · refine Within.trans ?_ ((State.flag_within ..).mono (by decide))
    refine Within.trans ?_ ((State.flag_within ..).mono (by decide))
    exact (State.flag_within ..).mono (by decide)
  clear_value y1 y2
  refine Within.via y3 ?_ fun _ => ?_
  · refine Within.trans ?_ ((State.putS_within ..).mono (by decide))
    assumption
  clear_value y3
  refine Within.trans ?_ ((State.tickFresh_within ..).mono (by decide))
  refine Within.trans ?_ ((State.tickFresh_within ..).mono (by decide))
  refine Within.trans ?_ ((State.tickFresh_within ..).mono (by decide))
  refine Within.trans ?_ ((State.adaptStep_within ..).mono (by decide))
  assumption

theorem State.ethTick_within (s : State) :
    Within [.regs, .fresh, .out, .link] s (State.ethTick s) := by
  unfold State.ethTick
  extract_lets y1 y2 y3
  refine Within.via y1 ?_ fun _ => ?_
  · refine Within.when _ _ (fun x => ?_) ?_
    · refine Within.each _ _ (fun x a => ?_) ?_
      · exact (State.ethReceive_within ..).mono (by decide)
      · exact Within.refl _ _
    · exact Within.refl _ _
  clear_value y1
  clear_value y2 y3
  refine Within.ite ?_ ?_
  · refine Within.trans ?_ ((State.onLink_within ..).mono (by decide))
    assumption
  · refine Within.ite ?_ ?_
    · refine Within.trans ?_ ((State.onLink_within ..).mono (by decide))
      refine Within.each _ _ (fun x a => ?_) ?_
      · exact (State.sendPattern_within ..).mono (by decide)
      · assumption
    · assumption

theorem State.portTick_within (s : State) (p : ℕ) :
    Within [.regs, .fresh, .out, .link] s (State.portTick s p) := by
  unfold State.portTick
  extract_lets y1 y2 y3
  clear_value y1 y2 y3
  refine Within.ite ?_ ?_
  · refine Within.ite ?_ ?_
    · exact (State.sendTraining_within ..).mono (by decide)
    · exact Within.refl _ _
  · refine Within.ite ?_ ?_
    · refine Within.ite ?_ ?_
      · exact (State.sendTraining_within ..).mono (by decide)
      · exact Within.refl _ _
    · refine Within.ite ?_ ?_
      · refine Within.ite ?_ ?_
        · exact (State.sendCodewords_within ..).mono (by decide)
        · exact Within.refl _ _
      · refine Within.ite ?_ ?_
        · refine Within.ite ?_ ?_
          · refine Within.trans ?_ ((State.lineStep_within ..).mono (by decide))
            refine Within.each _ _ (fun x a => ?_) ?_
            · exact (State.sendPattern_within ..).mono (by decide)
            · exact Within.refl _ _
          · exact Within.refl _ _
        · exact Within.refl _ _

theorem State.idle_within (s : State) :
    Within [.regs, .fresh, .out, .time, .host, .ring, .link] s (State.idle s) := by
  unfold State.idle
  extract_lets y1 y2 y3
  refine Within.via y1 ?_ fun _ => ?_
  · exact (State.passTime_within ..).mono (by decide)
  clear_value y1
  refine Within.via y2 ?_ fun _ => ?_
  · refine Within.ite ?_ ?_
    · refine Within.trans ?_ ((State.judgeScrub_within ..).mono (by decide))
      assumption
    · assumption
  clear_value y2
  refine Within.via y3 ?_ fun _ => ?_
  · refine Within.ite ?_ ?_
    · refine Within.trans ?_ ((State.chainLapse_within ..).mono (by decide))
      assumption
    · assumption
  clear_value y3
  refine Within.ite ?_ ?_
  · refine Within.trans ?_ ((State.ethTick_within ..).mono (by decide))
    refine Within.each _ _ (fun x a => ?_) ?_
    · exact (State.portTick_within ..).mono (by decide)
    · assumption
  · assumption

end Sys2Proof.Machine
end

