-- ==== Sys2Proof/Laws/WithinStep.lean ====
section
/-! SUPPORT. What each operation and each meaning of Machine/Step.lean can do to the state: the parts it may change, and that it
keeps the canonical form and the shape. -/
set_option Elab.async false
namespace Sys2Proof.Machine

theorem State.withFetchWord_within (s : State) (nbits : Nat) (w : Nat) :
    Within [.pending] s (State.withFetchWord s nbits w) := by
  unfold State.withFetchWord
  split
  · exact (Within.upd (fun p => by cases p <;> first | exact .inr rfl | exact .inl (by decide)) rfl rfl)
  · exact Within.refl _ _

end Sys2Proof.Machine
end

