-- ==== Sys2Proof/Tests/Slice0.lean ====
section
/-! SUPPORT. Small checks of the model: terms that are not well formed, worked examples of the spec, and for each statement with
hypotheses a state and operands that meet them. -/
set_option Elab.async false
namespace Sys2Proof.Tests
open Sys2Proof Sys2Proof.Machine

/-! ### States the checks start from -/

/-- A tile that runs: every island out of reset, its clocks good. -/
def upTile : State := { State.reset with
  pwr := { porN := true, step := 7, up := true }
  xing := { inReset := List.replicate 9 false, clkOk := List.replicate 9 true, gated := List.replicate 9 false } }

/-- A head that runs. -/
def upHead : State := (upTile.put F.BOOT_STRAPS_ROLE 1).onPwr fun p => { p with pcieUp := true }

/-- A head that is bellwether. -/
def bw : State := upHead.put F.RING_STATUS_STATE hsBellwether

/-- Voltages inside every window of Table 18-1. -/
def goodMv : List Nat := [800, 1800, 750, 1800, 900, 1800, 1100]

/-- A bellwether whose context 0 is bound to PCIe, with one command in its ring. -/
def hostBw : State :=
  (((bw.onBoot fun b => { b with running := true }).put F.CTXn_BIND_TRANSPORT 1).put F.CTXn_SQ_TAIL 1).put F.MEM_CFG_CAPACITY 8

/-- A tile whose context 2 is bound to the ring tunnel. -/
def tunTile : State := (upTile.onBoot fun b => { b with running := true }).put F.CTXn_BIND_TRANSPORT 3 2

/-- An entry of opcode `op` with a few of its fields. -/
def ent (op : Nat) (fs : List (Nat × Nat × Nat) := []) : Bytes := mkMsg 64 ((0, 1, op) :: fs)

/-- A record of context 0 in ACCEPTED. -/
def recOf (e payload : Bytes) (tk : Nat) : JRec :=
  { entry := e, payload, ticket := tk, ctx := 0, peer := false, st := 1, result := 0, handoff := false, accWritten := true,
    doneWritten := false, consumed := false, epoch := 0, tau := 0, doneTime := 0, originSerial := 0, originTicket := 0, originCtx := 0,
    data := [], sqIndex := 0 }

/-- `hostBw` with one ticket to execute. -/
def withTicket (r : JRec) : State := hostBw.onHost fun h => { h with journal := [r] }


/-- Fold `n` of `s` in a run, at instruction 5 with the word `w`; k1 to k5 hold values. -/
def inRunAt (s : State) (n w : Nat) : State :=
  ((s.flag F.FOLDn_STATUS_IN_RUN true n).put F.FOLDn_STATUS_STATE 1 n).onFold n fun f => { f with
    prog := [(5, w)], pc := 5, k := [0, 1, 2, 0x80000000, 0xFFFFFFFF, 0x3FC00] ++ List.replicate 26 0 }

/-- An instruction word: opcode, RD, RS1, RS2, the rest. -/
def kw (op rd rs1 rs2 low : Nat) : Nat := op * 2 ^ 56 + rd * 2 ^ 51 + rs1 * 2 ^ 46 + rs2 * 2 ^ 41 + low

/-- A window of stream 16 with a gap and one cell waiting behind it. -/
def gapWin : Win :=
  let c := cellBody 16 false true false 9 1 0 0 4 7 [1, 2]
  { stream := 16, src := 0, synced := true, high := 9, next := 5, gapAt := some 0, waiting := [(9, 0, c)] }

/-- A cell of layer stream 15 with tally 5. -/
def layerCell : Bytes := sealCell (cellBody 15 false true true 5 1 0 0 4 7 [1, 2])

/-! ### Witnesses -/

theorem witness_PowerSequenceActs : (∃ (s : State), s.pwr.porN = false) ∧ (∃ (s : State) (mv : List Nat), (s.pwr.porN
    = true) ∧ (1 ≤ s.pwr.step) ∧ (s.pwr.step ≤ 4) ∧ (stepGood s.pwr.step mv = true) ∧ (s.pwr.step = 1 ∨ s.pwr.enableAt
    + 10 ^ 6 ≤ s.time.aon)) ∧ (∃ (s : State) (mv : List Nat), (s.pwr.porN = true) ∧ (s.pwr.step = 5) ∧ (stepGood 5 mv
    = true) ∧ (s.pwr.enableAt + 10 ^ 6 ≤ s.time.aon) ∧ (s.pwr.resetN = true) ∧ (s.therm.hold = false)) ∧ (∃ (s :
    State), (s.pwr.porN = true) ∧ (2 ≤ s.pwr.step) ∧ (s.pwr.step ≤ 5) ∧ (s.pwr.enableAt + 20 * 10 ^ 6 < s.time.aon)) ∧
    (∃ (s : State) (rail : Fin 7) (mv0 : Nat) (mv1 : Nat), (s.pwr.step = 7) ∧ (2 ≤ rail.val) ∧ (railGood rail mv0 =
    false) ∧ (railGood rail mv1 = false)) ∧ (∃ (s : State) (a : Nat), (s.pwr.hold = false) ∧ (s.therm.hold = false) ∧
    (s.pwr.restartAt = some a) ∧ (a ≤ s.time.aon)) ∧ (∃ (s : State) (w : Nat), (1000 ≤ w) ∧ (s.resetNHeard = true) ∧
    (s.pwr.step = 7)) ∧ (∃ (w : Nat), w < 100) ∧ (∃ (s : State), (s.pwr.resetN = false) ∧ (s.pwr.step = 7) ∧
    (s.therm.hold = false)) :=
⟨⟨State.reset, by decide +kernel⟩, ⟨(upTile.onPwr (fun p => { p with step := 2, enableAt := 5 })).onTime (fun x =>
    { x with aon := 1000005 }), goodMv, by decide +kernel⟩, ⟨(upTile.onPwr (fun p =>
    { p with step := 5, enableAt := 5 })).onTime (fun x => { x with aon := 1000005 }), goodMv, by decide +kernel⟩,
    ⟨(upTile.onPwr (fun p => { p with step := 5, enableAt := 5 })).onTime (fun x => { x with aon := 20000006 }),
    by decide +kernel⟩, ⟨upTile, 2, 699, 801, by decide +kernel⟩, ⟨(upTile.onPwr (fun p =>
    { p with restartAt := some 7 })).onTime (fun x => { x with aon := 7 }), 7, by decide +kernel⟩, ⟨upTile, 1000,
    by decide +kernel⟩, ⟨99, by decide +kernel⟩, ⟨upTile.onPwr (fun p => { p with resetN := false }),
    by decide +kernel⟩⟩

theorem witness_ResetRequestsAct : (∃ (s : State), s.pwr.up = true) ∧ (∃ (s : State), s.pwr.up = true) ∧ (∃ (s :
    State), s.pwr.up = true) ∧ (∃ (s : State), s.pwr.up = true) ∧ (∃ (s : State) (ctx : Fin 8), (s.pwr.up = true) ∧
    (ctx ≠ 0)) ∧ (∃ (s : State) (ctx : Fin 8), (s.pwr.up = true) ∧ (ctx ≠ 0)) ∧ (∃ (s : State) (ctx : Fin 8),
    (s.pwr.up = true) ∧ (ctx ≠ 0)) ∧ (∃ (s : State) (ctx : Fin 8), (s.pwr.up = true) ∧ (ctx ≠ 0)) ∧ (∃ (s : State) (v
    : Nat) (a : Nat) (rest : List (Nat × Nat)), (bitOf v 17 = true) ∧ (s.pwr.actions = (v, a) :: rest) ∧ (a ≤
    s.time.aon)) ∧ (∃ (s : State) (v : Nat) (a : Nat) (rest : List (Nat × Nat)), (bitOf v 17 = false) ∧ (bitOf v 16 =
    true) ∧ (s.pwr.actions = (v, a) :: rest) ∧ (a ≤ s.time.aon) ∧ (s.pwr.resetN = true)) ∧ (∃ (s : State) (v : Nat) (a
    : Nat) (rest : List (Nat × Nat)) (isl : Fin 9), (s.pwr.actions = (v, a) :: rest) ∧ (a ≤ s.time.aon) ∧ (bitOf v 17
    = false) ∧ (bitOf v 16 = false) ∧ (bitOf v isl.val = true) ∧ (isl.val < 8) ∧ (nth s.xing.gated isl.val false =
    false) ∧ (s.xing.inReset.length = 9)) ∧ (∃ (s : State) (v : Nat) (a : Nat) (rest : List (Nat × Nat)),
    (s.pwr.actions = (v, a) :: rest) ∧ (s.time.aon < a)) :=
⟨⟨upTile, by decide +kernel⟩, ⟨upTile, by decide +kernel⟩, ⟨upTile, by decide +kernel⟩, ⟨upTile, by decide +kernel⟩,
    ⟨upTile, 7, by decide +kernel⟩, ⟨upTile, 1, by decide +kernel⟩, ⟨upTile, 1, by decide +kernel⟩, ⟨upTile, 1,
    by decide +kernel⟩, ⟨(upTile.onPwr (fun p => { p with actions := [(2 ^ 17, 5)] })).onTime (fun x =>
    { x with aon := 5 }), 2 ^ 17, 5, [], by decide +kernel⟩, ⟨(upTile.onPwr (fun p =>
    { p with actions := [(2 ^ 16 + 1, 5)] })).onTime (fun x => { x with aon := 5 }), 2 ^ 16 + 1, 5, [],
    by decide +kernel⟩, ⟨(upTile.onPwr (fun p => { p with actions := [(8, 5)] })).onTime (fun x =>
    { x with aon := 5 }), 8, 5, [], 3, by decide +kernel⟩, ⟨upTile.onPwr (fun p => { p with actions := [(8, 5)] }), 8,
    5, [], by decide +kernel⟩⟩

theorem witness_IslandCommandsAct : (∃ (s : State) (isl : Fin 9), (s.pwr.up = true) ∧ (nth s.xing.inReset isl.val true
    = true) ∧ (nth s.xing.clkOk isl.val false = true) ∧ (nth s.xing.gated isl.val false = false) ∧
    (s.xing.inReset.length = 9) ∧ (nth s.xing.heldTo isl.val 0 ≤ s.time.aon)) ∧ (∃ (s : State) (isl : Fin 9), (nth
    s.xing.gated isl.val false = false) ∧ (s.xing.clkOk.length = 9) ∧ (s.xing.inReset.length = 9) ∧ (isl ≠ 8) ∧ (nth
    s.xing.clkOk isl.val false = true)) ∧ (∃ (s : State) (isl : Fin 9), (nth s.xing.gated isl.val false = false) ∧
    (isl = 8) ∧ (nth s.xing.clkOk isl.val false = true)) ∧ (∃ (s : State) (isl : Fin 9), (nth s.xing.gated isl.val
    false = false) ∧ (s.xing.clkOk.length = 9)) ∧ (∃ (s : State), s.pwr.up = true) ∧ (∃ (s : State) (isl : Fin 9)
    (line : Nat), (s.pwr.up = true) ∧ (nth s.xing.inReset isl.val true = false) ∧ ((s.xing.flights.find? fun f =>
    f.isl == isl.val && f.line == line) = none)) ∧ (∃ (s : State) (isl : Fin 9), (s.pwr.up = true) ∧ (nth
    s.xing.inReset isl.val true = true)) ∧ (∃ (s : State) (isl : Fin 9) (line : Nat) (f : Flight), (s.pwr.up = true) ∧
    (nth s.xing.inReset isl.val true = false) ∧ ((s.xing.flights.find? fun f => f.isl == isl.val && f.line == line) =
    some f) ∧ (f.pending = true)) ∧ (∃ (s : State), (s.xing.flights.all fun g => !g.pending) = true) ∧ (∃ (s : State)
    (isl : Fin 9) (line : Nat) (f : Flight), (f ∈ s.xing.flights) ∧ (f.isl = isl.val) ∧ (f.line = line) ∧ (f.start +
    s.f F.XING_ACK_LIMIT * nsU < s.time.clock) ∧ (isl ≠ 8) ∧ (nth s.xing.gated isl.val false = false) ∧
    (s.xing.inReset.length = 9)) ∧ (∃ (s : State), s.pwr.up = true) ∧ (∃ (s : State), (s.pwr.up = true) ∧ (nth
    s.xing.gated 7 false = false) ∧ (s.xing.inReset.length = 9)) ∧ (∃ (s : State), s.on iPCIE = true) ∧ (∃ (s :
    State), (s.on iPCIE = true) ∧ (s.pwr.flr.length = 4)) ∧ (∃ (s : State), s.pwr.flr.length = 4) :=
⟨⟨upTile.onXing (fun x => { x with inReset := List.replicate 9 true }), 0, by decide +kernel⟩, ⟨upTile, 3,
    by decide +kernel⟩, ⟨upTile, 8, by decide +kernel⟩, ⟨upTile, 3, by decide +kernel⟩, ⟨upTile, by decide +kernel⟩,
    ⟨upTile, 3, 7, by decide +kernel⟩, ⟨upTile.onXing (fun x => { x with inReset := List.replicate 9 true }), 3,
    by decide +kernel⟩, ⟨upTile.onXing (fun x => { x with flights := [⟨3, 7, 0, true⟩] }), 3, 7, ⟨3, 7, 0, true⟩,
    by decide +kernel⟩, ⟨upTile.onXing (fun x => { x with flights := [⟨3, 7, 0, false⟩] }), by decide +kernel⟩,
    ⟨(upTile.onXing (fun x => { x with flights := [⟨3, 7, 0, false⟩] })).onTime (fun x => { x with clock := 2 ^ 70 }),
    3, 7, ⟨3, 7, 0, false⟩, by decide +kernel⟩, ⟨(upTile.put F.XINGi_LOST 5 8), by decide +kernel⟩, ⟨upHead,
    by decide +kernel⟩, ⟨upHead.onPwr (fun p => { p with pcieUp := false }), by decide +kernel⟩, ⟨upHead,
    by decide +kernel⟩, ⟨upHead, by decide +kernel⟩⟩

theorem witness_RegisterCommandsAct : (∃ (s : State) (ctx : Fin 8) (addr : Nat) (value : Nat), (s.pwr.up = true) ∧
    (isRwp addr = true) ∧ (s.regCheck ctx addr value = 0) ∧ (s.gatedReg addr = false) ∧ ((s.ctx ctx).pairs = []) ∧
    (s.host.ctxs.length = 8)) ∧ (∃ (s : State) (addr : Nat) (value : Nat) (w : Word), (s.pwr.up = true) ∧ (isRwp addr
    = true) ∧ (isRwpHi (addr + 4) = true) ∧ (isRwp (addr + 4) = false) ∧ (s.gatedReg (addr + 4) = false) ∧ ((s.ctx
    0).pairs = [(⟨addr, w, 16⟩ : RwpPair)]) ∧ (BitVec.ofNat 32 (value % 2 ^ 32) = ~~~w) ∧ (s.writeRight 0 (addr + 4) =
    true)) ∧ (∃ (s : State) (ctx : Fin 8) (p : RwpPair), (s.pwr.up = true) ∧ ((s.ctx ctx).pairs = [p]) ∧ (p.left ≤ 1)
    ∧ (s.host.ctxs.length = 8)) ∧ (∃ (s : State) (ctx : Fin 8) (p : RwpPair), (s.pwr.up = true) ∧ ((s.ctx ctx).pairs =
    [p]) ∧ (1 < p.left)) ∧ (∃ (s : State) (ctx : Fin 8) (addr : Nat) (value : Nat), (s.pwr.up = true) ∧ (s.regCheck
    ctx addr value = 0) ∧ (s.gatedReg addr = false) ∧ (isRwp addr = false) ∧ (isRwpHi addr = false) ∧ ((regAt
    addr).isSome = true)) ∧ (∃ (s : State) (ctx : Fin 8) (addr : Nat), (s.pwr.up = true) ∧ ((fieldsAt addr).any (fun f
    => f.acc == .rc) = true) ∧ (s.readRight ctx addr = true)) ∧ (∃ (s : State) (ctx : Fin 8) (addr : Nat), (s.pwr.up =
    true) ∧ (isLo addr = true) ∧ (s.readRight ctx addr = true)) ∧ (∃ (s : State) (ctx : Fin 8) (addr : Nat), (s.pwr.up
    = true) ∧ (addr = F.SEC_SERIAL_LO.base) ∧ (s.readRight ctx addr = true) ∧ ((s.ctx ctx).pairs = []) ∧
    (s.host.ctxs.length = 8)) ∧ (∃ (s : State) (ctx : Fin 8) (lane : Fin 32), (s.pwr.up = true) ∧ (s.readRight ctx
    (F.LANEn_PRBS_ERR_LO.addr lane 0) = true)) ∧ (∃ (s : State) (ctx : Fin 8) (addr : Nat), (s.isHead = true) ∧
    (s.pwr.up = true) ∧ (s.on iPCIE = true) ∧ (s.pwr.pcieUp = true) ∧ (isLo addr = true) ∧ (s.readRight ctx addr =
    false) ∧ ((s.ctx ctx).pairs = [])) ∧ (∃ (s : State) (ctx : Fin 8), (s.isHead = true) ∧ (s.on iPCIE = true) ∧
    (s.pwr.pcieUp = true) ∧ ((s.ctx ctx).pairs = [])) ∧ (∃ (s : State) (ctx : Fin 8) (addr : Nat), (s.isHead = true) ∧
    (s.on iPCIE = true) ∧ (s.pwr.pcieUp = true) ∧ (bar0Own ctx addr = true) ∧ (s.f F.CTXn_BIND_TRANSPORT ctx = 1 ∨
    addr ≠ F.CTXn_SQ_TAIL.addr ctx 0)) ∧ (∃ (s : State) (ctx : Fin 8), (s.isHead = true) ∧ (s.on iPCIE = true) ∧
    (s.pwr.pcieUp = true) ∧ (s.f F.CTXn_BIND_TRANSPORT ctx ≠ 1) ∧ ((s.ctx ctx).pairs = [])) ∧ (∃ (s : State) (ctx :
    Fin 8) (value : Nat), (s.pwr.up = true) ∧ (value ≤ 4095) ∧ ((s.ctx ctx).pairs = []) ∧ (s.f F.CTXn_BIND_TRANSPORT
    ctx = 1)) ∧ (∃ (s : State) (ctx : Fin 8) (value : Nat), (s.pwr.up = true) ∧ (4095 < value) ∧ ((s.ctx ctx).pairs =
    []) ∧ (s.f F.CTXn_BIND_TRANSPORT ctx = 1)) ∧ (∃ (s : State) (ctx : Fin 8), (s.pwr.up = true) ∧ (s.f
    F.CTXn_BIND_TRANSPORT ctx ≠ 1) ∧ ((s.ctx ctx).pairs = [])) ∧ (∃ (s : State) (ctx : Fin 8) (value : Nat), (s.pwr.up
    = true) ∧ (8192 ≤ value ∨ (s.f F.CTXn_CQ_TAIL ctx + 8192 - s.f F.CTXn_CQ_HEAD ctx) % 8192 < (value + 8192 - s.f
    F.CTXn_CQ_HEAD ctx) % 8192) ∧ ((s.ctx ctx).pairs = [])) ∧ (∃ (s : State) (ctx : Fin 8) (value : Nat), (s.pwr.up =
    true) ∧ (value < 8192) ∧ ((value + 8192 - s.f F.CTXn_CQ_HEAD ctx) % 8192 ≤ (s.f F.CTXn_CQ_TAIL ctx + 8192 - s.f
    F.CTXn_CQ_HEAD ctx) % 8192) ∧ ((s.ctx ctx).pairs = []) ∧ ((s.ctx ctx).held = [])) ∧ (∃ (s : State) (ctx : Fin 8)
    (value : Nat) (k : Compl), (s.pwr.up = true) ∧ (value < 8192) ∧ (value ≠ s.f F.CTXn_CQ_HEAD ctx) ∧ ((value + 8192
    - s.f F.CTXn_CQ_HEAD ctx) % 8192 ≤ (s.f F.CTXn_CQ_TAIL ctx + 8192 - s.f F.CTXn_CQ_HEAD ctx) % 8192) ∧
    (s.host.ctxs.length = 8) ∧ ((s.ctx ctx).pairs = []) ∧ ((s.ctx ctx).held = [k]) ∧ (s.f F.CTXn_BIND_TRANSPORT ctx =
    1) ∧ (k.entry.length = 64) ∧ (le k.entry 4 1 = 3) ∧ (bitOf (le k.entry 5 1) 1 = false) ∧ (k.irq = true)) :=
⟨⟨upTile, 0, F.RST_CTL_ISLAND.base, 0x10000, by decide +kernel⟩, ⟨upTile.onCtx 0 (fun x =>
    { x with pairs := [⟨F.RST_CTL_ISLAND.base, 0x10000, 16⟩] }), F.RST_CTL_ISLAND.base, 0xFFFEFFFF, 0x10000,
    by decide +kernel⟩, ⟨upTile.onCtx 7 (fun x => { x with pairs := [⟨F.RST_CTL_ISLAND.base, 0x10000, 1⟩] }), 7,
    ⟨F.RST_CTL_ISLAND.base, 0x10000, 1⟩, by decide +kernel⟩, ⟨upTile.onCtx 7 (fun x =>
    { x with pairs := [⟨F.RST_CTL_ISLAND.base, 0x10000, 2⟩] }), 7, ⟨F.RST_CTL_ISLAND.base, 0x10000, 2⟩,
    by decide +kernel⟩, ⟨upTile, 0, F.TIME_ALARMa_CTL_ENABLE.base, 1, by decide +kernel⟩, ⟨upTile, 0,
    F.PORTn_STOMPED.base, by decide +kernel⟩, ⟨upTile, 0, F.SEC_SERIAL_LO.base, by decide +kernel⟩, ⟨upTile, 0,
    F.SEC_SERIAL_LO.base, by decide +kernel⟩, ⟨upHead, 0, 31, by decide +kernel⟩, ⟨upHead.put F.CTXn_RIGHTS_RD 0 7, 7,
    F.LANEn_PRBS_ERR_LO.base, by decide +kernel⟩, ⟨upHead, 3, by decide +kernel⟩, ⟨upHead.put F.CTXn_BIND_TRANSPORT 1
    3, 3, F.CTXn_SQ_TAIL.addr 3 0, by decide +kernel⟩, ⟨upHead.put F.CTXn_BIND_TRANSPORT 3 3, 3, by decide +kernel⟩,
    ⟨(upHead.put F.CTXn_BIND_TRANSPORT 1 7), 7, 4095, by decide +kernel⟩, ⟨(upHead.put F.CTXn_BIND_TRANSPORT 1 7), 7,
    4096, by decide +kernel⟩, ⟨(upHead.put F.CTXn_BIND_TRANSPORT 3 7), 7, by decide +kernel⟩, ⟨upHead, 7, 1,
    by decide +kernel⟩, ⟨upHead.put F.CTXn_CQ_TAIL 5 7, 7, 5, by decide +kernel⟩, ⟨(hostBw.put F.CTXn_CQ_HEAD 1
    0).onCtx 0 fun x => { x with held := [⟨(zeros 64).set 4 3, 0, 0, [], true⟩] }, 0, 5, (⟨(zeros 64).set 4 3, 0, 0,
    [], true⟩ : Compl), by decide +kernel⟩⟩

theorem witness_WriteGivesEachFieldItsType : (∀ f ∈ fieldsAt F.CTXn_FAULT_RWP.base, f.lo + f.w ≤ 32) ∧ (fieldsAt F.CTXn_FAULT_RWP.base).Pairwise (fun f g => f.lo + f.w ≤ g.lo ∨ g.lo + g.w ≤ f.lo) ∧ (fieldsAt F.CTXn_FAULT_RWP.base).any (fun f => f.acc == .w1c) = true ∧ (fieldsAt F.TIME_FRAME_RATE.base).any (fun f => f.acc == .rw) = true ∧ (fieldsAt F.TIME_STATUS_STATE.base).any (fun f => f.acc == .ro) = true :=
by decide +kernel

theorem witness_HostCommandsAreTaken : (∃ (s : State) (ctx : Fin 8) (e : Bytes) (pay : Bytes), offers s ctx 0x01 e
    pay) ∧ (∃ (s : State) (ctx : Fin 8) (e : Bytes) (pay : Bytes), offers s ctx 0x02 e pay) ∧ (∃ (s : State) (ctx :
    Fin 8) (e : Bytes) (pay : Bytes), offers s ctx 0x03 e pay) ∧ (∃ (s : State) (ctx : Fin 8) (e : Bytes), offers s
    ctx 0x08 e []) ∧ (∃ (s : State) (ctx : Fin 8) (e : Bytes), offers s ctx 0x09 e []) ∧ (∃ (s : State) (ctx : Fin 8)
    (e : Bytes), offers s ctx 0x0A e []) ∧ (∃ (s : State) (ctx : Fin 8) (e : Bytes), offers s ctx 0x10 e []) ∧ (∃ (s :
    State) (ctx : Fin 8) (e : Bytes), offers s ctx 0x11 e []) ∧ (∃ (s : State) (ctx : Fin 8) (e : Bytes), offers s ctx
    0x12 e []) ∧ (∃ (s : State) (ctx : Fin 8) (e : Bytes), offers s ctx 0x18 e []) ∧ (∃ (s : State) (ctx : Fin 8) (e :
    Bytes), offers s ctx 0x19 e []) ∧ (∃ (s : State) (ctx : Fin 8) (e : Bytes), offers s ctx 0x1A e []) ∧ (∃ (s :
    State) (ctx : Fin 8) (e : Bytes) (pay : Bytes), offers s ctx 0x20 e pay) ∧ (∃ (s : State) (ctx : Fin 8) (e :
    Bytes) (pay : Bytes) (p : Nat × Instr), (p ∈ [(0x01, .regWrite ctx e pay true), (0x02, .tableWrite ctx e pay
    true), (0x03, .memWrite ctx e pay true), (0x08, .hurdlePost ctx e), (0x09, .posePost ctx e), (0x0A, .tileService
    ctx e), (0x10, .flockOpen ctx e), (0x11, .flockCall ctx e), (0x12, .flockCancel ctx e), (0x18, .txbegin ctx e),
    (0x19, .txend ctx e), (0x1A, .txabort ctx e), (0x20, .tunnel ctx e pay true), (0x40, .regRead ctx e 0), (0x41,
    .memRead ctx e), (0x42, .ticketQuery ctx e), (0x43, .flockQuery ctx e)]) ∧ (s.mayTake ctx = true) ∧ (s.f
    F.CTXn_BIND_TRANSPORT ctx = 1) ∧ ((s.ctx ctx).sq = []) ∧ (e.length = 64) ∧ (eOp e = p.1) ∧ (p.1 ∈ [0x01, 0x02,
    0x03, 0x20] ∨ pay = []) ∧ (pay.length = eLen e) ∧ (s.entryCode ctx e pay true ≠ 0)) ∧ (∃ (s : State) (ctx : Fin 8)
    (e : Bytes), (s.mayTake ctx = true) ∧ (s.f F.CTXn_BIND_TRANSPORT ctx = 1) ∧ ((s.ctx ctx).sq = []) ∧ (e.length =
    64) ∧ (eOp e = 0x42) ∧ (eLen e = 0) ∧ (s.entryCode ctx e [] true = 0)) ∧ (∃ (s : State) (ctx : Fin 8) (e : Bytes),
    (s.mayTake ctx = true) ∧ (s.f F.CTXn_BIND_TRANSPORT ctx = 1) ∧ ((s.ctx ctx).sq = []) ∧ (e.length = 64) ∧ (eOp e =
    0x43) ∧ (eLen e = 0) ∧ (s.entryCode ctx e [] true = 0)) ∧ (∃ (s : State) (ctx : Fin 8) (e : Bytes), (s.mayTake ctx
    = true) ∧ (s.f F.CTXn_BIND_TRANSPORT ctx = 1) ∧ ((s.ctx ctx).sq = []) ∧ (e.length = 64) ∧ (eOp e = 0x40) ∧ (le e
    24 1 = 1) ∧ (eLen e = 0) ∧ (s.entryCode ctx e [] true = 0)) ∧ (∃ (s : State) (ctx : Fin 8) (e : Bytes), (s.mayTake
    ctx = true) ∧ (s.f F.CTXn_BIND_TRANSPORT ctx = 1) ∧ ((s.ctx ctx).sq = []) ∧ (e.length = 64) ∧ (eOp e = 0x41) ∧
    (eLen e = 0) ∧ (s.entryCode ctx e [] true = 0) ∧ (s.isHead = true) ∧ (le e 24 1 = 0) ∧ (s.clipWritten.memBad
    (s.clipBase + le e 32 8) (le e 40 4) = false)) :=
⟨⟨hostBw, 0, ent 1 [(24, 1, 1), (28, 4, F.TIME_ALARMa_CTL_ENABLE.base), (32, 4, 1)], [], by decide +kernel⟩, ⟨hostBw,
    0, ent 2 [(8, 4, 4), (24, 2, 0xA10), (32, 4, 1)], [1, 2, 3, 4], by decide +kernel⟩, ⟨hostBw, 0, ent 3 [(8, 4, 2),
    (32, 8, 0x40000)], [1, 2], by decide +kernel⟩, ⟨hostBw, 0, ent 8 [(28, 4, 7)], by decide +kernel⟩, ⟨hostBw, 0, ent
    9 [(28, 4, 7)], by decide +kernel⟩, ⟨hostBw.onRing (fun x =>
    { x with tiles := [{ serial := 7, ring := 1, hop := 2 }] }), 0, ent 0x0A [(24, 1, 1), (32, 8, 7)],
    by decide +kernel⟩, ⟨hostBw, 0, ent 0x10, by decide +kernel⟩,
    ⟨{ hostBw with flocks := [({ id := 7, own := true } : Flock)] }, 0, ent 0x11 [(2, 2, 7)], by decide +kernel⟩,
    ⟨{ hostBw with flocks := [({ id := 7, own := true } : Flock)] }, 0, ent 0x12 [(2, 2, 7)], by decide +kernel⟩,
    ⟨hostBw, 0, ent 0x18, by decide +kernel⟩, ⟨hostBw.onTx 0 (fun x => { x with opened := true }), 0, ent 0x19,
    by decide +kernel⟩, ⟨hostBw.onTx 0 (fun x => { x with opened := true }), 0, ent 0x1A, by decide +kernel⟩,
    ⟨(hostBw.onRing (fun x => { x with tiles := [{ serial := 7, ring := 1, hop := 2 }] })), 0, ent 0x20 [(4, 2, 258),
    (8, 4, 64), (24, 1, 2)], ent 0x40, by decide +kernel⟩, ⟨hostBw, 0, ent 0x1A, [], (0x1A, .txabort 0 (ent 0x1A)),
    by decide +kernel⟩, ⟨hostBw, 0, ent 0x42, by decide +kernel⟩, ⟨hostBw, 0, ent 0x43 [(2, 2, 5)],
    by decide +kernel⟩, ⟨hostBw, 0, ent 0x40 [(24, 1, 1), (28, 4, F.GLOBAL_ACCESS_ERRS.base)], by decide +kernel⟩,
    ⟨hostBw, 0, ent 0x41 [(40, 4, 16)], by decide +kernel⟩⟩

theorem witness_TicketsRun : (∃ (s : State) (ctx : Fin 8) (k : Checked), (s.pwr.up = true) ∧ ((s.ctx ctx).checked =
    some k) ∧ ((s.ring.mirrors.any fun m => m.2 == ctx.val) = false) ∧ (s.f F.CTXn_NEXT_TICKET ctx < 2 ^ 32 - 1) ∧
    (s.host.ctxs.length = 8)) ∧ (∃ (s : State) (ctx : Fin 8) (r : JRec), (s.boot.running = true) ∧ (s.survivor =
    false) ∧ (nextTicket (s.host.journal.filter fun r => r.ctx == ctx.val && r.epoch == s.host.epoch) = some r) ∧
    (s.on iMEM = true) ∧ (s.recBad r = false)) ∧ (∃ (s : State) (ctx : Fin 8) (r : JRec), (s.boot.running = true) ∧
    (s.host.peerJournal = []) ∧ (s.ring.mirrorUp = false) ∧ (nextTicket (s.host.journal.filter fun r => r.ctx ==
    ctx.val && r.epoch == s.host.epoch) = some r) ∧ (eOp r.entry = 0x03) ∧ (s.on iMEM = true) ∧ (s.recBad r = false))
    ∧ (∃ (s : State) (ctx : Fin 8) (r : JRec), (s.boot.running = true) ∧ (s.host.peerJournal = []) ∧ (s.ring.mirrorUp
    = false) ∧ (nextTicket (s.host.journal.filter fun r => r.ctx == ctx.val && r.epoch == s.host.epoch) = some r) ∧
    (eOp r.entry = 0x0A) ∧ (s.on iMEM = true) ∧ (s.recBad r = false)) ∧ (∃ (s : State) (ctx : Fin 8) (r : JRec),
    (s.boot.running = true) ∧ (s.host.peerJournal = []) ∧ (s.ring.mirrorUp = false) ∧ (nextTicket
    (s.host.journal.filter fun r => r.ctx == ctx.val && r.epoch == s.host.epoch) = some r) ∧ (eOp r.entry = 0x10) ∧
    (r.handoff = false) ∧ (s.on iMEM = true) ∧ (s.recBad r = false)) :=
⟨⟨hostBw.onCtx 3 (fun x => { x with checked := some ⟨ent 0x10, [], 0, 0, 0⟩ }), 3, (⟨ent 0x10, [], 0, 0, 0⟩ :
    Checked), by decide +kernel⟩, ⟨(withTicket (recOf (ent 0x10) [] 1)).onRing (fun x =>
    { x with peer := some ⟨0, 0, 0, 0, true, true, 0, 0, false, 0⟩ }), 0, recOf (ent 0x10) [] 1, by decide +kernel⟩,
    ⟨withTicket (recOf (ent 3) [1, 2, 3] 1), 0, recOf (ent 3) [1, 2, 3] 1, by decide +kernel⟩, ⟨withTicket (recOf (ent
    0x0A [(24, 1, 1), (32, 8, 7)]) [] 1), 0, recOf (ent 0x0A [(24, 1, 1), (32, 8, 7)]) [] 1, by decide +kernel⟩,
    ⟨withTicket (recOf (ent 0x10) [] 1), 0, recOf (ent 0x10) [] 1, by decide +kernel⟩⟩

theorem witness_PeerMessagesAct : (∃ (s : State) (ctx : Fin 8) (src : Peer) (index : Nat) (entry : Bytes), (s.pwr.up =
    true) ∧ (s.on iPERIPH = true) ∧ (s.b F.HOST_MGMT_CFG = true) ∧ (s.f F.CTXn_BIND_TRANSPORT ctx = 2) ∧ (s.f
    F.CTXn_PEER ctx = 0 ∨ src.ip = s.f F.CTXn_PEER ctx) ∧ (index = s.f F.CTXn_SQ_TAIL ctx) ∧ (index < 4096) ∧ ((index
    + 1) % 4096 ≠ s.f F.CTXn_SQ_HEAD ctx) ∧ (entry.length = 64) ∧ (s.host.ctxs.length = 8)) ∧ (∃ (s : State) (ctx :
    Fin 8), (s.pwr.up = true) ∧ (s.on iPERIPH = true) ∧ (s.b F.HOST_MGMT_CFG = true) ∧ (s.f F.CTXn_BIND_TRANSPORT ctx
    ≠ 2)) ∧ (∃ (s : State) (ctx : Fin 8) (index : Nat), (s.pwr.up = true) ∧ (s.on iPERIPH = true) ∧ (s.b
    F.HOST_MGMT_CFG = true) ∧ (s.f F.CTXn_BIND_TRANSPORT ctx = 2) ∧ ((s.ctx ctx).source ≠ 0) ∧ ((s.ctx ctx).held = [])
    ∧ (index < 8192) ∧ ((index + 8192 - s.f F.CTXn_CQ_HEAD ctx) % 8192 ≤ (s.f F.CTXn_CQ_TAIL ctx + 8192 - s.f
    F.CTXn_CQ_HEAD ctx) % 8192)) ∧ (∃ (s : State) (target : Nat), (s.pwr.up = true) ∧ (s.on iPERIPH = true) ∧ (s.b
    F.HOST_MGMT_CFG = true) ∧ (target = s.f F.HOST_MGMT_IP)) ∧ (∃ (s : State) (payload : Bytes) (c : Fin 8), (s.pwr.up
    = true) ∧ (s.on iLINK = true) ∧ (s.isTile = true) ∧ (96 ≤ payload.length) ∧ (le payload 0 1 = 0x30) ∧ (bits (le
    payload 1 1) 0 3 = c.val) ∧ (s.f F.CTXn_BIND_TRANSPORT c = 3) ∧ (s.host.taken = []) ∧ (le payload 20 1 = s.f
    F.CTXn_BIND_HEAD_CTX c) ∧ (s.host.ctxs.length = 8) ∧ ((s.ctx c).pairs = []) ∧ (s.f F.CTXn_SQ_TAIL c ≤ 4095)) ∧ (∃
    (s : State) (payload : Bytes) (q : Reply), (s.pwr.up = true) ∧ (s.on iLINK = true) ∧ (s.isTile = true) ∧ (le
    payload 0 1 = 0x31) ∧ (le payload 8 8 = s.serial) ∧ (s.host.replies = [q]) ∧ (q.seq = le payload 4 4) ∧ (q.index =
    none)) ∧ (∃ (s : State) (seq : Nat) (q : Reply), (s.host.replies.find? (fun r => r.seq == seq) = some q) ∧
    (s.isTile = true) ∧ (s.on iLINK = true)) ∧ (∃ (s : State) (payload : Bytes) (x : TileRec), (s.pwr.up = true) ∧
    (s.on iLINK = true) ∧ (s.isBw = true) ∧ (le payload 0 1 = 0x38) ∧ (s.ring.tiles.find? (fun t => t.serial == le
    payload 8 8) = some x) ∧ (s.host.relayed.contains (le payload 8 8, le payload 4 4) = true)) ∧ (∃ (s : State)
    (payload : Bytes) (x : TileRec), (s.pwr.up = true) ∧ (s.on iLINK = true) ∧ (s.isBw = true) ∧ (le payload 0 1 =
    0x38) ∧ (s.ring.tiles.find? (fun t => t.serial == le payload 8 8) = some x) ∧ (s.host.relayed = [])) ∧ (∃ (s :
    State) (record : Bytes), (s.isHead = true) ∧ (s.pwr.up = true) ∧ (s.host.peerJournal = []) ∧ (bitOf (le record 71
    1) 3 = false)) ∧ (∃ (s : State) (ctx : Fin 8) (ticket : Nat), (s.isHead = true) ∧ (s.pwr.up = true) ∧ (s.f
    F.CTXn_NEXT_TICKET ctx = ticket)) ∧ (∃ (s : State) (m : Nat × Nat), (s.isHead = true) ∧ (s.ring.mirrorUp = true) ∧
    (m ∈ s.ring.mirrors) ∧ (m.1 + 50000 < s.time.aon)) :=
⟨⟨(hostBw.put F.CTXn_BIND_TRANSPORT 2 1).put F.HOST_MGMT_CFG 1, 1, (⟨7, 9⟩ : Peer), 0, ent 0x10, by decide +kernel⟩,
    ⟨hostBw.put F.HOST_MGMT_CFG 1, 0, by decide +kernel⟩, ⟨((((hostBw.put F.CTXn_BIND_TRANSPORT 2 1).put
    F.HOST_MGMT_CFG 1).put F.CTXn_CQ_TAIL 2 1).onCtx 1 fun x => { x with source := 5 }), 1, 1, by decide +kernel⟩,
    ⟨hostBw.put F.HOST_MGMT_CFG 1, 0, by decide +kernel⟩, ⟨tunTile, mkMsg 32 [(0, 1, 0x30), (1, 1, 2), (4, 4, 9), (8,
    8, 77), (20, 1, tunTile.f F.CTXn_BIND_HEAD_CTX 2)] ++ ent 0x40, 2, by decide +kernel⟩, ⟨tunTile.onHost (fun h =>
    { h with replies := [⟨5, 2, [], none⟩] }), mkMsg 16 [(0, 1, 0x31), (4, 4, 5), (8, 8, tunTile.serial)], (⟨5, 2, [],
    none⟩ : Reply), by decide +kernel⟩, ⟨tunTile.onHost (fun h => { h with replies := [⟨5, 2, [1, 2], none⟩] }), 5,
    (⟨5, 2, [1, 2], none⟩ : Reply), by decide +kernel⟩, ⟨(hostBw.onHost fun h =>
    { h with relayed := [(7, 3)] }).onRing (fun r => { r with tiles := [{ serial := 7, ring := 1, hop := 2 }] }),
    mkMsg 96 [(0, 1, 0x38), (4, 4, 3), (8, 8, 7)], ({ serial := 7, ring := 1, hop := 2 } : TileRec),
    by decide +kernel⟩, ⟨hostBw.onRing (fun r => { r with tiles := [{ serial := 7, ring := 1, hop := 2 }] }), mkMsg 96
    [(0, 1, 0x38), (4, 4, 3), (8, 8, 7)], ({ serial := 7, ring := 1, hop := 2 } : TileRec), by decide +kernel⟩,
    ⟨hostBw, ent 0x10 ++ zeros 192, by decide +kernel⟩, ⟨hostBw.onRing (fun r =>
    { r with mirrors := [(4, 2), (5, 3)] }), 2, hostBw.f F.CTXn_NEXT_TICKET 2, by decide +kernel⟩, ⟨(hostBw.onRing
    (fun r => { r with mirrorUp := true, mirrors := [(4, 2)] })).onTime (fun x => { x with aon := 50005 }), (4, 2),
    by decide +kernel⟩⟩

theorem witness_FlockMembersAct : (∃ (s : State) (payload : Bytes), (s.pwr.up = true) ∧ (s.on iLINK = true) ∧ (msgOk
    0x13 payload = true) ∧ (le payload 2 2 ≠ 0) ∧ (s.flock (le payload 2 2) = none)) ∧ (∃ (s : State) (payload :
    Bytes) (id : Nat) (f : Flock), (s.pwr.up = true) ∧ (s.on iLINK = true) ∧ (s.isTile = true) ∧ (eTarget
    ((payload.drop 8).take 64) = 0xFFFF) ∧ (le payload 2 2 = id) ∧ (s.flock id = some f) ∧ (f.st = 1)) ∧ (∃ (s :
    State) (payload : Bytes) (id : Nat) (f : Flock), (s.pwr.up = true) ∧ (s.on iLINK = true) ∧ (msgOk 0x10 payload =
    true) ∧ (le payload 2 2 = id) ∧ (s.time.clock ≤ s.instant32 (le payload 12 4) (le payload 16 4)) ∧ (s.flock id =
    some f) ∧ (f.st = 1) ∧ (s.isBw = true ∨ (s.isHead = true ∧ s.f F.RING_STATUS_STATE = hsStandby))) ∧ (∃ (s : State)
    (flock : Nat) (f : Flock), (s.pwr.up = true) ∧ (s.isBw = false) ∧ (s.flock flock = some f) ∧ (f.st = 2) ∧
    (s.time.clock ≤ f.dv) ∧ (s.markPassed 19 f.txMark = true) ∧ (s.markPassed 20 f.mgmtMark = true) ∧ (s.voteReason f
    false = (0, none))) ∧ (∃ (s : State) (flock : Nat) (f : Flock), (s.pwr.up = true) ∧ (s.isBw = false) ∧ (s.flock
    flock = some f) ∧ (f.st = 2) ∧ (s.time.clock ≤ f.dv) ∧ (s.markPassed 19 f.txMark = true) ∧ (s.markPassed 20
    f.mgmtMark = true) ∧ (s.voteReason f true = (4, none))) ∧ (∃ (s : State) (flock : Nat) (f : Flock), (s.pwr.up =
    true) ∧ (s.isBw = false) ∧ (s.flock flock = some f) ∧ (f.st = 2) ∧ (s.time.clock ≤ f.dv) ∧ (s.markPassed 19
    f.txMark = true) ∧ (s.markPassed 20 f.mgmtMark = true) ∧ (s.voteReason f true = (4, none))) ∧ (∃ (s : State)
    (flock : Nat) (f : Flock), (s.pwr.up = true) ∧ (s.isBw = false) ∧ (s.flock flock = some f) ∧ (f.st = 2) ∧ (f.dv ≤
    s.time.clock) ∧ (s.marksPassed f = false)) ∧ (∃ (s : State) (flock : Nat) (f : Flock), (s.pwr.up = true) ∧ (s.isBw
    = false) ∧ (s.flock flock = some f) ∧ (f.st = 2) ∧ (f.dv < s.time.clock) ∧ (s.marksPassed f = true) ∧
    (s.voteReason f false = (0, none))) ∧ (∃ (s : State) (flock : Nat) (f : Flock), (s.flock flock = some f) ∧
    (s.time.clock < f.dv)) ∧ (∃ (s : State) (payload : Bytes) (f : Flock), (s.pwr.up = true) ∧ (s.on iLINK = true) ∧
    (s.isBw = false) ∧ (msgOk 0x11 payload = true) ∧ (s.flock (le payload 2 2) = some f) ∧ (f.voted = true) ∧ (f.st =
    3) ∧ (f.applyAt = none) ∧ (f.broken = false) ∧ (s.time.clock + usU (le payload 12 2) ≤ (s.epochTiming
    f.tepoch).swapAt (le payload 4 8))) ∧ (∃ (s : State) (payload : Bytes) (f : Flock), (s.pwr.up = true) ∧ (s.on
    iLINK = true) ∧ (s.isBw = false) ∧ (msgOk 0x11 payload = true) ∧ (s.flock (le payload 2 2) = some f) ∧ (f.voted =
    true) ∧ (f.st = 3) ∧ (f.applyAt = none) ∧ (f.broken = false) ∧ ((s.epochTiming f.tepoch).swapAt (le payload 4 8) <
    s.time.clock + usU (le payload 12 2))) ∧ (∃ (s : State) (payload : Bytes), (s.pwr.up = true) ∧ (s.on iLINK = true)
    ∧ (s.isBw = false) ∧ (msgOk 0x11 payload = true) ∧ (s.flock (le payload 2 2) = none)) ∧ (∃ (s : State) (payload :
    Bytes) (f : Flock), (s.pwr.up = true) ∧ (s.on iLINK = true) ∧ (s.isBw = false) ∧ (msgOk 0x12 payload = true) ∧
    (s.flock (le payload 2 2) = some f) ∧ (f.voted = true) ∧ (f.st = 3)) ∧ (∃ (s : State) (flock : Nat) (f : Flock),
    (s.flock flock = some f) ∧ (f.st = 3) ∧ (f.voted = true) ∧ ((s.epochTiming f.tepoch).swapAt f.t < s.time.clock +
    usU f.guard)) ∧ (∃ (s : State) (flock : Nat) (f : Flock), (s.flock flock = some f) ∧ (s.isBw = false) ∧ (f.st = 8
    ∨ f.st = 6) ∧ (16 ≤ f.quiet)) ∧ (∃ (s : State), s.pwr.up = true) ∧ (∃ (s : State), s.pwr.up = true) :=
⟨⟨upTile, flockMsg 0x13 [(1, 1, 1), (2, 2, 7), (4, 1, 3), (8, 8, 99)], by decide +kernel⟩,
    ⟨{ upTile with flocks := [{ id := 7 }] }, stagedMsg 7 0 (ent 1 [(4, 2, 0xFFFF), (24, 1, 1), (28, 4,
    F.FLOCK_GUARD.base), (32, 4, 200)]) [], 7, ({ id := 7 } : Flock), by decide +kernel⟩,
    ⟨{ (upHead.put F.RING_STATUS_STATE hsStandby) with flocks := [{ id := 7 }] }, flockMsg 0x10 [(2, 2, 7), (4, 8,
    500), (12, 4, 9), (16, 4, 5), (28, 2, 100)], 7, ({ id := 7 } : Flock), by decide +kernel⟩,
    ⟨{ (upTile.put F.MEM_CFG_CHANNELS 8) with flocks := [{ id := 7, st := 2, dv := 9 }] }, 7,
    ({ id := 7, st := 2, dv := 9 } : Flock), by decide +kernel⟩,
    ⟨{ (upTile.put F.MEM_CFG_CHANNELS 8) with flocks := [{ id := 7, st := 2, dv := 9 }] }, 7,
    ({ id := 7, st := 2, dv := 9 } : Flock), by decide +kernel⟩,
    ⟨{ (upTile.put F.MEM_CFG_CHANNELS 8) with flocks := [{ id := 7, st := 2, dv := 9 }] }, 7,
    ({ id := 7, st := 2, dv := 9 } : Flock), by decide +kernel⟩,
    ⟨{ (upTile.onTime fun x => { x with clock := 1 }) with flocks := [{ id := 7, st := 2, txMark := some 5 }] }, 7,
    ({ id := 7, st := 2, txMark := some 5 } : Flock), by decide +kernel⟩,
    ⟨{ ((upTile.put F.MEM_CFG_CHANNELS 8).onTime fun x => { x with clock := 10 }) with flocks := [{ id := 7, st := 2, dv := 9 }] },
    7, ({ id := 7, st := 2, dv := 9 } : Flock), by decide +kernel⟩,
    ⟨{ upTile with flocks := [{ id := 7, st := 2, dv := 9 }] }, 7, ({ id := 7, st := 2, dv := 9 } : Flock),
    by decide +kernel⟩, ⟨{ upTile with flocks := [{ id := 7, st := 3, voted := true }] }, flockMsg 0x11 [(2, 2, 7),
    (4, 8, 500), (12, 2, 100)], ({ id := 7, st := 3, voted := true } : Flock), by decide +kernel⟩,
    ⟨{ upTile with flocks := [{ id := 7, st := 3, voted := true }] }, flockMsg 0x11 [(2, 2, 7), (4, 8, 0), (12, 2,
    100)], ({ id := 7, st := 3, voted := true } : Flock), by decide +kernel⟩, ⟨upTile, flockMsg 0x11 [(2, 2, 7), (4,
    8, 0), (12, 2, 100)], by decide +kernel⟩, ⟨{ upTile with flocks := [{ id := 7, st := 3, voted := true }] },
    flockMsg 0x12 [(2, 2, 7), (4, 1, 6)], ({ id := 7, st := 3, voted := true } : Flock), by decide +kernel⟩,
    ⟨{ (upTile.onTime fun x => { x with clock := 1 }) with flocks := [{ id := 7, st := 3, voted := true }] }, 7,
    ({ id := 7, st := 3, voted := true } : Flock), by decide +kernel⟩,
    ⟨{ upTile with flocks := [{ id := 7, st := 6, quiet := 16 }] }, 7, ({ id := 7, st := 6, quiet := 16 } : Flock),
    by decide +kernel⟩, ⟨upTile, by decide +kernel⟩, ⟨upTile, by decide +kernel⟩⟩

theorem witness_FlockDecisions : (∃ (s : State) (payload : Bytes) (f : Flock), (s.pwr.up = true) ∧ (s.on iLINK = true)
    ∧ (s.isHead = true) ∧ (s.isBw = false) ∧ (msgOk 1 payload = true) ∧ (s.flock (le payload 2 2) = some f) ∧
    (f.called = true) ∧ ((f.votes.any fun x => x.serial == le payload 20 8) = false) ∧ (s.instant32 (le payload 12 4)
    (le payload 16 4) ≤ f.dv) ∧ (s.time.clock ≤ f.dv + usU (s.f F.FLOCK_VOTE_GRACE)) ∧ (f.parts.contains (le payload
    20 8) = true)) ∧ (∃ (s : State) (payload : Bytes) (f : Flock), (s.pwr.up = true) ∧ (s.on iLINK = true) ∧ (s.isBw =
    true) ∧ (msgOk 1 payload = true) ∧ (s.flock (le payload 2 2) = some f) ∧ (f.called = true) ∧ ((f.votes.any fun x
    => x.serial == le payload 20 8) = false) ∧ (f.dv < s.instant32 (le payload 12 4) (le payload 16 4)) ∧
    (f.parts.contains (le payload 20 8) = true)) ∧ (∃ (s : State) (payload : Bytes) (f : Flock), (s.pwr.up = true) ∧
    (s.on iLINK = true) ∧ (s.isBw = true) ∧ (msgOk 1 payload = true) ∧ (s.flock (le payload 2 2) = some f) ∧ (f.called
    = true) ∧ (f.votes = []) ∧ (f.decided = none) ∧ (bitOf (le payload 1 1) 0 = true) ∧ (s.instant32 (le payload 12 4)
    (le payload 16 4) ≤ f.dv) ∧ (s.time.clock ≤ f.dv + usU (s.f F.FLOCK_VOTE_GRACE)) ∧ (f.parts.contains (le payload
    20 8) = true)) ∧ (∃ (s : State) (flock : Nat) (f : Flock), (s.flock flock = some f) ∧ (s.isBw = true) ∧ (f.st = 1)
    ∧ (f.called = false) ∧ (f.decided = none) ∧ (f.openedAt + secU (s.f F.FLOCK_OPEN_LIMIT) < s.time.clock)) ∧ (∃ (s :
    State) (flock : Nat) (f : Flock), (s.flock flock = some f) ∧ (s.isBw = true) ∧ (f.called = true) ∧ (f.decided =
    none) ∧ (f.st = 2) ∧ (f.votes = []) ∧ ((s.awaited f).isEmpty = false) ∧ (max f.dv s.ring.bwSince + usU (s.f
    F.FLOCK_VOTE_GRACE) < s.time.clock)) ∧ (∃ (s : State) (flock : Nat) (f : Flock), (s.flock flock = some f) ∧
    (s.isBw = true) ∧ (f.called = true) ∧ (f.decided = none) ∧ (f.st = 2) ∧ (f.votes = []) ∧ (f.acks = []) ∧
    ((s.awaited f).isEmpty = false) ∧ (max f.dv s.ring.bwSince + usU (s.f F.FLOCK_VOTE_GRACE) < s.time.clock) ∧
    (f.taken = true)) ∧ (∃ (s : State) (payload : Bytes) (f : Flock), (s.pwr.up = true) ∧ (s.on iLINK = true) ∧
    (s.isHead = true) ∧ (s.isBw = false) ∧ (msgOk 2 payload = true) ∧ (s.flock (le payload 2 2) = some f) ∧
    (f.acks.contains (le payload 20 8) = false) ∧ (f.decided = none)) ∧ (∃ (s : State) (payload : Bytes) (f : Flock)
    (b : Bool), (s.pwr.up = true) ∧ (s.on iLINK = true) ∧ (s.isBw = true) ∧ (s.isHead = true) ∧ (msgOk 2 payload =
    true) ∧ (s.flock (le payload 2 2) = some f) ∧ (f.decided = some b) ∧ (f.acks.contains (le payload 20 8) = false) ∧
    (f.st ≠ 8) ∧ (f.st ≠ 6) ∧ ((s.awaited f).all (fun p => (f.acks ++ [le payload 20 8]).contains p) = false)) ∧ (∃ (s
    : State) (payload : Bytes) (f : Flock), (s.pwr.up = true) ∧ (s.on iLINK = true) ∧ (s.isBw = false) ∧ (msgOk 0x11
    payload = true) ∧ (s.flock (le payload 2 2) = some f) ∧ (f.voted = true) ∧ (f.st = 3)) ∧ (∃ (s : State) (flock :
    Nat) (f : Flock), (s.pwr.up = true) ∧ (s.isBw = false) ∧ (s.flock flock = some f) ∧ (f.st = 2) ∧ (f.dv <
    s.time.clock) ∧ (s.marksPassed f = true) ∧ (s.voteReason f true = (4, none))) :=
⟨⟨{ upHead with flocks := [{ id := 7, st := 2, called := true, dv := secU 5, parts := [55] }] }, flockMsg 1 [(2, 2,
    7), (20, 8, 55)], ({ id := 7, st := 2, called := true, dv := secU 5, parts := [55] } : Flock), by decide +kernel⟩,
    ⟨{ bw with flocks := [{ id := 7, st := 2, called := true, dv := secU 5, parts := [55] }] }, flockMsg 1 [(2, 2, 7),
    (12, 4, 5), (16, 4, 1), (20, 8, 55)], ({ id := 7, st := 2, called := true, dv := secU 5, parts := [55] } : Flock),
    by decide +kernel⟩, ⟨{ bw with flocks := [{ id := 7, st := 2, called := true, dv := secU 5, parts := [55] }] },
    flockMsg 1 [(1, 1, 1), (2, 2, 7), (4, 1, 9), (20, 8, 55)],
    ({ id := 7, st := 2, called := true, dv := secU 5, parts := [55] } : Flock), by decide +kernel⟩,
    ⟨{ (bw.onTime fun x => { x with clock := secU 4000 }) with flocks := [{ id := 7 }] }, 7, ({ id := 7 } : Flock),
    by decide +kernel⟩,
    ⟨{ (bw.onTime fun x => { x with clock := secU 4000 }) with flocks := [{ id := 7, st := 2, called := true, parts := [bw.serial] }] },
    7, ({ id := 7, st := 2, called := true, parts := [bw.serial] } : Flock), by decide +kernel⟩,
    ⟨{ (bw.onTime fun x => { x with clock := secU 4000 }) with flocks := [{ id := 7, st := 2, called := true, taken := true, parts := [bw.serial] }] },
    7, ({ id := 7, st := 2, called := true, taken := true, parts := [bw.serial] } : Flock), by decide +kernel⟩,
    ⟨{ upHead with flocks := [{ id := 7, st := 2, called := true }] }, flockMsg 2 [(2, 2, 7), (20, 8, 55)],
    ({ id := 7, st := 2, called := true } : Flock), by decide +kernel⟩,
    ⟨{ bw with flocks := [{ id := 7, st := 5, called := true, decided := some true, parts := [55, 9] }] }, flockMsg 2
    [(2, 2, 7), (20, 8, 55)], ({ id := 7, st := 5, called := true, decided := some true, parts := [55, 9] } : Flock),
    true, by decide +kernel⟩, ⟨{ upTile with flocks := [{ id := 7, st := 3, voted := true }] }, flockMsg 0x11 [(2, 2,
    7), (4, 8, 500), (12, 2, 100)], ({ id := 7, st := 3, voted := true } : Flock), by decide +kernel⟩,
    ⟨{ ((upTile.put F.MEM_CFG_CHANNELS 8).onTime fun x => { x with clock := 10 }) with flocks := [{ id := 7, st := 2, dv := 9 }] },
    7, ({ id := 7, st := 2, dv := 9 } : Flock), by decide +kernel⟩⟩

theorem witness_TransactionsAct : (∃ (s : State) (ctx : Fin 8) (r : JRec), (s.pwr.up = true) ∧ (s.boot.running = true)
    ∧ (s.host.peerJournal = []) ∧ (s.ring.mirrorUp = false) ∧ (s.txs.length = 8) ∧ (nextTicket (s.host.journal.filter
    fun r => r.ctx == ctx.val && r.epoch == s.host.epoch) = some r) ∧ (eOp r.entry = 0x18)) ∧ (∃ (s : State) (ctx :
    Fin 8) (r : JRec), (s.pwr.up = true) ∧ (s.boot.running = true) ∧ (s.host.peerJournal = []) ∧ (s.ring.mirrorUp =
    false) ∧ (s.txs.length = 8) ∧ ((s.tx ctx).opened = true) ∧ (nextTicket (s.host.journal.filter fun r => r.ctx ==
    ctx.val && r.epoch == s.host.epoch) = some r) ∧ (eOp r.entry = 0x1A)) ∧ (∃ (s : State) (ctx : Fin 8) (e : TxEnd)
    (v : Nat), (s.txs.length = 8) ∧ ((s.tx ctx).ended = [e]) ∧ (s.txDue e = true) ∧ (e.content = [(⟨none,
    F.FLOCK_GUARD.base, toLE 4 v⟩ : Wr)]) ∧ (100 ≤ v) ∧ (v ≤ 50000) ∧ (s.gatedReg F.FLOCK_GUARD.base = false)) ∧ (∃ (s
    : State) (ctx : Fin 8), (s.txs.length = 8) ∧ ((s.tx ctx).opened = true) ∧ ((s.tx ctx).openedAt + secU (s.f
    F.FLOCK_OPEN_LIMIT) < s.time.clock)) :=
⟨⟨withTicket (recOf (ent 0x18 [(24, 1, 1)]) [] 1), 0, recOf (ent 0x18 [(24, 1, 1)]) [] 1, by decide +kernel⟩,
    ⟨(withTicket (recOf (ent 0x1A) [] 1)).onTx 0 (fun x => { x with opened := true }), 0, recOf (ent 0x1A) [] 1,
    by decide +kernel⟩, ⟨(upTile.onTime fun x => { x with clock := secU 5 }).onTx 0 (fun x =>
    { x with ended := [⟨1, 1, 0, [⟨none, F.FLOCK_GUARD.base, toLE 4 700⟩], [4]⟩] }), 0, (⟨1, 1, 0, [⟨none,
    F.FLOCK_GUARD.base, toLE 4 700⟩], [4]⟩ : TxEnd), 700, by decide +kernel⟩, ⟨(upTile.onTime fun x =>
    { x with clock := secU 4000 }).onTx 7 (fun x => { x with opened := true }), 7, by decide +kernel⟩⟩

theorem witness_FrameInstantsAct : (∃ (s : State), (s.pwr.up = true) ∧ (s.isTile = true) ∧ (s.flocks = []) ∧
    (s.boot.expired = false) ∧ (s.swapDue = true)) ∧ (∃ (s : State) (bad : List (Nat × FlockPart)) (f : Flock) (v :
    Nat), (s.pwr.up = true) ∧ (s.isTile = true) ∧ (s.flocks = [f]) ∧ (f.due = true) ∧ (f.go = none) ∧ (s.applyInstant
    f ≤ max s.time.clock (s.swapAt s.nextFrame)) ∧ (f.content = [(⟨none, F.FLOCK_GUARD.base, toLE 4 v⟩ : Wr)]) ∧ (100
    ≤ v) ∧ (v ≤ 50000) ∧ (s.gatedReg F.FLOCK_GUARD.base = false) ∧ (f.latched = false) ∧ (bad = []) ∧ (s.boot.expired
    = false) ∧ (s.swapDue = true)) ∧ (∃ (s : State) (bad : List (Nat × FlockPart)) (f : Flock), (s.pwr.up = true) ∧
    (s.isTile = true) ∧ (s.flocks = [f]) ∧ (f.due = true) ∧ (s.applyInstant f ≤ max s.time.clock (s.swapAt
    s.nextFrame)) ∧ (s.boot.expired = false) ∧ (s.swapDue = true) ∧ (bad = [(f.id % shelf, .content)])) ∧ (∃ (s :
    State) (bad : List (Nat × FlockPart)) (f : Flock), (s.pwr.up = true) ∧ (s.isTile = true) ∧ (s.flocks = [f]) ∧
    (f.due = true) ∧ (s.applyInstant f ≤ max s.time.clock (s.swapAt s.nextFrame)) ∧ (bad = [(f.id % shelf, .record)])
    ∧ (s.boot.expired = false) ∧ (s.swapDue = true)) ∧ (∃ (s : State), (s.pwr.up = true) ∧ (s.slotDue = true)) ∧ (∃ (s
    : State), s.time.clock < s.swapAt (s.time.frame + 1)) ∧ (∃ (s : State), s.time.clock < s.slotAt s.time.frame
    s.nextSlot) ∧ (∃ (s : State), (s.isTile = true) ∧ (s.pwr.up = true) ∧ (s.flocks = []) ∧ (s.comp.latched ≠ some
    (s.timing.countAt (s.time.clock + usU (s.f F.COMP_LEAD)))) ∧ (s.time.stepped = true)) ∧ (∃ (s : State) (n : Nat),
    (s.isTile = true) ∧ (s.pwr.up = true) ∧ (s.flocks = []) ∧ (s.comp.latched = some n) ∧ (s.timing.swapAt n ≤
    s.time.clock + usU (s.f F.COMP_LEAD)) ∧ ((s.time.clock + usU (s.f F.COMP_LEAD) - s.timing.swapAt n) / (periodU
    s.timing.code / s.timing.slots) < s.timing.slots) ∧ (s.comp.slot ≠ some (n, (s.time.clock + usU (s.f F.COMP_LEAD)
    - s.timing.swapAt n) / (periodU s.timing.code / s.timing.slots)))) ∧ (∃ (s : State) (payload : Bytes), (s.pwr.up =
    true) ∧ (s.on iLINK = true) ∧ (s.isTile = true) ∧ (msgOk 0x20 payload = true) ∧ (s.comp.layers.length = 16)) ∧ (∃
    (s : State) (h : HMsg) (at_ : Nat) (v : Nat), (s.isBw = true) ∧ (s.on iLINK = true) ∧ (s.hurdleOf (s.tlayer
    0).posts s.wallFrame = some (at_, v, h)) ∧ (s.comp.layers.length = 16) ∧ ((s.comp.layers.drop 1).map TLayer.posts
    = List.replicate 15 [])) ∧ (∃ (s : State) (payload : Bytes), (s.pwr.up = true) ∧ (s.on iLINK = true) ∧ (s.isTile =
    true) ∧ (msgOk 0x21 payload = true) ∧ (s.comp.poses.length = 4)) ∧ (∃ (s : State) (p : PoseMsg) (at_ : Nat),
    (s.isBw = true) ∧ (s.on iLINK = true) ∧ (s.comp.posePosts.map (fun l => l.isEmpty) = [true, false, true, true]) ∧
    (s.poseOf (nth s.comp.posePosts 1 []) s.wallFrame = some (at_, p))) :=
⟨⟨upTile.onTime (fun x => { x with stepped := true, clock := secU 5 }), by decide +kernel⟩,
    ⟨{ (upTile.onTime fun x => { x with stepped := true, clock := secU 5 }) with flocks := [{ id := 7, st := 5, applyAt := some 0, content := [⟨none, F.FLOCK_GUARD.base, toLE 4 700⟩] }] },
    [], ({ id := 7, st := 5, applyAt := some 0, content := [⟨none, F.FLOCK_GUARD.base, toLE 4 700⟩] } : Flock), 700,
    by decide +kernel⟩,
    ⟨{ (upTile.onTime fun x => { x with stepped := true, clock := secU 5 }) with flocks := [{ id := 7, st := 5, applyAt := some 0, content := [⟨none, F.FLOCK_GUARD.base, toLE 4 700⟩] }] },
    [(7, .content)], ({ id := 7, st := 5, applyAt := some 0, content := [⟨none, F.FLOCK_GUARD.base, toLE 4 700⟩] } :
    Flock), by decide +kernel⟩,
    ⟨{ (upTile.onTime fun x => { x with stepped := true, clock := secU 5 }) with flocks := [{ id := 7, st := 5, applyAt := some 0, content := [⟨none, F.FLOCK_GUARD.base, toLE 4 700⟩] }] },
    [(7, .record)], ({ id := 7, st := 5, applyAt := some 0, content := [⟨none, F.FLOCK_GUARD.base, toLE 4 700⟩] } :
    Flock), by decide +kernel⟩, ⟨upTile.onTime (fun x => { x with stepped := true }), by decide +kernel⟩, ⟨upTile,
    by decide +kernel⟩, ⟨(upTile.onTime fun x => { x with stepped := true, frame := 7 }), by decide +kernel⟩,
    ⟨upTile.onTime (fun x => { x with stepped := true }), by decide +kernel⟩, ⟨upTile.onComp (fun x =>
    { x with latched := some 0 }), 0, by decide +kernel⟩, ⟨upTile, hurdleMsg 15 ⟨5, 6, 0, 0⟩, by decide +kernel⟩,
    ⟨bw.onTLayer 0 (fun y => { y with posts := [⟨5, 0, 0, 0⟩] }), (⟨5, 0, 0, 0⟩ : HMsg), 0, 5, by decide +kernel⟩,
    ⟨upTile, poseMsg 3 ⟨true, 5, 6, 7, 8, 0, 0⟩, by decide +kernel⟩, ⟨bw.onComp (fun c =>
    { c with posePosts := [[], [⟨true, 0, 6, 7, 8, 0, 0⟩], [], []] }), (⟨true, 0, 6, 7, 8, 0, 0⟩ : PoseMsg), 0,
    by decide +kernel⟩⟩

theorem witness_HandbackAndResync : (∃ (s : State), (s.isBw = true) ∧ (s.ring.handbackDue = true) ∧ (s.flocks = []) ∧
    (s.atSwap = true)) ∧ (∃ (s : State), (s.isHead = true) ∧ (s.on iLINK = true) ∧ (s.f F.RING_STATUS_STATE =
    hsResync)) ∧ (∃ (s : State) (base : Nat) (size : Nat), (s.isHead = true) ∧ (s.on iLINK = true) ∧ (s.f
    F.RING_STATUS_STATE = hsResync) ∧ (base ≠ s.clipBase ∨ size ≠ s.clipSize)) ∧ (∃ (s : State), (s.isHead = true) ∧
    (s.on iLINK = true) ∧ (s.f F.RING_STATUS_STATE = hsResync)) ∧ (∃ (s : State) (record : Bytes), (s.isHead = true) ∧
    (s.on iLINK = true) ∧ (s.f F.RING_STATUS_STATE = hsResync) ∧ (bitOf (le record 68 1) 3 = false)) ∧ (∃ (s : State),
    (s.isHead = true) ∧ (s.on iLINK = true) ∧ (s.f F.RING_STATUS_STATE = hsResync)) :=
⟨⟨(bw.onTime fun x => { x with stepped := true, clock := 0 }).onRing (fun r => { r with handbackDue := true }),
    by decide +kernel⟩, ⟨upHead.put F.RING_STATUS_STATE 3, by decide +kernel⟩, ⟨upHead.put F.RING_STATUS_STATE 3, 1,
    0, by decide +kernel⟩, ⟨upHead.put F.RING_STATUS_STATE 3, by decide +kernel⟩, ⟨upHead.put F.RING_STATUS_STATE 3,
    zeros 256, by decide +kernel⟩, ⟨upHead.put F.RING_STATUS_STATE 3, by decide +kernel⟩⟩

theorem witness_PortTrainingActs : (∃ (s : State) (port : Fin 7), (s.portPowered port = true) ∧ (s.portState port =
    psDisabled) ∧ (s.f F.PORTn_CFG_RATE_MAX port ≤ s.f F.PORTn_CFG_RATE_MIN port) ∧ (s.on iLINK = true) ∧ (s.inTest
    port = false)) ∧ (∃ (s : State) (port : Fin 7), (s.on iLINK = true) ∧ (s.portPowered port = true) ∧ (s.portState
    port = psDisabled) ∧ (s.f F.PORTn_CFG_RATE_MAX port ≤ s.f F.PORTn_CFG_RATE_MIN port) ∧ (s.inTest port = true)) ∧
    (∃ (s : State) (port : Fin 7), (s.portPowered port = true) ∧ (s.portState port = psDisabled) ∧ (s.f
    F.PORTn_CFG_RATE_MIN port < s.f F.PORTn_CFG_RATE_MAX port) ∧ (s.on iLINK = true)) ∧ (∃ (s : State) (port : Fin 7),
    (s.portPowered port = true) ∧ (s.on iLINK = true)) ∧ (∃ (s : State) (lane : Fin 28) (control : Nat) (status : Nat)
    (comp : Nat) (inverted : Bool), (s.on iLINK = true) ∧ (s.portPowered (lane.val / 4) = true) ∧ (s.portState
    (lane.val / 4) = psTrain) ∧ (s.link.lanes.length = 32) ∧ (control % 2 ^ 16 + 2 ^ 16 * (status % 2 ^ 16) + comp % 2
    ^ 32 = 2 ^ 32 - 1) ∧ (s.b F.LANEn_CTL_RX_POL_AUTO (lane.val + 4) = true ∨ s.b F.LANEn_CTL_RX_INVERT (lane.val + 4)
    = inverted)) ∧ (∃ (s : State) (lane : Fin 28) (control : Nat) (status : Nat) (comp : Nat) (inverted : Bool), (s.on
    iLINK = true) ∧ (s.portPowered (lane.val / 4) = true) ∧ (s.portState (lane.val / 4) = psTrain) ∧
    (s.link.lanes.length = 32) ∧ (control % 2 ^ 16 + 2 ^ 16 * (status % 2 ^ 16) + comp % 2 ^ 32 ≠ 2 ^ 32 - 1) ∧ (s.b
    F.LANEn_CTL_RX_POL_AUTO (lane.val + 4) = true ∨ s.b F.LANEn_CTL_RX_INVERT (lane.val + 4) = inverted)) ∧ (∃ (s :
    State) (lane : Fin 28) (inverted : Bool), (s.on iLINK = true) ∧ (s.portPowered (lane.val / 4) = true) ∧
    (s.portState (lane.val / 4) = psUp ∨ s.portState (lane.val / 4) = psLowRate) ∧ (s.b F.LANEn_CTL_RX_POL_AUTO
    (lane.val + 4) = true ∨ s.b F.LANEn_CTL_RX_INVERT (lane.val + 4) = inverted)) ∧ (∃ (s : State) (lane : Fin 28)
    (inverted : Bool), (s.on iLINK = true) ∧ (s.portPowered (lane.val / 4) = true) ∧ (s.b F.LANEn_CTL_RX_POL_AUTO
    (lane.val + 4) = false) ∧ (s.b F.LANEn_CTL_RX_INVERT (lane.val + 4) = !inverted)) ∧ (∃ (s : State) (port : Fin 7)
    (o : Nat), (s.on iLINK = true) ∧ (s.portState port = psDetect) ∧ ((s.port port).own = some o) ∧ (max o (s.port
    port).offer ≤ (s.port port).rateMin) ∧ (s.detectReady port = true)) ∧ (∃ (s : State) (port : Fin 7), (s.on iLINK =
    true) ∧ (s.portState port = psDetect) ∧ ((s.port port).own = none) ∧ (s.detectReady port = true)) ∧ (∃ (s : State)
    (port : Fin 7) (o : Nat), (s.on iLINK = true) ∧ (s.portState port = psDetect) ∧ (s.detectReady port = true) ∧
    ((s.port port).own = some o) ∧ ((s.port port).rateMin < max o (s.port port).offer)) ∧ (∃ (s : State) (port : Fin
    7), (s.on iLINK = true) ∧ (s.portState port = psTrain) ∧ (s.link.ports.length = 7) ∧ ((lanesOf port).all (fun n =>
    decide (3 ≤ (s.lane n).ready)) = true) ∧ ((s.port port).final = none)) ∧ (∃ (s : State) (port : Fin 7), (s.on
    iLINK = true) ∧ (s.portState port = psTrain) ∧ ((s.port port).final = some 0)) ∧ (∃ (s : State) (port : Fin 7),
    (s.on iLINK = true) ∧ (s.portState port = psTrain) ∧ (s.link.ports.length = 7) ∧
    (({ s.port port with failed := s.f F.PORTn_STATUS_RATE port :: (s.port port).failed } : Port).own.isSome = true) ∧
    ((s.port port).stateAt + nsMs (s.f F.PORT_TRAIN_TIMEOUT) < s.time.aon) ∧ (s.inTest port = false)) ∧ (∃ (s : State)
    (port : Fin 7), (s.on iLINK = true) ∧ (s.portState port = psTrain) ∧
    (({ s.port port with failed := s.f F.PORTn_STATUS_RATE port :: (s.port port).failed } : Port).own = none) ∧
    ((s.port port).stateAt + nsMs (s.f F.PORT_TRAIN_TIMEOUT) < s.time.aon)) ∧ (∃ (s : State) (port : Fin 7) (arrivals
    : List Nat), (s.on iLINK = true) ∧ (s.portState port = psAlign) ∧ (s.markersReady port = true) ∧ (s.onePartner
    port = true) ∧ (s.f F.PORTn_STATUS_RATE port = 0) ∧ (arrivals.length = 4) ∧ (∀ x ∈ arrivals, ∀ y ∈ arrivals, x ≤ y
    + 20480)) ∧ (∃ (s : State) (port : Fin 7) (arrivals : List Nat) (x : Nat) (y : Nat), (s.on iLINK = true) ∧
    (s.portState port = psAlign) ∧ (s.markersReady port = true) ∧ (s.f F.PORTn_STATUS_RATE port = 0) ∧
    (arrivals.length = 4) ∧ (x ∈ arrivals) ∧ (y ∈ arrivals) ∧ (y + 20480 < x)) ∧ (∃ (s : State) (port : Fin 7), (s.on
    iLINK = true) ∧ (s.portState port = psAlign) ∧ (s.markersReady port = true) ∧ (s.onePartner port = false)) ∧ (∃ (s
    : State) (port : Fin 7), (s.on iLINK = true) ∧ (s.portState port = psAlign) ∧ ((s.port port).stateAt + nsMs 10 <
    s.time.aon)) ∧ (∃ (s : State) (port : Fin 7), s.time.aon ≤ (s.port port).stateAt + nsMs (s.f
    F.PORT_TRAIN_TIMEOUT)) ∧ (∃ (s : State) (port : Fin 7), s.time.aon ≤ (s.port port).stateAt + nsMs 10) :=
⟨⟨upHead, 6, by decide +kernel⟩, ⟨upHead.put F.LANEn_PRBS_GEN_PAT 3 31, 6, by decide +kernel⟩, ⟨(upHead.put
    F.PORTn_CFG_RATE_MAX 2 6).put F.PORTn_CFG_RATE_MIN 0 6, 6, by decide +kernel⟩, ⟨upHead.put F.PORTn_STATUS_STATE
    psUp 0, 0, by decide +kernel⟩, ⟨upHead.put F.PORTn_STATUS_STATE psTrain 6, 27, 0x100, 8, 2 ^ 32 - 1 - 0x100 - 8 *
    2 ^ 16, false, by decide +kernel⟩, ⟨upHead.put F.PORTn_STATUS_STATE psTrain 6, 27, 0x100, 8, 0, false,
    by decide +kernel⟩, ⟨upHead.put F.PORTn_STATUS_STATE psUp 0, 3, false, by decide +kernel⟩, ⟨(upHead.put
    F.PORTn_STATUS_STATE psUp 0).put F.LANEn_CTL_RX_POL_AUTO 0 7, 3, true, by decide +kernel⟩, ⟨(((upHead.put
    F.PORTn_STATUS_STATE psDetect 0).onLink (fun l =>
    { l with lanes := l.lanes.map fun x => { x with valid := 3, sigAt := some 0 } })).onPort 0 (fun q =>
    { q with cfg := 16, offer := 1 })).onTime (fun x => { x with aon := 1000000 }), 0, 0, by decide +kernel⟩,
    ⟨(((upHead.put F.PORTn_STATUS_STATE psDetect 0).onLink (fun l =>
    { l with lanes := l.lanes.map fun x => { x with valid := 3, sigAt := some 0 } })).onPort 0 (fun q =>
    { q with cfg := 0, failed := [0] })).onTime (fun x => { x with aon := 1000000 }), 0, by decide +kernel⟩,
    ⟨(((upHead.put F.PORTn_STATUS_STATE psDetect 0).onLink (fun l =>
    { l with lanes := l.lanes.map fun x => { x with valid := 3, sigAt := some 0 } })).onPort 0 (fun q =>
    { q with cfg := 8, offer := 2 })).onTime (fun x => { x with aon := 1000000 }), 0, 0, by decide +kernel⟩,
    ⟨(upHead.put F.PORTn_STATUS_STATE psTrain 6).onLink (fun l =>
    { l with lanes := l.lanes.map fun x => { x with ready := 3 } }), 6, by decide +kernel⟩, ⟨(upHead.put
    F.PORTn_STATUS_STATE psTrain 6).onPort 6 (fun q => { q with final := some 0 }), 6, by decide +kernel⟩,
    ⟨((upHead.put F.PORTn_STATUS_STATE psTrain 6).onPort 6 (fun q => { q with cfg := 16 })).onTime (fun x =>
    { x with aon := 10 ^ 10 }), 6, by decide +kernel⟩, ⟨((upHead.put F.PORTn_STATUS_STATE psTrain 6).onPort 6 (fun q
    => { q with cfg := 0 })).onTime (fun x => { x with aon := 10 ^ 10 }), 6, by decide +kernel⟩, ⟨(upHead.put
    F.PORTn_STATUS_STATE psAlign 6).onLink (fun l =>
    { l with lanes := (List.range 32).map fun k => { mkRun := 2, marker := some 5, logical := 3 - k % 4, mkPort := 3 } }),
    6, [20487, 7, 8, 9], by decide +kernel⟩, ⟨(upHead.put F.PORTn_STATUS_STATE psAlign 6).onLink (fun l =>
    { l with lanes := (List.range 32).map fun k => { mkRun := 2, marker := some 5, logical := 3 - k % 4, mkPort := 3 } }),
    6, [20488, 7, 8, 9], 20488, 7, by decide +kernel⟩, ⟨(upHead.put F.PORTn_STATUS_STATE psAlign 6).onLink (fun l =>
    { l with lanes := (List.range 32).map fun k => { mkRun := 2, marker := some 5, logical := 0, mkPort := 3 } }), 6,
    by decide +kernel⟩, ⟨(upHead.put F.PORTn_STATUS_STATE psAlign 6).onTime (fun x => { x with aon := 10 ^ 10 }), 6,
    by decide +kernel⟩, ⟨upHead.put F.PORTn_STATUS_STATE psTrain 6, 6, by decide +kernel⟩, ⟨upHead.put
    F.PORTn_STATUS_STATE psAlign 6, 6, by decide +kernel⟩⟩

theorem witness_PortCheckActs : (∃ (s : State) (port : Fin 7), (s.on iLINK = true) ∧ (s.portState port = psCheck) ∧
    (s.due10 (s.port port).checkTx = true)) ∧ (∃ (s : State) (port : Fin 7), (s.on iLINK = true) ∧ (s.portState port =
    psCheck) ∧ (s.link.ports.length = 7) ∧ ((s.port port).gotIdent = true) ∧ ((s.port port).gotCap = true) ∧ (s.due10
    (s.port port).checkTx = true)) ∧ (∃ (s : State) (port : Fin 7) (block : Bytes), (s.on iLINK = true) ∧ (s.portState
    port = psCheck) ∧ (linkOk 1 block = true) ∧ (s.link.ports.length = 7) ∧ (kindsOk (s.portKind port) (le block 12 1)
    = true) ∧ (le block 2 8 ≠ s.serial)) ∧ (∃ (s : State) (port : Fin 7) (block : Bytes), (s.on iLINK = true) ∧
    (s.portState port = psCheck) ∧ (linkOk 1 block = true) ∧ (kindsOk (s.portKind port) (le block 12 1) = false ∨ le
    block 2 8 = s.serial)) ∧ (∃ (s : State) (port : Fin 7) (block : Bytes), (s.on iLINK = true) ∧ (s.portState port =
    psCheck) ∧ (linkOk 2 block = true) ∧ (s.link.ports.length = 7) ∧ (s.b F.RING_CFG_ENC_REQUIRED = false)) ∧ (∃ (s :
    State) (port : Fin 7) (block : Bytes), (s.on iLINK = true) ∧ (s.portState port = psCheck) ∧ (linkOk 2 block =
    true) ∧ (s.b F.RING_CFG_ENC_REQUIRED = true) ∧ (bitOf (le block 3 1) 0 = false)) ∧ (∃ (s : State) (port : Fin 7)
    (block : Bytes), (s.on iLINK = true) ∧ (s.portState port = psCheck) ∧ (linkOk 3 block = true) ∧
    (s.link.ports.length = 7) ∧ (le block 4 8 = s.serial) ∧ (bits (le block 3 1) 0 4 = s.rxPrecodeMap port) ∧ (bits
    (le block 3 1) 4 4 = s.txPrecodeMap port)) ∧ (∃ (s : State) (port : Fin 7) (block : Bytes), (s.on iLINK = true) ∧
    (s.portState port = psCheck) ∧ (linkOk 3 block = true) ∧ (le block 4 8 ≠ s.serial ∨ bits (le block 3 1) 0 4 ≠
    s.rxPrecodeMap port ∨ bits (le block 3 1) 4 4 ≠ s.txPrecodeMap port)) ∧ (∃ (s : State) (port : Fin 7), (s.on iLINK
    = true) ∧ (s.portState port = psCheck) ∧ ((s.port port).gotConfirm = true) ∧ ((s.port port).sentConfirm = true) ∧
    ((s.port port).encOn = false ∨ (nth s.ring.enc port {}).verified = true)) ∧ (∃ (s : State) (port : Fin 7), (s.on
    iLINK = true) ∧ (s.portState port = psCheck) ∧ ((s.port port).stateAt + nsMs 5 < s.time.aon)) ∧ (∃ (s : State)
    (port : Fin 7), s.time.aon ≤ (s.port port).stateAt + nsMs 5) ∧ (∃ (s : State) (port : Fin 7) (e : Nat),
    (s.link.ports.length = 7) ∧ ((s.port port).confirmEnd = some e) ∧ (e ≤ s.time.aon)) ∧ (∃ (s : State) (port : Fin
    7), (s.on iLINK = true) ∧ (s.portState port = psCheck) ∧ ((s.port port).encOn = true) ∧ ((s.port port).gotConfirm
    = true) ∧ ((s.port port).sentConfirm = true) ∧ ((s.enc port).own ≠ 0) ∧ ((s.enc port).keys = false) ∧ (s.due10
    (s.port port).keyxTx = true)) ∧ (∃ (s : State) (port : Fin 7) (body : Bytes), (s.on iLINK = true) ∧ (s.portState
    port = psCheck) ∧ ((s.port port).encOn = true) ∧ (linkOk 0x28 body = true) ∧ (s.ring.enc.length = 7)) ∧ (∃ (s :
    State) (port : Fin 7) (body : Bytes), (s.on iLINK = true) ∧ (s.portState port = psCheck) ∧ ((s.port port).encOn =
    true) ∧ ((s.enc port).keys = true) ∧ (linkOk 0x29 body = true) ∧ (s.ring.enc.length = 7)) :=
⟨⟨upHead.put F.PORTn_STATUS_STATE psCheck 6, 6, by decide +kernel⟩, ⟨(upHead.put F.PORTn_STATUS_STATE psCheck
    6).onPort 6 (fun q => { q with gotIdent := true, gotCap := true }), 6, by decide +kernel⟩, ⟨upHead.put
    F.PORTn_STATUS_STATE psCheck 5, 5, linkBlock 1 [(2, 8, 12345), (12, 1, 3)], by decide +kernel⟩, ⟨upHead.put
    F.PORTn_STATUS_STATE psCheck 5, 5, linkBlock 1 [(2, 8, 12345), (12, 1, 0)], by decide +kernel⟩, ⟨upHead.put
    F.PORTn_STATUS_STATE psCheck 5, 5, linkBlock 2 [(2, 1, 7), (3, 1, 1)], by decide +kernel⟩, ⟨(upHead.put
    F.PORTn_STATUS_STATE psCheck 5).put F.RING_CFG_ENC_REQUIRED 1, 5, linkBlock 2 [(2, 1, 7)], by decide +kernel⟩,
    ⟨upHead.put F.PORTn_STATUS_STATE psCheck 5, 5, linkBlock 3 [(4, 8, upHead.serial)], by decide +kernel⟩,
    ⟨upHead.put F.PORTn_STATUS_STATE psCheck 5, 5, linkBlock 3 [(3, 1, 1), (4, 8, upHead.serial)], by decide +kernel⟩,
    ⟨(upHead.put F.PORTn_STATUS_STATE psCheck 6).onPort 6 (fun q =>
    { q with gotConfirm := true, sentConfirm := true }), 6, by decide +kernel⟩, ⟨(upHead.put F.PORTn_STATUS_STATE
    psCheck 6).onTime (fun x => { x with aon := 10 ^ 10 }), 6, by decide +kernel⟩, ⟨upHead.put F.PORTn_STATUS_STATE
    psCheck 6, 6, by decide +kernel⟩, ⟨(upHead.onPort 6 (fun q => { q with confirmEnd := some 5 })).onTime (fun x =>
    { x with aon := 5 }), 6, 5, by decide +kernel⟩, ⟨((upHead.put F.PORTn_STATUS_STATE psCheck 6).onPort 6 (fun q =>
    { q with encOn := true, gotConfirm := true, sentConfirm := true })).onEnc 6 (fun e => { e with own := 4 }), 6,
    by decide +kernel⟩, ⟨(upHead.put F.PORTn_STATUS_STATE psCheck 6).onPort 6 (fun q => { q with encOn := true }), 6,
    linkBlock 0x28 [(2, 8, 77)], by decide +kernel⟩, ⟨((upHead.put F.PORTn_STATUS_STATE psCheck 6).onPort 6 (fun q =>
    { q with encOn := true })).onEnc 6 (fun e => { e with keys := true }), 6, linkBlock 0x29 [(2, 8, 77)],
    by decide +kernel⟩⟩

theorem witness_LaneEventsAct : (∃ (s : State) (lane : Fin 28), (s.on iLINK = true) ∧ (s.portLink (lane.val / 4) =
    true) ∧ (s.portPowered (lane.val / 4) = true)) ∧ (∃ (s : State) (lane : Fin 28) (marker : Bytes), (s.on iLINK =
    true) ∧ (missionState (s.portState (lane.val / 4)) = true) ∧ (s.link.lanes.length = 32) ∧ (s.markerGood (lane.val
    / 4) (lane.val + 4) marker = true)) ∧ (∃ (s : State) (lane : Fin 28) (marker : Bytes), (s.on iLINK = true) ∧
    (s.portLink (lane.val / 4) = true) ∧ (s.link.lanes.length = 32) ∧ (s.markerGood (lane.val / 4) (lane.val + 4)
    marker = false) ∧ ((s.lane (lane.val + 4)).missed = 1)) ∧ (∃ (s : State) (lane : Fin 28), (s.on iLINK = true) ∧
    (missionState (s.portState (lane.val / 4)) = true) ∧ (s.link.lanes.length = 32)) ∧ (∃ (s : State) (lane : Fin 28),
    (s.on iLINK = true) ∧ (s.portLink (lane.val / 4) = true) ∧ (s.link.lanes.length = 32) ∧ (3 ≤ ((s.lane (lane.val +
    4)).bad.filter fun x => decide ((s.lane (lane.val + 4)).codewords < x + 1024)).length)) ∧ (∃ (s : State) (port :
    Fin 7) (run : List Bytes) (block : Bytes), (s.on iLINK = true) ∧ (missionState (s.portState port) = true) ∧
    ((deframe [] ((run.map fun b => ⟨true, b⟩) ++ [⟨false, block⟩])).contains .fragment = true)) ∧ (∃ (s : State)
    (port : Fin 7), (s.on iLINK = true) ∧ (s.portState port = psFault) ∧ ((s.port port).holdEnd ≤ s.time.aon) ∧
    ((s.port port).autoRetrain = true ∨ (s.port port).armed = true) ∧ (s.inTest port = false)) ∧ (∃ (s : State) (port
    : Fin 7), (s.on iLINK = true) ∧ (s.portPowered port = true) ∧ (s.portState port ≠ psDisabled) ∧
    (s.link.ports.length = 7)) ∧ (∃ (s : State) (port : Fin 7), (s.pwr.up = true) ∧ (s.portPowered port = true)) ∧ (∃
    (s : State) (lane : Fin 32) (gen : Nat) (chk : Nat) (loopback : Nat), (s.lanePowered lane = true) ∧ (4 ≤ lane.val)
    ∧ (s.portState ((lane.val - 4) / 4) ≠ psDisabled) ∧ (s.f F.PORTn_CFG_RATE_MAX ((lane.val - 4) / 4) ≠ 2) ∧ (0 <
    gen) ∧ (gen < 7) ∧ (chk < 7) ∧ (loopback < 3) ∧ (s.on iLINK = true)) ∧ (∃ (s : State) (lane : Fin 32) (gen : Nat)
    (chk : Nat) (loopback : Nat), (s.lanePowered lane = true) ∧ (4 ≤ lane.val) ∧ (gen = 3 ∨ gen = 6) ∧ (chk < 7) ∧
    (loopback < 3) ∧ (s.on iLINK = true) ∧ (s.rateMax ((lane.val - 4) / 4) = 2)) ∧ (∃ (s : State) (lane : Fin 32),
    (s.lanePowered lane = true) ∧ (s.on iLINK = true)) ∧ (∃ (s : State) (lane : Fin 32) (symbols : List Nat) (bits :
    List Bool), (s.on iLINK = true) ∧ (s.testing lane = true) ∧ (s.f F.LANEn_CTL_LOOPBACK lane = 0) ∧ (s.f
    F.LANEn_PRBS_CHK_PAT lane ≠ 0) ∧ (s.link.lanes.length = 32) ∧ (bits = testBits (s.nrzLane lane) (isQ (s.f
    F.LANEn_PRBS_CHK_PAT lane)) (s.rxSymbols lane (s.nrzLane lane) symbols)) ∧ (s.patOff lane (s.f
    F.LANEn_PRBS_CHK_PAT lane) = false)) ∧ (∃ (s : State) (lane : Fin 32), (s.on iLINK = true) ∧ (s.lanePowered lane =
    true) ∧ (s.f F.LANEn_INJ_MODE lane = 1) ∧ (s.link.lanes.length = 32) ∧ (s.testing lane = true ∨ (4 ≤ lane.val ∧
    s.portUp ((lane.val - 4) / 4) = true))) ∧ (∃ (s : State) (lane : Fin 32), (s.on iLINK = true) ∧ (s.lanePowered
    lane = true) ∧ (s.f F.LANEn_INJ_MODE lane = 2) ∧ (s.link.lanes.length = 32) ∧ (s.testing lane = true ∨ (4 ≤
    lane.val ∧ s.portUp ((lane.val - 4) / 4) = true))) ∧ (∃ (s : State) (lane : Fin 32), (s.on iLINK = true) ∧
    (s.lanePowered lane = true) ∧ (s.f F.LANEn_INJ_MODE lane = 3) ∧ (s.link.lanes.length = 32) ∧ (s.testing lane =
    true ∨ (4 ≤ lane.val ∧ s.portUp ((lane.val - 4) / 4) = true)) ∧ (2 ^ clampN 10 40 (s.f F.LANEn_INJ_EXP lane) ≤
    (s.lane lane).symbols)) :=
⟨⟨upHead.put F.PORTn_STATUS_STATE psUp 6, 27, by decide +kernel⟩, ⟨upHead.put F.PORTn_STATUS_STATE psUp 6, 27,
    markerBytes 3 2 9 0, by decide +kernel⟩, ⟨(upHead.put F.PORTn_STATUS_STATE psUp 6).onLane 31 (fun l =>
    { l with missed := 1 }), 27, [], by decide +kernel⟩, ⟨upHead.put F.PORTn_STATUS_STATE psUp 6, 27,
    by decide +kernel⟩, ⟨(upHead.put F.PORTn_STATUS_STATE psUp 6).onLane 31 (fun l =>
    { l with bad := [0, 1, 2], codewords := 1023 }), 27, by decide +kernel⟩, ⟨upHead.put F.PORTn_STATUS_STATE psUp 6,
    6, List.replicate 17 (zeros 32), zeros 32, by decide +kernel⟩, ⟨(upHead.put F.PORTn_STATUS_STATE psFault 6).onPort
    6 (fun q => { q with cfg := 512 }), 6, by decide +kernel⟩, ⟨upHead.put F.PORTn_STATUS_STATE psUp 6, 6,
    by decide +kernel⟩, ⟨upHead, 6, by decide +kernel⟩, ⟨upHead.put F.PORTn_STATUS_STATE psUp 6, 31, 6, 6, 2,
    by decide +kernel⟩, ⟨upHead.put F.PORTn_CFG_RATE_MAX 2 6, 31, 6, 0, 0, by decide +kernel⟩, ⟨upHead.put
    F.LANEn_PRBS_ERR_LO 7 31, 31, by decide +kernel⟩, ⟨((upHead.put F.LANEn_PRBS_CHK_PAT 3 31).put
    F.PORTn_STATUS_STATE psTest 6).onLane 31 (fun l => { l with check := { fill := 13, lock := true } }), 31, [3, 0,
    3], testBits false true [3, 0, 3], by decide +kernel⟩, ⟨(upHead.put F.LANEn_INJ_MODE 1 3).put F.ETH_MODE_MODE 1,
    3, by decide +kernel⟩, ⟨((upHead.put F.LANEn_INJ_MODE 2 4).put F.LANEn_INJ_LEN 9 4).put F.PORTn_STATUS_STATE psUp
    0, 4, by decide +kernel⟩, ⟨(((upHead.put F.LANEn_INJ_MODE 3 31).put F.PORTn_STATUS_STATE psUp 6).onLane 31 (fun l
    => { l with symbols := 2 ^ 40 })), 31, by decide +kernel⟩⟩

theorem witness_CellsAct : (∃ (s : State) (port : Fin 7) (cell : Bytes), (s.on iLINK = true) ∧ (s.portUp port = true)
    ∧ (cell.length = 512) ∧ (s.sealed port = false) ∧ (cCheck cell = 2 ^ 64 - 1 - (crc64 (cell.take 504)).toNat)) ∧ (∃
    (s : State) (port : Fin 7) (cell : Bytes), (s.on iLINK = true) ∧ (s.portUp port = true) ∧ (cell.length = 512) ∧
    (s.sealed port = false) ∧ (cCheck cell ≠ (crc64 (cell.take 504)).toNat) ∧ (cCheck cell ≠ 2 ^ 64 - 1 - (crc64
    (cell.take 504)).toNat)) ∧ (∃ (s : State) (port : Fin 7) (cell : Bytes), (s.on iLINK = true) ∧ (s.portUp port =
    true) ∧ (cell.length = 512) ∧ (s.sealed port = false) ∧ (cCheck cell = (crc64 (cell.take 504)).toNat) ∧ (cHeaderOk
    cell = false)) ∧ (∃ (s : State) (port : Fin 7) (cell : Bytes), (s.on iLINK = true) ∧ (s.portUp port = true) ∧
    (s.isTile = true) ∧ (cell.length = 512) ∧ (s.sealed port = false) ∧ (cCheck cell = (crc64 (cell.take 504)).toNat)
    ∧ (cHeaderOk cell = true) ∧ (cVersion cell = 1) ∧ (cStream cell < 16) ∧ (s.ring.prefer = false) ∧ ((s.win (cStream
    cell) 0).synced = false) ∧ (s.comp.latched = none) ∧ (s.comp.layers.length = 16) ∧ ((s.tlayer (cStream
    cell)).frames = [])) ∧ (∃ (s : State) (port : Fin 7) (cell : Bytes), (s.on iLINK = true) ∧ (s.portUp port = true)
    ∧ (s.isTile = true) ∧ (cell.length = 512) ∧ (s.sealed port = false) ∧ (cCheck cell = (crc64 (cell.take
    504)).toNat) ∧ (cHeaderOk cell = true) ∧ (cVersion cell = 1) ∧ (cStream cell < 16) ∧ (s.ring.prefer = false) ∧
    ((s.win (cStream cell) 0).synced = true) ∧ ((s.win (cStream cell) 0).high = cTally cell) ∧ ((s.win (cStream cell)
    0).marks = [(cTally cell, cFilled cell, cCheck cell)]) ∧ (cFilled cell = false)) ∧ (∃ (s : State) (stream : Nat)
    (t0 : Nat) (t1 : Nat) (n : Nat) (c : Bytes), (s.isTile = true) ∧ (s.on iLINK = true) ∧ (stream = 16) ∧ ((s.win
    stream 0).gapAt = some t0) ∧ ((s.win stream 0).waiting = [(n, t1, c)]) ∧ (n = cTally c) ∧ (cLast c = false) ∧
    ((s.win stream 0).next < 2 ^ 32) ∧ (n < 2 ^ 32) ∧ (t0 + usU (s.f F.RING_TIMING_GAP_WAIT) < s.time.clock)) :=
⟨⟨upTile.put F.PORTn_STATUS_STATE psUp 1, 1, cellBody 3 false true true 5 1 0 0 4 7 [1, 2] ++ toLE 8 (2 ^ 64 - 1 -
    (crc64 (cellBody 3 false true true 5 1 0 0 4 7 [1, 2])).toNat), by decide +kernel, by decide +kernel,
    by decide +kernel, by decide +kernel, cCheck_inverted _ (by decide +kernel)⟩, ⟨upTile.put F.PORTn_STATUS_STATE
    psUp 1, 1, cellBody 3 false true true 5 1 0 0 4 7 [1, 2] ++ toLE 8 (crc64 (cellBody 3 false true true 5 1 0 0 4 7
    [1, 2]) ^^^ 1).toNat, by decide +kernel, by decide +kernel, by decide +kernel, by decide +kernel, (cCheck_turned _
    (by decide +kernel)).1, (cCheck_turned _ (by decide +kernel)).2⟩, ⟨upTile.put F.PORTn_STATUS_STATE psUp 1, 1,
    sealCell (zeros 504), by decide +kernel, by decide +kernel, by decide +kernel, by decide +kernel, cCheck_sealCell
    _ (by decide +kernel), by decide +kernel⟩, ⟨upTile.put F.PORTn_STATUS_STATE psUp 1, 1, layerCell,
    by decide +kernel, by decide +kernel, by decide +kernel, by decide +kernel, by decide +kernel, cCheck_sealCell _
    (by decide +kernel), by decide +kernel, by decide +kernel, by decide +kernel, by decide +kernel,
    by decide +kernel, by decide +kernel, by decide +kernel, by decide +kernel⟩, ⟨(upTile.put F.PORTn_STATUS_STATE
    psUp 1).onRing fun r =>
    { r with wins := [{ stream := 15, src := 0, synced := true, high := 5, marks := [(5, false, cCheck layerCell)] }] },
    1, layerCell, by decide +kernel, by decide +kernel, by decide +kernel, by decide +kernel, by decide +kernel,
    cCheck_sealCell _ (by decide +kernel), by decide +kernel, by decide +kernel, by decide +kernel, by decide +kernel,
    by decide +kernel, by decide +kernel, by rw [show cStream layerCell = 15 by decide +kernel, show cTally layerCell
    = 5 by decide +kernel, show cFilled layerCell = false by decide +kernel]; simp [State.win, State.onRing],
    by decide +kernel⟩, ⟨(upTile.onTime fun x => { x with clock := secU 1 }).setWin gapWin, 16, 0, 0, 9, cellBody 16
    false true false 9 1 0 0 4 7 [1, 2], by decide +kernel⟩⟩

theorem witness_WallActs : (∃ (s : State) (r : Nat) (rest : List Nat), (s.pwr.up = true) ∧ (s.isBw = true) ∧
    (s.ringsUsed = r :: rest)) ∧ (∃ (s : State) (port : Fin 7) (body : Bytes), (s.on iLINK = true) ∧ (s.portUp port =
    true) ∧ (linkOk 0x20 body = true) ∧ (s.isTile = true) ∧ (port.val = bits (le body 7 1) 0 1) ∧ (s.ring.enumerated =
    false) ∧ (le body 3 1 < 192) ∧ (le body 4 2 + le body 3 1 < 1024) ∧ (le body 2 1 < 6)) ∧ (∃ (s : State) (r : Nat)
    (x : Nat), (s.isBw = true) ∧ (s.ring.wave = some (r, 0, x)) ∧ (x + 2420000 < s.time.aon)) ∧ (∃ (s : State) (port :
    Fin 7), (s.isHead = true) ∧ (s.on iLINK = true) ∧ (s.portUp port = true) ∧ (s.ring.wave = none)) ∧ (∃ (s : State),
    (s.isTile = true) ∧ (s.on iLINK = true) ∧ (s.ring.late = true) ∧ (s.ring.joinAt = none)) ∧ (∃ (s : State) (x :
    Nat), (s.isTile = true) ∧ (s.on iLINK = true) ∧ (s.ring.late = true) ∧ (s.ring.joinAt = some x) ∧ (x + 1000000 ≤
    s.time.aon)) ∧ (∃ (s : State) (port : Fin 7), (s.isBw = true) ∧ (s.on iLINK = true) ∧ (s.portUp port = true) ∧
    (s.ring.tiles = []) ∧ (s.ring.held = []) ∧ (s.ringPorts.contains port.val = true) ∧ (port.val ≠ 6)) ∧ (∃ (s :
    State) (payload : Bytes), (s.on iLINK = true) ∧ (s.isTile = true) ∧ (le payload 8 8 = s.serial) ∧ (le payload 1 1
    < 6) ∧ (0 < le payload 2 1)) ∧ (∃ (s : State) (serial : Nat) (x : TileRec), (s.isBw = true) ∧ (s.ring.tiles.find?
    (fun t => t.serial == serial && t.present) = some x) ∧ (x.lastHealth + 1000000000 < s.time.aon)) ∧ (∃ (s : State),
    (s.isBw = true) ∧ (s.on iLINK = true)) ∧ (∃ (s : State), (s.on iLINK = true) ∧ (s.isTile = true)) ∧ (∃ (s :
    State), (s.on iLINK = true) ∧ (s.isTile = true)) ∧ (∃ (s : State) (payload : Bytes), (s.on iLINK = true) ∧
    (s.isTile = true) ∧ (le payload 0 1 = 5)) :=
⟨⟨bw.put F.RING_PORTMAP_MAP 0o7777700, 0, [], by decide +kernel⟩, ⟨upTile.put F.PORTn_STATUS_STATE psUp 1, 1,
    linkBlock 0x20 [(2, 1, 5), (3, 1, 191), (4, 2, 832), (6, 1, 9), (7, 1, 1)], by decide +kernel⟩, ⟨(bw.onRing (fun q
    => { q with wave := some (3, 0, 0) })).onTime fun q => { q with aon := 2420001 }, 3, 0, by decide +kernel⟩,
    ⟨bw.put F.PORTn_STATUS_STATE psUp 1, 1, by decide +kernel⟩, ⟨upTile.onRing fun q => { q with late := true },
    by decide +kernel⟩, ⟨(upTile.onRing fun q => { q with late := true, joinAt := some 5 }).onTime fun q =>
    { q with aon := 1000005 }, 5, by decide +kernel⟩, ⟨(bw.put F.PORTn_STATUS_STATE psUp 1).put F.RING_PORTMAP_MAP 0,
    1, by decide +kernel⟩, ⟨upTile, mkMsg 16 [(0, 1, 4), (1, 1, 5), (2, 1, 192), (3, 1, 8), (8, 8, upTile.serial)],
    by decide +kernel⟩, ⟨(bw.onRing (fun q => { q with tiles := [{ serial := 7, ring := 0, hop := 1 }] })).onTime fun
    q => { q with aon := 1000000001 }, 7, ({ serial := 7, ring := 0, hop := 1 } : TileRec), by decide +kernel⟩, ⟨bw,
    by decide +kernel⟩, ⟨upTile, by decide +kernel⟩, ⟨upTile, by decide +kernel⟩, ⟨upTile.setWin
    { stream := 16, src := 0, synced := true }, [5, 0], by decide +kernel⟩⟩

theorem witness_HeadsAct : (∃ (s : State), (s.isHead = true) ∧ (s.on iLINK = true)) ∧ (∃ (s : State) (port : Fin 7) (h
    : Hello), (s.isHead = true) ∧ (s.on iLINK = true) ∧ (s.portUp port = true) ∧ (s.f F.RING_STATUS_STATE =
    hsElecting) ∧ (h.state ≠ hsBellwether) ∧ (headWins s.prio s.serial h.prio h.serial = true) ∧ (s.ring.verdict =
    none) ∧ (s.ring.peerInc ≠ some h.incarnation)) ∧ (∃ (s : State) (port : Fin 7) (h : Hello), (s.isHead = true) ∧
    (s.on iLINK = true) ∧ (s.portUp port = true) ∧ (s.f F.RING_STATUS_STATE = hsElecting) ∧ (h.state = hsBellwether ∨
    headWins s.prio s.serial h.prio h.serial = false) ∧ (s.ring.verdict = none) ∧ (s.ring.peerInc ≠ some
    h.incarnation)) ∧ (∃ (s : State) (port : Fin 7) (h : Hello), (s.isHead = true) ∧ (s.on iLINK = true) ∧ (s.portUp
    port = true) ∧ (s.f F.RING_STATUS_STATE = hsBellwether) ∧ (h.state = hsBellwether) ∧ (headWins s.prio s.serial
    h.prio h.serial = false) ∧ (s.ring.verdict = none) ∧ (s.ring.peerInc ≠ some h.incarnation)) ∧ (∃ (s : State) (x :
    Nat), (s.isHead = true) ∧ (s.pwr.up = true) ∧ (s.f F.RING_STATUS_STATE = hsElecting) ∧ (s.ring.peer = none) ∧
    (s.ring.firstUp = some x) ∧ (x + 200000000 < s.time.aon)) ∧ (∃ (s : State), s.isBw = true) ∧ (∃ (s : State) (c :
    Nat × Bytes) (rest : List (Nat × Bytes)), (s.ring.copies = c :: rest) ∧ (c.1 + 20000 < s.time.aon)) ∧ (∃ (s :
    State) (c : Nat × Bytes) (rest : List (Nat × Bytes)), (s.ring.copies = c :: rest) ∧ (s.time.aon ≤ c.1 + 20000)) ∧
    (∃ (s : State) (stream : Fin 22) (frame : Nat) (d : SentCells), (s.isHead = true) ∧ (stream.val ≠ 17) ∧
    (s.ring.sent.find? (fun d => d.stream == stream.val && d.frame == frame) = some d) ∧ ((s.ring.peerDigests.find?
    fun b => b.stream == d.stream && b.frame == d.frame) = none)) ∧ (∃ (s : State) (stream : Fin 22) (frame : Nat),
    (s.isHead = true) ∧ (stream.val ≠ 17) ∧ (s.ring.sent.find? (fun d => d.stream == stream.val && d.frame == frame) =
    none) ∧ ((s.ring.ownDigests.any fun d => d.stream == stream.val && d.frame == frame) = false) ∧
    ((s.ring.peerDigests.find? fun b => b.stream == stream.val && b.frame == frame) = none)) ∧ (∃ (s : State) (entry :
    Bytes), (s.isHead = true) ∧ (s.pwr.up = true) ∧ ((s.ring.ownDigests.find? fun d => d.stream == le entry 0 1 &&
    d.frame == le entry 4 4) = none)) ∧ (∃ (s : State) (entry : Bytes) (a : Digest), (s.isBw = true) ∧ (s.pwr.up =
    true) ∧ ((s.ring.ownDigests.find? fun d => d.stream == le entry 0 1 && d.frame == le entry 4 4) = some a) ∧
    (s.ring.peer = none) ∧ (s.ring.misruns = []) ∧ (a.at_ = s.time.clock) ∧ (a.count ≠ 0) ∧ (le entry 8 4 ≠ 0) ∧
    (a.filled = false) ∧ (bitOf (le entry 1 1) 0 = false) ∧ (a.sum ≠ le entry 16 8)) ∧ (∃ (s : State), (s.isHead =
    true) ∧ (s.pwr.up = true) ∧ (s.f F.RING_STATUS_STATE = hsStandby) ∧ (s.ring.lastHello + 1000 * s.f
    F.RING_TIMING_HEAD_LOSS_TIME < s.time.aon)) ∧ (∃ (s : State), (s.isHead = true) ∧ (s.pwr.up = true) ∧ (s.time.aon
    ≤ s.ring.lastDirect + 1000 * s.f F.RING_TIMING_HEAD_LOSS_TIME) ∧ (s.time.aon ≤ s.ring.lastHello + 1000 * s.f
    F.RING_TIMING_HEAD_LOSS_TIME)) ∧ (∃ (s : State), (s.isHead = true) ∧ (s.f F.RING_STATUS_STATE = hsDemoted) ∧
    (s.bist.lastFault = none)) ∧ (∃ (s : State), (s.isHead = true) ∧ (s.f F.RING_STATUS_STATE = hsResync) ∧ (s.portUp
    6 = true) ∧ (3 ≤ s.ring.resyncPhase) ∧ (s.time.needStep = false) ∧ (s.f F.TIME_ERR ≤ 100000) ∧ (s.b
    F.MEM_STATUS_PEER_MISMATCH = false) ∧ (s.resyncFollowed = true)) ∧ (∃ (s : State) (h : PeerHead), (s.isBw = true)
    ∧ (s.ring.peer = some h) ∧ (headWins h.prio h.serial s.prio s.serial = true) ∧ (h.clean = true) ∧ (h.state =
    hsStandby) ∧ (s.f F.RING_CFG_RETURN = 2) ∧ (s.ring.returned = true)) ∧ (∃ (s : State) (h : PeerHead), (s.pwr.up =
    true) ∧ (s.isBw = true) ∧ (s.ring.peer = some h) ∧ (h.clean = true) ∧ (h.state = hsStandby)) ∧ (∃ (s : State),
    s.pwr.up = true) :=
⟨⟨upHead, by decide +kernel⟩, ⟨upHead.put F.PORTn_STATUS_STATE psUp 6, 6, (⟨0, 0, 1, 5, 0, true, true, 0, 3, false,
    none, [], none, []⟩ : Hello), by decide +kernel⟩, ⟨upHead.put F.PORTn_STATUS_STATE psUp 6, 6, (⟨0, 1, 1, 5, 0,
    true, true, 0, 3, false, none, [], none, []⟩ : Hello), by decide +kernel⟩, ⟨(bw.put F.BOOT_STRAPS_ROLE 2).put
    F.PORTn_STATUS_STATE psUp 6, 6, (⟨0, 1, 0, 5, 0, true, true, 0, 3, false, none, [], none, []⟩ : Hello),
    by decide +kernel⟩, ⟨(upHead.onRing fun q => { q with firstUp := some 4 }).onTime fun q =>
    { q with aon := 200000005 }, 4, by decide +kernel⟩, ⟨bw.onRing (fun q =>
    { q with copies := [(0, sealCell (cellBody 16 false true true 5 1 0 0 4 7 [1]))] }), by decide +kernel⟩,
    ⟨(bw.onRing (fun q => { q with copies := [(0, [1])] })).onTime fun q => { q with aon := 20001 }, (0, [1]), [],
    by decide +kernel⟩, ⟨bw.onRing (fun q => { q with copies := [(0, [1])] }), (0, [1]), [], by decide +kernel⟩,
    ⟨bw.onRing (fun q => { q with sent := [⟨16, 7, false, [(3, [1, 2])]⟩] }), 16, 7, (⟨16, 7, false, [(3, [1, 2])]⟩ :
    SentCells), by decide +kernel⟩, ⟨bw, 16, 7, by decide +kernel⟩, ⟨bw, mkMsg 24 [(0, 1, 16), (4, 4, 7), (8, 4, 3),
    (16, 8, 55)], by decide +kernel⟩, ⟨bw.onRing (fun q => { q with ownDigests := [⟨16, 7, false, 3, 44, 0⟩] }), mkMsg
    24 [(0, 1, 16), (4, 4, 7), (8, 4, 3), (16, 8, 55)], (⟨16, 7, false, 3, 44, 0⟩ : Digest), by decide +kernel⟩,
    ⟨(upHead.put F.RING_STATUS_STATE hsStandby).onTime fun q => { q with aon := secU 4 }, by decide +kernel⟩,
    ⟨(upHead.put F.RING_STATUS_STATE hsStandby).put F.RING_TIMING_HEAD_LOSS_TIME 1000, by decide +kernel⟩, ⟨upHead.put
    F.RING_STATUS_STATE hsDemoted, by decide +kernel⟩, ⟨((((upHead.put F.RING_STATUS_STATE hsResync).put
    F.PORTn_STATUS_STATE psUp 6).onRing (fun q =>
    { q with resyncPhase := 3, resyncSince := some 5, resyncSeen := [(5, 1), (6, 1), (7, 1)] })).onRing (fun q =>
    { q with ownDigests := [⟨1, 5, false, 1, 0, 0⟩, ⟨1, 6, false, 1, 0, 0⟩, ⟨1, 7, false, 1, 0, 0⟩] })).onTime fun x
    => { x with needStep := false, frame := 8 }, by decide +kernel⟩, ⟨((bw.put F.BOOT_STRAPS_ROLE 2).put
    F.RING_CFG_RETURN 2).onRing (fun q =>
    { q with returned := true, peer := some ⟨2, 0, 5, 0, true, true, 0, 3, false, 0⟩ }), (⟨2, 0, 5, 0, true, true, 0,
    3, false, 0⟩ : PeerHead), by decide +kernel⟩, ⟨bw.onRing (fun q =>
    { q with peer := some ⟨2, 0, 5, 0, true, true, 0, 3, false, 0⟩ }), (⟨2, 0, 5, 0, true, true, 0, 3, false, 0⟩ :
    PeerHead), by decide +kernel⟩, ⟨upHead.put F.RING_TAKEOVERS 3, by decide +kernel⟩⟩

theorem witness_ClockCommandsAct : (∃ (s : State), s.on iTIME = true) ∧ (∃ (s : State), (s.on iTIME = true) ∧ (s.isBw
    = false)) ∧ (∃ (s : State), (s.on iTIME = true) ∧ (s.isBw = true) ∧ (s.f F.TIME_CFG_MODE = 0)) ∧ (∃ (s : State),
    s.on iTIME = true) ∧ (∃ (s : State), (s.on iTIME = true) ∧ (s.isBw = true) ∧ (s.ring.start = false) ∧ (s.f
    F.TIME_CFG_MODE = 0 ∨ s.time.refOk = false)) ∧ (∃ (s : State) (rising : Bool) (l : Nat) (n : Nat), (s.on iTIME =
    true) ∧ (s.isHead = true) ∧ (s.f F.TIME_CFG_MODE = 1) ∧ (rising = !(s.b F.TIME_CFG_PPS_EDGE)) ∧ (s.time.ppsLast =
    some l) ∧ (s.time.refOk = true) ∧ (n = max 1 ((s.time.clock - l + msU 500) / secU 1)) ∧ (s.time.clock - l + usU 10
    < secU n ∨ secU n + usU 10 < s.time.clock - l)) ∧ (∃ (s : State) (rising : Bool) (l : Nat), (s.on iTIME = true) ∧
    (s.isHead = true) ∧ (s.f F.TIME_CFG_MODE = 1) ∧ (rising = !(s.b F.TIME_CFG_PPS_EDGE)) ∧ (s.time.ppsLast = some l)
    ∧ (s.time.refOk = false) ∧ (s.time.ppsGood = 2) ∧ (s.isBw = false) ∧ (secU 1 ≤ s.time.clock - l + usU 250) ∧
    (s.time.clock - l ≤ secU 1 + usU 250)) ∧ (∃ (s : State) (l : Nat), (s.on iTIME = true) ∧ (s.isHead = true) ∧ (s.f
    F.TIME_CFG_MODE = 1) ∧ (s.time.refOk = true) ∧ (s.time.ppsLast = some l) ∧ (l + msU 2500 < s.time.clock)) ∧ (∃ (s
    : State) (a : Fin 32), (s.on iTIME = true) ∧ (s.f F.TIME_ALARMa_CTL_MODE a = 0) ∧ (s.time.alarms.length = 32) ∧
    (s.time.clock ≤ s.alarmTarget a)) ∧ (∃ (s : State) (a : Fin 32), (s.on iTIME = true) ∧ (s.f F.TIME_ALARMa_CTL_MODE
    a = 0) ∧ (s.time.alarms.length = 32) ∧ (s.alarmTarget a < s.time.clock)) ∧ (∃ (s : State) (a : Fin 32) (x : Int),
    (s.on iTIME = true) ∧ ((s.alarm a).armed = true) ∧ (s.alarmInstant a = some x) ∧ (((s.alarm a).since : Int) < x))
    ∧ (∃ (s : State) (a : Fin 32) (e : Nat), (s.time.alarms.length = 32) ∧ ((s.alarm a).pulseEnd = some e) ∧ (e ≤
    s.time.clock)) ∧ (∃ (s : State) (a : Fin 32), ((s.alarm a).armed = true) ∧ (s.alarmDue a = false)) ∧ (∃ (s :
    State) (a : Fin 32) (e : Nat), ((s.alarm a).pulseEnd = some e) ∧ (s.time.clock < e)) :=
⟨⟨upTile.onTime (fun x => { x with clock := secU 7 + 99 }), by decide +kernel⟩, ⟨upTile.onTime (fun x =>
    { x with needStep := false, refOk := true }), by decide +kernel⟩, ⟨bw, by decide +kernel⟩, ⟨upTile.put F.TIME_HELD
    5, by decide +kernel⟩, ⟨bw.put F.TIME_SET_SEC_LO 9, by decide +kernel⟩, ⟨(bw.put F.TIME_CFG_MODE 1).onTime (fun x
    => { x with refOk := true, ppsLast := some 0, clock := secU 2 + usU 11 }), true, 0, 2, by decide +kernel⟩,
    ⟨(upHead.put F.TIME_CFG_MODE 1).onTime (fun x =>
    { x with ppsGood := 2, ppsLast := some 0, clock := secU 1 + usU 250 }), true, 0, by decide +kernel⟩, ⟨(bw.put
    F.TIME_CFG_MODE 1).onTime (fun x => { x with refOk := true, ppsLast := some 0, clock := secU 3 }), 0,
    by decide +kernel⟩, ⟨upTile.put F.TIME_ALARMa_SEC 9 31, 31, by decide +kernel⟩, ⟨upTile.onTime (fun x =>
    { x with clock := secU 1 }), 31, by decide +kernel⟩, ⟨((upTile.onAlarm 31 (fun x => { x with armed := true })).put
    F.TIME_ALARMa_SEC 9 31).onTime fun x => { x with clock := secU 9 }, 31, ((secU 9 : Nat) : Int),
    by decide +kernel⟩, ⟨(upTile.onAlarm 31 (fun x => { x with pulseEnd := some 4 })).onTime fun x =>
    { x with clock := 4 }, 31, 4, by decide +kernel⟩, ⟨(upTile.onAlarm 31 (fun x =>
    { x with armed := true, since := secU 10 })).put F.TIME_ALARMa_SEC 9 31, 31, by decide +kernel⟩, ⟨upTile.onAlarm
    31 (fun x => { x with pulseEnd := some 4 }), 31, 4, by decide +kernel⟩⟩

theorem witness_TimeDistributionActs : (∃ (s : State) (port : Fin 7), (s.on iLINK = true) ∧ (s.portLink port = true) ∧
    (s.time.pd.length = 7)) ∧ (∃ (s : State) (port : Fin 7) (body : Bytes), (s.on iLINK = true) ∧ (s.portLink port =
    true) ∧ (linkOk 0x10 body = true)) ∧ (∃ (s : State) (port : Fin 7) (body : Bytes) (t1 : Nat), (s.on iLINK = true)
    ∧ (s.portLink port = true) ∧ (linkOk 0x11 body = true) ∧ (s.time.pd.length = 7) ∧ ((s.pdp port).t1 = some t1) ∧
    (le body 2 2 = (s.pdp port).seq) ∧ ((s.pdp port).heldSamples = []) ∧ ((s.pdp port).hist = []) ∧ (s.pdExpired port
    t1 = false)) ∧ (∃ (s : State) (port : Fin 7) (t1 : Nat), (s.time.pd.length = 7) ∧ ((s.pdp port).t1 = some t1) ∧
    (s.pdExpired port t1 = true)) ∧ (∃ (s : State) (port : Fin 7), (s.on iTIME = true) ∧ (s.on iLINK = true) ∧
    (s.portSends port = true) ∧ (port = 6 ∨ s.ringPorts.contains port.val = true) ∧ (s.muted = false) ∧
    (s.time.pd.length = 7)) ∧ (∃ (s : State) (port : Fin 7) (cell : Bytes), (s.on iTIME = true) ∧ (s.on iLINK = true)
    ∧ (s.portUp port = true) ∧ (s.sealed port = false) ∧ (s.time.pd.length = 7) ∧ (cCheck cell = (crc64 (cell.take
    504)).toNat) ∧ (cHeaderOk cell = true) ∧ (cVersion cell = 1) ∧ (cStream cell = 17) ∧ (bitOf (le (cPayload cell) 1
    1) 0 = false)) ∧ (∃ (s : State) (cell : Bytes), (s.on iTIME = true) ∧ (s.on iLINK = true) ∧ (s.portUp 0 = true) ∧
    (s.sealed 0 = false) ∧ (s.isTile = true) ∧ (s.b F.RING_TILE_STATUS_BW_EAST = false) ∧ (s.time.pd.length = 7) ∧
    (s.time.needStep = true) ∧ (s.b F.TIME_PORTp_PDSTAT_VALID 0 = true) ∧ (cCheck cell = (crc64 (cell.take
    504)).toNat) ∧ (cHeaderOk cell = true) ∧ (cVersion cell = 1) ∧ (cStream cell = 17) ∧ (bitOf (le (cPayload cell) 1
    1) 0 = true) ∧ (le (cPayload cell) 2 1 = s.time.tgen)) ∧ (∃ (s : State) (m : PtpAnnounce) (q : Foreign), (s.ptpOn
    = true) ∧ (s.f F.TIME_CFG_MODE = 2) ∧ (s.time.ptp.foreign = [q]) ∧ (q.id = m.master) ∧ (q.count = 1) ∧ (m.best =
    true) ∧ (m.cls < 256) ∧ (m.domain = s.f F.TIME_PTP_CFG_DOMAIN)) ∧ (∃ (s : State) (q : Foreign), (s.isHead = true)
    ∧ (s.on iTIME = true) ∧ (s.ptpOn = true) ∧ (s.f F.TIME_CFG_MODE = 2) ∧ (s.time.ptp.foreign = [q]) ∧ (q.last +
    s.announceLimit < s.time.aon)) ∧ (∃ (s : State) (m : PtpSync), (s.ptpOn = true) ∧ (s.f F.TIME_CFG_MODE = 2) ∧
    (s.time.ptp.master = some m.master) ∧ (s.time.refOk = false) ∧ (m.domain = s.f F.TIME_PTP_CFG_DOMAIN)) ∧ (∃ (s :
    State), (s.ptpOn = true) ∧ (s.f F.TIME_CFG_MODE = 2)) ∧ (∃ (s : State) (seq : Nat) (t3 : Nat) (d : Int), (s.ptpOn
    = true) ∧ (seq = s.time.ptp.reqSeq) ∧ (s.b F.TIME_PTP_CFG_DELAY = false) ∧ (s.time.ptp.reqT = some t3) ∧
    (s.time.ptp.syncDelta = some d)) ∧ (∃ (s : State) (seq : Nat) (t1 : Nat), (s.ptpOn = true) ∧ (seq =
    s.time.ptp.reqSeq) ∧ (s.b F.TIME_PTP_CFG_DELAY = true) ∧ (s.time.ptp.reqT = some t1)) ∧ (∃ (s : State), (s.ptpOn =
    true) ∧ (s.b F.TIME_PTP_CFG_DELAY = true)) ∧ (∃ (s : State), (s.ptpOn = true) ∧ (s.f F.TIME_CFG_MODE = 1) ∧
    (s.ptpParent = none)) :=
⟨⟨upTile.put F.PORTn_STATUS_STATE psUp 1, 1, by decide +kernel⟩, ⟨upTile.put F.PORTn_STATUS_STATE psUp 1, 1, linkBlock
    0x10 [(2, 2, 9)], by decide +kernel⟩, ⟨(upTile.put F.PORTn_STATUS_STATE psUp 1).onPd 1 (fun p =>
    { p with t1 := some 0 }), 1, linkBlock 0x11 [(4, 6, 9), (10, 6, 10)], 0, by decide +kernel⟩, ⟨(upTile.onPd 6 (fun
    p => { p with t1 := some 5 })).onTime fun x => { x with clock := msU 1 }, 6, 5, by decide +kernel⟩, ⟨upTile.put
    F.PORTn_STATUS_STATE psUp 1, 1, by decide +kernel⟩, ⟨upTile.put F.PORTn_STATUS_STATE psUp 1, 1, sealCell (cellBody
    17 false true true 5 0 0 0 42 7 [1, 0]), by decide +kernel, by decide +kernel, by decide +kernel,
    by decide +kernel, by decide +kernel, cCheck_sealCell _ (by decide +kernel), by decide +kernel, by decide +kernel,
    by decide +kernel, by decide +kernel⟩, ⟨(upTile.put F.PORTn_STATUS_STATE psUp 0).put F.TIME_PORTp_PDSTAT_VALID 1
    0, sealCell (cellBody 17 false true true 5 0 0 0 42 7 (mkMsg 42 [(0, 1, 1), (1, 1, 1), (16, 6, 77), (22, 4, 5)])),
    by decide +kernel, by decide +kernel, by decide +kernel, by decide +kernel, by decide +kernel, by decide +kernel,
    by decide +kernel, by decide +kernel, by decide +kernel, cCheck_sealCell _ (by decide +kernel), by decide +kernel,
    by decide +kernel, by decide +kernel, by decide +kernel, by decide +kernel⟩, ⟨((((upHead.put F.ETH_MODE_MODE
    1).put F.TIME_PTP_CFG_ENABLE 1).put F.TIME_CFG_MODE 2).onPtp fun p => { p with foreign := [⟨5, 1, 0, 6, true⟩] }),
    (⟨127, 5, 6, 37, true, false, false, true⟩ : PtpAnnounce), (⟨5, 1, 0, 6, true⟩ : Foreign), by decide +kernel⟩,
    ⟨(((((upHead.put F.ETH_MODE_MODE 1).put F.TIME_PTP_CFG_ENABLE 1).put F.TIME_CFG_MODE 2).onTime fun x =>
    { x with aon := secU 100 }).onPtp fun p => { p with foreign := [⟨5, 1, 0, 6, true⟩] }), (⟨5, 1, 0, 6, true⟩ :
    Foreign), by decide +kernel⟩, ⟨((((upHead.put F.ETH_MODE_MODE 1).put F.TIME_PTP_CFG_ENABLE 1).put F.TIME_CFG_MODE
    2).onPtp fun p => { p with master := some 5 }), (⟨127, 5, 600, 3⟩ : PtpSync), by decide +kernel⟩, ⟨((upHead.put
    F.ETH_MODE_MODE 1).put F.TIME_PTP_CFG_ENABLE 1).put F.TIME_CFG_MODE 2, by decide +kernel⟩, ⟨((upHead.put
    F.ETH_MODE_MODE 1).put F.TIME_PTP_CFG_ENABLE 1).onPtp (fun p => { p with reqT := some 4, syncDelta := some 6 }),
    0, 4, 6, by decide +kernel⟩, ⟨(((upHead.put F.ETH_MODE_MODE 1).put F.TIME_PTP_CFG_ENABLE 1).put
    F.TIME_PTP_CFG_DELAY 1).onPtp (fun p => { p with reqT := some 0 }), 0, 0, by decide +kernel⟩, ⟨((upHead.put
    F.ETH_MODE_MODE 1).put F.TIME_PTP_CFG_ENABLE 1).put F.TIME_PTP_CFG_DELAY 1, by decide +kernel⟩, ⟨((upHead.put
    F.ETH_MODE_MODE 1).put F.TIME_PTP_CFG_ENABLE 1).put F.TIME_CFG_MODE 1, by decide +kernel⟩⟩

theorem witness_SourcesAct : (∃ (s : State) (rx : Fin 4), (s.on iDPRX = true) ∧ (s.hpd rx = true)) ∧ (∃ (s : State)
    (rx : Fin 4) (rate : Nat) (lanes : Nat), (s.on iDPRX = true) ∧ (s.hpd rx = true) ∧ (rate ≤ s.f
    F.DPRXn_CTL_MAX_RATE rx) ∧ (lanes ≤ s.f F.DPRXn_CTL_MAX_LANES rx)) ∧ (∃ (s : State) (rx : Fin 4), (s.on iDPRX =
    true) ∧ (s.b F.DPRXn_STATUS_LINK_UP rx = true)) ∧ (∃ (s : State) (rx : Fin 4) (len : Nat), (s.on iDPRX = true) ∧
    (s.b F.DPRXn_CTL_ENABLE rx = true) ∧ (s.b F.DPRXn_CTL_EDID_VALID rx = true) ∧ (len = 1)) ∧ (∃ (s : State) (rx :
    Fin 4), (s.on iDPRX = true) ∧ (s.b F.DPRXn_CTL_ENABLE rx = true)) ∧ (∃ (s : State) (src : Src) (l : Nat),
    (s.isHead = true) ∧ (s.pwr.up = true) ∧ (s.ingest.layers.length = 16) ∧ (l < 16) ∧ ((s.viewNow l).feeds src l =
    true)) ∧ (∃ (s : State) (n : Fin 4) (f : SrcFrame) (l : Nat), (s.isHead = true) ∧ (s.pwr.up = true) ∧
    (s.ingest.layers.length = 16) ∧ (l < 16) ∧ ((s.viewNow l).feeds (.fold n) l = true) ∧ ((s.ilayer l).inn.writing =
    some f.id) ∧ ((s.ilayer l).inn.broken = false) ∧ ((s.viewNow l).convertible l f.fmt f.width f.height = true) ∧
    (f.lines.length = (lineOrder f.fmt f.height).length)) ∧ (∃ (s : State) (n : Fin 4) (l : Nat), (s.isHead = true) ∧
    (s.pwr.up = true) ∧ (s.ingest.layers.length = 16) ∧ (l < 16) ∧ ((s.viewNow l).feeds (.fold n) l = true) ∧
    ((s.ilayer l).inn.broken = true)) ∧ (∃ (s : State) (src : Src) (l : Nat), (s.isHead = true) ∧ (s.pwr.up = true) ∧
    (l < 16) ∧ ((s.viewNow l).feeds src l = true) ∧ ((s.ilayer l).inn.writing.isSome = true)) ∧ (∃ (s : State) (n :
    Fin 4) (line : Nat) (planes : List Bytes) (l : Nat) (d : Sending), (s.isHead = true) ∧ (s.pwr.up = true) ∧
    (s.ingest.layers.length = 16) ∧ (l < 16) ∧ ((s.viewNow l).feeds (.dp n) l = true) ∧ ((s.viewNow l).cutThrough l
    (s.ilayer l).ctOff = true) ∧ ((s.ilayer l).sending = [d]) ∧ (d.action = 2) ∧ (d.closed = false) ∧ ((s.ilayer
    l).latched = some d.swap) ∧ (s.time.clock ≤ d.start + d.span) ∧ (planes.length = (linesAt (s.f
    F.DPRXn_STATUS_FORMAT n) line).length) ∧ ((s.viewNow l).convertible l (s.f F.DPRXn_STATUS_FORMAT n) (s.f
    F.DPRXn_ACTIVE_WIDTH n) (s.f F.DPRXn_ACTIVE_HEIGHT n) = true) ∧ ((s.ilayer l).next = [])) ∧ (∃ (s : State) (p :
    Packet), (s.isHead = true) ∧ (s.on iETH = true) ∧ (s.ingest.discards.length = 4) ∧ (p.port < s.ethPorts) ∧
    ((List.range 16).any (fun k => s.flowMatch k p) = false)) ∧ (∃ (s : State) (p : Packet) (k : Nat), (s.isHead =
    true) ∧ (s.on iETH = true) ∧ (s.ingest.flows.length = 16) ∧ (p.port < s.ethPorts) ∧ (k < 16) ∧ (s.flowMatch k p =
    true) ∧ (p.full = false) ∧ ((s.flow k).stamp = some p.stamp)) ∧ (∃ (s : State) (flow : Fin 16), (s.isHead = true)
    ∧ (s.on iETH = true) ∧ (s.ingest.flows.length = 16) ∧ (s.b F.STFLOWn_CTL_ENABLE flow = true) ∧ ((s.flow
    flow).reports = 1) ∧ ((s.flow flow).joinedAt + 1000000000 ≤ s.time.aon)) ∧ (∃ (s : State) (port : Fin 4) (k : Fin
    16), (s.isHead = true) ∧ (s.on iETH = true) ∧ (s.b F.STFLOWn_CTL_ENABLE k = true) ∧ (s.f F.STFLOWn_CTL_PORT k =
    port.val)) ∧ (∃ (s : State) (flow : Fin 16) (a : Nat), ((s.flow flow).lastAt = some a) ∧ (a + 10000000 <
    s.time.aon)) ∧ (∃ (s : State) (flow : Fin 16) (a : Nat), ((s.flow flow).lastAt = some a) ∧ (s.time.aon ≤ a +
    10000000)) :=
⟨⟨(upHead.put F.DPRXn_CTL_ENABLE 1 3).put F.DPRXn_CTL_EDID_VALID 1 3, 3, by decide +kernel⟩, ⟨(upHead.put
    F.DPRXn_CTL_ENABLE 1 3).put F.DPRXn_CTL_EDID_VALID 1 3, 3, 0, 0, by decide +kernel⟩, ⟨upHead.put
    F.DPRXn_STATUS_LINK_UP 1 3, 3, by decide +kernel⟩, ⟨((upHead.put F.DPRXn_CTL_ENABLE 1 3).put
    F.DPRXn_CTL_EDID_VALID 1 3).put F.DPRXn_EDIDk 0x11223344 3 1, 3, 1, by decide +kernel⟩, ⟨upHead.put
    F.DPRXn_CTL_ENABLE 1 3, 3, by decide +kernel⟩, ⟨(((upHead.put F.LAYERn_INGEST_ENABLE 1 15).put
    F.LAYERn_INGEST_KIND 2 15).put F.LAYERn_INGEST_INDEX 15 15), (.flow 15 : Src), 15, by decide +kernel⟩,
    ⟨(((((upHead.put F.LAYERn_INGEST_ENABLE 1 15).put F.LAYERn_INGEST_KIND 5 15).put F.LAYERn_SRC_SIZE_WIDTH 2 15).put
    F.LAYERn_SRC_SIZE_HEIGHT 1 15).onLayer 15 fun y => { y with inn := { y.inn with writing := some 4 } }), 0, (⟨4, 2,
    1, 0, 8, false, (lineOrder 0 1).map fun q => (q.1, q.2, zeros 6)⟩ : SrcFrame), 15, by decide +kernel⟩,
    ⟨(((upHead.put F.LAYERn_INGEST_ENABLE 1 15).put F.LAYERn_INGEST_KIND 5 15).onLayer 15 fun y =>
    { y with inn := { y.inn with writing := some 4, broken := true } }), 0, 15, by decide +kernel⟩, ⟨(((upHead.put
    F.LAYERn_INGEST_ENABLE 1 15).put F.LAYERn_INGEST_KIND 2 15).put F.LAYERn_INGEST_INDEX 15 15).onLayer 15 fun y =>
    { y with inn := { y.inn with writing := some 4 } }, (.flow 15 : Src), 15, by decide +kernel⟩, ⟨(((((upHead.put
    F.DPRXn_ACTIVE_WIDTH 2 0).put F.LAYERn_INGEST_ENABLE 1 15).put F.LAYERn_INGEST_KIND 1 15).put
    F.LAYERn_INGEST_CUT_THROUGH 1 15).put F.LAYERn_SRC_SIZE_WIDTH 2 15).onLayer 15 (fun y =>
    { y with sending := [⟨0, 2, 0, [⟨0, 0, [], false, false, []⟩], 1, 0, 0, 9, 0, false, []⟩], latched := some 0 }),
    0, 0, (linesAt (upHead.f F.DPRXn_STATUS_FORMAT 0) 0).map fun _ => zeros 6, 15, (⟨0, 2, 0, [⟨0, 0, [], false,
    false, []⟩], 1, 0, 0, 9, 0, false, []⟩ : Sending), by decide +kernel⟩, ⟨upHead.put F.ETH_MODE_MODE 3, (⟨3, 1, 2,
    3, 4, none, 2, 20, 200, 5, 6, false, false, false, [(0, 0, 0, [])]⟩ : Packet), by decide +kernel⟩,
    ⟨(((((upHead.put F.ETH_MODE_MODE 3).put F.STFLOWn_CTL_ENABLE 1 15).put F.STFLOWn_CTL_PORT 3 15).put F.STFLOWn_UDP
    5000 15).put F.STFLOWn_CTL_PT 96 15).onFlow 15 fun w => { w with stamp := some 6 }, (⟨3, 0, 2, 5000, 96, none, 2,
    20, 200, 5, 6, false, false, false, [(0, 0, 0, [])]⟩ : Packet), 15, by decide +kernel⟩, ⟨((upHead.put
    F.STFLOWn_CTL_ENABLE 1 15).onFlow 15 (fun w => { w with reports := 1 })).onTime fun x =>
    { x with aon := 1000000000 }, 15, by decide +kernel⟩, ⟨upHead.put F.STFLOWn_CTL_ENABLE 1 15, 0, 15,
    by decide +kernel⟩, ⟨((upHead.put F.STFLOWn_STATUS_RECEIVING 1 15).onTime fun x =>
    { x with aon := 10000001 }).onFlow 15 (fun w => { w with lastAt := some 0 }), 15, 0, by decide +kernel⟩,
    ⟨(upHead.put F.STFLOWn_STATUS_RECEIVING 1 15).onFlow 15 (fun w => { w with lastAt := some 0 }), 15, 0,
    by decide +kernel⟩⟩

theorem witness_LayersAct : (∃ (s : State) (v : State) (layer : Fin 16) (n : Nat), (s.isHead = true) ∧ (s.pwr.up =
    true) ∧ (s.time.stepped = true) ∧ (s.ingest.layers.length = 16) ∧ (s.latchView layer = some (n, v))) ∧ (∃ (s :
    State) (layer : Fin 16) (n : Nat), (s.isBw = true) ∧ (s.pwr.up = true) ∧ (s.time.stepped = true) ∧
    (s.ingest.layers.length = 16) ∧ (s.b F.LAYERn_INGEST_ENABLE layer = true) ∧ (s.f F.LAYERn_INGEST_KIND layer = 4) ∧
    ((s.ilayer layer).next = []) ∧ ((s.ilayer layer).undecided = none) ∧ ((s.ilayer layer).sending = []) ∧ ((s.ilayer
    layer).bound = true) ∧ ((s.ilayer layer).before = []) ∧ ((s.latchView layer).map (·.1) = some n)) ∧ (∃ (s : State)
    (layer : Fin 16) (d : Sending) (k : Nat) (body : Bytes), (s.isHead = true) ∧ (s.on iMEM = true) ∧ (s.f
    F.RING_STATUS_STATE ≠ hsDemoted) ∧ (s.ingest.layers.length = 16) ∧ ((s.ilayer layer).undecided = none) ∧
    ((s.ilayer layer).sending = [d]) ∧ (d.closed = true) ∧ (d.pick s.time.clock = some k) ∧ (d.cell layer k = some
    (body, [])) ∧ ((d.advance k).left = true)) ∧ (∃ (s : State) (layer : Fin 16) (value : Nat), (s.isHead = true) ∧
    (s.on iMEM = true) ∧ (s.ingest.layers.length = 16) ∧ (value < 2 ^ 32) ∧ (s.stillOk (value / 4096 * 4096 + s.f
    F.LAYERn_ADDR_HI layer * 2 ^ 32) (s.layerFmt layer) (s.layerW layer) (s.layerH layer) = true)) ∧ (∃ (s : State)
    (layer : Fin 16) (value : Nat), (s.isHead = true) ∧ (s.on iMEM = true) ∧ (s.ingest.layers.length = 16) ∧ (value <
    2 ^ 14) ∧ (s.clipCheck layer value = 0)) ∧ (∃ (s : State) (record : Bytes), (s.isHead = true) ∧ (s.pwr.up = true)
    ∧ ((record.drop 32).take 28 ≠ complement (record.take 28))) ∧ (∃ (s : State) (record : Bytes), (s.isHead = true) ∧
    (s.pwr.up = true) ∧ (s.f F.RING_STATUS_STATE = hsStandby) ∧ (s.ingest.layers.length = 16) ∧ ((record.drop 32).take
    28 = complement (record.take 28))) ∧ (∃ (s : State) (v : State) (record : Bytes) (n : Nat), (s.isHead = true) ∧
    (s.pwr.up = true) ∧ (s.f F.RING_STATUS_STATE = hsStandby) ∧ (s.ingest.layers.length = 16) ∧ ((record.drop 32).take
    28 = complement (record.take 28)) ∧ (s.frameView (bits (le record 4 1) 0 4) (le record 0 4) = (n, v)) ∧ ((s.ilayer
    (bits (le record 4 1) 0 4)).undecided = some n) ∧ (v.sendAt (bits (le record 4 1) 0 4) n < s.time.clock)) ∧ (∃ (s
    : State) (v : State) (record : Bytes) (n : Nat), (s.isHead = true) ∧ (s.pwr.up = true) ∧ (s.f F.RING_STATUS_STATE
    = hsStandby) ∧ (s.ingest.layers.length = 16) ∧ ((record.drop 32).take 28 = complement (record.take 28)) ∧
    (s.frameView (bits (le record 4 1) 0 4) (le record 0 4) = (n, v)) ∧ (s.time.clock ≤ v.sendAt (bits (le record 4 1)
    0 4) n) ∧ (le record 24 4 ≠ s.ingest.configEpoch % 2 ^ 32)) :=
⟨⟨((bw.put F.LAYERn_INGEST_ENABLE 1 15).put F.LAYERn_INGEST_KIND 2 15).onTime (fun x => { x with stepped := true }),
    (((bw.put F.LAYERn_INGEST_ENABLE 1 15).put F.LAYERn_INGEST_KIND 2 15).onTime (fun x =>
    { x with stepped := true })), 15, 0, by decide +kernel⟩, ⟨(((((bw.put F.LAYERn_INGEST_ENABLE 1 15).put
    F.LAYERn_INGEST_KIND 4 15).put F.LAYERn_SRC_SIZE_WIDTH 2 15).put F.LAYERn_SRC_SIZE_HEIGHT 1 15).onTime (fun x =>
    { x with stepped := true })).onLayer 15 (fun y => { y with bound := true }), 15, 0, by decide +kernel⟩,
    ⟨bw.onLayer 15 (fun y =>
    { y with sending := [⟨0, 0, 0, [⟨0, 0, zeros 500, true, false, []⟩], 2, 0, 0, 9, 0, true, []⟩] }), 15, (⟨0, 0, 0,
    [⟨0, 0, zeros 500, true, false, []⟩], 2, 0, 0, 9, 0, true, []⟩ : Sending), 0, cellBody 15 false true false 0 0 0 0
    480 0 (zeros 480), by decide +kernel⟩, ⟨upHead.put F.MEM_CFG_CAPACITY 8, 15, 0x50000000, by decide +kernel⟩,
    ⟨upHead, 15, 7, by decide +kernel⟩, ⟨upHead, zeros 64, by decide +kernel⟩, ⟨upHead.put F.RING_STATUS_STATE 2,
    faRecord 0 15 1 2 0 0 0 0 0, by decide +kernel⟩, ⟨((upHead.put F.RING_STATUS_STATE 2).onTime fun x =>
    { x with clock := secU 1 }).onLayer 15 fun y => { y with undecided := some 0 }, ((upHead.put F.RING_STATUS_STATE
    2).onTime fun x => { x with clock := secU 1 }).onLayer 15 fun y => { y with undecided := some 0 }, faRecord 0 15 1
    2 0 0 0 0 0, 0, by decide +kernel⟩, ⟨upHead.put F.RING_STATUS_STATE 2, upHead.put F.RING_STATUS_STATE 2, faRecord
    0 15 1 2 0 0 0 0 9, 0, by decide +kernel⟩⟩

theorem witness_LampSlotsAct : (∃ (s : State), s.pwr.up = true) ∧ (∃ (s : State) (group : Fin 4), (s.lampOn = true) ∧
    (s.lamp.groups.length = 4) ∧ (s.edgeDue group = true)) ∧ (∃ (s : State) (group : Fin 4) (mismatch : Bool),
    (s.lampOn = true) ∧ (s.lamp.groups.length = 4) ∧ ((s.lgroup group).lsync = true) ∧ (mismatch = true) ∧ ((s.lgroup
    group).edge + s.f F.LAMP_TIMING_LSYNC_WIDTH * 10 * nsU ≤ s.time.clock)) ∧ (∃ (s : State) (port : Fin 16) (f :
    LFrame), (s.lampOn = true) ∧ (s.lamp.ports.length = 16) ∧ ((s.lport port).queue = [f]) ∧ ((s.lport port).sending =
    none) ∧ (f.prio = 4) ∧ (f.inBuf = false) ∧ (f.bytes.length ≤ 65536) ∧ (s.on iMEM = true)) ∧ (∃ (s : State) (port :
    Fin 16) (f : LFrame), (s.lampOn = true) ∧ (s.lamp.ports.length = 16) ∧ ((s.lport port).queue = [f]) ∧ (f.prio = 4)
    ∧ (f.inBuf = false) ∧ (s.on iMEM = true)) ∧ (∃ (s : State) (port : Fin 16) (f : LFrame), (s.lampOn = true) ∧
    (s.lamp.ports.length = 16) ∧ (s.b F.LAMP_PORTp_CFG_ENABLE port = true) ∧ ((s.lport port).sending = none) ∧
    ((s.lport port).next = some f)) ∧ (∃ (s : State) (port : Fin 16) (f : LFrame), (s.lampOn = true) ∧
    (s.lamp.ports.length = 16) ∧ ((s.lport port).sending = some f)) ∧ (∃ (s : State) (port : Fin 16) (f : LFrame),
    (s.lampOn = true) ∧ (s.lamp.ports.length = 16) ∧ ((s.lport port).sending = some f) ∧ (f.tries = 0)) ∧ (∃ (s :
    State), (s.lampOn = true) ∧ (s.swapReady = true) ∧ (s.pushGroups ≠ []) ∧ (s.time.clock + usU (s.f
    F.LAMP_TIMING_SWAP_LEAD) ≤ s.comp.slotAt)) ∧ (∃ (s : State), (s.lampOn = true) ∧ (s.comp.closed = false) ∧
    (s.swapReady = false) ∧ (s.comp.pastDeadline = false) ∧ (s.deadlineDue = true)) ∧ (∃ (s : State) (group : Fin 4),
    s.edgeDue group = false) ∧ (∃ (s : State), (s.lampOn = true) ∧ (s.comp.closed = false) ∧ (s.comp.pastDeadline =
    false) ∧ (s.deadlineDue = true) ∧ (s.swapReady = true) ∧ (s.pushGroups ≠ [])) ∧ (∃ (s : State), s.deadlineDue =
    false) :=
⟨⟨upTile.put F.CORR_POSE_LATE 4, by decide +kernel⟩, ⟨(upTile.put F.COMP_GRPg_CTL_ENABLE 1 3).onTime (fun x =>
    { x with stepped := true, clock := secU 1 }), 3, by decide +kernel⟩, ⟨(upTile.onLGroup 3 (fun x =>
    { x with lsync := true })).onTime (fun x => { x with clock := secU 1 }), 3, true, by decide +kernel⟩,
    ⟨upTile.onLPort 15 (fun q => { q with queue := [⟨4, [1, 2], false, none, [], 0, []⟩] }), 15, (⟨4, [1, 2], false,
    none, [], 0, []⟩ : LFrame), by decide +kernel⟩, ⟨upTile.onLPort 15 (fun q =>
    { q with queue := [⟨4, [1, 2], false, none, [(0, 0, 5)], 0, []⟩] }), 15, (⟨4, [1, 2], false, none, [(0, 0, 5)], 0,
    []⟩ : LFrame), by decide +kernel⟩, ⟨(upTile.put F.LAMP_PORTp_CFG_ENABLE 1 15).onLPort 15 (fun q =>
    { q with queue := [⟨4, [1, 2], true, none, [], 0, []⟩, ⟨1, [3], true, none, [], 0, []⟩] }), 15, (⟨1, [3], true,
    none, [], 0, []⟩ : LFrame), by decide +kernel⟩, ⟨upTile.onLPort 15 (fun q =>
    { q with sending := some ⟨4, [1, 2], true, none, [(0, 0, 5)], 0, []⟩ }), 15, (⟨4, [1, 2], true, none, [(0, 0, 5)],
    0, []⟩ : LFrame), by decide +kernel⟩, ⟨upTile.onLPort 15 (fun q =>
    { q with sending := some ⟨4, [1, 2], true, none, [(0, 0, 5)], 0, []⟩ }), 15, (⟨4, [1, 2], true, none, [(0, 0, 5)],
    0, []⟩ : LFrame), by decide +kernel⟩, ⟨((((upTile.put F.COMP_GRPg_CTL_ENABLE 1 3).put F.LAMP_PORTp_CFG_ENABLE 1
    15).put F.LAMP_PORTp_CFG_GROUP 3 15).onLGroup 3 (fun x => { x with blanked := false })).onComp (fun c =>
    { c with closed := false, dropped := false, slotAt := secU 9 }), by decide +kernel⟩, ⟨(upTile.onComp (fun c =>
    { c with closed := false, dropped := true, pastDeadline := false })).onTime fun x => { x with clock := secU 9 },
    by decide +kernel⟩, ⟨upTile, 3, by decide +kernel⟩, ⟨(((((upTile.put F.COMP_GRPg_CTL_ENABLE 1 3).put
    F.LAMP_PORTp_CFG_ENABLE 1 15).put F.LAMP_PORTp_CFG_GROUP 3 15).onLGroup 3 (fun x =>
    { x with blanked := false })).onComp (fun c =>
    { c with closed := false, dropped := false, pastDeadline := false })).onTime fun x => { x with clock := secU 9 },
    by decide +kernel⟩, ⟨upTile.onComp (fun c => { c with closed := false, slotAt := secU 9 }), by decide +kernel⟩⟩

theorem witness_LampGroupsAct : (∃ (s : State) (group : Fin 4), (s.lampOn = true) ∧ (s.lamp.groups.length = 4) ∧
    (s.blankCond group = true) ∧ ((s.lgroup group).blanked = false)) ∧ (∃ (s : State) (group : Fin 4), (s.lampOn =
    true) ∧ (s.lamp.groups.length = 4) ∧ (s.lit group = true) ∧ ((s.lgroup group).blanked = true) ∧ ((s.lgroup
    group).programming = false) ∧ (s.blankCond group = false) ∧ (s.groupPorts group = [])) ∧ (∃ (s : State) (group :
    Fin 4) (p : Nat), (s.lampOn = true) ∧ (s.lamp.groups.length = 4) ∧ (s.lamp.ports.length = 16) ∧ ((s.lport
    p).drivers.length = 64) ∧ (s.lit group = true) ∧ ((s.lgroup group).blanked = true) ∧ ((s.lgroup group).programming
    = false) ∧ (s.blankCond group = false) ∧ (s.groupPorts group = [p]) ∧ (p < 16) ∧ (s.b
    F.LAMP_PORTp_STATUS_CHAIN_BROKEN p = false) ∧ (s.b F.LAMP_PORTp_STATUS_MISMATCH p = false)) ∧ (∃ (s : State)
    (group : Fin 4) (first : Nat), (s.lampOn = true) ∧ (s.lamp.groups.length = 4) ∧ ((s.lgroup group).hold = some
    first) ∧ (first + s.f F.LAMP_GRPg_CFG_HOLD group + 1 ≤ s.comp.latched.getD 0) ∧ ((s.lgroup group).ready = true)) ∧
    (∃ (s : State) (group : Fin 4) (first : Nat), (s.lampOn = true) ∧ (s.lamp.groups.length = 4) ∧ ((s.lgroup
    group).hold = some first) ∧ ((s.lgroup group).black = false) ∧ (first + 4 ≤ s.time.frame)) ∧ (∃ (s : State) (port
    : Fin 16) (codes : List Nat) (h : Nat) (a : Nat) (body : Bytes), (s.lampOn = true) ∧ (s.lamp.ports.length = 16) ∧
    ((s.lport port).drivers.length = 64) ∧ ((s.lport port).asked = some (h, 0, a)) ∧ ((s.lport port).phased = true) ∧
    (h < 64) ∧ (body.length = 32) ∧ (decodeLane codes = some (lampFrame 0x85 h 0 body))) ∧ (∃ (s : State) (port : Fin
    16) (h : Nat) (a : Nat), (s.lampOn = true) ∧ (s.lamp.ports.length = 16) ∧ ((s.lport port).drivers.length = 64) ∧
    ((s.lport port).asked = some (h, 0, a)) ∧ (h < 64) ∧ (a + s.f F.LAMP_TIMING_STATUS_TIMEOUT * 1000 < s.time.aon)) ∧
    (∃ (s : State) (port : Fin 16), (s.lampOn = true) ∧ (s.lamp.ports.length = 16) ∧ (s.b F.LAMP_PORTp_CFG_ENABLE port
    = true)) ∧ (∃ (s : State), (s.lampOn = true) ∧ (s.f F.LAMP_REFRESH ≠ 0) ∧ (s.lamp.groups.length = 4) ∧
    (s.time.frame % s.f F.LAMP_REFRESH = 0) ∧ (s.lamp.refreshed ≠ some s.time.frame)) ∧ (∃ (s : State), (s.lampOn =
    true) ∧ (s.lamp.groups.length = 4)) ∧ (∃ (s : State), s.lampOn = true) ∧ (∃ (s : State), (s.lampOn = true) ∧
    (s.time.frame % s.diagPeriod = 0) ∧ (s.lamp.round ≠ some s.time.frame)) ∧ (∃ (s : State), (s.lampOn = true) ∧
    (s.lamp.reading = true) ∧ (s.diagLeft = false ∨ s.lamp.round.getD 0 + s.diagPeriod / 2 ≤ s.time.frame)) ∧ (∃ (s :
    State) (p : Nat), (s.lampOn = true) ∧ (s.b F.LAMP_DIAG_CFG_PROBE_EN = true) ∧ (s.lamp.overrun = false) ∧
    (s.lamp.reading = false) ∧ (s.lamp.ports.length = 16) ∧ (s.lampPorts = [p]) ∧ (s.portDrivers p = 1) ∧ ((s.driver p
    0).answered = true) ∧ ((s.driver p 0).wrong = false) ∧ (s.probeBits p 0 ≠ []) ∧ (s.minOn p 0 + 1000 ≤ s.f
    F.LAMP_GRPg_DARK (s.portGroup p)) ∧ (s.probeDue = true) ∧ (s.lamp.swapSent = true) ∧ (s.comp.pastDeadline = false)
    ∧ (s.pushes (s.portGroup p) = true)) ∧ (∃ (s : State) (port : Fin 16) (h : Nat) (page : Nat) (a : Nat), ((s.lport
    port).asked = some (h, page, a)) ∧ (s.time.aon ≤ a + s.f F.LAMP_TIMING_STATUS_TIMEOUT * 1000)) :=
⟨⟨upTile.onLGroup 3 (fun x => { x with blanked := false }), 3, by decide +kernel⟩, ⟨((upTile.put
    F.COMP_GRPg_CTL_ENABLE 1 3).onRing (fun r => { r with start := true })).onLGroup 3 fun x =>
    { x with shown := true }, 3, by decide +kernel⟩, ⟨((((upTile.put F.COMP_GRPg_CTL_ENABLE 1 3).put
    F.LAMP_PORTp_CFG_ENABLE 1 15).put F.LAMP_PORTp_CFG_GROUP 3 15).onRing (fun r =>
    { r with start := true })).onLGroup 3 fun x => { x with shown := true }, 3, 15, by decide +kernel⟩,
    ⟨(upTile.onLGroup 3 fun x => { x with hold := some 4, ready := true }).onComp (fun c =>
    { c with latched := some 900 }), 3, 4, by decide +kernel⟩, ⟨(upTile.onLGroup 3 fun x =>
    { x with hold := some 4 }).onTime (fun x => { x with frame := 8 }), 3, 4, by decide +kernel⟩, ⟨upTile.onLPort 15
    (fun q => { q with asked := some (63, 0, 7), phased := true }), 15, (encodeChars (.sof :: ((lampFrame 0x85 63 0
    (zeros 32)).map fun b => LChar.data b.toNat) ++ [.eof]) false).1, 63, 7, zeros 32, by decide +kernel⟩,
    ⟨(upTile.onLPort 15 (fun q => { q with asked := some (63, 0, 7) })).onTime fun x => { x with aon := secU 1 }, 15,
    63, 7, by decide +kernel⟩, ⟨upTile.put F.LAMP_PORTp_CFG_ENABLE 1 15, 15, by decide +kernel⟩, ⟨(upTile.put
    F.LAMP_REFRESH 5).onLGroup 3 (fun x => { x with refs := [(0, 4)] }), by decide +kernel⟩, ⟨upTile.onLGroup 3 (fun x
    => { x with refs := [(0, 4)] }), by decide +kernel⟩, ⟨upTile.put F.LAMP_PORTp_PADERR 5 15, by decide +kernel⟩,
    ⟨upTile, by decide +kernel⟩, ⟨upTile.onLamp (fun l => { l with reading := true, probed := [(0, 0, 0)] }),
    by decide +kernel⟩, ⟨((((((((((upTile.put F.COMP_GRPg_CTL_ENABLE 1 3).put F.LAMP_PORTp_CFG_ENABLE 1 15).put
    F.LAMP_PORTp_CFG_GROUP 3 15).put F.LAMP_DIAG_CFG_PROBE_EN 1).put F.LAMP_GRPg_DARK 50000 3).put F.COMP_GRPg_SIZE_WP
    4 3).put F.COMP_GRPg_SIZE_HP 4 3).onDriver 15 0 (fun d => { d with answered := true })).onLGroup 3 fun y =>
    { y with blanked := false }).onLamp fun l => { l with round := some 0, swapSent := true }).onComp fun c =>
    { c with slot := some (upTile.diagPeriod / 2, 0), pastDeadline := false }, 15, by decide +kernel⟩, ⟨upTile.onLPort
    15 (fun q => { q with asked := some (63, 0, 7) }), 15, 63, 0, 7, by decide +kernel⟩⟩

theorem witness_ArithmeticComputes : (∃ (s : State) (fold : Fin 4) (w : Nat), (runsAt s fold 0x01 w) ∧ (kTv w = false
    ∨ noFit ((reg s fold (kRs1 w)).toInt + (reg s fold (kRs2 w)).toInt) = false)) ∧ (∃ (s : State) (fold : Fin 4) (w :
    Nat), (runsAt s fold 0x11 w) ∧ (kTv w = false ∨ noFit ((reg s fold (kRs1 w)).toInt + (BitVec.ofNat 32 (kImm
    w)).toInt) = false)) ∧ (∃ (s : State) (fold : Fin 4) (w : Nat), (runsAt s fold 0x02 w) ∧ (kTv w = false ∨ noFit
    ((reg s fold (kRs1 w)).toInt - (reg s fold (kRs2 w)).toInt) = false)) ∧ (∃ (s : State) (fold : Fin 4) (w : Nat),
    runsAt s fold 0x03 w) ∧ (∃ (s : State) (fold : Fin 4) (w : Nat), runsAt s fold 0x13 w) ∧ (∃ (s : State) (fold :
    Fin 4) (w : Nat), runsAt s fold 0x04 w) ∧ (∃ (s : State) (fold : Fin 4) (w : Nat), runsAt s fold 0x14 w) ∧ (∃ (s :
    State) (fold : Fin 4) (w : Nat), runsAt s fold 0x05 w) ∧ (∃ (s : State) (fold : Fin 4) (w : Nat), runsAt s fold
    0x15 w) ∧ (∃ (s : State) (fold : Fin 4) (w : Nat), runsAt s fold 0x06 w) ∧ (∃ (s : State) (fold : Fin 4) (w :
    Nat), runsAt s fold 0x16 w) ∧ (∃ (s : State) (fold : Fin 4) (w : Nat), runsAt s fold 0x07 w) ∧ (∃ (s : State)
    (fold : Fin 4) (w : Nat), runsAt s fold 0x17 w) ∧ (∃ (s : State) (fold : Fin 4) (w : Nat), runsAt s fold 0x08 w) ∧
    (∃ (s : State) (fold : Fin 4) (w : Nat), runsAt s fold 0x18 w) ∧ (∃ (s : State) (fold : Fin 4) (w : Nat), runsAt s
    fold 0x09 w) ∧ (∃ (s : State) (fold : Fin 4) (w : Nat), runsAt s fold 0x0A w) ∧ (∃ (s : State) (fold : Fin 4) (w :
    Nat), runsAt s fold 0x0B w) ∧ (∃ (s : State) (fold : Fin 4) (w : Nat), runsAt s fold 0x0C w) ∧ (∃ (s : State)
    (fold : Fin 4) (w : Nat), runsAt s fold 0x1C w) ∧ (∃ (s : State) (fold : Fin 4), runsAt s fold 0x00 0) ∧ (∃ (s :
    State) (fold : Fin 4) (w : Nat), (standsAt s fold w) ∧ (kOp w = 0x01) ∧ (kTv w = true) ∧ (noFit ((reg s fold (kRs1
    w)).toInt + (reg s fold (kRs2 w)).toInt) = true)) ∧ (∃ (s : State) (fold : Fin 4) (w : Nat), (standsAt s fold w) ∧
    (kOp w = 0x02) ∧ (kTv w = true) ∧ (noFit ((reg s fold (kRs1 w)).toInt - (reg s fold (kRs2 w)).toInt) = true)) ∧ (∃
    (s : State) (fold : Fin 4) (w : Nat), (standsAt s fold w) ∧ (kOp w = 0x11) ∧ (kTv w = true) ∧ (noFit ((reg s fold
    (kRs1 w)).toInt + (BitVec.ofNat 32 (kImm w)).toInt) = true)) ∧ (∃ (w : Nat), (kortyOk w = true) ∧ (kOp w ∈ [1, 2,
    0x11])) ∧ (∃ (w : Nat), (kortyOk w = true) ∧ (kOp w ∈ [3, 4, 5, 6, 7, 8, 0x13, 0x14, 0x15, 0x16, 0x17, 0x18])) ∧
    (∃ (w : Nat), (kortyOk w = true) ∧ (kOp w ∈ [9])) ∧ (∃ (w : Nat), (kortyOk w = true) ∧ (kOp w ∈ [0xA, 0xB])) ∧ (∃
    (w : Nat), (kortyOk w = true) ∧ (kOp w ∈ [0xC, 0x1C])) ∧ (∃ (w : Nat), (kortyOk w = true) ∧ (kOp w ∈ [0x16, 0x17,
    0x18])) :=
⟨⟨(inRunAt upTile 3 (kw 0x01 7 3 4 0x100000000)), 3, (kw 0x01 7 3 4 0x100000000), by decide +kernel⟩, ⟨(inRunAt upTile
    3 (kw 0x11 7 3 4 0x100000003)), 3, (kw 0x11 7 3 4 0x100000003), by decide +kernel⟩, ⟨(inRunAt upTile 3 (kw 0x02 7
    3 4 0x100000000)), 3, (kw 0x02 7 3 4 0x100000000), by decide +kernel⟩, ⟨(inRunAt upTile 3 (kw 0x03 7 3 4
    0x100000000)), 3, (kw 0x03 7 3 4 0x100000000), by decide +kernel⟩, ⟨(inRunAt upTile 3 (kw 0x13 7 3 4
    0x100000003)), 3, (kw 0x13 7 3 4 0x100000003), by decide +kernel⟩, ⟨(inRunAt upTile 3 (kw 0x04 7 3 4
    0x100000000)), 3, (kw 0x04 7 3 4 0x100000000), by decide +kernel⟩, ⟨(inRunAt upTile 3 (kw 0x14 7 3 4
    0x100000003)), 3, (kw 0x14 7 3 4 0x100000003), by decide +kernel⟩, ⟨(inRunAt upTile 3 (kw 0x05 7 3 4
    0x100000000)), 3, (kw 0x05 7 3 4 0x100000000), by decide +kernel⟩, ⟨(inRunAt upTile 3 (kw 0x15 7 3 4
    0x100000003)), 3, (kw 0x15 7 3 4 0x100000003), by decide +kernel⟩, ⟨(inRunAt upTile 3 (kw 0x06 7 3 4
    0x100000000)), 3, (kw 0x06 7 3 4 0x100000000), by decide +kernel⟩, ⟨(inRunAt upTile 3 (kw 0x16 7 3 4
    0x100000003)), 3, (kw 0x16 7 3 4 0x100000003), by decide +kernel⟩, ⟨(inRunAt upTile 3 (kw 0x07 7 3 4
    0x100000000)), 3, (kw 0x07 7 3 4 0x100000000), by decide +kernel⟩, ⟨(inRunAt upTile 3 (kw 0x17 7 3 4
    0x100000003)), 3, (kw 0x17 7 3 4 0x100000003), by decide +kernel⟩, ⟨(inRunAt upTile 3 (kw 0x08 7 3 4
    0x100000000)), 3, (kw 0x08 7 3 4 0x100000000), by decide +kernel⟩, ⟨(inRunAt upTile 3 (kw 0x18 7 3 4
    0x100000003)), 3, (kw 0x18 7 3 4 0x100000003), by decide +kernel⟩, ⟨(inRunAt upTile 3 (kw 0x09 7 3 4
    0x100000000)), 3, (kw 0x09 7 3 4 0x100000000), by decide +kernel⟩, ⟨(inRunAt upTile 3 (kw 0x0A 7 3 4
    0x100000000)), 3, (kw 0x0A 7 3 4 0x100000000), by decide +kernel⟩, ⟨(inRunAt upTile 3 (kw 0x0B 7 3 4
    0x100000000)), 3, (kw 0x0B 7 3 4 0x100000000), by decide +kernel⟩, ⟨(inRunAt upTile 3 (kw 0x0C 0 3 4 0)), 3, (kw
    0x0C 0 3 4 0), by decide +kernel⟩, ⟨(inRunAt upTile 3 (kw 0x1C 0 3 0 2147483648)), 3, (kw 0x1C 0 3 0 2147483648),
    by decide +kernel⟩, ⟨(inRunAt upTile 3 0), 3, by decide +kernel⟩, ⟨inRunAt upTile 3 (kw 0x01 7 3 3 (3 * 2 ^ 32)),
    3, kw 0x01 7 3 3 (3 * 2 ^ 32), by decide +kernel⟩, ⟨inRunAt upTile 3 (kw 0x02 7 3 1 (3 * 2 ^ 32)), 3, kw 0x02 7 3
    1 (3 * 2 ^ 32), by decide +kernel⟩, ⟨inRunAt upTile 3 (kw 0x11 7 3 0 (2 * 2 ^ 32 + 0xFFFFFFFF)), 3, kw 0x11 7 3 0
    (2 * 2 ^ 32 + 0xFFFFFFFF), by decide +kernel⟩, ⟨kw 1 7 3 4 (3 * 2 ^ 32), by decide +kernel⟩, ⟨kw 3 7 3 4 (2 ^ 32),
    by decide +kernel⟩, ⟨kw 9 7 3 4 (13 * 2 ^ 32), by decide +kernel⟩, ⟨kw 10 7 3 4 (5 * 2 ^ 32), by decide +kernel⟩,
    ⟨kw 12 0 3 4 0, by decide +kernel⟩, ⟨kw 0x16 7 3 0 31, by decide +kernel⟩⟩

theorem witness_FoldControlActs : (∃ (s : State) (fold : Fin 4), (s.pwr.up = true) ∧ (s.folds.length = 4) ∧
    (s.foldBroken fold = false) ∧ (s.foldState fold = 0)) ∧ (∃ (s : State) (fold : Fin 4), (s.pwr.up = true) ∧
    (s.folds.length = 4) ∧ (s.foldBroken fold = false)) ∧ (∃ (s : State) (fold : Fin 4), s.foldBroken fold = true) ∧
    (∃ (s : State), s.pwr.up = true) ∧ (∃ (s : State) (fold : Fin 4), (s.pwr.up = true) ∧ (s.folds.length = 4) ∧
    (s.foldState fold = 2 ∨ s.foldState fold = 3)) ∧ (∃ (s : State), (s.pwr.up = true) ∧ (s.folds.length = 4)) ∧ (∃ (s
    : State), s.pwr.up = true) ∧ (∃ (s : State) (fold : Fin 4), (s.pwr.up = true) ∧ (s.folds.length = 4) ∧ (s.inRun
    fold = true) ∧ ((s.fold fold).ended = true) ∧ ((s.fold fold).queue = [])) ∧ (∃ (s : State) (fold : Fin 4),
    (s.pwr.up = true) ∧ (s.folds.length = 4) ∧ (s.inRun fold = true) ∧ ((s.fold fold).windows < s.time.aon / 1024) ∧
    ((s.fold fold).winAt + 1024 ≤ s.time.aon)) ∧ (∃ (s : State) (fold : Fin 4), (s.pwr.up = true) ∧ (s.folds.length =
    4) ∧ (s.inRun fold = true) ∧ (s.f F.FOLDn_STATUS_WAIT fold = 3) ∧ (s.waitOver fold = true)) ∧ (∃ (s : State) (fold
    : Fin 4), (s.pwr.up = true) ∧ (s.folds.length = 4) ∧ (s.inRun fold = true) ∧ (s.f F.FOLDn_STATUS_WAIT fold = 5) ∧
    (s.waitOver fold = true)) ∧ (∃ (s : State) (fold : Fin 4), s.waitOver fold = false) ∧ (∃ (s : State) (fold : Fin
    4), s.time.aon / 1024 ≤ (s.fold fold).windows) :=
⟨⟨upTile, 3, by decide +kernel⟩, ⟨inRunAt upTile 3 0, 3, by decide +kernel⟩, ⟨upTile.onBist fun b =>
    { b with failed := [3] }, 3, by decide +kernel⟩, ⟨upTile, by decide +kernel⟩, ⟨upTile.put F.FOLDn_STATUS_STATE 3
    3, 3, by decide +kernel⟩, ⟨inRunAt upTile 3 0, by decide +kernel⟩, ⟨upTile.put F.FOLDn_RUNS 5 3,
    by decide +kernel⟩, ⟨(inRunAt upTile 3 0).onFold 3 fun f => { f with ended := true, halt := true, steps := 9 }, 3,
    by decide +kernel⟩, ⟨((inRunAt upTile 3 0).onFold 3 fun f => { f with winIdle := 100 }).onTime fun x =>
    { x with aon := 1024 }, 3, by decide +kernel⟩, ⟨((inRunAt upTile 3 0).put F.FOLDn_STATUS_WAIT 3 3).onFold 3 fun f
    => { f with until_ := some 0 }, 3, by decide +kernel⟩, ⟨((inRunAt upTile 3 0).put F.FOLDn_STATUS_WAIT 5 3).onFold
    3 fun f => { f with until_ := some 0 }, 3, by decide +kernel⟩, ⟨(inRunAt upTile 3 0).onFold 3 fun f =>
    { f with until_ := some (secU 1) }, 3, by decide +kernel⟩, ⟨inRunAt upTile 3 0, 3, by decide +kernel⟩⟩

theorem witness_ControlAndScratchInstructionsAct : (∃ (s : State) (fold : Fin 4) (w : Nat), (runsAt s fold 0x1D w) ∧
    (kImm w < 8)) ∧ (∃ (s : State) (fold : Fin 4) (w : Nat), (runsAt s fold 0x1D w) ∧ (kImm w = 1)) ∧ (∃ (s : State)
    (fold : Fin 4) (w : Nat) (ea : Nat), (runsAt s fold 0x40 w) ∧ (ea = (reg s fold (kRs1 w) + BitVec.ofNat 32 (kImm
    w)).toNat) ∧ (ea ≤ 0x3FFFC ∧ ea % 4 = 0) ∧ (s.wordPending fold [ea / 4] = false) ∧ ((s.fold fold).tx = none) ∧ (ea
    / 4 ∉ (s.fold fold).scratchBad)) ∧ (∃ (s : State) (fold : Fin 4) (w : Nat) (ea : Nat) (v : Nat) (x : FoldTx),
    (runsAt s fold 0x40 w) ∧ (ea = (reg s fold (kRs1 w) + BitVec.ofNat 32 (kImm w)).toNat) ∧ (ea ≤ 0x3FFFC ∧ ea % 4 =
    0) ∧ (s.wordPending fold [ea / 4] = false) ∧ ((s.fold fold).tx = some x) ∧ (x.stores.find? (fun e => e.1 == ea /
    4) = some (ea / 4, v))) ∧ (∃ (s : State) (fold : Fin 4) (w : Nat) (ea : Nat), (runsAt s fold 0x41 w) ∧ (ea = (reg
    s fold (kRs1 w) + BitVec.ofNat 32 (kImm w)).toNat) ∧ (ea ≤ 0x3FFFC ∧ ea % 4 = 0) ∧ (s.wordPending fold [ea / 4] =
    false) ∧ ((s.fold fold).tx = none)) ∧ (∃ (s : State) (fold : Fin 4) (w : Nat) (ea : Nat), (runsAt s fold 0x41 w) ∧
    (ea = (reg s fold (kRs1 w) + BitVec.ofNat 32 (kImm w)).toNat) ∧ (ea ≤ 0x3FFFC ∧ ea % 4 = 0) ∧ (s.wordPending fold
    [ea / 4] = false) ∧ ((s.fold fold).tx.isSome = true)) ∧ (∃ (s : State) (fold : Fin 4) (w : Nat) (ea : Nat) (x :
    Nat), (runsAt s fold 0x42 w) ∧ (ea = (reg s fold (kRs1 w) + BitVec.ofNat 32 (kImm w)).toNat) ∧ (ea ≤ 0x3FFF8 ∧ ea
    % 8 = 0) ∧ (s.wordPending fold [ea / 4, ea / 4 + 1] = false) ∧ (s.loadBad fold (ea / 4) = false ∧ s.loadBad fold
    (ea / 4 + 1) = false) ∧ (s.loadWord fold (ea / 4) = x ∧ x < 4294967296) ∧ (s.loadWord fold (ea / 4 + 1) =
    4294967295 - x)) ∧ (∃ (s : State) (fold : Fin 4) (w : Nat) (ea : Nat), (runsAt s fold 0x43 w) ∧ (ea = (reg s fold
    (kRs1 w) + BitVec.ofNat 32 (kImm w)).toNat) ∧ (ea ≤ 0x3FFF8 ∧ ea % 8 = 0) ∧ (s.wordPending fold [ea / 4, ea / 4 +
    1] = false) ∧ (s.loadBad fold (ea / 4) = false ∧ s.loadBad fold (ea / 4 + 1) = false)) ∧ (∃ (s : State) (fold :
    Fin 4) (w : Nat) (ea : Nat), (runsAt s fold 0x44 w) ∧ (ea = (reg s fold (kRs1 w) + BitVec.ofNat 32 (kImm
    w)).toNat) ∧ (ea ≤ 0x3FFF8 ∧ ea % 8 = 0) ∧ (s.wordPending fold [ea / 4, ea / 4 + 1] = false) ∧ ((s.fold fold).tx =
    none)) ∧ (∃ (s : State) (fold : Fin 4) (w : Nat), (standsAt s fold w) ∧ (kOp w = 0x7C) ∧ ((s.fold fold).strips.all
    Option.isNone = true)) ∧ (∃ (s : State) (fold : Fin 4) (w : Nat), (standsAt s fold w) ∧ (kOp w = 0x7E) ∧ ((s.fold
    fold).strips.all Option.isNone = true)) ∧ (∃ (s : State) (fold : Fin 4) (w : Nat), (runsAt s fold 0x7D w) ∧
    (w.testBit 32 = false)) :=
⟨⟨inRunAt upTile 3 (kw 0x1D 7 0 0 1), 3, kw 0x1D 7 0 0 1, by decide +kernel⟩, ⟨inRunAt upTile 3 (kw 0x1D 7 0 0 1), 3,
    kw 0x1D 7 0 0 1, by decide +kernel⟩, ⟨(inRunAt upTile 3 (kw 0x40 7 5 0 0x3FC)).onFold 3 fun f =>
    { f with scratch := [(0xFFFF, 0xABCDEF12)] }, 3, kw 0x40 7 5 0 0x3FC, 0x3FFFC, by decide +kernel⟩, ⟨(inRunAt
    upTile 3 (kw 0x40 7 5 0 0x3FC)).onFold 3 fun f =>
    { f with scratchBad := [0xFFFF], tx := some ⟨0, 0, 0, [(1, 2), (0xFFFF, 77)], 2⟩ }, 3, kw 0x40 7 5 0 0x3FC,
    0x3FFFC, 77, (⟨0, 0, 0, [(1, 2), (0xFFFF, 77)], 2⟩ : FoldTx), by decide +kernel⟩, ⟨(inRunAt upTile 3 (kw 0x41 4 5
    0 0x3FC)).onFold 3 fun f => { f with scratch := [(2, 3), (0xFFFF, 0xABCDEF12)], scratchBad := [0xFFFF] }, 3, kw
    0x41 4 5 0 0x3FC, 0x3FFFC, by decide +kernel⟩, ⟨(inRunAt upTile 3 (kw 0x41 4 5 0 0x3FC)).onFold 3 fun f =>
    { f with tx := some ⟨0, 0, 0, [(1, 2), (0xFFFF, 77)], 2⟩ }, 3, kw 0x41 4 5 0 0x3FC, 0x3FFFC, by decide +kernel⟩,
    ⟨(inRunAt upTile 3 (kw 0x42 7 5 0 0x3F8)).onFold 3 fun f =>
    { f with scratch := [(0xFFFE, 0xABCDEF12), (0xFFFF, 0x543210ED)] }, 3, kw 0x42 7 5 0 0x3F8, 0x3FFF8, 0xABCDEF12,
    by decide +kernel⟩, ⟨(inRunAt upTile 3 (kw 0x43 15 5 0 0x3F8)).onFold 3 fun f =>
    { f with scratch := [(0xFFFE, 0xABCDEF12), (0xFFFF, 0x543210ED)] }, 3, kw 0x43 15 5 0 0x3F8, 0x3FFF8,
    by decide +kernel⟩, ⟨(inRunAt upTile 3 (kw 0x44 15 5 0 0x3F8)).setQ 3 15 0x1122334455667788, 3, kw 0x44 15 5 0
    0x3F8, 0x3FFF8, by decide +kernel⟩, ⟨inRunAt upTile 3 (kw 0x7C 0 0 0 0), 3, kw 0x7C 0 0 0 0, by decide +kernel⟩,
    ⟨inRunAt upTile 3 (kw 0x7E 0 0 0 0), 3, kw 0x7E 0 0 0 0, by decide +kernel⟩, ⟨inRunAt upTile 3 (kw 0x7D 0 0 0
    0xBEEF), 3, kw 0x7D 0 0 0 0xBEEF, by decide +kernel⟩⟩

theorem witness_FoldFaults : (∃ (s : State) (fold : Fin 4), (s.folds.length = 4 ∧ s.pwr.up = true ∧ s.inRun fold =
    true ∧ (s.fold fold).ended = false ∧ s.f F.FOLDn_STATUS_WAIT fold = 0) ∧ (kOp ((s.fold fold).prog.get (s.fold
    fold).pc) = 0) ∧ ((s.fold fold).pc < 8192) ∧ ((s.fold fold).pc ∈ (s.fold fold).progBad)) ∧ (∃ (s : State) (fold :
    Fin 4) (w : Nat), (standsAt s fold w) ∧ (kOp w = 0) ∧ ((s.fold fold).pc = 8191)) ∧ (∃ (s : State) (fold : Fin 4)
    (w : Nat) (ea : Nat), (standsAt s fold w) ∧ (kOp w = 0x40) ∧ (ea = (reg s fold (kRs1 w) + BitVec.ofNat 32 (kImm
    w)).toNat) ∧ (0x3FFFC < ea ∨ ea % 4 ≠ 0)) ∧ (∃ (s : State) (fold : Fin 4) (w : Nat) (ea : Nat), (standsAt s fold
    w) ∧ (kOp w = 0x41) ∧ (ea = (reg s fold (kRs1 w) + BitVec.ofNat 32 (kImm w)).toNat) ∧ (0x3FFFC < ea ∨ ea % 4 ≠ 0))
    ∧ (∃ (s : State) (fold : Fin 4) (w : Nat) (ea : Nat), (standsAt s fold w) ∧ (kOp w = 0x44) ∧ (ea = (reg s fold
    (kRs1 w) + BitVec.ofNat 32 (kImm w)).toNat) ∧ (0x3FFF8 < ea ∨ ea % 8 ≠ 0)) ∧ (∃ (s : State) (fold : Fin 4) (w :
    Nat) (ea : Nat), (standsAt s fold w) ∧ (kOp w = 0x40) ∧ (ea = (reg s fold (kRs1 w) + BitVec.ofNat 32 (kImm
    w)).toNat) ∧ (ea ≤ 0x3FFFC ∧ ea % 4 = 0) ∧ (s.wordPending fold [ea / 4] = false) ∧ (s.loadBad fold (ea / 4) =
    true)) ∧ (∃ (s : State) (fold : Fin 4) (w : Nat) (ea : Nat), (standsAt s fold w) ∧ (kOp w = 0x40) ∧ (ea = (reg s
    fold (kRs1 w) + BitVec.ofNat 32 (kImm w)).toNat) ∧ (ea ≤ 0x3FFFC ∧ ea % 4 = 0) ∧ (s.wordPending fold [ea / 4] =
    true)) ∧ (∃ (s : State) (fold : Fin 4) (w : Nat) (ea : Nat), (standsAt s fold w) ∧ (kOp w = 0x42) ∧ (ea = (reg s
    fold (kRs1 w) + BitVec.ofNat 32 (kImm w)).toNat) ∧ (ea ≤ 0x3FFF8 ∧ ea % 8 = 0) ∧ (s.wordPending fold [ea / 4, ea /
    4 + 1] = false) ∧ (s.loadBad fold (ea / 4) = false ∧ s.loadBad fold (ea / 4 + 1) = false) ∧ (s.loadWord fold (ea /
    4) + s.loadWord fold (ea / 4 + 1) ≠ 4294967295 ∧ s.loadWord fold (ea / 4) < 4294967296)) ∧ (∃ (s : State) (fold :
    Fin 4) (w : Nat), (standsAt s fold w) ∧ (kOp w = 0x1D) ∧ (8 ≤ kImm w)) ∧ (∃ (s : State) (fold : Fin 4) (w : Nat),
    (standsAt s fold w) ∧ (kOp w = 0x7C) ∧ ((s.fold fold).strips.any Option.isSome = true)) ∧ (∃ (s : State) (fold :
    Fin 4) (w : Nat), (standsAt s fold w) ∧ (kOp w = 0x70) ∧ (kImm w = 3)) ∧ (∃ (s : State) (fold : Fin 4) (w : Nat),
    (standsAt s fold w) ∧ (kOp w = 0x7D) ∧ (w.testBit 32 = true)) ∧ (∃ (s : State) (fold : Fin 4) (w : Nat), (standsAt
    s fold w) ∧ (kOp w = 0x70) ∧ (kImm w < 3) ∧ ((s.fold fold).tx.isSome = true ∨ (s.fold fold).scheduled.isSome =
    true)) ∧ (∃ (s : State) (fold : Fin 4) (w : Nat), (standsAt s fold w) ∧ (kOp w = 0x71) ∧ ((s.fold fold).tx =
    none)) :=
⟨⟨(inRunAt upTile 3 0).onFold 3 fun f => { f with progBad := [5] }, 3, by decide +kernel⟩, ⟨(inRunAt upTile 3
    0).onFold 3 fun f => { f with pc := 8191 }, 3, 0, by decide +kernel⟩, ⟨inRunAt upTile 3 (kw 0x40 7 5 0 0x400), 3,
    kw 0x40 7 5 0 0x400, 0x40000, by decide +kernel⟩, ⟨inRunAt upTile 3 (kw 0x41 7 5 0 0x3FE), 3, kw 0x41 7 5 0 0x3FE,
    0x3FFFE, by decide +kernel⟩, ⟨inRunAt upTile 3 (kw 0x44 7 5 0 0x3FC), 3, kw 0x44 7 5 0 0x3FC, 0x3FFFC,
    by decide +kernel⟩, ⟨(inRunAt upTile 3 (kw 0x40 7 5 0 0x3FC)).onFold 3 fun f => { f with scratchBad := [0xFFFF] },
    3, kw 0x40 7 5 0 0x3FC, 0x3FFFC, by decide +kernel⟩, ⟨(inRunAt upTile 3 (kw 0x40 7 5 0 0x3FC)).onFold 3 fun f =>
    { f with queue := [⟨0x51, ⟨0, 0, 0, 0, 0, 0, false, false, none⟩, some 0x3FFF8, 0, false, 0, 0, 0⟩] }, 3, kw 0x40
    7 5 0 0x3FC, 0x3FFFC, by decide +kernel⟩, ⟨inRunAt upTile 3 (kw 0x42 7 5 0 0x3F8), 3, kw 0x42 7 5 0 0x3F8,
    0x3FFF8, by decide +kernel⟩, ⟨inRunAt upTile 3 (kw 0x1D 7 0 0 8), 3, kw 0x1D 7 0 0 8, by decide +kernel⟩,
    ⟨(inRunAt upTile 3 (kw 0x7C 0 0 0 0)).onFold 3 fun f =>
    { f with strips := [none, none, none, some (0x50, ⟨0, 0, 0, 0, 0, 0, false, false, none⟩)] }, 3, kw 0x7C 0 0 0 0,
    by decide +kernel⟩, ⟨inRunAt upTile 3 (kw 0x70 0 0 0 3), 3, kw 0x70 0 0 0 3, by decide +kernel⟩, ⟨inRunAt upTile 3
    (kw 0x7D 0 0 0 (2 ^ 32 + 1)), 3, kw 0x7D 0 0 0 (2 ^ 32 + 1), by decide +kernel⟩, ⟨(inRunAt upTile 3 (kw 0x70 0 0 0
    1)).onFold 3 fun f => { f with scheduled := some ⟨1, 0, 0, [], 0⟩ }, 3, kw 0x70 0 0 0 1, by decide +kernel⟩,
    ⟨inRunAt upTile 3 (kw 0x71 7 0 0 0), 3, kw 0x71 7 0 0 0, by decide +kernel⟩⟩

theorem witness_BranchRule : (∃ (s : State) (fold : Fin 4) (w : Nat), (runsAt s fold 0x30 w) ∧ ([true, false, (s.fold
    fold).z, !(s.fold fold).z, (s.fold fold).n, !(s.fold fold).n, (s.fold fold).c, !(s.fold fold).c, (s.fold fold).v,
    !(s.fold fold).v, !(s.fold fold).c && !(s.fold fold).z, (s.fold fold).c || (s.fold fold).z, (s.fold fold).n ==
    (s.fold fold).v, (s.fold fold).n != (s.fold fold).v, !(s.fold fold).z && (s.fold fold).n == (s.fold fold).v,
    (s.fold fold).z || (s.fold fold).n != (s.fold fold).v].getD (kCond w) false = true) ∧ ((reg s fold (kRs1 w) +
    BitVec.ofNat 32 (kTarget w)).toNat ≤ 8191)) ∧ (∃ (s : State) (fold : Fin 4) (w : Nat), (runsAt s fold 0x30 w) ∧
    ([true, false, (s.fold fold).z, !(s.fold fold).z, (s.fold fold).n, !(s.fold fold).n, (s.fold fold).c, !(s.fold
    fold).c, (s.fold fold).v, !(s.fold fold).v, !(s.fold fold).c && !(s.fold fold).z, (s.fold fold).c || (s.fold
    fold).z, (s.fold fold).n == (s.fold fold).v, (s.fold fold).n != (s.fold fold).v, !(s.fold fold).z && (s.fold
    fold).n == (s.fold fold).v, (s.fold fold).z || (s.fold fold).n != (s.fold fold).v].getD (kCond w) false = false))
    ∧ (∃ (s : State) (fold : Fin 4) (w : Nat), (standsAt s fold w) ∧ (kOp w = 0x30) ∧ ([true, false, (s.fold fold).z,
    !(s.fold fold).z, (s.fold fold).n, !(s.fold fold).n, (s.fold fold).c, !(s.fold fold).c, (s.fold fold).v, !(s.fold
    fold).v, !(s.fold fold).c && !(s.fold fold).z, (s.fold fold).c || (s.fold fold).z, (s.fold fold).n == (s.fold
    fold).v, (s.fold fold).n != (s.fold fold).v, !(s.fold fold).z && (s.fold fold).n == (s.fold fold).v, (s.fold
    fold).z || (s.fold fold).n != (s.fold fold).v].getD (kCond w) false = true) ∧ (8191 < (reg s fold (kRs1 w) +
    BitVec.ofNat 32 (kTarget w)).toNat)) ∧ (∃ (s : State) (fold : Fin 4) (w : Nat), runsAt s fold 0x0C w) :=
⟨⟨inRunAt upTile 3 (kw 0x30 7 2 0 8189), 3, kw 0x30 7 2 0 8189, by decide +kernel⟩, ⟨inRunAt upTile 3 (kw 0x30 7 2 0
    (8189 + 2 ^ 41)), 3, kw 0x30 7 2 0 (8189 + 2 ^ 41), by decide +kernel⟩, ⟨inRunAt upTile 3 (kw 0x30 7 2 0 8190), 3,
    kw 0x30 7 2 0 8190, by decide +kernel⟩, ⟨inRunAt upTile 3 (kw 0x0C 0 3 4 0), 3, kw 0x0C 0 3 4 0,
    by decide +kernel⟩⟩

theorem witness_RectangleInstructions : (∃ (s : State) (fold : Fin 4) (w : Nat), runsAt s fold 0x20 w) ∧ (∃ (s :
    State) (fold : Fin 4) (w : Nat), runsAt s fold 0x21 w) ∧ (∃ (s : State) (fold : Fin 4) (w : Nat) (ax0 : Nat) (ay0
    : Nat) (ax1 : Nat) (ay1 : Nat) (bx0 : Nat) (by0 : Nat) (bx1 : Nat) (by1 : Nat), (runsAt s fold 0x22 w) ∧ (rectOf
    (s.qreg fold (kQa w)) = (ax0, ay0, ax1, ay1)) ∧ (rectOf (s.qreg fold (kQb w)) = (bx0, by0, bx1, by1))) ∧ (∃ (w :
    Nat), (kortyOk w = true) ∧ (kOp w = 0x20)) ∧ (∃ (w : Nat), (kortyOk w = true) ∧ (kOp w = 0x21)) ∧ (∃ (w : Nat),
    (kortyOk w = true) ∧ (kOp w = 0x22)) :=
⟨⟨inRunAt upTile 3 (kw 0x20 0 3 4 (15 * 2 ^ 37)), 3, kw 0x20 0 3 4 (15 * 2 ^ 37), by decide +kernel⟩, ⟨(inRunAt upTile
    3 (kw 0x21 7 0 0 (3 * 2 ^ 33 + 1))).setQ 3 3 0x1122334455667788, 3, kw 0x21 7 0 0 (3 * 2 ^ 33 + 1),
    by decide +kernel⟩, ⟨((inRunAt upTile 3 (kw 0x22 0 0 0 (2 * 2 ^ 37 + 3 * 2 ^ 33))).setQ 3 3
    0x0010002000010002).setQ 3 2 0x0011001F00000003, 3, kw 0x22 0 0 0 (2 * 2 ^ 37 + 3 * 2 ^ 33), 3, 0, 0x1F, 0x11, 2,
    1, 0x20, 0x10, by decide +kernel⟩, ⟨kw 0x20 0 3 4 (15 * 2 ^ 37), by decide +kernel⟩, ⟨kw 0x21 7 0 0 (15 * 2 ^ 33 +
    1), by decide +kernel⟩, ⟨kw 0x22 0 0 0 (15 * 2 ^ 37 + 15 * 2 ^ 33), by decide +kernel⟩⟩

theorem witness_FoldsSynchronise : (∃ (s : State) (fold : Fin 4) (w : Nat), (runsAt s fold 0x60 w) ∧ (((s.fold
    fold).start : Int) + (reg s fold (kRs1 w) + BitVec.ofNat 32 (kImm w)).toInt * (nsU : Nat) ≤ s.time.clock)) ∧ (∃ (s
    : State) (fold : Fin 4) (w : Nat), (runsAt s fold 0x60 w) ∧ ((s.time.clock : Int) < ((s.fold fold).start : Int) +
    (reg s fold (kRs1 w) + BitVec.ofNat 32 (kImm w)).toInt * (nsU : Nat))) ∧ (∃ (s : State) (fold : Fin 4) (w : Nat)
    (m : Nat) (mask : Nat), (runsAt s fold 0x61 w) ∧ (m = kImm w % 4 ∧ mask = bits (kImm w) 8 8) ∧ (Nat.land (s.fold
    m).events mask = mask)) ∧ (∃ (s : State) (fold : Fin 4) (w : Nat) (m : Nat) (mask : Nat), (runsAt s fold 0x61 w) ∧
    (m = kImm w % 4 ∧ mask = bits (kImm w) 8 8) ∧ (Nat.land (s.fold m).events mask ≠ mask) ∧ (s.inRun m = false ∨
    (s.fold m).frame ≠ (s.fold fold).frame ∨ (s.fold m).slot ≠ (s.fold fold).slot)) ∧ (∃ (s : State) (fold : Fin 4) (w
    : Nat) (m : Nat) (mask : Nat), (runsAt s fold 0x61 w) ∧ (m = kImm w % 4 ∧ mask = bits (kImm w) 8 8) ∧ (Nat.land
    (s.fold m).events mask ≠ mask) ∧ (s.inRun m = true ∧ (s.fold m).frame = (s.fold fold).frame ∧ (s.fold m).slot =
    (s.fold fold).slot)) ∧ (∃ (s : State) (fold : Fin 4) (w : Nat), (runsAt s fold 0x62 w) ∧ ((s.fold fold).queue =
    [])) ∧ (∃ (s : State) (fold : Fin 4) (w : Nat), (runsAt s fold 0x62 w) ∧ ((s.fold fold).queue ≠ [])) ∧ (∃ (s :
    State) (fold : Fin 4) (w : Nat) (ns : Nat), (runsAt s fold 0x63 w) ∧ (ns = bits (kImm w) 0 20)) ∧ (∃ (s : State)
    (fold : Fin 4) (w : Nat) (k : Nat), (runsAt s fold 0x64 w) ∧ (k = bits (kImm w) 0 7)) :=
⟨⟨(inRunAt upTile 3 (kw 0x60 0 1 0 4)).onTime fun x => { x with clock := 5 * nsU }, 3, kw 0x60 0 1 0 4,
    by decide +kernel⟩, ⟨inRunAt upTile 3 (kw 0x60 0 1 0 4), 3, kw 0x60 0 1 0 4, by decide +kernel⟩, ⟨(inRunAt upTile
    3 (kw 0x61 0 0 0 0x8101)).onFold 1 fun f => { f with events := 0xC1 }, 3, kw 0x61 0 0 0 0x8101, 1, 0x81,
    by decide +kernel⟩, ⟨(inRunAt upTile 3 (kw 0x61 0 0 0 0x8101)).onFold 1 fun f => { f with events := 0x41 }, 3, kw
    0x61 0 0 0 0x8101, 1, 0x81, by decide +kernel⟩, ⟨inRunAt (inRunAt upTile 1 0) 3 (kw 0x61 0 0 0 0x8101), 3, kw 0x61
    0 0 0 0x8101, 1, 0x81, by decide +kernel⟩, ⟨(inRunAt upTile 3 (kw 0x62 0 0 0 0x81)).onFold 3 fun f =>
    { f with events := 2 }, 3, kw 0x62 0 0 0 0x81, by decide +kernel⟩, ⟨(inRunAt upTile 3 (kw 0x62 0 0 0 0x81)).onFold
    3 fun f => { f with queue := [⟨0x51, ⟨0, 0, 0, 0, 0, 0, false, false, none⟩, none, 0, false, 0, 0, 0⟩] }, 3, kw
    0x62 0 0 0 0x81, by decide +kernel⟩, ⟨inRunAt upTile 3 (kw 0x63 0 0 0 100), 3, kw 0x63 0 0 0 100, 100,
    by decide +kernel⟩, ⟨(inRunAt upTile 3 (kw 0x64 0 0 0 0)).onFold 3 fun f =>
    { f with queue := [⟨0x51, ⟨0, 0, 0, 0, 0, 0, false, false, none⟩, none, 0, false, 0, 0, 0⟩] }, 3, kw 0x64 0 0 0 0,
    0, by decide +kernel⟩⟩

theorem witness_FoldTransactionsAct : (∃ (s : State) (fold : Fin 4) (w : Nat), (runsAt s fold 0x70 w) ∧ (kImm w < 3) ∧
    ((s.fold fold).tx = none ∧ (s.fold fold).scheduled = none)) ∧ (∃ (s : State) (fold : Fin 4) (w : Nat) (d : Nat),
    (runsAt s fold 0x70 w) ∧ (kImm w = 2) ∧ ((s.fold fold).tx = none ∧ (s.fold fold).scheduled = none) ∧ (d <
    2147483648) ∧ (reg s fold (kRs1 w) = BitVec.ofNat 32 ((s.fold fold).frame + d))) ∧ (∃ (s : State) (fold : Fin 4)
    (w : Nat) (x : FoldTx), (runsAt s fold 0x71 w) ∧ ((s.fold fold).tx = some x) ∧ (x.boundary = 0) ∧ (x.count ≤ 4096)
    ∧ (x.stores.all (fun e => !(s.heldScratch fold).contains e.1) = true) ∧ ((x.stores.map (·.1)).Nodup)) ∧ (∃ (s :
    State) (fold : Fin 4) (w : Nat) (x : FoldTx), (runsAt s fold 0x71 w) ∧ ((s.fold fold).tx = some x) ∧ (x.boundary =
    1) ∧ (x.count ≤ 4096) ∧ (x.stores.all (fun e => !(s.heldScratch fold).contains e.1) = true)) ∧ (∃ (s : State)
    (fold : Fin 4) (w : Nat) (x : FoldTx), (runsAt s fold 0x71 w) ∧ ((s.fold fold).tx = some x) ∧ (x.stores.any (fun e
    => (s.heldScratch fold).contains e.1) = true)) ∧ (∃ (s : State) (fold : Fin 4) (w : Nat) (x : FoldTx), (runsAt s
    fold 0x71 w) ∧ ((s.fold fold).tx = some x) ∧ (x.stores.all (fun e => !(s.heldScratch fold).contains e.1) = true) ∧
    (4096 < x.count)) ∧ (∃ (s : State) (fold : Fin 4) (w : Nat) (d : Nat) (id : Nat) (tab : Nat) (first : Nat) (cnt :
    Nat) (a : Nat) (size : Nat) (entries : Nat) (fl : Flock), (runsAt s fold 0x72 w) ∧ (d = (reg s fold (kRs2
    w)).toNat ∧ d % 8 = 0 ∧ d + 16 ≤ 262144) ∧ ((s.fold fold).queue = [] ∧ (s.fold fold).scratchBad = []) ∧ (id = (reg
    s fold (kRs1 w)).toNat % 4096) ∧ (s.loadBytes fold d 16 = toLE 2 tab ++ [0, 0] ++ toLE 4 first ++ toLE 2 cnt ++
    [0, 0] ++ toLE 4 a) ∧ (tab < 65536 ∧ first < 4294967296 ∧ cnt < 65536 ∧ a < 4294967296) ∧ (s.tableShape tab = some
    (size, entries)) ∧ (a % size = 0 ∧ cnt * size ≤ 4096 ∧ a + cnt * size ≤ 262144) ∧ (s.flock id = some fl) ∧
    (fl.voted = false ∧ (fl.st = 1 ∨ fl.st = 2))) ∧ (∃ (s : State) (fold : Fin 4) (w : Nat) (id : Nat) (fl : Flock),
    (runsAt s fold 0x73 w) ∧ (id = (reg s fold (kRs1 w)).toNat % 4096) ∧ (s.flock id = some fl) ∧ (fl.voted = false ∧
    (fl.st = 1 ∨ fl.st = 2))) ∧ (∃ (s : State) (fold : Fin 4) (w : Nat), (runsAt s fold 0x73 w) ∧ (s.flock ((reg s
    fold (kRs1 w)).toNat % 4096) = none)) :=
⟨⟨inRunAt upTile 3 (kw 0x70 0 1 0 2), 3, kw 0x70 0 1 0 2, by decide +kernel⟩, ⟨(inRunAt upTile 3 (kw 0x70 0 1 0
    2)).onFold 3 fun f => { f with frame := 2 ^ 32 - 5 }, 3, kw 0x70 0 1 0 2, 6, by decide +kernel⟩, ⟨(inRunAt upTile
    3 (kw 0x71 7 0 0 0)).onFold 3 fun f => { f with tx := some ⟨0, 0, 0, [(1, 2), (0xFFFF, 77)], 2⟩ }, 3, kw 0x71 7 0
    0 0, (⟨0, 0, 0, [(1, 2), (0xFFFF, 77)], 2⟩ : FoldTx), by decide +kernel⟩, ⟨(inRunAt upTile 3 (kw 0x71 7 0 0
    0)).onFold 3 fun f => { f with tx := some ⟨1, 0, 0, [(1, 2), (0xFFFF, 77)], 2⟩ }, 3, kw 0x71 7 0 0 0, (⟨1, 0, 0,
    [(1, 2), (0xFFFF, 77)], 2⟩ : FoldTx), by decide +kernel⟩,
    ⟨{ (inRunAt upTile 3 (kw 0x71 7 0 0 0)).onFold 3 fun f => { f with tx := some ⟨1, 0, 0, [(1, 2), (0xFFFF, 77)], 2⟩ } with flocks := [{ id := 5, content := [⟨some 0xA13, 1, [0, 0, 0, 0]⟩] }] },
    3, kw 0x71 7 0 0 0, (⟨1, 0, 0, [(1, 2), (0xFFFF, 77)], 2⟩ : FoldTx), by decide +kernel⟩, ⟨(inRunAt upTile 3 (kw
    0x71 7 0 0 0)).onFold 3 fun f => { f with tx := some ⟨1, 0, 0, [(1, 2), (0xFFFF, 77)], 4097⟩ }, 3, kw 0x71 7 0 0
    0, (⟨1, 0, 0, [(1, 2), (0xFFFF, 77)], 4097⟩ : FoldTx), by decide +kernel⟩,
    ⟨{ (inRunAt upTile 3 (kw 0x72 0 2 5 0)).onFold 3 fun f => { f with scratch := [(0xFF00, 0x0A10), (0xFF01, 7), (0xFF02, 2), (0xFF03, 4), (1, 0x11223344), (2, 0x55)] } with flocks := [{ id := 2, st := 1 }] },
    3, kw 0x72 0 2 5 0, 0x3FC00, 2, 0x0A10, 7, 2, 4, 4, 65536, ({ id := 2, st := 1 } : Flock), by decide +kernel⟩,
    ⟨{ inRunAt upTile 3 (kw 0x73 0 2 0 1) with flocks := [{ id := 2, st := 1, foldVotes := [(3, true), (1, true)] }] },
    3, kw 0x73 0 2 0 1, 2, ({ id := 2, st := 1, foldVotes := [(3, true), (1, true)] } : Flock), by decide +kernel⟩,
    ⟨inRunAt upTile 3 (kw 0x73 0 2 0 1), 3, kw 0x73 0 2 0 1, by decide +kernel⟩⟩

theorem witness_PipelineInstructionsAct : (∃ (s : State) (fold : Fin 4) (w : Nat) (k : Nat) (g : Nat) (p : PStrip),
    (runsAt s fold 0x50 w) ∧ ((s.fold fold).queue = []) ∧ (s.isHead = false) ∧ (k = bits (kStage w) 0 2 ∧ g = bits
    (kStage w) 2 2) ∧ (p = (⟨g, bits (s.qreg fold (kQa w)) 0 16, bits (s.qreg fold (kQa w)) 16 16, bits (s.qreg fold
    (kQa w)) 32 16, bits (s.qreg fold (kQa w)) 48 16, (reg s fold (kRs2 w)).toNat % 65536, (kStage w).testBit 4,
    false, none⟩ : PStrip)) ∧ (nth (s.fold fold).strips k none = none) ∧ (s.composed g = true) ∧ (s.stripOk g (p.x0,
    p.y0, p.x1, p.y1) = true) ∧ (kRs1 w = 0 ∨ (reg s fold (kRs1 w)).toNat % 8 = 0 ∧ (reg s fold (kRs1 w)).toNat + 8 ≤
    262144)) ∧ (∃ (s : State) (fold : Fin 4) (w : Nat) (p : (Nat × List Nat × Bool) × Instr) (x : Nat × PStrip), (p ∈
    [((0x51, [0x50], false), .fetch fold), ((0x52, [0x51], false), .scale fold), ((0x53, [0x52], false), .csc fold),
    ((0x54, [0x53], false), .blend fold), ((0x55, [0x54, 0x59], true), .angle fold), ((0x56, [0x54, 0x59, 0x55],
    false), .correct fold), ((0x57, [0x56, 0x57], false), .crc fold)]) ∧ (runsAt s fold p.1.1 w) ∧ ((s.fold
    fold).queue.head?.all (fun i => i.op != 0x62 && (i.op != 0x58 || i.started)) = true) ∧ ((s.fold fold).incomplete <
    64) ∧ (s.isHead = false) ∧ (nth (s.fold fold).strips (kStage w % 4) none = some x) ∧ (x.1 ∈ p.1.2.1) ∧ (kRs1 w = 0
    ∨ (reg s fold (kRs1 w)).toNat % 8 = 0 ∧ (reg s fold (kRs1 w)).toNat + 8 ≤ 262144)) ∧ (∃ (s : State) (fold : Fin 4)
    (w : Nat) (x : Nat × PStrip), (runsAt s fold 0x58 w) ∧ ((s.fold fold).queue = []) ∧ (s.isHead = false) ∧ (nth
    (s.fold fold).strips (kStage w % 4) none = some x) ∧ (x.1 = 0x56 ∨ x.1 = 0x57) ∧ (kRs1 w = 0 ∨ (reg s fold (kRs1
    w)).toNat % 8 = 0 ∧ (reg s fold (kRs1 w)).toNat + 8 ≤ 262144)) ∧ (∃ (s : State) (fold : Fin 4) (w : Nat),
    (standsAt s fold w) ∧ (kOp w = 0x51) ∧ ((s.fold fold).incomplete < 64) ∧ (nth (s.fold fold).strips (kStage w % 4)
    none = none)) ∧ (∃ (s : State) (fold : Fin 4) (w : Nat), (standsAt s fold w) ∧ (kOp w = 0x52) ∧ (64 ≤ (s.fold
    fold).incomplete)) ∧ (∃ (s : State) (fold : Fin 4) (w : Nat) (d : Nat) (k : Nat) (g : Nat) (b : Bytes), (runsAt s
    fold 0x59 w) ∧ ((s.fold fold).queue = [] ∧ (s.fold fold).scratchBad = []) ∧ (s.isHead = false) ∧ (k = bits (kStage
    w) 0 2 ∧ g = bits (kStage w) 2 2 ∧ bits (kStage w) 4 4 ≤ 6) ∧ (d = (reg s fold (kRs2 w)).toNat ∧ d % 8 = 0 ∧ d +
    16 ≤ 262144) ∧ ((b = (List.range 4).flatMap fun j => toLE 4 ((s.fold fold).scratch.get (d / 4 + j)))) ∧ (le b 12 2
    ≤ 4096) ∧ (nth (s.fold fold).strips k none = none) ∧ (s.composed g = true) ∧ (s.stripOk g (rectOf (s.qreg fold
    (kQa w))) = true)) ∧ (∃ (s : State) (fold : Fin 4) (w : Nat) (d : Nat) (l : Nat), (runsAt s fold 0x59 w) ∧
    ((s.fold fold).queue = [] ∧ (s.fold fold).scratchBad = []) ∧ (s.isHead = true) ∧ (l = bits (kStage w) 8 4 ∧ bits
    (kStage w) 4 4 ≤ 6) ∧ (d = (reg s fold (kRs2 w)).toNat ∧ d % 8 = 0 ∧ d + 16 ≤ 262144) ∧ ((s.fold fold).scratch.get
    (d / 4 + 3) % 65536 ≤ 4096) ∧ (s.b F.LAYERn_INGEST_ENABLE l = true ∧ s.f F.LAYERn_INGEST_KIND l = 5 ∧ s.f
    F.LAYERn_INGEST_INDEX l = fold.val) ∧ (bits (s.qreg fold (kQa w)) 32 16 ≤ s.layerW l ∧ bits (s.qreg fold (kQa w))
    48 16 ≤ s.layerH l)) ∧ (∃ (s : State) (fold : Fin 4) (i : PItem) (a : Nat), (s.pwr.up = true) ∧ (s.folds.length =
    4) ∧ (s.inRun fold = true) ∧ (s.f F.FOLDn_STATUS_WAIT fold = 0) ∧ ((s.fold fold).queue = [i]) ∧ (i.op = 0x58 ∧
    s.pushWaits fold = false) ∧ (i.rec_ = some a)) ∧ (∃ (s : State) (fold : Fin 4) (i : PItem), (s.pwr.up = true) ∧
    (s.folds.length = 4) ∧ (s.inRun fold = true) ∧ (s.f F.FOLDn_STATUS_WAIT fold = 0) ∧ ((s.fold fold).queue = [i]) ∧
    (i.op ∈ [0x52, 0x53, 0x54, 0x55] ∧ i.rec_ = none) ∧ (s.badTable fold i = none)) ∧ (∃ (s : State) (fold : Fin 4) (i
    : PItem), (s.pwr.up = true) ∧ (s.folds.length = 4) ∧ (s.inRun fold = true) ∧ (s.f F.FOLDn_STATUS_WAIT fold ≠ 5) ∧
    ((s.fold fold).queue = [i]) ∧ (i.op ∈ [0x52, 0x53, 0x54, 0x55]) ∧ ((s.badTable fold i).isSome = true)) :=
⟨⟨(((inRunAt upTile 3 (kw 0x50 0 0 4 0x13)).put F.COMP_GRPg_CTL_ENABLE 1 0).put F.COMP_GRPg_SIZE_WP 16 0).put
    F.COMP_GRPg_SIZE_HP 16 0, 3, kw 0x50 0 0 4 0x13, 3, 0, (⟨0, 0, 0, 0, 0, 0xFFFF, true, false, none⟩ : PStrip),
    by decide +kernel⟩, ⟨(inRunAt upTile 3 (kw 0x51 0 0 0 3)).onFold 3 fun f =>
    { f with strips := [none, none, none, some (0x50, ⟨0, 0, 0, 0, 0, 0, false, false, none⟩)] }, 3, kw 0x51 0 0 0 3,
    ((0x51, [0x50], false), .fetch 3), (0x50, ⟨0, 0, 0, 0, 0, 0, false, false, none⟩), by decide +kernel⟩, ⟨(inRunAt
    upTile 3 (kw 0x58 0 0 0 3)).onFold 3 fun f =>
    { f with strips := [none, none, none, some (0x57, ⟨0, 0, 0, 0, 0, 0, false, false, none⟩)] }, 3, kw 0x58 0 0 0 3,
    (0x57, (⟨0, 0, 0, 0, 0, 0, false, false, none⟩ : PStrip)), by decide +kernel⟩, ⟨inRunAt upTile 3 (kw 0x51 0 0 0
    3), 3, kw 0x51 0 0 0 3, by decide +kernel⟩, ⟨(inRunAt upTile 3 (kw 0x52 0 0 0 3)).onFold 3 fun f =>
    { f with queue := List.replicate 64 ⟨0x51, ⟨0, 0, 0, 0, 0, 0, false, false, none⟩, none, 0, false, 0, 0, 0⟩ }, 3,
    kw 0x52 0 0 0 3, by decide +kernel⟩, ⟨(((inRunAt upTile 3 (kw 0x59 0 0 5 0x13)).put F.COMP_GRPg_CTL_ENABLE 1
    0).put F.COMP_GRPg_SIZE_WP 16 0).put F.COMP_GRPg_SIZE_HP 16 0, 3, kw 0x59 0 0 5 0x13, 0x3FC00, 3, 0,
    List.replicate 16 0, by decide +kernel⟩, ⟨((((inRunAt upHead 3 (kw 0x59 0 0 5 0xF10)).put F.LAYERn_INGEST_ENABLE 1
    15).put F.LAYERn_INGEST_KIND 5 15).put F.LAYERn_INGEST_INDEX 3 15), 3, kw 0x59 0 0 5 0xF10, 0x3FC00, 15,
    by decide +kernel⟩, ⟨(inRunAt upTile 3 0).onFold 3 fun f =>
    { f with queue := [⟨0x58, ⟨0, 0, 0, 0, 0, 0, false, false, none⟩, some 8, 0, true, 5, 6, 0⟩] }, 3, (⟨0x58, ⟨0, 0,
    0, 0, 0, 0, false, false, none⟩, some 8, 0, true, 5, 6, 0⟩ : PItem), 8, by decide +kernel⟩, ⟨(inRunAt upTile 3
    0).onFold 3 fun f =>
    { f with queue := [⟨0x53, ⟨0, 0, 0, 0, 0, 0, false, false, none⟩, none, 0, false, 0, 0, 0⟩] }, 3, (⟨0x53, ⟨0, 0,
    0, 0, 0, 0, false, false, none⟩, none, 0, false, 0, 0, 0⟩ : PItem), by decide +kernel⟩, ⟨(((inRunAt upTile 3
    0).onFold 3 fun f =>
    { f with queue := [⟨0x54, ⟨0, 0, 0, 1, 1, 0, false, false, none⟩, none, 0, false, 0, 0, 0⟩] }).onComp fun c =>
    { c with tabBad := [⟨3, 0x731, [0], [0]⟩] }).put F.COMP_GRPg_SIZE_WP 4 0 |>.put F.COMP_GRPg_SIZE_HP 4 0, 3,
    (⟨0x54, ⟨0, 0, 0, 1, 1, 0, false, false, none⟩, none, 0, false, 0, 0, 0⟩ : PItem), by decide +kernel⟩⟩

theorem witness_MemoryActs : (∃ (s : State), (s.on iMEM = true) ∧ (s.b F.MEM_CTL_SCRUB_EN = true ∧ s.b
    F.MEM_STATUS_TRAINED = true) ∧ (s.memBad s.scrubPos 64 = false) ∧ (s.scrubPos + 64 < s.capacity)) ∧ (∃ (s :
    State), (s.on iMEM = true) ∧ (s.b F.MEM_CTL_SCRUB_EN = true ∧ s.b F.MEM_STATUS_TRAINED = true) ∧ (s.memBad
    s.scrubPos 64 = false) ∧ (s.capacity ≤ s.scrubPos + 64)) ∧ (∃ (s : State), (s.on iMEM = true) ∧ (s.b
    F.MEM_CTL_SCRUB_EN = true ∧ s.b F.MEM_STATUS_TRAINED = true) ∧ (s.memBad s.scrubPos 64 = false)) ∧ (∃ (s : State),
    (s.on iMEM = true) ∧ (s.b F.MEM_CTL_SCRUB_EN = true ∧ s.b F.MEM_STATUS_TRAINED = true)) ∧ (∃ (s : State), s.on
    iMEM = true) ∧ (∃ (s : State) (r : MemReq), (s.on iMEM = true) ∧ (1 ≤ r.cls ∧ r.cls ≤ 7) ∧ (s.b
    F.MEM_STATUS_SCRUB_BEHIND = false ∨ r.cls < 7)) ∧ (∃ (s : State) (ch : Fin 8) (a : MemReq) (b : MemReq), (s.on
    iMEM = true) ∧ (s.mst.chans.length = 8) ∧ ((nth s.mst.chans ch {}).grants = 0) ∧ (1 ≤ b.cls ∧ b.cls < a.cls ∧
    a.cls ≤ 7) ∧ (a.granule ≠ b.granule) ∧ (s.b F.MEM_STATUS_SCRUB_BEHIND = false)) ∧ (∃ (s : State) (ch : Fin 8) (a :
    MemReq) (b : MemReq), (s.on iMEM = true) ∧ (s.mst.chans.length = 8) ∧ ((nth s.mst.chans ch {}).grants = 0) ∧ (1 ≤
    b.cls ∧ b.cls < a.cls ∧ a.cls ≤ 7) ∧ (a.granule = b.granule) ∧ (s.b F.MEM_STATUS_SCRUB_BEHIND = false)) ∧ (∃ (s :
    State) (r : MemReq), (s.on iMEM = true) ∧ (s.b F.MEM_STATUS_SCRUB_BEHIND = true) ∧ (r.cls = 7)) ∧ (∃ (s : State),
    s.on iMEM = true) ∧ (∃ (s : State) (ch : Fin 8), (s.on iMEM = true) ∧ (s.b F.MEM_CHn_STATUS_TRAINED ch = true)) ∧
    (∃ (s : State), s.on iMEM = true) ∧ (∃ (s : State), s.on iMEM = true) :=
⟨⟨(((upTile.put F.MEM_CTL_SCRUB_EN 1).put F.MEM_STATUS_TRAINED 1).put F.MEM_CFG_CAPACITY 8).setScrubPos 0xFFFFFFC0,
    by decide +kernel⟩, ⟨(((upTile.put F.MEM_CTL_SCRUB_EN 1).put F.MEM_STATUS_TRAINED 1).put F.MEM_CFG_CAPACITY
    8).setScrubPos 0x1FFFFFFC0, by decide +kernel⟩, ⟨((upTile.put F.MEM_CTL_SCRUB_EN 1).put F.MEM_STATUS_TRAINED
    1).put F.MEM_CFG_CAPACITY 8, by decide +kernel⟩, ⟨((upTile.put F.MEM_CTL_SCRUB_EN 1).put F.MEM_STATUS_TRAINED
    1).put F.MEM_CFG_CAPACITY 8, by decide +kernel⟩, ⟨upTile.onMst fun m => { m with back := [64, 128] },
    by decide +kernel⟩, ⟨upTile, (⟨7, 5, 64⟩ : MemReq), by decide +kernel⟩, ⟨upTile, 7, (⟨7, 5, 64⟩ : MemReq), (⟨2, 5,
    0⟩ : MemReq), by decide +kernel⟩, ⟨upTile, 7, (⟨7, 5, 64⟩ : MemReq), (⟨2, 50, 64⟩ : MemReq), by decide +kernel⟩,
    ⟨upTile.put F.MEM_STATUS_SCRUB_BEHIND 1, (⟨7, 5, 64⟩ : MemReq), by decide +kernel⟩, ⟨upTile, by decide +kernel⟩,
    ⟨upTile.put F.MEM_CHn_STATUS_TRAINED 1 7, 7, by decide +kernel⟩, ⟨upTile.put F.MEM_CHn_TRACK 1 7,
    by decide +kernel⟩, ⟨upTile.put F.MEM_ERR_INFO_VALID 1, by decide +kernel⟩⟩

theorem witness_ThermalModelActs : (∃ (s : State) (temp : Int), (s.pwr.porN = true) ∧ (s.f F.THERM_CFG_SENSOR_TYPE ≠
    2) ∧ (-1280 ≤ temp ∧ temp ≤ 9600) ∧ (s.therm.modelFail = false ∧ s.badMons = [])) ∧ (∃ (s : State) (temp : Int),
    (s.pwr.porN = true) ∧ (s.f F.THERM_CFG_SENSOR_TYPE ≠ 2) ∧ (temp < -1280 ∨ 9600 < temp)) ∧ (∃ (s : State) (kind :
    Fin 3), (s.pwr.porN = true) ∧ (s.f F.THERM_CFG_SENSOR_TYPE ≠ 2) ∧ (kind ≠ 0)) ∧ (∃ (s : State), (s.b
    F.THERM_STATUS_SENSOR_FAULT = true) ∧ (s.therm.nowBad = 0) ∧ (s.therm.lastBad + 1000000000 ≤ s.time.aon)) ∧ (∃ (s
    : State), (s.pwr.porN = true) ∧ (s.therm.started = false) ∧ (s.bounded = true)) ∧ (∃ (s : State) (r : Nat),
    (s.pwr.porN = true) ∧ (s.therm.started = true ∧ s.therm.monFail = []) ∧ (r < 6) ∧ (s.f F.THERM_MODEL_REGr_C r ≠ 0
    ∧ s.f F.THERM_MODEL_REGr_THETA r ≠ 0)) ∧ (∃ (s : State) (r : Nat), (s.pwr.porN = true) ∧ (r < 6)) ∧ (∃ (s : State)
    (r : Nat) (x : Int), (s.pwr.porN = true) ∧ (r < 6) ∧ (s.therm.regions.length = 6) ∧ (50 ≤ (nth s.therm.marks r
    []).length ∧ nth (nth s.therm.marks r []) 49 0 = x) ∧ (8 * 274877906944 < 20 * (s.est r - x))) ∧ (∃ (s : State)
    (region : Fin 6) (state : Fin 5), (state ≠ 4) ∧ (s.therm.regions.length = 6) ∧ ((s.region region).inState state =
    true) ∧ (s.dwelt (nth (s.region region).leaving state none) = true)) ∧ (∃ (s : State), s.dwelt s.therm.cooling =
    true) ∧ (∃ (s : State) (region : Fin 6) (x : Nat), (s.therm.regions.length = 6) ∧ ((s.region region).tick = some
    x) ∧ (x ≤ s.time.clock)) ∧ (∃ (s : State) (n : Nat), (s.pwr.up = true) ∧ (n < 4)) ∧ (∃ (s : State), (s.therm.hold
    = true) ∧ (s.therm.tripAt + 30000000000 ≤ s.time.aon) ∧ (∀ r ∈ List.range 6, s.est r < 75 * 274877906944) ∧
    (s.tripsBefore s.therm.tripAt < 3) ∧ (s.pwr.restartAt = none ∨ s.restartDue = true)) ∧ (∃ (s : State), 3 ≤
    s.tripsBefore s.therm.tripAt) ∧ (∃ (s : State), s.pwr.up = true) ∧ (∃ (s : State) (region : Fin 6) (state : Fin
    5), (s.dwelt s.therm.cooling = false) ∧ (s.dwelt (nth (s.region region).leaving state none) = false)) :=
⟨⟨upTile, 9600, by decide +kernel⟩, ⟨upTile, 9601, by decide +kernel⟩, ⟨upTile, 2, by decide +kernel⟩, ⟨(upTile.put
    F.THERM_STATUS_SENSOR_FAULT 1).onTime fun x => { x with aon := 1000000000 }, by decide +kernel⟩, ⟨upTile.onTherm
    fun x => { x with samples := [640, 642] }, by decide +kernel⟩, ⟨(upTile.onTherm fun x =>
    { x with started := true }).onTherm fun x =>
    { x with temp := [9 * degU, 8 * degU, 7 * degU, 6 * degU, 5 * degU, 4 * degU, 3 * degU] }, 4, by decide +kernel⟩,
    ⟨upTile, 5, by decide +kernel⟩, ⟨upTile.onTherm fun x =>
    { x with recent := List.replicate 7 [40 * degU], marks := List.replicate 6 (List.replicate 50 0) }, 5, 0,
    by decide +kernel⟩, ⟨(upTile.onTherm fun x =>
    { x with regions := List.replicate 6 { levelWarn := true, leaving := [some 5, none, none, none] } }).onTime fun x
    => { x with aon := 100000005 }, 5, 0, by decide +kernel⟩, ⟨((upTile.onTherm fun x =>
    { x with cooling := some 5 }).put F.MEM_STATUS_HOT_REFRESH 1).onTime fun x => { x with aon := 100000005 },
    by decide +kernel⟩, ⟨((upTile.onTherm fun x => { x with recent := List.replicate 7 [100 * degU] }).onTherm fun x
    => { x with regions := List.replicate 6 { levelThrottle := true, c := 9, tick := some 5 } }).onTime fun x =>
    { x with clock := 6 }, 5, 5, by decide +kernel⟩, ⟨upTile, 3, by decide +kernel⟩, ⟨(upTile.onTherm fun x =>
    { x with hold := true, tripAt := 0 }).onTime fun x => { x with aon := 30000000000 }, by decide +kernel⟩,
    ⟨upTile.onTherm fun x => { x with hold := true, tripAt := 9, trips := [9, 8, 7] }, by decide +kernel⟩, ⟨upTile.put
    F.THERM_REGr_PEAK 5 5, by decide +kernel⟩, ⟨upTile, 5, 0, by decide +kernel⟩⟩

theorem witness_WritesAndCalibrationAct : (∃ (s : State), (s.b F.THERM_STATUS_WINDOW_OPEN = false) ∧ (s.boot.unitOn =
    false) ∧ (s.dwelt s.therm.opening = true)) ∧ (∃ (s : State) (j : Job) (a : Nat), (s.boot.unitOn = false) ∧
    (s.boot.jobs = [j]) ∧ (s.boot.deferredAt = some a) ∧ (s.b F.THERM_STATUS_WINDOW_OPEN = false) ∧ (a + s.f
    F.THERM_CFG_WRITE_DEFER * 10000000000 < s.time.aon)) ∧ (∃ (s : State) (j : Job) (a : Nat) (b : Bytes) (us : List
    FlashUnit) (rest : List Job), (s.boot.unitOn = true) ∧ (s.boot.jobs = j :: rest) ∧ (j.units = .program a b :: us)
    ∧ (us ≠ [])) ∧ (∃ (s : State) (j : Job) (a : Nat) (k : Nat) (us : List FlashUnit) (rest : List Job),
    (s.boot.unitOn = true) ∧ (s.boot.jobs = j :: rest) ∧ (j.units = .erase a :: us) ∧ (us ≠ []) ∧ (k < 4096)) ∧ (∃ (s
    : State) (j : Job) (st : Nat), (s.boot.unitOn = true) ∧ (s.boot.jobs = [j]) ∧ (j.kind = .lc st ∧ st < 4) ∧
    (j.units = [.lifeCycle st])) ∧ (∃ (s : State) (j : Job) (st : Nat), (s.boot.unitOn = true) ∧ (s.boot.jobs = [j]) ∧
    (j.kind = .lc st) ∧ (j.units = [.counter])) ∧ (∃ (s : State) (mask : Nat) (u : Nat), (s.pwr.up = true) ∧
    (s.therm.cals.length = 5) ∧ (u < 5 ∧ mask = 2 ^ u) ∧ ((s.cal u).busy = false)) ∧ (∃ (s : State) (mask : Nat) (u :
    Nat), (s.pwr.up = true) ∧ (s.therm.cals.length = 5) ∧ (u < 5 ∧ mask = 2 ^ u) ∧ ((s.cal u).busy = true)) ∧ (∃ (s :
    State) (unit : Fin 5), (s.pwr.up = true) ∧ (s.therm.cals.length = 5) ∧ ((s.cal unit).busy = true)) ∧ (∃ (s :
    State) (unit : Fin 5), (s.therm.cals.length = 5) ∧ ((s.cal unit).busy = true) ∧ ((s.cal unit).held = false)) ∧ (∃
    (s : State) (unit : Fin 5), (s.therm.cals.length = 5) ∧ ((s.cal unit).busy = true) ∧ ((s.cal unit).held = false))
    ∧ (∃ (s : State), s.dwelt s.therm.opening = false) ∧ (∃ (s : State) (a : Nat), (s.boot.deferredAt = some a) ∧
    (s.time.aon ≤ a + s.f F.THERM_CFG_WRITE_DEFER * 10000000000)) :=
⟨⟨((upTile.onTherm fun x => { x with opening := some 5 }).onBoot fun b =>
    { b with jobs := [⟨.prepare, [.erase 0], none, 0, none⟩], deferredAt := some 4 }).onTime fun x =>
    { x with aon := 100000005 }, by decide +kernel⟩, ⟨((upTile.put F.THERM_STATUS_WINDOW_OPEN 0).onBoot fun b =>
    { b with jobs := [⟨.prepare, [.erase 0], none, 0, none⟩], deferredAt := some 4 }).onTime fun x =>
    { x with aon := secU 100000 }, (⟨.prepare, [.erase 0], none, 0, none⟩ : Job), 4, by decide +kernel⟩,
    ⟨(upTile.onBoot fun x => { x with unitOn := true, flash := Memory.write [] 0x10 [0xF0] }).onBoot fun x =>
    { x with jobs := [⟨.prepare, [.program 0x10 [0x3C, 1], .erase 0], none, 0, none⟩] }, (⟨.prepare, [.program 0x10
    [0x3C, 1], .erase 0], none, 0, none⟩ : Job), 0x10, [0x3C, 1], [.erase 0], [], by decide +kernel⟩, ⟨(upTile.onBoot
    fun x => { x with unitOn := true, flash := Memory.write [] 0x1FFF [0xF0] }).onBoot fun x =>
    { x with jobs := [⟨.prepare, [.erase 0x1000, .counter], none, 0, none⟩] }, (⟨.prepare, [.erase 0x1000, .counter],
    none, 0, none⟩ : Job), 0x1000, 4095, [.counter], [], by decide +kernel⟩, ⟨upTile.onBoot fun x =>
    { x with unitOn := true, jobs := [⟨.lc 2, [.lifeCycle 2], none, 0, none⟩] }, (⟨.lc 2, [.lifeCycle 2], none, 0,
    none⟩ : Job), 2, by decide +kernel⟩, ⟨upTile.onBoot fun x =>
    { x with unitOn := true, jobs := [⟨.lc 2, [.counter], none, 0, none⟩] }, (⟨.lc 2, [.counter], none, 0, none⟩ :
    Job), 2, by decide +kernel⟩, ⟨upTile, 16, 4, by decide +kernel⟩, ⟨upTile.onCal 4 fun c => { c with busy := true },
    16, 4, by decide +kernel⟩, ⟨upTile.onCal 2 fun c => { c with busy := true }, 2, by decide +kernel⟩, ⟨upTile.onCal
    4 fun c => { c with busy := true }, 4, by decide +kernel⟩, ⟨upTile.onCal 4 fun c => { c with busy := true }, 4,
    by decide +kernel⟩, ⟨upTile.onTherm fun x => { x with opening := some 5 }, by decide +kernel⟩, ⟨upTile.onBoot fun
    b => { b with jobs := [⟨.prepare, [.erase 0], none, 0, none⟩], deferredAt := some 4 }, 4, by decide +kernel⟩⟩

theorem witness_BootActs : (∃ (s : State), (s.boot.romDue = true ∧ s.pwr.up = true ∧ s.on iPERIPH = true ∧
    s.boot.unitOn = false ∧ s.therm.hold = false) ∧ (s.boot.otp.lc = 0 ∨ s.boot.otp.lc = 5)) ∧ (∃ (s : State),
    (s.boot.romDue = true ∧ s.pwr.up = true ∧ s.on iPERIPH = true ∧ s.boot.unitOn = false ∧ s.therm.hold = false) ∧
    (s.boot.otp.lc = 1 ∧ s.f F.BOOT_STRAPS_BOOT_SRC ≠ 3)) ∧ (∃ (s : State) (a : Nat), (s.boot.romDue = true ∧ s.pwr.up
    = true ∧ s.on iPERIPH = true ∧ s.boot.unitOn = false ∧ s.therm.hold = false) ∧ (s.boot.otp.lc = 1 ∧ a < 2 ∧ s.f
    F.BOOT_STRAPS_BOOT_SRC = a + 1)) ∧ (∃ (s : State), (s.boot.training = true ∧ s.on iMEM = true) ∧
    (s.memDescriptor.1 = 1 ∨ s.memDescriptor.1 = 2) ∧ (s.memDescriptor.2 ≤ 3)) ∧ (∃ (s : State), (s.boot.training =
    true ∧ s.on iMEM = true) ∧ (s.memDescriptor.1 = 1 ∨ s.memDescriptor.1 = 2) ∧ (s.memDescriptor.2 ≤ 3)) ∧ (∃ (s :
    State), (s.boot.training = true ∧ s.on iMEM = true)) ∧ (∃ (s : State), s.dlAllowed false = true) ∧ (∃ (s : State),
    (s.boot.running = true ∧ s.boot.forced = false)) ∧ (∃ (s : State), s.dlAllowed false = false) ∧ (∃ (s : State),
    (s.boot.running = true ∧ s.boot.forced = false ∧ s.goStaged = false)) ∧ (∃ (s : State), (s.boot.running = true ∧
    s.boot.forced = false ∧ s.goStaged = false)) ∧ (∃ (s : State) (id : Nat) (v : Nat), ((s.flock id).bind Flock.go =
    some v) ∧ (s.isTile = true ∧ s.boot.running = true ∧ s.boot.forced = false)) ∧ (∃ (s : State) (n : Nat),
    (s.boot.activateAt = some n) ∧ (s.swapAt n ≤ s.time.clock)) ∧ (∃ (s : State) (ctx : Fin 8) (version : Nat) (e :
    Nat), (s.pwr.up = true) ∧ (s.mayWrite ctx 19 = true) ∧ (s.boot.running = true ∧ s.b F.BOOT_STATUS_TRIAL = true ∧
    s.boot.forced = false) ∧ (s.boot.windowEnd = some e) ∧ (s.time.aon ≤ e) ∧ (version = s.boot.version)) ∧ (∃ (s :
    State) (ctx : Fin 8) (version : Nat), (s.pwr.up = true) ∧ (s.mayWrite ctx 19 = true) ∧ (s.b F.BOOT_STATUS_TRIAL =
    false ∨ version ≠ s.boot.version)) ∧ (∃ (s : State) (e : Nat), (s.boot.windowEnd = some e) ∧ (e < s.time.aon) ∧
    (s.confirming = false)) ∧ (∃ (s : State) (e : Nat), (s.boot.windowEnd = some e) ∧ (s.time.aon ≤ e)) :=
⟨⟨upTile.onBoot fun b => { b with romDue := true, otp := { b.otp with lc := 5 } }, by decide +kernel⟩, ⟨(upTile.onBoot
    fun b => { b with romDue := true, otp := { b.otp with lc := 1 } }).put F.SEC_WALLKEY_VALID 1, by decide +kernel⟩,
    ⟨(upTile.onBoot fun b => { b with romDue := true, otp := { b.otp with lc := 1 } }).put F.BOOT_STRAPS_BOOT_SRC 2,
    1, by decide +kernel⟩, ⟨(upTile.onBoot fun b =>
    { b with training := true, flash := Memory.write [] 0x100012 (complement [2, 3]) }), by decide +kernel⟩,
    ⟨(upTile.onBoot fun b => { b with training := true, flash := Memory.write [] 0x100012 (complement [2, 3]) }),
    by decide +kernel⟩, ⟨upTile.onBoot fun b => { b with training := true }, by decide +kernel⟩, ⟨upTile.onBoot fun b
    => { b with running := true }, by decide +kernel⟩, ⟨upTile.onBoot fun b => { b with running := true },
    by decide +kernel⟩, ⟨(upTile.onBoot fun b => { b with running := true }).put F.BOOT_INTENT_TRIAL_PENDING 1,
    by decide +kernel⟩, ⟨upTile.onBoot fun b => { b with running := true }, by decide +kernel⟩, ⟨upTile.onBoot fun b
    => { b with running := true }, by decide +kernel⟩,
    ⟨{ upTile.onBoot fun b => { b with running := true } with flocks := [{ id := 5, content := [⟨none, F.BOOT_ACTIVATE_GO.base, [1, 0, 0, 0]⟩] }] },
    5, 1, by decide +kernel⟩, ⟨(upTile.onBoot fun b => { b with running := true, activateAt := some 0 }).onTime fun x
    => { x with clock := secU 9 }, 0, by decide +kernel⟩, ⟨(upTile.onBoot fun b =>
    { b with running := true, windowEnd := some 9, version := 7 }).put F.BOOT_STATUS_TRIAL 1, 0, 7, 9,
    by decide +kernel⟩, ⟨upTile, 0, 7, by decide +kernel⟩, ⟨(upTile.onBoot fun b =>
    { b with running := true, windowEnd := some 9 }).onTime fun x => { x with aon := 10 }, 9, by decide +kernel⟩,
    ⟨upTile.onBoot fun b => { b with running := true, windowEnd := some 9 }, 9, by decide +kernel⟩⟩

theorem witness_SecurityActs : (∃ (s : State) (target : Nat), (s.pwr.up = true) ∧ (s.boot.otp.lc = 1 ∧ target = 2) ∧
    (s.boot.otp.serial.isSome = true ∧ s.boot.otp.privateKeys = true)) ∧ (∃ (s : State) (target : Nat), (s.pwr.up =
    true) ∧ (1 ≤ s.boot.otp.lc ∧ s.boot.otp.lc < 5 ∧ target = 5)) ∧ (∃ (s : State) (target : Nat), (s.pwr.up = true) ∧
    (target < 8) ∧ (s.boot.otp.lc = 0 ∨ s.boot.otp.lc = 5 ∨ (target ≠ s.boot.otp.lc + 1 ∧ target ≠ 5))) ∧ (∃ (s :
    State) (ctx : Fin 8), (s.pwr.up = true) ∧ (ctx ≠ 0)) ∧ (∃ (s : State) (slots : Nat), (s.pwr.up = true) ∧
    (s.boot.otp.lc = 2 ∨ s.boot.otp.lc = 3) ∧ (∃ k ∈ List.range 4, (nth s.boot.otp.hashes k none).isSome = true ∧
    slots.testBit k = false ∧ s.boot.otp.revoked.testBit k = false)) ∧ (∃ (s : State) (slots : Nat), (s.pwr.up = true)
    ∧ (∀ k ∈ List.range 4, (nth s.boot.otp.hashes k none).isSome = true → slots.testBit k = true ∨
    s.boot.otp.revoked.testBit k = true)) ∧ (∃ (s : State) (kind : Fin 4), (kind ≠ 3) ∧ (s.boot.running = true)) ∧ (∃
    (s : State), s.boot.attest = some 0) ∧ (∃ (s : State) (k : Nat), (s.boot.attest = some k) ∧ (k ≠ 0)) :=
⟨⟨upTile.onBoot fun b => { b with otp := { b.otp with lc := 1, serial := some 5, privateKeys := true } }, 2,
    by decide +kernel⟩, ⟨upTile.onBoot fun b => { b with otp := { b.otp with lc := 4 } }, 5, by decide +kernel⟩,
    ⟨upTile.onBoot fun b => { b with otp := { b.otp with lc := 1 } }, 3, by decide +kernel⟩, ⟨upTile, 7,
    by decide +kernel⟩, ⟨upTile.onBoot fun b =>
    { b with otp := { b.otp with lc := 3, hashes := [some [1], some [2], none, none] } }, 1, by decide +kernel⟩,
    ⟨upTile.onBoot fun b => { b with otp := { b.otp with lc := 3, hashes := [some [1], some [2], none, none] } }, 3,
    by decide +kernel⟩, ⟨upTile.onBoot fun b => { b with running := true }, 2, by decide +kernel⟩, ⟨upTile.onBoot fun
    b => { b with running := true, attest := some 0 }, by decide +kernel⟩, ⟨upTile.onBoot fun b =>
    { b with running := true, attest := some 2 }, 2, by decide +kernel⟩⟩

theorem witness_SelfTestActs : (∃ (s : State) (p : Nat), (s.pwr.up = true ∧ s.bist.run = none) ∧ (s.precond = 0) ∧ (p
    < 28 ∧ p ≠ 20 ∧ s.f F.BIST_LB_MASK = 2 ^ p) ∧ ((s.bpart p).valid = true ∧ s.partQuiet p = true ∧ s.bist.barred =
    [])) ∧ (∃ (s : State), (s.pwr.up = true ∧ s.bist.run = none) ∧ (s.precond ≠ 0)) ∧ (∃ (s : State) (p : Nat),
    (s.pwr.up = true ∧ s.bist.run = none) ∧ (s.precond = 0) ∧ (p < 28 ∧ s.f F.BIST_LB_MASK = 2 ^ p) ∧ ((s.bpart
    p).valid = false ∨ s.partQuiet p = false)) ∧ (∃ (s : State) (i : Nat), (s.pwr.up = true ∧ s.bist.run = none) ∧
    (s.precond = 0) ∧ (i < 43 ∧ s.f64 F.BIST_MB_MASK_LO F.BIST_MB_MASK_HI = 2 ^ i) ∧ (s.memQuiet i = true ∧
    s.bist.barred = [])) ∧ (∃ (s : State) (r : BRun), (s.pwr.up = true) ∧ (s.bist.run = some r) ∧ (r.online = false))
    ∧ (∃ (s : State) (r : BRun) (p : Nat) (rest : List Nat), (s.pwr.up = true) ∧ (s.bist.run = some r) ∧ (r.online =
    false) ∧ (r.mem = false) ∧ (r.left = p :: rest) ∧ (p < 28) ∧ (s.bist.parts.length = 28)) ∧ (∃ (s : State),
    s.pwr.up = true) ∧ (∃ (s : State), (s.scanOpen = true) ∧ (s.folds.length = 4)) ∧ (∃ (s : State), s.scanOpen =
    false) ∧ (∃ (s : State) (r : BRun), (s.precond ≠ 0) ∧ (s.bist.run = some r)) ∧ (∃ (s : State) (p : Nat),
    (s.bist.run = some { mem := false, online := false, left := [p] }) ∧ (s.precond = 0) ∧ (p < 20 ∧ p % 5 ≠ 0 ∧
    s.bist.parts.length = 28)) ∧ (∃ (s : State) (i : Nat), (s.bist.run = some
    { mem := true, online := false, left := [i] }) ∧ (s.precond = 0) ∧ (i < 4 ∧ s.folds.length = 4)) ∧ (∃ (s : State)
    (i : Nat), (s.bist.run = some { mem := true, online := false, left := [i] }) ∧ (s.precond = 0) ∧ (i < 43) ∧ (s.b
    F.BIST_MB_RESULT_VALID = false)) ∧ (∃ (s : State) (p : Nat), (s.rotating = true) ∧ (p = nth onlineParts
    (s.time.clock * 17 / secU 10 % 17) 0) ∧ (p ≠ 23) ∧ (s.bist.window ≠ some s.bistWindow)) ∧ (∃ (s : State) (p :
    Nat), (s.rotating = true) ∧ (s.bist.due = true ∧ s.bist.run = none) ∧ (p = nth onlineParts (s.bist.window.getD 0 %
    17) 0 ∧ p ≠ 23) ∧ (s.inRun (p / 5) = false ∧ (s.fold (p / 5)).scheduled = none) ∧ (s.time.clock + s.testTime + usU
    20 ≤ s.swapAt (s.time.frame + 1)) ∧ (s.precond = 0) ∧ (s.bist.window = some s.bistWindow) ∧ (p < 20)) :=
⟨⟨((upTile.put F.PWR_RAILr_MV 750 2).put F.BIST_LB_MASK (2 ^ 19)).onPart 19 fun x => { x with valid := true }, 19,
    by decide +kernel⟩, ⟨upTile.put F.PWR_RAILr_MV 801 2, by decide +kernel⟩, ⟨((upTile.put F.PWR_RAILr_MV 750 2).put
    F.BIST_LB_MASK (2 ^ 21)).onPart 21 fun x => { x with valid := true }, 21, by decide +kernel⟩, ⟨(upTile.put
    F.PWR_RAILr_MV 750 2).put F.BIST_MB_MASK_HI 128, 39, by decide +kernel⟩, ⟨upTile.onBist fun b =>
    { b with run := some { mem := false, online := false, left := [19, 20] } },
    ({ mem := false, online := false, left := [19, 20] } : BRun), by decide +kernel⟩, ⟨upTile.onBist fun b =>
    { b with run := some { mem := false, online := false, left := [19, 20] } },
    ({ mem := false, online := false, left := [19, 20] } : BRun), 19, [20], by decide +kernel⟩, ⟨upTile.put
    F.BIST_LB_RUNS 5, by decide +kernel⟩, ⟨(((upTile.put F.LC_STATE_DEBUG 1).put F.BOOT_STRAPS_OTHER 1).put
    F.SEC_WALLKEY_VALID 1).onRing fun r => { r with enc := modAt r.enc 6 fun e => { e with keys := true } },
    by decide +kernel⟩, ⟨upTile, by decide +kernel⟩, ⟨(upTile.put F.PWR_RAILr_MV 801 2).onBist fun b =>
    { b with run := some { mem := false, online := false, left := [19] } },
    ({ mem := false, online := false, left := [19] } : BRun), by decide +kernel⟩, ⟨((upTile.put F.PWR_RAILr_MV 750
    2).onBist fun b => { b with run := some { mem := false, online := false, left := [19] } }).onPart 19 fun x =>
    { x with expect := 77 }, 19, by decide +kernel⟩, ⟨((upTile.put F.PWR_RAILr_MV 750 2).onBist fun b =>
    { b with run := some { mem := true, online := false, left := [3] } }).onFold 3 fun f =>
    { f with prog := [(5, 6)], progBad := [5] }, 3, by decide +kernel⟩, ⟨(upTile.put F.PWR_RAILr_MV 750 2).onBist fun
    b => { b with run := some { mem := true, online := false, left := [40] } }, 40, by decide +kernel⟩, ⟨((upHead.put
    F.RING_STATUS_STATE hsStandby).put F.BIST_CTL_ONLINE_EN 1).onBist fun b => { b with due := true }, 0,
    by decide +kernel⟩, ⟨((((upHead.put F.RING_STATUS_STATE hsStandby).put F.BIST_CTL_ONLINE_EN 1).put F.PWR_RAILr_MV
    750 2).onTime fun x => { x with clock := secU 9, frame := 10000 }).onBist fun b =>
    { b with due := true, window := some 15 }, 18, by decide +kernel⟩⟩

theorem witness_HealthAndPinsAct : (∃ (s : State), (s.boot.running = true ∧ s.pwr.up = true) ∧ (s.bist.slot ≠ some
    s.healthSlot)) ∧ (∃ (s : State), (s.boot.running = true) ∧ (s.bist.slot = some s.healthSlot)) ∧ (∃ (s : State)
    (payload : Bytes), (s.isHead = true ∧ s.on iLINK = true) ∧ (payload.length = 128) ∧ (payload.drop 64 = complement
    (payload.take 64)) ∧ (le payload 0 1 = 1)) ∧ (∃ (payload : Bytes), (payload.length = 128) ∧ (payload.drop 64 ≠
    complement (payload.take 64))) ∧ (∃ (s : State) (pin : Fin 16) (value : Nat), (s.pwr.up = true) ∧ (s.alarmTaken
    pin value = false) ∧ (resvBad (fieldsAt (F.GPIOk_CFG_FUNC.addr pin 0)) value = false)) ∧ (∃ (s : State) (pin : Fin
    16) (value : Nat), (s.alarmTaken pin value = true) ∧ (s.pwr.up = true) ∧ (resvBad (fieldsAt (F.GPIOk_CFG_FUNC.addr
    pin 0)) value = false)) ∧ (∃ (pin : Fin 16) (value : Nat), resvBad (fieldsAt (F.GPIOk_CFG_FUNC.addr pin 0)) value
    = true) :=
⟨⟨upTile.onBoot fun b => { b with running := true }, by decide +kernel⟩, ⟨(upTile.onBoot fun b =>
    { b with running := true }).onBist fun b => { b with slot := some (false, 0) }, by decide +kernel⟩, ⟨upHead.onBist
    fun b => { b with reports := [(5, 6, []), (9, 1, [])] }, (mkMsg 64 [(0, 1, 1), (8, 8, 77)] ++ complement (mkMsg 64
    [(0, 1, 1), (8, 8, 77)])), by decide +kernel⟩, ⟨mkMsg 128 [(0, 1, 1)], by decide +kernel⟩, ⟨((upTile.put
    F.GPIOk_CFG_FUNC 2 15).put F.GPIOk_CFG_ALARM 31 15).onAlarm 31 fun x => { x with pulseEnd := some 9 }, 15, 0x13,
    by decide +kernel⟩, ⟨(upTile.put F.GPIOk_CFG_FUNC 2 15).put F.GPIOk_CFG_ALARM 31 15, 3, 0x1F2, by decide +kernel⟩,
    ⟨3, 0x1800, by decide +kernel⟩⟩

theorem witness_HealthAndPinsComplete : (∃ (s : State), (s.boot.running = true) ∧ (s.pwr.up = true) ∧ (s.bist.slot ≠
    some s.healthSlot)) ∧ (∃ (s : State) (payload : Bytes), (s.isHead = true) ∧ (s.on iLINK = true) ∧ (payload.length
    = 128) ∧ (payload.drop 64 = complement (payload.take 64)) ∧ (le payload 0 1 = 1)) ∧ (∃ (s : State) (pin : Fin 16)
    (value : Nat), (s.pwr.up = true) ∧ (s.alarmTaken pin value = false) ∧ (resvBad (fieldsAt (F.GPIOk_CFG_FUNC.addr
    pin 0)) value = false)) :=
⟨⟨(upTile.onBoot fun b => { b with running := true }).onBist fun b => { b with seq := 2 ^ 32 - 1 },
    by decide +kernel⟩, ⟨upHead.onBist fun b => { b with reports := [(9, 6, [])] }, (mkMsg 64 [(0, 1, 1), (8, 8, 78)]
    ++ complement (mkMsg 64 [(0, 1, 1), (8, 8, 78)])), by decide +kernel⟩, ⟨upTile, 15, 0x1F2, by decide +kernel⟩⟩

theorem witness_FoldInstructionsKeep : (∃ (s : State) (fold : Fin 4) (c : Instr) (w : Nat), (c ∈ ([.add fold, .sub
    fold, .andR fold, .orR fold, .xorR fold, .shl fold, .shr fold, .sar fold, .mul fold, .minR fold, .maxR fold, .cmp
    fold, .addi fold, .andi fold, .ori fold, .xori fold, .shli fold, .shri fold, .sari fold, .cmpi fold, .get fold,
    .qget fold, .br fold, .ld fold, .ldc fold, .nop fold] : List Instr)) ∧ (standsAt s fold w)) ∧ (∃ (s : State) (fold
    : Fin 4) (c : Instr) (w : Nat), (c ∈ ([.qset fold, .qisect fold, .qld fold] : List Instr)) ∧ (standsAt s fold w))
    ∧ (∃ (s : State) (fold : Fin 4) (c : Instr) (w : Nat), (c ∈ ([.st fold, .qst fold] : List Instr)) ∧ (standsAt s
    fold w)) :=
⟨⟨inRunAt upTile 3 0, 3, .nop 3, 0, by decide +kernel⟩, ⟨inRunAt upTile 3 (kw 0x20 0 3 4 0), 3, .qset 3, kw 0x20 0 3 4
    0, by decide +kernel⟩, ⟨inRunAt upTile 3 (kw 0x41 4 5 0 0), 3, .st 3, kw 0x41 4 5 0 0, by decide +kernel⟩⟩

theorem witness_StepRunsTheFrontCommand : (∃ (s : State) (c : Instr) (rest : List Instr), s.pending = c :: rest) ∧ (∃ s : State, s.pending = [] ∧ s.on iTIME = true) :=
  ⟨⟨{ State.reset with pending := [.porNRise 0] }, .porNRise 0, [], rfl⟩, ⟨upTile, by decide +kernel⟩⟩

theorem witness_StepKeepsTheForm : (∃ s t : State, s.wf ∧ step s = .next t) :=
  ⟨State.reset, State.reset.idle, ⟨by decide +kernel, by decide +kernel⟩, rfl⟩

theorem witness_StepKeepsTheShape : (∃ s t : State, s.shaped ∧ step s = .next t) :=
  ⟨State.reset, State.reset.idle, by decide +kernel, rfl⟩

/-! ### Terms that are not well formed -/

/-- Straps are 16 bits. -/
theorem test_illformed_straps : ¬ WellFormed (.porNRise 65536) := fun h => absurd (show 65536 < 2 ^ 16 from h) (by decide)
/-- There are seven rails. -/
theorem test_illformed_rails : ¬ WellFormed (.powerGood [800]) := fun h => absurd (show 1 = 7 from h) (by decide)
/-- A measured voltage is 16 bits. -/
theorem test_illformed_voltage : ¬ WellFormed (.brownout 0 65536 0) :=
  fun h => absurd (show 65536 < 2 ^ 16 ∧ 0 < 2 ^ 16 from h) (by decide)
/-- There are nine islands. -/
theorem test_illformed_islands : ¬ WellFormed (.rstIsland 0 512) := fun h => absurd (show 512 < 2 ^ 9 from h) (by decide)
/-- There are four folds. -/
theorem test_illformed_folds : ¬ WellFormed (.rstFold 0 16) := fun h => absurd (show 16 < 2 ^ 4 from h) (by decide)
/-- A register offset is word-aligned (R620). -/
theorem test_illformed_aligned : ¬ WellFormed (.rcRegisterRead 0 2) :=
  fun h => absurd (show 2 % 4 = 0 ∧ 2 < 2 ^ 24 from h) (by decide)
/-- A register offset lies in the register space (R620). -/
theorem test_illformed_offset : ¬ WellFormed (.rcRegisterRead 0 0x01000000) :=
  fun h => absurd (show 0x01000000 % 4 = 0 ∧ 0x01000000 < 2 ^ 24 from h) (by decide)
/-- A register value is 32 bits. -/
theorem test_illformed_word : ¬ WellFormed (.sqTailWrite 0 (2 ^ 32)) := fun h => absurd (show 2 ^ 32 < 2 ^ 32 from h) (by decide)
/-- A ring entry has 64 bytes (R400). -/
theorem test_illformed_entry : ¬ WellFormed (.txbegin 0 []) := fun h => absurd (show 0 = 64 from h) (by decide)
/-- A ring index is 16 bits. -/
theorem test_illformed_index : ¬ WellFormed (.mgmtCqReadRx 0 ⟨0, 0⟩ 65536) := fun h => absurd (show 65536 < 2 ^ 16 from h) (by decide)
/-- A cell has 512 bytes (R117). -/
theorem test_illformed_cell : ¬ WellFormed (.cellRx 0 [0]) := fun h => absurd (show 1 = 512 from h) (by decide)
/-- A LINK block has 32 bytes (R90). -/
theorem test_illformed_block : ¬ WellFormed (.ident 0 []) := fun h => absurd (show 0 = 32 from h) (by decide)
/-- There are 64 streams. -/
theorem test_illformed_stream : ¬ WellFormed (.gapWaitExpire 64 0) := fun h => absurd (show 64 < 64 from h) (by decide)
/-- A flock ID is 12 bits (R200). -/
theorem test_illformed_flock : ¬ WellFormed (.voteDeadline 4096 none) := fun h => absurd (show 4096 < 2 ^ 12 from h) (by decide)
/-- There are five calibration units. -/
theorem test_illformed_units : ¬ WellFormed (.calRun 32) := fun h => absurd (show 32 < 2 ^ 5 from h) (by decide)

/-! ### The spec's worked examples -/

/-- The example under R187: a clock of 1,700,000,000 s on a 59.94 Hz wall is in frame 101,898,101,898. -/
theorem test_frame_count : Timing.countAt ⟨8, 2, 0⟩ (secU 1700000000) = 101898101898 := by decide +kernel
/-- The same example: S_n is 1,699,999,999 s and 998,300,000 ns. -/
theorem test_swap_instant :
    Timing.swapAt ⟨8, 2, 0⟩ 101898101898 = secU 1699999999 + 998300000 * nsU := by decide +kernel
/-- The same example: WALL_FRAME. -/
theorem test_wall_frame : 101898101898 % 2 ^ 32 = 3113854090 := by decide
/-- The example of R45: 12-bit samples as 10-bit ones. -/
theorem test_depth : [4094, 4095, 2050].map (toDepth 12 10) = [1023, 1023, 513] := by decide +kernel
/-- The example of R54: the 3:2 cadence of a 24,000/1,001 clip on a 59.94 Hz wall. -/
theorem test_clip_cadence :
    (List.range 6).map (fun k => clipFrame ⟨0, 24000, 1001, 2, 2, 100, 0, 64⟩ 8 7 (7 + k) 1) = [0, 0, 0, 1, 1, 2] := by decide +kernel
/-- The example of the plane formats: an RGB10 line of 7,680 pixels has 28,800 bytes. -/
theorem test_line_bytes : planeBytes 1 7680 0 = 28800 := by decide +kernel
/-- The example of R256: the CRC-32 of the digits 1 to 9. -/
theorem test_crc32 : crc32 [0x31, 0x32, 0x33, 0x34, 0x35, 0x36, 0x37, 0x38, 0x39] = 0xCBF43926#32 := by decide +kernel
/-- Table 8-5, step 8: B = 8,192 with KNEE 16,384 and HYST 1,024 is PWM, with G = 271 and s = 30,840. -/
theorem test_dimming : dimPwm 0 8192 16384 1024 none = true ∧ gainCode true 8192 16384 1024 = 271 ∧ dimScale 8192 271 = 30840 := by
  decide +kernel
/-- Table 8-5, steps 7 and 9: the red and green duties of the lamp. -/
theorem test_duty :
    (let m : Nat → Nat → Nat := fun i j => nth (nth [[15565, 655, 0], [492, 15892, 328], [0, 819, 15073]] i []) j 0
     (List.range 3).map (rawDuty m [37836, 7411, 6223] [17526, 17255, 16983] 30840)) = [18243, 4187, 2973] := by decide +kernel

/-- Table 3-3: the symbols of the pairs 00, 01, 11 and 10. -/
theorem test_symbols : pamOf [false, false, false, true, true, true, true, false] = [0, 1, 2, 3] := by decide
/-- A marker as R93 lays it out is one, and one with a flipped bit is none. -/
theorem test_marker : markerOk (markerBytes 2 5 7 9) = true ∧ markerOk ((markerBytes 2 5 7 9).set 3 6) = false := by decide +kernel
/-- R93: a marker block has type byte 4DH, the others of Table 3-9 theirs. -/
theorem test_block_kind : (Block.mk false (markerBytes 0 0 0 0)).kind = .marker ∧ idleBlock.kind = .idle := by decide +kernel
/-- D21.5 alternates at either disparity in the table of IEEE 802.3 clause 36, and IDLE is its comma K28.5 (R302). -/
theorem test_code_groups : (LChar.data 0xB5).encode true = (0b1010101010, true) ∧ LChar.idle.encode true = (0b1100000101, false) := by
  decide +kernel

/-! ### The program of Table 11-11, one instruction at a time -/

/-- Register `i` of fold 3 after an outcome. -/
def kAfter (o : Host.Outcome State Fault Refusal) (i : Nat) : Nat :=
  match o with
  | .next t => (reg t 3 i).toNat
  | _ => 2 ^ 32

/-- Word 12: the record pointer. -/
theorem test_addi : kAfter (execAddi 3 (inRunAt upTile 3 0x1170000000010000)) 14 = 0x10000 := by decide +kernel
/-- Word 8, with k12 = 0x0000_0200: x0 = 512. -/
theorem test_andi :
    kAfter (execAndi 3 ((inRunAt upTile 3 0x134300000000FFFF).onFold 3 fun f => { f with
      k := List.replicate 13 0x00010200 ++ List.replicate 19 0 })) 8 = 512 := by decide +kernel
/-- Word 10, with k12 = 0x0200_0400: y = 512. -/
theorem test_shri :
    kAfter (execShri 3 ((inRunAt upTile 3 0x1753000000000010).onFold 3 fun f => { f with
      k := List.replicate 13 0x02000400 ++ List.replicate 19 0 })) 10 = 512 := by decide +kernel
/-- Words 6 and 7: the two halves of q0. -/
theorem test_qget :
    (let s := fun w => (inRunAt upTile 3 w).onFold 3 fun f => { f with q := 0x0200040000000200 :: List.replicate 15 0 }
     (kAfter (execQget 3 (s 0x2160000000000000)) 12, kAfter (execQget 3 (s 0x2168000000000001)) 13)) = (0x200, 0x02000400) := by
  decide +kernel
/-- Words 2 and 3: at duty 6 the branch SGE is taken to instruction 6. -/
theorem test_branch_sge :
    (match execBr 3 ((inRunAt upTile 3 0x3000180000000006).onFold 3 fun f => { f with z := true }) with
      | .next t => (t.fold 3).pc
      | _ => 0) = 6 := by decide +kernel
/-- Words 30 and 31: with k10 below k11 the branch SLT is taken to instruction 13. -/
theorem test_branch_slt :
    (match execBr 3 ((inRunAt upTile 3 0x30001A000000000D).onFold 3 fun f => { f with n := true }) with
      | .next t => (t.fold 3).pc
      | _ => 0) = 13 := by decide +kernel
/-- Word 5: a trap with STOP = 0 leaves its code and the run goes on. -/
theorem test_trap :
    (match execTrap 3 (inRunAt upTile 3 0x7D00000000000101) with
      | .next t => (t.f F.FOLDn_TRAP_CODE 3, (t.fold 3).pc)
      | _ => (0, 0)) = (0x101, 6) := by decide +kernel

end Sys2Proof.Tests
end

section
/-! PROOFS. Register accesses (R7, R8, R32): what one write leaves in each field of a word, and a register write that acceptance
refuses. -/
namespace Sys2Proof.Machine

/-! ### Bit fields that do not overlap -/

/-- The bits below a place depend on the number modulo that place alone. -/
theorem bits_mod (v lo w n : Nat) (h : lo + w ≤ n) : bits (v % 2 ^ n) lo w = bits v lo w := by
  obtain ⟨k, rfl⟩ := Nat.exists_eq_add_of_le h
  unfold bits
  rw [Nat.add_assoc, Nat.pow_add, Nat.mod_mul_right_div_self, Nat.pow_add, Nat.mod_mul_right_mod]

/-- The bits from a place on depend on the quotient by that place alone. -/
theorem bits_div (v lo w n : Nat) (h : n ≤ lo) : bits (v / 2 ^ n) (lo - n) w = bits v lo w := by
  rw [bits, bits, Nat.div_div_eq_div_mul, ← Nat.pow_add, Nat.add_sub_cancel' h]

/-- Setting a field keeps the number below it. -/
theorem setBits_mod (v lo w x : Nat) : setBits v lo w x % 2 ^ lo = v % 2 ^ lo := by
  rw [setBits, Nat.pow_add, ← Nat.mul_assoc, Nat.mul_right_comm, ← Nat.add_mul, Nat.mul_add_mod', Nat.mod_mod]

/-- Setting a field keeps the number above it. -/
theorem setBits_div (v lo w x : Nat) : setBits v lo w x / 2 ^ (lo + w) = v / 2 ^ (lo + w) := by
  have low : x % 2 ^ w * 2 ^ lo + v % 2 ^ lo < 2 ^ (lo + w) := by
    have hx : x % 2 ^ w < 2 ^ w := Nat.mod_lt _ (Nat.two_pow_pos w)
    have hv : v % 2 ^ lo < 2 ^ lo := Nat.mod_lt _ (Nat.two_pow_pos lo)
    rw [Nat.pow_add]
    nlinarith [Nat.two_pow_pos lo]
  rw [setBits, Nat.add_assoc, Nat.mul_comm, Nat.mul_add_div (Nat.two_pow_pos _), Nat.div_eq_of_lt low, Nat.add_zero]

/-- A field keeps its bits when a field beside it is set. -/
theorem bits_setBits_disjoint (v x : Nat) {lo w lo' w' : Nat} (h : lo + w ≤ lo' ∨ lo' + w' ≤ lo) :
    bits (setBits v lo' w' x) lo w = bits v lo w := by
  rcases h with below | above
  · rw [← bits_mod _ _ _ _ below, setBits_mod, bits_mod _ _ _ _ below]
  · rw [← bits_div _ _ _ _ above, setBits_div, bits_div _ _ _ _ above]

/-! ### The word that a write leaves, field by field -/

/-- A write reaches the fields of a register one after the other. -/
theorem writtenWord_cons (f : FieldDef) (fs : List FieldDef) (old v : Nat) :
    writtenWord (f :: fs) old v = writtenWord fs (writtenWord [f] old v) v := rfl

theorem writtenWord_append (fs gs : List FieldDef) (old v : Nat) :
    writtenWord (fs ++ gs) old v = writtenWord gs (writtenWord fs old v) v := List.foldl_append

theorem writtenWord_set {f : FieldDef} (h : f.acc = .rw ∨ f.acc = .rwp) (old v : Nat) :
    writtenWord [f] old v = setBits old f.lo f.w (f.value v) := by
  rcases h with h | h <;> simp [writtenWord, h]

theorem writtenWord_w1c {f : FieldDef} (h : f.acc = .w1c) (old v : Nat) :
    writtenWord [f] old v = setBits old f.lo f.w (Nat.land (bits old f.lo f.w) (2 ^ f.w - 1 - bits v f.lo f.w)) := by
  simp [writtenWord, h]

theorem writtenWord_ignored {f : FieldDef} (hrw : f.acc ≠ .rw) (hrwp : f.acc ≠ .rwp) (hw1c : f.acc ≠ .w1c) (old v : Nat) :
    writtenWord [f] old v = old := by
  cases h : f.acc <;> simp_all [writtenWord]

/-- Two fields have no bit in common. -/
def FieldDef.disjoint (f g : FieldDef) : Prop := f.lo + f.w ≤ g.lo ∨ g.lo + g.w ≤ f.lo

/-- A write of one field keeps the bits of a field beside it. -/
theorem bits_writtenWord_one {f g : FieldDef} (h : f.disjoint g) (old v : Nat) :
    bits (writtenWord [g] old v) f.lo f.w = bits old f.lo f.w := by
  cases hg : g.acc with
  | rw => rw [writtenWord_set (.inl hg), bits_setBits_disjoint _ _ h]
  | rwp => rw [writtenWord_set (.inr hg), bits_setBits_disjoint _ _ h]
  | w1c => rw [writtenWord_w1c hg, bits_setBits_disjoint _ _ h]
  | ro | wo | rc => rw [writtenWord_ignored (by simp [hg]) (by simp [hg]) (by simp [hg])]

/-- A write of fields keeps the bits of a field beside them all. -/
theorem bits_writtenWord_beside {f : FieldDef} {fs : List FieldDef} (h : ∀ g ∈ fs, f.disjoint g) (old v : Nat) :
    bits (writtenWord fs old v) f.lo f.w = bits old f.lo f.w := by
  induction fs generalizing old with
  | nil => rfl
  | cons g gs ih =>
    rw [List.forall_mem_cons] at h
    rw [writtenWord_cons, ih h.2, bits_writtenWord_one h.1]

/-- Where the fields do not overlap, a write leaves in each what it would leave if it reached that field alone, in a word with
the same bits there. -/
theorem bits_writtenWord {fs : List FieldDef} (hd : fs.Pairwise FieldDef.disjoint) {f : FieldDef} (hf : f ∈ fs) (old v : Nat) :
    ∃ o, bits o f.lo f.w = bits old f.lo f.w ∧
      bits (writtenWord fs old v) f.lo f.w = bits (writtenWord [f] o v) f.lo f.w := by
  obtain ⟨before, after, rfl⟩ := List.append_of_mem hf
  obtain ⟨-, hafter, hbefore⟩ := List.pairwise_append.mp hd
  refine ⟨writtenWord before old v, bits_writtenWord_beside (fun g hg => ?_) old v, ?_⟩
  · exact (hbefore g hg f List.mem_cons_self).symm
  · rw [writtenWord_append, writtenWord_cons]
    exact bits_writtenWord_beside (fun g hg => List.rel_of_pairwise_cons hafter hg) _ v

/-- Settles O5: a write reaches the fields one after the other, and no other field of the word touches the bits of this one, so
each case is the write of the field alone. -/
theorem writeGivesEachFieldItsType : Obligations.WriteGivesEachFieldItsType := by
  unfold Obligations.WriteGivesEachFieldItsType
  intro fs old v _ hd _ f hf
  obtain ⟨o, ho, hbits⟩ := bits_writtenWord hd hf old v
  rw [hbits]
  refine ⟨fun hrw => ?_, fun hw1c => ?_, fun hrw hrwp hw1c => ?_⟩
  · rw [writtenWord_set (.inl hrw), bits_setBits_same]
  · rw [writtenWord_w1c hw1c, bits_setBits_same, ho]
    exact Nat.mod_eq_of_lt (Nat.and_le_left.trans_lt (bits_lt ..))
  · rw [writtenWord_ignored hrw hrwp hw1c, ho]

/-! ### A register write that acceptance refuses (R32) -/

/-- The number of the four bytes of a register write. -/
theorem le_toLE_four (v : Nat) : le (toLE 4 v) 0 4 = v % 2 ^ 32 := by
  rw [le, List.drop_zero, List.take_of_length_le (toLE_length 4 v).le, ofLE_toLE, show 256 ^ 4 = 2 ^ 32 from rfl]

/-- LAYERn_ADDR and LAYERn_CLIP are written on the bellwether: a write of one on another head is refused and has no effect (R32). -/
theorem registerWrite_layerWord_refused {s : State} {ctx : Fin 8} {addr value : Nat}
    (hcheck : s.regCheck ctx addr (value % 2 ^ 32) = 0) (hhead : s.isHead = true) (hbw : s.isBw = false) (hlayer : layerWord addr = true) :
    exec (.registerWrite ctx addr value) s = .next s := by
  have hcode : s.writeCode ctx ⟨none, addr, toLE 4 value⟩ = 8 := by
    simp only [State.writeCode, le_toLE_four, hcheck, hhead, hbw, hlayer, bne_self_eq_false, Bool.not_false, Bool.and_self,
      Bool.true_or, Bool.false_eq_true, if_false, if_true]
  simp only [exec, execRegisterWrite, hcode, ite_self]

/-- A head that runs and whose election is not over. -/
def electingHead : State := (State.reset.put F.BOOT_STRAPS_ROLE 1).onPwr fun p => { p with up := true }

/-- Refutes O4: its clause on REGISTER_WRITE asks for the register's own operation wherever `regCheck` gives 0, without the other
checks of acceptance; a head that is not bellwether refuses a write of LAYERn_ADDR_HI by those (R32) and keeps the register. -/
theorem not_registerCommandsAct : ¬ Obligations.RegisterCommandsAct := by
  unfold Obligations.RegisterCommandsAct
  rintro ⟨-, -, -, -, hwrite, -⟩
  have hrefused : exec (.registerWrite 0 F.LAYERn_ADDR_HI.base 5) electingHead = .next electingHead :=
    registerWrite_layerWord_refused (by decide +kernel) (by decide +kernel) (by decide +kernel) (by decide +kernel)
  obtain ⟨t, hnext, hwritten⟩ := hwrite electingHead 0 F.LAYERn_ADDR_HI.base 5 (by decide +kernel) (by decide +kernel)
    (by decide +kernel) (by decide +kernel) (by decide +kernel) (by decide +kernel)
  rw [hrefused, Host.Outcome.next.injEq] at hnext
  have hkept : electingHead.reg F.LAYERn_ADDR_HI.base = 0 := by decide +kernel
  have hset : ((electingHead.plainWrite 0 none electingHead.time.clock F.LAYERn_ADDR_HI.base (5 % 2 ^ 32)).ageRwp 0 none).reg
      F.LAYERn_ADDR_HI.base = 5 := by decide +kernel
  rw [hnext, hwritten] at hkept
  exact absurd (hset.symm.trans hkept) (by decide)

end Sys2Proof.Machine
end

section
/-! PROOFS. Source ingest (spec/02_ingest.md): what its commands leave unchanged, what sources deliver to the layers
and flows they feed, and a cell send that also decides an overdue frame. -/
namespace Sys2Proof.Machine

/-! ### Frames of the ingest commands -/

/-- A command that answers a next state within the listed parts changes them alone. -/
theorem changesOnly_of_within {c : Instr} {ps : List Part} (hnext : ∀ s, exec c s = .next (outcomeState (exec c s) s))
    (hwithin : ∀ s, Within ps s (outcomeState (exec c s) s)) : changesOnly c ps :=
  fun s => ⟨_, hnext s, (hwithin s).1⟩

/-- Settles O48: each command of the chapter is within its list by the lemma of Laws/WithinIngest.lean about its meaning. -/
theorem ingestFrames : Obligations.IngestFrames := by
  unfold Obligations.IngestFrames
  simp only [List.forall_mem_cons, List.not_mem_nil, false_implies, implies_true, and_true]
  refine ⟨fun rx => ?_, fun rx rate lanes flow => ⟨?_, ?_⟩, fun rx src f p layer value => ⟨?_, ?_, ?_, ?_⟩, fun layer value => ?_,
    fun src id => ?_, fun record => ?_, fun src line planes => ?_, fun flow => ?_, fun port group => ?_, fun layer => ?_,
    fun layer => ?_, fun rx req => ?_⟩
  · exact changesOnly_of_within (fun _ => rfl) (execDprxHpdIrq_within rx)
  · exact changesOnly_of_within (fun _ => rfl) (execDpLinkTrained_within rx rate lanes)
  · exact changesOnly_of_within (fun _ => rfl) (execStflowReceivingLapse_within flow)
  · exact changesOnly_of_within (fun _ => rfl) (execDpLinkLoss_within rx)
  · exact changesOnly_of_within (fun _ => rfl) (execSourceFrameComplete_within src f)
  · exact changesOnly_of_within (fun _ => rfl) (execSt2110PacketRx_within p)
  · exact changesOnly_of_within (fun _ => rfl) (execLayerAddrCommit_within layer value)
  · exact changesOnly_of_within (fun _ => rfl) (execLayerClipWrite_within layer value)
  · exact changesOnly_of_within (fun _ => rfl) (execSourceFrameStart_within src id)
  · exact changesOnly_of_within (fun _ => rfl) (execFaRecordRx_within record)
  · exact changesOnly_of_within (fun _ => rfl) (execCtLineWritten_within src line planes)
  · exact changesOnly_of_within (fun _ => rfl) (execIgmpReportTimer_within flow)
  · exact changesOnly_of_within (fun _ => rfl) (execIgmpQueryRx_within port group)
  · exact changesOnly_of_within (fun _ => rfl) (execLayerLatch_within layer)
  · exact changesOnly_of_within (fun _ => rfl) (execLayerCellSend_within layer)
  · exact changesOnly_of_within (fun _ => rfl) (execDprxAuxRequest_within rx req)

/-! ### Fields after a write of another one -/

/-- A field keeps its value when another one is written: one of another register, or one beside it in the same register. -/
theorem State.f_put_other (s : State) {f g : Fld} (v : Nat) {i j k l : Nat} (hw : f.lo + f.w ≤ 32)
    (h : g.addr k l ≠ f.addr i j ∨ g.lo + g.w ≤ f.lo ∨ f.lo + f.w ≤ g.lo) : (s.put f v i j).f g k l = s.f g k l := by
  by_cases ha : g.addr k l = f.addr i j
  · rw [State.f, State.put, State.reg_setReg, if_pos ha, BitVec.toNat_ofNat, Nat.mod_eq_of_lt (setBits_lt (BitVec.isLt _) hw),
      bits_setBits_disjoint _ _ (h.resolve_left (absurd ha)), State.f, ha]
  · exact State.f_put_ne _ _ _ _ _ _ _ _ ha

theorem State.f_flag_other (s : State) {f g : Fld} (v : Bool) {i j k l : Nat} (hw : f.lo + f.w ≤ 32)
    (h : g.addr k l ≠ f.addr i j ∨ g.lo + g.w ≤ f.lo ∨ f.lo + f.w ≤ g.lo) : (s.flag f v i j).f g k l = s.f g k l :=
  s.f_put_other _ hw h

theorem State.b_put_other (s : State) {f g : Fld} (v : Nat) {i j k l : Nat} (hw : f.lo + f.w ≤ 32)
    (h : g.addr k l ≠ f.addr i j ∨ g.lo + g.w ≤ f.lo ∨ f.lo + f.w ≤ g.lo) : (s.put f v i j).b g k l = s.b g k l := by
  rw [State.b, s.f_put_other _ hw h, State.b]

theorem State.b_flag_other (s : State) {f g : Fld} (v : Bool) {i j k l : Nat} (hw : f.lo + f.w ≤ 32)
    (h : g.addr k l ≠ f.addr i j ∨ g.lo + g.w ≤ f.lo ∨ f.lo + f.w ≤ g.lo) : (s.flag f v i j).b g k l = s.b g k l :=
  s.b_put_other _ hw h

/-- A counter leaves every other register as it was. -/
theorem State.reg_add_ne (s : State) (f : Fld) (n i j : Nat) {a : Nat} (h : a ≠ f.addr i j) : (s.add f n i j).reg a = s.reg a :=
  s.reg_put_ne _ _ _ _ _ h

/-! An update of the ingest leaves the registers, and one beside the layers leaves these. -/

@[simp] theorem State.onFlow_reg (s : State) (k : Nat) (f : Flow → Flow) (a : Nat) : (s.onFlow k f).reg a = s.reg a := rfl
@[simp] theorem State.onDp_reg (s : State) (r : Nat) (f : DpRx → DpRx) (a : Nat) : (s.onDp r f).reg a = s.reg a := rfl
@[simp] theorem State.onFlow_layers (s : State) (k : Nat) (f : Flow → Flow) : (s.onFlow k f).ingest.layers = s.ingest.layers := rfl
@[simp] theorem State.onDp_layers (s : State) (r : Nat) (f : DpRx → DpRx) : (s.onDp r f).ingest.layers = s.ingest.layers := rfl
@[simp] theorem State.noteInputError_reg (s : State) (n a : Nat) : (s.noteInputError n).reg a = s.reg a := rfl

/-- A field depends on its register alone. -/
theorem State.f_congr {s t : State} {f : Fld} {i j : Nat} (h : s.reg (f.addr i j) = t.reg (f.addr i j)) : s.f f i j = t.f f i j := by
  rw [State.f, h, State.f]

/-- States with the same register file read the same fields. -/
theorem State.f_of_regs {s t : State} (h : s.regs = t.regs) (f : Fld) (i j : Nat) : s.f f i j = t.f f i j :=
  State.f_congr (by rw [State.reg, h, State.reg])

theorem State.b_of_regs {s t : State} (h : s.regs = t.regs) (f : Fld) (i j : Nat) : s.b f i j = t.b f i j := by
  rw [State.b, State.f_of_regs h, State.b]

/-! ### Loops over layers and flows -/

/-- In a loop over distinct elements the step of one of them alone decides what concerns it, `q`: the other steps leave that, so the
step meets it as it was and the loop ends with what the step makes of it. -/
theorem State.each_at {α β : Type} (q : State → β) (P : β → Prop) {l : List α} (hnodup : l.Nodup) {a : α} (ha : a ∈ l)
    {f : State → α → State} {s : State} (hq : ∀ x b, b ≠ a → q (f x b) = q x) (h : ∀ x, q x = q s → P (q (f x a))) :
    P (q (s.each l f)) := by
  obtain ⟨before, after, rfl⟩ := List.append_of_mem ha
  have hkeep : ∀ (m : List α), a ∉ m → ∀ x : State, q (x.each m f) = q x := by
    intro m hm
    induction m with
    | nil => exact fun x => rfl
    | cons b m ih =>
      intro x
      rw [List.mem_cons, not_or] at hm
      exact (ih hm.2 (f x b)).trans (hq x b (Ne.symm hm.1))
  rw [List.nodup_middle, List.nodup_cons, List.mem_append, not_or] at hnodup
  have hsplit : s.each (before ++ a :: after) f = (f (s.each before f) a).each after f := by
    rw [State.each, List.foldl_append, List.foldl_cons, State.each, State.each]
  rw [hsplit, hkeep after hnodup.1.2]
  exact h _ (hkeep before hnodup.1.1 s)

/-- A layer is the same in states with the same layers. -/
theorem State.ilayer_congr {s t : State} (h : s.ingest.layers = t.ingest.layers) (l : Nat) : s.ilayer l = t.ilayer l := by
  rw [State.ilayer, h, State.ilayer]

@[simp] theorem State.onLayer_length (s : State) (l : Nat) (f : ILayer → ILayer) :
    (s.onLayer l f).ingest.layers.length = s.ingest.layers.length := modAt_length ..

theorem State.ilayer_onLayer_same (s : State) {l : Nat} (f : ILayer → ILayer) (h : l < s.ingest.layers.length) :
    (s.onLayer l f).ilayer l = f (s.ilayer l) := nth_modAt_same _ _ _ _ h

theorem State.ilayer_onLayer_ne (s : State) {k l : Nat} (f : ILayer → ILayer) (h : l ≠ k) :
    (s.onLayer k f).ilayer l = s.ilayer l := nth_modAt_ne _ _ _ _ _ h

/-- A loop over the layers that changes each by itself does to a layer what its own step does. -/
theorem State.each_layer {s : State} {l : Nat} {f : State → Nat → State} (P : ILayer → Prop) (hlen : s.ingest.layers.length = 16)
    (hl : l < 16) (hf : ∀ x k, ∃ g, f x k = x.onLayer k g)
    (h : ∀ x, x.regs = s.regs → x.time = s.time → x.ingest.layers.length = 16 → x.ilayer l = s.ilayer l → P ((f x l).ilayer l)) :
    P ((s.each (List.range 16) f).ilayer l) := by
  refine State.each_at (fun t : State => (t.regs, t.time, t.ingest.layers.length, t.ilayer l)) (fun b => P b.2.2.2) List.nodup_range
    (List.mem_range.mpr hl) (fun x k hk => ?_) fun x hx => ?_
  · obtain ⟨g, hg⟩ := hf x k
    rw [hg, State.onLayer_length, State.ilayer_onLayer_ne _ _ hk.symm]
    rfl
  · simp only [Prod.mk.injEq, hlen] at hx
    obtain ⟨hregs, htime, hxlen, hlayer⟩ := hx
    exact h x hregs htime hxlen hlayer

@[simp] theorem State.onFlow_length (s : State) (k : Nat) (f : Flow → Flow) :
    (s.onFlow k f).ingest.flows.length = s.ingest.flows.length := modAt_length ..

theorem State.flow_onFlow_same (s : State) {k : Nat} (f : Flow → Flow) (h : k < s.ingest.flows.length) :
    (s.onFlow k f).flow k = f (s.flow k) := nth_modAt_same _ _ _ _ h

theorem State.flow_onFlow_ne (s : State) {j k : Nat} (f : Flow → Flow) (h : k ≠ j) :
    (s.onFlow j f).flow k = s.flow k := nth_modAt_ne _ _ _ _ _ h

/-! ### The registers that govern a layer -/

theorem State.withRegs_reg_congr {s t : State} {a : Nat} (h : s.reg a = t.reg a) (ws : List (Nat × Word)) :
    (s.withRegs ws).reg a = (t.withRegs ws).reg a := by
  induction ws generalizing s t with
  | nil => exact h
  | cons w ws ih =>
    refine ih ?_
    rw [State.reg_setReg, State.reg_setReg, h]

theorem State.under_reg (s : State) (x : NextCfg) (a : Nat) : (s.under x).reg a = (s.withRegs x.regs).reg a := by
  unfold State.under
  split <;> rfl

/-- A register of the view of a layer depends on that register and on the layer's committed configurations alone. -/
theorem State.viewNow_reg_congr {s t : State} {l a : Nat} (hnext : (s.ilayer l).next = (t.ilayer l).next) (h : s.reg a = t.reg a) :
    (s.viewNow l).reg a = (t.viewNow l).reg a := by
  unfold State.viewNow
  rw [hnext]
  clear hnext
  induction (t.ilayer l).next.filter NextCfg.taken generalizing s t with
  | nil => exact h
  | cons x xs ih =>
    refine ih ?_
    rw [State.under_reg, State.under_reg, State.withRegs_reg_congr h]

theorem State.viewNow_of_next_nil {s : State} {l : Nat} (h : (s.ilayer l).next = []) : s.viewNow l = s := by
  rw [State.viewNow, h, List.filter_nil, List.foldl_nil]

/-- Whether a source feeds a layer depends on LAYERn_INGEST alone. -/
theorem State.feeds_congr {s t : State} {l : Nat} (h : s.reg (F.LAYERn_INGEST_ENABLE.addr l 0) = t.reg (F.LAYERn_INGEST_ENABLE.addr l 0))
    (src : Src) : s.feeds src l = t.feeds src l := by
  have henable : s.f F.LAYERn_INGEST_ENABLE l = t.f F.LAYERn_INGEST_ENABLE l := State.f_congr h
  have hkind : s.f F.LAYERn_INGEST_KIND l = t.f F.LAYERn_INGEST_KIND l := State.f_congr h
  have hindex : s.f F.LAYERn_INGEST_INDEX l = t.f F.LAYERn_INGEST_INDEX l := State.f_congr h
  rw [State.feeds, State.b, henable, hkind, hindex, State.feeds, State.b]

/-! ### DisplayPort (R42 to R44) -/

theorem exec_dprxHpdIrq {s : State} {rx : Fin 4} (hon : s.on iDPRX = true) (hhpd : s.hpd rx = true) :
    exec (.dprxHpdIrq rx) s = .next (s.emit (.dp rx [1])) := by
  show execDprxHpdIrq rx s = _
  simp only [execDprxHpdIrq, hon, State.hpdIrq, hhpd, if_true]

/-- A trained link shows its rate and its lanes. -/
theorem dpLinkTrained_status {s : State} {rx : Fin 4} {rate lanes : Nat} (hon : s.on iDPRX = true) (hhpd : s.hpd rx = true)
    (hrate : rate ≤ s.f F.DPRXn_CTL_MAX_RATE rx) (hlanes : lanes ≤ s.f F.DPRXn_CTL_MAX_LANES rx) :
    yields (.dpLinkTrained rx rate lanes) s fun t => t.b F.DPRXn_STATUS_LINK_UP rx = true ∧
      t.f F.DPRXn_STATUS_RATE rx = rate % 2 ^ F.DPRXn_STATUS_RATE.w ∧
      t.f F.DPRXn_STATUS_LANES rx = lanes % 2 ^ F.DPRXn_STATUS_LANES.w := by
  refine ⟨_, (show execDpLinkTrained rx rate lanes s = _ from rfl), ?_⟩
  simp only [hon, hhpd, hrate, hlanes, decide_true, Bool.and_self, if_true]
  refine ⟨?_, ?_, ?_⟩
  · rw [State.b_flag_other _ _ (by decide) (.inr (by decide)), State.b_put_other _ _ (by decide) (.inr (by decide)),
      State.b_put_other _ _ (by decide) (.inr (by decide)), State.b_flag _ _ _ _ _ (by decide) rfl]
  · rw [State.f_flag_other _ _ (by decide) (.inr (by decide)), State.f_put_other _ _ (by decide) (.inr (by decide)),
      State.f_put _ _ _ _ _ (by decide)]
  · rw [State.f_flag_other _ _ (by decide) (.inr (by decide)), State.f_put _ _ _ _ _ (by decide)]

/-- A lost link is down and its MSA no longer stable, and the loss is counted. -/
theorem dpLinkLoss_status {s : State} {rx : Fin 4} (hon : s.on iDPRX = true) (hup : s.b F.DPRXn_STATUS_LINK_UP rx = true) :
    yields (.dpLinkLoss rx) s fun t => t.b F.DPRXn_STATUS_LINK_UP rx = false ∧ t.b F.DPRXn_STATUS_MSA_STABLE rx = false ∧
      t.f F.DPRXn_LINKLOSS rx = min (s.f F.DPRXn_LINKLOSS rx + 1) (2 ^ F.DPRXn_LINKLOSS.w - 1) := by
  have hexec : exec (.dpLinkLoss rx) s = .next (s.dpLost rx) := by
    show execDpLinkLoss rx s = _
    simp only [execDpLinkLoss, hon, hup, Bool.and_self, if_true]
  have hne : F.DPRXn_STATUS_LINK_UP.addr rx 0 ≠ F.DPRXn_LINKLOSS.addr rx 0 := by
    simp only [Fld.addr, F.DPRXn_STATUS_LINK_UP, F.DPRXn_LINKLOSS]
    omega
  have hregs : (s.dpLost rx).regs =
      (((s.flag F.DPRXn_STATUS_LINK_UP false rx).flag F.DPRXn_STATUS_MSA_STABLE false rx).inc F.DPRXn_LINKLOSS rx).regs :=
    (State.breakFrame_within ..).same_regs
  have hne' : F.DPRXn_STATUS_MSA_STABLE.addr rx 0 ≠ F.DPRXn_LINKLOSS.addr rx 0 := hne
  refine ⟨_, hexec, ?_, ?_, ?_⟩
  · rw [State.b_of_regs hregs, State.inc, State.add, State.b_put_other _ _ (by decide) (.inl hne),
      State.b_flag_other _ _ (by decide) (.inr (by decide)), State.b_flag _ _ _ _ _ (by decide) rfl]
  · rw [State.b_of_regs hregs, State.inc, State.add, State.b_put_other _ _ (by decide) (.inl hne'),
      State.b_flag _ _ _ _ _ (by decide) rfl]
  · rw [State.f_of_regs hregs, State.inc, State.f_add _ _ _ _ _ (by decide),
      State.f_flag_other _ _ (by decide) (.inl hne'.symm), State.f_flag_other _ _ (by decide) (.inl hne.symm)]

/-- An AUX read of the EDID of a length of 1 gives the byte that DPRXn_EDID holds. -/
theorem exec_dprxAuxRequest_edid {s : State} {rx : Fin 4} (off : Nat) (hon : s.on iDPRX = true)
    (henable : s.b F.DPRXn_CTL_ENABLE rx = true) (hvalid : s.b F.DPRXn_CTL_EDID_VALID rx = true) :
    exec (.dprxAuxRequest rx (.edid off 1)) s =
      .next (s.emit (.dp rx [BitVec.ofNat 8 (bits (s.f F.DPRXn_EDIDk rx (off % 256 / 4)) (8 * (off % 4)) 8)])) := by
  show execDprxAuxRequest rx (.edid off 1) s = _
  simp only [execDprxAuxRequest, hon, henable, hvalid, Bool.and_self, Bool.not_true, Bool.false_eq_true, if_false, if_true,
    List.range_one, List.map_cons, List.map_nil, Nat.add_zero]

/-- An AUX read of DPCD gives free bytes, 0 where the capabilities of R42 are advertised. -/
theorem exec_dprxAuxRequest_dpcd {s : State} {rx : Fin 4} (addr len : Nat) (hon : s.on iDPRX = true)
    (henable : s.b F.DPRXn_CTL_ENABLE rx = true) :
    exec (.dprxAuxRequest rx (.dpcd addr len)) s =
      .next (s.emit (.dp rx (((freeBytes s.fresh len).zip (List.range len)).map fun p =>
        if dpcdAbsent (addr + p.2) then 0 else p.1))).tickFresh := by
  show execDprxAuxRequest rx (.dpcd addr len) s = _
  simp only [execDprxAuxRequest, hon, henable, Bool.and_self, Bool.not_true, Bool.false_eq_true, if_false]

/-! ### Source frames (R37, R38) -/

/-- A source's intake of a layer that it feeds is changed under the registers that govern the layer. -/
theorem State.onIntake_inn {s : State} {src : Src} {l : Nat} (f : Nat → State → Intake → Intake) (hlen : s.ingest.layers.length = 16)
    (hl : l < 16) (hfed : (s.viewNow l).feeds src l = true) :
    ∃ v : State, (∀ a, v.reg a = (s.viewNow l).reg a) ∧ ((s.onIntake src f).ilayer l).inn = f l v (s.ilayer l).inn := by
  unfold State.onIntake
  refine State.each_layer (fun y => ∃ v : State, (∀ a, v.reg a = (s.viewNow l).reg a) ∧ y.inn = f l v (s.ilayer l).inn) hlen hl
    (fun x k => ⟨_, rfl⟩) fun x hregs _ hxlen hlayer => ?_
  have hview : ∀ a, (x.viewNow l).reg a = (s.viewNow l).reg a :=
    fun a => State.viewNow_reg_congr (by rw [hlayer]) (by rw [State.reg, hregs, State.reg])
  refine ⟨x.viewNow l, hview, ?_⟩
  rw [State.ilayer_onLayer_same _ _ (by omega), State.feeds_congr (hview _), hfed, hlayer]
  simp only [if_true]

/-- What a source keeps of a frame that begins: the start of a DisplayPort frame, the packets of a flow's. -/
def State.noteStart (s : State) (src : Src) (id : Nat) : State :=
  match src with
  | .dp n =>
    let s := match (s.dp n.val).start with
      | some t => s.put F.DPRXn_PERIOD (min ((s.time.clock - t) / nsU) (2 ^ 32 - 1)) n.val
      | none => s
    s.onDp n.val fun d => { d with start := some s.time.clock }
  | .flow n => s.flowStart n.val id
  | .fold _ => s

/-- A frame that starts is noted at its source, the unfinished ones are counted, and the intakes begin anew. -/
theorem State.frameStart_eq (s : State) (src : Src) (id : Nat) : s.frameStart src id =
    ((s.noteStart src (s.startId src id)).discardFrames src).onIntake src fun _ _ i =>
      { i with writing := some (s.startId src id), broken := false } := by
  cases src <;> rfl

theorem State.judgeFlow_layers (s : State) (k : Nat) : (s.judgeFlow k).ingest.layers = s.ingest.layers := by
  unfold State.judgeFlow
  extract_lets w
  split
  · rw [State.onFlow_layers]
  · extract_lets
    rw [State.onFlow_layers, State.add_ingest]

/-- Judging a flow leaves the registers below 0x300000, where those of the layers lie. -/
theorem State.judgeFlow_reg (s : State) (k : Nat) {a : Nat} (h : a < 0x300000) : (s.judgeFlow k).reg a = s.reg a := by
  unfold State.judgeFlow
  extract_lets w
  split
  · rw [State.onFlow_reg]
  · extract_lets
    rw [State.onFlow_reg, State.reg_add_ne _ _ _ _ _ (by simp only [Fld.addr, F.STFLOWn_PKT_LOST]; omega)]

theorem State.flowStart_layers (s : State) (k id : Nat) : (s.flowStart k id).ingest.layers = s.ingest.layers := by
  unfold State.flowStart
  extract_lets judged
  rw [State.onFlow_layers]
  unfold judged
  split
  · rw [State.inc_ingest, State.judgeFlow_layers]
  · rfl

theorem State.flowStart_reg (s : State) (k id : Nat) {a : Nat} (h : a < 0x300000) : (s.flowStart k id).reg a = s.reg a := by
  unfold State.flowStart
  extract_lets judged
  rw [State.onFlow_reg]
  unfold judged
  split
  · rw [State.inc, State.reg_add_ne _ _ _ _ _ (by simp only [Fld.addr, F.STFLOWn_INCOMPLETE]; omega), State.judgeFlow_reg _ _ h]
  · rfl

theorem State.noteStart_layers (s : State) (src : Src) (id : Nat) : (s.noteStart src id).ingest.layers = s.ingest.layers := by
  cases src with
  | dp n =>
    dsimp -zeta only [State.noteStart]
    extract_lets timed
    rw [State.onDp_layers]
    unfold timed
    split
    · rw [State.put_ingest]
    · rfl
  | flow n => exact s.flowStart_layers n id
  | fold n => rfl

/-- Noting a start leaves the registers of the layers as they were. -/
theorem State.noteStart_reg (s : State) (src : Src) (id : Nat) {a : Nat} (h : a < 0x300000) :
    (s.noteStart src id).reg a = s.reg a := by
  cases src with
  | dp n =>
    dsimp -zeta only [State.noteStart]
    extract_lets timed
    rw [State.onDp_reg]
    unfold timed
    split
    · exact State.reg_put_ne _ _ _ _ _ _ (by simp only [Fld.addr, F.DPRXn_PERIOD]; omega)
    · rfl
  | flow n => exact s.flowStart_reg n id h
  | fold n => rfl

theorem State.discardFrames_ingest (s : State) (src : Src) : (s.discardFrames src).ingest = s.ingest :=
  (State.discardFrames_within s src).same_ingest

/-- Counting unfinished frames touches LAYERn_INCOMPLETE alone. -/
theorem State.discardFrames_reg (s : State) (src : Src) {a : Nat} (h : ∀ k, a ≠ F.LAYERn_INCOMPLETE.addr k 0) :
    (s.discardFrames src).reg a = s.reg a := by
  unfold State.discardFrames
  extract_lets
  exact State.each_keeps (fun t => t.reg a) _ _ s fun x k => by rw [State.noteInputError_reg, State.inc, State.reg_add_ne _ _ _ _ _ (h k)]

/-- Noting a start leaves the view of each layer what it was, as far as the registers of the layers go. -/
theorem State.noteStart_feeds (s : State) (src : Src) (id : Nat) {l : Nat} (hl : l < 16) :
    ((s.noteStart src id).viewNow l).feeds src l = (s.viewNow l).feeds src l :=
  State.feeds_congr (State.viewNow_reg_congr (by rw [State.ilayer_congr (s.noteStart_layers src id)])
    (s.noteStart_reg src id (by simp only [Fld.addr, F.LAYERn_INGEST_ENABLE]; omega))) src

theorem State.discardFrames_feeds (s : State) (src : Src) (l : Nat) :
    ((s.discardFrames src).viewNow l).feeds src l = (s.viewNow l).feeds src l :=
  State.feeds_congr (State.viewNow_reg_congr (by rw [State.ilayer_congr (congrArg _ (s.discardFrames_ingest src))])
    (s.discardFrames_reg src fun k => by simp only [Fld.addr, F.LAYERn_INGEST_ENABLE, F.LAYERn_INCOMPLETE]; omega)) src

/-- A frame that starts is the one being written by every layer that its source feeds. -/
theorem State.frameStart_inn {s : State} {src : Src} {l : Nat} (id : Nat) (hlen : s.ingest.layers.length = 16) (hl : l < 16)
    (hfed : (s.viewNow l).feeds src l = true) : ((s.frameStart src id).ilayer l).inn.writing = some (s.startId src id) ∧
      ((s.frameStart src id).ilayer l).inn.broken = false := by
  rw [State.frameStart_eq]
  obtain ⟨v, -, hinn⟩ := State.onIntake_inn (s := (s.noteStart src (s.startId src id)).discardFrames src) (src := src) (l := l)
    (fun _ _ i => { i with writing := some (s.startId src id), broken := false })
    (by rw [State.discardFrames_ingest, State.noteStart_layers, hlen]) hl
    (by rw [State.discardFrames_feeds, State.noteStart_feeds _ _ _ hl, hfed])
  rw [hinn]
  exact ⟨rfl, rfl⟩

/-- A layer whose source had a frame under way counts it once. -/
theorem State.discardFrames_incomplete {s : State} {src : Src} {l : Nat} (hl : l < 16) (hfed : (s.viewNow l).feeds src l = true)
    (hwriting : (s.ilayer l).inn.writing.isSome = true) : (s.discardFrames src).f F.LAYERn_INCOMPLETE l =
      min (s.f F.LAYERn_INCOMPLETE l + 1) (2 ^ F.LAYERn_INCOMPLETE.w - 1) := by
  unfold State.discardFrames
  extract_lets stale
  have hstale : stale s l = true := by simp only [stale, hwriting, hfed, Bool.and_self, Bool.true_or]
  refine State.each_at (fun t : State => t.f F.LAYERn_INCOMPLETE l)
    (fun b => b = min (s.f F.LAYERn_INCOMPLETE l + 1) (2 ^ F.LAYERn_INCOMPLETE.w - 1)) (List.nodup_range.filter _)
    (List.mem_filter.mpr ⟨List.mem_range.mpr hl, hstale⟩) (fun x b hb => ?_) fun x hx => ?_
  · exact (State.f_congr (State.noteInputError_reg ..)).trans
      (State.f_congr (State.reg_add_ne _ _ _ _ _ (by simp only [Fld.addr, F.LAYERn_INCOMPLETE]; omega)))
  · rw [← hx]
    exact (State.f_congr (State.noteInputError_reg ..)).trans (State.f_add _ _ _ _ _ (by decide))

theorem State.frameStart_incomplete {s : State} {src : Src} {l : Nat} (id : Nat) (hl : l < 16)
    (hfed : (s.viewNow l).feeds src l = true) (hwriting : (s.ilayer l).inn.writing.isSome = true) :
    (s.frameStart src id).f F.LAYERn_INCOMPLETE l = min (s.f F.LAYERn_INCOMPLETE l + 1) (2 ^ F.LAYERn_INCOMPLETE.w - 1) := by
  rw [State.frameStart_eq, State.f_of_regs (State.onIntake_within ..).same_regs,
    State.discardFrames_incomplete hl (by rw [State.noteStart_feeds _ _ _ hl, hfed])
      (by rw [State.ilayer_congr (s.noteStart_layers src _), hwriting]),
    State.f_congr (s.noteStart_reg src _ (by simp only [Fld.addr, F.LAYERn_INCOMPLETE]; omega))]

theorem exec_sourceFrameStart {s : State} (src : Src) (id : Nat) (hhead : s.isHead = true) (hup : s.pwr.up = true) :
    exec (.sourceFrameStart src id) s = .next (s.frameStart src id) := by
  show execSourceFrameStart src id s = _
  simp only [execSourceFrameStart, hhead, hup, Bool.and_self, if_true]

theorem exec_sourceFrameComplete_fold {s : State} (n : Fin 4) (f : SrcFrame) (hhead : s.isHead = true) (hup : s.pwr.up = true) :
    exec (.sourceFrameComplete (.fold n) f) s = .next (s.sourceDone (.fold n) f f.fmt f.id f.lines false) := by
  show execSourceFrameComplete (.fold n) f s = _
  simp only [execSourceFrameComplete, hhead, hup, Bool.and_self, Bool.not_true, Bool.false_eq_true, if_false]

/-- A frame that ends reaches the intake of a layer that its source feeds, under the registers that govern the layer. -/
theorem State.sourceDone_inn {s : State} {src : Src} {l : Nat} (f : SrcFrame) (fmt id : Nat) (lines : List (Nat × Nat × Bytes))
    (broken : Bool) (hlen : s.ingest.layers.length = 16) (hl : l < 16) (hfed : (s.viewNow l).feeds src l = true) :
    ∃ v : State, (∀ a, v.reg a = (s.viewNow l).reg a) ∧ ((s.sourceDone src f fmt id lines broken).ilayer l).inn =
      (s.ilayer l).inn.end_ v l s.time.clock f fmt id lines broken := by
  obtain ⟨v, hv, hinn⟩ := State.onIntake_inn (fun l v i => i.end_ v l s.time.clock f fmt id lines broken) hlen hl hfed
  refine ⟨v, hv, ?_⟩
  rw [State.sourceDone, State.ilayer_congr (congrArg _ (State.judgeMatch_within _).same_ingest), hinn]

/-- What a frame is converted to depends on the layer's format and size alone. -/
theorem State.layerFmt_congr {s t : State} (h : ∀ a, s.reg a = t.reg a) (l : Nat) : s.layerFmt l = t.layerFmt l := State.f_congr (h _)
theorem State.layerW_congr {s t : State} (h : ∀ a, s.reg a = t.reg a) (l : Nat) : s.layerW l = t.layerW l := State.f_congr (h _)
theorem State.layerH_congr {s t : State} (h : ∀ a, s.reg a = t.reg a) (l : Nat) : s.layerH l = t.layerH l := State.f_congr (h _)

theorem State.convertible_congr {s t : State} (h : ∀ a, s.reg a = t.reg a) (l fmt w ht : Nat) :
    s.convertible l fmt w ht = t.convertible l fmt w ht := by
  rw [State.convertible, State.layerFmt_congr h, State.layerW_congr h, State.layerH_congr h, State.convertible]

/-- The frame being written, whole and of the layer's format and size, is the newest candidate once it ends. -/
theorem Intake.end_whole {i : Intake} {v : State} {l : Nat} (now : Nat) {f : SrcFrame} (hwriting : i.writing = some f.id)
    (hbroken : i.broken = false) (hfits : v.convertible l f.fmt f.width f.height = true)
    (hlines : f.lines.length = (lineOrder f.fmt f.height).length) : i.end_ v l now f f.fmt f.id f.lines false = { i with
      writing := none
      done := ⟨f.id, now, convertFrame f.fmt (v.layerFmt l) f.width f.height f.lines, []⟩ :: i.done
      ends := now :: i.ends.take 3 } := by
  have hheight : (f.height != v.layerH l) = false := by
    simp only [State.convertible, Bool.and_eq_true] at hfits
    simpa using hfits.2
  simp only [Intake.end_, hwriting, hbroken, hfits, hheight, hlines, bne_self_eq_false, Bool.or_false, Bool.false_eq_true, if_false,
    if_true]

/-- A frame that can no longer become complete changes nothing when it ends. -/
theorem Intake.end_broken {i : Intake} (hbroken : i.broken = true) (v : State) (l now : Nat) (f : SrcFrame) (fmt id : Nat)
    (lines : List (Nat × Nat × Bytes)) (broken : Bool) : i.end_ v l now f fmt id lines broken = i := by
  simp only [Intake.end_, hbroken, Bool.or_true, Bool.true_or, if_true]
  rw [← hbroken]

/-- A complete frame of the layer's format and size is its newest candidate. -/
theorem sourceFrameComplete_whole {s : State} {n : Fin 4} {f : SrcFrame} {l : Nat} (hhead : s.isHead = true) (hup : s.pwr.up = true)
    (hlen : s.ingest.layers.length = 16) (hl : l < 16) (hfed : (s.viewNow l).feeds (.fold n) l = true)
    (hwriting : (s.ilayer l).inn.writing = some f.id) (hbroken : (s.ilayer l).inn.broken = false)
    (hfits : (s.viewNow l).convertible l f.fmt f.width f.height = true) (hlines : f.lines.length = (lineOrder f.fmt f.height).length) :
    yields (.sourceFrameComplete (.fold n) f) s fun t => (t.ilayer l).inn.done =
      ⟨f.id, s.time.clock, convertFrame f.fmt ((s.viewNow l).layerFmt l) f.width f.height f.lines, []⟩ :: (s.ilayer l).inn.done ∧
        (t.ilayer l).inn.writing = none := by
  obtain ⟨v, hv, hinn⟩ := State.sourceDone_inn f f.fmt f.id f.lines false hlen hl hfed
  rw [Intake.end_whole _ hwriting hbroken ((State.convertible_congr hv ..).trans hfits) hlines, State.layerFmt_congr hv] at hinn
  exact ⟨_, exec_sourceFrameComplete_fold n f hhead hup, congrArg Intake.done hinn, congrArg Intake.writing hinn⟩

/-- A frame that cannot become complete stays as it is when it ends. -/
theorem sourceFrameComplete_broken {s : State} {n : Fin 4} {f : SrcFrame} {l : Nat} (hhead : s.isHead = true) (hup : s.pwr.up = true)
    (hlen : s.ingest.layers.length = 16) (hl : l < 16) (hfed : (s.viewNow l).feeds (.fold n) l = true)
    (hbroken : (s.ilayer l).inn.broken = true) :
    yields (.sourceFrameComplete (.fold n) f) s fun t => (t.ilayer l).inn = (s.ilayer l).inn := by
  obtain ⟨v, -, hinn⟩ := State.sourceDone_inn f f.fmt f.id f.lines false hlen hl hfed
  exact ⟨_, exec_sourceFrameComplete_fold n f hhead hup, hinn.trans (Intake.end_broken hbroken ..)⟩

/-! ### Lines in cut-through (R39) -/

/-- A line written while the frame being sent is open goes into that frame. -/
theorem ILayer.writeCt_sending {y : ILayer} {d : Sending} {now : Nat} (fmt : Nat) (qs : List PLine) (hsending : y.sending = [d])
    (haction : d.action = 2) (hopen : d.closed = false) (hlatched : y.latched = some d.swap) (hnow : now ≤ d.start + d.span) :
    (y.writeCt now fmt false qs).sending = [qs.foldl Sending.write d] := by
  simp [ILayer.writeCt, hsending, haction, hopen, hlatched, hnow]

theorem ILayer.writeCt_next (y : ILayer) (now fmt : Nat) (kept : Bool) (qs : List PLine) :
    (y.writeCt now fmt kept qs).next = y.next := by
  unfold ILayer.writeCt
  split <;> rfl

theorem State.cutThrough_of_regs {s t : State} (h : s.regs = t.regs) (l : Nat) (off : Bool) :
    s.cutThrough l off = t.cutThrough l off := by
  rw [State.cutThrough, State.b_of_regs h, State.f_of_regs h, State.cutThrough]

/-- A DisplayPort line of a format and size that the layer takes is converted and written into the cut-through frame being sent. -/
theorem ctLineWritten_dp {s : State} {n : Fin 4} {line : Nat} {planes : List Bytes} {l : Nat} {d : Sending} (hhead : s.isHead = true)
    (hup : s.pwr.up = true) (hlen : s.ingest.layers.length = 16) (hl : l < 16) (hfed : s.feeds (.dp n) l = true)
    (hct : s.cutThrough l (s.ilayer l).ctOff = true) (hsending : (s.ilayer l).sending = [d]) (haction : d.action = 2)
    (hopen : d.closed = false) (hlatched : (s.ilayer l).latched = some d.swap) (hnow : s.time.clock ≤ d.start + d.span)
    (hplanes : planes.length = (linesAt (s.f F.DPRXn_STATUS_FORMAT n) line).length)
    (hfits : s.convertible l (s.f F.DPRXn_STATUS_FORMAT n) (s.f F.DPRXn_ACTIVE_WIDTH n) (s.f F.DPRXn_ACTIVE_HEIGHT n) = true)
    (hnext : (s.ilayer l).next = []) : yields (.ctLineWritten (.dp n) line planes) s fun t =>
      (t.ilayer l).sending = [(convertLine (s.f F.DPRXn_STATUS_FORMAT n) (s.layerFmt l) (s.layerW l) line
        (((linesAt (s.f F.DPRXn_STATUS_FORMAT n) line).map Prod.snd).zip planes)).foldl Sending.write d] ∧ t.regs = s.regs := by
  refine ⟨_, (show execCtLineWritten (.dp n) line planes s = _ from rfl), ?_,
    (execCtLineWritten_within (.dp n) line planes s).same_regs⟩
  simp only [hhead, hup, Bool.and_self, Bool.not_true, Bool.false_eq_true, if_false, List.length_zip, List.length_map, hplanes,
    Nat.min_self, beq_self_eq_true, Bool.true_and]
  refine State.each_layer (fun y => y.sending = [(convertLine (s.f F.DPRXn_STATUS_FORMAT n) (s.layerFmt l) (s.layerW l) line
        (((linesAt (s.f F.DPRXn_STATUS_FORMAT n) line).map Prod.snd).zip planes)).foldl Sending.write d])
    hlen hl (fun x k => ⟨_, rfl⟩) fun x hregs htime hxlen hlayer => ?_
  have hreg : ∀ a, x.reg a = s.reg a := fun a => by rw [State.reg, hregs, State.reg]
  rw [State.ilayer_onLayer_same _ _ (by omega), hlayer, State.viewNow_of_next_nil (hlayer ▸ hnext),
    State.feeds_congr (hreg _), hfed, State.cutThrough_of_regs hregs, hct]
  simp only [ILayer.writeCt_next, hnext, keepCt, Bool.and_self, if_true, State.convertible_congr hreg, hfits,
    State.layerFmt_congr hreg, State.layerW_congr hreg, htime]
  exact ILayer.writeCt_sending _ _ hsending haction hopen hlatched hnow

/-! ### ST 2110 flows (R47 to R50) -/

/-- A head has at most four Ethernet ports. -/
theorem State.ethPorts_le (s : State) : s.ethPorts ≤ 4 := by
  unfold State.ethPorts
  generalize s.f F.ETH_MODE_MODE = m
  match m with
  | 0 | 1 | 2 | 3 => decide
  | m + 4 => exact Nat.zero_le _

/-- A packet that matches no flow is discarded on its port. -/
theorem exec_st2110PacketRx_none {s : State} {p : Packet} (hhead : s.isHead = true) (hon : s.on iETH = true)
    (hport : p.port < s.ethPorts) (hnone : (List.range 16).any (fun k => s.flowMatch k p) = false) :
    exec (.st2110PacketRx p) s =
      .next (s.onIngest fun g => { g with discards := modAt g.discards p.port fun c => min (c + 1) (2 ^ 32 - 1) }) := by
  have hfilter : (List.range 16).filter (fun k => s.flowMatch k p) = [] :=
    List.filter_eq_nil_iff.mpr fun k hk => by simpa using List.any_eq_false.mp hnone k hk
  show execSt2110PacketRx p s = _
  simp only [execSt2110PacketRx, hhead, hon, hport, decide_true, Bool.and_self, Bool.not_true, Bool.false_eq_true, if_false, hfilter]

/-- A packet that matches flows reaches each of them. -/
theorem exec_st2110PacketRx_some {s : State} {p : Packet} {k : Nat} (hhead : s.isHead = true) (hon : s.on iETH = true)
    (hport : p.port < s.ethPorts) (hk : k ∈ (List.range 16).filter fun k => s.flowMatch k p) :
    exec (.st2110PacketRx p) s = .next (s.each ((List.range 16).filter fun k => s.flowMatch k p) fun s k => s.flowPacket k p) := by
  show execSt2110PacketRx p s = _
  simp only [execSt2110PacketRx, hhead, hon, hport, decide_true, Bool.and_self, Bool.not_true, Bool.false_eq_true, if_false]
  split
  · next hnil => rw [hnil] at hk; exact absurd hk List.not_mem_nil
  · rfl

/-- The format and width of a flow do not change when it receives. -/
theorem State.flowFmt_flag (s : State) (v : Bool) (j k : Nat) :
    (s.flag F.STFLOWn_STATUS_RECEIVING v j).flowFmt k = s.flowFmt k := by
  have hne : F.STFLOWn_FMT_DEPTH.addr k 0 ≠ F.STFLOWn_STATUS_RECEIVING.addr j 0 := by
    simp only [Fld.addr, F.STFLOWn_STATUS_RECEIVING, F.STFLOWn_FMT_DEPTH]
    omega
  have hne' : F.STFLOWn_FMT_SAMPLING.addr k 0 ≠ F.STFLOWn_STATUS_RECEIVING.addr j 0 := hne
  rw [State.flowFmt, State.f_flag_other _ _ (by decide) (.inl hne), State.f_flag_other _ _ (by decide) (.inl hne'), State.flowFmt]

theorem State.flowWidth_flag (s : State) (v : Bool) (j k : Nat) :
    (s.flag F.STFLOWn_STATUS_RECEIVING v j).f F.STFLOWn_SIZE_WIDTH k = s.f F.STFLOWn_SIZE_WIDTH k :=
  State.f_flag_other _ _ (by decide) (.inl (by simp only [Fld.addr, F.STFLOWn_STATUS_RECEIVING, F.STFLOWn_SIZE_WIDTH]; omega))

/-- A packet for which there is room marks the flow as receiving and changes no register else. -/
theorem State.flowPacket_reg {p : Packet} (hroom : p.full = false) (s : State) (k a : Nat) :
    (s.flowPacket k p).reg a = (s.flag F.STFLOWn_STATUS_RECEIVING true k).reg a := by
  simp only [State.flowPacket, hroom, Bool.false_and, Bool.false_eq_true, if_false, State.onFlow_reg]

theorem State.flowPacket_length {p : Packet} (hroom : p.full = false) (s : State) (k : Nat) :
    (s.flowPacket k p).ingest.flows.length = s.ingest.flows.length := by
  simp only [State.flowPacket, hroom, Bool.false_and, Bool.false_eq_true, if_false, State.onFlow_length, State.flag_ingest]

/-- A packet of flow `j` leaves the other flows. -/
theorem State.flowPacket_flow_ne {p : Packet} (hroom : p.full = false) (s : State) {j k : Nat} (h : k ≠ j) :
    (s.flowPacket j p).flow k = s.flow k := by
  simp only [State.flowPacket, hroom, Bool.false_and, Bool.false_eq_true, if_false]
  rw [State.flow_onFlow_ne _ _ h, State.flow_onFlow_ne _ _ h, State.flow, State.flag_ingest, State.flow]

/-- A packet of the open frame for which there is room is placed in it. -/
theorem State.flowPacket_flow_open {p : Packet} (hroom : p.full = false) {s : State} {k : Nat} (hk : k < s.ingest.flows.length)
    (hopen : (s.flow k).stamp = some p.stamp) : (s.flowPacket k p).flow k =
      ({ s.flow k with lastAt := some s.time.aon } : Flow).place (s.flowFmt k) (s.f F.STFLOWn_SIZE_WIDTH k) p := by
  unfold State.flowPacket
  extract_lets s₁ isOpen
  have hflow : s₁.flow k = { s.flow k with lastAt := some s.time.aon } := State.flow_onFlow_same _ _ hk
  have hisOpen : isOpen = true := by simp only [isOpen, hflow, hopen, beq_self_eq_true]
  have hlen : k < s₁.ingest.flows.length := by rwa [State.onFlow_length, State.flag_ingest]
  have hfmt : s₁.flowFmt k = s.flowFmt k := s.flowFmt_flag true k k
  have hwidth : s₁.f F.STFLOWn_SIZE_WIDTH k = s.f F.STFLOWn_SIZE_WIDTH k := s.flowWidth_flag true k k
  simp only [hroom, Bool.false_and, Bool.false_eq_true, if_false]
  rw [State.flow_onFlow_same _ _ hlen, if_pos hisOpen, hflow, hfmt, hwidth]

/-- What the placing of a packet in flow `k` rests on. -/
def State.flowView (s : State) (k : Nat) : Flow × Nat × Nat × Time × Nat :=
  (s.flow k, s.flowFmt k, s.f F.STFLOWn_SIZE_WIDTH k, s.time, s.ingest.flows.length)

theorem State.flowPacket_flowFmt {p : Packet} (hroom : p.full = false) (s : State) (j k : Nat) :
    (s.flowPacket j p).flowFmt k = s.flowFmt k := by
  rw [State.flowFmt, State.f_congr (State.flowPacket_reg hroom s j _), State.f_congr (State.flowPacket_reg hroom s j _)]
  exact s.flowFmt_flag true j k

theorem State.flowPacket_width {p : Packet} (hroom : p.full = false) (s : State) (j k : Nat) :
    (s.flowPacket j p).f F.STFLOWn_SIZE_WIDTH k = s.f F.STFLOWn_SIZE_WIDTH k :=
  (State.f_congr (State.flowPacket_reg hroom s j _)).trans (s.flowWidth_flag true j k)

/-- A packet of the open frame of a flow, for which there is room, is placed in that frame. -/
theorem State.each_flowPacket_flow {s : State} {p : Packet} {ks : List Nat} {k : Nat} (hnodup : ks.Nodup) (hk : k ∈ ks)
    (hroom : p.full = false) (hlen : k < s.ingest.flows.length) (hopen : (s.flow k).stamp = some p.stamp) :
    (s.each ks fun s k => s.flowPacket k p).flow k =
      ({ s.flow k with lastAt := some s.time.aon } : Flow).place (s.flowFmt k) (s.f F.STFLOWn_SIZE_WIDTH k) p := by
  refine State.each_at (State.flowView · k)
    (fun b => b.1 = ({ s.flow k with lastAt := some s.time.aon } : Flow).place (s.flowFmt k) (s.f F.STFLOWn_SIZE_WIDTH k) p)
    hnodup hk (fun x j hj => ?_) fun x hx => ?_
  · rw [State.flowView, State.flowPacket_flow_ne hroom _ hj.symm, State.flowPacket_flowFmt hroom, State.flowPacket_width hroom,
      (State.flowPacket_within ..).same_time, State.flowPacket_length hroom, State.flowView]
  · simp only [State.flowView, Prod.mk.injEq] at hx ⊢
    obtain ⟨hflow, hfmt, hwidth, htime, hflows⟩ := hx
    rw [State.flowPacket_flow_open hroom (by rw [hflows]; exact hlen) (by rw [hflow]; exact hopen), hflow, hfmt, hwidth, htime]

/-- Each flow that a packet reaches, for which there is room, receives. -/
theorem State.each_flowPacket_receiving {s : State} {p : Packet} {ks : List Nat} {k : Nat} (hnodup : ks.Nodup) (hk : k ∈ ks)
    (hroom : p.full = false) : (s.each ks fun s k => s.flowPacket k p).b F.STFLOWn_STATUS_RECEIVING k = true := by
  refine State.each_at (fun t : State => t.b F.STFLOWn_STATUS_RECEIVING k) (· = true) hnodup hk (fun x j hj => ?_) fun x _ => ?_
  · rw [State.b, State.f_congr (State.flowPacket_reg hroom x j _)]
    exact State.b_flag_other _ _ (by decide) (.inl (by simp only [Fld.addr, F.STFLOWn_STATUS_RECEIVING]; omega))
  · rw [State.b, State.f_congr (State.flowPacket_reg hroom x k _)]
    exact State.b_flag _ _ _ _ _ (by decide) rfl

/-- The second report of a membership, 1 s after the first. -/
theorem exec_igmpReportTimer_due {s : State} {flow : Fin 16} (hhead : s.isHead = true) (hon : s.on iETH = true)
    (henable : s.b F.STFLOWn_CTL_ENABLE flow = true) (hreports : (s.flow flow).reports = 1)
    (hdue : (s.flow flow).joinedAt + 1000000000 ≤ s.time.aon) :
    exec (.igmpReportTimer flow) s = .next ((s.igmp flow 1).onFlow flow fun w => { w with reports := 2 }) := by
  show execIgmpReportTimer flow s = _
  simp only [execIgmpReportTimer, hhead, hon, henable, hreports, hdue, beq_self_eq_true, decide_true, Bool.and_self, if_true]

/-- A general query is answered for each enabled flow of the port. -/
theorem igmpQueryRx_joined {s : State} {port : Fin 4} {k : Fin 16} (hhead : s.isHead = true) (hon : s.on iETH = true)
    (henable : s.b F.STFLOWn_CTL_ENABLE k = true) (hport : s.f F.STFLOWn_CTL_PORT k = port.val) :
    yields (.igmpQueryRx port none) s fun t => t.b F.STFLOWn_STATUS_JOINED k = true ∧ t.mem = s.mem := by
  refine ⟨_, (show execIgmpQueryRx port none s = _ from rfl), ?_, (execIgmpQueryRx_within port none s).same_mem⟩
  simp only [hhead, hon, Bool.and_self, if_true, Bool.and_true]
  have hk : k.val ∈ (List.range 16).filter fun k => s.b F.STFLOWn_CTL_ENABLE k && s.f F.STFLOWn_CTL_PORT k == port.val :=
    List.mem_filter.mpr ⟨List.mem_range.mpr k.isLt, by simp only [henable, hport, beq_self_eq_true, Bool.and_self]⟩
  refine State.each_at (fun t : State => t.b F.STFLOWn_STATUS_JOINED k) (· = true) (List.nodup_range.filter _) hk
    (fun x j hj => ?_) fun x _ => ?_
  · exact State.b_flag_other _ _ (by decide) (.inl (by simp only [Fld.addr, F.STFLOWn_STATUS_JOINED]; omega))
  · exact State.b_flag _ _ _ _ _ (by decide) rfl

theorem exec_stflowReceivingLapse {s : State} {flow : Fin 16} {a : Nat} (hlast : (s.flow flow).lastAt = some a) :
    exec (.stflowReceivingLapse flow) s =
      .next (if a + 10000000 < s.time.aon then s.flag F.STFLOWn_STATUS_RECEIVING false flow else s) := by
  show execStflowReceivingLapse flow s = _
  simp only [execStflowReceivingLapse, hlast]

/-- Settles O22: each clause is the command's equation above with what the operation leaves in the layer, flow or register. -/
theorem sourcesAct : Obligations.SourcesAct := by
  unfold Obligations.SourcesAct
  refine ⟨fun s rx hon hhpd => ⟨_, exec_dprxHpdIrq hon hhpd, rfl⟩, fun s rx rate lanes => dpLinkTrained_status,
    fun s rx => dpLinkLoss_status, fun s rx off len hon henable hvalid hlen => ?_,
    fun s rx addr len hon henable => ⟨_, exec_dprxAuxRequest_dpcd addr len hon henable, rfl⟩,
    fun s src id l hhead hup hlen hl hfed => ⟨_, exec_sourceFrameStart src id hhead hup, State.frameStart_inn id hlen hl hfed⟩,
    fun s n f l => sourceFrameComplete_whole, fun s n f l => sourceFrameComplete_broken,
    fun s src id l hhead hup hl hfed hwriting =>
      ⟨_, exec_sourceFrameStart src id hhead hup, State.frameStart_incomplete id hl hfed hwriting⟩,
    fun s n line planes l d hhead hup hlen hl hfed hct hsending haction hopen hlatched hnow hplanes hfits hnext => ?_,
    fun s p hhead hon hlen hport hnone => ?_, fun s p k hhead hon hlen hport hk hmatch hroom hopen => ?_,
    fun s flow hhead hon hlen henable hreports hdue => ?_, fun s port k => igmpQueryRx_joined,
    fun s flow a hlast hover => ?_, fun s flow a hlast hwithin => ?_⟩
  · subst hlen
    exact ⟨_, exec_dprxAuxRequest_edid off hon henable hvalid, rfl⟩
  · rw [State.viewNow_of_next_nil hnext] at hfed hct hfits ⊢
    exact ctLineWritten_dp hhead hup hlen hl hfed hct hsending haction hopen hlatched hnow hplanes hfits hnext
  · have hlt : p.port < s.ingest.discards.length := by have := s.ethPorts_le; omega
    exact ⟨_, exec_st2110PacketRx_none hhead hon hport hnone, nth_modAt_same _ _ _ _ hlt, rfl⟩
  · have hmem : k ∈ (List.range 16).filter fun k => s.flowMatch k p := List.mem_filter.mpr ⟨List.mem_range.mpr hk, hmatch⟩
    have hnodup : ((List.range 16).filter fun k => s.flowMatch k p).Nodup := List.nodup_range.filter _
    exact ⟨_, exec_st2110PacketRx_some hhead hon hport hmem, State.each_flowPacket_flow hnodup hmem hroom (hlen ▸ hk) hopen,
      State.each_flowPacket_receiving hnodup hmem hroom⟩
  · refine ⟨_, exec_igmpReportTimer_due hhead hon henable hreports hdue, ?_, rfl⟩
    have hlt : flow.val < (s.igmp flow 1).ingest.flows.length := flow.isLt.trans_eq hlen.symm
    rw [State.flow_onFlow_same _ _ hlt]
  · refine ⟨_, exec_stflowReceivingLapse hlast, ?_⟩
    rw [if_pos hover]
    exact State.b_flag _ _ _ _ _ (by decide) rfl
  · exact ⟨_, exec_stflowReceivingLapse hlast, if_neg (Nat.not_lt.mpr hwithin)⟩

/-! ### A cell send that decides an overdue frame first (R33, R147) -/

/-- A frame of two cells that wait to be sent. -/
def twoCellFrame : Sending where
  frame := 0
  action := 0
  first := 0
  lines := [⟨0, 0, zeros 480, true, false, []⟩, ⟨1, 0, zeros 480, true, false, []⟩]
  cells := 2
  next := 0
  start := 0
  span := 9
  swap := 0
  closed := true

/-- The first cell of `twoCellFrame` on layer 15. -/
def firstCellBody : Bytes := cellBody 15 false true false 0 0 0 0 480 0 (zeros 480)

/-- A new bellwether that sends a frame of layer 15, fed by a flow that has no candidate. Frame 0 of the layer is still under an older
configuration, and its latch point passed without a record. -/
def overdueBw : State :=
  (((Tests.bw.put F.LAYERn_INGEST_ENABLE 1 15).put F.LAYERn_INGEST_KIND 2 15).flag F.LAYERn_ISTAT_SOURCE_OK true 15).onLayer 15 fun y =>
    { y with sending := [twoCellFrame], before := [{ at_ := 1, same := true, keep := true, dec := { undecided := some 0 } }] }

/-- Refutes O23: its clause on LAYER_CELL_SEND keeps the registers when no frame under the layer's present configuration is undecided,
and says nothing of frames under an older one. A new bellwether decides such a frame first (R33, R147), here as REPEAT, which clears
SOURCE_OK. -/
theorem not_layersAct : ¬ Obligations.LayersAct := by
  unfold Obligations.LayersAct
  rintro ⟨-, -, hcell, -⟩
  obtain ⟨t, hnext, -, hregs⟩ := hcell overdueBw 15 twoCellFrame 0 firstCellBody (by decide +kernel) (by decide +kernel)
    (by decide +kernel) (by decide +kernel) (by decide +kernel) (by decide +kernel) (by decide +kernel) (by decide +kernel)
    (by decide +kernel) (by decide +kernel)
  have hbefore : overdueBw.b F.LAYERn_ISTAT_SOURCE_OK 15 = true := by decide +kernel
  have hafter : (outcomeState (exec (.layerCellSend 15) overdueBw) overdueBw).b F.LAYERn_ISTAT_SOURCE_OK 15 = false := by
    decide +kernel
  rw [hnext, outcomeState, State.b, State.f, State.reg, hregs] at hafter
  exact absurd (hbefore.symm.trans hafter) (by decide)

end Sys2Proof.Machine
end

section
/-! PROOFS. Oaris Link (spec/03_oaris_link.md): what its commands leave unchanged, final training frames that no time limit bounds,
a tag verified before this side has sent its own, and the corrected symbols of the period that a marker begins. -/
namespace Sys2Proof.Machine

/-! ### Frames of the link commands -/

/-- Settles O45: each command of the chapter is within its list by the lemma of Laws/WithinLink.lean about its meaning. -/
theorem linkFrames : Obligations.LinkFrames := by
  unfold Obligations.LinkFrames
  simp only [List.forall_mem_cons, List.not_mem_nil, false_implies, implies_true, and_true]
  refine ⟨fun port lane gen chk loopback control status comp peak frameLane losLane markerLane wordLane inverted arrivals symbols block
      marker body ppm h1 => ⟨?_, ?_, ?_, ?_, ?_, ?_, ?_, ?_, ?_, ?_, ?_, ?_, ?_, ?_, ?_, ?_, ?_, ?_, ?_, ?_⟩,
    fun port adapt => ?_, fun port => ?_, fun port lane => ⟨?_, ?_, ?_⟩, fun port run block => ?_, fun port lane => ⟨?_, ?_⟩,
    fun lane symbols => ?_, fun port => ?_, fun port body => ?_⟩
  · exact changesOnly_of_within (fun _ => rfl) (execPortEnable_within port)
  · exact changesOnly_of_within (fun _ => rfl) (execFaultHoldoffExpire_within port)
  · exact changesOnly_of_within (fun _ => rfl) (execLaneTestSelect_within lane gen chk loopback)
  · exact changesOnly_of_within (fun _ => rfl) (execPortDisable_within port)
  · exact changesOnly_of_within (fun _ => rfl) (execTrainingFrameRx_within frameLane control status comp inverted)
  · exact changesOnly_of_within (fun _ => rfl) (execDetectComplete_within port)
  · exact changesOnly_of_within (fun _ => rfl) (execTrainTimeout_within port)
  · exact changesOnly_of_within (fun _ => rfl) (execAlignComplete_within port arrivals)
  · exact changesOnly_of_within (fun _ => rfl) (execAlignTimeout_within port)
  · exact changesOnly_of_within (fun _ => rfl) (execIdent_within port block)
  · exact changesOnly_of_within (fun _ => rfl) (execCap_within port block)
  · exact changesOnly_of_within (fun _ => rfl) (execConfirm_within port block)
  · exact changesOnly_of_within (fun _ => rfl) (execCheckTimeout_within port)
  · exact changesOnly_of_within (fun _ => rfl) (execLaneLos_within losLane)
  · exact changesOnly_of_within (fun _ => rfl) (execMarkerRx_within markerLane marker ppm peak h1)
  · exact changesOnly_of_within (fun _ => rfl) (execCodewordRx_within wordLane symbols)
  · exact changesOnly_of_within (fun _ => rfl) (execPortRetrain_within port)
  · exact changesOnly_of_within (fun _ => rfl) (execKeyconf_within port body)
  · exact changesOnly_of_within (fun _ => rfl) (execTrainEnd_within port)
  · exact changesOnly_of_within (fun _ => rfl) (execCheckComplete_within port)
  · exact changesOnly_of_within (fun _ => rfl) (execTrainReady_within port adapt)
  · exact changesOnly_of_within (fun _ => rfl) (execCheckTxTimer_within port)
  · exact changesOnly_of_within (fun _ => rfl) (execConfirmTxEnd_within port)
  · exact changesOnly_of_within (fun _ => rfl) (execInjectGo_within lane)
  · exact changesOnly_of_within (fun _ => rfl) (execInjectRateTick_within lane)
  · exact changesOnly_of_within (fun _ => rfl) (execIdleBlockRx_within port run block)
  · exact changesOnly_of_within (fun _ => rfl) (execPortClear_within port)
  · exact changesOnly_of_within (fun _ => rfl) (execPrbsClear_within lane)
  · exact changesOnly_of_within (fun _ => rfl) (execPrbsCheckerLock_within lane symbols)
  · exact changesOnly_of_within (fun _ => rfl) (execKeyxTimer_within port)
  · exact changesOnly_of_within (fun _ => rfl) (execKeyx_within port body)

/-! ### The final training frames (R87) -/

/-- PORT_TRAIN_TIMEOUT bounds step 2 of Table 3-7 alone (R87): once the final frames of step 3 have begun it does nothing. -/
theorem exec_trainTimeout_finalFrames {s : State} {port : Fin 7} (hfinal : (s.port port).final.isNone = false) :
    exec (.trainTimeout port) s = .next s := by
  simp only [exec, execTrainTimeout, hfinal, Bool.and_false, Bool.false_and, Bool.false_eq_true, if_false]

/-- A head whose port 6 sends its final training frames, long after it entered TRAIN; two rates may still be offered. -/
def finalFramesHead : State :=
  ((Tests.upHead.put F.PORTn_STATUS_STATE psTrain 6).onPort 6 fun q => { q with cfg := 16, final := some 16 }).onTime fun x =>
    { x with aon := 10 ^ 10 }

/-- Refutes O14: its clause on TRAIN_TIMEOUT has the port return to DETECT whenever PORT_TRAIN_TIMEOUT has passed in TRAIN, without
the premise that the final frames have not begun; a port that sends them stays in TRAIN (R87). -/
theorem not_portTrainingActs : ¬ Obligations.PortTrainingActs := by
  unfold Obligations.PortTrainingActs
  rintro ⟨-, -, -, -, -, -, -, -, -, -, -, -, -, htimeout, -⟩
  obtain ⟨t, hnext, hdetect, -⟩ := htimeout finalFramesHead 6 (by decide +kernel) (by decide +kernel) (by decide +kernel)
    (by decide +kernel) (by decide +kernel) (by decide +kernel)
  rw [exec_trainTimeout_finalFrames (by decide +kernel), Host.Outcome.next.injEq] at hnext
  have htrain : finalFramesHead.portState 6 = psTrain := by decide +kernel
  rw [hnext] at htrain
  exact absurd (htrain.symm.trans hdetect) (by decide)

/-! ### The two tags of an encrypted link (R153) -/

/-- On an encrypted link CHECK does not complete before this side has sent its own KEYCONF, which the partner must verify (R153). -/
theorem exec_checkComplete_confUnsent {s : State} {port : Fin 7} (henc : (s.port port).encOn = true)
    (hunsent : (s.enc port).sentConf = false) : exec (.checkComplete port) s = .next s := by
  simp only [exec, execCheckComplete, henc, hunsent, Bool.not_true, Bool.and_false, Bool.or_false, Bool.false_eq_true, if_false]

/-- A head whose port 6 is in CHECK on a link to be encrypted: the CONFIRMs have gone both ways, the partner's KEYCONF is verified, and
none has been sent. -/
def confUnsentHead : State :=
  ((Tests.upHead.put F.PORTn_STATUS_STATE psCheck 6).onPort 6 fun q =>
    { q with gotConfirm := true, sentConfirm := true, encOn := true }).onEnc 6 fun e =>
    { e with own := 1, partner := some 2, keys := true, verified := true }

/-- Refutes O15: its clause on CHECK_COMPLETE has CHECK complete on an encrypted link once the partner's tag is verified, without the
premise that this side has sent its own; a port that has not stays in CHECK (R153). -/
theorem not_portCheckActs : ¬ Obligations.PortCheckActs := by
  unfold Obligations.PortCheckActs
  rintro ⟨-, -, -, -, -, -, -, -, hcomplete, -⟩
  obtain ⟨t, hnext, hstate, -⟩ := hcomplete confUnsentHead 6 (by decide +kernel) (by decide +kernel) (by decide +kernel)
    (by decide +kernel) (.inr (by decide +kernel))
  rw [exec_checkComplete_confUnsent (by decide +kernel) (by decide +kernel), Host.Outcome.next.injEq] at hnext
  have hcheck : confUnsentHead.portState 6 = psCheck := by decide +kernel
  rw [hnext] at hcheck
  have hleft : ∀ b : Bool, psCheck ≠ if b then psUp else psLowRate := by decide
  exact hleft _ (hcheck.symm.trans hstate)

/-! ### Corrected symbols of a marker period (R93, R99) -/

/-- A head whose port 6 is UP; on its lane 31 two symbols have been corrected in the marker period that has begun. -/
def correctedHead : State := (Tests.upHead.put F.PORTn_STATUS_STATE psUp 6).onLane 31 fun l => { l with corr := 2 }

/-- Refutes O16: its clause on a good marker asks that no corrected symbol of the lane is left in the count. The count of the period
that the marker ends is taken over with the marker's codeword; at MARKER_RX it holds what that codeword gave to the period that it
begins (R93, R99), and MARKER_RX keeps it. -/
theorem not_laneEventsAct : ¬ Obligations.LaneEventsAct := by
  unfold Obligations.LaneEventsAct
  rintro ⟨-, hmarker, -⟩
  obtain ⟨t, hnext, -, -, hcleared, -⟩ := hmarker correctedHead 27 (markerBytes 3 2 9 0) 0 0 0 (by decide +kernel) (by decide +kernel)
    (by decide +kernel) (by decide +kernel)
  have hkept : ((outcomeState (exec (.markerRx 27 (markerBytes 3 2 9 0) 0 0 0) correctedHead) correctedHead).lane 31).corr = 2 := by
    decide +kernel
  rw [hnext, outcomeState] at hkept
  exact absurd (hkept.symm.trans hcleared) (by decide)

end Sys2Proof.Machine
end

section
/-! PROOFS. Rings and redundancy (spec/04_ring_and_redundancy.md): what its commands leave unchanged, clip bytes of a resynchronisation
that fill a word in part, and cells, ENUMs and HELLOs whose blocks came in a codeword that could not be corrected. -/
set_option Elab.async false
namespace Sys2Proof.Machine

/-! ### Frames of the ring commands -/

/-- Settles O46: each command of the chapter is within its list by the lemma of Laws/WithinRingOps.lean, WithinTickets.lean,
WithinPeer.lean or WithinCellRx.lean about its meaning. -/
theorem ringFrames : Obligations.RingFrames := by
  unfold Obligations.RingFrames
  simp only [List.forall_mem_cons, List.not_mem_nil, false_implies, implies_true, and_true]
  refine ⟨fun ctx src index entry payload port => ⟨?_, ?_⟩, fun payload ctx src index => ⟨?_, ?_, ?_, ?_⟩, fun serial => ?_,
    fun target asker => ?_, fun seq tally => ⟨?_, ?_, ?_, ?_, ?_⟩, fun record payload => ?_, fun ctx ticket payload => ⟨?_, ?_⟩, ?_,
    fun payload => ⟨?_, ?_, ?_, ?_, ?_⟩, fun port cell => ?_, fun stream src => ?_, fun port payload => ⟨?_, ?_, ?_, ?_⟩,
    fun port body => ?_, fun port h => ?_, ?_, fun stream frame entry => ⟨?_, ?_⟩, ?_, ⟨?_, ?_⟩, ?_⟩
  · exact changesOnly_of_within (fun _ => rfl) (execMgmtEntryRx_within ctx src index entry payload)
  · exact changesOnly_of_within (fun _ => rfl) (execRequest_within port payload)
  · exact changesOnly_of_within (fun _ => rfl) (execTunnelCmdRx_within payload)
  · exact changesOnly_of_within (fun _ => rfl) (execTunnelReplyRx_within payload)
  · exact changesOnly_of_within (fun _ => rfl) (execReplyAckRx_within payload)
  · exact changesOnly_of_within (fun _ => rfl) (execMgmtCqReadRx_within ctx src index)
  · exact changesOnly_of_within (fun _ => rfl) (execTileHealthTimeout_within serial)
  · exact changesOnly_of_within (fun _ => rfl) (execMgmtArpRx_within target asker)
  · exact changesOnly_of_within (fun _ => rfl) (execReplyRepeatTimer_within seq)
  · exact changesOnly_of_within (fun _ => rfl) execJoinRequestTimer_within
  · exact changesOnly_of_within (fun _ => rfl) execWallTimer_within
  · exact changesOnly_of_within (fun _ => rfl) execHelloTimer_within
  · exact changesOnly_of_within (fun _ => rfl) (execCopyAckRx_within tally)
  · exact changesOnly_of_within (fun _ => rfl) (execMirrorRecordRx_within record payload)
  · exact changesOnly_of_within (fun _ => rfl) (execMirrorAckRx_within ctx ticket)
  · exact changesOnly_of_within (fun _ => rfl) (execWindowReset_within payload)
  · exact changesOnly_of_within (fun _ => rfl) execMirrorAckTimeout_within
  · exact changesOnly_of_within (fun _ => rfl) (execAssign_within payload)
  · exact changesOnly_of_within (fun _ => rfl) (execWall_within payload)
  · exact changesOnly_of_within (fun _ => rfl) (execAuthority_within payload)
  · exact changesOnly_of_within (fun _ => rfl) execHandbackCleanElapsed_within
  · exact changesOnly_of_within (fun _ => rfl) execRingHandover_within
  · exact changesOnly_of_within (fun _ => rfl) (execCellRx_within port cell)
  · exact changesOnly_of_within (fun _ => rfl) (execGapWaitExpire_within stream src)
  · exact changesOnly_of_within (fun _ => rfl) execRingEnumerate_within
  · exact changesOnly_of_within (fun _ => rfl) execEnumWaveTimeout_within
  · exact changesOnly_of_within (fun _ => rfl) (execReport_within port payload)
  · exact changesOnly_of_within (fun _ => rfl) execCopyAckTimeout_within
  · exact changesOnly_of_within (fun _ => rfl) (execEnum_within port body)
  · exact changesOnly_of_within (fun _ => rfl) (execHello_within port h)
  · exact changesOnly_of_within (fun _ => rfl) execElectionTimeout_within
  · exact changesOnly_of_within (fun _ => rfl) (execDigestSend_within stream frame)
  · exact changesOnly_of_within (fun _ => rfl) (execDigestRx_within entry)
  · exact changesOnly_of_within (fun _ => rfl) execHeadLossTimeout_within
  · exact changesOnly_of_within (fun _ => rfl) execDemotedRecover_within
  · exact changesOnly_of_within (fun _ => rfl) execResyncComplete_within
  · exact changesOnly_of_within (fun _ => rfl) execRingClear_within

/-! ### Clip bytes of a resynchronisation (R150, R430) -/

/-- Clip bytes that a head in RESYNC receives are merged into its frame memory, with the reads of R430. -/
theorem exec_resyncCopyRx_clip {s : State} (addr : Nat) (data : Bytes) (hhead : s.isHead = true) (hon : s.on iLINK = true)
    (hstate : s.f F.RING_STATUS_STATE = hsResync) :
    exec (.resyncCopyRx (.clip addr data)) s = .next (s.memMerge addr data 6) := by
  simp only [exec, execResyncCopyRx, hhead, hon, hstate, beq_self_eq_true, Bool.and_self, Bool.not_true, Bool.false_eq_true, if_false]

/-- A head in RESYNC; the first word of its clip store holds an uncorrectable error. -/
def badWordHead : State := (Tests.upHead.put F.RING_STATUS_STATE hsResync).onMst fun m => { m with bad := [0x40000000] }

/-- Refutes O13: its clause on clip bytes has them written and nothing else changed. Bytes that fill a word in part are merged into what a
read of its granule gives (R430), and here that read finds an uncorrectable error and counts it. -/
theorem not_handbackAndResync : ¬ Obligations.HandbackAndResync := by
  unfold Obligations.HandbackAndResync
  rintro ⟨-, -, -, hclip, -⟩
  have hhead : badWordHead.isHead = true := by decide +kernel
  have hon : badWordHead.on iLINK = true := by decide +kernel
  have hstate : badWordHead.f F.RING_STATUS_STATE = hsResync := by decide +kernel
  obtain ⟨t, hnext, hwritten⟩ := hclip badWordHead 0x40000001 [1] hhead hon hstate
  rw [exec_resyncCopyRx_clip _ _ hhead hon hstate, Host.Outcome.next.injEq] at hnext
  have hcounted : (badWordHead.memMerge 0x40000001 [1] 6).f F.MEM_UE = 1 := by decide +kernel
  have hkept : (badWordHead.memWrite 0x40000001 [1]).f F.MEM_UE = 0 := by decide +kernel
  rw [hnext, hwritten, hkept] at hcounted
  exact absurd hcounted (by decide)

/-! ### Blocks lost with their codeword (R96) -/

/-- A cell with a block of an uncorrectable codeword goes no further in the node: it is sent on stomped or counted (R96). -/
theorem exec_cellRx_lost {s : State} {port : Fin 7} {cell : Bytes} (hon : s.on iLINK = true) (hup : s.portUp port = true)
    (hlen : cell.length = 512) (hlost : (s.takeBlocks port).2 = true) :
    exec (.cellRx port cell) s =
      .next ((s.takeBlocks port).1.spoiledCell port ((s.takeBlocks port).1.openCell port cell)) := by
  simp only [exec, execCellRx, State.rxCell, hon, hup, hlen, hlost, beq_self_eq_true, Bool.and_self, Bool.not_true, Bool.false_eq_true,
    if_false, if_true]

/-- A cell lost with its codeword is not stored: the composition stays as it was. -/
theorem exec_cellRx_lost_comp {s t : State} {port : Fin 7} {cell : Bytes} (hon : s.on iLINK = true) (hup : s.portUp port = true)
    (hlen : cell.length = 512) (hlost : (s.takeBlocks port).2 = true) (hnext : exec (.cellRx port cell) s = .next t) :
    t.comp = s.comp := by
  rw [exec_cellRx_lost hon hup hlen hlost, Host.Outcome.next.injEq] at hnext
  rw [← hnext, (State.spoiledCell_within ..).same_comp]
  rfl

/-- A tile whose port 1 is UP; a block of the next cell there came in an uncorrectable codeword. -/
def lostCellTile : State := (Tests.upTile.put F.PORTn_STATUS_STATE psUp 1).onPort 1 fun q => { q with rxCells := [true] }

/-- Refutes O17: its clause on a good layer cell has it stored whatever codewords it came in, without the premise that each of them could be
corrected; a cell with a block of one that could not is discarded (R96). -/
theorem not_cellsAct : ¬ Obligations.CellsAct := by
  unfold Obligations.CellsAct
  rintro ⟨-, -, -, hstore, -⟩
  have hon : lostCellTile.on iLINK = true := by decide +kernel
  have hup : lostCellTile.portUp (1 : Fin 7) = true := by decide +kernel
  have hlen : Tests.layerCell.length = 512 := by decide +kernel
  have hframes : (lostCellTile.tlayer (cStream Tests.layerCell)).frames = [] := by decide +kernel
  obtain ⟨t, hnext, -, -, -, hstored⟩ := hstore lostCellTile 1 Tests.layerCell hon hup (by decide +kernel) hlen (by decide +kernel)
    (cCheck_sealCell _ (by decide +kernel)) (by decide +kernel) (by decide +kernel) (by decide +kernel) (by decide +kernel)
    (by decide +kernel) (by decide +kernel) (by decide +kernel) hframes
  have hcomp : t.comp = lostCellTile.comp := exec_cellRx_lost_comp hon hup hlen (by decide +kernel) hnext
  rw [State.tlayer, hcomp, ← State.tlayer, hframes] at hstored
  exact absurd hstored (List.cons_ne_nil _ _).symm

/-- A LINK message whose block came in an uncorrectable codeword is absent (R96). -/
theorem State.linkRx_lost {s : State} {p k : Nat} {b : Bytes} (f : State → State)
    (hlost : linkPlace (s.port p).rxLinks b = some (k, true)) :
    s.linkRx p b f = s.onPort p fun q => { q with rxLinks := q.rxLinks.drop (k + 1) } := by
  simp only [State.linkRx, hlost, if_true]

/-- An ENUM that is absent leaves what the node knows of its ring. -/
theorem exec_enum_lost_ring {s t : State} {port : Fin 7} {k : Nat} {body : Bytes}
    (hlost : linkPlace (s.port port).rxLinks body = some (k, true)) (hnext : exec (.enum port body) s = .next t) :
    t.ring = s.ring := by
  simp only [exec, execEnum, State.linkRx_lost _ hlost, Host.Outcome.next.injEq] at hnext
  rw [← hnext]
  rfl

/-- A tile without an index whose port 1 is UP; a LINK block there came in an uncorrectable codeword. -/
def lostEnumTile : State := (Tests.upTile.put F.PORTn_STATUS_STATE psUp 1).onPort 1 fun q => { q with rxLinks := [(true, [])] }

/-- An ENUM of ring 5 from the east, after 191 hops. -/
def enumBody : Bytes := linkBlock 0x20 [(2, 1, 5), (3, 1, 191), (4, 2, 832), (6, 1, 9), (7, 1, 1)]

/-- Refutes O18: its clause on ENUM has a tile take its index whatever codeword the message came in, without the premise that it could be
corrected; a LINK message of one that could not is absent (R96). -/
theorem not_wallActs : ¬ Obligations.WallActs := by
  unfold Obligations.WallActs
  rintro ⟨-, henum, -⟩
  obtain ⟨t, hnext, -, -, -, htaken, -⟩ := henum lostEnumTile 1 enumBody (by decide +kernel) (by decide +kernel) (by decide +kernel)
    (by decide +kernel) (by decide +kernel) (by decide +kernel) (by decide +kernel) (by decide +kernel) (by decide +kernel)
  have hring : t.ring = lostEnumTile.ring := exec_enum_lost_ring (k := 0) (by decide +kernel) hnext
  have hnone : lostEnumTile.ring.enumerated = false := by decide +kernel
  rw [hring, hnone] at htaken
  exact absurd htaken Bool.false_ne_true

/-- A HELLO with a block of an uncorrectable codeword is lost and counted on its port (R96). -/
theorem exec_hello_lost {s : State} {port : Fin 7} (h : Hello) (hhead : s.isHead = true) (hon : s.on iLINK = true)
    (hup : s.portUp port = true) (hlost : (s.takeBlocks port).2 = true) :
    exec (.hello port h) s = .next (((s.takeBlocks port).1.countOpened port).inc F.PORTn_STOMPED port) := by
  simp only [exec, execHello, hhead, hon, hup, hlost, Bool.and_self, Bool.not_true, Bool.false_eq_true, if_false, if_true]

/-- A head in ELECTING whose port 6 is UP; a block of the next cell there came in an uncorrectable codeword. -/
def lostHelloHead : State := (Tests.upHead.put F.PORTn_STATUS_STATE psUp 6).onPort 6 fun q => { q with rxCells := [true] }

/-- A HELLO of head B, in ELECTING. -/
def rivalHello : Hello := ⟨0, hsElecting, 1, 5, 0, true, true, 0, 3, false, none, [], none, []⟩

/-- Refutes O19: its clause on the election has a head become bellwether at a HELLO whatever codewords it came in, without the premise that
each of them could be corrected; a HELLO with a block of one that could not is lost, and the head stays in ELECTING (R96). -/
theorem not_headsAct : ¬ Obligations.HeadsAct := by
  unfold Obligations.HeadsAct
  rintro ⟨-, helect, -⟩
  have hhead : lostHelloHead.isHead = true := by decide +kernel
  have hon : lostHelloHead.on iLINK = true := by decide +kernel
  have hup : lostHelloHead.portUp (6 : Fin 7) = true := by decide +kernel
  obtain ⟨t, hnext, helected, -⟩ := helect lostHelloHead 6 rivalHello hhead hon hup (by decide +kernel) (by decide +kernel)
    (by decide +kernel) (by decide +kernel) (by decide +kernel)
  rw [exec_hello_lost _ hhead hon hup (by decide +kernel), Host.Outcome.next.injEq] at hnext
  have hwaits : (((lostHelloHead.takeBlocks (6 : Fin 7)).1.countOpened (6 : Fin 7)).inc F.PORTn_STOMPED (6 : Fin 7)).f
      F.RING_STATUS_STATE = hsElecting := by decide +kernel
  rw [← hnext] at helected
  exact absurd (hwaits.symm.trans helected) (by decide)

end Sys2Proof.Machine
end

section
/-! PROOFS. Time (spec/05_time.md): what its commands leave unchanged, the commands of the node clock (its capture, its steps, PPS_IN and
the alarms), the very instant of a frame latch, and a port on which a head sends no PDREQ. -/
namespace Sys2Proof.Machine

/-! ### Frames of the time commands -/

/-- Settles O47: each command of the chapter is within its list by the lemma of Laws/WithinTimeOps.lean or WithinCellRx.lean about its
meaning. -/
theorem timeFrames : Obligations.TimeFrames := by
  unfold Obligations.TimeFrames
  simp only [List.forall_mem_cons, List.not_mem_nil, false_implies, implies_true, and_true]
  refine ⟨⟨?_, ?_⟩, fun rising m => ⟨?_, ?_, ?_⟩, fun value => ?_, fun a m => ⟨?_, ?_, ?_, ?_, ?_⟩, fun port => ?_,
    fun port cell body => ⟨?_, ?_⟩, fun port a => ⟨?_, ?_, ?_⟩, fun port body => ?_, fun seq requester => ?_,
    fun port seq rx t2 t3 => ⟨?_, ?_, ?_⟩, fun announce => ?_⟩
  · exact changesOnly_of_within (fun _ => rfl) execTimeCapture_within
  · exact changesOnly_of_within (fun _ => rfl) execTimeClear_within
  · exact changesOnly_of_within (fun _ => rfl) execTimeRelock_within
  · exact changesOnly_of_within (fun _ => rfl) (execPpsEdge_within rising)
  · exact changesOnly_of_within (fun _ => rfl) (execPtpSyncRx_within m)
  · exact changesOnly_of_within (fun _ => rfl) (execTimeSetWrite_within value)
  · exact changesOnly_of_within (fun _ => rfl) execPpsTimeout_within
  · exact changesOnly_of_within (fun _ => rfl) execPtpAnnounceTimeout_within
  · exact changesOnly_of_within (fun _ => rfl) (execAlarmArm_within a)
  · exact changesOnly_of_within (fun _ => rfl) (execAlarmFire_within a)
  · exact changesOnly_of_within (fun _ => rfl) (execPtpAnnounceRx_within m)
  · exact changesOnly_of_within (fun _ => rfl) (execTimeCellTimer_within port)
  · exact changesOnly_of_within (fun _ => rfl) (execTimeCellRx_within port cell)
  · exact changesOnly_of_within (fun _ => rfl) (execPdresp_within port body)
  · exact changesOnly_of_within (fun _ => rfl) (execPdelayTimer_within port)
  · exact changesOnly_of_within (fun _ => rfl) execPtpDelayReqTimer_within
  · exact changesOnly_of_within (fun _ => rfl) (execAlarmPulseEnd_within a)
  · exact changesOnly_of_within (fun _ => rfl) (execPdreq_within port body)
  · exact changesOnly_of_within (fun _ => rfl) (execPtpPdelayReqRx_within seq requester)
  · exact changesOnly_of_within (fun _ => rfl) (execPdrespTimeout_within port)
  · exact changesOnly_of_within (fun _ => rfl) (execPtpDelayRespRx_within seq rx)
  · exact changesOnly_of_within (fun _ => rfl) (execPtpPdelayRespRx_within seq t2 t3)
  · exact changesOnly_of_within (fun _ => rfl) (execPtpMasterTxTimer_within announce)

/-! ### Registers under events and interrupts (R420, R425) -/

/-- An interrupt sets a bit of its cause register and changes no other one. -/
theorem State.irq_reg (s : State) (f : Fld) (c : Nat) {a : Nat} (h : a ≠ f.addr c 0) : (s.irq f c).reg a = s.reg a := by
  have hflag : (s.flag f true c).reg a = s.reg a := s.reg_put_ne _ _ _ _ _ h
  unfold State.irq
  extract_lets t
  split
  · rfl
  · split
    · rw [State.reg, (State.deliver_within ..).same_regs]
      exact hflag
    · exact hflag

/-- The cause registers of the contexts stand at 0x038 of their pages. -/
theorem State.irqAll_time_reg (s : State) {a : Nat} (h : a % 0x1000 ≠ 0x38) : (s.irqAll F.CTXn_IRQ_CAUSE_TIME).reg a = s.reg a :=
  State.each_keeps (fun t : State => t.reg a) _ _ s fun x c =>
    x.irq_reg _ c (by simp only [Fld.addr, F.CTXn_IRQ_CAUSE_TIME]; omega)

theorem State.timeEvent_reg (s : State) (f : Fld) {a : Nat} (h : a % 0x1000 ≠ 0x38) : (s.timeEvent f).reg a = (s.flag f).reg a :=
  State.irqAll_time_reg _ h

@[simp] theorem State.irqAll_time (s : State) (f : Fld) : (s.irqAll f).time = s.time := (State.irqAll_within ..).same_time
@[simp] theorem State.timeEvent_time (s : State) (f : Fld) : (s.timeEvent f).time = s.time := (State.timeEvent_within ..).same_time

/-- An event leaves every field but its own and the causes. -/
theorem State.f_timeEvent_other (s : State) {f g : Fld} (hw : f.lo + f.w ≤ 32) (hpage : g.addr 0 0 % 0x1000 ≠ 0x38)
    (h : g.addr 0 0 ≠ f.addr 0 0 ∨ g.lo + g.w ≤ f.lo ∨ f.lo + f.w ≤ g.lo) : (s.timeEvent f).f g = s.f g :=
  (State.f_congr (s.timeEvent_reg f hpage)).trans (s.f_flag_other _ hw h)

theorem State.b_timeEvent_other (s : State) {f g : Fld} (hw : f.lo + f.w ≤ 32) (hpage : g.addr 0 0 % 0x1000 ≠ 0x38)
    (h : g.addr 0 0 ≠ f.addr 0 0 ∨ g.lo + g.w ≤ f.lo ∨ f.lo + f.w ≤ g.lo) : (s.timeEvent f).b g = s.b g := by
  rw [State.b, s.f_timeEvent_other hw hpage h, State.b]

theorem State.b_timeEvent_same (s : State) {f : Fld} (hw : f.lo + f.w ≤ 32) (hbit : f.w = 1) (hpage : f.addr 0 0 % 0x1000 ≠ 0x38) :
    (s.timeEvent f).b f = true := by
  rw [State.b, State.f_congr (s.timeEvent_reg f hpage)]
  exact State.b_flag _ _ _ _ _ hw hbit

@[simp] theorem State.onTime_reg (s : State) (g : Time → Time) (a : Nat) : (s.onTime g).reg a = s.reg a := rfl
@[simp] theorem State.onTime_f (s : State) (g : Time → Time) (f : Fld) (i j : Nat) : (s.onTime g).f f i j = s.f f i j := rfl
@[simp] theorem State.tickFresh_reg (s : State) (a : Nat) : s.tickFresh.reg a = s.reg a := rfl
@[simp] theorem State.tickFresh_f (s : State) (f : Fld) (i j : Nat) : s.tickFresh.f f i j = s.f f i j := rfl

/-- Whether a node is the bellwether depends on its straps and its head state alone. -/
theorem State.isBw_congr {s t : State} (hrole : s.reg (F.BOOT_STRAPS_ROLE.addr 0 0) = t.reg (F.BOOT_STRAPS_ROLE.addr 0 0))
    (hstate : s.reg (F.RING_STATUS_STATE.addr 0 0) = t.reg (F.RING_STATUS_STATE.addr 0 0)) : s.isBw = t.isBw := by
  have hr : s.f F.BOOT_STRAPS_ROLE = t.f F.BOOT_STRAPS_ROLE := State.f_congr hrole
  have hs : s.f F.RING_STATUS_STATE = t.f F.RING_STATUS_STATE := State.f_congr hstate
  rw [State.isBw, State.isHead, hr, hs, State.isBw, State.isHead]

/-! ### A lock reset (R167, R169, R170) -/

/-- A lock reset writes TIME_STATUS, TIME_ERR, TIME_LAG and the chains' CHAIN_VALID, and no other register; the last two stand at
offsets that end in 0xC. -/
theorem State.lockReset_reg (s : State) {a : Nat} (hstatus : a ≠ F.TIME_STATUS_STATE.addr 0 0) (herr : a ≠ F.TIME_ERR.addr 0 0)
    (hport : a % 16 ≠ 12) : s.lockReset.reg a = s.reg a := by
  unfold State.lockReset
  extract_lets t u
  have hlag : a ≠ F.TIME_LAG.addr 0 0 := by simp only [Fld.addr, F.TIME_LAG]; omega
  have hsource : a ≠ F.TIME_STATUS_SOURCE.addr 0 0 := hstatus
  have haligned : a ≠ F.TIME_STATUS_ALIGNED.addr 0 0 := hstatus
  have hwithin : a ≠ F.TIME_STATUS_WITHIN_1US.addr 0 0 := hstatus
  have hu : u.reg a = s.reg a := by
    refine (State.each_keeps (fun x : State => x.reg a) _ _ t fun x p => ?_).trans ?_
    · exact State.reg_put_ne _ _ _ _ _ _ (by simp only [Fld.addr, F.TIME_PORTp_PDSTAT_CHAIN_VALID]; omega)
    · rw [State.reg_put_ne _ _ _ _ _ _ hlag, State.reg_put_ne _ _ _ _ _ _ hsource, State.reg_put_ne _ _ _ _ _ _ hstatus,
        State.onTime_reg]
  clear_value u
  split
  · exact hu
  · rw [State.flag, State.reg_put_ne _ _ _ _ _ _ hwithin, State.flag, State.reg_put_ne _ _ _ _ _ _ haligned,
      State.tickFresh_reg, State.reg_put_ne _ _ _ _ _ _ herr, hu]

theorem State.lockReset_time (s : State) : s.lockReset.time = { s.time with
    needStep := true, refOk := false, ppsGood := 0
    pd := s.time.pd.map fun p => { p with valid := false, seen := false, heldSamples := [] } } := by
  unfold State.lockReset
  extract_lets t u
  have hu : u.time = t.time := State.each_keeps State.time _ _ t fun x p => by rw [State.flag_time]
  clear_value u
  split
  · rw [hu, State.put_time, State.put_time, State.put_time, State.onTime_time]
  · rw [State.flag_time, State.flag_time, State.tickFresh_time, State.put_time, hu, State.put_time, State.put_time, State.put_time,
      State.onTime_time]

theorem State.lockReset_state (s : State) : s.lockReset.f F.TIME_STATUS_STATE = tsAcquire := by
  unfold State.lockReset
  extract_lets t u
  have hu : u.f F.TIME_STATUS_STATE = tsAcquire := by
    refine (State.each_keeps (fun x : State => x.f F.TIME_STATUS_STATE) _ _ t fun x p => ?_).trans ?_
    · exact State.f_flag_other _ _ (by decide) (.inl (by
        simp only [Fld.addr, F.TIME_PORTp_PDSTAT_CHAIN_VALID, F.TIME_STATUS_STATE]
        omega))
    · rw [State.f_put_other _ _ (by decide) (by decide), State.f_put_other _ _ (by decide) (by decide), State.f_put _ _ _ _ _ (by decide)]
      rfl
  clear_value u
  split
  · exact hu
  · rw [State.f_flag_other _ _ (by decide) (by decide), State.f_flag_other _ _ (by decide) (by decide), State.tickFresh_f,
      State.f_put_other _ _ (by decide) (by decide), hu]

theorem State.lockReset_isBw (s : State) : s.lockReset.isBw = s.isBw :=
  State.isBw_congr (s.lockReset_reg (by decide) (by decide) (by decide)) (s.lockReset_reg (by decide) (by decide) (by decide))

theorem State.lockReset_mode (s : State) : s.lockReset.f F.TIME_CFG_MODE = s.f F.TIME_CFG_MODE :=
  State.f_congr (s.lockReset_reg (by decide) (by decide) (by decide))

/-! ### Steps of the clock (R169, R170, R172) -/

/-- A step sets the clock, which then waits for none, and leaves the time generation. -/
theorem State.stepClock_time (s : State) (c st : Nat) : (s.stepClock c st).time.clock = c ∧ (s.stepClock c st).time.needStep = false ∧
    (s.stepClock c st).time.tgen = s.time.tgen := by
  rw [State.stepClock, (State.healthFrom_within _).same_time, State.timeEvent_time, State.put_time, State.put_time, State.onTime_time,
    (State.restarts_within s c).same_time]
  exact ⟨rfl, rfl, rfl⟩

theorem State.stepClock_stepped (s : State) (c st : Nat) : (s.stepClock c st).b F.TIME_EVENT_STEPPED = true := by
  rw [State.stepClock, State.b_of_regs (State.healthFrom_within _).same_regs]
  exact State.b_timeEvent_same _ (by decide) rfl (by decide)

/-- TIME_OFFSET, TIME_ERR and TIME_STATUS alone show an error. -/
theorem State.setErr_stepped (s : State) (off : Int) (err : Nat) : (s.setErr off err).b F.TIME_EVENT_STEPPED = s.b F.TIME_EVENT_STEPPED := by
  simp (disch := decide) only [State.setErr, State.putS, State.b_flag_other, State.b_put_other]

theorem State.setErr_time (s : State) (off : Int) (err : Nat) : (s.setErr off err).time = s.time := (State.setErr_within ..).same_time

/-- A step of the bellwether sets the clock and begins the next time generation. -/
theorem State.bwStep_time (s : State) (c st src : Nat) : (s.bwStep c st src).time.clock = c ∧ (s.bwStep c st src).time.needStep = false ∧
    (s.bwStep c st src).time.tgen = (s.time.tgen + 1) % 256 := by
  unfold State.bwStep
  dsimp only
  rw [State.setErr_time, State.put_time, State.put_time, State.put_time, State.timeEvent_time]
  obtain ⟨hclock, hneed, htgen⟩ := State.stepClock_time _ c st
  rw [htgen, State.onTime_time]
  exact ⟨hclock, hneed, rfl⟩

theorem State.bwStep_stepped (s : State) (c st src : Nat) : (s.bwStep c st src).b F.TIME_EVENT_STEPPED = true := by
  unfold State.bwStep
  extract_lets g t u
  rw [State.setErr_stepped, State.b_put_other _ _ (by decide) (by decide), State.b_put_other _ _ (by decide) (by decide),
    State.b_put_other _ _ (by decide) (by decide), State.b_timeEvent_other _ (by decide) (by decide) (by decide),
    State.stepClock_stepped]

/-- HOLDOVER is entered by a node whose clock has been set: RATE freezes at its mean. -/
theorem State.holdover_enters {s : State} (h : ¬(s.f F.TIME_STATUS_STATE == tsHoldover || s.time.needStep) = true) : s.holdover =
    (((s.putS F.TIME_RATE s.meanRate).onTime fun t => { t with rates := keepRates t.clock ((t.clock, s.meanRate) :: t.rates) }).put
      F.TIME_STATUS_STATE tsHoldover).timeEvent F.TIME_EVENT_HOLDOVER_ENTERED := if_neg h

/-- A node in HOLDOVER stays there, and one that waits for a step does not hold over. -/
theorem State.holdover_stays {s : State} (h : (s.f F.TIME_STATUS_STATE == tsHoldover || s.time.needStep) = true) : s.holdover = s :=
  if_pos h

/-- HOLDOVER changes the history of RATE alone in what the node knows of the time. -/
theorem State.holdover_time (s : State) : ∃ l, s.holdover.time = { s.time with rates := l } := by
  by_cases h : (s.f F.TIME_STATUS_STATE == tsHoldover || s.time.needStep) = true
  · rw [State.holdover_stays h]
    exact ⟨s.time.rates, rfl⟩
  · rw [State.holdover_enters h, State.timeEvent_time, State.put_time, State.onTime_time, State.putS_time]
    exact ⟨_, rfl⟩

/-- HOLDOVER changes RATE, STATE and its own event alone. -/
theorem State.holdover_f (s : State) {g : Fld} (hpage : g.addr 0 0 % 0x1000 ≠ 0x38) (hrate : g.addr 0 0 ≠ F.TIME_RATE.addr 0 0)
    (hstate : g.addr 0 0 ≠ F.TIME_STATUS_STATE.addr 0 0 ∨ g.lo + g.w ≤ F.TIME_STATUS_STATE.lo ∨
      F.TIME_STATUS_STATE.lo + F.TIME_STATUS_STATE.w ≤ g.lo)
    (hevent : g.addr 0 0 ≠ F.TIME_EVENT_HOLDOVER_ENTERED.addr 0 0 ∨ g.lo + g.w ≤ F.TIME_EVENT_HOLDOVER_ENTERED.lo ∨
      F.TIME_EVENT_HOLDOVER_ENTERED.lo + F.TIME_EVENT_HOLDOVER_ENTERED.w ≤ g.lo) : s.holdover.f g = s.f g := by
  by_cases h : (s.f F.TIME_STATUS_STATE == tsHoldover || s.time.needStep) = true
  · rw [State.holdover_stays h]
  · rw [State.holdover_enters h, State.f_timeEvent_other _ (by decide) hpage hevent, State.f_put_other _ _ (by decide) hstate,
      State.onTime_f, State.putS, State.f_put_ne _ _ _ _ _ _ _ _ hrate]

theorem State.holdover_source (s : State) : s.holdover.f F.TIME_STATUS_SOURCE = s.f F.TIME_STATUS_SOURCE :=
  s.holdover_f (by decide) (by decide) (by decide) (by decide)

theorem State.holdover_stepped (s : State) : s.holdover.b F.TIME_EVENT_STEPPED = s.b F.TIME_EVENT_STEPPED := by
  rw [State.b, s.holdover_f (by decide) (by decide) (by decide) (by decide), State.b]

/-- What a step of the bellwether to `c` leaves: the clock there, no step to come, the next time generation, and its event. -/
def State.steppedTo (s t : State) (c : Nat) : Prop :=
  t.time.clock = c ∧ t.time.needStep = false ∧ t.time.tgen = (s.time.tgen + 1) % 256 ∧ t.b F.TIME_EVENT_STEPPED = true

theorem State.bwStep_steps (s : State) (c st src : Nat) : s.steppedTo (s.bwStep c st src) c := by
  obtain ⟨hclock, hneed, htgen⟩ := s.bwStep_time c st src
  exact ⟨hclock, hneed, htgen, s.bwStep_stepped c st src⟩

theorem State.steppedTo.holdover {s t : State} {c : Nat} (h : s.steppedTo t c) : s.steppedTo t.holdover c := by
  obtain ⟨hclock, hneed, htgen, hevent⟩ := h
  obtain ⟨l, htime⟩ := t.holdover_time
  rw [State.steppedTo, htime, State.holdover_stepped]
  exact ⟨hclock, hneed, htgen, hevent⟩

/-- In MODE 0, or without a qualified reference, the bellwether steps to TIME_SET (R170). -/
theorem State.electStep_steps {s : State} (h : s.f F.TIME_CFG_MODE = 0 ∨ s.time.refOk = false) :
    s.steppedTo s.electStep s.timeSet := by
  unfold State.electStep
  extract_lets m
  split
  · exact s.bwStep_steps _ _ _
  · next hmode =>
    have hlost : s.time.refOk = false := h.resolve_left fun h0 => hmode (by simp only [m, h0, beq_self_eq_true])
    rw [if_neg (by rw [hlost]; exact Bool.false_ne_true)]
    exact (s.bwStep_steps _ _ _).holdover

/-! ### CAPTURE, RELOCK and TIME_SET (R166, R167, R170) -/

/-- CAPTURE copies the clock into the capture registers. -/
theorem timeCapture_copies {s : State} (hon : s.on iTIME = true) : yields .timeCapture s fun t =>
    t.f F.TIME_CAP_NS = s.nowNs % 10 ^ 9 ∧ t.f F.TIME_CAP_SEC_LO = s.nowNs / 10 ^ 9 % 2 ^ 32 ∧ t.time = s.time := by
  have hexec : exec .timeCapture s = .next s.capture := by
    show execTimeCapture s = _
    rw [execTimeCapture, if_pos hon]
  refine ⟨_, hexec, ?_, ?_, (State.capture_within s).same_time⟩
  · have hfits : s.nowNs % 10 ^ 9 < 2 ^ 30 := (Nat.mod_lt _ (by decide)).trans (by decide)
    unfold State.capture
    extract_lets ns
    rw [State.f_put_other _ _ (by decide) (by decide), State.f_put _ _ _ _ _ (by decide)]
    exact Nat.mod_eq_of_lt hfits
  · unfold State.capture State.put64
    extract_lets ns
    rw [State.f_put_other _ _ (by decide) (by decide), State.f_put_other _ _ (by decide) (by decide),
      State.f_put_other _ _ (by decide) (by decide), State.f_put _ _ _ _ _ (by decide)]
    rfl

theorem exec_timeRelock {s : State} (hon : s.on iTIME = true) : exec .timeRelock s = .next s.relock := by
  show execTimeRelock s = _
  rw [execTimeRelock, if_pos hon]

/-- RELOCK leaves a node that is not the bellwether waiting for a source, in ACQUIRE. -/
theorem State.relock_other {s : State} (hbw : s.isBw = false) : s.relock = s.lockReset := by
  rw [State.relock, State.bwRelock, State.lockReset_isBw, hbw, Bool.false_and, if_neg Bool.false_ne_true]

/-- In MODE 0 a bellwether steps again at RELOCK. -/
theorem State.relock_bw {s : State} (hbw : s.isBw = true) (hmode : s.f F.TIME_CFG_MODE = 0) : s.relock = s.lockReset.electStep := by
  rw [State.relock, State.bwRelock, State.lockReset_isBw, State.lockReset_mode, hbw, hmode, Bool.true_and,
    beq_self_eq_true, if_pos rfl]

theorem timeRelock_bw {s : State} (hon : s.on iTIME = true) (hbw : s.isBw = true) (hmode : s.f F.TIME_CFG_MODE = 0) :
    yields .timeRelock s fun t => t.time.needStep = false ∧ t.time.tgen = (s.time.tgen + 1) % 256 ∧ t.b F.TIME_EVENT_STEPPED = true := by
  obtain ⟨-, hneed, htgen, hevent⟩ := State.electStep_steps (s := s.lockReset) (.inl (s.lockReset_mode.trans hmode))
  rw [State.lockReset_time] at htgen
  exact ⟨_, exec_timeRelock hon, State.relock_bw hbw hmode ▸ ⟨hneed, htgen, hevent⟩⟩

theorem timeRelock_other {s : State} (hon : s.on iTIME = true) (hbw : s.isBw = false) : yields .timeRelock s fun t =>
    t.time.needStep = true ∧ t.time.refOk = false ∧ t.f F.TIME_STATUS_STATE = tsAcquire ∧ t.time.pd.all (fun p => !p.valid) = true := by
  refine ⟨_, exec_timeRelock hon, ?_⟩
  simp only [State.relock_other hbw, State.lockReset_time]
  refine ⟨trivial, trivial, State.lockReset_state s, ?_⟩
  simp only [List.all_map, Function.comp_def, Bool.not_false, List.all_eq_true, implies_true]

/-- CLEAR zeroes the counters of the block. -/
theorem timeClear_zeroes {s : State} (hon : s.on iTIME = true) : yields .timeClear s fun t => t.f F.TIME_CELL_LOST = 0 ∧
    t.f F.TIME_PD_TIMEOUT = 0 ∧ t.f F.TIME_PPS_REJECT = 0 ∧ t.f F.TIME_HELD = 0 := by
  have hexec : exec .timeClear s = .next s.timeClear := by
    show execTimeClear s = _
    rw [execTimeClear, if_pos hon]
  refine ⟨_, hexec, ?_, ?_, ?_, ?_⟩
  · rw [State.timeClear, State.f_put_other _ _ (by decide) (by decide), State.f_put_other _ _ (by decide) (by decide),
      State.f_put_other _ _ (by decide) (by decide), State.f_put _ _ _ _ _ (by decide), Nat.zero_mod]
  · rw [State.timeClear, State.f_put_other _ _ (by decide) (by decide), State.f_put_other _ _ (by decide) (by decide),
      State.f_put _ _ _ _ _ (by decide), Nat.zero_mod]
  · rw [State.timeClear, State.f_put_other _ _ (by decide) (by decide), State.f_put _ _ _ _ _ (by decide), Nat.zero_mod]
  · rw [State.timeClear, State.f_put _ _ _ _ _ (by decide), Nat.zero_mod]

/-- A write of the _HI half of TIME_SET, with both halves applied. -/
def State.withTimeSet (s : State) (v : Nat) : State :=
  (s.put F.TIME_SET_SEC_HI v).onTime fun t =>
    { t with ppsSecs := 0, setSec := (s.put F.TIME_SET_SEC_HI v).f64 F.TIME_SET_SEC_LO F.TIME_SET_SEC_HI }

theorem State.withTimeSet_timeSet (s : State) (v : Nat) :
    (s.withTimeSet v).timeSet = secU (s.f F.TIME_SET_SEC_LO + 2 ^ 32 * (v % 2 ^ F.TIME_SET_SEC_HI.w)) := by
  show secU ((s.put F.TIME_SET_SEC_HI v).f F.TIME_SET_SEC_LO + 2 ^ 32 * (s.put F.TIME_SET_SEC_HI v).f F.TIME_SET_SEC_HI) = _
  rw [State.f_put_other _ _ (by decide) (by decide), State.f_put _ _ _ _ _ (by decide)]

/-- While START is clear a write of TIME_SET steps the bellwether. -/
theorem State.writeTimeSet_bw {s : State} (v : Nat) (hbw : s.isBw = true) (hstart : s.ring.start = false) :
    s.writeTimeSet v = (s.withTimeSet v).electStep := by
  have hkept : (s.withTimeSet v).isBw = true := by
    rw [← hbw]
    exact State.isBw_congr ((State.onTime_reg ..).trans (State.reg_put_ne _ _ _ _ _ _ (by decide)))
      ((State.onTime_reg ..).trans (State.reg_put_ne _ _ _ _ _ _ (by decide)))
  have hwrite : s.writeTimeSet v = if (s.isBw && s.ring.start) = true then s
      else if (s.withTimeSet v).isBw = true then (s.withTimeSet v).electStep else s.withTimeSet v := rfl
  rw [hwrite, hstart, Bool.and_false, if_neg Bool.false_ne_true, if_pos hkept]

theorem timeSetWrite_bw {s : State} (v : Nat) (hon : s.on iTIME = true) (hbw : s.isBw = true) (hstart : s.ring.start = false)
    (href : s.f F.TIME_CFG_MODE = 0 ∨ s.time.refOk = false) : yields (.timeSetWrite v) s fun t =>
      t.time.clock = secU (s.f F.TIME_SET_SEC_LO + 2 ^ 32 * (v % 2 ^ F.TIME_SET_SEC_HI.w)) ∧ t.time.needStep = false ∧
        t.b F.TIME_EVENT_STEPPED = true := by
  have hexec : exec (.timeSetWrite v) s = .next (s.writeTimeSet v) := by
    show execTimeSetWrite v s = _
    rw [execTimeSetWrite, if_pos hon]
  have hmode : (s.withTimeSet v).f F.TIME_CFG_MODE = s.f F.TIME_CFG_MODE :=
    (State.onTime_f ..).trans (s.f_put_other v (by decide) (by decide))
  have hok : (s.withTimeSet v).time.refOk = s.time.refOk := by rw [State.withTimeSet, State.onTime_time, State.put_time]
  obtain ⟨hclock, hneed, -, hevent⟩ := State.electStep_steps (s := s.withTimeSet v) (href.imp hmode.trans hok.trans)
  rw [State.withTimeSet_timeSet] at hclock
  rw [State.writeTimeSet_bw v hbw hstart] at hexec
  exact ⟨_, hexec, hclock, hneed, hevent⟩

/-! ### PPS_IN (R172, R175) -/

/-- An edge more than 10 µs from its predicted instant is rejected and counted. -/
theorem ppsEdge_rejected {s : State} {rising : Bool} {l n : Nat} (hon : s.on iTIME = true) (hhead : s.isHead = true)
    (hmode : s.f F.TIME_CFG_MODE = 1) (hedge : rising = !(s.b F.TIME_CFG_PPS_EDGE)) (hlast : s.time.ppsLast = some l)
    (hok : s.time.refOk = true) (hn : n = max 1 ((s.time.clock - l + msU 500) / secU 1))
    (hout : s.time.clock - l + usU 10 < secU n ∨ secU n + usU 10 < s.time.clock - l) :
    exec (.ppsEdge rising) s = .next (s.inc F.TIME_PPS_REJECT) := by
  subst hn
  show execPpsEdge rising s = _
  simp only [execPpsEdge, hon, hhead, hmode, hedge, hlast, hok, Bool.or_eq_true, decide_eq_true_eq, hout, beq_self_eq_true,
    Bool.and_self, Bool.not_true, Bool.false_eq_true, if_false, if_true]

/-- An edge of PPS_IN in its place is heard, `n` seconds after the last one. -/
def State.goodEdge (s : State) (n : Nat) : State :=
  (s.onTime fun t => { t with ppsLast := some s.time.clock, ppsSecs := t.ppsSecs + n }).onTime fun t => { t with ppsGood := t.ppsGood + 1 }

theorem State.goodEdge_time (s : State) (n : Nat) : (s.goodEdge n).time =
    { s.time with ppsLast := some s.time.clock, ppsSecs := s.time.ppsSecs + n, ppsGood := s.time.ppsGood + 1 } := rfl

theorem State.goodEdge_isBw (s : State) (n : Nat) : (s.goodEdge n).isBw = s.isBw := rfl

/-- The reference of a head that is not the bellwether qualifies, and no clock follows it. -/
theorem State.qualify_other {s : State} {target : Nat} (hbw : s.isBw = false) :
    s.qualify target = s.onTime fun t => { t with refOk := true } := by
  have hother : (s.onTime fun t => { t with refOk := true }).isBw = false := hbw
  rw [State.qualify, hother, Bool.not_false, if_pos rfl]

/-- An interval of 1 s ± 250 µs after two others qualifies the reference. -/
theorem ppsEdge_third {s : State} {rising : Bool} {l : Nat} (hon : s.on iTIME = true) (hhead : s.isHead = true)
    (hmode : s.f F.TIME_CFG_MODE = 1) (hedge : rising = !(s.b F.TIME_CFG_PPS_EDGE)) (hlast : s.time.ppsLast = some l)
    (hok : s.time.refOk = false) (hgood : s.time.ppsGood = 2) (hbw : s.isBw = false) (hlow : secU 1 ≤ s.time.clock - l + usU 250)
    (hhigh : s.time.clock - l ≤ secU 1 + usU 250) : yields (.ppsEdge rising) s fun t =>
      t.time.refOk = true ∧ t.time.ppsGood = 3 ∧ t.time.ppsLast = some s.time.clock := by
  have hexec : exec (.ppsEdge rising) s = .next ((s.goodEdge (max 1 ((s.time.clock - l + msU 500) / secU 1))).qualify
      (s.timeSet + secU (s.time.ppsSecs + max 1 ((s.time.clock - l + msU 500) / secU 1)))) := by
    show execPpsEdge rising s = _
    simp only [execPpsEdge, hon, hhead, hmode, hedge, hlast, hok, hlow, hhigh, hgood, State.onTime_time, decide_true, beq_self_eq_true,
      Bool.and_self, Bool.not_true, Bool.false_eq_true, Nat.reduceAdd, if_false, if_true]
    rfl
  rw [State.qualify_other ((s.goodEdge_isBw _).trans hbw)] at hexec
  refine ⟨_, hexec, ?_⟩
  simp only [State.onTime_time, State.goodEdge_time]
  exact ⟨trivial, congrArg (· + 1) hgood, trivial⟩

/-- Without its reference a bellwether that waits for no step holds over. -/
theorem State.refLost_bw {s : State} (h : (s.isBw && !s.time.needStep) = true) : s.refLost =
    (((s.onTime fun t => { t with refOk := false, ppsGood := 0, ppsLast := none }).put F.TIME_STATUS_SOURCE 0).holdover).timeEvent
      F.TIME_EVENT_REF_LOST := if_pos h

theorem State.refLost_other {s : State} (h : ¬(s.isBw && !s.time.needStep) = true) : s.refLost =
    s.onTime fun t => { t with refOk := false, ppsGood := 0, ppsLast := none } := if_neg h

theorem State.refLost_time (s : State) : ∃ l, s.refLost.time = { s.time with refOk := false, ppsGood := 0, ppsLast := none, rates := l } := by
  by_cases h : (s.isBw && !s.time.needStep) = true
  · obtain ⟨l, hl⟩ := State.holdover_time ((s.onTime fun t => { t with refOk := false, ppsGood := 0, ppsLast := none }).put
      F.TIME_STATUS_SOURCE 0)
    rw [State.put_time, State.onTime_time] at hl
    rw [State.refLost_bw h, State.timeEvent_time, hl]
    exact ⟨_, rfl⟩
  · rw [State.refLost_other h, State.onTime_time]
    exact ⟨_, rfl⟩

theorem State.refLost_event {s : State} (hbw : s.isBw = true) (hneed : s.time.needStep = false) :
    s.refLost.f F.TIME_STATUS_SOURCE = 0 ∧ s.refLost.b F.TIME_EVENT_REF_LOST = true := by
  rw [State.refLost_bw (by rw [hbw, hneed]; rfl)]
  constructor
  · rw [State.f_timeEvent_other _ (by decide) (by decide) (by decide), State.holdover_source, State.f_put _ _ _ _ _ (by decide),
      Nat.zero_mod]
  · exact State.b_timeEvent_same _ (by decide) rfl (by decide)

theorem exec_ppsTimeout_due {s : State} {l : Nat} (hon : s.on iTIME = true) (hhead : s.isHead = true) (hmode : s.f F.TIME_CFG_MODE = 1)
    (hok : s.time.refOk = true) (hlast : s.time.ppsLast = some l) (hover : l + msU 2500 < s.time.clock) :
    exec .ppsTimeout s = .next s.refLost := by
  show execPpsTimeout s = _
  have hlate : (s.time.ppsLast.all fun l => decide (l + msU 2500 < s.time.clock)) = true := by
    rw [hlast, Option.all_some, decide_eq_true hover]
  rw [execPpsTimeout, hlate, hon, hhead, hmode, hok, beq_self_eq_true, Bool.and_self, Bool.and_self, Bool.and_self, Bool.and_self,
    if_pos rfl]

/-! ### Alarm timers (R188) -/

theorem State.alarm_onAlarm_same (s : State) {a : Nat} (f : Alarm → Alarm) (h : a < s.time.alarms.length) :
    (s.onAlarm a f).alarm a = f (s.alarm a) := nth_modAt_same _ _ _ _ h

@[simp] theorem State.onAlarm_reg (s : State) (a : Nat) (f : Alarm → Alarm) (x : Nat) : (s.onAlarm a f).reg x = s.reg x := rfl
@[simp] theorem State.onAlarm_clock (s : State) (a : Nat) (f : Alarm → Alarm) : (s.onAlarm a f).time.clock = s.time.clock := rfl

/-- The pins show an alarm and do not change it. -/
theorem State.alarmPins_reg (s : State) (a x : Nat) : (s.alarmPins a).reg x = s.reg x := by
  rw [State.reg, (State.alarmPins_within ..).same_regs, State.reg]

theorem State.alarmPins_time (s : State) (a : Nat) : (s.alarmPins a).time = s.time := (State.alarmPins_within ..).same_time

theorem State.alarmPins_alarm (s : State) (a b : Nat) : (s.alarmPins a).alarm b = s.alarm b := by
  rw [State.alarm, State.alarmPins_time, State.alarm]

/-- A firing sets FIRED and, under TARGET, interrupt causes; it writes no register else. -/
theorem State.fireAlarm_reg (s : State) (a : Nat) {x : Nat} (h : x % 0x1000 ≠ 0x38) :
    (s.fireAlarm a).reg x = (s.flag F.TIME_ALARMa_CTL_FIRED true a).reg x := by
  unfold State.fireAlarm
  extract_lets tgt fired armed caused w pulse
  have hcaused : caused.reg x = fired.reg x := by
    unfold caused armed
    split
    · rw [State.irqAll_time_reg _ h, State.onAlarm_reg]
    · rw [State.onAlarm_reg]
  clear_value caused
  split
  · rw [State.alarmPins_reg, State.onAlarm_reg, hcaused]
  · rw [hcaused]

/-- A firing takes no time. -/
theorem State.fireAlarm_clock (s : State) (a : Nat) : (s.fireAlarm a).time.clock = s.time.clock := by
  unfold State.fireAlarm
  extract_lets tgt fired armed caused w pulse
  have hcaused : caused.time.clock = s.time.clock := by
    unfold caused armed fired
    split
    · rw [State.irqAll_time, State.onAlarm_clock, State.flag_time]
    · rw [State.onAlarm_clock, State.flag_time]
  clear_value caused
  split
  · rw [State.alarmPins_time, State.onAlarm_clock, hcaused]
  · rw [hcaused]

theorem State.fireAlarm_fired (s : State) (a : Fin 32) : (s.fireAlarm a).b F.TIME_ALARMa_CTL_FIRED a = true := by
  have hpage : F.TIME_ALARMa_CTL_FIRED.addr a 0 % 0x1000 ≠ 0x38 := by simp only [Fld.addr, F.TIME_ALARMa_CTL_FIRED]; omega
  rw [State.b, State.f_congr (s.fireAlarm_reg a hpage)]
  exact State.b_flag _ _ _ _ _ (by decide) rfl

theorem State.fireAlarm_late (s : State) (a : Fin 32) :
    (s.fireAlarm a).b F.TIME_ALARMa_CTL_LATE a = s.b F.TIME_ALARMa_CTL_LATE a := by
  have hpage : F.TIME_ALARMa_CTL_LATE.addr a 0 % 0x1000 ≠ 0x38 := by simp only [Fld.addr, F.TIME_ALARMa_CTL_LATE]; omega
  rw [State.b, State.f_congr (s.fireAlarm_reg a hpage)]
  exact State.b_flag_other _ _ (by decide) (.inr (by decide))

/-- An alarm whose ENABLE has been written: armed from now on. -/
def State.armedNow (s : State) (a : Nat) : State :=
  (s.flag F.TIME_ALARMa_CTL_ENABLE true a).onAlarm a fun x => { x with armed := true, fired := false, since := s.time.clock }

theorem State.armedNow_clock (s : State) (a : Nat) : (s.armedNow a).time.clock = s.time.clock := by
  rw [State.armedNow, State.onAlarm_clock, State.flag_time]

theorem State.armedNow_alarm {s : State} {a : Nat} (h : a < s.time.alarms.length) : ((s.armedNow a).alarm a).armed = true := by
  rw [State.armedNow, State.alarm_onAlarm_same _ _ (by rwa [State.flag_time])]

/-- Arming sets ENABLE in the control register and nothing else. -/
theorem State.armedNow_reg (s : State) (a x : Nat) : (s.armedNow a).reg x = (s.flag F.TIME_ALARMa_CTL_ENABLE true a).reg x :=
  State.onAlarm_reg ..

theorem State.armedNow_enable (s : State) (a : Nat) : (s.armedNow a).b F.TIME_ALARMa_CTL_ENABLE a = true := by
  rw [State.b, State.f_congr (s.armedNow_reg a _)]
  exact State.b_flag _ _ _ _ _ (by decide) rfl

theorem State.armedNow_fired (s : State) (a : Nat) : (s.armedNow a).b F.TIME_ALARMa_CTL_FIRED a = s.b F.TIME_ALARMa_CTL_FIRED a := by
  rw [State.b, State.f_congr (s.armedNow_reg a _)]
  exact State.b_flag_other _ _ (by decide) (.inr (by decide))

theorem State.armedNow_mode (s : State) (a : Nat) : (s.armedNow a).f F.TIME_ALARMa_CTL_MODE a = s.f F.TIME_ALARMa_CTL_MODE a :=
  (State.f_congr (s.armedNow_reg a _)).trans (State.f_flag_other _ _ (by decide) (.inr (by decide)))

/-- The target of an alarm is not in its control register. -/
theorem State.armedNow_target (s : State) (a : Fin 32) : (s.armedNow a).alarmTarget a = s.alarmTarget a := by
  have hsec : (s.armedNow a).f F.TIME_ALARMa_SEC a = s.f F.TIME_ALARMa_SEC a :=
    (State.f_congr (s.armedNow_reg a _)).trans (State.f_flag_other _ _ (by decide)
      (.inl (by simp only [Fld.addr, F.TIME_ALARMa_SEC, F.TIME_ALARMa_CTL_ENABLE]; omega)))
  have hoff : (s.armedNow a).f F.TIME_ALARMa_OFFSET a = s.f F.TIME_ALARMa_OFFSET a :=
    (State.f_congr (s.armedNow_reg a _)).trans (State.f_flag_other _ _ (by decide)
      (.inl (by simp only [Fld.addr, F.TIME_ALARMa_OFFSET, F.TIME_ALARMa_CTL_ENABLE]; omega)))
  rw [State.alarmTarget, hsec, hoff, State.nowNs, State.armedNow_clock, State.alarmTarget, State.nowNs]

theorem exec_alarmArm {s : State} (a : Fin 32) (hon : s.on iTIME = true) :
    exec (.alarmArm a) s = .next ((s.flag F.TIME_ALARMa_CTL_ENABLE true a).armAlarm a) := by
  show execAlarmArm a s = _
  rw [execAlarmArm, if_pos hon]

/-- Of an alarm whose ENABLE is set a target in the past fires at once, late; another one is waited for. -/
theorem State.armAlarm_mode0 {s : State} {a : Fin 32} (hmode : s.f F.TIME_ALARMa_CTL_MODE a = 0) :
    (s.flag F.TIME_ALARMa_CTL_ENABLE true a).armAlarm a = if s.alarmTarget a < s.time.clock then
      ((s.armedNow a).flag F.TIME_ALARMa_CTL_LATE true a).fireAlarm a else s.armedNow a := by
  have henable : (s.flag F.TIME_ALARMa_CTL_ENABLE true a).b F.TIME_ALARMa_CTL_ENABLE a = true := State.b_flag _ _ _ _ _ (by decide) rfl
  have harm : (s.flag F.TIME_ALARMa_CTL_ENABLE true a).armAlarm a =
      if (s.armedNow a).f F.TIME_ALARMa_CTL_MODE a == 0 && decide ((s.armedNow a).alarmTarget a < (s.armedNow a).time.clock) then
        ((s.armedNow a).flag F.TIME_ALARMa_CTL_LATE true a).fireAlarm a else s.armedNow a :=
    if_neg (by rw [henable]; exact Bool.false_ne_true)
  simp only [harm, State.armedNow_mode, hmode, State.armedNow_target, State.armedNow_clock, beq_self_eq_true, Bool.true_and,
    decide_eq_true_eq]

/-- An alarm in MODE 0 whose target has not passed waits for it. -/
theorem alarmArm_waits {s : State} {a : Fin 32} (hon : s.on iTIME = true) (hmode : s.f F.TIME_ALARMa_CTL_MODE a = 0)
    (hlen : s.time.alarms.length = 32) (hcome : s.time.clock ≤ s.alarmTarget a) : yields (.alarmArm a) s fun t =>
      (t.alarm a).armed = true ∧ t.b F.TIME_ALARMa_CTL_ENABLE a = true ∧ t.b F.TIME_ALARMa_CTL_FIRED a = s.b F.TIME_ALARMa_CTL_FIRED a := by
  have hexec := exec_alarmArm a hon
  rw [State.armAlarm_mode0 hmode, if_neg (Nat.not_lt.mpr hcome)] at hexec
  exact ⟨_, hexec, State.armedNow_alarm (a.isLt.trans_eq hlen.symm), s.armedNow_enable a, s.armedNow_fired a⟩

/-- One whose target has passed fires at once, late. -/
theorem alarmArm_late {s : State} {a : Fin 32} (hon : s.on iTIME = true) (hmode : s.f F.TIME_ALARMa_CTL_MODE a = 0)
    (hpast : s.alarmTarget a < s.time.clock) : yields (.alarmArm a) s fun t =>
      t.b F.TIME_ALARMa_CTL_LATE a = true ∧ t.b F.TIME_ALARMa_CTL_FIRED a = true := by
  have hexec := exec_alarmArm a hon
  rw [State.armAlarm_mode0 hmode, if_pos hpast] at hexec
  refine ⟨_, hexec, ?_, State.fireAlarm_fired _ a⟩
  rw [State.fireAlarm_late]
  exact State.b_flag _ _ _ _ _ (by decide) rfl

/-- An instant that has come since the alarm was armed is due. -/
theorem State.alarmDue_of_instant {s : State} {a : Nat} {x : Int} (harmed : (s.alarm a).armed = true) (hx : s.alarmInstant a = some x)
    (hsince : ((s.alarm a).since : Int) < x) : s.alarmDue a = true := by
  rw [State.alarmDue, harmed, hx, Option.any_some, decide_eq_true hsince, Bool.or_true, Bool.and_self]

theorem exec_alarmFire_due {s : State} {a : Fin 32} (hon : s.on iTIME = true) (hdue : s.alarmDue a = true) :
    exec (.alarmFire a) s = .next (s.fireAlarm a) := by
  show execAlarmFire a s = _
  rw [execAlarmFire, hon, hdue, Bool.and_self, if_pos rfl]

theorem exec_alarmFire_not_due {s : State} {a : Fin 32} (hdue : s.alarmDue a = false) : exec (.alarmFire a) s = .next s := by
  show execAlarmFire a s = _
  rw [execAlarmFire, hdue, Bool.and_false, if_neg Bool.false_ne_true]

theorem exec_alarmPulseEnd {s : State} {a : Fin 32} {e : Nat} (hpulse : (s.alarm a).pulseEnd = some e) : exec (.alarmPulseEnd a) s =
    .next (if s.time.clock < e then s else (s.onAlarm a fun x => { x with pulseEnd := none }).alarmPins a) := by
  show execAlarmPulseEnd a s = _
  rw [execAlarmPulseEnd, hpulse]

/-- A pulse whose width has passed ends. -/
theorem alarmPulseEnd_ends {s : State} {a : Fin 32} {e : Nat} (hlen : s.time.alarms.length = 32)
    (hpulse : (s.alarm a).pulseEnd = some e) (hover : e ≤ s.time.clock) :
    yields (.alarmPulseEnd a) s fun t => (t.alarm a).pulseEnd = none ∧ t.regs = s.regs := by
  refine ⟨_, exec_alarmPulseEnd hpulse, ?_⟩
  have hlt : (a : Nat) < s.time.alarms.length := a.isLt.trans_eq hlen.symm
  rw [if_neg (Nat.not_lt.mpr hover)]
  constructor
  · rw [State.alarmPins_alarm, State.alarm_onAlarm_same _ _ hlt]
  · rw [(State.alarmPins_within ..).same_regs, (State.onAlarm_within ..).same_regs]

/-- Settles O20: each clause is what the command's operation leaves, by the lemmas above. -/
theorem clockCommandsAct : Obligations.ClockCommandsAct := by
  unfold Obligations.ClockCommandsAct
  refine ⟨fun s => timeCapture_copies, fun s => timeRelock_other, fun s => timeRelock_bw, fun s => timeClear_zeroes,
    fun s value => timeSetWrite_bw value, fun s rising l n hon hhead hmode hedge hlast hok hn hout => ?_, fun s rising l => ppsEdge_third,
    fun s l hon hhead hmode hok hlast hover => ?_, fun s a hon hmode hlen => alarmArm_waits hon hmode hlen,
    fun s a hon hmode _ => alarmArm_late hon hmode, fun s a x hon harmed hx hsince => ?_, fun s a e => alarmPulseEnd_ends,
    fun s a _ hdue => ⟨s, exec_alarmFire_not_due hdue, rfl⟩, fun s a e hpulse hrest => ⟨_, exec_alarmPulseEnd hpulse, if_pos hrest⟩⟩
  · exact ⟨_, ppsEdge_rejected hon hhead hmode hedge hlast hok hn hout, State.f_add _ _ _ _ _ (by decide),
      (State.inc_within ..).same_time⟩
  · obtain ⟨l, htime⟩ := s.refLost_time
    refine ⟨_, exec_ppsTimeout_due hon hhead hmode hok hlast hover, ?_⟩
    simp only [htime, true_and]
    exact State.refLost_event
  · exact ⟨_, exec_alarmFire_due hon (State.alarmDue_of_instant harmed hx hsince), s.fireAlarm_fired a, s.fireAlarm_clock a⟩

/-! ### The instant of a frame latch (R10, R237, R258) -/

/-- A tile at the very instant of the latch of frame 60 (COMP_LEAD of 800 µs before 1 s, at 60 Hz); it has latched frame 59. -/
def atLatchTile : State :=
  (Tests.upTile.onTime fun x => { x with stepped := true, clock := secU 1 - usU 800 }).onComp fun c => { c with latched := some 59 }

/-- Refutes O12: its clause on FRAME_LATCH has the latch take the frame whose instant F_n the clock has reached, without the premise that
the clock is past it. What comes at F_n itself still takes effect in frame n (R237: τ ≤ F_n), so a latch at that instant is still the one
before, here of the frame latched already. -/
theorem not_frameInstantsAct : ¬ Obligations.FrameInstantsAct := by
  unfold Obligations.FrameInstantsAct
  rintro ⟨-, -, -, -, -, -, -, hlatch, -⟩
  obtain ⟨t, hnext, hlatched, -⟩ := hlatch atLatchTile [] (by decide +kernel) (by decide +kernel) rfl (by decide +kernel) rfl
  have hreached : atLatchTile.timing.countAt (atLatchTile.time.clock + usU (atLatchTile.f F.COMP_LEAD)) = 60 := by decide +kernel
  have hkept : (outcomeState (exec (.frameLatch []) atLatchTile) atLatchTile).comp.latched = some 59 := by decide +kernel
  rw [hnext, outcomeState, hlatched, hreached] at hkept
  exact absurd hkept (by decide)

/-! ### A port whose ring the maps name differently (R129) -/

/-- A port that R129 bars sends no PDREQ. -/
theorem exec_pdelayTimer_barred {s : State} {port : Fin 7} (hbarred : s.barred port = true) :
    exec (.pdelayTimer port) s = .next s := by
  simp only [exec, execPdelayTimer, hbarred, Bool.not_true, Bool.and_false, Bool.false_eq_true, if_false]

/-- A head whose port 1 is UP; an ENUM there named ring 2, which the map does not give the port. -/
def mismappedHead : State :=
  (Tests.upHead.put F.PORTn_STATUS_STATE psUp 1).onRing fun r => { r with mismap := [(1, 2)] }

/-- Refutes O21: its clause on PDELAY_TIMER has every port that carries link messages send a PDREQ and count it, without the premise that
R129 does not bar the port. A head sends nothing on a port whose ring an ENUM named differently from its map, until the maps agree. -/
theorem not_timeDistributionActs : ¬ Obligations.TimeDistributionActs := by
  unfold Obligations.TimeDistributionActs
  rintro ⟨hpdreq, -⟩
  obtain ⟨t, hnext, hcounted, -⟩ := hpdreq mismappedHead 1 (by decide +kernel) (by decide +kernel) (by decide +kernel)
  rw [exec_pdelayTimer_barred (by decide +kernel), Host.Outcome.next.injEq] at hnext
  have hnone : (mismappedHead.pdp (1 : Fin 7)).seq = 0 := by decide +kernel
  rw [← hnext, hnone] at hcounted
  exact absurd hcounted (by decide)

end Sys2Proof.Machine
end

section
/-! PROOFS. Flocks and local transactions (spec/06_flocks.md): what their commands leave unchanged, INGEST_ADMIT among the staged
writes of a tile, a ticket while MEM is in reset, and a TXEND that waits for a pipeline result. -/
namespace Sys2Proof.Machine

/-! ### Frames of the flock commands -/

/-- Settles O44: each command of the chapter is within its list by the lemma of Laws/WithinFlocks.lean, WithinSwap.lean or
WithinTileLatch.lean about its meaning. -/
theorem flockFrames : Obligations.FlockFrames := by
  unfold Obligations.FlockFrames
  simp only [List.forall_mem_cons, List.not_mem_nil, false_implies, implies_true, and_true]
  refine ⟨fun flock bad payload commitMsgBad => ⟨?_, ?_, ?_, ?_, ?_, ?_, ?_⟩, fun payload => ?_, fun part => ?_, ?_,
    fun bad ctx => ⟨?_, ?_⟩, ?_, fun payload => ?_, fun payload => ?_, fun payload bad => ?_, fun flock => ⟨?_, ?_⟩,
    fun payload bad => ?_, fun ctx => ?_, fun bad => ?_, ?_, fun payload tally => ⟨?_, ?_⟩, ⟨?_, ?_⟩⟩
  · exact changesOnly_of_within (fun _ => rfl) (execTakeoverDecide_within flock)
  · exact changesOnly_of_within (fun _ => rfl) (execFlockOpenTimeout_within flock)
  · exact changesOnly_of_within (fun _ => rfl) (execVoteDeadline_within flock bad)
  · exact changesOnly_of_within (fun _ => rfl) (execVote_within payload)
  · exact changesOnly_of_within (fun _ => rfl) (execVoteGraceExpire_within flock)
  · exact changesOnly_of_within (fun _ => rfl) (execVoteSend_within flock bad)
  · exact changesOnly_of_within (fun _ => rfl) (execCommitMsg_within payload commitMsgBad)
  · exact changesOnly_of_within (fun _ => rfl) (execAck_within payload)
  · exact changesOnly_of_within (fun _ => rfl) (execResyncCopyRx_within part)
  · exact changesOnly_of_within (fun _ => rfl) execHandback_within
  · exact changesOnly_of_within (fun _ => rfl) (execSwapInstant_within bad)
  · exact changesOnly_of_within (fun _ => rfl) (execTxBoundaryApply_within ctx)
  · exact changesOnly_of_within (fun _ => rfl) execSlotStart_within
  · exact changesOnly_of_within (fun _ => rfl) (execFlockOpenRx_within payload)
  · exact changesOnly_of_within (fun _ => rfl) (execStagedWriteRx_within payload)
  · exact changesOnly_of_within (fun _ => rfl) (execCallMsg_within payload bad)
  · exact changesOnly_of_within (fun _ => rfl) (execFlockGuardDeadline_within flock)
  · exact changesOnly_of_within (fun _ => rfl) (execFlockRecordExpire_within flock)
  · exact changesOnly_of_within (fun _ => rfl) (execAbortMsg_within payload bad)
  · exact changesOnly_of_within (fun _ => rfl) (execTxOpenTimeout_within ctx)
  · exact changesOnly_of_within (fun _ => rfl) (execFrameLatch_within bad)
  · exact changesOnly_of_within (fun _ => rfl) execSlotLatch_within
  · exact changesOnly_of_within (fun _ => rfl) (execHurdle_within payload tally)
  · exact changesOnly_of_within (fun _ => rfl) (execPose_within payload tally)
  · exact changesOnly_of_within (fun _ => rfl) execHurdleRepeatTimer_within
  · exact changesOnly_of_within (fun _ => rfl) execPoseRepeatTimer_within

/-! ### INGEST_ADMIT on stream 19 (R76, R202) -/

/-- After an update that keeps its ID, the record of an ID is the updated one. -/
theorem State.flock_onFlock_same (s : State) (id : Nat) {g : Flock → Flock} (hid : ∀ f : Flock, (g f).id = f.id) :
    (s.onFlock id g).flock id = (s.flock id).map g := by
  rw [State.onFlock, State.flock, State.onFlocks_flocks, List.find?_map, State.flock]
  have hkey : ((fun f : Flock => f.id == id && f.id != 0) ∘ fun f => if f.id == id && id != 0 then g f else f) =
      fun f => f.id == id && f.id != 0 := by
    funext f
    simp only [Function.comp_apply]
    split
    · rw [hid]
    · rfl
  rw [hkey]
  refine Option.map_congr fun f hf => if_pos ?_
  obtain ⟨hsame, hused⟩ : f.id = id ∧ f.id ≠ 0 := by simpa using List.find?_some hf
  simp [hsame, hsame ▸ hused]

/-- A stream-19 message of kind 2 is an INGEST_ADMIT, not a staged write. -/
theorem exec_stagedWriteRx_admit {s : State} {payload : Bytes} (hpwr : s.pwr.up = true) (hon : s.on iLINK = true)
    (hkind : le payload 0 1 = 2) :
    exec (.stagedWriteRx payload) s = .next (s.rxAdmit (le payload 2 2) (le payload 4 4)) := by
  show execStagedWriteRx payload s = _
  rw [execStagedWriteRx, hpwr, hon, Bool.and_self, if_pos rfl]
  simp only [State.rxStaged, hkind, beq_self_eq_true, if_true]

/-- A tile keeps the INGEST_ADMIT of a flock that is still to apply with the flock's record, of which nothing else changes. -/
theorem State.rxAdmit_flock {s : State} {id : Nat} {f : Flock} (mb : Nat) (htile : s.isTile = true)
    (hflock : s.flock id = some f) (hst : f.st ≠ 8) : (s.rxAdmit id mb).flock id = some { f with admitMb := some mb } := by
  have hkeep : s.rxAdmit id mb = s.onFlock id fun f => { f with admitMb := some mb } := by
    rw [State.rxAdmit, htile, hflock, Bool.not_true, if_neg Bool.false_ne_true, if_pos (bne_iff_ne.mpr hst)]
  rw [hkeep, State.flock_onFlock_same, hflock, Option.map_some]
  exact fun _ => rfl

/-- A tile that holds flock 7 in STAGING. -/
def stagingTile : State := { Tests.upTile with flocks := [{ id := 7 }] }

/-- INGEST_ADMIT of flock 7 for every tile, followed by the bytes of a REG_WRITE for every tile. -/
def admitForAll : Bytes := mkMsg 8 [(0, 1, 2), (2, 2, 7), (4, 4, 1000)] ++ Tests.ent 1 [(4, 2, 0xFFFF)]

/-- Refutes O9: its clause on STAGED_WRITE_RX has every stream-19 message for a tile counted as a staged write, without the premise that the
message is one. A message of kind 2 is INGEST_ADMIT (R76): the tile keeps its value with the flock and counts no staged write. -/
theorem not_flockMembersAct : ¬ Obligations.FlockMembersAct := by
  unfold Obligations.FlockMembersAct
  rintro ⟨-, hstaged, -⟩
  have hflock : stagingTile.flock 7 = some { id := 7 } := by decide +kernel
  obtain ⟨t, hnext, hcounted⟩ := hstaged stagingTile admitForAll 7 _ (by decide +kernel) (by decide +kernel) (by decide +kernel)
    (by decide +kernel) (by decide +kernel) hflock rfl
  have hid : le admitForAll 2 2 = 7 := by decide +kernel
  rw [exec_stagedWriteRx_admit (by decide +kernel) (by decide +kernel) (by decide +kernel), hid, Host.Outcome.next.injEq] at hnext
  rw [← hnext, State.rxAdmit_flock _ (by decide +kernel) hflock (by decide), Option.any_some] at hcounted
  exact absurd hcounted (by simp)

/-! ### Tickets while MEM is in reset (R222, R583) -/

/-- While MEM is in reset a ticket waits. -/
theorem exec_ticketExecute_memReset {s : State} (ctx : Fin 8) (hreset : s.on iMEM = false) :
    exec (.ticketExecute ctx) s = .next s := by
  show execTicketExecute ctx s = _
  rw [execTicketExecute, hreset, Bool.false_and, Bool.not_false, if_pos rfl]

/-- A bellwether whose next ticket of context 0 is a TXBEGIN, with its MEM island in reset. -/
def memResetHead : State :=
  (Tests.withTicket (Tests.recOf (Tests.ent 0x18 [(24, 1, 1)]) [] 1)).onXing fun x =>
    { x with inReset := modAt x.inReset iMEM fun _ => true }

/-- Refutes O11: its clauses on TICKET_EXECUTE have the next ticket carried out at once, without the premise that MEM is out of reset. While
MEM is in reset host commands wait (R583), so the TXBEGIN here opens no transaction. -/
theorem not_transactionsAct : ¬ Obligations.TransactionsAct := by
  unfold Obligations.TransactionsAct
  rintro ⟨hbegin, -⟩
  obtain ⟨t, hnext, hopened, -⟩ := hbegin memResetHead 0 (Tests.recOf (Tests.ent 0x18 [(24, 1, 1)]) [] 1) (by decide +kernel)
    (by decide +kernel) rfl (by decide +kernel) (by decide +kernel) (by decide +kernel) (by decide +kernel)
  rw [exec_ticketExecute_memReset 0 (by decide +kernel), Host.Outcome.next.injEq] at hnext
  have hclosed : (memResetHead.tx (0 : Fin 8)).opened = false := by decide +kernel
  rw [← hnext, hclosed] at hopened
  exact absurd hopened Bool.false_ne_true

/-! ### A TXEND that waits for a pipeline result (R360, R389) -/

/-- A fold that stands at an instruction with the opcode and can execute it does so. -/
theorem State.korty_of_runsAt {s : State} {n op w : Nat} (h : runsAt s n op w) (act : State → Nat → Nat → State) :
    s.korty n op act = act s w (s.fold n).pc := by
  obtain ⟨⟨-, -, -, -, -, hpwr, hrun, hended, hwait, hword, hpc, hgood⟩, hop, -⟩ := h
  have hready : s.seqReady n op = true := by
    rw [State.seqReady, hpwr, hrun, hended, hwait, hword, hop]
    simp
  rw [State.korty, if_pos hready, if_neg (Nat.not_le.mpr hpc), hword, if_neg (by simpa using hgood)]

/-- A TXEND of BOUNDARY 0 waits while an issued pipeline instruction is still to write one of the transaction's words. -/
theorem exec_kortyTxend_waits {s : State} {fold : Fin 4} {w : Nat} {x : FoldTx} (hruns : runsAt s fold 0x71 w)
    (htx : (s.fold fold).tx = some x) (hboundary : x.boundary = 0) (hresult : s.txResult fold x = 0)
    (hpending : s.wordPending fold (x.stores.map (·.1)) = true) : exec (.kortyTxend fold) s = .next (s.wait fold 2) := by
  show execKortyTxend fold s = _
  rw [execKortyTxend, State.korty_of_runsAt hruns, htx]
  simp only [hresult, hboundary, hpending, beq_self_eq_true, Bool.and_self, if_true]

/-- The transaction of `txendTile`: one store, of scratch word 4. -/
def storeOfWord4 : FoldTx := ⟨0, 0, 0, [(4, 77)], 1⟩

/-- A tile whose fold 3 stands at TXEND with its transaction open, while a CRC that it has issued is still to write its record at
scratch words 4 and 5. -/
def txendTile : State :=
  (Tests.inRunAt Tests.upTile 3 (Tests.kw 0x71 7 0 0 0)).onFold 3 fun f => { f with
    tx := some storeOfWord4, queue := [⟨0x57, ⟨0, 0, 0, 0, 0, 0, false, false, none⟩, some 16, 0, false, 0, 0, 0⟩] }

/-- Refutes O33: its clause on a TXEND of BOUNDARY 0 has the transaction end at once, without the premise that no issued pipeline instruction
is still to write one of its words. The group applies like a sequence of ST instructions (R389), and a store of such a word waits (R360),
so the transaction here stays open. -/
theorem not_foldTransactionsAct : ¬ Obligations.FoldTransactionsAct := by
  unfold Obligations.FoldTransactionsAct
  rintro ⟨-, -, hend, -⟩
  have hruns : runsAt txendTile (3 : Fin 4) 0x71 (Tests.kw 0x71 7 0 0 0) := by decide +kernel
  have htx : (txendTile.fold (3 : Fin 4)).tx = some storeOfWord4 := by decide +kernel
  obtain ⟨t, hnext, hclosed, -⟩ := hend txendTile 3 _ storeOfWord4 hruns htx rfl (by decide) (by decide +kernel) (by decide)
  rw [exec_kortyTxend_waits hruns htx rfl (by decide +kernel) (by decide +kernel), Host.Outcome.next.injEq] at hnext
  have hopen : ((txendTile.wait (3 : Fin 4) 2).fold (3 : Fin 4)).tx = some storeOfWord4 := by decide +kernel
  rw [← hnext, hopen] at hclosed
  exact absurd hclosed (Option.some_ne_none _)

end Sys2Proof.Machine
end

section
/-! PROOFS. Lamp correction and Lamp Bus (spec/08_lamp_correction.md, spec/09_lamp_bus.md): what their commands leave unchanged, how LSYNC,
the frames of a port, SWAP and the push deadline act, and a hold that is complete at S'_4. -/
set_option Elab.async false
namespace Sys2Proof.Machine

/-! ### Frames of the lamp commands -/

/-- Settles O49: each command of the chapters is within its list by the lemma of Laws/WithinLamp.lean or WithinCorrect.lean about its
meaning. -/
theorem lampFrames : Obligations.LampFrames := by
  unfold Obligations.LampFrames
  simp only [List.forall_mem_cons, List.not_mem_nil, false_implies, implies_true, and_true]
  refine ⟨⟨?_, ?_⟩, ?_, fun group mismatch => ⟨?_, ?_⟩, fun port mismatch group => ⟨?_, ?_, ?_⟩, fun port err => ?_,
    fun port codes group => ⟨?_, ?_, ?_, ?_, ?_, ?_⟩, ?_, fun port => ⟨?_, ?_, ?_, ?_⟩, ?_⟩
  · exact changesOnly_of_within (fun _ => rfl) execCorrClear_within
  · exact changesOnly_of_within (fun _ => rfl) execLampClear_within
  · exact changesOnly_of_within (fun _ => rfl) execPushDeadline_within
  · exact changesOnly_of_within (fun _ => rfl) (execLsyncEdge_within group)
  · exact changesOnly_of_within (fun _ => rfl) (execLsyncPulseEnd_within group mismatch)
  · exact changesOnly_of_within (fun _ => rfl) (execLampFrameSent_within port mismatch)
  · exact changesOnly_of_within (fun _ => rfl) (execBlank_within group)
  · exact changesOnly_of_within (fun _ => rfl) (execTimingHoldBlack_within group)
  · exact changesOnly_of_within (fun _ => rfl) (execLineBufferFill_within port err)
  · exact changesOnly_of_within (fun _ => rfl) (execLampFrameStart_within port)
  · exact changesOnly_of_within (fun _ => rfl) (execStatusResp_within port codes)
  · exact changesOnly_of_within (fun _ => rfl) (execStatusReadTimeout_within port)
  · exact changesOnly_of_within (fun _ => rfl) (execDriverProgram_within group)
  · exact changesOnly_of_within (fun _ => rfl) (execTimingHoldResume_within group)
  · exact changesOnly_of_within (fun _ => rfl) execDiagProbe_within
  · exact changesOnly_of_within (fun _ => rfl) execSwap_within
  · exact changesOnly_of_within (fun _ => rfl) execLampRefreshExpire_within
  · exact changesOnly_of_within (fun _ => rfl) execFullRefresh_within
  · exact changesOnly_of_within (fun _ => rfl) execDiagRoundStart_within
  · exact changesOnly_of_within (fun _ => rfl) (execReturnLanePhaseAlign_within port)
  · exact changesOnly_of_within (fun _ => rfl) execDiagReadEnd_within

/-! ### Lists under a function on their elements -/

/-- What a function leaves of each element is left of every element of the list that it is mapped over. -/
theorem nth_map_keeps {α β : Type} (q : α → β) {f : α → α} (hf : ∀ x, q (f x) = q x) (l : List α) (j : Nat) (d : α) :
    q (nth (l.map f) j d) = q (nth l j d) := by
  simp only [nth, List.getD_eq_getElem?_getD, List.getElem?_map]
  cases l[j]? with
  | none => rfl
  | some x => exact hf x

/-! ### Ports and groups -/

@[simp] theorem State.onLPort_length (s : State) (p : Nat) (f : LPort → LPort) :
    (s.onLPort p f).lamp.ports.length = s.lamp.ports.length := modAt_length ..

@[simp] theorem State.onLGroup_length (s : State) (g : Nat) (f : LGroup → LGroup) :
    (s.onLGroup g f).lamp.groups.length = s.lamp.groups.length := modAt_length ..

theorem State.lport_onLPort_same (s : State) {p : Nat} (f : LPort → LPort) (h : p < s.lamp.ports.length) :
    (s.onLPort p f).lport p = f (s.lport p) := nth_modAt_same _ _ _ _ h

theorem State.lgroup_onLGroup_same (s : State) {g : Nat} (f : LGroup → LGroup) (h : g < s.lamp.groups.length) :
    (s.onLGroup g f).lgroup g = f (s.lgroup g) := nth_modAt_same _ _ _ _ h

/-- A port is the same in states with the same ports. -/
theorem State.lport_congr {s t : State} (h : s.lamp.ports = t.lamp.ports) (p : Nat) : s.lport p = t.lport p := by
  rw [State.lport, h, State.lport]

/-- A group is the same in states with the same groups. -/
theorem State.lgroup_congr {s t : State} (h : s.lamp.groups = t.lamp.groups) (g : Nat) : s.lgroup g = t.lgroup g := by
  rw [State.lgroup, h, State.lgroup]

/-! ### Frames that are queued, fail or are settled -/

@[simp] theorem State.queueLamp_groups (s : State) (p : Nat) (f : LFrame) : (s.queueLamp p f).lamp.groups = s.lamp.groups := by
  unfold State.queueLamp
  extract_lets
  split <;> rfl

@[simp] theorem State.pollPort_groups (s : State) (p : Nat) : (s.pollPort p).lamp.groups = s.lamp.groups :=
  State.each_keeps (fun t : State => t.lamp.groups) _ _ s fun x _ => x.queueLamp_groups p _

/-- A failed block is taken out of the frames in each queue, which keeps its frames. -/
@[simp] theorem State.failBlock_queue_length (s : State) (b : Nat × Nat × Nat) (p : Nat) :
    ((s.failBlock b).lport p).queue.length = (s.lport p).queue.length :=
  nth_map_keeps (fun q : LPort => q.queue.length) (fun _ => List.length_map ..) _ p {}

@[simp] theorem State.failBlock_swapSent (s : State) (b : Nat × Nat × Nat) : (s.failBlock b).lamp.swapSent = s.lamp.swapSent := rfl

@[simp] theorem State.settleBlocks_ports (s : State) (bs : List (Nat × Nat × Nat)) : (s.settleBlocks bs).lamp.ports = s.lamp.ports := by
  refine State.each_keeps (fun t : State => t.lamp.ports) _ _ s fun x b => ?_
  split <;> rfl

/-! ### Registers -/

@[simp] theorem State.onComp_f (s : State) (g : Comp → Comp) (f : Fld) (i j : Nat) : (s.onComp g).f f i j = s.f f i j := rfl
@[simp] theorem State.onLGroup_f (s : State) (g : Nat) (x : LGroup → LGroup) (f : Fld) (i j : Nat) :
    (s.onLGroup g x).f f i j = s.f f i j := rfl
@[simp] theorem State.onLamp_f (s : State) (g : Lamp → Lamp) (f : Fld) (i j : Nat) : (s.onLamp g).f f i j = s.f f i j := rfl

theorem State.f_inc (s : State) (f : Fld) (i j : Nat) (h : f.lo + f.w ≤ 32) :
    (s.inc f i j).f f i j = min (s.f f i j + 1) (2 ^ f.w - 1) := s.f_add f 1 i j h

theorem State.f_inc_ne (s : State) (f g : Fld) (i j k l : Nat) (h : g.addr k l ≠ f.addr i j) : (s.inc f i j).f g k l = s.f g k l :=
  s.f_put_ne _ _ _ _ _ _ _ h

/-! ### Registers that the Lamp Bus reports its state in -/

/-- An offset at which no status register of the Lamp Bus, of a group or of a port stands: these are at 0x04 and 0x0C of their
blocks. -/
abbrev besideLampStatus (a : Nat) : Prop := a % 0x40 ≠ 0x4 ∧ a % 0x40 ≠ 0xC

theorem State.refill_reg (s : State) (p : Nat) {a : Nat} (h : besideLampStatus a) : (s.refill p).reg a = s.reg a := by
  have hne : a ≠ 0x60040c + p * 0x40 + 0 * 0 := by omega
  unfold State.refill
  extract_lets q fill wm u
  exact (State.reg_put_ne _ _ _ _ _ _ hne).trans (State.reg_put_ne _ _ _ _ _ _ hne)

theorem State.lostFrames_reg (s : State) (fs : List LFrame) {a : Nat} (h : besideLampStatus a) : (s.lostFrames fs).reg a = s.reg a := by
  have hne : a ≠ F.LAMP_STATUS_PROBE_SKIPPED.addr 0 0 := by rintro rfl; exact h.1 rfl
  have hfail : (s.each (fs.flatMap LFrame.blocks) State.failBlock).reg a = s.reg a :=
    State.each_keeps (fun t : State => t.reg a) _ _ s fun _ _ => rfl
  rw [State.lostFrames, State.when]
  split
  · exact (State.reg_put_ne _ _ _ _ _ _ hne).trans hfail
  · exact hfail

theorem State.dropQueued_reg (s : State) (port : Nat) (p : LFrame → Bool) {a : Nat} (h : besideLampStatus a) :
    (s.dropQueued port p).reg a = s.reg a := (State.refill_reg _ _ h).trans (State.lostFrames_reg _ _ h)

theorem State.dropSlotFrames_reg (s : State) {a : Nat} (h : besideLampStatus a) : s.dropSlotFrames.reg a = s.reg a := by
  unfold State.dropSlotFrames
  extract_lets gone waiting s1
  have hrefill := State.each_keeps (fun t : State => t.reg a) (List.range 16) State.refill (s1.each gone State.failBlock)
    fun x p => x.refill_reg p h
  exact hrefill.trans (State.each_keeps (fun t : State => t.reg a) _ _ s1 fun _ _ => rfl)

theorem State.lampStatus_reg (s : State) {a : Nat} (h : besideLampStatus a) : s.lampStatus.reg a = s.reg a := by
  have hstatus : a ≠ 0x600004 := by rintro rfl; exact h.1 rfl
  unfold State.lampStatus
  extract_lets s1 bitsOf ports s2 s3 s4
  have hgroups : s1.reg a = s.reg a := by
    refine State.each_keeps (fun t : State => t.reg a) _ _ s fun x g => ?_
    have hne : a ≠ 0x60010c + g * 0x40 + 0 * 0 := by omega
    exact (State.reg_put_ne _ _ _ _ _ _ hne).trans (State.reg_put_ne _ _ _ _ _ _ hne)
  have hflags : s4.reg a = s1.reg a := (State.reg_put_ne _ _ _ _ _ _ hstatus).trans
    ((State.reg_put_ne _ _ _ _ _ _ hstatus).trans (State.reg_put_ne _ _ _ _ _ _ hstatus))
  exact (State.reg_put_ne _ _ _ _ _ _ hstatus).trans ((State.reg_put_ne _ _ _ _ _ _ hstatus).trans (hflags.trans hgroups))

/-! ### The registers of a fold whose run ends (R356) -/

/-- An offset between a fold's control registers, which end before 0x1000 of its page, and its composition counters at 0x3000. -/
abbrev besideFolds (a : Nat) : Prop := 0x1000 ≤ a % 0x40000 ∧ a % 0x40000 < 0x3000

theorem State.put_fold_reg (s : State) {f : Fld} (v n : Nat) {a : Nat} (h : besideFolds a) (hpage : f.s1 = 0x40000)
    (hbase : ¬besideFolds f.base) : (s.put f v n).reg a = s.reg a :=
  s.reg_put_ne _ _ _ _ _ (by rw [Fld.addr, hpage]; omega)

@[simp] theorem State.onFold_reg (s : State) (n : Nat) (f : Fold → Fold) (a : Nat) : (s.onFold n f).reg a = s.reg a := rfl

theorem State.unwait_reg (s : State) (n : Nat) {a : Nat} (h : besideFolds a) : (s.unwait n).reg a = s.reg a :=
  s.put_fold_reg 0 n h rfl (by decide)

theorem State.wakeFlags_reg (s : State) (m : Nat) {a : Nat} (h : besideFolds a) : (s.wakeFlags m).reg a = s.reg a := by
  refine State.each_keeps (fun t : State => t.reg a) _ _ s fun x n => ?_
  split
  · split
    · rfl
    · split
      · exact x.unwait_reg n h
      · split
        · rfl
        · exact x.unwait_reg n h
  · rfl

theorem State.endRun_reg (s : State) (n : Nat) {a : Nat} (h : besideFolds a) : (s.endRun n).reg a = s.reg a := by
  unfold State.endRun
  extract_lets s1 s2 s3 f s4 s5 s6 s7
  have hunwait : s1.reg a = s.reg a := s.unwait_reg n h
  have hstrips : s3.reg a = s1.reg a := by
    show s2.reg a = _
    dsimp only [s2]
    split <;> rfl
  have hsteps : s4.reg a = s3.reg a := (State.put_fold_reg _ _ _ h rfl (by decide)).trans (State.put_fold_reg _ _ _ h rfl (by decide))
  have htx : s5.reg a = s4.reg a := by
    dsimp only [s5]
    split
    · exact (State.onFold_reg ..).trans (State.put_fold_reg _ _ _ h rfl (by decide))
    · rfl
  have hlamps : s6.reg a = s5.reg a := (State.put_fold_reg _ _ _ h rfl (by decide)).trans (State.put_fold_reg _ _ _ h rfl (by decide))
  have hslot : s7.reg a = s6.reg a := (State.put_fold_reg _ _ _ h rfl (by decide)).trans (State.put_fold_reg _ _ _ h rfl (by decide))
  calc _ = s7.reg a := (State.wakeFlags_reg _ _ h).trans
            ((State.put_fold_reg _ _ _ h rfl (by decide)).trans (State.put_fold_reg _ _ _ h rfl (by decide)))
    _ = s.reg a := by rw [hslot, hlamps, htx, hsteps, hstrips, hunwait]

theorem State.overrun_reg (s : State) (n : Nat) {a : Nat} (h : besideFolds a) : (s.overrun n).reg a = s.reg a :=
  (State.put_fold_reg _ _ _ h rfl (by decide)).trans (s.endRun_reg n h)

/-! ### Correction counters (R293) -/

theorem corrClear_zeroes {s : State} (hup : s.pwr.up = true) : yields .corrClear s fun t => t.f F.CORR_ENTRY_FAULT = 0 ∧
    t.f F.CORR_PROFILE_FAULT = 0 ∧ t.f F.CORR_POSE_LATE = 0 ∧ t.f F.CORR_FIRST_FAULT_INDEX = 0 := by
  have hexec : exec .corrClear s = .next s.corrClear := by
    show execCorrClear s = _
    rw [execCorrClear, if_pos hup]
  refine ⟨_, hexec, ?_⟩
  simp [State.corrClear, State.f, State.reg_zero, Fld.addr, F.CORR_ENTRY_FAULT, F.CORR_PROFILE_FAULT, F.CORR_POSE_LATE,
    F.CORR_FIRST_FAULT_INDEX, F.CORR_CLIPPED, bits]

/-! ### LSYNC (R164, R312, R327) -/

/-- Driving the LSYNC output changes its level and what has been sent alone. -/
theorem State.setLsync_lamp (s : State) (g : Nat) (level : Bool) :
    (s.setLsync g level).lamp = (s.onLGroup g fun x => { x with lsync := level }).lamp := (State.lsyncPins_within ..).same_lamp

theorem State.setLsync_lgroup {s : State} {g : Nat} (level : Bool) (h : g < s.lamp.groups.length) :
    (s.setLsync g level).lgroup g = { s.lgroup g with lsync := level } := by
  rw [State.lgroup_congr (congrArg Lamp.groups (s.setLsync_lamp g level)), State.lgroup_onLGroup_same _ _ h]

theorem State.setLsync_regs (s : State) (g : Nat) (level : Bool) : (s.setLsync g level).regs = s.regs :=
  (State.setLsync_within ..).same_regs

/-- The output of a group stands at the level it is driven to. -/
theorem State.setLsync_lgroup_lsync {s : State} {g : Nat} (level : Bool) (h : g < s.lamp.groups.length) :
    ((s.setLsync g level).lgroup g).lsync = level := by
  rw [State.setLsync_lgroup level h]

/-- A read of every driver's summary changes nothing but queues. -/
theorem State.each_pollPort_groups (s : State) (ps : List Nat) : (s.each ps State.pollPort).lamp.groups = s.lamp.groups :=
  State.each_keeps (fun t : State => t.lamp.groups) _ _ s fun x p => x.pollPort_groups p

theorem State.each_pollPort_regs (s : State) (ps : List Nat) : (s.each ps State.pollPort).regs = s.regs :=
  State.each_keeps (fun t : State => t.regs) _ _ s fun x p => (x.pollPort_within p).same_regs

theorem lsyncEdge_due {s : State} {group : Fin 4} (hon : s.lampOn = true) (hlen : s.lamp.groups.length = 4)
    (hdue : s.edgeDue group = true) : yields (.lsyncEdge group) s fun t =>
      t.f F.LAMP_GRPg_STATUS_LCNT group = (s.f F.LAMP_GRPg_STATUS_LCNT group + 1) % 2 ^ 16 ∧
        (t.lgroup group).lsync = true ∧ (t.lgroup group).edge = s.time.clock := by
  refine ⟨_, rfl, ?_⟩
  rw [hon, hdue, Bool.and_self, if_pos rfl]
  generalize hcount : (s.f F.LAMP_GRPg_STATUS_LCNT group + 1) % 2 ^ 16 = count
  have hfit : count % 2 ^ 16 = count := by rw [← hcount, Nat.mod_mod]
  extract_lets first s1 s2 s3
  have hlt : group.val < (s.put F.LAMP_GRPg_STATUS_LCNT count group).lamp.groups.length := by
    rw [State.put_lamp, hlen]
    exact group.isLt
  have hcount1 : s1.f F.LAMP_GRPg_STATUS_LCNT group = count := by
    rw [State.f_of_regs (State.setLsync_regs ..), State.f_put _ _ _ _ _ (by decide)]
    exact hfit
  have hlsync1 : (s1.lgroup group).lsync = true := State.setLsync_lgroup_lsync true hlt
  have hlt1 : group.val < s1.lamp.groups.length := by
    rwa [State.setLsync_lamp, State.onLGroup_length]
  have htime1 : s1.time = s.time := by rw [(State.setLsync_within ..).same_time, State.put_time]
  clear_value s1
  have hcount2 : s2.f F.LAMP_GRPg_STATUS_LCNT group = count := by rw [State.onLGroup_f, hcount1]
  have hgroup2 : (s2.lgroup group).lsync = true ∧ (s2.lgroup group).edge = s.time.clock := by
    rw [State.lgroup_onLGroup_same _ _ hlt1, ← htime1]
    exact ⟨hlsync1, rfl⟩
  clear_value s2
  have hgain : s3.f F.LAMP_GRPg_STATUS_LCNT group = count ∧ s3.lamp.groups = s2.lamp.groups := by
    dsimp only [s3]
    split
    · refine ⟨(State.f_put_ne _ _ _ _ _ _ _ _ ?_).trans hcount2, rfl⟩
      simp only [Fld.addr, F.LAMP_GRPg_STATUS_LCNT, F.CORR_STATUS_G_NOW]
      omega
    · exact ⟨hcount2, rfl⟩
  clear_value s3
  split
  · rw [State.f_of_regs (s3.each_pollPort_regs _), State.lgroup_congr ((s3.each_pollPort_groups _).trans hgain.2)]
    exact ⟨hgain.1, hgroup2⟩
  · rw [State.lgroup_congr hgain.2]
    exact ⟨hgain.1, hgroup2⟩

/-- LSYNC_EDGE does nothing before the edge is due. -/
theorem exec_lsyncEdge_not_due {s : State} {group : Fin 4} (hdue : s.edgeDue group = false) : exec (.lsyncEdge group) s = .next s := by
  show execLsyncEdge group s = _
  rw [execLsyncEdge, hdue, Bool.and_false, if_neg Bool.false_ne_true]

theorem exec_lsyncPulseEnd_mismatch {s : State} {group : Fin 4} (hon : s.lampOn = true) (hhigh : (s.lgroup group).lsync = true)
    (hover : (s.lgroup group).edge + s.f F.LAMP_TIMING_LSYNC_WIDTH * 10 * nsU ≤ s.time.clock) :
    exec (.lsyncPulseEnd group true) s = .next ((s.setLsync group false).flag F.LAMP_GRPg_STATUS_LSYNC_FAULT true group) := by
  show execLsyncPulseEnd group true s = _
  simp only [execLsyncPulseEnd, hon, hhigh, decide_eq_true hover, Bool.and_self, if_true]

theorem lsyncPulseEnd_mismatch {s : State} {group : Fin 4} {mismatch : Bool} (hon : s.lampOn = true) (hlen : s.lamp.groups.length = 4)
    (hhigh : (s.lgroup group).lsync = true) (hmismatch : mismatch = true)
    (hover : (s.lgroup group).edge + s.f F.LAMP_TIMING_LSYNC_WIDTH * 10 * nsU ≤ s.time.clock) :
    yields (.lsyncPulseEnd group mismatch) s fun t =>
      (t.lgroup group).lsync = false ∧ t.b F.LAMP_GRPg_STATUS_LSYNC_FAULT group = true := by
  subst hmismatch
  have hlt : group.val < s.lamp.groups.length := group.isLt.trans_eq hlen.symm
  refine ⟨_, exec_lsyncPulseEnd_mismatch hon hhigh hover, ?_, State.b_flag _ _ _ _ _ (by decide) rfl⟩
  rw [State.lgroup_congr (congrArg Lamp.groups (State.flag_lamp ..)), State.setLsync_lgroup_lsync false hlt]

/-! ### Line buffers (R319, R320) -/

/-- A queue of one region write that waits in staging. -/
theorem LPort.staged_single {q : LPort} {f : LFrame} (hqueue : q.queue = [f]) (hprio : f.prio = 4) (hstaging : f.inBuf = false) :
    q.staged = [f] := by
  simp [LPort.staged, hqueue, hprio, hstaging]

/-- A frame in staging takes no room in the line buffer. -/
theorem LPort.fill_single {q : LPort} {f : LFrame} (hqueue : q.queue = [f]) (hsending : q.sending = none) (hstaging : f.inBuf = false) :
    q.fill = 0 := by
  simp [LPort.fill, hqueue, hsending, hstaging]

@[simp] theorem State.refill_lamp (s : State) (p : Nat) : (s.refill p).lamp = s.lamp := (s.refill_within p).same_lamp

theorem State.lport_refill (s : State) (p k : Nat) : (s.refill p).lport k = s.lport k :=
  State.lport_congr (congrArg Lamp.ports (s.refill_lamp p)) k

theorem exec_lineBufferFill_fits {s : State} {port : Fin 16} {f : LFrame} (hon : s.lampOn = true) (hmem : s.on iMEM = true)
    (hstaged : (s.lport port).staged = [f]) (hroom : (s.lport port).fill + f.bytes.length ≤ 65536) :
    exec (.lineBufferFill port none) s = .next ((s.onLPort port fun q => { q with
      queue := q.queue.map fun x => if x == f then { x with inBuf := true } else x }).refill port) := by
  show execLineBufferFill port none s = _
  simp only [execLineBufferFill, hon, hmem, hstaged, Bool.and_self, Bool.not_true, Bool.false_eq_true, if_false, if_pos hroom]

/-- An uncorrectable error met in staging on behalf of a port: it is counted, and the slot is dropped. -/
def State.stagingError (s : State) (p g w : Nat) : State :=
  (s.memError g true w (if s.b F.LAMP_PORTp_STATUS_URGENT p then 1 else 4)).onComp fun c => { c with dropped := true }

theorem State.stagingError_lamp (s : State) (p g w : Nat) : (s.stagingError p g w).lamp = s.lamp := by
  rw [State.stagingError, State.onComp_lamp, (State.memError_within ..).same_lamp]

theorem State.stagingError_dropped (s : State) (p g w : Nat) : (s.stagingError p g w).comp.dropped = true := rfl

theorem exec_lineBufferFill_error {s : State} {port : Fin 16} {f : LFrame} (g w : Nat) (hon : s.lampOn = true)
    (hmem : s.on iMEM = true) (hstaged : (s.lport port).staged = [f]) :
    exec (.lineBufferFill port (some (g, w))) s = .next
      ((((s.stagingError port g w).onLPort port fun q => { q with queue := q.queue.erase f }).each f.blocks
        State.failBlock).refill port) := by
  show execLineBufferFill port (some (g, w)) s = _
  simp only [execLineBufferFill, State.stagingError, hon, hmem, hstaged, Bool.and_self, Bool.not_true, Bool.false_eq_true, if_false]

theorem lineBufferFill_fetches {s : State} {port : Fin 16} {f : LFrame} (hon : s.lampOn = true) (hlen : s.lamp.ports.length = 16)
    (hqueue : (s.lport port).queue = [f]) (hsending : (s.lport port).sending = none) (hprio : f.prio = 4) (hstaging : f.inBuf = false)
    (hsize : f.bytes.length ≤ 65536) (hmem : s.on iMEM = true) : yields (.lineBufferFill port none) s fun t =>
      (t.lport port).queue = [{ f with inBuf := true }] ∧ t.mem = s.mem := by
  have hroom : (s.lport port).fill + f.bytes.length ≤ 65536 := by
    rw [LPort.fill_single hqueue hsending hstaging, Nat.zero_add]
    exact hsize
  refine ⟨_, exec_lineBufferFill_fits hon hmem (LPort.staged_single hqueue hprio hstaging) hroom, ?_, (State.refill_within ..).same_mem⟩
  rw [State.lport_refill, State.lport_onLPort_same _ _ (port.isLt.trans_eq hlen.symm)]
  simp [hqueue]

/-- A failed block leaves the number of frames in each queue and what stands beside the lamps. -/
theorem State.each_failBlock_queue_length (s : State) (bs : List (Nat × Nat × Nat)) (p : Nat) :
    ((s.each bs State.failBlock).lport p).queue.length = (s.lport p).queue.length :=
  State.each_keeps (fun t : State => (t.lport p).queue.length) _ _ s fun x b => x.failBlock_queue_length b p

theorem State.each_failBlock_comp (s : State) (bs : List (Nat × Nat × Nat)) : (s.each bs State.failBlock).comp = s.comp :=
  State.each_keeps (fun t : State => t.comp) _ _ s fun _ _ => rfl

theorem lineBufferFill_drops {s : State} {port : Fin 16} {f : LFrame} (g w : Nat) (hon : s.lampOn = true)
    (hlen : s.lamp.ports.length = 16) (hqueue : (s.lport port).queue = [f]) (hprio : f.prio = 4) (hstaging : f.inBuf = false)
    (hmem : s.on iMEM = true) : yields (.lineBufferFill port (some (g, w))) s fun t =>
      (t.lport port).queue = [] ∧ t.comp.dropped = true := by
  refine ⟨_, exec_lineBufferFill_error g w hon hmem (LPort.staged_single hqueue hprio hstaging), ?_, ?_⟩
  · have hlamp := s.stagingError_lamp port g w
    have hlt : port.val < (s.stagingError port g w).lamp.ports.length := by
      rw [hlamp, hlen]
      exact port.isLt
    rw [State.lport_refill, ← List.length_eq_zero_iff, State.each_failBlock_queue_length, State.lport_onLPort_same _ _ hlt,
      State.lport_congr (congrArg Lamp.ports hlamp), hqueue, List.erase_cons_head]
    rfl
  · rw [(State.refill_within ..).same_comp, State.each_failBlock_comp]
    exact s.stagingError_dropped port g w

/-! ### Frames on the ports (R319, R327) -/

theorem exec_lampFrameStart {s : State} {port : Fin 16} {f : LFrame} (hon : s.lampOn = true)
    (henable : s.b F.LAMP_PORTp_CFG_ENABLE port = true) (hsending : (s.lport port).sending = none)
    (hnext : (s.lport port).next = some f) : exec (.lampFrameStart port) s = .next (s.onLPort port fun q => { q with
      queue := q.queue.erase f, sending := some f, starved := false
      asked := if f.prio == 6 then some (le f.bytes 1 1, le f.bytes 4 1, s.time.aon) else q.asked }) := by
  show execLampFrameStart port s = _
  simp only [execLampFrameStart, hon, henable, hsending, hnext, Option.isNone_none, Bool.and_self, if_true]

theorem lampFrameStart_sends {s : State} {port : Fin 16} {f : LFrame} (hon : s.lampOn = true) (hlen : s.lamp.ports.length = 16)
    (henable : s.b F.LAMP_PORTp_CFG_ENABLE port = true) (hsending : (s.lport port).sending = none)
    (hnext : (s.lport port).next = some f) : yields (.lampFrameStart port) s fun t =>
      (t.lport port).sending = some f ∧ (t.lport port).queue = (s.lport port).queue.erase f ∧ t.regs = s.regs := by
  have hlt : port.val < s.lamp.ports.length := port.isLt.trans_eq hlen.symm
  refine ⟨_, exec_lampFrameStart hon henable hsending hnext, ?_, ?_, rfl⟩
  · rw [State.lport_onLPort_same _ _ hlt]
  · rw [State.lport_onLPort_same _ _ hlt]

/-- What the end of a frame does first: its code groups leave, and the answer to a STATUS_READ is awaited from now on. -/
def State.frameLeft (s : State) (p : Nat) (f : LFrame) : State :=
  ((s.sendLine p f.bytes (f.bytes.length / 4) .eof).emit (.lamp p f.bytes)).onLPort p fun q =>
    if f.prio == 6 then { q with asked := q.asked.map fun a => (a.1, a.2.1, s.time.aon) } else q

theorem State.frameLeft_out (s : State) (p : Nat) (f : LFrame) :
    (s.frameLeft p f).out = ((s.sendLine p f.bytes (f.bytes.length / 4) .eof).emit (.lamp p f.bytes)).out := rfl

theorem State.frameLeft_regs (s : State) (p : Nat) (f : LFrame) : (s.frameLeft p f).regs = s.regs :=
  (State.sendLine_within s p f.bytes (f.bytes.length / 4) .eof).same_regs

theorem State.frameLeft_length (s : State) (p : Nat) (f : LFrame) : (s.frameLeft p f).lamp.ports.length = s.lamp.ports.length :=
  (modAt_length ..).trans (modAt_length ..)

/-- The fault bit of the pads is set or cleared with its summary in LAMP_STATUS. -/
theorem State.padFault_lamp (s : State) (v : Bool) (p : Nat) : ((s.flag F.LAMP_PORTp_STATUS_PAD_FAULT v p).lampStatus).lamp = s.lamp :=
  (State.lampStatus_within _).same_lamp

theorem State.padFault_out (s : State) (v : Bool) (p : Nat) : ((s.flag F.LAMP_PORTp_STATUS_PAD_FAULT v p).lampStatus).out = s.out :=
  (State.lampStatus_within _).same_out

/-- A frame that leaves with matching pads. -/
theorem lampFrameSent_clean {s : State} {port : Fin 16} {f : LFrame} (hon : s.lampOn = true) (hlen : s.lamp.ports.length = 16)
    (hsending : (s.lport port).sending = some f) : yields (.lampFrameSent port false) s fun t =>
      (t.lport port).sending = none ∧ (t.lport port).sent = (s.lport port).sent + 1 ∧
        t.out = ((s.sendLine port f.bytes (f.bytes.length / 4) .eof).emit (.lamp port f.bytes)).out := by
  have hexec : exec (.lampFrameSent port false) s = .next
      (let clean := ((s.frameLeft port f).lport port).clean + 1
       let x := ((s.frameLeft port f).onLPort port fun q =>
           { q with sent := (s.lport port).sent + 1, clean := clean, sending := none }).onLamp fun l =>
         { l with probed := l.probed ++ f.probes }
       let y := if 1024 ≤ clean then (x.flag F.LAMP_PORTp_STATUS_PAD_FAULT false port).lampStatus else x
       (y.settleBlocks f.blocks).refill port) := by
    show execLampFrameSent port false s = _
    simp only [execLampFrameSent, hsending, hon, Bool.not_true, Bool.false_eq_true, if_false]
    rfl
  refine ⟨_, hexec, ?_⟩
  extract_lets clean x y
  have hx : x.lport port = { (s.frameLeft port f).lport port with sent := (s.lport port).sent + 1, clean := clean, sending := none } :=
    State.lport_onLPort_same _ _ (by rw [s.frameLeft_length, hlen]; exact port.isLt)
  have hout : x.out = (s.frameLeft port f).out := rfl
  clear_value x
  have hy : y.lamp = x.lamp ∧ y.out = x.out := by
    dsimp only [y]
    split
    · exact ⟨x.padFault_lamp _ _, x.padFault_out _ _⟩
    · exact ⟨rfl, rfl⟩
  clear_value y
  have hport : ((y.settleBlocks f.blocks).refill port).lport port = x.lport port := by
    rw [State.lport_refill, State.lport_congr (y.settleBlocks_ports _), State.lport_congr (congrArg Lamp.ports hy.1)]
  beta_reduce
  rw [hport, hx]
  refine ⟨rfl, rfl, ?_⟩
  rw [(State.refill_within ..).same_out, (State.settleBlocks_within ..).same_out, hy.2, hout, State.frameLeft_out]

/-- A frame that leaves for the first time with a pad that differs. -/
theorem lampFrameSent_mismatch {s : State} {port : Fin 16} {f : LFrame} (hon : s.lampOn = true) (hlen : s.lamp.ports.length = 16)
    (hsending : (s.lport port).sending = some f) (hfirst : f.tries = 0) : yields (.lampFrameSent port true) s fun t =>
      (t.lport port).sending = some { f with tries := 1 } ∧
        t.f F.LAMP_PORTp_PADERR port = min (s.f F.LAMP_PORTp_PADERR port + 1) (2 ^ F.LAMP_PORTp_PADERR.w - 1) := by
  have hexec : exec (.lampFrameSent port true) s = .next
      (let k := (s.lport port).sent + 1
       let bad := k :: ((s.frameLeft port f).lport port).bad.filter fun b => decide (k < b + 1024)
       let x := ((s.frameLeft port f).inc F.LAMP_PORTp_PADERR port).onLPort port fun q => { q with sent := k, bad := bad, clean := 0 }
       let y := if decide (1 ≤ f.tries) || decide (4 ≤ bad.length) then
           (x.flag F.LAMP_PORTp_STATUS_PAD_FAULT true port).lampStatus
         else x
       y.onLPort port fun q => { q with sending := some { f with tries := 1 } }) := by
    show execLampFrameSent port true s = _
    simp only [execLampFrameSent, hsending, hon, Bool.not_true, Bool.false_eq_true, if_false, hfirst, beq_self_eq_true, if_true]
    rfl
  refine ⟨_, hexec, ?_⟩
  extract_lets k bad x y
  have hxlen : x.lamp.ports.length = 16 := by rw [State.onLPort_length, State.inc_lamp, s.frameLeft_length, hlen]
  have hcount : x.f F.LAMP_PORTp_PADERR port = min (s.f F.LAMP_PORTp_PADERR port + 1) (2 ^ F.LAMP_PORTp_PADERR.w - 1) := by
    rw [← State.f_of_regs (s.frameLeft_regs port f)]
    exact State.f_inc _ _ _ _ (by decide)
  clear_value x
  have hy : y.lamp = x.lamp ∧ y.f F.LAMP_PORTp_PADERR port = x.f F.LAMP_PORTp_PADERR port := by
    have hbeside : besideLampStatus (F.LAMP_PORTp_PADERR.addr port 0) := by
      simp only [besideLampStatus, Fld.addr, F.LAMP_PORTp_PADERR]
      omega
    have hne : F.LAMP_PORTp_PADERR.addr port 0 ≠ F.LAMP_PORTp_STATUS_PAD_FAULT.addr port 0 := by
      simp only [Fld.addr, F.LAMP_PORTp_PADERR, F.LAMP_PORTp_STATUS_PAD_FAULT]
      omega
    dsimp only [y]
    split
    · exact ⟨x.padFault_lamp _ _, State.f_congr ((State.lampStatus_reg _ hbeside).trans (State.reg_put_ne _ _ _ _ _ _ hne))⟩
    · exact ⟨rfl, rfl⟩
  clear_value y
  have hlt : port.val < y.lamp.ports.length := by
    rw [hy.1, hxlen]
    exact port.isLt
  beta_reduce
  rw [State.lport_onLPort_same _ _ hlt]
  exact ⟨rfl, hy.2.trans hcount⟩

/-! ### SWAP and the push deadline (R265, R313, R321) -/

theorem State.each_queueLamp_regs (s : State) (ps : List Nat) (f : State → Nat → LFrame) :
    (s.each ps fun x p => x.queueLamp p (f x p)).regs = s.regs :=
  State.each_keeps (fun t : State => t.regs) _ _ s fun x p => (x.queueLamp_within p _).same_regs

/-- With a group that pushes, the SWAP closes the slot, is noted as sent and counted. -/
theorem State.sendSwap_sends {s : State} (hgroups : s.pushGroups ≠ []) : s.sendSwap.comp.closed = true ∧
    s.sendSwap.lamp.swapSent = true ∧ s.sendSwap.f F.LAMP_SWAPS = min (s.f F.LAMP_SWAPS + 1) (2 ^ F.LAMP_SWAPS.w - 1) ∧
    s.sendSwap.f F.COMP_LATE = s.f F.COMP_LATE := by
  unfold State.sendSwap
  extract_lets gs s1 s2 s3
  have hregs1 : s1.regs = s.regs :=
    State.each_keeps (fun t : State => t.regs) _ _ s fun x g => x.each_queueLamp_regs _ _
  clear_value s1
  have hswaps : s3.f F.LAMP_SWAPS = s.f F.LAMP_SWAPS := by
    rw [State.f_put_ne _ _ _ _ _ _ _ _ (by decide), State.onComp_f, State.f_of_regs hregs1]
  have hlate : s3.f F.COMP_LATE = s.f F.COMP_LATE := by
    rw [State.f_put_ne _ _ _ _ _ _ _ _ (by decide), State.onComp_f, State.f_of_regs hregs1]
  have hclosed : s3.comp.closed = true := by rw [State.put_comp, State.onComp_comp]
  clear_value s3
  rw [if_neg (by simpa [gs] using hgroups)]
  refine ⟨?_, ?_, ?_, ?_⟩
  · rw [State.onLamp_comp, State.flag_comp, State.inc_comp, hclosed]
  · rw [State.onLamp_lamp]
  · rw [State.onLamp_f, State.f_flag_other _ _ (by decide) (by decide), State.f_inc _ _ _ _ (by decide), hswaps]
  · rw [State.onLamp_f, State.f_flag_other _ _ (by decide) (by decide), State.f_inc_ne _ _ _ _ _ _ _ (by decide), hlate]

theorem swap_sends {s : State} (hon : s.lampOn = true) (hready : s.swapReady = true) (hgroups : s.pushGroups ≠ [])
    (htime : s.time.clock + usU (s.f F.LAMP_TIMING_SWAP_LEAD) ≤ s.comp.slotAt) : yields .swap s fun t =>
      t.comp.closed = true ∧ t.lamp.swapSent = true ∧ t.f F.LAMP_SWAPS = min (s.f F.LAMP_SWAPS + 1) (2 ^ F.LAMP_SWAPS.w - 1) := by
  have hexec : exec .swap s = .next s.sendSwap := by
    show execSwap s = _
    rw [execSwap, hon, hready, decide_eq_true htime, Bool.and_self, Bool.and_self, if_pos rfl]
  obtain ⟨hclosed, hsent, hswaps, -⟩ := State.sendSwap_sends hgroups
  exact ⟨_, hexec, hclosed, hsent, hswaps⟩

/-- What is not a status register of the Lamp Bus, and the slot, stay when a slot's probes are skipped. -/
theorem State.each_dropQueued_reg (s : State) (ps : List Nat) (p : LFrame → Bool) {a : Nat} (h : besideLampStatus a) :
    (s.each ps fun x k => x.dropQueued k p).reg a = s.reg a :=
  State.each_keeps (fun t : State => t.reg a) _ _ s fun x k => x.dropQueued_reg k p h

theorem State.each_dropQueued_comp (s : State) (ps : List Nat) (p : LFrame → Bool) :
    (s.each ps fun x k => x.dropQueued k p).comp = s.comp :=
  State.each_keeps (fun t : State => t.comp) _ _ s fun x k => (x.dropQueued_within k p).same_comp

theorem State.lostFrames_swapSent (s : State) (fs : List LFrame) : (s.lostFrames fs).lamp.swapSent = s.lamp.swapSent := by
  have hfail : (s.each (fs.flatMap LFrame.blocks) State.failBlock).lamp.swapSent = s.lamp.swapSent :=
    State.each_keeps (fun t : State => t.lamp.swapSent) _ _ s fun x b => x.failBlock_swapSent b
  rw [State.lostFrames, State.when]
  split
  · rw [State.flag_lamp]
    exact hfail
  · exact hfail

theorem State.dropQueued_swapSent (s : State) (port : Nat) (p : LFrame → Bool) :
    (s.dropQueued port p).lamp.swapSent = s.lamp.swapSent := by
  rw [State.dropQueued, State.refill_lamp, State.lostFrames_swapSent]
  rfl

theorem State.each_dropQueued_swapSent (s : State) (ps : List Nat) (p : LFrame → Bool) :
    (s.each ps fun x k => x.dropQueued k p).lamp.swapSent = s.lamp.swapSent :=
  State.each_keeps (fun t : State => t.lamp.swapSent) _ _ s fun x k => x.dropQueued_swapSent k p

/-- A slot that is dropped is closed, and counted as late. -/
theorem State.dropSlot_drops (s : State) : s.dropSlot.comp.closed = true ∧ s.dropSlot.comp.dropped = true ∧
    s.dropSlot.f F.COMP_LATE = min (s.f F.COMP_LATE + 1) (2 ^ F.COMP_LATE.w - 1) ∧ s.dropSlot.b F.COMP_STATUS_LAST_LATE = true := by
  unfold State.dropSlot
  extract_lets s1 s2 s3
  have hfolds : s1.f F.COMP_LATE = s.f F.COMP_LATE := by
    refine State.f_congr (State.each_keeps (fun t : State => t.reg (F.COMP_LATE.addr 0 0)) _ _ s fun x n => ?_)
    have hfree : besideFolds (F.COMP_LATE.addr 0 0) := by decide
    extract_lets y
    have hy : y.reg (F.COMP_LATE.addr 0 0) = x.reg (F.COMP_LATE.addr 0 0) := by
      dsimp only [y]
      split
      · exact State.put_fold_reg _ _ _ hfree rfl (by decide)
      · rfl
    clear_value y
    split
    · exact (y.overrun_reg n hfree).trans hy
    · exact hy
  clear_value s1
  have hlate : s2.f F.COMP_LATE = min (s.f F.COMP_LATE + 1) (2 ^ F.COMP_LATE.w - 1) := by
    rw [State.f_congr (State.dropSlotFrames_reg _ (by decide)), State.f_flag_other _ _ (by decide) (by decide),
      State.f_inc _ _ _ _ (by decide), hfolds]
  have hflag : s2.b F.COMP_STATUS_LAST_LATE = true := by
    rw [State.b, State.f_congr (State.dropSlotFrames_reg _ (by decide))]
    exact State.b_flag _ _ _ _ _ (by decide) rfl
  clear_value s2
  refine ⟨?_, ?_, ?_, ?_⟩
  · rw [State.put_comp, State.onComp_comp]
  · rw [State.put_comp, State.onComp_comp]
  · rw [State.f_put_ne _ _ _ _ _ _ _ _ (by decide), State.onComp_f, hlate]
  · rw [State.b_put_other _ _ (by decide) (by decide), State.b, State.onComp_f]
    exact hflag

/-- The state once the push deadline has come. -/
def State.atDeadline (s : State) : State := s.onComp fun c => { c with pastDeadline := true }

theorem State.atDeadline_swapReady (s : State) : s.atDeadline.swapReady = s.swapReady := rfl
theorem State.atDeadline_pushGroups (s : State) : s.atDeadline.pushGroups = s.pushGroups := rfl

theorem exec_pushDeadline_not_due {s : State} (hdue : s.deadlineDue = false) : exec .pushDeadline s = .next s := by
  show execPushDeadline s = _
  rw [execPushDeadline, hdue, Bool.not_false, Bool.or_true, if_pos rfl]

/-- At the deadline of an open slot the SWAP is sent if its moment has come, and the slot is dropped otherwise; then probes are skipped. -/
theorem exec_pushDeadline_open {s : State} (hon : s.lampOn = true) (hopen : s.comp.closed = false) (hpast : s.comp.pastDeadline = false)
    (hdue : s.deadlineDue = true) : exec .pushDeadline s = .next
      ((if s.swapReady then s.atDeadline.sendSwap else s.atDeadline.dropSlot).each (List.range 16) fun x p =>
        x.dropQueued p fun f => f.prio == 5) := by
  have htile : (s.isTile && s.pwr.up) = true := by
    simp only [State.lampOn, State.on, Bool.and_eq_true] at hon
    simp only [hon, Bool.and_self]
  have hclosed : s.atDeadline.comp.closed = false := hopen
  have hlamp : s.atDeadline.lampOn = true := hon
  show execPushDeadline s = _
  rw [execPushDeadline, htile, hpast, hdue, Bool.not_true, Bool.or_false, Bool.or_false, if_neg Bool.false_ne_true]
  change Host.Outcome.next ((if s.atDeadline.comp.closed then s.atDeadline else if s.atDeadline.lampOn && s.atDeadline.swapReady then
    s.atDeadline.sendSwap else s.atDeadline.dropSlot).each (List.range 16) _) = _
  rw [hclosed, hlamp, Bool.true_and, if_neg Bool.false_ne_true, State.atDeadline_swapReady]

theorem pushDeadline_drops {s : State} (hon : s.lampOn = true) (hopen : s.comp.closed = false) (hunready : s.swapReady = false)
    (hpast : s.comp.pastDeadline = false) (hdue : s.deadlineDue = true) : yields .pushDeadline s fun t =>
      t.comp.closed = true ∧ t.comp.dropped = true ∧ t.f F.COMP_LATE = min (s.f F.COMP_LATE + 1) (2 ^ F.COMP_LATE.w - 1) ∧
        t.b F.COMP_STATUS_LAST_LATE = true := by
  have hexec := exec_pushDeadline_open hon hopen hpast hdue
  rw [hunready, if_neg Bool.false_ne_true] at hexec
  obtain ⟨hclosed, hdropped, hlate, hflag⟩ := s.atDeadline.dropSlot_drops
  refine ⟨_, hexec, ?_⟩
  beta_reduce
  rw [State.each_dropQueued_comp, State.b, State.f_congr (State.each_dropQueued_reg _ _ _ (by decide)),
    State.f_congr (State.each_dropQueued_reg _ _ _ (by decide))]
  exact ⟨hclosed, hdropped, hlate, hflag⟩

theorem pushDeadline_swaps {s : State} (hon : s.lampOn = true) (hopen : s.comp.closed = false) (hpast : s.comp.pastDeadline = false)
    (hdue : s.deadlineDue = true) (hready : s.swapReady = true) (hgroups : s.pushGroups ≠ []) : yields .pushDeadline s fun t =>
      t.comp.closed = true ∧ t.lamp.swapSent = true ∧ t.f F.COMP_LATE = s.f F.COMP_LATE := by
  have hexec := exec_pushDeadline_open hon hopen hpast hdue
  rw [hready, if_pos rfl] at hexec
  rw [← s.atDeadline_pushGroups] at hgroups
  obtain ⟨hclosed, hsent, -, hlate⟩ := State.sendSwap_sends hgroups
  refine ⟨_, hexec, ?_⟩
  beta_reduce
  rw [State.each_dropQueued_comp, State.each_dropQueued_swapSent, State.f_congr (State.each_dropQueued_reg _ _ _ (by decide))]
  exact ⟨hclosed, hsent, hlate⟩

/-- Settles O24: each clause is the command's equation above with what the operation leaves in the group, port, slot or register. -/
theorem lampSlotsAct : Obligations.LampSlotsAct := by
  unfold Obligations.LampSlotsAct
  exact ⟨fun s => corrClear_zeroes, fun s group => lsyncEdge_due, fun s group mismatch => lsyncPulseEnd_mismatch,
    fun s port f => lineBufferFill_fetches, fun s port f g w hon => lineBufferFill_drops g w hon, fun s port f => lampFrameStart_sends,
    fun s port f => lampFrameSent_clean, fun s port f => lampFrameSent_mismatch, fun s => swap_sends, fun s => pushDeadline_drops,
    fun s group hdue => ⟨s, exec_lsyncEdge_not_due hdue, rfl⟩, fun s => pushDeadline_swaps,
    fun s hdue => ⟨s, exec_pushDeadline_not_due hdue, rfl⟩⟩

/-! ### A hold whose reprogramming is complete (R326) -/

/-- TIMING_HOLD_BLACK leaves a group whose reprogramming was complete at the last frame latch as it is: that group resumes (R326). -/
theorem exec_timingHoldBlack_ready {s : State} {group : Fin 4} (hready : (s.lgroup group).ready = true) :
    exec (.timingHoldBlack group) s = .next s := by
  show execTimingHoldBlack group s = _
  simp only [execTimingHoldBlack, hready, Bool.not_true, Bool.and_false, Bool.false_and, Bool.false_eq_true, if_false]
  split <;> rfl

/-- A tile at S'_4 of the hold of group 3, with a nominal hold of 4 frames; every driver of the group had confirmed at the frame latch. -/
def confirmedHoldTile : State :=
  ((((Tests.upTile.put F.COMP_GRPg_CTL_ENABLE 1 3).put F.LAMP_GRPg_CFG_HOLD 3 3).onLGroup 3 fun x =>
    { x with hold := some 4, ready := true }).onComp fun c => { c with latched := some 8 }).onTime fun x => { x with frame := 8 }

/-- Refutes O25: its clause on TIMING_HOLD_BLACK has the group turn black whenever S'_4 has come, without the premise that its
reprogramming was not complete at that frame latch. A group that is complete there resumes at S'_4, where a nominal hold of 4 frames
ends anyway, and is not blanked (R326). -/
theorem not_lampGroupsAct : ¬ Obligations.LampGroupsAct := by
  unfold Obligations.LampGroupsAct
  rintro ⟨-, -, -, -, hblack, -⟩
  obtain ⟨t, hnext, hturned, -⟩ := hblack confirmedHoldTile 3 4 (by decide +kernel) (by decide +kernel) (by decide +kernel)
    (by decide +kernel) (by decide +kernel)
  rw [exec_timingHoldBlack_ready (by decide +kernel), Host.Outcome.next.injEq] at hnext
  have hkept : (confirmedHoldTile.lgroup (3 : Fin 4)).black = false := by decide +kernel
  rw [← hnext, hkept] at hturned
  exact absurd hturned Bool.false_ne_true

end Sys2Proof.Machine
end

section
/-! PROOFS. The number of each kind of thing, and what the fold commands and the commands of O53 leave unchanged: every command keeps
the numbers, a fold command is within its list of parts, and a GPIO write that meets an alarm's conflict counts it. -/
set_option Elab.async false
namespace Sys2Proof.Machine

/-! ### Every command keeps the canonical form and the shape -/

/-- Each command's lemma of Laws/Within*.lean names the parts that it can change. -/
theorem exec_within (c : Instr) (s : State) : ∃ ps, Within ps s (outcomeState (exec c s) s) :=
  match c with
  | .porNAssert => ⟨_, execPorNAssert_within s⟩
  | .porNRise straps => ⟨_, execPorNRise_within straps s⟩
  | .powerStep mv => ⟨_, execPowerStep_within mv s⟩
  | .powerGood mv => ⟨_, execPowerGood_within mv s⟩
  | .railEnableTimeout => ⟨_, execRailEnableTimeout_within s⟩
  | .brownout rail mv0 mv1 => ⟨_, execBrownout_within rail mv0 mv1 s⟩
  | .brownoutRestart => ⟨_, execBrownoutRestart_within s⟩
  | .resetNAssert widthNs => ⟨_, execResetNAssert_within widthNs s⟩
  | .resetNRelease => ⟨_, execResetNRelease_within s⟩
  | .bootRomStart flashOk clearOk failing => ⟨_, execBootRomStart_within flashOk clearOk failing s⟩
  | .memoryTrainingDone failed mismatch journalOk => ⟨_, execMemoryTrainingDone_within failed mismatch journalOk s⟩
  | .rstWarm ctx => ⟨_, execRstWarm_within ctx s⟩
  | .rstPowerOff ctx => ⟨_, execRstPowerOff_within ctx s⟩
  | .rstIsland ctx mask => ⟨_, execRstIsland_within ctx mask s⟩
  | .rstFold ctx mask => ⟨_, execRstFold_within ctx mask s⟩
  | .rstCtlAction => ⟨_, execRstCtlAction_within s⟩
  | .islandResetRelease isl => ⟨_, execIslandResetRelease_within isl s⟩
  | .islandClockLost isl => ⟨_, execIslandClockLost_within isl s⟩
  | .islandClockStable isl => ⟨_, execIslandClockStable_within isl s⟩
  | .refclkLoss => ⟨_, execRefclkLoss_within s⟩
  | .xingEvent isl line => ⟨_, execXingEvent_within isl line s⟩
  | .xingAck isl line => ⟨_, execXingAck_within isl line s⟩
  | .xingStuck isl line => ⟨_, execXingStuck_within isl line s⟩
  | .pcieReset => ⟨_, execPcieReset_within s⟩
  | .pcieFlr fn => ⟨_, execPcieFlr_within fn s⟩
  | .pcieFlrDone fn => ⟨_, execPcieFlrDone_within fn s⟩
  | .rwpWriteOpen ctx addr value => ⟨_, execRwpWriteOpen_within ctx addr value s⟩
  | .rwpComplete ctx addr value => ⟨_, execRwpComplete_within ctx addr value s⟩
  | .rwpWindowExpire ctx => ⟨_, execRwpWindowExpire_within ctx s⟩
  | .registerWrite ctx addr value => ⟨_, execRegisterWrite_within ctx addr value s⟩
  | .rcRegisterRead ctx addr => ⟨_, execRcRegisterRead_within ctx addr s⟩
  | .loHalfRead ctx addr => ⟨_, execLoHalfRead_within ctx addr s⟩
  | .prbsCounterLoRead ctx addr => ⟨_, execPrbsCounterLoRead_within ctx addr s⟩
  | .bar0Write ctx addr value whole => ⟨_, execBar0Write_within ctx addr value whole s⟩
  | .sqTailWrite ctx value => ⟨_, execSqTailWrite_within ctx value s⟩
  | .cqHeadWrite ctx value => ⟨_, execCqHeadWrite_within ctx value s⟩
  | .mgmtEntryRx ctx src index entry payload => ⟨_, execMgmtEntryRx_within ctx src index entry payload s⟩
  | .mgmtCqReadRx ctx src index => ⟨_, execMgmtCqReadRx_within ctx src index s⟩
  | .mgmtArpRx target asker => ⟨_, execMgmtArpRx_within target asker s⟩
  | .regWrite ctx entry payload readOk => ⟨_, execRegWrite_within ctx entry payload readOk s⟩
  | .tableWrite ctx entry payload readOk => ⟨_, execTableWrite_within ctx entry payload readOk s⟩
  | .memWrite ctx entry payload readOk => ⟨_, execMemWrite_within ctx entry payload readOk s⟩
  | .hurdlePost ctx entry => ⟨_, execHurdlePost_within ctx entry s⟩
  | .posePost ctx entry => ⟨_, execPosePost_within ctx entry s⟩
  | .tileService ctx entry => ⟨_, execTileService_within ctx entry s⟩
  | .flockOpen ctx entry => ⟨_, execFlockOpen_within ctx entry s⟩
  | .flockCall ctx entry => ⟨_, execFlockCall_within ctx entry s⟩
  | .flockCancel ctx entry => ⟨_, execFlockCancel_within ctx entry s⟩
  | .flockQuery ctx entry => ⟨_, execFlockQuery_within ctx entry s⟩
  | .txbegin ctx entry => ⟨_, execTxbegin_within ctx entry s⟩
  | .txend ctx entry => ⟨_, execTxend_within ctx entry s⟩
  | .txabort ctx entry => ⟨_, execTxabort_within ctx entry s⟩
  | .tunnel ctx entry payload readOk => ⟨_, execTunnel_within ctx entry payload readOk s⟩
  | .regRead ctx entry pads => ⟨_, execRegRead_within ctx entry pads s⟩
  | .memRead ctx entry => ⟨_, execMemRead_within ctx entry s⟩
  | .ticketQuery ctx entry => ⟨_, execTicketQuery_within ctx entry s⟩
  | .ticketAccept ctx => ⟨_, execTicketAccept_within ctx s⟩
  | .ticketExecute ctx => ⟨_, execTicketExecute_within ctx s⟩
  | .tunnelCmdRx payload => ⟨_, execTunnelCmdRx_within payload s⟩
  | .tunnelReplyRx payload => ⟨_, execTunnelReplyRx_within payload s⟩
  | .replyAckRx payload => ⟨_, execReplyAckRx_within payload s⟩
  | .replyRepeatTimer seq => ⟨_, execReplyRepeatTimer_within seq s⟩
  | .mirrorRecordRx record payload => ⟨_, execMirrorRecordRx_within record payload s⟩
  | .mirrorAckRx ctx ticket => ⟨_, execMirrorAckRx_within ctx ticket s⟩
  | .mirrorAckTimeout => ⟨_, execMirrorAckTimeout_within s⟩
  | .dprxHpdIrq rx => ⟨_, execDprxHpdIrq_within rx s⟩
  | .dpLinkTrained rx rate lanes => ⟨_, execDpLinkTrained_within rx rate lanes s⟩
  | .dpLinkLoss rx => ⟨_, execDpLinkLoss_within rx s⟩
  | .sourceFrameStart src id => ⟨_, execSourceFrameStart_within src id s⟩
  | .sourceFrameComplete src f => ⟨_, execSourceFrameComplete_within src f s⟩
  | .ctLineWritten src line planes => ⟨_, execCtLineWritten_within src line planes s⟩
  | .st2110PacketRx p => ⟨_, execSt2110PacketRx_within p s⟩
  | .igmpReportTimer flow => ⟨_, execIgmpReportTimer_within flow s⟩
  | .igmpQueryRx port group => ⟨_, execIgmpQueryRx_within port group s⟩
  | .layerLatch layer => ⟨_, execLayerLatch_within layer s⟩
  | .layerCellSend layer => ⟨_, execLayerCellSend_within layer s⟩
  | .layerAddrCommit layer value => ⟨_, execLayerAddrCommit_within layer value s⟩
  | .layerClipWrite layer value => ⟨_, execLayerClipWrite_within layer value s⟩
  | .faRecordRx record => ⟨_, execFaRecordRx_within record s⟩
  | .portEnable port => ⟨_, execPortEnable_within port s⟩
  | .portDisable port => ⟨_, execPortDisable_within port s⟩
  | .trainingFrameRx lane control status comp inverted => ⟨_, execTrainingFrameRx_within lane control status comp inverted s⟩
  | .detectComplete port => ⟨_, execDetectComplete_within port s⟩
  | .trainReady port adapt => ⟨_, execTrainReady_within port adapt s⟩
  | .trainEnd port => ⟨_, execTrainEnd_within port s⟩
  | .trainTimeout port => ⟨_, execTrainTimeout_within port s⟩
  | .alignComplete port arrivals => ⟨_, execAlignComplete_within port arrivals s⟩
  | .alignTimeout port => ⟨_, execAlignTimeout_within port s⟩
  | .checkTxTimer port => ⟨_, execCheckTxTimer_within port s⟩
  | .ident port block => ⟨_, execIdent_within port block s⟩
  | .cap port block => ⟨_, execCap_within port block s⟩
  | .confirm port block => ⟨_, execConfirm_within port block s⟩
  | .checkComplete port => ⟨_, execCheckComplete_within port s⟩
  | .checkTimeout port => ⟨_, execCheckTimeout_within port s⟩
  | .confirmTxEnd port => ⟨_, execConfirmTxEnd_within port s⟩
  | .laneLos lane => ⟨_, execLaneLos_within lane s⟩
  | .markerRx lane marker ppm peak h1 => ⟨_, execMarkerRx_within lane marker ppm peak h1 s⟩
  | .codewordRx lane symbols => ⟨_, execCodewordRx_within lane symbols s⟩
  | .idleBlockRx port run block => ⟨_, execIdleBlockRx_within port run block s⟩
  | .faultHoldoffExpire port => ⟨_, execFaultHoldoffExpire_within port s⟩
  | .portRetrain port => ⟨_, execPortRetrain_within port s⟩
  | .portClear port => ⟨_, execPortClear_within port s⟩
  | .laneTestSelect lane gen chk loopback => ⟨_, execLaneTestSelect_within lane gen chk loopback s⟩
  | .prbsClear lane => ⟨_, execPrbsClear_within lane s⟩
  | .injectGo lane => ⟨_, execInjectGo_within lane s⟩
  | .injectRateTick lane => ⟨_, execInjectRateTick_within lane s⟩
  | .cellRx port cell => ⟨_, execCellRx_within port cell s⟩
  | .gapWaitExpire stream src => ⟨_, execGapWaitExpire_within stream src s⟩
  | .ringEnumerate => ⟨_, execRingEnumerate_within s⟩
  | .enum port body => ⟨_, execEnum_within port body s⟩
  | .enumWaveTimeout => ⟨_, execEnumWaveTimeout_within s⟩
  | .report port payload => ⟨_, execReport_within port payload s⟩
  | .joinRequestTimer => ⟨_, execJoinRequestTimer_within s⟩
  | .request port payload => ⟨_, execRequest_within port payload s⟩
  | .assign payload => ⟨_, execAssign_within payload s⟩
  | .tileHealthTimeout serial => ⟨_, execTileHealthTimeout_within serial s⟩
  | .wallTimer => ⟨_, execWallTimer_within s⟩
  | .wall payload => ⟨_, execWall_within payload s⟩
  | .authority payload => ⟨_, execAuthority_within payload s⟩
  | .windowReset payload => ⟨_, execWindowReset_within payload s⟩
  | .helloTimer => ⟨_, execHelloTimer_within s⟩
  | .hello port h => ⟨_, execHello_within port h s⟩
  | .electionTimeout => ⟨_, execElectionTimeout_within s⟩
  | .copyAckRx tally => ⟨_, execCopyAckRx_within tally s⟩
  | .copyAckTimeout => ⟨_, execCopyAckTimeout_within s⟩
  | .digestSend stream frame => ⟨_, execDigestSend_within stream frame s⟩
  | .digestRx entry => ⟨_, execDigestRx_within entry s⟩
  | .headLossTimeout => ⟨_, execHeadLossTimeout_within s⟩
  | .takeoverDecide flock => ⟨_, execTakeoverDecide_within flock s⟩
  | .demotedRecover => ⟨_, execDemotedRecover_within s⟩
  | .resyncCopyRx part => ⟨_, execResyncCopyRx_within part s⟩
  | .resyncComplete => ⟨_, execResyncComplete_within s⟩
  | .handbackCleanElapsed => ⟨_, execHandbackCleanElapsed_within s⟩
  | .handback => ⟨_, execHandback_within s⟩
  | .ringHandover => ⟨_, execRingHandover_within s⟩
  | .ringClear => ⟨_, execRingClear_within s⟩
  | .keyxTimer port => ⟨_, execKeyxTimer_within port s⟩
  | .keyx port body => ⟨_, execKeyx_within port body s⟩
  | .keyconf port body => ⟨_, execKeyconf_within port body s⟩
  | .timeCapture => ⟨_, execTimeCapture_within s⟩
  | .timeRelock => ⟨_, execTimeRelock_within s⟩
  | .timeClear => ⟨_, execTimeClear_within s⟩
  | .timeSetWrite value => ⟨_, execTimeSetWrite_within value s⟩
  | .timeCellTimer port => ⟨_, execTimeCellTimer_within port s⟩
  | .timeCellRx port cell => ⟨_, execTimeCellRx_within port cell s⟩
  | .pdelayTimer port => ⟨_, execPdelayTimer_within port s⟩
  | .pdreq port body => ⟨_, execPdreq_within port body s⟩
  | .pdresp port body => ⟨_, execPdresp_within port body s⟩
  | .pdrespTimeout port => ⟨_, execPdrespTimeout_within port s⟩
  | .ppsEdge rising => ⟨_, execPpsEdge_within rising s⟩
  | .ppsTimeout => ⟨_, execPpsTimeout_within s⟩
  | .ptpAnnounceTimeout => ⟨_, execPtpAnnounceTimeout_within s⟩
  | .ptpSyncRx m => ⟨_, execPtpSyncRx_within m s⟩
  | .ptpAnnounceRx m => ⟨_, execPtpAnnounceRx_within m s⟩
  | .ptpDelayRespRx seq rx => ⟨_, execPtpDelayRespRx_within seq rx s⟩
  | .ptpPdelayReqRx seq requester => ⟨_, execPtpPdelayReqRx_within seq requester s⟩
  | .ptpDelayReqTimer => ⟨_, execPtpDelayReqTimer_within s⟩
  | .ptpMasterTxTimer announce => ⟨_, execPtpMasterTxTimer_within announce s⟩
  | .swapInstant bad => ⟨_, execSwapInstant_within bad s⟩
  | .slotStart => ⟨_, execSlotStart_within s⟩
  | .alarmArm a => ⟨_, execAlarmArm_within a s⟩
  | .alarmFire a => ⟨_, execAlarmFire_within a s⟩
  | .alarmPulseEnd a => ⟨_, execAlarmPulseEnd_within a s⟩
  | .flockOpenRx payload => ⟨_, execFlockOpenRx_within payload s⟩
  | .stagedWriteRx payload => ⟨_, execStagedWriteRx_within payload s⟩
  | .flockOpenTimeout flock => ⟨_, execFlockOpenTimeout_within flock s⟩
  | .callMsg payload bad => ⟨_, execCallMsg_within payload bad s⟩
  | .voteSend flock bad => ⟨_, execVoteSend_within flock bad s⟩
  | .voteDeadline flock bad => ⟨_, execVoteDeadline_within flock bad s⟩
  | .vote payload => ⟨_, execVote_within payload s⟩
  | .voteGraceExpire flock => ⟨_, execVoteGraceExpire_within flock s⟩
  | .commitMsg payload bad => ⟨_, execCommitMsg_within payload bad s⟩
  | .abortMsg payload bad => ⟨_, execAbortMsg_within payload bad s⟩
  | .flockGuardDeadline flock => ⟨_, execFlockGuardDeadline_within flock s⟩
  | .ack payload => ⟨_, execAck_within payload s⟩
  | .flockRecordExpire flock => ⟨_, execFlockRecordExpire_within flock s⟩
  | .txBoundaryApply ctx => ⟨_, execTxBoundaryApply_within ctx s⟩
  | .txOpenTimeout ctx => ⟨_, execTxOpenTimeout_within ctx s⟩
  | .flockClear => ⟨_, execFlockClear_within s⟩
  | .staleClr => ⟨_, execStaleClr_within s⟩
  | .frameLatch bad => ⟨_, execFrameLatch_within bad s⟩
  | .slotLatch => ⟨_, execSlotLatch_within s⟩
  | .hurdle payload tally => ⟨_, execHurdle_within payload tally s⟩
  | .hurdleRepeatTimer => ⟨_, execHurdleRepeatTimer_within s⟩
  | .pose payload tally => ⟨_, execPose_within payload tally s⟩
  | .poseRepeatTimer => ⟨_, execPoseRepeatTimer_within s⟩
  | .corrClear => ⟨_, execCorrClear_within s⟩
  | .pushDeadline => ⟨_, execPushDeadline_within s⟩
  | .lsyncEdge group => ⟨_, execLsyncEdge_within group s⟩
  | .lineBufferFill port err => ⟨_, execLineBufferFill_within port err s⟩
  | .lampFrameStart port => ⟨_, execLampFrameStart_within port s⟩
  | .lampFrameSent port mismatch => ⟨_, execLampFrameSent_within port mismatch s⟩
  | .swap => ⟨_, execSwap_within s⟩
  | .statusResp port codes => ⟨_, execStatusResp_within port codes s⟩
  | .statusReadTimeout port => ⟨_, execStatusReadTimeout_within port s⟩
  | .blank group => ⟨_, execBlank_within group s⟩
  | .driverProgram group => ⟨_, execDriverProgram_within group s⟩
  | .timingHoldResume group => ⟨_, execTimingHoldResume_within group s⟩
  | .timingHoldBlack group => ⟨_, execTimingHoldBlack_within group s⟩
  | .lampRefreshExpire => ⟨_, execLampRefreshExpire_within s⟩
  | .fullRefresh => ⟨_, execFullRefresh_within s⟩
  | .lampClear => ⟨_, execLampClear_within s⟩
  | .diagRoundStart => ⟨_, execDiagRoundStart_within s⟩
  | .diagReadEnd => ⟨_, execDiagReadEnd_within s⟩
  | .diagProbe => ⟨_, execDiagProbe_within s⟩
  | .foldEnable fold value => ⟨_, execFoldEnable_within fold value s⟩
  | .activate fold => ⟨_, execActivate_within fold s⟩
  | .restart fold => ⟨_, execRestart_within fold s⟩
  | .stop fold => ⟨_, execStop_within fold s⟩
  | .foldClear fold => ⟨_, execFoldClear_within fold s⟩
  | .foldRunComplete fold => ⟨_, execFoldRunComplete_within fold s⟩
  | .pipelineItemDone fold err => ⟨_, execPipelineItemDone_within fold err s⟩
  | .pacingWindow fold upset => ⟨_, execPacingWindow_within fold upset s⟩
  | .waittExpire fold => ⟨_, execWaittExpire_within fold s⟩
  | .pauseEnd fold => ⟨_, execPauseEnd_within fold s⟩
  | .nop fold => ⟨_, execNop_within fold s⟩
  | .add fold => ⟨_, execAdd_within fold s⟩
  | .sub fold => ⟨_, execSub_within fold s⟩
  | .andR fold => ⟨_, execAndR_within fold s⟩
  | .orR fold => ⟨_, execOrR_within fold s⟩
  | .xorR fold => ⟨_, execXorR_within fold s⟩
  | .shl fold => ⟨_, execShl_within fold s⟩
  | .shr fold => ⟨_, execShr_within fold s⟩
  | .sar fold => ⟨_, execSar_within fold s⟩
  | .mul fold => ⟨_, execMul_within fold s⟩
  | .minR fold => ⟨_, execMinR_within fold s⟩
  | .maxR fold => ⟨_, execMaxR_within fold s⟩
  | .cmp fold => ⟨_, execCmp_within fold s⟩
  | .addi fold => ⟨_, execAddi_within fold s⟩
  | .andi fold => ⟨_, execAndi_within fold s⟩
  | .ori fold => ⟨_, execOri_within fold s⟩
  | .xori fold => ⟨_, execXori_within fold s⟩
  | .shli fold => ⟨_, execShli_within fold s⟩
  | .shri fold => ⟨_, execShri_within fold s⟩
  | .sari fold => ⟨_, execSari_within fold s⟩
  | .cmpi fold => ⟨_, execCmpi_within fold s⟩
  | .get fold => ⟨_, execGet_within fold s⟩
  | .qset fold => ⟨_, execQset_within fold s⟩
  | .qget fold => ⟨_, execQget_within fold s⟩
  | .qisect fold => ⟨_, execQisect_within fold s⟩
  | .br fold => ⟨_, execBr_within fold s⟩
  | .ld fold => ⟨_, execLd_within fold s⟩
  | .st fold => ⟨_, execSt_within fold s⟩
  | .ldc fold => ⟨_, execLdc_within fold s⟩
  | .qld fold => ⟨_, execQld_within fold s⟩
  | .qst fold => ⟨_, execQst_within fold s⟩
  | .cull fold => ⟨_, execCull_within fold s⟩
  | .fetch fold => ⟨_, execFetch_within fold s⟩
  | .scale fold => ⟨_, execScale_within fold s⟩
  | .csc fold => ⟨_, execCsc_within fold s⟩
  | .blend fold => ⟨_, execBlend_within fold s⟩
  | .angle fold => ⟨_, execAngle_within fold s⟩
  | .correct fold => ⟨_, execCorrect_within fold s⟩
  | .crc fold => ⟨_, execCrc_within fold s⟩
  | .push fold => ⟨_, execPush_within fold s⟩
  | .patgen fold => ⟨_, execPatgen_within fold s⟩
  | .waitt fold => ⟨_, execWaitt_within fold s⟩
  | .waith fold => ⟨_, execWaith_within fold s⟩
  | .signal fold => ⟨_, execSignal_within fold s⟩
  | .pause fold => ⟨_, execPause_within fold s⟩
  | .yield fold => ⟨_, execYield_within fold s⟩
  | .kortyTxbegin fold => ⟨_, execKortyTxbegin_within fold s⟩
  | .kortyTxend fold => ⟨_, execKortyTxend_within fold s⟩
  | .flstage fold => ⟨_, execFlstage_within fold s⟩
  | .flvote fold => ⟨_, execFlvote_within fold s⟩
  | .tdone fold => ⟨_, execTdone_within fold s⟩
  | .trap fold => ⟨_, execTrap_within fold s⟩
  | .halt fold => ⟨_, execHalt_within fold s⟩
  | .scrubRead err => ⟨_, execScrubRead_within err s⟩
  | .correctedWriteback granule => ⟨_, execCorrectedWriteback_within granule s⟩
  | .memGrant ch reqs => ⟨_, execMemGrant_within ch reqs s⟩
  | .refreshDue ch => ⟨_, execRefreshDue_within ch s⟩
  | .memTrackTimer ch => ⟨_, execMemTrackTimer_within ch s⟩
  | .memClear => ⟨_, execMemClear_within s⟩
  | .logRearm => ⟨_, execLogRearm_within s⟩
  | .xingClear => ⟨_, execXingClear_within s⟩
  | .thermalModelUpdate power mv bad => ⟨_, execThermalModelUpdate_within power mv bad s⟩
  | .sensorSample kind temp => ⟨_, execSensorSample_within kind temp s⟩
  | .rateEval => ⟨_, execRateEval_within s⟩
  | .sensorFaultClear => ⟨_, execSensorFaultClear_within s⟩
  | .thresholdDwellExpire region state => ⟨_, execThresholdDwellExpire_within region state s⟩
  | .throttleTick region => ⟨_, execThrottleTick_within region s⟩
  | .tripRestart => ⟨_, execTripRestart_within s⟩
  | .throttleDivWrite div => ⟨_, execThrottleDivWrite_within div s⟩
  | .thermClear => ⟨_, execThermClear_within s⟩
  | .writeWindowOpen => ⟨_, execWriteWindowOpen_within s⟩
  | .writeDeferExpire => ⟨_, execWriteDeferExpire_within s⟩
  | .flashUnitDone ok => ⟨_, execFlashUnitDone_within ok s⟩
  | .calRun mask => ⟨_, execCalRun_within mask s⟩
  | .calRampStep unit elem up => ⟨_, execCalRampStep_within unit elem up s⟩
  | .calUnitDone unit fail => ⟨_, execCalUnitDone_within unit fail s⟩
  | .beginDl ctx => ⟨_, execBeginDl_within ctx s⟩
  | .cancelDl ctx => ⟨_, execCancelDl_within ctx s⟩
  | .calBegin ctx => ⟨_, execCalBegin_within ctx s⟩
  | .calCancel ctx => ⟨_, execCalCancel_within ctx s⟩
  | .activatePrepare flock => ⟨_, execActivatePrepare_within flock s⟩
  | .activationReset => ⟨_, execActivationReset_within s⟩
  | .bootConfirm ctx version => ⟨_, execBootConfirm_within ctx version s⟩
  | .confirmWindowExpire => ⟨_, execConfirmWindowExpire_within s⟩
  | .lcTransition ctx target => ⟨_, execLcTransition_within ctx target s⟩
  | .secRevoke ctx slots => ⟨_, execSecRevoke_within ctx slots s⟩
  | .attestGo kind => ⟨_, execAttestGo_within kind s⟩
  | .attestDone => ⟨_, execAttestDone_within s⟩
  | .lbGo clearOk => ⟨_, execLbGo_within clearOk s⟩
  | .mbGo clearOk => ⟨_, execMbGo_within clearOk s⟩
  | .bistAbort => ⟨_, execBistAbort_within s⟩
  | .bistClear => ⟨_, execBistClear_within s⟩
  | .jtagScanEntry clearOk => ⟨_, execJtagScanEntry_within clearOk s⟩
  | .bistPrecondSample => ⟨_, execBistPrecondSample_within s⟩
  | .lbistPartitionDone misr clearOk => ⟨_, execLbistPartitionDone_within misr clearOk s⟩
  | .mbistInstanceDone failure clearOk => ⟨_, execMbistInstanceDone_within failure clearOk s⟩
  | .onlineBistWindow => ⟨_, execOnlineBistWindow_within s⟩
  | .onlineBistGapStart => ⟨_, execOnlineBistGapStart_within s⟩
  | .healthReportTimer => ⟨_, execHealthReportTimer_within s⟩
  | .health addr payload => ⟨_, execHealth_within addr payload s⟩
  | .gpioCfgWrite pin value => ⟨_, execGpioCfgWrite_within pin value s⟩
  | .ptpPdelayRespRx seq t2 t3 => ⟨_, execPtpPdelayRespRx_within seq t2 t3 s⟩
  | .returnLanePhaseAlign port => ⟨_, execReturnLanePhaseAlign_within port s⟩
  | .prbsCheckerLock lane symbols => ⟨_, execPrbsCheckerLock_within lane symbols s⟩
  | .dprxAuxRequest rx req => ⟨_, execDprxAuxRequest_within rx req s⟩
  | .pcieLinkUp => ⟨_, execPcieLinkUp_within s⟩
  | .stflowReceivingLapse flow => ⟨_, execStflowReceivingLapse_within flow s⟩
  | .lsyncPulseEnd group mismatch => ⟨_, execLsyncPulseEnd_within group mismatch s⟩

/-- A step changes parts that some lemma names: those of the front command, or those of the passing of time. -/
theorem step_within {s t : State} (h : step s = .next t) : ∃ ps rest, Within ps { s with pending := rest } t := by
  rw [step] at h
  split at h
  · obtain rfl := Host.Outcome.next.inj h
    exact ⟨_, s.pending, s.idle_within⟩
  · obtain ⟨ps, hwithin⟩ := exec_within _ _
    exact ⟨ps, _, hwithin.of_next h⟩

/-- Settles O59: the queue of commands is no part of the shape, and what a step then does keeps it. -/
theorem stepKeepsTheShape : Obligations.StepKeepsTheShape := by
  unfold Obligations.StepKeepsTheShape
  intro s t hshaped hstep
  obtain ⟨_, _, -, -, hkeeps⟩ := step_within hstep
  exact hkeeps hshaped

/-! ### Frames of the fold commands -/

/-- Settles O50: each command of the chapters is within its list by the lemma of Laws/WithinFold.lean or WithinPipe.lean about its
meaning. -/
theorem foldFrames : Obligations.FoldFrames := by
  unfold Obligations.FoldFrames
  simp only [List.forall_mem_cons, List.not_mem_nil, false_implies, implies_true, and_true]
  refine ⟨fun fold value => ⟨?_, ?_⟩, fun fold => ?_, fun fold => ⟨?_, ?_⟩, fun fold upset => ?_, fun fold => ?_, fun fold err => ?_,
    fun fold => ⟨?_, ?_, ?_, ?_, ?_, ?_, ?_, ?_, ?_, ?_, ?_, ?_, ?_, ?_, ?_, ?_, ?_, ?_, ?_, ?_,
      ?_, ?_, ?_, ?_, ?_, ?_, ?_, ?_, ?_, ?_, ?_, ?_, ?_, ?_, ?_, ?_, ?_, ?_, ?_, ?_, ?_, ?_, ?_⟩,
    fun fold => ⟨?_, ?_, ?_, ?_, ?_, ?_, ?_, ?_, ?_, ?_⟩, fun fold => ⟨?_, ?_⟩⟩
  · exact changesOnly_of_within (fun _ => rfl) (execFoldEnable_within fold value)
  · exact changesOnly_of_within (fun _ => rfl) (execActivate_within fold)
  · exact changesOnly_of_within (fun _ => rfl) (execFoldClear_within fold)
  · exact changesOnly_of_within (fun _ => rfl) (execRestart_within fold)
  · exact changesOnly_of_within (fun _ => rfl) (execStop_within fold)
  · exact changesOnly_of_within (fun _ => rfl) (execPacingWindow_within fold upset)
  · exact changesOnly_of_within (fun _ => rfl) (execFoldRunComplete_within fold)
  · exact changesOnly_of_within (fun _ => rfl) (execPipelineItemDone_within fold err)
  · exact changesOnly_of_within (fun _ => rfl) (execWaittExpire_within fold)
  · exact changesOnly_of_within (fun _ => rfl) (execPauseEnd_within fold)
  · exact changesOnly_of_within (fun _ => rfl) (execNop_within fold)
  · exact changesOnly_of_within (fun _ => rfl) (execAdd_within fold)
  · exact changesOnly_of_within (fun _ => rfl) (execSub_within fold)
  · exact changesOnly_of_within (fun _ => rfl) (execAndR_within fold)
  · exact changesOnly_of_within (fun _ => rfl) (execOrR_within fold)
  · exact changesOnly_of_within (fun _ => rfl) (execXorR_within fold)
  · exact changesOnly_of_within (fun _ => rfl) (execShl_within fold)
  · exact changesOnly_of_within (fun _ => rfl) (execShr_within fold)
  · exact changesOnly_of_within (fun _ => rfl) (execSar_within fold)
  · exact changesOnly_of_within (fun _ => rfl) (execMul_within fold)
  · exact changesOnly_of_within (fun _ => rfl) (execMinR_within fold)
  · exact changesOnly_of_within (fun _ => rfl) (execMaxR_within fold)
  · exact changesOnly_of_within (fun _ => rfl) (execCmp_within fold)
  · exact changesOnly_of_within (fun _ => rfl) (execAddi_within fold)
  · exact changesOnly_of_within (fun _ => rfl) (execAndi_within fold)
  · exact changesOnly_of_within (fun _ => rfl) (execOri_within fold)
  · exact changesOnly_of_within (fun _ => rfl) (execXori_within fold)
  · exact changesOnly_of_within (fun _ => rfl) (execShli_within fold)
  · exact changesOnly_of_within (fun _ => rfl) (execShri_within fold)
  · exact changesOnly_of_within (fun _ => rfl) (execSari_within fold)
  · exact changesOnly_of_within (fun _ => rfl) (execCmpi_within fold)
  · exact changesOnly_of_within (fun _ => rfl) (execGet_within fold)
  · exact changesOnly_of_within (fun _ => rfl) (execQset_within fold)
  · exact changesOnly_of_within (fun _ => rfl) (execQget_within fold)
  · exact changesOnly_of_within (fun _ => rfl) (execQisect_within fold)
  · exact changesOnly_of_within (fun _ => rfl) (execBr_within fold)
  · exact changesOnly_of_within (fun _ => rfl) (execLd_within fold)
  · exact changesOnly_of_within (fun _ => rfl) (execSt_within fold)
  · exact changesOnly_of_within (fun _ => rfl) (execLdc_within fold)
  · exact changesOnly_of_within (fun _ => rfl) (execQld_within fold)
  · exact changesOnly_of_within (fun _ => rfl) (execQst_within fold)
  · exact changesOnly_of_within (fun _ => rfl) (execWaitt_within fold)
  · exact changesOnly_of_within (fun _ => rfl) (execWaith_within fold)
  · exact changesOnly_of_within (fun _ => rfl) (execSignal_within fold)
  · exact changesOnly_of_within (fun _ => rfl) (execPause_within fold)
  · exact changesOnly_of_within (fun _ => rfl) (execYield_within fold)
  · exact changesOnly_of_within (fun _ => rfl) (execKortyTxbegin_within fold)
  · exact changesOnly_of_within (fun _ => rfl) (execKortyTxend_within fold)
  · exact changesOnly_of_within (fun _ => rfl) (execTdone_within fold)
  · exact changesOnly_of_within (fun _ => rfl) (execTrap_within fold)
  · exact changesOnly_of_within (fun _ => rfl) (execHalt_within fold)
  · exact changesOnly_of_within (fun _ => rfl) (execCull_within fold)
  · exact changesOnly_of_within (fun _ => rfl) (execFetch_within fold)
  · exact changesOnly_of_within (fun _ => rfl) (execScale_within fold)
  · exact changesOnly_of_within (fun _ => rfl) (execCsc_within fold)
  · exact changesOnly_of_within (fun _ => rfl) (execBlend_within fold)
  · exact changesOnly_of_within (fun _ => rfl) (execAngle_within fold)
  · exact changesOnly_of_within (fun _ => rfl) (execCorrect_within fold)
  · exact changesOnly_of_within (fun _ => rfl) (execCrc_within fold)
  · exact changesOnly_of_within (fun _ => rfl) (execPush_within fold)
  · exact changesOnly_of_within (fun _ => rfl) (execPatgen_within fold)
  · exact changesOnly_of_within (fun _ => rfl) (execFlstage_within fold)
  · exact changesOnly_of_within (fun _ => rfl) (execFlvote_within fold)

/-! ### A GPIO write that takes another pin's alarm (R600) -/

/-- A write that would give an alarm a second owner fails and is logged (R472, R600). -/
theorem exec_gpioCfgWrite_taken {s : State} {pin : Fin 16} {value : Nat} (hup : s.pwr.up = true)
    (hcodes : resvBad (fieldsAt (F.GPIOk_CFG_FUNC.addr pin 0)) value = false) (htaken : s.alarmTaken pin value = true) :
    exec (.gpioCfgWrite pin value) s = .next (s.logConflict (1, bits value 4 5) 0 false) := by
  show execGpioCfgWrite pin value s = _
  rw [execGpioCfgWrite, hup, hcodes, htaken, Bool.not_true, Bool.or_self, if_neg Bool.false_ne_true, if_pos rfl]

/-- A tile whose GPIO pin 1 is the output of alarm 0. -/
def alarmPinTile : State := Tests.upTile.put F.GPIOk_CFG_FUNC 2 1

/-- Refutes O53: its clause on GPIO_CFG_WRITE has the write change no register but the pin's own. A write that gives the pin an alarm of
another pin is refused, and XING_CONFLICTS counts it (R472, R600): here from 0 to 1. -/
theorem not_registersKept : ¬ Obligations.RegistersKept := by
  unfold Obligations.RegistersKept
  intro h
  repeat obtain ⟨-, h⟩ := h
  obtain ⟨t, hnext, hkept⟩ := h 0 2 alarmPinTile
  rw [exec_gpioCfgWrite_taken (by decide +kernel) (by decide +kernel) (by decide +kernel), Host.Outcome.next.injEq] at hnext
  have hbefore : (alarmPinTile.reg (F.XING_CONFLICTS.addr 0 0)).getLsbD 0 = false := by decide +kernel
  have hafter : ((alarmPinTile.logConflict (1, bits 2 4 5) 0 false).reg (F.XING_CONFLICTS.addr 0 0)).getLsbD 0 = true := by
    decide +kernel
  have hsame := hkept (F.XING_CONFLICTS.addr 0 0) 0 (by decide)
  rw [← hnext, hbefore, hafter] at hsame
  exact absurd hsame.symm Bool.false_ne_true

end Sys2Proof.Machine
end

section
/-! PROOFS. Rules for a fold (spec/10_korty_model.md): what each operation on a fold leaves in the fold's record, in its registers and in
the other folds, what a fault and the end of a run leave, and an instruction that stands at the PC. -/
set_option Elab.async false
namespace Sys2Proof.Machine

/-! ### The record of a fold after an update -/

/-- What a function leaves of every element, an update by it at one place leaves of each. -/
theorem nth_modAt_keeps {α β : Type} (q : α → β) {f : α → α} (hf : ∀ x, q (f x) = q x) (l : List α) (k j : Nat) (d : α) :
    q (nth (modAt l k f) j d) = q (nth l j d) := by
  induction l generalizing k j with
  | nil => rfl
  | cons x xs ih =>
    cases k with
    | zero => cases j with
      | zero => exact hf x
      | succ j => rfl
    | succ k => cases j with
      | zero => rfl
      | succ j => exact ih k j

theorem State.fold_onFold_same {s : State} {n : Nat} (f : Fold → Fold) (h : n < s.folds.length) :
    (s.onFold n f).fold n = f (s.fold n) := nth_modAt_same _ _ _ _ h

theorem State.fold_onFold_ne (s : State) {n m : Nat} (f : Fold → Fold) (h : m ≠ n) : (s.onFold n f).fold m = s.fold m :=
  nth_modAt_ne _ _ _ _ _ h

theorem State.fold_onFold_keeps {β : Type} (q : Fold → β) {f : Fold → Fold} (hf : ∀ x, q (f x) = q x) (s : State) (n m : Nat) :
    q ((s.onFold n f).fold m) = q (s.fold m) := nth_modAt_keeps q hf _ _ _ _

theorem State.fold_congr {s t : State} (h : s.folds = t.folds) (n : Nat) : s.fold n = t.fold n := by rw [State.fold, State.fold, h]

@[simp] theorem State.onFold_length (s : State) (n : Nat) (f : Fold → Fold) : (s.onFold n f).folds.length = s.folds.length :=
  modAt_length ..

@[simp] theorem State.put_fold (s : State) (f : Fld) (v i j n : Nat) : (s.put f v i j).fold n = s.fold n := rfl
@[simp] theorem State.flag_fold (s : State) (f : Fld) (v : Bool) (i j n : Nat) : (s.flag f v i j).fold n = s.fold n := rfl
@[simp] theorem State.inc_fold (s : State) (f : Fld) (i j n : Nat) : (s.inc f i j).fold n = s.fold n := rfl
@[simp] theorem State.tickFresh_fold (s : State) (n : Nat) : s.tickFresh.fold n = s.fold n := rfl
@[simp] theorem State.onBist_fold (s : State) (g : Bist → Bist) (n : Nat) : (s.onBist g).fold n = s.fold n := rfl
@[simp] theorem State.noteFault_fold (s : State) (n : Nat) : s.noteFault.fold n = s.fold n := rfl
@[simp] theorem State.noteFault_folds (s : State) : s.noteFault.folds = s.folds := rfl
@[simp] theorem State.irqAll_fold (s : State) (f : Fld) (n : Nat) : (s.irqAll f).fold n = s.fold n :=
  State.fold_congr (State.irqAll_within ..).same_folds n

/-! ### Fields of the folds' registers -/

/-- Both fields stand in the pages of the folds, and a write of `f` for any fold leaves `g` of every fold: they are fields of different
registers, or do not overlap. -/
abbrev besideFld (g f : Fld) : Prop :=
  g.s1 = 0x40000 ∧ g.s2 = 0 ∧ f.s1 = 0x40000 ∧ f.s2 = 0 ∧ f.lo + f.w ≤ 32 ∧
    (g.base % 0x40000 ≠ f.base % 0x40000 ∨ g.lo + g.w ≤ f.lo ∨ f.lo + f.w ≤ g.lo)

theorem State.f_put_beside {g f : Fld} (h : besideFld g f) (s : State) (v n m : Nat) : (s.put f v n).f g m = s.f g m := by
  obtain ⟨hg, hg2, hf, hf2, hw, h⟩ := h
  refine s.f_put_other v hw (h.imp_left fun hbase => ?_)
  rw [Fld.addr, Fld.addr, hg, hg2, hf, hf2]
  omega

theorem State.b_put_beside {g f : Fld} (h : besideFld g f) (s : State) (v n m : Nat) : (s.put f v n).b g m = s.b g m := by
  rw [State.b, State.f_put_beside h, State.b]

theorem State.inRun_put {f : Fld} (h : besideFld F.FOLDn_STATUS_IN_RUN f) (s : State) (v n m : Nat) :
    (s.put f v n).inRun m = s.inRun m := State.b_put_beside h s v n m

@[simp] theorem State.onFold_f (s : State) (n : Nat) (f : Fold → Fold) (g : Fld) (i j : Nat) : (s.onFold n f).f g i j = s.f g i j := rfl
@[simp] theorem State.onFold_b (s : State) (n : Nat) (f : Fold → Fold) (g : Fld) (i j : Nat) : (s.onFold n f).b g i j = s.b g i j := rfl
@[simp] theorem State.onFold_inRun (s : State) (n : Nat) (f : Fold → Fold) (m : Nat) : (s.onFold n f).inRun m = s.inRun m := rfl

@[simp] theorem State.onBist_f (s : State) (g : Bist → Bist) (f : Fld) (i j : Nat) : (s.onBist g).f f i j = s.f f i j := rfl
@[simp] theorem State.noteFault_f (s : State) (f : Fld) (i j : Nat) : s.noteFault.f f i j = s.f f i j := rfl

/-- The cause registers of the contexts stand at 0x038 of their pages, where the folds' pages have none of these fields. -/
theorem State.irqAll_fold_f {g : Fld} (hpage : g.s1 = 0x40000) (hpage2 : g.s2 = 0) (hbase : g.base % 0x1000 ≠ 0x38) (s : State)
    (m : Nat) : (s.irqAll F.CTXn_IRQ_CAUSE_FOLD).f g m = s.f g m :=
  State.f_congr (State.each_keeps (fun t : State => t.reg (g.addr m 0)) _ _ s fun x c =>
    x.irq_reg _ c (by rw [Fld.addr, Fld.addr, hpage, hpage2]; simp only [F.CTXn_IRQ_CAUSE_FOLD]; omega))

/-! ### Waits (R360, R361, R363) -/

/-- The record of a fold without what the end of a wait changes. -/
def Fold.awake (f : Fold) : Fold :=
  { f with winIdle := 0, waitFrom := none, until_ := none, waitFlags := none, yieldTo := none, v := false }

theorem State.unwait_awake (s : State) (n m : Nat) : ((s.unwait n).fold m).awake = (s.fold m).awake :=
  State.fold_onFold_keeps Fold.awake (by intro f; rfl) ..

theorem State.unwait_f {g : Fld} (h : besideFld g F.FOLDn_STATUS_WAIT) (s : State) (n m : Nat) : (s.unwait n).f g m = s.f g m :=
  State.f_put_beside h s 0 n m

theorem State.unwait_length (s : State) (n : Nat) : (s.unwait n).folds.length = s.folds.length := State.onFold_length ..

theorem State.unwait_wait (s : State) (n : Nat) : (s.unwait n).f F.FOLDn_STATUS_WAIT n = 0 := State.f_put _ _ _ _ _ (by decide)

theorem State.each_induct {α : Type} {P : State → Prop} {f : State → α → State} (hf : ∀ x a, P x → P (f x a)) (l : List α) {s : State}
    (hs : P s) : P (s.each l f) :=
  List.foldlRecOn l f hs fun x hx a _ => hf x a hx

/-- Where a fold's flags are set or its run ends, the folds that await its flags go on with V set or clear, or wait on. -/
theorem State.wakeFlags_induct {P : State → Prop}
    (hP : ∀ x n v, P x → P ((State.unwait x n).onFold n fun f => { f with v := v })) {s : State} (hs : P s) (m : Nat) :
    P (s.wakeFlags m) := by
  refine State.each_induct (fun x n hx => ?_) (List.range 4) hs
  split
  · split
    · exact hx
    · split
      · exact hP x n false hx
      · split
        · exact hx
        · exact hP x n true hx
  · exact hx

theorem State.wakeFlags_keeps {β : Type} (q : State → β)
    (hq : ∀ x n v, q ((State.unwait x n).onFold n fun f => { f with v := v }) = q x) (s : State) (m : Nat) : q (s.wakeFlags m) = q s :=
  State.wakeFlags_induct (P := fun t => q t = q s) (fun x n v hx => (hq x n v).trans hx) rfl m

theorem State.wakeFlags_awake (s : State) (m n : Nat) : ((s.wakeFlags m).fold n).awake = (s.fold n).awake :=
  State.wakeFlags_keeps (fun t => (t.fold n).awake)
    (fun x k _ => (State.fold_onFold_keeps Fold.awake (by intro f; rfl) _ k n).trans (x.unwait_awake k n)) s m

theorem State.wakeFlags_f {g : Fld} (h : besideFld g F.FOLDn_STATUS_WAIT) (s : State) (m n : Nat) : (s.wakeFlags m).f g n = s.f g n :=
  State.wakeFlags_keeps (fun t => t.f g n) (fun x k _ => x.unwait_f h k n) s m

theorem State.wakeFlags_inRun (s : State) (m n : Nat) : (s.wakeFlags m).inRun n = s.inRun n := by
  rw [State.inRun, State.b, State.wakeFlags_f (by decide), State.inRun, State.b]

/-! ### The end of a run (R354, R356, R365) -/

/-- The record of a fold without what the end of a run changes: its waits, figures, queue, strips and transaction. -/
def Fold.rested (f : Fold) : Fold := { f.awake with idle := 0, winAt := 0, queue := [], strips := [], tx := none }

/-- The fields that the end of a run writes, beside FOLDn_STATUS.WAIT. -/
def reportFields : List Fld := [F.FOLDn_STEPS, F.FOLDn_IDLE, F.FOLDn_STATUS_TX_DISCARD, F.FOLDn_COMP_LAMPS,
  F.FOLDn_COMP_CULLED, F.FOLDn_COMP_FETCH, F.FOLDn_COMP_STATUS_SLOT, F.FOLDn_COMP_STATUS_BUSY, F.FOLDn_STATUS_IN_RUN]

def endRunFields : List Fld := F.FOLDn_STATUS_WAIT :: reportFields

/-- The state of a run that ends, before its figures are reported. -/
def State.runDown (s : State) (n : Nat) : State :=
  let s := (s.unwait n).endWindow n
  let s := if s.isHead then s.onRing fun r => { r with live := (r.live + 1) % 2 ^ 32 } else s
  s.onFold n fun f => { f with queue := [], strips := [none, none, none, none] }

/-- The figures of a run, reported at its end. -/
def State.reportRun (s : State) (n : Nat) : State :=
  let f := s.fold n
  let s := (s.put F.FOLDn_STEPS (min f.steps (2 ^ 32 - 1)) n).put F.FOLDn_IDLE (min f.idle (2 ^ 32 - 1)) n
  let s := if f.tx.isSome then (s.flag F.FOLDn_STATUS_TX_DISCARD true n).onFold n fun f => { f with tx := none } else s
  let s := (s.put F.FOLDn_COMP_LAMPS (min f.lamps (2 ^ 32 - 1)) n).put F.FOLDn_COMP_CULLED (min f.culled (2 ^ 32 - 1)) n
  (s.put F.FOLDn_COMP_FETCH (min f.fetched (2 ^ 32 - 1)) n).put F.FOLDn_COMP_STATUS_SLOT f.slot n

theorem State.endRun_eq (s : State) (n : Nat) : s.endRun n =
    ((((s.runDown n).reportRun n).flag F.FOLDn_COMP_STATUS_BUSY false n).flag F.FOLDn_STATUS_IN_RUN false n).wakeFlags n := rfl

/-- What a function on states that the steps of a run's end leave keeps, the end of a run keeps. -/
theorem State.runDown_rested (s : State) (n m : Nat) : ((s.runDown n).fold m).rested = (s.fold m).rested := by
  unfold State.runDown
  extract_lets s1 s2
  have hring : s2.fold m = s1.fold m := by
    dsimp only [s2]
    split <;> rfl
  have hwindow : (s1.fold m).rested = ((s.unwait n).fold m).rested := State.fold_onFold_keeps Fold.rested (by intro f; rfl) _ n m
  have hwait : ((s.unwait n).fold m).rested = (s.fold m).rested := State.fold_onFold_keeps Fold.rested (by intro f; rfl) _ n m
  exact (State.fold_onFold_keeps Fold.rested (by intro f; rfl) _ n m).trans (by rw [hring, hwindow, hwait])

theorem State.reportRun_fold {β : Type} (q : Fold → β) (hq : ∀ f : Fold, q { f with tx := none } = q f) (s : State) (n m : Nat) :
    q ((s.reportRun n).fold m) = q (s.fold m) := by
  unfold State.reportRun
  extract_lets f s1 s2 s3
  have hlamps : s3.fold m = s2.fold m := by rw [State.put_fold, State.put_fold]
  rw [State.put_fold, State.put_fold, hlamps]
  dsimp only [s2]
  split
  · refine (State.fold_onFold_keeps q hq _ n m).trans ?_
    rw [State.flag_fold, State.put_fold, State.put_fold]
  · rw [State.put_fold, State.put_fold]

theorem State.reportRun_rested (s : State) (n m : Nat) : ((s.reportRun n).fold m).rested = (s.fold m).rested :=
  State.reportRun_fold Fold.rested (by intro f; rfl) s n m

theorem State.endRun_rested (s : State) (n m : Nat) : ((s.endRun n).fold m).rested = (s.fold m).rested := by
  rw [State.endRun_eq]
  have hwake := State.wakeFlags_awake
    ((((s.runDown n).reportRun n).flag F.FOLDn_COMP_STATUS_BUSY false n).flag F.FOLDn_STATUS_IN_RUN false n) n m
  rw [Fold.rested, hwake, State.flag_fold, State.flag_fold, ← Fold.rested, State.reportRun_rested, State.runDown_rested]

theorem State.runDown_f {g : Fld} (h : besideFld g F.FOLDn_STATUS_WAIT) (s : State) (n m : Nat) : (s.runDown n).f g m = s.f g m := by
  unfold State.runDown
  extract_lets s1 s2
  have hring : s2.f g m = s1.f g m := by
    dsimp only [s2]
    split <;> rfl
  exact hring.trans (s.unwait_f h n m)

theorem State.reportRun_f {g : Fld} (h : ∀ f ∈ reportFields, besideFld g f) (s : State) (n m : Nat) :
    (s.reportRun n).f g m = s.f g m := by
  unfold State.reportRun
  extract_lets f s1 s2 s3
  have hsteps : s1.f g m = s.f g m := by
    rw [State.f_put_beside (h F.FOLDn_IDLE (by decide)), State.f_put_beside (h F.FOLDn_STEPS (by decide))]
  have htx : s2.f g m = s1.f g m := by
    dsimp only [s2]
    split
    · rw [State.onFold_f, State.flag, State.f_put_beside (h F.FOLDn_STATUS_TX_DISCARD (by decide))]
    · rfl
  have hlamps : s3.f g m = s2.f g m := by
    rw [State.f_put_beside (h F.FOLDn_COMP_CULLED (by decide)), State.f_put_beside (h F.FOLDn_COMP_LAMPS (by decide))]
  rw [State.f_put_beside (h F.FOLDn_COMP_STATUS_SLOT (by decide)), State.f_put_beside (h F.FOLDn_COMP_FETCH (by decide)), hlamps, htx,
    hsteps]

/-- The end of a run leaves the fields beside its own. -/
theorem State.endRun_f {g : Fld} (h : ∀ f ∈ endRunFields, besideFld g f) (s : State) (n m : Nat) : (s.endRun n).f g m = s.f g m := by
  rw [State.endRun_eq]
  rw [State.wakeFlags_f (h F.FOLDn_STATUS_WAIT (by decide)), State.flag, State.f_put_beside (h F.FOLDn_STATUS_IN_RUN (by decide)),
    State.flag, State.f_put_beside (h F.FOLDn_COMP_STATUS_BUSY (by decide)), State.reportRun_f fun f hf => h f (List.mem_cons_of_mem _ hf),
    State.runDown_f (h F.FOLDn_STATUS_WAIT (by decide))]

/-- After its end a run is none. -/
theorem State.endRun_inRun (s : State) (n : Nat) : (s.endRun n).inRun n = false := by
  rw [State.endRun_eq, State.wakeFlags_inRun]
  exact State.b_flag _ _ _ _ _ (by decide) rfl

theorem State.reportRun_steps (s : State) (n : Nat) : (s.reportRun n).f F.FOLDn_STEPS n = min (s.fold n).steps (2 ^ 32 - 1) := by
  unfold State.reportRun
  extract_lets f s1 s2 s3
  have hsteps : s1.f F.FOLDn_STEPS n = min (s.fold n).steps (2 ^ 32 - 1) := by
    rw [State.f_put_beside (by decide), State.f_put _ _ _ _ _ (by decide)]
    exact Nat.mod_eq_of_lt (Nat.lt_of_le_of_lt (min_le_right _ _) (by decide))
  have htx : s2.f F.FOLDn_STEPS n = s1.f F.FOLDn_STEPS n := by
    dsimp only [s2]
    split
    · rw [State.onFold_f, State.flag, State.f_put_beside (by decide)]
    · rfl
  have hlamps : s3.f F.FOLDn_STEPS n = s2.f F.FOLDn_STEPS n := by
    rw [State.f_put_beside (by decide), State.f_put_beside (by decide)]
  rw [State.f_put_beside (by decide), State.f_put_beside (by decide), hlamps, htx, hsteps]

/-- The end of a run reports the instructions executed. -/
theorem State.endRun_steps (s : State) (n : Nat) : (s.endRun n).f F.FOLDn_STEPS n = min (s.fold n).steps (2 ^ 32 - 1) := by
  have hsteps := congrArg Fold.steps (s.runDown_rested n n)
  change ((s.runDown n).fold n).steps = (s.fold n).steps at hsteps
  rw [State.endRun_eq, State.wakeFlags_f (by decide), State.flag, State.f_put_beside (by decide), State.flag,
    State.f_put_beside (by decide), State.reportRun_steps, hsteps]

theorem State.runDown_length (s : State) (n : Nat) : (s.runDown n).folds.length = s.folds.length := by
  unfold State.runDown
  extract_lets s1 s2
  have hring : s2.folds = s1.folds := by
    dsimp only [s2]
    split <;> rfl
  rw [State.onFold_length, hring]
  exact (State.onFold_length ..).trans (State.onFold_length ..)

theorem State.reportRun_length (s : State) (n : Nat) : (s.reportRun n).folds.length = s.folds.length := by
  unfold State.reportRun
  extract_lets f s1 s2 s3
  have htx : s2.folds.length = s1.folds.length := by
    dsimp only [s2]
    split
    · rw [State.onFold_length, State.flag_folds]
    · rfl
  rw [State.put_folds, State.put_folds, State.put_folds, State.put_folds, htx, State.put_folds, State.put_folds]

theorem State.wakeFlags_length (s : State) (m : Nat) : (s.wakeFlags m).folds.length = s.folds.length :=
  State.wakeFlags_keeps (fun t => t.folds.length) (fun _ _ _ => (State.onFold_length ..).trans (State.onFold_length ..)) s m

theorem State.endRun_length (s : State) (n : Nat) : (s.endRun n).folds.length = s.folds.length := by
  rw [State.endRun_eq, State.wakeFlags_length, State.flag_folds, State.flag_folds, State.reportRun_length, State.runDown_length]

/-- The fold waits for no instant. -/
structure State.Waitless (s : State) (n : Nat) : Prop where
  lt : n < s.folds.length
  wait : s.f F.FOLDn_STATUS_WAIT n = 0
  until_ : (s.fold n).until_ = none

theorem State.unwait_waitless_same {s : State} {n : Nat} (hn : n < s.folds.length) : (s.unwait n).Waitless n := by
  refine ⟨by rw [State.unwait_length]; exact hn, s.unwait_wait n, ?_⟩
  rw [State.unwait, State.fold_onFold_same _ (by rwa [State.put_folds])]

/-- The end of another fold's wait leaves it so. -/
theorem State.unwait_waitless {s : State} {n : Nat} (h : s.Waitless n) (m : Nat) : (s.unwait m).Waitless n := by
  obtain rfl | hne := eq_or_ne n m
  · exact State.unwait_waitless_same h.lt
  · refine ⟨by rw [State.unwait_length]; exact h.lt, ?_, ?_⟩
    · rw [State.unwait, State.onFold_f, State.f_put_other _ _ (by decide) (.inl ?_), h.wait]
      simp only [Fld.addr, F.FOLDn_STATUS_WAIT]
      omega
    · rw [State.unwait, State.fold_onFold_ne _ _ hne, State.put_fold, h.until_]

theorem State.onFold_waitless {s : State} {n : Nat} (h : s.Waitless n) {g : Fold → Fold} (hg : ∀ f, (g f).until_ = f.until_) (m : Nat) :
    (s.onFold m g).Waitless n :=
  ⟨by rw [State.onFold_length]; exact h.lt, h.wait, (State.fold_onFold_keeps Fold.until_ hg s m n).trans h.until_⟩

theorem State.put_waitless {s : State} {n : Nat} (h : s.Waitless n) {f : Fld} (hf : besideFld F.FOLDn_STATUS_WAIT f) (v m : Nat) :
    (s.put f v m).Waitless n :=
  ⟨by rw [State.put_folds]; exact h.lt, by rw [State.f_put_beside hf, h.wait], by rw [State.put_fold, h.until_]⟩

theorem State.runDown_waitless {s : State} {n : Nat} (hn : n < s.folds.length) : (s.runDown n).Waitless n := by
  unfold State.runDown
  extract_lets s1 s2
  have hfree := State.unwait_waitless_same hn
  have hwindow : s1.Waitless n :=
    State.onFold_waitless (s := (s.unwait n).tickFresh) ⟨hfree.lt, hfree.wait, hfree.until_⟩ (by intro f; rfl) n
  have hring : s2.Waitless n := by
    dsimp only [s2]
    split
    · exact ⟨hwindow.lt, hwindow.wait, hwindow.until_⟩
    · exact hwindow
  exact State.onFold_waitless hring (by intro f; rfl) n

theorem State.endRun_waitless {s : State} {n : Nat} (hn : n < s.folds.length) : (s.endRun n).Waitless n := by
  have hdown := State.runDown_waitless hn
  have hreport : ((s.runDown n).reportRun n).Waitless n :=
    ⟨by rw [State.reportRun_length]; exact hdown.lt, by rw [State.reportRun_f (by decide), hdown.wait],
      (State.reportRun_fold Fold.until_ (by intro f; rfl) _ n n).trans hdown.until_⟩
  rw [State.endRun_eq]
  refine State.wakeFlags_induct (P := fun t => t.Waitless n)
    (fun x k v hx => State.onFold_waitless (State.unwait_waitless hx k) (by intro f; rfl) k) ?_ n
  exact State.put_waitless (State.put_waitless hreport (by decide) _ n) (by decide) _ n

/-! ### Faults (R365, R366) -/

/-- A fault before its run ends: the record of FOLDn_FAULT, the count and the interrupt. -/
def State.recordFault (s : State) (n code pc : Nat) : State :=
  let f := s.fold n
  let s := ((s.put F.FOLDn_FAULT_CODE code n).put F.FOLDn_FAULT_PC pc n).put F.FOLDn_FAULT_SLOT f.slot n
  ((s.inc F.FOLDn_FAULTS n).irqAll F.CTXn_IRQ_CAUSE_FOLD).noteFault.onBist fun b => { b with lastFold := some s.time.clock }

/-- A fault once its run has ended: the fold has faulted, a slot it had not completed is dropped, and it stops where it is told to or
for the third time. -/
def State.stopFaulted (s : State) (n : Nat) (f : Fold) : State :=
  let s := s.onFold n fun f => { f with faulted := true, faultRuns := f.faultRuns + 1 }
  let s := if s.isTile && !f.complete then s.onComp fun c => { c with dropped := true } else s
  if s.b F.FOLDn_CTL_FAULT_STOP n || decide (3 ≤ f.faultRuns + 1) then s.put F.FOLDn_STATUS_STATE 3 n else s

theorem State.foldFault_eq (s : State) (n code pc : Nat) :
    s.foldFault n code pc = ((s.recordFault n code pc).endRun n).stopFaulted n (s.fold n) := rfl

theorem State.stopFaulted_fold (s : State) (n : Nat) (f : Fold) (m : Nat) : (s.stopFaulted n f).fold m =
    (s.onFold n fun f => { f with faulted := true, faultRuns := f.faultRuns + 1 }).fold m := by
  unfold State.stopFaulted
  extract_lets s1 s2
  have hdrop : s2.fold m = s1.fold m := by
    dsimp only [s2]
    split <;> rfl
  split
  · rw [State.put_fold, hdrop]
  · exact hdrop

theorem State.stopFaulted_f {g : Fld} (h : besideFld g F.FOLDn_STATUS_STATE) (s : State) (n : Nat) (f : Fold) (m : Nat) :
    (s.stopFaulted n f).f g m = s.f g m := by
  unfold State.stopFaulted
  extract_lets s1 s2
  have hdrop : s2.f g m = s1.f g m := by
    dsimp only [s2]
    split <;> rfl
  have hfold : s1.f g m = s.f g m := State.onFold_f ..
  split
  · rw [State.f_put_beside h, hdrop, hfold]
  · rw [hdrop, hfold]

@[simp] theorem State.recordFault_fold (s : State) (n code pc m : Nat) : (s.recordFault n code pc).fold m = s.fold m := by
  unfold State.recordFault
  rw [State.onBist_fold, State.noteFault_fold, State.irqAll_fold, State.inc_fold, State.put_fold, State.put_fold, State.put_fold]

theorem State.recordFault_length (s : State) (n code pc : Nat) : (s.recordFault n code pc).folds.length = s.folds.length := by
  unfold State.recordFault
  rw [State.onBist_folds, State.noteFault_folds, (State.irqAll_within ..).same_folds, State.inc_folds, State.put_folds,
    State.put_folds, State.put_folds]

/-- The fields of the faulting fold, as `recordFault` leaves them. -/
theorem State.recordFault_f {g : Fld} (hpage : g.s1 = 0x40000) (hpage2 : g.s2 = 0) (hbase : g.base % 0x1000 ≠ 0x38) (s : State)
    (n code pc m : Nat) : (s.recordFault n code pc).f g m =
      ((((s.put F.FOLDn_FAULT_CODE code n).put F.FOLDn_FAULT_PC pc n).put F.FOLDn_FAULT_SLOT (s.fold n).slot n).inc
        F.FOLDn_FAULTS n).f g m := by
  rw [State.recordFault, State.onBist_f, State.noteFault_f, State.irqAll_fold_f hpage hpage2 hbase]

theorem State.foldFault_f {g : Fld} (h : ∀ f ∈ F.FOLDn_STATUS_STATE :: endRunFields, besideFld g f) (s : State) (n code pc m : Nat) :
    (s.foldFault n code pc).f g m = (s.recordFault n code pc).f g m := by
  obtain ⟨hstate, hend⟩ := List.forall_mem_cons.mp h
  rw [State.foldFault_eq, State.stopFaulted_f hstate, State.endRun_f hend]

/-- After a fault the run has ended. -/
theorem State.foldFault_inRun (s : State) (n code pc : Nat) : (s.foldFault n code pc).inRun n = false := by
  rw [State.foldFault_eq, State.inRun, State.b, State.stopFaulted_f (by decide)]
  exact State.endRun_inRun _ n

/-- A fault leaves the record of the fold, beside its being faulted, as the end of the run does. -/
theorem State.foldFault_fold {s : State} {n : Nat} (hn : n < s.folds.length) (code pc : Nat) :
    ∃ f : Fold, f.rested = (s.fold n).rested ∧
      (s.foldFault n code pc).fold n = { f with faulted := true, faultRuns := f.faultRuns + 1 } := by
  refine ⟨((s.recordFault n code pc).endRun n).fold n, ?_, ?_⟩
  · rw [State.endRun_rested, State.recordFault_fold]
  · rw [State.foldFault_eq, State.stopFaulted_fold, State.fold_onFold_same]
    rwa [State.endRun_length, State.recordFault_length]

/-- A fault is recorded as R365 and R366 say. -/
theorem State.foldFault_faultedAt {s : State} {n code pc : Nat} (hn : n < s.folds.length) (hcode : code < 32) (hpc : pc < 8192) :
    faultedAt s (s.foldFault n code pc) n code pc := by
  refine ⟨?_, ?_, s.foldFault_inRun n code pc, ?_, ?_, ?_⟩
  · rw [State.foldFault_f (by decide), State.recordFault_f rfl rfl (by decide), State.inc, State.add, State.f_put_beside (by decide),
      State.f_put_beside (by decide), State.f_put_beside (by decide), State.f_put _ _ _ _ _ (by decide)]
    exact Nat.mod_eq_of_lt hcode
  · rw [State.foldFault_f (by decide), State.recordFault_f rfl rfl (by decide), State.inc, State.add, State.f_put_beside (by decide),
      State.f_put_beside (by decide), State.f_put _ _ _ _ _ (by decide)]
    exact Nat.mod_eq_of_lt hpc
  · obtain ⟨f, -, hfold⟩ := State.foldFault_fold hn code pc
    rw [hfold]
  · rw [State.foldFault_f (by decide), State.recordFault_f rfl rfl (by decide), State.inc, State.f_add _ _ _ _ _ (by decide),
      State.f_put_beside (by decide), State.f_put_beside (by decide), State.f_put_beside (by decide)]
  · rw [State.foldFault_f (by decide), State.recordFault_f rfl rfl (by decide), State.inc, State.add, State.f_put_beside (by decide),
      State.f_put _ _ _ _ _ (by decide)]

theorem State.foldFault_k {s : State} {n : Nat} (hn : n < s.folds.length) (code pc : Nat) :
    ((s.foldFault n code pc).fold n).k = (s.fold n).k := by
  obtain ⟨f, hrested, hfold⟩ := State.foldFault_fold hn code pc
  have hkept := congrArg Fold.k hrested
  rw [hfold]
  exact hkept

theorem State.foldFault_scratch {s : State} {n : Nat} (hn : n < s.folds.length) (code pc : Nat) :
    ((s.foldFault n code pc).fold n).scratch = (s.fold n).scratch := by
  obtain ⟨f, hrested, hfold⟩ := State.foldFault_fold hn code pc
  have hkept := congrArg Fold.scratch hrested
  rw [hfold]
  exact hkept

end Sys2Proof.Machine
end

section
/-! PROOFS. An instruction of a fold (spec/10_korty_model.md): its registers and address, the step to the next instruction, and the
branch rule. -/
set_option Elab.async false
namespace Sys2Proof.Machine

/-! ### An instruction that stands at the PC (R349, R353) -/

/-- What `standsAt` says of the fold, by name. -/
structure Standing (s : State) (n w : Nat) : Prop where
  lt : n < s.folds.length
  kLength : (s.fold n).k.length = 32
  qLength : (s.fold n).q.length = 16
  stripsLength : (s.fold n).strips.length = 4
  up : s.pwr.up = true
  run : s.inRun n = true
  goes : (s.fold n).ended = false
  wait : s.f F.FOLDn_STATUS_WAIT n = 0
  word : (s.fold n).prog.get (s.fold n).pc = w
  pc : (s.fold n).pc < 8192
  good : (s.fold n).pc ∉ (s.fold n).progBad

theorem Standing.rd_lt {s : State} {n w : Nat} (h : Standing s n w) : kRd w < (s.fold n).k.length := by
  rw [h.kLength]
  exact bits_lt w 51 5

theorem standing_of_standsAt {s : State} {n w : Nat} (h : standsAt s n w) : Standing s n w := by
  obtain ⟨hn, hlen, hk, hq, hstrips, hup, hrun, hended, hwait, hword, hpc, hgood⟩ := h
  exact ⟨hlen ▸ hn, hk, hq, hstrips, hup, hrun, hended, hwait, hword, hpc, hgood⟩

/-- A fold executes the instruction that it stands at, and no other. -/
theorem Standing.korty {s : State} {n w : Nat} (h : Standing s n w) (op : Nat) (act : State → Nat → Nat → State) :
    s.korty n op act = if kOp w = op then act s w (s.fold n).pc else s := by
  have hready : s.seqReady n op = (kOp w == op) := by
    rw [State.seqReady, h.up, h.run, h.goes, h.wait, h.word]
    rfl
  rw [State.korty, hready]
  by_cases hop : kOp w = op
  · rw [if_pos hop, beq_iff_eq.mpr hop, if_pos rfl, if_neg (Nat.not_le.mpr h.pc), h.word, if_neg (by simpa using h.good)]
  · rw [if_neg hop, beq_eq_false_iff_ne.mpr hop, if_neg Bool.false_ne_true]

theorem Standing.korty_same {s : State} {n w op : Nat} (h : Standing s n w) (hop : kOp w = op) (act : State → Nat → Nat → State) :
    s.korty n op act = act s w (s.fold n).pc := (h.korty op act).trans (if_pos hop)

/-! ### Updates of a fold's record, by name -/

/-- The instruction is counted and the fold stands at `pc`. -/
def Fold.goTo (f : Fold) (pc : Nat) : Fold := { f with pc := pc, steps := f.steps + 1 }

/-- k[i] holds `v`; a write of k0 is discarded. -/
def Fold.setK (f : Fold) (i v : Nat) : Fold := { f with k := if i = 0 then f.k else modAt f.k i fun _ => BitVec.ofNat 32 v }

/-- q[i] holds `v`. -/
def Fold.setQ (f : Fold) (i v : Nat) : Fold := { f with q := modAt f.q i fun _ => BitVec.ofNat 64 v }

/-- The flags of an arithmetic result. -/
def Fold.setFlags (f : Fold) (x : Alu) : Fold := { f with z := x.r == 0, n := bitOf x.r 31, c := x.c, v := x.v }

/-! ### Register operands -/

theorem kreg_eq (s : State) (n i : Nat) : s.kreg n i = (reg s n i).toNat := by
  unfold State.kreg reg
  split <;> rfl

/-- A sum of a register and a number is cut to 32 bits. -/
theorem kreg_add (s : State) (n i x : Nat) : (s.kreg n i + x) % m32 = (reg s n i + BitVec.ofNat 32 x).toNat := by
  rw [kreg_eq, BitVec.toNat_add, BitVec.toNat_ofNat, Nat.add_mod_mod]
  rfl

theorem ea_eq (s : State) (n w : Nat) : s.ea n w = (reg s n (kRs1 w) + BitVec.ofNat 32 (kImm w)).toNat := kreg_add ..

theorem reg_congr {s t : State} {n : Nat} (h : (t.fold n).k = (s.fold n).k) (i : Nat) : reg t n i = reg s n i := by
  unfold reg
  rw [h]

theorem setsReg_congr {s t : State} {n : Nat} (h : (t.fold n).k = (s.fold n).k) {i : Nat} {v : BitVec 32} (hs : setsReg s n i v) :
    setsReg t n i v := (reg_congr h i).trans hs

/-- The flags Z, N, C and V of a record. -/
def Fold.nzcv (f : Fold) : Bool × Bool × Bool × Bool := (f.z, f.n, f.c, f.v)

theorem nzcv_eq (s : State) (n : Nat) : nzcv s n = (s.fold n).nzcv := rfl

theorem State.qreg_congr {s t : State} {n : Nat} (h : (t.fold n).q = (s.fold n).q) (i : Nat) : t.qreg n i = s.qreg n i := by
  rw [State.qreg, h, State.qreg]

theorem State.setK_fold {s : State} {n : Nat} (hn : n < s.folds.length) (i v : Nat) : (s.setK n i v).fold n = (s.fold n).setK i v := by
  by_cases hi : i = 0
  · rw [State.setK, if_pos hi, Fold.setK, if_pos hi]
  · rw [State.setK, if_neg hi, State.fold_onFold_same _ hn, Fold.setK, if_neg hi]

/-- A register reads what was written to it, and k0 reads as 0. -/
theorem setsReg_setK {s : State} {n i : Nat} (hn : n < s.folds.length) (hi : i < (s.fold n).k.length) (v : Nat) :
    setsReg (s.setK n i v) n i (BitVec.ofNat 32 v) := by
  unfold setsReg reg
  split
  · rfl
  · rename_i hzero
    rw [State.setK_fold hn, Fold.setK, if_neg hzero]
    exact nth_modAt_same _ _ _ _ hi

theorem State.setQ_fold {s : State} {n : Nat} (hn : n < s.folds.length) (i v : Nat) : (s.setQ n i v).fold n = (s.fold n).setQ i v :=
  State.fold_onFold_same _ hn

/-- A rectangle register reads the 64 bits that were written to it. -/
theorem State.qreg_setQ {s : State} {n i : Nat} (hn : n < s.folds.length) (hi : i < (s.fold n).q.length) (v : Nat) :
    (s.setQ n i v).qreg n i = v % 2 ^ 64 := by
  rw [State.qreg, State.setQ_fold hn, Fold.setQ, nth_modAt_same _ _ _ _ hi, BitVec.toNat_ofNat]

theorem State.setNZCV_fold {s : State} {n : Nat} (hn : n < s.folds.length) (x : Alu) :
    (s.setNZCV n x).fold n = (s.fold n).setFlags x := State.fold_onFold_same _ hn

/-! ### The step to the next instruction (R349) -/

/-- The instruction is counted and the one at `pc` fetched. -/
def State.goTo (s : State) (n pc : Nat) : State := (s.onFold n fun f => f.goTo pc).put F.FOLDn_STATUS_PC pc n

theorem State.goTo_fold {s : State} {n : Nat} (hn : n < s.folds.length) (pc : Nat) : (s.goTo n pc).fold n = (s.fold n).goTo pc := by
  rw [State.goTo, State.put_fold, State.fold_onFold_same _ hn]

@[simp] theorem State.goTo_length (s : State) (n pc : Nat) : (s.goTo n pc).folds.length = s.folds.length := by
  rw [State.goTo, State.put_folds, State.onFold_length]

theorem State.goTo_f {g : Fld} (h : besideFld g F.FOLDn_STATUS_PC) (s : State) (n pc m : Nat) : (s.goTo n pc).f g m = s.f g m := by
  rw [State.goTo, State.f_put_beside h, State.onFold_f]

@[simp] theorem State.goTo_inRun (s : State) (n pc m : Nat) : (s.goTo n pc).inRun m = s.inRun m := by
  rw [State.goTo, State.inRun_put (by decide), State.onFold_inRun]

theorem State.fetch_of_lt {s : State} {n : Nat} (h : (s.fold n).pc < 8192) : s.fetch n = s.put F.FOLDn_STATUS_PC (s.fold n).pc n := by
  rw [State.fetch, State.put_fold, decide_eq_false (Nat.not_le.mpr h), Bool.and_false, if_neg Bool.false_ne_true]

/-- An instruction that an instruction of the program memory follows. -/
theorem State.fetch_goTo {s : State} {n pc : Nat} (hn : n < s.folds.length) (h : pc < 8192) :
    (s.onFold n fun f => f.goTo pc).fetch n = s.goTo n pc := by
  have hpc : ((s.onFold n fun f => f.goTo pc).fold n).pc = pc := by
    rw [State.fold_onFold_same _ hn]
    rfl
  rw [State.fetch_of_lt (by rw [hpc]; exact h), hpc, State.goTo]

/-- Updates that agree on the element at their place agree. -/
theorem modAt_congr {α : Type} {f g : α → α} (l : List α) (k : Nat) (d : α) (h : f (nth l k d) = g (nth l k d)) :
    modAt l k f = modAt l k g := by
  induction l generalizing k with
  | nil => rfl
  | cons x xs ih =>
    cases k with
    | zero => exact congrArg (· :: xs) h
    | succ k => exact congrArg (x :: ·) (ih k h)

theorem State.onFold_congr {s : State} {n : Nat} {f g : Fold → Fold} (h : f (s.fold n) = g (s.fold n)) : s.onFold n f = s.onFold n g := by
  rw [State.onFold, State.onFold, modAt_congr _ _ _ h]

theorem State.advance_of_lt {s : State} {n : Nat} (hn : n < s.folds.length) (h : (s.fold n).pc < 8191) :
    s.advance n = s.goTo n ((s.fold n).pc + 1) := by
  have hnext : s.onFold n (fun f => { f with pc := f.pc + 1, steps := f.steps + 1 }) =
      s.onFold n fun f => f.goTo ((s.fold n).pc + 1) := State.onFold_congr rfl
  rw [State.advance, hnext, State.fetch_goTo hn (by omega)]

/-- An operation leaves the PC, the count of instructions and the run of a fold, and the number of folds. -/
structure Steady (n : Nat) (s t : State) : Prop where
  pc : (t.fold n).pc = (s.fold n).pc
  steps : (t.fold n).steps = (s.fold n).steps
  run : t.inRun n = s.inRun n
  length : t.folds.length = s.folds.length

theorem Steady.refl (n : Nat) (s : State) : Steady n s s := ⟨rfl, rfl, rfl, rfl⟩

theorem Steady.trans {n : Nat} {s t u : State} (h : Steady n s t) (k : Steady n t u) : Steady n s u :=
  ⟨k.pc.trans h.pc, k.steps.trans h.steps, k.run.trans h.run, k.length.trans h.length⟩

theorem Steady.onFold {n : Nat} (s : State) (m : Nat) {f : Fold → Fold} (hpc : ∀ x, (f x).pc = x.pc)
    (hsteps : ∀ x, (f x).steps = x.steps) : Steady n s (s.onFold m f) :=
  ⟨State.fold_onFold_keeps Fold.pc hpc s m n, State.fold_onFold_keeps Fold.steps hsteps s m n, rfl, State.onFold_length ..⟩

theorem Steady.setK (s : State) (n i v : Nat) : Steady n s (s.setK n i v) := by
  unfold State.setK
  split
  · exact Steady.refl n s
  · exact Steady.onFold s n (fun _ => rfl) fun _ => rfl

theorem Steady.setQ (s : State) (n i v : Nat) : Steady n s (s.setQ n i v) := Steady.onFold s n (fun _ => rfl) fun _ => rfl

/-- An instruction with another one behind it, which leaves the PC until then, goes on to it. -/
theorem advance_goesOn {n op w : Nat} {s t : State} (hruns : runsAt s n op w) (h : Steady n s t) :
    wentOn s (t.advance n) n ∧ (t.advance n).fold n = (t.fold n).goTo ((s.fold n).pc + 1) := by
  obtain ⟨hstands, -, hpc⟩ := hruns
  have hst := standing_of_standsAt hstands
  have hn : n < t.folds.length := h.length ▸ hst.lt
  rw [State.advance_of_lt hn (h.pc ▸ hpc), h.pc]
  have hfold := State.goTo_fold hn ((s.fold n).pc + 1)
  refine ⟨⟨?_, ?_, ?_⟩, hfold⟩
  · rw [hfold]
    rfl
  · rw [hfold, ← h.steps]
    rfl
  · rw [State.goTo_inRun, h.run, hst.run]

/-- The step to the next instruction writes no field but FOLDn_STATUS.PC. -/
theorem advance_f {n op w : Nat} {s t : State} (hruns : runsAt s n op w) (h : Steady n s t) {g : Fld}
    (hg : besideFld g F.FOLDn_STATUS_PC) (m : Nat) : (t.advance n).f g m = t.f g m := by
  obtain ⟨hstands, -, hpc⟩ := hruns
  rw [State.advance_of_lt (h.length ▸ (standing_of_standsAt hstands).lt) (h.pc ▸ hpc), State.goTo_f hg]

/-- An instruction that writes a k register and goes on. -/
theorem setK_advance {n op w : Nat} {s : State} (hruns : runsAt s n op w) (v : Nat) :
    setsReg ((s.setK n (kRd w) v).advance n) n (kRd w) (BitVec.ofNat 32 v) ∧ wentOn s ((s.setK n (kRd w) v).advance n) n := by
  have hst := standing_of_standsAt hruns.1
  obtain ⟨hwent, hfold⟩ := advance_goesOn hruns (Steady.setK s n (kRd w) v)
  exact ⟨setsReg_congr (by rw [hfold]; rfl) (setsReg_setK hst.lt hst.rd_lt v), hwent⟩

/-! ### Branches (R349) -/

/-- The conditions of Table 10-3, in the order of their codes. -/
abbrev Fold.conds (f : Fold) : List Bool := [true, false, f.z, !f.z, f.n, !f.n, f.c, !f.c, f.v, !f.v, !f.c && !f.z, f.c || f.z,
  f.n == f.v, f.n != f.v, !f.z && f.n == f.v, f.z || f.n != f.v]

theorem kCond_lt (w : Nat) : kCond w < 16 := bits_lt w 41 4

theorem Fold.cond_eq (f : Fold) {c : Nat} (h : c < 16) : f.cond c = f.conds.getD c false := by
  interval_cases c <;> rfl

theorem Fold.cond_six (f : Fold) : f.cond 6 = f.c := rfl
theorem Fold.cond_seven (f : Fold) : f.cond 7 = !f.c := rfl

/-- Where a branch of the word `w` leads. -/
abbrev branchTarget (s : State) (n w : Nat) : Nat := (reg s n (kRs1 w) + BitVec.ofNat 32 (kTarget w)).toNat

/-- BR as R349 has it: a taken branch beyond the program memory faults, and any other one links. -/
theorem exec_br {s : State} {fold : Fin 4} {w : Nat} (h : standsAt s fold w) (hop : kOp w = 0x30) : exec (.br fold) s = .next (
    if (s.fold fold).conds.getD (kCond w) false && decide (8191 < branchTarget s fold w) then s.foldFault fold 2 (s.fold fold).pc
    else if (s.fold fold).conds.getD (kCond w) false then
      ((s.setK fold (kRd w) ((s.fold fold).pc + 1)).onFold fold fun f => f.goTo (branchTarget s fold w)).fetch fold
    else (s.setK fold (kRd w) ((s.fold fold).pc + 1)).advance fold) := by
  show execBr fold s = _
  rw [execBr, (standing_of_standsAt h).korty_same hop]
  simp only [kreg_add, Fold.cond_eq _ (kCond_lt w)]
  rfl

theorem br_taken {s : State} {fold : Fin 4} {w : Nat} (hruns : runsAt s fold 0x30 w)
    (hcond : (s.fold fold).conds.getD (kCond w) false = true) (htarget : branchTarget s fold w ≤ 8191) :
    yields (.br fold) s fun t => (t.fold fold).pc = branchTarget s fold w ∧
      setsReg t fold (kRd w) (BitVec.ofNat 32 ((s.fold fold).pc + 1)) ∧ nzcv t fold = nzcv s fold ∧ t.inRun fold = true := by
  obtain ⟨hstands, hop, -⟩ := hruns
  have hst := standing_of_standsAt hstands
  have hlink := Steady.setK s fold (kRd w) ((s.fold fold).pc + 1)
  have hn : fold < (s.setK fold (kRd w) ((s.fold fold).pc + 1)).folds.length := hlink.length ▸ hst.lt
  have hexec := exec_br hstands hop
  rw [hcond, decide_eq_false (Nat.not_lt.mpr htarget), Bool.and_false, if_neg Bool.false_ne_true, if_pos rfl,
    State.fetch_goTo hn (by omega)] at hexec
  have hfold := State.goTo_fold hn (branchTarget s fold w)
  have hlinked := State.setK_fold hst.lt (kRd w) ((s.fold fold).pc + 1)
  refine ⟨_, hexec, congrArg Fold.pc hfold, setsReg_congr (by rw [hfold]; rfl) (setsReg_setK hst.lt hst.rd_lt _), ?_, ?_⟩
  · rw [nzcv_eq, hfold, hlinked]
    rfl
  · rw [State.goTo_inRun, hlink.run, hst.run]

theorem br_not_taken {s : State} {fold : Fin 4} {w : Nat} (hruns : runsAt s fold 0x30 w)
    (hcond : (s.fold fold).conds.getD (kCond w) false = false) : yields (.br fold) s fun t =>
      setsReg t fold (kRd w) (BitVec.ofNat 32 ((s.fold fold).pc + 1)) ∧ nzcv t fold = nzcv s fold ∧ wentOn s t fold := by
  have hst := standing_of_standsAt hruns.1
  have hexec := exec_br hruns.1 hruns.2.1
  rw [hcond, Bool.false_and, if_neg Bool.false_ne_true, if_neg Bool.false_ne_true] at hexec
  obtain ⟨hreg, hwent⟩ := setK_advance hruns ((s.fold fold).pc + 1)
  obtain ⟨-, hfold⟩ := advance_goesOn hruns (Steady.setK s fold (kRd w) ((s.fold fold).pc + 1))
  refine ⟨_, hexec, hreg, ?_, hwent⟩
  rw [nzcv_eq, hfold, State.setK_fold hst.lt]
  rfl

theorem br_beyond {s : State} {fold : Fin 4} {w : Nat} (hstands : standsAt s fold w) (hop : kOp w = 0x30)
    (hcond : (s.fold fold).conds.getD (kCond w) false = true) (htarget : 8191 < branchTarget s fold w) :
    yields (.br fold) s fun t => faultedAt s t fold 2 (s.fold fold).pc := by
  have hst := standing_of_standsAt hstands
  have hexec := exec_br hstands hop
  rw [hcond, decide_eq_true htarget, Bool.and_self, if_pos rfl] at hexec
  exact ⟨_, hexec, State.foldFault_faultedAt hst.lt (by decide) hst.pc⟩

/-- A comparison sets C to the unsigned order of its operands, which conditions 6 and 7 test. -/
theorem cmp_carry {s : State} {fold : Fin 4} {w : Nat} (hruns : runsAt s fold 0x0C w) : yields (.cmp fold) s fun t =>
    (t.fold fold).c = (reg s fold (kRs1 w)).ult (reg s fold (kRs2 w)) ∧
      (t.fold fold).cond 6 = (reg s fold (kRs1 w)).ult (reg s fold (kRs2 w)) ∧
      (t.fold fold).cond 7 = (reg s fold (kRs2 w)).ule (reg s fold (kRs1 w)) := by
  have hst := standing_of_standsAt hruns.1
  obtain ⟨x, hx⟩ : ∃ x, x = aluSub (reg s fold (kRs1 w)).toNat (reg s fold (kRs2 w)).toNat := ⟨_, rfl⟩
  have hexec : exec (.cmp fold) s = .next ((s.setNZCV fold x).advance fold) := by
    show execCmp fold s = _
    rw [execCmp, hst.korty_same hruns.2.1, State.opR, kreg_eq, kreg_eq, hx]
  have hsteady : Steady fold s (s.setNZCV fold x) := Steady.onFold s fold (fun _ => rfl) fun _ => rfl
  obtain ⟨-, hfold⟩ := advance_goesOn hruns hsteady
  have hc : (((s.setNZCV fold x).advance fold).fold fold).c = (reg s fold (kRs1 w)).ult (reg s fold (kRs2 w)) := by
    rw [hfold, State.setNZCV_fold hst.lt, hx]
    rfl
  refine ⟨_, hexec, hc, hc ▸ Fold.cond_six _, ?_⟩
  rw [Fold.cond_seven, hc, BitVec.ult, BitVec.ule, ← decide_not]
  exact decide_eq_decide.mpr Nat.not_lt

/-- Settles O30: the branch as `exec_br` gives it, by whether its condition holds and where its target lies. -/
theorem branchRule : Obligations.BranchRule := by
  unfold Obligations.BranchRule
  exact ⟨fun s fold w => br_taken, fun s fold w => br_not_taken, fun s fold w => br_beyond, fun s fold w => cmp_carry⟩

end Sys2Proof.Machine
end

section
/-! PROOFS. Control, scratch and synchronisation instructions of a fold (spec/10_korty_model.md, spec/11_korty_instructions.md): what each
leaves when it goes on, when it waits and when it faults. -/
set_option Elab.async false
namespace Sys2Proof.Machine

/-! ### Words of scratch -/

theorem KV.get_insert (m : KV) (a v b : Nat) (h : ∀ p ∈ m, p.1 ≠ a) : KV.get (KV.insert a v m) b = if b = a then v else KV.get m b := by
  induction m with
  | nil => simp [KV.insert, KV.get, eq_comm]
  | cons q r ih =>
    obtain ⟨c, x⟩ := q
    have hc : c ≠ a := h (c, x) List.mem_cons_self
    rw [KV.insert]
    split
    · simp only [KV.get, eq_comm]
    · rw [KV.get, KV.get, ih fun p hp => h p (List.mem_cons_of_mem _ hp)]
      by_cases hb : c = b
      · rw [if_pos hb, if_pos hb, if_neg (hb ▸ hc)]
      · rw [if_neg hb, if_neg hb]

theorem KV.get_filter (m : KV) (a b : Nat) : KV.get (m.filter fun p => p.1 != a) b = if b = a then 0 else KV.get m b := by
  induction m with
  | nil => simp [KV.get]
  | cons q r ih =>
    obtain ⟨c, x⟩ := q
    by_cases hc : c = a
    · rw [List.filter_cons_of_neg (by simpa using hc), ih, KV.get]
      by_cases hb : b = a
      · rw [if_pos hb, if_pos hb]
      · rw [if_neg hb, if_neg hb, if_neg (hc ▸ Ne.symm hb)]
    · rw [List.filter_cons_of_pos (by simpa using hc), KV.get, KV.get, ih]
      by_cases hb : c = b
      · rw [if_pos hb, if_pos hb, if_neg (hb ▸ hc)]
      · rw [if_neg hb, if_neg hb]

/-- A read of a word after a write: the value written there, the old value elsewhere. -/
theorem KV.get_set (m : KV) (a v b : Nat) : KV.get (m.set a v) b = if b = a then v else KV.get m b := by
  unfold KV.set
  split
  · rename_i hzero
    rw [KV.get_filter, hzero]
  · rw [KV.get_insert _ _ _ _ fun p hp => by simpa using (List.mem_filter.mp hp).2, KV.get_filter]
    split <;> rfl

/-- Word `a` of live scratch is written, with new parity. -/
def Fold.store (f : Fold) (a v : Nat) : Fold := { f with scratch := f.scratch.set a v, scratchBad := f.scratchBad.filter (· != a) }

theorem Fold.store_get (f : Fold) (a v b : Nat) : (f.store a v).scratch.get b = if b = a then v else f.scratch.get b := KV.get_set ..

theorem Fold.store_parity (f : Fold) (a v : Nat) : a ∉ (f.store a v).scratchBad := by simp [Fold.store]

theorem State.scratchSet_fold {s : State} {n : Nat} (hn : n < s.folds.length) (a v : Nat) :
    (s.scratchSet n a v).fold n = (s.fold n).store a v := State.fold_onFold_same _ hn

theorem Steady.scratchSet (s : State) (n a v : Nat) : Steady n s (s.scratchSet n a v) :=
  Steady.onFold s n (fun _ => rfl) fun _ => rfl

/-! ### Loads and stores at an address (R347, R360, R378) -/

theorem scratchOk_word {ea : Nat} (h : ea ≤ 0x3FFFC ∧ ea % 4 = 0) : scratchOk ea 4 = true := by
  simp only [scratchOk, h.2, beq_self_eq_true, Bool.and_true, decide_eq_true_eq]
  omega

theorem scratchOk_pair {ea : Nat} (h : ea ≤ 0x3FFF8 ∧ ea % 8 = 0) : scratchOk ea 8 = true := by
  simp only [scratchOk, h.2, beq_self_eq_true, Bool.and_true, decide_eq_true_eq]
  omega

theorem not_scratchOk_word {ea : Nat} (h : 0x3FFFC < ea ∨ ea % 4 ≠ 0) : scratchOk ea 4 = false := by
  rw [scratchOk, Bool.and_eq_false_iff, decide_eq_false_iff_not, beq_eq_false_iff_ne]
  omega

theorem not_scratchOk_pair {ea : Nat} (h : 0x3FFF8 < ea ∨ ea % 8 ≠ 0) : scratchOk ea 8 = false := by
  rw [scratchOk, Bool.and_eq_false_iff, decide_eq_false_iff_not, beq_eq_false_iff_ne]
  omega

/-- The words from an address on. -/
abbrev wordsAt (ea words : Nat) : List Nat := (List.range words).map fun k => ea / 4 + k

theorem State.loading_in {s : State} {n pc ea words : Nat} {act : State → State} (hrange : scratchOk ea (4 * words) = true)
    (hfree : s.wordPending n (wordsAt ea words) = false) (hgood : (wordsAt ea words).any (s.loadBad n) = false) :
    s.loading n pc ea words act = act s := by
  rw [State.loading, hrange, hfree, hgood, Bool.not_true, if_neg Bool.false_ne_true, if_neg Bool.false_ne_true,
    if_neg Bool.false_ne_true]

theorem State.loading_out {s : State} {n pc ea words : Nat} {act : State → State} (hrange : scratchOk ea (4 * words) = false) :
    s.loading n pc ea words act = s.foldFault n 3 pc := by
  rw [State.loading, hrange, Bool.not_false, if_pos rfl]

theorem State.loading_waits {s : State} {n pc ea words : Nat} {act : State → State} (hrange : scratchOk ea (4 * words) = true)
    (hpending : s.wordPending n (wordsAt ea words) = true) : s.loading n pc ea words act = s.wait n 2 := by
  rw [State.loading, hrange, hpending, Bool.not_true, if_neg Bool.false_ne_true, if_pos rfl]

theorem State.loading_bad {s : State} {n pc ea words : Nat} {act : State → State} (hrange : scratchOk ea (4 * words) = true)
    (hfree : s.wordPending n (wordsAt ea words) = false) (hbad : (wordsAt ea words).any (s.loadBad n) = true) :
    s.loading n pc ea words act = s.foldFault n 4 pc := by
  rw [State.loading, hrange, hfree, hbad, Bool.not_true, if_neg Bool.false_ne_true, if_neg Bool.false_ne_true, if_pos rfl]

theorem State.loading_word {s : State} {n pc ea : Nat} {act : State → State} (hrange : ea ≤ 0x3FFFC ∧ ea % 4 = 0)
    (hfree : s.wordPending n [ea / 4] = false) (hgood : s.loadBad n (ea / 4) = false) : s.loading n pc ea 1 act = act s :=
  State.loading_in (scratchOk_word hrange) hfree (by simpa [wordsAt, List.range_succ] using hgood)

theorem State.loading_pair {s : State} {n pc ea : Nat} {act : State → State} (hrange : ea ≤ 0x3FFF8 ∧ ea % 8 = 0)
    (hfree : s.wordPending n [ea / 4, ea / 4 + 1] = false)
    (hgood : s.loadBad n (ea / 4) = false ∧ s.loadBad n (ea / 4 + 1) = false) : s.loading n pc ea 2 act = act s :=
  State.loading_in (scratchOk_pair hrange) hfree (by simpa [wordsAt, List.range_succ] using hgood)

theorem State.storing_in {s : State} {n pc ea : Nat} {vs : List Nat} (hrange : scratchOk ea (4 * vs.length) = true)
    (hfree : s.wordPending n (wordsAt ea vs.length) = false) :
    s.storing n pc ea vs = (s.storeWords n ((wordsAt ea vs.length).zip vs)).advance n := by
  rw [State.storing, hrange, hfree, Bool.not_true, if_neg Bool.false_ne_true, if_neg Bool.false_ne_true]

theorem State.storing_out {s : State} {n pc ea : Nat} {vs : List Nat} (hrange : scratchOk ea (4 * vs.length) = false) :
    s.storing n pc ea vs = s.foldFault n 3 pc := by
  rw [State.storing, hrange, Bool.not_false, if_pos rfl]

/-- Outside a transaction a load sees live scratch. -/
theorem State.loadWord_live {s : State} {n : Nat} (htx : (s.fold n).tx = none) (a : Nat) :
    s.loadWord n a = (s.fold n).scratch.get a := by
  rw [State.loadWord, htx]

theorem State.loadBad_live {s : State} {n a : Nat} (htx : (s.fold n).tx = none) (hgood : a ∉ (s.fold n).scratchBad) :
    s.loadBad n a = false := by
  rw [State.loadBad, htx, Bool.not_false, Bool.and_true]
  simpa using hgood

/-- In a transaction a load sees its own stores (R388). -/
theorem State.loadWord_shadow {s : State} {n a v : Nat} {x : FoldTx} (htx : (s.fold n).tx = some x)
    (hstore : x.stores.find? (fun e => e.1 == a) = some (a, v)) : s.loadWord n a = v := by
  simp only [State.loadWord, htx, hstore]

theorem State.loadBad_shadow {s : State} {n a v : Nat} {x : FoldTx} (htx : (s.fold n).tx = some x)
    (hstore : x.stores.find? (fun e => e.1 == a) = some (a, v)) : s.loadBad n a = false := by
  have hany : x.stores.any (fun e => e.1 == a) = true :=
    List.any_eq_true.mpr ⟨_, List.mem_of_find?_eq_some hstore, beq_self_eq_true a⟩
  simp only [State.loadBad, htx, hany, Bool.not_true, Bool.and_false]

theorem State.storeWords_live {s : State} {n : Nat} (htx : (s.fold n).tx = none) (ws : List (Nat × Nat)) :
    s.storeWords n ws = s.each ws fun s w => s.scratchSet n w.1 w.2 := by
  rw [State.storeWords, htx]

/-- The stores of an instruction join the shadow copies of the transaction: one write (R388). -/
def FoldTx.shadow (t : FoldTx) (ws : List (Nat × Nat)) : FoldTx :=
  { t with stores := ws ++ t.stores.filter fun e => !(ws.any fun x => x.1 == e.1), count := t.count + 1 }

def Fold.shadow (f : Fold) (ws : List (Nat × Nat)) : Fold := { f with tx := f.tx.map fun t => t.shadow ws }

theorem State.storeWords_shadow {s : State} {n : Nat} {x : FoldTx} (htx : (s.fold n).tx = some x) (ws : List (Nat × Nat)) :
    s.storeWords n ws = s.onFold n fun f => f.shadow ws := by
  rw [State.storeWords, htx]
  rfl

/-! ### GET (R376) -/

theorem exec_get {s : State} {fold : Fin 4} {w : Nat} (h : standsAt s fold w) (hop : kOp w = 0x1D) : exec (.get fold) s = .next (
    if 8 ≤ kImm w then s.foldFault fold 7 (s.fold fold).pc
    else (s.setK fold (kRd w) (s.getValue fold (kImm w))).advance fold) := by
  show execGet fold s = _
  rw [execGet, (standing_of_standsAt h).korty_same hop]

theorem get_reads {s : State} {fold : Fin 4} {w : Nat} (hruns : runsAt s fold 0x1D w) (hsel : kImm w < 8) :
    yields (.get fold) s fun t => setsReg t fold (kRd w) (BitVec.ofNat 32 (s.getValue fold (kImm w))) ∧ wentOn s t fold := by
  have hexec := exec_get hruns.1 hruns.2.1
  rw [if_neg (Nat.not_le.mpr hsel)] at hexec
  exact ⟨_, hexec, setK_advance hruns _⟩

theorem get_role {s : State} {fold : Fin 4} {w : Nat} (hruns : runsAt s fold 0x1D w) (hsel : kImm w = 1) :
    yields (.get fold) s fun t => setsReg t fold (kRd w) (if s.isHead then 1 else 0) := by
  obtain ⟨t, hexec, hreg, -⟩ := get_reads hruns (by omega)
  have hvalue : BitVec.ofNat 32 (s.getValue fold (kImm w)) = if s.isHead then 1 else 0 := by
    rw [hsel, State.getValue]
    cases s.isHead <;> rfl
  exact ⟨t, hexec, hvalue ▸ hreg⟩

/-! ### LD, LDC and QLD (R378) -/

theorem exec_ld {s : State} {fold : Fin 4} {w ea : Nat} (h : standsAt s fold w) (hop : kOp w = 0x40)
    (hea : ea = (reg s fold (kRs1 w) + BitVec.ofNat 32 (kImm w)).toNat) : exec (.ld fold) s = .next (
      s.loading fold (s.fold fold).pc ea 1 fun t => (t.setK fold (kRd w) (t.loadWord fold (ea / 4))).advance fold) := by
  show execLd fold s = _
  rw [execLd, (standing_of_standsAt h).korty_same hop, ea_eq, ← hea]

theorem ld_reads {s : State} {fold : Fin 4} {w ea : Nat} (hruns : runsAt s fold 0x40 w)
    (hea : ea = (reg s fold (kRs1 w) + BitVec.ofNat 32 (kImm w)).toNat) (hrange : ea ≤ 0x3FFFC ∧ ea % 4 = 0)
    (hfree : s.wordPending fold [ea / 4] = false) (hgood : s.loadBad fold (ea / 4) = false) : yields (.ld fold) s fun t =>
      setsReg t fold (kRd w) (BitVec.ofNat 32 (s.loadWord fold (ea / 4))) ∧ wentOn s t fold := by
  have hexec := exec_ld hruns.1 hruns.2.1 hea
  rw [State.loading_word hrange hfree hgood] at hexec
  exact ⟨_, hexec, setK_advance hruns _⟩

theorem exec_ldc {s : State} {fold : Fin 4} {w ea : Nat} (h : standsAt s fold w) (hop : kOp w = 0x42)
    (hea : ea = (reg s fold (kRs1 w) + BitVec.ofNat 32 (kImm w)).toNat) (hrange : ea ≤ 0x3FFF8 ∧ ea % 8 = 0)
    (hfree : s.wordPending fold [ea / 4, ea / 4 + 1] = false)
    (hgood : s.loadBad fold (ea / 4) = false ∧ s.loadBad fold (ea / 4 + 1) = false) : exec (.ldc fold) s = .next (
      if s.loadWord fold (ea / 4 + 1) = m32 - 1 - s.loadWord fold (ea / 4) then
        (s.setK fold (kRd w) (s.loadWord fold (ea / 4))).advance fold
      else s.foldFault fold 5 (s.fold fold).pc) := by
  show execLdc fold s = _
  rw [execLdc, (standing_of_standsAt h).korty_same hop, ea_eq, ← hea, State.loading_pair hrange hfree hgood]

theorem ldc_reads {s : State} {fold : Fin 4} {w ea x : Nat} (hruns : runsAt s fold 0x42 w)
    (hea : ea = (reg s fold (kRs1 w) + BitVec.ofNat 32 (kImm w)).toNat) (hrange : ea ≤ 0x3FFF8 ∧ ea % 8 = 0)
    (hfree : s.wordPending fold [ea / 4, ea / 4 + 1] = false)
    (hgood : s.loadBad fold (ea / 4) = false ∧ s.loadBad fold (ea / 4 + 1) = false)
    (hword : s.loadWord fold (ea / 4) = x ∧ x < 4294967296) (hcomp : s.loadWord fold (ea / 4 + 1) = 4294967295 - x) :
    yields (.ldc fold) s fun t => setsReg t fold (kRd w) (BitVec.ofNat 32 x) ∧ wentOn s t fold := by
  have hexec := exec_ldc hruns.1 hruns.2.1 hea hrange hfree hgood
  rw [hword.1, if_pos (show _ = m32 - 1 - x from hcomp)] at hexec
  exact ⟨_, hexec, setK_advance hruns x⟩

theorem qld_reads {s : State} {fold : Fin 4} {w ea : Nat} (hruns : runsAt s fold 0x43 w)
    (hea : ea = (reg s fold (kRs1 w) + BitVec.ofNat 32 (kImm w)).toNat) (hrange : ea ≤ 0x3FFF8 ∧ ea % 8 = 0)
    (hfree : s.wordPending fold [ea / 4, ea / 4 + 1] = false)
    (hgood : s.loadBad fold (ea / 4) = false ∧ s.loadBad fold (ea / 4 + 1) = false) : yields (.qld fold) s fun t =>
      t.qreg fold (kRd w % 16) = (s.loadWord fold (ea / 4) + 4294967296 * s.loadWord fold (ea / 4 + 1)) % 2 ^ 64 ∧
        wentOn s t fold := by
  have hst := standing_of_standsAt hruns.1
  obtain ⟨v, hv⟩ : ∃ v, v = s.loadWord fold (ea / 4) + m32 * s.loadWord fold (ea / 4 + 1) := ⟨_, rfl⟩
  have hexec : exec (.qld fold) s = .next ((s.setQ fold (kRd w % 16) v).advance fold) := by
    show execQld fold s = _
    rw [execQld, hst.korty_same hruns.2.1, ea_eq, ← hea, State.loading_pair hrange hfree hgood, hv]
  obtain ⟨hwent, hfold⟩ := advance_goesOn hruns (Steady.setQ s fold (kRd w % 16) v)
  have hplace : kRd w % 16 < (s.fold fold).q.length := by
    rw [hst.qLength]
    exact Nat.mod_lt _ (by decide)
  refine ⟨_, hexec, (State.qreg_congr (by rw [hfold]; rfl) _).trans ((State.qreg_setQ hst.lt hplace v).trans ?_), hwent⟩
  rw [hv, show m32 = 4294967296 from rfl]

/-! ### ST and QST (R378, R388) -/

theorem exec_st {s : State} {fold : Fin 4} {w ea : Nat} (h : standsAt s fold w) (hop : kOp w = 0x41)
    (hea : ea = (reg s fold (kRs1 w) + BitVec.ofNat 32 (kImm w)).toNat) :
    exec (.st fold) s = .next (s.storing fold (s.fold fold).pc ea [(reg s fold (kRd w)).toNat]) := by
  show execSt fold s = _
  rw [execSt, (standing_of_standsAt h).korty_same hop, ea_eq, ← hea, kreg_eq]

theorem st_writes {s : State} {fold : Fin 4} {w ea : Nat} (hruns : runsAt s fold 0x41 w)
    (hea : ea = (reg s fold (kRs1 w) + BitVec.ofNat 32 (kImm w)).toNat) (hrange : ea ≤ 0x3FFFC ∧ ea % 4 = 0)
    (hfree : s.wordPending fold [ea / 4] = false) (htx : (s.fold fold).tx = none) : yields (.st fold) s fun t =>
      (t.fold fold).scratch.get (ea / 4) = (reg s fold (kRd w)).toNat ∧
        (∀ a : Nat, a ≠ ea / 4 → (t.fold fold).scratch.get a = (s.fold fold).scratch.get a) ∧
        ea / 4 ∉ (t.fold fold).scratchBad ∧ wentOn s t fold := by
  have hst := standing_of_standsAt hruns.1
  have hexec : exec (.st fold) s = .next ((s.scratchSet fold (ea / 4) (reg s fold (kRd w)).toNat).advance fold) := by
    refine (exec_st hruns.1 hruns.2.1 hea).trans (congrArg Host.Outcome.next ((State.storing_in (scratchOk_word hrange) hfree).trans ?_))
    rw [State.storeWords_live htx]
    rfl
  obtain ⟨hwent, hfold⟩ := advance_goesOn hruns (Steady.scratchSet s fold (ea / 4) (reg s fold (kRd w)).toNat)
  rw [State.scratchSet_fold hst.lt] at hfold
  refine ⟨_, hexec, ?_⟩
  beta_reduce
  rw [hfold]
  exact ⟨(Fold.store_get ..).trans (if_pos rfl), fun a ha => (Fold.store_get ..).trans (if_neg ha),
    (s.fold fold).store_parity (ea / 4) (reg s fold (kRd w)).toNat, hwent⟩

theorem st_shadows {s : State} {fold : Fin 4} {w ea : Nat} (hruns : runsAt s fold 0x41 w)
    (hea : ea = (reg s fold (kRs1 w) + BitVec.ofNat 32 (kImm w)).toNat) (hrange : ea ≤ 0x3FFFC ∧ ea % 4 = 0)
    (hfree : s.wordPending fold [ea / 4] = false) (htx : (s.fold fold).tx.isSome = true) : yields (.st fold) s fun t =>
      (t.fold fold).scratch = (s.fold fold).scratch ∧ t.loadWord fold (ea / 4) = (reg s fold (kRd w)).toNat ∧
        (t.fold fold).tx.map (·.count) = (s.fold fold).tx.map (·.count + 1) ∧ wentOn s t fold := by
  have hst := standing_of_standsAt hruns.1
  obtain ⟨x, hx⟩ := Option.isSome_iff_exists.mp htx
  generalize hv : (reg s fold (kRd w)).toNat = v
  have hexec : exec (.st fold) s = .next ((s.onFold fold fun f => f.shadow [(ea / 4, v)]).advance fold) := by
    rw [exec_st hruns.1 hruns.2.1 hea, hv]
    refine congrArg Host.Outcome.next ((State.storing_in (scratchOk_word hrange) hfree).trans ?_)
    rw [State.storeWords_shadow hx]
    rfl
  obtain ⟨hwent, hfold⟩ := advance_goesOn hruns
    (Steady.onFold s fold (f := fun f => f.shadow [(ea / 4, v)]) (fun _ => rfl) fun _ => rfl)
  rw [State.fold_onFold_same _ hst.lt] at hfold
  have hshadow : (((s.onFold fold fun f => f.shadow [(ea / 4, v)]).advance fold).fold fold).tx = some (x.shadow [(ea / 4, v)]) := by
    rw [hfold]
    show (s.fold fold).tx.map _ = _
    rw [hx, Option.map_some]
  refine ⟨_, hexec, (congrArg Fold.scratch hfold).trans rfl, ?_, ?_, hwent⟩
  · exact State.loadWord_shadow hshadow (List.find?_cons_of_pos (beq_self_eq_true _))
  · rw [hshadow, hx]
    rfl

theorem qst_writes {s : State} {fold : Fin 4} {w ea : Nat} (hruns : runsAt s fold 0x44 w)
    (hea : ea = (reg s fold (kRs1 w) + BitVec.ofNat 32 (kImm w)).toNat) (hrange : ea ≤ 0x3FFF8 ∧ ea % 8 = 0)
    (hfree : s.wordPending fold [ea / 4, ea / 4 + 1] = false) (htx : (s.fold fold).tx = none) : yields (.qst fold) s fun t =>
      (t.fold fold).scratch.get (ea / 4) = s.qreg fold (kRd w % 16) % 4294967296 ∧
        (t.fold fold).scratch.get (ea / 4 + 1) = s.qreg fold (kRd w % 16) / 4294967296 ∧
        (∀ a : Nat, a ≠ ea / 4 → a ≠ ea / 4 + 1 → (t.fold fold).scratch.get a = (s.fold fold).scratch.get a) ∧ wentOn s t fold := by
  have hst := standing_of_standsAt hruns.1
  generalize hq : s.qreg fold (kRd w % 16) = q
  have hexec : exec (.qst fold) s =
      .next (((s.scratchSet fold (ea / 4) (q % m32)).scratchSet fold (ea / 4 + 1) (q / m32)).advance fold) := by
    show execQst fold s = _
    rw [execQst, hst.korty_same hruns.2.1, ea_eq, ← hea, hq]
    refine congrArg Host.Outcome.next ((State.storing_in (scratchOk_pair hrange) hfree).trans ?_)
    rw [State.storeWords_live htx]
    rfl
  obtain ⟨hwent, hfold⟩ := advance_goesOn hruns ((Steady.scratchSet s fold (ea / 4) (q % m32)).trans
    (Steady.scratchSet _ fold (ea / 4 + 1) (q / m32)))
  have hn : fold < (s.scratchSet fold (ea / 4) (q % m32)).folds.length := by
    rw [(Steady.scratchSet s fold (ea / 4) (q % m32)).length]
    exact hst.lt
  rw [State.scratchSet_fold hn, State.scratchSet_fold hst.lt] at hfold
  refine ⟨_, hexec, ?_⟩
  beta_reduce
  rw [hfold]
  refine ⟨?_, (Fold.store_get ..).trans (if_pos rfl), fun a hlow hhigh => ?_, hwent⟩
  · exact (Fold.store_get ..).trans ((if_neg (by omega)).trans ((Fold.store_get ..).trans (if_pos rfl)))
  · exact (Fold.store_get ..).trans ((if_neg hhigh).trans ((Fold.store_get ..).trans (if_neg hlow)))

/-! ### TDONE, HALT and TRAP (R354, R367, R392) -/

theorem exec_tdone {s : State} {fold : Fin 4} {w : Nat} (h : standsAt s fold w) (hop : kOp w = 0x7C) :
    exec (.tdone fold) s = .next (s.endStream fold (s.fold fold).pc false) := by
  show execTdone fold s = _
  rw [execTdone, (standing_of_standsAt h).korty_same hop]

theorem exec_halt {s : State} {fold : Fin 4} {w : Nat} (h : standsAt s fold w) (hop : kOp w = 0x7E) :
    exec (.halt fold) s = .next (s.endStream fold (s.fold fold).pc true) := by
  show execHalt fold s = _
  rw [execHalt, (standing_of_standsAt h).korty_same hop]

theorem State.endStream_open {s : State} {n pc : Nat} {halt : Bool} (h : (s.fold n).strips.any Option.isSome = true) :
    s.endStream n pc halt = s.foldFault n 7 pc := if_pos h

/-- With no open strip the stream of instructions ends, and the run goes on (R354). -/
theorem State.endStream_ends {s : State} {n w : Nat} (h : Standing s n w) (halt : Bool)
    (hstrips : (s.fold n).strips.all Option.isNone = true) :
    ((s.endStream n (s.fold n).pc halt).fold n).ended = true ∧ ((s.endStream n (s.fold n).pc halt).fold n).halt = halt ∧
      ((s.endStream n (s.fold n).pc halt).fold n).steps = (s.fold n).steps + 1 ∧ (s.endStream n (s.fold n).pc halt).inRun n = true := by
  have hnone : ¬(s.fold n).strips.any Option.isSome = true := by
    rw [List.all_eq_true] at hstrips
    rw [List.any_eq_true]
    rintro ⟨x, hx, hsome⟩
    rw [← Option.not_isNone, hstrips x hx] at hsome
    exact Bool.noConfusion hsome
  rw [State.endStream, if_neg hnone, State.fold_onFold_same _ h.lt]
  exact ⟨rfl, rfl, rfl, h.run⟩

theorem bitOf_eq_testBit (v k : Nat) : bitOf v k = v.testBit k := by
  rw [bitOf, Nat.testBit_eq_decide_div_mod_eq]
  rfl

theorem exec_trap {s : State} {fold : Fin 4} {w : Nat} (h : standsAt s fold w) (hop : kOp w = 0x7D) : exec (.trap fold) s = .next (
    if w.testBit 32 then s.foldFault fold 8 (s.fold fold).pc
    else (((s.put F.FOLDn_TRAP_CODE (kImm w) fold).inc F.FOLDn_TRAPS fold).irqAll F.CTXn_IRQ_CAUSE_FOLD).advance fold) := by
  show execTrap fold s = _
  rw [execTrap, (standing_of_standsAt h).korty_same hop, bitOf_eq_testBit]

theorem trap_reports {s : State} {fold : Fin 4} {w : Nat} (hruns : runsAt s fold 0x7D w) (hbit : w.testBit 32 = false) :
    yields (.trap fold) s fun t => t.f F.FOLDn_TRAP_CODE fold = kImm w % 2 ^ F.FOLDn_TRAP_CODE.w ∧
      t.f F.FOLDn_TRAPS fold = min (s.f F.FOLDn_TRAPS fold + 1) (2 ^ F.FOLDn_TRAPS.w - 1) ∧ wentOn s t fold := by
  have hst := standing_of_standsAt hruns.1
  have hexec := exec_trap hruns.1 hruns.2.1
  rw [hbit, if_neg Bool.false_ne_true] at hexec
  have hsteady : Steady fold s (((s.put F.FOLDn_TRAP_CODE (kImm w) fold).inc F.FOLDn_TRAPS fold).irqAll F.CTXn_IRQ_CAUSE_FOLD) := by
    have hfolds : (((s.put F.FOLDn_TRAP_CODE (kImm w) fold).inc F.FOLDn_TRAPS fold).irqAll F.CTXn_IRQ_CAUSE_FOLD).folds = s.folds := by
      rw [(State.irqAll_within ..).same_folds, State.inc_folds, State.put_folds]
    have hfold := State.fold_congr hfolds fold
    refine ⟨congrArg Fold.pc hfold, congrArg Fold.steps hfold, ?_, congrArg List.length hfolds⟩
    rw [State.inRun, State.b, State.irqAll_fold_f rfl rfl (by decide), State.inc, State.add, State.f_put_beside (by decide),
      State.f_put_beside (by decide), State.inRun, State.b]
  refine ⟨_, hexec, ?_, ?_, (advance_goesOn hruns hsteady).1⟩
  · rw [advance_f hruns hsteady (by decide), State.irqAll_fold_f rfl rfl (by decide), State.inc, State.add,
      State.f_put_beside (by decide), State.f_put _ _ _ _ _ (by decide)]
  · rw [advance_f hruns hsteady (by decide), State.irqAll_fold_f rfl rfl (by decide), State.inc, State.f_add _ _ _ _ _ (by decide),
      State.f_put_beside (by decide)]

/-- Settles O28: each clause is the command's rule above; a load outside and inside a transaction differ in the word that it sees. -/
theorem controlAndScratchInstructionsAct : Obligations.ControlAndScratchInstructionsAct := by
  unfold Obligations.ControlAndScratchInstructionsAct
  refine ⟨fun s fold w => get_reads, fun s fold w => get_role, fun s fold w ea hruns hea hrange hfree htx hgood => ?_,
    fun s fold w ea v x hruns hea hrange hfree htx hstore => ?_, fun s fold w ea => st_writes, fun s fold w ea => st_shadows,
    fun s fold w ea x => ldc_reads, fun s fold w ea => qld_reads, fun s fold w ea => qst_writes,
    fun s fold w h hop hstrips => ⟨_, exec_tdone h hop, State.endStream_ends (standing_of_standsAt h) false hstrips⟩,
    fun s fold w h hop hstrips => ⟨_, exec_halt h hop, State.endStream_ends (standing_of_standsAt h) true hstrips⟩,
    fun s fold w => trap_reports⟩
  · rw [← State.loadWord_live htx]
    exact ld_reads hruns hea hrange hfree (State.loadBad_live htx hgood)
  · rw [← State.loadWord_shadow htx hstore]
    exact ld_reads hruns hea hrange hfree (State.loadBad_shadow htx hstore)

end Sys2Proof.Machine
end

section
/-! PROOFS. What a fold faults on, with which code, and its wait for a pipeline result (spec/10_korty_model.md R349, R360, R365 to R367). -/
set_option Elab.async false
namespace Sys2Proof.Machine

/-- A fault records its code, whatever PC stands with it. -/
theorem State.foldFault_code (s : State) {n code pc : Nat} (hcode : code < 32) : (s.foldFault n code pc).f F.FOLDn_FAULT_CODE n = code := by
  rw [State.foldFault_f (by decide), State.recordFault_f rfl rfl (by decide), State.inc, State.add, State.f_put_beside (by decide),
    State.f_put_beside (by decide), State.f_put_beside (by decide), State.f_put _ _ _ _ _ (by decide)]
  exact Nat.mod_eq_of_lt hcode

/-- An instruction that faults leaves its run ended with the code and the PC. -/
theorem Standing.faults {s : State} {n w : Nat} (h : Standing s n w) {code : Nat} (hcode : code < 32) :
    faultedAt s (s.foldFault n code (s.fold n).pc) n code (s.fold n).pc := State.foldFault_faultedAt h.lt hcode h.pc

theorem korty_bad_parity {s : State} {n op : Nat} (hup : s.pwr.up = true) (hrun : s.inRun n = true) (hgoes : (s.fold n).ended = false)
    (hwait : s.f F.FOLDn_STATUS_WAIT n = 0) (hop : kOp ((s.fold n).prog.get (s.fold n).pc) = op) (hpc : (s.fold n).pc < 8192)
    (hbad : (s.fold n).pc ∈ (s.fold n).progBad) (act : State → Nat → Nat → State) :
    s.korty n op act = s.foldFault n 1 (s.fold n).pc := by
  have hready : s.seqReady n op = true := by
    rw [State.seqReady, hup, hrun, hgoes, hwait, hop, beq_self_eq_true op]
    rfl
  rw [State.korty, hready, if_pos rfl, if_neg (Nat.not_le.mpr hpc), if_pos (by simpa using hbad)]

/-- The instruction at 8,191 has none behind it: a sequential PC of 8,192 faults. -/
theorem advance_beyond {s : State} {n w : Nat} (h : Standing s n w) (hlast : (s.fold n).pc = 8191) :
    (s.advance n).f F.FOLDn_FAULT_CODE n = 2 ∧ (s.advance n).inRun n = false := by
  obtain ⟨t, ht⟩ : ∃ t, t = s.onFold n fun f => { f with pc := f.pc + 1, steps := f.steps + 1 } := ⟨_, rfl⟩
  have hfold : t.fold n = (s.fold n).goTo 8192 := by
    rw [ht, State.fold_onFold_same _ h.lt, hlast]
    rfl
  have hbeyond : (((t.put F.FOLDn_STATUS_PC (t.fold n).pc n).inRun n && !((t.put F.FOLDn_STATUS_PC (t.fold n).pc n).fold n).ended) &&
      decide (8192 ≤ ((t.put F.FOLDn_STATUS_PC (t.fold n).pc n).fold n).pc)) = true := by
    rw [State.inRun_put (by decide), State.put_fold, hfold, ht, State.onFold_inRun, h.run, Fold.goTo, h.goes]
    rfl
  rw [State.advance, ← ht, State.fetch, if_pos hbeyond]
  exact ⟨State.foldFault_code _ (by decide), State.foldFault_inRun ..⟩

/-! ### Waits (R360, R361) -/

/-- The fold begins to wait, or waits on. -/
def Fold.await (f : Fold) (code clock : Nat) : Fold :=
  { f with waitFrom := if idleWait code then some (f.waitFrom.getD clock) else none }

theorem State.wait_eq (s : State) (n code : Nat) :
    s.wait n code = (s.put F.FOLDn_STATUS_WAIT code n).onFold n fun f => f.await code s.time.clock := rfl

theorem State.wait_fold {s : State} {n : Nat} (hn : n < s.folds.length) (code : Nat) :
    (s.wait n code).fold n = (s.fold n).await code s.time.clock := by
  rw [State.wait_eq, State.fold_onFold_same _ (by rwa [State.put_folds]), State.put_fold]

theorem State.wait_code {s : State} {n code : Nat} (hcode : code < 8) : (s.wait n code).f F.FOLDn_STATUS_WAIT n = code := by
  rw [State.wait_eq, State.onFold_f, State.f_put _ _ _ _ _ (by decide)]
  exact Nat.mod_eq_of_lt hcode

/-! ### The clauses -/

theorem nop_bad_parity {s : State} {fold : Fin 4} (hst : s.folds.length = 4 ∧ s.pwr.up = true ∧ s.inRun fold = true ∧
    (s.fold fold).ended = false ∧ s.f F.FOLDn_STATUS_WAIT fold = 0) (hop : kOp ((s.fold fold).prog.get (s.fold fold).pc) = 0)
    (hpc : (s.fold fold).pc < 8192) (hbad : (s.fold fold).pc ∈ (s.fold fold).progBad) :
    yields (.nop fold) s fun t => faultedAt s t fold 1 (s.fold fold).pc := by
  obtain ⟨hlen, hup, hrun, hgoes, hwait⟩ := hst
  refine ⟨_, congrArg Host.Outcome.next (korty_bad_parity hup hrun hgoes hwait hop hpc hbad _), ?_⟩
  exact State.foldFault_faultedAt (by rw [hlen]; exact fold.isLt) (by decide) hpc

theorem nop_last {s : State} {fold : Fin 4} {w : Nat} (h : standsAt s fold w) (hop : kOp w = 0) (hlast : (s.fold fold).pc = 8191) :
    yields (.nop fold) s fun t => t.f F.FOLDn_FAULT_CODE fold = 2 ∧ t.inRun fold = false :=
  ⟨_, congrArg Host.Outcome.next ((standing_of_standsAt h).korty_same hop _), advance_beyond (standing_of_standsAt h) hlast⟩

theorem ld_out {s : State} {fold : Fin 4} {w ea : Nat} (h : standsAt s fold w) (hop : kOp w = 0x40)
    (hea : ea = (reg s fold (kRs1 w) + BitVec.ofNat 32 (kImm w)).toNat) (hout : 0x3FFFC < ea ∨ ea % 4 ≠ 0) :
    yields (.ld fold) s fun t => faultedAt s t fold 3 (s.fold fold).pc :=
  ⟨_, (exec_ld h hop hea).trans (congrArg Host.Outcome.next (State.loading_out (not_scratchOk_word hout))),
    (standing_of_standsAt h).faults (by decide)⟩

theorem st_out {s : State} {fold : Fin 4} {w ea : Nat} (h : standsAt s fold w) (hop : kOp w = 0x41)
    (hea : ea = (reg s fold (kRs1 w) + BitVec.ofNat 32 (kImm w)).toNat) (hout : 0x3FFFC < ea ∨ ea % 4 ≠ 0) :
    yields (.st fold) s fun t => faultedAt s t fold 3 (s.fold fold).pc ∧ (t.fold fold).scratch = (s.fold fold).scratch :=
  have hst := standing_of_standsAt h
  ⟨_, (exec_st h hop hea).trans (congrArg Host.Outcome.next (State.storing_out (not_scratchOk_word hout))),
    hst.faults (by decide), State.foldFault_scratch hst.lt ..⟩

theorem exec_qst {s : State} {fold : Fin 4} {w ea : Nat} (h : standsAt s fold w) (hop : kOp w = 0x44)
    (hea : ea = (reg s fold (kRs1 w) + BitVec.ofNat 32 (kImm w)).toNat) : exec (.qst fold) s = .next (s.storing fold (s.fold fold).pc ea
      [s.qreg fold (kRd w % 16) % m32, s.qreg fold (kRd w % 16) / m32]) := by
  show execQst fold s = _
  rw [execQst, (standing_of_standsAt h).korty_same hop, ea_eq, ← hea]

theorem qst_out {s : State} {fold : Fin 4} {w ea : Nat} (h : standsAt s fold w) (hop : kOp w = 0x44)
    (hea : ea = (reg s fold (kRs1 w) + BitVec.ofNat 32 (kImm w)).toNat) (hout : 0x3FFF8 < ea ∨ ea % 8 ≠ 0) :
    yields (.qst fold) s fun t => faultedAt s t fold 3 (s.fold fold).pc ∧ (t.fold fold).scratch = (s.fold fold).scratch :=
  have hst := standing_of_standsAt h
  ⟨_, (exec_qst h hop hea).trans (congrArg Host.Outcome.next (State.storing_out (not_scratchOk_pair hout))),
    hst.faults (by decide), State.foldFault_scratch hst.lt ..⟩

theorem ld_bad {s : State} {fold : Fin 4} {w ea : Nat} (h : standsAt s fold w) (hop : kOp w = 0x40)
    (hea : ea = (reg s fold (kRs1 w) + BitVec.ofNat 32 (kImm w)).toNat) (hrange : ea ≤ 0x3FFFC ∧ ea % 4 = 0)
    (hfree : s.wordPending fold [ea / 4] = false) (hbad : s.loadBad fold (ea / 4) = true) :
    yields (.ld fold) s fun t => faultedAt s t fold 4 (s.fold fold).pc ∧ (t.fold fold).k = (s.fold fold).k := by
  have hst := standing_of_standsAt h
  have hany : (wordsAt ea 1).any (s.loadBad fold) = true := by simpa [wordsAt, List.range_succ] using hbad
  exact ⟨_, (exec_ld h hop hea).trans (congrArg Host.Outcome.next (State.loading_bad (scratchOk_word hrange) hfree hany)),
    hst.faults (by decide), State.foldFault_k hst.lt ..⟩

theorem ld_waits {s : State} {fold : Fin 4} {w ea : Nat} (h : standsAt s fold w) (hop : kOp w = 0x40)
    (hea : ea = (reg s fold (kRs1 w) + BitVec.ofNat 32 (kImm w)).toNat) (hrange : ea ≤ 0x3FFFC ∧ ea % 4 = 0)
    (hpending : s.wordPending fold [ea / 4] = true) : yields (.ld fold) s fun t =>
      t.f F.FOLDn_STATUS_WAIT fold = 2 ∧ (t.fold fold).pc = (s.fold fold).pc ∧ (t.fold fold).k = (s.fold fold).k := by
  have hfold := State.wait_fold (standing_of_standsAt h).lt 2
  exact ⟨_, (exec_ld h hop hea).trans (congrArg Host.Outcome.next (State.loading_waits (scratchOk_word hrange) hpending)),
    State.wait_code (by decide), by rw [hfold]; rfl, by rw [hfold]; rfl⟩

theorem ldc_wrong {s : State} {fold : Fin 4} {w ea : Nat} (h : standsAt s fold w) (hop : kOp w = 0x42)
    (hea : ea = (reg s fold (kRs1 w) + BitVec.ofNat 32 (kImm w)).toNat) (hrange : ea ≤ 0x3FFF8 ∧ ea % 8 = 0)
    (hfree : s.wordPending fold [ea / 4, ea / 4 + 1] = false)
    (hgood : s.loadBad fold (ea / 4) = false ∧ s.loadBad fold (ea / 4 + 1) = false)
    (hwrong : s.loadWord fold (ea / 4) + s.loadWord fold (ea / 4 + 1) ≠ 4294967295 ∧ s.loadWord fold (ea / 4) < 4294967296) :
    yields (.ldc fold) s fun t => faultedAt s t fold 5 (s.fold fold).pc ∧ (t.fold fold).k = (s.fold fold).k := by
  have hst := standing_of_standsAt h
  obtain ⟨hsum, hlt⟩ := hwrong
  have hexec := exec_ldc h hop hea hrange hfree hgood
  rw [if_neg (by
    rw [show m32 = 4294967296 from rfl]
    omega)] at hexec
  exact ⟨_, hexec, hst.faults (by decide), State.foldFault_k hst.lt ..⟩

theorem get_bad {s : State} {fold : Fin 4} {w : Nat} (h : standsAt s fold w) (hop : kOp w = 0x1D) (hsel : 8 ≤ kImm w) :
    yields (.get fold) s fun t => faultedAt s t fold 7 (s.fold fold).pc :=
  ⟨_, (exec_get h hop).trans (congrArg Host.Outcome.next (if_pos hsel)), (standing_of_standsAt h).faults (by decide)⟩

theorem tdone_open {s : State} {fold : Fin 4} {w : Nat} (h : standsAt s fold w) (hop : kOp w = 0x7C)
    (hopen : (s.fold fold).strips.any Option.isSome = true) : yields (.tdone fold) s fun t => faultedAt s t fold 7 (s.fold fold).pc :=
  ⟨_, (exec_tdone h hop).trans (congrArg Host.Outcome.next (State.endStream_open hopen)), (standing_of_standsAt h).faults (by decide)⟩

theorem trap_stops {s : State} {fold : Fin 4} {w : Nat} (h : standsAt s fold w) (hop : kOp w = 0x7D) (hbit : w.testBit 32 = true) :
    yields (.trap fold) s fun t => faultedAt s t fold 8 (s.fold fold).pc :=
  ⟨_, (exec_trap h hop).trans (congrArg Host.Outcome.next (if_pos hbit)), (standing_of_standsAt h).faults (by decide)⟩

/-- TXBEGIN opens a transaction when its operand names a boundary and the fold has none (R388). -/
theorem exec_kortyTxbegin {s : State} {fold : Fin 4} {w : Nat} (h : standsAt s fold w) (hop : kOp w = 0x70) :
    exec (.kortyTxbegin fold) s = .next (
      if kImm w = 3 then s.foldFault fold 7 (s.fold fold).pc
      else if (s.fold fold).tx.isSome || (s.fold fold).scheduled.isSome then s.foldFault fold 9 (s.fold fold).pc
      else (s.onFold fold fun f => { f with tx := some ⟨kImm w, (((s.fold fold).frame : Int) +
        seqDiff 32 (s.kreg fold (kRs1 w)) ((s.fold fold).frame % m32)).toNat, s.f F.TIME_TEPOCH, [], 0⟩ }).advance fold) := by
  show execKortyTxbegin fold s = _
  rw [execKortyTxbegin, (standing_of_standsAt h).korty_same hop]

theorem txbegin_operand {s : State} {fold : Fin 4} {w : Nat} (h : standsAt s fold w) (hop : kOp w = 0x70) (himm : kImm w = 3) :
    yields (.kortyTxbegin fold) s fun t => faultedAt s t fold 7 (s.fold fold).pc :=
  ⟨_, (exec_kortyTxbegin h hop).trans (congrArg Host.Outcome.next (if_pos himm)), (standing_of_standsAt h).faults (by decide)⟩

theorem txbegin_open {s : State} {fold : Fin 4} {w : Nat} (h : standsAt s fold w) (hop : kOp w = 0x70) (himm : kImm w < 3)
    (hopen : (s.fold fold).tx.isSome = true ∨ (s.fold fold).scheduled.isSome = true) :
    yields (.kortyTxbegin fold) s fun t => faultedAt s t fold 9 (s.fold fold).pc := by
  have hexec := exec_kortyTxbegin h hop
  rw [if_neg (by omega), if_pos (by rwa [Bool.or_eq_true])] at hexec
  exact ⟨_, hexec, (standing_of_standsAt h).faults (by decide)⟩

theorem txend_none {s : State} {fold : Fin 4} {w : Nat} (h : standsAt s fold w) (hop : kOp w = 0x71) (htx : (s.fold fold).tx = none) :
    yields (.kortyTxend fold) s fun t => faultedAt s t fold 9 (s.fold fold).pc := by
  have hst := standing_of_standsAt h
  have hexec : exec (.kortyTxend fold) s = .next (s.foldFault fold 9 (s.fold fold).pc) := by
    show execKortyTxend fold s = _
    rw [execKortyTxend, hst.korty_same hop, htx]
  exact ⟨_, hexec, hst.faults (by decide)⟩

/-- Settles O29: each clause is one fault of the rules above. -/
theorem foldFaults : Obligations.FoldFaults := by
  unfold Obligations.FoldFaults
  exact ⟨fun s fold => nop_bad_parity, fun s fold w => nop_last, fun s fold w ea => ld_out, fun s fold w ea => st_out,
    fun s fold w ea => qst_out, fun s fold w ea => ld_bad, fun s fold w ea => ld_waits, fun s fold w ea => ldc_wrong,
    fun s fold w => get_bad, fun s fold w => tdone_open, fun s fold w => txbegin_operand, fun s fold w => trap_stops,
    fun s fold w => txbegin_open, fun s fold w => txend_none⟩

end Sys2Proof.Machine
end

section
/-! PROOFS. Folds that wait, signal, pause and yield (spec/10_korty_model.md R361, spec/11_korty_instructions.md R387). -/
set_option Elab.async false
namespace Sys2Proof.Machine

/-! ### An instruction that may wait -/

/-- The number that a word of 32 bits is as a signed one. -/
theorem s32_toNat (x : BitVec 32) : s32 x.toNat = x.toInt := by
  have hlt := x.isLt
  rw [s32, sgn, BitVec.toInt, Nat.mod_eq_of_lt hlt]
  simp only [show 2 ^ (32 - 1) = 2147483648 from rfl, show 2 ^ 32 = 4294967296 from rfl] at *
  split <;> split <;> omega

/-- The records of the waits for an instant, for flags of a fold and for strips. -/
def Fold.awaitTime (f : Fold) (t : Nat) : Fold := { f with until_ := some t }
def Fold.awaitFlags (f : Fold) (m mask : Nat) : Fold := { f with waitFlags := some (m, mask) }
def Fold.awaitStrips (f : Fold) (k : Nat) : Fold := { f with yieldTo := some k }

/-- An instruction that does not wait goes on, and leaves the fold with no wait. -/
theorem advanceWait_goes {n op w : Nat} {s t : State} (hruns : runsAt s n op w) (h : Steady n s t)
    (hwait : t.f F.FOLDn_STATUS_WAIT n = s.f F.FOLDn_STATUS_WAIT n) (act : State → State) :
    wentOn s (t.advanceWait n false act) n ∧ (t.advanceWait n false act).f F.FOLDn_STATUS_WAIT n = 0 ∧
      (t.advanceWait n false act).fold n = (t.fold n).goTo ((s.fold n).pc + 1) := by
  have hsame : t.advanceWait n false act = t.advance n := by
    rw [State.advanceWait, if_neg Bool.false_ne_true, State.advance]
  obtain ⟨hwent, hfold⟩ := advance_goesOn hruns h
  rw [hsame]
  exact ⟨hwent, by rw [advance_f hruns h (by decide), hwait, (standing_of_standsAt hruns.1).wait], hfold⟩

/-- An instruction that waits stands at the next one, with what it waits for in its record. -/
theorem advanceWait_waits {n op w code : Nat} {s t : State} (hruns : runsAt s n op w) (h : Steady n s t) (hcode : code < 8)
    {act : State → State} {g : Fold → Fold}
    (hact : act (t.goTo n ((s.fold n).pc + 1)) = ((t.goTo n ((s.fold n).pc + 1)).onFold n g).wait n code)
    (hpc : ∀ x, (g x).pc = x.pc) (hsteps : ∀ x, (g x).steps = x.steps) :
    wentOn s (t.advanceWait n true act) n ∧ (t.advanceWait n true act).f F.FOLDn_STATUS_WAIT n = code ∧
      ∃ clock, (t.advanceWait n true act).fold n = (g ((t.fold n).goTo ((s.fold n).pc + 1))).await code clock := by
  have hst := standing_of_standsAt hruns.1
  have hn : n < t.folds.length := h.length ▸ hst.lt
  have hnext : t.onFold n (fun f => { f with pc := f.pc + 1, steps := f.steps + 1 }) =
      t.onFold n fun f => f.goTo ((s.fold n).pc + 1) := State.onFold_congr (by rw [Fold.goTo, h.pc])
  have hgoes : t.advanceWait n true act = ((t.goTo n ((s.fold n).pc + 1)).onFold n g).wait n code := by
    rw [State.advanceWait, hnext, if_pos rfl, State.fold_onFold_same _ hn, ← hact]
    rfl
  have hfold : ((((t.goTo n ((s.fold n).pc + 1)).onFold n g).wait n code).fold n) = (g ((t.fold n).goTo ((s.fold n).pc + 1))).await code
      ((t.goTo n ((s.fold n).pc + 1)).onFold n g).time.clock := by
    rw [State.wait_fold (by rwa [State.onFold_length, State.goTo_length]), State.fold_onFold_same _ (by rwa [State.goTo_length]),
      State.goTo_fold hn]
  rw [hgoes]
  refine ⟨⟨?_, ?_, ?_⟩, State.wait_code hcode, _, hfold⟩
  · rw [hfold]
    exact hpc _
  · rw [hfold, ← h.steps]
    exact hsteps _
  · rw [State.wait_eq, State.onFold_inRun, State.inRun_put (by decide), State.onFold_inRun, State.goTo_inRun, h.run, hst.run]

/-! ### WAITT -/

/-- The instant that WAITT names: an offset from the start of the run. -/
abbrev waitInstant (s : State) (n w : Nat) : Int :=
  ((s.fold n).start : Int) + (reg s n (kRs1 w) + BitVec.ofNat 32 (kImm w)).toInt * (nsU : Nat)

/-- Z tells whether the instant had passed. -/
def Fold.setZ (f : Fold) (z : Bool) : Fold := { f with z := z }

theorem exec_waitt {s : State} {fold : Fin 4} {w : Nat} (h : standsAt s fold w) (hop : kOp w = 0x60) : exec (.waitt fold) s = .next (
    (s.onFold fold fun f => f.setZ (decide (waitInstant s fold w < s.time.clock))).advanceWait fold
      (decide ((s.time.clock : Int) < waitInstant s fold w)) fun x =>
        (x.onFold fold fun f => f.awaitTime (waitInstant s fold w).toNat).wait fold 3) := by
  show execWaitt fold s = _
  rw [execWaitt, (standing_of_standsAt h).korty_same hop]
  simp only [kreg_add, s32_toNat]
  rfl

theorem Steady.setZ (s : State) (n : Nat) (z : Bool) : Steady n s (s.onFold n fun f => f.setZ z) :=
  Steady.onFold s n (fun _ => rfl) fun _ => rfl

theorem waitt_passed {s : State} {fold : Fin 4} {w : Nat} (hruns : runsAt s fold 0x60 w) (htime : waitInstant s fold w ≤ s.time.clock) :
    yields (.waitt fold) s fun t => (t.fold fold).z = decide (waitInstant s fold w < s.time.clock) ∧
      t.f F.FOLDn_STATUS_WAIT fold = 0 ∧ wentOn s t fold := by
  have hexec := exec_waitt hruns.1 hruns.2.1
  rw [decide_eq_false (Int.not_lt.mpr htime)] at hexec
  obtain ⟨hwent, hwait, hfold⟩ := advanceWait_goes hruns (Steady.setZ s fold (decide (waitInstant s fold w < s.time.clock))) rfl
    fun x => (x.onFold fold fun f => f.awaitTime (waitInstant s fold w).toNat).wait fold 3
  rw [State.fold_onFold_same _ (standing_of_standsAt hruns.1).lt] at hfold
  exact ⟨_, hexec, by rw [hfold]; rfl, hwait, hwent⟩

theorem waitt_waits {s : State} {fold : Fin 4} {w : Nat} (hruns : runsAt s fold 0x60 w)
    (htime : (s.time.clock : Int) < waitInstant s fold w) :
    yields (.waitt fold) s fun t => (t.fold fold).z = false ∧ t.f F.FOLDn_STATUS_WAIT fold = 3 ∧
      ((t.fold fold).until_.map fun x => (x : Int)) = some (waitInstant s fold w) ∧ wentOn s t fold := by
  have hexec := exec_waitt hruns.1 hruns.2.1
  rw [decide_eq_true htime, decide_eq_false (by omega)] at hexec
  obtain ⟨hwent, hwait, clock, hfold⟩ := advanceWait_waits hruns (Steady.setZ s fold false) (code := 3) (by decide)
    (g := fun f => f.awaitTime (waitInstant s fold w).toNat)
    (act := fun x => (x.onFold fold fun f => f.awaitTime (waitInstant s fold w).toNat).wait fold 3)
    rfl (by intro f; rfl) (by intro f; rfl)
  rw [State.fold_onFold_same _ (standing_of_standsAt hruns.1).lt] at hfold
  refine ⟨_, hexec, by rw [hfold]; rfl, hwait, ?_, hwent⟩
  have huntil : (some (waitInstant s fold w).toNat).map (fun x => (x : Int)) = some (waitInstant s fold w) :=
    congrArg some (Int.toNat_of_nonneg (by omega))
  rw [hfold, ← huntil]
  rfl

/-! ### WAITH -/

/-- Fold `m` runs for the frame and the slot of fold `n`: its flags can still come. -/
abbrev runsBeside (s : State) (n m : Nat) : Bool := s.inRun m && (s.fold m).frame == (s.fold n).frame && (s.fold m).slot == (s.fold n).slot

/-- V tells that the flags can no longer come. -/
def Fold.setV (f : Fold) (v : Bool) : Fold := { f with v := v }

theorem exec_waith {s : State} {fold : Fin 4} {w m mask : Nat} (h : standsAt s fold w) (hop : kOp w = 0x61)
    (hargs : m = kImm w % 4 ∧ mask = bits (kImm w) 8 8) : exec (.waith fold) s = .next (
      (s.onFold fold fun f => f.setV (!(Nat.land (s.fold m).events mask == mask) && !runsBeside s fold m)).advanceWait fold
        (!(Nat.land (s.fold m).events mask == mask) && runsBeside s fold m) fun x =>
          (x.onFold fold fun f => f.awaitFlags m mask).wait fold 4) := by
  obtain ⟨rfl, rfl⟩ := hargs
  show execWaith fold s = _
  rw [execWaith, (standing_of_standsAt h).korty_same hop]
  rfl

theorem Steady.setV (s : State) (n : Nat) (v : Bool) : Steady n s (s.onFold n fun f => f.setV v) :=
  Steady.onFold s n (fun _ => rfl) fun _ => rfl

/-- WAITH that need not wait: the flags are set, or they can no longer come. -/
theorem waith_goes {s : State} {fold : Fin 4} {w m mask : Nat} (hruns : runsAt s fold 0x61 w)
    (hargs : m = kImm w % 4 ∧ mask = bits (kImm w) 8 8) {v : Bool}
    (hv : (!(Nat.land (s.fold m).events mask == mask) && !runsBeside s fold m) = v)
    (hgoes : (!(Nat.land (s.fold m).events mask == mask) && runsBeside s fold m) = false) : yields (.waith fold) s fun t =>
      (t.fold fold).v = v ∧ t.f F.FOLDn_STATUS_WAIT fold = 0 ∧ wentOn s t fold := by
  have hexec := exec_waith hruns.1 hruns.2.1 hargs
  rw [hv, hgoes] at hexec
  obtain ⟨hwent, hwait, hfold⟩ := advanceWait_goes hruns (Steady.setV s fold v) rfl
    fun x => (x.onFold fold fun f => f.awaitFlags m mask).wait fold 4
  rw [State.fold_onFold_same _ (standing_of_standsAt hruns.1).lt] at hfold
  exact ⟨_, hexec, by rw [hfold]; rfl, hwait, hwent⟩

theorem runsBeside_of {s : State} {n m : Nat} 
    (h : s.inRun m = true ∧ (s.fold m).frame = (s.fold n).frame ∧ (s.fold m).slot = (s.fold n).slot) : runsBeside s n m = true := by
  obtain ⟨hrun, hframe, hslot⟩ := h
  rw [runsBeside, hrun, hframe, hslot, beq_self_eq_true, beq_self_eq_true]
  rfl

theorem not_runsBeside_of {s : State} {n m : Nat} 
    (h : s.inRun m = false ∨ (s.fold m).frame ≠ (s.fold n).frame ∨ (s.fold m).slot ≠ (s.fold n).slot) : runsBeside s n m = false := by
  rw [runsBeside, Bool.and_assoc, Bool.and_eq_false_iff, Bool.and_eq_false_iff, beq_eq_false_iff_ne, beq_eq_false_iff_ne]
  exact h

theorem waith_waits {s : State} {fold : Fin 4} {w m mask : Nat} (hruns : runsAt s fold 0x61 w)
    (hargs : m = kImm w % 4 ∧ mask = bits (kImm w) 8 8) (hclear : Nat.land (s.fold m).events mask ≠ mask)
    (hbeside : s.inRun m = true ∧ (s.fold m).frame = (s.fold fold).frame ∧ (s.fold m).slot = (s.fold fold).slot) :
    yields (.waith fold) s fun t => t.f F.FOLDn_STATUS_WAIT fold = 4 ∧ (t.fold fold).waitFlags = some (m, mask) ∧ wentOn s t fold := by
  have hexec := exec_waith hruns.1 hruns.2.1 hargs
  rw [beq_eq_false_iff_ne.mpr hclear, runsBeside_of hbeside, Bool.not_false, Bool.not_true, Bool.true_and, Bool.and_self] at hexec
  obtain ⟨hwent, hwait, clock, hfold⟩ := advanceWait_waits hruns (Steady.setV s fold false) (code := 4) (by decide)
    (g := fun f => f.awaitFlags m mask)
    (act := fun x => (x.onFold fold fun f => f.awaitFlags m mask).wait fold 4)
    rfl (by intro f; rfl) (by intro f; rfl)
  exact ⟨_, hexec, hwait, by rw [hfold]; rfl, hwent⟩

/-! ### SIGNAL -/

/-- Event flags are set: the folds that await them go on. -/
def Fold.signal (f : Fold) (mask : Nat) : Fold := { f with events := Nat.lor f.events mask }

theorem State.setFlags_eq (s : State) (n mask : Nat) : s.setFlags n mask =
    (((s.onFold n fun f => f.signal mask).put F.FOLDn_STATUS_FLAGS ((s.onFold n fun f => f.signal mask).fold n).events n).wakeFlags n) :=
  rfl

theorem State.setFlags_awake {s : State} {n : Nat} (hn : n < s.folds.length) (mask : Nat) :
    ((s.setFlags n mask).fold n).awake = ((s.fold n).signal mask).awake := by
  rw [State.setFlags_eq, State.wakeFlags_awake, State.put_fold, State.fold_onFold_same _ hn]

theorem Steady.setFlags {s : State} {n : Nat} (hn : n < s.folds.length) (mask : Nat) : Steady n s (s.setFlags n mask) := by
  have hfold := State.setFlags_awake hn mask
  have hpc := congrArg Fold.pc hfold
  have hsteps := congrArg Fold.steps hfold
  refine ⟨hpc, hsteps, ?_, ?_⟩
  · rw [State.setFlags_eq, State.wakeFlags_inRun, State.inRun_put (by decide), State.onFold_inRun]
  · rw [State.setFlags_eq, State.wakeFlags_length, State.put_folds, State.onFold_length]

/-- A signal in its place behind the pipeline work issued before it. -/
def signalItem (mask pc : Nat) : PItem := ⟨0x62, ⟨0, 0, 0, 0, 0, 0, false, false, none⟩, none, mask, true, 0, 0, pc⟩

/-- An item at the end of the pipeline queue. -/
def Fold.enqueue (f : Fold) (i : PItem) : Fold := { f with queue := f.queue ++ [i] }

/-- A signal is no strip: it counts for no YIELD. -/
theorem Fold.incomplete_signal (f : Fold) (mask pc : Nat) : (f.enqueue (signalItem mask pc)).incomplete = f.incomplete := by
  show ((f.queue ++ [signalItem mask pc]).filter _).length = _
  rw [List.filter_append, List.length_append]
  rfl

theorem exec_signal {s : State} {fold : Fin 4} {w : Nat} (h : standsAt s fold w) (hop : kOp w = 0x62) : exec (.signal fold) s = .next (
    (if (s.fold fold).queue.isEmpty then s.setFlags fold (bits (kImm w) 0 8)
    else s.onFold fold fun f => f.enqueue (signalItem (bits (kImm w) 0 8) f.pc)).advance fold) := by
  show execSignal fold s = _
  rw [execSignal, (standing_of_standsAt h).korty_same hop]
  rfl

theorem signal_atOnce {s : State} {fold : Fin 4} {w : Nat} (hruns : runsAt s fold 0x62 w) (hqueue : (s.fold fold).queue = []) :
    yields (.signal fold) s fun t => (t.fold fold).events = Nat.lor (s.fold fold).events (bits (kImm w) 0 8) ∧ wentOn s t fold := by
  have hst := standing_of_standsAt hruns.1
  have hexec := exec_signal hruns.1 hruns.2.1
  rw [hqueue, List.isEmpty_nil, if_pos rfl] at hexec
  obtain ⟨hwent, hfold⟩ := advance_goesOn hruns (Steady.setFlags hst.lt (bits (kImm w) 0 8))
  have hevents : ((s.setFlags fold (bits (kImm w) 0 8)).fold fold).events = Nat.lor (s.fold fold).events (bits (kImm w) 0 8) := by
    have hawake := congrArg Fold.events (State.setFlags_awake hst.lt (bits (kImm w) 0 8))
    exact hawake
  refine ⟨_, hexec, ?_, hwent⟩
  rw [hfold, ← hevents]
  rfl

theorem signal_inPlace {s : State} {fold : Fin 4} {w : Nat} (hruns : runsAt s fold 0x62 w) (hqueue : (s.fold fold).queue ≠ []) :
    yields (.signal fold) s fun t => (t.fold fold).events = (s.fold fold).events ∧
      (t.fold fold).queue.length = (s.fold fold).queue.length + 1 ∧ (t.fold fold).incomplete = (s.fold fold).incomplete ∧
      wentOn s t fold := by
  have hst := standing_of_standsAt hruns.1
  have hexec := exec_signal hruns.1 hruns.2.1
  rw [if_neg (by rwa [List.isEmpty_iff])] at hexec
  obtain ⟨hwent, hfold⟩ := advance_goesOn hruns (Steady.onFold s fold
    (f := fun f => f.enqueue (signalItem (bits (kImm w) 0 8) f.pc)) (fun _ => rfl) fun _ => rfl)
  rw [State.fold_onFold_same _ hst.lt] at hfold
  refine ⟨_, hexec, by rw [hfold]; rfl, ?_, ?_, hwent⟩
  · rw [hfold]
    exact List.length_append
  · rw [hfold, ← Fold.incomplete_signal (s.fold fold) (bits (kImm w) 0 8) (s.fold fold).pc]
    rfl

/-! ### PAUSE and YIELD -/

@[simp] theorem State.goTo_time (s : State) (n pc : Nat) : (s.goTo n pc).time = s.time := by
  rw [State.goTo, State.put_time, State.onFold_time]

theorem exec_pause {s : State} {fold : Fin 4} {w : Nat} (h : standsAt s fold w) (hop : kOp w = 0x63) : exec (.pause fold) s = .next (
    s.advanceWait fold (bits (kImm w) 0 20 != 0) fun x =>
      (x.onFold fold fun f => f.awaitTime (x.time.clock + bits (kImm w) 0 20 * nsU)).wait fold 5) := by
  show execPause fold s = _
  rw [execPause, (standing_of_standsAt h).korty_same hop]
  rfl

theorem pause_waits {s : State} {fold : Fin 4} {w ns : Nat} (hruns : runsAt s fold 0x63 w) (hns : ns = bits (kImm w) 0 20) :
    yields (.pause fold) s fun t => (if ns = 0 then t.f F.FOLDn_STATUS_WAIT fold = 0 else t.f F.FOLDn_STATUS_WAIT fold = 5 ∧
      (t.fold fold).until_ = some (s.time.clock + ns * nsU)) ∧ wentOn s t fold := by
  have hexec := exec_pause hruns.1 hruns.2.1
  rw [← hns] at hexec
  by_cases hzero : ns = 0
  · rw [hzero, bne_self_eq_false] at hexec
    obtain ⟨hwent, hwait, -⟩ := advanceWait_goes hruns (Steady.refl fold s) rfl
      fun x => (x.onFold fold fun f => f.awaitTime (x.time.clock + 0 * nsU)).wait fold 5
    exact ⟨_, hexec, by rwa [if_pos hzero], hwent⟩
  · rw [bne_iff_ne.mpr hzero] at hexec
    obtain ⟨hwent, hwait, clock, hfold⟩ := advanceWait_waits hruns (Steady.refl fold s) (code := 5) (by decide)
      (g := fun f => f.awaitTime (s.time.clock + ns * nsU))
      (act := fun x => (x.onFold fold fun f => f.awaitTime (x.time.clock + ns * nsU)).wait fold 5)
      (by rw [State.goTo_time]) (by intro f; rfl) (by intro f; rfl)
    refine ⟨_, hexec, ?_, hwent⟩
    rw [if_neg hzero]
    exact ⟨hwait, by rw [hfold]; rfl⟩

theorem exec_yield {s : State} {fold : Fin 4} {w : Nat} (h : standsAt s fold w) (hop : kOp w = 0x64) : exec (.yield fold) s = .next (
    s.advanceWait fold (decide (bits (kImm w) 0 7 < (s.fold fold).incomplete)) fun x =>
      (x.onFold fold fun f => f.awaitStrips (bits (kImm w) 0 7)).wait fold 6) := by
  show execYield fold s = _
  rw [execYield, (standing_of_standsAt h).korty_same hop]
  rfl

theorem yield_waits {s : State} {fold : Fin 4} {w k : Nat} (hruns : runsAt s fold 0x64 w) (hk : k = bits (kImm w) 0 7) :
    yields (.yield fold) s fun t => (if (s.fold fold).incomplete ≤ k then t.f F.FOLDn_STATUS_WAIT fold = 0
      else t.f F.FOLDn_STATUS_WAIT fold = 6 ∧ (t.fold fold).yieldTo = some k) ∧ wentOn s t fold := by
  have hexec := exec_yield hruns.1 hruns.2.1
  rw [← hk] at hexec
  by_cases hfew : (s.fold fold).incomplete ≤ k
  · rw [decide_eq_false (Nat.not_lt.mpr hfew)] at hexec
    obtain ⟨hwent, hwait, -⟩ := advanceWait_goes hruns (Steady.refl fold s) rfl
      fun x => (x.onFold fold fun f => f.awaitStrips k).wait fold 6
    exact ⟨_, hexec, by rwa [if_pos hfew], hwent⟩
  · rw [decide_eq_true (Nat.not_le.mp hfew)] at hexec
    obtain ⟨hwent, hwait, clock, hfold⟩ := advanceWait_waits hruns (Steady.refl fold s) (code := 6) (by decide)
      (g := fun f => f.awaitStrips k)
      (act := fun x => (x.onFold fold fun f => f.awaitStrips k).wait fold 6)
      rfl (by intro f; rfl) (by intro f; rfl)
    refine ⟨_, hexec, ?_, hwent⟩
    rw [if_neg hfew]
    exact ⟨hwait, by rw [hfold]; rfl⟩

/-- Settles O32: each instruction's rule, by whether it waits. -/
theorem foldsSynchronise : Obligations.FoldsSynchronise := by
  unfold Obligations.FoldsSynchronise
  refine ⟨fun s fold w => waitt_passed, fun s fold w => waitt_waits, fun s fold w m mask hruns hargs hset => ?_,
    fun s fold w m mask hruns hargs hclear hgone => ?_, fun s fold w m mask => waith_waits, fun s fold w => signal_atOnce,
    fun s fold w => signal_inPlace, fun s fold w ns => pause_waits, fun s fold w k => yield_waits⟩
  · have hflags := beq_iff_eq.mpr hset
    exact waith_goes hruns hargs (by rw [hflags]; rfl) (by rw [hflags]; rfl)
  · have hflags := beq_eq_false_iff_ne.mpr hclear
    have hno := not_runsBeside_of hgone
    exact waith_goes hruns hargs (by rw [hflags, hno]; rfl) (by rw [hflags, hno]; rfl)

end Sys2Proof.Machine
end

section
/-! PROOFS. Control, pacing and the end of a run (spec/10_korty_model.md R351, R352, R354, R363, R368;
spec/11_korty_instructions.md R387). -/
set_option Elab.async false
namespace Sys2Proof.Machine

/-! ### Control (R351, R352, R368) -/

/-- The marks that a clear of ENABLE leaves (R352). -/
def Fold.notToRun (f : Fold) : Fold := { f with toRun := none }
def Fold.stopping (f : Fold) : Fold := { f with toStop := true }

theorem foldEnable_true {s : State} {n : Nat} (hbroken : s.foldBroken n = false) (at_ : Nat) : s.foldEnable n true at_ =
    if (s.flag F.FOLDn_CTL_ENABLE true n).foldState n == 0 then (s.flag F.FOLDn_CTL_ENABLE true n).runFrom n at_
    else (s.flag F.FOLDn_CTL_ENABLE true n).onFold n fun f => { f with toStop := false } := by
  rw [State.foldEnable, hbroken, if_neg Bool.false_ne_true, if_pos rfl]

theorem foldEnable_false {s : State} {n : Nat} (hbroken : s.foldBroken n = false) (at_ : Nat) : s.foldEnable n false at_ =
    if (s.flag F.FOLDn_CTL_ENABLE false n).foldState n == 1 then
      ((s.flag F.FOLDn_CTL_ENABLE false n).onFold n Fold.notToRun).onFold n Fold.stopping
    else ((s.flag F.FOLDn_CTL_ENABLE false n).onFold n Fold.notToRun).put F.FOLDn_STATUS_STATE 0 n := by
  rw [State.foldEnable, hbroken, if_neg Bool.false_ne_true, if_neg Bool.false_ne_true]
  rfl

/-- The state of a fold is a field beside CTL.ENABLE. -/
theorem foldState_enable (s : State) (n : Nat) (v : Bool) : (s.flag F.FOLDn_CTL_ENABLE v n).foldState n = s.foldState n := by
  rw [State.foldState, State.flag, State.f_put_beside (by decide), State.foldState]

theorem foldEnable_set {s : State} {fold : Fin 4} (hup : s.pwr.up = true) (hlen : s.folds.length = 4)
    (hbroken : s.foldBroken fold = false) (hstopped : s.foldState fold = 0) : yields (.foldEnable fold true) s fun t =>
      t.b F.FOLDn_CTL_ENABLE fold = true ∧ (t.fold fold).toRun = some ((s.fold fold).toRun.getD s.time.clock) ∧
        t.foldState fold = 0 := by
  have hexec : exec (.foldEnable fold true) s = .next ((s.flag F.FOLDn_CTL_ENABLE true fold).runFrom fold s.time.clock) := by
    show execFoldEnable fold true s = _
    rw [execFoldEnable, if_pos hup, foldEnable_true hbroken, foldState_enable, hstopped, if_pos (beq_self_eq_true 0)]
  refine ⟨_, hexec, ?_, ?_, ?_⟩
  · rw [State.runFrom, State.onFold_b, State.b_flag _ _ _ _ _ (by decide) rfl]
  · rw [State.runFrom, State.fold_onFold_same _ (by rw [State.flag_folds, hlen]; exact fold.isLt), State.flag_fold]
  · exact (foldState_enable s fold true).trans hstopped

theorem foldEnable_clear {s : State} {fold : Fin 4} (hup : s.pwr.up = true) (hlen : s.folds.length = 4)
    (hbroken : s.foldBroken fold = false) : yields (.foldEnable fold false) s fun t =>
      t.b F.FOLDn_CTL_ENABLE fold = false ∧ (t.fold fold).toRun = none ∧
        (if s.foldState fold = 1 then (t.fold fold).toStop = true ∧ t.foldState fold = 1 else t.foldState fold = 0) := by
  generalize hoff : s.flag F.FOLDn_CTL_ENABLE false fold = off
  have henable : off.b F.FOLDn_CTL_ENABLE fold = false := by rw [← hoff, State.b_flag _ _ _ _ _ (by decide) rfl]
  have hstate : off.foldState fold = s.foldState fold := by rw [← hoff, foldState_enable]
  have hn : fold < off.folds.length := by
    rw [← hoff, State.flag_folds, hlen]
    exact fold.isLt
  have hexec : exec (.foldEnable fold false) s = .next (
      if s.foldState fold == 1 then (off.onFold fold Fold.notToRun).onFold fold Fold.stopping
      else (off.onFold fold Fold.notToRun).put F.FOLDn_STATUS_STATE 0 fold) := by
    show execFoldEnable fold false s = _
    rw [execFoldEnable, if_pos hup, foldEnable_false hbroken, hoff, hstate]
  by_cases hrunning : s.foldState fold = 1
  · rw [hrunning, if_pos (beq_self_eq_true 1)] at hexec
    have hfold : ((off.onFold fold Fold.notToRun).onFold fold Fold.stopping).fold fold = (off.fold fold).notToRun.stopping := by
      rw [State.fold_onFold_same _ (by rwa [State.onFold_length]), State.fold_onFold_same _ hn]
    refine ⟨_, hexec, henable, ?_, ?_⟩
    · rw [hfold]
      rfl
    · rw [if_pos hrunning]
      exact ⟨by rw [hfold]; rfl, hstate.trans hrunning⟩
  · rw [if_neg (by rwa [beq_iff_eq])] at hexec
    refine ⟨_, hexec, ?_, ?_, ?_⟩
    · rw [State.b_put_beside (by decide), State.onFold_b, henable]
    · rw [State.put_fold, State.fold_onFold_same _ hn]
      rfl
    · rw [if_neg hrunning, State.foldState, State.f_put _ _ _ _ _ (by decide)]
      rfl

/-- A fold that failed its self-test cannot be enabled. -/
theorem foldEnable_broken {s : State} {fold : Fin 4} (v : Bool) (hbroken : s.foldBroken fold = true) :
    yields (.foldEnable fold v) s fun t => t = s := by
  refine ⟨s, ?_, rfl⟩
  show execFoldEnable fold v s = _
  rw [execFoldEnable, State.foldEnable, hbroken, if_pos rfl, ite_self]

theorem activate_pends {s : State} {fold : Fin 4} (hup : s.pwr.up = true) : yields (.activate fold) s fun t =>
    t.b F.FOLDn_STATUS_ACTIVATE_PENDING fold = true ∧ (t.fold fold).prog = (s.fold fold).prog := by
  have hexec : exec (.activate fold) s = .next (s.foldActivate fold s.time.clock) := by
    show execActivate fold s = _
    rw [execActivate, if_pos hup]
  refine ⟨_, hexec, ?_, ?_⟩
  · rw [State.foldActivate, State.onFold_b, State.b_flag _ _ _ _ _ (by decide) rfl]
  · refine (State.fold_onFold_keeps Fold.prog (by intro f; rfl) _ fold fold).trans ?_
    rw [State.flag_fold]

theorem restart_marks {s : State} {fold : Fin 4} (hup : s.pwr.up = true) (hstate : s.foldState fold = 2 ∨ s.foldState fold = 3) :
    yields (.restart fold) s fun t => t = s.onFold fold fun f => { f with toRun := some (f.toRun.getD s.time.clock) } := by
  refine ⟨_, ?_, rfl⟩
  show execRestart fold s = _
  rw [execRestart, if_pos hup, State.foldRestart, if_pos (by simpa using hstate), State.runFrom]

theorem stop_marks {s : State} {fold : Fin 4} (hup : s.pwr.up = true) :
    yields (.stop fold) s fun t => t = s.onFold fold fun f => { f with toHalt := true } := by
  refine ⟨_, ?_, rfl⟩
  show execStop fold s = _
  rw [execStop, if_pos hup, State.foldStop]

theorem State.f_zero_same (s : State) (f : Fld) (i : Nat) : (s.zero f i).f f i = 0 := by
  rw [State.f, State.reg_zero, if_pos rfl]
  simp [bits]

/-- A field that is zero stays so when a register is cleared. -/
theorem State.f_zero_of {s : State} {f g : Fld} {i j : Nat} (h : s.f g j = 0) : (s.zero f i).f g j = 0 := by
  by_cases haddr : g.addr j 0 = f.addr i 0
  · rw [State.f, State.reg_zero, if_pos haddr]
    simp [bits]
  · rw [State.f, State.reg_zero, if_neg haddr]
    exact h

theorem foldClear_zeroes {s : State} {fold : Fin 4} (hup : s.pwr.up = true) : yields (.foldClear fold) s fun t =>
    t.f F.FOLDn_RUNS fold = 0 ∧ t.f F.FOLDn_OVERRUNS fold = 0 ∧ t.f F.FOLDn_FAULTS fold = 0 ∧ t.f F.FOLDn_TRAPS fold = 0 ∧
      t.f F.FOLDn_FAULT_CODE fold = 0 ∧ t.b F.FOLDn_STATUS_TX_DISCARD fold = false := by
  have hexec : exec (.foldClear fold) s = .next (s.foldClear fold) := by
    show execFoldClear fold s = _
    rw [execFoldClear, if_pos hup]
  refine ⟨_, hexec, ?_⟩
  unfold State.foldClear
  simp only [State.flag, State.f_put_beside (g := F.FOLDn_RUNS) (f := F.FOLDn_STATUS_TX_DISCARD) (by decide),
    State.f_put_beside (g := F.FOLDn_OVERRUNS) (f := F.FOLDn_STATUS_TX_DISCARD) (by decide),
    State.f_put_beside (g := F.FOLDn_FAULTS) (f := F.FOLDn_STATUS_TX_DISCARD) (by decide),
    State.f_put_beside (g := F.FOLDn_TRAPS) (f := F.FOLDn_STATUS_TX_DISCARD) (by decide),
    State.f_put_beside (g := F.FOLDn_FAULT_CODE) (f := F.FOLDn_STATUS_TX_DISCARD) (by decide)]
  exact ⟨State.f_zero_of (State.f_zero_of (State.f_zero_of (State.f_zero_of (State.f_zero_same ..)))),
    State.f_zero_of (State.f_zero_of (State.f_zero_of (State.f_zero_same ..))),
    State.f_zero_of (State.f_zero_of (State.f_zero_same ..)), State.f_zero_of (State.f_zero_same ..), State.f_zero_same ..,
    State.b_flag _ _ _ _ _ (by decide) rfl⟩

/-! ### A completed run (R354) -/

/-- The run is complete, and its faults in a row begin anew. -/
def Fold.completed (f : Fold) : Fold := { f with complete := true, faultRuns := 0 }

/-- The time of a tile's run and the patterns of a head's one, which no fold's record nor its other registers show. -/
def State.runTimed (s : State) (n : Nat) : State :=
  if s.isHead then s.patternsDone n else s.put F.FOLDn_COMP_TIME (min (s.since (s.fold n).start) (2 ^ 32 - 1)) n

theorem State.runTimed_folds (s : State) (n : Nat) : (s.runTimed n).folds = s.folds := by
  unfold State.runTimed
  split
  · exact (State.patternsDone_within ..).same_folds
  · rw [State.put_folds]

theorem State.runTimed_f {g : Fld} (h : besideFld g F.FOLDn_COMP_TIME) (s : State) (n m : Nat) : (s.runTimed n).f g m = s.f g m := by
  unfold State.runTimed
  split
  · exact State.f_of_regs (State.patternsDone_within ..).same_regs ..
  · exact State.f_put_beside h ..

theorem runComplete_completes {s : State} {fold : Fin 4} (hup : s.pwr.up = true) (hlen : s.folds.length = 4) (hrun : s.inRun fold = true)
    (hended : (s.fold fold).ended = true) (hqueue : (s.fold fold).queue = []) : yields (.foldRunComplete fold) s fun t =>
      t.inRun fold = false ∧ (t.fold fold).complete = true ∧ (t.fold fold).faultRuns = 0 ∧
        t.f F.FOLDn_STEPS fold = min (s.fold fold).steps 4294967295 ∧
        t.foldState fold = (if (s.fold fold).halt ∧ s.foldState fold = 1 then 2 else s.foldState fold) := by
  have hn : fold < (s.runTimed fold).folds.length := by
    rw [State.runTimed_folds, hlen]
    exact fold.isLt
  generalize hdone : ((s.runTimed fold).onFold fold Fold.completed).endRun fold = done
  have hexec : exec (.foldRunComplete fold) s = .next (
      if (s.fold fold).halt && done.foldState fold == 1 then done.put F.FOLDn_STATUS_STATE 2 fold else done) := by
    show execFoldRunComplete fold s = _
    rw [execFoldRunComplete, hup, hrun, hended, hqueue, if_pos (by rfl), ← hdone, State.runTimed]
    rfl
  have hbefore : (((s.runTimed fold).onFold fold Fold.completed).fold fold) = (s.fold fold).completed := by
    rw [State.fold_onFold_same _ hn, State.fold_congr (State.runTimed_folds s fold)]
  have hrested : (done.fold fold).rested = (s.fold fold).completed.rested := by rw [← hdone, State.endRun_rested, hbefore]
  have hcomplete : (done.fold fold).complete = true := congrArg Fold.complete hrested
  have hfaults : (done.fold fold).faultRuns = 0 := congrArg Fold.faultRuns hrested
  have hover : done.inRun fold = false := by rw [← hdone, State.endRun_inRun]
  have hsteps : done.f F.FOLDn_STEPS fold = min (s.fold fold).steps 4294967295 := by
    rw [← hdone, State.endRun_steps, hbefore]
    rfl
  have hstate : done.foldState fold = s.foldState fold := by
    rw [State.foldState, ← hdone, State.endRun_f (by decide), State.onFold_f, State.runTimed_f (by decide), State.foldState]
  by_cases hhalt : (s.fold fold).halt ∧ s.foldState fold = 1
  · rw [if_pos (by rwa [Bool.and_eq_true, hstate, beq_iff_eq])] at hexec
    rw [if_pos hhalt]
    refine ⟨_, hexec, ?_, ?_, ?_, ?_, ?_⟩
    · rw [State.inRun_put (by decide), hover]
    · rw [State.put_fold, hcomplete]
    · rw [State.put_fold, hfaults]
    · rw [State.f_put_beside (by decide), hsteps]
    · rw [State.foldState, State.f_put _ _ _ _ _ (by decide)]
      rfl
  · rw [if_neg (by rwa [Bool.and_eq_true, hstate, beq_iff_eq])] at hexec
    rw [if_neg hhalt]
    exact ⟨_, hexec, hover, hcomplete, hfaults, hsteps, hstate⟩

/-! ### Pacing (R363) -/

/-- A whole window counts the throttle that held in it. -/
theorem throttleShare_whole {s : State} {n : Nat} (h : (s.fold n).winAt + 1024 ≤ s.time.aon) :
    s.throttleShare n = 64 * (16 - (s.fold n).winDuty) := if_pos (by omega)

/-- The wait of the pacing window so far. -/
abbrev windowWait (s : State) (n : Nat) : Nat := (s.fold n).winIdle + ((s.fold n).waitFrom.map s.since).getD 0

/-- A window that ends: its inactive time joins the run's, and the next one begins. -/
def Fold.windowEnded (f : Fold) (idle at_ clock : Nat) : Fold :=
  { f with
    idle := f.idle + idle, winIdle := 0, winAt := at_, waitFrom := f.waitFrom.map fun _ => clock }

theorem endWindow_fold {s : State} {n : Nat} (hn : n < s.folds.length) : (s.endWindow n).fold n =
    (s.fold n).windowEnded (max (s.throttleShare n) (min 1024 (windowWait s n))) (s.time.aon / 1024 * 1024) s.time.clock := by
  rw [State.endWindow, State.fold_onFold_same _ (by rwa [State.tickFresh_folds]), State.tickFresh_fold, windowWait, Fold.windowEnded]
  cases (s.fold n).waitFrom <;> rfl

/-- The count of windows, and the duty that holds in the next one. -/
def Fold.counted (f : Fold) (windows : Nat) : Fold := { f with windows := windows }
def Fold.paced (f : Fold) (duty : Nat) : Fold := { f with winDuty := duty }

/-- The window has ended: once per 1,024 ns. -/
def State.counted (s : State) (n : Nat) : State := s.onFold n fun f => f.counted (s.time.aon / 1024)

theorem exec_pacingWindow {s : State} {fold : Fin 4} (hup : s.pwr.up = true) (hover : (s.fold fold).windows < s.time.aon / 1024) :
    exec (.pacingWindow fold none) s = .next (((s.counted fold).when ((s.counted fold).inRun fold) fun t => t.endWindow fold).onFold fold
      fun f => f.paced ((s.counted fold).f F.FOLDn_PACE_DUTY fold)) := by
  show execPacingWindow fold none s = _
  rw [execPacingWindow, hup, decide_eq_true hover, if_pos (by rfl)]
  rfl

theorem pacingWindow_counts {s : State} {fold : Fin 4} (hup : s.pwr.up = true) (hlen : s.folds.length = 4) (hrun : s.inRun fold = true)
    (hover : (s.fold fold).windows < s.time.aon / 1024) (hwhole : (s.fold fold).winAt + 1024 ≤ s.time.aon) :
    yields (.pacingWindow fold none) s fun t =>
      (t.fold fold).idle = (s.fold fold).idle + max (64 * (16 - (s.fold fold).winDuty))
        (min 1024 ((s.fold fold).winIdle + ((s.fold fold).waitFrom.map s.since).getD 0)) ∧
      (t.fold fold).winIdle = 0 ∧ (t.fold fold).windows = s.time.aon / 1024 ∧ (t.fold fold).winDuty = s.f F.FOLDn_PACE_DUTY fold := by
  have hn : fold < s.folds.length := by
    rw [hlen]
    exact fold.isLt
  have hexec := exec_pacingWindow hup hover
  generalize hcounted : s.counted fold = counted at hexec
  rw [State.counted] at hcounted
  have hfold : counted.fold fold = (s.fold fold).counted (s.time.aon / 1024) := by rw [← hcounted, State.fold_onFold_same _ hn]
  have hn' : fold < counted.folds.length := by rwa [← hcounted, State.onFold_length]
  have htime : counted.time = s.time := by rw [← hcounted, State.onFold_time]
  have hrun' : counted.inRun fold = true := by rw [← hcounted, State.onFold_inRun, hrun]
  have hduty : counted.f F.FOLDn_PACE_DUTY fold = s.f F.FOLDn_PACE_DUTY fold := by rw [← hcounted, State.onFold_f]
  rw [hrun', State.when, if_pos rfl, hduty] at hexec
  have hended := endWindow_fold hn'
  have hwait : windowWait counted fold = windowWait s fold := by
    rw [windowWait, hfold, windowWait, Fold.counted]
    have hsince : counted.since = s.since := by
      funext t
      rw [State.since, htime, State.since]
    rw [hsince]
  rw [throttleShare_whole (by rwa [hfold, htime]), hwait, hfold] at hended
  have hlast := State.fold_onFold_same (s := counted.endWindow fold) (fun f => f.paced (s.f F.FOLDn_PACE_DUTY fold))
    ((State.onFold_length ..).symm ▸ hn')
  rw [hended] at hlast
  exact ⟨_, hexec, by rw [hlast]; rfl, by rw [hlast]; rfl, by rw [hlast]; rfl, by rw [hlast]; rfl⟩

theorem pacingWindow_early {s : State} {fold : Fin 4} (h : s.time.aon / 1024 ≤ (s.fold fold).windows) :
    yields (.pacingWindow fold none) s fun t => t = s := by
  refine ⟨s, ?_, rfl⟩
  show execPacingWindow fold none s = _
  rw [execPacingWindow, decide_eq_false (Nat.not_lt.mpr h), Bool.and_false, if_neg Bool.false_ne_true]

/-! ### The end of WAITT and PAUSE (R387) -/

theorem State.stopFaulted_length (s : State) (n : Nat) (f : Fold) : (s.stopFaulted n f).folds.length = s.folds.length := by
  unfold State.stopFaulted
  extract_lets s1 s2
  have hdrop : s2.folds = s1.folds := by
    dsimp only [s2]
    split <;> rfl
  have hmark : s1.folds.length = s.folds.length := State.onFold_length ..
  split
  · rw [State.put_folds, hdrop, hmark]
  · rw [hdrop, hmark]

theorem foldFault_waitless {s : State} {n : Nat} (hn : n < s.folds.length) (code pc : Nat) : (s.foldFault n code pc).Waitless n := by
  have hend := State.endRun_waitless (s := s.recordFault n code pc) (by rwa [State.recordFault_length])
  have hmarked := State.onFold_waitless hend (g := fun f => { f with faulted := true, faultRuns := f.faultRuns + 1 })
    (by intro f; rfl) n
  rw [State.foldFault_eq]
  refine ⟨?_, ?_, ?_⟩
  · rw [State.stopFaulted_length]
    exact hend.lt
  · rw [State.stopFaulted_f (by decide), hend.wait]
  · rw [State.stopFaulted_fold, hmarked.until_]

theorem fetch_waitless {s : State} {n : Nat} (h : s.Waitless n) : (s.fetch n).Waitless n := by
  have hnext := State.put_waitless h (f := F.FOLDn_STATUS_PC) (by decide) (s.fold n).pc n
  rw [State.fetch]
  generalize s.put F.FOLDn_STATUS_PC (s.fold n).pc n = t at hnext ⊢
  split
  · exact foldFault_waitless (by rw [State.tickFresh_folds]; exact hnext.lt) ..
  · exact hnext

/-- A fold whose wait has ended waits no more, even where its next PC faults. -/
theorem resume_waitless {s : State} {n : Nat} (hn : n < s.folds.length) : (s.resume n).Waitless n := by
  rw [State.resume]
  exact fetch_waitless (State.unwait_waitless_same hn)

theorem wait_ends {s : State} {fold : Fin 4} {code : Nat} {c : Instr} (hlen : s.folds.length = 4)
    (hexec : exec c s =
      .next (if s.pwr.up && s.inRun fold && s.f F.FOLDn_STATUS_WAIT fold == code && s.waitOver fold then s.resume fold else s))
    (hup : s.pwr.up = true) (hrun : s.inRun fold = true) (hwait : s.f F.FOLDn_STATUS_WAIT fold = code) (hover : s.waitOver fold = true) :
    yields c s fun t => t.f F.FOLDn_STATUS_WAIT fold = 0 ∧ (t.fold fold).until_ = none := by
  have hfree := resume_waitless (s := s) (n := fold) (by rw [hlen]; exact fold.isLt)
  refine ⟨_, hexec, ?_⟩
  rw [hup, hrun, hwait, hover, beq_self_eq_true code, if_pos (by rfl)]
  exact ⟨hfree.wait, hfree.until_⟩

/-- WAITT does not end before its time. -/
theorem waittExpire_early {s : State} {fold : Fin 4} (h : s.waitOver fold = false) : yields (.waittExpire fold) s fun t => t = s := by
  refine ⟨s, ?_, rfl⟩
  show execWaittExpire fold s = _
  rw [execWaittExpire, h, Bool.and_false, if_neg Bool.false_ne_true]

/-- Settles O27: each clause is the command's rule above. -/
theorem foldControlActs : Obligations.FoldControlActs := by
  unfold Obligations.FoldControlActs
  exact ⟨fun s fold => foldEnable_set, fun s fold => foldEnable_clear, fun s fold v => foldEnable_broken v, fun s fold => activate_pends,
    fun s fold hup _ => restart_marks hup, fun s fold hup _ => stop_marks hup, fun s fold => foldClear_zeroes,
    fun s fold => runComplete_completes, fun s fold => pacingWindow_counts,
    fun s fold hup hlen => wait_ends hlen rfl hup, fun s fold hup hlen => wait_ends hlen rfl hup,
    fun s fold => waittExpire_early, fun s fold => pacingWindow_early⟩

end Sys2Proof.Machine
end

section
/-! PROOFS. What an instruction leaves in its fold and in the others while the run goes on (spec/10_korty_model.md R345, R347;
spec/11_korty_instructions.md R374 to R378). -/
set_option Elab.async false
namespace Sys2Proof.Machine

/-! ### What is left -/

/-- What `p` shows of the fold is left, and so are every other fold and the frame memory. -/
structure Spared {α : Type} (p : Fold → α) (n : Nat) (s t : State) : Prop where
  self : p (t.fold n) = p (s.fold n)
  others : ∀ m, m ≠ n → t.fold m = s.fold m
  mem : t.mem = s.mem

/-- The same while the run goes on: a fault ends it. -/
structure Spares {α : Type} (p : Fold → α) (n : Nat) (s t : State) : Prop where
  whileRunning : t.inRun n = true → Spared p n s t

/-- `p` shows neither the PC and the count of instructions nor the start of a wait. -/
structure Unmoved {α : Type} (p : Fold → α) : Prop where
  goTo : ∀ (f : Fold) (pc : Nat), p (f.goTo pc) = p f
  await : ∀ (f : Fold) (code clock : Nat), p (f.await code clock) = p f

section
variable {α : Type} {p : Fold → α} {n : Nat} {s t u : State}

theorem Spared.refl (p : Fold → α) (n : Nat) (s : State) : Spared p n s s := ⟨rfl, fun _ _ => rfl, rfl⟩

theorem Spared.trans (h : Spared p n s t) (k : Spared p n t u) : Spared p n s u :=
  ⟨k.self.trans h.self, fun m hm => (k.others m hm).trans (h.others m hm), k.mem.trans h.mem⟩

theorem Spared.onFold (s : State) (n : Nat) {g : Fold → Fold} (hg : ∀ f, p (g f) = p f) : Spared p n s (s.onFold n g) :=
  ⟨State.fold_onFold_keeps p hg s n n, fun _ hm => s.fold_onFold_ne g hm, s.onFold_mem n g⟩

theorem Spared.put (p : Fold → α) (n : Nat) (s : State) (f : Fld) (v i : Nat) : Spared p n s (s.put f v i) :=
  ⟨by rw [State.put_fold], fun _ _ => by rw [State.put_fold], by rw [State.put_mem]⟩

theorem spares_foldFault (t : State) (code pc : Nat) : Spares p n s (t.foldFault n code pc) := by
  refine ⟨fun hrun => ?_⟩
  rw [State.foldFault_inRun] at hrun
  exact absurd hrun Bool.false_ne_true

theorem spares_fetch (h : Spared p n s t) : Spares p n s (t.fetch n) := by
  have hput := h.trans (Spared.put p n t F.FOLDn_STATUS_PC (t.fold n).pc n)
  rw [State.fetch]
  generalize t.put F.FOLDn_STATUS_PC (t.fold n).pc n = u at hput ⊢
  split
  · exact spares_foldFault ..
  · exact ⟨fun _ => hput⟩

theorem spares_goTo (hp : Unmoved p) (h : Spared p n s t) (pc : Nat) : Spares p n s ((t.onFold n fun f => f.goTo pc).fetch n) :=
  spares_fetch (h.trans (Spared.onFold t n fun f => hp.goTo f pc))

theorem spares_advance (hp : Unmoved p) (h : Spared p n s t) : Spares p n s (t.advance n) := by
  rw [State.advance]
  exact spares_fetch (h.trans (Spared.onFold t n fun f => hp.goTo f (f.pc + 1)))

theorem spares_wait (hp : Unmoved p) (code : Nat) : Spares p n s (s.wait n code) := by
  rw [State.wait_eq]
  exact ⟨fun _ => (Spared.put p n s F.FOLDn_STATUS_WAIT code n).trans (Spared.onFold _ n fun f => hp.await f code _)⟩

/-- A load faults, waits or acts. -/
theorem spares_loading (hp : Unmoved p) (pc ea words : Nat) {act : State → State} (hact : Spares p n s (act s)) :
    Spares p n s (s.loading n pc ea words act) := by
  rw [State.loading]
  split
  · exact spares_foldFault ..
  · split
    · exact spares_wait hp 2
    · split
      · exact spares_foldFault ..
      · exact hact

/-- An instruction that stands at the PC leaves what its action leaves, and any other one all. -/
theorem spares_korty {c : Instr} {fold : Fin 4} {w op : Nat} {act : State → Nat → Nat → State} (h : standsAt s fold w)
    (hexec : exec c s = .next (s.korty fold op act)) (hact : Spares p fold s (act s w (s.fold fold).pc)) :
    yields c s fun t => Spares p fold s t := by
  rw [(standing_of_standsAt h).korty] at hexec
  refine ⟨_, hexec, ?_⟩
  split
  · exact hact
  · exact ⟨fun _ => Spared.refl p fold s⟩

end

/-- The record of a fold without the PC, the count of instructions, the flags and the start of a wait. -/
def Fold.still (f : Fold) : Fold := { f with pc := 0, steps := 0, z := false, n := false, c := false, v := false, waitFrom := none }

/-- What every instruction leaves of its fold. -/
def Fold.core (f : Fold) : KV × KV × List PItem × Nat × List (Option (Nat × PStrip)) × Option FoldTx :=
  (f.prog, f.load, f.queue, f.events, f.strips, f.scheduled)

theorem keepsFold_of_core {s t : State} {n : Nat} (h : (t.fold n).core = (s.fold n).core) (hothers : ∀ m, m ≠ n → t.fold m = s.fold m) :
    keepsFold s t n := by
  simp only [Fold.core, Prod.mk.injEq] at h
  obtain ⟨hprog, hload, hqueue, hevents, hstrips, hscheduled⟩ := h
  exact ⟨hprog, hload, hqueue, hevents, hstrips, hscheduled, hothers⟩

/-! ### Instructions that write a k register -/

/-- The record of a fold beside k[i]. -/
def Fold.besideK (i : Nat) (f : Fold) : Fold × (Nat → BitVec 32) :=
  ({ f.still with k := [] }, fun j => if j = i then 0 else nth f.k j 0)

theorem besideK_unmoved (i : Nat) : Unmoved (Fold.besideK i) := ⟨by intro f pc; rfl, by intro f code clock; rfl⟩

theorem spared_setK (s : State) (n i v : Nat) : Spared (Fold.besideK i) n s (s.setK n i v) := by
  unfold State.setK
  split
  · exact Spared.refl ..
  · refine Spared.onFold s n fun f => Prod.ext rfl (funext fun j => ?_)
    show (if j = i then 0 else nth (modAt f.k i _) j 0) = if j = i then 0 else nth f.k j 0
    split
    · rfl
    · rename_i hj
      exact nth_modAt_ne _ _ _ _ _ hj

theorem spared_setNZCV (s : State) (n i : Nat) (x : Alu) : Spared (Fold.besideK i) n s (s.setNZCV n x) :=
  Spared.onFold s n (by intro f; rfl)

theorem spares_setK_advance {s t : State} {n i : Nat} (h : Spared (Fold.besideK i) n s t) (v : Nat) :
    Spares (Fold.besideK i) n s ((t.setK n i v).advance n) :=
  spares_advance (besideK_unmoved i) (h.trans (spared_setK t n i v))

theorem spares_alu (s : State) (n w pc : Nat) (tv : Bool) (x : Alu) : Spares (Fold.besideK (kRd w)) n s (s.alu n w pc tv x) := by
  rw [State.alu]
  split
  · exact spares_foldFault ..
  · refine spares_setK_advance ?_ x.r
    split
    · exact spared_setNZCV ..
    · exact Spared.refl ..

theorem spares_get (s : State) (n w pc : Nat) : Spares (Fold.besideK (kRd w)) n s
    (if 8 ≤ kImm w then s.foldFault n 7 pc else (s.setK n (kRd w) (s.getValue n (kImm w))).advance n) := by
  split
  · exact spares_foldFault ..
  · exact spares_setK_advance (Spared.refl ..) _

theorem spares_br (s : State) (n w pc target : Nat) (taken : Bool) : Spares (Fold.besideK (kRd w)) n s
    (if taken && decide (8191 < target) then s.foldFault n 2 pc
    else if taken then ((s.setK n (kRd w) (pc + 1)).onFold n fun f => f.goTo target).fetch n
    else (s.setK n (kRd w) (pc + 1)).advance n) := by
  split
  · exact spares_foldFault ..
  · split
    · exact spares_goTo (besideK_unmoved _) (spared_setK s n (kRd w) (pc + 1)) target
    · exact spares_setK_advance (Spared.refl ..) _

theorem spares_ldc (s : State) (n w pc x y : Nat) : Spares (Fold.besideK (kRd w)) n s
    (if y = m32 - 1 - x then (s.setK n (kRd w) x).advance n else s.foldFault n 5 pc) := by
  split
  · exact spares_setK_advance (Spared.refl ..) _
  · exact spares_foldFault ..

/-- The instructions whose result is a k register, the flags or a jump. -/
abbrev kWriters (fold : Fin 4) : List Instr := [.add fold, .sub fold, .andR fold, .orR fold, .xorR fold, .shl fold, .shr fold, .sar fold,
  .mul fold, .minR fold, .maxR fold, .cmp fold, .addi fold, .andi fold, .ori fold, .xori fold, .shli fold, .shri fold, .sari fold,
  .cmpi fold, .get fold, .qget fold, .br fold, .ld fold, .ldc fold, .nop fold]

theorem kWriters_spare {s : State} {fold : Fin 4} {w : Nat} (h : standsAt s fold w) :
    ∀ c ∈ kWriters fold, yields c s fun t => Spares (Fold.besideK (kRd w)) fold s t := by
  have halu {c : Instr} {op : Nat} {tv : Bool} {x : State → Nat → Alu}
      (hexec : exec c s = .next (s.korty fold op fun s w pc => s.alu fold w pc tv (x s w))) :
      yields c s fun t => Spares (Fold.besideK (kRd w)) fold s t := spares_korty h hexec (spares_alu ..)
  have hcmp {c : Instr} {op : Nat} {x : State → Nat → Alu}
      (hexec : exec c s = .next (s.korty fold op fun s w _ => (s.setNZCV fold (x s w)).advance fold)) :
      yields c s fun t => Spares (Fold.besideK (kRd w)) fold s t :=
    spares_korty h hexec (spares_advance (besideK_unmoved _) (spared_setNZCV ..))
  simp only [List.forall_mem_cons]
  refine ⟨halu rfl, halu rfl, halu rfl, halu rfl, halu rfl, halu rfl, halu rfl, halu rfl, halu rfl, halu rfl, halu rfl, hcmp rfl, halu rfl,
    halu rfl, halu rfl, halu rfl, halu rfl, halu rfl, halu rfl, hcmp rfl, spares_korty h rfl (spares_get ..),
    spares_korty h rfl (spares_setK_advance (Spared.refl ..) _), spares_korty h rfl (spares_br ..),
    spares_korty h rfl (spares_loading (besideK_unmoved _) _ _ _ (spares_setK_advance (Spared.refl ..) _)),
    spares_korty h rfl (spares_loading (besideK_unmoved _) _ _ _ (spares_ldc ..)),
    spares_korty h rfl (spares_advance (besideK_unmoved _) (Spared.refl ..)), ?_⟩
  exact fun c hc => absurd hc List.not_mem_nil

theorem kept_besideK {s t : State} {n i : Nat} (h : Spared (Fold.besideK i) n s t) : keepsFold s t n ∧
    (t.fold n).q = (s.fold n).q ∧ (t.fold n).scratch = (s.fold n).scratch ∧ (t.fold n).tx = (s.fold n).tx ∧
    ∀ j : Nat, j < 32 → j ≠ i → reg t n j = reg s n j := by
  have hfold := congrArg Prod.fst h.self
  have hcore := congrArg Fold.core hfold
  have hq := congrArg Fold.q hfold
  have hscratch := congrArg Fold.scratch hfold
  have htx := congrArg Fold.tx hfold
  refine ⟨keepsFold_of_core hcore h.others, hq, hscratch, htx, fun j _ hj => ?_⟩
  have hk : (if j = i then 0 else nth (t.fold n).k j 0) = if j = i then 0 else nth (s.fold n).k j 0 :=
    congrFun (congrArg Prod.snd h.self) j
  rw [if_neg hj, if_neg hj] at hk
  rw [reg, reg, hk]

/-! ### Instructions that write a q register -/

/-- The record of a fold beside q[a] and q[b]. -/
def Fold.besideQ (a b : Nat) (f : Fold) : Fold × (Nat → BitVec 64) :=
  ({ f.still with q := [] }, fun j => if j = a ∨ j = b then 0 else nth f.q j 0)

theorem besideQ_unmoved (a b : Nat) : Unmoved (Fold.besideQ a b) := ⟨by intro f pc; rfl, by intro f code clock; rfl⟩

theorem spared_setQ (s : State) {n i a b : Nat} (hi : i = a ∨ i = b) (v : Nat) : Spared (Fold.besideQ a b) n s (s.setQ n i v) := by
  refine Spared.onFold s n fun f => Prod.ext rfl (funext fun j => ?_)
  show (if j = a ∨ j = b then 0 else nth (modAt f.q i _) j 0) = if j = a ∨ j = b then 0 else nth f.q j 0
  split
  · rfl
  · rename_i hj
    exact nth_modAt_ne _ _ _ _ _ (by rintro rfl; exact hj hi)

theorem qWriters_spare {s : State} {fold : Fin 4} {w : Nat} (h : standsAt s fold w) :
    ∀ c ∈ ([.qset fold, .qisect fold, .qld fold] : List Instr), yields c s fun t =>
      Spares (Fold.besideQ (kQa w) (kRd w % 16)) fold s t := by
  have hp := besideQ_unmoved (kQa w) (kRd w % 16)
  simp only [List.forall_mem_cons]
  refine ⟨spares_korty h rfl (spares_advance hp (spared_setQ s (.inl rfl) _)),
    spares_korty h rfl (spares_advance hp ((spared_setQ s (.inl rfl) _).trans (Spared.onFold _ fold (by intro f; rfl)))),
    spares_korty h rfl (spares_loading hp _ _ _ (spares_advance hp (spared_setQ s (.inr rfl) _))), ?_⟩
  exact fun c hc => absurd hc List.not_mem_nil

theorem kept_besideQ {s t : State} {n a b : Nat} (h : Spared (Fold.besideQ a b) n s t) : keepsFold s t n ∧
    (t.fold n).k = (s.fold n).k ∧ (t.fold n).scratch = (s.fold n).scratch ∧ (t.fold n).tx = (s.fold n).tx ∧
    ∀ j : Nat, j < 16 → j ≠ a → j ≠ b → t.qreg n j = s.qreg n j := by
  have hfold := congrArg Prod.fst h.self
  have hcore := congrArg Fold.core hfold
  have hk := congrArg Fold.k hfold
  have hscratch := congrArg Fold.scratch hfold
  have htx := congrArg Fold.tx hfold
  refine ⟨keepsFold_of_core hcore h.others, hk, hscratch, htx, fun j _ hja hjb => ?_⟩
  have hq : (if j = a ∨ j = b then 0 else nth (t.fold n).q j 0) = if j = a ∨ j = b then 0 else nth (s.fold n).q j 0 :=
    congrFun (congrArg Prod.snd h.self) j
  rw [if_neg (not_or.mpr ⟨hja, hjb⟩), if_neg (not_or.mpr ⟨hja, hjb⟩)] at hq
  rw [State.qreg, State.qreg, hq]

/-! ### Stores -/

/-- The record of a fold beside scratch and the transaction's shadow copies, with its flags. -/
def Fold.besideScratch (f : Fold) : Fold := { f with pc := 0, steps := 0, waitFrom := none, scratch := [], scratchBad := [], tx := none }

theorem besideScratch_unmoved : Unmoved Fold.besideScratch := ⟨by intro f pc; rfl, by intro f code clock; rfl⟩

theorem spared_storeWords (s : State) (n : Nat) (ws : List (Nat × Nat)) : Spared Fold.besideScratch n s (s.storeWords n ws) := by
  cases htx : (s.fold n).tx with
  | none =>
    rw [State.storeWords_live htx]
    exact State.each_induct (P := fun t => Spared Fold.besideScratch n s t)
      (fun x e hx => hx.trans (Spared.onFold x n (by intro f; rfl))) ws (Spared.refl ..)
  | some x =>
    rw [State.storeWords_shadow htx]
    exact Spared.onFold s n (by intro f; rfl)

theorem spares_storing (s : State) (n pc ea : Nat) (vs : List Nat) : Spares Fold.besideScratch n s (s.storing n pc ea vs) := by
  rw [State.storing]
  split
  · exact spares_foldFault ..
  · split
    · exact spares_wait besideScratch_unmoved 2
    · exact spares_advance besideScratch_unmoved (spared_storeWords ..)

theorem stores_spare {s : State} {fold : Fin 4} {w : Nat} (h : standsAt s fold w) :
    ∀ c ∈ ([.st fold, .qst fold] : List Instr), yields c s fun t => Spares Fold.besideScratch fold s t := by
  simp only [List.forall_mem_cons]
  refine ⟨spares_korty h rfl (spares_storing ..), spares_korty h rfl (spares_storing ..), ?_⟩
  exact fun c hc => absurd hc List.not_mem_nil

theorem kept_besideScratch {s t : State} {n : Nat} (h : Spared Fold.besideScratch n s t) : keepsFold s t n ∧
    (t.fold n).k = (s.fold n).k ∧ (t.fold n).q = (s.fold n).q ∧ nzcv t n = nzcv s n ∧ t.mem = s.mem := by
  have hcore := congrArg Fold.core h.self
  have hk := congrArg Fold.k h.self
  have hq := congrArg Fold.q h.self
  have hflags := congrArg Fold.nzcv h.self
  exact ⟨keepsFold_of_core hcore h.others, hk, hq, hflags, h.mem⟩

/-- Settles O54: what is left beside a k register, beside the q registers and beside scratch. -/
theorem foldInstructionsKeep : Obligations.FoldInstructionsKeep := by
  unfold Obligations.FoldInstructionsKeep
  refine ⟨fun s fold c w hc h => ?_, fun s fold c w hc h => ?_, fun s fold c w hc h => ?_⟩
  · obtain ⟨t, hexec, hspares⟩ := kWriters_spare h c hc
    exact ⟨t, hexec, fun hrun => kept_besideK (hspares.whileRunning hrun)⟩
  · obtain ⟨t, hexec, hspares⟩ := qWriters_spare h c hc
    exact ⟨t, hexec, fun hrun => kept_besideQ (hspares.whileRunning hrun)⟩
  · obtain ⟨t, hexec, hspares⟩ := stores_spare h c hc
    exact ⟨t, hexec, fun hrun => kept_besideScratch (hspares.whileRunning hrun)⟩

end Sys2Proof.Machine
end

section
/-! PROOFS. The completion of a pipeline instruction while the MEM island is in reset (spec/14_clock_islands.md R583). -/
set_option Elab.async false
namespace Sys2Proof.Machine

/-- While MEM is in reset an instruction that fetches, stores or pushes does not complete. -/
theorem exec_pipelineItemDone_memReset {s : State} {fold : Fin 4} {i : PItem} {t : List PItem} (err : Option PipeErr)
    (hqueue : (s.fold fold).queue = i :: t) (hmem : i.usesMem s.isHead = true) (hreset : s.on iMEM = false) :
    exec (.pipelineItemDone fold err) s = .next s := by
  show execPipelineItemDone fold err s = _
  rw [execPipelineItemDone, hqueue]
  refine congrArg Host.Outcome.next (if_pos ?_)
  rw [hmem, hreset, Bool.not_false, Bool.true_and, Bool.or_true, Bool.true_or, Bool.true_or]

/-- A PUSH with a record at scratch words 4 and 5. -/
def recordedPush : PItem := ⟨0x58, ⟨0, 0, 0, 0, 0, 0, false, false, none⟩, some 16, 0, true, 0, 0, 0⟩

/-- A tile whose fold 3 runs with that PUSH issued and nothing left to send, while its MEM island is in reset. -/
def pushTile : State :=
  ((Tests.inRunAt Tests.upTile 3 (Tests.kw 0x7C 0 0 0 0)).onFold 3 fun f => { f with queue := [recordedPush] }).onXing fun x =>
    { x with inReset := modAt x.inReset iMEM fun _ => true }

/-- Refutes O34: its clause on the completion of a PUSH lacks the premise that MEM is out of reset. The pipeline of the tile here stands while
its MEM island is in reset (R583), so the PUSH stays in the queue. -/
theorem not_pipelineInstructionsAct : ¬ Obligations.PipelineInstructionsAct := by
  unfold Obligations.PipelineInstructionsAct
  rintro ⟨-, -, -, -, -, -, -, hdone, -⟩
  have hqueue : (pushTile.fold (3 : Fin 4)).queue = [recordedPush] := by decide +kernel
  obtain ⟨t, hnext, hempty, -⟩ := hdone pushTile 3 recordedPush 16 (by decide +kernel) (by decide +kernel) (by decide +kernel)
    (by decide +kernel) hqueue (by decide +kernel) rfl
  rw [exec_pipelineItemDone_memReset none hqueue (by decide +kernel) (by decide +kernel), Host.Outcome.next.injEq] at hnext
  rw [← hnext, hqueue] at hempty
  exact List.cons_ne_nil _ _ hempty

end Sys2Proof.Machine
end

section
/-! PROOFS. The fields of an instruction word that a load accepts (spec/10_korty_model.md R348, R350;
spec/11_korty_instructions.md R373). -/
set_option Elab.async false
namespace Sys2Proof.Machine

theorem bits_land (x y lo n : Nat) : bits (Nat.land x y) lo n = Nat.land (bits x lo n) (bits y lo n) := by
  rw [bits, bits, bits]
  exact (congrArg (· % 2 ^ n) Nat.and_div_two_pow).trans Nat.and_mod_two_pow

theorem bits_zero_start (v n : Nat) : bits v 0 n = v % 2 ^ n := by
  rw [bits, Nat.pow_zero, Nat.div_one]

/-- A load accepts a word only if no bit below its opcode lies outside the mask of that opcode. -/
theorem kortyOk_mask {w m : Nat} (h : kortyOk w = true) (hm : kMask (kOp w) = some m) : Nat.land (bits w 0 56) m = bits w 0 56 := by
  rw [kortyOk, hm] at h
  simp only [Bool.and_eq_true, fits, beq_iff_eq] at h
  obtain ⟨⟨⟨hfits, -⟩, -⟩, -⟩ := h
  exact hfits

/-- The bits of a field of an accepted word lie in the mask's field. -/
theorem kortyOk_field {w m lo n : Nat} (h : kortyOk w = true) (hm : kMask (kOp w) = some m) (hfield : lo + n ≤ 56) :
    Nat.land (bits w lo n) (bits m lo n) = bits w lo n := by
  have hmasked := congrArg (bits · lo n) (kortyOk_mask h hm)
  have hcut : bits (bits w 0 56) lo n = bits w lo n := by
    rw [bits_zero_start, bits_mod _ _ _ _ hfield]
  rwa [bits_land, hcut] at hmasked

/-- The same for opcodes whose masks agree on the field. -/
theorem kortyOk_field_of_mem {ops : List Nat} {w b : Nat} (lo n : Nat) (h : kortyOk w = true) (hop : kOp w ∈ ops)
    (hops : ∀ op ∈ ops, (kMask op).map (bits · lo n) = some b) (hfield : lo + n ≤ 56) : Nat.land (bits w lo n) b = bits w lo n := by
  obtain ⟨m, hm, rfl⟩ := Option.map_eq_some_iff.mp (hops _ hop)
  exact kortyOk_field h hm hfield

theorem kortyOk_field_le {ops : List Nat} {w b : Nat} (lo n : Nat) (h : kortyOk w = true) (hop : kOp w ∈ ops)
    (hops : ∀ op ∈ ops, (kMask op).map (bits · lo n) = some b) (hfield : lo + n ≤ 56) : bits w lo n ≤ b := by
  rw [← kortyOk_field_of_mem lo n h hop hops hfield]
  exact Nat.and_le_right

/-- A bit that the mask leaves out of a field is 0 in an accepted word. -/
theorem kortyOk_field_bit {ops : List Nat} {w b i : Nat} (lo n : Nat) (h : kortyOk w = true) (hop : kOp w ∈ ops)
    (hops : ∀ op ∈ ops, (kMask op).map (bits · lo n) = some b) (hfield : lo + n ≤ 56) (hbit : b.testBit i = false) :
    (bits w lo n).testBit i = false := by
  rw [← kortyOk_field_of_mem lo n h hop hops hfield]
  exact (Nat.testBit_and ..).trans (by rw [hbit, Bool.and_false])

/-- No bit of an accepted word stands outside its mask. -/
theorem kortyOk_unused {w m c : Nat} (h : kortyOk w = true) (hm : kMask (kOp w) = some m) (hc : c < 2 ^ 56)
    (hmask : Nat.land m c = 0) : Nat.land w c = 0 := by
  have hlow : Nat.land w c = Nat.land (bits w 0 56) c := by
    have hland : Nat.land w c < 2 ^ 56 := Nat.lt_of_le_of_lt Nat.and_le_right hc
    rw [← Nat.mod_eq_of_lt hland, ← bits_zero_start, bits_land, bits_zero_start c, Nat.mod_eq_of_lt hc]
  rw [hlow, ← kortyOk_mask h hm]
  exact (Nat.land_assoc ..).trans ((congrArg (Nat.land _) hmask).trans (Nat.and_zero _))

end Sys2Proof.Machine
end

section
/-! PROOFS. What the arithmetic and logic operations compute, with their C and V (spec/11_korty_instructions.md R374, R375). -/
set_option Elab.async false
namespace Sys2Proof.Machine

/-! ### Numbers of 32 bits -/

theorem overflow32_eq_noFit (x : Int) : overflow32 x = noFit x := by
  rw [overflow32, noFit]
  exact congrArg (decide (x < -2147483648) || ·) (decide_eq_decide.mpr (by omega))

theorem unsgn_eq_toNat (n : Nat) (x : Int) : unsgn n x = (BitVec.ofInt n x).toNat := (BitVec.toNat_ofInt x).symm

theorem bitOf_toNat {n : Nat} (a : BitVec n) (i : Nat) : bitOf a.toNat i = a.getLsbD i := bitOf_eq_testBit ..

/-- The result `r` with its C and V. -/
def Alu.of (r : BitVec 32) (c v : Bool) : Alu := ⟨r.toNat, c, v⟩

/-! ### The operations -/

theorem aluAdd_toNat (a b : BitVec 32) : aluAdd a.toNat b.toNat =
    Alu.of (a + b) (decide (4294967296 ≤ a.toNat + b.toNat)) (noFit (a.toInt + b.toInt)) := by
  rw [aluAdd, s32_toNat, s32_toNat, overflow32_eq_noFit]
  rfl

theorem aluSub_toNat (a b : BitVec 32) : aluSub a.toNat b.toNat = Alu.of (a - b) (a.ult b) (noFit (a.toInt - b.toInt)) := by
  have hdiff : (a.toNat + m32 - b.toNat) % m32 = (a - b).toNat := by
    have hb := b.isLt
    rw [BitVec.toNat_sub, m32]
    omega
  rw [aluSub, s32_toNat, s32_toNat, overflow32_eq_noFit, hdiff]
  rfl

theorem aluAnd_toNat (a b : BitVec 32) : aluAnd a.toNat b.toNat = Alu.of (a &&& b) false false := rfl
theorem aluOr_toNat (a b : BitVec 32) : aluOr a.toNat b.toNat = Alu.of (a ||| b) false false := rfl
theorem aluXor_toNat (a b : BitVec 32) : aluXor a.toNat b.toNat = Alu.of (a ^^^ b) false false := rfl

theorem aluShl_toNat (a b : BitVec 32) : aluShl a.toNat b.toNat =
    Alu.of (a <<< (b.toNat % 32)) (b.toNat % 32 != 0 && a.getLsbD (32 - b.toNat % 32)) false := by
  have hshift : a.toNat * 2 ^ (b.toNat % 32) % m32 = (a <<< (b.toNat % 32)).toNat := by
    rw [BitVec.toNat_shiftLeft, Nat.shiftLeft_eq]
    rfl
  dsimp only [aluShl]
  rw [hshift, bitOf_toNat]
  rfl

theorem aluShr_toNat (a b : BitVec 32) : aluShr a.toNat b.toNat =
    Alu.of (a >>> (b.toNat % 32)) (b.toNat % 32 != 0 && a.getLsbD (b.toNat % 32 - 1)) false := by
  have hshift : a.toNat / 2 ^ (b.toNat % 32) = (a >>> (b.toNat % 32)).toNat := by
    rw [BitVec.toNat_ushiftRight, Nat.shiftRight_eq_div_pow]
  dsimp only [aluShr]
  rw [hshift, bitOf_toNat]
  rfl

theorem aluSar_toNat (a b : BitVec 32) : aluSar a.toNat b.toNat =
    Alu.of (a.sshiftRight (b.toNat % 32)) (b.toNat % 32 != 0 && a.getLsbD (b.toNat % 32 - 1)) false := by
  have hshift : unsgn 32 (a.toInt / 2 ^ (b.toNat % 32)) = (a.sshiftRight (b.toNat % 32)).toNat := by
    rw [unsgn_eq_toNat, BitVec.sshiftRight, Int.shiftRight_eq_div_pow]
    norm_cast
  dsimp only [aluSar]
  rw [s32_toNat, hshift, bitOf_toNat]
  rfl

theorem aluLess_toNat (u : Bool) (a b : BitVec 32) : aluLess u a.toNat b.toNat = if u then a.ult b else a.slt b := by
  rw [aluLess, s32_toNat, s32_toNat]
  rfl

theorem aluMin_toNat (u : Bool) (a b : BitVec 32) : aluMin u a.toNat b.toNat =
    Alu.of (if (if u then b.ult a else b.slt a) then b else a) false false := by
  rw [aluMin, aluLess_toNat, Alu.of, apply_ite BitVec.toNat]

theorem aluMax_toNat (u : Bool) (a b : BitVec 32) : aluMax u a.toNat b.toNat =
    Alu.of (if (if u then a.ult b else a.slt b) then b else a) false false := by
  rw [aluMax, aluLess_toNat, Alu.of, apply_ite BitVec.toNat]

/-! ### Products -/

/-- The low word and the high word of 64 bits. -/
theorem unsgn_mod_m32 (p : Int) : unsgn 64 p % m32 = (BitVec.ofInt 32 p).toNat := by
  rw [BitVec.toNat_ofInt, unsgn, m32]
  omega

theorem toNat_div_m32 (x : BitVec 64) : x.toNat / m32 = (x.extractLsb 63 32).toNat := by
  have hx := x.isLt
  rw [BitVec.extractLsb_toNat, Nat.shiftRight_eq_div_pow, m32]
  omega

theorem ofInt_mul_toInt (n : Nat) (a b : BitVec 32) : BitVec.ofInt n (a.toInt * b.toInt) = a.signExtend n * b.signExtend n :=
  BitVec.ofInt_mul ..

theorem ofInt_mul_toNat (n : Nat) (a b : BitVec 32) :
    BitVec.ofInt n ((a.toNat * b.toNat : Nat) : Int) = a.zeroExtend n * b.zeroExtend n := by
  rw [BitVec.ofInt_natCast, BitVec.ofNat_mul, BitVec.ofNat_toNat, BitVec.ofNat_toNat]

/-- A number is not its low word, extended the same way, exactly if it does not fit 32 bits. -/
theorem bne_s32_low (p : Int) : (p != s32 (BitVec.ofInt 32 p).toNat) = noFit p := by
  rw [s32_toNat, BitVec.toInt_ofInt, Bool.eq_iff_iff, bne_iff_ne, noFit, Bool.or_eq_true, decide_eq_true_iff, decide_eq_true_iff,
    Int.bmod_def]
  omega

theorem bne_low (p : Nat) : ((p : Int) != (BitVec.ofInt 32 p).toNat) = decide (4294967296 ≤ p) := by
  rw [BitVec.ofInt_natCast, BitVec.toNat_ofNat, Bool.eq_iff_iff, bne_iff_ne, decide_eq_true_iff]
  omega

theorem aluMul_high (u : Bool) (a b : BitVec 32) : aluMul u true a.toNat b.toNat =
    Alu.of (if u then (a.zeroExtend 64 * b.zeroExtend 64).extractLsb 63 32 else (a.signExtend 64 * b.signExtend 64).extractLsb 63 32)
      false false := by
  cases u with
  | true =>
    show (⟨unsgn 64 (a.toNat * b.toNat : Nat) / m32, false, false⟩ : Alu) = _
    rw [unsgn_eq_toNat, ofInt_mul_toNat, toNat_div_m32]
    rfl
  | false =>
    show (⟨unsgn 64 (s32 a.toNat * s32 b.toNat) / m32, false, false⟩ : Alu) = _
    rw [s32_toNat, s32_toNat, unsgn_eq_toNat, ofInt_mul_toInt, toNat_div_m32]
    rfl

theorem aluMul_low (u : Bool) (a b : BitVec 32) : aluMul u false a.toNat b.toNat =
    Alu.of (a * b) false (if u then decide (4294967296 ≤ a.toNat * b.toNat) else noFit (a.toInt * b.toInt)) := by
  cases u with
  | true =>
    have hlow : BitVec.ofInt 32 ((a.toNat * b.toNat : Nat) : Int) = a * b := by
      rw [ofInt_mul_toNat, BitVec.zeroExtend_eq_setWidth, BitVec.setWidth_eq, BitVec.zeroExtend_eq_setWidth, BitVec.setWidth_eq]
    show (⟨unsgn 64 (a.toNat * b.toNat : Nat) % m32, false,
      ((a.toNat * b.toNat : Nat) : Int) != (unsgn 64 (a.toNat * b.toNat : Nat) % m32 : Nat)⟩ : Alu) = _
    rw [unsgn_mod_m32, bne_low, hlow]
    rfl
  | false =>
    have hlow : BitVec.ofInt 32 (a.toInt * b.toInt) = a * b := by
      rw [ofInt_mul_toInt, BitVec.signExtend_eq, BitVec.signExtend_eq]
    show (⟨unsgn 64 (s32 a.toNat * s32 b.toNat) % m32, false,
      s32 a.toNat * s32 b.toNat != s32 (unsgn 64 (s32 a.toNat * s32 b.toNat) % m32)⟩ : Alu) = _
    rw [s32_toNat, s32_toNat, unsgn_mod_m32, bne_s32_low, hlow]
    rfl

theorem aluMul_toNat (u high : Bool) (a b : BitVec 32) : aluMul u high a.toNat b.toNat =
    Alu.of (if high then (if u then (a.zeroExtend 64 * b.zeroExtend 64).extractLsb 63 32
        else (a.signExtend 64 * b.signExtend 64).extractLsb 63 32) else a * b) false
      (!high && (if u then decide (4294967296 ≤ a.toNat * b.toNat) else noFit (a.toInt * b.toInt))) := by
  cases high with
  | true => exact aluMul_high u a b
  | false => exact aluMul_low u a b

/-! ### The order of two operands after their comparison (R349, R375) -/

/-- After a subtraction N and V differ exactly if the first operand is less, as signed numbers. -/
theorem msb_sub_bne_noFit (a b : BitVec 32) : ((a - b).msb != noFit (a.toInt - b.toInt)) = a.slt b := by
  have ha := a.toInt_lt
  have ha' := a.le_toInt
  have hb := b.toInt_lt
  have hb' := b.le_toInt
  have hmsb : (a - b).msb = decide ((a.toInt - b.toInt).bmod (2 ^ 32) < 0) := by rw [BitVec.msb_eq_toInt, BitVec.toInt_sub]
  rw [hmsb, BitVec.slt, noFit, ← Bool.decide_or, Bool.eq_iff_iff, bne_iff_ne, ne_eq, decide_eq_decide, decide_eq_true_iff, Int.bmod_def]
  omega

theorem ule_eq_ult_or_beq (a b : BitVec 32) : a.ule b = (a.ult b || a == b) := by
  rw [Bool.eq_iff_iff, Bool.or_eq_true, beq_iff_eq, BitVec.ule_iff_toNat_le, BitVec.ult_iff_toNat_lt, ← BitVec.toNat_inj]
  exact Nat.le_iff_lt_or_eq

/-- The conditions that Table 10-3 names by the order of the operands, on the flags of their comparison. -/
theorem Fold.conds_compare {f : Fold} {a b : BitVec 32}
    (h : f.nzcv = (a == b, (a - b).msb, a.ult b, noFit (a.toInt - b.toInt))) :
    [10, 11, 6, 7, 14, 15, 13, 12].map f.cond =
      [b.ult a, a.ule b, a.ult b, b.ule a, b.slt a, a.sle b, a.slt b, b.sle a] := by
  simp only [Fold.nzcv, Prod.mk.injEq] at h
  obtain ⟨hz, hn, hc, hv⟩ := h
  have hless : (f.n != f.v) = a.slt b := by rw [hn, hv, msb_sub_bne_noFit]
  have hnotLess : (f.n == f.v) = !a.slt b := by rw [← hless, bne, Bool.not_not]
  have habove : (!f.c && !f.z) = b.ult a := by
    rw [← Bool.not_or, hc, hz, ← ule_eq_ult_or_beq, BitVec.ule_eq_not_ult, Bool.not_not]
  have hgreater : (!f.z && !a.slt b) = b.slt a := by
    rw [← Bool.not_or, hz, Bool.or_comm, ← BitVec.sle_eq_slt_or_eq, BitVec.sle_eq_not_slt, Bool.not_not]
  show [!f.c && !f.z, f.c || f.z, f.c, !f.c, !f.z && f.n == f.v, f.z || f.n != f.v, f.n != f.v, f.n == f.v] = _
  rw [hless, hnotLess, habove, hgreater, hc, hz, ule_eq_ult_or_beq, BitVec.ule_eq_not_ult b, BitVec.sle_eq_slt_or_eq (x := a),
    BitVec.sle_eq_not_slt (x := b), Bool.or_comm (a == b)]

end Sys2Proof.Machine
end

section
/-! PROOFS. The flags of a fold that faults (spec/10_korty_model.md R365). -/
set_option Elab.async false
namespace Sys2Proof.Machine

/-- The flags of a fold and its wait for another fold's: a fold that waits for none is not woken, and keeps its V. -/
def Fold.flagsAndWait (f : Fold) : Option (Nat × Nat) × Bool × Bool × Bool × Bool := (f.waitFlags, f.nzcv)

theorem State.unwait_flagsAndWait {s : State} {n : Nat} (hn : n < s.folds.length) :
    ((s.unwait n).fold n).flagsAndWait = (none, nzcv s n) := by
  rw [State.unwait, State.fold_onFold_same _ (by rwa [State.put_folds]), State.put_fold]
  rfl

theorem State.runDown_flagsAndWait {s : State} {n : Nat} (hn : n < s.folds.length) :
    ((s.runDown n).fold n).flagsAndWait = (none, nzcv s n) := by
  unfold State.runDown
  extract_lets s1 s2
  have hring : s2.fold n = s1.fold n := by
    dsimp only [s2]
    split <;> rfl
  have hwindow : (s1.fold n).flagsAndWait = ((s.unwait n).fold n).flagsAndWait :=
    State.fold_onFold_keeps Fold.flagsAndWait (by intro f; rfl) _ n n
  exact (State.fold_onFold_keeps Fold.flagsAndWait (by intro f; rfl) _ n n).trans
    (by rw [hring, hwindow, State.unwait_flagsAndWait hn])

/-- A fold that waits for no flags is not the one that is woken. -/
theorem State.woken_flagsAndWait {s : State} {n k : Nat} {x : Bool × Bool × Bool × Bool} (h : (s.fold n).flagsAndWait = (none, x))
    {w : Nat × Nat} (hwaits : (s.fold k).waitFlags = some w) (v : Bool) :
    (((s.unwait k).onFold k fun f => { f with v := v }).fold n).flagsAndWait = (none, x) := by
  have hne : n ≠ k := by
    rintro rfl
    have hnone := congrArg Prod.fst h
    rw [Fold.flagsAndWait, hwaits] at hnone
    exact Option.some_ne_none _ hnone
  rw [State.fold_onFold_ne _ _ hne, State.unwait, State.fold_onFold_ne _ _ hne, State.put_fold, h]

theorem State.wakeFlags_flagsAndWait {s : State} {n : Nat} {x : Bool × Bool × Bool × Bool}
    (h : (s.fold n).flagsAndWait = (none, x)) (m : Nat) : ((s.wakeFlags m).fold n).flagsAndWait = (none, x) := by
  refine State.each_induct (P := fun t => (t.fold n).flagsAndWait = (none, x)) (fun y k hy => ?_) (List.range 4) h
  split
  · rename_i hwaits
    split
    · exact hy
    · split
      · exact State.woken_flagsAndWait hy hwaits false
      · split
        · exact hy
        · exact State.woken_flagsAndWait hy hwaits true
  · exact hy

/-- The end of a run leaves the flags of its fold. -/
theorem State.endRun_nzcv {s : State} {n : Nat} (hn : n < s.folds.length) : nzcv (s.endRun n) n = nzcv s n := by
  have hreport := (State.reportRun_fold Fold.flagsAndWait (by intro f; rfl) (s.runDown n) n n).trans (State.runDown_flagsAndWait hn)
  rw [State.endRun_eq]
  exact congrArg Prod.snd (State.wakeFlags_flagsAndWait (by rw [State.flag_fold, State.flag_fold, hreport]) n)

theorem State.foldFault_nzcv {s : State} {n : Nat} (hn : n < s.folds.length) (code pc : Nat) :
    nzcv (s.foldFault n code pc) n = nzcv s n := by
  have hrecord := congrArg Fold.nzcv (s.recordFault_fold n code pc n)
  have hend := State.endRun_nzcv (s := s.recordFault n code pc) (by rwa [State.recordFault_length])
  rw [State.foldFault_eq, nzcv_eq, State.stopFaulted_fold, State.fold_onFold_keeps Fold.nzcv (by intro f; rfl)]
  exact hend.trans hrecord

end Sys2Proof.Machine
end

section
/-! PROOFS. Arithmetic, logic and comparison instructions of a fold (spec/11_korty_instructions.md R374, R375). -/
set_option Elab.async false
namespace Sys2Proof.Machine

/-! ### Operands -/

theorem opR_apply (f : Nat → Nat → Alu) (s : State) (n w : Nat) :
    f (s.opR n w).1 (s.opR n w).2 = f (reg s n (kRs1 w)).toNat (reg s n (kRs2 w)).toNat := by
  rw [State.opR, kreg_eq, kreg_eq]

theorem opI_apply (f : Nat → Nat → Alu) (s : State) (n w : Nat) :
    f (s.opI n w).1 (s.opI n w).2 = f (reg s n (kRs1 w)).toNat (BitVec.ofNat 32 (kImm w)).toNat := by
  rw [State.opI, kreg_eq, BitVec.toNat_ofNat, Nat.mod_eq_of_lt (show kImm w < 2 ^ 32 from bits_lt w 0 32)]

/-! ### Flags -/

theorem Steady.setNZCV (s : State) (n : Nat) (x : Alu) : Steady n s (s.setNZCV n x) := Steady.onFold s n (fun _ => rfl) fun _ => rfl

theorem nzcv_setNZCV {s : State} {n : Nat} (hn : n < s.folds.length) (r : BitVec 32) (c v : Bool) :
    nzcv (s.setNZCV n (Alu.of r c v)) n = (r == 0, r.msb, c, v) := by
  have hzero : (r.toNat == 0) = (r == 0) := by
    rw [Bool.eq_iff_iff, beq_iff_eq, beq_iff_eq, ← BitVec.toNat_inj, BitVec.ofNat_eq_ofNat, BitVec.toNat_zero]
  have hsign : bitOf r.toNat 31 = r.msb := (bitOf_toNat r 31).trans (BitVec.msb_eq_getLsbD_last r).symm
  rw [nzcv_eq, State.setNZCV_fold hn, ← hzero, ← hsign]
  rfl

/-! ### Instructions that write RD -/

/-- An instruction that has set flags at most, and then writes a k register and goes on. -/
theorem setK_advance_after {n op w : Nat} {s t : State} (hruns : runsAt s n op w) (h : Steady n s t)
    (hk : (t.fold n).k = (s.fold n).k) (r : BitVec 32) : setsReg ((t.setK n (kRd w) r.toNat).advance n) n (kRd w) r ∧
      nzcv ((t.setK n (kRd w) r.toNat).advance n) n = nzcv t n ∧ wentOn s ((t.setK n (kRd w) r.toNat).advance n) n := by
  have hn : n < t.folds.length := h.length ▸ (standing_of_standsAt hruns.1).lt
  have hset := setsReg_setK hn (hk ▸ (standing_of_standsAt hruns.1).rd_lt) r.toNat
  rw [BitVec.ofNat_toNat, BitVec.setWidth_eq] at hset
  obtain ⟨hwent, hfold⟩ := advance_goesOn hruns (h.trans (Steady.setK t n (kRd w) r.toNat))
  refine ⟨setsReg_congr (by rw [hfold]; rfl) hset, ?_, hwent⟩
  rw [nzcv_eq, hfold, State.setK_fold hn]
  rfl

theorem alu_done {n op w : Nat} {s : State} {tv v : Bool} (hruns : runsAt s n op w) (hfit : tv = false ∨ kTv w = false ∨ v = false)
    (pc : Nat) (r : BitVec 32) (c : Bool) : aluDone s (s.alu n w pc tv (Alu.of r c v)) n w r c v := by
  have hnoFault : (tv && kTv w && (Alu.of r c v).v) = false := by
    rw [Alu.of, Bool.and_assoc, Bool.and_eq_false_iff, Bool.and_eq_false_iff]
    exact hfit
  rw [State.alu, hnoFault, if_neg Bool.false_ne_true]
  cases hS : kS w with
  | false =>
    obtain ⟨hset, hflags, hwent⟩ := setK_advance_after hruns (Steady.refl n s) rfl r
    exact ⟨hset, hflags.trans (by rw [hS, if_neg Bool.false_ne_true]), hwent⟩
  | true =>
    have hn := (standing_of_standsAt hruns.1).lt
    obtain ⟨hset, hflags, hwent⟩ := setK_advance_after hruns (Steady.setNZCV s n (Alu.of r c v))
      (by rw [State.setNZCV_fold hn]; rfl) r
    exact ⟨hset, hflags.trans (by rw [hS, if_pos rfl, nzcv_setNZCV hn]), hwent⟩

section
variable {s : State} {fold : Fin 4} {w op : Nat} {i : Instr} {tv c v : Bool} {r : BitVec 32} {x : State → Nat → Alu}

/-- An instruction with the result `r`, C and V that does not fault. -/
theorem yields_alu (hruns : runsAt s fold op w) (hexec : exec i s = .next (s.korty fold op fun s w pc => s.alu fold w pc tv (x s w)))
    (hx : x s w = Alu.of r c v) (hfit : tv = false ∨ kTv w = false ∨ v = false) : yields i s fun t => aluDone s t fold w r c v := by
  rw [(standing_of_standsAt hruns.1).korty_same hruns.2.1, hx] at hexec
  exact ⟨_, hexec, alu_done hruns hfit _ r c⟩

/-- An instruction with TV whose result overflows. -/
theorem yields_alu_overflow (hstands : standsAt s fold w) (hop : kOp w = op)
    (hexec : exec i s = .next (s.korty fold op fun s w pc => s.alu fold w pc true (x s w)))
    (hx : x s w = Alu.of r c v) (htv : kTv w = true) (hv : v = true) : yields i s fun t =>
      faultedAt s t fold 10 (s.fold fold).pc ∧ (t.fold fold).k = (s.fold fold).k ∧ nzcv t fold = nzcv s fold := by
  have hst := standing_of_standsAt hstands
  have hfault : (true && kTv w && (Alu.of r c v).v) = true := by rw [Alu.of, htv, hv]; rfl
  rw [hst.korty_same hop, hx, State.alu, if_pos hfault] at hexec
  exact ⟨_, hexec, hst.faults (by decide), State.foldFault_k hst.lt .., State.foldFault_nzcv hst.lt ..⟩

/-- A comparison sets the flags alone, which give the order of its operands. -/
theorem yields_compare {a b : BitVec 32} (hruns : runsAt s fold op w)
    (hexec : exec i s = .next (s.korty fold op fun s w _ => (s.setNZCV fold (x s w)).advance fold))
    (hx : x s w = Alu.of (a - b) (a.ult b) (noFit (a.toInt - b.toInt))) : yields i s fun t =>
      nzcv t fold = (a == b, (a - b).msb, a.ult b, noFit (a.toInt - b.toInt)) ∧ (t.fold fold).k = (s.fold fold).k ∧ wentOn s t fold ∧
      [10, 11, 6, 7, 14, 15, 13, 12].map (t.fold fold).cond =
        [b.ult a, a.ule b, a.ult b, b.ule a, b.slt a, a.sle b, a.slt b, b.sle a] := by
  have hst := standing_of_standsAt hruns.1
  rw [hst.korty_same hruns.2.1, hx] at hexec
  obtain ⟨hwent, hfold⟩ := advance_goesOn hruns (Steady.setNZCV s fold (Alu.of (a - b) (a.ult b) (noFit (a.toInt - b.toInt))))
  have hequal : (a - b == 0) = (a == b) := by
    rw [Bool.eq_iff_iff, beq_iff_eq, beq_iff_eq, BitVec.sub_eq_iff_eq_add, BitVec.ofNat_eq_ofNat, BitVec.zero_add]
  have hflags : nzcv ((s.setNZCV fold (Alu.of (a - b) (a.ult b) (noFit (a.toInt - b.toInt)))).advance fold) fold =
      (a == b, (a - b).msb, a.ult b, noFit (a.toInt - b.toInt)) := by
    rw [← hequal, ← nzcv_setNZCV hst.lt, nzcv_eq, hfold]
    rfl
  refine ⟨_, hexec, hflags, ?_, hwent, Fold.conds_compare hflags⟩
  rw [hfold, State.setNZCV_fold hst.lt]
  rfl

end

theorem nop_goes {s : State} {fold : Fin 4} (hruns : runsAt s fold 0x00 0) : yields (.nop fold) s fun t =>
    t = (s.onFold fold fun f => { f with pc := f.pc + 1, steps := f.steps + 1 }).put F.FOLDn_STATUS_PC ((s.fold fold).pc + 1) fold := by
  obtain ⟨hstands, hop, hpc⟩ := hruns
  have hst := standing_of_standsAt hstands
  have hexec : exec (.nop fold) s = .next (s.advance fold) := by
    show execNop fold s = _
    rw [execNop, hst.korty_same hop]
  refine ⟨_, hexec, ?_⟩
  beta_reduce
  rw [State.advance_of_lt hst.lt hpc, State.goTo, State.onFold_congr]
  rfl

/-! ### The statement -/

/-- Settles O26: the operations as the lemmas above compute them, and the fields that the masks of their opcodes leave. -/
theorem arithmeticComputes : Obligations.ArithmeticComputes := by
  unfold Obligations.ArithmeticComputes
  exact ⟨
    fun s fold w h hfit => yields_alu h rfl ((opR_apply aluAdd s fold w).trans (aluAdd_toNat ..)) (.inr hfit),
    fun s fold w h hfit => yields_alu h rfl ((opI_apply aluAdd s fold w).trans (aluAdd_toNat ..)) (.inr hfit),
    fun s fold w h hfit => yields_alu h rfl ((opR_apply aluSub s fold w).trans (aluSub_toNat ..)) (.inr hfit),
    fun s fold w h => yields_alu h rfl ((opR_apply aluAnd s fold w).trans (aluAnd_toNat ..)) (.inl rfl),
    fun s fold w h => yields_alu h rfl ((opI_apply aluAnd s fold w).trans (aluAnd_toNat ..)) (.inl rfl),
    fun s fold w h => yields_alu h rfl ((opR_apply aluOr s fold w).trans (aluOr_toNat ..)) (.inl rfl),
    fun s fold w h => yields_alu h rfl ((opI_apply aluOr s fold w).trans (aluOr_toNat ..)) (.inl rfl),
    fun s fold w h => yields_alu h rfl ((opR_apply aluXor s fold w).trans (aluXor_toNat ..)) (.inl rfl),
    fun s fold w h => yields_alu h rfl ((opI_apply aluXor s fold w).trans (aluXor_toNat ..)) (.inl rfl),
    fun s fold w h => yields_alu h rfl ((opR_apply aluShl s fold w).trans (aluShl_toNat ..)) (.inl rfl),
    fun s fold w h => yields_alu h rfl ((opI_apply aluShl s fold w).trans (aluShl_toNat ..)) (.inl rfl),
    fun s fold w h => yields_alu h rfl ((opR_apply aluShr s fold w).trans (aluShr_toNat ..)) (.inl rfl),
    fun s fold w h => yields_alu h rfl ((opI_apply aluShr s fold w).trans (aluShr_toNat ..)) (.inl rfl),
    fun s fold w h => yields_alu h rfl ((opR_apply aluSar s fold w).trans (aluSar_toNat ..)) (.inl rfl),
    fun s fold w h => yields_alu h rfl ((opI_apply aluSar s fold w).trans (aluSar_toNat ..)) (.inl rfl),
    fun s fold w h => yields_alu h rfl ((opR_apply (aluMul (kU w) (kHigh w)) s fold w).trans (aluMul_toNat ..)) (.inl rfl),
    fun s fold w h => yields_alu h rfl ((opR_apply (aluMin (kU w)) s fold w).trans (aluMin_toNat ..)) (.inl rfl),
    fun s fold w h => yields_alu h rfl ((opR_apply (aluMax (kU w)) s fold w).trans (aluMax_toNat ..)) (.inl rfl),
    fun s fold w h => yields_compare h rfl ((opR_apply aluSub s fold w).trans (aluSub_toNat ..)),
    fun s fold w h => yields_compare h rfl ((opI_apply aluSub s fold w).trans (aluSub_toNat ..)),
    fun s fold => nop_goes,
    fun s fold w h hop => yields_alu_overflow h hop rfl ((opR_apply aluAdd s fold w).trans (aluAdd_toNat ..)),
    fun s fold w h hop => yields_alu_overflow h hop rfl ((opR_apply aluSub s fold w).trans (aluSub_toNat ..)),
    fun s fold w h hop => yields_alu_overflow h hop rfl ((opI_apply aluAdd s fold w).trans (aluAdd_toNat ..)),
    fun w h hop => Nat.lt_succ_of_le (kortyOk_field_le 32 9 h hop (b := 3) (by decide) (by decide)),
    fun w h hop => Nat.lt_succ_of_le (kortyOk_field_le 32 9 h hop (b := 1) (by decide) (by decide)),
    fun w h hop => ⟨Nat.lt_of_le_of_lt (kortyOk_field_le 32 9 h hop (b := 13) (by decide) (by decide)) (by decide),
      kortyOk_field_bit 32 9 h hop (b := 13) (by decide) (by decide) (by decide)⟩,
    fun w h hop => ⟨Nat.lt_of_le_of_lt (kortyOk_field_le 32 9 h hop (b := 5) (by decide) (by decide)) (by decide),
      kortyOk_field_bit 32 9 h hop (b := 5) (by decide) (by decide) (by decide)⟩,
    fun w h hop => ⟨Nat.le_zero.mp (kortyOk_field_le 51 5 h hop (by decide) (by decide)),
      Nat.le_zero.mp (kortyOk_field_le 32 9 h hop (by decide) (by decide))⟩,
    fun w h hop => Nat.lt_succ_of_le (kortyOk_field_le 0 32 h hop (b := 31) (by decide) (by decide))⟩

end Sys2Proof.Machine
end

section
/-! PROOFS. Rectangle instructions of a fold (spec/11_korty_instructions.md R377; spec/10_korty_model.md R346). -/
set_option Elab.async false
namespace Sys2Proof.Machine

/-! ### Rectangles in 64 bits (R346) -/

theorem rectOf_lt {q x0 y0 x1 y1 : Nat} (h : rectOf q = (x0, y0, x1, y1)) :
    x0 < 65536 ∧ y0 < 65536 ∧ x1 < 65536 ∧ y1 < 65536 := by
  simp only [rectOf, Prod.mk.injEq] at h
  obtain ⟨rfl, rfl, rfl, rfl⟩ := h
  exact ⟨bits_lt q 0 16, bits_lt q 16 16, bits_lt q 32 16, bits_lt q 48 16⟩

/-- A register that holds four coordinates shows them. -/
theorem rectOf_packed {x0 y0 x1 y1 : Nat} (h : x0 < 65536 ∧ y0 < 65536 ∧ x1 < 65536 ∧ y1 < 65536) :
    rectOf ((x0 + 2 ^ 16 * y0 + 2 ^ 32 * x1 + 2 ^ 48 * y1) % 2 ^ 64) = (x0, y0, x1, y1) := by
  simp only [rectOf, bits, Prod.mk.injEq]
  omega

/-- A half of a register, cut to 32 bits. -/
theorem ofNat_half (q k : Nat) :
    BitVec.ofNat 32 (bits q (32 * (k % 2)) 32) = BitVec.ofNat 32 (if k % 2 = 1 then q / 4294967296 else q) := by
  refine BitVec.eq_of_toNat_eq ?_
  rw [BitVec.toNat_ofNat, BitVec.toNat_ofNat, bits, Nat.mod_mod]
  obtain hk | hk := Nat.mod_two_eq_zero_or_one k
  · rw [hk, if_neg Nat.zero_ne_one, Nat.mul_zero, Nat.pow_zero, Nat.div_one]
  · rw [hk, if_pos rfl]
    rfl

/-! ### The instructions -/

theorem qa_lt {s : State} {n w : Nat} (h : Standing s n w) : kQa w < (s.fold n).q.length := by
  rw [h.qLength]
  exact bits_lt w 37 4

/-- The step to the next instruction leaves the rectangle registers. -/
theorem qreg_advance {n op w : Nat} {s t : State} (hruns : runsAt s n op w) (h : Steady n s t) (i : Nat) :
    (t.advance n).qreg n i = t.qreg n i := by
  obtain ⟨-, hfold⟩ := advance_goesOn hruns h
  exact State.qreg_congr (by rw [hfold]; rfl) i

theorem qset_joins {s : State} {fold : Fin 4} {w : Nat} (hruns : runsAt s fold 0x20 w) : yields (.qset fold) s fun t =>
    t.qreg fold (kQa w) = (reg s fold (kRs1 w)).toNat + (reg s fold (kRs2 w)).toNat * 4294967296 ∧ wentOn s t fold := by
  have hst := standing_of_standsAt hruns.1
  obtain ⟨v, hv⟩ : ∃ v, v = (reg s fold (kRs1 w)).toNat + (reg s fold (kRs2 w)).toNat * 2 ^ 32 := ⟨_, rfl⟩
  have hexec : exec (.qset fold) s = .next ((s.setQ fold (kQa w) v).advance fold) := by
    show execQset fold s = _
    rw [execQset, hst.korty_same hruns.2.1, kreg_eq, kreg_eq, hv]
  have hsteady := Steady.setQ s fold (kQa w) v
  refine ⟨_, hexec, ?_, (advance_goesOn hruns hsteady).1⟩
  have hlow := (reg s fold (kRs1 w)).isLt
  have hhigh := (reg s fold (kRs2 w)).isLt
  rw [qreg_advance hruns hsteady, State.qreg_setQ hst.lt (qa_lt hst), Nat.mod_eq_of_lt (by omega)]
  exact hv

theorem qget_reads {s : State} {fold : Fin 4} {w : Nat} (hruns : runsAt s fold 0x21 w) : yields (.qget fold) s fun t =>
    setsReg t fold (kRd w) (BitVec.ofNat 32 (if kStage w % 2 = 1 then s.qreg fold (kQb w) / 4294967296 else s.qreg fold (kQb w))) ∧
      wentOn s t fold := by
  have hexec : exec (.qget fold) s =
      .next ((s.setK fold (kRd w) (bits (s.qreg fold (kQb w)) (32 * (kStage w % 2)) 32)).advance fold) := by
    show execQget fold s = _
    rw [execQget, (standing_of_standsAt hruns.1).korty_same hruns.2.1]
  refine ⟨_, hexec, ?_⟩
  rw [← ofNat_half]
  exact setK_advance hruns _

theorem qisect_intersects {s : State} {fold : Fin 4} {w ax0 ay0 ax1 ay1 bx0 by0 bx1 by1 : Nat} (hruns : runsAt s fold 0x22 w)
    (ha : rectOf (s.qreg fold (kQa w)) = (ax0, ay0, ax1, ay1)) (hb : rectOf (s.qreg fold (kQb w)) = (bx0, by0, bx1, by1)) :
    yields (.qisect fold) s fun t => rectOf (t.qreg fold (kQa w)) = (max ax0 bx0, max ay0 by0, min ax1 bx1, min ay1 by1) ∧
      (t.fold fold).z = (decide (min ax1 bx1 ≤ max ax0 bx0) || decide (min ay1 by1 ≤ max ay0 by0)) ∧ wentOn s t fold := by
  have hst := standing_of_standsAt hruns.1
  obtain ⟨v, hv⟩ : ∃ v, v = max ax0 bx0 + 2 ^ 16 * max ay0 by0 + 2 ^ 32 * min ax1 bx1 + 2 ^ 48 * min ay1 by1 := ⟨_, rfl⟩
  obtain ⟨z, hz⟩ : ∃ z, z = (decide (min ax1 bx1 ≤ max ax0 bx0) || decide (min ay1 by1 ≤ max ay0 by0)) := ⟨_, rfl⟩
  have hexec : exec (.qisect fold) s = .next (((s.setQ fold (kQa w) v).onFold fold fun f => { f with z := z }).advance fold) := by
    show execQisect fold s = _
    rw [execQisect, hst.korty_same hruns.2.1, ha, hb, hv, hz]
    rfl
  have hset := Steady.setQ s fold (kQa w) v
  have hsteady := hset.trans (Steady.onFold (s.setQ fold (kQa w) v) fold (f := fun f => { f with z := z }) (fun _ => rfl) fun _ => rfl)
  obtain ⟨hwent, hfold⟩ := advance_goesOn hruns hsteady
  refine ⟨_, hexec, ?_, ?_, hwent⟩
  · have hleft : ((s.setQ fold (kQa w) v).onFold fold fun f => { f with z := z }).qreg fold (kQa w) =
        (s.setQ fold (kQa w) v).qreg fold (kQa w) :=
      State.qreg_congr (State.fold_onFold_keeps Fold.q (by intro f; rfl) ..) _
    have haLt := rectOf_lt ha
    have hbLt := rectOf_lt hb
    rw [qreg_advance hruns hsteady, hleft, State.qreg_setQ hst.lt (qa_lt hst), hv]
    exact rectOf_packed (by omega)
  · rw [hfold, State.fold_onFold_same _ (hset.length ▸ hst.lt), ← hz]
    rfl

/-- Settles O31: the three instructions, and the fields that the masks of their opcodes leave out. -/
theorem rectangleInstructions : Obligations.RectangleInstructions := by
  unfold Obligations.RectangleInstructions
  exact ⟨fun s fold w => qset_joins, fun s fold w => qget_reads, fun s fold w _ _ _ _ _ _ _ _ => qisect_intersects,
    fun w h hop => kortyOk_unused h (by rw [hop]; rfl) (by decide) (by decide),
    fun w h hop => kortyOk_unused h (by rw [hop]; rfl) (by decide) (by decide),
    fun w h hop => kortyOk_unused h (by rw [hop]; rfl) (by decide) (by decide)⟩

end Sys2Proof.Machine
end

section
/-! PROOFS. Hosts and tickets (spec/12_hosts_and_tickets.md): what their commands leave unchanged, a command whose entry holds a
correctable memory error, an acceptance while MEM is in reset, and the acknowledgement of a REPLY that repeats a DONE entry. -/
namespace Sys2Proof.Machine

/-! ### Frames of the host commands -/

/-- Settles O43: each command of the chapter is within its list by the lemma of Laws/WithinTickets.lean about its meaning. -/
theorem hostFrames : Obligations.HostFrames := by
  unfold Obligations.HostFrames
  simp only [List.forall_mem_cons, List.not_mem_nil, false_implies, implies_true, and_true]
  refine ⟨fun ctx entry payload readOk pads => ⟨?_, ?_, ?_, ?_, ?_, ?_, ?_, ?_, ?_, ?_, ?_, ?_, ?_, ?_, ?_, ?_, ?_⟩, fun ctx => ?_,
    fun ctx => ?_⟩
  · exact changesOnly_of_within (fun _ => rfl) (execRegWrite_within ctx entry payload readOk)
  · exact changesOnly_of_within (fun _ => rfl) (execTableWrite_within ctx entry payload readOk)
  · exact changesOnly_of_within (fun _ => rfl) (execMemWrite_within ctx entry payload readOk)
  · exact changesOnly_of_within (fun _ => rfl) (execHurdlePost_within ctx entry)
  · exact changesOnly_of_within (fun _ => rfl) (execPosePost_within ctx entry)
  · exact changesOnly_of_within (fun _ => rfl) (execTileService_within ctx entry)
  · exact changesOnly_of_within (fun _ => rfl) (execFlockOpen_within ctx entry)
  · exact changesOnly_of_within (fun _ => rfl) (execFlockCall_within ctx entry)
  · exact changesOnly_of_within (fun _ => rfl) (execFlockCancel_within ctx entry)
  · exact changesOnly_of_within (fun _ => rfl) (execFlockQuery_within ctx entry)
  · exact changesOnly_of_within (fun _ => rfl) (execTxbegin_within ctx entry)
  · exact changesOnly_of_within (fun _ => rfl) (execTxend_within ctx entry)
  · exact changesOnly_of_within (fun _ => rfl) (execTxabort_within ctx entry)
  · exact changesOnly_of_within (fun _ => rfl) (execTunnel_within ctx entry payload readOk)
  · exact changesOnly_of_within (fun _ => rfl) (execRegRead_within ctx entry pads)
  · exact changesOnly_of_within (fun _ => rfl) (execMemRead_within ctx entry)
  · exact changesOnly_of_within (fun _ => rfl) (execTicketQuery_within ctx entry)
  · exact changesOnly_of_within (fun _ => rfl) (execTicketAccept_within ctx)
  · exact changesOnly_of_within (fun _ => rfl) (execTicketExecute_within ctx)

/-! ### A taken command (R404, R406, R431) -/

/-- A command that PCIe offers and that passes the checks waits for its ticket. Its entry has been read from the command ring, with the
memory errors that it holds. -/
theorem State.command_offered {s : State} {ctx : Fin 8} {op : Nat} {e pay : Bytes} (hoffers : offers s ctx op e pay)
    (hquery : isQuery op = false) (hup : ((s.ringRead ctx).entryMet e pay 0).ring.mirrorUp = false) (pads : Nat) :
    s.command op ctx e pay true pads =
      ((s.ringRead ctx).entryMet e pay 0).onCtx ctx fun x => { x with checked := some ⟨e, pay, s.serial, 0, 0⟩ } := by
  obtain ⟨htake, hpcie, hsq, -, -, hlen, hop, hpay, hcode⟩ := hoffers
  have hentry : (e ++ zeros 64).take 64 = e := List.take_left' hlen
  have hall : pay.take (eLen e) = pay := List.take_of_length_le hpay.le
  have htaken : s.command op ctx e pay true pads = s.takeEntry ctx ⟨e, pay, s.serial, 0, 0⟩ true pads := by
    simp [State.command, htake, hpcie, hsq, hentry, hall, hop]
  rw [htaken, State.takeEntry]
  simp [hcode, hop, hquery, hup]

/-- A bellwether to which PCIe offers a FLOCK_OPEN; the granule of the entry in the command ring holds a correctable error. -/
def correctableHead : State := Tests.hostBw.onMst fun m => { m with back := [0x28000000] }

/-- Refutes O6: its clauses on a taken command have every register stay as it is, without the premise that the entry's place in the command
ring holds no memory error. The read of an entry with a correctable error delivers the corrected entry and counts the error in MEM_CE (R431). -/
theorem not_hostCommandsAreTaken : ¬ Obligations.HostCommandsAreTaken := by
  unfold Obligations.HostCommandsAreTaken
  rintro ⟨-, -, -, -, -, -, hopen, -⟩
  have hoffers : offers correctableHead 0 0x10 (Tests.ent 0x10) [] := by decide +kernel
  obtain ⟨t, hnext, -, hregs, -⟩ := hopen correctableHead 0 (Tests.ent 0x10) hoffers
  have hexec : exec (.flockOpen 0 (Tests.ent 0x10)) correctableHead =
      .next (correctableHead.command 0x10 (0 : Fin 8) (Tests.ent 0x10) [] true 0) := rfl
  rw [hexec, Host.Outcome.next.injEq] at hnext
  have hcounted : (correctableHead.command 0x10 (0 : Fin 8) (Tests.ent 0x10) [] true 0).f F.MEM_CE = 1 := by
    rw [State.command_offered hoffers rfl (by decide +kernel)]
    decide +kernel
  have hbefore : correctableHead.f F.MEM_CE = 0 := by decide +kernel
  rw [hnext, State.f_of_regs hregs, hbefore] at hcounted
  exact absurd hcounted (by decide)

/-! ### Acceptance while MEM is in reset (R406, R583) -/

/-- While MEM is in reset no record can be stored, so a checked command waits. -/
theorem exec_ticketAccept_memReset {s : State} (ctx : Fin 8) (hreset : s.on iMEM = false) :
    exec (.ticketAccept ctx) s = .next s := by
  show execTicketAccept ctx s = _
  rw [execTicketAccept, hreset]
  cases (s.ctx ctx).checked <;> rfl

/-- A bellwether that has checked a FLOCK_OPEN of context 0, with its MEM island in reset. -/
def checkedMemResetHead : State :=
  (Tests.hostBw.onCtx 0 fun x => { x with checked := some ⟨Tests.ent 0x10, [], 0, 0, 0⟩ }).onXing fun x =>
    { x with inReset := modAt x.inReset iMEM fun _ => true }

/-- Refutes O7: its clause on TICKET_ACCEPT has the checked command accepted at once, without the premise that MEM is out of reset. While
MEM is in reset host commands wait (R583): the FLOCK_OPEN here gets no ticket. -/
theorem not_ticketsRun : ¬ Obligations.TicketsRun := by
  unfold Obligations.TicketsRun
  rintro ⟨haccept, -⟩
  obtain ⟨t, hnext, -, -, haccepted, -⟩ := haccept checkedMemResetHead 0 ⟨Tests.ent 0x10, [], 0, 0, 0⟩ (by decide +kernel)
    (by decide +kernel) (by decide +kernel) (by decide +kernel) (by decide +kernel)
  rw [exec_ticketAccept_memReset 0 (by decide +kernel), Host.Outcome.next.injEq] at hnext
  have hwaits : (checkedMemResetHead.ctx (0 : Fin 8)).checked.isSome = true := by decide +kernel
  rw [hnext, haccepted] at hwaits
  exact absurd hwaits Bool.false_ne_true

/-! ### The acknowledgement of a REPLY without an entry in the ring (R410, R417) -/

/-- The acknowledgement of a REPLY that repeats a DONE entry ends its repeats and frees the record of its ticket. -/
theorem exec_replyAckRx_repeatedDone {s : State} {payload : Bytes} {q : Reply} (hpwr : s.pwr.up = true) (hon : s.on iLINK = true)
    (htile : s.isTile = true) (hkind : le payload 0 1 = 0x31) (hserial : le payload 8 8 = s.serial)
    (hfound : s.host.replies.find? (fun r => r.seq == le payload 4 4) = some q) (hindex : q.index = none) (hdone : le q.body 36 1 = 3) :
    exec (.replyAckRx payload) s =
      .next ((s.onHost fun h => { h with replies := h.replies.filter fun r => r.seq != q.seq }).freeRec q.ctx (le q.body 32 4)) := by
  show execReplyAckRx payload s = _
  rw [execReplyAckRx, hpwr, hon, Bool.and_self, if_pos rfl, State.rxReplyAck]
  simp [htile, hkind, hserial, hfound, hindex, hdone]

/-- The record of ticket 1 of context 2, a REG_WRITE that is DONE. -/
def doneRec : JRec := { Tests.recOf (Tests.ent 0x01) [] 1 with ctx := 2, st := 3, handoff := true, doneWritten := true }

/-- The REPLY that answers a repeated TUNNEL_CMD from `doneRec`: it repeats the record's DONE entry. -/
def repeatedDone : Reply := ⟨5, 2, zeros 32 ++ completion 1 3 0 0 0 0x01 0 0 0 [], none⟩

/-- A tile that keeps one record and sends the REPLY that repeats its DONE entry. -/
def repeatingTile : State :=
  (Tests.tunTile.onHost fun h => { h with journal := [doneRec], replies := [repeatedDone] }).journalRegs

/-- REPLY_ACK of the REPLY of sequence number 5. -/
def ackOfFive : Bytes := mkMsg 16 [(0, 1, 0x31), (4, 4, 5), (8, 8, repeatingTile.serial)]

/-- Refutes O8: its clause on the REPLY_ACK of a REPLY with no entry in the ring has every register stay as it is, without the premise that
the REPLY repeats no DONE entry. The acknowledgement of one that does consumes the entry (R417), which frees the slot of its record (R410):
HOST_JOURNAL here falls from 1 to 0. -/
theorem not_peerMessagesAct : ¬ Obligations.PeerMessagesAct := by
  unfold Obligations.PeerMessagesAct
  rintro ⟨-, -, -, -, -, hack, -⟩
  have hpwr : repeatingTile.pwr.up = true := by decide +kernel
  have hon : repeatingTile.on iLINK = true := by decide +kernel
  have htile : repeatingTile.isTile = true := by decide +kernel
  have hkind : le ackOfFive 0 1 = 0x31 := by decide +kernel
  have hserial : le ackOfFive 8 8 = repeatingTile.serial := by decide +kernel
  obtain ⟨t, hnext, -, hregs⟩ := hack repeatingTile ackOfFive repeatedDone hpwr hon htile hkind hserial (by decide +kernel)
    (by decide +kernel) rfl
  rw [exec_replyAckRx_repeatedDone hpwr hon htile hkind hserial (q := repeatedDone) (by decide +kernel) rfl (by decide +kernel),
    Host.Outcome.next.injEq] at hnext
  have hfreed : ((repeatingTile.onHost fun h => { h with replies := h.replies.filter fun r => r.seq != repeatedDone.seq }).freeRec
      repeatedDone.ctx (le repeatedDone.body 32 4)).f F.HOST_JOURNAL = 0 := by decide +kernel
  have hheld : repeatingTile.f F.HOST_JOURNAL = 1 := by decide +kernel
  rw [hnext, State.f_of_regs hregs, hheld] at hfreed
  exact absurd hfreed (by decide)

end Sys2Proof.Machine
end

section
/-! PROOFS. Frame memory (spec/13_frame_memory.md) with the thermal model and calibration (spec/15_thermal_and_calibration.md): what their
commands leave unchanged, and a scrub read of a granule that waits for its corrected write-back. -/
namespace Sys2Proof.Machine

/-! ### Frames of the memory, thermal and calibration commands -/

/-- Settles O51: each command of the chapters is within its list by the lemma of Laws/WithinMem.lean or WithinTherm.lean about its
meaning. -/
theorem memoryThermalFrames : Obligations.MemoryThermalFrames := by
  unfold Obligations.MemoryThermalFrames
  simp only [List.forall_mem_cons, List.not_mem_nil, false_implies, implies_true, and_true]
  refine ⟨fun err => ?_, fun granule ch => ⟨?_, ?_⟩, fun ch reqs => ?_, fun ch => ⟨?_, ?_, ?_, ?_⟩,
    fun div region mask elem unit up => ⟨?_, ?_, ?_, ?_⟩, fun power mv bad => ⟨?_, ?_⟩,
    fun kind temp region state unit fail => ⟨?_, ?_, ?_, ?_⟩, ?_, ?_⟩
  · exact changesOnly_of_within (fun _ => rfl) (execScrubRead_within err)
  · exact changesOnly_of_within (fun _ => rfl) (execCorrectedWriteback_within granule)
  · exact changesOnly_of_within (fun _ => rfl) (execRefreshDue_within ch)
  · exact changesOnly_of_within (fun _ => rfl) (execMemGrant_within ch reqs)
  · exact changesOnly_of_within (fun _ => rfl) (execMemTrackTimer_within ch)
  · exact changesOnly_of_within (fun _ => rfl) execMemClear_within
  · exact changesOnly_of_within (fun _ => rfl) execLogRearm_within
  · exact changesOnly_of_within (fun _ => rfl) execThermClear_within
  · exact changesOnly_of_within (fun _ => rfl) (execThrottleDivWrite_within div)
  · exact changesOnly_of_within (fun _ => rfl) (execThrottleTick_within region)
  · exact changesOnly_of_within (fun _ => rfl) (execCalRun_within mask)
  · exact changesOnly_of_within (fun _ => rfl) (execCalRampStep_within unit elem up)
  · exact changesOnly_of_within (fun _ => rfl) (execThermalModelUpdate_within power mv bad)
  · exact changesOnly_of_within (fun _ => rfl) execTripRestart_within
  · exact changesOnly_of_within (fun _ => rfl) (execSensorSample_within kind temp)
  · exact changesOnly_of_within (fun _ => rfl) execRateEval_within
  · exact changesOnly_of_within (fun _ => rfl) (execThresholdDwellExpire_within region state)
  · exact changesOnly_of_within (fun _ => rfl) (execCalUnitDone_within unit fail)
  · exact changesOnly_of_within (fun _ => rfl) execSensorFaultClear_within
  · exact changesOnly_of_within (fun _ => rfl) execWriteWindowOpen_within

/-! ### A scrub read of a granule that waits for its write-back (R431, R432, R435) -/

/-- A scrub read without an error of its own still meets the errors that memory holds in the granule, as class 7 (R431, R456). -/
theorem exec_scrubRead_none {s : State} (hon : s.on iMEM = true) (hen : s.b F.MEM_CTL_SCRUB_EN = true)
    (htrained : s.b F.MEM_STATUS_TRAINED = true) :
    exec (.scrubRead none) s = .next (s.memTouch s.scrubPos 64 7).scrubNext.judgeScrub := by
  show execScrubRead none s = _
  rw [execScrubRead, hon, hen, htrained, Bool.and_self, Bool.and_self, if_pos rfl]

/-- A tile of 8 GiB whose scrubber is about to read granule 0x1000, in which word 1 holds a correctable error that has not been written back. -/
def scrubbedTile : State :=
  ((((Tests.upTile.put F.MEM_CTL_SCRUB_EN 1).put F.MEM_STATUS_TRAINED 1).put F.MEM_CFG_CAPACITY 8).setScrubPos 0x1000).onMst fun m =>
    { m with back := [0x1008] }

/-- Refutes O35: its clause on a scrub read that brings no error has MEM_CE stay as it is, without the premise that the granule waits for no
corrected write-back. Until then memory still holds the error (R435), the read meets it, and MEM_CE counts it (R431): here from 0 to 1. -/
theorem not_memoryActs : ¬ Obligations.MemoryActs := by
  unfold Obligations.MemoryActs
  rintro ⟨hscrub, -⟩
  have hon : scrubbedTile.on iMEM = true := by decide +kernel
  have hen : scrubbedTile.b F.MEM_CTL_SCRUB_EN = true := by decide +kernel
  have htrained : scrubbedTile.b F.MEM_STATUS_TRAINED = true := by decide +kernel
  obtain ⟨t, hnext, -, -, hkept, -⟩ := hscrub scrubbedTile hon ⟨hen, htrained⟩ (by decide +kernel) (by decide +kernel)
  rw [exec_scrubRead_none hon hen htrained, Host.Outcome.next.injEq] at hnext
  have hcounted : (scrubbedTile.memTouch scrubbedTile.scrubPos 64 7).scrubNext.judgeScrub.f F.MEM_CE = 1 := by decide +kernel
  have hbefore : scrubbedTile.f F.MEM_CE = 0 := by decide +kernel
  rw [hnext, hkept, hbefore] at hcounted
  exact absurd hcounted (by decide)

end Sys2Proof.Machine
end

section
/-! PROOFS. The machine (spec/95_what_each_step_holds.md), and what the power, boot, self-test and pin commands leave unchanged: every
command answers a next state, every step keeps the canonical form, the state after reset has it, and each command of the chapters is within
its list of parts. -/
set_option Elab.async false
namespace Sys2Proof.Machine

/-! ### The machine -/

/-- Settles O58: the queue of commands is no part of the canonical form, and what a step then does keeps it. -/
theorem stepKeepsTheForm : Obligations.StepKeepsTheForm := by
  unfold Obligations.StepKeepsTheForm
  intro s t hwf hstep
  obtain ⟨_, _, -, hkeeps, -⟩ := step_within hstep
  exact hkeeps hwf

/-- Settles O57: every list of the state after reset is written out with its number. -/
theorem resetWellFormed : Obligations.ResetWellFormed := by
  unfold Obligations.ResetWellFormed
  have hshaped : State.reset.shaped := by decide +kernel
  exact ⟨⟨resetCells_wf, rfl⟩, hshaped, rfl, rfl⟩

/-- The meaning of each command is a next state. -/
theorem exec_next (c : Instr) (s : State) : ∃ t : State, exec c s = .next t := by
  cases c <;> exact ⟨_, rfl⟩

/-- Settles O56: a step is the front command, or the tick with none. -/
theorem everyCommandAnswers : Obligations.EveryCommandAnswers := by
  unfold Obligations.EveryCommandAnswers
  refine ⟨exec_next, fun s => ?_⟩
  rw [step]
  split
  · exact ⟨_, rfl⟩
  · exact exec_next _ _

/-- A command changes only the parts that a lemma about its meaning names, and those may be fewer than the statement lists. -/
theorem changesOnly_of_meaning {c : Instr} {ps qs : List Part} (hwithin : ∀ s, Within ps s (outcomeState (exec c s) s))
    (hsubset : Part.subset ps qs = true := by decide) : changesOnly c qs :=
  changesOnly_of_within (fun s => by
    obtain ⟨t, hnext⟩ := exec_next c s
    rw [hnext]
    rfl) fun s => (hwithin s).mono hsubset

/-! ### Frames of the power commands -/

/-- Settles O42: each command of the chapters is within its list by the lemma of Laws/WithinPower.lean, WithinOps.lean, WithinRegWrite.lean,
WithinTickets.lean or WithinFlocks.lean about its meaning. -/
theorem powerFrames : Obligations.PowerFrames := by
  unfold Obligations.PowerFrames
  simp only [List.forall_mem_cons, List.not_mem_nil, false_implies, implies_true, and_true]
  refine ⟨fun widthNs => ⟨?_, ?_⟩, fun straps => ?_, fun mv => ⟨?_, ?_⟩, fun mv => ⟨?_, ?_⟩, fun rail mv0 mv1 => ⟨?_, ?_, ?_⟩,
    fun ctx mask => ⟨?_, ?_, ?_, ?_⟩, fun isl => ⟨?_, ?_⟩, fun isl line => ⟨?_, ?_, ?_, ?_⟩, fun isl line => ?_, fun isl line => ?_,
    fun fn => ⟨?_, ?_, ?_⟩, fun ctx addr value whole => ⟨?_, ?_, ?_, ?_⟩, fun ctx value => ⟨?_, ?_⟩, fun ctx value => ?_,
    fun ctx addr => ⟨?_, ?_, ?_⟩, ?_, ?_, ?_⟩
  · exact changesOnly_of_meaning execPorNAssert_within
  · exact changesOnly_of_meaning (execResetNAssert_within widthNs)
  · exact changesOnly_of_meaning (execPorNRise_within straps)
  · exact changesOnly_of_meaning (execPowerStep_within mv)
  · exact changesOnly_of_meaning execBrownoutRestart_within
  · exact changesOnly_of_meaning (execPowerGood_within mv)
  · exact changesOnly_of_meaning execResetNRelease_within
  · exact changesOnly_of_meaning execRailEnableTimeout_within
  · exact changesOnly_of_meaning (execBrownout_within rail mv0 mv1)
  · exact changesOnly_of_meaning execRstCtlAction_within
  · exact changesOnly_of_meaning (execRstWarm_within ctx)
  · exact changesOnly_of_meaning (execRstPowerOff_within ctx)
  · exact changesOnly_of_meaning (execRstIsland_within ctx mask)
  · exact changesOnly_of_meaning (execRstFold_within ctx mask)
  · exact changesOnly_of_meaning (execIslandResetRelease_within isl)
  · exact changesOnly_of_meaning (execIslandClockStable_within isl)
  · exact changesOnly_of_meaning (execIslandClockLost_within isl)
  · exact changesOnly_of_meaning execRefclkLoss_within
  · exact changesOnly_of_meaning (execXingStuck_within isl line)
  · exact changesOnly_of_meaning execPcieReset_within
  · exact changesOnly_of_meaning (execXingEvent_within isl line)
  · exact changesOnly_of_meaning (execXingAck_within isl line)
  · exact changesOnly_of_meaning (execPcieFlr_within fn)
  · exact changesOnly_of_meaning (execPcieFlrDone_within fn)
  · exact changesOnly_of_meaning execPcieLinkUp_within
  · exact changesOnly_of_meaning (execRwpWriteOpen_within ctx addr value)
  · exact changesOnly_of_meaning (execRwpComplete_within ctx addr value)
  · exact changesOnly_of_meaning (execRegisterWrite_within ctx addr value)
  · exact changesOnly_of_meaning (execBar0Write_within ctx addr value whole)
  · exact changesOnly_of_meaning (execRwpWindowExpire_within ctx)
  · exact changesOnly_of_meaning (execSqTailWrite_within ctx value)
  · exact changesOnly_of_meaning (execCqHeadWrite_within ctx value)
  · exact changesOnly_of_meaning (execRcRegisterRead_within ctx addr)
  · exact changesOnly_of_meaning (execLoHalfRead_within ctx addr)
  · exact changesOnly_of_meaning (execPrbsCounterLoRead_within ctx addr)
  · exact changesOnly_of_meaning execFlockClear_within
  · exact changesOnly_of_meaning execStaleClr_within
  · exact changesOnly_of_meaning execXingClear_within

/-! ### Frames of the boot, security, self-test and pin commands -/

/-- Settles O52: each command of the chapters is within its list by the lemma of Laws/WithinBoot.lean or WithinBist.lean about its
meaning. -/
theorem bootTestFrames : Obligations.BootTestFrames := by
  unfold Obligations.BootTestFrames
  simp only [List.forall_mem_cons, List.not_mem_nil, false_implies, implies_true, and_true]
  refine ⟨fun flashOk clearOk failing => ?_, fun failed mismatch journalOk => ?_, fun ok => ⟨?_, ?_⟩,
    fun ctx version => ⟨?_, ?_, ?_, ?_, ?_⟩, fun ctx slots => ?_, fun flock kind => ⟨?_, ?_, ?_, ?_⟩, ?_, fun ctx target => ?_,
    fun clearOk => ⟨?_, ?_⟩, fun clearOk => ⟨?_, ?_⟩, ?_, ?_, fun misr clearOk failure => ⟨?_, ?_⟩, ⟨?_, ?_⟩, ?_,
    fun addr payload => ?_, fun pin value => ?_⟩
  · exact changesOnly_of_meaning (execBootRomStart_within flashOk clearOk failing)
  · exact changesOnly_of_meaning (execMemoryTrainingDone_within failed mismatch journalOk)
  · exact changesOnly_of_meaning execWriteDeferExpire_within
  · exact changesOnly_of_meaning (execFlashUnitDone_within ok)
  · exact changesOnly_of_meaning (execBeginDl_within ctx)
  · exact changesOnly_of_meaning (execCancelDl_within ctx)
  · exact changesOnly_of_meaning (execCalBegin_within ctx)
  · exact changesOnly_of_meaning (execCalCancel_within ctx)
  · exact changesOnly_of_meaning (execBootConfirm_within ctx version)
  · exact changesOnly_of_meaning (execSecRevoke_within ctx slots)
  · exact changesOnly_of_meaning (execActivatePrepare_within flock)
  · exact changesOnly_of_meaning execConfirmWindowExpire_within
  · exact changesOnly_of_meaning (execAttestGo_within kind)
  · exact changesOnly_of_meaning execAttestDone_within
  · exact changesOnly_of_meaning execActivationReset_within
  · exact changesOnly_of_meaning (execLcTransition_within ctx target)
  · exact changesOnly_of_meaning (execLbGo_within clearOk)
  · exact changesOnly_of_meaning (execMbGo_within clearOk)
  · exact changesOnly_of_meaning execBistAbort_within
  · exact changesOnly_of_meaning (execJtagScanEntry_within clearOk)
  · exact changesOnly_of_meaning execBistClear_within
  · exact changesOnly_of_meaning execBistPrecondSample_within
  · exact changesOnly_of_meaning (execLbistPartitionDone_within misr clearOk)
  · exact changesOnly_of_meaning (execMbistInstanceDone_within failure clearOk)
  · exact changesOnly_of_meaning execOnlineBistWindow_within
  · exact changesOnly_of_meaning execOnlineBistGapStart_within
  · exact changesOnly_of_meaning execHealthReportTimer_within
  · exact changesOnly_of_meaning (execHealth_within addr payload)
  · exact changesOnly_of_meaning (execGpioCfgWrite_within pin value)

end Sys2Proof.Machine
end

section
/-! PROOFS. Three statements that a case of the rules excludes: a rate condition in the hold of a thermal trip, a flash unit that had been
deferred, and the tick in which a time chain lapses. -/
set_option Elab.async false
namespace Sys2Proof.Machine

/-! ### Rate conditions in the hold of a trip (R483, R489) -/

/-- A tile in the hold of a thermal trip; region 0 has risen by one degree over the last 50 ms. -/
def heldTile : State := Tests.upTile.onTherm fun t => { t with
  hold := true, recent := modAt t.recent 0 fun _ => [2 ^ 38], marks := modAt t.marks 0 fun _ => List.replicate 50 0 }

/-- Refutes O36: its clause on a rate of more than 8 °C/s has RATE_THROTTLE entered without the premise that no trip holds the node. In the
hold nothing follows the rate conditions (R489): region 0 rises at 20 °C/s here and does not throttle. -/
theorem not_thermalModelActs : ¬ Obligations.ThermalModelActs := by
  unfold Obligations.ThermalModelActs
  rintro ⟨-, -, -, -, -, -, -, hrate, -⟩
  obtain ⟨t, hnext, hthrottles, -⟩ := hrate heldTile 0 0 (by decide +kernel) (by decide) (by decide +kernel) (by decide +kernel)
    (by decide +kernel)
  have hstays : ((outcomeState (exec .rateEval heldTile) heldTile).region 0).rateThrottle = false := by decide +kernel
  rw [hnext, outcomeState, hthrottles] at hstays
  exact absurd hstays (by decide)

/-! ### The instant of a deferral (R491) -/

/-- A run of a page program and an erase that was deferred when it was asked for. -/
def deferredJob : Job := { kind := .otp, units := [.program 0 [0], .erase 0], asked := some 0 }

/-- A tile whose flash programs the first unit of `deferredJob`. -/
def programmingTile : State := Tests.upTile.onBoot fun b => { b with unitOn := true, jobs := [deferredJob] }

/-- Refutes O37: its clauses on a unit with others after it have the job keep the instant of its deferral. Each unit waits for the write
window by itself (R491), so what is left of the job starts without that instant. -/
theorem not_writesAndCalibrationAct : ¬ Obligations.WritesAndCalibrationAct := by
  unfold Obligations.WritesAndCalibrationAct
  rintro ⟨-, -, hprogram, -⟩
  obtain ⟨t, hnext, -, hjobs⟩ := hprogram programmingTile deferredJob 0 [0] [.erase 0] [] rfl rfl rfl (List.cons_ne_nil _ _)
  have hleft : (outcomeState (exec (.flashUnitDone true) programmingTile) programmingTile).boot.jobs.map Job.asked = [none] := by
    decide +kernel
  rw [hnext, outcomeState, hjobs] at hleft
  exact absurd hleft (by decide)

/-! ### A chain that lapses in a tick (R168, R172, R420) -/

/-- A tile that follows the chain of port 0, from which no time cell has come for 1 ms. Context 0 is bound to the ring tunnel and hears of
its TIME cause. -/
def lapsingTile : State :=
  (((Tests.upTile.put F.CTXn_BIND_TRANSPORT 3).flag F.CTXn_IRQ_MASK_TIME).put F.TIME_STATUS_STATE tsLocked).onTime fun t => { t with
    needStep := false, aon := 1000000, pd := modAt t.pd 0 fun p => { p with valid := true } }

/-- Refutes O55: its clause on the tick has the hosts' part stay as it is. A chain from which no time cell comes lapses as time passes
(R168), and the node that loses its last one enters HOLDOVER (R172); the interrupt of that event reaches a context of the ring tunnel
as a REPLY, which the node keeps until its acknowledgement (R417, R420). -/
theorem not_stepRunsTheFrontCommand : ¬ Obligations.StepRunsTheFrontCommand := by
  unfold Obligations.StepRunsTheFrontCommand
  rintro ⟨-, htick⟩
  obtain ⟨t, hstep, -, hkept, -⟩ := htick lapsingTile rfl
  have hhost : t.host = lapsingTile.host := hkept .host (by decide)
  have hidle : step lapsingTile = .next lapsingTile.idle := rfl
  have hreplies : lapsingTile.idle.host.replies.length = 1 := by decide +kernel
  rw [hidle, Host.Outcome.next.injEq] at hstep
  rw [hstep, hhost] at hreplies
  exact absurd hreplies (by decide)

end Sys2Proof.Machine
end

section
/-! PROOFS. The life cycle, revocation and attestation (spec/16_boot_and_update.md R519 to R525, R547), with what loops over registers, the
queue of flash and OTP units and the faults of a context leave. -/
set_option Elab.async false
namespace Sys2Proof.Machine

/-! ### Loops over registers -/

/-- What no step of a loop over the elements of a list changes, the loop does not change. -/
theorem State.each_keeps_mem {α β : Type} (q : State → β) (l : List α) (f : State → α → State) (s : State)
    (h : ∀ x, ∀ a ∈ l, q (f x a) = q x) : q (s.each l f) = q s := by
  induction l generalizing s with
  | nil => rfl
  | cons a l ih =>
    exact (ih (f s a) fun x b hb => h x b (List.mem_cons_of_mem a hb)).trans (h s a List.mem_cons_self)

/-- A loop goes through the numbers in order, the last one last. -/
theorem State.each_range_succ (s : State) (n : Nat) (f : State → Nat → State) :
    s.each (List.range (n + 1)) f = f (s.each (List.range n) f) n := by
  rw [State.each, State.each, List.range_succ, List.foldl_append, List.foldl_cons, List.foldl_nil]

/-- A loop that fills the registers of an array leaves in each the value for it. -/
theorem State.f_each_put (s : State) {f : Fld} (hstride : f.s2 ≠ 0) (hw : f.lo + f.w ≤ 32) (v : Nat → Nat) {n j : Nat} (hj : j < n) :
    (s.each (List.range n) fun t k => t.put f (v k) 0 k).f f 0 j = v j % 2 ^ f.w := by
  induction n with
  | zero => exact absurd hj (Nat.not_lt_zero j)
  | succ n ih =>
    rw [State.each_range_succ]
    rcases Nat.lt_succ_iff_lt_or_eq.mp hj with hlt | rfl
    · have hne : f.addr 0 j ≠ f.addr 0 n := by
        have hpos : f.s2 * j ≠ f.s2 * n := fun h => hlt.ne (Nat.eq_of_mul_eq_mul_left (Nat.pos_of_ne_zero hstride) h)
        simp only [Fld.addr, Nat.mul_comm _ f.s2]
        omega
      rw [State.f_put_ne _ _ _ _ _ _ _ _ hne, ih hlt]
    · rw [State.f_put _ _ _ _ _ hw]

/-- The number that `n` bytes spell has `n` bytes. -/
theorem ofLE_lt (b : Bytes) : ofLE b < 256 ^ b.length := by
  induction b with
  | nil => decide
  | cons x b ih =>
    have hx : x.toNat < 256 := x.isLt
    rw [ofLE, List.length_cons, pow_succ]
    omega

/-- Four bytes fit a register. -/
theorem le_four_lt (b : Bytes) (off : Nat) : le b off 4 < 2 ^ 32 := by
  have hpow := (ofLE_lt ((b.drop off).take 4)).trans_le (Nat.pow_le_pow_right (by decide) (List.length_take_le 4 _))
  norm_num at hpow ⊢
  exact hpow

/-! ### Faults of a context (R424, R425) -/

/-- A pair that its context may not complete sets RWP in its CTXn_FAULT. -/
theorem State.ctxFault_rwp (s : State) (c : Nat) : (s.ctxFault F.CTXn_FAULT_RWP c).b F.CTXn_FAULT_RWP c = true := by
  have hreg : (s.ctxFault F.CTXn_FAULT_RWP c).reg (F.CTXn_FAULT_RWP.addr c 0) = (s.flag F.CTXn_FAULT_RWP true c).reg (F.CTXn_FAULT_RWP.addr c 0) :=
    State.irq_reg _ _ _ (by simp only [Fld.addr, F.CTXn_FAULT_RWP, F.CTXn_IRQ_CAUSE_FAULT]; omega)
  rw [State.b, State.f_congr hreg]
  exact State.b_flag _ _ _ _ _ (by decide) rfl

/-! ### The queue of flash and OTP units (R491) -/

/-- The start of the first unit changes no job, and nothing of the boot beside the mark of the unit and the instant of its deferral. -/
theorem State.startUnit_boot (s : State) : ∃ on at_, s.startUnit.boot = { s.boot with unitOn := on, deferredAt := at_ } := by
  unfold State.startUnit
  split
  · exact ⟨_, _, rfl⟩
  · split
    · exact ⟨_, _, rfl⟩
    · split
      · exact ⟨_, _, rfl⟩
      · split <;> exact ⟨_, _, rfl⟩

@[simp] theorem State.startUnit_jobs (s : State) : s.startUnit.boot.jobs = s.boot.jobs := by
  obtain ⟨_, _, h⟩ := s.startUnit_boot
  rw [h]

@[simp] theorem State.startUnit_otp (s : State) : s.startUnit.boot.otp = s.boot.otp := by
  obtain ⟨_, _, h⟩ := s.startUnit_boot
  rw [h]

@[simp] theorem State.startUnit_reg (s : State) (a : Nat) : s.startUnit.reg a = s.reg a := by
  rw [State.reg, (State.startUnit_within s).same_regs, State.reg]

/-- A run of units that is asked for comes last in the queue. -/
theorem State.addJob_jobs (s : State) (j : Job) : (s.addJob j).boot.jobs = s.boot.jobs ++ [{ j with asked := s.askedAt }] := by
  rw [State.addJob, State.startUnit_jobs, State.onBoot_boot]

@[simp] theorem State.addJob_reg (s : State) (j : Job) (a : Nat) : (s.addJob j).reg a = s.reg a := State.startUnit_reg _ a

/-- The instant of a request depends on the write window and the AON clock alone. -/
theorem State.askedAt_congr {s t : State} (hwindow : s.reg (F.THERM_STATUS_WINDOW_OPEN.addr 0 0) = t.reg (F.THERM_STATUS_WINDOW_OPEN.addr 0 0))
    (htime : s.time = t.time) : s.askedAt = t.askedAt := by
  rw [State.askedAt, State.b, State.f_congr hwindow, htime, State.askedAt, State.b]

/-! ### Life cycle (R519, R520, R547) -/

/-- A new challenge changes the eight challenge registers alone. -/
theorem State.newChallenge_reg (s : State) {a : Nat} (h : a < 0x7e0320 ∨ 0x7e0340 ≤ a) : s.newChallenge.reg a = s.reg a := by
  refine State.each_keeps_mem (fun t : State => t.reg a) _ _ s fun x k hk => ?_
  have hlt : k < 8 := List.mem_range.mp hk
  rw [State.tickFresh_reg]
  exact State.reg_put_ne _ _ _ _ _ _ (by simp only [Fld.addr, F.LC_CHALLENGEk]; omega)

@[simp] theorem State.newChallenge_boot (s : State) : s.newChallenge.boot = s.boot := (State.newChallenge_within s).same_boot
@[simp] theorem State.newChallenge_time (s : State) : s.newChallenge.time = s.time := (State.newChallenge_within s).same_time

/-- The code of an attempt of a transition (R519): 0 when it is allowed. -/
def State.lcResult (s : State) (target : Nat) : Nat :=
  if !(decide (1 ≤ s.boot.otp.lc) && decide (s.boot.otp.lc < 5) && (target == s.boot.otp.lc + 1 || target == 5)) then 2
  else if target == 2 && !(s.boot.otp.serial.isSome && s.boot.otp.privateKeys) then 5
  else if target == 3 && !((List.range 4).any fun k => bitOf (s.f F.SEC_KEYS_PROGRAMMED) k && !(bitOf s.boot.otp.revoked k)) then 5
  else if target == 4 && !(s.b F.LC_STATE_TOKEN_OK) then 3
  else 0

/-- Each attempt makes a new challenge; then it records its code, or asks for its burn. -/
theorem State.lcTransition_eq (s : State) (target : Nat) : s.lcTransition target =
    let t := if target == 4 && s.lcResult target == 0 then s.newChallenge.flag F.LC_STATE_TOKEN_OK false else s.newChallenge
    if s.lcResult target != 0 then t.put F.LC_STATE_LAST_RESULT (s.lcResult target)
    else t.addJob { kind := .lc target, units := [.lifeCycle target] } := rfl

/-- An attempt that is not allowed records its code. -/
theorem State.lcTransition_refused {s : State} {target : Nat} (h : s.lcResult target ≠ 0) :
    s.lcTransition target = s.newChallenge.put F.LC_STATE_LAST_RESULT (s.lcResult target) := by
  simp [State.lcTransition_eq, h]

/-- An allowed transition to a state other than RMA asks for its burn. -/
theorem State.lcTransition_taken {s : State} {target : Nat} (h : s.lcResult target = 0) (hrma : target ≠ 4) :
    s.lcTransition target = s.newChallenge.addJob { kind := .lc target, units := [.lifeCycle target] } := by
  simp [State.lcTransition_eq, h, hrma]

theorem exec_lcTransition {s : State} (target : Nat) (hup : s.pwr.up = true) :
    exec (.lcTransition 0 target) s = .next ((s.put F.LC_TRANSITION target).lcTransition (target % 8)) := by
  show execLcTransition 0 target s = _
  rw [execLcTransition, hup]
  rfl

/-- A burn that a life-cycle transition asks for. -/
theorem lcTransition_asks {s : State} {target : Nat} (hup : s.pwr.up = true) (hlt : target < 8) (hrma : target ≠ 4)
    (hresult : (s.put F.LC_TRANSITION target).lcResult target = 0) : yields (.lcTransition 0 target) s fun t =>
    t.boot.jobs = s.boot.jobs ++ [(⟨.lc target, [.lifeCycle target], none, 0, s.askedAt⟩ : Job)] := by
  refine ⟨_, exec_lcTransition target hup, ?_⟩
  have hasked : (s.put F.LC_TRANSITION target).newChallenge.askedAt = s.askedAt :=
    State.askedAt_congr ((State.newChallenge_reg _ (by decide)).trans (State.reg_put_ne _ _ _ _ _ _ (by decide)))
      (State.newChallenge_time _)
  dsimp only
  rw [Nat.mod_eq_of_lt hlt, State.lcTransition_taken hresult hrma, State.addJob_jobs, hasked, State.newChallenge_boot, State.put_boot]

/-- A transition that the order of the life cycle excludes is recorded as such, and burns nothing. -/
theorem lcTransition_refuses {s : State} {target : Nat} (hup : s.pwr.up = true) (hlt : target < 8)
    (horder : s.boot.otp.lc = 0 ∨ s.boot.otp.lc = 5 ∨ (target ≠ s.boot.otp.lc + 1 ∧ target ≠ 5)) :
    yields (.lcTransition 0 target) s fun t => t.f F.LC_STATE_LAST_RESULT = 2 ∧ t.boot.jobs = s.boot.jobs ∧ t.boot.otp = s.boot.otp := by
  refine ⟨_, exec_lcTransition target hup, ?_⟩
  have hexcluded : (!(decide (1 ≤ s.boot.otp.lc) && decide (s.boot.otp.lc < 5) && (target == s.boot.otp.lc + 1 || target == 5))) = true := by
    simp only [Bool.not_eq_true', Bool.and_eq_false_iff, Bool.or_eq_false_iff, decide_eq_false_iff_not, beq_eq_false_iff_ne]
    omega
  have hresult : (s.put F.LC_TRANSITION target).lcResult target = 2 := if_pos hexcluded
  rw [Nat.mod_eq_of_lt hlt, State.lcTransition_refused (by rw [hresult]; decide), hresult]
  exact ⟨State.f_put _ _ _ _ _ (by decide), by rw [State.put_boot, State.newChallenge_boot, State.put_boot],
    by rw [State.put_boot, State.newChallenge_boot, State.put_boot]⟩

theorem exec_lcTransition_otherContext {s : State} {ctx : Fin 8} (target : Nat) (hup : s.pwr.up = true) (hctx : ctx ≠ 0) :
    exec (.lcTransition ctx target) s = .next (s.ctxFault F.CTXn_FAULT_RWP ctx) := by
  have hne : (ctx.val != 0) = true := bne_iff_ne.mpr fun h => hctx (Fin.ext h)
  show execLcTransition ctx target s = _
  rw [execLcTransition, hup, hne]
  rfl

/-! ### Revocation (R522) -/

/-- A signing key stays usable after a revocation of the slots `m`. -/
def State.keyLeft (s : State) (m : Nat) : Bool :=
  (List.range 4).any fun k => (nth s.boot.otp.hashes k none).isSome && !(bitOf (Nat.lor s.boot.otp.revoked m) k)

theorem bitOf_lor (a b k : Nat) : bitOf (Nat.lor a b) k = (a.testBit k || b.testBit k) := by
  rw [bitOf_eq_testBit]
  exact Nat.testBit_or a b k

theorem State.keyLeft_iff (s : State) (m : Nat) : s.keyLeft m = true ↔ ∃ k ∈ List.range 4,
    (nth s.boot.otp.hashes k none).isSome = true ∧ m.testBit k = false ∧ s.boot.otp.revoked.testBit k = false := by
  simp only [State.keyLeft, bitOf_lor, List.any_eq_true, Bool.and_eq_true, Bool.not_eq_true', Bool.or_eq_false_iff]
  exact ⟨fun ⟨k, hk, hsome, hrevoked, hm⟩ => ⟨k, hk, hsome, hm, hrevoked⟩, fun ⟨k, hk, hsome, hm, hrevoked⟩ => ⟨k, hk, hsome, hrevoked, hm⟩⟩

theorem exec_secRevoke {s : State} (slots : Nat) (hup : s.pwr.up = true) :
    exec (.secRevoke 0 slots) s = .next ((s.put F.SEC_REVOKE slots).secRevoke slots) := by
  show execSecRevoke 0 slots s = _
  rw [execSecRevoke, hup]
  rfl

/-- A revocation that leaves a key is burned. -/
theorem secRevoke_burns {s : State} {slots : Nat} (hup : s.pwr.up = true) (hlc : s.boot.otp.lc = 2 ∨ s.boot.otp.lc = 3)
    (hleft : s.keyLeft slots = true) : yields (.secRevoke 0 slots) s fun t =>
    t.boot.jobs = s.boot.jobs ++ [(⟨.revoke, [.revoke (slots % 16)], none, 0, s.askedAt⟩ : Job)] := by
  refine ⟨_, exec_secRevoke slots hup, ?_⟩
  have hallowed : ((s.put F.SEC_REVOKE slots).keyLeft slots && (s.boot.otp.lc == 2 || s.boot.otp.lc == 3)) = true := by
    rw [Bool.and_eq_true, Bool.or_eq_true, beq_iff_eq, beq_iff_eq]
    exact ⟨hleft, hlc⟩
  have htaken : (s.put F.SEC_REVOKE slots).secRevoke slots =
      (s.put F.SEC_REVOKE slots).addJob { kind := .revoke, units := [.revoke (slots % 16)] } := if_pos hallowed
  have hasked : (s.put F.SEC_REVOKE slots).askedAt = s.askedAt :=
    State.askedAt_congr (State.reg_put_ne _ _ _ _ _ _ (by decide)) rfl
  dsimp only
  rw [htaken, State.addJob_jobs, hasked, State.put_boot]

/-- A revocation that would leave no key is refused. -/
theorem secRevoke_refuses {s : State} {slots : Nat} (hup : s.pwr.up = true) (hnone : s.keyLeft slots = false) :
    yields (.secRevoke 0 slots) s fun t => t.b F.SEC_KEYS_REVOKE_REFUSED = true ∧ t.boot = s.boot := by
  refine ⟨_, exec_secRevoke slots hup, ?_⟩
  have hrefused : ¬((s.put F.SEC_REVOKE slots).keyLeft slots && (s.boot.otp.lc == 2 || s.boot.otp.lc == 3)) = true := by
    rw [show (s.put F.SEC_REVOKE slots).keyLeft slots = false from hnone, Bool.false_and]
    exact Bool.false_ne_true
  have hflagged : (s.put F.SEC_REVOKE slots).secRevoke slots = (s.put F.SEC_REVOKE slots).flag F.SEC_KEYS_REVOKE_REFUSED := if_neg hrefused
  rw [hflagged]
  exact ⟨State.b_flag _ _ _ _ _ (by decide) rfl, by rw [State.flag_boot, State.put_boot]⟩

/-! ### Attestation (R525) -/

/-- The answer of an attestation: the statement with its signature, or a public key. -/
def State.attestAnswer (s : State) (k : Nat) : Bytes :=
  if k == 0 then s.statement ++ Config.ecdsaSign (Config.sha384 s.statement) else Config.publicKey k

/-- The end of an attestation in its control register leaves the buffer. -/
theorem State.attestEnd_buf (s : State) (j : Nat) : (((s.flag F.SEC_ATTEST_CTL_BUSY false).flag F.SEC_ATTEST_CTL_DONE).onBoot fun b =>
    { b with attest := none }).f F.SEC_ATTEST_BUFk 0 j = s.f F.SEC_ATTEST_BUFk 0 j := by
  have hctl : F.SEC_ATTEST_BUFk.addr 0 j ≠ 0x7e0120 := by
    simp only [Fld.addr, F.SEC_ATTEST_BUFk]
    omega
  exact (State.f_flag_other _ true (by decide) (.inl hctl)).trans (State.f_flag_other _ false (by decide) (.inl hctl))

/-- An attestation ends with its answer in the buffer. -/
theorem attestDone_fills {s : State} {k n : Nat} (hattest : s.boot.attest = some k) (hn : (if k == 0 then 56 else 24) = n) :
    yields .attestDone s fun t => t.b F.SEC_ATTEST_CTL_BUSY = false ∧ t.b F.SEC_ATTEST_CTL_DONE = true ∧ t.boot.attest = none ∧
      ∀ j ∈ List.range n, t.f F.SEC_ATTEST_BUFk 0 j = le (s.attestAnswer k) (4 * j) 4 := by
  subst hn
  have hexec : exec .attestDone s = .next ((((s.each (List.range (if k == 0 then 56 else 24)) fun t j =>
      t.put F.SEC_ATTEST_BUFk (le (s.attestAnswer k) (4 * j) 4) 0 j).flag F.SEC_ATTEST_CTL_BUSY false).flag F.SEC_ATTEST_CTL_DONE).onBoot
        fun b => { b with attest := none }) := by
    show execAttestDone s = _
    rw [execAttestDone, hattest]
    rfl
  refine ⟨_, hexec, ?_, ?_, rfl, fun j hj => ?_⟩
  · refine Eq.trans (State.b_flag_other _ true (by decide) (.inr (.inr (by decide)))) (State.b_flag _ _ _ _ _ (by decide) rfl)
  · exact State.b_flag _ F.SEC_ATTEST_CTL_DONE true 0 0 (by decide) rfl
  · exact (State.attestEnd_buf _ j).trans ((State.f_each_put (f := F.SEC_ATTEST_BUFk) s (by decide) (by decide)
      (fun j => le (s.attestAnswer k) (4 * j) 4) (List.mem_range.mp hj)).trans (Nat.mod_eq_of_lt (le_four_lt _ _)))

/-- An attestation that is asked for of a running image is BUSY until its answer. -/
theorem attestGo_starts {s : State} {kind : Fin 4} (hkind : kind ≠ 3) (hrunning : s.boot.running = true) :
    yields (.attestGo kind) s fun t =>
      t.b F.SEC_ATTEST_CTL_BUSY = true ∧ t.b F.SEC_ATTEST_CTL_DONE = false ∧ t.boot.attest = some kind.val := by
  have hnot : ¬(kind.val == 3 || !s.boot.running) = true := by
    have hne : kind.val ≠ 3 := fun h => hkind (Fin.ext h)
    simp [hrunning, hne]
  have hexec : exec (.attestGo kind) s = .next (((s.flag F.SEC_ATTEST_CTL_BUSY).flag F.SEC_ATTEST_CTL_DONE false).onBoot fun b =>
      { b with attest := some kind.val }) := congrArg Host.Outcome.next (if_neg hnot)
  refine ⟨_, hexec, ?_, ?_, rfl⟩
  · exact (State.b_flag_other _ false (by decide) (.inr (.inr (by decide)))).trans (State.b_flag _ _ _ _ _ (by decide) rfl)
  · exact State.b_flag _ F.SEC_ATTEST_CTL_DONE false 0 0 (by decide) rfl

/-! ### The statement -/

/-- Settles O39: a transition burns or records why not, a revocation burns unless it would leave no key, a pair of another context is a
fault, and an attestation is BUSY until its answer fills the buffer. -/
theorem securityActs : Obligations.SecurityActs := by
  unfold Obligations.SecurityActs
  refine ⟨?_, ?_, ?_, ?_, ?_, ?_, ?_, ?_, ?_⟩
  · rintro s _ hup ⟨hlc, rfl⟩ ⟨hserial, hkeys⟩
    refine lcTransition_asks hup (by decide) (by decide) ?_
    simp [State.lcResult, hlc, hserial, hkeys]
  · rintro s _ hup ⟨hlow, hhigh, rfl⟩
    refine lcTransition_asks hup (by decide) (by decide) ?_
    simp [State.lcResult, hlow, hhigh]
  · exact fun s target hup hlt horder => lcTransition_refuses hup hlt horder
  · exact fun s ctx target hup hctx => ⟨_, exec_lcTransition_otherContext target hup hctx, s.ctxFault_rwp ctx,
      (State.ctxFault_within ..).same_boot⟩
  · exact fun s slots hup hlc hleft => secRevoke_burns hup hlc ((s.keyLeft_iff slots).mpr hleft)
  · intro s slots hup hnone
    refine secRevoke_refuses hup (Bool.eq_false_iff.mpr fun hleft => ?_)
    obtain ⟨k, hk, hsome, hm, hrevoked⟩ := (s.keyLeft_iff slots).mp hleft
    rcases hnone k hk hsome with h | h
    · exact absurd h (by rw [hm]; decide)
    · exact absurd h (by rw [hrevoked]; decide)
  · exact fun s kind hkind hrunning => attestGo_starts hkind hrunning
  · exact fun s hattest => attestDone_fills hattest rfl
  · intro s k hattest hk
    obtain ⟨t, hnext, -, hdone, hended, hfilled⟩ := attestDone_fills (n := 24) hattest (if_neg (by simpa using hk))
    have hanswer : s.attestAnswer k = Config.publicKey k := if_neg (by simpa using hk)
    exact ⟨t, hnext, hdone, hended, fun j hj => by rw [hfilled j hj, hanswer]⟩

end Sys2Proof.Machine
end

section
/-! PROOFS. The health report and the GPIO pins (spec/17_self_test.md R564, R565; spec/19_package_and_balls.md R600; R472, R631). -/
set_option Elab.async false
namespace Sys2Proof.Machine

/-! ### The node's own report (R564) -/

/-- The report in the registers, counted, before it is sent. -/
def State.healthShown (s : State) : State :=
  ((s.healthFrom.flag F.BIST_STATUS_SELF_TEST_FAULT (s.withinSec s.bist.lastFault)).each (List.range 16) fun t k =>
    t.put F.BIST_HEALTHk (le s.healthReport (4 * k) 4) 0 k).onBist fun x => { x with seq := (x.seq + 1) % 2 ^ 32 }

/-- The report and its complement, sent to the heads. -/
def State.healthSent (s : State) (m : Bytes) : State :=
  if !(s.on iLINK) then s
  else if s.isTile then s.tileSend 33 s.tileAddr m
  else if s.isHead then s.headSend 33 m
  else s

theorem State.healthSent_within (s : State) (m : Bytes) : Within [.out, .ring] s (s.healthSent m) := by
  unfold State.healthSent
  exact Within.ite (Within.refl _ _) (Within.ite (State.tileSend_within ..)
    (Within.ite (State.headSend_within ..) (Within.refl _ _)))

/-- At a send instant the report is shown, counted and sent. -/
theorem exec_healthReportTimer_due {s : State} (hrun : s.boot.running = true) (hup : s.pwr.up = true) (hdue : s.bist.slot ≠ some s.healthSlot) :
    exec .healthReportTimer s = .next (s.healthShown.healthSent (s.healthReport ++ complement s.healthReport)) := by
  show execHealthReportTimer s = _
  rw [execHealthReportTimer, hrun, hup, beq_false_of_ne hdue, if_neg (by decide)]
  rfl

/-- Between its instants nothing happens. -/
theorem exec_healthReportTimer_sent {s : State} (hsent : s.bist.slot = some s.healthSlot) : exec .healthReportTimer s = .next s := by
  show execHealthReportTimer s = _
  rw [execHealthReportTimer, hsent, beq_self_eq_true, Bool.or_true, if_pos rfl]

theorem State.healthShown_within (s : State) : Within [.regs, .bist] s s.healthShown := by
  refine Within.trans ?_ ((State.onBist_within ..).mono (by decide))
  refine Within.each _ _ (fun _ _ => (State.put_within ..).mono (by decide)) ?_
  exact Within.trans ((State.healthFrom_within _).mono (by decide)) ((State.flag_within ..).mono (by decide))

theorem State.healthShown_bist (s : State) :
    s.healthShown.bist = { s.bist with slot := some s.healthSlot, seq := (s.bist.seq + 1) % 2 ^ 32 } := by
  rw [State.healthShown, State.onBist_bist, State.each_keeps State.bist _ _ _ fun _ _ => State.put_bist .., State.flag_bist,
    State.healthFrom, State.onBist_bist]

theorem State.healthShown_health (s : State) {k : Nat} (hk : k < 16) :
    s.healthShown.f F.BIST_HEALTHk 0 k = le s.healthReport (4 * k) 4 := by
  rw [State.healthShown, State.onBist_f, State.f_each_put _ (by decide) (by decide) (fun k => le s.healthReport (4 * k) 4) hk]
  exact Nat.mod_eq_of_lt (le_four_lt _ _)

theorem State.healthShown_fault (s : State) : s.healthShown.b F.BIST_STATUS_SELF_TEST_FAULT = s.withinSec s.bist.lastFault := by
  rw [State.healthShown, State.b, State.onBist_f, ← State.b, State.each_keeps (fun t : State => t.b F.BIST_STATUS_SELF_TEST_FAULT)]
  · exact State.b_flag _ _ _ _ _ (by decide) rfl
  · exact fun t k => t.b_put_other _ (by decide) (.inl (by simp only [Fld.addr, F.BIST_STATUS_SELF_TEST_FAULT, F.BIST_HEALTHk]; omega))

theorem healthReportTimer_shows {s : State} (hrun : s.boot.running = true) (hup : s.pwr.up = true)
    (hdue : s.bist.slot ≠ some s.healthSlot) : yields .healthReportTimer s fun t =>
    (∀ k ∈ List.range 16, t.f F.BIST_HEALTHk 0 k = le s.healthReport (4 * k) 4) ∧ t.bist.seq = (s.bist.seq + 1) % 2 ^ 32 ∧
      t.b F.BIST_STATUS_SELF_TEST_FAULT = s.withinSec s.bist.lastFault ∧ t.bist.slot = some s.healthSlot := by
  refine ⟨_, exec_healthReportTimer_due hrun hup hdue, ?_⟩
  have hsent := s.healthShown.healthSent_within (s.healthReport ++ complement s.healthReport)
  refine ⟨fun k hk => ?_, ?_, ?_, ?_⟩
  · rw [State.f_of_regs hsent.same_regs, State.healthShown_health s (List.mem_range.mp hk)]
  · rw [hsent.same_bist, State.healthShown_bist]
  · rw [State.b_of_regs hsent.same_regs, State.healthShown_fault]
  · rw [hsent.same_bist, State.healthShown_bist]

/-! ### The reports that a head keeps (R565) -/

/-- The report of a node, kept as its latest. -/
def State.keepReport (s : State) (addr : Nat) (b : Bytes) : State :=
  s.onBist fun x => { x with reports := (addr, s.time.aon, b) :: x.reports.filter fun r => r.1 != addr }

/-- A report that is not sound changes nothing. -/
theorem State.rxHealth_unsound {s : State} {addr : Nat} {p : Bytes} (h : (p.drop 64).take 64 ≠ complement (p.take 64)) :
    s.rxHealth addr p = s := by
  rw [State.rxHealth, bne_iff_ne.mpr h, Bool.or_true, Bool.true_or, if_pos rfl]

/-- What a head does with a kept report beside keeping it (R133, R142, R565) leaves the reports. -/
theorem State.rxHealth_bist {s : State} {addr : Nat} {p : Bytes} (hhead : s.isHead = true)
    (hsound : (p.drop 64).take 64 = complement (p.take 64)) (hver : le (p.take 64) 0 1 = 1) :
    (s.rxHealth addr p).bist = (s.keepReport addr (p.take 64)).bist := by
  unfold State.rxHealth
  extract_lets b kept ser n
  have hkept : kept.bist = (s.keepReport addr (p.take 64)).bist := (State.tileSel_within _).same_bist
  clear_value kept
  rw [if_neg (by rw [hhead, hsound, hver]; simp [b])]
  split
  · exact hkept
  split
  · exact hkept
  · extract_lets more run back noted judged listed
    have hnoted : noted.bist = kept.bist := rfl
    have hjudged : judged.bist = noted.bist :=
      (Within.trans (ps := [.regs, .fresh, .out, .host, .ring]) (Within.ite (State.diverge_within ..) (Within.refl _ _))
        ((State.judgeRings_within _).mono (by decide))).same_bist
    have hlisted : listed.bist = judged.bist :=
      (Within.ite (ps := [.regs, .out, .ring]) (((State.reclassify_within _).mono (by decide)).trans
        ((State.sendWall_within _).mono (by decide))) (Within.refl _ _)).same_bist
    rw [(State.judgeStart_within _).same_bist, hlisted, hjudged, hnoted, hkept]

/-- A payload of 128 bytes is two halves. -/
theorem take_drop_of_length {p : Bytes} (h : p.length = 128) : (p.drop 64).take 64 = p.drop 64 :=
  List.take_of_length_le (by rw [List.length_drop, h])

/-- The version of a report is its first byte. -/
theorem le_take_zero_one (p : Bytes) : le (p.take 64) 0 1 = le p 0 1 := by
  rw [le, le, List.drop_zero, List.drop_zero, List.take_take, Nat.min_eq_left (by decide)]

/-- A sound report of a node is the latest of that node. -/
theorem health_keeps {s : State} {addr : Nat} {payload : Bytes} (hhead : s.isHead = true) (hlink : s.on iLINK = true)
    (hlen : payload.length = 128) (hsound : payload.drop 64 = complement (payload.take 64)) (hver : le payload 0 1 = 1) :
    yields (.health addr payload) s fun t =>
      t.bist.reports = (addr, s.time.aon, payload.take 64) :: s.bist.reports.filter fun r => r.1 != addr := by
  refine ⟨s.rxHealth addr payload, congrArg Host.Outcome.next (if_pos hlink), ?_⟩
  dsimp only
  rw [State.rxHealth_bist hhead ((take_drop_of_length hlen).trans hsound) ((le_take_zero_one _).trans hver)]
  rfl

theorem health_unsound {s : State} {addr : Nat} {payload : Bytes} (hlen : payload.length = 128)
    (h : payload.drop 64 ≠ complement (payload.take 64)) : yields (.health addr payload) s fun t => t = s := by
  have hsame : s.rxHealth addr payload = s := State.rxHealth_unsound (by rwa [take_drop_of_length hlen])
  refine ⟨s, ?_, rfl⟩
  show Host.Outcome.next (if s.on iLINK then s.rxHealth addr payload else s) = _
  rw [hsame, ite_self]

/-! ### A write of a pin's configuration (R600) -/

theorem exec_gpioCfgWrite {s : State} {pin : Fin 16} {value : Nat} (hup : s.pwr.up = true)
    (hcodes : resvBad (fieldsAt (F.GPIOk_CFG_FUNC.addr pin 0)) value = false) (htaken : s.alarmTaken pin value = false) :
    exec (.gpioCfgWrite pin value) s = .next (s.gpioCfg pin value) := by
  show execGpioCfgWrite pin value s = _
  rw [execGpioCfgWrite, hup, hcodes, htaken, Bool.not_true, Bool.or_self, if_neg Bool.false_ne_true, if_neg Bool.false_ne_true]

/-- A reserved code changes nothing (R631). -/
theorem exec_gpioCfgWrite_reserved {s : State} {pin : Fin 16} {value : Nat}
    (hcodes : resvBad (fieldsAt (F.GPIOk_CFG_FUNC.addr pin 0)) value = true) : exec (.gpioCfgWrite pin value) s = .next s := by
  show execGpioCfgWrite pin value s = _
  rw [execGpioCfgWrite, hcodes, Bool.or_true, if_pos rfl]

/-- The pulse that a pin stands in ends when its function is an alarm's output. -/
def State.endPulse (s : State) (k : Nat) : State :=
  if s.f F.GPIOk_CFG_FUNC k == 2 then s.onAlarm (s.f F.GPIOk_CFG_ALARM k) fun x => { x with pulseEnd := none } else s

theorem State.gpioCfg_eq (s : State) (k v : Nat) :
    s.gpioCfg k v = ((s.endPulse k).setReg (F.GPIOk_CFG_FUNC.addr k 0) (BitVec.ofNat 32 (v % 2 ^ 16))).drivePin k := rfl

theorem State.gpioCfg_reg (s : State) (k v : Nat) :
    (s.gpioCfg k v).reg (F.GPIOk_CFG_FUNC.addr k 0) = BitVec.ofNat 32 (v % 2 ^ 16) := by
  rw [State.gpioCfg_eq, State.reg, (State.drivePin_within ..).same_regs, ← State.reg, State.reg_setReg, if_pos rfl]

theorem State.gpioCfg_time (s : State) (k v : Nat) : (s.gpioCfg k v).time = (s.endPulse k).time :=
  (State.drivePin_within ..).same_time

theorem State.endPulse_alarm {s : State} {k : Nat} (hfunc : s.f F.GPIOk_CFG_FUNC k = 2) (halarms : s.time.alarms.length = 32) :
    ((s.endPulse k).alarm (s.f F.GPIOk_CFG_ALARM k)).pulseEnd = none := by
  have hlt : s.f F.GPIOk_CFG_ALARM k < s.time.alarms.length := halarms.symm ▸ Nat.mod_lt _ (by decide)
  rw [State.endPulse, hfunc, beq_self_eq_true, if_pos rfl, State.alarm, State.onAlarm, State.onTime_time, nth_modAt_same _ _ _ _ hlt]

/-- A field among the 16 bits of a pin's configuration reads what was written to it. -/
theorem State.gpioCfg_f (s : State) (k v : Nat) {g : Fld} (haddr : g.addr k 0 = F.GPIOk_CFG_FUNC.addr k 0) (hbits : g.lo + g.w ≤ 16) :
    (s.gpioCfg k v).f g k = bits v g.lo g.w := by
  have hv : v % 2 ^ 16 < 2 ^ 32 := (Nat.mod_lt _ (by decide)).trans (by decide)
  rw [State.f, haddr, State.gpioCfg_reg, BitVec.toNat_ofNat, Nat.mod_eq_of_lt hv, bits_mod _ _ _ _ hbits]

theorem gpioCfgWrite_sets {s : State} {pin : Fin 16} {value : Nat} (hup : s.pwr.up = true) (htaken : s.alarmTaken pin value = false)
    (hcodes : resvBad (fieldsAt (F.GPIOk_CFG_FUNC.addr pin 0)) value = false) : yields (.gpioCfgWrite pin value) s fun t =>
    t.reg (F.GPIOk_CFG_FUNC.addr pin 0) = BitVec.ofNat 32 (value % 2 ^ 16) ∧
      (s.f F.GPIOk_CFG_FUNC pin = 2 → s.time.alarms.length = 32 → (t.alarm (s.f F.GPIOk_CFG_ALARM pin)).pulseEnd = none) := by
  refine ⟨_, exec_gpioCfgWrite hup hcodes htaken, State.gpioCfg_reg .., fun hfunc halarms => ?_⟩
  rw [State.alarm, State.gpioCfg_time]
  exact State.endPulse_alarm hfunc halarms

/-! ### A second owner of an alarm (R472) -/

theorem State.logConflict_gpio (s : State) (o : Nat × Nat) (c : Nat) (byFlock : Bool) (k : Nat) :
    (s.logConflict o c byFlock).reg (F.GPIOk_CFG_FUNC.addr k 0) = s.reg (F.GPIOk_CFG_FUNC.addr k 0) := by
  have hbase : 0x7f0000 ≤ F.GPIOk_CFG_FUNC.addr k 0 := by simp only [Fld.addr, F.GPIOk_CFG_FUNC]; omega
  have hne {g : Fld} (hg : g.addr 0 0 < 0x7f0000) : F.GPIOk_CFG_FUNC.addr k 0 ≠ g.addr 0 0 := (hg.trans_le hbase).ne'
  rw [State.logConflict, State.flag, State.flag, State.inc, State.add]
  iterate 6 rw [State.reg_put_ne _ _ _ _ _ _ (hne (by decide))]

theorem State.logConflict_count (s : State) (o : Nat × Nat) (c : Nat) (byFlock : Bool) :
    (s.logConflict o c byFlock).f F.XING_CONFLICTS = min (s.f F.XING_CONFLICTS + 1) (2 ^ 32 - 1) := by
  rw [State.logConflict, State.f_flag_other _ _ (by decide) (.inl (by decide)), State.f_flag_other _ _ (by decide) (.inl (by decide))]
  iterate 3 rw [State.f_put_ne _ _ _ _ _ _ _ _ (by decide)]
  exact State.f_inc _ _ _ _ (by decide)

theorem State.logConflict_kind (s : State) (o : Nat × Nat) (c : Nat) (byFlock : Bool) :
    (s.logConflict o c byFlock).f F.XING_CONFLICT_INFO_KIND = o.1 % 2 ^ 3 := by
  rw [State.logConflict, State.f_flag_other _ _ (by decide) (.inr (by decide)), State.f_flag_other _ _ (by decide) (.inr (by decide)),
    State.f_put_other _ _ (by decide) (.inr (by decide)), State.f_put_other _ _ (by decide) (.inr (by decide)),
    State.f_put _ _ _ _ _ (by decide)]
  rfl

theorem State.logConflict_index (s : State) (o : Nat × Nat) (c : Nat) (byFlock : Bool) :
    (s.logConflict o c byFlock).f F.XING_CONFLICT_INFO_INDEX = o.2 % 2 ^ 5 := by
  rw [State.logConflict, State.f_flag_other _ _ (by decide) (.inr (by decide)), State.f_flag_other _ _ (by decide) (.inr (by decide)),
    State.f_put_other _ _ (by decide) (.inr (by decide)), State.f_put _ _ _ _ _ (by decide)]
  rfl

theorem gpioCfgWrite_conflicts {s : State} {pin : Fin 16} {value : Nat} (htaken : s.alarmTaken pin value = true) (hup : s.pwr.up = true)
    (hcodes : resvBad (fieldsAt (F.GPIOk_CFG_FUNC.addr pin 0)) value = false) : yields (.gpioCfgWrite pin value) s fun t =>
    t.reg (F.GPIOk_CFG_FUNC.addr pin 0) = s.reg (F.GPIOk_CFG_FUNC.addr pin 0) ∧ t.time = s.time ∧
      t.f F.XING_CONFLICTS = min (s.f F.XING_CONFLICTS + 1) (2 ^ 32 - 1) ∧ t.f F.XING_CONFLICT_INFO_KIND = 1 ∧
      t.f F.XING_CONFLICT_INFO_INDEX = bits value 4 5 ∧ t.b F.XING_CONFLICT_INFO_VALID = true :=
  ⟨_, exec_gpioCfgWrite_taken hup hcodes htaken, State.logConflict_gpio .., (State.logConflict_within ..).same_time,
    State.logConflict_count .., State.logConflict_kind .., (State.logConflict_index ..).trans (Nat.mod_mod _ _),
    State.b_flag _ _ _ _ _ (by decide) rfl⟩

/-- Settles O41. -/
theorem healthAndPinsAct : Obligations.HealthAndPinsAct := by
  refine ⟨fun s h => ?_, fun s _ hsent => ?_, fun s addr payload h hlen hsound hver => ?_, fun s addr payload hlen h => ?_,
    fun s pin value hup htaken hcodes => ?_, fun s pin value htaken hup hcodes => ?_, fun s pin value hcodes => ?_⟩
  · exact healthReportTimer_shows h.1 h.2
  · exact ⟨s, exec_healthReportTimer_sent hsent, rfl⟩
  · exact health_keeps h.1 h.2 hlen hsound hver
  · exact health_unsound hlen h
  · exact gpioCfgWrite_sets hup htaken hcodes
  · exact gpioCfgWrite_conflicts htaken hup hcodes
  · exact ⟨s, exec_gpioCfgWrite_reserved hcodes, rfl⟩

/-- Settles O60. -/
theorem healthAndPinsComplete : Obligations.HealthAndPinsComplete := by
  refine ⟨fun s hrun hup hdue => ?_, fun s addr payload hhead hlink hlen hsound hver => ?_, fun s pin value hup htaken hcodes => ?_⟩
  · obtain ⟨t, hexec, -, hseq, -, -⟩ := healthReportTimer_shows hrun hup hdue
    have hwithin := execHealthReportTimer_within s
    rw [show execHealthReportTimer s = _ from hexec] at hwithin
    exact ⟨t, hexec, hseq, hwithin.same_mem, hwithin.same_time, hwithin.same_flocks⟩
  · obtain ⟨t, hexec, hreports⟩ := health_keeps hhead hlink hlen hsound hver
    have hwithin := execHealth_within addr payload s
    rw [show execHealth addr payload s = _ from hexec] at hwithin
    exact ⟨t, hexec, hreports ▸ List.mem_cons_self, hwithin.same_mem, hwithin.same_time, hwithin.same_flocks⟩
  · have hwithin := s.gpioCfg_within pin value
    exact ⟨_, exec_gpioCfgWrite hup hcodes htaken, (State.gpioCfg_f _ _ _ rfl (by decide)).trans (bits_zero_start ..),
      State.gpioCfg_f _ _ _ rfl (by decide),
      hwithin.same_mem, hwithin.same_ring, hwithin.same_flocks⟩

end Sys2Proof.Machine
end

section
/-! PROOFS. The clocked islands and their crossings (spec/14_clock_islands.md R460 to R469, R473; R585), with what resets and starts of
islands leave of the lines between the islands. -/
set_option Elab.async false
namespace Sys2Proof.Machine

/-! ### The lines of the islands: resets, clocks, gates and holds, without the events in flight -/

/-- What the islands' controller knows of each island: its reset, its clock, its gate and its hold. -/
def State.lines (s : State) : Xing := { s.xing with flights := [] }

theorem State.lines_congr {s t : State} (h : s.xing = t.xing) : s.lines = t.lines := by rw [State.lines, h, State.lines]

theorem State.inReset_of_lines {s t : State} (h : s.lines = t.lines) : s.xing.inReset = t.xing.inReset :=
  show s.lines.inReset = t.lines.inReset from congrArg _ h
theorem State.clkOk_of_lines {s t : State} (h : s.lines = t.lines) : s.xing.clkOk = t.xing.clkOk :=
  show s.lines.clkOk = t.lines.clkOk from congrArg _ h
theorem State.gated_of_lines {s t : State} (h : s.lines = t.lines) : s.xing.gated = t.xing.gated :=
  show s.lines.gated = t.lines.gated from congrArg _ h
theorem State.heldTo_of_lines {s t : State} (h : s.lines = t.lines) : s.xing.heldTo = t.xing.heldTo :=
  show s.lines.heldTo = t.lines.heldTo from congrArg _ h

@[simp] theorem State.onXing_lines (s : State) (g : Xing → Xing) : (s.onXing g).lines = { g s.xing with flights := [] } := rfl

theorem State.dropFlights_lines (s : State) (i : Nat) : (s.dropFlights i).lines = s.lines := by
  unfold State.dropFlights
  exact State.each_keeps State.lines _ _ _ fun x f =>
    State.lines_congr ((State.xingLost_within ..).same_xing.trans (State.tickFresh_within x).same_xing)

theorem State.islandContent_lines (s : State) (i : Nat) : (s.islandContent i).lines = s.lines :=
  State.lines_congr (State.islandContent_within ..).same_xing
theorem State.resetStatus_lines (s : State) (i : Nat) : (s.resetStatus i).lines = s.lines :=
  State.lines_congr (State.resetStatus_within ..).same_xing
theorem State.selfRefresh_lines (s : State) (i : Nat) (v : Bool) : (s.selfRefresh i v).lines = s.lines :=
  State.lines_congr (State.selfRefresh_within ..).same_xing
theorem State.islandRegs_lines (s : State) : s.islandRegs.lines = s.lines := State.lines_congr (State.islandRegs_within _).same_xing
theorem State.transports_lines (s : State) : s.transports.lines = s.lines := State.lines_congr (State.transports_within _).same_xing

/-! ### What a step of the clock leaves of the lines -/

theorem State.restarts_lines (s : State) (c : Nat) : (s.restarts c).lines = s.lines := by
  unfold State.restarts
  extract_lets d fed crossed waiting
  have hcrossed : crossed.lines = fed.lines := rfl
  have hwaiting : waiting.lines = crossed.lines := rfl
  rw [State.each_keeps State.lines _ _ _ fun _ _ => State.lines_congr (State.onFold_xing ..), hwaiting, hcrossed]
  rfl

theorem State.stepClock_lines (s : State) (c st : Nat) : (s.stepClock c st).lines = s.lines := by
  rw [State.stepClock, State.lines_congr (State.healthFrom_within _).same_xing, State.lines_congr (State.timeEvent_within ..).same_xing,
    State.lines_congr (State.put_xing ..), State.lines_congr (State.put_xing ..), State.lines_congr (State.onTime_xing ..),
    State.restarts_lines]

theorem State.bwStep_lines (s : State) (c st src : Nat) : (s.bwStep c st src).lines = s.lines := by
  unfold State.bwStep
  extract_lets g noted stepped
  have hstepped : stepped.lines = noted.lines := by
    dsimp only [stepped]
    rw [State.lines_congr (State.timeEvent_within ..).same_xing, State.stepClock_lines, State.lines_congr (State.onTime_xing ..)]
  clear_value stepped
  rw [State.lines_congr (State.setErr_within ..).same_xing, State.lines_congr (State.put_xing ..), State.lines_congr (State.put_xing ..),
    State.lines_congr (State.put_xing ..), hstepped]
  exact State.lines_congr (State.onRing_xing ..)

theorem State.electStep_lines (s : State) : s.electStep.lines = s.lines := by
  unfold State.electStep
  extract_lets m
  split
  · exact State.bwStep_lines ..
  split
  · exact State.bwStep_lines ..
  · exact (State.lines_congr (State.holdover_within _).same_xing).trans (State.bwStep_lines ..)

/-! ### Reset and start of an island (R466 to R469) -/

/-- An island starts without a change of the lines. -/
theorem State.islandStart_lines (s : State) (i : Nat) : (s.islandStart i).lines = s.lines := by
  unfold State.islandStart
  split
  · refine State.each_keeps State.lines _ _ _ fun x p => ?_
    split
    · exact State.lines_congr (State.toDetect_within ..).same_xing
    · rfl
  split
  · unfold State.bwRelock
    split
    · exact State.electStep_lines s
    · rfl
  split
  · exact State.lines_congr (State.lampStatus_within _).same_xing
  split
  · exact State.lines_congr (State.scrubAnew_within _).same_xing
  · rfl

/-- A release takes the island from its reset and leaves the other lines. -/
theorem State.releaseIsland_lines {s : State} {i : Nat} (hup : s.pwr.up = true) (hin : nth s.xing.inReset i true = true)
    (hclk : nth s.xing.clkOk i false = true) (hgated : nth s.xing.gated i false = false) (hheld : nth s.xing.heldTo i 0 ≤ s.time.aon) :
    (s.releaseIsland i).lines = { s.lines with inReset := modAt s.xing.inReset i fun _ => false } := by
  rw [State.releaseIsland, hup, hin, hclk, hgated, decide_eq_false hheld.not_gt, if_neg (by decide), State.islandStart_lines,
    State.selfRefresh_lines, State.transports_lines, State.islandRegs_lines]
  rfl

/-- A release changes no line but the island's reset. -/
theorem State.releaseIsland_clkOk (s : State) (i : Nat) : (s.releaseIsland i).xing.clkOk = s.xing.clkOk := by
  unfold State.releaseIsland
  split
  · rfl
  · rw [State.clkOk_of_lines ((State.islandStart_lines ..).trans ((State.selfRefresh_lines ..).trans
      ((State.transports_lines _).trans (State.islandRegs_lines _))))]
    rfl

/-- A reset puts an island that is not gated and not AON into reset, and leaves the other lines. -/
theorem State.resetIsland_lines {s : State} {i : Nat} (counted : Bool) (haon : i ≠ iAON) (hgated : nth s.xing.gated i false = false) :
    (s.resetIsland i counted).lines = { s.lines with inReset := modAt s.xing.inReset i fun _ => true } := by
  unfold State.resetIsland
  rw [hgated, beq_false_of_ne haon, if_neg (by decide)]
  extract_lets emptied held
  have hemptied : emptied.lines = s.lines := by
    dsimp only [emptied]
    split
    · rfl
    · rw [State.selfRefresh_lines, State.resetStatus_lines, State.islandContent_lines, State.dropFlights_lines]
  clear_value emptied
  have hheld : held.lines = { s.lines with inReset := modAt s.xing.inReset i fun _ => true } := by
    rw [State.onXing_lines, State.inReset_of_lines hemptied, ← hemptied]
    rfl
  clear_value held
  rw [State.transports_lines, State.islandRegs_lines, ← hheld]
  split
  · exact State.lines_congr (State.inc_xing ..)
  · rfl

/-- An island that a reset puts into reset is in reset. -/
theorem State.resetIsland_inReset {s : State} {i : Nat} (counted : Bool) (haon : i ≠ iAON) (hgated : nth s.xing.gated i false = false)
    (hi : i < s.xing.inReset.length) (d : Bool) : nth (s.resetIsland i counted).xing.inReset i d = true := by
  have hlines : (s.resetIsland i counted).lines.inReset = modAt s.xing.inReset i fun _ => true := by
    rw [State.resetIsland_lines counted haon hgated]
  rw [show (s.resetIsland i counted).xing.inReset = _ from hlines, nth_modAt_same _ _ _ _ hi]

theorem islandResetRelease_releases {s : State} {isl : Fin 9} (hup : s.pwr.up = true) (hin : nth s.xing.inReset isl.val true = true)
    (hclk : nth s.xing.clkOk isl.val false = true) (hgated : nth s.xing.gated isl.val false = false) (hlen : s.xing.inReset.length = 9)
    (hheld : nth s.xing.heldTo isl.val 0 ≤ s.time.aon) :
    yields (.islandResetRelease isl) s fun t => nth t.xing.inReset isl.val true = false := by
  refine ⟨s.releaseIsland isl, rfl, ?_⟩
  have hlines : (s.releaseIsland isl).lines.inReset = modAt s.xing.inReset isl fun _ => false := by
    rw [State.releaseIsland_lines hup hin hclk hgated hheld]
  dsimp only
  rw [show (s.releaseIsland isl).xing.inReset = _ from hlines, nth_modAt_same _ _ _ _ (hlen.symm ▸ isl.isLt)]

/-! ### Clocks of the islands (R460, R469) -/

/-- The clock of an island is noted as lost. -/
def State.clockGone (s : State) (i : Nat) : State :=
  (s.onXing fun x => { x with clkOk := modAt x.clkOk i fun _ => false }).flag F.XINGi_STATUS_CLK_LOST true i

theorem exec_islandClockLost {s : State} {isl : Fin 9} (hgated : nth s.xing.gated isl.val false = false)
    (hclk : nth s.xing.clkOk isl.val false = true) :
    exec (.islandClockLost isl) s =
      .next (if isl.val == iAON then (s.clockGone isl).islandRegs else (s.clockGone isl).resetIsland isl true) := by
  show execIslandClockLost isl s = _
  rw [execIslandClockLost, hgated, hclk, if_neg (by decide), State.clockLost, State.clockGone]

/-- A lost clock puts its island into reset. -/
theorem islandClockLost_resets {s : State} {isl : Fin 9} (hgated : nth s.xing.gated isl.val false = false) (hclks : s.xing.clkOk.length = 9)
    (hlen : s.xing.inReset.length = 9) (hisl : isl ≠ 8) (hclk : nth s.xing.clkOk isl.val false = true) :
    yields (.islandClockLost isl) s fun t => nth t.xing.clkOk isl.val true = false ∧ nth t.xing.inReset isl.val false = true := by
  have haon : isl.val ≠ iAON := fun h => hisl (Fin.ext h)
  refine ⟨_, (exec_islandClockLost hgated hclk).trans (congrArg _ (if_neg (by rw [beq_false_of_ne haon]; decide))), ?_, ?_⟩
  · have hlines : ((s.clockGone isl).resetIsland isl true).lines.clkOk = modAt s.xing.clkOk isl fun _ => false := by
      rw [State.resetIsland_lines (s := s.clockGone isl) true haon hgated]
      rfl
    rw [show ((s.clockGone isl).resetIsland isl true).xing.clkOk = _ from hlines, nth_modAt_same _ _ _ _ (hclks.symm ▸ isl.isLt)]
  · exact State.resetIsland_inReset (s := s.clockGone isl) true haon hgated (hlen.symm ▸ isl.isLt) false

/-- IN_RESET and CLK_LOCK alone follow the lines in the status of an island. -/
theorem State.islandRegs_clkLost (s : State) (i : Nat) : s.islandRegs.b F.XINGi_STATUS_CLK_LOST i = s.b F.XINGi_STATUS_CLK_LOST i := by
  have hne : F.XINGi_STATUS_CLK_LOST.addr i 0 ≠ F.ISLAND_STATUS_IN_RESET.addr 0 0 := by
    simp only [Fld.addr, F.XINGi_STATUS_CLK_LOST, F.ISLAND_STATUS_IN_RESET]
    omega
  unfold State.islandRegs
  refine State.each_keeps (fun t : State => t.b F.XINGi_STATUS_CLK_LOST i) _ _ _ fun t k => ?_
  dsimp only
  rw [State.b_flag_other _ _ (by decide) (.inr (by decide)), State.b_flag_other _ _ (by decide) (.inr (by decide)),
    State.b_put_other (f := F.ISLAND_STATUS_GATED) _ _ (by decide) (.inl hne), State.b_put_other _ _ (by decide) (.inl hne)]

/-- The monitor of AON reports a lost clock and resets nothing. -/
theorem islandClockLost_aon {s : State} {isl : Fin 9} (hgated : nth s.xing.gated isl.val false = false) (hisl : isl = 8)
    (hclk : nth s.xing.clkOk isl.val false = true) :
    yields (.islandClockLost isl) s fun t => t.b F.XINGi_STATUS_CLK_LOST isl = true ∧ t.xing.inReset = s.xing.inReset := by
  refine ⟨_, (exec_islandClockLost hgated hclk).trans (congrArg _ (if_pos (by rw [hisl]; rfl))), ?_, ?_⟩
  · rw [State.islandRegs_clkLost]
    exact State.b_flag _ _ _ _ _ (by decide) rfl
  · rw [(State.islandRegs_within _).same_xing]
    rfl

theorem islandClockStable_locks {s : State} {isl : Fin 9} (hgated : nth s.xing.gated isl.val false = false) (hclks : s.xing.clkOk.length = 9) :
    yields (.islandClockStable isl) s fun t => nth t.xing.clkOk isl.val false = true := by
  refine ⟨_, congrArg Host.Outcome.next (if_neg (by rw [hgated]; decide)), ?_⟩
  dsimp only
  rw [State.releaseIsland_clkOk, (State.islandRegs_within _).same_xing, State.onXing_xing, nth_modAt_same _ _ _ _ (hclks.symm ▸ isl.isLt)]

/-- A lock reset leaves no offset to remove. -/
theorem State.lockReset_lag (s : State) : s.lockReset.f F.TIME_LAG = 0 := by
  unfold State.lockReset
  extract_lets noted chains
  have hchains : chains.f F.TIME_LAG = 0 := by
    refine (State.each_keeps (fun t : State => t.f F.TIME_LAG) _ _ noted fun t p => ?_).trans (State.f_put _ _ _ _ _ (by decide))
    exact State.f_flag_other _ _ (by decide) (.inl (by simp only [Fld.addr, F.TIME_PORTp_PDSTAT_CHAIN_VALID, F.TIME_LAG]; omega))
  clear_value chains
  split
  · exact hchains
  · rw [State.f_flag_other _ _ (by decide) (.inl (by decide)), State.f_flag_other _ _ (by decide) (.inl (by decide)), State.tickFresh_f,
      State.f_put_other _ _ (by decide) (.inl (by decide)), hchains]

theorem refclkLoss_locks {s : State} (hup : s.pwr.up = true) :
    yields .refclkLoss s fun t => t.time.needStep = true ∧ t.f F.TIME_LAG = 0 := by
  refine ⟨_, congrArg Host.Outcome.next (if_neg (by rw [hup]; decide)), ?_, State.lockReset_lag _⟩
  rw [State.lockReset_time]

/-! ### Events over a crossing (R464, R465, R468) -/

/-- An event toward an island in reset is lost. -/
theorem exec_xingEvent_lost {s : State} {isl : Fin 9} {line : Nat} (hup : s.pwr.up = true) (hin : nth s.xing.inReset isl.val true = true) :
    exec (.xingEvent isl line) s = .next (s.xingLost isl 1) := by
  show execXingEvent isl line s = _
  rw [execXingEvent, hup, hin, if_neg (by decide), if_pos rfl]

theorem State.xingLost_flag (s : State) (i : Nat) {n : Nat} (hn : n ≠ 0) : (s.xingLost i n).b F.XINGi_STATUS_LOST i = true := by
  rw [State.xingLost, beq_false_of_ne hn, if_neg (by decide)]
  exact State.b_flag _ _ _ _ _ (by decide) rfl

/-- An event toward an island that runs: a handshake starts, or the event waits, or it overruns. -/
theorem exec_xingEvent {s : State} {isl : Fin 9} {line : Nat} (hup : s.pwr.up = true) (hin : nth s.xing.inReset isl.val true = false) :
    exec (.xingEvent isl line) s = .next (match s.xing.flights.find? fun f => f.isl == isl.val && f.line == line with
      | none => s.onXing fun x => { x with flights := x.flights ++ [⟨isl, line, s.time.clock, false⟩] }
      | some f => if f.pending then s.xingOverrun isl
        else s.onXing fun x => { x with flights := x.flights.map fun g =>
          if g.isl == isl.val && g.line == line then { g with pending := true } else g }) := by
  show execXingEvent isl line s = _
  rw [execXingEvent, hup, hin, if_neg (by decide), if_neg (by decide)] <;> rfl

theorem xingEvent_starts {s : State} {isl : Fin 9} {line : Nat} (hup : s.pwr.up = true) (hin : nth s.xing.inReset isl.val true = false)
    (hnone : (s.xing.flights.find? fun f => f.isl == isl.val && f.line == line) = none) : yields (.xingEvent isl line) s fun t =>
    t.xing.flights = s.xing.flights ++ [(⟨isl.val, line, s.time.clock, false⟩ : Flight)] := by
  refine ⟨_, exec_xingEvent hup hin, ?_⟩
  rw [hnone]
  rfl

theorem xingEvent_overruns {s : State} {isl : Fin 9} {line : Nat} {f : Flight} (hup : s.pwr.up = true)
    (hin : nth s.xing.inReset isl.val true = false)
    (hsome : (s.xing.flights.find? fun f => f.isl == isl.val && f.line == line) = some f) (hpending : f.pending = true) :
    yields (.xingEvent isl line) s fun t => t.b F.XINGi_STATUS_OVERRUN isl = true ∧ t.xing = s.xing := by
  refine ⟨_, exec_xingEvent hup hin, ?_⟩
  rw [hsome]
  dsimp only
  rw [hpending, if_pos rfl]
  exact ⟨State.b_flag _ _ _ _ _ (by decide) rfl, (State.xingOverrun_within ..).same_xing⟩

/-- With no event pending, an acknowledgement ends the handshake of its line. -/
theorem xingAck_ends {s : State} {isl : Fin 9} {line : Nat} (hpending : (s.xing.flights.all fun g => !g.pending) = true) :
    yields (.xingAck isl line) s fun t => (t.xing.flights.any fun g => g.isl == isl.val && g.line == line) = false := by
  refine ⟨_, rfl, ?_⟩
  dsimp only [State.onXing_xing]
  rw [List.any_eq_false]
  intro g hg hline
  obtain ⟨f, hf, hfg⟩ := List.mem_filterMap.mp hg
  have hidle : f.pending = false := by simpa using List.all_eq_true.mp hpending f hf
  split at hfg
  · simp [hidle] at hfg
  · next hother => exact hother (Option.some.inj hfg ▸ hline)

theorem xingStuck_resets {s : State} {isl : Fin 9} {line : Nat} {f : Flight} (hf : f ∈ s.xing.flights) (hfisl : f.isl = isl.val)
    (hline : f.line = line) (hlate : f.start + s.f F.XING_ACK_LIMIT * nsU < s.time.clock) (hisl : isl ≠ 8)
    (hgated : nth s.xing.gated isl.val false = false) (hlen : s.xing.inReset.length = 9) :
    yields (.xingStuck isl line) s fun t => nth t.xing.inReset isl.val false = true := by
  have hstuck : (s.xing.flights.any fun g => g.isl == isl.val && g.line == line &&
      decide (g.start + s.f F.XING_ACK_LIMIT * nsU < s.time.clock)) = true :=
    List.any_eq_true.mpr ⟨f, hf, by rw [hfisl, hline, beq_self_eq_true, beq_self_eq_true, decide_eq_true hlate]; rfl⟩
  refine ⟨(s.flag F.XINGi_STATUS_STUCK true isl).resetIsland isl true, congrArg Host.Outcome.next (if_pos hstuck), ?_⟩
  exact State.resetIsland_inReset (s := s.flag F.XINGi_STATUS_STUCK true isl) true (fun h => hisl (Fin.ext h)) hgated (hlen.symm ▸ isl.isLt) false

/-! ### CLEAR (R473) -/

/-- A loop that zeroes a register of each island leaves it zero. -/
theorem State.xingClear_zero (s : State) (i : Fin 9) {f : Fld} (hf : f = F.XINGi_OVERRUNS ∨ f = F.XINGi_LOST ∨ f = F.XINGi_FORCED) :
    s.xingClear.reg (f.addr i 0) = 0 := by
  unfold State.xingClear
  refine State.each_at (fun t : State => t.reg (f.addr i 0)) (· = 0) List.nodup_range (List.mem_range.mpr i.isLt) (fun t k hk => ?_)
    fun t _ => ?_
  · rcases hf with rfl | rfl | rfl <;>
    · rw [State.reg_zero, State.reg_zero, State.reg_zero, if_neg, if_neg, if_neg] <;>
        simp only [Fld.addr, F.XINGi_OVERRUNS, F.XINGi_LOST, F.XINGi_FORCED] <;> omega
  · rw [State.reg_zero, State.reg_zero, State.reg_zero]
    rcases hf with rfl | rfl | rfl <;> simp

theorem xingClear_clears {s : State} (i : Fin 9) (hup : s.pwr.up = true) : yields .xingClear s fun t =>
    t.f F.XINGi_OVERRUNS i = 0 ∧ t.f F.XINGi_LOST i = 0 ∧ t.f F.XINGi_FORCED i = 0 := by
  refine ⟨_, congrArg Host.Outcome.next (if_pos hup), ?_, ?_, ?_⟩
  · rw [State.f, State.xingClear_zero s i (.inl rfl)]; rfl
  · rw [State.f, State.xingClear_zero s i (.inr (.inl rfl))]; rfl
  · rw [State.f, State.xingClear_zero s i (.inr (.inr rfl))]; rfl

/-! ### PCIe (R467, R585, R404) -/

theorem pcieReset_resets {s : State} (hup : s.pwr.up = true) (hgated : nth s.xing.gated 7 false = false) (hlen : s.xing.inReset.length = 9) :
    yields .pcieReset s fun t => nth t.xing.inReset 7 false = true := by
  have hcond : (s.pwr.up && !(nth s.xing.gated iPCIE false)) = true := by rw [hup, show nth s.xing.gated iPCIE false = false from hgated]; rfl
  refine ⟨_, congrArg Host.Outcome.next (if_pos hcond), ?_⟩
  dsimp only [State.flag_xing]
  exact State.resetIsland_inReset true (by decide) hgated (hlen.symm ▸ (by decide : (7 : Nat) < 9)) false

theorem pcieLinkUp_trains {s : State} (hon : s.on iPCIE = true) : yields .pcieLinkUp s fun t => t.pwr.pcieUp = true := by
  refine ⟨_, congrArg Host.Outcome.next (if_pos hon), ?_⟩
  dsimp only
  rw [(State.transports_within _).same_pwr, State.onPwr_pwr]

theorem pcieFlr_holds {s : State} {fn : Fin 4} (hon : s.on iPCIE = true) (hlen : s.pwr.flr.length = 4) :
    yields (.pcieFlr fn) s fun t => nth t.pwr.flr fn.val false = true := by
  refine ⟨_, congrArg Host.Outcome.next (if_pos hon), ?_⟩
  dsimp only
  rw [(State.transports_within _).same_pwr, State.onPwr_pwr, nth_modAt_same _ _ _ _ (hlen.symm ▸ fn.isLt)]

theorem pcieFlrDone_frees {s : State} {fn : Fin 4} (hlen : s.pwr.flr.length = 4) :
    yields (.pcieFlrDone fn) s fun t => nth t.pwr.flr fn.val true = false := by
  refine ⟨_, rfl, ?_⟩
  dsimp only
  rw [(State.transports_within _).same_pwr, State.onPwr_pwr, nth_modAt_same _ _ _ _ (hlen.symm ▸ fn.isLt)]

/-- Settles O3. -/
theorem islandCommandsAct : Obligations.IslandCommandsAct := by
  refine ⟨fun s isl hup hin hclk hgated hlen hheld => ?_, fun s isl hgated hclks hlen hisl hclk => ?_, fun s isl hgated hisl hclk => ?_,
    fun s isl hgated hclks => ?_, fun s hup => ?_, fun s isl line hup hin hnone => ?_, fun s isl line hup hin => ?_,
    fun s isl line f hup hin hsome hpending => ?_, fun s isl line hpending => ?_,
    fun s isl line f hf hfisl hline hlate hisl hgated hlen => ?_, fun s i hup => ?_, fun s hup hgated hlen => ?_, fun s hon => ?_,
    fun s fn hon hlen => ?_, fun s fn hlen => ?_⟩
  · exact islandResetRelease_releases hup hin hclk hgated hlen hheld
  · exact islandClockLost_resets hgated hclks hlen hisl hclk
  · exact islandClockLost_aon hgated hisl hclk
  · exact islandClockStable_locks hgated hclks
  · exact refclkLoss_locks hup
  · exact xingEvent_starts hup hin hnone
  · exact ⟨_, exec_xingEvent_lost hup hin, State.xingLost_flag _ _ (by decide), (State.xingLost_within ..).same_xing⟩
  · exact xingEvent_overruns hup hin hsome hpending
  · exact xingAck_ends hpending
  · exact xingStuck_resets hf hfisl hline hlate hisl hgated hlen
  · exact xingClear_clears i hup
  · exact pcieReset_resets hup hgated hlen
  · exact pcieLinkUp_trains hon
  · exact pcieFlr_holds hon hlen
  · exact pcieFlrDone_frees hlen

end Sys2Proof.Machine
end

section
/-! PROOFS. Power, resets of the node and RST_CTL (spec/18_power_and_reset.md R574 to R583, R589), with what a node reset leaves of the
power state, the memory and the boot. -/
set_option Elab.async false
namespace Sys2Proof.Machine

/-! ### A reset of the node (R586) -/

/-- After a node reset the core is held, and nothing that RST_CTL asked for waits. -/
theorem State.nodeReset_pwr (s : State) (keepMem : Bool) :
    (s.nodeReset keepMem).pwr = { s.pwr with up := false, pcieUp := false, actions := [], flr := [false, false, false, false] } := by
  unfold State.nodeReset
  extract_lets t t1 t2 t3
  have ht : t.pwr = { s.pwr with up := false, pcieUp := false, actions := [], flr := [false, false, false, false] } := rfl
  have h2 : t2.pwr = t.pwr := rfl
  rw [(State.islandRegs_within _).same_pwr, ← ht, ← h2]
  clear_value t2
  dsimp only [t3]
  split
  · exact State.flag_pwr ..
  · rfl

/-- A node reset keeps frame memory or loses it (R577, R586). -/
theorem State.nodeReset_mem (s : State) (keepMem : Bool) : (s.nodeReset keepMem).mem = if keepMem then s.mem else [] := by
  unfold State.nodeReset
  extract_lets t t1 t2 t3
  have ht : t.mem = if keepMem then s.mem else [] := rfl
  have h2 : t2.mem = t.mem := rfl
  rw [(State.islandRegs_within _).same_mem, ← ht, ← h2]
  clear_value t2
  dsimp only [t3]
  split
  · exact State.flag_mem ..
  · rfl

/-- The reset controller releases the node, and leaves the rest of the power state. -/
theorem State.releaseNode_pwr {s : State} (h : s.pwr.resetN = true) : s.releaseNode.pwr = { s.pwr with up := true } := by
  unfold State.releaseNode
  rw [if_pos h, State.each_keeps State.pwr _ _ _ fun x i => (State.releaseIsland_within x i).same_pwr]
  exact State.onPwr_pwr ..

/-! ### Power-down (R577) -/

theorem State.powerDown_pwr (s : State) : s.powerDown.pwr =
    { s.pwr with step := 0, up := false, pcieUp := false, actions := [], flr := [false, false, false, false] } := by
  unfold State.powerDown
  extract_lets cut ended reset held shown
  have hcut : cut.pwr = s.pwr := (State.unitCut_within s).same_pwr
  have hended : ended.pwr = cut.pwr := rfl
  have hreset : reset.pwr = { ended.pwr with up := false, pcieUp := false, actions := [], flr := [false, false, false, false] } :=
    State.nodeReset_pwr ended false
  clear_value reset ended cut
  rw [(State.islandRegs_within _).same_pwr, State.flag_pwr, State.put_pwr, State.onXing_pwr, State.onPwr_pwr, hreset, hended, hcut]

theorem State.powerDown_mem (s : State) : s.powerDown.mem = [] := by
  unfold State.powerDown
  extract_lets cut ended reset held shown
  have hreset : reset.mem = [] := State.nodeReset_mem ended false
  clear_value reset
  rw [(State.islandRegs_within _).same_mem, State.flag_mem, State.put_mem, State.onXing_mem, State.onPwr_mem, hreset]

/-- After a brownout FAULT_N is asserted, the node is held without a rail and frame memory is lost (R577). -/
abbrev State.failed (t : State) : Prop := t.pwr.faultN = true ∧ t.pwr.up = false ∧ t.pwr.step = 0 ∧ t.mem = []

theorem State.brownout_fails (s : State) (rail : Nat) : (s.brownout rail).failed := by
  unfold State.brownout
  extract_lets blanked down noted n shown
  have hup : down.pwr.up = false := by rw [State.powerDown_pwr]
  have hstep : down.pwr.step = 0 := by rw [State.powerDown_pwr]
  have hmem : down.mem = [] := State.powerDown_mem _
  clear_value down
  have hnoted : noted.failed := by
    rw [State.failed, State.onPwr_pwr, State.onPwr_mem]
    exact ⟨rfl, hup, hstep, hmem⟩
  clear_value noted n
  have hshown : shown.failed := by
    rw [State.failed, State.put_pwr, State.put_mem]
    exact hnoted
  clear_value shown
  split
  · rw [State.failed, State.onPwr_pwr, State.onPwr_mem]
    exact hshown
  · exact hshown

/-- A register that a rail shows changes nothing of the failure. -/
theorem State.failed.put {t : State} (h : t.failed) (f : Fld) (v i j : Nat) : (t.put f v i j).failed := by
  rwa [State.failed, State.put_pwr, State.put_mem]

/-! ### The power-up order (R574, R576, R578) -/

theorem powerStep_advances {s : State} {mv : List Nat} (hpor : s.pwr.porN = true) (hmin : 1 ≤ s.pwr.step) (hmax : s.pwr.step ≤ 4)
    (hgood : stepGood s.pwr.step mv = true) (hsettled : s.pwr.step = 1 ∨ s.pwr.enableAt + 10 ^ 6 ≤ s.time.aon) :
    yields (.powerStep mv) s fun t => t.pwr.step = s.pwr.step + 1 ∧ t.pwr.enableAt = s.time.aon := by
  have hwait : (s.pwr.step == 1 || s.settled) = true := by
    rw [Bool.or_eq_true, beq_iff_eq, State.settled, decide_eq_true_eq]
    exact hsettled
  refine ⟨_, congrArg Host.Outcome.next (if_pos ?_), ?_⟩
  · rw [hpor, decide_eq_true hmin, decide_eq_true hmax, hwait, hgood]
    rfl
  · extract_lets k stepped shown
    have hstepped : stepped.pwr.step = s.pwr.step + 1 ∧ stepped.pwr.enableAt = s.time.aon := ⟨rfl, rfl⟩
    have hshown : shown.pwr = stepped.pwr := State.put_pwr ..
    clear_value shown stepped
    rw [← hshown] at hstepped
    dsimp only
    split
    · rw [State.put_pwr, (State.otpRegs_within _).same_pwr]
      exact hstepped
    · exact hstepped

theorem powerGood_starts {s : State} {mv : List Nat} (hpor : s.pwr.porN = true) (hstep : s.pwr.step = 5) (hgood : stepGood 5 mv = true)
    (hsettled : s.pwr.enableAt + 10 ^ 6 ≤ s.time.aon) (hreset : s.pwr.resetN = true) (hhold : s.therm.hold = false) :
    yields (.powerGood mv) s fun t => t.pwr.step = 7 ∧ t.pwr.up = true ∧ t.boot.romDue = true := by
  refine ⟨_, congrArg Host.Outcome.next (if_pos ?_), ?_⟩
  · rw [hpor, hstep, State.settled, decide_eq_true hsettled, hgood]
    rfl
  · extract_lets shown timed gated opened runs on_ due
    have hpwr : opened.pwr = s.pwr := by
      rw [State.onXing_pwr, State.flag_pwr, State.put_pwr, State.flag_pwr, (State.rails_within s mv).same_pwr]
    have htherm : opened.therm = s.therm := by
      rw [State.onXing_therm, State.flag_therm, State.put_therm, State.flag_therm, (State.rails_within s mv).same_therm]
    clear_value opened
    have hruns : runs = true := by
      dsimp only [runs]
      rw [hpwr, htherm, hreset, hhold]
      rfl
    have hon : on_.pwr.step = 7 ∧ on_.pwr.up = true := ⟨rfl, hruns⟩
    clear_value on_ runs
    have hdue : due.pwr.step = 7 ∧ due.pwr.up = true ∧ due.boot.romDue = true := ⟨hon.1, hon.2, hruns⟩
    clear_value due
    dsimp only
    rw [(State.islandRegs_within _).same_pwr, (State.islandRegs_within _).same_boot,
      State.each_keeps State.pwr _ _ _ fun x i => (State.releaseIsland_within x i).same_pwr,
      State.each_keeps State.boot _ _ _ fun x i => (State.releaseIsland_within x i).same_boot]
    exact hdue

theorem railEnableTimeout_fails {s : State} (hpor : s.pwr.porN = true) (hmin : 2 ≤ s.pwr.step) (hmax : s.pwr.step ≤ 5)
    (hlate : s.pwr.enableAt + 20 * 10 ^ 6 < s.time.aon) : yields .railEnableTimeout s State.failed := by
  refine ⟨_, congrArg Host.Outcome.next (if_pos ?_), State.brownout_fails _ _⟩
  rw [hpor, decide_eq_true hmin, decide_eq_true hmax, decide_eq_true hlate]
  rfl

theorem brownout_fails {s : State} {rail : Fin 7} {mv0 mv1 : Nat} (hstep : s.pwr.step = 7) (hrail : 2 ≤ rail.val)
    (hbad0 : railGood rail mv0 = false) (hbad1 : railGood rail mv1 = false) : yields (.brownout rail mv0 mv1) s State.failed := by
  refine ⟨_, congrArg Host.Outcome.next (if_pos ?_), ((State.brownout_fails _ _).put ..).put ..⟩
  rw [hstep, decide_eq_true hrail, hbad0, hbad1]
  rfl

theorem brownoutRestart_steps {s : State} {a : Nat} (hpwr : s.pwr.hold = false) (htherm : s.therm.hold = false)
    (hat : s.pwr.restartAt = some a) (hdue : a ≤ s.time.aon) :
    yields .brownoutRestart s fun t => t.pwr.step = 2 ∧ t.pwr.faultN = false ∧ t.pwr.restartAt = none := by
  refine ⟨_, congrArg Host.Outcome.next (if_pos ?_), ?_⟩
  · rw [State.restartDue, hat, hpwr, htherm, Option.any_some, decide_eq_true hdue]
    rfl
  · extract_lets restarted
    have hrestarted : restarted.pwr.step = 2 ∧ restarted.pwr.faultN = false ∧ restarted.pwr.restartAt = none := ⟨rfl, rfl, rfl⟩
    clear_value restarted
    dsimp only
    rw [State.put_pwr, (State.otpRegs_within _).same_pwr, State.put_pwr]
    exact hrestarted

/-! ### RESET_N (R581) -/

/-- From 1 µs on RESET_N acts. -/
theorem exec_resetNAssert_long {s : State} {w : Nat} (hw : 1000 ≤ w) (hheard : s.resetNHeard = true) (hstep : s.pwr.step = 7) :
    exec (.resetNAssert w) s = .next (((s.nodeReset true).cause F.RST_CAUSE_RESET_N 1).onPwr fun p => { p with
      resetN := false, faultN := false }) := by
  show execResetNAssert w s = _
  rw [execResetNAssert, decide_eq_true hw, decide_eq_false hw.not_gt, Bool.and_false]
  dsimp only
  rw [if_neg Bool.false_ne_true, hheard, hstep]
  rfl

/-- Below 100 ns it does not. -/
theorem exec_resetNAssert_short {s : State} {w : Nat} (hw : w < 100) : exec (.resetNAssert w) s = .next s := by
  have hlong : ¬ 1000 ≤ w := by omega
  show execResetNAssert w s = _
  rw [execResetNAssert, decide_eq_false hw.not_ge, decide_eq_false hlong]
  rfl

theorem resetNAssert_resets {s : State} {w : Nat} (hw : 1000 ≤ w) (hheard : s.resetNHeard = true) (hstep : s.pwr.step = 7) :
    yields (.resetNAssert w) s fun t => t.pwr.resetN = false ∧ t.pwr.up = false ∧ t.mem = s.mem := by
  refine ⟨_, exec_resetNAssert_long hw hheard hstep, ?_⟩
  dsimp only
  rw [State.onPwr_pwr, State.onPwr_mem, (State.cause_within ..).same_pwr, (State.cause_within ..).same_mem, State.nodeReset_pwr,
    State.nodeReset_mem]
  exact ⟨rfl, rfl, rfl⟩

theorem resetNRelease_starts {s : State} (hreset : s.pwr.resetN = false) (hstep : s.pwr.step = 7) (hhold : s.therm.hold = false) :
    yields .resetNRelease s fun t => t.pwr.resetN = true ∧ t.pwr.up = true ∧ t.boot.romDue = true := by
  refine ⟨_, congrArg Host.Outcome.next ((if_pos (by rw [hreset]; rfl)).trans (if_pos ?_)), ?_⟩
  · rw [State.onPwr_pwr, State.onPwr_therm, hstep, hhold]
    rfl
  · extract_lets started
    have hstarted : started.pwr.resetN = true ∧ started.pwr.up = true ∧ started.boot.romDue = true := ⟨rfl, rfl, rfl⟩
    clear_value started
    dsimp only
    rw [State.each_keeps State.pwr _ _ _ fun x i => (State.releaseIsland_within x i).same_pwr,
      State.each_keeps State.boot _ _ _ fun x i => (State.releaseIsland_within x i).same_boot]
    exact hstarted

/-- Settles O1. -/
theorem powerSequenceActs : Obligations.PowerSequenceActs := by
  refine ⟨fun s => ?_, fun s straps hpor => ?_, fun s mv hpor hmin hmax hgood hsettled => ?_,
    fun s mv hpor hstep hgood hsettled hreset hhold => ?_, fun s hpor hmin hmax hlate => ?_,
    fun s rail mv0 mv1 hstep hrail hbad0 hbad1 => ?_, fun s a hpwr htherm hat hdue => ?_, fun s w hw hheard hstep => ?_,
    fun s w hw => ?_, fun s hreset hstep hhold => ?_⟩
  · exact ⟨s.unitCut.unpowered, rfl, rfl, rfl, rfl, rfl⟩
  · refine ⟨_, congrArg Host.Outcome.next (if_neg (by rw [hpor]; exact Bool.false_ne_true)), ?_⟩
    dsimp only
    rw [(State.islandRegs_within _).same_pwr]
    exact ⟨rfl, rfl⟩
  · exact powerStep_advances hpor hmin hmax hgood hsettled
  · exact powerGood_starts hpor hstep hgood hsettled hreset hhold
  · exact railEnableTimeout_fails hpor hmin hmax hlate
  · exact brownout_fails hstep hrail hbad0 hbad1
  · exact brownoutRestart_steps hpwr htherm hat hdue
  · exact resetNAssert_resets hw hheard hstep
  · exact ⟨s, exec_resetNAssert_short hw, rfl⟩
  · exact resetNRelease_starts hreset hstep hhold

/-! ### RST_CTL (R583, R589) -/

/-- A request that names nothing beside its fields is noted for 100 µs later. -/
theorem State.rstRequest_pwr (s : State) {v : Nat} (hv : Nat.land v 0x3F1FF = v) :
    (s.rstRequest v).pwr = { s.pwr with actions := s.pwr.actions ++ [(v, s.time.aon + 100000)] } := by
  rw [State.rstRequest, hv, State.onPwr_pwr]
  rfl

/-- The bits of ISLAND stand below those of FOLD. -/
theorem land_islandBits (mask : Nat) : Nat.land (mask % 2 ^ 9) 0x3F1FF = mask % 2 ^ 9 := by
  have hlt : mask % 2 ^ 9 < 2 ^ 9 := Nat.mod_lt _ (by decide)
  calc Nat.land (mask % 2 ^ 9) 0x3F1FF
      = (mask % 2 ^ 9 &&& 0x3F1FF) % 2 ^ 9 := (Nat.mod_eq_of_lt (Nat.and_le_left.trans_lt hlt)).symm
    _ = mask % 2 ^ 9 % 2 ^ 9 &&& (2 ^ 9 - 1) := Nat.and_mod_two_pow
    _ = mask % 2 ^ 9 := by rw [Nat.and_two_pow_sub_one_eq_mod, Nat.mod_mod, Nat.mod_mod]

theorem land_foldBits (mask : Nat) : Nat.land (mask % 16 * 2 ^ 12) 0x3F1FF = mask % 16 * 2 ^ 12 := by
  have hlt : mask % 16 < 16 := Nat.mod_lt _ (by decide)
  generalize mask % 16 = m at hlt
  revert m
  decide

/-- A pair of context 0 that completes while the node is up is noted, and nothing acts yet. -/
theorem yields_rstRequest {c : Instr} {s : State} {v : Nat} (hup : s.pwr.up = true) (hexec : exec c s = .next (s.rstRequest v))
    (hv : Nat.land v 0x3F1FF = v) : yields c s fun t =>
    t.pwr.actions = s.pwr.actions ++ [(v, s.time.aon + 100000)] ∧ t.pwr.step = s.pwr.step ∧ t.pwr.up = true := by
  refine ⟨_, hexec, ?_⟩
  dsimp only
  rw [State.rstRequest_pwr s hv]
  exact ⟨rfl, rfl, hup⟩

/-- A pair of another context is discarded with an RWP fault. -/
theorem yields_rwpFault {c : Instr} {s : State} {ctx : Fin 8} (hexec : exec c s = .next (s.ctxFault F.CTXn_FAULT_RWP ctx)) :
    yields c s fun t => t.b F.CTXn_FAULT_RWP ctx = true ∧ t.pwr = s.pwr :=
  ⟨_, hexec, State.ctxFault_rwp .., (State.ctxFault_within ..).same_pwr⟩

/-- What a completed pair of RST_CTL does: context 0 requests, and another faults. -/
theorem rstPair_zero {s t u : State} (hup : s.pwr.up = true) :
    (if !s.pwr.up then s else if (0 : Fin 8).val == 0 then t else u) = t := by
  rw [hup]
  rfl

theorem rstPair_other {s t u : State} {ctx : Fin 8} (hup : s.pwr.up = true) (hctx : ctx ≠ 0) :
    (if !s.pwr.up then s else if ctx.val == 0 then t else u) = u := by
  have hne : (ctx.val == 0) = false := beq_false_of_ne fun h => hctx (Fin.ext h)
  rw [hup, hne]
  rfl

/-! ### The action of RST_CTL (R583) -/

/-- The request at the front is taken from the queue, and RST_CTL shows no request when none is left. -/
def State.rstTaken (s : State) (rest : List (Nat × Nat)) : State :=
  (s.onPwr fun p => { p with actions := rest }).when rest.isEmpty fun s => s.setReg F.RST_CTL_ISLAND.base 0

theorem State.rstTaken_within (s : State) (rest : List (Nat × Nat)) : Within [.regs, .pwr] s (s.rstTaken rest) :=
  Within.when _ _ (fun _ => (State.setReg_within ..).mono (by decide)) ((State.onPwr_within ..).mono (by decide))

theorem State.rstTaken_pwr (s : State) (rest : List (Nat × Nat)) : (s.rstTaken rest).pwr = { s.pwr with actions := rest } := by
  rw [State.rstTaken, State.when]
  split <;> rfl

/-- A request whose moment has come acts: POWER_OFF before WARM before ISLAND and FOLD. -/
theorem exec_rstCtlAction {s : State} {v a : Nat} {rest : List (Nat × Nat)} (hacts : s.pwr.actions = (v, a) :: rest) (hdue : a ≤ s.time.aon) :
    exec .rstCtlAction s = .next (
      if bitOf v 17 then ((s.rstTaken rest).hardBlank.powerDown).onPwr fun p => { p with off := true }
      else if bitOf v 16 then ((s.rstTaken rest).coldStart F.RST_CAUSE_WARM 2).releaseNode
      else ((s.rstTaken rest).each (bitList v 8) fun s i => s.rstIsland i).each (bitList (v / 2 ^ 12) 4) fun s n => s.foldReset n) := by
  show execRstCtlAction s = _
  rw [execRstCtlAction, hacts]
  exact congrArg Host.Outcome.next (if_neg hdue.not_gt)

/-- POWER_OFF takes the node down, and ends what still waits. -/
theorem rstCtlAction_powerOff {s : State} {v a : Nat} {rest : List (Nat × Nat)} (hbit : bitOf v 17 = true)
    (hacts : s.pwr.actions = (v, a) :: rest) (hdue : a ≤ s.time.aon) :
    yields .rstCtlAction s fun t => t.pwr.actions = [] ∧ t.pwr.off = true ∧ t.pwr.step = 0 ∧ t.mem = [] := by
  refine ⟨_, (exec_rstCtlAction hacts hdue).trans (congrArg _ (if_pos hbit)), ?_⟩
  dsimp only
  rw [State.onPwr_pwr, State.onPwr_mem, State.powerDown_pwr, State.powerDown_mem]
  exact ⟨rfl, rfl, rfl, rfl⟩

/-- WARM resets the node and starts it again. -/
theorem rstCtlAction_warm {s : State} {v a : Nat} {rest : List (Nat × Nat)} (hoff : bitOf v 17 = false) (hbit : bitOf v 16 = true)
    (hacts : s.pwr.actions = (v, a) :: rest) (hdue : a ≤ s.time.aon) (hreset : s.pwr.resetN = true) :
    yields .rstCtlAction s fun t => t.pwr.actions = [] ∧ t.pwr.up = true ∧ t.boot.romDue = true ∧ t.mem = s.mem := by
  have hexec := (exec_rstCtlAction hacts hdue).trans (congrArg _ ((if_neg (by rw [hoff]; decide)).trans (if_pos hbit)))
  refine ⟨_, hexec, ?_⟩
  have htaken : (s.rstTaken rest).pwr.resetN = true := by rw [State.rstTaken_pwr]; exact hreset
  have hmem : (s.rstTaken rest).mem = s.mem := (s.rstTaken_within rest).same_mem
  generalize s.rstTaken rest = taken at htaken hmem
  have hcold : (taken.coldStart F.RST_CAUSE_WARM 2).pwr = (taken.nodeReset true).pwr := by
    rw [State.coldStart, State.onBoot_pwr, (State.cause_within ..).same_pwr]
  rw [State.nodeReset_pwr] at hcold
  have hreleased : (taken.coldStart F.RST_CAUSE_WARM 2).pwr.resetN = true := by rw [hcold]; exact htaken
  refine ⟨?_, ?_, ?_, ?_⟩
  · rw [State.releaseNode_pwr hreleased, hcold]
  · rw [State.releaseNode_pwr hreleased]
  · rw [(State.releaseNode_within _).same_boot, State.coldStart, State.onBoot_boot]
  · rw [(State.releaseNode_within _).same_mem, State.coldStart, State.onBoot_mem, (State.cause_within ..).same_mem,
      State.nodeReset_mem, if_pos rfl, hmem]

/-- Of the power state an island's reset takes the PCIe link alone. -/
theorem State.islandContent_actions (s : State) (i : Nat) : (s.islandContent i).pwr.actions = s.pwr.actions := by
  unfold State.islandContent
  extract_lets closed quiet dark
  split
  · have hclosed : closed.pwr = s.pwr := State.each_keeps State.pwr _ _ _ fun x p => (State.movePort_within ..).same_pwr
    rw [State.onLink_pwr, hclosed]
  split
  · rw [State.onTime_pwr, (State.lockReset_within s).same_pwr]
  split
  · have hdark : dark.pwr = s.pwr :=
      (State.each_keeps State.pwr _ _ _ fun _ _ => (State.onLGroup_within ..).same_pwr).trans
        (State.each_keeps State.pwr _ _ _ fun _ _ => (State.onLPort_within ..).same_pwr)
    rw [State.onLamp_pwr, (State.invalidateAll_within _).same_pwr, hdark]
  split
  · rw [State.each_keeps State.pwr _ _ _ fun x r => (State.dpLost_within x r).same_pwr]
  split
  · rw [State.onIngest_pwr]
  split
  · rw [State.onPwr_pwr]
  · rfl

theorem State.resetIsland_actions (s : State) (i : Nat) (counted : Bool) : (s.resetIsland i counted).pwr.actions = s.pwr.actions := by
  unfold State.resetIsland
  split
  · rfl
  · extract_lets emptied held
    have hemptied : emptied.pwr.actions = s.pwr.actions := by
      dsimp only [emptied]
      split
      · rfl
      · rw [(State.selfRefresh_within ..).same_pwr, (State.resetStatus_within ..).same_pwr, State.islandContent_actions,
          (State.dropFlights_within ..).same_pwr]
    have hheld : held.pwr = emptied.pwr := State.onXing_pwr ..
    clear_value held emptied
    rw [(State.transports_within _).same_pwr, (State.islandRegs_within _).same_pwr, ← hemptied, ← hheld]
    split
    · rw [State.inc_pwr]
    · rfl

/-- What the requests of islands act on: the reset of one island, the gates, and how many resets there are. -/
def State.resetOf (s : State) (i : Nat) : Bool × List Bool × Nat := (nth s.xing.inReset i false, s.xing.gated, s.xing.inReset.length)

/-- The request of another island leaves the reset of this one. -/
theorem State.rstIsland_other (s : State) {i b : Nat} (h : b ≠ i) : (s.rstIsland b).resetOf i = s.resetOf i := by
  have hreset : (s.resetIsland b false).resetOf i = s.resetOf i := by
    by_cases hheld : (b == iAON || nth s.xing.gated b false) = true
    · rw [State.resetIsland, if_pos hheld]
    · rw [Bool.or_eq_true, not_or, beq_iff_eq, Bool.not_eq_true] at hheld
      have hlines := State.resetIsland_lines false hheld.1 hheld.2
      have hgated : (s.resetIsland b false).xing.gated = s.xing.gated := by
        rw [show (s.resetIsland b false).xing.gated = (s.resetIsland b false).lines.gated from rfl, hlines]
        rfl
      have hin : (s.resetIsland b false).xing.inReset = modAt s.xing.inReset b fun _ => true := by
        rw [show (s.resetIsland b false).xing.inReset = (s.resetIsland b false).lines.inReset from rfl, hlines]
      rw [State.resetOf, hgated, hin, nth_modAt_ne _ _ _ _ _ h.symm, modAt_length, State.resetOf]
  exact hreset

/-- The request of an island leaves it in reset. -/
theorem State.rstIsland_inReset {s : State} {i : Nat} (hi : i < 8) (hgated : nth s.xing.gated i false = false)
    (hlen : s.xing.inReset.length = 9) : nth (s.rstIsland i).xing.inReset i false = true := by
  have haon : i ≠ iAON := hi.ne
  exact State.resetIsland_inReset false haon hgated (hlen.symm ▸ hi.trans (by decide)) false

/-- The islands that a request names are in reset, whatever other islands it names. -/
theorem State.rstIslands_inReset {s : State} {v i : Nat} (hbit : bitOf v i = true) (hi : i < 8) (hgated : nth s.xing.gated i false = false)
    (hlen : s.xing.inReset.length = 9) :
    nth (s.each (bitList v 8) fun t k => t.rstIsland k).xing.inReset i false = true := by
  have hmem : i ∈ bitList v 8 := List.mem_filter.mpr ⟨List.mem_range.mpr hi, hbit⟩
  refine State.each_at (fun t : State => t.resetOf i) (fun r => r.1 = true) (List.nodup_range.filter _) hmem
    (fun t k hk => t.rstIsland_other hk) fun t ht => ?_
  have hsame : t.xing.gated = s.xing.gated ∧ t.xing.inReset.length = s.xing.inReset.length := by
    rw [State.resetOf, State.resetOf, Prod.mk.injEq, Prod.mk.injEq] at ht
    exact ht.2
  exact State.rstIsland_inReset hi (hsame.1 ▸ hgated) (hsame.2.trans hlen)

theorem State.rstIsland_actions (s : State) (i : Nat) : (s.rstIsland i).pwr.actions = s.pwr.actions := by
  rw [State.rstIsland, State.onXing_pwr, State.resetIsland_actions]

/-- ISLAND and FOLD reset what they name, and frame memory stays. -/
theorem rstCtlAction_islands {s : State} {v a : Nat} {rest : List (Nat × Nat)} {isl : Fin 9} (hacts : s.pwr.actions = (v, a) :: rest)
    (hdue : a ≤ s.time.aon) (hoff : bitOf v 17 = false) (hwarm : bitOf v 16 = false) (hbit : bitOf v isl.val = true) (hisl : isl.val < 8)
    (hgated : nth s.xing.gated isl.val false = false) (hlen : s.xing.inReset.length = 9) :
    yields .rstCtlAction s fun t => t.pwr.actions = rest ∧ nth t.xing.inReset isl.val false = true ∧ t.mem = s.mem := by
  have hexec := (exec_rstCtlAction hacts hdue).trans
    (congrArg _ ((if_neg (by rw [hoff]; decide)).trans (if_neg (by rw [hwarm]; decide))))
  refine ⟨_, hexec, ?_⟩
  have hxing : (s.rstTaken rest).xing = s.xing := (s.rstTaken_within rest).same_xing
  have hmem : (s.rstTaken rest).mem = s.mem := (s.rstTaken_within rest).same_mem
  have hpwr : (s.rstTaken rest).pwr.actions = rest := by rw [State.rstTaken_pwr]
  generalize s.rstTaken rest = taken at hxing hmem hpwr
  dsimp only
  refine ⟨?_, ?_, ?_⟩
  · rw [State.each_keeps (fun t : State => t.pwr.actions) (bitList (v / 2 ^ 12) 4) _ _ fun x n =>
        congrArg Pwr.actions (State.foldReset_within x n).same_pwr,
      State.each_keeps (fun t : State => t.pwr.actions) (bitList v 8) _ _ fun x i => x.rstIsland_actions i, hpwr]
  · rw [State.each_keeps State.xing (bitList (v / 2 ^ 12) 4) _ _ fun x n => (State.foldReset_within x n).same_xing]
    exact State.rstIslands_inReset hbit hisl (hxing ▸ hgated) (hxing ▸ hlen)
  · rw [State.each_keeps State.mem (bitList (v / 2 ^ 12) 4) _ _ fun x n => (State.foldReset_within x n).same_mem,
      State.each_keeps State.mem (bitList v 8) _ _ fun x i => (State.rstIsland_within x i).same_mem, hmem]

/-- Before its moment a request does nothing. -/
theorem exec_rstCtlAction_early {s : State} {v a : Nat} {rest : List (Nat × Nat)} (hacts : s.pwr.actions = (v, a) :: rest)
    (hearly : s.time.aon < a) : exec .rstCtlAction s = .next s := by
  show execRstCtlAction s = _
  rw [execRstCtlAction, hacts]
  exact congrArg Host.Outcome.next (if_pos hearly)

/-- Settles O2. -/
theorem resetRequestsAct : Obligations.ResetRequestsAct := by
  refine ⟨fun s hup => ?_, fun s hup => ?_, fun s mask hup => ?_, fun s mask hup => ?_, fun s ctx hup hctx => ?_, fun s ctx hup hctx => ?_,
    fun s ctx mask hup hctx => ?_, fun s ctx mask hup hctx => ?_, fun s v a rest hbit hacts hdue => ?_,
    fun s v a rest hoff hbit hacts hdue hreset => ?_, fun s v a rest isl hacts hdue hoff hwarm hbit hisl hgated hlen => ?_,
    fun s v a rest hacts hearly => ?_⟩
  · exact yields_rstRequest hup (congrArg _ (rstPair_zero hup)) (by decide)
  · exact yields_rstRequest hup (congrArg _ (rstPair_zero hup)) (by decide)
  · exact yields_rstRequest hup (congrArg _ (rstPair_zero hup)) (land_islandBits mask)
  · exact yields_rstRequest hup (congrArg _ (rstPair_zero hup)) (land_foldBits mask)
  · exact yields_rwpFault (congrArg _ (rstPair_other hup hctx))
  · exact yields_rwpFault (congrArg _ (rstPair_other hup hctx))
  · exact yields_rwpFault (congrArg _ (rstPair_other hup hctx))
  · exact yields_rwpFault (congrArg _ (rstPair_other hup hctx))
  · exact rstCtlAction_powerOff hbit hacts hdue
  · exact rstCtlAction_warm hoff hbit hacts hdue hreset
  · exact rstCtlAction_islands hacts hdue hoff hwarm hbit hisl hgated hlen
  · exact ⟨s, exec_rstCtlAction_early hacts hearly, rfl⟩

end Sys2Proof.Machine
end

section
/-! PROOFS. What the start of the node leaves of RST_CAUSE, BOOT_STATUS, MEM_CFG and MEM_STATUS.TRAINED (spec/16_boot_and_update.md R516;
spec/18_power_and_reset.md R588): no operation between the training of memory and the running image, and none of a release of the islands,
writes them. One lemma for each operation. -/
set_option Elab.async false
namespace Sys2Proof.Machine

/-! ### The registers that a start leaves -/

/-- RST_CAUSE, BOOT_STATUS, MEM_CFG and the TRAINED bit of MEM_STATUS. -/
def State.sight (s : State) : Word × Word × Word × Bool :=
  (s.reg 0x204, s.reg 0x7e0000, s.reg 0x700000, s.b F.MEM_STATUS_TRAINED)

/-- The offsets of those registers. -/
def sighted : List Nat := [0x204, 0x7e0000, 0x700000, 0x700008]

/-- A field of another register. -/
abbrev aside (f : Fld) (i j : Nat) : Prop := f.addr i j ∉ sighted

/-- A field of a context stands in a page of its own. -/
theorem aside_page {f : Fld} (h : f.s1 = 0x1000 ∧ f.s2 = 0 ∧ ∀ a ∈ sighted, a % 0x1000 ≠ f.base % 0x1000) (i : Nat) : aside f i 0 := by
  obtain ⟨h1, h2, hpage⟩ := h
  intro hmem
  refine hpage _ hmem ?_
  rw [Fld.addr, h1, h2]
  omega

/-- A field of one of the first `n` instances. -/
theorem aside_lt {f : Fld} {i n : Nat} (hi : i < n) (h : ∀ k < n, aside f k 0) : aside f i 0 := h i hi

theorem State.sight_of_reg {s t : State} (h : ∀ a ∈ sighted, t.reg a = s.reg a) : t.sight = s.sight := by
  rw [State.sight, State.b, State.f_congr (t := s) (h 0x700008 (by decide)), h 0x204 (by decide), h 0x7e0000 (by decide),
    h 0x700000 (by decide), State.sight, State.b]

theorem State.sight_of_regs {s t : State} (h : t.regs = s.regs) : t.sight = s.sight :=
  State.sight_of_reg fun a _ => by rw [State.reg, h, State.reg]

theorem State.sight_put (s : State) {f : Fld} (v : Nat) {i j : Nat} (h : aside f i j) : (s.put f v i j).sight = s.sight :=
  State.sight_of_reg fun _ ha => State.reg_put_ne _ _ _ _ _ _ (ne_of_mem_of_not_mem ha h)

theorem State.sight_flag (s : State) {f : Fld} (v : Bool) {i j : Nat} (h : aside f i j) : (s.flag f v i j).sight = s.sight :=
  s.sight_put _ h
theorem State.sight_inc (s : State) {f : Fld} {i j : Nat} (h : aside f i j) : (s.inc f i j).sight = s.sight := s.sight_put _ h
theorem State.sight_putS (s : State) {f : Fld} (v : Int) {i j : Nat} (h : aside f i j) : (s.putS f v i j).sight = s.sight :=
  s.sight_put _ h
theorem State.sight_zero (s : State) {f : Fld} {i j : Nat} (h : aside f i j) : (s.zero f i j).sight = s.sight :=
  State.sight_of_reg fun _ ha => (State.reg_zero ..).trans (if_neg (ne_of_mem_of_not_mem ha h))
theorem State.sight_put64 (s : State) {lo hi : Fld} (v : Nat) {i : Nat} (hlo : aside lo i 0) (hhi : aside hi i 0) :
    (s.put64 lo hi v i).sight = s.sight := (State.sight_put _ _ hhi).trans (s.sight_put _ hlo)

/-- Another bit of MEM_STATUS. -/
theorem State.sight_memStatus (s : State) {f : Fld} (v : Bool) (haddr : f.addr 0 0 = 0x700008) (hlo : 1 ≤ f.lo) (hw : f.lo + f.w ≤ 32) :
    (s.flag f v).sight = s.sight := by
  have hreg {a : Nat} (ha : a ≠ 0x700008) : (s.flag f v).reg a = s.reg a := State.reg_put_ne _ _ _ _ _ _ (haddr ▸ ha)
  rw [State.sight, hreg (by decide), hreg (by decide), hreg (by decide), State.b_flag_other (g := F.MEM_STATUS_TRAINED) _ _ hw (.inr (.inl hlo)),
    State.sight]

/-! ### Loops and choices -/

theorem State.sight_each {α : Type} (l : List α) {f : State → α → State} (s : State) (h : ∀ x, ∀ a ∈ l, (f x a).sight = x.sight) :
    (s.each l f).sight = s.sight := State.each_keeps_mem State.sight l f s h

theorem State.sight_range (n : Nat) {f : State → Nat → State} (s : State) (h : ∀ x, ∀ k < n, (f x k).sight = x.sight) :
    (s.each (List.range n) f).sight = s.sight := s.sight_each _ fun x k hk => h x k (List.mem_range.mp hk)

theorem State.sight_when {s : State} (c : Bool) {f : State → State} (h : (f s).sight = s.sight) : (s.when c f).sight = s.sight := by
  rw [State.when]
  split
  · exact h
  · rfl

theorem State.sight_ite {c : Prop} [Decidable c] {s t u : State} (ht : t.sight = s.sight) (hu : u.sight = s.sight) :
    (if c then t else u).sight = s.sight := by
  split
  · exact ht
  · exact hu

/-! ### Interrupts and events (R420, R425) -/

theorem State.irq_sight (s : State) {f : Fld} {c : Nat} (h : aside f c 0) : (s.irq f c).sight = s.sight :=
  State.sight_of_reg fun _ ha => s.irq_reg f c (ne_of_mem_of_not_mem ha h)

theorem State.irqAll_sight (s : State) {f : Fld} (h : ∀ c < 8, aside f c 0) : (s.irqAll f).sight = s.sight :=
  s.sight_range 8 fun x c hc => x.irq_sight (h c hc)

theorem State.timeEvent_sight (s : State) {f : Fld} (h : aside f 0 0) : (s.timeEvent f).sight = s.sight :=
  (State.irqAll_sight _ (by decide)).trans (s.sight_flag _ h)

theorem State.thermEvent_sight (s : State) {f : Fld} (h : aside f 0 0) : (s.thermEvent f).sight = s.sight :=
  (State.irqAll_sight _ (by decide)).trans (s.sight_flag _ h)

theorem State.transports_sight (s : State) : s.transports.sight = s.sight :=
  s.sight_range 8 fun x c hc => (State.sight_of_regs (State.judgeBounds_within ..).same_regs).trans
    (x.sight_flag _ (aside_lt hc (by decide)))

/-! ### The clock (R169 to R172, R183) -/

theorem State.lockReset_sight (s : State) : s.lockReset.sight = s.sight :=
  State.sight_of_reg fun a ha => s.lockReset_reg (ne_of_mem_of_not_mem ha (by decide)) (ne_of_mem_of_not_mem ha (by decide))
    ((by decide : ∀ a ∈ sighted, a % 16 ≠ 12) a ha)

theorem State.setErr_sight (s : State) (off : Int) (err : Nat) : (s.setErr off err).sight = s.sight := by
  unfold State.setErr
  extract_lets e
  rw [State.sight_flag _ _ (by decide), State.sight_flag _ _ (by decide), State.sight_put _ _ (by decide), State.sight_putS _ _ (by decide)]

theorem State.holdover_sight (s : State) : s.holdover.sight = s.sight := by
  unfold State.holdover
  extract_lets r
  refine State.sight_ite rfl ?_
  rw [State.timeEvent_sight _ (by decide), State.sight_put _ _ (by decide), State.sight_of_regs (State.onTime_regs ..),
    State.sight_putS _ _ (by decide)]

theorem State.restarts_regs (s : State) (c : Nat) : (s.restarts c).regs = s.regs := (State.restarts_within s c).same_regs

theorem State.stepClock_sight (s : State) (c st : Nat) : (s.stepClock c st).sight = s.sight := by
  rw [State.stepClock, State.sight_of_regs (State.healthFrom_within _).same_regs, State.timeEvent_sight _ (by decide),
    State.sight_put _ _ (by decide), State.sight_put _ _ (by decide), State.sight_of_regs (State.onTime_regs ..),
    State.sight_of_regs (State.restarts_regs ..)]

theorem State.bwStep_sight (s : State) (c st src : Nat) : (s.bwStep c st src).sight = s.sight := by
  unfold State.bwStep
  extract_lets g noted stepped
  have hstepped : stepped.sight = noted.sight := by
    rw [State.timeEvent_sight _ (by decide), State.stepClock_sight, State.sight_of_regs (State.onTime_regs ..)]
  clear_value stepped
  rw [State.setErr_sight, State.sight_put _ _ (by decide), State.sight_put _ _ (by decide), State.sight_put _ _ (by decide), hstepped,
    State.sight_of_regs (State.onRing_regs ..)]

theorem State.bwRelock_sight (s : State) : s.bwRelock.sight = s.sight := by
  unfold State.bwRelock State.electStep
  extract_lets m
  exact State.sight_ite (State.sight_ite (s.bwStep_sight ..) (State.sight_ite (s.bwStep_sight ..)
    ((State.holdover_sight _).trans (s.bwStep_sight ..)))) rfl

theorem State.slewTo_sight (s : State) (p : Nat) : (s.slewTo p).sight = s.sight := by
  unfold State.slewTo
  extract_lets q slewing
  have hslewing : slewing.sight = s.sight := (State.timeEvent_sight _ (by decide)).trans (s.sight_put _ (by decide))
  exact State.sight_ite (((State.sight_putS _ _ (by decide)).trans (State.setErr_sight ..)).trans hslewing) hslewing

theorem State.reSource_sight (s : State) : s.reSource.sight = s.sight := by
  unfold State.reSource
  refine State.sight_ite rfl ?_
  split
  · exact (State.holdover_sight _).trans (s.sight_put _ (by decide))
  · extract_lets old changed followed
    have hfollowed : followed.sight = s.sight := by
      rw [State.sight_of_regs (State.onTime_regs ..), State.sight_put _ _ (by decide), State.sight_put _ _ (by decide)]
    exact (State.sight_when _ (State.slewTo_sight ..)).trans hfollowed

theorem State.ewDiff_sight (s : State) : s.ewDiff.sight = s.sight := by
  unfold State.ewDiff
  extract_lets ok shown
  have hshown : shown.sight = s.sight := s.sight_flag _ (by decide)
  exact State.sight_ite ((State.sight_putS _ _ (by decide)).trans hshown) hshown

/-! ### Ports (R85, R97, R100) -/

/-- A lane of one of the seven ports. -/
theorem lane_lt {p n : Nat} (hp : p < 7) (hn : n ∈ lanesOf p) : n < 32 := by
  simp only [lanesOf, List.mem_cons, List.not_mem_nil, or_false] at hn
  omega

theorem State.judgeRings_sight (s : State) : s.judgeRings.sight = s.sight := by
  unfold State.judgeRings
  refine State.sight_ite (s.sight_range 6 fun x r hr => ?_) rfl
  rw [State.sight_flag _ _ (aside_lt hr (by decide)), State.sight_flag _ _ (aside_lt hr (by decide)),
    State.sight_flag _ _ (aside_lt hr (by decide))]

theorem State.ringBreak_sight (s : State) (p : Nat) : (s.ringBreak p).sight = s.sight := by
  unfold State.ringBreak
  extract_lets cut resynced sourced
  have hcut : cut.sight = s.sight := State.sight_of_regs (State.unsyncIfCut_within s).same_regs
  have hresynced : resynced.sight = s.sight := State.sight_ite hcut hcut
  have hsourced : sourced.sight = s.sight :=
    State.sight_ite (((State.ewDiff_sight _).trans (State.reSource_sight _)).trans hresynced) hresynced
  exact (State.judgeRings_sight _).trans hsourced

theorem State.setTaps_sight (s : State) {n : Nat} (hn : n < 32) (m2 m1 c0 p1 : Int) : (s.setTaps n m2 m1 c0 p1).sight = s.sight := by
  rw [State.setTaps, State.sight_putS _ _ (aside_lt hn (by decide)), State.sight_put _ _ (aside_lt hn (by decide)),
    State.sight_putS _ _ (aside_lt hn (by decide)), State.sight_putS _ _ (aside_lt hn (by decide))]

theorem State.applyEq_sight (s : State) {n : Nat} (hn : n < 32) : (s.applyEq n).sight = s.sight := by
  unfold State.applyEq
  extract_lets peaked fed
  have hpeaked : peaked.sight = s.sight := State.sight_ite rfl (s.sight_put _ (aside_lt hn (by decide)))
  have hfed : fed.sight = peaked.sight := State.sight_ite rfl (State.sight_put _ _ (aside_lt hn (by decide)))
  rw [State.sight_of_regs (State.onLane_within ..).same_regs, hfed, hpeaked]

theorem State.applyPending_sight (s : State) {n : Nat} (hn : n < 32) : (s.applyPending n).sight = s.sight := by
  unfold State.applyPending
  extract_lets tapped
  have htapped : tapped.sight = s.sight := by
    dsimp only [tapped]
    split
    · exact (State.sight_of_regs (State.onLane_within ..).same_regs).trans (s.setTaps_sight hn ..)
    · rfl
  rw [State.sight_when _ (State.sight_of_regs (State.applyCdr_within ..).same_regs), State.sight_when _ (State.applyEq_sight _ hn), htapped]

theorem State.leaveUp_sight (s : State) {p : Nat} (hp : p < 7) : (s.leaveUp p).sight = s.sight := by
  unfold State.leaveUp
  extract_lets unchained left
  have hleft : left.sight = s.sight := by
    rw [State.sight_of_regs (State.onPd_within ..).same_regs, State.sight_flag _ _ (aside_lt hp (by decide)),
      State.sight_flag _ _ (aside_lt hp (by decide))]
  exact (State.sight_each _ _ fun x n hn => x.applyPending_sight (lane_lt hp hn)).trans hleft

theorem State.endMission_sight (s : State) {p : Nat} (hp : p < 7) : (s.endMission p).sight = s.sight := by
  unfold State.endMission
  extract_lets ended
  rw [State.sight_of_regs (State.onRing_regs ..)]
  refine s.sight_each _ fun x n hn => ?_
  have hlane := lane_lt hp hn
  rw [State.sight_flag _ _ (aside_lt hlane (by decide)), State.sight_flag _ _ (aside_lt hlane (by decide)),
    State.sight_flag _ _ (aside_lt hlane (by decide))]

theorem State.movePort_sight (s : State) {p : Nat} (hp : p < 7) (st : Nat) : (s.movePort p st).sight = s.sight := by
  unfold State.movePort
  extract_lets was moved broken judged carried left ended dark dropped trained checked
  have hmoved : moved.sight = s.sight :=
    (State.sight_of_regs (State.onPort_within ..).same_regs).trans (s.sight_put _ (aside_lt hp (by decide)))
  have hbroken : broken.sight = moved.sight := State.sight_when _ (State.ringBreak_sight ..)
  have hjudged : judged.sight = broken.sight := State.sight_when _ (State.judgeRings_sight _)
  have hcarried : carried.sight = judged.sight := State.sight_when _ (State.transports_sight _)
  have hleft : left.sight = carried.sight := State.sight_when _ (State.leaveUp_sight _ hp)
  have hended : ended.sight = left.sight := State.sight_when _ (State.endMission_sight _ hp)
  have hdark : dark.sight = ended.sight := State.sight_when _ (State.sight_each _ _ fun x n hn =>
    x.sight_flag _ (aside_lt (lane_lt hp hn) (by decide)))
  have hdropped : dropped.sight = dark.sight := State.sight_when _ (State.sight_each _ _ fun _ _ _ =>
    State.sight_of_regs (State.onLane_within ..).same_regs)
  have htrained : trained.sight = dropped.sight := State.sight_when _ (State.sight_each _ _ fun _ _ _ =>
    State.sight_of_regs (State.onLane_within ..).same_regs)
  have hchecked : checked.sight = trained.sight := State.sight_when _ (State.sight_flag _ _ (aside_lt hp (by decide)))
  clear_value checked
  have hstarted : (checked.startMission p).sight = checked.sight := State.sight_of_regs (State.startMission_within ..).same_regs
  refine (State.sight_when (f := fun s => s.startMission p) _ hstarted).trans ?_
  rw [hchecked, htrained, hdropped, hdark, hended, hleft, hcarried, hjudged, hbroken, hmoved]

theorem State.toDetect_sight (s : State) {p : Nat} (hp : p < 7) (keep : List Nat) : (s.toDetect p keep).sight = s.sight := by
  unfold State.toDetect
  extract_lets moved cfg noted laned
  have hmoved : moved.sight = s.sight := s.movePort_sight hp _
  have hnoted : noted.sight = moved.sight := State.sight_of_regs (State.onPort_within ..).same_regs
  have hlaned : laned.sight = noted.sight := State.sight_each _ _ fun x n hn => by
    rw [State.sight_flag _ _ (aside_lt (lane_lt hp hn) (by decide)), State.sight_of_regs (State.tickFresh_within _).same_regs,
      State.sight_of_regs (State.onLane_within ..).same_regs]
  have hdone : laned.sight = s.sight := hlaned.trans (hnoted.trans hmoved)
  exact State.sight_ite ((State.movePort_sight _ hp _).trans hdone) hdone

theorem State.enablePort_sight (s : State) {p : Nat} (hp : p < 7) : (s.enablePort p).sight = s.sight := by
  unfold State.enablePort
  extract_lets on_
  have hon : on_.sight = s.sight := s.sight_flag _ (aside_lt hp (by decide))
  exact State.sight_ite hon (State.sight_ite ((State.sight_put _ _ (aside_lt hp (by decide))).trans hon)
    ((State.toDetect_sight _ hp _).trans hon))

/-! ### Releases of the islands (R467, R583) -/

theorem State.islandRegs_sight (s : State) : s.islandRegs.sight = s.sight := by
  refine s.sight_range 9 fun x i hi => ?_
  dsimp only
  rw [State.sight_flag _ _ (aside_lt hi (by decide)), State.sight_flag _ _ (aside_lt hi (by decide)), State.sight_put _ _ (by decide),
    State.sight_put _ _ (by decide)]

theorem State.selfRefresh_sight (s : State) (i : Nat) (v : Bool) : (s.selfRefresh i v).sight = s.sight :=
  State.sight_when _ (s.sight_range 8 fun x c hc => x.sight_flag _ (aside_lt hc (by decide)))

theorem State.lampStatus_sight (s : State) : s.lampStatus.sight = s.sight := by
  unfold State.lampStatus
  extract_lets grouped bitsOf ports blanked padded chained
  have hgrouped : grouped.sight = s.sight := s.sight_range 4 fun x g hg =>
    (State.sight_flag _ _ (aside_lt hg (by decide))).trans (x.sight_flag _ (aside_lt hg (by decide)))
  have hblanked : blanked.sight = grouped.sight := State.sight_flag _ _ (by decide)
  have hpadded : padded.sight = blanked.sight := State.sight_flag _ _ (by decide)
  have hchained : chained.sight = padded.sight := State.sight_flag _ _ (by decide)
  rw [State.sight_put _ _ (by decide), State.sight_put _ _ (by decide), hchained, hpadded, hblanked, hgrouped]

theorem State.scrubAnew_sight (s : State) : s.scrubAnew.sight = s.sight := by
  have hrebased : s.rebaseScrub.sight = s.sight := State.sight_of_regs (State.onMst_regs ..)
  unfold State.scrubAnew State.judgeScrub
  extract_lets due lag
  exact State.sight_ite ((State.sight_memStatus _ _ rfl (by decide) (by decide)).trans hrebased)
    (State.sight_ite ((State.sight_memStatus _ _ rfl (by decide) (by decide)).trans hrebased) hrebased)

theorem State.islandStart_sight (s : State) (i : Nat) : (s.islandStart i).sight = s.sight := by
  unfold State.islandStart
  exact State.sight_ite (s.sight_range 7 fun x p hp => State.sight_ite (x.toDetect_sight hp []) rfl)
    (State.sight_ite s.bwRelock_sight (State.sight_ite s.lampStatus_sight (State.sight_ite s.scrubAnew_sight rfl)))

theorem State.releaseIsland_sight (s : State) (i : Nat) : (s.releaseIsland i).sight = s.sight := by
  unfold State.releaseIsland
  refine State.sight_ite rfl ?_
  rw [State.islandStart_sight, State.selfRefresh_sight, State.transports_sight, State.islandRegs_sight,
    State.sight_of_regs (State.onXing_regs ..)]

theorem State.releaseNode_sight (s : State) : s.releaseNode.sight = s.sight := by
  unfold State.releaseNode
  exact State.sight_ite ((State.sight_each _ _ fun x i _ => x.releaseIsland_sight i).trans (State.sight_of_regs (State.onPwr_regs ..))) rfl

/-! ### The hand-off to the image (R412, R448, R493, R523, R531, R550) -/

theorem State.newChallenge_sight (s : State) : s.newChallenge.sight = s.sight :=
  State.sight_of_reg fun a ha => s.newChallenge_reg ((by decide : ∀ a ∈ sighted, a < 0x7e0320 ∨ 0x7e0340 ≤ a) a ha)

theorem State.loadKey_sight (s : State) : s.loadKey.sight = s.sight := by
  unfold State.loadKey State.unwrap
  split
  · split
    · rw [State.sight_of_regs (State.onBoot_regs ..), State.sight_flag _ _ (by decide), State.sight_put _ _ (by decide),
        State.sight_flag _ _ (by decide)]
    · exact s.sight_flag _ (by decide)
  · rfl

theorem State.foldEnable_sight (s : State) {n : Nat} (hn : n < 4) (v : Bool) (at_ : Nat) : (s.foldEnable n v at_).sight = s.sight := by
  unfold State.foldEnable
  extract_lets enabled waiting
  have henabled : enabled.sight = s.sight := s.sight_flag _ (aside_lt hn (by decide))
  have hwaiting : waiting.sight = s.sight := (State.sight_of_regs (State.onFold_regs ..)).trans henabled
  refine State.sight_ite rfl (State.sight_ite (State.sight_ite ?_ ?_) (State.sight_ite ?_ ?_))
  · exact (State.sight_of_regs (State.runFrom_within ..).same_regs).trans henabled
  · exact (State.sight_of_regs (State.onFold_regs ..)).trans henabled
  · exact (State.sight_of_regs (State.onFold_regs ..)).trans hwaiting
  · exact (State.sight_put _ _ (aside_lt hn (by decide))).trans hwaiting

theorem State.defaultPrograms_sight (s : State) : s.defaultPrograms.sight = s.sight := by
  refine s.sight_each _ fun x n hn => ?_
  have hlt : n < 4 := (by decide : ∀ n ∈ [0, 1, 2, 3], n < 4) n hn
  dsimp only
  rw [State.foldEnable_sight _ hlt, State.sight_put _ _ (aside_lt hlt (by decide)), State.sight_of_regs (State.onFold_regs ..)]

theorem State.flockRegs_sight (s : State) : s.flockRegs.sight = s.sight := by
  unfold State.flockRegs
  extract_lets fs bw opened exclusive listed f timed ended n voted parts acked node
  have hexclusive : exclusive.sight = s.sight := (State.sight_flag _ _ (by decide)).trans (s.sight_put _ (by decide))
  have hlisted : listed.sight = exclusive.sight := State.sight_range 64 _ fun x k hk => by
    refine State.sight_ite (x.sight_zero (aside_lt hk (by decide))) ?_
    rw [State.sight_put _ _ (aside_lt hk (by decide)), State.sight_flag _ _ (aside_lt hk (by decide)),
      State.sight_put _ _ (aside_lt hk (by decide)), State.sight_put _ _ (aside_lt hk (by decide)),
      State.sight_put _ _ (aside_lt hk (by decide))]
  have htimed : timed.sight = listed.sight :=
    (State.sight_put _ _ (by decide)).trans (State.sight_put64 _ _ (by decide) (by decide))
  have hended : ended.sight = timed.sight := State.sight_put _ _ (by decide)
  have hvoted : voted.sight = ended.sight := (State.sight_put _ _ (by decide)).trans (State.sight_put _ _ (by decide))
  have hacked : acked.sight = voted.sight := (State.sight_put _ _ (by decide)).trans (State.sight_put _ _ (by decide))
  have hnode : node.sight = acked.sight := State.sight_put64 _ _ (by decide) (by decide)
  rw [State.sight_put _ _ (by decide), hnode, hacked, hvoted, hended, htimed, hlisted, hexclusive]

theorem State.keptRegs_sight (s : State) : s.keptRegs.sight = s.sight := by
  refine (State.sight_range 8 _ fun x c hc => ?_).trans s.flockRegs_sight
  unfold State.txRegs
  dsimp only
  rw [State.sight_put _ _ (aside_lt hc (by decide)), State.sight_put _ _ (aside_lt hc (by decide)),
    State.sight_put _ _ (aside_lt hc (by decide))]

/-! ### Errors of memory met by the boot (R430, R431, R456) -/

/-- A channel of memory is one of at most sixteen. -/
theorem State.memChannel_lt (s : State) (a : Nat) : s.memChannel a < 16 := by
  have hch : s.f F.MEM_CFG_CHANNELS < 16 := Nat.mod_lt _ (by decide)
  have hmod : a / 256 % max 1 (s.f F.MEM_CFG_CHANNELS) < max 1 (s.f F.MEM_CFG_CHANNELS) := Nat.mod_lt _ (by omega)
  rw [State.memChannel]
  omega

theorem State.memLog_sight (s : State) (a : Nat) (unc : Bool) (word cls : Nat) : (s.memLog a unc word cls).sight = s.sight := by
  unfold State.memLog
  extract_lets placed kind valid
  have hplaced : placed.sight = s.sight := (State.sight_put _ _ (by decide)).trans (s.sight_put _ (by decide))
  have hkind : kind.sight = placed.sight := (State.sight_flag _ _ (by decide)).trans (State.sight_put _ _ (by decide))
  have hvalid : valid.sight = kind.sight := (State.sight_flag _ _ (by decide)).trans (State.sight_put _ _ (by decide))
  rw [State.sight_put _ _ (by decide), State.sight_put _ _ (by decide), hvalid, hkind, hplaced]

theorem State.memError_sight (s : State) (a : Nat) (unc : Bool) (word cls : Nat) : (s.memError a unc word cls).sight = s.sight := by
  unfold State.memError
  extract_lets log logged g uncorrected corrected
  have hlogged : logged.sight = s.sight := State.sight_ite (s.memLog_sight ..) rfl
  have huncorrected : uncorrected.sight = logged.sight := by
    rw [State.sight_memStatus _ _ rfl (by decide) (by decide), State.sight_inc _ (aside_lt (State.memChannel_lt ..) (by decide)),
      State.sight_inc _ (by decide)]
  have hcorrected : corrected.sight = logged.sight := by
    rw [State.sight_memStatus _ _ rfl (by decide) (by decide), State.sight_inc _ (aside_lt (State.memChannel_lt ..) (by decide)),
      State.sight_inc _ (by decide)]
  refine State.sight_ite ?_ ?_
  · rw [State.sight_of_regs (State.onMst_regs ..), State.sight_of_regs (State.onBist_regs ..),
      State.sight_of_regs (State.noteFault_within _).same_regs, State.irqAll_sight _ (by decide), huncorrected, hlogged]
  · rw [State.sight_of_regs (State.onMst_regs ..), hcorrected, hlogged]

theorem State.memTouch_sight (s : State) (a n cls : Nat) : (s.memTouch a n cls).sight = s.sight :=
  State.sight_each _ _ fun x _ _ => x.memError_sight ..

theorem State.recErr_sight (s : State) (r : JRec) : (s.recErr r).sight = s.sight :=
  State.sight_each _ _ fun x _ _ => (State.sight_of_regs (State.memHeal_within ..).same_regs).trans (x.memTouch_sight ..)

theorem State.journalRegs_sight (s : State) : s.journalRegs.sight = s.sight := by
  rw [State.journalRegs, State.sight_put _ _ (by decide), State.sight_put _ _ (by decide)]

theorem State.usePeerRec_sight (s : State) (r : JRec) : (s.usePeerRec r).sight = s.sight := by
  unfold State.usePeerRec
  refine State.sight_ite rfl ?_
  rw [State.sight_of_regs (State.headSend_within ..).same_regs, State.journalRegs_sight, State.sight_of_regs (State.onHost_regs ..),
    State.recErr_sight]

theorem State.readJournal_sight (s : State) : s.readJournal.1.sight = s.sight := by
  unfold State.readJournal
  extract_lets bad touched met
  have htouched : touched.sight = s.sight :=
    State.sight_when _ ((State.sight_of_regs (State.memHeal_within ..).same_regs).trans (s.memTouch_sight ..))
  have hmet : met.sight = touched.sight := State.sight_each _ _ fun x r _ => x.recErr_sight r
  exact (State.sight_each _ _ fun x r _ => x.usePeerRec_sight r).trans (hmet.trans htouched)

/-! ### Completions of the journal that are written at boot (R402, R407, R410, R412) -/

theorem State.setNext_sight (s : State) (c v : Nat) : (s.setNext c v).sight = s.sight :=
  (State.sight_of_regs (State.onHost_regs ..)).trans (s.sight_put _ (aside_page (by decide) c))

theorem State.countInflight_sight (s : State) (c : Nat) : (s.countInflight c).sight = s.sight :=
  s.sight_put _ (aside_page (by decide) c)

theorem State.newEpoch_sight (s : State) : s.newEpoch.sight = s.sight := by
  unfold State.newEpoch
  extract_lets drawn e begun
  have hbegun : begun.sight = s.sight :=
    (State.sight_of_regs (State.onHost_regs ..)).trans (State.sight_of_regs (State.tickFresh_within s).same_regs)
  rw [State.sight_when _ (State.sight_of_regs (State.sendEpoch_within _).same_regs), State.journalRegs_sight]
  refine (State.sight_range 8 _ fun x c _ => ?_).trans hbegun
  rw [State.irq_sight _ (aside_page (by decide) c), State.sight_put _ _ (aside_page (by decide) c), State.setNext_sight,
    State.sight_put _ _ (aside_page (by decide) c)]

theorem State.complIrq_sight (s : State) (c : Nat) (k : Compl) : (s.complIrq c k).sight = s.sight := by
  unfold State.complIrq
  extract_lets kind
  exact State.sight_ite (s.irq_sight (aside_page (by decide) c)) (State.sight_when _ (s.irq_sight (aside_page (by decide) c)))

theorem State.writeCq_sight (s : State) (c : Nat) (k : Compl) : (s.writeCq c k).sight = s.sight := by
  unfold State.writeCq
  extract_lets t ph e queued tailed phased kind relayed noted sent
  have hqueued : queued.sight = s.sight := State.sight_of_regs (State.onCtx_within ..).same_regs
  have htailed : tailed.sight = queued.sight := State.sight_put _ _ (aside_page (by decide) c)
  have hphased : phased.sight = tailed.sight := State.sight_ite (State.sight_put _ _ (aside_page (by decide) c)) rfl
  have hnoted : noted.sight = phased.sight := State.sight_ite rfl
    (State.sight_ite (State.sight_of_regs (State.onRec_within ..).same_regs)
      (State.sight_ite (State.sight_of_regs (State.onRec_within ..).same_regs) rfl))
  have hsent : sent.sight = noted.sight := by
    dsimp only [sent]
    split
    · exact State.sight_when _ (State.sight_of_regs (State.emit_regs ..))
    · exact State.sight_of_regs (State.reply_within ..).same_regs
    · rfl
  rw [State.complIrq_sight, hsent, hnoted, hphased, htailed, hqueued]

theorem State.complete_sight (s : State) (c : Nat) (k : Compl) : (s.complete c k).sight = s.sight := by
  unfold State.complete
  refine State.sight_ite (s.writeCq_sight c k) ?_
  rw [State.sight_of_regs (State.onCtx_within ..).same_regs, State.sight_of_regs (State.judgeBounds_within ..).same_regs,
    State.sight_flag _ _ (aside_page (by decide) c)]

theorem State.flushItems_sight (n : Nat) (s : State) (c : Nat) : (State.flushItems n s c).sight = s.sight := by
  induction n generalizing s with
  | zero => rfl
  | succ n ih =>
    unfold State.flushItems
    split
    · exact (State.sight_of_regs (State.judgeBounds_within ..).same_regs).trans (s.sight_flag _ (aside_page (by decide) c))
    · refine State.sight_ite ?_ rfl
      rw [ih, State.writeCq_sight, State.sight_of_regs (State.onCtx_within ..).same_regs]

theorem State.writePending_sight (s : State) (r : JRec) : (s.writePending r).sight = s.sight := by
  unfold State.writePending
  extract_lets entry accepted
  have haccepted : accepted.sight = s.sight := State.sight_when _ (s.complete_sight ..)
  exact (State.sight_when _ (State.complete_sight ..)).trans haccepted

theorem State.journalBoot_sight (s : State) (ok : Bool) : (s.journalBoot ok).sight = s.sight := by
  unfold State.journalBoot
  extract_lets counted
  refine State.sight_ite ?_ ?_
  · exact (State.newEpoch_sight _).trans (State.sight_each _ _ fun _ _ _ => State.sight_of_regs (State.onCtx_within ..).same_regs)
  · have hcounted : counted.sight = s.sight := s.sight_range 8 fun x c _ => by
      rw [State.flushCq, State.flushItems_sight, State.countInflight_sight, State.setNext_sight,
        State.sight_put _ _ (aside_page (by decide) c)]
    exact (State.journalRegs_sight _).trans ((State.sight_each _ _ fun x r _ => x.writePending_sight r).trans hcounted)

/-! ### Calibration and what a tile loads (R275, R493, R535) -/

theorem State.calStart_sight (s : State) {u : Nat} (hu : u < 5) : (s.calStart u).sight = s.sight := by
  unfold State.calStart
  extract_lets busy
  have hbusy : busy.sight = s.sight := State.sight_of_regs (State.onTherm_regs ..)
  refine State.sight_ite (State.sight_of_regs (State.onTherm_regs ..)) ?_
  rw [State.sight_inc _ (aside_lt hu (by decide)), State.sight_putS _ _ (aside_lt hu (by decide)),
    State.sight_put _ _ ((by decide : ∀ u < 5, aside (calField u) 0 0) u hu), hbusy]

theorem State.addJob_sight (s : State) (j : Job) : (s.addJob j).sight = s.sight :=
  State.sight_of_regs (State.addJob_within ..).same_regs

/-- The tables of a calibration area are those of the four groups. -/
theorem calTables_lt {h : Bytes} {t : Nat × Nat × Nat × Nat} (ht : t ∈ calTables h) : t.1 < 4 := by
  obtain ⟨g, hg, rfl⟩ := List.mem_map.mp ht
  exact List.mem_range.mp (List.mem_filter.mp hg).1

theorem State.calLoad_sight (s : State) : s.calLoad.sight = s.sight := by
  unfold State.calLoad
  extract_lets h curves tables
  have hcurves : curves.sight = s.sight := State.sight_each _ _ fun _ _ _ => State.sight_of_regs (State.setTab_within ..).same_regs
  have htables : tables.sight = curves.sight := State.sight_each _ _ fun x t ht => by
    have hlt := calTables_lt ht
    dsimp only
    rw [State.sight_put _ _ (by decide), State.sight_put _ _ (aside_lt hlt (by decide)), State.sight_put _ _ (aside_lt hlt (by decide)),
      State.sight_put _ _ (aside_lt hlt (by decide)), State.lampWritten, State.setLampBad, State.sight_flag _ _ (by decide),
      State.sight_of_regs (State.onComp_regs ..), State.sight_of_regs (State.memWrite_within ..).same_regs]
  refine State.sight_ite (s.sight_put _ (by decide)) (State.sight_ite (s.sight_put _ (by decide)) ?_)
  rw [State.sight_put _ _ (by decide), State.sight_flag _ _ (by decide), htables, hcurves]

theorem State.tileLoad_sight (s : State) : s.tileLoad.sight = s.sight :=
  (State.sight_each _ _ fun _ _ _ => State.sight_of_regs (State.diagReset_within ..).same_regs).trans s.calLoad_sight

end Sys2Proof.Machine
end

section
/-! PROOFS. The boot ROM, the hand-off to the image, downloads, activation and confirmation (spec/16_boot_and_update.md R511 to R516, R526
to R533; R448). -/
set_option Elab.async false
namespace Sys2Proof.Machine

/-! ### A stop of the boot ROM (R511, R512) -/

/-- A ROM stop changes BOOT_STATUS alone among the registers. -/
theorem State.romStop_reg (s : State) (code : Nat) {a : Nat} (h : a ≠ 0x7e0000) : (s.romStop code).reg a = s.reg a :=
  (State.reg_put_ne (s.put F.BOOT_STATUS_STAGE 4) F.BOOT_STATUS_ERROR code 0 0 a h).trans (State.reg_put_ne s F.BOOT_STATUS_STAGE 4 0 0 a h)

theorem State.romStop_f_eq (s : State) (code : Nat) (f : Fld) (i j : Nat) :
    (s.romStop code).f f i j = ((s.put F.BOOT_STATUS_STAGE 4).put F.BOOT_STATUS_ERROR code).f f i j := rfl

theorem State.romStop_stage (s : State) (code : Nat) : (s.romStop code).f F.BOOT_STATUS_STAGE = 4 := by
  rw [State.romStop_f_eq, State.f_put_other _ _ (by decide) (.inr (by decide)), State.f_put _ _ _ _ _ (by decide)]
  rfl

theorem State.romStop_error (s : State) (code : Nat) : (s.romStop code).f F.BOOT_STATUS_ERROR = code % 16 := by
  rw [State.romStop_f_eq, State.f_put _ _ _ _ _ (by decide)]
  rfl

theorem State.romStop_detail (s : State) (code : Nat) : (s.romStop code).f F.BOOT_STATUS_DETAIL = s.f F.BOOT_STATUS_DETAIL := by
  rw [State.romStop_f_eq, State.f_put_other _ _ (by decide) (.inr (by decide)), State.f_put_other _ _ (by decide) (.inr (by decide))]

theorem State.romStop_boot (s : State) (code : Nat) : (s.romStop code).boot = { s.boot with romDue := false, training := false } := rfl
theorem State.romStop_pwr (s : State) (code : Nat) : (s.romStop code).pwr = { s.pwr with faultN := true } := rfl

/-! ### The first steps of the boot ROM (R511) -/

/-- The OTP registers are those of keys, serial number, identity and repairs. -/
theorem State.otpRegs_reg (s : State) {a : Nat} (hrepairs : a ≠ 0x7c0004) (h : a < 0x7e0100 ∨ 0x7e0360 ≤ a) : s.otpRegs.reg a = s.reg a := by
  have hne {f : Fld} (hf : 0x7e0100 ≤ f.addr 0 0 ∧ f.addr 0 0 < 0x7e0360) : a ≠ f.addr 0 0 := by omega
  unfold State.otpRegs State.put64
  extract_lets o programmed rolled shown
  have hrolled : rolled.reg a = programmed.reg a := by
    rw [State.reg_put_ne _ _ _ _ _ _ (hne (by decide)), State.flag, State.reg_put_ne _ _ _ _ _ _ (hne (by decide)),
      State.reg_put_ne _ _ _ _ _ _ (hne (by decide))]
  have hshown : shown.reg a = rolled.reg a := by
    rw [State.reg_put_ne _ _ _ _ _ _ hrepairs, State.reg_put_ne _ _ _ _ _ _ (hne (by decide)),
      State.reg_put_ne _ _ _ _ _ _ (hne (by decide))]
  have hprogrammed : programmed.reg a = s.reg a := State.reg_put_ne _ _ _ _ _ _ (hne (by decide))
  rw [hprogrammed] at hrolled
  rw [hrolled] at hshown
  clear_value shown
  split
  · iterate 5 rw [State.reg_put_ne _ _ _ _ _ _ (hne (by decide))]
    exact hshown
  · exact hshown

/-- The ROM has counted its start and shows the life cycle and the OTP. -/
def State.romBegun (s : State) : State :=
  ((((s.onBoot fun b => { b with romDue := false, startAt := s.time.aon }).inc F.BOOT_COUNT).put F.LC_STATE_STATE s.boot.otp.lc).flag
    F.LC_STATE_DEBUG (s.boot.otp.lc == 1 || s.boot.otp.lc == 4)).otpRegs

theorem State.romBegun_boot (s : State) : s.romBegun.boot = { s.boot with romDue := false, startAt := s.time.aon } := by
  rw [State.romBegun, (State.otpRegs_within _).same_boot, State.flag_boot, State.put_boot, State.inc_boot, State.onBoot_boot]

theorem State.romBegun_pwr (s : State) : s.romBegun.pwr = s.pwr := by
  rw [State.romBegun, (State.otpRegs_within _).same_pwr, State.flag_pwr, State.put_pwr, State.inc_pwr, State.onBoot_pwr]

theorem State.romBegun_count (s : State) : s.romBegun.f F.BOOT_COUNT = min (s.f F.BOOT_COUNT + 1) (2 ^ F.BOOT_COUNT.w - 1) := by
  rw [State.romBegun, State.f_congr (State.otpRegs_reg _ (by decide) (by decide)), State.f_flag_other _ _ (by decide) (.inl (by decide)),
    State.f_put_other _ _ (by decide) (.inl (by decide)), State.f_inc _ _ _ _ (by decide)]
  rfl

/-- The sampled straps are as they were. -/
theorem State.romBegun_straps (s : State) : s.romBegun.reg 0x7e0004 = s.reg 0x7e0004 := by
  rw [State.romBegun, State.otpRegs_reg _ (by decide) (by decide), State.flag, State.reg_put_ne _ _ _ _ _ _ (by decide),
    State.reg_put_ne _ _ _ _ _ _ (by decide), State.inc, State.add, State.reg_put_ne _ _ _ _ _ _ (by decide)]
  rfl

/-- A reset that waits for the boot ROM. -/
abbrev State.romReady (s : State) : Prop :=
  s.boot.romDue = true ∧ s.pwr.up = true ∧ s.on iPERIPH = true ∧ s.boot.unitOn = false ∧ s.therm.hold = false

/-- The ROM goes by the life cycle, then by the straps, and then clears the key store and tests what it is told to (R511, R512). -/
theorem exec_bootRomStart {s : State} {flashOk clearOk : Bool} {failing : List (Nat × Nat × Nat × Bool)} (h : s.romReady) :
    exec (.bootRomStart flashOk clearOk failing) s = .next (
      if s.romBegun.boot.otp.lc == 0 || s.romBegun.boot.otp.lc == 5 then s.romBegun.romStop 2
      else if s.romBegun.f F.BOOT_STRAPS_ROLE == 3 && !(s.romBegun.boot.otp.lc == 1 || s.romBegun.boot.otp.lc == 4) then
        s.romBegun.romStop 1
      else if s.romBegun.f F.BOOT_STRAPS_BOOT_SRC == 3 then s.romBegun.romStop 1
      else
        let u := (if clearOk then s.romBegun.zeroiseKeys else s.romBegun.zeroiseKeys.clearUnconfirmed).each failing fun s f =>
          s.memFailed f.1 f.2.1 f.2.2.1 f.2.2.2
        if flashOk then u.bootSlots else u.romStop 3) := by
  obtain ⟨hdue, hup, hon, hunit, hhold⟩ := h
  have hready : ¬ (!(s.boot.romDue && s.pwr.up && s.on iPERIPH && !s.boot.unitOn && !s.therm.hold)) = true := by
    rw [hdue, hup, hon, hunit, hhold]
    decide
  exact congrArg Host.Outcome.next (if_neg hready)

/-- In BLANK and END_OF_LIFE the ROM stops. -/
theorem bootRomStart_lifeCycle {s : State} {flashOk clearOk : Bool} {failing : List (Nat × Nat × Nat × Bool)} (h : s.romReady)
    (hlc : s.boot.otp.lc = 0 ∨ s.boot.otp.lc = 5) : yields (.bootRomStart flashOk clearOk failing) s fun t =>
    t.f F.BOOT_STATUS_STAGE = 4 ∧ t.f F.BOOT_STATUS_ERROR = 2 ∧ t.boot.romDue = false ∧ t.pwr.faultN = true ∧
      t.f F.BOOT_COUNT = min (s.f F.BOOT_COUNT + 1) (2 ^ F.BOOT_COUNT.w - 1) := by
  have hstop : (s.romBegun.boot.otp.lc == 0 || s.romBegun.boot.otp.lc == 5) = true := by
    rw [State.romBegun_boot, Bool.or_eq_true, beq_iff_eq, beq_iff_eq]
    exact hlc
  refine ⟨_, (exec_bootRomStart h).trans (congrArg _ (if_pos hstop)), State.romStop_stage .., State.romStop_error .., ?_, ?_, ?_⟩
  · rw [State.romStop_boot]
  · rw [State.romStop_pwr]
  · rw [State.f_congr (State.romStop_reg _ _ (by decide)), State.romBegun_count]

/-- In MANUFACTURE, with straps that name a source, the ROM clears the key store and goes on. -/
theorem exec_bootRomStart_manufacture {s : State} {flashOk : Bool} (h : s.romReady) (hlc : s.boot.otp.lc = 1)
    (hsrc : s.f F.BOOT_STRAPS_BOOT_SRC ≠ 3) : exec (.bootRomStart flashOk true []) s =
      .next (if flashOk then s.romBegun.zeroiseKeys.bootSlots else s.romBegun.zeroiseKeys.romStop 3) := by
  have hsource : (s.romBegun.f F.BOOT_STRAPS_BOOT_SRC == 3) = false := by
    rw [State.f_congr (t := s) (State.romBegun_straps s), beq_false_of_ne hsrc]
  rw [exec_bootRomStart h, State.romBegun_boot, hlc, hsource, if_neg (by decide), if_neg (by simp), if_neg (by decide)]
  rfl

/-- With a flash that does not answer the ROM stops, with the key store clear. -/
theorem bootRomStart_noFlash {s : State} (h : s.romReady) (hlc : s.boot.otp.lc = 1) (hsrc : s.f F.BOOT_STRAPS_BOOT_SRC ≠ 3) :
    yields (.bootRomStart false true []) s fun t => t.f F.BOOT_STATUS_STAGE = 4 ∧ t.f F.BOOT_STATUS_ERROR = 3 ∧
      t.b F.SEC_WALLKEY_VALID = false ∧ t.b F.RING_STATUS_KEY_VALID = false := by
  refine ⟨s.romBegun.zeroiseKeys.romStop 3, exec_bootRomStart_manufacture h hlc hsrc, State.romStop_stage .., State.romStop_error .., ?_, ?_⟩
  · rw [State.b, State.f_congr (State.romStop_reg _ _ (by decide)), ← State.b, State.zeroiseKeys, State.b_of_regs (State.onBoot_regs ..),
      State.b_flag_other _ _ (by decide) (.inl (by decide)), State.b_put_other _ _ (by decide) (.inl (by decide)),
      State.b_flag _ _ _ _ _ (by decide) rfl]
  · rw [State.b, State.f_congr (State.romStop_reg _ _ (by decide)), ← State.b, State.zeroiseKeys, State.b_of_regs (State.onBoot_regs ..),
      State.b_flag _ _ _ _ _ (by decide) rfl]

/-! ### The choice of a slot (R511, R515 to R517) -/

/-- What the checks of an image read: the flash, the OTP and the straps. -/
def State.images (s : State) : Memory × Otp × Word := (s.boot.flash, s.boot.otp, s.reg 0x7e0004)

theorem State.isTile_of_straps {s t : State} (h : s.reg 0x7e0004 = t.reg 0x7e0004) : s.isTile = t.isTile ∧ s.isHead = t.isHead := by
  have hrole : s.f F.BOOT_STRAPS_ROLE = t.f F.BOOT_STRAPS_ROLE := State.f_congr h
  rw [State.isTile, State.isHead, hrole]
  exact ⟨rfl, rfl⟩

theorem slotHeader_congr {s t : State} (h : s.boot.flash = t.boot.flash) (a : Nat) : slotHeader s a = slotHeader t a := by
  rw [slotHeader, State.flashRead, h]
  rfl

/-- The verdicts on a slot are the same where flash, OTP and straps are. -/
theorem State.headerCheck_congr {s t : State} (h : s.images = t.images) (a : Nat) : s.headerCheck a = t.headerCheck a := by
  rw [State.images, State.images, Prod.mk.injEq, Prod.mk.injEq] at h
  obtain ⟨hflash, hotp, hstraps⟩ := h
  obtain ⟨htile, hhead⟩ := State.isTile_of_straps hstraps
  unfold State.headerCheck
  rw [slotHeader_congr hflash, hotp, htile, hhead]

theorem State.bodyOk_congr {s t : State} (h : s.images = t.images) (a : Nat) : s.bodyOk a = t.bodyOk a := by
  have hflash : s.boot.flash = t.boot.flash := congrArg Prod.fst h
  unfold State.bodyOk State.flashRead
  rw [slotHeader_congr hflash, hflash]

theorem State.headerCheck_lt (s : State) (a : Nat) : s.headerCheck a < 8 := by
  unfold State.headerCheck
  extract_lets
  split_ifs <;> decide

/-- The code that BOOT_SLOTa_INFO shows of a slot that is not loaded: 8 when its header passes. -/
abbrev State.slotCode (s : State) (a : Nat) : Nat := if s.headerCheck a = 1 then 8 else s.headerCheck a

/-- A slot's registers show its verdict, and they alone change. -/
theorem State.slotInfo_check (s : State) {a code : Nat} (hcode : code < 16) (body : Bool) :
    (s.slotInfo a code body).f F.BOOT_SLOTa_INFO_CHECK a = code := by
  have haddr {f : Fld} (hf : f.addr a 0 = 0x7e0014 + a * 16 ∨ f.addr a 0 = 0x7e0018 + a * 16) :
      F.BOOT_SLOTa_INFO_CHECK.addr a 0 ≠ f.addr a 0 := by
    simp only [F.BOOT_SLOTa_INFO_CHECK, Fld.addr] at hf ⊢
    omega
  unfold State.slotInfo
  extract_lets h shown
  have hshown : shown.f F.BOOT_SLOTa_INFO_CHECK a = code := by
    rw [State.f_put_other _ _ (by decide) (.inr (by decide)), State.f_put_other _ _ (by decide) (.inr (by decide)),
      State.f_flag_other _ _ (by decide) (.inr (by decide)), State.f_put _ _ _ _ _ (by decide)]
    exact Nat.mod_eq_of_lt hcode
  rw [State.f_put_ne _ _ _ _ _ _ _ _ (haddr (.inr rfl)), State.f_put_ne _ _ _ _ _ _ _ _ (haddr (.inl rfl)),
    State.f_put_other _ _ (by decide) (.inr (by decide)), hshown]

theorem State.slotInfo_reg (s : State) (a code : Nat) (body : Bool) {x : Nat} (h : x < 0x7e0010) : (s.slotInfo a code body).reg x = s.reg x := by
  have hne {f : Fld} (hf : 0x7e0010 ≤ f.base) : x ≠ f.addr a 0 := by
    rw [Fld.addr]
    omega
  unfold State.slotInfo
  dsimp only
  rw [State.flag]
  iterate 7 rw [State.reg_put_ne _ _ _ _ _ _ (hne (by decide))]

theorem State.slotInfo_boot (s : State) (a code : Nat) (body : Bool) : (s.slotInfo a code body).boot = s.boot :=
  (State.slotInfo_within ..).same_boot

theorem State.slotInfo_images (s : State) (a code : Nat) (body : Bool) : (s.slotInfo a code body).images = s.images := by
  rw [State.images, State.slotInfo_boot, State.slotInfo_reg _ _ _ _ (by decide), State.images]

theorem State.judgeSlots_boot (s : State) : s.judgeSlots.boot = s.boot :=
  State.each_keeps State.boot _ _ _ fun _ _ => State.slotInfo_boot ..

theorem State.judgeSlots_straps (s : State) : s.judgeSlots.reg 0x7e0004 = s.reg 0x7e0004 := by
  rw [State.judgeSlots, State.each_keeps (fun t : State => t.reg 0x7e0004) _ _ _ fun _ _ => State.slotInfo_reg _ _ _ _ (by decide),
    State.reg_put_ne _ _ _ _ _ _ (by decide)]

/-- With a source in the straps the ROM burns nothing. -/
theorem State.romBurn_forced {s : State} (h : s.f F.BOOT_STRAPS_BOOT_SRC ≠ 0) : s.romBurn = s := by
  unfold State.romBurn State.when
  dsimp only
  rw [beq_false_of_ne h]
  rfl

/-- The slots have been judged for a boot that the straps force. -/
def State.forcedBoot (s : State) : State := s.judgeSlots.onBoot fun b => { b with forced := true }

theorem State.forcedBoot_images (s : State) : s.forcedBoot.images = s.images := by
  have hboot : s.forcedBoot.boot = { s.boot with forced := true } := by rw [State.forcedBoot, State.onBoot_boot, State.judgeSlots_boot]
  have hregs : s.forcedBoot.regs = s.judgeSlots.regs := State.onBoot_regs ..
  rw [State.images, hboot, State.reg, hregs, ← State.reg, State.judgeSlots_straps, State.images]

/-- A source in the straps is the one slot that is tried (R511). -/
theorem State.bootSlots_forced {s : State} {a : Nat} (h : s.f F.BOOT_STRAPS_BOOT_SRC = a + 1) :
    s.bootSlots = bootWith [a] none (s.forcedBoot.trySlots [a]) := by
  have hsrc : s.judgeSlots.f F.BOOT_STRAPS_BOOT_SRC = a + 1 := by
    rw [State.f_congr (t := s) (f := F.BOOT_STRAPS_BOOT_SRC) (i := 0) (j := 0) s.judgeSlots_straps, h]
  have hchoice : s.judgeSlots.chooseSlot = (s.forcedBoot, [a], none) := by
    unfold State.chooseSlot
    dsimp only
    rw [hsrc, if_pos (by simp), Nat.add_sub_cancel]
    rfl
  unfold State.bootSlots
  rw [State.romBurn_forced (by rw [h]; exact Nat.succ_ne_zero a), hchoice]

/-- The one slot verifies, or the ROM stops. -/
theorem State.bootSlots_loads {s : State} {a : Nat} (h : s.f F.BOOT_STRAPS_BOOT_SRC = a + 1) (hheader : s.headerCheck a = 1)
    (hbody : s.bodyOk a = true) : s.bootSlots = (s.forcedBoot.slotInfo a 1 true).loadSlot a [a] none := by
  rw [State.bootSlots_forced h, State.trySlots, State.trySlot, State.headerCheck_congr s.forcedBoot_images,
    State.bodyOk_congr s.forcedBoot_images, hheader, hbody]
  rfl

theorem State.bootSlots_stops {s : State} {a : Nat} (h : s.f F.BOOT_STRAPS_BOOT_SRC = a + 1)
    (hbad : ¬ (s.headerCheck a = 1 ∧ s.bodyOk a = true)) :
    ∃ body, s.bootSlots = (s.forcedBoot.slotInfo a (s.slotCode a) body).romStop 4 := by
  rw [State.bootSlots_forced h, State.trySlots, State.trySlot, State.headerCheck_congr s.forcedBoot_images,
    State.bodyOk_congr s.forcedBoot_images, State.slotCode]
  by_cases hheader : s.headerCheck a = 1
  · have hbody : s.bodyOk a = false := by simpa [hheader] using hbad
    refine ⟨true, ?_⟩
    rw [hheader, hbody, if_pos rfl]
    rfl
  · refine ⟨false, ?_⟩
    have hne : (s.headerCheck a != 1) = true := bne_iff_ne.mpr hheader
    rw [hne, if_pos rfl, if_neg hheader]
    rfl

/-- The load of a slot starts the training of memory. -/
theorem State.loadSlot_boot (s : State) (a : Nat) : (s.loadSlot a [a] none).boot = { s.boot with
    training := true, digest := ((slotHeader s a).drop 32).take 48, version := le (slotHeader s a) 8 4, rollback := le (slotHeader s a) 6 1 } := by
  unfold State.loadSlot State.trainStart
  extract_lets noted h loaded shown
  have hnoted : noted.boot = s.boot := State.flag_boot ..
  have hh : h = slotHeader s a := slotHeader_congr (by rw [hnoted]) a
  have hshown : shown.boot = noted.boot := by
    rw [State.put_boot, State.inc_boot, State.putS_boot, State.put_boot, State.put_boot, State.put_boot]
  clear_value shown h noted
  rw [State.onBoot_boot, hshown, hnoted, hh]

theorem State.trainStart_sight (s : State) : s.trainStart.sight = s.sight := by
  rw [State.trainStart, State.sight_inc _ (by decide), State.sight_putS _ _ (by decide), State.sight_put _ _ (by decide)]

/-- A field of a register that a start leaves is the same. -/
theorem State.f_of_sight {s t : State} (h : t.sight = s.sight) {f : Fld} (hf : f.addr 0 0 ∈ [0x204, 0x7e0000, 0x700000]) : t.f f = s.f f := by
  rw [State.sight, State.sight, Prod.mk.injEq, Prod.mk.injEq, Prod.mk.injEq] at h
  obtain ⟨hcause, hboot, hmem, -⟩ := h
  refine State.f_congr ?_
  simp only [List.mem_cons, List.not_mem_nil, or_false] at hf
  rcases hf with hf | hf | hf
  · rwa [hf]
  · rwa [hf]
  · rwa [hf]

/-- After the load of a slot BOOT_STATUS names it and shows the training of memory. -/
theorem State.loadSlot_status (s : State) {a : Nat} (ha : a < 2) : (s.loadSlot a [a] none).f F.BOOT_STATUS_STAGE = 2 ∧
    (s.loadSlot a [a] none).f F.BOOT_STATUS_SLOT = a := by
  unfold State.loadSlot
  extract_lets noted h loaded shown
  have hshown : shown.sight = ((noted.put F.BOOT_STATUS_SLOT a).put F.BOOT_STATUS_STAGE 2).sight := by
    rw [State.sight_put _ _ (by decide), State.trainStart_sight]
  clear_value shown h noted
  rw [State.f_of_regs (State.onBoot_regs ..), State.f_of_regs (State.onBoot_regs ..), State.f_of_sight hshown (by decide),
    State.f_of_sight hshown (by decide), State.f_put _ _ _ _ _ (by decide), State.f_put_other _ _ (by decide) (.inr (by decide)),
    State.f_put _ _ _ _ _ (by decide)]
  exact ⟨rfl, Nat.mod_eq_of_lt ha⟩

/-- A boot that the straps force loads the slot that they name, or stops. -/
theorem bootRomStart_forced {s : State} {a : Nat} (h : s.romReady) (hlc : s.boot.otp.lc = 1) (ha : a < 2)
    (hsrc : s.f F.BOOT_STRAPS_BOOT_SRC = a + 1) : yields (.bootRomStart true true []) s fun t => t.boot.forced = true ∧
    (if s.headerCheck a = 1 ∧ s.bodyOk a = true then t.f F.BOOT_STATUS_STAGE = 2 ∧ t.f F.BOOT_STATUS_SLOT = a ∧
        t.boot.training = true ∧ t.boot.version = le (slotHeader s a) 8 4
      else t.f F.BOOT_STATUS_STAGE = 4 ∧ t.f F.BOOT_STATUS_ERROR = 4 ∧ t.f F.BOOT_SLOTa_INFO_CHECK a = s.slotCode a) := by
  have hexec := exec_bootRomStart_manufacture (flashOk := true) h hlc (by omega)
  rw [if_pos rfl] at hexec
  refine ⟨s.romBegun.zeroiseKeys.bootSlots, hexec, ?_⟩
  have hboot : s.romBegun.zeroiseKeys.boot = { s.boot with romDue := false, startAt := s.time.aon, wallKey := none } := by
    rw [State.zeroiseKeys, State.onBoot_boot, State.flag_boot, State.put_boot, State.flag_boot, State.romBegun_boot]
  have hstraps : s.romBegun.zeroiseKeys.reg 0x7e0004 = s.reg 0x7e0004 := by
    rw [State.zeroiseKeys, State.reg, State.onBoot_regs, ← State.reg, State.flag, State.reg_put_ne _ _ _ _ _ _ (by decide),
      State.reg_put_ne _ _ _ _ _ _ (by decide), State.flag, State.reg_put_ne _ _ _ _ _ _ (by decide), State.romBegun_straps]
  have himages : s.romBegun.zeroiseKeys.images = s.images := by rw [State.images, hboot, hstraps, State.images]
  have hflash : s.romBegun.zeroiseKeys.boot.flash = s.boot.flash := by rw [hboot]
  have hcode : s.romBegun.zeroiseKeys.slotCode a = s.slotCode a := by rw [State.slotCode, State.headerCheck_congr himages, State.slotCode]
  have hsource : s.romBegun.zeroiseKeys.f F.BOOT_STRAPS_BOOT_SRC = a + 1 := by
    rw [State.f_congr (t := s) (f := F.BOOT_STRAPS_BOOT_SRC) (i := 0) (j := 0) hstraps, hsrc]
  have hheader := State.headerCheck_congr himages a
  have hbody := State.bodyOk_congr himages a
  generalize s.romBegun.zeroiseKeys = u at hflash hcode hsource hheader hbody
  dsimp only
  by_cases hgood : s.headerCheck a = 1 ∧ s.bodyOk a = true
  · rw [if_pos hgood, State.bootSlots_loads hsource (hheader.trans hgood.1) (hbody.trans hgood.2), State.loadSlot_boot,
      State.slotInfo_boot]
    obtain ⟨hstage, hslot⟩ := (u.forcedBoot.slotInfo a 1 true).loadSlot_status ha
    refine ⟨rfl, hstage, hslot, rfl, ?_⟩
    have hu : (u.forcedBoot.slotInfo a 1 true).boot.flash = s.boot.flash := by
      rw [State.slotInfo_boot, State.forcedBoot, State.onBoot_boot, State.judgeSlots_boot, hflash]
    rw [slotHeader_congr hu]
  · obtain ⟨body, hstop⟩ := State.bootSlots_stops hsource (by rw [hheader, hbody]; exact hgood)
    rw [if_neg hgood, hstop, State.romStop_boot, State.slotInfo_boot]
    refine ⟨rfl, State.romStop_stage .., State.romStop_error .., ?_⟩
    have hlt : s.slotCode a < 16 := by
      have hheader8 := s.headerCheck_lt a
      rw [State.slotCode]
      split <;> omega
    rw [State.f_congr (State.romStop_reg _ _ (by simp only [Fld.addr, F.BOOT_SLOTa_INFO_CHECK]; omega)), hcode, State.slotInfo_check _ hlt]

/-! ### The end of memory training (R428, R448, R495) -/

/-- Memory training that the MEM island can end. -/
abbrev State.trains (s : State) : Prop := s.boot.training = true ∧ s.on iMEM = true

/-- The geometry of the image's descriptor is one of Table 13-1. -/
abbrev State.goodGeometry (s : State) : Prop := (s.memDescriptor.1 = 1 ∨ s.memDescriptor.1 = 2) ∧ s.memDescriptor.2 ≤ 3

theorem exec_memoryTrainingDone {s : State} {failed : Option (Fin 8)} {mismatch ok : Bool} (h : s.trains) :
    exec (.memoryTrainingDone failed mismatch ok) s = .next (
      if mismatch || !(s.memDescriptor.1 == 1 || s.memDescriptor.1 == 2) || decide (3 < s.memDescriptor.2) then s.romStop 5
      else match failed with
        | some c => s.trainFailed c
        | none => s.handOffBoot ok) := by
  have hready : ¬ (!(s.boot.training && s.on iMEM)) = true := by rw [h.1, h.2]; decide
  exact congrArg Host.Outcome.next (if_neg hready)

/-- A geometry that the devices confirm and the tables name goes on. -/
theorem State.goodGeometry.condition {s : State} (h : s.goodGeometry) :
    ¬ (false || !(s.memDescriptor.1 == 1 || s.memDescriptor.1 == 2) || decide (3 < s.memDescriptor.2)) = true := by
  have hranks : (s.memDescriptor.1 == 1 || s.memDescriptor.1 == 2) = true := by
    rw [Bool.or_eq_true, beq_iff_eq, beq_iff_eq]
    exact h.1
  rw [hranks, decide_eq_false h.2.not_gt]
  decide

theorem memoryTrainingDone_mismatch {s : State} {failed : Option (Fin 8)} {ok : Bool} (h : s.trains) :
    yields (.memoryTrainingDone failed true ok) s fun t =>
      t.f F.BOOT_STATUS_STAGE = 4 ∧ t.f F.BOOT_STATUS_ERROR = 5 ∧ t.boot.training = false := by
  refine ⟨s.romStop 5, (exec_memoryTrainingDone h).trans (congrArg _ (if_pos ?_)), State.romStop_stage .., State.romStop_error .., ?_⟩
  · rw [Bool.true_or, Bool.true_or]
  · rw [State.romStop_boot]

/-- A channel that fails its training is named, and the boot stops. -/
theorem memoryTrainingDone_fails {s : State} {c : Fin 8} {ok : Bool} (h : s.trains) (hgood : s.goodGeometry) :
    yields (.memoryTrainingDone (some c) false ok) s fun t => t.f F.BOOT_STATUS_STAGE = 4 ∧ t.f F.BOOT_STATUS_ERROR = 6 ∧
      t.f F.BOOT_STATUS_DETAIL = c.val ∧ t.b F.MEM_CHn_STATUS_FAIL c = true ∧ t.boot.training = false := by
  have hfail : F.MEM_CHn_STATUS_FAIL.addr c 0 ≠ 0x7e0000 := by
    have hlt := c.isLt
    simp only [Fld.addr, F.MEM_CHn_STATUS_FAIL]
    omega
  refine ⟨s.trainFailed c, (exec_memoryTrainingDone h).trans (congrArg _ (if_neg hgood.condition)), ?_⟩
  unfold State.trainFailed
  extract_lets recorded
  refine ⟨State.romStop_stage .., State.romStop_error .., ?_, ?_, ?_⟩
  · rw [State.romStop_detail, State.f_put _ _ _ _ _ (by decide)]
    exact Nat.mod_eq_of_lt (c.isLt.trans (by decide))
  · rw [State.b, State.f_congr (State.romStop_reg _ _ hfail), ← State.b, State.b_put_other _ _ (by decide) (.inl hfail),
      State.b_flag _ _ _ _ _ (by decide) rfl]
  · rw [State.romStop_boot]

/-! ### The hand-off to the image (R428, R448, R516) -/

/-- After training MEM_CFG shows the geometry of the descriptor, and TRAINED is set. -/
theorem State.memTrained_shows {s : State} (hgood : s.goodGeometry) : s.memTrained.f F.MEM_CFG_RANKS = s.memDescriptor.1 - 1 ∧
    s.memTrained.f F.MEM_CFG_CAPACITY = (if s.isTile then 8 else 32) * (s.memDescriptor.2 + 1) * s.memDescriptor.1 ∧
    s.memTrained.b F.MEM_STATUS_TRAINED = true := by
  unfold State.memTrained
  extract_lets d perRank configured scrubbed gated top regions now cleared
  have hranks : configured.f F.MEM_CFG_RANKS = d.1 - 1 := by
    have hlt : d.1 - 1 < 2 := by
      have hd : d.1 = 1 ∨ d.1 = 2 := hgood.1
      omega
    rw [State.f_put_other _ _ (by decide) (.inr (by decide)), State.f_put_other _ _ (by decide) (.inr (by decide)),
      State.f_put _ _ _ _ _ (by decide)]
    exact Nat.mod_eq_of_lt hlt
  have hcapacity : configured.f F.MEM_CFG_CAPACITY = perRank * d.1 := by
    have hlt : perRank * d.1 < 2 ^ 9 := by
      have hdensity : d.2 ≤ 3 := hgood.2
      dsimp only [perRank]
      rcases (hgood.1 : d.1 = 1 ∨ d.1 = 2) with hd | hd <;> rw [hd] <;> split <;> omega
    rw [State.f_put _ _ _ _ _ (by decide)]
    exact Nat.mod_eq_of_lt hlt
  have hscrubbed : scrubbed.sight = (configured.flag F.MEM_STATUS_TRAINED).sight := State.scrubAnew_sight _
  have hgated : gated.sight = scrubbed.sight := State.sight_range 8 _ fun x c hc =>
    (State.sight_flag _ _ (aside_lt hc (by decide))).trans (x.sight_flag _ (aside_lt hc (by decide)))
  have hregions : regions.sight = gated.sight := State.sight_put _ _ (by decide)
  have hcleared : cleared.sight = regions.sight :=
    State.sight_ite rfl (State.sight_of_regs (State.clearSpan_within ..).same_regs)
  have hshows (t : State) (ht : t.sight = gated.sight) :
      t.f F.MEM_CFG_RANKS = d.1 - 1 ∧ t.f F.MEM_CFG_CAPACITY = perRank * d.1 ∧ t.b F.MEM_STATUS_TRAINED = true := by
    have hsight : t.sight = (configured.flag F.MEM_STATUS_TRAINED).sight := ht.trans (hgated.trans hscrubbed)
    have htrained : t.b F.MEM_STATUS_TRAINED = (configured.flag F.MEM_STATUS_TRAINED).b F.MEM_STATUS_TRAINED :=
      congrArg (·.2.2.2) hsight
    rw [State.f_of_sight hsight (by decide), State.f_of_sight hsight (by decide), htrained, State.f_flag_other _ _ (by decide) (.inl (by decide)),
      State.f_flag_other _ _ (by decide) (.inl (by decide)), State.b_flag _ _ _ _ _ (by decide) rfl]
    exact ⟨hranks, hcapacity, rfl⟩
  exact hshows _ (State.sight_ite rfl ((State.sight_of_regs (State.onMst_regs ..)).trans (hcleared.trans hregions)))

/-- The image runs, and memory is trained. -/
def State.runs (s : State) : Bool × Bool := (s.boot.running, s.boot.training)

theorem State.runs_of_boot {s t : State} (h : t.boot = s.boot) : t.runs = s.runs := by rw [State.runs, h, State.runs]

theorem State.put_runs (s : State) (f : Fld) (v i j : Nat) : (s.put f v i j).runs = s.runs := State.runs_of_boot (State.put_boot ..)

theorem State.onBoot_runs (s : State) {g : Boot → Boot} (h : ∀ b, (g b).running = b.running ∧ (g b).training = b.training) :
    (s.onBoot g).runs = s.runs := by
  rw [State.runs, State.onBoot_boot, (h _).1, (h _).2, State.runs]

/-- The load of the wall key changes nothing of the boot beside the key. -/
theorem State.loadKey_boot (s : State) : ∃ k, s.loadKey.boot = { s.boot with wallKey := k } := by
  unfold State.loadKey State.unwrap
  split
  · split
    · next k _ =>
      refine ⟨some k, ?_⟩
      rw [State.onBoot_boot, State.flag_boot, State.put_boot, State.flag_boot]
    · exact ⟨s.boot.wallKey, State.flag_boot ..⟩
  · exact ⟨s.boot.wallKey, rfl⟩

theorem State.loadKey_runs (s : State) : s.loadKey.runs = s.runs := by
  obtain ⟨_, h⟩ := s.loadKey_boot
  rw [State.runs, h, State.runs]

theorem State.startUnit_runs (s : State) : s.startUnit.runs = s.runs := by
  obtain ⟨_, _, h⟩ := s.startUnit_boot
  rw [State.runs, h, State.runs]

theorem State.addJob_runs (s : State) (j : Job) : (s.addJob j).runs = s.runs := by
  rw [State.addJob, State.startUnit_runs]
  exact State.onBoot_runs s fun _ => ⟨rfl, rfl⟩

theorem State.runs_ite {c : Prop} [Decidable c] {s t u : State} (ht : t.runs = s.runs) (hu : u.runs = s.runs) :
    (if c then t else u).runs = s.runs := by
  split
  · exact ht
  · exact hu

/-- What the hand-off does after the image has begun to run leaves that it runs, and what memory training has left. -/
theorem State.handOffBoot_keeps (s : State) (ok : Bool) :
    (s.handOffBoot ok).sight = (s.memTrained.put F.BOOT_STATUS_STAGE 3).sight ∧ (s.handOffBoot ok).runs = (true, false) := by
  unfold State.handOffBoot
  extract_lets begun timed trial left challenged private_ kept phased journal booted tripped calibrated marked repaired burned
  have hbegun : begun.sight = (s.memTrained.put F.BOOT_STATUS_STAGE 3).sight ∧ begun.runs = (true, false) := by
    refine ⟨?_, ?_⟩
    · rw [State.sight_of_regs (State.healthFrom_within _).same_regs, State.sight_of_regs (State.onBoot_regs ..)]
    · rw [State.runs_of_boot (State.healthFrom_within _).same_boot, State.runs, State.onBoot_boot]
  clear_value begun
  have htimed : timed.sight = begun.sight ∧ timed.runs = begun.runs := ⟨State.sight_put _ _ (by decide), State.put_runs ..⟩
  clear_value timed
  have htrial : trial.sight = timed.sight ∧ trial.runs = timed.runs :=
    ⟨State.sight_ite ((State.sight_of_regs (State.onBoot_regs ..)).trans (State.sight_put _ _ (by decide))) rfl,
      State.runs_ite (by rw [State.runs, State.onBoot_boot, State.put_boot, State.runs]) rfl⟩
  clear_value trial
  have hleft : left.sight = trial.sight ∧ left.runs = trial.runs := ⟨State.sight_put _ _ (by decide), State.put_runs ..⟩
  clear_value left
  have hchallenged : challenged.sight = left.sight ∧ challenged.runs = left.runs :=
    ⟨State.newChallenge_sight _, State.runs_of_boot (State.newChallenge_boot _)⟩
  clear_value challenged
  have hprivate : private_.sight = challenged.sight ∧ private_.runs = challenged.runs :=
    ⟨State.sight_ite (State.sight_of_regs (State.onBoot_regs ..)) rfl,
      State.runs_ite (State.onBoot_runs _ fun _ => ⟨rfl, rfl⟩) rfl⟩
  clear_value private_
  have hkept : kept.sight = private_.sight ∧ kept.runs = private_.runs := by
    refine ⟨?_, ?_⟩
    · rw [State.keptRegs_sight, State.sight_of_regs (State.bistSeeds_within _).same_regs, State.defaultPrograms_sight, State.loadKey_sight]
    · rw [State.runs_of_boot (State.keptRegs_within _).same_boot, State.runs_of_boot (State.bistSeeds_within _).same_boot,
        State.runs_of_boot (State.defaultPrograms_within _).same_boot, State.loadKey_runs]
  clear_value kept
  have hphased : phased.sight = kept.sight ∧ phased.runs = kept.runs :=
    ⟨State.sight_range 8 _ fun x c _ => x.sight_put _ (aside_page (by decide) c),
      State.runs_of_boot (State.each_keeps State.boot _ _ _ fun _ _ => State.put_boot ..)⟩
  clear_value phased
  have hjournal : journal.1.sight = phased.sight ∧ journal.1.runs = phased.runs := by
    refine ⟨?_, ?_⟩
    · rw [State.readJournal_sight, State.transports_sight, State.lockReset_sight]
    · rw [State.runs_of_boot (State.readJournal_within _).same_boot, State.runs_of_boot (State.transports_within _).same_boot,
        State.runs_of_boot (State.lockReset_within _).same_boot]
  clear_value journal
  have hbooted : booted.sight = journal.1.sight ∧ booted.runs = journal.1.runs :=
    ⟨State.journalBoot_sight .., State.runs_of_boot (State.journalBoot_within ..).same_boot⟩
  clear_value booted
  have htripped : tripped.sight = booted.sight ∧ tripped.runs = booted.runs :=
    ⟨State.sight_ite (State.thermEvent_sight _ (by decide)) rfl,
      State.runs_ite (State.runs_of_boot (State.thermEvent_within ..).same_boot) rfl⟩
  clear_value tripped
  have hcalibrated : calibrated.sight = tripped.sight ∧ calibrated.runs = tripped.runs :=
    ⟨State.sight_each _ _ fun x u hu => x.calStart_sight ((by decide : ∀ u ∈ [0, 2, 3, 4], u < 5) u hu),
      State.runs_of_boot (State.each_keeps State.boot _ _ _ fun x u => (x.calStart_within u).same_boot)⟩
  clear_value calibrated
  have hmarked : marked.sight = calibrated.sight ∧ marked.runs = calibrated.runs :=
    ⟨State.sight_put _ _ (by decide), State.put_runs ..⟩
  clear_value marked
  have hrepaired : repaired.sight = marked.sight ∧ repaired.runs = marked.runs :=
    ⟨State.sight_ite rfl (State.addJob_sight ..), State.runs_ite rfl (State.addJob_runs ..)⟩
  clear_value repaired
  have hburned : burned.sight = repaired.sight ∧ burned.runs = repaired.runs :=
    ⟨State.sight_ite (State.addJob_sight ..) rfl, State.runs_ite (State.addJob_runs ..) rfl⟩
  clear_value burned
  have hdone : burned.sight = (s.memTrained.put F.BOOT_STATUS_STAGE 3).sight ∧ burned.runs = (true, false) := by
    rw [hburned.1, hburned.2, hrepaired.1, hrepaired.2, hmarked.1, hmarked.2, hcalibrated.1, hcalibrated.2, htripped.1, htripped.2,
      hbooted.1, hbooted.2, hjournal.1, hjournal.2, hphased.1, hphased.2, hkept.1, hkept.2, hprivate.1, hprivate.2, hchallenged.1,
      hchallenged.2, hleft.1, hleft.2, htrial.1, htrial.2, htimed.1, htimed.2]
    exact hbegun
  rw [← hdone.1, ← hdone.2]
  refine ⟨State.sight_ite ?_ (State.sight_ite ?_ rfl), State.runs_ite ?_ (State.runs_ite ?_ rfl)⟩
  · rw [State.enablePort_sight _ (by decide), State.enablePort_sight _ (by decide), State.tileLoad_sight]
  · rw [State.sight_of_regs (State.tickFresh_within _).same_regs, State.sight_of_regs (State.onRing_regs ..)]
  · rw [State.runs_of_boot (State.enablePort_within ..).same_boot, State.runs_of_boot (State.enablePort_within ..).same_boot,
      State.runs_of_boot (State.tileLoad_within _).same_boot]
  · rw [State.runs_of_boot (State.tickFresh_within _).same_boot, State.runs_of_boot (State.onRing_boot ..)]

/-- A trained memory hands off to the image. -/
theorem memoryTrainingDone_runs {s : State} {ok : Bool} (h : s.trains) (hgood : s.goodGeometry) :
    yields (.memoryTrainingDone none false ok) s fun t => t.boot.running = true ∧ t.boot.training = false ∧ t.f F.BOOT_STATUS_STAGE = 3 ∧
      t.b F.MEM_STATUS_TRAINED = true ∧ t.f F.MEM_CFG_RANKS = s.memDescriptor.1 - 1 ∧
      t.f F.MEM_CFG_CAPACITY = (if s.isTile then 8 else 32) * (s.memDescriptor.2 + 1) * s.memDescriptor.1 := by
  refine ⟨s.handOffBoot ok, (exec_memoryTrainingDone h).trans (congrArg _ (if_neg hgood.condition)), ?_⟩
  obtain ⟨hsight, hruns⟩ := s.handOffBoot_keeps ok
  obtain ⟨hranks, hcapacity, htrained⟩ := State.memTrained_shows hgood
  have hbit : (s.handOffBoot ok).b F.MEM_STATUS_TRAINED = (s.memTrained.put F.BOOT_STATUS_STAGE 3).b F.MEM_STATUS_TRAINED :=
    congrArg (·.2.2.2) hsight
  refine ⟨congrArg Prod.fst hruns, congrArg Prod.snd hruns, ?_, ?_, ?_, ?_⟩
  · rw [State.f_of_sight hsight (by decide), State.f_put _ _ _ _ _ (by decide)]
    rfl
  · rw [hbit, State.b_put_other _ _ (by decide) (.inl (by decide)), htrained]
  · rw [State.f_of_sight hsight (by decide), State.f_put_other _ _ (by decide) (.inl (by decide)), hranks]
  · rw [State.f_of_sight hsight (by decide), State.f_put_other _ _ (by decide) (.inl (by decide)), hcapacity]

/-! ### Downloads (R526, R527) -/

theorem dlBegin_erases {s : State} {cal : Bool} {c : Nat} {f : Fld}
    (hf : f = if cal then F.BOOT_DL_STATUS_CAL_STATE else F.BOOT_DL_STATUS_STATE) (hallowed : s.dlAllowed cal = true) :
    (s.dlBegin cal c none).f f = 0 ∧ (s.dlBegin cal c none).boot.jobs =
      s.boot.jobs ++ [(⟨.dlBegin cal, [.erase (s.dlBase cal)], none, c, s.askedAt⟩ : Job)] := by
  have hshape : f.lo + f.w ≤ 32 ∧ F.THERM_STATUS_WINDOW_OPEN.addr 0 0 ≠ f.addr 0 0 := by
    rw [hf]
    cases cal <;> decide
  have hasked : (s.put f 0).askedAt = s.askedAt := State.askedAt_congr (State.reg_put_ne _ _ _ _ _ _ hshape.2) (State.put_time ..)
  rw [State.dlBegin, if_pos hallowed, ← hf, State.addJob_jobs, hasked, State.put_boot]
  refine ⟨?_, rfl⟩
  rw [State.f_congr (State.addJob_reg ..), State.f_put _ _ _ _ _ hshape.1, Nat.zero_mod]

theorem State.dlBegin_refused {s : State} {cal : Bool} (c : Nat) (h : s.dlAllowed cal = false) : s.dlBegin cal c none = s := by
  rw [State.dlBegin, h, if_neg Bool.false_ne_true, State.finishOpt]

theorem dlCancel_erases {s : State} (cal : Bool) (c : Nat) (hrun : s.boot.running = true) (hforced : s.boot.forced = false) :
    (s.dlCancel cal c none).boot.jobs =
      s.boot.jobs ++ [(⟨.dlCancel cal, [.erase (s.dlBase cal)], none, c, s.askedAt⟩ : Job)] := by
  have hready : (s.boot.running && !s.boot.forced) = true := by rw [hrun, hforced]; rfl
  rw [State.dlCancel, if_pos hready, State.addJob_jobs]

/-! ### Activation (R528, R529) -/

theorem activatePrepare_erases {s : State} {id v : Nat} (hgo : (s.flock id).bind Flock.go = some v) (htile : s.isTile = true)
    (hrun : s.boot.running = true) (hforced : s.boot.forced = false) : yields (.activatePrepare id) s fun t =>
    t.boot.jobs = s.boot.jobs ++ [(⟨.prepare, [.erase (fIntent s.intentNext)], none, 0, s.askedAt⟩ : Job)] := by
  have hselected : (s.boot.running && s.scopeSelects v && !s.boot.forced) = true := by
    rw [hrun, hforced, State.scopeSelects, if_pos htile]
    rfl
  have hexec : exec (.activatePrepare id) s = .next
      (((s.flag F.BOOT_DL_STATUS_PREPARED false).onBoot fun b => { b with intentBad := false }).addJob
        { kind := .prepare, units := [.erase (fIntent s.intentNext)] }) := by
    show execActivatePrepare id s = _
    rw [execActivatePrepare, hgo]
    exact congrArg Host.Outcome.next (if_pos hselected)
  refine ⟨_, hexec, ?_⟩
  have hasked : ((s.flag F.BOOT_DL_STATUS_PREPARED false).onBoot fun b => { b with intentBad := false }).askedAt = s.askedAt :=
    State.askedAt_congr (State.reg_put_ne s F.BOOT_DL_STATUS_PREPARED 0 0 0 _ (by decide)) (State.onBoot_time ..)
  dsimp only
  rw [State.addJob_jobs, hasked, State.onBoot_boot, State.flag_boot]

/-- After a node reset no image runs, and no activation waits. -/
theorem State.nodeReset_boot (s : State) (keepMem : Bool) :
    (s.nodeReset keepMem).boot.running = false ∧ (s.nodeReset keepMem).boot.activateAt = none := by
  unfold State.nodeReset
  extract_lets t t1 t2 t3
  have ht : t.boot.running = false ∧ t.boot.activateAt = none := ⟨rfl, rfl⟩
  have h2 : t2.boot = t.boot := by rw [State.put_boot, State.put_boot, State.flag_boot]
  have h3 : t3.boot = t2.boot := by
    dsimp only [t3]
    split
    · exact State.flag_boot ..
    · rfl
  rw [(State.islandRegs_within _).same_boot, h3, h2]
  exact ht

/-- At its swap instant an activation resets the node. -/
theorem activationReset_resets {s : State} {n : Nat} (hat : s.boot.activateAt = some n) (hdue : s.swapAt n ≤ s.time.clock) :
    yields .activationReset s fun t => t.f F.RST_CAUSE_LAST = 3 ∧ t.boot.running = false ∧ t.boot.activateAt = none := by
  have hnow : (s.boot.activateAt.any fun n => decide (s.swapAt n ≤ s.time.clock)) = true := by
    rw [hat, Option.any_some, decide_eq_true hdue]
  refine ⟨(s.coldStart F.RST_CAUSE_ACTIVATE 3).releaseNode, congrArg Host.Outcome.next (if_pos hnow), ?_⟩
  have hboot : (s.coldStart F.RST_CAUSE_ACTIVATE 3).releaseNode.boot = { (s.nodeReset true).boot with romDue := true } := by
    rw [(State.releaseNode_within _).same_boot, State.coldStart, State.onBoot_boot, (State.cause_within ..).same_boot]
  refine ⟨?_, ?_, ?_⟩
  · rw [State.f_of_sight (State.releaseNode_sight _) (by decide), State.coldStart, State.f_of_regs (State.onBoot_regs ..), State.cause,
      State.f_put _ _ _ _ _ (by decide)]
    rfl
  · rw [hboot]
    exact (State.nodeReset_boot s true).1
  · rw [hboot]
    exact (State.nodeReset_boot s true).2

/-! ### Confirmation (R531 to R533) -/

theorem State.intentCopy_congr {s t : State} (h : s.boot.flash = t.boot.flash) (k : Nat) : s.intentCopy k = t.intentCopy k := by
  unfold State.intentCopy State.flashRead
  rw [h]

/-- The intent in force, and the copy that the next write goes to, stand in the flash. -/
theorem State.intent_congr {s t : State} (h : s.boot.flash = t.boot.flash) : s.intent = t.intent ∧ s.intentNext = t.intentNext := by
  have hnow : s.intentNow = t.intentNow := by
    rw [State.intentNow, State.intentCopy_congr h, State.intentCopy_congr h, State.intentNow]
  rw [State.intent, State.intentNext, hnow, State.intent, State.intentNext]
  exact ⟨rfl, rfl⟩

theorem State.intentUnits_congr {s t : State} (h : s.boot.flash = t.boot.flash) (i : Intent) : s.intentUnits i = t.intentUnits i := by
  obtain ⟨hintent, hnext⟩ := State.intent_congr h
  rw [State.intentUnits, hintent, hnext, State.intentUnits]

/-- The pair that a context with the right completes. -/
theorem exec_bootConfirm {s : State} {ctx : Fin 8} {version : Nat} (hup : s.pwr.up = true) (hright : s.mayWrite ctx 19 = true) :
    exec (.bootConfirm ctx version) s = .next ((s.put F.BOOT_CONFIRM version).bootConfirm version none 0) :=
  congrArg Host.Outcome.next (if_pos (by rw [hup, hright]; rfl))

/-- A confirmation that counts asks for the write of its intent. -/
theorem State.bootConfirm_taken {s : State} {version e : Nat} (hrun : s.boot.running = true) (htrial : s.b F.BOOT_STATUS_TRIAL = true)
    (hforced : s.boot.forced = false) (hend : s.boot.windowEnd = some e) (htime : s.time.aon ≤ e) (hversion : version = s.boot.version) :
    s.bootConfirm version none 0 = (((s.put F.BOOT_CONFIRM_STATUS_STATE 2).flag F.BOOT_DL_STATUS_PREPARED false).onBoot fun b => { b with
      expired := false }).addJob { kind := .confirm, units := s.intentUnits (confirmedIntent s) } := by
  have hago : s.aonAgo 0 = s.time.aon := by rw [State.aonAgo, Nat.zero_div, Nat.sub_zero]
  have hwindow : (s.boot.windowEnd.any fun e => decide (s.aonAgo 0 ≤ e)) = true := by
    rw [hend, Option.any_some, hago, decide_eq_true htime]
  rw [State.bootConfirm, hrun, htrial, hforced, hwindow, if_neg (by decide), if_neg (by simp [hversion])]
  rfl

/-- A pair that does not count changes nothing. -/
theorem State.bootConfirm_refused {s : State} {version : Nat} (h : s.b F.BOOT_STATUS_TRIAL = false ∨ version ≠ s.boot.version) :
    s.bootConfirm version none 0 = s := by
  unfold State.bootConfirm
  split
  · rfl
  · next hready =>
    have htrial : s.b F.BOOT_STATUS_TRIAL = true := by
      simp only [Bool.or_eq_true, Bool.not_eq_true', not_or, Bool.not_eq_false, Bool.and_eq_true] at hready
      exact hready.1.1.2
    rw [if_pos (bne_iff_ne.mpr (h.resolve_left (by rw [htrial]; exact Bool.noConfusion)))]
    rfl

/-- A confirmation in time, of the running version, is taken and asks for its write. -/
theorem bootConfirm_confirms {s : State} {ctx : Fin 8} {version e : Nat} (hup : s.pwr.up = true) (hright : s.mayWrite ctx 19 = true)
    (hrun : s.boot.running = true) (htrial : s.b F.BOOT_STATUS_TRIAL = true) (hforced : s.boot.forced = false)
    (hend : s.boot.windowEnd = some e) (htime : s.time.aon ≤ e) (hversion : version = s.boot.version) :
    yields (.bootConfirm ctx version) s fun t => t.f F.BOOT_CONFIRM_STATUS_STATE = 2 ∧
      t.boot.jobs.map (fun x => (x.kind, x.units)) = s.boot.jobs.map (fun x => (x.kind, x.units)) ++
        [(JobKind.confirm, s.intentUnits (confirmedIntent s))] := by
  have hother {f : Fld} (hf : f.addr 0 0 = 0x7e0000) : (s.put F.BOOT_CONFIRM version).f f = s.f f :=
    State.f_put_ne _ _ _ _ _ _ _ _ (by rw [hf]; decide)
  have htrial' : (s.put F.BOOT_CONFIRM version).b F.BOOT_STATUS_TRIAL = true := by rw [State.b, hother rfl]; exact htrial
  have hunits : (s.put F.BOOT_CONFIRM version).intentUnits (confirmedIntent (s.put F.BOOT_CONFIRM version)) =
      s.intentUnits (confirmedIntent s) := by
    rw [State.intentUnits_congr (t := s) (by rw [State.put_boot]), confirmedIntent, hother rfl, State.put_boot,
      (State.intent_congr (t := s) (by rw [State.put_boot])).1, confirmedIntent]
  refine ⟨_, exec_bootConfirm hup hright, ?_⟩
  dsimp only
  rw [State.bootConfirm_taken (s := s.put F.BOOT_CONFIRM version) (e := e) (by rw [State.put_boot]; exact hrun) htrial'
    (by rw [State.put_boot]; exact hforced) (by rw [State.put_boot]; exact hend) (by rw [State.put_time]; exact htime)
    (by rw [State.put_boot]; exact hversion), hunits]
  refine ⟨?_, ?_⟩
  · rw [State.f_congr (State.addJob_reg ..), State.f_of_regs (State.onBoot_regs ..), State.f_flag_other _ _ (by decide) (.inl (by decide)),
      State.f_put _ _ _ _ _ (by decide)]
    rfl
  · rw [State.addJob_jobs, List.map_append, State.onBoot_boot, State.flag_boot, State.put_boot, State.put_boot]
    rfl

/-- A pair without a trial that runs, or for another version, is recorded alone. -/
theorem bootConfirm_discards {s : State} {ctx : Fin 8} {version : Nat} (hup : s.pwr.up = true) (hright : s.mayWrite ctx 19 = true)
    (h : s.b F.BOOT_STATUS_TRIAL = false ∨ version ≠ s.boot.version) :
    yields (.bootConfirm ctx version) s fun t => t = s.put F.BOOT_CONFIRM version := by
  have htrial : (s.put F.BOOT_CONFIRM version).b F.BOOT_STATUS_TRIAL = s.b F.BOOT_STATUS_TRIAL :=
    State.b_put_other _ _ (by decide) (.inl (by decide))
  rw [← htrial, ← State.put_boot s F.BOOT_CONFIRM version 0 0] at h
  exact ⟨_, exec_bootConfirm hup hright, State.bootConfirm_refused h⟩

/-- A window that ends marks the node for its reset. -/
theorem confirmWindowExpire_marks {s : State} {e : Nat} (hend : s.boot.windowEnd = some e) (hlate : e < s.time.aon)
    (hconfirming : s.confirming = false) : yields .confirmWindowExpire s fun t =>
    t.boot.expired = true ∧ t.boot.windowEnd = some e ∧ t.f F.BOOT_CONFIRM_STATUS_LEFT = 0 := by
  have hover : ((s.boot.windowEnd.any fun e => decide (e < s.time.aon)) && !s.confirming) = true := by
    rw [hend, Option.any_some, decide_eq_true hlate, hconfirming]
    rfl
  refine ⟨(s.put F.BOOT_CONFIRM_STATUS_LEFT 0).onBoot fun b => { b with expired := true }, congrArg Host.Outcome.next (if_pos hover), ?_⟩
  dsimp only
  rw [State.onBoot_boot, State.put_boot, State.f_of_regs (State.onBoot_regs ..), State.f_put _ _ _ _ _ (by decide)]
  exact ⟨rfl, hend, rfl⟩

theorem confirmWindowExpire_early {s : State} {e : Nat} (hend : s.boot.windowEnd = some e) (hin : s.time.aon ≤ e) :
    yields .confirmWindowExpire s fun t => t = s := by
  have hopen : ¬ ((s.boot.windowEnd.any fun e => decide (e < s.time.aon)) && !s.confirming) = true := by
    rw [hend, Option.any_some, decide_eq_false hin.not_gt]
    exact Bool.false_ne_true
  exact ⟨s, congrArg Host.Outcome.next (if_neg hopen), rfl⟩

/-- Settles O38. -/
theorem bootActs : Obligations.BootActs := by
  refine ⟨fun s flashOk clearOk failing h hlc => ?_, fun s h hlc => ?_, fun s a h hlc => ?_, fun s ok h hranks hdensity => ?_,
    fun s c ok h hranks hdensity => ?_, fun s failed ok h => ?_, fun s ctx hallowed => ?_, fun s ctx h => ?_, fun s ctx hallowed => ?_,
    fun s ctx h => ?_, fun s ctx h => ?_, fun s id v hgo h => ?_, fun s n hat hdue => ?_,
    fun s ctx version e hup hright h hend htime hversion => ?_, fun s ctx version hup hright h => ?_,
    fun s e hend hlate hconfirming => ?_, fun s e hend hin => ?_⟩
  · exact bootRomStart_lifeCycle h hlc
  · exact bootRomStart_noFlash h hlc.1 hlc.2
  · exact bootRomStart_forced h hlc.1 hlc.2.1 hlc.2.2
  · exact memoryTrainingDone_runs h ⟨hranks, hdensity⟩
  · exact memoryTrainingDone_fails h ⟨hranks, hdensity⟩
  · exact memoryTrainingDone_mismatch h
  · exact ⟨_, rfl, dlBegin_erases rfl hallowed⟩
  · exact ⟨_, rfl, dlBegin_erases (cal := true) rfl (by rw [State.dlAllowed, h.1, h.2]; rfl)⟩
  · exact ⟨s, congrArg Host.Outcome.next (State.dlBegin_refused ctx hallowed), rfl⟩
  · exact ⟨_, rfl, dlCancel_erases false ctx h.1 h.2.1⟩
  · exact ⟨_, rfl, dlCancel_erases true ctx h.1 h.2.1⟩
  · exact activatePrepare_erases hgo h.1 h.2.1 h.2.2
  · exact activationReset_resets hat hdue
  · exact bootConfirm_confirms hup hright h.1 h.2.1 h.2.2 hend htime hversion
  · exact bootConfirm_discards hup hright h
  · exact confirmWindowExpire_marks hend hlate hconfirming
  · exact confirmWindowExpire_early hend hin

end Sys2Proof.Machine
end

section
/-! PROOFS. What a scan entry over JTAG leaves in the key store (spec/17_self_test.md R553, R555): the record stored in flash is unwrapped
again at its end. Unwrapping is the opaque constant `Config.unwrapKey`, of which the model says nothing, and the clause of O40 on a scan entry
asks that no record unwraps. O40 is not settled here: what it implies about the constant is proved. -/
set_option Elab.async false
namespace Sys2Proof.Machine

/-! ### The end of a scan entry -/

/-- The clear of the link keys leaves flash and OTP. -/
theorem State.secretClear_links_boot (s : State) : (s.secretClear false).boot = s.boot := by
  refine State.each_keeps State.boot _ _ s fun x p => ?_
  dsimp only
  split
  · exact (State.toFault_within ..).same_boot
  · rfl

/-- The clear of the key store takes the unwrapped key alone. -/
theorem State.secretClear_store_boot (s : State) : (s.secretClear true).boot = { s.boot with wallKey := none } := by
  rw [State.secretClear, if_pos rfl, State.zeroiseKeys, State.onBoot_boot, State.flag_boot, State.put_boot, State.flag_boot]

/-- The scanned logic in its reset state, with every key cleared. -/
def State.scanned (s : State) : State :=
  ((s.secretClear true).secretClear false).each (List.range 28) fun t p => t.partReset p false

theorem exec_jtagScanEntry {s : State} (hopen : s.scanOpen = true) : exec (.jtagScanEntry true) s = .next s.scanned.keyBack := by
  show execJtagScanEntry true s = _
  rw [execJtagScanEntry, hopen, if_neg (by decide)]
  dsimp only
  rw [if_pos rfl, Bool.not_true, Bool.false_and, if_neg Bool.false_ne_true, State.scanned]

theorem State.scanned_boot (s : State) : s.scanned.boot = { s.boot with wallKey := none } := by
  rw [State.scanned, State.each_keeps State.boot _ _ _ fun _ _ => (State.partReset_within ..).same_boot, State.secretClear_links_boot,
    State.secretClear_store_boot]

theorem State.flashRead_congr {s t : State} (h : t.boot.flash = s.boot.flash) (a n : Nat) : t.flashRead a n = s.flashRead a n := by
  rw [State.flashRead, h, State.flashRead]

theorem State.storedKey_congr {s t : State} (h : t.boot.flash = s.boot.flash) : t.storedKey = s.storedKey := by
  simp only [State.storedKey, State.flashRead_congr h]

/-- A record that unwraps makes the wall key valid. -/
theorem State.unwrap_valid (s : State) {rec_ : Bytes} {k : Nat} (h : Config.unwrapKey rec_ = some k) :
    (s.unwrap rec_).1.b F.SEC_WALLKEY_VALID = true := by
  rw [State.unwrap, h]
  dsimp only
  rw [State.b_of_regs (State.onBoot_regs ..), State.b_flag_other _ _ (by decide) (.inl (by decide)),
    State.b_put_other _ _ (by decide) (.inl (by decide))]
  exact State.b_flag _ _ _ _ _ (by decide) rfl

/-- Outside RMA and SCRAPPED a scan entry ends with the stored wall key valid when its record unwraps (R555). -/
theorem State.scanned_keyBack_valid {s : State} {rec_ : Bytes} {k : Nat} (hlc : s.boot.otp.lc ≠ 4 ∧ s.boot.otp.lc ≠ 5)
    (hstored : s.storedKey = some rec_) (hunwraps : Config.unwrapKey rec_ = some k) :
    s.scanned.keyBack.b F.SEC_WALLKEY_VALID = true := by
  have hlc' : s.scanned.boot.otp.lc = s.boot.otp.lc := congrArg (·.otp.lc) s.scanned_boot
  have hstored' : s.scanned.storedKey = some rec_ := (State.storedKey_congr (congrArg (·.flash) s.scanned_boot)).trans hstored
  rw [State.keyBack, hlc', beq_false_of_ne hlc.1, beq_false_of_ne hlc.2, if_neg (by decide), State.loadKey, hstored']
  exact State.unwrap_valid _ hunwraps

/-! ### What O40 asks of the unwrapping -/

/-- A tile whose scan is open and whose flash holds a wall key record of zeros. -/
def scannedTile : State :=
  ((Tests.upTile.put F.LC_STATE_DEBUG 1).put F.BOOT_STRAPS_OTHER 1).onBoot fun b =>
    { b with flash := (List.range 160).map fun k => (fWallKey + k, 0xFF) }

/-- The clause of O40 on a scan entry has no key valid afterwards, whatever the flash holds: with it no record of a node under scan unwraps,
such as one of zeros. -/
theorem unwrapKey_eq_none_of_selfTestActs (h : Obligations.SelfTestActs) : Config.unwrapKey (List.replicate 160 0) = none := by
  obtain ⟨-, -, -, -, -, -, -, hscan, -⟩ := h
  have hopen : scannedTile.scanOpen = true := by decide +kernel
  obtain ⟨t, hnext, hclear, -⟩ := hscan scannedTile hopen (by decide +kernel)
  rw [exec_jtagScanEntry hopen, Host.Outcome.next.injEq] at hnext
  refine Option.eq_none_iff_forall_not_mem.mpr fun k hk => ?_
  have hvalid := State.scanned_keyBack_valid (s := scannedTile) (by decide +kernel) (by decide +kernel) hk
  rw [hnext, hclear] at hvalid
  exact Bool.false_ne_true hvalid

end Sys2Proof.Machine
end

section
/-! PROOFS. Logic and memory self-tests (spec/17_self_test.md R549 to R562, R566): what a request starts or refuses, what the end of a test
records, ABORT and CLEAR, and the online rotation of the standby. -/
set_option Elab.async false
namespace Sys2Proof.Machine

/-! ### The registers of the self-test controller (R566 to R571) -/

/-- A write of `f` leaves `g`: fields of different registers, or of different bits. -/
abbrev apartFld (g f : Fld) : Prop := f.lo + f.w ≤ 32 ∧ (g.addr 0 0 ≠ f.addr 0 0 ∨ g.lo + g.w ≤ f.lo ∨ f.lo + f.w ≤ g.lo)

theorem State.f_put_apart {g f : Fld} (h : apartFld g f) (s : State) (v : Nat) : (s.put f v).f g = s.f g := s.f_put_other v h.1 h.2
theorem State.f_flag_apart {g f : Fld} (h : apartFld g f) (s : State) (v : Bool) : (s.flag f v).f g = s.f g := s.f_put_apart h _
theorem State.f_inc_apart {g f : Fld} (h : apartFld g f) (s : State) : (s.inc f).f g = s.f g := s.f_put_apart h _
theorem State.f_put64_apart {g lo hi : Fld} (hlo : apartFld g lo) (hhi : apartFld g hi) (s : State) (v : Nat) :
    (s.put64 lo hi v).f g = s.f g := (State.f_put_apart hhi _ _).trans (s.f_put_apart hlo v)

/-- The fields that show partition BIST_SEL. -/
def selFields : List Fld := [F.BIST_SEL_SEED_LO, F.BIST_SEL_SEED_HI, F.BIST_SEL_EXPECT_LO, F.BIST_SEL_EXPECT_HI, F.BIST_SEL_MISR_LO,
  F.BIST_SEL_MISR_HI, F.BIST_SEL_INFO_RESULT, F.BIST_SEL_INFO_EXPECT_VALID, F.BIST_SEL_INFO_AGE]

theorem State.bistSel_f {g : Fld} (h : ∀ f ∈ selFields, apartFld g f) (s : State) : s.bistSel.f g = s.f g := by
  unfold State.bistSel
  extract_lets x expected shown
  have hexpected : expected.f g = s.f g := by
    rw [State.f_put64_apart (h F.BIST_SEL_EXPECT_LO (by decide)) (h F.BIST_SEL_EXPECT_HI (by decide)),
      State.f_put64_apart (h F.BIST_SEL_SEED_LO (by decide)) (h F.BIST_SEL_SEED_HI (by decide))]
  have hshown : shown.f g = expected.f g := by
    rw [State.f_put_apart (h F.BIST_SEL_INFO_RESULT (by decide)),
      State.f_put64_apart (h F.BIST_SEL_MISR_LO (by decide)) (h F.BIST_SEL_MISR_HI (by decide))]
  rw [State.f_put_apart (h F.BIST_SEL_INFO_AGE (by decide)), State.f_flag_apart (h F.BIST_SEL_INFO_EXPECT_VALID (by decide)), hshown,
    hexpected]

/-- The fields that follow the state of the controller. -/
def bistFields : List Fld := F.BIST_STATUS_BUSY :: F.BIST_LB_FAILED :: selFields

theorem State.bistRegs_f {g : Fld} (h : ∀ f ∈ bistFields, apartFld g f) (s : State) : s.bistRegs.f g = s.f g := by
  rw [State.bistRegs, State.bistSel_f fun f hf => h f (List.mem_cons_of_mem _ (List.mem_cons_of_mem _ hf)),
    State.f_put_apart (h F.BIST_LB_FAILED (by decide)), State.f_flag_apart (h F.BIST_STATUS_BUSY (by decide))]

@[simp] theorem State.bistRegs_bist (s : State) : s.bistRegs.bist = s.bist := (State.bistRegs_within s).same_bist

/-- BUSY is set while a test runs. -/
theorem State.bistRegs_busy (s : State) : s.bistRegs.b F.BIST_STATUS_BUSY = s.bist.run.isSome := by
  rw [State.bistRegs, State.b, State.bistSel_f (by decide), State.f_put_apart (by decide), ← State.b]
  exact State.b_flag _ _ _ _ _ (by decide) rfl

/-- The run of the controller, as its registers show it. -/
def State.setRun (s : State) (r : Option BRun) : State := (s.onBist fun b => { b with run := r }).bistRegs

theorem State.setRun_bist (s : State) (r : Option BRun) : (s.setRun r).bist = { s.bist with run := r } := by
  rw [State.setRun, State.bistRegs_bist, State.onBist_bist]

theorem State.setRun_failed (s : State) (r : Option BRun) : (s.setRun r).bist.failed = s.bist.failed := by rw [State.setRun_bist]

theorem State.setRun_busy (s : State) (r : Option BRun) : (s.setRun r).b F.BIST_STATUS_BUSY = r.isSome := by
  rw [State.setRun, State.bistRegs_busy, State.onBist_bist]

theorem State.setRun_f {g : Fld} (h : ∀ f ∈ bistFields, apartFld g f) (s : State) (r : Option BRun) : (s.setRun r).f g = s.f g := by
  rw [State.setRun, State.bistRegs_f h, State.onBist_f]

theorem State.setRun_bpart (s : State) (r : Option BRun) (p : Nat) : (s.setRun r).bpart p = s.bpart p := by
  rw [State.bpart, State.setRun_bist, State.bpart]

theorem State.setRun_fold (s : State) (r : Option BRun) (n : Nat) : (s.setRun r).fold n = s.fold n :=
  (State.fold_congr (State.bistRegs_within _).same_folds n).trans (State.onBist_fold ..)

/-- The record of a partition after an update of it. -/
theorem State.onPart_bpart {s : State} {p : Nat} (f : BPart → BPart) (h : p < s.bist.parts.length) :
    (s.onPart p f).bpart p = f (s.bpart p) := nth_modAt_same _ _ _ _ h

/-! ### Self-test faults (R563) -/

/-- The fields that a self-test fault writes, beside the causes of the interrupts. -/
def faultFields : List Fld := [F.BIST_LAST_FAULT_SEC, F.BIST_LAST_FAULT_NS, F.BIST_STATUS_SELF_TEST_FAULT, F.RING_STATUS_HANDBACK_PENDING]

theorem State.irqAll_health_reg (s : State) {a : Nat} (h : a % 0x1000 ≠ 0x38) : (s.irqAll F.CTXn_IRQ_CAUSE_HEALTH).reg a = s.reg a :=
  State.each_keeps (fun t : State => t.reg a) _ _ s fun x c =>
    x.irq_reg _ c (by simp only [Fld.addr, F.CTXn_IRQ_CAUSE_HEALTH]; omega)

theorem State.selfTestFault_f {g : Fld} (h : ∀ f ∈ faultFields, apartFld g f) (hcause : g.addr 0 0 % 0x1000 ≠ 0x38) (s : State) :
    s.selfTestFault.f g = s.f g := by
  unfold State.selfTestFault
  extract_lets noted timed
  have htimed : timed.f g = s.f g := by
    rw [State.f_flag_apart (h F.BIST_STATUS_SELF_TEST_FAULT (by decide)), State.f_put_apart (h F.BIST_LAST_FAULT_NS (by decide)),
      State.f_put_apart (h F.BIST_LAST_FAULT_SEC (by decide)), State.onBist_f]
  rw [State.lapse, State.f_of_regs (State.onRing_regs ..), State.f_flag_apart (h F.RING_STATUS_HANDBACK_PENDING (by decide)),
    State.noteFault_f, State.f_congr (State.irqAll_health_reg _ hcause), htimed]

theorem State.selfTestFault_bist (s : State) : s.selfTestFault.bist = { s.bist with lastFault := some s.time.clock } := by
  unfold State.selfTestFault
  extract_lets noted timed
  rw [State.lapse, State.onRing_bist, State.flag_bist, (State.noteFault_within _).same_bist, (State.irqAll_within ..).same_bist,
    State.flag_bist, State.put_bist, State.put_bist, State.onBist_bist]

/-! ### Requests (R552, R556, R562) -/

/-- A mask with one bit names one partition or memory. -/
theorem bitList_two_pow {p n : Nat} (h : p < n) : bitList (2 ^ p) n = [p] := by
  have hbit (k : Nat) : bitOf (2 ^ p) k = (k == p) := by
    rw [bitOf_eq_testBit, Nat.testBit_two_pow, beq_eq_decide, decide_eq_decide]
    exact eq_comm
  rw [bitList, funext hbit, List.filter_beq, List.count_eq_one_of_mem List.nodup_range (List.mem_range.mpr h), List.replicate_one]

/-- A quiescent partition or memory without keys, with a signature where it needs one, starts. -/
theorem State.bistNext_starts {s : State} {ok mem : Bool} {i : Nat} {rest : List Nat} (hvalid : mem = true ∨ (s.bpart i).valid = true)
    (hquiet : (if mem then s.memQuiet i else s.partQuiet i) = true) (hbarred : s.bist.barred = []) (hkeys : holdsKeys mem i = false) :
    s.bistNext ok (i :: rest) mem = s.setRun (some { mem := mem, online := false, left := i :: rest }) := by
  have hsigned : ¬ (!mem && !(s.bpart i).valid) = true := by
    rcases hvalid with h | h <;> simp [h]
  have hclear : s.clearFor mem i ok = (s, true) := by rw [State.clearFor, hkeys]; rfl
  rw [State.bistNext, if_neg hsigned, hquiet, if_neg (by decide), hbarred, if_neg (by simp), hclear]
  rfl

/-- One that has no signature, or is not quiescent, is refused. -/
theorem State.bistNext_refuses {s : State} {ok : Bool} {p : Nat} {rest : List Nat}
    (h : (s.bpart p).valid = false ∨ s.partQuiet p = false) :
    s.bistNext ok (p :: rest) false = (s.put F.BIST_STATUS_REFUSED (if (s.bpart p).valid then 3 else 5)).bistNext ok rest false := by
  rw [State.bistNext]
  cases hvalid : (s.bpart p).valid with
  | false => rfl
  | true =>
    rw [hvalid] at h
    simp [h.resolve_left (by decide)]

/-- A request that the preconditions bar is refused as a whole. -/
theorem State.bistRequest_refused {s : State} (mem ok : Bool) (hup : s.pwr.up = true) (hidle : s.bist.run = none) (h : s.precond ≠ 0) :
    s.bistRequest mem ok = (s.put F.BIST_STATUS_REFUSED s.precond).inc F.BIST_REFUSALS := by
  rw [State.bistRequest, hup, hidle, if_neg (by decide), if_pos (bne_iff_ne.mpr h)]

/-- A request that the preconditions allow goes through the partitions of its mask. -/
theorem State.bistRequest_logic {s : State} (ok : Bool) (hup : s.pwr.up = true) (hidle : s.bist.run = none) (h : s.precond = 0) :
    s.bistRequest false ok = s.bistNext ok (bitList (s.f F.BIST_LB_MASK) 28) false := by
  rw [State.bistRequest, hup, hidle, if_neg (by decide), h, if_neg (by decide), if_neg (by decide)]

theorem State.bistRequest_memory {s : State} (ok : Bool) (hup : s.pwr.up = true) (hidle : s.bist.run = none) (h : s.precond = 0) :
    s.bistRequest true ok = (s.flag F.BIST_MB_RESULT_VALID false).bistNext ok
      (bitList ((s.flag F.BIST_MB_RESULT_VALID false).f64 F.BIST_MB_MASK_LO F.BIST_MB_MASK_HI) 44) true := by
  rw [State.bistRequest, hup, hidle, if_neg (by decide), h, if_neg (by decide), if_pos rfl]

theorem lbGo_starts {s : State} {ok : Bool} {p : Nat} (hup : s.pwr.up = true) (hidle : s.bist.run = none) (hpre : s.precond = 0) (hp : p < 28)
    (hkeys : p ≠ 20) (hmask : s.f F.BIST_LB_MASK = 2 ^ p) (hvalid : (s.bpart p).valid = true) (hquiet : s.partQuiet p = true)
    (hbarred : s.bist.barred = []) : yields (.lbGo ok) s fun t => t.bist.run = some { mem := false, online := false, left := [p] } ∧
      t.b F.BIST_STATUS_BUSY = true ∧ t.f F.BIST_REFUSALS = s.f F.BIST_REFUSALS := by
  have hstart : s.bistRequest false ok = s.setRun (some { mem := false, online := false, left := [p] }) := by
    rw [State.bistRequest_logic ok hup hidle hpre, hmask, bitList_two_pow hp]
    exact State.bistNext_starts (.inr hvalid) hquiet hbarred (beq_false_of_ne hkeys)
  refine ⟨_, congrArg Host.Outcome.next hstart, ?_, State.setRun_busy .., State.setRun_f (by decide) ..⟩
  rw [State.setRun_bist]

theorem lbGo_barred {s : State} {ok : Bool} (hup : s.pwr.up = true) (hidle : s.bist.run = none) (hpre : s.precond ≠ 0) :
    yields (.lbGo ok) s fun t => t.f F.BIST_STATUS_REFUSED = s.precond ∧
      t.f F.BIST_REFUSALS = min (s.f F.BIST_REFUSALS + 1) (2 ^ F.BIST_REFUSALS.w - 1) ∧ t.bist = s.bist := by
  have hlt : s.precond < 8 := by
    unfold State.precond
    split
    · decide
    · split <;> decide
  refine ⟨_, congrArg Host.Outcome.next (State.bistRequest_refused false ok hup hidle hpre), ?_, ?_, ?_⟩
  · rw [State.f_inc_apart (by decide), State.f_put _ _ _ _ _ (by decide)]
    exact Nat.mod_eq_of_lt hlt
  · rw [State.inc, State.f_add _ _ _ _ _ (by decide), State.f_put_apart (by decide)]
  · rw [State.inc_bist, State.put_bist]

theorem lbGo_refuses {s : State} {ok : Bool} {p : Nat} (hup : s.pwr.up = true) (hidle : s.bist.run = none) (hpre : s.precond = 0) (hp : p < 28)
    (hmask : s.f F.BIST_LB_MASK = 2 ^ p) (h : (s.bpart p).valid = false ∨ s.partQuiet p = false) :
    yields (.lbGo ok) s fun t => t.bist.run = none ∧ t.f F.BIST_STATUS_REFUSED = if (s.bpart p).valid then 3 else 5 := by
  have hrefused : s.bistRequest false ok =
      (s.put F.BIST_STATUS_REFUSED (if (s.bpart p).valid then 3 else 5)).setRun none := by
    rw [State.bistRequest_logic ok hup hidle hpre, hmask, bitList_two_pow hp, State.bistNext_refuses h]
    rfl
  refine ⟨_, congrArg Host.Outcome.next hrefused, ?_, ?_⟩
  · rw [State.setRun_bist]
  · rw [State.setRun_f (by decide), State.f_put _ _ _ _ _ (by decide)]
    split <;> rfl

theorem mbGo_starts {s : State} {ok : Bool} {i : Nat} (hup : s.pwr.up = true) (hidle : s.bist.run = none) (hpre : s.precond = 0) (hi : i < 43)
    (hmask : s.f64 F.BIST_MB_MASK_LO F.BIST_MB_MASK_HI = 2 ^ i) (hquiet : s.memQuiet i = true) (hbarred : s.bist.barred = []) :
    yields (.mbGo ok) s fun t => t.bist.run = some { mem := true, online := false, left := [i] } ∧ t.b F.BIST_STATUS_BUSY = true ∧
      t.b F.BIST_MB_RESULT_VALID = false := by
  have hmask' : (s.flag F.BIST_MB_RESULT_VALID false).f64 F.BIST_MB_MASK_LO F.BIST_MB_MASK_HI = 2 ^ i := by
    rw [State.f64, State.f_flag_apart (by decide), State.f_flag_apart (by decide), ← State.f64, hmask]
  have hquiet' : (s.flag F.BIST_MB_RESULT_VALID false).memQuiet i = s.memQuiet i := by
    have hother {g : Fld} {n : Nat} (h : g.addr n 0 ≠ F.BIST_MB_RESULT_VALID.addr 0 0) :
        (s.flag F.BIST_MB_RESULT_VALID false).f g n = s.f g n := State.f_put_ne _ _ _ _ _ _ _ _ h
    have hfold : (s.flag F.BIST_MB_RESULT_VALID false).foldState (i % 4) = s.foldState (i % 4) :=
      hother (by simp only [Fld.addr, F.FOLDn_STATUS_STATE, F.BIST_MB_RESULT_VALID]; omega)
    have hport : (s.flag F.BIST_MB_RESULT_VALID false).b F.LAMP_PORTp_CFG_ENABLE (i - 24) = s.b F.LAMP_PORTp_CFG_ENABLE (i - 24) := by
      rw [State.b, hother (by simp only [Fld.addr, F.LAMP_PORTp_CFG_ENABLE, F.BIST_MB_RESULT_VALID]; omega), State.b]
    have hbench : (s.flag F.BIST_MB_RESULT_VALID false).testBench = s.testBench := by
      rw [State.testBench, State.lockedState, hother (by decide), State.flag_boot, State.testBench, State.lockedState]
    rw [State.memQuiet, hfold, hport, hbench, State.memQuiet]
  have hstart : s.bistRequest true ok =
      (s.flag F.BIST_MB_RESULT_VALID false).setRun (some { mem := true, online := false, left := [i] }) := by
    rw [State.bistRequest_memory ok hup hidle hpre, hmask', bitList_two_pow (by omega)]
    refine State.bistNext_starts (.inl rfl) (by rw [if_pos rfl, hquiet', hquiet]) (by rw [State.flag_bist, hbarred]) ?_
    exact beq_false_of_ne (by omega)
  refine ⟨_, congrArg Host.Outcome.next hstart, ?_, State.setRun_busy .., ?_⟩
  · rw [State.setRun_bist]
  · rw [State.b, State.setRun_f (by decide), ← State.b]
    exact State.b_flag _ _ _ _ _ (by decide) rfl

/-! ### ABORT and CLEAR (R566) -/

/-- ABORT of a request ends its test and the request. -/
theorem State.bistAbort_request {s : State} {r : BRun} (hrun : s.bist.run = some r) (hrequest : r.online = false) :
    s.bistAbort = (s.testAborted r).setRun none := by
  rw [State.bistAbort, hrun]
  dsimp only
  rw [hrequest, if_neg Bool.false_ne_true]
  rfl

theorem exec_bistAbort {s : State} (hup : s.pwr.up = true) : exec .bistAbort s = .next s.bistAbort := congrArg Host.Outcome.next (if_pos hup)

theorem bistAbort_ends {s : State} {r : BRun} (hup : s.pwr.up = true) (hrun : s.bist.run = some r) (hrequest : r.online = false) :
    yields .bistAbort s fun t => t.bist.run = none ∧ t.b F.BIST_STATUS_BUSY = false := by
  refine ⟨_, exec_bistAbort hup, ?_⟩
  dsimp only
  rw [State.bistAbort_request hrun hrequest, State.setRun_bist, State.setRun_busy]
  exact ⟨rfl, rfl⟩

/-- The records of the partitions. -/
def State.parts (s : State) : List BPart := s.bist.parts

theorem State.parts_congr {s t : State} (h : s.bist = t.bist) : s.parts = t.parts := by rw [State.parts, h, State.parts]

theorem State.healthFrom_parts (s : State) : s.healthFrom.parts = s.parts := rfl

/-- The clock of a bellwether that steps changes no record of a partition. -/
theorem State.stepClock_parts (s : State) (c st : Nat) : (s.stepClock c st).parts = s.parts := by
  rw [State.stepClock, State.healthFrom_parts, State.parts_congr (State.timeEvent_within ..).same_bist,
    State.parts_congr (State.put_bist ..), State.parts_congr (State.put_bist ..), State.parts_congr (State.onTime_bist ..),
    State.parts_congr (State.restarts_within ..).same_bist]

theorem State.bwStep_parts (s : State) (target st src : Nat) : (s.bwStep target st src).parts = s.parts := by
  unfold State.bwStep
  extract_lets g judged stepped
  have hstepped : stepped.parts = judged.parts := by
    dsimp only [stepped]
    rw [State.parts_congr (State.timeEvent_within ..).same_bist, State.stepClock_parts, State.parts_congr (State.onTime_bist ..)]
  clear_value stepped
  rw [State.parts_congr (State.setErr_within ..).same_bist, State.parts_congr (State.put_bist ..), State.parts_congr (State.put_bist ..),
    State.parts_congr (State.put_bist ..), hstepped]
  exact State.parts_congr (State.onRing_bist ..)

theorem State.bwRelock_parts (s : State) : s.bwRelock.parts = s.parts := by
  unfold State.bwRelock State.electStep
  extract_lets m
  split
  · split
    · exact s.bwStep_parts ..
    · split
      · exact s.bwStep_parts ..
      · exact (State.parts_congr (State.holdover_within _).same_bist).trans (s.bwStep_parts ..)
  · rfl

theorem State.islandStart_parts (s : State) (i : Nat) : (s.islandStart i).parts = s.parts := by
  unfold State.islandStart
  split
  · refine State.each_keeps State.parts _ _ s fun x p => ?_
    split
    · exact State.parts_congr (State.toDetect_within ..).same_bist
    · rfl
  · split
    · exact s.bwRelock_parts
    · split
      · exact State.parts_congr (State.lampStatus_within _).same_bist
      · split
        · exact State.parts_congr (State.scrubAnew_within _).same_bist
        · rfl

/-- The reset state of a tested partition leaves the records of all partitions. -/
theorem State.partReset_parts (s : State) (p : Nat) (online : Bool) : (s.partReset p online).parts = s.parts := by
  unfold State.partReset
  split
  · extract_lets n keep
    split
    · split
      · rfl
      · exact State.parts_congr ((State.onFold_bist ..).trans (State.foldReset_within ..).same_bist)
    · rfl
  · split
    · rfl
    · extract_lets i emptied
      have hemptied : emptied.parts = s.parts :=
        State.parts_congr ((State.resetStatus_within ..).same_bist.trans (State.islandContent_within ..).same_bist)
      split
      · exact hemptied
      · exact (State.islandStart_parts ..).trans hemptied

/-- The partition in progress ends ABORTED. -/
theorem bistAbort_records {s : State} {r : BRun} {p : Nat} {rest : List Nat} (hup : s.pwr.up = true) (hrun : s.bist.run = some r)
    (hrequest : r.online = false) (hlogic : r.mem = false) (hleft : r.left = p :: rest) (hp : p < 28) (hparts : s.bist.parts.length = 28) :
    yields .bistAbort s fun t => (t.bpart p).result = 3 := by
  refine ⟨_, exec_bistAbort hup, ?_⟩
  have hlen : p < (s.partReset p r.online).bist.parts.length := by
    rw [← State.parts, State.partReset_parts, State.parts, hparts]
    exact hp
  dsimp only
  rw [State.bistAbort_request hrun hrequest, State.setRun_bpart, State.testAborted, hleft]
  dsimp only
  rw [hlogic, if_neg Bool.false_ne_true, State.onPart_bpart _ hlen]

theorem bistClear_zeroes {s : State} (hup : s.pwr.up = true) : yields .bistClear s fun t => t.f F.BIST_LB_RUNS = 0 ∧ t.f F.BIST_LB_FAILS = 0 ∧
    t.f F.BIST_LB_MISSED = 0 ∧ t.f F.BIST_MB_FAILS = 0 ∧ t.f F.BIST_REFUSALS = 0 := by
  refine ⟨s.bistClear, congrArg Host.Outcome.next (if_pos hup), ?_⟩
  have hzero {x : State} {f : Fld} (h : f.lo + f.w ≤ 32) : (x.put f 0).f f = 0 := (State.f_put _ _ _ _ _ h).trans (Nat.zero_mod _)
  simp only [State.bistClear, State.each, List.foldl_cons, List.foldl_nil]
  refine ⟨?_, ?_, ?_, ?_, hzero (by decide)⟩
  · rw [State.f_put_apart (by decide), State.f_put_apart (by decide), State.f_put_apart (by decide), State.f_put_apart (by decide),
      hzero (by decide)]
  · rw [State.f_put_apart (by decide), State.f_put_apart (by decide), State.f_put_apart (by decide), hzero (by decide)]
  · rw [State.f_put_apart (by decide), State.f_put_apart (by decide), hzero (by decide)]
  · rw [State.f_put_apart (by decide), hzero (by decide)]

/-! ### The ends of tests (R549, R551, R552, R560, R562) -/

theorem bistPrecondSample_marks {s : State} {r : BRun} (hpre : s.precond ≠ 0) (hrun : s.bist.run = some r) :
    yields .bistPrecondSample s fun t => t = s.onBist fun b => { b with run := some { r with bad := true } } := by
  refine ⟨_, congrArg Host.Outcome.next (if_pos (bne_iff_ne.mpr hpre)), ?_⟩
  rw [State.onBist, State.onBist, hrun]
  rfl

/-- The signature of a partition is recorded and judged. -/
def State.partJudged (s : State) (p misr : Nat) : State :=
  let pass := misr % 2 ^ 64 == (s.bpart p).expect
  let s := (s.onPart p fun x => { x with misr := misr % 2 ^ 64, result := if pass then 1 else 2, at_ := some s.time.aon }).inc F.BIST_LB_RUNS
  if pass then s else (s.inc F.BIST_LB_FAILS).selfTestFault

/-- A partition of a fold beside its sequencer holds nothing that outlives its test: it is judged, and the request ends. -/
theorem exec_lbistPartitionDone {s : State} {misr p : Nat} {ok : Bool} (hrun : s.bist.run = some { mem := false, online := false, left := [p] })
    (hpre : s.precond = 0) (hp : p < 20) (hstage : p % 5 ≠ 0) :
    exec (.lbistPartitionDone misr ok) s = .next ((s.partJudged p misr).setRun none) := by
  have hreset : s.partReset p false = s := by rw [State.partReset, if_pos hp, beq_false_of_ne hstage]; rfl
  show execLbistPartitionDone misr ok s = _
  rw [execLbistPartitionDone, hrun]
  dsimp only
  rw [hpre, if_neg (by decide), hreset]
  rfl

theorem State.partJudged_run (s : State) (p misr : Nat) : (s.partJudged p misr).f F.BIST_LB_RUNS =
    min (s.f F.BIST_LB_RUNS + 1) (2 ^ F.BIST_LB_RUNS.w - 1) ∧ (s.partJudged p misr).f F.BIST_LB_FAILS =
      (if misr % 2 ^ 64 = (s.bpart p).expect then s.f F.BIST_LB_FAILS else min (s.f F.BIST_LB_FAILS + 1) (2 ^ F.BIST_LB_FAILS.w - 1)) := by
  unfold State.partJudged
  extract_lets pass counted
  have hruns : counted.f F.BIST_LB_RUNS = min (s.f F.BIST_LB_RUNS + 1) (2 ^ F.BIST_LB_RUNS.w - 1) := State.f_add _ _ _ _ _ (by decide)
  have hfails : counted.f F.BIST_LB_FAILS = s.f F.BIST_LB_FAILS := State.f_inc_apart (by decide) _
  by_cases hpass : misr % 2 ^ 64 = (s.bpart p).expect
  · rw [if_pos (beq_iff_eq.mpr hpass), if_pos hpass]
    exact ⟨hruns, hfails⟩
  · rw [if_neg (by rw [beq_iff_eq]; exact hpass), if_neg hpass, State.selfTestFault_f (by decide) (by decide),
      State.selfTestFault_f (by decide) (by decide), State.f_inc_apart (by decide), State.inc, State.f_add _ _ _ _ _ (by decide), hfails]
    exact ⟨hruns, rfl⟩

theorem State.partJudged_part {s : State} {p : Nat} (misr : Nat) (h : p < s.bist.parts.length) : (s.partJudged p misr).bpart p =
    { s.bpart p with misr := misr % 2 ^ 64, result := if misr % 2 ^ 64 = (s.bpart p).expect then 1 else 2, at_ := some s.time.aon } := by
  unfold State.partJudged
  extract_lets pass counted
  have hcounted : counted.bpart p = { s.bpart p with
      misr := misr % 2 ^ 64, result := if misr % 2 ^ 64 = (s.bpart p).expect then 1 else 2, at_ := some s.time.aon } := by
    rw [State.bpart, State.inc_bist, ← State.bpart, State.onPart_bpart _ h]
    simp only [pass, beq_iff_eq]
  clear_value counted
  rw [← hcounted]
  split
  · rfl
  · rw [State.bpart, State.selfTestFault_bist, State.inc_bist, State.bpart]

theorem lbistPartitionDone_judges {s : State} {misr p : Nat} {ok : Bool}
    (hrun : s.bist.run = some { mem := false, online := false, left := [p] }) (hpre : s.precond = 0) (hp : p < 20) (hstage : p % 5 ≠ 0)
    (hparts : s.bist.parts.length = 28) : yields (.lbistPartitionDone misr ok) s fun t => t.bist.run = none ∧
      t.f F.BIST_LB_RUNS = min (s.f F.BIST_LB_RUNS + 1) (2 ^ F.BIST_LB_RUNS.w - 1) ∧ (t.bpart p).misr = misr % 2 ^ 64 ∧
      (t.bpart p).result = (if misr % 2 ^ 64 = (s.bpart p).expect then 1 else 2) ∧ t.f F.BIST_LB_FAILS =
        (if misr % 2 ^ 64 = (s.bpart p).expect then s.f F.BIST_LB_FAILS else min (s.f F.BIST_LB_FAILS + 1) (2 ^ F.BIST_LB_FAILS.w - 1)) := by
  obtain ⟨hruns, hfails⟩ := s.partJudged_run p misr
  refine ⟨_, exec_lbistPartitionDone hrun hpre hp hstage, ?_⟩
  dsimp only
  rw [State.setRun_bist, State.setRun_bpart, State.setRun_f (by decide), State.setRun_f (by decide),
    State.partJudged_part misr (by omega), hruns, hfails]
  exact ⟨rfl, rfl, rfl, rfl, rfl⟩

/-- After the last partition or memory of a request nothing runs. -/
theorem State.bistContinue_last (s : State) (mem ok : Bool) (i : Nat) :
    s.bistContinue { mem := mem, online := false, left := [i] } ok = s.setRun none := rfl

/-- The memory tested holds zeros; no failure is met. -/
theorem exec_mbistInstanceDone_pass {s : State} {ok : Bool} {i : Nat} (hrun : s.bist.run = some { mem := true, online := false, left := [i] })
    (hpre : s.precond = 0) (hi : i < 43) : exec (.mbistInstanceDone none ok) s = .next ((s.instLeft i false).setRun none) := by
  show execMbistInstanceDone none ok s = _
  rw [execMbistInstanceDone, hrun]
  dsimp only
  rw [hpre, if_neg (by decide), State.when, beq_false_of_ne (show i ≠ 43 by omega), if_neg Bool.false_ne_true,
    State.bistContinue_last]

theorem mbistInstanceDone_zeroes {s : State} {ok : Bool} {i : Nat} (hrun : s.bist.run = some { mem := true, online := false, left := [i] })
    (hpre : s.precond = 0) (hi : i < 4) (hfolds : s.folds.length = 4) : yields (.mbistInstanceDone none ok) s fun t => t.bist.run = none ∧
      (t.fold i).prog = [] ∧ (t.fold i).progBad = [] ∧ t.f F.BIST_MB_FAILS = s.f F.BIST_MB_FAILS := by
  have hleft : s.instLeft i false = s.onFold i fun f => { f with prog := [], progBad := [] } := by rw [State.instLeft, if_pos hi]; rfl
  refine ⟨_, exec_mbistInstanceDone_pass hrun hpre (by omega), ?_⟩
  dsimp only
  rw [State.setRun_bist, State.setRun_fold, State.setRun_f (by decide), hleft, State.fold_onFold_same _ (by omega), State.onFold_f]
  exact ⟨rfl, rfl, rfl, rfl⟩

/-- Zeroing a memory other than the key store leaves the registers. -/
theorem State.instLeft_regs (s : State) {i : Nat} (hi : i < 43) : (s.instLeft i false).regs = s.regs := by
  unfold State.instLeft
  extract_lets k t fill
  have ht : t.regs = s.regs := rfl
  by_cases h40 : i < 40
  · split
    · exact ht
    · split
      · exact ht
      · split
        · exact ht
        · split
          · exact ht
          · split
            · exact ht
            · exact ht
  · rw [if_neg (by omega), if_neg (by omega), if_neg (by omega), if_neg (by omega), if_neg (by omega), if_neg h40]
    split
    · exact ht
    · split
      · exact ht
      · split
        · exact ht
        · next h40' h41 h42 =>
          simp only [beq_iff_eq] at h40' h41 h42
          omega

/-! ### A failing memory (R560, R561) -/

/-- A field of a fold's registers, which stand below 0x200000 for the four folds. -/
abbrev foldFld (f : Fld) : Prop := f.s1 = 0x40000 ∧ f.s2 = 0 ∧ f.base < 0x140000

theorem State.reg_put_fold {f : Fld} (hf : foldFld f) {n a : Nat} (hn : n < 4) (ha : 0x200000 ≤ a) (s : State) (v : Nat) :
    (s.put f v n).reg a = s.reg a := by
  obtain ⟨h1, h2, hbase⟩ := hf
  exact State.reg_put_ne _ _ _ _ _ _ (by rw [Fld.addr, h1, h2]; omega)

theorem State.reg_flag_fold {f : Fld} (hf : foldFld f) {n a : Nat} (hn : n < 4) (ha : 0x200000 ≤ a) (s : State) (v : Bool) :
    (s.flag f v n).reg a = s.reg a := s.reg_put_fold hf hn ha _

theorem State.wakeFlags_high (s : State) (m : Nat) {a : Nat} (ha : 0x200000 ≤ a) : (s.wakeFlags m).reg a = s.reg a := by
  refine State.each_keeps_mem (fun t : State => t.reg a) _ _ s fun x n hn => ?_
  have hwait (v : Bool) : ((x.unwait n).onFold n fun f => { f with v := v }).reg a = x.reg a :=
    x.reg_put_fold (f := F.FOLDn_STATUS_WAIT) (by decide) (List.mem_range.mp hn) ha 0
  split
  · split
    · rfl
    · split
      · exact hwait false
      · split
        · rfl
        · exact hwait true
  · rfl

theorem State.runDown_high (s : State) {n a : Nat} (hn : n < 4) (ha : 0x200000 ≤ a) : (s.runDown n).reg a = s.reg a := by
  unfold State.runDown
  extract_lets ended counted
  have hcounted : counted.reg a = ended.reg a := by
    dsimp only [counted]
    split <;> rfl
  exact hcounted.trans (s.reg_put_fold (f := F.FOLDn_STATUS_WAIT) (by decide) hn ha 0)

theorem State.reportRun_high (s : State) {n a : Nat} (hn : n < 4) (ha : 0x200000 ≤ a) : (s.reportRun n).reg a = s.reg a := by
  unfold State.reportRun
  extract_lets f timed discarded composed
  have htimed : timed.reg a = s.reg a := by rw [State.reg_put_fold (by decide) hn ha, State.reg_put_fold (by decide) hn ha]
  clear_value timed
  have hdiscarded : discarded.reg a = timed.reg a := by
    dsimp only [discarded]
    split
    · rw [State.onFold_reg, State.reg_flag_fold (by decide) hn ha]
    · rfl
  have hcomposed : composed.reg a = discarded.reg a := by
    rw [State.reg_put_fold (by decide) hn ha, State.reg_put_fold (by decide) hn ha]
  rw [State.reg_put_fold (by decide) hn ha, State.reg_put_fold (by decide) hn ha, hcomposed, hdiscarded, htimed]

/-- The reset of a fold leaves every register beyond those of the folds. -/
theorem State.foldReset_high (s : State) {n a : Nat} (hn : n < 4) (ha : 0x200000 ≤ a) : (s.foldReset n).reg a = s.reg a := by
  unfold State.foldReset
  extract_lets f ended discarded emptied
  have hrun : (s.endRun n).reg a = s.reg a := by
    rw [State.endRun_eq, State.wakeFlags_high _ _ ha, State.reg_flag_fold (by decide) hn ha, State.reg_flag_fold (by decide) hn ha,
      State.reportRun_high _ hn ha, State.runDown_high _ hn ha]
  have hended : ended.reg a = s.reg a := by
    dsimp only [ended]
    split
    · rw [State.reg, State.onComp_regs, ← State.reg, hrun]
    · rfl
  clear_value ended
  have hdiscarded : discarded.reg a = ended.reg a := by
    dsimp only [discarded]
    split
    · rw [State.reg_flag_fold (by decide) hn ha]
    · rfl
  rw [State.reg_put_fold (by decide) hn ha, State.reg_put_fold (by decide) hn ha, State.reg_put_fold (by decide) hn ha, State.onFold_reg,
    hdiscarded, hended]

/-- The failure of a memory as BIST_MB_RESULT and BIST_MB_ADDR hold it, and counted. -/
def State.failureNoted (s : State) (inst addr bit : Nat) (can : Bool) : State :=
  (if s.b F.BIST_MB_RESULT_VALID then s
    else ((((s.put F.BIST_MB_RESULT_INSTANCE inst).put F.BIST_MB_RESULT_BIT bit).flag F.BIST_MB_RESULT_REPAIRABLE can).flag
      F.BIST_MB_RESULT_VALID).put F.BIST_MB_ADDR addr).inc F.BIST_MB_FAILS

/-- What is out of use after a failure that nothing repairs. -/
def State.instRetired (s : State) (inst : Nat) : State :=
  let t := (s.onBist fun b => { b with failed := inst :: b.failed }).flag F.BIST_STATUS_MB_UNREPAIRED
  (if inst < 24 then t.foldReset (inst % 4) else t).selfTestFault

/-- A spare and a record are free. -/
def State.repairable (s : State) (spare : Bool) : Bool := spare && decide (s.boot.otp.repairs.length + s.bist.repairs.length < 64)

theorem State.memFailed_eq (s : State) (inst addr bit : Nat) (spare : Bool) : s.memFailed inst addr bit spare =
    if s.repairable spare then ((s.failureNoted inst addr bit (s.repairable spare)).onBist fun b =>
      { b with repairs := b.repairs ++ [(inst, addr, bit)] }).flag F.BIST_STATUS_REPAIR_PENDING
    else (s.failureNoted inst addr bit (s.repairable spare)).instRetired inst := rfl

/-- The first failure of a run is recorded. -/
theorem State.failureNoted_f {s : State} (inst addr bit : Nat) (can : Bool) (h : s.b F.BIST_MB_RESULT_VALID = false) :
    (s.failureNoted inst addr bit can).f F.BIST_MB_FAILS = min (s.f F.BIST_MB_FAILS + 1) (2 ^ F.BIST_MB_FAILS.w - 1) ∧
      (s.failureNoted inst addr bit can).b F.BIST_MB_RESULT_VALID = true ∧
      (s.failureNoted inst addr bit can).f F.BIST_MB_RESULT_INSTANCE = inst % 2 ^ F.BIST_MB_RESULT_INSTANCE.w ∧
      (s.failureNoted inst addr bit can).f F.BIST_MB_ADDR = addr % 2 ^ F.BIST_MB_ADDR.w := by
  rw [State.failureNoted, h, if_neg Bool.false_ne_true]
  refine ⟨?_, ?_, ?_, ?_⟩
  · rw [State.inc, State.f_add _ _ _ _ _ (by decide), State.f_put_apart (by decide), State.f_flag_apart (by decide),
      State.f_flag_apart (by decide), State.f_put_apart (by decide), State.f_put_apart (by decide)]
  · rw [State.b, State.f_inc_apart (by decide), State.f_put_apart (by decide), ← State.b]
    exact State.b_flag _ _ _ _ _ (by decide) rfl
  · rw [State.f_inc_apart (by decide), State.f_put_apart (by decide), State.f_flag_apart (by decide), State.f_flag_apart (by decide),
      State.f_put_apart (by decide), State.f_put _ _ _ _ _ (by decide)]
  · rw [State.f_inc_apart (by decide), State.f_put _ _ _ _ _ (by decide)]

/-- Retiring a memory leaves the record of its failure. -/
theorem State.instRetired_f {g : Fld} (hother : apartFld g F.BIST_STATUS_MB_UNREPAIRED) (hfault : ∀ f ∈ faultFields, apartFld g f)
    (hcause : g.addr 0 0 % 0x1000 ≠ 0x38) (hhigh : 0x200000 ≤ g.addr 0 0) (s : State) (inst : Nat) : (s.instRetired inst).f g = s.f g := by
  unfold State.instRetired
  extract_lets t
  have ht : t.f g = s.f g := by rw [State.f_flag_apart hother, State.onBist_f]
  rw [State.selfTestFault_f hfault hcause, ← ht]
  split
  · exact State.f_congr (t.foldReset_high (Nat.mod_lt _ (by decide)) hhigh)
  · rfl

theorem State.instRetired_failed (s : State) (inst : Nat) :
    inst ∈ (s.instRetired inst).bist.failed ∧ (s.instRetired inst).b F.BIST_STATUS_MB_UNREPAIRED = true := by
  unfold State.instRetired
  extract_lets t
  have ht : t.bist.failed = inst :: s.bist.failed ∧ t.b F.BIST_STATUS_MB_UNREPAIRED = true :=
    ⟨rfl, State.b_flag _ _ _ _ _ (by decide) rfl⟩
  clear_value t
  have hreset : (if inst < 24 then t.foldReset (inst % 4) else t).bist.failed = t.bist.failed ∧
      (if inst < 24 then t.foldReset (inst % 4) else t).b F.BIST_STATUS_MB_UNREPAIRED = t.b F.BIST_STATUS_MB_UNREPAIRED := by
    split
    · refine ⟨congrArg Bist.failed (State.foldReset_within ..).same_bist, ?_⟩
      rw [State.b, State.f_congr (t.foldReset_high (Nat.mod_lt _ (by decide)) (by decide)), State.b]
    · exact ⟨rfl, rfl⟩
  refine ⟨?_, ?_⟩
  · rw [State.selfTestFault_bist, hreset.1, ht.1]
    exact List.mem_cons_self
  · rw [State.b, State.selfTestFault_f (by decide) (by decide), ← State.b, hreset.2, ht.2]

/-- The record of a failure stands in fields that neither its repair nor the retirement of the memory writes. -/
theorem State.memFailed_f {g : Fld} (hpending : apartFld g F.BIST_STATUS_REPAIR_PENDING) (hother : apartFld g F.BIST_STATUS_MB_UNREPAIRED)
    (hfault : ∀ f ∈ faultFields, apartFld g f) (hcause : g.addr 0 0 % 0x1000 ≠ 0x38) (hhigh : 0x200000 ≤ g.addr 0 0) (s : State)
    (inst addr bit : Nat) (spare : Bool) :
    (s.memFailed inst addr bit spare).f g = (s.failureNoted inst addr bit (s.repairable spare)).f g := by
  rw [State.memFailed_eq]
  split
  · rw [State.f_flag_apart hpending, State.onBist_f]
  · exact State.instRetired_f hother hfault hcause hhigh _ _

/-- A tested memory that fails: zeroed, its failure recorded, and the burn of its repair asked for. -/
def State.instFailed (s : State) (i word bit : Nat) (spare : Bool) : State :=
  let emptied := s.instLeft i false
  let t := emptied.memFailed i word bit spare
  if decide (emptied.bist.repairs.length < t.bist.repairs.length) && !t.boot.forced then
    t.addJob { kind := .repair, units := [.repair (i, word, bit)] } else t

theorem exec_mbistInstanceDone_fail {s : State} {word bit : Nat} {spare ok : Bool} {i : Nat}
    (hrun : s.bist.run = some { mem := true, online := false, left := [i] }) (hpre : s.precond = 0) (hi : i < 43) :
    exec (.mbistInstanceDone (some (word, bit, spare)) ok) s = .next ((s.instFailed i word bit spare).setRun none) := by
  show execMbistInstanceDone (some (word, bit, spare)) ok s = _
  rw [execMbistInstanceDone, hrun]
  dsimp only
  rw [hpre, if_neg (by decide), State.when, beq_false_of_ne (show i ≠ 43 by omega), if_neg Bool.false_ne_true,
    State.bistContinue_last, State.instFailed]

/-- The burn of a repair that waits leaves what memory BIST has found. -/
theorem State.instFailed_found (s : State) (i word bit : Nat) (spare : Bool) :
    (s.instFailed i word bit spare).regs = ((s.instLeft i false).memFailed i word bit spare).regs ∧
      (s.instFailed i word bit spare).bist = ((s.instLeft i false).memFailed i word bit spare).bist := by
  unfold State.instFailed
  extract_lets emptied t
  split
  · exact ⟨(State.addJob_within ..).same_regs, (State.addJob_within ..).same_bist⟩
  · exact ⟨rfl, rfl⟩

/-- The first failing read of the run stands in BIST_MB_RESULT and BIST_MB_ADDR, and the memory is counted. -/
theorem State.instFailed_f {s : State} {i : Nat} (word bit : Nat) (spare : Bool) (hi : i < 43) (hfirst : s.b F.BIST_MB_RESULT_VALID = false) :
    (s.instFailed i word bit spare).f F.BIST_MB_FAILS = min (s.f F.BIST_MB_FAILS + 1) (2 ^ F.BIST_MB_FAILS.w - 1) ∧
      (s.instFailed i word bit spare).b F.BIST_MB_RESULT_VALID = true ∧
      (s.instFailed i word bit spare).f F.BIST_MB_RESULT_INSTANCE = i ∧
      (s.instFailed i word bit spare).f F.BIST_MB_ADDR = word % 2 ^ F.BIST_MB_ADDR.w := by
  have hregs := (s.instFailed_found i word bit spare).1
  have hempty := s.instLeft_regs hi
  obtain ⟨hfails, hvalid, hinst, haddr⟩ := State.failureNoted_f (s := s.instLeft i false) i word bit ((s.instLeft i false).repairable spare)
    ((State.b_of_regs hempty ..).trans hfirst)
  have hnoted {g : Fld} (hpending : apartFld g F.BIST_STATUS_REPAIR_PENDING) (hother : apartFld g F.BIST_STATUS_MB_UNREPAIRED)
      (hfault : ∀ f ∈ faultFields, apartFld g f) (hcause : g.addr 0 0 % 0x1000 ≠ 0x38) (hhigh : 0x200000 ≤ g.addr 0 0) :
      (s.instFailed i word bit spare).f g = ((s.instLeft i false).failureNoted i word bit ((s.instLeft i false).repairable spare)).f g := by
    rw [State.f_of_regs hregs, State.memFailed_f hpending hother hfault hcause hhigh]
  refine ⟨?_, ?_, ?_, ?_⟩
  · rw [hnoted (by decide) (by decide) (by decide) (by decide) (by decide), hfails, State.f_of_regs hempty]
  · rw [State.b, hnoted (by decide) (by decide) (by decide) (by decide) (by decide), ← State.b, hvalid]
  · rw [hnoted (by decide) (by decide) (by decide) (by decide) (by decide), hinst]
    exact Nat.mod_eq_of_lt (hi.trans (by decide))
  · rw [hnoted (by decide) (by decide) (by decide) (by decide) (by decide), haddr]

/-- Without a spare the memory is out of use. -/
theorem State.instFailed_retired (s : State) (i word bit : Nat) : i ∈ (s.instFailed i word bit false).bist.failed ∧
    (s.instFailed i word bit false).b F.BIST_STATUS_MB_UNREPAIRED = true := by
  obtain ⟨hregs, hbist⟩ := s.instFailed_found i word bit false
  have hretired : (s.instLeft i false).memFailed i word bit false =
      ((s.instLeft i false).failureNoted i word bit ((s.instLeft i false).repairable false)).instRetired i := by
    rw [State.memFailed_eq, if_neg (by simp [State.repairable])]
  rw [State.b_of_regs hregs, hbist, hretired]
  exact State.instRetired_failed _ i

theorem mbistInstanceDone_records {s : State} {word bit : Nat} {spare ok : Bool} {i : Nat}
    (hrun : s.bist.run = some { mem := true, online := false, left := [i] }) (hpre : s.precond = 0) (hi : i < 43)
    (hfirst : s.b F.BIST_MB_RESULT_VALID = false) : yields (.mbistInstanceDone (some (word, bit, spare)) ok) s fun t =>
      t.f F.BIST_MB_FAILS = min (s.f F.BIST_MB_FAILS + 1) (2 ^ F.BIST_MB_FAILS.w - 1) ∧ t.b F.BIST_MB_RESULT_VALID = true ∧
      t.f F.BIST_MB_RESULT_INSTANCE = i ∧ t.f F.BIST_MB_ADDR = word % 2 ^ F.BIST_MB_ADDR.w ∧
      (spare = false → i ∈ t.bist.failed ∧ t.b F.BIST_STATUS_MB_UNREPAIRED = true) := by
  obtain ⟨hfails, hvalid, hinst, haddr⟩ := State.instFailed_f word bit spare hi hfirst
  refine ⟨_, exec_mbistInstanceDone_fail hrun hpre hi, ?_, ?_, ?_, ?_, fun hspare => ⟨?_, ?_⟩⟩
  · rw [State.setRun_f (by decide), hfails]
  · rw [State.b, State.setRun_f (by decide), ← State.b, hvalid]
  · rw [State.setRun_f (by decide), hinst]
  · rw [State.setRun_f (by decide), haddr]
  · rw [hspare, State.setRun_failed]
    exact (s.instFailed_retired i word bit).1
  · rw [hspare, State.b, State.setRun_f (by decide), ← State.b, (s.instFailed_retired i word bit).2]

/-! ### The online rotation (R557, R558) -/

/-- A window begins: the one before is missed if its test is still due. -/
def State.windowBegun (s : State) : State :=
  (if s.bist.due then s.inc F.BIST_LB_MISSED else s).onBist fun b => { b with
    window := some s.bistWindow, due := (s.bpart (nth onlineParts (s.bistWindow % 17) 0)).valid }

theorem exec_onlineBistWindow {s : State} (hrot : s.rotating = true) (hnew : s.bist.window ≠ some s.bistWindow)
    (hfold : nth onlineParts (s.bistWindow % 17) 0 ≠ 23) : exec .onlineBistWindow s = .next s.windowBegun := by
  have hopen : ¬ (!s.rotating || s.bist.window == some s.bistWindow) = true := by
    rw [hrot, beq_false_of_ne hnew]
    decide
  have hmissed : (if s.bist.due then s.inc F.BIST_LB_MISSED else s).bistWindow = s.bistWindow ∧
      (if s.bist.due then s.inc F.BIST_LB_MISSED else s).bist = s.bist := by
    split
    · rw [State.bistWindow, State.inc_time, State.inc_bist, State.bistWindow]
      exact ⟨rfl, rfl⟩
    · exact ⟨rfl, rfl⟩
  show execOnlineBistWindow s = _
  rw [execOnlineBistWindow, if_neg hopen]
  dsimp only
  rw [hmissed.1, beq_false_of_ne hfold, Bool.false_and, Bool.false_and, if_neg Bool.false_ne_true, State.bpart, hmissed.2,
    ← State.bpart, State.windowBegun]

theorem onlineBistWindow_begins {s : State} {p : Nat} (hrot : s.rotating = true)
    (hp : p = nth onlineParts (s.time.clock * 17 / secU 10 % 17) 0) (hfold : p ≠ 23) (hnew : s.bist.window ≠ some s.bistWindow) :
    yields .onlineBistWindow s fun t => t.bist.window = some (s.time.clock * 17 / secU 10) ∧ t.bist.due = (s.bpart p).valid ∧
      t.f F.BIST_LB_MISSED = if s.bist.due then min (s.f F.BIST_LB_MISSED + 1) (2 ^ F.BIST_LB_MISSED.w - 1) else s.f F.BIST_LB_MISSED := by
  subst hp
  refine ⟨_, exec_onlineBistWindow hrot hnew hfold, ?_, ?_, ?_⟩
  · rw [State.windowBegun, State.onBist_bist, State.bistWindow]
  · rw [State.windowBegun, State.onBist_bist, State.bistWindow]
  · rw [State.windowBegun, State.onBist_f]
    split
    · rw [State.inc, State.f_add _ _ _ _ _ (by decide)]
    · rfl

/-- In the first gap that holds the test, the partition of the window is tested. -/
theorem onlineBistGapStart_tests {s : State} {p : Nat} (hrot : s.rotating = true) (hdue : s.bist.due = true) (hidle : s.bist.run = none)
    (hp : p = nth onlineParts (s.bist.window.getD 0 % 17) 0) (hrun : s.inRun (p / 5) = false) (htx : (s.fold (p / 5)).scheduled = none)
    (hfits : s.time.clock + s.testTime + usU 20 ≤ s.swapAt (s.time.frame + 1)) (hpre : s.precond = 0)
    (hwindow : s.bist.window = some s.bistWindow) (hlt : p < 20) : yields .onlineBistGapStart s fun t =>
      t.bist.run = some { mem := false, online := true, left := [p] } ∧ t.bist.due = false ∧ t.b F.BIST_STATUS_BUSY = true := by
  have hstart : execOnlineBistGapStart s = .next
      (s.onBist fun b => { b with run := some { mem := false, online := true, left := [p] }, due := false }).bistRegs := by
    rw [execOnlineBistGapStart]
    dsimp only
    rw [← hp, htx, hrot, hdue, hidle, hrun, decide_eq_true hfits, decide_eq_true hlt, beq_iff_eq.mpr hwindow, if_pos (by rfl), State.onlineStart, hpre]
    rfl
  refine ⟨_, hstart, ?_⟩
  dsimp only
  rw [State.bistRegs_bist, State.bistRegs_busy, State.onBist_bist]
  exact ⟨rfl, rfl, rfl⟩

end Sys2Proof.Machine
end

section
/-! PROOFS. What a scan entry over JTAG leaves (spec/17_self_test.md R551, R553): no operation of it shows a key or starts a run, beside the
unwrapping of the stored key at its end. O40 is left unsettled: it holds exactly when the opaque `Config.unwrapKey` unwraps no record, and the
model says nothing of that constant. -/
set_option Elab.async false
namespace Sys2Proof.Machine

/-! ### Keys and runs that a state shows -/

/-- `t` shows no valid wall key, no keys of a link and no run that `s` does not, and its folds' registers are those of `s` or zero. -/
structure Quieter (s t : State) : Prop where
  wall : t.b F.SEC_WALLKEY_VALID = true → s.b F.SEC_WALLKEY_VALID = true
  ring : t.b F.RING_STATUS_KEY_VALID = true → s.b F.RING_STATUS_KEY_VALID = true
  link : ∀ p, (t.enc p).keys = true → (s.enc p).keys = true
  run : ∀ n < 4, t.inRun n = true → s.inRun n = true
  k : ∀ n, (t.fold n).k = (s.fold n).k ∨ (t.fold n).k = List.replicate 32 0
  folds : t.folds.length = s.folds.length

/-- The registers that show keys and runs. -/
def guarded : List Nat := [0x480004, 0x7e0118, 0x100004, 0x140004, 0x180004, 0x1c0004]

section
variable {s t u : State}

theorem Quieter.refl (s : State) : Quieter s s := ⟨id, id, fun _ => id, fun _ _ => id, fun _ => .inl rfl, rfl⟩

theorem Quieter.trans (h : Quieter s t) (g : Quieter t u) : Quieter s u where
  wall := h.wall ∘ g.wall
  ring := h.ring ∘ g.ring
  link p := h.link p ∘ g.link p
  run n hn := h.run n hn ∘ g.run n hn
  k n := (g.k n).elim (fun e => e ▸ h.k n) .inr
  folds := g.folds.trans h.folds

theorem Quieter.ite {c : Prop} [Decidable c] (h : Quieter s t) (g : Quieter s u) : Quieter s (if c then t else u) := by
  split
  · exact h
  · exact g

theorem Quieter.when (h : Quieter s t) (c : Bool) {f : State → State} (hf : Quieter t (f t)) : Quieter s (t.when c f) :=
  Quieter.ite (h.trans hf) h

theorem Quieter.each {α : Type} (h : Quieter s t) {l : List α} {f : State → α → State} (hf : ∀ x, ∀ a ∈ l, Quieter x (f x a)) :
    Quieter s (t.each l f) := by
  induction l generalizing t with
  | nil => exact h
  | cons a l ih => exact ih (h.trans (hf t a List.mem_cons_self)) fun x b hb => hf x b (List.mem_cons_of_mem a hb)

theorem Quieter.range (h : Quieter s t) {n : Nat} {f : State → Nat → State} (hf : ∀ x, ∀ k < n, Quieter x (f x k)) :
    Quieter s (t.each (List.range n) f) := h.each fun x k hk => hf x k (List.mem_range.mp hk)

/-- An operation that leaves these registers, the links' keys and the folds. -/
theorem Quieter.of_same (hregs : ∀ a ∈ guarded, t.reg a = s.reg a) (henc : t.ring.enc = s.ring.enc) (hfolds : t.folds = s.folds) :
    Quieter s t where
  wall := by rw [State.b, State.f_congr (hregs _ (by decide)), State.b]; exact id
  ring := by rw [State.b, State.f_congr (hregs _ (by decide)), State.b]; exact id
  link p := by rw [State.enc, henc, State.enc]; exact id
  run n hn := by
    rw [State.inRun, State.b, State.f_congr (hregs _ ((by decide : ∀ n < 4, F.FOLDn_STATUS_IN_RUN.addr n 0 ∈ guarded) n hn)), State.inRun,
      State.b]
    exact id
  k n := .inl (by rw [State.fold_congr hfolds])
  folds := congrArg _ hfolds

theorem Quieter.within {ps : List Part} (h : Quieter s t) (hw : Within ps t u) (hregs : Part.regs ∉ ps := by decide)
    (hring : Part.ring ∉ ps := by decide) (hfolds : Part.folds ∉ ps := by decide) : Quieter s u :=
  h.trans (.of_same (fun a _ => by rw [State.reg, hw.same_regs hregs, State.reg]) (congrArg _ (hw.same_ring hring)) (hw.same_folds hfolds))

/-- An operation that changes registers alone, and none of these. -/
theorem Quieter.regs (h : Quieter s t) (hw : Within [.regs] t u) (hregs : ∀ a ∈ guarded, u.reg a = t.reg a) : Quieter s u :=
  h.trans (.of_same hregs (congrArg _ hw.same_ring) hw.same_folds)

theorem Quieter.put (h : Quieter s t) {f : Fld} {v i j : Nat} (hf : f.addr i j ∉ guarded) : Quieter s (t.put f v i j) :=
  h.regs (t.put_within ..) fun _ ha => State.reg_put_ne _ _ _ _ _ _ (ne_of_mem_of_not_mem ha hf)

theorem Quieter.flag (h : Quieter s t) {f : Fld} {v : Bool} {i j : Nat} (hf : f.addr i j ∉ guarded) : Quieter s (t.flag f v i j) := h.put hf
theorem Quieter.inc (h : Quieter s t) {f : Fld} {i j : Nat} (hf : f.addr i j ∉ guarded) : Quieter s (t.inc f i j) := h.put hf
theorem Quieter.putS (h : Quieter s t) {f : Fld} {v : Int} {i j : Nat} (hf : f.addr i j ∉ guarded) : Quieter s (t.putS f v i j) := h.put hf

/-! A field of one of the first `n` instances. -/

theorem Quieter.putAt (h : Quieter s t) {f : Fld} {v i n : Nat} (hi : i < n) (hf : ∀ k < n, f.addr k 0 ∉ guarded) : Quieter s (t.put f v i) :=
  h.put (hf i hi)
theorem Quieter.flagAt (h : Quieter s t) {f : Fld} {v : Bool} {i n : Nat} (hi : i < n) (hf : ∀ k < n, f.addr k 0 ∉ guarded) :
    Quieter s (t.flag f v i) := h.put (hf i hi)
theorem Quieter.incAt (h : Quieter s t) {f : Fld} {i n : Nat} (hi : i < n) (hf : ∀ k < n, f.addr k 0 ∉ guarded) : Quieter s (t.inc f i) :=
  h.put (hf i hi)
theorem Quieter.putSAt (h : Quieter s t) {f : Fld} {v : Int} {i n : Nat} (hi : i < n) (hf : ∀ k < n, f.addr k 0 ∉ guarded) :
    Quieter s (t.putS f v i) := h.put (hf i hi)

theorem Quieter.onRing (h : Quieter s t) {g : Ring → Ring} (hg : ∀ r, (g r).enc = r.enc) : Quieter s (t.onRing g) :=
  h.trans (.of_same (fun _ _ => rfl) (hg _) rfl)

theorem Quieter.onLamp (h : Quieter s t) (g : Lamp → Lamp) : Quieter s (t.onLamp g) := h.trans (.of_same (fun _ _ => rfl) rfl rfl)
theorem Quieter.onIngest (h : Quieter s t) (g : Ingest → Ingest) : Quieter s (t.onIngest g) := h.trans (.of_same (fun _ _ => rfl) rfl rfl)
theorem Quieter.onTherm (h : Quieter s t) (g : Therm → Therm) : Quieter s (t.onTherm g) := h.trans (.of_same (fun _ _ => rfl) rfl rfl)

/-- A change of a link's record that gives it no keys. -/
theorem Quieter.onEnc (h : Quieter s t) {p : Nat} {g : Enc → Enc} (hg : ∀ e, (g e).keys = true → e.keys = true) :
    Quieter s (t.onEnc p g) := by
  refine h.trans ⟨id, id, fun q => ?_, fun _ _ => id, fun _ => .inl rfl, rfl⟩
  have henc : (t.onEnc p g).enc q = nth (modAt t.ring.enc p g) q {} := rfl
  rw [henc, State.enc]
  by_cases hq : q = p
  · subst hq
    by_cases hlt : q < t.ring.enc.length
    · rw [nth_modAt_same _ _ _ _ hlt]
      exact hg _
    · rw [nth, List.getD_eq_default _ _ (by rw [modAt_length]; omega)]
      exact fun hkeys => absurd hkeys Bool.false_ne_true
  · rw [nth_modAt_ne _ _ _ _ _ hq]
    exact id

/-- A change of a fold that keeps its registers. -/
theorem Quieter.onFold (h : Quieter s t) {n : Nat} {g : Fold → Fold} (hg : ∀ f, (g f).k = f.k) : Quieter s (t.onFold n g) :=
  h.trans ⟨id, id, fun _ => id, fun _ _ => id, fun m => .inl (State.fold_onFold_keeps Fold.k hg t n m), t.onFold_length n g⟩

end

/-! ### Interrupts and events (R420, R425) -/

theorem State.sendCell_quieter (s : State) (p : Nat) (c : Bytes) : Quieter s (s.sendCell p c) := by
  unfold State.sendCell State.countSent
  have hemitted : Quieter s (s.emit (.cell p (s.sealFor p c))) := (Quieter.refl s).within (s.emit_within _)
  exact Quieter.ite (hemitted.onEnc fun _ => id) hemitted

theorem State.bumpTally_quieter (s : State) (stream : Nat) : Quieter s (s.bumpTally stream) := (Quieter.refl s).onRing fun _ => rfl

theorem State.tileSend_quieter (s : State) (stream addr : Nat) (msg : Bytes) : Quieter s (s.tileSend stream addr msg) := by
  refine (Quieter.refl s).each fun x k _ => ?_
  extract_lets join t c tallied
  have htallied : Quieter x tallied := Quieter.ite (.refl x) (x.bumpTally_quieter stream)
  exact (htallied.trans (State.sendCell_quieter ..)).trans (State.sendCell_quieter ..)

theorem State.deliver_quieter (s : State) (c bit : Nat) : Quieter s (s.deliver c bit) := by
  unfold State.deliver
  extract_lets cause
  split
  · exact (Quieter.refl s).when _ ((Quieter.refl s).within (s.emit_within _))
  · exact (Quieter.refl s).when _ ((Quieter.refl s).within (s.emit_within _))
  · exact ((Quieter.refl s).within (s.onHost_within _)).trans (State.tileSend_quieter ..)
  · exact .refl s

theorem State.irq_quieter (s : State) {f : Fld} {c : Nat} (hf : f.addr c 0 ∉ guarded) : Quieter s (s.irq f c) := by
  unfold State.irq
  extract_lets raised
  have hraised : Quieter s raised := (Quieter.refl s).flag hf
  exact Quieter.ite (.refl s) (Quieter.ite (hraised.trans (State.deliver_quieter ..)) hraised)

theorem State.irqAll_quieter (s : State) {f : Fld} (hf : ∀ c < 8, f.addr c 0 ∉ guarded) : Quieter s (s.irqAll f) :=
  (Quieter.refl s).range fun x c hc => x.irq_quieter (hf c hc)

theorem State.timeEvent_quieter (s : State) {f : Fld} (hf : f.addr 0 0 ∉ guarded) : Quieter s (s.timeEvent f) :=
  ((Quieter.refl s).flag hf).trans (State.irqAll_quieter _ (by decide))

theorem State.transports_quieter (s : State) : Quieter s s.transports :=
  (Quieter.refl s).range fun x _ hc => ((Quieter.refl x).flagAt hc (by decide)).within (State.judgeBounds_within ..)

/-! ### The clock (R169 to R172, R183) -/

theorem State.lockReset_quieter (s : State) : Quieter s s.lockReset := by
  unfold State.lockReset
  extract_lets noted chains
  have hnoted : Quieter s noted :=
    ((((Quieter.refl s).within (s.onTime_within _)).put (by decide)).put (by decide)).put (by decide)
  have hchains : Quieter s chains := hnoted.range fun x _ hp => (Quieter.refl x).flagAt hp (by decide)
  exact Quieter.ite hchains ((((hchains.put (by decide)).within (State.tickFresh_within _)).flag (by decide)).flag (by decide))

theorem State.setErr_quieter (s : State) (off : Int) (err : Nat) : Quieter s (s.setErr off err) := by
  unfold State.setErr
  extract_lets e
  exact ((((Quieter.refl s).putS (by decide)).put (by decide)).flag (by decide)).flag (by decide)

theorem State.holdover_quieter (s : State) : Quieter s s.holdover := by
  unfold State.holdover
  extract_lets r
  have hfrozen : Quieter s (((s.putS F.TIME_RATE r).onTime fun t => { t with rates := keepRates t.clock ((t.clock, r) :: t.rates) }).put
      F.TIME_STATUS_STATE tsHoldover) :=
    (((Quieter.refl s).putS (by decide)).within (State.onTime_within ..)).put (by decide)
  exact Quieter.ite (.refl s) (hfrozen.trans (State.timeEvent_quieter _ (by decide)))

theorem State.restarts_quieter (s : State) (c : Nat) : Quieter s (s.restarts c) := by
  unfold State.restarts
  extract_lets d fed crossed waiting
  have hfed : Quieter s fed := ((Quieter.refl s).onIngest _).onLamp _
  have hcrossed : Quieter s crossed := (hfed.within (State.onXing_within ..)).onTherm _
  have hwaiting : Quieter s waiting := hcrossed.trans (.of_same (fun _ _ => rfl) rfl rfl)
  exact hwaiting.each fun x n _ => (Quieter.refl x).onFold fun _ => rfl

theorem State.stepClock_quieter (s : State) (c st : Nat) : Quieter s (s.stepClock c st) := by
  unfold State.stepClock
  exact (((((s.restarts_quieter c).within (State.onTime_within ..)).put (by decide)).put (by decide)).trans
    (State.timeEvent_quieter _ (by decide))).within (State.healthFrom_within _)

theorem State.bwStep_quieter (s : State) (target st src : Nat) : Quieter s (s.bwStep target st src) := by
  unfold State.bwStep
  extract_lets g judged stepped
  have hjudged : Quieter s judged := (Quieter.refl s).onRing fun _ => rfl
  have hstepped : Quieter s stepped := ((hjudged.within (State.onTime_within ..)).trans (State.stepClock_quieter ..)).trans
    (State.timeEvent_quieter _ (by decide))
  exact (((hstepped.put (by decide)).put (by decide)).put (by decide)).trans (State.setErr_quieter ..)

theorem State.bwRelock_quieter (s : State) : Quieter s s.bwRelock := by
  unfold State.bwRelock State.electStep
  extract_lets m
  exact Quieter.ite (Quieter.ite (s.bwStep_quieter ..) (Quieter.ite (s.bwStep_quieter ..)
    ((s.bwStep_quieter ..).trans (State.holdover_quieter _)))) (.refl s)

theorem State.slewTo_quieter (s : State) (p : Nat) : Quieter s (s.slewTo p) := by
  unfold State.slewTo
  extract_lets q slewing
  have hslewing : Quieter s slewing := ((Quieter.refl s).put (by decide)).trans (State.timeEvent_quieter _ (by decide))
  exact Quieter.ite ((hslewing.trans (State.setErr_quieter ..)).putS (by decide)) hslewing

theorem State.reSource_quieter (s : State) : Quieter s s.reSource := by
  unfold State.reSource
  refine Quieter.ite (.refl s) ?_
  split
  · exact ((Quieter.refl s).put (by decide)).trans (State.holdover_quieter _)
  · extract_lets old changed followed
    have hfollowed : Quieter s followed := (((Quieter.refl s).put (by decide)).put (by decide)).within (State.onTime_within ..)
    exact hfollowed.when _ (State.slewTo_quieter ..)

theorem State.ewDiff_quieter (s : State) : Quieter s s.ewDiff := by
  unfold State.ewDiff
  extract_lets ok shown
  have hshown : Quieter s shown := (Quieter.refl s).flag (by decide)
  exact Quieter.ite (hshown.putS (by decide)) hshown

/-! ### Ports (R85, R97, R100) -/

theorem State.judgeRings_quieter (s : State) : Quieter s s.judgeRings := by
  unfold State.judgeRings
  refine Quieter.ite ((Quieter.refl s).range fun x r hr => ?_) (.refl s)
  exact (((Quieter.refl x).flagAt hr (by decide)).flagAt hr (by decide)).flagAt hr (by decide)

theorem State.ringBreak_quieter (s : State) (p : Nat) : Quieter s (s.ringBreak p) := by
  unfold State.ringBreak
  extract_lets cut resynced sourced
  have hcut : Quieter s cut := Quieter.ite ((Quieter.refl s).onRing fun _ => rfl) (.refl s)
  have hresynced : Quieter s resynced := Quieter.ite (hcut.onRing fun _ => rfl) hcut
  have hsourced : Quieter s sourced :=
    Quieter.ite ((hresynced.trans (State.reSource_quieter _)).trans (State.ewDiff_quieter _)) hresynced
  exact hsourced.trans (State.judgeRings_quieter _)

theorem State.setTaps_quieter (s : State) {n : Nat} (hn : n < 32) (m2 m1 c0 p1 : Int) : Quieter s (s.setTaps n m2 m1 c0 p1) := by
  exact ((((Quieter.refl s).putSAt hn (by decide)).putSAt hn (by decide)).putAt hn (by decide)).putSAt hn (by decide)

theorem State.applyEq_quieter (s : State) {n : Nat} (hn : n < 32) : Quieter s (s.applyEq n) := by
  unfold State.applyEq
  extract_lets peaked fed
  have hpeaked : Quieter s peaked := Quieter.ite (.refl s)
    ((Quieter.refl s).putAt hn (by decide))
  have hfed : Quieter s fed := Quieter.ite hpeaked (hpeaked.putAt hn (by decide))
  exact hfed.within (State.onLane_within ..)

theorem State.applyPending_quieter (s : State) {n : Nat} (hn : n < 32) : Quieter s (s.applyPending n) := by
  unfold State.applyPending
  extract_lets tapped
  have htapped : Quieter s tapped := by
    dsimp only [tapped]
    split
    · exact (s.setTaps_quieter hn ..).within (State.onLane_within ..)
    · exact .refl s
  exact (htapped.when _ (State.applyEq_quieter _ hn)).when _ ((Quieter.refl _).within (State.applyCdr_within ..))

theorem State.leaveUp_quieter (s : State) {p : Nat} (hp : p < 7) : Quieter s (s.leaveUp p) := by
  unfold State.leaveUp
  extract_lets unchained left
  have hleft : Quieter s left := (((Quieter.refl s).flagAt hp (by decide)).flagAt hp (by decide)).within (State.onPd_within ..)
  exact hleft.each fun x n hn => x.applyPending_quieter (lane_lt hp hn)

theorem State.endMission_quieter (s : State) {p : Nat} (hp : p < 7) : Quieter s (s.endMission p) := by
  unfold State.endMission
  extract_lets ended
  have hended : Quieter s ended := (Quieter.refl s).each fun x n hn =>
    (((Quieter.refl x).flagAt (lane_lt hp hn) (by decide)).flagAt (lane_lt hp hn) (by decide)).flagAt (lane_lt hp hn) (by decide)
  exact hended.onEnc fun _ hkeys => absurd hkeys Bool.false_ne_true

theorem State.movePort_quieter (s : State) {p : Nat} (hp : p < 7) (st : Nat) : Quieter s (s.movePort p st) := by
  unfold State.movePort
  extract_lets was moved broken judged carried left ended dark dropped trained checked
  have hmoved : Quieter s moved := ((Quieter.refl s).putAt hp (by decide)).within (State.onPort_within ..)
  have hbroken : Quieter s broken := hmoved.when _ (State.ringBreak_quieter ..)
  have hjudged : Quieter s judged := hbroken.when _ (State.judgeRings_quieter _)
  have hcarried : Quieter s carried := hjudged.when _ (State.transports_quieter _)
  have hleft : Quieter s left := hcarried.when _ (State.leaveUp_quieter _ hp)
  have hended : Quieter s ended := hleft.when _ (State.endMission_quieter _ hp)
  have hdark : Quieter s dark := hended.when _ ((Quieter.refl _).each fun x _ hn => (Quieter.refl x).flagAt (lane_lt hp hn) (by decide))
  have hdropped : Quieter s dropped := hdark.when _ ((Quieter.refl _).each fun x _ _ => (Quieter.refl x).within (State.onLane_within ..))
  have htrained : Quieter s trained := hdropped.when _ ((Quieter.refl _).each fun x _ _ => (Quieter.refl x).within (State.onLane_within ..))
  have hchecked : Quieter s checked := htrained.when _ ((Quieter.refl _).flagAt hp (by decide))
  exact hchecked.when _ ((Quieter.refl _).within (State.startMission_within ..))

theorem State.toDetect_quieter (s : State) {p : Nat} (hp : p < 7) (keep : List Nat) : Quieter s (s.toDetect p keep) := by
  unfold State.toDetect
  extract_lets moved cfg noted laned
  have hnoted : Quieter s noted := (s.movePort_quieter hp _).within (State.onPort_within ..)
  have hlaned : Quieter s laned := hnoted.each fun x n hn =>
    (((Quieter.refl x).within (State.onLane_within ..)).within (State.tickFresh_within _)).flagAt (lane_lt hp hn) (by decide)
  exact Quieter.ite (hlaned.trans (State.movePort_quieter _ hp _)) hlaned

theorem State.toFault_quieter (s : State) {p : Nat} (hp : p < 7) (reason : Nat) : Quieter s (s.toFault p reason) := by
  unfold State.toFault
  extract_lets faulted hold held
  have hfaulted : Quieter s faulted := (s.movePort_quieter hp _).putAt hp (by decide)
  have hheld : Quieter s held := hfaulted.within (State.onPort_within ..)
  exact (hheld.incAt hp (by decide)).trans (State.irqAll_quieter _ (by decide))

/-! ### The reset state of a partition (R551) -/

theorem State.lampStatus_quieter (s : State) : Quieter s s.lampStatus := by
  unfold State.lampStatus
  extract_lets grouped bitsOf ports blanked padded chained
  have hgrouped : Quieter s grouped := (Quieter.refl s).range fun x _ hg =>
    ((Quieter.refl x).flagAt hg (by decide)).flagAt hg (by decide)
  have hblanked : Quieter s blanked := hgrouped.flag (by decide)
  have hpadded : Quieter s padded := hblanked.flag (by decide)
  have hchained : Quieter s chained := hpadded.flag (by decide)
  exact (hchained.put (by decide)).put (by decide)

theorem State.scrubAnew_quieter (s : State) : Quieter s s.scrubAnew := by
  unfold State.scrubAnew State.judgeScrub
  extract_lets due lag
  have hrebased : Quieter s s.rebaseScrub := (Quieter.refl s).within s.rebaseScrub_within
  exact Quieter.ite (hrebased.flag (by decide)) (Quieter.ite (hrebased.flag (by decide)) hrebased)

theorem State.islandStart_quieter (s : State) (i : Nat) : Quieter s (s.islandStart i) := by
  unfold State.islandStart
  exact Quieter.ite ((Quieter.refl s).range fun x p hp => Quieter.ite (x.toDetect_quieter hp []) (.refl x))
    (Quieter.ite s.bwRelock_quieter (Quieter.ite s.lampStatus_quieter (Quieter.ite s.scrubAnew_quieter (.refl s))))

theorem State.dpLost_quieter (s : State) (r : Fin 4) : Quieter s (s.dpLost r) := by
  unfold State.dpLost
  extract_lets lost
  have hlost : Quieter s lost :=
    (((Quieter.refl s).flagAt r.isLt (by decide)).flagAt r.isLt (by decide)).incAt r.isLt (by decide)
  exact (hlost.within (State.onDp_within ..)).within (State.breakFrame_within ..)

theorem State.islandContent_quieter (s : State) (i : Nat) : Quieter s (s.islandContent i) := by
  unfold State.islandContent
  refine Quieter.ite ?_ (Quieter.ite ?_ (Quieter.ite ?_ (Quieter.ite ?_ (Quieter.ite ?_ (Quieter.ite ?_ (.refl s))))))
  · exact ((Quieter.refl s).range fun x p hp => (x.movePort_quieter hp _).putAt hp (by decide)).within (State.onLink_within ..)
  · exact s.lockReset_quieter.within (State.onTime_within ..)
  · extract_lets emptied blanked
    have hemptied : Quieter s emptied := (Quieter.refl s).each fun x _ _ => (Quieter.refl x).onLamp _
    have hblanked : Quieter s blanked := hemptied.each fun x _ _ => (Quieter.refl x).within (State.onLGroup_within ..)
    exact (hblanked.within (State.invalidateAll_within _)).onLamp _
  · exact (Quieter.refl s).each fun x r _ => x.dpLost_quieter r
  · exact (Quieter.refl s).onIngest _
  · exact (Quieter.refl s).within (s.onPwr_within _)

theorem State.resetStatus_quieter (s : State) (i : Nat) : Quieter s (s.resetStatus i) := by
  refine (Quieter.refl s).regs (s.resetStatus_within i) fun a ha => ?_
  have hcore : islandOf a = none := (by decide : ∀ a ∈ guarded, islandOf a = none) a ha
  unfold State.resetStatus
  extract_lets offs
  refine State.each_keeps_mem (fun t : State => t.reg a) _ _ s fun x b hb => ?_
  have hisland : islandOf b = some i := beq_iff_eq.mp (List.mem_filter.mp hb).2
  have hne : a ≠ b := by
    rintro rfl
    exact nomatch hcore.symm.trans hisland
  split
  · rw [State.reg_setReg, if_neg hne]
  · rfl

/-! ### A fold in its reset state (R345, R551) -/

/-- A field of the folds beside IN_RUN. -/
theorem Quieter.putFold {s t : State} (h : Quieter s t) {f : Fld} {n : Nat} (hn : n < 4) (v : Nat) (hf : foldFld f := by decide)
    (hrun : besideFld F.FOLDn_STATUS_IN_RUN f := by decide) : Quieter s (t.put f v n) := by
  refine h.trans ⟨?_, ?_, fun _ => id, fun m _ => ?_, fun m => .inl (by rw [State.put_fold]), by rw [State.put_folds]⟩
  · rw [State.b, State.f_congr (State.reg_put_fold hf hn (by decide) ..), State.b]
    exact id
  · rw [State.b, State.f_congr (State.reg_put_fold hf hn (by decide) ..), State.b]
    exact id
  · rw [State.inRun_put hrun]
    exact id

/-- A run that ends is none. -/
theorem State.inRun_ended (s : State) (n : Nat) : (s.flag F.FOLDn_STATUS_IN_RUN false n).inRun n = false :=
  State.b_flag _ _ _ _ _ (by decide) rfl

theorem Quieter.runEnded {s t : State} (h : Quieter s t) {n : Nat} (hn : n < 4) : Quieter s (t.flag F.FOLDn_STATUS_IN_RUN false n) := by
  refine h.trans ⟨?_, ?_, fun _ => id, fun m _ => ?_, fun m => .inl (by rw [State.flag_fold]), by rw [State.flag_folds]⟩
  · rw [State.b, State.f_congr (State.reg_flag_fold (by decide) hn (by decide) ..), State.b]
    exact id
  · rw [State.b, State.f_congr (State.reg_flag_fold (by decide) hn (by decide) ..), State.b]
    exact id
  · obtain rfl | hne := eq_or_ne m n
    · rw [State.inRun_ended]
      exact fun hrun => absurd hrun Bool.false_ne_true
    · rw [State.inRun, State.b_flag_other _ _ (by decide) (.inl (by simp only [Fld.addr, F.FOLDn_STATUS_IN_RUN]; omega)), State.inRun]
      exact id

/-- A change of a fold that zeroes its registers. -/
theorem Quieter.zeroFold {s t : State} (h : Quieter s t) {n : Nat} {g : Fold → Fold} (hg : ∀ f, (g f).k = List.replicate 32 0) :
    Quieter s (t.onFold n g) := by
  refine h.trans ⟨id, id, fun _ => id, fun _ _ => id, fun m => ?_, t.onFold_length n g⟩
  obtain rfl | hne := eq_or_ne m n
  · by_cases hlt : m < t.folds.length
    · exact .inr (by rw [State.fold_onFold_same _ hlt, hg])
    · refine .inl ?_
      rw [State.fold, nth, List.getD_eq_default _ _ (by rw [State.onFold_length]; omega), State.fold, nth,
        List.getD_eq_default _ _ (by omega)]
  · exact .inl (by rw [State.fold_onFold_ne _ _ hne])

theorem State.unwait_quieter (s : State) {n : Nat} (hn : n < 4) : Quieter s (s.unwait n) :=
  ((Quieter.refl s).putFold hn 0).onFold fun _ => rfl

theorem State.wakeFlags_quieter (s : State) (m : Nat) : Quieter s (s.wakeFlags m) := by
  refine (Quieter.refl s).range fun x n hn => ?_
  have hon (v : Bool) : Quieter x ((x.unwait n).onFold n fun f => { f with v := v }) := (x.unwait_quieter hn).onFold fun _ => rfl
  split
  · exact Quieter.ite (.refl x) (Quieter.ite (hon false) (Quieter.ite (.refl x) (hon true)))
  · exact .refl x

theorem State.runDown_quieter (s : State) {n : Nat} (hn : n < 4) : Quieter s (s.runDown n) := by
  unfold State.runDown
  extract_lets ended counted
  have hended : Quieter s ended := ((s.unwait_quieter hn).within (State.tickFresh_within _)).onFold fun _ => rfl
  have hcounted : Quieter s counted := Quieter.ite (hended.onRing fun _ => rfl) hended
  exact hcounted.onFold fun _ => rfl

theorem State.reportRun_quieter (s : State) {n : Nat} (hn : n < 4) : Quieter s (s.reportRun n) := by
  unfold State.reportRun
  extract_lets f timed discarded composed
  have htimed : Quieter s timed := ((Quieter.refl s).putFold hn _).putFold hn _
  have hdiscarded : Quieter s discarded := Quieter.ite ((htimed.putFold hn _).onFold fun _ => rfl) htimed
  have hcomposed : Quieter s composed := (hdiscarded.putFold hn _).putFold hn _
  exact (hcomposed.putFold hn _).putFold hn _

theorem State.endRun_quieter (s : State) {n : Nat} (hn : n < 4) : Quieter s (s.endRun n) := by
  rw [State.endRun_eq]
  have hreported : Quieter s ((s.runDown n).reportRun n) := (s.runDown_quieter hn).trans (State.reportRun_quieter _ hn)
  exact ((hreported.putFold hn _).runEnded hn).trans (State.wakeFlags_quieter ..)

/-- The run of a fold that is reset is abandoned. -/
def State.runLeft (s : State) (n : Nat) : State :=
  if s.inRun n then (s.endRun n).onComp fun c => { c with dropped := c.dropped || (s.isTile && !(s.fold n).complete) } else s

theorem State.runLeft_quieter (s : State) {n : Nat} (hn : n < 4) : Quieter s (s.runLeft n) :=
  Quieter.ite ((s.endRun_quieter hn).within (State.onComp_within ..)) (.refl s)

theorem State.runLeft_inRun (s : State) (n : Nat) : (s.runLeft n).inRun n = false := by
  rw [State.runLeft]
  split
  · exact (State.b_of_regs (State.onComp_regs ..) ..).trans (s.endRun_inRun n)
  · next hidle => exact Bool.eq_false_iff.mpr hidle

theorem State.foldReset_quieter (s : State) {n : Nat} (hn : n < 4) : Quieter s (s.foldReset n) := by
  unfold State.foldReset
  extract_lets f left discarded emptied
  have hleft : Quieter s left := s.runLeft_quieter hn
  have hdiscarded : Quieter s discarded := Quieter.ite (hleft.putFold hn _) hleft
  have hemptied : Quieter s emptied := hdiscarded.zeroFold fun _ => rfl
  exact ((hemptied.putFold hn 0).putFold hn 0).putFold hn 0

/-- A fold that is reset runs nothing, and its registers are zero. -/
theorem State.foldReset_rests (s : State) {n : Nat} (hn : n < s.folds.length) (hlt : n < 4) :
    (s.foldReset n).inRun n = false ∧ ((s.foldReset n).fold n).k = List.replicate 32 0 := by
  unfold State.foldReset
  extract_lets f left discarded emptied
  have hlength : discarded.folds.length = s.folds.length :=
    (Quieter.ite ((s.runLeft_quieter hlt).putFold hlt _) (s.runLeft_quieter hlt)).folds
  have hleft : left.inRun n = false := s.runLeft_inRun n
  clear_value left
  have hdiscarded : discarded.inRun n = false := by
    dsimp only [discarded]
    split
    · exact (State.inRun_put (by decide) ..).trans hleft
    · exact hleft
  refine ⟨?_, ?_⟩
  · rw [State.inRun_put (by decide), State.inRun_put (by decide), State.inRun_put (by decide), State.onFold_inRun, hdiscarded]
  · rw [State.put_fold, State.put_fold, State.put_fold, State.fold_onFold_same _ (hlength ▸ hn)]

/-! ### The scanned partitions (R551, R553) -/

theorem State.partReset_quieter (s : State) (p : Nat) : Quieter s (s.partReset p false) := by
  unfold State.partReset
  split
  · next hp =>
    refine Quieter.ite ?_ (.refl s)
    exact (s.foldReset_quieter (show p / 5 < 4 by omega)).onFold fun _ => rfl
  · refine Quieter.ite (.refl s) ?_
    extract_lets i reset
    have hreset : Quieter s reset := (s.islandContent_quieter i).trans (State.resetStatus_quieter _ i)
    exact Quieter.ite hreset (hreset.trans (State.islandStart_quieter _ i))

/-- Partition 5n is fold n itself. -/
theorem State.partReset_fold (s : State) {n : Nat} (hlt : n < 4) :
    s.partReset (5 * n) false = (s.foldReset n).onFold n fun f => { f with toRun := (s.fold n).toRun } := by
  rw [State.partReset, if_pos (by omega), if_pos (by simp), if_neg Bool.false_ne_true, Nat.mul_div_cancel_left n (by decide)]

theorem State.partReset_rests (s : State) {n : Nat} (hn : n < s.folds.length) (hlt : n < 4) :
    (s.partReset (5 * n) false).inRun n = false ∧ ((s.partReset (5 * n) false).fold n).k = List.replicate 32 0 := by
  obtain ⟨hrun, hk⟩ := s.foldReset_rests hn hlt
  rw [s.partReset_fold hlt, State.onFold_inRun]
  exact ⟨hrun, (State.fold_onFold_keeps Fold.k (by intro f; rfl) _ n n).trans hk⟩

/-- What was not shown is not shown then. -/
theorem not_shown {a b : Bool} (h : b = true → a = true) (ha : a = false) : b = false :=
  Bool.eq_false_iff.mpr fun hb => Bool.eq_false_iff.mp ha (h hb)

/-- What a quieter state keeps of a fold at rest. -/
theorem Quieter.rests {s t : State} (h : Quieter s t) {n : Nat} (hlt : n < 4)
    (hrests : s.inRun n = false ∧ (s.fold n).k = List.replicate 32 0) :
    t.inRun n = false ∧ (t.fold n).k = List.replicate 32 0 :=
  ⟨not_shown (h.run n hlt) hrests.1, (h.k n).elim (fun e => e.trans hrests.2) id⟩

/-- The reset of partitions leaves at rest each fold that is one of them. -/
theorem State.partsReset_rests {s : State} {n : Nat} {ps : List Nat} (hn : n < s.folds.length) (hlt : n < 4) (hmem : 5 * n ∈ ps) :
    (s.each ps fun t p => t.partReset p false).inRun n = false ∧
      ((s.each ps fun t p => t.partReset p false).fold n).k = List.replicate 32 0 := by
  obtain ⟨before, after, rfl⟩ := List.append_of_mem hmem
  have hbefore : Quieter s (s.each before fun t p => t.partReset p false) := (Quieter.refl s).each fun x p _ => x.partReset_quieter p
  rw [State.each, List.foldl_append, List.foldl_cons]
  refine ((Quieter.refl _).each fun x p _ => x.partReset_quieter p).rests hlt (State.partReset_rests _ ?_ hlt)
  exact hbefore.folds ▸ hn

/-! ### The keys that a scan entry clears (R553) -/

theorem State.secretClear_store (s : State) :
    (s.secretClear true).b F.SEC_WALLKEY_VALID = false ∧ (s.secretClear true).b F.RING_STATUS_KEY_VALID = false := by
  rw [State.secretClear, if_pos rfl, State.zeroiseKeys]
  refine ⟨?_, ?_⟩
  · rw [State.b_of_regs (State.onBoot_regs ..), State.b_flag_other _ _ (by decide) (.inl (by decide)),
      State.b_put_other _ _ (by decide) (.inl (by decide))]
    exact State.b_flag _ _ _ _ _ (by decide) rfl
  · rw [State.b_of_regs (State.onBoot_regs ..)]
    exact State.b_flag _ _ _ _ _ (by decide) rfl

/-- The clear of one link. -/
def State.linkCleared (s : State) (p : Nat) : State :=
  let cleared := s.onRing fun r => { r with enc := modAt r.enc p fun _ => {} }
  if (s.enc p).keys then cleared.toFault p 5 else cleared

theorem State.secretClear_links (s : State) : s.secretClear false = s.each (List.range 7) State.linkCleared := rfl

theorem State.linkCleared_quieter (s : State) {p : Nat} (hp : p < 7) : Quieter s (s.linkCleared p) := by
  unfold State.linkCleared
  extract_lets cleared
  have hcleared : Quieter s cleared := (Quieter.refl s).onEnc fun _ hkeys => absurd hkeys Bool.false_ne_true
  exact Quieter.ite (hcleared.trans (State.toFault_quieter _ hp 5)) hcleared

theorem State.linkCleared_enc (s : State) {p : Nat} (hp : p < 7) : ((s.linkCleared p).enc p).keys = false := by
  unfold State.linkCleared
  extract_lets cleared
  have hcleared : (cleared.enc p).keys = false := by
    have henc : cleared.enc p = nth (modAt s.ring.enc p fun _ => {}) p {} := rfl
    rw [henc]
    by_cases hlt : p < s.ring.enc.length
    · rw [nth_modAt_same _ _ _ _ hlt]
    · rw [nth, List.getD_eq_default _ _ (by rw [modAt_length]; omega)]
  split
  · exact not_shown ((State.toFault_quieter _ hp 5).link p) hcleared
  · exact hcleared

theorem State.linksCleared_quieter (s : State) : Quieter s (s.secretClear false) :=
  (Quieter.refl s).range fun x _ hp => x.linkCleared_quieter hp

theorem State.linksCleared_enc (s : State) {p : Nat} (hp : p < 7) : ((s.secretClear false).enc p).keys = false := by
  obtain ⟨before, after, hsplit⟩ := List.append_of_mem (List.mem_range.mpr hp)
  rw [State.secretClear_links, hsplit, State.each, List.foldl_append, List.foldl_cons]
  refine not_shown (Quieter.link (s := (s.each before State.linkCleared).linkCleared p) ?_ p) (State.linkCleared_enc _ hp)
  refine (Quieter.refl _).each fun x q hq => x.linkCleared_quieter (List.mem_range.mp (hsplit ▸ ?_))
  exact List.mem_append_right _ (List.mem_cons_of_mem _ hq)

/-- What the clause of O40 on a scan entry asks of the state after it: no key is valid, and each fold is in its reset state. -/
structure State.Bare (s : State) : Prop where
  wall : s.b F.SEC_WALLKEY_VALID = false
  ring : s.b F.RING_STATUS_KEY_VALID = false
  link : ∀ p < 7, (s.enc p).keys = false
  fold : ∀ n < 4, s.inRun n = false ∧ (s.fold n).k = List.replicate 32 0

theorem Quieter.bare {s t : State} (h : Quieter s t) (hbare : s.Bare) : t.Bare where
  wall := not_shown (h.wall) hbare.wall
  ring := not_shown (h.ring) hbare.ring
  link p hp := not_shown (h.link p) (hbare.link p hp)
  fold n hn := h.rests hn (hbare.fold n hn)

/-- The clear and the reset of the scanned logic leave no key. -/
theorem State.scanned_bare {s : State} (hfolds : s.folds.length = 4) : s.scanned.Bare := by
  obtain ⟨hwall, hring⟩ := s.secretClear_store
  have hlinks := (s.secretClear true).linksCleared_quieter
  have hreset : Quieter ((s.secretClear true).secretClear false) s.scanned := (Quieter.refl _).each fun x p _ => x.partReset_quieter p
  have hall := hlinks.trans hreset
  have hlength : ((s.secretClear true).secretClear false).folds.length = 4 :=
    hlinks.folds.trans ((congrArg List.length (State.secretClear_within s true).same_folds).trans hfolds)
  refine ⟨?_, ?_, fun p hp => ?_, fun n hn => ?_⟩
  · exact not_shown (hall.wall) hwall
  · exact not_shown (hall.ring) hring
  · exact not_shown (hreset.link p) (State.linksCleared_enc _ hp)
  · exact State.partsReset_rests (by omega) hn (List.mem_range.mpr (by omega))

/-! ### The stored key (R523, R555) -/

/-- No record of the length of the stored one unwraps. -/
def NothingUnwraps : Prop := ∀ rec_ : Bytes, rec_.length = 160 → Config.unwrapKey rec_ = none

theorem State.storedKey_length {s : State} {rec_ : Bytes} (h : s.storedKey = some rec_) : rec_.length = 160 := by
  unfold State.storedKey at h
  extract_lets b at h
  have hlength : b.length = 320 := by simp [b, State.flashRead, complement, Memory.read]
  split at h
  · rw [← Option.some.inj h, List.length_take, hlength]
    rfl
  · exact nomatch h

theorem State.unwrap_fails (s : State) {rec_ : Bytes} (h : Config.unwrapKey rec_ = none) :
    (s.unwrap rec_).1 = s.flag F.SEC_WALLKEY_UNWRAP_FAIL := by rw [State.unwrap, h]

theorem State.keyBack_quieter (h : NothingUnwraps) (s : State) : Quieter s s.keyBack := by
  unfold State.keyBack State.loadKey
  refine Quieter.ite (.refl s) ?_
  split
  · next rec_ hstored =>
    rw [State.unwrap_fails _ (h rec_ (State.storedKey_length hstored))]
    have hbeside : ∀ m < 4, F.FOLDn_STATUS_IN_RUN.addr m 0 ≠ F.SEC_WALLKEY_UNWRAP_FAIL.addr 0 0 := by decide
    refine ⟨?_, ?_, fun _ => id, fun m hm => ?_, fun _ => .inl (by rw [State.flag_fold]), by rw [State.flag_folds]⟩
    · rw [State.b_flag_other _ _ (by decide) (by decide)]
      exact id
    · rw [State.b_flag_other _ _ (by decide) (by decide)]
      exact id
    · rw [State.inRun, State.b, State.flag, State.f_put_ne _ _ _ _ _ _ _ _ (hbeside m hm), State.inRun, State.b]
      exact id
  · exact .refl s

/-- A scan entry where scan is open leaves no key when no record unwraps. -/
theorem jtagScanEntry_clears (h : NothingUnwraps) {s : State} (hopen : s.scanOpen = true) (hfolds : s.folds.length = 4) :
    yields (.jtagScanEntry true) s State.Bare :=
  ⟨_, exec_jtagScanEntry hopen, (State.keyBack_quieter h _).bare (State.scanned_bare hfolds)⟩

theorem jtagScanEntry_closed {s : State} {ok : Bool} (hclosed : s.scanOpen = false) : yields (.jtagScanEntry ok) s fun t => t = s := by
  refine ⟨s, ?_, rfl⟩
  show execJtagScanEntry ok s = _
  rw [execJtagScanEntry, hclosed, if_pos (by decide)]

/-! ### What O40 says -/

theorem complement_complement (b : Bytes) : complement (complement b) = b := by
  rw [complement, complement, List.map_map]
  exact List.map_id'' (fun x => BitVec.not_not) b

/-- What is written stands there. -/
theorem Memory.read_write_same (m : Memory) (a : Nat) (b : Bytes) : Memory.read (m.write a b) a b.length = b := by
  refine List.ext_getElem (by simp [Memory.read]) fun k _ hk => ?_
  simp only [Memory.read, List.getElem_map, List.getElem_range]
  exact Memory.get_write_inside m a b k hk

/-- A tile whose scan is open and whose flash holds a wall key record. -/
def keyedTile (rec_ : Bytes) : State :=
  scannedTile.onBoot fun b => { b with flash := Memory.write [] fWallKey (complement (rec_ ++ complement rec_)) }

theorem keyedTile_storedKey {rec_ : Bytes} (h : rec_.length = 160) : (keyedTile rec_).storedKey = some rec_ := by
  have hlength : (complement (rec_ ++ complement rec_)).length = 320 := by simp [complement, h]
  have hread : (keyedTile rec_).flashRead fWallKey 320 = rec_ ++ complement rec_ := by
    rw [State.flashRead, keyedTile, State.onBoot_boot]
    dsimp only
    rw [← hlength, Memory.read_write_same, complement_complement]
  rw [State.storedKey, hread, List.take_left' h, List.drop_left' h, if_pos (beq_self_eq_true _)]

theorem keyedTile_open (rec_ : Bytes) : (keyedTile rec_).scanOpen = true := by
  rw [keyedTile, State.scanOpen, State.onBoot_pwr, State.b_of_regs (State.onBoot_regs ..), State.f_of_regs (State.onBoot_regs ..),
    ← State.scanOpen]
  decide +kernel

theorem keyedTile_folds (rec_ : Bytes) : (keyedTile rec_).folds.length = 4 := by
  rw [keyedTile, State.onBoot_folds]
  decide +kernel

theorem keyedTile_lifeCycle (rec_ : Bytes) : (keyedTile rec_).boot.otp.lc ≠ 4 ∧ (keyedTile rec_).boot.otp.lc ≠ 5 := by
  rw [keyedTile, State.onBoot_boot]
  dsimp only
  decide +kernel

/-- The clause of O40 on a scan entry has no record unwrap. -/
theorem nothingUnwraps_of_selfTestActs (h : Obligations.SelfTestActs) : NothingUnwraps := by
  obtain ⟨-, -, -, -, -, -, -, hscan, -⟩ := h
  intro rec_ hrec
  obtain ⟨t, hnext, hclear, -⟩ := hscan (keyedTile rec_) (keyedTile_open rec_) (keyedTile_folds rec_)
  rw [exec_jtagScanEntry (keyedTile_open rec_), Host.Outcome.next.injEq] at hnext
  refine Option.eq_none_iff_forall_not_mem.mpr fun k hk => ?_
  have hvalid := State.scanned_keyBack_valid (keyedTile_lifeCycle rec_) (keyedTile_storedKey hrec) hk
  rw [hnext, hclear] at hvalid
  exact Bool.false_ne_true hvalid

/-- O40 asks of the opaque unwrapping of a stored key, and of nothing else, what the model does not decide: every other clause holds. -/
theorem selfTestActs_iff_nothingUnwraps : Obligations.SelfTestActs ↔ NothingUnwraps := by
  refine ⟨nothingUnwraps_of_selfTestActs, fun hnone => ?_⟩
  refine ⟨fun s ok p h hpre hp hstart => ?_, fun s ok h hpre => ?_, fun s ok p h hpre hp hbad => ?_, fun s ok i h hpre hi hstart => ?_,
    fun s r hup hrun hrequest => ?_, fun s r p rest hup hrun hrequest hlogic hleft hp hparts => ?_, fun s hup => ?_,
    fun s hopen hfolds => ?_, fun s ok hclosed => ?_, fun s r hpre hrun => ?_, fun s misr ok p hrun hpre hp => ?_,
    fun s ok i hrun hpre hi => ?_, fun s word bit spare ok i hrun hpre hi hfirst => ?_, fun s p hrot hp hfold hnew => ?_,
    fun s p hrot hidle hp hfree hfits hpre hwindow hlt => ?_⟩
  · exact lbGo_starts h.1 h.2 hpre hp.1 hp.2.1 hp.2.2 hstart.1 hstart.2.1 hstart.2.2
  · exact lbGo_barred h.1 h.2 hpre
  · exact lbGo_refuses h.1 h.2 hpre hp.1 hp.2 hbad
  · exact mbGo_starts h.1 h.2 hpre hi.1 hi.2 hstart.1 hstart.2
  · exact bistAbort_ends hup hrun hrequest
  · exact bistAbort_records hup hrun hrequest hlogic hleft hp hparts
  · exact bistClear_zeroes hup
  · obtain ⟨t, hnext, hbare⟩ := jtagScanEntry_clears hnone hopen hfolds
    exact ⟨t, hnext, hbare.wall, hbare.ring, fun p hp => hbare.link p (List.mem_range.mp hp),
      fun n hn => (hbare.fold n (List.mem_range.mp hn)).symm⟩
  · exact jtagScanEntry_closed hclosed
  · exact bistPrecondSample_marks hpre hrun
  · exact lbistPartitionDone_judges hrun hpre hp.1 hp.2.1 hp.2.2
  · exact mbistInstanceDone_zeroes hrun hpre hi.1 hi.2
  · exact mbistInstanceDone_records hrun hpre hi hfirst
  · exact onlineBistWindow_begins hrot hp hfold hnew
  · exact onlineBistGapStart_tests hrot hidle.1 hidle.2 hp.1 hfree.1 hfree.2 hfits hpre hwindow hlt

end Sys2Proof.Machine
end
